-- ==== Sys2Proof/Word.lean ====
section
/-! DEFINITION. The word types of the device: 32-bit registers and memory words, bytes. -/
namespace Sys2Proof

/-- A register or memory word (spec/00: "Registers are 32 bits wide"). -/
abbrev Word := BitVec 32

/-- A byte of a host-visible byte memory. -/
abbrev Byte := BitVec 8

end Sys2Proof
end

