-- ==== Sys2Proof/Syntax.lean ====
section
/-! DEFINITION. The commands of the block: one constructor per row of spec/opcode_table.json, with the row's operands.
What the outside supplies with an event (a reading of an analogue quantity, a received frame, the outcome of a transfer)
is an operand of its command. -/
namespace Sys2Proof

/-- The agents that issue register accesses (spec/02): the PCI Express endpoint, the quad-SPI target, the supervisor. -/
inductive Agent where
  | pcie | spi | sup
  deriving DecidableEq, Repr

/-- The two hearths. -/
inductive Hearth where
  | a | b
  deriving DecidableEq, Repr

/-- An engine, 0 to 15 (spec/04). -/
abbrev Eng := Fin 16
/-- The register files of an engine (R166), a lane, and a DRAM channel. -/
abbrev SReg := Fin 16
abbrev VReg := Fin 32
abbrev AReg := Fin 8
abbrev PReg := Fin 4
abbrev WReg := Fin 4
abbrev Lane := Fin 8
abbrev Chan := Fin 2
/-- A job index (R79) and a host address (R520, 24 bits). -/
abbrev JobIx := Fin 1024
abbrev Addr := Fin 0x1000000

/-- A flow of the standing plan (R453): direction, flow index, descriptor words 0x00 to 0x1F, and the match records or
header templates of its paths. -/
structure PlanFlow where
  tx : Bool
  flow : Nat
  desc : List Word
  recs0 : List Word
  recs1 : List Word
  deriving DecidableEq, Repr

/-- A standing plan as the boot flash partition holds it (R451, R537): the split of the reserve, the standing images
and banks, the descriptors, and the flows and TDM registers it names. -/
structure StandPlan where
  sb : Nat := 0
  sf : Nat := 0
  /-- Images as byte lists. -/
  images : List (List Byte) := []
  banks : List (Nat × List Word) := []
  jobs : List (List Word) := []
  flows : List PlanFlow := []
  /-- TDM and SRC configuration words: (host offset, value). -/
  ports : List (Nat × Word) := []
  deriving DecidableEq, Repr

/-- The signature block of a signed partition (R477), as far as R478 judges it: whether the block is well formed and its
KIND that of the partition, its SLOT, the SHA-256 digest of QX‖QY, whether the signature verifies with that key, and its
SECVER. -/
structure SigBlock where
  formed : Bool := true
  slot : Nat := 0
  hash : List Byte := []
  verifies : Bool := true
  secver : Nat := 0
  deriving DecidableEq, Repr

/-- What kindling finds (R475 to R482): the pins, the flash, the partition table, the signed partitions, the training and
test results, and the ash dump partition. -/
structure BootFind where
  /-- PRSNT_N is low at release. -/
  seated : Bool := true
  /-- A flash answers; its bytes; a partition table is good; it is the backup copy; PREFER. -/
  flash : Bool := true
  flashBytes : Nat := 0
  table : Bool := true
  backup : Bool := false
  prefer : Fin 2 := 0
  /-- Firmware images A and B, and whether each reports liveness once started. -/
  fwA : SigBlock := {}
  fwB : SigBlock := {}
  liveA : Bool := true
  liveB : Bool := true
  /-- The configuration record and its entries. -/
  cfg : SigBlock := {}
  config : List (Nat × Word) := []
  /-- Training of each channel; and PGU_DRAM_INFO bits [4:0], from the DRAM record (R222). -/
  dram0 : Bool := true
  dram1 : Bool := true
  dramInfo : Nat := 0
  bistA : Bool := true
  bistB : Bool := true
  /-- The standing program partition; the message store partition, its flash address and its bytes of payload. -/
  stand : SigBlock := {}
  standing : StandPlan := {}
  msg : SigBlock := {}
  msgBase : Nat := 0
  msgLen : Nat := 0
  /-- The ash dump partition: its flash address and its sectors M; the ageing record in it reads with a wrong CRC. -/
  dumpBase : Nat := 0
  dumpSectors : Nat := 0
  ageBad : Bool := false
  /-- Lane PLLs that have not locked to their reference clock at the enables (R279). -/
  noRef : BitVec 2 := 0
  /-- The time since release at which kindling ends, in ms. -/
  ms : Nat := 0
  deriving DecidableEq, Repr

/-- What one input slot of a TDM port received in a tick: one word per frame, as `dinWord` reads it from the pin; for a port with a
converter, the words the converter yields. -/
structure SlotData where
  port : Fin 16
  slot : Fin 16
  words : List Word
  deriving DecidableEq, Repr

/-- A frame as a port receives it: its bytes from the destination address to the FCS inclusive, whether the FCS is right,
and whether a PCS symbol or block error fell inside it. -/
structure RxFrame where
  bytes : List Byte
  fcsOk : Bool := true
  pcsError : Bool := false
  deriving DecidableEq, Repr

/-- An exchange (R327): its four times and correction fields in ns, and the mean link delay that the peer delay mechanism
gives; `frames`: its stamped frames, as direction (egress), messageType and sequenceId (R323); the state the BMCA gives the port, if
it changes. -/
structure ExchangeData where
  frames : List (Bool × BitVec 4 × BitVec 16) := []
  t1 : Int := 0
  t2 : Int := 0
  t3 : Int := 0
  t4 : Int := 0
  cS : Int := 0
  cD : Int := 0
  link : Int := 0
  st : Option (Fin 8) := none
  deriving DecidableEq, Repr

/-- The commands. -/
inductive Instr where
  /-- TICK_BOUNDARY: The tick generator asserts the next tick boundary (R8); `slots` is what the TDM ports received in the tick that ends (R262); `jbue` are the read positions of receive flows with an uncorrectable jitter buffer error (R241); `conv`: rate estimate and phase of the converters (R274). -/
  | tickBoundary (slots : List SlotData) (jbue : List (BitVec 8 × Fin 16)) (noRef : BitVec 2) (conv : List (Fin 4 × BitVec 24 × BitVec 16))
  /-- COMPUTE_WINDOW: The plan window ends (R75). -/
  | computeWindow
  /-- CLOSE_WINDOW: The compute window ends (R75). -/
  | closeWindow
  /-- TICK_COMPLETION: Hearth `h` signals tick completion (R77). -/
  | tickCompletion (h : Hearth) (ns : Nat)
  /-- JOB_RUN_START: The next placed job of engine `e` starts (R92). -/
  | jobRunStart (e : Eng)
  /-- BUDGET: The job on engine `e` reaches WCET (R97). -/
  | budget (e : Eng)
  /-- SLACK_DISPATCH: Engine `e` is free with `left` cycles of the compute window to go (R110). -/
  | slackDispatch (e : Eng) (left : Nat)
  /-- E_RETRY: A suspended E-class job's retry is due (R100). -/
  | eRetry (job : JobIx)
  /-- STORM_START: The demand misses of hearth `h` in this tick reach THRESH (R104). -/
  | stormStart (h : Hearth)
  /-- STORM_END: CLEAR quiet ticks have passed in hearth `h` (R104). -/
  | stormEnd (h : Hearth)
  /-- ENGINE_FAULT: An engine fault of R160; `reason` is the reason of ENGFAIL, `cyc` the cycle of the run in progress in which it comes. -/
  | engineFault (e : Eng) (reason : BitVec 8) (cyc : Nat)
  /-- ISRAM_UE: An uncorrectable instruction SRAM error at word `ix`, found by a fetch of engine `fetch` or by the scrubber (R159). -/
  | isramUe (h : Hearth) (ix : Nat) (fetch : Option Eng)
  /-- ISRAM_REWRITE: The supervisor rewrites the failing word (R159). -/
  | isramRewrite (h : Hearth) (ix : Nat)
  /-- GUE: An uncorrectable grate error at word `word` of hearth `h`, found by an engine or by the scrubber (R195). -/
  | gue (h : Hearth) (word : Nat) (by_ : Option Eng)
  /-- WAIT_TIMEOUT: The WAIT of engine `e` has waited T cycles (R145). -/
  | waitTimeout (e : Eng)
  /-- SUP_RESTART: A lockstep miscompare resets the supervisor (R21). -/
  | supRestart
  /-- SUP_RESUME: The restarted supervisor resumes its protocol work (R21). -/
  | supResume
  /-- REGISTER_WRITE: A host write at `addr` with byte enables `be`; `coll`: a hardware update of an HRW field of the word falls in the same cycle (R29, R34). -/
  | registerWrite (h : Agent) (addr : Addr) (data : Word) (be : BitVec 4) (coll : Bool)
  /-- RC_READ: A read at `addr` (R29, R31). -/
  | rcRead (h : Agent) (addr : Addr)
  /-- LATCHED_READ: A read of the lowest word of a multi-word value (R27). -/
  | latchedRead (h : Agent) (addr : Addr)
  /-- EVQ_POP: A read of INT_EVQ0 at its own address (R72). -/
  | evqPop (h : Agent)
  /-- FLUSH: INT_EVQ_CFG.FLUSH is written 1 (R74). -/
  | flush (h : Agent)
  /-- COMMIT_STROBE: CMT_STROBE is written (R36). -/
  | commitStrobe (h : Agent) (groups : BitVec 16)
  /-- COMMIT: The oldest pending groups that are not tick-bound commit (R38). -/
  | commit (noRef : BitVec 2)
  /-- GROUP_MAP_WRITE: CMT_GROUPMAP`ix` is written (R41). -/
  | groupMapWrite (h : Agent) (ix : Fin 3) (data : Word)
  /-- SLOW_WRITE_LAND: The oldest queued slow-domain write or RC clear lands (R66). -/
  | slowWriteLand
  /-- SLOW_COMMIT_LAND: The oldest slow-domain commit lands (R40). -/
  | slowCommitLand
  /-- CRC_SCAN_START: A configuration scan starts (R54). -/
  | crcScanStart
  /-- CRC_SCAN_DONE: The running scan completes (R55). -/
  | crcScanDone
  /-- CRC_CAPTURE: CMT_CRC_CAPTURE.GO is written 1 (R57). -/
  | crcCapture (h : Agent)
  /-- MASKED_WRITE: A write into the masked-write view at window address `addr` (R59); `coll`: a hardware update of an HRW field of the word falls in the same cycle (R34, R61). -/
  | maskedWrite (h : Agent) (addr : Addr) (data : Word) (be : BitVec 4) (coll : Bool)
  /-- BIT_ALIAS_WRITE: A write into the bit-alias view at window address `addr` (R60); `coll`: a hardware update of an HRW field of the word falls in the same cycle (R34, R61). -/
  | bitAliasWrite (h : Agent) (addr : Addr) (data : Word) (be : BitVec 4) (coll : Bool)
  /-- MACC_SNAP: MACC_SNAP is written 1 (R64). -/
  | maccSnap (h : Agent)
  /-- JOB_READ: Job command READ (R81). -/
  | jobRead (h : Agent) (job : JobIx)
  /-- ADMIT: Job command ADMIT (R81, R94). -/
  | admitJob (h : Agent) (job : JobIx)
  /-- UPDATE: Job command UPDATE (R81, R94). -/
  | updateJob (h : Agent) (job : JobIx)
  /-- RELEASE: Job command RELEASE (R82). -/
  | releaseJob (h : Agent) (job : JobIx)
  /-- SUSPEND: Job command SUSPEND (R81). -/
  | suspendJob (h : Agent) (job : JobIx)
  /-- RESUME: Job command RESUME (R81). -/
  | resumeJob (h : Agent) (job : JobIx)
  /-- TILES_ZEROED: The tiles being zeroed in hearth `h` are back in the pool (R200). -/
  | tilesZeroed (h : Hearth)
  /-- LOAD: Loader command LOAD of the image at ENG_LDSRC.OFFSET (R153). -/
  | load (h : Agent) (id : BitVec 12) (hmask : BitVec 2)
  /-- LOADED: The LOAD in progress ends; `verify`: the write-verify of instruction SRAM passed (R154, R158). -/
  | loaded (verify : Bool)
  /-- UNLOAD: Loader command UNLOAD (R158). -/
  | unload (h : Agent) (id : BitVec 12) (hmask : BitVec 2)
  /-- QUERY: Loader command QUERY (R158). -/
  | query (h : Agent) (id : BitVec 12) (hmask : BitVec 2)
  /-- RETEST: ENG_CMD.RETEST (R161). -/
  | retest (h : Agent) (e : Eng)
  /-- RETEST_DONE: The self-test of engine `e` completes (R161). -/
  | retestDone (e : Eng) (pass : Bool)
  /-- WCLR: ENG_CMD.WCLR (R163). -/
  | wclr (h : Agent) (e : Eng)
  -- Engine instructions (spec/05). `e` is the engine that issues the instruction.
  | sadd (e : Eng) (d a b : SReg) | ssub (e : Eng) (d a b : SReg) | sand (e : Eng) (d a b : SReg)
  | sor (e : Eng) (d a b : SReg) | sxor (e : Eng) (d a b : SReg) | sshl (e : Eng) (d a b : SReg)
  | sshr (e : Eng) (d a b : SReg) | sshrl (e : Eng) (d a b : SReg) | smul (e : Eng) (d a b : SReg)
  | smin (e : Eng) (d a b : SReg) | smax (e : Eng) (d a b : SReg) | sminu (e : Eng) (d a b : SReg)
  | smaxu (e : Eng) (d a b : SReg) | aadds (e : Eng) (d a : AReg) (b : SReg)
  | saddi (e : Eng) (d a : SReg) (imm : BitVec 12) | sandi (e : Eng) (d a : SReg) (imm : BitVec 12)
  | sori (e : Eng) (d a : SReg) (imm : BitVec 12) | sshi (e : Eng) (d a : SReg) (right : Bool) (sh : Fin 32)
  | slui (e : Eng) (d : SReg) (imm : BitVec 20) | sli (e : Eng) (d : SReg) (imm : BitVec 20)
  | aaddi (e : Eng) (d a : AReg) (imm : BitVec 12) | amov (e : Eng) (d : AReg) (a : SReg) | samov (e : Eng) (d : SReg) (a : AReg)
  | pand (e : Eng) (d a b : PReg) | por (e : Eng) (d a b : PReg) | pxor (e : Eng) (d a b : PReg) | pandn (e : Eng) (d a b : PReg)
  | pnot (e : Eng) (d a : PReg) | pfroms (e : Eng) (d : PReg) (a : SReg) | ptos (e : Eng) (d : SReg) (a : PReg)
  | pcnt (e : Eng) (d : SReg) (a : PReg) | pseti (e : Eng) (d : PReg) (imm : BitVec 8)
  | qadd (e : Eng) (d a b : VReg) (p : PReg) | qsub (e : Eng) (d a b : VReg) (p : PReg)
  | qneg (e : Eng) (d a : VReg) (p : PReg) | qabs (e : Eng) (d a : VReg) (p : PReg)
  | qmin (e : Eng) (d a b : VReg) (p : PReg) | qmax (e : Eng) (d a b : VReg) (p : PReg)
  | qshl (e : Eng) (d a : VReg) (b : SReg) (p : PReg) | qshr (e : Eng) (d a : VReg) (b : SReg) (p : PReg)
  | qmul (e : Eng) (d a b : VReg) (p : PReg) | qmuls (e : Eng) (d a : VReg) (b : SReg) (p : PReg)
  | vadd (e : Eng) (d a b : VReg) (p : PReg) | vsub (e : Eng) (d a b : VReg) (p : PReg)
  | vand (e : Eng) (d a b : VReg) (p : PReg) | vor (e : Eng) (d a b : VReg) (p : PReg) | vxor (e : Eng) (d a b : VReg) (p : PReg)
  | vshl (e : Eng) (d a : VReg) (b : SReg) (p : PReg) | vshr (e : Eng) (d a : VReg) (b : SReg) (p : PReg)
  | vshrl (e : Eng) (d a : VReg) (b : SReg) (p : PReg)
  | qceq (e : Eng) (d : PReg) (a b : VReg) (p : PReg) | qclt (e : Eng) (d : PReg) (a b : VReg) (p : PReg)
  | qcle (e : Eng) (d : PReg) (a b : VReg) (p : PReg) | fceq (e : Eng) (d : PReg) (a b : VReg) (p : PReg)
  | fclt (e : Eng) (d : PReg) (a b : VReg) (p : PReg) | fcle (e : Eng) (d : PReg) (a b : VReg) (p : PReg)
  | vmov (e : Eng) (d a : VReg) (p : PReg) | vbcst (e : Eng) (d : VReg) (a : SReg) (p : PReg)
  | vext (e : Eng) (d : SReg) (a : VReg) (n : Lane) | vins (e : Eng) (d : VReg) (a : SReg) (n : Lane)
  | vrot (e : Eng) (d a : VReg) (n : Lane) (p : PReg) | vdup (e : Eng) (d a : VReg) (n : Lane) (p : PReg)
  | vli (e : Eng) (d : VReg) (imm : BitVec 12) (p : PReg) | vliu (e : Eng) (d : VReg) (imm : BitVec 12) (p : PReg)
  | macv (e : Eng) (d : WReg) (a b : VReg) (p : PReg) | msuv (e : Eng) (d : WReg) (a b : VReg) (p : PReg)
  | wextl (e : Eng) (d : VReg) (a : WReg) (sh : Fin 32) (p : PReg) | wextr (e : Eng) (d : VReg) (a : WReg) (sh : Fin 32) (p : PReg)
  | wextt (e : Eng) (d : VReg) (a : WReg) (sh : Fin 32) (p : PReg)
  /-- WTOV: `d` must be 29 or less (R173). -/
  | wtov (e : Eng) (d : VReg) (a : WReg) (p : PReg)
  /-- VTOW: `a` must be 29 or less (R173). -/
  | vtow (e : Eng) (d : WReg) (a : VReg) (p : PReg)
  /-- CSTEP: `d` must be 0 or 2 (R173). -/
  | cstep (e : Eng) (d : WReg) (a b : VReg) (p : PReg)
  | fadd (e : Eng) (d a b : VReg) (p : PReg) | fsub (e : Eng) (d a b : VReg) (p : PReg) | fmul (e : Eng) (d a b : VReg) (p : PReg)
  | fmin (e : Eng) (d a b : VReg) (p : PReg) | fmax (e : Eng) (d a b : VReg) (p : PReg)
  | fabs (e : Eng) (d a : VReg) (p : PReg) | fneg (e : Eng) (d a : VReg) (p : PReg)
  | fdiv (e : Eng) (d a b : VReg) (p : PReg) | fsqrt (e : Eng) (d a : VReg) (p : PReg)
  | fma (e : Eng) (d a b : VReg) (p : PReg) | fms (e : Eng) (d a b : VReg) (p : PReg)
  | qtof (e : Eng) (d a : VReg) (p : PReg) | ftoq (e : Eng) (d a : VReg) (p : PReg)
  | itof (e : Eng) (d a : VReg) (p : PReg) | ftoi (e : Eng) (d a : VReg) (p : PReg)
  | ldt (e : Eng) (d : VReg) (a : AReg) (off : BitVec 10) (p : PReg)
  /-- LDC: K from 0 to 11 (R175). -/
  | ldc (e : Eng) (d : VReg) (a : AReg) (off : BitVec 10) (k : Fin 12) (p : PReg)
  | lds (e : Eng) (d : SReg) (a : AReg) (off : BitVec 10) (k : Lane)
  | stt (e : Eng) (src : VReg) (a : AReg) (off : BitVec 10) (p : PReg)
  | stc (e : Eng) (src : VReg) (a : AReg) (off : BitVec 10) (k : Fin 12) (p : PReg)
  | sts (e : Eng) (src : SReg) (a : AReg) (off : BitVec 10) (k : Lane)
  | dlrd (e : Eng) (d : VReg) (a : SReg) (line : BitVec 12) (p : PReg)
  | dlwr (e : Eng) (src : VReg) (a : SReg) (line : BitVec 12) (p : PReg)
  /-- BIQ: `d` at most 27 (R182). -/
  | biq (e : Eng) (d src : VReg) (cix : BitVec 10) (lane : Bool) (p : PReg)
  /-- GRAMP: `d` at most 30 (R182). -/
  | gramp (e : Eng) (d src : VReg) (cix : BitVec 10) (lane : Bool) (p : PReg)
  /-- GRAMPV: `d` at most 29 (R182). -/
  | grampv (e : Eng) (d src : VReg) (cix : BitVec 10) (lane : Bool) (p : PReg)
  | envp (e : Eng) (d src : VReg) (cix : BitVec 10) (lane : Bool) (p : PReg)
  | envs (e : Eng) (d src : VReg) (cix : BitVec 10) (lane : Bool) (p : PReg)
  | limg (e : Eng) (d src : VReg) (cix : BitVec 10) (lane : Bool) (p : PReg)
  | mixa (e : Eng) (d : WReg) (src : VReg) (cix : BitVec 10) (lane : Bool) (p : PReg)
  | mixs (e : Eng) (d : WReg) (src : VReg) (cix : BitVec 10) (lane : Bool) (p : PReg)
  | mixl (e : Eng) (d : WReg) (src : VReg) (cix : BitVec 10) (lane : Bool) (p : PReg)
  /-- BR: the offset must be positive (R188). -/
  | br (e : Eng) (off : BitVec 20)
  | bz (e : Eng) (a : SReg) (off : BitVec 20) | bnz (e : Eng) (a : SReg) (off : BitVec 20) | bpz (e : Eng) (a : PReg) (off : BitVec 20)
  | loop (e : Eng) (count : BitVec 12) (len : BitVec 8)
  /-- LOOP with a register count: the ceiling is 1 to 4095 (R188). -/
  | loopReg (e : Eng) (a : SReg) (ceil : BitVec 12) (len : BitVec 8)
  /-- CALL: the offset is not 0 (R188). -/
  | call (e : Eng) (off : BitVec 20)
  | ret (e : Eng) | signal (e : Eng) (f : Fin 16)
  /-- WAIT: T is 1 to 4095 (R188). -/
  | wait (e : Eng) (d : SReg) (f : Fin 16) (t : BitVec 12)
  | post (e : Eng) (a : SReg) (c : BitVec 7) | endRun (e : Eng)
  | nop (e : Eng) | rdflg (e : Eng) (d : SReg) | rdcyc (e : Eng) (d : SReg) | lidx (e : Eng) (d : SReg)
  /-- The wide WCLR of R173 (the row WCLR_INSTRUCTION). -/
  | wclrInstruction (e : Eng) (d : WReg) (p : PReg)
  /-- WINDOW_WRITE: A write at byte `off` of the grate window (R197, R198). -/
  | windowWrite (h : Agent) (off : Fin 0x400000) (data : Word)
  /-- DL_READ: Delay-line command READ (R203). -/
  | dlRead (h : Agent) (line : BitVec 12)
  /-- DEFINE: Delay-line command DEFINE (R203). -/
  | defineLine (h : Agent) (line : BitVec 12)
  /-- FREE: Delay-line command FREE (R203). -/
  | freeLine (h : Agent) (line : BitVec 12)
  /-- PAGE_READ_DONE: The read of a page into hearth `h` completes; `cycles` is the stall of a run that waited for it, `ce` the single-bit errors it corrected (R206, R210, R224). -/
  | pageReadDone (h : Hearth) (line page cycles ce : Nat)
  /-- PAGE_WRITE_DONE: The write-back of a page completes (R206). -/
  | pageWriteDone (h : Hearth) (line page : Nat)
  /-- MSG_RELOAD: PGU_CMD.MSG_RELOAD (R221). -/
  | msgReload (h : Agent)
  /-- MSGLOAD: The load of the message store from the boot flash ends (R219, R221). -/
  | msgLoad
  /-- DUE: An uncorrectable DRAM error at 64-bit word `word`; `second`: a copy read from the other channel fails too (R224). -/
  | due (ch : Chan) (word : Nat) (second : Bool)
  /-- ZQ_CAL: ZQ calibration (R225). -/
  | zqCal (ch : Chan)
  /-- DQS_TRACK: DQS oscillator tracking (R225). -/
  | dqsTrack (ch : Chan) (ok : Bool)
  /-- MR4_READ: The MR4 read returns `rate` (R225). -/
  | mr4Read (ch : Chan) (rate : BitVec 3)
  /-- DRAM_CMD_TIMEOUT: A DRAM command has not completed within 10 µs (R226). -/
  | dramCmdTimeout (ch : Chan)
  /-- RETRAIN: PGU_CMD.RETRAINx (R227). -/
  | retrain (h : Agent) (ch : Chan)
  /-- RETRAIN_DONE: The retrain ends (R227). -/
  | retrainDone (ch : Chan) (pass : Bool)
  /-- RESYNC_DONE: The resynchronisation copy completes (R227). -/
  | resyncDone
  /-- APPLY: Flow command APPLY (R232). -/
  | apply (h : Agent) (tx : Bool) (flow : BitVec 8)
  /-- STOP: Flow command STOP (R232). -/
  | stop (h : Agent) (tx : Bool) (flow : BitVec 8)
  /-- RX_FRAME: Port `n` has received a frame; `age` ns before the instant its start crossed the PCS; `taken`: the bytes that the supervisor has taken out of its receive partition since the frame before (R284, R287). -/
  | rxFrame (n : Fin 2) (frame : RxFrame) (age ns taken : Nat)
  /-- PATHDOWN: Path `n` of a receive flow has had no valid copy for TIMEOUT ticks (R243). -/
  | pathdown (flow : BitVec 8) (n : Fin 2)
  /-- SAP_ANNOUNCE: The supervisor announces the flows with ANNOUNCE = 1 (R256). -/
  | sapAnnounce
  /-- FSYNC_TIMEOUT: Slave port `n` has had no FSYNC edge for 2 × Ts (R267). -/
  | fsyncTimeout (n : Fin 16) (ns : Nat)
  /-- XREVERT: The selected synthesizer of cross-failed port `n` has held lock for 8,000 ticks (R269). -/
  | xrevert (n : Fin 16)
  /-- SRCLOCK: Converter `m` declares or loses lock; `rate` is the estimate of Fp in 0.01 Hz, `phase` is φ in ns (R273, R274). -/
  | srclock (m : Fin 4) (locked : Bool) (rate : BitVec 24) (phase : BitVec 16)
  /-- PAUSE: Port `n` receives a PAUSE frame (R296). -/
  | pause (n : Fin 2) (time : BitVec 16) (ns : Nat)
  /-- PFC: Port `n` receives a PFC frame (R296). -/
  | pfc (n : Fin 2) (vec : BitVec 8) (times : List (BitVec 16)) (ns : Nat)
  /-- PAUSE_EXPIRY: The pause timer of a queue reaches zero (R296). -/
  | pauseExpiry (n : Fin 2) (q : Fin 8) (ns : Nat)
  /-- TX_FRAME: The line of port `n` is free; `lag` ns after this instant is the raw egress stamp (R292, R318). -/
  | txFrame (n : Fin 2) (lag ns : Nat)
  /-- DAMPER_BREAK: D of a queue reaches DAMPER_LIMIT (R300). -/
  | damperBreak (n : Fin 2) (q : Fin 8) (ns : Nat)
  /-- DAMPER_CLOSE: DAMPER_OPEN ms have passed without a nonzero pause frame that names the queue (R301). -/
  | damperClose (n : Fin 2) (q : Fin 8) (ns : Nat)
  /-- LINKUP: The conditions of R281 come to hold; `partner`: the base page that the partner advertises (R280). -/
  | linkup (n : Fin 2) (partner : BitVec 16) (ns : Nat)
  /-- LINKDOWN: The link goes down; the causes that hold (R281, R310). -/
  | linkdown (n : Fin 2) (los lock rfault lfault : Bool) (ns : Nat)
  /-- SFP_INSERT: SFPn_MODABS shows a module for 100 ms (R304). -/
  | sfpInsert (n : Fin 2) (ns : Nat)
  /-- SFP_REMOVE: SFPn_MODABS shows no module for 100 ms (R304). -/
  | sfpRemove (n : Fin 2) (ns : Nat)
  /-- SFP_ID_READ: The supervisor has read bytes 0, 3, 6 and 12 at A0h (R305). -/
  | sfpIdRead (n : Fin 2) (id : Word)
  /-- SFP_DIAG_POLL: The supervisor has read bytes 96 to 105 at A2h, and bytes 112 and 113 (R305). -/
  | sfpDiagPoll (n : Fin 2) (d0 d1 : Word) (rx alarms : BitVec 16)
  /-- SFP_FAULT: SFPn_TXFAULT goes high (R306). -/
  | sfpFault (n : Fin 2) (ns : Nat)
  /-- TXFAULT_PERSISTS: TX_FAULT is still high 100 ms later (R306). -/
  | txfaultPersists (n : Fin 2)
  /-- SFP_READ: MACn_SFPCMD.GO: the module's answer (R307). -/
  | sfpRead (h : Agent) (n : Fin 2) (dev : Bool) (offset : BitVec 8) (len : BitVec 2) (data : Word) (acked : Bool)
  /-- STAMP_QUEUE_READ: A read of TSU_QHEADq_0 at its own address (R321). -/
  | stampQueueRead (h : Agent) (q : Fin 4)
  /-- EXCHANGE: The supervisor hands the servo an exchange of port `n` (R327). -/
  | exchange (n : Fin 2) (x : ExchangeData)
  /-- PSTEP_ACCEPT: The single-port hold time of port `n` ends (R334). -/
  | pstepAccept (n : Fin 2)
  /-- ANNOUNCE: An Announce message of port `n`'s master, and the state the BMCA gives the port, if it changes (R348). -/
  | announce (n : Fin 2) (gmid : BitVec 64) (cls acc : BitVec 8) (variance : BitVec 16) (st : Option (Fin 8))
  /-- ESMC_PDU: An ESMC PDU on port `n` (R349). -/
  | esmcPdu (n : Fin 2) (ssm : BitVec 4)
  /-- ESMC_TIMEOUT: No ESMC PDU for 5 s on port `n` (R349). -/
  | esmcTimeout (n : Fin 2)
  /-- REBASE: PTP_CMD.REBASEn (R335). -/
  | rebase (h : Agent) (n : Fin 2)
  /-- ACCEPT: PTP_CMD.ACCEPTn (R335). -/
  | accept (h : Agent) (n : Fin 2)
  /-- CLRREB: PTP_CMD.CLRREBn (R335). -/
  | clrreb (h : Agent) (n : Fin 2)
  /-- ARM: TSU_TRIGx_CMD.ARM (R336). -/
  | arm (h : Agent) (x : Fin 16) (ns : Nat)
  /-- DISARM: TSU_TRIGx_CMD.DISARM (R339). -/
  | disarm (h : Agent) (x : Fin 16)
  /-- TRIGGER: Internal time reaches the target of armed trigger `x` (R337). -/
  | trigger (x : Fin 16) (ns : Nat)
  /-- CAPTURE: An edge of the pin that capture unit `c` selects, measured at `ns` of the tick (R340). -/
  | capture (c : Fin 8) (rising : Bool) (ns : Nat)
  /-- ESTIMATE_UPDATE: The estimate update of R346: f_k in 0.01 ppb for the candidates that have an estimate; `ptpDiff`: PTP time minus internal time in ns, where a re-anchor is due (R11). -/
  | estimateUpdate (est : List (Fin 6 × BitVec 32)) (ptpDiff : Int)
  /-- CANDIDATE_LOST: A lost condition of R345 begins. -/
  | candidateLost (k : Fin 7)
  /-- CANDIDATE_RESTORED: The lost condition of candidate `k` ends (R347). -/
  | candidateRestored (k : Fin 7)
  /-- WTR_EXPIRY: Wait-to-restore runs out (R353). -/
  | wtrExpiry
  /-- SWITCH_DONE: Boundary s + 64 of a switch is reached (R354). -/
  | switchDone
  /-- SWITCHNOW: REF_CMD.SWITCHNOW (R353). -/
  | switchnow (h : Agent)
  /-- REANCHOR: REF_CMD.REANCHOR; `ptpDiff`: PTP time minus internal time in ns (R359, R11). -/
  | reanchor (h : Agent) (ptpDiff : Int)
  /-- OCXO: OSCIN is present or absent and OCXO_RDY, debounced, at level `rdy`: the OCXO becomes warm or cold, or OSCIN appears or disappears (R364). -/
  | ocxo (present rdy : Bool)
  /-- AGE_CORR_UPDATE: A second has passed since the ageing correction was updated (R495). -/
  | ageCorrUpdate
  /-- LOSS_OF_REFERENCE: DCO channel `ch` has a bad period or a missing edge (R373). -/
  | lossOfReference (ch : Fin 2) (ns : Nat)
  /-- REFERENCE_RESTORED: 1,000 good periods on DCO channel `ch` (R373). -/
  | referenceRestored (ch : Fin 2) (ns : Nat)
  /-- LOSS_OF_LOCK: ILOCK of synthesizer `x` falls (R385). -/
  | lossOfLock (x : Fin 2) (ns : Nat)
  /-- HOP_ABANDON: The tuning voltage of a hop is out of its window after 12 µs (R380). -/
  | hopAbandon (x : Fin 2) (ns : Nat)
  /-- LOCK: Synthesizer `x` declares lock in `band` and `trim` (R382). -/
  | lock (x : Fin 2) (band : BitVec 4) (trim : BitVec 7) (ns : Nat)
  /-- LPFAULT: The lock path is faulty; `low`: CMP did not rise, otherwise it is stuck high (R383). -/
  | lpfault (x : Fin 2) (low : Bool) (ns : Nat)
  /-- SYNFAIL: A relock attempt of synthesizer `x` fails (R385). -/
  | synfail (x : Fin 2) (ns : Nat)
  /-- RELOCK_RETRY: 1 ms after a failed attempt (R385). -/
  | relockRetry (x : Fin 2) (ns : Nat)
  /-- CLRSLOTS: SYN_CMD.CLRSLOTS (R379). -/
  | clrslots (h : Agent)
  /-- RESEARCH: SYN_xCMD.RESEARCH (R380). -/
  | research (h : Agent) (x : Fin 2) (ns : Nat)
  /-- REALIGN: SYN_xCMD.REALIGN (R387). -/
  | realign (h : Agent) (x : Fin 2) (ns : Nat)
  /-- ALIGNMENT_BOUNDARY: An alignment boundary of frequency plan `plan` (R374, R388). -/
  | alignmentBoundary (plan : Fin 2)
  /-- OUT_CLKEN: OUT_CLKEN is written (R389). -/
  | outClken (h : Agent) (mask : BitVec 8)
  /-- CLK_XREVERT: The selected synthesizer of cross-failed CLKOUT `x` has held lock for 8,000 ticks (R390). -/
  | clkXrevert (x : Fin 8)
  /-- ALIGN: OUT_FPpCMD.ALIGN (R393). -/
  | align (h : Agent) (p : Fin 4)
  /-- FP_INPUT_EDGE: An edge on the input of pulse output `p`, measured at `ns` of the tick (R393). -/
  | fpInputEdge (p : Fin 4) (ns : Nat)
  /-- HOLDOFF_END: The hold-off of input `k` ends (R400). -/
  | holdoffEnd (k : Fin 18) (ns : Nat)
  /-- START_EDGE: An edge of the start source of unit `u`, at `t` LSB of the TIM timebase (R410). -/
  | startEdge (u : Fin 12) (t : BitVec 64)
  /-- STOP_EDGE: An edge of the stop source of unit `u`, at `t` LSB of the TIM timebase (R410). -/
  | stopEdge (u : Fin 12) (t : BitVec 64)
  /-- SAMPLE_TIMEOUT: At `t` LSB of the TIM timebase TMO has passed since the start of the sample of unit `u` (R410). -/
  | sampleTimeout (u : Fin 12) (t : BitVec 64)
  /-- GATE_END: A gate of unit `u` ends: its edges, the LSB from the first to the last, and whether one of them was timed cold or uncalibrated (R413, R416). -/
  | gateEnd (u : Fin 12) (edges : BitVec 32) (span : BitVec 64) (cold uncal : Bool)
  /-- RESTART: TIM_UCMDu.RESTART (R415). -/
  | restart (h : Agent) (u : Fin 12)
  /-- CAL: CAL becomes 1 after the TIM PLL has locked, or 0 while it relocks (R407). -/
  | cal (on : Bool)
  /-- CAL_TABLE: The calibration loop loads a table whose largest phase error is `dnl` in 1/64 LSB (R406). -/
  | calTable (dnl : BitVec 8)
  /-- TIM_PLL_LOCK: The TIM PLL locks (R405). -/
  | timPllLock
  /-- EMBER_COPY_DONE: The ember copy on the link ends at the standby (R428). -/
  | emberCopyDone (crcOk : Bool) (ns : Nat)
  /-- RAIL_DROP: VDD_HA or VDD_HB below 0.66 V for more than 100 ns (R431). -/
  | railDrop (h : Hearth)
  /-- SWAP: HRT_CMD.SWAP (R439). -/
  | swap (h : Agent)
  /-- PROOF_SWAP_REQUEST: HRS hours have passed since the last swap (R442). -/
  | proofSwapRequest
  /-- RESTORE: HRT_CMD.RESTORE; `railA`, `railB`: each hearth's rail is at or above 0.66 V now (R438). -/
  | restore (h : Agent) (railA railB : Bool)
  /-- CLRSUSPECT: HRT_CMD.CLRSUSPECT (R441). -/
  | clrSuspect (h : Agent)
  /-- BANK_RECOPY_DONE: The recopy of the coefficient region to hearth `h` completes (R538). -/
  | bankRecopyDone (h : Hearth)
  /-- ALARM: Alarm input `i` has been at its active or inactive level for DEBOUNCE ms (R446). -/
  | alarm (i : Fin 4) (active : Bool) (ns : Nat)
  /-- ACK: ALM_CMD.ACK bit `i` (R447). -/
  | ack (h : Agent) (i : Fin 4)
  /-- KICK: ALM_WDKICK.KICK (R449). -/
  | kick (h : Agent)
  /-- WDOG: The watchdog timer expires (R449). -/
  | wdog
  /-- START: ALM_CMD.START (R452). -/
  | start (h : Agent)
  /-- ALM_RELEASE: ALM_CMD.RELEASE (R458). -/
  | almRelease (h : Agent)
  /-- PILOT_ON: Zone `z` has had no PASS and no valid report for PILOT_AFTER s (R463). -/
  | pilotOn (z : Fin 128)
  /-- PILOT_WINDOW: A pilot window of zone `z` ends (R464). -/
  | pilotWindow (z : Fin 128)
  /-- UNVERIFIED: Zone `z` has had no PASS for VERIFY_MAX s (R465). -/
  | unverified (z : Fin 128)
  /-- PORST: PORST_N is driven low and released again, with HOST_SEL at this level at the release (R474, R529). -/
  | porst (hostSel : Bool)
  /-- KINDLING: PORST_N is released: kindling runs on what the flash, the straps and the tests give (R479 to R482). -/
  | kindling (find : BootFind)
  /-- LIVENESS: A started firmware image has reported no liveness in 500 ms (R480). -/
  | liveness
  /-- FLASH_RETRY: The boot ROM looks for a flash again after 1 s (R482). -/
  | flashRetry (find : BootFind)
  /-- UNSEATED: PRSNT_N is high at two consecutive slow-clock edges (R484). -/
  | unseated (ns : Nat)
  /-- SEATED: PRSNT_N has been low for 10 ms (R484). -/
  | seated (ns : Nat)
  /-- EJECTING: EJECT_N, debounced, goes low or high (R485). -/
  | ejecting (low : Bool) (ns : Nat)
  /-- EJECT_DLY_EXPIRY: EJECT_DLY ms have passed since the card entered EJECTING (R485). -/
  | ejectDlyExpiry (ns : Nat)
  /-- FORCED_SAFE: EJECT_N has been low for 10 s without a break (R485). -/
  | forcedSafe (ns : Nat)
  /-- SAFE: HOT_CMD.SAFE (R485). -/
  | safe (h : Agent)
  /-- HOT_RESUME: HOT_CMD.RESUME (R485). -/
  | hotResume (h : Agent)
  /-- WAKE: PWR_CMD.WAKE (R488). -/
  | wake (h : Agent)
  /-- P_EXIT_DONE: The exit from a power state completes (R486). -/
  | pExitDone (ns : Nat)
  /-- COMMITVER: PWR_CMD.COMMITVER (R478). -/
  | commitver (h : Agent)
  /-- AVS: Rail `n` is read back; `acked`: the last request was acknowledged (R489). -/
  | avs (n : Fin 3) (read : BitVec 10) (acked : Bool) (ns : Nat)
  /-- MARGIN_EVAL: The lowest margins of the last ms of Hearth A, Hearth B and the core, in ps (R490). -/
  | marginEval (a b c : BitVec 8)
  /-- TEMP: The junction temperature at a sensor in °C, signed: Hearth A, Hearth B, core (R492). -/
  | temp (sensor : Fin 3) (tj : BitVec 8)
  /-- DEG_MEASURE: The hourly slowdown of the stressed rings in ppm (R493). -/
  | degMeasure (a b c : BitVec 16)
  /-- OCXOEST: A day of internal time since kindling ends (R494). -/
  | ocxoest
  /-- AGEING_RECORD_WRITE: 24 hours have passed since the supervisor wrote the ageing record (R493). -/
  | ageingRecordWrite
  /-- CLRHIST: AGE_CMD.CLRHIST (R494). -/
  | clrhist (h : Agent)
  /-- DUMP_TRIGGER: DUMP_CMD.TRIGGER (R496). -/
  | dumpTrigger (h : Agent)
  /-- SAVED: The supervisor has saved the capture; `ok`: the write verified (R498). -/
  | saved (ok : Bool)
  /-- FETCH: DUMP_CMD.FETCH (R500). -/
  | fetch (h : Agent)
  /-- DUMP_RELEASE: DUMP_CMD.RELEASE (R498). -/
  | dumpRelease (h : Agent)
  /-- RDDATA_READ: A read of DUMP_RDDATA at its own address (R500). -/
  | rddataRead (h : Agent)
  /-- PCIELINK: The state of the PCI Express link; PCIE_PERST_N low is link down (R524). -/
  | pcielink (up : Bool) (speed width : BitVec 2)
  /-- WRITE: Quad-SPI WRITE of whole words; `cut`: a last word was cut short; `coll`: the positions of the words whose write falls in the cycle of a hardware update of an HRW field (R34, R526, R528). -/
  | write (addr : Addr) (words : List Word) (cut : Bool) (coll : List Nat)
  /-- READ: Quad-SPI READ of `count` words; `late`: a grate window word was not ready in time (R526, R527). -/
  | read (addr : Addr) (count : Nat) (late : Bool)
  /-- STATUS: Quad-SPI STATUS (R526). -/
  | status
  /-- OWNER: HIF_OWN.OWNER is written (R530). -/
  | owner (h : Agent) (code : Fin 2)
  /-- CLAIM: HIF_OWNREQ is written with CLAIM = 1 and DENY = 0 (R529, R530). -/
  | claim (h : Agent)
  /-- DENY: HIF_OWNREQ is written with DENY = 1 and CLAIM = 0 (R530). -/
  | deny (h : Agent)
  /-- CLAIMEND: CLAIM_MS ms have passed since the pending claim (R530). -/
  | claimend (ns : Nat)
  /-- KEYPROG: Mailbox command KEYPROG (R532). -/
  | keyprog (h : Agent)
  /-- KEYREVOKE: Mailbox command KEYREVOKE (R532). -/
  | keyrevoke (h : Agent)
  /-- SAPSNAP: Mailbox command SAPSNAP (R532). -/
  | sapsnap (h : Agent)
  /-- FLASHREAD: Mailbox command FLASHREAD (R532). -/
  | flashread (h : Agent)
  /-- FLASHERASE: Mailbox command FLASHERASE (R532). -/
  | flasherase (h : Agent)
  /-- FLASHPROG: Mailbox command FLASHPROG; `ok`: the flash takes every bit it is given (R532). -/
  | flashprog (h : Agent) (ok : Bool)
  /-- FWINFO: Mailbox command FWINFO (R532). -/
  | fwinfo (h : Agent)
  /-- MBDONE: The mailbox command in progress completes (R532). -/
  | mbdone
  /-- FSYNC_EDGE: An FSYNC edge of slave port `n`, `offset` ns (signed) from the grid, `ns` into the tick (R267). -/
  | fsyncEdge (n : Fin 16) (offset : BitVec 16) (ns : Nat)
  /-- COMPARATOR_TRANSITION: The comparator of conditioned input `k` goes to `level` (R400). -/
  | comparatorTransition (k : Fin 18) (level : Bool) (ns : Nat)
  /-- ANNOUNCE_RECEIPT_TIMEOUT: Port `n` receives no Announce within announceReceiptTimeout and takes state `st` (R325). -/
  | announceReceiptTimeout (n : Fin 2) (st : Fin 8)
  /-- PTP_MESSAGE_SEND: The supervisor enqueues a PTP message (R319). -/
  | ptpMessageSend (n : Fin 2) (bytes : List Byte) (stamp oneStep : Bool) (tag : BitVec 16) (ns : Nat)
  /-- SCRUB: The scrubber, or another read, finds a correctable error at `word` of the grate memory or the instruction SRAM of hearth `h` (R159, R195). -/
  | scrub (h : Hearth) (isram : Bool) (word : Nat)
  /-- WRITE_AROUND_DONE: The oldest write-around of hearth `h` completes (R211). -/
  | writeAroundDone (h : Hearth)
  /-- ALARM_INPUT_LEVEL: The pin of alarm input `i` goes to `level`, before debounce (R446, R488). -/
  | alarmInputLevel (i : Fin 4) (level : Bool) (ns : Nat)
  deriving DecidableEq, Repr

end Sys2Proof
end

