-- ==== Sys2Proof/WellFormed.lean ====
section
/-! DEFINITION. Which commands are well formed: the operand ranges that the types of `Instr` do not already hold. -/
namespace Sys2Proof

/-- The operand range of a command is met. The engine instructions: R173 (WTOV, VTOW, CSTEP), R182 (BIQ, GRAMP, GRAMPV),
R188 (LOOP with a register, CALL, WAIT). The memory events: a grate word lies in the 8 MiB of a hearth (R193), an
instruction word in its 131,072 (R154). -/
def Instr.wf : Instr → Bool
  | .wtov _ d _ _ => decide (d.val ≤ 29)
  | .vtow _ _ a _ => decide (a.val ≤ 29)
  | .cstep _ d _ _ _ => d.val % 2 == 0
  | .biq _ d _ _ _ _ => decide (d.val ≤ 27)
  | .gramp _ d _ _ _ _ => decide (d.val ≤ 30)
  | .grampv _ d _ _ _ _ => decide (d.val ≤ 29)
  | .loopReg _ _ ceil _ => ceil != 0
  | .call _ off => off != 0
  | .wait _ _ _ t => t != 0
  | .gue _ word _ => decide (word < 2097152)
  | .isramUe _ ix _ => decide (ix < 131072)
  | .isramRewrite _ ix => decide (ix < 131072)
  | _ => true

end Sys2Proof
end

