-- ==== Sys2Proof/Decode.lean ====
section
/-! DEFINITION. The encodings of the engine instructions (spec/05): the word of an instruction, and the instruction of a
word, which the loader uses (R153, R167). The rows of the command table give no bits, so `decodeTableWord` reads none. -/
namespace Sys2Proof

/-- Bits [hi:lo] of `w`. -/
def bits (w hi lo : Nat) : Nat := w / 2 ^ lo % 2 ^ (hi + 1 - lo)

/-- A Boolean as a bit. -/
def bit (b : Bool) : Nat := if b then 1 else 0

/-- The word whose fields stand at the given low bits (R165). -/
def pack : List (Nat × Nat) → Nat
  | [] => 0
  | (lo, v) :: rest => v * 2 ^ lo + pack rest

set_option maxHeartbeats 2000000 in
/-- The word of an engine instruction (R165, R166); a command that is no engine instruction has none. -/
def encodeWord : Instr → Option Nat
  | .sadd _ d a b => some (pack [(26, 0x0), (21, d.val), (16, a.val), (11, b.val)])
  | .ssub _ d a b => some (pack [(26, 0x0), (0, 1), (21, d.val), (16, a.val), (11, b.val)])
  | .sand _ d a b => some (pack [(26, 0x0), (0, 2), (21, d.val), (16, a.val), (11, b.val)])
  | .sor _ d a b => some (pack [(26, 0x0), (0, 3), (21, d.val), (16, a.val), (11, b.val)])
  | .sxor _ d a b => some (pack [(26, 0x0), (0, 4), (21, d.val), (16, a.val), (11, b.val)])
  | .sshl _ d a b => some (pack [(26, 0x0), (0, 5), (21, d.val), (16, a.val), (11, b.val)])
  | .sshr _ d a b => some (pack [(26, 0x0), (0, 6), (21, d.val), (16, a.val), (11, b.val)])
  | .sshrl _ d a b => some (pack [(26, 0x0), (0, 7), (21, d.val), (16, a.val), (11, b.val)])
  | .smul _ d a b => some (pack [(26, 0x0), (0, 8), (21, d.val), (16, a.val), (11, b.val)])
  | .smin _ d a b => some (pack [(26, 0x0), (0, 9), (21, d.val), (16, a.val), (11, b.val)])
  | .smax _ d a b => some (pack [(26, 0x0), (0, 10), (21, d.val), (16, a.val), (11, b.val)])
  | .sminu _ d a b => some (pack [(26, 0x0), (0, 11), (21, d.val), (16, a.val), (11, b.val)])
  | .smaxu _ d a b => some (pack [(26, 0x0), (0, 12), (21, d.val), (16, a.val), (11, b.val)])
  | .aadds _ d a b => some (pack [(26, 0x0), (0, 13), (21, d.val), (16, a.val), (11, b.val)])
  | .pand _ d a b => some (pack [(26, 0x4), (21, d.val), (16, a.val), (11, b.val)])
  | .por _ d a b => some (pack [(26, 0x4), (0, 1), (21, d.val), (16, a.val), (11, b.val)])
  | .pxor _ d a b => some (pack [(26, 0x4), (0, 2), (21, d.val), (16, a.val), (11, b.val)])
  | .pandn _ d a b => some (pack [(26, 0x4), (0, 3), (21, d.val), (16, a.val), (11, b.val)])
  | .pnot _ d a => some (pack [(26, 0x4), (0, 4), (21, d.val), (16, a.val)])
  | .pfroms _ d a => some (pack [(26, 0x4), (0, 5), (21, d.val), (16, a.val)])
  | .ptos _ d a => some (pack [(26, 0x4), (0, 6), (21, d.val), (16, a.val)])
  | .pcnt _ d a => some (pack [(26, 0x4), (0, 7), (21, d.val), (16, a.val)])
  | .qadd _ d a b p => some (pack [(26, 0x8), (21, d.val), (16, a.val), (11, b.val), (9, p.val)])
  | .qsub _ d a b p => some (pack [(26, 0x8), (0, 1), (21, d.val), (16, a.val), (11, b.val), (9, p.val)])
  | .qneg _ d a p => some (pack [(26, 0x8), (0, 2), (21, d.val), (16, a.val), (9, p.val)])
  | .qabs _ d a p => some (pack [(26, 0x8), (0, 3), (21, d.val), (16, a.val), (9, p.val)])
  | .qmin _ d a b p => some (pack [(26, 0x8), (0, 4), (21, d.val), (16, a.val), (11, b.val), (9, p.val)])
  | .qmax _ d a b p => some (pack [(26, 0x8), (0, 5), (21, d.val), (16, a.val), (11, b.val), (9, p.val)])
  | .qshl _ d a b p => some (pack [(26, 0x8), (0, 6), (21, d.val), (16, a.val), (11, b.val), (9, p.val)])
  | .qshr _ d a b p => some (pack [(26, 0x8), (0, 7), (21, d.val), (16, a.val), (11, b.val), (9, p.val)])
  | .qmul _ d a b p => some (pack [(26, 0x9), (21, d.val), (16, a.val), (11, b.val), (9, p.val)])
  | .qmuls _ d a b p => some (pack [(26, 0x9), (0, 1), (21, d.val), (16, a.val), (11, b.val), (9, p.val)])
  | .vadd _ d a b p => some (pack [(26, 0xA), (21, d.val), (16, a.val), (11, b.val), (9, p.val)])
  | .vsub _ d a b p => some (pack [(26, 0xA), (0, 1), (21, d.val), (16, a.val), (11, b.val), (9, p.val)])
  | .vand _ d a b p => some (pack [(26, 0xA), (0, 2), (21, d.val), (16, a.val), (11, b.val), (9, p.val)])
  | .vor _ d a b p => some (pack [(26, 0xA), (0, 3), (21, d.val), (16, a.val), (11, b.val), (9, p.val)])
  | .vxor _ d a b p => some (pack [(26, 0xA), (0, 4), (21, d.val), (16, a.val), (11, b.val), (9, p.val)])
  | .vshl _ d a b p => some (pack [(26, 0xA), (0, 5), (21, d.val), (16, a.val), (11, b.val), (9, p.val)])
  | .vshr _ d a b p => some (pack [(26, 0xA), (0, 6), (21, d.val), (16, a.val), (11, b.val), (9, p.val)])
  | .vshrl _ d a b p => some (pack [(26, 0xA), (0, 7), (21, d.val), (16, a.val), (11, b.val), (9, p.val)])
  | .qceq _ d a b p => some (pack [(26, 0xB), (21, d.val), (16, a.val), (11, b.val), (9, p.val)])
  | .qclt _ d a b p => some (pack [(26, 0xB), (0, 1), (21, d.val), (16, a.val), (11, b.val), (9, p.val)])
  | .qcle _ d a b p => some (pack [(26, 0xB), (0, 2), (21, d.val), (16, a.val), (11, b.val), (9, p.val)])
  | .fceq _ d a b p => some (pack [(26, 0xB), (0, 3), (21, d.val), (16, a.val), (11, b.val), (9, p.val)])
  | .fclt _ d a b p => some (pack [(26, 0xB), (0, 4), (21, d.val), (16, a.val), (11, b.val), (9, p.val)])
  | .fcle _ d a b p => some (pack [(26, 0xB), (0, 5), (21, d.val), (16, a.val), (11, b.val), (9, p.val)])
  | .vmov _ d a p => some (pack [(26, 0xC), (21, d.val), (16, a.val), (9, p.val)])
  | .vbcst _ d a p => some (pack [(26, 0xC), (0, 1), (21, d.val), (16, a.val), (9, p.val)])
  | .vext _ d a n => some (pack [(26, 0xC), (0, 2), (21, d.val), (16, a.val), (11, n.val)])
  | .vins _ d a n => some (pack [(26, 0xC), (0, 3), (21, d.val), (16, a.val), (11, n.val)])
  | .vrot _ d a n p => some (pack [(26, 0xC), (0, 4), (21, d.val), (16, a.val), (11, n.val), (9, p.val)])
  | .vdup _ d a n p => some (pack [(26, 0xC), (0, 5), (21, d.val), (16, a.val), (11, n.val), (9, p.val)])
  | .macv _ d a b p => some (pack [(26, 0x10), (21, d.val), (16, a.val), (11, b.val), (9, p.val)])
  | .msuv _ d a b p => some (pack [(26, 0x10), (0, 1), (21, d.val), (16, a.val), (11, b.val), (9, p.val)])
  | .wclrInstruction _ d p => some (pack [(26, 0x10), (0, 2), (21, d.val), (9, p.val)])
  | .wextl _ d a sh p => some (pack [(26, 0x10), (0, 3), (21, d.val), (16, a.val), (11, sh.val), (9, p.val)])
  | .wextr _ d a sh p => some (pack [(26, 0x10), (0, 4), (21, d.val), (16, a.val), (11, sh.val), (9, p.val)])
  | .wextt _ d a sh p => some (pack [(26, 0x10), (0, 5), (21, d.val), (16, a.val), (11, sh.val), (9, p.val)])
  | .wtov _ d a p => some (pack [(26, 0x10), (0, 6), (21, d.val), (16, a.val), (9, p.val)])
  | .vtow _ d a p => some (pack [(26, 0x10), (0, 7), (21, d.val), (16, a.val), (9, p.val)])
  | .cstep _ d a b p => some (pack [(26, 0x11), (21, d.val), (16, a.val), (11, b.val), (9, p.val)])
  | .fadd _ d a b p => some (pack [(26, 0x14), (21, d.val), (16, a.val), (11, b.val), (9, p.val)])
  | .fsub _ d a b p => some (pack [(26, 0x14), (0, 1), (21, d.val), (16, a.val), (11, b.val), (9, p.val)])
  | .fmul _ d a b p => some (pack [(26, 0x14), (0, 2), (21, d.val), (16, a.val), (11, b.val), (9, p.val)])
  | .fmin _ d a b p => some (pack [(26, 0x14), (0, 3), (21, d.val), (16, a.val), (11, b.val), (9, p.val)])
  | .fmax _ d a b p => some (pack [(26, 0x14), (0, 4), (21, d.val), (16, a.val), (11, b.val), (9, p.val)])
  | .fabs _ d a p => some (pack [(26, 0x14), (0, 5), (21, d.val), (16, a.val), (9, p.val)])
  | .fneg _ d a p => some (pack [(26, 0x14), (0, 6), (21, d.val), (16, a.val), (9, p.val)])
  | .fdiv _ d a b p => some (pack [(26, 0x14), (0, 7), (21, d.val), (16, a.val), (11, b.val), (9, p.val)])
  | .fsqrt _ d a p => some (pack [(26, 0x14), (0, 8), (21, d.val), (16, a.val), (9, p.val)])
  | .fma _ d a b p => some (pack [(26, 0x15), (21, d.val), (16, a.val), (11, b.val), (9, p.val)])
  | .fms _ d a b p => some (pack [(26, 0x15), (0, 1), (21, d.val), (16, a.val), (11, b.val), (9, p.val)])
  | .qtof _ d a p => some (pack [(26, 0x16), (21, d.val), (16, a.val), (9, p.val)])
  | .ftoq _ d a p => some (pack [(26, 0x16), (0, 1), (21, d.val), (16, a.val), (9, p.val)])
  | .itof _ d a p => some (pack [(26, 0x16), (0, 2), (21, d.val), (16, a.val), (9, p.val)])
  | .ftoi _ d a p => some (pack [(26, 0x16), (0, 3), (21, d.val), (16, a.val), (9, p.val)])
  | .saddi _ d a imm => some (pack [(26, 0x1), (21, d.val), (16, a.val), (0, imm.toNat)])
  | .sandi _ d a imm => some (pack [(26, 0x1), (12, 1), (21, d.val), (16, a.val), (0, imm.toNat)])
  | .sori _ d a imm => some (pack [(26, 0x1), (12, 2), (21, d.val), (16, a.val), (0, imm.toNat)])
  | .sshi _ d a right sh => some (pack [(26, 0x1), (12, 3), (21, d.val), (16, a.val), (5, bit right), (0, sh.val)])
  | .aaddi _ d a imm => some (pack [(26, 0x3), (21, d.val), (16, a.val), (0, imm.toNat)])
  | .amov _ d a => some (pack [(26, 0x3), (12, 1), (21, d.val), (16, a.val)])
  | .samov _ d a => some (pack [(26, 0x3), (12, 2), (21, d.val), (16, a.val)])
  | .pseti _ d imm => some (pack [(26, 0x5), (21, d.val), (0, imm.toNat)])
  | .vli _ d imm p => some (pack [(26, 0xD), (21, d.val), (0, imm.toNat), (14, p.val)])
  | .vliu _ d imm p => some (pack [(26, 0xD), (12, 1), (21, d.val), (0, imm.toNat), (14, p.val)])
  | .dlrd _ d a line p => some (pack [(26, 0x1A), (21, d.val), (16, a.val), (0, line.toNat), (14, p.val)])
  | .dlwr _ src a line p => some (pack [(26, 0x1B), (21, src.val), (16, a.val), (0, line.toNat), (14, p.val)])
  | .ldt _ d a off p => some (pack [(26, 0x18), (21, d.val), (18, a.val), (0, off.toNat), (16, p.val)])
  | .ldc _ d a off k p => some (pack [(26, 0x18), (14, 1), (21, d.val), (18, a.val), (0, off.toNat), (10, k.val), (16, p.val)])
  | .lds _ d a off k => some (pack [(26, 0x18), (14, 2), (21, d.val), (18, a.val), (0, off.toNat), (10, k.val)])
  | .stt _ src a off p => some (pack [(26, 0x19), (21, src.val), (18, a.val), (0, off.toNat), (16, p.val)])
  | .stc _ src a off k p => some (pack [(26, 0x19), (14, 1), (21, src.val), (18, a.val), (0, off.toNat), (10, k.val), (16, p.val)])
  | .sts _ src a off k => some (pack [(26, 0x19), (14, 2), (21, src.val), (18, a.val), (0, off.toNat), (10, k.val)])
  | .biq _ d src cix lane p => some (pack [(26, 0x20), (21, d.val), (16, src.val), (0, cix.toNat), (13, bit lane), (14, p.val)])
  | .gramp _ d src cix lane p => some (pack [(26, 0x21), (21, d.val), (16, src.val), (0, cix.toNat), (13, bit lane), (14, p.val)])
  | .grampv _ d src cix lane p => some (pack [(26, 0x21), (10, 1), (21, d.val), (16, src.val), (0, cix.toNat), (13, bit lane), (14, p.val)])
  | .envp _ d src cix lane p => some (pack [(26, 0x22), (21, d.val), (16, src.val), (0, cix.toNat), (13, bit lane), (14, p.val)])
  | .envs _ d src cix lane p => some (pack [(26, 0x22), (10, 1), (21, d.val), (16, src.val), (0, cix.toNat), (13, bit lane), (14, p.val)])
  | .limg _ d src cix lane p => some (pack [(26, 0x23), (21, d.val), (16, src.val), (0, cix.toNat), (13, bit lane), (14, p.val)])
  | .mixa _ d src cix lane p => some (pack [(26, 0x24), (21, d.val), (16, src.val), (0, cix.toNat), (13, bit lane), (14, p.val)])
  | .mixs _ d src cix lane p => some (pack [(26, 0x24), (10, 1), (21, d.val), (16, src.val), (0, cix.toNat), (13, bit lane), (14, p.val)])
  | .mixl _ d src cix lane p => some (pack [(26, 0x24), (10, 2), (21, d.val), (16, src.val), (0, cix.toNat), (13, bit lane), (14, p.val)])
  | .slui _ d imm => some (pack [(26, 0x2), (22, d.val), (0, imm.toNat)])
  | .sli _ d imm => some (pack [(26, 0x2), (20, 1), (22, d.val), (0, imm.toNat)])
  | .br _ off => some (pack [(26, 0x30), (0, off.toNat)])
  | .bz _ a off => some (pack [(26, 0x30), (20, 1), (22, a.val), (0, off.toNat)])
  | .bnz _ a off => some (pack [(26, 0x30), (20, 2), (22, a.val), (0, off.toNat)])
  | .bpz _ a off => some (pack [(26, 0x30), (20, 3), (22, a.val), (0, off.toNat)])
  | .loop _ count len => some (pack [(26, 0x31), (8, count.toNat), (0, len.toNat)])
  | .loopReg _ a ceil len => some (pack [(26, 0x31), (20, 1), (22, a.val), (8, ceil.toNat), (0, len.toNat)])
  | .call _ off => some (pack [(26, 0x32), (0, off.toNat)])
  | .ret _ => some (pack [(26, 0x32), (20, 1)])
  | .signal _ f => some (pack [(26, 0x33), (0, f.val)])
  | .wait _ d f t => some (pack [(26, 0x33), (20, 1), (22, d.val), (16, f.val), (0, t.toNat)])
  | .post _ a c => some (pack [(26, 0x33), (20, 2), (22, a.val), (0, c.toNat)])
  | .endRun _ => some (pack [(26, 0x3E)])
  | .nop _ => some (pack [(26, 0x3F)])
  | .rdflg _ d => some (pack [(26, 0x3F), (8, 1), (21, d.val)])
  | .rdcyc _ d => some (pack [(26, 0x3F), (8, 2), (21, d.val)])
  | .lidx _ d => some (pack [(26, 0x3F), (8, 3), (21, d.val)])
  | _ => none

/-- Opcode 0x00, format A. -/
def dec00 (e : Eng) (w : Nat) : Option Instr :=
  match bits w 8 0 with
  | 0 => some (.sadd e (Fin.ofNat 16 (bits w 25 21)) (Fin.ofNat 16 (bits w 20 16)) (Fin.ofNat 16 (bits w 15 11)))
  | 1 => some (.ssub e (Fin.ofNat 16 (bits w 25 21)) (Fin.ofNat 16 (bits w 20 16)) (Fin.ofNat 16 (bits w 15 11)))
  | 2 => some (.sand e (Fin.ofNat 16 (bits w 25 21)) (Fin.ofNat 16 (bits w 20 16)) (Fin.ofNat 16 (bits w 15 11)))
  | 3 => some (.sor e (Fin.ofNat 16 (bits w 25 21)) (Fin.ofNat 16 (bits w 20 16)) (Fin.ofNat 16 (bits w 15 11)))
  | 4 => some (.sxor e (Fin.ofNat 16 (bits w 25 21)) (Fin.ofNat 16 (bits w 20 16)) (Fin.ofNat 16 (bits w 15 11)))
  | 5 => some (.sshl e (Fin.ofNat 16 (bits w 25 21)) (Fin.ofNat 16 (bits w 20 16)) (Fin.ofNat 16 (bits w 15 11)))
  | 6 => some (.sshr e (Fin.ofNat 16 (bits w 25 21)) (Fin.ofNat 16 (bits w 20 16)) (Fin.ofNat 16 (bits w 15 11)))
  | 7 => some (.sshrl e (Fin.ofNat 16 (bits w 25 21)) (Fin.ofNat 16 (bits w 20 16)) (Fin.ofNat 16 (bits w 15 11)))
  | 8 => some (.smul e (Fin.ofNat 16 (bits w 25 21)) (Fin.ofNat 16 (bits w 20 16)) (Fin.ofNat 16 (bits w 15 11)))
  | 9 => some (.smin e (Fin.ofNat 16 (bits w 25 21)) (Fin.ofNat 16 (bits w 20 16)) (Fin.ofNat 16 (bits w 15 11)))
  | 10 => some (.smax e (Fin.ofNat 16 (bits w 25 21)) (Fin.ofNat 16 (bits w 20 16)) (Fin.ofNat 16 (bits w 15 11)))
  | 11 => some (.sminu e (Fin.ofNat 16 (bits w 25 21)) (Fin.ofNat 16 (bits w 20 16)) (Fin.ofNat 16 (bits w 15 11)))
  | 12 => some (.smaxu e (Fin.ofNat 16 (bits w 25 21)) (Fin.ofNat 16 (bits w 20 16)) (Fin.ofNat 16 (bits w 15 11)))
  | 13 => some (.aadds e (Fin.ofNat 8 (bits w 25 21)) (Fin.ofNat 8 (bits w 20 16)) (Fin.ofNat 16 (bits w 15 11)))
  | _ => none

/-- Opcode 0x01, format B. -/
def dec01 (e : Eng) (w : Nat) : Option Instr :=
  match bits w 13 12 with
  | 0 => some (.saddi e (Fin.ofNat 16 (bits w 25 21)) (Fin.ofNat 16 (bits w 20 16)) (BitVec.ofNat 12 (bits w 11 0)))
  | 1 => some (.sandi e (Fin.ofNat 16 (bits w 25 21)) (Fin.ofNat 16 (bits w 20 16)) (BitVec.ofNat 12 (bits w 11 0)))
  | 2 => some (.sori e (Fin.ofNat 16 (bits w 25 21)) (Fin.ofNat 16 (bits w 20 16)) (BitVec.ofNat 12 (bits w 11 0)))
  | 3 => some (.sshi e (Fin.ofNat 16 (bits w 25 21)) (Fin.ofNat 16 (bits w 20 16)) (bits w 5 5 == 1) (Fin.ofNat 32 (bits w 11 0)))
  | _ => none

/-- Opcode 0x02, format E. -/
def dec02 (e : Eng) (w : Nat) : Option Instr :=
  match bits w 21 20 with
  | 0 => some (.slui e (Fin.ofNat 16 (bits w 25 22)) (BitVec.ofNat 20 (bits w 19 0)))
  | 1 => some (.sli e (Fin.ofNat 16 (bits w 25 22)) (BitVec.ofNat 20 (bits w 19 0)))
  | _ => none

/-- Opcode 0x03, format B. -/
def dec03 (e : Eng) (w : Nat) : Option Instr :=
  match bits w 13 12 with
  | 0 => some (.aaddi e (Fin.ofNat 8 (bits w 25 21)) (Fin.ofNat 8 (bits w 20 16)) (BitVec.ofNat 12 (bits w 11 0)))
  | 1 => some (.amov e (Fin.ofNat 8 (bits w 25 21)) (Fin.ofNat 16 (bits w 20 16)))
  | 2 => some (.samov e (Fin.ofNat 16 (bits w 25 21)) (Fin.ofNat 8 (bits w 20 16)))
  | _ => none

/-- Opcode 0x04, format A. -/
def dec04 (e : Eng) (w : Nat) : Option Instr :=
  match bits w 8 0 with
  | 0 => some (.pand e (Fin.ofNat 4 (bits w 25 21)) (Fin.ofNat 4 (bits w 20 16)) (Fin.ofNat 4 (bits w 15 11)))
  | 1 => some (.por e (Fin.ofNat 4 (bits w 25 21)) (Fin.ofNat 4 (bits w 20 16)) (Fin.ofNat 4 (bits w 15 11)))
  | 2 => some (.pxor e (Fin.ofNat 4 (bits w 25 21)) (Fin.ofNat 4 (bits w 20 16)) (Fin.ofNat 4 (bits w 15 11)))
  | 3 => some (.pandn e (Fin.ofNat 4 (bits w 25 21)) (Fin.ofNat 4 (bits w 20 16)) (Fin.ofNat 4 (bits w 15 11)))
  | 4 => some (.pnot e (Fin.ofNat 4 (bits w 25 21)) (Fin.ofNat 4 (bits w 20 16)))
  | 5 => some (.pfroms e (Fin.ofNat 4 (bits w 25 21)) (Fin.ofNat 16 (bits w 20 16)))
  | 6 => some (.ptos e (Fin.ofNat 16 (bits w 25 21)) (Fin.ofNat 4 (bits w 20 16)))
  | 7 => some (.pcnt e (Fin.ofNat 16 (bits w 25 21)) (Fin.ofNat 4 (bits w 20 16)))
  | _ => none

/-- Opcode 0x05, format B. -/
def dec05 (e : Eng) (w : Nat) : Option Instr :=
  match bits w 13 12 with
  | 0 => some (.pseti e (Fin.ofNat 4 (bits w 25 21)) (BitVec.ofNat 8 (bits w 7 0)))
  | _ => none

/-- Opcode 0x08, format A. -/
def dec08 (e : Eng) (w : Nat) : Option Instr :=
  match bits w 8 0 with
  | 0 => some (.qadd e (Fin.ofNat 32 (bits w 25 21)) (Fin.ofNat 32 (bits w 20 16)) (Fin.ofNat 32 (bits w 15 11)) (Fin.ofNat 4 (bits w 10 9)))
  | 1 => some (.qsub e (Fin.ofNat 32 (bits w 25 21)) (Fin.ofNat 32 (bits w 20 16)) (Fin.ofNat 32 (bits w 15 11)) (Fin.ofNat 4 (bits w 10 9)))
  | 2 => some (.qneg e (Fin.ofNat 32 (bits w 25 21)) (Fin.ofNat 32 (bits w 20 16)) (Fin.ofNat 4 (bits w 10 9)))
  | 3 => some (.qabs e (Fin.ofNat 32 (bits w 25 21)) (Fin.ofNat 32 (bits w 20 16)) (Fin.ofNat 4 (bits w 10 9)))
  | 4 => some (.qmin e (Fin.ofNat 32 (bits w 25 21)) (Fin.ofNat 32 (bits w 20 16)) (Fin.ofNat 32 (bits w 15 11)) (Fin.ofNat 4 (bits w 10 9)))
  | 5 => some (.qmax e (Fin.ofNat 32 (bits w 25 21)) (Fin.ofNat 32 (bits w 20 16)) (Fin.ofNat 32 (bits w 15 11)) (Fin.ofNat 4 (bits w 10 9)))
  | 6 => some (.qshl e (Fin.ofNat 32 (bits w 25 21)) (Fin.ofNat 32 (bits w 20 16)) (Fin.ofNat 16 (bits w 15 11)) (Fin.ofNat 4 (bits w 10 9)))
  | 7 => some (.qshr e (Fin.ofNat 32 (bits w 25 21)) (Fin.ofNat 32 (bits w 20 16)) (Fin.ofNat 16 (bits w 15 11)) (Fin.ofNat 4 (bits w 10 9)))
  | _ => none

/-- Opcode 0x09, format A. -/
def dec09 (e : Eng) (w : Nat) : Option Instr :=
  match bits w 8 0 with
  | 0 => some (.qmul e (Fin.ofNat 32 (bits w 25 21)) (Fin.ofNat 32 (bits w 20 16)) (Fin.ofNat 32 (bits w 15 11)) (Fin.ofNat 4 (bits w 10 9)))
  | 1 => some (.qmuls e (Fin.ofNat 32 (bits w 25 21)) (Fin.ofNat 32 (bits w 20 16)) (Fin.ofNat 16 (bits w 15 11)) (Fin.ofNat 4 (bits w 10 9)))
  | _ => none

/-- Opcode 0x0A, format A. -/
def dec0A (e : Eng) (w : Nat) : Option Instr :=
  match bits w 8 0 with
  | 0 => some (.vadd e (Fin.ofNat 32 (bits w 25 21)) (Fin.ofNat 32 (bits w 20 16)) (Fin.ofNat 32 (bits w 15 11)) (Fin.ofNat 4 (bits w 10 9)))
  | 1 => some (.vsub e (Fin.ofNat 32 (bits w 25 21)) (Fin.ofNat 32 (bits w 20 16)) (Fin.ofNat 32 (bits w 15 11)) (Fin.ofNat 4 (bits w 10 9)))
  | 2 => some (.vand e (Fin.ofNat 32 (bits w 25 21)) (Fin.ofNat 32 (bits w 20 16)) (Fin.ofNat 32 (bits w 15 11)) (Fin.ofNat 4 (bits w 10 9)))
  | 3 => some (.vor e (Fin.ofNat 32 (bits w 25 21)) (Fin.ofNat 32 (bits w 20 16)) (Fin.ofNat 32 (bits w 15 11)) (Fin.ofNat 4 (bits w 10 9)))
  | 4 => some (.vxor e (Fin.ofNat 32 (bits w 25 21)) (Fin.ofNat 32 (bits w 20 16)) (Fin.ofNat 32 (bits w 15 11)) (Fin.ofNat 4 (bits w 10 9)))
  | 5 => some (.vshl e (Fin.ofNat 32 (bits w 25 21)) (Fin.ofNat 32 (bits w 20 16)) (Fin.ofNat 16 (bits w 15 11)) (Fin.ofNat 4 (bits w 10 9)))
  | 6 => some (.vshr e (Fin.ofNat 32 (bits w 25 21)) (Fin.ofNat 32 (bits w 20 16)) (Fin.ofNat 16 (bits w 15 11)) (Fin.ofNat 4 (bits w 10 9)))
  | 7 => some (.vshrl e (Fin.ofNat 32 (bits w 25 21)) (Fin.ofNat 32 (bits w 20 16)) (Fin.ofNat 16 (bits w 15 11)) (Fin.ofNat 4 (bits w 10 9)))
  | _ => none

/-- Opcode 0x0B, format A. -/
def dec0B (e : Eng) (w : Nat) : Option Instr :=
  match bits w 8 0 with
  | 0 => some (.qceq e (Fin.ofNat 4 (bits w 25 21)) (Fin.ofNat 32 (bits w 20 16)) (Fin.ofNat 32 (bits w 15 11)) (Fin.ofNat 4 (bits w 10 9)))
  | 1 => some (.qclt e (Fin.ofNat 4 (bits w 25 21)) (Fin.ofNat 32 (bits w 20 16)) (Fin.ofNat 32 (bits w 15 11)) (Fin.ofNat 4 (bits w 10 9)))
  | 2 => some (.qcle e (Fin.ofNat 4 (bits w 25 21)) (Fin.ofNat 32 (bits w 20 16)) (Fin.ofNat 32 (bits w 15 11)) (Fin.ofNat 4 (bits w 10 9)))
  | 3 => some (.fceq e (Fin.ofNat 4 (bits w 25 21)) (Fin.ofNat 32 (bits w 20 16)) (Fin.ofNat 32 (bits w 15 11)) (Fin.ofNat 4 (bits w 10 9)))
  | 4 => some (.fclt e (Fin.ofNat 4 (bits w 25 21)) (Fin.ofNat 32 (bits w 20 16)) (Fin.ofNat 32 (bits w 15 11)) (Fin.ofNat 4 (bits w 10 9)))
  | 5 => some (.fcle e (Fin.ofNat 4 (bits w 25 21)) (Fin.ofNat 32 (bits w 20 16)) (Fin.ofNat 32 (bits w 15 11)) (Fin.ofNat 4 (bits w 10 9)))
  | _ => none

/-- Opcode 0x0C, format A. -/
def dec0C (e : Eng) (w : Nat) : Option Instr :=
  match bits w 8 0 with
  | 0 => some (.vmov e (Fin.ofNat 32 (bits w 25 21)) (Fin.ofNat 32 (bits w 20 16)) (Fin.ofNat 4 (bits w 10 9)))
  | 1 => some (.vbcst e (Fin.ofNat 32 (bits w 25 21)) (Fin.ofNat 16 (bits w 20 16)) (Fin.ofNat 4 (bits w 10 9)))
  | 2 => some (.vext e (Fin.ofNat 16 (bits w 25 21)) (Fin.ofNat 32 (bits w 20 16)) (Fin.ofNat 8 (bits w 15 11)))
  | 3 => some (.vins e (Fin.ofNat 32 (bits w 25 21)) (Fin.ofNat 16 (bits w 20 16)) (Fin.ofNat 8 (bits w 15 11)))
  | 4 => some (.vrot e (Fin.ofNat 32 (bits w 25 21)) (Fin.ofNat 32 (bits w 20 16)) (Fin.ofNat 8 (bits w 15 11)) (Fin.ofNat 4 (bits w 10 9)))
  | 5 => some (.vdup e (Fin.ofNat 32 (bits w 25 21)) (Fin.ofNat 32 (bits w 20 16)) (Fin.ofNat 8 (bits w 15 11)) (Fin.ofNat 4 (bits w 10 9)))
  | _ => none

/-- Opcode 0x0D, format B. -/
def dec0D (e : Eng) (w : Nat) : Option Instr :=
  match bits w 13 12 with
  | 0 => some (.vli e (Fin.ofNat 32 (bits w 25 21)) (BitVec.ofNat 12 (bits w 11 0)) (Fin.ofNat 4 (bits w 15 14)))
  | 1 => some (.vliu e (Fin.ofNat 32 (bits w 25 21)) (BitVec.ofNat 12 (bits w 11 0)) (Fin.ofNat 4 (bits w 15 14)))
  | _ => none

/-- Opcode 0x10, format A. -/
def dec10 (e : Eng) (w : Nat) : Option Instr :=
  match bits w 8 0 with
  | 0 => some (.macv e (Fin.ofNat 4 (bits w 25 21)) (Fin.ofNat 32 (bits w 20 16)) (Fin.ofNat 32 (bits w 15 11)) (Fin.ofNat 4 (bits w 10 9)))
  | 1 => some (.msuv e (Fin.ofNat 4 (bits w 25 21)) (Fin.ofNat 32 (bits w 20 16)) (Fin.ofNat 32 (bits w 15 11)) (Fin.ofNat 4 (bits w 10 9)))
  | 2 => some (.wclrInstruction e (Fin.ofNat 4 (bits w 25 21)) (Fin.ofNat 4 (bits w 10 9)))
  | 3 => some (.wextl e (Fin.ofNat 32 (bits w 25 21)) (Fin.ofNat 4 (bits w 20 16)) (Fin.ofNat 32 (bits w 15 11)) (Fin.ofNat 4 (bits w 10 9)))
  | 4 => some (.wextr e (Fin.ofNat 32 (bits w 25 21)) (Fin.ofNat 4 (bits w 20 16)) (Fin.ofNat 32 (bits w 15 11)) (Fin.ofNat 4 (bits w 10 9)))
  | 5 => some (.wextt e (Fin.ofNat 32 (bits w 25 21)) (Fin.ofNat 4 (bits w 20 16)) (Fin.ofNat 32 (bits w 15 11)) (Fin.ofNat 4 (bits w 10 9)))
  | 6 => some (.wtov e (Fin.ofNat 32 (bits w 25 21)) (Fin.ofNat 4 (bits w 20 16)) (Fin.ofNat 4 (bits w 10 9)))
  | 7 => some (.vtow e (Fin.ofNat 4 (bits w 25 21)) (Fin.ofNat 32 (bits w 20 16)) (Fin.ofNat 4 (bits w 10 9)))
  | _ => none

/-- Opcode 0x11, format A. -/
def dec11 (e : Eng) (w : Nat) : Option Instr :=
  match bits w 8 0 with
  | 0 => some (.cstep e (Fin.ofNat 4 (bits w 25 21)) (Fin.ofNat 32 (bits w 20 16)) (Fin.ofNat 32 (bits w 15 11)) (Fin.ofNat 4 (bits w 10 9)))
  | _ => none

/-- Opcode 0x14, format A. -/
def dec14 (e : Eng) (w : Nat) : Option Instr :=
  match bits w 8 0 with
  | 0 => some (.fadd e (Fin.ofNat 32 (bits w 25 21)) (Fin.ofNat 32 (bits w 20 16)) (Fin.ofNat 32 (bits w 15 11)) (Fin.ofNat 4 (bits w 10 9)))
  | 1 => some (.fsub e (Fin.ofNat 32 (bits w 25 21)) (Fin.ofNat 32 (bits w 20 16)) (Fin.ofNat 32 (bits w 15 11)) (Fin.ofNat 4 (bits w 10 9)))
  | 2 => some (.fmul e (Fin.ofNat 32 (bits w 25 21)) (Fin.ofNat 32 (bits w 20 16)) (Fin.ofNat 32 (bits w 15 11)) (Fin.ofNat 4 (bits w 10 9)))
  | 3 => some (.fmin e (Fin.ofNat 32 (bits w 25 21)) (Fin.ofNat 32 (bits w 20 16)) (Fin.ofNat 32 (bits w 15 11)) (Fin.ofNat 4 (bits w 10 9)))
  | 4 => some (.fmax e (Fin.ofNat 32 (bits w 25 21)) (Fin.ofNat 32 (bits w 20 16)) (Fin.ofNat 32 (bits w 15 11)) (Fin.ofNat 4 (bits w 10 9)))
  | 5 => some (.fabs e (Fin.ofNat 32 (bits w 25 21)) (Fin.ofNat 32 (bits w 20 16)) (Fin.ofNat 4 (bits w 10 9)))
  | 6 => some (.fneg e (Fin.ofNat 32 (bits w 25 21)) (Fin.ofNat 32 (bits w 20 16)) (Fin.ofNat 4 (bits w 10 9)))
  | 7 => some (.fdiv e (Fin.ofNat 32 (bits w 25 21)) (Fin.ofNat 32 (bits w 20 16)) (Fin.ofNat 32 (bits w 15 11)) (Fin.ofNat 4 (bits w 10 9)))
  | 8 => some (.fsqrt e (Fin.ofNat 32 (bits w 25 21)) (Fin.ofNat 32 (bits w 20 16)) (Fin.ofNat 4 (bits w 10 9)))
  | _ => none

/-- Opcode 0x15, format A. -/
def dec15 (e : Eng) (w : Nat) : Option Instr :=
  match bits w 8 0 with
  | 0 => some (.fma e (Fin.ofNat 32 (bits w 25 21)) (Fin.ofNat 32 (bits w 20 16)) (Fin.ofNat 32 (bits w 15 11)) (Fin.ofNat 4 (bits w 10 9)))
  | 1 => some (.fms e (Fin.ofNat 32 (bits w 25 21)) (Fin.ofNat 32 (bits w 20 16)) (Fin.ofNat 32 (bits w 15 11)) (Fin.ofNat 4 (bits w 10 9)))
  | _ => none

/-- Opcode 0x16, format A. -/
def dec16 (e : Eng) (w : Nat) : Option Instr :=
  match bits w 8 0 with
  | 0 => some (.qtof e (Fin.ofNat 32 (bits w 25 21)) (Fin.ofNat 32 (bits w 20 16)) (Fin.ofNat 4 (bits w 10 9)))
  | 1 => some (.ftoq e (Fin.ofNat 32 (bits w 25 21)) (Fin.ofNat 32 (bits w 20 16)) (Fin.ofNat 4 (bits w 10 9)))
  | 2 => some (.itof e (Fin.ofNat 32 (bits w 25 21)) (Fin.ofNat 32 (bits w 20 16)) (Fin.ofNat 4 (bits w 10 9)))
  | 3 => some (.ftoi e (Fin.ofNat 32 (bits w 25 21)) (Fin.ofNat 32 (bits w 20 16)) (Fin.ofNat 4 (bits w 10 9)))
  | _ => none

/-- Opcode 0x18, format C. -/
def dec18 (e : Eng) (w : Nat) : Option Instr :=
  match bits w 15 14 with
  | 0 => some (.ldt e (Fin.ofNat 32 (bits w 25 21)) (Fin.ofNat 8 (bits w 20 18)) (BitVec.ofNat 10 (bits w 9 0)) (Fin.ofNat 4 (bits w 17 16)))
  | 1 => some (.ldc e (Fin.ofNat 32 (bits w 25 21)) (Fin.ofNat 8 (bits w 20 18)) (BitVec.ofNat 10 (bits w 9 0)) (Fin.ofNat 12 (bits w 13 10)) (Fin.ofNat 4 (bits w 17 16)))
  | 2 => some (.lds e (Fin.ofNat 16 (bits w 25 21)) (Fin.ofNat 8 (bits w 20 18)) (BitVec.ofNat 10 (bits w 9 0)) (Fin.ofNat 8 (bits w 13 10)))
  | _ => none

/-- Opcode 0x19, format C. -/
def dec19 (e : Eng) (w : Nat) : Option Instr :=
  match bits w 15 14 with
  | 0 => some (.stt e (Fin.ofNat 32 (bits w 25 21)) (Fin.ofNat 8 (bits w 20 18)) (BitVec.ofNat 10 (bits w 9 0)) (Fin.ofNat 4 (bits w 17 16)))
  | 1 => some (.stc e (Fin.ofNat 32 (bits w 25 21)) (Fin.ofNat 8 (bits w 20 18)) (BitVec.ofNat 10 (bits w 9 0)) (Fin.ofNat 12 (bits w 13 10)) (Fin.ofNat 4 (bits w 17 16)))
  | 2 => some (.sts e (Fin.ofNat 16 (bits w 25 21)) (Fin.ofNat 8 (bits w 20 18)) (BitVec.ofNat 10 (bits w 9 0)) (Fin.ofNat 8 (bits w 13 10)))
  | _ => none

/-- Opcode 0x1A, format B. -/
def dec1A (e : Eng) (w : Nat) : Option Instr :=
  match bits w 13 12 with
  | 0 => some (.dlrd e (Fin.ofNat 32 (bits w 25 21)) (Fin.ofNat 16 (bits w 20 16)) (BitVec.ofNat 12 (bits w 11 0)) (Fin.ofNat 4 (bits w 15 14)))
  | _ => none

/-- Opcode 0x1B, format B. -/
def dec1B (e : Eng) (w : Nat) : Option Instr :=
  match bits w 13 12 with
  | 0 => some (.dlwr e (Fin.ofNat 32 (bits w 25 21)) (Fin.ofNat 16 (bits w 20 16)) (BitVec.ofNat 12 (bits w 11 0)) (Fin.ofNat 4 (bits w 15 14)))
  | _ => none

/-- Opcode 0x20, format D. -/
def dec20 (e : Eng) (w : Nat) : Option Instr :=
  match bits w 12 10 with
  | 0 => some (.biq e (Fin.ofNat 32 (bits w 25 21)) (Fin.ofNat 32 (bits w 20 16)) (BitVec.ofNat 10 (bits w 9 0)) (bits w 13 13 == 1) (Fin.ofNat 4 (bits w 15 14)))
  | _ => none

/-- Opcode 0x21, format D. -/
def dec21 (e : Eng) (w : Nat) : Option Instr :=
  match bits w 12 10 with
  | 0 => some (.gramp e (Fin.ofNat 32 (bits w 25 21)) (Fin.ofNat 32 (bits w 20 16)) (BitVec.ofNat 10 (bits w 9 0)) (bits w 13 13 == 1) (Fin.ofNat 4 (bits w 15 14)))
  | 1 => some (.grampv e (Fin.ofNat 32 (bits w 25 21)) (Fin.ofNat 32 (bits w 20 16)) (BitVec.ofNat 10 (bits w 9 0)) (bits w 13 13 == 1) (Fin.ofNat 4 (bits w 15 14)))
  | _ => none

/-- Opcode 0x22, format D. -/
def dec22 (e : Eng) (w : Nat) : Option Instr :=
  match bits w 12 10 with
  | 0 => some (.envp e (Fin.ofNat 32 (bits w 25 21)) (Fin.ofNat 32 (bits w 20 16)) (BitVec.ofNat 10 (bits w 9 0)) (bits w 13 13 == 1) (Fin.ofNat 4 (bits w 15 14)))
  | 1 => some (.envs e (Fin.ofNat 32 (bits w 25 21)) (Fin.ofNat 32 (bits w 20 16)) (BitVec.ofNat 10 (bits w 9 0)) (bits w 13 13 == 1) (Fin.ofNat 4 (bits w 15 14)))
  | _ => none

/-- Opcode 0x23, format D. -/
def dec23 (e : Eng) (w : Nat) : Option Instr :=
  match bits w 12 10 with
  | 0 => some (.limg e (Fin.ofNat 32 (bits w 25 21)) (Fin.ofNat 32 (bits w 20 16)) (BitVec.ofNat 10 (bits w 9 0)) (bits w 13 13 == 1) (Fin.ofNat 4 (bits w 15 14)))
  | _ => none

/-- Opcode 0x24, format D. -/
def dec24 (e : Eng) (w : Nat) : Option Instr :=
  match bits w 12 10 with
  | 0 => some (.mixa e (Fin.ofNat 4 (bits w 25 21)) (Fin.ofNat 32 (bits w 20 16)) (BitVec.ofNat 10 (bits w 9 0)) (bits w 13 13 == 1) (Fin.ofNat 4 (bits w 15 14)))
  | 1 => some (.mixs e (Fin.ofNat 4 (bits w 25 21)) (Fin.ofNat 32 (bits w 20 16)) (BitVec.ofNat 10 (bits w 9 0)) (bits w 13 13 == 1) (Fin.ofNat 4 (bits w 15 14)))
  | 2 => some (.mixl e (Fin.ofNat 4 (bits w 25 21)) (Fin.ofNat 32 (bits w 20 16)) (BitVec.ofNat 10 (bits w 9 0)) (bits w 13 13 == 1) (Fin.ofNat 4 (bits w 15 14)))
  | _ => none

/-- Opcode 0x30, format E. -/
def dec30 (e : Eng) (w : Nat) : Option Instr :=
  match bits w 21 20 with
  | 0 => some (.br e (BitVec.ofNat 20 (bits w 19 0)))
  | 1 => some (.bz e (Fin.ofNat 16 (bits w 25 22)) (BitVec.ofNat 20 (bits w 19 0)))
  | 2 => some (.bnz e (Fin.ofNat 16 (bits w 25 22)) (BitVec.ofNat 20 (bits w 19 0)))
  | 3 => some (.bpz e (Fin.ofNat 4 (bits w 25 22)) (BitVec.ofNat 20 (bits w 19 0)))
  | _ => none

/-- Opcode 0x31, format E. -/
def dec31 (e : Eng) (w : Nat) : Option Instr :=
  match bits w 21 20 with
  | 0 => some (.loop e (BitVec.ofNat 12 (bits w 19 8)) (BitVec.ofNat 8 (bits w 7 0)))
  | 1 => some (.loopReg e (Fin.ofNat 16 (bits w 25 22)) (BitVec.ofNat 12 (bits w 19 8)) (BitVec.ofNat 8 (bits w 7 0)))
  | _ => none

/-- Opcode 0x32, format E. -/
def dec32 (e : Eng) (w : Nat) : Option Instr :=
  match bits w 21 20 with
  | 0 => some (.call e (BitVec.ofNat 20 (bits w 19 0)))
  | 1 => some (.ret e)
  | _ => none

/-- Opcode 0x33, format E. -/
def dec33 (e : Eng) (w : Nat) : Option Instr :=
  match bits w 21 20 with
  | 0 => some (.signal e (Fin.ofNat 16 (bits w 19 0)))
  | 1 => some (.wait e (Fin.ofNat 16 (bits w 25 22)) (Fin.ofNat 16 (bits w 19 16)) (BitVec.ofNat 12 (bits w 11 0)))
  | 2 => some (.post e (Fin.ofNat 16 (bits w 25 22)) (BitVec.ofNat 7 (bits w 6 0)))
  | _ => none

/-- Opcode 0x3E, format E. -/
def dec3E (e : Eng) (w : Nat) : Option Instr :=
  match bits w 21 20 with
  | 0 => some (.endRun e)
  | _ => none

/-- Opcode 0x3F, format F. -/
def dec3F (e : Eng) (w : Nat) : Option Instr :=
  match bits w 15 8 with
  | 0 => some (.nop e)
  | 1 => some (.rdflg e (Fin.ofNat 16 (bits w 25 21)))
  | 2 => some (.rdcyc e (Fin.ofNat 16 (bits w 25 21)))
  | 3 => some (.lidx e (Fin.ofNat 16 (bits w 25 21)))
  | _ => none

/-- The instruction that the opcode and FN of `w` name, its fields cut to their operands. -/
def candidate (e : Eng) (w : Nat) : Option Instr :=
  match bits w 31 26 with
  | 0x00 => dec00 e w
  | 0x01 => dec01 e w
  | 0x02 => dec02 e w
  | 0x03 => dec03 e w
  | 0x04 => dec04 e w
  | 0x05 => dec05 e w
  | 0x08 => dec08 e w
  | 0x09 => dec09 e w
  | 0x0A => dec0A e w
  | 0x0B => dec0B e w
  | 0x0C => dec0C e w
  | 0x0D => dec0D e w
  | 0x10 => dec10 e w
  | 0x11 => dec11 e w
  | 0x14 => dec14 e w
  | 0x15 => dec15 e w
  | 0x16 => dec16 e w
  | 0x18 => dec18 e w
  | 0x19 => dec19 e w
  | 0x1A => dec1A e w
  | 0x1B => dec1B e w
  | 0x20 => dec20 e w
  | 0x21 => dec21 e w
  | 0x22 => dec22 e w
  | 0x23 => dec23 e w
  | 0x24 => dec24 e w
  | 0x30 => dec30 e w
  | 0x31 => dec31 e w
  | 0x32 => dec32 e w
  | 0x33 => dec33 e w
  | 0x3E => dec3E e w
  | 0x3F => dec3F e w
  | _ => none

/-- The instruction of word `w` on engine `e`, or none where R167 does not define the word: a register, an immediate or
an unused field is out of its range exactly when the candidate's own word differs. -/
def decodeWord (e : Eng) (w : Nat) : Option Instr :=
  match candidate e w with
  | some i => if i.wf && encodeWord i == some w then some i else none
  | none => none

/-- The command that a word spells by the table's bits: the table gives no row bits. -/
def decodeTableWord (_nbits _w : Nat) : Option Instr := none

end Sys2Proof
end

