-- ==== Sys2Proof/Machine/Sparse.lean ====
section
/-! DEFINITION. Sparse stores (the one form of every memory, table and register file of the model) and register fields. -/
namespace Sys2Proof.Machine

/-- A sparse store: key and value pairs, keys strictly rising, no entry equal to what an unlisted key reads as. -/
abbrev Sparse (α : Type) := List (Nat × α)

namespace Sparse
variable {α : Type}

/-- The value at key `k`; `d` is what an unlisted key reads as. -/
def get (d : α) : Sparse α → Nat → α
  | [], _ => d
  | (a, v) :: t, k => if a == k then v else get d t k

/-- Insert or replace the value at key `k`, keeping the keys rising. -/
def insert : Sparse α → Nat → α → Sparse α
  | [], k, v => [(k, v)]
  | (a, w) :: t, k, v =>
    if a < k then (a, w) :: insert t k v
    else if a = k then (k, v) :: t
    else (k, v) :: (a, w) :: t

/-- Remove the entry at key `k`. -/
def erase : Sparse α → Nat → Sparse α
  | [], _ => []
  | (a, w) :: t, k => if a = k then erase t k else (a, w) :: erase t k

/-- Write `v` at key `k`: the entry goes when `v` is what an unlisted key reads as, so that equal stores are equal data. -/
def put [DecidableEq α] (d : α) (l : Sparse α) (k : Nat) (v : α) : Sparse α :=
  if v = d then erase l k else insert l k v

/-- Change the value at key `k` by `f`. -/
def modify [DecidableEq α] (d : α) (l : Sparse α) (k : Nat) (f : α → α) : Sparse α :=
  put d l k (f (get d l k))

/-- Write one value per element of `vs` at the keys from `k` on. -/
def putList [DecidableEq α] (d : α) : Sparse α → Nat → List α → Sparse α
  | l, _, [] => l
  | l, k, v :: vs => putList d (put d l k v) (k + 1) vs

/-- The keys rise strictly from `lo` on. -/
def rising : Nat → Sparse α → Bool
  | _, [] => true
  | lo, (a, _) :: t => decide (lo ≤ a) && rising (a + 1) t

/-- The canonical form: keys strictly rising, no entry at the default of its key (`d k` is what key `k` reads as). -/
def wf [DecidableEq α] (d : Nat → α) (l : Sparse α) : Bool :=
  rising 0 l && l.all (fun e => decide (e.2 ≠ d e.1))

end Sparse

/-- A register field: the host offset of its word and its bits [hi:lo]. -/
structure Fld where
  addr : Nat
  hi : Nat
  lo : Nat
  deriving DecidableEq, Repr

namespace Fld

/-- The width of a field in bits. -/
def width (f : Fld) : Nat := f.hi + 1 - f.lo

/-- The bits of the word that the field takes. -/
def mask (f : Fld) : Word := BitVec.ofNat 32 ((2 ^ f.width - 1) * 2 ^ f.lo)

/-- The field's value in word `w`. -/
def get (f : Fld) (w : Word) : Nat := w.toNat / 2 ^ f.lo % 2 ^ f.width

/-- Word `w` with the field set to `v` (its low `width` bits). -/
def set (f : Fld) (w : Word) (v : Nat) : Word :=
  (w &&& ~~~ f.mask) ||| (BitVec.ofNat 32 (v % 2 ^ f.width * 2 ^ f.lo))

end Fld

/-- The signed value of the low `n` bits of `v`. -/
def sint (n v : Nat) : Int :=
  let w := v % 2 ^ n
  if w < 2 ^ (n - 1) then (w : Int) else (w : Int) - 2 ^ n

/-- The low `n` bits of the two's complement form of `x`. -/
def uint (n : Nat) (x : Int) : Nat := (x % (2 ^ n : Int)).toNat

end Sys2Proof.Machine
end

