-- ==== Sys2Proof/Machine/Flags.lean ====
section
/-! DEFINITION. The arithmetic of the stoke engines and the sticky flags it sets (R125 to R128, R170, R183 to R187):
Q1.31 and wide saturation and rounding, and binary32 with its departures. Every function returns the value and the
sticky flags the operation sets. -/
namespace Sys2Proof.Machine

/-- The sticky flags of R128 that an operation sets: [0] QSAT, [1] WSAT, [2] FINV, [3] FOVF, [4] FDZ, [5] FDEN. -/
abbrev Flg := BitVec 6

def flgQSAT : Flg := 1
def flgWSAT : Flg := 2
def flgFINV : Flg := 4
def flgFOVF : Flg := 8
def flgFDZ : Flg := 16
def flgFDEN : Flg := 32

/-- `y / 2^k` rounded to an integer, to nearest with ties to even (the `rne` of spec/05). -/
def rneShift (y : Int) (k : Nat) : Int :=
  if k = 0 then y else
  let q := y / (2 ^ k : Int)
  let r := y % (2 ^ k : Int)
  let half : Int := 2 ^ (k - 1)
  if r > half ∨ (r = half ∧ q % 2 = 1) then q + 1 else q

/-- `sat31` of spec/05 on the integer form of a Q1.31 value: clamp to the range and set QSAT when it clamps (R125). -/
def sat31 (y : Int) : Word × Flg :=
  if y > 2 ^ 31 - 1 then (0x7FFFFFFF, flgQSAT)
  else if y < -(2 ^ 31) then (0x80000000, flgQSAT)
  else (BitVec.ofInt 32 y, 0)

/-- `sat72` of spec/05 on the integer form of a Q10.62 value (R126). -/
def sat72 (y : Int) : BitVec 72 × Flg :=
  if y > 2 ^ 71 - 1 then (BitVec.ofInt 72 (2 ^ 71 - 1), flgWSAT)
  else if y < -(2 ^ 71) then (BitVec.ofInt 72 (-(2 ^ 71)), flgWSAT)
  else (BitVec.ofInt 72 y, 0)

/-- A Q1.31 product, rounded and saturated (R125). -/
def qmulOp (a b : Word) : Word × Flg := sat31 (rneShift (a.toInt * b.toInt) 31)

/-- The quiet NaN of R127. -/
def qNaN : Word := 0x7FC00000

/-- A binary32 value after subnormal operands are replaced by zero (R127): `fin neg m e` is ±m × 2^e. -/
inductive FP where
  | nan
  | inf (neg : Bool)
  | fin (neg : Bool) (m : Nat) (e : Int)
  deriving DecidableEq, Repr

/-- The value of a binary32 lane, and FDEN where a subnormal operand is replaced by zero (R127). -/
def fpOf (w : Word) : FP × Flg :=
  let n : Nat := w.toNat
  let neg := decide (n / 2 ^ 31 % 2 = 1)
  let ex : Nat := n / 2 ^ 23 % 256
  let fr : Nat := n % 2 ^ 23
  if ex = 255 then (if fr = 0 then .inf neg else .nan, 0)
  else if ex = 0 then (.fin neg 0 0, if fr = 0 then 0 else flgFDEN)
  else (.fin neg (2 ^ 23 + fr) ((ex : Int) - 150), 0)

/-- The sign bit of a word. -/
def signBit (neg : Bool) : Nat := if neg then 2 ^ 31 else 0

/-- A signed zero. -/
def fzero (neg : Bool) : Word := BitVec.ofNat 32 (signBit neg)

/-- A signed infinity. -/
def finf (neg : Bool) : Word := BitVec.ofNat 32 (signBit neg + 255 * 2 ^ 23)

/-- Round ±(m × 2^e), with `sticky` for a nonzero part below the last bit of `m`, to binary32 (R127). `m` carries at
least 26 significant bits where `sticky` is set. -/
def fround (neg : Bool) (m : Nat) (e : Int) (sticky : Bool) : Word × Flg :=
  if m = 0 then (fzero neg, 0) else
  let len := Nat.log2 m + 1
  let (q, ex) : Nat × Int :=
    if len ≤ 24 then (m * 2 ^ (24 - len), e - ((24 - len : Nat) : Int))
    else
      let sh := len - 24
      let q := m / 2 ^ sh
      let r := m % 2 ^ sh
      let half := 2 ^ (sh - 1)
      let up := decide (r > half) || (r == half && (sticky || q % 2 == 1))
      let q' := if up then q + 1 else q
      if q' = 2 ^ 24 then (2 ^ 23, e + (sh : Int) + 1) else (q', e + (sh : Int))
  let E := ex + 23
  if E > 127 then (finf neg, flgFOVF)
  else if E < -126 then (fzero neg, flgFDEN)
  else (BitVec.ofNat 32 (signBit neg + (E + 127).toNat * 2 ^ 23 + (q - 2 ^ 23)), 0)

/-- The signed integer mantissa of a finite value. -/
def smant (neg : Bool) (m : Nat) : Int := if neg then -(m : Int) else (m : Int)

/-- The exact sum of two finite values, rounded once; an exact zero is +0 unless both signs are negative. -/
def faddFin (n1 : Bool) (m1 : Nat) (e1 : Int) (n2 : Bool) (m2 : Nat) (e2 : Int) : Word × Flg :=
  let e := min e1 e2
  let s := smant n1 m1 * 2 ^ (e1 - e).toNat + smant n2 m2 * 2 ^ (e2 - e).toNat
  if s = 0 then (fzero (n1 && n2), 0)
  else fround (decide (s < 0)) s.natAbs e false

/-- The exponent difference of a zero must not widen the sum: a zero takes the other operand's exponent. -/
def faddCore (x y : FP) : Word × Flg :=
  match x, y with
  | .nan, _ => (qNaN, 0)
  | _, .nan => (qNaN, 0)
  | .inf a, .inf b => if a = b then (finf a, 0) else (qNaN, flgFINV)
  | .inf a, .fin _ _ _ => (finf a, 0)
  | .fin _ _ _, .inf b => (finf b, 0)
  | .fin n1 m1 e1, .fin n2 m2 e2 =>
    faddFin n1 m1 (if m1 = 0 then e2 else e1) n2 m2 (if m2 = 0 then e1 else e2)

/-- Change the sign of a value. -/
def FP.neg : FP → FP
  | .nan => .nan
  | .inf s => .inf (!s)
  | .fin s m e => .fin (!s) m e

def faddOp (a b : Word) : Word × Flg :=
  let (x, fx) := fpOf a
  let (y, fy) := fpOf b
  let (r, f) := faddCore x y
  (r, fx ||| fy ||| f)

def fsubOp (a b : Word) : Word × Flg :=
  let (x, fx) := fpOf a
  let (y, fy) := fpOf b
  let (r, f) := faddCore x y.neg
  (r, fx ||| fy ||| f)

/-- The exact product of two values, as a value; FINV for 0 × ∞. -/
def fmulExact (x y : FP) : FP × Flg :=
  match x, y with
  | .nan, _ => (.nan, 0)
  | _, .nan => (.nan, 0)
  | .inf a, .inf b => (.inf (a != b), 0)
  | .inf a, .fin b m _ => if m = 0 then (.nan, flgFINV) else (.inf (a != b), 0)
  | .fin a m _, .inf b => if m = 0 then (.nan, flgFINV) else (.inf (a != b), 0)
  | .fin a m1 e1, .fin b m2 e2 => (.fin (a != b) (m1 * m2) (e1 + e2), 0)

/-- Round a value to a lane. -/
def fpack : FP → Word × Flg
  | .nan => (qNaN, 0)
  | .inf s => (finf s, 0)
  | .fin s m e => fround s m e false

def fmulOp (a b : Word) : Word × Flg :=
  let (x, fx) := fpOf a
  let (y, fy) := fpOf b
  let (z, f) := fmulExact x y
  let (r, g) := fpack z
  (r, fx ||| fy ||| f ||| g)

/-- FMA and FMS (R174): `c ± a × b` with one rounding. -/
def fmaOp (minus : Bool) (c a b : Word) : Word × Flg :=
  let (z, fz) := fpOf c
  let (x, fx) := fpOf a
  let (y, fy) := fpOf b
  let (pr, fp) := fmulExact x y
  let fp := if z = .nan then 0 else fp
  let (r, g) := faddCore z (if minus then pr.neg else pr)
  (r, fx ||| fy ||| fz ||| fp ||| g)

def fdivOp (a b : Word) : Word × Flg :=
  let (x, fx) := fpOf a
  let (y, fy) := fpOf b
  let (r, g) : Word × Flg :=
    match x, y with
    | .nan, _ => (qNaN, 0)
    | _, .nan => (qNaN, 0)
    | .inf _, .inf _ => (qNaN, flgFINV)
    | .inf s, .fin t _ _ => (finf (s != t), 0)
    | .fin s _ _, .inf t => (fzero (s != t), 0)
    | .fin s m1 e1, .fin t m2 e2 =>
      if m2 = 0 then (if m1 = 0 then (qNaN, flgFINV) else (finf (s != t), flgFDZ))
      else if m1 = 0 then (fzero (s != t), 0)
      else
        let n := m1 * 2 ^ 30
        fround (s != t) (n / m2) (e1 - e2 - 30) (n % m2 != 0)
  (r, fx ||| fy ||| g)

def fsqrtOp (a : Word) : Word × Flg :=
  let (x, fx) := fpOf a
  let (r, g) : Word × Flg :=
    match x with
    | .nan => (qNaN, 0)
    | .inf s => if s then (qNaN, flgFINV) else (finf false, 0)
    | .fin s m e =>
      if m = 0 then (fzero s, 0)
      else if s then (qNaN, flgFINV)
      else
        let (n, e') : Nat × Int := if e % 2 = 0 then (m * 2 ^ 40, e - 40) else (m * 2 ^ 41, e - 41)
        let q := Nat.sqrt n
        fround false q (e' / 2) (q * q != n)
  (r, fx ||| g)

/-- `x < y` of two non-NaN values; −0 counts as less than +0 when `zeros` (the order of FMIN and FMAX). -/
def fpLt (zeros : Bool) (x y : FP) : Bool :=
  match x, y with
  | .nan, _ => false
  | _, .nan => false
  | .inf a, .inf b => a && !b
  | .inf a, .fin _ _ _ => a
  | .fin _ _ _, .inf b => !b
  | .fin s m1 e1, .fin t m2 e2 =>
    if m1 = 0 ∧ m2 = 0 then zeros && s && !t
    else
      let e := min e1 e2
      decide (smant s m1 * 2 ^ (e1 - e).toNat < smant t m2 * 2 ^ (e2 - e).toNat)

/-- A lane with a subnormal operand replaced by zero and every NaN made quiet. -/
def fflush (a : Word) : Word × Flg :=
  match fpOf a with
  | (.nan, _) => (qNaN, 0)
  | (.inf _, _) => (a, 0)
  | (.fin s m _, f) => (if m = 0 then fzero s else a, f)

def fminmaxOp (mx : Bool) (a b : Word) : Word × Flg :=
  let (x, fx) := fpOf a
  let (y, fy) := fpOf b
  let (a', _) := fflush a
  let (b', _) := fflush b
  let r := if x = .nan then b' else if y = .nan then a'
    else if mx then (if fpLt true x y then b' else a') else (if fpLt true y x then b' else a')
  (r, fx ||| fy)

def fabsOp (a : Word) : Word × Flg :=
  let (r, f) := fflush a
  if r = qNaN then (qNaN, f) else (r &&& 0x7FFFFFFF, f)

def fnegOp (a : Word) : Word × Flg :=
  let (r, f) := fflush a
  if r = qNaN then (qNaN, f) else (r ^^^ 0x80000000, f)

/-- The comparisons of R172: a NaN gives 0, −0 equals +0, a subnormal operand sets FDEN. -/
def fcmpOp (k : Nat) (a b : Word) : Bool × Flg :=
  let (x, fx) := fpOf a
  let (y, fy) := fpOf b
  let lt := fpLt false x y
  let gt := fpLt false y x
  let ok := decide (x ≠ .nan ∧ y ≠ .nan)
  (ok && (if k = 0 then !lt && !gt else if k = 1 then lt else !gt), fx ||| fy)

/-- QTOF and ITOF: the integer `x × 2^e` rounded to binary32. -/
def fofInt (x : Int) (e : Int) : Word × Flg := fround (decide (x < 0)) x.natAbs e false

/-- A finite value times 2^k rounded to an integer, to nearest with ties to even. -/
def fpToInt (s : Bool) (m : Nat) (e : Int) (k : Int) : Int :=
  let sh := e + k
  if sh ≥ 0 then smant s m * 2 ^ (min sh.toNat 200) else rneShift (smant s m) (-sh).toNat

def ftoqOp (a : Word) : Word × Flg :=
  let (x, fx) := fpOf a
  let (r, g) : Word × Flg :=
    match x with
    | .nan => (0, 0)
    | .inf s => (if s then 0x80000000 else 0x7FFFFFFF, flgQSAT)
    | .fin s m e => sat31 (fpToInt s m e 31)
  (r, fx ||| g)

def ftoiOp (a : Word) : Word × Flg :=
  let (x, fx) := fpOf a
  let (r, g) : Word × Flg :=
    match x with
    | .nan => (0, 0)
    | .inf s => (if s then 0x80000000 else 0x7FFFFFFF, flgFINV)
    | .fin s m e =>
      let (w, f) := sat31 (fpToInt s m e 0)
      (w, if f = 0 then 0 else flgFINV)
  (r, fx ||| g)

/-- GRAMP's gain step (R184): the new gain, from gain, target and step. -/
def grampGain (g t st : Int) : Int :=
  let s := max st 0
  if g < t then min (g + s) t else max (g - s) t

/-- ENVP and ENVS (R185): the new envelope from the input `x`, the envelope `e` and the two coefficients. -/
def envOp (x e att rel : Int) : Word × Flg :=
  let k := if x > e then att else rel
  sat31 (e + rneShift (k * (x - e)) 31)

/-- LIMG (R186). -/
def limgOp (e t : Int) : Word :=
  if t ≤ 0 then 0 else if e ≤ t then 0x7FFFFFFF else BitVec.ofInt 32 (t * 2 ^ 31 / e)

/-- CRC-32C of a byte list from a running remainder (R53), without the final exclusive or. -/
def crcByte (c : Nat) (b : Nat) : Nat :=
  (List.range 8).foldl (fun c _ => if c % 2 = 1 then (c / 2) ^^^ 0x82F63B78 else c / 2) (c ^^^ b)

/-- CRC-32C (R53): reflected polynomial 0x1EDC6F41, initial value and final exclusive or 0xFFFF_FFFF. -/
def crc32c (bytes : List Nat) : Nat := (bytes.foldl crcByte 0xFFFFFFFF) ^^^ 0xFFFFFFFF

/-- The four bytes of a word, least significant first. -/
def leBytes (w : Nat) : List Nat := [w % 256, w / 256 % 256, w / 65536 % 256, w / 16777216 % 256]

end Sys2Proof.Machine
end

