-- ==== Sys2Proof/Config.lean ====
section
/-! DEFINITION. What the spec leaves open: free values, as constants without a body. -/
namespace Sys2Proof

/-- The value of a word whose content or place the spec does not state, applied to the free-value counter of the state. -/
opaque Config.freeWord : Nat → BitVec 32

/-- Whether a ramped sample `x × n / d` that is not exact is rounded up (R107 states no rounding). -/
opaque Config.rampUp : Int → Nat → Nat → Bool

/-- Whether an inexact quotient `x / d` is rounded up, by the quantity it stands for, where the spec states no rounding. -/
opaque Config.quotUp : Nat → Int → Nat → Bool

/-- Whether the bytes are the unicast IP address of port `n` (R236): the spec does not say where a port has it from. -/
opaque Config.ownAddr : Nat → List Nat → Bool

/-- Whether the IPv6 group is a solicited-node group of port `n`'s addresses (R286), which the supervisor tells the filter. -/
opaque Config.solicited : Nat → List Nat → Bool

/-- Byte `i` of the unicast IPv4 or IPv6 address that the supervisor's frames on port `n` carry as their source: the spec does not say
where a port has it from. -/
opaque Config.portAddr : Nat → Bool → Nat → BitVec 8

/-- The o= line and the s= line of the SDP text of transmit flow `f` on path `p`, and its SAP message identifier hash, which R256 does
not state. -/
opaque Config.sdpOrigin : Nat → Nat → List (BitVec 8)
opaque Config.sdpName : Nat → Nat → List (BitVec 8)
opaque Config.sapHash : Nat → Nat → BitVec 16

/-- Whether a packet of a one-tick group from before a re-anchor, enqueued after it, carries its timestamp in the old numbering, by the
group's first tick: R252 states it for longer groups only. -/
opaque Config.oldStamp : Nat → Bool

/-- What a converter sends in frame `j` of a tick (R272, R275): from the latest device-rate samples of the slot, newest last, of which
the one 64 sample periods back stands at the output, the frame rate in 0.01 Hz, the phase in ns, and `j`. The spec gives its response
only. -/
opaque Config.convert : List (BitVec 32) → Nat → Nat → Nat → BitVec 32

/-- The key hash fused in slot 0 (R478): the fabricator's. -/
opaque Config.slot0Hash : List Byte

/-- A field of TIM unit `u` that REF applies and the spec does not state (R409): 0 N, 1 CONT, 2 NSTOP, 3 STATSTOP, 4 START,
5 the time limit, 6 NOM, 7 edges. -/
opaque Config.refUnit : Nat → Nat → Nat

/-- The word in which FWINFO returns the running image, its SECVER and PWR_SECMIN (R532): the spec does not lay it out. -/
opaque Config.fwInfo : Nat → Nat → Nat → BitVec 32

end Sys2Proof
end

