-- ==== Sys2Proof/Machine/RegMap.lean ====
section
/-! DEFINITION. The register map of the control blocks: one named field for every row of the register tables of
spec/02 to spec/17, and the table of their types and reset values (R4, R29, R521).

A field is named `Reg.<REGISTER>_<FIELD>` as the spec names it; a register that the spec repeats (per port, per engine,
per unit) takes its index as an argument. The address is the host offset of spec/17 R521. -/
namespace Sys2Proof.Machine

/-- The type tags of R29. -/
inductive Ty where
  | rws | rwl | hrw | ro | rc | cnt | cmd | wo1
  deriving DecidableEq, Repr

/-- One row of a register table: a field, its type tag, its reset value (R4), and up to two repetitions of it
(`n` copies `stride` bytes apart, each of `m` copies `mstride` bytes apart). -/
structure Row where
  fld : Fld
  ty : Ty
  rst : Nat := 0
  n : Nat := 1
  stride : Nat := 4
  m : Nat := 1
  mstride : Nat := 4
  deriving DecidableEq, Repr

/-- Row `r` covers the register word at host offset `a`. -/
def Row.covers (r : Row) (a : Nat) : Bool :=
  if a < r.fld.addr then false else
  let d := a - r.fld.addr
  let i := if r.n ≤ 1 then 0 else d / r.stride
  let d' := d - i * r.stride
  let j := if r.m ≤ 1 then 0 else d' / r.mstride
  decide (i < r.n) && decide (j < r.m) && d' == j * r.mstride

namespace Reg

/-! ### CMT registers -/

def CMT_CFG_RDVIEW : Fld := ⟨0x1000, 0, 0⟩
def CMT_STROBE_STROBE : Fld := ⟨0x1004, 15, 0⟩
def CMT_PENDING_PEND : Fld := ⟨0x1008, 15, 0⟩
def CMT_TICKBOUND_TB : Fld := ⟨0x100C, 15, 0⟩
def CMT_GROUPMAP0_MAP : Fld := ⟨0x1010, 31, 0⟩
def CMT_GROUPMAP1_MAP : Fld := ⟨0x1014, 31, 0⟩
def CMT_GROUPMAP2_MAP : Fld := ⟨0x1018, 23, 0⟩
def CMT_STATUS_SLOW_BUSY : Fld := ⟨0x101C, 0, 0⟩
def CMT_STATUS_PARTIAL : Fld := ⟨0x101C, 1, 1⟩
def CMT_STATUS_CRC_MISMATCH : Fld := ⟨0x101C, 2, 2⟩
def CMT_STATUS_REFUSED : Fld := ⟨0x101C, 3, 3⟩
def CMT_CRC_CFG_ENABLE : Fld := ⟨0x1020, 0, 0⟩
def CMT_CRC_CFG_ESC : Fld := ⟨0x1020, 1, 1⟩
def CMT_CRC_CAPTURE_GO : Fld := ⟨0x1024, 0, 0⟩
def CMT_CRC_REF_REF : Fld := ⟨0x1028, 31, 0⟩
def CMT_CRC_LAST_LAST : Fld := ⟨0x102C, 31, 0⟩
def CMT_CRC_MISS_COUNT : Fld := ⟨0x1030, 31, 0⟩
def CMT_CRC_DIRTY_COUNT : Fld := ⟨0x1034, 31, 0⟩
def CMT_INT_EN_EN : Fld := ⟨0x1038, 3, 1⟩
def CMT_LASTCOMMIT_TICK (g : Nat) : Fld := ⟨0x1040 + 0x4 * g, 31, 0⟩

/-! ### LOCK registers -/

def LOCK_BLK_LOCK : Fld := ⟨0x2000, 24, 0⟩
def LOCK_POLICY_ESC : Fld := ⟨0x2004, 1, 0⟩
def LOCK_POLICY_LOCK_CMD : Fld := ⟨0x2004, 2, 2⟩
def LOCK_POLICY_PERMIT_DAMPER_OFF : Fld := ⟨0x2004, 3, 3⟩
def LOCK_STATUS_LOCK_VIOL : Fld := ⟨0x2008, 0, 0⟩
def LOCK_STATUS_OVER : Fld := ⟨0x2008, 1, 1⟩
def LOCK_VADDR_ADDR : Fld := ⟨0x200C, 23, 0⟩
def LOCK_VADDR_HOST : Fld := ⟨0x200C, 25, 24⟩
def LOCK_VADDR_KIND : Fld := ⟨0x200C, 27, 26⟩
def LOCK_VCNT_COUNT : Fld := ⟨0x2010, 31, 0⟩
def LOCK_INT_EN_EN : Fld := ⟨0x2014, 1, 0⟩

/-! ### INT registers -/

def INT_PEND_PEND : Fld := ⟨0x3000, 24, 0⟩
def INT_EN_EN : Fld := ⟨0x3004, 24, 0⟩
def INT_CFG_MSIX_EN : Fld := ⟨0x3008, 0, 0⟩
def INT_CFG_PIN_EN : Fld := ⟨0x3008, 1, 1⟩
def INT_VEC_V0 (x : Nat) : Fld := ⟨0x3010 + 0x4 * x, 4, 0⟩
def INT_VEC_V1 (x : Nat) : Fld := ⟨0x3010 + 0x4 * x, 12, 8⟩
def INT_VEC_V2 (x : Nat) : Fld := ⟨0x3010 + 0x4 * x, 20, 16⟩
def INT_VEC_V3 (x : Nat) : Fld := ⟨0x3010 + 0x4 * x, 28, 24⟩
def INT_EVQ0 : Fld := ⟨0x3040, 31, 0⟩
def INT_EVQ1 : Fld := ⟨0x3044, 31, 0⟩
def INT_EVQ2 : Fld := ⟨0x3048, 31, 0⟩
def INT_EVQ3 : Fld := ⟨0x304C, 31, 0⟩
def INT_EVQ_STAT_COUNT : Fld := ⟨0x3050, 9, 0⟩
def INT_EVQ_CFG_THRESH : Fld := ⟨0x3054, 9, 0⟩
def INT_EVQ_CFG_FLUSH : Fld := ⟨0x3054, 16, 16⟩
def INT_EVQ_LOST_COUNT : Fld := ⟨0x3058, 31, 0⟩
def INT_STAT_OVF : Fld := ⟨0x305C, 0, 0⟩

/-! ### SCH registers -/

def SCH_TICK_TICK : Fld := ⟨0x8000, 31, 0⟩
def SCH_CFG_ENABLE : Fld := ⟨0x8004, 0, 0⟩
def SCH_CFG_ERETRY : Fld := ⟨0x8004, 1, 1⟩
def SCH_CFG_CHG_EV : Fld := ⟨0x8004, 2, 2⟩
def SCH_CFG_FLOOR_LOSS : Fld := ⟨0x8004, 5, 4⟩
def SCH_STATUS_REASON : Fld := ⟨0x8008, 7, 0⟩
def SCH_STATUS_CAPFLOOR : Fld := ⟨0x8008, 8, 8⟩
def SCH_STATUS_SUSP : Fld := ⟨0x8008, 9, 9⟩
def SCH_STATUS_CHG : Fld := ⟨0x8008, 10, 10⟩
def SCH_STATUS_JDONE : Fld := ⟨0x8008, 11, 11⟩
def SCH_STATUS_HELD : Fld := ⟨0x8008, 12, 12⟩
def SCH_STATUS_STORM_A : Fld := ⟨0x8008, 13, 13⟩
def SCH_STATUS_STORM_B : Fld := ⟨0x8008, 14, 14⟩
def SCH_STATUS_CNT_HALF : Fld := ⟨0x8008, 21, 16⟩
def SCH_INT_EN_EN : Fld := ⟨0x800C, 11, 8⟩
def SCH_INT_EN_CNT : Fld := ⟨0x800C, 21, 16⟩
def SCH_STORM_CFG_THRESH : Fld := ⟨0x8010, 7, 0⟩
def SCH_STORM_CFG_DEBIT : Fld := ⟨0x8010, 23, 8⟩
def SCH_STORM_CFG_CLEAR : Fld := ⟨0x8010, 31, 24⟩
def SCH_CAPA_ENG : Fld := ⟨0x8020, 7, 0⟩
def SCH_CAPA_CLK : Fld := ⟨0x8020, 9, 8⟩
def SCH_CAPA_REDUCED : Fld := ⟨0x8020, 10, 10⟩
def SCH_CAPA_TAKEN : Fld := ⟨0x8020, 11, 11⟩
def SCH_CAPB_ENG : Fld := ⟨0x8024, 7, 0⟩
def SCH_CAPB_CLK : Fld := ⟨0x8024, 9, 8⟩
def SCH_CAPB_REDUCED : Fld := ⟨0x8024, 10, 10⟩
def SCH_CAPB_TAKEN : Fld := ⟨0x8024, 11, 11⟩
def SCH_BUDGETA_CAP : Fld := ⟨0x8028, 19, 0⟩
def SCH_BUDGETB_CAP : Fld := ⟨0x802C, 19, 0⟩
def SCH_ADMITA_SUM : Fld := ⟨0x8030, 23, 0⟩
def SCH_ADMITB_SUM : Fld := ⟨0x8034, 23, 0⟩
def SCH_SPANA_SPAN : Fld := ⟨0x8038, 19, 0⟩
def SCH_SPANB_SPAN : Fld := ⟨0x803C, 19, 0⟩
def SCH_USEDA_USED : Fld := ⟨0x8040, 23, 0⟩
def SCH_USEDB_USED : Fld := ⟨0x8044, 23, 0⟩
def SCH_NJOBS_COUNT : Fld := ⟨0x8048, 10, 0⟩
def SCH_JCMD_JOB : Fld := ⟨0x8050, 9, 0⟩
def SCH_JCMD_OP : Fld := ⟨0x8050, 14, 12⟩
def SCH_JCMD_GO : Fld := ⟨0x8050, 31, 31⟩
def SCH_JRES_REASON : Fld := ⟨0x8054, 7, 0⟩
def SCH_JRES_JOB : Fld := ⟨0x8054, 25, 16⟩
def SCH_JRES_REFUSED : Fld := ⟨0x8054, 30, 30⟩
def SCH_JRES_VALID : Fld := ⟨0x8054, 31, 31⟩
def SCH_JD_WORD (i : Nat) : Fld := ⟨0x8080 + 0x4 * i, 31, 0⟩
def SCH_OUTC_TICK_TICK : Fld := ⟨0x8100, 31, 0⟩
def SCH_CHG_CHG (i : Nat) : Fld := ⟨0x8180 + 0x4 * i, 31, 0⟩
def SCH_CNT_COUNT (c : Nat) (o : Nat) : Fld := ⟨0x8400 + 0x20 * c + 0x4 * o, 31, 0⟩
def SCH_OUTC_OUTCOME0 (i : Nat) : Fld := ⟨0x8800 + 0x4 * i, 2, 0⟩
def SCH_OUTC_OUTCOME1 (i : Nat) : Fld := ⟨0x8800 + 0x4 * i, 18, 16⟩
def SCH_OUTC_OVRUN0 (i : Nat) : Fld := ⟨0x8800 + 0x4 * i, 4, 3⟩
def SCH_OUTC_OVRUN1 (i : Nat) : Fld := ⟨0x8800 + 0x4 * i, 20, 19⟩
def SCH_OUTC_REASON0 (i : Nat) : Fld := ⟨0x8800 + 0x4 * i, 15, 8⟩
def SCH_OUTC_REASON1 (i : Nat) : Fld := ⟨0x8800 + 0x4 * i, 31, 24⟩

/-! ### Engine control registers -/

def ENG_CFG_OFFLINE (e : Nat) : Fld := ⟨0x20000 + 0x2000 * e, 0, 0⟩
def ENG_STATUS_REASON (e : Nat) : Fld := ⟨0x20004 + 0x2000 * e, 7, 0⟩
def ENG_STATUS_ACCVIOL (e : Nat) : Fld := ⟨0x20004 + 0x2000 * e, 8, 8⟩
def ENG_STATUS_BRKHIT (e : Nat) : Fld := ⟨0x20004 + 0x2000 * e, 9, 9⟩
def ENG_STATUS_POSTDROP (e : Nat) : Fld := ⟨0x20004 + 0x2000 * e, 10, 10⟩
def ENG_STATUS_CNT_HALF (e : Nat) : Fld := ⟨0x20004 + 0x2000 * e, 11, 11⟩
def ENG_STATUS_FAILED (e : Nat) : Fld := ⟨0x20004 + 0x2000 * e, 12, 12⟩
def ENG_STATUS_RETEST_DONE (e : Nat) : Fld := ⟨0x20004 + 0x2000 * e, 13, 13⟩
def ENG_STATUS_LDDONE (e : Nat) : Fld := ⟨0x20004 + 0x2000 * e, 14, 14⟩
def ENG_STATUS_STATE (e : Nat) : Fld := ⟨0x20004 + 0x2000 * e, 17, 16⟩
def ENG_INT_EN_EN (e : Nat) : Fld := ⟨0x20008 + 0x2000 * e, 14, 8⟩
def ENG_CMD_RETEST (e : Nat) : Fld := ⟨0x2000C + 0x2000 * e, 0, 0⟩
def ENG_CMD_WCLR (e : Nat) : Fld := ⟨0x2000C + 0x2000 * e, 1, 1⟩
def ENG_PC_PC (e : Nat) : Fld := ⟨0x20010 + 0x2000 * e, 16, 0⟩
def ENG_PC_JOB (e : Nat) : Fld := ⟨0x20010 + 0x2000 * e, 27, 18⟩
def ENG_PC_RUN (e : Nat) : Fld := ⟨0x20010 + 0x2000 * e, 31, 31⟩
def ENG_FLAGS_FLAGS (e : Nat) : Fld := ⟨0x20014 + 0x2000 * e, 5, 0⟩
def ENG_VADDR_ADDR (e : Nat) : Fld := ⟨0x20018 + 0x2000 * e, 31, 0⟩
def ENG_VINFO_JOB (e : Nat) : Fld := ⟨0x2001C + 0x2000 * e, 9, 0⟩
def ENG_VINFO_KIND (e : Nat) : Fld := ⟨0x2001C + 0x2000 * e, 12, 10⟩
def ENG_VINFO_PC (e : Nat) : Fld := ⟨0x2001C + 0x2000 * e, 31, 15⟩
def ENG_WATCH_JOB (e : Nat) : Fld := ⟨0x20020 + 0x2000 * e, 9, 0⟩
def ENG_WATCH_EN (e : Nat) : Fld := ⟨0x20020 + 0x2000 * e, 15, 15⟩
def ENG_WLAST_CYC (e : Nat) : Fld := ⟨0x20024 + 0x2000 * e, 23, 0⟩
def ENG_WMAX_CYC (e : Nat) : Fld := ⟨0x20028 + 0x2000 * e, 23, 0⟩
def ENG_WSTALL_CYC (e : Nat) : Fld := ⟨0x2002C + 0x2000 * e, 23, 0⟩
def ENG_BRK_PC (e : Nat) : Fld := ⟨0x20030 + 0x2000 * e, 16, 0⟩
def ENG_BRK_JOB (e : Nat) : Fld := ⟨0x20030 + 0x2000 * e, 27, 18⟩
def ENG_BRK_EN (e : Nat) : Fld := ⟨0x20030 + 0x2000 * e, 31, 31⟩
def ENG_BPC_PC (e : Nat) : Fld := ⟨0x20034 + 0x2000 * e, 16, 0⟩
def ENG_BPC_JOB (e : Nat) : Fld := ⟨0x20034 + 0x2000 * e, 27, 18⟩
def ENG_BTICK_TICK (e : Nat) : Fld := ⟨0x20038 + 0x2000 * e, 31, 0⟩
def ENG_BSNAP_VAL (e : Nat) (i : Nat) : Fld := ⟨0x20040 + 0x2000 * e + 0x4 * i, 31, 0⟩
def ENG_RUNS_COUNT (e : Nat) : Fld := ⟨0x20080 + 0x2000 * e, 31, 0⟩
def ENG_VCNT_COUNT (e : Nat) : Fld := ⟨0x20084 + 0x2000 * e, 31, 0⟩
def ENG_PDROP_COUNT (e : Nat) : Fld := ⟨0x20088 + 0x2000 * e, 31, 0⟩
def ENG_CYC_COUNT (e : Nat) : Fld := ⟨0x2008C + 0x2000 * e, 31, 0⟩
def ENG_LDCMD_PROG_ID : Fld := ⟨0x21000, 11, 0⟩
def ENG_LDCMD_HMASK : Fld := ⟨0x21000, 13, 12⟩
def ENG_LDCMD_OP : Fld := ⟨0x21000, 17, 16⟩
def ENG_LDCMD_GO : Fld := ⟨0x21000, 31, 31⟩
def ENG_LDSRC_OFFSET : Fld := ⟨0x21004, 13, 0⟩
def ENG_LDRES_REASON : Fld := ⟨0x21008, 7, 0⟩
def ENG_LDRES_PROG_ID : Fld := ⟨0x21008, 19, 8⟩
def ENG_LDRES_REFUSED : Fld := ⟨0x21008, 30, 30⟩
def ENG_LDRES_VALID : Fld := ⟨0x21008, 31, 31⟩
def ENG_LDINFO0_BASE : Fld := ⟨0x2100C, 16, 0⟩
def ENG_LDINFO0_HMASK : Fld := ⟨0x2100C, 29, 28⟩
def ENG_LDINFO0_LOADED : Fld := ⟨0x2100C, 31, 31⟩
def ENG_LDINFO1_CODE_WORDS : Fld := ⟨0x21010, 16, 0⟩
def ENG_LDINFO1_N_ENTRY : Fld := ⟨0x21010, 23, 17⟩
def ENG_ISRAM_FREEA_RUN : Fld := ⟨0x21014, 16, 0⟩
def ENG_ISRAM_FREEB_RUN : Fld := ⟨0x21018, 16, 0⟩
def ENG_NPROG_COUNT : Fld := ⟨0x2101C, 8, 0⟩
def ENG_ISRAM_ECC_COUNT : Fld := ⟨0x21020, 31, 0⟩
def ENG_SYNCA_FLAGS : Fld := ⟨0x21024, 15, 0⟩
def ENG_SYNCB_FLAGS : Fld := ⟨0x21028, 15, 0⟩
def ENG_LDINFO2_BASEB : Fld := ⟨0x2102C, 16, 0⟩

/-! ### PGU and ALC registers -/

def ALC_CFG_ENABLE : Fld := ⟨0x9000, 0, 0⟩
def ALC_LAYOUT_EMB_PAGES : Fld := ⟨0x9004, 8, 0⟩
def ALC_LAYOUT_BANKS : Fld := ⟨0x9004, 18, 9⟩
def ALC_LAYOUT_FRAMES : Fld := ⟨0x9004, 29, 19⟩
def ALC_BASE0_EMB : Fld := ⟨0x9008, 10, 0⟩
def ALC_BASE0_BANK : Fld := ⟨0x9008, 26, 16⟩
def ALC_BASE1_FRAME : Fld := ⟨0x900C, 10, 0⟩
def ALC_BASE1_POOL : Fld := ⟨0x900C, 26, 16⟩
def ALC_POOLA_FREE : Fld := ⟨0x9010, 16, 0⟩
def ALC_LARGESTA_RUN : Fld := ⟨0x9014, 16, 0⟩
def ALC_POOLB_FREE : Fld := ⟨0x9018, 16, 0⟩
def ALC_LARGESTB_RUN : Fld := ⟨0x901C, 16, 0⟩
def ALC_FRAMEFREEA_COUNT : Fld := ⟨0x9020, 10, 0⟩
def ALC_FRAMEFREEB_COUNT : Fld := ⟨0x9024, 10, 0⟩
def PGU_STATUS_REASON : Fld := ⟨0x9040, 7, 0⟩
def PGU_STATUS_WINVIOL : Fld := ⟨0x9040, 8, 8⟩
def PGU_STATUS_WDROP : Fld := ⟨0x9040, 9, 9⟩
def PGU_STATUS_CE : Fld := ⟨0x9040, 10, 10⟩
def PGU_STATUS_UE : Fld := ⟨0x9040, 11, 11⟩
def PGU_STATUS_DLDONE : Fld := ⟨0x9040, 12, 12⟩
def PGU_STATUS_DFAILEV : Fld := ⟨0x9040, 13, 13⟩
def PGU_STATUS_CNT_HALF : Fld := ⟨0x9040, 14, 14⟩
def PGU_STATUS_DFAIL0 : Fld := ⟨0x9040, 16, 16⟩
def PGU_STATUS_DFAIL1 : Fld := ⟨0x9040, 17, 17⟩
def PGU_STATUS_MSGVALID : Fld := ⟨0x9040, 18, 18⟩
def PGU_STATUS_RESYNC : Fld := ⟨0x9040, 19, 19⟩
def PGU_INT_EN_EN : Fld := ⟨0x9044, 14, 8⟩
def PGU_WIN_HSEL : Fld := ⟨0x9048, 1, 0⟩
def PGU_WIN_HALF : Fld := ⟨0x9048, 2, 2⟩
def PGU_CMD_RETRAIN0 : Fld := ⟨0x904C, 0, 0⟩
def PGU_CMD_RETRAIN1 : Fld := ⟨0x904C, 1, 1⟩
def PGU_CMD_MSG_RELOAD : Fld := ⟨0x904C, 2, 2⟩
def PGU_DLCMD_LINE : Fld := ⟨0x9050, 11, 0⟩
def PGU_DLCMD_OP : Fld := ⟨0x9050, 13, 12⟩
def PGU_DLCMD_GO : Fld := ⟨0x9050, 31, 31⟩
def PGU_DLRES_REASON : Fld := ⟨0x9054, 7, 0⟩
def PGU_DLRES_LINE : Fld := ⟨0x9054, 23, 12⟩
def PGU_DLRES_REFUSED : Fld := ⟨0x9054, 30, 30⟩
def PGU_DLRES_VALID : Fld := ⟨0x9054, 31, 31⟩
def PGU_DLSTAGE0_NPAGES : Fld := ⟨0x9058, 7, 0⟩
def PGU_DLSTAGE0_PROT : Fld := ⟨0x9058, 8, 8⟩
def PGU_DLSTAGE0_HEARTH : Fld := ⟨0x9058, 9, 9⟩
def PGU_DLSTAGE0_SLEW_MAX : Fld := ⟨0x9058, 27, 16⟩
def PGU_DLSTAGE1_TAP0 : Fld := ⟨0x905C, 17, 0⟩
def PGU_DLSTAGE2_TAPSPAN : Fld := ⟨0x9060, 17, 0⟩
def PGU_DLREAD0 : Fld := ⟨0x9064, 31, 0⟩
def PGU_DLREAD1_TAP0 : Fld := ⟨0x9068, 17, 0⟩
def PGU_DLREAD2_TAPSPAN : Fld := ⟨0x906C, 17, 0⟩
def PGU_DLREAD3_BASE : Fld := ⟨0x9070, 19, 0⟩
def PGU_DLREAD3_FR : Fld := ⟨0x9070, 31, 24⟩
def PGU_DRAM_INFO_DENS : Fld := ⟨0x9080, 2, 0⟩
def PGU_DRAM_INFO_X : Fld := ⟨0x9080, 3, 3⟩
def PGU_DRAM_INFO_RANKS2 : Fld := ⟨0x9080, 4, 4⟩
def PGU_DRAM_INFO_TRAINED0 : Fld := ⟨0x9080, 5, 5⟩
def PGU_DRAM_INFO_TRAINED1 : Fld := ⟨0x9080, 6, 6⟩
def PGU_MR4_REF0 : Fld := ⟨0x9084, 2, 0⟩
def PGU_MR4_REF1 : Fld := ⟨0x9084, 10, 8⟩
def PGU_REGION_MSG_MIB : Fld := ⟨0x9088, 8, 0⟩
def PGU_REGION_DL_MIB : Fld := ⟨0x9088, 27, 16⟩
def PGU_DFAIL_CFG_UE_LIMIT : Fld := ⟨0x908C, 3, 0⟩
def PGU_DMISSA_COUNT : Fld := ⟨0x9100, 31, 0⟩
def PGU_DMISSB_COUNT : Fld := ⟨0x9104, 31, 0⟩
def PGU_PFLATEA_COUNT : Fld := ⟨0x9108, 31, 0⟩
def PGU_PFLATEB_COUNT : Fld := ⟨0x910C, 31, 0⟩
def PGU_WDROP_COUNT : Fld := ⟨0x9110, 31, 0⟩
def PGU_WINVCNT_COUNT : Fld := ⟨0x9114, 31, 0⟩
def PGU_DCE0_COUNT : Fld := ⟨0x9118, 31, 0⟩
def PGU_DCE1_COUNT : Fld := ⟨0x911C, 31, 0⟩
def PGU_DUE0_COUNT : Fld := ⟨0x9120, 31, 0⟩
def PGU_DUE1_COUNT : Fld := ⟨0x9124, 31, 0⟩
def PGU_GCEA_COUNT : Fld := ⟨0x9128, 31, 0⟩
def PGU_GCEB_COUNT : Fld := ⟨0x912C, 31, 0⟩
def PGU_GUEA_COUNT : Fld := ⟨0x9130, 31, 0⟩
def PGU_GUEB_COUNT : Fld := ⟨0x9134, 31, 0⟩
def PGU_INFLA_NOW : Fld := ⟨0x9140, 7, 0⟩
def PGU_INFLB_NOW : Fld := ⟨0x9144, 7, 0⟩

/-! ### FLW registers -/

def FLW_CFG_ENABLE : Fld := ⟨0xC000, 0, 0⟩
def FLW_CFG_MAX_PAYLOAD : Fld := ⟨0xC000, 29, 16⟩
def FLW_PATH_CFG_TIMEOUT : Fld := ⟨0xC004, 7, 0⟩
def FLW_STATUS_REASON : Fld := ⟨0xC008, 7, 0⟩
def FLW_STATUS_FDONE : Fld := ⟨0xC008, 8, 8⟩
def FLW_STATUS_PATHEV : Fld := ⟨0xC008, 9, 9⟩
def FLW_STATUS_FLOWEV : Fld := ⟨0xC008, 10, 10⟩
def FLW_STATUS_LATE : Fld := ⟨0xC008, 11, 11⟩
def FLW_STATUS_CNT_HALF : Fld := ⟨0xC008, 12, 12⟩
def FLW_STATUS_FCNT_HALF : Fld := ⟨0xC008, 13, 13⟩
def FLW_STATUS_JBUE : Fld := ⟨0xC008, 14, 14⟩
def FLW_INT_EN_EN : Fld := ⟨0xC00C, 14, 8⟩
def FLW_FCMD_FLOW : Fld := ⟨0xC010, 7, 0⟩
def FLW_FCMD_DIR : Fld := ⟨0xC010, 8, 8⟩
def FLW_FCMD_OP : Fld := ⟨0xC010, 13, 12⟩
def FLW_FCMD_GO : Fld := ⟨0xC010, 31, 31⟩
def FLW_FRES_REASON : Fld := ⟨0xC014, 7, 0⟩
def FLW_FRES_FLOW : Fld := ⟨0xC014, 15, 8⟩
def FLW_FRES_DIR : Fld := ⟨0xC014, 16, 16⟩
def FLW_FRES_REFUSED : Fld := ⟨0xC014, 30, 30⟩
def FLW_FRES_VALID : Fld := ⟨0xC014, 31, 31⟩
def FLW_FCNT_FLOW_FLOW : Fld := ⟨0xC018, 7, 0⟩
def FLW_FCNT_FLOW_DIR : Fld := ⟨0xC018, 8, 8⟩
def FLW_MCF_USED_COUNT : Fld := ⟨0xC01C, 9, 0⟩
def FLW_RUN_RX : Fld := ⟨0xC020, 8, 0⟩
def FLW_RUN_TX : Fld := ⟨0xC020, 24, 16⟩
def FLW_TXLOAD0_MBPS : Fld := ⟨0xC024, 13, 0⟩
def FLW_TXLOAD1_MBPS : Fld := ⟨0xC028, 13, 0⟩
def FLW_RXPKT_COUNT : Fld := ⟨0xC040, 31, 0⟩
def FLW_ACCEPT_COUNT : Fld := ⟨0xC044, 31, 0⟩
def FLW_DUP_COUNT : Fld := ⟨0xC048, 31, 0⟩
def FLW_INVALID_COUNT : Fld := ⟨0xC04C, 31, 0⟩
def FLW_LATE_COUNT : Fld := ⟨0xC050, 31, 0⟩
def FLW_EARLY_COUNT : Fld := ⟨0xC054, 31, 0⟩
def FLW_STALE_COUNT : Fld := ⟨0xC058, 31, 0⟩
def FLW_SEQGAP_COUNT : Fld := ⟨0xC05C, 31, 0⟩
def FLW_NOFLOW_COUNT : Fld := ⟨0xC060, 31, 0⟩
def FLW_MISSTICK_COUNT : Fld := ⟨0xC064, 31, 0⟩
def FLW_RESYNC_COUNT : Fld := ⟨0xC068, 31, 0⟩
def FLW_JBUE_COUNT : Fld := ⟨0xC06C, 31, 0⟩
def FLW_TXPKT_COUNT : Fld := ⟨0xC070, 31, 0⟩
def FLW_TXDROP_COUNT : Fld := ⟨0xC074, 31, 0⟩

/-! ### TDM and SRC registers -/

def TDM_CFG_ENABLE : Fld := ⟨0xD000, 0, 0⟩
def TDM_CFG_ALIGN_WIN : Fld := ⟨0xD000, 15, 8⟩
def TDM_STATUS_REASON : Fld := ⟨0xD004, 7, 0⟩
def TDM_STATUS_START : Fld := ⟨0xD004, 8, 8⟩
def TDM_STATUS_FAULT : Fld := ⟨0xD004, 9, 9⟩
def TDM_STATUS_XF : Fld := ⟨0xD004, 10, 10⟩
def TDM_STATUS_SRCEV : Fld := ⟨0xD004, 11, 11⟩
def TDM_STATUS_CNT_HALF : Fld := ⟨0xD004, 12, 12⟩
def TDM_STATUS_RPORT : Fld := ⟨0xD004, 19, 16⟩
def TDM_INT_EN_EN : Fld := ⟨0xD008, 12, 8⟩
def TDM_ARMED_PORTS : Fld := ⟨0xD00C, 15, 0⟩
def TDM_RUN_PORTS : Fld := ⟨0xD010, 15, 0⟩
def TDM_PCFG_ENABLE (n : Nat) : Fld := ⟨0xD400 + 0x80 * n, 0, 0⟩
def TDM_PCFG_ROLE (n : Nat) : Fld := ⟨0xD400 + 0x80 * n, 1, 1⟩
def TDM_PCFG_SYN (n : Nat) : Fld := ⟨0xD400 + 0x80 * n, 2, 2⟩
def TDM_PCFG_XFAIL (n : Nat) : Fld := ⟨0xD400 + 0x80 * n, 3, 3⟩
def TDM_PCFG_REVERT (n : Nat) : Fld := ⟨0xD400 + 0x80 * n, 4, 4⟩
def TDM_PCFG_SLOTS (n : Nat) : Fld := ⟨0xD400 + 0x80 * n, 6, 5⟩
def TDM_PCFG_PROT (n : Nat) : Fld := ⟨0xD400 + 0x80 * n, 8, 8⟩
def TDM_PCFG_HEARTH (n : Nat) : Fld := ⟨0xD400 + 0x80 * n, 9, 9⟩
def TDM_PCFG_START (n : Nat) : Fld := ⟨0xD400 + 0x80 * n, 10, 10⟩
def TDM_PCFG_TRIG (n : Nat) : Fld := ⟨0xD400 + 0x80 * n, 15, 12⟩
def TDM_PCFG_WORD (n : Nat) : Fld := ⟨0xD400 + 0x80 * n, 17, 16⟩
def TDM_PCFG_DELAY (n : Nat) : Fld := ⟨0xD400 + 0x80 * n, 18, 18⟩
def TDM_PCFG_FSPOL (n : Nat) : Fld := ⟨0xD400 + 0x80 * n, 19, 19⟩
def TDM_PCFG_FSWIDTH (n : Nat) : Fld := ⟨0xD400 + 0x80 * n, 20, 20⟩
def TDM_PCFG_EDGE (n : Nat) : Fld := ⟨0xD400 + 0x80 * n, 21, 21⟩
def TDM_PCFG_TRISTATE (n : Nat) : Fld := ⟨0xD400 + 0x80 * n, 22, 22⟩
def TDM_PCFG_SRC (n : Nat) : Fld := ⟨0xD400 + 0x80 * n, 23, 23⟩
def TDM_PSTAT_STATE (n : Nat) : Fld := ⟨0xD404 + 0x80 * n, 1, 0⟩
def TDM_PSTAT_ONSYN (n : Nat) : Fld := ⟨0xD404 + 0x80 * n, 2, 2⟩
def TDM_PSTAT_ALIGNED (n : Nat) : Fld := ⟨0xD404 + 0x80 * n, 3, 3⟩
def TDM_PSTART_TICK (n : Nat) : Fld := ⟨0xD408 + 0x80 * n, 31, 0⟩
def TDM_PALIGN_OFFSET (n : Nat) : Fld := ⟨0xD40C + 0x80 * n, 15, 0⟩
def TDM_INMAP_LO (n : Nat) (i : Nat) : Fld := ⟨0xD410 + 0x80 * n + 0x4 * i, 8, 0⟩
def TDM_INMAP_HI (n : Nat) (i : Nat) : Fld := ⟨0xD410 + 0x80 * n + 0x4 * i, 24, 16⟩
def TDM_OUTMAP_LO (n : Nat) (i : Nat) : Fld := ⟨0xD430 + 0x80 * n + 0x4 * i, 8, 0⟩
def TDM_OUTMAP_HI (n : Nat) (i : Nat) : Fld := ⟨0xD430 + 0x80 * n + 0x4 * i, 24, 16⟩
def TDM_XFCNT_COUNT (n : Nat) : Fld := ⟨0xD450 + 0x80 * n, 31, 0⟩
def TDM_FAULTCNT_COUNT (n : Nat) : Fld := ⟨0xD454 + 0x80 * n, 31, 0⟩
def TDM_SRCSTAT_LOCK (m : Nat) : Fld := ⟨0xDC00 + 0x20 * m, 0, 0⟩
def TDM_SRCSTAT_RATE (m : Nat) : Fld := ⟨0xDC00 + 0x20 * m, 27, 4⟩
def TDM_SRCPHASE_PHASE (m : Nat) : Fld := ⟨0xDC04 + 0x20 * m, 15, 0⟩
def TDM_SRCUNLOCK_COUNT (m : Nat) : Fld := ⟨0xDC08 + 0x20 * m, 31, 0⟩

/-! ### MAC0 and MAC1 registers -/

def MAC_CFG_ENABLE (n : Nat) : Fld := ⟨0x10000 + 0x1000 * n, 0, 0⟩
def MAC_CFG_SPEED (n : Nat) : Fld := ⟨0x10000 + 0x1000 * n, 2, 1⟩
def MAC_CFG_AN_EN (n : Nat) : Fld := ⟨0x10000 + 0x1000 * n, 3, 3⟩
def MAC_CFG_RX_PAUSE_EN (n : Nat) : Fld := ⟨0x10000 + 0x1000 * n, 4, 4⟩
def MAC_CFG_RX_PFC_EN (n : Nat) : Fld := ⟨0x10000 + 0x1000 * n, 5, 5⟩
def MAC_CFG_ERR_FWD (n : Nat) : Fld := ⟨0x10000 + 0x1000 * n, 6, 6⟩
def MAC_CFG_MAXLEN (n : Nat) : Fld := ⟨0x10000 + 0x1000 * n, 29, 16⟩
def MAC_STATUS_REASON (n : Nat) : Fld := ⟨0x10004 + 0x1000 * n, 7, 0⟩
def MAC_STATUS_LINKEV (n : Nat) : Fld := ⟨0x10004 + 0x1000 * n, 8, 8⟩
def MAC_STATUS_DAMPEREV (n : Nat) : Fld := ⟨0x10004 + 0x1000 * n, 9, 9⟩
def MAC_STATUS_SFPEV (n : Nat) : Fld := ⟨0x10004 + 0x1000 * n, 10, 10⟩
def MAC_STATUS_CNT_HALF (n : Nat) : Fld := ⟨0x10004 + 0x1000 * n, 11, 11⟩
def MAC_STATUS_SFPDONE (n : Nat) : Fld := ⟨0x10004 + 0x1000 * n, 12, 12⟩
def MAC_STATUS_LINK (n : Nat) : Fld := ⟨0x10004 + 0x1000 * n, 16, 16⟩
def MAC_STATUS_SPEED_NOW (n : Nat) : Fld := ⟨0x10004 + 0x1000 * n, 18, 17⟩
def MAC_STATUS_RFAULT (n : Nat) : Fld := ⟨0x10004 + 0x1000 * n, 19, 19⟩
def MAC_STATUS_LFAULT (n : Nat) : Fld := ⟨0x10004 + 0x1000 * n, 20, 20⟩
def MAC_STATUS_SFP_PRESENT (n : Nat) : Fld := ⟨0x10004 + 0x1000 * n, 21, 21⟩
def MAC_STATUS_TXFAULT (n : Nat) : Fld := ⟨0x10004 + 0x1000 * n, 22, 22⟩
def MAC_STATUS_LOS (n : Nat) : Fld := ⟨0x10004 + 0x1000 * n, 23, 23⟩
def MAC_STATUS_AN_DONE (n : Nat) : Fld := ⟨0x10004 + 0x1000 * n, 24, 24⟩
def MAC_STATUS_PARTNER_PAUSE (n : Nat) : Fld := ⟨0x10004 + 0x1000 * n, 25, 25⟩
def MAC_INT_EN_EN (n : Nat) : Fld := ⟨0x10008 + 0x1000 * n, 12, 8⟩
def MAC_ADDR_LO_ADDR (n : Nat) : Fld := ⟨0x1000C + 0x1000 * n, 31, 0⟩
def MAC_ADDR_HI_ADDR (n : Nat) : Fld := ⟨0x10010 + 0x1000 * n, 15, 0⟩
def MAC_FC_CFG_DAMPER_LIMIT (n : Nat) : Fld := ⟨0x10014 + 0x1000 * n, 15, 0⟩
def MAC_FC_CFG_DAMPER_OPEN (n : Nat) : Fld := ⟨0x10014 + 0x1000 * n, 25, 16⟩
def MAC_PAUSE_STAT_PAUSED (n : Nat) : Fld := ⟨0x10018 + 0x1000 * n, 7, 0⟩
def MAC_PAUSE_STAT_BROKEN (n : Nat) : Fld := ⟨0x10018 + 0x1000 * n, 15, 8⟩
def MAC_SUPQ_PTPQ (n : Nat) : Fld := ⟨0x1001C + 0x1000 * n, 2, 0⟩
def MAC_SUPQ_OTHERQ (n : Nat) : Fld := ⟨0x1001C + 0x1000 * n, 6, 4⟩
def MAC_QCFG_DEPTH (n : Nat) (q : Nat) : Fld := ⟨0x10040 + 0x1000 * n + 0x4 * q, 8, 0⟩
def MAC_QCFG_AUDIO (n : Nat) (q : Nat) : Fld := ⟨0x10040 + 0x1000 * n + 0x4 * q, 12, 12⟩
def MAC_QCFG_ECLASS (n : Nat) (q : Nat) : Fld := ⟨0x10040 + 0x1000 * n + 0x4 * q, 13, 13⟩
def MAC_QCFG_DAMPER_EN (n : Nat) (q : Nat) : Fld := ⟨0x10040 + 0x1000 * n + 0x4 * q, 14, 14⟩
def MAC_SHAPER5_EN (n : Nat) : Fld := ⟨0x10060 + 0x1000 * n, 0, 0⟩
def MAC_SHAPER5_IDLESLOPE (n : Nat) : Fld := ⟨0x10060 + 0x1000 * n, 29, 16⟩
def MAC_SHAPER6_EN (n : Nat) : Fld := ⟨0x10064 + 0x1000 * n, 0, 0⟩
def MAC_SHAPER6_IDLESLOPE (n : Nat) : Fld := ⟨0x10064 + 0x1000 * n, 29, 16⟩
def MAC_CREDIT5_CREDIT (n : Nat) : Fld := ⟨0x10068 + 0x1000 * n, 31, 0⟩
def MAC_CREDIT6_CREDIT (n : Nat) : Fld := ⟨0x1006C + 0x1000 * n, 31, 0⟩
def MAC_SFPCMD_DEV (n : Nat) : Fld := ⟨0x10080 + 0x1000 * n, 0, 0⟩
def MAC_SFPCMD_OFFSET (n : Nat) : Fld := ⟨0x10080 + 0x1000 * n, 15, 8⟩
def MAC_SFPCMD_LEN (n : Nat) : Fld := ⟨0x10080 + 0x1000 * n, 17, 16⟩
def MAC_SFPCMD_GO (n : Nat) : Fld := ⟨0x10080 + 0x1000 * n, 31, 31⟩
def MAC_SFPDATA_DATA (n : Nat) : Fld := ⟨0x10084 + 0x1000 * n, 31, 0⟩
def MAC_SFPRES_NACK (n : Nat) : Fld := ⟨0x10088 + 0x1000 * n, 0, 0⟩
def MAC_SFPRES_VALID (n : Nat) : Fld := ⟨0x10088 + 0x1000 * n, 31, 31⟩
def MAC_SFPID (n : Nat) : Fld := ⟨0x1008C + 0x1000 * n, 31, 0⟩
def MAC_SFPDIAG0_TEMP (n : Nat) : Fld := ⟨0x10090 + 0x1000 * n, 15, 0⟩
def MAC_SFPDIAG0_VCC (n : Nat) : Fld := ⟨0x10090 + 0x1000 * n, 31, 16⟩
def MAC_SFPDIAG1_TXBIAS (n : Nat) : Fld := ⟨0x10094 + 0x1000 * n, 15, 0⟩
def MAC_SFPDIAG1_TXPWR (n : Nat) : Fld := ⟨0x10094 + 0x1000 * n, 31, 16⟩
def MAC_SFPDIAG2_RXPWR (n : Nat) : Fld := ⟨0x10098 + 0x1000 * n, 15, 0⟩
def MAC_SFPDIAG2_STALE (n : Nat) : Fld := ⟨0x10098 + 0x1000 * n, 16, 16⟩
def MAC_CNTHALF0 (n : Nat) : Fld := ⟨0x100A0 + 0x1000 * n, 31, 0⟩
def MAC_CNTHALF1 (n : Nat) : Fld := ⟨0x100A4 + 0x1000 * n, 31, 0⟩
def MAC_CNT (n : Nat) (i : Nat) : Fld := ⟨0x10400 + 0x1000 * n + 0x4 * i, 31, 0⟩

/-! ### MACC registers -/

def MACC_SNAP_SNAP : Fld := ⟨0x12000, 0, 0⟩
def MACC_SNAPTICK_TICK : Fld := ⟨0x12004, 31, 0⟩
def MACC_BANK (i : Nat) : Fld := ⟨0x12400 + 0x4 * i, 31, 0⟩

/-! ### PTP registers -/

def PTP_CFG_ENABLE : Fld := ⟨0x14000, 0, 0⟩
def PTP_STATUS_REASON : Fld := ⟨0x14004, 7, 0⟩
def PTP_STATUS_SERVOEV : Fld := ⟨0x14004, 8, 8⟩
def PTP_STATUS_PSTEPEV : Fld := ⟨0x14004, 9, 9⟩
def PTP_STATUS_CNT_HALF : Fld := ⟨0x14004, 10, 10⟩
def PTP_STATUS_STATEEV : Fld := ⟨0x14004, 11, 11⟩
def PTP_STATUS_ANCHORED : Fld := ⟨0x14004, 16, 16⟩
def PTP_STATUS_STEER : Fld := ⟨0x14004, 18, 17⟩
def PTP_INT_EN_EN : Fld := ⟨0x14008, 11, 8⟩
def PTP_CMD_REBASE0 : Fld := ⟨0x1400C, 0, 0⟩
def PTP_CMD_REBASE1 : Fld := ⟨0x1400C, 1, 1⟩
def PTP_CMD_ACCEPT0 : Fld := ⟨0x1400C, 2, 2⟩
def PTP_CMD_ACCEPT1 : Fld := ⟨0x1400C, 3, 3⟩
def PTP_CMD_CLRREB0 : Fld := ⟨0x1400C, 4, 4⟩
def PTP_CMD_CLRREB1 : Fld := ⟨0x1400C, 5, 5⟩
def PTP_SERVO_BW : Fld := ⟨0x14010, 1, 0⟩
def PTP_SERVO_LOCK_NS : Fld := ⟨0x14010, 19, 8⟩
def PTP_PSTEP_THRESH : Fld := ⟨0x14018, 15, 0⟩
def PTP_PSTEP_HOLD : Fld := ⟨0x14018, 25, 16⟩
def TIME_NS : Fld := ⟨0x14020, 31, 0⟩
def TIME_SEC : Fld := ⟨0x14024, 31, 0⟩
def TIME_SECHI : Fld := ⟨0x14028, 15, 0⟩
def TIME_TICK : Fld := ⟨0x1402C, 31, 0⟩
def PTP_FREQ_FREQ : Fld := ⟨0x14030, 31, 0⟩
def PTP_PCFG_ENABLE (n : Nat) : Fld := ⟨0x14100 + 0x80 * n, 0, 0⟩
def PTP_PCFG_PROFILE (n : Nat) : Fld := ⟨0x14100 + 0x80 * n, 2, 1⟩
def PTP_PCFG_TRANSPORT (n : Nat) : Fld := ⟨0x14100 + 0x80 * n, 5, 4⟩
def PTP_PCFG_DELAY (n : Nat) : Fld := ⟨0x14100 + 0x80 * n, 6, 6⟩
def PTP_PCFG_ROLE (n : Nat) : Fld := ⟨0x14100 + 0x80 * n, 7, 7⟩
def PTP_PCFG_ONESTEP (n : Nat) : Fld := ⟨0x14100 + 0x80 * n, 8, 8⟩
def PTP_PCFG_DOMAIN (n : Nat) : Fld := ⟨0x14100 + 0x80 * n, 23, 16⟩
def PTP_PRATE_LOG_SYNC (n : Nat) : Fld := ⟨0x14104 + 0x80 * n, 7, 0⟩
def PTP_PRATE_LOG_DREQ (n : Nat) : Fld := ⟨0x14104 + 0x80 * n, 15, 8⟩
def PTP_PRATE_LOG_ANN (n : Nat) : Fld := ⟨0x14104 + 0x80 * n, 23, 16⟩
def PTP_PRATE_ANN_TMO (n : Nat) : Fld := ⟨0x14104 + 0x80 * n, 27, 24⟩
def PTP_ASYM_ASYM (n : Nat) : Fld := ⟨0x14108 + 0x80 * n, 31, 0⟩
def PTP_OFF_THETA (n : Nat) : Fld := ⟨0x1410C + 0x80 * n, 31, 0⟩
def PTP_MPD_D (n : Nat) : Fld := ⟨0x14110 + 0x80 * n, 31, 0⟩
def PTP_REBASE_REBASE (n : Nat) : Fld := ⟨0x14114 + 0x80 * n, 31, 0⟩
def PTP_PSTEPLOG_STEP (n : Nat) : Fld := ⟨0x14118 + 0x80 * n, 31, 0⟩
def PTP_PSTAT_STATE (n : Nat) : Fld := ⟨0x1411C + 0x80 * n, 2, 0⟩
def PTP_PSTAT_HOLD (n : Nat) : Fld := ⟨0x1411C + 0x80 * n, 4, 4⟩
def PTP_PSTAT_LOCK (n : Nat) : Fld := ⟨0x1411C + 0x80 * n, 5, 5⟩
def PTP_GMID_LO (n : Nat) : Fld := ⟨0x14120 + 0x80 * n, 31, 0⟩
def PTP_GMID_HI (n : Nat) : Fld := ⟨0x14124 + 0x80 * n, 31, 0⟩
def PTP_GMQ_CLASS (n : Nat) : Fld := ⟨0x14128 + 0x80 * n, 7, 0⟩
def PTP_GMQ_ACCURACY (n : Nat) : Fld := ⟨0x14128 + 0x80 * n, 15, 8⟩
def PTP_GMQ_VARIANCE (n : Nat) : Fld := ⟨0x14128 + 0x80 * n, 31, 16⟩
def PTP_PSTEPCNT_COUNT (n : Nat) : Fld := ⟨0x1412C + 0x80 * n, 31, 0⟩
def PTP_SUSPECT_COUNT (n : Nat) : Fld := ⟨0x14130 + 0x80 * n, 31, 0⟩
def PTP_EXCH_COUNT (n : Nat) : Fld := ⟨0x14134 + 0x80 * n, 31, 0⟩
def PTP_SKIP_COUNT (n : Nat) : Fld := ⟨0x14138 + 0x80 * n, 31, 0⟩

/-! ### TSU registers -/

def TSU_CFG_ENABLE : Fld := ⟨0x15000, 0, 0⟩
def TSU_STATUS_REASON : Fld := ⟨0x15004, 7, 0⟩
def TSU_STATUS_QLOST : Fld := ⟨0x15004, 8, 8⟩
def TSU_STATUS_TRIG : Fld := ⟨0x15004, 9, 9⟩
def TSU_STATUS_CAP : Fld := ⟨0x15004, 10, 10⟩
def TSU_STATUS_CNT_HALF : Fld := ⟨0x15004, 11, 11⟩
def TSU_INT_EN_EN : Fld := ⟨0x15008, 11, 8⟩
def TSU_TRIG_EV_EV : Fld := ⟨0x1500C, 15, 0⟩
def TSU_LAT_RXLAT (n : Nat) : Fld := ⟨0x15010 + 0x4 * n, 15, 0⟩
def TSU_LAT_TXLAT (n : Nat) : Fld := ⟨0x15010 + 0x4 * n, 31, 16⟩
def TSU_ILAT_RX (n : Nat) : Fld := ⟨0x15018 + 0x4 * n, 15, 0⟩
def TSU_ILAT_TX (n : Nat) : Fld := ⟨0x15018 + 0x4 * n, 31, 16⟩
def TSU_QSTAT_N0 : Fld := ⟨0x15020, 5, 0⟩
def TSU_QSTAT_N1 : Fld := ⟨0x15020, 13, 8⟩
def TSU_QSTAT_N2 : Fld := ⟨0x15020, 21, 16⟩
def TSU_QSTAT_N3 : Fld := ⟨0x15020, 29, 24⟩
def TSU_QHEAD0 (q : Nat) : Fld := ⟨0x15040 + 0x10 * q, 31, 0⟩
def TSU_QHEAD_W (q : Nat) (i : Nat) : Fld := ⟨0x15044 + 0x10 * q + 0x4 * i, 31, 0⟩
def TSU_QLOST_COUNT (q : Nat) : Fld := ⟨0x15080 + 0x4 * q, 31, 0⟩
def TSU_QLASTSEQ_SEQID (q : Nat) : Fld := ⟨0x15090 + 0x4 * q, 15, 0⟩
def TSU_TRIG_NS_NS (x : Nat) : Fld := ⟨0x15200 + 0x20 * x, 29, 0⟩
def TSU_TRIG_SEC_SEC (x : Nat) : Fld := ⟨0x15204 + 0x20 * x, 31, 0⟩
def TSU_TRIG_SECHI_SEC (x : Nat) : Fld := ⟨0x15208 + 0x20 * x, 15, 0⟩
def TSU_TRIG_PER_PER (x : Nat) : Fld := ⟨0x1520C + 0x20 * x, 31, 0⟩
def TSU_TRIG_CMD_ARM (x : Nat) : Fld := ⟨0x15210 + 0x20 * x, 0, 0⟩
def TSU_TRIG_CMD_DISARM (x : Nat) : Fld := ⟨0x15210 + 0x20 * x, 1, 1⟩
def TSU_TRIG_STAT_ARMED (x : Nat) : Fld := ⟨0x15214 + 0x20 * x, 0, 0⟩
def TSU_TRIG_STAT_FIRED (x : Nat) : Fld := ⟨0x15214 + 0x20 * x, 1, 1⟩
def TSU_TRIG_STAT_LATE (x : Nat) : Fld := ⟨0x15214 + 0x20 * x, 2, 2⟩
def TSU_TRIG_STAT_REASON (x : Nat) : Fld := ⟨0x15214 + 0x20 * x, 15, 8⟩
def TSU_TRIG_LAST_TS32 (x : Nat) : Fld := ⟨0x15218 + 0x20 * x, 31, 0⟩
def TSU_CAP_CFG_EN (c : Nat) : Fld := ⟨0x15400 + 0x20 * c, 0, 0⟩
def TSU_CAP_CFG_SRC (c : Nat) : Fld := ⟨0x15400 + 0x20 * c, 6, 1⟩
def TSU_CAP_CFG_EDGE (c : Nat) : Fld := ⟨0x15400 + 0x20 * c, 9, 8⟩
def TSU_CAP_NS_TS32 (c : Nat) : Fld := ⟨0x15404 + 0x20 * c, 31, 0⟩
def TSU_CAP_SEC_SEC (c : Nat) : Fld := ⟨0x15408 + 0x20 * c, 31, 0⟩
def TSU_CAP_SECHI_SEC (c : Nat) : Fld := ⟨0x1540C + 0x20 * c, 15, 0⟩
def TSU_CAP_STAT_NEW (c : Nat) : Fld := ⟨0x15410 + 0x20 * c, 0, 0⟩
def TSU_CAP_STAT_OVR (c : Nat) : Fld := ⟨0x15410 + 0x20 * c, 1, 1⟩
def TSU_CAP_CNT_COUNT (c : Nat) : Fld := ⟨0x15414 + 0x20 * c, 31, 0⟩

/-! ### REF registers -/

def REF_CFG_ENABLE : Fld := ⟨0x16000, 0, 0⟩
def REF_CFG_REVERT : Fld := ⟨0x16000, 1, 1⟩
def REF_CFG_QLMODE : Fld := ⟨0x16000, 2, 2⟩
def REF_CFG_SSMOPT : Fld := ⟨0x16000, 3, 3⟩
def REF_STATUS_REASON : Fld := ⟨0x16004, 7, 0⟩
def REF_STATUS_SWEV : Fld := ⟨0x16004, 8, 8⟩
def REF_STATUS_QUALEV : Fld := ⟨0x16004, 9, 9⟩
def REF_STATUS_HOEV : Fld := ⟨0x16004, 10, 10⟩
def REF_STATUS_OCXOEV : Fld := ⟨0x16004, 11, 11⟩
def REF_STATUS_CNT_HALF : Fld := ⟨0x16004, 12, 12⟩
def REF_STATUS_FAREV : Fld := ⟨0x16004, 13, 13⟩
def REF_STATUS_STATE : Fld := ⟨0x16004, 18, 16⟩
def REF_STATUS_SEL : Fld := ⟨0x16004, 22, 20⟩
def REF_STATUS_PEND : Fld := ⟨0x16004, 26, 24⟩
def REF_STATUS_HISTVALID : Fld := ⟨0x16004, 27, 27⟩
def REF_STATUS_NOMON : Fld := ⟨0x16004, 28, 28⟩
def REF_STATUS_OCXO_WARM : Fld := ⟨0x16004, 29, 29⟩
def REF_STATUS_OSCIN_OK : Fld := ⟨0x16004, 30, 30⟩
def REF_INT_EN_EN : Fld := ⟨0x16008, 13, 8⟩
def REF_CMD_REANCHOR : Fld := ⟨0x1600C, 0, 0⟩
def REF_CMD_SWITCHNOW : Fld := ⟨0x1600C, 1, 1⟩
def REF_CMDRES_REASON : Fld := ⟨0x16010, 7, 0⟩
def REF_CMDRES_VALID : Fld := ⟨0x16010, 31, 31⟩
def REF_LIMITS_SOFT : Fld := ⟨0x16014, 15, 0⟩
def REF_LIMITS_HARD : Fld := ⟨0x16014, 31, 16⟩
def REF_TIMES_SOFT_TIME : Fld := ⟨0x16018, 7, 0⟩
def REF_TIMES_WTR : Fld := ⟨0x16018, 19, 8⟩
def REF_SLEW_PHASE : Fld := ⟨0x1601C, 13, 0⟩
def REF_SLEW_FSLOPE : Fld := ⟨0x1601C, 31, 16⟩
def REF_OCXO_FREQ : Fld := ⟨0x16020, 0, 0⟩
def REF_OCXO_USE_RDY : Fld := ⟨0x16020, 1, 1⟩
def REF_OCXO_RDYPOL : Fld := ⟨0x16020, 2, 2⟩
def REF_OCXO_WARM_DLY : Fld := ⟨0x16020, 27, 16⟩
def REF_HO_AVG : Fld := ⟨0x16024, 9, 0⟩
def REF_HO_INSPEC : Fld := ⟨0x16024, 31, 16⟩
def REF_HOFREQ_FREQ : Fld := ⟨0x16028, 31, 0⟩
def REF_HOTIME_SEC : Fld := ⟨0x1602C, 31, 0⟩
def REF_WTRLEFT_SEC : Fld := ⟨0x16030, 11, 0⟩
def REF_BOUT_NS : Fld := ⟨0x16034, 31, 0⟩
def REF_CAND_PRIO (k : Nat) : Fld := ⟨0x16040 + 0x4 * k, 3, 0⟩
def REF_CAND_QFIX (k : Nat) : Fld := ⟨0x16040 + 0x4 * k, 15, 8⟩
def REF_CAND_USEFIX (k : Nat) : Fld := ⟨0x16040 + 0x4 * k, 16, 16⟩
def REF_CAND_KIND (k : Nat) : Fld := ⟨0x16040 + 0x4 * k, 18, 17⟩
def REF_CAND_WCF (k : Nat) : Fld := ⟨0x16040 + 0x4 * k, 22, 20⟩
def REF_CSTAT_QCODE (k : Nat) : Fld := ⟨0x16060 + 0x4 * k, 7, 0⟩
def REF_CSTAT_STATE (k : Nat) : Fld := ⟨0x16060 + 0x4 * k, 10, 8⟩
def REF_CSTAT_ELIG (k : Nat) : Fld := ⟨0x16060 + 0x4 * k, 11, 11⟩
def REF_CSTAT_HOLD (k : Nat) : Fld := ⟨0x16060 + 0x4 * k, 12, 12⟩
def REF_CSTAT_SSM (k : Nat) : Fld := ⟨0x16060 + 0x4 * k, 19, 16⟩
def REF_CFREQ_FREQ (k : Nat) : Fld := ⟨0x16080 + 0x4 * k, 31, 0⟩
def REF_SWCNT_COUNT : Fld := ⟨0x160A0, 31, 0⟩
def REF_HOCNT_COUNT : Fld := ⟨0x160A4, 31, 0⟩
def REF_DISQ_COUNT (k : Nat) : Fld := ⟨0x160C0 + 0x4 * k, 31, 0⟩

/-! ### SYN registers -/

def SYN_CFG_ENABLE : Fld := ⟨0x17000, 0, 0⟩
def SYN_CFG_RATE96 : Fld := ⟨0x17000, 1, 1⟩
def SYN_STATUS_REASON : Fld := ⟨0x17004, 7, 0⟩
def SYN_STATUS_LOCKEV : Fld := ⟨0x17004, 8, 8⟩
def SYN_STATUS_FAULTEV : Fld := ⟨0x17004, 9, 9⟩
def SYN_STATUS_FAMEV : Fld := ⟨0x17004, 10, 10⟩
def SYN_STATUS_CNT_HALF : Fld := ⟨0x17004, 11, 11⟩
def SYN_STATUS_RATE96_NOW : Fld := ⟨0x17004, 16, 16⟩
def SYN_STATUS_FAM_PEND : Fld := ⟨0x17004, 17, 17⟩
def SYN_INT_EN_EN : Fld := ⟨0x17008, 11, 8⟩
def SYN_DCO_SEED : Fld := ⟨0x1700C, 15, 0⟩
def SYN_CMD_CLRSLOTS : Fld := ⟨0x17010, 0, 0⟩
def SYN_SLOT_BAND (s : Nat) : Fld := ⟨0x17020 + 0x4 * s, 3, 0⟩
def SYN_SLOT_TRIM (s : Nat) : Fld := ⟨0x17020 + 0x4 * s, 10, 4⟩
def SYN_SLOT_TEMP (s : Nat) : Fld := ⟨0x17020 + 0x4 * s, 23, 16⟩
def SYN_SLOT_VALID (s : Nat) : Fld := ⟨0x17020 + 0x4 * s, 31, 31⟩
def SYNX_CFG_EN (x : Nat) : Fld := ⟨0x17100 + 0x40 * x, 0, 0⟩
def SYNX_CFG_PLAN (x : Nat) : Fld := ⟨0x17100 + 0x40 * x, 1, 1⟩
def SYNX_CFG_LTHR (x : Nat) : Fld := ⟨0x17100 + 0x40 * x, 13, 8⟩
def SYNX_STAT_STATE (x : Nat) : Fld := ⟨0x17104 + 0x40 * x, 2, 0⟩
def SYNX_STAT_LOCK (x : Nat) : Fld := ⟨0x17104 + 0x40 * x, 4, 4⟩
def SYNX_STAT_ILOCK (x : Nat) : Fld := ⟨0x17104 + 0x40 * x, 5, 5⟩
def SYNX_STAT_CMP (x : Nat) : Fld := ⟨0x17104 + 0x40 * x, 6, 6⟩
def SYNX_STAT_LPFAULT (x : Nat) : Fld := ⟨0x17104 + 0x40 * x, 7, 7⟩
def SYNX_STAT_UNALIGNED (x : Nat) : Fld := ⟨0x17104 + 0x40 * x, 8, 8⟩
def SYNX_STAT_BAND (x : Nat) : Fld := ⟨0x17104 + 0x40 * x, 19, 16⟩
def SYNX_STAT_TRIM (x : Nat) : Fld := ⟨0x17104 + 0x40 * x, 30, 24⟩
def SYNX_CMD_RESEARCH (x : Nat) : Fld := ⟨0x17108 + 0x40 * x, 0, 0⟩
def SYNX_CMD_REALIGN (x : Nat) : Fld := ⟨0x17108 + 0x40 * x, 1, 1⟩
def SYNX_LOCKCNT_COUNT (x : Nat) : Fld := ⟨0x1710C + 0x40 * x, 31, 0⟩
def SYNX_LOSCNT_COUNT (x : Nat) : Fld := ⟨0x17110 + 0x40 * x, 31, 0⟩
def SYNX_GATETIME_US (x : Nat) : Fld := ⟨0x17114 + 0x40 * x, 15, 0⟩
def SYNX_FAILCNT_COUNT (x : Nat) : Fld := ⟨0x17118 + 0x40 * x, 31, 0⟩

/-! ### OUT registers -/

def OUT_CFG_ENABLE : Fld := ⟨0x18000, 0, 0⟩
def OUT_STATUS_REASON : Fld := ⟨0x18004, 7, 0⟩
def OUT_STATUS_XFEV : Fld := ⟨0x18004, 8, 8⟩
def OUT_STATUS_SKIPEV : Fld := ⟨0x18004, 9, 9⟩
def OUT_STATUS_REJEV : Fld := ⟨0x18004, 10, 10⟩
def OUT_STATUS_CNT_HALF : Fld := ⟨0x18004, 11, 11⟩
def OUT_STATUS_ANCHOREV : Fld := ⟨0x18004, 12, 12⟩
def OUT_INT_EN_EN : Fld := ⟨0x18008, 12, 8⟩
def OUT_CLKEN_EN : Fld := ⟨0x1800C, 7, 0⟩
def OUT_CLK_CFG_DIV (x : Nat) : Fld := ⟨0x18100 + 0x10 * x, 15, 0⟩
def OUT_CLK_CFG_SYN (x : Nat) : Fld := ⟨0x18100 + 0x10 * x, 16, 16⟩
def OUT_CLK_CFG_XFAIL (x : Nat) : Fld := ⟨0x18100 + 0x10 * x, 17, 17⟩
def OUT_CLK_CFG_REVERT (x : Nat) : Fld := ⟨0x18100 + 0x10 * x, 18, 18⟩
def OUT_CLK_DLY_COARSE (x : Nat) : Fld := ⟨0x18104 + 0x10 * x, 7, 0⟩
def OUT_CLK_DLY_FINE (x : Nat) : Fld := ⟨0x18104 + 0x10 * x, 10, 8⟩
def OUT_CLK_STAT_RUN (x : Nat) : Fld := ⟨0x18108 + 0x10 * x, 0, 0⟩
def OUT_CLK_STAT_ONSYN (x : Nat) : Fld := ⟨0x18108 + 0x10 * x, 1, 1⟩
def OUT_CLK_XFCNT_COUNT (x : Nat) : Fld := ⟨0x1810C + 0x10 * x, 31, 0⟩
def OUT_FP_CFG_EN (p : Nat) : Fld := ⟨0x18200 + 0x40 * p, 0, 0⟩
def OUT_FP_CFG_SYN (p : Nat) : Fld := ⟨0x18200 + 0x40 * p, 1, 1⟩
def OUT_FP_CFG_MODE (p : Nat) : Fld := ⟨0x18200 + 0x40 * p, 3, 2⟩
def OUT_FP_CFG_START (p : Nat) : Fld := ⟨0x18200 + 0x40 * p, 4, 4⟩
def OUT_FP_CFG_POL (p : Nat) : Fld := ⟨0x18200 + 0x40 * p, 5, 5⟩
def OUT_FP_CFG_IEDGE (p : Nat) : Fld := ⟨0x18200 + 0x40 * p, 6, 6⟩
def OUT_FP_CFG_TRIG (p : Nat) : Fld := ⟨0x18200 + 0x40 * p, 11, 8⟩
def OUT_FP_CFG_INSRC (p : Nat) : Fld := ⟨0x18200 + 0x40 * p, 20, 16⟩
def OUT_FP_PER_PER (p : Nat) : Fld := ⟨0x18204 + 0x40 * p, 31, 0⟩
def OUT_FP_WIDTH_WIDTH (p : Nat) : Fld := ⟨0x18208 + 0x40 * p, 31, 0⟩
def OUT_FP_OFF_OFFSET (p : Nat) : Fld := ⟨0x1820C + 0x40 * p, 31, 0⟩
def OUT_FP_FINE_FINE (p : Nat) : Fld := ⟨0x18210 + 0x40 * p, 2, 0⟩
def OUT_FP_FINE_WIN (p : Nat) : Fld := ⟨0x18210 + 0x40 * p, 31, 16⟩
def OUT_FP_CMD_ALIGN (p : Nat) : Fld := ⟨0x18214 + 0x40 * p, 0, 0⟩
def OUT_FP_STAT_STATE (p : Nat) : Fld := ⟨0x18218 + 0x40 * p, 1, 0⟩
def OUT_FP_STAT_ANCHORED (p : Nat) : Fld := ⟨0x18218 + 0x40 * p, 2, 2⟩
def OUT_FP_ERR_NS (p : Nat) : Fld := ⟨0x1821C + 0x40 * p, 31, 0⟩
def OUT_FP_SKIP_COUNT (p : Nat) : Fld := ⟨0x18220 + 0x40 * p, 31, 0⟩
def OUT_FP_REJ_COUNT (p : Nat) : Fld := ⟨0x18224 + 0x40 * p, 31, 0⟩

/-! ### TIM registers -/

def TIM_CFG_ENABLE : Fld := ⟨0x19000, 0, 0⟩
def TIM_STATUS_REASON : Fld := ⟨0x19004, 7, 0⟩
def TIM_STATUS_DONEEV : Fld := ⟨0x19004, 8, 8⟩
def TIM_STATUS_CALEV : Fld := ⟨0x19004, 9, 9⟩
def TIM_STATUS_PLLEV : Fld := ⟨0x19004, 10, 10⟩
def TIM_STATUS_CNT_HALF : Fld := ⟨0x19004, 11, 11⟩
def TIM_STATUS_CAL : Fld := ⟨0x19004, 16, 16⟩
def TIM_STATUS_PLLSRC : Fld := ⟨0x19004, 17, 17⟩
def TIM_STATUS_PLLLOCK : Fld := ⟨0x19004, 18, 18⟩
def TIM_STATUS_COLD : Fld := ⟨0x19004, 19, 19⟩
def TIM_INT_EN_EN : Fld := ⟨0x19008, 11, 8⟩
def TIM_DONE_EV_EV : Fld := ⟨0x1900C, 11, 0⟩
def TIM_CALDNL_DNL : Fld := ⟨0x19010, 7, 0⟩
def TIM_CALCNT_COUNT : Fld := ⟨0x19014, 31, 0⟩
def TIM_IN_VTH (k : Nat) : Fld := ⟨0x19040 + 0x4 * k, 7, 0⟩
def TIM_IN_HYST (k : Nat) : Fld := ⟨0x19040 + 0x4 * k, 12, 8⟩
def TIM_IN_HOLDOFF (k : Nat) : Fld := ⟨0x19040 + 0x4 * k, 25, 16⟩
def TIM_SKEW_SKEW (k : Nat) : Fld := ⟨0x19090 + 0x4 * k, 15, 0⟩
def TIM_HOCNT_COUNT (k : Nat) : Fld := ⟨0x190E0 + 0x4 * k, 31, 0⟩
def TIM_UCFG_EN (u : Nat) : Fld := ⟨0x19200 + 0x40 * u, 0, 0⟩
def TIM_UCFG_MODE (u : Nat) : Fld := ⟨0x19200 + 0x40 * u, 2, 1⟩
def TIM_UCFG_CONT (u : Nat) : Fld := ⟨0x19200 + 0x40 * u, 3, 3⟩
def TIM_UCFG_SSEDGE (u : Nat) : Fld := ⟨0x19200 + 0x40 * u, 4, 4⟩
def TIM_UCFG_PEDGE (u : Nat) : Fld := ⟨0x19200 + 0x40 * u, 5, 5⟩
def TIM_UCFG_OWNER (u : Nat) : Fld := ⟨0x19200 + 0x40 * u, 6, 6⟩
def TIM_UCFG_NSTOP (u : Nat) : Fld := ⟨0x19200 + 0x40 * u, 11, 8⟩
def TIM_UCFG_STATSTOP (u : Nat) : Fld := ⟨0x19200 + 0x40 * u, 15, 12⟩
def TIM_USRC_START (u : Nat) : Fld := ⟨0x19204 + 0x40 * u, 5, 0⟩
def TIM_USRC_STOP (u : Nat) : Fld := ⟨0x19204 + 0x40 * u, 13, 8⟩
def TIM_UN_N (u : Nat) : Fld := ⟨0x19208 + 0x40 * u, 15, 0⟩
def TIM_UTMO_TIME (u : Nat) : Fld := ⟨0x1920C + 0x40 * u, 23, 0⟩
def TIM_UNOM_NOM (u : Nat) : Fld := ⟨0x19210 + 0x40 * u, 31, 0⟩
def TIM_URES_COUNT (u : Nat) : Fld := ⟨0x19214 + 0x40 * u, 15, 0⟩
def TIM_URES_COLD (u : Nat) : Fld := ⟨0x19214 + 0x40 * u, 16, 16⟩
def TIM_URES_UNCAL (u : Nat) : Fld := ⟨0x19214 + 0x40 * u, 17, 17⟩
def TIM_URES_VALID (u : Nat) : Fld := ⟨0x19214 + 0x40 * u, 18, 18⟩
def TIM_URES_STATE (u : Nat) : Fld := ⟨0x19214 + 0x40 * u, 25, 24⟩
def TIM_UMEANL_MEAN (u : Nat) : Fld := ⟨0x19218 + 0x40 * u, 31, 0⟩
def TIM_UMEANH_MEAN (u : Nat) : Fld := ⟨0x1921C + 0x40 * u, 7, 0⟩
def TIM_USDEV_SDEV (u : Nat) : Fld := ⟨0x19220 + 0x40 * u, 31, 0⟩
def TIM_UMIN_MIN (u : Nat) : Fld := ⟨0x19224 + 0x40 * u, 31, 0⟩
def TIM_UMAX_MAX (u : Nat) : Fld := ⟨0x19228 + 0x40 * u, 31, 0⟩
def TIM_UTICK_TICK (u : Nat) : Fld := ⟨0x1922C + 0x40 * u, 31, 0⟩
def TIM_UMISS_COUNT (u : Nat) : Fld := ⟨0x19230 + 0x40 * u, 31, 0⟩
def TIM_UBLK_COUNT (u : Nat) : Fld := ⟨0x19234 + 0x40 * u, 31, 0⟩
def TIM_UCMD_RESTART (u : Nat) : Fld := ⟨0x1923C + 0x40 * u, 0, 0⟩
def TIM_ULS_STOPS (u : Nat) : Fld := ⟨0x19600 + 0x40 * u, 3, 0⟩
def TIM_ULS_COLD (u : Nat) : Fld := ⟨0x19600 + 0x40 * u, 16, 16⟩
def TIM_ULS_UNCAL (u : Nat) : Fld := ⟨0x19600 + 0x40 * u, 17, 17⟩
def TIM_ULS_COMPLETE (u : Nat) : Fld := ⟨0x19600 + 0x40 * u, 18, 18⟩
def TIM_ULAST_TIME (u : Nat) (i : Nat) : Fld := ⟨0x19604 + 0x40 * u + 0x4 * i, 31, 0⟩

/-! ### HRT registers -/

def HRT_CFG_ENABLE : Fld := ⟨0xA000, 0, 0⟩
def HRT_CFG_MODE : Fld := ⟨0xA000, 2, 1⟩
def HRT_CFG_PREF : Fld := ⟨0xA000, 3, 3⟩
def HRT_CFG_SPARE : Fld := ⟨0xA000, 15, 8⟩
def HRT_STATUS_REASON : Fld := ⟨0xA004, 7, 0⟩
def HRT_STATUS_TKEV : Fld := ⟨0xA004, 8, 8⟩
def HRT_STATUS_HSTEV : Fld := ⟨0xA004, 9, 9⟩
def HRT_STATUS_SWAPEV : Fld := ⟨0xA004, 10, 10⟩
def HRT_STATUS_EMBEV : Fld := ⟨0xA004, 11, 11⟩
def HRT_STATUS_CNT_HALF : Fld := ⟨0xA004, 12, 12⟩
def HRT_STATUS_ACTIVE : Fld := ⟨0xA004, 16, 16⟩
def HRT_STATUS_STATE_A : Fld := ⟨0xA004, 19, 17⟩
def HRT_STATUS_STATE_B : Fld := ⟨0xA004, 22, 20⟩
def HRT_STATUS_SUSPECT_A : Fld := ⟨0xA004, 23, 23⟩
def HRT_STATUS_SUSPECT_B : Fld := ⟨0xA004, 24, 24⟩
def HRT_STATUS_SWAPPEND : Fld := ⟨0xA004, 25, 25⟩
def HRT_STATUS_TAKEN : Fld := ⟨0xA004, 26, 26⟩
def HRT_INT_EN_EN : Fld := ⟨0xA008, 12, 8⟩
def HRT_CMD_SWAP : Fld := ⟨0xA00C, 0, 0⟩
def HRT_CMD_RESTORE : Fld := ⟨0xA00C, 1, 1⟩
def HRT_CMD_CLRSUSPECT : Fld := ⟨0xA00C, 2, 2⟩
def HRT_CMDRES_REASON : Fld := ⟨0xA010, 7, 0⟩
def HRT_CMDRES_VALID : Fld := ⟨0xA010, 31, 31⟩
def HRT_PROOF_HRS : Fld := ⟨0xA014, 7, 0⟩
def HRT_PROOF_WIN : Fld := ⟨0xA014, 31, 16⟩
def HRT_TKTICK_TICK : Fld := ⟨0xA018, 31, 0⟩
def HRT_TKINFO_CAUSE : Fld := ⟨0xA01C, 2, 0⟩
def HRT_TKINFO_FROM : Fld := ⟨0xA01C, 4, 4⟩
def HRT_TKINFO_SKIP : Fld := ⟨0xA01C, 9, 8⟩
def HRT_TKINFO_SWAP : Fld := ⟨0xA01C, 12, 12⟩
def HRT_ESEQ_SEQ : Fld := ⟨0xA020, 31, 0⟩
def HRT_ETIME_NS : Fld := ⟨0xA024, 15, 0⟩
def HRT_LASTSWAP_TICK : Fld := ⟨0xA028, 31, 0⟩
def HRT_TKCNT_COUNT : Fld := ⟨0xA040, 31, 0⟩
def HRT_SWAPCNT_COUNT : Fld := ⟨0xA044, 31, 0⟩
def HRT_SWAPFAIL_COUNT : Fld := ⟨0xA048, 31, 0⟩
def HRT_ECRCERR_COUNT : Fld := ⟨0xA04C, 31, 0⟩
def HRT_ETORN_COUNT : Fld := ⟨0xA050, 31, 0⟩
def HRT_ECOPIES_COUNT : Fld := ⟨0xA054, 31, 0⟩

/-! ### ALM registers -/

def ALM_CFG_ENABLE : Fld := ⟨0xB000, 0, 0⟩
def ALM_CFG_STAND_EN : Fld := ⟨0xB000, 1, 1⟩
def ALM_CFG_BOOTSTART : Fld := ⟨0xB000, 2, 2⟩
def ALM_STATUS_REASON : Fld := ⟨0xB004, 7, 0⟩
def ALM_STATUS_ALMEV : Fld := ⟨0xB004, 8, 8⟩
def ALM_STATUS_WDEV : Fld := ⟨0xB004, 9, 9⟩
def ALM_STATUS_SPEV : Fld := ⟨0xB004, 10, 10⟩
def ALM_STATUS_FAULTEV : Fld := ⟨0xB004, 11, 11⟩
def ALM_STATUS_SURVEV : Fld := ⟨0xB004, 12, 12⟩
def ALM_STATUS_CNT_HALF : Fld := ⟨0xB004, 13, 13⟩
def ALM_STATUS_ALARM : Fld := ⟨0xB004, 16, 16⟩
def ALM_STATUS_WD : Fld := ⟨0xB004, 18, 17⟩
def ALM_INT_EN_EN : Fld := ⟨0xB008, 13, 8⟩
def ALM_CMD_ACK : Fld := ⟨0xB00C, 3, 0⟩
def ALM_CMD_START : Fld := ⟨0xB00C, 4, 4⟩
def ALM_CMD_RELEASE : Fld := ⟨0xB00C, 5, 5⟩
def ALM_CMDRES_REASON : Fld := ⟨0xB010, 7, 0⟩
def ALM_CMDRES_VALID : Fld := ⟨0xB010, 31, 31⟩
def ALM_INCFG_EN : Fld := ⟨0xB014, 3, 0⟩
def ALM_INCFG_POL : Fld := ⟨0xB014, 7, 4⟩
def ALM_INCFG_LATCH : Fld := ⟨0xB014, 11, 8⟩
def ALM_INCFG_DEBOUNCE : Fld := ⟨0xB014, 23, 16⟩
def ALM_INSTAT_PIN : Fld := ⟨0xB018, 3, 0⟩
def ALM_INSTAT_ACTIVE : Fld := ⟨0xB018, 7, 4⟩
def ALM_INSTAT_LATCHED : Fld := ⟨0xB018, 11, 8⟩
def ALM_WDCFG_TIMEOUT : Fld := ⟨0xB01C, 15, 0⟩
def ALM_WDCFG_GRACE : Fld := ⟨0xB01C, 31, 16⟩
def ALM_WDKICK_KICK : Fld := ⟨0xB020, 0, 0⟩
def ALM_WDLAST_TICK : Fld := ⟨0xB024, 31, 0⟩
def ALM_SPSTAT_STATE : Fld := ⟨0xB028, 1, 0⟩
def ALM_SPSTAT_REASON : Fld := ⟨0xB028, 15, 8⟩
def ALM_SPSTAT_NJOBS : Fld := ⟨0xB028, 22, 16⟩
def ALM_SPTICK_TICK : Fld := ⟨0xB02C, 31, 0⟩
def ALM_SCFG_FAILN : Fld := ⟨0xB030, 3, 0⟩
def ALM_SCFG_CLEARN : Fld := ⟨0xB030, 7, 4⟩
def ALM_SCFG_CMIN : Fld := ⟨0xB030, 14, 8⟩
def ALM_SCFG_ENABLE : Fld := ⟨0xB030, 15, 15⟩
def ALM_SCFG_PILOT_AFTER : Fld := ⟨0xB030, 23, 16⟩
def ALM_SCFG_VERIFY_MAX : Fld := ⟨0xB030, 30, 24⟩
def ALM_PILOT_FREQ : Fld := ⟨0xB034, 15, 0⟩
def ALM_PILOT_LEVEL : Fld := ⟨0xB034, 21, 16⟩
def ALM_FAULT_FAULT : Fld := ⟨0xB038, 10, 0⟩
def ALM_FAULTLAT_FAULT : Fld := ⟨0xB03C, 10, 0⟩
def ALM_FAULTMASK_MASK : Fld := ⟨0xB040, 10, 0⟩
def ALM_AMP_EN (u : Nat) : Fld := ⟨0xB080 + 0x4 * u, 0, 0⟩
def ALM_AMP_SRC (u : Nat) : Fld := ⟨0xB080 + 0x4 * u, 4, 1⟩
def ALM_AMP_MON (u : Nat) : Fld := ⟨0xB080 + 0x4 * u, 15, 8⟩
def ALM_AMP_FAULT (u : Nat) : Fld := ⟨0xB080 + 0x4 * u, 16, 16⟩
def ALM_ALARMCNT_COUNT : Fld := ⟨0xB0A0, 31, 0⟩
def ALM_WDLATECNT_COUNT : Fld := ⟨0xB0A4, 31, 0⟩
def ALM_SPSTARTCNT_COUNT : Fld := ⟨0xB0A8, 31, 0⟩
def ALM_LINEFAULTCNT_COUNT : Fld := ⟨0xB0AC, 31, 0⟩
def ALM_SOUTC_OUTCOME0 (i : Nat) : Fld := ⟨0xB100 + 0x4 * i, 2, 0⟩
def ALM_SOUTC_OUTCOME1 (i : Nat) : Fld := ⟨0xB100 + 0x4 * i, 18, 16⟩
def ALM_SOUTC_OVRUN0 (i : Nat) : Fld := ⟨0xB100 + 0x4 * i, 4, 3⟩
def ALM_SOUTC_OVRUN1 (i : Nat) : Fld := ⟨0xB100 + 0x4 * i, 20, 19⟩
def ALM_SOUTC_REASON0 (i : Nat) : Fld := ⟨0xB100 + 0x4 * i, 15, 8⟩
def ALM_SOUTC_REASON1 (i : Nat) : Fld := ⟨0xB100 + 0x4 * i, 31, 24⟩
def ALM_ZCFG_EN (z : Nat) : Fld := ⟨0xB400 + 0x10 * z, 0, 0⟩
def ALM_ZCFG_PILOT_EN (z : Nat) : Fld := ⟨0xB400 + 0x10 * z, 1, 1⟩
def ALM_ZCFG_LOUT (z : Nat) : Fld := ⟨0xB400 + 0x10 * z, 15, 8⟩
def ALM_ZCFG_SENSE (z : Nat) : Fld := ⟨0xB400 + 0x10 * z, 23, 16⟩
def ALM_ZLIM_GLO (z : Nat) : Fld := ⟨0xB404 + 0x10 * z, 15, 0⟩
def ALM_ZLIM_GHI (z : Nat) : Fld := ⟨0xB404 + 0x10 * z, 31, 16⟩
def ALM_ZPLIM_PLO (z : Nat) : Fld := ⟨0xB408 + 0x10 * z, 15, 0⟩
def ALM_ZPLIM_PHI (z : Nat) : Fld := ⟨0xB408 + 0x10 * z, 31, 16⟩
def ALM_ZSTAT_STATE (z : Nat) : Fld := ⟨0xBC00 + 0x4 * z, 1, 0⟩
def ALM_ZSTAT_KIND (z : Nat) : Fld := ⟨0xBC00 + 0x4 * z, 4, 2⟩
def ALM_ZSTAT_PILOT (z : Nat) : Fld := ⟨0xBC00 + 0x4 * z, 5, 5⟩
def ALM_ZSTAT_RUN (z : Nat) : Fld := ⟨0xBC00 + 0x4 * z, 11, 8⟩
def ALM_ZSTAT_GAIN (z : Nat) : Fld := ⟨0xBC00 + 0x4 * z, 31, 16⟩

/-! ### PWR registers -/

def PWR_CFG_MAXSTATE : Fld := ⟨0x4000, 2, 0⟩
def PWR_CFG_AVS_EN : Fld := ⟨0x4000, 4, 4⟩
def PWR_STATUS_REASON : Fld := ⟨0x4004, 7, 0⟩
def PWR_STATUS_PSTEV : Fld := ⟨0x4004, 8, 8⟩
def PWR_STATUS_AVSEV : Fld := ⟨0x4004, 9, 9⟩
def PWR_STATUS_KEV : Fld := ⟨0x4004, 10, 10⟩
def PWR_STATUS_CNT_HALF : Fld := ⟨0x4004, 11, 11⟩
def PWR_STATUS_STATE : Fld := ⟨0x4004, 18, 16⟩
def PWR_STATUS_TARGET : Fld := ⟨0x4004, 22, 20⟩
def PWR_INT_EN_EN : Fld := ⟨0x4008, 11, 8⟩
def PWR_LTR_US : Fld := ⟨0x400C, 19, 0⟩
def PWR_CMD_WAKE : Fld := ⟨0x4010, 0, 0⟩
def PWR_CMD_COMMITVER : Fld := ⟨0x4010, 1, 1⟩
def PWR_KSTAT_STEP : Fld := ⟨0x4014, 3, 0⟩
def PWR_KSTAT_DONE : Fld := ⟨0x4014, 4, 4⟩
def PWR_KSTAT_IMAGE : Fld := ⟨0x4014, 5, 5⟩
def PWR_KSTAT_FALLBACK : Fld := ⟨0x4014, 6, 6⟩
def PWR_KSTAT_DEVKEY : Fld := ⟨0x4014, 7, 7⟩
def PWR_KSTAT_CFGREF : Fld := ⟨0x4014, 8, 8⟩
def PWR_KSTAT_TBLBAK : Fld := ⟨0x4014, 9, 9⟩
def PWR_KSTAT_REASON : Fld := ⟨0x4014, 23, 16⟩
def PWR_KTIME_MS : Fld := ⟨0x4018, 15, 0⟩
def PWR_SECMIN_VER : Fld := ⟨0x401C, 5, 0⟩
def PWR_SECVER_VER : Fld := ⟨0x4020, 5, 0⟩
def PWR_AVS_VREQ (n : Nat) : Fld := ⟨0x4024 + 0x4 * n, 9, 0⟩
def PWR_AVS_VREAD (n : Nat) : Fld := ⟨0x4024 + 0x4 * n, 25, 16⟩
def PWR_AVS_ERR (n : Nat) : Fld := ⟨0x4024 + 0x4 * n, 31, 31⟩
def PWR_AVSCFG_VMIN : Fld := ⟨0x4030, 9, 0⟩
def PWR_AVSCFG_VMAX : Fld := ⟨0x4030, 25, 16⟩
def PWR_AVSRAIL_CORE : Fld := ⟨0x4034, 3, 0⟩
def PWR_AVSRAIL_A : Fld := ⟨0x4034, 11, 8⟩
def PWR_AVSRAIL_B : Fld := ⟨0x4034, 19, 16⟩
def PWR_AVSERR_COUNT : Fld := ⟨0x4040, 31, 0⟩
def PWR_DEEPCNT_COUNT : Fld := ⟨0x4044, 31, 0⟩

/-! ### AGE registers -/

def AGE_CFG_ENABLE : Fld := ⟨0x5000, 0, 0⟩
def AGE_CFG_APPLY : Fld := ⟨0x5000, 1, 1⟩
def AGE_CFG_MARGIN_EN : Fld := ⟨0x5000, 2, 2⟩
def AGE_CFG_UPSTEP : Fld := ⟨0x5000, 3, 3⟩
def AGE_CFG_DAYS : Fld := ⟨0x5000, 15, 8⟩
def AGE_CFG_TALERT : Fld := ⟨0x5000, 23, 16⟩
def AGE_STATUS_REASON : Fld := ⟨0x5004, 7, 0⟩
def AGE_STATUS_MRGEV : Fld := ⟨0x5004, 8, 8⟩
def AGE_STATUS_AGEEV : Fld := ⟨0x5004, 9, 9⟩
def AGE_STATUS_TEMPEV : Fld := ⟨0x5004, 10, 10⟩
def AGE_STATUS_CNT_HALF : Fld := ⟨0x5004, 11, 11⟩
def AGE_STATUS_VALID : Fld := ⟨0x5004, 16, 16⟩
def AGE_INT_EN_EN : Fld := ⟨0x5008, 11, 8⟩
def AGE_MCFG_CRIT : Fld := ⟨0x500C, 7, 0⟩
def AGE_MCFG_LOW : Fld := ⟨0x500C, 15, 8⟩
def AGE_MCFG_HIGH : Fld := ⟨0x500C, 23, 16⟩
def AGE_CMD_CLRHIST : Fld := ⟨0x5010, 0, 0⟩
def AGE_MARGIN (i : Nat) : Fld := ⟨0x5014 + 0x4 * i, 7, 0⟩
def AGE_TEMP_A : Fld := ⟨0x5020, 7, 0⟩
def AGE_TEMP_B : Fld := ⟨0x5020, 15, 8⟩
def AGE_TEMP_CORE : Fld := ⟨0x5020, 23, 16⟩
def AGE_TEMP_MAX : Fld := ⟨0x5020, 31, 24⟩
def AGE_OCXORATE_RATE : Fld := ⟨0x5024, 31, 0⟩
def AGE_OCXOFREQ_FREQ : Fld := ⟨0x5028, 31, 0⟩
def AGE_CORR_CORR : Fld := ⟨0x502C, 31, 0⟩
def AGE_NDAYS_COUNT : Fld := ⟨0x5030, 7, 0⟩
def AGE_DEG (i : Nat) : Fld := ⟨0x5034 + 0x4 * i, 15, 0⟩
def AGE_HOURS_COUNT : Fld := ⟨0x5040, 31, 0⟩
def AGE_HOTHOURS_COUNT : Fld := ⟨0x5044, 31, 0⟩
def AGE_CSTEPCNT_COUNT : Fld := ⟨0x5048, 31, 0⟩
def AGE_VSTEPCNT_COUNT : Fld := ⟨0x504C, 31, 0⟩

/-! ### HOT registers -/

def HOT_CFG_EJECT_DLY : Fld := ⟨0x6000, 15, 0⟩
def HOT_CFG_SAFE_IN_ALARM : Fld := ⟨0x6000, 16, 16⟩
def HOT_STATUS_REASON : Fld := ⟨0x6004, 7, 0⟩
def HOT_STATUS_HOTEV : Fld := ⟨0x6004, 8, 8⟩
def HOT_STATUS_STATE : Fld := ⟨0x6004, 17, 16⟩
def HOT_STATUS_PRSNT : Fld := ⟨0x6004, 18, 18⟩
def HOT_STATUS_EJECT : Fld := ⟨0x6004, 19, 19⟩
def HOT_INT_EN_EN : Fld := ⟨0x6008, 8, 8⟩
def HOT_CMD_SAFE : Fld := ⟨0x600C, 0, 0⟩
def HOT_CMD_RESUME : Fld := ⟨0x600C, 1, 1⟩
def HOT_EJCNT_COUNT : Fld := ⟨0x6010, 31, 0⟩

/-! ### DUMP registers -/

def DUMP_CFG_MASK : Fld := ⟨0x7000, 7, 0⟩
def DUMP_CFG_AUTOSAVE : Fld := ⟨0x7000, 8, 8⟩
def DUMP_STATUS_REASON : Fld := ⟨0x7004, 7, 0⟩
def DUMP_STATUS_CAPEV : Fld := ⟨0x7004, 8, 8⟩
def DUMP_STATUS_SAVEEV : Fld := ⟨0x7004, 9, 9⟩
def DUMP_STATUS_OVER : Fld := ⟨0x7004, 10, 10⟩
def DUMP_STATUS_CNT_HALF : Fld := ⟨0x7004, 11, 11⟩
def DUMP_STATUS_BUSY : Fld := ⟨0x7004, 16, 16⟩
def DUMP_INT_EN_EN : Fld := ⟨0x7008, 11, 8⟩
def DUMP_CMD_TRIGGER : Fld := ⟨0x700C, 0, 0⟩
def DUMP_CMD_FETCH : Fld := ⟨0x700C, 1, 1⟩
def DUMP_CMD_RELEASE : Fld := ⟨0x700C, 2, 2⟩
def DUMP_FETCH_REC : Fld := ⟨0x7010, 15, 0⟩
def DUMP_RDADDR_ADDR : Fld := ⟨0x7014, 15, 2⟩
def DUMP_RDDATA_DATA : Fld := ⟨0x7018, 31, 0⟩
def DUMP_LAST_SEQ : Fld := ⟨0x701C, 31, 0⟩
def DUMP_NREC_COUNT : Fld := ⟨0x7020, 15, 0⟩
def DUMP_NREC_CAP : Fld := ⟨0x7020, 31, 16⟩
def DUMP_CNT_COUNT : Fld := ⟨0x7024, 31, 0⟩
def DUMP_LOSTCNT_COUNT : Fld := ⟨0x7028, 31, 0⟩

/-! ### ID/HIF registers -/

def HIF_ID_ID : Fld := ⟨0x0, 31, 0⟩
def HIF_REV_STEP : Fld := ⟨0x4, 7, 0⟩
def HIF_REV_ROM : Fld := ⟨0x4, 15, 8⟩
def HIF_SERIAL0_SN : Fld := ⟨0x8, 31, 0⟩
def HIF_SERIAL1_SN : Fld := ⟨0xC, 31, 0⟩
def HIF_PCIID_VENDOR : Fld := ⟨0x10, 15, 0⟩
def HIF_PCIID_DEVICE : Fld := ⟨0x10, 31, 16⟩
def HIF_CFG_ATOM : Fld := ⟨0x14, 0, 0⟩
def HIF_CFG_DUMMY : Fld := ⟨0x14, 12, 8⟩
def HIF_STATUS_OWNEV : Fld := ⟨0x18, 8, 8⟩
def HIF_STATUS_CLAIMEV : Fld := ⟨0x18, 9, 9⟩
def HIF_STATUS_MBDONE : Fld := ⟨0x18, 10, 10⟩
def HIF_STATUS_SPIERR : Fld := ⟨0x18, 11, 11⟩
def HIF_STATUS_SPILATE : Fld := ⟨0x18, 12, 12⟩
def HIF_STATUS_WRLOST : Fld := ⟨0x18, 13, 13⟩
def HIF_STATUS_LINKEV : Fld := ⟨0x18, 14, 14⟩
def HIF_STATUS_CNT_HALF : Fld := ⟨0x18, 15, 15⟩
def HIF_STATUS_OWNER : Fld := ⟨0x18, 16, 16⟩
def HIF_STATUS_CLAIM : Fld := ⟨0x18, 17, 17⟩
def HIF_STATUS_PCIE_UP : Fld := ⟨0x18, 18, 18⟩
def HIF_STATUS_PCIE_SPEED : Fld := ⟨0x18, 20, 19⟩
def HIF_STATUS_PCIE_WIDTH : Fld := ⟨0x18, 22, 21⟩
def HIF_STATUS_HOST_SEL : Fld := ⟨0x18, 24, 24⟩
def HIF_INT_EN_EN : Fld := ⟨0x1C, 15, 8⟩
def HIF_OWN_OWNER : Fld := ⟨0x20, 0, 0⟩
def HIF_OWNREQ_CLAIM : Fld := ⟨0x24, 0, 0⟩
def HIF_OWNREQ_DENY : Fld := ⟨0x24, 1, 1⟩
def HIF_OWNCFG_CLAIM_MS : Fld := ⟨0x28, 13, 0⟩
def HIF_OWNCNT_COUNT : Fld := ⟨0x2C, 31, 0⟩
def HIF_SPIERRCNT_COUNT : Fld := ⟨0x30, 31, 0⟩
def HIF_MBCMD_OP : Fld := ⟨0x40, 7, 0⟩
def HIF_MBCMD_GO : Fld := ⟨0x40, 31, 31⟩
def HIF_MBRES_REASON : Fld := ⟨0x44, 7, 0⟩
def HIF_MBRES_OP : Fld := ⟨0x44, 15, 8⟩
def HIF_MBRES_REFUSED : Fld := ⟨0x44, 30, 30⟩
def HIF_MBRES_VALID : Fld := ⟨0x44, 31, 31⟩
def HIF_MBDATA_DATA (i : Nat) : Fld := ⟨0x80 + 0x4 * i, 31, 0⟩
def HIF_SCRATCH_DATA : Fld := ⟨0xC0, 31, 0⟩

end Reg

/-- The rows of the CMT registers. -/
def rowsCmt : List Row := [
  { fld := Reg.CMT_CFG_RDVIEW, ty := .rwl },
  { fld := Reg.CMT_STROBE_STROBE, ty := .cmd },
  { fld := Reg.CMT_PENDING_PEND, ty := .ro },
  { fld := Reg.CMT_TICKBOUND_TB, ty := .rwl, rst := 0xC8FC },
  { fld := Reg.CMT_GROUPMAP0_MAP, ty := .rwl, rst := 0x43200100 },
  { fld := Reg.CMT_GROUPMAP1_MAP, ty := .rwl, rst := 0xAA098765 },
  { fld := Reg.CMT_GROUPMAP2_MAP, ty := .rwl, rst := 0xFEDCCB },
  { fld := Reg.CMT_STATUS_SLOW_BUSY, ty := .ro },
  { fld := Reg.CMT_STATUS_PARTIAL, ty := .rc },
  { fld := Reg.CMT_STATUS_CRC_MISMATCH, ty := .rc },
  { fld := Reg.CMT_STATUS_REFUSED, ty := .rc },
  { fld := Reg.CMT_CRC_CFG_ENABLE, ty := .rwl },
  { fld := Reg.CMT_CRC_CFG_ESC, ty := .rwl },
  { fld := Reg.CMT_CRC_CAPTURE_GO, ty := .cmd },
  { fld := Reg.CMT_CRC_REF_REF, ty := .rwl },
  { fld := Reg.CMT_CRC_LAST_LAST, ty := .ro },
  { fld := Reg.CMT_CRC_MISS_COUNT, ty := .cnt },
  { fld := Reg.CMT_CRC_DIRTY_COUNT, ty := .cnt },
  { fld := Reg.CMT_INT_EN_EN, ty := .rwl },
  { fld := Reg.CMT_LASTCOMMIT_TICK 0, ty := .ro, n := 16, stride := 0x4 }]

/-- The rows of the LOCK registers. -/
def rowsLock : List Row := [
  { fld := Reg.LOCK_BLK_LOCK, ty := .wo1 },
  { fld := Reg.LOCK_POLICY_ESC, ty := .wo1 },
  { fld := Reg.LOCK_POLICY_LOCK_CMD, ty := .wo1 },
  { fld := Reg.LOCK_POLICY_PERMIT_DAMPER_OFF, ty := .wo1 },
  { fld := Reg.LOCK_STATUS_LOCK_VIOL, ty := .rc },
  { fld := Reg.LOCK_STATUS_OVER, ty := .rc },
  { fld := Reg.LOCK_VADDR_ADDR, ty := .ro },
  { fld := Reg.LOCK_VADDR_HOST, ty := .ro },
  { fld := Reg.LOCK_VADDR_KIND, ty := .ro },
  { fld := Reg.LOCK_VCNT_COUNT, ty := .cnt },
  { fld := Reg.LOCK_INT_EN_EN, ty := .rwl }]

/-- The rows of the INT registers. -/
def rowsInt : List Row := [
  { fld := Reg.INT_PEND_PEND, ty := .ro },
  { fld := Reg.INT_EN_EN, ty := .rwl },
  { fld := Reg.INT_CFG_MSIX_EN, ty := .rwl },
  { fld := Reg.INT_CFG_PIN_EN, ty := .rwl },
  { fld := Reg.INT_VEC_V0 0, ty := .rwl, n := 7, stride := 0x4 },
  { fld := Reg.INT_VEC_V1 0, ty := .rwl, n := 6, stride := 0x4 },
  { fld := Reg.INT_VEC_V2 0, ty := .rwl, n := 6, stride := 0x4 },
  { fld := Reg.INT_VEC_V3 0, ty := .rwl, n := 6, stride := 0x4 },
  { fld := Reg.INT_EVQ0, ty := .ro },
  { fld := Reg.INT_EVQ1, ty := .ro },
  { fld := Reg.INT_EVQ2, ty := .ro },
  { fld := Reg.INT_EVQ3, ty := .ro },
  { fld := Reg.INT_EVQ_STAT_COUNT, ty := .ro },
  { fld := Reg.INT_EVQ_CFG_THRESH, ty := .rwl, rst := 1 },
  { fld := Reg.INT_EVQ_CFG_FLUSH, ty := .cmd },
  { fld := Reg.INT_EVQ_LOST_COUNT, ty := .cnt },
  { fld := Reg.INT_STAT_OVF, ty := .rc }]

/-- The rows of the SCH registers, part 1. -/
def rowsSch1 : List Row := [
  { fld := Reg.SCH_TICK_TICK, ty := .ro },
  { fld := Reg.SCH_CFG_ENABLE, ty := .rws },
  { fld := Reg.SCH_CFG_ERETRY, ty := .rws, rst := 1 },
  { fld := Reg.SCH_CFG_CHG_EV, ty := .rws },
  { fld := Reg.SCH_CFG_FLOOR_LOSS, ty := .rws, rst := 1 },
  { fld := Reg.SCH_STATUS_REASON, ty := .ro },
  { fld := Reg.SCH_STATUS_CAPFLOOR, ty := .rc },
  { fld := Reg.SCH_STATUS_SUSP, ty := .rc },
  { fld := Reg.SCH_STATUS_CHG, ty := .rc },
  { fld := Reg.SCH_STATUS_JDONE, ty := .rc },
  { fld := Reg.SCH_STATUS_HELD, ty := .ro },
  { fld := Reg.SCH_STATUS_STORM_A, ty := .ro },
  { fld := Reg.SCH_STATUS_STORM_B, ty := .ro },
  { fld := Reg.SCH_STATUS_CNT_HALF, ty := .rc },
  { fld := Reg.SCH_INT_EN_EN, ty := .rwl },
  { fld := Reg.SCH_INT_EN_CNT, ty := .rwl },
  { fld := Reg.SCH_STORM_CFG_THRESH, ty := .rws, rst := 0x40 },
  { fld := Reg.SCH_STORM_CFG_DEBIT, ty := .rws, rst := 0x1388 },
  { fld := Reg.SCH_STORM_CFG_CLEAR, ty := .rws, rst := 0x10 },
  { fld := Reg.SCH_CAPA_ENG, ty := .ro, rst := 0xFF },
  { fld := Reg.SCH_CAPA_CLK, ty := .ro },
  { fld := Reg.SCH_CAPA_REDUCED, ty := .ro },
  { fld := Reg.SCH_CAPA_TAKEN, ty := .ro },
  { fld := Reg.SCH_CAPB_ENG, ty := .ro, rst := 0xFF }]

/-- The rows of the SCH registers, part 2. -/
def rowsSch2 : List Row := [
  { fld := Reg.SCH_CAPB_CLK, ty := .ro },
  { fld := Reg.SCH_CAPB_REDUCED, ty := .ro },
  { fld := Reg.SCH_CAPB_TAKEN, ty := .ro },
  { fld := Reg.SCH_BUDGETA_CAP, ty := .ro, rst := 0xDBBA0 },
  { fld := Reg.SCH_BUDGETB_CAP, ty := .ro, rst := 0xDBBA0 },
  { fld := Reg.SCH_ADMITA_SUM, ty := .ro },
  { fld := Reg.SCH_ADMITB_SUM, ty := .ro },
  { fld := Reg.SCH_SPANA_SPAN, ty := .ro },
  { fld := Reg.SCH_SPANB_SPAN, ty := .ro },
  { fld := Reg.SCH_USEDA_USED, ty := .ro },
  { fld := Reg.SCH_USEDB_USED, ty := .ro },
  { fld := Reg.SCH_NJOBS_COUNT, ty := .ro },
  { fld := Reg.SCH_JCMD_JOB, ty := .rwl },
  { fld := Reg.SCH_JCMD_OP, ty := .rwl },
  { fld := Reg.SCH_JCMD_GO, ty := .cmd },
  { fld := Reg.SCH_JRES_REASON, ty := .ro },
  { fld := Reg.SCH_JRES_JOB, ty := .ro },
  { fld := Reg.SCH_JRES_REFUSED, ty := .ro },
  { fld := Reg.SCH_JRES_VALID, ty := .ro },
  { fld := Reg.SCH_JD_WORD 0, ty := .rwl, n := 16, stride := 0x4 },
  { fld := Reg.SCH_OUTC_TICK_TICK, ty := .ro },
  { fld := Reg.SCH_CHG_CHG 0, ty := .rc, n := 32, stride := 0x4 },
  { fld := Reg.SCH_CNT_COUNT 0 0, ty := .cnt, n := 6, stride := 0x20, m := 8, mstride := 0x4 },
  { fld := Reg.SCH_OUTC_OUTCOME0 0, ty := .ro, n := 512, stride := 0x4 }]

/-- The rows of the SCH registers, part 3. -/
def rowsSch3 : List Row := [
  { fld := Reg.SCH_OUTC_OUTCOME1 0, ty := .ro, n := 512, stride := 0x4 },
  { fld := Reg.SCH_OUTC_OVRUN0 0, ty := .ro, n := 512, stride := 0x4 },
  { fld := Reg.SCH_OUTC_OVRUN1 0, ty := .ro, n := 512, stride := 0x4 },
  { fld := Reg.SCH_OUTC_REASON0 0, ty := .ro, n := 512, stride := 0x4 },
  { fld := Reg.SCH_OUTC_REASON1 0, ty := .ro, n := 512, stride := 0x4 }]

/-- The rows of the SCH registers. -/
def rowsSch : List Row := rowsSch1 ++ rowsSch2 ++ rowsSch3

/-- The rows of the Engine control registers, part 1. -/
def rowsEngineControl1 : List Row := [
  { fld := Reg.ENG_CFG_OFFLINE 0, ty := .rws, n := 16, stride := 0x2000 },
  { fld := Reg.ENG_STATUS_REASON 0, ty := .ro, n := 16, stride := 0x2000 },
  { fld := Reg.ENG_STATUS_ACCVIOL 0, ty := .rc, n := 16, stride := 0x2000 },
  { fld := Reg.ENG_STATUS_BRKHIT 0, ty := .rc, n := 16, stride := 0x2000 },
  { fld := Reg.ENG_STATUS_POSTDROP 0, ty := .rc, n := 16, stride := 0x2000 },
  { fld := Reg.ENG_STATUS_CNT_HALF 0, ty := .rc, n := 16, stride := 0x2000 },
  { fld := Reg.ENG_STATUS_FAILED 0, ty := .rc, n := 16, stride := 0x2000 },
  { fld := Reg.ENG_STATUS_RETEST_DONE 0, ty := .rc, n := 16, stride := 0x2000 },
  { fld := Reg.ENG_STATUS_LDDONE 0, ty := .rc },
  { fld := Reg.ENG_STATUS_STATE 0, ty := .ro, n := 16, stride := 0x2000 },
  { fld := Reg.ENG_INT_EN_EN 0, ty := .rwl, n := 16, stride := 0x2000 },
  { fld := Reg.ENG_CMD_RETEST 0, ty := .cmd, n := 16, stride := 0x2000 },
  { fld := Reg.ENG_CMD_WCLR 0, ty := .cmd, n := 16, stride := 0x2000 },
  { fld := Reg.ENG_PC_PC 0, ty := .ro, n := 16, stride := 0x2000 },
  { fld := Reg.ENG_PC_JOB 0, ty := .ro, n := 16, stride := 0x2000 },
  { fld := Reg.ENG_PC_RUN 0, ty := .ro, n := 16, stride := 0x2000 },
  { fld := Reg.ENG_FLAGS_FLAGS 0, ty := .rc, n := 16, stride := 0x2000 },
  { fld := Reg.ENG_VADDR_ADDR 0, ty := .ro, n := 16, stride := 0x2000 },
  { fld := Reg.ENG_VINFO_JOB 0, ty := .ro, n := 16, stride := 0x2000 },
  { fld := Reg.ENG_VINFO_KIND 0, ty := .ro, n := 16, stride := 0x2000 },
  { fld := Reg.ENG_VINFO_PC 0, ty := .ro, n := 16, stride := 0x2000 },
  { fld := Reg.ENG_WATCH_JOB 0, ty := .rwl, n := 16, stride := 0x2000 },
  { fld := Reg.ENG_WATCH_EN 0, ty := .rwl, n := 16, stride := 0x2000 },
  { fld := Reg.ENG_WLAST_CYC 0, ty := .ro, n := 16, stride := 0x2000 }]

/-- The rows of the Engine control registers, part 2. -/
def rowsEngineControl2 : List Row := [
  { fld := Reg.ENG_WMAX_CYC 0, ty := .ro, n := 16, stride := 0x2000 },
  { fld := Reg.ENG_WSTALL_CYC 0, ty := .ro, n := 16, stride := 0x2000 },
  { fld := Reg.ENG_BRK_PC 0, ty := .rwl, n := 16, stride := 0x2000 },
  { fld := Reg.ENG_BRK_JOB 0, ty := .rwl, n := 16, stride := 0x2000 },
  { fld := Reg.ENG_BRK_EN 0, ty := .rwl, n := 16, stride := 0x2000 },
  { fld := Reg.ENG_BPC_PC 0, ty := .ro, n := 16, stride := 0x2000 },
  { fld := Reg.ENG_BPC_JOB 0, ty := .ro, n := 16, stride := 0x2000 },
  { fld := Reg.ENG_BTICK_TICK 0, ty := .ro, n := 16, stride := 0x2000 },
  { fld := Reg.ENG_BSNAP_VAL 0 0, ty := .ro, n := 16, stride := 0x2000, m := 16, mstride := 0x4 },
  { fld := Reg.ENG_RUNS_COUNT 0, ty := .cnt, n := 16, stride := 0x2000 },
  { fld := Reg.ENG_VCNT_COUNT 0, ty := .cnt, n := 16, stride := 0x2000 },
  { fld := Reg.ENG_PDROP_COUNT 0, ty := .cnt, n := 16, stride := 0x2000 },
  { fld := Reg.ENG_CYC_COUNT 0, ty := .cnt, n := 16, stride := 0x2000 },
  { fld := Reg.ENG_LDCMD_PROG_ID, ty := .rwl },
  { fld := Reg.ENG_LDCMD_HMASK, ty := .rwl, rst := 3 },
  { fld := Reg.ENG_LDCMD_OP, ty := .rwl },
  { fld := Reg.ENG_LDCMD_GO, ty := .cmd },
  { fld := Reg.ENG_LDSRC_OFFSET, ty := .rwl },
  { fld := Reg.ENG_LDRES_REASON, ty := .ro },
  { fld := Reg.ENG_LDRES_PROG_ID, ty := .ro },
  { fld := Reg.ENG_LDRES_REFUSED, ty := .ro },
  { fld := Reg.ENG_LDRES_VALID, ty := .ro },
  { fld := Reg.ENG_LDINFO0_BASE, ty := .ro },
  { fld := Reg.ENG_LDINFO0_HMASK, ty := .ro }]

/-- The rows of the Engine control registers, part 3. -/
def rowsEngineControl3 : List Row := [
  { fld := Reg.ENG_LDINFO0_LOADED, ty := .ro },
  { fld := Reg.ENG_LDINFO1_CODE_WORDS, ty := .ro },
  { fld := Reg.ENG_LDINFO1_N_ENTRY, ty := .ro },
  { fld := Reg.ENG_ISRAM_FREEA_RUN, ty := .ro, rst := 0x1C000 },
  { fld := Reg.ENG_ISRAM_FREEB_RUN, ty := .ro, rst := 0x1C000 },
  { fld := Reg.ENG_NPROG_COUNT, ty := .ro },
  { fld := Reg.ENG_ISRAM_ECC_COUNT, ty := .cnt },
  { fld := Reg.ENG_SYNCA_FLAGS, ty := .ro },
  { fld := Reg.ENG_SYNCB_FLAGS, ty := .ro },
  { fld := Reg.ENG_LDINFO2_BASEB, ty := .ro }]

/-- The rows of the Engine control registers. -/
def rowsEngineControl : List Row := rowsEngineControl1 ++ rowsEngineControl2 ++ rowsEngineControl3

/-- The rows of the PGU and ALC registers, part 1. -/
def rowsPguAndAlc1 : List Row := [
  { fld := Reg.ALC_CFG_ENABLE, ty := .rws },
  { fld := Reg.ALC_LAYOUT_EMB_PAGES, ty := .rws },
  { fld := Reg.ALC_LAYOUT_BANKS, ty := .rws },
  { fld := Reg.ALC_LAYOUT_FRAMES, ty := .rws },
  { fld := Reg.ALC_BASE0_EMB, ty := .ro, rst := 0x100 },
  { fld := Reg.ALC_BASE0_BANK, ty := .ro, rst := 0x100 },
  { fld := Reg.ALC_BASE1_FRAME, ty := .ro, rst := 0x100 },
  { fld := Reg.ALC_BASE1_POOL, ty := .ro, rst := 0x100 },
  { fld := Reg.ALC_POOLA_FREE, ty := .ro },
  { fld := Reg.ALC_LARGESTA_RUN, ty := .ro },
  { fld := Reg.ALC_POOLB_FREE, ty := .ro },
  { fld := Reg.ALC_LARGESTB_RUN, ty := .ro },
  { fld := Reg.ALC_FRAMEFREEA_COUNT, ty := .ro },
  { fld := Reg.ALC_FRAMEFREEB_COUNT, ty := .ro },
  { fld := Reg.PGU_STATUS_REASON, ty := .ro },
  { fld := Reg.PGU_STATUS_WINVIOL, ty := .rc },
  { fld := Reg.PGU_STATUS_WDROP, ty := .rc },
  { fld := Reg.PGU_STATUS_CE, ty := .rc },
  { fld := Reg.PGU_STATUS_UE, ty := .rc },
  { fld := Reg.PGU_STATUS_DLDONE, ty := .rc },
  { fld := Reg.PGU_STATUS_DFAILEV, ty := .rc },
  { fld := Reg.PGU_STATUS_CNT_HALF, ty := .rc },
  { fld := Reg.PGU_STATUS_DFAIL0, ty := .ro },
  { fld := Reg.PGU_STATUS_DFAIL1, ty := .ro }]

/-- The rows of the PGU and ALC registers, part 2. -/
def rowsPguAndAlc2 : List Row := [
  { fld := Reg.PGU_STATUS_MSGVALID, ty := .ro },
  { fld := Reg.PGU_STATUS_RESYNC, ty := .ro },
  { fld := Reg.PGU_INT_EN_EN, ty := .rwl },
  { fld := Reg.PGU_WIN_HSEL, ty := .rwl },
  { fld := Reg.PGU_WIN_HALF, ty := .rwl },
  { fld := Reg.PGU_CMD_RETRAIN0, ty := .cmd },
  { fld := Reg.PGU_CMD_RETRAIN1, ty := .cmd },
  { fld := Reg.PGU_CMD_MSG_RELOAD, ty := .cmd },
  { fld := Reg.PGU_DLCMD_LINE, ty := .rwl },
  { fld := Reg.PGU_DLCMD_OP, ty := .rwl },
  { fld := Reg.PGU_DLCMD_GO, ty := .cmd },
  { fld := Reg.PGU_DLRES_REASON, ty := .ro },
  { fld := Reg.PGU_DLRES_LINE, ty := .ro },
  { fld := Reg.PGU_DLRES_REFUSED, ty := .ro },
  { fld := Reg.PGU_DLRES_VALID, ty := .ro },
  { fld := Reg.PGU_DLSTAGE0_NPAGES, ty := .rwl },
  { fld := Reg.PGU_DLSTAGE0_PROT, ty := .rwl },
  { fld := Reg.PGU_DLSTAGE0_HEARTH, ty := .rwl },
  { fld := Reg.PGU_DLSTAGE0_SLEW_MAX, ty := .rwl },
  { fld := Reg.PGU_DLSTAGE1_TAP0, ty := .rwl },
  { fld := Reg.PGU_DLSTAGE2_TAPSPAN, ty := .rwl },
  { fld := Reg.PGU_DLREAD0, ty := .ro },
  { fld := Reg.PGU_DLREAD1_TAP0, ty := .ro },
  { fld := Reg.PGU_DLREAD2_TAPSPAN, ty := .ro }]

/-- The rows of the PGU and ALC registers, part 3. -/
def rowsPguAndAlc3 : List Row := [
  { fld := Reg.PGU_DLREAD3_BASE, ty := .ro },
  { fld := Reg.PGU_DLREAD3_FR, ty := .ro },
  { fld := Reg.PGU_DRAM_INFO_DENS, ty := .ro },
  { fld := Reg.PGU_DRAM_INFO_X, ty := .ro },
  { fld := Reg.PGU_DRAM_INFO_RANKS2, ty := .ro },
  { fld := Reg.PGU_DRAM_INFO_TRAINED0, ty := .ro },
  { fld := Reg.PGU_DRAM_INFO_TRAINED1, ty := .ro },
  { fld := Reg.PGU_MR4_REF0, ty := .ro },
  { fld := Reg.PGU_MR4_REF1, ty := .ro },
  { fld := Reg.PGU_REGION_MSG_MIB, ty := .rws },
  { fld := Reg.PGU_REGION_DL_MIB, ty := .rws },
  { fld := Reg.PGU_DFAIL_CFG_UE_LIMIT, ty := .rws, rst := 4 },
  { fld := Reg.PGU_DMISSA_COUNT, ty := .cnt },
  { fld := Reg.PGU_DMISSB_COUNT, ty := .cnt },
  { fld := Reg.PGU_PFLATEA_COUNT, ty := .cnt },
  { fld := Reg.PGU_PFLATEB_COUNT, ty := .cnt },
  { fld := Reg.PGU_WDROP_COUNT, ty := .cnt },
  { fld := Reg.PGU_WINVCNT_COUNT, ty := .cnt },
  { fld := Reg.PGU_DCE0_COUNT, ty := .cnt },
  { fld := Reg.PGU_DCE1_COUNT, ty := .cnt },
  { fld := Reg.PGU_DUE0_COUNT, ty := .cnt },
  { fld := Reg.PGU_DUE1_COUNT, ty := .cnt },
  { fld := Reg.PGU_GCEA_COUNT, ty := .cnt },
  { fld := Reg.PGU_GCEB_COUNT, ty := .cnt }]

/-- The rows of the PGU and ALC registers, part 4. -/
def rowsPguAndAlc4 : List Row := [
  { fld := Reg.PGU_GUEA_COUNT, ty := .cnt },
  { fld := Reg.PGU_GUEB_COUNT, ty := .cnt },
  { fld := Reg.PGU_INFLA_NOW, ty := .ro },
  { fld := Reg.PGU_INFLB_NOW, ty := .ro }]

/-- The rows of the PGU and ALC registers. -/
def rowsPguAndAlc : List Row := rowsPguAndAlc1 ++ rowsPguAndAlc2 ++ rowsPguAndAlc3 ++ rowsPguAndAlc4

/-- The rows of the FLW registers, part 1. -/
def rowsFlw1 : List Row := [
  { fld := Reg.FLW_CFG_ENABLE, ty := .rws },
  { fld := Reg.FLW_CFG_MAX_PAYLOAD, ty := .rws, rst := 0x5A0 },
  { fld := Reg.FLW_PATH_CFG_TIMEOUT, ty := .rws, rst := 0x40 },
  { fld := Reg.FLW_STATUS_REASON, ty := .ro },
  { fld := Reg.FLW_STATUS_FDONE, ty := .rc },
  { fld := Reg.FLW_STATUS_PATHEV, ty := .rc },
  { fld := Reg.FLW_STATUS_FLOWEV, ty := .rc },
  { fld := Reg.FLW_STATUS_LATE, ty := .rc },
  { fld := Reg.FLW_STATUS_CNT_HALF, ty := .rc },
  { fld := Reg.FLW_STATUS_FCNT_HALF, ty := .rc },
  { fld := Reg.FLW_STATUS_JBUE, ty := .rc },
  { fld := Reg.FLW_INT_EN_EN, ty := .rwl },
  { fld := Reg.FLW_FCMD_FLOW, ty := .rwl },
  { fld := Reg.FLW_FCMD_DIR, ty := .rwl },
  { fld := Reg.FLW_FCMD_OP, ty := .rwl },
  { fld := Reg.FLW_FCMD_GO, ty := .cmd },
  { fld := Reg.FLW_FRES_REASON, ty := .ro },
  { fld := Reg.FLW_FRES_FLOW, ty := .ro },
  { fld := Reg.FLW_FRES_DIR, ty := .ro },
  { fld := Reg.FLW_FRES_REFUSED, ty := .ro },
  { fld := Reg.FLW_FRES_VALID, ty := .ro },
  { fld := Reg.FLW_FCNT_FLOW_FLOW, ty := .ro },
  { fld := Reg.FLW_FCNT_FLOW_DIR, ty := .ro },
  { fld := Reg.FLW_MCF_USED_COUNT, ty := .ro }]

/-- The rows of the FLW registers, part 2. -/
def rowsFlw2 : List Row := [
  { fld := Reg.FLW_RUN_RX, ty := .ro },
  { fld := Reg.FLW_RUN_TX, ty := .ro },
  { fld := Reg.FLW_TXLOAD0_MBPS, ty := .ro },
  { fld := Reg.FLW_TXLOAD1_MBPS, ty := .ro },
  { fld := Reg.FLW_RXPKT_COUNT, ty := .cnt },
  { fld := Reg.FLW_ACCEPT_COUNT, ty := .cnt },
  { fld := Reg.FLW_DUP_COUNT, ty := .cnt },
  { fld := Reg.FLW_INVALID_COUNT, ty := .cnt },
  { fld := Reg.FLW_LATE_COUNT, ty := .cnt },
  { fld := Reg.FLW_EARLY_COUNT, ty := .cnt },
  { fld := Reg.FLW_STALE_COUNT, ty := .cnt },
  { fld := Reg.FLW_SEQGAP_COUNT, ty := .cnt },
  { fld := Reg.FLW_NOFLOW_COUNT, ty := .cnt },
  { fld := Reg.FLW_MISSTICK_COUNT, ty := .cnt },
  { fld := Reg.FLW_RESYNC_COUNT, ty := .cnt },
  { fld := Reg.FLW_JBUE_COUNT, ty := .cnt },
  { fld := Reg.FLW_TXPKT_COUNT, ty := .cnt },
  { fld := Reg.FLW_TXDROP_COUNT, ty := .cnt }]

/-- The rows of the FLW registers. -/
def rowsFlw : List Row := rowsFlw1 ++ rowsFlw2

/-- The rows of the TDM and SRC registers, part 1. -/
def rowsTdmAndSrc1 : List Row := [
  { fld := Reg.TDM_CFG_ENABLE, ty := .rws },
  { fld := Reg.TDM_CFG_ALIGN_WIN, ty := .rws, rst := 0xA },
  { fld := Reg.TDM_STATUS_REASON, ty := .ro },
  { fld := Reg.TDM_STATUS_START, ty := .rc },
  { fld := Reg.TDM_STATUS_FAULT, ty := .rc },
  { fld := Reg.TDM_STATUS_XF, ty := .rc },
  { fld := Reg.TDM_STATUS_SRCEV, ty := .rc },
  { fld := Reg.TDM_STATUS_CNT_HALF, ty := .rc },
  { fld := Reg.TDM_STATUS_RPORT, ty := .ro },
  { fld := Reg.TDM_INT_EN_EN, ty := .rwl },
  { fld := Reg.TDM_ARMED_PORTS, ty := .ro },
  { fld := Reg.TDM_RUN_PORTS, ty := .ro },
  { fld := Reg.TDM_PCFG_ENABLE 0, ty := .rws, n := 16, stride := 0x80 },
  { fld := Reg.TDM_PCFG_ROLE 0, ty := .rws, n := 16, stride := 0x80 },
  { fld := Reg.TDM_PCFG_SYN 0, ty := .rws, n := 16, stride := 0x80 },
  { fld := Reg.TDM_PCFG_XFAIL 0, ty := .rws, n := 16, stride := 0x80 },
  { fld := Reg.TDM_PCFG_REVERT 0, ty := .rws, rst := 1, n := 16, stride := 0x80 },
  { fld := Reg.TDM_PCFG_SLOTS 0, ty := .rws, rst := 3, n := 16, stride := 0x80 },
  { fld := Reg.TDM_PCFG_PROT 0, ty := .rws, n := 16, stride := 0x80 },
  { fld := Reg.TDM_PCFG_HEARTH 0, ty := .rws, n := 16, stride := 0x80 },
  { fld := Reg.TDM_PCFG_START 0, ty := .rws, n := 16, stride := 0x80 },
  { fld := Reg.TDM_PCFG_TRIG 0, ty := .rws, n := 16, stride := 0x80 },
  { fld := Reg.TDM_PCFG_WORD 0, ty := .rws, rst := 1, n := 16, stride := 0x80 },
  { fld := Reg.TDM_PCFG_DELAY 0, ty := .rws, rst := 1, n := 16, stride := 0x80 }]

/-- The rows of the TDM and SRC registers, part 2. -/
def rowsTdmAndSrc2 : List Row := [
  { fld := Reg.TDM_PCFG_FSPOL 0, ty := .rws, n := 16, stride := 0x80 },
  { fld := Reg.TDM_PCFG_FSWIDTH 0, ty := .rws, n := 16, stride := 0x80 },
  { fld := Reg.TDM_PCFG_EDGE 0, ty := .rws, n := 16, stride := 0x80 },
  { fld := Reg.TDM_PCFG_TRISTATE 0, ty := .rws, n := 16, stride := 0x80 },
  { fld := Reg.TDM_PCFG_SRC 0, ty := .rws, n := 16, stride := 0x80 },
  { fld := Reg.TDM_PSTAT_STATE 0, ty := .ro, n := 16, stride := 0x80 },
  { fld := Reg.TDM_PSTAT_ONSYN 0, ty := .ro, n := 16, stride := 0x80 },
  { fld := Reg.TDM_PSTAT_ALIGNED 0, ty := .ro, n := 16, stride := 0x80 },
  { fld := Reg.TDM_PSTART_TICK 0, ty := .ro, n := 16, stride := 0x80 },
  { fld := Reg.TDM_PALIGN_OFFSET 0, ty := .ro, n := 16, stride := 0x80 },
  { fld := Reg.TDM_INMAP_LO 0 0, ty := .rws, n := 16, stride := 0x80, m := 8, mstride := 0x4 },
  { fld := Reg.TDM_INMAP_HI 0 0, ty := .rws, n := 16, stride := 0x80, m := 8, mstride := 0x4 },
  { fld := Reg.TDM_OUTMAP_LO 0 0, ty := .rws, n := 16, stride := 0x80, m := 8, mstride := 0x4 },
  { fld := Reg.TDM_OUTMAP_HI 0 0, ty := .rws, n := 16, stride := 0x80, m := 8, mstride := 0x4 },
  { fld := Reg.TDM_XFCNT_COUNT 0, ty := .cnt, n := 16, stride := 0x80 },
  { fld := Reg.TDM_FAULTCNT_COUNT 0, ty := .cnt, n := 16, stride := 0x80 },
  { fld := Reg.TDM_SRCSTAT_LOCK 0, ty := .ro, n := 4, stride := 0x20 },
  { fld := Reg.TDM_SRCSTAT_RATE 0, ty := .ro, n := 4, stride := 0x20 },
  { fld := Reg.TDM_SRCPHASE_PHASE 0, ty := .ro, n := 4, stride := 0x20 },
  { fld := Reg.TDM_SRCUNLOCK_COUNT 0, ty := .cnt, n := 4, stride := 0x20 }]

/-- The rows of the TDM and SRC registers. -/
def rowsTdmAndSrc : List Row := rowsTdmAndSrc1 ++ rowsTdmAndSrc2

/-- The rows of the MAC0 and MAC1 registers, part 1. -/
def rowsMac0AndMac11 : List Row := [
  { fld := Reg.MAC_CFG_ENABLE 0, ty := .rws, n := 2, stride := 0x1000 },
  { fld := Reg.MAC_CFG_SPEED 0, ty := .rws, n := 2, stride := 0x1000 },
  { fld := Reg.MAC_CFG_AN_EN 0, ty := .rws, rst := 1, n := 2, stride := 0x1000 },
  { fld := Reg.MAC_CFG_RX_PAUSE_EN 0, ty := .rws, rst := 1, n := 2, stride := 0x1000 },
  { fld := Reg.MAC_CFG_RX_PFC_EN 0, ty := .rws, n := 2, stride := 0x1000 },
  { fld := Reg.MAC_CFG_ERR_FWD 0, ty := .rws, n := 2, stride := 0x1000 },
  { fld := Reg.MAC_CFG_MAXLEN 0, ty := .rws, rst := 0x5F2, n := 2, stride := 0x1000 },
  { fld := Reg.MAC_STATUS_REASON 0, ty := .ro, n := 2, stride := 0x1000 },
  { fld := Reg.MAC_STATUS_LINKEV 0, ty := .rc, n := 2, stride := 0x1000 },
  { fld := Reg.MAC_STATUS_DAMPEREV 0, ty := .rc, n := 2, stride := 0x1000 },
  { fld := Reg.MAC_STATUS_SFPEV 0, ty := .rc, n := 2, stride := 0x1000 },
  { fld := Reg.MAC_STATUS_CNT_HALF 0, ty := .rc, n := 2, stride := 0x1000 },
  { fld := Reg.MAC_STATUS_SFPDONE 0, ty := .rc, n := 2, stride := 0x1000 },
  { fld := Reg.MAC_STATUS_LINK 0, ty := .ro, n := 2, stride := 0x1000 },
  { fld := Reg.MAC_STATUS_SPEED_NOW 0, ty := .ro, n := 2, stride := 0x1000 },
  { fld := Reg.MAC_STATUS_RFAULT 0, ty := .ro, n := 2, stride := 0x1000 },
  { fld := Reg.MAC_STATUS_LFAULT 0, ty := .ro, n := 2, stride := 0x1000 },
  { fld := Reg.MAC_STATUS_SFP_PRESENT 0, ty := .ro, n := 2, stride := 0x1000 },
  { fld := Reg.MAC_STATUS_TXFAULT 0, ty := .ro, n := 2, stride := 0x1000 },
  { fld := Reg.MAC_STATUS_LOS 0, ty := .ro, n := 2, stride := 0x1000 },
  { fld := Reg.MAC_STATUS_AN_DONE 0, ty := .ro, n := 2, stride := 0x1000 },
  { fld := Reg.MAC_STATUS_PARTNER_PAUSE 0, ty := .ro, n := 2, stride := 0x1000 },
  { fld := Reg.MAC_INT_EN_EN 0, ty := .rwl, n := 2, stride := 0x1000 },
  { fld := Reg.MAC_ADDR_LO_ADDR 0, ty := .rws, n := 2, stride := 0x1000 }]

/-- The rows of the MAC0 and MAC1 registers, part 2. -/
def rowsMac0AndMac12 : List Row := [
  { fld := Reg.MAC_ADDR_HI_ADDR 0, ty := .rws, n := 2, stride := 0x1000 },
  { fld := Reg.MAC_FC_CFG_DAMPER_LIMIT 0, ty := .rws, rst := 0x7D0, n := 2, stride := 0x1000 },
  { fld := Reg.MAC_FC_CFG_DAMPER_OPEN 0, ty := .rws, rst := 0x3E8, n := 2, stride := 0x1000 },
  { fld := Reg.MAC_PAUSE_STAT_PAUSED 0, ty := .ro, n := 2, stride := 0x1000 },
  { fld := Reg.MAC_PAUSE_STAT_BROKEN 0, ty := .ro, n := 2, stride := 0x1000 },
  { fld := Reg.MAC_SUPQ_PTPQ 0, ty := .rws, rst := 7, n := 2, stride := 0x1000 },
  { fld := Reg.MAC_SUPQ_OTHERQ 0, ty := .rws, n := 2, stride := 0x1000 },
  { fld := Reg.MAC_QCFG_DEPTH 0 0, ty := .rws, rst := 0x20, n := 2, stride := 0x1000, m := 8, mstride := 0x4 },
  { fld := Reg.MAC_QCFG_AUDIO 0 0, ty := .rws, n := 2, stride := 0x1000, m := 4, mstride := 0x4 },
  { fld := Reg.MAC_QCFG_AUDIO 0 4, ty := .rws, rst := 1, n := 2, stride := 0x1000, m := 4, mstride := 0x4 },
  { fld := Reg.MAC_QCFG_ECLASS 0 0, ty := .rws, n := 2, stride := 0x1000, m := 7, mstride := 0x4 },
  { fld := Reg.MAC_QCFG_ECLASS 0 7, ty := .rws, rst := 1, n := 2, stride := 0x1000, m := 1, mstride := 0x4 },
  { fld := Reg.MAC_QCFG_DAMPER_EN 0 0, ty := .rws, rst := 1, n := 2, stride := 0x1000, m := 8, mstride := 0x4 },
  { fld := Reg.MAC_SHAPER5_EN 0, ty := .rws, n := 2, stride := 0x1000 },
  { fld := Reg.MAC_SHAPER5_IDLESLOPE 0, ty := .rws, n := 2, stride := 0x1000 },
  { fld := Reg.MAC_SHAPER6_EN 0, ty := .rws, n := 2, stride := 0x1000 },
  { fld := Reg.MAC_SHAPER6_IDLESLOPE 0, ty := .rws, n := 2, stride := 0x1000 },
  { fld := Reg.MAC_CREDIT5_CREDIT 0, ty := .ro, n := 2, stride := 0x1000 },
  { fld := Reg.MAC_CREDIT6_CREDIT 0, ty := .ro, n := 2, stride := 0x1000 },
  { fld := Reg.MAC_SFPCMD_DEV 0, ty := .rwl, n := 2, stride := 0x1000 },
  { fld := Reg.MAC_SFPCMD_OFFSET 0, ty := .rwl, n := 2, stride := 0x1000 },
  { fld := Reg.MAC_SFPCMD_LEN 0, ty := .rwl, n := 2, stride := 0x1000 },
  { fld := Reg.MAC_SFPCMD_GO 0, ty := .cmd, n := 2, stride := 0x1000 },
  { fld := Reg.MAC_SFPDATA_DATA 0, ty := .ro, n := 2, stride := 0x1000 }]

/-- The rows of the MAC0 and MAC1 registers, part 3. -/
def rowsMac0AndMac13 : List Row := [
  { fld := Reg.MAC_SFPRES_NACK 0, ty := .ro, n := 2, stride := 0x1000 },
  { fld := Reg.MAC_SFPRES_VALID 0, ty := .ro, n := 2, stride := 0x1000 },
  { fld := Reg.MAC_SFPID 0, ty := .ro, n := 2, stride := 0x1000 },
  { fld := Reg.MAC_SFPDIAG0_TEMP 0, ty := .ro, n := 2, stride := 0x1000 },
  { fld := Reg.MAC_SFPDIAG0_VCC 0, ty := .ro, n := 2, stride := 0x1000 },
  { fld := Reg.MAC_SFPDIAG1_TXBIAS 0, ty := .ro, n := 2, stride := 0x1000 },
  { fld := Reg.MAC_SFPDIAG1_TXPWR 0, ty := .ro, n := 2, stride := 0x1000 },
  { fld := Reg.MAC_SFPDIAG2_RXPWR 0, ty := .ro, n := 2, stride := 0x1000 },
  { fld := Reg.MAC_SFPDIAG2_STALE 0, ty := .ro, rst := 1, n := 2, stride := 0x1000 },
  { fld := Reg.MAC_CNTHALF0 0, ty := .rc, n := 2, stride := 0x1000 },
  { fld := Reg.MAC_CNTHALF1 0, ty := .rc, n := 2, stride := 0x1000 },
  { fld := Reg.MAC_CNT 0 0, ty := .cnt, n := 2, stride := 0x1000, m := 38, mstride := 0x4 },
  { fld := Reg.MAC_CNT 0 40, ty := .cnt, n := 2, stride := 0x1000, m := 24, mstride := 0x4 }]

/-- The rows of the MAC0 and MAC1 registers. -/
def rowsMac0AndMac1 : List Row := rowsMac0AndMac11 ++ rowsMac0AndMac12 ++ rowsMac0AndMac13

/-- The rows of the MACC registers. -/
def rowsMacc : List Row := [
  { fld := Reg.MACC_SNAP_SNAP, ty := .cmd },
  { fld := Reg.MACC_SNAPTICK_TICK, ty := .ro },
  { fld := Reg.MACC_BANK 0, ty := .ro, n := 304, stride := 0x4 }]

/-- The rows of the PTP registers, part 1. -/
def rowsPtp1 : List Row := [
  { fld := Reg.PTP_CFG_ENABLE, ty := .rws },
  { fld := Reg.PTP_STATUS_REASON, ty := .ro },
  { fld := Reg.PTP_STATUS_SERVOEV, ty := .rc },
  { fld := Reg.PTP_STATUS_PSTEPEV, ty := .rc },
  { fld := Reg.PTP_STATUS_CNT_HALF, ty := .rc },
  { fld := Reg.PTP_STATUS_STATEEV, ty := .rc },
  { fld := Reg.PTP_STATUS_ANCHORED, ty := .ro },
  { fld := Reg.PTP_STATUS_STEER, ty := .ro },
  { fld := Reg.PTP_INT_EN_EN, ty := .rwl },
  { fld := Reg.PTP_CMD_REBASE0, ty := .cmd },
  { fld := Reg.PTP_CMD_REBASE1, ty := .cmd },
  { fld := Reg.PTP_CMD_ACCEPT0, ty := .cmd },
  { fld := Reg.PTP_CMD_ACCEPT1, ty := .cmd },
  { fld := Reg.PTP_CMD_CLRREB0, ty := .cmd },
  { fld := Reg.PTP_CMD_CLRREB1, ty := .cmd },
  { fld := Reg.PTP_SERVO_BW, ty := .rws, rst := 1 },
  { fld := Reg.PTP_SERVO_LOCK_NS, ty := .rws, rst := 0x64 },
  { fld := Reg.PTP_PSTEP_THRESH, ty := .rws, rst := 0xC8 },
  { fld := Reg.PTP_PSTEP_HOLD, ty := .rws, rst := 0x1E },
  { fld := Reg.TIME_NS, ty := .ro },
  { fld := Reg.TIME_SEC, ty := .ro },
  { fld := Reg.TIME_SECHI, ty := .ro },
  { fld := Reg.TIME_TICK, ty := .ro },
  { fld := Reg.PTP_FREQ_FREQ, ty := .ro }]

/-- The rows of the PTP registers, part 2. -/
def rowsPtp2 : List Row := [
  { fld := Reg.PTP_PCFG_ENABLE 0, ty := .rws, n := 2, stride := 0x80 },
  { fld := Reg.PTP_PCFG_PROFILE 0, ty := .rws, rst := 1, n := 2, stride := 0x80 },
  { fld := Reg.PTP_PCFG_TRANSPORT 0, ty := .rws, rst := 1, n := 2, stride := 0x80 },
  { fld := Reg.PTP_PCFG_DELAY 0, ty := .rws, n := 2, stride := 0x80 },
  { fld := Reg.PTP_PCFG_ROLE 0, ty := .rws, n := 2, stride := 0x80 },
  { fld := Reg.PTP_PCFG_ONESTEP 0, ty := .rws, n := 2, stride := 0x80 },
  { fld := Reg.PTP_PCFG_DOMAIN 0, ty := .rws, n := 2, stride := 0x80 },
  { fld := Reg.PTP_PRATE_LOG_SYNC 0, ty := .rws, rst := 0xFD, n := 2, stride := 0x80 },
  { fld := Reg.PTP_PRATE_LOG_DREQ 0, ty := .rws, n := 2, stride := 0x80 },
  { fld := Reg.PTP_PRATE_LOG_ANN 0, ty := .rws, rst := 1, n := 2, stride := 0x80 },
  { fld := Reg.PTP_PRATE_ANN_TMO 0, ty := .rws, rst := 3, n := 2, stride := 0x80 },
  { fld := Reg.PTP_ASYM_ASYM 0, ty := .rws, n := 2, stride := 0x80 },
  { fld := Reg.PTP_OFF_THETA 0, ty := .ro, n := 2, stride := 0x80 },
  { fld := Reg.PTP_MPD_D 0, ty := .ro, n := 2, stride := 0x80 },
  { fld := Reg.PTP_REBASE_REBASE 0, ty := .ro, n := 2, stride := 0x80 },
  { fld := Reg.PTP_PSTEPLOG_STEP 0, ty := .ro, n := 2, stride := 0x80 },
  { fld := Reg.PTP_PSTAT_STATE 0, ty := .ro, rst := 7, n := 2, stride := 0x80 },
  { fld := Reg.PTP_PSTAT_HOLD 0, ty := .ro, n := 2, stride := 0x80 },
  { fld := Reg.PTP_PSTAT_LOCK 0, ty := .ro, n := 2, stride := 0x80 },
  { fld := Reg.PTP_GMID_LO 0, ty := .ro, n := 2, stride := 0x80 },
  { fld := Reg.PTP_GMID_HI 0, ty := .ro, n := 2, stride := 0x80 },
  { fld := Reg.PTP_GMQ_CLASS 0, ty := .ro, n := 2, stride := 0x80 },
  { fld := Reg.PTP_GMQ_ACCURACY 0, ty := .ro, n := 2, stride := 0x80 },
  { fld := Reg.PTP_GMQ_VARIANCE 0, ty := .ro, n := 2, stride := 0x80 }]

/-- The rows of the PTP registers, part 3. -/
def rowsPtp3 : List Row := [
  { fld := Reg.PTP_PSTEPCNT_COUNT 0, ty := .cnt, n := 2, stride := 0x80 },
  { fld := Reg.PTP_SUSPECT_COUNT 0, ty := .cnt, n := 2, stride := 0x80 },
  { fld := Reg.PTP_EXCH_COUNT 0, ty := .cnt, n := 2, stride := 0x80 },
  { fld := Reg.PTP_SKIP_COUNT 0, ty := .cnt, n := 2, stride := 0x80 }]

/-- The rows of the PTP registers. -/
def rowsPtp : List Row := rowsPtp1 ++ rowsPtp2 ++ rowsPtp3

/-- The rows of the TSU registers, part 1. -/
def rowsTsu1 : List Row := [
  { fld := Reg.TSU_CFG_ENABLE, ty := .rws },
  { fld := Reg.TSU_STATUS_REASON, ty := .ro },
  { fld := Reg.TSU_STATUS_QLOST, ty := .rc },
  { fld := Reg.TSU_STATUS_TRIG, ty := .rc },
  { fld := Reg.TSU_STATUS_CAP, ty := .rc },
  { fld := Reg.TSU_STATUS_CNT_HALF, ty := .rc },
  { fld := Reg.TSU_INT_EN_EN, ty := .rwl },
  { fld := Reg.TSU_TRIG_EV_EV, ty := .rwl },
  { fld := Reg.TSU_LAT_RXLAT 0, ty := .rws, n := 2, stride := 0x4 },
  { fld := Reg.TSU_LAT_TXLAT 0, ty := .rws, n := 2, stride := 0x4 },
  { fld := Reg.TSU_ILAT_RX 0, ty := .ro, n := 2, stride := 0x4 },
  { fld := Reg.TSU_ILAT_TX 0, ty := .ro, n := 2, stride := 0x4 },
  { fld := Reg.TSU_QSTAT_N0, ty := .ro },
  { fld := Reg.TSU_QSTAT_N1, ty := .ro },
  { fld := Reg.TSU_QSTAT_N2, ty := .ro },
  { fld := Reg.TSU_QSTAT_N3, ty := .ro },
  { fld := Reg.TSU_QHEAD0 0, ty := .ro, n := 4, stride := 0x10 },
  { fld := Reg.TSU_QHEAD_W 0 0, ty := .ro, n := 4, stride := 0x10, m := 3, mstride := 0x4 },
  { fld := Reg.TSU_QLOST_COUNT 0, ty := .cnt, n := 4, stride := 0x4 },
  { fld := Reg.TSU_QLASTSEQ_SEQID 0, ty := .ro, n := 4, stride := 0x4 },
  { fld := Reg.TSU_TRIG_NS_NS 0, ty := .rwl, n := 16, stride := 0x20 },
  { fld := Reg.TSU_TRIG_SEC_SEC 0, ty := .rwl, n := 16, stride := 0x20 },
  { fld := Reg.TSU_TRIG_SECHI_SEC 0, ty := .rwl, n := 16, stride := 0x20 },
  { fld := Reg.TSU_TRIG_PER_PER 0, ty := .rwl, n := 16, stride := 0x20 }]

/-- The rows of the TSU registers, part 2. -/
def rowsTsu2 : List Row := [
  { fld := Reg.TSU_TRIG_CMD_ARM 0, ty := .cmd, n := 16, stride := 0x20 },
  { fld := Reg.TSU_TRIG_CMD_DISARM 0, ty := .cmd, n := 16, stride := 0x20 },
  { fld := Reg.TSU_TRIG_STAT_ARMED 0, ty := .ro, n := 16, stride := 0x20 },
  { fld := Reg.TSU_TRIG_STAT_FIRED 0, ty := .rc, n := 16, stride := 0x20 },
  { fld := Reg.TSU_TRIG_STAT_LATE 0, ty := .rc, n := 16, stride := 0x20 },
  { fld := Reg.TSU_TRIG_STAT_REASON 0, ty := .ro, n := 16, stride := 0x20 },
  { fld := Reg.TSU_TRIG_LAST_TS32 0, ty := .ro, n := 16, stride := 0x20 },
  { fld := Reg.TSU_CAP_CFG_EN 0, ty := .rws, n := 8, stride := 0x20 },
  { fld := Reg.TSU_CAP_CFG_SRC 0, ty := .rws, n := 8, stride := 0x20 },
  { fld := Reg.TSU_CAP_CFG_EDGE 0, ty := .rws, n := 8, stride := 0x20 },
  { fld := Reg.TSU_CAP_NS_TS32 0, ty := .ro, n := 8, stride := 0x20 },
  { fld := Reg.TSU_CAP_SEC_SEC 0, ty := .ro, n := 8, stride := 0x20 },
  { fld := Reg.TSU_CAP_SECHI_SEC 0, ty := .ro, n := 8, stride := 0x20 },
  { fld := Reg.TSU_CAP_STAT_NEW 0, ty := .rc, n := 8, stride := 0x20 },
  { fld := Reg.TSU_CAP_STAT_OVR 0, ty := .rc, n := 8, stride := 0x20 },
  { fld := Reg.TSU_CAP_CNT_COUNT 0, ty := .cnt, n := 8, stride := 0x20 }]

/-- The rows of the TSU registers. -/
def rowsTsu : List Row := rowsTsu1 ++ rowsTsu2

/-- The rows of the REF registers, part 1. -/
def rowsRef1 : List Row := [
  { fld := Reg.REF_CFG_ENABLE, ty := .rws },
  { fld := Reg.REF_CFG_REVERT, ty := .rws, rst := 1 },
  { fld := Reg.REF_CFG_QLMODE, ty := .rws, rst := 1 },
  { fld := Reg.REF_CFG_SSMOPT, ty := .rws },
  { fld := Reg.REF_STATUS_REASON, ty := .ro },
  { fld := Reg.REF_STATUS_SWEV, ty := .rc },
  { fld := Reg.REF_STATUS_QUALEV, ty := .rc },
  { fld := Reg.REF_STATUS_HOEV, ty := .rc },
  { fld := Reg.REF_STATUS_OCXOEV, ty := .rc },
  { fld := Reg.REF_STATUS_CNT_HALF, ty := .rc },
  { fld := Reg.REF_STATUS_FAREV, ty := .rc },
  { fld := Reg.REF_STATUS_STATE, ty := .ro },
  { fld := Reg.REF_STATUS_SEL, ty := .ro, rst := 7 },
  { fld := Reg.REF_STATUS_PEND, ty := .ro, rst := 7 },
  { fld := Reg.REF_STATUS_HISTVALID, ty := .ro },
  { fld := Reg.REF_STATUS_NOMON, ty := .ro },
  { fld := Reg.REF_STATUS_OCXO_WARM, ty := .ro },
  { fld := Reg.REF_STATUS_OSCIN_OK, ty := .ro },
  { fld := Reg.REF_INT_EN_EN, ty := .rwl },
  { fld := Reg.REF_CMD_REANCHOR, ty := .cmd },
  { fld := Reg.REF_CMD_SWITCHNOW, ty := .cmd },
  { fld := Reg.REF_CMDRES_REASON, ty := .ro },
  { fld := Reg.REF_CMDRES_VALID, ty := .ro },
  { fld := Reg.REF_LIMITS_SOFT, ty := .rws, rst := 0xFA0 }]

/-- The rows of the REF registers, part 2. -/
def rowsRef2 : List Row := [
  { fld := Reg.REF_LIMITS_HARD, ty := .rws, rst := 0x2710 },
  { fld := Reg.REF_TIMES_SOFT_TIME, ty := .rws, rst := 0x1E },
  { fld := Reg.REF_TIMES_WTR, ty := .rws, rst := 0x3C },
  { fld := Reg.REF_SLEW_PHASE, ty := .rws, rst := 0x3E8 },
  { fld := Reg.REF_SLEW_FSLOPE, ty := .rws, rst := 0x3E8 },
  { fld := Reg.REF_OCXO_FREQ, ty := .rws },
  { fld := Reg.REF_OCXO_USE_RDY, ty := .rws, rst := 1 },
  { fld := Reg.REF_OCXO_RDYPOL, ty := .rws },
  { fld := Reg.REF_OCXO_WARM_DLY, ty := .rws, rst := 0x3C },
  { fld := Reg.REF_HO_AVG, ty := .rws, rst := 0x12C },
  { fld := Reg.REF_HO_INSPEC, ty := .rws, rst := 0xE10 },
  { fld := Reg.REF_HOFREQ_FREQ, ty := .ro },
  { fld := Reg.REF_HOTIME_SEC, ty := .ro },
  { fld := Reg.REF_WTRLEFT_SEC, ty := .ro },
  { fld := Reg.REF_BOUT_NS, ty := .ro },
  { fld := Reg.REF_CAND_PRIO 0, ty := .rws, rst := 1 },
  { fld := Reg.REF_CAND_PRIO 1, ty := .rws, rst := 2 },
  { fld := Reg.REF_CAND_PRIO 2, ty := .rws },
  { fld := Reg.REF_CAND_PRIO 3, ty := .rws },
  { fld := Reg.REF_CAND_PRIO 4, ty := .rws },
  { fld := Reg.REF_CAND_PRIO 5, ty := .rws },
  { fld := Reg.REF_CAND_PRIO 6, ty := .rws, rst := 0xF },
  { fld := Reg.REF_CAND_QFIX 0, ty := .rws, rst := 0x68, n := 7, stride := 0x4 },
  { fld := Reg.REF_CAND_USEFIX 0, ty := .rws, n := 7, stride := 0x4 }]

/-- The rows of the REF registers, part 3. -/
def rowsRef3 : List Row := [
  { fld := Reg.REF_CAND_KIND 0, ty := .rws, rst := 1, n := 7, stride := 0x4 },
  { fld := Reg.REF_CAND_WCF 0, ty := .rws, rst := 2, n := 7, stride := 0x4 },
  { fld := Reg.REF_CSTAT_QCODE 0, ty := .ro, rst := 0xFF, n := 7, stride := 0x4 },
  { fld := Reg.REF_CSTAT_STATE 0, ty := .ro, n := 7, stride := 0x4 },
  { fld := Reg.REF_CSTAT_ELIG 0, ty := .ro, n := 7, stride := 0x4 },
  { fld := Reg.REF_CSTAT_HOLD 0, ty := .ro, n := 7, stride := 0x4 },
  { fld := Reg.REF_CSTAT_SSM 0, ty := .ro, rst := 0xF, n := 7, stride := 0x4 },
  { fld := Reg.REF_CFREQ_FREQ 0, ty := .ro, n := 7, stride := 0x4 },
  { fld := Reg.REF_SWCNT_COUNT, ty := .cnt },
  { fld := Reg.REF_HOCNT_COUNT, ty := .cnt },
  { fld := Reg.REF_DISQ_COUNT 0, ty := .cnt, n := 7, stride := 0x4 }]

/-- The rows of the REF registers. -/
def rowsRef : List Row := rowsRef1 ++ rowsRef2 ++ rowsRef3

/-- The rows of the SYN registers, part 1. -/
def rowsSyn1 : List Row := [
  { fld := Reg.SYN_CFG_ENABLE, ty := .rws },
  { fld := Reg.SYN_CFG_RATE96, ty := .rws },
  { fld := Reg.SYN_STATUS_REASON, ty := .ro },
  { fld := Reg.SYN_STATUS_LOCKEV, ty := .rc },
  { fld := Reg.SYN_STATUS_FAULTEV, ty := .rc },
  { fld := Reg.SYN_STATUS_FAMEV, ty := .rc },
  { fld := Reg.SYN_STATUS_CNT_HALF, ty := .rc },
  { fld := Reg.SYN_STATUS_RATE96_NOW, ty := .ro },
  { fld := Reg.SYN_STATUS_FAM_PEND, ty := .ro },
  { fld := Reg.SYN_INT_EN_EN, ty := .rwl },
  { fld := Reg.SYN_DCO_SEED, ty := .rws },
  { fld := Reg.SYN_CMD_CLRSLOTS, ty := .cmd },
  { fld := Reg.SYN_SLOT_BAND 0, ty := .ro, n := 8, stride := 0x4 },
  { fld := Reg.SYN_SLOT_TRIM 0, ty := .ro, n := 8, stride := 0x4 },
  { fld := Reg.SYN_SLOT_TEMP 0, ty := .ro, n := 8, stride := 0x4 },
  { fld := Reg.SYN_SLOT_VALID 0, ty := .ro, n := 8, stride := 0x4 },
  { fld := Reg.SYNX_CFG_EN 0, ty := .rws, n := 2, stride := 0x40 },
  { fld := Reg.SYNX_CFG_PLAN 0, ty := .rws, n := 2, stride := 0x40 },
  { fld := Reg.SYNX_CFG_LTHR 0, ty := .rws, rst := 0x30, n := 2, stride := 0x40 },
  { fld := Reg.SYNX_STAT_STATE 0, ty := .ro, n := 2, stride := 0x40 },
  { fld := Reg.SYNX_STAT_LOCK 0, ty := .ro, n := 2, stride := 0x40 },
  { fld := Reg.SYNX_STAT_ILOCK 0, ty := .ro, n := 2, stride := 0x40 },
  { fld := Reg.SYNX_STAT_CMP 0, ty := .ro, n := 2, stride := 0x40 },
  { fld := Reg.SYNX_STAT_LPFAULT 0, ty := .ro, n := 2, stride := 0x40 }]

/-- The rows of the SYN registers, part 2. -/
def rowsSyn2 : List Row := [
  { fld := Reg.SYNX_STAT_UNALIGNED 0, ty := .ro, n := 2, stride := 0x40 },
  { fld := Reg.SYNX_STAT_BAND 0, ty := .ro, n := 2, stride := 0x40 },
  { fld := Reg.SYNX_STAT_TRIM 0, ty := .ro, n := 2, stride := 0x40 },
  { fld := Reg.SYNX_CMD_RESEARCH 0, ty := .cmd, n := 2, stride := 0x40 },
  { fld := Reg.SYNX_CMD_REALIGN 0, ty := .cmd, n := 2, stride := 0x40 },
  { fld := Reg.SYNX_LOCKCNT_COUNT 0, ty := .cnt, n := 2, stride := 0x40 },
  { fld := Reg.SYNX_LOSCNT_COUNT 0, ty := .cnt, n := 2, stride := 0x40 },
  { fld := Reg.SYNX_GATETIME_US 0, ty := .ro, n := 2, stride := 0x40 },
  { fld := Reg.SYNX_FAILCNT_COUNT 0, ty := .cnt, n := 2, stride := 0x40 }]

/-- The rows of the SYN registers. -/
def rowsSyn : List Row := rowsSyn1 ++ rowsSyn2

/-- The rows of the OUT registers, part 1. -/
def rowsOut1 : List Row := [
  { fld := Reg.OUT_CFG_ENABLE, ty := .rws },
  { fld := Reg.OUT_STATUS_REASON, ty := .ro },
  { fld := Reg.OUT_STATUS_XFEV, ty := .rc },
  { fld := Reg.OUT_STATUS_SKIPEV, ty := .rc },
  { fld := Reg.OUT_STATUS_REJEV, ty := .rc },
  { fld := Reg.OUT_STATUS_CNT_HALF, ty := .rc },
  { fld := Reg.OUT_STATUS_ANCHOREV, ty := .rc },
  { fld := Reg.OUT_INT_EN_EN, ty := .rwl },
  { fld := Reg.OUT_CLKEN_EN, ty := .rwl },
  { fld := Reg.OUT_CLK_CFG_DIV 0, ty := .rws, rst := 0x80, n := 8, stride := 0x10 },
  { fld := Reg.OUT_CLK_CFG_SYN 0, ty := .rws, n := 8, stride := 0x10 },
  { fld := Reg.OUT_CLK_CFG_XFAIL 0, ty := .rws, n := 8, stride := 0x10 },
  { fld := Reg.OUT_CLK_CFG_REVERT 0, ty := .rws, rst := 1, n := 8, stride := 0x10 },
  { fld := Reg.OUT_CLK_DLY_COARSE 0, ty := .rws, n := 8, stride := 0x10 },
  { fld := Reg.OUT_CLK_DLY_FINE 0, ty := .rws, n := 8, stride := 0x10 },
  { fld := Reg.OUT_CLK_STAT_RUN 0, ty := .ro, n := 8, stride := 0x10 },
  { fld := Reg.OUT_CLK_STAT_ONSYN 0, ty := .ro, n := 8, stride := 0x10 },
  { fld := Reg.OUT_CLK_XFCNT_COUNT 0, ty := .cnt, n := 8, stride := 0x10 },
  { fld := Reg.OUT_FP_CFG_EN 0, ty := .rws, n := 4, stride := 0x40 },
  { fld := Reg.OUT_FP_CFG_SYN 0, ty := .rws, n := 4, stride := 0x40 },
  { fld := Reg.OUT_FP_CFG_MODE 0, ty := .rws, n := 4, stride := 0x40 },
  { fld := Reg.OUT_FP_CFG_START 0, ty := .rws, n := 4, stride := 0x40 },
  { fld := Reg.OUT_FP_CFG_POL 0, ty := .rws, n := 4, stride := 0x40 },
  { fld := Reg.OUT_FP_CFG_IEDGE 0, ty := .rws, n := 4, stride := 0x40 }]

/-- The rows of the OUT registers, part 2. -/
def rowsOut2 : List Row := [
  { fld := Reg.OUT_FP_CFG_TRIG 0, ty := .rws, n := 4, stride := 0x40 },
  { fld := Reg.OUT_FP_CFG_INSRC 0, ty := .rws, n := 4, stride := 0x40 },
  { fld := Reg.OUT_FP_PER_PER 0, ty := .rws, rst := 0x8000, n := 4, stride := 0x40 },
  { fld := Reg.OUT_FP_WIDTH_WIDTH 0, ty := .rws, rst := 0x4000, n := 4, stride := 0x40 },
  { fld := Reg.OUT_FP_OFF_OFFSET 0, ty := .rws, n := 4, stride := 0x40 },
  { fld := Reg.OUT_FP_FINE_FINE 0, ty := .rws, n := 4, stride := 0x40 },
  { fld := Reg.OUT_FP_FINE_WIN 0, ty := .rws, n := 4, stride := 0x40 },
  { fld := Reg.OUT_FP_CMD_ALIGN 0, ty := .cmd, n := 4, stride := 0x40 },
  { fld := Reg.OUT_FP_STAT_STATE 0, ty := .ro, n := 4, stride := 0x40 },
  { fld := Reg.OUT_FP_STAT_ANCHORED 0, ty := .ro, n := 4, stride := 0x40 },
  { fld := Reg.OUT_FP_ERR_NS 0, ty := .ro, n := 4, stride := 0x40 },
  { fld := Reg.OUT_FP_SKIP_COUNT 0, ty := .cnt, n := 4, stride := 0x40 },
  { fld := Reg.OUT_FP_REJ_COUNT 0, ty := .cnt, n := 4, stride := 0x40 }]

/-- The rows of the OUT registers. -/
def rowsOut : List Row := rowsOut1 ++ rowsOut2

/-- The rows of the TIM registers, part 1. -/
def rowsTim1 : List Row := [
  { fld := Reg.TIM_CFG_ENABLE, ty := .rws },
  { fld := Reg.TIM_STATUS_REASON, ty := .ro },
  { fld := Reg.TIM_STATUS_DONEEV, ty := .rc },
  { fld := Reg.TIM_STATUS_CALEV, ty := .rc },
  { fld := Reg.TIM_STATUS_PLLEV, ty := .rc },
  { fld := Reg.TIM_STATUS_CNT_HALF, ty := .rc },
  { fld := Reg.TIM_STATUS_CAL, ty := .ro },
  { fld := Reg.TIM_STATUS_PLLSRC, ty := .ro },
  { fld := Reg.TIM_STATUS_PLLLOCK, ty := .ro },
  { fld := Reg.TIM_STATUS_COLD, ty := .ro, rst := 1 },
  { fld := Reg.TIM_INT_EN_EN, ty := .rwl },
  { fld := Reg.TIM_DONE_EV_EV, ty := .rwl },
  { fld := Reg.TIM_CALDNL_DNL, ty := .ro },
  { fld := Reg.TIM_CALCNT_COUNT, ty := .cnt },
  { fld := Reg.TIM_IN_VTH 0, ty := .rws, rst := 0x78, n := 18, stride := 0x4 },
  { fld := Reg.TIM_IN_HYST 0, ty := .rws, rst := 4, n := 18, stride := 0x4 },
  { fld := Reg.TIM_IN_HOLDOFF 0, ty := .rws, n := 18, stride := 0x4 },
  { fld := Reg.TIM_SKEW_SKEW 0, ty := .rws, n := 18, stride := 0x4 },
  { fld := Reg.TIM_HOCNT_COUNT 0, ty := .cnt, n := 18, stride := 0x4 },
  { fld := Reg.TIM_UCFG_EN 0, ty := .ro, n := 5, stride := 0x40 },
  { fld := Reg.TIM_UCFG_EN 5, ty := .rws, n := 7, stride := 0x40 },
  { fld := Reg.TIM_UCFG_MODE 0, ty := .ro, n := 5, stride := 0x40 },
  { fld := Reg.TIM_UCFG_MODE 5, ty := .rws, n := 7, stride := 0x40 },
  { fld := Reg.TIM_UCFG_CONT 0, ty := .ro, rst := 1, n := 5, stride := 0x40 },
  { fld := Reg.TIM_UCFG_CONT 5, ty := .rws, rst := 1, n := 7, stride := 0x40 },
  { fld := Reg.TIM_UCFG_SSEDGE 0, ty := .ro, n := 5, stride := 0x40 },
  { fld := Reg.TIM_UCFG_SSEDGE 5, ty := .rws, n := 7, stride := 0x40 },
  { fld := Reg.TIM_UCFG_PEDGE 0, ty := .ro, n := 5, stride := 0x40 },
  { fld := Reg.TIM_UCFG_PEDGE 5, ty := .rws, n := 7, stride := 0x40 }]

/-- The rows of the TIM registers, part 2. -/
def rowsTim2 : List Row := [
  { fld := Reg.TIM_UCFG_OWNER 0, ty := .ro, n := 5, stride := 0x40 },
  { fld := Reg.TIM_UCFG_OWNER 5, ty := .rws, n := 7, stride := 0x40 },
  { fld := Reg.TIM_UCFG_NSTOP 0, ty := .ro, rst := 1, n := 5, stride := 0x40 },
  { fld := Reg.TIM_UCFG_NSTOP 5, ty := .rws, rst := 1, n := 7, stride := 0x40 },
  { fld := Reg.TIM_UCFG_STATSTOP 0, ty := .ro, rst := 1, n := 5, stride := 0x40 },
  { fld := Reg.TIM_UCFG_STATSTOP 5, ty := .rws, rst := 1, n := 7, stride := 0x40 },
  { fld := Reg.TIM_USRC_START 0, ty := .ro, n := 5, stride := 0x40 },
  { fld := Reg.TIM_USRC_START 5, ty := .rws, n := 7, stride := 0x40 },
  { fld := Reg.TIM_USRC_STOP 0, ty := .ro, n := 5, stride := 0x40 },
  { fld := Reg.TIM_USRC_STOP 5, ty := .rws, n := 7, stride := 0x40 },
  { fld := Reg.TIM_UN_N 0, ty := .ro, rst := 1, n := 5, stride := 0x40 },
  { fld := Reg.TIM_UN_N 5, ty := .rws, rst := 1, n := 7, stride := 0x40 },
  { fld := Reg.TIM_UTMO_TIME 0, ty := .ro, rst := 0x7D, n := 5, stride := 0x40 },
  { fld := Reg.TIM_UTMO_TIME 5, ty := .rws, rst := 0x7D, n := 7, stride := 0x40 },
  { fld := Reg.TIM_UNOM_NOM 0, ty := .ro, n := 5, stride := 0x40 },
  { fld := Reg.TIM_UNOM_NOM 5, ty := .rws, n := 7, stride := 0x40 },
  { fld := Reg.TIM_URES_COUNT 0, ty := .ro, n := 12, stride := 0x40 },
  { fld := Reg.TIM_URES_COLD 0, ty := .ro, n := 12, stride := 0x40 },
  { fld := Reg.TIM_URES_UNCAL 0, ty := .ro, n := 12, stride := 0x40 },
  { fld := Reg.TIM_URES_VALID 0, ty := .ro, n := 12, stride := 0x40 },
  { fld := Reg.TIM_URES_STATE 0, ty := .ro, n := 12, stride := 0x40 },
  { fld := Reg.TIM_UMEANL_MEAN 0, ty := .ro, n := 12, stride := 0x40 },
  { fld := Reg.TIM_UMEANH_MEAN 0, ty := .ro, n := 12, stride := 0x40 },
  { fld := Reg.TIM_USDEV_SDEV 0, ty := .ro, n := 12, stride := 0x40 },
  { fld := Reg.TIM_UMIN_MIN 0, ty := .ro, n := 12, stride := 0x40 },
  { fld := Reg.TIM_UMAX_MAX 0, ty := .ro, n := 12, stride := 0x40 },
  { fld := Reg.TIM_UTICK_TICK 0, ty := .ro, n := 12, stride := 0x40 },
  { fld := Reg.TIM_UMISS_COUNT 0, ty := .cnt, n := 12, stride := 0x40 },
  { fld := Reg.TIM_UBLK_COUNT 0, ty := .cnt, n := 12, stride := 0x40 },
  { fld := Reg.TIM_UCMD_RESTART 0, ty := .cmd, n := 12, stride := 0x40 },
  { fld := Reg.TIM_ULS_STOPS 0, ty := .ro, n := 12, stride := 0x40 },
  { fld := Reg.TIM_ULS_COLD 0, ty := .ro, n := 12, stride := 0x40 }]

/-- The rows of the TIM registers, part 3. -/
def rowsTim3 : List Row := [
  { fld := Reg.TIM_ULS_UNCAL 0, ty := .ro, n := 12, stride := 0x40 },
  { fld := Reg.TIM_ULS_COMPLETE 0, ty := .ro, n := 12, stride := 0x40 },
  { fld := Reg.TIM_ULAST_TIME 0 0, ty := .ro, n := 12, stride := 0x40, m := 15, mstride := 0x4 }]

/-- The rows of the TIM registers. -/
def rowsTim : List Row := rowsTim1 ++ rowsTim2 ++ rowsTim3

/-- The rows of the HRT registers, part 1. -/
def rowsHrt1 : List Row := [
  { fld := Reg.HRT_CFG_ENABLE, ty := .rws },
  { fld := Reg.HRT_CFG_MODE, ty := .rws },
  { fld := Reg.HRT_CFG_PREF, ty := .rws },
  { fld := Reg.HRT_CFG_SPARE, ty := .rws, rst := 0xFF },
  { fld := Reg.HRT_STATUS_REASON, ty := .ro },
  { fld := Reg.HRT_STATUS_TKEV, ty := .rc },
  { fld := Reg.HRT_STATUS_HSTEV, ty := .rc },
  { fld := Reg.HRT_STATUS_SWAPEV, ty := .rc },
  { fld := Reg.HRT_STATUS_EMBEV, ty := .rc },
  { fld := Reg.HRT_STATUS_CNT_HALF, ty := .rc },
  { fld := Reg.HRT_STATUS_ACTIVE, ty := .ro },
  { fld := Reg.HRT_STATUS_STATE_A, ty := .ro },
  { fld := Reg.HRT_STATUS_STATE_B, ty := .ro },
  { fld := Reg.HRT_STATUS_SUSPECT_A, ty := .ro },
  { fld := Reg.HRT_STATUS_SUSPECT_B, ty := .ro },
  { fld := Reg.HRT_STATUS_SWAPPEND, ty := .ro },
  { fld := Reg.HRT_STATUS_TAKEN, ty := .ro },
  { fld := Reg.HRT_INT_EN_EN, ty := .rwl },
  { fld := Reg.HRT_CMD_SWAP, ty := .cmd },
  { fld := Reg.HRT_CMD_RESTORE, ty := .cmd },
  { fld := Reg.HRT_CMD_CLRSUSPECT, ty := .cmd },
  { fld := Reg.HRT_CMDRES_REASON, ty := .ro },
  { fld := Reg.HRT_CMDRES_VALID, ty := .ro },
  { fld := Reg.HRT_PROOF_HRS, ty := .rws }]

/-- The rows of the HRT registers, part 2. -/
def rowsHrt2 : List Row := [
  { fld := Reg.HRT_PROOF_WIN, ty := .rws, rst := 0x1F40 },
  { fld := Reg.HRT_TKTICK_TICK, ty := .ro },
  { fld := Reg.HRT_TKINFO_CAUSE, ty := .ro },
  { fld := Reg.HRT_TKINFO_FROM, ty := .ro },
  { fld := Reg.HRT_TKINFO_SKIP, ty := .ro },
  { fld := Reg.HRT_TKINFO_SWAP, ty := .ro },
  { fld := Reg.HRT_ESEQ_SEQ, ty := .ro },
  { fld := Reg.HRT_ETIME_NS, ty := .ro },
  { fld := Reg.HRT_LASTSWAP_TICK, ty := .ro },
  { fld := Reg.HRT_TKCNT_COUNT, ty := .cnt },
  { fld := Reg.HRT_SWAPCNT_COUNT, ty := .cnt },
  { fld := Reg.HRT_SWAPFAIL_COUNT, ty := .cnt },
  { fld := Reg.HRT_ECRCERR_COUNT, ty := .cnt },
  { fld := Reg.HRT_ETORN_COUNT, ty := .cnt },
  { fld := Reg.HRT_ECOPIES_COUNT, ty := .cnt }]

/-- The rows of the HRT registers. -/
def rowsHrt : List Row := rowsHrt1 ++ rowsHrt2

/-- The rows of the ALM registers, part 1. -/
def rowsAlm1 : List Row := [
  { fld := Reg.ALM_CFG_ENABLE, ty := .rws },
  { fld := Reg.ALM_CFG_STAND_EN, ty := .rws, rst := 1 },
  { fld := Reg.ALM_CFG_BOOTSTART, ty := .rws, rst := 1 },
  { fld := Reg.ALM_STATUS_REASON, ty := .ro },
  { fld := Reg.ALM_STATUS_ALMEV, ty := .rc },
  { fld := Reg.ALM_STATUS_WDEV, ty := .rc },
  { fld := Reg.ALM_STATUS_SPEV, ty := .rc },
  { fld := Reg.ALM_STATUS_FAULTEV, ty := .rc },
  { fld := Reg.ALM_STATUS_SURVEV, ty := .rc },
  { fld := Reg.ALM_STATUS_CNT_HALF, ty := .rc },
  { fld := Reg.ALM_STATUS_ALARM, ty := .ro },
  { fld := Reg.ALM_STATUS_WD, ty := .ro },
  { fld := Reg.ALM_INT_EN_EN, ty := .rwl },
  { fld := Reg.ALM_CMD_ACK, ty := .cmd },
  { fld := Reg.ALM_CMD_START, ty := .cmd },
  { fld := Reg.ALM_CMD_RELEASE, ty := .cmd },
  { fld := Reg.ALM_CMDRES_REASON, ty := .ro },
  { fld := Reg.ALM_CMDRES_VALID, ty := .ro },
  { fld := Reg.ALM_INCFG_EN, ty := .rws },
  { fld := Reg.ALM_INCFG_POL, ty := .rws },
  { fld := Reg.ALM_INCFG_LATCH, ty := .rws, rst := 0xF },
  { fld := Reg.ALM_INCFG_DEBOUNCE, ty := .rws, rst := 0x14 },
  { fld := Reg.ALM_INSTAT_PIN, ty := .ro },
  { fld := Reg.ALM_INSTAT_ACTIVE, ty := .ro }]

/-- The rows of the ALM registers, part 2. -/
def rowsAlm2 : List Row := [
  { fld := Reg.ALM_INSTAT_LATCHED, ty := .ro },
  { fld := Reg.ALM_WDCFG_TIMEOUT, ty := .rws, rst := 0x7D0 },
  { fld := Reg.ALM_WDCFG_GRACE, ty := .rws, rst := 0x7D0 },
  { fld := Reg.ALM_WDKICK_KICK, ty := .cmd },
  { fld := Reg.ALM_WDLAST_TICK, ty := .ro },
  { fld := Reg.ALM_SPSTAT_STATE, ty := .ro },
  { fld := Reg.ALM_SPSTAT_REASON, ty := .ro },
  { fld := Reg.ALM_SPSTAT_NJOBS, ty := .ro },
  { fld := Reg.ALM_SPTICK_TICK, ty := .ro },
  { fld := Reg.ALM_SCFG_FAILN, ty := .rws, rst := 5 },
  { fld := Reg.ALM_SCFG_CLEARN, ty := .rws, rst := 3 },
  { fld := Reg.ALM_SCFG_CMIN, ty := .rws, rst := 0x5A },
  { fld := Reg.ALM_SCFG_ENABLE, ty := .rws },
  { fld := Reg.ALM_SCFG_PILOT_AFTER, ty := .rws, rst := 0x14 },
  { fld := Reg.ALM_SCFG_VERIFY_MAX, ty := .rws, rst := 0x5A },
  { fld := Reg.ALM_PILOT_FREQ, ty := .rws, rst := 0x4E20 },
  { fld := Reg.ALM_PILOT_LEVEL, ty := .rws, rst := 0x24 },
  { fld := Reg.ALM_FAULT_FAULT, ty := .ro },
  { fld := Reg.ALM_FAULTLAT_FAULT, ty := .rc },
  { fld := ⟨0xB040, 1, 0⟩, ty := .rws },
  { fld := ⟨0xB040, 7, 5⟩, ty := .rws },
  { fld := ⟨0xB040, 10, 9⟩, ty := .rws },
  { fld := Reg.ALM_AMP_EN 0, ty := .rws, n := 7, stride := 0x4 },
  { fld := Reg.ALM_AMP_SRC 0, ty := .rws, n := 7, stride := 0x4 },
  { fld := Reg.ALM_AMP_MON 0, ty := .rws, n := 7, stride := 0x4 },
  { fld := Reg.ALM_AMP_FAULT 0, ty := .ro, n := 7, stride := 0x4 }]

/-- The rows of the ALM registers, part 3. -/
def rowsAlm3 : List Row := [
  { fld := Reg.ALM_ALARMCNT_COUNT, ty := .cnt },
  { fld := Reg.ALM_WDLATECNT_COUNT, ty := .cnt },
  { fld := Reg.ALM_SPSTARTCNT_COUNT, ty := .cnt },
  { fld := Reg.ALM_LINEFAULTCNT_COUNT, ty := .cnt },
  { fld := Reg.ALM_SOUTC_OUTCOME0 0, ty := .ro, n := 32, stride := 0x4 },
  { fld := Reg.ALM_SOUTC_OUTCOME1 0, ty := .ro, n := 32, stride := 0x4 },
  { fld := Reg.ALM_SOUTC_OVRUN0 0, ty := .ro, n := 32, stride := 0x4 },
  { fld := Reg.ALM_SOUTC_OVRUN1 0, ty := .ro, n := 32, stride := 0x4 },
  { fld := Reg.ALM_SOUTC_REASON0 0, ty := .ro, n := 32, stride := 0x4 },
  { fld := Reg.ALM_SOUTC_REASON1 0, ty := .ro, n := 32, stride := 0x4 },
  { fld := Reg.ALM_ZCFG_EN 0, ty := .rws, n := 128, stride := 0x10 },
  { fld := Reg.ALM_ZCFG_PILOT_EN 0, ty := .rws, rst := 1, n := 128, stride := 0x10 },
  { fld := Reg.ALM_ZCFG_LOUT 0, ty := .rws, n := 128, stride := 0x10 },
  { fld := Reg.ALM_ZCFG_SENSE 0, ty := .rws, n := 128, stride := 0x10 },
  { fld := Reg.ALM_ZLIM_GLO 0, ty := .rws, rst := 0x800, n := 128, stride := 0x10 },
  { fld := Reg.ALM_ZLIM_GHI 0, ty := .rws, rst := 0x1800, n := 128, stride := 0x10 },
  { fld := Reg.ALM_ZPLIM_PLO 0, ty := .rws, rst := 0x800, n := 128, stride := 0x10 },
  { fld := Reg.ALM_ZPLIM_PHI 0, ty := .rws, rst := 0x1800, n := 128, stride := 0x10 },
  { fld := Reg.ALM_ZSTAT_STATE 0, ty := .ro, n := 128, stride := 0x4 },
  { fld := Reg.ALM_ZSTAT_KIND 0, ty := .ro, n := 128, stride := 0x4 },
  { fld := Reg.ALM_ZSTAT_PILOT 0, ty := .ro, n := 128, stride := 0x4 },
  { fld := Reg.ALM_ZSTAT_RUN 0, ty := .ro, n := 128, stride := 0x4 },
  { fld := Reg.ALM_ZSTAT_GAIN 0, ty := .ro, n := 128, stride := 0x4 }]

/-- The rows of the ALM registers. -/
def rowsAlm : List Row := rowsAlm1 ++ rowsAlm2 ++ rowsAlm3

/-- The rows of the PWR registers, part 1. -/
def rowsPwr1 : List Row := [
  { fld := Reg.PWR_CFG_MAXSTATE, ty := .rws },
  { fld := Reg.PWR_CFG_AVS_EN, ty := .rws, rst := 1 },
  { fld := Reg.PWR_STATUS_REASON, ty := .ro },
  { fld := Reg.PWR_STATUS_PSTEV, ty := .rc },
  { fld := Reg.PWR_STATUS_AVSEV, ty := .rc },
  { fld := Reg.PWR_STATUS_KEV, ty := .rc },
  { fld := Reg.PWR_STATUS_CNT_HALF, ty := .rc },
  { fld := Reg.PWR_STATUS_STATE, ty := .ro },
  { fld := Reg.PWR_STATUS_TARGET, ty := .ro },
  { fld := Reg.PWR_INT_EN_EN, ty := .rwl },
  { fld := Reg.PWR_LTR_US, ty := .rwl },
  { fld := Reg.PWR_CMD_WAKE, ty := .cmd },
  { fld := Reg.PWR_CMD_COMMITVER, ty := .cmd },
  { fld := Reg.PWR_KSTAT_STEP, ty := .ro },
  { fld := Reg.PWR_KSTAT_DONE, ty := .ro },
  { fld := Reg.PWR_KSTAT_IMAGE, ty := .ro },
  { fld := Reg.PWR_KSTAT_FALLBACK, ty := .ro },
  { fld := Reg.PWR_KSTAT_DEVKEY, ty := .ro },
  { fld := Reg.PWR_KSTAT_CFGREF, ty := .ro },
  { fld := Reg.PWR_KSTAT_TBLBAK, ty := .ro },
  { fld := Reg.PWR_KSTAT_REASON, ty := .ro },
  { fld := Reg.PWR_KTIME_MS, ty := .ro },
  { fld := Reg.PWR_SECMIN_VER, ty := .ro },
  { fld := Reg.PWR_SECVER_VER, ty := .ro }]

/-- The rows of the PWR registers, part 2. -/
def rowsPwr2 : List Row := [
  { fld := Reg.PWR_AVS_VREQ 0, ty := .ro, rst := 0x2EE, n := 3, stride := 0x4 },
  { fld := Reg.PWR_AVS_VREAD 0, ty := .ro, n := 3, stride := 0x4 },
  { fld := Reg.PWR_AVS_ERR 0, ty := .ro, n := 3, stride := 0x4 },
  { fld := Reg.PWR_AVSCFG_VMIN, ty := .rws, rst := 0x2BC },
  { fld := Reg.PWR_AVSCFG_VMAX, ty := .rws, rst := 0x352 },
  { fld := Reg.PWR_AVSRAIL_CORE, ty := .rws },
  { fld := Reg.PWR_AVSRAIL_A, ty := .rws, rst := 1 },
  { fld := Reg.PWR_AVSRAIL_B, ty := .rws, rst := 2 },
  { fld := Reg.PWR_AVSERR_COUNT, ty := .cnt },
  { fld := Reg.PWR_DEEPCNT_COUNT, ty := .cnt }]

/-- The rows of the PWR registers. -/
def rowsPwr : List Row := rowsPwr1 ++ rowsPwr2

/-- The rows of the AGE registers, part 1. -/
def rowsAge1 : List Row := [
  { fld := Reg.AGE_CFG_ENABLE, ty := .rws },
  { fld := Reg.AGE_CFG_APPLY, ty := .rws, rst := 1 },
  { fld := Reg.AGE_CFG_MARGIN_EN, ty := .rws, rst := 1 },
  { fld := Reg.AGE_CFG_UPSTEP, ty := .rws, rst := 1 },
  { fld := Reg.AGE_CFG_DAYS, ty := .rws, rst := 0x1E },
  { fld := Reg.AGE_CFG_TALERT, ty := .rws, rst := 0x64 },
  { fld := Reg.AGE_STATUS_REASON, ty := .ro },
  { fld := Reg.AGE_STATUS_MRGEV, ty := .rc },
  { fld := Reg.AGE_STATUS_AGEEV, ty := .rc },
  { fld := Reg.AGE_STATUS_TEMPEV, ty := .rc },
  { fld := Reg.AGE_STATUS_CNT_HALF, ty := .rc },
  { fld := Reg.AGE_STATUS_VALID, ty := .ro },
  { fld := Reg.AGE_INT_EN_EN, ty := .rwl },
  { fld := Reg.AGE_MCFG_CRIT, ty := .rws, rst := 0xF },
  { fld := Reg.AGE_MCFG_LOW, ty := .rws, rst := 0x28 },
  { fld := Reg.AGE_MCFG_HIGH, ty := .rws, rst := 0x78 },
  { fld := Reg.AGE_CMD_CLRHIST, ty := .cmd },
  { fld := Reg.AGE_MARGIN 0, ty := .ro, rst := 0xFF, n := 3, stride := 0x4 },
  { fld := Reg.AGE_TEMP_A, ty := .ro },
  { fld := Reg.AGE_TEMP_B, ty := .ro },
  { fld := Reg.AGE_TEMP_CORE, ty := .ro },
  { fld := Reg.AGE_TEMP_MAX, ty := .ro },
  { fld := Reg.AGE_OCXORATE_RATE, ty := .ro },
  { fld := Reg.AGE_OCXOFREQ_FREQ, ty := .ro }]

/-- The rows of the AGE registers, part 2. -/
def rowsAge2 : List Row := [
  { fld := Reg.AGE_CORR_CORR, ty := .ro },
  { fld := Reg.AGE_NDAYS_COUNT, ty := .ro },
  { fld := Reg.AGE_DEG 0, ty := .ro, n := 3, stride := 0x4 },
  { fld := Reg.AGE_HOURS_COUNT, ty := .ro },
  { fld := Reg.AGE_HOTHOURS_COUNT, ty := .ro },
  { fld := Reg.AGE_CSTEPCNT_COUNT, ty := .cnt },
  { fld := Reg.AGE_VSTEPCNT_COUNT, ty := .cnt }]

/-- The rows of the AGE registers. -/
def rowsAge : List Row := rowsAge1 ++ rowsAge2

/-- The rows of the HOT registers. -/
def rowsHot : List Row := [
  { fld := Reg.HOT_CFG_EJECT_DLY, ty := .rws, rst := 0x1F4 },
  { fld := Reg.HOT_CFG_SAFE_IN_ALARM, ty := .rws },
  { fld := Reg.HOT_STATUS_REASON, ty := .ro },
  { fld := Reg.HOT_STATUS_HOTEV, ty := .rc },
  { fld := Reg.HOT_STATUS_STATE, ty := .ro },
  { fld := Reg.HOT_STATUS_PRSNT, ty := .ro },
  { fld := Reg.HOT_STATUS_EJECT, ty := .ro },
  { fld := Reg.HOT_INT_EN_EN, ty := .rwl },
  { fld := Reg.HOT_CMD_SAFE, ty := .cmd },
  { fld := Reg.HOT_CMD_RESUME, ty := .cmd },
  { fld := Reg.HOT_EJCNT_COUNT, ty := .cnt }]

/-- The rows of the DUMP registers. -/
def rowsDump : List Row := [
  { fld := Reg.DUMP_CFG_MASK, ty := .rws, rst := 0x3B },
  { fld := Reg.DUMP_CFG_AUTOSAVE, ty := .rws, rst := 1 },
  { fld := Reg.DUMP_STATUS_REASON, ty := .ro },
  { fld := Reg.DUMP_STATUS_CAPEV, ty := .rc },
  { fld := Reg.DUMP_STATUS_SAVEEV, ty := .rc },
  { fld := Reg.DUMP_STATUS_OVER, ty := .rc },
  { fld := Reg.DUMP_STATUS_CNT_HALF, ty := .rc },
  { fld := Reg.DUMP_STATUS_BUSY, ty := .ro },
  { fld := Reg.DUMP_INT_EN_EN, ty := .rwl },
  { fld := Reg.DUMP_CMD_TRIGGER, ty := .cmd },
  { fld := Reg.DUMP_CMD_FETCH, ty := .cmd },
  { fld := Reg.DUMP_CMD_RELEASE, ty := .cmd },
  { fld := Reg.DUMP_FETCH_REC, ty := .rwl },
  { fld := Reg.DUMP_RDADDR_ADDR, ty := .rwl },
  { fld := Reg.DUMP_RDDATA_DATA, ty := .ro },
  { fld := Reg.DUMP_LAST_SEQ, ty := .ro },
  { fld := Reg.DUMP_NREC_COUNT, ty := .ro },
  { fld := Reg.DUMP_NREC_CAP, ty := .ro },
  { fld := Reg.DUMP_CNT_COUNT, ty := .cnt },
  { fld := Reg.DUMP_LOSTCNT_COUNT, ty := .cnt }]

/-- The rows of the ID/HIF registers, part 1. -/
def rowsIdHif1 : List Row := [
  { fld := Reg.HIF_ID_ID, ty := .ro, rst := 0x51581024 },
  { fld := Reg.HIF_REV_STEP, ty := .ro, rst := 0x10 },
  { fld := Reg.HIF_REV_ROM, ty := .ro, rst := 1 },
  { fld := Reg.HIF_SERIAL0_SN, ty := .ro },
  { fld := Reg.HIF_SERIAL1_SN, ty := .ro },
  { fld := Reg.HIF_PCIID_VENDOR, ty := .ro },
  { fld := Reg.HIF_PCIID_DEVICE, ty := .ro, rst := 0x1024 },
  { fld := Reg.HIF_CFG_ATOM, ty := .rwl },
  { fld := Reg.HIF_CFG_DUMMY, ty := .rwl, rst := 8 },
  { fld := Reg.HIF_STATUS_OWNEV, ty := .rc },
  { fld := Reg.HIF_STATUS_CLAIMEV, ty := .rc },
  { fld := Reg.HIF_STATUS_MBDONE, ty := .rc },
  { fld := Reg.HIF_STATUS_SPIERR, ty := .rc },
  { fld := Reg.HIF_STATUS_SPILATE, ty := .rc },
  { fld := Reg.HIF_STATUS_WRLOST, ty := .rc },
  { fld := Reg.HIF_STATUS_LINKEV, ty := .rc },
  { fld := Reg.HIF_STATUS_CNT_HALF, ty := .rc },
  { fld := Reg.HIF_STATUS_OWNER, ty := .ro },
  { fld := Reg.HIF_STATUS_CLAIM, ty := .ro },
  { fld := Reg.HIF_STATUS_PCIE_UP, ty := .ro },
  { fld := Reg.HIF_STATUS_PCIE_SPEED, ty := .ro },
  { fld := Reg.HIF_STATUS_PCIE_WIDTH, ty := .ro },
  { fld := Reg.HIF_STATUS_HOST_SEL, ty := .ro },
  { fld := Reg.HIF_INT_EN_EN, ty := .rwl }]

/-- The rows of the ID/HIF registers, part 2. -/
def rowsIdHif2 : List Row := [
  { fld := Reg.HIF_OWN_OWNER, ty := .hrw },
  { fld := Reg.HIF_OWNREQ_CLAIM, ty := .cmd },
  { fld := Reg.HIF_OWNREQ_DENY, ty := .cmd },
  { fld := Reg.HIF_OWNCFG_CLAIM_MS, ty := .rws, rst := 0x3E8 },
  { fld := Reg.HIF_OWNCNT_COUNT, ty := .cnt },
  { fld := Reg.HIF_SPIERRCNT_COUNT, ty := .cnt },
  { fld := Reg.HIF_MBCMD_OP, ty := .rwl },
  { fld := Reg.HIF_MBCMD_GO, ty := .cmd },
  { fld := Reg.HIF_MBRES_REASON, ty := .ro },
  { fld := Reg.HIF_MBRES_OP, ty := .ro },
  { fld := Reg.HIF_MBRES_REFUSED, ty := .ro },
  { fld := Reg.HIF_MBRES_VALID, ty := .ro },
  { fld := Reg.HIF_MBDATA_DATA 0, ty := .hrw, n := 16, stride := 0x4 },
  { fld := Reg.HIF_SCRATCH_DATA, ty := .rwl }]

/-- The rows of the ID/HIF registers. -/
def rowsIdHif : List Row := rowsIdHif1 ++ rowsIdHif2

/-- The register table of the control block that holds host offset `a` (R521). -/
def rowsOf (a : Nat) : List Row :=
  if a < 0x1000 then rowsIdHif else
  if a < 0x2000 then rowsCmt else
  if a < 0x3000 then rowsLock else
  if a < 0x4000 then rowsInt else
  if a < 0x5000 then rowsPwr else
  if a < 0x6000 then rowsAge else
  if a < 0x7000 then rowsHot else
  if a < 0x8000 then rowsDump else
  if a < 0x9000 then rowsSch else
  if a < 0xA000 then rowsPguAndAlc else
  if a < 0xB000 then rowsHrt else
  if a < 0xC000 then rowsAlm else
  if a < 0xD000 then rowsFlw else
  if a < 0xE000 then rowsTdmAndSrc else
  if a < 0x10000 then [] else
  if a < 0x12000 then rowsMac0AndMac1 else
  if a < 0x13000 then rowsMacc else
  if a < 0x14000 then [] else
  if a < 0x15000 then rowsPtp else
  if a < 0x16000 then rowsTsu else
  if a < 0x17000 then rowsRef else
  if a < 0x18000 then rowsSyn else
  if a < 0x19000 then rowsOut else
  if a < 0x1A000 then rowsTim else
  if a < 0x20000 then [] else
  if a < 0x40000 then rowsEngineControl else
  []

/-- The block index (table "Block index" of spec/02) of the control block at host offset `a`; 25 where there is none. -/
def blockOf (a : Nat) : Nat :=
  if a < 0x1000 then 0 else
  if a < 0x2000 then 22 else
  if a < 0x3000 then 23 else
  if a < 0x4000 then 24 else
  if a < 0x5000 then 1 else
  if a < 0x6000 then 2 else
  if a < 0x7000 then 3 else
  if a < 0x8000 then 4 else
  if a < 0x9000 then 5 else
  if a < 0xA000 then 6 else
  if a < 0xB000 then 7 else
  if a < 0xC000 then 8 else
  if a < 0xD000 then 9 else
  if a < 0xE000 then 10 else
  if a < 0x10000 then 25 else
  if a < 0x11000 then 11 else
  if a < 0x12000 then 12 else
  if a < 0x13000 then 13 else
  if a < 0x14000 then 25 else
  if a < 0x15000 then 14 else
  if a < 0x16000 then 15 else
  if a < 0x17000 then 16 else
  if a < 0x18000 then 17 else
  if a < 0x19000 then 18 else
  if a < 0x1A000 then 19 else
  if a < 0x20000 then 25 else
  if a < 0x30000 then 20 else
  if a < 0x40000 then 21 else
  25

/-- The rows that cover the register word at `a`. -/
def rowsAt (a : Nat) : List Row := (rowsOf a).filter (Row.covers · a)

/-- The reset entries of the slot maps of TDM port `n` (spec/08: EN 1, indices 16n + 2i and 16n + 2i + 1). -/
def tdmMapReset (a : Nat) : Nat :=
  let d := a - 0xD400
  let n := d / 0x80
  let r := d % 0x80
  let i := if r < 0x30 then (r - 0x10) / 4 else (r - 0x30) / 4
  if 0xD400 ≤ a ∧ a < 0xDC00 ∧ 0x10 ≤ r ∧ r < 0x50 then
    (0x100 + 16 * n + 2 * i) + (0x100 + 16 * n + 2 * i + 1) * 0x10000
  else 0

/-- The value of the register word at `a` when PORST_N is released (R4). -/
def resetWord (a : Nat) : Word :=
  BitVec.ofNat 32 (((rowsAt a).foldl (fun acc r => acc + r.rst * 2 ^ r.fld.lo) 0) + tdmMapReset a)

/-- The bits of the word at `a` whose fields satisfy `p`. -/
def maskOf (p : Ty → Bool) (a : Nat) : Word :=
  (rowsAt a).foldl (fun acc r => if p r.ty then acc ||| r.fld.mask else acc) 0

/-- The RWS bits of the word at `a`. -/
def rwsMask (a : Nat) : Word := maskOf (· == .rws) a

end Sys2Proof.Machine
end

