-- ==== Sys2Proof/Machine/State.lean ====
section
/-! DEFINITION. The state of the block: every register (the live and shadow copies of the register file, keyed by host
offset), and the state the spec implies beyond them, block by block; the queue of waiting commands; the reset state. -/
namespace Sys2Proof.Machine

/-! ### Register fabric (spec/02) -/

/-- One event of the event FIFO (R71). -/
structure Event where
  src : Nat
  code : Nat
  seq : Nat
  tick : Nat
  arg : Nat
  deriving DecidableEq, Repr

/-- The event FIFO (R71 to R74) and the events posted in the current fabric cycle, not yet entered. -/
structure Evq where
  /-- Entries, oldest first; at most 512. -/
  q : List Event := []
  /-- The next sequence number, counting posted and lost events. -/
  seq : Nat := 0
  /-- INT_EVQ_LOST. -/
  lostCount : Nat := 0
  /-- Events lost and not yet reported by an EVQ_LOST entry. -/
  lostPend : Nat := 0
  /-- INT_STAT.OVF. -/
  ovf : Bool := false
  /-- Events of this fabric cycle as (source, code, argument), in posting order. -/
  posts : List (Nat × Nat × Nat) := []
  deriving DecidableEq, Repr

/-- The interrupt outputs (R69, R70). -/
structure Intr where
  /-- Vectors whose condition is 1 now. -/
  cond : List Nat := []
  /-- MSI-X messages sent by the last command, as (address, data). -/
  sent : List (Nat × Nat) := []
  /-- Vectors whose message is held back by the vector's mask (the pending bit array). -/
  pba : List Nat := []
  /-- The MSI-X table, word by word (R520); an unlisted word is its reset value. -/
  table : Sparse Word := []
  deriving DecidableEq, Repr

/-- The staging copy of one pending group (R36). -/
structure Staged where
  /-- The blocks whose values the copy holds. -/
  blocks : List Nat := []
  /-- The shadow words taken at the strobe. -/
  words : Sparse Word := []
  /-- The strobe that first requested the commit; groups of one write commit together (R38). -/
  batch : Nat := 0
  deriving DecidableEq, Repr

/-- One entry of the slow-domain write queue (R66). -/
inductive SlowOp where
  /-- A write of `data` under `mask` to the word at `addr` by agent `ag`. -/
  | write (ag : Agent) (addr : Nat) (mask data : Word)
  /-- The clear of an RC read; the copy showed it at once (R65). -/
  | clear (addr : Nat)
  deriving DecidableEq, Repr

/-- A running scan of the configuration CRC (R54 to R57). -/
structure Scan where
  dirty : Bool := false
  /-- The scan started after CMT_CRC_CAPTURE.GO was written. -/
  capture : Bool := false
  deriving DecidableEq, Repr

/-- The register fabric beyond its registers. -/
structure Fabric where
  /-- Pending groups with their staging copies. -/
  staged : List (Nat × Staged) := []
  nextBatch : Nat := 0
  slowQ : List SlowOp := []
  /-- Commits that have not yet landed in the slow domain: (address, RWS bits) words. -/
  slowCommits : List (List (Nat × Word)) := []
  scan : Option Scan := none
  /-- The tick at whose boundary a scan was last started (R54). -/
  scanTick : Option Nat := none
  /-- The copy of the slow-domain words that reads return (R65), by host offset, and the instant of its last refresh in ns; an
  unlisted word holds its reset value. -/
  copy : Sparse Word := []
  copyAt : Nat := 0
  /-- The WO1 fields written since PORST_N, as 32 × address + low bit. -/
  wo1 : List Nat := []
  /-- The words latched for each agent by R27, keyed by 2^28 × agent + address. -/
  latch : Sparse Word := []
  /-- The words returned by the last read command, in order. -/
  rdata : List Word := []
  /-- CMD fields with a further execution queued (R32), as 32 × address + low bit. -/
  queued : List Nat := []
  deriving DecidableEq, Repr

/-! ### Bellows (spec/03) -/

/-- The phases of a tick (R75). -/
inductive Window where
  | plan | compute | close
  deriving DecidableEq, Repr

/-- One entry of the job table: an admitted or releasing job (R79 to R83). -/
structure Job where
  /-- Descriptor words 0x00 to 0x34, 14 words (R83). -/
  desc : List Word := []
  seq : Nat := 0
  /-- The BUDGET cut of this tick found OVRUN at 2 (R99). -/
  third : Bool := false
  lastOutcome : Nat := 0
  lastReason : Nat := 0
  ovrun : Nat := 0
  dfLag : Nat := 0
  /-- Suspended by SUSPEND (R81). -/
  hostSusp : Bool := false
  /-- Suspended for overruns; the tick the suspension started (R99). -/
  ovSusp : Option Nat := none
  /-- Suspended while the standing program runs (R453). -/
  standSusp : Bool := false
  /-- A retry of R100 is to run in the next plan. -/
  retry : Bool := false
  /-- The oldest pending tick of a deferred run (R109). -/
  pendTick : Option Nat := none
  /-- Released in this tick; the entry frees two boundaries later (R82). -/
  releasing : Option Nat := none
  /-- The outcome of the tick before, `none` since admission (R107). -/
  prev : Option Nat := none
  /-- First tile of the private run and its length in tiles, and the hearths that hold it (R199). -/
  run : Nat := 0
  runLen : Nat := 0
  inA : Bool := false
  inB : Bool := false
  /-- The hearth-independent image base is looked up at run start; a standing job's bank, frames and tiles are its plan's. -/
  standing : Bool := false
  deriving DecidableEq, Repr

/-- One placement of the plan (R91): the job, its engine within the hearth, planned start and finish. -/
structure Place where
  job : Nat
  eng : Nat
  start : Nat
  finish : Nat
  /-- Started / ended in this tick. -/
  started : Bool := false
  ended : Bool := false
  /-- The engine cycle of the compute window that the run ended with (R92). -/
  endAt : Nat := 0
  deriving DecidableEq, Repr

/-- What a hearth's plan was built with (R78). -/
structure Cap where
  /-- Engines available to the plan, one bit each, and the engines the hearth's mode gives it. -/
  eng : Nat := 0xFF
  given : Nat := 0xFF
  /-- Engines that are neither offline, failed nor under retest (R94, R160 to R162). -/
  work : Nat := 0xFF
  /-- 0, 1, 2: 1.000, 0.950, 0.900 GHz. -/
  clk : Nat := 0
  reduced : Bool := false
  taken : Bool := false
  debit : Nat := 0
  deriving DecidableEq, Repr

/-- A hearth's part of Bellows. -/
structure SchH where
  plan : List Place := []
  cap : Cap := {}
  /-- The storm debit is in force (R104), the misses counted in this tick, and consecutive quiet ticks. -/
  storm : Bool := false
  misses : Nat := 0
  quiet : Nat := 0
  /-- The clock setting requested for the next plan window (R103). -/
  clkReq : Nat := 0
  usedNow : Nat := 0
  completed : Bool := false
  /-- The hearth planned this tick, so that it owes a tick completion (R77). -/
  planned : Bool := false
  /-- The failed tick of a proof swap: it has no close window (R439). -/
  skip : Bool := false
  deriving DecidableEq, Repr

/-- Bellows beyond its registers. -/
structure Sch where
  win : Window := .compute
  /-- The job table: 0 to 1023 host jobs, 1024 + i standing job i. -/
  jobs : Sparse Job := []
  /-- The job table in force for the current tick (R80). -/
  force : Sparse Job := []
  nextSeq : Nat := 0
  hA : SchH := {}
  hB : SchH := {}
  /-- Working bank of this tick: (outcome, reason) per job (R113). -/
  work : Sparse (Nat × Nat) := []
  /-- Outcomes decided so far in this tick, before the close. -/
  res : Sparse (Nat × Nat) := []
  /-- Visible bank: the low half-word of SCH_OUTC per job. -/
  vis : Sparse Nat := []
  /-- L: the last output sample of the previous tick, by channel handle (R106). -/
  last : Sparse Word := []
  /-- Job commands waiting for the end of a plan window (R80). -/
  waiting : Nat := 0
  /-- The tick in which dispatch stopped, `none` while dispatching (R118). -/
  stopTick : Option Nat := some 0
  /-- The tick had a close; and the bank it wrote is not published at the next boundary (R435). -/
  closed : Bool := false
  noPub : Bool := false
  deriving DecidableEq, Repr

/-! ### Stoke engines (spec/04) -/

/-- An active LOOP (R189): first and last instruction index of the body, iterations, the call depth it was entered at. -/
structure LoopFrame where
  start : Nat
  last : Nat
  iter : Nat
  count : Nat
  depth : Nat
  deriving DecidableEq, Repr

/-- The run of a job stalled on a demand miss (R143): the DLRD to complete. -/
structure Miss where
  d : Nat
  sa : Nat
  line : Nat
  p : Nat
  /-- Page of the line whose fill is awaited. -/
  page : Nat
  /-- What the line held at each enabled lane's position when the read issued (R179). -/
  vals : List (Nat × Word) := []
  deriving DecidableEq, Repr

/-- A WAIT that has not completed (R145): destination, flag, and the cycle of its issue and its timeout. -/
structure WaitRec where
  d : Nat
  flag : Nat
  at_ : Nat
  t : Nat
  deriving DecidableEq, Repr

/-- One stoke engine (R121 to R164). -/
structure EngS where
  /-- Scalar, vector (8 × register + lane), address, predicate and wide (8 × register + lane) registers. -/
  s : Sparse Word := []
  v : Sparse Word := []
  a : Sparse Word := []
  p : Sparse (BitVec 8) := []
  w : Sparse (BitVec 72) := []
  /-- Sticky flags of R128: QSAT, WSAT, FINV, FOVF, FDZ, FDEN. -/
  flags : BitVec 6 := 0
  /-- Index of the next instruction, and the running job. -/
  pc : Nat := 0
  running : Bool := false
  job : Nat := 0
  /-- The first cycle the next instruction may issue at (the first instruction issues at 1). -/
  next : Nat := 1
  /-- The cycle of the run that the latest instruction issued in. -/
  issued : Nat := 0
  /-- The engine cycles of the compute window before the run's cycle 1, and the window's cycle that the engine's last run ended with
  (R92, R96). -/
  base : Nat := 0
  freeAt : Nat := 0
  /-- Completion cycle of the pending write of each register (0-15 s, 16-23 a, 24-27 p, 28-31 w, 32-63 v). -/
  ready : Sparse Nat := []
  /-- The cycle from which a following multiply-accumulate may read w0 to w3 (R137). -/
  macReady : Sparse Nat := []
  loops : List LoopFrame := []
  /-- The CALLs in progress: index of the CALL instruction, innermost first. -/
  calls : List Nat := []
  posts : Nat := 0
  accPosted : Bool := false
  /-- Demand-miss stall cycles of the run, and cycles by which the run has been stalled beyond its issues. -/
  stall : Nat := 0
  miss : Option Miss := none
  wait : Option WaitRec := none
  /-- A slack run of a pending deferred run (R110). -/
  slack : Bool := false
  /-- 0 available, 1 offline, 2 failed, 3 under retest (ENG_STATUS.STATE). -/
  st : Nat := 0
  /-- The engine was failed when its retest began (R161). -/
  wasFailed : Bool := false
  deriving DecidableEq, Repr

/-- One entry of an image's entry table (R150). -/
structure EntryRec where
  start : Nat
  bound : Nat
  dlops : Nat
  rate48 : Bool
  rate96 : Bool
  deriving DecidableEq, Repr

/-- A loaded program image (R149, R154): where each hearth holds it. -/
structure Image where
  code : List Nat := []
  entries : List EntryRec := []
  baseA : Option Nat := none
  baseB : Option Nat := none
  deriving DecidableEq, Repr

/-- A LOAD in progress (R153, R155): the identifier, the hearth mask and the checked image. -/
structure LoadRec where
  id : Nat
  image : Image
  deriving DecidableEq, Repr

/-- The engines and the loader. -/
structure Engs where
  e : Sparse EngS := []
  /-- Sync flags of Hearth A and Hearth B (R145). -/
  syncA : BitVec 16 := 0
  syncB : BitVec 16 := 0
  /-- The window's cycle in which each set flag was set, keyed 16 × hearth + flag (R145). -/
  syncAt : Sparse Nat := []
  /-- Instruction SRAM of each hearth, by instruction index (an unwritten word reads 0). -/
  isA : Sparse Nat := []
  isB : Sparse Nat := []
  /-- Words with an uncorrectable error awaiting their rewrite (R159): (hearth, index). -/
  isBad : List (Nat × Nat) := []
  images : Sparse Image := []
  load : Option LoadRec := none
  /-- The program store, by word (R520). -/
  store : Sparse Word := []
  deriving DecidableEq, Repr

/-! ### Grate memory, paging and DRAM (spec/06) -/

/-- The states of a page frame (R206). -/
inductive FrameSt where
  | free | filling | resident | dirty | writeback
  deriving DecidableEq, Repr

/-- A page frame: the line and page it holds, its state, whether it is pinned, and its latest use (a count of the hearth's uses). -/
structure Frame where
  st : FrameSt := .free
  line : Nat := 0
  page : Nat := 0
  pinned : Bool := false
  used : Nat := 0
  deriving DecidableEq, Repr

/-- A write-around (R211): line, the samples (position in the line, value), and its place in the order of issue (R212). -/
structure WriteAround where
  line : Nat
  samples : List (Nat × Word)
  seq : Nat := 0
  deriving DecidableEq, Repr

/-- A page transfer request (R206): a read or a write of (line, page); a demand read goes first. -/
structure Xfer where
  line : Nat
  page : Nat
  write : Bool
  demand : Bool
  /-- Its place in the order of issue (R212). -/
  seq : Nat := 0
  deriving DecidableEq, Repr

/-- A sample written to a page whose fill is in flight (R211): it is applied after the fill; `dirty`: DRAM gets it from the frame only,
not from a write-around. -/
structure HeldWrite where
  line : Nat
  page : Nat
  ix : Nat
  val : Word
  dirty : Bool
  deriving DecidableEq, Repr

/-- The tap record of a line in one hearth (R207). -/
structure Taps where
  /-- S of the latest completed tick, and of the tick before it. -/
  smin : Nat := 0
  smax : Nat := 0
  omin : Nat := 0
  omax : Nat := 0
  /-- Read in the current tick, and its extremes. -/
  read : Bool := false
  nmin : Nat := 0
  nmax : Nat := 0
  deriving DecidableEq, Repr

/-- A message line's voice slot (R220). -/
structure Voice where
  line : Nat
  /-- Read in the current tick. -/
  read : Bool := true
  deriving DecidableEq, Repr

/-- One hearth's grate memory and paging unit. -/
structure HMem where
  /-- Channel tiles: key (2 × handle + parity) × 16 + lane (8 lanes of word 0, then word 1). -/
  tiles : Sparse Word := []
  /-- The words of the regions from the ember area on, by word address in the 8 MiB. -/
  gw : Sparse Word := []
  /-- Poisoned words (R224), by word address. -/
  poison : List Nat := []
  frames : Sparse Frame := []
  voices : List Voice := []
  /-- Message lines that asked for a slot in this tick (R220). -/
  voiceReq : List Nat := []
  inflight : List Xfer := []
  queue : List Xfer := []
  around : List WriteAround := []
  /-- Free runs are computed from these: the tile runs drawn, as (first tile, length), and runs being zeroed with the tick they free. -/
  drawn : List (Nat × Nat) := []
  zeroing : List (Nat × Nat) := []
  /-- Prefetches issued in this tick, late where they are not complete at the boundary they serve (R209): (line, page), and their number. -/
  prefetch : List (Nat × Nat) := []
  pfIssued : Nat := 0
  held : List HeldWrite := []
  /-- Demand misses that wait for a frame or for room in the queue, oldest first (R210): (line, page). -/
  waiting : List (Nat × Nat) := []
  /-- Tap records of the lines read by this hearth's jobs (R207, R220), or received with an ember copy (R429). -/
  taps : Sparse Taps := []
  /-- The next place in the order of issue (R212), and the frame uses so far (R210). -/
  nextSeq : Nat := 0
  uses : Nat := 0
  /-- Pages in flight that are read again from the other channel (R224): (line, page). -/
  alt : List (Nat × Nat) := []
  /-- The latest engine cycle of the compute window with a store, and of each word stored to in it the engine and the content before
  that cycle (R196). -/
  cyc : Nat := 0
  stores : Sparse (Nat × Word) := []
  deriving DecidableEq, Repr

/-- A defined delay line (R203). -/
structure Line where
  npages : Nat
  prot : Bool
  hearth : Nat
  slew : Nat
  tap0 : Nat
  span : Nat
  /-- First DRAM page of the delay region, reserved frames, head position. -/
  base : Nat
  fr : Nat
  head : Nat := 0
  /-- Samples written in the head pair in this tick, by position, for the write-through of R213. -/
  written : List (Nat × Word) := []
  deriving DecidableEq, Repr

/-- A message of the loaded store (R217). -/
structure Msg where
  first : Nat
  length : Nat
  rate : Nat
  pin : Bool
  deriving DecidableEq, Repr

/-- One DRAM channel (R222 to R227): its words by byte address / 4 within the usable space. -/
structure Dram where
  words : Sparse Word := []
  failed : Bool := false
  trained : Bool := false
  /-- Ticks of the uncorrectable errors counted toward UE_LIMIT (R226). -/
  ues : List Nat := []
  /-- Words that read with an uncorrectable error until rewritten. -/
  bad : List Nat := []
  /-- Ticks of the last DQS tracking and the last MR4 read (R225). -/
  dqsAt : Nat := 0
  mr4At : Nat := 0
  deriving DecidableEq, Repr

/-- Grate memory, paging unit and DRAM beyond their registers. -/
structure Mem where
  hA : HMem := {}
  hB : HMem := {}
  /-- The parity of the current tick's tiles (R86). -/
  par : Nat := 0
  lines : List (Nat × Line) := []
  msgs : List Msg := []
  msgPages : Nat := 0
  msgValid : Bool := false
  ch0 : Dram := {}
  ch1 : Dram := {}
  /-- Retrained channels whose resynchronisation copy runs (R227). -/
  resync : Option Nat := none
  retraining : List Nat := []
  reloading : Bool := false
  deriving DecidableEq, Repr

/-! ### Hearth redundancy (spec/14) -/

/-- The hearth states of R424. -/
inductive HState where
  | off | active | standby | syncing | failed | run
  deriving DecidableEq, Repr

/-- One hearth's part of HRT. -/
structure HrtH where
  st : HState := .off
  suspect : Bool := false
  /-- The working ember buffer (R426). -/
  work : Nat := 0
  /-- SEQ of the complete copy each ember buffer holds (R428). -/
  buf0 : Option Nat := none
  buf1 : Option Nat := none
  /-- SEQ of the last complete copy received since the hearth last left FAILED (R432). -/
  last : Option Nat := none
  /-- A former active hearth that has received no complete copy since a proof swap: its working buffer stands (R440). -/
  kept : Bool := false
  /-- A takeover trigger detected and not yet acted on: its cause (R431). -/
  trig : Option Nat := none
  /-- The hearth is down: the cause and the tick b (R437). -/
  down : Option (Nat × Nat) := none
  /-- The rail is at or above 0.66 V. -/
  rail : Bool := true
  /-- A bank recopy after a grate error runs (R538). -/
  recopy : Bool := false
  /-- The tick SYNCING began (R424). -/
  syncSince : Nat := 0
  deriving DecidableEq, Repr

/-- An ember copy on the link (R427): SEQ, the receiving hearth and the snapshot. -/
structure EmberCopy where
  seq : Nat
  dest : Nat
  words : Sparse Word
  /-- The internal time in ns at which it began (R427). -/
  began : Nat := 0
  /-- An uncorrectable error was found in the receiving buffer (R428). -/
  ue : Bool := false
  /-- The tap windows and the voice slots that go with it (R429). -/
  taps : Sparse Taps := []
  voices : List Nat := []
  deriving DecidableEq, Repr

/-- The hearth controller beyond its registers. -/
structure Hrt where
  a : HrtH := {}
  b : HrtH := {}
  active : Nat := 0
  copy : Option EmberCopy := none
  /-- A proof swap is pending (R439); `swapAt` is s once boundary s has passed. -/
  swapPend : Bool := false
  swapAt : Option Nat := none
  /-- The end of the proof window, the hearth that was active before, and the trigger's own swap mark (R441). -/
  proofEnd : Option (Nat × Nat) := none
  /-- The survivor is taken (R436). -/
  taken : Bool := false
  /-- The hearth whose channels repeat their last samples in the drain of the current tick (R434, R439). -/
  hold : Option Nat := none
  /-- The hearth that took the active role at this boundary. -/
  role : Option Nat := none
  /-- Tick of the last completed swap or of the enable (R442). -/
  lastSwap : Nat := 0
  /-- A RESTORE in split mode takes effect at the next boundary. -/
  restoreA : Bool := false
  restoreB : Bool := false
  deriving DecidableEq, Repr

/-! ### Alarm operation and surveillance (spec/15) -/

/-- A zone beyond its registers. -/
structure Zone where
  /-- The current run is of PASS verdicts. -/
  pass : Bool := false
  /-- The next pilot window is the first since the pilot turned on and is discarded (R464). -/
  discard : Bool := false
  /-- The pilot ramps off in the tick of the next boundary (R463). -/
  ramp : Bool := false
  /-- The tick of the last PASS verdict or report with VALID = 1, and of the last PASS, or of the zone's last change (R463, R465). -/
  heard : Nat := 0
  passAt : Nat := 0
  /-- The tick at which the detector's window began, and the correlation of SENSE with the pilot in quadrature so far (R464). -/
  winAt : Nat := 0
  accS : Int := 0
  accC : Int := 0
  deriving DecidableEq, Repr

/-- The pin of an alarm input: its level, and the internal time in ns since which it has been there (R446). -/
structure AlarmPin where
  level : Bool := false
  since : Nat := 0
  deriving DecidableEq, Repr

/-- The ALM block beyond its registers. -/
structure Alm where
  zones : Sparse Zone := []
  pins : Sparse AlarmPin := []
  /-- The tick from which the watchdog counts: the last kick, or the end of kindling (R449). -/
  wdAt : Nat := 0
  /-- The standing plan in force, and its jobs as admitted (R451). -/
  plan : StandPlan := {}
  table : List (Nat × Job) := []
  /-- START and RELEASE were written since the last boundary. -/
  startReq : Bool := false
  relReq : Bool := false
  /-- Passing or failing amplifier gates in a row, per unit: (run, passing) (R468). -/
  amps : Sparse (Nat × Bool) := []
  /-- Kindling has ended: the watchdog runs and NOTREADY is a fault (R449, R469). -/
  kindled : Bool := false
  deriving DecidableEq, Repr

/-! ### The supervisor (spec/01) -/

/-- The supervisor: the tick since which it has not been running (R21, R469). -/
structure Sup where
  down : Option Nat := none
  /-- Restarts counted (R21). -/
  restarts : Nat := 0
  deriving DecidableEq, Repr

/-! ### Ash dump (spec/16, R496 to R500) -/

/-- An ash dump record (R499): its header values, the sections before the supervisor trace as words, the free-value
index of the trace, and the kindling log. -/
structure DumpRec where
  seq : Nat := 0
  cause : Nat := 0
  tick : Nat := 0
  secs : Nat := 0
  nanos : Nat := 0
  fw : Nat := 0
  body : List Word := []
  trace : Nat := 0
  klog : List Word := []
  deriving DecidableEq, Repr

/-- The ash dump block beyond its registers: the capture buffer. -/
structure Dump where
  buf : Option DumpRec := none
  /-- The kindling log of R479 in DRAM (R499, type 6). -/
  klog : List Word := []
  deriving DecidableEq, Repr

/-! ### TDM ports (spec/08) and the drain (R14) -/

/-- A TDM port beyond its registers. -/
structure PortS where
  /-- Consecutive FSYNC edges that were not aligned, and that were (R267). -/
  bad : Nat := 0
  good : Nat := 0
  /-- The tick of the last start: its frames carry zero in every output slot (R265). -/
  startTick : Option Nat := none
  /-- The trigger of an ARMED port fired; the port starts at the next boundary. -/
  fired : Bool := false
  /-- The first frame of this tick from which the input positions read 0 (R267, R270). -/
  muteFrom : Option Nat := none
  /-- Frames of this tick that the gating of the synthesizer cut, each with its instant in the tick in ns (R268). -/
  cuts : List (Nat × Nat) := []
  /-- The frame of this tick at whose end the port moves to the other synthesizer (R268). -/
  moving : Option Nat := none
  /-- The internal time of the last FSYNC edge of a slave port, or of its start, in ns (R267). -/
  edgeAt : Nat := 0
  /-- The last bit of the tick before, which a data delay puts into the first bit clock of this one (R261). -/
  tail : Option Bool := some false
  /-- The converter regained lock in this tick, or in the tick before: its audio ramps in (R273). -/
  ramp : Nat := 0
  deriving DecidableEq, Repr

/-- TDM ports, and the blocks in the drain: keys are (65536 × source + handle) × 16 + position, where source 0 and 1 are
the hearths and 2 is the active hearth of the tick (R18, R264). -/
structure Tdm where
  ports : Sparse PortS := []
  /-- The block drained in this tick, before the pilot; LOUT and NTX. -/
  drained : Sparse Word := []
  /-- The latest device-rate samples of the output slots of a converter port, newest last, by 16 × port + slot (R274). -/
  conv : Sparse (List Word) := []
  /-- LOUT blocks as the pins carry them in the next tick and in this one. -/
  next : Sparse Word := []
  now : Sparse Word := []
  deriving DecidableEq, Repr

/-! ### Synthesis and clock outputs (spec/12) -/

/-- What a relock is doing. -/
inductive Relock where
  | none | search | hop | reference | failed
  deriving DecidableEq, Repr

/-- A synthesizer beyond its registers. -/
structure SynS where
  relock : Relock := .none
  /-- Gated, and since which internal time in ns (R384). -/
  gated : Bool := true
  gateAt : Nat := 0
  /-- When the attempt in progress began, or the last one failed, in ns of internal time; the lock path has been found faulty in it (R383,
  R385). -/
  tryAt : Nat := 0
  lp : Bool := false
  /-- An attempt has failed since the last declared lock (R385). -/
  failedOnce : Bool := false
  /-- The DCO channel it uses is lost (R373). -/
  refLost : Bool := false
  /-- REALIGN waits for its alignment boundary (R387). -/
  realign : Bool := false
  /-- The internal time of the last declaration of lock, in ns. -/
  lockAt : Nat := 0
  /-- How far its count c lags f_VCO × internal time, in ns of internal time: on the 44.1 kHz plan a re-anchor leaves c as it was
  (R387). -/
  lag : Int := 0
  deriving DecidableEq, Repr

/-- A pulse output beyond its registers (R392 to R395). -/
structure PulseS where
  /-- The anchor a: internal time of the last accepted edge, in ns. -/
  anchor : Option Nat := none
  /-- Consecutive rejected edges. -/
  rejects : Nat := 0
  /-- ALIGN was written; the next edge is the anchor. -/
  align : Bool := false
  /-- Changed settings wait for the next alignment boundary (R386); PER, WIDTH, OFFSET and FINE in force. -/
  changed : Bool := false
  per : Nat := 32768
  width : Nat := 16384
  off : Nat := 0
  fine : Nat := 0
  /-- The internal time in ns from which it begins with the next scheduled rising edge (R395). -/
  since : Nat := 0
  deriving DecidableEq, Repr

/-- The SYN and OUT blocks beyond their registers. -/
structure Syn where
  a : SynS := {}
  b : SynS := {}
  /-- The dither seed in force, and the one committed since (R372). -/
  seed : Nat := 0
  seedNext : Option Nat := none
  /-- CLKOUTs that hold low until the next alignment boundary (R388). -/
  waiting : List Nat := []
  fp : Sparse PulseS := []
  /-- The boundary at which each CLKOUT last started, whose count is c0 (R388). -/
  clkStart : Sparse Nat := []
  deriving DecidableEq, Repr
/-! ### Network flows (spec/07) -/

/-- A receive flow: its live copy and what the flow engine keeps for it (R235 to R245). -/
structure RxFlow where
  live : Bool := false
  /-- STATE and REASON of descriptor word 0x20. -/
  st : Nat := 0
  reason : Nat := 0
  /-- Descriptor words 0x00 to 0x10 and the match records of both paths, as applied. -/
  desc : List Nat := []
  recs : List (List Nat) := []
  /-- A first valid copy has started the merge; HIGHSEQ; bit i of the window is sequence number HIGHSEQ − i; the numbers
  that were expected and count SEQGAP when they leave the window unset (R239). -/
  merged : Bool := false
  high : Nat := 0
  win : Nat := 0
  exp : Nat := 0
  /-- The jitter buffer: the samples of all channels by media index plus 4096; an entry is a set fill flag (R241). -/
  buf : Sparse (List Word) := []
  /-- Last gathered sample per channel, and ticks in a row with a missing position (R242). -/
  last : List Word := []
  run : Nat := 0
  /-- Tick of the last valid copy per path, and the paths that are UP (R243). -/
  valid0 : Option Nat := none
  valid1 : Option Nat := none
  up0 : Bool := false
  up1 : Bool := false
  /-- FLOWLOSS has been posted and no valid copy has followed. -/
  loss : Bool := false
  /-- Margins by tick, in ns, per path; unmatched arrivals (path, sequence number, time); arrival differences by tick. -/
  marg0 : List (Nat × Int) := []
  marg1 : List (Nat × Int) := []
  arr : List (Nat × Nat × Nat) := []
  skews : List (Nat × Int) := []
  tickLast : Nat := 0
  deriving DecidableEq, Repr

/-- A transmit flow (R248 to R253). -/
structure TxFlow where
  live : Bool := false
  st : Nat := 0
  reason : Nat := 0
  desc : List Nat := []
  /-- Template bytes of both paths. -/
  hdrs : List (List Nat) := []
  seq : Nat := 0
  /-- Boundaries until the drained audio is of a tick at or after the start. -/
  skip : Nat := 0
  /-- The group being collected: its first tick, and one row of channel samples per sample. -/
  first : Nat := 0
  acc : List (List Word) := []
  /-- TXPKT0, TXPKT1, TXDROP0, TXDROP1. -/
  cnt : List Nat := [0, 0, 0, 0]
  deriving DecidableEq, Repr

/-- A passed APPLY or a STOP waiting for the next boundary (R232): `desc` is empty for a STOP. -/
structure FlowReq where
  tx : Bool
  flow : Nat
  desc : List Nat := []
  recs : List (List Nat) := []
  deriving DecidableEq, Repr

/-- The flow engine and the flue. -/
structure Flw where
  /-- The staged words of flow table memory, by word offset (R231). -/
  mem : Sparse Word := []
  /-- Receive statistics, word i of flow f at 16 f + i (R247). -/
  stats : Sparse Word := []
  rx : Sparse RxFlow := []
  tx : Sparse TxFlow := []
  pend : List FlowReq := []
  /-- The multicast filter (R237): the entries in use, as (index, 2 × flow + path). -/
  mcf : List (Nat × Nat) := []
  /-- Numbers of the last three ticks, oldest first, each with the ticks that internal time was moved since. -/
  pipe : List (Nat × Int) := []
  /-- Tick of the last announcement of the transmit flows (R256). -/
  sapAt : Nat := 0
  deriving DecidableEq, Repr

/-! ### Ethernet ports (spec/09) -/

/-- A frame in a transmit queue: its bytes without the FCS, whether the supervisor sends it, and its marks (R317, R319). -/
structure TxFrame where
  bytes : List Nat
  sup : Bool := false
  stamp : Bool := false
  oneStep : Bool := false
  tag : Nat := 0
  deriving DecidableEq, Repr

/-- One transmit queue (R290 to R301). Times are in tenths of a ns. -/
structure TxQueue where
  q : List TxFrame := []
  /-- What remains on the pause timer; the queue is paused while it is above zero (R296). -/
  left : Nat := 0
  /-- The last nonzero pause of the queue came by PFC. -/
  pfc : Bool := false
  /-- D, the time since a nonzero pause frame last named the queue, and the pause frames ignored while broken. -/
  d : Nat := 0
  quiet : Nat := 0
  ignored : Nat := 0
  deriving DecidableEq, Repr

/-- The queue is paused (R296). -/
def TxQueue.paused (x : TxQueue) : Bool := x.left != 0

/-- The transmit completion descriptor of a frame of the supervisor (R322, R323): its tag, whether a link-down flushed it, and the
sequenceId of a stamp that was lost. -/
structure TxDesc where
  tag : Nat
  flushed : Bool := false
  lost : Option Nat := none
  deriving DecidableEq, Repr

/-- The receive descriptor of a frame delivered to the supervisor (R285, R289, R323): its length, its marks ERR and TRUNC, whether its
IPv4 header checksum and its UDP checksum are right, and the sequenceId of a stamp that was lost. -/
structure RxDesc where
  len : Nat
  err : Bool := false
  trunc : Bool := false
  ipOk : Bool := true
  udpOk : Bool := true
  lost : Option Nat := none
  deriving DecidableEq, Repr

/-- A port beyond its registers. -/
structure Mac where
  queues : Sparse TxQueue := []
  /-- The instant up to which credits and timers have run, in tenths of a ns of internal time; the end of the transmission in progress and its queue. -/
  now : Nat := 0
  txEnd : Nat := 0
  txQueue : Nat := 8
  /-- The bytes of the frame last put on the line, without the FCS (R319). -/
  line : List Nat := []
  /-- The completion descriptors that the last transmission or flush has written, and the receive descriptor last written. -/
  txDone : List TxDesc := []
  rxDone : Option RxDesc := none
  /-- Bytes in the receive partition of the supervisor (R287). -/
  rxFill : Nat := 0
  /-- Credits of queues 5 and 6 in units of 10^-4 bit. -/
  credit5 : Int := 0
  credit6 : Int := 0
  /-- SFPn_TXDIS is pulsed until this instant, in ns; the instant of the TX_FAULT that it answers; the module was given up (R306). -/
  pulse : Nat := 0
  faultAt : Option Nat := none
  gaveUp : Bool := false
  /-- Tick of the last diagnostics read; the identification of the module is still to be read (R305). -/
  diag : Option Nat := none
  idDue : Bool := false
  /-- The instant of the last debounced change of SFPn_MODABS, in ns (R304). -/
  modAt : Option Nat := none
  deriving DecidableEq, Repr

/-! ### Time stamping and network time (spec/10) -/

/-- A stamp queue: its entries as four words, oldest first, and the number of stamps taken (R320). -/
structure StampQ where
  q : List (List Nat) := []
  eseq : Nat := 0
  deriving DecidableEq, Repr

/-- A time trigger (R336): target in ns of internal time, and its period. -/
structure Trig where
  target : Nat
  per : Nat
  deriving DecidableEq, Repr

/-- A path hold (R332): the tick of the firing, the exchanges since, the frozen baselines θb and Db of the port as the sums of their 64
values, and the θ of the other port where it had 64; whether the single-port rule applies (R334). -/
structure PathHold where
  tick : Nat
  count : Nat := 0
  base : Int
  baseD : Int
  other : Option Int
  single : Bool := false
  deriving DecidableEq, Repr

/-- The servo and detector state of a PTP port (R327 to R334). Offsets and delays are in half nanoseconds. -/
structure PtpPort where
  /-- θ and D of the last exchanges that were not suspect, newest first, at most 64; of the last eight exchanges. -/
  good : List (Int × Int) := []
  last : List (Int × Int) := []
  /-- Suspect exchanges in a row. -/
  suspects : Nat := 0
  hold : Option PathHold := none
  /-- Tick of the last completed exchange, and of the last Announce message or restart (R325). -/
  lastTick : Option Nat := none
  annAt : Nat := 0
  /-- Exchanges in a row within LOCK_NS (R330). -/
  within : Nat := 0
  /-- The part of PTP_REBASEn that the path step detector keeps, in ns, and the remaining build-out of REF, in 1/8000 ns
  (R357). -/
  reb : Int := 0
  bout : Int := 0
  /-- Frames whose stamp was lost, as their descriptors tell: egress, messageType, sequenceId (R323). -/
  lost : List (Bool × Nat × Nat) := []
  deriving DecidableEq, Repr

/-- The TSU and PTP blocks beyond their registers. -/
structure Ptp where
  stamps : Sparse StampQ := []
  trigs : Sparse (Option Trig) := []
  a : PtpPort := {}
  b : PtpPort := {}
  /-- The integrator and the phase term, in units of 10^-8 × 2^-9 ppb (R329). -/
  integ : Int := 0
  phase : Int := 0
  /-- The rate of internal time against XTALIN, in the same units (R316). -/
  rate : Int := 0
  deriving DecidableEq, Repr

/-! ### Reference selection (spec/11) -/

/-- A candidate beyond its registers. -/
structure Cand where
  /-- For candidates 4 and 5: the input has no edges (R345). -/
  lost : Bool := true
  /-- The tick since which every estimate was within the qualification limit, or above SOFT. -/
  good : Option Nat := none
  soft : Option Nat := none
  /-- The quality code of a PTP candidate's last Announce message (R348). -/
  qcode : BitVec 8 := 255
  /-- The tick of a SyncE candidate's last ESMC PDU; none before the first one and after the timeout (R349). -/
  heard : Option Nat := none
  deriving DecidableEq, Repr

/-- A switch decided and waiting for its boundary: the new candidate (7 for none) and whether it is forced. -/
structure SwitchReq where
  cand : Nat
  forced : Bool
  deriving DecidableEq, Repr

/-- A re-anchor waiting for its boundary: k, and the residual in ns. -/
structure AnchorReq where
  k : Int
  residual : Int
  /-- Commanded, not the first qualification. -/
  cmd : Bool
  deriving DecidableEq, Repr

/-- REF beyond its registers. -/
structure RefS where
  cands : Sparse Cand := []
  req : Option SwitchReq := none
  anchor : Option AnchorReq := none
  /-- The boundary of the last estimate update (R346). -/
  estAt : Option Nat := none
  /-- The level of OCXO_RDY, the tick since which it has held, and the tick since which OSCIN has been present or absent (R364). -/
  rdy : Bool := false
  rdyAt : Nat := 0
  oscAt : Nat := 0
  /-- The boundary at which the switch in progress began, and that of the last completed switch. -/
  begun : Nat := 0
  done : Nat := 0
  /-- The best candidate and the tick since which it has been best. -/
  best : Nat := 7
  since : Nat := 0
  /-- A candidate other than 6 has been selected since kindling. -/
  other : Bool := false
  /-- History: (tick, f_k in 0.01 ppb) of the selected candidate, newest first; the tick it became LOCKED (R360). -/
  hist : List (Nat × Int) := []
  lockedAt : Option Nat := none
  /-- The tick since which OSCIN has been present with the OCXO warm, and the last such time that has ended. -/
  warmAt : Option Nat := none
  warmPrev : Nat × Nat := (0, 0)
  /-- Holdover was posted as entered; the tick it began; the clockClass of the PTP candidate that was left, 0 for none. -/
  inHo : Bool := false
  hoTick : Nat := 0
  hoClass : Nat := 0
  /-- The tick in the middle of the span of the last hold value. -/
  mid : Nat := 0
  /-- The PTP port whose build-out REF_BOUT shows. -/
  boutPort : Nat := 0
  deriving DecidableEq, Repr

/-! ### The supervisor's protocols (spec/07 R256, spec/17 R534) -/

/-- A SAP session heard. -/
structure SapSession where
  port : Nat
  v6 : Bool
  src : List Nat
  hash : Nat
  /-- Tick at which it was last heard. -/
  heard : Nat
  /-- The SDP text. -/
  text : List Nat
  deriving DecidableEq, Repr


/-! ### Time-interval measurement (spec/13) -/

/-- A conditioned input (R399, R400): the comparator level, the conditioned level, whether hold-off runs, and the internal time of the
last edge of the conditioned signal in ns. -/
structure TimIn where
  comp : Bool := false
  cond : Bool := false
  hold : Bool := false
  edgeAt : Nat := 0
  deriving DecidableEq, Repr

/-- A measurement unit beyond its registers (R409 to R416). Times are in LSB of 62.5 ps. -/
structure TimU where
  /-- The configuration applied, as its register words; empty while the unit does not run. -/
  cfg : List Nat := []
  /-- The sample in progress: its start, the stops received relative to it, its tags. -/
  start : Option Int := none
  stops : List Int := []
  cold : Bool := false
  uncal : Bool := false
  /-- The gate in progress: the tick at which it began, and whether a time without the tag COLD, or UNCAL, has been part of it (R413,
  R416); `cold` and `uncal`: whether a time with it has. -/
  gateAt : Nat := 0
  warm : Bool := false
  cal : Bool := false
  /-- The block in progress: samples, sum, sum of squares, extremes, tags, and the tick of its start. -/
  n : Nat := 0
  sum : Int := 0
  squares : Nat := 0
  least : Int := 0
  most : Int := 0
  bcold : Bool := false
  buncal : Bool := false
  begun : Nat := 0
  deriving DecidableEq, Repr

/-- TIM beyond its registers. -/
structure TimS where
  units : Sparse TimU := []
  ins : Sparse TimIn := []
  /-- The tick of the last correction table (R406). -/
  tableAt : Nat := 0
  deriving DecidableEq, Repr

/-! ### Start-up, power, hot plug and ageing (spec/16) -/

/-- Kindling (R479 to R482): it has run since PORST_N; what it found, while a started image has not reported liveness or
while no flash has answered; the flash and the ash dump partition; the security version of the image that does not run. -/
structure Boot where
  ran : Bool := false
  waiting : Option BootFind := none
  noFlash : Bool := false
  flashBytes : Nat := 0
  dumpBase : Nat := 0
  dumpSectors : Nat := 0
  /-- The message store partition: its flash address and its bytes of payload (R476). -/
  msgBase : Nat := 0
  msgLen : Nat := 0
  otherVer : Nat := 0
  /-- This pass has recorded a failure (R482). -/
  fault : Bool := false
  deriving DecidableEq, Repr

/-- An AVSBus rail (R489): the instants of its last read-back and of the last change of its request, in ns. -/
structure Rail where
  readAt : Option Nat := none
  reqAt : Nat := 0
  deriving DecidableEq, Repr

/-- Power states and hot plug beyond their registers (R484 to R489). -/
structure Pwr where
  /-- The instant of the last access by a host, in ns. -/
  touchAt : Nat := 0
  /-- An exit to a shallower state is in progress: its wake cause, 8 where no wake event brings it, and the instant it began. -/
  exiting : Option (Nat × Nat) := none
  /-- Commands on stopped blocks that wait for the exit: host, word address, bit. -/
  held : List (Agent × Nat × Nat) := []
  /-- SAFE is to be entered at the next boundary, forced or not; RESUME, or the release of the outputs of a card that has
  become seated, is to happen at the next boundary. -/
  safe : Option Bool := none
  resume : Bool := false
  /-- The instants at which the card became UNSEATED, EJECT_N was last found changed, and the card entered EJECTING. -/
  unseatedAt : Nat := 0
  ejectAt : Nat := 0
  ejectingAt : Nat := 0
  rails : Sparse Rail := []
  deriving DecidableEq, Repr

/-- A voltage and clock domain of R490: the evaluations in a row below LOW and above HIGH, the evaluations since the last
step up, and those left in which a step up is blocked. -/
structure Domain where
  low : Nat := 0
  high : Nat := 0
  up : Option Nat := none
  block : Nat := 0
  deriving DecidableEq, Repr

/-- The history that the ageing record keeps (R493, R494): slowdowns, hours, the hourly means of the day in units of
2^-20 ppb, the valid days as (day, mean), and the number of the day. -/
structure AgeRec where
  deg : List Nat := [0, 0, 0]
  hours : Nat := 0
  hotHours : Nat := 0
  means : List Int := []
  days : List (Nat × Rat) := []
  day : Nat := 0
  deriving DecidableEq, Repr

/-- AGE beyond its registers. -/
structure Age where
  a : Domain := {}
  b : Domain := {}
  core : Domain := {}
  /-- Sensors in temperature alert, the highest temperature, and whether a sensor was at 95 °C or more in this hour. -/
  alerts : List Nat := []
  most : Option Int := none
  hot : Bool := false
  hist : AgeRec := {}
  /-- The ticks of the last margin evaluation, hourly measurement, start of a day, record write and correction update. -/
  evalAt : Nat := 0
  degAt : Nat := 0
  dayAt : Nat := 0
  recAt : Nat := 0
  corrAt : Nat := 0
  deriving DecidableEq, Repr

/-! ### What survives PORST_N (R474) -/

/-- An equipment key slot (R478): the fused hash of its key, and the revocation fuse. -/
structure KeySlot where
  hash : Option (List Byte) := none
  revoked : Bool := false
  deriving DecidableEq, Repr

/-! ### Host interface (spec/17) -/

/-- A mailbox command in progress (R532): its OP, its reason, the result words it will leave in HIF_MBDATA, the flash sector
it has changed, and the equipment key slots before it. -/
structure Mailbox where
  op : Nat
  reason : Nat
  results : List (Nat × Nat) := []
  sector : Option Nat := none
  keys : Option (KeySlot × KeySlot) := none
  deriving DecidableEq, Repr

/-- ID/HIF beyond its registers. -/
structure Hif where
  mb : Option Mailbox := none
  /-- The instant at which the pending claim was made. -/
  claimAt : Nat := 0
  /-- A mailbox command issued while the supervisor does not run. -/
  mbWait : Bool := false
  /-- SPIERR has been set since the last STATUS. -/
  spiErr : Bool := false
  /-- The flash staging buffer, by byte. -/
  stage : Sparse Byte := []
  deriving DecidableEq, Repr
/-- Fuses and boot flash. -/
structure NV where
  /-- Blown version fuses (PWR_SECMIN), at most 32. -/
  version : Nat := 0
  /-- Equipment key slots 1 and 2. -/
  key1 : KeySlot := {}
  key2 : KeySlot := {}
  /-- The boot flash by byte address; an unlisted byte is erased. -/
  flash : Sparse Byte := []
  /-- The ash dump records of the flash partition, by sector 1 to M − 1 (R498), and the ageing record in its sector 0. -/
  dump : Sparse DumpRec := []
  age : Option AgeRec := none
  /-- Sectors whose content an abandoned or failed mailbox command left open, with the index of its first free value. -/
  torn : Sparse Nat := []
  deriving DecidableEq, Repr

/-! ### The device and the state -/

/-- The device: what PORST_N resets. -/
structure Dev where
  /-- Live copies of the register words, keyed by host offset; an unlisted word holds its reset value (R4). -/
  live : Sparse Word := []
  /-- Shadow copies of the RWS fields (R29), keyed by host offset; an unlisted word holds its reset value (R30). -/
  shadow : Sparse Word := []
  fab : Fabric := {}
  evq : Evq := {}
  intr : Intr := {}
  /-- The number n of the current tick (R5, R9), and the instant within it, in ns of internal time. -/
  tick : Nat := 0
  ns : Nat := 0
  /-- A counter that every free value reads and advances; the model's own field. -/
  free : Nat := 0
  sch : Sch := {}
  eng : Engs := {}
  mem : Mem := {}
  hrt : Hrt := {}
  alm : Alm := {}
  sup : Sup := {}
  dump : Dump := {}
  tdm : Tdm := {}
  syn : Syn := {}
  flw : Flw := {}
  mac0 : Mac := {}
  mac1 : Mac := {}
  ptp : Ptp := {}
  ref : RefS := {}
  /-- SAP sessions heard, newest first, and the session table of the last SAPSNAP as words. -/
  sap : List SapSession := []
  sapTable : List Word := []
  tim : TimS := {}
  boot : Boot := {}
  pwr : Pwr := {}
  age : Age := {}
  hif : Hif := {}
  deriving DecidableEq, Repr

/-- The state of the block. -/
structure State where
  /-- The commands that are waiting, oldest first. -/
  pending : List Instr := []
  nv : NV := {}
  dev : Dev := {}
  deriving DecidableEq, Repr

/-- Why the machine stops with a fault. -/
inductive Fault where
  /-- Raised by the meaning of an engine instruction whose operands encode no defined word (R167): "An engine therefore
  never issues an undefined word". Safe: no hardware event corresponds to the command. -/
  | undefinedWord
  deriving DecidableEq, Repr

/-- Why a command has no meaning. -/
inductive Refusal where
  /-- Raised by exec for a command that this model does not model. Safe: the machine stops. -/
  | notModelled (mnemonic : String)
  deriving DecidableEq, Repr

/-- The state right after reset: the release of PORST_N (R4, R474), nothing placed in any memory. -/
def State.reset : State := {}

end Sys2Proof.Machine
end

