-- ==== Sys2Proof/Machine/Ops.lean ====
section
/-! DEFINITION. The shared operations over the register file, the event FIFO, the interrupt outputs and the gate that
every host command passes (spec/02). -/
namespace Sys2Proof.Machine

/-! ### Registers -/

/-- The live word at host offset `a`. -/
def Dev.word (d : Dev) (a : Nat) : Word := Sparse.get (resetWord a) d.live a

/-- Write the live word at `a`. -/
def Dev.setWord (d : Dev) (a : Nat) (w : Word) : Dev :=
  { d with live := Sparse.put (resetWord a) d.live a w }

/-- The live value of a field. -/
def Dev.rd (d : Dev) (f : Fld) : Nat := f.get (d.word f.addr)

/-- Set the live value of a field. -/
def Dev.wr (d : Dev) (f : Fld) (v : Nat) : Dev := d.setWord f.addr (f.set (d.word f.addr) v)

/-- A one-bit field is 1. -/
def Dev.on (d : Dev) (f : Fld) : Bool := d.rd f == 1

/-- Set a status bit. -/
def Dev.flag (d : Dev) (f : Fld) : Dev := d.wr f 1


/-- The shadow word at `a` (RWS bits only; R29, R30). -/
def Dev.shadowWord (d : Dev) (a : Nat) : Word := Sparse.get (resetWord a &&& rwsMask a) d.shadow a

def Dev.setShadow (d : Dev) (a : Nat) (w : Word) : Dev :=
  { d with shadow := Sparse.put (resetWord a &&& rwsMask a) d.shadow a w }

/-- Set the shadow value of a field. -/
def Dev.wrShadow (d : Dev) (f : Fld) (v : Nat) : Dev := d.setShadow f.addr (f.set (d.shadowWord f.addr) v)

/-- Set a field in both copies: kindling's load of an RWS field, or hardware that the spec lets write one. -/
def Dev.wrBoth (d : Dev) (f : Fld) (v : Nat) : Dev := (d.wr f v).wrShadow f v

/-- Add `n` to a counter, wrapping at its width; `half` is set each time the most significant bit changes (R33). -/
def Dev.count (d : Dev) (c half : Fld) (n : Nat := 1) : Dev :=
  let v := d.rd c
  let v' := (v + n) % 2 ^ c.width
  let d := d.wr c v'
  if v / 2 ^ (c.width - 1) = v' / 2 ^ (c.width - 1) then d else d.flag half

/-- Add `n` to a counter of `count` whose half-range bit is bit `b` of the field `half`. -/
def Dev.countBit (d : Dev) (c half : Fld) (b : Nat) (n : Nat := 1) : Dev :=
  let v := d.rd c
  let v' := (v + n) % 2 ^ c.width
  let d := d.wr c v'
  if v / 2 ^ (c.width - 1) = v' / 2 ^ (c.width - 1) then d else d.wr half (d.rd half ||| 2 ^ b)

/-- A saturating or plain register of a device quantity: the value masked to the field's width. -/
def satTo (bits v : Nat) : Nat := min v (2 ^ bits - 1)

/-! ### The slow domain (R65, R66) -/

/-- A word is clocked in the slow domain: PWR, AGE, HOT, ALM_INCFG and ALM_INSTAT. -/
def slowWord (a : Nat) : Bool := [1, 2, 3].contains (blockOf a) || a == 0xB014 || a == 0xB018

/-- A word of the slow domain as its copy shows it. -/
def Dev.copyWord (d : Dev) (a : Nat) : Word := Sparse.get (resetWord a) d.fab.copy a

/-! ### Time -/

/-- SCH_TICK (R9). -/
def Dev.schTick (d : Dev) : Nat := d.tick % 2 ^ 32

/-- Internal time in ns since its epoch: the boundary of the current tick plus the instant within it (R5, R8). -/
def Dev.timeNs (d : Dev) : Nat := d.tick * 125000 + d.ns

/-- Advance the instant within the tick. -/
def Dev.at (d : Dev) (ns : Nat) : Dev := { d with ns := max d.ns (min ns 124999) }

/-! ### Free values -/

/-- A free word and the device with the counter advanced. -/
def Dev.fresh (d : Dev) : Dev × Word := ({ d with free := d.free + 1 }, Config.freeWord d.free)

/-! ### Slow-clock edges (R65, R487) -/

/-- An enabled alarm input is ACTIVE or LATCHED (R447). -/
def Dev.alarmActive (d : Dev) : Bool :=
  (d.rd Reg.ALM_INCFG_EN &&& (d.rd Reg.ALM_INSTAT_ACTIVE ||| d.rd Reg.ALM_INSTAT_LATCHED)) != 0

/-- Jobs admitted by a host (R194, R423, R487). -/
def Dev.anyJob (d : Dev) : Bool := d.sch.jobs.any fun e => !e.2.standing && !e.2.desc.isEmpty

/-- protect_now of R488. -/
def Dev.protectNow (d : Dev) : Bool :=
  d.alarmActive || d.rd Reg.ALM_SPSTAT_STATE == 2 || d.rd Reg.ALM_STATUS_WD == 3

/-- The exit latency of state P`s` in µs (R486). -/
def exitLat (s : Nat) : Nat := match s with | 0 => 0 | 1 => 32 | 2 => 40 | 3 => 2000 | _ => 300000

/-- entry_ok of R487: the host link is idle when no host has accessed the block for 100 µs. -/
def Dev.entryOk (d : Dev) (s : Nat) : Bool :=
  if d.protectNow then decide (s ≤ 2)
  else if s ≤ 2 then decide (d.pwr.touchAt + 100000 ≤ d.timeNs)
  else !d.anyJob && d.rd Reg.FLW_RUN_RX == 0 && d.rd Reg.FLW_RUN_TX == 0 && d.rd Reg.TDM_RUN_PORTS == 0 && d.rd Reg.HOT_STATUS_STATE == 0

/-- The target state of R487. -/
def Dev.powerTarget (d : Dev) : Nat :=
  (List.range 5).foldl (fun t s =>
    if decide (s ≤ d.rd Reg.PWR_CFG_MAXSTATE) && decide (exitLat s ≤ d.rd Reg.PWR_LTR_US) && (s == 0 || d.entryOk s) then s
    else t) 0

/-- A slow-clock edge: PWR chooses its target (R487), and the copy is refreshed (R65). -/
def Dev.slowEdge (d : Dev) : Dev :=
  let d := d.wr Reg.PWR_STATUS_TARGET d.powerTarget
  { d with fab := { d.fab with copy := d.live.filter fun e => slowWord e.1, copyAt := d.timeNs } }

/-- Whether an edge has come since the last refresh is certain after 1 µs, and open before (R65). -/
def Dev.slowSync (d : Dev) : Dev :=
  if d.fab.copyAt + 1000 ≤ d.timeNs then d.slowEdge
  else
    let r := d.fresh
    if r.2[0] then r.1.slowEdge else r.1

/-! ### Events (R71 to R74) -/

/-- Post an event; it enters the FIFO at the end of the fabric cycle. -/
def Dev.post (d : Dev) (src code arg : Nat) : Dev :=
  { d with evq := { d.evq with posts := d.evq.posts ++ [(src, code, arg)] } }

/-- Enter one event, or count it lost when the FIFO is full (R71, R73). -/
def Evq.enter (q : Evq) (tick : Nat) (e : Nat × Nat × Nat) : Evq :=
  if q.q.length < 512 then
    { q with q := q.q ++ [{ src := e.1, code := e.2.1, seq := q.seq % 65536, tick := tick, arg := e.2.2 }],
             seq := q.seq + 1 }
  else { q with seq := q.seq + 1, lostCount := (q.lostCount + 1) % 2 ^ 32, lostPend := q.lostPend + 1, ovf := true }

/-- Enter the EVQ_LOST entry when space is free (R73). -/
def Evq.enterLost (q : Evq) (tick : Nat) : Evq :=
  if q.lostPend > 0 ∧ q.q.length < 512 then
    { (q.enter tick (24, 1, q.lostPend)) with lostPend := 0 }
  else q

/-- The events of one fabric cycle enter in ascending block index order (R71). -/
def Evq.settle (q : Evq) (tick : Nat) : Evq :=
  let ps := (List.range 32).flatMap (fun b => q.posts.filter (fun e => e.1 == b))
  let q := { q with posts := [] }
  (ps.foldl (fun q e => q.enter tick e) (q.enterLost tick)).enterLost tick

/-- Remove the oldest entry (R72). -/
def Evq.pop (q : Evq) : Evq := { q with q := q.q.tail }

/-- The four words of an entry (R71). -/
def Event.words (e : Event) : List Word :=
  [BitVec.ofNat 32 (2 ^ 31 + e.src % 128 * 2 ^ 24 + e.code % 256 * 2 ^ 16 + e.seq % 65536),
   BitVec.ofNat 32 e.tick, BitVec.ofNat 32 e.arg, BitVec.ofNat 32 (e.arg / 2 ^ 32)]

/-! ### Interrupts (R67 to R70) -/

/-- Status and enable words of each source that has one status word. -/
def statusWords : List (Nat × Fld × Fld) :=
  [(0, ⟨0x018, 15, 8⟩, ⟨0x01C, 15, 8⟩), (1, ⟨0x4004, 11, 8⟩, ⟨0x4008, 11, 8⟩), (2, ⟨0x5004, 11, 8⟩, ⟨0x5008, 11, 8⟩),
   (3, ⟨0x6004, 8, 8⟩, ⟨0x6008, 8, 8⟩), (4, ⟨0x7004, 11, 8⟩, ⟨0x7008, 11, 8⟩),
   (5, ⟨0x8008, 11, 8⟩, ⟨0x800C, 11, 8⟩), (5, ⟨0x8008, 21, 16⟩, ⟨0x800C, 21, 16⟩),
   (6, ⟨0x9040, 14, 8⟩, ⟨0x9044, 14, 8⟩), (7, ⟨0xA004, 12, 8⟩, ⟨0xA008, 12, 8⟩), (8, ⟨0xB004, 13, 8⟩, ⟨0xB008, 13, 8⟩),
   (9, ⟨0xC008, 14, 8⟩, ⟨0xC00C, 14, 8⟩), (10, ⟨0xD004, 12, 8⟩, ⟨0xD008, 12, 8⟩),
   (11, ⟨0x10004, 12, 8⟩, ⟨0x10008, 12, 8⟩), (12, ⟨0x11004, 12, 8⟩, ⟨0x11008, 12, 8⟩),
   (14, ⟨0x14004, 11, 8⟩, ⟨0x14008, 11, 8⟩), (15, ⟨0x15004, 11, 8⟩, ⟨0x15008, 11, 8⟩),
   (16, ⟨0x16004, 13, 8⟩, ⟨0x16008, 13, 8⟩), (17, ⟨0x17004, 11, 8⟩, ⟨0x17008, 11, 8⟩),
   (18, ⟨0x18004, 12, 8⟩, ⟨0x18008, 12, 8⟩), (19, ⟨0x19004, 11, 8⟩, ⟨0x19008, 11, 8⟩),
   (22, ⟨0x101C, 3, 1⟩, ⟨0x1038, 3, 1⟩), (23, ⟨0x2008, 1, 0⟩, ⟨0x2014, 1, 0⟩)]

/-- An enabled status bit is set. -/
def Dev.raised (d : Dev) (st en : Fld) : Bool := (d.rd st &&& d.rd en) != 0

/-- The request of engine control block `src` (20 or 21): any of its eight engines. -/
def Dev.engRaised (d : Dev) (src : Nat) : Bool :=
  (List.range 8).any fun i =>
    let b := 0x20000 + ((src - 20) * 8 + i) * 0x2000
    d.raised ⟨b + 4, 14, 8⟩ ⟨b + 8, 14, 8⟩

/-- Source `i` raises its request (R67, R68). -/
def Dev.request (d : Dev) (i : Nat) : Bool :=
  if i = 24 then
    decide (d.evq.q.length ≥ max 1 (d.rd Reg.INT_EVQ_CFG_THRESH)) || d.evq.ovf
  else if i = 20 ∨ i = 21 then d.engRaised i
  else statusWords.any fun e => e.1 == i && d.raised e.2.1 e.2.2

/-- INT_PEND (R67). -/
def Dev.intPend (d : Dev) : Nat :=
  (List.range 25).foldl (fun acc i => if d.request i then acc + 2 ^ i else acc) 0

/-- The vector of source `i` (INT_VECx). -/
def Dev.vectorOf (d : Dev) (i : Nat) : Nat := d.rd ⟨0x3010 + 4 * (i / 4), 8 * (i % 4) + 4, 8 * (i % 4)⟩

/-- Source `i` is both enabled and pending. -/
def Dev.srcActive (d : Dev) (i : Nat) : Bool := d.rd Reg.INT_EN_EN / 2 ^ i % 2 == 1 && d.request i

/-- IRQ_N is driven low (R70). -/
def Dev.irqLow (d : Dev) : Bool :=
  d.on Reg.INT_CFG_PIN_EN && (List.range 25).any d.srcActive

/-- A word of the MSI-X table: an unwritten vector control word holds the mask bit (PRESUMED: the PCI Express rules). -/
def Dev.msixWord (d : Dev) (i : Nat) : Word := Sparse.get (if i % 4 = 3 then 1 else 0) d.intr.table i

/-- Vectors whose condition is 1: the OR of their enabled sources (R69). -/
def Dev.vectorConds (d : Dev) : List Nat :=
  let act := (List.range 25).filter d.srcActive
  (List.range 32).filter fun v => act.any fun i => d.vectorOf i == v

/-- The interrupt outputs after a command: a vector whose condition rises sends its message, or sets its pending bit
while masked; a pending vector that is no longer masked sends, and one whose condition has ended is pending no more (R69; the MSI-X
rules of PCI Express clear the pending bit then). While MSIX_EN is 0 nothing is sent and no pending bit is set, and a condition that rose then sends nothing when MSIX_EN
becomes 1 (DESIGN CHOICE, log entry 127). -/
def Dev.settleIntr (d : Dev) : Dev :=
  let now := d.vectorConds
  let rise := now.filter fun v => !(d.intr.cond.contains v)
  let want := ((d.intr.pba.filter fun v => now.contains v) ++ rise).dedup
  let masked := fun v => (d.msixWord (4 * v + 3)).toNat % 2 == 1
  let go := if d.on Reg.INT_CFG_MSIX_EN then want.filter (fun v => !masked v) else []
  let keep := (if d.on Reg.INT_CFG_MSIX_EN then want.filter masked else d.intr.pba).filter fun v => now.contains v
  { d with intr := { d.intr with
      cond := now, pba := keep,
      sent := go.map fun v =>
        ((d.msixWord (4 * v)).toNat + 2 ^ 32 * (d.msixWord (4 * v + 1)).toNat, (d.msixWord (4 * v + 2)).toNat) } }

/-- The end of a fabric cycle within a command that takes several: its events enter the FIFO before those of the next (R71). -/
def Dev.cycle (d : Dev) : Dev := { d with evq := d.evq.settle d.schTick }

/-- The end of a command: its events enter the FIFO and the interrupt outputs follow. -/
def Dev.settle (d : Dev) : Dev := d.cycle.settleIntr

/-- The form of every meaning that changes only the device. -/
def onDev (f : Dev → Dev) (s : State) : Host.Outcome State Fault Refusal :=
  .next { s with dev := (f s.dev).settle }

/-! ### The gate of host writes (R49 to R51, R529) -/

/-- The host code of spec/02. -/
def agentCode : Agent → Nat
  | .pcie => 0 | .spi => 1 | .sup => 2

/-- The agent may write: it owns writes, or it is the supervisor (R529). -/
def Dev.owns (d : Dev) (h : Agent) : Bool :=
  match h with
  | .sup => true
  | .pcie => d.rd Reg.HIF_OWN_OWNER == 0
  | .spi => d.rd Reg.HIF_OWN_OWNER == 1

/-- Block `b` is locked for agent `h` (R49). -/
def Dev.locked (d : Dev) (h : Agent) (b : Nat) : Bool :=
  h != .sup && d.rd Reg.LOCK_BLK_LOCK / 2 ^ b % 2 == 1

/-- The standing program is RUNNING, which locks the RWS, RWL and HRW fields of HRT, ALM, FLW and TDM and SRC (R459). -/
def Dev.standLocked (d : Dev) (h : Agent) (b : Nat) : Bool :=
  h != .sup && d.rd Reg.ALM_SPSTAT_STATE == 2 && [7, 8, 9, 10].contains b

/-- Record a lock violation (R50): `kind` is the code of LOCK_VADDR.KIND. -/
def Dev.lockViol (d : Dev) (h : Agent) (addr kind : Nat) : Dev :=
  let d := { d with live := (d.wr Reg.LOCK_VCNT_COUNT ((d.rd Reg.LOCK_VCNT_COUNT + 1) % 2 ^ 32)).live }
  if d.on Reg.LOCK_STATUS_LOCK_VIOL then d.flag Reg.LOCK_STATUS_OVER
  else
    let d := d.flag Reg.LOCK_STATUS_LOCK_VIOL
    let d := ((d.wr Reg.LOCK_VADDR_ADDR addr).wr Reg.LOCK_VADDR_HOST (agentCode h)).wr Reg.LOCK_VADDR_KIND kind
    d.post 23 1 (addr % 2 ^ 24 + agentCode h * 2 ^ 24 + kind * 2 ^ 26)

/-- The violation, if any, of a command write: to the CMD field `f`, and to staged argument fields in the same word
when `args` (R49; the order of kinds is that of R50). -/
def Dev.cmdViolation (d : Dev) (h : Agent) (f : Fld) (args : Bool) : Option Nat :=
  if !d.owns h then some 2
  else if d.locked h (blockOf f.addr) then
    if d.on Reg.LOCK_POLICY_LOCK_CMD then some 3
    else if args then some 0 else none
  else if args && d.standLocked h (blockOf f.addr) then some 0
  else none

/-- Block `b` is stopped in the power state in force (R486). -/
def Dev.stopped (d : Dev) (b : Nat) : Bool :=
  let st := d.rd Reg.PWR_STATUS_STATE
  (decide (3 ≤ st) && [5, 6, 9, 10, 20, 21].contains b) || (st == 4 && [7, 11, 12, 17, 18].contains b)

/-- The supervisor runs: kindling has started it, it is not restarting, and the device is not in P4. -/
def Dev.supRuns (d : Dev) : Bool := decide (4 ≤ d.rd Reg.PWR_KSTAT_STEP) && d.sup.down.isNone && d.rd Reg.PWR_STATUS_STATE != 4

/-- A change to a shallower state begins at once (R487): `c` is its wake cause, 8 where no wake event brings it. -/
def Dev.powerLeave (d : Dev) (c : Nat) : Dev :=
  if d.powerTarget < d.rd Reg.PWR_STATUS_STATE ∧ d.pwr.exiting.isNone then
    { d with pwr := { d.pwr with exiting := some (c, d.timeNs) } }
  else d

/-- A wake event with cause `c`: the exit from P3 or P4 starts, whatever the target (R488). -/
def Dev.wake (d : Dev) (c : Nat) : Dev :=
  if 3 ≤ d.rd Reg.PWR_STATUS_STATE ∧ d.pwr.exiting.isNone then
    { d with pwr := { d.pwr with exiting := some (c, d.timeNs) } }
  else d.powerLeave c

/-- Agent `h` has accessed the block (R487); a host write to a block other than PWR, CMT and INT is a wake event (R488). -/
def Dev.touch (d : Dev) (h : Agent) (write : Bool) (b : Nat) : Dev :=
  if h = .sup then d else
  let d := { d with pwr := { d.pwr with touchAt := d.timeNs } }
  if write && !(([1, 22, 24] : List Nat).contains b) then d.wake 0 else d.powerLeave 8

/-- A covered field has changed: a running scan of the configuration CRC is dirty (R55). -/
def Dev.dirty (d : Dev) : Dev :=
  match d.fab.scan with
  | some x => { d with fab := { d.fab with scan := some { x with dirty := true } } }
  | none => d

/-- Software loads an RWL field. -/
def Dev.load (d : Dev) (f : Fld) (v : Nat) : Dev := if d.rd f = v then d else (d.wr f v).dirty

/-- The device loads the RWL word at `a` (R55). -/
def Dev.loadWord (d : Dev) (a : Nat) (w : Word) : Dev := if d.word a = w then d else (d.setWord a w).dirty

/-- A command that concerns a stopped block waits for the exit (R488); one more queues behind it, and a further one merges with
that (R32). -/
def Dev.hold (d : Dev) (h : Agent) (f : Fld) : Dev :=
  let same := d.pwr.held.filter fun e => e.2.1 == f.addr && e.2.2 == f.lo
  if 2 ≤ same.length then d else { d with pwr := { d.pwr with held := d.pwr.held ++ [(h, f.addr, f.lo)] } }

/-- The gate of a host command: a write of 1 to the CMD field `f` together with the RWL argument fields `args` of its word;
the second part tells whether the command is to act now. A lock violation is recorded and nothing else happens (R50); on
a stopped block the command waits (R488). -/
def Dev.hostGate (d : Dev) (h : Agent) (f : Fld) (args : List (Fld × Nat)) : Dev × Bool :=
  let d := d.touch h true (blockOf f.addr)
  match d.cmdViolation h f (!args.isEmpty) with
  | some k => (d.lockViol h f.addr k, false)
  | none =>
    let d := args.foldl (fun d a => d.load a.1 a.2) d
    if d.stopped (blockOf f.addr) then (d.hold h f, false) else (d, true)

/-- A host command with the effect `eff`. -/
def Dev.hostCmd (d : Dev) (h : Agent) (f : Fld) (args : List (Fld × Nat)) (eff : Dev → Dev) : Dev :=
  let r := d.hostGate h f args
  if r.2 then eff r.1 else r.1

/-- The form of every meaning that changes the device and what survives PORST_N. -/
def onBoth (f : NV × Dev → NV × Dev) (s : State) : Host.Outcome State Fault Refusal :=
  let r := f (s.nv, s.dev)
  .next { s with nv := r.1, dev := r.2.settle }

/-- A host command whose effect `eff` concerns fuses or flash as well. -/
def hostBoth (x : NV × Dev) (h : Agent) (f : Fld) (args : List (Fld × Nat)) (eff : NV × Dev → NV × Dev) : NV × Dev :=
  let r := x.2.hostGate h f args
  if r.2 then eff (x.1, r.1) else (x.1, r.1)

/-- A function of the device as a function of both. -/
def overDev (f : Dev → Dev) (x : NV × Dev) : NV × Dev := (x.1, f x.2)

/-! ### Hearths -/

def hIx : Hearth → Nat
  | .a => 0 | .b => 1

def Dev.sh (d : Dev) (h : Nat) : SchH := if h = 0 then d.sch.hA else d.sch.hB
def Dev.setSh (d : Dev) (h : Nat) (x : SchH) : Dev :=
  if h = 0 then { d with sch := { d.sch with hA := x } } else { d with sch := { d.sch with hB := x } }
def Dev.hm (d : Dev) (h : Nat) : HMem := if h = 0 then d.mem.hA else d.mem.hB
def Dev.setHm (d : Dev) (h : Nat) (x : HMem) : Dev :=
  if h = 0 then { d with mem := { d.mem with hA := x } } else { d with mem := { d.mem with hB := x } }
def Dev.hh (d : Dev) (h : Nat) : HrtH := if h = 0 then d.hrt.a else d.hrt.b
def Dev.setHh (d : Dev) (h : Nat) (x : HrtH) : Dev :=
  if h = 0 then { d with hrt := { d.hrt with a := x } } else { d with hrt := { d.hrt with b := x } }
def Dev.ch (d : Dev) (c : Nat) : Dram := if c = 0 then d.mem.ch0 else d.mem.ch1
def Dev.setCh (d : Dev) (c : Nat) (x : Dram) : Dev :=
  if c = 0 then { d with mem := { d.mem with ch0 := x } } else { d with mem := { d.mem with ch1 := x } }

/-- HRT_CFG.MODE: paired 0, split 1, mixed 2 (R422). -/
def Dev.mode (d : Dev) : Nat := d.rd Reg.HRT_CFG_MODE

/-- Engine `e`'s state. -/
def Dev.en (d : Dev) (e : Nat) : EngS := Sparse.get {} d.eng.e e
def Dev.setEn (d : Dev) (e : Nat) (g : EngS) : Dev :=
  { d with eng := { d.eng with e := Sparse.put {} d.eng.e e g } }
def Dev.modEn (d : Dev) (e : Nat) (f : EngS → EngS) : Dev := d.setEn e (f (d.en e))

/-- The device runs in the 96 kHz family (SYN_STATUS.RATE96_NOW). -/
def Dev.fam96 (d : Dev) : Bool := d.on Reg.SYN_STATUS_RATE96_NOW

/-- N, the samples per tick (R106). -/
def Dev.nSamples (d : Dev) : Nat := if d.fam96 then 12 else 6

end Sys2Proof.Machine
end

