-- ==== Sys2Proof/Machine/EngineCore.lean ====
section
/-! DEFINITION. The register files of a stoke engine, the issue of an instruction (R137, R138, R164) and the flow of
control (R189, R190). -/
namespace Sys2Proof.Machine

/-! ### Register files -/

def EngS.getS (g : EngS) (r : Nat) : Word := Sparse.get 0 g.s r
def EngS.setS (g : EngS) (r : Nat) (x : Word) : EngS := { g with s := Sparse.put 0 g.s r x }
def EngS.getA (g : EngS) (r : Nat) : Word := Sparse.get 0 g.a r
def EngS.setA (g : EngS) (r : Nat) (x : Word) : EngS := { g with a := Sparse.put 0 g.a r x }
/-- Lane `i` of v`r`. -/
def EngS.getV (g : EngS) (r i : Nat) : Word := Sparse.get 0 g.v (8 * r + i)
def EngS.setV (g : EngS) (r i : Nat) (x : Word) : EngS := { g with v := Sparse.put 0 g.v (8 * r + i) x }
/-- p0 always reads 0xFF and ignores writes (R121). -/
def EngS.getP (g : EngS) (r : Nat) : BitVec 8 := if r = 0 then 0xFF else Sparse.get 0 g.p r
def EngS.setP (g : EngS) (r : Nat) (x : BitVec 8) : EngS := if r = 0 then g else { g with p := Sparse.put 0 g.p r x }
/-- Lane `i` of w`r`. -/
def EngS.getW (g : EngS) (r i : Nat) : BitVec 72 := Sparse.get 0 g.w (8 * r + i)
def EngS.setW (g : EngS) (r i : Nat) (x : BitVec 72) : EngS := { g with w := Sparse.put 0 g.w (8 * r + i) x }
/-- Set sticky flags (R128). -/
def EngS.orFlags (g : EngS) (f : Flg) : EngS := { g with flags := g.flags ||| f }
/-- Lane `i` is enabled by predicate `p` (R124). -/
def EngS.lane (g : EngS) (p i : Nat) : Bool := (g.getP p).getLsbD i

/-- The lanes 0 to 7. -/
def lanes : List Nat := [0, 1, 2, 3, 4, 5, 6, 7]

/-- Write `f i` and its flags into each enabled lane of v`d`; sources are read from the register values at issue
(R124, R169). -/
def EngS.vmap (g : EngS) (p d : Nat) (f : Nat → Word × Flg) : EngS :=
  lanes.foldl (fun g' i => if g.lane p i then (g'.setV d i (f i).1).orFlags (f i).2 else g') g

/-- As `vmap`, into a wide register. -/
def EngS.wmap (g : EngS) (p d : Nat) (f : Nat → BitVec 72 × Flg) : EngS :=
  lanes.foldl (fun g' i => if g.lane p i then (g'.setW d i (f i).1).orFlags (f i).2 else g') g

/-- A compare: write only the enabled bits of p`d` (R172). -/
def EngS.pmap (g : EngS) (p d : Nat) (f : Nat → Bool × Flg) : EngS :=
  let bits := lanes.foldl (fun acc i =>
    let b := if g.lane p i then (f i).1 else (g.getP d).getLsbD i
    if b then acc + 2 ^ i else acc) 0
  let fl := lanes.foldl (fun acc i => if g.lane p i then acc ||| (f i).2 else acc) 0
  (g.setP d (BitVec.ofNat 8 bits)).orFlags fl

/-! ### Timing (R137, R138) -/

/-- Scoreboard numbers of the registers: 0-15 s, 16-23 a, 24-27 p, 28-31 w, 32-63 v. -/
def rS (r : Nat) : Nat := r
def rA (r : Nat) : Nat := 16 + r
def rP (r : Nat) : Nat := 24 + r
def rW (r : Nat) : Nat := 28 + r
def rV (r : Nat) : Nat := 32 + r

/-- What an instruction's timing depends on: the registers it reads, the wide registers it reads as a following
multiply-accumulate, the registers it writes with the latency of each, its issue cost, and whether it is a
multiply-accumulate. -/
structure Tim where
  reads : List Nat := []
  macReads : List Nat := []
  writes : List (Nat × Nat) := []
  cost : Nat := 1
  mac : Bool := false
  deriving DecidableEq, Repr

/-- The registers v`r`, v`r+1`, ... (`n` of them). -/
def vs (r n : Nat) : List Nat := (List.range n).map fun i => rV (r + i)

def tS (d : Nat) (rs : List Nat) : Tim := { reads := rs, writes := [(rS d, 1)] }
def tA (d : Nat) (rs : List Nat) : Tim := { reads := rs, writes := [(rA d, 1)] }
def tP (d : Nat) (rs : List Nat) : Tim := { reads := rs, writes := [(rP d, 1)] }
def tV (d lat : Nat) (rs : List Nat) (cost : Nat := 1) : Tim := { reads := rs, writes := [(rV d, lat)], cost := cost }
def tMac (d : Nat) (rs : List Nat) : Tim :=
  { reads := rs, macReads := [d], writes := [(rW d, 4)], mac := true }

/-- The timing of each instruction (R137 and the tables of spec/05). -/
def timing : Instr → Tim
  | .sadd _ d a b | .ssub _ d a b | .sand _ d a b | .sor _ d a b | .sxor _ d a b | .sshl _ d a b | .sshr _ d a b
  | .sshrl _ d a b | .smul _ d a b | .smin _ d a b | .smax _ d a b | .sminu _ d a b | .smaxu _ d a b => tS d [rS a, rS b]
  | .aadds _ d a b => tA d [rA a, rS b]
  | .saddi _ d a _ | .sandi _ d a _ | .sori _ d a _ => tS d [rS a]
  | .sshi _ d a _ _ => tS d [rS a]
  | .slui _ d _ | .sli _ d _ => tS d []
  | .aaddi _ d a _ => tA d [rA a]
  | .amov _ d a => tA d [rS a]
  | .samov _ d a => tS d [rA a]
  | .pand _ d a b | .por _ d a b | .pxor _ d a b | .pandn _ d a b => tP d [rP a, rP b]
  | .pnot _ d a => tP d [rP a]
  | .pfroms _ d a => tP d [rS a]
  | .ptos _ d a | .pcnt _ d a => tS d [rP a]
  | .pseti _ d _ => tP d []
  | .qadd _ d a b p | .qsub _ d a b p | .qmin _ d a b p | .qmax _ d a b p | .vadd _ d a b p | .vsub _ d a b p
  | .vand _ d a b p | .vor _ d a b p | .vxor _ d a b p => tV d 2 [rV a, rV b, rP p]
  | .qneg _ d a p | .qabs _ d a p | .vmov _ d a p => tV d 2 [rV a, rP p]
  | .qshl _ d a b p | .qshr _ d a b p | .vshl _ d a b p | .vshr _ d a b p | .vshrl _ d a b p => tV d 2 [rV a, rS b, rP p]
  | .qmul _ d a b p => tV d 4 [rV a, rV b, rP p]
  | .qmuls _ d a b p => tV d 4 [rV a, rS b, rP p]
  | .qceq _ d a b p | .qclt _ d a b p | .qcle _ d a b p | .fceq _ d a b p | .fclt _ d a b p | .fcle _ d a b p =>
    { reads := [rV a, rV b, rP p], writes := [(rP d, 2)] }
  | .vbcst _ d a p => tV d 2 [rS a, rP p]
  | .vext _ d a _ => { reads := [rV a], writes := [(rS d, 2)] }
  | .vins _ d a _ => tV d 2 [rS a]
  | .vrot _ d a _ p | .vdup _ d a _ p => tV d 2 [rV a, rP p]
  | .vli _ d _ p | .vliu _ d _ p => tV d 2 [rP p]
  | .macv _ d a b p | .msuv _ d a b p => tMac d [rV a, rV b, rP p]
  | .wclrInstruction _ d p => { (tMac d [rP p]) with macReads := [] }
  | .wextl _ d a _ p | .wextr _ d a _ p | .wextt _ d a _ p => tV d 3 [rW a, rP p]
  | .wtov _ d a p =>
    { reads := [rW a, rP p], writes := [(rV d, 3), (rV (d + 1), 3), (rV (d + 2), 3)] }
  | .vtow _ d a p => { reads := rP p :: vs a 3, writes := [(rW d, 3)] }
  | .cstep _ d a b p =>
    { reads := [rV a, rV b, rP p], macReads := [d, d + 1], writes := [(rW d, 4), (rW (d + 1), 4)], mac := true }
  | .fadd _ d a b p | .fsub _ d a b p | .fmul _ d a b p | .fmin _ d a b p | .fmax _ d a b p =>
    tV d 4 [rV a, rV b, rP p]
  | .fabs _ d a p | .fneg _ d a p => tV d 4 [rV a, rP p]
  | .fdiv _ d a b p => tV d 12 [rV a, rV b, rP p] 8
  | .fsqrt _ d a p => tV d 12 [rV a, rP p] 8
  | .fma _ d a b p | .fms _ d a b p => tV d 5 [rV d, rV a, rV b, rP p]
  | .qtof _ d a p | .ftoq _ d a p | .itof _ d a p | .ftoi _ d a p => tV d 4 [rV a, rP p]
  | .ldt _ d a _ p => tV d 3 [rA a, rP p]
  | .ldc _ d a _ _ p => tV d 4 [rA a, rP p] 2
  | .lds _ d a _ _ => { reads := [rA a], writes := [(rS d, 3)] }
  | .stt _ v a _ p => { reads := [rV v, rA a, rP p] }
  | .stc _ v a _ _ p => { reads := [rV v, rA a, rP p], cost := 2 }
  | .sts _ v a _ _ => { reads := [rS v, rA a] }
  | .dlrd _ d a _ p => tV d 6 [rS a, rP p] 2
  | .dlwr _ v a _ p => { reads := [rV v, rS a, rP p] }
  | .biq _ d v _ _ p =>
    { reads := rV v :: rP p :: vs (d + 1) 4,
      writes := [(rV d, 6), (rV (d + 1), 2), (rV (d + 2), 2), (rV (d + 3), 2), (rV (d + 4), 2)], cost := 2 }
  | .gramp _ d v _ _ p => { reads := [rV v, rV (d + 1), rP p], writes := [(rV d, 4), (rV (d + 1), 1)] }
  | .grampv _ d v _ _ p =>
    { reads := [rV v, rV (d + 1), rV (d + 2), rP p], writes := [(rV d, 4), (rV (d + 1), 1)] }
  | .envp _ d v _ _ p | .envs _ d v _ _ p => tV d 2 [rV v, rV d, rP p]
  | .limg _ d v _ _ p => tV d 8 [rV v, rP p] 2
  | .mixa _ d v _ _ p | .mixs _ d v _ _ p => tMac d [rV v, rP p]
  | .mixl _ d v _ _ p => { (tMac d [rV v, rP p]) with macReads := [] }
  | .br _ _ => { cost := 3 }
  | .bz _ a _ | .bnz _ a _ => { reads := [rS a] }
  | .bpz _ a _ => { reads := [rP a] }
  | .loop _ _ _ => { cost := 2 }
  | .loopReg _ a _ _ => { reads := [rS a], cost := 2 }
  | .call _ _ | .ret _ => { cost := 3 }
  | .signal _ _ => {}
  | .wait _ d _ _ => { writes := [(rS d, 1)] }
  | .post _ a _ => { reads := [rS a] }
  | .endRun _ => { cost := 3 }
  | .nop _ => {}
  | .rdflg _ d | .rdcyc _ d | .lidx _ d => tS d []
  | _ => {}

/-- The engine cycle of the compute window in which the latest instruction issued. -/
def EngS.now (g : EngS) : Nat := g.base + g.issued

/-- The completion cycle of the pending write of register `r`. -/
def EngS.readyAt (g : EngS) (r : Nat) : Nat := if r = rP 0 then 0 else Sparse.get 0 g.ready r

/-- The issue cycle of the next instruction (R137, R138). -/
def EngS.issueCycle (g : EngS) (t : Tim) : Nat :=
  let a := t.reads.foldl (fun c r => max c (g.readyAt r)) g.next
  let b := t.macReads.foldl (fun c r => max c (Sparse.get 0 g.macReady r)) a
  t.writes.foldl (fun c w => max c (g.readyAt w.1 - w.2)) b

/-- The scoreboard after the issue at cycle `c`. -/
def EngS.scoreboard (g : EngS) (t : Tim) (c : Nat) : EngS :=
  let rd := t.writes.foldl (fun m w => Sparse.put 0 m w.1 (c + w.2)) g.ready
  let wr := t.writes.filter fun w => rW 0 ≤ w.1 ∧ w.1 ≤ rW 3
  let mr := wr.foldl (fun m w => Sparse.put 0 m (w.1 - 28) (if t.mac then c + 1 else c + w.2)) g.macReady
  { g with ready := rd, macReady := mr, issued := c, next := c + t.cost }

/-- The breakpoint of R164: the issue of the breakpoint instruction copies the scalars, the PC and the tick. -/
def Dev.breakpoint (d : Dev) (e : Nat) : Dev :=
  let g := d.en e
  if d.on (Reg.ENG_BRK_EN e) && !d.on (Reg.ENG_STATUS_BRKHIT e) && g.running
      && g.pc == d.rd (Reg.ENG_BRK_PC e) && g.job == d.rd (Reg.ENG_BRK_JOB e) then
    let d := (List.range 16).foldl (fun d i => d.wr (Reg.ENG_BSNAP_VAL e i) (g.getS i).toNat) d
    let d := ((d.wr (Reg.ENG_BPC_PC e) g.pc).wr (Reg.ENG_BPC_JOB e) g.job).wr (Reg.ENG_BTICK_TICK e) d.schTick
    (d.flag (Reg.ENG_STATUS_BRKHIT e)).post (20 + e / 8) 2 (g.job % 1024 + g.pc * 2 ^ 10 + d.schTick * 2 ^ 32)
  else d

/-- The issue of an instruction on engine `e`: the breakpoint test and the scoreboard. -/
def Dev.issue (d : Dev) (i : Instr) (e : Nat) : Dev :=
  let d := d.breakpoint e
  d.modEn e fun g => g.scoreboard (timing i) (g.issueCycle (timing i))

/-- What follows the issue of the instruction at `q`: each active loop that ends there, innermost first, starts its next
iteration or ends (R189). -/
def loopEnd (depth : Nat) : List LoopFrame → Nat → List LoopFrame × Nat
  | [], q => ([], q + 1)
  | l :: ls, q =>
    if l.depth = depth ∧ l.last = q then
      if l.iter + 1 < l.count then ({ l with iter := l.iter + 1 } :: ls, l.start)
      else loopEnd depth ls q
    else (l :: ls, q + 1)

/-- Move to the next instruction. -/
def EngS.advance (g : EngS) : EngS :=
  let (ls, pc) := loopEnd g.calls.length g.loops g.pc
  { g with loops := ls, pc := pc }

/-- Transfer to `t`: the loops of this call level that do not hold `t` end (R190). -/
def EngS.jump (g : EngS) (t : Nat) : EngS :=
  { g with loops := g.loops.dropWhile (fun l => l.depth == g.calls.length && !(decide (l.start ≤ t) && decide (t ≤ l.last))),
           pc := t }

/-- A branch by the signed offset `off`, when `taken`; a taken branch costs 3 (R137, R188). -/
def EngS.branch (g : EngS) (taken : Bool) (off : BitVec 20) : EngS :=
  if taken then { (g.jump ((g.pc : Int) + off.toInt).toNat) with next := g.next + 2 } else g.advance

/-- LOOP (R189): `count` iterations of the `len` instructions that follow. -/
def EngS.loopStart (g : EngS) (count len : Nat) : EngS :=
  if count = 0 then
    let (ls, pc) := loopEnd g.calls.length g.loops (g.pc + len)
    { g with loops := ls, pc := pc }
  else
    { g with loops := { start := g.pc + 1, last := g.pc + len, iter := 0, count := count, depth := g.calls.length } :: g.loops,
             pc := g.pc + 1 }

/-- CALL (R188). -/
def EngS.callTo (g : EngS) (off : BitVec 20) : EngS :=
  { g with calls := g.pc :: g.calls, pc := ((g.pc : Int) + off.toInt).toNat }

/-- RET (R188, R189, R190): every loop entered since the CALL ends, and the CALL counts as the last instruction of a
body that ends on it. -/
def EngS.doRet (g : EngS) : EngS :=
  match g.calls with
  | [] => g
  | q :: cs =>
    let ls := g.loops.dropWhile fun l => decide (l.depth > cs.length)
    let (ls, pc) := loopEnd cs.length ls q
    { g with calls := cs, loops := ls, pc := pc }

/-- The form of the register instructions: issue, the effect on the engine's registers, the next instruction. -/
def engOp (i : Instr) (e : Eng) (f : EngS → EngS) (s : State) : Host.Outcome State Fault Refusal :=
  onDev (fun d => (d.issue i e).modEn e fun g => (f g).advance) s

/-- The form of the control instructions: the effect sets the next instruction itself. -/
def ctlOp (i : Instr) (e : Eng) (f : EngS → EngS) (s : State) : Host.Outcome State Fault Refusal :=
  onDev (fun d => (d.issue i e).modEn e f) s

/-- The form of the instructions that touch more than the engine. -/
def devOp (i : Instr) (e : Eng) (f : Dev → Dev) (s : State) : Host.Outcome State Fault Refusal :=
  onDev (fun d => (f (d.issue i e)).modEn e EngS.advance) s

end Sys2Proof.Machine
end

