-- ==== Sys2Proof/Machine/JobDesc.lean ====
section
/-! DEFINITION. The job descriptor (R83), channel handles (R85), and which hearth plans a job (R89). -/
namespace Sys2Proof.Machine


namespace Job

/-- Descriptor word `i`, at byte offset 4i. -/
def w (j : Job) (i : Nat) : Nat := (j.desc.getD i 0).toNat

def jobId (j : Job) : Nat := bits (j.w 0) 9 0
/-- CLASS: 0 E0, 1 E1, 2 E2, 3 P, 4 S, 5 B. -/
def cls (j : Job) : Nat := bits (j.w 0) 14 12
def prot (j : Job) : Bool := bits (j.w 0) 15 15 == 1
def defer (j : Job) : Bool := bits (j.w 0) 16 16 == 1
def hearth (j : Job) : Nat := bits (j.w 0) 17 17
def engMask (j : Job) : Nat := bits (j.w 0) 31 24
def wcet (j : Job) : Nat := bits (j.w 1) 16 0
def maxDefer (j : Job) : Nat := bits (j.w 1) 31 24
def progId (j : Job) : Nat := bits (j.w 2) 11 0
def entry (j : Job) : Nat := bits (j.w 2) 31 16
def bank (j : Job) : Nat := bits (j.w 3) 11 0
/-- The valid predecessors among PRED0 to PRED5; a standing job names standing jobs. -/
def preds (j : Job) : List Nat :=
  ([0, 1, 2, 3, 4, 5].map fun i => bits (j.w (4 + i / 2)) (16 * (i % 2) + 15) (16 * (i % 2))).filterMap fun p =>
    if p / 2 ^ 15 = 1 then some (p % 1024 + (if j.standing then 1024 else 0)) else none
/-- Range word `i` (7, 8 input; 9, 10 output): first handle and count. -/
def range (j : Job) (i : Nat) : Nat × Nat := (bits (j.w i) 15 0, bits (j.w i) 27 16)
def ins (j : Job) : List (Nat × Nat) := [j.range 7, j.range 8]
def outs (j : Job) : List (Nat × Nat) := [j.range 9, j.range 10]
def embOff (j : Job) : Nat := bits (j.w 11) 13 0
def embLen (j : Job) : Nat := bits (j.w 11) 30 16
def dlFirst (j : Job) : Nat := bits (j.w 12) 11 0
def dlCount (j : Job) : Nat := bits (j.w 12) 19 12
def tapSlew (j : Job) : Nat := bits (j.w 12) 31 20
def tiles (j : Job) : Nat := bits (j.w 13) 15 0

/-- The entry holds a job: admitted, or released and not yet free (R82). -/
def present (j : Job) : Bool := !j.desc.isEmpty
/-- Admitted for job commands (R82). -/
def admitted (j : Job) : Bool := j.present && j.releasing.isNone
/-- Suspended in any way (R81, R99, R453). -/
def suspended (j : Job) : Bool := j.hostSusp || j.ovSusp.isSome || j.standSusp
/-- Delay line `l` lies in the job's range (R134). -/
def namesLine (j : Job) (l : Nat) : Bool := decide (j.dlFirst ≤ l) && decide (l < j.dlFirst + j.dlCount)

end Job

/-- Handle `c` lies in one of the ranges. -/
def inRanges (rs : List (Nat × Nat)) (c : Nat) : Bool := rs.any fun r => decide (r.1 ≤ c) && decide (c < r.1 + r.2)

/-- The handles of the ranges. -/
def handlesOf (rs : List (Nat × Nat)) : List Nat := rs.flatMap fun r => (List.range r.2).map (r.1 + ·)

/-- The extent of a handle space (R85). -/
def extent (fam96 : Bool) (space : Nat) : Nat :=
  match space with
  | 0 => if fam96 then 512 else 1024
  | 1 => if fam96 then 512 else 1024
  | 2 => 256
  | 3 => 256
  | 4 => 4096
  | 5 => 64
  | _ => 0

/-- Handle `c` names a channel (R85). -/
def handleOk (fam96 : Bool) (c : Nat) : Bool := decide (c % 4096 < extent fam96 (c / 4096))

/-- The job table entry `k` now, and in force for the current tick (R80). -/
def Dev.job (d : Dev) (k : Nat) : Job := Sparse.get {} d.sch.jobs k
def Dev.jobF (d : Dev) (k : Nat) : Job := Sparse.get {} d.sch.force k
def Dev.setJob (d : Dev) (k : Nat) (j : Job) : Dev := { d with sch := { d.sch with jobs := Sparse.put {} d.sch.jobs k j } }
def Dev.modJob (d : Dev) (k : Nat) (f : Job → Job) : Dev := d.setJob k (f (d.job k))

/-- Hearth `h` builds a plan in this tick (R89, R422, R424). -/
def Dev.canPlan (d : Dev) (h : Nat) : Bool :=
  match (d.hh h).st with
  | .active | .run => true
  | .standby | .syncing => d.mode == 2
  | _ => false

/-- Hearth `h` plans job `j` by the hearth mode (R89, R436). -/
def Dev.plans (d : Dev) (h : Nat) (j : Job) : Bool :=
  match d.mode with
  | 0 => h == d.hrt.active
  | 1 => h == j.hearth
  | _ =>
    if h = d.hrt.active then j.prot || j.hearth == h
    else !j.prot && j.hearth == h

/-- Job `k` precedes job `j` directly or through a chain of predecessors, in the table `t` (R86); chains hold at most
8 jobs (R87). -/
def precedes (t : Sparse Job) (k : Nat) : Nat → Job → Bool
  | 0, _ => false
  | n + 1, j => j.preds.any fun p => p == k || precedes t k n (Sparse.get {} t p)

/-- The in-force writer of channel `c`; a standing job comes before a host job (R454). -/
def Dev.writerOf (d : Dev) (c : Nat) : Option (Nat × Job) :=
  match d.sch.force.find? fun e => e.2.standing && inRanges e.2.outs c with
  | some e => some e
  | none => d.sch.force.find? fun e => inRanges e.2.outs c

/-! ### Layout of grate memory (R193) -/

def Dev.embPages (d : Dev) : Nat := d.rd Reg.ALC_LAYOUT_EMB_PAGES
def Dev.banks (d : Dev) : Nat := d.rd Reg.ALC_LAYOUT_BANKS
def Dev.frameCount (d : Dev) : Nat := d.rd Reg.ALC_LAYOUT_FRAMES
def Dev.bankPage (d : Dev) : Nat := 256 + 2 * d.embPages
def Dev.framePage (d : Dev) : Nat := d.bankPage + d.banks
def Dev.poolPage (d : Dev) : Nat := d.framePage + d.frameCount

end Sys2Proof.Machine
end

