-- ==== Sys2Proof/Machine/Operands.lean ====
section
/-! DEFINITION. The operand forms of an engine: effective addresses and what they name (R129 to R133, R175 to R177), and
the coefficient operand of Format D (R135). -/
namespace Sys2Proof.Machine

/-- The effective address of a Format C access (R130), `add` grate words further on. -/
def effAddr (a : Word) (off : BitVec 10) (add : Nat) : Word :=
  (a &&& 0xC0000000) ||| ((a + off.signExtend 32 + BitVec.ofNat 32 add) &&& 0x3FFFFFFF)

/-- What a grate word of an access is: one of the two tile words of a channel, or eight words of grate memory from a
word address on. -/
inductive GWord where
  | chan (handle tw : Nat)
  | mem (key : Nat)
  deriving DecidableEq, Repr

/-- The grate word that job `j` on hearth `h` names by effective address `ea`, or the violation kind of ENG_VINFO
(R129, R132, R133). -/
def Dev.resolve (d : Dev) (h : Nat) (j : Job) (store : Bool) (ea : Word) : Except Nat GWord :=
  let n := ea.toNat
  let pos := n % 2 ^ 30
  match n / 2 ^ 30 with
  | 0 => if pos < 2 * j.tiles then .ok (.mem (j.run * 16 + 8 * pos)) else .error 2
  | 1 =>
    let c := pos / 2
    if pos ≥ 2 ^ 17 then .error 0
    else if inRanges j.outs c then .ok (.chan c (pos % 2))
    else if inRanges j.ins c then (if store then .error 1 else .ok (.chan c (pos % 2)))
    else .error 0
  | 2 =>
    if store then .error 1
    else if pos < 128 then
      .ok (.mem ((if j.standing then 1984 + j.bank else d.bankPage + j.bank) * 1024 + 8 * pos))
    else .error 5
  | _ =>
    if pos < 2 * j.embLen then
      .ok (.mem ((256 + (d.hh h).work * d.embPages) * 1024 + j.embOff * 16 + 8 * pos))
    else .error 3

/-- The tile a load by job `k` reads from channel `c`: its parity, or nothing where the channel reads zero
(R86, R132). -/
def Dev.tileOf (d : Dev) (h k : Nat) (j : Job) (c : Nat) : Option Nat :=
  let cur := d.mem.par
  let prev := 1 - d.mem.par
  let space := c / 4096
  if space = 0 ∨ space = 2 then some prev
  else if inRanges j.outs c then some (if space = 4 then prev else cur)
  else if c = 0x4FFF then some cur
  else
    match d.writerOf c with
    | none => none
    | some (w, wj) =>
      if !d.plans h wj then none
      else if precedes d.sch.force w 8 (d.jobF k) then some cur else some prev

/-- A word of a tile. -/
def HMem.tile (m : HMem) (c par lane : Nat) : Word := Sparse.get 0 m.tiles ((2 * c + par) * 16 + lane)
def HMem.setTile (m : HMem) (c par lane : Nat) (x : Word) : HMem :=
  { m with tiles := Sparse.put 0 m.tiles ((2 * c + par) * 16 + lane) x }
/-- A word of grate memory from the ember area on. -/
def HMem.word (m : HMem) (key : Nat) : Word := Sparse.get 0 m.gw key
def HMem.setWord (m : HMem) (key : Nat) (x : Word) : HMem := { m with gw := Sparse.put 0 m.gw key x }

/-- The key of a lane of a grate word in the log of the latest cycle's stores (R196): a tile lane, a word of grate memory, or position
`pos` of delay line `l`. -/
def tileKey (c par lane : Nat) : Nat := 3 * ((2 * c + par) * 16 + lane)
def wordKey (key : Nat) : Nat := 3 * key + 1
def lineKey (l pos : Nat) : Nat := 3 * (l * 2 ^ 18 + pos) + 2

/-- What a load in engine cycle `t` returns for a word that holds `x` now: its content before the stores of that cycle (R196). -/
def HMem.seenAt (m : HMem) (t key : Nat) (x : Word) : Word :=
  let r := Sparse.get (16, 0) m.stores key
  if m.cyc = t ∧ r.1 ≠ 16 then r.2 else x

/-- Engine `e` stores in cycle `t` to a word that holds `old`: noted, and whether the store takes effect. The stores of a cycle apply in
ascending engine order (R196). -/
def HMem.noteStore (m : HMem) (t e key : Nat) (old : Word) : HMem × Bool :=
  let log := if m.cyc = t then m.stores else []
  let r := Sparse.get (16, 0) log key
  if r.1 = 16 then ({ m with cyc := t, stores := Sparse.put (16, 0) log key (e, old) }, true)
  else if r.1 ≤ e then ({ m with stores := Sparse.put (16, 0) log key (e, r.2) }, true)
  else (m, false)

/-- Lane `i` of a grate word as a load of engine `e` sees it; lanes of a tile that hold no sample return 0 (R131, R196). -/
def Dev.loadLane (d : Dev) (e : Nat) (g : GWord) (i : Nat) : Word :=
  let m := d.hm (e / 8)
  let t := (d.en e).now
  match g with
  | .mem key => m.seenAt t (wordKey (key + i)) (m.word (key + i))
  | .chan c tw =>
    let n := tw * 8 + i
    let k := (d.en e).job
    if n < d.nSamples then
      match d.tileOf (e / 8) k (d.jobF k) c with
      | some par => m.seenAt t (tileKey c par n) (m.tile c par n)
      | none => 0
    else 0

/-- Engine `e` stores lane `i` of a grate word; stores to lanes of a tile that hold no sample are ignored (R131, R196). -/
def Dev.storeLane (d : Dev) (e : Nat) (g : GWord) (i : Nat) (x : Word) : Dev :=
  let m := d.hm (e / 8)
  let t := (d.en e).now
  match g with
  | .mem key =>
    let (m, wins) := m.noteStore t e (wordKey (key + i)) (m.word (key + i))
    d.setHm (e / 8) (if wins then m.setWord (key + i) x else m)
  | .chan c tw =>
    let n := tw * 8 + i
    if n < d.nSamples then
      let par := d.mem.par
      let (m, wins) := m.noteStore t e (tileKey c par n) (m.tile c par n)
      d.setHm (e / 8) (if wins then m.setTile c par n x else m)
    else d

/-- An access violation of `kind` at address `ea` (R133): suppressed by the caller; counted, captured at the first since
ACCVIOL was cleared, posted at most once per run. -/
def Dev.accViol (d : Dev) (e kind : Nat) (ea : Word) : Dev :=
  let g := d.en e
  let first := !d.on (Reg.ENG_STATUS_ACCVIOL e)
  let d := d.count (Reg.ENG_VCNT_COUNT e) (Reg.ENG_STATUS_CNT_HALF e)
  let d := d.flag (Reg.ENG_STATUS_ACCVIOL e)
  let d := if first then
      (((d.wr (Reg.ENG_VADDR_ADDR e) ea.toNat).wr (Reg.ENG_VINFO_JOB e) g.job).wr (Reg.ENG_VINFO_KIND e) kind).wr
        (Reg.ENG_VINFO_PC e) g.pc
    else d
  if g.accPosted then d
  else
    (d.modEn e fun g => { g with accPosted := true }).post (20 + e / 8) 1
      (g.job % 1024 + kind * 2 ^ 10 + e % 8 * 2 ^ 13 + g.pc % 2 ^ 17 * 2 ^ 16 + ea.toNat % 2 ^ 30 * 2 ^ 34)

/-- The grate words of the listed effective addresses, or the first violation with its address (R176). -/
def Dev.resolveAll (d : Dev) (h : Nat) (j : Job) (store : Bool) : List (Nat × Word) → Except (Nat × Word) (List (Nat × GWord))
  | [] => .ok []
  | (i, ea) :: t =>
    match d.resolve h j store ea with
    | .error k => .error (k, ea)
    | .ok g =>
      match d.resolveAll h j store t with
      | .error x => .error x
      | .ok gs => .ok ((i, g) :: gs)

/-- The enabled lanes of predicate `p`. -/
def EngS.enabled (g : EngS) (p : Nat) : List Nat := lanes.filter (g.lane p)

/-- The coefficient word with index `c` of the bank of the job on engine `e` (R135: modulo 1024). -/
def Dev.coefWord (d : Dev) (e c : Nat) : Word :=
  let j := d.jobF (d.en e).job
  (d.hm (e / 8)).word ((if j.standing then 1984 + j.bank else d.bankPage + j.bank) * 1024 + c % 1024)

/-- `coef(c, i)` of spec/05: word CIX + c, or CIX + 8c + i in the per-lane form. -/
def Dev.coef (d : Dev) (e : Nat) (cix : BitVec 10) (lane : Bool) (c i : Nat) : Word :=
  d.coefWord e (if lane then cix.toNat + 8 * c + i else cix.toNat + c)

end Sys2Proof.Machine
end

