-- ==== Sys2Proof/Machine/Paging.lean ====
section
/-! DEFINITION. Grate memory allocation, page frames, DRAM content and the paging unit (spec/06). -/
namespace Sys2Proof.Machine

/-! ### Runs -/

/-- The runs `a` and `b` (first, length) overlap. -/
def runsMeet (a b : Nat × Nat) : Bool := decide (a.1 < b.1 + b.2) && decide (b.1 < a.1 + a.2)

/-- First fit: the lowest start in [lo, hi) of a free run of `len`. -/
def firstFit (lo hi len : Nat) (used : List (Nat × Nat)) : Option Nat :=
  let cands := lo :: (used.map fun r => r.1 + r.2)
  let ok := cands.filter fun c =>
    decide (lo ≤ c) && decide (c + len ≤ hi) && used.all fun r => !runsMeet (c, len) r
  ok.foldl (fun m c => match m with | none => some c | some x => some (min x c)) none

/-- The length of the longest free run of [lo, hi). -/
def largestRun (lo hi : Nat) (used : List (Nat × Nat)) : Nat :=
  let starts := (lo :: (used.map fun r => r.1 + r.2)).filter fun c => used.all fun r => !runsMeet (c, 1) r
  (starts.map fun c =>
    (used.foldl (fun e r => if c ≤ r.1 then min e r.1 else e) hi) - c).foldl max 0

/-! ### The tile pool (R199, R200) -/

/-- The pool as absolute tile numbers of the hearth: [first, end). -/
def Dev.poolLo (d : Dev) : Nat := d.poolPage * 64
def poolHi : Nat := 1984 * 64

def HMem.usedTiles (m : HMem) : List (Nat × Nat) := m.drawn ++ m.zeroing

/-- ALC_POOLx and ALC_LARGESTx. -/
def Dev.poolFree (d : Dev) (h : Nat) : Nat :=
  if d.on Reg.ALC_CFG_ENABLE then (poolHi - d.poolLo) - ((d.hm h).usedTiles.map (·.2)).sum else 0
def Dev.poolLargest (d : Dev) (h : Nat) : Nat :=
  if d.on Reg.ALC_CFG_ENABLE then largestRun d.poolLo poolHi (d.hm h).usedTiles else 0

/-- The hearths in which a job draws its tiles (R199). -/
def Dev.drawsIn (d : Dev) (j : Job) : List Nat :=
  match d.mode with
  | 0 => [0, 1]
  | 1 => [j.hearth]
  | _ => if j.prot then [0, 1] else [j.hearth]

/-- The run that a job of `tiles` tiles would draw in every hearth of `hs` (R199). -/
def Dev.findTiles (d : Dev) (hs : List Nat) (tiles : Nat) : Option Nat :=
  if tiles = 0 then some 0
  else if !d.on Reg.ALC_CFG_ENABLE then none
  else firstFit d.poolLo poolHi tiles (hs.flatMap fun h => (d.hm h).usedTiles)

/-- Remove the entries of a store with keys in [k, k + n). -/
def clearRange {α : Type} (l : Sparse α) (k n : Nat) : Sparse α := l.filter fun e => !(decide (k ≤ e.1) && decide (e.1 < k + n))

/-- Copy the entries with keys in [from, from + n) to [to, to + n). -/
def copyRange (src : Sparse Word) (from_ n : Nat) (dst : Sparse Word) (dest : Nat) : Sparse Word :=
  (src.filter fun e => decide (from_ ≤ e.1) && decide (e.1 < from_ + n)).foldl
    (fun m e => Sparse.put 0 m (e.1 - from_ + dest) e.2) (clearRange dst dest n)

/-- Draw a run: zero it and record it. -/
def Dev.drawTiles (d : Dev) (hs : List Nat) (run len : Nat) : Dev :=
  if len = 0 then d else
  hs.foldl (fun d h =>
    let m := d.hm h
    d.setHm h { m with gw := clearRange m.gw (run * 16) (len * 16), drawn := (run, len) :: m.drawn }) d

/-- Give a job's run back: it is zeroed before it counts as free (R200). -/
def Dev.returnTiles (d : Dev) (j : Job) : Dev :=
  if j.runLen = 0 then d else
  ((if j.inA then [0] else []) ++ (if j.inB then [1] else [])).foldl (fun d h =>
    let m := d.hm h
    d.setHm h { m with drawn := m.drawn.erase (j.run, j.runLen), zeroing := (j.run, j.runLen) :: m.zeroing }) d

/-- The tiles being zeroed are back in the pool (R200). -/
def HMem.zeroDone (m : HMem) : HMem :=
  { m with gw := m.zeroing.foldl (fun g r => clearRange g (r.1 * 16) (r.2 * 16)) m.gw, zeroing := [] }

/-! ### Lines -/

def Dev.line (d : Dev) (l : Nat) : Option Line := (d.mem.lines.find? fun e => e.1 == l).map (·.2)
def Dev.setLine (d : Dev) (l : Nat) (x : Line) : Dev :=
  { d with mem := { d.mem with lines := d.mem.lines.map fun e => if e.1 == l then (l, x) else e } }

/-- The hearths that reserve frames for a line and may run its readers (R204). -/
def Dev.lineHearths (d : Dev) (x : Line) : List Nat :=
  if d.mode = 0 ∨ (d.mode = 2 ∧ x.prot) then [0, 1] else [x.hearth]

/-- FR of a line (R204). -/
def frOf (span slew : Nat) : Nat := 4 + (span + 6 * slew + 24 + 1023) / 1024

/-- Frames that lines reserve in hearth `h`. -/
def Dev.lineFrames (d : Dev) (h : Nat) : Nat :=
  ((d.mem.lines.filter fun e => (d.lineHearths e.2).contains h).map fun e => e.2.fr).sum

/-- Frames that the loaded message store reserves in each hearth (R219). -/
def Mem.msgFrames (m : Mem) : Nat := if m.msgValid then 192 + (m.msgs.filter (·.pin)).length else 0

/-- ALC_FRAMEFREEx (R219). -/
def Dev.framesFree (d : Dev) (h : Nat) : Nat := d.frameCount - d.lineFrames h - d.mem.msgFrames

/-- The usable capacity of a channel in MiB: 7/8 of the density that PGU_DRAM_INFO shows (R222, R223). -/
def Dev.capMiB (d : Dev) : Nat := 112 * ([4, 6, 8, 12, 16].getD (d.rd Reg.PGU_DRAM_INFO_DENS) 0)

/-- Words of the message region: the delay region begins there (R223). -/
def Dev.delayBase (d : Dev) : Nat := d.rd Reg.PGU_REGION_MSG_MIB * 2 ^ 18

/-- DRAM word address of word 0 of page `p` of a line. -/
def Dev.dramKey (d : Dev) (x : Line) (p : Nat) : Nat := d.delayBase + (x.base + p) * 1024

/-- σ of a line: the largest TAP_SLEW of the admitted jobs that name it (R207). -/
def Dev.sigma (d : Dev) (l : Nat) : Nat :=
  if l ≥ 3072 then d.nSamples
  else (d.sch.jobs.filter fun e => e.2.admitted && e.2.namesLine l).foldl (fun m e => max m e.2.tapSlew) 0

/-- Message `m` exists and is of the current rate family (R202). -/
def Dev.message (d : Dev) (l : Nat) : Option Msg :=
  if !d.mem.msgValid then none else
  match d.mem.msgs[l - 3072]? with
  | some m => if m.rate = (if d.fam96 then 1 else 0) then some m else none
  | none => none

/-! ### Frames (R206) -/

def Dev.frameKey (d : Dev) (f : Nat) : Nat := (d.framePage + f) * 1024

/-- The frame of hearth `h` that holds page `p` of line `l`. -/
def HMem.frameOf (m : HMem) (l p : Nat) : Option (Nat × Frame) :=
  m.frames.find? fun e => e.2.st != .free && e.2.line == l && e.2.page == p

/-- Its content can be read: it is not filling. -/
def HMem.resident (m : HMem) (l p : Nat) : Option Nat :=
  match m.frameOf l p with
  | some (f, fr) => if fr.st = .filling then none else some f
  | none => none

def HMem.setFrame (m : HMem) (f : Nat) (fr : Frame) : HMem := { m with frames := Sparse.put {} m.frames f fr }

/-- As `setFrame`, the frame becoming the most recently used of its hearth (R210). -/
def HMem.useFrame (m : HMem) (f : Nat) (fr : Frame) : HMem :=
  { (m.setFrame f { fr with used := m.uses + 1 }) with uses := m.uses + 1 }

/-- A read uses the frame that holds page `p` of line `l`. -/
def HMem.touch (m : HMem) (l p : Nat) : HMem :=
  match m.frameOf l p with
  | some (f, fr) => m.useFrame f fr
  | none => m

/-- Frames a line holds of its own allotment: a pinned page of a message has a frame beside it (R219). -/
def HMem.heldBy (m : HMem) (l : Nat) : List (Nat × Frame) :=
  m.frames.filter fun e => e.2.st != .free && e.2.line == l && !(decide (3072 ≤ l) && e.2.pinned)

/-- The least recently used of the listed frames. -/
def oldestFrame (es : List (Nat × Frame)) : Option Nat :=
  (es.foldl (fun (best : Option (Nat × Frame)) e => match best with
    | none => some e
    | some b => if e.2.used < b.2.used then some e else some b) none).map (·.1)

/-- The least recently used frame of the line that is resident, not pinned and holds none of the pages `keep`. -/
def HMem.evictable (m : HMem) (l : Nat) (keep : List Nat) : Option Nat :=
  oldestFrame ((m.heldBy l).filter fun e => e.2.st == .resident && !e.2.pinned && !keep.contains e.2.page)

/-- Frames the line may hold by reservation: FR, or 3 for a message line in a voice slot (R204, R220). -/
def Dev.allot (d : Dev) (h l : Nat) : Nat :=
  if l ≥ 3072 then (if (d.hm h).voices.any (·.line == l) then 3 else 0)
  else match d.line l with
    | some x => x.fr
    | none => 0

/-- The lowest free frame. -/
def Dev.freeFrame (d : Dev) (h : Nat) : Option Nat :=
  (List.range d.frameCount).find? fun f => (Sparse.get {} (d.hm h).frames f).st == .free

/-- A frame for a page that its line has reserved (R204, R219): a free one, or the least recently used resident frame that another line
holds beyond its own reservation. -/
def Dev.reservedFrame (d : Dev) (h : Nat) : Option Nat :=
  match d.freeFrame h with
  | some f => some f
  | none =>
    let m := d.hm h
    oldestFrame (m.frames.filter fun e => e.2.st == .resident && !e.2.pinned && decide (e.1 < d.frameCount)
      && decide (d.allot h e.2.line < (m.heldBy e.2.line).length))

/-- The free frames no reservation claims that are in use beyond reservations. -/
def Dev.unreservedFree (d : Dev) (h : Nat) : Bool :=
  let used := (d.hm h).frames.filter fun e => e.2.st != .free && decide (e.1 < d.frameCount)
  let lines := (used.map fun e => e.2.line).dedup
  let extra := (lines.map fun l => (used.filter fun e => e.2.line == l && !(l ≥ 3072 && e.2.pinned)).length - d.allot h l).sum
  decide (extra < d.framesFree h)

/-- A free frame of the standing reserve for message line `l`, which a standing job reads (R537); its index is that of its
page, counted from the first frame of the frames region. -/
def Dev.reserveFrame (d : Dev) (h l : Nat) : Option Nat :=
  if decide (3072 ≤ l) && d.sch.force.any (fun e => e.2.standing && e.2.namesLine l) then
    ((List.range d.alm.plan.sf).map fun i => 1984 + d.alm.plan.sb + i - d.framePage).find? fun f =>
      (Sparse.get {} (d.hm h).frames f).st == .free
  else none

/-- The frame for a demand miss or a prefetch of line `l` (R210): one of its own reservation, its least recently used
frame outside the window, then, for a demand miss, a free frame that nothing reserves. -/
def Dev.claimFrame (d : Dev) (h l : Nat) (keep : List Nat) (demand : Bool) : Option Nat :=
  let m := d.hm h
  let own := if (m.heldBy l).length < d.allot h l then d.reservedFrame h else none
  match own with
  | some f => some f
  | none =>
    match m.evictable l keep with
    | some f => some f
    | none =>
      match (if demand then d.reserveFrame h l else none) with
      | some f => some f
      | none => if demand && d.unreservedFree h then d.freeFrame h else none

/-! ### Page transfers (R206, R210, R212) -/

/-- A transfer can begin or wait: at most 128 in flight per hearth, and a queue of 512. -/
def HMem.room (m : HMem) : Bool := decide (m.inflight.length < 128) || decide (m.queue.length < 512)

/-- A queue with a demand read in it: behind the demand reads before it, ahead of everything else (R210). -/
def putDemand (q : List Xfer) (x : Xfer) : List Xfer := q.takeWhile (·.demand) ++ x :: q.dropWhile (·.demand)

/-- A transfer begins or waits (R206). -/
def HMem.request (m : HMem) (x : Xfer) : HMem :=
  let x := { x with seq := m.nextSeq }
  let m := { m with nextSeq := m.nextSeq + 1 }
  if m.inflight.length < 128 then { m with inflight := m.inflight ++ [x] }
  else if x.demand then { m with queue := putDemand m.queue x }
  else { m with queue := m.queue ++ [x] }

/-- Where the queue is full a demand read takes the place of the last other request that holds nothing back: a prefetch is then not
issued, and a write-back waits in its DIRTY frame. The spec states no other outcome of a full queue (DESIGN CHOICE, log entry 141). -/
def HMem.displace (m : HMem) : HMem :=
  if m.room then m else
  match m.queue.reverse.find? fun x => !x.demand && (x.write || !m.held.any fun w => w.line == x.line && w.page == x.page) with
  | none => m
  | some x =>
    let m := { m with queue := m.queue.filter (·.seq != x.seq) }
    match m.frameOf x.line x.page with
    | some (f, fr) => m.setFrame f (if x.write then { fr with st := .dirty } else {})
    | none => m

/-- A demand miss on a page whose read is queued moves that read ahead (R210). -/
def HMem.promote (m : HMem) (l p : Nat) : HMem :=
  match m.queue.find? fun x => x.line == l && x.page == p && !x.write && !x.demand with
  | some x => { m with queue := putDemand (m.queue.filter (·.seq != x.seq)) { x with demand := true } }
  | none => m

/-- Queued transfers begin while fewer than 128 are in flight. -/
def HMem.pump (m : HMem) : HMem :=
  let n := 128 - m.inflight.length
  { m with inflight := m.inflight ++ m.queue.take n, queue := m.queue.drop n }

/-- A transfer ends; the next queued one begins. -/
def HMem.xferDone (m : HMem) (x : Xfer) : HMem := { m with inflight := m.inflight.filter (·.seq != x.seq) }.pump

/-- The transfer in flight that a completion names. -/
def HMem.flying (m : HMem) (l p : Nat) (w : Bool) : Option Xfer :=
  m.inflight.find? fun x => x.line == l && x.page == p && x.write == w

/-- An earlier transfer of page `p` of line `l` is not done: reads and writes of one page are performed in the order of issue (R212). -/
def HMem.behind (m : HMem) (l p seq : Nat) : Bool :=
  ((m.inflight ++ m.queue).any fun x => x.line == l && x.page == p && decide (x.seq < seq))
  || m.around.any fun a => a.line == l && decide (a.seq < seq) && a.samples.any fun s => s.1 / 1024 == p

/-- Issue a page read into a frame, if one can be had and the channel works. -/
def Dev.issueRead (d : Dev) (h l p : Nat) (keep : List Nat) (demand pin : Bool) : Dev :=
  match (d.hm h).frameOf l p with
  | some _ => if demand then d.setHm h ((d.hm h).promote l p) else d
  | none =>
    if (d.ch h).failed then d else
    let d := if demand then d.setHm h (d.hm h).displace else d
    if !(d.hm h).room then d else
    match d.claimFrame h l keep demand with
    | none => d
    | some f =>
      let m := (d.hm h).useFrame f { st := .filling, line := l, page := p, pinned := pin }
      d.setHm h (m.request { line := l, page := p, write := false, demand := demand })

/-! ### DRAM content -/

/-- The byte at DRAM byte address `b` of a channel. -/
def Dram.byte (c : Dram) (b : Nat) : Nat := (Sparse.get 0 c.words (b / 4)).toNat / 2 ^ (8 * (b % 4)) % 256

/-- Sample `i` of message page `k`: L24, most significant byte first, in bits [31:8] (R216, R218). -/
def Dram.msgSample (c : Dram) (k i : Nat) : Word :=
  let b := 0x5000 + 3072 * k + 3 * i
  BitVec.ofNat 32 (c.byte b * 2 ^ 24 + c.byte (b + 1) * 2 ^ 16 + c.byte (b + 2) * 2 ^ 8)

/-- The content of page `p` of line `l` as read from DRAM channel `ch`, written at word address `key` of `g`. -/
def Dev.fillFrom (d : Dev) (ch l p key : Nat) (g : Sparse Word) : Sparse Word :=
  if l ≥ 3072 then
    match d.mem.msgs[l - 3072]? with
    | none => clearRange g key 1024
    | some m =>
      Sparse.putList 0 (clearRange g key 1024) key ((List.range 1024).map ((d.ch ch).msgSample (m.first + p)))
  else
    match d.line l with
    | none => g
    | some x => copyRange (d.ch ch).words (d.dramKey x p) 1024 g key

/-- A sample stored over word `k`: it clears the poison of its 64-bit word (R224). -/
def HMem.putSample (m : HMem) (k : Nat) (x : Word) : HMem :=
  { (m.setWord k x) with poison := m.poison.filter (· != k / 2) }

/-- The writes made during a fill reach the frame after it, in order (R211). -/
def HMem.afterFill (m : HMem) (l p key : Nat) : HMem :=
  let mine := m.held.filter fun w => w.line == l && w.page == p
  let m := mine.foldl (fun (m : HMem) w => m.putSample (key + w.ix) w.val) m
  { m with held := m.held.filter fun w => !(w.line == l && w.page == p) }

/-- The 64-bit words of a frame that the bad 64-bit word `w` of a channel reaches when it holds page `p` of line `l`
(R224); a word of the message store reaches the samples its bytes belong to. -/
def Dev.poisonOf (d : Dev) (l p key w : Nat) : List Nat :=
  if l ≥ 3072 then
    match d.mem.msgs[l - 3072]? with
    | none => []
    | some m =>
      let b := 0x5000 + 3072 * (m.first + p)
      (((List.range 8).filterMap fun i =>
        let x := 8 * w + i
        if b ≤ x ∧ x < b + 3072 then some (key / 2 + (x - b) / 6) else none)).dedup
  else
    match d.line l with
    | none => []
    | some x =>
      let b := d.dramKey x p / 2
      if b ≤ w ∧ w < b + 512 then [key / 2 + (w - b)] else []

/-- Frame `f` of hearth `h` takes the content of page `p` of line `l` from channel `src`; words that the channel reads with an
uncorrectable error are poisoned (R224). -/
def Dev.loadFrame (d : Dev) (h src f l p : Nat) : Dev :=
  let key := d.frameKey f
  let m := d.hm h
  let clean := m.poison.filter fun k => !(decide (key / 2 ≤ k) && decide (k < key / 2 + 512))
  d.setHm h { m with gw := d.fillFrom src l p key m.gw, poison := clean ++ ((d.ch src).bad.flatMap (d.poisonOf l p key)).dedup }

/-- Start the write-back of a dirty frame (R206, R211), once there is room for it. -/
def Dev.startWriteBack (d : Dev) (h f : Nat) : Dev :=
  let m := d.hm h
  let fr := Sparse.get {} m.frames f
  if fr.st = .dirty ∧ m.room ∧ ¬(d.ch h).failed then
    d.setHm h ((m.setFrame f { fr with st := .writeback }).request
      { line := fr.line, page := fr.page, write := true, demand := false })
  else d

/-- The page read `x` completes: the frame becomes RESIDENT, or DIRTY where writes came during the fill, and one that has left the head
pair since is written back (R206, R211). A page that is read again from the other channel takes its content from there (R224). -/
def Dev.fill (d : Dev) (h : Nat) (x : Xfer) : Dev :=
  let l := x.line
  let p := x.page
  let d := match (d.hm h).frameOf l p with
    | some (f, fr) =>
      if fr.st = FrameSt.filling then
        let m := d.hm h
        let dirty := m.held.any fun w => w.line == l && w.page == p && w.dirty
        let d := d.loadFrame h (if m.alt.contains (l, p) then 1 - h else h) f l p
        let m := { (d.hm h) with alt := m.alt.filter (· != (l, p)) }
        let m := (m.afterFill l p (d.frameKey f)).useFrame f { fr with st := if dirty then .dirty else .resident }
        let d := d.setHm h m
        if fr.pinned then d else d.startWriteBack h f
      else d
    | none => d
  d.setHm h ((d.hm h).xferDone x)

/-- Write the frame's page to its DRAM page: on both channels for a protected line (R213). Poisoned words are not correct data: their
DRAM words stay as they are (R224). -/
def Dev.writeBack (d : Dev) (h f l p : Nat) : Dev :=
  match d.line l with
  | none => d
  | some x =>
    (if x.prot then [0, 1] else [h]).foldl (fun d c =>
      if (d.ch c).failed then d else
      let at_ := d.dramKey x p
      let key := d.frameKey f
      let old := (d.ch c).words
      let bad := (d.hm h).poison.filter fun k => decide (key / 2 ≤ k) && decide (k < key / 2 + 512)
      let new := copyRange (d.hm h).gw key 1024 old at_
      let new := bad.foldl (fun w k =>
        let i := 2 * (k - key / 2) + at_
        Sparse.put 0 (Sparse.put 0 w i (Sparse.get 0 old i)) (i + 1) (Sparse.get 0 old (i + 1))) new
      d.setCh c { (d.ch c) with
        words := new,
        bad := (d.ch c).bad.filter fun w =>
          !(decide (at_ / 2 ≤ w) && decide (w < at_ / 2 + 512)) || bad.contains (key / 2 + (w - at_ / 2)) }) d

/-- The two pages of the head pair (R211). -/
def Line.pair (x : Line) : List Nat := [x.head / 1024, (x.head / 1024 + 1) % x.npages].dedup

/-- Positions [sa, sa + 7] behind the head, as pages: those a read at `s` touches when the head is at `h`. -/
def Line.pagesAt (x : Line) (head s : Nat) : List Nat :=
  let L := 1024 * x.npages
  (lanes.map fun i => ((head + L - s % L + i) % L) / 1024).dedup

/-- The pages of the window [lo, hi] of sa values at head `head`. -/
def Line.windowPages (x : Line) (head lo hi : Nat) : List Nat :=
  let L := 1024 * x.npages
  (((List.range ((hi - lo) / 1024 + 1)).map fun i => x.pagesAt head (min hi (lo + 1024 * i))).flatten
    ++ x.pagesAt head hi ++ x.pagesAt head (lo % L)).dedup

/-- S_t at the end of a tick: carried forward where the tick has no read (R207). -/
def Taps.roll (t : Taps) : Taps :=
  if t.read then { smin := t.nmin, smax := t.nmax, omin := t.smin, omax := t.smax } else { t with omin := t.smin, omax := t.smax }

/-- Record a read at `sa` in the current tick. -/
def Taps.note (t : Taps) (sa : Nat) : Taps :=
  if t.read then { t with nmin := min t.nmin sa, nmax := max t.nmax sa }
  else { t with read := true, nmin := sa, nmax := sa }

/-! ### Delay-line access (R178 to R181) -/

/-- The page and index of lane `i` of an access to line `l` at `sa`, forward (DLWR) or backward (DLRD); nothing at
or past the last sample of a message (R178: the words are read as they stand, log entry 140). -/
def Dev.posOf (d : Dev) (l sa i : Nat) (fwd : Bool) : Option (Nat × Nat) :=
  if l ≥ 3072 then
    match d.message l with
    | some m => if sa + i + 1 < m.length then some ((sa + i) / 1024, (sa + i) % 1024) else none
    | none => none
  else
    match d.line l with
    | none => none
    | some x =>
      let L := 1024 * x.npages
      let pos := if fwd then (x.head + sa + i) % L else (x.head + i + (L - sa % L)) % L
      some (pos / 1024, pos % 1024)

/-- The first page that enabled lanes of a read need and no frame holds ready. -/
def Dev.absentPage (d : Dev) (h l sa : Nat) (ls : List Nat) : Option Nat :=
  (ls.filterMap fun i => (d.posOf l sa i false).map (·.1)).find? fun p => ((d.hm h).resident l p).isNone

/-- A sample that the DRAM page of a line holds. -/
def Dev.dramSample (d : Dev) (ch l p ix : Nat) : Word :=
  if l ≥ 3072 then
    match d.mem.msgs[l - 3072]? with
    | some m => (d.ch ch).msgSample (m.first + p) ix
    | none => 0
  else
    match d.line l with
    | some x => Sparse.get 0 (d.ch ch).words (d.dramKey x p + ix)
    | none => 0

/-- The latest sample written to a position that has not reached DRAM or a frame yet. -/
def HMem.pending (m : HMem) (l : Nat) (q : Nat × Nat) : Option Word :=
  let held := (m.held.filter fun w => w.line == l && w.page == q.1 && w.ix == q.2).map (·.val)
  let around := ((m.around.filter (·.line == l)).flatMap (·.samples)).filter fun s => s.1 == q.1 * 1024 + q.2
  match held.getLast? with
  | some x => some x
  | none => (around.map (·.2)).getLast?

/-- What line `l` holds at a position, as hearth `h` reads it (R179, R211, R213). -/
def Dev.lineWord (d : Dev) (h l : Nat) (q : Nat × Nat) : Word :=
  let m := d.hm h
  match m.resident l q.1 with
  | some f => m.word (d.frameKey f + q.2)
  | none =>
    match m.pending l q with
    | some x => x
    | none => d.dramSample (if m.alt.contains (l, q.1) then 1 - h else h) l q.1 q.2

/-- The key of a position of a line in the log of the latest cycle's stores (R196, R205). -/
def posKey (l : Nat) (q : Nat × Nat) : Nat := lineKey l (q.1 * 1024 + q.2)

/-- What the enabled lanes `ls` of a read that issues now on engine `e` return (R178, R179, R196). -/
def Dev.dlSeen (d : Dev) (e l sa : Nat) (ls : List Nat) : List (Nat × Word) :=
  let h := e / 8
  ls.map fun i => (i, match d.posOf l sa i false with
    | some q => (d.hm h).seenAt (d.en e).now (posKey l q) (d.lineWord h l q)
    | none => 0)

/-- A position lies in a poisoned 64-bit word (R224). -/
def Dev.poisonedAt (d : Dev) (h l : Nat) (p : Nat × Nat) : Bool :=
  match (d.hm h).resident l p.1 with
  | some f => (d.hm h).poison.contains ((d.frameKey f + p.2) / 2)
  | none => false

/-- The tap record of a line in hearth `h`. -/
def Dev.tapOf (d : Dev) (h l : Nat) : Taps := Sparse.get {} (d.hm h).taps l

/-- Record the tap of a read (R207, R220). -/
def Dev.noteTap (d : Dev) (h l sa : Nat) : Dev :=
  let m := d.hm h
  let m := { m with taps := Sparse.put {} m.taps l ((d.tapOf h l).note sa) }
  d.setHm h <|
    if l < 3072 then m
    else if m.voices.any (·.line == l) then
      { m with voices := m.voices.map fun v => if v.line == l then { v with read := true } else v }
    else if m.voiceReq.contains l then m
    else { m with voiceReq := m.voiceReq ++ [l] }

/-- The pages of the window of sa values from `lo` − 2σ to `hi` + 2σ, with the head at `head` (R207, R220). -/
def Dev.tapWindow (d : Dev) (l head lo hi : Nat) : List Nat :=
  let s := d.sigma l
  if l ≥ 3072 then
    match d.message l with
    | some m =>
      let lo := (lo - 2 * s) / 1024
      (List.range (min (m.length - 1) (hi + 2 * s + 7) / 1024 + 1 - lo)).map fun i => lo + i
    | none => []
  else
    match d.line l with
    | some x => x.windowPages head (lo - 2 * s) (min (1024 * x.npages - 1) (hi + 2 * s))
    | none => []

/-- The pages of the current tick's window of a line, never taken by a demand miss (R207, R210): it follows from the taps of the tick
before the last. -/
def Dev.currentPages (d : Dev) (h l : Nat) : List Nat :=
  let t := d.tapOf h l
  match d.line l with
  | some x => x.pair ++ d.tapWindow l x.head t.omin t.omax
  | none => d.tapWindow l 0 t.omin t.omax

/-- The pages line `l` needs for the next tick from the taps of the last (R207, R220). -/
def Dev.nextPages (d : Dev) (h l : Nat) : List Nat :=
  let t := d.tapOf h l
  match d.line l with
  | some x => d.tapWindow l ((x.head + d.nSamples) % (1024 * x.npages)) t.smin t.smax
  | none => d.tapWindow l 0 t.smin t.smax

/-- The pages that line `l` must keep. -/
def Dev.keptPages (d : Dev) (h l : Nat) : List Nat := d.currentPages h l ++ d.nextPages h l

/-- A miss asks for its page; it waits where no frame or no room in the queue can be had (R210). -/
def Dev.askPage (d : Dev) (h l p : Nat) : Dev :=
  let d := d.issueRead h l p (d.currentPages h l) true false
  let m := d.hm h
  if (m.frameOf l p).isSome ∨ m.waiting.contains (l, p) then d else d.setHm h { m with waiting := m.waiting ++ [(l, p)] }

/-- A demand miss (R210): counted, and its page requested ahead of every prefetch. -/
def Dev.startMiss (d : Dev) (h l p : Nat) : Dev :=
  let d := if h = 0 then d.count Reg.PGU_DMISSA_COUNT Reg.PGU_STATUS_CNT_HALF
    else d.count Reg.PGU_DMISSB_COUNT Reg.PGU_STATUS_CNT_HALF
  let sh := d.sh h
  let d := d.setSh h { sh with misses := sh.misses + 1 }
  d.askPage h l p

/-- The pages of the head pair are held, pinned, or asked for (R211). -/
def Dev.ensurePair (d : Dev) (h l : Nat) (x : Line) : Dev :=
  x.pair.foldl (fun d p =>
    match (d.hm h).frameOf l p with
    | some (f, fr) => if fr.pinned then d else d.setHm h ((d.hm h).setFrame f { fr with pinned := true })
    | none => d.issueRead h l p (d.keptPages h l) false true) d

/-- What the paging unit of hearth `h` had no frame or no room for is tried again: write-backs of frames that have left the head pair,
head pairs, and the misses that wait, oldest first (R206, R210, R211). -/
def Dev.pageRetry (d : Dev) (h : Nat) : Dev :=
  if (d.hh h).st = .failed ∨ (d.ch h).failed then d else
  let d := (d.hm h).frames.foldl (fun d e => if e.2.st == .dirty && !e.2.pinned then d.startWriteBack h e.1 else d) d
  let d := d.mem.lines.foldl (fun d e => if (d.lineHearths e.2).contains h then d.ensurePair h e.1 e.2 else d) d
  let want := (d.hm h).waiting.filter fun w =>
    lanes.any fun i => (d.en (8 * h + i)).miss.any fun m => m.line == w.1 && m.page == w.2
  let d := d.setHm h { (d.hm h) with waiting := [] }
  want.foldl (fun d w => d.askPage h w.1 w.2) d

/-- The page lies in the head pair, and a frame holds it. -/
def Dev.inPair (d : Dev) (h l : Nat) (x : Line) (p : Nat) : Bool := x.pair.contains p && ((d.hm h).frameOf l p).isSome

/-- A write of samples into the head pair, or as a write-around (R211). `ws` are (page, index, value). Of the stores of one cycle to one
position the one of the highest engine stays (R196, R205). -/
def Dev.dlWrite (d : Dev) (h e l : Nat) (ws : List (Nat × Nat × Word)) : Dev :=
  match d.line l with
  | none => d
  | some x =>
    let pair := ws.all fun w => d.inPair h l x w.1
    if ws.isEmpty then d
    else if !pair && decide ((d.hm h).around.length ≥ 64) then
      let d := (d.count Reg.PGU_WDROP_COUNT Reg.PGU_STATUS_CNT_HALF).flag Reg.PGU_STATUS_WDROP
      d.post 6 3 (l + (d.en e).job % 1024 * 2 ^ 16)
    else
      let t := (d.en e).now
      let r := ws.foldl (fun (r : HMem × List (Nat × Nat × Word)) w =>
        let q := (w.1, w.2.1)
        let n := r.1.noteStore t e (posKey l q) (d.lineWord h l q)
        (n.1, if n.2 then r.2 ++ [w] else r.2)) (d.hm h, [])
      let ws := r.2
      let m := ws.foldl (fun m w =>
        match m.frameOf l w.1 with
        | some (f, fr) =>
          if fr.st = FrameSt.filling then
            { m with held := m.held ++ [{ line := l, page := w.1, ix := w.2.1, val := w.2.2, dirty := pair }] }
          else
            let m := m.putSample (d.frameKey f + w.2.1) w.2.2
            if pair then m.useFrame f { fr with st := .dirty } else m
        | none => m) r.1
      let pos := ws.map fun w => (w.1 * 1024 + w.2.1, w.2.2)
      let m := if pair then m
        else { m with around := m.around ++ [{ line := l, samples := pos, seq := m.nextSeq }], nextSeq := m.nextSeq + 1 }
      let d := d.setHm h m
      let old := x.written.filter fun s => !pos.any fun p => p.1 == s.1
      d.setLine l { x with written := if x.prot ∧ pair then old ++ pos else old }

/-- Masked writes of samples to the DRAM pages of a line, on both channels for a protected line (R211, R213). -/
def Dev.dramPut (d : Dev) (h : Nat) (x : Line) (ss : List (Nat × Word)) : Dev :=
  (if x.prot then [0, 1] else [h]).foldl (fun d c =>
    if (d.ch c).failed then d else
    d.setCh c { (d.ch c) with
      words := ss.foldl (fun w s => Sparse.put 0 w (d.dramKey x 0 + s.1) s.2) (d.ch c).words,
      bad := ss.foldl (fun b s => b.filter (· != (d.dramKey x 0 + s.1) / 2)) (d.ch c).bad }) d

/-- Samples that a line has received reach the resident frames of hearth `h`. -/
def Dev.framePut (d : Dev) (h l : Nat) (ss : List (Nat × Word)) : Dev :=
  ss.foldl (fun d s =>
    match (d.hm h).resident l (s.1 / 1024) with
    | some f => d.setHm h ((d.hm h).putSample (d.frameKey f + s.1 % 1024) s.2)
    | none => d) d

/-- The oldest write-around completes (R211 to R213), once the transfers of its pages that were issued before it are done and its channel
works. The frames of the other hearth that hold a protected line's page take it too. -/
def Dev.aroundDone (d : Dev) (h : Nat) : Dev :=
  let m := d.hm h
  match m.around with
  | [] => d
  | a :: t =>
    if (d.ch h).failed ∨ (a.samples.any fun s => m.behind a.line (s.1 / 1024) a.seq) then d else
    let d := d.setHm h { m with around := t }
    match d.line a.line with
    | none => d
    | some x =>
      let d := d.dramPut h x a.samples
      if x.prot then d.framePut (1 - h) a.line a.samples else d

/-! ### The boundary work of the paging unit (R207, R209, R211, R213, R220) -/

/-- Advance one line's head by N in hearth `h` (R211): at a new page the frame of the page it left is written back and released, and
the page after the new head page is made resident. A line of two pages keeps the page it left: that is the page after the new head
page, and its re-read, which yields what was written back, has no state of its own (DESIGN CHOICE, log entry 142). -/
def Dev.advanceIn (d : Dev) (h l : Nat) (old new : Line) : Dev :=
  if new.head / 1024 = old.head / 1024 then d else
  let left := old.head / 1024
  let d := match (d.hm h).frameOf l left with
    | some (f, fr) => (d.setHm h ((d.hm h).setFrame f { fr with pinned := new.pair.contains left })).startWriteBack h f
    | none => d
  d.ensurePair h l new

/-- HEAD_ADVANCE for every line; a hearth that has FAILED does not page (R433). -/
def Dev.headAdvance (d : Dev) : Dev :=
  d.mem.lines.foldl (fun d e =>
    match d.line e.1 with
    | none => d
    | some x =>
      let x' := { x with head := (x.head + d.nSamples) % (1024 * x.npages) }
      let d := d.setLine e.1 x'
      (d.lineHearths x).foldl (fun d h => if (d.hh h).st = .failed then d else d.advanceIn h e.1 x x') d) d

/-- The tap records of both hearths carry forward (R207). -/
def Dev.rollTaps (d : Dev) : Dev :=
  let roll := fun (m : HMem) => { m with taps := (m.taps.map fun e => (e.1, e.2.roll)).filter fun e => e.2 != {} }
  (d.setHm 0 (roll (d.hm 0))).setHm 1 (roll (d.hm 1))

/-- PGU_PFLATEA and PGU_PFLATEB (R209). -/
def Dev.late (d : Dev) (h n : Nat) : Dev :=
  if n = 0 then d
  else if h = 0 then d.count Reg.PGU_PFLATEA_COUNT Reg.PGU_STATUS_CNT_HALF n
  else d.count Reg.PGU_PFLATEB_COUNT Reg.PGU_STATUS_CNT_HALF n

/-- The prefetches that are not complete at the boundary they serve (R209). -/
def Dev.countLate (d : Dev) (h : Nat) : Dev :=
  let m := d.hm h
  let late := (m.prefetch.filter fun e => (m.resident e.1 e.2).isNone).length
  (d.setHm h { m with prefetch := [], pfIssued := 0 }).late h late

/-- The lines read by the jobs of a hearth's plan, in plan order. -/
def Dev.planLines (d : Dev) (h : Nat) : List Nat :=
  ((d.sh h).plan.flatMap fun p => let j := d.jobF p.job; (List.range j.dlCount).map (j.dlFirst + ·)).dedup

/-- The lines that hearth `h` prefetches, in plan order of the jobs that read them: every delay line whose readers it may run, a standby
those of protected lines in the order of the active hearth's plan, and the message lines in a voice slot (R207, R209, R220, R429). -/
def Dev.prefetchLines (d : Dev) (h : Nat) : List Nat :=
  let a := d.hrt.active
  let plan := d.planLines h ++ (if d.mode ≠ 1 ∧ h ≠ a then d.planLines a else [])
  let m := d.hm h
  (plan ++ d.mem.lines.map (·.1) ++ m.voices.map (·.line)).dedup.filter fun l =>
    if l ≥ 3072 then m.voices.any (·.line == l)
    else match d.line l with
      | some x => (d.lineHearths x).contains h && (x.prot || d.canPlan h)
      | none => false

/-- PREFETCH of one page: nothing where a frame holds it; at most 160 are issued per tick, and one that is not issued is late (R209). -/
def Dev.prefetchPage (d : Dev) (h l : Nat) (keep : List Nat) (p : Nat) : Dev :=
  let m := d.hm h
  if (m.frameOf l p).isSome then d
  else
    let d := if m.pfIssued < 160 then d.issueRead h l p keep false false else d
    let m := d.hm h
    if (m.frameOf l p).isSome then d.setHm h { m with pfIssued := m.pfIssued + 1, prefetch := m.prefetch ++ [(l, p)] }
    else d.late h 1

/-- PREFETCH of hearth `h` (R207, R209). -/
def Dev.prefetchHearth (d : Dev) (h : Nat) : Dev :=
  if (d.hh h).st = .failed then d else
  (d.prefetchLines h).foldl (fun d l => (d.nextPages h l).foldl (fun d p => d.prefetchPage h l (d.keptPages h l) p) d) d

/-- Voice slots (R220): in the plan window the lines that asked take free slots, in plan order of the jobs that read them. -/
def Dev.grantVoices (d : Dev) (h : Nat) : Dev :=
  let m := d.hm h
  let order := (d.planLines h).filter m.voiceReq.contains ++ m.voiceReq
  d.setHm h { m with voices := m.voices ++ (order.dedup.take (64 - m.voices.length)).map fun l => { line := l, read := false },
                     voiceReq := [] }

/-- At the close a message line not read in the tick gives up its slot, and its unpinned frames are free (R220). -/
def HMem.closeVoices (m : HMem) : HMem :=
  let keep := (m.voices.filter (·.read)).map (·.line) ++ m.voiceReq
  { m with
    voices := (m.voices.filter (·.read)).map fun v => { v with read := false },
    frames := m.frames.filter fun e =>
      !(decide (3072 ≤ e.2.line) && !keep.contains e.2.line && !e.2.pinned && e.2.st == .resident) }

/-- The write-around samples at positions that a later write reaches first are not written any more. -/
def HMem.supersede (m : HMem) (l : Nat) (ss : List (Nat × Word)) : HMem :=
  { m with around := m.around.map fun a =>
      if a.line == l then { a with samples := a.samples.filter fun s => !ss.any fun w => w.1 == s.1 } else a }

/-- The write-through of a hearth's protected lines when it completes a tick (R213); the frames of both hearths take it (R429). -/
def Dev.writeThrough (d : Dev) : Dev :=
  d.mem.lines.foldl (fun d e =>
    match d.line e.1 with
    | none => d
    | some x =>
      if x.prot && !x.written.isEmpty then
        let d := d.dramPut 0 x x.written
        let d := [0, 1].foldl (fun d h => (d.setHm h ((d.hm h).supersede e.1 x.written)).framePut h e.1 x.written) d
        d.setLine e.1 { x with written := [] }
      else d) d

/-! ### Takeover, restore and the exit from P4 (R214, R215, R429, R438, R486) -/

/-- The pages of a line's head pair are loaded into hearth `h` at once, pinned; a failed channel carries no transfer (R226). -/
def Dev.pinPair (d : Dev) (l h : Nat) (x : Line) : Dev :=
  if (d.ch h).failed then d else
  x.pair.foldl (fun d p =>
    let m := d.hm h
    let f := match m.frameOf l p with
      | some (f, _) => some f
      | none => d.reservedFrame h
    match f with
    | some f =>
      let drop := fun (y : Xfer) => !(y.line == l && y.page == p)
      let d := d.setHm h { m with inflight := m.inflight.filter drop, queue := m.queue.filter drop,
                                  held := m.held.filter fun w => !(w.line == l && w.page == p) }
      let d := d.loadFrame h h f l p
      d.setHm h ((d.hm h).useFrame f { st := .resident, line := l, page := p, pinned := true }).pump
    | none => d) d

/-- The N positions of the skipped tick take the line's last sample of the tick before it (R214); what the failed hearth wrote in that
tick and had not written through is not part of the line. The head still stands at the failed tick's first position. -/
def Dev.fillSkipped (d : Dev) (h skip : Nat) (x : Line) : Dev :=
  let L := 1024 * x.npages
  if skip = 0 ∨ !x.prot then d
  else
    let last := Sparse.get 0 (d.ch h).words (d.dramKey x 0 + (x.head + L - 1) % L)
    d.dramPut h x ((List.range d.nSamples).map fun i => ((x.head + i) % L, last))

/-- After a takeover or a restore: hearth `h` loads the head pair of every line whose readers it runs from its own channel (R214, R215).
Frames and transfers of protected lines, of messages and, in mixed mode, of the hearth's own lines stay (R429); the others are
dropped. -/
def Dev.reloadPairs (d : Dev) (h skip : Nat) : Dev :=
  let m := d.hm h
  let kept := fun (l : Nat) => decide (l ≥ 3072) || match d.line l with
    | some x => x.prot || (d.mode == 2 && x.hearth == h)
    | none => false
  let d := d.setHm h { m with
    frames := m.frames.filter (fun e => kept e.2.line), inflight := m.inflight.filter (kept ·.line),
    queue := m.queue.filter (kept ·.line), around := m.around.filter (kept ·.line), held := m.held.filter (kept ·.line),
    prefetch := m.prefetch.filter (kept ·.1), waiting := m.waiting.filter (kept ·.1), alt := m.alt.filter (kept ·.1) }
  d.mem.lines.foldl (fun d e =>
    match d.line e.1 with
    | none => d
    | some x =>
      let d := d.fillSkipped h skip x
      let d := if skip > 0 then d.setLine e.1 { x with written := [] } else d
      if (d.lineHearths x).contains h then d.pinPair e.1 h x else d) d

/-- The first page of each pinned message is resident and pinned in hearth `h` (R219, R220); a failed channel carries no transfer
(R226). -/
def Dev.pinMessages (d : Dev) (h : Nat) : Dev :=
  if (d.ch h).failed then d else
  (List.range d.mem.msgs.length).foldl (fun d i =>
    match d.mem.msgs[i]?, (d.hm h).frameOf (3072 + i) 0 with
    | some m, none =>
      if m.pin then
        match d.reservedFrame h with
        | some f =>
          let d := d.loadFrame h h f (3072 + i) 0
          d.setHm h ((d.hm h).useFrame f { st := .resident, line := 3072 + i, page := 0, pinned := true })
        | none => d
      else d
    | _, _ => d) d

/-- The tap windows of the protected lines and of the message lines that a protected job reads, and the voice slots of the latter: what
goes to the standby with a copy (R429). -/
def Dev.copiedTaps (d : Dev) (h : Nat) : Sparse Taps × List Nat :=
  let m := d.hm h
  let prot := fun (l : Nat) =>
    if l ≥ 3072 then d.sch.force.any fun e => e.2.prot && e.2.namesLine l
    else match d.line l with
      | some x => x.prot
      | none => false
  (m.taps.filter fun e => prot e.1, (m.voices.map (·.line) ++ m.voiceReq).filter prot)

/-- The standby takes the tap windows and voice slots of a copy, `late`: after the boundary at which the active hearth has carried them
forward; it then issues the same prefetches (R429). -/
def Dev.takeTaps (d : Dev) (h : Nat) (taps : Sparse Taps) (voices : List Nat) (late : Bool) : Dev :=
  let m := d.hm h
  let new := taps.foldl (fun t e => Sparse.put {} t e.1 (if late then e.2.roll else e.2)) m.taps
  let own := m.voices.filter fun v => !voices.contains v.line
  let d := d.setHm h { m with taps := new, voices := (own ++ voices.map fun l => ({ line := l } : Voice)).take 64 }
  if late then d.prefetchHearth h else d

end Sys2Proof.Machine
end

