-- ==== Sys2Proof/Machine/Run.lean ====
section
/-! DEFINITION. A run of a job on an engine: its start (R121), its end, normal or cut (R96, R97, R122, R128, R163), and
what its output channels carry (R106, R107, R454). -/
namespace Sys2Proof.Machine

/-! ### Outcomes (R112) and output channels -/

def ocSV : Nat := 0
def ocDF : Nat := 1
def ocMU : Nat := 2
def ocOV : Nat := 3
def ocSU : Nat := 5
def ocTK : Nat := 6
def ocPF : Nat := 7

/-- `x × n / m` as a sample; the spec states no rounding of an inexact quotient (R107). -/
def rampVal (x : Int) (n m : Nat) : Word :=
  let q := x * n / m
  BitVec.ofInt 32 (if x * n % m = 0 then q else if Config.rampUp x n m then q + 1 else q)

/-- The last output sample of channel `c` in the previous tick (R106). -/
def Dev.lastOut (d : Dev) (c : Nat) : Word := Sparse.get 0 d.sch.last c

/-- Write the N samples of channel `c` of the current tick. -/
def Dev.writeOut (d : Dev) (h c : Nat) (f : Nat → Word) : Dev :=
  let n := d.nSamples
  d.setHm h ((List.range n).foldl (fun m i => m.setTile c d.mem.par i (f (i + 1))) (d.hm h))

/-- The treatment of the output channels of a job that does not end normally (R107): hold for OV and PF; for MU, SU and
TK a ramp to zero in the first tick, then zero. `prev` is the outcome of the tick before. -/
def Dev.fillOutputs (d : Dev) (h : Nat) (j : Job) (oc : Nat) : Dev :=
  let n := d.nSamples
  let mine := (handlesOf j.outs).filter fun c => j.standing || match d.writerOf c with
    | some (_, w) => !w.standing
    | none => true
  mine.foldl (fun d c =>
    let L := d.lastOut c
    if oc = ocOV ∨ oc = ocPF then d.writeOut h c fun _ => L
    else if j.prev = some ocMU ∨ j.prev = some ocSU ∨ j.prev = some ocTK then d.writeOut h c fun _ => 0
    else d.writeOut h c fun k => rampVal L.toInt (n - k) n) d

/-- The ramp-in of a served job after MU, SU, TK or PF, or after admission (R107). -/
def Dev.rampIn (d : Dev) (h : Nat) (j : Job) : Dev :=
  if j.prev = none ∨ j.prev = some ocMU ∨ j.prev = some ocSU ∨ j.prev = some ocTK ∨ j.prev = some ocPF then
    let n := d.nSamples
    (handlesOf j.outs).foldl (fun d c =>
      d.writeOut h c fun k => rampVal ((d.hm h).tile c d.mem.par (k - 1)).toInt k n) d
  else d

/-- Decide a job's outcome of this tick. -/
def Dev.setRes (d : Dev) (k oc reason : Nat) : Dev :=
  { d with sch := { d.sch with res := Sparse.put (8, 0) d.sch.res k (oc, reason) } }

/-- The outcome decided so far; code 8 is none. -/
def Dev.resOf (d : Dev) (k : Nat) : Nat × Nat := Sparse.get (8, 0) d.sch.res k

/-- The lag of a run that serves pending ticks (R109). -/
def Dev.lagOf (d : Dev) (k : Nat) : Nat :=
  match (d.job k).pendTick with
  | some t => min 255 (d.tick - t)
  | none => 0

/-! ### Sync flags (R145) -/

/-- The sync flags of a hearth. -/
def Dev.sync (d : Dev) (h : Nat) : BitVec 16 := if h = 0 then d.eng.syncA else d.eng.syncB
def Dev.setSync (d : Dev) (h : Nat) (f : BitVec 16) : Dev :=
  if h = 0 then { d with eng := { d.eng with syncA := f } } else { d with eng := { d.eng with syncB := f } }

/-! ### Images -/

/-- Image `id`, if loaded. -/
def Dev.image (d : Dev) (id : Nat) : Option Image :=
  let im := Sparse.get {} d.eng.images id
  if im.entries.isEmpty then none else some im

def Image.base (im : Image) (h : Nat) : Option Nat := if h = 0 then im.baseA else im.baseB

/-- The declared entry at instruction index `ix` that is valid in the current family (R150, R152). -/
def Image.entry (im : Image) (fam96 : Bool) (ix : Nat) : Option EntryRec :=
  im.entries.find? fun e => e.start == ix && (if fam96 then e.rate96 else e.rate48)

/-! ### Start of a run -/

/-- The channel address of the first channel of a range, or 0 where it is unused (R121, R130). -/
def chanAddr (r : Nat × Nat) : Word := if r.2 = 0 then 0 else BitVec.ofNat 32 (0x40000000 + 2 * r.1)

/-- The registers at the first instruction of a run (R121). -/
def startRegs (g : EngS) (d : Dev) (e k : Nat) (j : Job) (lag : Nat) : EngS :=
  let g : EngS := { st := g.st, wasFailed := g.wasFailed, freeAt := g.freeAt, running := true, job := k }
  let g := (((g.setA 0 (chanAddr (j.range 7))).setA 1 (chanAddr (j.range 8))).setA 2 (chanAddr (j.range 9))).setA 3 (chanAddr (j.range 10))
  let g := (g.setA 5 0xC0000000).setA 6 0x80000000
  let g := (g.setS 12 (BitVec.ofNat 32 lag)).setS 13 (BitVec.ofNat 32 d.nSamples)
  let g := (g.setS 14 (BitVec.ofNat 32 d.schTick)).setS 15
    (BitVec.ofNat 32 (k % 1024 + j.cls * 2 ^ 12 + e / 8 * 2 ^ 16 + e % 8 * 2 ^ 17))
  (g.setP 1 (if d.fam96 then 0xFF else 0x3F)).setP 2 (if d.fam96 then 0x0F else 0x00)

/-- Start job `k` on engine `e` after `base` engine cycles of the compute window (R92, R110, R121). -/
def Dev.startRun (d : Dev) (e k base : Nat) (slack : Bool) : Dev :=
  let j := d.jobF k
  let pc := match d.image j.progId with
    | some im => ((im.base (e / 8)).getD 0) + j.entry
    | none => 0
  let lag := d.lagOf k
  let d := d.modEn e fun g => { (startRegs g d e k j lag) with pc := pc, base := base, slack := slack }
  d.count (Reg.ENG_RUNS_COUNT e) (Reg.ENG_STATUS_CNT_HALF e)

/-! ### End of a run -/

/-- The plan entry of job `k` on hearth `h` is marked ended, at cycle `t` of the compute window. -/
def Dev.markEnded (d : Dev) (h k t : Nat) : Dev :=
  let sh := d.sh h
  d.setSh h { sh with plan := sh.plan.map fun p =>
    if p.job == k then { p with started := true, ended := true, endAt := t } else p }

/-- The demand-miss stall cycles of a run that ends with `cyc` cycles counted: a stall in progress runs from the issue of its DLRD,
or from the residency of its page before (R143, R163). -/
def EngS.stallAt (g : EngS) (cyc : Nat) : Nat := if g.miss.isSome then g.stall + (cyc + 3 - g.next) else g.stall

/-- The effects common to every end of a run on engine `e` with `cyc` cycles counted: flags, measurement, counters
(R96, R128, R163). -/
def Dev.closeRun (d : Dev) (e cyc : Nat) : Dev :=
  let g := d.en e
  let d := d.wr (Reg.ENG_FLAGS_FLAGS e) (d.rd (Reg.ENG_FLAGS_FLAGS e) ||| g.flags.toNat)
  let d := if d.on (Reg.ENG_WATCH_EN e) && d.rd (Reg.ENG_WATCH_JOB e) == g.job then
      ((d.wr (Reg.ENG_WLAST_CYC e) cyc).wr (Reg.ENG_WMAX_CYC e) (max (d.rd (Reg.ENG_WMAX_CYC e)) cyc)).wr
        (Reg.ENG_WSTALL_CYC e) (g.stallAt cyc)
    else d
  let d := d.count (Reg.ENG_CYC_COUNT e) (Reg.ENG_STATUS_CNT_HALF e) cyc
  let sh := d.sh (e / 8)
  let d := d.setSh (e / 8) { sh with usedNow := sh.usedNow + cyc }
  (d.markEnded (e / 8) g.job (g.base + cyc)).modEn e fun g =>
    { g with running := false, miss := none, wait := none, freeAt := g.base + cyc }

/-- A run has served its pending ticks (R109, R110). -/
def Dev.servePending (d : Dev) (k : Nat) : Dev :=
  let lag := d.lagOf k
  d.modJob k fun j => if j.desc.isEmpty then j else { j with pendTick := none, dfLag := if j.pendTick.isSome then lag else j.dfLag }

/-- A run is cut with outcome `oc` and `reason` after `cyc` cycles; its outputs are held (R97, R101, R102, R107). -/
def Dev.cutRun (d : Dev) (e oc reason cyc : Nat) : Dev :=
  let g := d.en e
  if !g.running then d else
  let k := g.job
  let d := d.closeRun e cyc
  let d := (d.fillOutputs (e / 8) (d.jobF k) oc).setRes k oc reason
  if g.slack then d.servePending k else d

/-- A BUDGET cut of job `k` (R99): OVRUN rises to 2, and a third cut is marked for the close. -/
def Dev.overrun (d : Dev) (k : Nat) : Dev :=
  d.modJob k fun j => if j.desc.isEmpty then j else
    if j.ovrun < 2 then { j with ovrun := j.ovrun + 1 } else { j with third := j.ovSusp.isNone }

/-- The run on engine `e` has counted its WCET and is cut: OV BUDGET, or PF where it is stalled on a demand miss (R97). -/
def Dev.budgetCut (d : Dev) (e : Nat) : Dev :=
  let g := d.en e
  let wcet := (d.jobF g.job).wcet
  if g.miss.isSome then d.cutRun e ocPF 0x57 wcet else (d.cutRun e ocOV 0x55 wcet).overrun g.job

/-- A run reaches its END (R122): SV, or DF DEFER_SLACK for a slack run. A run whose count passes WCET has been cut at that cycle
(R97). -/
def Dev.endNormal (d : Dev) (e : Nat) : Dev :=
  let g := d.en e
  if !g.running then d else
  let k := g.job
  let j := d.jobF k
  if g.next - 1 > j.wcet then d.budgetCut e else
  let d := d.closeRun e (g.next - 1)
  let d := if g.slack then d.setRes k ocDF 0x4E else (d.rampIn (e / 8) j).setRes k ocSV 0
  d.servePending k

end Sys2Proof.Machine
end

