-- ==== Sys2Proof/Machine/Bellows.lean ====
section
/-! DEFINITION. Bellows: capacity, the plan, admission, job commands, the compute and close windows (spec/03). -/
namespace Sys2Proof.Machine

/-! ### Capacity (R76, R78, R91, R104, R105) -/

/-- W of R76 at clock setting `c`. -/
def windowOf (c : Nat) : Nat := if c = 0 then 112500 else if c = 1 then 106875 else 101250

/-- The number of engines of a mask. -/
def engines (m : Nat) : Nat := (lanes.filter fun i => m / 2 ^ i % 2 == 1).length

/-- The engines that hearth `h` gets by the hearth mode (R89, R422). -/
def Dev.given (d : Dev) (h : Nat) : Nat := if d.mode = 2 ∧ h ≠ d.hrt.active then d.rd Reg.HRT_CFG_SPARE else 0xFF

/-- The engines of hearth `h` that are neither offline, failed nor under retest (R160 to R162). -/
def Dev.working (d : Dev) (h : Nat) : Nat :=
  lanes.foldl (fun m i => if (d.en (8 * h + i)).st = 0 then m + 2 ^ i else m) 0

/-- w of R91 and the capacity of R76. -/
def Cap.window (c : Cap) : Nat := windowOf c.clk - c.debit
def Cap.total (c : Cap) : Nat := c.window * engines c.eng

/-- The capacity of hearth `h` as it stands now. -/
def Dev.capNow (d : Dev) (h : Nat) : Cap :=
  let sh := d.sh h
  let given := d.given h
  let work := d.working h
  { eng := given &&& work, given := given, work := work, clk := sh.clkReq,
    reduced := given &&& work != given || sh.clkReq != 0 || sh.storm,
    taken := d.hrt.taken && h == d.hrt.active, debit := if sh.storm then d.rd Reg.SCH_STORM_CFG_DEBIT else 0 }

/-- Post CAPCHANGE (R105, R117). -/
def Dev.capChange (d : Dev) (h cap cause : Nat) : Dev := d.post 5 1 (cap + h * 2 ^ 24 + cause * 2 ^ 25)

/-- SCH_CAPA and SCH_CAPB (R76). -/
def Dev.showCap (d : Dev) (h : Nat) (c : Cap) : Dev :=
  if h = 0 then
    ((((d.wr Reg.SCH_CAPA_ENG c.eng).wr Reg.SCH_CAPA_CLK c.clk).wr Reg.SCH_CAPA_REDUCED (bit c.reduced)).wr
      Reg.SCH_CAPA_TAKEN (bit c.taken)).wr Reg.SCH_STATUS_STORM_A (bit (d.sh 0).storm)
  else
    ((((d.wr Reg.SCH_CAPB_ENG c.eng).wr Reg.SCH_CAPB_CLK c.clk).wr Reg.SCH_CAPB_REDUCED (bit c.reduced)).wr
      Reg.SCH_CAPB_TAKEN (bit c.taken)).wr Reg.SCH_STATUS_STORM_B (bit (d.sh 1).storm)

/-- The causes of R117 by which capacity `c` of hearth `h` differs from `old` at a boundary: a takeover or swap of roles (the survivor
posts it always), a mode change, engines lost and engines restored of those the hearth had and keeps, and a clock step. The start and
the end of a storm are posted by their own commands. -/
def capCauses (old c : Cap) (survivor roles : Bool) : List Nat :=
  let both := old.given &&& c.given
  (if survivor then [5] else if c.given ≠ old.given then [if roles then 5 else 6] else [])
  ++ (if both &&& old.work &&& (0xFF ^^^ c.work) ≠ 0 then [0] else [])
  ++ (if both &&& c.work &&& (0xFF ^^^ old.work) ≠ 0 then [1] else [])
  ++ (if c.clk ≠ old.clk then [2] else [])

/-- Latch the capacity of hearth `h` at a boundary (R78) and post its changes, one event per cause (R105). `role`: the hearth that took
over or swapped in at this boundary. A FAILED hearth plans nothing and keeps what its last plan was built with (DESIGN CHOICE, log
entry 37). R117 has no cause for a new DEBIT in a storm: that event's cause is a free value (log entry 136). -/
def Dev.latchCap (d : Dev) (h : Nat) (role : Option Nat) : Dev :=
  if (d.hh h).st = .failed then d else
  let old := (d.sh h).cap
  let c := d.capNow h
  let d := d.setSh h { (d.sh h) with cap := c }
  let d := d.showCap h c
  let d := (capCauses old c (role == some h) role.isSome).foldl (fun d cause => d.capChange h c.total cause) d
  if old.debit ≠ 0 ∧ c.debit ≠ 0 ∧ old.debit ≠ c.debit then
    let (d, x) := d.fresh
    d.capChange h c.total (x.toNat % 8)
  else d

/-! ### The plan (R89 to R91) -/

/-- Plan order: class code, then admission sequence (R90). -/
def planBefore (a b : Nat × Job) : Bool :=
  decide (a.2.cls < b.2.cls) || (a.2.cls == b.2.cls && decide (a.2.seq ≤ b.2.seq))

def planInsert (x : Nat × Job) : List (Nat × Job) → List (Nat × Job)
  | [] => [x]
  | y :: t => if planBefore x y then x :: y :: t else y :: planInsert x t

def planSort (l : List (Nat × Job)) : List (Nat × Job) := l.foldr planInsert []

/-- The running result of the procedure of R91. -/
structure PlanAcc where
  free : List Nat := List.replicate 8 0
  placed : List Place := []
  shed : List (Nat × Job) := []
  noEngine : List Nat := []
  cut : Bool := false
  floor : Bool := false
  deriving DecidableEq, Repr

/-- The eligible engine with the least `free`, lowest index on a tie. -/
def pickEngine (free : List Nat) (elig : Nat) : Option Nat :=
  (lanes.filter fun i => elig / 2 ^ i % 2 == 1).foldl (fun best i =>
    match best with
    | none => some i
    | some b => if free.getD i 0 < free.getD b 0 then some i else some b) none

/-- One round of the loop of R91. `anyMask`: every ENG_MASK counts as 0xFF (the floor test). -/
def planStep (w avail : Nat) (anyMask : Bool) (acc : PlanAcc) (x : Nat × Job) : PlanAcc :=
  let j := x.2
  if acc.cut && j.cls != 0 then { acc with shed := acc.shed ++ [x] }
  else
    match pickEngine acc.free ((if anyMask then 0xFF else j.engMask) &&& avail) with
    | none => { acc with noEngine := acc.noEngine ++ [x.1] }
    | some e =>
      let ready := (acc.placed.filter fun p => j.preds.contains p.job).foldl (fun m p => max m p.finish) 0
      let start := max (acc.free.getD e 0) ready
      let fin := start + j.wcet
      if fin > w && j.cls != 0 then { acc with cut := true, shed := acc.shed ++ [x] }
      else { acc with
        placed := acc.placed ++ [{ job := x.1, eng := e, start := start, finish := fin }],
        free := acc.free.set e fin, floor := acc.floor || decide (fin > w) }

/-- The procedure of R91 over jobs in plan order. -/
def planOf (w avail : Nat) (anyMask : Bool) (jobs : List (Nat × Job)) : PlanAcc :=
  jobs.foldl (planStep w avail anyMask) {}

/-- The largest planned finish. -/
def PlanAcc.span (p : PlanAcc) : Nat := p.placed.foldl (fun m x => max m x.finish) 0

/-! ### Building the plan of a tick -/

/-- Bellows dispatches: ENABLE, or the standing program runs (R118, R119). -/
def Dev.dispatching (d : Dev) : Bool := d.on Reg.SCH_CFG_ENABLE || d.on Reg.SCH_STATUS_HELD

/-- The hearth that plans job `j`, if any. -/
def Dev.plannerOf (d : Dev) (j : Job) : Option Nat := [0, 1].find? fun h => d.canPlan h && d.plans h j

/-- The hearth whose grate memory holds the tiles of job `j`'s channels (R86). -/
def Dev.homeOf (d : Dev) (j : Job) : Nat :=
  match d.plannerOf j with
  | some h => h
  | none => if d.mode = 0 then d.hrt.active else if d.mode = 2 ∧ j.prot then d.hrt.active else j.hearth

/-- Decide the outcome of a job that does not run, and write its outputs (R106, R107). -/
def Dev.notServed (d : Dev) (k oc reason : Nat) : Dev :=
  let j := d.jobF k
  (d.fillOutputs (d.homeOf j) j oc).setRes k oc reason

/-- A shed job (R91, R109). -/
def Dev.shed (d : Dev) (h : Nat) (x : Nat × Job) : Dev :=
  let c := (d.sh h).cap
  if x.2.defer then
    (d.modJob x.1 fun j => if j.desc.isEmpty then j else { j with pendTick := some (j.pendTick.getD d.tick) }).setRes x.1 ocDF 0x4F
  else if c.taken && !x.2.prot then d.notServed x.1 ocTK 0x4D
  else if c.reduced then d.notServed x.1 ocMU 0x4B
  else d.notServed x.1 ocMU 0x4C

/-- The jobs that hearth `h` plans in plan order: admitted, and unsuspended or on a retry (R90, R100). -/
def Dev.planJobs (d : Dev) (h : Nat) : List (Nat × Job) :=
  planSort (d.sch.force.filter fun e => e.2.admitted && (!e.2.suspended || e.2.retry) && d.plans h e.2)

/-- Registers and events of a plan of hearth `h`. -/
def Dev.showPlan (d : Dev) (h : Nat) (p : PlanAcc) (sum : Nat) : Dev :=
  let total := (d.sh h).cap.total
  let d := if h = 0 then ((d.wr Reg.SCH_BUDGETA_CAP total).wr Reg.SCH_SPANA_SPAN p.span).wr Reg.SCH_ADMITA_SUM sum
    else ((d.wr Reg.SCH_BUDGETB_CAP total).wr Reg.SCH_SPANB_SPAN p.span).wr Reg.SCH_ADMITB_SUM sum
  if p.floor then
    let span := (p.placed.filter fun x => (d.jobF x.job).cls == 0).foldl (fun m x => max m x.finish) 0
    (d.flag Reg.SCH_STATUS_CAPFLOOR).post 5 2 (span % 2 ^ 20 + h * 2 ^ 24)
  else d

/-- Build the plan of hearth `h` for the current tick (R91); `swap`: the tick s of a proof swap, in which the active
hearth plans nothing and has no close window (R439). -/
def Dev.buildPlan (d : Dev) (h : Nat) (swap : Bool) : Dev :=
  let sh := { (d.sh h) with plan := [], usedNow := 0, misses := 0, completed := false, skip := false, planned := false }
  if !d.canPlan h then d.setSh h sh
  else if swap && h == d.hrt.active then d.setSh h { sh with skip := true }
  else
    let p := planOf sh.cap.window sh.cap.eng false (d.planJobs h)
    let sum := ((d.sch.force.filter fun e => e.2.admitted && d.plans h e.2).map fun e => e.2.wcet).sum
    let d := (d.setSh h { sh with plan := p.placed, planned := true }).showPlan h p sum
    let d := p.shed.foldl (fun d x => d.shed h x) d
    p.noEngine.foldl (fun d k => d.notServed k ocMU 0x5A) d

/-- The reason of an SU outcome (R81, R99, R453). -/
def Job.suReason (j : Job) : Nat := if j.standSusp then 0x54 else if j.hostSusp then 0x52 else 0x53

/-- The outcome of a job that no plan of this tick holds. -/
def Dev.unplanned (d : Dev) (swap : Bool) (k : Nat) : Dev :=
  let j := d.jobF k
  if j.releasing.isSome then d.notServed k ocMU 0x51
  else if !d.dispatching then d.notServed k ocMU 0x5B
  else if j.suspended && !j.retry then d.notServed k ocSU j.suReason
  else if (d.plannerOf j).isSome || (swap && d.plans d.hrt.active j) then d
  else d.notServed k ocMU 0x8A

/-- Released entries whose second boundary has come are free (R82). -/
def Dev.freeReleased (d : Dev) : Dev :=
  { d with sch := { d.sch with jobs := d.sch.jobs.filter fun e =>
      match e.2.releasing with
      | some n => decide (d.tick < n + 2)
      | none => true } }

/-- At the start of a plan window the sync flags are clear, every engine is free from cycle 0 of the next compute window, and no word has
been stored to in it (R145, R92, R196). -/
def Dev.clearWindow (d : Dev) : Dev :=
  let d := (d.setSync 0 0).setSync 1 0
  let d := { d with eng := { d.eng with syncAt := [] } }
  let d := (List.range 16).foldl (fun d e => d.modEn e fun g => { g with freeAt := 0 }) d
  (d.setHm 0 { (d.hm 0) with cyc := 0, stores := [] }).setHm 1 { (d.hm 1) with cyc := 0, stores := [] }

/-- The plan window (R75, R91): the job table in force, the plans of both hearths, and the outcomes already known.
While Bellows does not dispatch, only the tick in which it stopped has outcomes (R118). -/
def Dev.planTick (d : Dev) (swap : Bool) : Dev :=
  let d := d.freeReleased
  let stop := if d.dispatching then none else some (d.sch.stopTick.getD d.tick)
  let d := { d with sch := { d.sch with
    win := .plan, force := d.sch.jobs, res := [], closed := false, noPub := false, stopTick := stop } }
  let d := d.clearWindow
  if d.dispatching then
    let d := (d.buildPlan 0 swap).buildPlan 1 swap
    d.sch.force.foldl (fun d e => d.unplanned swap e.1) d
  else
    let idle := fun (x : SchH) => { x with plan := [], usedNow := 0, misses := 0, completed := false, skip := false, planned := false }
    let d := (d.setSh 0 (idle (d.sh 0))).setSh 1 (idle (d.sh 1))
    if stop = some d.tick then d.sch.force.foldl (fun d e => d.unplanned swap e.1) d else d

/-! ### Dispatch (R92, R96 to R99, R110) -/

/-- The next placed job of engine `i` of hearth `h` that may start: in order of planned start, its predecessors placed
in the same plan ended (R92). -/
def Dev.nextPlaced (d : Dev) (h i : Nat) : Option Place :=
  let plan := (d.sh h).plan
  let mine := plan.filter fun p => p.eng == i && !p.started
  let first := mine.foldl (fun (b : Option Place) p =>
    match b with
    | none => some p
    | some x => if p.start < x.start then some p else some x) none
  match first with
  | some p =>
    if plan.all fun q => !(d.jobF p.job).preds.contains q.job || q.ended then some p else none
  | none => none

/-- The engine cycles of the compute window before placed job `p` of hearth `h` starts: its engine has ended the previous job, and every
predecessor placed in the plan has ended (R92). -/
def Dev.startOf (d : Dev) (h : Nat) (p : Place) : Nat :=
  ((d.sh h).plan.filter fun q => (d.jobF p.job).preds.contains q.job).foldl (fun m q => max m q.endAt) (d.en (8 * h + p.eng)).freeAt

/-- JOB_RUN_START (R92): in the compute window the next placed job of engine `e` starts, once the engine is free. -/
def execJobRunStart (e : Eng) (s : State) : Host.Outcome State Fault Refusal :=
  onDev (fun d =>
    if (d.en e).running || d.sch.win != .compute then d else
    match d.nextPlaced (e.val / 8) (e.val % 8) with
    | none => d
    | some p =>
      let sh := d.sh (e.val / 8)
      let d := d.setSh (e.val / 8) { sh with plan := sh.plan.map fun q => if q.job == p.job then { q with started := true } else q }
      d.startRun e p.job (d.startOf (e.val / 8) p) false) s

/-- The count of the run on engine `e` can have reached WCET: it is stalled, its next instruction would issue past WCET, or it waits for
a register that is ready only then (R96, R97). -/
def Dev.countsOut (d : Dev) (e : Nat) : Bool :=
  let g := d.en e
  let wcet := (d.jobF g.job).wcet
  g.miss.isSome || g.wait.isSome || decide (g.next > wcet) || g.ready.any (fun r => decide (r.2 > wcet))
    || g.macReady.any fun r => decide (r.2 > wcet)

/-- BUDGET (R97, R98): the run on engine `e` has used its WCET and is cut. -/
def execBudget (e : Eng) (s : State) : Host.Outcome State Fault Refusal :=
  onDev (fun d => if (d.en e).running && d.countsOut e then d.budgetCut e else d) s

/-- The pending run that engine `e` takes with `left` cycles to go (R110): by class code, then the oldest pending
tick; a tie of both goes to the lower admission sequence (DESIGN CHOICE, log entry 130). -/
def Dev.slackJob (d : Dev) (e left : Nat) : Option Nat :=
  let h := e / 8
  let ok := d.sch.force.filter fun x =>
    (d.job x.1).pendTick.isSome && x.2.admitted && !x.2.suspended && d.plans h x.2 && x.2.engMask / 2 ^ (e % 8) % 2 == 1
    && decide (x.2.wcet ≤ left)
    && !((d.sh h).plan.any fun p => p.job == x.1)
    && !((List.range 16).any fun i => (d.en i).running && (d.en i).job == x.1)
  let age := fun (x : Nat × Job) => (d.job x.1).pendTick.getD 0
  (ok.foldl (fun (b : Option (Nat × Job)) x =>
    match b with
    | none => some x
    | some y =>
      if x.2.cls < y.2.cls ∨ (x.2.cls = y.2.cls ∧ (age x < age y ∨ (age x = age y ∧ x.2.seq < y.2.seq))) then some x
      else some y) none).map (·.1)

/-- SLACK_DISPATCH (R110): in the compute window engine `e` has ended its last placed job; at most the cycles of the window after that
end are left. -/
def execSlackDispatch (e : Eng) (left : Nat) (s : State) : Host.Outcome State Fault Refusal :=
  onDev (fun d =>
    let h := e.val / 8
    let w := windowOf (d.sh h).cap.clk
    let left := min left (w - (d.en e).freeAt)
    if (d.en e).running || d.sch.win != .compute || !d.dispatching
        || ((d.sh h).plan.any fun p => p.eng == e.val % 8 && !p.ended) then d
    else match d.slackJob e left with
      | none => d
      | some k => d.startRun e k (w - left) true) s

/-! ### Storms and retries (R100, R104) -/

/-- The demand misses of hearth `h` in this tick have reached THRESH; 0 disables detection (R104). -/
def Dev.stormy (d : Dev) (h : Nat) : Bool :=
  d.rd Reg.SCH_STORM_CFG_THRESH != 0 && decide (d.rd Reg.SCH_STORM_CFG_THRESH ≤ (d.sh h).misses)

/-- STORM_START (R104): the misses have reached THRESH; the debit applies from the next tick. CAPCHANGE carries the capacity it
leaves. -/
def execStormStart (h : Hearth) (s : State) : Host.Outcome State Fault Refusal :=
  onDev (fun d =>
    let i := hIx h
    if (d.sh i).storm || !d.stormy i then d else
    let d := d.setSh i { (d.sh i) with storm := true, quiet := 0 }
    d.capChange i (d.capNow i).total 3) s

/-- STORM_END (R104): CLEAR consecutive ticks have stayed below THRESH; the debit ends with the next tick. -/
def execStormEnd (h : Hearth) (s : State) : Host.Outcome State Fault Refusal :=
  onDev (fun d =>
    let i := hIx h
    if (d.sh i).storm && decide (d.rd Reg.SCH_STORM_CFG_CLEAR ≤ (d.sh i).quiet) then
      let d := d.setSh i { (d.sh i) with storm := false, quiet := 0 }
      d.capChange i (d.capNow i).total 4
    else d) s

/-- At the close of a tick: one more quiet tick of hearth `h`, or none (R104). While THRESH is 0 every tick is quiet (DESIGN CHOICE, log
entry 137). -/
def Dev.countQuiet (d : Dev) (h : Nat) : Dev :=
  let sh := d.sh h
  d.setSh h { sh with quiet := if d.stormy h then 0 else sh.quiet + 1 }

/-- E_RETRY (R100): the next tick is a multiple of 8,000 ticks after the start of the suspension, and its plan runs the
job once. -/
def execERetry (job : JobIx) (s : State) : Host.Outcome State Fault Refusal :=
  onDev (fun d =>
    let j := d.job job
    match j.ovSusp with
    | some t =>
      if d.on Reg.SCH_CFG_ERETRY && decide (j.cls ≤ 2) && j.admitted && !j.hostSusp && !j.standSusp
          && decide (t < d.tick + 1) && (d.tick + 1 - t) % 8000 == 0 then
        d.modJob job fun j => { j with retry := true }
      else d
    | none => d) s

/-! ### The close window (R75, R93, R99, R106, R111, R113, R116) -/

/-- Hearth `h` has no close window in this tick: the swap tick, or a takeover trigger of the active hearth (R435). -/
def Dev.noClose (d : Dev) (h : Nat) : Bool :=
  (d.sh h).skip || (d.mode != 1 && h == d.hrt.active && (d.hh h).trig.isSome)

/-- The cycles that the run on engine `e` of hearth `h` has counted when the compute window ends (R93, R96). -/
def Dev.countAtEnd (d : Dev) (h e : Nat) : Nat := windowOf (d.sh h).cap.clk - (d.en e).base

/-- Every job still running, or placed and never ended, when the compute window ends is cut (R93); one whose WCET ends within the window
has been cut there (R97). -/
def Dev.cutAtEnd (d : Dev) (h : Nat) : Dev :=
  let d := lanes.foldl (fun d i =>
    let e := 8 * h + i
    if !(d.en e).running then d
    else if (d.jobF (d.en e).job).wcet ≤ d.countAtEnd h e then d.budgetCut e
    else d.cutRun e ocOV 0x56 (d.countAtEnd h e)) d
  (d.sh h).plan.foldl (fun d p =>
    if p.ended then d else ((d.markEnded h p.job (windowOf (d.sh h).cap.clk)).notServed p.job ocOV 0x56)) d

/-- A hearth without a close window: the runs still in progress end with its compute window, and nothing is finalised (R93, R128, R163,
R435). -/
def Dev.dropAtEnd (d : Dev) (h : Nat) : Dev :=
  lanes.foldl (fun d i =>
    let e := 8 * h + i
    if (d.en e).running then d.closeRun e (min (d.jobF (d.en e).job).wcet (d.countAtEnd h e)) else d) d

/-- Note L for the channels of a closed job (R106). -/
def Dev.noteLast (d : Dev) (h : Nat) (j : Job) : Dev :=
  let n := d.nSamples
  (handlesOf j.outs).foldl (fun d c =>
    { d with sch := { d.sch with last := Sparse.put 0 d.sch.last c ((d.hm h).tile c d.mem.par (n - 1)) } }) d

/-- Before the closes of a tick: L of a channel that no job writes in it is 0. The channels of a hearth without a close window keep
theirs (R106, R435). -/
def Dev.clearLast (d : Dev) : Dev :=
  let kept := (d.sch.force.filter fun e => d.noClose (d.homeOf e.2)).flatMap fun e => handlesOf e.2.outs
  { d with sch := { d.sch with last := d.sch.last.filter fun e => kept.contains e.1 } }

/-- SCH_CNT_c_o (R116). -/
def Dev.countOutcome (d : Dev) (cls oc : Nat) : Dev :=
  if cls < 6 then d.countBit (Reg.SCH_CNT_COUNT cls oc) Reg.SCH_STATUS_CNT_HALF cls else d

/-- The outcome of job `k` at the close, and whether its pending run is dropped: MU DEFER_EXPIRED where a run is still pending whose lag
exceeds MAXDEFER, whatever else befell the job (R111). A job of a split-mode hearth that has failed shows HEARTHDOWN (R437), a released
job RELEASED (R82) and a job of a stopped Bellows DISABLED (R118), as those rules say of every such job. -/
def Dev.finalOutcome (d : Dev) (k : Nat) : (Nat × Nat) × Bool :=
  let jf := d.jobF k
  let down := decide (d.mode = 1) && (d.hh (d.homeOf jf)).trig.isSome
  let r := if down then (ocMU, 0x8A) else d.resOf k
  match (d.job k).pendTick with
  | some t =>
    if d.tick - t > jf.maxDefer then (if down || jf.releasing.isSome || !d.dispatching then r else (ocMU, 0x50), true)
    else (if r.1 = 8 then (ocDF, 0x4F) else r, false)
  | none => (if r.1 = 8 then (ocSV, 0) else r, false)

/-- Finalise job `k` (R99, R100, R113, R116). Standing jobs count in no SCH_CNT, as they are not in the job table of R79 (DESIGN CHOICE,
log entry 131), and their JOB_SUSP and E_RETRY carry the index modulo 1024 (DESIGN CHOICE, log entry 134). -/
def Dev.closeJob (d : Dev) (k : Nat) : Dev :=
  let jf := d.jobF k
  let (o, drop) := d.finalOutcome k
  let d := d.noteLast (d.homeOf jf) jf
  let d := { d with sch := { d.sch with work := Sparse.put (0, 0) d.sch.work k o } }
  let d := if jf.standing then d else d.countOutcome jf.cls o.1
  let j := d.job k
  if j.desc.isEmpty then d else
  let retried := jf.retry && (o.1 == ocSV || o.1 == ocOV || o.1 == ocPF)
  let ends := retried && o.1 == ocSV
  let susp := j.third && j.ovSusp.isNone
  let d := d.setJob k { j with
    lastOutcome := o.1, lastReason := o.2, prev := some o.1, retry := j.retry && !jf.retry, third := false,
    ovrun := if o.1 = ocSV then 0 else j.ovrun,
    ovSusp := if ends then none else if susp then some (d.tick + 1) else j.ovSusp,
    pendTick := if drop then none else j.pendTick }
  let d := if susp then (d.flag Reg.SCH_STATUS_SUSP).post 5 3 (k % 1024 + 0x53 * 2 ^ 16) else d
  if retried then d.post 5 5 (k % 1024 + o.1 * 2 ^ 12) else d

/-- The close of the jobs of one tick: those whose hearth has a close window, and of a released job its last outcome, which counts in
SCH_CNT as MU (DESIGN CHOICE, log entry 132). -/
def Dev.closeTick (d : Dev) : Dev :=
  let skip := (d.noClose 0) || (d.noClose 1)
  let d := [0, 1].foldl (fun d h => if d.noClose h then d.dropAtEnd h else d.cutAtEnd h) d
  let d := { d with sch := { d.sch with work := [], closed := true, noPub := skip } }
  let d := d.clearLast
  let d := d.sch.force.foldl (fun d e => if d.noClose (d.homeOf e.2) then d else d.closeJob e.1) d
  let d := (d.wr Reg.SCH_USEDA_USED (d.sh 0).usedNow).wr Reg.SCH_USEDB_USED (d.sh 1).usedNow
  (d.setHm 0 (d.hm 0).closeVoices).setHm 1 (d.hm 1).closeVoices

/-- CLOSE_WINDOW (R75): the compute window's W engine cycles have passed. -/
def execCloseWindow (s : State) : Host.Outcome State Fault Refusal :=
  onDev (fun d =>
    if d.sch.win ≠ .compute then d else
    let d := d.at 118500
    let d := if d.dispatching || d.sch.stopTick == some d.tick then d.closeTick else { d with sch := { d.sch with last := [] } }
    let d := (d.countQuiet 0).countQuiet 1
    { d with sch := { d.sch with win := .close } }) s

/-! ### Publication (R113, R114) -/

/-- The low half-word of SCH_OUTC for job `k` (R113). -/
def Dev.outcWord (d : Dev) (k : Nat) (o : Nat × Nat) : Nat := o.1 + (d.job k).ovrun * 2 ^ 3 + o.2 * 2 ^ 8

/-- At the boundary the working bank becomes the visible bank, the change bits are set and OUTCOME events posted
(R113, R114). Called before the job table of the new tick comes into force. -/
def Dev.publish (d : Dev) : Dev :=
  if !d.sch.closed || d.sch.noPub then d else
  let old := d.sch.vis
  let ks := d.sch.force.map (·.1)
  let vis := ks.foldl (fun v k => Sparse.put 0 v k (d.outcWord k (Sparse.get (0, 0) d.sch.work k))) ([] : Sparse Nat)
  let d := { d with sch := { d.sch with vis := vis } }
  let d := d.wr Reg.SCH_OUTC_TICK_TICK ((d.tick - 1) % 2 ^ 32)
  let key := fun (w : Nat) => (bits w 2 0, bits w 15 8)
  let changed := ks.filter fun k => decide (k < 1024) && key (Sparse.get 0 old k) != key (Sparse.get 0 vis k)
  changed.foldl (fun d k =>
    let d := d.wr ⟨0x8180 + 4 * (k / 32), k % 32, k % 32⟩ 1
    let d := d.flag Reg.SCH_STATUS_CHG
    if d.on Reg.SCH_CFG_CHG_EV then
      let o := key (Sparse.get 0 vis k)
      d.post 5 4 (k + o.1 * 2 ^ 12 + o.2 * 2 ^ 16)
    else d) d

/-! ### Admission (R83 to R88, R94, R108, R144, R152, R194, R201, R205, R448) -/

/-- The bits of the descriptor words that are fields (R83); reserved bits read 0. -/
def descMask : List Nat :=
  [0xFF03F3FF, 0xFF01FFFF, 0xFFFF0FFF, 0x00000FFF, 0x83FF83FF, 0x83FF83FF, 0x83FF83FF, 0x0FFFFFFF, 0x0FFFFFFF,
   0x0FFFFFFF, 0x0FFFFFFF, 0x7FFF3FFF, 0xFFFFFFFF, 0x0000FFFF]

/-- A range is unused, or lies within one handle space and names only channels (R84, R85). -/
def rangeOk (fam96 : Bool) (r : Nat × Nat) : Bool :=
  r.2 == 0 || (r.1 / 4096 == (r.1 + r.2 - 1) / 4096 && handleOk fam96 r.1 && handleOk fam96 (r.1 + r.2 - 1))

/-- An output range names NTX, LOUT, IBUS or MSG channels (R84). -/
def outSpaceOk (r : Nat × Nat) : Bool := r.2 == 0 || [1, 3, 4, 5].contains (r.1 / 4096)

/-- Two ranges share a channel. -/
def rangesMeet (a b : Nat × Nat) : Bool := a.2 != 0 && b.2 != 0 && runsMeet a b
def listsMeet (a b : List (Nat × Nat)) : Bool := a.any fun x => b.any fun y => rangesMeet x y

/-- The level of a job (R87). -/
def levelOf (t : Sparse Job) : Nat → Job → Nat
  | 0, _ => 0
  | n + 1, j => match j.preds with
    | [] => 0
    | ps => 1 + (ps.map fun p => levelOf t n (Sparse.get {} t p)).foldl max 0

/-- The hearth that will plan `j` (R87, R89). -/
def Dev.plannedAt (d : Dev) (j : Job) : Nat :=
  match d.mode with
  | 0 => d.hrt.active
  | 1 => j.hearth
  | _ => if j.prot then d.hrt.active else j.hearth

/-- The conditions of R83, R84, R85, R194, R201 and R205 that give 0x01 RANGE; a standing job has its own limits
(R451, R537). -/
def Dev.rangeFails (d : Dev) (j : Job) (banks : Nat) : Bool :=
  decide (j.cls > 5) || j.engMask == 0 || j.wcet == 0 || decide (j.wcet > 112500)
  || (if j.defer then j.maxDefer == 0 else j.maxDefer != 0)
  || decide (j.embLen > 16384) || (!j.prot && j.embLen != 0) || decide (j.embOff + j.embLen > 64 * d.embPages)
  || decide (j.bank ≥ banks)
  || !((j.ins ++ j.outs).all (rangeOk d.fam96)) || !(j.outs.all outSpaceOk)
  || decide (j.dlFirst + j.dlCount > 4096)
  || (List.range j.dlCount).any fun i =>
      let l := j.dlFirst + i
      decide (l < 3072) && match d.line l with
        | none => true
        | some x => decide (j.tapSlew > x.slew) || (j.prot && !x.prot)

/-- The predecessors of `j` with their entries in the table `t`. -/
def predEntries (t : Sparse Job) (j : Job) : List Job := j.preds.map fun p => Sparse.get {} t p

/-- The declared entry that `j` names, in an image that every hearth of `hs` holds (R94, R152, R154). -/
def Dev.entryOf (d : Dev) (j : Job) (hs : List Nat) : Option EntryRec :=
  match d.image j.progId with
  | none => none
  | some im => if hs.all fun h => (im.base h).isSome then im.entry d.fam96 j.entry else none

/-- The hearths that may run `j` and must hold its image (R89, R154): in paired mode both, and in mixed mode both for a protected job,
which the standby carries after a takeover (DEDUCED, log entry 138). -/
def Dev.runsOn (d : Dev) (j : Job) : List Nat :=
  match d.mode with
  | 0 => [0, 1]
  | 1 => [j.hearth]
  | _ => if j.prot then [0, 1] else [j.hearth]

/-- Test 1 (R94): every failing condition with its code; R48 reports the lowest. `seq` is the job's admission
sequence, `k` its index. An UPDATE tests the job's own predecessors; the jobs that name it are not tested against its new class, DEFER or
HEARTH (DESIGN CHOICE, log entry 129). -/
def Dev.test1 (d : Dev) (t : Sparse Job) (k : Nat) (j : Job) (banks : Nat) : List Nat :=
  let ps := predEntries t j
  let home := d.plannedAt j
  (if d.rangeFails j banks then [0x01] else [])
  ++ (if ps.any fun p => !p.admitted then [0x03] else [])
  ++ (if ps.any fun p => p.admitted && decide (p.cls > j.cls) then [0x10] else [])
  ++ (if levelOf t 9 j > 7 then [0x11] else [])
  ++ (if listsMeet j.outs [(0x4FFF, 1)] || t.any (fun e => e.1 != k && e.2.present && listsMeet j.outs e.2.outs) then [0x12] else [])
  ++ (if (d.entryOf j (d.runsOn j)).isNone then [0x14] else [])
  ++ (if d.mode ≠ 1 ∧ j.cls ≤ 2 ∧ !j.prot then [0x15] else [])
  ++ (if j.defer && (j.ins ++ j.outs).any (fun r => r.2 != 0) then [0x16] else [])
  ++ (if d.mode = 1 ∧ j.prot then [0x17] else [])
  ++ (if ps.any fun p => p.admitted && d.plannedAt p != home then [0x19] else [])
  ++ (if ps.any fun p => p.admitted && p.cls == j.cls && decide (p.seq ≥ j.seq) then [0x1A] else [])
  ++ (if ps.any fun p => p.admitted && p.defer then [0x1B] else [])

/-- The lowest of the failing codes (R48). -/
def lowest : List Nat → Option Nat
  | [] => none
  | c :: t => some (t.foldl min c)

/-- The plans that tests 3 to 5 are run on: the window, the engines, and which admitted jobs count (R94). A protected
job of mixed mode is tested on the standby as well, with its full engine set and the jobs it would plan as survivor. -/
def Dev.testPlans (d : Dev) (j : Job) (others : List (Nat × Job)) : List (Nat × Nat × List (Nat × Job)) :=
  let cap := fun h => (d.sh h).cap
  match d.mode with
  | 0 => [((cap d.hrt.active).window, (cap d.hrt.active).eng, others)]
  | 1 => [((cap j.hearth).window, (cap j.hearth).eng, others.filter fun e => e.2.hearth == j.hearth)]
  | _ =>
    let survivor := fun h => others.filter fun e => e.2.prot || e.2.hearth == h
    let a := d.hrt.active
    if j.prot then
      [((cap a).window, (cap a).eng, survivor a), ((cap (1 - a)).window, (cap (1 - a)).work, survivor (1 - a))]
    else if j.hearth = a then [((cap a).window, (cap a).eng, survivor a)]
    else [((cap (1 - a)).window, (cap (1 - a)).eng, others.filter fun e => !e.2.prot && e.2.hearth == j.hearth)]

/-- Tests 3 to 5 on one plan: `none` when all pass. -/
def capacityFails (loss : Nat) (k : Nat) (j : Job) (p : Nat × Nat × List (Nat × Job)) : Option Nat :=
  let (w, eng, others) := p
  let upper := others.filter fun e => decide (e.2.cls ≤ j.cls)
  if (upper.map fun e => e.2.wcet).sum + j.wcet > w * engines eng then some 0x48
  else
    let placedIn := fun (acc : PlanAcc) (lim : Nat) => acc.placed.any fun x => x.job == k && decide (x.finish ≤ lim)
    if !placedIn (planOf w eng false (planSort upper ++ [(k, j)])) w then some 0x49
    else if j.cls = 0 then
      let e0 := planSort (others.filter fun e => e.2.cls == 0) ++ [(k, j)]
      let acc := planOf 101250 (2 ^ (8 - loss) - 1) true e0
      if acc.placed.length < e0.length || decide (acc.span > 101250) then some 0x4A else none
    else none

/-- The first failing test of R94 over all its plans, test by test. -/
def Dev.capacityTests (d : Dev) (k : Nat) (j : Job) (others : List (Nat × Job)) : Option Nat :=
  lowest ((d.testPlans j others).filterMap (capacityFails (d.rd Reg.SCH_CFG_FLOOR_LOSS) k j))

/-- ADMIT or UPDATE of job `k` with descriptor words `ws` (R81, R94, R199, R200): the reason code and the device. The first admission
sequence number is 0 (DESIGN CHOICE, log entry 128). A pending run does not outlive an UPDATE that clears DEFER (DESIGN CHOICE, log
entry 144). -/
def Dev.admission (d : Dev) (k : Nat) (ws : List Word) (old : Option Job) : Nat × Dev :=
  let base : Job := match old with
    | some o => o
    | none => { seq := d.sch.nextSeq, standSusp := d.on Reg.SCH_STATUS_HELD }
  let j : Job := { base with desc := ws }
  let j := { j with pendTick := if j.defer then j.pendTick else none }
  let t := d.sch.jobs.filter fun e => !e.2.standing
  match lowest (d.test1 t k j d.banks) with
  | some c => (c, d)
  | none =>
    let bound := match d.entryOf j [] with
      | some e => e.bound
      | none => 0
    if j.wcet < bound then (0x13, d) else
    let hs := d.drawsIn j
    let keep := old.any fun o => o.tiles == j.tiles && d.drawsIn o == hs
    match (if keep then some base.run else d.findTiles hs j.tiles), decide (j.tiles > 0) && !d.on Reg.ALC_CFG_ENABLE with
    | none, _ => (0x40, d)
    | some _, true => (0x40, d)
    | some run, false =>
      match d.capacityTests k j (t.filter fun e => e.1 != k && e.2.admitted) with
      | some c => (c, d)
      | none =>
        let d := if keep then d else (match old with | some o => d.returnTiles o | none => d).drawTiles hs run j.tiles
        let j := { j with run := run, runLen := j.tiles, inA := hs.contains 0, inB := hs.contains 1 }
        let d := d.setJob k j
        (0, match old with
          | some _ => d
          | none => { d with sch := { d.sch with nextSeq := d.sch.nextSeq + 1 } })

/-- The words READ returns (R81, R83). -/
def Dev.readBack (d : Dev) (k : Nat) : List Word :=
  let j := d.job k
  if !j.admitted then List.replicate 16 0 else
  j.desc ++ [BitVec.ofNat 32 j.seq,
    BitVec.ofNat 32 (j.lastOutcome + j.ovrun * 2 ^ 3 + (levelOf d.sch.jobs 9 j % 8) * 2 ^ 5 + j.lastReason * 2 ^ 8 + j.dfLag * 2 ^ 16)]

/-- The staged descriptor, reserved bits cleared (R83). -/
def Dev.staged (d : Dev) : List Word :=
  (List.range 14).map fun i => d.word (0x8080 + 4 * i) &&& BitVec.ofNat 32 (descMask.getD i 0)

/-- Execute the job command of SCH_JCMD (R81, R82, R459): the reason code and the device. -/
def Dev.jobCommand (d : Dev) (op k : Nat) : Nat × Dev :=
  let j := d.job k
  let ws := d.staged
  let pair := (ws.getD 0 0).toNat % 1024 != k
  match op with
  | 0 => (0, (List.range 16).foldl (fun d' i => d'.loadWord (0x8080 + 4 * i) ((d.readBack k).getD i 0)) d)
  | 1 => if pair then (0x02, d) else if j.present then (0x18, d) else d.admission k ws none
  | 2 => if pair then (0x02, d) else if !j.admitted then (0x1C, d) else d.admission k ws (some j)
  | 3 =>
    if !j.admitted then (0x1C, d)
    else if d.sch.jobs.any fun e => e.2.admitted && e.2.preds.contains k then (0x1D, d)
    else (0, (d.setJob k { j with releasing := some d.tick }).returnTiles j)
  | 4 => if !j.admitted then (0x1C, d) else (0, d.setJob k { j with hostSusp := true })
  | 5 =>
    if !j.admitted then (0x1C, d)
    else if j.standSusp then (0x54, d)
    else (0, d.setJob k { j with hostSusp := false, ovSusp := none, ovrun := 0 })
  | _ => (0x01, d)

/-- A job command completes (R80, R81): SCH_JRES, JDONE, and RF of a refused ADMIT or UPDATE (R116) for the staged CLASS; 6 and 7 count
nowhere (DESIGN CHOICE, log entry 133). -/
def Dev.runJobCommand (d : Dev) : Dev :=
  let op := d.rd Reg.SCH_JCMD_OP
  let k := d.rd Reg.SCH_JCMD_JOB
  let cls := bits (d.word 0x8080).toNat 14 12
  let (code, d) := d.jobCommand op k
  let d := if code ≠ 0 ∧ (op = 1 ∨ op = 2) then d.countOutcome cls 4 else d
  ((((d.wr Reg.SCH_JRES_REASON code).wr Reg.SCH_JRES_JOB k).wr Reg.SCH_JRES_REFUSED (bit (code != 0))).wr
    Reg.SCH_JRES_VALID 1).flag Reg.SCH_STATUS_JDONE

/-- GO of SCH_JCMD (R80, R32): it executes at once in the compute window and otherwise waits for the next one; one
further execution queues. -/
def Dev.jobGo (d : Dev) : Dev :=
  if d.sch.win = .compute then d.runJobCommand
  else { d with sch := { d.sch with waiting := min 2 (d.sch.waiting + 1) } }

/-- A job command by its own row. -/
def jobRow (h : Agent) (op : Nat) (job : JobIx) (s : State) : Host.Outcome State Fault Refusal :=
  onDev (fun d => d.hostCmd h Reg.SCH_JCMD_GO [(Reg.SCH_JCMD_JOB, job), (Reg.SCH_JCMD_OP, op)] Dev.jobGo) s

/-- Job command READ (R81). -/
def execJobRead (h : Agent) (job : JobIx) (s : State) : Host.Outcome State Fault Refusal := jobRow h 0 job s
/-- Job command ADMIT (R81, R94). -/
def execAdmitJob (h : Agent) (job : JobIx) (s : State) : Host.Outcome State Fault Refusal := jobRow h 1 job s
/-- Job command UPDATE (R81, R94). -/
def execUpdateJob (h : Agent) (job : JobIx) (s : State) : Host.Outcome State Fault Refusal := jobRow h 2 job s
/-- Job command RELEASE (R81, R82). -/
def execReleaseJob (h : Agent) (job : JobIx) (s : State) : Host.Outcome State Fault Refusal := jobRow h 3 job s
/-- Job command SUSPEND (R81). -/
def execSuspendJob (h : Agent) (job : JobIx) (s : State) : Host.Outcome State Fault Refusal := jobRow h 4 job s
/-- Job command RESUME (R81). -/
def execResumeJob (h : Agent) (job : JobIx) (s : State) : Host.Outcome State Fault Refusal := jobRow h 5 job s

/-- COMPUTE_WINDOW (R75, R80): the plan window ends; job commands that waited execute. -/
def execComputeWindow (s : State) : Host.Outcome State Fault Refusal :=
  onDev (fun d =>
    if d.sch.win ≠ .plan then d else
    let d := d.at 6000
    let n := d.sch.waiting
    let d := { d with sch := { d.sch with win := .compute, waiting := 0 } }
    (List.range n).foldl (fun d _ => d.runJobCommand) d) s

/-- TILES_ZEROED (R200): the zeroed tiles are back in the pool. -/
def execTilesZeroed (h : Hearth) (s : State) : Host.Outcome State Fault Refusal :=
  onDev (fun d => d.setHm (hIx h) (d.hm (hIx h)).zeroDone) s

end Sys2Proof.Machine
end

