-- ==== Sys2Proof/Machine/View.lean ====
section
/-! DEFINITION. What a register word reads as, side effects apart: the live word, with the fields that show state held
elsewhere laid over it. -/
namespace Sys2Proof.Machine

/-- An entry of the slow-domain queue is a write. -/
def SlowOp.isWrite : SlowOp → Bool
  | .write .. => true
  | .clear _ => false

/-- The code of a hearth state (R424). -/
def HState.code : HState → Nat
  | .off => 0 | .active => 1 | .standby => 2 | .syncing => 3 | .failed => 4 | .run => 5

/-- Set the fields of `fs` in word `w`. -/
def overlay (w : Word) (fs : List (Fld × Nat)) : Word := fs.foldl (fun w f => f.1.set w f.2) w

/-- Instruction words of hearth `h` that loaded images take in the lower 114,688 words (R154). -/
def Dev.isramUsed (d : Dev) (h : Nat) : List (Nat × Nat) :=
  d.eng.images.filterMap fun e =>
    match e.2.base h with
    | some b => if b < 114688 then some (b, e.2.code.length) else none
    | none => none

/-- One half of SCH_OUTCi or ALM_SOUTCi as fields at bit `lo` of the word at `a` (R113). -/
def outcFields (a lo w : Nat) : List (Fld × Nat) :=
  [(⟨a, lo + 2, lo⟩, bits w 2 0), (⟨a, lo + 4, lo + 3⟩, bits w 4 3), (⟨a, lo + 15, lo + 8⟩, bits w 15 8)]

/-- The visible outcome word of job `k`. -/
def Dev.visible (d : Dev) (k : Nat) : Nat := Sparse.get 0 d.sch.vis k

/-- Word `i` of the oldest event entry (R71, R72). -/
def Dev.evqWord (d : Dev) (i : Nat) : Word :=
  match d.evq.q with
  | e :: _ => e.words.getD i 0
  | [] => 0

/-- HRT_STATUS beyond its stored fields (R424, R439). -/
def Dev.hrtFields (d : Dev) : List (Fld × Nat) :=
  [(Reg.HRT_STATUS_ACTIVE, d.hrt.active), (Reg.HRT_STATUS_STATE_A, d.hrt.a.st.code),
   (Reg.HRT_STATUS_STATE_B, d.hrt.b.st.code), (Reg.HRT_STATUS_SUSPECT_A, bit d.hrt.a.suspect),
   (Reg.HRT_STATUS_SUSPECT_B, bit d.hrt.b.suspect), (Reg.HRT_STATUS_SWAPPEND, bit d.hrt.swapPend),
   (Reg.HRT_STATUS_TAKEN, bit d.hrt.taken)]

/-- The fields of an engine's status and PC registers that show its state (R121, R160 to R163). -/
def Dev.engFields (d : Dev) (a : Nat) : List (Fld × Nat) :=
  let e := (a - 0x20000) / 0x2000
  let g := d.en e
  match (a - 0x20000) % 0x2000 with
  | 0x4 => [(Reg.ENG_STATUS_STATE e, g.st)]
  | 0x10 => [(Reg.ENG_PC_PC e, g.pc), (Reg.ENG_PC_JOB e, g.job), (Reg.ENG_PC_RUN e, bit g.running)]
  | _ => []

/-- The fields of the loader's registers that show its state (R145, R154). -/
def Dev.loaderFields (d : Dev) (a : Nat) : List (Fld × Nat) :=
  match a with
  | 0x21014 => [(Reg.ENG_ISRAM_FREEA_RUN, largestRun 0 114688 (d.isramUsed 0))]
  | 0x21018 => [(Reg.ENG_ISRAM_FREEB_RUN, largestRun 0 114688 (d.isramUsed 1))]
  | 0x2101C => [(Reg.ENG_NPROG_COUNT, (d.eng.images.filter fun e => !e.2.entries.isEmpty && decide (e.1 < 0xF00)).length)]
  | 0x21024 => [(⟨a, 15, 0⟩, d.eng.syncA.toNat)]
  | 0x21028 => [(⟨a, 15, 0⟩, d.eng.syncB.toNat)]
  | _ => []

/-- The fields of ALC and PGU that show the state of the memories (R193, R199, R219, R226). -/
def Dev.memFields (d : Dev) (a : Nat) : List (Fld × Nat) :=
  match a with
  | 0x9008 => [(Reg.ALC_BASE0_EMB, 256), (Reg.ALC_BASE0_BANK, d.bankPage)]
  | 0x900C => [(Reg.ALC_BASE1_FRAME, d.framePage), (Reg.ALC_BASE1_POOL, d.poolPage)]
  | 0x9010 => [(Reg.ALC_POOLA_FREE, d.poolFree 0)]
  | 0x9014 => [(Reg.ALC_LARGESTA_RUN, d.poolLargest 0)]
  | 0x9018 => [(Reg.ALC_POOLB_FREE, d.poolFree 1)]
  | 0x901C => [(Reg.ALC_LARGESTB_RUN, d.poolLargest 1)]
  | 0x9020 => [(Reg.ALC_FRAMEFREEA_COUNT, d.framesFree 0)]
  | 0x9024 => [(Reg.ALC_FRAMEFREEB_COUNT, d.framesFree 1)]
  | 0x9040 =>
    [(Reg.PGU_STATUS_DFAIL0, bit d.mem.ch0.failed), (Reg.PGU_STATUS_DFAIL1, bit d.mem.ch1.failed),
     (Reg.PGU_STATUS_MSGVALID, bit d.mem.msgValid), (Reg.PGU_STATUS_RESYNC, bit d.mem.resync.isSome)]
  | 0x9080 => [(⟨a, 5, 5⟩, bit d.mem.ch0.trained), (⟨a, 6, 6⟩, bit d.mem.ch1.trained)]
  | 0x9140 => [(Reg.PGU_INFLA_NOW, d.mem.hA.inflight.length)]
  | 0x9144 => [(Reg.PGU_INFLB_NOW, d.mem.hB.inflight.length)]
  | _ => []

/-- The fields of CMT, INT, SCH, HRT and ALM that show state held elsewhere. -/
def Dev.fabricFields (d : Dev) (a : Nat) : List (Fld × Nat) :=
  match a with
  | 0x1008 => [(Reg.CMT_PENDING_PEND, d.fab.staged.foldl (fun m g => m + 2 ^ g.1) 0)]
  | 0x101C => [(Reg.CMT_STATUS_SLOW_BUSY, bit (d.fab.slowQ.any SlowOp.isWrite || !d.fab.slowCommits.isEmpty))]
  | 0x3000 => [(Reg.INT_PEND_PEND, d.intPend)]
  | 0x3040 => [(Reg.INT_EVQ0, (d.evqWord 0).toNat)]
  | 0x3044 => [(Reg.INT_EVQ1, (d.evqWord 1).toNat)]
  | 0x3048 => [(Reg.INT_EVQ2, (d.evqWord 2).toNat)]
  | 0x304C => [(Reg.INT_EVQ3, (d.evqWord 3).toNat)]
  | 0x3050 => [(Reg.INT_EVQ_STAT_COUNT, d.evq.q.length)]
  | 0x3058 => [(Reg.INT_EVQ_LOST_COUNT, d.evq.lostCount)]
  | 0x305C => [(Reg.INT_STAT_OVF, bit d.evq.ovf)]
  | 0x8000 => [(Reg.SCH_TICK_TICK, d.schTick)]
  | 0x8050 => [(Reg.SCH_JCMD_GO, bit (decide (0 < d.sch.waiting)))]
  | 0x8048 => [(Reg.SCH_NJOBS_COUNT, (d.sch.jobs.filter fun e => !e.2.standing && e.2.present).length)]
  | 0xA004 => d.hrtFields
  | 0xB004 => [(Reg.ALM_STATUS_ALARM, bit d.alarmActive)]
  | _ =>
    if 0x8800 ≤ a ∧ a < 0x9000 then
      let i := (a - 0x8800) / 4
      outcFields a 0 (d.visible (2 * i)) ++ outcFields a 16 (d.visible (2 * i + 1))
    else if 0xB100 ≤ a ∧ a < 0xB180 then
      let i := (a - 0xB100) / 4
      outcFields a 0 (d.visible (1024 + 2 * i)) ++ outcFields a 16 (d.visible (1024 + 2 * i + 1))
    else []

/-- Synthesizer `x` is gated (R384). -/
def Dev.synGated (d : Dev) (x : Nat) : Bool := if x = 0 then d.syn.a.gated else d.syn.b.gated

/-- The synthesizer that CLKOUT `x` runs from now (R390). -/
def Dev.clkSyn (d : Dev) (x : Nat) : Nat := (d.rd (Reg.OUT_CLK_CFG_SYN x) + d.rd (Reg.OUT_CLK_STAT_ONSYN x)) % 2

/-- The card is SAFE or UNSEATED, or waits for the boundary that releases its outputs: its TDM ports are stopped and its
clock and pulse outputs are low (R484, R485). -/
def Dev.outputsHeld (d : Dev) : Bool := decide (2 ≤ d.rd Reg.HOT_STATUS_STATE) || d.pwr.resume

/-- CLKOUT `x` toggles (R384, R388, R389). -/
def Dev.clkRun (d : Dev) (x : Nat) : Bool :=
  !d.outputsHeld && d.on Reg.OUT_CFG_ENABLE && d.rd Reg.OUT_CLKEN_EN / 2 ^ x % 2 == 1 && !d.synGated (d.clkSyn x) && !d.syn.waiting.contains x

/-- The network time registers PTP_TIME (R313): internal time in seconds and nanoseconds. -/
def Dev.seconds (d : Dev) : Nat := d.timeNs / 10 ^ 9
def Dev.nanos (d : Dev) : Nat := d.timeNs % 10 ^ 9

/-- An edge timed now is tagged COLD (R416): the OCXO is cold, or the TIM PLL runs from XTALIN. -/
def Dev.timCold (d : Dev) : Bool := !d.on Reg.REF_STATUS_OCXO_WARM || d.on Reg.TIM_STATUS_PLLSRC

/-- The CMD fields of the word at `a` whose command waits for the exit from P3 or P4 read 1 (R29, R488). -/
def Dev.heldFields (d : Dev) (a : Nat) : List (Fld × Nat) :=
  d.pwr.held.filterMap fun e => if e.2.1 = a then some (⟨a, e.2.2, e.2.2⟩, 1) else none

/-- What the register word at host offset `a` reads as, without any side effect of the read (R62). -/
def Dev.readWord (d : Dev) (a : Nat) : Word :=
  overlay (d.word a) (d.heldFields a ++
    (if a < 0x9000 then d.fabricFields a
     else if a < 0xA000 then d.memFields a
     else if a < 0xC000 then d.fabricFields a
     else if 0x18100 ≤ a ∧ a < 0x18180 ∧ a % 16 = 8 then [(Reg.OUT_CLK_STAT_RUN ((a - 0x18100) / 16), bit (d.clkRun ((a - 0x18100) / 16)))]
     else if a = 0x19004 then [(Reg.TIM_STATUS_COLD, bit d.timCold)]
     else if 0x20000 ≤ a ∧ a < 0x40000 then d.engFields a ++ d.loaderFields a
     else []))

end Sys2Proof.Machine
end

