-- ==== Sys2Proof/Machine/Dump.lean ====
section
/-! DEFINITION. The ash dump (R496 to R500). -/
namespace Sys2Proof.Machine

/-- The register addresses of a table's rows of types `p`, in ascending order of row and copy. -/
def rowWords (p : Ty → Bool) (rows : List Row) : List Nat :=
  (rows.filter fun r => p r.ty).flatMap fun r =>
    (List.range (max 1 r.n)).flatMap fun i => (List.range (max 1 r.m)).map fun j => r.fld.addr + i * r.stride + j * r.mstride

/-- The base of the control block with index `b` (spec/02, block index). -/
def blockBase (b : Nat) : Nat :=
  [0, 0x4000, 0x5000, 0x6000, 0x7000, 0x8000, 0x9000, 0xA000, 0xB000, 0xC000, 0xD000, 0x10000, 0x11000, 0x12000, 0x14000,
   0x15000, 0x16000, 0x17000, 0x18000, 0x19000, 0x20000, 0x30000, 0x1000, 0x2000, 0x3000].getD b 0

/-- Every RO, RC and CNT word of block `b` (R499). -/
def statusRegs (b : Nat) : List Nat :=
  ((rowWords (fun t => t == .ro || t == .rc || t == .cnt) (rowsOf (blockBase b))).filter fun a => blockOf a == b).dedup

/-- A section of a record: its header and its words (R499). -/
def dumpSection (ty : Nat) (ws : List Word) : List Word := [BitVec.ofNat 32 ty, BitVec.ofNat 32 (4 * ws.length)] ++ ws

/-- Sections 1 to 4 of a record (R499). -/
def Dev.dumpBody (d : Dev) : List Word :=
  dumpSection 1 (d.evq.q.flatMap Event.words)
  ++ dumpSection 2 (d.readWord 0x8100 :: (List.range 512).map fun i => d.readWord (0x8800 + 4 * i))
  ++ dumpSection 3 ((List.range 25).flatMap fun b => (statusRegs b).map d.readWord)
  ++ dumpSection 4 ((List.range 16).flatMap fun e =>
      let b := 0x20000 + 0x2000 * e
      [d.readWord (b + 0x10), d.readWord (b + 4), d.readWord (b + 0x1C)])

/-- A trigger with cause `c` (R496, R497): captured, or lost while the buffer holds a capture. The supervisor trace is
not described by the spec: its 4,096 words are free values. -/
def Dev.capture (d : Dev) (c : Nat) : Dev :=
  if d.rd Reg.DUMP_CFG_MASK / 2 ^ c % 2 = 0 then d
  else if d.on Reg.DUMP_STATUS_BUSY then
    ((d.count Reg.DUMP_LOSTCNT_COUNT Reg.DUMP_STATUS_CNT_HALF).flag Reg.DUMP_STATUS_OVER).post 4 1 (c + 2 ^ 8)
  else
    let r : DumpRec :=
      { cause := c, tick := d.schTick, secs := d.seconds, nanos := d.nanos,
        fw := d.rd Reg.PWR_KSTAT_IMAGE + d.rd Reg.PWR_SECVER_VER * 2 ^ 8 + (d.word 0x4014).toNat % 2 ^ 16 * 2 ^ 16,
        body := d.dumpBody, trace := d.free, klog := d.dump.klog }
    let d := { d with dump := { d.dump with buf := some r }, free := d.free + 4096 }
    (((d.wr Reg.DUMP_STATUS_BUSY 1).flag Reg.DUMP_STATUS_CAPEV).count Reg.DUMP_CNT_COUNT Reg.DUMP_STATUS_CNT_HALF).post 4 1 c

/-- The words of a record with its CRC field as `crc` (R499). -/
def DumpRec.wordsWith (r : DumpRec) (crc : Nat) : List Word :=
  let log := dumpSection 6 r.klog
  let n := 4 * (r.body.length + 2 + 4096 + log.length)
  [0x51454153, BitVec.ofNat 32 (1 + 64 * 2 ^ 16), BitVec.ofNat 32 r.seq, BitVec.ofNat 32 (r.cause % 256),
   BitVec.ofNat 32 r.tick, BitVec.ofNat 32 (r.secs % 2 ^ 32), BitVec.ofNat 32 r.nanos, BitVec.ofNat 32 (r.secs / 2 ^ 32 % 2 ^ 16),
   BitVec.ofNat 32 r.fw, BitVec.ofNat 32 n, 0, 0, 0, 0, 0, BitVec.ofNat 32 crc]
  ++ r.body ++ dumpSection 5 ((List.range 4096).map fun i => Config.freeWord (r.trace + i)) ++ log

/-- The words of a record (R499). -/
def DumpRec.words (r : DumpRec) : List Word :=
  r.wordsWith (crc32c ((r.wordsWith 0).flatMap fun w => leBytes w.toNat))

/-- DUMP_TRIGGER (R496). -/
def execDumpTrigger (h : Agent) (s : State) : Host.Outcome State Fault Refusal :=
  onDev (fun d => d.hostCmd h Reg.DUMP_CMD_TRIGGER [] fun d => d.capture 0) s

/-- DUMP_RELEASE (R498). -/
def execDumpRelease (h : Agent) (s : State) : Host.Outcome State Fault Refusal :=
  onDev (fun d => d.hostCmd h Reg.DUMP_CMD_RELEASE [] fun d => d.wr Reg.DUMP_STATUS_BUSY 0) s

/-- The saved record with the highest SEQ: its sector and itself (R498). -/
def newestDump (l : Sparse DumpRec) : Option (Nat × DumpRec) :=
  l.foldl (fun b e => match b with
    | none => some e
    | some x => if e.2.seq > x.2.seq then some e else some x) none

/-- DUMP_LAST and DUMP_NREC follow the partition. -/
def Dev.showDumps (d : Dev) (l : Sparse DumpRec) : Dev :=
  (d.wr Reg.DUMP_LAST_SEQ (match newestDump l with | some e => e.2.seq | none => 0)).wr Reg.DUMP_NREC_COUNT l.length

/-- SAVED (R493, R498): the supervisor has written the capture to the next sector, and the ageing record; `ok`: the write
was verified. -/
def execSaved (ok : Bool) (s : State) : Host.Outcome State Fault Refusal :=
  let d := s.dev
  match d.dump.buf, d.supRuns && d.on Reg.DUMP_STATUS_BUSY && d.on Reg.DUMP_CFG_AUTOSAVE && decide (d.rd Reg.DUMP_NREC_CAP > 0) with
  | some r, true =>
    let cap := d.rd Reg.DUMP_NREC_CAP
    let (sector, seq) := match newestDump s.nv.dump with
      | some e => (e.1 % cap + 1, e.2.seq + 1)
      | none => (1, 0)
    let nv := if ok then { s.nv with dump := Sparse.insert s.nv.dump sector { r with seq := seq } }
      else { s.nv with dump := Sparse.erase s.nv.dump sector }
    let nv := { nv with age := some d.age.hist }
    let d := ((d.wr Reg.DUMP_STATUS_BUSY 0).flag Reg.DUMP_STATUS_SAVEEV).post 4 2 (bit (!ok) * 2 ^ 8 + seq % 2 ^ 32 * 2 ^ 32)
    .next { s with nv := nv, dev := (d.showDumps nv.dump).settle }
  | _, _ => .next s

/-- The saved records, newest first. -/
def dumpInsert (r : DumpRec) : List DumpRec → List DumpRec
  | [] => [r]
  | x :: t => if r.seq ≥ x.seq then r :: x :: t else x :: dumpInsert r t

/-- DUMP_CMD.FETCH: the record DUMP_FETCH.REC is copied into the buffer (R500). -/
def Dev.fetchGo (d : Dev) (l : Sparse DumpRec) : Dev :=
  if d.on Reg.DUMP_STATUS_BUSY then d.wr Reg.DUMP_STATUS_REASON 0x10
  else match ((l.map (·.2)).foldr dumpInsert [])[d.rd Reg.DUMP_FETCH_REC]? with
    | none => d.wr Reg.DUMP_STATUS_REASON 0x11
    | some r => { (d.wr Reg.DUMP_STATUS_REASON 0) with dump := { d.dump with buf := some r } }

/-- FETCH (R500). -/
def execFetch (h : Agent) (s : State) : Host.Outcome State Fault Refusal :=
  onDev (fun d => d.hostCmd h Reg.DUMP_CMD_FETCH [] fun d => d.fetchGo s.nv.dump) s

/-- The word of the capture buffer at DUMP_RDADDR (R500); an empty buffer and the space past a record read 0. -/
def Dev.rdData (d : Dev) : Word :=
  match d.dump.buf with
  | some r => r.words.getD (d.rd Reg.DUMP_RDADDR_ADDR) 0
  | none => 0

/-- A read of DUMP_RDDATA at its own address advances DUMP_RDADDR by 4. -/
def Dev.rdDataRead (d : Dev) : Dev × Word :=
  (d.load Reg.DUMP_RDADDR_ADDR ((d.rd Reg.DUMP_RDADDR_ADDR + 1) % 2 ^ 14), d.rdData)

/-- RDDATA_READ (R500). -/
def execRddataRead (h : Agent) (s : State) : Host.Outcome State Fault Refusal :=
  onDev (fun d =>
    let r := (d.touch h false 4).rdDataRead
    { r.1 with fab := { r.1.fab with rdata := [r.2] } }) s

end Sys2Proof.Machine
end

