-- ==== Sys2Proof/Machine/EngineWide.lean ====
section
/-! DEFINITION. The wide accumulator instructions (R126, R173). -/
namespace Sys2Proof.Machine

/-- The two register triples of WTOV and VTOW and the pair of CSTEP exist for these register numbers only; another
number encodes no defined word (R167, R173). -/
def orUndefined (ok : Bool) (r : Host.Outcome State Fault Refusal) : Host.Outcome State Fault Refusal :=
  if ok then r else .fault .undefinedWord

/-- MACV (R173). -/
def execMacv (e : Eng) (d : WReg) (a b : VReg) (p : PReg) (s : State) : Host.Outcome State Fault Refusal :=
  engOp (.macv e d a b p) e (fun g => g.wmap p d fun i => sat72 ((g.getW d i).toInt + (g.getV a i).toInt * (g.getV b i).toInt)) s

/-- MSUV (R173). -/
def execMsuv (e : Eng) (d : WReg) (a b : VReg) (p : PReg) (s : State) : Host.Outcome State Fault Refusal :=
  engOp (.msuv e d a b p) e (fun g => g.wmap p d fun i => sat72 ((g.getW d i).toInt - (g.getV a i).toInt * (g.getV b i).toInt)) s

/-- WCLR, the wide instruction (R173). -/
def execWclrInstruction (e : Eng) (d : WReg) (p : PReg) (s : State) : Host.Outcome State Fault Refusal :=
  engOp (.wclrInstruction e d p) e (fun g => g.wmap p d fun _ => (0, 0)) s

/-- WEXTL (R173). -/
def execWextl (e : Eng) (d : VReg) (a : WReg) (sh : Fin 32) (p : PReg) (s : State) : Host.Outcome State Fault Refusal :=
  engOp (.wextl e d a sh p) e (fun g => g.vmap p d fun i => sat31 (rneShift ((g.getW a i).toInt * 2 ^ sh.val) 31)) s

/-- WEXTR (R173). -/
def execWextr (e : Eng) (d : VReg) (a : WReg) (sh : Fin 32) (p : PReg) (s : State) : Host.Outcome State Fault Refusal :=
  engOp (.wextr e d a sh p) e (fun g => g.vmap p d fun i => sat31 (rneShift (g.getW a i).toInt (31 + sh))) s

/-- WEXTT (R173): truncating toward −∞. -/
def execWextt (e : Eng) (d : VReg) (a : WReg) (sh : Fin 32) (p : PReg) (s : State) : Host.Outcome State Fault Refusal :=
  engOp (.wextt e d a sh p) e (fun g => g.vmap p d fun i => sat31 ((g.getW a i).toInt / 2 ^ (31 + sh.val))) s

/-- WTOV (R173). -/
def execWtov (e : Eng) (d : VReg) (a : WReg) (p : PReg) (s : State) : Host.Outcome State Fault Refusal :=
  orUndefined (decide (d.val ≤ 29)) <| engOp (.wtov e d a p) e (fun g => 
    let g := g.vmap p d fun i => ((g.getW a i).truncate 32, 0)
    let g := g.vmap p (d + 1) fun i => (((g.getW a i) >>> 32).truncate 32, 0)
    g.vmap p (d + 2) fun i => (BitVec.ofInt 32 ((g.getW a i).toInt / 2 ^ 64), 0)) s

/-- VTOW (R173). -/
def execVtow (e : Eng) (d : WReg) (a : VReg) (p : PReg) (s : State) : Host.Outcome State Fault Refusal :=
  orUndefined (decide (a.val ≤ 29)) <| engOp (.vtow e d a p) e (fun g => 
    g.wmap p d fun i => (BitVec.ofNat 72 ((g.getV (a + 2) i).toNat % 256 * 2 ^ 64 + (g.getV (a + 1) i).toNat * 2 ^ 32
      + (g.getV a i).toNat), 0)) s

/-- CSTEP (R173). -/
def execCstep (e : Eng) (d : WReg) (a b : VReg) (p : PReg) (s : State) : Host.Outcome State Fault Refusal :=
  orUndefined (decide (d.val = 0 ∨ d.val = 2)) <| engOp (.cstep e d a b p) e (fun g => 
    let g := g.wmap p d fun i => sat72 ((g.getW d i).toInt + (g.getV a i).toInt * (g.getV b i).toInt)
    g.wmap p (d + 1) fun i => sat72 ((g.getW (d + 1) i).toInt + (g.getV b i).toInt * (g.getV b i).toInt)) s


end Sys2Proof.Machine
end

