-- ==== Sys2Proof/Machine/EngineControl.lean ====
section
/-! DEFINITION. The control and system instructions (R145, R147, R188 to R191) and the delay-line instructions
(R178 to R181, R210, R211). -/
namespace Sys2Proof.Machine

/-- BR (R188); an offset that is not positive encodes no loadable branch. -/
def execBr (e : Eng) (off : BitVec 20) (s : State) : Host.Outcome State Fault Refusal :=
  ctlOp (.br e off) e (fun g => (g.jump ((g.pc : Int) + off.toInt).toNat)) s

/-- BZ (R188). -/
def execBz (e : Eng) (a : SReg) (off : BitVec 20) (s : State) : Host.Outcome State Fault Refusal :=
  ctlOp (.bz e a off) e (fun g => g.branch (g.getS a == 0) off) s

/-- BNZ (R188). -/
def execBnz (e : Eng) (a : SReg) (off : BitVec 20) (s : State) : Host.Outcome State Fault Refusal :=
  ctlOp (.bnz e a off) e (fun g => g.branch (g.getS a != 0) off) s

/-- BPZ (R188). -/
def execBpz (e : Eng) (a : PReg) (off : BitVec 20) (s : State) : Host.Outcome State Fault Refusal :=
  ctlOp (.bpz e a off) e (fun g => g.branch (g.getP a == 0) off) s

/-- LOOP with an immediate count (R188, R189). -/
def execLoop (e : Eng) (count : BitVec 12) (len : BitVec 8) (s : State) : Host.Outcome State Fault Refusal :=
  ctlOp (.loop e count len) e (fun g => g.loopStart count.toNat (len.toNat + 1)) s

/-- LOOP with a register count limited by a ceiling (R188, R189). -/
def execLoopReg (e : Eng) (a : SReg) (ceil : BitVec 12) (len : BitVec 8) (s : State) : Host.Outcome State Fault Refusal :=
  orUndefined (decide (ceil ≠ 0)) <|
    ctlOp (.loopReg e a ceil len) e (fun g => g.loopStart (min (g.getS a).toNat ceil.toNat) (len.toNat + 1)) s

/-- CALL (R188). -/
def execCall (e : Eng) (off : BitVec 20) (s : State) : Host.Outcome State Fault Refusal :=
  orUndefined (decide (off ≠ 0)) <| ctlOp (.call e off) e (fun g => g.callTo off) s

/-- RET (R188 to R190). -/
def execRet (e : Eng) (s : State) : Host.Outcome State Fault Refusal :=
  ctlOp (.ret e) e EngS.doRet s

/-- Flag `f` of hearth `h` is set in cycle `t` of the compute window; a flag already set leaves it set (R145). -/
def Dev.raiseSync (d : Dev) (h f t : Nat) : Dev :=
  if (d.sync h).getLsbD f then d
  else
    let d := d.setSync h (d.sync h ||| BitVec.ofNat 16 (2 ^ f))
    { d with eng := { d.eng with syncAt := Sparse.put 0 d.eng.syncAt (16 * h + f) t } }

/-- Complete a WAIT: `sd := v`, and the next instruction issues at `c` (R145). -/
def EngS.endWait (g : EngS) (v : Word) (c : Nat) : EngS :=
  match g.wait with
  | some w => ({ g with wait := none, next := max g.next c }.setS w.d v).advance
  | none => g

/-- A WAIT whose flag was set in cycle `t` of the compute window: it completes in its issue cycle where the flag was set before it, in
the cycle after `t` where T cycles have not passed by then, and otherwise at its timeout (R145, R188). Where both come in one cycle
the spec does not say which `sd` it takes: `tie` is a free value (log entry 135). -/
def EngS.flagSeen (g : EngS) (t : Nat) (tie : Word) : EngS :=
  match g.wait with
  | none => g
  | some w =>
    let i := g.base + w.at_
    if t < i then g.endWait 1 (w.at_ + 1)
    else
      let c := t + 1 - g.base
      if c < w.at_ + w.t then g.endWait 1 (c + 1)
      else if c = w.at_ + w.t then g.endWait (tie % 2) (c + 1)
      else g.endWait 0 (w.at_ + w.t + 1)

/-- SIGNAL (R145): the flag is set in the issue cycle, and every engine of the hearth that waits for it completes. -/
def execSignal (e : Eng) (f : Fin 16) (s : State) : Host.Outcome State Fault Refusal :=
  devOp (.signal e f) e (fun d =>
    let h := e.val / 8
    let t := (d.en e).now
    let (d, tie) := (d.raiseSync h f t).fresh
    (List.range 8).foldl (fun d i =>
      d.modEn (h * 8 + i) fun g => if g.wait.any (·.flag == f.val) then g.flagSeen t tie else g) d) s

/-- WAIT (R145): it completes at once when the flag was set before its issue cycle, and otherwise stalls. -/
def execWait (e : Eng) (d : SReg) (f : Fin 16) (t : BitVec 12) (s : State) : Host.Outcome State Fault Refusal :=
  orUndefined (decide (t ≠ 0)) <| onDev (fun D =>
    let h := e.val / 8
    let D := D.issue (.wait e d f t) e
    let D := D.modEn e fun g => { g with wait := some { d := d, flag := f, at_ := g.issued, t := t.toNat } }
    if (D.sync h).getLsbD f.val then
      let (D, tie) := D.fresh
      let s := Sparse.get 0 D.eng.syncAt (16 * h + f.val)
      D.modEn e fun g => g.flagSeen s tie
    else D) s

/-- WAIT_TIMEOUT (R145): T cycles have passed; sd := 0. -/
def execWaitTimeout (e : Eng) (s : State) : Host.Outcome State Fault Refusal :=
  onDev (fun D => D.modEn e fun g =>
    match g.wait with
    | some w => g.endWait 0 (w.at_ + 1 + w.t)
    | none => g) s

/-- A job event of R147: at most 4 per run. -/
def Dev.postEvent (d : Dev) (e c : Nat) (v : Word) : Dev :=
  let g := d.en e
  if g.posts < 4 then
    (d.modEn e fun g => { g with posts := g.posts + 1 }).post (20 + e / 8) (0x80 + c)
      (v.toNat + g.job % 1024 * 2 ^ 32 + e % 8 * 2 ^ 42)
  else (d.count (Reg.ENG_PDROP_COUNT e) (Reg.ENG_STATUS_CNT_HALF e)).flag (Reg.ENG_STATUS_POSTDROP e)

/-- END (R122): the run ends; its cycles count to the end of END's own issue cost. -/
def execEndRun (e : Eng) (s : State) : Host.Outcome State Fault Refusal :=
  onDev (fun d => (d.issue (.endRun e) e).endNormal e) s

/-- NOP (R191). -/
def execNop (e : Eng) (s : State) : Host.Outcome State Fault Refusal := engOp (.nop e) e (fun g => g) s

/-- RDFLG (R191). -/
def execRdflg (e : Eng) (d : SReg) (s : State) : Host.Outcome State Fault Refusal :=
  engOp (.rdflg e d) e (fun g => g.setS d (g.flags.zeroExtend 32)) s

/-- RDCYC (R191): the cycles before this instruction's issue cycle; its issue cost is 1. -/
def execRdcyc (e : Eng) (d : SReg) (s : State) : Host.Outcome State Fault Refusal :=
  engOp (.rdcyc e d) e (fun g => g.setS d (BitVec.ofNat 32 (g.issued - 1))) s

/-- LIDX (R191): the iteration of the innermost active loop, or 0. -/
def execLidx (e : Eng) (d : SReg) (s : State) : Host.Outcome State Fault Refusal :=
  engOp (.lidx e d) e (fun g => g.setS d (BitVec.ofNat 32 ((g.loops.head?.map (·.iter)).getD 0))) s

/-! ### Delay lines -/

/-- Complete a DLRD whose pages are all present: load `vals`; a poisoned word ends the run with OV MEMFAULT (R102, R224). -/
def Dev.dlLoad (d : Dev) (e dst l sa p : Nat) (vals : List (Nat × Word)) : Dev :=
  let g := d.en e
  let h := e / 8
  let qs := (g.enabled p).filterMap fun i => d.posOf l sa i false
  if qs.any (d.poisonedAt h l) then d.cutRun e ocOV 0x89 (g.next - 1)
  else
    let d := d.setHm h ((qs.map (·.1)).dedup.foldl (fun m pg => m.touch l pg) (d.hm h))
    d.modEn e fun g => vals.foldl (fun g v => g.setV dst v.1 v.2) g

/-- DLRD (R178 to R181). A line outside the job's range is a violation of kind 4; a page that is absent starts a demand
miss and stalls the run (R143, R210). The violation's address register takes a free value: the spec gives a delay-line
access no effective address. -/
def execDlrd (e : Eng) (d : VReg) (a : SReg) (line : BitVec 12) (p : PReg) (s : State) : Host.Outcome State Fault Refusal :=
  onDev (fun D =>
    let D := D.issue (.dlrd e d a line p) e
    let g := D.en e
    let l := line.toNat
    let sa := (g.getS a).toNat
    let ls := g.enabled p
    if ls.isEmpty then D.modEn e EngS.advance
    else if !(D.jobF g.job).namesLine l then
      let (D, x) := D.fresh
      ((D.modEn e fun g => ls.foldl (fun g i => g.setV d i 0) g).accViol e 4 x).modEn e EngS.advance
    else
      let D := D.noteTap (e.val / 8) l sa
      let vals := D.dlSeen e l sa ls
      match D.absentPage (e.val / 8) l sa ls with
      | none => (D.dlLoad e d l sa p vals).modEn e EngS.advance
      | some pg =>
        (D.startMiss (e.val / 8) l pg).modEn e fun g =>
          { g with miss := some { d := d, sa := sa, line := l, p := p, page := pg, vals := vals } }) s

/-- A stalled DLRD of engine `e` after the fill of its page: the next absent page starts another miss, and otherwise the
read completes with what the line held when it issued (R143, R179, R210). `cycles` run from the issue, or from the page before, to the
residency of this page; the stall adds to the read's own cost and latency (DEDUCED, log entry 143). A run whose count passes WCET in the
stall has been cut there (R97). -/
def Dev.resumeMiss (d : Dev) (e cycles : Nat) : Dev :=
  let g := d.en e
  match g.miss with
  | none => d
  | some m =>
    if g.next - 2 + cycles + 5 > (d.jobF g.job).wcet then d.budgetCut e
    else match d.absentPage (e / 8) m.line m.sa (g.enabled m.p) with
    | some pg =>
      (d.startMiss (e / 8) m.line pg).modEn e fun g =>
        { g with miss := some { m with page := pg }, next := g.next + cycles, stall := g.stall + cycles }
    | none =>
      let d := d.modEn e fun g =>
        { g with miss := none, next := g.next + cycles + 6, stall := g.stall + cycles + 6,
                 ready := Sparse.put 0 g.ready (rV m.d) (g.next + cycles + 10) }
      let d := d.dlLoad e m.d m.line m.sa m.p m.vals
      d.modEn e EngS.advance

/-- DLWR (R178 to R181, R211). -/
def execDlwr (e : Eng) (src : VReg) (a : SReg) (line : BitVec 12) (p : PReg) (s : State) : Host.Outcome State Fault Refusal :=
  devOp (.dlwr e src a line p) e (fun D =>
    let g := D.en e
    let l := line.toNat
    let ls := g.enabled p
    if ls.isEmpty then D
    else if !(D.jobF g.job).namesLine l || decide (l ≥ 3072) then
      let (D, x) := D.fresh
      D.accViol e 4 x
    else
      let sa := (g.getS a).toNat
      D.dlWrite (e.val / 8) e l (ls.filterMap fun i =>
        (D.posOf l sa i true).map fun q => (q.1, q.2, g.getV src i))) s

end Sys2Proof.Machine
end

