-- ==== Sys2Proof/Machine/Hearth.lean ====
section
/-! DEFINITION. Hearth redundancy: states, triggers, ember copies, takeover, proof swap, restore (spec/14), and the faults
of engines and memories that reach it (R101, R159, R160, R195). -/
namespace Sys2Proof.Machine

/-! ### States (R424, R430) -/

/-- HSTATE: the event and its status bit. -/
def Dev.postState (d : Dev) (h : Nat) : Dev :=
  (d.flag Reg.HRT_STATUS_HSTEV).post 7 2 (h + (d.hh h).st.code * 2 + bit (d.hh h).suspect * 2 ^ 4)

/-- Change a hearth's state; a change posts HSTATE (R424). -/
def Dev.setState (d : Dev) (h : Nat) (st : HState) : Dev :=
  let x := d.hh h
  if x.st = st then d
  else (d.setHh h { x with st := st, syncSince := if st = .syncing then d.tick else x.syncSince }).postState h

/-- STANDBY or SYNCING of a hearth that receives copies, in the current tick (R430, R538). -/
def Dev.refresh (d : Dev) (h : Nat) : Dev :=
  let x := d.hh h
  if x.st = .standby ∨ x.st = .syncing then
    let recent := !x.recopy && x.last.any fun q => decide (d.tick ≤ q + 2)
    let d := d.setState h (if recent then .standby else .syncing)
    if recent then { d with hrt := { d.hrt with taken := false } } else d
  else d

/-- The engines of a hearth stop: their runs end with no outcome of their own (R128, R163, R433). The spec gives no cycle for the end of
such a run: its count is a free value from the cycles issued to WCET (log entry 139). -/
def Dev.stopEngines (d : Dev) (h : Nat) : Dev :=
  lanes.foldl (fun d i =>
    let e := 8 * h + i
    let g := d.en e
    if g.running then
      let (d, x) := d.fresh
      d.closeRun e (g.next - 1 + x.toNat % ((d.jobF g.job).wcet + 2 - g.next))
    else d) d

/-- A hearth that fails: it halts, leaves the link and holds no copy (R424, R432, R433). -/
def Dev.failHearth (d : Dev) (h : Nat) : Dev :=
  let d := d.stopEngines h
  let m := d.hm h
  let d := d.setHm h { m with
    frames := m.frames.filter (fun e => decide (3072 ≤ e.2.line) && e.2.st == .resident), inflight := [], queue := [], around := [],
    held := [], prefetch := [], waiting := [], alt := [], voices := [], voiceReq := [] }
  let d := d.setHh h { (d.hh h) with buf0 := none, buf1 := none, last := none, kept := false, recopy := false }
  let d := match d.hrt.copy with
    | some c => if c.dest = h then { d with hrt := { d.hrt with copy := none } } else d
    | none => d
  d.setState h .failed

/-- A fault of R431 with its cause, in hearth `h`: a trigger for an ACTIVE hearth in paired and mixed modes and for a
hearth in split mode, acted on at the next boundary; the standby fails at once for causes 4 and 5. A pending proof swap
is cancelled by a trigger (R439). -/
def Dev.hearthFault (d : Dev) (h cause : Nat) : Dev :=
  let x := d.hh h
  let arm := fun (d : Dev) => d.setHh h { x with trig := some (x.trig.getD cause) }
  match x.st with
  | .active => arm { d with hrt := { d.hrt with swapPend := false, swapAt := none } }
  | .run => if cause = 0 ∨ cause = 4 ∨ cause = 5 then arm d else d
  | .standby | .syncing => if cause = 4 ∨ cause = 5 then d.failHearth h else d
  | _ => d

/-! ### Ember copies (R426 to R430) -/

/-- Word address of ember buffer `i`, and the words of a buffer. -/
def Dev.emberBase (d : Dev) (i : Nat) : Nat := (256 + i * d.embPages) * 1024
def Dev.emberWords (d : Dev) : Nat := d.embPages * 1024

/-- TICK_COMPLETION (R77, R213, R427): the write-through of protected lines is done; in paired and mixed modes the copy
of the tick to the other hearth begins, unless a trigger is detected (R428) or the other hearth takes no copies. A hearth signals
once in a tick, in its close window, where every run has ended. -/
def execTickCompletion (h : Hearth) (ns : Nat) (s : State) : Host.Outcome State Fault Refusal :=
  onDev (fun d =>
    let d := d.at ns
    let i := hIx h
    let x := d.hh i
    if (x.st ≠ .active ∧ x.st ≠ .run) ∨ d.sch.win ≠ .close ∨ (d.sh i).completed then d else
    let d := (d.setSh i { (d.sh i) with completed := true }).writeThrough
    let o := d.hh (1 - i)
    if x.st = .active && x.trig.isNone && !(d.sh i).skip && (o.st == .standby || o.st == .syncing) then
      let ws := copyRange (d.hm i).gw (d.emberBase x.work) d.emberWords [] 0
      let t := d.copiedTaps i
      { d with hrt := { d.hrt with copy := some { seq := d.tick, dest := 1 - i, words := ws, began := d.timeNs, taps := t.1, voices := t.2 } } }
    else d) s

/-- A copy of sequence number `seq` that is not complete has been received: its buffer holds no complete copy, and where it held the last
one, the other buffer's is the last (R428); the working buffer that R440 keeps is unchanged. -/
def HrtH.spoil (x : HrtH) (seq : Nat) : HrtH :=
  let old := if seq % 2 = 0 then x.buf0 else x.buf1
  let other := if seq % 2 = 0 then x.buf1 else x.buf0
  if x.kept ∧ old = x.last then x
  else
    let x := if seq % 2 = 0 then { x with buf0 := none } else { x with buf1 := none }
    if old = x.last then { x with last := other } else x

/-- The time a copy takes on the link, in ns (R427). -/
def Dev.copyNs (d : Dev) : Nat := d.embPages * 128 + 100

/-- EMBER_COPY_DONE (R427, R428): the copy in flight ends; `crcOk`: its CRC matched. -/
def execEmberCopyDone (crcOk : Bool) (ns : Nat) (s : State) : Host.Outcome State Fault Refusal :=
  onDev (fun d =>
    let d := d.at ns
    match d.hrt.copy with
    | none => d
    | some c =>
      if d.timeNs < c.began + d.copyNs then d else
      let x := d.hh c.dest
      let d := { d with hrt := { d.hrt with copy := none } }
      let d := d.wr Reg.HRT_ETIME_NS d.copyNs
      let odd := c.seq % 2
      if !crcOk || !(x.last.all fun q => decide (c.seq > q)) then
        let d := d.setHh c.dest (x.spoil c.seq)
        ((d.count Reg.HRT_ECRCERR_COUNT Reg.HRT_STATUS_CNT_HALF).flag Reg.HRT_STATUS_EMBEV).post 7 5 (c.seq % 2 ^ 32 * 2 ^ 32)
      else
        if c.ue then d.setHh c.dest (x.spoil c.seq)
        else
          let m := d.hm c.dest
          let d := d.setHm c.dest { m with gw := copyRange c.words 0 d.emberWords m.gw (d.emberBase odd) }
          let x := if odd = 0 then { x with buf0 := some c.seq } else { x with buf1 := some c.seq }
          let d := d.setHh c.dest { x with last := some c.seq, kept := false }
          let d := (d.wr Reg.HRT_ESEQ_SEQ (c.seq % 2 ^ 32)).count Reg.HRT_ECOPIES_COUNT Reg.HRT_STATUS_CNT_HALF
          let d := d.takeTaps c.dest c.taps c.voices (decide (c.seq < d.tick))
          d.refresh c.dest) s

/-- A copy still in flight when roles change is torn (R428). -/
def Dev.tearCopy (d : Dev) : Dev :=
  match d.hrt.copy with
  | none => d
  | some c =>
    let x := d.hh c.dest
    let d := d.setHh c.dest (x.spoil c.seq)
    let d := { d with hrt := { d.hrt with copy := none } }
    ((d.count Reg.HRT_ETORN_COUNT Reg.HRT_STATUS_CNT_HALF).flag Reg.HRT_STATUS_EMBEV).post 7 5 (1 + c.seq % 2 ^ 32 * 2 ^ 32)

/-! ### Takeover, hearth down, proof swap (R432 to R442) -/

/-- The roles change at the current boundary b from hearth `f` to the other hearth (R433); `swap`: a proof swap (R439,
R440), `proof`: a failed one (R441). -/
def Dev.changeRoles (d : Dev) (f cause : Nat) (swap proof : Bool) : Dev :=
  let o := 1 - f
  let d := d.tearCopy
  let x := d.hh o
  let k := x.last.getD 0
  let skip := min 3 (d.tick - 1 - k)
  let d := d.setHh o { x with work := if x.buf1 = some k then 1 else 0, kept := false, trig := none }
  let d := if swap then
      let y := d.hh f
      let q := d.tick - 2
      let d := d.setHh f { y with trig := none, last := some q, kept := true, buf0 := if y.work = 0 then some q else none,
                                  buf1 := if y.work = 1 then some q else none }
      let d := (d.stopEngines f).setState f .standby
      d.wr Reg.HRT_ESEQ_SEQ (q % 2 ^ 32)
    else if proof && cause ≠ 4 && cause ≠ 5 then
      let d := d.failHearth f
      let d := d.setHh f { (d.hh f) with trig := none, suspect := true, st := .syncing, syncSince := d.tick }
      d.postState f
    else
      let d := d.setHh f { (d.hh f) with trig := none, suspect := (d.hh f).suspect || proof }
      d.failHearth f
  let d := d.setState o .active
  let d := (d.setSync o 0).reloadPairs o skip
  let d := { d with hrt := { d.hrt with active := o, role := some o, hold := some f,
                                        taken := decide (d.mode = 2) && !swap } }
  ((((d.wr Reg.HRT_TKTICK_TICK (d.tick % 2 ^ 32)).wr Reg.HRT_TKINFO_CAUSE cause).wr Reg.HRT_TKINFO_FROM f).wr
    Reg.HRT_TKINFO_SKIP skip).wr Reg.HRT_TKINFO_SWAP (bit swap)

/-- A takeover from hearth `f` at boundary b (R433); within the proof window it is a failed swap (R441). -/
def Dev.takeover (d : Dev) (f cause : Nat) : Dev :=
  let proof := match d.hrt.proofEnd with
    | some (t, former) => decide (d.tick ≤ t) && former != f
    | none => false
  let d := d.changeRoles f cause false proof
  let d := { d with hrt := { d.hrt with proofEnd := none } }
  let d := (d.flag Reg.HRT_STATUS_TKEV).count Reg.HRT_TKCNT_COUNT Reg.HRT_STATUS_CNT_HALF
  let d := d.post 7 1 ((1 - f) + cause * 2 ^ 8 + d.rd Reg.HRT_TKINFO_SKIP * 2 ^ 16 + d.tick % 2 ^ 32 * 2 ^ 32)
  let d := if proof then
      ((d.flag Reg.HRT_STATUS_SWAPEV).count Reg.HRT_SWAPFAIL_COUNT Reg.HRT_STATUS_CNT_HALF).post 7 4 (f + cause * 2 ^ 8)
    else d
  d.capture 2

/-- A hearth that is down at boundary b (R437). -/
def Dev.hearthDown (d : Dev) (h cause : Nat) : Dev :=
  let d := d.tearCopy
  let d := d.failHearth h
  let d := d.setHh h { (d.hh h) with trig := none, down := some (cause, d.tick) }
  ((d.flag Reg.HRT_STATUS_TKEV).post 7 6 (h + cause * 2 ^ 8)).capture 3

/-- The reason a proof swap is refused now, if any (R439). -/
def Dev.swapRefusal (d : Dev) : Option Nat :=
  let o := d.hh (1 - d.hrt.active)
  if d.mode = 1 ∨ o.st ≠ .standby then some 0x11
  else if o.suspect then some 0x12
  else if d.alarmActive || d.on Reg.SCH_STATUS_HELD then some 0x13
  else none

/-- HRT_CMDRES. -/
def Dev.hrtResult (d : Dev) (c : Nat) : Dev := (d.wr Reg.HRT_CMDRES_REASON c).wr Reg.HRT_CMDRES_VALID 1

/-- The exchange of roles of a proof swap at boundary s + 1 (R439). -/
def Dev.proofSwap (d : Dev) : Dev :=
  let f := d.hrt.active
  let d := d.changeRoles f 0 true false
  let d := { d with hrt := { d.hrt with swapPend := false, swapAt := none, lastSwap := d.tick,
                                        proofEnd := some (d.tick + d.rd Reg.HRT_PROOF_WIN, f) } }
  let d := (d.wr Reg.HRT_LASTSWAP_TICK (d.tick % 2 ^ 32)).flag Reg.HRT_STATUS_SWAPEV
  (d.count Reg.HRT_SWAPCNT_COUNT Reg.HRT_STATUS_CNT_HALF).post 7 3 ((1 - f) + d.tick % 2 ^ 32 * 2 ^ 32)

/-- A pending swap is dropped with its refusal code (R439). -/
def Dev.dropSwap (d : Dev) (c : Nat) : Dev :=
  { d.hrtResult c with hrt := { d.hrt with swapPend := false, swapAt := none } }

/-- A trigger of hearth `h` at boundary b (R432, R437). -/
def Dev.actOnTrigger (d : Dev) (h : Nat) : Dev :=
  match (d.hh h).trig with
  | none => d
  | some c =>
    let o := d.hh (1 - h)
    if d.mode ≠ 1 && (o.st == .standby || o.st == .syncing) && o.last.isSome then d.takeover h c else d.hearthDown h c

/-- HRT at boundary b: missed completions, triggers, the phases of a proof swap, split-mode restores (R430 to R442).
The second component says that this boundary is s of a proof swap, so that the active hearth plans nothing. -/
def Dev.hrtBoundary (d : Dev) : Dev × Bool :=
  let d := { d with hrt := { d.hrt with hold := none, role := none } }
  let d := [0, 1].foldl (fun d h => if (d.sh h).planned && !(d.sh h).completed then d.hearthFault h 0 else d) d
  let d := [0, 1].foldl (fun d h =>
    if (if h = 0 then d.hrt.restoreA else d.hrt.restoreB) then d.setState h .run else d) d
  let d := { d with hrt := { d.hrt with restoreA := false, restoreB := false } }
  let d := (d.refresh 0).refresh 1
  let trig := (d.hh 0).trig.isSome || (d.hh 1).trig.isSome
  let d := match d.hrt.proofEnd with
    | some (t, _) => if d.tick > t then { d with hrt := { d.hrt with proofEnd := none } } else d
    | none => d
  if trig then (([0, 1].foldl (fun d h => d.actOnTrigger h) d), false)
  else if d.hrt.swapAt.isSome then
    match d.swapRefusal with
    | none => (d.proofSwap, false)
    | some c => let a := d.hrt.active
                ({ d.dropSwap c with hrt := { (d.dropSwap c).hrt with hold := some a } }, false)
  else if d.hrt.swapPend then
    match d.swapRefusal with
    | none => ({ d with hrt := { d.hrt with swapAt := some d.tick } }, true)
    | some c => (d.dropSwap c, false)
  else (d, false)

/-! ### Commands and events of HRT -/

/-- A request of a proof swap (R439). -/
def Dev.requestSwap (d : Dev) : Dev :=
  match d.swapRefusal with
  | some c => d.hrtResult c
  | none => { d.hrtResult 0 with hrt := { d.hrt with swapPend := true } }

/-- SWAP (R439). -/
def execSwap (h : Agent) (s : State) : Host.Outcome State Fault Refusal :=
  onDev (fun d => d.hostCmd h Reg.HRT_CMD_SWAP [] Dev.requestSwap) s

/-- PROOF_SWAP_REQUEST (R442): HRS hours have passed since the last completed swap or the enable; the request is made when it would not be
refused. -/
def execProofSwapRequest (s : State) : Host.Outcome State Fault Refusal :=
  onDev (fun d =>
    let hrs := d.rd Reg.HRT_PROOF_HRS
    if hrs = 0 ∨ d.tick < d.hrt.lastSwap + hrs * 3600 * 8000 ∨ d.hrt.swapPend ∨ d.swapRefusal.isSome then d else d.requestSwap) s

/-- HRT_CMD.CLRSUSPECT (R441): both flags; each change posts HSTATE (R424). -/
def Dev.clrSuspectGo (d : Dev) : Dev :=
  ([0, 1].foldl (fun d i =>
    if (d.hh i).suspect then (d.setHh i { (d.hh i) with suspect := false }).postState i else d) d).hrtResult 0

/-- CLRSUSPECT (R441). -/
def execClrSuspect (h : Agent) (s : State) : Host.Outcome State Fault Refusal :=
  onDev (fun d => d.hostCmd h Reg.HRT_CMD_CLRSUSPECT [] Dev.clrSuspectGo) s

/-- RAIL_DROP (R431, cause 5). -/
def execRailDrop (h : Hearth) (s : State) : Host.Outcome State Fault Refusal :=
  onDev (fun d => d.hearthFault (hIx h) 5) s

/-- Hearth `h` is ready to be restored (R438). -/
def Dev.restoreReady (d : Dev) (h : Nat) (rail : Bool) : Bool := rail && !(d.ch h).failed && d.mem.resync.isNone

/-- Copy the coefficient banks of the active hearth to hearth `h` (R438, R538). -/
def Dev.copyBanks (d : Dev) (h page n : Nat) : Dev :=
  let m := d.hm h
  d.setHm h { m with gw := copyRange (d.hm (1 - h)).gw (page * 1024) (n * 1024) m.gw (page * 1024) }

/-- RESTORE (R438); `railA`, `railB`: the rails are at or above 0.66 V at the command. -/
def Dev.restoreCmd (d : Dev) (railA railB : Bool) : Dev :=
  let failed := [0, 1].filter fun h => (d.hh h).st == .failed
  let rail := fun (h : Nat) => if h = 0 then railA else railB
  match failed with
  | [] => d.hrtResult 0x14
  | h :: t =>
    if d.mode = 1 then
      let ok := failed.filter fun i => d.restoreReady i (rail i)
      let d := ok.foldl (fun d i =>
        let d := d.setHh i { (d.hh i) with down := none, trig := none }
        if i = 0 then { d with hrt := { d.hrt with restoreA := true } } else { d with hrt := { d.hrt with restoreB := true } }) d
      d.hrtResult (if ok.length = failed.length then 0 else 0x15)
    else if !t.isEmpty then d.hrtResult 0x16
    else if !d.restoreReady h (rail h) then d.hrtResult 0x15
    else
      let d := d.copyBanks h d.bankPage d.banks
      let d := d.setHh h { (d.hh h) with last := none, kept := false, buf0 := none, buf1 := none, down := none, trig := none }
      (((d.setState h .syncing).reloadPairs h 0).pinMessages h).hrtResult 0

/-- RESTORE (R438). -/
def execRestore (h : Agent) (railA railB : Bool) (s : State) : Host.Outcome State Fault Refusal :=
  onDev (fun d => d.hostCmd h Reg.HRT_CMD_RESTORE [] fun d => d.restoreCmd railA railB) s

/-- The states of the hearths at a commit that enables HRT or changes its mode (R423, R424); a hearth that has failed
stays FAILED and the other one becomes ACTIVE. A commit that disables HRT leaves both OFF. -/
def Dev.setRoles (d : Dev) : Dev :=
  let failed := fun (d : Dev) (h : Nat) => (d.hh h).st == .failed || (d.ch h).failed || (d.hh h).down.isSome
  if !d.on Reg.HRT_CFG_ENABLE then (d.setState 0 .off).setState 1 .off
  else if d.mode = 1 then
    [0, 1].foldl (fun d h => d.setState h (if failed d h then .failed else .run)) d
  else
    let p := d.rd Reg.HRT_CFG_PREF
    let a := if failed d p && !failed d (1 - p) then 1 - p else p
    let d := { d with hrt := { d.hrt with active := a, taken := false, lastSwap := d.tick } }
    let d := d.setState a (if failed d a then .failed else .active)
    let o := 1 - a
    let d := if failed d o then d.setState o .failed
      else (d.setHh o { (d.hh o) with last := none, kept := false, buf0 := none, buf1 := none }).setState o .syncing
    (d.setSync a 0).reloadPairs a 0

/-! ### Engine faults (R101, R160) -/

/-- The current run of engine `e` and every later job placed on it end with ENGFAULT, the run with `cyc` cycles counted (R101). -/
def Dev.endPlaced (d : Dev) (e cyc : Nat) : Dev :=
  let h := e / 8
  let g := d.en e
  let at_ := if g.running then g.base + cyc else g.freeAt
  let d := if g.running then d.cutRun e ocOV 0x88 cyc else d
  ((d.sh h).plan.filter fun p => p.eng == e % 8 && !p.ended).foldl
    (fun d p => (d.markEnded h p.job at_).notServed p.job ocOV 0x88) d

/-- An engine fault in cycle `cyc` of the run in progress (R160): FAILED, ENGFAIL, an ash dump, and R101 or a takeover trigger (R431).
A faulted engine of the active hearth runs no further. -/
def Dev.engineFault (d : Dev) (e reason cyc : Nat) : Dev :=
  let h := e / 8
  let g := d.en e
  let cyc := max (g.next - 1) (min cyc (d.jobF g.job).wcet)
  let d := (d.modEn e fun g => { g with st := 2 }).flag (Reg.ENG_STATUS_FAILED e)
  let d := (d.post (20 + h) 3 (e + reason * 2 ^ 8)).capture 6
  if (d.hh h).st = .active then
    let d := if g.running then d.closeRun e cyc else d
    d.hearthFault h 1
  else d.endPlaced e cyc

/-- ENGINE_FAULT (R160). -/
def execEngineFault (e : Eng) (reason : BitVec 8) (cyc : Nat) (s : State) : Host.Outcome State Fault Refusal :=
  onDev (fun d => d.engineFault e reason.toNat cyc) s

/-- ISRAM_UE (R159): found by a fetch, it is a fault of that engine; found by the scrubber, it is reported to HRT. The
reason of ENGFAIL is not stated by the spec for a fetch: it takes a free value. -/
def execIsramUe (h : Hearth) (ix : Nat) (fetch : Option Eng) (s : State) : Host.Outcome State Fault Refusal :=
  onDev (fun d =>
    let d := { d with eng := { d.eng with isBad := (hIx h, ix) :: d.eng.isBad } }
    match fetch with
    | some e =>
      let (d, x) := d.fresh
      d.engineFault e (x.toNat % 2 ^ 8) 0
    | none => if (d.hh (hIx h)).st = .active then d.hearthFault (hIx h) 3 else d) s

/-- ISRAM_REWRITE (R159): the word holds its image's instruction again. -/
def execIsramRewrite (h : Hearth) (ix : Nat) (s : State) : Host.Outcome State Fault Refusal :=
  onDev (fun d => { d with eng := { d.eng with isBad := d.eng.isBad.filter (· != (hIx h, ix)) } }) s

/-! ### Uncorrectable grate errors (R195, R538) -/

/-- The region of a grate page (R193, R537). -/
inductive Region where
  | channel | ember | bank | frame | pool
  deriving DecidableEq, Repr

/-- The region that holds page `p`. -/
def Dev.regionOf (d : Dev) (p : Nat) : Region :=
  if p < 256 then .channel
  else if p < d.bankPage then .ember
  else if p < d.framePage then .bank
  else if p < d.poolPage then .frame
  else if p < 1984 then .pool
  else if p < 1984 + d.alm.plan.sb then .bank
  else if p < 1984 + d.alm.plan.sb + d.alm.plan.sf then .frame
  else .pool

/-- The effect of an error in the standby by its region (R538). -/
def Dev.standbyError (d : Dev) (h page : Nat) : Dev :=
  let x := d.hh h
  match d.regionOf page with
  | .bank => (d.setHh h { x with recopy := true }).refresh h
  | .ember =>
    let i := (page - 256) / max 1 d.embPages
    let d := match d.hrt.copy with
      | some c => if c.dest = h ∧ c.seq % 2 = i then { d with hrt := { d.hrt with copy := some { c with ue := true } } } else d
      | none => d
    let x := if i = 0 then { x with buf0 := none } else { x with buf1 := none }
    let last := if i = 0 then x.buf1 else x.buf0
    let d := d.setHh h { x with last := last }
    let d := match last with
      | some q => d.wr Reg.HRT_ESEQ_SEQ (q % 2 ^ 32)
      | none => d
    d.refresh h
  | .frame =>
    let f := page - d.framePage
    let fr := Sparse.get {} (d.hm h).frames f
    if fr.st = .free then d
    else
      let pinned := fr.pinned && decide (fr.line < 3072)
      if pinned && fr.st != .filling && !(d.ch h).failed then d.loadFrame h h f fr.line fr.page
      else d.setHm h ((d.hm h).setFrame f {})
  | _ => d

/-- GUE (R102, R195, R431, R538): word address `word` of hearth `h`, found by engine `by_` or by the scrubber. -/
def execGue (h : Hearth) (word : Nat) (by_ : Option Eng) (s : State) : Host.Outcome State Fault Refusal :=
  onDev (fun d =>
    let i := hIx h
    let page := word / 1024 % 2048
    let d := if i = 0 then d.count Reg.PGU_GUEA_COUNT Reg.PGU_STATUS_CNT_HALF
      else d.count Reg.PGU_GUEB_COUNT Reg.PGU_STATUS_CNT_HALF
    let d := (d.flag Reg.PGU_STATUS_UE).post 6 6 (i + page * 2)
    let memFault := fun (d : Dev) => match by_ with
      | some e => if e.val / 8 = i ∧ (d.en e).running then d.cutRun e ocOV 0x89 ((d.en e).next - 1) else d
      | none => d
    if (d.hm i).poison.contains (word / 2) then memFault d
    else match (d.hh i).st with
      | .active => d.hearthFault i 2
      | .standby | .syncing => (memFault d).standbyError i page
      | _ => memFault d) s

/-- BANK_RECOPY_DONE (R538). -/
def execBankRecopyDone (h : Hearth) (s : State) : Host.Outcome State Fault Refusal :=
  onDev (fun d =>
    let i := hIx h
    if (d.hh i).recopy then
      let d := (d.copyBanks i d.bankPage d.banks).copyBanks i 1984 d.alm.plan.sb
      (d.setHh i { (d.hh i) with recopy := false }).refresh i
    else d) s

/-- SCRUB (R159, R195): a single-bit error is corrected, by a scrubber or by a read that finds it; both count alike. -/
def execScrub (h : Hearth) (isram : Bool) (word : Nat) (s : State) : Host.Outcome State Fault Refusal :=
  onDev (fun d =>
    let _ := word
    if isram then d.count Reg.ENG_ISRAM_ECC_COUNT (Reg.ENG_STATUS_CNT_HALF 0)
    else if hIx h = 0 then (d.count Reg.PGU_GCEA_COUNT Reg.PGU_STATUS_CNT_HALF).flag Reg.PGU_STATUS_CE
    else (d.count Reg.PGU_GCEB_COUNT Reg.PGU_STATUS_CNT_HALF).flag Reg.PGU_STATUS_CE) s

/-! ### DRAM channel failure (R226) -/

/-- A channel fails with `cause` (R226). -/
def Dev.failChannel (d : Dev) (c cause : Nat) : Dev :=
  if (d.ch c).failed then d else
  let d := d.setCh c { (d.ch c) with failed := true, trained := false }
  let d := ((d.flag Reg.PGU_STATUS_DFAILEV).post 6 1 (c + cause * 2 ^ 8)).capture 5
  d.hearthFault c 4

end Sys2Proof.Machine
end

