-- ==== Sys2Proof/Machine/Loader.lean ====
section
/-! DEFINITION. The loader (spec/04, R140 to R158): the checks of an image, the bound of an entry, placement, and the
loader commands; the self-test of an engine (R161) and WCLR (R163). -/
namespace Sys2Proof.Machine

/-! ### The rules of loadable code (R140) -/

/-- The branch offset of an instruction, if it is a branch. -/
def branchOff : Instr → Option Int
  | .br _ off | .bz _ _ off | .bnz _ _ off | .bpz _ _ off => some off.toInt
  | _ => none

/-- The offset of a CALL. -/
def callOff : Instr → Option Int
  | .call _ off => some off.toInt
  | _ => none

/-- The length of a LOOP's body. -/
def loopLen : Instr → Option Nat
  | .loop _ _ len | .loopReg _ _ _ len => some (len.toNat + 1)
  | _ => none

/-- The sync flag an instruction names (R146). -/
def syncFlag : Instr → Option Nat
  | .signal _ f => some f.val
  | .wait _ _ f _ => some f.val
  | _ => none

/-- The instructions of a code with their indices. -/
def indexed : Nat → List Instr → List (Nat × Instr)
  | _, [] => []
  | n, i :: is => (n, i) :: indexed (n + 1) is

/-- The LOOP bodies of a code as (LOOP's index, last instruction of its body). -/
def bodies (code : List (Nat × Instr)) : List (Nat × Nat) :=
  code.filterMap fun e => (loopLen e.2).map fun l => (e.1, e.1 + l)

/-- Instruction index `t` lies in the body of the LOOP `b`. -/
def inBody (b : Nat × Nat) (t : Int) : Bool := decide ((b.1 : Int) < t) && decide (t ≤ b.2)

/-- The word rules that the instruction at `p` of a code of `n` words breaks (R140, R188, R189). -/
def wordFaults (n : Nat) (bs : List (Nat × Nat)) (p : Nat) (i : Instr) : List Nat :=
  (match branchOff i with
   | some o =>
     let t : Int := p + o
     (if o ≤ 0 then [0x14] else []) ++ (if (n : Int) ≤ t then [0x17] else [])
       ++ (if bs.any fun b => inBody b t && !inBody b p then [0x17] else [])
   | none => []) ++
  (match callOff i with
   | some o => if (p : Int) + o < 0 ∨ (n : Int) ≤ p + o then [0x17] else []
   | none => []) ++
  (match loopLen i with
   | some l => if n ≤ p + l ∨ bs.any (fun b => inBody b p && decide (b.2 < p + l)) then [0x17] else []
   | none => [])

/-! ### Paths and bounds (R140, R141) -/

/-- Two paths join: the later cycle, and per register the longest remaining latency (R141). -/
def EngS.join (a b : EngS) : EngS :=
  let n := max a.next b.next
  let mix := fun (x y : Sparse Nat) => (List.range 64).foldl (fun m r =>
    let rem := max (Sparse.get 0 x r - a.next) (Sparse.get 0 y r - b.next)
    if rem = 0 then m else Sparse.put 0 m r (n + rem)) []
  { a with next := n, ready := mix a.ready b.ready, macReady := mix a.macReady b.macReady }

/-- A path and no path, or two paths, join. -/
def joinOpt : Option EngS → Option EngS → Option EngS
  | some a, some b => some (a.join b)
  | some a, none => some a
  | none, b => b

/-- A subroutine's caller: the index after its CALL is `q + 1`; its loops and the branches waiting in it. -/
structure Caller where
  q : Nat
  loops : List (Nat × Nat × Nat)
  joins : List (Nat × EngS)
  ret : Option EngS
  deriving DecidableEq, Repr

/-- A walk over the paths of an entry: the index, the path that reaches it, the active loops (first, last, iterations
left), the branches waiting for their targets, what returned so far, the callers, the latest end, and the rules broken. -/
structure Walk where
  pc : Nat
  cur : Option EngS := some {}
  loops : List (Nat × Nat × Nat) := []
  joins : List (Nat × EngS) := []
  ret : Option EngS := none
  callers : List Caller := []
  bound : Nat := 0
  faults : List Nat := []
  deriving DecidableEq, Repr

/-- Move past the instruction at `q`, which the path `t` leaves: loops that end there iterate or end (R189). -/
def Walk.pass (w : Walk) (t : Option EngS) : List (Nat × Nat × Nat) → Nat → Walk
  | [], q => { w with cur := t, loops := [], pc := q + 1 }
  | (a, b, n) :: ls, q =>
    if b = q then
      if n > 1 ∧ t.isSome then { w with cur := t, loops := (a, b, n - 1) :: ls, pc := a }
      else w.pass t ls q
    else { w with cur := t, loops := (a, b, n) :: ls, pc := q + 1 }

/-- A path waits for index `t`. -/
def Walk.wait (w : Walk) (t : Nat) (g : EngS) : Walk :=
  match w.joins.find? fun e => e.1 == t with
  | some e => { w with joins := (t, e.2.join g) :: w.joins.filter fun e => e.1 != t }
  | none => { w with joins := (t, g) :: w.joins }

/-- Loop nesting at this point, over every call level (R140). -/
def Walk.depth (w : Walk) : Nat := w.callers.foldl (fun n c => n + c.loops.length) w.loops.length

/-- A LOOP of `n` iterations over the body [pc + 1, pc + len]; `skip`: the path past the body is taken as well. -/
def Walk.loop (w : Walk) (g : EngS) (n len : Nat) (skip : Bool) : Walk :=
  let last := w.pc + len
  if n = 0 then w.pass (some g) w.loops last else
  let w := if w.depth ≥ 3 then { w with faults := 0x15 :: w.faults } else w
  let w := if skip then w.wait (last + 1) g else w
  { w with cur := some g, loops := (w.pc + 1, last, n) :: w.loops, pc := w.pc + 1 }

/-- The effect of the instruction `i` at the walk's index. `once`: each loop body is walked once and each path past a
body whose count a register gives is walked (the path rules); otherwise loops run as R141 says. -/
def Walk.instr (once : Bool) (w : Walk) (g : EngS) (i : Instr) : Walk :=
  let g := g.scoreboard (timing i) (g.issueCycle (timing i))
  match i with
  | .endRun _ => { w.pass none w.loops w.pc with bound := max w.bound (g.next - 1) }
  | .br _ off => (w.wait (w.pc + off.toNat) g).pass none w.loops w.pc
  | .bz _ _ off | .bnz _ _ off | .bpz _ _ off =>
    (w.wait (w.pc + off.toNat) { g with next := g.next + 2 }).pass (some g) w.loops w.pc
  | .loop _ count len => w.loop g (if once then min count.toNat 1 else count.toNat) (len.toNat + 1) false
  | .loopReg _ _ ceil len => w.loop g (if once then 1 else ceil.toNat) (len.toNat + 1) once
  | .call _ off =>
    if w.callers.length ≥ 4 then { w.pass none w.loops w.pc with faults := 0x16 :: w.faults } else
    { w with pc := ((w.pc : Int) + off.toInt).toNat, cur := some g, loops := [], joins := [], ret := none,
             callers := { q := w.pc, loops := w.loops, joins := w.joins, ret := w.ret } :: w.callers }
  | .ret _ =>
    if w.callers.isEmpty then { w.pass none w.loops w.pc with faults := 0x16 :: w.faults }
    else { w with ret := joinOpt w.ret (some g) }.pass none w.loops w.pc
  | .wait _ d _ t =>
    let c := g.next + t.toNat
    ({ w with cur := some { g with next := c, ready := Sparse.put 0 g.ready (rS d) c } }).pass
      (some { g with next := c, ready := Sparse.put 0 g.ready (rS d) c }) w.loops w.pc
  | _ => w.pass (some g) w.loops w.pc

/-- One move of the walk, or `none` when every path has ended. -/
def Walk.move (once : Bool) (code : List Instr) (w : Walk) : Option Walk :=
  let here := (w.joins.find? fun e => e.1 == w.pc).map (·.2)
  let w := { w with cur := joinOpt w.cur here, joins := w.joins.filter fun e => e.1 != w.pc }
  match w.cur with
  | some g =>
    match code[w.pc]? with
    | some i => some (w.instr once g i)
    | none => some { w with cur := none, faults := 0x17 :: w.faults }
  | none =>
    match w.joins with
    | e :: es =>
      let q := es.foldl (fun m x => min m x.1) e.1
      some { w with pc := q, loops := w.loops.dropWhile fun l => decide (l.2.1 < q) }
    | [] =>
      match w.callers with
      | c :: cs =>
        let w := { w with loops := c.loops, joins := c.joins, ret := c.ret, callers := cs }
        some (w.pass w.ret c.loops c.q)
      | [] => none

/-- The walk from its index to its end. A path of more than 131,072 cycles exceeds every declared bound, and ends it. -/
def Walk.run (once : Bool) (code : List Instr) : Nat → Walk → Walk
  | 0, w => w
  | n + 1, w =>
    match w.move once code with
    | none => w
    | some w' =>
      if !once && (w'.cur.elim 0 (·.next)) > 131073 then { w' with bound := 131073 } else w'.run once code n

/-- The largest number of moves a walk takes: four nested calls over 65,536 words, each passed twice. -/
def walkFuel : Nat := 2 ^ 90

/-- The path rules that the paths from entry `start` break (R140). -/
def pathFaults (code : List Instr) (start : Nat) : List Nat := (Walk.run true code walkFuel { pc := start }).faults

/-- The computed bound of the entry `start` (R141). -/
def entryBound (code : List Instr) (start : Nat) : Nat := (Walk.run false code walkFuel { pc := start }).bound

/-! ### The checks of an image (R149 to R153) -/

/-- Bytes of `n` words from `k` on. -/
def wordBytes (rd : Nat → Nat) (k n : Nat) : List Nat := (List.range n).flatMap fun i => leBytes (rd (k + i))

/-- Step 2 of R153: a reserved bit that is not 0. -/
def reservedSet (rd : Nat → Nat) (standing : Bool) : Bool :=
  bits (rd 2) 31 17 != 0 || bits (rd 3) 31 7 != 0 || bits (rd 4) 31 2 != 0 || bits (rd 4) 0 0 != bit standing
    || bits (rd 5) 3 2 != 0 || bits (rd 5) 31 7 != 0 || bits (rd 6) 31 16 != 0
    || (List.range 6).any (fun i => rd (8 + i) != 0)
    || (List.range (min 64 (bits (rd 3) 6 0))).any fun i =>
      let b := 16 + 4 * i
      bits (rd b) 31 17 != 0 || bits (rd (b + 1)) 31 17 != 0 || bits (rd (b + 3)) 31 3 != 0

/-- The entry table (R150). -/
def readEntries (rd : Nat → Nat) (n : Nat) : List EntryRec :=
  (List.range n).map fun i =>
    let b := 16 + 4 * i
    { start := bits (rd b) 16 0, bound := bits (rd (b + 1)) 16 0, dlops := bits (rd (b + 2)) 15 0,
      rate48 := bits (rd (b + 3)) 0 0 == 1, rate96 := bits (rd (b + 3)) 1 1 == 1 }

/-- The decoded code, or `none` where a word is no defined instruction (R167). -/
def decodeAll : List Nat → Option (List Instr)
  | [] => some []
  | w :: ws => match decodeWord 0 w, decodeAll ws with
    | some i, some is => some (i :: is)
    | _, _ => none

/-- The checks of R153 in their order over an image of which `avail` words can be read: the image, or the reason. -/
def checkImage (rd : Nat → Nat) (avail : Nat) (standing : Bool) : Except Nat Image :=
  if rd 0 ≠ 0x51454E47 then .error 0x10
  else if bits (rd 1) 15 0 ≠ 1 then .error 0x11
  else if reservedSet rd standing then .error 0x11
  else
    let n := bits (rd 2) 16 0
    let m := bits (rd 3) 6 0
    if bits (rd 1) 31 16 ≠ 64 ∨ n < 1 ∨ 65536 < n ∨ m < 1 ∨ 64 < m ∨ 4 < bits (rd 5) 6 4 then .error 0x11
    else if avail < 16 + 4 * m + n then .error 0x1F
    else if crc32c (wordBytes (fun i => if i = 15 then 0 else rd i) 0 (16 + 4 * m + n)) ≠ rd 15 then .error 0x12
    else
      let words := (List.range n).map fun i => rd (16 + 4 * m + i)
      match decodeAll words with
      | none => .error 0x13
      | some code =>
        let ix := indexed 0 code
        let es := readEntries rd m
        let inside := es.filter fun e => decide (e.start < n)
        match lowest (ix.flatMap (fun e => wordFaults n (bodies ix) e.1 e.2) ++ inside.flatMap fun e => pathFaults code e.start) with
        | some c => .error c
        | none =>
          if code.any (fun i => (syncFlag i).elim false fun f => bits (rd 6) f f == 0) then .error 0x1E
          else if inside.length < m then .error 0x18
          else if es.any (fun e => decide (e.bound < entryBound code e.start)) then .error 0x19
          else .ok { code := words, entries := es }

/-! ### Placement (R154) -/

/-- The hearths a LOAD writes (R154). -/
def Dev.loadMask (d : Dev) (hmask : Nat) : Nat := if d.mode = 1 then hmask else 3

/-- Word `i` of the program store (R520). -/
def Dev.storeWord (d : Dev) (i : Nat) : Nat := (Sparse.get 0 d.eng.store i).toNat

/-- The image placed in the hearths of `mask`, first fit (R154). -/
def Dev.placeImage (d : Dev) (im : Image) (mask : Nat) : Option Image :=
  let fit := fun h => firstFit 0 114688 im.code.length (d.isramUsed h)
  let a := if mask % 2 = 1 then (fit 0).map some else some none
  let b := if mask / 2 % 2 = 1 then (fit 1).map some else some none
  match a, b with
  | some a, some b => some { im with baseA := a, baseB := b }
  | _, _ => none

/-- Write an image into the instruction SRAM of the hearths that hold it. -/
def Dev.writeIsram (d : Dev) (im : Image) : Dev :=
  let put := fun (m : Sparse Nat) (b : Option Nat) => b.elim m fun b => Sparse.putList 0 m b im.code
  { d with eng := { d.eng with isA := put d.eng.isA im.baseA, isB := put d.eng.isB im.baseB } }

/-! ### The commands (R158) -/

/-- A loader command ends with `reason`, 0 when it succeeds. -/
def Dev.ldResult (d : Dev) (reason : Nat) : Dev :=
  let id := d.rd Reg.ENG_LDCMD_PROG_ID
  let d := (((d.wr Reg.ENG_LDRES_REASON reason).wr Reg.ENG_LDRES_PROG_ID id).wr Reg.ENG_LDRES_REFUSED (bit (reason != 0))).wr
    Reg.ENG_LDRES_VALID 1
  let d := d.flag (Reg.ENG_STATUS_LDDONE 0)
  if reason = 0 then d else d.post 20 6 (id + reason * 2 ^ 16 + d.rd Reg.ENG_LDCMD_OP * 2 ^ 24)

/-- The first test that refuses a LOAD, or the image to write (R158). -/
def Dev.loadTest (d : Dev) (id hmask : Nat) : Except Nat Image :=
  if d.mode = 1 ∧ hmask = 0 then .error 0x01
  else if 0xF00 ≤ id then .error 0x1D
  else if (d.image id).isSome then .error 0x1A
  else if (d.eng.images.filter fun e => !e.2.entries.isEmpty && decide (e.1 < 0xF00)).length ≥ 256 then .error 0x48
  else
    let o := 16 * d.rd Reg.ENG_LDSRC_OFFSET
    match checkImage (fun i => d.storeWord (o + i)) (262144 - o) false with
    | .error c => .error c
    | .ok im => match d.placeImage im (d.loadMask hmask) with
      | some im => .ok im
      | none => .error 0x40

/-- UNLOAD removes the image from every hearth that holds it. -/
def Dev.unloadImage (d : Dev) (id : Nat) : Dev :=
  { d with eng := { d.eng with images := Sparse.erase d.eng.images id } }

/-- QUERY reports the placement. -/
def Dev.queryImage (d : Dev) (im : Image) : Dev :=
  let b := (im.baseA.orElse fun _ => im.baseB).getD 0
  let d := ((d.wr Reg.ENG_LDINFO0_BASE b).wr Reg.ENG_LDINFO0_HMASK (bit im.baseA.isSome + 2 * bit im.baseB.isSome)).wr
    Reg.ENG_LDINFO0_LOADED 1
  ((d.wr Reg.ENG_LDINFO1_CODE_WORDS im.code.length).wr Reg.ENG_LDINFO1_N_ENTRY im.entries.length).wr
    Reg.ENG_LDINFO2_BASEB (im.baseB.getD 0)

/-- The staged loader command runs (R158): a LOAD that passes its tests stays in progress until its write-verify. -/
def Dev.ldRun (d : Dev) : Dev :=
  let id := d.rd Reg.ENG_LDCMD_PROG_ID
  match d.rd Reg.ENG_LDCMD_OP with
  | 0 =>
    match d.loadTest id (d.rd Reg.ENG_LDCMD_HMASK) with
    | .error c => d.ldResult c
    | .ok im => { d.writeIsram im with eng := { (d.writeIsram im).eng with load := some { id := id, image := im } } }
  | 1 =>
    if 0xF00 ≤ id then d.ldResult 0x1D
    else match d.image id with
      | none => d.ldResult 0x1C
      | some _ =>
        if d.sch.jobs.any fun e => e.2.admitted && e.2.progId == id then d.ldResult 0x1B
        else (d.unloadImage id).ldResult 0
  | 2 =>
    if 0xF00 ≤ id then d.ldResult 0x1D
    else match d.image id with
      | none => d.ldResult 0x1C
      | some im => (d.queryImage im).ldResult 0
  | _ => d.ldResult 0x01

/-- A CMD field as the key under which a further execution is queued (R32). -/
def Fld.key (f : Fld) : Nat := 32 * f.addr + f.lo

/-- The command of `f` has completed: the queued one runs, or the field reads 0 (R32). -/
def Dev.cmdNext (d : Dev) (f : Fld) (run : Dev → Dev) : Dev :=
  if d.fab.queued.contains f.key then
    run { d with fab := { d.fab with queued := d.fab.queued.filter (· != f.key) } }
  else d.wr f 0

/-- A CMD field is written 1 (R32): the command runs, or one further execution is queued behind it. -/
def Dev.cmdGo (d : Dev) (f : Fld) (run : Dev → Dev) : Dev :=
  if d.on f then
    if d.fab.queued.contains f.key then d else { d with fab := { d.fab with queued := d.fab.queued ++ [f.key] } }
  else run (d.wr f 1)

/-- The loader runs the staged command, and the field reads 1 while a LOAD is in progress. -/
def Dev.ldStep (d : Dev) : Dev :=
  let d := d.ldRun
  if d.eng.load.isSome then d else d.wr Reg.ENG_LDCMD_GO 0

/-- ENG_LDCMD.GO is written 1. -/
def Dev.ldGo (d : Dev) : Dev := d.cmdGo Reg.ENG_LDCMD_GO Dev.ldStep

/-- The form of the three loader rows: one write of ENG_LDCMD. -/
def ldRow (h : Agent) (op : Nat) (id : BitVec 12) (hmask : BitVec 2) (s : State) : Host.Outcome State Fault Refusal :=
  onDev (fun d => d.hostCmd h Reg.ENG_LDCMD_GO
    [(Reg.ENG_LDCMD_PROG_ID, id.toNat), (Reg.ENG_LDCMD_HMASK, hmask.toNat), (Reg.ENG_LDCMD_OP, op)] Dev.ldGo) s

/-- LOAD (R153, R154, R158). -/
def execLoad (h : Agent) (id : BitVec 12) (hmask : BitVec 2) (s : State) : Host.Outcome State Fault Refusal := ldRow h 0 id hmask s
/-- UNLOAD (R158). -/
def execUnload (h : Agent) (id : BitVec 12) (hmask : BitVec 2) (s : State) : Host.Outcome State Fault Refusal := ldRow h 1 id hmask s
/-- QUERY (R158). -/
def execQuery (h : Agent) (id : BitVec 12) (hmask : BitVec 2) (s : State) : Host.Outcome State Fault Refusal := ldRow h 2 id hmask s

/-- The LOAD in progress ends with `reason`; its PROG_ID is that of the command that ran. -/
def Dev.loadEnd (d : Dev) (r : LoadRec) (reason : Nat) : Dev :=
  let d := { d with eng := { d.eng with load := none } }
  let d := (((d.wr Reg.ENG_LDRES_REASON reason).wr Reg.ENG_LDRES_PROG_ID r.id).wr Reg.ENG_LDRES_REFUSED (bit (reason != 0))).wr
    Reg.ENG_LDRES_VALID 1
  d.flag (Reg.ENG_STATUS_LDDONE 0)

/-- LOADED (R154, R158): the LOAD in progress ends, and the image becomes visible when the write-verify passed. -/
def execLoaded (verify : Bool) (s : State) : Host.Outcome State Fault Refusal :=
  onDev (fun d =>
    match d.eng.load with
    | none => d
    | some r =>
      let d := d.loadEnd r (if verify then 0 else 0x88)
      let d := if verify then
          ({ d with eng := { d.eng with images := Sparse.put {} d.eng.images r.id r.image } }).post 20 5
            (r.id + (bit r.image.baseA.isSome + 2 * bit r.image.baseB.isSome) * 2 ^ 12)
        else d.post 20 6 (r.id + 0x88 * 2 ^ 16)
      d.cmdNext Reg.ENG_LDCMD_GO Dev.ldStep) s

/-- A LOAD in progress at a supervisor restart is abandoned with LDABORT (R156), and so is a queued command. -/
def Dev.ldAbort (d : Dev) : Dev :=
  match d.eng.load with
  | none => d
  | some r =>
    let d := (d.loadEnd r 0x89).post 20 6 (r.id + 0x89 * 2 ^ 16)
    { d.wr Reg.ENG_LDCMD_GO 0 with fab := { d.fab with queued := d.fab.queued.filter (· != Reg.ENG_LDCMD_GO.key) } }

/-! ### Self-test and WCLR (R161, R163) -/

/-- ENG_CMD.RETEST of engine `e` runs: an offline or failed engine goes under retest; any other refuses. -/
def Dev.retestGo (d : Dev) (e : Nat) : Dev :=
  let g := d.en e
  if d.on (Reg.ENG_CMD_RETEST e) then d.cmdGo (Reg.ENG_CMD_RETEST e) id
  else if g.st = 0 then d.wr (Reg.ENG_STATUS_REASON e) 0x20
  else ((d.wr (Reg.ENG_STATUS_REASON e) 0).wr (Reg.ENG_CMD_RETEST e) 1).modEn e fun g => { g with st := 3, wasFailed := g.st == 2 }

/-- RETEST (R161). -/
def execRetest (h : Agent) (e : Eng) (s : State) : Host.Outcome State Fault Refusal :=
  onDev (fun d => d.hostCmd h (Reg.ENG_CMD_RETEST e) [] fun d => d.retestGo e) s

/-- RETEST_DONE (R161): a pass leaves the engine offline or available from the next boundary; a fail leaves it FAILED, which it enters
where it was offline. A queued request then runs. -/
def execRetestDone (e : Eng) (pass : Bool) (s : State) : Host.Outcome State Fault Refusal :=
  onDev (fun d =>
    let g := d.en e
    if !d.on (Reg.ENG_CMD_RETEST e) then d else
    let st := if !pass then 2 else d.rd (Reg.ENG_CFG_OFFLINE e)
    let d := d.modEn e fun g => { g with st := st, wasFailed := false }
    let d := if !pass && g.st == 3 && !g.wasFailed then d.flag (Reg.ENG_STATUS_FAILED e) else d
    let d := (d.flag (Reg.ENG_STATUS_RETEST_DONE e)).post (20 + e / 8) 4 (e.val + bit pass * 2 ^ 8)
    d.cmdNext (Reg.ENG_CMD_RETEST e) fun d => (d.wr (Reg.ENG_CMD_RETEST e) 0).retestGo e) s

/-- ENG_CMD.WCLR (R163). -/
def Dev.wclrGo (d : Dev) (e : Nat) : Dev := d.wr (Reg.ENG_WMAX_CYC e) 0

/-- WCLR (R163). -/
def execWclr (h : Agent) (e : Eng) (s : State) : Host.Outcome State Fault Refusal :=
  onDev (fun d => d.hostCmd h (Reg.ENG_CMD_WCLR e) [] fun d => d.wclrGo e) s

end Sys2Proof.Machine
end

