-- ==== Sys2Proof/Machine/Grate.lean ====
section
/-! DEFINITION. The host window into grate memory, the delay-line commands, page transfers, the message store, and the
DRAM channels (spec/06, R197 to R229). -/
namespace Sys2Proof.Machine

/-! ### The host window (R197, R198) -/

/-- A host write to a memory window: only the owner of writes may make it (R529). -/
def Dev.memWrite (d : Dev) (h : Agent) (addr : Nat) (eff : Dev → Dev) : Dev :=
  let d := d.touch h true 6
  if d.owns h then eff d else d.lockViol h addr 2

/-- Grate page shown at byte `off` of the window. -/
def Dev.winPage (d : Dev) (off : Nat) : Nat := off / 4096 + 1024 * d.rd Reg.PGU_WIN_HALF

/-- A page in which a window write takes effect: a coefficient bank or the tile pool (R198). -/
def Dev.winWritable (d : Dev) (p : Nat) : Bool :=
  (decide (d.bankPage ≤ p) && decide (p < d.framePage)) || (decide (d.poolPage ≤ p) && decide (p < 1984))

/-- Write one word at byte `off` of the window. -/
def Dev.windowWrite (d : Dev) (off : Nat) (x : Word) : Dev :=
  let sel := d.rd Reg.PGU_WIN_HSEL
  if sel = 0 then d
  else
    let p := d.winPage off
    if d.winWritable p then
      let key := p * 1024 + off % 4096 / 4
      [0, 1].foldl (fun d h =>
        if sel / 2 ^ h % 2 = 1 then
          let m := (d.hm h).setWord key x
          d.setHm h { m with poison := m.poison.filter (· != key / 2) }
        else d) d
    else (d.count Reg.PGU_WINVCNT_COUNT Reg.PGU_STATUS_CNT_HALF).flag Reg.PGU_STATUS_WINVIOL

/-- What a read at byte `off` of the window returns (R197). The places of the tiles in the channel area are not stated:
a free value. -/
def Dev.windowRead (d : Dev) (off : Nat) : Dev × Word :=
  let sel := d.rd Reg.PGU_WIN_HSEL
  if sel = 0 then (d, 0)
  else
    let p := d.winPage off
    if p < 256 then d.fresh
    else (d, (d.hm (if sel % 2 = 1 then 0 else 1)).word (p * 1024 + off % 4096 / 4))

/-- WINDOW_WRITE (R197, R198). -/
def execWindowWrite (h : Agent) (off : Fin 0x400000) (data : Word) (s : State) : Host.Outcome State Fault Refusal :=
  onDev (fun d => d.memWrite h (0x400000 + off.val) fun d => d.windowWrite off.val data) s

/-! ### Delay-line commands (R203, R204) -/

/-- The line that PGU_DLSTAGE0 to 2 describe, at DRAM page `base`. -/
def Dev.stagedLine (d : Dev) (base : Nat) : Line :=
  let slew := d.rd Reg.PGU_DLSTAGE0_SLEW_MAX
  let span := d.rd Reg.PGU_DLSTAGE2_TAPSPAN
  let tap := d.rd Reg.PGU_DLSTAGE1_TAP0
  { npages := d.rd Reg.PGU_DLSTAGE0_NPAGES, prot := d.on Reg.PGU_DLSTAGE0_PROT, hearth := d.rd Reg.PGU_DLSTAGE0_HEARTH,
    slew := slew, tap0 := tap, span := span, base := base, fr := frOf span slew }

/-- The staged fields lie in their ranges. -/
def Line.inRange (x : Line) : Bool :=
  decide (1 ≤ x.npages) && decide (x.npages ≤ 188) && decide (x.tap0 < 1024 * x.npages)
    && decide (8 ≤ x.span) && decide (x.span ≤ 1024 * x.npages)

/-- First fit in the delay region over the channels that the line's hearths name (R203). -/
def Dev.findDram (d : Dev) (x : Line) : Option Nat :=
  let hs := d.lineHearths x
  let used := (d.mem.lines.filter fun e => (d.lineHearths e.2).any hs.contains).map fun e => (e.2.base, e.2.npages)
  firstFit 0 (256 * d.rd Reg.PGU_REGION_DL_MIB) x.npages used

/-- The reasons that refuse DEFINE; the lowest is reported. -/
def Dev.defineFails (d : Dev) (l : Nat) : List Nat :=
  let x := d.stagedLine 0
  (if l < 3072 ∧ x.inRange then [] else [0x01]) ++
  (if d.on Reg.ALC_CFG_ENABLE then [] else [0x03]) ++
  (if (d.line l).isSome then [0x13] else []) ++
  (if x.prot ∧ d.mode = 1 then [0x1A] else []) ++
  (if (d.lineHearths x).all fun h => decide (x.fr ≤ d.framesFree h) then [] else [0x48]) ++
  (if (d.findDram x).isSome then [] else [0x49])

/-- DEFINE takes effect: the pages are zeroed in every channel that holds them, the frames are reserved, and S is [TAP0, TAP0]
(R203, R204). A failed channel carries no transfer (R226). -/
def Dev.defineLine (d : Dev) (l base : Nat) : Dev :=
  let x := d.stagedLine base
  let d := { d with mem := { d.mem with lines := d.mem.lines ++ [(l, x)] } }
  let hs := d.lineHearths x
  let d := hs.foldl (fun d c =>
    if (d.ch c).failed then d else
    d.setCh c { (d.ch c) with
      words := clearRange (d.ch c).words (d.dramKey x 0) (1024 * x.npages),
      bad := (d.ch c).bad.filter fun w => !(decide (d.dramKey x 0 / 2 ≤ w) && decide (w < d.dramKey x 0 / 2 + 512 * x.npages)) }) d
  let tap : Taps := { smin := x.tap0, smax := x.tap0, omin := x.tap0, omax := x.tap0 }
  let d := hs.foldl (fun (d : Dev) h => d.setHm h { (d.hm h) with taps := Sparse.put {} (d.hm h).taps l tap }) d
  hs.foldl (fun d h => d.pinPair l h x) d

/-- The frames, transfers, pending writes and taps of line `l` in a hearth are dropped. -/
def HMem.dropLine (m : HMem) (l : Nat) : HMem :=
  { m with
    frames := m.frames.filter fun e => e.2.line != l,
    inflight := m.inflight.filter (·.line != l), queue := m.queue.filter (·.line != l),
    around := m.around.filter (·.line != l), prefetch := m.prefetch.filter (·.1 != l),
    held := m.held.filter (·.line != l), alt := m.alt.filter (·.1 != l), waiting := m.waiting.filter (·.1 != l),
    taps := m.taps.filter (·.1 != l) }.pump

/-- The reasons that refuse FREE. -/
def Dev.freeFails (d : Dev) (l : Nat) : List Nat :=
  (if l < 3072 then [] else [0x01]) ++
  (if d.on Reg.ALC_CFG_ENABLE then [] else [0x03]) ++
  (if (d.line l).isSome then [] else [0x14]) ++
  (if d.sch.jobs.any fun e => e.2.admitted && e.2.namesLine l then [0x15] else [])

/-- The reasons that refuse READ. -/
def Dev.dlReadFails (d : Dev) (l : Nat) : List Nat :=
  (if l < 3072 then [] else [0x01]) ++
  (if d.on Reg.ALC_CFG_ENABLE then [] else [0x03]) ++
  (if (d.line l).isSome then [] else [0x14])

/-- READ copies the line's entry into PGU_DLREAD0 to 3 (R203). -/
def Dev.showLine (d : Dev) (l : Nat) : Dev :=
  match d.line l with
  | none => d
  | some x =>
    let d := d.wr Reg.PGU_DLREAD0 (x.npages + bit x.prot * 2 ^ 8 + x.hearth * 2 ^ 9 + x.slew * 2 ^ 16)
    let d := (d.wr Reg.PGU_DLREAD1_TAP0 x.tap0).wr Reg.PGU_DLREAD2_TAPSPAN x.span
    (d.wr Reg.PGU_DLREAD3_BASE (d.delayBase / 1024 + x.base)).wr Reg.PGU_DLREAD3_FR (x.fr - 4)

/-- The staged delay-line command runs: its reason, and the device. -/
def Dev.dlRun (d : Dev) (op l : Nat) : Nat × Dev :=
  match op with
  | 0 => match lowest (d.dlReadFails l) with
    | some c => (c, d)
    | none => (0, d.showLine l)
  | 1 => match lowest (d.defineFails l), d.findDram (d.stagedLine 0) with
    | none, some b => (0, d.defineLine l b)
    | some c, _ => (c, d)
    | none, none => (0x49, d)
  | 2 => match lowest (d.freeFails l) with
    | some c => (c, d)
    | none =>
      let d := { d with mem := { d.mem with lines := d.mem.lines.filter fun e => e.1 != l } }
      (0, (((d.setHm 0 ((d.hm 0).dropLine l)).setHm 1 ((d.hm 1).dropLine l)).pageRetry 0).pageRetry 1)
  | _ => (0x01, d)

/-- PGU_DLCMD.GO is written 1 (R203). -/
def Dev.dlGo (d : Dev) : Dev :=
  let l := d.rd Reg.PGU_DLCMD_LINE
  let (c, d) := d.dlRun (d.rd Reg.PGU_DLCMD_OP) l
  let d := ((d.wr Reg.PGU_DLRES_REASON c).wr Reg.PGU_DLRES_LINE l).wr Reg.PGU_DLRES_REFUSED (bit (c != 0))
  (d.wr Reg.PGU_DLRES_VALID 1).flag Reg.PGU_STATUS_DLDONE

/-- The form of the three delay-line rows: one write of PGU_DLCMD. -/
def dlRow (h : Agent) (op : Nat) (line : BitVec 12) (s : State) : Host.Outcome State Fault Refusal :=
  onDev (fun d => d.hostCmd h Reg.PGU_DLCMD_GO [(Reg.PGU_DLCMD_LINE, line.toNat), (Reg.PGU_DLCMD_OP, op)] Dev.dlGo) s

/-- DL_READ (R203). -/
def execDlRead (h : Agent) (line : BitVec 12) (s : State) : Host.Outcome State Fault Refusal := dlRow h 0 line s
/-- DEFINE (R203). -/
def execDefineLine (h : Agent) (line : BitVec 12) (s : State) : Host.Outcome State Fault Refusal := dlRow h 1 line s
/-- FREE (R203). -/
def execFreeLine (h : Agent) (line : BitVec 12) (s : State) : Host.Outcome State Fault Refusal := dlRow h 2 line s

/-! ### Page transfers (R206, R210, R224) -/

/-- Corrected DRAM errors of channel `c` (R224). -/
def Dev.countCe (d : Dev) (c n : Nat) : Dev :=
  if n = 0 then d
  else if c = 0 then (d.count Reg.PGU_DCE0_COUNT Reg.PGU_STATUS_CNT_HALF n).flag Reg.PGU_STATUS_CE
  else (d.count Reg.PGU_DCE1_COUNT Reg.PGU_STATUS_CNT_HALF n).flag Reg.PGU_STATUS_CE

/-- A transfer in flight can complete: it is there, nothing issued before it on its page is outstanding (R212), and its channel works
(R226), or the other one where the page is read again from that (R224). -/
def Dev.completes (d : Dev) (h line page : Nat) (write : Bool) : Option Xfer :=
  let m := d.hm h
  match m.flying line page write with
  | none => none
  | some x =>
    let c := if !write && m.alt.contains (line, page) then 1 - h else h
    if (d.ch c).failed || m.behind line page x.seq then none else some x

/-- PAGE_READ_DONE (R206, R210): the frame becomes RESIDENT, and each run of the hearth that waited for the page goes on. -/
def execPageReadDone (h : Hearth) (line page cycles ce : Nat) (s : State) : Host.Outcome State Fault Refusal :=
  onDev (fun d =>
    let i := hIx h
    match d.completes i line page false with
    | none => d
    | some x =>
      let d := (d.countCe i ce).fill i x
      let d := (List.range 8).foldl (fun d k =>
        match (d.en (8 * i + k)).miss with
        | some m => if m.line = line ∧ m.page = page then d.resumeMiss (8 * i + k) cycles else d
        | none => d) d
      d.pageRetry i) s

/-- PAGE_WRITE_DONE (R206, R213): the page is in DRAM, and the frame RESIDENT unless it was written again. -/
def execPageWriteDone (h : Hearth) (line page : Nat) (s : State) : Host.Outcome State Fault Refusal :=
  onDev (fun d =>
    let i := hIx h
    match d.completes i line page true with
    | none => d
    | some x =>
      let d := match (d.hm i).frameOf line page with
        | some (f, fr) =>
          let d := d.writeBack i f line page
          if fr.st = FrameSt.writeback then d.setHm i ((d.hm i).setFrame f { fr with st := .resident }) else d
        | none => d
      (d.setHm i ((d.hm i).xferDone x)).pageRetry i) s

/-- WRITE_AROUND_DONE (R211). -/
def execWriteAroundDone (h : Hearth) (s : State) : Host.Outcome State Fault Refusal := onDev (fun d => d.aroundDone (hIx h)) s

/-! ### The message store (R216 to R221) -/

/-- Word `i` of an image held as bytes. -/
def imageWord (b : List Byte) (i : Nat) : Nat :=
  let x := fun k => (b.getD (4 * i + k) 0).toNat
  x 0 + x 1 * 2 ^ 8 + x 2 * 2 ^ 16 + x 3 * 2 ^ 24

/-- The directory of an image (R217). -/
def readDirectory (b : List Byte) (n : Nat) : List Msg :=
  (List.range n).map fun i =>
    let w := fun k => imageWord b (1024 + 4 * i + k)
    { first := bits (w 0) 16 0, length := w 1, rate := bits (w 2) 0 0, pin := bits (w 2) 1 1 == 1 }

/-- The pages of a message as a run. -/
def Msg.run (m : Msg) : Nat × Nat := (m.first, (m.length + 1023) / 1024)

/-- No two runs of the list share an element. -/
def disjointRuns : List (Nat × Nat) → Bool
  | [] => true
  | r :: rs => rs.all (fun x => !runsMeet r x) && disjointRuns rs

/-- The size in bytes of an image of `pages` message pages (R216). -/
def imageSize (pages : Nat) : Nat := 0x5000 + 3072 * pages

/-- The image is valid by R219, its size apart. -/
def msgImageOk (b : List Byte) : Bool :=
  let n := bits (imageWord b 2) 10 0
  let pages := bits (imageWord b 3) 16 0
  let ms := readDirectory b n
  imageWord b 0 == 0x51454D53 && bits (imageWord b 1) 15 0 == 1 && decide (n ≤ 1024) && decide (pages ≤ 87374)
    && decide (imageSize pages ≤ b.length)
    && crc32c (((b.drop 0x1000).take (imageSize pages - 0x1000)).map (·.toNat)) == imageWord b 15
    && (ms.all fun m => decide (1 ≤ m.length) && decide (m.length ≤ 2 ^ 26) && decide (m.run.1 + m.run.2 ≤ pages))
    && disjointRuns (ms.map Msg.run)

/-- The store is not loaded: its frames and voice slots are free. -/
def Dev.unloadMessages (d : Dev) : Dev :=
  let keep := fun (l : Nat) => decide (l < 3072)
  let drop := fun (m : HMem) =>
    { m with frames := m.frames.filter (fun e => keep e.2.line), voices := [], voiceReq := [],
             inflight := m.inflight.filter (keep ·.line), queue := m.queue.filter (keep ·.line), held := m.held.filter (keep ·.line),
             prefetch := m.prefetch.filter (keep ·.1), alt := m.alt.filter (keep ·.1), waiting := m.waiting.filter (keep ·.1),
             taps := m.taps.filter (keep ·.1) }.pump
  let d := (d.setHm 0 (drop (d.hm 0))).setHm 1 (drop (d.hm 1))
  { d with mem := { d.mem with msgs := [], msgPages := 0, msgValid := false } }

/-- The bytes of the image stand in the message region of both channels (R216). -/
def Dev.copyMessages (d : Dev) (b : List Byte) : Dev :=
  let n := (b.length + 3) / 4
  let ws := (List.range n).map fun i => BitVec.ofNat 32 (imageWord b i)
  [0, 1].foldl (fun d c =>
    if (d.ch c).failed then d else
    d.setCh c { (d.ch c) with words := Sparse.putList 0 (clearRange (d.ch c).words 0 n) 0 ws,
                              bad := (d.ch c).bad.filter fun w => decide (n ≤ 2 * w) }) d

/-- Load the store from the image that the boot flash returned, into a region of `region` bytes (R219): the reason. -/
def Dev.loadMessages (d : Dev) (b : List Byte) (region : Nat) : Nat × Dev :=
  let d := d.unloadMessages
  let pages := bits (imageWord b 3) 16 0
  if !msgImageOk b ∨ imageSize pages > 2 ^ 28 ∨ imageSize pages > region then (0x18, d)
  else
    let ms := readDirectory b (bits (imageWord b 2) 10 0)
    let need := 192 + (ms.filter (·.pin)).length
    if d.framesFree 0 < need ∨ d.framesFree 1 < need then (0x48, d)
    else
      let d := d.copyMessages (b.take (imageSize pages))
      let d := { d with mem := { d.mem with msgs := ms, msgPages := pages, msgValid := true } }
      (0, (d.pinMessages 0).pinMessages 1)

/-- Post MSGLOAD with its reason (R228). -/
def Dev.postMsgLoad (d : Dev) (c : Nat) : Dev := d.post 6 4 (d.mem.msgs.length + c * 2 ^ 16)

/-- PGU_CMD.MSG_RELOAD runs: refused while a message line is named, and otherwise the copy from flash begins (R221). -/
def Dev.reloadStep (d : Dev) : Dev :=
  if d.sch.jobs.any fun e => e.2.admitted && decide (e.2.dlCount > 0) && decide (3072 < e.2.dlFirst + e.2.dlCount) then
    (d.wr Reg.PGU_CMD_MSG_RELOAD 0).postMsgLoad 0x17
  else { d with mem := { d.mem with reloading := true } }

/-- PGU_CMD.MSG_RELOAD is written 1. -/
def Dev.reloadGo (d : Dev) : Dev := d.cmdGo Reg.PGU_CMD_MSG_RELOAD Dev.reloadStep

/-- MSG_RELOAD (R221). -/
def execMsgReload (h : Agent) (s : State) : Host.Outcome State Fault Refusal :=
  onDev (fun d => d.hostCmd h Reg.PGU_CMD_MSG_RELOAD [] Dev.reloadGo) s

/-- The message store image as the boot flash holds it (R216, R221, R476). -/
def messageImage (v : NV) (b : Boot) : List Byte := (List.range b.msgLen).map fun i => Sparse.get 0xFF v.flash (b.msgBase + i)

/-- The load from flash ends. -/
def reloadDone (x : NV × Dev) : NV × Dev :=
  let d := x.2
  if d.mem.reloading then
    let (c, d) := d.loadMessages (messageImage x.1 d.boot) (d.rd Reg.PGU_REGION_MSG_MIB * 2 ^ 20)
    let d := ({ d with mem := { d.mem with reloading := false } }).postMsgLoad c
    (x.1, d.cmdNext Reg.PGU_CMD_MSG_RELOAD Dev.reloadStep)
  else x

/-- MSGLOAD (R219, R221). -/
def execMsgLoad (s : State) : Host.Outcome State Fault Refusal := onBoth reloadDone s

/-! ### DRAM (R224 to R227) -/

/-- Line and page whose DRAM page holds 64-bit word `w`, among the pages being read into hearth `c` (R224). -/
def Dev.readingWord (d : Dev) (c w : Nat) : List (Nat × Nat) :=
  ((d.hm c).inflight.filter fun x => !x.write && !(d.poisonOf x.line x.page 0 w).isEmpty).map fun x => (x.line, x.page)

/-- The page of the line exists at the same place in the other channel too: a protected line or the message store. -/
def Dev.doubled (d : Dev) (l : Nat) : Bool := decide (l ≥ 3072) || (d.line l).elim false (·.prot)

/-- DUE (R224, R226): an uncorrectable error at 64-bit word `w` of channel `c`. -/
def execDue (ch : Chan) (word : Nat) (second : Bool) (s : State) : Host.Outcome State Fault Refusal :=
  onDev (fun d =>
    let c := ch.val
    let d := if c = 0 then d.count Reg.PGU_DUE0_COUNT Reg.PGU_STATUS_CNT_HALF
      else d.count Reg.PGU_DUE1_COUNT Reg.PGU_STATUS_CNT_HALF
    let pages := d.readingWord c word
    let ok := !second && !(d.ch (1 - c)).failed && !pages.isEmpty && pages.all fun x => d.doubled x.1
    let d := (d.flag Reg.PGU_STATUS_UE).post 6 2 (c + bit ok * 2 ^ 8 + word / 8 % 2 ^ 32 * 2 ^ 16)
    let d := if ok then
        let m := d.hm c
        d.setHm c { m with alt := m.alt ++ pages.filter fun x => !m.alt.contains x }
      else d.setCh c { (d.ch c) with bad := if (d.ch c).bad.contains word then (d.ch c).bad else (d.ch c).bad ++ [word] }
    let ues := ((d.ch c).ues ++ [d.tick]).filter fun t => decide (d.tick < t + 8000)
    let d := d.setCh c { (d.ch c) with ues := ues }
    if ues.length ≥ d.rd Reg.PGU_DFAIL_CFG_UE_LIMIT then d.failChannel c 3 else d) s

/-- A maintenance step of DRAM channel `c` that runs every 16 ms, last at tick `t`, is due: it runs in the close window, on a channel that
works and is not in self-refresh (R225, R226, R486). -/
def Dev.dramDue (d : Dev) (c t : Nat) : Bool :=
  d.sch.win == .close && (d.ch c).trained && !(d.ch c).failed && !d.stopped 6 && decide (t + 128 ≤ d.tick)

/-- ZQ_CAL (R225): the calibration of a channel changes no state that the block holds. -/
def execZqCal (ch : Chan) (s : State) : Host.Outcome State Fault Refusal :=
  onDev (fun d => let _ := ch; d) s

/-- DQS_TRACK (R225, R226): a failed tracking step fails the channel. -/
def execDqsTrack (ch : Chan) (ok : Bool) (s : State) : Host.Outcome State Fault Refusal :=
  onDev (fun d =>
    let c := ch.val
    if !d.dramDue c (d.ch c).dqsAt then d else
    let d := d.setCh c { (d.ch c) with dqsAt := d.tick }
    if ok then d else d.failChannel c 2) s

/-- MR4_READ (R225, R226): the refresh-rate code of a working channel; 0b111 fails it. -/
def execMr4Read (ch : Chan) (rate : BitVec 3) (s : State) : Host.Outcome State Fault Refusal :=
  onDev (fun d =>
    let c := ch.val
    if !d.dramDue c (d.ch c).mr4At then d else
    let d := d.setCh c { (d.ch c) with mr4At := d.tick }
    let d := d.wr (if ch.val = 0 then Reg.PGU_MR4_REF0 else Reg.PGU_MR4_REF1) rate.toNat
    if rate.toNat = 7 then d.failChannel ch.val 0 else d) s

/-- DRAM_CMD_TIMEOUT (R226). -/
def execDramCmdTimeout (ch : Chan) (s : State) : Host.Outcome State Fault Refusal :=
  onDev (fun d => d.failChannel ch.val 1) s

/-- The RETRAIN command of a channel. -/
def retrainFld (c : Nat) : Fld := if c = 0 then Reg.PGU_CMD_RETRAIN0 else Reg.PGU_CMD_RETRAIN1

/-- PGU_CMD.RETRAINx runs: refused for the channel of a hearth that plans jobs (R227). -/
def Dev.retrainStep (d : Dev) (c : Nat) : Dev :=
  if d.canPlan c then (d.wr (retrainFld c) 0).post 6 5 (c + 0x1B * 2 ^ 16)
  else { d with mem := { d.mem with retraining := d.mem.retraining ++ [c] } }

/-- PGU_CMD.RETRAINx is written 1. -/
def Dev.retrainGo (d : Dev) (c : Nat) : Dev := d.cmdGo (retrainFld c) fun d => d.retrainStep c

/-- RETRAIN (R227). -/
def execRetrain (h : Agent) (ch : Chan) (s : State) : Host.Outcome State Fault Refusal :=
  onDev (fun d => d.hostCmd h (retrainFld ch.val) [] fun d => d.retrainGo ch.val) s

/-- RETRAIN_DONE (R226, R227): a pass brings the channel back and the copy from the other channel begins. -/
def execRetrainDone (ch : Chan) (pass : Bool) (s : State) : Host.Outcome State Fault Refusal :=
  onDev (fun d =>
    let c := ch.val
    if d.mem.retraining.contains c then
      let d := { d with mem := { d.mem with retraining := d.mem.retraining.filter (· != c) } }
      let d := if pass then
          let d := d.setCh c { (d.ch c) with failed := false, trained := true, ues := [], bad := [] }
          (({ d with mem := { d.mem with resync := some c } }).post 6 5 (c + 2 ^ 8)).refresh c
        else (d.post 6 5 (c + 0x88 * 2 ^ 16)).failChannel c 2
      d.cmdNext (retrainFld c) fun d => d.retrainStep c
    else d) s

/-- RESYNC_DONE (R227): protected lines and the message store stand in the retrained channel again. -/
def execResyncDone (s : State) : Host.Outcome State Fault Refusal :=
  onDev (fun d =>
    match d.mem.resync with
    | none => d
    | some c =>
      if (d.ch 0).failed || (d.ch 1).failed then d else
      let src := (d.ch (1 - c)).words
      let ws := copyRange src 0 (if d.mem.msgValid then (imageSize d.mem.msgPages + 3) / 4 else 0) (d.ch c).words 0
      let ws := d.mem.lines.foldl (fun ws e =>
        if e.2.prot then copyRange src (d.dramKey e.2 0) (1024 * e.2.npages) ws (d.dramKey e.2 0) else ws) ws
      let d := d.setCh c { (d.ch c) with words := ws }
      ({ d with mem := { d.mem with resync := none } }).refresh c) s

end Sys2Proof.Machine
end

