-- ==== Sys2Proof/Machine/Select.lean ====
section
/-! DEFINITION. The candidates of reference selection, their states and the evaluation of the selection (spec/11). -/
namespace Sys2Proof.Machine

/-- `x / k` as an integer; where it is not exact the spec states no rounding (`what` names the quantity). -/
def quot (what : Nat) (x : Int) (k : Nat) : Int :=
  if x % k = 0 then x / k else if Config.quotUp what x k then x / k + 1 else x / k

/-- A value saturated to 32 bits, signed. -/
def sat32 (x : Int) : Nat := uint 32 (max (-(2 ^ 31)) (min x (2 ^ 31 - 1)))

def sumOf (l : List Int) : Int := l.foldl (· + ·) 0


def Dev.pport (d : Dev) (n : Nat) : PtpPort := if n = 0 then d.ptp.a else d.ptp.b
def Dev.setPport (d : Dev) (n : Nat) (x : PtpPort) : Dev :=
  if n = 0 then { d with ptp := { d.ptp with a := x } } else { d with ptp := { d.ptp with b := x } }


/-- PTP port `n` runs. -/
def Dev.ptpOn (d : Dev) (n : Nat) : Bool := d.on Reg.PTP_CFG_ENABLE && d.on (Reg.PTP_PCFG_ENABLE n)

def Dev.cand (d : Dev) (k : Nat) : Cand := Sparse.get {} d.ref.cands k
def Dev.setCand (d : Dev) (k : Nat) (c : Cand) : Dev := { d with ref := { d.ref with cands := Sparse.put {} d.ref.cands k c } }
def Dev.refSel (d : Dev) : Nat := d.rd Reg.REF_STATUS_SEL
def Dev.refState (d : Dev) : Nat := d.rd Reg.REF_STATUS_STATE
def Dev.candState (d : Dev) (k : Nat) : Nat := d.rd (Reg.REF_CSTAT_STATE k)

/-! ### Quality codes (R348 to R350) -/

/-- The code of an Announce message's quality (R348). -/
def announceCode (cls acc : Nat) : Nat :=
  if cls = 6 then (if acc = 0x20 ∨ acc = 0x21 then 0x10 else 0x12)
  else if [7, 13, 14].contains cls then 0x20
  else if [52, 58, 187, 193].contains cls then 0x40
  else if cls = 248 then 0x60
  else if cls = 255 then 0xFF
  else 0x64

/-- The code of an SSM code by network option (R349). -/
def ssmCode (option2 : Bool) (ssm : Nat) : Nat :=
  if option2 then
    match ssm with
    | 0x1 => 0x14 | 0x0 => 0x2C | 0x7 => 0x30 | 0x4 => 0x50 | 0xD => 0x58 | 0xA => 0x70 | 0xE => 0x78 | _ => 0xFF
  else
    match ssm with
    | 0x2 => 0x14 | 0x4 => 0x30 | 0x8 => 0x50 | 0xB => 0x70 | _ => 0xFF

/-- The quality code of candidate `k` (R348 to R350). -/
def Dev.qcodeOf (d : Dev) (k : Nat) : Nat :=
  if k = 6 then (if d.on Reg.REF_STATUS_OCXO_WARM then 0xE0 else 0xF0)
  else if 4 ≤ k ∨ d.on (Reg.REF_CAND_USEFIX k) then d.rd (Reg.REF_CAND_QFIX k)
  else if k < 2 then (d.cand k).qcode.toNat
  else if (d.cand k).heard.isNone then 0xFF
  else ssmCode (d.on Reg.REF_CFG_SSMOPT) (d.rd (Reg.REF_CSTAT_SSM k))

/-- Candidate `k` is eligible (R351); in P4 REF is in holdover (R486). -/
def Dev.eligible (d : Dev) (k : Nat) : Bool :=
  d.candState k == 3 && d.qcodeOf k != 0xFF && (k == 6 || d.rd Reg.PWR_STATUS_STATE != 4)
    && (decide (2 ≤ k) || !d.on (Reg.PTP_PSTAT_HOLD k) || d.refSel == k)

/-- QCODE and ELIG of every candidate are shown. -/
def Dev.showCands (d : Dev) : Dev :=
  (List.range 7).foldl (fun d k =>
    (d.wr (Reg.REF_CSTAT_QCODE k) (d.qcodeOf k)).wr (Reg.REF_CSTAT_ELIG k) (bit (d.eligible k))) d

/-- Candidate `a` is better than `b` (R352). -/
def Dev.better (d : Dev) (a b : Nat) : Bool :=
  let pa := d.rd (Reg.REF_CAND_PRIO a)
  let pb := d.rd (Reg.REF_CAND_PRIO b)
  if d.on Reg.REF_CFG_QLMODE && d.qcodeOf a != d.qcodeOf b then decide (d.qcodeOf a < d.qcodeOf b)
  else if pa ≠ pb then decide (pa < pb)
  else decide (a < b)

/-- The best eligible candidate, 7 for none (R352). -/
def Dev.bestCand (d : Dev) : Nat :=
  (List.range 7).foldl (fun b k => if d.eligible k && (b == 7 || d.better k b) then k else b) 7

/-! ### Candidate states (R347) -/

/-- Candidate `k` takes state `st`; a change is posted, and an entry into SOFT_DISQ or HARD_DISQ is counted. -/
def Dev.toCand (d : Dev) (k st : Nat) : Dev :=
  if d.candState k = st then d else
  let d := d.setCand k { d.cand k with good := none, soft := none }
  let d := (d.wr (Reg.REF_CSTAT_STATE k) st).flag Reg.REF_STATUS_QUALEV
  let d := if st = 4 ∨ st = 5 then d.count (Reg.REF_DISQ_COUNT k) Reg.REF_STATUS_CNT_HALF else d
  d.post 16 3 (k + st * 2 ^ 8 + d.qcodeOf k * 2 ^ 16)

/-- The lost condition of candidate `k` holds (R345). A PTP port also completes no exchange while it does not run, and in P4 (R369,
R486). -/
def Dev.candIsLost (d : Dev) (k : Nat) : Bool :=
  if k < 2 then
    d.rd (Reg.PTP_PSTAT_STATE k) != 3 || !d.ptpOn k || d.rd Reg.PWR_STATUS_STATE == 4
      || (d.pport k).lastTick.all fun t => decide (t + 8000 ≤ d.tick)
  else if k < 4 then !d.on (Reg.MAC_STATUS_LINK (k - 2))
  else if k < 6 then (d.cand k).lost
  else !d.on Reg.REF_STATUS_OSCIN_OK

/-- The state of a candidate that has just been enabled, or whose lost condition has just changed. -/
def Dev.candFresh (d : Dev) (k : Nat) : Nat :=
  if d.rd (Reg.REF_CAND_PRIO k) = 0 then 0
  else if d.candIsLost k then 1
  else if k = 6 then 3 else 2

/-- An estimate `f` of candidate `k`, in 0.01 ppb (R347). -/
def Dev.judgeCand (d : Dev) (k : Nat) (f : Int) : Dev :=
  let st := d.candState k
  let c := d.cand k
  let soft := 100 * d.rd Reg.REF_LIMITS_SOFT
  let hard := 100 * d.rd Reg.REF_LIMITS_HARD
  if st < 2 then d
  else if f.natAbs > hard then (d.setCand k { c with good := none }).toCand k 5
  else if st = 3 then
    if f.natAbs > soft then
      let since := c.soft.getD d.tick
      if d.tick ≥ since + 8000 * d.rd Reg.REF_TIMES_SOFT_TIME then d.toCand k 4
      else d.setCand k { c with soft := some since }
    else d.setCand k { c with soft := none }
  else if f.natAbs ≤ 200000 then
    let since := c.good.getD d.tick
    if d.tick ≥ since + 80000 then d.toCand k 3 else d.setCand k { c with good := some since }
  else d.setCand k { c with good := none }

/-! ### Selection (R352, R353, R355) -/

/-- The hold value when a forced switch leaves the selected candidate (R360). -/
def Dev.holdValue (d : Dev) : Dev :=
  let stop := d.tick - 8000 * (d.rd Reg.REF_TIMES_SOFT_TIME + 2)
  let len := 8000 * d.rd Reg.REF_HO_AVG
  let start := stop - len
  let fs := (d.ref.hist.filter fun e => decide (start ≤ e.1) && decide (e.1 ≤ stop)).map (·.2)
  let long := decide (d.tick ≥ 8000 * (d.rd Reg.REF_TIMES_SOFT_TIME + 2) + len)
  let locked := d.refState == 2 && d.ref.lockedAt.elim false fun t => decide (t ≤ start)
  let warm := (d.ref.warmAt.elim false fun t => decide (t ≤ start)) || (decide (d.ref.warmPrev.1 ≤ start) && decide (stop ≤ d.ref.warmPrev.2))
  let ok := long && locked && warm && !fs.isEmpty
  let v := if ok then max (-80000) (min (quot 10 (sumOf fs) fs.length) 80000) else 0
  let d := { d with ref := { d.ref with mid := start + len / 2 } }
  (d.wr Reg.REF_STATUS_HISTVALID (bit ok)).wr Reg.REF_HOFREQ_FREQ (sat32 v)

/-- The candidate that waits, 7 for none (R353, R355). -/
def Dev.refPending (d : Dev) (best : Nat) : Nat :=
  let sel := d.refSel
  if sel = 7 ∨ !d.eligible sel ∨ best = sel then 7
  else if d.refState = 1 ∨ d.on Reg.REF_CFG_REVERT ∨ sel = 6 then best
  else 7

/-- The switch that an evaluation leaves to begin at the next boundary (R353): `best` where nothing is selected or REF is in FREERUN, a
forced switch to it where the selected candidate is not eligible, and a non-forced one decided before while its candidate is still best. -/
def Dev.refRequest (d : Dev) (best : Nat) : Option SwitchReq :=
  let sel := d.refSel
  if sel = 7 then (if best = 7 then none else some ⟨best, false⟩)
  else if !d.eligible sel then some ⟨best, true⟩
  else if best = sel ∨ best = 7 then none
  else if d.refState = 0 ∧ sel = 6 then some ⟨best, false⟩
  else d.ref.req.filter fun r => !r.forced && r.cand == best && d.refPending best == best

/-- REF evaluates the selection (R352, R353, R355). The hold value is computed once, when a forced switch is decided that leaves a LOCKED
candidate (R360). -/
def Dev.refEval (d : Dev) : Dev :=
  if !d.on Reg.REF_CFG_ENABLE then d else
  let d := d.showCands
  let best := d.bestCand
  let d := if best = d.ref.best then d else { d with ref := { d.ref with best := best, since := d.tick } }
  let d := if d.refState = 2 ∧ !d.eligible d.refSel ∧ !(d.ref.req.any (·.forced)) then d.holdValue else d
  { d with ref := { d.ref with req := d.refRequest best } }.wr Reg.REF_STATUS_PEND (d.refPending best)

/-- Candidate `k` follows its lost condition in the cycle in which it changes (R345, R347, R352). -/
def Dev.candCheck (d : Dev) (k : Nat) : Dev :=
  let st := d.candState k
  if !d.on Reg.REF_CFG_ENABLE ∨ st = 0 then d
  else if d.candIsLost k then (if st = 1 then d else (d.toCand k 1).refEval)
  else if st = 1 then (d.toCand k (d.candFresh k)).showCands
  else d

end Sys2Proof.Machine
end

