-- ==== Sys2Proof/Machine/Sine.lean ====
section
/-! DEFINITION. The sine and the amplitude of the pilot (R463, R464) in fixed point, to far below the last bit of a sample. -/
namespace Sys2Proof.Machine

/-- The integer square root of `x`, which is below 2 ^ (2 n). -/
def sqrtBits (x : Nat) : Nat → Nat
  | 0 => 0
  | n + 1 =>
    let r := 2 * sqrtBits (x / 4) n
    if (r + 1) * (r + 1) ≤ x then r + 1 else r

/-- The Taylor series of sin x / x (`odd`) or cos x from its term `k` on, `left` terms, at x² = `x2` / 2^64, times 2^64. -/
def taylor (odd : Bool) (x2 : Nat) (k : Nat) : Nat → Nat
  | 0 => 2 ^ 64
  | left + 1 =>
    let a := if odd then 2 * k * (2 * k + 1) else (2 * k - 1) * (2 * k)
    2 ^ 64 - x2 * taylor odd x2 (k + 1) left / 2 ^ 64 / a

/-- π / 2 times 2^64, to the nearest integer. -/
def halfPi : Nat := 28976077832308491370

/-- sin (2π × n / d) times 2^64, for `d` > 0, by quadrants. -/
def sinFix (n d : Nat) : Int :=
  let q := 4 * n / d % 4
  let x := halfPi * (4 * n % d) / d
  let x2 := x * x / 2 ^ 64
  let s : Int := x * taylor true x2 1 14 / 2 ^ 64
  let c : Int := taylor false x2 1 14
  match q with
  | 0 => s
  | 1 => c
  | 2 => -s
  | _ => -c

/-- cos (2π × n / d) times 2^64. -/
def cosFix (n d : Nat) : Int := sinFix (4 * n + d) (4 * d)

/-- The bits from `b` - 1 down of the largest `a` with a^20 × 10^`l` ≤ 2^1280, given the bits above in `a`. -/
def rootBits (l a : Nat) : Nat → Nat
  | 0 => a
  | b + 1 => rootBits l (if (a + 2 ^ b) ^ 20 * 10 ^ l ≤ 2 ^ 1280 then a + 2 ^ b else a) b

/-- 10^(-LEVEL / 20) times 2^64, rounded down (R463). -/
def levelFix (l : Nat) : Nat := rootBits l 0 64

end Sys2Proof.Machine
end

