-- ==== Sys2Proof/Machine/Alarm.lean ====
section
/-! DEFINITION. Alarm inputs, the host watchdog, the standing program's start and end, line surveillance and device faults
(spec/15). -/
namespace Sys2Proof.Machine

/-! ### Device faults (R469, R470) -/

/-- Loss of protection (R424): a hearth SYNCING for more than 8,000 ticks, FAILED, or SUSPECT. -/
def Dev.unprotected (d : Dev) : Bool :=
  [d.hrt.a, d.hrt.b].any fun x =>
    x.st == .failed || x.suspect || (x.st == .syncing && decide (d.tick > x.syncSince + 8000))

/-- The conditions of ALM_FAULT (R469), bit by bit. -/
def Dev.faultBits (d : Dev) : List Bool :=
  let sp := d.rd Reg.ALM_SPSTAT_STATE
  [(List.range 128).any fun z => d.rd (Reg.ALM_ZSTAT_STATE z) == 3,
   (List.range 7).any fun u => d.on (Reg.ALM_AMP_FAULT u),
   d.unprotected,
   d.hrt.a.down.isSome || d.hrt.b.down.isSome,
   d.alm.kindled && (sp == 0 || sp == 3),
   d.rd Reg.ALM_STATUS_WD == 3,
   d.on Reg.LOCK_STATUS_LOCK_VIOL && d.rd Reg.LOCK_POLICY_ESC == 1,
   d.on Reg.CMT_STATUS_CRC_MISMATCH && d.on Reg.CMT_CRC_CFG_ESC,
   d.sup.down.elim false fun t => decide (d.tick > t + 8000),
   d.mem.ch0.failed || d.mem.ch1.failed,
   (List.range 2).any fun x => d.rd (Reg.SYNX_STAT_STATE x) == 5]

/-- A list of bits as a number, the first at bit 0. -/
def bitsOf : List Bool → Nat
  | [] => 0
  | b :: t => bit b + 2 * bitsOf t

/-- ALM_FAULT follows its conditions; a change posts FAULT, and every bit that has been 1 is latched (R469, R470). -/
def Dev.refreshFaults (d : Dev) : Dev :=
  let f := bitsOf d.faultBits
  let d := d.wr Reg.ALM_FAULTLAT_FAULT (d.rd Reg.ALM_FAULTLAT_FAULT ||| f)
  if f = d.rd Reg.ALM_FAULT_FAULT then d
  else ((d.wr Reg.ALM_FAULT_FAULT f).flag Reg.ALM_STATUS_FAULTEV).post 8 6 f

/-- FAULT_N is driven low (R470). -/
def Dev.faultLow (d : Dev) : Bool :=
  d.rd Reg.ALM_SPSTAT_STATE == 0 ||
    (List.range 11).any fun b => d.rd Reg.ALM_FAULT_FAULT / 2 ^ b % 2 == 1 && d.rd Reg.ALM_FAULTMASK_MASK / 2 ^ b % 2 == 0

/-! ### Alarm inputs (R446, R447) -/

/-- Bit `i` of `w` set to `b`. -/
def setBit (w i : Nat) (b : Bool) : Nat := if b then w ||| 2 ^ i else w - (w &&& 2 ^ i)

def Dev.alarmPin (d : Dev) (i : Nat) : AlarmPin := Sparse.get {} d.alm.pins i
def Dev.setAlarmPin (d : Dev) (i : Nat) (x : AlarmPin) : Dev := { d with alm := { d.alm with pins := Sparse.put {} d.alm.pins i x } }

/-- The pin of input `i` is at its active level (R446). -/
def Dev.pinActive (d : Dev) (i : Nat) : Bool := (d.alarmPin i).level != (d.rd Reg.ALM_INCFG_POL / 2 ^ i % 2 == 1)

/-- ALM_INSTAT.PIN shows which pins are at their active level. -/
def Dev.showPins (d : Dev) : Dev := d.wr Reg.ALM_INSTAT_PIN (bitsOf ((List.range 4).map d.pinActive))

/-- A commit that changes the active level of an input: what the pin is at begins anew (R446). -/
def Dev.pinsCommit (d old : Dev) : Dev :=
  ((List.range 4).foldl (fun (d : Dev) i =>
    if d.pinActive i = old.pinActive i then d else d.setAlarmPin i { (d.alarmPin i) with since := d.timeNs }) d).showPins

/-- A debounced change of an enabled input (R446). -/
def Dev.alarmInput (d : Dev) (i : Nat) (active : Bool) : Dev :=
  let old := d.rd Reg.ALM_INSTAT_ACTIVE / 2 ^ i % 2 == 1
  if d.rd Reg.ALM_INCFG_EN / 2 ^ i % 2 = 1 ∧ old ≠ active then
    let d := d.wr Reg.ALM_INSTAT_ACTIVE (setBit (d.rd Reg.ALM_INSTAT_ACTIVE) i active)
    let d := (d.flag Reg.ALM_STATUS_ALMEV).post 8 1 (i + bit active * 2 ^ 8)
    if active then
      let d := if d.rd Reg.ALM_INCFG_LATCH / 2 ^ i % 2 = 1 then
          d.wr Reg.ALM_INSTAT_LATCHED (setBit (d.rd Reg.ALM_INSTAT_LATCHED) i true) else d
      d.count Reg.ALM_ALARMCNT_COUNT Reg.ALM_STATUS_CNT_HALF
    else d
  else d

/-- ALARM (R446): the pin has been at its active level, or its inactive one, for DEBOUNCE ms without a break. -/
def execAlarm (i : Fin 4) (active : Bool) (ns : Nat) (s : State) : Host.Outcome State Fault Refusal :=
  onDev (fun d =>
    let d := d.at ns
    if d.pinActive i = active ∧ (d.alarmPin i).since + 10 ^ 6 * d.rd Reg.ALM_INCFG_DEBOUNCE ≤ d.timeNs then d.alarmInput i.val active
    else d) s

/-- A command of ALM ends with `reason`. -/
def Dev.almResult (d : Dev) (reason : Nat) : Dev := (d.wr Reg.ALM_CMDRES_REASON reason).wr Reg.ALM_CMDRES_VALID 1

/-- ALM_CMD.ACK bit `i` (R447). -/
def Dev.ackGo (d : Dev) (i : Nat) : Dev :=
  if d.rd Reg.ALM_INSTAT_ACTIVE / 2 ^ i % 2 = 1 then d.almResult 0x17
  else (d.wr Reg.ALM_INSTAT_LATCHED (setBit (d.rd Reg.ALM_INSTAT_LATCHED) i false)).almResult 0

/-- ACK (R447). -/
def execAck (h : Agent) (i : Fin 4) (s : State) : Host.Outcome State Fault Refusal :=
  onDev (fun d => d.hostCmd h Reg.ALM_CMD_ACK [] fun d => d.ackGo i.val) s

/-! ### The watchdog (R449, R450) -/

/-- The watchdog's state changes to `w`: WDOG is posted, and an entry into LATE counted. -/
def Dev.setWatch (d : Dev) (w : Nat) : Dev :=
  if d.rd Reg.ALM_STATUS_WD = w then d else
  let d := ((d.wr Reg.ALM_STATUS_WD w).flag Reg.ALM_STATUS_WDEV).post 8 2 w
  if w = 2 then d.count Reg.ALM_WDLATECNT_COUNT Reg.ALM_STATUS_CNT_HALF else d

/-- A kick (R449). -/
def Dev.kickGo (d : Dev) : Dev :=
  let d := { d with alm := { d.alm with wdAt := d.tick } }
  ((d.wr Reg.ALM_WDLAST_TICK d.schTick).setWatch 1).refreshFaults

/-- KICK (R449, R450). -/
def execKick (h : Agent) (s : State) : Host.Outcome State Fault Refusal :=
  onDev (fun d => d.hostCmd h Reg.ALM_WDKICK_KICK [] Dev.kickGo) s

/-- The watchdog has had no kick for `ms` (R449). -/
def Dev.wdIdle (d : Dev) (ms : Nat) : Bool := decide (d.alm.wdAt + 8 * ms ≤ d.tick)

/-- WDOG (R449): LATE after TIMEOUT, DEAD after a further GRACE; the timer runs in NEVER only once kindling has ended. -/
def execWdog (s : State) : Host.Outcome State Fault Refusal :=
  onDev (fun d =>
    let w := d.rd Reg.ALM_STATUS_WD
    let late := d.rd Reg.ALM_WDCFG_TIMEOUT
    if w = 2 ∧ d.wdIdle (late + d.rd Reg.ALM_WDCFG_GRACE) then (((d.setWatch 3).capture 7).wake 2).refreshFaults
    else if (w = 1 ∨ (w = 0 ∧ d.alm.kindled)) ∧ d.wdIdle late then (d.setWatch 2).refreshFaults
    else d) s

/-! ### The standing program (R452, R453, R458) -/

/-- ALM_CMD.START (R452). -/
def Dev.startGo (d : Dev) : Dev :=
  if d.rd Reg.ALM_SPSTAT_STATE ≠ 1 then d.almResult 0x12
  else ({ d with alm := { d.alm with startReq := true } }).almResult 0

/-- START (R452). -/
def execStart (h : Agent) (s : State) : Host.Outcome State Fault Refusal :=
  onDev (fun d => d.hostCmd h Reg.ALM_CMD_START [] Dev.startGo) s

/-- ALM_CMD.RELEASE (R458). -/
def Dev.releaseGo (d : Dev) : Dev :=
  match lowest ((if d.rd Reg.ALM_STATUS_WD ≠ 1 then [0x10] else []) ++ (if d.rd Reg.ALM_SPSTAT_STATE ≠ 2 then [0x13] else [])) with
  | some c => d.almResult c
  | none => ({ d with alm := { d.alm with relReq := true } }).almResult 0

/-- ALM_RELEASE (R458). -/
def execAlmRelease (h : Agent) (s : State) : Host.Outcome State Fault Refusal :=
  onDev (fun d => d.hostCmd h Reg.ALM_CMD_RELEASE [] Dev.releaseGo) s

/-- The condition under which the standing program starts at this boundary, 1 to 3 (R452). -/
def Dev.startCond (d : Dev) : Option Nat :=
  if d.on Reg.ALM_CFG_ENABLE && d.on Reg.ALM_CFG_STAND_EN && d.rd Reg.ALM_SPSTAT_STATE == 1 then
    if d.alarmActive && d.rd Reg.ALM_STATUS_WD == 3 then some 1
    else if d.on Reg.ALM_CFG_BOOTSTART && d.alarmActive && d.rd Reg.ALM_STATUS_WD == 0 then some 2
    else if d.alm.startReq then some 3
    else none
  else none

/-- The state of the standing program changes to `st`, and STANDING is posted. -/
def Dev.postStanding (d : Dev) (st cond : Nat) : Dev :=
  ((d.wr Reg.ALM_SPSTAT_STATE st).flag Reg.ALM_STATUS_SPEV).post 8 3
    (st + cond * 2 ^ 8 + d.rd Reg.ALM_SPSTAT_REASON * 2 ^ 16 + d.schTick * 2 ^ 32)

/-- The standing jobs enter Bellows ahead of the host jobs, which are suspended (R453). -/
def Dev.startStanding (d : Dev) (cond : Nat) : Dev :=
  let held : Sparse Job := d.sch.jobs.map fun e => (e.1, { e.2 with standSusp := true })
  let jobs := d.alm.table.foldl (fun (t : Sparse Job) (e : Nat × Job) => Sparse.put {} t (1024 + e.1) e.2) held
  let d := { d with sch := { d.sch with jobs := jobs } }
  let d := (d.flag Reg.SCH_STATUS_HELD).wr Reg.ALM_SPTICK_TICK d.schTick
  (d.count Reg.ALM_SPSTARTCNT_COUNT Reg.ALM_STATUS_CNT_HALF).postStanding 2 cond

/-- The standing jobs leave Bellows, and the host jobs resume (R458). -/
def Dev.endStanding (d : Dev) : Dev :=
  let host : Sparse Job := d.sch.jobs.filter fun e => decide (e.1 < 1024)
  let free : Sparse Job := host.map fun e => (e.1, { e.2 with standSusp := false })
  let d := { d with sch := { d.sch with jobs := free } }
  (d.wr Reg.SCH_STATUS_HELD 0).postStanding 1 0

/-- The boundary work of the standing program, the flows and ports of its plan apart: the condition of a start (R452,
R458). -/
def Dev.standingBoundary (d : Dev) : Dev × Bool :=
  let c := d.startCond
  let rel := d.alm.relReq && d.rd Reg.ALM_SPSTAT_STATE == 2
  let d := { d with alm := { d.alm with startReq := false, relReq := false } }
  match c with
  | some c => (d.startStanding c, true)
  | none => (if rel then d.endStanding else d, false)

/-- Tile word 0 lane 0 of IBUS channel 0x4FFF (R448). -/
def Dev.alarmTile (d : Dev) : Word :=
  BitVec.ofNat 32 (d.rd Reg.ALM_INSTAT_ACTIVE + d.rd Reg.ALM_INSTAT_LATCHED * 2 ^ 4 + bit d.alarmActive * 2 ^ 8
    + bit (d.rd Reg.ALM_SPSTAT_STATE == 2) * 2 ^ 9)

/-- The alarm state latched at the boundary is written into both hearths (R448). -/
def Dev.latchAlarmTile (d : Dev) : Dev :=
  [0, 1].foldl (fun d h =>
    d.setHm h ((List.range 16).foldl (fun m i => m.setTile 0x4FFF d.mem.par i (if i = 0 then d.alarmTile else 0)) (d.hm h))) d

/-! ### Line surveillance (R461 to R465) -/

def Dev.zone (d : Dev) (z : Nat) : Zone := Sparse.get {} d.alm.zones z
def Dev.setZone (d : Dev) (z : Nat) (x : Zone) : Dev :=
  { d with alm := { d.alm with zones := Sparse.put {} d.alm.zones z x } }

/-- LINEFAULT (R465, R471). -/
def Dev.postLine (d : Dev) (z : Nat) (fault : Bool) (kind : Nat) : Dev :=
  let d := (d.flag Reg.ALM_STATUS_SURVEV).post 8 4
    (z + bit fault * 2 ^ 8 + kind * 2 ^ 9 + d.rd (Reg.ALM_ZSTAT_GAIN z) * 2 ^ 16)
  if fault then d.count Reg.ALM_LINEFAULTCNT_COUNT Reg.ALM_STATUS_CNT_HALF else d

/-- Zone `z` becomes FAULT of `kind`; only an entry is posted and counted. -/
def Dev.zoneFault (d : Dev) (z kind : Nat) : Dev :=
  let entry := d.rd (Reg.ALM_ZSTAT_STATE z) != 3
  let d := (d.wr (Reg.ALM_ZSTAT_STATE z) 3).wr (Reg.ALM_ZSTAT_KIND z) kind
  if entry then d.postLine z true kind else d

/-- A verdict of zone `z`: 0 PASS, or the kind of the failure, with its GAIN (R465). -/
def Dev.verdict (d : Dev) (z v gain : Nat) : Dev :=
  let x := d.zone z
  let pass := v == 0
  let run := if d.rd (Reg.ALM_ZSTAT_RUN z) > 0 && x.pass == pass then min 15 (d.rd (Reg.ALM_ZSTAT_RUN z) + 1) else 1
  let x := if pass then { x with heard := d.tick, passAt := d.tick } else x
  let d := (d.setZone z { x with pass := pass }).wr (Reg.ALM_ZSTAT_RUN z) run
  let d := d.wr (Reg.ALM_ZSTAT_GAIN z) gain
  let st := d.rd (Reg.ALM_ZSTAT_STATE z)
  if pass then
    if st = 1 then d.wr (Reg.ALM_ZSTAT_STATE z) 2
    else if st = 3 ∧ run ≥ d.rd Reg.ALM_SCFG_CLEARN then
      ((d.wr (Reg.ALM_ZSTAT_STATE z) 2).wr (Reg.ALM_ZSTAT_KIND z) 0).postLine z false 0
    else d
  else if run ≥ d.rd Reg.ALM_SCFG_FAILN then d.zoneFault z v
  else if st = 1 then d.wr (Reg.ALM_ZSTAT_STATE z) 2
  else d

/-- A surveillance report (R461, R462); a programme PASS turns the pilot off at the next boundary (R463). -/
def Dev.report (d : Dev) (v : Nat) : Dev :=
  let z := bits v 6 0
  if !d.on Reg.ALM_SCFG_ENABLE || !d.supRuns || !d.on (Reg.ALM_ZCFG_EN z) || bits v 8 8 == 0 then d
  else
    let gain := bits v 31 16
    let d := d.setZone z { (d.zone z) with heard := d.tick }
    let k := if gain < d.rd (Reg.ALM_ZLIM_GLO z) then 1 else if gain > d.rd (Reg.ALM_ZLIM_GHI z) then 2
      else if bits v 15 9 < d.rd Reg.ALM_SCFG_CMIN then 3 else 0
    let d := d.verdict z k gain
    if k = 0 ∧ d.on (Reg.ALM_ZSTAT_PILOT z) then d.setZone z { (d.zone z) with ramp := true } else d

/-- POST (R147): a job event; with c = 127 it is a surveillance report as well (R461). -/
def execPost (e : Eng) (a : SReg) (c : BitVec 7) (s : State) : Host.Outcome State Fault Refusal :=
  devOp (.post e a c) e (fun d =>
    let v := (d.en e).getS a
    let posted := decide ((d.en e).posts < 4)
    let d := d.postEvent e c.toNat v
    if posted && c == 127 then d.report v.toNat else d) s

/-- PILOT_ON (R463): no PASS verdict and no report with VALID = 1 for PILOT_AFTER s. -/
def execPilotOn (z : Fin 128) (s : State) : Host.Outcome State Fault Refusal :=
  onDev (fun d =>
    let x := d.zone z
    if d.on (Reg.ALM_ZCFG_EN z) && d.on (Reg.ALM_ZCFG_PILOT_EN z) && !d.on (Reg.ALM_ZSTAT_PILOT z)
        && decide (x.heard + 8000 * d.rd Reg.ALM_SCFG_PILOT_AFTER ≤ d.tick) then
      (d.wr (Reg.ALM_ZSTAT_PILOT z) 1).setZone z
        { x with discard := true, ramp := false, winAt := d.tick, accS := 0, accC := 0 }
    else d) s

/-! ### The pilot and its detector (R463, R464) -/

/-- Fs in Hz. -/
def Dev.sampleRate (d : Dev) : Nat := if d.fam96 then 96000 else 48000

/-- A sample of LIN channel `c` in the tick that ends: the tile is gathered into both hearths, or into that of its port. -/
def Dev.linSample (d : Dev) (c j : Nat) : Int :=
  let a := (d.hm 0).tile (0x2000 + c) d.mem.par j
  (if a = 0 then (d.hm 1).tile (0x2000 + c) d.mem.par j else a).toInt

/-- The detector of zone `z` takes the tick that ends into its window (R464). -/
def Dev.detect (d : Dev) (z : Nat) : Dev :=
  let x := d.zone z
  if d.on (Reg.ALM_ZSTAT_PILOT z) && decide (d.tick < x.winAt + 8000) then
    let f := d.rd Reg.ALM_PILOT_FREQ
    let m := fun j => f * (d.tick * d.nSamples + j)
    let v := fun j => d.linSample (d.rd (Reg.ALM_ZCFG_SENSE z)) j
    let js := List.range d.nSamples
    d.setZone z { x with
      accS := js.foldl (fun a j => a + v j * sinFix (m j) d.sampleRate) x.accS,
      accC := js.foldl (fun a j => a + v j * cosFix (m j) d.sampleRate) x.accC }
  else d

/-- The detectors at the end of a tick. -/
def Dev.detectAll (d : Dev) : Dev := (List.range 128).foldl Dev.detect d

/-- GAIN of a window: the amplitude of the PFREQ component divided by A, in Q4.12, saturating (R464). -/
def Dev.gainOf (d : Dev) (x : Zone) : Nat :=
  let num := sqrtBits (2 ^ 26 * (x.accS.natAbs ^ 2 + x.accC.natAbs ^ 2)) 136
  satTo 16 (quot 16 num (8000 * d.nSamples * 2 ^ 31 * levelFix (d.rd Reg.ALM_PILOT_LEVEL))).toNat

/-- PILOT_WINDOW (R464): a window of 8,000 ticks ends; the first one after the pilot turns on is discarded. -/
def execPilotWindow (z : Fin 128) (s : State) : Host.Outcome State Fault Refusal :=
  onDev (fun d =>
    let x := d.zone z
    if !d.on (Reg.ALM_ZCFG_EN z) || !d.on (Reg.ALM_ZSTAT_PILOT z) || decide (d.tick < x.winAt + 8000) then d
    else
      let g := d.gainOf x
      let d := d.setZone z { x with discard := false, winAt := d.tick, accS := 0, accC := 0 }
      if x.discard then d
      else d.verdict z (if g < d.rd (Reg.ALM_ZPLIM_PLO z) then 1 else if g > d.rd (Reg.ALM_ZPLIM_PHI z) then 2 else 0) g) s

/-- UNVERIFIED (R465): no PASS for VERIFY_MAX s. -/
def execUnverified (z : Fin 128) (s : State) : Host.Outcome State Fault Refusal :=
  onDev (fun d =>
    if d.on (Reg.ALM_ZCFG_EN z) && decide ((d.zone z).passAt + 8000 * d.rd Reg.ALM_SCFG_VERIFY_MAX ≤ d.tick) then
      (d.zoneFault z 4).refreshFaults
    else d) s

/-- A commit changed the entry of zone `z` (R465): PENDING, or off, with its timers restarted. -/
def Dev.zoneChanged (d : Dev) (z : Nat) : Dev :=
  let was := d.rd (Reg.ALM_ZSTAT_STATE z) == 3
  let d := (d.wr (Reg.ALM_ZSTAT_STATE z) (if d.on (Reg.ALM_ZCFG_EN z) then 1 else 0)).wr (Reg.ALM_ZSTAT_KIND z) 0
  let d := ((d.wr (Reg.ALM_ZSTAT_PILOT z) 0).wr (Reg.ALM_ZSTAT_RUN z) 0).setZone z { heard := d.tick, passAt := d.tick }
  if was then d.postLine z false 0 else d

/-! ### The pilot in the drain (R463, R468) -/

/-- The LOUT indices that carry the pilot in this tick, each with whether it ramps off. -/
def Dev.pilotOuts (d : Dev) : List (Nat × Bool) :=
  ((List.range 128).filterMap fun z =>
    if d.on (Reg.ALM_ZSTAT_PILOT z) then some (d.rd (Reg.ALM_ZCFG_LOUT z), (d.zone z).ramp) else none)
  ++ (List.range 7).filterMap fun u => if d.on (Reg.ALM_AMP_EN u) && d.on (Reg.TIM_UCFG_OWNER (u + 5)) then some (d.rd (Reg.ALM_AMP_MON u), false) else none

/-- Saturating sum of two Q1.31 samples. -/
def satAdd (a b : Word) : Word :=
  BitVec.ofInt 32 (max (-(2 ^ 31)) (min (2 ^ 31 - 1) (a.toInt + b.toInt)))

/-- The pilot at media index `m`: A × sin (2π × PFREQ × m / Fs) with A = 10^(-LEVEL / 20) of full scale, of which the spec states no rounding
(R463). -/
def Dev.pilotAt (d : Dev) (m : Nat) : Int :=
  quot 17 (levelFix (d.rd Reg.ALM_PILOT_LEVEL) * sinFix (d.rd Reg.ALM_PILOT_FREQ * m) d.sampleRate) (2 ^ 97)

/-- A sample of LOUT channel `c` at media index `m`, position `j` of the tick, with the pilots added; one that turns off ramps to zero over
the tick (R463). -/
def Dev.addPilots (d : Dev) (c m j : Nat) (x : Word) : Word :=
  (d.pilotOuts.filter (·.1 == c)).foldl (fun x p =>
    satAdd x (if p.2 then rampVal (d.pilotAt m) (d.nSamples - (j + 1)) d.nSamples else BitVec.ofInt 32 (d.pilotAt m))) x

/-- The pilots whose last tick has been drained are off. -/
def Dev.pilotsOff (d : Dev) : Dev :=
  (List.range 128).foldl (fun d z =>
    if (d.zone z).ramp then (d.wr (Reg.ALM_ZSTAT_PILOT z) 0).setZone z { (d.zone z) with ramp := false, discard := false } else d) d

/-! ### Amplifier-path checks (R468) -/

/-- A gate of unit `u` + 5 passed or failed while its amplifier check runs. -/
def Dev.ampGate (d : Dev) (u : Nat) (pass : Bool) : Dev :=
  let x := Sparse.get (0, false) d.alm.amps u
  let run := if x.1 > 0 && x.2 == pass then min 15 (x.1 + 1) else 1
  let d := { d with alm := { d.alm with amps := Sparse.put (0, false) d.alm.amps u (run, pass) } }
  let bad := d.on (Reg.ALM_AMP_FAULT u)
  if !pass && !bad && decide (run ≥ d.rd Reg.ALM_SCFG_FAILN) then
    ((d.wr (Reg.ALM_AMP_FAULT u) 1).flag Reg.ALM_STATUS_SURVEV).post 8 5 (u + 5 + 2 ^ 8)
  else if pass && bad && decide (run ≥ d.rd Reg.ALM_SCFG_CLEARN) then
    ((d.wr (Reg.ALM_AMP_FAULT u) 0).flag Reg.ALM_STATUS_SURVEV).post 8 5 (u + 5)
  else d

end Sys2Proof.Machine
end

