-- ==== Sys2Proof/Machine/Tdm.lean ====
section
/-! DEFINITION. TDM ports and sample-rate converters (spec/08), and the drain (R14, R18, R434). -/
namespace Sys2Proof.Machine

def Dev.port (d : Dev) (n : Nat) : PortS := Sparse.get {} d.tdm.ports n
def Dev.setPort (d : Dev) (n : Nat) (p : PortS) : Dev := { d with tdm := { d.tdm with ports := Sparse.put {} d.tdm.ports n p } }

/-- The state of port `n` changes; TDM_ARMED and TDM_RUN follow. -/
def Dev.portState (d : Dev) (n st : Nat) : Dev :=
  let d := d.wr (Reg.TDM_PSTAT_STATE n) st
  (d.wr Reg.TDM_ARMED_PORTS (setBit (d.rd Reg.TDM_ARMED_PORTS) n (st == 1))).wr Reg.TDM_RUN_PORTS
    (setBit (d.rd Reg.TDM_RUN_PORTS) n (st == 2))

/-- Synthesizer `x` counts as locked for a TDM port (R268, R375). -/
def Dev.tdmLocked (d : Dev) (x : Nat) : Bool := d.on (Reg.SYNX_STAT_LOCK x) && d.rd (Reg.SYNX_CFG_PLAN x) == 0

/-- The synthesizer that port `n` runs on now. -/
def Dev.portSyn (d : Dev) (n : Nat) : Nat := (d.rd (Reg.TDM_PCFG_SYN n) + d.rd (Reg.TDM_PSTAT_ONSYN n)) % 2

/-- The frame of the tick in which the current instant falls (R262). -/
def Dev.frameNow (d : Dev) : Nat := d.ns * d.nSamples / 125000

/-- A port with the converter on (R272). -/
def Dev.portSrc (d : Dev) (n : Nat) : Bool := decide (12 ≤ n) && d.on (Reg.TDM_PCFG_SRC n)

/-- The port may run: its ENABLE and that of the block. -/
def Dev.portOn (d : Dev) (n : Nat) : Bool := !d.outputsHeld && d.on Reg.TDM_CFG_ENABLE && d.on (Reg.TDM_PCFG_ENABLE n)

/-- A port enters FAULT from frame `j` (R267, R270). -/
def Dev.portFault (d : Dev) (n cause j : Nat) : Dev :=
  let p := d.port n
  let d := d.setPort n { p with bad := 0, good := 0, muteFrom := some (min j (p.muteFrom.getD j)) }
  let d := (d.portState n 3).count (Reg.TDM_FAULTCNT_COUNT n) Reg.TDM_STATUS_CNT_HALF
  (d.flag Reg.TDM_STATUS_FAULT).post 10 2 (n + cause * 2 ^ 8)

/-- Port `n` moves to the other synthesizer (R268). -/
def Dev.portMove (d : Dev) (n : Nat) : Dev :=
  let x := 1 - d.portSyn n
  let d := d.setPort n { d.port n with moving := none }
  let d := (d.wr (Reg.TDM_PSTAT_ONSYN n) (1 - d.rd (Reg.TDM_PSTAT_ONSYN n))).flag Reg.TDM_STATUS_XF
  (d.count (Reg.TDM_XFCNT_COUNT n) Reg.TDM_STATUS_CNT_HALF).post 10 4 (n + x * 2 ^ 4)

/-- The moves of ports whose cut frame lies before frame `j` of the tick (R268). -/
def Dev.portMoves (d : Dev) (j : Nat) : Dev :=
  (List.range 16).foldl (fun d n => if (d.port n).moving.any (decide <| · < j) then d.portMove n else d) d

/-- A running master port whose synthesizer is gated at frame `j` cross-fails, or enters FAULT (R268, R270, R271). `cut`: the gating cut
the frame, and the port moves at its end; where the other synthesizer is lost in that frame too, it does not. -/
def Dev.portLost (d : Dev) (n j : Nat) (cut : Bool) : Dev :=
  let x := d.portSyn n
  if d.rd (Reg.TDM_PSTAT_STATE n) ≠ 2 ∨ d.on (Reg.TDM_PCFG_ROLE n) ∨ d.tdmLocked x then d
  else
    let p := d.port n
    let d := if cut && p.cuts.all (·.1 != j) then d.setPort n { p with cuts := (j, d.ns) :: p.cuts } else d
    if d.on (Reg.TDM_PCFG_XFAIL n) && d.tdmLocked (1 - x) then
      if cut then d.setPort n { d.port n with moving := some j } else d.portMove n
    else (d.setPort n { d.port n with moving := none }).portFault n 2 j

/-- The frames up to the present instant have begun. -/
def Dev.frameTurn (d : Dev) : Dev := d.portMoves d.frameNow

/-- The ports are told of a change of the synthesizers (R268, R270). -/
def Dev.portsLost (d : Dev) : Dev := (List.range 16).foldl (fun d n => d.portLost n d.frameNow true) d.frameTurn

/-- Port `n` starts at the current boundary (R265, R271). -/
def Dev.portStart (d : Dev) (n : Nat) : Dev :=
  let d := (d.setPort n { startTick := some d.tick, edgeAt := d.timeNs }).portState n 2
  let d := (d.wr (Reg.TDM_PSTAT_ONSYN n) 0).wr (Reg.TDM_PSTART_TICK n) d.schTick
  let d := (d.flag Reg.TDM_STATUS_START).post 10 1 (n + d.schTick * 2 ^ 32)
  d.portLost n 0 false

/-- Port `n` stops (R266). -/
def Dev.portStop (d : Dev) (n : Nat) : Dev := ((d.setPort n {}).portState n 0).wr (Reg.TDM_PSTAT_ONSYN n) 0

/-- Port `n` starts at once, or is ARMED for its trigger (R265). -/
def Dev.portBegin (d : Dev) (n : Nat) : Dev :=
  if d.on (Reg.TDM_PCFG_START n) then (d.setPort n {}).portState n 1 else d.portStart n

/-- What a commit means for port `n`: `was` says that the port was enabled, `old` is its configuration word before
(R265, R266). Changes confined to TRISTATE and the maps act without a stop. -/
def Dev.portCommit (d : Dev) (n : Nat) (was : Bool) (old : Word) : Dev :=
  let now := d.portOn n
  let changed := (old &&& ~~~(Reg.TDM_PCFG_TRISTATE n).mask) != (d.word (0xD400 + 0x80 * n) &&& ~~~(Reg.TDM_PCFG_TRISTATE n).mask)
  if !was && now then d.portBegin n
  else if was && !now then d.portStop n
  else if was && changed then
    if d.rd (Reg.TDM_PSTAT_STATE n) = 1 then (d.portStop n).portBegin n else (d.portStop n).portStart n
  else d

/-- Time trigger `t` fires: the ports ARMED for it start at the first boundary at or after this instant (R265). -/
def Dev.portTrigger (d : Dev) (t : Nat) : Dev :=
  (List.range 16).foldl (fun d n =>
    if d.rd (Reg.TDM_PSTAT_STATE n) = 1 ∧ d.rd (Reg.TDM_PCFG_TRIG n) = t then
      if d.ns = 0 then d.portStart n else d.setPort n { (d.port n) with fired := true }
    else d) d

/-- A port in FAULT may resume at this boundary (R267, R270). -/
def Dev.portResume (d : Dev) (n : Nat) : Dev :=
  let sel := d.rd (Reg.TDM_PCFG_SYN n)
  let go := fun (d : Dev) => ((d.setPort n { (d.port n) with bad := 0, good := 0, muteFrom := none }).portState n 2).post 10 3 n
  if d.on (Reg.TDM_PCFG_ROLE n) then
    if (d.port n).good ≥ d.nSamples then go d else d
  else if d.tdmLocked sel then go (d.wr (Reg.TDM_PSTAT_ONSYN n) 0)
  else if d.on (Reg.TDM_PCFG_XFAIL n) && d.tdmLocked (1 - sel) then go (d.wr (Reg.TDM_PSTAT_ONSYN n) 1)
  else d

/-- A change of the sample rate family stops and restarts every running port (R376). -/
def Dev.portsFamily (d : Dev) : Dev :=
  (List.range 16).foldl (fun d n =>
    if d.rd (Reg.TDM_PSTAT_STATE n) = 2 ∨ d.rd (Reg.TDM_PSTAT_STATE n) = 3 then (d.portStop n).portStart n else d) d

/-! ### Input slots (R261 to R264) -/

/-- The hearths whose LIN tiles port `n` fills (R264). -/
def Dev.portHearths (d : Dev) (n : Nat) : List Nat :=
  if d.mode = 0 ∨ (d.mode = 2 ∧ d.on (Reg.TDM_PCFG_PROT n)) then [0, 1] else [d.rd (Reg.TDM_PCFG_HEARTH n)]

/-- Slots of a frame, and the valid bits of a slot. -/
def Dev.portSlots (d : Dev) (n : Nat) : Nat := 2 ^ (d.rd (Reg.TDM_PCFG_SLOTS n) + 1)
def Dev.portBits (d : Dev) (n : Nat) : Nat := match d.rd (Reg.TDM_PCFG_WORD n) with | 0 => 16 | 1 => 24 | _ => 32

/-- The map entry of slot `s`: enabled, channel index. -/
def Dev.inEntry (d : Dev) (n s : Nat) : Bool × Nat :=
  let v := d.rd (if s % 2 = 0 then Reg.TDM_INMAP_LO n (s / 2) else Reg.TDM_INMAP_HI n (s / 2))
  (v / 256 == 1, v % 256)
def Dev.outEntry (d : Dev) (n s : Nat) : Bool × Nat :=
  let v := d.rd (if s % 2 = 0 then Reg.TDM_OUTMAP_LO n (s / 2) else Reg.TDM_OUTMAP_HI n (s / 2))
  (v / 256 == 1, v % 256)

/-- The input samples of one slot after the port's treatment: word length, held and muted frames, converter lock. -/
def Dev.slotSamples (d : Dev) (n : Nat) (ws : List Word) (before : Word) : List Word :=
  let p := d.port n
  let keep := BitVec.ofNat 32 (2 ^ 32 - 2 ^ (32 - d.portBits n))
  let N := d.nSamples
  let go := (List.range N).foldl (fun (acc : List Word × Word) j =>
    let x := if p.muteFrom.any (decide <| · ≤ j) then 0
      else if p.cuts.any (·.1 == j) then acc.2
      else ws.getD j 0 &&& keep
    (acc.1 ++ [x], x)) ([], before)
  if d.portSrc n then
    if !d.on (Reg.TDM_SRCSTAT_LOCK (n - 12)) then List.replicate N 0
    else if p.ramp = 1 then (List.range N).map fun j => rampVal (go.1.getD j 0).toInt (j + 1) N
    else if p.ramp = 2 then List.replicate N 0
    else go.1
  else go.1

/-- The LIN tiles of the tick that ends are closed (R14, R262): a channel that no running port fills reads 0. -/
def Dev.closeLin (d : Dev) (slots : List SlotData) : Dev :=
  let par := d.mem.par
  let lin := fun (e : Nat × Word) => e.1 / 16 / 2 / 4096 == 2 && e.1 / 16 % 2 == par
  let wipe := fun (d : Dev) h => d.setHm h { (d.hm h) with tiles := (d.hm h).tiles.filter fun e => !lin e }
  let old := d
  let d := wipe (wipe d 0) 1
  slots.foldl (fun d s =>
    let n := s.port.val
    let st := d.rd (Reg.TDM_PSTAT_STATE n)
    let e := d.inEntry n s.slot
    if (st = 2 ∨ st = 3) ∧ s.slot.val < d.portSlots n ∧ e.1 then
      (d.portHearths n).foldl (fun d h =>
        let c := 0x2000 + e.2
        let ws := d.slotSamples n s.words ((old.hm h).tile c (1 - par) (d.nSamples - 1))
        d.setHm h ((List.range d.nSamples).foldl (fun m j => m.setTile c par j (ws.getD j 0)) (d.hm h))) d
    else d) d

/-! ### The drain (R14, R18, R434, R437, R463) -/

/-- Key of position `j` of channel `c` drained from `src`. -/
def drainKey (src c j : Nat) : Nat := (65536 * src + c) * 16 + j

/-- The hearth that source `src` drains from in this tick (R18, R434). -/
def Dev.drainHearth (d : Dev) (src : Nat) : Nat := if src < 2 then src else d.hrt.hold.getD d.hrt.active

/-- The block that `src` drains in this tick: held in tick b of a takeover or of a hearth that is down, ramped to zero in
tick b + 1 of the latter, and otherwise the tiles computed in the tick before. -/
def Dev.drainBlock (d : Dev) (src : Nat) : Sparse Word :=
  let h := d.drainHearth src
  let N := d.nSamples
  let old := d.tdm.drained.filter fun e => e.1 / 16 / 65536 == src && e.1 % 16 == N - 1
  let spread := fun (f : Word → Nat → Word) =>
    (old.flatMap fun e => (List.range N).map fun j => (e.1 - (N - 1) + j, f e.2 (j + 1))).filter fun e => e.2 != 0
  let tiles := (d.hm h).tiles.filterMap fun e =>
    let c := e.1 / 16 / 2
    if e.1 / 16 % 2 = 1 - d.mem.par ∧ (c / 4096 = 1 ∨ c / 4096 = 3) ∧ e.1 % 16 < N then
      some (drainKey src c (e.1 % 16), e.2) else none
  match (d.hh h).down with
  | some (_, b) =>
    if d.tick ≤ b then spread fun L _ => L
    else if d.tick = b + 1 then spread fun L k => rampVal L.toInt (N - k) N
    else []
  | none => if d.hrt.hold = some h then spread fun L _ => L else tiles

/-- The source that port `n` drains from (R264). -/
def Dev.portSource (d : Dev) (n : Nat) : Nat :=
  if d.mode = 0 ∨ (d.mode = 2 ∧ d.on (Reg.TDM_PCFG_PROT n)) then 2 else d.rd (Reg.TDM_PCFG_HEARTH n)

/-- The device-rate samples that the converters hold: 64 sample periods, and as many again on the other side (R274, R275). -/
def Dev.convHistory (d : Dev) : Dev :=
  let slots := (([12, 13, 14, 15] : List Nat).filter d.portSrc).flatMap fun n =>
    ((List.range 16).filter fun s => (d.outEntry n s).1).map fun s => (n, s)
  let conv := slots.foldl (fun (m : Sparse (List Word)) e =>
    let new := (List.range d.nSamples).map fun j =>
      Sparse.get 0 d.tdm.now (drainKey (d.portSource e.1) (0x3000 + (d.outEntry e.1 e.2).2) j)
    let all := Sparse.get [] d.tdm.conv (16 * e.1 + e.2) ++ new
    Sparse.put [] m (16 * e.1 + e.2) (all.drop (all.length - 128))) []
  { d with tdm := { d.tdm with conv := conv } }

/-- DRAIN (R14): the LOUT blocks go to the port buffers with the pilots added; the NTX blocks stay for the flue. -/
def Dev.drain (d : Dev) : Dev :=
  let new := d.drainBlock 0 ++ d.drainBlock 1 ++ d.drainBlock 2
  let lout := new.filter fun e => e.1 / 16 % 65536 / 4096 == 3
  let chans := ((d.pilotOuts.map (·.1)).dedup)
  let m := fun j => (d.tick - 2) * d.nSamples + j
  let next := [0, 1, 2].foldl (fun l src => chans.foldl (fun l c => (List.range d.nSamples).foldl (fun l j =>
    let k := drainKey src (0x3000 + c) j
    Sparse.put 0 l k (d.addPilots c (m j) j (Sparse.get 0 l k))) l) l) lout
  ({ d with tdm := { d.tdm with drained := new, now := d.tdm.next, next := next } }).convHistory.pilotsOff

/-- A sample rounded to `b` bits, to nearest with ties to even, and saturated (R261). -/
def roundTo (b : Nat) (x : Word) : Word :=
  let u : Int := 2 ^ (32 - b)
  let q := x.toInt / u
  let r := x.toInt % u
  let q := if 2 * r > u ∨ (2 * r = u ∧ q % 2 = 1) then q + 1 else q
  BitVec.ofInt 32 (min q (2 ^ (b - 1) - 1) * u)

/-- Frames of a converter port in a tick, at its rate in 0.01 Hz (R272). -/
def convFrames (rate : Nat) : Nat := max 1 ((rate + 799999) / 800000)

/-- What a locked converter sends in slot `s` of the frame `j` it begins in this tick (R272 to R274). It sends zeros while unlocked and
until the boundary after it locks, and ramps in over the tick from there (R273). -/
def Dev.convOut (d : Dev) (n s j : Nat) : Word :=
  let m := n - 12
  let rate := d.rd (Reg.TDM_SRCSTAT_RATE m)
  let x := Config.convert (Sparse.get [] d.tdm.conv (16 * n + s)) rate (d.rd (Reg.TDM_SRCPHASE_PHASE m)) j
  if !d.on (Reg.TDM_SRCSTAT_LOCK m) then 0
  else match (d.port n).ramp with
    | 0 => x
    | 1 => rampVal x.toInt (min (j + 1) (convFrames rate)) (convFrames rate)
    | _ => 0

/-- The bit clocks of frame `j` before the gating that cut it (R268). -/
def Dev.cutBits (d : Dev) (n j : Nat) : Option Nat :=
  ((d.port n).cuts.find? fun e => e.1 == j).map fun e =>
    (e.2 * d.nSamples - j * 125000) * (32 * d.portSlots n) / 125000

/-- What port `n` drives in slot `s` of frame `j` of this tick: `none` is high impedance (R261 to R267). The gated clocks drive the rest
of a frame that they cut low (R268, R270). -/
def Dev.slotOut (d : Dev) (n s j : Nat) : Option Word :=
  let st := d.rd (Reg.TDM_PSTAT_STATE n)
  let slave := d.on (Reg.TDM_PCFG_ROLE n)
  let z := if d.on (Reg.TDM_PCFG_TRISTATE n) then none else some 0
  let cut := d.cutBits n j
  let faulted := st == 3 && cut.isNone && (d.port n).muteFrom.any (decide <| · ≤ j)
  if st = 0 ∨ st = 1 ∨ faulted then (if slave then z else some 0)
  else
    let e := d.outEntry n s
    if !e.1 then z
    else if (d.port n).startTick = some d.tick then some 0
    else
      let x := if d.portSrc n then d.convOut n s j
        else Sparse.get 0 d.tdm.now (drainKey (d.portSource n) (0x3000 + e.2) j)
      let w := roundTo (d.portBits n) x
      some (match cut with
        | some c => w &&& BitVec.ofNat 32 (2 ^ 32 - 2 ^ (32 - min 32 (c - d.rd (Reg.TDM_PCFG_DELAY n) - 32 * s)))
        | none => w)

/-! ### The pins of a port (R260, R261) -/

/-- What a port's pins carry. -/
structure TdmPins where
  bclk : Bool
  fsync : Bool
  /-- `none`: high impedance. -/
  dout : Option Bool
  deriving DecidableEq, Repr

/-- DOUT in bit clock `i` of frame `j`, counted from the FSYNC edge: most significant bit first, after the data delay (R261). -/
def Dev.doutBit (d : Dev) (n j i : Nat) : Option Bool :=
  let k := j * (32 * d.portSlots n) + i
  let delay := d.rd (Reg.TDM_PCFG_DELAY n)
  if k < delay then (d.port n).tail
  else
    let f := 32 * d.portSlots n
    let b := (k - delay) % f
    (d.slotOut n (b / 32) ((k - delay) / f)).map fun w => w.getMsbD (b % 32)

/-- FSYNC in bit clock `i` of a frame: one bit clock wide or half the frame, with the polarity of the port (R261). -/
def Dev.fsyncBit (d : Dev) (n i : Nat) : Bool :=
  let active := if d.on (Reg.TDM_PCFG_FSWIDTH n) then decide (i < 16 * d.portSlots n) else i == 0
  active != d.on (Reg.TDM_PCFG_FSPOL n)

/-- The pins of a running master port in half `t` of bit clock `i` of frame `j`: FSYNC and DOUT change on the driving edge that EDGE
selects, with which the bit clock begins; before the start, in FAULT and after a gating all are low (R261, R265, R268, R270). -/
def Dev.tdmPins (d : Dev) (n j i : Nat) (t : Bool) : TdmPins :=
  let st := d.rd (Reg.TDM_PSTAT_STATE n)
  let gone := match d.cutBits n j with
    | some c => decide (c ≤ i)
    | none => st != 2 && !(st == 3 && !(d.port n).muteFrom.any (decide <| · ≤ j))
  if gone then { bclk := false, fsync := false, dout := some false }
  else { bclk := d.on (Reg.TDM_PCFG_EDGE n) != t, fsync := d.fsyncBit n i, dout := d.doutBit n j i }

/-- The word that port `n` receives in slot `s` of a frame, from the levels of DIN in the halves of the bit clocks counted from the
frame's FSYNC edge: DIN is sampled on the edge opposite to the driving one (R261). -/
def Dev.dinWord (d : Dev) (n s : Nat) (din : Nat → Bool → Bool) : Word :=
  (List.range 32).foldl (fun (w : Word) b =>
    w <<< 1 ||| BitVec.ofNat 32 (bit (din (32 * s + b + d.rd (Reg.TDM_PCFG_DELAY n)) true))) 0

/-- What the last bit clock of the tick carries on DOUT (R261). -/
def Dev.portTail (d : Dev) (n : Nat) : Option Bool :=
  (d.slotOut n (d.portSlots n - 1) (d.nSamples - 1)).map fun w => w[0]

/-- The last bits of the tick that ends, and the moves at its end. -/
def Dev.portsEnd (d : Dev) : Dev :=
  (List.range 16).foldl (fun d n => d.setPort n { d.port n with tail := d.portTail n }) (d.portMoves 16)

/-- The ports at a tick boundary: the marks of the tick before go, triggered ports start, faulted ports resume. -/
def Dev.portsBoundary (d : Dev) : Dev :=
  (List.range 16).foldl (fun d n =>
    let st := d.rd (Reg.TDM_PSTAT_STATE n)
    let p := d.port n
    let d := d.setPort n { p with muteFrom := if st = 3 then some 0 else none, cuts := [], ramp := p.ramp - 1 }
    if st = 1 ∧ p.fired then d.portStart n
    else if st = 3 then d.portResume n
    else d) d

/-! ### Events of the ports -/

/-- A slave port without its converter follows FSYNC (R267, R272). -/
def Dev.follows (d : Dev) (n : Nat) : Bool := d.on (Reg.TDM_PCFG_ROLE n) && !d.portSrc n

/-- FSYNC_EDGE (R267): the offset is measured against the grid instant of the frame that the edge begins. -/
def execFsyncEdge (n : Fin 16) (offset : BitVec 16) (ns : Nat) (s : State) : Host.Outcome State Fault Refusal :=
  onDev (fun d =>
    let d := (d.at ns).frameTurn
    let st := d.rd (Reg.TDM_PSTAT_STATE n)
    if !d.follows n then d else
    let ok := decide (offset.toInt.natAbs ≤ 4 * d.rd Reg.TDM_CFG_ALIGN_WIN)
    let d := (d.wr (Reg.TDM_PALIGN_OFFSET n) offset.toNat).wr (Reg.TDM_PSTAT_ALIGNED n) (bit ok)
    let p := { d.port n with edgeAt := d.timeNs }
    let d := d.setPort n p
    let frame := (((d.ns : Int) - offset.toInt).toNat * 2 * d.nSamples + 125000) / 250000
    if ok then d.setPort n { p with bad := 0, good := if st = 3 then p.good + 1 else 0 }
    else if st = 2 ∧ p.bad ≥ 1 then d.portFault n 0 frame
    else d.setPort n { p with bad := if st = 2 then p.bad + 1 else 0, good := 0 }) s

/-- FSYNC_TIMEOUT (R267): no edge has come for two sample periods. -/
def execFsyncTimeout (n : Fin 16) (ns : Nat) (s : State) : Host.Outcome State Fault Refusal :=
  onDev (fun d =>
    let d := (d.at ns).frameTurn
    if !d.follows n || decide (d.timeNs * d.nSamples < (d.port n).edgeAt * d.nSamples + 250000) then d
    else if d.rd (Reg.TDM_PSTAT_STATE n) = 2 then d.portFault n 1 d.frameNow
    else if d.rd (Reg.TDM_PSTAT_STATE n) = 3 then d.setPort n { (d.port n) with good := 0 }
    else d) s

/-- XREVERT (R269): at the first boundary after the selected synthesizer has held lock for 8,000 ticks. -/
def execXrevert (n : Fin 16) (s : State) : Host.Outcome State Fault Refusal :=
  onDev (fun d =>
    let x := d.rd (Reg.TDM_PCFG_SYN n)
    if d.rd (Reg.TDM_PSTAT_STATE n) == 2 && d.on (Reg.TDM_PSTAT_ONSYN n) && d.on (Reg.TDM_PCFG_REVERT n) && d.tdmLocked x
        && d.ns == 0 && decide ((if x = 0 then d.syn.a.lockAt else d.syn.b.lockAt) + 1000000000 ≤ d.timeNs) then
      ((d.wr (Reg.TDM_PSTAT_ONSYN n) 0).flag Reg.TDM_STATUS_XF).post 10 5 n
    else d) s

/-- SRCLOCK (R273, R274): the converter declares lock at a rate within its range, or loses it. -/
def execSrclock (m : Fin 4) (locked : Bool) (rate : BitVec 24) (phase : BitVec 16) (s : State) : Host.Outcome State Fault Refusal :=
  onDev (fun d =>
    let n := 12 + m.val
    let range := decide (3196800 ≤ rate.toNat) && decide (rate.toNat ≤ 9609600)
    if !d.portSrc n || d.on (Reg.TDM_SRCSTAT_LOCK m) == locked || (locked && !range) then d else
    let d := ((d.wr (Reg.TDM_SRCSTAT_LOCK m) (bit locked)).wr (Reg.TDM_SRCSTAT_RATE m) rate.toNat).wr
      (Reg.TDM_SRCPHASE_PHASE m) phase.toNat
    let d := d.setPort n { (d.port n) with ramp := if locked then 2 else 0 }
    let d := if locked then d else d.count (Reg.TDM_SRCUNLOCK_COUNT m) Reg.TDM_STATUS_CNT_HALF
    (d.flag Reg.TDM_STATUS_SRCEV).post 10 6 (n + bit locked * 2 ^ 8 + rate.toNat / 100 * 2 ^ 32)) s

/-- The rate estimates and phases of the locked converters (R273, R274): the phase is below a frame period. -/
def Dev.convEstimates (d : Dev) (conv : List (Nat × Nat × Nat)) : Dev :=
  conv.foldl (fun d e =>
    if d.portSrc (12 + e.1) && d.on (Reg.TDM_SRCSTAT_LOCK e.1) && decide (e.2.2 * e.2.1 < 100000000000) then
      (d.wr (Reg.TDM_SRCSTAT_RATE e.1) e.2.1).wr (Reg.TDM_SRCPHASE_PHASE e.1) e.2.2
    else d) d

end Sys2Proof.Machine
end

