-- ==== Sys2Proof/Machine/Synth.lean ====
section
/-! DEFINITION. Synthesis and clock outputs (spec/12). -/
namespace Sys2Proof.Machine

def Dev.syns (d : Dev) (x : Nat) : SynS := if x = 0 then d.syn.a else d.syn.b
def Dev.setSyns (d : Dev) (x : Nat) (v : SynS) : Dev :=
  if x = 0 then { d with syn := { d.syn with a := v } } else { d with syn := { d.syn with b := v } }
def Dev.pulse (d : Dev) (p : Nat) : PulseS := Sparse.get {} d.syn.fp p
def Dev.setPulse (d : Dev) (p : Nat) (v : PulseS) : Dev := { d with syn := { d.syn with fp := Sparse.put {} d.syn.fp p v } }

/-- Synthesizer `x` runs (SYN_CFG.ENABLE, SYN_xCFG.EN). -/
def Dev.synOn (d : Dev) (x : Nat) : Bool := d.on Reg.SYN_CFG_ENABLE && d.on (Reg.SYNX_CFG_EN x)

/-! ### Hop slots (R379, R380) -/

/-- The die temperature in °C. -/
def Dev.dieTemp (d : Dev) : Int := sint 8 (d.rd Reg.AGE_TEMP_CORE)

/-- The slot of synthesizer `x` now (R379). -/
def Dev.slotOf (d : Dev) (x : Nat) : Nat := 4 * x + 2 * d.rd (Reg.SYNX_CFG_PLAN x) + bit (decide (d.dieTemp ≥ 45))

/-- The slot serves a hop (R380). -/
def Dev.hopReady (d : Dev) (x : Nat) : Bool :=
  let s := d.slotOf x
  d.on (Reg.SYN_SLOT_VALID s) && decide ((sint 8 (d.rd (Reg.SYN_SLOT_TEMP s)) - d.dieTemp).natAbs ≤ 20)

/-! ### Gating (R384, R390) -/

/-- CLKOUT `x` moves to the other synthesizer when its own is gated and the other can serve it (R390). -/
def Dev.clkLost (d : Dev) (x : Nat) : Dev :=
  let y := d.clkSyn x
  let o := 1 - y
  if d.on Reg.OUT_CFG_ENABLE && d.synGated y && d.on (Reg.OUT_CLK_CFG_XFAIL x) && !d.synGated o
      && d.on (Reg.SYNX_STAT_LOCK o) && d.rd (Reg.SYNX_CFG_PLAN o) == d.rd (Reg.SYNX_CFG_PLAN y)
      && !d.on (Reg.SYNX_STAT_UNALIGNED o) then
    let d := (d.wr (Reg.OUT_CLK_STAT_ONSYN x) (1 - d.rd (Reg.OUT_CLK_STAT_ONSYN x))).flag Reg.OUT_STATUS_XFEV
    (d.count (Reg.OUT_CLK_XFCNT_COUNT x) Reg.OUT_STATUS_CNT_HALF).post 18 1 (x + o * 2 ^ 8)
  else d

def Dev.clksLost (d : Dev) : Dev := (List.range 8).foldl Dev.clkLost d

/-- Pulse output `p` runs, with the first rising edge scheduled from now on, or is held while its synthesizer is gated (R395). -/
def Dev.pulseBegin (d : Dev) (p : Nat) : Dev :=
  if d.synGated (d.rd (Reg.OUT_FP_CFG_SYN p)) then d.wr (Reg.OUT_FP_STAT_STATE p) 3
  else (d.setPulse p { (d.pulse p) with since := d.timeNs }).wr (Reg.OUT_FP_STAT_STATE p) 2

/-- The pulse outputs of synthesizer `x` are held, or run again (R395). -/
def Dev.pulsesGate (d : Dev) (x : Nat) (gated : Bool) : Dev :=
  (List.range 4).foldl (fun d p =>
    let st := d.rd (Reg.OUT_FP_STAT_STATE p)
    if d.rd (Reg.OUT_FP_CFG_SYN p) = x then
      if gated ∧ st = 2 then d.wr (Reg.OUT_FP_STAT_STATE p) 3
      else if !gated ∧ st = 3 then d.pulseBegin p
      else d
    else d) d

/-- Synthesizer `x` is gated from this instant; lock is no longer declared (R384). -/
def Dev.gateOff (d : Dev) (x : Nat) : Dev :=
  let v := d.syns x
  let d := if v.gated then d else d.setSyns x { v with gated := true, gateAt := d.timeNs }
  ((d.wr (Reg.SYNX_STAT_LOCK x) 0).wr (Reg.SYNX_STAT_ILOCK x) 0).wr (Reg.SYNX_STAT_CMP x) 0

/-- Ports and outputs react to the gating of synthesizer `x` (R268, R384, R390). -/
def Dev.gateReact (d : Dev) (x : Nat) : Dev := ((d.portsLost).clksLost).pulsesGate x true

/-- Synthesizer `x` is gated, and ports and outputs react. -/
def Dev.gate (d : Dev) (x : Nat) : Dev := (d.gateOff x).gateReact x

/-- The state shown for synthesizer `x`: FAULT lasts until the next declaration of lock (R385). -/
def Dev.synState (d : Dev) (x st : Nat) : Dev :=
  if d.rd (Reg.SYNX_STAT_STATE x) = 5 then d else d.wr (Reg.SYNX_STAT_STATE x) st

/-- An attempt begins: a hop where the slot qualifies, or a full search (R380). -/
def Dev.attempt (d : Dev) (x : Nat) (full : Bool) : Dev :=
  let hop := !full && d.hopReady x
  let d := d.setSyns x { (d.syns x) with relock := if hop then .hop else .search, tryAt := d.timeNs, lp := false }
  d.synState x (if hop then 2 else 1)

/-- A relock begins (R385). -/
def Dev.relock (d : Dev) (x : Nat) (full : Bool) : Dev := (d.gate x).attempt x full

/-! ### The events of a synthesizer -/

/-- LOSS_OF_LOCK (R385). -/
def execLossOfLock (x : Fin 2) (ns : Nat) (s : State) : Host.Outcome State Fault Refusal :=
  onDev (fun d =>
    let d := d.at ns
    if d.on (Reg.SYNX_STAT_LOCK x) then
      let d := d.count (Reg.SYNX_LOSCNT_COUNT x) Reg.SYN_STATUS_CNT_HALF
      ((d.flag Reg.SYN_STATUS_LOCKEV).post 17 1 x).relock x false
    else d) s

/-- Synthesizer `x` has lost its reference: it counts, is gated and waits (R373, R385). -/
def Dev.losesReference (d : Dev) (x : Nat) : Dev :=
  let locked := d.on (Reg.SYNX_STAT_LOCK x)
  let d := d.count (Reg.SYNX_LOSCNT_COUNT x) Reg.SYN_STATUS_CNT_HALF
  let d := if locked then (d.flag Reg.SYN_STATUS_LOCKEV).post 17 1 (x + 2 ^ 9) else d
  let d := d.gateOff x
  (d.setSyns x { (d.syns x) with refLost := true, relock := .reference }).synState x 4

/-- LOSS_OF_REFERENCE (R373, R385): every synthesizer that uses the channel is gated before ports and outputs react. -/
def execLossOfReference (ch : Fin 2) (ns : Nat) (s : State) : Host.Outcome State Fault Refusal :=
  onDev (fun d =>
    let d := d.at ns
    let hit := [0, 1].filter fun x => d.synOn x && d.rd (Reg.SYNX_CFG_PLAN x) == ch.val && !(d.syns x).refLost
    if d.stopped 17 then hit.foldl (fun d x => d.setSyns x { (d.syns x) with refLost := true }) d else
    hit.foldl Dev.gateReact (hit.foldl Dev.losesReference d)) s

/-- REFERENCE_RESTORED (R373, R385). -/
def execReferenceRestored (ch : Fin 2) (ns : Nat) (s : State) : Host.Outcome State Fault Refusal :=
  onDev (fun d => [0, 1].foldl (fun d x =>
    let v := d.syns x
    if v.refLost && d.rd (Reg.SYNX_CFG_PLAN x) == ch.val then
      let d := d.setSyns x { v with refLost := false }
      if d.stopped 17 then d else d.relock x false
    else d) (d.at ns)) s

/-- HOP_ABANDON (R380): 12 µs after the hop began. -/
def execHopAbandon (x : Fin 2) (ns : Nat) (s : State) : Host.Outcome State Fault Refusal :=
  onDev (fun d =>
    let d := d.at ns
    if (d.syns x).relock = .hop ∧ (d.syns x).tryAt + 12000 ≤ d.timeNs then d.attempt x true else d) s

/-- LOCK (R379, R382): the outputs resume; a search writes its slot. With a faulty lock path no lock is declared (R383). -/
def execLock (x : Fin 2) (band : BitVec 4) (trim : BitVec 7) (ns : Nat) (s : State) : Host.Outcome State Fault Refusal :=
  onDev (fun d =>
    let d := d.at ns
    let v := d.syns x
    if (v.relock ≠ .search ∧ v.relock ≠ .hop) ∨ v.lp then d else
    let us := min 65535 ((d.timeNs - v.gateAt + 999) / 1000)
    let d := if v.relock = .search then
        let i := d.slotOf x
        (((d.wr (Reg.SYN_SLOT_BAND i) band.toNat).wr (Reg.SYN_SLOT_TRIM i) trim.toNat).wr (Reg.SYN_SLOT_TEMP i)
          (d.rd Reg.AGE_TEMP_CORE)).wr (Reg.SYN_SLOT_VALID i) 1
      else d
    let d := d.setSyns x { v with relock := .none, gated := false, failedOnce := false, lockAt := d.timeNs, lag := 0 }
    let d := ((d.wr (Reg.SYNX_STAT_STATE x) 3).wr (Reg.SYNX_STAT_LOCK x) 1).wr (Reg.SYNX_STAT_ILOCK x) 1
    let d := ((d.wr (Reg.SYNX_STAT_CMP x) 1).wr (Reg.SYNX_STAT_LPFAULT x) 0).wr (Reg.SYNX_STAT_UNALIGNED x) 0
    let d := ((d.wr (Reg.SYNX_STAT_BAND x) band.toNat).wr (Reg.SYNX_STAT_TRIM x) trim.toNat).wr (Reg.SYNX_GATETIME_US x) us
    let d := d.count (Reg.SYNX_LOCKCNT_COUNT x) Reg.SYN_STATUS_CNT_HALF
    let d := (d.flag Reg.SYN_STATUS_LOCKEV).post 17 1 (x + 2 ^ 8 + us * 2 ^ 16)
    (d.clksLost).pulsesGate x false) s

/-- LPFAULT (R383): CMP is not seen at 0 within 20 µs after gating begins, or (`low`) does not reach 1 within 20 µs after ILOCK rises, which
is later than the start of the attempt. -/
def execLpfault (x : Fin 2) (low : Bool) (ns : Nat) (s : State) : Host.Outcome State Fault Refusal :=
  onDev (fun d =>
    let d := d.at ns
    let v := d.syns x
    if (v.relock ≠ .search ∧ v.relock ≠ .hop) ∨ d.timeNs < (if low then v.tryAt else v.gateAt) + 20000 then d else
    let d := d.setSyns x { v with lp := true }
    let d := (d.wr (Reg.SYNX_STAT_CMP x) (bit (!low))).wr (Reg.SYNX_STAT_ILOCK x) (bit low)
    ((d.wr (Reg.SYNX_STAT_LPFAULT x) 1).flag Reg.SYN_STATUS_FAULTEV).post 17 2 (x + bit low * 2 ^ 8)) s

/-- The bound of an attempt in ns: a hop or a full search reaches internal lock within it (R378, R380). -/
def SynS.bound (v : SynS) : Nat := if v.relock = .hop then 31000 else 391000

/-- SYNFAIL (R385): an attempt has reached its bound without internal lock, or met a faulty lock path; the first failure since the last
declared lock enters FAULT. -/
def execSynfail (x : Fin 2) (ns : Nat) (s : State) : Host.Outcome State Fault Refusal :=
  onDev (fun d =>
    let d := d.at ns
    let v := d.syns x
    if (v.relock ≠ .search ∧ v.relock ≠ .hop) ∨ (!v.lp ∧ d.timeNs < v.tryAt + v.bound) then d else
    let d := (d.setSyns x { v with relock := .failed, failedOnce := true, tryAt := d.timeNs }).count (Reg.SYNX_FAILCNT_COUNT x)
      Reg.SYN_STATUS_CNT_HALF
    if v.failedOnce then d
    else (((d.wr (Reg.SYNX_STAT_STATE x) 5).flag Reg.SYN_STATUS_FAULTEV).post 17 3 x).refreshFaults) s

/-- RELOCK_RETRY (R385): 1 ms after a failed attempt. -/
def execRelockRetry (x : Fin 2) (ns : Nat) (s : State) : Host.Outcome State Fault Refusal :=
  onDev (fun d =>
    let d := d.at ns
    if (d.syns x).relock = .failed ∧ (d.syns x).tryAt + 10 ^ 6 ≤ d.timeNs then d.attempt x false else d) s

/-! ### Commands of SYN -/

/-- SYN_CMD.CLRSLOTS clears VALID in every slot (R379). -/
def Dev.clrSlots (d : Dev) : Dev := (List.range 8).foldl (fun d i => d.wr (Reg.SYN_SLOT_VALID i) 0) d

/-- CLRSLOTS (R379). -/
def execClrslots (h : Agent) (s : State) : Host.Outcome State Fault Refusal :=
  onDev (fun d => d.hostCmd h Reg.SYN_CMD_CLRSLOTS [] Dev.clrSlots) s

/-- SYN_xCMD.RESEARCH: a relock with a full search, of a synthesizer that runs (R380, R385). -/
def Dev.researchGo (d : Dev) (x : Nat) : Dev := if d.synOn x && !(d.syns x).refLost then d.relock x true else d

/-- RESEARCH (R380). -/
def execResearch (h : Agent) (x : Fin 2) (ns : Nat) (s : State) : Host.Outcome State Fault Refusal :=
  onDev (fun d => (d.at ns).hostCmd h (Reg.SYNX_CMD_RESEARCH x) [] fun d => d.researchGo x) s

/-- SYN_xCMD.REALIGN: no effect on a synthesizer that is not UNALIGNED (R387). -/
def Dev.realignGo (d : Dev) (x : Nat) : Dev :=
  if d.on (Reg.SYNX_STAT_UNALIGNED x) then
    let d := (d.wr (Reg.SYNX_STAT_UNALIGNED x) 0).setSyns x { (d.syns x) with realign := true, gated := true, gateAt := d.timeNs }
    (d.clksLost).pulsesGate x true
  else d

/-- REALIGN (R387). -/
def execRealign (h : Agent) (x : Fin 2) (ns : Nat) (s : State) : Host.Outcome State Fault Refusal :=
  onDev (fun d => (d.at ns).hostCmd h (Reg.SYNX_CMD_REALIGN x) [] fun d => d.realignGo x) s

/-! ### Clock and pulse outputs (R386 to R395) -/

/-- PER, WIDTH, OFFSET and FINE of pulse output `p` come into force (R386). -/
def Dev.pulseLoad (d : Dev) (p : Nat) : Dev :=
  d.setPulse p { (d.pulse p) with
    changed := false, per := d.rd (Reg.OUT_FP_PER_PER p), width := d.rd (Reg.OUT_FP_WIDTH_WIDTH p),
    off := d.rd (Reg.OUT_FP_OFF_OFFSET p), fine := d.rd (Reg.OUT_FP_FINE_FINE p) }

/-- The present instant is an alignment boundary of frequency plan `plan`: a tick boundary, and every 80th of them on the 44.1 kHz plan
(R374). -/
def Dev.aligned (d : Dev) (plan : Nat) : Bool := d.ns == 0 && (plan == 0 || d.tick % 80 == 0)

/-- ALIGNMENT_BOUNDARY (R386 to R388): a realigned synthesizer resumes, changed CLKOUTs restart together, and changed
pulse settings act. -/
def execAlignmentBoundary (plan : Fin 2) (s : State) : Host.Outcome State Fault Refusal :=
  onDev (fun d =>
    if !d.aligned plan then d else
    let mine := fun (d : Dev) x => d.rd (Reg.SYNX_CFG_PLAN x) == plan.val
    let d := [0, 1].foldl (fun d x =>
      if mine d x && (d.syns x).realign then
        (d.setSyns x { (d.syns x) with realign := false, gated := !d.on (Reg.SYNX_STAT_LOCK x), lag := 0 }).pulsesGate x
          (!d.on (Reg.SYNX_STAT_LOCK x))
      else d) d
    let go := d.syn.waiting.filter fun x => mine d (d.clkSyn x) && !d.synGated (d.clkSyn x)
    let d := { d with syn := { d.syn with
      waiting := d.syn.waiting.filter fun x => !go.contains x,
      clkStart := go.foldl (fun m x => Sparse.put 0 m x d.tick) d.syn.clkStart } }
    (List.range 4).foldl (fun d p =>
      let x := d.rd (Reg.OUT_FP_CFG_SYN p)
      if (d.pulse p).changed && mine d x && !d.synGated x then d.pulseLoad p else d) d) s

/-- OUT_CLKEN (R389): an RWL field of OUT. -/
def execOutClken (h : Agent) (mask : BitVec 8) (s : State) : Host.Outcome State Fault Refusal :=
  onDev (fun d =>
    let d := d.touch h true 18
    if !d.owns h then d.lockViol h 0x1800C 2
    else if d.locked h 18 then d.lockViol h 0x1800C 0
    else d.load Reg.OUT_CLKEN_EN mask.toNat) s

/-- A tick boundary has come since synthesizer `x` has held declared lock for 8,000 ticks (R390). -/
def Dev.lockHeld (d : Dev) (x : Nat) : Bool :=
  d.on (Reg.SYNX_STAT_LOCK x) && !d.synGated x && decide ((d.syns x).lockAt + 8000 * 125000 ≤ d.timeNs - d.ns)

/-- CLK_XREVERT (R390). -/
def execClkXrevert (x : Fin 8) (s : State) : Host.Outcome State Fault Refusal :=
  onDev (fun d =>
    if d.on (Reg.OUT_CLK_STAT_ONSYN x) && d.on (Reg.OUT_CLK_CFG_REVERT x) && d.lockHeld (d.rd (Reg.OUT_CLK_CFG_SYN x)) then
      ((d.wr (Reg.OUT_CLK_STAT_ONSYN x) 0).flag Reg.OUT_STATUS_XFEV).post 18 2 x
    else d) s

/-- OUT_FPpCMD.ALIGN: in Legacy mode the next input edge becomes the anchor (R393). -/
def Dev.alignGo (d : Dev) (p : Nat) : Dev :=
  if d.rd (Reg.OUT_FP_CFG_MODE p) = 2 then d.setPulse p { (d.pulse p) with align := true } else d

/-- ALIGN (R393). -/
def execAlign (h : Agent) (p : Fin 4) (s : State) : Host.Outcome State Fault Refusal :=
  onDev (fun d => d.hostCmd h (Reg.OUT_FP_CMD_ALIGN p) [] fun d => d.alignGo p) s

/-- VCO frequency of a plan in Hz (R374). -/
def vcoHz (plan : Nat) : Nat := if plan = 0 then 1572864000 else 1445068800

/-- The count c of synthesizer `x` at internal time `t` ns, in 10^-9 VCO periods (R374). -/
def Dev.vcoCount (d : Dev) (x t : Nat) : Int := ((t : Int) - (d.syns x).lag) * vcoHz (d.rd (Reg.SYNX_CFG_PLAN x))

/-- The phase of pulse output `p` at internal time `t` ns, in 10^-9 VCO periods since its last scheduled rising edge:
by its anchor, or by the grid (R392). -/
def Dev.pulsePhase (d : Dev) (p t : Nat) (anchor : Option Nat) : Int :=
  let x := d.rd (Reg.OUT_FP_CFG_SYN p)
  let c : Int := match anchor with
    | some a => ((t : Int) - a) * vcoHz (d.rd (Reg.SYNX_CFG_PLAN x))
    | none => d.vcoCount x t
  (c - ((d.pulse p).off : Int) * 10 ^ 9) % (((d.pulse p).per : Int) * 10 ^ 9)

/-- The level of FPULSEp at internal time `t` ns while its synthesizer runs (R392, R395): delayed by FINE, low before the first rising
edge scheduled after its start, inverted by POL. -/
def Dev.pulsePin (d : Dev) (p t : Nat) : Bool :=
  let x := d.pulse p
  let ph := (d.pulsePhase p t x.anchor - (x.fine : Int) * 125000000) % ((x.per : Int) * 10 ^ 9)
  let high := d.rd (Reg.OUT_FP_STAT_STATE p) == 2 && decide (ph < (x.width : Int) * 10 ^ 9)
    && decide (ph ≤ ((t : Int) - x.since) * vcoHz (d.rd (Reg.SYNX_CFG_PLAN (d.rd (Reg.OUT_FP_CFG_SYN p)))))
  !d.outputsHeld && d.on Reg.OUT_CFG_ENABLE && d.on (Reg.OUT_FP_CFG_EN p) && (high != d.on (Reg.OUT_FP_CFG_POL p))

/-- The level of CLKOUTx at internal time `t` ns (R388): high for ceil(DIV / 2) of each DIV VCO periods counted from the alignment boundary
at which it started, delayed by COARSE + FINE / 8. -/
def Dev.clkPin (d : Dev) (x t : Nat) : Bool :=
  let div : Int := d.rd (Reg.OUT_CLK_CFG_DIV x)
  let c0 := d.vcoCount (d.clkSyn x) (125000 * Sparse.get 0 d.syn.clkStart x)
  let delay : Int := (8 * d.rd (Reg.OUT_CLK_DLY_COARSE x) + d.rd (Reg.OUT_CLK_DLY_FINE x)) * 125000000
  d.clkRun x && decide ((d.vcoCount (d.clkSyn x) t - c0 - delay) % (div * 10 ^ 9) < (div + 1) / 2 * 10 ^ 9)

/-- The schedule of a running pulse output moves from phase `old` to phase `new`: a pulse too close to the one in progress
is omitted (R394). -/
def Dev.pulseMoved (d : Dev) (p : Nat) (old new : Int) : Dev :=
  let width : Int := ((d.pulse p).width : Int) * 10 ^ 9
  let per : Int := ((d.pulse p).per : Int) * 10 ^ 9
  if d.rd (Reg.OUT_FP_STAT_STATE p) = 2 ∧ old < width ∧ old ≠ new ∧ (per - new) % per < width - old + 4 * 10 ^ 9 then
    ((d.count (Reg.OUT_FP_SKIP_COUNT p) Reg.OUT_STATUS_CNT_HALF).flag Reg.OUT_STATUS_SKIPEV).post 18 3 p
  else d

/-- The anchor of pulse output `p` becomes the present instant. -/
def Dev.setAnchor (d : Dev) (p : Nat) : Dev :=
  let old := d.pulsePhase p d.timeNs (d.pulse p).anchor
  let d := (d.setPulse p { (d.pulse p) with anchor := some d.timeNs, rejects := 0, align := false }).wr (Reg.OUT_FP_STAT_ANCHORED p) 1
  d.pulseMoved p old (d.pulsePhase p d.timeNs (some d.timeNs))

/-- An edge of a pin that a capture unit or a pulse output takes at the measured instant: the conditioned input stands at the level
behind it and changed within 2 ns of that instant (R340, R393, R401). -/
def Dev.pinEdge (d : Dev) (k : Nat) (rising : Bool) : Bool :=
  let x : TimIn := Sparse.get {} d.tim.ins k
  x.cond == rising && decide (((x.edgeAt : Int) - d.timeNs).natAbs ≤ 2)

/-- The signed error in ns of an input edge of pulse output `p` now against the nearest a + m × PER (R393). Before the first anchor the
spec gives no expected position. -/
def Dev.pulseError (d : Dev) (p : Nat) : Dev × Int :=
  match (d.pulse p).anchor with
  | none => let (d, w) := d.fresh; (d, w.toInt)
  | some a =>
    let f := vcoHz (d.rd (Reg.SYNX_CFG_PLAN (d.rd (Reg.OUT_FP_CFG_SYN p))))
    let per : Int := ((d.pulse p).per : Int) * 10 ^ 9
    let r := ((d.timeNs : Int) - a) * f % per
    (d, quot 15 (if 2 * r > per then r - per else r) f)

/-- FP_INPUT_EDGE (R393): an edge of the input, measured at `ns`, that IEDGE selects. Native accepts an edge within WIN, the first edge, and
the edge after three rejections; Legacy takes the edge that follows ALIGN. -/
def execFpInputEdge (p : Fin 4) (ns : Nat) (s : State) : Host.Outcome State Fault Refusal :=
  onDev (fun d =>
    let d := d.at ns
    let x := d.pulse p
    if !d.on Reg.OUT_CFG_ENABLE || !d.on (Reg.OUT_FP_CFG_EN p)
        || !d.pinEdge (d.rd (Reg.OUT_FP_CFG_INSRC p)) (!d.on (Reg.OUT_FP_CFG_IEDGE p)) then d
    else match d.rd (Reg.OUT_FP_CFG_MODE p) with
      | 1 =>
        let (d, err) := d.pulseError p
        let d := d.wr (Reg.OUT_FP_ERR_NS p) (uint 32 err)
        let win := d.rd (Reg.OUT_FP_FINE_WIN p)
        if x.anchor.isNone ∨ win = 0 ∨ x.rejects ≥ 3 ∨ err.natAbs ≤ win then d.setAnchor p
        else
          let d := (d.setPulse p { x with rejects := x.rejects + 1 }).count (Reg.OUT_FP_REJ_COUNT p) Reg.OUT_STATUS_CNT_HALF
          if x.rejects + 1 = 3 then (d.flag Reg.OUT_STATUS_REJEV).post 18 4 (p + uint 32 err * 2 ^ 32) else d
      | 2 =>
        if x.align then
          ((d.setAnchor p).flag Reg.OUT_STATUS_ANCHOREV).post 18 5 (p + d.timeNs % 2 ^ 32 * 2 ^ 32)
        else d
      | _ => d) s

/-- Time trigger `t` fires: the pulse outputs ARMED for it begin (R395). -/
def Dev.pulseTrigger (d : Dev) (t : Nat) : Dev :=
  (List.range 4).foldl (fun d p =>
    if d.rd (Reg.OUT_FP_STAT_STATE p) = 1 ∧ d.rd (Reg.OUT_FP_CFG_TRIG p) = t then
      d.pulseBegin p
    else d) d

/-! ### Commits of G12 and re-anchors -/

/-- What a commit means for synthesizer `x`, whose EN and PLAN were `en` and `plan` (R385, R386): it relocks at once, or once the reference is
back where the other one waits for the same channel. -/
def Dev.synCommit (d : Dev) (x : Nat) (en : Bool) (plan : Nat) : Dev :=
  let now := d.synOn x
  let other := d.syns (1 - x)
  if now && (!en || d.rd (Reg.SYNX_CFG_PLAN x) != plan) then
    if other.refLost && d.rd (Reg.SYNX_CFG_PLAN x) == d.rd (Reg.SYNX_CFG_PLAN (1 - x)) then
      let d := d.gate x
      (d.setSyns x { (d.syns x) with refLost := true, relock := .reference }).synState x 4
    else (d.setSyns x { (d.syns x) with refLost := false }).relock x false
  else if en && !now then
    let d := d.gate x
    (d.setSyns x { (d.syns x) with relock := .none, failedOnce := false, refLost := false, realign := false }).wr (Reg.SYNX_STAT_STATE x) 0
  else d

/-- A changed CLKOUT holds low until the next alignment boundary (R388); `syn`: its SYN changed. -/
def Dev.clkChanged (d : Dev) (x : Nat) (syn : Bool) : Dev :=
  let d := if syn then d.wr (Reg.OUT_CLK_STAT_ONSYN x) 0 else d
  { d with syn := { d.syn with waiting := if d.syn.waiting.contains x then d.syn.waiting else d.syn.waiting ++ [x] } }

/-- What a commit means for pulse output `p`: whether it was enabled, whether its input or mode changed, whether any of
its settings did (R386, R392, R395). -/
def Dev.pulseCommit (d : Dev) (p : Nat) (was input any : Bool) : Dev :=
  let now := d.on Reg.OUT_CFG_ENABLE && d.on (Reg.OUT_FP_CFG_EN p)
  let d := if input then (d.setPulse p { (d.pulse p) with anchor := none, rejects := 0, align := false }).wr (Reg.OUT_FP_STAT_ANCHORED p) 0 else d
  if now && !was then
    let d := d.pulseLoad p
    if d.on (Reg.OUT_FP_CFG_START p) then d.wr (Reg.OUT_FP_STAT_STATE p) 1 else d.pulseBegin p
  else if was && !now then
    ((d.setPulse p {}).wr (Reg.OUT_FP_STAT_STATE p) 0).wr (Reg.OUT_FP_STAT_ANCHORED p) 0
  else if any then d.setPulse p { (d.pulse p) with changed := true }
  else d

/-- A re-anchor by `k` ticks at the current boundary (R386, R387, R394): the instants held in internal time move with it,
44.1 kHz plans keep their count and may lose their alignment, and grid pulses of the other plan move. `t0` is the internal time before it. -/
def Dev.synReanchor (d : Dev) (k : Int) (t0 : Nat) : Dev :=
  let move := fun (t : Nat) => ((t : Int) + k * 125000).toNat
  let before := d
  let d := [0, 1].foldl (fun d x =>
    let v := d.syns x
    let lags := d.rd (Reg.SYNX_CFG_PLAN x) == 1
    let d := d.setSyns x { v with
      gateAt := move v.gateAt, lockAt := move v.lockAt, tryAt := move v.tryAt, lag := if lags then v.lag + k * 125000 else v.lag }
    if d.synOn x && lags && decide (k % 80 ≠ 0) then d.wr (Reg.SYNX_STAT_UNALIGNED x) 1
    else d) d
  (List.range 4).foldl (fun d p =>
    let d := d.setPulse p { (d.pulse p) with since := move (d.pulse p).since }
    match (d.pulse p).anchor with
    | some a => d.setPulse p { (d.pulse p) with anchor := some (move a) }
    | none => d.pulseMoved p (before.pulsePhase p t0 none) (d.pulsePhase p (move t0) none)) d

end Sys2Proof.Machine
end

