-- ==== Sys2Proof/Machine/Net.lean ====
section
/-! DEFINITION. Reading and building Ethernet, IP, UDP and RTP bytes (spec/07, spec/09). -/
namespace Sys2Proof.Machine

/-! ### Bytes -/

/-- Byte `i`, and big-endian values at byte `i`. -/
def byteAt (b : List Nat) (i : Nat) : Nat := b.getD i 0
def be16 (b : List Nat) (i : Nat) : Nat := byteAt b i * 256 + byteAt b (i + 1)
def be32 (b : List Nat) (i : Nat) : Nat := be16 b i * 65536 + be16 b (i + 2)
def slice (b : List Nat) (i n : Nat) : List Nat := (b.drop i).take n

/-- The `n` bytes of `x`, most significant first. -/
def toBe (n x : Nat) : List Nat := ((List.range n).map fun i => x / 256 ^ i % 256).reverse

/-- `b` with the bytes `x` in place of those from `i` on. -/
def patch (b : List Nat) (i : Nat) (x : List Nat) : List Nat := b.take i ++ x ++ b.drop (i + x.length)

/-- The ones' complement sum of 16-bit words, carries folded; an odd last byte is padded with zero. -/
def sum16 : List Nat → Nat
  | [] => 0
  | [a] => a * 256
  | a :: b :: t => a * 256 + b + sum16 t

def fold16 (x : Nat) : Nat :=
  let y := x % 65536 + x / 65536
  let z := y % 65536 + y / 65536
  z % 65536 + z / 65536

/-- The Internet checksum over `b`. -/
def inetSum (b : List Nat) : Nat := 65535 - fold16 (sum16 b)

/-! ### Frames -/

/-- What the filters and the flow engine read of a frame. -/
structure Net where
  /-- EtherType after at most one 802.1Q tag, and the tag's VLAN identifier. -/
  ether : Nat := 0
  vid : Option Nat := none
  /-- Offset of the network header. -/
  l3 : Nat := 14
  /-- The packet is IP: its version 6, addresses, protocol, header checksum right, fragment, offset and length of its payload. -/
  ip : Bool := false
  v6 : Bool := false
  src : List Nat := []
  dst : List Nat := []
  proto : Nat := 0
  sumOk : Bool := true
  frag : Bool := false
  l4 : Nat := 0
  l4len : Nat := 0
  deriving DecidableEq, Repr

/-- Read the headers of frame `b`. -/
def parseNet (b : List Nat) : Net :=
  let tagged := be16 b 12 == 0x8100
  let l3 := if tagged then 18 else 14
  let n : Net := { ether := be16 b (l3 - 2), vid := if tagged then some (be16 b 14 % 4096) else none, l3 := l3 }
  if n.ether = 0x0800 ∧ byteAt b l3 / 16 = 4 then
    let ihl := byteAt b l3 % 16 * 4
    { n with
      ip := true, src := slice b (l3 + 12) 4, dst := slice b (l3 + 16) 4, proto := byteAt b (l3 + 9),
      sumOk := decide (ihl ≥ 20) && inetSum (slice b l3 ihl) == 0,
      frag := be16 b (l3 + 6) % 16384 != 0, l4 := l3 + ihl, l4len := be16 b (l3 + 2) - ihl }
  else if n.ether = 0x86DD ∧ byteAt b l3 / 16 = 6 then
    { n with
      ip := true, v6 := true, src := slice b (l3 + 8) 16, dst := slice b (l3 + 24) 16, proto := byteAt b (l3 + 6),
      l4 := l3 + 40, l4len := be16 b (l3 + 4) }
  else n

/-- UDP, and its destination port and length field. -/
def Net.udp (n : Net) : Bool := n.ip && n.proto == 17
def Net.dport (n : Net) (b : List Nat) : Nat := be16 b (n.l4 + 2)
def Net.ulen (n : Net) (b : List Nat) : Nat := be16 b (n.l4 + 4)

/-- The pseudo-header of a UDP datagram of `len` bytes. -/
def Net.pseudo (n : Net) (len : Nat) : List Nat := n.src ++ n.dst ++ toBe 4 len ++ [0, 0, 0, 17]

/-- The UDP checksum passes (R238): an IPv4 checksum of zero passes, an IPv6 checksum of zero fails. -/
def Net.udpOk (n : Net) (b : List Nat) : Bool :=
  let len := n.ulen b
  if be16 b (n.l4 + 6) = 0 then !n.v6
  else inetSum (n.pseudo len ++ slice b n.l4 len) == 0

/-- The UDP checksum to send for the datagram of `b`, whose checksum field holds 0; a computed 0 is sent as 0xFFFF. -/
def udpSum (b : List Nat) : Nat :=
  let n := parseNet b
  let s := inetSum (n.pseudo (n.ulen b) ++ slice b n.l4 (n.ulen b))
  if s = 0 then 0xFFFF else s

/-- The checksums that the MAC inserts in a frame of the supervisor (R289): of the IPv4 header, and of UDP. -/
def insertSums (b : List Nat) : List Nat :=
  let n := parseNet b
  let b := if n.ip && !n.v6 then
      let z := patch b (n.l3 + 10) [0, 0]
      patch z (n.l3 + 10) (toBe 2 (inetSum (slice z n.l3 (n.l4 - n.l3))))
    else b
  if n.udp && !n.frag then
    let z := patch b (n.l4 + 6) [0, 0]
    patch z (n.l4 + 6) (toBe 2 (udpSum z))
  else b

/-- The destination is a group: a multicast or broadcast MAC address. -/
def isGroup (b : List Nat) : Bool := byteAt b 0 % 2 == 1

/-- The destination IP address is multicast. -/
def Net.group (n : Net) : Bool := if n.v6 then byteAt n.dst 0 == 0xFF else byteAt n.dst 0 / 16 == 14

/-- The IPv6 groups FF0x::hi:lo. -/
def v6Group (scope hi lo : Nat) : List Nat := [0xFF, scope] ++ List.replicate 10 0 ++ toBe 2 hi ++ toBe 2 lo

/-- A PTP message (R317): its offset in the frame, and whether it came over UDP. -/
def ptpAt (b : List Nat) : Option (Nat × Bool) :=
  let n := parseNet b
  if n.ether = 0x88F7 then some (n.l3, false)
  else if n.udp && (n.dport b == 319 || n.dport b == 320) then some (n.l4 + 8, true)
  else none

/-- A PTP event message with versionPTP major 2 (R317). -/
def ptpEvent (b : List Nat) : Option (Nat × Bool) :=
  match ptpAt b with
  | some (o, udp) =>
    if (!udp || (parseNet b).dport b == 319) && decide (o + 34 ≤ b.length) && byteAt b (o + 1) % 16 == 2
        && decide (byteAt b o % 16 ≤ 3) then some (o, udp) else none
  | none => none

/-- The fixed filter of R286 passes the frame to the supervisor. -/
def fixedFilter (port : Nat) (b : List Nat) : Bool :=
  let n := parseNet b
  let mac := slice b 0 6
  let ctl := [0x01, 0x80, 0xC2, 0x00, 0x00]
  mac == List.replicate 6 255
  || (mac == ctl ++ [2] && n.ether == 0x8809 && byteAt b n.l3 == 0x0A)
  || ((mac == ctl ++ [0x0E] || mac == [0x01, 0x1B, 0x19, 0, 0, 0]) && n.ether == 0x88F7)
  || (mac == ctl ++ [0x0E] && n.ether == 0x88CC)
  || (isGroup b && n.ip && !n.v6 &&
      ((n.udp && (n.dport b == 319 || n.dport b == 320) && [[224, 0, 1, 129], [224, 0, 0, 107]].contains n.dst)
       || (n.proto == 2 && n.group)
       || (n.udp && n.dport b == 9875 && [[239, 255, 255, 255], [224, 2, 127, 254]].contains n.dst)))
  || (isGroup b && n.v6 &&
      ((n.udp && (n.dport b == 319 || n.dport b == 320) &&
          [v6Group 2 0 0x181, v6Group 5 0 0x181, v6Group 0xE 0 0x181, v6Group 2 0 0x6B].contains n.dst)
       || ((n.proto == 58 || (n.proto == 0 && byteAt b n.l4 == 58)) &&
          (n.dst == v6Group 2 0 1 || n.dst == v6Group 2 0 0x16 || Config.solicited port n.dst))
       || (n.udp && n.dport b == 9875 &&
          [v6Group 2 2 0x7FFE, v6Group 5 2 0x7FFE, v6Group 0xE 2 0x7FFE].contains n.dst)))

end Sys2Proof.Machine
end

