-- ==== Sys2Proof/Machine/Tsu.lean ====
section
/-! DEFINITION. Time stamps, the stamp queues, time triggers and captures (spec/10). -/
namespace Sys2Proof.Machine

/-- TS32 of an instant in ns (R314). -/
def ts32 (t : Int) : Nat := uint 32 t

/-! ### Stamping (R317 to R324) -/

/-- The internal latencies of port `n` at its speed (R318). -/
def ilatRx (speed : Nat) : Nat := match speed with | 0 => 42 | 1 => 96 | _ => 224
def ilatTx (speed : Nat) : Nat := match speed with | 0 => 28 | 1 => 72 | _ => 176

/-- Frames of port `n` are stamped (R317). -/
def Dev.stamping (d : Dev) (n : Nat) : Bool := d.on Reg.TSU_CFG_ENABLE && d.on (Reg.PTP_PCFG_ENABLE n)

/-- The corrected ingress and egress stamps of a raw stamp (R318). -/
def Dev.rxStamp (d : Dev) (n : Nat) (raw : Int) : Int :=
  raw - ilatRx (d.rd (Reg.MAC_STATUS_SPEED_NOW n)) - sint 16 (d.rd (Reg.TSU_LAT_RXLAT n))
def Dev.txStamp (d : Dev) (n : Nat) (raw : Int) : Int :=
  raw + ilatTx (d.rd (Reg.MAC_STATUS_SPEED_NOW n)) + sint 16 (d.rd (Reg.TSU_LAT_TXLAT n))

def Dev.stampQ (d : Dev) (q : Nat) : StampQ := Sparse.get {} d.ptp.stamps q

/-- The fill of stamp queue `q` (TSU_QSTAT). -/
def qstatFld (q : Nat) : Fld := ⟨0x15020, 8 * q + 5, 8 * q⟩

/-- Stamp queue `q` becomes `x`; TSU_QSTAT follows. -/
def Dev.setStampQ (d : Dev) (q : Nat) (x : StampQ) : Dev :=
  { d with ptp := { d.ptp with stamps := Sparse.put {} d.ptp.stamps q x } }.wr (qstatFld q) x.q.length

/-- The four words of an entry (R320): the stamp, its marks, the PTP message at `o` of frame `b`. -/
def stampEntry (t : Int) (isVoid oneStep udp : Bool) (b : List Nat) (o tag eseq : Nat) : List Nat :=
  [ts32 t,
   2 ^ 31 + bit isVoid * 2 ^ 30 + bit oneStep * 2 ^ 29 + bit udp * 2 ^ 28 + byteAt b (o + 4) * 2 ^ 20 + byteAt b o % 16 * 2 ^ 16
     + be16 b (o + 30),
   crc32c (slice b (o + 20) 10) % 65536 + tag * 65536,
   eseq % 2 ^ 32]

/-- A stamp is taken into queue `q`, or lost when the queue is full (R323). -/
def Dev.takeStamp (d : Dev) (q : Nat) (t : Int) (isVoid oneStep udp : Bool) (b : List Nat) (o tag : Nat) : Dev :=
  let s := d.stampQ q
  if s.q.length < 32 then
    d.setStampQ q { q := s.q ++ [stampEntry t isVoid oneStep udp b o tag s.eseq], eseq := s.eseq + 1 }
  else
    let d := (d.setStampQ q { s with eseq := s.eseq + 1 }).count (Reg.TSU_QLOST_COUNT q) Reg.TSU_STATUS_CNT_HALF
    let d := (d.wr (Reg.TSU_QLASTSEQ_SEQID q) (be16 b (o + 30))).flag Reg.TSU_STATUS_QLOST
    d.post 15 1 (q + be16 b (o + 30) * 2 ^ 16)

/-- The supervisor knows from a descriptor that the stamp of a frame of port `n` was lost: its direction, messageType and sequenceId
(R323). -/
def Dev.noteLost (d : Dev) (n : Nat) (egress : Bool) (ty seq : Nat) : Dev :=
  d.setPport n { d.pport n with lost := (egress, ty, seq) :: (d.pport n).lost }

/-- The sequenceId of a frame whose ingress stamp finds its queue full (R323). -/
def Dev.rxLost (d : Dev) (n : Nat) (b : List Nat) : Option Nat :=
  match ptpEvent b with
  | some (o, _) => if d.stamping n && decide (32 ≤ (d.stampQ (2 * n)).q.length) then some (be16 b (o + 30)) else none
  | none => none

/-- The ingress stamp of a received frame (R317, R322). -/
def Dev.stampRx (d : Dev) (n : Nat) (b : List Nat) (raw : Int) (dropped : Bool) : Dev :=
  match ptpEvent b with
  | some (o, udp) => if d.stamping n then d.takeStamp (2 * n) (d.rxStamp n raw) dropped false udp b o 0 else d
  | none => d

/-- The words that a read of the head of queue `q` returns (R321). -/
def Dev.stampHead (d : Dev) (q : Nat) : List Word :=
  ((d.stampQ q).q.headD [0, 0, 0, 0]).map (BitVec.ofNat 32 ·)

/-- Key of the word latched for agent `h` at `addr` (R27). -/
def latchKey (h : Agent) (addr : Nat) : Nat := 2 ^ 28 * agentCode h + addr

/-- Latch words at the addresses from `addr` on for agent `h`, by 4 bytes each. -/
def Dev.latchWords (d : Dev) (h : Agent) (addr : Nat) (ws : List Word) : Dev :=
  let new := ws.zipIdx.foldl (fun (l : Sparse Word) w => Sparse.put 0 l (latchKey h (addr + 4 * w.2)) w.1) d.fab.latch
  { d with fab := { d.fab with latch := new } }

/-- The read of TSU_QHEADq_0 (R321): only the supervisor removes the entry. -/
def Dev.readStamp (d : Dev) (h : Agent) (q : Nat) : Dev :=
  let ws := d.stampHead q
  let d := d.latchWords h (0x15044 + 0x10 * q) ws.tail
  let d := { d with fab := { d.fab with rdata := [ws.headD 0] } }
  if h = .sup then d.setStampQ q { d.stampQ q with q := (d.stampQ q).q.tail } else d

/-- STAMP_QUEUE_READ (R321). -/
def execStampQueueRead (h : Agent) (q : Fin 4) (s : State) : Host.Outcome State Fault Refusal :=
  onDev (fun d => d.readStamp h q) s

/-! ### Time triggers (R336 to R339) -/

def Dev.trig (d : Dev) (x : Nat) : Option Trig := Sparse.get none d.ptp.trigs x

/-- Trigger `x` is armed with `t`, or not armed. -/
def Dev.setTrig (d : Dev) (x : Nat) (t : Option Trig) : Dev :=
  { d with ptp := { d.ptp with trigs := Sparse.put none d.ptp.trigs x t } }.wr (Reg.TSU_TRIG_STAT_ARMED x) (bit t.isSome)

/-- TSU_TRIGx_CMD.ARM (R336). -/
def Dev.armGo (d : Dev) (x : Nat) : Dev :=
  let ns := d.rd (Reg.TSU_TRIG_NS_NS x)
  let per := d.rd (Reg.TSU_TRIG_PER_PER x)
  let t := (d.rd (Reg.TSU_TRIG_SECHI_SEC x) * 2 ^ 32 + d.rd (Reg.TSU_TRIG_SEC_SEC x)) * 10 ^ 9 + ns
  let why :=
    if ns > 999999999 ∨ (per ≠ 0 ∧ (per < 1000 ∨ per > 4000000000)) then 0x01
    else if t ≤ d.timeNs then 0x11
    else if t > d.timeNs + 2 ^ 32 then 0x10
    else 0
  let d := d.wr (Reg.TSU_TRIG_STAT_REASON x) why
  if why = 0 then d.setTrig x (some ⟨t, per⟩) else d

/-- ARM (R336). -/
def execArm (h : Agent) (x : Fin 16) (ns : Nat) (s : State) : Host.Outcome State Fault Refusal :=
  onDev (fun d => (d.at ns).hostCmd h (Reg.TSU_TRIG_CMD_ARM x) [] fun d => d.armGo x) s

/-- DISARM (R339). -/
def execDisarm (h : Agent) (x : Fin 16) (s : State) : Host.Outcome State Fault Refusal :=
  onDev (fun d => d.hostCmd h (Reg.TSU_TRIG_CMD_DISARM x) [] fun d => d.setTrig x none) s

/-- What the firing of trigger `x` records (R337, R338). -/
def Dev.trigFired (d : Dev) (x : Nat) (late : Bool) : Dev :=
  let t := ts32 d.timeNs
  let d := ((d.wr (Reg.TSU_TRIG_LAST_TS32 x) t).flag (Reg.TSU_TRIG_STAT_FIRED x)).flag Reg.TSU_STATUS_TRIG
  let d := if late then d.flag (Reg.TSU_TRIG_STAT_LATE x) else d
  if d.rd Reg.TSU_TRIG_EV_EV / 2 ^ x % 2 = 1 then d.post 15 2 (x + bit late * 2 ^ 8 + t * 2 ^ 32) else d

/-- The next target of a trigger that has fired (R337); `late`: the first of its series after the present instant (R338). -/
def Trig.next (t : Trig) (now : Nat) (late : Bool) : Option Trig :=
  if t.per = 0 then none
  else if late then some { t with target := t.target + ((now - t.target) / t.per + 1) * t.per }
  else some { t with target := t.target + t.per }

/-! ### Captures (R340, R341) -/

/-- Capture unit `c` stamps the instant `t` (R340). -/
def Dev.takeCapture (d : Dev) (c t : Nat) : Dev :=
  let sec := t / 10 ^ 9
  let d := ((d.wr (Reg.TSU_CAP_NS_TS32 c) (ts32 t)).wr (Reg.TSU_CAP_SEC_SEC c) (sec % 2 ^ 32)).wr
    (Reg.TSU_CAP_SECHI_SEC c) (sec / 2 ^ 32)
  let d := if d.on (Reg.TSU_CAP_STAT_NEW c) then d.flag (Reg.TSU_CAP_STAT_OVR c) else d
  ((d.flag (Reg.TSU_CAP_STAT_NEW c)).count (Reg.TSU_CAP_CNT_COUNT c) Reg.TSU_STATUS_CNT_HALF).flag Reg.TSU_STATUS_CAP

/-- Capture unit `c` runs (R340). -/
def Dev.captures (d : Dev) (c : Nat) : Bool := d.on Reg.TSU_CFG_ENABLE && d.on (Reg.TSU_CAP_CFG_EN c)

/-- An internal event of source `src` at the instant `t`: every unit that selects it stamps it (R340). -/
def Dev.captureAll (d : Dev) (src t : Nat) : Dev :=
  (List.range 8).foldl (fun (d : Dev) c =>
    if d.captures c && d.rd (Reg.TSU_CAP_CFG_SRC c) == src then d.takeCapture c t else d) d

/-- The tick boundary as a source (R341): the 250 MHz cycle in which internal time reaches it, less than 4 ns after it. -/
def Dev.captureTick (d : Dev) : Dev :=
  let (e, w) := d.fresh
  e.captureAll 22 (d.tick * 125000 + w.toNat % 4)

/-- CAPTURE (R340): an edge of the pin that unit `c` selects, if EDGE selects it. The boundary and the trigger fires are captured by
their own commands. -/
def execCapture (c : Fin 8) (rising : Bool) (ns : Nat) (s : State) : Host.Outcome State Fault Refusal :=
  onDev (fun d =>
    let d := d.at ns
    let src := d.rd (Reg.TSU_CAP_CFG_SRC c)
    let edge := d.rd (Reg.TSU_CAP_CFG_EDGE c)
    if d.captures c && decide (src < 22) && (edge == 2 || (edge == 0) == rising) && (decide (18 ≤ src) || d.pinEdge src rising) then
      d.takeCapture c d.timeNs
    else d) s

end Sys2Proof.Machine
end

