-- ==== Sys2Proof/Machine/Mac.lean ====
section
/-! DEFINITION. Ethernet ports: transmit queues, shapers, pauses, the damper, the link and SFP+ management (spec/09). -/
namespace Sys2Proof.Machine

def Dev.mac (d : Dev) (n : Nat) : Mac := if n = 0 then d.mac0 else d.mac1
def Dev.setMac (d : Dev) (n : Nat) (m : Mac) : Dev := if n = 0 then { d with mac0 := m } else { d with mac1 := m }
def Mac.queue (m : Mac) (q : Nat) : TxQueue := Sparse.get {} m.queues q
def Mac.setQueue (m : Mac) (q : Nat) (x : TxQueue) : Mac := { m with queues := Sparse.put {} m.queues q x }
def Dev.setQueue (d : Dev) (n q : Nat) (x : TxQueue) : Dev := d.setMac n ((d.mac n).setQueue q x)

/-- The event source of port `n` (R310). -/
def macSrc (n : Nat) : Nat := 11 + n

/-- Count `k` in counter `i` of port `n` (R308). -/
def Dev.macCount (d : Dev) (n i : Nat) (k : Nat := 1) : Dev :=
  let half := if i < 32 then Reg.MAC_CNTHALF0 n else Reg.MAC_CNTHALF1 n
  let was := d.rd (Reg.MAC_CNT n i)
  let d := d.countBit (Reg.MAC_CNT n i) half (i % 32) k
  if was / 2 ^ 31 = d.rd (Reg.MAC_CNT n i) / 2 ^ 31 then d else d.flag (Reg.MAC_STATUS_CNT_HALF n)

/-- Line rate in Mb/s by speed code, and tenths of a ns per bit (R279). -/
def rateOf (speed : Nat) : Nat := match speed with | 0 => 10000 | 1 => 2500 | _ => 1000
def bitTenths (speed : Nat) : Nat := match speed with | 0 => 1 | 1 => 4 | _ => 10
def Dev.speed (d : Dev) (n : Nat) : Nat := d.rd (Reg.MAC_STATUS_SPEED_NOW n)

/-- Frame length on the line: with the FCS, padded to 64 bytes. -/
def TxFrame.len (f : TxFrame) : Nat := max 64 (f.bytes.length + 4)

def queueLen (q : List TxFrame) : Nat := q.foldl (fun s f => s + f.len) 0

/-- The size bin of a frame, counted from the first (R308). -/
def sizeBin (len : Nat) : Nat :=
  if len ≤ 64 then 0 else if len ≤ 127 then 1 else if len ≤ 255 then 2 else if len ≤ 511 then 3 else if len ≤ 1023 then 4
  else if len ≤ 1518 then 5 else 6

/-- 0, 1, 2: a unicast, multicast or broadcast destination. -/
def castOf (b : List Nat) : Nat := if slice b 0 6 = List.replicate 6 255 then 2 else if isGroup b then 1 else 0

/-- MACn_ADDR as six bytes. -/
def Dev.macAddr (d : Dev) (p : Nat) : List Nat :=
  toBe 2 (d.rd (Reg.MAC_ADDR_HI_ADDR p)) ++ toBe 4 (d.rd (Reg.MAC_ADDR_LO_ADDR p))

/-! ### Time on a port (R293, R299) -/

/-- The damper acts on queue `q` (R299). -/
def Dev.damped (d : Dev) (n q : Nat) : Bool := d.on (Reg.MAC_QCFG_AUDIO n q) && d.on (Reg.MAC_QCFG_DAMPER_EN n q)

def Dev.shaped (d : Dev) (n q : Nat) : Bool :=
  (q == 5 && d.on (Reg.MAC_SHAPER5_EN n)) || (q == 6 && d.on (Reg.MAC_SHAPER6_EN n))
def Dev.idleSlope (d : Dev) (n q : Nat) : Nat :=
  if q = 5 then d.rd (Reg.MAC_SHAPER5_IDLESLOPE n) else d.rd (Reg.MAC_SHAPER6_IDLESLOPE n)
def Mac.credit (m : Mac) (q : Nat) : Int := if q = 5 then m.credit5 else m.credit6
def Mac.setCredit (m : Mac) (q : Nat) (x : Int) : Mac := if q = 5 then { m with credit5 := x } else { m with credit6 := x }

/-- MACn_PAUSE_STAT.PAUSED follows the queues. -/
def Dev.showPaused (d : Dev) (n : Nat) : Dev :=
  d.wr (Reg.MAC_PAUSE_STAT_PAUSED n) (bitsOf ((List.range 8).map fun q => ((d.mac n).queue q).paused))

def Dev.broken (d : Dev) (n q : Nat) : Bool := d.rd (Reg.MAC_PAUSE_STAT_BROKEN n) / 2 ^ q % 2 == 1
def Dev.setBroken (d : Dev) (n q : Nat) (b : Bool) : Dev :=
  d.wr (Reg.MAC_PAUSE_STAT_BROKEN n) (setBit (d.rd (Reg.MAC_PAUSE_STAT_BROKEN n)) q b)

/-- Of the next `e` tenths of a ns, how long queue `q` is paused: the timer runs out, or D reaches its limit and the pause ends
(R296, R299, R300). -/
def Dev.pausedPart (d : Dev) (n q e : Nat) : Nat :=
  let x := (d.mac n).queue q
  let p := min e x.left
  if d.damped n q && !x.q.isEmpty then min p (d.rd (Reg.MAC_FC_CFG_DAMPER_LIMIT n) * 10000 - x.d) else p

/-- The credit of shaped queue `q` after `e` tenths of a ns more (R293). -/
def Dev.creditAfter (d : Dev) (n q e : Nat) : Int :=
  let m := d.mac n
  let paused := d.pausedPart n q e
  let sent := if m.txQueue = q then min e (m.txEnd - m.now) else 0
  let c := m.credit q - (rateOf (d.speed n) - d.idleSlope n q : Int) * ((sent - paused : Nat) : Int)
  if (m.queue q).q.isEmpty then (if m.txQueue = q ∧ m.txEnd > m.now + e then c else min c 0)
  else c + d.idleSlope n q * ((e - max paused sent : Nat) : Int)

/-- Queue `q` after `e` tenths of a ns more: its pause timer, D and the time since its last nonzero pause frame (R296, R299, R301). -/
def Dev.queueAfter (d : Dev) (n q e : Nat) (x : TxQueue) : TxQueue :=
  let p := d.pausedPart n q e
  if d.damped n q && !x.q.isEmpty then
    let D := x.d + p
    { x with d := D, left := if D ≥ d.rd (Reg.MAC_FC_CFG_DAMPER_LIMIT n) * 10000 then 0 else x.left - p, quiet := x.quiet + e }
  else { x with left := x.left - p, quiet := x.quiet + e }

/-- Credits, pause timers and damper counts of port `n` run up to the present instant. -/
def Dev.macRun (d : Dev) (n : Nat) : Dev :=
  let m := d.mac n
  let e := 10 * d.timeNs - m.now
  let m' := [5, 6].foldl (fun m q => if d.shaped n q then m.setCredit q (d.creditAfter n q e) else m) m
  let qs : Sparse TxQueue := m.queues.map fun x => (x.1, d.queueAfter n x.1 e x.2)
  let d := d.setMac n { m' with queues := qs, now := m.now + e }
  let show_ := fun (c : Int) => uint 32 (if c % 10000 = 0 then c / 10000 else if Config.quotUp 0 c 10000 then c / 10000 + 1 else c / 10000)
  ((d.wr (Reg.MAC_CREDIT5_CREDIT n) (show_ m'.credit5)).wr (Reg.MAC_CREDIT6_CREDIT n) (show_ m'.credit6)).showPaused n

/-! ### Transmit queues (R290 to R293) -/

/-- The port's line and link can carry frames. -/
def Dev.portUp (d : Dev) (n : Nat) : Bool := d.on (Reg.MAC_CFG_ENABLE n) && d.on (Reg.MAC_STATUS_LINK n)

/-- Enqueue a frame in queue `q` of port `n`; `false` where the port cannot take it (R291). -/
def Dev.enqueue (d : Dev) (n q : Nat) (f : TxFrame) : Dev × Bool :=
  let x := (d.mac n).queue q
  let depth := d.rd (Reg.MAC_QCFG_DEPTH n q) * 1024
  if f.len > d.rd (Reg.MAC_CFG_MAXLEN n) then (d.macCount n 34, false)
  else if d.portUp n && decide (queueLen x.q + f.len ≤ depth) && depth != 0 then
    let d := d.macRun n
    let x := (d.mac n).queue q
    ((d.setQueue n q { x with q := x.q ++ [f] }).macCount n (40 + q), true)
  else (d, false)

/-- The supervisor sends a frame: one that is not taken is counted and discarded (R291). -/
def Dev.supSend (d : Dev) (n q : Nat) (f : TxFrame) : Dev :=
  let r := d.enqueue n q { f with bytes := insertSums f.bytes, sup := true }
  if r.2 then r.1 else r.1.macCount n (48 + q)

/-- Queue `q` may send now (R292). -/
def Dev.eligibleQ (d : Dev) (n q : Nat) : Bool :=
  let x := (d.mac n).queue q
  !x.q.isEmpty && !x.paused && (!d.shaped n q || decide ((d.mac n).credit q ≥ 0))

/-- The one-step insertion (R319): the frame as sent, and whether the stamp was inserted. -/
def oneStepFrame (f : TxFrame) (t : Int) : List Nat × Bool :=
  match ptpAt f.bytes with
  | none => (f.bytes, false)
  | some (o, udp) =>
    let stamp := toBe 6 (t / 10 ^ 9).toNat ++ toBe 4 (t % 10 ^ 9).toNat
    let n := parseNet f.bytes
    let b := patch f.bytes (o + 34) stamp
    if !udp then (b, true)
    else if !n.v6 then (patch b (n.l4 + 6) [0, 0], true)
    else if n.ulen f.bytes = 8 + be16 f.bytes (o + 2) + 2 then
      -- the trailer makes up for the inserted stamp, so that the checksum of the message as handed over stays valid
      let z := patch f.bytes (n.l4 + 6) [0, 0]
      let s := udpSum z
      let sum := fun x => fold16 (sum16 ((parseNet x).pseudo (n.ulen x) ++ slice x n.l4 (n.ulen x)))
      let tr := n.l4 + n.ulen f.bytes - 2
      let b0 := patch (patch b (n.l4 + 6) [0, 0]) tr [0, 0]
      let want := fold16 (sum z + (65535 - sum b0))
      (patch (patch b0 tr (toBe 2 want)) (n.l4 + 6) (toBe 2 s), true)
    else (f.bytes, false)

/-- The stamp of a frame that leaves (R317, R319, R323): its completion descriptor tells of a stamp that is lost. -/
def Dev.stampTx (d : Dev) (n : Nat) (f : TxFrame) (t : Int) : Dev :=
  let done := fun (d : Dev) (line : List Nat) (lost : Option Nat) =>
    d.setMac n { d.mac n with line := line, txDone := if f.sup then [{ tag := f.tag, lost := lost }] else (d.mac n).txDone }
  match ptpAt f.bytes with
  | some (o, udp) =>
    if (f.stamp || f.oneStep) && d.stamping n then
      let r := if f.oneStep then oneStepFrame f t else (f.bytes, false)
      let seq := be16 f.bytes (o + 30)
      let lost := if 32 ≤ (d.stampQ (2 * n + 1)).q.length then some seq else none
      let d := if lost.isSome then d.noteLost n true (byteAt f.bytes o % 16) seq else d
      done (d.takeStamp (2 * n + 1) t false r.2 udp f.bytes o f.tag) r.1 lost
    else done d f.bytes none
  | none => done d f.bytes none

/-- TX_FRAME (R292, R317): on a free line the first frame of the highest eligible queue leaves. -/
def execTxFrame (n : Fin 2) (lag ns : Nat) (s : State) : Host.Outcome State Fault Refusal :=
  onDev (fun d =>
    let d := (d.at ns).macRun n
    match ((List.range 8).reverse.find? fun q => d.eligibleQ n q) with
    | none => d
    | some q =>
      if !d.portUp n || decide ((d.mac n).now < (d.mac n).txEnd) then d else
      let x := (d.mac n).queue q
      match x.q with
      | [] => d
      | f :: rest =>
        let m := (d.mac n).setQueue q { x with q := rest, d := if rest.isEmpty then 0 else x.d }
        let d := d.setMac n { m with txQueue := q, txEnd := m.now + (f.len + 20) * 8 * bitTenths (d.speed n) }
        let d := (d.macCount n 22).macCount n 23 f.len
        let d := (d.macCount n (24 + castOf f.bytes)).macCount n (27 + sizeBin f.len)
        d.stampTx n f (d.txStamp n (d.timeNs + lag))) s

/-! ### Pauses (R296 to R298) -/

/-- One queue is named with a time of `time` quanta of 512 bit times (R279, R296, R298, R300). -/
def Dev.pauseQueue (d : Dev) (n q time : Nat) (pfc : Bool) : Dev :=
  let x := (d.mac n).queue q
  if time = 0 then d.setQueue n q { x with left := 0, d := 0 }
  else if d.broken n q then d.setQueue n q { x with ignored := x.ignored + 1, quiet := 0 }
  else d.setQueue n q { x with left := time * 512 * bitTenths (d.speed n), pfc := pfc, quiet := 0 }

/-- A control frame names queues with times (R296, R300). -/
def Dev.pauseFrame (d : Dev) (n : Nat) (named : List (Nat × Nat)) (pfc : Bool) : Dev :=
  let d := d.macRun n
  let d := if named.any fun e => e.2 != 0 && d.broken n e.1 then d.macCount n 37 else d
  (named.foldl (fun d e => d.pauseQueue n e.1 e.2 pfc) d).showPaused n

/-- A frame with EtherType 0x8808 is consumed (R296). -/
def Dev.macControl (d : Dev) (n : Nat) (b : List Nat) : Dev :=
  match be16 b 14 with
  | 0x0001 =>
    let d := d.macCount n 5
    if d.on (Reg.MAC_CFG_RX_PAUSE_EN n) then d.pauseFrame n ((List.range 8).map fun q => (q, be16 b 16)) false else d
  | 0x0101 =>
    let d := d.macCount n 6
    if d.on (Reg.MAC_CFG_RX_PFC_EN n) then
      d.pauseFrame n (((List.range 8).filter fun q => be16 b 16 / 2 ^ q % 2 == 1).map fun q => (q, be16 b (18 + 2 * q))) true
    else d
  | _ => d.macCount n 20

/-- PAUSE_EXPIRY (R296): the pause timer of the queue has run out at this instant. -/
def execPauseExpiry (n : Fin 2) (q : Fin 8) (ns : Nat) (s : State) : Host.Outcome State Fault Refusal :=
  onDev (fun d => let r := (d.at ns).macRun n; if ((r.mac n).queue q).paused then d else r) s

/-! ### The damper (R299 to R301) -/

/-- DAMPER_BREAK (R300): D has reached its limit. -/
def execDamperBreak (n : Fin 2) (q : Fin 8) (ns : Nat) (s : State) : Host.Outcome State Fault Refusal :=
  onDev (fun d =>
    let d := (d.at ns).macRun n
    let x := (d.mac n).queue q
    if d.damped n q && !x.q.isEmpty && decide (d.rd (Reg.MAC_FC_CFG_DAMPER_LIMIT n) * 10000 ≤ x.d) && !d.broken n q then
      let d := ((d.setQueue n q { x with left := 0, ignored := 0 }).setBroken n q true).showPaused n
      ((d.macCount n (56 + q)).flag (Reg.MAC_STATUS_DAMPEREV n)).post (macSrc n) 3 (q + bit x.pfc * 2 ^ 8)
    else d) s

/-- DAMPER_CLOSE (R301): no nonzero pause frame has named the queue for DAMPER_OPEN ms. -/
def execDamperClose (n : Fin 2) (q : Fin 8) (ns : Nat) (s : State) : Host.Outcome State Fault Refusal :=
  onDev (fun d =>
    let d := (d.at ns).macRun n
    let x := (d.mac n).queue q
    if d.broken n q && decide (d.rd (Reg.MAC_FC_CFG_DAMPER_OPEN n) * 10000000 ≤ x.quiet) then
      let d := (d.setQueue n q { x with d := 0, ignored := 0 }).setBroken n q false
      (d.flag (Reg.MAC_STATUS_DAMPEREV n)).post (macSrc n) 4 (q + x.ignored * 2 ^ 32)
    else d) s

/-! ### The link (R279 to R283, R310) -/

/-- The link of port `n` goes down: queues are flushed, pauses and damper states end (R281), and its SyncE candidate is lost (R345). -/
def Dev.linkDown (d : Dev) (n cause : Nat) : Dev :=
  if d.on (Reg.MAC_STATUS_LINK n) then
    let d := d.macRun n
    let lost := (d.mac n).queues.foldl (fun k e => k + e.2.q.length) 0
    let flushed := (d.mac n).queues.flatMap fun e => (e.2.q.filter (·.sup)).map fun f => ({ tag := f.tag, flushed := true } : TxDesc)
    let d := d.setMac n { d.mac n with queues := [], txEnd := (d.mac n).now, txQueue := 8, txDone := flushed }
    let d := ((d.wr (Reg.MAC_PAUSE_STAT_BROKEN n) 0).showPaused n).macCount n 35 lost
    let d := ((d.macCount n 36).wr (Reg.MAC_STATUS_LINK n) 0).wr (Reg.MAC_STATUS_AN_DONE n) 0
    ((d.flag (Reg.MAC_STATUS_LINKEV n)).post (macSrc n) 2 cause).candCheck (2 + n)
  else d

/-- Auto-negotiation runs (R280). -/
def Dev.negotiates (d : Dev) (n : Nat) : Bool := d.on (Reg.MAC_CFG_AN_EN n) && d.rd (Reg.MAC_CFG_SPEED n) == 2

/-- The base page that the port advertises (R280): bit 5 full duplex, and bits 7 and 8, PAUSE and ASM_DIR, as RX_PAUSE_EN has it. -/
def Dev.advertised (d : Dev) (n : Nat) : Nat := 2 ^ 5 + d.rd (Reg.MAC_CFG_RX_PAUSE_EN n) * (2 ^ 7 + 2 ^ 8)

/-- LINKUP (R280, R281); `partner`: the base page of the partner. One that offers no full duplex never brings the link up. -/
def execLinkup (n : Fin 2) (partner : BitVec 16) (ns : Nat) (s : State) : Host.Outcome State Fault Refusal :=
  onDev (fun d =>
    let d := d.at ns
    let an := d.negotiates n
    if d.on (Reg.MAC_CFG_ENABLE n) && !d.stopped (11 + n) && !d.on (Reg.MAC_STATUS_LINK n) && (!an || partner[5]) then
      let d := d.macRun n
      let d := [Reg.MAC_STATUS_RFAULT n, Reg.MAC_STATUS_LFAULT n, Reg.MAC_STATUS_TXFAULT n, Reg.MAC_STATUS_LOS n].foldl
        (fun d f => d.wr f 0) d
      let d := ((d.wr (Reg.MAC_STATUS_LINK n) 1).wr (Reg.MAC_STATUS_AN_DONE n) (bit an)).wr (Reg.MAC_STATUS_PARTNER_PAUSE n)
        (bit (an && partner[7]))
      ((d.flag (Reg.MAC_STATUS_LINKEV n)).post (macSrc n) 1 (d.speed n)).candCheck (2 + n)
    else d) s

/-- LINKDOWN (R281, R310): loss of signal, loss of lock, a remote fault or a local fault; of several the lowest code is reported. -/
def execLinkdown (n : Fin 2) (los lock rfault lfault : Bool) (ns : Nat) (s : State) : Host.Outcome State Fault Refusal :=
  onDev (fun d =>
    let d := d.at ns
    let d := ((d.wr (Reg.MAC_STATUS_LOS n) (bit los)).wr (Reg.MAC_STATUS_RFAULT n) (bit rfault)).wr
      (Reg.MAC_STATUS_LFAULT n) (bit lfault)
    if los || lock || rfault || lfault then d.linkDown n (if los then 0 else if lock then 1 else if rfault then 2 else 3) else d) s

/-- SFPn_TXDIS (R283, R304, R306). -/
def Dev.sfpTxdis (d : Dev) (n : Nat) : Bool :=
  d.outputsHeld || !d.on (Reg.MAC_CFG_ENABLE n) || !d.on (Reg.MAC_STATUS_SFP_PRESENT n) || decide (d.timeNs < (d.mac n).pulse)

/-- SFPn_RS (R304). -/
def Dev.sfpRs (d : Dev) (n : Nat) : Bool := d.speed n == 0

/-- What a commit of port `n`'s group means: `was` is its configuration word before (R282, R283, R310). -/
def Dev.macCommit (d : Dev) (n : Nat) (was : Word) : Dev :=
  let d := d.macRun n
  let en := (Reg.MAC_CFG_ENABLE n).get was == 1
  let changed := (Reg.MAC_CFG_SPEED n).get was != d.rd (Reg.MAC_CFG_SPEED n) || (Reg.MAC_CFG_AN_EN n).get was != d.rd (Reg.MAC_CFG_AN_EN n)
  let d := if en && changed then d.linkDown n 4 else if en && !d.on (Reg.MAC_CFG_ENABLE n) then d.linkDown n 5 else d
  let d := if !en && d.on (Reg.MAC_CFG_ENABLE n) then d.setMac n { d.mac n with gaveUp := false } else d
  let sp := d.rd (Reg.MAC_CFG_SPEED n)
  ((d.wr (Reg.MAC_STATUS_SPEED_NOW n) sp).wr (Reg.TSU_ILAT_RX n) (ilatRx sp)).wr (Reg.TSU_ILAT_TX n) (ilatTx sp)

/-! ### SFP+ modules (R304 to R307) -/

/-- Post an event of the module and set SFPEV. -/
def Dev.sfpEvent (d : Dev) (n code arg : Nat) : Dev := (d.flag (Reg.MAC_STATUS_SFPEV n)).post (macSrc n) code arg

/-- SFPn_MODABS has held its level for 100 ms, so that no two debounced changes lie closer (R304). -/
def Dev.modSettled (d : Dev) (n : Nat) : Bool := (d.mac n).modAt.all fun t => decide (t + 100000000 ≤ d.timeNs)

/-- SFP_INSERT (R304). -/
def execSfpInsert (n : Fin 2) (ns : Nat) (s : State) : Host.Outcome State Fault Refusal :=
  onDev (fun d =>
    let d := d.at ns
    if d.on (Reg.MAC_STATUS_SFP_PRESENT n) || !d.modSettled n then d
    else
      let d := d.setMac n { d.mac n with modAt := some d.timeNs, idDue := true, diag := none }
      (d.wr (Reg.MAC_STATUS_SFP_PRESENT n) 1).sfpEvent n 5 0) s

/-- SFP_REMOVE (R304). -/
def execSfpRemove (n : Fin 2) (ns : Nat) (s : State) : Host.Outcome State Fault Refusal :=
  onDev (fun d =>
    let d := d.at ns
    if d.on (Reg.MAC_STATUS_SFP_PRESENT n) && d.modSettled n then
      let d := d.setMac n { d.mac n with faultAt := none, gaveUp := false, modAt := some d.timeNs, idDue := false }
      ((d.wr (Reg.MAC_STATUS_SFP_PRESENT n) 0).wr (Reg.MAC_STATUS_TXFAULT n) 0).sfpEvent n 6 0
    else d) s

/-- The supervisor runs and reads the module that is present (R305). -/
def Dev.sfpPolled (d : Dev) (n : Nat) : Bool := d.supRuns && d.on (Reg.MAC_STATUS_SFP_PRESENT n)

/-- SFP_ID_READ (R305): once for each insertion. -/
def execSfpIdRead (n : Fin 2) (id : Word) (s : State) : Host.Outcome State Fault Refusal :=
  onDev (fun d =>
    if d.sfpPolled n && (d.mac n).idDue then (d.setMac n { d.mac n with idDue := false }).wr (Reg.MAC_SFPID n) id.toNat else d) s

/-- SFP_DIAG_POLL (R305): after the identification, once a second. -/
def execSfpDiagPoll (n : Fin 2) (d0 d1 : Word) (rx alarms : BitVec 16) (s : State) : Host.Outcome State Fault Refusal :=
  onDev (fun d =>
    if !d.sfpPolled n || (d.mac n).idDue || ((d.mac n).diag.any fun t => decide (d.tick < t + 8000)) then d else
    let d := ((d.setWord (Reg.MAC_SFPDIAG0_TEMP n).addr d0).setWord (Reg.MAC_SFPDIAG1_TXBIAS n).addr d1).wr (Reg.MAC_SFPDIAG2_RXPWR n) rx.toNat
    let d := (d.wr (Reg.MAC_SFPDIAG2_STALE n) 0).setMac n { d.mac n with diag := some d.tick }
    if alarms ≠ 0 then d.sfpEvent n 7 (2 + alarms.toNat * 2 ^ 8) else d) s

/-- Diagnostics more than 3 s old read STALE (R305). -/
def Dev.sfpStale (d : Dev) (n : Nat) : Dev :=
  match (d.mac n).diag with
  | some t => if d.tick > t + 24000 then d.wr (Reg.MAC_SFPDIAG2_STALE n) 1 else d
  | none => d

/-- SFP_FAULT (R306): SFPn_TXFAULT of the module goes high. The supervisor pulses SFPn_TXDIS, once; a module that it has given up is left
as it is. -/
def execSfpFault (n : Fin 2) (ns : Nat) (s : State) : Host.Outcome State Fault Refusal :=
  onDev (fun d =>
    if !d.on (Reg.MAC_STATUS_SFP_PRESENT n) || d.on (Reg.MAC_STATUS_TXFAULT n) then d else
    let d := ((d.at ns).wr (Reg.MAC_STATUS_TXFAULT n) 1).linkDown n 3
    if (d.mac n).gaveUp then d
    else
      let d := d.sfpEvent n 7 0
      d.setMac n { d.mac n with pulse := d.timeNs + 100000, faultAt := some d.timeNs }) s

/-- TXFAULT_PERSISTS (R306): TX_FAULT is still high 100 ms later, and the module is given up. -/
def execTxfaultPersists (n : Fin 2) (s : State) : Host.Outcome State Fault Refusal :=
  onDev (fun d =>
    if d.on (Reg.MAC_STATUS_TXFAULT n) && d.supRuns && (d.mac n).faultAt.any fun t => decide (t + 100000000 ≤ d.timeNs) then
      (d.setMac n { d.mac n with faultAt := none, gaveUp := true }).sfpEvent n 7 1
    else d) s

/-- A module read completes (R307). -/
def Dev.sfpAnswer (d : Dev) (n : Nat) (data : Nat) (acked : Bool) : Dev :=
  let len := d.rd (Reg.MAC_SFPCMD_LEN n) + 1
  let acked := acked && d.on (Reg.MAC_STATUS_SFP_PRESENT n)
  let d := d.wr (Reg.MAC_SFPDATA_DATA n) (if acked then data % 256 ^ len else 0)
  ((d.wr (Reg.MAC_SFPRES_NACK n) (bit (!acked))).wr (Reg.MAC_SFPRES_VALID n) 1).flag (Reg.MAC_STATUS_SFPDONE n)

/-- GO written without the module's answer at hand: what it answers is free (R307). -/
def Dev.sfpGo (d : Dev) (n : Nat) : Dev :=
  let (d, x) := d.fresh
  let (d, y) := d.fresh
  d.sfpAnswer n x.toNat (y.toNat % 2 == 1)

/-- SFP_READ (R307). -/
def execSfpRead (h : Agent) (n : Fin 2) (dev : Bool) (offset : BitVec 8) (len : BitVec 2) (data : Word) (acked : Bool)
    (s : State) : Host.Outcome State Fault Refusal :=
  onDev (fun d => d.hostCmd h (Reg.MAC_SFPCMD_GO n)
    [(Reg.MAC_SFPCMD_DEV n, bit dev), (Reg.MAC_SFPCMD_OFFSET n, offset.toNat), (Reg.MAC_SFPCMD_LEN n, len.toNat)]
    fun d => d.sfpAnswer n data.toNat acked) s

end Sys2Proof.Machine
end

