-- ==== Sys2Proof/Machine/FlowDesc.lean ====
section
/-! DEFINITION. The words of a flow: descriptor, match records and header templates; the frames that the supervisor sends for flows
(spec/07). -/
namespace Sys2Proof.Machine

/-! ### Fields of a descriptor (R235, R248) -/

def dField (ds : List Nat) (i hi lo : Nat) : Nat := bits (ds.getD i 0) hi lo
def dEnable (ds : List Nat) : Bool := dField ds 0 0 0 == 1
def dPath (ds : List Nat) (p : Nat) : Bool := dField ds 0 (1 + p) (1 + p) == 1
def dL24 (ds : List Nat) : Bool := dField ds 0 4 4 == 1
def dRate96 (ds : List Nat) : Bool := dField ds 0 5 5 == 1
def dProt (ds : List Nat) : Bool := dField ds 0 6 6 == 1
def dHearth (ds : List Nat) : Nat := dField ds 0 7 7
def dSsrcChk (ds : List Nat) : Bool := dField ds 0 8 8 == 1
def dUdpCsum (ds : List Nat) : Bool := dField ds 0 8 8 == 1
def dConceal (ds : List Nat) : Bool := dField ds 0 9 9 == 1
def dAnnounce (ds : List Nat) : Bool := dField ds 0 9 9 == 1
def dTxWait (ds : List Nat) : Bool := dField ds 0 10 10 == 1
def dHold (ds : List Nat) : Nat := dField ds 0 14 12
def dChannels (ds : List Nat) : Nat := dField ds 0 22 16
def dPtime (ds : List Nat) : Nat := dField ds 0 25 24
def dFirst (ds : List Nat) : Nat := dField ds 1 9 0
def dOffset (ds : List Nat) : Nat := dField ds 1 26 16
def dSeqInit (ds : List Nat) : Nat := dField ds 1 31 16
def dPt (ds : List Nat) : Nat := dField ds 2 6 0
def dQueue (ds : List Nat) (p : Nat) : Nat := dField ds 2 (10 + 4 * p) (8 + 4 * p)
def dHdrLen (ds : List Nat) (p : Nat) : Nat := dField ds 2 (22 + 8 * p) (16 + 8 * p)
def dSsrc (ds : List Nat) : Nat := dField ds 3 31 0
def dRtpOffset (ds : List Nat) : Nat := dField ds 4 31 0

/-- N of the flow's family, ticks per packet, samples per packet, bytes per sample, payload bytes (R238, R250). -/
def dN (ds : List Nat) : Nat := if dRate96 ds then 12 else 6
def dTicks (ds : List Nat) : Nat := match dPtime ds with | 0 => 1 | 1 => 2 | _ => 8
def dSamples (ds : List Nat) : Nat := dN ds * dTicks ds
def dBytes (ds : List Nat) : Nat := if dL24 ds then 3 else 2
def dPayload (ds : List Nat) : Nat := dChannels ds * dBytes ds * dSamples ds

/-- The enabled paths of a flow. -/
def dPaths (ds : List Nat) : List Nat := [0, 1].filter (dPath ds)

/-! ### Match records and header templates (R236, R249) -/

def rV6 (r : List Nat) : Bool := dField r 0 0 0 == 1
def rSrcChk (r : List Nat) : Bool := dField r 0 1 1 == 1
def rVlanChk (r : List Nat) : Bool := dField r 0 2 2 == 1
def rVid (r : List Nat) : Nat := dField r 0 15 4
def rPort (r : List Nat) : Nat := dField r 0 31 16
def rDstAll (r : List Nat) : List Nat := (List.range 4).flatMap fun i => leBytes (r.getD (1 + i) 0)
def rSrcAll (r : List Nat) : List Nat := (List.range 4).flatMap fun i => leBytes (r.getD (5 + i) 0)
def rDst (r : List Nat) : List Nat := (rDstAll r).take (if rV6 r then 16 else 4)
def rSrc (r : List Nat) : List Nat := (rSrcAll r).take (if rV6 r then 16 else 4)
def rMulticast (r : List Nat) : Bool := if rV6 r then byteAt (rDst r) 0 == 0xFF else byteAt (rDst r) 0 / 16 == 14

/-- A match record keeps R236. -/
def recOk (r : List Nat) : Bool :=
  let zero := fun (b : List Nat) => (b.drop 4).all (· == 0)
  (!rVlanChk r || (decide (1 ≤ rVid r) && decide (rVid r ≤ 4094)))
  && (rV6 r || (zero (rDstAll r) && zero (rSrcAll r)))

/-- What a record compares of a frame. -/
def recKey (r : List Nat) : Bool × List Nat × Nat × Option Nat × Option (List Nat) :=
  (rV6 r, rDst r, rPort r, if rVlanChk r then some (rVid r) else none, if rSrcChk r then some (rSrc r) else none)

/-- The header a match record implies (R255). -/
def recHeader (r : List Nat) : Nat := (if rV6 r then 74 else 54) + (if rVlanChk r then 4 else 0)

/-- The template of path `p` keeps R249. -/
def hdrOk (ds : List Nat) (p : Nat) (h : List Nat) : Bool :=
  let n := parseNet h
  let rtp := n.l4 + 8
  n.udp && n.ether == (if n.v6 then 0x86DD else 0x0800)
  && (n.v6 || (byteAt h n.l3 == 0x45 && byteAt h (n.l3 + 6) / 64 % 2 == 1))
  && byteAt h rtp == 0x80 && byteAt h (rtp + 1) % 128 == dPt ds && rtp + 12 == dHdrLen ds p

/-! ### Frames of the supervisor (R256, R289)

The spec names the protocols; the layout of their packets is PRESUMED from RFC 3376, RFC 3810, RFC 2974 and RFC 4566 (log entry 146).
The MAC inserts the IPv4 header and the UDP checksum (R289). -/

/-- The source address of the supervisor's frames on port `p`. -/
def srcAddr (p : Nat) (v6 : Bool) : List Nat :=
  (List.range (if v6 then 16 else 4)).map fun i => (Config.portAddr p v6 i).toNat

/-- The Ethernet group of an IP group. -/
def groupMac (v6 : Bool) (g : List Nat) : List Nat :=
  if v6 then [0x33, 0x33] ++ g.drop 12 else [0x01, 0x00, 0x5E, byteAt g 1 % 128, byteAt g 2, byteAt g 3]

/-- A frame to an IP group: hop limit, protocol, IPv4 options or IPv6 extension header, payload. -/
def groupFrame (v6 : Bool) (mac src dst : List Nat) (hops proto : Nat) (opts payload : List Nat) : List Nat :=
  let len := opts.length + payload.length
  let ip := if v6 then [0x60, 0, 0, 0] ++ toBe 2 len ++ [if opts.isEmpty then proto else 0, hops] ++ src ++ dst
    else [0x45 + opts.length / 4, 0] ++ toBe 2 (20 + len) ++ [0, 0, 0x40, 0, hops, proto, 0, 0] ++ src ++ dst
  groupMac v6 dst ++ mac ++ toBe 2 (if v6 then 0x86DD else 0x0800) ++ ip ++ opts ++ payload

/-- Why a membership report is sent: the membership begins, holds, or ends. -/
inductive Member where
  | joins | holds | leaves
  deriving DecidableEq, Repr

/-- The type of the group record: for a source-specific membership, and for one of every source. -/
def Member.record (m : Member) (ssm : Bool) : Nat :=
  match m, ssm with
  | .joins, true => 3 | .holds, true => 1 | .leaves, true => 6
  | .joins, false => 4 | .holds, false => 2 | .leaves, false => 3

/-- The IGMPv3 or MLDv2 report of one membership on port `p` (R256): INCLUDE for the source of a source-specific join, EXCLUDE with no
sources otherwise. -/
def memberReport (p : Nat) (mac : List Nat) (m : Member) (group : List Nat) (src : Option (List Nat)) : List Nat :=
  let v6 := group.length == 16
  let rec_ := [m.record src.isSome, 0] ++ toBe 2 (if src.isSome then 1 else 0) ++ group ++ src.getD []
  let body := fun (c : Nat) => [if v6 then 143 else 0x22, 0] ++ toBe 2 c ++ [0, 0, 0, 1] ++ rec_
  let dst := if v6 then v6Group 2 0 0x16 else [224, 0, 0, 22]
  let me := srcAddr p v6
  let pseudo := if v6 then me ++ dst ++ toBe 4 (body 0).length ++ [0, 0, 0, 58] else []
  groupFrame v6 mac me dst 1 2 (if v6 then [58, 0, 5, 2, 0, 0, 1, 0] else [0x94, 4, 0, 0]) (body (inetSum (pseudo ++ body 0)))

/-- The group and source that a live path's membership is of; none for a unicast destination. -/
def membership (r : List Nat) : Option (List Nat × Option (List Nat)) :=
  if rMulticast r then some (rDst r, if rSrcChk r then some (rSrc r) else none) else none

def text (s : String) : List Nat := s.toList.map Char.toNat
def decimal (x : Nat) : List Nat := (Nat.toDigits 10 x).map Char.toNat
def hexByte (x : Nat) : List Nat := ((Nat.toDigits 16 (256 + x % 256)).drop 1).map fun c => c.toUpper.toNat

/-- Byte strings joined by the byte `sep`. -/
def joined (sep : Nat) : List (List Nat) → List Nat
  | [] => []
  | [x] => x
  | x :: t => x ++ [sep] ++ joined sep t

/-- An IP address as text. -/
def addrText (a : List Nat) : List Nat :=
  if a.length = 16 then joined 58 ((List.range 8).map fun i => hexByte (byteAt a (2 * i)) ++ hexByte (byteAt a (2 * i + 1)))
  else joined 46 (a.map decimal)

/-- The SDP text of transmit flow `f` on path `p` (R256), with the grandmaster identity `gm`: the group, the port, L16 or L24 with its
rate and channel count, the ptime, mediaclk:direct with RTP_OFFSET and the grandmaster identity. -/
def sdpText (ds h : List Nat) (f p : Nat) (gm : List Nat) : List Nat :=
  let n := parseNet h
  let line := fun (x : List Nat) => x ++ [13, 10]
  let pt := decimal (dPt ds)
  line (text "v=0") ++ line ((Config.sdpOrigin f p).map (·.toNat)) ++ line ((Config.sdpName f p).map (·.toNat))
  ++ line (text (if n.v6 then "c=IN IP6 " else "c=IN IP4 ") ++ addrText n.dst ++ (if n.v6 then [] else 47 :: decimal (byteAt h (n.l3 + 8))))
  ++ line (text "t=0 0")
  ++ line (text "m=audio " ++ decimal (n.dport h) ++ text " RTP/AVP " ++ pt)
  ++ line (text "a=rtpmap:" ++ pt ++ text (if dL24 ds then " L24/" else " L16/") ++ text (if dRate96 ds then "96000/" else "48000/")
      ++ decimal (dChannels ds))
  ++ line (text "a=ptime:" ++ text (match dPtime ds with | 0 => "0.125" | 1 => "0.250" | _ => "1"))
  ++ line (text "a=ts-refclk:ptp=IEEE1588-2008:" ++ joined 45 (gm.map hexByte))
  ++ line (text "a=mediaclk:direct=" ++ decimal (dRtpOffset ds))

/-- The SAP announcement of transmit flow `f` on path `p`, or its deletion (R256). -/
def sapFrame (ds h : List Nat) (f p : Nat) (mac gm : List Nat) (gone : Bool) : List Nat :=
  let n := parseNet h
  let me := srcAddr p n.v6
  let dst := if n.v6 then v6Group (byteAt n.dst 1 % 16) 2 0x7FFE
    else if byteAt n.dst 0 = 239 then [239, 255, 255, 255] else [224, 2, 127, 254]
  let body := if gone then (Config.sdpOrigin f p).map (·.toNat) ++ [13, 10] else sdpText ds h f p gm
  let sap := [0x20 + bit n.v6 * 16 + bit gone * 4, 0] ++ toBe 2 (Config.sapHash f p).toNat ++ me ++ text "application/sdp" ++ [0] ++ body
  let udp := toBe 2 9875 ++ toBe 2 9875 ++ toBe 2 (8 + sap.length) ++ [0, 0] ++ sap
  groupFrame n.v6 mac me dst 255 17 [] udp

end Sys2Proof.Machine
end

