-- ==== Sys2Proof/Machine/Flow.lean ====
section
/-! DEFINITION. Network flows: descriptors, APPLY and STOP, the gather, the flue (spec/07). -/
namespace Sys2Proof.Machine

def Dev.rxf (d : Dev) (f : Nat) : RxFlow := Sparse.get {} d.flw.rx f
def Dev.setRxf (d : Dev) (f : Nat) (x : RxFlow) : Dev := { d with flw := { d.flw with rx := Sparse.put {} d.flw.rx f x } }
def Dev.txf (d : Dev) (f : Nat) : TxFlow := Sparse.get {} d.flw.tx f
def Dev.setTxf (d : Dev) (f : Nat) (x : TxFlow) : Dev := { d with flw := { d.flw with tx := Sparse.put {} d.flw.tx f x } }

/-! ### Flow table memory (R231) -/

/-- The staged word at word offset `i` of flow table memory. -/
def Dev.flowWord (d : Dev) (i : Nat) : Nat := (Sparse.get 0 d.flw.mem i).toNat

/-- The staged descriptor, match records and header templates of a flow. -/
def Dev.stagedDesc (d : Dev) (tx : Bool) (f : Nat) : List Nat :=
  (List.range 5).map fun i => d.flowWord ((if tx then 4096 else 0) + 16 * f + i)
def Dev.stagedRec (d : Dev) (f path : Nat) : List Nat := (List.range 9).map fun i => d.flowWord (16384 + 32 * f + 16 * path + i)
def Dev.stagedHdr (d : Dev) (f path : Nat) : List Nat :=
  (List.range 32).flatMap fun i => leBytes (d.flowWord (24576 + 64 * f + 32 * path + i))

/-! ### Live flows -/

def Dev.liveRx (d : Dev) : List (Nat × RxFlow) := d.flw.rx.filter fun e => e.2.live
def Dev.liveTx (d : Dev) : List (Nat × TxFlow) := d.flw.tx.filter fun e => e.2.live

/-- Channel ranges meet. -/
def chansMeet (a b : List Nat) : Bool := runsMeet (dFirst a, dChannels a) (dFirst b, dChannels b)

/-- The load of a flow on one of its ports in bit/s (R254). -/
def txLoad (ds : List Nat) (p : Nat) : Nat := (max (dHdrLen ds p + dPayload ds + 4) 64 + 20) * 8 * 8000 / dTicks ds

/-- The load of the live transmit flows on port `p`, flow `f` excepted. -/
def Dev.portLoad (d : Dev) (p : Nat) (f : Option Nat) : Nat :=
  d.liveTx.foldl (fun s e => if some e.1 ≠ f ∧ dPath e.2.desc p then s + txLoad e.2.desc p else s) 0

/-- The largest frame of a flow on port `p` (R255). -/
def largestFrame (tx : Bool) (ds : List Nat) (recs : List (List Nat)) (p : Nat) : Nat :=
  (if tx then dHdrLen ds p else recHeader (recs.getD p [])) + dPayload ds + 4

/-! ### The flow consistency check (R232, R235, R246, R254, R255, R258) -/

/-- The codes of the failing tests of a flow. -/
def Dev.flowFails (d : Dev) (tx : Bool) (f : Nat) (ds : List Nat) (recs : List (List Nat)) : List Nat :=
  let if_ := fun (b : Bool) (c : Nat) => if b then [c] else []
  let n := dN ds
  let ps := dPaths ds
  let space := if dRate96 ds then 512 else 1024
  let clash := decide (dFirst ds + dChannels ds > space) ||
    (if tx then d.liveTx.any fun e => e.1 != f && chansMeet e.2.desc ds
     else d.liveRx.any fun e => e.1 != f && chansMeet e.2.desc ds)
  let common :=
    if_ (dPtime ds == 3 || dChannels ds == 0 || decide (dChannels ds > 64)) 0x01
    ++ if_ ps.isEmpty 0x10 ++ if_ (dRate96 ds != d.fam96) 0x11 ++ if_ clash 0x12
    ++ if_ (decide (dPayload ds > d.rd Reg.FLW_CFG_MAX_PAYLOAD)) 0x16
    ++ if_ (ps.any fun p => decide (largestFrame tx ds recs p > d.rd (Reg.MAC_CFG_MAXLEN p))) 0x18
  if tx then
    common ++ if_ (ps.any fun p => !([54, 58, 74, 78].contains (dHdrLen ds p))) 0x01
    ++ if_ (ps.any fun p => !hdrOk ds p (recs.getD p [])) 0x15
    ++ if_ (ps.any fun p => decide ((d.portLoad p (some f) + txLoad ds p) * 10 > 9 * rateOf (d.speed p) * 10 ^ 6)) 0x48
  else
    common
    ++ if_ ((dConceal ds && dHold ds == 0) || decide (dOffset ds < 4 * n) || decide (dOffset ds > 160 * n)) 0x01
    ++ if_ (decide (dOffset ds < dSamples ds + 2 * n)) 0x13
    ++ if_ (ps.any fun p => !recOk (recs.getD p [])) 0x14
    ++ if_ (ps.any fun p => d.liveRx.any fun e => e.1 != f && dPath e.2.desc p &&
        recKey (e.2.recs.getD p []) == recKey (recs.getD p [])) 0x17

/-- A flow's last command reason (word 0x20). -/
def Dev.flowReason (d : Dev) (tx : Bool) (f c : Nat) : Dev :=
  if tx then d.setTxf f { d.txf f with reason := c } else d.setRxf f { d.rxf f with reason := c }

/-- A flow command executes (R232, R233). -/
def Dev.flowRun (d : Dev) (op f : Nat) (tx : Bool) : Nat × Dev :=
  let ds := d.stagedDesc tx f
  let recs := if tx then [d.stagedHdr f 0, d.stagedHdr f 1] else [d.stagedRec f 0, d.stagedRec f 1]
  let ask := fun (r : FlowReq) => { d with flw := { d.flw with pend := d.flw.pend ++ [r] } }
  match op with
  | 0 =>
    if !d.on Reg.FLW_CFG_ENABLE then (0x03, d.flowReason tx f 0x03)
    else if !dEnable ds then (0, (ask { tx := tx, flow := f }).flowReason tx f 0)
    else match lowest (d.flowFails tx f ds recs) with
      | some c => (c, d.flowReason tx f c)
      | none => (0, (ask { tx := tx, flow := f, desc := ds, recs := recs }).flowReason tx f 0)
  | 1 => (0, ask { tx := tx, flow := f })
  | _ => (0x01, d)

/-- FLW_FCMD.GO (R232). -/
def Dev.flowGo (d : Dev) : Dev :=
  let f := d.rd Reg.FLW_FCMD_FLOW
  let tx := d.on Reg.FLW_FCMD_DIR
  let r := d.flowRun (d.rd Reg.FLW_FCMD_OP) f tx
  [(Reg.FLW_FRES_REASON, r.1), (Reg.FLW_FRES_FLOW, f), (Reg.FLW_FRES_DIR, bit tx), (Reg.FLW_FRES_REFUSED, bit (r.1 != 0)),
   (Reg.FLW_FRES_VALID, 1), (Reg.FLW_STATUS_FDONE, 1)].foldl (fun d e => d.wr e.1 e.2) r.2

/-- A row of a flow command. -/
def flowRow (h : Agent) (op : Nat) (tx : Bool) (flow : BitVec 8) (s : State) : Host.Outcome State Fault Refusal :=
  onDev (fun d => d.hostCmd h Reg.FLW_FCMD_GO
    [(Reg.FLW_FCMD_FLOW, flow.toNat), (Reg.FLW_FCMD_DIR, bit tx), (Reg.FLW_FCMD_OP, op)] Dev.flowGo) s

/-- APPLY (R232). -/
def execApply (h : Agent) (tx : Bool) (flow : BitVec 8) (s : State) : Host.Outcome State Fault Refusal := flowRow h 0 tx flow s
/-- STOP (R232, R233). -/
def execStop (h : Agent) (tx : Bool) (flow : BitVec 8) (s : State) : Host.Outcome State Fault Refusal := flowRow h 1 tx flow s

/-! ### Starts and stops at a boundary (R233, R234, R245, R252) -/

/-- The jitter buffer and the merge window are flushed (R233). -/
def RxFlow.flush (x : RxFlow) : RxFlow :=
  { x with merged := false, win := 0, exp := 0, buf := [], last := [], run := 0, arr := [] }

/-- A receive flow stops. -/
def RxFlow.stop (x : RxFlow) (reason : Nat) : RxFlow :=
  { x.flush with
    live := false, st := 0, reason := reason, desc := [], recs := [], valid0 := none, valid1 := none, up0 := false,
    up1 := false, loss := false, marg0 := [], marg1 := [], skews := [] }

/-- A transmit flow stops; a packet whose ticks have not all drained is not sent. -/
def TxFlow.stop (x : TxFlow) (reason : Nat) : TxFlow :=
  { x with live := false, st := 0, reason := reason, desc := [], hdrs := [], acc := [] }

/-- Only OFFSET, CONCEAL or HOLD_TICKS differ (R234). -/
def sameFlow (a b : List Nat) : Bool :=
  let clean := fun (ds : List Nat) =>
    (bits (ds.getD 0 0) 8 0, bits (ds.getD 0 0) 31 16, dFirst ds, (ds.drop 2).take 3)
  clean a == clean b

/-- Internal time has been re-anchored to PTP time (R11). -/
def Dev.anchored (d : Dev) : Bool := d.on Reg.PTP_STATUS_ANCHORED

/-- The supervisor sends a protocol frame on port `p`, unless it does not run (R21, R256). -/
def Dev.supProto (d : Dev) (p : Nat) (b : List Nat) : Dev :=
  if d.supRuns then d.supSend p (d.rd (Reg.MAC_SUPQ_OTHERQ p)) { bytes := b } else d

/-- The memberships that the live receive flows need on port `n`: group, and the source of a source-specific join (R256). -/
def Dev.memberships (d : Dev) (n : Nat) : List (List Nat × Option (List Nat)) :=
  ((d.liveRx.filter fun e => dPath e.2.desc n).filterMap fun e => membership (e.2.recs.getD n [])).dedup

/-- The supervisor reports a membership on port `p`. -/
def Dev.reportGroup (d : Dev) (p : Nat) (m : Member) (g : List Nat × Option (List Nat)) : Dev :=
  d.supProto p (memberReport p (d.macAddr p) m g.1 g.2)

/-- The grandmaster identity of port `p`. -/
def Dev.gmBytes (d : Dev) (p : Nat) : List Nat := toBe 4 (d.rd (Reg.PTP_GMID_HI p)) ++ toBe 4 (d.rd (Reg.PTP_GMID_LO p))

/-- The supervisor announces transmit flow `f` on the port of each of its paths, or deletes its announcement (R256). -/
def Dev.sapSend (d : Dev) (f : Nat) (gone : Bool) : Dev :=
  let x := d.txf f
  if x.live && dAnnounce x.desc then
    (dPaths x.desc).foldl (fun d p => d.supProto p (sapFrame x.desc (x.hdrs.getD p []) f p (d.macAddr p) (d.gmBytes p) gone)) d
  else d

/-- The supervisor announces every live transmit flow (R256). -/
def Dev.announceAll (d : Dev) : Dev :=
  let d := { d with flw := { d.flw with sapAt := d.tick } }
  d.liveTx.foldl (fun d e => d.sapSend e.1 false) d

/-- The entry of a path is written at a free index of the multicast filter; the spec does not say which (R237). -/
def Dev.mcfAdd (d : Dev) (key : Nat) : Dev :=
  let frees := (List.range 512).filter fun i => d.flw.mcf.all fun e => e.1 != i
  let r := d.fresh
  match frees[r.2.toNat % frees.length]? with
  | some i => { r.1 with flw := { r.1.flw with mcf := (i, key) :: r.1.flw.mcf } }
  | none => d

/-- Receive flow `f` goes live (R237, R245, R256). -/
def Dev.rxStart (d : Dev) (f : Nat) (desc : List Nat) (recs : List (List Nat)) : Dev :=
  let groups := (dPaths desc).filterMap fun p => (membership (recs.getD p [])).map fun g => (p, g)
  let d := groups.foldl (fun d g => d.reportGroup g.1 .joins g.2) d
  let d := groups.foldl (fun d g => d.mcfAdd (2 * f + g.1)) d
  d.setRxf f { d.rxf f with live := true, st := if d.anchored then 2 else 1, desc := desc, recs := recs }

/-- Receive flow `f` stops: its filter entries go, and the supervisor leaves each group that no other live flow of the port needs
(R233, R237, R256). -/
def Dev.rxStop (d : Dev) (f reason : Nat) : Dev :=
  let x := d.rxf f
  let d := d.setRxf f (x.stop reason)
  let d := { d with flw := { d.flw with mcf := d.flw.mcf.filter fun e => e.2 / 2 != f } }
  if x.live then
    (dPaths x.desc).foldl (fun d p =>
      match membership (x.recs.getD p []) with
      | some g => if (d.memberships p).contains g then d else d.reportGroup p .leaves g
      | none => d) d
  else d

/-- Transmit flow `f` stops, and its announcement is deleted (R233, R256). -/
def Dev.txStop (d : Dev) (f reason : Nat) : Dev :=
  let d := d.sapSend f true
  d.setTxf f ((d.txf f).stop reason)

/-- Transmit flow `f` goes live (R252). -/
def Dev.txStart (d : Dev) (f : Nat) (desc : List Nat) (hdrs : List (List Nat)) : Dev :=
  d.setTxf f { d.txf f with
    live := true, st := if dTxWait desc && !d.anchored then 1 else 2, desc := desc, hdrs := hdrs, seq := dSeqInit desc, skip := 2,
    acc := [] }

/-- A request takes effect at the present boundary (R232 to R234). A change of a running flow that R234 does not let pass in service is
a stop and a start. -/
def Dev.flowTake (d : Dev) (r : FlowReq) : Dev :=
  if r.tx then
    let x := d.txf r.flow
    if r.desc.isEmpty then d.txStop r.flow 0
    else if x.live && x.desc == r.desc && x.hdrs == r.recs then d
    else (d.txStop r.flow 0).txStart r.flow r.desc r.recs
  else
    let x := d.rxf r.flow
    if r.desc.isEmpty then d.rxStop r.flow 0
    else if x.live && sameFlow x.desc r.desc && x.recs == r.recs then d.setRxf r.flow { x with desc := r.desc }
    else (d.rxStop r.flow 0).rxStart r.flow r.desc r.recs

/-- A change of sample rate family stops the flows that no longer match, each posting FLOWSTOP (R245). -/
def Dev.flowsFamily (d : Dev) : Dev :=
  let say := fun (d : Dev) f (tx : Bool) => (d.flag Reg.FLW_STATUS_FLOWEV).post 9 6 (f + bit tx * 2 ^ 8 + 0x11 * 2 ^ 16)
  let d := d.liveRx.foldl (fun d e => if dRate96 e.2.desc != d.fam96 then say (d.rxStop e.1 0x11) e.1 false else d) d
  d.liveTx.foldl (fun d e => if dRate96 e.2.desc != d.fam96 then say (d.txStop e.1 0x11) e.1 true else d) d

/-- A commit clears ENABLE: every flow is to stop at its boundary, and no APPLY that waits is taken (R259). -/
def Dev.flowsDisable (d : Dev) : Dev :=
  { d with flw := { d.flw with
      pend := (d.liveRx.map fun e => { tx := false, flow := e.1 }) ++ d.liveTx.map fun e => { tx := true, flow := e.1 } } }

/-- A flow that waited for PTP time starts (R245, R252). -/
def Dev.flowsAnchor (d : Dev) : Dev :=
  if d.anchored then
    let d := d.liveRx.foldl (fun d e => if e.2.st = 1 then d.setRxf e.1 { e.2.flush with st := 2 } else d) d
    d.liveTx.foldl (fun d e => if e.2.st = 1 then d.setTxf e.1 { e.2 with st := 2, skip := 2, acc := [] } else d) d
  else d

/-- A re-anchor by `k` ticks (R11, R245, R252): receive flows are flushed, and the ticks in the stages keep their numbers. -/
def Dev.flowsReanchor (d : Dev) (k : Int) : Dev :=
  let at_ := fun (t : Nat) => ((t : Int) + k).toNat
  let move := fun (x : RxFlow) => { x with
    valid0 := x.valid0.map at_, valid1 := x.valid1.map at_, marg0 := x.marg0.map fun e => (at_ e.1, e.2),
    marg1 := x.marg1.map fun e => (at_ e.1, e.2), skews := x.skews.map fun e => (at_ e.1, e.2) }
  let d := d.liveRx.foldl (fun d e => d.setRxf e.1 (move e.2.flush)) d
  { d with flw := { d.flw with pipe := d.flw.pipe.map fun t => (t.1, t.2 + k) } }

/-- The flows of the standing plan are applied; an index running with identical settings continues (R453). -/
def Dev.planFlows (d : Dev) : Dev :=
  if !d.on Reg.FLW_CFG_ENABLE then d else
  d.alm.plan.flows.foldl (fun d p =>
    let ds := (p.desc.take 5).map (·.toNat)
    let recs := if p.tx then [p.recs0, p.recs1].map fun r => (r.map (·.toNat)).flatMap leBytes
      else [p.recs0, p.recs1].map fun r => r.map (·.toNat)
    d.flowTake { tx := p.tx, flow := p.flow, desc := ds, recs := recs }) d

/-- FLW_MCF_USED, FLW_RUN and FLW_TXLOAD follow the flows. -/
def Dev.showFlows (d : Dev) : Dev :=
  let mbps := fun p =>
    let l := d.portLoad p none
    if l % 10 ^ 6 = 0 then l / 10 ^ 6 else if Config.quotUp 1 l (10 ^ 6) then l / 10 ^ 6 + 1 else l / 10 ^ 6
  [(Reg.FLW_MCF_USED_COUNT, d.flw.mcf.length), (Reg.FLW_RUN_RX, (d.liveRx.filter fun e => e.2.st == 2).length),
   (Reg.FLW_RUN_TX, (d.liveTx.filter fun e => e.2.st == 2).length), (Reg.FLW_TXLOAD0_MBPS, mbps 0),
   (Reg.FLW_TXLOAD1_MBPS, mbps 1)].foldl (fun d e => d.wr e.1 e.2) d

/-- The flow requests of the tick before take effect (R232). -/
def Dev.flowsBoundary (d : Dev) : Dev :=
  let rs := d.flw.pend
  let d := { d with flw := { d.flw with pend := [] } }
  (rs.foldl Dev.flowTake d).flowsAnchor

/-! ### Statistics (R247) -/

/-- A record counter of receive flow `f` (`tx` false) or of a transmit descriptor crossed half range or wrapped. -/
def Dev.fcntHalf (d : Dev) (f : Nat) (tx : Bool) : Dev :=
  if d.on Reg.FLW_STATUS_FCNT_HALF then d
  else ((d.wr Reg.FLW_FCNT_FLOW_FLOW f).wr Reg.FLW_FCNT_FLOW_DIR (bit tx)).flag Reg.FLW_STATUS_FCNT_HALF

/-- Count `k` in word `i` of the record of receive flow `f`. -/
def Dev.flowStat (d : Dev) (f i : Nat) (k : Nat := 1) : Dev :=
  let v := (Sparse.get 0 d.flw.stats (16 * f + i)).toNat
  let v' := (v + k) % 2 ^ 32
  let d := { d with flw := { d.flw with stats := Sparse.put 0 d.flw.stats (16 * f + i) (BitVec.ofNat 32 v') } }
  if v / 2 ^ 31 = v' / 2 ^ 31 then d else d.fcntHalf f false

/-- Count `k` in the record and in the block counter. -/
def Dev.flowCount (d : Dev) (f i : Nat) (c : Fld) (k : Nat := 1) : Dev := (d.flowStat f i k).count c Reg.FLW_STATUS_CNT_HALF k

/-- Count one in word `i` of transmit flow `f`, and in the block counter. -/
def Dev.txCount (d : Dev) (f i : Nat) (c : Fld) : Dev :=
  let x := d.txf f
  let v := x.cnt.getD i 0
  let v' := (v + 1) % 2 ^ 32
  let d := (d.setTxf f { x with cnt := x.cnt.set i v' }).count c Reg.FLW_STATUS_CNT_HALF
  if v / 2 ^ 31 = v' / 2 ^ 31 then d else d.fcntHalf f true

/-! ### The gather (R242, R244) -/

/-- Key of media index `m` in a jitter buffer. -/
def jbKey (m : Int) : Nat := (m + 4096).toNat

/-- The concealment of a missing sample at position `k` (from 1) in tick `run` of the run (R242); `true`: a hold or a ramp. -/
def conceal (ds : List Nat) (L : Word) (run k n : Nat) : Word × Bool :=
  if !dConceal ds then (0, false)
  else if run ≤ dHold ds then (L, true)
  else if run = dHold ds + 1 then (rampVal L.toInt (n - k) n, true)
  else (0, false)

/-- One tick of one channel: its samples, its last gathered sample, and whether it was concealed. -/
def gatherChan (ds : List Nat) (rows : List (Option (List Word))) (run c n : Nat) (L : Word) : List Word × Word × Bool :=
  rows.zipIdx.foldl (fun (acc : List Word × Word × Bool) r =>
    match r.1 with
    | some row => (acc.1 ++ [row.getD c 0], row.getD c 0, acc.2.2)
    | none =>
      let x := conceal ds acc.2.1 run (r.2 + 1) n
      (acc.1 ++ [x.1], acc.2.1, acc.2.2 || x.2)) ([], L, false)

/-- The hearths that flow `ds` is gathered into (R244). -/
def Dev.flowHearths (d : Dev) (ds : List Nat) : List Nat :=
  if d.mode = 0 ∨ (d.mode = 2 ∧ dProt ds) then [0, 1] else [dHearth ds]

/-- Gather tick p of flow `f`; `bad` are its read positions with an uncorrectable error (R241, R242). -/
def Dev.gatherFlow (d : Dev) (bad : List Nat) (f : Nat) : Dev :=
  let x := d.rxf f
  let ds := x.desc
  let n := d.nSamples
  let key := fun (k : Nat) => jbKey ((d.tick * n + k : Int) - dOffset ds)
  let hit := fun (k : Nat) => x.buf.any fun e => e.1 == key k
  let ue := bad.filter fun k => decide (k < n) && hit k
  let d := if ue.isEmpty then d else (d.count Reg.FLW_JBUE_COUNT Reg.FLW_STATUS_CNT_HALF ue.length).flag Reg.FLW_STATUS_JBUE
  let rows := (List.range n).map fun k => if hit k && !ue.contains k then some (Sparse.get [] x.buf (key k)) else none
  let miss := rows.any Option.isNone
  let run := if miss then x.run + 1 else 0
  let outs := (List.range (dChannels ds)).map fun c => gatherChan ds rows run c n (x.last.getD c 0)
  let x := { x with
    buf := x.buf.filter fun e => decide (e.1 ≥ key n), run := run, last := outs.map (·.2.1),
    tickLast := if miss then x.tickLast else d.schTick }
  let d := d.setRxf f x
  let d := if miss then d.flowCount f 10 Reg.FLW_MISSTICK_COUNT else d
  let d := if outs.any (·.2.2) then d.flowStat f 11 else d
  (d.flowHearths ds).foldl (fun d h =>
    d.setHm h (outs.zipIdx.foldl (fun m o =>
      o.1.1.zipIdx.foldl (fun m s => m.setTile (dFirst ds + o.2) d.mem.par s.2 s.1) m) (d.hm h))) d

/-- GATHER (R242, R244): an NRX channel of no running flow reads 0. -/
def Dev.gather (d : Dev) (bad : List (Nat × Nat)) : Dev :=
  let nrx := fun (e : Nat × Word) => e.1 / 32 / 4096 == 0 && e.1 / 16 % 2 == d.mem.par
  let wipe := fun (d : Dev) h => d.setHm h { d.hm h with tiles := (d.hm h).tiles.filter fun e => !nrx e }
  let d := wipe (wipe d 0) 1
  (d.liveRx.filter fun e => e.2.st == 2).foldl (fun d e => d.gatherFlow ((bad.filter (·.1 == e.1)).map (·.2)) e.1) d

/-- Margins, arrivals and arrival differences of more than 8,000 ticks ago leave (R235). -/
def Dev.flowAges (d : Dev) : Dev :=
  let keep := fun {α : Type} (l : List (Nat × α)) => l.filter fun e => decide (e.1 + 8000 > d.tick)
  let rx : Sparse RxFlow := d.flw.rx.map fun e =>
    (e.1, { e.2 with
      marg0 := keep e.2.marg0, marg1 := keep e.2.marg1, skews := keep e.2.skews,
      arr := e.2.arr.filter fun a => decide (a.2.2 / 125000 + 8000 > d.tick) })
  { d with flw := { d.flw with rx := rx } }

/-! ### The flue (R250 to R253) -/

/-- The source that NTX channel `c` drains from (R18): the active hearth, or the hearth of the job that writes it. -/
def Dev.ntxSource (d : Dev) (c : Nat) : Option Nat :=
  match d.writerOf c with
  | none => none
  | some (_, j) => some (if d.mode = 0 ∨ (d.mode = 2 ∧ j.prot) then 2 else j.hearth)

/-- The rows of channel samples that the flue takes for a flow in this tick; a channel of no job is zero (R251). -/
def Dev.flueRows (d : Dev) (ds : List Nat) : List (List Word) :=
  (List.range d.nSamples).map fun j => (List.range (dChannels ds)).map fun c =>
    let h := 0x1000 + dFirst ds + c
    match d.ntxSource h with
    | some src => Sparse.get 0 d.tdm.drained (drainKey src h j)
    | none => 0

/-- The payload bytes of a sample (R251). -/
def wireSample (ds : List Nat) (x : Word) : List Nat :=
  if dL24 ds then toBe 3 ((roundTo 24 x).toNat / 256) else toBe 2 ((roundTo 16 x).toNat / 65536)

/-- The packet of a group on path `p` (R249): sequence number `seq`, timestamp `ts`. -/
def flowPacket (ds : List Nat) (h : List Nat) (p seq ts : Nat) (rows : List (List Word)) : List Nat :=
  let h := h.take (dHdrLen ds p)
  let n := parseNet h
  let payload := rows.flatMap fun r => r.flatMap (wireSample ds)
  let ulen := 20 + payload.length
  let rtp := n.l4 + 8
  let b := patch (patch (patch h (rtp + 2) (toBe 2 seq)) (rtp + 4) (toBe 4 ts)) (rtp + 8) (toBe 4 (dSsrc ds)) ++ payload
  let b := patch (patch b (n.l4 + 4) (toBe 2 ulen)) (n.l4 + 6) [0, 0]
  if n.v6 then
    let b := patch b (n.l3 + 4) (toBe 2 ulen)
    patch b (n.l4 + 6) (toBe 2 (udpSum b))
  else
    let b := patch (patch b (n.l3 + 2) (toBe 2 (20 + ulen))) (n.l3 + 10) [0, 0]
    let b := patch b (n.l3 + 10) (toBe 2 (inetSum (slice b n.l3 20)))
    if dUdpCsum ds then patch b (n.l4 + 6) (toBe 2 (udpSum b)) else b

/-- Enqueue the packet of a complete group on both paths (R250, R253). -/
def Dev.sendGroup (d : Dev) (f ts : Nat) (x : TxFlow) : Dev :=
  let d := (dPaths x.desc).foldl (fun d p =>
    let r := d.enqueue p (dQueue x.desc p) { bytes := flowPacket x.desc (x.hdrs.getD p []) p x.seq ts x.acc }
    if r.2 then r.1.txCount f p Reg.FLW_TXPKT_COUNT else r.1.txCount f (2 + p) Reg.FLW_TXDROP_COUNT) d
  d.setTxf f { d.txf f with seq := (x.seq + 1) % 65536, acc := [] }

/-- The group in progress after the audio of tick `a`, in the numbering it was computed in: its first tick and its samples (R250, R252).
A group that a re-anchor parts never completes. -/
def TxFlow.collect (x : TxFlow) (n a : Nat) (rows : List (List Word)) : TxFlow :=
  if a % dTicks x.desc = 0 then { x with first := a, acc := rows }
  else if !x.acc.isEmpty && decide (x.first * n + x.acc.length = a * n) then { x with acc := x.acc ++ rows }
  else { x with acc := [] }

/-- The group in progress is complete. -/
def TxFlow.full (x : TxFlow) (n : Nat) : Bool := x.acc.length == dTicks x.desc * n

/-- The RTP timestamp of the group in progress; `k`: ticks by which internal time moved since its ticks (R250, R252). The timestamp of a
one-tick group from before a re-anchor is not stated: it is of the old or of the new numbering. -/
def TxFlow.ts (x : TxFlow) (n : Nat) (k : Int) : Nat :=
  let p : Int := if dTicks x.desc = 1 ∧ k ≠ 0 ∧ !Config.oldStamp x.first then x.first + k else x.first
  uint 32 (n * p + dRtpOffset x.desc)

/-- The flue takes the audio of tick `a` for flow `f`; `k`: ticks by which internal time moved since (R250, R252). -/
def Dev.flueFlow (d : Dev) (a : Nat) (k : Int) (f : Nat) : Dev :=
  let x := d.txf f
  if x.skip ≠ 0 then d.setTxf f { x with skip := x.skip - 1 } else
  let x := x.collect d.nSamples a (d.flueRows x.desc)
  let d := d.setTxf f x
  if x.full d.nSamples then d.sendGroup f (x.ts d.nSamples k) x else d

/-- TX_ENQUEUE (R250): the audio of the tick that has drained goes to every running transmit flow in ascending order. -/
def Dev.flue (d : Dev) : Dev :=
  let pipe := (d.flw.pipe ++ [(d.tick, 0)]).drop (d.flw.pipe.length - 2)
  let d := { d with flw := { d.flw with pipe := pipe } }
  (d.liveTx.filter fun e => e.2.st == 2).foldl (fun d e =>
    match pipe with
    | [a, _, _] => d.flueFlow a.1 a.2 e.1
    | _ => d.setTxf e.1 { e.2 with skip := e.2.skip - 1 }) d

/-- The ticks whose audio the flue takes next, oldest first, each with the ticks that internal time was moved since. -/
def Dev.flueNext (d : Dev) : List (Nat × Int) :=
  d.flw.pipe.drop (d.flw.pipe.length - 2) ++ (List.range 24).map fun i => (d.tick + 1 + i, 0)

/-- The timestamp of the first group that completes over the ticks to come. -/
def nextTsOver (x : TxFlow) (n : Nat) : List (Nat × Int) → Nat
  | [] => 0
  | a :: t =>
    let x := x.collect n a.1 (List.replicate n [])
    if x.full n then x.ts n a.2 else nextTsOver x n t

/-- NEXTTS: the RTP timestamp of the next packet (R248). -/
def Dev.nextTs (d : Dev) (x : TxFlow) : Nat :=
  let x := if x.full d.nSamples then { x with acc := [] } else x
  nextTsOver x d.nSamples (d.flueNext.drop x.skip)

/-! ### SAP announcements and paths (R243, R256) -/

/-- PATHDOWN (R243). -/
def execPathdown (flow : BitVec 8) (n : Fin 2) (s : State) : Host.Outcome State Fault Refusal :=
  onDev (fun d =>
    let f := flow.toNat
    let x := d.rxf f
    let quiet := (if n = 0 then x.valid0 else x.valid1).all fun t => decide (t + d.rd Reg.FLW_PATH_CFG_TIMEOUT < d.tick)
    if x.live && (if n = 0 then x.up0 else x.up1) && quiet then
      let x := if n = 0 then { x with up0 := false } else { x with up1 := false }
      let d := ((d.setRxf f x).flag Reg.FLW_STATUS_PATHEV).post 9 1 (f + n * 2 ^ 8)
      if !x.up0 && !x.up1 then
        ((d.setRxf f { x with loss := true }).flag Reg.FLW_STATUS_FLOWEV).post 9 3 f
      else d
    else d) s

/-- SAP_ANNOUNCE (R256): each flow with ANNOUNCE = 1 is announced on the port of each of its paths. -/
def execSapAnnounce (s : State) : Host.Outcome State Fault Refusal :=
  onDev (fun d => if d.supRuns && decide (d.flw.sapAt + 240000 ≤ d.tick) then d.announceAll else d) s

/-- After a restart the supervisor reports its memberships again and its announcements resume (R256). -/
def Dev.supRenew (d : Dev) : Dev :=
  let d := [0, 1].foldl (fun (d : Dev) p => (d.memberships p).foldl (fun d g => d.reportGroup p .holds g) d) d
  d.announceAll

/-- The supervisor answers a query heard on port `p` (R256): a general query with every membership, a query of a group with its own. -/
def Dev.queryAnswer (d : Dev) (p : Nat) (group : List Nat) : Dev :=
  let v6 := group.length == 16
  let asked := (d.memberships p).filter fun g => g.1.length == group.length && (group.all (· == 0) || g.1 == group)
  if v6 || group.length == 4 then asked.foldl (fun d g => d.reportGroup p .holds g) d else d

end Sys2Proof.Machine
end

