-- ==== Sys2Proof/Machine/Rx.lean ====
section
/-! DEFINITION. Received frames: the MAC's judgement, the filters, the merge and the deposit (spec/07, spec/09). -/
namespace Sys2Proof.Machine

/-! ### The merge (R239) -/

/-- A sequence number lies `dd` above HIGHSEQ (signed, 16 bits). -/
def RxFlow.above (x : RxFlow) (s : Nat) : Int := sint 16 (s + 65536 - x.high)

/-- Bits set in a window. -/
def ones (w : Nat) : Nat := ((List.range 128).filter fun i => w / 2 ^ i % 2 == 1).length

/-- The window slides by `dd`: the flow after it, and the numbers that left it unset though expected. -/
def RxFlow.slide (x : RxFlow) (dd : Nat) : RxFlow × Nat :=
  let unset := (List.range 128).filter fun i =>
    decide (i + dd ≥ 128) && x.exp / 2 ^ i % 2 == 1 && x.win / 2 ^ i % 2 == 0
  ({ x with
    high := (x.high + dd) % 65536, win := x.win * 2 ^ dd % 2 ^ 128, exp := (x.exp * 2 ^ dd + (2 ^ dd - 1)) % 2 ^ 128 },
   unset.length + (dd - 128))

/-- What the merge does with a sequence number. -/
inductive Judged where
  | first
  /-- 1 to 1023 above HIGHSEQ. -/
  | ahead (dd : Nat)
  /-- In the window with its bit clear, `i` below HIGHSEQ. -/
  | fill (i : Nat)
  | dup
  | stale
  | resync
  deriving DecidableEq, Repr

/-- The table of R239. -/
def RxFlow.judge (x : RxFlow) (s : Nat) : Judged :=
  let dd := x.above s
  if !x.merged then .first
  else if 1 ≤ dd ∧ dd ≤ 1023 then .ahead dd.toNat
  else if -127 ≤ dd ∧ dd ≤ 0 then (if x.win / 2 ^ (-dd).toNat % 2 = 1 then .dup else .fill (-dd).toNat)
  else if -1023 ≤ dd ∧ dd ≤ -128 then .stale
  else .resync

/-- The flow after an accepted copy of `s`, and its SEQGAP count; the bit of an early copy is not set (R241). -/
def RxFlow.take (x : RxFlow) (j : Judged) (s : Nat) (early : Bool) : RxFlow × Nat :=
  let b := bit (!early)
  match j with
  | .ahead dd => let r := x.slide dd; ({ r.1 with win := r.1.win + b }, r.2)
  | .fill i => ({ x with win := x.win + b * 2 ^ i }, 0)
  | _ => ({ x with merged := true, high := s, win := b, exp := 1 }, 0)

/-! ### RTP (R238, R240, R251) -/

/-- The RTP header of a UDP frame: its offset, and offset and length of its payload. -/
def rtpOf (b : List Nat) : Nat × Nat × Nat :=
  let n := parseNet b
  let o := n.l4 + 8
  let csrc := o + 12 + 4 * (byteAt b o % 16)
  let pay := if byteAt b o / 16 % 2 = 1 then csrc + 4 + 4 * be16 b (csrc + 2) else csrc
  (o, pay, n.l4 + n.ulen b - pay)

/-- A copy is valid (R238); `bad`: marked ERR or TRUNC. -/
def copyValid (ds : List Nat) (b : List Nat) (bad : Bool) : Bool :=
  let n := parseNet b
  let r := rtpOf b
  !bad && n.sumOk && !n.frag && decide (n.ulen b ≤ n.l4len) && decide (n.l4 + n.ulen b ≤ b.length) && n.udpOk b
  && byteAt b r.1 / 64 == 2 && byteAt b r.1 / 32 % 2 == 0 && byteAt b (r.1 + 1) % 128 == dPt ds
  && (!dSsrcChk ds || be32 b (r.1 + 8) == dSsrc ds) && r.2.2 == dPayload ds

/-- The samples of a packet: one row of channels per sample (R251). -/
def packetRows (ds : List Nat) (b : List Nat) : List (List Word) :=
  let pay := (rtpOf b).2.1
  let w := dBytes ds
  (List.range (dSamples ds)).map fun j => (List.range (dChannels ds)).map fun c =>
    let o := pay + (j * dChannels ds + c) * w
    BitVec.ofNat 32 (if dL24 ds then (be16 b o * 256 + byteAt b (o + 2)) * 256 else be16 b o * 65536)

/-- Media index of the packet's first sample (R240). -/
def Dev.mediaIndex (d : Dev) (ds : List Nat) (ts : Nat) : Int :=
  let now : Int := d.timeNs * d.nSamples / 125000
  now + sint 32 (uint 32 ((ts : Int) - dRtpOffset ds - now))

/-! ### A copy of a flow -/

/-- Margin and arrival difference of a valid copy (R235). -/
def Dev.noteCopy (d : Dev) (f path s : Nat) (margin : Int) : Dev :=
  let x := d.rxf f
  let x := if path = 0 then { x with marg0 := (d.tick, margin) :: x.marg0 } else { x with marg1 := (d.tick, margin) :: x.marg1 }
  let other := x.arr.find? fun a => a.1 != path && a.2.1 == s
  let diff := fun (t : Nat) => if path = 1 then (d.timeNs : Int) - t else (t : Int) - d.timeNs
  d.setRxf f (match other with
    | some a => { x with arr := x.arr.erase a, skews := (d.tick, diff a.2.2) :: x.skews }
    | none => { x with arr := (path, s, d.timeNs) :: (x.arr.filter fun a => !(a.1 == path && a.2.1 == s)) })

/-- An accepted copy is deposited (R241). -/
def Dev.deposit (d : Dev) (f : Nat) (k : Int) (rows : List (List Word)) : Dev :=
  let x := d.rxf f
  let n := d.nSamples
  let late := decide ((k + dOffset x.desc) / n ≤ d.tick)
  let buf := rows.zipIdx.foldl (fun (b : Sparse (List Word)) r =>
    if (k + r.2 + dOffset x.desc) / n ≤ d.tick then b else Sparse.put [] b (jbKey (k + r.2)) r.1) x.buf
  let d := d.setRxf f { x with buf := buf }
  if late then (d.flowCount f 6 Reg.FLW_LATE_COUNT).flag Reg.FLW_STATUS_LATE else d

/-- A valid copy of a RUNNING flow (R239 to R241). -/
def Dev.mergeCopy (d : Dev) (f path : Nat) (b : List Nat) : Dev :=
  let x := d.rxf f
  let o := (rtpOf b).1
  let s := be16 b (o + 2)
  let k := d.mediaIndex x.desc (be32 b (o + 4))
  let tickOf := fun (j : Nat) => (k + j + dOffset x.desc) / (d.nSamples : Int)
  let d := d.noteCopy f path s (tickOf 0 * 125000 - d.timeNs)
  let x := d.rxf f
  match x.judge s with
  | .dup => d.flowCount f 3 Reg.FLW_DUP_COUNT
  | .stale => d.flowCount f 8 Reg.FLW_STALE_COUNT
  | j =>
    let early := decide (tickOf (dSamples x.desc - 1) > d.tick + 240)
    let r := x.take j s early
    let d := (d.setRxf f r.1).flowCount f 2 Reg.FLW_ACCEPT_COUNT
    let d := if r.2 = 0 then d else d.flowCount f 9 Reg.FLW_SEQGAP_COUNT r.2
    let d := if path = 1 then d.flowStat f 13 else d
    let d := if j = .resync then (d.flowCount f 12 Reg.FLW_RESYNC_COUNT).post 9 5 (f + s * 2 ^ 16) else d
    if early then d.flowCount f 7 Reg.FLW_EARLY_COUNT else d.deposit f k (packetRows x.desc b)

/-- A valid copy keeps its path UP (R243). -/
def Dev.pathUp (d : Dev) (f path : Nat) : Dev :=
  let x := d.rxf f
  let up := if path = 0 then x.up0 else x.up1
  let x := if path = 0 then { x with up0 := true, valid0 := some d.tick } else { x with up1 := true, valid1 := some d.tick }
  let d := d.setRxf f { x with loss := false }
  let d := if up then d else (d.flag Reg.FLW_STATUS_PATHEV).post 9 2 (f + path * 2 ^ 8)
  if x.loss then (d.flag Reg.FLW_STATUS_FLOWEV).post 9 4 f else d

/-- A frame that belongs to flow `f` on path `path` (R238, R245). -/
def Dev.rxCopy (d : Dev) (f path : Nat) (b : List Nat) (bad : Bool) : Dev :=
  let x := d.rxf f
  let d := d.flowCount f path Reg.FLW_RXPKT_COUNT
  if copyValid x.desc b bad then
    let d := d.pathUp f path
    if x.st = 2 then d.mergeCopy f path b else d
  else d.flowCount f (4 + path) Reg.FLW_INVALID_COUNT

/-! ### Filters and delivery (R237, R284 to R287) -/

/-- A live match record equals the frame (R237). -/
def recMatches (r : List Nat) (n : Net) (b : List Nat) : Bool :=
  n.udp && n.v6 == rV6 r && n.dst == rDst r && n.dport b == rPort r
  && n.vid == (if rVlanChk r then some (rVid r) else none) && (!rSrcChk r || n.src == rSrc r)

/-- The flow that a frame on port `p` belongs to. -/
def Dev.flowOf (d : Dev) (p : Nat) (b : List Nat) : Option Nat :=
  let n := parseNet b
  (d.liveRx.find? fun e => dPath e.2.desc p && recMatches (e.2.recs.getD p []) n b
    && (n.group || Config.ownAddr p n.dst)).map (·.1)

/-- The multicast filter passes the frame (R237). -/
def Dev.flowFilter (d : Dev) (p : Nat) (b : List Nat) : Bool :=
  let n := parseNet b
  isGroup b && n.ip && n.group && d.flw.mcf.any fun e =>
    let r := (d.rxf (e.2 / 2)).recs.getD p []
    e.2 % 2 == p && n.v6 == rV6 r && n.dst == rDst r

/-- A SAP packet (PRESUMED: RFC 2974) heard on port `p`: a session is kept, or deleted. -/
def Dev.sapHeard (d : Dev) (p : Nat) (b : List Nat) : Dev :=
  let n := parseNet b
  let m := slice b (n.l4 + 8) (n.ulen b - 8)
  let flags := byteAt m 0
  let v6 := flags / 16 % 2 == 1
  let alen := if v6 then 16 else 4
  let rest := m.drop (4 + alen + 4 * byteAt m 1)
  let text := if rest.take 2 = [0x76, 0x3D] then rest else (rest.dropWhile (· != 0)).drop 1
  let mine := fun (x : SapSession) => x.port == p && x.src == slice m 4 alen && x.hash == be16 m 2
  let others := d.sap.filter fun x => !mine x
  if flags / 32 ≠ 1 ∨ flags % 4 ≠ 0 then d
  else if flags / 4 % 2 = 1 then { d with sap := others }
  else { d with sap := ({ port := p, v6 := v6, src := slice m 4 alen, hash := be16 m 2, heard := d.tick, text := text } :: others).take 512 }

/-- The group that a membership query asks about, all zero in a general query (PRESUMED: RFC 3376, RFC 3810; log entry 146). -/
def queryOf (b : List Nat) : Option (List Nat) :=
  let n := parseNet b
  let o := if n.v6 && n.proto == 0 then n.l4 + 8 * (byteAt b (n.l4 + 1) + 1) else n.l4
  let proto := if n.v6 && n.proto == 0 then byteAt b n.l4 else n.proto
  if n.ip && !n.v6 && proto == 2 && byteAt b o == 0x11 then some (slice b (o + 4) 4)
  else if n.v6 && proto == 58 && byteAt b o == 130 then some (slice b (o + 8) 16)
  else none

/-- A frame reaches the supervisor (R285, R256). -/
def Dev.supRx (d : Dev) (p : Nat) (b : List Nat) (bad : Bool) : Dev :=
  let n := parseNet b
  if bad || !d.supRuns || !n.sumOk then d
  else if n.udp && n.dport b == 9875 && n.udpOk b then d.sapHeard p b
  else match queryOf b with
    | some g => d.queryAnswer p g
    | none => d

/-- The frame goes to the flow partition of the receive buffer: it matches a live path, or the multicast filter passes it. The MAC chooses
from its first 128 bytes (R287). -/
def Dev.toFlows (d : Dev) (p : Nat) (b : List Nat) : Bool :=
  let b := b.take 128
  if isGroup b then !fixedFilter p b && d.flowFilter p b else (d.flowOf p b).isSome

/-- The flow engine takes a frame (R237, R238); `bad`: marked ERR or TRUNC. -/
def Dev.flowRx (d : Dev) (p : Nat) (b : List Nat) (bad : Bool) : Dev :=
  match d.flowOf p b with
  | some f => d.rxCopy f p b bad
  | none => if (parseNet b).udp then d.count Reg.FLW_NOFLOW_COUNT Reg.FLW_STATUS_CNT_HALF else d

/-- A frame is written to the supervisor with its receive descriptor (R285, R289, R323). -/
def Dev.supDeliver (d : Dev) (p : Nat) (b : List Nat) (err trunc : Bool) : Dev :=
  let n := parseNet b
  let lost := d.rxLost p b
  let desc : RxDesc := { len := b.length, err := err, trunc := trunc, ipOk := n.sumOk, udpOk := !n.udp || n.udpOk b, lost := lost }
  let d := d.setMac p { d.mac p with rxDone := some desc }
  let d := match lost, ptpEvent b with
    | some seq, some (o, _) => d.noteLost p false (byteAt b o % 16) seq
    | _, _ => d
  d.supRx p b (err || trunc)

/-- A frame passes the filters and is delivered; `true`: it was delivered (R284 steps 6 to 8, R286, R287). -/
def Dev.deliver (d : Dev) (p : Nat) (b : List Nat) (trunc : Bool) : Dev × Bool :=
  if d.toFlows p b then (d.flowRx p b trunc, true)
  else if (isGroup b && fixedFilter p b) || slice b 0 6 == d.macAddr p then
    let m := d.mac p
    if 32768 < m.rxFill + b.length then (d.macCount p 19, false)
    else ((d.setMac p { m with rxFill := m.rxFill + b.length }).supDeliver p b false trunc, true)
  else (d.macCount p 20, false)

/-- A frame of rows 1 and 3 is dropped, or forwarded marked ERR: that row decides its fate (R284, R285). -/
def Dev.errFrame (d : Dev) (p : Nat) (b : List Nat) : Dev × Bool :=
  if d.on (Reg.MAC_CFG_ERR_FWD p) then
    let d := d.macCount p 21
    (if d.toFlows p b then d.flowRx p b true else d.supDeliver p b true false, true)
  else (d, false)

/-- The MAC judges a received frame (R284, R285): a frame that has not ended after 16,384 bytes ends there and is oversize. -/
def Dev.judgeFrame (d : Dev) (p : Nat) (b : List Nat) (fcsOk pcsError : Bool) : Dev × Bool :=
  let long := decide (b.length > 16384)
  let b := b.take 16384
  let len := b.length
  if pcsError then (d.macCount p 18).errFrame p b
  else if len < 64 then (d.macCount p (if fcsOk then 14 else 15), false)
  else if !fcsOk && !long then (d.macCount p 17).errFrame p b
  else
    let over_ := long || decide (len > d.rd (Reg.MAC_CFG_MAXLEN p))
    let d := if over_ then d.macCount p 16
      else (((d.macCount p 0).macCount p 1 len).macCount p (2 + castOf b)).macCount p (7 + sizeBin len)
    let b := if over_ then b.take (d.rd (Reg.MAC_CFG_MAXLEN p)) else b
    if be16 b 12 = 0x8808 then (d.macControl p b, true) else d.deliver p b over_

/-- A received frame: judged and stamped (R284, R322). -/
def Dev.rxFrame (d : Dev) (p : Nat) (fr : RxFrame) (age : Nat) : Dev :=
  if d.portUp p then
    let b := fr.bytes.map (·.toNat)
    let r := d.judgeFrame p b fr.fcsOk fr.pcsError
    r.1.stampRx p b ((d.timeNs : Int) - age) (!r.2)
  else d

/-- RX_FRAME (R284); `taken`: the bytes that the supervisor has taken out of its receive partition since the frame before (R287, R288). -/
def execRxFrame (n : Fin 2) (frame : RxFrame) (age ns taken : Nat) (s : State) : Host.Outcome State Fault Refusal :=
  onDev (fun d =>
    let d := d.at ns
    let m := d.mac n
    let d := if d.supRuns then d.setMac n { m with rxFill := m.rxFill - taken } else d
    d.rxFrame n frame age) s

/-- A MAC control frame of 64 bytes with opcode `op` and parameters `ws` from an unnamed partner. -/
def controlFrame (op : Nat) (ws : List Nat) : RxFrame :=
  let b := [0x01, 0x80, 0xC2, 0x00, 0x00, 0x01, 2, 0, 0, 0, 0, 0] ++ toBe 2 0x8808 ++ toBe 2 op ++ ws.flatMap (toBe 2)
  { bytes := ((b ++ List.replicate 64 0).take 64).map (BitVec.ofNat 8 ·) }

/-- PAUSE (R296). -/
def execPause (n : Fin 2) (time : BitVec 16) (ns : Nat) (s : State) : Host.Outcome State Fault Refusal :=
  onDev (fun d => (d.at ns).rxFrame n (controlFrame 0x0001 [time.toNat]) 0) s

/-- PFC (R296). -/
def execPfc (n : Fin 2) (vec : BitVec 8) (times : List (BitVec 16)) (ns : Nat) (s : State) : Host.Outcome State Fault Refusal :=
  onDev (fun d => (d.at ns).rxFrame n
    (controlFrame 0x0101 (vec.toNat :: (List.range 8).map fun q => (times.getD q 0).toNat)) 0) s

end Sys2Proof.Machine
end

