-- ==== Sys2Proof/Machine/Ptp.lean ====
section
/-! DEFINITION. The servo and the path step detector (spec/10). -/
namespace Sys2Proof.Machine

/-- Port `n` steers internal time (R329); after a restart, or a loss, only when it is a qualified candidate again (R326). -/
def Dev.steers (d : Dev) (n : Nat) : Bool := d.rd Reg.PTP_STATUS_STEER == n + 1 && decide (3 ≤ d.candState n)

/-! ### Port states (R325, R326) -/

/-- The port takes a state; a change posts PORT_STATE (R342), and its candidate is lost outside SLAVE (R345). -/
def Dev.portSt (d : Dev) (n st : Nat) : Dev :=
  if d.rd (Reg.PTP_PSTAT_STATE n) = st then d
  else (((d.wr (Reg.PTP_PSTAT_STATE n) st).flag Reg.PTP_STATUS_STATEEV).post 14 6 (n + st * 2 ^ 8)).candCheck n

/-- LOCK of port `n` becomes `b` (R330). -/
def Dev.setLock (d : Dev) (n : Nat) (b : Bool) : Dev :=
  if d.on (Reg.PTP_PSTAT_LOCK n) = b then d
  else ((d.wr (Reg.PTP_PSTAT_LOCK n) (bit b)).flag Reg.PTP_STATUS_SERVOEV).post 14 1 (n + bit b * 2 ^ 8)

/-- The port's HOLD bit, and that of its candidate, follow the path hold. -/
def Dev.setHold (d : Dev) (n : Nat) (h : Option PathHold) : Dev :=
  ((d.setPport n { d.pport n with hold := h }).wr (Reg.PTP_PSTAT_HOLD n) (bit h.isSome)).wr (Reg.REF_CSTAT_HOLD n) (bit h.isSome)

/-! ### The rate of internal time (R316, R329) -/

/-- One ppb in the units of the integrator. -/
def ppb : Int := 10 ^ 8 * 2 ^ 9

/-- Internal time takes the rate `x`, which PTP_FREQ shows (R316). -/
def Dev.showRate (d : Dev) (x : Int) : Dev :=
  ({ d with ptp := { d.ptp with rate := x } }).wr Reg.PTP_FREQ_FREQ (sat32 (quot 2 (x * 2 ^ 12) (10 ^ 8 * 2 ^ 9)))

/-- kp and ki by BW, in units of 10^-8 (R329). -/
def kpOf (bw : Nat) : Int := match bw with | 0 => 628320000 | 1 => 125660000 | 2 => 37699000 | _ => 12566000
def kiOf (bw : Nat) : Int := match bw with | 0 => 986960000 | 1 => 39478000 | 2 => 3553100 | _ => 394780

/-- The servo's update for an exchange with offset `th` (half ns) (R329). -/
def Dev.servo (d : Dev) (n : Nat) (th : Int) : Dev :=
  let bw := d.rd Reg.PTP_SERVO_BW
  let ls := sint 8 (d.rd (Reg.PTP_PRATE_LOG_SYNC n))
  let integ := d.ptp.integ - kiOf bw * th * 2 ^ (ls + 8).toNat
  let slew := (d.rd Reg.REF_SLEW_PHASE : Int) * ppb
  let phase := max (-slew) (min (-(kpOf bw * th * 2 ^ 8)) slew)
  ({ d with ptp := { d.ptp with integ := integ, phase := phase } }).showRate (integ + phase)

/-- The servo holds its frequency (R331). -/
def Dev.servoHold (d : Dev) : Dev := ({ d with ptp := { d.ptp with phase := 0 } }).showRate d.ptp.integ

/-- The ticks from one exchange to the next (R329). -/
def Dev.syncTicks (d : Dev) (n : Nat) : Nat := 8000 * 2 ^ (sint 8 (d.rd (Reg.PTP_PRATE_LOG_SYNC n)) + 8).toNat / 256

/-- While the steering port has no exchange, the servo applies no phase term (R331): none has come for longer than the port's Sync
interval. -/
def Dev.servoGap (d : Dev) : Dev :=
  match d.rd Reg.PTP_STATUS_STEER with
  | 0 => d
  | n + 1 =>
    if d.ptp.phase ≠ 0 ∧ ((d.pport n).lastTick.all fun t => decide (t + d.syncTicks n < d.tick)) then d.servoHold else d

/-- Port `n` begins to steer: the integrator starts from the frequency in force (R329). -/
def Dev.steerStart (d : Dev) (n : Nat) : Dev :=
  ({ d with ptp := { d.ptp with integ := d.ptp.rate, phase := 0 } }).wr Reg.PTP_STATUS_STEER (n + 1)

/-- No port steers; the lock of the one that did is cleared (R330). -/
def Dev.steerStop (d : Dev) : Dev :=
  let st := d.rd Reg.PTP_STATUS_STEER
  let d := d.wr Reg.PTP_STATUS_STEER 0
  if st = 0 then d else (d.setPport (st - 1) { d.pport (st - 1) with within := 0 }).setLock (st - 1) false

/-- A restart of the port's instance: its histories are cleared, and a servo that it steers holds its frequency (R326). -/
def Dev.ptpRestart (d : Dev) (n st : Nat) : Dev :=
  let x := d.pport n
  let d := (d.setPport n { lastTick := x.lastTick, annAt := d.tick, reb := x.reb, bout := x.bout }).setHold n none
  let d := if d.rd Reg.PTP_STATUS_STEER = n + 1 then d.servoHold else d
  (d.setLock n false).portSt n st

/-! ### Path steps (R328, R332 to R335) -/

/-- 64 × the mean over the last eight exchanges minus the baseline whose 64 values sum to `base`, in half ns. -/
def PtpPort.delta64 (x : PtpPort) (base : Int) : Int := 8 * sumOf (x.last.map (·.1)) - base

/-- Δ in ns from its 64-fold in half ns. -/
def deltaNs (x : Int) : Int := quot 3 x 128

/-- Post an event of the path step detector. -/
def Dev.pstepEvent (d : Dev) (code arg : Nat) : Dev := (d.flag Reg.PTP_STATUS_PSTEPEV).post 14 code arg

/-- The hold of port `n` ends; the detector starts anew. -/
def Dev.holdEnd (d : Dev) (n : Nat) : Dev := (d.setPport n { d.pport n with suspects := 0 }).setHold n none

/-- Revert (R333). -/
def Dev.pstepRevert (d : Dev) (n : Nat) : Dev := (d.holdEnd n).pstepEvent 5 n

/-- PTP_REBASEn shows the detector's part and REF's part, and REF_BOUT the latter (R357). -/
def Dev.showRebase (d : Dev) (n : Nat) : Dev :=
  let x := d.pport n
  let b := quot 7 x.bout 8000
  let d := d.wr (Reg.PTP_REBASE_REBASE n) (sat32 (x.reb + b))
  if d.ref.boutPort = n then d.wr Reg.REF_BOUT_NS (sat32 b) else d

/-- Re-baselining: the correction takes Δn, and the history of D moves to the new D (R333). -/
def Dev.pstepRebase (d : Dev) (n : Nat) (h : PathHold) : Dev :=
  let x := d.pport n
  let dn := deltaNs (x.delta64 h.base)
  let dd := quot 4 (8 * sumOf (x.last.map (·.2)) - h.baseD) 64
  let d := d.setPport n { x with good := x.good.map fun e => (e.1, e.2 + dd), reb := x.reb + dn }
  ((d.showRebase n).holdEnd n).pstepEvent 3 (n + sat32 dn * 2 ^ 32)

/-- Acceptance (R334); `both`: both ports agreed. -/
def Dev.pstepTake (d : Dev) (n : Nat) (h : PathHold) (both : Bool) : Dev :=
  let dn := deltaNs ((d.pport n).delta64 h.base)
  let d := (d.wr (Reg.PTP_PSTEPLOG_STEP n) (sat32 dn)).holdEnd n
  (d.setPport n { d.pport n with good := [] }).pstepEvent 4 (n + bit both * 2 ^ 8 + sat32 dn * 2 ^ 32)

/-- The other port is usable (R333). -/
def Dev.otherUsable (d : Dev) (n : Nat) (h : PathHold) : Bool :=
  let o := 1 - n
  let x := d.pport o
  d.ptpOn o && d.rd (Reg.PTP_PSTAT_STATE o) == 3 && (x.lastTick.elim false fun t => decide (d.tick ≤ t + 16000))
    && x.hold.isNone && h.other.isSome

/-- The decision eight exchanges after the firing (R333). -/
def Dev.pstepDecide (d : Dev) (n : Nat) (h : PathHold) : Dev :=
  let th : Int := d.rd Reg.PTP_PSTEP_THRESH
  let dn := (d.pport n).delta64 h.base
  let od := (d.pport (1 - n)).delta64 (h.other.getD 0)
  if dn.natAbs ≤ 64 * th then d.pstepRevert n
  else if !d.otherUsable n h then d.setHold n (some { h with single := true })
  else if od.natAbs ≤ 64 * th then d.pstepRebase n h
  else if od.natAbs > 128 * th ∧ (dn - od).natAbs ≤ 64 * th then d.pstepTake n h true
  else d.setHold n (some { h with single := true })

/-- An exchange of a port in path hold (R333, R334). -/
def Dev.holdStep (d : Dev) (n : Nat) (h : PathHold) : Dev :=
  let h := { h with count := h.count + 1 }
  let d := d.setHold n (some h)
  if h.single then
    if ((d.pport n).delta64 h.base).natAbs ≤ 64 * (d.rd Reg.PTP_PSTEP_THRESH : Int) then d.pstepRevert n else d
  else if h.count = 8 then d.pstepDecide n h
  else d

/-- The exchange is suspect (R328). -/
def Dev.suspect (d : Dev) (n : Nat) (th D : Int) : Bool :=
  let g := (d.pport n).good
  let lim : Int := 128 * d.rd Reg.PTP_PSTEP_THRESH
  g.length == 64 && (decide ((64 * th - sumOf (g.map (·.1))).natAbs > lim) || decide ((64 * D - sumOf (g.map (·.2))).natAbs > lim))

/-- The detector fires (R332). -/
def Dev.pstepFire (d : Dev) (n : Nat) (th : Int) : Dev :=
  let base := sumOf ((d.pport n).good.map (·.1))
  let og := (d.pport (1 - n)).good
  let other := if og.length = 64 then some (sumOf (og.map (·.1))) else none
  let baseD := sumOf ((d.pport n).good.map (·.2))
  let d := d.setHold n (some { tick := d.tick, base := base, baseD := baseD, other := other })
  (d.count (Reg.PTP_PSTEPCNT_COUNT n) Reg.PTP_STATUS_CNT_HALF).pstepEvent 2 (n + sat32 (quot 3 (64 * th - base) 128) * 2 ^ 32)

/-- The means of the last eight exchanges are shown (PTP_OFFn, PTP_MPDn). -/
def Dev.showOffset (d : Dev) (n : Nat) : Dev :=
  let l := (d.pport n).last
  let k := max 1 l.length
  (d.wr (Reg.PTP_OFF_THETA n) (sat32 (quot 5 (sumOf (l.map (·.1))) (2 * k)))).wr (Reg.PTP_MPD_D n)
    (sat32 (quot 6 (sumOf (l.map (·.2))) (2 * k)))

/-- Lock of the steering port follows an exchange that is not suspect (R330). -/
def Dev.lockStep (d : Dev) (n : Nat) (th : Int) : Dev :=
  let lim : Int := 2 * d.rd Reg.PTP_SERVO_LOCK_NS
  let x := d.pport n
  let w := if th.natAbs ≤ lim then x.within + 1 else 0
  let d := d.setPport n { x with within := w }
  if w ≥ 16 then d.setLock n true else if th.natAbs > 2 * lim then d.setLock n false else d

/-- An exchange of port `n` with offset and delay in half ns (R327 to R334). -/
def Dev.exchange (d : Dev) (n : Nat) (th D : Int) : Dev :=
  let d := d.count (Reg.PTP_EXCH_COUNT n) Reg.PTP_STATUS_CNT_HALF
  let bad := d.suspect n th D
  let x := d.pport n
  let fired := bad && x.suspects + 1 ≥ 3 && x.hold.isNone
  let x := { x with
    last := ((th, D) :: x.last).take 8, lastTick := some d.tick,
    good := if bad then x.good else ((th, D) :: x.good).take 64, suspects := if bad then x.suspects + 1 else 0 }
  let held := x.hold
  let d := (d.setPport n x).showOffset n
  let d := if bad then d.count (Reg.PTP_SUSPECT_COUNT n) Reg.PTP_STATUS_CNT_HALF else d
  let d := if d.steers n && !bad then d.lockStep n th else d
  let d := if d.steers n then (if bad || held.isSome then d.servoHold else d.servo n th) else d
  match held with
  | some h => d.holdStep n h
  | none => if fired then d.pstepFire n th else d

/-- The stamp of one of these frames was lost: the supervisor skips the exchange (R323). -/
def PtpPort.lacks (x : PtpPort) (fs : List (Bool × Nat × Nat)) : Bool := fs.any fun f => x.lost.contains f

/-- The losses that an exchange of these frames leaves to be met: the supervisor forgets those of earlier messages of the same kind,
whose exchanges are over. -/
def PtpPort.forget (x : PtpPort) (fs : List (Bool × Nat × Nat)) : PtpPort :=
  { x with lost := x.lost.filter fun l =>
      !fs.any fun f => f.1 == l.1 && f.2.1 == l.2.1 && f.2.2 != l.2.2 && decide ((f.2.2 + 65536 - l.2.2) % 65536 < 32768) }

/-- EXCHANGE (R327): θ = t2 − t1 − cS − D − ASYM − REBASE. One with a lost stamp is skipped (R323, R331). -/
def execExchange (n : Fin 2) (x : ExchangeData) (s : State) : Host.Outcome State Fault Refusal :=
  onDev (fun d =>
    if !d.ptpOn n || !d.supRuns then d else
    let d := match x.st with | some st => d.portSt n st | none => d
    let fs := x.frames.map fun f => (f.1, f.2.1.toNat, f.2.2.toNat)
    let skip := (d.pport n).lacks fs
    let d := d.setPport n ((d.pport n).forget fs)
    if skip then
      let d := d.count (Reg.PTP_SKIP_COUNT n) Reg.PTP_STATUS_CNT_HALF
      if d.rd Reg.PTP_STATUS_STEER = n + 1 then d.servoHold else d
    else
      let fwd := x.t2 - x.t1 - x.cS
      let D2 := if d.on (Reg.PTP_PCFG_DELAY n) then 2 * x.link else fwd + (x.t4 - x.t3 - x.cD)
      let th2 := 2 * fwd - D2 - 2 * sint 32 (d.rd (Reg.PTP_ASYM_ASYM n)) - 2 * sint 32 (d.rd (Reg.PTP_REBASE_REBASE n))
      (d.exchange n th2 D2).candCheck n) s

/-- PSTEP_ACCEPT (R334): the hold time has passed since the firing. -/
def execPstepAccept (n : Fin 2) (s : State) : Host.Outcome State Fault Refusal :=
  onDev (fun d => match (d.pport n).hold with
    | some h => if h.single && decide (h.tick + 8000 * d.rd Reg.PTP_PSTEP_HOLD ≤ d.tick) then d.pstepTake n h false else d
    | none => d) s

/-! ### Commands of PTP (R335) -/

/-- PTP_CMD.REBASEn. -/
def Dev.rebaseGo (d : Dev) (n : Nat) : Dev :=
  match (d.pport n).hold with
  | some h => d.pstepRebase n h
  | none => d

/-- PTP_CMD.ACCEPTn. -/
def Dev.acceptGo (d : Dev) (n : Nat) : Dev :=
  match (d.pport n).hold with
  | some h => d.pstepTake n h false
  | none => d

/-- PTP_CMD.CLRREBn: it acts in every state, and clears the build-out too (R335, R357). -/
def Dev.clrrebGo (d : Dev) (n : Nat) : Dev :=
  (d.setPport n { d.pport n with good := [], suspects := 0, reb := 0, bout := 0 }).showRebase n

/-- CMD fields of PTP. -/
def rebaseFld (n : Nat) : Fld := ⟨0x1400C, n, n⟩
def acceptFld (n : Nat) : Fld := ⟨0x1400C, 2 + n, 2 + n⟩
def clrrebFld (n : Nat) : Fld := ⟨0x1400C, 4 + n, 4 + n⟩

/-- REBASE (R335). -/
def execRebase (h : Agent) (n : Fin 2) (s : State) : Host.Outcome State Fault Refusal :=
  onDev (fun d => d.hostCmd h (rebaseFld n) [] fun d => d.rebaseGo n) s
/-- ACCEPT (R335). -/
def execAccept (h : Agent) (n : Fin 2) (s : State) : Host.Outcome State Fault Refusal :=
  onDev (fun d => d.hostCmd h (acceptFld n) [] fun d => d.acceptGo n) s
/-- CLRREB (R335). -/
def execClrreb (h : Agent) (n : Fin 2) (s : State) : Host.Outcome State Fault Refusal :=
  onDev (fun d => d.hostCmd h (clrrebFld n) [] fun d => d.clrrebGo n) s

/-- What a commit of G10 means for port `n`, whose configuration words were `cfg` and `rate` (R326). -/
def Dev.ptpCommit (d : Dev) (n : Nat) (cfg rate : Word) : Dev :=
  let was := (Reg.PTP_PCFG_ENABLE n).get cfg == 1
  let now := d.on (Reg.PTP_PCFG_ENABLE n)
  let changed := cfg != d.word (Reg.PTP_PCFG_ENABLE n).addr || rate != d.word (Reg.PTP_PRATE_LOG_SYNC n).addr
  if !now then (if was then d.ptpRestart n 7 else d)
  else if changed then d.ptpRestart n 0
  else d

end Sys2Proof.Machine
end

