-- ==== Sys2Proof/Machine/Ref.lean ====
section
/-! DEFINITION. Reference selection, switching and holdover (spec/11). -/
namespace Sys2Proof.Machine

/-- HOLDOVER is posted (R361, R368). -/
def Dev.postHoldover (d : Dev) (entered x : Bool) : Dev :=
  let d := { d with ref := { d.ref with inHo := entered } }
  (d.flag Reg.REF_STATUS_HOEV).post 16 4 (bit entered + bit x * 2 ^ 8 + d.rd Reg.REF_STATUS_HISTVALID * 2 ^ 9)

/-- SWITCH (R353, R354, R363): a decided switch begins at this boundary; without a candidate REF enters HOLDOVER_X. -/
def Dev.refSwitch (d : Dev) : Dev :=
  match d.ref.req with
  | none => d
  | some r =>
    let old := d.refSel
    let cls := if old < 2 then d.rd (Reg.PTP_GMQ_CLASS old) else if old = 6 ∨ old = 7 then d.ref.hoClass else 0
    let d := { d with ref := { d.ref with req := none, hoClass := cls, lockedAt := none } }
    let d := d.steerStop
    if r.cand = 7 then
      let d := ((d.wr Reg.REF_STATUS_STATE 4).wr Reg.REF_STATUS_SEL 7).count Reg.REF_HOCNT_COUNT Reg.REF_STATUS_CNT_HALF
      d.postHoldover true true
    else
      let d := { d with ref := { d.ref with begun := d.tick, other := d.ref.other || r.cand != 6 } }
      let d := ((d.wr Reg.REF_STATUS_STATE 1).wr Reg.REF_STATUS_SEL r.cand).wr Reg.REF_STATUS_PEND 7
      let d := (d.count Reg.REF_SWCNT_COUNT Reg.REF_STATUS_CNT_HALF).flag Reg.REF_STATUS_SWEV
      d.post 16 1 (old + r.cand * 2 ^ 8 + bit r.forced * 2 ^ 16)

/-- The remaining build-out of port `n` becomes `bout`, in 1/8000 ns (R357, R359): the offsets in the detector's history follow the
correction. -/
def Dev.setBuildOut (d : Dev) (n : Nat) (bout : Int) : Dev :=
  let x := d.pport n
  let by_ := quot 7 bout 8000 - quot 7 x.bout 8000
  let d := { d with ref := { d.ref with boutPort := n } }
  (d.setPport n { x with bout := bout, good := x.good.map fun e => (e.1 - 2 * by_, e.2) }).showRebase n

/-- The build-out of a switch to PTP port `n` (R357, R358). -/
def Dev.buildOut (d : Dev) (n : Nat) : Dev :=
  let x := d.pport n
  let b := quot 9 (sumOf (x.last.map (·.1))) (2 * max 1 x.last.length)
  let d := d.setBuildOut n (x.bout + 8000 * b)
  if b.natAbs > 62500 then (d.flag Reg.REF_STATUS_FAREV).post 16 6 (n + sat32 b * 2 ^ 32) else d

/-- SWITCH_DONE (R354, R357, R361): a switch completes 64 ticks after it began. -/
def execSwitchDone (s : State) : Host.Outcome State Fault Refusal :=
  onDev (fun d =>
    if d.refState ≠ 1 ∨ d.tick < d.ref.begun + 64 then d else
    let k := d.refSel
    let d := { d with ref := { d.ref with done := d.tick } }
    let d := (d.flag Reg.REF_STATUS_SWEV).post 16 2 k
    let d :=
      if k = 6 then
        if d.ref.other then
          let d := { d with ref := { d.ref with hoTick := d.tick } }
          let d := ((d.wr Reg.REF_STATUS_STATE 3).wr Reg.REF_HOTIME_SEC 0).count Reg.REF_HOCNT_COUNT Reg.REF_STATUS_CNT_HALF
          d.postHoldover true false
        else d.wr Reg.REF_STATUS_STATE 0
      else
        let d := { d with ref := { d.ref with lockedAt := some d.tick, hist := [] } }
        let d := d.wr Reg.REF_STATUS_STATE 2
        let d := if d.ref.inHo then d.postHoldover false false else d
        if k < 2 then (d.buildOut k).steerStart k else d
    d.refEval) s

/-- Ticks of wait-to-restore left (R353). -/
def Dev.wtrTicks (d : Dev) : Nat := 8000 * d.rd Reg.REF_TIMES_WTR - (d.tick - max d.ref.done d.ref.since)

/-- Seconds of wait-to-restore left (R353). -/
def Dev.wtrLeft (d : Dev) : Nat :=
  if d.rd Reg.REF_STATUS_PEND = 7 ∨ d.refState = 1 then 0 else (quot 8 d.wtrTicks 8000).toNat

/-- A non-forced switch waits (R353). -/
def Dev.refWaits (d : Dev) : Bool := d.on Reg.REF_CFG_ENABLE && d.rd Reg.REF_STATUS_PEND != 7 && d.refState != 1

/-- The waiting non-forced switch begins at the next boundary. -/
def Dev.refGo (d : Dev) : Dev := { d with ref := { d.ref with req := some ⟨d.rd Reg.REF_STATUS_PEND, false⟩ } }

/-- WTR_EXPIRY (R353). -/
def execWtrExpiry (s : State) : Host.Outcome State Fault Refusal :=
  onDev (fun d => if d.refWaits && d.wtrTicks == 0 then d.refGo else d) s

/-- The result of a command of REF. -/
def Dev.refResult (d : Dev) (c : Nat) : Dev := (d.wr Reg.REF_CMDRES_REASON c).wr Reg.REF_CMDRES_VALID 1

/-- REF_CMD.SWITCHNOW (R353). -/
def Dev.switchNowGo (d : Dev) : Dev :=
  if d.refWaits then d.refGo.refResult 0 else d.refResult 0x12

/-- SWITCHNOW (R353). -/
def execSwitchnow (h : Agent) (s : State) : Host.Outcome State Fault Refusal :=
  onDev (fun d => d.hostCmd h Reg.REF_CMD_SWITCHNOW [] Dev.switchNowGo) s

/-! ### Re-anchors (R11, R359) -/

/-- `x / 125 µs` to the nearest integer, halves away from zero (R11). -/
def ticksOf (x : Int) : Int :=
  let q : Int := ((2 * x.natAbs + 125000) / 250000 : Nat)
  if x < 0 then -q else q

/-- A re-anchor against PTP time that is `diff` ns ahead of internal time (R11). -/
def Dev.anchor (d : Dev) (diff : Int) (cmd : Bool) : Dev :=
  let k := ticksOf diff
  if k = 0 then (if cmd then d else d.wr Reg.PTP_STATUS_ANCHORED 1).post 16 7 0
  else { d with ref := { d.ref with anchor := some ⟨k, diff - k * 125000, cmd⟩ } }

/-- REF_CMD.REANCHOR (R359). -/
def Dev.reanchorGo (d : Dev) (diff : Int) : Dev :=
  if d.candState 0 = 3 ∨ d.candState 1 = 3 then (d.anchor diff true).refResult 0 else d.refResult 0x11

/-- REF_CMD.REANCHOR written without the difference at hand: it is free. -/
def Dev.reanchorFree (d : Dev) : Dev :=
  let (d, x) := d.fresh
  let (d, y) := d.fresh
  d.reanchorGo (x.toInt * 2 ^ 32 + y.toNat)

/-- REANCHOR (R359). -/
def execReanchor (h : Agent) (ptpDiff : Int) (s : State) : Host.Outcome State Fault Refusal :=
  onDev (fun d => d.hostCmd h Reg.REF_CMD_REANCHOR [] fun d => d.reanchorGo ptpDiff) s

/-- The re-anchor that takes effect at this boundary is recorded (R11, R359): the residual becomes the build-out of the
selected PTP candidate. -/
def Dev.anchorDone (d : Dev) (a : AnchorReq) : Dev :=
  let d := { d with ref := { d.ref with anchor := none } }
  let d := (d.wr Reg.PTP_STATUS_ANCHORED 1).post 16 7 (uint 64 a.k)
  let n := d.refSel
  if n < 2 then d.setBuildOut n (-8000 * a.residual) else d

/-! ### Estimates (R346, R360, R365) -/

/-- Candidate `k`'s estimate at this boundary, or its absence (R346, R347, R365). -/
def Dev.estimate (d : Dev) (est : List (Fin 6 × BitVec 32)) (k : Nat) : Dev :=
  match est.find? fun e => e.1.val == k && (decide (k < 2) || d.on Reg.TIM_CFG_ENABLE) with
  | some e =>
    let f := e.2.toInt
    let d := d.wr (Reg.REF_CFREQ_FREQ k) e.2.toNat
    let d := if d.refState = 2 ∧ d.refSel = k then
        { d with ref := { d.ref with hist := ((d.tick, f) :: d.ref.hist).filter fun x => decide (x.1 + 8000 * 1300 > d.tick) } }
      else d
    if !d.on Reg.REF_STATUS_OSCIN_OK && d.refSel == k then d else d.judgeCand k f
  | none =>
    if k < 2 then d
    else if 3 ≤ d.candState k then d.toCand k 2
    else d.setCand k { d.cand k with good := none }

/-- ESTIMATE_UPDATE (R346, R347, R352; R11 at the first qualification of a PTP candidate), once at each boundary at which SCH_TICK is a
multiple of 8. -/
def execEstimateUpdate (est : List (Fin 6 × BitVec 32)) (ptpDiff : Int) (s : State) : Host.Outcome State Fault Refusal :=
  onDev (fun d =>
    if !d.on Reg.REF_CFG_ENABLE ∨ d.tick % 8 ≠ 0 ∨ d.ref.estAt = some d.tick then d else
    let d := { d with ref := { d.ref with estAt := some d.tick } }
    let d := (List.range 6).foldl (fun d k => d.estimate est k) d
    let d := if !d.on Reg.PTP_STATUS_ANCHORED && d.ref.anchor.isNone && (d.candState 0 == 3 || d.candState 1 == 3) then
        d.anchor ptpDiff false else d
    d.refEval) s

/-! ### Events of the candidates (R345, R347 to R350, R364) -/

/-- The OCXO is warm by its present inputs (R364): with USE_RDY once OCXO_RDY has been active for WARM_DLY, otherwise once OSCIN has been
present so long. -/
def Dev.ocxoReady (d : Dev) : Bool :=
  let since := if d.on Reg.REF_OCXO_USE_RDY then d.ref.rdyAt else d.ref.oscAt
  (!d.on Reg.REF_OCXO_USE_RDY || d.ref.rdy != d.on Reg.REF_OCXO_RDYPOL)
    && decide (since + 8000 * d.rd Reg.REF_OCXO_WARM_DLY ≤ d.tick)

/-- OSCIN is present or absent and OCXO_RDY at level `rdy`: presence and warmth follow (R364, R365). -/
def Dev.setOcxo (d : Dev) (present rdy : Bool) : Dev :=
  let was := d.on Reg.REF_STATUS_OSCIN_OK
  let r := d.ref
  let d := { d with ref := { r with
    rdy := rdy, rdyAt := if r.rdy = rdy then r.rdyAt else d.tick, oscAt := if was = present then r.oscAt else d.tick } }
  let w := present && d.ocxoReady
  if was = present ∧ d.on Reg.REF_STATUS_OCXO_WARM = w then d else
  let d := { d with ref := { d.ref with
    warmAt := if w then some (r.warmAt.getD d.tick) else none,
    warmPrev := if w then r.warmPrev else match r.warmAt with | some t => (t, d.tick) | none => r.warmPrev } }
  let d := [(Reg.REF_STATUS_OSCIN_OK, bit present), (Reg.REF_STATUS_OCXO_WARM, bit w),
    (Reg.REF_STATUS_NOMON, bit (!present))].foldl (fun d e => d.wr e.1 e.2) d
  let d := (d.flag Reg.REF_STATUS_OCXOEV).post 16 5 (bit w + bit present * 2)
  if was = present then d.showCands else d.candCheck 6

/-- ANNOUNCE (R342, R348). -/
def execAnnounce (n : Fin 2) (gmid : BitVec 64) (cls acc : BitVec 8) (variance : BitVec 16) (st : Option (Fin 8)) (s : State) :
    Host.Outcome State Fault Refusal :=
  onDev (fun d =>
    if !d.on (Reg.PTP_PCFG_ENABLE n) || !d.supRuns then d else
    let d := d.setPport n { d.pport n with annAt := d.tick }
    let d := match st with | some x => d.portSt n x | none => d
    let d := [(Reg.PTP_GMQ_CLASS n, cls.toNat), (Reg.PTP_GMQ_ACCURACY n, acc.toNat), (Reg.PTP_GMQ_VARIANCE n, variance.toNat)].foldl
      (fun d e => d.wr e.1 e.2) d
    let hi : Nat := gmid.toNat / 2 ^ 32
    let lo : Nat := gmid.toNat % 2 ^ 32
    let d := if d.rd (Reg.PTP_GMID_HI n) = hi ∧ d.rd (Reg.PTP_GMID_LO n) = lo then d
      else (((d.wr (Reg.PTP_GMID_HI n) hi).wr (Reg.PTP_GMID_LO n) lo).flag Reg.PTP_STATUS_STATEEV).post 14 7 n
    (d.setCand n { d.cand n with qcode := BitVec.ofNat 8 (announceCode cls.toNat acc.toNat) }).showCands) s

/-- announceReceiptTimeout of port `n` in ticks: ANN_TMO Announce intervals (R325). -/
def Dev.annTicks (d : Dev) (n : Nat) : Nat :=
  d.rd (Reg.PTP_PRATE_ANN_TMO n) * (8000 * 2 ^ (sint 8 (d.rd (Reg.PTP_PRATE_LOG_ANN n)) + 8).toNat / 256)

/-- ANNOUNCE_RECEIPT_TIMEOUT (R325): no Announce has come for so long. -/
def execAnnounceReceiptTimeout (n : Fin 2) (st : Fin 8) (s : State) : Host.Outcome State Fault Refusal :=
  onDev (fun d =>
    if d.on (Reg.PTP_PCFG_ENABLE n) && d.supRuns && decide ((d.pport n).annAt + d.annTicks n ≤ d.tick) then d.portSt n st else d) s

/-- ESMC_PDU (R349). -/
def execEsmcPdu (n : Fin 2) (ssm : BitVec 4) (s : State) : Host.Outcome State Fault Refusal :=
  onDev (fun d =>
    if !d.supRuns || !d.on (Reg.MAC_STATUS_LINK n) then d else
    ((d.wr (Reg.REF_CSTAT_SSM (2 + n)) ssm.toNat).setCand (2 + n) { d.cand (2 + n) with heard := some d.tick }).showCands) s

/-- ESMC_TIMEOUT (R349): no PDU has come for 5 s. -/
def execEsmcTimeout (n : Fin 2) (s : State) : Host.Outcome State Fault Refusal :=
  onDev (fun d =>
    if (d.cand (2 + n)).heard.any fun t => decide (t + 40000 ≤ d.tick) then
      (d.setCand (2 + n) { d.cand (2 + n) with heard := none }).showCands
    else d) s

/-! ### Commits and boundaries -/

/-- The state of candidate `k` at a commit (R347): DISABLED with PRIO 0, LOS while lost; one that was neither starts anew. -/
def Dev.candCommit (d : Dev) (k : Nat) : Dev :=
  if d.rd (Reg.REF_CAND_PRIO k) = 0 then d.toCand k 0
  else if d.candState k ≤ 1 ∨ d.candIsLost k then d.toCand k (d.candFresh k)
  else d

/-- REF stops: what it counted and decided does not outlive the stop. -/
def Dev.refStop (d : Dev) : Dev :=
  let d := (List.range 6).foldl (fun d k => d.setCand k { d.cand k with good := none, soft := none }) d
  { d with ref := { d.ref with req := none, best := 7 } }

/-- What a commit of G11 means (R347, R349, R352, R364, R370). -/
def Dev.refCommit (d : Dev) : Dev :=
  let d := d.setOcxo (d.on Reg.REF_STATUS_OSCIN_OK) d.ref.rdy
  if !d.on Reg.REF_CFG_ENABLE then d.refStop else ((List.range 7).foldl Dev.candCommit d).refEval

/-- The rate toward which REF moves internal time, where REF itself does so (R356, R361): the digital PLL's for candidates 2 to 5, which the
spec does not give, and that of the OCXO against XTALIN, which is an input, with the correction h in holdover. -/
def Dev.rateTarget (d : Dev) : Option (Dev × Int) :=
  let (e, w) := d.fresh
  let x := w.toInt * (ppb / 2 ^ 12)
  if d.refState = 2 ∧ 2 ≤ d.refSel then some (e, x)
  else if d.refState = 3 then
    let h := max (-80000) (min (sint 32 (d.rd Reg.REF_HOFREQ_FREQ) + sint 32 (d.rd Reg.AGE_CORR_CORR)) 80000)
    some (e, x + h * (ppb / 100))
  else if d.refState = 0 ∧ d.refSel = 6 then some (e, x)
  else none

/-- One boundary's step of the rate of internal time, of at most FSLOPE / 8,000 (R356). -/
def Dev.rateStep (d : Dev) : Dev :=
  match d.rateTarget with
  | none => d
  | some (d, x) =>
    let step := d.rd Reg.REF_SLEW_FSLOPE * (ppb / 8000)
    d.showRate (d.ptp.rate + max (-step) (min (x - d.ptp.rate) step))

/-- BUILD_OUT_STEP (R357), the rate (R356), and the counts of seconds of REF, at a boundary. -/
def Dev.refTick (d : Dev) : Dev :=
  let step : Int := d.rd Reg.REF_SLEW_PHASE
  let d := [0, 1].foldl (fun d n =>
    let b := (d.pport n).bout
    if b = 0 then d
    else (d.setPport n { d.pport n with bout := if b.natAbs ≤ step then 0 else if b > 0 then b - step else b + step }).showRebase n) d
  let d := if d.refState = 3 then d.wr Reg.REF_HOTIME_SEC ((d.tick - d.ref.hoTick) / 8000) else d
  d.rateStep.wr Reg.REF_WTRLEFT_SEC d.wtrLeft

/-! ### PTP messages of a master port (R319, R366) -/

/-- The quality a master port announces: class, accuracy, variance, and the port whose grandmaster it names (R366). -/
def Dev.masterQuality (d : Dev) : Nat × Nat × Nat × Option Nat :=
  let sel := d.refSel
  if (d.refState = 1 ∨ d.refState = 2) ∧ sel < 2 then
    (d.rd (Reg.PTP_GMQ_CLASS sel), d.rd (Reg.PTP_GMQ_ACCURACY sel), d.rd (Reg.PTP_GMQ_VARIANCE sel), some sel)
  else if d.refState = 3 ∧ d.ref.hoClass = 6 then
    if d.on Reg.REF_STATUS_HISTVALID && d.on Reg.REF_STATUS_OCXO_WARM
        && decide (d.rd Reg.REF_HOTIME_SEC < d.rd Reg.REF_HO_INSPEC) then (7, 0x25, 0xFFFF, none)
    else (52, 0xFE, 0xFFFF, none)
  else (248, 0xFE, 0xFFFF, none)

/-- PTP_MESSAGE_SEND (R319, R366): an Announce message of a MASTER port carries the quality of R366. -/
def execPtpMessageSend (n : Fin 2) (bytes : List Byte) (stamp oneStep : Bool) (tag : BitVec 16) (ns : Nat) (s : State) :
    Host.Outcome State Fault Refusal :=
  onDev (fun d =>
    let d := d.at ns
    if !d.on (Reg.PTP_PCFG_ENABLE n) || !d.supRuns then d else
    let b := bytes.map (·.toNat)
    let q := d.masterQuality
    let b := match ptpAt b with
      | some (o, _) =>
        if byteAt b o % 16 = 0xB ∧ d.rd (Reg.PTP_PSTAT_STATE n) = 4 then
          let b := patch b (o + 48) ([q.1, q.2.1] ++ toBe 2 q.2.2.1)
          match q.2.2.2 with
          | some g => patch b (o + 53) (toBe 4 (d.rd (Reg.PTP_GMID_HI g)) ++ toBe 4 (d.rd (Reg.PTP_GMID_LO g)))
          | none => b
        else b
      | none => b
    let sync := (ptpAt b).any fun o => byteAt b o.1 % 16 == 0
    d.supSend n (d.rd (Reg.MAC_SUPQ_PTPQ n))
      { bytes := b, stamp := stamp, oneStep := oneStep && sync && d.on (Reg.PTP_PCFG_ONESTEP n), tag := tag.toNat }) s

end Sys2Proof.Machine
end

