-- ==== Sys2Proof/Machine/Tim.lean ====
section
/-! DEFINITION. Time-interval measurement (spec/13), the time triggers that fire, and the OCXO. -/
namespace Sys2Proof.Machine

def Dev.timU (d : Dev) (u : Nat) : TimU := Sparse.get {} d.tim.units u
def Dev.setTimU (d : Dev) (u : Nat) (x : TimU) : Dev := { d with tim := { d.tim with units := Sparse.put {} d.tim.units u x } }
def Dev.timIn (d : Dev) (k : Nat) : TimIn := Sparse.get {} d.tim.ins k
def Dev.setTimIn (d : Dev) (k : Nat) (x : TimIn) : Dev := { d with tim := { d.tim with ins := Sparse.put {} d.tim.ins k x } }

/-! ### Conditioned inputs (R400) -/

/-- The conditioned signal takes the comparator level now, and hold-off begins if it has a length. -/
def Dev.timEdge (d : Dev) (k : Nat) (x : TimIn) : Dev :=
  d.setTimIn k { x with cond := x.comp, hold := decide (0 < d.rd (Reg.TIM_IN_HOLDOFF k)), edgeAt := d.timeNs }

/-- COMPARATOR_TRANSITION (R400). -/
def execComparatorTransition (k : Fin 18) (level : Bool) (ns : Nat) (s : State) : Host.Outcome State Fault Refusal :=
  onDev (fun d =>
    let d := d.at ns
    let x := d.timIn k
    if x.comp = level then d
    else if x.hold then (d.setTimIn k { x with comp := level }).count (Reg.TIM_HOCNT_COUNT k) Reg.TIM_STATUS_CNT_HALF
    else d.timEdge k { x with comp := level }) s

/-- HOLDOFF_END (R400): HOLDOFF × 10 ns after the last transition of the conditioned signal. -/
def execHoldoffEnd (k : Fin 18) (ns : Nat) (s : State) : Host.Outcome State Fault Refusal :=
  onDev (fun d =>
    let d := d.at ns
    let x := d.timIn k
    if !x.hold ∨ d.timeNs < x.edgeAt + 10 * d.rd (Reg.TIM_IN_HOLDOFF k) then d
    else if x.comp = x.cond then d.setTimIn k { x with hold := false }
    else d.timEdge k x) s

/-! ### What a unit runs with (R409, R468) -/

/-- The words of TIM_UCFGu, TIM_USRCu, TIM_UNu, TIM_UTMOu and TIM_UNOMu. -/
def Dev.unitWords (d : Dev) (u : Nat) : List Nat :=
  (List.range 5).map fun i => (d.word (0x19200 + 0x40 * u + 4 * i)).toNat

/-- Configuration words of a unit from its fields. -/
def unitCfg (en mode cont nstop statstop start stop n time nom edges : Nat) : List Nat :=
  [en % 2 + mode % 4 * 2 + cont % 2 * 8 + edges % 4 * 16 + nstop % 16 * 256 + statstop % 16 * 4096,
   start % 64 + stop % 64 * 256, n % 65536, time % 2 ^ 24, nom % 2 ^ 32]

/-- The nominal frequency of candidate `k` in 1/16 Hz: SyncE by line speed, 10 MHz, or the word clock (R345, R404). -/
def Dev.candNom (d : Dev) (k : Nat) : Nat :=
  if k < 4 then
    match d.rd (Reg.MAC_STATUS_SPEED_NOW (k - 2)) with
    | 0 => 2578125000
    | 1 => 2500000000
    | _ => 2000000000
  else if d.rd (Reg.REF_CAND_KIND k) = 1 then 160000000
  else [512000, 705600, 768000, 1411200, 1536000].getD (d.rd (Reg.REF_CAND_WCF k)) 0

/-- What REF applies to unit `u`, 0 to 3 (R409): candidates 4, 5, 2, 3 in frequency mode with a gate of 1 s, and PPS in
interval mode. -/
def Dev.refUnit (d : Dev) (u : Nat) : List Nat :=
  let k := if u < 2 then 4 + u else u
  let src := if u < 2 then 16 + u else 22 + u
  let pps := decide (u < 2) && d.rd (Reg.REF_CAND_KIND k) == 2
  let en := bit (d.on Reg.REF_CFG_ENABLE && d.rd (Reg.REF_CAND_PRIO k) != 0)
  let x := Config.refUnit u
  unitCfg en (bit (!pps)) (x 1) (x 2) (x 3) (if pps then src else x 4) src (x 0) (if pps then x 5 else 1000)
    (if pps then x 6 else d.candNom k) (x 7)

/-- What AGE applies to unit 4 (R494). The fields that frequency mode does not use keep their values. -/
def Dev.ageUnit (d : Dev) : List Nat :=
  unitCfg (bit (d.on Reg.AGE_CFG_ENABLE)) 1 1 1 1 0 26 3600 1000 393216000 0

/-- The words of units 0 to 4 show what their owner has applied (R409). -/
def Dev.showUnits (d : Dev) : Dev :=
  (List.range 5).foldl (fun d u =>
    let ws := if u < 4 then d.refUnit u else d.ageUnit
    ws.zipIdx.foldl (fun d w => d.setWord (0x19200 + 0x40 * u + 4 * w.2) (BitVec.ofNat 32 w.1)) d) d

/-- Unit `u` is run by the surveillance (R409). -/
def Dev.survUnit (d : Dev) (u : Nat) : Bool := decide (5 ≤ u) && d.on (Reg.TIM_UCFG_OWNER u)

/-- The configuration with which unit `u` runs; empty while it does not (R409, R419, R468). -/
def Dev.unitRun (d : Dev) (u : Nat) : List Nat :=
  if !d.on Reg.TIM_CFG_ENABLE then []
  else if d.survUnit u then
    if d.on (Reg.ALM_AMP_EN (u - 5)) then
      unitCfg 1 1 1 1 1 0 (d.rd (Reg.ALM_AMP_SRC (u - 5))) 1 1000 (16 * d.rd Reg.ALM_PILOT_FREQ) 0
    else []
  else if d.on (Reg.TIM_UCFG_EN u) then d.unitWords u
  else []

/-- Fields of a unit's configuration. -/
def TimU.field (x : TimU) (i hi lo : Nat) : Nat := bits (x.cfg.getD i 0) hi lo
def TimU.freq (x : TimU) : Bool := x.field 0 2 1 == 1

/-- A gate of unit `u` begins now (R413). -/
def Dev.gateStart (d : Dev) (u : Nat) : Dev :=
  let x := d.timU u
  if !x.freq then d
  else
    let cal := d.on Reg.TIM_STATUS_CAL
    d.setTimU u { x with gateAt := d.tick, cold := d.timCold, warm := !d.timCold, uncal := !cal, cal := cal }

/-- The gates in progress take note of the tags that edges get from now on (R416). -/
def Dev.markGates (d : Dev) : Dev :=
  let cal := d.on Reg.TIM_STATUS_CAL
  (List.range 12).foldl (fun d u =>
    let x := d.timU u
    if !x.freq then d
    else d.setTimU u { x with cold := x.cold || d.timCold, warm := x.warm || !d.timCold, uncal := x.uncal || !cal, cal := x.cal || cal }) d

/-- After a commit, or a change of what an owner applies: a unit whose configuration has changed discards its sample and
its block (R418, R419). -/
def Dev.timApply (d : Dev) : Dev :=
  let d := d.showUnits
  (List.range 12).foldl (fun d u =>
    let now := d.unitRun u
    if now = (d.timU u).cfg then d
    else (((d.setTimU u { cfg := now, begun := d.tick }).gateStart u).wr (Reg.TIM_URES_VALID u) 0).wr (Reg.TIM_URES_STATE u) (bit (!now.isEmpty))) d

/-! ### Samples and blocks (R410 to R416) -/

/-- `x / k` rounded to nearest, ties away from zero (R414). -/
def roundAway (x : Int) (k : Nat) : Int :=
  let q := ((2 * x.natAbs + k) / (2 * k) : Nat)
  if x < 0 then -(q : Int) else (q : Int)

/-- SDEV (R414): 256 times the population deviation, to nearest, ties up. -/
def sdev (n : Nat) (sum : Int) (squares : Nat) : Nat :=
  let a := ((n : Int) * (squares : Int) - sum * sum).natAbs
  (sqrtBits (262144 * a / (n * n)) 64 + 1) / 2

/-- The block of unit `u` is complete: results, VALID, DONE (R414, R415). -/
def Dev.blockDone (d : Dev) (u : Nat) (x : TimU) : Dev :=
  let mean := roundAway (256 * x.sum) x.n
  let m := uint 40 mean
  let d := [(Reg.TIM_URES_COUNT u, x.n), (Reg.TIM_URES_COLD u, bit x.bcold), (Reg.TIM_URES_UNCAL u, bit x.buncal),
    (Reg.TIM_URES_VALID u, 1), (Reg.TIM_UMEANL_MEAN u, m % 2 ^ 32), (Reg.TIM_UMEANH_MEAN u, m / 2 ^ 32),
    (Reg.TIM_USDEV_SDEV u, satTo 32 (sdev x.n x.sum x.squares)), (Reg.TIM_UMIN_MIN u, uint 32 x.least),
    (Reg.TIM_UMAX_MAX u, uint 32 x.most), (Reg.TIM_UTICK_TICK u, d.schTick)].foldl (fun d e => d.wr e.1 e.2) d
  let d := (d.flag Reg.TIM_STATUS_DONEEV).count (Reg.TIM_UBLK_COUNT u) Reg.TIM_STATUS_CNT_HALF
  let d := if d.rd Reg.TIM_DONE_EV_EV / 2 ^ u % 2 = 1 then
      d.post 19 1 (u + bit x.bcold * 2 ^ 8 + bit x.buncal * 2 ^ 9 + d.schTick * 2 ^ 32)
    else d
  let d := if x.field 0 3 3 = 1 then d else d.wr (Reg.TIM_URES_STATE u) 2
  d.setTimU u { cfg := x.cfg, begun := d.tick }

/-- A complete sample of value `v` enters the block of unit `u` (R412, R414). -/
def Dev.sampleIn (d : Dev) (u : Nat) (x : TimU) (v : Int) (cold uncal : Bool) : Dev :=
  let x := { x with
    n := x.n + 1, sum := x.sum + v, squares := x.squares + v.natAbs * v.natAbs,
    least := if x.n = 0 then v else min x.least v, most := if x.n = 0 then v else max x.most v,
    bcold := x.bcold || cold, buncal := x.buncal || uncal }
  if x.n ≥ x.field 2 15 0 then d.blockDone u x else d.setTimU u x

/-- TIM_ULSu and the stop times of the last sample (R412, R416). -/
def Dev.lastSample (d : Dev) (u : Nat) (stops : List Int) (cold uncal complete : Bool) : Dev :=
  let d := [(Reg.TIM_ULS_STOPS u, stops.length), (Reg.TIM_ULS_COLD u, bit cold), (Reg.TIM_ULS_UNCAL u, bit uncal),
    (Reg.TIM_ULS_COMPLETE u, bit complete)].foldl (fun d e => d.wr e.1 e.2) d
  stops.zipIdx.foldl (fun d t => d.setWord (0x19604 + 0x40 * u + 4 * t.2) (BitVec.ofInt 32 t.1)) d

/-- The sample of unit `u` ends (R410, R412); `cut`: a relock interrupted it. -/
def Dev.sampleEnd (d : Dev) (u : Nat) (cut : Bool) : Dev :=
  let x := d.timU u
  let st := x.field 0 15 12
  let wide := x.stops.any fun t => decide (t > 2 ^ 31 - 1)
  let ok := !cut && !wide && decide (x.stops.length ≥ st)
  let d := d.lastSample u x.stops x.cold x.uncal ok
  let y := { x with start := none, stops := [], cold := false, uncal := false }
  if ok then d.sampleIn u y (x.stops.getD (st - 1) 0) x.cold x.uncal
  else (d.setTimU u y).count (Reg.TIM_UMISS_COUNT u) Reg.TIM_STATUS_CNT_HALF

/-- TIM_SKEW of a source, which external inputs have (R403). -/
def Dev.skewOf (d : Dev) (src : Nat) : Int := if src < 18 then sint 16 (d.rd (Reg.TIM_SKEW_SKEW src)) else 0

/-- Unit `u` measures: it runs in the mode given, and the TIM PLL is locked (R405). -/
def Dev.measures (d : Dev) (u : Nat) (freq : Bool) : Bool :=
  let x := d.timU u
  !x.cfg.isEmpty && x.freq == freq && d.rd (Reg.TIM_URES_STATE u) == 1 && d.on Reg.TIM_STATUS_PLLLOCK

/-- The source has edges: a probe whose clock is stopped has none (R404). A conditioned input stands at the level behind the edge that
the unit selects, `falling` or rising (R401). -/
def Dev.srcEdge (d : Dev) (src : Nat) (falling : Bool) : Bool :=
  if src < 18 then (d.timIn src).cond != falling
  else if src = 24 ∨ src = 25 then d.on (Reg.MAC_STATUS_LINK (src - 24))
  else if src = 26 ∨ src = 27 then [0, 1].any fun x => d.synOn x && d.rd (Reg.SYNX_CFG_PLAN x) == src - 26
  else if src = 28 ∨ src = 29 then d.synOn (src - 28)
  else true

/-- TMO of unit `u`'s sample in LSB (R410). -/
def TimU.timeout (x : TimU) : Int := 16000 * x.field 3 23 0

/-- The sample of unit `u` ends where it has run for TMO by the time `t` (R410). -/
def Dev.timedOut (d : Dev) (u : Nat) (t : Int) : Dev :=
  match (d.timU u).start with
  | some t0 => if d.measures u false && decide (t0 + (d.timU u).timeout < t) then d.sampleEnd u false else d
  | none => d

/-- START_EDGE (R410, R411). -/
def execStartEdge (u : Fin 12) (t : BitVec 64) (s : State) : Host.Outcome State Fault Refusal :=
  onDev (fun d =>
    let t : Int := t.toNat + d.skewOf ((d.timU u).field 1 5 0)
    let d := d.timedOut u t
    let x := d.timU u
    if d.measures u false && x.start.isNone && d.srcEdge (x.field 1 5 0) (x.field 0 4 4 == 1) then
      d.setTimU u { x with start := some t, stops := [], cold := d.timCold, uncal := !d.on Reg.TIM_STATUS_CAL }
    else d) s

/-- STOP_EDGE (R410, R411). -/
def execStopEdge (u : Fin 12) (t : BitVec 64) (s : State) : Host.Outcome State Fault Refusal :=
  onDev (fun d =>
    let t : Int := t.toNat + d.skewOf ((d.timU u).field 1 13 8)
    let d := d.timedOut u t
    let x := d.timU u
    match x.start with
    | some t0 =>
      let src := x.field 1 13 8
      let dt := t - t0
      if !d.measures u false ∨ !d.srcEdge src (x.field 0 5 5 == 1) ∨ dt < 0
          ∨ (dt = 0 ∧ src = x.field 1 5 0 ∧ x.field 0 4 4 = x.field 0 5 5) then d else
      let x := { x with stops := x.stops ++ [dt], cold := x.cold || d.timCold, uncal := x.uncal || !d.on Reg.TIM_STATUS_CAL }
      let d := d.setTimU u x
      if x.stops.length ≥ x.field 0 11 8 then d.sampleEnd u false else d
    | none => d) s

/-- SAMPLE_TIMEOUT (R410): at `t` the sample has run for TMO. -/
def execSampleTimeout (u : Fin 12) (t : BitVec 64) (s : State) : Host.Outcome State Fault Refusal :=
  onDev (fun d => d.timedOut u (t.toNat + 1)) s

/-- The sample y of a gate (R413): f / NOM − 1 in units of 2^-12 ppb. The spec states no rounding, and no value for edges
that all fall in one LSB or a nominal frequency of 0. -/
def Dev.gateSample (d : Dev) (edges span nom : Nat) : Dev × Int :=
  if span * nom = 0 then
    let (d, w) := d.fresh
    (d, w.toInt)
  else
    let num : Int := (((edges - 1) * 256000000000 : Nat) : Int) - ((span * nom : Nat) : Int)
    let y := quot 11 (num * 4096000000000) (span * nom)
    (d, max (-(2 ^ 31)) (min y (2 ^ 31 - 1)))

/-- An hourly block of unit 4 (R494): it counts when it is not tagged and REF was LOCKED on one candidate throughout. -/
def Dev.ageBlock (d : Dev) (begun : Nat) : Dev :=
  let locked := d.refState == 2 && decide (d.refSel ≤ 5) && d.ref.lockedAt.elim false fun t => decide (t ≤ begun)
  if !d.on (Reg.TIM_URES_COLD 4) && !d.on (Reg.TIM_URES_UNCAL 4) && locked then
    let mean := sint 40 (d.rd (Reg.TIM_UMEANL_MEAN 4) + 2 ^ 32 * d.rd (Reg.TIM_UMEANH_MEAN 4))
    let d := { d with age := { d.age with hist := { d.age.hist with means := d.age.hist.means ++ [-mean] } } }
    d.wr Reg.AGE_OCXOFREQ_FREQ (sat32 (quot 12 (-mean * 100) (2 ^ 20)))
  else d

/-- A gate of unit `u` is incomplete (R412, R413); an amplifier check fails it (R468). -/
def Dev.gateMissed (d : Dev) (u : Nat) (cold uncal : Bool) : Dev :=
  let d := (d.lastSample u [] cold uncal false).count (Reg.TIM_UMISS_COUNT u) Reg.TIM_STATUS_CNT_HALF
  if d.survUnit u then d.ampGate (u - 5) false else d

/-- A tag of a gate (R416): it holds an edge timed while the tag applied, `seen`, for certain where it applied throughout; where it applied
for a part only, `edge` tells. -/
def gateTag (seen other edge : Bool) : Bool := seen && (!other || edge)

/-- `len` ticks of OCXO time have passed since tick `t`: the two time scales differ by less than one part in a thousand (R13, R363), and
`t` lies within its tick. -/
def Dev.timPassed (d : Dev) (t len : Nat) : Bool := decide (t + len ≤ d.tick + 1 + len / 1000)

/-- GATE_END (R413, R414, R468, R494): the gate has lasted GATE ms; `span` lies within it. -/
def execGateEnd (u : Fin 12) (edges : BitVec 32) (span : BitVec 64) (cold uncal : Bool) (s : State) :
    Host.Outcome State Fault Refusal :=
  onDev (fun d =>
    let x := d.timU u
    let gate := x.field 3 23 0
    if !d.measures u true || !d.timPassed x.gateAt (8 * gate) || decide (16000000 * gate < span.toNat) then d else
    let cold := gateTag x.cold x.warm cold
    let uncal := gateTag x.uncal x.cal uncal
    if edges.toNat < 2 then (d.gateMissed u cold uncal).gateStart u
    else
      let (d, y) := d.gateSample edges.toNat span.toNat (x.field 4 31 0)
      let d := ((d.lastSample u [y] cold uncal true).sampleIn u x y cold uncal).gateStart u
      let d := if d.survUnit u then d.ampGate (u - 5) (decide (y.natAbs ≤ 819200000)) else d
      if u = 4 ∧ x.n + 1 ≥ x.field 2 15 0 then d.ageBlock x.begun else d) s

/-- TIM_UCMDu.RESTART (R415): a new block on a unit that is DONE or running. -/
def Dev.restartGo (d : Dev) (u : Nat) : Dev :=
  let x := d.timU u
  if u < 5 ∨ x.cfg.isEmpty then d
  else
    let d := d.setTimU u { x with n := 0, sum := 0, squares := 0, least := 0, most := 0, bcold := false, buncal := false, begun := d.tick }
    let d := if d.rd (Reg.TIM_URES_STATE u) = 2 then d.gateStart u else d
    (d.wr (Reg.TIM_URES_STATE u) 1).wr (Reg.TIM_URES_VALID u) 0

/-- RESTART (R415). -/
def execRestart (h : Agent) (u : Fin 12) (s : State) : Host.Outcome State Fault Refusal :=
  onDev (fun d => if u < 5 then d else d.hostCmd h (Reg.TIM_UCMD_RESTART u) [] fun d => d.restartGo u) s

/-! ### Timebase and calibration (R405 to R407) -/

/-- TIM_STATUS.CAL changes and is posted (R407). -/
def Dev.setCal (d : Dev) (on : Bool) : Dev :=
  if d.on Reg.TIM_STATUS_CAL = on then d
  else (((d.wr Reg.TIM_STATUS_CAL (bit on)).flag Reg.TIM_STATUS_CALEV).post 19 2 (bit on)).markGates

/-- CAL (R407). -/
def execCal (on : Bool) (s : State) : Host.Outcome State Fault Refusal :=
  onDev (fun d => if d.on Reg.TIM_STATUS_PLLLOCK == on then d.setCal on else d) s

/-- CAL_TABLE (R406): every 1 ms. -/
def execCalTable (dnl : BitVec 8) (s : State) : Host.Outcome State Fault Refusal :=
  onDev (fun d =>
    if d.on Reg.TIM_STATUS_PLLLOCK && d.timPassed d.tim.tableAt 8 then
      let d := { d with tim := { d.tim with tableAt := d.tick } }
      (d.wr Reg.TIM_CALDNL_DNL dnl.toNat).count Reg.TIM_CALCNT_COUNT Reg.TIM_STATUS_CNT_HALF
    else d) s

/-- A relock interrupts unit `u` (R412): the sample in progress is incomplete; `gate`: it was a gate, in which no row tells which of its
edges were timed under a tag that applied to a part of it. -/
def Dev.relockCut (d : Dev) (u : Nat) (gate : Bool) : Dev :=
  if (d.timU u).start.isSome then d.sampleEnd u true
  else if gate then
    let (d, w) := d.fresh
    let x := d.timU u
    d.gateMissed u (gateTag x.cold x.warm (w.getLsbD 0)) (gateTag x.uncal x.cal (w.getLsbD 1))
  else d

/-- The TIM PLL takes the source that OSCIN's presence gives and relocks (R20, R405, R407, R412). -/
def Dev.pllSource (d : Dev) : Dev :=
  let d := d.markGates
  let xtal := !d.on Reg.REF_STATUS_OSCIN_OK
  if d.on Reg.TIM_STATUS_PLLSRC = xtal then d else
  let d := (List.range 12).foldl (fun d u => d.relockCut u (d.measures u true)) d
  let d := ((d.wr Reg.TIM_STATUS_PLLSRC (bit xtal)).flag Reg.TIM_STATUS_PLLEV).post 19 3 (bit xtal)
  (d.wr Reg.TIM_STATUS_PLLLOCK 0).setCal false

/-- TIM_PLL_LOCK (R405): the relock ends, and gates begin. -/
def execTimPllLock (s : State) : Host.Outcome State Fault Refusal :=
  onDev (fun d =>
    let d := d.pllSource
    if d.on Reg.TIM_STATUS_PLLLOCK then d
    else (List.range 12).foldl Dev.gateStart (d.wr Reg.TIM_STATUS_PLLLOCK 1)) s

/-- OCXO (R364, R20, R405). -/
def execOcxo (present rdy : Bool) (s : State) : Host.Outcome State Fault Refusal :=
  onDev (fun d => (d.setOcxo present rdy).pllSource) s

/-- The input of candidate 4 or 5 has edges, or none (R345). -/
def Dev.refinLost (d : Dev) (k : Nat) (lost : Bool) : Dev :=
  if k = 4 ∨ k = 5 then d.setCand k { d.cand k with lost := lost } else d

/-- CANDIDATE_LOST (R345, R347): REFIN0 or REFIN1, or OSCIN, has no edges; the other candidates are lost by what the ports and the links
show. -/
def execCandidateLost (k : Fin 7) (s : State) : Host.Outcome State Fault Refusal :=
  onDev (fun d => if k = 6 then (d.setOcxo false d.ref.rdy).pllSource else (d.refinLost k true).candCheck k) s

/-- CANDIDATE_RESTORED (R347; R405 for OSCIN). -/
def execCandidateRestored (k : Fin 7) (s : State) : Host.Outcome State Fault Refusal :=
  onDev (fun d => if k = 6 then (d.setOcxo true d.ref.rdy).pllSource else (d.refinLost k false).candCheck k) s

/-! ### Time triggers (R337) -/

/-- Trigger `x` fires: what it records, the captures, the ports and the pulse outputs that wait for it, and its next target. -/
def Dev.fire (d : Dev) (x : Nat) (t : Trig) (late : Bool) : Dev :=
  let d := ((d.trigFired x late).setTrig x (t.next d.timeNs late)).captureAll (32 + x) d.timeNs
  (d.portTrigger x).pulseTrigger x

/-- TRIGGER (R337): internal time has reached the target. -/
def execTrigger (x : Fin 16) (ns : Nat) (s : State) : Host.Outcome State Fault Refusal :=
  onDev (fun d =>
    let d := d.at ns
    match d.trig x with
    | some t => if d.on Reg.TSU_CFG_ENABLE && decide (t.target ≤ d.timeNs) then d.fire x t false else d
    | none => d) s

end Sys2Proof.Machine
end

