-- ==== Sys2Proof/Machine/Commit.lean ====
section
/-! DEFINITION. Commit groups, the consistency checks and the configuration CRC (spec/02, R35 to R58). -/
namespace Sys2Proof.Machine

/-! ### Groups and staging (R35 to R41) -/

/-- The blocks that have RWS fields: indices 0 to 21 but for MACC. -/
def groupBlocks : List Nat := (List.range 22).filter (· != 13)

/-- The commit group of block `b` (CMT_GROUPMAPx). -/
def Dev.groupOf (d : Dev) (b : Nat) : Nat := (d.word (0x1010 + 4 * (b / 8))).toNat / 2 ^ (4 * (b % 8)) % 16

/-- Group `g` commits at tick boundaries (CMT_TICKBOUND). -/
def Dev.tickBound (d : Dev) (g : Nat) : Bool := d.rd Reg.CMT_TICKBOUND_TB / 2 ^ g % 2 == 1

/-- The blocks of group `g`. -/
def Dev.blocksOf (d : Dev) (g : Nat) : List Nat := groupBlocks.filter fun b => d.groupOf b == g

/-- The strobe of the groups of `mask` (R36, R37): a group already pending keeps the time of its first strobe. -/
def Dev.strobe (d : Dev) (mask : Nat) : Dev :=
  let batch := d.fab.nextBatch
  let one := fun (l : List (Nat × Staged)) (g : Nat) =>
    if mask / 2 ^ g % 2 = 0 then l else
    let blocks := d.blocksOf g
    let first := (l.find? fun e => e.1 == g).elim batch fun e => e.2.batch
    let words : Sparse Word := d.shadow.filter fun e => blocks.contains (blockOf e.1)
    l.filter (fun e => e.1 != g) ++ [(g, { blocks := blocks, words := words, batch := first })]
  { d with fab := { d.fab with staged := (List.range 16).foldl one d.fab.staged, nextBatch := batch + 1 } }

/-- COMMIT_STROBE (R36). CMT has no RWS field, so its CMD field is locked only through LOCK_POLICY. -/
def execCommitStrobe (h : Agent) (groups : BitVec 16) (s : State) : Host.Outcome State Fault Refusal :=
  onDev (fun d => d.hostCmd h Reg.CMT_STROBE_STROBE [] fun d => d.strobe groups.toNat) s

/-- A block that has moved to another group leaves the staging copy of its old group (R41). Where its new group has a commit pending,
the block joins it only at a further strobe: R41 speaks of the next commit of the new group, and R36 of the shadow copies taken at
the strobe (DESIGN CHOICE, log entry 126). -/
def Dev.dropMoved (d : Dev) : Dev :=
  { d with fab := { d.fab with staged := d.fab.staged.map fun e =>
      (e.1, { e.2 with blocks := e.2.blocks.filter fun b => d.groupOf b == e.1 }) } }

/-- GROUP_MAP_WRITE (R41): CMT_GROUPMAP`ix` is written. -/
def execGroupMapWrite (h : Agent) (ix : Fin 3) (data : Word) (s : State) : Host.Outcome State Fault Refusal :=
  onDev (fun d =>
    let a := 0x1010 + 4 * ix.val
    let d := d.touch h true 22
    if !d.owns h then d.lockViol h a 2
    else if d.locked h 22 then d.lockViol h a 0
    else
      let w := if ix.val = 2 then data &&& 0xFFFFFF else data
      if d.word a = w then d else (d.setWord a w).dirty.dropMoved) s

/-! ### Consistency checks (R43 to R48) -/

/-- A block's ENABLE field, its REASON field, and whether it has an ENABLE field. -/
structure Check where
  enable : Option Fld
  reason : Option Fld
  deriving DecidableEq, Repr

def checkOf (b : Nat) : Check :=
  match b with
  | 1 => ⟨none, some Reg.PWR_STATUS_REASON⟩
  | 2 => ⟨some Reg.AGE_CFG_ENABLE, some Reg.AGE_STATUS_REASON⟩
  | 5 => ⟨some Reg.SCH_CFG_ENABLE, some Reg.SCH_STATUS_REASON⟩
  | 6 => ⟨some Reg.ALC_CFG_ENABLE, some Reg.PGU_STATUS_REASON⟩
  | 7 => ⟨some Reg.HRT_CFG_ENABLE, some Reg.HRT_STATUS_REASON⟩
  | 8 => ⟨some Reg.ALM_CFG_ENABLE, some Reg.ALM_STATUS_REASON⟩
  | 9 => ⟨some Reg.FLW_CFG_ENABLE, some Reg.FLW_STATUS_REASON⟩
  | 10 => ⟨some Reg.TDM_CFG_ENABLE, some Reg.TDM_STATUS_REASON⟩
  | 11 => ⟨some (Reg.MAC_CFG_ENABLE 0), some (Reg.MAC_STATUS_REASON 0)⟩
  | 12 => ⟨some (Reg.MAC_CFG_ENABLE 1), some (Reg.MAC_STATUS_REASON 1)⟩
  | 14 => ⟨some Reg.PTP_CFG_ENABLE, some Reg.PTP_STATUS_REASON⟩
  | 15 => ⟨some Reg.TSU_CFG_ENABLE, some Reg.TSU_STATUS_REASON⟩
  | 16 => ⟨some Reg.REF_CFG_ENABLE, some Reg.REF_STATUS_REASON⟩
  | 17 => ⟨some Reg.SYN_CFG_ENABLE, some Reg.SYN_STATUS_REASON⟩
  | 18 => ⟨some Reg.OUT_CFG_ENABLE, some Reg.OUT_STATUS_REASON⟩
  | 19 => ⟨some Reg.TIM_CFG_ENABLE, some Reg.TIM_STATUS_REASON⟩
  | _ => ⟨none, none⟩

/-- A field lies outside `lo` to `hi`. -/
def Dev.outside (d : Dev) (l : List (Fld × Nat × Nat)) : Bool := l.any fun e => decide (d.rd e.1 < e.2.1) || decide (d.rd e.1 > e.2.2)

/-- `c` where `b` holds. -/
def code (b : Bool) (c : Nat) : List Nat := if b then [c] else []

/-- PGU and ALC (R194, R223). -/
def Dev.checkAlc (d : Dev) : List Nat :=
  code (d.outside [(Reg.ALC_LAYOUT_EMB_PAGES, 0, 256), (Reg.ALC_LAYOUT_BANKS, 0, 512), (Reg.ALC_LAYOUT_FRAMES, 0, 1728),
    (Reg.PGU_REGION_MSG_MIB, 0, 256), (Reg.PGU_DFAIL_CFG_UE_LIMIT, 1, 15)]) 0x01
  ++ code (decide (2 * d.embPages + d.banks + d.rd Reg.ALC_LAYOUT_FRAMES > 1728)) 0x10
  ++ code (decide (d.rd Reg.PGU_REGION_MSG_MIB + d.rd Reg.PGU_REGION_DL_MIB > d.capMiB)) 0x12

/-- Changes to the layout and the regions that are in use (R194, R223). -/
def Dev.inUseAlc (d old : Dev) : List Nat :=
  let layout := d.word 0x9004 != old.word 0x9004
  let region := d.rd Reg.PGU_REGION_MSG_MIB != old.rd Reg.PGU_REGION_MSG_MIB || d.rd Reg.PGU_REGION_DL_MIB != old.rd Reg.PGU_REGION_DL_MIB
  let lines := !old.mem.lines.isEmpty
  code ((layout && old.on Reg.ALC_CFG_ENABLE && (old.anyJob || lines || old.mem.msgValid))
    || (region && (lines || (old.mem.msgValid && decide (d.rd Reg.PGU_REGION_MSG_MIB * 2 ^ 20 < imageSize old.mem.msgPages))))) 0x11

/-- HRT (R444) and its changes of MODE and PREF (R423). -/
def Dev.checkHrt (d : Dev) : List Nat :=
  code (d.outside [(Reg.HRT_CFG_MODE, 0, 2), (Reg.HRT_PROOF_HRS, 0, 168), (Reg.HRT_PROOF_WIN, 1, 65535)]) 0x01
  ++ code (!d.on Reg.ALC_CFG_ENABLE) 0x03
def Dev.inUseHrt (d old : Dev) : List Nat :=
  code ((d.mode != old.mode || d.rd Reg.HRT_CFG_PREF != old.rd Reg.HRT_CFG_PREF) && (old.anyJob || !old.mem.lines.isEmpty)) 0x10

/-- SCH (R118). -/
def Dev.checkSch (d : Dev) : List Nat :=
  code (d.outside [(Reg.SCH_CFG_FLOOR_LOSS, 0, 2), (Reg.SCH_STORM_CFG_DEBIT, 0, 50000), (Reg.SCH_STORM_CFG_CLEAR, 1, 255)]) 0x01
  ++ code (!d.on Reg.HRT_CFG_ENABLE) 0x03

/-- MAC `n` (R282, R283, R290, R293 to R295, R303); `noRef`: the lane PLL has not locked to REFCLKn. -/
def Dev.checkMac (d : Dev) (n : Nat) (noRef : Bool) : List Nat :=
  let qs := List.range 8
  let slope := fun q => if d.on (⟨0x10060 + 0x1000 * n + 4 * (q - 5), 0, 0⟩) then d.rd ⟨0x10060 + 0x1000 * n + 4 * (q - 5), 29, 16⟩ else 0
  let on := fun q => d.on (⟨0x10060 + 0x1000 * n + 4 * (q - 5), 0, 0⟩)
  let flow := fun (tx : Bool) (ds : List Nat) (recs : List (List Nat)) =>
    dPath ds n && decide (largestFrame tx ds recs n > d.rd (Reg.MAC_CFG_MAXLEN n))
  code (d.outside ([(Reg.MAC_CFG_SPEED n, 0, 2), (Reg.MAC_CFG_MAXLEN n, 1518, 9022), (Reg.MAC_FC_CFG_DAMPER_LIMIT n, 250, 20000),
      (Reg.MAC_FC_CFG_DAMPER_OPEN n, 10, 1000)] ++ qs.map fun q => (Reg.MAC_QCFG_DEPTH n q, 0, 256))
    || [5, 6].any fun q => on q && (decide (slope q < 1) || decide (slope q > 7500))) 0x01
  ++ code (qs.any (fun q => d.on (Reg.MAC_QCFG_ECLASS n q) && !d.on (Reg.MAC_QCFG_AUDIO n q))
    || (d.on (Reg.MAC_CFG_RX_PAUSE_EN n) && d.on (Reg.MAC_CFG_RX_PFC_EN n))) 0x02
  ++ code (qs.any (fun q => d.on (Reg.MAC_QCFG_ECLASS n q) && !d.on (Reg.MAC_QCFG_DAMPER_EN n q))
    && !d.on Reg.LOCK_POLICY_PERMIT_DAMPER_OFF) 0x04
  ++ code (decide ((qs.map fun q => d.rd (Reg.MAC_QCFG_DEPTH n q)).sum > 256)) 0x10
  ++ code (d.liveRx.any (fun e => flow false e.2.desc e.2.recs) || d.liveTx.any (fun e => flow true e.2.desc e.2.hdrs)) 0x11
  ++ code (decide (4 * (slope 5 + slope 6) > 3 * rateOf (d.rd (Reg.MAC_CFG_SPEED n)))) 0x48
  ++ code noRef 0x88

/-- FLW (R259). -/
def Dev.checkFlw (d : Dev) : List Nat :=
  code (d.outside [(Reg.FLW_CFG_MAX_PAYLOAD, 256, 8960), (Reg.FLW_PATH_CFG_TIMEOUT, 1, 255)]) 0x01
  ++ code (!d.on (Reg.MAC_CFG_ENABLE 0) && !d.on (Reg.MAC_CFG_ENABLE 1)) 0x03

/-- TSU (R340). -/
def Dev.checkTsu (d : Dev) : List Nat :=
  code ((List.range 8).any fun c =>
    let src := d.rd (Reg.TSU_CAP_CFG_SRC c)
    !(decide (src ≤ 22) || (decide (32 ≤ src) && decide (src ≤ 47))) || d.rd (Reg.TSU_CAP_CFG_EDGE c) == 3) 0x01

/-- A signed value lies outside `lo` to `hi`. -/
def offRange (x lo hi : Int) : Bool := decide (x < lo) || decide (x > hi)

/-- PTP port `n` (R325, R343). -/
def Dev.checkPtpPort (d : Dev) (n : Nat) : List Nat :=
  let p := d.rd (Reg.PTP_PCFG_PROFILE n)
  let t := d.rd (Reg.PTP_PCFG_TRANSPORT n)
  let p2p := d.on (Reg.PTP_PCFG_DELAY n)
  let sync := sint 8 (d.rd (Reg.PTP_PRATE_LOG_SYNC n))
  let ann := sint 8 (d.rd (Reg.PTP_PRATE_LOG_ANN n))
  let dreq := sint 8 (d.rd (Reg.PTP_PRATE_LOG_DREQ n))
  let tmo : Int := d.rd (Reg.PTP_PRATE_ANN_TMO n)
  let permitted : Bool := match p with
    | 0 => true
    | 1 => t == 1 && !p2p
    | 2 => t != 0
    | _ => t == 0 && p2p
  let rates : Bool := match p with
    | 0 => offRange sync (-7) 1 || offRange ann 0 4 || offRange dreq (-7) 5
    | 1 => offRange sync (-4) 1 || offRange ann 0 4 || offRange dreq (-4) 5
    | 2 => offRange sync (-7) (-1) || offRange ann (-3) 1 || offRange dreq (-7) (-1)
    | _ => offRange sync (-7) 1 || offRange ann (-3) 3 || offRange dreq (-7) 5
  code (t == 3) 0x01 ++ code (!d.on (Reg.MAC_CFG_ENABLE n)) 0x03 ++ code (!permitted) 0x10
  ++ code (rates || offRange tmo 2 10 || decide (d.rd (Reg.PTP_PCFG_DOMAIN n) > 127)) 0x11

/-- PTP (R329, R343); the settings of an enabled port are checked with it. -/
def Dev.checkPtp (d : Dev) : List Nat :=
  let ports := [0, 1].filter fun n => d.on (Reg.PTP_PCFG_ENABLE n)
  let most : Int := match d.rd Reg.PTP_SERVO_BW with | 0 => -3 | 1 => -1 | _ => 1
  code (d.outside [(Reg.PTP_SERVO_LOCK_NS, 1, 4095), (Reg.PTP_PSTEP_THRESH, 20, 10000), (Reg.PTP_PSTEP_HOLD, 1, 600)]
    || [0, 1].any fun n => offRange (sint 32 (d.rd (Reg.PTP_ASYM_ASYM n))) (-100000) 100000) 0x01
  ++ code (!d.on Reg.TSU_CFG_ENABLE) 0x03
  ++ code (ports.any fun n => decide (sint 8 (d.rd (Reg.PTP_PRATE_LOG_SYNC n)) > most)) 0x12

/-- A source code of R404. -/
def timSource (s : Nat) : Bool := decide (s ≤ 17) || (decide (24 ≤ s) && decide (s ≤ 31))

/-- TIM (R419): host-owned units with EN = 1, and the ranges of the inputs. -/
def Dev.checkTim (d : Dev) : List Nat :=
  let us := (List.range 12).filter fun u => decide (5 ≤ u) && !d.on (Reg.TIM_UCFG_OWNER u) && d.on (Reg.TIM_UCFG_EN u)
  code ((us.any fun u =>
      let m := d.rd (Reg.TIM_UCFG_MODE u)
      let t := d.rd (Reg.TIM_UTMO_TIME u)
      decide (m ≥ 2) || !timSource (d.rd (Reg.TIM_USRC_STOP u)) || (m == 0 && !timSource (d.rd (Reg.TIM_USRC_START u)))
        || d.rd (Reg.TIM_UN_N u) == 0 || t == 0 || decide (t > if m = 0 then 100000 else 10000)
        || (m == 1 && d.rd (Reg.TIM_UNOM_NOM u) == 0))
    || d.outside ((List.range 18).flatMap fun k =>
        [(Reg.TIM_IN_VTH k, 13, 217), (Reg.TIM_IN_HYST k, 0, 16), (Reg.TIM_IN_HOLDOFF k, 0, 1000)])
    || (List.range 18).any fun k => offRange (sint 16 (d.rd (Reg.TIM_SKEW_SKEW k))) (-1600) 1600) 0x01
  ++ code (us.any fun u => d.rd (Reg.TIM_UCFG_MODE u) == 0 &&
      (d.rd (Reg.TIM_UCFG_STATSTOP u) == 0 || decide (d.rd (Reg.TIM_UCFG_STATSTOP u) > d.rd (Reg.TIM_UCFG_NSTOP u)))) 0x02

/-- REF (R369). -/
def Dev.checkRef (d : Dev) : List Nat :=
  let prio := fun k => d.rd (Reg.REF_CAND_PRIO k)
  code (d.outside [(Reg.REF_LIMITS_SOFT, 2500, 50000), (Reg.REF_LIMITS_HARD, 3000, 60000), (Reg.REF_TIMES_SOFT_TIME, 1, 255),
      (Reg.REF_TIMES_WTR, 0, 3600), (Reg.REF_SLEW_PHASE, 10, 10000), (Reg.REF_SLEW_FSLOPE, 10, 50000), (Reg.REF_HO_AVG, 10, 1000),
      (Reg.REF_HO_INSPEC, 60, 65535), (Reg.REF_CAND_KIND 4, 0, 2), (Reg.REF_CAND_KIND 5, 0, 2), (Reg.REF_CAND_WCF 4, 0, 4),
      (Reg.REF_CAND_WCF 5, 0, 4)]) 0x01
  ++ code (decide (d.rd Reg.REF_LIMITS_SOFT ≥ d.rd Reg.REF_LIMITS_HARD)) 0x02
  ++ code (!d.on Reg.TIM_CFG_ENABLE || (!d.on Reg.PTP_CFG_ENABLE && (prio 0 != 0 || prio 1 != 0))) 0x03
  ++ code ((List.range 7).all fun k => prio k == 0) 0x10

/-- SYN (R375, R377), against what is live before the commit. -/
def Dev.checkSyn (d old : Dev) : List Nat :=
  let run96 := d.on Reg.SYN_CFG_RATE96
  code (d.outside [(Reg.SYNX_CFG_LTHR 0, 40, 52), (Reg.SYNX_CFG_LTHR 1, 40, 52)]) 0x01
  ++ code ([0, 1].any fun x => d.rd (Reg.SYNX_CFG_PLAN x) == 1 && (List.range 16).any fun n =>
      old.rd (Reg.TDM_PSTAT_STATE n) == 2 && !old.on (Reg.TDM_PCFG_ROLE n) && old.rd (Reg.TDM_PCFG_SYN n) == x) 0x10
  ++ code (run96 != old.on Reg.SYN_CFG_RATE96 && old.sch.jobs.any fun e =>
      !e.2.standing && e.2.present && ((old.image e.2.progId).elim true fun im => (im.entry run96 e.2.entry).isNone)) 0x11

/-- Synthesizer `x` is enabled. -/
def Dev.synEnabled (d : Dev) (x : Nat) : Bool := d.on Reg.SYN_CFG_ENABLE && d.on (Reg.SYNX_CFG_EN x)

/-- OUT (R392, R397). -/
def Dev.checkOut (d : Dev) : List Nat :=
  let ps := List.range 4
  let used := (List.range 8).any (fun x => d.rd Reg.OUT_CLKEN_EN / 2 ^ x % 2 == 1 && !d.on (Reg.SYNX_CFG_EN (d.rd (Reg.OUT_CLK_CFG_SYN x))))
    || ps.any fun p => d.on (Reg.OUT_FP_CFG_EN p) && !d.on (Reg.SYNX_CFG_EN (d.rd (Reg.OUT_FP_CFG_SYN p)))
  code ((List.range 8).any (fun x => decide (d.rd (Reg.OUT_CLK_CFG_DIV x) < 8))
    || ps.any fun p => d.rd (Reg.OUT_FP_CFG_MODE p) == 3 || decide (d.rd (Reg.OUT_FP_CFG_INSRC p) > 17)) 0x01
  ++ code (!d.on Reg.SYN_CFG_ENABLE || used) 0x03
  ++ code (ps.any fun p => d.rd (Reg.OUT_FP_WIDTH_WIDTH p) == 0 || decide (d.rd (Reg.OUT_FP_WIDTH_WIDTH p) ≥ d.rd (Reg.OUT_FP_PER_PER p))) 0x10
  ++ code (ps.any fun p =>
      decide (d.rd (Reg.OUT_FP_OFF_OFFSET p) ≥ d.rd (Reg.OUT_FP_PER_PER p))
        || (d.rd (Reg.OUT_FP_CFG_MODE p) != 0 && decide (d.rd (Reg.OUT_FP_OFF_OFFSET p) < 320))) 0x11

/-- TDM port `n`, when it is enabled (R272, R276, R375). -/
def Dev.checkPort (d : Dev) (n : Nat) : List Nat :=
  if !d.on (Reg.TDM_PCFG_ENABLE n) then [] else
  let syn := d.rd (Reg.TDM_PCFG_SYN n)
  let mine := (List.range 16).map fun s => (n, s)
  let all := (List.range 16).flatMap fun m => if d.on (Reg.TDM_PCFG_ENABLE m) then (List.range 16).map fun s => (m, s) else []
  let dup := mine.any fun e => (d.inEntry n e.2).1 && all.any fun f => f != e && (d.inEntry f.1 f.2).1 && (d.inEntry f.1 f.2).2 == (d.inEntry n e.2).2
  let src := d.on (Reg.TDM_PCFG_SRC n)
  let rate := if n < 12 ∨ d.rd (Reg.TDM_SRCSTAT_RATE (n - 12)) = 0 then 9600000 else d.rd (Reg.TDM_SRCSTAT_RATE (n - 12))
  let lim := if rate ≤ 5000000 then 16 else 8
  let ins := ((List.range 16).filter fun s => (d.inEntry n s).1).length
  let outs := ((List.range 16).filter fun s => (d.outEntry n s).1).length
  code (d.rd (Reg.TDM_PCFG_WORD n) == 3) 0x01
  ++ code (!d.on (Reg.TDM_PCFG_ROLE n) && (!d.synEnabled syn || d.rd (Reg.SYNX_CFG_PLAN syn) == 1)) 0x03
  ++ code dup 0x10
  ++ code (src && (decide (n < 12) || !d.on (Reg.TDM_PCFG_ROLE n))) 0x11
  ++ code (d.on (Reg.TDM_PCFG_PROT n) && d.mode == 1) 0x12
  ++ code (src && (decide (ins > lim) || decide (outs > lim))) 0x48

/-- TDM and SRC (R276). -/
def Dev.checkTdm (d : Dev) : List Nat := (List.range 16).flatMap d.checkPort

/-- ALM (R460, R466, R468). -/
def Dev.checkAlm (d : Dev) : List Nat :=
  let zs := List.range 128
  let on := zs.filter fun z => d.on (Reg.ALM_ZCFG_EN z)
  code (d.outside [(Reg.ALM_INCFG_DEBOUNCE, 1, 255), (Reg.ALM_WDCFG_TIMEOUT, 100, 60000), (Reg.ALM_WDCFG_GRACE, 0, 60000),
      (Reg.ALM_SCFG_FAILN, 1, 15), (Reg.ALM_SCFG_CLEARN, 1, 15), (Reg.ALM_SCFG_PILOT_AFTER, 5, 60), (Reg.ALM_SCFG_VERIFY_MAX, 10, 90),
      (Reg.ALM_PILOT_FREQ, 18000, 22000), (Reg.ALM_PILOT_LEVEL, 20, 60)]) 0x01
  ++ code (zs.any fun z => decide (d.rd (Reg.ALM_ZLIM_GLO z) > d.rd (Reg.ALM_ZLIM_GHI z)) || decide (d.rd (Reg.ALM_ZPLIM_PLO z) > d.rd (Reg.ALM_ZPLIM_PHI z))) 0x02
  ++ code (decide (d.rd Reg.ALM_SCFG_PILOT_AFTER + d.rd Reg.ALM_SCFG_FAILN + 2 ≥ d.rd Reg.ALM_SCFG_VERIFY_MAX)) 0x11
  ++ code (on.any fun z => on.any fun y => y != z && d.rd (Reg.ALM_ZCFG_LOUT y) == d.rd (Reg.ALM_ZCFG_LOUT z)) 0x14
  ++ code ((List.range 7).any fun u => d.on (Reg.ALM_AMP_EN u) && !d.on (Reg.TIM_UCFG_OWNER (5 + u))) 0x15

/-- PWR and AGE (R503). -/
def Dev.checkPwr (d : Dev) : List Nat :=
  code (d.outside [(Reg.PWR_CFG_MAXSTATE, 0, 4), (Reg.PWR_AVSCFG_VMIN, 700, 850), (Reg.PWR_AVSCFG_VMAX, 700, 850)]) 0x01
  ++ code (decide (d.rd Reg.PWR_AVSCFG_VMIN > d.rd Reg.PWR_AVSCFG_VMAX)) 0x02
def Dev.checkAge (d : Dev) : List Nat :=
  code (d.outside [(Reg.AGE_CFG_DAYS, 7, 60)]) 0x01
  ++ code (decide (d.rd Reg.AGE_MCFG_CRIT ≥ d.rd Reg.AGE_MCFG_LOW) || decide (d.rd Reg.AGE_MCFG_LOW ≥ d.rd Reg.AGE_MCFG_HIGH)) 0x02

/-- The failing codes of block `b`'s check on the staged values in `d`, with `old` as it was before the moment. -/
def Dev.checkBlock (d old : Dev) (b : Nat) (noRef : BitVec 2) : List Nat :=
  match b with
  | 1 => d.checkPwr
  | 2 => d.checkAge
  | 5 => d.checkSch
  | 6 => d.checkAlc
  | 7 => d.checkHrt
  | 8 => d.checkAlm
  | 9 => d.checkFlw
  | 10 => d.checkTdm
  | 11 => d.checkMac 0 noRef[0]
  | 12 => d.checkMac 1 noRef[1]
  | 14 => d.checkPtp
  | 15 => d.checkTsu
  | 16 => d.checkRef
  | 17 => d.checkSyn old
  | 18 => d.checkOut
  | 19 => d.checkTim
  | _ => []

/-- The changes that are refused under R46 whatever ENABLE is (R194, R223, R423). -/
def Dev.inUse (d old : Dev) (b : Nat) : List Nat :=
  match b with
  | 6 => d.inUseAlc old
  | 7 => d.inUseHrt old
  | _ => []

/-! ### A commit (R35 to R47) -/

/-- Load the RWS bits of the word at `a`; a running scan becomes dirty when they change (R55). -/
def Dev.loadRws (d : Dev) (a : Nat) (v : Word) : Dev :=
  let w := (d.word a &&& ~~~(rwsMask a)) ||| (v &&& rwsMask a)
  if w = d.word a then d else (d.setWord a w).dirty

/-- The addresses at which the live or the staged words of block `b`, or the words of a commit that has not landed, may differ from
their reset values. -/
def Dev.staleWords (d : Dev) (st : Sparse Word) (b : Nat) : List Nat :=
  (((d.live.map (·.1)) ++ (st.map (·.1)) ++ (d.fab.slowCommits.flatMap fun c => c.map (·.1))).filter fun a => blockOf a == b).dedup

/-- The staged value of the RWS bits at `a`. -/
def stagedWord (st : Sparse Word) (a : Nat) : Word := Sparse.get (resetWord a &&& rwsMask a) st a

/-- Copy the staged words of block `b` that satisfy `p` into the live copy. -/
def Dev.applyStaged (d : Dev) (st : Sparse Word) (b : Nat) (p : Nat → Bool) : Dev :=
  (d.staleWords st b).foldl (fun d a => if p a then d.loadRws a (stagedWord st a) else d) d

/-- Set a bit field in staged words. -/
def stageField (st : Sparse Word) (f : Fld) (v : Nat) : Sparse Word :=
  Sparse.put (resetWord f.addr &&& rwsMask f.addr) st f.addr (f.set (stagedWord st f.addr) v)

/-- A check refuses block `b` with `c` (R45 to R47). -/
def Dev.refuse (d : Dev) (b c : Nat) : Dev :=
  let d := match (checkOf b).reason with | some f => d.wr f c | none => d
  (d.flag Reg.CMT_STATUS_REFUSED).post 22 1 (c + b * 2 ^ 8)

/-- The first failing port (R276). -/
def Dev.failingPort (d : Dev) : Nat := ((List.range 16).find? fun n => !(d.checkPort n).isEmpty).getD 0

/-- The staged words of one block at a moment: what to apply, or nothing under R46, and the device with the result of the
check. -/
def Dev.judge (d old : Dev) (st : Sparse Word) (b : Nat) (noRef : BitVec 2) : Option (Sparse Word) × Dev :=
  let cand := d.applyStaged st b fun _ => true
  let chk := checkOf b
  let runs := match chk.enable with | some f => cand.on f | none => chk.reason.isSome
  let was := match chk.enable with | some f => d.on f | none => true
  let fails := if runs then cand.checkBlock old b noRef else []
  let ports := if b = 14 then [0, 1].filter fun n => cand.on (Reg.PTP_PCFG_ENABLE n) && !(cand.checkPtpPort n).isEmpty else []
  let portFails := ports.flatMap cand.checkPtpPort
  let held := cand.inUse old b
  let whole := !held.isEmpty || (was && !fails.isEmpty) || ports.any fun n => d.on (Reg.PTP_PCFG_ENABLE n)
  match lowest (held ++ fails ++ portFails) with
  | none =>
    (some st, match chk.reason with | some f => if runs then d.wr f 0 else d | none => d)
  | some c =>
    let d := if b = 10 then d.wr Reg.TDM_STATUS_RPORT cand.failingPort else d
    let d := d.refuse b c
    if whole then (none, d)
    else
      let fs := (if fails.isEmpty then [] else chk.enable.toList) ++ ports.map Reg.PTP_PCFG_ENABLE
      (some (fs.foldl (fun st f => stageField st f 0) st), fs.foldl (fun d f => d.wrShadow f 0) d)

/-- The order of the checks (R44). -/
def checkOrder : List Nat := [6, 7, 5, 11, 12, 9, 15, 14, 19, 16, 17, 18, 10, 8, 0, 1, 2, 3, 4, 20, 21]

/-! ### What a commit means to its block -/

/-- Words of a block differ. -/
def Dev.differ (d old : Dev) (as : List Nat) : Bool := as.any fun a => d.word a != old.word a

/-- Engine `e` leaves or returns to the plans (R162). -/
def Dev.engineCommit (d : Dev) (e : Nat) : Dev :=
  let off := d.on (Reg.ENG_CFG_OFFLINE e)
  d.modEn e fun g => if off && g.st == 0 then { g with st := 1 } else if !off && g.st == 1 then { g with st := 0 } else g

/-- The amplifier check of unit 5 + `u` after a change: its run restarts and its fault is cleared (R468). -/
def Dev.ampChanged (d : Dev) (u : Nat) : Dev :=
  let d := { d with alm := { d.alm with amps := Sparse.put (0, false) d.alm.amps u (0, false) } }
  if d.on (Reg.ALM_AMP_FAULT u) then ((d.wr (Reg.ALM_AMP_FAULT u) 0).flag Reg.ALM_STATUS_SURVEV).post 8 5 (u + 5) else d

/-- OUT after a commit (R388, R395). -/
def Dev.outCommit (d old : Dev) : Dev :=
  let start := d.on Reg.OUT_CFG_ENABLE && !old.on Reg.OUT_CFG_ENABLE
  let d := (List.range 8).foldl (fun d x =>
    let syn := d.rd (Reg.OUT_CLK_CFG_SYN x) != old.rd (Reg.OUT_CLK_CFG_SYN x)
    let a := (Reg.OUT_CLK_CFG_SYN x).addr
    if start || syn || d.rd (Reg.OUT_CLK_CFG_DIV x) != old.rd (Reg.OUT_CLK_CFG_DIV x) || d.word (a + 4) != old.word (a + 4) then
      d.clkChanged x syn
    else d) d
  (List.range 4).foldl (fun d p =>
    let a := (Reg.OUT_FP_CFG_EN p).addr
    let input := d.rd (Reg.OUT_FP_CFG_MODE p) != old.rd (Reg.OUT_FP_CFG_MODE p) || d.rd (Reg.OUT_FP_CFG_INSRC p) != old.rd (Reg.OUT_FP_CFG_INSRC p)
      || d.rd (Reg.OUT_FP_CFG_IEDGE p) != old.rd (Reg.OUT_FP_CFG_IEDGE p)
    d.pulseCommit p (old.on Reg.OUT_CFG_ENABLE && old.on (Reg.OUT_FP_CFG_EN p)) input (d.differ old [a, a + 4, a + 8, a + 12, a + 16])) d

/-- SYN after a commit (R372, R376, R386). -/
def Dev.synBlockCommit (d old : Dev) : Dev :=
  let d := [0, 1].foldl (fun d x => d.synCommit x (old.synEnabled x) (old.rd (Reg.SYNX_CFG_PLAN x))) d
  let seed := d.rd Reg.SYN_DCO_SEED
  let d := if seed = old.rd Reg.SYN_DCO_SEED then d else { d with syn := { d.syn with seedNext := some seed } }
  d.wr Reg.SYN_STATUS_FAM_PEND (bit (d.on Reg.SYN_CFG_RATE96 != d.fam96))

/-- PTP after a commit (R326): while PTP is disabled its candidates are lost (R345). -/
def Dev.ptpBlockCommit (d old : Dev) : Dev :=
  let d := [0, 1].foldl (fun d n =>
    d.ptpCommit n (old.word (Reg.PTP_PCFG_ENABLE n).addr) (old.word (Reg.PTP_PRATE_LOG_SYNC n).addr)) d
  (d.candCheck 0).candCheck 1

/-- ALM after a commit (R465, R468). -/
def Dev.almCommit (d old : Dev) : Dev :=
  let d := d.pinsCommit old
  let d := (List.range 128).foldl (fun d z =>
    let a := 0xB400 + 0x10 * z
    if d.differ old [a, a + 4, a + 8] then d.zoneChanged z else d) d
  (List.range 7).foldl (fun d u => if (d.word (0xB080 + 4 * u) ^^^ old.word (0xB080 + 4 * u)) &&& 0xFFFF != 0 then d.ampChanged u else d) d

/-- HRT after a commit (R423): the roles are set at its enable, and at a change of MODE or PREF. -/
def Dev.hrtCommit (d old : Dev) : Dev :=
  if d.on Reg.HRT_CFG_ENABLE != old.on Reg.HRT_CFG_ENABLE
      || (d.on Reg.HRT_CFG_ENABLE && (d.mode != old.mode || d.rd Reg.HRT_CFG_PREF != old.rd Reg.HRT_CFG_PREF)) then d.setRoles
  else d

/-- What the commit of block `b` means, with `old` as it was before. -/
def Dev.committed (d old : Dev) (b : Nat) : Dev :=
  match b with
  | 7 => d.hrtCommit old
  | 8 => d.almCommit old
  | 9 => if old.on Reg.FLW_CFG_ENABLE && !d.on Reg.FLW_CFG_ENABLE then d.flowsDisable else d
  | 10 => (List.range 16).foldl (fun d n => d.portCommit n (old.portOn n) (old.word (0xD400 + 0x80 * n))) d
  | 11 => d.macCommit 0 (old.word 0x10000)
  | 12 => d.macCommit 1 (old.word 0x11000)
  | 14 => d.ptpBlockCommit old
  | 16 => d.refCommit.markGates
  | 17 => d.synBlockCommit old
  | 18 => d.outCommit old
  | 20 => (List.range 8).foldl Dev.engineCommit d
  | 21 => (List.range 8).foldl (fun d e => d.engineCommit (8 + e)) d
  | _ => d

/-- One commit moment (R44): the pending groups `gs` commit together. -/
def Dev.commitMoment (d : Dev) (gs : List (Nat × Staged)) (noRef : BitVec 2) : Dev :=
  if gs.isEmpty then d else
  let d := (d.macRun 0).macRun 1
  let old := d
  let stagedOf := fun b => gs.find? fun e => e.2.blocks.contains b
  let step := fun (x : Dev × List Nat × List (Nat × Word)) (b : Nat) =>
    match stagedOf b with
    | none => x
    | some g =>
      match x.1.judge old g.2.words b noRef with
      | (none, d) => (d, x.2)
      | (some st, d) =>
        let late := ((d.staleWords st b).filter slowWord).map fun a => (a, stagedWord st a)
        (d.applyStaged st b (fun a => !slowWord a), x.2.1 ++ [b], x.2.2 ++ late)
  let r := checkOrder.foldl step (d, [], [])
  let d := r.2.1.foldl (fun d b => d.committed old b) r.1
  let d := gs.foldl (fun d g => d.wr (Reg.CMT_LASTCOMMIT_TICK g.1) d.schTick) d
  let f := d.fab
  let done : List Nat := gs.map (·.1)
  let left : List (Nat × Staged) := f.staged.filter fun e => !done.contains e.1
  let slow := if r.2.2.isEmpty then f.slowCommits else f.slowCommits ++ [r.2.2]
  let d := { d with fab := { f with staged := left, slowCommits := slow } }
  d.timApply

/-- A pending group may commit: no block of it is stopped in the power state in force (R488). -/
def Dev.mayCommit (d : Dev) (g : Nat × Staged) : Bool := !(g.2.blocks.any d.stopped)

/-- The pending groups that are not tick-bound and were strobed first (R38). -/
def Dev.nextBatch (d : Dev) : List (Nat × Staged) :=
  let l := d.fab.staged.filter fun e => !d.tickBound e.1 && d.mayCommit e
  match l with
  | [] => []
  | e :: t => let b := t.foldl (fun m x => min m x.2.batch) e.2.batch
    l.filter fun x => x.2.batch == b

/-- COMMIT (R38, R43 to R47). -/
def execCommit (noRef : BitVec 2) (s : State) : Host.Outcome State Fault Refusal :=
  onDev (fun d => d.commitMoment d.nextBatch noRef) s

/-- The tick-bound commits of a boundary (R38). -/
def Dev.commitTick (d : Dev) (noRef : BitVec 2) : Dev :=
  d.commitMoment (d.fab.staged.filter fun e => d.tickBound e.1 && d.mayCommit e) noRef

/-- The oldest commit lands in the slow domain (R40). -/
def Dev.landCommit (d : Dev) : Dev :=
  match d.fab.slowCommits with
  | [] => d
  | ws :: t => (ws.foldl (fun (d : Dev) w => d.loadRws w.1 w.2) { d with fab := { d.fab with slowCommits := t } }).timApply.powerLeave 8

/-- SLOW_COMMIT_LAND (R40). -/
def execSlowCommitLand (s : State) : Host.Outcome State Fault Refusal := onDev Dev.landCommit s

/-! ### The configuration CRC (R53 to R57) -/

/-- The fields that the scan leaves out among the RWL fields of CMT, LOCK and INT (R53). -/
def unscanned (a : Nat) : Bool := [0x1020, 0x1028, 0x1038, 0x2014].contains a || blockOf a == 24

/-- The covered words of the control blocks in ascending address order (R53). -/
def coveredWords : List Nat :=
  [0, 0x1000, 0x2000, 0x4000, 0x5000, 0x6000, 0x7000, 0x8000, 0x9000, 0xA000, 0xB000, 0xC000, 0xD000, 0x10000, 0x11000, 0x12000,
   0x14000, 0x15000, 0x16000, 0x17000, 0x18000, 0x19000, 0x20000, 0x30000].flatMap fun base =>
    (((rowWords (fun t => t == .rws || t == .rwl || t == .wo1) (rowsOf base)).filter fun a =>
      blockOf a == blockOf base && !unscanned a).foldr (fun a m => Sparse.insert m a ()) []).map (·.1)

/-- The result of a scan of the live configuration (R53). -/
def Dev.scanResult (d : Dev) : Nat :=
  crc32c (coveredWords.flatMap fun a => leBytes (d.word a &&& maskOf (fun t => t == .rws || t == .rwl || t == .wo1) a).toNat)

/-- A scan starts at a boundary at which SCH_TICK mod 8 = 0, once; the capture requested before is served by this scan (R54, R57). -/
def Dev.scanStart (d : Dev) : Dev :=
  if d.schTick % 8 = 0 ∧ d.fab.scanTick ≠ some d.tick then
    { d with fab := { d.fab with scan := some { capture := d.on Reg.CMT_CRC_CAPTURE_GO }, scanTick := some d.tick } }
  else d

/-- CRC_SCAN_START (R54): the scan of this boundary, unless TICK_BOUNDARY has started it. -/
def execCrcScanStart (s : State) : Host.Outcome State Fault Refusal :=
  onDev Dev.scanStart s

/-- The end of a clean scan with result `r` (R55 to R57). -/
def Dev.scanClean (d : Dev) (r : Nat) (capture : Bool) : Dev :=
  let d := d.wr Reg.CMT_CRC_LAST_LAST r
  if capture && d.on Reg.CMT_CRC_CAPTURE_GO then
    (d.wr Reg.CMT_CRC_REF_REF r).cmdNext Reg.CMT_CRC_CAPTURE_GO id
  else if d.on Reg.CMT_CRC_CFG_ENABLE && r != d.rd Reg.CMT_CRC_REF_REF then
    let d := d.wr Reg.CMT_CRC_MISS_COUNT ((d.rd Reg.CMT_CRC_MISS_COUNT + 1) % 2 ^ 32)
    (d.flag Reg.CMT_STATUS_CRC_MISMATCH).post 22 2 r
  else d

/-- CRC_SCAN_DONE (R55). -/
def execCrcScanDone (s : State) : Host.Outcome State Fault Refusal :=
  onDev (fun d =>
    match d.fab.scan with
    | none => d
    | some x =>
      let d := { d with fab := { d.fab with scan := none } }
      if x.dirty then d.wr Reg.CMT_CRC_DIRTY_COUNT ((d.rd Reg.CMT_CRC_DIRTY_COUNT + 1) % 2 ^ 32)
      else d.scanClean d.scanResult x.capture) s

/-- CMT_CRC_CAPTURE.GO (R57). -/
def Dev.captureGo (d : Dev) : Dev := d.cmdGo Reg.CMT_CRC_CAPTURE_GO id

/-- CRC_CAPTURE (R57). -/
def execCrcCapture (h : Agent) (s : State) : Host.Outcome State Fault Refusal :=
  onDev (fun d => d.hostCmd h Reg.CMT_CRC_CAPTURE_GO [] Dev.captureGo) s

end Sys2Proof.Machine
end

