-- ==== Sys2Proof/Machine/Power.lean ====
section
/-! DEFINITION. Power states, hot plug, voltage and clock steps, temperature and ageing (spec/16). -/
namespace Sys2Proof.Machine

/-! ### Hot plug (R484, R485) -/

/-- The hot-plug state changes to `st`: HOTSTATE is posted. -/
def Dev.hotState (d : Dev) (st : Nat) (forced : Bool) : Dev :=
  ((d.wr Reg.HOT_STATUS_STATE st).flag Reg.HOT_STATUS_HOTEV).post 3 1 (st + bit forced * 2 ^ 8)

/-- Every TDM port that is not off stops. -/
def Dev.portsHalt (d : Dev) : Dev :=
  (List.range 16).foldl (fun d n => if d.rd (Reg.TDM_PSTAT_STATE n) = 0 then d else d.portStop n) d

/-- The enabled TDM ports start again: as START says, or at once. -/
def Dev.portsRelease (d : Dev) (atOnce : Bool) : Dev :=
  (List.range 16).foldl (fun d n => if d.portOn n then (if atOnce then d.portStart n else d.portBegin n) else d) d

/-- UNSEATED (R484): a card that is not seated permits no state deeper than P2 (R487). -/
def execUnseated (ns : Nat) (s : State) : Host.Outcome State Fault Refusal :=
  onDev (fun d =>
    let d := (d.at ns).wr Reg.HOT_STATUS_PRSNT 0
    if d.rd Reg.HOT_STATUS_STATE = 3 then d
    else (({ d with pwr := { d.pwr with safe := none, resume := false, unseatedAt := d.timeNs } }.portsHalt).hotState 3 false).powerLeave 8) s

/-- SEATED (R484): PRSNT_N has been low for 10 ms; the outputs are released at the next tick boundary. -/
def execSeated (ns : Nat) (s : State) : Host.Outcome State Fault Refusal :=
  onDev (fun d =>
    let d := d.at ns
    if d.rd Reg.HOT_STATUS_STATE = 3 ∧ d.pwr.unseatedAt + 10000000 ≤ d.timeNs then
      { (d.wr Reg.HOT_STATUS_PRSNT 1) with pwr := { d.pwr with resume := true } }.hotState 0 false
    else d) s

/-- EJECTING (R485, R488): EJECT_N has held its new level for 10 ms, so that no two changes lie closer. -/
def execEjecting (low : Bool) (ns : Nat) (s : State) : Host.Outcome State Fault Refusal :=
  onDev (fun d =>
    let d := d.at ns
    if d.on Reg.HOT_STATUS_EJECT = low ∨ d.timeNs < d.pwr.ejectAt + 10000000 then d
    else
      let d : Dev := { (d.wr Reg.HOT_STATUS_EJECT (bit low)) with pwr := { d.pwr with ejectAt := d.timeNs } }
      if low then
        let d := if d.rd Reg.HOT_STATUS_STATE = 0 then Dev.hotState { d with pwr := { d.pwr with ejectingAt := d.timeNs } } 1 false else d
        d.wake 4
      else d) s

/-- EJECT_N has been low for 10 s without a break: its debounce counts among them (R485). -/
def Dev.ejectLong (d : Dev) : Bool := d.on Reg.HOT_STATUS_EJECT && decide (d.pwr.ejectAt + 9990000000 ≤ d.timeNs)

/-- SAFE may be entered whatever the ejector does (R485). -/
def Dev.mayBeSafe (d : Dev) : Bool :=
  (!d.alarmActive && d.rd Reg.ALM_SPSTAT_STATE != 2) || d.on Reg.HOT_CFG_SAFE_IN_ALARM

/-- SAFE is to be entered at the next boundary at which it is permitted. -/
def Dev.askSafe (d : Dev) (forced : Bool) : Dev :=
  if d.rd Reg.HOT_STATUS_STATE < 2 then { d with pwr := { d.pwr with safe := some forced } } else d

/-- EJECT_DLY_EXPIRY (R485). -/
def execEjectDlyExpiry (ns : Nat) (s : State) : Host.Outcome State Fault Refusal :=
  onDev (fun d =>
    let d := d.at ns
    if d.rd Reg.HOT_STATUS_STATE = 1 ∧ d.pwr.ejectingAt + 1000000 * d.rd Reg.HOT_CFG_EJECT_DLY ≤ d.timeNs then d.askSafe false
    else d) s

/-- FORCED_SAFE (R485): EJECT_N has been low for 10 s. -/
def execForcedSafe (ns : Nat) (s : State) : Host.Outcome State Fault Refusal :=
  onDev (fun d =>
    let d := d.at ns
    if d.ejectLong && d.rd Reg.HOT_STATUS_STATE == 1 then d.askSafe (!d.mayBeSafe) else d) s

/-- HOT_CMD.SAFE (R485). -/
def Dev.safeGo (d : Dev) : Dev :=
  if d.mayBeSafe || d.ejectLong then (d.wr Reg.HOT_STATUS_REASON 0).askSafe (!d.mayBeSafe)
  else d.wr Reg.HOT_STATUS_REASON 0x10

/-- HOT_CMD.RESUME (R485). -/
def Dev.hotResumeGo (d : Dev) : Dev :=
  if d.on Reg.HOT_STATUS_EJECT then d.wr Reg.HOT_STATUS_REASON 0x11
  else
    let d := d.wr Reg.HOT_STATUS_REASON 0
    if d.rd Reg.HOT_STATUS_STATE = 2 then { d with pwr := { d.pwr with resume := true } } else d

/-- Hot plug at a tick boundary (R484, R485). -/
def Dev.hotBoundary (d : Dev) : Dev :=
  let d :=
    if d.pwr.resume then
      let d := { d with pwr := { d.pwr with resume := false } }
      if d.rd Reg.HOT_STATUS_STATE = 2 then (d.hotState 0 false).portsRelease false else d.portsRelease true
    else d
  match d.pwr.safe with
  | none => d
  | some forced =>
    if d.rd Reg.HOT_STATUS_STATE < 2 then
      if d.mayBeSafe || d.ejectLong then
        let d := { d with pwr := { d.pwr with safe := none } }.portsHalt
        (d.wr Reg.HOT_EJCNT_COUNT ((d.rd Reg.HOT_EJCNT_COUNT + 1) % 2 ^ 32)).hotState 2 (forced || !d.mayBeSafe)
      else d
    else { d with pwr := { d.pwr with safe := none } }

/-! ### Power states (R486 to R488) -/

/-- The power state changes to `st`. The wake cause of a change that no wake event brings is a free value (R502). -/
def Dev.powerState (d : Dev) (st : Nat) (cause : Option Nat) : Dev :=
  let (d, c) := match cause with
    | some c => (d, c)
    | none => let r := d.fresh; (r.1, r.2.toNat % 8)
  ((d.wr Reg.PWR_STATUS_STATE st).flag Reg.PWR_STATUS_PSTEV).post 1 1 (st + c * 2 ^ 8)

/-- What the entry into P4 loses (R486, R488): the grate memories are unpowered, SYN and the SerDes are off, and no candidate but the OCXO
is eligible, so that REF is in holdover. -/
def Dev.enterBanked (d : Dev) : Dev :=
  let d := [0, 1].foldl (fun d h =>
    let m := d.hm h
    d.setHm h { m with tiles := [], gw := [], poison := [], frames := [], inflight := [], queue := [], around := [],
                       prefetch := [], held := [], waiting := [], alt := [] }) d
  let d := [0, 1].foldl (fun d x =>
    let d := d.gate x
    (d.setSyns x { (d.syns x) with relock := .none }).synState x 0) d
  let d := [0, 1].foldl (fun d n => d.linkDown n 1) d
  ([0, 1, 2, 3].foldl Dev.candCheck d).refEval

/-- Power states at a tick boundary (R487): a deeper state is entered, and the way to a shallower one begins. -/
def Dev.powerBoundary (d : Dev) : Dev :=
  let t : Nat := d.powerTarget
  if d.rd Reg.PWR_STATUS_STATE < t ∧ d.pwr.exiting.isNone then
    let d := if 3 ≤ t then d.count Reg.PWR_DEEPCNT_COUNT Reg.PWR_STATUS_CNT_HALF else d
    let d := d.powerState t none
    if t = 4 then d.enterBanked else d
  else d.powerLeave 8

/-- ALARM_INPUT_LEVEL (R446, R488): an enabled input that reaches its active level is a wake event. -/
def execAlarmInputLevel (i : Fin 4) (level : Bool) (ns : Nat) (s : State) : Host.Outcome State Fault Refusal :=
  onDev (fun d =>
    let d := d.at ns
    if (d.alarmPin i).level = level then d
    else
      let d := (d.setAlarmPin i { level := level, since := d.timeNs }).showPins
      if d.pinActive i && d.rd Reg.ALM_INCFG_EN / 2 ^ i.val % 2 == 1 then d.wake 1 else d) s

/-- PWR_CMD.COMMITVER (R478): fuses are blown up to the SECVER of the running image. -/
def commitVer (x : NV × Dev) : NV × Dev :=
  let v := max x.1.version (x.2.rd Reg.PWR_SECVER_VER)
  ({ x.1 with version := v }, x.2.wr Reg.PWR_SECMIN_VER v)

/-! ### Voltage and clock steps (R489 to R491) -/

def Dev.rail (d : Dev) (n : Nat) : Rail := Sparse.get {} d.pwr.rails n
def Dev.setRail (d : Dev) (n : Nat) (x : Rail) : Dev := { d with pwr := { d.pwr with rails := Sparse.put {} d.pwr.rails n x } }

/-- AVS (R489): a read-back of rail `n`, 0 core, 1 A, 2 B, 10 ms after the last one. A request is held against it from 1 ms on. -/
def execAvs (n : Fin 3) (read : BitVec 10) (acked : Bool) (ns : Nat) (s : State) : Host.Outcome State Fault Refusal :=
  onDev (fun d =>
    let d := d.at ns
    let r := read.toNat
    let x := d.rail n
    if x.readAt.elim false fun t => decide (d.timeNs < t + 10000000) then d else
    let v := d.rd (Reg.PWR_AVS_VREQ n)
    let d := (d.wr (Reg.PWR_AVS_VREAD n) r).setRail n { x with readAt := some d.timeNs }
    let off := decide (x.reqAt + 1000000 ≤ d.timeNs) && (decide (r > v + 15) || decide (v > r + 15))
    if d.on Reg.PWR_CFG_AVS_EN && (!acked || off) then
      let d := (d.wr (Reg.PWR_AVS_ERR n) 1).count Reg.PWR_AVSERR_COUNT Reg.PWR_STATUS_CNT_HALF
      (d.flag Reg.PWR_STATUS_AVSEV).post 1 2 (n.val + 2 ^ 8 + r * 2 ^ 16)
    else d) s

/-- The rail of a domain: 0 Hearth A, 1 Hearth B, 2 core. -/
def railOf (dom : Nat) : Nat := if dom = 2 then 0 else dom + 1

/-- A request may change the voltage of rail `n`: requests are sent, and the rail is not in error. -/
def Dev.railFree (d : Dev) (n : Nat) : Bool := d.on Reg.PWR_CFG_AVS_EN && !d.on (Reg.PWR_AVS_ERR n)

/-- The voltage of rail `n` changes to `v` (R490). -/
def Dev.setVolt (d : Dev) (n v : Nat) : Dev :=
  ((d.wr (Reg.PWR_AVS_VREQ n) v).setRail n { (d.rail n) with reqAt := d.timeNs }).count Reg.AGE_VSTEPCNT_COUNT Reg.AGE_STATUS_CNT_HALF

/-- Hearth `h`'s clock steps to setting `c`, for the next plan (R491). -/
def Dev.clockStep (d : Dev) (h c : Nat) : Dev :=
  let down := decide ((d.sh h).clkReq < c)
  let d := d.setSh h { (d.sh h) with clkReq := c }
  let d := d.count Reg.AGE_CSTEPCNT_COUNT Reg.AGE_STATUS_CNT_HALF
  (d.flag Reg.AGE_STATUS_MRGEV).post 2 1 (h + c * 2 + bit down * 2 ^ 8)

def Dev.domain (d : Dev) (dom : Nat) : Domain := if dom = 0 then d.age.a else if dom = 1 then d.age.b else d.age.core
def Dev.setDomain (d : Dev) (dom : Nat) (x : Domain) : Dev :=
  if dom = 0 then { d with age := { d.age with a := x } }
  else if dom = 1 then { d with age := { d.age with b := x } }
  else { d with age := { d.age with core := x } }

/-- step_down of R490: within 10 s of a step up it blocks further steps up for an hour. -/
def Dev.stepDown (d : Dev) (h : Nat) : Dev :=
  let x := d.domain h
  let soon := x.up.elim false fun n => decide (n ≤ 10000)
  let d := d.setDomain h { x with block := if soon then 3600000 else x.block }
  d.clockStep h ((d.sh h).clkReq + 1)

/-- One evaluation of domain `dom` with margin `m` (R490). -/
def Dev.evalMargin (d : Dev) (dom m : Nat) : Dev :=
  let low := d.rd Reg.AGE_MCFG_LOW
  let high := d.rd Reg.AGE_MCFG_HIGH
  let x := d.domain dom
  let x := { x with low := if m < low then min 100000 (x.low + 1) else 0, high := if m > high then min 100000 (x.high + 1) else 0,
                    up := x.up.map fun n => min 100000 (n + 1), block := x.block - 1 }
  let d := d.setDomain dom x
  let n := railOf dom
  let v := d.rd (Reg.PWR_AVS_VREQ n)
  let clk := if dom = 2 then 2 else (d.sh dom).clkReq
  if m < d.rd Reg.AGE_MCFG_CRIT ∧ clk < 2 then d.stepDown dom
  else if m < low then
    if v + 5 ≤ d.rd Reg.PWR_AVSCFG_VMAX ∧ d.railFree n then d.setVolt n (v + 5)
    else if x.low ≥ 100 ∧ clk < 2 then d.stepDown dom
    else if dom = 2 ∧ m < d.rd Reg.AGE_MCFG_CRIT ∧ v + 5 > d.rd Reg.PWR_AVSCFG_VMAX then
      (d.flag Reg.AGE_STATUS_MRGEV).post 2 2 (2 + m * 2 ^ 8)
    else d
  else if m > high then
    let d := if x.high ≥ 10000 ∧ d.rd Reg.PWR_AVSCFG_VMIN + 5 ≤ v ∧ d.railFree n then d.setVolt n (v - 5) else d
    if d.on Reg.AGE_CFG_UPSTEP ∧ dom < 2 ∧ 0 < clk ∧ x.high ≥ 60000 ∧ x.block = 0 then
      (d.setDomain dom { x with up := some 0 }).clockStep dom (clk - 1)
    else d
  else d

/-- `len` ticks have passed since tick `t`, and AGE runs. -/
def Dev.ageDue (d : Dev) (t len : Nat) : Bool := d.on Reg.AGE_CFG_ENABLE && decide (t + len ≤ d.tick)

/-- MARGIN_EVAL (R490, R491): 1 ms after the last one. -/
def execMarginEval (a b c : BitVec 8) (s : State) : Host.Outcome State Fault Refusal :=
  onDev (fun d =>
    if !d.ageDue d.age.evalAt 8 then d else
    let d := { d with age := { d.age with evalAt := d.tick } }
    let d := ((d.wr (Reg.AGE_MARGIN 0) a.toNat).wr (Reg.AGE_MARGIN 1) b.toNat).wr (Reg.AGE_MARGIN 2) c.toNat
    if d.on Reg.AGE_CFG_MARGIN_EN then
      ((d.evalMargin 0 a.toNat).evalMargin 1 b.toNat).evalMargin 2 c.toNat
    else d) s

/-! ### Temperature (R492) -/

/-- The field of AGE_TEMP of a sensor: 0 Hearth A, 1 Hearth B, 2 core. -/
def tempFld (k : Nat) : Fld := if k = 0 then Reg.AGE_TEMP_A else if k = 1 then Reg.AGE_TEMP_B else Reg.AGE_TEMP_CORE

/-- A sensor reads 95 °C or more. -/
def Dev.isHot (d : Dev) : Bool := [0, 1, 2].any fun k => decide (95 ≤ sint 8 (d.rd (tempFld k)))

/-- TEMP (R492). -/
def execTemp (sensor : Fin 3) (tj : BitVec 8) (s : State) : Host.Outcome State Fault Refusal :=
  onDev (fun d =>
    if !d.on Reg.AGE_CFG_ENABLE then d else
    let t := tj.toInt
    let k := sensor.val
    let limit : Int := d.rd Reg.AGE_CFG_TALERT
    let most := match d.age.most with | some m => max m t | none => t
    let d := (d.wr (tempFld k) tj.toNat).wr Reg.AGE_TEMP_MAX (uint 8 most)
    let hot := d.age.hot || decide (95 ≤ t)
    let d := { d with age := { d.age with most := some most, hot := hot } }
    let post := fun (d : Dev) (on : Bool) =>
      (d.flag Reg.AGE_STATUS_TEMPEV).post 2 3 (k + tj.toNat * 2 ^ 8 + bit on * 2 ^ 16)
    if d.age.alerts.contains k then
      if t ≤ limit - 5 then post { d with age := { d.age with alerts := d.age.alerts.filter (· != k) } } false else d
    else if limit ≤ t then post { d with age := { d.age with alerts := d.age.alerts ++ [k] } } true
    else d) s

/-! ### Ageing (R493 to R495) -/

/-- The RO fields that hold the ageing record (R493). -/
def Dev.showAge (d : Dev) : Dev :=
  let r := d.age.hist
  let d := (List.range 3).foldl (fun d i => d.wr (Reg.AGE_DEG i) (r.deg.getD i 0)) d
  (d.wr Reg.AGE_HOURS_COUNT (r.hours % 2 ^ 32)).wr Reg.AGE_HOTHOURS_COUNT (r.hotHours % 2 ^ 32)

/-- DEG_MEASURE (R493): an hour, 28,800,000 ticks, after the last one. -/
def execDegMeasure (a b c : BitVec 16) (s : State) : Host.Outcome State Fault Refusal :=
  onDev (fun d =>
    if !d.ageDue d.age.degAt 28800000 then d else
    let r := d.age.hist
    let hot := d.age.hot
    let r := { r with deg := [a.toNat, b.toNat, c.toNat], hours := r.hours + 1, hotHours := r.hotHours + bit hot }
    { d with age := { d.age with hist := r, hot := d.isHot, degAt := d.tick } }.showAge) s

/-- The mean of a list. -/
def meanOf (l : List Rat) : Rat := l.foldl (· + ·) 0 / (l.length : Rat)

/-- The least squares line through `ps`: its slope, and the sum of the squares of its residuals. -/
def fitLine (ps : List (Rat × Rat)) : Rat × Rat :=
  let mx := meanOf (ps.map (·.1))
  let my := meanOf (ps.map (·.2))
  let sxx := (ps.map fun p => (p.1 - mx) * (p.1 - mx)).foldl (· + ·) 0
  let sxy := (ps.map fun p => (p.1 - mx) * (p.2 - my)).foldl (· + ·) 0
  let k := sxy / sxx
  (k, (ps.map fun p => (p.2 - my - k * (p.1 - mx)) * (p.2 - my - k * (p.1 - mx))).foldl (· + ·) 0)

/-- The fit of R494 over the last DAYS valid days: AGE_NDAYS, AGE_OCXORATE and AGE_STATUS.VALID follow it. Daily means are
in units of 2^-20 ppb; with fewer than two days there is no line, and the rate is a free value. -/
def Dev.ageFit (d : Dev) : Dev :=
  let days := d.age.hist.days
  let use := days.drop (days.length - d.rd Reg.AGE_CFG_DAYS)
  let n := use.length
  let d := d.wr Reg.AGE_NDAYS_COUNT (n % 256)
  let (d, rate, ok) :=
    if n < 2 then
      let r := d.fresh
      (r.1, r.2.toNat, false)
    else
      let f := fitLine (use.map fun e => ((e.1 : Rat), e.2))
      let k := f.1 * 1000 / 2 ^ 20
      (d, sat32 (quot 14 k.num k.den), decide (7 ≤ n) && decide (f.2 ≤ (n : Rat) * 2 ^ 38))
  let d := (d.wr Reg.AGE_OCXORATE_RATE rate).wr Reg.AGE_STATUS_VALID (bit ok)
  (d.flag Reg.AGE_STATUS_AGEEV).post 2 4 (bit ok * 2 ^ 8 + rate * 2 ^ 32)

/-- OCXOEST (R494): a day of 691,200,000 ticks ends; with 20 or more valid hours it is valid. -/
def execOcxoest (s : State) : Host.Outcome State Fault Refusal :=
  onDev (fun d =>
    if !d.ageDue d.age.dayAt 691200000 then d else
    let r := d.age.hist
    let days := if 20 ≤ r.means.length then r.days ++ [(r.day, meanOf (r.means.map fun (m : Int) => (m : Rat)))] else r.days
    let r := { r with means := [], day := r.day + 1, days := days.drop (days.length - 60) }
    { d with age := { d.age with hist := r, dayAt := d.age.dayAt + 691200000 } }.ageFit) s

/-- AGEING_RECORD_WRITE (R493): the supervisor writes sector 0 of the ash dump partition, where there is one, 24 hours after the last time. -/
def execAgeingRecordWrite (s : State) : Host.Outcome State Fault Refusal :=
  onBoth (fun x =>
    let d := x.2
    if d.boot.dumpSectors = 0 ∨ !d.supRuns ∨ d.tick < d.age.recAt + 691200000 then x
    else ({ x.1 with age := some d.age.hist }, { d with age := { d.age with recAt := d.tick } })) s

/-- AGE_CORR_UPDATE (R495): a second after the last one; the correction in 0.01 ppb moves by at most FSLOPE in it. -/
def execAgeCorrUpdate (s : State) : Host.Outcome State Fault Refusal :=
  onDev (fun d =>
    if !d.ageDue d.age.corrAt 8000 then d else
    let d := { d with age := { d.age with corrAt := d.tick } }
    let ok := d.on Reg.AGE_CFG_APPLY && d.on Reg.AGE_STATUS_VALID && d.on Reg.REF_STATUS_HISTVALID
    let rate := sint 32 (d.rd Reg.AGE_OCXORATE_RATE)
    let ticks : Int := (d.tick : Int) - d.ref.mid
    let c := if ok then max (-10000) (min (quot 13 (-(rate * ticks)) (8000 * 86400 * 10)) 10000) else 0
    let now := sint 32 (d.rd Reg.AGE_CORR_CORR)
    let lim : Int := 100 * d.rd Reg.REF_SLEW_FSLOPE
    d.wr Reg.AGE_CORR_CORR (uint 32 (max (now - lim) (min c (now + lim))))) s

/-- AGE_CMD.CLRHIST (R494). -/
def Dev.clrHistGo (d : Dev) : Dev :=
  let d := { d with age := { d.age with hist := { d.age.hist with means := [], days := [] } } }
  (d.wr Reg.AGE_NDAYS_COUNT 0).wr Reg.AGE_STATUS_VALID 0

end Sys2Proof.Machine
end

