-- ==== Sys2Proof/Machine/Hif.lean ====
section
/-! DEFINITION. Write ownership, the PCI Express link, the supervisor mailbox and supervisor restarts (spec/17 R522 to
R536, spec/01 R21). -/
namespace Sys2Proof.Machine

/-! ### Lock violations of register writes (R49, R50, R459, R529) -/

/-- The kind of violation, if any, of a write by `h` that touches fields of types `tys` in the word at `a`; `again`: a WO1
field among them has been written. -/
def Dev.violation (d : Dev) (h : Agent) (a : Nat) (tys : List Ty) (again : Bool) : Option Nat :=
  let held := tys.any fun t => t == .rws || t == .rwl || t == .hrw
  if !d.owns h then some 2
  else if again then some 1
  else if d.locked h (blockOf a) && tys.contains .cmd && d.on Reg.LOCK_POLICY_LOCK_CMD then some 3
  else if d.locked h (blockOf a) && held then some 0
  else if d.standLocked h (blockOf a) && held && a != 0xB008 then some 0
  else none

/-! ### Write ownership (R529 to R531) -/

/-- Ownership changes to host `c`. -/
def Dev.setOwner (d : Dev) (c : Nat) : Dev :=
  let d := ((d.wr Reg.HIF_OWN_OWNER c).wr Reg.HIF_STATUS_OWNER c).count Reg.HIF_OWNCNT_COUNT Reg.HIF_STATUS_CNT_HALF
  (d.flag Reg.HIF_STATUS_OWNEV).post 0 1 c

/-- The pending claim of host `c` ends. -/
def Dev.claimEnds (d : Dev) (c : Nat) (granted : Bool) : Dev :=
  let d := (d.wr Reg.HIF_STATUS_CLAIM 0).wr Reg.HIF_OWNREQ_CLAIM 0
  (d.flag Reg.HIF_STATUS_CLAIMEV).post 0 3 (c + bit granted * 2 ^ 8)

/-- The pending claim is granted. -/
def Dev.grant (d : Dev) : Dev :=
  let c := 1 - d.rd Reg.HIF_OWN_OWNER
  (d.setOwner c).claimEnds c true

/-- The link test of R530: a claim is granted while PCI Express owns writes and its link is down. -/
def Dev.linkTest (d : Dev) : Dev :=
  if d.on Reg.HIF_STATUS_CLAIM && d.rd Reg.HIF_OWN_OWNER == 0 && !d.on Reg.HIF_STATUS_PCIE_UP then d.grant else d

/-- HIF_OWN.OWNER is written by `h` (R530): only the owner's write of the other host's code changes it. -/
def Dev.ownerWrite (d : Dev) (h : Agent) (c : Nat) : Dev :=
  let old := d.rd Reg.HIF_OWN_OWNER
  if h = .sup ∨ c = old then d
  else
    let claim := d.on Reg.HIF_STATUS_CLAIM
    let d := d.setOwner c
    if claim then d.claimEnds c true else d

/-- HIF_OWNREQ.CLAIM is written 1 by the host that does not own writes (R530, R531). -/
def Dev.claimGo (d : Dev) (h : Agent) : Dev :=
  if h = .sup ∨ d.owns h ∨ d.on Reg.HIF_STATUS_CLAIM then d
  else
    let d := { ((d.wr Reg.HIF_STATUS_CLAIM 1).wr Reg.HIF_OWNREQ_CLAIM 1) with hif := { d.hif with claimAt := d.timeNs } }
    ((d.flag Reg.HIF_STATUS_CLAIMEV).post 0 2 (agentCode h)).linkTest

/-- HIF_OWNREQ.DENY is written 1 (R530, R531). -/
def Dev.denyGo (d : Dev) (h : Agent) : Dev :=
  if h ≠ .sup ∧ d.owns h ∧ d.on Reg.HIF_STATUS_CLAIM then d.claimEnds (1 - d.rd Reg.HIF_OWN_OWNER) false else d

/-- OWNER (R529, R530). -/
def execOwner (h : Agent) (code : Fin 2) (s : State) : Host.Outcome State Fault Refusal :=
  onDev (fun d =>
    let d := d.touch h true 0
    match d.violation h 0x20 [.hrw] false with
    | some k => d.lockViol h 0x20 k
    | none => d.ownerWrite h code) s

/-- A write of HIF_OWNREQ (R529): a write with CLAIM = 1 and DENY = 0 by the host that does not own writes is the one
exception to write ownership; a locked command field still refuses it. -/
def Dev.ownReqWrite (d : Dev) (h : Agent) (claim deny : Bool) : Dev :=
  let d := d.touch h true 0
  let k := if !d.owns h && claim && !deny then
      (if d.locked h 0 && d.on Reg.LOCK_POLICY_LOCK_CMD then some 3 else none)
    else d.violation h 0x24 [.cmd] false
  match k with
  | some k => d.lockViol h 0x24 k
  | none =>
    let d := if claim then d.claimGo h else d
    if deny then d.denyGo h else d

/-- CLAIM (R529, R530). -/
def execClaim (h : Agent) (s : State) : Host.Outcome State Fault Refusal := onDev (fun d => d.ownReqWrite h true false) s

/-- DENY (R530, R531). -/
def execDeny (h : Agent) (s : State) : Host.Outcome State Fault Refusal := onDev (fun d => d.ownReqWrite h false true) s

/-- CLAIMEND (R530): CLAIM_MS ms have passed since the claim; with CLAIM_MS = 0 no timer grants it. -/
def execClaimend (ns : Nat) (s : State) : Host.Outcome State Fault Refusal :=
  onDev (fun d =>
    let d := d.at ns
    let ms := d.rd Reg.HIF_OWNCFG_CLAIM_MS
    if d.on Reg.HIF_STATUS_CLAIM && ms != 0 && decide (d.hif.claimAt + 1000000 * ms ≤ d.timeNs) then d.grant else d) s

/-- PCIELINK (R524, R530): link down resets the MSI-X table. A link that stays as it is posts nothing. -/
def execPcielink (up : Bool) (speed width : BitVec 2) (s : State) : Host.Outcome State Fault Refusal :=
  onDev (fun d =>
    if d.rd Reg.HIF_STATUS_PCIE_UP = bit up ∧ d.rd Reg.HIF_STATUS_PCIE_SPEED = speed.toNat ∧ d.rd Reg.HIF_STATUS_PCIE_WIDTH = width.toNat then d
    else
    let d := ((d.wr Reg.HIF_STATUS_PCIE_UP (bit up)).wr Reg.HIF_STATUS_PCIE_SPEED speed.toNat).wr Reg.HIF_STATUS_PCIE_WIDTH width.toNat
    let d := if up then d else { d with intr := { d.intr with table := [], pba := [] } }
    ((d.flag Reg.HIF_STATUS_LINKEV).post 0 5 (bit up + speed.toNat * 2 + width.toNat * 2 ^ 4)).linkTest) s

/-! ### The mailbox (R532 to R534) -/

/-- Bytes as little-endian words. -/
def packLe : List Nat → List Word
  | a :: b :: c :: e :: t => BitVec.ofNat 32 (a + 256 * b + 65536 * c + 16777216 * e) :: packLe t
  | [] => []
  | a :: t => [BitVec.ofNat 32 (a + 256 * t.getD 0 0 + 65536 * t.getD 1 0)]

/-- `l` cut or padded with zeros to `n` elements. -/
def fitTo (n : Nat) (l : List Nat) : List Nat := (l ++ List.replicate (n - l.length) 0).take n

/-- The entry of a session in the SAP session table (R534). -/
def SapSession.entry (x : SapSession) (tick : Nat) : List Word :=
  let w0 := 2 ^ 31 + x.port % 2 * 2 ^ 30 + bit x.v6 * 2 ^ 29 + x.text.length % 65536
  let secs := min ((tick - x.heard) / 8000) (2 ^ 32 - 1)
  packLe (leBytes w0 ++ leBytes secs ++ fitTo 16 x.src ++ [x.hash % 256, x.hash / 256 % 256, 0, 0, 0, 0, 0, 0] ++ fitTo 224 x.text)

/-- Mailbox argument word `i`. -/
def Dev.mbArg (d : Dev) (i : Nat) : Nat := d.rd (Reg.HIF_MBDATA_DATA i)

/-- The flash address of the arguments is a sector of the flash. -/
def Dev.sectorOk (d : Dev) : Bool := d.mbArg 0 % 65536 == 0 && decide (d.mbArg 0 + 65536 ≤ d.boot.flashBytes)

/-- The address lies in the ash dump partition. -/
def Dev.inDump (d : Dev) (a : Nat) : Bool := decide (d.boot.dumpBase ≤ a) && decide (a < d.boot.dumpBase + 65536 * d.boot.dumpSectors)

/-- ALARM of R532. -/
def Dev.flashHeld (d : Dev) : Bool := d.alarmActive || d.rd Reg.ALM_SPSTAT_STATE == 2

/-- The bytes of a sector, as offset and byte pairs that differ from an erased byte. -/
def sectorBytes (l : Sparse Byte) (a : Nat) : Sparse Byte :=
  l.filterMap fun e => if a ≤ e.1 ∧ e.1 < a + 65536 then some (e.1 - a, e.2) else none

/-- A store with the bytes from `a` to `a` + 65,535 erased. -/
def eraseSector (l : Sparse Byte) (a : Nat) : Sparse Byte := l.filter fun e => !(decide (a ≤ e.1) && decide (e.1 < a + 65536))

/-- Words as sparse bytes from offset 0. -/
def bytesOfWords (ws : List Word) : Sparse Byte :=
  (Sparse.putList (0xFF : Byte) [] 0 ((ws.flatMap fun w => leBytes w.toNat).map (BitVec.ofNat 8 ·)))

/-- 16,384 words whose values the spec leaves open. -/
def openSector (i : Nat) : List Word := (List.range 16384).map fun k => Config.freeWord (i + k)

/-- FLASHREAD (R532): the sector at `a` into the staging buffer. A sector that an abandoned or failed command has left,
and the ageing record, read as free values. -/
def readSector (x : NV × Dev) (a : Nat) : NV × Dev :=
  let d := x.2
  let n := (a - d.boot.dumpBase) / 65536
  let fill := fun (d : Dev) (b : Sparse Byte) => { d with hif := { d.hif with stage := b } }
  if d.inDump a ∧ n = 0 then (x.1, fill { d with free := d.free + 16384 } (bytesOfWords (openSector d.free)))
  else match (if d.inDump a then x.1.dump.find? fun e => e.1 == n else none), x.1.torn.find? fun e => e.1 == a / 65536 with
    | some r, _ => (x.1, fill d (bytesOfWords r.2.words))
    | none, some t => (x.1, fill d (bytesOfWords (openSector t.2)))
    | none, none => (x.1, fill d (sectorBytes x.1.flash a))

/-- Leave the sector at `a` with a content that the spec does not state. -/
def tearSector (x : NV × Dev) (a : Nat) : NV × Dev :=
  ({ x.1 with flash := eraseSector x.1.flash a, torn := Sparse.insert x.1.torn (a / 65536) x.2.free },
   { x.2 with free := x.2.free + 16384 })

/-- Programming can give every bit of `new` to a byte that holds `old`. -/
def canProgram (old new : Byte) : Bool := new &&& ~~~old == 0

/-- FLASHPROG (R532): the staging buffer into the sector at `a`; `ok`: the flash takes every bit it is given. -/
def progSector (x : NV × Dev) (a : Nat) (ok : Bool) : (NV × Dev) × Nat :=
  let st := x.2.hif.stage
  let fresh := (x.1.torn.find? fun e => e.1 == a / 65536).isNone
  let old := sectorBytes x.1.flash a
  let fits := old.all fun e => canProgram e.2 (Sparse.get 0xFF st e.1)
  if ok && fresh && fits then
    let flash := st.foldl (fun (l : Sparse Byte) (e : Nat × Byte) => Sparse.put 0xFF l (a + e.1) e.2) (eraseSector x.1.flash a)
    (({ x.1 with flash := flash }, x.2), 0)
  else (tearSector x a, 0x88)

/-- The equipment key slot `n`, 1 or 2. -/
def NV.slot (v : NV) (n : Nat) : KeySlot := if n = 1 then v.key1 else v.key2
def NV.setSlot (v : NV) (n : Nat) (k : KeySlot) : NV := if n = 1 then { v with key1 := k } else { v with key2 := k }

/-- Equipment slot `k` holds a key that is not revoked. -/
def KeySlot.usable (k : KeySlot) : Bool := k.hash.isSome && !k.revoked

/-- PWR_KSTAT.DEVKEY: no equipment key is programmed (R478). -/
def showDevKey (x : NV × Dev) : NV × Dev :=
  (x.1, x.2.wr Reg.PWR_KSTAT_DEVKEY (bit (x.1.key1.hash.isNone && x.1.key2.hash.isNone)))

/-- The key hash of MBDATA1 to MBDATA8, most significant word first. -/
def Dev.mbHash (d : Dev) : List Byte :=
  (List.range 8).flatMap fun i => ((leBytes (d.mbArg (i + 1))).reverse).map (BitVec.ofNat 8 ·)

/-- The command in MBCMD.OP starts: its tests, its effect, and what it will report. -/
def mbRun (x : NV × Dev) (ok : Bool) : NV × Dev :=
  let d := x.2
  let op := d.rd Reg.HIF_MBCMD_OP
  let a := d.mbArg 0
  let note := fun (x : NV × Dev) (reason : Nat) (results : List (Nat × Nat)) (sector : Option Nat) (keys : Option (KeySlot × KeySlot)) =>
    (x.1, { x.2 with hif := { x.2.hif with mb := some ⟨op, reason, results, sector, keys⟩ } })
  let no := fun (c : Nat) => note x c [] none none
  let keys := some (x.1.key1, x.1.key2)
  let slotOk := a == 1 || a == 2
  let flashTest := lowest (code (!d.sectorOk) 0x01 ++ code d.flashHeld 0x12 ++ code (d.inDump a) 0x13)
  match op with
  | 1 =>
    match lowest (code (!slotOk) 0x01 ++ code (slotOk && (x.1.slot a).hash.isSome) 0x10) with
    | some c => no c
    | none => note (showDevKey (x.1.setSlot a { (x.1.slot a) with hash := some d.mbHash }, d)) 0 [] none keys
  | 2 =>
    match lowest (code (!slotOk) 0x01 ++ code (slotOk && !(x.1.slot (3 - a)).usable) 0x11) with
    | some c => no c
    | none => note (x.1.setSlot a { (x.1.slot a) with revoked := true }, d) 0 [] none keys
  | 3 =>
    let d := { d with sapTable := d.sap.flatMap fun e => e.entry d.tick }
    note (x.1, d) 0 [(0, d.sap.length)] none none
  | 4 => if d.sectorOk then note (readSector x a) 0 [] none none else no 0x01
  | 5 =>
    match flashTest with
    | some c => no c
    | none => note ({ x.1 with flash := eraseSector x.1.flash a, torn := Sparse.erase x.1.torn (a / 65536) }, d) 0 [] (some a) none
  | 6 =>
    match flashTest with
    | some c => no c
    | none => let r := progSector x a ok
      note r.1 r.2 [] (some a) none
  | 7 => note x 0 [(0, (Config.fwInfo (d.rd Reg.PWR_KSTAT_IMAGE) (d.rd Reg.PWR_SECVER_VER) (d.rd Reg.PWR_SECMIN_VER)).toNat),
      (1, d.boot.otherVer)] none none
  | _ => no 0x01

/-- The command in MBCMD starts, or waits for the supervisor (R532). -/
def mbStart (x : NV × Dev) (ok : Bool) : NV × Dev :=
  if x.2.supRuns then mbRun (x.1, { x.2 with hif := { x.2.hif with mbWait := false } }) ok
  else (x.1, { x.2 with hif := { x.2.hif with mbWait := true } })

/-- A bit that the outside would have given. -/
def Dev.freeBit (d : Dev) : Dev × Bool :=
  let r := d.fresh
  (r.1, r.2.toNat % 2 == 1)

/-- mbStart without the flash's answer at hand: it is free. -/
def mbStartFree (x : NV × Dev) : NV × Dev :=
  let r := x.2.freeBit
  mbStart (x.1, r.1) r.2

/-- HIF_MBCMD.GO is written 1 (R32, R532). -/
def mbGo (ok : Option Bool) (x : NV × Dev) : NV × Dev :=
  let d := x.2
  if d.on Reg.HIF_MBCMD_GO then (x.1, d.cmdGo Reg.HIF_MBCMD_GO id)
  else
    let x := (x.1, d.wr Reg.HIF_MBCMD_GO 1)
    match ok with
    | some ok => mbStart x ok
    | none => mbStartFree x

/-- The form of the mailbox rows: one write of HIF_MBCMD. -/
def mbRow (h : Agent) (op : Nat) (ok : Option Bool) (s : State) : Host.Outcome State Fault Refusal :=
  onBoth (fun x => hostBoth x h Reg.HIF_MBCMD_GO [(Reg.HIF_MBCMD_OP, op)] (mbGo ok)) s

/-- KEYPROG (R478, R532). -/
def execKeyprog (h : Agent) (s : State) : Host.Outcome State Fault Refusal := mbRow h 1 none s
/-- KEYREVOKE (R532). -/
def execKeyrevoke (h : Agent) (s : State) : Host.Outcome State Fault Refusal := mbRow h 2 none s
/-- SAPSNAP (R532, R534). -/
def execSapsnap (h : Agent) (s : State) : Host.Outcome State Fault Refusal := mbRow h 3 none s
/-- FLASHREAD (R532). -/
def execFlashread (h : Agent) (s : State) : Host.Outcome State Fault Refusal := mbRow h 4 none s
/-- FLASHERASE (R532). -/
def execFlasherase (h : Agent) (s : State) : Host.Outcome State Fault Refusal := mbRow h 5 none s
/-- FLASHPROG (R532). -/
def execFlashprog (h : Agent) (ok : Bool) (s : State) : Host.Outcome State Fault Refusal := mbRow h 6 (some ok) s
/-- FWINFO (R532). -/
def execFwinfo (h : Agent) (s : State) : Host.Outcome State Fault Refusal := mbRow h 7 none s

/-- HIF_MBRES and MBDONE of a command that ends with `reason`. -/
def Dev.mbReport (d : Dev) (op reason : Nat) : Dev :=
  let d := (d.wr Reg.HIF_MBRES_REASON reason).wr Reg.HIF_MBRES_OP op
  let d := (d.wr Reg.HIF_MBRES_REFUSED (bit (reason != 0))).wr Reg.HIF_MBRES_VALID 1
  (d.flag Reg.HIF_STATUS_MBDONE).post 0 4 (op + reason * 2 ^ 8)

/-- The command in progress completes, and a queued one starts (R32, R532). -/
def mbComplete (x : NV × Dev) (m : Mailbox) : NV × Dev :=
  let d := { x.2 with hif := { x.2.hif with mb := none } }
  let d := m.results.foldl (fun d r => d.wr (Reg.HIF_MBDATA_DATA r.1) r.2) d
  let d := d.mbReport m.op m.reason
  if d.fab.queued.contains Reg.HIF_MBCMD_GO.key then
    mbStartFree (x.1, { d with fab := { d.fab with queued := d.fab.queued.filter (· != Reg.HIF_MBCMD_GO.key) } })
  else (x.1, d.wr Reg.HIF_MBCMD_GO 0)

/-- MBDONE (R532); a command that waited for the supervisor starts first. -/
def execMbdone (s : State) : Host.Outcome State Fault Refusal :=
  onBoth (fun x =>
    let x := if x.2.hif.mb.isNone && x.2.hif.mbWait && x.2.supRuns then mbStartFree x else x
    match x.2.hif.mb with
    | some m => mbComplete x m
    | none => x) s

/-- The command in progress is abandoned at a supervisor restart (R533): the content of a sector it changed is open, and so
is whether fuses it was to blow are blown. -/
def mbAbort (x : NV × Dev) : NV × Dev :=
  match x.2.hif.mb with
  | none => x
  | some m =>
    let x := (x.1, { x.2 with hif := { x.2.hif with mb := none } })
    let x := match m.sector with
      | some a => tearSector x a
      | none => x
    let x := match m.keys with
      | some k =>
        let r := x.2.freeBit
        showDevKey (if r.2 then x.1 else { x.1 with key1 := k.1, key2 := k.2 }, r.1)
      | none => x
    let d := x.2.mbReport m.op 0x89
    if d.fab.queued.contains Reg.HIF_MBCMD_GO.key then
      (x.1, { d with fab := { d.fab with queued := d.fab.queued.filter (· != Reg.HIF_MBCMD_GO.key) }, hif := { d.hif with mbWait := true } })
    else (x.1, d.wr Reg.HIF_MBCMD_GO 0)

/-! ### Supervisor restarts (R21 to R23) -/

/-- SUP_RESTART (R21, R156, R496, R533). The event SUP_RESTART has no code in any table of the spec: its source, code and
argument are free values. -/
def execSupRestart (s : State) : Host.Outcome State Fault Refusal :=
  onBoth (fun x =>
    if x.2.rd Reg.PWR_KSTAT_STEP < 4 ∨ x.2.rd Reg.PWR_STATUS_STATE = 4 then x else
    let x := mbAbort x
    let d := x.2
    let d := { d with sup := { down := some (d.sup.down.getD d.tick), restarts := d.sup.restarts + 1 } }
    let r := d.fresh
    let q := r.1.fresh
    let d := q.1.post (r.2.toNat % 25) (r.2.toNat / 25 % 256) q.2.toNat
    (x.1, d.ldAbort.capture 1)) s

/-- SUP_RESUME (R21): memberships are reported again and announcements resume (R256). -/
def execSupResume (s : State) : Host.Outcome State Fault Refusal :=
  onDev (fun d => if d.sup.down.isSome then Dev.supRenew { d with sup := { d.sup with down := none } } else d) s

end Sys2Proof.Machine
end

