-- ==== Sys2Proof/Machine/Bus.lean ====
section
/-! DEFINITION. Host accesses: the address map, register writes and reads by field type, the alias views, the slow-domain
queue and the counter snapshot (spec/02, spec/17 R520 to R523). -/
namespace Sys2Proof.Machine

/-! ### Current values (R62) -/

/-- A quotient of ns by 1,000, saturated to 16 bits signed. -/
def micros (what : Nat) (x : Int) (k : Nat) : Nat := uint 16 (max (-32768) (min 32767 (quot what x (1000 * k))))

/-- MARGIN of a path (R235): the smallest over the last 8,000 ticks. -/
def marginOf (l : List (Nat × Int)) : Nat :=
  match l with
  | [] => 0x8000
  | e :: t => micros 15 (t.foldl (fun m x => min m x.2) e.2) 1

/-- The word at word `i` of receive descriptor `f`, from 0x20 on (R235). -/
def Dev.rxWord (d : Dev) (f i : Nat) : Nat :=
  let x := d.rxf f
  match i with
  | 8 => x.st + bit x.up0 * 2 ^ 4 + bit x.up1 * 2 ^ 5 + x.reason * 2 ^ 8
  | 9 => x.high % 65536
  | 10 => marginOf x.marg0 + marginOf x.marg1 * 65536
  | 11 => if x.up0 && x.up1 && !x.skews.isEmpty then micros 16 (sumOf (x.skews.map (·.2))) x.skews.length else 0x8000
  | 12 => x.tickLast
  | _ => 0

/-- The word at word `i` of transmit descriptor `f`, from 0x20 on (R248). -/
def Dev.txWord (d : Dev) (f i : Nat) : Nat :=
  let x := d.txf f
  match i with
  | 8 => x.st + x.reason * 2 ^ 8
  | 9 => x.seq
  | 10 => if x.live then d.nextTs x else 0
  | 12 | 13 | 14 | 15 => x.cnt.getD (i - 12) 0
  | _ => 0

/-- Word `i` of entry `n` of the multicast filter memory (R231, R237). -/
def Dev.mcfWord (d : Dev) (n i : Nat) : Nat :=
  match d.flw.mcf.find? fun e => e.1 == n with
  | none => 0
  | some (_, k) =>
    let r := (d.rxf (k / 2)).recs.getD (k % 2) []
    if i = 0 then 2 ^ 31 + bit (rV6 r) * 2 ^ 30 + k % 2 * 2 ^ 29 + k / 2
    else if i ≤ 4 then r.getD i 0
    else 0

/-- Word `i` of flow table memory (R231). -/
def Dev.flowMem (d : Dev) (i : Nat) : Word :=
  if i < 8192 ∧ 8 ≤ i % 16 then
    BitVec.ofNat 32 (if i < 4096 then d.rxWord (i / 16) (i % 16) else d.txWord ((i - 4096) / 16) (i % 16))
  else if 8192 ≤ i ∧ i < 12288 then Sparse.get 0 d.flw.stats (i - 8192)
  else if 12288 ≤ i ∧ i < 16384 then BitVec.ofNat 32 (d.mcfWord ((i - 12288) / 8) ((i - 12288) % 8))
  else if i < 40960 then Sparse.get 0 d.flw.mem i
  else 0

/-- Word `i` of the flash staging buffer. -/
def Dev.stageWord (d : Dev) (i : Nat) : Word :=
  let b := fun k => (Sparse.get 0xFF d.hif.stage (4 * i + k)).toNat
  BitVec.ofNat 32 (b 0 + 256 * b 1 + 65536 * b 2 + 16777216 * b 3)

/-- The fields of a control word that the other views do not show: the time of R313, the heads of the stamp queues and the
dump buffer. -/
def Dev.timeFields (d : Dev) (w : Nat) : List (Fld × Nat) :=
  match w with
  | 0x14020 => [(Reg.TIME_NS, ts32 d.timeNs)]
  | 0x14024 => [(Reg.TIME_SEC, d.seconds)]
  | 0x14028 => [(Reg.TIME_SECHI, d.seconds / 2 ^ 32)]
  | 0x1402C => [(Reg.TIME_TICK, d.schTick)]
  | 0x7018 => [(Reg.DUMP_RDDATA_DATA, d.rdData.toNat)]
  | _ => if 0x15040 ≤ w ∧ w < 0x15080 then [(⟨w, 31, 0⟩, ((d.stampHead ((w - 0x15040) / 16)).getD (w % 16 / 4) 0).toNat)] else []

/-- The current value of the control word at `w`, with RWS fields as RDVIEW says (R29); a word of the slow domain is read from its
copy (R65). -/
def Dev.ctlWord (d : Dev) (w : Nat) : Word :=
  let v := if slowWord w then d.copyWord w else overlay (d.readWord w) (d.timeFields w)
  if d.on Reg.CMT_CFG_RDVIEW then v else (v &&& ~~~(rwsMask w)) ||| (d.shadowWord w &&& rwsMask w)

/-- The current value of the word at `w`, below the grate window; reads of a reserved address return zero (R520). -/
def Dev.plainWord (d : Dev) (w : Nat) : Word :=
  if w < 0x40000 then d.ctlWord w
  else if 0x100000 ≤ w ∧ w < 0x200000 then d.flowMem ((w - 0x100000) / 4)
  else if 0x200000 ≤ w ∧ w < 0x300000 then Sparse.get 0 d.eng.store ((w - 0x200000) / 4)
  else if 0x320000 ≤ w ∧ w < 0x340000 then d.sapTable.getD ((w - 0x320000) / 4) 0
  else if 0x340000 ≤ w ∧ w < 0x350000 then d.stageWord ((w - 0x340000) / 4)
  else 0

/-- The word that a read at `a` shows: through the alias window, its target. -/
def Dev.target (d : Dev) (a : Nat) : Nat :=
  if a < 0x800000 then a
  else if d.on Reg.HIF_CFG_ATOM then (a - 0x800000) / 128 * 4
  else (a - 0x800000) % 0x400000

/-- A read through the alias window (R62). -/
def Dev.aliasRead (d : Dev) (a : Nat) : Word :=
  if d.on Reg.HIF_CFG_ATOM then
    let k := (a - 0x800000) / 4
    BitVec.ofNat 32 ((d.plainWord (k / 32 * 4)).toNat / 2 ^ (k % 32) % 2)
  else if a < 0xC00000 then BitVec.ofNat 32 ((d.plainWord ((a - 0x800000) / 4 * 4)).toNat % 65536)
  else BitVec.ofNat 32 ((d.plainWord ((a - 0xC00000) / 4 * 4)).toNat / 65536)

/-! ### Reads (R27, R29, R31, R62, R65) -/

/-- The first word of the value that the word at `w` belongs to, and the words that a read of it latches (R27): the values that R62
lists. PTP_GMIDn_LO and _HI, which R62 does not list, are two values (DESIGN CHOICE, log entry 125). -/
def latchOf (w : Nat) : Option (Nat × Nat) :=
  if 0x3040 ≤ w ∧ w < 0x3050 then some (0x3040, 3)
  else if 0x14020 ≤ w ∧ w < 0x14030 then some (0x14020, 3)
  else if 0x15040 ≤ w ∧ w < 0x15080 then some (w / 16 * 16, 3)
  else if 0x15400 ≤ w ∧ w < 0x15500 ∧ 4 ≤ w % 32 ∧ w % 32 < 16 then some (w / 32 * 32 + 4, 2)
  else if 0x19200 ≤ w ∧ w < 0x19500 ∧ 0x14 ≤ w % 64 ∧ w % 64 < 0x30 then some (w / 64 * 64 + 0x14, 6)
  else if 0x19600 ≤ w ∧ w < 0x19900 then some (w / 64 * 64, 15)
  else if 0x108000 ≤ w ∧ w < 0x10C000 then some (w / 64 * 64, 15)
  else none

/-- A read clears the RC bits that it returned as 1 (R31). In the slow domain they are those that the copy shows; the clear acts on
the copy at once and then lands, and bits that were set since the last refresh stay set (R65). -/
def Dev.readClear (d : Dev) (w : Nat) : Dev :=
  let m := maskOf (· == .rc) w
  if m = 0 then d
  else if slowWord w then
    let c := d.copyWord w
    let d := d.setWord w (d.word w &&& ~~~(m &&& c))
    { d with fab := { d.fab with
        copy := Sparse.put (resetWord w) d.fab.copy w (c &&& ~~~m), slowQ := d.fab.slowQ ++ [.clear w] } }
  else
    let d := if w = 0x305C then { d with evq := { d.evq with ovf := false } } else d
    d.setWord w (d.word w &&& ~~~m)

/-- A read by agent `h` of the word at `w` at its own address, with its side effects. -/
def Dev.ownRead (d : Dev) (h : Agent) (w : Nat) : Dev × Word :=
  let d := d.touch h false (blockOf w)
  if w = 0x7018 then d.rdDataRead
  else match latchOf w with
  | some (first, n) =>
    if w = first then
      let v := d.plainWord w
      let d := d.latchWords h (w + 4) ((List.range n).map fun i => d.plainWord (w + 4 * (i + 1)))
      if w = 0x3040 then ({ d with evq := d.evq.pop }, v)
      else if 0x15040 ≤ w ∧ w < 0x15080 ∧ h = .sup then
        let q := (w - 0x15040) / 16
        (d.setStampQ q { d.stampQ q with q := (d.stampQ q).q.tail }, v)
      else (d, v)
    else (d, Sparse.get 0 d.fab.latch (latchKey h w))
  | none =>
    let v := d.plainWord w
    (if w < 0x40000 then d.readClear w else d, v)

/-- The MSI-X table and the pending bit array (R520), which only PCI Express reaches. -/
def Dev.msixRead (d : Dev) (w : Nat) : Word :=
  if w < 0x300200 then d.msixWord ((w - 0x300000) / 4)
  else if w = 0x301000 then BitVec.ofNat 32 (d.intr.pba.foldl (fun m v => m + 2 ^ v) 0)
  else 0

/-- A read by agent `h` at address `a` (R520, R523). -/
def Dev.busRead (d : Dev) (h : Agent) (a : Nat) : Dev × Word :=
  let w := a / 4 * 4
  let d := if slowWord (d.target w) then d.slowSync else d
  let b := blockOf (d.target w)
  let d := if b = 10 then d.frameTurn else if b = 11 then d.macRun 0 else if b = 12 then d.macRun 1 else d
  if 0x800000 ≤ w then (d.touch h false 25, d.aliasRead w)
  else if 0x400000 ≤ w then (d.touch h false 25).windowRead (w - 0x400000)
  else if 0x300000 ≤ w ∧ w < 0x301008 then (d.touch h false 25, if h = .pcie then d.msixRead w else 0)
  else d.ownRead h w

/-- The data of a read command. -/
def Dev.setRdata (d : Dev) (ws : List Word) : Dev := { d with fab := { d.fab with rdata := ws } }

/-- A read command. -/
def Dev.readCmd (d : Dev) (h : Agent) (a : Nat) : Dev :=
  let r := d.busRead h a
  r.1.setRdata [r.2]

/-- RC_READ (R29, R31, R65). -/
def execRcRead (h : Agent) (addr : Addr) (s : State) : Host.Outcome State Fault Refusal := onDev (fun d => d.readCmd h addr) s

/-- LATCHED_READ (R27, R247, R313, R417). -/
def execLatchedRead (h : Agent) (addr : Addr) (s : State) : Host.Outcome State Fault Refusal := onDev (fun d => d.readCmd h addr) s

/-- EVQ_POP (R72, R73). -/
def execEvqPop (h : Agent) (s : State) : Host.Outcome State Fault Refusal := onDev (fun d => d.readCmd h 0x3040) s

/-! ### The counter snapshot (R64, R309) -/

/-- MACC_SNAP.SNAP: the counters of MAC0, MAC1, FLW and SCH into the holding bank. -/
def Dev.snap (d : Dev) : Dev :=
  let put := fun (d : Dev) (i a : Nat) => d.wr (Reg.MACC_BANK i) (d.word a).toNat
  let d := (List.range 64).foldl (fun d i => put (put d i (0x10400 + 4 * i)) (64 + i) (0x11400 + 4 * i)) d
  let d := (List.range 14).foldl (fun d i => put d (128 + i) (0xC040 + 4 * i)) d
  let d := (List.range 48).foldl (fun d i => put d (256 + i) (0x8400 + 4 * i)) d
  d.wr Reg.MACC_SNAPTICK_TICK d.schTick

/-- MACC_SNAP (R64). -/
def execMaccSnap (h : Agent) (s : State) : Host.Outcome State Fault Refusal :=
  onDev (fun d => d.hostCmd h Reg.MACC_SNAP_SNAP [] Dev.snap) s

/-- INT_EVQ_CFG.FLUSH (R74). -/
def Dev.flushGo (d : Dev) : Dev := { d with evq := { d.evq with q := [] } }

/-- FLUSH (R74). -/
def execFlush (h : Agent) (s : State) : Host.Outcome State Fault Refusal :=
  onDev (fun d => d.hostCmd h Reg.INT_EVQ_CFG_FLUSH [] Dev.flushGo) s

/-! ### Commands written as registers (R29) -/

/-- The command of the CMD field at bit `lo` of the control word `w`, whose written bits are `v`; `none` where the word has
no such field. Commands that act on the device alone. -/
def Dev.cmdDev (d : Dev) (w lo v : Nat) : Option Dev :=
  match w with
  | 0x1004 => some (d.strobe v)
  | 0x1024 => some d.captureGo
  | 0x3054 => some d.flushGo
  | 0x5010 => some d.clrHistGo
  | 0x600C => some (if lo = 0 then d.safeGo else d.hotResumeGo)
  | 0x8050 => some d.jobGo
  | 0x904C => some (if lo = 2 then d.reloadGo else d.retrainGo lo)
  | 0x9050 => some d.dlGo
  | 0xA00C => some (if lo = 0 then d.requestSwap else if lo = 1 then d.restoreCmd d.hrt.a.rail d.hrt.b.rail else d.clrSuspectGo)
  | 0xB00C =>
    some (if lo = 4 then d.startGo else if lo = 5 then d.releaseGo
      else (List.range 4).foldl (fun d i => if v / 2 ^ i % 2 = 1 then d.ackGo i else d) d)
  | 0xB020 => some d.kickGo
  | 0xC010 => some d.flowGo
  | 0x12000 => some d.snap
  | 0x1400C => some (if lo < 2 then d.rebaseGo lo else if lo < 4 then d.acceptGo (lo - 2) else d.clrrebGo (lo - 4))
  | 0x1600C => some (if lo = 0 then d.reanchorFree else d.switchNowGo)
  | 0x17010 => some d.clrSlots
  | 0x21000 => some d.ldGo
  | _ =>
    if w = 0x10080 ∨ w = 0x11080 then some (d.sfpGo ((w - 0x10080) / 0x1000))
    else if 0x15200 ≤ w ∧ w < 0x15400 then some (if lo = 0 then d.armGo ((w - 0x15200) / 32) else d.setTrig ((w - 0x15200) / 32) none)
    else if 0x17100 ≤ w ∧ w < 0x17180 then some (if lo = 0 then d.researchGo ((w - 0x17100) / 64) else d.realignGo ((w - 0x17100) / 64))
    else if 0x18200 ≤ w ∧ w < 0x18300 then some (d.alignGo ((w - 0x18200) / 64))
    else if 0x19200 ≤ w ∧ w < 0x19500 then
      let u := (w - 0x19200) / 64
      some (if u < 5 then d else d.restartGo u)
    else if 0x20000 ≤ w ∧ w < 0x40000 then
      let e := (w - 0x20000) / 0x2000
      some (if lo = 0 then d.retestGo e else d.wclrGo e)
    else none

/-- The command of a CMD field, those that concern fuses or flash included. -/
def runCmd (x : NV × Dev) (w lo v : Nat) : NV × Dev :=
  match w with
  | 0x40 => mbGo none x
  | 0x4010 => if lo = 0 then (x.1, x.2.wake 3) else commitVer x
  | 0x700C => (x.1, if lo = 0 then x.2.capture 0 else if lo = 1 then x.2.fetchGo x.1.dump else x.2.wr Reg.DUMP_STATUS_BUSY 0)
  | _ => match x.2.cmdDev w lo v with
    | some d => (x.1, d)
    | none => x

/-- The command of a CMD field as agent `h` writes it: on a stopped block it waits for the exit (R488). -/
def issueCmd (x : NV × Dev) (h : Agent) (w lo v : Nat) : NV × Dev :=
  if x.2.stopped (blockOf w) then (x.1, x.2.hold h ⟨w, lo, lo⟩) else runCmd x w lo v

/-! ### Register writes (R24 to R34, R49, R50) -/

/-- The bits of `data` under `m`, the others from `w`. -/
def merge (w data m : Word) : Word := (w &&& ~~~m) ||| (data &&& m)

/-- The bits of `m` of the RWL or WO1 word at `w` take `data`; a covered change makes a running scan dirty (R55). -/
def Dev.loadBits (d : Dev) (w : Nat) (data m : Word) : Dev :=
  let v := merge (d.word w) data m
  if v = d.word w then d else if unscanned w then d.setWord w v else (d.setWord w v).dirty

/-- Bit 23 of LOCK_BLK is reserved. -/
def writable (w : Nat) : Word := if w = 0x2000 then ~~~(0x800000 : Word) else ~~~(0 : Word)

/-- A write by `h` of the bits `m` of the field of row `r` in the control word `w` (R29, R34); `coll`: a hardware update of
an HRW field falls in the same cycle. -/
def Dev.fieldWrite (d : Dev) (h : Agent) (w : Nat) (r : Row) (data m : Word) (coll : Bool) : Dev :=
  let m := r.fld.mask &&& m &&& writable w
  match r.ty with
  | .rws => d.setShadow w (merge (d.shadowWord w) data m)
  | .rwl => d.loadBits w data m
  | .wo1 =>
    let d := d.loadBits w data m
    { d with fab := { d.fab with wo1 := d.fab.wo1 ++ [32 * w + r.fld.lo] } }
  | .hrw =>
    if coll then d.flag Reg.HIF_STATUS_WRLOST
    else if w = 0x20 then d.ownerWrite h (data.toNat % 2)
    else d.setWord w (merge (d.word w) data m)
  | .cnt =>
    if w = 0x3058 then { d with evq := { d.evq with lostCount := (merge (BitVec.ofNat 32 d.evq.lostCount) data m).toNat } }
    else d.setWord w (merge (d.word w) data m)
  | .ro | .rc | .cmd => d

/-- The rows of the control word at `w` that a write of the bits `m` touches. -/
def touched (w : Nat) (m : Word) : List Row := (rowsAt w).filter fun r => r.fld.mask &&& m != 0

/-- A write of the bits `m` to the control word at `w` takes effect: the fields first, then the commands in ascending
order of bits (R28, R29). -/
def landWrite (x : NV × Dev) (h : Agent) (w : Nat) (data m : Word) (coll : Bool) : NV × Dev :=
  let rs := touched w m
  let d := rs.foldl (fun d r => d.fieldWrite h w r data m coll) x.2
  let d := if 0x1010 ≤ w ∧ w < 0x101C then d.dropMoved else d
  (rs.filter fun r => r.ty == .cmd).foldl (fun x r =>
    let v := r.fld.get (data &&& m)
    if v = 0 then x else issueCmd x h w r.fld.lo v) (x.1, d)

/-- Writes of the slow domain that wait (R66, R528). -/
def Dev.slowWrites (d : Dev) : Nat := (d.fab.slowQ.filter SlowOp.isWrite).length

/-- The oldest entry of the slow-domain queue lands (R65, R66), and the copy shows it: a clear has acted on the copy at once. -/
def landSlow (x : NV × Dev) : NV × Dev :=
  match x.2.fab.slowQ with
  | [] => x
  | o :: t =>
    let d := { x.2 with fab := { x.2.fab with slowQ := t } }
    match o with
    | .write h w m data =>
      let r := landWrite (x.1, d) h w data m false
      (r.1, r.2.slowEdge.powerLeave 8)
    | .clear _ => (x.1, d)

/-- A write that finds 16 slow-domain writes pending waits at the host link until an entry is free (R66). -/
def landUntil : Nat → NV × Dev → NV × Dev
  | 0, x => x
  | n + 1, x => if x.2.slowWrites < 16 then x else landUntil n (landSlow x)

/-- A write by `h` of the slow-domain word at `w` joins the queue (R66); the words of a quad-SPI WRITE wait in the target (R528). -/
def slowPut (x : NV × Dev) (h : Agent) (w : Nat) (data m : Word) : NV × Dev :=
  let x := if h = .spi then x else landUntil x.2.fab.slowQ.length x
  (x.1, { x.2 with fab := { x.2.fab with slowQ := x.2.fab.slowQ ++ [.write h w m data] } })

/-- A write by agent `h` of the bits `m` of the control word at `w` (R26, R49, R50, R66, R530). -/
def ctlWrite (x : NV × Dev) (h : Agent) (w : Nat) (data m : Word) (coll : Bool) : NV × Dev :=
  let rs := touched w m
  if rs.isEmpty then x
  else if w = 0x24 then
    let v := (data &&& m).toNat
    (x.1, x.2.ownReqWrite h (v % 2 == 1) (v / 2 % 2 == 1))
  else
    let d := x.2.touch h true (blockOf w)
    let again := rs.any fun r => r.ty == .wo1 && d.fab.wo1.contains (32 * w + r.fld.lo)
    match d.violation h w (rs.map (·.ty)) again with
    | some k => (x.1, d.lockViol h w k)
    | none =>
      if slowWord w then slowPut (x.1, d) h w data m
      else landWrite (x.1, d) h w data m coll

/-- SLOW_WRITE_LAND (R65, R66). -/
def execSlowWriteLand (s : State) : Host.Outcome State Fault Refusal := onBoth landSlow s

/-- The row of a slow-domain CMD field is a write of it by `h` (R29, R66): `w` its word, `b` its bit. -/
def slowCmd (h : Agent) (w b : Nat) (s : State) : Host.Outcome State Fault Refusal :=
  onBoth (fun x => ctlWrite x h w (BitVec.ofNat 32 (2 ^ b)) (BitVec.ofNat 32 (2 ^ b)) false) s

/-- SAFE, HOT_RESUME (R485), WAKE (R488), COMMITVER (R478), CLRHIST (R494): the command joins the slow-domain queue and is executed when
its write lands. -/
def execSafe (h : Agent) (s : State) : Host.Outcome State Fault Refusal := slowCmd h 0x600C 0 s
def execHotResume (h : Agent) (s : State) : Host.Outcome State Fault Refusal := slowCmd h 0x600C 1 s
def execWake (h : Agent) (s : State) : Host.Outcome State Fault Refusal := slowCmd h 0x4010 0 s
def execCommitver (h : Agent) (s : State) : Host.Outcome State Fault Refusal := slowCmd h 0x4010 1 s
def execClrhist (h : Agent) (s : State) : Host.Outcome State Fault Refusal := slowCmd h 0x5010 0 s

/-! ### Writes to the memories of the map (R520, R523) -/

/-- The bits of the bytes that `be` enables. -/
def beMask (be : BitVec 4) : Word :=
  (if be[0] then 0xFF else 0) ||| (if be[1] then 0xFF00 else 0) ||| (if be[2] then 0xFF0000 else 0) ||| (if be[3] then 0xFF000000 else 0)

/-- Word `i` of flow table memory takes the bits `m` of `data`, where software may write it (R231, R247, R248). -/
def Dev.flowMemWrite (d : Dev) (i : Nat) (data m : Word) : Dev :=
  let v := merge (d.flowMem i) data m
  if i < 8192 ∧ 8 ≤ i % 16 then
    if 4096 ≤ i ∧ 12 ≤ i % 16 then
      let f := (i - 4096) / 16
      d.setTxf f { d.txf f with cnt := (d.txf f).cnt.set (i % 16 - 12) v.toNat }
    else d
  else if 8192 ≤ i ∧ i < 12288 then { d with flw := { d.flw with stats := Sparse.put 0 d.flw.stats (i - 8192) v } }
  else if 12288 ≤ i ∧ i < 16384 then d
  else if i < 40960 then { d with flw := { d.flw with mem := Sparse.put 0 d.flw.mem i v } }
  else d

/-- Word `i` of the staging buffer takes the bits `m` of `data`. -/
def Dev.stageWrite (d : Dev) (i : Nat) (data m : Word) : Dev :=
  let v := (merge (d.stageWord i) data m).toNat
  { d with hif := { d.hif with stage := Sparse.putList 0xFF d.hif.stage (4 * i) ((leBytes v).map (BitVec.ofNat 8 ·)) } }

/-- A write of the bits `m` of the word at `w` outside the control blocks, below the grate window. -/
def Dev.plainWrite (d : Dev) (h : Agent) (w : Nat) (data m : Word) : Dev :=
  if 0x100000 ≤ w ∧ w < 0x128000 then d.memWrite h w fun d => d.flowMemWrite ((w - 0x100000) / 4) data m
  else if 0x200000 ≤ w ∧ w < 0x300000 then
    d.memWrite h w fun d =>
      let i := (w - 0x200000) / 4
      { d with eng := { d.eng with store := Sparse.put 0 d.eng.store i (merge (Sparse.get 0 d.eng.store i) data m) } }
  else if 0x340000 ≤ w ∧ w < 0x350000 then d.memWrite h w fun d => d.stageWrite ((w - 0x340000) / 4) data m
  else d

/-- A write to the MSI-X table (R520); the words are stored where they differ from their reset values. -/
def Dev.msixWrite (d : Dev) (w : Nat) (data m : Word) : Dev :=
  let i := (w - 0x300000) / 4
  let t := Sparse.put (if i % 4 = 3 then 1 else 0) d.intr.table i (merge (d.msixWord i) data m)
  { d with intr := { d.intr with table := t } }

/-- A partial write that is ignored (R24, R63). -/
def partialWrite (x : NV × Dev) : NV × Dev := (x.1, x.2.flag Reg.CMT_STATUS_PARTIAL)

/-- A write of the bits `m` of the word at offset `w` through the alias window (R61, R63). A violation captures the address of the
target word, which R50 does not state (DESIGN CHOICE, log entry 124). -/
def aliasPut (x : NV × Dev) (h : Agent) (w : Nat) (data m : Word) (coll : Bool) : NV × Dev :=
  if w < 0x40000 then ctlWrite x h w data m coll else if w < 0x300000 ∨ 0x340000 ≤ w then (x.1, x.2.plainWrite h w data m) else x

/-- A write into the alias window at `a`, by the view in force (R59 to R63, R536). -/
def aliasWrite (x : NV × Dev) (h : Agent) (a : Nat) (data : Word) (be : BitVec 4) (coll : Bool) : NV × Dev :=
  if be ≠ 0xF then partialWrite x
  else if x.2.on Reg.HIF_CFG_ATOM then
    let k := (a - 0x800000) / 4
    let m : Word := 1 <<< (k % 32)
    aliasPut x h (k / 32 * 4) (if data[0] then m else 0) m coll
  else if a < 0xC00000 then aliasPut x h ((a - 0x800000) / 4 * 4) (data &&& 0xFFFF) (data >>> 16) coll
  else aliasPut x h ((a - 0xC00000) / 4 * 4) (data <<< 16) (data &&& 0xFFFF0000) coll

/-- A write by agent `h` at address `a` (R24, R520, R523). -/
def busWrite (x : NV × Dev) (h : Agent) (a : Nat) (data : Word) (be : BitVec 4) (coll : Bool) : NV × Dev :=
  let w := a / 4 * 4
  if 0x800000 ≤ w then aliasWrite x h w data be coll
  else if 0x400000 ≤ w then
    if be ≠ 0xF then partialWrite x else (x.1, x.2.memWrite h w fun d => d.windowWrite (w - 0x400000) data)
  else if 0x300000 ≤ w ∧ w < 0x300200 then
    (x.1, if h = .pcie then x.2.memWrite h w fun d => d.msixWrite w data (beMask be) else x.2)
  else if w < 0x200000 then
    if be ≠ 0xF then partialWrite x
    else if w < 0x40000 then ctlWrite x h w data (beMask be) coll
    else (x.1, x.2.plainWrite h w data (beMask be))
  else (x.1, x.2.plainWrite h w data (beMask be))

/-- REGISTER_WRITE (R24 to R34, R49, R50, R66, R231, R520, R529). -/
def execRegisterWrite (h : Agent) (addr : Addr) (data : Word) (be : BitVec 4) (coll : Bool) (s : State) :
    Host.Outcome State Fault Refusal := onBoth (fun x => busWrite x h addr data be coll) s

/-- A write of an alias row acts at an address of the window only. -/
def aliasRow (h : Agent) (addr : Addr) (data : Word) (be : BitVec 4) (coll : Bool) (s : State) : Host.Outcome State Fault Refusal :=
  onBoth (fun x => if 0x800000 ≤ addr.val then aliasWrite x h (addr.val / 4 * 4) data be coll else x) s

/-- MASKED_WRITE (R59, R61, R63). -/
def execMaskedWrite (h : Agent) (addr : Addr) (data : Word) (be : BitVec 4) (coll : Bool) (s : State) : Host.Outcome State Fault Refusal :=
  aliasRow h addr data be coll s

/-- BIT_ALIAS_WRITE (R60, R61, R63). -/
def execBitAliasWrite (h : Agent) (addr : Addr) (data : Word) (be : BitVec 4) (coll : Bool) (s : State) : Host.Outcome State Fault Refusal :=
  aliasRow h addr data be coll s

/-! ### The quad-SPI target (R526 to R528) -/

/-- A quad-SPI error or a discarded word (R526; HIF_SPIERRCNT counts both). -/
def Dev.spiError (d : Dev) : Dev :=
  let d := d.count Reg.HIF_SPIERRCNT_COUNT Reg.HIF_STATUS_CNT_HALF
  { d.flag Reg.HIF_STATUS_SPIERR with hif := { d.hif with spiErr := true } }

/-- One word of a WRITE: it is discarded when both queues are full and it is for the slow domain. -/
def spiWord (x : NV × Dev) (a : Nat) (v : Word) (coll : Bool) : NV × Dev :=
  if decide (a < 0x40000) && slowWord a && decide (32 ≤ x.2.slowWrites) then (x.1, x.2.spiError)
  else
    let r := busWrite x .spi (a % 0x1000000) v 0xF coll
    (r.1, r.2.cycle)

/-- WRITE (R526, R528). -/
def execWrite (addr : Addr) (words : List Word) (cut : Bool) (coll : List Nat) (s : State) : Host.Outcome State Fault Refusal :=
  onBoth (fun x =>
    if addr.val % 4 ≠ 0 then (x.1, x.2.spiError)
    else
      let r := words.zipIdx.foldl (fun x w => spiWord x (addr.val + 4 * w.2) w.1 (coll.contains w.2)) x
      if cut then (r.1, r.2.spiError) else r) s

/-- READ (R526, R527): one word of the control blocks, a burst elsewhere. -/
def execRead (addr : Addr) (count : Nat) (late : Bool) (s : State) : Host.Outcome State Fault Refusal :=
  onDev (fun d =>
    let a := addr.val
    let ones : Word := 0xFFFFFFFF
    if a % 4 ≠ 0 then d.spiError
    else if a < 0x40000 then
      if count = 0 then d.setRdata []
      else
        let r := d.busRead .spi a
        r.1.setRdata (r.2 :: List.replicate (count - 1) ones)
    else
      let slow := late && decide (d.rd Reg.HIF_CFG_DUMMY < 24)
      let r := (List.range count).foldl (fun (r : Dev × List Word) i =>
        let b := (a + 4 * i) % 0x1000000
        if slow && decide (0x400000 ≤ b) && decide (b < 0x800000) then (r.1.flag Reg.HIF_STATUS_SPILATE, r.2 ++ [ones])
        else
          let q := r.1.busRead .spi b
          (q.1, r.2 ++ [q.2])) (d, [])
      r.1.setRdata r.2) s

/-- STATUS (R526). -/
def execStatus (s : State) : Host.Outcome State Fault Refusal :=
  onDev (fun d =>
    let v := bit (decide (16 < d.slowWrites)) + 2 * bit d.hif.spiErr + 4 * d.rd Reg.HIF_OWN_OWNER
    { d with hif := { d.hif with spiErr := false } }.setRdata [BitVec.ofNat 32 v]) s

end Sys2Proof.Machine
end

