-- ==== Sys2Proof/Machine/EngineAudio.lean ====
section
/-! DEFINITION. The fused audio operations (R182 to R187). -/
namespace Sys2Proof.Machine

/-- The form of a fused operation: its effect reads the coefficient bank of the running job. -/
def audioOp (i : Instr) (e : Eng) (f : (Nat → Nat → Int) → EngS → EngS) (cix : BitVec 10) (lane : Bool) (s : State) :
    Host.Outcome State Fault Refusal :=
  devOp i e (fun D => D.modEn e (f fun c l => (D.coef e cix lane c l).toInt)) s

/-- The lanes of `g` that predicate `p` enables, folded by `f` from `g`; `f` reads the old registers from `g`. -/
def EngS.eachLane (g : EngS) (p : Nat) (f : EngS → Nat → EngS) : EngS :=
  lanes.foldl (fun g' i => if g.lane p i then f g' i else g') g

/-- BIQ (R183); the state is x1, x2, y1, y2 in v(d+1) to v(d+4). -/
def execBiq (e : Eng) (d src : VReg) (cix : BitVec 10) (lane : Bool) (p : PReg) (s : State) : Host.Outcome State Fault Refusal :=
  orUndefined (decide (d.val ≤ 27)) <| audioOp (.biq e d src cix lane p) e (fun co g =>
    g.eachLane p fun g' i =>
      let x := g.getV src i
      let x1 := g.getV (d + 1) i
      let x2 := g.getV (d + 2) i
      let y1 := g.getV (d + 3) i
      let y2 := g.getV (d + 4) i
      let acc := co 0 i * x.toInt + co 1 i * x1.toInt + co 2 i * x2.toInt - co 3 i * y1.toInt - co 4 i * y2.toInt
      let (y, f) := sat31 (rneShift acc 30)
      (((((g'.setV (d + 2) i x1).setV (d + 1) i x).setV (d + 4) i y1).setV (d + 3) i y).setV d i y).orFlags f)
    cix lane s

/-- The shared effect of GRAMP and GRAMPV (R184): the gain register moves toward the target and is applied. -/
def EngS.gramp (g : EngS) (d src p : Nat) (target step : Nat → Int) : EngS :=
  g.eachLane p fun g' i =>
    let gn := grampGain (g.getV (d + 1) i).toInt (target i) (step i)
    let (y, f) := sat31 (rneShift ((g.getV src i).toInt * gn) 31)
    ((g'.setV (d + 1) i (BitVec.ofInt 32 gn)).setV d i y).orFlags f

/-- GRAMP (R184). -/
def execGramp (e : Eng) (d src : VReg) (cix : BitVec 10) (lane : Bool) (p : PReg) (s : State) : Host.Outcome State Fault Refusal :=
  orUndefined (decide (d.val ≤ 30)) <| audioOp (.gramp e d src cix lane p) e
    (fun co g => g.gramp d src p (co 0) (co 1)) cix lane s

/-- GRAMPV (R184): the target is v(d+2). -/
def execGrampv (e : Eng) (d src : VReg) (cix : BitVec 10) (lane : Bool) (p : PReg) (s : State) : Host.Outcome State Fault Refusal :=
  orUndefined (decide (d.val ≤ 29)) <| audioOp (.grampv e d src cix lane p) e
    (fun co g => g.gramp d src p (fun i => (g.getV (d + 2) i).toInt) (co 1)) cix lane s

/-- ENVP (R185). -/
def execEnvp (e : Eng) (d src : VReg) (cix : BitVec 10) (lane : Bool) (p : PReg) (s : State) : Host.Outcome State Fault Refusal :=
  audioOp (.envp e d src cix lane p) e (fun co g =>
    g.vmap p d fun i =>
      envOp (min ((g.getV src i).toInt.natAbs : Int) (2 ^ 31 - 1)) (g.getV d i).toInt (co 0 i) (co 1 i)) cix lane s

/-- ENVS (R185). -/
def execEnvs (e : Eng) (d src : VReg) (cix : BitVec 10) (lane : Bool) (p : PReg) (s : State) : Host.Outcome State Fault Refusal :=
  audioOp (.envs e d src cix lane p) e (fun co g =>
    g.vmap p d fun i =>
      envOp (rneShift ((g.getV src i).toInt * (g.getV src i).toInt) 31) (g.getV d i).toInt (co 0 i) (co 1 i)) cix lane s

/-- LIMG (R186). -/
def execLimg (e : Eng) (d src : VReg) (cix : BitVec 10) (lane : Bool) (p : PReg) (s : State) : Host.Outcome State Fault Refusal :=
  audioOp (.limg e d src cix lane p) e (fun co g =>
    g.vmap p d fun i => (limgOp (g.getV src i).toInt (co 0 i), 0)) cix lane s

/-- MIXA (R187). -/
def execMixa (e : Eng) (d : WReg) (src : VReg) (cix : BitVec 10) (lane : Bool) (p : PReg) (s : State) : Host.Outcome State Fault Refusal :=
  audioOp (.mixa e d src cix lane p) e (fun co g =>
    g.wmap p d fun i => sat72 ((g.getW d i).toInt + (g.getV src i).toInt * co 0 i)) cix lane s

/-- MIXS (R187). -/
def execMixs (e : Eng) (d : WReg) (src : VReg) (cix : BitVec 10) (lane : Bool) (p : PReg) (s : State) : Host.Outcome State Fault Refusal :=
  audioOp (.mixs e d src cix lane p) e (fun co g =>
    g.wmap p d fun i => sat72 ((g.getW d i).toInt - (g.getV src i).toInt * co 0 i)) cix lane s

/-- MIXL (R187). -/
def execMixl (e : Eng) (d : WReg) (src : VReg) (cix : BitVec 10) (lane : Bool) (p : PReg) (s : State) : Host.Outcome State Fault Refusal :=
  audioOp (.mixl e d src cix lane p) e (fun co g =>
    g.wmap p d fun i => (BitVec.ofInt 72 ((g.getV src i).toInt * co 0 i), 0)) cix lane s

end Sys2Proof.Machine
end

