-- ==== Sys2Proof/Machine/EngineFloat.lean ====
section
/-! DEFINITION. The binary32 instructions (R127, R174). -/
namespace Sys2Proof.Machine

/-- FADD (R174). -/
def execFadd (e : Eng) (d a b : VReg) (p : PReg) (s : State) : Host.Outcome State Fault Refusal :=
  engOp (.fadd e d a b p) e (fun g => g.vmap p d fun i => faddOp (g.getV a i) (g.getV b i)) s

/-- FSUB (R174). -/
def execFsub (e : Eng) (d a b : VReg) (p : PReg) (s : State) : Host.Outcome State Fault Refusal :=
  engOp (.fsub e d a b p) e (fun g => g.vmap p d fun i => fsubOp (g.getV a i) (g.getV b i)) s

/-- FMUL (R174). -/
def execFmul (e : Eng) (d a b : VReg) (p : PReg) (s : State) : Host.Outcome State Fault Refusal :=
  engOp (.fmul e d a b p) e (fun g => g.vmap p d fun i => fmulOp (g.getV a i) (g.getV b i)) s

/-- FDIV (R174). -/
def execFdiv (e : Eng) (d a b : VReg) (p : PReg) (s : State) : Host.Outcome State Fault Refusal :=
  engOp (.fdiv e d a b p) e (fun g => g.vmap p d fun i => fdivOp (g.getV a i) (g.getV b i)) s

/-- FMIN (R174). -/
def execFmin (e : Eng) (d a b : VReg) (p : PReg) (s : State) : Host.Outcome State Fault Refusal :=
  engOp (.fmin e d a b p) e (fun g => g.vmap p d fun i => fminmaxOp false (g.getV a i) (g.getV b i)) s

/-- FMAX (R174). -/
def execFmax (e : Eng) (d a b : VReg) (p : PReg) (s : State) : Host.Outcome State Fault Refusal :=
  engOp (.fmax e d a b p) e (fun g => g.vmap p d fun i => fminmaxOp true (g.getV a i) (g.getV b i)) s

/-- FABS (R174). -/
def execFabs (e : Eng) (d a : VReg) (p : PReg) (s : State) : Host.Outcome State Fault Refusal :=
  engOp (.fabs e d a p) e (fun g => g.vmap p d fun i => fabsOp (g.getV a i)) s

/-- FNEG (R174). -/
def execFneg (e : Eng) (d a : VReg) (p : PReg) (s : State) : Host.Outcome State Fault Refusal :=
  engOp (.fneg e d a p) e (fun g => g.vmap p d fun i => fnegOp (g.getV a i)) s

/-- FSQRT (R174). -/
def execFsqrt (e : Eng) (d a : VReg) (p : PReg) (s : State) : Host.Outcome State Fault Refusal :=
  engOp (.fsqrt e d a p) e (fun g => g.vmap p d fun i => fsqrtOp (g.getV a i)) s

/-- FTOQ (R174). -/
def execFtoq (e : Eng) (d a : VReg) (p : PReg) (s : State) : Host.Outcome State Fault Refusal :=
  engOp (.ftoq e d a p) e (fun g => g.vmap p d fun i => ftoqOp (g.getV a i)) s

/-- FTOI (R174). -/
def execFtoi (e : Eng) (d a : VReg) (p : PReg) (s : State) : Host.Outcome State Fault Refusal :=
  engOp (.ftoi e d a p) e (fun g => g.vmap p d fun i => ftoiOp (g.getV a i)) s

/-- FMA (R174): one rounding. -/
def execFma (e : Eng) (d a b : VReg) (p : PReg) (s : State) : Host.Outcome State Fault Refusal :=
  engOp (.fma e d a b p) e (fun g => g.vmap p d fun i => fmaOp false (g.getV d i) (g.getV a i) (g.getV b i)) s

/-- FMS (R174): one rounding. -/
def execFms (e : Eng) (d a b : VReg) (p : PReg) (s : State) : Host.Outcome State Fault Refusal :=
  engOp (.fms e d a b p) e (fun g => g.vmap p d fun i => fmaOp true (g.getV d i) (g.getV a i) (g.getV b i)) s

/-- QTOF (R174). -/
def execQtof (e : Eng) (d a : VReg) (p : PReg) (s : State) : Host.Outcome State Fault Refusal :=
  engOp (.qtof e d a p) e (fun g => g.vmap p d fun i => fofInt (g.getV a i).toInt (-31)) s

/-- ITOF (R174). -/
def execItof (e : Eng) (d a : VReg) (p : PReg) (s : State) : Host.Outcome State Fault Refusal :=
  engOp (.itof e d a p) e (fun g => g.vmap p d fun i => fofInt (g.getV a i).toInt 0) s


end Sys2Proof.Machine
end

