-- ==== Sys2Proof/Machine/EngineMem.lean ====
section
/-! DEFINITION. The loads and stores (R175 to R177). -/
namespace Sys2Proof.Machine

/-- A vector load of the lanes `ls`, each with its effective address and the lane of that grate word it takes. -/
def Dev.vload (d : Dev) (e d' : Nat) (ls : List (Nat × Word × Nat)) : Dev :=
  let g := d.en e
  let h := e / 8
  let j := d.jobF g.job
  if ls.isEmpty then d else
  match d.resolveAll h j false (ls.map fun l => (l.1, l.2.1)) with
  | .error (k, ea) => (d.modEn e fun g => ls.foldl (fun g l => g.setV d' l.1 0) g).accViol e k ea
  | .ok gs =>
    let vals := (gs.zip ls).map fun x => (x.1.1, d.loadLane e x.1.2 x.2.2.2)
    d.modEn e fun g => vals.foldl (fun g v => g.setV d' v.1 v.2) g

/-- A vector store of the lanes `ls`: lane, effective address, lane of the grate word. -/
def Dev.vstore (d : Dev) (e v : Nat) (ls : List (Nat × Word × Nat)) : Dev :=
  let g := d.en e
  let h := e / 8
  let j := d.jobF g.job
  if ls.isEmpty then d else
  match d.resolveAll h j true (ls.map fun l => (l.1, l.2.1)) with
  | .error (k, ea) => d.accViol e k ea
  | .ok gs => (gs.zip ls).foldl (fun d x => d.storeLane e x.1.2 x.2.2.2 (g.getV v x.1.1)) d

/-- The lanes of a tile-shaped access. -/
def EngS.tileLanes (g : EngS) (a : Nat) (off : BitVec 10) (p : Nat) : List (Nat × Word × Nat) :=
  (g.enabled p).map fun i => (i, effAddr (g.getA a) off 0, i)

/-- The lanes of a channel-shaped access: lane K mod 8 of the grate word at EA + 2i + K div 8 (R175). -/
def EngS.chanLanes (g : EngS) (a : Nat) (off : BitVec 10) (k p : Nat) : List (Nat × Word × Nat) :=
  (g.enabled p).map fun i => (i, effAddr (g.getA a) off (2 * i + k / 8), k % 8)

/-- LDT (R175). -/
def execLdt (e : Eng) (d : VReg) (a : AReg) (off : BitVec 10) (p : PReg) (s : State) : Host.Outcome State Fault Refusal :=
  devOp (.ldt e d a off p) e (fun D => D.vload e d ((D.en e).tileLanes a off p)) s

/-- LDC (R175, R177). -/
def execLdc (e : Eng) (d : VReg) (a : AReg) (off : BitVec 10) (k : Fin 12) (p : PReg) (s : State) : Host.Outcome State Fault Refusal :=
  devOp (.ldc e d a off k p) e (fun D => D.vload e d ((D.en e).chanLanes a off k p)) s

/-- LDS (R175). -/
def execLds (e : Eng) (d : SReg) (a : AReg) (off : BitVec 10) (k : Lane) (s : State) : Host.Outcome State Fault Refusal :=
  devOp (.lds e d a off k) e (fun D =>
    let g := D.en e
    let j := D.jobF g.job
    let ea := effAddr (g.getA a) off 0
    match D.resolve (e / 8) j false ea with
    | .error kd => (D.modEn e fun g => g.setS d 0).accViol e kd ea
    | .ok w => D.modEn e fun g => g.setS d (D.loadLane e w k)) s

/-- STT (R175). -/
def execStt (e : Eng) (src : VReg) (a : AReg) (off : BitVec 10) (p : PReg) (s : State) : Host.Outcome State Fault Refusal :=
  devOp (.stt e src a off p) e (fun D => D.vstore e src ((D.en e).tileLanes a off p)) s

/-- STC (R175, R177). -/
def execStc (e : Eng) (src : VReg) (a : AReg) (off : BitVec 10) (k : Fin 12) (p : PReg) (s : State) : Host.Outcome State Fault Refusal :=
  devOp (.stc e src a off k p) e (fun D => D.vstore e src ((D.en e).chanLanes a off k p)) s

/-- STS (R175). -/
def execSts (e : Eng) (src : SReg) (a : AReg) (off : BitVec 10) (k : Lane) (s : State) : Host.Outcome State Fault Refusal :=
  devOp (.sts e src a off k) e (fun D =>
    let g := D.en e
    let ea := effAddr (g.getA a) off 0
    match D.resolve (e / 8) (D.jobF g.job) true ea with
    | .error kd => D.accViol e kd ea
    | .ok w => D.storeLane e w k (g.getS src)) s

end Sys2Proof.Machine
end

