-- ==== Sys2Proof/Machine/EngineScalar.lean ====
section
/-! DEFINITION. The scalar, address and predicate instructions (R171). -/
namespace Sys2Proof.Machine

/-- An address register with its position bits moved by `x`, modulo 2^30; the kind bits are kept (R171). -/
def movePos (a x : Word) : Word := (a &&& 0xC0000000) ||| ((a + x) &&& 0x3FFFFFFF)

/-- SADD (R171). -/
def execSadd (e : Eng) (d a b : SReg) (s : State) : Host.Outcome State Fault Refusal :=
  engOp (.sadd e d a b) e (fun g => g.setS d (g.getS a + g.getS b)) s

/-- SSUB (R171). -/
def execSsub (e : Eng) (d a b : SReg) (s : State) : Host.Outcome State Fault Refusal :=
  engOp (.ssub e d a b) e (fun g => g.setS d (g.getS a - g.getS b)) s

/-- SAND (R171). -/
def execSand (e : Eng) (d a b : SReg) (s : State) : Host.Outcome State Fault Refusal :=
  engOp (.sand e d a b) e (fun g => g.setS d (g.getS a &&& g.getS b)) s

/-- SOR (R171). -/
def execSor (e : Eng) (d a b : SReg) (s : State) : Host.Outcome State Fault Refusal :=
  engOp (.sor e d a b) e (fun g => g.setS d (g.getS a ||| g.getS b)) s

/-- SXOR (R171). -/
def execSxor (e : Eng) (d a b : SReg) (s : State) : Host.Outcome State Fault Refusal :=
  engOp (.sxor e d a b) e (fun g => g.setS d (g.getS a ^^^ g.getS b)) s

/-- SSHL (R171): by sb[4:0]. -/
def execSshl (e : Eng) (d a b : SReg) (s : State) : Host.Outcome State Fault Refusal :=
  engOp (.sshl e d a b) e (fun g => g.setS d (g.getS a <<< ((g.getS b).toNat % 32))) s

/-- SSHR (R171): arithmetic, by sb[4:0]. -/
def execSshr (e : Eng) (d a b : SReg) (s : State) : Host.Outcome State Fault Refusal :=
  engOp (.sshr e d a b) e (fun g => g.setS d ((g.getS a).sshiftRight ((g.getS b).toNat % 32))) s

/-- SSHRL (R171): logical, by sb[4:0]. -/
def execSshrl (e : Eng) (d a b : SReg) (s : State) : Host.Outcome State Fault Refusal :=
  engOp (.sshrl e d a b) e (fun g => g.setS d (g.getS a >>> ((g.getS b).toNat % 32))) s

/-- SMUL (R171): the low 32 bits. -/
def execSmul (e : Eng) (d a b : SReg) (s : State) : Host.Outcome State Fault Refusal :=
  engOp (.smul e d a b) e (fun g => g.setS d (g.getS a * g.getS b)) s

/-- SMIN (R171): signed. -/
def execSmin (e : Eng) (d a b : SReg) (s : State) : Host.Outcome State Fault Refusal :=
  engOp (.smin e d a b) e (fun g => g.setS d (if (g.getS a).slt (g.getS b) then g.getS a else g.getS b)) s

/-- SMAX (R171): signed. -/
def execSmax (e : Eng) (d a b : SReg) (s : State) : Host.Outcome State Fault Refusal :=
  engOp (.smax e d a b) e (fun g => g.setS d (if (g.getS a).slt (g.getS b) then g.getS b else g.getS a)) s

/-- SMINU (R171): unsigned. -/
def execSminu (e : Eng) (d a b : SReg) (s : State) : Host.Outcome State Fault Refusal :=
  engOp (.sminu e d a b) e (fun g => g.setS d (if (g.getS a).ult (g.getS b) then g.getS a else g.getS b)) s

/-- SMAXU (R171): unsigned. -/
def execSmaxu (e : Eng) (d a b : SReg) (s : State) : Host.Outcome State Fault Refusal :=
  engOp (.smaxu e d a b) e (fun g => g.setS d (if (g.getS a).ult (g.getS b) then g.getS b else g.getS a)) s

/-- AADDS (R171). -/
def execAadds (e : Eng) (d a : AReg) (b : SReg) (s : State) : Host.Outcome State Fault Refusal :=
  engOp (.aadds e d a b) e (fun g => g.setA d (movePos (g.getA a) (g.getS b))) s

/-- SADDI (R171). -/
def execSaddi (e : Eng) (d a : SReg) (imm : BitVec 12) (s : State) : Host.Outcome State Fault Refusal :=
  engOp (.saddi e d a imm) e (fun g => g.setS d (g.getS a + imm.signExtend 32)) s

/-- SANDI (R171). -/
def execSandi (e : Eng) (d a : SReg) (imm : BitVec 12) (s : State) : Host.Outcome State Fault Refusal :=
  engOp (.sandi e d a imm) e (fun g => g.setS d (g.getS a &&& imm.zeroExtend 32)) s

/-- SORI (R171). -/
def execSori (e : Eng) (d a : SReg) (imm : BitVec 12) (s : State) : Host.Outcome State Fault Refusal :=
  engOp (.sori e d a imm) e (fun g => g.setS d (g.getS a ||| imm.zeroExtend 32)) s

/-- SSHI (R171). -/
def execSshi (e : Eng) (d a : SReg) (right : Bool) (sh : Fin 32) (s : State) : Host.Outcome State Fault Refusal :=
  engOp (.sshi e d a right sh) e (fun g => g.setS d (if right then (g.getS a).sshiftRight sh else g.getS a <<< sh.val)) s

/-- SLUI (R171). -/
def execSlui (e : Eng) (d : SReg) (imm : BitVec 20) (s : State) : Host.Outcome State Fault Refusal :=
  engOp (.slui e d imm) e (fun g => g.setS d (imm.zeroExtend 32 <<< 12)) s

/-- SLI (R171). -/
def execSli (e : Eng) (d : SReg) (imm : BitVec 20) (s : State) : Host.Outcome State Fault Refusal :=
  engOp (.sli e d imm) e (fun g => g.setS d (imm.signExtend 32)) s

/-- AADDI (R171). -/
def execAaddi (e : Eng) (d a : AReg) (imm : BitVec 12) (s : State) : Host.Outcome State Fault Refusal :=
  engOp (.aaddi e d a imm) e (fun g => g.setA d (movePos (g.getA a) (imm.signExtend 32))) s

/-- AMOV (R171). -/
def execAmov (e : Eng) (d : AReg) (a : SReg) (s : State) : Host.Outcome State Fault Refusal :=
  engOp (.amov e d a) e (fun g => g.setA d (g.getS a)) s

/-- SAMOV (R171). -/
def execSamov (e : Eng) (d : SReg) (a : AReg) (s : State) : Host.Outcome State Fault Refusal :=
  engOp (.samov e d a) e (fun g => g.setS d (g.getA a)) s

/-- PAND (R171). -/
def execPand (e : Eng) (d a b : PReg) (s : State) : Host.Outcome State Fault Refusal :=
  engOp (.pand e d a b) e (fun g => g.setP d (g.getP a &&& g.getP b)) s

/-- POR (R171). -/
def execPor (e : Eng) (d a b : PReg) (s : State) : Host.Outcome State Fault Refusal :=
  engOp (.por e d a b) e (fun g => g.setP d (g.getP a ||| g.getP b)) s

/-- PXOR (R171). -/
def execPxor (e : Eng) (d a b : PReg) (s : State) : Host.Outcome State Fault Refusal :=
  engOp (.pxor e d a b) e (fun g => g.setP d (g.getP a ^^^ g.getP b)) s

/-- PANDN (R171). -/
def execPandn (e : Eng) (d a b : PReg) (s : State) : Host.Outcome State Fault Refusal :=
  engOp (.pandn e d a b) e (fun g => g.setP d (g.getP a &&& ~~~ (g.getP b))) s

/-- PNOT (R171). -/
def execPnot (e : Eng) (d a : PReg) (s : State) : Host.Outcome State Fault Refusal :=
  engOp (.pnot e d a) e (fun g => g.setP d (~~~ (g.getP a))) s

/-- PFROMS (R171). -/
def execPfroms (e : Eng) (d : PReg) (a : SReg) (s : State) : Host.Outcome State Fault Refusal :=
  engOp (.pfroms e d a) e (fun g => g.setP d ((g.getS a).truncate 8)) s

/-- PTOS (R171). -/
def execPtos (e : Eng) (d : SReg) (a : PReg) (s : State) : Host.Outcome State Fault Refusal :=
  engOp (.ptos e d a) e (fun g => g.setS d ((g.getP a).zeroExtend 32)) s

/-- PCNT (R171). -/
def execPcnt (e : Eng) (d : SReg) (a : PReg) (s : State) : Host.Outcome State Fault Refusal :=
  engOp (.pcnt e d a) e (fun g => g.setS d (BitVec.ofNat 32 (lanes.countP ((g.getP a).getLsbD ·)))) s

/-- PSETI (R171). -/
def execPseti (e : Eng) (d : PReg) (imm : BitVec 8) (s : State) : Host.Outcome State Fault Refusal :=
  engOp (.pseti e d imm) e (fun g => g.setP d imm) s


end Sys2Proof.Machine
end

