-- ==== Sys2Proof/Machine/EngineVector.lean ====
section
/-! DEFINITION. The vector integer, Q1.31, compare and lane instructions (R172). -/
namespace Sys2Proof.Machine

/-- QADD (R172). -/
def execQadd (e : Eng) (d a b : VReg) (p : PReg) (s : State) : Host.Outcome State Fault Refusal :=
  engOp (.qadd e d a b p) e (fun g => g.vmap p d fun i => sat31 ((g.getV a i).toInt + (g.getV b i).toInt)) s

/-- QSUB (R172). -/
def execQsub (e : Eng) (d a b : VReg) (p : PReg) (s : State) : Host.Outcome State Fault Refusal :=
  engOp (.qsub e d a b p) e (fun g => g.vmap p d fun i => sat31 ((g.getV a i).toInt - (g.getV b i).toInt)) s

/-- QNEG (R172). -/
def execQneg (e : Eng) (d a : VReg) (p : PReg) (s : State) : Host.Outcome State Fault Refusal :=
  engOp (.qneg e d a p) e (fun g => g.vmap p d fun i => sat31 (-(g.getV a i).toInt)) s

/-- QABS (R172). -/
def execQabs (e : Eng) (d a : VReg) (p : PReg) (s : State) : Host.Outcome State Fault Refusal :=
  engOp (.qabs e d a p) e (fun g => g.vmap p d fun i => sat31 ((g.getV a i).toInt.natAbs : Int)) s

/-- QMIN (R172). -/
def execQmin (e : Eng) (d a b : VReg) (p : PReg) (s : State) : Host.Outcome State Fault Refusal :=
  engOp (.qmin e d a b p) e (fun g => g.vmap p d fun i => (if (g.getV a i).slt (g.getV b i) then g.getV a i else g.getV b i, 0)) s

/-- QMAX (R172). -/
def execQmax (e : Eng) (d a b : VReg) (p : PReg) (s : State) : Host.Outcome State Fault Refusal :=
  engOp (.qmax e d a b p) e (fun g => g.vmap p d fun i => (if (g.getV a i).slt (g.getV b i) then g.getV b i else g.getV a i, 0)) s

/-- QSHL (R172). -/
def execQshl (e : Eng) (d a : VReg) (b : SReg) (p : PReg) (s : State) : Host.Outcome State Fault Refusal :=
  engOp (.qshl e d a b p) e (fun g => g.vmap p d fun i => sat31 ((g.getV a i).toInt * 2 ^ ((g.getS b).toNat % 32))) s

/-- QSHR (R172): rounding; it never saturates. -/
def execQshr (e : Eng) (d a : VReg) (b : SReg) (p : PReg) (s : State) : Host.Outcome State Fault Refusal :=
  engOp (.qshr e d a b p) e (fun g => g.vmap p d fun i => (BitVec.ofInt 32 (rneShift (g.getV a i).toInt ((g.getS b).toNat % 32)), 0)) s

/-- QMUL (R125, R172). -/
def execQmul (e : Eng) (d a b : VReg) (p : PReg) (s : State) : Host.Outcome State Fault Refusal :=
  engOp (.qmul e d a b p) e (fun g => g.vmap p d fun i => qmulOp (g.getV a i) (g.getV b i)) s

/-- QMULS (R172). -/
def execQmuls (e : Eng) (d a : VReg) (b : SReg) (p : PReg) (s : State) : Host.Outcome State Fault Refusal :=
  engOp (.qmuls e d a b p) e (fun g => g.vmap p d fun i => qmulOp (g.getV a i) (g.getS b)) s

/-- VADD (R172). -/
def execVadd (e : Eng) (d a b : VReg) (p : PReg) (s : State) : Host.Outcome State Fault Refusal :=
  engOp (.vadd e d a b p) e (fun g => g.vmap p d fun i => (g.getV a i + g.getV b i, 0)) s

/-- VSUB (R172). -/
def execVsub (e : Eng) (d a b : VReg) (p : PReg) (s : State) : Host.Outcome State Fault Refusal :=
  engOp (.vsub e d a b p) e (fun g => g.vmap p d fun i => (g.getV a i - g.getV b i, 0)) s

/-- VAND (R172). -/
def execVand (e : Eng) (d a b : VReg) (p : PReg) (s : State) : Host.Outcome State Fault Refusal :=
  engOp (.vand e d a b p) e (fun g => g.vmap p d fun i => (g.getV a i &&& g.getV b i, 0)) s

/-- VOR (R172). -/
def execVor (e : Eng) (d a b : VReg) (p : PReg) (s : State) : Host.Outcome State Fault Refusal :=
  engOp (.vor e d a b p) e (fun g => g.vmap p d fun i => (g.getV a i ||| g.getV b i, 0)) s

/-- VXOR (R172). -/
def execVxor (e : Eng) (d a b : VReg) (p : PReg) (s : State) : Host.Outcome State Fault Refusal :=
  engOp (.vxor e d a b p) e (fun g => g.vmap p d fun i => (g.getV a i ^^^ g.getV b i, 0)) s

/-- VSHL (R172). -/
def execVshl (e : Eng) (d a : VReg) (b : SReg) (p : PReg) (s : State) : Host.Outcome State Fault Refusal :=
  engOp (.vshl e d a b p) e (fun g => g.vmap p d fun i => (g.getV a i <<< ((g.getS b).toNat % 32), 0)) s

/-- VSHR (R172). -/
def execVshr (e : Eng) (d a : VReg) (b : SReg) (p : PReg) (s : State) : Host.Outcome State Fault Refusal :=
  engOp (.vshr e d a b p) e (fun g => g.vmap p d fun i => ((g.getV a i).sshiftRight ((g.getS b).toNat % 32), 0)) s

/-- VSHRL (R172). -/
def execVshrl (e : Eng) (d a : VReg) (b : SReg) (p : PReg) (s : State) : Host.Outcome State Fault Refusal :=
  engOp (.vshrl e d a b p) e (fun g => g.vmap p d fun i => (g.getV a i >>> ((g.getS b).toNat % 32), 0)) s

/-- QCEQ (R172). -/
def execQceq (e : Eng) (d : PReg) (a b : VReg) (p : PReg) (s : State) : Host.Outcome State Fault Refusal :=
  engOp (.qceq e d a b p) e (fun g => g.pmap p d fun i => (g.getV a i == g.getV b i, 0)) s

/-- QCLT (R172): signed. -/
def execQclt (e : Eng) (d : PReg) (a b : VReg) (p : PReg) (s : State) : Host.Outcome State Fault Refusal :=
  engOp (.qclt e d a b p) e (fun g => g.pmap p d fun i => ((g.getV a i).slt (g.getV b i), 0)) s

/-- QCLE (R172): signed. -/
def execQcle (e : Eng) (d : PReg) (a b : VReg) (p : PReg) (s : State) : Host.Outcome State Fault Refusal :=
  engOp (.qcle e d a b p) e (fun g => g.pmap p d fun i => ((g.getV a i).sle (g.getV b i), 0)) s

/-- FCEQ (R172). -/
def execFceq (e : Eng) (d : PReg) (a b : VReg) (p : PReg) (s : State) : Host.Outcome State Fault Refusal :=
  engOp (.fceq e d a b p) e (fun g => g.pmap p d fun i => fcmpOp 0 (g.getV a i) (g.getV b i)) s

/-- FCLT (R172). -/
def execFclt (e : Eng) (d : PReg) (a b : VReg) (p : PReg) (s : State) : Host.Outcome State Fault Refusal :=
  engOp (.fclt e d a b p) e (fun g => g.pmap p d fun i => fcmpOp 1 (g.getV a i) (g.getV b i)) s

/-- FCLE (R172). -/
def execFcle (e : Eng) (d : PReg) (a b : VReg) (p : PReg) (s : State) : Host.Outcome State Fault Refusal :=
  engOp (.fcle e d a b p) e (fun g => g.pmap p d fun i => fcmpOp 2 (g.getV a i) (g.getV b i)) s

/-- VMOV (R172). -/
def execVmov (e : Eng) (d a : VReg) (p : PReg) (s : State) : Host.Outcome State Fault Refusal :=
  engOp (.vmov e d a p) e (fun g => g.vmap p d fun i => (g.getV a i, 0)) s

/-- VBCST (R172). -/
def execVbcst (e : Eng) (d : VReg) (a : SReg) (p : PReg) (s : State) : Host.Outcome State Fault Refusal :=
  engOp (.vbcst e d a p) e (fun g => g.vmap p d fun _ => (g.getS a, 0)) s

/-- VEXT (R172). -/
def execVext (e : Eng) (d : SReg) (a : VReg) (n : Lane) (s : State) : Host.Outcome State Fault Refusal :=
  engOp (.vext e d a n) e (fun g => g.setS d (g.getV a n)) s

/-- VINS (R172): the other lanes are kept. -/
def execVins (e : Eng) (d : VReg) (a : SReg) (n : Lane) (s : State) : Host.Outcome State Fault Refusal :=
  engOp (.vins e d a n) e (fun g => g.setV d n (g.getS a)) s

/-- VROT (R172). -/
def execVrot (e : Eng) (d a : VReg) (n : Lane) (p : PReg) (s : State) : Host.Outcome State Fault Refusal :=
  engOp (.vrot e d a n p) e (fun g => g.vmap p d fun i => (g.getV a ((i + n) % 8), 0)) s

/-- VDUP (R172). -/
def execVdup (e : Eng) (d a : VReg) (n : Lane) (p : PReg) (s : State) : Host.Outcome State Fault Refusal :=
  engOp (.vdup e d a n p) e (fun g => g.vmap p d fun _ => (g.getV a n, 0)) s

/-- VLI (R172). -/
def execVli (e : Eng) (d : VReg) (imm : BitVec 12) (p : PReg) (s : State) : Host.Outcome State Fault Refusal :=
  engOp (.vli e d imm p) e (fun g => g.vmap p d fun _ => (imm.signExtend 32, 0)) s

/-- VLIU (R172). -/
def execVliu (e : Eng) (d : VReg) (imm : BitVec 12) (p : PReg) (s : State) : Host.Outcome State Fault Refusal :=
  engOp (.vliu e d imm p) e (fun g => g.vmap p d fun _ => (imm.zeroExtend 32 <<< 20, 0)) s


end Sys2Proof.Machine
end

