-- ==== Sys2Proof/Machine/Kindle.lean ====
section
/-! DEFINITION. PORST_N, kindling, and the exit from the deep power states (spec/16, R474 to R482, R486, R488; spec/15,
R451, R537). -/
namespace Sys2Proof.Machine

/-! ### PORST_N (R474, R529) -/

/-- The device at the release of PORST_N: HIF_OWN.OWNER takes the level of HOST_SEL, and the fuses show in PWR_SECMIN. -/
def Dev.released (v : NV) (hostSel : Bool) : Dev :=
  [(Reg.HIF_OWN_OWNER, bit hostSel), (Reg.HIF_STATUS_OWNER, bit hostSel), (Reg.HIF_STATUS_HOST_SEL, bit hostSel),
   (Reg.PWR_SECMIN_VER, v.version)].foldl (fun (d : Dev) e => d.wr e.1 e.2) {}

/-- PORST (R474): only fuses and the content of the boot flash survive. -/
def execPorst (hostSel : Bool) (s : State) : Host.Outcome State Fault Refusal :=
  onBoth (fun x => (x.1, Dev.released x.1 hostSel)) s

/-! ### Authenticity (R478) -/

/-- No equipment key is programmed. -/
def NV.devKey (v : NV) : Bool := v.key1.hash.isNone && v.key2.hash.isNone

/-- `h` is the key hash fused in `slot`, and the slot is not revoked. -/
def NV.keyOk (v : NV) (slot : Nat) (h : List Byte) : Bool :=
  if slot = 0 then h == Config.slot0Hash else (v.slot slot).hash == some h && !(v.slot slot).revoked

/-- A partition with signature block `b` is authentic: firmware in slot 0, anything else in slot 1 or 2 (R476, R478). -/
def NV.authentic (v : NV) (b : SigBlock) (firmware : Bool) : Bool :=
  b.formed && decide (b.secver ≤ 32) && b.verifies
    && (if firmware then b.slot == 0 && v.keyOk 0 b.hash && decide (v.version ≤ b.secver)
        else (b.slot == 1 || b.slot == 2) && (v.keyOk b.slot b.hash || v.devKey))

/-! ### Steps and failures (R479, R482) -/

/-- Step `n` is complete; the events of the steps enter the FIFO in their order (R71). -/
def Dev.kStep (d : Dev) (n : Nat) : Dev := (d.wr Reg.PWR_KSTAT_STEP n).cycle

/-- A failure; PWR_KSTAT.REASON records the first only. -/
def Dev.kFail (d : Dev) (c : Nat) : Dev :=
  let d := { d with boot := { d.boot with fault := true } }
  if d.rd Reg.PWR_KSTAT_REASON = 0 then d.wr Reg.PWR_KSTAT_REASON c else d

/-- The standing program has FAILED; its first reason stays (R451). -/
def Dev.spFail (d : Dev) (c : Nat) : Dev :=
  if d.rd Reg.ALM_SPSTAT_STATE = 3 then d else (d.wr Reg.ALM_SPSTAT_STATE 3).wr Reg.ALM_SPSTAT_REASON c

/-- The kindling log, whose length and words the spec does not state. -/
def Dev.kLog (d : Dev) : Dev :=
  let n := (Config.freeWord d.free).toNat % 1024
  { d with dump := { d.dump with klog := (List.range n).map fun i => Config.freeWord (d.free + 1 + i) }, free := d.free + 1025 }

/-- Kindling ends `ms` after release: DONE, KTIME, KINDLED, the dump of a failure, and the fault output (R449, R470, R479,
R482). -/
def Dev.kEnd (d : Dev) (ms : Nat) : Dev :=
  let d := { d.cycle with alm := { d.alm with kindled := true, wdAt := d.tick } }.kLog
  let t := ms % 2 ^ 16
  let d := ((d.wr Reg.PWR_KSTAT_DONE 1).wr Reg.PWR_KTIME_MS t).flag Reg.PWR_STATUS_KEV
  let d := d.post 1 3 (d.rd Reg.PWR_KSTAT_STEP + d.rd Reg.PWR_KSTAT_REASON * 2 ^ 16 + t * 2 ^ 32)
  let d := if d.boot.fault then ({ d with boot := { d.boot with fault := false } }).capture 4 else d
  d.refreshFaults

/-! ### Step 6 and step 7: memories (R226, R482) -/

/-- Training of both channels. -/
def Dev.kTrain (d : Dev) (f : BootFind) : Dev :=
  let d := d.wr ⟨0x9080, 4, 0⟩ f.dramInfo
  let ok := fun (c : Nat) => if c = 0 then f.dram0 else f.dram1
  let d := [0, 1].foldl (fun (d : Dev) (c : Nat) =>
    if ok c then d.setCh c { (d.ch c) with trained := true } else d.failChannel c 2) d
  if f.dram0 && f.dram1 then d else (d.wr Reg.PGU_STATUS_REASON 0x88).kFail 0x89

/-- BIST of both hearths: one that fails is FAILED. With both hearths lost the standing program cannot run. -/
def Dev.kBist (d : Dev) (f : BootFind) : Dev :=
  let d := if f.bistA then d else d.setState 0 .failed
  let d := if f.bistB then d else d.setState 1 .failed
  let d := if f.bistA && f.bistB then d else (d.wr Reg.PGU_STATUS_REASON 0x8A).kFail 0x8A
  if (f.dram0 && f.bistA) || (f.dram1 && f.bistB) then d else d.spFail 0x89

/-! ### Step 8: the configuration (R481) -/

/-- The enables that kindling sets to 1 (their descriptions in the register tables). -/
def kindledEnables : List Fld :=
  [Reg.AGE_CFG_ENABLE, Reg.SCH_CFG_ENABLE, Reg.ALC_CFG_ENABLE, Reg.HRT_CFG_ENABLE, Reg.ALM_CFG_ENABLE, Reg.FLW_CFG_ENABLE,
   Reg.TDM_CFG_ENABLE, Reg.MAC_CFG_ENABLE 0, Reg.MAC_CFG_ENABLE 1, Reg.PTP_CFG_ENABLE, Reg.TSU_CFG_ENABLE, Reg.REF_CFG_ENABLE,
   Reg.SYN_CFG_ENABLE, Reg.SYNX_CFG_EN 0, Reg.SYNX_CFG_EN 1, Reg.OUT_CFG_ENABLE, Reg.TIM_CFG_ENABLE]

/-- One entry of the configuration record: a supervisor write to a register of blocks 0 to 21, or nothing. -/
def configEntry (x : NV × Dev) (e : Nat × Word) : NV × Dev :=
  let w := e.1 % 2 ^ 24
  if w % 4 = 0 ∧ w < 0x40000 ∧ blockOf w ≤ 21 then
    let r := ctlWrite x .sup w e.2 0xFFFFFFFF false
    (r.1, r.2.cycle)
  else x

/-- The enables, the entries, the strobe of all sixteen groups and their commit, the slow domain included. -/
def configure (x : NV × Dev) (entries : List (Nat × Word)) (noRef : BitVec 2) : NV × Dev :=
  let d := kindledEnables.foldl (fun d f => d.wrShadow f 1) x.2
  let x := entries.foldl configEntry (x.1, d)
  let x := (List.range x.2.fab.slowQ.length).foldl (fun x _ => let r := landSlow x; (r.1, r.2.cycle)) x
  let d := x.2.strobe 0xFFFF
  let d := (d.commitMoment d.fab.staged noRef).cycle
  let d := (List.range d.fab.slowCommits.length).foldl (fun d _ => d.landCommit) d
  let d := if d.on Reg.CMT_STATUS_REFUSED then d.wr Reg.PWR_KSTAT_CFGREF 1 else d
  (x.1, d.pllSource)

/-! ### Step 9: the standing program (R157, R451, R537) -/

/-- The standing images, checked and placed in order from instruction 114,688 on of both hearths. -/
def Dev.loadStanding (d : Dev) (images : List (List Byte)) : Option Dev :=
  (images.zipIdx.foldl (fun (r : Option (Nat × Dev)) b =>
    match r with
    | none => none
    | some (base, d) =>
      match checkImage (imageWord b.1) (b.1.length / 4) true with
      | .error _ => none
      | .ok im =>
        let next := base + im.code.length
        if next > 131072 ∨ b.2 > 255 then none
        else
          let im := { im with baseA := some base, baseB := some base }
          let d := d.writeIsram im
          some (next, { d with eng := { d.eng with images := Sparse.put {} d.eng.images (0xF00 + b.2) im } }))
    (some (114688, d))).map (·.2)

/-- The reserve banks are written into both hearths (R537). -/
def Dev.loadReserve (d : Dev) : Dev :=
  d.alm.plan.banks.foldl (fun d b =>
    if b.1 < d.alm.plan.sb then
      [0, 1].foldl (fun (d : Dev) (h : Nat) =>
        let m := d.hm h
        d.setHm h { m with gw := Sparse.putList 0 m.gw ((1984 + b.1) * 1024) (b.2.take 1024) }) d
    else d) d

/-- Standing descriptor `i` against tests 1 to 5 on the standing table `t` alone (R94, R451): its entry as admitted. -/
def Dev.admitStanding (d : Dev) (t : Sparse Job) (i : Nat) (ws : List Word) : Option Job :=
  let k := 1024 + i
  let ws := (List.range 14).map fun n => ws.getD n 0 &&& BitVec.ofNat 32 (descMask.getD n 0)
  let j : Job := { desc := ws, seq := i, standing := true }
  let bound := (d.entryOf j []).elim 0 (·.bound)
  let lo := (1984 + d.alm.plan.sb + d.alm.plan.sf) * 64
  if !(d.test1 t k j d.alm.plan.sb).isEmpty || decide (j.cls > 2) || !j.prot || decide (j.wcet < bound) then none
  else match (if j.tiles = 0 then some 0 else firstFit lo (2048 * 64) j.tiles (t.map fun e => (e.2.run, e.2.runLen))) with
    | none => none
    | some run =>
      if (capacityFails (d.rd Reg.SCH_CFG_FLOOR_LOSS) k j (112500, 0xFF, t)).isSome then none
      else some { j with run := run, runLen := j.tiles, inA := true, inB := true }

/-- The standing table (R451): `none` where a descriptor fails. -/
def Dev.standingTable (d : Dev) (jobs : List (List Word)) : Option (Sparse Job) :=
  if jobs.length > 64 then none
  else jobs.zipIdx.foldl (fun (t : Option (Sparse Job)) e =>
    match t with
    | none => none
    | some t => (d.admitStanding t e.2 e.1).map fun j => t ++ [(1024 + e.2, j)]) (some [])

/-- The standing program is loaded and admitted, or FAILED (R451). -/
def Dev.kStanding (d : Dev) (p : StandPlan) (authentic : Bool) : Dev :=
  let d := if authentic then d else d.kFail 0x13
  if d.rd Reg.ALM_SPSTAT_STATE = 3 then d
  else if d.mode = 1 then d.spFail 0x16
  else if !authentic then d.spFail 0x88
  else if p.sb + p.sf > 64 then d.spFail 0x89
  else
    let d' := { d with alm := { d.alm with plan := p } }
    match d'.loadStanding p.images with
    | none => d.spFail 0x89
    | some d' =>
      match d'.standingTable p.jobs with
      | none => d.spFail 0x89
      | some t =>
        let d' := d'.loadReserve
        let d' := t.foldl (fun (d : Dev) (e : Nat × Job) => [0, 1].foldl (fun (d : Dev) (h : Nat) =>
          let m := d.hm h
          d.setHm h { m with gw := clearRange m.gw (e.2.run * 16) (e.2.runLen * 16) }) d) d'
        let d' := { d' with alm := { d'.alm with table := t.map fun (e : Nat × Job) => (e.1 - 1024, e.2) } }
        d'.wr Reg.ALM_SPSTAT_NJOBS t.length

/-! ### Step 10: the message store (R219) -/

/-- The message store is loaded into a region set from the image, or the standing program FAILED. -/
def Dev.kMessages (d : Dev) (image : List Byte) (authentic : Bool) : Dev :=
  let refuse := fun (d : Dev) => (d.kFail 0x14).spFail 0x88
  if !authentic then refuse d
  else
    let mib := (image.length + 2 ^ 20 - 1) / 2 ^ 20
    if mib > 256 then refuse (d.postMsgLoad 0x18)
    else
      let d := d.wrBoth Reg.PGU_REGION_MSG_MIB mib
      if mib + d.rd Reg.PGU_REGION_DL_MIB > d.capMiB then refuse (d.postMsgLoad 0x12)
      else
        let r := d.loadMessages image (mib * 2 ^ 20)
        let d := r.2.postMsgLoad r.1
        if r.1 = 0 then d else refuse d

/-! ### Kindling (R479 to R482) -/

/-- The ageing record is read back (R493); a record with a wrong CRC starts the values from zero. -/
def Dev.kAge (v : NV) (d : Dev) (f : BootFind) : Dev :=
  if f.dumpSectors = 0 then d
  else if f.ageBad then (d.flag Reg.AGE_STATUS_AGEEV).post 2 4 0
  else { d with age := { d.age with hist := v.age.getD {} } }.showAge

/-- Steps 5 to 11, with firmware image `img` running. -/
def kindleRest (x : NV × Dev) (f : BootFind) (img : Nat) : NV × Dev :=
  let fw := if img = 0 then f.fwA else f.fwB
  let other := if img = 0 then f.fwB else f.fwA
  let d := { x.2 with boot := { x.2.boot with waiting := none, otherVer := other.secver } }
  let d := ((d.wr Reg.PWR_KSTAT_IMAGE img).wr Reg.PWR_SECVER_VER fw.secver).kStep 4
  let d := d.kAge x.1 f
  let ok := x.1.authentic f.cfg false
  let d := (if ok then d else (d.kFail 0x12).spFail 0x88).kStep 5
  let d := (d.kTrain f).kStep 6
  let d := (d.kBist f).kStep 7
  let x := configure (x.1, { d with tick := 0, ns := 0 }) (if ok then f.config else []) f.noRef
  let d := x.2.kStep 8
  let d := (d.kStanding f.standing (x.1.authentic f.stand false)).kStep 9
  let d := (d.kMessages (messageImage x.1 d.boot) (x.1.authentic f.msg false)).kStep 10
  let d := d.kStep 11
  let d := if d.rd Reg.ALM_SPSTAT_STATE = 0 then d.wr Reg.ALM_SPSTAT_STATE 1 else d
  (x.1, d.kEnd f.ms)

/-- Firmware image `img` is started: kindling goes on when it reports liveness, and otherwise waits for LIVENESS (R480). -/
def kindleImage (x : NV × Dev) (f : BootFind) (img : Nat) : NV × Dev :=
  if (if img = 0 then f.liveA else f.liveB) then kindleRest x f img
  else (x.1, { x.2 with boot := { x.2.boot with waiting := some f } }.wr Reg.PWR_KSTAT_IMAGE img)

/-- The image other than PREFER is started where it is authentic; otherwise kindling stops at step 4 (R480). -/
def kindleOther (x : NV × Dev) (f : BootFind) : NV × Dev :=
  let img := 1 - f.prefer.val
  if x.1.authentic (if img = 0 then f.fwA else f.fwB) true then
    kindleImage (x.1, x.2.wr Reg.PWR_KSTAT_FALLBACK 1) f img
  else (x.1, ({ x.2 with boot := { x.2.boot with waiting := none } }.kFail 0x11).kEnd f.ms)

/-- Steps 2 to 4. -/
def kindleFlash (x : NV × Dev) (f : BootFind) : NV × Dev :=
  if !f.flash then (x.1, ({ x.2 with boot := { x.2.boot with noFlash := true } }.kFail 0x88).kEnd f.ms)
  else
    let d := { x.2 with boot := { x.2.boot with noFlash := false, flashBytes := f.flashBytes } }.kStep 2
    if !f.table then (x.1, (d.kFail 0x10).kEnd f.ms)
    else
      let d := { d with boot := { d.boot with
        dumpBase := f.dumpBase, dumpSectors := f.dumpSectors, msgBase := f.msgBase, msgLen := f.msgLen } }
      let d := ((d.wr Reg.PWR_KSTAT_TBLBAK (bit f.backup)).wr Reg.DUMP_NREC_CAP (f.dumpSectors - 1)).showDumps x.1.dump
      let x := (x.1, d.kStep 3)
      if x.1.authentic (if f.prefer = 0 then f.fwA else f.fwB) true then kindleImage x f f.prefer.val else kindleOther x f

/-- Kindling from the release of PORST_N: the pins, and step 1. -/
def kindle (x : NV × Dev) (f : BootFind) : NV × Dev :=
  if x.2.boot.ran then x
  else
    let d := { x.2 with boot := { x.2.boot with ran := true } }
    let d := if f.seated then d.wr Reg.HOT_STATUS_PRSNT 1 else d.hotState 3 false
    kindleFlash (showDevKey (x.1, d.kStep 1)) f

/-- KINDLING (R479): it runs once per PORST_N. -/
def execKindling (find : BootFind) (s : State) : Host.Outcome State Fault Refusal := onBoth (fun x => kindle x find) s

/-- A started image has reported no liveness: it is stopped, and the boot ROM starts the other one (R480). -/
def livenessFails (x : NV × Dev) : NV × Dev :=
  match x.2.boot.waiting with
  | none => x
  | some f =>
    let d := x.2.kFail 0x15
    if d.on Reg.PWR_KSTAT_FALLBACK then (x.1, ({ d with boot := { d.boot with waiting := none } }.kFail 0x11).kEnd f.ms)
    else kindleOther (x.1, d) f

/-- LIVENESS (R480). -/
def execLiveness (s : State) : Host.Outcome State Fault Refusal := onBoth livenessFails s

/-- FLASH_RETRY (R482): the boot ROM looks for a flash again; kindling goes on when one answers. -/
def execFlashRetry (find : BootFind) (s : State) : Host.Outcome State Fault Refusal :=
  onBoth (fun x => if x.2.boot.noFlash && find.flash then kindleFlash x find else x) s

/-! ### The exit from P3 and P4 (R486, R488) -/

/-- What the exit from P4 restores: the synthesizers relock, the standing banks come from their DRAM copy, and the head
pairs and pinned message pages from theirs. -/
def Dev.leaveBanked (d : Dev) : Dev :=
  let d := d.loadReserve
  let d := [0, 1].foldl (fun (d : Dev) (h : Nat) => (d.reloadPairs h 0).pinMessages h) d
  [0, 1].foldl (fun (d : Dev) (x : Nat) => 
    if !d.synEnabled x then d
    else if (d.syns x).refLost then (d.setSyns x { (d.syns x) with relock := .reference }).synState x 4
    else d.relock x false) d

/-- The exit completes, its latency after it began: P0, or P1 if the target allows it, or the target of an exit from P1 or P2; the
commands that waited then run in order (R486 to R488). -/
def exitDone (x : NV × Dev) : NV × Dev :=
  match x.2.pwr.exiting with
  | none => x
  | some (c, t) =>
    let d := x.2
    let st := d.rd Reg.PWR_STATUS_STATE
    if d.timeNs < t + 1000 * exitLat st then x else
    let d := if st = 4 then d.leaveBanked else d
    let held := d.pwr.held
    let d := { d with pwr := { d.pwr with exiting := none, held := [] } }
    let d := d.powerState (min (if 3 ≤ st then 1 else st - 1) d.powerTarget) (if c < 8 then some c else none)
    held.foldl (fun x e => let r := runCmd x e.2.1 e.2.2 1; (r.1, r.2.cycle)) (x.1, d.cycle)

/-- P_EXIT_DONE (R486). -/
def execPExitDone (ns : Nat) (s : State) : Host.Outcome State Fault Refusal := onBoth (fun x => exitDone (x.1, x.2.at ns)) s

end Sys2Proof.Machine
end

