-- ==== Sys2Proof/Machine/Tick.lean ====
section
/-! DEFINITION. The tick boundary (R8, R14): what every tick-bound block does at it, in order; a re-anchor by whole ticks
(R11). -/
namespace Sys2Proof.Machine

/-! ### Re-anchor (R11, R338, R359) -/

/-- A count of ticks moved by `k`. One older than -`k` becomes 0 in a backward re-anchor: the spec counts no negative ticks and says
nothing of it (DESIGN CHOICE, log entry 123). -/
def movedBy (k : Int) (t : Nat) : Nat := ((t : Int) + k).toNat

/-- The ticks that Bellows and HRT have noted are renumbered. -/
def Dev.shiftJobs (d : Dev) (k : Int) : Dev :=
  let m := movedBy k
  let jobs : Sparse Job := d.sch.jobs.map fun e => (e.1, { e.2 with
    pendTick := e.2.pendTick.map m, ovSusp := e.2.ovSusp.map m, releasing := e.2.releasing.map m })
  let hearth := fun (x : HrtH) => { x with
    buf0 := x.buf0.map m, buf1 := x.buf1.map m, last := x.last.map m, syncSince := m x.syncSince,
    down := x.down.map fun p => (p.1, m p.2) }
  let h := d.hrt
  { d with
    sch := { d.sch with jobs := jobs, stopTick := d.sch.stopTick.map m },
    hrt := { h with a := hearth h.a, b := hearth h.b, copy := h.copy.map fun c => { c with seq := m c.seq, began := ((c.began : Int) + 125000 * k).toNat },
                    swapAt := h.swapAt.map m, proofEnd := h.proofEnd.map fun p => (m p.1, p.2), lastSwap := m h.lastSwap } }

/-- The ticks that the memories, the ports, the alarm block and the supervisor have noted are renumbered. -/
def Dev.shiftUnits (d : Dev) (k : Int) : Dev :=
  let m := movedBy k
  let n := fun (t : Nat) => ((t : Int) + 125000 * k).toNat
  let ch := fun (x : Dram) => { x with ues := x.ues.map m, dqsAt := m x.dqsAt, mr4At := m x.mr4At }
  let mac := fun (x : Mac) => { x with
    now := ((x.now : Int) + 1250000 * k).toNat, txEnd := ((x.txEnd : Int) + 1250000 * k).toNat,
    pulse := ((x.pulse : Int) + 125000 * k).toNat, faultAt := x.faultAt.map fun t => ((t : Int) + 125000 * k).toNat, diag := x.diag.map m, modAt := x.modAt.map n }
  let port := fun (x : PortS) => { x with startTick := x.startTick.map m, edgeAt := ((x.edgeAt : Int) + 125000 * k).toNat }
  let q := d.mem
  { d with
    mem := { q with ch0 := ch q.ch0, ch1 := ch q.ch1 },
    mac0 := mac d.mac0, mac1 := mac d.mac1,
    tdm := { d.tdm with ports := d.tdm.ports.map fun e => (e.1, port e.2) },
    syn := { d.syn with clkStart := d.syn.clkStart.map fun e => (e.1, m e.2) },
    sup := { d.sup with down := d.sup.down.map m },
    pwr := { d.pwr with
      touchAt := n d.pwr.touchAt, exiting := d.pwr.exiting.map fun e => (e.1, n e.2), unseatedAt := n d.pwr.unseatedAt,
      ejectAt := n d.pwr.ejectAt, ejectingAt := n d.pwr.ejectingAt,
      rails := d.pwr.rails.map fun e => (e.1, { readAt := e.2.readAt.map n, reqAt := n e.2.reqAt }) },
    age := { d.age with
      evalAt := m d.age.evalAt, degAt := m d.age.degAt, dayAt := m d.age.dayAt, recAt := m d.age.recAt, corrAt := m d.age.corrAt },
    flw := { d.flw with sapAt := m d.flw.sapAt },
    hif := { d.hif with claimAt := n d.hif.claimAt },
    alm := { d.alm with
      zones := d.alm.zones.map fun e => (e.1, { e.2 with heard := m e.2.heard, passAt := m e.2.passAt, winAt := m e.2.winAt }),
      pins := d.alm.pins.map fun e => (e.1, { e.2 with since := ((e.2.since : Int) + 125000 * k).toNat }),
      wdAt := m d.alm.wdAt },
    fab := { d.fab with scanTick := d.fab.scanTick.map m, copyAt := ((d.fab.copyAt : Int) + 125000 * k).toNat },
    sap := d.sap.map fun x => { x with heard := m x.heard } }

/-- The ticks that PTP, REF and TIM have noted are renumbered; the offsets of a PTP port, internal time less its master's, move with internal
time. -/
def Dev.shiftClocks (d : Dev) (k : Int) : Dev :=
  let m := movedBy k
  let up := 2 * 125000 * k
  let off := fun (l : List (Int × Int)) => l.map fun e => (e.1 + up, e.2)
  let port := fun (x : PtpPort) => { x with
    good := off x.good, last := off x.last,
    hold := x.hold.map fun h => { h with tick := m h.tick, base := h.base + 64 * up, other := h.other.map (· + 64 * up) },
    lastTick := x.lastTick.map m, annAt := m x.annAt }
  let r := d.ref
  { d with
    ptp := { d.ptp with a := port d.ptp.a, b := port d.ptp.b },
    ref := { r with
      cands := r.cands.map fun e => (e.1, { e.2 with good := e.2.good.map m, soft := e.2.soft.map m, heard := e.2.heard.map m }),
      estAt := r.estAt.map m, rdyAt := m r.rdyAt, oscAt := m r.oscAt,
      begun := m r.begun, done := m r.done, since := m r.since, hist := r.hist.map fun e => (m e.1, e.2),
      lockedAt := r.lockedAt.map m, warmAt := r.warmAt.map m, warmPrev := (m r.warmPrev.1, m r.warmPrev.2),
      hoTick := m r.hoTick, mid := m r.mid },
    tim := { d.tim with
      units := d.tim.units.map fun e => (e.1, { e.2 with begun := m e.2.begun, gateAt := m e.2.gateAt }),
      ins := d.tim.ins.map fun e => (e.1, { e.2 with edgeAt := ((e.2.edgeAt : Int) + 125000 * k).toNat }),
      tableAt := m d.tim.tableAt } }

/-- A time trigger whose armed time a forward re-anchor has skipped fires late (R11, R338). -/
def Dev.fireSkipped (d : Dev) : Dev :=
  if !d.on Reg.TSU_CFG_ENABLE then d else
  (List.range 16).foldl (fun (d : Dev) x =>
    match d.trig x with
    | some t => if t.target < d.timeNs then d.fire x t true else d
    | none => d) d

/-- A re-anchor takes effect at this boundary (R11). -/
def Dev.reanchorBoundary (d : Dev) : Dev :=
  match d.ref.anchor with
  | none => d
  | some a =>
    let t0 := d.timeNs
    let d := ((d.shiftJobs a.k).shiftUnits a.k).shiftClocks a.k
    let d := { d with tick := movedBy a.k d.tick }
    let d := (d.synReanchor a.k t0).flowsReanchor a.k
    (if a.k > 0 then d.fireSkipped else d).anchorDone a

/-! ### Parts of a boundary -/

/-- A change of the sample rate family applies at the first boundary after its commit (R376): every tile written before
reads zero. -/
def Dev.familyBoundary (d : Dev) : Dev :=
  if d.on Reg.SYN_STATUS_FAM_PEND then
    let r := d.rd Reg.SYN_CFG_RATE96
    let d := ((d.wr Reg.SYN_STATUS_RATE96_NOW r).wr Reg.SYN_STATUS_FAM_PEND 0).flag Reg.SYN_STATUS_FAMEV
    let d := d.post 17 4 (r + d.schTick * 2 ^ 32)
    let d := [0, 1].foldl (fun (d : Dev) (h : Nat) => d.setHm h { (d.hm h) with tiles := [] }) d
    d.portsFamily.flowsFamily
  else d

/-- The dither seed committed since the boundary before takes effect (R372). -/
def Dev.seedBoundary (d : Dev) : Dev :=
  match d.syn.seedNext with
  | some x => { d with syn := { d.syn with seed := x, seedNext := none } }
  | none => d

/-- The tiles of the tick that begins are those written two ticks before, and start empty (R86). -/
def Dev.turnTiles (d : Dev) : Dev :=
  let par := 1 - d.mem.par
  let clear := fun (m : HMem) => { m with tiles := m.tiles.filter fun e => e.1 / 16 % 2 != par }
  { d with mem := { d.mem with par := par, hA := clear d.mem.hA, hB := clear d.mem.hB } }

/-- The TDM ports of the standing plan take its settings; a port running with identical settings continues (R453). -/
def Dev.planPorts (d : Dev) : Dev :=
  let old := d
  let d := d.alm.plan.ports.foldl (fun (d : Dev) p =>
    if blockOf p.1 = 10 then (d.loadRws p.1 p.2).setShadow p.1 (p.2 &&& rwsMask p.1) else d) d
  (List.range 16).foldl (fun (d : Dev) n => d.portCommit n (old.portOn n) (old.word (0xD400 + 0x80 * n))) d

/-- The paging units at a boundary, before the plan: late prefetches, heads, taps and voice slots (R209, R211, R220). -/
def Dev.pageBoundary (d : Dev) : Dev :=
  let d := (((d.countLate 0).countLate 1).rollTaps).headAdvance
  (((d.grantVoices 0).grantVoices 1).pageRetry 0).pageRetry 1

/-- Bellows, the standing program, the flows and the drain at boundary b (R14, R91, R114, R242, R250, R453). -/
def Dev.audioBoundary (d : Dev) (swap : Bool) (jbue : List (Nat × Nat)) : Dev :=
  let (d, starts) := d.standingBoundary
  let d := if starts then d.planFlows.planPorts else d
  let d := d.publish
  let d := [0, 1].foldl (fun (d : Dev) (h : Nat) => d.latchCap h d.hrt.role) d
  let d := d.pageBoundary
  let d := (d.planTick swap).latchAlarmTile
  let d := (d.prefetchHearth 0).prefetchHearth 1
  (((d.flowsBoundary).gather jbue).drain).flue

/-- In P3 and P4 nothing is planned, no completion is owed, and no tick waits to be sent (R486). -/
def Dev.quietBoundary (d : Dev) : Dev :=
  let d := { d with flw := { d.flw with pipe := [] } }
  [0, 1].foldl (fun (d : Dev) (h : Nat) => d.setSh h { (d.sh h) with plan := [], planned := false, completed := false })
    { d with sch := { d.sch with win := .plan } }

/-- The tick boundary (R8). `slots`: what the TDM input slots received in the tick that ends; `jbue`: jitter buffer reads
with an uncorrectable error, as flow and position; `noRef`: lane PLLs not locked to their reference clock. -/
def Dev.tickBoundary (d : Dev) (slots : List SlotData) (jbue : List (Nat × Nat)) (noRef : BitVec 2)
    (conv : List (Nat × Nat × Nat)) : Dev :=
  let d := (d.closeLin slots).portsEnd.detectAll
  let d := { d with tick := d.tick + 1, ns := 0 }
  let d := d.reanchorBoundary.captureTick.turnTiles.familyBoundary
  let d := ((d.commitTick noRef).seedBoundary).portsBoundary.convEstimates conv
  let r : Dev × Bool := if d.stopped 5 then (d, false) else d.hrtBoundary
  let d := if r.1.stopped 5 then r.1.quietBoundary else r.1.audioBoundary r.2 jbue
  let d := (d.showFlows.flowAges.sfpStale 0).sfpStale 1
  let d := if d.on Reg.REF_CFG_ENABLE then d.refSwitch.refTick else d
  let d := d.servoGap
  d.hotBoundary.powerBoundary.timApply.refreshFaults.scanStart

/-- TICK_BOUNDARY (R8): no boundary comes before the tick generator runs (R10, R479 step 8). -/
def execTickBoundary (slots : List SlotData) (jbue : List (BitVec 8 × Fin 16)) (noRef : BitVec 2)
    (conv : List (Fin 4 × BitVec 24 × BitVec 16)) (s : State) :
    Host.Outcome State Fault Refusal :=
  onDev (fun d =>
    if d.rd Reg.PWR_KSTAT_STEP < 8 then d
    else d.tickBoundary slots (jbue.map fun e => (e.1.toNat, e.2.val)) noRef (conv.map fun e => (e.1.val, e.2.1.toNat, e.2.2.toNat))) s

end Sys2Proof.Machine
end

