-- ==== Sys2Proof/Machine/Dispatch.lean ====
section
/-! DEFINITION. What each command does: one arm per constructor of `Instr`, each one call of that command's meaning. -/
namespace Sys2Proof.Machine

def exec (i : Instr) (s : State) : Host.Outcome State Fault Refusal :=
  match i with
  | .tickBoundary slots jbue noRef conv => Sys2Proof.Machine.execTickBoundary slots jbue noRef conv s
  | .computeWindow => Sys2Proof.Machine.execComputeWindow s
  | .closeWindow => Sys2Proof.Machine.execCloseWindow s
  | .tickCompletion h ns => Sys2Proof.Machine.execTickCompletion h ns s
  | .jobRunStart e => Sys2Proof.Machine.execJobRunStart e s
  | .budget e => Sys2Proof.Machine.execBudget e s
  | .slackDispatch e left => Sys2Proof.Machine.execSlackDispatch e left s
  | .eRetry job => Sys2Proof.Machine.execERetry job s
  | .stormStart h => Sys2Proof.Machine.execStormStart h s
  | .stormEnd h => Sys2Proof.Machine.execStormEnd h s
  | .engineFault e reason cyc => Sys2Proof.Machine.execEngineFault e reason cyc s
  | .isramUe h ix fetch => Sys2Proof.Machine.execIsramUe h ix fetch s
  | .isramRewrite h ix => Sys2Proof.Machine.execIsramRewrite h ix s
  | .gue h word by_ => Sys2Proof.Machine.execGue h word by_ s
  | .waitTimeout e => Sys2Proof.Machine.execWaitTimeout e s
  | .supRestart => Sys2Proof.Machine.execSupRestart s
  | .supResume => Sys2Proof.Machine.execSupResume s
  | .registerWrite h addr data be coll => Sys2Proof.Machine.execRegisterWrite h addr data be coll s
  | .rcRead h addr => Sys2Proof.Machine.execRcRead h addr s
  | .latchedRead h addr => Sys2Proof.Machine.execLatchedRead h addr s
  | .evqPop h => Sys2Proof.Machine.execEvqPop h s
  | .flush h => Sys2Proof.Machine.execFlush h s
  | .commitStrobe h groups => Sys2Proof.Machine.execCommitStrobe h groups s
  | .commit noRef => Sys2Proof.Machine.execCommit noRef s
  | .groupMapWrite h ix data => Sys2Proof.Machine.execGroupMapWrite h ix data s
  | .slowWriteLand => Sys2Proof.Machine.execSlowWriteLand s
  | .slowCommitLand => Sys2Proof.Machine.execSlowCommitLand s
  | .crcScanStart => Sys2Proof.Machine.execCrcScanStart s
  | .crcScanDone => Sys2Proof.Machine.execCrcScanDone s
  | .crcCapture h => Sys2Proof.Machine.execCrcCapture h s
  | .maskedWrite h addr data be coll => Sys2Proof.Machine.execMaskedWrite h addr data be coll s
  | .bitAliasWrite h addr data be coll => Sys2Proof.Machine.execBitAliasWrite h addr data be coll s
  | .maccSnap h => Sys2Proof.Machine.execMaccSnap h s
  | .jobRead h job => Sys2Proof.Machine.execJobRead h job s
  | .admitJob h job => Sys2Proof.Machine.execAdmitJob h job s
  | .updateJob h job => Sys2Proof.Machine.execUpdateJob h job s
  | .releaseJob h job => Sys2Proof.Machine.execReleaseJob h job s
  | .suspendJob h job => Sys2Proof.Machine.execSuspendJob h job s
  | .resumeJob h job => Sys2Proof.Machine.execResumeJob h job s
  | .tilesZeroed h => Sys2Proof.Machine.execTilesZeroed h s
  | .load h id hmask => Sys2Proof.Machine.execLoad h id hmask s
  | .loaded verify => Sys2Proof.Machine.execLoaded verify s
  | .unload h id hmask => Sys2Proof.Machine.execUnload h id hmask s
  | .query h id hmask => Sys2Proof.Machine.execQuery h id hmask s
  | .retest h e => Sys2Proof.Machine.execRetest h e s
  | .retestDone e pass => Sys2Proof.Machine.execRetestDone e pass s
  | .wclr h e => Sys2Proof.Machine.execWclr h e s
  | .sadd e d a b => Sys2Proof.Machine.execSadd e d a b s
  | .ssub e d a b => Sys2Proof.Machine.execSsub e d a b s
  | .sand e d a b => Sys2Proof.Machine.execSand e d a b s
  | .sor e d a b => Sys2Proof.Machine.execSor e d a b s
  | .sxor e d a b => Sys2Proof.Machine.execSxor e d a b s
  | .sshl e d a b => Sys2Proof.Machine.execSshl e d a b s
  | .sshr e d a b => Sys2Proof.Machine.execSshr e d a b s
  | .sshrl e d a b => Sys2Proof.Machine.execSshrl e d a b s
  | .smul e d a b => Sys2Proof.Machine.execSmul e d a b s
  | .smin e d a b => Sys2Proof.Machine.execSmin e d a b s
  | .smax e d a b => Sys2Proof.Machine.execSmax e d a b s
  | .sminu e d a b => Sys2Proof.Machine.execSminu e d a b s
  | .smaxu e d a b => Sys2Proof.Machine.execSmaxu e d a b s
  | .aadds e d a b => Sys2Proof.Machine.execAadds e d a b s
  | .saddi e d a imm => Sys2Proof.Machine.execSaddi e d a imm s
  | .sandi e d a imm => Sys2Proof.Machine.execSandi e d a imm s
  | .sori e d a imm => Sys2Proof.Machine.execSori e d a imm s
  | .sshi e d a right sh => Sys2Proof.Machine.execSshi e d a right sh s
  | .slui e d imm => Sys2Proof.Machine.execSlui e d imm s
  | .sli e d imm => Sys2Proof.Machine.execSli e d imm s
  | .aaddi e d a imm => Sys2Proof.Machine.execAaddi e d a imm s
  | .amov e d a => Sys2Proof.Machine.execAmov e d a s
  | .samov e d a => Sys2Proof.Machine.execSamov e d a s
  | .pand e d a b => Sys2Proof.Machine.execPand e d a b s
  | .por e d a b => Sys2Proof.Machine.execPor e d a b s
  | .pxor e d a b => Sys2Proof.Machine.execPxor e d a b s
  | .pandn e d a b => Sys2Proof.Machine.execPandn e d a b s
  | .pnot e d a => Sys2Proof.Machine.execPnot e d a s
  | .pfroms e d a => Sys2Proof.Machine.execPfroms e d a s
  | .ptos e d a => Sys2Proof.Machine.execPtos e d a s
  | .pcnt e d a => Sys2Proof.Machine.execPcnt e d a s
  | .pseti e d imm => Sys2Proof.Machine.execPseti e d imm s
  | .qadd e d a b p => Sys2Proof.Machine.execQadd e d a b p s
  | .qsub e d a b p => Sys2Proof.Machine.execQsub e d a b p s
  | .qneg e d a p => Sys2Proof.Machine.execQneg e d a p s
  | .qabs e d a p => Sys2Proof.Machine.execQabs e d a p s
  | .qmin e d a b p => Sys2Proof.Machine.execQmin e d a b p s
  | .qmax e d a b p => Sys2Proof.Machine.execQmax e d a b p s
  | .qshl e d a b p => Sys2Proof.Machine.execQshl e d a b p s
  | .qshr e d a b p => Sys2Proof.Machine.execQshr e d a b p s
  | .qmul e d a b p => Sys2Proof.Machine.execQmul e d a b p s
  | .qmuls e d a b p => Sys2Proof.Machine.execQmuls e d a b p s
  | .vadd e d a b p => Sys2Proof.Machine.execVadd e d a b p s
  | .vsub e d a b p => Sys2Proof.Machine.execVsub e d a b p s
  | .vand e d a b p => Sys2Proof.Machine.execVand e d a b p s
  | .vor e d a b p => Sys2Proof.Machine.execVor e d a b p s
  | .vxor e d a b p => Sys2Proof.Machine.execVxor e d a b p s
  | .vshl e d a b p => Sys2Proof.Machine.execVshl e d a b p s
  | .vshr e d a b p => Sys2Proof.Machine.execVshr e d a b p s
  | .vshrl e d a b p => Sys2Proof.Machine.execVshrl e d a b p s
  | .qceq e d a b p => Sys2Proof.Machine.execQceq e d a b p s
  | .qclt e d a b p => Sys2Proof.Machine.execQclt e d a b p s
  | .qcle e d a b p => Sys2Proof.Machine.execQcle e d a b p s
  | .fceq e d a b p => Sys2Proof.Machine.execFceq e d a b p s
  | .fclt e d a b p => Sys2Proof.Machine.execFclt e d a b p s
  | .fcle e d a b p => Sys2Proof.Machine.execFcle e d a b p s
  | .vmov e d a p => Sys2Proof.Machine.execVmov e d a p s
  | .vbcst e d a p => Sys2Proof.Machine.execVbcst e d a p s
  | .vext e d a n => Sys2Proof.Machine.execVext e d a n s
  | .vins e d a n => Sys2Proof.Machine.execVins e d a n s
  | .vrot e d a n p => Sys2Proof.Machine.execVrot e d a n p s
  | .vdup e d a n p => Sys2Proof.Machine.execVdup e d a n p s
  | .vli e d imm p => Sys2Proof.Machine.execVli e d imm p s
  | .vliu e d imm p => Sys2Proof.Machine.execVliu e d imm p s
  | .macv e d a b p => Sys2Proof.Machine.execMacv e d a b p s
  | .msuv e d a b p => Sys2Proof.Machine.execMsuv e d a b p s
  | .wextl e d a sh p => Sys2Proof.Machine.execWextl e d a sh p s
  | .wextr e d a sh p => Sys2Proof.Machine.execWextr e d a sh p s
  | .wextt e d a sh p => Sys2Proof.Machine.execWextt e d a sh p s
  | .wtov e d a p => Sys2Proof.Machine.execWtov e d a p s
  | .vtow e d a p => Sys2Proof.Machine.execVtow e d a p s
  | .cstep e d a b p => Sys2Proof.Machine.execCstep e d a b p s
  | .fadd e d a b p => Sys2Proof.Machine.execFadd e d a b p s
  | .fsub e d a b p => Sys2Proof.Machine.execFsub e d a b p s
  | .fmul e d a b p => Sys2Proof.Machine.execFmul e d a b p s
  | .fmin e d a b p => Sys2Proof.Machine.execFmin e d a b p s
  | .fmax e d a b p => Sys2Proof.Machine.execFmax e d a b p s
  | .fabs e d a p => Sys2Proof.Machine.execFabs e d a p s
  | .fneg e d a p => Sys2Proof.Machine.execFneg e d a p s
  | .fdiv e d a b p => Sys2Proof.Machine.execFdiv e d a b p s
  | .fsqrt e d a p => Sys2Proof.Machine.execFsqrt e d a p s
  | .fma e d a b p => Sys2Proof.Machine.execFma e d a b p s
  | .fms e d a b p => Sys2Proof.Machine.execFms e d a b p s
  | .qtof e d a p => Sys2Proof.Machine.execQtof e d a p s
  | .ftoq e d a p => Sys2Proof.Machine.execFtoq e d a p s
  | .itof e d a p => Sys2Proof.Machine.execItof e d a p s
  | .ftoi e d a p => Sys2Proof.Machine.execFtoi e d a p s
  | .ldt e d a off p => Sys2Proof.Machine.execLdt e d a off p s
  | .ldc e d a off k p => Sys2Proof.Machine.execLdc e d a off k p s
  | .lds e d a off k => Sys2Proof.Machine.execLds e d a off k s
  | .stt e src a off p => Sys2Proof.Machine.execStt e src a off p s
  | .stc e src a off k p => Sys2Proof.Machine.execStc e src a off k p s
  | .sts e src a off k => Sys2Proof.Machine.execSts e src a off k s
  | .dlrd e d a line p => Sys2Proof.Machine.execDlrd e d a line p s
  | .dlwr e src a line p => Sys2Proof.Machine.execDlwr e src a line p s
  | .biq e d src cix lane p => Sys2Proof.Machine.execBiq e d src cix lane p s
  | .gramp e d src cix lane p => Sys2Proof.Machine.execGramp e d src cix lane p s
  | .grampv e d src cix lane p => Sys2Proof.Machine.execGrampv e d src cix lane p s
  | .envp e d src cix lane p => Sys2Proof.Machine.execEnvp e d src cix lane p s
  | .envs e d src cix lane p => Sys2Proof.Machine.execEnvs e d src cix lane p s
  | .limg e d src cix lane p => Sys2Proof.Machine.execLimg e d src cix lane p s
  | .mixa e d src cix lane p => Sys2Proof.Machine.execMixa e d src cix lane p s
  | .mixs e d src cix lane p => Sys2Proof.Machine.execMixs e d src cix lane p s
  | .mixl e d src cix lane p => Sys2Proof.Machine.execMixl e d src cix lane p s
  | .br e off => Sys2Proof.Machine.execBr e off s
  | .bz e a off => Sys2Proof.Machine.execBz e a off s
  | .bnz e a off => Sys2Proof.Machine.execBnz e a off s
  | .bpz e a off => Sys2Proof.Machine.execBpz e a off s
  | .loop e count len => Sys2Proof.Machine.execLoop e count len s
  | .loopReg e a ceil len => Sys2Proof.Machine.execLoopReg e a ceil len s
  | .call e off => Sys2Proof.Machine.execCall e off s
  | .ret e => Sys2Proof.Machine.execRet e s
  | .signal e f => Sys2Proof.Machine.execSignal e f s
  | .wait e d f t => Sys2Proof.Machine.execWait e d f t s
  | .post e a c => Sys2Proof.Machine.execPost e a c s
  | .endRun e => Sys2Proof.Machine.execEndRun e s
  | .nop e => Sys2Proof.Machine.execNop e s
  | .rdflg e d => Sys2Proof.Machine.execRdflg e d s
  | .rdcyc e d => Sys2Proof.Machine.execRdcyc e d s
  | .lidx e d => Sys2Proof.Machine.execLidx e d s
  | .windowWrite h off data => Sys2Proof.Machine.execWindowWrite h off data s
  | .dlRead h line => Sys2Proof.Machine.execDlRead h line s
  | .defineLine h line => Sys2Proof.Machine.execDefineLine h line s
  | .freeLine h line => Sys2Proof.Machine.execFreeLine h line s
  | .pageReadDone h line page cycles ce => Sys2Proof.Machine.execPageReadDone h line page cycles ce s
  | .pageWriteDone h line page => Sys2Proof.Machine.execPageWriteDone h line page s
  | .msgReload h => Sys2Proof.Machine.execMsgReload h s
  | .msgLoad => Sys2Proof.Machine.execMsgLoad s
  | .due ch word second => Sys2Proof.Machine.execDue ch word second s
  | .zqCal ch => Sys2Proof.Machine.execZqCal ch s
  | .dqsTrack ch ok => Sys2Proof.Machine.execDqsTrack ch ok s
  | .mr4Read ch rate => Sys2Proof.Machine.execMr4Read ch rate s
  | .dramCmdTimeout ch => Sys2Proof.Machine.execDramCmdTimeout ch s
  | .retrain h ch => Sys2Proof.Machine.execRetrain h ch s
  | .retrainDone ch pass => Sys2Proof.Machine.execRetrainDone ch pass s
  | .resyncDone => Sys2Proof.Machine.execResyncDone s
  | .apply h tx flow => Sys2Proof.Machine.execApply h tx flow s
  | .stop h tx flow => Sys2Proof.Machine.execStop h tx flow s
  | .rxFrame n frame age ns taken => Sys2Proof.Machine.execRxFrame n frame age ns taken s
  | .pathdown flow n => Sys2Proof.Machine.execPathdown flow n s
  | .sapAnnounce => Sys2Proof.Machine.execSapAnnounce s
  | .fsyncTimeout n ns => Sys2Proof.Machine.execFsyncTimeout n ns s
  | .xrevert n => Sys2Proof.Machine.execXrevert n s
  | .srclock m locked rate phase => Sys2Proof.Machine.execSrclock m locked rate phase s
  | .pause n time ns => Sys2Proof.Machine.execPause n time ns s
  | .pfc n vec times ns => Sys2Proof.Machine.execPfc n vec times ns s
  | .pauseExpiry n q ns => Sys2Proof.Machine.execPauseExpiry n q ns s
  | .txFrame n lag ns => Sys2Proof.Machine.execTxFrame n lag ns s
  | .damperBreak n q ns => Sys2Proof.Machine.execDamperBreak n q ns s
  | .damperClose n q ns => Sys2Proof.Machine.execDamperClose n q ns s
  | .linkup n partner ns => Sys2Proof.Machine.execLinkup n partner ns s
  | .linkdown n los lock rfault lfault ns => Sys2Proof.Machine.execLinkdown n los lock rfault lfault ns s
  | .sfpInsert n ns => Sys2Proof.Machine.execSfpInsert n ns s
  | .sfpRemove n ns => Sys2Proof.Machine.execSfpRemove n ns s
  | .sfpIdRead n id => Sys2Proof.Machine.execSfpIdRead n id s
  | .sfpDiagPoll n d0 d1 rx alarms => Sys2Proof.Machine.execSfpDiagPoll n d0 d1 rx alarms s
  | .sfpFault n ns => Sys2Proof.Machine.execSfpFault n ns s
  | .txfaultPersists n => Sys2Proof.Machine.execTxfaultPersists n s
  | .sfpRead h n dev offset len data acked => Sys2Proof.Machine.execSfpRead h n dev offset len data acked s
  | .stampQueueRead h q => Sys2Proof.Machine.execStampQueueRead h q s
  | .exchange n x => Sys2Proof.Machine.execExchange n x s
  | .pstepAccept n => Sys2Proof.Machine.execPstepAccept n s
  | .announce n gmid cls acc variance st => Sys2Proof.Machine.execAnnounce n gmid cls acc variance st s
  | .esmcPdu n ssm => Sys2Proof.Machine.execEsmcPdu n ssm s
  | .esmcTimeout n => Sys2Proof.Machine.execEsmcTimeout n s
  | .rebase h n => Sys2Proof.Machine.execRebase h n s
  | .accept h n => Sys2Proof.Machine.execAccept h n s
  | .clrreb h n => Sys2Proof.Machine.execClrreb h n s
  | .arm h x ns => Sys2Proof.Machine.execArm h x ns s
  | .disarm h x => Sys2Proof.Machine.execDisarm h x s
  | .trigger x ns => Sys2Proof.Machine.execTrigger x ns s
  | .capture c rising ns => Sys2Proof.Machine.execCapture c rising ns s
  | .estimateUpdate est ptpDiff => Sys2Proof.Machine.execEstimateUpdate est ptpDiff s
  | .candidateLost k => Sys2Proof.Machine.execCandidateLost k s
  | .candidateRestored k => Sys2Proof.Machine.execCandidateRestored k s
  | .wtrExpiry => Sys2Proof.Machine.execWtrExpiry s
  | .switchDone => Sys2Proof.Machine.execSwitchDone s
  | .switchnow h => Sys2Proof.Machine.execSwitchnow h s
  | .reanchor h ptpDiff => Sys2Proof.Machine.execReanchor h ptpDiff s
  | .ocxo present rdy => Sys2Proof.Machine.execOcxo present rdy s
  | .ageCorrUpdate => Sys2Proof.Machine.execAgeCorrUpdate s
  | .lossOfReference ch ns => Sys2Proof.Machine.execLossOfReference ch ns s
  | .referenceRestored ch ns => Sys2Proof.Machine.execReferenceRestored ch ns s
  | .lossOfLock x ns => Sys2Proof.Machine.execLossOfLock x ns s
  | .hopAbandon x ns => Sys2Proof.Machine.execHopAbandon x ns s
  | .lock x band trim ns => Sys2Proof.Machine.execLock x band trim ns s
  | .lpfault x low ns => Sys2Proof.Machine.execLpfault x low ns s
  | .synfail x ns => Sys2Proof.Machine.execSynfail x ns s
  | .relockRetry x ns => Sys2Proof.Machine.execRelockRetry x ns s
  | .clrslots h => Sys2Proof.Machine.execClrslots h s
  | .research h x ns => Sys2Proof.Machine.execResearch h x ns s
  | .realign h x ns => Sys2Proof.Machine.execRealign h x ns s
  | .alignmentBoundary plan => Sys2Proof.Machine.execAlignmentBoundary plan s
  | .outClken h mask => Sys2Proof.Machine.execOutClken h mask s
  | .clkXrevert x => Sys2Proof.Machine.execClkXrevert x s
  | .align h p => Sys2Proof.Machine.execAlign h p s
  | .fpInputEdge p ns => Sys2Proof.Machine.execFpInputEdge p ns s
  | .holdoffEnd k ns => Sys2Proof.Machine.execHoldoffEnd k ns s
  | .startEdge u t => Sys2Proof.Machine.execStartEdge u t s
  | .stopEdge u t => Sys2Proof.Machine.execStopEdge u t s
  | .sampleTimeout u t => Sys2Proof.Machine.execSampleTimeout u t s
  | .gateEnd u edges span cold uncal => Sys2Proof.Machine.execGateEnd u edges span cold uncal s
  | .restart h u => Sys2Proof.Machine.execRestart h u s
  | .cal on => Sys2Proof.Machine.execCal on s
  | .calTable dnl => Sys2Proof.Machine.execCalTable dnl s
  | .timPllLock => Sys2Proof.Machine.execTimPllLock s
  | .emberCopyDone crcOk ns => Sys2Proof.Machine.execEmberCopyDone crcOk ns s
  | .railDrop h => Sys2Proof.Machine.execRailDrop h s
  | .swap h => Sys2Proof.Machine.execSwap h s
  | .proofSwapRequest => Sys2Proof.Machine.execProofSwapRequest s
  | .restore h railA railB => Sys2Proof.Machine.execRestore h railA railB s
  | .clrSuspect h => Sys2Proof.Machine.execClrSuspect h s
  | .bankRecopyDone h => Sys2Proof.Machine.execBankRecopyDone h s
  | .alarm ix active ns => Sys2Proof.Machine.execAlarm ix active ns s
  | .ack h ix => Sys2Proof.Machine.execAck h ix s
  | .kick h => Sys2Proof.Machine.execKick h s
  | .wdog => Sys2Proof.Machine.execWdog s
  | .start h => Sys2Proof.Machine.execStart h s
  | .almRelease h => Sys2Proof.Machine.execAlmRelease h s
  | .pilotOn z => Sys2Proof.Machine.execPilotOn z s
  | .pilotWindow z => Sys2Proof.Machine.execPilotWindow z s
  | .unverified z => Sys2Proof.Machine.execUnverified z s
  | .porst hostSel => Sys2Proof.Machine.execPorst hostSel s
  | .kindling find => Sys2Proof.Machine.execKindling find s
  | .liveness => Sys2Proof.Machine.execLiveness s
  | .flashRetry find => Sys2Proof.Machine.execFlashRetry find s
  | .unseated ns => Sys2Proof.Machine.execUnseated ns s
  | .seated ns => Sys2Proof.Machine.execSeated ns s
  | .ejecting low ns => Sys2Proof.Machine.execEjecting low ns s
  | .ejectDlyExpiry ns => Sys2Proof.Machine.execEjectDlyExpiry ns s
  | .forcedSafe ns => Sys2Proof.Machine.execForcedSafe ns s
  | .safe h => Sys2Proof.Machine.execSafe h s
  | .hotResume h => Sys2Proof.Machine.execHotResume h s
  | .wake h => Sys2Proof.Machine.execWake h s
  | .pExitDone ns => Sys2Proof.Machine.execPExitDone ns s
  | .commitver h => Sys2Proof.Machine.execCommitver h s
  | .avs n read acked ns => Sys2Proof.Machine.execAvs n read acked ns s
  | .marginEval a b c => Sys2Proof.Machine.execMarginEval a b c s
  | .temp sensor tj => Sys2Proof.Machine.execTemp sensor tj s
  | .degMeasure a b c => Sys2Proof.Machine.execDegMeasure a b c s
  | .ocxoest => Sys2Proof.Machine.execOcxoest s
  | .ageingRecordWrite => Sys2Proof.Machine.execAgeingRecordWrite s
  | .clrhist h => Sys2Proof.Machine.execClrhist h s
  | .dumpTrigger h => Sys2Proof.Machine.execDumpTrigger h s
  | .saved ok => Sys2Proof.Machine.execSaved ok s
  | .fetch h => Sys2Proof.Machine.execFetch h s
  | .dumpRelease h => Sys2Proof.Machine.execDumpRelease h s
  | .rddataRead h => Sys2Proof.Machine.execRddataRead h s
  | .pcielink up speed width => Sys2Proof.Machine.execPcielink up speed width s
  | .write addr words cut coll => Sys2Proof.Machine.execWrite addr words cut coll s
  | .read addr count late => Sys2Proof.Machine.execRead addr count late s
  | .status => Sys2Proof.Machine.execStatus s
  | .owner h code => Sys2Proof.Machine.execOwner h code s
  | .claim h => Sys2Proof.Machine.execClaim h s
  | .deny h => Sys2Proof.Machine.execDeny h s
  | .claimend ns => Sys2Proof.Machine.execClaimend ns s
  | .keyprog h => Sys2Proof.Machine.execKeyprog h s
  | .keyrevoke h => Sys2Proof.Machine.execKeyrevoke h s
  | .sapsnap h => Sys2Proof.Machine.execSapsnap h s
  | .flashread h => Sys2Proof.Machine.execFlashread h s
  | .flasherase h => Sys2Proof.Machine.execFlasherase h s
  | .flashprog h ok => Sys2Proof.Machine.execFlashprog h ok s
  | .fwinfo h => Sys2Proof.Machine.execFwinfo h s
  | .mbdone => Sys2Proof.Machine.execMbdone s
  | .wclrInstruction e d p => Sys2Proof.Machine.execWclrInstruction e d p s
  | .fsyncEdge n offset ns => Sys2Proof.Machine.execFsyncEdge n offset ns s
  | .comparatorTransition k level ns => Sys2Proof.Machine.execComparatorTransition k level ns s
  | .announceReceiptTimeout n st => Sys2Proof.Machine.execAnnounceReceiptTimeout n st s
  | .ptpMessageSend n bytes stamp oneStep tag ns => Sys2Proof.Machine.execPtpMessageSend n bytes stamp oneStep tag ns s
  | .scrub h isram word => Sys2Proof.Machine.execScrub h isram word s
  | .writeAroundDone h => Sys2Proof.Machine.execWriteAroundDone h s
  | .alarmInputLevel ix level ns => Sys2Proof.Machine.execAlarmInputLevel ix level ns s

end Sys2Proof.Machine
end

