-- ==== Sys2Proof/Safety.lean ====
section
/-! DEFINITION. What counts as a safe step and a safe run. -/
namespace Sys2Proof.Machine

/-- The outcome is a next state. -/
def Completes (o : Host.Outcome State Fault Refusal) : Prop := ∃ t, o = .next t

/-- A step from `s` neither faults nor is refused. -/
def SafeStep (s : State) : Prop := Completes (step s)

/-- The state after `n` steps, if every one of them completes. -/
def runFor : Nat → State → Option State
  | 0, s => some s
  | n + 1, s => match step s with
    | .next t => runFor n t
    | _ => none

/-- Every command that waits executes. -/
def SafeRun (s : State) : Prop := (runFor s.pending.length s).isSome

end Sys2Proof.Machine
end

