-- ==== Sys2Proof/Certificates/Slice0/Obligations.lean ====
section
/-! DEFINITION. The statements for the provers. Each docstring names the rule of spec/ it formalises. -/
namespace Sys2Proof.Claims
end Sys2Proof.Claims

open Sys2Proof Sys2Proof.Machine Sys2Proof.Claims

/-! ### Engine instructions -/

namespace Sys2Proof.Claims

/-- An engine instruction of engine `e` leaves the other engines and everything outside the engines but registers, events and
the interrupt outputs. -/
def EngineOnly (e : Eng) (s t : State) : Prop :=
  t.nv = s.nv ∧ t.pending = s.pending ∧ (∀ q, q ≠ e.val → t.dev.en q = s.dev.en q) ∧
  t.dev = { s.dev with live := t.dev.live, evq := t.dev.evq, intr := t.dev.intr,
                       eng := { s.dev.eng with e := t.dev.eng.e } }

/-- An engine instruction that writes registers of engine `e` only: nothing else changes but, where a breakpoint is enabled,
what the breakpoint captures and posts (R164), and the interrupt outputs. -/
def EngineFrame (e : Eng) (s t : State) : Prop :=
  EngineOnly e s t ∧
  (s.dev.on (Reg.ENG_BRK_EN e) = false → t.dev.live = s.dev.live ∧ t.dev.evq = s.dev.evq.settle s.dev.schTick)

/-- The register files and sticky flags of an engine stay. -/
def SameFiles (g g' : EngS) : Prop :=
  g'.s = g.s ∧ g'.a = g.a ∧ g'.v = g.v ∧ g'.p = g.p ∧ g'.w = g.w ∧ g'.flags = g.flags

/-- Of the register files of an engine, only the scalar register `r` may change. -/
def OnlyScalar (r : Nat) (g g' : EngS) : Prop :=
  g'.a = g.a ∧ g'.v = g.v ∧ g'.p = g.p ∧ g'.w = g.w ∧ g'.flags = g.flags ∧ ∀ q, q ≠ r → g'.getS q = g.getS q

/-- Of the register files of an engine, only the address register `r` may change. -/
def OnlyAddress (r : Nat) (g g' : EngS) : Prop :=
  g'.s = g.s ∧ g'.v = g.v ∧ g'.p = g.p ∧ g'.w = g.w ∧ g'.flags = g.flags ∧ ∀ q, q ≠ r → g'.getA q = g.getA q

/-- Of the register files and sticky flags of an engine, only the predicate register `r` may change. -/
def OnlyPredicate (r : Nat) (g g' : EngS) : Prop :=
  g'.s = g.s ∧ g'.a = g.a ∧ g'.v = g.v ∧ g'.w = g.w ∧ g'.flags = g.flags ∧ ∀ q, q ≠ r → g'.getP q = g.getP q

/-- Of the register files, only lanes of the vector registers from `r` on, `n` of them, that predicate `p` enables may
change. -/
def OnlyLanes (p r n : Nat) (g g' : EngS) : Prop :=
  g'.s = g.s ∧ g'.a = g.a ∧ g'.p = g.p ∧ g'.w = g.w ∧
  ∀ q i, i < 8 → ((q < r ∨ r + n ≤ q) ∨ g.lane p i = false) → g'.getV q i = g.getV q i

/-- Of the register files, only lanes of the wide registers from `r` on, `n` of them, that predicate `p` enables may
change. -/
def OnlyWideLanes (p r n : Nat) (g g' : EngS) : Prop :=
  g'.s = g.s ∧ g'.a = g.a ∧ g'.p = g.p ∧ g'.v = g.v ∧
  ∀ q i, i < 8 → ((q < r ∨ r + n ≤ q) ∨ g.lane p i = false) → g'.getW q i = g.getW q i

/-- The engine, destination and result of the instructions that write a scalar register (R171, R172, R191), on engine
state `g`. -/
def scalarResult (s : State) : Instr → Option (Eng × SReg × Word)
  | .sadd e d a b => some (e, d, BitVec.ofInt 32 (((s.dev.en e).getS a).toInt + ((s.dev.en e).getS b).toInt))
  | .ssub e d a b => some (e, d, BitVec.ofInt 32 (((s.dev.en e).getS a).toInt - ((s.dev.en e).getS b).toInt))
  | .sand e d a b => some (e, d, (s.dev.en e).getS a &&& (s.dev.en e).getS b)
  | .sor e d a b => some (e, d, (s.dev.en e).getS a ||| (s.dev.en e).getS b)
  | .sxor e d a b => some (e, d, (s.dev.en e).getS a ^^^ (s.dev.en e).getS b)
  | .sshl e d a b => some (e, d, BitVec.ofNat 32 (((s.dev.en e).getS a).toNat * 2 ^ (((s.dev.en e).getS b).toNat % 32)))
  | .sshr e d a b => some (e, d, BitVec.ofInt 32 (((s.dev.en e).getS a).toInt / 2 ^ (((s.dev.en e).getS b).toNat % 32)))
  | .sshrl e d a b => some (e, d, BitVec.ofNat 32 (((s.dev.en e).getS a).toNat / 2 ^ (((s.dev.en e).getS b).toNat % 32)))
  | .smul e d a b => some (e, d, BitVec.ofInt 32 (((s.dev.en e).getS a).toInt * ((s.dev.en e).getS b).toInt))
  | .smin e d a b => some (e, d, BitVec.ofInt 32 (min ((s.dev.en e).getS a).toInt ((s.dev.en e).getS b).toInt))
  | .smax e d a b => some (e, d, BitVec.ofInt 32 (max ((s.dev.en e).getS a).toInt ((s.dev.en e).getS b).toInt))
  | .sminu e d a b => some (e, d, BitVec.ofNat 32 (min ((s.dev.en e).getS a).toNat ((s.dev.en e).getS b).toNat))
  | .smaxu e d a b => some (e, d, BitVec.ofNat 32 (max ((s.dev.en e).getS a).toNat ((s.dev.en e).getS b).toNat))
  | .saddi e d a imm => some (e, d, BitVec.ofInt 32 (((s.dev.en e).getS a).toInt + imm.toInt))
  | .sandi e d a imm => some (e, d, (s.dev.en e).getS a &&& BitVec.ofNat 32 imm.toNat)
  | .sori e d a imm => some (e, d, (s.dev.en e).getS a ||| BitVec.ofNat 32 imm.toNat)
  | .sshi e d a right sh => some (e, d,
      if right then BitVec.ofInt 32 (((s.dev.en e).getS a).toInt / 2 ^ sh.val)
      else BitVec.ofNat 32 (((s.dev.en e).getS a).toNat * 2 ^ sh.val))
  | .slui e d imm => some (e, d, BitVec.ofNat 32 (imm.toNat * 2 ^ 12))
  | .sli e d imm => some (e, d, BitVec.ofInt 32 imm.toInt)
  | .samov e d a => some (e, d, (s.dev.en e).getA a)
  | .ptos e d a => some (e, d, BitVec.ofNat 32 ((s.dev.en e).getP a).toNat)
  | .pcnt e d a => some (e, d, BitVec.ofNat 32 ((List.range 8).countP fun i => ((s.dev.en e).getP a).getLsbD i))
  | .vext e d a n => some (e, d, (s.dev.en e).getV a n)
  | .rdflg e d => some (e, d, BitVec.ofNat 32 (s.dev.en e).flags.toNat)
  | .rdcyc e d => some (e, d, BitVec.ofNat 32 ((s.dev.en e).issueCycle (timing (.rdcyc e d)) - 1))
  | .lidx e d => some (e, d, BitVec.ofNat 32 (((s.dev.en e).loops.head?.map (·.iter)).getD 0))
  | _ => none

/-- The engine, destination and result of the instructions that write an address register (R171). -/
def addressResult (s : State) : Instr → Option (Eng × AReg × Word)
  | .aadds e d a b => some (e, d, BitVec.ofNat 32
      (((s.dev.en e).getA a).toNat / 2 ^ 30 * 2 ^ 30 + (((s.dev.en e).getA a).toNat + ((s.dev.en e).getS b).toNat) % 2 ^ 30))
  | .aaddi e d a imm => some (e, d, BitVec.ofNat 32
      (((s.dev.en e).getA a).toNat / 2 ^ 30 * 2 ^ 30
        + (((((s.dev.en e).getA a).toNat : Int) + imm.toInt) % 2 ^ 30).toNat))
  | .amov e d a => some (e, d, (s.dev.en e).getS a)
  | _ => none

/-- The engine, destination and bits of the instructions that write a predicate register from scalar or predicate
registers (R171). -/
def predicateResult (s : State) : Instr → Option (Eng × PReg × (Nat → Bool))
  | .pand e d a b => some (e, d, fun i => ((s.dev.en e).getP a).getLsbD i && ((s.dev.en e).getP b).getLsbD i)
  | .por e d a b => some (e, d, fun i => ((s.dev.en e).getP a).getLsbD i || ((s.dev.en e).getP b).getLsbD i)
  | .pxor e d a b => some (e, d, fun i => ((s.dev.en e).getP a).getLsbD i ^^ ((s.dev.en e).getP b).getLsbD i)
  | .pandn e d a b => some (e, d, fun i => ((s.dev.en e).getP a).getLsbD i && !((s.dev.en e).getP b).getLsbD i)
  | .pnot e d a => some (e, d, fun i => !((s.dev.en e).getP a).getLsbD i)
  | .pfroms e d a => some (e, d, fun i => ((s.dev.en e).getS a).getLsbD i)
  | .pseti e d imm => some (e, d, fun i => imm.getLsbD i)
  | _ => none

/-- A Q1.31 lane of value y / 2^31 clamped to its range, and whether it clamps (`sat31` of spec/05). -/
def clamp31 (y : Int) : Word × Flg :=
  (BitVec.ofInt 32 (max (-(2 ^ 31)) (min (2 ^ 31 - 1) y)), if -(2 ^ 31) ≤ y ∧ y ≤ 2 ^ 31 - 1 then 0 else 1)

/-- A wide lane of value y / 2^62 clamped to its range (`sat72` of spec/05). -/
def clamp72 (y : Int) : BitVec 72 × Flg :=
  (BitVec.ofInt 72 (max (-(2 ^ 71)) (min (2 ^ 71 - 1) y)), if -(2 ^ 71) ≤ y ∧ y ≤ 2 ^ 71 - 1 then 0 else 2)

/-- The operands, and lane by lane the value and the sticky flags, of the Q1.31 instructions of R172. -/
def saturatingResult (s : State) : Instr → Option (Eng × VReg × PReg × (Nat → Word × Flg))
  | .qadd e d a b p => some (e, d, p, fun i => clamp31 (((s.dev.en e).getV a i).toInt + ((s.dev.en e).getV b i).toInt))
  | .qsub e d a b p => some (e, d, p, fun i => clamp31 (((s.dev.en e).getV a i).toInt - ((s.dev.en e).getV b i).toInt))
  | .qneg e d a p => some (e, d, p, fun i => clamp31 (-((s.dev.en e).getV a i).toInt))
  | .qabs e d a p => some (e, d, p, fun i => clamp31 |((s.dev.en e).getV a i).toInt|)
  | .qmin e d a b p => some (e, d, p, fun i =>
      (BitVec.ofInt 32 (min ((s.dev.en e).getV a i).toInt ((s.dev.en e).getV b i).toInt), 0))
  | .qmax e d a b p => some (e, d, p, fun i =>
      (BitVec.ofInt 32 (max ((s.dev.en e).getV a i).toInt ((s.dev.en e).getV b i).toInt), 0))
  | .qshl e d a b p => some (e, d, p, fun i =>
      clamp31 (((s.dev.en e).getV a i).toInt * 2 ^ (((s.dev.en e).getS b).toNat % 32)))
  | .qshr e d a b p => some (e, d, p, fun i =>
      (BitVec.ofInt 32 (rneShift ((s.dev.en e).getV a i).toInt (((s.dev.en e).getS b).toNat % 32)), 0))
  | .qmul e d a b p => some (e, d, p, fun i =>
      clamp31 (rneShift (((s.dev.en e).getV a i).toInt * ((s.dev.en e).getV b i).toInt) 31))
  | .qmuls e d a b p => some (e, d, p, fun i =>
      clamp31 (rneShift (((s.dev.en e).getV a i).toInt * ((s.dev.en e).getS b).toInt) 31))
  | _ => none

/-- The same for the integer and lane instructions of R172, which set no flag. -/
def integerResult (s : State) : Instr → Option (Eng × VReg × PReg × (Nat → Word × Flg))
  | .vadd e d a b p => some (e, d, p, fun i =>
      (BitVec.ofInt 32 (((s.dev.en e).getV a i).toInt + ((s.dev.en e).getV b i).toInt), 0))
  | .vsub e d a b p => some (e, d, p, fun i =>
      (BitVec.ofInt 32 (((s.dev.en e).getV a i).toInt - ((s.dev.en e).getV b i).toInt), 0))
  | .vand e d a b p => some (e, d, p, fun i => ((s.dev.en e).getV a i &&& (s.dev.en e).getV b i, 0))
  | .vor e d a b p => some (e, d, p, fun i => ((s.dev.en e).getV a i ||| (s.dev.en e).getV b i, 0))
  | .vxor e d a b p => some (e, d, p, fun i => ((s.dev.en e).getV a i ^^^ (s.dev.en e).getV b i, 0))
  | .vshl e d a b p => some (e, d, p, fun i =>
      (BitVec.ofNat 32 (((s.dev.en e).getV a i).toNat * 2 ^ (((s.dev.en e).getS b).toNat % 32)), 0))
  | .vshr e d a b p => some (e, d, p, fun i =>
      (BitVec.ofInt 32 (((s.dev.en e).getV a i).toInt / 2 ^ (((s.dev.en e).getS b).toNat % 32)), 0))
  | .vshrl e d a b p => some (e, d, p, fun i =>
      (BitVec.ofNat 32 (((s.dev.en e).getV a i).toNat / 2 ^ (((s.dev.en e).getS b).toNat % 32)), 0))
  | .vmov e d a p => some (e, d, p, fun i => ((s.dev.en e).getV a i, 0))
  | .vbcst e d a p => some (e, d, p, fun _ => ((s.dev.en e).getS a, 0))
  | .vrot e d a n p => some (e, d, p, fun i => ((s.dev.en e).getV a ((i + n.val) % 8), 0))
  | .vdup e d a n p => some (e, d, p, fun _ => ((s.dev.en e).getV a n, 0))
  | .vli e d imm p => some (e, d, p, fun _ => (BitVec.ofInt 32 imm.toInt, 0))
  | .vliu e d imm p => some (e, d, p, fun _ => (BitVec.ofNat 32 (imm.toNat * 2 ^ 20), 0))
  | _ => none

/-- The same for the extractions of R173. -/
def extractResult (s : State) : Instr → Option (Eng × VReg × PReg × (Nat → Word × Flg))
  | .wextl e d a sh p => some (e, d, p, fun i => clamp31 (rneShift (((s.dev.en e).getW a i).toInt * 2 ^ sh.val) 31))
  | .wextr e d a sh p => some (e, d, p, fun i => clamp31 (rneShift ((s.dev.en e).getW a i).toInt (31 + sh.val)))
  | .wextt e d a sh p => some (e, d, p, fun i => clamp31 (((s.dev.en e).getW a i).toInt / 2 ^ (31 + sh.val)))
  | _ => none

/-- The same for the binary32 instructions of R174, by the operations of Machine/Flags. -/
def floatResult (s : State) : Instr → Option (Eng × VReg × PReg × (Nat → Word × Flg))
  | .fadd e d a b p => some (e, d, p, fun i => faddOp ((s.dev.en e).getV a i) ((s.dev.en e).getV b i))
  | .fsub e d a b p => some (e, d, p, fun i => fsubOp ((s.dev.en e).getV a i) ((s.dev.en e).getV b i))
  | .fmul e d a b p => some (e, d, p, fun i => fmulOp ((s.dev.en e).getV a i) ((s.dev.en e).getV b i))
  | .fmin e d a b p => some (e, d, p, fun i => fminmaxOp false ((s.dev.en e).getV a i) ((s.dev.en e).getV b i))
  | .fmax e d a b p => some (e, d, p, fun i => fminmaxOp true ((s.dev.en e).getV a i) ((s.dev.en e).getV b i))
  | .fabs e d a p => some (e, d, p, fun i => fabsOp ((s.dev.en e).getV a i))
  | .fneg e d a p => some (e, d, p, fun i => fnegOp ((s.dev.en e).getV a i))
  | .fdiv e d a b p => some (e, d, p, fun i => fdivOp ((s.dev.en e).getV a i) ((s.dev.en e).getV b i))
  | .fsqrt e d a p => some (e, d, p, fun i => fsqrtOp ((s.dev.en e).getV a i))
  | .fma e d a b p => some (e, d, p, fun i =>
      fmaOp false ((s.dev.en e).getV d i) ((s.dev.en e).getV a i) ((s.dev.en e).getV b i))
  | .fms e d a b p => some (e, d, p, fun i =>
      fmaOp true ((s.dev.en e).getV d i) ((s.dev.en e).getV a i) ((s.dev.en e).getV b i))
  | .qtof e d a p => some (e, d, p, fun i => fofInt ((s.dev.en e).getV a i).toInt (-31))
  | .ftoq e d a p => some (e, d, p, fun i => ftoqOp ((s.dev.en e).getV a i))
  | .itof e d a p => some (e, d, p, fun i => fofInt ((s.dev.en e).getV a i).toInt 0)
  | .ftoi e d a p => some (e, d, p, fun i => ftoiOp ((s.dev.en e).getV a i))
  | _ => none

/-- The same for the envelope and limiter operations of R185 and R186; the coefficients are those of the job's bank as the
issued instruction reads them (R135). -/
def dynamicsResult (s : State) : Instr → Option (Eng × VReg × PReg × (Nat → Word × Flg))
  | .envp e d src cix lane p => some (e, d, p, fun i =>
      let x := min |((s.dev.en e).getV src i).toInt| (2 ^ 31 - 1)
      let env := ((s.dev.en e).getV d i).toInt
      let k := if x > env then ((s.dev.issue (.envp e d src cix lane p) e).coef e cix lane 0 i).toInt
        else ((s.dev.issue (.envp e d src cix lane p) e).coef e cix lane 1 i).toInt
      clamp31 (env + rneShift (k * (x - env)) 31))
  | .envs e d src cix lane p => some (e, d, p, fun i =>
      let x := rneShift (((s.dev.en e).getV src i).toInt * ((s.dev.en e).getV src i).toInt) 31
      let env := ((s.dev.en e).getV d i).toInt
      let k := if x > env then ((s.dev.issue (.envs e d src cix lane p) e).coef e cix lane 0 i).toInt
        else ((s.dev.issue (.envs e d src cix lane p) e).coef e cix lane 1 i).toInt
      clamp31 (env + rneShift (k * (x - env)) 31))
  | .limg e d src cix lane p => some (e, d, p, fun i =>
      let env := ((s.dev.en e).getV src i).toInt
      let t := ((s.dev.issue (.limg e d src cix lane p) e).coef e cix lane 0 i).toInt
      (if t ≤ 0 then 0 else if env ≤ t then 0x7FFFFFFF else BitVec.ofInt 32 (t * 2 ^ 31 / env), 0))
  | _ => none

/-- The operands, and lane by lane the value and the sticky flags, of the instructions that write one wide register
(R173, R187). -/
def wideResult (s : State) : Instr → Option (Eng × WReg × PReg × (Nat → BitVec 72 × Flg))
  | .macv e d a b p => some (e, d, p, fun i => clamp72
      (((s.dev.en e).getW d i).toInt + ((s.dev.en e).getV a i).toInt * ((s.dev.en e).getV b i).toInt))
  | .msuv e d a b p => some (e, d, p, fun i => clamp72
      (((s.dev.en e).getW d i).toInt - ((s.dev.en e).getV a i).toInt * ((s.dev.en e).getV b i).toInt))
  | .wclrInstruction e d p => some (e, d, p, fun _ => (0, 0))
  | .mixa e d src cix lane p => some (e, d, p, fun i => clamp72 (((s.dev.en e).getW d i).toInt
      + ((s.dev.en e).getV src i).toInt * ((s.dev.issue (.mixa e d src cix lane p) e).coef e cix lane 0 i).toInt))
  | .mixs e d src cix lane p => some (e, d, p, fun i => clamp72 (((s.dev.en e).getW d i).toInt
      - ((s.dev.en e).getV src i).toInt * ((s.dev.issue (.mixs e d src cix lane p) e).coef e cix lane 0 i).toInt))
  | .mixl e d src cix lane p => some (e, d, p, fun i => (BitVec.ofInt 72 (((s.dev.en e).getV src i).toInt
      * ((s.dev.issue (.mixl e d src cix lane p) e).coef e cix lane 0 i).toInt), 0))
  | _ => none

/-- The sticky flags of an engine after the enabled lanes have set theirs: a flag is set when it was, or when an enabled
lane sets it (R128). -/
def FlagsFrom (p : Nat) (fl : Nat → Flg) (g g' : EngS) : Prop :=
  ∀ k, k < 6 → g'.flags.getLsbD k = (g.flags.getLsbD k || (List.range 8).any fun i => g.lane p i && (fl i).getLsbD k)

/-- The instruction completes and writes `f i` into each lane `i` of v`d` that predicate `p` enables, with its flags, and
nothing else in the engine's register files (R124). -/
def WritesLanes (s : State) (i : Instr) (e : Eng) (d : VReg) (p : PReg) (f : Nat → Word × Flg) : Prop :=
  ∃ t, exec i s = .next t ∧ EngineFrame e s t ∧ OnlyLanes p d 1 (s.dev.en e) (t.dev.en e) ∧
    (∀ k, k < 8 → (s.dev.en e).lane p k = true → (t.dev.en e).getV d k = (f k).1) ∧
    FlagsFrom p (fun k => (f k).2) (s.dev.en e) (t.dev.en e)

end Sys2Proof.Claims

/-! ### The statements about engine instructions -/

/-- R171, R172 (VEXT) and R191: each instruction that writes a scalar register completes with the result the rule gives,
and changes no other register. R172: VINS writes the one lane its immediate names, whatever the predicates hold. -/
def Obligations.ScalarAndInsertInstructionsWriteTheirResult : Prop :=
  (∀ (s : State) (i : Instr) (e : Eng) (d : SReg) (x : Word), scalarResult s i = some (e, d, x) →
      ∃ t, exec i s = .next t ∧ EngineFrame e s t ∧ OnlyScalar d (s.dev.en e) (t.dev.en e) ∧ (t.dev.en e).getS d = x) ∧
  (∀ (s : State) (e : Eng) (d : VReg) (a : SReg) (n : Lane),
      ∃ t, exec (.vins e d a n) s = .next t ∧ EngineFrame e s t ∧
        (t.dev.en e).s = (s.dev.en e).s ∧ (t.dev.en e).a = (s.dev.en e).a ∧ (t.dev.en e).p = (s.dev.en e).p ∧
        (t.dev.en e).w = (s.dev.en e).w ∧ (t.dev.en e).flags = (s.dev.en e).flags ∧
        ∀ q k, k < 8 → (t.dev.en e).getV q k =
          if q = d.val ∧ k = n.val then (s.dev.en e).getS a else (s.dev.en e).getV q k)

namespace Sys2Proof.Claims

/-- The bit a compare gives a lane, and its flags (R172). -/
def compareResult (s : State) : Instr → Option (Eng × PReg × PReg × (Nat → Bool × Flg))
  | .qceq e d a b p => some (e, d, p, fun i =>
      (decide (((s.dev.en e).getV a i).toInt = ((s.dev.en e).getV b i).toInt), 0))
  | .qclt e d a b p => some (e, d, p, fun i =>
      (decide (((s.dev.en e).getV a i).toInt < ((s.dev.en e).getV b i).toInt), 0))
  | .qcle e d a b p => some (e, d, p, fun i =>
      (decide (((s.dev.en e).getV a i).toInt ≤ ((s.dev.en e).getV b i).toInt), 0))
  | .fceq e d a b p => some (e, d, p, fun i => fcmpOp 0 ((s.dev.en e).getV a i) ((s.dev.en e).getV b i))
  | .fclt e d a b p => some (e, d, p, fun i => fcmpOp 1 ((s.dev.en e).getV a i) ((s.dev.en e).getV b i))
  | .fcle e d a b p => some (e, d, p, fun i => fcmpOp 2 ((s.dev.en e).getV a i) ((s.dev.en e).getV b i))
  | _ => none

end Sys2Proof.Claims

/-- R172: a compare writes only the enabled bits of its predicate, and the other bits keep their values; into p0 nothing is
written (R121). -/
def Obligations.ComparesWriteEnabledPredicateBits : Prop :=
  ∀ (s : State) (i : Instr) (e : Eng) (d p : PReg) (f : Nat → Bool × Flg), compareResult s i = some (e, d, p, f) →
    ∃ t, exec i s = .next t ∧ EngineFrame e s t ∧
      (t.dev.en e).s = (s.dev.en e).s ∧ (t.dev.en e).a = (s.dev.en e).a ∧ (t.dev.en e).v = (s.dev.en e).v ∧
      (t.dev.en e).w = (s.dev.en e).w ∧ (∀ q, q ≠ d.val → (t.dev.en e).getP q = (s.dev.en e).getP q) ∧
      (∀ k, k < 8 → ((t.dev.en e).getP d).getLsbD k =
        if d.val ≠ 0 ∧ (s.dev.en e).lane p k = true then (f k).1 else ((s.dev.en e).getP d).getLsbD k) ∧
      FlagsFrom p (fun k => (f k).2) (s.dev.en e) (t.dev.en e)

/-- R173, R187: the instructions that write one wide accumulator add the exact product and saturate to Q10.62. CSTEP collects
the cross product in w`d` and the energy of `vb` in w`d+1`, d being 0 or 2; another d encodes no defined word. -/
def Obligations.WideInstructionsWriteEnabledLanes : Prop :=
  (∀ (s : State) (i : Instr) (e : Eng) (d : WReg) (p : PReg) (f : Nat → BitVec 72 × Flg),
      wideResult s i = some (e, d, p, f) →
      ∃ t, exec i s = .next t ∧ EngineFrame e s t ∧ OnlyWideLanes p d 1 (s.dev.en e) (t.dev.en e) ∧
        (∀ k, k < 8 → (s.dev.en e).lane p k = true → (t.dev.en e).getW d k = (f k).1) ∧
        FlagsFrom p (fun k => (f k).2) (s.dev.en e) (t.dev.en e)) ∧
  (∀ (s : State) (e : Eng) (d : WReg) (a b : VReg) (p : PReg),
      ((d.val = 0 ∨ d.val = 2) → ∃ t, exec (.cstep e d a b p) s = .next t ∧ EngineFrame e s t ∧
        OnlyWideLanes p d 2 (s.dev.en e) (t.dev.en e) ∧
        (∀ k, k < 8 → (s.dev.en e).lane p k = true →
          (t.dev.en e).getW d k = (clamp72 (((s.dev.en e).getW d k).toInt
            + ((s.dev.en e).getV a k).toInt * ((s.dev.en e).getV b k).toInt)).1 ∧
          (t.dev.en e).getW (d + 1) k = (clamp72 (((s.dev.en e).getW (d + 1) k).toInt
            + ((s.dev.en e).getV b k).toInt ^ 2)).1) ∧
        FlagsFrom p (fun k => (clamp72 (((s.dev.en e).getW d k).toInt
            + ((s.dev.en e).getV a k).toInt * ((s.dev.en e).getV b k).toInt)).2 |||
          (clamp72 (((s.dev.en e).getW (d + 1) k).toInt + ((s.dev.en e).getV b k).toInt ^ 2)).2)
          (s.dev.en e) (t.dev.en e)) ∧
      (¬ (d.val = 0 ∨ d.val = 2) → exec (.cstep e d a b p) s = .fault .undefinedWord))

/-- R173, R126: WTOV and VTOW move a wide accumulator to and from three vector registers, exactly in both directions. -/
def Obligations.WideMovesAreExact : Prop :=
  ∀ (s : State) (e : Eng) (v : VReg) (w : WReg) (p : PReg), v.val ≤ 29 →
    (∃ t, exec (.wtov e v w p) s = .next t ∧ EngineFrame e s t ∧ OnlyLanes p v 3 (s.dev.en e) (t.dev.en e) ∧
      (t.dev.en e).flags = (s.dev.en e).flags ∧
      ∀ k, k < 8 → (s.dev.en e).lane p k = true →
        ((t.dev.en e).getV v k).toNat = ((s.dev.en e).getW w k).toNat % 2 ^ 32 ∧
        ((t.dev.en e).getV (v + 1) k).toNat = ((s.dev.en e).getW w k).toNat / 2 ^ 32 % 2 ^ 32 ∧
        ((t.dev.en e).getV (v + 2) k).toInt = ((s.dev.en e).getW w k).toInt / 2 ^ 64) ∧
    (∃ t, exec (.vtow e w v p) s = .next t ∧ EngineFrame e s t ∧ OnlyWideLanes p w 1 (s.dev.en e) (t.dev.en e) ∧
      (t.dev.en e).flags = (s.dev.en e).flags ∧
      ∀ k, k < 8 → (s.dev.en e).lane p k = true →
        ((t.dev.en e).getW w k).toNat = ((s.dev.en e).getV (v + 2) k).toNat % 2 ^ 8 * 2 ^ 64
          + ((s.dev.en e).getV (v + 1) k).toNat * 2 ^ 32 + ((s.dev.en e).getV v k).toNat)

/-- R171, R121: AADDS and AADDI keep the kind bits and add to the position modulo 2^30, and AMOV copies all 32 bits; each
predicate instruction completes with the lane bits the rule gives, a write to p0 is discarded, and p0 goes on reading
0xFF. -/
def Obligations.AddressAndPredicateInstructionsWriteTheirResult : Prop :=
  (∀ (s : State) (i : Instr) (e : Eng) (d : AReg) (x : Word), addressResult s i = some (e, d, x) →
    ∃ t, exec i s = .next t ∧ EngineFrame e s t ∧ OnlyAddress d (s.dev.en e) (t.dev.en e) ∧ (t.dev.en e).getA d = x) ∧
  (∀ (s : State) (i : Instr) (e : Eng) (d : PReg) (b : Nat → Bool), predicateResult s i = some (e, d, b) →
    ∃ t, exec i s = .next t ∧ EngineFrame e s t ∧ OnlyPredicate d (s.dev.en e) (t.dev.en e) ∧
      ∀ k, k < 8 → ((t.dev.en e).getP d).getLsbD k = if d.val = 0 then true else b k)

/-- R172: the Q1.31 instructions saturate, round to nearest with ties to even where they round, and set QSAT when an enabled
lane clamps; the integer, lane and constant instructions set no flag. R173: the extractions shift, round (WEXTT truncates)
and saturate to Q1.31. R174: the binary32 instructions set their flags; a disabled lane computes nothing. R185, R186: the
envelope and limiter operations. Each writes its enabled lanes and nothing else. -/
def Obligations.VectorInstructionsWriteEnabledLanes : Prop :=
  ∀ (s : State) (i : Instr) (e : Eng) (d : VReg) (p : PReg) (f : Nat → Word × Flg),
    (saturatingResult s i = some (e, d, p, f) ∨ integerResult s i = some (e, d, p, f) ∨
      extractResult s i = some (e, d, p, f) ∨ dynamicsResult s i = some (e, d, p, f) ∨
      floatResult s i = some (e, d, p, f)) → WritesLanes s i e d p f

/-! ### The statements about memory, control and system instructions -/

namespace Sys2Proof.Claims

/-- The job that engine `e` runs, as the table in force has it. -/
def jobOn (d : Dev) (e : Eng) : Job := d.jobF (d.en e).job

/-- One 32-bit cell of a hearth's grate memory: a word of the regions from the ember area on, or a lane of a channel tile. -/
inductive Cell where
  | word (key : Nat)
  | tile (handle par lane : Nat)
  deriving DecidableEq

/-- What a cell holds. -/
def cellAt (m : HMem) : Cell → Word
  | .word k => m.word k
  | .tile c par l => m.tile c par l

/-- The cell that a store to lane `i` of grate word `w` writes; none where the lane holds no sample (R131). -/
def storedCell (d : Dev) (w : GWord) (i : Nat) : Option Cell :=
  match w with
  | .mem key => some (.word (key + i))
  | .chan c tw => if tw * 8 + i < d.nSamples then some (.tile c d.mem.par (tw * 8 + i)) else none

/-- The key of a cell in the log of the latest cycle's stores. -/
def cellKey : Cell → Nat
  | .word k => wordKey k
  | .tile c par l => tileKey c par l

/-- An engine above `e` has stored to the position with log key `k` in the cycle in which engine `e` stores now (R196). -/
def Overtaken (d : Dev) (e k : Nat) : Prop :=
  (d.hm (e / 8)).cyc = (d.en e).now ∧ (Sparse.get (16, 0) (d.hm (e / 8)).stores k).1 ≠ 16 ∧
  e < (Sparse.get (16, 0) (d.hm (e / 8)).stores k).1

/-- Of the memory of the device, only the cells of the hearth of engine `e` that `stored` names change, each to the value of the last lane
that names it; a cell to which a higher engine has stored in the same cycle keeps what that engine stored (R196). -/
def StoresLanes (e : Nat) (ls : List Nat) (cell : Nat → Option Cell) (x : Nat → Word) (d d' : Dev) : Prop :=
  let h := e / 8
  (∀ c, (∀ i ∈ ls, cell i ≠ some c) → cellAt (d'.hm h) c = cellAt (d.hm h) c) ∧
  (∀ i ∈ ls, ∀ c, cell i = some c → Overtaken d e (cellKey c) → cellAt (d'.hm h) c = cellAt (d.hm h) c) ∧
  (∀ i ∈ ls, ∀ c, cell i = some c → ¬ Overtaken d e (cellKey c) → (∀ j ∈ ls, i < j → cell j ≠ some c) → cellAt (d'.hm h) c = x i) ∧
  d'.hm (1 - h) = d.hm (1 - h) ∧ (d'.hm h).frames = (d.hm h).frames ∧
  d'.mem = { d.mem with hA := d'.mem.hA, hB := d'.mem.hB }

/-- An access violation of kind `kd` was recorded on engine `e` (R133): counted, with ACCVIOL set. -/
def ViolationCounted (e : Eng) (s t : State) : Prop :=
  t.dev.rd (Reg.ENG_VCNT_COUNT e) = (s.dev.rd (Reg.ENG_VCNT_COUNT e) + 1) % 2 ^ 32 ∧
  t.dev.rd (Reg.ENG_STATUS_ACCVIOL e) = 1

end Sys2Proof.Claims

/-- R175, R176: a load whose checked words are permitted returns them, lane by lane, as `Dev.loadLane` reads them: R196: the content before the
stores of the load's own cycle, which is the content now where no engine has stored in it. -/
def Obligations.LoadsReturnTheGrateWords : Prop :=
  ∀ (s : State) (e : Eng) (a : AReg) (off : BitVec 10),
    (∀ (d : VReg) (p : PReg) (w : GWord),
      let D := s.dev.issue (.ldt e d a off p) e
      D.resolve (e / 8) (jobOn D e) false (effAddr ((s.dev.en e).getA a) off 0) = .ok w →
      ∃ t, exec (.ldt e d a off p) s = .next t ∧ EngineFrame e s t ∧ OnlyLanes p d 1 (s.dev.en e) (t.dev.en e) ∧
        (t.dev.en e).flags = (s.dev.en e).flags ∧
        ∀ k, k < 8 → (s.dev.en e).lane p k = true →
          (t.dev.en e).getV d k = D.loadLane e w k) ∧
    (∀ (d : VReg) (k : Fin 12) (p : PReg) (w : Nat → GWord),
      let D := s.dev.issue (.ldc e d a off k p) e
      (∀ i, i < 8 → (s.dev.en e).lane p i = true → D.resolve (e / 8) (jobOn D e) false
        (effAddr ((s.dev.en e).getA a) off (2 * i + k / 8)) = .ok (w i)) →
      ∃ t, exec (.ldc e d a off k p) s = .next t ∧ EngineFrame e s t ∧ OnlyLanes p d 1 (s.dev.en e) (t.dev.en e) ∧
        (t.dev.en e).flags = (s.dev.en e).flags ∧
        ∀ i, i < 8 → (s.dev.en e).lane p i = true →
          (t.dev.en e).getV d i = D.loadLane e (w i) (k % 8)) ∧
    (∀ (d : SReg) (k : Lane) (w : GWord),
      let D := s.dev.issue (.lds e d a off k) e
      D.resolve (e / 8) (jobOn D e) false (effAddr ((s.dev.en e).getA a) off 0) = .ok w →
      ∃ t, exec (.lds e d a off k) s = .next t ∧ EngineFrame e s t ∧ OnlyScalar d (s.dev.en e) (t.dev.en e) ∧
        (t.dev.en e).getS d = D.loadLane e w k)

namespace Sys2Proof.Claims

/-- R196: two engines of a hearth that store to one word in one cycle leave what the higher of them stores, in whichever order the two
commands stand, and a load of another engine in that cycle returns what the word held before both. -/
def SameCycleAccessesAreOrdered : Prop :=
  ∀ (s : State) (lo hi e : Eng) (r q : SReg) (d : SReg) (a b c : AReg) (off : BitVec 10) (k : Lane) (key : Nat) (first : Bool),
    lo.val < hi.val → lo.val / 8 = hi.val / 8 → e.val / 8 = hi.val / 8 → e ≠ lo → e ≠ hi →
    let L := s.dev.issue (.sts lo r a off k) lo
    let H := s.dev.issue (.sts hi q b off k) hi
    let R := s.dev.issue (.lds e d c off k) e
    (L.en lo).now = (H.en hi).now → (R.en e).now = (H.en hi).now → (s.dev.hm (hi / 8)).cyc ≠ (H.en hi).now →
    L.resolve (hi / 8) (jobOn L lo) true (effAddr ((s.dev.en lo).getA a) off 0) = .ok (.mem key) →
    H.resolve (hi / 8) (jobOn H hi) true (effAddr ((s.dev.en hi).getA b) off 0) = .ok (.mem key) →
    R.resolve (hi / 8) (jobOn R e) false (effAddr ((s.dev.en e).getA c) off 0) = .ok (.mem key) →
    ∃ t u v, exec (if first then .sts lo r a off k else .sts hi q b off k) s = .next t ∧
      exec (if first then .sts hi q b off k else .sts lo r a off k) t = .next u ∧ exec (.lds e d c off k) u = .next v ∧
      (u.dev.hm (hi / 8)).word (key + k) = (s.dev.en hi).getS q ∧ (v.dev.en e).getS d = (s.dev.hm (hi / 8)).word (key + k)

/-- R175, R177: a store whose checked words are permitted writes its enabled lanes and no other cell of memory; lanes that
hold no sample are ignored (R131). R196: of the stores of one cycle to one cell, that of the highest engine stays. The memory before is that
of `D`, the device at the issue of the store, which issue leaves alone. -/
def StoresWriteTheirLanes : Prop :=
  ∀ (s : State) (e : Eng) (a : AReg) (off : BitVec 10),
    (∀ (v : VReg) (p : PReg) (w : GWord),
      let D := s.dev.issue (.stt e v a off p) e
      D.resolve (e / 8) (jobOn D e) true (effAddr ((s.dev.en e).getA a) off 0) = .ok w →
      ∃ t, exec (.stt e v a off p) s = .next t ∧ SameFiles (s.dev.en e) (t.dev.en e) ∧
        StoresLanes e ((s.dev.en e).enabled p) (storedCell D w) ((s.dev.en e).getV v) D t.dev) ∧
    (∀ (v : VReg) (k : Fin 12) (p : PReg) (w : Nat → GWord),
      let D := s.dev.issue (.stc e v a off k p) e
      (∀ i, i < 8 → (s.dev.en e).lane p i = true → D.resolve (e / 8) (jobOn D e) true
        (effAddr ((s.dev.en e).getA a) off (2 * i + k / 8)) = .ok (w i)) →
      ∃ t, exec (.stc e v a off k p) s = .next t ∧ SameFiles (s.dev.en e) (t.dev.en e) ∧
        StoresLanes e ((s.dev.en e).enabled p) (fun i => storedCell D (w i) (k % 8)) ((s.dev.en e).getV v)
          D t.dev) ∧
    (∀ (r : SReg) (k : Lane) (w : GWord),
      let D := s.dev.issue (.sts e r a off k) e
      D.resolve (e / 8) (jobOn D e) true (effAddr ((s.dev.en e).getA a) off 0) = .ok w →
      ∃ t, exec (.sts e r a off k) s = .next t ∧ SameFiles (s.dev.en e) (t.dev.en e) ∧
        StoresLanes e [0] (fun _ => storedCell D w k) (fun _ => (s.dev.en e).getS r) D t.dev)

end Sys2Proof.Claims

/-- R175, R177, R196: the stores. -/
def Obligations.StoresWriteTheirLanesAndNothingElse : Prop := StoresWriteTheirLanes ∧ SameCycleAccessesAreOrdered

namespace Sys2Proof.Claims

/-- R178 to R180: a DLRD of a line of the job whose pages are present returns the samples at its positions; where the page of
an enabled lane is absent, the engine stalls on a demand miss, which is counted, and keeps what the line held when the read issued (R143, R179,
R210). -/
def DelayLineReadReturnsSamplesOrStalls : Prop :=
  ∀ (s : State) (e : Eng) (d : VReg) (a : SReg) (line : BitVec 12) (p : PReg),
    let D := (s.dev.issue (.dlrd e d a line p) e)
    let N := D.noteTap (e / 8) line.toNat ((s.dev.en e).getS a).toNat
    let ls := (s.dev.en e).enabled p
    ls ≠ [] → (jobOn D e).namesLine line.toNat = true →
    (N.absentPage (e / 8) line.toNat ((s.dev.en e).getS a).toNat ls = none →
      (∀ k ∈ ls, ∀ q, N.posOf line.toNat ((s.dev.en e).getS a).toNat k false = some q →
        N.poisonedAt (e / 8) line.toNat q = false) →
      ∃ t, exec (.dlrd e d a line p) s = .next t ∧ t.nv = s.nv ∧ OnlyLanes p d 1 (s.dev.en e) (t.dev.en e) ∧
        (t.dev.en e).flags = (s.dev.en e).flags ∧ (t.dev.hm (e / 8)).gw = (s.dev.hm (e / 8)).gw ∧
        (t.dev.hm (e / 8)).tiles = (s.dev.hm (e / 8)).tiles ∧ t.dev.hm (1 - e / 8) = s.dev.hm (1 - e / 8) ∧
        ∀ k ∈ ls, (t.dev.en e).getV d k =
          match N.posOf line.toNat ((s.dev.en e).getS a).toNat k false with
          | some q => (N.hm (e / 8)).seenAt (N.en e).now (posKey line.toNat q) (N.lineWord (e / 8) line.toNat q)
          | none => 0) ∧
    (∀ pg, N.absentPage (e / 8) line.toNat ((s.dev.en e).getS a).toNat ls = some pg →
      ∃ t, exec (.dlrd e d a line p) s = .next t ∧ t.nv = s.nv ∧ SameFiles (s.dev.en e) (t.dev.en e) ∧
        (t.dev.en e).pc = (s.dev.en e).pc ∧ (t.dev.en e).miss =
          some { d := d, sa := ((s.dev.en e).getS a).toNat, line := line.toNat, p := p, page := pg,
                 vals := N.dlSeen e line.toNat ((s.dev.en e).getS a).toNat ls } ∧
        (t.dev.sh (e / 8)).misses = (s.dev.sh (e / 8)).misses + 1)

/-- R178, R211: a DLWR of one sample, by a predicate with one enabled lane, into a resident page of the head pair of an
unprotected line of the job, which no higher engine writes in the same cycle (R196): the position then holds the sample, and the page is
dirty. -/
def DelayLineWriteStoresTheSample : Prop :=
  ∀ (s : State) (e : Eng) (v : VReg) (a : SReg) (line : BitVec 12) (p : PReg) (k : Nat) (x : Line) (q : Nat × Nat)
    (f : Nat) (fr : Frame),
    let D := s.dev.issue (.dlwr e v a line p) e
    (s.dev.en e).enabled p = [k] → (jobOn D e).namesLine line.toNat = true → line.toNat < 3072 →
    D.line line.toNat = some x → x.prot = false →
    D.posOf line.toNat ((s.dev.en e).getS a).toNat k true = some q → q.1 ∈ x.pair →
    (D.hm (e / 8)).frameOf line.toNat q.1 = some (f, fr) → fr.st ≠ .filling → ¬ Overtaken D e (posKey line.toNat q) →
    ∃ t, exec (.dlwr e v a line p) s = .next t ∧ SameFiles (s.dev.en e) (t.dev.en e) ∧
      (t.dev.hm (e / 8)).word (D.frameKey f + q.2) = (s.dev.en e).getV v k ∧
      (∀ w, w ≠ D.frameKey f + q.2 → (t.dev.hm (e / 8)).word w = (s.dev.hm (e / 8)).word w) ∧
      (Sparse.get {} (t.dev.hm (e / 8)).frames f).st = .dirty ∧ (t.dev.hm (e / 8)).tiles = (s.dev.hm (e / 8)).tiles ∧
      t.dev.hm (1 - e / 8) = s.dev.hm (1 - e / 8)

end Sys2Proof.Claims

/-- R178 to R180, R210, R211: reads and writes of delay lines. -/
def Obligations.DelayLineAccessesMoveSamples : Prop := DelayLineReadReturnsSamplesOrStalls ∧ DelayLineWriteStoresTheSample

namespace Sys2Proof.Claims

/-- R183: BIQ is a direct form I section over the five coefficients of the job's bank; its state moves on and the output is
rounded and saturated. -/
def BiquadAdvancesItsStateAndOutput : Prop :=
  ∀ (s : State) (e : Eng) (d src : VReg) (cix : BitVec 10) (lane : Bool) (p : PReg), d.val ≤ 27 →
    let g := s.dev.en e
    let co := fun c k => ((s.dev.issue (.biq e d src cix lane p) e).coef e cix lane c k).toInt
    let y := fun k => clamp31 (rneShift (co 0 k * (g.getV src k).toInt + co 1 k * (g.getV (d + 1) k).toInt
      + co 2 k * (g.getV (d + 2) k).toInt - co 3 k * (g.getV (d + 3) k).toInt - co 4 k * (g.getV (d + 4) k).toInt) 30)
    ∃ t, exec (.biq e d src cix lane p) s = .next t ∧ EngineFrame e s t ∧ OnlyLanes p d 5 g (t.dev.en e) ∧
      (∀ k, k < 8 → g.lane p k = true →
        (t.dev.en e).getV d k = (y k).1 ∧ (t.dev.en e).getV (d + 1) k = g.getV src k ∧
        (t.dev.en e).getV (d + 2) k = g.getV (d + 1) k ∧ (t.dev.en e).getV (d + 3) k = (y k).1 ∧
        (t.dev.en e).getV (d + 4) k = g.getV (d + 3) k) ∧
      FlagsFrom p (fun k => (y k).2) g (t.dev.en e)

/-- The new gain of R184: one step toward the target, never past it; a negative step freezes it. -/
def steppedGain (gain target step : Int) : Int :=
  if gain < target then min (gain + max step 0) target else max (gain - max step 0) target

/-- R184: GRAMP and GRAMPV move the gain by at most one step toward the target, and apply it. -/
def GainRampStepsTowardItsTarget : Prop :=
  ∀ (s : State) (e : Eng) (d src : VReg) (cix : BitVec 10) (lane : Bool) (p : PReg),
    let g := s.dev.en e
    (d.val ≤ 30 →
      let co := fun c k => ((s.dev.issue (.gramp e d src cix lane p) e).coef e cix lane c k).toInt
      let gn := fun k => steppedGain (g.getV (d + 1) k).toInt (co 0 k) (co 1 k)
      ∃ t, exec (.gramp e d src cix lane p) s = .next t ∧ EngineFrame e s t ∧ OnlyLanes p d 2 g (t.dev.en e) ∧
        FlagsFrom p (fun k => (clamp31 (rneShift ((g.getV src k).toInt * gn k) 31)).2) g (t.dev.en e) ∧
        ∀ k, k < 8 → g.lane p k = true → ((t.dev.en e).getV (d + 1) k).toInt = gn k ∧
          (t.dev.en e).getV d k = (clamp31 (rneShift ((g.getV src k).toInt * gn k) 31)).1) ∧
    (d.val ≤ 29 →
      let co := fun c k => ((s.dev.issue (.grampv e d src cix lane p) e).coef e cix lane c k).toInt
      let gn := fun k => steppedGain (g.getV (d + 1) k).toInt (g.getV (d + 2) k).toInt (co 1 k)
      ∃ t, exec (.grampv e d src cix lane p) s = .next t ∧ EngineFrame e s t ∧ OnlyLanes p d 2 g (t.dev.en e) ∧
        FlagsFrom p (fun k => (clamp31 (rneShift ((g.getV src k).toInt * gn k) 31)).2) g (t.dev.en e) ∧
        ∀ k, k < 8 → g.lane p k = true → ((t.dev.en e).getV (d + 1) k).toInt = gn k ∧
          (t.dev.en e).getV d k = (clamp31 (rneShift ((g.getV src k).toInt * gn k) 31)).1)

end Sys2Proof.Claims

/-- R183, R184: the biquad and the gain ramp. -/
def Obligations.AudioPrimitivesAdvance : Prop := BiquadAdvancesItsStateAndOutput ∧ GainRampStepsTowardItsTarget

namespace Sys2Proof.Claims

/-- R188, R190: branches. A branch not taken goes on; a taken one goes to PC + offset. No register changes. -/
def BranchesGoToTheirTarget : Prop :=
  ∀ (s : State) (e : Eng) (off : BitVec 20) (a : SReg) (q : PReg),
    let g := s.dev.en e
    let target := ((g.pc : Int) + off.toInt).toNat
    (∃ t, exec (.br e off) s = .next t ∧ EngineFrame e s t ∧ SameFiles g (t.dev.en e) ∧ (t.dev.en e).pc = target) ∧
    (∃ t, exec (.bz e a off) s = .next t ∧ EngineFrame e s t ∧ SameFiles g (t.dev.en e) ∧
      (g.getS a = 0 → (t.dev.en e).pc = target) ∧ (g.getS a ≠ 0 → g.loops = [] → (t.dev.en e).pc = g.pc + 1)) ∧
    (∃ t, exec (.bnz e a off) s = .next t ∧ EngineFrame e s t ∧ SameFiles g (t.dev.en e) ∧
      (g.getS a ≠ 0 → (t.dev.en e).pc = target) ∧ (g.getS a = 0 → g.loops = [] → (t.dev.en e).pc = g.pc + 1)) ∧
    (∃ t, exec (.bpz e q off) s = .next t ∧ EngineFrame e s t ∧ SameFiles g (t.dev.en e) ∧
      (g.getP q = 0 → (t.dev.en e).pc = target) ∧ (g.getP q ≠ 0 → g.loops = [] → (t.dev.en e).pc = g.pc + 1))

/-- R188, R189: a LOOP with a count starts its body, and one with a count of 0 goes to the instruction after its body; CALL
pushes and goes to its target, and RET goes to the instruction after its CALL. -/
def LoopsAndCallsTransferControl : Prop :=
  ∀ (s : State) (e : Eng) (count : BitVec 12) (len : BitVec 8) (a : SReg) (ceil : BitVec 12) (off : BitVec 20) (q : Nat)
    (cs : List Nat),
    let g := s.dev.en e
    let frame := fun n : Nat => LoopFrame.mk (g.pc + 1) (g.pc + (len.toNat + 1)) 0 n g.calls.length
    (∃ t, exec (.loop e count len) s = .next t ∧ EngineFrame e s t ∧ SameFiles g (t.dev.en e) ∧
      (count ≠ 0 → (t.dev.en e).pc = g.pc + 1 ∧ (t.dev.en e).loops = frame count.toNat :: g.loops) ∧
      (count = 0 → g.loops = [] → (t.dev.en e).pc = g.pc + len.toNat + 2 ∧ (t.dev.en e).loops = [])) ∧
    (ceil ≠ 0 → ∃ t, exec (.loopReg e a ceil len) s = .next t ∧ EngineFrame e s t ∧ SameFiles g (t.dev.en e) ∧
      (g.getS a ≠ 0 → (t.dev.en e).pc = g.pc + 1 ∧
        (t.dev.en e).loops = frame (min (g.getS a).toNat ceil.toNat) :: g.loops) ∧
      (g.getS a = 0 → g.loops = [] → (t.dev.en e).pc = g.pc + len.toNat + 2 ∧ (t.dev.en e).loops = [])) ∧
    (off ≠ 0 → ∃ t, exec (.call e off) s = .next t ∧ EngineFrame e s t ∧ SameFiles g (t.dev.en e) ∧
      (t.dev.en e).pc = ((g.pc : Int) + off.toInt).toNat ∧ (t.dev.en e).calls = g.pc :: g.calls) ∧
    (g.calls = q :: cs → (∀ l ∈ g.loops, l.depth > cs.length) →
      ∃ t, exec (.ret e) s = .next t ∧ EngineFrame e s t ∧ SameFiles g (t.dev.en e) ∧
        (t.dev.en e).pc = q + 1 ∧ (t.dev.en e).calls = cs ∧ (t.dev.en e).loops = [])

end Sys2Proof.Claims

/-- R188, R189: branches, loops, calls and returns. -/
def Obligations.ControlInstructionsTransferControl : Prop := BranchesGoToTheirTarget ∧ LoopsAndCallsTransferControl

/-- R189: at the last instruction of a body that no other active loop shares, the next iteration starts at the body's first
instruction, and after the last iteration the loop ends. Shown for the instruction that does nothing else. -/
def Obligations.LoopBodyRepeatsUntilItsCount : Prop :=
  (∀ (s : State) (e : Eng), (s.dev.en e).loops = [] →
    ∃ t, exec (.nop e) s = .next t ∧ EngineFrame e s t ∧ SameFiles (s.dev.en e) (t.dev.en e) ∧
      (t.dev.en e).pc = (s.dev.en e).pc + 1) ∧
  (∀ (s : State) (e : Eng) (l : LoopFrame), (s.dev.en e).loops = [l] → l.depth = (s.dev.en e).calls.length →
    l.last = (s.dev.en e).pc →
    ∃ t, exec (.nop e) s = .next t ∧ EngineFrame e s t ∧ SameFiles (s.dev.en e) (t.dev.en e) ∧
      (l.iter + 1 < l.count → (t.dev.en e).pc = l.start ∧ (t.dev.en e).loops = [{ l with iter := l.iter + 1 }]) ∧
      (¬ l.iter + 1 < l.count → (t.dev.en e).pc = (s.dev.en e).pc + 1 ∧ (t.dev.en e).loops = []))

namespace Sys2Proof.Claims

/-- The `sd` that a WAIT of `n` cycles issued in cycle `i` of the compute window takes, its flag being set in cycle `a` (R145): 1 where the
flag is seen before the timeout, 0 after it. Of a flag that comes in the very cycle of the timeout nothing is said (log entry 135). -/
def WaitGives (x : Word) (i n a : Nat) : Prop := (a < i ∨ a + 1 < i + n → x = 1) ∧ (i + n < a + 1 → x = 0)

/-- R145, R188: SIGNAL sets its flag in the hearth and completes the WAITs on that flag; WAIT completes where the flag is set and otherwise
stalls; after T cycles it completes with 0. -/
def SignalAndWaitMeet : Prop :=
  ∀ (s : State) (e : Eng) (f : Fin 16) (d : SReg) (c : BitVec 12),
    (∃ t, exec (.signal e f) s = .next t ∧ t.nv = s.nv ∧ (t.dev.sync (e / 8)).getLsbD f = true ∧
      (∀ k, k < 16 → k ≠ f.val → (t.dev.sync (e / 8)).getLsbD k = (s.dev.sync (e / 8)).getLsbD k) ∧
      (∀ q : Eng, q ≠ e → q.val / 8 = e.val / 8 → ∀ w, (s.dev.en q).wait = some w → w.flag = f.val →
        WaitGives ((t.dev.en q).getS w.d) ((s.dev.en q).base + w.at_) w.t ((s.dev.issue (.signal e f) e).en e).now ∧
        (t.dev.en q).wait = none) ∧
      (∀ q : Eng, q ≠ e → (q.val / 8 ≠ e.val / 8 ∨ ∀ w, (s.dev.en q).wait = some w → w.flag ≠ f.val) →
        t.dev.en q = s.dev.en q)) ∧
    (c ≠ 0 → (s.dev.sync (e / 8)).getLsbD f = true →
      ∃ t, exec (.wait e d f c) s = .next t ∧ EngineFrame e { s with dev := { s.dev with free := s.dev.free + 1 } } t ∧
        OnlyScalar d (s.dev.en e) (t.dev.en e) ∧ (t.dev.en e).wait = none ∧
        WaitGives ((t.dev.en e).getS d) ((s.dev.issue (.wait e d f c) e).en e).now c.toNat
          (Sparse.get 0 s.dev.eng.syncAt (16 * (e / 8) + f))) ∧
    (c ≠ 0 → (s.dev.sync (e / 8)).getLsbD f = false →
      ∃ t, exec (.wait e d f c) s = .next t ∧ EngineFrame e s t ∧ SameFiles (s.dev.en e) (t.dev.en e) ∧
        (t.dev.en e).pc = (s.dev.en e).pc ∧
        ∃ w, (t.dev.en e).wait = some w ∧ w.d = d.val ∧ w.flag = f.val ∧ w.t = c.toNat) ∧
    (∀ w, (s.dev.en e).wait = some w →
      ∃ t, exec (.waitTimeout e) s = .next t ∧ EngineOnly e s t ∧ OnlyScalar w.d (s.dev.en e) (t.dev.en e) ∧
        (t.dev.en e).getS w.d = 0 ∧ (t.dev.en e).wait = none)

/-- The events enter a FIFO with room, and none is waiting: the entry `x` is the one posted, with the next sequence number
and SCH_TICK (R71). -/
def Enters (s t : State) (src code arg : Nat) : Prop :=
  t.dev.evq.q = s.dev.evq.q ++
    [{ src := src, code := code, seq := s.dev.evq.seq % 65536, tick := s.dev.tick % 2 ^ 32, arg := arg }] ∧
  t.dev.evq.seq = s.dev.evq.seq + 1

/-- The event FIFO has room for a dozen entries, nothing waits to enter it and nothing lost waits to be reported. -/
def Room (s : State) : Prop :=
  s.dev.evq.q.length < 500 ∧ s.dev.evq.posts = [] ∧ s.dev.evq.lostPend = 0

/-- R147: POST posts event 0x80 + c with the value, the job and the engine, at most four times per run; a further POST counts
in ENG_PDROP and sets POSTDROP. -/
def PostEntersTheFifoFourTimesPerRun : Prop :=
  ∀ (s : State) (e : Eng) (a : SReg) (c : BitVec 7), s.dev.on (Reg.ENG_BRK_EN e) = false → Room s →
    ((s.dev.en e).posts < 4 → ∃ t, exec (.post e a c) s = .next t ∧ EngineOnly e s t ∧
      SameFiles (s.dev.en e) (t.dev.en e) ∧ (t.dev.en e).posts = (s.dev.en e).posts + 1 ∧ t.dev.live = s.dev.live ∧
      Enters s t (20 + e / 8) (0x80 + c.toNat)
        (((s.dev.en e).getS a).toNat + (s.dev.en e).job % 1024 * 2 ^ 32 + e % 8 * 2 ^ 42)) ∧
    (4 ≤ (s.dev.en e).posts → ∃ t, exec (.post e a c) s = .next t ∧ EngineOnly e s t ∧
      SameFiles (s.dev.en e) (t.dev.en e) ∧ t.dev.evq.q = s.dev.evq.q ∧
      t.dev.rd (Reg.ENG_PDROP_COUNT e) = (s.dev.rd (Reg.ENG_PDROP_COUNT e) + 1) % 2 ^ 32 ∧
      t.dev.rd (Reg.ENG_STATUS_POSTDROP e) = 1)

end Sys2Proof.Claims

/-- R145 to R147: sync flags and posts. -/
def Obligations.SignalsWaitsAndPosts : Prop := SignalAndWaitMeet ∧ PostEntersTheFifoFourTimesPerRun

/-- R122, R112, R128: END ends the run: the engine no longer runs, its sticky flags are ORed into ENG_FLAGS, and the job's
outcome of the tick is SV, or DF for a slack run of a deferred job. -/
def Obligations.EndClosesTheRun : Prop :=
  ∀ (s : State) (e : Eng), (s.dev.en e).running = true →
    ∃ t, exec (.endRun e) s = .next t ∧ t.nv = s.nv ∧ (t.dev.en e).running = false ∧
      SameFiles (s.dev.en e) (t.dev.en e) ∧
      t.dev.rd (Reg.ENG_FLAGS_FLAGS e) = s.dev.rd (Reg.ENG_FLAGS_FLAGS e) ||| (s.dev.en e).flags.toNat ∧
      t.dev.resOf (s.dev.en e).job = (if (s.dev.en e).slack then (ocDF, 0x4E) else (ocSV, 0)) ∧
      (∀ q, q ≠ e.val → t.dev.en q = s.dev.en q)

/-- R167: an operand that encodes no defined word: the model stops with the fault of that name, and nothing else does. -/
def Obligations.UndefinedWordsFault : Prop :=
  ∀ (s : State) (i : Instr), (∃ w, encodeWord i = some w) →
    (i.wf = false → exec i s = .fault .undefinedWord) ∧ (i.wf = true → ∃ t, exec i s = .next t)

/-- R127, R174: the special cases of binary32: a NaN operand gives 0x7FC0_0000 and sets neither FINV nor FOVF nor FDZ;
∞ − ∞, 0 × ∞, 0/0 and ∞/∞ give it with FINV; a nonzero value divided by zero gives a signed infinity with FDZ. -/
def Obligations.FloatSpecialCases : Prop :=
  (∀ a b, (fpOf a).1 = .nan ∨ (fpOf b).1 = .nan →
    ∀ r ∈ [faddOp a b, fsubOp a b, fmulOp a b, fdivOp a b],
      r.1 = 0x7FC00000 ∧ r.2.getLsbD 2 = false ∧ r.2.getLsbD 3 = false ∧ r.2.getLsbD 4 = false) ∧
  (∀ a b n, (fpOf a).1 = .inf n → (fpOf b).1 = .inf n → fsubOp a b = (0x7FC00000, 4) ∧ fdivOp a b = (0x7FC00000, 4)) ∧
  (∀ a b n m e, (fpOf a).1 = .inf n → (fpOf b).1 = .fin m 0 e → (fmulOp a b).1 = 0x7FC00000 ∧
    (fmulOp a b).2.getLsbD 2 = true) ∧
  (∀ a b n m e k, (fpOf a).1 = .fin n 0 e → (fpOf b).1 = .fin m 0 k → (fdivOp a b).1 = 0x7FC00000 ∧
    (fdivOp a b).2.getLsbD 2 = true) ∧
  (∀ a b n m e x k, (fpOf a).1 = .fin n x e → x ≠ 0 → (fpOf b).1 = .fin m 0 k →
    (fdivOp a b).1 = BitVec.ofNat 32 ((if n = m then 0 else 2 ^ 31) + 255 * 2 ^ 23) ∧ (fdivOp a b).2.getLsbD 4 = true) ∧
  (∀ a, (a.toNat / 2 ^ 23 % 256 = 0 ∧ a.toNat % 2 ^ 23 ≠ 0) → (fpOf a).2 = 32 ∧ ∃ n, (fpOf a).1 = .fin n 0 0)

namespace Sys2Proof.Claims

/-- R125, R127 (the `rne` of spec/05): the rounding is to the nearest multiple, and a tie goes to the even one. -/
def RoundingIsToNearestTiesToEven : Prop :=
  ∀ (y : Int) (k : Nat),
    2 * |y - rneShift y k * 2 ^ k| ≤ 2 ^ k ∧ (0 < k → 2 * |y - rneShift y k * 2 ^ k| = 2 ^ k → rneShift y k % 2 = 0)

/-- R127: a finite binary32 result is the value nearest to the exact one, a tie going to the even significand; one above the
range becomes an infinity with FOVF, and one below the normal range zero of its sign with FDEN. -/
def BinaryResultsAreNearest : Prop :=
  ∀ (neg : Bool) (m : Nat) (e : Int), 0 < m →
    let r := fround neg m e false
    (r.2 = 0 → ∃ (q : Nat) (x : Int), 2 ^ 23 ≤ q ∧ q < 2 ^ 24 ∧ -149 ≤ x ∧ x ≤ 104 ∧
      r.1.toNat = (if neg then 2 ^ 31 else 0) + (x + 150).toNat * 2 ^ 23 + (q - 2 ^ 23) ∧
      2 * |(m : Rat) * 2 ^ e - (q : Rat) * 2 ^ x| ≤ 2 ^ x ∧
      (2 * |(m : Rat) * 2 ^ e - (q : Rat) * 2 ^ x| = 2 ^ x → q % 2 = 0)) ∧
    (r.2 ≠ 0 → (r.2 = 8 ∧ (2 : Rat) ^ (127 : Int) < (m : Rat) * 2 ^ e) ∨
      (r.2 = 32 ∧ (m : Rat) * 2 ^ e < (2 : Rat) ^ (-126 : Int)))

end Sys2Proof.Claims

/-- R125, R127: both roundings of the engines, that of fixed point and that of binary32, are to the nearest value, ties to even. -/
def Obligations.RoundedResultsAreNearest : Prop := RoundingIsToNearestTiesToEven ∧ BinaryResultsAreNearest

/-- R133, R176: a load that breaks the access rules returns 0 in every enabled lane, and a store that breaks them in any
checked word writes nothing; the violation is counted. R181, R134: a DLRD or DLWR of a line outside the job's range, and a
DLWR of a message store line, is an access violation and moves nothing. -/
def Obligations.RefusedAccessesMoveNothing : Prop :=
  (∀ (s : State) (e : Eng) (d : VReg) (a : AReg) (off : BitVec 10) (k : Fin 12) (p : PReg) (i : Nat) (kd : Nat),
    let D := s.dev.issue (.ldc e d a off k p) e
    i < 8 → (s.dev.en e).lane p i = true →
    D.resolve (e / 8) (jobOn D e) false (effAddr ((s.dev.en e).getA a) off (2 * i + k / 8)) = .error kd →
    ∃ t, exec (.ldc e d a off k p) s = .next t ∧ EngineOnly e s t ∧ OnlyLanes p d 1 (s.dev.en e) (t.dev.en e) ∧
      (∀ q, q < 8 → (s.dev.en e).lane p q = true → (t.dev.en e).getV d q = 0) ∧ ViolationCounted e s t) ∧
  (∀ (s : State) (e : Eng) (v : VReg) (a : AReg) (off : BitVec 10) (k : Fin 12) (p : PReg) (i : Nat) (kd : Nat),
    let D := s.dev.issue (.stc e v a off k p) e
    i < 8 → (s.dev.en e).lane p i = true →
    D.resolve (e / 8) (jobOn D e) true (effAddr ((s.dev.en e).getA a) off (2 * i + k / 8)) = .error kd →
    ∃ t, exec (.stc e v a off k p) s = .next t ∧ EngineOnly e s t ∧ SameFiles (s.dev.en e) (t.dev.en e) ∧
      t.dev.mem = s.dev.mem ∧ ViolationCounted e s t) ∧
  (∀ (s : State) (e : Eng) (v : VReg) (a : SReg) (line : BitVec 12) (p : PReg), (s.dev.en e).enabled p ≠ [] →
      ((jobOn (s.dev.issue (.dlrd e v a line p) e) e).namesLine line.toNat = false →
        ∃ t, exec (.dlrd e v a line p) s = .next t ∧ OnlyLanes p v 1 (s.dev.en e) (t.dev.en e) ∧
          (∀ k, k < 8 → (s.dev.en e).lane p k = true → (t.dev.en e).getV v k = 0) ∧
          t.dev.mem = s.dev.mem ∧ ViolationCounted e s t) ∧
      (((jobOn (s.dev.issue (.dlwr e v a line p) e) e).namesLine line.toNat = false ∨ 3072 ≤ line.toNat) →
        ∃ t, exec (.dlwr e v a line p) s = .next t ∧ SameFiles (s.dev.en e) (t.dev.en e) ∧
          t.dev.mem = s.dev.mem ∧ ViolationCounted e s t))

/-! ### The queue, the interrupt outputs, the fuses, reset and the engine words -/

/-- The model's own queue (the form of the row, no rule of the spec): a step executes the command at the front of the queue on the
state with the rest of the queue; with no command waiting it idles, which is a design choice of the assumption log. -/
def Obligations.StepTakesTheFrontCommand : Prop :=
  (∀ (s : State) (c : Instr) (rest : List Instr), s.pending = c :: rest → step s = exec c { s with pending := rest }) ∧
  (∀ s : State, s.pending = [] → step s = .next s)

/-- No command changes the queue of the commands that wait: exec acts on everything but the queue. -/
def Obligations.CommandsKeepTheQueue : Prop :=
  ∀ (c : Instr) (s t : State), exec c s = .next t → t.pending = s.pending

namespace Sys2Proof.Claims

/-- Between commands no event waits to be entered, the FIFO holds at most 512 entries (R71), and the vectors whose condition
is 1 are those that have an enabled and pending source (R69). -/
def Settled (s : State) : Prop :=
  s.dev.evq.posts = [] ∧ s.dev.evq.q.length ≤ 512 ∧
  ∀ v, v ∈ s.dev.intr.cond ↔ v < 32 ∧ ∃ i, i < 25 ∧ s.dev.vectorOf i = v ∧
    s.dev.rd Reg.INT_EN_EN / 2 ^ i % 2 = 1 ∧ s.dev.request i = true

/-- The stores of the machine are in canonical form: keys rising, no entry equal to what an unlisted address reads as, which is 0
in grate memory, its tiles, the DRAM channels and an ember copy, and an erased byte in the boot flash. -/
def MemoryWf (s : State) : Prop :=
  Sparse.wf (fun _ => (0xFF : Byte)) s.nv.flash = true ∧
  (∀ i, i < 2 → Sparse.wf (fun _ => (0 : Word)) (s.dev.hm i).tiles = true ∧ Sparse.wf (fun _ => (0 : Word)) (s.dev.hm i).gw = true ∧
    Sparse.wf (fun _ => (0 : Word)) (s.dev.ch i).words = true) ∧
  ∀ c, s.dev.hrt.copy = some c → Sparse.wf (fun _ => (0 : Word)) c.words = true

end Sys2Proof.Claims

/-- R67 to R71: every step keeps the event FIFO and the interrupt conditions in agreement with the registers. -/
def Obligations.InterruptConditionsFollowTheRegisters : Prop :=
  ∀ s t : State, Settled s → step s = .next t → Settled t

namespace Sys2Proof.Claims

/-- Every receive flow's HIGHSEQ is a 16-bit number (R235). -/
def SequenceWf (s : State) : Prop := ∀ f, (s.dev.rxf f).high < 65536

end Sys2Proof.Claims

/-- R478: the version fuses only blow; and every step keeps every store of the machine in its canonical form, so that equal
memories are equal data, and every HIGHSEQ a 16-bit number. -/
def Obligations.StepsKeepMemoriesCanonicalAndFusesBlown : Prop :=
  ∀ s t : State, step s = .next t → s.nv.version ≤ t.nv.version ∧ (MemoryWf s → MemoryWf t) ∧ (SequenceWf s → SequenceWf t)

/-- R4, R30, R474: right after reset nothing waits, every register word, live and shadow, holds its reset value, the values of a
few words being spelled out from spec/02, and the invariants hold. -/
def Obligations.ResetLeavesTheResetValues : Prop :=
  State.reset.pending = [] ∧
  (∀ a, State.reset.dev.word a = resetWord a ∧ State.reset.dev.shadowWord a = resetWord a &&& rwsMask a) ∧
  State.reset.dev.word 0x100C = 0xC8FC ∧ State.reset.dev.word 0x1010 = 0x43200100 ∧
  State.reset.dev.word 0x1014 = 0xAA098765 ∧ State.reset.dev.word 0x1018 = 0xFEDCCB ∧
  State.reset.dev.word 0x2000 = 0 ∧ State.reset.dev.rd Reg.INT_EVQ_CFG_THRESH = 1 ∧
  State.reset.dev.rd Reg.DUMP_CFG_MASK = 0x3B ∧ State.reset.dev.evq.q = [] ∧ State.reset.dev.schTick = 0 ∧
  Settled State.reset ∧ MemoryWf State.reset ∧ SequenceWf State.reset

/-- R153, R165, R166: decoding the word of a well-formed engine instruction gives the instruction back, with every operand at
every value; and whatever the decoder accepts is well formed and has that word. -/
def Obligations.DecodingInvertsEncoding : Prop :=
  (∀ (i : Instr) (w : Nat), i.wf = true → encodeWord i = some w → w < 2 ^ 32 ∧ ∃ e, decodeWord e w = some i) ∧
  (∀ (e : Eng) (w : Nat) (i : Instr), decodeWord e w = some i → i.wf = true ∧ encodeWord i = some w)

/-- R165 to R167: words written out from the encodings of spec/05 decode to the instructions they stand for, and words of no
defined instruction do not decode. -/
def Obligations.EngineWordsDecodeToTheirInstructions : Prop :=
  ∀ e : Eng, decodeWord e 0x61834000 = some (.ldc e 12 0 0 0 3) ∧ decodeWord e 0x31CC0005 = some (.vdup e 14 12 0 0) ∧
    decodeWord e 0x900D0800 = some (.mixl e 0 13 0 false 0) ∧ decodeWord e 0x821A2028 = some (.biq e 16 26 40 true 0) ∧
    decodeWord e 0x43400003 = some (.wextl e 26 0 0 0) ∧ decodeWord e 0x86B02050 = some (.gramp e 21 16 80 true 0) ∧
    decodeWord e 0xF8000000 = some (.endRun e) ∧ decodeWord e 0xFFFFFFFF = none

/-! ### Register accesses, commits and the configuration CRC -/

namespace Sys2Proof.Claims

/-- The command completes in `t`, and neither fuses and flash nor the queue change. -/
def Runs (c : Instr) (s t : State) : Prop := exec c s = .next t ∧ t.nv = s.nv ∧ t.pending = s.pending

/-- Device `d` with the registers, the events, the interrupt outputs and the power events of `d'`: what every host command
may change beside its own component. -/
def Around (d d' : Dev) : Dev := { d with live := d'.live, evq := d'.evq, intr := d'.intr, pwr := d'.pwr }

/-- No register word but those at the addresses `as` changes. -/
def SameWords (as : List Nat) (s t : State) : Prop := ∀ a, a ∉ as → t.dev.word a = s.dev.word a

/-- Every register field that shares no bit with the fields of `fs` keeps its value. -/
def OnlyFields (fs : List Fld) (s t : State) : Prop :=
  ∀ g : Fld, g.hi < 32 → (∀ f ∈ fs, f.addr ≠ g.addr ∨ f.hi < g.lo ∨ g.hi < f.lo) → t.dev.rd g = s.dev.rd g

/-- Host `h` may issue the command of the CMD field `f` now: it owns writes, no lock forbids it, and the block is not stopped in
the power state in force (R49, R486). `args` tells that the command's word also holds argument fields. -/
def Ready (s : State) (h : Agent) (f : Fld) (args : Bool) : Prop :=
  s.dev.cmdViolation h f args = none ∧ s.dev.stopped (blockOf f.addr) = false

/-- The events `es`, in this order, are all that has entered the FIFO (R71). -/
def EntersAll (s t : State) (es : List (Nat × Nat × Nat)) : Prop :=
  t.dev.evq.q = s.dev.evq.q ++ es.zipIdx.map fun e =>
    { src := e.1.1, code := e.1.2.1, seq := (s.dev.evq.seq + e.2) % 65536, tick := s.dev.tick % 2 ^ 32, arg := e.1.2.2 }

/-- A control word whose writes act at once on its own fields alone: no CMD field, not in the slow domain, and none of the words
of write ownership and of the count of lost events, which other state holds. -/
def PlainWord (w : Nat) : Prop :=
  w % 4 = 0 ∧ w < 0x40000 ∧ w ∉ [0x20, 0x24, 0x3058] ∧ slowWord w = false ∧ ∀ r ∈ rowsAt w, r.ty ≠ .cmd

/-- A write by `h` of the bits `m` of the control word at `w` is no lock violation (R49). -/
def MayWrite (s : State) (h : Agent) (w : Nat) (m : Word) : Prop :=
  s.dev.violation h w ((touched w m).map (·.ty))
    ((touched w m).any fun r => r.ty == .wo1 && s.dev.fab.wo1.contains (32 * w + r.fld.lo)) = none

/-- Bit `i` of the control word at `w` belongs to a field whose type satisfies `p`. -/
def BitOf (p : Ty → Bool) (w i : Nat) : Prop := ∃ r ∈ rowsAt w, p r.ty = true ∧ r.fld.lo ≤ i ∧ i ≤ r.fld.hi

/-- The bits `m` of `data` have landed in the control word at `w` (R29): RWS bits in the shadow copy, RWL, WO1, HRW and CNT bits
in the live copy; bits of other types, reserved bits and bits outside `m` keep their values. -/
def Landed (w : Nat) (data m : Word) (s t : State) : Prop :=
  (∀ i, i < 32 → BitOf (fun ty => ty == .rws) w i → m.getLsbD i = true →
    (t.dev.shadowWord w).getLsbD i = data.getLsbD i) ∧
  (∀ i, i < 32 → ¬ BitOf (fun ty => ty == .rws) w i ∨ m.getLsbD i = false →
    (t.dev.shadowWord w).getLsbD i = (s.dev.shadowWord w).getLsbD i) ∧
  (∀ i, i < 32 → BitOf (fun ty => ty == .rwl || ty == .wo1 || ty == .hrw || ty == .cnt) w i → m.getLsbD i = true →
    ¬ (w = 0x2000 ∧ i = 23) → (t.dev.word w).getLsbD i = data.getLsbD i) ∧
  (∀ i, i < 32 → ¬ BitOf (fun ty => ty == .rwl || ty == .wo1 || ty == .hrw || ty == .cnt) w i ∨ m.getLsbD i = false ∨
    (w = 0x2000 ∧ i = 23) → (t.dev.word w).getLsbD i = (s.dev.word w).getLsbD i) ∧
  SameWords [w] s t ∧ (∀ a, a ≠ w → t.dev.shadowWord a = s.dev.shadowWord a) ∧
  t.dev = { Around s.dev t.dev with
    shadow := t.dev.shadow
    fab := { s.dev.fab with wo1 := t.dev.fab.wo1, scan := t.dev.fab.scan, staged := t.dev.fab.staged } }

/-- What a landing in the slow domain leaves beside the written word: `s` with the queue `q`, the refreshed copy (R65) and
the target state that PWR chooses at the edge (R487). -/
def AfterEdge (s t : State) (q : List SlowOp) : State :=
  let d : Dev := { s.dev with fab := { s.dev.fab with slowQ := q, copy := t.dev.fab.copy, copyAt := t.dev.fab.copyAt } }
  { s with dev := d.wr Reg.PWR_STATUS_TARGET (t.dev.rd Reg.PWR_STATUS_TARGET) }

/-- The bits `m` of `data` have landed in the slow-domain word at `w`, and the copies show the words as they are now (R65, R66). -/
def LandedSlow (w : Nat) (data m : Word) (q : List SlowOp) (s t : State) : Prop :=
  Landed w data m (AfterEdge s t q) t ∧ t.dev.rd Reg.PWR_STATUS_TARGET = t.dev.powerTarget ∧ t.dev.fab.slowQ = q ∧
  t.dev.fab.copyAt = s.dev.timeNs ∧ ∀ a, slowWord a = true → t.dev.copyWord a = t.dev.word a

end Sys2Proof.Claims

/-- R24, R26, R29, R34, R66: a whole-word write to a control word loads its RWS bits into the shadow copy and its RWL, WO1, HRW
and CNT bits into the live copy, and changes no other bit and no other word; where the hardware writes an HRW field in the same
cycle its value stands and WRLOST is set; a partial write is ignored and sets PARTIAL; a write to a slow-domain word waits in the
queue, behind at most 15 others, the oldest landing first where 16 wait, and its landing loads it. -/
def Obligations.RegisterWritesLoadTheirBits : Prop :=
  (∀ (s : State) (h : Agent) (w : Addr) (data : Word), PlainWord w → MayWrite s h w 0xFFFFFFFF →
    ∃ t, Runs (.registerWrite h w data 0xF false) s t ∧ Landed w data 0xFFFFFFFF s t) ∧
  (∀ (s : State) (h : Agent) (w : Addr) (data : Word) (be : BitVec 4), w.val < 0x40000 → be ≠ 0xF →
    ∃ t, Runs (.registerWrite h w data be false) s t ∧ OnlyFields [Reg.CMT_STATUS_PARTIAL] s t ∧
      t.dev.rd Reg.CMT_STATUS_PARTIAL = 1 ∧ t.dev = Around s.dev t.dev) ∧
  (∀ (s : State) (h : Agent) (w : Addr) (data : Word), PlainWord w → MayWrite s h w 0xFFFFFFFF →
    BitOf (fun ty => ty == .hrw) w 0 →
    ∃ t, Runs (.registerWrite h w data 0xF true) s t ∧ t.dev.rd Reg.HIF_STATUS_WRLOST = 1 ∧
      (∀ i, i < 32 → BitOf (fun ty => ty == .hrw) w i → (t.dev.word w).getLsbD i = (s.dev.word w).getLsbD i)) ∧
  (∀ (s : State) (h : Agent) (w : Addr) (data : Word), w.val % 4 = 0 → w.val < 0x40000 → slowWord w = true →
    rowsAt w ≠ [] → MayWrite s h w 0xFFFFFFFF →
    (h = .spi ∨ s.dev.slowWrites < 16 →
      ∃ t, Runs (.registerWrite h w data 0xF false) s t ∧ t.dev.live = s.dev.live ∧
        t.dev = { Around s.dev t.dev with
          fab := { s.dev.fab with slowQ := s.dev.fab.slowQ ++ [.write h w 0xFFFFFFFF data] } }) ∧
    ∀ (g : Agent) (v : Nat) (m old : Word) (r : List SlowOp), h ≠ .spi → s.dev.slowWrites = 16 →
      s.dev.fab.slowQ = .write g v m old :: r → slowWord v = true → (∀ x ∈ rowsAt v, x.ty ≠ .cmd) →
      ∃ t, Runs (.registerWrite h w data 0xF false) s t ∧
        LandedSlow v old m (r ++ [.write h w 0xFFFFFFFF data]) s t) ∧
  (∀ (s : State) (h : Agent) (w : Nat) (m data : Word) (r : List SlowOp), s.dev.fab.slowQ = .write h w m data :: r →
    slowWord w = true → (∀ x ∈ rowsAt w, x.ty ≠ .cmd) →
    ∃ t, Runs .slowWriteLand s t ∧ LandedSlow w data m r s t)

/-- R59 to R63: a write through the alias window changes the bits of the target word that the view in force names, with the
effect of a whole-word write of the merged value, WRLOST where the hardware writes an HRW field in the same cycle, and a partial
write into the window is ignored. -/
def Obligations.WindowWritesChangeTheBitsTheyName : Prop :=
  (∀ (s : State) (h : Agent) (a : Addr) (w : Nat) (data : Word), s.dev.rd Reg.HIF_CFG_ATOM = 0 → PlainWord w →
    ((a.val = 0x800000 + w → MayWrite s h w (data >>> 16) →
      ∃ t, Runs (.maskedWrite h a data 0xF false) s t ∧ Landed w (data &&& 0xFFFF) (data >>> 16) s t) ∧
     (a.val = 0xC00000 + w → MayWrite s h w (data &&& 0xFFFF0000) →
      ∃ t, Runs (.maskedWrite h a data 0xF false) s t ∧ Landed w (data <<< 16) (data &&& 0xFFFF0000) s t))) ∧
  (∀ (s : State) (h : Agent) (a : Addr) (w b : Nat) (data : Word), s.dev.rd Reg.HIF_CFG_ATOM = 1 → PlainWord w → b < 32 →
    a.val = 0x800000 + w * 32 + b * 4 → MayWrite s h w (1 <<< b) →
    (∃ t, Runs (.bitAliasWrite h a data 0xF false) s t ∧ Landed w (if data.getLsbD 0 then 1 <<< b else 0) (1 <<< b) s t) ∧
    (BitOf (fun ty => ty == .hrw) w b →
      ∃ t, Runs (.bitAliasWrite h a data 0xF true) s t ∧ t.dev.rd Reg.HIF_STATUS_WRLOST = 1 ∧ t.dev.word w = s.dev.word w)) ∧
  (∀ (s : State) (h : Agent) (a : Addr) (data : Word) (be : BitVec 4), 0x800000 ≤ a.val → be ≠ 0xF →
    ∀ c ∈ [Instr.maskedWrite h a data be false, Instr.bitAliasWrite h a data be false, Instr.registerWrite h a data be false],
    ∃ t, Runs c s t ∧ OnlyFields [Reg.CMT_STATUS_PARTIAL] s t ∧ t.dev.rd Reg.CMT_STATUS_PARTIAL = 1 ∧
      t.dev = Around s.dev t.dev)

namespace Sys2Proof.Claims

/-- The host, the CMD field, and whether the word holds argument fields, of the commands that a host writes into a CMD field. -/
def hostRow : Instr → Option (Agent × Fld × Bool)
  | .ack h _ => some (h, Reg.ALM_CMD_ACK, false) | .kick h => some (h, Reg.ALM_WDKICK_KICK, false)
  | .start h => some (h, Reg.ALM_CMD_START, false) | .almRelease h => some (h, Reg.ALM_CMD_RELEASE, false)
  | .jobRead h _ => some (h, Reg.SCH_JCMD_GO, true) | .admitJob h _ => some (h, Reg.SCH_JCMD_GO, true)
  | .updateJob h _ => some (h, Reg.SCH_JCMD_GO, true) | .releaseJob h _ => some (h, Reg.SCH_JCMD_GO, true)
  | .suspendJob h _ => some (h, Reg.SCH_JCMD_GO, true) | .resumeJob h _ => some (h, Reg.SCH_JCMD_GO, true)
  | .maccSnap h => some (h, Reg.MACC_SNAP_SNAP, false) | .flush h => some (h, Reg.INT_EVQ_CFG_FLUSH, false)
  | .commitStrobe h _ => some (h, Reg.CMT_STROBE_STROBE, false) | .crcCapture h => some (h, Reg.CMT_CRC_CAPTURE_GO, false)
  | .dumpTrigger h => some (h, Reg.DUMP_CMD_TRIGGER, false) | .dumpRelease h => some (h, Reg.DUMP_CMD_RELEASE, false)
  | .fetch h => some (h, Reg.DUMP_CMD_FETCH, false)
  | .apply h _ _ => some (h, Reg.FLW_FCMD_GO, true) | .stop h _ _ => some (h, Reg.FLW_FCMD_GO, true)
  | .dlRead h _ => some (h, Reg.PGU_DLCMD_GO, true) | .defineLine h _ => some (h, Reg.PGU_DLCMD_GO, true)
  | .freeLine h _ => some (h, Reg.PGU_DLCMD_GO, true) | .msgReload h => some (h, Reg.PGU_CMD_MSG_RELOAD, false)
  | .swap h => some (h, Reg.HRT_CMD_SWAP, false) | .clrSuspect h => some (h, Reg.HRT_CMD_CLRSUSPECT, false)
  | .restore h _ _ => some (h, Reg.HRT_CMD_RESTORE, false)
  | .load h _ _ => some (h, Reg.ENG_LDCMD_GO, true) | .unload h _ _ => some (h, Reg.ENG_LDCMD_GO, true)
  | .query h _ _ => some (h, Reg.ENG_LDCMD_GO, true)
  | .retest h e => some (h, Reg.ENG_CMD_RETEST e, false) | .wclr h e => some (h, Reg.ENG_CMD_WCLR e, false)
  | .safe h => some (h, Reg.HOT_CMD_SAFE, false) | .hotResume h => some (h, Reg.HOT_CMD_RESUME, false)
  | .wake h => some (h, Reg.PWR_CMD_WAKE, false) | .commitver h => some (h, Reg.PWR_CMD_COMMITVER, false)
  | .clrhist h => some (h, Reg.AGE_CMD_CLRHIST, false)
  | .switchnow h => some (h, Reg.REF_CMD_SWITCHNOW, false) | .reanchor h _ => some (h, Reg.REF_CMD_REANCHOR, false)
  | .clrslots h => some (h, Reg.SYN_CMD_CLRSLOTS, false) | .align h p => some (h, Reg.OUT_FP_CMD_ALIGN p, false)
  | .disarm h x => some (h, Reg.TSU_TRIG_CMD_DISARM x, false)
  | .rebase h n => some (h, rebaseFld n, false) | .accept h n => some (h, acceptFld n, false) | .clrreb h n => some (h, clrrebFld n, false)
  | .keyprog h => some (h, Reg.HIF_MBCMD_GO, true) | .keyrevoke h => some (h, Reg.HIF_MBCMD_GO, true)
  | .sapsnap h => some (h, Reg.HIF_MBCMD_GO, true) | .flashread h => some (h, Reg.HIF_MBCMD_GO, true)
  | .flasherase h => some (h, Reg.HIF_MBCMD_GO, true) | .flashprog h _ => some (h, Reg.HIF_MBCMD_GO, true)
  | .fwinfo h => some (h, Reg.HIF_MBCMD_GO, true)
  | _ => none

end Sys2Proof.Claims

/-- R49, R50: a command that a lock or the ownership of writes forbids is ignored: LOCK_VCNT counts it, the first one is captured
in LOCK_VADDR and posted, a further one sets OVER, and no other register and no other state of the device changes. -/
def Obligations.ForbiddenCommandsAreOnlyRecorded : Prop :=
  ∀ (s : State) (c : Instr) (h : Agent) (f : Fld) (args : Bool) (k : Nat), hostRow c = some (h, f, args) →
    s.dev.cmdViolation h f args = some k →
    ∃ t, Runs c s t ∧ t.dev = Around s.dev t.dev ∧
      OnlyFields [Reg.LOCK_VCNT_COUNT, Reg.LOCK_STATUS_LOCK_VIOL, Reg.LOCK_STATUS_OVER, Reg.LOCK_VADDR_ADDR,
        Reg.LOCK_VADDR_HOST, Reg.LOCK_VADDR_KIND] s t ∧
      t.dev.rd Reg.LOCK_VCNT_COUNT = (s.dev.rd Reg.LOCK_VCNT_COUNT + 1) % 2 ^ 32 ∧
      t.dev.rd Reg.LOCK_STATUS_LOCK_VIOL = 1 ∧
      (s.dev.rd Reg.LOCK_STATUS_LOCK_VIOL = 0 → t.dev.rd Reg.LOCK_VADDR_ADDR = f.addr ∧
        t.dev.rd Reg.LOCK_VADDR_HOST = agentCode h ∧ t.dev.rd Reg.LOCK_VADDR_KIND = k ∧
        t.dev.rd Reg.LOCK_STATUS_OVER = s.dev.rd Reg.LOCK_STATUS_OVER ∧
        (Room s → EntersAll s t [(23, 1, f.addr + agentCode h * 2 ^ 24 + k * 2 ^ 26)])) ∧
      (s.dev.rd Reg.LOCK_STATUS_LOCK_VIOL = 1 → t.dev.rd Reg.LOCK_STATUS_OVER = 1 ∧
        t.dev.word Reg.LOCK_VADDR_ADDR.addr = s.dev.word Reg.LOCK_VADDR_ADDR.addr)

namespace Sys2Proof.Claims

/-- The state that a read of the word at `w` finds: the ports' frames and the MACs' clocks run up to now. -/
def Seen (s : State) (w : Nat) : Dev :=
  match blockOf w with
  | 10 => s.dev.frameTurn | 11 => s.dev.macRun 0 | 12 => s.dev.macRun 1 | _ => s.dev

end Sys2Proof.Claims

/-- R27, R29, R31, R65, R72: a read returns the current value and clears the RC bits of its word; a read of a slow-domain word
returns its copy, refreshed at least once in a microsecond, and clears the RC bits that it returned; the lowest word of a value of
several words latches the others for that host, and those return what was latched (at the head of a stamp queue the
supervisor's read also takes the entry); a read of INT_EVQ0 removes the oldest event and
returns 0 where there is none. -/
def Obligations.ReadsClearLatchAndPop : Prop :=
  (∀ (s : State) (h : Agent) (w : Addr), w.val % 4 = 0 → w.val < 0x40000 → latchOf w = none → w.val ∉ [0x7018, 0x305C] →
    slowWord w = false →
    ∃ t, Runs (.rcRead h w) s t ∧ t.dev.fab.rdata = [(Seen s w).plainWord w] ∧
      (∀ a, a ≠ w.val → t.dev.word a = (Seen s w).word a) ∧
      (∀ i, i < 32 → BitOf (fun ty => ty == .rc) w i → (t.dev.word w).getLsbD i = false) ∧
      (∀ i, i < 32 → ¬ BitOf (fun ty => ty == .rc) w i → (t.dev.word w).getLsbD i = ((Seen s w).word w).getLsbD i) ∧
      t.dev = { Around (Seen s w) t.dev with fab := { s.dev.fab with rdata := t.dev.fab.rdata } }) ∧
  (∀ (s : State) (h : Agent) (w : Addr), w.val % 4 = 0 → w.val < 0x40000 → latchOf w = none → slowWord w = true →
    s.dev.rd Reg.CMT_CFG_RDVIEW = 1 →
    ∃ t, Runs (.rcRead h w) s t ∧ ∃ v, t.dev.fab.rdata = [v] ∧
      (v = s.dev.copyWord w ∨ v = s.dev.slowEdge.word w) ∧ (s.dev.fab.copyAt + 1000 ≤ s.dev.timeNs → v = s.dev.slowEdge.word w) ∧
      (∀ i, i < 32 → BitOf (fun ty => ty == .rc) w i →
        (t.dev.copyWord w).getLsbD i = false ∧
        (t.dev.word w).getLsbD i = ((s.dev.word w).getLsbD i && !v.getLsbD i)) ∧
      (∀ i, i < 32 → ¬ BitOf (fun ty => ty == .rc) w i → (t.dev.copyWord w).getLsbD i = v.getLsbD i) ∧
      OnlyFields (Reg.PWR_STATUS_TARGET :: (rowsAt w).map (·.fld)) s t) ∧
  (∀ (s : State) (h : Agent) (w : Addr) (first n : Nat), latchOf w = some (first, n) → w.val % 4 = 0 → w.val ∉ [0x3040] →
    ∃ t, Runs (.latchedRead h w) s t ∧
      (h ≠ .sup ∨ w.val ∉ [0x15040, 0x15050, 0x15060, 0x15070] → t.dev.live = s.dev.live) ∧
      (w.val = first → t.dev.fab.rdata = [s.dev.plainWord w] ∧
        ∀ i, i < n → Sparse.get 0 t.dev.fab.latch (latchKey h (w.val + 4 * (i + 1))) = s.dev.plainWord (w.val + 4 * (i + 1))) ∧
      (w.val ≠ first → t.dev.fab.rdata = [Sparse.get 0 s.dev.fab.latch (latchKey h w)] ∧
        t.dev.fab.latch = s.dev.fab.latch) ∧
      (∀ g a, g ≠ h → a < 2 ^ 24 →
        Sparse.get 0 t.dev.fab.latch (latchKey g a) = Sparse.get 0 s.dev.fab.latch (latchKey g a))) ∧
  (∀ (s : State) (h : Agent), s.dev.evq.posts = [] → s.dev.evq.lostPend = 0 →
    ∃ t, Runs (.evqPop h) s t ∧ t.dev.live = s.dev.live ∧ t.dev.evq.q = s.dev.evq.q.tail ∧
      t.dev.fab.rdata = [((s.dev.evq.q.head?.map fun e => e.words.getD 0 0)).getD 0] ∧
      ∀ i, i < 3 → Sparse.get 0 t.dev.fab.latch (latchKey h (0x3044 + 4 * i)) =
        ((s.dev.evq.q.head?.map fun e => e.words.getD (i + 1) 0)).getD 0)

/-- R36, R37, R41: a strobe takes the shadow copies of each group it names into a staging copy and leaves the other groups; a
group already pending keeps its place. A write of the group map drops the staging copy of every block that leaves its
group. -/
def Obligations.StrobesStageTheirGroups : Prop :=
  (∀ (s : State) (h : Agent) (groups : BitVec 16), Ready s h Reg.CMT_STROBE_STROBE false →
    ∃ t, Runs (.commitStrobe h groups) s t ∧ t.dev.live = s.dev.live ∧ t.dev.shadow = s.dev.shadow ∧
      t.dev = { Around s.dev t.dev with
        fab := { s.dev.fab with staged := t.dev.fab.staged, nextBatch := s.dev.fab.nextBatch + 1 } } ∧
      (∀ g, g < 16 → groups.getLsbD g = true → ∃ st, t.dev.fab.staged.find? (fun e => e.1 == g) = some (g, st) ∧
        st.blocks = s.dev.blocksOf g ∧ (∀ a, blockOf a ∈ st.blocks → stagedWord st.words a = s.dev.shadowWord a) ∧
        st.batch = ((s.dev.fab.staged.find? fun e => e.1 == g).map fun e => e.2.batch).getD s.dev.fab.nextBatch) ∧
      (∀ g, g < 16 → groups.getLsbD g = false →
        t.dev.fab.staged.find? (fun e => e.1 == g) = s.dev.fab.staged.find? (fun e => e.1 == g))) ∧
  (∀ (s : State) (h : Agent) (ix : Fin 3) (data : Word), s.dev.owns h = true → s.dev.locked h 22 = false →
    let w := if ix.val = 2 then data &&& 0xFFFFFF else data
    ∃ t, Runs (.groupMapWrite h ix data) s t ∧ SameWords [0x1010 + 4 * ix.val] s t ∧
      t.dev.word (0x1010 + 4 * ix.val) = w ∧
      (s.dev.word (0x1010 + 4 * ix.val) ≠ w → ∀ e ∈ t.dev.fab.staged, ∀ b ∈ e.2.blocks, t.dev.groupOf b = e.1) ∧
      t.dev = { Around s.dev t.dev with fab := { s.dev.fab with staged := t.dev.fab.staged, scan := t.dev.fab.scan } })

/-- R35, R38 to R40, R43 to R47: a commit moment of one group of one block: DUMP, which has no check, takes its staged values
whole; TSU takes them where its check passes, keeps ENABLE at 0 where the check refuses the enable, and takes none of them
where it was enabled. The group is no longer pending and CMT_LASTCOMMIT holds the tick. -/
def Obligations.CommitsApplyTheStagingCopy : Prop :=
  (∀ (s : State) (noRef : BitVec 2) (g : Nat) (st : Staged) (b : Nat), g < 16 → s.dev.nextBatch = [(g, st)] →
    st.blocks = [b] → (b = 4 ∨ b = 15) →
    let cand := s.dev.applyStaged st.words b fun _ => true
    let took := fun t : State => ∀ a, blockOf a = b →
      t.dev.word a &&& rwsMask a = stagedWord st.words a &&& rwsMask a
    ∃ t, Runs (.commit noRef) s t ∧ (∀ e ∈ t.dev.fab.staged, e.1 ≠ g) ∧
      (∀ e ∈ s.dev.fab.staged, e.1 ≠ g → e ∈ t.dev.fab.staged) ∧
      t.dev.rd (Reg.CMT_LASTCOMMIT_TICK g) = s.dev.tick % 2 ^ 32 ∧
      (b = 4 → took t) ∧
      (b = 15 → cand.rd Reg.TSU_CFG_ENABLE = 0 ∨ cand.checkTsu = [] →
        took t ∧ t.dev.rd Reg.CMT_STATUS_REFUSED = s.dev.rd Reg.CMT_STATUS_REFUSED) ∧
      (b = 15 → cand.rd Reg.TSU_CFG_ENABLE = 1 → ∀ c, lowest cand.checkTsu = some c →
        t.dev.rd Reg.CMT_STATUS_REFUSED = 1 ∧ t.dev.rd Reg.TSU_STATUS_REASON = c % 256 ∧
        (s.dev.rd Reg.TSU_CFG_ENABLE = 0 → t.dev.rd Reg.TSU_CFG_ENABLE = 0 ∧
          Reg.TSU_CFG_ENABLE.get (t.dev.shadowWord Reg.TSU_CFG_ENABLE.addr) = 0 ∧
          ∀ a, blockOf a = 15 → a ≠ Reg.TSU_CFG_ENABLE.addr →
            t.dev.word a &&& rwsMask a = stagedWord st.words a &&& rwsMask a) ∧
        (s.dev.rd Reg.TSU_CFG_ENABLE = 1 → t.dev.shadow = s.dev.shadow ∧
          ∀ a, blockOf a = 15 → t.dev.word a &&& rwsMask a = s.dev.word a &&& rwsMask a))) ∧
  (∀ (s : State) (ws : List (Nat × Word)) (r : List (List (Nat × Word))), s.dev.fab.slowCommits = ws :: r →
    (ws.map (·.1)).Nodup → (∀ x ∈ ws, slowWord x.1 = true) →
    ∃ t, Runs .slowCommitLand s t ∧ t.dev.fab.slowCommits = r ∧
      (∀ x ∈ ws, t.dev.word x.1 &&& rwsMask x.1 = x.2 &&& rwsMask x.1 ∧
        t.dev.word x.1 &&& ~~~(rwsMask x.1) = s.dev.word x.1 &&& ~~~(rwsMask x.1)) ∧
      ∀ a, a ∉ ws.map (·.1) → blockOf a ≠ 19 → t.dev.word a = s.dev.word a)

/-- R53 to R57, R64, R74: a scan starts at a boundary at which SCH_TICK mod 8 is 0, once, clean, and serves a capture asked for before its start; a dirty scan only counts; a clean
scan loads its CRC into CMT_CRC_LAST, serves the capture, or is compared; MACC_SNAP copies the counters of MAC0, MAC1, FLW
and SCH into the holding bank; FLUSH empties the event FIFO and SEQ goes on. -/
def Obligations.ScansSnapshotsAndFlushes : Prop :=
  (∀ s : State, ∃ t, Runs .crcScanStart s t ∧ t.dev.live = s.dev.live ∧
    t.dev = { Around s.dev t.dev with fab := { s.dev.fab with scan := t.dev.fab.scan, scanTick := t.dev.fab.scanTick } } ∧
    (s.dev.tick % 8 = 0 → s.dev.fab.scanTick ≠ some s.dev.tick → t.dev.fab.scanTick = some s.dev.tick ∧
      t.dev.fab.scan = some { dirty := false, capture := s.dev.on Reg.CMT_CRC_CAPTURE_GO }) ∧
    ((s.dev.tick % 8 ≠ 0 ∨ s.dev.fab.scanTick = some s.dev.tick) →
      t.dev.fab.scan = s.dev.fab.scan ∧ t.dev.fab.scanTick = s.dev.fab.scanTick)) ∧
  (∀ (s : State) (x : Scan), s.dev.fab.scan = some x →
    ∃ t, Runs .crcScanDone s t ∧ t.dev.fab.scan = none ∧
      (x.dirty = true → OnlyFields [Reg.CMT_CRC_DIRTY_COUNT] s t ∧
        t.dev.rd Reg.CMT_CRC_DIRTY_COUNT = (s.dev.rd Reg.CMT_CRC_DIRTY_COUNT + 1) % 2 ^ 32) ∧
      (x.dirty = false → t.dev.rd Reg.CMT_CRC_LAST_LAST = s.dev.scanResult ∧
        (x.capture = true → s.dev.rd Reg.CMT_CRC_CAPTURE_GO = 1 → s.dev.fab.queued = [] →
          OnlyFields [Reg.CMT_CRC_LAST_LAST, Reg.CMT_CRC_REF_REF, Reg.CMT_CRC_CAPTURE_GO] s t ∧
          t.dev.rd Reg.CMT_CRC_REF_REF = s.dev.scanResult ∧ t.dev.rd Reg.CMT_CRC_CAPTURE_GO = 0) ∧
        (x.capture = false → s.dev.rd Reg.CMT_CRC_CFG_ENABLE = 1 → s.dev.scanResult ≠ s.dev.rd Reg.CMT_CRC_REF_REF →
          OnlyFields [Reg.CMT_CRC_LAST_LAST, Reg.CMT_CRC_MISS_COUNT, Reg.CMT_STATUS_CRC_MISMATCH] s t ∧
          t.dev.rd Reg.CMT_CRC_MISS_COUNT = (s.dev.rd Reg.CMT_CRC_MISS_COUNT + 1) % 2 ^ 32 ∧
          t.dev.rd Reg.CMT_STATUS_CRC_MISMATCH = 1 ∧ (Room s → EntersAll s t [(22, 2, s.dev.scanResult)])) ∧
        (x.capture = false → (s.dev.rd Reg.CMT_CRC_CFG_ENABLE = 0 ∨ s.dev.scanResult = s.dev.rd Reg.CMT_CRC_REF_REF) →
          OnlyFields [Reg.CMT_CRC_LAST_LAST] s t))) ∧
  (∀ (s : State) (h : Agent), Ready s h Reg.CMT_CRC_CAPTURE_GO false →
    ∃ t, Runs (.crcCapture h) s t ∧ t.dev.rd Reg.CMT_CRC_CAPTURE_GO = 1 ∧ OnlyFields [Reg.CMT_CRC_CAPTURE_GO] s t ∧
      t.dev = { Around s.dev t.dev with fab := { s.dev.fab with queued := t.dev.fab.queued } }) ∧
  (∀ (s : State) (h : Agent), Ready s h Reg.MACC_SNAP_SNAP false →
    ∃ t, Runs (.maccSnap h) s t ∧ t.dev = Around s.dev t.dev ∧ t.dev.rd Reg.MACC_SNAPTICK_TICK = s.dev.tick % 2 ^ 32 ∧
      (∀ i, i < 64 → t.dev.word (Reg.MACC_BANK i).addr = s.dev.word (0x10400 + 4 * i) ∧
        t.dev.word (Reg.MACC_BANK (64 + i)).addr = s.dev.word (0x11400 + 4 * i)) ∧
      (∀ i, i < 14 → t.dev.word (Reg.MACC_BANK (128 + i)).addr = s.dev.word (0xC040 + 4 * i)) ∧
      (∀ i, i < 48 → t.dev.word (Reg.MACC_BANK (256 + i)).addr = s.dev.word (0x8400 + 4 * i)) ∧
      ∀ a, blockOf a ≠ 13 → t.dev.word a = s.dev.word a) ∧
  (∀ (s : State) (h : Agent), Ready s h Reg.INT_EVQ_CFG_FLUSH false → s.dev.evq.posts = [] → s.dev.evq.lostPend = 0 →
    ∃ t, Runs (.flush h) s t ∧ t.dev.evq = { s.dev.evq with q := [] } ∧ t.dev.live = s.dev.live ∧
      t.dev = Around s.dev t.dev)

/-! ### Bellows -/

namespace Sys2Proof.Claims

/-- The device as a host command finds it: the access noted, and the argument fields of its word loaded. -/
def Found (s : State) (h : Agent) (f : Fld) (args : List (Fld × Nat)) : Dev := (s.dev.hostGate h f args).1

/-- The device as the job command `op` on entry `k` finds it. -/
def jobFound (s : State) (h : Agent) (op : Nat) (k : JobIx) : Dev :=
  Found s h Reg.SCH_JCMD_GO [(Reg.SCH_JCMD_JOB, k), (Reg.SCH_JCMD_OP, op)]

/-- A job command on entry `k` has completed with reason `code` (R80, R81), and no register has changed but SCH_STATUS, SCH_JCMD,
SCH_JRES and the words `more`. -/
def JobDone (s t : State) (k : JobIx) (code : Nat) (more : List Nat) : Prop :=
  t.dev.rd Reg.SCH_JRES_REASON = code ∧ t.dev.rd Reg.SCH_JRES_JOB = k ∧
  t.dev.rd Reg.SCH_JRES_REFUSED = (if code = 0 then 0 else 1) ∧ t.dev.rd Reg.SCH_JRES_VALID = 1 ∧
  t.dev.rd Reg.SCH_STATUS_JDONE = 1 ∧ SameWords ([0x8008, 0x8050, 0x8054] ++ more) s t ∧
  t.dev = { Around s.dev t.dev with
    sch := t.dev.sch, mem := t.dev.mem, fab := { s.dev.fab with scan := t.dev.fab.scan } }

/-- The job table after entry `k` has become `j`; nothing else of Bellows changes. -/
def EntryIs (s t : State) (k : JobIx) (j : Job) : Prop :=
  t.dev.sch = { s.dev.sch with jobs := Sparse.put {} s.dev.sch.jobs k j }

/-- The number of class c's RF counter word (R116). -/
def refusedWord (cls : Nat) : Nat := (Reg.SCH_CNT_COUNT cls 4).addr

end Sys2Proof.Claims

/-- R80 to R82: READ copies the entry; SUSPEND, RESUME and RELEASE act on an admitted entry and are refused with NOTADMIT on
another, RELEASE of a predecessor with HASDEP; outside a compute window a command waits. -/
def Obligations.JobCommandsActOnTheirEntry : Prop :=
  ∀ (s : State) (h : Agent) (k : JobIx), Ready s h Reg.SCH_JCMD_GO true →
    let J := s.dev.job k
    let held := s.dev.sch.jobs.any fun e => e.2.admitted && e.2.preds.contains k.val
    (s.dev.sch.win = .compute →
      (∃ t, Runs (.jobRead h k) s t ∧ JobDone s t k 0 ((List.range 16).map fun i => 0x8080 + 4 * i) ∧ t.dev.sch = s.dev.sch ∧
        (J.admitted = false → ∀ i, i < 16 → t.dev.word (0x8080 + 4 * i) = 0) ∧
        (J.admitted = true → J.desc.length = 14 → (∀ i, i < 14 → t.dev.word (0x8080 + 4 * i) = J.desc.getD i 0) ∧
          t.dev.word 0x80B8 = BitVec.ofNat 32 J.seq)) ∧
      (J.admitted = true →
        (∃ t, Runs (.suspendJob h k) s t ∧ JobDone s t k 0 [] ∧ t.dev.mem = s.dev.mem ∧ EntryIs s t k { J with hostSusp := true }) ∧
        (J.standSusp = false → ∃ t, Runs (.resumeJob h k) s t ∧ JobDone s t k 0 [] ∧ t.dev.mem = s.dev.mem ∧
          EntryIs s t k { J with hostSusp := false, ovSusp := none, ovrun := 0 }) ∧
        (held = false → ∃ t, Runs (.releaseJob h k) s t ∧ JobDone s t k 0 [] ∧
          EntryIs s t k { J with releasing := some s.dev.tick } ∧
          (J.runLen ≠ 0 → J.inA = true → (J.run, J.runLen) ∈ (t.dev.hm 0).zeroing) ∧
          (J.runLen ≠ 0 → J.inB = true → (J.run, J.runLen) ∈ (t.dev.hm 1).zeroing)) ∧
        (held = true → ∃ t, Runs (.releaseJob h k) s t ∧ JobDone s t k 0x1D [] ∧ t.dev.sch = s.dev.sch ∧
          t.dev.mem = s.dev.mem)) ∧
      (J.admitted = false → ∀ c ∈ [Instr.suspendJob h k, Instr.resumeJob h k, Instr.releaseJob h k],
        ∃ t, Runs c s t ∧ JobDone s t k 0x1C [] ∧ t.dev.sch = s.dev.sch ∧ t.dev.mem = s.dev.mem)) ∧
    (s.dev.sch.win ≠ .compute → ∀ c ∈ [Instr.jobRead h k, Instr.admitJob h k, Instr.updateJob h k, Instr.releaseJob h k,
        Instr.suspendJob h k, Instr.resumeJob h k],
      ∃ t, Runs c s t ∧ t.dev.sch = { s.dev.sch with waiting := min 2 (s.dev.sch.waiting + 1) } ∧
        SameWords [0x8050] s t ∧ t.dev.mem = s.dev.mem)

/-- R81, R94, R116: ADMIT of a free entry and UPDATE of an admitted one store the staged descriptor where every test passes, ADMIT with
the next admission sequence, UPDATE with the one the job has; a refusal changes nothing in the job table and counts RF. -/
def Obligations.AdmissionStoresTheStagedDescriptor : Prop :=
  ∀ (s : State) (h : Agent) (k : JobIx), Ready s h Reg.SCH_JCMD_GO true → s.dev.sch.win = .compute →
    let J := s.dev.job k
    let cls := (s.dev.word 0x8080).toNat / 2 ^ 12 % 8
    let tbl := s.dev.sch.jobs.filter fun e => !e.2.standing
    let others := tbl.filter fun e => e.1 != k.val && e.2.admitted
    let refused := fun (c : Instr) (code : Nat) => ∃ t, Runs c s t ∧ JobDone s t k code [refusedWord cls] ∧
      t.dev.sch = s.dev.sch ∧ t.dev.mem = s.dev.mem ∧
      (cls < 6 → t.dev.rd (Reg.SCH_CNT_COUNT cls 4) = (s.dev.rd (Reg.SCH_CNT_COUNT cls 4) + 1) % 2 ^ 32)
    let same := (s.dev.word 0x8080).toNat % 1024 = k
    (¬ same → refused (.admitJob h k) 0x02 ∧ refused (.updateJob h k) 0x02) ∧
    (same → J.present = true → refused (.admitJob h k) 0x18) ∧
    (same → J.admitted = false → refused (.updateJob h k) 0x1C) ∧
    (let D := jobFound s h 1 k
     let j : Job := { desc := D.staged, seq := s.dev.sch.nextSeq, standSusp := s.dev.on Reg.SCH_STATUS_HELD }
     same → J.present = false →
      (∀ c, lowest (D.test1 tbl k j D.banks) = some c → refused (.admitJob h k) c) ∧
      (∀ run, lowest (D.test1 tbl k j D.banks) = none → ((D.entryOf j []).map fun e => e.bound).getD 0 ≤ j.wcet →
        D.findTiles (D.drawsIn j) j.tiles = some run → D.capacityTests k j others = none →
        ∃ t, Runs (.admitJob h k) s t ∧ JobDone s t k 0 [] ∧
          t.dev.sch = { s.dev.sch with
            nextSeq := s.dev.sch.nextSeq + 1
            jobs := Sparse.put {} s.dev.sch.jobs k { j with
              run := run, runLen := j.tiles, inA := (D.drawsIn j).contains 0, inB := (D.drawsIn j).contains 1 } })) ∧
    (let D := jobFound s h 2 k
     let j : Job := { J with desc := D.staged, pendTick := if ({ J with desc := D.staged } : Job).defer then J.pendTick else none }
     same → J.admitted = true → J.tiles = j.tiles → D.drawsIn J = D.drawsIn j →
      lowest (D.test1 tbl k j D.banks) = none → ((D.entryOf j []).map fun e => e.bound).getD 0 ≤ j.wcet →
      (j.tiles = 0 ∨ s.dev.rd Reg.ALC_CFG_ENABLE = 1) → D.capacityTests k j others = none →
      ∃ t, Runs (.updateJob h k) s t ∧ JobDone s t k 0 [] ∧ t.dev.mem = s.dev.mem ∧
        EntryIs s t k { j with
          runLen := j.tiles, inA := (D.drawsIn j).contains 0, inB := (D.drawsIn j).contains 1 })

/-- R90 to R93, R98: the plan of any jobs in plan order: an engine holds one job at a time; a job starts when its placed predecessors
have finished; only E0 jobs may finish after the window; and once a job has been shed no later job below E0 is placed. -/
def Obligations.PlansNeverOverlapOrOverrun : Prop :=
  ∀ (w avail : Nat) (anyMask : Bool) (jobs : List (Nat × Job)), (jobs.map (·.1)).Nodup →
    let p := planOf w avail anyMask jobs
    (∀ x ∈ p.placed, ∃ j, (x.job, j) ∈ jobs ∧ x.finish = x.start + j.wcet ∧ x.eng < 8 ∧ avail / 2 ^ x.eng % 2 = 1 ∧
      (anyMask = false → j.engMask / 2 ^ x.eng % 2 = 1) ∧ (j.cls ≠ 0 → x.finish ≤ w)) ∧
    p.placed.Pairwise (fun x y => x.eng = y.eng → x.finish ≤ y.start) ∧
    p.placed.Pairwise (fun x y => ∀ j, (y.job, j) ∈ jobs → j.preds.contains x.job = true → x.finish ≤ y.start) ∧
    (∀ l1 x l2, jobs = l1 ++ x :: l2 → x ∈ p.shed → ∀ z ∈ l2, z.2.cls ≠ 0 → ∀ y ∈ p.placed, y.job ≠ z.1) ∧
    (∀ x ∈ jobs, (∃ y ∈ p.placed, y.job = x.1) ∨ x ∈ p.shed ∨ x.1 ∈ p.noEngine)

/-- R92, R97, R99, R110, R121: in the compute window a placed job, or a pending deferred run that fits in what is left of the window,
starts on its free engine with the registers of R121; a run that has used its WCET is cut with OV BUDGET, or PF PAGEMISS where it was
stalled on a demand miss, and its channels hold. -/
def Obligations.RunsStartAndAreCut : Prop :=
  ∀ (s : State) (e : Eng),
    let left := fun n => min n (windowOf (s.dev.sh (e / 8)).cap.clk - (s.dev.en e).freeAt)
    let starts := fun (t : State) (k base : Nat) (slack : Bool) =>
      let j := s.dev.jobF k
      let g := t.dev.en e
      g.running = true ∧ g.job = k ∧ g.slack = slack ∧ g.flags = 0 ∧ g.next = 1 ∧ g.base = base ∧ g.loops = [] ∧ g.calls = [] ∧
      g.pc = ((s.dev.image j.progId).map fun im => (im.base (e / 8)).getD 0 + j.entry).getD 0 ∧
      (∀ r, r < 12 → g.getS r = 0) ∧ g.getS 12 = BitVec.ofNat 32 (s.dev.lagOf k) ∧
      g.getS 13 = BitVec.ofNat 32 s.dev.nSamples ∧ g.getS 14 = BitVec.ofNat 32 s.dev.tick ∧
      g.getS 15 = BitVec.ofNat 32 (k % 1024 + j.cls * 2 ^ 12 + e / 8 * 2 ^ 16 + e % 8 * 2 ^ 17) ∧
      (∀ r i, i < 8 → g.getV r i = 0 ∧ g.getW r i = 0) ∧ g.getA 4 = 0 ∧ g.getA 5 = 0xC0000000 ∧ g.getA 6 = 0x80000000 ∧
      g.getA 7 = 0 ∧ g.getP 1 = (if s.dev.fam96 then 0xFF else 0x3F) ∧ g.getP 2 = (if s.dev.fam96 then 0x0F else 0) ∧
      g.getP 3 = 0 ∧ t.dev.rd (Reg.ENG_RUNS_COUNT e) = (s.dev.rd (Reg.ENG_RUNS_COUNT e) + 1) % 2 ^ 32 ∧
      OnlyFields [Reg.ENG_RUNS_COUNT e, Reg.ENG_STATUS_CNT_HALF e] s t ∧ ∀ q, q ≠ e.val → t.dev.en q = s.dev.en q
    (∀ p, (s.dev.en e).running = false → s.dev.sch.win = .compute → s.dev.nextPlaced (e / 8) (e % 8) = some p →
      ∃ t, Runs (.jobRunStart e) s t ∧
        starts t p.job (((s.dev.sh (e / 8)).plan.filter fun q => (s.dev.jobF p.job).preds.contains q.job).foldl
          (fun m q => max m q.endAt) (s.dev.en e).freeAt) false ∧
        (t.dev.sh (e / 8)).plan = (s.dev.sh (e / 8)).plan.map fun q => if q.job = p.job then { q with started := true } else q) ∧
    (∀ n k, (s.dev.en e).running = false → s.dev.sch.win = .compute → s.dev.dispatching = true →
      (∀ p ∈ (s.dev.sh (e / 8)).plan, p.eng = e % 8 → p.ended = true) →
      s.dev.slackJob e (left n) = some k → ∃ t, Runs (.slackDispatch e n) s t ∧
        starts t k (windowOf (s.dev.sh (e / 8)).cap.clk - left n) true ∧ (s.dev.jobF k).wcet ≤ left n ∧
        (s.dev.job k).pendTick ≠ none) ∧
    (s.dev.sch.win ≠ .compute → ∀ n, ∀ c ∈ [Instr.jobRunStart e, Instr.slackDispatch e n],
      ∃ t, Runs c s t ∧ t.dev = Around s.dev t.dev ∧ t.dev.live = s.dev.live) ∧
    ((s.dev.en e).running = true → s.dev.countsOut e = true →
      let k := (s.dev.en e).job
      ∃ t, Runs (.budget e) s t ∧ (t.dev.en e).running = false ∧ (∀ q, q ≠ e.val → t.dev.en q = s.dev.en q) ∧
        t.dev.resOf k = (if (s.dev.en e).miss = none then (ocOV, 0x55) else (ocPF, 0x57)) ∧
        t.dev.rd (Reg.ENG_CYC_COUNT e) = (s.dev.rd (Reg.ENG_CYC_COUNT e) + (s.dev.jobF k).wcet) % 2 ^ 32 ∧
        ((s.dev.en e).miss = none → (s.dev.job k).desc ≠ [] → (t.dev.job k).ovrun = min 2 ((s.dev.job k).ovrun + 1) ∨
          2 < (s.dev.job k).ovrun) ∧
        ((s.dev.en e).miss ≠ none → (t.dev.job k).ovrun = (s.dev.job k).ovrun) ∧
        (∀ c ∈ handlesOf (s.dev.jobF k).outs, (∀ w, s.dev.writerOf c = some w → w.2.standing = false) →
          ∀ i, i < s.dev.nSamples → (t.dev.hm (e / 8)).tile c s.dev.mem.par i = s.dev.lastOut c))

namespace Sys2Proof.Claims

/-- R75, R80, R99, R104, R106, R111, R113, R116: the plan window ends and commands that waited execute; the close window finalises the
outcomes: the working bank, the job's entry and the counter of its class take the outcome, a third consecutive cut suspends the
job, and a pending run past MAXDEFER is dropped with MU DEFER_EXPIRED. -/
def WindowsOpenAndClose : Prop :=
  (∀ s : State, s.dev.sch.win = .plan → ∃ t, Runs .computeWindow s t ∧ t.dev.sch.win = .compute ∧ t.dev.sch.waiting = 0 ∧
    (s.dev.sch.waiting = 0 → t.dev.sch = { s.dev.sch with win := .compute } ∧ t.dev.live = s.dev.live ∧
      t.dev = { Around s.dev t.dev with sch := t.dev.sch, ns := max s.dev.ns 6000 })) ∧
  (∀ s : State, s.dev.sch.win = .compute → s.dev.dispatching = false → s.dev.sch.stopTick ≠ some s.dev.tick →
    ∃ t, Runs .closeWindow s t ∧ t.dev.live = s.dev.live ∧
      t.dev.sch = { s.dev.sch with win := .close, last := [], hA := t.dev.sch.hA, hB := t.dev.sch.hB } ∧
      ∀ h, h < 2 → t.dev.sh h = { s.dev.sh h with
        quiet := if s.dev.rd Reg.SCH_STORM_CFG_THRESH ≠ 0 ∧ s.dev.rd Reg.SCH_STORM_CFG_THRESH ≤ (s.dev.sh h).misses then 0
          else (s.dev.sh h).quiet + 1 }) ∧
  (∀ s : State, (s.dev.sch.win ≠ .plan → ∃ t, Runs .computeWindow s t ∧ t.dev = Around s.dev t.dev ∧ t.dev.live = s.dev.live) ∧
    (s.dev.sch.win ≠ .compute → ∃ t, Runs .closeWindow s t ∧ t.dev = Around s.dev t.dev ∧ t.dev.live = s.dev.live)) ∧
  (∀ (s : State) (k : Nat) (j : Job) (o r : Nat), s.dev.sch.win = .compute → s.dev.dispatching = true →
    s.dev.sch.force = [(k, j)] →
    s.dev.noClose 0 = false → s.dev.noClose 1 = false → (s.dev.sh 0).plan = [] → (s.dev.sh 1).plan = [] →
    (∀ e, e < 16 → (s.dev.en e).running = false) → s.dev.mode ≠ 1 → j.standing = false → j.retry = false → j.cls < 6 →
    s.dev.resOf k = (o, r) → o < 8 → o ≠ 1 → (s.dev.job k).desc ≠ [] →
    ((s.dev.job k).pendTick ≠ none → j.releasing = none → (∀ n, (s.dev.job k).pendTick = some n → s.dev.tick - n > j.maxDefer) →
      ∃ t, Runs .closeWindow s t ∧ Sparse.get (0, 0) t.dev.sch.work k = (2, 0x50) ∧
        t.dev.rd (Reg.SCH_CNT_COUNT j.cls 2) = (s.dev.rd (Reg.SCH_CNT_COUNT j.cls 2) + 1) % 2 ^ 32 ∧
        (t.dev.job k).lastOutcome = 2 ∧ (t.dev.job k).lastReason = 0x50 ∧ (t.dev.job k).pendTick = none) ∧
    ((s.dev.job k).pendTick = none →
    ∃ t, Runs .closeWindow s t ∧ t.dev.sch.win = .close ∧ Sparse.get (0, 0) t.dev.sch.work k = (o, r) ∧
      t.dev.rd (Reg.SCH_CNT_COUNT j.cls o) = (s.dev.rd (Reg.SCH_CNT_COUNT j.cls o) + 1) % 2 ^ 32 ∧
      (t.dev.job k).lastOutcome = o ∧ (t.dev.job k).lastReason = r ∧ (t.dev.job k).prev = some o ∧
      (t.dev.job k).ovrun = (if o = 0 then 0 else (s.dev.job k).ovrun) ∧
      ((s.dev.job k).third = true → (s.dev.job k).ovSusp = none →
        (t.dev.job k).ovSusp = some (s.dev.tick + 1) ∧ t.dev.rd Reg.SCH_STATUS_SUSP = 1 ∧
        (Room s → EntersAll s t [(5, 3, k % 1024 + 0x53 * 2 ^ 16)])) ∧
      ((s.dev.job k).third = false → (t.dev.job k).ovSusp = (s.dev.job k).ovSusp)))

/-- R100, R104, R105: a storm starts where the demand misses of the tick have reached THRESH and ends after CLEAR quiet ticks, with
CAPCHANGE; a retry is marked where it is due. -/
def StormsAndRetriesAreMarked : Prop :=
  (∀ (s : State) (h : Hearth),
    let i := hIx h
    let eng := s.dev.given i &&& s.dev.working i
    let reached := s.dev.rd Reg.SCH_STORM_CFG_THRESH ≠ 0 ∧ s.dev.rd Reg.SCH_STORM_CFG_THRESH ≤ (s.dev.sh i).misses
    ((s.dev.sh i).storm = false → reached →
      ∃ t, Runs (.stormStart h) s t ∧ t.dev.sh i = { s.dev.sh i with storm := true, quiet := 0 } ∧ t.dev.sh (1 - i) = s.dev.sh (1 - i) ∧
        t.dev.live = s.dev.live ∧ t.dev = { Around s.dev t.dev with sch := t.dev.sch } ∧
        (Room s → EntersAll s t [(5, 1, (windowOf (s.dev.sh i).clkReq - s.dev.rd Reg.SCH_STORM_CFG_DEBIT) * engines eng
          + i * 2 ^ 24 + 3 * 2 ^ 25)])) ∧
    ((s.dev.sh i).storm = true ∨ ¬ reached →
      ∃ t, Runs (.stormStart h) s t ∧ t.dev = Around s.dev t.dev ∧ t.dev.live = s.dev.live) ∧
    ((s.dev.sh i).storm = false ∨ (s.dev.sh i).quiet < s.dev.rd Reg.SCH_STORM_CFG_CLEAR →
      ∃ t, Runs (.stormEnd h) s t ∧ t.dev = Around s.dev t.dev ∧ t.dev.live = s.dev.live) ∧
    ((s.dev.sh i).storm = true → s.dev.rd Reg.SCH_STORM_CFG_CLEAR ≤ (s.dev.sh i).quiet →
      ∃ t, Runs (.stormEnd h) s t ∧ t.dev.sh i = { s.dev.sh i with storm := false, quiet := 0 } ∧ t.dev.sh (1 - i) = s.dev.sh (1 - i) ∧
        t.dev.live = s.dev.live ∧ t.dev = { Around s.dev t.dev with sch := t.dev.sch } ∧
        (Room s → EntersAll s t [(5, 1, windowOf (s.dev.sh i).clkReq * engines eng + i * 2 ^ 24 + 4 * 2 ^ 25)]))) ∧
  (∀ (s : State) (k : JobIx) (t0 : Nat), (s.dev.job k).ovSusp = some t0 → s.dev.rd Reg.SCH_CFG_ERETRY = 1 →
    (s.dev.job k).cls ≤ 2 → (s.dev.job k).admitted = true → (s.dev.job k).hostSusp = false →
    (s.dev.job k).standSusp = false → t0 < s.dev.tick + 1 → (s.dev.tick + 1 - t0) % 8000 = 0 →
    ∃ t, Runs (.eRetry k) s t ∧ EntryIs s t k { s.dev.job k with retry := true } ∧ t.dev.live = s.dev.live ∧
      t.dev = { Around s.dev t.dev with sch := t.dev.sch })

end Sys2Proof.Claims

/-- R75, R80, R99, R100, R104, R105, R113, R116: the windows of a tick, storms and retries. -/
def Obligations.WindowsStormsAndRetries : Prop := WindowsOpenAndClose ∧ StormsAndRetriesAreMarked

/-- R8, R9, R86, and R479 step 8: where no re-anchor is due, a tick boundary begins the next tick, and the tiles of the tick that begins
are those of the other parity; before the tick generator runs, nothing happens. -/
def Obligations.TickBoundariesBeginTheNextTick : Prop :=
  ∀ (s : State) (slots : List SlotData) (jbue : List (BitVec 8 × Fin 16)) (noRef : BitVec 2)
    (conv : List (Fin 4 × BitVec 24 × BitVec 16)),
    (8 ≤ s.dev.rd Reg.PWR_KSTAT_STEP → s.dev.ref.anchor = none →
      ∃ t, Runs (.tickBoundary slots jbue noRef conv) s t ∧ t.dev.tick = s.dev.tick + 1 ∧ t.dev.ns = 0 ∧
        t.dev.mem.par = 1 - s.dev.mem.par) ∧
    (s.dev.rd Reg.PWR_KSTAT_STEP < 8 → ∃ t, Runs (.tickBoundary slots jbue noRef conv) s t ∧ t.dev.live = s.dev.live ∧
      t.dev = Around s.dev t.dev)

/-! ### The loader, self-test, and faults of engines and memories -/

namespace Sys2Proof.Claims

/-- Nothing has changed but the register words at the addresses `as`, the events, the interrupt outputs, the power events, and
what `d` says. -/
def Keeps (as : List Nat) (s t : State) (d : Dev) : Prop := SameWords as s t ∧ t.dev = Around d t.dev

/-- A loader command on program `id` with operation code `op` has ended with `code` (R158). -/
def LoaderEnds (s t : State) (id op code : Nat) : Prop :=
  t.dev.rd Reg.ENG_LDRES_REASON = code ∧ t.dev.rd Reg.ENG_LDRES_PROG_ID = id ∧
  t.dev.rd Reg.ENG_LDRES_REFUSED = (if code = 0 then 0 else 1) ∧ t.dev.rd Reg.ENG_LDRES_VALID = 1 ∧
  t.dev.rd (Reg.ENG_STATUS_LDDONE 0) = 1 ∧ t.dev.rd Reg.ENG_LDCMD_GO = 0 ∧
  (Room s → EntersAll s t (if code = 0 then [] else [(20, 6, id + code * 2 ^ 16 + op * 2 ^ 24)]))

/-- The words of the loader's command and result, and of the loader's status. -/
def loaderWords : List Nat := [Reg.ENG_LDCMD_GO.addr, Reg.ENG_LDRES_VALID.addr, (Reg.ENG_STATUS_LDDONE 0).addr]

/-- The device with the changes of a command that has arguments: a running scan may have become dirty (R55). -/
def Staged (s t : State) : Dev := { s.dev with fab := { s.dev.fab with scan := t.dev.fab.scan } }

end Sys2Proof.Claims

/-- R140, R153, R154, R158: a LOAD is refused with the lowest failing reason, or writes the image into the instruction SRAM and
stays in progress until LOADED, which makes the image visible; UNLOAD removes an image that no admitted job names; QUERY
reports the placement; a further command waits behind a LOAD in progress (R32). -/
def Obligations.LoaderCommandsEndWithTheirResult : Prop :=
  (∀ (s : State) (h : Agent) (id : BitVec 12) (hm : BitVec 2), Ready s h Reg.ENG_LDCMD_GO true →
    (s.dev.on Reg.ENG_LDCMD_GO = false → s.dev.eng.load = none →
      (∀ c, c ≠ 0 → c < 256 → s.dev.loadTest id.toNat hm.toNat = .error c →
        ∃ t, Runs (.load h id hm) s t ∧ LoaderEnds s t id.toNat 0 c ∧ Keeps loaderWords s t (Staged s t)) ∧
      (∀ im, s.dev.loadTest id.toNat hm.toNat = .ok im →
        ∃ t, Runs (.load h id hm) s t ∧ t.dev.rd Reg.ENG_LDCMD_GO = 1 ∧
          Keeps [Reg.ENG_LDCMD_GO.addr] s t { Staged s t with
            eng := { s.dev.eng with load := some { id := id.toNat, image := im }, isA := t.dev.eng.isA, isB := t.dev.eng.isB } } ∧
          (∀ b, im.baseA = some b → ∀ i, i < im.code.length → Sparse.get 0 t.dev.eng.isA (b + i) = im.code.getD i 0) ∧
          (∀ b, im.baseB = some b → ∀ i, i < im.code.length → Sparse.get 0 t.dev.eng.isB (b + i) = im.code.getD i 0) ∧
          (∀ a, (∀ b, im.baseA = some b → a < b ∨ b + im.code.length ≤ a) →
            Sparse.get 0 t.dev.eng.isA a = Sparse.get 0 s.dev.eng.isA a) ∧
          (∀ a, (∀ b, im.baseB = some b → a < b ∨ b + im.code.length ≤ a) →
            Sparse.get 0 t.dev.eng.isB a = Sparse.get 0 s.dev.eng.isB a)) ∧
      (0xF00 ≤ id.toNat →
        (∃ t, Runs (.unload h id hm) s t ∧ LoaderEnds s t id.toNat 1 0x1D ∧ Keeps loaderWords s t (Staged s t)) ∧
        (∃ t, Runs (.query h id hm) s t ∧ LoaderEnds s t id.toNat 2 0x1D ∧ Keeps loaderWords s t (Staged s t))) ∧
      (id.toNat < 0xF00 → s.dev.image id.toNat = none →
        (∃ t, Runs (.unload h id hm) s t ∧ LoaderEnds s t id.toNat 1 0x1C ∧ Keeps loaderWords s t (Staged s t)) ∧
        (∃ t, Runs (.query h id hm) s t ∧ LoaderEnds s t id.toNat 2 0x1C ∧ Keeps loaderWords s t (Staged s t))) ∧
      (∀ im, id.toNat < 0xF00 → s.dev.image id.toNat = some im →
        (s.dev.sch.jobs.any (fun e => e.2.admitted && e.2.progId == id.toNat) = true →
          ∃ t, Runs (.unload h id hm) s t ∧ LoaderEnds s t id.toNat 1 0x1B ∧ Keeps loaderWords s t (Staged s t)) ∧
        (s.dev.sch.jobs.any (fun e => e.2.admitted && e.2.progId == id.toNat) = false →
          ∃ t, Runs (.unload h id hm) s t ∧ LoaderEnds s t id.toNat 1 0 ∧ Keeps loaderWords s t { Staged s t with
            eng := { s.dev.eng with images := Sparse.erase s.dev.eng.images id.toNat } }) ∧
        ∃ t, Runs (.query h id hm) s t ∧ LoaderEnds s t id.toNat 2 0 ∧
          Keeps (loaderWords ++ [Reg.ENG_LDINFO0_BASE.addr, Reg.ENG_LDINFO1_CODE_WORDS.addr, Reg.ENG_LDINFO2_BASEB.addr])
            s t (Staged s t) ∧
          t.dev.rd Reg.ENG_LDINFO0_LOADED = 1 ∧
          t.dev.rd Reg.ENG_LDINFO0_HMASK = (if im.baseA.isSome then 1 else 0) + (if im.baseB.isSome then 2 else 0) ∧
          t.dev.rd Reg.ENG_LDINFO0_BASE = ((im.baseA.orElse fun _ => im.baseB).getD 0) % 2 ^ Reg.ENG_LDINFO0_BASE.width ∧
          t.dev.rd Reg.ENG_LDINFO1_CODE_WORDS = im.code.length % 2 ^ Reg.ENG_LDINFO1_CODE_WORDS.width ∧
          t.dev.rd Reg.ENG_LDINFO1_N_ENTRY = im.entries.length % 2 ^ Reg.ENG_LDINFO1_N_ENTRY.width ∧
          t.dev.rd Reg.ENG_LDINFO2_BASEB = (im.baseB.getD 0) % 2 ^ Reg.ENG_LDINFO2_BASEB.width)) ∧
    (s.dev.on Reg.ENG_LDCMD_GO = true → s.dev.fab.queued.contains Reg.ENG_LDCMD_GO.key = false →
      ∀ c ∈ [Instr.load h id hm, .unload h id hm, .query h id hm], ∃ t, Runs c s t ∧
        Keeps [Reg.ENG_LDCMD_GO.addr] s t { s.dev with
          fab := { s.dev.fab with scan := t.dev.fab.scan, queued := s.dev.fab.queued ++ [Reg.ENG_LDCMD_GO.key] } })) ∧
  (∀ (s : State) (r : LoadRec) (ok : Bool), s.dev.eng.load = some r →
    s.dev.fab.queued.contains Reg.ENG_LDCMD_GO.key = false → r.id < 4096 →
    ∃ t, Runs (.loaded ok) s t ∧ t.dev.rd Reg.ENG_LDCMD_GO = 0 ∧ t.dev.rd Reg.ENG_LDRES_PROG_ID = r.id ∧
      t.dev.rd Reg.ENG_LDRES_REASON = (if ok then 0 else 0x88) ∧ t.dev.rd Reg.ENG_LDRES_REFUSED = (if ok then 0 else 1) ∧
      t.dev.rd Reg.ENG_LDRES_VALID = 1 ∧ t.dev.rd (Reg.ENG_STATUS_LDDONE 0) = 1 ∧
      Keeps loaderWords s t { s.dev with eng := { s.dev.eng with
        load := none, images := if ok then Sparse.put {} s.dev.eng.images r.id r.image else s.dev.eng.images } } ∧
      (Room s → EntersAll s t [if ok then (20, 5, r.id + (if r.image.baseA.isSome then 2 ^ 12 else 0)
        + (if r.image.baseB.isSome then 2 ^ 13 else 0)) else (20, 6, r.id + 0x88 * 2 ^ 16)]))

namespace Sys2Proof.Claims

/-- Nothing is captured for dump cause `c`: DUMP_CFG masks it (R496). -/
def NoDump (s : State) (c : Nat) : Prop := s.dev.rd Reg.DUMP_CFG_MASK / 2 ^ c % 2 = 0

/-- The device with engine `e` as `g`. -/
def WithEngine (s : State) (e : Nat) (g : EngS) : Dev :=
  { s.dev with eng := { s.dev.eng with e := Sparse.put {} s.dev.eng.e e g } }

end Sys2Proof.Claims

/-- R21, R156, R161, R163: RETEST takes an offline or failed engine under retest and is refused on an available one; its end leaves the
engine offline or available after a pass and FAILED after a fail; WCLR clears the longest measured run. A
restart of the supervisor, while it runs in a state above P4, abandons a LOAD in progress with LDABORT, and it is down until it resumes. -/
def Obligations.SelfTestsMeasurementsAndRestarts : Prop :=
  (∀ (s : State) (h : Agent) (e : Eng), Ready s h (Reg.ENG_CMD_RETEST e) false →
    ((s.dev.en e).st = 1 ∨ (s.dev.en e).st = 2 → s.dev.rd (Reg.ENG_CMD_RETEST e) = 0 → ∃ t, Runs (.retest h e) s t ∧
      t.dev = Around (WithEngine s e { s.dev.en e with st := 3, wasFailed := (s.dev.en e).st == 2 }) t.dev ∧ t.dev.rd (Reg.ENG_CMD_RETEST e) = 1 ∧
      t.dev.rd (Reg.ENG_STATUS_REASON e) = 0 ∧ OnlyFields [Reg.ENG_CMD_RETEST e, Reg.ENG_STATUS_REASON e] s t) ∧
    ((s.dev.en e).st = 0 → s.dev.rd (Reg.ENG_CMD_RETEST e) = 0 → ∃ t, Runs (.retest h e) s t ∧ t.dev = Around s.dev t.dev ∧
      t.dev.rd (Reg.ENG_STATUS_REASON e) = 0x20 ∧ OnlyFields [Reg.ENG_STATUS_REASON e] s t)) ∧
  (∀ (s : State) (e : Eng) (pass : Bool),
    (s.dev.rd (Reg.ENG_CMD_RETEST e) = 0 → ∃ t, Runs (.retestDone e pass) s t ∧ Keeps [] s t s.dev) ∧
    (s.dev.rd (Reg.ENG_CMD_RETEST e) = 1 → (s.dev.en e).st = 3 → s.dev.fab.queued.contains (Reg.ENG_CMD_RETEST e).key = false →
      ∃ t, Runs (.retestDone e pass) s t ∧
        t.dev = Around (WithEngine s e { s.dev.en e with
          st := if pass then s.dev.rd (Reg.ENG_CFG_OFFLINE e) else 2, wasFailed := false }) t.dev ∧
        t.dev.rd (Reg.ENG_STATUS_RETEST_DONE e) = 1 ∧ t.dev.rd (Reg.ENG_CMD_RETEST e) = 0 ∧
        t.dev.rd (Reg.ENG_STATUS_FAILED e) =
          (if pass = false ∧ (s.dev.en e).wasFailed = false then 1 else s.dev.rd (Reg.ENG_STATUS_FAILED e)) ∧
        OnlyFields [Reg.ENG_CMD_RETEST e, Reg.ENG_STATUS_RETEST_DONE e, Reg.ENG_STATUS_FAILED e] s t ∧
        (Room s → EntersAll s t [(20 + e / 8, 4, e + (if pass then 2 ^ 8 else 0))]))) ∧
  (∀ (s : State) (h : Agent) (e : Eng), Ready s h (Reg.ENG_CMD_WCLR e) false →
    ∃ t, Runs (.wclr h e) s t ∧ t.dev = Around s.dev t.dev ∧ t.dev.rd (Reg.ENG_WMAX_CYC e) = 0 ∧
      OnlyFields [Reg.ENG_WMAX_CYC e] s t) ∧
  (∀ s : State, s.dev.rd Reg.PWR_KSTAT_STEP < 4 ∨ s.dev.rd Reg.PWR_STATUS_STATE = 4 →
    ∃ t, Runs .supRestart s t ∧ Keeps [] s t s.dev) ∧
  (∀ s : State, 4 ≤ s.dev.rd Reg.PWR_KSTAT_STEP → s.dev.rd Reg.PWR_STATUS_STATE ≠ 4 → s.dev.hif.mb = none → NoDump s 1 →
    let sup := { s.dev.sup with down := some (s.dev.sup.down.getD s.dev.tick), restarts := s.dev.sup.restarts + 1 }
    (s.dev.eng.load = none → ∃ t, Runs .supRestart s t ∧ Keeps [] s t { s.dev with sup := sup, free := s.dev.free + 2 }) ∧
    (∀ r, s.dev.eng.load = some r → r.id < 4096 → ∃ t, Runs .supRestart s t ∧ t.dev.sup = sup ∧ t.dev.eng = { s.dev.eng with load := none } ∧
      t.dev.rd Reg.ENG_LDCMD_GO = 0 ∧ t.dev.rd Reg.ENG_LDRES_REASON = 0x89 ∧ t.dev.rd Reg.ENG_LDRES_PROG_ID = r.id ∧
      t.dev.rd Reg.ENG_LDRES_REFUSED = 1 ∧ t.dev.rd Reg.ENG_LDRES_VALID = 1 ∧ SameWords loaderWords s t)) ∧
  (∀ s : State, ∃ t, Runs .supResume s t ∧ t.dev.sup = { s.dev.sup with down := none } ∧
    (s.dev.sup.down = none → Keeps [] s t s.dev) ∧ (∀ a, blockOf a ≠ 11 → blockOf a ≠ 12 → t.dev.word a = s.dev.word a) ∧
    t.dev = Around { s.dev with sup := t.dev.sup, mac0 := t.dev.mac0, mac1 := t.dev.mac1, flw := { s.dev.flw with sapAt := t.dev.flw.sapAt } } t.dev)

namespace Sys2Proof.Claims

/-- A fault with `cause` arms the trigger of the ACTIVE hearth `i`, or keeps the one it has, and cancels a pending swap (R431,
R439); `d` is the device apart from it. -/
def Armed (s t : State) (i cause : Nat) : Prop :=
  (t.dev.hh i).trig = some ((s.dev.hh i).trig.getD cause) ∧ (t.dev.hh i).st = .active ∧ t.dev.hh (1 - i) = s.dev.hh (1 - i) ∧
  t.dev.hrt.swapPend = false ∧ t.dev.hrt.swapAt = none

/-- The cycles that the run on engine `e` has counted at a fault in cycle `c` of it (R96): at least those issued, at most WCET. -/
def FaultCount (s : State) (e c : Nat) : Nat := max ((s.dev.en e).next - 1) (min c (s.dev.jobF (s.dev.en e).job).wcet)

/-- The run on engine `e` has ended with `n` cycles counted (R96, R128). -/
def RunClosed (s t : State) (e n : Nat) : Prop :=
  (t.dev.en e).running = false ∧ t.dev.rd (Reg.ENG_CYC_COUNT e) = (s.dev.rd (Reg.ENG_CYC_COUNT e) + n) % 2 ^ 32 ∧
  t.dev.rd (Reg.ENG_FLAGS_FLAGS e) = s.dev.rd (Reg.ENG_FLAGS_FLAGS e) ||| (s.dev.en e).flags.toNat

end Sys2Proof.Claims

/-- R101, R159, R160, R195, R431, R538: an engine fault, an uncorrectable error of the instruction SRAM or of grate memory, and a
dropped rail in an ACTIVE hearth arm its takeover trigger; elsewhere an engine fault ends what the engine runs with ENGFAULT.
The scrubbers count what they correct, a word already poisoned concerns only the engine that reads it, and a rewritten
instruction word is good again. -/
def Obligations.FaultsReachTheHearth : Prop :=
  (∀ (s : State) (e : Eng) (r : BitVec 8) (c : Nat), let i := e.val / 8
    (s.dev.hh i).st = .active → NoDump s 6 →
      ∃ t, Runs (.engineFault e r c) s t ∧ (t.dev.en e).st = 2 ∧ t.dev.rd (Reg.ENG_STATUS_FAILED e) = 1 ∧ Armed s t i 1 ∧
        (∀ q, q ≠ e.val → t.dev.en q = s.dev.en q) ∧
        ((s.dev.en e).running = false → OnlyFields [Reg.ENG_STATUS_FAILED e] s t ∧
          t.dev = Around { WithEngine s e { s.dev.en e with st := 2 } with hrt := t.dev.hrt } t.dev) ∧
        ((s.dev.en e).running = true → RunClosed s t e (FaultCount s e c)) ∧
        (Room s → EntersAll s t [(20 + i, 3, e + r.toNat * 2 ^ 8)])) ∧
  (∀ (s : State) (e : Eng) (r : BitVec 8) (c : Nat), (s.dev.hh (e / 8)).st ≠ .active → (s.dev.en e).running = true →
    (∀ p ∈ (s.dev.sh (e / 8)).plan, p.eng = e % 8 → p.ended = false → p.job = (s.dev.en e).job) →
    ∃ t, Runs (.engineFault e r c) s t ∧ (t.dev.en e).st = 2 ∧ RunClosed s t e (FaultCount s e c) ∧
      t.dev.rd (Reg.ENG_STATUS_FAILED e) = 1 ∧ t.dev.resOf (s.dev.en e).job = (ocOV, 0x88) ∧
      (∀ q, q ≠ e.val → t.dev.en q = s.dev.en q)) ∧
  (∀ (s : State) (h : Hearth) (n : Nat), (s.dev.hh (hIx h)).st ≠ .active →
    ∃ t, Runs (.isramUe h n none) s t ∧ Keeps [] s t { s.dev with
      eng := { s.dev.eng with isBad := (hIx h, n) :: s.dev.eng.isBad } }) ∧
  (∀ (s : State) (h : Hearth) (n : Nat), (s.dev.hh (hIx h)).st = .active →
    (∃ t, Runs (.isramUe h n none) s t ∧ Armed s t (hIx h) 3 ∧ Keeps [] s t { s.dev with
      hrt := t.dev.hrt, eng := { s.dev.eng with isBad := (hIx h, n) :: s.dev.eng.isBad } }) ∧
    (∀ e : Eng, e.val / 8 = hIx h → NoDump s 6 → ∃ t, Runs (.isramUe h n (some e)) s t ∧ Armed s t (hIx h) 1 ∧
      (t.dev.en e).st = 2 ∧ t.dev.rd (Reg.ENG_STATUS_FAILED e) = 1 ∧
      ((s.dev.en e).running = true → RunClosed s t e ((s.dev.en e).next - 1)) ∧
      t.dev = Around { s.dev with hrt := t.dev.hrt, free := s.dev.free + 1, eng := t.dev.eng, sch := t.dev.sch } t.dev) ∧
    (∃ t, Runs (.railDrop h) s t ∧ Armed s t (hIx h) 5 ∧ Keeps [] s t { s.dev with hrt := t.dev.hrt }) ∧
    (∀ by_ : Option Eng, (s.dev.hm (hIx h)).poison.contains (n / 2) = false →
      ∃ t, Runs (.gue h n by_) s t ∧ Armed s t (hIx h) 2 ∧ t.dev.rd Reg.PGU_STATUS_UE = 1 ∧
        (let c := if hIx h = 0 then Reg.PGU_GUEA_COUNT else Reg.PGU_GUEB_COUNT
         t.dev.rd c = (s.dev.rd c + 1) % 2 ^ c.width ∧ OnlyFields [c, Reg.PGU_STATUS_UE, Reg.PGU_STATUS_CNT_HALF] s t) ∧
        t.dev = Around { s.dev with hrt := t.dev.hrt } t.dev ∧
        (Room s → EntersAll s t [(6, 6, hIx h + n / 1024 % 2048 * 2)]))) ∧
  (∀ (s : State) (h : Hearth) (n : Nat), (s.dev.hm (hIx h)).poison.contains (n / 2) = true →
    (∃ t, Runs (.gue h n none) s t ∧ t.dev = Around s.dev t.dev ∧ t.dev.rd Reg.PGU_STATUS_UE = 1 ∧
      OnlyFields [if hIx h = 0 then Reg.PGU_GUEA_COUNT else Reg.PGU_GUEB_COUNT, Reg.PGU_STATUS_UE, Reg.PGU_STATUS_CNT_HALF] s t) ∧
    ∀ e : Eng, e.val / 8 = hIx h → (s.dev.en e).running = true →
      ∃ t, Runs (.gue h n (some e)) s t ∧ t.dev.resOf (s.dev.en e).job = (ocOV, 0x89) ∧
        RunClosed s t e ((s.dev.en e).next - 1) ∧ t.dev.hrt = s.dev.hrt ∧ t.dev.rd Reg.PGU_STATUS_UE = 1) ∧
  (∀ (s : State) (h : Hearth) (n : Nat), ∃ t, Runs (.isramRewrite h n) s t ∧ Keeps [] s t { s.dev with
      eng := { s.dev.eng with isBad := t.dev.eng.isBad } } ∧
    ∀ x, x ∈ t.dev.eng.isBad ↔ x ∈ s.dev.eng.isBad ∧ x ≠ (hIx h, n)) ∧
  (∀ (s : State) (h : Hearth) (isram : Bool) (n : Nat),
    let c := if isram then Reg.ENG_ISRAM_ECC_COUNT else if hIx h = 0 then Reg.PGU_GCEA_COUNT else Reg.PGU_GCEB_COUNT
    ∃ t, Runs (.scrub h isram n) s t ∧ t.dev = Around s.dev t.dev ∧ t.dev.rd c = (s.dev.rd c + 1) % 2 ^ c.width ∧
      (isram = false → t.dev.rd Reg.PGU_STATUS_CE = 1) ∧
      OnlyFields ([c] ++ if isram then [Reg.ENG_STATUS_CNT_HALF 0] else [Reg.PGU_STATUS_CE, Reg.PGU_STATUS_CNT_HALF]) s t)

/-! ### Grate memory, delay lines, the message store and the DRAM channels -/

namespace Sys2Proof.Claims

/-- A delay-line command on line `l` has ended with `code` (R203). -/
def LineCommandEnds (t : State) (l code : Nat) : Prop :=
  t.dev.rd Reg.PGU_DLRES_REASON = code ∧ t.dev.rd Reg.PGU_DLRES_LINE = l ∧
  t.dev.rd Reg.PGU_DLRES_REFUSED = (if code = 0 then 0 else 1) ∧ t.dev.rd Reg.PGU_DLRES_VALID = 1 ∧
  t.dev.rd Reg.PGU_STATUS_DLDONE = 1

/-- The words of the delay-line command and result, and the paging unit's status. -/
def lineWords : List Nat := [Reg.PGU_DLCMD_GO.addr, Reg.PGU_DLRES_VALID.addr, Reg.PGU_STATUS_DLDONE.addr]

/-- The command is refused with `code`, and no other state changes. -/
def LineRefused (c : Instr) (s : State) (l code : Nat) : Prop :=
  ∃ t, Runs c s t ∧ LineCommandEnds t l code ∧ Keeps lineWords s t (Staged s t)

end Sys2Proof.Claims

/-- R203, R204: READ copies the line's entry; DEFINE stores the staged line at the first fit and zeroes its pages in the channels of
its hearths; FREE removes a line that no admitted job names, with everything its frames hold; each is refused with the
lowest failing reason and then changes nothing else. -/
def Obligations.DelayLineCommandsActOnTheLineTable : Prop :=
  ∀ (s : State) (h : Agent) (line : BitVec 12), Ready s h Reg.PGU_DLCMD_GO true →
    let l := line.toNat
    let named := s.dev.sch.jobs.any fun e => e.2.admitted && e.2.namesLine l
    (3072 ≤ l → ∀ c ∈ [Instr.dlRead h line, .defineLine h line, .freeLine h line], LineRefused c s l 0x01) ∧
    (l < 3072 → s.dev.rd Reg.ALC_CFG_ENABLE = 0 → LineRefused (.dlRead h line) s l 0x03 ∧ LineRefused (.freeLine h line) s l 0x03) ∧
    (l < 3072 → s.dev.rd Reg.ALC_CFG_ENABLE = 1 → s.dev.line l = none →
      LineRefused (.dlRead h line) s l 0x14 ∧ LineRefused (.freeLine h line) s l 0x14) ∧
    (l < 3072 → s.dev.rd Reg.ALC_CFG_ENABLE = 1 → (s.dev.line l).isSome → named = true → LineRefused (.freeLine h line) s l 0x15) ∧
    (∀ x, l < 3072 → s.dev.rd Reg.ALC_CFG_ENABLE = 1 → s.dev.line l = some x →
      ∃ t, Runs (.dlRead h line) s t ∧ LineCommandEnds t l 0 ∧
        Keeps (lineWords ++ [Reg.PGU_DLREAD0.addr, Reg.PGU_DLREAD1_TAP0.addr, Reg.PGU_DLREAD2_TAPSPAN.addr,
          Reg.PGU_DLREAD3_BASE.addr]) s t (Staged s t) ∧
        t.dev.rd Reg.PGU_DLREAD0 = (x.npages + (if x.prot then 2 ^ 8 else 0) + x.hearth * 2 ^ 9 + x.slew * 2 ^ 16) % 2 ^ Reg.PGU_DLREAD0.width ∧
        t.dev.rd Reg.PGU_DLREAD1_TAP0 = x.tap0 % 2 ^ Reg.PGU_DLREAD1_TAP0.width ∧
        t.dev.rd Reg.PGU_DLREAD2_TAPSPAN = x.span % 2 ^ Reg.PGU_DLREAD2_TAPSPAN.width ∧
        t.dev.rd Reg.PGU_DLREAD3_BASE = (s.dev.delayBase / 1024 + x.base) % 2 ^ Reg.PGU_DLREAD3_BASE.width ∧
        t.dev.rd Reg.PGU_DLREAD3_FR = (x.fr - 4) % 2 ^ Reg.PGU_DLREAD3_FR.width) ∧
    (∀ x, l < 3072 → s.dev.rd Reg.ALC_CFG_ENABLE = 1 → s.dev.line l = some x → named = false →
      ∃ t, Runs (.freeLine h line) s t ∧ LineCommandEnds t l 0 ∧ Keeps lineWords s t { Staged s t with mem := t.dev.mem } ∧
        t.dev.mem.lines = s.dev.mem.lines.filter (fun e => e.1 != l) ∧ t.dev.mem.msgs = s.dev.mem.msgs ∧
        t.dev.mem.ch0 = s.dev.mem.ch0 ∧ t.dev.mem.ch1 = s.dev.mem.ch1 ∧
        ∀ i, i < 2 → (t.dev.hm i).tiles = (s.dev.hm i).tiles ∧ (t.dev.hm i).gw = (s.dev.hm i).gw ∧
          (∀ e ∈ (t.dev.hm i).frames, e.2.line ≠ l) ∧ (∀ r ∈ (t.dev.hm i).inflight, r.line ≠ l) ∧
          (∀ r ∈ (t.dev.hm i).queue, r.line ≠ l) ∧ (∀ a ∈ (t.dev.hm i).around, a.line ≠ l)) ∧
    (∀ c, lowest (s.dev.defineFails l) = some c → LineRefused (.defineLine h line) s l c) ∧
    (∀ b, s.dev.defineFails l = [] → s.dev.findDram (s.dev.stagedLine 0) = some b →
      let x := s.dev.stagedLine b
      ∃ t, Runs (.defineLine h line) s t ∧ LineCommandEnds t l 0 ∧ Keeps lineWords s t { Staged s t with mem := t.dev.mem } ∧
        t.dev.mem.lines = s.dev.mem.lines ++ [(l, x)] ∧ t.dev.mem.msgs = s.dev.mem.msgs ∧ t.dev.mem.par = s.dev.mem.par ∧
        ∀ c, c < 2 → (t.dev.hm c).tiles = (s.dev.hm c).tiles ∧ (t.dev.ch c).failed = (s.dev.ch c).failed ∧
          (c ∈ s.dev.lineHearths x → (s.dev.ch c).failed = false → ∀ i, i < 1024 * x.npages →
            Sparse.get 0 (t.dev.ch c).words (s.dev.dramKey x 0 + i) = 0) ∧
          (∀ a, c ∉ s.dev.lineHearths x ∨ (s.dev.ch c).failed = true ∨ a < s.dev.dramKey x 0 ∨ s.dev.dramKey x 0 + 1024 * x.npages ≤ a →
            Sparse.get 0 (t.dev.ch c).words a = Sparse.get 0 (s.dev.ch c).words a))

/-- R197, R198, R200, R219, R221, R529: the owner of writes writes one word of a bank or of the tile pool in the selected hearths; another
page counts WINVIOL and another host is a lock violation; zeroed tiles read 0 and are back in the pool; MSG_RELOAD is refused
while a message line is named, and the load that ends it fills the message region from the image in the boot flash or leaves no
store. -/
def Obligations.WindowTilesAndMessages : Prop :=
  (∀ (s : State) (h : Agent) (off : Fin 0x400000) (data : Word), let p := s.dev.winPage off.val
    let key := p * 1024 + off.val % 4096 / 4
    let sel := s.dev.rd Reg.PGU_WIN_HSEL
    (s.dev.owns h = true → sel ≠ 0 → s.dev.winWritable p = true →
      ∃ t, Runs (.windowWrite h off data) s t ∧
        Keeps [] s t { s.dev with mem := { s.dev.mem with hA := t.dev.mem.hA, hB := t.dev.mem.hB } } ∧
        ∀ i, i < 2 → (t.dev.hm i).tiles = (s.dev.hm i).tiles ∧ (t.dev.hm i).frames = (s.dev.hm i).frames ∧
          ∀ k, (t.dev.hm i).word k = if sel / 2 ^ i % 2 = 1 ∧ k = key then data else (s.dev.hm i).word k) ∧
    (s.dev.owns h = true → sel ≠ 0 → s.dev.winWritable p = false →
      ∃ t, Runs (.windowWrite h off data) s t ∧ t.dev = Around s.dev t.dev ∧
        OnlyFields [Reg.PGU_WINVCNT_COUNT, Reg.PGU_STATUS_WINVIOL, Reg.PGU_STATUS_CNT_HALF] s t ∧
        t.dev.rd Reg.PGU_STATUS_WINVIOL = 1 ∧
        t.dev.rd Reg.PGU_WINVCNT_COUNT = (s.dev.rd Reg.PGU_WINVCNT_COUNT + 1) % 2 ^ Reg.PGU_WINVCNT_COUNT.width) ∧
    (s.dev.owns h = false → ∃ t, Runs (.windowWrite h off data) s t ∧ t.dev = Around s.dev t.dev ∧
      t.dev.rd Reg.LOCK_VCNT_COUNT = (s.dev.rd Reg.LOCK_VCNT_COUNT + 1) % 2 ^ 32 ∧ t.dev.rd Reg.LOCK_STATUS_LOCK_VIOL = 1)) ∧
  (∀ (s : State) (h : Hearth), ∃ t, Runs (.tilesZeroed h) s t ∧
    Keeps [] s t { s.dev with mem := { s.dev.mem with hA := t.dev.mem.hA, hB := t.dev.mem.hB } } ∧
    t.dev.hm (1 - hIx h) = s.dev.hm (1 - hIx h) ∧ t.dev.hm (hIx h) = { s.dev.hm (hIx h) with gw := (t.dev.hm (hIx h)).gw, zeroing := [] } ∧
    ∀ k, (t.dev.hm (hIx h)).word k =
      if (s.dev.hm (hIx h)).zeroing.any (fun r => decide (r.1 * 16 ≤ k) && decide (k < r.1 * 16 + r.2 * 16)) then 0
      else (s.dev.hm (hIx h)).word k) ∧
  (∀ (s : State) (h : Agent), Ready s h Reg.PGU_CMD_MSG_RELOAD false → s.dev.on Reg.PGU_CMD_MSG_RELOAD = false →
    let named := s.dev.sch.jobs.any fun e => e.2.admitted && decide (e.2.dlCount > 0) && decide (3072 < e.2.dlFirst + e.2.dlCount)
    (named = true → ∃ t, Runs (.msgReload h) s t ∧ Keeps [] s t s.dev ∧
      (Room s → EntersAll s t [(6, 4, s.dev.mem.msgs.length + 0x17 * 2 ^ 16)])) ∧
    (named = false → ∃ t, Runs (.msgReload h) s t ∧ t.dev.rd Reg.PGU_CMD_MSG_RELOAD = 1 ∧
      OnlyFields [Reg.PGU_CMD_MSG_RELOAD] s t ∧ t.dev = Around { s.dev with mem := { s.dev.mem with reloading := true } } t.dev)) ∧
  (∀ s : State, s.dev.mem.reloading = false → ∃ t, Runs .msgLoad s t ∧ Keeps [] s t s.dev) ∧
  (∀ s : State, let b := messageImage s.nv s.dev.boot
    s.dev.mem.reloading = true →
    s.dev.fab.queued.contains Reg.PGU_CMD_MSG_RELOAD.key = false →
    let n := imageSize (bits (imageWord b 3) 16 0)
    let ms := readDirectory b (bits (imageWord b 2) 10 0)
    let fits := msgImageOk b = true ∧ n ≤ 2 ^ 28 ∧ n ≤ s.dev.rd Reg.PGU_REGION_MSG_MIB * 2 ^ 20
    (¬ fits → ∃ t, Runs .msgLoad s t ∧ t.dev.mem.msgValid = false ∧ t.dev.mem.msgs = [] ∧ t.dev.mem.reloading = false ∧
      t.dev.mem.ch0 = s.dev.mem.ch0 ∧ t.dev.mem.ch1 = s.dev.mem.ch1 ∧ t.dev.rd Reg.PGU_CMD_MSG_RELOAD = 0 ∧
      OnlyFields [Reg.PGU_CMD_MSG_RELOAD] s t ∧ (Room s → EntersAll s t [(6, 4, 0x18 * 2 ^ 16)])) ∧
    (fits → (∀ i, i < 2 → 192 + (ms.filter (·.pin)).length ≤ s.dev.frameCount - s.dev.lineFrames i) →
      ∃ t, Runs .msgLoad s t ∧ t.dev.mem.msgValid = true ∧ t.dev.mem.msgs = ms ∧ t.dev.mem.reloading = false ∧
        t.dev.mem.lines = s.dev.mem.lines ∧ t.dev.rd Reg.PGU_CMD_MSG_RELOAD = 0 ∧ OnlyFields [Reg.PGU_CMD_MSG_RELOAD] s t ∧
        (Room s → EntersAll s t [(6, 4, ms.length)]) ∧
        ∀ c, c < 2 → (s.dev.ch c).failed = false →
          (∀ i, i < (n + 3) / 4 → Sparse.get 0 (t.dev.ch c).words i = BitVec.ofNat 32 (imageWord (b.take n) i)) ∧
          (∀ a, (n + 3) / 4 ≤ a → Sparse.get 0 (t.dev.ch c).words a = Sparse.get 0 (s.dev.ch c).words a)))

namespace Sys2Proof.Claims

/-- Channel `c` fails with `cause` (R226): it is marked, and DFAIL is posted. -/
def ChannelFails (s t : State) (c cause : Nat) : Prop :=
  t.dev.ch c = { s.dev.ch c with failed := true, trained := false, ues := (t.dev.ch c).ues, bad := (t.dev.ch c).bad,
                                     dqsAt := (t.dev.ch c).dqsAt, mr4At := (t.dev.ch c).mr4At } ∧
  t.dev.ch (1 - c) = s.dev.ch (1 - c) ∧ t.dev.rd Reg.PGU_STATUS_DFAILEV = 1 ∧
  ((s.dev.hh c).st = .active → (t.dev.hh c).trig = some ((s.dev.hh c).trig.getD 4)) ∧
  ((s.dev.hh c).st = .standby ∨ (s.dev.hh c).st = .syncing → (t.dev.hh c).st = .failed) ∧
  (Room s → ∃ x ∈ t.dev.evq.q, x.src = 6 ∧ x.code = 1 ∧ x.arg = c + cause * 2 ^ 8)

/-- The paging unit of hearth `i` has nothing to catch up with but line `line`: no miss waits, and the frames of its head pair are
held. -/
def PagingRests (s : State) (i line : Nat) (x : Line) : Prop :=
  (∀ e ∈ s.dev.mem.lines, e.1 = line) ∧ (s.dev.hm i).waiting = [] ∧ ∀ p ∈ x.pair, ((s.dev.hm i).frameOf line p).isSome = true

end Sys2Proof.Claims

/-- R206, R211 to R213, R224 to R227: in the order of issue a page read fills its frame, and a page write or write-around reaches DRAM
but for poisoned words; a failed channel carries no transfer; uncorrectable errors are counted and, at UE_LIMIT within a second, fail the
channel, as do a lost command, failed tracking and rate code 7; retraining and the copy that follows it bring a channel back. -/
def Obligations.PageTransfersAndChannels : Prop :=
  (∀ (s : State) (h : Hearth) (line page cyc f : Nat) (fr : Frame) (x : Line) (r : Xfer), let i := hIx h
    MemoryWf s → s.dev.completes i line page false = some r → r.line = line → r.page = page → line < 3072 →
    s.dev.line line = some x → (s.dev.hm i).frameOf line page = some (f, fr) → fr.st = .filling →
    (s.dev.hm i).held = [] → (s.dev.hm i).alt = [] → (∀ e, e < 16 → (s.dev.en e).miss = none) →
    ∃ t, Runs (.pageReadDone h line page cyc 0) s t ∧ t.dev.live = s.dev.live ∧
      (PagingRests s i line x → (Sparse.get {} (t.dev.hm i).frames f).st = .resident) ∧
      (∀ k, (t.dev.hm i).word k = if s.dev.frameKey f ≤ k ∧ k < s.dev.frameKey f + 1024
        then Sparse.get 0 (s.dev.ch i).words (s.dev.dramKey x page + (k - s.dev.frameKey f)) else (s.dev.hm i).word k) ∧
      t.dev.hm (1 - i) = s.dev.hm (1 - i) ∧ t.dev.mem.ch0 = s.dev.mem.ch0 ∧ t.dev.mem.ch1 = s.dev.mem.ch1 ∧
      ∀ e, e < 16 → t.dev.en e = s.dev.en e) ∧
  (∀ (s : State) (h : Hearth) (line page f : Nat) (fr : Frame) (x : Line) (r : Xfer), let i := hIx h
    MemoryWf s → s.dev.completes i line page true = some r →
    s.dev.line line = some x → (s.dev.hm i).frameOf line page = some (f, fr) → fr.st = .writeback →
    ∃ t, Runs (.pageWriteDone h line page) s t ∧ t.dev.live = s.dev.live ∧
      (PagingRests s i line x → (Sparse.get {} (t.dev.hm i).frames f).st = .resident) ∧
      (∀ k, (t.dev.hm i).word k = (s.dev.hm i).word k) ∧
      ∀ c, c < 2 → ∀ a, Sparse.get 0 (t.dev.ch c).words a =
        if (x.prot = true ∨ c = i) ∧ (s.dev.ch c).failed = false ∧ s.dev.dramKey x page ≤ a ∧ a < s.dev.dramKey x page + 1024 ∧
          (s.dev.hm i).poison.contains ((s.dev.frameKey f + (a - s.dev.dramKey x page)) / 2) = false
        then (s.dev.hm i).word (s.dev.frameKey f + (a - s.dev.dramKey x page)) else Sparse.get 0 (s.dev.ch c).words a) ∧
  (∀ (s : State) (h : Hearth) (line page cyc ce : Nat), let i := hIx h
    (s.dev.completes i line page false = none →
      ∃ t, Runs (.pageReadDone h line page cyc ce) s t ∧ t.dev.live = s.dev.live ∧ t.dev = Around s.dev t.dev) ∧
    (s.dev.completes i line page true = none →
      ∃ t, Runs (.pageWriteDone h line page) s t ∧ t.dev.live = s.dev.live ∧ t.dev = Around s.dev t.dev)) ∧
  (∀ (s : State) (h : Hearth) (w : WriteAround) (r : List WriteAround) (x : Line), let i := hIx h
    (s.dev.hm i).around = w :: r → s.dev.line w.line = some x → (s.dev.ch i).failed = false →
    (∀ p ∈ w.samples, (s.dev.hm i).behind w.line (p.1 / 1024) w.seq = false) →
    ∃ t, Runs (.writeAroundDone h) s t ∧ t.dev.live = s.dev.live ∧ t.dev.hm i = { s.dev.hm i with around := r } ∧
      (x.prot = false → t.dev.hm (1 - i) = s.dev.hm (1 - i)) ∧
      (∀ q v f, w.samples = [(q, v)] → x.prot = true → (s.dev.hm (1 - i)).resident w.line (q / 1024) = some f →
        (t.dev.hm (1 - i)).word (s.dev.frameKey f + q % 1024) = v) ∧
      ∀ c, c < 2 → ∀ a, Sparse.get 0 (t.dev.ch c).words a =
        match w.samples.reverse.find? fun p => s.dev.dramKey x 0 + p.1 == a with
        | some p => if (x.prot = true ∨ c = i) ∧ (s.dev.ch c).failed = false then p.2 else Sparse.get 0 (s.dev.ch c).words a
        | none => Sparse.get 0 (s.dev.ch c).words a) ∧
  (∀ (s : State) (c : Chan) (n : Nat) (again : Bool),
    let cnt := if c.val = 0 then Reg.PGU_DUE0_COUNT else Reg.PGU_DUE1_COUNT
    let recent := (s.dev.ch c).ues.filter fun t => decide (s.dev.tick < t + 8000)
    let still := s.dev.readingWord c n = []
    (still → recent.length + 1 < s.dev.rd Reg.PGU_DFAIL_CFG_UE_LIMIT →
      ∃ t, Runs (.due c n again) s t ∧ t.dev.rd cnt = (s.dev.rd cnt + 1) % 2 ^ cnt.width ∧ t.dev.rd Reg.PGU_STATUS_UE = 1 ∧
        t.dev.ch c = { s.dev.ch c with ues := recent ++ [s.dev.tick], bad := (t.dev.ch c).bad } ∧ n ∈ (t.dev.ch c).bad ∧
        t.dev.ch (1 - c.val) = s.dev.ch (1 - c.val) ∧
        (Room s → EntersAll s t [(6, 2, c + n / 8 % 2 ^ 32 * 2 ^ 16)])) ∧
    (s.dev.rd Reg.PGU_DFAIL_CFG_UE_LIMIT ≤ recent.length + 1 → (s.dev.ch c).failed = false → NoDump s 5 →
      ∃ t, Runs (.due c n again) s t ∧ ChannelFails s t c 3)) ∧
  (∀ (s : State) (c : Chan) (r : BitVec 3),
    let due := fun at_ => s.dev.sch.win = .close ∧ (s.dev.ch c).trained = true ∧ (s.dev.ch c).failed = false ∧
      s.dev.stopped 6 = false ∧ at_ + 128 ≤ s.dev.tick
    (∃ t, Runs (.zqCal c) s t ∧ Keeps [] s t s.dev) ∧
    (¬ due (s.dev.ch c).dqsAt → ∀ ok, ∃ t, Runs (.dqsTrack c ok) s t ∧ Keeps [] s t s.dev) ∧
    (¬ due (s.dev.ch c).mr4At → ∃ t, Runs (.mr4Read c r) s t ∧ Keeps [] s t s.dev) ∧
    (due (s.dev.ch c).dqsAt → ∃ t, Runs (.dqsTrack c true) s t ∧ t.dev.ch c = { s.dev.ch c with dqsAt := s.dev.tick } ∧
      t.dev.ch (1 - c) = s.dev.ch (1 - c) ∧ Keeps [] s t { s.dev with mem := { s.dev.mem with ch0 := t.dev.mem.ch0, ch1 := t.dev.mem.ch1 } }) ∧
    (NoDump s 5 → (due (s.dev.ch c).dqsAt → ∃ t, Runs (.dqsTrack c false) s t ∧ ChannelFails s t c 2) ∧
      ((s.dev.ch c).failed = false → ∃ t, Runs (.dramCmdTimeout c) s t ∧ ChannelFails s t c 1) ∧
      (due (s.dev.ch c).mr4At → ∃ t, Runs (.mr4Read c 7) s t ∧ ChannelFails s t c 0)) ∧
    (let f := if c.val = 0 then Reg.PGU_MR4_REF0 else Reg.PGU_MR4_REF1
     due (s.dev.ch c).mr4At → r.toNat ≠ 7 → ∃ t, Runs (.mr4Read c r) s t ∧ t.dev.rd f = r.toNat ∧ OnlyFields [f] s t ∧
       t.dev.ch c = { s.dev.ch c with mr4At := s.dev.tick } ∧
       t.dev = Around { s.dev with mem := { s.dev.mem with ch0 := t.dev.mem.ch0, ch1 := t.dev.mem.ch1 } } t.dev)) ∧
  (∀ (s : State) (h : Agent) (c : Chan), Ready s h (retrainFld c) false → s.dev.on (retrainFld c) = false →
    (s.dev.canPlan c = true → ∃ t, Runs (.retrain h c) s t ∧ Keeps [] s t s.dev ∧
      (Room s → EntersAll s t [(6, 5, c + 0x1B * 2 ^ 16)])) ∧
    (s.dev.canPlan c = false → ∃ t, Runs (.retrain h c) s t ∧ t.dev.rd (retrainFld c) = 1 ∧ OnlyFields [retrainFld c] s t ∧
      t.dev = Around { s.dev with mem := { s.dev.mem with retraining := s.dev.mem.retraining ++ [c.val] } } t.dev)) ∧
  (∀ (s : State) (c : Chan), c.val ∈ s.dev.mem.retraining → s.dev.fab.queued.contains (retrainFld c).key = false →
    (∃ t, Runs (.retrainDone c true) s t ∧ t.dev.rd (retrainFld c) = 0 ∧ t.dev.mem.resync = some c.val ∧
      t.dev.ch c = { s.dev.ch c with failed := false, trained := true, ues := [], bad := [] } ∧
      t.dev.ch (1 - c.val) = s.dev.ch (1 - c.val) ∧ c.val ∉ t.dev.mem.retraining) ∧
    ((s.dev.ch c).failed = false → ∃ t, Runs (.retrainDone c false) s t ∧ ChannelFails s t c 2 ∧ t.dev.rd (retrainFld c) = 0) ∧
    ((s.dev.ch c).failed = true → ∃ t, Runs (.retrainDone c false) s t ∧ t.dev.rd (retrainFld c) = 0 ∧
      t.dev.ch c = s.dev.ch c ∧ t.dev.mem.resync = s.dev.mem.resync ∧ c.val ∉ t.dev.mem.retraining ∧
      (Room s → EntersAll s t [(6, 5, c + 0x88 * 2 ^ 16)]))) ∧
  (∀ s : State, (s.dev.ch 0).failed = true ∨ (s.dev.ch 1).failed = true ∨ s.dev.mem.resync = none →
    ∃ t, Runs .resyncDone s t ∧ Keeps [] s t s.dev) ∧
  (∀ (s : State) (c : Nat), MemoryWf s → c < 2 → s.dev.mem.resync = some c → (s.dev.ch 0).failed = false →
    (s.dev.ch 1).failed = false →
    ∃ t, Runs .resyncDone s t ∧ t.dev.mem.resync = none ∧ t.dev.ch (1 - c) = s.dev.ch (1 - c) ∧
      ∀ a, Sparse.get 0 (t.dev.ch c).words a =
        if (s.dev.mem.msgValid = true ∧ a < (imageSize s.dev.mem.msgPages + 3) / 4) ∨
          (∃ e ∈ s.dev.mem.lines, e.2.prot = true ∧ s.dev.dramKey e.2 0 ≤ a ∧ a < s.dev.dramKey e.2 0 + 1024 * e.2.npages)
        then Sparse.get 0 (s.dev.ch (1 - c)).words a else Sparse.get 0 (s.dev.ch c).words a)

/-! ### Network flows and TDM ports -/

namespace Sys2Proof.Claims

/-- A flow command on flow `f` in direction `tx` has ended with `code` (R232). -/
def FlowCommandEnds (t : State) (f : Nat) (tx : Bool) (code : Nat) : Prop :=
  t.dev.rd Reg.FLW_FRES_REASON = code ∧ t.dev.rd Reg.FLW_FRES_FLOW = f ∧ t.dev.rd Reg.FLW_FRES_DIR = (if tx then 1 else 0) ∧
  t.dev.rd Reg.FLW_FRES_REFUSED = (if code = 0 then 0 else 1) ∧ t.dev.rd Reg.FLW_FRES_VALID = 1 ∧
  t.dev.rd Reg.FLW_STATUS_FDONE = 1

/-- The words of the flow command and result, and the block's status. -/
def flowWords : List Nat := [Reg.FLW_FCMD_GO.addr, Reg.FLW_FRES_VALID.addr, Reg.FLW_STATUS_FDONE.addr]

/-- Of the flows nothing changes but the reason of flow `f` in direction `tx`, which becomes `code`, and the requests that wait for
the next boundary, which become `pend`. -/
def FlowsWait (s t : State) (f : Nat) (tx : Bool) (code : Nat) (pend : List FlowReq) : Prop :=
  t.dev.flw.pend = pend ∧ t.dev.flw.mem = s.dev.flw.mem ∧ t.dev.flw.stats = s.dev.flw.stats ∧ t.dev.flw.pipe = s.dev.flw.pipe ∧
  (∀ g, t.dev.rxf g = if tx = false ∧ g = f then { s.dev.rxf g with reason := code } else s.dev.rxf g) ∧
  (∀ g, t.dev.txf g = if tx = true ∧ g = f then { s.dev.txf g with reason := code } else s.dev.txf g)

end Sys2Proof.Claims

/-- R232, R233, R254, R255, R258: an APPLY that passes the consistency check, and a STOP, wait for the next boundary; an APPLY with ENABLE = 0
acts as a STOP; a refused APPLY changes nothing live and reports the lowest failing reason, DEPEND while the block is off. -/
def Obligations.FlowCommandsWaitForTheBoundary : Prop :=
  ∀ (s : State) (h : Agent) (tx : Bool) (flow : BitVec 8), Ready s h Reg.FLW_FCMD_GO true →
    let f := flow.toNat
    let ds := s.dev.stagedDesc tx f
    let recs := if tx then [s.dev.stagedHdr f 0, s.dev.stagedHdr f 1] else [s.dev.stagedRec f 0, s.dev.stagedRec f 1]
    let ends := fun (c : Instr) (code : Nat) (pend : List FlowReq) => ∃ t, Runs c s t ∧ FlowCommandEnds t f tx code ∧
      FlowsWait s t f tx code pend ∧ Keeps flowWords s t { Staged s t with flw := t.dev.flw }
    (∃ t, Runs (.stop h tx flow) s t ∧ FlowCommandEnds t f tx 0 ∧ Keeps flowWords s t { Staged s t with
      flw := { s.dev.flw with pend := s.dev.flw.pend ++ [{ tx := tx, flow := f }] } }) ∧
    (s.dev.rd Reg.FLW_CFG_ENABLE = 0 → ends (.apply h tx flow) 0x03 s.dev.flw.pend) ∧
    (s.dev.rd Reg.FLW_CFG_ENABLE = 1 →
      (dEnable ds = false → ends (.apply h tx flow) 0 (s.dev.flw.pend ++ [{ tx := tx, flow := f }])) ∧
      (dEnable ds = true → (∀ c, lowest (s.dev.flowFails tx f ds recs) = some c → ends (.apply h tx flow) c s.dev.flw.pend) ∧
        (s.dev.flowFails tx f ds recs = [] →
          ends (.apply h tx flow) 0 (s.dev.flw.pend ++ [{ tx := tx, flow := f, desc := ds, recs := recs }]))))

namespace Sys2Proof.Claims

/-- A frame without errors that port `n` receives as a copy of flow `f` (R237, R284, R287): a frame of a legal length that goes to the
flows, matching a live path. -/
def FlowCopy (s : State) (n : Fin 2) (b : List Nat) (f : Nat) : Prop :=
  s.dev.portUp n = true ∧ 64 ≤ b.length ∧ b.length ≤ 16384 ∧ b.length ≤ s.dev.rd (Reg.MAC_CFG_MAXLEN n) ∧
  be16 b 12 ≠ 0x8808 ∧ s.dev.toFlows n b = true ∧ s.dev.flowOf n b = some f ∧ ptpEvent b = none

/-- Word `i` of the statistics record of flow `f` has counted one more (R247). -/
def RecordCounts (s t : State) (f i : Nat) : Prop :=
  (Sparse.get 0 t.dev.flw.stats (16 * f + i)).toNat = ((Sparse.get 0 s.dev.flw.stats (16 * f + i)).toNat + 1) % 2 ^ 32

end Sys2Proof.Claims

/-- R238 to R241, R245, R247: a received copy of a flow counts RXPKT; an invalid one counts INVALID and takes no part in the merge; a
valid one of an ARMED flow only keeps its path UP; of a RUNNING flow it is judged by the distance of its sequence number from
HIGHSEQ, and an accepted copy that is not early puts each of its samples that is not late at its media index. -/
def Obligations.CopiesMergeBySequenceNumber : Prop :=
  ∀ (s : State) (n : Fin 2) (fr : RxFrame) (age ns f taken : Nat), SequenceWf s →
    let b := fr.bytes.map (·.toNat)
    let x := s.dev.rxf f
    let o := (rtpOf b).1
    let seq := be16 b (o + 2)
    let dd := sint 16 (seq + 65536 - x.high)
    let k := (s.dev.at ns).mediaIndex x.desc (be32 b (o + 4))
    let tickOf := fun (j : Nat) => (k + j + dOffset x.desc) / (s.dev.nSamples : Int)
    fr.fcsOk = true → fr.pcsError = false → FlowCopy s n b f →
    ∃ t, Runs (.rxFrame n fr age ns taken) s t ∧ t.dev.mem = s.dev.mem ∧ t.dev.tdm = s.dev.tdm ∧ t.dev.flw.tx = s.dev.flw.tx ∧
      (∀ g, g ≠ f → t.dev.rxf g = s.dev.rxf g) ∧ RecordCounts s t f n ∧
      let y := t.dev.rxf f
      (copyValid x.desc b false = false → RecordCounts s t f (4 + n) ∧ y = x) ∧
      (copyValid x.desc b false = true → (if n = 0 then y.up0 else y.up1) = true ∧ y.desc = x.desc ∧ y.live = x.live ∧ y.st = x.st ∧
        (x.st ≠ 2 → y.buf = x.buf ∧ y.high = x.high ∧ y.win = x.win ∧ y.merged = x.merged) ∧
        (x.st = 2 → x.merged = true →
          (1 ≤ dd → dd ≤ 1023 → RecordCounts s t f 2 ∧ y.high = seq) ∧
          (-127 ≤ dd → dd ≤ 0 → x.win / 2 ^ (-dd).toNat % 2 = 0 → RecordCounts s t f 2 ∧ y.high = x.high) ∧
          (-127 ≤ dd → dd ≤ 0 → x.win / 2 ^ (-dd).toNat % 2 = 1 → RecordCounts s t f 3 ∧ y.buf = x.buf ∧ y.high = x.high ∧ y.win = x.win) ∧
          (-1023 ≤ dd → dd ≤ -128 → RecordCounts s t f 8 ∧ y.buf = x.buf ∧ y.high = x.high ∧ y.win = x.win) ∧
          (1024 ≤ dd ∨ dd ≤ -1024 → RecordCounts s t f 2 ∧ RecordCounts s t f 12 ∧ y.high = seq)) ∧
        (x.st = 2 → x.merged = false → RecordCounts s t f 2 ∧ y.merged = true ∧ y.high = seq) ∧
        (x.st = 2 → x.judge seq ≠ .dup → x.judge seq ≠ .stale →
          (tickOf (dSamples x.desc - 1) > s.dev.tick + 240 → RecordCounts s t f 7 ∧ y.buf = x.buf) ∧
          (tickOf (dSamples x.desc - 1) ≤ s.dev.tick + 240 → ∀ j, j < dSamples x.desc → (s.dev.tick : Int) < tickOf j →
            Sparse.get [] y.buf (jbKey (k + j)) = (packetRows x.desc b).getD j [])))

namespace Sys2Proof.Claims

/-- No TDM port waits to move to its other synthesizer (R268). -/
def NoMoves (s : State) : Prop := ∀ m, m < 16 → (s.dev.port m).moving = none

end Sys2Proof.Claims

/-- R243, R256, R267, R269, R273: a silent path goes DOWN, with FLOWLOSS when it was the last; every 30 s an announced flow's frame enters
the supervisor's queue where the port takes it, while the supervisor runs; a slave port reports the offset of each edge and enters FAULT at the second
misaligned one or after two sample periods without edges; a cross-failed port reverts at a boundary after 8,000 ticks of lock; a
converter's lock changes are reported and its losses counted. -/
def Obligations.PathsAnnouncementsAndPortClocks : Prop :=
  (∀ (s : State) (flow : BitVec 8) (n : Fin 2), let f := flow.toNat
    let x := s.dev.rxf f
    let other := if n = 0 then x.up1 else x.up0
    x.live = true → (if n = 0 then x.up0 else x.up1) = true →
    (∀ c, (if n = 0 then x.valid0 else x.valid1) = some c → c + s.dev.rd Reg.FLW_PATH_CFG_TIMEOUT < s.dev.tick) →
    ∃ t, Runs (.pathdown flow n) s t ∧ t.dev.rd Reg.FLW_STATUS_PATHEV = 1 ∧ (∀ g, g ≠ f → t.dev.rxf g = s.dev.rxf g) ∧
      t.dev.rxf f = (if n = 0 then { x with up0 := false, loss := x.loss || !other } else { x with up1 := false, loss := x.loss || !other }) ∧
      SameWords [Reg.FLW_STATUS_PATHEV.addr] s t ∧
      (Room s → EntersAll s t ([(9, 1, f + n.val * 2 ^ 8)] ++ if other then [] else [(9, 3, f)]))) ∧
  (∀ s : State,
    (s.dev.supRuns = false ∨ s.dev.tick < s.dev.flw.sapAt + 240000 → ∃ t, Runs .sapAnnounce s t ∧ Keeps [] s t s.dev) ∧
    (s.dev.supRuns = true → s.dev.flw.sapAt + 240000 ≤ s.dev.tick →
      ((∀ e ∈ s.dev.liveTx, dAnnounce (s.dev.txf e.1).desc = false) → ∃ t, Runs .sapAnnounce s t ∧
        Keeps [] s t { s.dev with flw := { s.dev.flw with sapAt := s.dev.tick } }) ∧
      (∀ f x p, s.dev.liveTx = [(f, x)] → s.dev.txf f = x → dAnnounce x.desc = true → dPaths x.desc = [p] →
        let q := s.dev.rd (Reg.MAC_SUPQ_OTHERQ p)
        let fr : TxFrame := {
          bytes := insertSums (sapFrame x.desc (x.hdrs.getD p []) f p (s.dev.macAddr p) (s.dev.gmBytes p) false), sup := true }
        ∃ t, Runs .sapAnnounce s t ∧
          ((t.dev.mac p).queue q).q = ((s.dev.mac p).queue q).q ++ (if (s.dev.enqueue p q fr).2 then [fr] else []) ∧
          (∀ r, r ≠ q → ((t.dev.mac p).queue r).q = ((s.dev.mac p).queue r).q) ∧ t.dev.mac (1 - p) = s.dev.mac (1 - p) ∧
          t.dev.flw = { s.dev.flw with sapAt := s.dev.tick }))) ∧
  (∀ (s : State) (n : Fin 16) (off : BitVec 16) (ns : Nat), s.dev.rd (Reg.TDM_PCFG_ROLE n) = 1 → s.dev.portSrc n = false →
    NoMoves s →
    let aligned := off.toInt.natAbs ≤ 4 * s.dev.rd Reg.TDM_CFG_ALIGN_WIN
    let st := s.dev.rd (Reg.TDM_PSTAT_STATE n)
    let late := (s.dev.at ns).timeNs * s.dev.nSamples ≥ (s.dev.port n).edgeAt * s.dev.nSamples + 250000
    let ws := [(Reg.TDM_PALIGN_OFFSET n).addr, (Reg.TDM_PSTAT_STATE n).addr]
    (aligned ∨ (s.dev.port n).bad = 0 ∨ st ≠ 2 → ∃ t, Runs (.fsyncEdge n off ns) s t ∧
      t.dev.rd (Reg.TDM_PALIGN_OFFSET n) = off.toNat ∧
      (aligned → t.dev.rd (Reg.TDM_PSTAT_ALIGNED n) = 1) ∧ (¬ aligned → t.dev.rd (Reg.TDM_PSTAT_ALIGNED n) = 0) ∧
      t.dev.rd (Reg.TDM_PSTAT_STATE n) = st ∧ SameWords ws s t ∧ (aligned → (t.dev.port n).bad = 0) ∧
      (¬ aligned → (t.dev.port n).bad = if st = 2 then 1 else 0) ∧ (t.dev.port n).edgeAt = (s.dev.at ns).timeNs ∧
      ∀ m, m ≠ n.val → t.dev.port m = s.dev.port m) ∧
    (let faults := fun (t : State) (cause : Nat) => t.dev.rd (Reg.TDM_PSTAT_STATE n) = 3 ∧ t.dev.rd Reg.TDM_STATUS_FAULT = 1 ∧
        t.dev.rd (Reg.TDM_FAULTCNT_COUNT n) = (s.dev.rd (Reg.TDM_FAULTCNT_COUNT n) + 1) % 2 ^ 32 ∧
        t.dev.rd Reg.TDM_RUN_PORTS / 2 ^ n.val % 2 = 0 ∧ (∀ m, m ≠ n.val → t.dev.port m = s.dev.port m) ∧
        t.dev.mem = s.dev.mem ∧ (Room s → EntersAll s t [(10, 2, n + cause * 2 ^ 8)])
     st = 2 → (¬ aligned → 1 ≤ (s.dev.port n).bad → ∃ t, Runs (.fsyncEdge n off ns) s t ∧ faults t 0) ∧
     (late → ∃ t, Runs (.fsyncTimeout n ns) s t ∧ faults t 1)) ∧
    (¬ late → ∃ t, Runs (.fsyncTimeout n ns) s t ∧ t.dev.live = s.dev.live ∧ t.dev.tdm = s.dev.tdm)) ∧
  (∀ (s : State) (n : Fin 16), s.dev.rd (Reg.TDM_PSTAT_STATE n) = 2 → s.dev.rd (Reg.TDM_PSTAT_ONSYN n) = 1 →
    s.dev.rd (Reg.TDM_PCFG_REVERT n) = 1 → s.dev.tdmLocked (s.dev.rd (Reg.TDM_PCFG_SYN n)) = true →
    let lockAt := if s.dev.rd (Reg.TDM_PCFG_SYN n) = 0 then s.dev.syn.a.lockAt else s.dev.syn.b.lockAt
    (s.dev.ns = 0 → lockAt + 1000000000 ≤ s.dev.timeNs →
      ∃ t, Runs (.xrevert n) s t ∧ t.dev.rd (Reg.TDM_PSTAT_ONSYN n) = 0 ∧ t.dev.rd Reg.TDM_STATUS_XF = 1 ∧
        OnlyFields [Reg.TDM_PSTAT_ONSYN n, Reg.TDM_STATUS_XF] s t ∧ t.dev = Around s.dev t.dev ∧
        (Room s → EntersAll s t [(10, 5, n)])) ∧
    (s.dev.ns ≠ 0 ∨ s.dev.timeNs < lockAt + 1000000000 → ∃ t, Runs (.xrevert n) s t ∧ Keeps [] s t s.dev)) ∧
  (∀ (s : State) (m : Fin 4) (locked : Bool) (rate : BitVec 24) (phase : BitVec 16), s.dev.portSrc (12 + m.val) = true →
    s.dev.rd (Reg.TDM_SRCSTAT_LOCK m) = (if locked then 0 else 1) →
    (locked = true → 3196800 ≤ rate.toNat ∧ rate.toNat ≤ 9609600) →
    ∃ t, Runs (.srclock m locked rate phase) s t ∧ t.dev.rd (Reg.TDM_SRCSTAT_LOCK m) = (if locked then 1 else 0) ∧
      t.dev.rd (Reg.TDM_SRCSTAT_RATE m) = rate.toNat ∧ t.dev.rd (Reg.TDM_SRCPHASE_PHASE m) = phase.toNat ∧
      t.dev.rd Reg.TDM_STATUS_SRCEV = 1 ∧
      t.dev.rd (Reg.TDM_SRCUNLOCK_COUNT m) = (s.dev.rd (Reg.TDM_SRCUNLOCK_COUNT m) + (if locked then 0 else 1)) % 2 ^ 32 ∧
      (∀ p, p ≠ 12 + m.val → t.dev.port p = s.dev.port p) ∧ t.dev.mem = s.dev.mem ∧
      (Room s → EntersAll s t [(10, 6, 12 + m.val + (if locked then 2 ^ 8 else 0) + rate.toNat / 100 * 2 ^ 32)]))

/-! ### Ethernet ports -/

namespace Sys2Proof.Claims

/-- MAC counter `i` of port `n` has counted `k` (R308). -/
def MacCounts (s t : State) (n i k : Nat) : Prop :=
  t.dev.rd (Reg.MAC_CNT n i) = (s.dev.rd (Reg.MAC_CNT n i) + k) % 2 ^ 32

/-- The frames in the queues of port `n`, except queue `q`, and the other port are as before. -/
def OtherQueuesKeep (s t : State) (n q : Nat) : Prop :=
  (∀ r, r ≠ q → ((t.dev.mac n).queue r).q = ((s.dev.mac n).queue r).q) ∧ t.dev.mac (1 - n) = s.dev.mac (1 - n)

/-- After a control frame that names queue `q` with `time` quanta of 512 bit times, the port having run to `D`: a time of zero ends its
pause and clears D, a broken queue stays as it was, and any other has its pause timer loaded (R279, R296, R298, R300). -/
def PausedBy (D : Dev) (s t : State) (n q time : Nat) : Prop :=
  let x := (D.mac n).queue q
  let y := (t.dev.mac n).queue q
  y.left = (if time = 0 then 0 else if s.dev.broken n q then x.left else time * 512 * bitTenths (s.dev.speed n)) ∧
  (time = 0 → y.d = 0) ∧ (time ≠ 0 → y.d = x.d) ∧ y.q = ((s.dev.mac n).queue q).q ∧
  (t.dev.rd (Reg.MAC_PAUSE_STAT_PAUSED n) / 2 ^ q % 2 = 1 ↔ y.left ≠ 0)

/-- R279, R292, R296, R298 to R301: PAUSE pauses every queue and PFC the queues it names, each for its time, where the port honours them;
the pause of a queue ends when its timer has run out; the damper breaks the pause of a queue that holds frames once D has reached
DAMPER_LIMIT, and closes again after DAMPER_OPEN; and on a free line the first frame of the highest eligible queue leaves, counted. -/
def PausesDampersAndTransmission : Prop :=
  (∀ (s : State) (n : Fin 2) (time : BitVec 16) (ns : Nat), s.dev.portUp n = true → 64 ≤ s.dev.rd (Reg.MAC_CFG_MAXLEN n) →
    ∃ t, Runs (.pause n time ns) s t ∧ MacCounts s t n 5 1 ∧ MacCounts s t n 0 1 ∧ t.dev.mac (1 - n.val) = s.dev.mac (1 - n.val) ∧
      (s.dev.rd (Reg.MAC_CFG_RX_PAUSE_EN n) = 0 → t.dev.mac n = s.dev.mac n) ∧
      (s.dev.rd (Reg.MAC_CFG_RX_PAUSE_EN n) = 1 → ∀ q, q < 8 → PausedBy ((s.dev.at ns).macRun n) s t n q time.toNat) ∧
      (s.dev.rd (Reg.MAC_CFG_RX_PAUSE_EN n) = 1 → time.toNat ≠ 0 → (∃ q, q < 8 ∧ s.dev.broken n q = true) → MacCounts s t n 37 1)) ∧
  (∀ (s : State) (n : Fin 2) (vec : BitVec 8) (times : List (BitVec 16)) (ns : Nat), s.dev.portUp n = true →
    64 ≤ s.dev.rd (Reg.MAC_CFG_MAXLEN n) →
    let D := (s.dev.at ns).macRun n
    ∃ t, Runs (.pfc n vec times ns) s t ∧ MacCounts s t n 6 1 ∧ t.dev.mac (1 - n.val) = s.dev.mac (1 - n.val) ∧
      (s.dev.rd (Reg.MAC_CFG_RX_PFC_EN n) = 0 → t.dev.mac n = s.dev.mac n) ∧
      (s.dev.rd (Reg.MAC_CFG_RX_PFC_EN n) = 1 → ∀ q, q < 8 →
        (vec.getLsbD q = true → PausedBy D s t n q (times.getD q 0).toNat) ∧
        (vec.getLsbD q = false → (t.dev.mac n).queue q = (D.mac n).queue q))) ∧
  (∀ (s : State) (n : Fin 2) (q : Fin 8) (ns : Nat), let x := (s.dev.mac n).queue q
    let D := (s.dev.at ns).macRun n
    let y := (D.mac n).queue q
    (x.left ≤ 10 * (s.dev.at ns).timeNs - (s.dev.mac n).now →
      ∃ t, Runs (.pauseExpiry n q ns) s t ∧ ((t.dev.mac n).queue q).left = 0 ∧ ((t.dev.mac n).queue q).q = x.q ∧
        OtherQueuesKeep s t n q ∧ t.dev.rd (Reg.MAC_PAUSE_STAT_PAUSED n) / 2 ^ q.val % 2 = 0) ∧
    (y.left ≠ 0 → ∃ t, Runs (.pauseExpiry n q ns) s t ∧ Keeps [] s t s.dev) ∧
    (s.dev.damped n q = true → x.q ≠ [] → s.dev.rd (Reg.MAC_FC_CFG_DAMPER_LIMIT n) * 10000 ≤ y.d → s.dev.broken n q = false →
      ∃ t, Runs (.damperBreak n q ns) s t ∧ ((t.dev.mac n).queue q).left = 0 ∧ ((t.dev.mac n).queue q).q = x.q ∧
        OtherQueuesKeep s t n q ∧ t.dev.broken n q = true ∧ MacCounts s t n (56 + q.val) 1 ∧
        t.dev.rd (Reg.MAC_STATUS_DAMPEREV n) = 1 ∧
        (Room s → EntersAll s t [(11 + n.val, 3, q.val + if x.pfc then 2 ^ 8 else 0)])) ∧
    (y.d < s.dev.rd (Reg.MAC_FC_CFG_DAMPER_LIMIT n) * 10000 → ∃ t, Runs (.damperBreak n q ns) s t ∧
      t.dev.mac n = D.mac n ∧ t.dev.broken n q = s.dev.broken n q ) ∧
    (s.dev.broken n q = true → s.dev.rd (Reg.MAC_FC_CFG_DAMPER_OPEN n) * 10000000 ≤ y.quiet →
      ∃ t, Runs (.damperClose n q ns) s t ∧ t.dev.broken n q = false ∧ ((t.dev.mac n).queue q).d = 0 ∧
        ((t.dev.mac n).queue q).q = x.q ∧ OtherQueuesKeep s t n q ∧ t.dev.rd (Reg.MAC_STATUS_DAMPEREV n) = 1 ∧
        (Room s → EntersAll s t [(11 + n.val, 4, q.val + x.ignored * 2 ^ 32)])) ∧
    (y.quiet < s.dev.rd (Reg.MAC_FC_CFG_DAMPER_OPEN n) * 10000000 → ∃ t, Runs (.damperClose n q ns) s t ∧
      t.dev.mac n = D.mac n ∧ t.dev.broken n q = s.dev.broken n q)) ∧
  (∀ (s : State) (n : Fin 2) (lag ns : Nat), let D := (s.dev.at ns).macRun n
    ((∀ q, q < 8 → D.eligibleQ n q = false) ∨ (D.mac n).now < (D.mac n).txEnd → ∃ t, Runs (.txFrame n lag ns) s t ∧
      ∀ q, ((t.dev.mac n).queue q).q = ((s.dev.mac n).queue q).q) ∧
    (∀ q f r, q < 8 → D.eligibleQ n q = true → (∀ p, q < p → p < 8 → D.eligibleQ n p = false) → s.dev.portUp n = true →
      (D.mac n).txEnd ≤ (D.mac n).now → ((s.dev.mac n).queue q).q = f :: r →
      ∃ t, Runs (.txFrame n lag ns) s t ∧ ((t.dev.mac n).queue q).q = r ∧ OtherQueuesKeep s t n q ∧ MacCounts s t n 22 1 ∧
        MacCounts s t n 23 f.len ∧ MacCounts s t n (24 + castOf f.bytes) 1 ∧ MacCounts s t n (27 + sizeBin f.len) 1 ∧
        (f.oneStep = false → (t.dev.mac n).line = f.bytes) ∧
        (t.dev.mac n).txEnd = (t.dev.mac n).now + (f.len + 20) * 8 * bitTenths (s.dev.speed n)))

/-- Reference selection does not use the link of port `n` as a candidate. -/
def NoSyncE (s : State) (n : Nat) : Prop := s.dev.rd Reg.REF_CFG_ENABLE = 0 ∨ s.dev.rd (Reg.REF_CSTAT_STATE (2 + n)) = 0

/-- R280, R281, R304 to R307, R310, R345: the link comes up, with auto-negotiation only towards a partner of full duplex, and goes down,
discarding what its queues hold and ending its pauses, and its SyncE candidate follows; modules are inserted, removed, identified
once, polled once a second, faulted and given up; a host read returns the module's bytes, or zero where it does not acknowledge. -/
def LinksAndModules : Prop :=
  (∀ (s : State) (n : Fin 2) (partner : BitVec 16) (ns : Nat), s.dev.rd (Reg.MAC_CFG_ENABLE n) = 1 →
    s.dev.rd (Reg.MAC_STATUS_LINK n) = 0 → s.dev.stopped (11 + n) = false →
    let an := s.dev.rd (Reg.MAC_CFG_AN_EN n) = 1 ∧ s.dev.rd (Reg.MAC_CFG_SPEED n) = 2
    (an → partner.getLsbD 5 = false → ∃ t, Runs (.linkup n partner ns) s t ∧ t.dev.live = s.dev.live ∧
      t.dev = { Around s.dev t.dev with ns := t.dev.ns }) ∧
    ((an → partner.getLsbD 5 = true) → ∃ t, Runs (.linkup n partner ns) s t ∧ t.dev.rd (Reg.MAC_STATUS_LINK n) = 1 ∧
      t.dev.rd (Reg.MAC_STATUS_LINKEV n) = 1 ∧
      (an → t.dev.rd (Reg.MAC_STATUS_AN_DONE n) = 1 ∧
        t.dev.rd (Reg.MAC_STATUS_PARTNER_PAUSE n) = if partner.getLsbD 7 then 1 else 0) ∧
      (¬ an → t.dev.rd (Reg.MAC_STATUS_AN_DONE n) = 0 ∧ t.dev.rd (Reg.MAC_STATUS_PARTNER_PAUSE n) = 0) ∧
      t.dev.mac (1 - n.val) = s.dev.mac (1 - n.val) ∧
      (NoSyncE s n → SameWords [(Reg.MAC_STATUS_LINK n).addr, (Reg.MAC_CREDIT5_CREDIT n).addr, (Reg.MAC_CREDIT6_CREDIT n).addr,
          (Reg.MAC_PAUSE_STAT_PAUSED n).addr] s t ∧
        (Room s → EntersAll s t [(11 + n.val, 1, s.dev.speed n)])) ∧
      (s.dev.rd Reg.REF_CFG_ENABLE = 1 → s.dev.rd (Reg.REF_CSTAT_STATE (2 + n)) = 1 → s.dev.rd (Reg.REF_CAND_PRIO (2 + n)) ≠ 0 →
        t.dev.rd (Reg.REF_CSTAT_STATE (2 + n)) = 2))) ∧
  (∀ (s : State) (n : Fin 2) (los lock rf lf : Bool) (ns : Nat), s.dev.rd (Reg.MAC_STATUS_LINK n) = 1 →
    (los || lock || rf || lf) = true →
    let lost := ((s.dev.mac n).queues.map fun e => e.2.q.length).sum
    ∃ t, Runs (.linkdown n los lock rf lf ns) s t ∧ t.dev.rd (Reg.MAC_STATUS_LINK n) = 0 ∧ (t.dev.mac n).queues = [] ∧
      t.dev.rd (Reg.MAC_PAUSE_STAT_BROKEN n) = 0 ∧ t.dev.rd (Reg.MAC_PAUSE_STAT_PAUSED n) = 0 ∧ MacCounts s t n 35 lost ∧
      MacCounts s t n 36 1 ∧ t.dev.rd (Reg.MAC_STATUS_LINKEV n) = 1 ∧ t.dev.rd (Reg.MAC_STATUS_LOS n) = (if los then 1 else 0) ∧
      t.dev.mac (1 - n.val) = s.dev.mac (1 - n.val) ∧
      (∀ d ∈ (t.dev.mac n).txDone, d.flushed = true) ∧
      (s.dev.rd Reg.REF_CFG_ENABLE = 1 → s.dev.rd (Reg.REF_CSTAT_STATE (2 + n)) ≠ 0 → t.dev.rd (Reg.REF_CSTAT_STATE (2 + n)) = 1) ∧
      (NoSyncE s n → Room s →
        EntersAll s t [(11 + n.val, 2, if los then 0 else if lock then 1 else if rf then 2 else 3)])) ∧
  (∀ (s : State) (n : Fin 2) (ns : Nat),
    let st := (Reg.MAC_STATUS_SFPEV n).addr
    let m := s.dev.mac n
    let now := (s.dev.at ns).timeNs
    let settled := ∀ a, m.modAt = some a → a + 100000000 ≤ now
    let only := fun (t : State) (m' : Mac) => SameWords [st] s t ∧ t.dev.mac n = m' ∧ t.dev.mac (1 - n.val) = s.dev.mac (1 - n.val)
    (s.dev.rd (Reg.MAC_STATUS_SFP_PRESENT n) = 0 → settled → ∃ t, Runs (.sfpInsert n ns) s t ∧
      t.dev.rd (Reg.MAC_STATUS_SFP_PRESENT n) = 1 ∧ t.dev.rd (Reg.MAC_STATUS_SFPEV n) = 1 ∧
      only t { m with modAt := some now, idDue := true, diag := none } ∧ (Room s → EntersAll s t [(11 + n.val, 5, 0)])) ∧
    (s.dev.rd (Reg.MAC_STATUS_SFP_PRESENT n) = 1 → settled → ∃ t, Runs (.sfpRemove n ns) s t ∧
      t.dev.rd (Reg.MAC_STATUS_SFP_PRESENT n) = 0 ∧ t.dev.rd (Reg.MAC_STATUS_TXFAULT n) = 0 ∧
      t.dev.rd (Reg.MAC_STATUS_SFPEV n) = 1 ∧
      only t { m with faultAt := none, gaveUp := false, modAt := some now, idDue := false } ∧
      (Room s → EntersAll s t [(11 + n.val, 6, 0)])) ∧
    (¬ settled → ∀ c ∈ [Instr.sfpInsert n ns, .sfpRemove n ns], ∃ t, Runs c s t ∧ t.dev.live = s.dev.live ∧
      t.dev = { Around s.dev t.dev with ns := t.dev.ns })) ∧
  (∀ (s : State) (n : Fin 2) (id d0 d1 : Word) (rx al : BitVec 16) (ns : Nat),
    let st := (Reg.MAC_STATUS_SFPEV n).addr
    let m := s.dev.mac n
    let polled := s.dev.supRuns = true ∧ s.dev.rd (Reg.MAC_STATUS_SFP_PRESENT n) = 1
    (polled → m.idDue = true → ∃ t, Runs (.sfpIdRead n id) s t ∧ t.dev.word (Reg.MAC_SFPID n).addr = id ∧
      SameWords [(Reg.MAC_SFPID n).addr] s t ∧ t.dev.mac n = { m with idDue := false } ∧
      t.dev.mac (1 - n.val) = s.dev.mac (1 - n.val)) ∧
    (¬ polled ∨ m.idDue = false → ∃ t, Runs (.sfpIdRead n id) s t ∧ Keeps [] s t s.dev) ∧
    (polled → m.idDue = false → (∀ a, m.diag = some a → a + 8000 ≤ s.dev.tick) →
      ∃ t, Runs (.sfpDiagPoll n d0 d1 rx al) s t ∧ t.dev.word (Reg.MAC_SFPDIAG0_TEMP n).addr = d0 ∧
        t.dev.word (Reg.MAC_SFPDIAG1_TXBIAS n).addr = d1 ∧ t.dev.rd (Reg.MAC_SFPDIAG2_RXPWR n) = rx.toNat ∧
        t.dev.rd (Reg.MAC_SFPDIAG2_STALE n) = 0 ∧ t.dev.mac n = { m with diag := some s.dev.tick } ∧
        t.dev.mac (1 - n.val) = s.dev.mac (1 - n.val) ∧ (al ≠ 0 → t.dev.rd (Reg.MAC_STATUS_SFPEV n) = 1) ∧
        (Room s → EntersAll s t (if al = 0 then [] else [(11 + n.val, 7, 2 + al.toNat * 2 ^ 8)]))) ∧
    (s.dev.rd (Reg.MAC_STATUS_SFP_PRESENT n) = 1 → s.dev.rd (Reg.MAC_STATUS_TXFAULT n) = 0 → ∃ t, Runs (.sfpFault n ns) s t ∧
      t.dev.rd (Reg.MAC_STATUS_TXFAULT n) = 1 ∧ t.dev.rd (Reg.MAC_STATUS_LINK n) = 0 ∧
      (s.dev.rd (Reg.MAC_STATUS_LINK n) = 1 → (t.dev.mac n).queues = []) ∧
      (m.gaveUp = false → t.dev.rd (Reg.MAC_STATUS_SFPEV n) = 1 ∧ (t.dev.mac n).pulse = t.dev.timeNs + 100000 ∧
        (t.dev.mac n).faultAt = some t.dev.timeNs ∧
        (NoSyncE s n → Room s → EntersAll s t
          ((if s.dev.rd (Reg.MAC_STATUS_LINK n) = 1 then [(11 + n.val, 2, 3)] else []) ++ [(11 + n.val, 7, 0)]))) ∧
      (m.gaveUp = true → (t.dev.mac n).pulse = m.pulse ∧ (NoSyncE s n → Room s → EntersAll s t
        (if s.dev.rd (Reg.MAC_STATUS_LINK n) = 1 then [(11 + n.val, 2, 3)] else [])))) ∧
    (∀ a, s.dev.rd (Reg.MAC_STATUS_TXFAULT n) = 1 → s.dev.supRuns = true → m.faultAt = some a → a + 100000000 ≤ s.dev.timeNs →
      ∃ t, Runs (.txfaultPersists n) s t ∧ t.dev.rd (Reg.MAC_STATUS_SFPEV n) = 1 ∧ SameWords [st] s t ∧
        t.dev.mac n = { m with faultAt := none, gaveUp := true } ∧ (Room s → EntersAll s t [(11 + n.val, 7, 1)])) ∧
    (m.faultAt = none → ∃ t, Runs (.txfaultPersists n) s t ∧ Keeps [] s t s.dev)) ∧
  (∀ (s : State) (h : Agent) (n : Fin 2) (dev : Bool) (off : BitVec 8) (len : BitVec 2) (data : Word) (acked : Bool),
    Ready s h (Reg.MAC_SFPCMD_GO n) true →
    let ok := acked = true ∧ s.dev.rd (Reg.MAC_STATUS_SFP_PRESENT n) = 1
    ∃ t, Runs (.sfpRead h n dev off len data acked) s t ∧
      t.dev.rd (Reg.MAC_SFPDATA_DATA n) = (if ok then data.toNat % 256 ^ (len.toNat + 1) else 0) ∧
      t.dev.rd (Reg.MAC_SFPRES_NACK n) = (if ok then 0 else 1) ∧ t.dev.rd (Reg.MAC_SFPRES_VALID n) = 1 ∧
      t.dev.rd (Reg.MAC_STATUS_SFPDONE n) = 1 ∧
      Keeps [(Reg.MAC_SFPCMD_GO n).addr, (Reg.MAC_SFPDATA_DATA n).addr, (Reg.MAC_SFPRES_VALID n).addr,
        (Reg.MAC_STATUS_SFPDONE n).addr] s t (Staged s t))

end Sys2Proof.Claims

/-- R279 to R281, R292, R296 to R301, R304 to R307, R310, R345: pauses, dampers, transmission, the link and the modules of a port. -/
def Obligations.EthernetPortsFollowTheirEvents : Prop := PausesDampersAndTransmission ∧ LinksAndModules

/-! ### Network time -/

namespace Sys2Proof.Claims

/-- Capture unit `c` has stamped the instant `now` (R340). -/
def Captured (s t : State) (c now : Nat) : Prop :=
  t.dev.rd (Reg.TSU_CAP_NS_TS32 c) = now % 2 ^ 32 ∧
  t.dev.rd (Reg.TSU_CAP_SEC_SEC c) = now / 10 ^ 9 % 2 ^ 32 ∧ t.dev.rd (Reg.TSU_CAP_SECHI_SEC c) = now / 10 ^ 9 / 2 ^ 32 % 2 ^ 16 ∧
  t.dev.rd (Reg.TSU_CAP_STAT_NEW c) = 1 ∧
  t.dev.rd (Reg.TSU_CAP_STAT_OVR c) = (if s.dev.rd (Reg.TSU_CAP_STAT_NEW c) = 1 then 1 else s.dev.rd (Reg.TSU_CAP_STAT_OVR c)) ∧
  t.dev.rd (Reg.TSU_CAP_CNT_COUNT c) = (s.dev.rd (Reg.TSU_CAP_CNT_COUNT c) + 1) % 2 ^ 32 ∧ t.dev.rd Reg.TSU_STATUS_CAP = 1

/-- The words that a capture of unit `c` writes. -/
def captureWords (c : Nat) : List Nat :=
  [(Reg.TSU_CAP_NS_TS32 c).addr, (Reg.TSU_CAP_SEC_SEC c).addr, (Reg.TSU_CAP_SECHI_SEC c).addr,
    (Reg.TSU_CAP_STAT_NEW c).addr, (Reg.TSU_CAP_CNT_COUNT c).addr, Reg.TSU_STATUS_CAP.addr]

/-- R320, R321, R340: a read of the head of a stamp queue returns its first word and latches the others for the reader, all zero on an
empty queue, and removes the entry when the supervisor reads; a capture unit stamps internal time at an edge of its pin that EDGE selects,
counts, and marks an overwritten stamp, and takes no notice of another edge or of another source. -/
def StampsAndCaptures : Prop :=
  (∀ (s : State) (h : Agent) (q : Fin 4), let x := s.dev.stampQ q
    let w := fun (i : Nat) => BitVec.ofNat 32 ((x.q.headD [0, 0, 0, 0]).getD i 0)
    (x.q = [] ∨ (x.q.headD []).length = 4) →
    ∃ t, Runs (.stampQueueRead h q) s t ∧ t.dev.fab.rdata = [w 0] ∧
      (∀ i, 1 ≤ i → i < 4 → Sparse.get 0 t.dev.fab.latch (latchKey h (0x15040 + 0x10 * q + 4 * i)) = w i) ∧
      (t.dev.stampQ q).q = (if h = .sup then x.q.tail else x.q) ∧ (∀ r, r ≠ q.val → t.dev.stampQ r = s.dev.stampQ r) ∧
      (h = .sup → t.dev.rd (qstatFld q) = x.q.tail.length % 64) ∧ OnlyFields [qstatFld q] s t) ∧
  (∀ (s : State) (c : Fin 8) (rising : Bool) (ns : Nat),
    let src := s.dev.rd (Reg.TSU_CAP_CFG_SRC c)
    let edge := s.dev.rd (Reg.TSU_CAP_CFG_EDGE c)
    let runs := s.dev.rd Reg.TSU_CFG_ENABLE = 1 ∧ s.dev.rd (Reg.TSU_CAP_CFG_EN c) = 1
    let pin := 18 ≤ src ∨ (s.dev.at ns).pinEdge src rising = true
    let taken := runs ∧ src < 22 ∧ pin ∧ (edge = 2 ∨ (edge = 0 ∧ rising = true) ∨ (edge = 1 ∧ rising = false))
    (taken → ∃ t, Runs (.capture c rising ns) s t ∧ Captured s t c (s.dev.at ns).timeNs ∧ Keeps (captureWords c) s t (s.dev.at ns)) ∧
    (edge < 3 → ¬ taken → ∃ t, Runs (.capture c rising ns) s t ∧ Keeps [] s t (s.dev.at ns)))

/-- R336, R337, R339: ARM takes a target that lies in range and after now, or refuses it with its reason and leaves the trigger as it was;
DISARM clears it; a trigger whose target internal time has reached records the instant, is captured by the units that select it, starts
the pulse outputs and the ports that wait for it, and goes on to its next target or is no longer armed; before its target it does
nothing. -/
def TriggersArmAndFire : Prop :=
  (∀ (s : State) (h : Agent) (x : Fin 16) (ns : Nat), Ready s h (Reg.TSU_TRIG_CMD_ARM x) false →
    let sub := s.dev.rd (Reg.TSU_TRIG_NS_NS x)
    let per := s.dev.rd (Reg.TSU_TRIG_PER_PER x)
    let target := (s.dev.rd (Reg.TSU_TRIG_SECHI_SEC x) * 2 ^ 32 + s.dev.rd (Reg.TSU_TRIG_SEC_SEC x)) * 10 ^ 9 + sub
    let now := (s.dev.at ns).timeNs
    let bad := 999999999 < sub ∨ (per ≠ 0 ∧ ¬ (1000 ≤ per ∧ per ≤ 4000000000))
    ∃ t, Runs (.arm h x ns) s t ∧ (∀ r, r ≠ x.val → t.dev.trig r = s.dev.trig r) ∧
      OnlyFields [Reg.TSU_TRIG_STAT_REASON x, Reg.TSU_TRIG_STAT_ARMED x] s t ∧
      t.dev = { Around (s.dev.at ns) t.dev with ptp := { s.dev.ptp with trigs := t.dev.ptp.trigs } } ∧
      (bad ∨ target ≤ now ∨ now + 2 ^ 32 < target → t.dev.trig x = s.dev.trig x ∧
        t.dev.rd (Reg.TSU_TRIG_STAT_ARMED x) = s.dev.rd (Reg.TSU_TRIG_STAT_ARMED x) ∧
        t.dev.rd (Reg.TSU_TRIG_STAT_REASON x) = if bad then 0x01 else if target ≤ now then 0x11 else 0x10) ∧
      (¬ bad → now < target → target ≤ now + 2 ^ 32 → t.dev.trig x = some ⟨target, per⟩ ∧
        t.dev.rd (Reg.TSU_TRIG_STAT_ARMED x) = 1 ∧ t.dev.rd (Reg.TSU_TRIG_STAT_REASON x) = 0)) ∧
  (∀ (s : State) (h : Agent) (x : Fin 16), Ready s h (Reg.TSU_TRIG_CMD_DISARM x) false →
    ∃ t, Runs (.disarm h x) s t ∧ t.dev.trig x = none ∧ t.dev.rd (Reg.TSU_TRIG_STAT_ARMED x) = 0 ∧
      (∀ r, r ≠ x.val → t.dev.trig r = s.dev.trig r) ∧ OnlyFields [Reg.TSU_TRIG_STAT_ARMED x] s t ∧
      t.dev = { Around s.dev t.dev with ptp := { s.dev.ptp with trigs := t.dev.ptp.trigs } }) ∧
  (∀ (s : State) (x : Fin 16) (ns : Nat) (tr : Trig), s.dev.rd Reg.TSU_CFG_ENABLE = 1 → s.dev.trig x = some tr →
    let now := (s.dev.at ns).timeNs
    (now < tr.target → ∃ t, Runs (.trigger x ns) s t ∧ Keeps [] s t (s.dev.at ns)) ∧ (tr.target ≤ now →
    let takes := fun (c : Nat) => s.dev.rd (Reg.TSU_CAP_CFG_EN c) = 1 ∧ s.dev.rd (Reg.TSU_CAP_CFG_SRC c) = 32 + x.val
    let ports := fun (n : Nat) => n < 16 ∧ s.dev.rd (Reg.TDM_PSTAT_STATE n) = 1 ∧ s.dev.rd (Reg.TDM_PCFG_TRIG n) = x.val
    let pulses := fun (p : Nat) => p < 4 ∧ s.dev.rd (Reg.OUT_FP_STAT_STATE p) = 1 ∧ s.dev.rd (Reg.OUT_FP_CFG_TRIG p) = x.val
    ∃ t, Runs (.trigger x ns) s t ∧ t.dev.rd (Reg.TSU_TRIG_LAST_TS32 x) = now % 2 ^ 32 ∧ t.dev.rd (Reg.TSU_TRIG_STAT_FIRED x) = 1 ∧
      t.dev.rd (Reg.TSU_TRIG_STAT_LATE x) = s.dev.rd (Reg.TSU_TRIG_STAT_LATE x) ∧ t.dev.rd Reg.TSU_STATUS_TRIG = 1 ∧
      (tr.per = 0 → t.dev.trig x = none ∧ t.dev.rd (Reg.TSU_TRIG_STAT_ARMED x) = 0) ∧
      (0 < tr.per → t.dev.trig x = some { tr with target := tr.target + tr.per } ∧ t.dev.rd (Reg.TSU_TRIG_STAT_ARMED x) = 1) ∧
      (∀ r, r ≠ x.val → t.dev.trig r = s.dev.trig r) ∧ (∀ c, c < 8 → takes c → Captured s t c now) ∧
      (∀ p, pulses p → t.dev.rd (Reg.OUT_FP_STAT_STATE p) = if s.dev.synGated (s.dev.rd (Reg.OUT_FP_CFG_SYN p)) then 3 else 2) ∧
      (∀ n, ports n → (s.dev.at ns).ns = 0 → t.dev.rd (Reg.TDM_PSTAT_STATE n) ≠ 1) ∧
      (∀ n, ports n → (s.dev.at ns).ns ≠ 0 → t.dev.port n = { s.dev.port n with fired := true }) ∧
      ((∀ n, ¬ ports n) →
        Keeps ([(Reg.TSU_TRIG_LAST_TS32 x).addr, (Reg.TSU_TRIG_STAT_ARMED x).addr, Reg.TSU_STATUS_TRIG.addr] ++
          ([0, 1, 2, 3].map fun p => (Reg.OUT_FP_STAT_STATE p).addr) ++
          ((List.range 8).filter fun c => decide (takes c)).flatMap captureWords) s t
          { s.dev.at ns with ptp := { s.dev.ptp with trigs := t.dev.ptp.trigs } } ∧
        (Room s → EntersAll s t
          (if s.dev.rd Reg.TSU_TRIG_EV_EV / 2 ^ x.val % 2 = 1 then [(15, 2, x.val + now % 2 ^ 32 * 2 ^ 32)] else [])))))

/-- The words that show the quality and the eligibility of the candidates. -/
def candidateWords : List Nat := (List.range 7).map fun k => (Reg.REF_CSTAT_QCODE k).addr

/-- The words that REF writes at an evaluation or at a change of its candidates. -/
def refWords : List Nat :=
  candidateWords ++ (List.range 6).map (fun k => (Reg.REF_CFREQ_FREQ k).addr) ++ (List.range 7).map (fun k => (Reg.REF_DISQ_COUNT k).addr) ++
    [Reg.REF_STATUS_STATE.addr, Reg.REF_HOFREQ_FREQ.addr]

/-- Candidate `k` is eligible, by what REF shows (R351); in P4 REF is in holdover, or in HOLDOVER_X (R486). -/
def Eligible (t : State) (k : Nat) : Prop :=
  t.dev.rd (Reg.REF_CSTAT_STATE k) = 3 ∧ t.dev.rd (Reg.REF_CSTAT_QCODE k) ≠ 0xFF ∧
  (k < 2 → t.dev.rd (Reg.PTP_PSTAT_HOLD k) = 0 ∨ t.dev.rd Reg.REF_STATUS_SEL = k) ∧ (t.dev.rd Reg.PWR_STATUS_STATE = 4 → k = 6)

/-- Candidate `a` is better than `b` (R352). -/
def BetterThan (t : State) (a b : Nat) : Prop :=
  let qa := t.dev.rd (Reg.REF_CSTAT_QCODE a)
  let qb := t.dev.rd (Reg.REF_CSTAT_QCODE b)
  let pa := t.dev.rd (Reg.REF_CAND_PRIO a)
  let pb := t.dev.rd (Reg.REF_CAND_PRIO b)
  if t.dev.rd Reg.REF_CFG_QLMODE = 1 ∧ qa ≠ qb then qa < qb else if pa ≠ pb then pa < pb else a < b

/-- `b` is the best eligible candidate, 7 for none (R352). -/
def IsBest (t : State) (b : Nat) : Prop :=
  (b = 7 ∧ ∀ k, k < 7 → ¬ Eligible t k) ∨ (b < 7 ∧ Eligible t b ∧ ∀ k, k < 7 → k ≠ b → Eligible t k → BetterThan t b k)

/-- R360: when a forced switch is decided that leaves a LOCKED candidate, the hold value is the mean of its history over the span of
REF_HO.AVG that ends SOFT_TIME + 2 s before, clamped to 800 ppb, or 0 where the history is not valid. -/
def HoldsItsValue (s t : State) : Prop :=
  let now := t.dev.tick
  let back := 8000 * (t.dev.rd Reg.REF_TIMES_SOFT_TIME + 2)
  let len := 8000 * t.dev.rd Reg.REF_HO_AVG
  let start := now - back - len
  let fs := (t.dev.ref.hist.filter fun e => decide (start ≤ e.1) && decide (e.1 ≤ now - back)).map (·.2)
  let warm := (∃ w, t.dev.ref.warmAt = some w ∧ w ≤ start) ∨ (t.dev.ref.warmPrev.1 ≤ start ∧ now - back ≤ t.dev.ref.warmPrev.2)
  let valid := back + len ≤ now ∧ (∃ m, t.dev.ref.lockedAt = some m ∧ m ≤ start) ∧ warm ∧ fs ≠ []
  let decided := t.dev.rd Reg.REF_STATUS_STATE = 2 ∧ ¬ Eligible t (t.dev.rd Reg.REF_STATUS_SEL) ∧ ∀ c, s.dev.ref.req ≠ some ⟨c, true⟩
  (¬ decided → t.dev.rd Reg.REF_STATUS_HISTVALID = s.dev.rd Reg.REF_STATUS_HISTVALID ∧
    t.dev.rd Reg.REF_HOFREQ_FREQ = s.dev.rd Reg.REF_HOFREQ_FREQ) ∧
  (decided → ¬ valid → t.dev.rd Reg.REF_STATUS_HISTVALID = 0 ∧ t.dev.rd Reg.REF_HOFREQ_FREQ = 0) ∧
  (decided → valid → t.dev.rd Reg.REF_STATUS_HISTVALID = 1 ∧
    ∃ m : Int, ((fs.length : Int) * m - sumOf fs).natAbs < fs.length ∧
      t.dev.rd Reg.REF_HOFREQ_FREQ = uint 32 (max (-80000) (min m 80000)))

/-- R351 to R353, R355, R360: REF has evaluated the selection: the switch that it leaves to begin at the next boundary, the candidate that
waits, and the hold value. -/
def Evaluated (s t : State) : Prop :=
  let st := t.dev.rd Reg.REF_STATUS_STATE
  let sel := t.dev.rd Reg.REF_STATUS_SEL
  let pend := t.dev.rd Reg.REF_STATUS_PEND
  (∀ k, k < 7 → (t.dev.rd (Reg.REF_CSTAT_ELIG k) = 1 ↔ Eligible t k)) ∧ HoldsItsValue s t ∧
  ∃ b, IsBest t b ∧ t.dev.ref.best = b ∧
    (sel = 7 → pend = 7 ∧ t.dev.ref.req = if b = 7 then none else some ⟨b, false⟩) ∧
    (sel ≠ 7 → ¬ Eligible t sel → pend = 7 ∧ t.dev.ref.req = some ⟨b, true⟩) ∧
    (sel ≠ 7 → Eligible t sel →
      (b = sel → pend = 7 ∧ t.dev.ref.req = none) ∧
      (b ≠ sel → st = 0 → sel = 6 → pend = b ∧ t.dev.ref.req = some ⟨b, false⟩) ∧
      (b ≠ sel → ¬ (st = 0 ∧ sel = 6) →
        pend = (if st = 1 ∨ t.dev.rd Reg.REF_CFG_REVERT = 1 ∨ sel = 6 then b else 7) ∧
        (pend = b → s.dev.ref.req = some ⟨b, false⟩ → t.dev.ref.req = some ⟨b, false⟩) ∧
        (pend ≠ b ∨ s.dev.ref.req ≠ some ⟨b, false⟩ → t.dev.ref.req = none)))

/-- PTP port `k` makes its candidate lost (R345): it is not a SLAVE, does not run, or has completed no exchange for 1 s; in P4 it
completes none (R486). -/
def PortLost (t : State) (k : Nat) : Prop :=
  t.dev.rd (Reg.PTP_PSTAT_STATE k) ≠ 3 ∨ t.dev.rd Reg.PTP_CFG_ENABLE = 0 ∨ t.dev.rd (Reg.PTP_PCFG_ENABLE k) = 0 ∨
  t.dev.rd Reg.PWR_STATUS_STATE = 4 ∨ ∀ m, (t.dev.pport k).lastTick = some m → m + 8000 ≤ t.dev.tick

/-- R345, R347: candidate `k` has followed its lost condition: LOS while it holds, and QUALIFYING, or QUALIFIED for the OCXO, once it ends. -/
def FollowsLost (lost : Prop) (s t : State) (k : Nat) : Prop :=
  let st := s.dev.rd (Reg.REF_CSTAT_STATE k)
  let st' := t.dev.rd (Reg.REF_CSTAT_STATE k)
  (s.dev.rd Reg.REF_CFG_ENABLE = 0 ∨ st = 0 → st' = st) ∧
  (s.dev.rd Reg.REF_CFG_ENABLE = 1 → st ≠ 0 →
    (lost → st' = 1) ∧ (¬ lost → 2 ≤ st → st' = st) ∧
    (¬ lost → st = 1 → st' = if s.dev.rd (Reg.REF_CAND_PRIO k) = 0 then 0 else if k = 6 then 3 else 2))

/-- REF_CSTATk of candidate `k`, below 4, shows the mapped code `code`, unless QFIX replaces it (R350). -/
def ShowsCode (s t : State) (k code : Nat) : Prop :=
  t.dev.rd (Reg.REF_CSTAT_QCODE k) = (if s.dev.rd (Reg.REF_CAND_USEFIX k) = 1 then s.dev.rd (Reg.REF_CAND_QFIX k) else code) ∧
  ∀ j, j ≠ k → t.dev.cand j = s.dev.cand j ∧ t.dev.rd (Reg.REF_CSTAT_STATE j) = s.dev.rd (Reg.REF_CSTAT_STATE j)

/-- R325, R342, R348: an Announce message gives the port's master its quality and identity and its candidate the mapped code; a state that the
BMCA gives is posted when it is new, and its candidate follows; so it is when no Announce message has come for announceReceiptTimeout. -/
def AnnouncesGiveQuality : Prop :=
  (∀ (s : State) (n : Fin 2) (gm : BitVec 64) (cls acc : BitVec 8) (var : BitVec 16) (st : Option (Fin 8)),
    s.dev.rd (Reg.PTP_PCFG_ENABLE n) = 1 → s.dev.supRuns = true →
    let other := ¬ (s.dev.rd (Reg.PTP_GMID_HI n) = gm.toNat / 2 ^ 32 ∧ s.dev.rd (Reg.PTP_GMID_LO n) = gm.toNat % 2 ^ 32)
    let moves := ∃ x, st = some x ∧ s.dev.rd (Reg.PTP_PSTAT_STATE n) ≠ x.val
    let code := if cls = 6 then (if acc = 0x20 ∨ acc = 0x21 then 0x10 else 0x12)
      else ((([(7, 0x20), (13, 0x20), (14, 0x20), (52, 0x40), (58, 0x40), (187, 0x40), (193, 0x40), (248, 0x60), (255, 0xFF)] :
        List (Nat × Nat)).lookup cls.toNat).getD 0x64)
    let words := [(Reg.PTP_GMQ_CLASS n).addr, (Reg.PTP_GMID_HI n).addr, (Reg.PTP_GMID_LO n).addr, (Reg.PTP_PSTAT_STATE n).addr,
      Reg.PTP_STATUS_STATEEV.addr]
    ∃ t, Runs (.announce n gm cls acc var st) s t ∧ t.dev.rd (Reg.PTP_GMQ_CLASS n) = cls.toNat ∧
      t.dev.rd (Reg.PTP_GMQ_ACCURACY n) = acc.toNat ∧ t.dev.rd (Reg.PTP_GMQ_VARIANCE n) = var.toNat ∧
      t.dev.rd (Reg.PTP_GMID_HI n) = gm.toNat / 2 ^ 32 ∧ t.dev.rd (Reg.PTP_GMID_LO n) = gm.toNat % 2 ^ 32 ∧
      ShowsCode s t n code ∧ (∀ x, st = some x → t.dev.rd (Reg.PTP_PSTAT_STATE n) = x.val) ∧
      (moves → FollowsLost (PortLost t n) s t n) ∧
      (¬ moves → t.dev.rd (Reg.REF_CSTAT_STATE n) = s.dev.rd (Reg.REF_CSTAT_STATE n)) ∧
      (other ∨ moves → t.dev.rd Reg.PTP_STATUS_STATEEV = 1) ∧
      (Room s → ∃ more, (∀ e ∈ more, e.1 = 16) ∧ (¬ moves → more = []) ∧
        EntersAll s t ((match st with
            | some x => if s.dev.rd (Reg.PTP_PSTAT_STATE n) = x.val then [] else [(14, 6, n.val + x.val * 2 ^ 8)] | none => []) ++
          (if other then [(14, 7, n.val)] else []) ++ more)) ∧
      (¬ moves → SameWords (words ++ candidateWords) s t) ∧
      Keeps (words ++ refWords) s t { s.dev with
        ptp := (s.dev.setPport n { s.dev.pport n with annAt := s.dev.tick }).ptp, ref := t.dev.ref }) ∧
  (∀ (s : State) (n : Fin 2) (st : Fin 8), s.dev.rd (Reg.PTP_PCFG_ENABLE n) = 1 → s.dev.supRuns = true →
    let due := (s.dev.pport n).annAt + s.dev.rd (Reg.PTP_PRATE_ANN_TMO n) *
      (8000 * 2 ^ (sint 8 (s.dev.rd (Reg.PTP_PRATE_LOG_ANN n)) + 8).toNat / 256)
    (due ≤ s.dev.tick → ∃ t, Runs (.announceReceiptTimeout n st) s t ∧ t.dev.rd (Reg.PTP_PSTAT_STATE n) = st.val ∧
      Keeps ([(Reg.PTP_PSTAT_STATE n).addr, Reg.PTP_STATUS_STATEEV.addr] ++ refWords) s t { s.dev with ref := t.dev.ref } ∧
      (s.dev.rd (Reg.PTP_PSTAT_STATE n) = st.val → Keeps [] s t s.dev) ∧
      (s.dev.rd (Reg.PTP_PSTAT_STATE n) ≠ st.val → t.dev.rd Reg.PTP_STATUS_STATEEV = 1 ∧ FollowsLost (PortLost t n) s t n ∧
        (Room s → ∃ more, (∀ e ∈ more, e.1 = 16) ∧ EntersAll s t ((14, 6, n.val + st.val * 2 ^ 8) :: more)))) ∧
    (s.dev.tick < due → ∃ t, Runs (.announceReceiptTimeout n st) s t ∧ Keeps [] s t s.dev))

/-- R349, R350: an ESMC PDU on a link that is up gives a SyncE candidate the code of its SSM under the network option, and five seconds
without one 0xFF; REF_CSTATk keeps the last SSM code. -/
def EsmcGivesQuality : Prop :=
  ∀ (s : State) (n : Fin 2) (ssm : BitVec 4),
    let codes : List (Nat × Nat) := if s.dev.rd Reg.REF_CFG_SSMOPT = 1
      then [(0x1, 0x14), (0x0, 0x2C), (0x7, 0x30), (0x4, 0x50), (0xD, 0x58), (0xA, 0x70), (0xE, 0x78)]
      else [(0x2, 0x14), (0x4, 0x30), (0x8, 0x50), (0xB, 0x70)]
    let c := s.dev.cand (2 + n.val)
    let silent := ∃ m, c.heard = some m ∧ m + 40000 ≤ s.dev.tick
    let kept := fun (t : State) => Keeps candidateWords s t { s.dev with ref := { s.dev.ref with cands := t.dev.ref.cands } }
    (s.dev.supRuns = true → s.dev.rd (Reg.MAC_STATUS_LINK n) = 1 →
      ∃ t, Runs (.esmcPdu n ssm) s t ∧ t.dev.rd (Reg.REF_CSTAT_SSM (2 + n.val)) = ssm.toNat ∧
        ShowsCode s t (2 + n.val) ((codes.lookup ssm.toNat).getD 0xFF) ∧ t.dev.cand (2 + n.val) = { c with heard := some s.dev.tick } ∧
        kept t) ∧
    (silent → ∃ t, Runs (.esmcTimeout n) s t ∧ ShowsCode s t (2 + n.val) 0xFF ∧ t.dev.cand (2 + n.val) = { c with heard := none } ∧
      t.dev.rd (Reg.REF_CSTAT_SSM (2 + n.val)) = s.dev.rd (Reg.REF_CSTAT_SSM (2 + n.val)) ∧ kept t) ∧
    (¬ silent → ∃ t, Runs (.esmcTimeout n) s t ∧ Keeps [] s t s.dev)

/-- The quality that a master port announces (R366). -/
def Announced (s : State) (cls acc var : Nat) : Prop :=
  let st := s.dev.rd Reg.REF_STATUS_STATE
  let sel := s.dev.rd Reg.REF_STATUS_SEL
  let onPtp := (st = 1 ∨ st = 2) ∧ sel < 2
  let inSpec := s.dev.rd Reg.REF_STATUS_HISTVALID = 1 ∧ s.dev.rd Reg.REF_STATUS_OCXO_WARM = 1 ∧
    s.dev.rd Reg.REF_HOTIME_SEC < s.dev.rd Reg.REF_HO_INSPEC
  (onPtp → cls = s.dev.rd (Reg.PTP_GMQ_CLASS sel) ∧ acc = s.dev.rd (Reg.PTP_GMQ_ACCURACY sel) ∧
    var = s.dev.rd (Reg.PTP_GMQ_VARIANCE sel)) ∧
  (st = 3 ∧ s.dev.ref.hoClass = 6 ∧ inSpec → cls = 7 ∧ acc = 0x25 ∧ var = 0xFFFF) ∧
  (st = 3 ∧ s.dev.ref.hoClass = 6 ∧ ¬ inSpec → cls = 52 ∧ acc = 0xFE ∧ var = 0xFFFF) ∧
  (¬ onPtp → ¬ (st = 3 ∧ s.dev.ref.hoClass = 6) → cls = 248 ∧ acc = 0xFE ∧ var = 0xFFFF)

/-- R289, R291, R319, R366: a PTP message joins the queue of its port that MACn_SUPQ names, as it was handed over but for the quality of an
Announce message of a master port and the checksums that the MAC inserts, and marked one-step only where it is a Sync and the port permits
it; a port whose line is down discards and counts it. -/
def PtpMessagesAreQueued : Prop :=
  ∀ (s : State) (n : Fin 2) (bytes : List Byte) (stamp one : Bool) (tag : BitVec 16) (ns : Nat),
    s.dev.rd (Reg.PTP_PCFG_ENABLE n) = 1 → s.dev.supRuns = true →
    let b := bytes.map (·.toNat)
    let q := s.dev.rd (Reg.MAC_SUPQ_PTPQ n)
    let old := ((s.dev.mac n).queue q).q
    let announce := fun (o : Nat) => byteAt b o % 16 = 0xB ∧ s.dev.rd (Reg.PTP_PSTAT_STATE n) = 4
    let depth := s.dev.rd (Reg.MAC_QCFG_DEPTH n q) * 1024
    let size := ({ bytes := b } : TxFrame).len
    size ≤ s.dev.rd (Reg.MAC_CFG_MAXLEN n) → 0 < size →
    (s.dev.portUp n = true → queueLen old + size ≤ depth →
      (∀ o u, ptpAt b = some (o, u) → announce o → o + 64 ≤ b.length) →
      ∃ t g, Runs (.ptpMessageSend n bytes stamp one tag ns) s t ∧ ((t.dev.mac n).queue q).q = old ++ [g] ∧
        OtherQueuesKeep s t n q ∧ MacCounts s t n (40 + q) 1 ∧ g.stamp = stamp ∧ g.tag = tag.toNat ∧ g.sup = true ∧
        (g.oneStep = true ↔ one = true ∧ s.dev.rd (Reg.PTP_PCFG_ONESTEP n) = 1 ∧ ∃ o u, ptpAt b = some (o, u) ∧ byteAt b o % 16 = 0) ∧
        ∃ b', g.bytes = insertSums b' ∧ ((∀ o u, ptpAt b = some (o, u) → ¬ announce o) → b' = b) ∧
          ∀ o u, ptpAt b = some (o, u) → announce o →
            Announced s (byteAt b' (o + 48)) (byteAt b' (o + 49)) (be16 b' (o + 50)) ∧
            b'.take (o + 48) = b.take (o + 48) ∧ b'.drop (o + 61) = b.drop (o + 61)) ∧
    (s.dev.portUp n = false →
      ∃ t, Runs (.ptpMessageSend n bytes stamp one tag ns) s t ∧ ((t.dev.mac n).queue q).q = old ∧ OtherQueuesKeep s t n q ∧
        MacCounts s t n (48 + q) 1)

end Sys2Proof.Claims

/-- R289, R291, R319 to R321, R325, R336, R337, R339, R340, R342, R345, R347 to R350, R366: time stamps, captures, triggers, and the messages that carry quality. -/
def Obligations.StampsTriggersAndQuality : Prop :=
  StampsAndCaptures ∧ TriggersArmAndFire ∧ AnnouncesGiveQuality ∧ EsmcGivesQuality ∧ PtpMessagesAreQueued

namespace Sys2Proof.Claims

/-- The path hold of port `n` has ended. -/
def HoldEnds (t : State) (n : Nat) : Prop :=
  (t.dev.pport n).hold = none ∧ (t.dev.pport n).suspects = 0 ∧ t.dev.rd (Reg.PTP_PSTAT_HOLD n) = 0 ∧ t.dev.rd (Reg.REF_CSTAT_HOLD n) = 0

/-- `x` ns is Δ, rounded to a whole number: the mean θ of the last eight exchanges `l` less the frozen baseline (R332). -/
def IsDelta (l : List (Int × Int)) (h : PathHold) (x : Int) : Prop := (128 * x - (8 * sumOf (l.map (·.1)) - h.base)).natAbs < 128

/-- The new offset of port `n` is accepted (R334). -/
def TakesOffset (s t : State) (n : Nat) (l : List (Int × Int)) (h : PathHold) : Prop :=
  HoldEnds t n ∧ (t.dev.pport n).good = [] ∧ (t.dev.pport n).reb = (s.dev.pport n).reb ∧
  ∃ x, IsDelta l h x ∧ t.dev.rd (Reg.PTP_PSTEPLOG_STEP n) = sat32 x

/-- Port `n` is re-baselined (R333): PTP_REBASEn takes Δn, the θ of its history stay, and the D of it move by the mean D of the last eight
exchanges less the frozen one. -/
def IsRebased (s t : State) (n : Nat) (l : List (Int × Int)) (h : PathHold) (good : List (Int × Int)) : Prop :=
  HoldEnds t n ∧ (∃ x : Int, (64 * x - (8 * sumOf (l.map (·.2)) - h.baseD)).natAbs < 64 ∧
    (t.dev.pport n).good = good.map fun e => (e.1, e.2 + x)) ∧
  ∃ x, IsDelta l h x ∧ (t.dev.pport n).reb = (s.dev.pport n).reb + x ∧
    ((s.dev.pport n).bout = 0 → t.dev.rd (Reg.PTP_REBASE_REBASE n) = sat32 ((s.dev.pport n).reb + x))

/-- The words of PTP port `n` that the servo and the path step detector write. -/
def servoWords (n : Nat) : List Nat :=
  [(Reg.PTP_EXCH_COUNT n).addr, (Reg.PTP_SUSPECT_COUNT n).addr, (Reg.PTP_SKIP_COUNT n).addr, (Reg.PTP_OFF_THETA n).addr,
   (Reg.PTP_MPD_D n).addr, (Reg.PTP_PSTAT_STATE n).addr, (Reg.PTP_PSTEPCNT_COUNT n).addr, (Reg.PTP_REBASE_REBASE n).addr,
   (Reg.PTP_PSTEPLOG_STEP n).addr, Reg.PTP_STATUS_CNT_HALF.addr, Reg.PTP_FREQ_FREQ.addr, (Reg.REF_CSTAT_HOLD n).addr,
   Reg.REF_BOUT_NS.addr]

/-- R333: the decision of the detector on port `n` in path hold `h`, at an exchange after which its last eight are `l`, its history
is `good` and its suspects in a row are `k`. -/
def HoldDecides (s t : State) (n : Nat) (h : PathHold) (l good : List (Int × Int)) (k : Nat) : Prop :=
  let lim : Int := 64 * s.dev.rd Reg.PTP_PSTEP_THRESH
  let dn := 8 * sumOf (l.map (·.1)) - h.base
  let o := s.dev.pport (1 - n)
  let od := 8 * sumOf (o.last.map (·.1)) - h.other.getD 0
  let usable := s.dev.ptpOn (1 - n) = true ∧ s.dev.rd (Reg.PTP_PSTAT_STATE (1 - n)) = 3 ∧
    (∃ m, o.lastTick = some m ∧ s.dev.tick ≤ m + 16000) ∧ o.hold = none ∧ h.other ≠ none
  let stays := fun (single : Bool) => (t.dev.pport n).hold = some { h with count := h.count + 1, single := single } ∧
    (t.dev.pport n).good = good ∧ (t.dev.pport n).suspects = k ∧ t.dev.rd (Reg.PTP_PSTAT_HOLD n) = 1
  let reverts := HoldEnds t n ∧ (t.dev.pport n).good = good ∧ (t.dev.pport n).reb = (s.dev.pport n).reb
  (h.single = true → if (dn.natAbs : Int) ≤ lim then reverts else stays true) ∧
  (h.single = false → h.count + 1 ≠ 8 → stays false) ∧
  (h.single = false → h.count + 1 = 8 →
    ((dn.natAbs : Int) ≤ lim → reverts) ∧
    (lim < dn.natAbs → ¬ usable → stays true) ∧
    (lim < dn.natAbs → usable → (od.natAbs : Int) ≤ lim → IsRebased s t n l h good) ∧
    (lim < dn.natAbs → usable → 2 * lim < od.natAbs → ((dn - od).natAbs : Int) ≤ lim → TakesOffset s t n l h) ∧
    (lim < dn.natAbs → usable → lim < od.natAbs → ¬ (2 * lim < od.natAbs ∧ ((dn - od).natAbs : Int) ≤ lim) → stays true))

/-- The device with what the detector, the servo and the selection keep as in `t`. -/
def ServoPart (s t : State) : Dev :=
  { s.dev with ptp := { t.dev.ptp with stamps := s.dev.ptp.stamps, trigs := s.dev.ptp.trigs }, ref := t.dev.ref }

/-- R323, R327 to R333, R345: an exchange gives θ and D in half nanoseconds; one whose stamp was lost is skipped, and the servo then holds its
frequency; one that is suspect is counted and not used; the steering port moves the rate by the servo, or only holds its frequency,
and its lock follows; the third suspect exchange in a row opens a path hold with its baseline; an exchange of a port in path hold is
judged; and the port's candidate is no longer lost. -/
def ExchangesSteerAndDetect : Prop :=
  ∀ (s : State) (n : Fin 2) (x : ExchangeData),
    let lacks := ∃ f ∈ x.frames, (f.1, f.2.1.toNat, f.2.2.toNat) ∈ (s.dev.pport n).lost
    let runs := s.dev.ptpOn n = true ∧ s.dev.supRuns = true
    let p := s.dev.pport n
    let moves := ∃ y, x.st = some y ∧ s.dev.rd (Reg.PTP_PSTAT_STATE n) ≠ y.val
    let cst := s.dev.rd (Reg.REF_CSTAT_STATE n)
    (¬ runs → ∃ t, Runs (.exchange n x) s t ∧ Keeps [] s t s.dev) ∧
    (runs → lacks →
      ∃ t, Runs (.exchange n x) s t ∧ t.dev.rd (Reg.PTP_SKIP_COUNT n) = (s.dev.rd (Reg.PTP_SKIP_COUNT n) + 1) % 2 ^ 32 ∧
        t.dev.pport n = { p with lost := (t.dev.pport n).lost } ∧ t.dev.pport (1 - n.val) = s.dev.pport (1 - n.val) ∧
        t.dev.ptp.integ = s.dev.ptp.integ ∧
        (if s.dev.rd Reg.PTP_STATUS_STEER = n.val + 1 then t.dev.ptp.phase = 0 ∧ t.dev.ptp.rate = s.dev.ptp.integ
          else t.dev.ptp.phase = s.dev.ptp.phase ∧ t.dev.ptp.rate = s.dev.ptp.rate) ∧
        (moves → FollowsLost (PortLost t n) s t n) ∧
        Keeps ([(Reg.PTP_SKIP_COUNT n).addr, (Reg.PTP_PSTAT_STATE n).addr, Reg.PTP_STATUS_CNT_HALF.addr, Reg.PTP_FREQ_FREQ.addr] ++ refWords)
          s t (ServoPart s t)) ∧
    (runs → ¬ lacks →
      let fwd := x.t2 - x.t1 - x.cS
      let D := if s.dev.rd (Reg.PTP_PCFG_DELAY n) = 1 then 2 * x.link else fwd + (x.t4 - x.t3 - x.cD)
      let th := 2 * (fwd - sint 32 (s.dev.rd (Reg.PTP_ASYM_ASYM n)) - sint 32 (s.dev.rd (Reg.PTP_REBASE_REBASE n))) - D
      let lim : Int := 128 * s.dev.rd Reg.PTP_PSTEP_THRESH
      let far := fun (v : Int) (vs : List Int) => lim < (64 * v - sumOf vs).natAbs
      let bad := p.good.length = 64 ∧ (far th (p.good.map (·.1)) ∨ far D (p.good.map (·.2)))
      let gone := moves ∧ s.dev.rd Reg.REF_CFG_ENABLE = 1 ∧ (x.st ≠ some 3 ∨ s.dev.rd Reg.PWR_STATUS_STATE = 4 ∨
        ∀ m, p.lastTick = some m → m + 8000 ≤ s.dev.tick)
      let steers := s.dev.rd Reg.PTP_STATUS_STEER = n.val + 1 ∧ 3 ≤ cst ∧ ¬ gone
      let lock : Int := 2 * s.dev.rd Reg.PTP_SERVO_LOCK_NS
      let within := if (th.natAbs : Int) ≤ lock then p.within + 1 else 0
      let bw := s.dev.rd Reg.PTP_SERVO_BW
      let ki : Int := ([986960000, 39478000, 3553100, 394780] : List Int).getD bw 0
      let kp : Int := ([628320000, 125660000, 37699000, 12566000] : List Int).getD bw 0
      let period : Int := 2 ^ (sint 8 (s.dev.rd (Reg.PTP_PRATE_LOG_SYNC n)) + 8).toNat
      let slew : Int := s.dev.rd Reg.REF_SLEW_PHASE * (10 ^ 8 * 2 ^ 9)
      let l := ((th, D) :: p.last).take 8
      ∃ (t : State) (good : List (Int × Int)) (k : Nat), Runs (.exchange n x) s t ∧
        (bad → good = p.good ∧ k = p.suspects + 1) ∧ (¬ bad → good = ((th, D) :: p.good).take 64 ∧ k = 0) ∧
        t.dev.rd (Reg.PTP_EXCH_COUNT n) = (s.dev.rd (Reg.PTP_EXCH_COUNT n) + 1) % 2 ^ 32 ∧
        (bad → t.dev.rd (Reg.PTP_SUSPECT_COUNT n) = (s.dev.rd (Reg.PTP_SUSPECT_COUNT n) + 1) % 2 ^ 32) ∧
        (¬ bad → t.dev.rd (Reg.PTP_SUSPECT_COUNT n) = s.dev.rd (Reg.PTP_SUSPECT_COUNT n)) ∧
        (t.dev.pport n).last = l ∧ (t.dev.pport n).lastTick = some s.dev.tick ∧ t.dev.pport (1 - n.val) = s.dev.pport (1 - n.val) ∧
        (∃ m, t.dev.rd (Reg.PTP_OFF_THETA n) = sat32 m ∧
          (2 * (l.length : Int) * m - sumOf (l.map (·.1))).natAbs < 2 * l.length) ∧
        (¬ steers → t.dev.ptp.integ = s.dev.ptp.integ ∧ t.dev.ptp.phase = s.dev.ptp.phase ∧ t.dev.ptp.rate = s.dev.ptp.rate) ∧
        (steers → t.dev.ptp.rate = t.dev.ptp.integ + t.dev.ptp.phase) ∧
        (steers → ¬ bad → (t.dev.pport n).within = within ∧ t.dev.rd (Reg.PTP_PSTAT_LOCK n) =
          (if 16 ≤ within then 1 else if 2 * lock < th.natAbs then 0 else s.dev.rd (Reg.PTP_PSTAT_LOCK n))) ∧
        (¬ steers ∨ bad → (t.dev.pport n).within = p.within ∧ t.dev.rd (Reg.PTP_PSTAT_LOCK n) = s.dev.rd (Reg.PTP_PSTAT_LOCK n)) ∧
        (s.dev.rd Reg.REF_CFG_ENABLE = 1 → cst ≠ 0 → s.dev.rd (Reg.REF_CAND_PRIO n) ≠ 0 →
          let now := t.dev.rd (Reg.REF_CSTAT_STATE n)
          (PortLost t n → now = 1) ∧ (¬ PortLost t n → cst = 1 → now = 2) ∧ (¬ PortLost t n → 2 ≤ cst → ¬ gone → now = cst)) ∧
        (steers → bad ∨ p.hold ≠ none → t.dev.ptp.integ = s.dev.ptp.integ ∧ t.dev.ptp.phase = 0) ∧
        (steers → ¬ bad → p.hold = none → t.dev.ptp.integ = s.dev.ptp.integ - ki * th * period ∧
          t.dev.ptp.phase = max (-slew) (min (-(kp * th * 256)) slew)) ∧
        (p.hold = none → ¬ bad ∨ p.suspects + 1 < 3 → (t.dev.pport n).hold = none ∧ (t.dev.pport n).good = good ∧
          (t.dev.pport n).suspects = k) ∧
        (p.hold = none → bad → 3 ≤ p.suspects + 1 → (t.dev.pport n).good = good ∧ t.dev.rd (Reg.PTP_PSTAT_HOLD n) = 1 ∧
          t.dev.rd (Reg.PTP_PSTEPCNT_COUNT n) = (s.dev.rd (Reg.PTP_PSTEPCNT_COUNT n) + 1) % 2 ^ 32 ∧
          t.dev.rd Reg.PTP_STATUS_PSTEPEV = 1 ∧
          ∃ other, (t.dev.pport n).hold =
            some { tick := s.dev.tick, base := sumOf (p.good.map (·.1)), baseD := sumOf (p.good.map (·.2)), other := other } ∧
            (other ≠ none ↔ (s.dev.pport (1 - n.val)).good.length = 64)) ∧
        (∀ h, p.hold = some h → HoldDecides s t n h l good k) ∧
        Keeps (servoWords n ++ refWords) s t (ServoPart s t))

/-- R334, R335: PSTEP.HOLD seconds after the firing, and not before, the single-port hold accepts the offset; REBASE and ACCEPT decide a path hold at once and are ignored on a port
that is in none; CLRREB clears the correction and the history in every state. -/
def PathStepCommandsDecide : Prop :=
  ∀ (s : State) (h : Agent) (n : Fin 2), let p := s.dev.pport n
    let kept := fun (t : State) => t.dev.pport (1 - n.val) = s.dev.pport (1 - n.val) ∧
      Keeps (servoWords n) s t { s.dev with ptp := { t.dev.ptp with stamps := s.dev.ptp.stamps, trigs := s.dev.ptp.trigs } }
    let due := fun (x : PathHold) => x.single = true ∧ x.tick + 8000 * s.dev.rd Reg.PTP_PSTEP_HOLD ≤ s.dev.tick
    (∀ x, p.hold = some x → (due x → ∃ t, Runs (.pstepAccept n) s t ∧ TakesOffset s t n p.last x ∧ kept t) ∧
      (¬ due x → ∃ t, Runs (.pstepAccept n) s t ∧ Keeps [] s t s.dev)) ∧
    (Ready s h (rebaseFld n) false →
      (∀ x, p.hold = some x → ∃ t, Runs (.rebase h n) s t ∧ IsRebased s t n p.last x p.good ∧ kept t) ∧
      (p.hold = none → ∃ t, Runs (.rebase h n) s t ∧ Keeps [] s t s.dev)) ∧
    (Ready s h (acceptFld n) false →
      (∀ x, p.hold = some x → ∃ t, Runs (.accept h n) s t ∧ TakesOffset s t n p.last x ∧ kept t) ∧
      (p.hold = none → ∃ t, Runs (.accept h n) s t ∧ Keeps [] s t s.dev)) ∧
    (Ready s h (clrrebFld n) false →
      ∃ t, Runs (.clrreb h n) s t ∧ t.dev.rd (Reg.PTP_REBASE_REBASE n) = 0 ∧ (t.dev.pport n).reb = 0 ∧ (t.dev.pport n).bout = 0 ∧
        (t.dev.pport n).good = [] ∧ (t.dev.pport n).suspects = 0 ∧ (t.dev.pport n).hold = p.hold ∧ kept t)

end Sys2Proof.Claims

/-- R323, R327 to R335, R345: the servo and the path step detector. -/
def Obligations.ExchangesSteerAndDetectPathSteps : Prop := ExchangesSteerAndDetect ∧ PathStepCommandsDecide

/-! ### Reference selection -/

namespace Sys2Proof.Claims

/-- R347: what an estimate `f`, in 0.01 ppb, makes of candidate `k`. -/
def Judged (s t : State) (k : Nat) (f : Int) : Prop :=
  let st := s.dev.rd (Reg.REF_CSTAT_STATE k)
  let c := s.dev.cand k
  let st' := t.dev.rd (Reg.REF_CSTAT_STATE k)
  let c' := t.dev.cand k
  let hard := 100 * s.dev.rd Reg.REF_LIMITS_HARD
  let good := c.good.getD s.dev.tick
  let soft := c.soft.getD s.dev.tick
  (st < 2 → st' = st ∧ c' = c) ∧
  (2 ≤ st → hard < f.natAbs → st' = 5 ∧ c'.good = none) ∧
  (st = 3 → f.natAbs ≤ hard →
    (f.natAbs ≤ 100 * s.dev.rd Reg.REF_LIMITS_SOFT → st' = 3 ∧ c' = { c with soft := none }) ∧
    (100 * s.dev.rd Reg.REF_LIMITS_SOFT < f.natAbs →
      if soft + 8000 * s.dev.rd Reg.REF_TIMES_SOFT_TIME ≤ s.dev.tick then st' = 4 else st' = 3 ∧ c' = { c with soft := some soft })) ∧
  (2 ≤ st → st ≠ 3 → f.natAbs ≤ hard →
    (f.natAbs ≤ 200000 → if good + 80000 ≤ s.dev.tick then st' = 3 else st' = st ∧ c' = { c with good := some good }) ∧
    (200000 < f.natAbs → st' = st ∧ c' = { c with good := none })) ∧
  (st' ≠ st → t.dev.rd Reg.REF_STATUS_QUALEV = 1 ∧
    (st' = 4 ∨ st' = 5 → t.dev.rd (Reg.REF_DISQ_COUNT k) = (s.dev.rd (Reg.REF_DISQ_COUNT k) + 1) % 2 ^ 32))

/-- `k` is `x` ns in ticks, to the nearest (R11). -/
def NearestTicks (x k : Int) : Prop := 2 * (x - k * 125000).natAbs ≤ 125000

/-- R11, R346, R347, R351 to R353, R360, R365: an estimate update, once at each boundary with SCH_TICK mod 8 = 0, loads the estimates, judges the
candidates, keeps the history of the LOCKED one, and evaluates the selection; a frequency candidate without an estimate falls back to
QUALIFYING; the selected candidate is not judged while OSCIN is absent; the first qualified PTP candidate anchors internal time. -/
def EstimatesJudgeTheCandidates : Prop :=
  ∀ (s : State) (est : List (Fin 6 × BitVec 32)) (diff : Int),
    let due := s.dev.rd Reg.REF_CFG_ENABLE = 1 ∧ s.dev.tick % 8 = 0 ∧ s.dev.ref.estAt ≠ some s.dev.tick
    (¬ due → ∃ t, Runs (.estimateUpdate est diff) s t ∧ Keeps [] s t s.dev) ∧ (due →
    let given := fun (k : Nat) (f : BitVec 32) => (k < 2 ∨ s.dev.rd Reg.TIM_CFG_ENABLE = 1) ∧
      (est.find? fun e => e.1.val == k) = some (Fin.ofNat 6 k, f)
    let stays := fun (t : State) (k : Nat) => t.dev.rd (Reg.REF_CSTAT_STATE k) = s.dev.rd (Reg.REF_CSTAT_STATE k) ∧ t.dev.cand k = s.dev.cand k
    let st := s.dev.rd Reg.REF_STATUS_STATE
    let sel := s.dev.rd Reg.REF_STATUS_SEL
    ∃ t, Runs (.estimateUpdate est diff) s t ∧ Evaluated s t ∧ stays t 6 ∧
      (∀ k f, k < 6 → given k f → t.dev.rd (Reg.REF_CFREQ_FREQ k) = f.toNat ∧
        (s.dev.rd Reg.REF_STATUS_OSCIN_OK = 1 ∨ sel ≠ k → Judged s t k f.toInt) ∧
        (s.dev.rd Reg.REF_STATUS_OSCIN_OK = 0 → sel = k → stays t k) ∧
        (st = 2 → sel = k → (s.dev.tick, f.toInt) ∈ t.dev.ref.hist ∧ ∀ e ∈ s.dev.ref.hist, s.dev.tick < e.1 + 10400000 → e ∈ t.dev.ref.hist)) ∧
      (∀ k, k < 6 → (∀ f, ¬ given k f) → t.dev.rd (Reg.REF_CFREQ_FREQ k) = s.dev.rd (Reg.REF_CFREQ_FREQ k) ∧
        (k < 2 → stays t k) ∧
        (2 ≤ k → (t.dev.cand k).good = none ∧
          t.dev.rd (Reg.REF_CSTAT_STATE k) = (if 3 ≤ s.dev.rd (Reg.REF_CSTAT_STATE k) then 2 else s.dev.rd (Reg.REF_CSTAT_STATE k)))) ∧
      (let first := s.dev.rd Reg.PTP_STATUS_ANCHORED = 0 ∧ s.dev.ref.anchor = none ∧
        (t.dev.rd (Reg.REF_CSTAT_STATE 0) = 3 ∨ t.dev.rd (Reg.REF_CSTAT_STATE 1) = 3)
       (¬ first → t.dev.ref.anchor = s.dev.ref.anchor ∧ t.dev.rd Reg.PTP_STATUS_ANCHORED = s.dev.rd Reg.PTP_STATUS_ANCHORED) ∧
       (first → ∃ k : Int, NearestTicks diff k ∧ (k = 0 → t.dev.ref.anchor = none ∧ t.dev.rd Reg.PTP_STATUS_ANCHORED = 1) ∧
         (k ≠ 0 → t.dev.ref.anchor = some ⟨k, diff - k * 125000, false⟩ ∧ t.dev.rd Reg.PTP_STATUS_ANCHORED = 0))) ∧
      Keeps (refWords ++ [Reg.PTP_STATUS_ANCHORED.addr]) s t { s.dev with ref := t.dev.ref } ∧
      t.dev.rd Reg.REF_STATUS_STATE = st ∧ t.dev.rd Reg.REF_STATUS_SEL = sel)

/-- R20, R345, R347, R352, R364, R365, R405: a candidate that is lost is in LOS at once and REF evaluates the selection, and it returns to
QUALIFYING; candidates 0 to 3 are lost by their port and link, 4 and 5 by their input; the OCXO turns warm after its delay and cold at
once, OSCIN comes and goes, candidate 6 follows it, and the TIM PLL takes its source and relocks. -/
def CandidatesComeAndGo : Prop :=
  (∀ (s : State) (k : Fin 7), k.val ≠ 6 →
    let old := s.dev.rd (Reg.REF_CSTAT_STATE k)
    let lost := fun (t : State) (input : Prop) =>
      if k < 2 then PortLost t k else if k < 4 then t.dev.rd (Reg.MAC_STATUS_LINK (k - 2)) = 0 else input
    let others := fun (t : State) =>
      (∀ j, j ≠ k.val → t.dev.cand j = s.dev.cand j ∧ t.dev.rd (Reg.REF_CSTAT_STATE j) = s.dev.rd (Reg.REF_CSTAT_STATE j)) ∧
      (2 ≤ old → t.dev.rd (Reg.REF_CSTAT_STATE k) = 1 → s.dev.rd Reg.REF_CFG_ENABLE = 1 → Evaluated s t) ∧
      Keeps refWords s t { s.dev with ref := t.dev.ref }
    (∃ t, Runs (.candidateLost k) s t ∧ (4 ≤ k → (t.dev.cand k).lost = true) ∧ FollowsLost (lost t True) s t k ∧ others t) ∧
    (∃ t, Runs (.candidateRestored k) s t ∧ (4 ≤ k → (t.dev.cand k).lost = false) ∧ FollowsLost (lost t False) s t k ∧ others t)) ∧
  (∀ (s : State) (present rdy : Bool), let was := s.dev.rd Reg.REF_STATUS_OSCIN_OK
    let now := if present then 1 else 0
    let level := if rdy then 1 else 0
    let rdyAt := if s.dev.ref.rdy = rdy then s.dev.ref.rdyAt else s.dev.tick
    let oscAt := if was = now then s.dev.ref.oscAt else s.dev.tick
    let delay := 8000 * s.dev.rd Reg.REF_OCXO_WARM_DLY
    let warm := present = true ∧ (if s.dev.rd Reg.REF_OCXO_USE_RDY = 1 then level ≠ s.dev.rd Reg.REF_OCXO_RDYPOL ∧ rdyAt + delay ≤ s.dev.tick
      else oscAt + delay ≤ s.dev.tick)
    ∃ t, Runs (.ocxo present rdy) s t ∧ t.dev.rd Reg.REF_STATUS_OSCIN_OK = now ∧
      t.dev.rd Reg.REF_STATUS_OCXO_WARM = (if warm then 1 else 0) ∧ t.dev.ref.rdy = rdy ∧ t.dev.ref.rdyAt = rdyAt ∧ t.dev.ref.oscAt = oscAt ∧
      (was ≠ now ∨ s.dev.rd Reg.REF_STATUS_OCXO_WARM ≠ (if warm then 1 else 0) →
        t.dev.rd Reg.REF_STATUS_NOMON = 1 - now ∧ t.dev.rd Reg.REF_STATUS_OCXOEV = 1) ∧
      (was ≠ now → FollowsLost (present = false) s t 6) ∧
      (was = now → t.dev.rd (Reg.REF_CSTAT_STATE 6) = s.dev.rd (Reg.REF_CSTAT_STATE 6)) ∧
      t.dev.rd Reg.TIM_STATUS_PLLSRC = 1 - now ∧
      (s.dev.rd Reg.TIM_STATUS_PLLSRC ≠ 1 - now → t.dev.rd Reg.TIM_STATUS_PLLLOCK = 0 ∧
        t.dev.rd Reg.TIM_STATUS_CAL = 0 ∧ t.dev.rd Reg.TIM_STATUS_PLLEV = 1 ∧ ∀ u, u < 12 → (t.dev.timU u).start = none)) ∧
  (∀ s : State, ∃ t t', Runs (.candidateLost 6) s t ∧ t.dev.rd Reg.REF_STATUS_OSCIN_OK = 0 ∧ t.dev.rd Reg.REF_STATUS_OCXO_WARM = 0 ∧
    t.dev.rd Reg.TIM_STATUS_PLLSRC = 1 ∧ Runs (.candidateRestored 6) s t' ∧ t'.dev.rd Reg.REF_STATUS_OSCIN_OK = 1 ∧
    t'.dev.rd Reg.TIM_STATUS_PLLSRC = 0)

end Sys2Proof.Claims

/-- R11, R20, R345 to R347, R351 to R353, R360, R364, R365, R405: candidates, estimates and selection. -/
def Obligations.CandidatesAreJudgedAndSelected : Prop := EstimatesJudgeTheCandidates ∧ CandidatesComeAndGo

namespace Sys2Proof.Claims

/-- R353, R359, R11: wait-to-restore, once WTR seconds have passed since the last switch and since best became best, and SWITCHNOW ask for the waiting switch; with none waiting SWITCHNOW answers NOPEND;
REANCHOR rounds the difference to whole ticks, or answers NOPTP. -/
def SwitchRequestsAndReanchors : Prop :=
  (∀ s : State, let p := s.dev.rd Reg.REF_STATUS_PEND
    let waits := s.dev.rd Reg.REF_CFG_ENABLE = 1 ∧ p ≠ 7 ∧ s.dev.rd Reg.REF_STATUS_STATE ≠ 1
    let over_ := waits ∧ 8000 * s.dev.rd Reg.REF_TIMES_WTR ≤ s.dev.tick - max s.dev.ref.done s.dev.ref.since
    let asked := { s.dev with ref := { s.dev.ref with req := some ⟨p, false⟩ } }
    (over_ → ∃ t, Runs .wtrExpiry s t ∧ Keeps [] s t asked) ∧ (¬ over_ → ∃ t, Runs .wtrExpiry s t ∧ Keeps [] s t s.dev) ∧
    ∀ h : Agent, Ready s h Reg.REF_CMD_SWITCHNOW false →
      ∃ t, Runs (.switchnow h) s t ∧ t.dev.rd Reg.REF_CMDRES_REASON = (if waits then 0 else 0x12) ∧ t.dev.rd Reg.REF_CMDRES_VALID = 1 ∧
        (waits → t.dev = Around asked t.dev) ∧ (¬ waits → t.dev = Around s.dev t.dev) ∧
        OnlyFields [Reg.REF_CMDRES_REASON, Reg.REF_CMDRES_VALID] s t) ∧
  (∀ (s : State) (h : Agent) (diff : Int), Ready s h Reg.REF_CMD_REANCHOR false →
    let able := s.dev.rd (Reg.REF_CSTAT_STATE 0) = 3 ∨ s.dev.rd (Reg.REF_CSTAT_STATE 1) = 3
    ∃ t, Runs (.reanchor h diff) s t ∧ t.dev.rd Reg.REF_CMDRES_REASON = (if able then 0 else 0x11) ∧ t.dev.rd Reg.REF_CMDRES_VALID = 1 ∧
      OnlyFields [Reg.REF_CMDRES_REASON, Reg.REF_CMDRES_VALID] s t ∧ (¬ able → t.dev = Around s.dev t.dev) ∧
      (able → ∃ k : Int, NearestTicks diff k ∧
        (k = 0 → t.dev = Around s.dev t.dev ∧ (Room s → EntersAll s t [(16, 7, 0)])) ∧
        (k ≠ 0 → t.dev = Around { s.dev with ref := { s.dev.ref with anchor := some ⟨k, diff - k * 125000, true⟩ } } t.dev)))

/-- R354, R357, R358, R360, R361: a switch completes 64 ticks after it began, and not before; on the OCXO it is holdover, or FREERUN where no other candidate has been selected; on
another candidate it is LOCKED with a new history, and a PTP port is built out by its mean offset, which the detector's history follows, and
steers from the frequency in force. -/
def SwitchesComplete : Prop :=
  (∀ s : State, s.dev.rd Reg.REF_STATUS_STATE ≠ 1 ∨ s.dev.tick < s.dev.ref.begun + 64 → ∃ t, Runs .switchDone s t ∧ Keeps [] s t s.dev) ∧
  ∀ s : State, s.dev.rd Reg.REF_STATUS_STATE = 1 → s.dev.ref.begun + 64 ≤ s.dev.tick → s.dev.rd Reg.REF_CFG_ENABLE = 1 →
    s.dev.rd Reg.REF_STATUS_SEL < 7 →
    let k := s.dev.rd Reg.REF_STATUS_SEL
    let x := s.dev.pport k
    ∃ t, Runs .switchDone s t ∧ t.dev.rd Reg.REF_STATUS_SEL = k ∧ t.dev.ref.done = s.dev.tick ∧ t.dev.rd Reg.REF_STATUS_SWEV = 1 ∧
      Evaluated s t ∧
      (∀ j, t.dev.cand j = s.dev.cand j) ∧
      (k = 6 → s.dev.ref.other = true → t.dev.rd Reg.REF_STATUS_STATE = 3 ∧ t.dev.rd Reg.REF_HOTIME_SEC = 0 ∧
        t.dev.rd Reg.REF_HOCNT_COUNT = (s.dev.rd Reg.REF_HOCNT_COUNT + 1) % 2 ^ 32 ∧ t.dev.rd Reg.REF_STATUS_HOEV = 1 ∧
        (Room s → EntersAll s t [(16, 2, 6), (16, 4, 1 + s.dev.rd Reg.REF_STATUS_HISTVALID * 2 ^ 9)])) ∧
      (k = 6 → s.dev.ref.other = false → t.dev.rd Reg.REF_STATUS_STATE = 0 ∧ (Room s → EntersAll s t [(16, 2, 6)])) ∧
      (k ≠ 6 → t.dev.rd Reg.REF_STATUS_STATE = 2 ∧ t.dev.ref.lockedAt = some s.dev.tick ∧ t.dev.ref.hist = [] ∧
        t.dev.ref.inHo = false) ∧
      (2 ≤ k → t.dev.ptp = s.dev.ptp) ∧
      (k < 2 → t.dev.rd Reg.PTP_STATUS_STEER = k + 1 ∧ t.dev.rd Reg.PTP_FREQ_FREQ = s.dev.rd Reg.PTP_FREQ_FREQ ∧
        t.dev.ptp.phase = 0 ∧ t.dev.ptp.integ = s.dev.ptp.rate ∧ t.dev.ptp.rate = s.dev.ptp.rate ∧
        ∃ b : Int, (x.last ≠ [] → (2 * (x.last.length : Int) * b - sumOf (x.last.map (·.1))).natAbs < 2 * x.last.length) ∧
          (x.last = [] → b = 0) ∧ (t.dev.pport k).bout = x.bout + 8000 * b ∧ (t.dev.pport k).reb = x.reb ∧ (t.dev.pport k).last = x.last ∧
          (∃ c : Int, (c - b).natAbs ≤ 1 ∧ (t.dev.pport k).good = x.good.map fun e => (e.1 - 2 * c, e.2)) ∧
          (62500 < b.natAbs → t.dev.rd Reg.REF_STATUS_FAREV = 1)) ∧
      SameWords (refWords ++ [Reg.REF_HOTIME_SEC.addr, Reg.REF_HOCNT_COUNT.addr, (Reg.PTP_REBASE_REBASE k).addr, Reg.REF_BOUT_NS.addr,
        Reg.PTP_STATUS_STEER.addr]) s t

end Sys2Proof.Claims

/-- R11, R353, R354, R357 to R361: switches and re-anchors. -/
def Obligations.SwitchesCompleteWithoutAPhaseStep : Prop := SwitchRequestsAndReanchors ∧ SwitchesComplete

/-! ### Synthesis and clock outputs -/

namespace Sys2Proof.Claims

/-- TDM ports follow their synthesizers (R268, R270, R271): for a running master port of `D` whose synthesizer is no longer locked the frame is
cut; the port moves to the other one at the end of that frame where it may, and is in FAULT otherwise. -/
def PortsFollow (D : Dev) (t : State) : Prop :=
  ∀ n, n < 16 → D.rd (Reg.TDM_PSTAT_STATE n) = 2 → D.rd (Reg.TDM_PCFG_ROLE n) = 0 →
    let x := D.portSyn n
    let stays := t.dev.rd (Reg.TDM_PSTAT_STATE n) = 2 ∧ t.dev.rd (Reg.TDM_PSTAT_ONSYN n) = D.rd (Reg.TDM_PSTAT_ONSYN n)
    (t.dev.tdmLocked x = true → stays ∧ t.dev.port n = D.port n) ∧
    (t.dev.tdmLocked x = false →
      (t.dev.port n).cuts.any (·.1 == D.frameNow) = true ∧
      (D.rd (Reg.TDM_PCFG_XFAIL n) = 1 → t.dev.tdmLocked (1 - x) = true → stays ∧ (t.dev.port n).moving = some D.frameNow) ∧
      (D.rd (Reg.TDM_PCFG_XFAIL n) = 0 ∨ t.dev.tdmLocked (1 - x) = false →
        t.dev.rd (Reg.TDM_PSTAT_STATE n) = 3 ∧ (t.dev.port n).moving = none))

/-- CLKOUT `y` must leave its synthesizer, which is gated in `t`, and may move to the other, which is locked on the same plan and
aligned (R390). -/
def ClockMoves (s t : State) (y : Nat) : Prop :=
  let c := s.dev.clkSyn y
  s.dev.rd Reg.OUT_CFG_ENABLE = 1 ∧ s.dev.rd (Reg.OUT_CLK_CFG_XFAIL y) = 1 ∧ (t.dev.syns c).gated = true ∧
  (t.dev.syns (1 - c)).gated = false ∧ t.dev.rd (Reg.SYNX_STAT_LOCK (1 - c)) = 1 ∧ t.dev.rd (Reg.SYNX_STAT_UNALIGNED (1 - c)) = 0 ∧
  s.dev.rd (Reg.SYNX_CFG_PLAN c) = s.dev.rd (Reg.SYNX_CFG_PLAN (1 - c))

/-- Each CLKOUT moves, is marked and counted, exactly where it must and may (R390). -/
def ClocksFollow (s t : State) : Prop :=
  ∀ y, y < 8 →
    (ClockMoves s t y → t.dev.clkSyn y = 1 - s.dev.clkSyn y ∧ t.dev.rd Reg.OUT_STATUS_XFEV = 1 ∧
      t.dev.rd (Reg.OUT_CLK_XFCNT_COUNT y) = (s.dev.rd (Reg.OUT_CLK_XFCNT_COUNT y) + 1) % 2 ^ 32) ∧
    (¬ ClockMoves s t y → t.dev.rd (Reg.OUT_CLK_STAT_ONSYN y) = s.dev.rd (Reg.OUT_CLK_STAT_ONSYN y) ∧
      t.dev.rd (Reg.OUT_CLK_XFCNT_COUNT y) = s.dev.rd (Reg.OUT_CLK_XFCNT_COUNT y))

/-- The pulse outputs of the synthesizers in `hit` are held while gated and run otherwise, from their next scheduled edge on, and the others
are as before (R395). -/
def PulsesFollow (s t : State) (hit : Nat → Prop) (gated : Bool) : Prop :=
  ∀ p, p < 4 → let old := s.dev.rd (Reg.OUT_FP_STAT_STATE p)
    let now := t.dev.rd (Reg.OUT_FP_STAT_STATE p)
    (hit (s.dev.rd (Reg.OUT_FP_CFG_SYN p)) →
      now = if gated = true ∧ old = 2 then 3 else if gated = false ∧ old = 3 then 2 else old) ∧
    (¬ hit (s.dev.rd (Reg.OUT_FP_CFG_SYN p)) → now = old) ∧
    t.dev.pulse p = (if now = 2 ∧ old = 3 then { s.dev.pulse p with since := t.dev.timeNs } else s.dev.pulse p) ∧
    t.dev.rd (Reg.OUT_FP_STAT_ANCHORED p) = s.dev.rd (Reg.OUT_FP_STAT_ANCHORED p)

/-- The words of synthesizer `x`, and those of the clock, pulse and TDM outputs, that the events of a synthesizer write. -/
def synWords (x : Nat) : List Nat :=
  [(Reg.SYNX_STAT_STATE x).addr, (Reg.SYNX_LOSCNT_COUNT x).addr, (Reg.SYNX_LOCKCNT_COUNT x).addr, (Reg.SYNX_GATETIME_US x).addr,
   (Reg.SYNX_FAILCNT_COUNT x).addr, Reg.SYN_STATUS_LOCKEV.addr]
def outputWords : List Nat :=
  [Reg.OUT_STATUS_XFEV.addr] ++ (List.range 8).flatMap (fun y => [(Reg.OUT_CLK_STAT_ONSYN y).addr, (Reg.OUT_CLK_XFCNT_COUNT y).addr]) ++
    (List.range 4).map fun p => (Reg.OUT_FP_STAT_STATE p).addr
def tdmWords : List Nat :=
  [Reg.TDM_STATUS_XF.addr, Reg.TDM_ARMED_PORTS.addr, Reg.TDM_RUN_PORTS.addr] ++
    (List.range 16).flatMap fun n => [(Reg.TDM_PSTAT_STATE n).addr, (Reg.TDM_XFCNT_COUNT n).addr, (Reg.TDM_FAULTCNT_COUNT n).addr]

/-- Synthesizer `x` has been gated in `t`, at the latest now, and its lock is no longer declared (R384). -/
def GatedNow (s t : State) (x : Nat) : Prop :=
  (t.dev.syns x).gated = true ∧ (t.dev.syns x).gateAt = (if (s.dev.syns x).gated then (s.dev.syns x).gateAt else t.dev.timeNs) ∧
  t.dev.rd (Reg.SYNX_STAT_LOCK x) = 0 ∧ t.dev.rd (Reg.SYNX_STAT_ILOCK x) = 0 ∧ t.dev.rd (Reg.SYNX_STAT_CMP x) = 0

/-- R379, R380: synthesizer `x` tries to lock: by a hop where its slot is valid and was found within 20 °C, or by a full search. FAULT
is shown until the next declaration of lock (R385). -/
def Attempts (s t : State) (x : Nat) (full : Bool) : Prop :=
  let temp := sint 8 (s.dev.rd Reg.AGE_TEMP_CORE)
  let slot := 4 * x + 2 * s.dev.rd (Reg.SYNX_CFG_PLAN x) + if 45 ≤ temp then 1 else 0
  let hop := full = false ∧ s.dev.rd (Reg.SYN_SLOT_VALID slot) = 1 ∧ (sint 8 (s.dev.rd (Reg.SYN_SLOT_TEMP slot)) - temp).natAbs ≤ 20
  let fault := s.dev.rd (Reg.SYNX_STAT_STATE x) = 5
  (t.dev.syns x).tryAt = t.dev.timeNs ∧ (t.dev.syns x).lp = false ∧
  (hop → (t.dev.syns x).relock = .hop ∧ t.dev.rd (Reg.SYNX_STAT_STATE x) = if fault then 5 else 2) ∧
  (¬ hop → (t.dev.syns x).relock = .search ∧ t.dev.rd (Reg.SYNX_STAT_STATE x) = if fault then 5 else 1)

/-- Only synthesizer `x`, its words, the outputs and the TDM ports may differ between `s`, at the instant `ns`, and `t`. -/
def SynFrame (s t : State) (ns : Nat) (x : Nat) (more : List Nat) : Prop :=
  Keeps (synWords x ++ outputWords ++ tdmWords ++ more) s t { s.dev.at ns with syn := t.dev.syn, tdm := t.dev.tdm } ∧
  t.dev.syns (1 - x) = s.dev.syns (1 - x) ∧ t.dev.syn.clkStart = s.dev.syn.clkStart ∧ t.dev.syn.waiting = s.dev.syn.waiting

/-- R373, R380, R384, R385, R390: a loss of lock or of the reference, and RESEARCH, gate the synthesizer; outputs and ports follow; the relock
begins at once, or when the reference is back; where the power state stops SYN, only the loss of the reference is noted. -/
def SynthesizersAreGated : Prop :=
  (∀ (s : State) (x : Fin 2) (ns : Nat), s.dev.rd (Reg.SYNX_STAT_LOCK x) = 1 →
    ∃ t, Runs (.lossOfLock x ns) s t ∧ GatedNow s t x ∧ Attempts s t x false ∧ PortsFollow (s.dev.at ns).frameTurn t ∧ ClocksFollow s t ∧
      PulsesFollow s t (· = x.val) true ∧ SynFrame s t ns x [] ∧ t.dev.rd Reg.SYN_STATUS_LOCKEV = 1 ∧
      t.dev.rd (Reg.SYNX_LOSCNT_COUNT x) = (s.dev.rd (Reg.SYNX_LOSCNT_COUNT x) + 1) % 2 ^ 32 ∧
      (Room s → (∀ y, y < 8 → ¬ ClockMoves s t y) → (∀ n, n < 16 → s.dev.rd (Reg.TDM_PSTAT_STATE n) ≠ 2 ∧ (s.dev.port n).moving = none) →
        EntersAll s t [(17, 1, x.val)])) ∧
  (∀ (s : State) (ch : Fin 2) (ns : Nat),
    let hit := fun (x : Nat) => s.dev.rd Reg.SYN_CFG_ENABLE = 1 ∧ s.dev.rd (Reg.SYNX_CFG_EN x) = 1 ∧
      s.dev.rd (Reg.SYNX_CFG_PLAN x) = ch.val ∧ (s.dev.syns x).refLost = false
    (s.dev.stopped 17 = true → ∃ t, Runs (.lossOfReference ch ns) s t ∧ Keeps [] s t { s.dev.at ns with syn := t.dev.syn } ∧
      ∀ x, x < 2 → t.dev.syns x = if hit x then { s.dev.syns x with refLost := true } else s.dev.syns x) ∧
    (s.dev.stopped 17 = false → ∃ t, Runs (.lossOfReference ch ns) s t ∧
      (∀ x, x < 2 → hit x → GatedNow s t x ∧ (t.dev.syns x).refLost = true ∧ (t.dev.syns x).relock = .reference ∧
        t.dev.rd (Reg.SYNX_STAT_STATE x) = (if s.dev.rd (Reg.SYNX_STAT_STATE x) = 5 then 5 else 4) ∧
        t.dev.rd (Reg.SYNX_LOSCNT_COUNT x) = (s.dev.rd (Reg.SYNX_LOSCNT_COUNT x) + 1) % 2 ^ 32) ∧
      (∀ x, x < 2 → ¬ hit x → t.dev.syns x = s.dev.syns x ∧ t.dev.word (Reg.SYNX_STAT_STATE x).addr = s.dev.word (Reg.SYNX_STAT_STATE x).addr) ∧
      ((∃ x, x < 2 ∧ hit x) → PortsFollow (s.dev.at ns).frameTurn t ∧ ClocksFollow s t ∧ PulsesFollow s t (fun x => x < 2 ∧ hit x) true) ∧
      Keeps (synWords 0 ++ synWords 1 ++ outputWords ++ tdmWords) s t { s.dev.at ns with syn := t.dev.syn, tdm := t.dev.tdm })) ∧
  (∀ (s : State) (ch x : Fin 2) (ns : Nat), (s.dev.syns x).refLost = true → s.dev.rd (Reg.SYNX_CFG_PLAN x) = ch.val →
    ∃ t, Runs (.referenceRestored ch ns) s t ∧ (t.dev.syns x).refLost = false ∧
      (s.dev.stopped 17 = false → (t.dev.syns x).gated = true ∧ t.dev.rd (Reg.SYNX_STAT_LOCK x) = 0 ∧ Attempts s t x false) ∧
      (s.dev.stopped 17 = true → t.dev.syns x = { s.dev.syns x with refLost := false }) ∧
      Keeps (synWords 0 ++ synWords 1 ++ outputWords ++ tdmWords) s t { s.dev.at ns with syn := t.dev.syn, tdm := t.dev.tdm }) ∧
  (∀ (s : State) (h : Agent) (x : Fin 2) (ns : Nat), Ready s h (Reg.SYNX_CMD_RESEARCH x) false →
    let runs := s.dev.rd Reg.SYN_CFG_ENABLE = 1 ∧ s.dev.rd (Reg.SYNX_CFG_EN x) = 1 ∧ (s.dev.syns x).refLost = false
    ∃ t, Runs (.research h x ns) s t ∧ (¬ runs → Keeps [] s t (s.dev.at ns)) ∧
      (runs → GatedNow s t x ∧ Attempts s t x true ∧ PortsFollow (s.dev.at ns).frameTurn t ∧ ClocksFollow s t ∧ PulsesFollow s t (· = x.val) true ∧
        SynFrame s t ns x []))

/-- R378 to R380, R382, R383, R385: the hop is abandoned for a search after 12 µs; the lock is declared, the outputs resume and a search fills its slot;
a faulty lock path is reported after 20 µs, and no lock is declared with it; an attempt that reaches its bound, or meets a faulty lock path,
is counted, the first one shown as FAULT, and tried again after 1 ms; CLRSLOTS empties the slots. -/
def AttemptsEnd : Prop :=
  (∀ (s : State) (x : Fin 2) (ns : Nat), let st := (Reg.SYNX_STAT_STATE x).addr
    let v := s.dev.syns x
    let now := (s.dev.at ns).timeNs
    let tries := v.relock = .search ∨ v.relock = .hop
    let alone := fun (ws : List Nat) (t : State) =>
      Keeps ws s t { s.dev.at ns with syn := t.dev.syn } ∧ t.dev.syns (1 - x) = s.dev.syns (1 - x) ∧ t.dev.syn.fp = s.dev.syn.fp
    let waits := fun (c : Instr) => ∃ t, Runs c s t ∧ Keeps [] s t (s.dev.at ns)
    (v.relock = .hop → v.tryAt + 12000 ≤ now → ∃ t, Runs (.hopAbandon x ns) s t ∧ Attempts s t x true ∧ alone [st] t) ∧
    (v.relock ≠ .hop ∨ now < v.tryAt + 12000 → waits (.hopAbandon x ns)) ∧
    (v.relock = .failed → v.tryAt + 1000000 ≤ now → ∃ t, Runs (.relockRetry x ns) s t ∧ Attempts s t x false ∧ alone [st] t) ∧
    (v.relock ≠ .failed ∨ now < v.tryAt + 1000000 → waits (.relockRetry x ns)) ∧
    (∀ low : Bool, let due := (if low then v.tryAt else v.gateAt) + 20000
      (tries → due ≤ now → ∃ t, Runs (.lpfault x low ns) s t ∧ t.dev.rd (Reg.SYNX_STAT_LPFAULT x) = 1 ∧
        t.dev.rd (Reg.SYNX_STAT_LOCK x) = s.dev.rd (Reg.SYNX_STAT_LOCK x) ∧ t.dev.rd (Reg.SYNX_STAT_CMP x) = (if low then 0 else 1) ∧
        t.dev.rd (Reg.SYNX_STAT_ILOCK x) = (if low then 1 else 0) ∧ t.dev.rd Reg.SYN_STATUS_FAULTEV = 1 ∧
        t.dev.syns x = { v with lp := true } ∧ alone [st, Reg.SYN_STATUS_FAULTEV.addr] t ∧
        (Room s → EntersAll s t [(17, 2, x.val + if low then 2 ^ 8 else 0)])) ∧
      (¬ tries ∨ now < due → waits (.lpfault x low ns))) ∧
    (let due := v.lp = true ∨ v.tryAt + (if v.relock = .hop then 31000 else 391000) ≤ now
     (tries → due → ∃ t, Runs (.synfail x ns) s t ∧
        t.dev.syns x = { v with relock := .failed, failedOnce := true, tryAt := now } ∧
        t.dev.rd (Reg.SYNX_FAILCNT_COUNT x) = (s.dev.rd (Reg.SYNX_FAILCNT_COUNT x) + 1) % 2 ^ 32 ∧
        (v.failedOnce = false → t.dev.rd (Reg.SYNX_STAT_STATE x) = 5 ∧ t.dev.rd Reg.SYN_STATUS_FAULTEV = 1) ∧
        (v.failedOnce = true → t.dev.rd (Reg.SYNX_STAT_STATE x) = s.dev.rd (Reg.SYNX_STAT_STATE x)) ∧
        alone (synWords x ++ [Reg.ALM_FAULT_FAULT.addr, Reg.ALM_FAULTLAT_FAULT.addr, Reg.ALM_STATUS_FAULTEV.addr]) t) ∧
     (¬ tries ∨ ¬ due → waits (.synfail x ns)))) ∧
  (∀ (s : State) (x : Fin 2) (band : BitVec 4) (trim : BitVec 7) (ns : Nat),
    let tries := (s.dev.syns x).relock = .search ∨ (s.dev.syns x).relock = .hop
    (¬ tries ∨ (s.dev.syns x).lp = true → ∃ t, Runs (.lock x band trim ns) s t ∧ Keeps [] s t (s.dev.at ns)) ∧ (tries → (s.dev.syns x).lp = false →
    let temp := sint 8 (s.dev.rd Reg.AGE_TEMP_CORE)
    let slot := 4 * x.val + 2 * s.dev.rd (Reg.SYNX_CFG_PLAN x) + if 45 ≤ temp then 1 else 0
    let us := min 65535 (((s.dev.at ns).timeNs - (s.dev.syns x).gateAt + 999) / 1000)
    ∃ t, Runs (.lock x band trim ns) s t ∧ t.dev.rd (Reg.SYNX_STAT_STATE x) = 3 ∧ t.dev.rd (Reg.SYNX_STAT_LOCK x) = 1 ∧
      t.dev.rd (Reg.SYNX_STAT_ILOCK x) = 1 ∧ t.dev.rd (Reg.SYNX_STAT_CMP x) = 1 ∧ t.dev.rd (Reg.SYNX_STAT_LPFAULT x) = 0 ∧
      t.dev.rd (Reg.SYNX_STAT_BAND x) = band.toNat ∧ t.dev.rd (Reg.SYNX_STAT_TRIM x) = trim.toNat ∧
      t.dev.rd (Reg.SYNX_GATETIME_US x) = us ∧
      t.dev.rd (Reg.SYNX_LOCKCNT_COUNT x) = (s.dev.rd (Reg.SYNX_LOCKCNT_COUNT x) + 1) % 2 ^ 32 ∧ t.dev.rd Reg.SYN_STATUS_LOCKEV = 1 ∧
      t.dev.syns x = { s.dev.syns x with relock := .none, gated := false, failedOnce := false, lockAt := t.dev.timeNs, lag := 0 } ∧
      t.dev.rd (Reg.SYNX_STAT_UNALIGNED x) = 0 ∧
      ((s.dev.syns x).relock = .search → t.dev.rd (Reg.SYN_SLOT_BAND slot) = band.toNat ∧ t.dev.rd (Reg.SYN_SLOT_TRIM slot) = trim.toNat ∧
        t.dev.rd (Reg.SYN_SLOT_TEMP slot) = s.dev.rd Reg.AGE_TEMP_CORE ∧ t.dev.rd (Reg.SYN_SLOT_VALID slot) = 1) ∧
      ClocksFollow s t ∧ PulsesFollow s t (· = x.val) false ∧
      SynFrame s t ns x (if (s.dev.syns x).relock = .search then [(Reg.SYN_SLOT_VALID slot).addr] else []) ∧
      (Room s → (∀ y, y < 8 → ¬ ClockMoves s t y) → EntersAll s t [(17, 1, x.val + 2 ^ 8 + us * 2 ^ 16)]))) ∧
  (∀ (s : State) (h : Agent), Ready s h Reg.SYN_CMD_CLRSLOTS false →
    ∃ t, Runs (.clrslots h) s t ∧ (∀ i, i < 8 → t.dev.rd (Reg.SYN_SLOT_VALID i) = 0) ∧ t.dev = Around s.dev t.dev ∧
      OnlyFields ((List.range 8).map fun i => Reg.SYN_SLOT_VALID i) s t)

end Sys2Proof.Claims

/-- R268, R270, R373, R378 to R380, R382 to R385, R390, R395: synthesizers lose and regain their lock, and their outputs follow. -/
def Obligations.SynthesizersGateAndRelock : Prop := SynthesizersAreGated ∧ AttemptsEnd

namespace Sys2Proof.Claims

/-- R386 to R390: REALIGN gates an unaligned synthesizer until its alignment boundary, where it resumes and changed outputs restart
together and changed pulse settings come into force; OUT_CLKEN enables outputs; a moved output returns once its synthesizer has held declared
lock for 8,000 ticks. -/
def ClockOutputsRealign : Prop :=
  (∀ (s : State) (h : Agent) (x : Fin 2) (ns : Nat), Ready s h (Reg.SYNX_CMD_REALIGN x) false →
    ∃ t, Runs (.realign h x ns) s t ∧
      (s.dev.rd (Reg.SYNX_STAT_UNALIGNED x) = 0 → Keeps [] s t (s.dev.at ns)) ∧
      (s.dev.rd (Reg.SYNX_STAT_UNALIGNED x) = 1 → t.dev.rd (Reg.SYNX_STAT_UNALIGNED x) = 0 ∧
        t.dev.syns x = { s.dev.syns x with realign := true, gated := true, gateAt := t.dev.timeNs } ∧ ClocksFollow s t ∧
        PulsesFollow s t (· = x.val) true ∧ SynFrame s t ns x [])) ∧
  (∀ (s : State) (plan : Fin 2), let mine := fun (x : Nat) => s.dev.rd (Reg.SYNX_CFG_PLAN x) = plan.val
    let due := s.dev.ns = 0 ∧ (plan = 0 ∨ s.dev.tick % 80 = 0)
    (¬ due → ∃ t, Runs (.alignmentBoundary plan) s t ∧ Keeps [] s t s.dev) ∧ (due → ∃ t, Runs (.alignmentBoundary plan) s t ∧
      (∀ x, x < 2 → mine x → (s.dev.syns x).realign = true →
        t.dev.syns x = { s.dev.syns x with realign := false, gated := decide (s.dev.rd (Reg.SYNX_STAT_LOCK x) ≠ 1), lag := 0 }) ∧
      (∀ x, x < 2 → ¬ (mine x ∧ (s.dev.syns x).realign = true) → t.dev.syns x = s.dev.syns x) ∧
      (∀ y, y < 8 → (y ∈ t.dev.syn.waiting ↔
        y ∈ s.dev.syn.waiting ∧ ¬ (mine (s.dev.clkSyn y) ∧ (t.dev.syns (s.dev.clkSyn y)).gated = false))) ∧
      (∀ y, y ∈ s.dev.syn.waiting → y ∉ t.dev.syn.waiting → Sparse.get 0 t.dev.syn.clkStart y = s.dev.tick) ∧
      (∀ p, p < 4 → let y := s.dev.rd (Reg.OUT_FP_CFG_SYN p)
        let old := s.dev.rd (Reg.OUT_FP_STAT_STATE p)
        let now := t.dev.rd (Reg.OUT_FP_STAT_STATE p)
        let lock := s.dev.rd (Reg.SYNX_STAT_LOCK y)
        let x := if now = 2 ∧ old = 3 then { s.dev.pulse p with since := s.dev.timeNs } else s.dev.pulse p
        (mine y ∧ (s.dev.syns y).realign = true → now = if lock = 1 ∧ old = 3 then 2 else if lock = 0 ∧ old = 2 then 3 else old) ∧
        (¬ (mine y ∧ (s.dev.syns y).realign = true) → now = old) ∧
        t.dev.pulse p = if x.changed = true ∧ mine y ∧ (t.dev.syns y).gated = false then
          { x with changed := false, per := s.dev.rd (Reg.OUT_FP_PER_PER p), width := s.dev.rd (Reg.OUT_FP_WIDTH_WIDTH p),
                   off := s.dev.rd (Reg.OUT_FP_OFF_OFFSET p), fine := s.dev.rd (Reg.OUT_FP_FINE_FINE p) } else x) ∧
      Keeps ((List.range 4).map fun p => (Reg.OUT_FP_STAT_STATE p).addr) s t { s.dev with syn := t.dev.syn })) ∧
  (∀ (s : State) (h : Agent) (mask : BitVec 8), s.dev.owns h = true → s.dev.locked h 18 = false →
    ∃ t, Runs (.outClken h mask) s t ∧ t.dev.rd Reg.OUT_CLKEN_EN = mask.toNat ∧ OnlyFields [Reg.OUT_CLKEN_EN] s t ∧
      t.dev = Around (Staged s t) t.dev) ∧
  (∀ (s : State) (y : Fin 8), let sel := s.dev.rd (Reg.OUT_CLK_CFG_SYN y)
    let back := s.dev.rd (Reg.OUT_CLK_STAT_ONSYN y) = 1 ∧ s.dev.rd (Reg.OUT_CLK_CFG_REVERT y) = 1 ∧
      s.dev.rd (Reg.SYNX_STAT_LOCK sel) = 1 ∧ (s.dev.syns sel).gated = false ∧ (s.dev.syns sel).lockAt + 10 ^ 9 ≤ s.dev.timeNs - s.dev.ns
    ∃ t, Runs (.clkXrevert y) s t ∧ (¬ back → Keeps [] s t s.dev) ∧
      (back → t.dev.rd (Reg.OUT_CLK_STAT_ONSYN y) = 0 ∧ t.dev.rd Reg.OUT_STATUS_XFEV = 1 ∧
        Keeps [(Reg.OUT_CLK_STAT_ONSYN y).addr, Reg.OUT_STATUS_XFEV.addr] s t s.dev ∧
        (Room s → EntersAll s t [(18, 2, y.val)])))

/-- R386, R392 to R394: ERR is the distance of an input edge that IEDGE selects from the nearest a + m × PER, to a whole ns; in Native mode an edge
within the window, the first one, and one after three rejections become the anchor, and
another one is counted as rejected; in Legacy mode only the edge after ALIGN does; a pulse that would fall too close to the one
in progress is omitted. -/
def PulseOutputsFollowTheirInput : Prop :=
  (∀ (s : State) (h : Agent) (p : Fin 4), Ready s h (Reg.OUT_FP_CMD_ALIGN p) false →
    ∃ t, Runs (.align h p) s t ∧ t.dev.live = s.dev.live ∧ (∀ q, q ≠ p.val → t.dev.pulse q = s.dev.pulse q) ∧
      t.dev.pulse p = (if s.dev.rd (Reg.OUT_FP_CFG_MODE p) = 2 then { s.dev.pulse p with align := true } else s.dev.pulse p) ∧
      t.dev = Around { s.dev with syn := { s.dev.syn with fp := t.dev.syn.fp } } t.dev) ∧
  (∀ (s : State) (p : Fin 4) (ns : Nat),
    let x := s.dev.pulse p
    let on := s.dev.rd Reg.OUT_CFG_ENABLE = 1 ∧ s.dev.rd (Reg.OUT_FP_CFG_EN p) = 1 ∧
      (s.dev.at ns).pinEdge (s.dev.rd (Reg.OUT_FP_CFG_INSRC p)) (s.dev.rd (Reg.OUT_FP_CFG_IEDGE p) == 0) = true
    let mode := s.dev.rd (Reg.OUT_FP_CFG_MODE p)
    let win := s.dev.rd (Reg.OUT_FP_FINE_WIN p)
    let now := (s.dev.at ns).timeNs
    let vco : Int := if s.dev.rd (Reg.SYNX_CFG_PLAN (s.dev.rd (Reg.OUT_FP_CFG_SYN p))) = 0 then 1572864000 else 1445068800
    let per : Int := x.per
    let off : Int := x.off
    let width : Int := x.width
    (¬ on → ∃ t, Runs (.fpInputEdge p ns) s t ∧ Keeps [] s t (s.dev.at ns)) ∧ (on → ∃ (t : State) (err : Int),
      let within := x.anchor = none ∨ win = 0 ∨ 3 ≤ x.rejects ∨ err.natAbs ≤ win
      let anchors := (mode = 1 ∧ within) ∨ (mode = 2 ∧ x.align = true)
      Runs (.fpInputEdge p ns) s t ∧ (∀ q, q ≠ p.val → t.dev.pulse q = s.dev.pulse q) ∧
      (mode = 1 → ∀ a : Nat, x.anchor = some a → 0 < per → let z := (((now : Int) - a) * vco) % (per * 10 ^ 9)
        (err * vco - if 2 * z ≤ per * 10 ^ 9 then z else z - per * 10 ^ 9).natAbs < vco) ∧
      (mode = 1 → t.dev.rd (Reg.OUT_FP_ERR_NS p) = uint 32 err) ∧
      (anchors → t.dev.pulse p = { x with anchor := some now, rejects := 0, align := false } ∧
        t.dev.rd (Reg.OUT_FP_STAT_ANCHORED p) = 1) ∧
      (mode = 1 → ¬ within → t.dev.pulse p = { x with rejects := x.rejects + 1 } ∧
        t.dev.rd (Reg.OUT_FP_REJ_COUNT p) = (s.dev.rd (Reg.OUT_FP_REJ_COUNT p) + 1) % 2 ^ 32 ∧
        (x.rejects = 2 → t.dev.rd Reg.OUT_STATUS_REJEV = 1 ∧ (Room s → EntersAll s t [(18, 4, p.val + uint 32 err * 2 ^ 32)]))) ∧
      (mode = 2 → x.align = true → t.dev.rd Reg.OUT_STATUS_ANCHOREV = 1) ∧
      (mode ≠ 1 → ¬ anchors → Keeps [] s t (s.dev.at ns)) ∧
      (∀ a : Nat, x.anchor = some a → anchors → 0 < off → off < per →
        let old := (((now : Int) - a) * vco - off * 10 ^ 9) % (per * 10 ^ 9)
        let omits := s.dev.rd (Reg.OUT_FP_STAT_STATE p) = 2 ∧ old < width * 10 ^ 9 ∧ old ≠ (per - off) * 10 ^ 9 ∧
          off * 10 ^ 9 < width * 10 ^ 9 - old + 4 * 10 ^ 9
        (omits → t.dev.rd (Reg.OUT_FP_SKIP_COUNT p) = (s.dev.rd (Reg.OUT_FP_SKIP_COUNT p) + 1) % 2 ^ 32 ∧
          t.dev.rd Reg.OUT_STATUS_SKIPEV = 1) ∧
        (¬ omits → t.dev.rd (Reg.OUT_FP_SKIP_COUNT p) = s.dev.rd (Reg.OUT_FP_SKIP_COUNT p))) ∧
      Keeps [(Reg.OUT_FP_ERR_NS p).addr, (Reg.OUT_FP_STAT_ANCHORED p).addr, (Reg.OUT_FP_REJ_COUNT p).addr,
        (Reg.OUT_FP_SKIP_COUNT p).addr, Reg.OUT_STATUS_REJEV.addr] s t
        { s.dev.at ns with syn := { s.dev.syn with fp := t.dev.syn.fp }, free := t.dev.free }))

end Sys2Proof.Claims

/-- R386 to R390, R392 to R394: clock and pulse outputs. -/
def Obligations.ClockAndPulseOutputsFollowTheirSchedule : Prop := ClockOutputsRealign ∧ PulseOutputsFollowTheirInput

/-! ### Time-interval measurement -/

namespace Sys2Proof.Claims

/-- Unit `u` runs in frequency mode or, with `freq` false, in interval mode, and the TIM PLL is locked. -/
def Measuring (s : State) (u : Nat) (freq : Bool) : Prop :=
  (s.dev.timU u).cfg ≠ [] ∧ ((s.dev.timU u).field 0 2 1 = 1 ↔ freq = true) ∧ s.dev.rd (Reg.TIM_URES_STATE u) = 1 ∧
  s.dev.rd Reg.TIM_STATUS_PLLLOCK = 1

/-- TIM_SKEW of a source: external inputs have one (R403). -/
def Skew (s : State) (src : Nat) : Int := if src < 18 then sint 16 (s.dev.rd (Reg.TIM_SKEW_SKEW src)) else 0

/-- The words of unit `u` that a measurement writes, and the block's status. -/
def unitWords (u : Nat) : List Nat :=
  Reg.TIM_STATUS_DONEEV.addr :: (Reg.TIM_ULS_STOPS u).addr :: ((List.range 9).map fun i => (Reg.TIM_URES_COUNT u).addr + 4 * i) ++
    (List.range 15).map fun i => (Reg.TIM_ULAST_TIME u i).addr

/-- Of the measurement units only `u` may change, and no word but its own. -/
def UnitOnly (s t : State) (u : Nat) : Prop :=
  Keeps (unitWords u) s t { s.dev with tim := t.dev.tim } ∧ (∀ v, v ≠ u → t.dev.timU v = s.dev.timU v) ∧
  ∀ k, t.dev.timIn k = s.dev.timIn k

/-- An edge timed in `s` is tagged COLD, or UNCAL (R416). -/
def ColdNow (s : State) : Bool := decide (s.dev.rd Reg.REF_STATUS_OCXO_WARM ≠ 1) || decide (s.dev.rd Reg.TIM_STATUS_PLLSRC = 1)
def UncalNow (s : State) : Bool := decide (s.dev.rd Reg.TIM_STATUS_CAL ≠ 1)

/-- A unit in frequency mode begins its next gate now, with the tags of now (R413, R416). -/
def NextGate (s : State) (x : TimU) : TimU :=
  if x.field 0 2 1 = 1 then
    { x with gateAt := s.dev.tick, cold := ColdNow s, warm := !ColdNow s, uncal := UncalNow s, cal := !UncalNow s } else x

/-- A gate in progress has taken note of the tags that hold in `t` (R416). -/
def Marked (t : State) (x : TimU) : TimU :=
  if x.field 0 2 1 = 1 then
    { x with cold := x.cold || ColdNow t, warm := x.warm || !ColdNow t, uncal := x.uncal || UncalNow t, cal := x.cal || !UncalNow t } else x

/-- R414, R415, R420: a complete sample `v` enters the block of unit `u`, whose state is `x`, and the unit goes on as `go` says; with the N-th the block is complete: its results
are loaded, exact but for their rounding, and the next block begins, or the unit is DONE. -/
def BlockTakes (s t : State) (u : Nat) (x : TimU) (v : Int) (cold uncal : Bool) (go : TimU → TimU) : Prop :=
  let n := x.n + 1
  let sum := x.sum + v
  let sq := x.squares + v.natAbs * v.natAbs
  let least := if x.n = 0 then v else min x.least v
  let most := if x.n = 0 then v else max x.most v
  let A := ((n : Int) * (sq : Int) - sum * sum).natAbs
  (n < x.field 2 15 0 →
    t.dev.timU u = go { x with
      n := n, sum := sum, squares := sq, least := least, most := most, bcold := x.bcold || cold, buncal := x.buncal || uncal } ∧
    t.dev.rd (Reg.TIM_UBLK_COUNT u) = s.dev.rd (Reg.TIM_UBLK_COUNT u) ∧
    t.dev.word (Reg.TIM_URES_COUNT u).addr = s.dev.word (Reg.TIM_URES_COUNT u).addr) ∧
  (x.field 2 15 0 ≤ n →
    t.dev.timU u = go { cfg := x.cfg, begun := s.dev.tick } ∧
    t.dev.rd (Reg.TIM_UBLK_COUNT u) = (s.dev.rd (Reg.TIM_UBLK_COUNT u) + 1) % 2 ^ 32 ∧ t.dev.rd Reg.TIM_STATUS_DONEEV = 1 ∧
    t.dev.rd (Reg.TIM_URES_VALID u) = 1 ∧ t.dev.rd (Reg.TIM_URES_COUNT u) = n % 2 ^ 16 ∧
    t.dev.rd (Reg.TIM_URES_COLD u) = (if x.bcold || cold then 1 else 0) ∧
    t.dev.rd (Reg.TIM_URES_UNCAL u) = (if x.buncal || uncal then 1 else 0) ∧
    t.dev.rd (Reg.TIM_UMIN_MIN u) = uint 32 least ∧ t.dev.rd (Reg.TIM_UMAX_MAX u) = uint 32 most ∧
    t.dev.rd (Reg.TIM_UTICK_TICK u) = s.dev.tick % 2 ^ 32 ∧
    t.dev.rd (Reg.TIM_URES_STATE u) = (if x.field 0 3 3 = 1 then s.dev.rd (Reg.TIM_URES_STATE u) else 2) ∧
    (∃ m : Int, t.dev.rd (Reg.TIM_UMEANL_MEAN u) + 2 ^ 32 * t.dev.rd (Reg.TIM_UMEANH_MEAN u) = uint 40 m ∧
      2 * (n * m - 256 * sum).natAbs ≤ n ∧ (2 * (n * m - 256 * sum).natAbs = n → (256 * sum).natAbs < (n * m).natAbs)) ∧
    (262144 * A < 2 ^ 128 * (n * n) → ∃ r, t.dev.rd (Reg.TIM_USDEV_SDEV u) = min r (2 ^ 32 - 1) ∧
      (r = 0 ∨ (2 * r - 1) ^ 2 * (n * n) ≤ 262144 * A) ∧ 262144 * A < (2 * r + 1) ^ 2 * (n * n)))

/-- R410, R412, R416: the sample of unit `u`, whose state is `x`, ends, and the unit goes on as `go` says: the stops are shown; a complete one enters the block, and another one
counts in TIM_UMISS. -/
def SampleEnds (s t : State) (u : Nat) (x : TimU) (go : TimU → TimU) : Prop :=
  let st := x.field 0 15 12
  let y := { x with start := none, stops := [], cold := false, uncal := false }
  let ok := st ≤ x.stops.length ∧ ∀ d ∈ x.stops, d ≤ 2 ^ 31 - 1
  t.dev.rd (Reg.TIM_ULS_STOPS u) = x.stops.length % 16 ∧ t.dev.rd (Reg.TIM_ULS_COLD u) = (if x.cold then 1 else 0) ∧
  t.dev.rd (Reg.TIM_ULS_UNCAL u) = (if x.uncal then 1 else 0) ∧
  (∀ i, i < x.stops.length → t.dev.word (Reg.TIM_ULAST_TIME u i).addr = BitVec.ofInt 32 (x.stops.getD i 0)) ∧
  (ok → t.dev.rd (Reg.TIM_ULS_COMPLETE u) = 1 ∧ BlockTakes s t u y (x.stops.getD (st - 1) 0) x.cold x.uncal go ∧
    t.dev.rd (Reg.TIM_UMISS_COUNT u) = s.dev.rd (Reg.TIM_UMISS_COUNT u)) ∧
  (¬ ok → t.dev.rd (Reg.TIM_ULS_COMPLETE u) = 0 ∧ t.dev.timU u = go y ∧
    t.dev.rd (Reg.TIM_UMISS_COUNT u) = (s.dev.rd (Reg.TIM_UMISS_COUNT u) + 1) % 2 ^ 32)

/-- R400, R401, R403, R410 to R412, R416: hold-off suppresses transitions and gives the level at its end; a start begins a sample and a stop
joins it, each only from a source that has edges and stands at the level behind the edge that the unit selects, and neither the starting
edge itself nor one before it; the sample ends at its last stop or by its time-out, which no later edge precedes. -/
def IntervalsAreMeasured : Prop :=
  (∀ (s : State) (k : Fin 18) (level : Bool) (ns : Nat), let x := s.dev.timIn k
    let others := fun (t : State) => ∀ j, j ≠ k.val → t.dev.timIn j = s.dev.timIn j
    let holds := decide (0 < s.dev.rd (Reg.TIM_IN_HOLDOFF k))
    let now := (s.dev.at ns).timeNs
    let over_ := x.hold = true ∧ x.edgeAt + 10 * s.dev.rd (Reg.TIM_IN_HOLDOFF k) ≤ now
    (x.comp = level → ∃ t, Runs (.comparatorTransition k level ns) s t ∧ Keeps [] s t (s.dev.at ns)) ∧
    (x.comp ≠ level → ∃ t, Runs (.comparatorTransition k level ns) s t ∧ others t ∧ t.dev.tim.units = s.dev.tim.units ∧
      Keeps [(Reg.TIM_HOCNT_COUNT k).addr, Reg.TIM_STATUS_CNT_HALF.addr] s t { s.dev.at ns with tim := t.dev.tim } ∧
      (x.hold = true → t.dev.timIn k = { x with comp := level } ∧
        t.dev.rd (Reg.TIM_HOCNT_COUNT k) = (s.dev.rd (Reg.TIM_HOCNT_COUNT k) + 1) % 2 ^ 32) ∧
      (x.hold = false → t.dev.timIn k = { comp := level, cond := level, hold := holds, edgeAt := now } ∧ t.dev.live = s.dev.live)) ∧
    (over_ → ∃ t, Runs (.holdoffEnd k ns) s t ∧ others t ∧ t.dev.tim.units = s.dev.tim.units ∧
      Keeps [] s t { s.dev.at ns with tim := t.dev.tim } ∧
      t.dev.timIn k = if x.comp = x.cond then { x with hold := false } else { x with cond := x.comp, hold := holds, edgeAt := now }) ∧
    (¬ over_ → ∃ t, Runs (.holdoffEnd k ns) s t ∧ Keeps [] s t (s.dev.at ns))) ∧
  (∀ (s : State) (u : Fin 12) (now : BitVec 64), Measuring s u false →
    let x := s.dev.timU u
    let begins := s.dev.srcEdge (x.field 1 5 0) (x.field 0 4 4 == 1) = true
    let new := fun (z : TimU) => { z with
      start := some (now.toNat + Skew s (x.field 1 5 0)), stops := [], cold := ColdNow s, uncal := UncalNow s }
    (x.start = none →
      (¬ begins → ∃ t, Runs (.startEdge u now) s t ∧ Keeps [] s t s.dev) ∧
      (begins → ∃ t, Runs (.startEdge u now) s t ∧ Keeps [] s t { s.dev with tim := t.dev.tim } ∧
        (∀ v, v ≠ u.val → t.dev.timU v = s.dev.timU v) ∧ (∀ k, t.dev.timIn k = s.dev.timIn k) ∧ t.dev.timU u = new x)) ∧
    (∀ t0, x.start = some t0 → x.stops.length ≤ 15 →
      let limit := t0 + 16000 * (x.field 3 23 0 : Int)
      let src := x.field 1 13 8
      let dt := (now.toNat : Int) + Skew s src - t0
      let same := src = x.field 1 5 0 ∧ x.field 0 4 4 = x.field 0 5 5
      let y := { x with stops := x.stops ++ [dt], cold := x.cold || ColdNow s, uncal := x.uncal || UncalNow s }
      let stops := s.dev.srcEdge src (x.field 0 5 5 == 1) = true ∧ 0 ≤ dt ∧ ¬ (dt = 0 ∧ same)
      ((now.toNat : Int) + Skew s (x.field 1 5 0) ≤ limit → ∃ t, Runs (.startEdge u now) s t ∧ Keeps [] s t s.dev) ∧
      (limit < (now.toNat : Int) + Skew s (x.field 1 5 0) → ∃ t, Runs (.startEdge u now) s t ∧ UnitOnly s t u ∧
        SampleEnds s t u x fun z => if begins ∧ t.dev.rd (Reg.TIM_URES_STATE u) = 1 then new z else z) ∧
      (limit < t0 + dt → ∃ t, Runs (.stopEdge u now) s t ∧ UnitOnly s t u ∧ SampleEnds s t u x id) ∧
      (t0 + dt ≤ limit → ¬ stops → ∃ t, Runs (.stopEdge u now) s t ∧ Keeps [] s t s.dev) ∧
      (t0 + dt ≤ limit → stops → x.stops.length < 15 → ∃ t, Runs (.stopEdge u now) s t ∧ UnitOnly s t u ∧
        (x.stops.length + 1 < x.field 0 11 8 → t.dev.timU u = y ∧ t.dev.live = s.dev.live) ∧
        (x.field 0 11 8 ≤ x.stops.length + 1 → SampleEnds s t u y id)) ∧
      (limit ≤ now.toNat → ∃ t, Runs (.sampleTimeout u now) s t ∧ UnitOnly s t u ∧ SampleEnds s t u x id) ∧
      (now.toNat < limit → ∃ t, Runs (.sampleTimeout u now) s t ∧ Keeps [] s t s.dev)))

/-- R413, R414, R416, R468, R494: a gate of at least two edges gives one sample of f / NOM − 1, in units of 2^-12 ppb, saturated; one of fewer
is incomplete; a tag that holds for a part of the gate only is taken where one of its edges has it. The gate ends no earlier than GATE ms after
it began, by ticks, which count another time scale than the gate to within a part in a thousand, and the next one begins. A gate of an
amplifier check passes when it is complete and within 200 ppm, and runs of failing or passing gates set
and clear AMPFAULT; an untagged hourly block of unit 4, measured while REF was LOCKED on one candidate, joins the ageing history. -/
def GatesAreMeasured : Prop :=
  ∀ (s : State) (u : Fin 12) (edges : BitVec 32) (span : BitVec 64) (coldEdge uncalEdge : Bool), Measuring s u true →
    let x := s.dev.timU u
    let gate := x.field 3 23 0
    let ends := x.gateAt + 8 * gate ≤ s.dev.tick + 1 + 8 * gate / 1000 ∧ span.toNat ≤ 16000000 * gate
    (¬ ends → ∃ t, Runs (.gateEnd u edges span coldEdge uncalEdge) s t ∧ Keeps [] s t s.dev) ∧ (ends →
    let cold := x.cold && (!x.warm || coldEdge)
    let uncal := x.uncal && (!x.cal || uncalEdge)
    let surv := 5 ≤ u.val ∧ s.dev.rd (Reg.TIM_UCFG_OWNER u) = 1
    let nom := x.field 4 31 0
    let num : Int := (((edges.toNat - 1) * 256000000000 : Nat) : Int) - ((span.toNat * nom : Nat) : Int)
    let amp := fun (t : State) (pass : Bool) =>
      let a := Sparse.get (0, false) s.dev.alm.amps (u.val - 5)
      let run := if 0 < a.1 ∧ a.2 = pass then min 15 (a.1 + 1) else 1
      let old := s.dev.rd (Reg.ALM_AMP_FAULT (u.val - 5))
      Sparse.get (0, false) t.dev.alm.amps (u.val - 5) = (run, pass) ∧
      t.dev.rd (Reg.ALM_AMP_FAULT (u.val - 5)) =
        if pass = false ∧ old = 0 ∧ s.dev.rd Reg.ALM_SCFG_FAILN ≤ run then 1
        else if pass = true ∧ old = 1 ∧ s.dev.rd Reg.ALM_SCFG_CLEARN ≤ run then 0 else old
    let tags := fun (t : State) (complete : Nat) (stops : Nat) => t.dev.rd (Reg.TIM_ULS_STOPS u) = stops ∧
      t.dev.rd (Reg.TIM_ULS_COMPLETE u) = complete ∧ t.dev.rd (Reg.TIM_ULS_COLD u) = (if cold then 1 else 0) ∧
      t.dev.rd (Reg.TIM_ULS_UNCAL u) = if uncal then 1 else 0
    (edges.toNat < 2 → ∃ t, Runs (.gateEnd u edges span coldEdge uncalEdge) s t ∧ tags t 0 0 ∧ t.dev.timU u = NextGate s x ∧
      t.dev.rd (Reg.TIM_UMISS_COUNT u) = (s.dev.rd (Reg.TIM_UMISS_COUNT u) + 1) % 2 ^ 32 ∧ (¬ surv → UnitOnly s t u) ∧
      (surv → amp t false)) ∧
    (2 ≤ edges.toNat → span.toNat * nom = 0 → ∃ t, Runs (.gateEnd u edges span coldEdge uncalEdge) s t ∧ tags t 1 1) ∧
    (2 ≤ edges.toNat → span.toNat * nom ≠ 0 → ∃ (t : State) (y : Int), Runs (.gateEnd u edges span coldEdge uncalEdge) s t ∧ tags t 1 1 ∧
      (y * ((span.toNat * nom : Nat) : Int) - num * 4096000000000).natAbs < span.toNat * nom ∧
      let v := max (-(2 ^ 31)) (min y (2 ^ 31 - 1))
      t.dev.word (Reg.TIM_ULAST_TIME u 0).addr = BitVec.ofInt 32 v ∧ BlockTakes s t u x v cold uncal (NextGate s) ∧
      t.dev.rd (Reg.TIM_UMISS_COUNT u) = s.dev.rd (Reg.TIM_UMISS_COUNT u) ∧ (¬ surv → u.val ≠ 4 → UnitOnly s t u) ∧
      (surv → amp t (decide (v.natAbs ≤ 819200000))) ∧
      (u.val = 4 → x.field 2 15 0 ≤ x.n + 1 →
        let counts := (x.bcold || cold) = false ∧ (x.buncal || uncal) = false ∧ s.dev.rd Reg.REF_STATUS_STATE = 2 ∧
          s.dev.rd Reg.REF_STATUS_SEL ≤ 5 ∧ ∃ k, s.dev.ref.lockedAt = some k ∧ k ≤ x.begun
        let mean := sint 40 (t.dev.rd (Reg.TIM_UMEANL_MEAN 4) + 2 ^ 32 * t.dev.rd (Reg.TIM_UMEANH_MEAN 4))
        (counts → t.dev.age.hist.means = s.dev.age.hist.means ++ [-mean]) ∧ (¬ counts → t.dev.age = s.dev.age))))

/-- R405 to R407, R409, R415: RESTART begins a new block and keeps the sample in progress, and is read only on the units of REF and AGE;
calibration is reported, its tables are counted, one each ms, and the TIM PLL locks on the source that OSCIN gives. -/
def TimebaseIsCalibrated : Prop :=
  (∀ (s : State) (h : Agent) (u : Fin 12), let x := s.dev.timU u
    (u.val < 5 → ∃ t, Runs (.restart h u) s t ∧ Keeps [] s t s.dev) ∧
    (5 ≤ u.val → Ready s h (Reg.TIM_UCMD_RESTART u) false → x.cfg ≠ [] → ∃ t, Runs (.restart h u) s t ∧
      t.dev.rd (Reg.TIM_URES_STATE u) = 1 ∧ t.dev.rd (Reg.TIM_URES_VALID u) = 0 ∧
      t.dev.timU u = (if s.dev.rd (Reg.TIM_URES_STATE u) = 2 then NextGate s else id) { x with
        n := 0, sum := 0, squares := 0, least := 0, most := 0, bcold := false, buncal := false, begun := s.dev.tick } ∧
      OnlyFields [Reg.TIM_URES_STATE u, Reg.TIM_URES_VALID u] s t ∧ UnitOnly s t u)) ∧
  (∀ (s : State) (on : Bool) (dnl : BitVec 8), let v := if on then 1 else 0
    let quiet := fun (c : Instr) => ∃ t, Runs c s t ∧ Keeps [] s t s.dev
    let tables := s.dev.rd Reg.TIM_STATUS_PLLLOCK = 1 ∧ s.dev.tim.tableAt + 8 ≤ s.dev.tick + 1
    (s.dev.rd Reg.TIM_STATUS_PLLLOCK ≠ v ∨ s.dev.rd Reg.TIM_STATUS_CAL = v → quiet (.cal on)) ∧
    (s.dev.rd Reg.TIM_STATUS_PLLLOCK = v → s.dev.rd Reg.TIM_STATUS_CAL ≠ v → ∃ t, Runs (.cal on) s t ∧ t.dev.rd Reg.TIM_STATUS_CAL = v ∧
      OnlyFields [Reg.TIM_STATUS_CAL, Reg.TIM_STATUS_CALEV] s t ∧ t.dev.rd Reg.TIM_STATUS_CALEV = 1 ∧
      t.dev = Around { s.dev with tim := { s.dev.tim with units := t.dev.tim.units } } t.dev ∧
      (∀ u, u < 12 → t.dev.timU u = Marked t (s.dev.timU u)) ∧ (Room s → EntersAll s t [(19, 2, v)])) ∧
    (¬ tables → quiet (.calTable dnl)) ∧
    (tables → ∃ t, Runs (.calTable dnl) s t ∧ t.dev.rd Reg.TIM_CALDNL_DNL = dnl.toNat ∧
      t.dev.rd Reg.TIM_CALCNT_COUNT = (s.dev.rd Reg.TIM_CALCNT_COUNT + 1) % 2 ^ 32 ∧
      OnlyFields [Reg.TIM_CALDNL_DNL, Reg.TIM_CALCNT_COUNT, Reg.TIM_STATUS_CNT_HALF] s t ∧
      t.dev = Around { s.dev with tim := { s.dev.tim with tableAt := s.dev.tick } } t.dev)) ∧
  (∀ s : State, let src := if s.dev.rd Reg.REF_STATUS_OSCIN_OK = 1 then 0 else 1
    ∃ t, Runs .timPllLock s t ∧ t.dev.rd Reg.TIM_STATUS_PLLLOCK = 1 ∧ t.dev.rd Reg.TIM_STATUS_PLLSRC = src ∧
      (s.dev.rd Reg.TIM_STATUS_PLLSRC = src → OnlyFields [Reg.TIM_STATUS_PLLLOCK] s t ∧
        t.dev = Around { s.dev with tim := { s.dev.tim with units := t.dev.tim.units } } t.dev ∧
        ∀ u, u < 12 → t.dev.timU u = (if s.dev.rd Reg.TIM_STATUS_PLLLOCK = 1 then Marked t else NextGate s) (s.dev.timU u)) ∧
      (s.dev.rd Reg.TIM_STATUS_PLLSRC ≠ src → t.dev.rd Reg.TIM_STATUS_CAL = 0 ∧ t.dev.rd Reg.TIM_STATUS_PLLEV = 1))

end Sys2Proof.Claims

/-- R400, R401, R403, R405 to R407, R409 to R416, R420, R468, R494: the measurement units. -/
def Obligations.MeasurementUnitsTimeEdgesAndGates : Prop := IntervalsAreMeasured ∧ GatesAreMeasured ∧ TimebaseIsCalibrated

/-! ### Hearth redundancy -/

namespace Sys2Proof.Claims

/-- The other hearth takes ember copies (R424). -/
def TakesCopies (x : HrtH) : Prop := x.st = .standby ∨ x.st = .syncing

/-- R77, R427, R428: when the active hearth completes a tick, once in its close window, its working ember buffer is the snapshot that begins to be copied, unless a
trigger is detected or the other hearth takes no copies; after the time of the transfer a complete copy becomes the last complete copy, and an incomplete one is
counted and leaves the last complete copy untouched. -/
def EmberCopiesPreserveTheState : Prop :=
  (∀ (s : State) (h : Hearth) (ns : Nat), let i := hIx h
    let x := s.dev.hh i
    let due := (x.st = .active ∨ x.st = .run) ∧ s.dev.sch.win = .close ∧ (s.dev.sh i).completed = false
    let o := s.dev.hh (1 - i)
    let base := (256 + x.work * s.dev.embPages) * 1024
    (¬ due → ∃ t, Runs (.tickCompletion h ns) s t ∧ Keeps [] s t (s.dev.at ns)) ∧
    (due → ∃ t, Runs (.tickCompletion h ns) s t ∧ (t.dev.sh i).completed = true ∧
      t.dev.sh (1 - i) = s.dev.sh (1 - i) ∧ t.dev.live = s.dev.live ∧
      t.dev.hrt = { s.dev.hrt with copy := t.dev.hrt.copy } ∧
      (x.st = .active → x.trig = none → (s.dev.sh i).skip = false → TakesCopies o →
        Sparse.wf (fun _ => (0 : Word)) (s.dev.hm i).gw = true → (∀ e ∈ s.dev.mem.lines, ∀ y, s.dev.line e.1 = some y → y.prot = false ∨ y.written = []) →
        ∃ c, t.dev.hrt.copy = some c ∧ c.seq = s.dev.tick ∧ c.dest = 1 - i ∧ c.ue = false ∧ c.began = (s.dev.at ns).timeNs ∧
          ∀ k, Sparse.get 0 c.words k = if k < s.dev.embPages * 1024 then Sparse.get 0 (s.dev.hm i).gw (base + k) else 0) ∧
      (x.st = .run ∨ x.trig ≠ none ∨ (s.dev.sh i).skip = true ∨ ¬ TakesCopies o → t.dev.hrt.copy = s.dev.hrt.copy))) ∧
  (∀ (s : State) (ok : Bool) (ns : Nat), let now := (s.dev.at ns).timeNs
    (s.dev.hrt.copy = none → ∃ t, Runs (.emberCopyDone ok ns) s t ∧ Keeps [] s t (s.dev.at ns)) ∧
    (∀ c, s.dev.hrt.copy = some c → now < c.began + s.dev.embPages * 128 + 100 →
      ∃ t, Runs (.emberCopyDone ok ns) s t ∧ Keeps [] s t (s.dev.at ns)) ∧
    ∀ c, s.dev.hrt.copy = some c → c.dest < 2 → c.began + s.dev.embPages * 128 + 100 ≤ now →
      let x := s.dev.hh c.dest
      let pages := s.dev.embPages
      let old := if c.seq % 2 = 0 then x.buf0 else x.buf1
      let held := if c.seq % 2 = 0 then x.buf1 else x.buf0
      let good := ok = true ∧ ∀ q, x.last = some q → q < c.seq
      let base := (256 + c.seq % 2 * pages) * 1024
      ∃ t, Runs (.emberCopyDone ok ns) s t ∧ t.dev.hrt.copy = none ∧ t.dev.rd Reg.HRT_ETIME_NS = (pages * 128 + 100) % 2 ^ 16 ∧
        t.dev.hh (1 - c.dest) = s.dev.hh (1 - c.dest) ∧ t.dev.hm (1 - c.dest) = s.dev.hm (1 - c.dest) ∧
        Keeps [Reg.HRT_ETIME_NS.addr, Reg.HRT_ECRCERR_COUNT.addr, Reg.HRT_ESEQ_SEQ.addr, Reg.HRT_ECOPIES_COUNT.addr,
          Reg.HRT_STATUS_EMBEV.addr, Reg.PGU_PFLATEA_COUNT.addr, Reg.PGU_PFLATEB_COUNT.addr, Reg.PGU_STATUS_CNT_HALF.addr] s t
          { s.dev.at ns with mem := t.dev.mem, hrt := t.dev.hrt } ∧
        (¬ good ∨ c.ue = true ∨ s.dev.tick ≤ c.seq → ∀ f ∈ [Reg.PGU_PFLATEA_COUNT, Reg.PGU_PFLATEB_COUNT, Reg.PGU_STATUS_CNT_HALF],
          t.dev.word f.addr = s.dev.word f.addr) ∧
        (¬ good → t.dev.rd Reg.HRT_ECRCERR_COUNT = (s.dev.rd Reg.HRT_ECRCERR_COUNT + 1) % 2 ^ 32 ∧ t.dev.rd Reg.HRT_STATUS_EMBEV = 1 ∧
          t.dev.mem = s.dev.mem ∧ (old ≠ x.last → (t.dev.hh c.dest).last = x.last) ∧
          (Room s → EntersAll s t [(7, 5, c.seq % 2 ^ 32 * 2 ^ 32)])) ∧
        (good → c.ue = true → t.dev.mem = s.dev.mem ∧ (old ≠ x.last → (t.dev.hh c.dest).last = x.last)) ∧
        (¬ good ∨ c.ue = true → old = x.last → x.kept = false → (t.dev.hh c.dest).last = held) ∧
        (¬ good ∨ c.ue = true → old = x.last → x.kept = true → t.dev.hh c.dest = x) ∧
        (good → c.ue = false → t.dev.rd Reg.HRT_ESEQ_SEQ = c.seq % 2 ^ 32 ∧
          t.dev.rd Reg.HRT_ECOPIES_COUNT = (s.dev.rd Reg.HRT_ECOPIES_COUNT + 1) % 2 ^ 32 ∧ (t.dev.hh c.dest).last = some c.seq ∧
          (if c.seq % 2 = 0 then (t.dev.hh c.dest).buf0 else (t.dev.hh c.dest).buf1) = some c.seq ∧
          (TakesCopies x → (t.dev.hh c.dest).st = if x.recopy = false ∧ s.dev.tick ≤ c.seq + 2 then .standby else .syncing) ∧
          (Sparse.wf (fun _ => (0 : Word)) (s.dev.hm c.dest).gw = true → Sparse.wf (fun _ => (0 : Word)) c.words = true →
            ∀ a, Sparse.get 0 (t.dev.hm c.dest).gw a =
              if base ≤ a ∧ a < base + pages * 1024 then Sparse.get 0 c.words (a - base) else Sparse.get 0 (s.dev.hm c.dest).gw a)))

/-- The result of a command of HRT. -/
def HrtResult (t : State) (code : Nat) : Prop := t.dev.rd Reg.HRT_CMDRES_REASON = code ∧ t.dev.rd Reg.HRT_CMDRES_VALID = 1

/-- R439, R442: SWAP is refused without a standby, with a suspect one, and while an alarm is active or the standing program runs, and is pending
otherwise; the device's own request is made HRS hours after the last swap, and only where it would not be refused. -/
def ProofSwapsAreRequested : Prop :=
  ∀ (s : State) (h : Agent), let o := s.dev.hh (1 - s.dev.hrt.active)
    let fails := [(s.dev.rd Reg.HRT_CFG_MODE = 1 ∨ o.st ≠ .standby, 0x11), (o.suspect = true, 0x12),
      (s.dev.alarmActive = true ∨ s.dev.rd Reg.SCH_STATUS_HELD = 1, 0x13)]
    let asked := { s.dev with hrt := { s.dev.hrt with swapPend := true } }
    let res := [Reg.HRT_CMDRES_REASON, Reg.HRT_CMDRES_VALID]
    (Ready s h Reg.HRT_CMD_SWAP false →
      (∀ (p q : List (Prop × Nat)) (c : Prop) (code : Nat), fails = p ++ (c, code) :: q → c → (∀ e ∈ p, ¬ e.1) →
        ∃ t, Runs (.swap h) s t ∧ HrtResult t code ∧ OnlyFields res s t ∧ t.dev = Around s.dev t.dev) ∧
      ((∀ e ∈ fails, ¬ e.1) → ∃ t, Runs (.swap h) s t ∧ HrtResult t 0 ∧ OnlyFields res s t ∧ t.dev = Around asked t.dev)) ∧
    let due := s.dev.rd Reg.HRT_PROOF_HRS ≠ 0 ∧ s.dev.hrt.lastSwap + s.dev.rd Reg.HRT_PROOF_HRS * 28800000 ≤ s.dev.tick ∧
      s.dev.hrt.swapPend = false
    (¬ due ∨ (∃ e ∈ fails, e.1) → ∃ t, Runs .proofSwapRequest s t ∧ Keeps [] s t s.dev) ∧
    (due → (∀ e ∈ fails, ¬ e.1) →
      ∃ t, Runs .proofSwapRequest s t ∧ HrtResult t 0 ∧ OnlyFields res s t ∧ t.dev = Around asked t.dev)

/-- R438, R441, R538: RESTORE answers NOTFAILED, NOSOURCE or NOTREADY in this order, and otherwise copies the coefficient banks and makes the
hearth SYNCING, or asks for RUN at the next boundary in split mode; CLRSUSPECT clears both flags; a bank recopy gives a standby its
banks again. -/
def HearthsAreRestored : Prop :=
  (∀ (s : State) (h : Agent) (ra rb : Bool), Ready s h Reg.HRT_CMD_RESTORE false →
    let failed := fun (i : Nat) => (s.dev.hh i).st = .failed
    let rail := fun (i : Nat) => if i = 0 then ra else rb
    let ready := fun (i : Nat) => rail i = true ∧ (s.dev.ch i).failed = false ∧ s.dev.mem.resync = none
    let split := s.dev.rd Reg.HRT_CFG_MODE = 1
    let ends := fun (code : Nat) => ∃ t, Runs (.restore h ra rb) s t ∧ HrtResult t code ∧ t.dev = Around s.dev t.dev ∧
      OnlyFields [Reg.HRT_CMDRES_REASON, Reg.HRT_CMDRES_VALID] s t
    (¬ failed 0 → ¬ failed 1 → ends 0x14) ∧
    (¬ split → failed 0 → failed 1 → ends 0x16) ∧
    (split → failed 0 → failed 1 → ∃ t, Runs (.restore h ra rb) s t ∧ HrtResult t (if ready 0 ∧ ready 1 then 0 else 0x15) ∧
      (ready 0 → t.dev.hrt.restoreA = true) ∧ (ready 1 → t.dev.hrt.restoreB = true) ∧
      ∀ i, i < 2 → t.dev.hh i = if ready i then { s.dev.hh i with down := none, trig := none } else s.dev.hh i) ∧
    (∀ i, i < 2 → failed i → ¬ failed (1 - i) → ¬ ready i → ends 0x15) ∧
    (∀ i, i < 2 → failed i → ¬ failed (1 - i) → ready i →
      ∃ t, Runs (.restore h ra rb) s t ∧ HrtResult t 0 ∧ t.dev.hh (1 - i) = s.dev.hh (1 - i) ∧ (t.dev.hh i).trig = none ∧
        (t.dev.hh i).down = none ∧
        (split → (t.dev.hh i).st = .failed ∧ (if i = 0 then t.dev.hrt.restoreA else t.dev.hrt.restoreB) = true ∧ t.dev.mem = s.dev.mem) ∧
        (¬ split → (t.dev.hh i).st = .syncing ∧ (t.dev.hh i).last = none ∧ t.dev.rd Reg.HRT_STATUS_HSTEV = 1))) ∧
  (∀ (s : State) (h : Agent), Ready s h Reg.HRT_CMD_CLRSUSPECT false →
    ∃ t, Runs (.clrSuspect h) s t ∧ HrtResult t 0 ∧
      (∀ i, i < 2 → t.dev.hh i = { s.dev.hh i with suspect := false }) ∧
      (∀ i, i < 2 → (s.dev.hh i).suspect = true → t.dev.rd Reg.HRT_STATUS_HSTEV = 1) ∧
      OnlyFields [Reg.HRT_CMDRES_REASON, Reg.HRT_CMDRES_VALID, Reg.HRT_STATUS_HSTEV] s t ∧
      t.dev = Around { s.dev with hrt := { s.dev.hrt with a := t.dev.hrt.a, b := t.dev.hrt.b } } t.dev ∧
      (Room s → EntersAll s t ([0, 1].flatMap fun i =>
        if (s.dev.hh i).suspect then [(7, 2, i + (s.dev.hh i).st.code * 2)] else []))) ∧
  (∀ (s : State) (h : Hearth), let i := hIx h
    let x := s.dev.hh i
    let bank := fun (a : Nat) => (s.dev.bankPage * 1024 ≤ a ∧ a < (s.dev.bankPage + s.dev.banks) * 1024) ∨
      (1984 * 1024 ≤ a ∧ a < (1984 + s.dev.alm.plan.sb) * 1024)
    (x.recopy = false → ∃ t, Runs (.bankRecopyDone h) s t ∧ Keeps [] s t s.dev) ∧
    (x.recopy = true → ∃ t, Runs (.bankRecopyDone h) s t ∧ (t.dev.hh i).recopy = false ∧ t.dev.hm (1 - i) = s.dev.hm (1 - i) ∧
      (TakesCopies x → (t.dev.hh i).st = if ∃ q, x.last = some q ∧ s.dev.tick ≤ q + 2 then .standby else .syncing) ∧
      Keeps [Reg.HRT_STATUS_HSTEV.addr] s t { s.dev with mem := t.dev.mem, hrt := t.dev.hrt } ∧
      (Sparse.wf (fun _ => (0 : Word)) (s.dev.hm i).gw = true → Sparse.wf (fun _ => (0 : Word)) (s.dev.hm (1 - i)).gw = true →
        ∀ a, Sparse.get 0 (t.dev.hm i).gw a = Sparse.get 0 (s.dev.hm (if bank a then 1 - i else i)).gw a)))

end Sys2Proof.Claims

/-- R77, R427, R428, R438, R439, R441, R442, R538: ember copies, proof swaps and restores. -/
def Obligations.HearthsCopySwapAndRestore : Prop := EmberCopiesPreserveTheState ∧ ProofSwapsAreRequested ∧ HearthsAreRestored

/-! ### Alarm operation and surveillance -/

namespace Sys2Proof.Claims

/-- R469, R470: ALM_FAULT shows its conditions, every bit that is 1 is latched, and a change sets FAULTEV. -/
def FaultsShown (s t : State) : Prop :=
  let f := t.dev.rd Reg.ALM_FAULT_FAULT
  let shows := fun (b : Nat) (c : Prop) => f / 2 ^ b % 2 = 1 ↔ c
  let sp := t.dev.rd Reg.ALM_SPSTAT_STATE
  let hearths := [t.dev.hrt.a, t.dev.hrt.b]
  f < 2 ^ 11 ∧
  shows 0 (∃ z, z < 128 ∧ t.dev.rd (Reg.ALM_ZSTAT_STATE z) = 3) ∧ shows 1 (∃ u, u < 7 ∧ t.dev.rd (Reg.ALM_AMP_FAULT u) = 1) ∧
  shows 2 (∃ x ∈ hearths, x.st = .failed ∨ x.suspect = true ∨ (x.st = .syncing ∧ x.syncSince + 8000 < t.dev.tick)) ∧
  shows 3 (∃ x ∈ hearths, x.down ≠ none) ∧ shows 4 (t.dev.alm.kindled = true ∧ (sp = 0 ∨ sp = 3)) ∧
  shows 5 (t.dev.rd Reg.ALM_STATUS_WD = 3) ∧
  shows 6 (t.dev.rd Reg.LOCK_STATUS_LOCK_VIOL = 1 ∧ t.dev.rd Reg.LOCK_POLICY_ESC = 1) ∧
  shows 7 (t.dev.rd Reg.CMT_STATUS_CRC_MISMATCH = 1 ∧ t.dev.rd Reg.CMT_CRC_CFG_ESC = 1) ∧
  shows 8 (∃ k, t.dev.sup.down = some k ∧ k + 8000 < t.dev.tick) ∧
  shows 9 (t.dev.mem.ch0.failed = true ∨ t.dev.mem.ch1.failed = true) ∧
  shows 10 (∃ x, x < 2 ∧ t.dev.rd (Reg.SYNX_STAT_STATE x) = 5) ∧
  t.dev.rd Reg.ALM_FAULTLAT_FAULT = s.dev.rd Reg.ALM_FAULTLAT_FAULT ||| f ∧
  (f ≠ s.dev.rd Reg.ALM_FAULT_FAULT → t.dev.rd Reg.ALM_STATUS_FAULTEV = 1)

/-- The event FAULT, where ALM_FAULT changes (R470, R471). -/
def faultEvent (s t : State) : List (Nat × Nat × Nat) :=
  let f := t.dev.rd Reg.ALM_FAULT_FAULT
  if f = s.dev.rd Reg.ALM_FAULT_FAULT then [] else [(8, 6, f)]

/-- The fields in which ALM shows its faults. -/
def faultFields : List Fld := [Reg.ALM_FAULT_FAULT, Reg.ALM_FAULTLAT_FAULT, Reg.ALM_STATUS_FAULTEV]

/-- A command of ALM has ended with `code`. -/
def AlmEnds (t : State) (code : Nat) : Prop := t.dev.rd Reg.ALM_CMDRES_REASON = code ∧ t.dev.rd Reg.ALM_CMDRES_VALID = 1

/-- R487, R488: a wake event of cause `c` starts the exit from P3 and P4, and from a state deeper than the target, unless one is under way;
without a wake event, `woken` false, only the target does. -/
def Exits (s t : State) (woken : Bool) (c : Nat) : Prop :=
  let st := s.dev.rd Reg.PWR_STATUS_STATE
  t.dev.pwr.exiting =
    if s.dev.pwr.exiting = none ∧ ((woken = true ∧ 3 ≤ st) ∨ t.dev.powerTarget < st) then some (c, t.dev.timeNs) else s.dev.pwr.exiting

/-- R446, R447, R488: a pin that has been at its active or inactive level for the debounce time changes an enabled input, which shows in ACTIVE and
posts ALARM, and an activation is latched and counted; ACK clears LATCHED only while the input is inactive; a pin at its active level
shows in PIN, and wakes the device where its input is enabled. -/
def AlarmInputsFollowTheirPins : Prop :=
  (∀ (s : State) (i : Fin 4) (active : Bool) (ns : Nat), let v := if active then 1 else 0
    let is := fun (t : State) (f : Fld) (j : Nat) => t.dev.rd f / 2 ^ j % 2
    let en := is s Reg.ALM_INCFG_EN i = 1
    let was := is s Reg.ALM_INSTAT_ACTIVE i
    let x := s.dev.alarmPin i
    let now := (s.dev.at ns).timeNs
    let held := (x.level != (is s Reg.ALM_INCFG_POL i == 1)) = active ∧ x.since + 1000000 * s.dev.rd Reg.ALM_INCFG_DEBOUNCE ≤ now
    (¬ held ∨ ¬ en ∨ was = v → ∃ t, Runs (.alarm i active ns) s t ∧ Keeps [] s t (s.dev.at ns)) ∧
    (held → en → was ≠ v → ∃ t, Runs (.alarm i active ns) s t ∧ t.dev = Around (s.dev.at ns) t.dev ∧
      OnlyFields [Reg.ALM_INSTAT_ACTIVE, Reg.ALM_INSTAT_LATCHED, Reg.ALM_STATUS_ALMEV, Reg.ALM_ALARMCNT_COUNT, Reg.ALM_STATUS_CNT_HALF] s t ∧
      (∀ j, j < 4 → is t Reg.ALM_INSTAT_ACTIVE j = if j = i.val then v else is s Reg.ALM_INSTAT_ACTIVE j) ∧
      (∀ j, j < 4 → is t Reg.ALM_INSTAT_LATCHED j =
        if j = i.val ∧ active = true ∧ is s Reg.ALM_INCFG_LATCH i = 1 then 1 else is s Reg.ALM_INSTAT_LATCHED j) ∧
      t.dev.rd Reg.ALM_STATUS_ALMEV = 1 ∧ t.dev.rd Reg.ALM_ALARMCNT_COUNT = (s.dev.rd Reg.ALM_ALARMCNT_COUNT + v) % 2 ^ 32 ∧
      (Room s → EntersAll s t [(8, 1, i + v * 2 ^ 8)])) ∧
    (x.level = active → ∃ t, Runs (.alarmInputLevel i active ns) s t ∧ Keeps [] s t (s.dev.at ns)) ∧
    (x.level ≠ active → ∃ t, Runs (.alarmInputLevel i active ns) s t ∧ OnlyFields [Reg.ALM_INSTAT_PIN] s t ∧
      t.dev = Around { s.dev.at ns with alm := { s.dev.alm with pins := t.dev.alm.pins } } t.dev ∧
      t.dev.alarmPin i = { level := active, since := now } ∧ (∀ j, j ≠ i.val → t.dev.alarmPin j = s.dev.alarmPin j) ∧
      (∀ j, j < 4 → is t Reg.ALM_INSTAT_PIN j = if (t.dev.alarmPin j).level != (is s Reg.ALM_INCFG_POL j == 1) then 1 else 0) ∧
      t.dev.pwr = { s.dev.pwr with exiting := t.dev.pwr.exiting } ∧
      (is t Reg.ALM_INSTAT_PIN i = 1 ∧ en → Exits s t true 1) ∧
      (¬ (is t Reg.ALM_INSTAT_PIN i = 1 ∧ en) → t.dev.pwr = s.dev.pwr))) ∧
  (∀ (s : State) (h : Agent) (i : Fin 4), Ready s h Reg.ALM_CMD_ACK false →
    let is := fun (t : State) (f : Fld) (j : Nat) => t.dev.rd f / 2 ^ j % 2
    let fields := [Reg.ALM_CMDRES_REASON, Reg.ALM_CMDRES_VALID]
    (is s Reg.ALM_INSTAT_ACTIVE i = 1 → ∃ t, Runs (.ack h i) s t ∧ AlmEnds t 0x17 ∧ OnlyFields fields s t ∧ t.dev = Around s.dev t.dev) ∧
    (is s Reg.ALM_INSTAT_ACTIVE i = 0 → ∃ t, Runs (.ack h i) s t ∧ AlmEnds t 0 ∧
      OnlyFields (Reg.ALM_INSTAT_LATCHED :: fields) s t ∧ t.dev = Around s.dev t.dev ∧
      ∀ j, j < 4 → is t Reg.ALM_INSTAT_LATCHED j = if j = i.val then 0 else is s Reg.ALM_INSTAT_LATCHED j))

/-- R449, R450, R452, R458, R496: a kick makes the watchdog OK in every state; TIMEOUT ms without one lead to LATE, and GRACE ms more to DEAD, from NEVER
only once kindling has ended; START and RELEASE are refused or wait for the next boundary. -/
def WatchdogAndStandingProgram : Prop :=
  (∀ (s : State) (h : Agent), Ready s h Reg.ALM_WDKICK_KICK false → let was := s.dev.rd Reg.ALM_STATUS_WD
    ∃ t, Runs (.kick h) s t ∧ t.dev.rd Reg.ALM_STATUS_WD = 1 ∧ t.dev.rd Reg.ALM_WDLAST_TICK = s.dev.tick % 2 ^ 32 ∧ FaultsShown s t ∧
      OnlyFields ([Reg.ALM_STATUS_WD, Reg.ALM_WDLAST_TICK, Reg.ALM_STATUS_WDEV] ++ faultFields) s t ∧
      t.dev = Around { s.dev with alm := { s.dev.alm with wdAt := s.dev.tick } } t.dev ∧
      (was ≠ 1 → t.dev.rd Reg.ALM_STATUS_WDEV = 1) ∧
      (Room s → EntersAll s t ((if was = 1 then [] else [(8, 2, 1)]) ++ faultEvent s t))) ∧
  (∀ s : State, let was := s.dev.rd Reg.ALM_STATUS_WD
    let since := fun (ms : Nat) => s.dev.alm.wdAt + 8 * ms ≤ s.dev.tick
    let late := (was = 1 ∨ (was = 0 ∧ s.dev.alm.kindled = true)) ∧ since (s.dev.rd Reg.ALM_WDCFG_TIMEOUT)
    let dead := was = 2 ∧ since (s.dev.rd Reg.ALM_WDCFG_TIMEOUT + s.dev.rd Reg.ALM_WDCFG_GRACE)
    (¬ late → ¬ dead → ∃ t, Runs .wdog s t ∧ Keeps [] s t s.dev) ∧
    (late → ∃ t, Runs .wdog s t ∧ t.dev.rd Reg.ALM_STATUS_WD = 2 ∧
      t.dev.rd Reg.ALM_STATUS_WDEV = 1 ∧ t.dev.rd Reg.ALM_WDLATECNT_COUNT = (s.dev.rd Reg.ALM_WDLATECNT_COUNT + 1) % 2 ^ 32 ∧ FaultsShown s t ∧
      OnlyFields ([Reg.ALM_STATUS_WD, Reg.ALM_STATUS_WDEV, Reg.ALM_WDLATECNT_COUNT, Reg.ALM_STATUS_CNT_HALF] ++ faultFields) s t ∧
      t.dev = Around s.dev t.dev ∧ (Room s → EntersAll s t ((8, 2, 2) :: faultEvent s t))) ∧
    (dead → ∃ t, Runs .wdog s t ∧ t.dev.rd Reg.ALM_STATUS_WD = 3 ∧ t.dev.rd Reg.ALM_STATUS_WDEV = 1 ∧ FaultsShown s t ∧
      Exits s t true 2 ∧ t.dev.pwr = { s.dev.pwr with exiting := t.dev.pwr.exiting } ∧
      (NoDump s 7 → t.dev = Around s.dev t.dev ∧ OnlyFields ([Reg.ALM_STATUS_WD, Reg.ALM_STATUS_WDEV] ++ faultFields) s t ∧
        (Room s → EntersAll s t ((8, 2, 3) :: faultEvent s t))) ∧
      (¬ NoDump s 7 → s.dev.rd Reg.DUMP_STATUS_BUSY = 0 → t.dev.rd Reg.DUMP_STATUS_BUSY = 1 ∧ ∃ r, t.dev.dump.buf = some r ∧ r.cause = 7))) ∧
  (∀ (s : State) (h : Agent), Ready s h Reg.ALM_CMD_START false → let fields := [Reg.ALM_CMDRES_REASON, Reg.ALM_CMDRES_VALID]
    ∃ t, Runs (.start h) s t ∧ OnlyFields fields s t ∧
      (s.dev.rd Reg.ALM_SPSTAT_STATE ≠ 1 → AlmEnds t 0x12 ∧ t.dev = Around s.dev t.dev) ∧
      (s.dev.rd Reg.ALM_SPSTAT_STATE = 1 → AlmEnds t 0 ∧ t.dev = Around { s.dev with alm := { s.dev.alm with startReq := true } } t.dev)) ∧
  (∀ (s : State) (h : Agent), Ready s h Reg.ALM_CMD_RELEASE false → let fields := [Reg.ALM_CMDRES_REASON, Reg.ALM_CMDRES_VALID]
    ∃ t, Runs (.almRelease h) s t ∧ OnlyFields fields s t ∧
      (s.dev.rd Reg.ALM_STATUS_WD ≠ 1 → AlmEnds t 0x10 ∧ t.dev = Around s.dev t.dev) ∧
      (s.dev.rd Reg.ALM_STATUS_WD = 1 → s.dev.rd Reg.ALM_SPSTAT_STATE ≠ 2 → AlmEnds t 0x13 ∧ t.dev = Around s.dev t.dev) ∧
      (s.dev.rd Reg.ALM_STATUS_WD = 1 → s.dev.rd Reg.ALM_SPSTAT_STATE = 2 →
        AlmEnds t 0 ∧ t.dev = Around { s.dev with alm := { s.dev.alm with relReq := true } } t.dev))

/-- The fields of zone `z` that a verdict changes, and the counts beside them. -/
def zoneFields (z : Nat) : List Fld :=
  [Reg.ALM_ZSTAT_STATE z, Reg.ALM_ZSTAT_KIND z, Reg.ALM_ZSTAT_RUN z, Reg.ALM_ZSTAT_GAIN z, Reg.ALM_STATUS_SURVEV, Reg.ALM_LINEFAULTCNT_COUNT,
    Reg.ALM_STATUS_CNT_HALF]

/-- R465: zone `z`, beside its registers in state `x`, has taken verdict `k`, 0 for PASS, with its GAIN `g`. -/
def VerdictTaken (s t : State) (x : Zone) (z k g : Nat) : Prop :=
  let st := s.dev.rd (Reg.ALM_ZSTAT_STATE z)
  let was := s.dev.rd (Reg.ALM_ZSTAT_RUN z)
  let run := if 0 < was ∧ (x.pass = true ↔ k = 0) then min 15 (was + 1) else 1
  let fails := k ≠ 0 ∧ s.dev.rd Reg.ALM_SCFG_FAILN ≤ run
  let clears := k = 0 ∧ st = 3 ∧ s.dev.rd Reg.ALM_SCFG_CLEARN ≤ run
  t.dev.rd (Reg.ALM_ZSTAT_RUN z) = run ∧ t.dev.rd (Reg.ALM_ZSTAT_GAIN z) = g ∧ t.dev.zone z = (if k = 0 then { x with pass := true, heard := s.dev.tick, passAt := s.dev.tick } else { x with pass := false }) ∧
  t.dev.rd (Reg.ALM_ZSTAT_STATE z) = (if fails then 3 else if clears ∨ st = 1 then 2 else st) ∧
  t.dev.rd (Reg.ALM_ZSTAT_KIND z) = (if fails then k else if clears then 0 else s.dev.rd (Reg.ALM_ZSTAT_KIND z)) ∧
  t.dev.rd Reg.ALM_LINEFAULTCNT_COUNT =
    (if fails ∧ st ≠ 3 then (s.dev.rd Reg.ALM_LINEFAULTCNT_COUNT + 1) % 2 ^ 32 else s.dev.rd Reg.ALM_LINEFAULTCNT_COUNT) ∧
  (Room s → EntersAll s t (if fails ∧ st ≠ 3 then [(8, 4, z + 2 ^ 8 + k * 2 ^ 9 + g * 2 ^ 16)] else
    if clears then [(8, 4, z + g * 2 ^ 16)] else []))

/-- R463 to R465: a permitted pilot turns on after PILOT_AFTER s without a report or a PASS, and its first window of 8,000 ticks is discarded; every
further window gives a verdict by its GAIN, which the model computes from the window's correlation with the pilot (log entry 168); runs
of like verdicts set and clear FAULT; a zone without a PASS for VERIFY_MAX s is UNVERIFIED. -/
def ZonesFollowTheirVerdicts : Prop :=
  ∀ (s : State) (z : Fin 128), let x := s.dev.zone z
    let others := fun (t : State) => ∀ y, y ≠ z.val → t.dev.zone y = s.dev.zone y
    let on := s.dev.rd (Reg.ALM_ZSTAT_PILOT z) = 1
    let en := s.dev.rd (Reg.ALM_ZCFG_EN z) = 1
    let now := fun (t : State) => { s.dev with alm := { s.dev.alm with zones := t.dev.alm.zones } }
    let quiet := en ∧ s.dev.rd (Reg.ALM_ZCFG_PILOT_EN z) = 1 ∧ ¬ on ∧ x.heard + 8000 * s.dev.rd Reg.ALM_SCFG_PILOT_AFTER ≤ s.dev.tick
    let ends := en ∧ on ∧ x.winAt + 8000 ≤ s.dev.tick
    let unproved := en ∧ x.passAt + 8000 * s.dev.rd Reg.ALM_SCFG_VERIFY_MAX ≤ s.dev.tick
    let new := { x with winAt := s.dev.tick, accS := 0, accC := 0 }
    (¬ quiet → ∃ t, Runs (.pilotOn z) s t ∧ Keeps [] s t s.dev) ∧
    (quiet → ∃ t, Runs (.pilotOn z) s t ∧ t.dev.rd (Reg.ALM_ZSTAT_PILOT z) = 1 ∧
      t.dev.zone z = { new with discard := true, ramp := false } ∧
      others t ∧ OnlyFields [Reg.ALM_ZSTAT_PILOT z] s t ∧ t.dev = Around (now t) t.dev) ∧
    (¬ ends → ∃ t, Runs (.pilotWindow z) s t ∧ Keeps [] s t s.dev) ∧
    (ends → x.discard = true → ∃ t, Runs (.pilotWindow z) s t ∧ t.dev.zone z = { new with discard := false } ∧ others t ∧
      Keeps [] s t (now t)) ∧
    (ends → x.discard = false → let g := s.dev.gainOf x
      ∃ t, Runs (.pilotWindow z) s t ∧
        VerdictTaken s t new z (if g < s.dev.rd (Reg.ALM_ZPLIM_PLO z) then 1 else if s.dev.rd (Reg.ALM_ZPLIM_PHI z) < g then 2 else 0) g ∧
        others t ∧ OnlyFields (zoneFields z) s t ∧ t.dev = Around (now t) t.dev) ∧
    (¬ unproved → ∃ t, Runs (.unverified z) s t ∧ Keeps [] s t s.dev) ∧
    (unproved → let st := s.dev.rd (Reg.ALM_ZSTAT_STATE z)
      ∃ t, Runs (.unverified z) s t ∧ t.dev.rd (Reg.ALM_ZSTAT_STATE z) = 3 ∧ t.dev.rd (Reg.ALM_ZSTAT_KIND z) = 4 ∧ FaultsShown s t ∧
        t.dev.rd Reg.ALM_LINEFAULTCNT_COUNT =
          (if st = 3 then s.dev.rd Reg.ALM_LINEFAULTCNT_COUNT else (s.dev.rd Reg.ALM_LINEFAULTCNT_COUNT + 1) % 2 ^ 32) ∧
        OnlyFields ([Reg.ALM_ZSTAT_STATE z, Reg.ALM_ZSTAT_KIND z, Reg.ALM_STATUS_SURVEV, Reg.ALM_LINEFAULTCNT_COUNT, Reg.ALM_STATUS_CNT_HALF] ++
          faultFields) s t ∧ t.dev = Around s.dev t.dev ∧
        (Room s → EntersAll s t ((if st = 3 then [] else
          [(8, 4, z + 2 ^ 8 + 4 * 2 ^ 9 + s.dev.rd (Reg.ALM_ZSTAT_GAIN z) * 2 ^ 16)]) ++ faultEvent s t)))

end Sys2Proof.Claims

/-- R446, R447, R449, R450, R452, R458, R463 to R465, R469, R470: alarm inputs, the watchdog, the standing program and the zones. -/
def Obligations.AlarmsWatchdogAndZones : Prop := AlarmInputsFollowTheirPins ∧ WatchdogAndStandingProgram ∧ ZonesFollowTheirVerdicts

/-! ### Start-up, fuses and the ash dump -/

namespace Sys2Proof.Claims

/-- R476, R478: a firmware image with signature block `b` is authentic, and not older than the blown version fuses. -/
def FirmwareAuthentic (s : State) (b : SigBlock) : Prop :=
  b.formed = true ∧ b.secver ≤ 32 ∧ b.verifies = true ∧ b.slot = 0 ∧ b.hash = Config.slot0Hash ∧ s.nv.version ≤ b.secver

/-- R479, R482: kindling has ended `ms` after release, and what failed first stays in REASON. -/
def KindlingEnded (t : State) (ms step : Nat) : Prop :=
  t.dev.rd Reg.PWR_KSTAT_STEP = step ∧ t.dev.rd Reg.PWR_KSTAT_DONE = 1 ∧ t.dev.rd Reg.PWR_KTIME_MS = ms % 2 ^ 16 ∧
  t.dev.rd Reg.PWR_STATUS_KEV = 1 ∧ t.dev.alm.kindled = true

/-- R480, R482: with firmware images found as `f` says, `c` goes on from step 3, with FALLBACK set already where `fell`: it stops with
NOFW where no authentic image is left to start, waits for liveness, or runs to the end of step 11. -/
def FirmwareStarts (c : Instr) (s : State) (f : BootFind) (prefer : Bool) (first : Nat) : Prop :=
  let fw := fun (i : Nat) => if i = 0 then f.fwA else f.fwB
  let live := fun (i : Nat) => if i = 0 then f.liveA else f.liveB
  let p := f.prefer.val
  let starts := fun (i : Nat) => (live i = true → ∃ t, exec c s = .next t ∧ t.pending = s.pending ∧ KindlingEnded t f.ms 11 ∧
      t.dev.rd Reg.ALM_SPSTAT_STATE ≠ 0) ∧
    (live i = false → ∃ t, Runs c s t ∧ t.dev.boot.waiting = some f ∧ t.dev.rd Reg.PWR_KSTAT_IMAGE = i ∧
      t.dev.rd Reg.PWR_KSTAT_STEP = 3 ∧ t.dev.rd Reg.PWR_KSTAT_DONE = s.dev.rd Reg.PWR_KSTAT_DONE ∧
      (i ≠ p → t.dev.rd Reg.PWR_KSTAT_FALLBACK = 1) ∧ t.dev.rd Reg.ALM_SPSTAT_STATE = s.dev.rd Reg.ALM_SPSTAT_STATE)
  (prefer = true → FirmwareAuthentic s (fw p) → starts p) ∧
  (prefer = false ∨ ¬ FirmwareAuthentic s (fw p) → FirmwareAuthentic s (fw (1 - p)) → starts (1 - p)) ∧
  (prefer = false ∨ ¬ FirmwareAuthentic s (fw p) → ¬ FirmwareAuthentic s (fw (1 - p)) →
    ∃ t, Runs c s t ∧ KindlingEnded t f.ms 3 ∧ FaultsShown s t ∧
      t.dev.rd Reg.PWR_KSTAT_REASON = (if s.dev.rd Reg.PWR_KSTAT_REASON = 0 then first else s.dev.rd Reg.PWR_KSTAT_REASON) ∧
      t.dev.rd Reg.ALM_SPSTAT_STATE = s.dev.rd Reg.ALM_SPSTAT_STATE)

/-- Steps 2 to 4 as `f` finds the flash and the partition table (R475, R476, R482). -/
def FlashIsRead (c : Instr) (s : State) (f : BootFind) : Prop :=
  let stops := fun (step code : Nat) => ∃ t, Runs c s t ∧ KindlingEnded t f.ms step ∧ FaultsShown s t ∧
    t.dev.rd Reg.PWR_KSTAT_REASON = (if s.dev.rd Reg.PWR_KSTAT_REASON = 0 then code else s.dev.rd Reg.PWR_KSTAT_REASON) ∧
    t.dev.rd Reg.ALM_SPSTAT_STATE = s.dev.rd Reg.ALM_SPSTAT_STATE ∧ t.dev.boot.noFlash = decide (code = 0x88)
  (f.flash = false → stops 1 0x88) ∧ (f.flash = true → f.table = false → stops 2 0x10) ∧
  (f.flash = true → f.table = true → FirmwareStarts c s f true 0x11)

/-- R474, R478 to R482: PORST_N leaves every register at its reset value but the level of HOST_SEL and the blown fuses, which survive with
the flash; kindling runs once, stops by name where the flash, the table or the firmware fails, and otherwise ends after step 11; a
started image without liveness gives way to the other; the flash is looked for again only while none answered. -/
def KindlingFollowsItsSteps : Prop :=
  (∀ (s : State) (sel : Bool), let v := if sel then 1 else 0
    ∃ t, Runs (.porst sel) s t ∧ t.dev = Around {} t.dev ∧ t.dev.evq = {} ∧ t.dev.pwr = {} ∧
      (∀ a, a ∉ [Reg.HIF_OWN_OWNER.addr, Reg.HIF_STATUS_OWNER.addr, Reg.PWR_SECMIN_VER.addr] → t.dev.word a = resetWord a) ∧
      (∀ a, t.dev.shadowWord a = resetWord a &&& rwsMask a) ∧ t.dev.rd Reg.HIF_OWN_OWNER = v ∧ t.dev.rd Reg.HIF_STATUS_OWNER = v ∧
      t.dev.rd Reg.HIF_STATUS_HOST_SEL = v ∧ t.dev.rd Reg.PWR_SECMIN_VER = s.nv.version % 2 ^ 6) ∧
  (∀ (s : State) (f : BootFind),
    (s.dev.boot.ran = true → ∃ t, Runs (.kindling f) s t ∧ Keeps [] s t s.dev) ∧
    (s.dev.boot.ran = false → FlashIsRead (.kindling f) s f) ∧
    (s.dev.boot.noFlash = false ∨ f.flash = false → ∃ t, Runs (.flashRetry f) s t ∧ Keeps [] s t s.dev) ∧
    (s.dev.boot.noFlash = true → f.flash = true → FlashIsRead (.flashRetry f) s f)) ∧
  (∀ s : State, (s.dev.boot.waiting = none → ∃ t, Runs .liveness s t ∧ Keeps [] s t s.dev) ∧
    ∀ f, s.dev.boot.waiting = some f → s.dev.rd Reg.PWR_KSTAT_STEP = 3 →
      (s.dev.rd Reg.PWR_KSTAT_FALLBACK = 0 → FirmwareStarts .liveness s f false 0x15) ∧
      (s.dev.rd Reg.PWR_KSTAT_FALLBACK = 1 → ∃ t, Runs .liveness s t ∧ KindlingEnded t f.ms 3 ∧ FaultsShown s t ∧ t.dev.boot.waiting = none ∧
        t.dev.rd Reg.PWR_KSTAT_REASON = (if s.dev.rd Reg.PWR_KSTAT_REASON = 0 then 0x15 else s.dev.rd Reg.PWR_KSTAT_REASON)))

/-- The single bit `b` of the slow-domain word `w` is the oldest write that waits in the slow-domain queue, before `r` (R66). -/
def SlowHead (s : State) (w b : Nat) (r : List SlowOp) : Prop := ∃ h, s.dev.fab.slowQ = .write h w (1 <<< b) (1 <<< b) :: r

/-- What every landing leaves (R65, R66, R487): the queue is `r`, the copy shows the words as they are, PWR has chosen its target, and a
shallower one starts the exit. -/
def EdgeCame (s t : State) (r : List SlowOp) : Prop :=
  t.dev.fab.slowQ = r ∧ t.dev.fab.copyAt = s.dev.timeNs ∧ (∀ a, slowWord a = true → t.dev.copyWord a = t.dev.word a) ∧
  t.dev.rd Reg.PWR_STATUS_TARGET = t.dev.powerTarget

/-- R29, R66: SAFE, RESUME, WAKE, COMMITVER and CLRHIST are bits of slow-domain words, so that a write of each waits in the queue, behind at
most 15 others, the oldest landing first where 16 wait. -/
def SlowCommandsWaitInTheQueue : Prop :=
  ∀ (s : State) (h : Agent), ∀ e ∈ [(Instr.safe h, 0x600C, 0), (Instr.hotResume h, 0x600C, 1), (Instr.wake h, 0x4010, 0),
      (Instr.commitver h, 0x4010, 1), (Instr.clrhist h, 0x5010, 0)], let w := e.2.1
    let one : Word := 1 <<< e.2.2
    MayWrite s h w one →
    (h = .spi ∨ s.dev.slowWrites < 16 → ∃ t, Runs e.1 s t ∧ t.dev.live = s.dev.live ∧
      t.dev = { Around s.dev t.dev with fab := { s.dev.fab with slowQ := s.dev.fab.slowQ ++ [.write h w one one] } }) ∧
    ∀ (g : Agent) (v : Nat) (m old : Word) (r : List SlowOp), h ≠ .spi → s.dev.slowWrites = 16 → s.dev.fab.slowQ = .write g v m old :: r →
      slowWord v = true → (∀ x ∈ rowsAt v, x.ty ≠ .cmd) → ∃ t, Runs e.1 s t ∧ LandedSlow v old m (r ++ [.write h w one one]) s t

/-- R478, R493: COMMITVER blows the version fuses up to the SECVER of the running image, for good, when its write lands; the supervisor
writes the ageing record to its sector, where there is one, no sooner than a day after it last did. -/
def FusesAndRecordsAreWritten : Prop :=
  (∀ (s : State) (r : List SlowOp), SlowHead s 0x4010 1 r → let v := max s.nv.version (s.dev.rd Reg.PWR_SECVER_VER)
    let u := AfterEdge s
    ∃ t, exec .slowWriteLand s = .next t ∧ t.pending = s.pending ∧ t.nv = { s.nv with version := v } ∧ EdgeCame s t r ∧ Exits s t false 8 ∧
      t.dev.rd Reg.PWR_SECMIN_VER = v % 2 ^ 6 ∧ OnlyFields [Reg.PWR_SECMIN_VER] (u t r) t ∧ t.dev = Around (u t r).dev t.dev) ∧
  (∀ s : State, let writes := s.dev.boot.dumpSectors ≠ 0 ∧ s.dev.supRuns = true ∧ s.dev.age.recAt + 691200000 ≤ s.dev.tick
    (¬ writes → ∃ t, Runs .ageingRecordWrite s t ∧ Keeps [] s t s.dev) ∧
    (writes → ∃ t, exec .ageingRecordWrite s = .next t ∧ t.pending = s.pending ∧ t.nv = { s.nv with age := some s.dev.age.hist } ∧
      Keeps [] s t { s.dev with age := { s.dev.age with recAt := s.dev.tick } }))

/-- R496 to R500: a trigger is captured, or counted as lost while the buffer holds a capture; a save takes the sector after the newest record
and frees the buffer; FETCH gives back a saved record; the buffer is read word by word. -/
def AshDumpsAreCapturedSavedAndRead : Prop :=
  (∀ (s : State) (h : Agent), Ready s h Reg.DUMP_CMD_TRIGGER false →
    let counts := fun (t : State) (f : Fld) => t.dev.rd f = (s.dev.rd f + 1) % 2 ^ 32
    (NoDump s 0 → ∃ t, Runs (.dumpTrigger h) s t ∧ Keeps [] s t s.dev) ∧
    (¬ NoDump s 0 → s.dev.rd Reg.DUMP_STATUS_BUSY = 1 → ∃ t, Runs (.dumpTrigger h) s t ∧ counts t Reg.DUMP_LOSTCNT_COUNT ∧
      t.dev.rd Reg.DUMP_STATUS_OVER = 1 ∧ t.dev = Around s.dev t.dev ∧
      OnlyFields [Reg.DUMP_LOSTCNT_COUNT, Reg.DUMP_STATUS_OVER, Reg.DUMP_STATUS_CNT_HALF] s t ∧ (Room s → EntersAll s t [(4, 1, 2 ^ 8)])) ∧
    (¬ NoDump s 0 → s.dev.rd Reg.DUMP_STATUS_BUSY = 0 → ∃ t, Runs (.dumpTrigger h) s t ∧ counts t Reg.DUMP_CNT_COUNT ∧
      t.dev.rd Reg.DUMP_STATUS_BUSY = 1 ∧ t.dev.rd Reg.DUMP_STATUS_CAPEV = 1 ∧
      OnlyFields [Reg.DUMP_CNT_COUNT, Reg.DUMP_STATUS_BUSY, Reg.DUMP_STATUS_CAPEV, Reg.DUMP_STATUS_CNT_HALF] s t ∧
      (∃ r, t.dev.dump.buf = some r ∧ r.cause = 0 ∧ r.words.getD 0 0 = 0x51454153 ∧ r.words.getD 1 0 = 0x00400001 ∧ r.words.getD 3 0 = 0 ∧
        r.words.getD 4 0 = BitVec.ofNat 32 s.dev.tick ∧ r.words.getD 6 0 = BitVec.ofNat 32 s.dev.nanos) ∧
      t.dev = Around { s.dev with dump := { s.dev.dump with buf := t.dev.dump.buf }, free := t.dev.free } t.dev ∧
      (Room s → EntersAll s t [(4, 1, 0)]))) ∧
  (∀ (s : State) (h : Agent), Ready s h Reg.DUMP_CMD_RELEASE false →
    ∃ t, Runs (.dumpRelease h) s t ∧ t.dev.rd Reg.DUMP_STATUS_BUSY = 0 ∧ OnlyFields [Reg.DUMP_STATUS_BUSY] s t ∧ t.dev = Around s.dev t.dev) ∧
  (∀ (s : State) (ok : Bool), let cap := s.dev.rd Reg.DUMP_NREC_CAP
    let owed := s.dev.supRuns = true ∧ s.dev.rd Reg.DUMP_STATUS_BUSY = 1 ∧ s.dev.rd Reg.DUMP_CFG_AUTOSAVE = 1 ∧ 0 < cap
    (s.dev.dump.buf = none ∨ ¬ owed → exec (.saved ok) s = .next s) ∧
    ∀ r sector seq, s.dev.dump.buf = some r → owed → Sparse.rising 0 s.nv.dump = true →
      ((s.nv.dump = [] ∧ sector = 1 ∧ seq = 0) ∨
        ∃ e ∈ s.nv.dump, (∀ x ∈ s.nv.dump, x ≠ e → x.2.seq < e.2.seq) ∧ sector = e.1 % cap + 1 ∧ seq = e.2.seq + 1) →
      ∃ t, exec (.saved ok) s = .next t ∧ t.pending = s.pending ∧
        t.nv = { s.nv with dump := t.nv.dump, age := some s.dev.age.hist } ∧
        (∀ x, (sector, x) ∈ t.nv.dump ↔ ok = true ∧ x = { r with seq := seq }) ∧
        (∀ k x, k ≠ sector → ((k, x) ∈ t.nv.dump ↔ (k, x) ∈ s.nv.dump)) ∧
        t.dev.rd Reg.DUMP_STATUS_BUSY = 0 ∧ t.dev.rd Reg.DUMP_STATUS_SAVEEV = 1 ∧ t.dev.rd Reg.DUMP_NREC_COUNT = t.nv.dump.length % 2 ^ 16 ∧
        (ok = true → t.dev.rd Reg.DUMP_LAST_SEQ = seq % 2 ^ 32) ∧ t.dev = Around s.dev t.dev ∧
        OnlyFields [Reg.DUMP_STATUS_BUSY, Reg.DUMP_STATUS_SAVEEV, Reg.DUMP_NREC_COUNT, Reg.DUMP_LAST_SEQ] s t ∧
        (Room s → EntersAll s t [(4, 2, (if ok then 0 else 2 ^ 8) + seq % 2 ^ 32 * 2 ^ 32)])) ∧
  (∀ (s : State) (h : Agent), Ready s h Reg.DUMP_CMD_FETCH false →
    let n := s.dev.rd Reg.DUMP_FETCH_REC
    let ends := fun (code : Nat) => ∃ t, Runs (.fetch h) s t ∧ t.dev.rd Reg.DUMP_STATUS_REASON = code ∧ OnlyFields [Reg.DUMP_STATUS_REASON] s t ∧
      t.dev = Around s.dev t.dev
    (s.dev.rd Reg.DUMP_STATUS_BUSY = 1 → ends 0x10) ∧
    (s.dev.rd Reg.DUMP_STATUS_BUSY = 0 → s.nv.dump.length ≤ n → ends 0x11) ∧
    (∀ e ∈ s.nv.dump, s.dev.rd Reg.DUMP_STATUS_BUSY = 0 → (s.nv.dump.map fun x => x.2.seq).Nodup →
      (s.nv.dump.filter fun x => decide (e.2.seq < x.2.seq)).length = n →
      ∃ t, Runs (.fetch h) s t ∧ t.dev.rd Reg.DUMP_STATUS_REASON = 0 ∧ OnlyFields [Reg.DUMP_STATUS_REASON] s t ∧
        t.dev = Around { s.dev with dump := { s.dev.dump with buf := some e.2 } } t.dev)) ∧
  (∀ (s : State) (h : Agent), let a := s.dev.rd Reg.DUMP_RDADDR_ADDR
    ∃ t, Runs (.rddataRead h) s t ∧ t.dev.rd Reg.DUMP_RDADDR_ADDR = (a + 1) % 2 ^ 14 ∧ OnlyFields [Reg.DUMP_RDADDR_ADDR] s t ∧
      (∀ r, s.dev.dump.buf = some r → t.dev.fab.rdata = [r.words.getD a 0]) ∧
      (∀ x, s.dev.fab.scan = some x → t.dev.fab.scan = some { x with dirty := true }) ∧ (s.dev.fab.scan = none → t.dev.fab.scan = none) ∧
      t.dev = Around { s.dev with fab := { s.dev.fab with rdata := t.dev.fab.rdata, scan := t.dev.fab.scan } } t.dev)

end Sys2Proof.Claims

/-- R474, R478 to R480, R482, R493, R496 to R500: start-up, the version fuses and the ash dump. -/
def Obligations.KindlingFusesAndAshDumps : Prop :=
  KindlingFollowsItsSteps ∧ SlowCommandsWaitInTheQueue ∧ FusesAndRecordsAreWritten ∧ AshDumpsAreCapturedSavedAndRead

/-! ### Hot plug, power states, margin and ageing -/

namespace Sys2Proof.Claims

/-- R485: SAFE may be entered whatever the ejector does. -/
def SafeAllowed (s : State) : Prop :=
  (s.dev.alarmActive = false ∧ s.dev.rd Reg.ALM_SPSTAT_STATE ≠ 2) ∨ s.dev.rd Reg.HOT_CFG_SAFE_IN_ALARM = 1

/-- R485: EJECT_N, debounced over 10 ms, has been low for 10 s at `now`. -/
def EjectorHeld (s : State) (now : Nat) : Prop := s.dev.rd Reg.HOT_STATUS_EJECT = 1 ∧ s.dev.pwr.ejectAt + 9990000000 ≤ now

/-- R484, R485: an unseated card stops its ports at once, and one seated for 10 ms releases them at the next boundary; the ejector,
debounced over 10 ms, moves a seated card to EJECTING and wakes the device; SAFE, by its delay, by ten seconds of the ejector or by
command, waits for the next boundary; SAFE and RESUME act as their writes land, and are refused by name. -/
def CardsComeAndGo : Prop :=
  (∀ (s : State) (ns : Nat), let st := s.dev.rd Reg.HOT_STATUS_STATE
    let now := (s.dev.at ns).timeNs
    let comes := st = 3 ∧ s.dev.pwr.unseatedAt + 10000000 ≤ now
    (∃ t, Runs (.unseated ns) s t ∧ t.dev.rd Reg.HOT_STATUS_PRSNT = 0 ∧ t.dev.rd Reg.HOT_STATUS_STATE = 3 ∧
      (st = 3 → OnlyFields [Reg.HOT_STATUS_PRSNT] s t ∧ t.dev = Around (s.dev.at ns) t.dev ∧ t.dev.pwr = s.dev.pwr) ∧
      (st ≠ 3 → t.dev.rd Reg.HOT_STATUS_HOTEV = 1 ∧ Exits s t false 8 ∧
        t.dev.pwr = { s.dev.pwr with safe := none, resume := false, unseatedAt := now, exiting := t.dev.pwr.exiting } ∧
        (∀ n, n < 16 → t.dev.rd (Reg.TDM_PSTAT_STATE n) = 0 ∧
          t.dev.port n = if s.dev.rd (Reg.TDM_PSTAT_STATE n) = 0 then s.dev.port n else {}) ∧
        t.dev = Around { s.dev.at ns with tdm := t.dev.tdm } t.dev ∧
        OnlyFields ([Reg.HOT_STATUS_PRSNT, Reg.HOT_STATUS_STATE, Reg.HOT_STATUS_HOTEV, Reg.TDM_ARMED_PORTS, Reg.TDM_RUN_PORTS] ++
          (List.range 16).flatMap fun n => [Reg.TDM_PSTAT_STATE n, Reg.TDM_PSTAT_ONSYN n]) s t ∧
        (Room s → EntersAll s t [(3, 1, 3)]))) ∧
    (¬ comes → ∃ t, Runs (.seated ns) s t ∧ Keeps [] s t (s.dev.at ns) ∧ t.dev.pwr = s.dev.pwr) ∧
    (comes → ∃ t, Runs (.seated ns) s t ∧ t.dev.rd Reg.HOT_STATUS_PRSNT = 1 ∧ t.dev = Around (s.dev.at ns) t.dev ∧
      OnlyFields [Reg.HOT_STATUS_PRSNT, Reg.HOT_STATUS_STATE, Reg.HOT_STATUS_HOTEV] s t ∧ t.dev.rd Reg.HOT_STATUS_STATE = 0 ∧
      t.dev.rd Reg.HOT_STATUS_HOTEV = 1 ∧ t.dev.pwr = { s.dev.pwr with resume := true } ∧ (Room s → EntersAll s t [(3, 1, 0)]))) ∧
  (∀ (s : State) (low : Bool) (ns : Nat), let st := s.dev.rd Reg.HOT_STATUS_STATE
    let now := (s.dev.at ns).timeNs
    let changes := (s.dev.rd Reg.HOT_STATUS_EJECT = 1 ↔ low = false) ∧ s.dev.pwr.ejectAt + 10000000 ≤ now
    (¬ changes → ∃ t, Runs (.ejecting low ns) s t ∧ Keeps [] s t (s.dev.at ns) ∧ t.dev.pwr = s.dev.pwr) ∧
    (changes → ∃ t, Runs (.ejecting low ns) s t ∧ t.dev.rd Reg.HOT_STATUS_EJECT = (if low then 1 else 0) ∧ t.dev = Around (s.dev.at ns) t.dev ∧
      (low = false → OnlyFields [Reg.HOT_STATUS_EJECT] s t ∧ t.dev.pwr = { s.dev.pwr with ejectAt := now }) ∧
      (low = true → Exits s t true 4) ∧
      (low = true → st ≠ 0 → OnlyFields [Reg.HOT_STATUS_EJECT] s t ∧
        t.dev.pwr = { s.dev.pwr with ejectAt := now, exiting := t.dev.pwr.exiting }) ∧
      (low = true → st = 0 → t.dev.rd Reg.HOT_STATUS_STATE = 1 ∧ t.dev.rd Reg.HOT_STATUS_HOTEV = 1 ∧
        t.dev.pwr = { s.dev.pwr with ejectAt := now, ejectingAt := now, exiting := t.dev.pwr.exiting } ∧
        OnlyFields [Reg.HOT_STATUS_EJECT, Reg.HOT_STATUS_STATE, Reg.HOT_STATUS_HOTEV] s t ∧ (Room s → EntersAll s t [(3, 1, 1)])))) ∧
  (∀ (s : State) (ns : Nat), let st := s.dev.rd Reg.HOT_STATUS_STATE
    let now := (s.dev.at ns).timeNs
    let due := st = 1 ∧ s.dev.pwr.ejectingAt + 1000000 * s.dev.rd Reg.HOT_CFG_EJECT_DLY ≤ now
    let forces := st = 1 ∧ EjectorHeld s now
    (∃ t, Runs (.ejectDlyExpiry ns) s t ∧ Keeps [] s t (s.dev.at ns) ∧
      (due → t.dev.pwr = { s.dev.pwr with safe := some false }) ∧ (¬ due → t.dev.pwr = s.dev.pwr)) ∧
    (∃ t, Runs (.forcedSafe ns) s t ∧ Keeps [] s t (s.dev.at ns) ∧ t.dev.pwr = { s.dev.pwr with safe := t.dev.pwr.safe } ∧
      (forces → ∃ forced, t.dev.pwr.safe = some forced ∧ (forced = true ↔ ¬ SafeAllowed s)) ∧ (¬ forces → t.dev.pwr.safe = s.dev.pwr.safe))) ∧
  (∀ (s : State) (r : List SlowOp), SlowHead s 0x600C 0 r → let st := s.dev.rd Reg.HOT_STATUS_STATE
    let u := AfterEdge s
    ∃ t, Runs .slowWriteLand s t ∧ EdgeCame s t r ∧ Exits s t false 8 ∧
      OnlyFields [Reg.HOT_STATUS_REASON] (u t r) t ∧ t.dev = Around (u t r).dev t.dev ∧
      t.dev.pwr = { s.dev.pwr with safe := t.dev.pwr.safe, exiting := t.dev.pwr.exiting } ∧
      (¬ SafeAllowed s → ¬ EjectorHeld s s.dev.timeNs → t.dev.rd Reg.HOT_STATUS_REASON = 0x10 ∧ t.dev.pwr.safe = s.dev.pwr.safe) ∧
      (SafeAllowed s ∨ EjectorHeld s s.dev.timeNs → t.dev.rd Reg.HOT_STATUS_REASON = 0 ∧
        (st < 2 → ∃ forced, t.dev.pwr.safe = some forced ∧ (forced = true ↔ ¬ SafeAllowed s)) ∧
        (2 ≤ st → t.dev.pwr.safe = s.dev.pwr.safe))) ∧
  (∀ (s : State) (r : List SlowOp), SlowHead s 0x600C 1 r → let st := s.dev.rd Reg.HOT_STATUS_STATE
    let u := AfterEdge s
    ∃ t, Runs .slowWriteLand s t ∧ EdgeCame s t r ∧ Exits s t false 8 ∧
      OnlyFields [Reg.HOT_STATUS_REASON] (u t r) t ∧ t.dev = Around (u t r).dev t.dev ∧
      t.dev.pwr = { s.dev.pwr with resume := t.dev.pwr.resume, exiting := t.dev.pwr.exiting } ∧
      (s.dev.rd Reg.HOT_STATUS_EJECT = 1 → t.dev.rd Reg.HOT_STATUS_REASON = 0x11 ∧ t.dev.pwr.resume = s.dev.pwr.resume) ∧
      (s.dev.rd Reg.HOT_STATUS_EJECT = 0 → t.dev.rd Reg.HOT_STATUS_REASON = 0 ∧
        t.dev.pwr.resume = if st = 2 then true else s.dev.pwr.resume))

/-- R486, R487: state `k`, deeper than P0, may be entered: MAXSTATE and the latency tolerance allow it, and the alarm side, the idle host
link or the idle machine permits it. -/
def Permitted (s : State) (k : Nat) : Prop :=
  let protect := s.dev.alarmActive = true ∨ s.dev.rd Reg.ALM_SPSTAT_STATE = 2 ∨ s.dev.rd Reg.ALM_STATUS_WD = 3
  1 ≤ k ∧ k ≤ 4 ∧ k ≤ s.dev.rd Reg.PWR_CFG_MAXSTATE ∧ [0, 32, 40, 2000, 300000].getD k 0 ≤ s.dev.rd Reg.PWR_LTR_US ∧
  (protect → k ≤ 2) ∧
  (¬ protect → k ≤ 2 → s.dev.pwr.touchAt + 100000 ≤ s.dev.timeNs) ∧
  (¬ protect → 2 < k → (∀ e ∈ s.dev.sch.jobs, e.2.standing = true ∨ e.2.desc = []) ∧ s.dev.rd Reg.FLW_RUN_RX = 0 ∧
    s.dev.rd Reg.FLW_RUN_TX = 0 ∧ s.dev.rd Reg.TDM_RUN_PORTS = 0 ∧ s.dev.rd Reg.HOT_STATUS_STATE = 0)

/-- R486 to R488: the target is the deepest state that is permitted; WAKE starts the exit as its write lands; the exit, once its latency
has passed, ends in P0, or in P1 where the target allows it, from P1 and P2 in the target, and is posted with its wake cause. -/
def DeepStatesAreLeft : Prop :=
  (∀ s : State, (s.dev.powerTarget = 0 ∨ Permitted s s.dev.powerTarget) ∧ ∀ k, Permitted s k → k ≤ s.dev.powerTarget) ∧
  (∀ (s : State) (r : List SlowOp), SlowHead s 0x4010 0 r → let u := AfterEdge s
    ∃ t, Runs .slowWriteLand s t ∧ EdgeCame s t r ∧ Exits s t true 3 ∧ OnlyFields [] (u t r) t ∧ t.dev = Around (u t r).dev t.dev ∧
      t.dev.pwr = { s.dev.pwr with exiting := t.dev.pwr.exiting }) ∧
  (∀ (s : State) (ns : Nat), let st := s.dev.rd Reg.PWR_STATUS_STATE
    (s.dev.pwr.exiting = none → ∃ t, Runs (.pExitDone ns) s t ∧ Keeps [] s t (s.dev.at ns) ∧ t.dev.pwr = s.dev.pwr) ∧
    ∀ c began, s.dev.pwr.exiting = some (c, began) →
      let ends := began + 1000 * [0, 32, 40, 2000].getD st 300000 ≤ (s.dev.at ns).timeNs
      (¬ ends → ∃ t, Runs (.pExitDone ns) s t ∧ Keeps [] s t (s.dev.at ns) ∧ t.dev.pwr = s.dev.pwr) ∧
      (ends → s.dev.pwr.held = [] → ∃ t, Runs (.pExitDone ns) s t ∧ t.dev.rd Reg.PWR_STATUS_PSTEV = 1 ∧
        t.dev.pwr = { s.dev.pwr with exiting := none } ∧
        t.dev.rd Reg.PWR_STATUS_STATE = min (if 3 ≤ st then 1 else st - 1) t.dev.powerTarget ∧
        (st ≠ 4 → OnlyFields [Reg.PWR_STATUS_STATE, Reg.PWR_STATUS_PSTEV] s t ∧
          t.dev = Around { s.dev.at ns with free := t.dev.free } t.dev ∧
          (Room s → ∃ cause, cause < 8 ∧ (c < 8 → cause = c) ∧ EntersAll s t [(1, 1, t.dev.rd Reg.PWR_STATUS_STATE + cause * 2 ^ 8)]))))

/-- R489: a rail is read back 10 ms after it last was; a read-back that is not acknowledged, or off by more than 15 mV from a request that is
1 ms old, puts the rail in error, which is counted and posted. -/
def RailsAreReadBack : Prop :=
  ∀ (s : State) (n : Fin 3) (read : BitVec 10) (acked : Bool) (ns : Nat), let r := read.toNat
    let now := (s.dev.at ns).timeNs
    let x := s.dev.rail n
    let v := s.dev.rd (Reg.PWR_AVS_VREQ n)
    let soon := ∃ was, x.readAt = some was ∧ now < was + 10000000
    let bad := s.dev.rd Reg.PWR_CFG_AVS_EN = 1 ∧ (acked = false ∨ (x.reqAt + 1000000 ≤ now ∧ (v + 15 < r ∨ r + 15 < v)))
    (soon → ∃ t, Runs (.avs n read acked ns) s t ∧ Keeps [] s t (s.dev.at ns) ∧ t.dev.pwr = s.dev.pwr) ∧
    (¬ soon → ∃ t, Runs (.avs n read acked ns) s t ∧ t.dev.rd (Reg.PWR_AVS_VREAD n) = r ∧ t.dev = Around (s.dev.at ns) t.dev ∧
      t.dev.pwr = { s.dev.pwr with rails := t.dev.pwr.rails } ∧ t.dev.rail n = { x with readAt := some now } ∧
      (∀ j, j ≠ n.val → t.dev.rail j = s.dev.rail j) ∧
      (¬ bad → OnlyFields [Reg.PWR_AVS_VREAD n] s t) ∧
      (bad → t.dev.rd (Reg.PWR_AVS_ERR n) = 1 ∧ t.dev.rd Reg.PWR_AVSERR_COUNT = (s.dev.rd Reg.PWR_AVSERR_COUNT + 1) % 2 ^ 32 ∧
        t.dev.rd Reg.PWR_STATUS_AVSEV = 1 ∧ (Room s → EntersAll s t [(1, 2, n + 2 ^ 8 + r * 2 ^ 16)]) ∧
        OnlyFields [Reg.PWR_AVS_VREAD n, Reg.PWR_AVS_ERR n, Reg.PWR_AVSERR_COUNT, Reg.PWR_STATUS_AVSEV, Reg.PWR_STATUS_CNT_HALF] s t))

/-- R490: what domain `k`, 0 and 1 for the hearths and 2 for the core, does at a margin of `m` ps: whether its voltage rises or falls, its clock steps
down or up, or the core is critical at its highest voltage; its counters of milliseconds, `x`, include this evaluation. -/
structure MarginActs where
  raise : Prop
  lower : Prop
  down : Prop
  up : Prop
  crit : Prop
  x : Domain

/-- The decision of R490 for domain `k` in state `s`. -/
def marginActs (s : State) (k m : Nat) : MarginActs :=
  let crit := s.dev.rd Reg.AGE_MCFG_CRIT
  let low := s.dev.rd Reg.AGE_MCFG_LOW
  let high := s.dev.rd Reg.AGE_MCFG_HIGH
  let old := s.dev.domain k
  let x : Domain := {
    low := if m < low then min 100000 (old.low + 1) else 0
    high := if high < m then min 100000 (old.high + 1) else 0
    up := old.up.map fun n => min 100000 (n + 1)
    block := old.block - 1 }
  let n := if k = 2 then 0 else k + 1
  let v := s.dev.rd (Reg.PWR_AVS_VREQ n)
  let free := s.dev.rd Reg.PWR_CFG_AVS_EN = 1 ∧ s.dev.rd (Reg.PWR_AVS_ERR n) = 0
  let slower := k < 2 ∧ (s.dev.sh k).clkReq < 2
  let urgent := m < crit ∧ slower
  let room := v + 5 ≤ s.dev.rd Reg.PWR_AVSCFG_VMAX ∧ free
  { raise := ¬ urgent ∧ m < low ∧ room
    lower := ¬ urgent ∧ low ≤ m ∧ high < m ∧ 10000 ≤ x.high ∧ s.dev.rd Reg.PWR_AVSCFG_VMIN + 5 ≤ v ∧ free
    down := urgent ∨ (m < low ∧ ¬ room ∧ 100 ≤ x.low ∧ slower)
    up := ¬ urgent ∧ low ≤ m ∧ high < m ∧ s.dev.rd Reg.AGE_CFG_UPSTEP = 1 ∧ k < 2 ∧ 0 < (s.dev.sh k).clkReq ∧ 60000 ≤ x.high ∧ x.block = 0
    crit := k = 2 ∧ m < low ∧ m < crit ∧ s.dev.rd Reg.PWR_AVSCFG_VMAX < v + 5
    x := x }

/-- The events of domain `k` with its margin at `m`. -/
def MarginPosts (s : State) (k m : Nat) (es : List (Nat × Nat × Nat)) : Prop :=
  let acts := marginActs s k m
  let clk := (s.dev.sh k).clkReq
  (acts.down → es = [(2, 1, k + (clk + 1) * 2 + 2 ^ 8)]) ∧ (acts.up → es = [(2, 1, k + (clk - 1) * 2)]) ∧
  (acts.crit → es = [(2, 2, 2 + m * 2 ^ 8)]) ∧ (¬ acts.down → ¬ acts.up → ¬ acts.crit → es = [])

/-- R490, R491: while AGE runs the margins are evaluated every 8 ticks and shown; with MARGIN_EN each domain acts on its own: 5 mV up or down, a clock
step for the next plan, an hour without further steps up after a step down within 10 s of one; a critical margin of the core is posted. -/
def MarginsAct : Prop :=
  ∀ (s : State) (a b c : BitVec 8), let m := fun (k : Nat) => if k = 0 then a.toNat else if k = 1 then b.toNat else c.toNat
    let shown := (List.range 3).map Reg.AGE_MARGIN
    let due := s.dev.rd Reg.AGE_CFG_ENABLE = 1 ∧ s.dev.age.evalAt + 8 ≤ s.dev.tick
    (¬ due → ∃ t, Runs (.marginEval a b c) s t ∧ Keeps [] s t s.dev ∧ t.dev.pwr = s.dev.pwr) ∧
    (due → ∃ t, Runs (.marginEval a b c) s t ∧ (∀ k, k < 3 → t.dev.rd (Reg.AGE_MARGIN k) = m k) ∧
      (s.dev.rd Reg.AGE_CFG_MARGIN_EN = 0 → OnlyFields shown s t ∧ t.dev.pwr = s.dev.pwr ∧
        t.dev = Around { s.dev with age := { s.dev.age with evalAt := s.dev.tick } } t.dev) ∧
      (s.dev.rd Reg.AGE_CFG_MARGIN_EN = 1 →
        OnlyFields (shown ++ [Reg.PWR_AVS_VREQ 0, Reg.PWR_AVS_VREQ 1, Reg.PWR_AVS_VREQ 2, Reg.AGE_VSTEPCNT_COUNT, Reg.AGE_CSTEPCNT_COUNT,
          Reg.AGE_STATUS_CNT_HALF, Reg.AGE_STATUS_MRGEV]) s t ∧ t.dev.pwr = { s.dev.pwr with rails := t.dev.pwr.rails } ∧
        (∀ k, k < 3 → let acts := marginActs s k (m k)
          let n := if k = 2 then 0 else k + 1
          let v := s.dev.rd (Reg.PWR_AVS_VREQ n)
          (acts.raise → t.dev.rd (Reg.PWR_AVS_VREQ n) = v + 5) ∧ (acts.lower → t.dev.rd (Reg.PWR_AVS_VREQ n) = v - 5) ∧
          (acts.raise ∨ acts.lower → t.dev.rail n = { s.dev.rail n with reqAt := s.dev.timeNs }) ∧
          (¬ acts.raise → ¬ acts.lower → t.dev.rd (Reg.PWR_AVS_VREQ n) = v ∧ t.dev.rail n = s.dev.rail n) ∧
          (acts.down → (t.dev.sh k).clkReq = (s.dev.sh k).clkReq + 1 ∧
            t.dev.domain k = { acts.x with block := if ∃ u, acts.x.up = some u ∧ u ≤ 10000 then 3600000 else acts.x.block }) ∧
          (acts.up → (t.dev.sh k).clkReq = (s.dev.sh k).clkReq - 1 ∧ t.dev.domain k = { acts.x with up := some 0 }) ∧
          (¬ acts.down → ¬ acts.up → t.dev.domain k = acts.x ∧ (k < 2 → (t.dev.sh k).clkReq = (s.dev.sh k).clkReq)) ∧
          (acts.down ∨ acts.up ∨ acts.crit → t.dev.rd Reg.AGE_STATUS_MRGEV = 1)) ∧
        (Room s → ∃ e0 e1 e2, MarginPosts s 0 (m 0) e0 ∧ MarginPosts s 1 (m 1) e1 ∧ MarginPosts s 2 (m 2) e2 ∧ EntersAll s t (e0 ++ e1 ++ e2)) ∧
        t.dev = Around { s.dev with
          age := { s.dev.age with a := t.dev.age.a, b := t.dev.age.b, core := t.dev.age.core, evalAt := s.dev.tick }
          sch := { s.dev.sch with hA := { s.dev.sch.hA with clkReq := t.dev.sch.hA.clkReq }, hB := { s.dev.sch.hB with clkReq := t.dev.sch.hB.clkReq } } } t.dev))

/-- R492 to R495, while AGE runs: a sensor shows its temperature, the highest stays, and it alerts at TALERT and is quiet again 5 °C below; the rings show their
slowdown, and an hour with a hot sensor is counted; the ageing correction moves to its value within the slope limit; CLRHIST forgets the history. -/
def TemperatureAndAgeing : Prop :=
  (∀ (s : State) (k : Fin 3) (tj : BitVec 8), let x := tj.toInt
    let f := if k = 0 then Reg.AGE_TEMP_A else if k = 1 then Reg.AGE_TEMP_B else Reg.AGE_TEMP_CORE
    let limit : Int := s.dev.rd Reg.AGE_CFG_TALERT
    let was := k.val ∈ s.dev.age.alerts
    let rises := ¬ was ∧ limit ≤ x
    let falls := was ∧ x ≤ limit - 5
    (s.dev.rd Reg.AGE_CFG_ENABLE = 0 → ∃ t, Runs (.temp k tj) s t ∧ Keeps [] s t s.dev) ∧
    (s.dev.rd Reg.AGE_CFG_ENABLE = 1 → ∃ t, Runs (.temp k tj) s t ∧ t.dev.rd f = tj.toNat ∧
      (∀ y, s.dev.age.most = some y → t.dev.rd Reg.AGE_TEMP_MAX = uint 8 (max y x)) ∧
      (s.dev.age.most = none → t.dev.rd Reg.AGE_TEMP_MAX = tj.toNat) ∧
      (t.dev.age.hot = true ↔ s.dev.age.hot = true ∨ 95 ≤ x) ∧
      (∀ j, j ∈ t.dev.age.alerts ↔ (j = k.val ∧ (rises ∨ (was ∧ ¬ falls))) ∨ (j ≠ k.val ∧ j ∈ s.dev.age.alerts)) ∧
      (rises ∨ falls → t.dev.rd Reg.AGE_STATUS_TEMPEV = 1) ∧ OnlyFields [f, Reg.AGE_TEMP_MAX, Reg.AGE_STATUS_TEMPEV] s t ∧
      (Room s → EntersAll s t (if rises then [(2, 3, k + tj.toNat * 2 ^ 8 + 2 ^ 16)] else if falls then [(2, 3, k + tj.toNat * 2 ^ 8)] else [])) ∧
      t.dev = Around { s.dev with age := { s.dev.age with alerts := t.dev.age.alerts, most := t.dev.age.most, hot := t.dev.age.hot } } t.dev)) ∧
  (∀ (s : State) (a b c : BitVec 16), let r := s.dev.age.hist
    let hot := if s.dev.age.hot then 1 else 0
    let due := s.dev.rd Reg.AGE_CFG_ENABLE = 1 ∧ s.dev.age.degAt + 28800000 ≤ s.dev.tick
    (¬ due → ∃ t, Runs (.degMeasure a b c) s t ∧ Keeps [] s t s.dev) ∧
    (due → ∃ t, Runs (.degMeasure a b c) s t ∧ t.dev.rd (Reg.AGE_DEG 0) = a.toNat ∧ t.dev.rd (Reg.AGE_DEG 1) = b.toNat ∧ t.dev.rd (Reg.AGE_DEG 2) = c.toNat ∧
      t.dev.rd Reg.AGE_HOURS_COUNT = (r.hours + 1) % 2 ^ 32 ∧ t.dev.rd Reg.AGE_HOTHOURS_COUNT = (r.hotHours + hot) % 2 ^ 32 ∧
      (t.dev.age.hot = true ↔ ∃ f ∈ [Reg.AGE_TEMP_A, Reg.AGE_TEMP_B, Reg.AGE_TEMP_CORE], 95 ≤ sint 8 (s.dev.rd f)) ∧
      OnlyFields [Reg.AGE_DEG 0, Reg.AGE_DEG 1, Reg.AGE_DEG 2, Reg.AGE_HOURS_COUNT, Reg.AGE_HOTHOURS_COUNT] s t ∧
      t.dev = Around { s.dev with age := { s.dev.age with
        hot := t.dev.age.hot
        degAt := s.dev.tick
        hist := { r with deg := [a.toNat, b.toNat, c.toNat], hours := r.hours + 1, hotHours := r.hotHours + hot } } } t.dev)) ∧
  (∀ s : State, let due := s.dev.rd Reg.AGE_CFG_ENABLE = 1 ∧ s.dev.age.corrAt + 8000 ≤ s.dev.tick
    let applies := s.dev.rd Reg.AGE_CFG_APPLY = 1 ∧ s.dev.rd Reg.AGE_STATUS_VALID = 1 ∧ s.dev.rd Reg.REF_STATUS_HISTVALID = 1
    let now := sint 32 (s.dev.rd Reg.AGE_CORR_CORR)
    let lim : Int := 100 * s.dev.rd Reg.REF_SLEW_FSLOPE
    let num : Int := -(sint 32 (s.dev.rd Reg.AGE_OCXORATE_RATE) * ((s.dev.tick : Int) - s.dev.ref.mid))
    (¬ due → ∃ t, Runs .ageCorrUpdate s t ∧ Keeps [] s t s.dev) ∧
    (due → ∃ (t : State) (c : Int), Runs .ageCorrUpdate s t ∧ (¬ applies → c = 0) ∧
      (applies → ∃ q : Int, (q * 6912000000 - num).natAbs < 6912000000 ∧ c = max (-10000) (min q 10000)) ∧
      t.dev.rd Reg.AGE_CORR_CORR = uint 32 (max (now - lim) (min c (now + lim))) ∧ OnlyFields [Reg.AGE_CORR_CORR] s t ∧
      t.dev = Around { s.dev with age := { s.dev.age with corrAt := s.dev.tick } } t.dev)) ∧
  (∀ (s : State) (r : List SlowOp), SlowHead s 0x5010 0 r → let u := AfterEdge s
    ∃ t, Runs .slowWriteLand s t ∧ EdgeCame s t r ∧ Exits s t false 8 ∧ t.dev.rd Reg.AGE_NDAYS_COUNT = 0 ∧
    t.dev.rd Reg.AGE_STATUS_VALID = 0 ∧ OnlyFields [Reg.AGE_NDAYS_COUNT, Reg.AGE_STATUS_VALID] (u t r) t ∧
    t.dev = Around { (u t r).dev with age := { s.dev.age with hist := { s.dev.age.hist with means := [], days := [] } } } t.dev)

/-- The sum of the squared residuals of the daily means `l` against the line of slope `k` through `b` at day 0. -/
def residuals (l : List (Nat × Rat)) (k b : Rat) : Rat := (l.map fun e => (e.2 - (k * (e.1 : Rat) + b)) * (e.2 - (k * (e.1 : Rat) + b))).sum

/-- R494: while AGE runs, at the end of a day, valid with 20 or more valid hours, the line of least squares through the last DAYS valid days gives the ageing
rate, in 0.001 ppb per day from means in units of 2^-20 ppb; it is valid over 7 or more days with an RMS residual of at most 0.5 ppb. -/
def DaysGiveTheAgeingRate : Prop :=
  ∀ s : State, let r := s.dev.age.hist
    let n := r.means.length
    let mean : Rat := (r.means.map fun (m : Int) => (m : Rat)).sum / (n : Rat)
    let all := if 20 ≤ n then r.days ++ [(r.day, mean)] else r.days
    let days := all.drop (all.length - 60)
    let fit := days.drop (days.length - s.dev.rd Reg.AGE_CFG_DAYS)
    let due := s.dev.rd Reg.AGE_CFG_ENABLE = 1 ∧ s.dev.age.dayAt + 691200000 ≤ s.dev.tick
    (¬ due → ∃ t, Runs .ocxoest s t ∧ Keeps [] s t s.dev) ∧
    (due → ∃ t, Runs .ocxoest s t ∧ t.dev.age = { s.dev.age with
        hist := { r with means := [], day := r.day + 1, days := days }
        dayAt := s.dev.age.dayAt + 691200000 } ∧
      t.dev.rd Reg.AGE_NDAYS_COUNT = fit.length % 2 ^ 8 ∧ t.dev.rd Reg.AGE_STATUS_AGEEV = 1 ∧
      (fit.length < 7 → t.dev.rd Reg.AGE_STATUS_VALID = 0) ∧
      (2 ≤ fit.length → ∃ (k b : Rat) (q : Int), (∀ k' b', residuals fit k b ≤ residuals fit k' b') ∧
        (q : Rat) - k * 1000 / 2 ^ 20 < 1 ∧ k * 1000 / 2 ^ 20 - (q : Rat) < 1 ∧
        t.dev.rd Reg.AGE_OCXORATE_RATE = uint 32 (max (-(2 ^ 31)) (min q (2 ^ 31 - 1))) ∧
        (t.dev.rd Reg.AGE_STATUS_VALID = 1 ↔ 7 ≤ fit.length ∧ residuals fit k b / (fit.length : Rat) ≤ (2 ^ 19) * (2 ^ 19))) ∧
      OnlyFields [Reg.AGE_NDAYS_COUNT, Reg.AGE_OCXORATE_RATE, Reg.AGE_STATUS_VALID, Reg.AGE_STATUS_AGEEV] s t ∧
      (Room s → EntersAll s t [(2, 4, t.dev.rd Reg.AGE_STATUS_VALID * 2 ^ 8 + t.dev.rd Reg.AGE_OCXORATE_RATE * 2 ^ 32)]) ∧
      t.dev = Around { s.dev with age := t.dev.age, free := t.dev.free } t.dev)

end Sys2Proof.Claims

/-- R484 to R495: hot plug, power states, voltage and clock steps, temperature and ageing. -/
def Obligations.HotPlugPowerAndAgeing : Prop :=
  CardsComeAndGo ∧ DeepStatesAreLeft ∧ RailsAreReadBack ∧ MarginsAct ∧ TemperatureAndAgeing ∧ DaysGiveTheAgeingRate

/-! ### Write ownership, the quad-SPI target and the mailbox -/

namespace Sys2Proof.Claims

/-- Ownership has changed to host `c` (R530). -/
def OwnerIs (s t : State) (c : Nat) : Prop :=
  t.dev.rd Reg.HIF_OWN_OWNER = c ∧ t.dev.rd Reg.HIF_STATUS_OWNER = c ∧ t.dev.rd Reg.HIF_STATUS_OWNEV = 1 ∧
  t.dev.rd Reg.HIF_OWNCNT_COUNT = (s.dev.rd Reg.HIF_OWNCNT_COUNT + 1) % 2 ^ 32

/-- The pending claim has ended (R530). -/
def ClaimEnded (t : State) : Prop :=
  t.dev.rd Reg.HIF_STATUS_CLAIM = 0 ∧ t.dev.rd Reg.HIF_OWNREQ_CLAIM = 0 ∧ t.dev.rd Reg.HIF_STATUS_CLAIMEV = 1

/-- The fields of ownership and of a claim. -/
def ownerFields : List Fld :=
  [Reg.HIF_OWN_OWNER, Reg.HIF_STATUS_OWNER, Reg.HIF_STATUS_OWNEV, Reg.HIF_OWNCNT_COUNT, Reg.HIF_STATUS_CNT_HALF]
def claimFields : List Fld := [Reg.HIF_STATUS_CLAIM, Reg.HIF_OWNREQ_CLAIM, Reg.HIF_STATUS_CLAIMEV]

/-- R524, R529 to R531: ownership changes by the owner's write, and by a claim that the link test or the timer grants; DENY ends a claim; the loss
of the link resets the MSI-X table and nothing else. -/
def OwnershipChanges : Prop :=
  (∀ (s : State) (up : Bool) (speed width : BitVec 2), let v := if up then 1 else 0
    let granted := s.dev.rd Reg.HIF_STATUS_CLAIM = 1 ∧ s.dev.rd Reg.HIF_OWN_OWNER = 0 ∧ up = false
    let shown := [Reg.HIF_STATUS_PCIE_UP, Reg.HIF_STATUS_PCIE_SPEED, Reg.HIF_STATUS_PCIE_WIDTH, Reg.HIF_STATUS_LINKEV]
    let posted := (0, 5, v + speed.toNat * 2 + width.toNat * 2 ^ 4)
    let same := s.dev.rd Reg.HIF_STATUS_PCIE_UP = v ∧ s.dev.rd Reg.HIF_STATUS_PCIE_SPEED = speed.toNat ∧
      s.dev.rd Reg.HIF_STATUS_PCIE_WIDTH = width.toNat
    (same → ∃ t, Runs (.pcielink up speed width) s t ∧ Keeps [] s t s.dev) ∧
    (¬ same → ∃ t, Runs (.pcielink up speed width) s t ∧ t.dev.rd Reg.HIF_STATUS_PCIE_UP = v ∧ t.dev.rd Reg.HIF_STATUS_PCIE_SPEED = speed.toNat ∧
      t.dev.rd Reg.HIF_STATUS_PCIE_WIDTH = width.toNat ∧ t.dev.rd Reg.HIF_STATUS_LINKEV = 1 ∧
      t.dev.intr.table = (if up then s.dev.intr.table else []) ∧ t.dev = Around s.dev t.dev ∧
      (¬ granted → OnlyFields shown s t ∧ (Room s → EntersAll s t [posted])) ∧
      (granted → OwnerIs s t 1 ∧ ClaimEnded t ∧ OnlyFields (shown ++ ownerFields ++ claimFields) s t ∧
        (Room s → EntersAll s t [posted, (0, 1, 1), (0, 3, 1 + 2 ^ 8)])))) ∧
  (∀ (s : State) (h : Agent) (c : Fin 2), s.dev.violation h 0x20 [.hrw] false = none → let pend := s.dev.rd Reg.HIF_STATUS_CLAIM = 1
    (h = .sup ∨ c.val = s.dev.rd Reg.HIF_OWN_OWNER → ∃ t, Runs (.owner h c) s t ∧ Keeps [] s t s.dev) ∧
    (h ≠ .sup → c.val ≠ s.dev.rd Reg.HIF_OWN_OWNER → ∃ t, Runs (.owner h c) s t ∧ OwnerIs s t c ∧ t.dev = Around s.dev t.dev ∧
      (¬ pend → OnlyFields ownerFields s t ∧ (Room s → EntersAll s t [(0, 1, c)])) ∧
      (pend → ClaimEnded t ∧ OnlyFields (ownerFields ++ claimFields) s t ∧ (Room s → EntersAll s t [(0, 1, c), (0, 3, c + 2 ^ 8)])))) ∧
  (∀ (s : State) (h : Agent), let c := 1 - s.dev.rd Reg.HIF_OWN_OWNER
    let pend := s.dev.rd Reg.HIF_STATUS_CLAIM = 1
    let locked := s.dev.locked h 0 = true ∧ s.dev.rd Reg.LOCK_POLICY_LOCK_CMD = 1
    (s.dev.owns h = false → ¬ locked → pend → ∃ t, Runs (.claim h) s t ∧ (t.dev.rd Reg.HIF_OWN_OWNER = s.dev.rd Reg.HIF_OWN_OWNER ∧ Keeps [] s t s.dev)) ∧
    (s.dev.owns h = false → ¬ locked → ¬ pend → ∃ t, Runs (.claim h) s t ∧
      t.dev = Around { s.dev with hif := { s.dev.hif with claimAt := s.dev.timeNs } } t.dev ∧
      (s.dev.rd Reg.HIF_OWN_OWNER = 0 ∧ s.dev.rd Reg.HIF_STATUS_PCIE_UP = 0 → OwnerIs s t 1 ∧ ClaimEnded t ∧
        OnlyFields (ownerFields ++ claimFields) s t ∧ (Room s → EntersAll s t [(0, 2, 1), (0, 1, 1), (0, 3, 1 + 2 ^ 8)])) ∧
      (s.dev.rd Reg.HIF_OWN_OWNER = 1 ∨ s.dev.rd Reg.HIF_STATUS_PCIE_UP = 1 → t.dev.rd Reg.HIF_STATUS_CLAIM = 1 ∧
        t.dev.rd Reg.HIF_STATUS_CLAIMEV = 1 ∧ OnlyFields claimFields s t ∧ (Room s → EntersAll s t [(0, 2, c)]))) ∧
    (s.dev.violation h 0x24 [.cmd] false = none →
      (s.dev.owns h = true → ∃ t, Runs (.claim h) s t ∧ Keeps [] s t s.dev) ∧
      (h = .sup ∨ ¬ pend → ∃ t, Runs (.deny h) s t ∧ Keeps [] s t s.dev) ∧
      (h ≠ .sup → pend → ∃ t, Runs (.deny h) s t ∧ ClaimEnded t ∧ OnlyFields claimFields s t ∧ t.dev = Around s.dev t.dev ∧
        (Room s → EntersAll s t [(0, 3, c)])))) ∧
  (∀ (s : State) (ns : Nat), let c := 1 - s.dev.rd Reg.HIF_OWN_OWNER
    let ms := s.dev.rd Reg.HIF_OWNCFG_CLAIM_MS
    let due := s.dev.rd Reg.HIF_STATUS_CLAIM = 1 ∧ ms ≠ 0 ∧ s.dev.hif.claimAt + 1000000 * ms ≤ (s.dev.at ns).timeNs
    (¬ due → ∃ t, Runs (.claimend ns) s t ∧ Keeps [] s t (s.dev.at ns)) ∧
    (due → ∃ t, Runs (.claimend ns) s t ∧ OwnerIs s t c ∧ ClaimEnded t ∧ OnlyFields (ownerFields ++ claimFields) s t ∧
      t.dev = Around (s.dev.at ns) t.dev ∧
      (Room s → EntersAll s t [(0, 1, c), (0, 3, c + 2 ^ 8)])))

/-- R526 to R528: an unaligned address, a cut word and a word that finds the queue full are errors and change nothing else; a word of a WRITE acts as
a register write and a READ of a control block as a register read; elsewhere both go on through consecutive words; a late grate word reads as ones. -/
def SpiTransactionsAreServed : Prop :=
  let failed := fun (c : Instr) (s : State) => ∃ t, Runs c s t ∧ t.dev.rd Reg.HIF_STATUS_SPIERR = 1 ∧
    t.dev.rd Reg.HIF_SPIERRCNT_COUNT = (s.dev.rd Reg.HIF_SPIERRCNT_COUNT + 1) % 2 ^ 32 ∧
    OnlyFields [Reg.HIF_STATUS_SPIERR, Reg.HIF_SPIERRCNT_COUNT, Reg.HIF_STATUS_CNT_HALF] s t ∧
    t.dev = Around { s.dev with hif := { s.dev.hif with spiErr := true } } t.dev
  let queued := fun (s : State) => (s.dev.fab.slowQ.filter SlowOp.isWrite).length
  (∀ (s : State) (a : Addr) (ws : List Word) (coll : List Nat) (cut late : Bool) (n : Nat), a.val % 4 ≠ 0 →
    failed (.write a ws cut coll) s ∧ failed (.read a n late) s) ∧
  (∀ (s : State) (a : Addr) (coll : List Nat), a.val % 4 = 0 → failed (.write a [] true coll) s ∧
    ∀ x : Word, (a.val < 0x40000 → slowWord a = true → 32 ≤ queued s → failed (.write a [x] false coll) s) ∧
      (0x40000 ≤ a.val ∨ slowWord a = false ∨ queued s < 32 →
        ∃ t, exec (.write a [x] false coll) s = .next t ∧ exec (.registerWrite .spi a x 0xF (coll.contains 0)) s = .next t)) ∧
  (∀ (s : State) (a : Addr) (ws : List Word) (coll : List Nat), a.val % 4 = 0 → 0x200000 ≤ a.val → a.val + 4 * ws.length ≤ 0x300000 →
    s.dev.rd Reg.HIF_OWN_OWNER = 1 → Sparse.wf (fun _ => (0 : Word)) s.dev.eng.store = true →
    ∃ t, Runs (.write a ws false coll) s t ∧ Keeps [] s t { s.dev with eng := { s.dev.eng with store := t.dev.eng.store } } ∧
      ∀ k, let b := (a.val - 0x200000) / 4
        Sparse.get 0 t.dev.eng.store k = if b ≤ k ∧ k < b + ws.length then ws.getD (k - b) 0 else Sparse.get 0 s.dev.eng.store k) ∧
  (∀ (s : State) (a : Addr) (n : Nat) (late : Bool), a.val % 4 = 0 →
    (a.val < 0x40000 → ∃ t t', exec (.rcRead .spi a) s = .next t' ∧ exec (.read a (n + 1) late) s = .next t ∧
      t = { t' with dev := { t'.dev with fab := { t'.dev.fab with rdata := t'.dev.fab.rdata ++ List.replicate n 0xFFFFFFFF } } }) ∧
    (0x200000 ≤ a.val → a.val + 4 * n ≤ 0x300000 → ∃ t, Runs (.read a n late) s t ∧
      t.dev.fab.rdata = (List.range n).map (fun i => Sparse.get 0 s.dev.eng.store ((a.val - 0x200000) / 4 + i)) ∧
      Keeps [] s t { s.dev with fab := { s.dev.fab with rdata := t.dev.fab.rdata } }) ∧
    (0x400000 ≤ a.val → a.val + 4 * n ≤ 0x800000 → 0 < n → late = true → s.dev.rd Reg.HIF_CFG_DUMMY < 24 →
      ∃ t, Runs (.read a n late) s t ∧ t.dev.fab.rdata = List.replicate n 0xFFFFFFFF ∧ t.dev.rd Reg.HIF_STATUS_SPILATE = 1 ∧
        OnlyFields [Reg.HIF_STATUS_SPILATE] s t ∧ t.dev = Around { s.dev with fab := { s.dev.fab with rdata := t.dev.fab.rdata } } t.dev)) ∧
  (∀ s : State, ∃ (t : State) (w : Word), Runs .status s t ∧ t.dev.fab.rdata = [w] ∧ (w.getLsbD 0 = true ↔ 16 < queued s) ∧
    w.getLsbD 1 = s.dev.hif.spiErr ∧ (w.getLsbD 2 = true ↔ s.dev.rd Reg.HIF_OWN_OWNER = 1) ∧
    Keeps [] s t { s.dev with fab := { s.dev.fab with rdata := [w] }, hif := { s.dev.hif with spiErr := false } })

/-- The mailbox takes a command of host `h` at once: none is in progress and the supervisor runs (R532). -/
def MailboxOpen (s : State) (h : Agent) : Prop :=
  Ready s h Reg.HIF_MBCMD_GO true ∧ s.dev.rd Reg.HIF_MBCMD_GO = 0 ∧ 4 ≤ s.dev.rd Reg.PWR_KSTAT_STEP ∧ s.dev.sup.down = none ∧
  s.dev.rd Reg.PWR_STATUS_STATE ≠ 4

/-- Command `c` with operation `op` has started and will report `m`; no register but MBCMD and DEVKEY has changed. -/
def MailboxTakes (c : Instr) (s t : State) (m : Mailbox) : Prop :=
  exec c s = .next t ∧ t.pending = s.pending ∧ t.dev.rd Reg.HIF_MBCMD_GO = 1 ∧ t.dev.rd Reg.HIF_MBCMD_OP = m.op ∧ t.dev.hif.mb = some m ∧
  OnlyFields [Reg.HIF_MBCMD_GO, Reg.HIF_MBCMD_OP, Reg.PWR_KSTAT_DEVKEY] s t

/-- Command `c` is refused with `reason`, and changes nothing (R532). -/
def MailboxRefuses (c : Instr) (s : State) (op reason : Nat) : Prop :=
  ∃ t, MailboxTakes c s t ⟨op, reason, [], none, none⟩ ∧ t.nv = s.nv ∧
    t.dev = Around { Staged s t with hif := { s.dev.hif with mb := t.dev.hif.mb, mbWait := false }, free := t.dev.free } t.dev ∧
    t.dev.rd Reg.PWR_KSTAT_DEVKEY = s.dev.rd Reg.PWR_KSTAT_DEVKEY

/-- The four bytes of a word, most significant first. -/
def bytesOf (w : Nat) : List Byte := [24, 16, 8, 0].map fun n => BitVec.ofNat 8 (w / 2 ^ n)

/-- R478, R532: KEYPROG fuses a key hash into a free slot and KEYREVOKE revokes a slot while another key remains; they are refused with RANGE,
SLOTUSED and LASTKEY. -/
def KeysAreFused : Prop :=
  ∀ (s : State) (h : Agent), MailboxOpen s h →
    let a := s.dev.rd (Reg.HIF_MBDATA_DATA 0)
    let key := fun (v : NV) (n : Nat) => if n = 1 then v.key1 else v.key2
    let sum := (List.range 8).flatMap fun i => bytesOf (s.dev.rd (Reg.HIF_MBDATA_DATA (i + 1)))
    let keys := some (s.nv.key1, s.nv.key2)
    (a ≠ 1 → a ≠ 2 → MailboxRefuses (.keyprog h) s 1 0x01 ∧ MailboxRefuses (.keyrevoke h) s 2 0x01) ∧
    (a = 1 ∨ a = 2 →
      ((key s.nv a).hash ≠ none → MailboxRefuses (.keyprog h) s 1 0x10) ∧
      ((key s.nv a).hash = none → ∃ t, MailboxTakes (.keyprog h) s t ⟨1, 0, [], none, keys⟩ ∧
        key t.nv a = { key s.nv a with hash := some sum } ∧ key t.nv (3 - a) = key s.nv (3 - a) ∧
        t.nv = { s.nv with key1 := t.nv.key1, key2 := t.nv.key2 } ∧ t.dev.rd Reg.PWR_KSTAT_DEVKEY = 0) ∧
      ((key s.nv (3 - a)).hash = none ∨ (key s.nv (3 - a)).revoked = true → MailboxRefuses (.keyrevoke h) s 2 0x11) ∧
      ((key s.nv (3 - a)).hash ≠ none → (key s.nv (3 - a)).revoked = false → ∃ t, MailboxTakes (.keyrevoke h) s t ⟨2, 0, [], none, keys⟩ ∧
        key t.nv a = { key s.nv a with revoked := true } ∧ key t.nv (3 - a) = key s.nv (3 - a) ∧
        t.nv = { s.nv with key1 := t.nv.key1, key2 := t.nv.key2 }))

/-- R532: FLASHREAD fills the staging buffer with a sector, FLASHERASE erases one, and FLASHPROG programs one from the buffer; outside the flash,
during an alarm and in the ash dump partition they are refused with the lowest code, and no other sector changes. -/
def FlashSectorsAreServed : Prop :=
  ∀ (s : State) (h : Agent), MailboxOpen s h → MemoryWf s → Sparse.wf (fun _ => (0xFF : Byte)) s.dev.hif.stage = true →
    let a := s.dev.rd (Reg.HIF_MBDATA_DATA 0)
    let range := a % 65536 ≠ 0 ∨ s.dev.boot.flashBytes < a + 65536
    let alarm := s.dev.alarmActive = true ∨ s.dev.rd Reg.ALM_SPSTAT_STATE = 2
    let dump := s.dev.boot.dumpBase ≤ a ∧ a < s.dev.boot.dumpBase + 65536 * s.dev.boot.dumpSectors
    let torn := ∃ n, (a / 65536, n) ∈ s.nv.torn
    let byte := fun (v : NV) (k : Nat) => Sparse.get 0xFF v.flash k
    let inside := fun (k : Nat) => a ≤ k ∧ k < a + 65536
    let staged := fun (k : Nat) => Sparse.get 0xFF s.dev.hif.stage k
    (range → MailboxRefuses (.flashread h) s 4 0x01) ∧
    (¬ range → ¬ dump → ¬ torn → ∃ t, MailboxTakes (.flashread h) s t ⟨4, 0, [], none, none⟩ ∧ t.nv = s.nv ∧
      ∀ k, k < 65536 → Sparse.get 0xFF t.dev.hif.stage k = byte s.nv (a + k)) ∧
    (∀ ok : Bool, (range → MailboxRefuses (.flasherase h) s 5 0x01 ∧ MailboxRefuses (.flashprog h ok) s 6 0x01) ∧
      (¬ range → alarm → MailboxRefuses (.flasherase h) s 5 0x12 ∧ MailboxRefuses (.flashprog h ok) s 6 0x12) ∧
      (¬ range → ¬ alarm → dump → MailboxRefuses (.flasherase h) s 5 0x13 ∧ MailboxRefuses (.flashprog h ok) s 6 0x13) ∧
      (¬ range → ¬ alarm → ¬ dump →
        (∃ t, MailboxTakes (.flasherase h) s t ⟨5, 0, [], some a, none⟩ ∧ t.nv = { s.nv with flash := t.nv.flash, torn := t.nv.torn } ∧
          ∀ k, byte t.nv k = if inside k then 0xFF else byte s.nv k) ∧
        ((∀ e ∈ s.dev.hif.stage, e.1 < 65536) → ok = true → ¬ torn → (∀ k, inside k → staged (k - a) &&& ~~~(byte s.nv k) = 0) →
          ∃ t, MailboxTakes (.flashprog h ok) s t ⟨6, 0, [], some a, none⟩ ∧ t.nv = { s.nv with flash := t.nv.flash } ∧
            ∀ k, byte t.nv k = if inside k then staged (k - a) else byte s.nv k) ∧
        (ok = false ∨ torn ∨ (∃ k, inside k ∧ staged (k - a) &&& ~~~(byte s.nv k) ≠ 0) →
          ∃ t, MailboxTakes (.flashprog h ok) s t ⟨6, 0x88, [], some a, none⟩ ∧ t.nv = { s.nv with flash := t.nv.flash, torn := t.nv.torn } ∧
            ∀ k, ¬ inside k → byte t.nv k = byte s.nv k)))

/-- R532, R534: SAPSNAP copies the sessions into the table and returns their count, FWINFO reports the versions, and MBDONE ends a command with its
result, its words and its event. -/
def MailboxReports : Prop :=
  (∀ (s : State) (h : Agent), MailboxOpen s h →
    (∃ t, MailboxTakes (.sapsnap h) s t ⟨3, 0, [(0, s.dev.sap.length)], none, none⟩ ∧ t.nv = s.nv ∧
      t.dev.sapTable.length = 64 * s.dev.sap.length ∧
      ∀ i x, s.dev.sap[i]? = some x → x.text.length < 65536 → (∀ b ∈ x.text, b < 256) → x.port < 2 →
        t.dev.sapTable.getD (64 * i) 0 = BitVec.ofNat 32 (2 ^ 31 + x.port * 2 ^ 30 + (if x.v6 then 2 ^ 29 else 0) + x.text.length) ∧
        t.dev.sapTable.getD (64 * i + 1) 0 = BitVec.ofNat 32 (min ((s.dev.tick - x.heard) / 8000) (2 ^ 32 - 1)) ∧
        ∀ j, j < 56 → t.dev.sapTable.getD (64 * i + 8 + j) 0 = BitVec.ofNat 32 (x.text.getD (4 * j) 0 +
          x.text.getD (4 * j + 1) 0 * 2 ^ 8 + x.text.getD (4 * j + 2) 0 * 2 ^ 16 + x.text.getD (4 * j + 3) 0 * 2 ^ 24)) ∧
    (∃ t v, MailboxTakes (.fwinfo h) s t ⟨7, 0, [(0, v), (1, s.dev.boot.otherVer)], none, none⟩ ∧ t.nv = s.nv)) ∧
  (∀ s : State,
    (s.dev.hif.mb = none → s.dev.hif.mbWait = false ∨ s.dev.supRuns = false → ∃ t, Runs .mbdone s t ∧ Keeps [] s t s.dev) ∧
    (s.dev.hif.mb = none → s.dev.hif.mbWait = true → s.dev.supRuns = true → s.dev.fab.queued.contains Reg.HIF_MBCMD_GO.key = false →
      ∃ t, exec .mbdone s = .next t ∧ t.pending = s.pending ∧ t.dev.rd Reg.HIF_MBCMD_GO = 0 ∧ t.dev.rd Reg.HIF_MBRES_VALID = 1 ∧
        t.dev.rd Reg.HIF_MBRES_OP = s.dev.rd Reg.HIF_MBCMD_OP ∧ t.dev.rd Reg.HIF_STATUS_MBDONE = 1 ∧ t.dev.hif.mb = none ∧
        t.dev.hif.mbWait = false) ∧
    (∀ m, s.dev.hif.mb = some m → m.reason < 256 → m.op < 256 → (∀ r ∈ m.results, r.1 < 16) → (m.results.map (·.1)).Nodup →
      s.dev.fab.queued.contains Reg.HIF_MBCMD_GO.key = false →
      ∃ t, Runs .mbdone s t ∧ t.dev.rd Reg.HIF_MBCMD_GO = 0 ∧ t.dev.rd Reg.HIF_MBRES_VALID = 1 ∧ t.dev.rd Reg.HIF_MBRES_REASON = m.reason ∧
        t.dev.rd Reg.HIF_MBRES_OP = m.op ∧ t.dev.rd Reg.HIF_MBRES_REFUSED = (if m.reason = 0 then 0 else 1) ∧ t.dev.rd Reg.HIF_STATUS_MBDONE = 1 ∧
        (∀ r ∈ m.results, t.dev.rd (Reg.HIF_MBDATA_DATA r.1) = r.2 % 2 ^ 32) ∧ t.dev.hif = { s.dev.hif with mb := none } ∧
        OnlyFields ([Reg.HIF_MBCMD_GO, Reg.HIF_MBRES_VALID, Reg.HIF_MBRES_REASON, Reg.HIF_MBRES_OP, Reg.HIF_MBRES_REFUSED, Reg.HIF_STATUS_MBDONE] ++
          m.results.map fun r => Reg.HIF_MBDATA_DATA r.1) s t ∧
        t.dev = Around { s.dev with hif := t.dev.hif } t.dev ∧ (Room s → EntersAll s t [(0, 4, m.op + m.reason * 2 ^ 8)])))

end Sys2Proof.Claims

/-- R478, R524, R526 to R532, R534: write ownership, the quad-SPI target and the supervisor mailbox. -/
def Obligations.OwnershipSpiAndMailbox : Prop :=
  OwnershipChanges ∧ SpiTransactionsAreServed ∧ KeysAreFused ∧ FlashSectorsAreServed ∧ MailboxReports
end

