-- ==== Sys2Proof/Laws/Sparse.lean ====
section
/-! SUPPORT. The laws of sparse stores: a read after a write, and the canonical form under every operation. -/
namespace Sys2Proof.Machine
variable {α : Type}

/-! ### Reads after writes -/

theorem Sparse.get_insert (d : α) (l : Sparse α) (k j : Nat) (v : α) :
    Sparse.get d (Sparse.insert l k v) j = if k = j then v else Sparse.get d l j := by
  induction l with
  | nil => simp [Sparse.insert, Sparse.get]
  | cons e t ih =>
    obtain ⟨a, w⟩ := e
    unfold Sparse.insert
    split
    · rename_i h
      simp only [Sparse.get, beq_iff_eq, ih]
      grind
    · split <;> simp only [Sparse.get, beq_iff_eq] <;> grind

theorem Sparse.get_erase (d : α) (l : Sparse α) (k j : Nat) :
    Sparse.get d (Sparse.erase l k) j = if k = j then d else Sparse.get d l j := by
  induction l with
  | nil => simp [Sparse.erase, Sparse.get]
  | cons e t ih =>
    obtain ⟨a, w⟩ := e
    unfold Sparse.erase
    split <;> simp only [Sparse.get, beq_iff_eq, ih] <;> grind

/-- A read of the key that was written answers the value written. -/
@[simp] theorem Sparse.get_put_eq [DecidableEq α] (d : α) (l : Sparse α) (k : Nat) (v : α) :
    Sparse.get d (Sparse.put d l k v) k = v := by
  unfold Sparse.put
  split
  · rename_i hv
    rw [Sparse.get_erase, if_pos rfl, hv]
  · rw [Sparse.get_insert, if_pos rfl]

/-- A write leaves every other key alone. -/
theorem Sparse.get_put_ne [DecidableEq α] (d e : α) (l : Sparse α) (k j : Nat) (v : α) (hj : k ≠ j) :
    Sparse.get d (Sparse.put e l k v) j = Sparse.get d l j := by
  unfold Sparse.put
  split
  · clear * - hj
    induction l with
    | nil => rfl
    | cons e t ih =>
      obtain ⟨a, w⟩ := e
      unfold Sparse.erase
      split <;> simp only [Sparse.get, beq_iff_eq, ih] <;> grind
  · rw [Sparse.get_insert, if_neg hj]

theorem Sparse.get_put [DecidableEq α] (d : α) (l : Sparse α) (k j : Nat) (v : α) :
    Sparse.get d (Sparse.put d l k v) j = if k = j then v else Sparse.get d l j := by
  split
  · rename_i h
    rw [← h, Sparse.get_put_eq]
  · exact Sparse.get_put_ne d d l k j v ‹_›

/-- Every key of a store that rises from `lo` is at least `lo`. -/
theorem Sparse.get_below (d : α) (l : Sparse α) (lo j : Nat) (h : Sparse.rising lo l = true) (hj : j < lo) :
    Sparse.get d l j = d := by
  induction l generalizing lo with
  | nil => rfl
  | cons e t ih =>
    obtain ⟨a, w⟩ := e
    simp only [Sparse.rising, Bool.and_eq_true, decide_eq_true_eq] at h
    simp only [Sparse.get, beq_iff_eq]
    rw [if_neg (by omega)]
    exact ih (a + 1) h.2 (by omega)

/-! ### The canonical form -/

theorem Sparse.rising_le (l : Sparse α) (lo hi : Nat) (h : Sparse.rising hi l = true) (hl : lo ≤ hi) :
    Sparse.rising lo l = true := by
  cases l with
  | nil => rfl
  | cons e t =>
    obtain ⟨a, w⟩ := e
    simp only [Sparse.rising, Bool.and_eq_true, decide_eq_true_eq] at *
    exact ⟨by omega, h.2⟩

theorem Sparse.rising_insert (l : Sparse α) (lo k : Nat) (v : α) (h : Sparse.rising lo l = true) (hk : lo ≤ k) :
    Sparse.rising lo (Sparse.insert l k v) = true := by
  induction l generalizing lo with
  | nil => simp [Sparse.insert, Sparse.rising, hk]
  | cons e t ih =>
    obtain ⟨a, w⟩ := e
    simp only [Sparse.rising, Bool.and_eq_true, decide_eq_true_eq] at h
    unfold Sparse.insert
    split
    · simp only [Sparse.rising, Bool.and_eq_true, decide_eq_true_eq]
      exact ⟨h.1, ih (a + 1) h.2 (by omega)⟩
    · split
      · simp only [Sparse.rising, Bool.and_eq_true, decide_eq_true_eq]
        rename_i ha
        exact ⟨hk, ha ▸ h.2⟩
      · simp only [Sparse.rising, Bool.and_eq_true, decide_eq_true_eq]
        exact ⟨hk, by omega, h.2⟩

theorem Sparse.rising_erase (l : Sparse α) (lo k : Nat) (h : Sparse.rising lo l = true) :
    Sparse.rising lo (Sparse.erase l k) = true := by
  induction l generalizing lo with
  | nil => rfl
  | cons e t ih =>
    obtain ⟨a, w⟩ := e
    simp only [Sparse.rising, Bool.and_eq_true, decide_eq_true_eq] at h
    unfold Sparse.erase
    split
    · exact Sparse.rising_le _ lo (a + 1) (ih (a + 1) h.2) (by omega)
    · simp only [Sparse.rising, Bool.and_eq_true, decide_eq_true_eq]
      exact ⟨h.1, ih (a + 1) h.2⟩

theorem Sparse.mem_insert (l : Sparse α) (k : Nat) (v : α) (e : Nat × α) (h : e ∈ Sparse.insert l k v) :
    e = (k, v) ∨ e ∈ l := by
  induction l with
  | nil => simpa [Sparse.insert] using h
  | cons x t ih =>
    obtain ⟨a, w⟩ := x
    unfold Sparse.insert at h
    split at h
    · rcases List.mem_cons.mp h with h | h
      · exact .inr (h ▸ List.mem_cons_self)
      · exact (ih h).imp_right (List.mem_cons_of_mem _)
    · split at h <;> rcases List.mem_cons.mp h with h | h
      · exact .inl h
      · exact .inr (List.mem_cons_of_mem _ h)
      · exact .inl h
      · exact .inr h

theorem Sparse.mem_erase (l : Sparse α) (k : Nat) (e : Nat × α) (h : e ∈ Sparse.erase l k) : e ∈ l := by
  induction l with
  | nil => exact h
  | cons x t ih =>
    obtain ⟨a, w⟩ := x
    unfold Sparse.erase at h
    split at h
    · exact List.mem_cons_of_mem _ (ih h)
    · rcases List.mem_cons.mp h with h | h
      · exact h ▸ List.mem_cons_self
      · exact List.mem_cons_of_mem _ (ih h)

theorem Sparse.rising_filter (l : Sparse α) (lo : Nat) (q : Nat × α → Bool) (h : Sparse.rising lo l = true) :
    Sparse.rising lo (l.filter q) = true := by
  induction l generalizing lo with
  | nil => rfl
  | cons e t ih =>
    obtain ⟨a, w⟩ := e
    simp only [Sparse.rising, Bool.and_eq_true, decide_eq_true_eq] at h
    rw [List.filter_cons]
    split
    · simp only [Sparse.rising, Bool.and_eq_true, decide_eq_true_eq]
      exact ⟨h.1, ih (a + 1) h.2⟩
    · exact Sparse.rising_le _ lo (a + 1) (ih (a + 1) h.2) (by omega)

variable [DecidableEq α]

theorem Sparse.wf_rising {d : Nat → α} {l : Sparse α} (h : Sparse.wf d l = true) : Sparse.rising 0 l = true := by
  simp only [Sparse.wf, Bool.and_eq_true] at h
  exact h.1

@[simp] theorem Sparse.wf_nil (d : Nat → α) : Sparse.wf d [] = true := rfl

/-- Every write keeps the canonical form. -/
theorem Sparse.wf_put (d : Nat → α) (l : Sparse α) (k : Nat) (v : α) (h : Sparse.wf d l = true) :
    Sparse.wf d (Sparse.put (d k) l k v) = true := by
  simp only [Sparse.wf, Bool.and_eq_true, List.all_eq_true, decide_eq_true_eq] at *
  unfold Sparse.put
  split
  · exact ⟨Sparse.rising_erase l 0 k h.1, fun e he => h.2 e (Sparse.mem_erase l k e he)⟩
  · rename_i hv
    refine ⟨Sparse.rising_insert l 0 k v h.1 (Nat.zero_le _), fun e he => ?_⟩
    rcases Sparse.mem_insert l k v e he with rfl | he
    · exact hv
    · exact h.2 e he

theorem Sparse.wf_modify (d : Nat → α) (l : Sparse α) (k : Nat) (f : α → α) (h : Sparse.wf d l = true) :
    Sparse.wf d (Sparse.modify (d k) l k f) = true :=
  Sparse.wf_put d l k _ h

theorem Sparse.wf_putList (d : α) (l : Sparse α) (k : Nat) (vs : List α) (h : Sparse.wf (fun _ => d) l = true) :
    Sparse.wf (fun _ => d) (Sparse.putList d l k vs) = true := by
  induction vs generalizing l k with
  | nil => exact h
  | cons v vs ih => exact ih _ _ (Sparse.wf_put (fun _ => d) l k v h)

/-- Clearing the entries of a range keeps the canonical form. -/
theorem Sparse.wf_filter (d : Nat → α) (l : Sparse α) (q : Nat × α → Bool) (h : Sparse.wf d l = true) :
    Sparse.wf d (l.filter q) = true := by
  simp only [Sparse.wf, Bool.and_eq_true, List.all_eq_true, decide_eq_true_eq] at *
  exact ⟨Sparse.rising_filter l 0 q h.1, fun e he => h.2 e (List.mem_of_mem_filter he)⟩

/-- Two stores in canonical form that read the same are the same data. -/
theorem Sparse.wf_ext (d : α) (l m : Sparse α) (hl : Sparse.wf (fun _ => d) l = true)
    (hm : Sparse.wf (fun _ => d) m = true) (h : ∀ k, Sparse.get d l k = Sparse.get d m k) : l = m := by
  simp only [Sparse.wf, Bool.and_eq_true, List.all_eq_true, decide_eq_true_eq] at hl hm
  suffices ∀ lo, Sparse.rising lo l = true → Sparse.rising lo m = true → l = m from this 0 hl.1 hm.1
  replace hl := hl.2
  replace hm := hm.2
  induction l generalizing m with
  | nil =>
    intro lo _ hr
    cases m with
    | nil => rfl
    | cons e t =>
      obtain ⟨a, w⟩ := e
      have := h a
      simp only [Sparse.get, beq_self_eq_true, if_true] at this
      exact absurd this.symm (hm _ List.mem_cons_self)
  | cons e t ih =>
    obtain ⟨a, w⟩ := e
    intro lo hr hs
    cases m with
    | nil =>
      have := h a
      simp only [Sparse.get, beq_self_eq_true, if_true] at this
      exact absurd this (hl _ List.mem_cons_self)
    | cons x u =>
      obtain ⟨b, z⟩ := x
      simp only [Sparse.rising, Bool.and_eq_true, decide_eq_true_eq] at hr hs
      have ha := h a
      have hb := h b
      simp only [Sparse.get, beq_iff_eq, if_true] at ha hb
      have hab : a = b := by
        rcases Nat.lt_trichotomy a b with hlt | heq | hgt
        · rw [if_neg (by omega), Sparse.get_below d u (b + 1) a hs.2 (by omega)] at ha
          exact absurd ha (hl _ List.mem_cons_self)
        · exact heq
        · rw [if_neg (by omega), Sparse.get_below d t (a + 1) b hr.2 (by omega)] at hb
          exact absurd hb.symm (hm _ List.mem_cons_self)
      subst hab
      rw [if_pos rfl] at ha
      subst ha
      have : t = u := by
        refine ih u ?_ (fun e he => hl e (List.mem_cons_of_mem _ he)) (fun e he => hm e (List.mem_cons_of_mem _ he))
          (a + 1) hr.2 hs.2
        intro k
        have hk := h k
        simp only [Sparse.get, beq_iff_eq] at hk
        by_cases hka : a = k
        · subst hka
          rw [Sparse.get_below d t (a + 1) a hr.2 (by omega), Sparse.get_below d u (a + 1) a hs.2 (by omega)]
        · rwa [if_neg hka, if_neg hka] at hk
      rw [this]

end Sys2Proof.Machine
end

