-- ==== Sys2Proof/Laws/Registers.lean ====
section
/-! SUPPORT. The laws of register fields and of the register file: a read after a write of the same field, of another
field, and of another word. -/
namespace Sys2Proof.Machine

/-- The field lies in a 32-bit word. -/
def Fld.ok (f : Fld) : Bool := decide (f.lo ≤ f.hi) && decide (f.hi < 32)

/-- The fields share no bit. -/
def Fld.apart (f g : Fld) : Bool := f.addr != g.addr || decide (f.hi < g.lo) || decide (g.hi < f.lo)

theorem Fld.get_testBit (f : Fld) (w : Word) (i : Nat) :
    (f.get w).testBit i = (decide (i < f.width) && w.getLsbD (f.lo + i)) := by
  unfold Fld.get
  rw [Nat.testBit_mod_two_pow, Nat.testBit_div_two_pow, BitVec.getLsbD, Nat.add_comm]

theorem Fld.mask_getLsbD (f : Fld) (j : Nat) :
    f.mask.getLsbD j = (decide (j < 32) && (decide (f.lo ≤ j) && decide (j < f.lo + f.width))) := by
  unfold Fld.mask
  rw [BitVec.getLsbD_ofNat, ← Nat.shiftLeft_eq, Nat.testBit_shiftLeft, Nat.testBit_two_pow_sub_one]
  by_cases h : f.lo ≤ j
  · have : (j - f.lo < f.width) = (j < f.lo + f.width) := by simp; omega
    simp [h, this]
  · simp [h]

theorem Fld.set_getLsbD (f : Fld) (w : Word) (v j : Nat) :
    (f.set w v).getLsbD j = (decide (j < 32) &&
      if f.lo ≤ j ∧ j < f.lo + f.width then v.testBit (j - f.lo) else w.getLsbD j) := by
  unfold Fld.set
  rw [BitVec.getLsbD_or, BitVec.getLsbD_and, BitVec.getLsbD_not, Fld.mask_getLsbD, BitVec.getLsbD_ofNat,
    ← Nat.shiftLeft_eq, Nat.testBit_shiftLeft, Nat.testBit_mod_two_pow]
  by_cases hj : j < 32
  · by_cases h : f.lo ≤ j
    · by_cases h2 : j < f.lo + f.width
      · have : j - f.lo < f.width := by omega
        simp [hj, h, h2, this]
      · have : ¬ j - f.lo < f.width := by omega
        simp [hj, h, h2, this]
    · simp [hj, h]
  · have : w.getLsbD j = false := BitVec.getLsbD_of_ge w j (by omega)
    simp [hj, this]

/-- A field reads back the value written, cut to its width. -/
theorem Fld.get_set (f : Fld) (w : Word) (v : Nat) (h : f.ok = true) : f.get (f.set w v) = v % 2 ^ f.width := by
  simp only [Fld.ok, Bool.and_eq_true, decide_eq_true_eq] at h
  apply Nat.eq_of_testBit_eq
  intro i
  rw [Fld.get_testBit, Fld.set_getLsbD, Nat.testBit_mod_two_pow]
  by_cases hi : i < f.width
  · have h1 : f.lo + i < 32 := by simp only [Fld.width] at hi; omega
    have h2 : f.lo ≤ f.lo + i ∧ f.lo + i < f.lo + f.width := by omega
    simp [hi, h1]
  · simp [hi]

/-- A write of a field leaves every field of the word that shares no bit with it. -/
theorem Fld.get_set_apart (f g : Fld) (w : Word) (v : Nat) (hf : f.ok = true) (hg : g.ok = true)
    (h : f.hi < g.lo ∨ g.hi < f.lo) : g.get (f.set w v) = g.get w := by
  simp only [Fld.ok, Bool.and_eq_true, decide_eq_true_eq] at hf hg
  apply Nat.eq_of_testBit_eq
  intro i
  rw [Fld.get_testBit, Fld.get_testBit, Fld.set_getLsbD]
  by_cases hi : i < g.width
  · have h1 : g.lo + i < 32 := by simp only [Fld.width] at hi; omega
    have h2 : ¬ (f.lo ≤ g.lo + i ∧ g.lo + i < f.lo + f.width) := by simp only [Fld.width] at *; omega
    simp only [hi, h1, if_neg h2, decide_true, Bool.true_and]
  · simp [hi]

/-! ### The register file -/

@[simp] theorem Dev.word_setWord_eq (d : Dev) (a : Nat) (w : Word) : (d.setWord a w).word a = w := by
  simp [Dev.word, Dev.setWord]

theorem Dev.word_setWord_ne (d : Dev) (a b : Nat) (w : Word) (h : a ≠ b) : (d.setWord a w).word b = d.word b := by
  simp only [Dev.word, Dev.setWord]
  exact Sparse.get_put_ne _ _ _ _ _ _ h

/-- A register field reads back the value written, cut to its width. -/
theorem Dev.rd_wr (d : Dev) (f : Fld) (v : Nat) (h : f.ok = true) : (d.wr f v).rd f = v % 2 ^ f.width := by
  simp only [Dev.rd, Dev.wr, Dev.word_setWord_eq, Fld.get_set f _ v h]

/-- A write of a field leaves every field that shares no bit with it. -/
theorem Dev.rd_wr_apart (d : Dev) (f g : Fld) (v : Nat) (hf : f.ok = true) (hg : g.ok = true)
    (h : f.apart g = true) : (d.wr f v).rd g = d.rd g := by
  simp only [Dev.rd, Dev.wr]
  by_cases ha : f.addr = g.addr
  · simp only [Fld.apart, ha, bne_self_eq_false, Bool.false_or, Bool.or_eq_true, decide_eq_true_eq] at h
    rw [← ha, Dev.word_setWord_eq, ha, Fld.get_set_apart f g _ v hf hg h]
  · rw [Dev.word_setWord_ne _ _ _ _ ha]

theorem Dev.rd_congr (d d' : Dev) (f : Fld) (h : d.live = d'.live) : d.rd f = d'.rd f := by
  simp only [Dev.rd, Dev.word, h]

end Sys2Proof.Machine
end

