-- ==== Sys2Proof/Laws/State.lean ====
section
/-! SUPPORT. What each update of the device leaves alone: one lemma per field and update, so that no proof unfolds a record
update. -/
namespace Sys2Proof.Machine

/-! ### setWord -/

@[simp] theorem Dev.setWord_shadow (d : Dev) (a : Nat) (w : Word) : (d.setWord a w).shadow = d.shadow := rfl
@[simp] theorem Dev.setWord_fab (d : Dev) (a : Nat) (w : Word) : (d.setWord a w).fab = d.fab := rfl
@[simp] theorem Dev.setWord_evq (d : Dev) (a : Nat) (w : Word) : (d.setWord a w).evq = d.evq := rfl
@[simp] theorem Dev.setWord_intr (d : Dev) (a : Nat) (w : Word) : (d.setWord a w).intr = d.intr := rfl
@[simp] theorem Dev.setWord_tick (d : Dev) (a : Nat) (w : Word) : (d.setWord a w).tick = d.tick := rfl
@[simp] theorem Dev.setWord_ns (d : Dev) (a : Nat) (w : Word) : (d.setWord a w).ns = d.ns := rfl
@[simp] theorem Dev.setWord_free (d : Dev) (a : Nat) (w : Word) : (d.setWord a w).free = d.free := rfl
@[simp] theorem Dev.setWord_sch (d : Dev) (a : Nat) (w : Word) : (d.setWord a w).sch = d.sch := rfl
@[simp] theorem Dev.setWord_eng (d : Dev) (a : Nat) (w : Word) : (d.setWord a w).eng = d.eng := rfl
@[simp] theorem Dev.setWord_mem (d : Dev) (a : Nat) (w : Word) : (d.setWord a w).mem = d.mem := rfl
@[simp] theorem Dev.setWord_hrt (d : Dev) (a : Nat) (w : Word) : (d.setWord a w).hrt = d.hrt := rfl
@[simp] theorem Dev.setWord_alm (d : Dev) (a : Nat) (w : Word) : (d.setWord a w).alm = d.alm := rfl
@[simp] theorem Dev.setWord_sup (d : Dev) (a : Nat) (w : Word) : (d.setWord a w).sup = d.sup := rfl
@[simp] theorem Dev.setWord_dump (d : Dev) (a : Nat) (w : Word) : (d.setWord a w).dump = d.dump := rfl
@[simp] theorem Dev.setWord_tdm (d : Dev) (a : Nat) (w : Word) : (d.setWord a w).tdm = d.tdm := rfl
@[simp] theorem Dev.setWord_syn (d : Dev) (a : Nat) (w : Word) : (d.setWord a w).syn = d.syn := rfl
@[simp] theorem Dev.setWord_flw (d : Dev) (a : Nat) (w : Word) : (d.setWord a w).flw = d.flw := rfl
@[simp] theorem Dev.setWord_mac0 (d : Dev) (a : Nat) (w : Word) : (d.setWord a w).mac0 = d.mac0 := rfl
@[simp] theorem Dev.setWord_mac1 (d : Dev) (a : Nat) (w : Word) : (d.setWord a w).mac1 = d.mac1 := rfl
@[simp] theorem Dev.setWord_ptp (d : Dev) (a : Nat) (w : Word) : (d.setWord a w).ptp = d.ptp := rfl
@[simp] theorem Dev.setWord_ref (d : Dev) (a : Nat) (w : Word) : (d.setWord a w).ref = d.ref := rfl
@[simp] theorem Dev.setWord_sap (d : Dev) (a : Nat) (w : Word) : (d.setWord a w).sap = d.sap := rfl
@[simp] theorem Dev.setWord_sapTable (d : Dev) (a : Nat) (w : Word) : (d.setWord a w).sapTable = d.sapTable := rfl
@[simp] theorem Dev.setWord_tim (d : Dev) (a : Nat) (w : Word) : (d.setWord a w).tim = d.tim := rfl
@[simp] theorem Dev.setWord_boot (d : Dev) (a : Nat) (w : Word) : (d.setWord a w).boot = d.boot := rfl
@[simp] theorem Dev.setWord_pwr (d : Dev) (a : Nat) (w : Word) : (d.setWord a w).pwr = d.pwr := rfl
@[simp] theorem Dev.setWord_age (d : Dev) (a : Nat) (w : Word) : (d.setWord a w).age = d.age := rfl
@[simp] theorem Dev.setWord_hif (d : Dev) (a : Nat) (w : Word) : (d.setWord a w).hif = d.hif := rfl

/-! ### wr -/

@[simp] theorem Dev.wr_shadow (d : Dev) (f : Fld) (v : Nat) : (d.wr f v).shadow = d.shadow := rfl
@[simp] theorem Dev.wr_fab (d : Dev) (f : Fld) (v : Nat) : (d.wr f v).fab = d.fab := rfl
@[simp] theorem Dev.wr_evq (d : Dev) (f : Fld) (v : Nat) : (d.wr f v).evq = d.evq := rfl
@[simp] theorem Dev.wr_intr (d : Dev) (f : Fld) (v : Nat) : (d.wr f v).intr = d.intr := rfl
@[simp] theorem Dev.wr_tick (d : Dev) (f : Fld) (v : Nat) : (d.wr f v).tick = d.tick := rfl
@[simp] theorem Dev.wr_ns (d : Dev) (f : Fld) (v : Nat) : (d.wr f v).ns = d.ns := rfl
@[simp] theorem Dev.wr_free (d : Dev) (f : Fld) (v : Nat) : (d.wr f v).free = d.free := rfl
@[simp] theorem Dev.wr_sch (d : Dev) (f : Fld) (v : Nat) : (d.wr f v).sch = d.sch := rfl
@[simp] theorem Dev.wr_eng (d : Dev) (f : Fld) (v : Nat) : (d.wr f v).eng = d.eng := rfl
@[simp] theorem Dev.wr_mem (d : Dev) (f : Fld) (v : Nat) : (d.wr f v).mem = d.mem := rfl
@[simp] theorem Dev.wr_hrt (d : Dev) (f : Fld) (v : Nat) : (d.wr f v).hrt = d.hrt := rfl
@[simp] theorem Dev.wr_alm (d : Dev) (f : Fld) (v : Nat) : (d.wr f v).alm = d.alm := rfl
@[simp] theorem Dev.wr_sup (d : Dev) (f : Fld) (v : Nat) : (d.wr f v).sup = d.sup := rfl
@[simp] theorem Dev.wr_dump (d : Dev) (f : Fld) (v : Nat) : (d.wr f v).dump = d.dump := rfl
@[simp] theorem Dev.wr_tdm (d : Dev) (f : Fld) (v : Nat) : (d.wr f v).tdm = d.tdm := rfl
@[simp] theorem Dev.wr_syn (d : Dev) (f : Fld) (v : Nat) : (d.wr f v).syn = d.syn := rfl
@[simp] theorem Dev.wr_flw (d : Dev) (f : Fld) (v : Nat) : (d.wr f v).flw = d.flw := rfl
@[simp] theorem Dev.wr_mac0 (d : Dev) (f : Fld) (v : Nat) : (d.wr f v).mac0 = d.mac0 := rfl
@[simp] theorem Dev.wr_mac1 (d : Dev) (f : Fld) (v : Nat) : (d.wr f v).mac1 = d.mac1 := rfl
@[simp] theorem Dev.wr_ptp (d : Dev) (f : Fld) (v : Nat) : (d.wr f v).ptp = d.ptp := rfl
@[simp] theorem Dev.wr_ref (d : Dev) (f : Fld) (v : Nat) : (d.wr f v).ref = d.ref := rfl
@[simp] theorem Dev.wr_sap (d : Dev) (f : Fld) (v : Nat) : (d.wr f v).sap = d.sap := rfl
@[simp] theorem Dev.wr_sapTable (d : Dev) (f : Fld) (v : Nat) : (d.wr f v).sapTable = d.sapTable := rfl
@[simp] theorem Dev.wr_tim (d : Dev) (f : Fld) (v : Nat) : (d.wr f v).tim = d.tim := rfl
@[simp] theorem Dev.wr_boot (d : Dev) (f : Fld) (v : Nat) : (d.wr f v).boot = d.boot := rfl
@[simp] theorem Dev.wr_pwr (d : Dev) (f : Fld) (v : Nat) : (d.wr f v).pwr = d.pwr := rfl
@[simp] theorem Dev.wr_age (d : Dev) (f : Fld) (v : Nat) : (d.wr f v).age = d.age := rfl
@[simp] theorem Dev.wr_hif (d : Dev) (f : Fld) (v : Nat) : (d.wr f v).hif = d.hif := rfl

/-! ### flag -/

@[simp] theorem Dev.flag_shadow (d : Dev) (f : Fld) : (d.flag f).shadow = d.shadow := rfl
@[simp] theorem Dev.flag_fab (d : Dev) (f : Fld) : (d.flag f).fab = d.fab := rfl
@[simp] theorem Dev.flag_evq (d : Dev) (f : Fld) : (d.flag f).evq = d.evq := rfl
@[simp] theorem Dev.flag_intr (d : Dev) (f : Fld) : (d.flag f).intr = d.intr := rfl
@[simp] theorem Dev.flag_tick (d : Dev) (f : Fld) : (d.flag f).tick = d.tick := rfl
@[simp] theorem Dev.flag_ns (d : Dev) (f : Fld) : (d.flag f).ns = d.ns := rfl
@[simp] theorem Dev.flag_free (d : Dev) (f : Fld) : (d.flag f).free = d.free := rfl
@[simp] theorem Dev.flag_sch (d : Dev) (f : Fld) : (d.flag f).sch = d.sch := rfl
@[simp] theorem Dev.flag_eng (d : Dev) (f : Fld) : (d.flag f).eng = d.eng := rfl
@[simp] theorem Dev.flag_mem (d : Dev) (f : Fld) : (d.flag f).mem = d.mem := rfl
@[simp] theorem Dev.flag_hrt (d : Dev) (f : Fld) : (d.flag f).hrt = d.hrt := rfl
@[simp] theorem Dev.flag_alm (d : Dev) (f : Fld) : (d.flag f).alm = d.alm := rfl
@[simp] theorem Dev.flag_sup (d : Dev) (f : Fld) : (d.flag f).sup = d.sup := rfl
@[simp] theorem Dev.flag_dump (d : Dev) (f : Fld) : (d.flag f).dump = d.dump := rfl
@[simp] theorem Dev.flag_tdm (d : Dev) (f : Fld) : (d.flag f).tdm = d.tdm := rfl
@[simp] theorem Dev.flag_syn (d : Dev) (f : Fld) : (d.flag f).syn = d.syn := rfl
@[simp] theorem Dev.flag_flw (d : Dev) (f : Fld) : (d.flag f).flw = d.flw := rfl
@[simp] theorem Dev.flag_mac0 (d : Dev) (f : Fld) : (d.flag f).mac0 = d.mac0 := rfl
@[simp] theorem Dev.flag_mac1 (d : Dev) (f : Fld) : (d.flag f).mac1 = d.mac1 := rfl
@[simp] theorem Dev.flag_ptp (d : Dev) (f : Fld) : (d.flag f).ptp = d.ptp := rfl
@[simp] theorem Dev.flag_ref (d : Dev) (f : Fld) : (d.flag f).ref = d.ref := rfl
@[simp] theorem Dev.flag_sap (d : Dev) (f : Fld) : (d.flag f).sap = d.sap := rfl
@[simp] theorem Dev.flag_sapTable (d : Dev) (f : Fld) : (d.flag f).sapTable = d.sapTable := rfl
@[simp] theorem Dev.flag_tim (d : Dev) (f : Fld) : (d.flag f).tim = d.tim := rfl
@[simp] theorem Dev.flag_boot (d : Dev) (f : Fld) : (d.flag f).boot = d.boot := rfl
@[simp] theorem Dev.flag_pwr (d : Dev) (f : Fld) : (d.flag f).pwr = d.pwr := rfl
@[simp] theorem Dev.flag_age (d : Dev) (f : Fld) : (d.flag f).age = d.age := rfl
@[simp] theorem Dev.flag_hif (d : Dev) (f : Fld) : (d.flag f).hif = d.hif := rfl

/-! ### setShadow -/

@[simp] theorem Dev.setShadow_live (d : Dev) (a : Nat) (w : Word) : (d.setShadow a w).live = d.live := rfl
@[simp] theorem Dev.setShadow_fab (d : Dev) (a : Nat) (w : Word) : (d.setShadow a w).fab = d.fab := rfl
@[simp] theorem Dev.setShadow_evq (d : Dev) (a : Nat) (w : Word) : (d.setShadow a w).evq = d.evq := rfl
@[simp] theorem Dev.setShadow_intr (d : Dev) (a : Nat) (w : Word) : (d.setShadow a w).intr = d.intr := rfl
@[simp] theorem Dev.setShadow_tick (d : Dev) (a : Nat) (w : Word) : (d.setShadow a w).tick = d.tick := rfl
@[simp] theorem Dev.setShadow_ns (d : Dev) (a : Nat) (w : Word) : (d.setShadow a w).ns = d.ns := rfl
@[simp] theorem Dev.setShadow_free (d : Dev) (a : Nat) (w : Word) : (d.setShadow a w).free = d.free := rfl
@[simp] theorem Dev.setShadow_sch (d : Dev) (a : Nat) (w : Word) : (d.setShadow a w).sch = d.sch := rfl
@[simp] theorem Dev.setShadow_eng (d : Dev) (a : Nat) (w : Word) : (d.setShadow a w).eng = d.eng := rfl
@[simp] theorem Dev.setShadow_mem (d : Dev) (a : Nat) (w : Word) : (d.setShadow a w).mem = d.mem := rfl
@[simp] theorem Dev.setShadow_hrt (d : Dev) (a : Nat) (w : Word) : (d.setShadow a w).hrt = d.hrt := rfl
@[simp] theorem Dev.setShadow_alm (d : Dev) (a : Nat) (w : Word) : (d.setShadow a w).alm = d.alm := rfl
@[simp] theorem Dev.setShadow_sup (d : Dev) (a : Nat) (w : Word) : (d.setShadow a w).sup = d.sup := rfl
@[simp] theorem Dev.setShadow_dump (d : Dev) (a : Nat) (w : Word) : (d.setShadow a w).dump = d.dump := rfl
@[simp] theorem Dev.setShadow_tdm (d : Dev) (a : Nat) (w : Word) : (d.setShadow a w).tdm = d.tdm := rfl
@[simp] theorem Dev.setShadow_syn (d : Dev) (a : Nat) (w : Word) : (d.setShadow a w).syn = d.syn := rfl
@[simp] theorem Dev.setShadow_flw (d : Dev) (a : Nat) (w : Word) : (d.setShadow a w).flw = d.flw := rfl
@[simp] theorem Dev.setShadow_mac0 (d : Dev) (a : Nat) (w : Word) : (d.setShadow a w).mac0 = d.mac0 := rfl
@[simp] theorem Dev.setShadow_mac1 (d : Dev) (a : Nat) (w : Word) : (d.setShadow a w).mac1 = d.mac1 := rfl
@[simp] theorem Dev.setShadow_ptp (d : Dev) (a : Nat) (w : Word) : (d.setShadow a w).ptp = d.ptp := rfl
@[simp] theorem Dev.setShadow_ref (d : Dev) (a : Nat) (w : Word) : (d.setShadow a w).ref = d.ref := rfl
@[simp] theorem Dev.setShadow_sap (d : Dev) (a : Nat) (w : Word) : (d.setShadow a w).sap = d.sap := rfl
@[simp] theorem Dev.setShadow_sapTable (d : Dev) (a : Nat) (w : Word) : (d.setShadow a w).sapTable = d.sapTable := rfl
@[simp] theorem Dev.setShadow_tim (d : Dev) (a : Nat) (w : Word) : (d.setShadow a w).tim = d.tim := rfl
@[simp] theorem Dev.setShadow_boot (d : Dev) (a : Nat) (w : Word) : (d.setShadow a w).boot = d.boot := rfl
@[simp] theorem Dev.setShadow_pwr (d : Dev) (a : Nat) (w : Word) : (d.setShadow a w).pwr = d.pwr := rfl
@[simp] theorem Dev.setShadow_age (d : Dev) (a : Nat) (w : Word) : (d.setShadow a w).age = d.age := rfl
@[simp] theorem Dev.setShadow_hif (d : Dev) (a : Nat) (w : Word) : (d.setShadow a w).hif = d.hif := rfl

/-! ### wrShadow -/

@[simp] theorem Dev.wrShadow_live (d : Dev) (f : Fld) (v : Nat) : (d.wrShadow f v).live = d.live := rfl
@[simp] theorem Dev.wrShadow_fab (d : Dev) (f : Fld) (v : Nat) : (d.wrShadow f v).fab = d.fab := rfl
@[simp] theorem Dev.wrShadow_evq (d : Dev) (f : Fld) (v : Nat) : (d.wrShadow f v).evq = d.evq := rfl
@[simp] theorem Dev.wrShadow_intr (d : Dev) (f : Fld) (v : Nat) : (d.wrShadow f v).intr = d.intr := rfl
@[simp] theorem Dev.wrShadow_tick (d : Dev) (f : Fld) (v : Nat) : (d.wrShadow f v).tick = d.tick := rfl
@[simp] theorem Dev.wrShadow_ns (d : Dev) (f : Fld) (v : Nat) : (d.wrShadow f v).ns = d.ns := rfl
@[simp] theorem Dev.wrShadow_free (d : Dev) (f : Fld) (v : Nat) : (d.wrShadow f v).free = d.free := rfl
@[simp] theorem Dev.wrShadow_sch (d : Dev) (f : Fld) (v : Nat) : (d.wrShadow f v).sch = d.sch := rfl
@[simp] theorem Dev.wrShadow_eng (d : Dev) (f : Fld) (v : Nat) : (d.wrShadow f v).eng = d.eng := rfl
@[simp] theorem Dev.wrShadow_mem (d : Dev) (f : Fld) (v : Nat) : (d.wrShadow f v).mem = d.mem := rfl
@[simp] theorem Dev.wrShadow_hrt (d : Dev) (f : Fld) (v : Nat) : (d.wrShadow f v).hrt = d.hrt := rfl
@[simp] theorem Dev.wrShadow_alm (d : Dev) (f : Fld) (v : Nat) : (d.wrShadow f v).alm = d.alm := rfl
@[simp] theorem Dev.wrShadow_sup (d : Dev) (f : Fld) (v : Nat) : (d.wrShadow f v).sup = d.sup := rfl
@[simp] theorem Dev.wrShadow_dump (d : Dev) (f : Fld) (v : Nat) : (d.wrShadow f v).dump = d.dump := rfl
@[simp] theorem Dev.wrShadow_tdm (d : Dev) (f : Fld) (v : Nat) : (d.wrShadow f v).tdm = d.tdm := rfl
@[simp] theorem Dev.wrShadow_syn (d : Dev) (f : Fld) (v : Nat) : (d.wrShadow f v).syn = d.syn := rfl
@[simp] theorem Dev.wrShadow_flw (d : Dev) (f : Fld) (v : Nat) : (d.wrShadow f v).flw = d.flw := rfl
@[simp] theorem Dev.wrShadow_mac0 (d : Dev) (f : Fld) (v : Nat) : (d.wrShadow f v).mac0 = d.mac0 := rfl
@[simp] theorem Dev.wrShadow_mac1 (d : Dev) (f : Fld) (v : Nat) : (d.wrShadow f v).mac1 = d.mac1 := rfl
@[simp] theorem Dev.wrShadow_ptp (d : Dev) (f : Fld) (v : Nat) : (d.wrShadow f v).ptp = d.ptp := rfl
@[simp] theorem Dev.wrShadow_ref (d : Dev) (f : Fld) (v : Nat) : (d.wrShadow f v).ref = d.ref := rfl
@[simp] theorem Dev.wrShadow_sap (d : Dev) (f : Fld) (v : Nat) : (d.wrShadow f v).sap = d.sap := rfl
@[simp] theorem Dev.wrShadow_sapTable (d : Dev) (f : Fld) (v : Nat) : (d.wrShadow f v).sapTable = d.sapTable := rfl
@[simp] theorem Dev.wrShadow_tim (d : Dev) (f : Fld) (v : Nat) : (d.wrShadow f v).tim = d.tim := rfl
@[simp] theorem Dev.wrShadow_boot (d : Dev) (f : Fld) (v : Nat) : (d.wrShadow f v).boot = d.boot := rfl
@[simp] theorem Dev.wrShadow_pwr (d : Dev) (f : Fld) (v : Nat) : (d.wrShadow f v).pwr = d.pwr := rfl
@[simp] theorem Dev.wrShadow_age (d : Dev) (f : Fld) (v : Nat) : (d.wrShadow f v).age = d.age := rfl
@[simp] theorem Dev.wrShadow_hif (d : Dev) (f : Fld) (v : Nat) : (d.wrShadow f v).hif = d.hif := rfl

/-! ### wrBoth -/

@[simp] theorem Dev.wrBoth_fab (d : Dev) (f : Fld) (v : Nat) : (d.wrBoth f v).fab = d.fab := rfl
@[simp] theorem Dev.wrBoth_evq (d : Dev) (f : Fld) (v : Nat) : (d.wrBoth f v).evq = d.evq := rfl
@[simp] theorem Dev.wrBoth_intr (d : Dev) (f : Fld) (v : Nat) : (d.wrBoth f v).intr = d.intr := rfl
@[simp] theorem Dev.wrBoth_tick (d : Dev) (f : Fld) (v : Nat) : (d.wrBoth f v).tick = d.tick := rfl
@[simp] theorem Dev.wrBoth_ns (d : Dev) (f : Fld) (v : Nat) : (d.wrBoth f v).ns = d.ns := rfl
@[simp] theorem Dev.wrBoth_free (d : Dev) (f : Fld) (v : Nat) : (d.wrBoth f v).free = d.free := rfl
@[simp] theorem Dev.wrBoth_sch (d : Dev) (f : Fld) (v : Nat) : (d.wrBoth f v).sch = d.sch := rfl
@[simp] theorem Dev.wrBoth_eng (d : Dev) (f : Fld) (v : Nat) : (d.wrBoth f v).eng = d.eng := rfl
@[simp] theorem Dev.wrBoth_mem (d : Dev) (f : Fld) (v : Nat) : (d.wrBoth f v).mem = d.mem := rfl
@[simp] theorem Dev.wrBoth_hrt (d : Dev) (f : Fld) (v : Nat) : (d.wrBoth f v).hrt = d.hrt := rfl
@[simp] theorem Dev.wrBoth_alm (d : Dev) (f : Fld) (v : Nat) : (d.wrBoth f v).alm = d.alm := rfl
@[simp] theorem Dev.wrBoth_sup (d : Dev) (f : Fld) (v : Nat) : (d.wrBoth f v).sup = d.sup := rfl
@[simp] theorem Dev.wrBoth_dump (d : Dev) (f : Fld) (v : Nat) : (d.wrBoth f v).dump = d.dump := rfl
@[simp] theorem Dev.wrBoth_tdm (d : Dev) (f : Fld) (v : Nat) : (d.wrBoth f v).tdm = d.tdm := rfl
@[simp] theorem Dev.wrBoth_syn (d : Dev) (f : Fld) (v : Nat) : (d.wrBoth f v).syn = d.syn := rfl
@[simp] theorem Dev.wrBoth_flw (d : Dev) (f : Fld) (v : Nat) : (d.wrBoth f v).flw = d.flw := rfl
@[simp] theorem Dev.wrBoth_mac0 (d : Dev) (f : Fld) (v : Nat) : (d.wrBoth f v).mac0 = d.mac0 := rfl
@[simp] theorem Dev.wrBoth_mac1 (d : Dev) (f : Fld) (v : Nat) : (d.wrBoth f v).mac1 = d.mac1 := rfl
@[simp] theorem Dev.wrBoth_ptp (d : Dev) (f : Fld) (v : Nat) : (d.wrBoth f v).ptp = d.ptp := rfl
@[simp] theorem Dev.wrBoth_ref (d : Dev) (f : Fld) (v : Nat) : (d.wrBoth f v).ref = d.ref := rfl
@[simp] theorem Dev.wrBoth_sap (d : Dev) (f : Fld) (v : Nat) : (d.wrBoth f v).sap = d.sap := rfl
@[simp] theorem Dev.wrBoth_sapTable (d : Dev) (f : Fld) (v : Nat) : (d.wrBoth f v).sapTable = d.sapTable := rfl
@[simp] theorem Dev.wrBoth_tim (d : Dev) (f : Fld) (v : Nat) : (d.wrBoth f v).tim = d.tim := rfl
@[simp] theorem Dev.wrBoth_boot (d : Dev) (f : Fld) (v : Nat) : (d.wrBoth f v).boot = d.boot := rfl
@[simp] theorem Dev.wrBoth_pwr (d : Dev) (f : Fld) (v : Nat) : (d.wrBoth f v).pwr = d.pwr := rfl
@[simp] theorem Dev.wrBoth_age (d : Dev) (f : Fld) (v : Nat) : (d.wrBoth f v).age = d.age := rfl
@[simp] theorem Dev.wrBoth_hif (d : Dev) (f : Fld) (v : Nat) : (d.wrBoth f v).hif = d.hif := rfl

/-! ### post -/

@[simp] theorem Dev.post_live (d : Dev) (src code arg : Nat) : (d.post src code arg).live = d.live := rfl
@[simp] theorem Dev.post_shadow (d : Dev) (src code arg : Nat) : (d.post src code arg).shadow = d.shadow := rfl
@[simp] theorem Dev.post_fab (d : Dev) (src code arg : Nat) : (d.post src code arg).fab = d.fab := rfl
@[simp] theorem Dev.post_intr (d : Dev) (src code arg : Nat) : (d.post src code arg).intr = d.intr := rfl
@[simp] theorem Dev.post_tick (d : Dev) (src code arg : Nat) : (d.post src code arg).tick = d.tick := rfl
@[simp] theorem Dev.post_ns (d : Dev) (src code arg : Nat) : (d.post src code arg).ns = d.ns := rfl
@[simp] theorem Dev.post_free (d : Dev) (src code arg : Nat) : (d.post src code arg).free = d.free := rfl
@[simp] theorem Dev.post_sch (d : Dev) (src code arg : Nat) : (d.post src code arg).sch = d.sch := rfl
@[simp] theorem Dev.post_eng (d : Dev) (src code arg : Nat) : (d.post src code arg).eng = d.eng := rfl
@[simp] theorem Dev.post_mem (d : Dev) (src code arg : Nat) : (d.post src code arg).mem = d.mem := rfl
@[simp] theorem Dev.post_hrt (d : Dev) (src code arg : Nat) : (d.post src code arg).hrt = d.hrt := rfl
@[simp] theorem Dev.post_alm (d : Dev) (src code arg : Nat) : (d.post src code arg).alm = d.alm := rfl
@[simp] theorem Dev.post_sup (d : Dev) (src code arg : Nat) : (d.post src code arg).sup = d.sup := rfl
@[simp] theorem Dev.post_dump (d : Dev) (src code arg : Nat) : (d.post src code arg).dump = d.dump := rfl
@[simp] theorem Dev.post_tdm (d : Dev) (src code arg : Nat) : (d.post src code arg).tdm = d.tdm := rfl
@[simp] theorem Dev.post_syn (d : Dev) (src code arg : Nat) : (d.post src code arg).syn = d.syn := rfl
@[simp] theorem Dev.post_flw (d : Dev) (src code arg : Nat) : (d.post src code arg).flw = d.flw := rfl
@[simp] theorem Dev.post_mac0 (d : Dev) (src code arg : Nat) : (d.post src code arg).mac0 = d.mac0 := rfl
@[simp] theorem Dev.post_mac1 (d : Dev) (src code arg : Nat) : (d.post src code arg).mac1 = d.mac1 := rfl
@[simp] theorem Dev.post_ptp (d : Dev) (src code arg : Nat) : (d.post src code arg).ptp = d.ptp := rfl
@[simp] theorem Dev.post_ref (d : Dev) (src code arg : Nat) : (d.post src code arg).ref = d.ref := rfl
@[simp] theorem Dev.post_sap (d : Dev) (src code arg : Nat) : (d.post src code arg).sap = d.sap := rfl
@[simp] theorem Dev.post_sapTable (d : Dev) (src code arg : Nat) : (d.post src code arg).sapTable = d.sapTable := rfl
@[simp] theorem Dev.post_tim (d : Dev) (src code arg : Nat) : (d.post src code arg).tim = d.tim := rfl
@[simp] theorem Dev.post_boot (d : Dev) (src code arg : Nat) : (d.post src code arg).boot = d.boot := rfl
@[simp] theorem Dev.post_pwr (d : Dev) (src code arg : Nat) : (d.post src code arg).pwr = d.pwr := rfl
@[simp] theorem Dev.post_age (d : Dev) (src code arg : Nat) : (d.post src code arg).age = d.age := rfl
@[simp] theorem Dev.post_hif (d : Dev) (src code arg : Nat) : (d.post src code arg).hif = d.hif := rfl

/-! ### at -/

@[simp] theorem Dev.at_live (d : Dev) (ns : Nat) : (d.at ns).live = d.live := rfl
@[simp] theorem Dev.at_shadow (d : Dev) (ns : Nat) : (d.at ns).shadow = d.shadow := rfl
@[simp] theorem Dev.at_fab (d : Dev) (ns : Nat) : (d.at ns).fab = d.fab := rfl
@[simp] theorem Dev.at_evq (d : Dev) (ns : Nat) : (d.at ns).evq = d.evq := rfl
@[simp] theorem Dev.at_intr (d : Dev) (ns : Nat) : (d.at ns).intr = d.intr := rfl
@[simp] theorem Dev.at_tick (d : Dev) (ns : Nat) : (d.at ns).tick = d.tick := rfl
@[simp] theorem Dev.at_free (d : Dev) (ns : Nat) : (d.at ns).free = d.free := rfl
@[simp] theorem Dev.at_sch (d : Dev) (ns : Nat) : (d.at ns).sch = d.sch := rfl
@[simp] theorem Dev.at_eng (d : Dev) (ns : Nat) : (d.at ns).eng = d.eng := rfl
@[simp] theorem Dev.at_mem (d : Dev) (ns : Nat) : (d.at ns).mem = d.mem := rfl
@[simp] theorem Dev.at_hrt (d : Dev) (ns : Nat) : (d.at ns).hrt = d.hrt := rfl
@[simp] theorem Dev.at_alm (d : Dev) (ns : Nat) : (d.at ns).alm = d.alm := rfl
@[simp] theorem Dev.at_sup (d : Dev) (ns : Nat) : (d.at ns).sup = d.sup := rfl
@[simp] theorem Dev.at_dump (d : Dev) (ns : Nat) : (d.at ns).dump = d.dump := rfl
@[simp] theorem Dev.at_tdm (d : Dev) (ns : Nat) : (d.at ns).tdm = d.tdm := rfl
@[simp] theorem Dev.at_syn (d : Dev) (ns : Nat) : (d.at ns).syn = d.syn := rfl
@[simp] theorem Dev.at_flw (d : Dev) (ns : Nat) : (d.at ns).flw = d.flw := rfl
@[simp] theorem Dev.at_mac0 (d : Dev) (ns : Nat) : (d.at ns).mac0 = d.mac0 := rfl
@[simp] theorem Dev.at_mac1 (d : Dev) (ns : Nat) : (d.at ns).mac1 = d.mac1 := rfl
@[simp] theorem Dev.at_ptp (d : Dev) (ns : Nat) : (d.at ns).ptp = d.ptp := rfl
@[simp] theorem Dev.at_ref (d : Dev) (ns : Nat) : (d.at ns).ref = d.ref := rfl
@[simp] theorem Dev.at_sap (d : Dev) (ns : Nat) : (d.at ns).sap = d.sap := rfl
@[simp] theorem Dev.at_sapTable (d : Dev) (ns : Nat) : (d.at ns).sapTable = d.sapTable := rfl
@[simp] theorem Dev.at_tim (d : Dev) (ns : Nat) : (d.at ns).tim = d.tim := rfl
@[simp] theorem Dev.at_boot (d : Dev) (ns : Nat) : (d.at ns).boot = d.boot := rfl
@[simp] theorem Dev.at_pwr (d : Dev) (ns : Nat) : (d.at ns).pwr = d.pwr := rfl
@[simp] theorem Dev.at_age (d : Dev) (ns : Nat) : (d.at ns).age = d.age := rfl
@[simp] theorem Dev.at_hif (d : Dev) (ns : Nat) : (d.at ns).hif = d.hif := rfl

/-! ### setEn -/

@[simp] theorem Dev.setEn_live (d : Dev) (e : Nat) (g : EngS) : (d.setEn e g).live = d.live := rfl
@[simp] theorem Dev.setEn_shadow (d : Dev) (e : Nat) (g : EngS) : (d.setEn e g).shadow = d.shadow := rfl
@[simp] theorem Dev.setEn_fab (d : Dev) (e : Nat) (g : EngS) : (d.setEn e g).fab = d.fab := rfl
@[simp] theorem Dev.setEn_evq (d : Dev) (e : Nat) (g : EngS) : (d.setEn e g).evq = d.evq := rfl
@[simp] theorem Dev.setEn_intr (d : Dev) (e : Nat) (g : EngS) : (d.setEn e g).intr = d.intr := rfl
@[simp] theorem Dev.setEn_tick (d : Dev) (e : Nat) (g : EngS) : (d.setEn e g).tick = d.tick := rfl
@[simp] theorem Dev.setEn_ns (d : Dev) (e : Nat) (g : EngS) : (d.setEn e g).ns = d.ns := rfl
@[simp] theorem Dev.setEn_free (d : Dev) (e : Nat) (g : EngS) : (d.setEn e g).free = d.free := rfl
@[simp] theorem Dev.setEn_sch (d : Dev) (e : Nat) (g : EngS) : (d.setEn e g).sch = d.sch := rfl
@[simp] theorem Dev.setEn_mem (d : Dev) (e : Nat) (g : EngS) : (d.setEn e g).mem = d.mem := rfl
@[simp] theorem Dev.setEn_hrt (d : Dev) (e : Nat) (g : EngS) : (d.setEn e g).hrt = d.hrt := rfl
@[simp] theorem Dev.setEn_alm (d : Dev) (e : Nat) (g : EngS) : (d.setEn e g).alm = d.alm := rfl
@[simp] theorem Dev.setEn_sup (d : Dev) (e : Nat) (g : EngS) : (d.setEn e g).sup = d.sup := rfl
@[simp] theorem Dev.setEn_dump (d : Dev) (e : Nat) (g : EngS) : (d.setEn e g).dump = d.dump := rfl
@[simp] theorem Dev.setEn_tdm (d : Dev) (e : Nat) (g : EngS) : (d.setEn e g).tdm = d.tdm := rfl
@[simp] theorem Dev.setEn_syn (d : Dev) (e : Nat) (g : EngS) : (d.setEn e g).syn = d.syn := rfl
@[simp] theorem Dev.setEn_flw (d : Dev) (e : Nat) (g : EngS) : (d.setEn e g).flw = d.flw := rfl
@[simp] theorem Dev.setEn_mac0 (d : Dev) (e : Nat) (g : EngS) : (d.setEn e g).mac0 = d.mac0 := rfl
@[simp] theorem Dev.setEn_mac1 (d : Dev) (e : Nat) (g : EngS) : (d.setEn e g).mac1 = d.mac1 := rfl
@[simp] theorem Dev.setEn_ptp (d : Dev) (e : Nat) (g : EngS) : (d.setEn e g).ptp = d.ptp := rfl
@[simp] theorem Dev.setEn_ref (d : Dev) (e : Nat) (g : EngS) : (d.setEn e g).ref = d.ref := rfl
@[simp] theorem Dev.setEn_sap (d : Dev) (e : Nat) (g : EngS) : (d.setEn e g).sap = d.sap := rfl
@[simp] theorem Dev.setEn_sapTable (d : Dev) (e : Nat) (g : EngS) : (d.setEn e g).sapTable = d.sapTable := rfl
@[simp] theorem Dev.setEn_tim (d : Dev) (e : Nat) (g : EngS) : (d.setEn e g).tim = d.tim := rfl
@[simp] theorem Dev.setEn_boot (d : Dev) (e : Nat) (g : EngS) : (d.setEn e g).boot = d.boot := rfl
@[simp] theorem Dev.setEn_pwr (d : Dev) (e : Nat) (g : EngS) : (d.setEn e g).pwr = d.pwr := rfl
@[simp] theorem Dev.setEn_age (d : Dev) (e : Nat) (g : EngS) : (d.setEn e g).age = d.age := rfl
@[simp] theorem Dev.setEn_hif (d : Dev) (e : Nat) (g : EngS) : (d.setEn e g).hif = d.hif := rfl

/-! ### modEn -/

@[simp] theorem Dev.modEn_live (d : Dev) (e : Nat) (f : EngS → EngS) : (d.modEn e f).live = d.live := rfl
@[simp] theorem Dev.modEn_shadow (d : Dev) (e : Nat) (f : EngS → EngS) : (d.modEn e f).shadow = d.shadow := rfl
@[simp] theorem Dev.modEn_fab (d : Dev) (e : Nat) (f : EngS → EngS) : (d.modEn e f).fab = d.fab := rfl
@[simp] theorem Dev.modEn_evq (d : Dev) (e : Nat) (f : EngS → EngS) : (d.modEn e f).evq = d.evq := rfl
@[simp] theorem Dev.modEn_intr (d : Dev) (e : Nat) (f : EngS → EngS) : (d.modEn e f).intr = d.intr := rfl
@[simp] theorem Dev.modEn_tick (d : Dev) (e : Nat) (f : EngS → EngS) : (d.modEn e f).tick = d.tick := rfl
@[simp] theorem Dev.modEn_ns (d : Dev) (e : Nat) (f : EngS → EngS) : (d.modEn e f).ns = d.ns := rfl
@[simp] theorem Dev.modEn_free (d : Dev) (e : Nat) (f : EngS → EngS) : (d.modEn e f).free = d.free := rfl
@[simp] theorem Dev.modEn_sch (d : Dev) (e : Nat) (f : EngS → EngS) : (d.modEn e f).sch = d.sch := rfl
@[simp] theorem Dev.modEn_mem (d : Dev) (e : Nat) (f : EngS → EngS) : (d.modEn e f).mem = d.mem := rfl
@[simp] theorem Dev.modEn_hrt (d : Dev) (e : Nat) (f : EngS → EngS) : (d.modEn e f).hrt = d.hrt := rfl
@[simp] theorem Dev.modEn_alm (d : Dev) (e : Nat) (f : EngS → EngS) : (d.modEn e f).alm = d.alm := rfl
@[simp] theorem Dev.modEn_sup (d : Dev) (e : Nat) (f : EngS → EngS) : (d.modEn e f).sup = d.sup := rfl
@[simp] theorem Dev.modEn_dump (d : Dev) (e : Nat) (f : EngS → EngS) : (d.modEn e f).dump = d.dump := rfl
@[simp] theorem Dev.modEn_tdm (d : Dev) (e : Nat) (f : EngS → EngS) : (d.modEn e f).tdm = d.tdm := rfl
@[simp] theorem Dev.modEn_syn (d : Dev) (e : Nat) (f : EngS → EngS) : (d.modEn e f).syn = d.syn := rfl
@[simp] theorem Dev.modEn_flw (d : Dev) (e : Nat) (f : EngS → EngS) : (d.modEn e f).flw = d.flw := rfl
@[simp] theorem Dev.modEn_mac0 (d : Dev) (e : Nat) (f : EngS → EngS) : (d.modEn e f).mac0 = d.mac0 := rfl
@[simp] theorem Dev.modEn_mac1 (d : Dev) (e : Nat) (f : EngS → EngS) : (d.modEn e f).mac1 = d.mac1 := rfl
@[simp] theorem Dev.modEn_ptp (d : Dev) (e : Nat) (f : EngS → EngS) : (d.modEn e f).ptp = d.ptp := rfl
@[simp] theorem Dev.modEn_ref (d : Dev) (e : Nat) (f : EngS → EngS) : (d.modEn e f).ref = d.ref := rfl
@[simp] theorem Dev.modEn_sap (d : Dev) (e : Nat) (f : EngS → EngS) : (d.modEn e f).sap = d.sap := rfl
@[simp] theorem Dev.modEn_sapTable (d : Dev) (e : Nat) (f : EngS → EngS) : (d.modEn e f).sapTable = d.sapTable := rfl
@[simp] theorem Dev.modEn_tim (d : Dev) (e : Nat) (f : EngS → EngS) : (d.modEn e f).tim = d.tim := rfl
@[simp] theorem Dev.modEn_boot (d : Dev) (e : Nat) (f : EngS → EngS) : (d.modEn e f).boot = d.boot := rfl
@[simp] theorem Dev.modEn_pwr (d : Dev) (e : Nat) (f : EngS → EngS) : (d.modEn e f).pwr = d.pwr := rfl
@[simp] theorem Dev.modEn_age (d : Dev) (e : Nat) (f : EngS → EngS) : (d.modEn e f).age = d.age := rfl
@[simp] theorem Dev.modEn_hif (d : Dev) (e : Nat) (f : EngS → EngS) : (d.modEn e f).hif = d.hif := rfl

/-! ### settleIntr -/

@[simp] theorem Dev.settleIntr_live (d : Dev) : (d.settleIntr).live = d.live := rfl
@[simp] theorem Dev.settleIntr_shadow (d : Dev) : (d.settleIntr).shadow = d.shadow := rfl
@[simp] theorem Dev.settleIntr_fab (d : Dev) : (d.settleIntr).fab = d.fab := rfl
@[simp] theorem Dev.settleIntr_evq (d : Dev) : (d.settleIntr).evq = d.evq := rfl
@[simp] theorem Dev.settleIntr_tick (d : Dev) : (d.settleIntr).tick = d.tick := rfl
@[simp] theorem Dev.settleIntr_ns (d : Dev) : (d.settleIntr).ns = d.ns := rfl
@[simp] theorem Dev.settleIntr_free (d : Dev) : (d.settleIntr).free = d.free := rfl
@[simp] theorem Dev.settleIntr_sch (d : Dev) : (d.settleIntr).sch = d.sch := rfl
@[simp] theorem Dev.settleIntr_eng (d : Dev) : (d.settleIntr).eng = d.eng := rfl
@[simp] theorem Dev.settleIntr_mem (d : Dev) : (d.settleIntr).mem = d.mem := rfl
@[simp] theorem Dev.settleIntr_hrt (d : Dev) : (d.settleIntr).hrt = d.hrt := rfl
@[simp] theorem Dev.settleIntr_alm (d : Dev) : (d.settleIntr).alm = d.alm := rfl
@[simp] theorem Dev.settleIntr_sup (d : Dev) : (d.settleIntr).sup = d.sup := rfl
@[simp] theorem Dev.settleIntr_dump (d : Dev) : (d.settleIntr).dump = d.dump := rfl
@[simp] theorem Dev.settleIntr_tdm (d : Dev) : (d.settleIntr).tdm = d.tdm := rfl
@[simp] theorem Dev.settleIntr_syn (d : Dev) : (d.settleIntr).syn = d.syn := rfl
@[simp] theorem Dev.settleIntr_flw (d : Dev) : (d.settleIntr).flw = d.flw := rfl
@[simp] theorem Dev.settleIntr_mac0 (d : Dev) : (d.settleIntr).mac0 = d.mac0 := rfl
@[simp] theorem Dev.settleIntr_mac1 (d : Dev) : (d.settleIntr).mac1 = d.mac1 := rfl
@[simp] theorem Dev.settleIntr_ptp (d : Dev) : (d.settleIntr).ptp = d.ptp := rfl
@[simp] theorem Dev.settleIntr_ref (d : Dev) : (d.settleIntr).ref = d.ref := rfl
@[simp] theorem Dev.settleIntr_sap (d : Dev) : (d.settleIntr).sap = d.sap := rfl
@[simp] theorem Dev.settleIntr_sapTable (d : Dev) : (d.settleIntr).sapTable = d.sapTable := rfl
@[simp] theorem Dev.settleIntr_tim (d : Dev) : (d.settleIntr).tim = d.tim := rfl
@[simp] theorem Dev.settleIntr_boot (d : Dev) : (d.settleIntr).boot = d.boot := rfl
@[simp] theorem Dev.settleIntr_pwr (d : Dev) : (d.settleIntr).pwr = d.pwr := rfl
@[simp] theorem Dev.settleIntr_age (d : Dev) : (d.settleIntr).age = d.age := rfl
@[simp] theorem Dev.settleIntr_hif (d : Dev) : (d.settleIntr).hif = d.hif := rfl

/-! ### settle -/

@[simp] theorem Dev.settle_live (d : Dev) : (d.settle).live = d.live := rfl
@[simp] theorem Dev.settle_shadow (d : Dev) : (d.settle).shadow = d.shadow := rfl
@[simp] theorem Dev.settle_fab (d : Dev) : (d.settle).fab = d.fab := rfl
@[simp] theorem Dev.settle_tick (d : Dev) : (d.settle).tick = d.tick := rfl
@[simp] theorem Dev.settle_ns (d : Dev) : (d.settle).ns = d.ns := rfl
@[simp] theorem Dev.settle_free (d : Dev) : (d.settle).free = d.free := rfl
@[simp] theorem Dev.settle_sch (d : Dev) : (d.settle).sch = d.sch := rfl
@[simp] theorem Dev.settle_eng (d : Dev) : (d.settle).eng = d.eng := rfl
@[simp] theorem Dev.settle_mem (d : Dev) : (d.settle).mem = d.mem := rfl
@[simp] theorem Dev.settle_hrt (d : Dev) : (d.settle).hrt = d.hrt := rfl
@[simp] theorem Dev.settle_alm (d : Dev) : (d.settle).alm = d.alm := rfl
@[simp] theorem Dev.settle_sup (d : Dev) : (d.settle).sup = d.sup := rfl
@[simp] theorem Dev.settle_dump (d : Dev) : (d.settle).dump = d.dump := rfl
@[simp] theorem Dev.settle_tdm (d : Dev) : (d.settle).tdm = d.tdm := rfl
@[simp] theorem Dev.settle_syn (d : Dev) : (d.settle).syn = d.syn := rfl
@[simp] theorem Dev.settle_flw (d : Dev) : (d.settle).flw = d.flw := rfl
@[simp] theorem Dev.settle_mac0 (d : Dev) : (d.settle).mac0 = d.mac0 := rfl
@[simp] theorem Dev.settle_mac1 (d : Dev) : (d.settle).mac1 = d.mac1 := rfl
@[simp] theorem Dev.settle_ptp (d : Dev) : (d.settle).ptp = d.ptp := rfl
@[simp] theorem Dev.settle_ref (d : Dev) : (d.settle).ref = d.ref := rfl
@[simp] theorem Dev.settle_sap (d : Dev) : (d.settle).sap = d.sap := rfl
@[simp] theorem Dev.settle_sapTable (d : Dev) : (d.settle).sapTable = d.sapTable := rfl
@[simp] theorem Dev.settle_tim (d : Dev) : (d.settle).tim = d.tim := rfl
@[simp] theorem Dev.settle_boot (d : Dev) : (d.settle).boot = d.boot := rfl
@[simp] theorem Dev.settle_pwr (d : Dev) : (d.settle).pwr = d.pwr := rfl
@[simp] theorem Dev.settle_age (d : Dev) : (d.settle).age = d.age := rfl
@[simp] theorem Dev.settle_hif (d : Dev) : (d.settle).hif = d.hif := rfl

/-! ### count -/

@[simp] theorem Dev.count_shadow (d : Dev) (c half : Fld) (n : Nat) : (d.count c half n).shadow = d.shadow := by
  unfold Dev.count; dsimp only; split <;> rfl
@[simp] theorem Dev.count_fab (d : Dev) (c half : Fld) (n : Nat) : (d.count c half n).fab = d.fab := by
  unfold Dev.count; dsimp only; split <;> rfl
@[simp] theorem Dev.count_evq (d : Dev) (c half : Fld) (n : Nat) : (d.count c half n).evq = d.evq := by
  unfold Dev.count; dsimp only; split <;> rfl
@[simp] theorem Dev.count_intr (d : Dev) (c half : Fld) (n : Nat) : (d.count c half n).intr = d.intr := by
  unfold Dev.count; dsimp only; split <;> rfl
@[simp] theorem Dev.count_tick (d : Dev) (c half : Fld) (n : Nat) : (d.count c half n).tick = d.tick := by
  unfold Dev.count; dsimp only; split <;> rfl
@[simp] theorem Dev.count_ns (d : Dev) (c half : Fld) (n : Nat) : (d.count c half n).ns = d.ns := by
  unfold Dev.count; dsimp only; split <;> rfl
@[simp] theorem Dev.count_free (d : Dev) (c half : Fld) (n : Nat) : (d.count c half n).free = d.free := by
  unfold Dev.count; dsimp only; split <;> rfl
@[simp] theorem Dev.count_sch (d : Dev) (c half : Fld) (n : Nat) : (d.count c half n).sch = d.sch := by
  unfold Dev.count; dsimp only; split <;> rfl
@[simp] theorem Dev.count_eng (d : Dev) (c half : Fld) (n : Nat) : (d.count c half n).eng = d.eng := by
  unfold Dev.count; dsimp only; split <;> rfl
@[simp] theorem Dev.count_mem (d : Dev) (c half : Fld) (n : Nat) : (d.count c half n).mem = d.mem := by
  unfold Dev.count; dsimp only; split <;> rfl
@[simp] theorem Dev.count_hrt (d : Dev) (c half : Fld) (n : Nat) : (d.count c half n).hrt = d.hrt := by
  unfold Dev.count; dsimp only; split <;> rfl
@[simp] theorem Dev.count_alm (d : Dev) (c half : Fld) (n : Nat) : (d.count c half n).alm = d.alm := by
  unfold Dev.count; dsimp only; split <;> rfl
@[simp] theorem Dev.count_sup (d : Dev) (c half : Fld) (n : Nat) : (d.count c half n).sup = d.sup := by
  unfold Dev.count; dsimp only; split <;> rfl
@[simp] theorem Dev.count_dump (d : Dev) (c half : Fld) (n : Nat) : (d.count c half n).dump = d.dump := by
  unfold Dev.count; dsimp only; split <;> rfl
@[simp] theorem Dev.count_tdm (d : Dev) (c half : Fld) (n : Nat) : (d.count c half n).tdm = d.tdm := by
  unfold Dev.count; dsimp only; split <;> rfl
@[simp] theorem Dev.count_syn (d : Dev) (c half : Fld) (n : Nat) : (d.count c half n).syn = d.syn := by
  unfold Dev.count; dsimp only; split <;> rfl
@[simp] theorem Dev.count_flw (d : Dev) (c half : Fld) (n : Nat) : (d.count c half n).flw = d.flw := by
  unfold Dev.count; dsimp only; split <;> rfl
@[simp] theorem Dev.count_mac0 (d : Dev) (c half : Fld) (n : Nat) : (d.count c half n).mac0 = d.mac0 := by
  unfold Dev.count; dsimp only; split <;> rfl
@[simp] theorem Dev.count_mac1 (d : Dev) (c half : Fld) (n : Nat) : (d.count c half n).mac1 = d.mac1 := by
  unfold Dev.count; dsimp only; split <;> rfl
@[simp] theorem Dev.count_ptp (d : Dev) (c half : Fld) (n : Nat) : (d.count c half n).ptp = d.ptp := by
  unfold Dev.count; dsimp only; split <;> rfl
@[simp] theorem Dev.count_ref (d : Dev) (c half : Fld) (n : Nat) : (d.count c half n).ref = d.ref := by
  unfold Dev.count; dsimp only; split <;> rfl
@[simp] theorem Dev.count_sap (d : Dev) (c half : Fld) (n : Nat) : (d.count c half n).sap = d.sap := by
  unfold Dev.count; dsimp only; split <;> rfl
@[simp] theorem Dev.count_sapTable (d : Dev) (c half : Fld) (n : Nat) : (d.count c half n).sapTable = d.sapTable := by
  unfold Dev.count; dsimp only; split <;> rfl
@[simp] theorem Dev.count_tim (d : Dev) (c half : Fld) (n : Nat) : (d.count c half n).tim = d.tim := by
  unfold Dev.count; dsimp only; split <;> rfl
@[simp] theorem Dev.count_boot (d : Dev) (c half : Fld) (n : Nat) : (d.count c half n).boot = d.boot := by
  unfold Dev.count; dsimp only; split <;> rfl
@[simp] theorem Dev.count_pwr (d : Dev) (c half : Fld) (n : Nat) : (d.count c half n).pwr = d.pwr := by
  unfold Dev.count; dsimp only; split <;> rfl
@[simp] theorem Dev.count_age (d : Dev) (c half : Fld) (n : Nat) : (d.count c half n).age = d.age := by
  unfold Dev.count; dsimp only; split <;> rfl
@[simp] theorem Dev.count_hif (d : Dev) (c half : Fld) (n : Nat) : (d.count c half n).hif = d.hif := by
  unfold Dev.count; dsimp only; split <;> rfl

/-! ### countBit -/

@[simp] theorem Dev.countBit_shadow (d : Dev) (c half : Fld) (b n : Nat) : (d.countBit c half b n).shadow = d.shadow := by
  unfold Dev.countBit; dsimp only; split <;> rfl
@[simp] theorem Dev.countBit_fab (d : Dev) (c half : Fld) (b n : Nat) : (d.countBit c half b n).fab = d.fab := by
  unfold Dev.countBit; dsimp only; split <;> rfl
@[simp] theorem Dev.countBit_evq (d : Dev) (c half : Fld) (b n : Nat) : (d.countBit c half b n).evq = d.evq := by
  unfold Dev.countBit; dsimp only; split <;> rfl
@[simp] theorem Dev.countBit_intr (d : Dev) (c half : Fld) (b n : Nat) : (d.countBit c half b n).intr = d.intr := by
  unfold Dev.countBit; dsimp only; split <;> rfl
@[simp] theorem Dev.countBit_tick (d : Dev) (c half : Fld) (b n : Nat) : (d.countBit c half b n).tick = d.tick := by
  unfold Dev.countBit; dsimp only; split <;> rfl
@[simp] theorem Dev.countBit_ns (d : Dev) (c half : Fld) (b n : Nat) : (d.countBit c half b n).ns = d.ns := by
  unfold Dev.countBit; dsimp only; split <;> rfl
@[simp] theorem Dev.countBit_free (d : Dev) (c half : Fld) (b n : Nat) : (d.countBit c half b n).free = d.free := by
  unfold Dev.countBit; dsimp only; split <;> rfl
@[simp] theorem Dev.countBit_sch (d : Dev) (c half : Fld) (b n : Nat) : (d.countBit c half b n).sch = d.sch := by
  unfold Dev.countBit; dsimp only; split <;> rfl
@[simp] theorem Dev.countBit_eng (d : Dev) (c half : Fld) (b n : Nat) : (d.countBit c half b n).eng = d.eng := by
  unfold Dev.countBit; dsimp only; split <;> rfl
@[simp] theorem Dev.countBit_mem (d : Dev) (c half : Fld) (b n : Nat) : (d.countBit c half b n).mem = d.mem := by
  unfold Dev.countBit; dsimp only; split <;> rfl
@[simp] theorem Dev.countBit_hrt (d : Dev) (c half : Fld) (b n : Nat) : (d.countBit c half b n).hrt = d.hrt := by
  unfold Dev.countBit; dsimp only; split <;> rfl
@[simp] theorem Dev.countBit_alm (d : Dev) (c half : Fld) (b n : Nat) : (d.countBit c half b n).alm = d.alm := by
  unfold Dev.countBit; dsimp only; split <;> rfl
@[simp] theorem Dev.countBit_sup (d : Dev) (c half : Fld) (b n : Nat) : (d.countBit c half b n).sup = d.sup := by
  unfold Dev.countBit; dsimp only; split <;> rfl
@[simp] theorem Dev.countBit_dump (d : Dev) (c half : Fld) (b n : Nat) : (d.countBit c half b n).dump = d.dump := by
  unfold Dev.countBit; dsimp only; split <;> rfl
@[simp] theorem Dev.countBit_tdm (d : Dev) (c half : Fld) (b n : Nat) : (d.countBit c half b n).tdm = d.tdm := by
  unfold Dev.countBit; dsimp only; split <;> rfl
@[simp] theorem Dev.countBit_syn (d : Dev) (c half : Fld) (b n : Nat) : (d.countBit c half b n).syn = d.syn := by
  unfold Dev.countBit; dsimp only; split <;> rfl
@[simp] theorem Dev.countBit_flw (d : Dev) (c half : Fld) (b n : Nat) : (d.countBit c half b n).flw = d.flw := by
  unfold Dev.countBit; dsimp only; split <;> rfl
@[simp] theorem Dev.countBit_mac0 (d : Dev) (c half : Fld) (b n : Nat) : (d.countBit c half b n).mac0 = d.mac0 := by
  unfold Dev.countBit; dsimp only; split <;> rfl
@[simp] theorem Dev.countBit_mac1 (d : Dev) (c half : Fld) (b n : Nat) : (d.countBit c half b n).mac1 = d.mac1 := by
  unfold Dev.countBit; dsimp only; split <;> rfl
@[simp] theorem Dev.countBit_ptp (d : Dev) (c half : Fld) (b n : Nat) : (d.countBit c half b n).ptp = d.ptp := by
  unfold Dev.countBit; dsimp only; split <;> rfl
@[simp] theorem Dev.countBit_ref (d : Dev) (c half : Fld) (b n : Nat) : (d.countBit c half b n).ref = d.ref := by
  unfold Dev.countBit; dsimp only; split <;> rfl
@[simp] theorem Dev.countBit_sap (d : Dev) (c half : Fld) (b n : Nat) : (d.countBit c half b n).sap = d.sap := by
  unfold Dev.countBit; dsimp only; split <;> rfl
@[simp] theorem Dev.countBit_sapTable (d : Dev) (c half : Fld) (b n : Nat) : (d.countBit c half b n).sapTable = d.sapTable := by
  unfold Dev.countBit; dsimp only; split <;> rfl
@[simp] theorem Dev.countBit_tim (d : Dev) (c half : Fld) (b n : Nat) : (d.countBit c half b n).tim = d.tim := by
  unfold Dev.countBit; dsimp only; split <;> rfl
@[simp] theorem Dev.countBit_boot (d : Dev) (c half : Fld) (b n : Nat) : (d.countBit c half b n).boot = d.boot := by
  unfold Dev.countBit; dsimp only; split <;> rfl
@[simp] theorem Dev.countBit_pwr (d : Dev) (c half : Fld) (b n : Nat) : (d.countBit c half b n).pwr = d.pwr := by
  unfold Dev.countBit; dsimp only; split <;> rfl
@[simp] theorem Dev.countBit_age (d : Dev) (c half : Fld) (b n : Nat) : (d.countBit c half b n).age = d.age := by
  unfold Dev.countBit; dsimp only; split <;> rfl
@[simp] theorem Dev.countBit_hif (d : Dev) (c half : Fld) (b n : Nat) : (d.countBit c half b n).hif = d.hif := by
  unfold Dev.countBit; dsimp only; split <;> rfl

/-! ### setSh -/

@[simp] theorem Dev.setSh_live (d : Dev) (h : Nat) (x : SchH) : (d.setSh h x).live = d.live := by
  unfold Dev.setSh; split <;> rfl
@[simp] theorem Dev.setSh_shadow (d : Dev) (h : Nat) (x : SchH) : (d.setSh h x).shadow = d.shadow := by
  unfold Dev.setSh; split <;> rfl
@[simp] theorem Dev.setSh_fab (d : Dev) (h : Nat) (x : SchH) : (d.setSh h x).fab = d.fab := by
  unfold Dev.setSh; split <;> rfl
@[simp] theorem Dev.setSh_evq (d : Dev) (h : Nat) (x : SchH) : (d.setSh h x).evq = d.evq := by
  unfold Dev.setSh; split <;> rfl
@[simp] theorem Dev.setSh_intr (d : Dev) (h : Nat) (x : SchH) : (d.setSh h x).intr = d.intr := by
  unfold Dev.setSh; split <;> rfl
@[simp] theorem Dev.setSh_tick (d : Dev) (h : Nat) (x : SchH) : (d.setSh h x).tick = d.tick := by
  unfold Dev.setSh; split <;> rfl
@[simp] theorem Dev.setSh_ns (d : Dev) (h : Nat) (x : SchH) : (d.setSh h x).ns = d.ns := by
  unfold Dev.setSh; split <;> rfl
@[simp] theorem Dev.setSh_free (d : Dev) (h : Nat) (x : SchH) : (d.setSh h x).free = d.free := by
  unfold Dev.setSh; split <;> rfl
@[simp] theorem Dev.setSh_eng (d : Dev) (h : Nat) (x : SchH) : (d.setSh h x).eng = d.eng := by
  unfold Dev.setSh; split <;> rfl
@[simp] theorem Dev.setSh_mem (d : Dev) (h : Nat) (x : SchH) : (d.setSh h x).mem = d.mem := by
  unfold Dev.setSh; split <;> rfl
@[simp] theorem Dev.setSh_hrt (d : Dev) (h : Nat) (x : SchH) : (d.setSh h x).hrt = d.hrt := by
  unfold Dev.setSh; split <;> rfl
@[simp] theorem Dev.setSh_alm (d : Dev) (h : Nat) (x : SchH) : (d.setSh h x).alm = d.alm := by
  unfold Dev.setSh; split <;> rfl
@[simp] theorem Dev.setSh_sup (d : Dev) (h : Nat) (x : SchH) : (d.setSh h x).sup = d.sup := by
  unfold Dev.setSh; split <;> rfl
@[simp] theorem Dev.setSh_dump (d : Dev) (h : Nat) (x : SchH) : (d.setSh h x).dump = d.dump := by
  unfold Dev.setSh; split <;> rfl
@[simp] theorem Dev.setSh_tdm (d : Dev) (h : Nat) (x : SchH) : (d.setSh h x).tdm = d.tdm := by
  unfold Dev.setSh; split <;> rfl
@[simp] theorem Dev.setSh_syn (d : Dev) (h : Nat) (x : SchH) : (d.setSh h x).syn = d.syn := by
  unfold Dev.setSh; split <;> rfl
@[simp] theorem Dev.setSh_flw (d : Dev) (h : Nat) (x : SchH) : (d.setSh h x).flw = d.flw := by
  unfold Dev.setSh; split <;> rfl
@[simp] theorem Dev.setSh_mac0 (d : Dev) (h : Nat) (x : SchH) : (d.setSh h x).mac0 = d.mac0 := by
  unfold Dev.setSh; split <;> rfl
@[simp] theorem Dev.setSh_mac1 (d : Dev) (h : Nat) (x : SchH) : (d.setSh h x).mac1 = d.mac1 := by
  unfold Dev.setSh; split <;> rfl
@[simp] theorem Dev.setSh_ptp (d : Dev) (h : Nat) (x : SchH) : (d.setSh h x).ptp = d.ptp := by
  unfold Dev.setSh; split <;> rfl
@[simp] theorem Dev.setSh_ref (d : Dev) (h : Nat) (x : SchH) : (d.setSh h x).ref = d.ref := by
  unfold Dev.setSh; split <;> rfl
@[simp] theorem Dev.setSh_sap (d : Dev) (h : Nat) (x : SchH) : (d.setSh h x).sap = d.sap := by
  unfold Dev.setSh; split <;> rfl
@[simp] theorem Dev.setSh_sapTable (d : Dev) (h : Nat) (x : SchH) : (d.setSh h x).sapTable = d.sapTable := by
  unfold Dev.setSh; split <;> rfl
@[simp] theorem Dev.setSh_tim (d : Dev) (h : Nat) (x : SchH) : (d.setSh h x).tim = d.tim := by
  unfold Dev.setSh; split <;> rfl
@[simp] theorem Dev.setSh_boot (d : Dev) (h : Nat) (x : SchH) : (d.setSh h x).boot = d.boot := by
  unfold Dev.setSh; split <;> rfl
@[simp] theorem Dev.setSh_pwr (d : Dev) (h : Nat) (x : SchH) : (d.setSh h x).pwr = d.pwr := by
  unfold Dev.setSh; split <;> rfl
@[simp] theorem Dev.setSh_age (d : Dev) (h : Nat) (x : SchH) : (d.setSh h x).age = d.age := by
  unfold Dev.setSh; split <;> rfl
@[simp] theorem Dev.setSh_hif (d : Dev) (h : Nat) (x : SchH) : (d.setSh h x).hif = d.hif := by
  unfold Dev.setSh; split <;> rfl

/-! ### setHm -/

@[simp] theorem Dev.setHm_live (d : Dev) (h : Nat) (x : HMem) : (d.setHm h x).live = d.live := by
  unfold Dev.setHm; split <;> rfl
@[simp] theorem Dev.setHm_shadow (d : Dev) (h : Nat) (x : HMem) : (d.setHm h x).shadow = d.shadow := by
  unfold Dev.setHm; split <;> rfl
@[simp] theorem Dev.setHm_fab (d : Dev) (h : Nat) (x : HMem) : (d.setHm h x).fab = d.fab := by
  unfold Dev.setHm; split <;> rfl
@[simp] theorem Dev.setHm_evq (d : Dev) (h : Nat) (x : HMem) : (d.setHm h x).evq = d.evq := by
  unfold Dev.setHm; split <;> rfl
@[simp] theorem Dev.setHm_intr (d : Dev) (h : Nat) (x : HMem) : (d.setHm h x).intr = d.intr := by
  unfold Dev.setHm; split <;> rfl
@[simp] theorem Dev.setHm_tick (d : Dev) (h : Nat) (x : HMem) : (d.setHm h x).tick = d.tick := by
  unfold Dev.setHm; split <;> rfl
@[simp] theorem Dev.setHm_ns (d : Dev) (h : Nat) (x : HMem) : (d.setHm h x).ns = d.ns := by
  unfold Dev.setHm; split <;> rfl
@[simp] theorem Dev.setHm_free (d : Dev) (h : Nat) (x : HMem) : (d.setHm h x).free = d.free := by
  unfold Dev.setHm; split <;> rfl
@[simp] theorem Dev.setHm_sch (d : Dev) (h : Nat) (x : HMem) : (d.setHm h x).sch = d.sch := by
  unfold Dev.setHm; split <;> rfl
@[simp] theorem Dev.setHm_eng (d : Dev) (h : Nat) (x : HMem) : (d.setHm h x).eng = d.eng := by
  unfold Dev.setHm; split <;> rfl
@[simp] theorem Dev.setHm_hrt (d : Dev) (h : Nat) (x : HMem) : (d.setHm h x).hrt = d.hrt := by
  unfold Dev.setHm; split <;> rfl
@[simp] theorem Dev.setHm_alm (d : Dev) (h : Nat) (x : HMem) : (d.setHm h x).alm = d.alm := by
  unfold Dev.setHm; split <;> rfl
@[simp] theorem Dev.setHm_sup (d : Dev) (h : Nat) (x : HMem) : (d.setHm h x).sup = d.sup := by
  unfold Dev.setHm; split <;> rfl
@[simp] theorem Dev.setHm_dump (d : Dev) (h : Nat) (x : HMem) : (d.setHm h x).dump = d.dump := by
  unfold Dev.setHm; split <;> rfl
@[simp] theorem Dev.setHm_tdm (d : Dev) (h : Nat) (x : HMem) : (d.setHm h x).tdm = d.tdm := by
  unfold Dev.setHm; split <;> rfl
@[simp] theorem Dev.setHm_syn (d : Dev) (h : Nat) (x : HMem) : (d.setHm h x).syn = d.syn := by
  unfold Dev.setHm; split <;> rfl
@[simp] theorem Dev.setHm_flw (d : Dev) (h : Nat) (x : HMem) : (d.setHm h x).flw = d.flw := by
  unfold Dev.setHm; split <;> rfl
@[simp] theorem Dev.setHm_mac0 (d : Dev) (h : Nat) (x : HMem) : (d.setHm h x).mac0 = d.mac0 := by
  unfold Dev.setHm; split <;> rfl
@[simp] theorem Dev.setHm_mac1 (d : Dev) (h : Nat) (x : HMem) : (d.setHm h x).mac1 = d.mac1 := by
  unfold Dev.setHm; split <;> rfl
@[simp] theorem Dev.setHm_ptp (d : Dev) (h : Nat) (x : HMem) : (d.setHm h x).ptp = d.ptp := by
  unfold Dev.setHm; split <;> rfl
@[simp] theorem Dev.setHm_ref (d : Dev) (h : Nat) (x : HMem) : (d.setHm h x).ref = d.ref := by
  unfold Dev.setHm; split <;> rfl
@[simp] theorem Dev.setHm_sap (d : Dev) (h : Nat) (x : HMem) : (d.setHm h x).sap = d.sap := by
  unfold Dev.setHm; split <;> rfl
@[simp] theorem Dev.setHm_sapTable (d : Dev) (h : Nat) (x : HMem) : (d.setHm h x).sapTable = d.sapTable := by
  unfold Dev.setHm; split <;> rfl
@[simp] theorem Dev.setHm_tim (d : Dev) (h : Nat) (x : HMem) : (d.setHm h x).tim = d.tim := by
  unfold Dev.setHm; split <;> rfl
@[simp] theorem Dev.setHm_boot (d : Dev) (h : Nat) (x : HMem) : (d.setHm h x).boot = d.boot := by
  unfold Dev.setHm; split <;> rfl
@[simp] theorem Dev.setHm_pwr (d : Dev) (h : Nat) (x : HMem) : (d.setHm h x).pwr = d.pwr := by
  unfold Dev.setHm; split <;> rfl
@[simp] theorem Dev.setHm_age (d : Dev) (h : Nat) (x : HMem) : (d.setHm h x).age = d.age := by
  unfold Dev.setHm; split <;> rfl
@[simp] theorem Dev.setHm_hif (d : Dev) (h : Nat) (x : HMem) : (d.setHm h x).hif = d.hif := by
  unfold Dev.setHm; split <;> rfl

/-! ### setHh -/

@[simp] theorem Dev.setHh_live (d : Dev) (h : Nat) (x : HrtH) : (d.setHh h x).live = d.live := by
  unfold Dev.setHh; split <;> rfl
@[simp] theorem Dev.setHh_shadow (d : Dev) (h : Nat) (x : HrtH) : (d.setHh h x).shadow = d.shadow := by
  unfold Dev.setHh; split <;> rfl
@[simp] theorem Dev.setHh_fab (d : Dev) (h : Nat) (x : HrtH) : (d.setHh h x).fab = d.fab := by
  unfold Dev.setHh; split <;> rfl
@[simp] theorem Dev.setHh_evq (d : Dev) (h : Nat) (x : HrtH) : (d.setHh h x).evq = d.evq := by
  unfold Dev.setHh; split <;> rfl
@[simp] theorem Dev.setHh_intr (d : Dev) (h : Nat) (x : HrtH) : (d.setHh h x).intr = d.intr := by
  unfold Dev.setHh; split <;> rfl
@[simp] theorem Dev.setHh_tick (d : Dev) (h : Nat) (x : HrtH) : (d.setHh h x).tick = d.tick := by
  unfold Dev.setHh; split <;> rfl
@[simp] theorem Dev.setHh_ns (d : Dev) (h : Nat) (x : HrtH) : (d.setHh h x).ns = d.ns := by
  unfold Dev.setHh; split <;> rfl
@[simp] theorem Dev.setHh_free (d : Dev) (h : Nat) (x : HrtH) : (d.setHh h x).free = d.free := by
  unfold Dev.setHh; split <;> rfl
@[simp] theorem Dev.setHh_sch (d : Dev) (h : Nat) (x : HrtH) : (d.setHh h x).sch = d.sch := by
  unfold Dev.setHh; split <;> rfl
@[simp] theorem Dev.setHh_eng (d : Dev) (h : Nat) (x : HrtH) : (d.setHh h x).eng = d.eng := by
  unfold Dev.setHh; split <;> rfl
@[simp] theorem Dev.setHh_mem (d : Dev) (h : Nat) (x : HrtH) : (d.setHh h x).mem = d.mem := by
  unfold Dev.setHh; split <;> rfl
@[simp] theorem Dev.setHh_alm (d : Dev) (h : Nat) (x : HrtH) : (d.setHh h x).alm = d.alm := by
  unfold Dev.setHh; split <;> rfl
@[simp] theorem Dev.setHh_sup (d : Dev) (h : Nat) (x : HrtH) : (d.setHh h x).sup = d.sup := by
  unfold Dev.setHh; split <;> rfl
@[simp] theorem Dev.setHh_dump (d : Dev) (h : Nat) (x : HrtH) : (d.setHh h x).dump = d.dump := by
  unfold Dev.setHh; split <;> rfl
@[simp] theorem Dev.setHh_tdm (d : Dev) (h : Nat) (x : HrtH) : (d.setHh h x).tdm = d.tdm := by
  unfold Dev.setHh; split <;> rfl
@[simp] theorem Dev.setHh_syn (d : Dev) (h : Nat) (x : HrtH) : (d.setHh h x).syn = d.syn := by
  unfold Dev.setHh; split <;> rfl
@[simp] theorem Dev.setHh_flw (d : Dev) (h : Nat) (x : HrtH) : (d.setHh h x).flw = d.flw := by
  unfold Dev.setHh; split <;> rfl
@[simp] theorem Dev.setHh_mac0 (d : Dev) (h : Nat) (x : HrtH) : (d.setHh h x).mac0 = d.mac0 := by
  unfold Dev.setHh; split <;> rfl
@[simp] theorem Dev.setHh_mac1 (d : Dev) (h : Nat) (x : HrtH) : (d.setHh h x).mac1 = d.mac1 := by
  unfold Dev.setHh; split <;> rfl
@[simp] theorem Dev.setHh_ptp (d : Dev) (h : Nat) (x : HrtH) : (d.setHh h x).ptp = d.ptp := by
  unfold Dev.setHh; split <;> rfl
@[simp] theorem Dev.setHh_ref (d : Dev) (h : Nat) (x : HrtH) : (d.setHh h x).ref = d.ref := by
  unfold Dev.setHh; split <;> rfl
@[simp] theorem Dev.setHh_sap (d : Dev) (h : Nat) (x : HrtH) : (d.setHh h x).sap = d.sap := by
  unfold Dev.setHh; split <;> rfl
@[simp] theorem Dev.setHh_sapTable (d : Dev) (h : Nat) (x : HrtH) : (d.setHh h x).sapTable = d.sapTable := by
  unfold Dev.setHh; split <;> rfl
@[simp] theorem Dev.setHh_tim (d : Dev) (h : Nat) (x : HrtH) : (d.setHh h x).tim = d.tim := by
  unfold Dev.setHh; split <;> rfl
@[simp] theorem Dev.setHh_boot (d : Dev) (h : Nat) (x : HrtH) : (d.setHh h x).boot = d.boot := by
  unfold Dev.setHh; split <;> rfl
@[simp] theorem Dev.setHh_pwr (d : Dev) (h : Nat) (x : HrtH) : (d.setHh h x).pwr = d.pwr := by
  unfold Dev.setHh; split <;> rfl
@[simp] theorem Dev.setHh_age (d : Dev) (h : Nat) (x : HrtH) : (d.setHh h x).age = d.age := by
  unfold Dev.setHh; split <;> rfl
@[simp] theorem Dev.setHh_hif (d : Dev) (h : Nat) (x : HrtH) : (d.setHh h x).hif = d.hif := by
  unfold Dev.setHh; split <;> rfl

/-! ### setCh -/

@[simp] theorem Dev.setCh_live (d : Dev) (c : Nat) (x : Dram) : (d.setCh c x).live = d.live := by
  unfold Dev.setCh; split <;> rfl
@[simp] theorem Dev.setCh_shadow (d : Dev) (c : Nat) (x : Dram) : (d.setCh c x).shadow = d.shadow := by
  unfold Dev.setCh; split <;> rfl
@[simp] theorem Dev.setCh_fab (d : Dev) (c : Nat) (x : Dram) : (d.setCh c x).fab = d.fab := by
  unfold Dev.setCh; split <;> rfl
@[simp] theorem Dev.setCh_evq (d : Dev) (c : Nat) (x : Dram) : (d.setCh c x).evq = d.evq := by
  unfold Dev.setCh; split <;> rfl
@[simp] theorem Dev.setCh_intr (d : Dev) (c : Nat) (x : Dram) : (d.setCh c x).intr = d.intr := by
  unfold Dev.setCh; split <;> rfl
@[simp] theorem Dev.setCh_tick (d : Dev) (c : Nat) (x : Dram) : (d.setCh c x).tick = d.tick := by
  unfold Dev.setCh; split <;> rfl
@[simp] theorem Dev.setCh_ns (d : Dev) (c : Nat) (x : Dram) : (d.setCh c x).ns = d.ns := by
  unfold Dev.setCh; split <;> rfl
@[simp] theorem Dev.setCh_free (d : Dev) (c : Nat) (x : Dram) : (d.setCh c x).free = d.free := by
  unfold Dev.setCh; split <;> rfl
@[simp] theorem Dev.setCh_sch (d : Dev) (c : Nat) (x : Dram) : (d.setCh c x).sch = d.sch := by
  unfold Dev.setCh; split <;> rfl
@[simp] theorem Dev.setCh_eng (d : Dev) (c : Nat) (x : Dram) : (d.setCh c x).eng = d.eng := by
  unfold Dev.setCh; split <;> rfl
@[simp] theorem Dev.setCh_hrt (d : Dev) (c : Nat) (x : Dram) : (d.setCh c x).hrt = d.hrt := by
  unfold Dev.setCh; split <;> rfl
@[simp] theorem Dev.setCh_alm (d : Dev) (c : Nat) (x : Dram) : (d.setCh c x).alm = d.alm := by
  unfold Dev.setCh; split <;> rfl
@[simp] theorem Dev.setCh_sup (d : Dev) (c : Nat) (x : Dram) : (d.setCh c x).sup = d.sup := by
  unfold Dev.setCh; split <;> rfl
@[simp] theorem Dev.setCh_dump (d : Dev) (c : Nat) (x : Dram) : (d.setCh c x).dump = d.dump := by
  unfold Dev.setCh; split <;> rfl
@[simp] theorem Dev.setCh_tdm (d : Dev) (c : Nat) (x : Dram) : (d.setCh c x).tdm = d.tdm := by
  unfold Dev.setCh; split <;> rfl
@[simp] theorem Dev.setCh_syn (d : Dev) (c : Nat) (x : Dram) : (d.setCh c x).syn = d.syn := by
  unfold Dev.setCh; split <;> rfl
@[simp] theorem Dev.setCh_flw (d : Dev) (c : Nat) (x : Dram) : (d.setCh c x).flw = d.flw := by
  unfold Dev.setCh; split <;> rfl
@[simp] theorem Dev.setCh_mac0 (d : Dev) (c : Nat) (x : Dram) : (d.setCh c x).mac0 = d.mac0 := by
  unfold Dev.setCh; split <;> rfl
@[simp] theorem Dev.setCh_mac1 (d : Dev) (c : Nat) (x : Dram) : (d.setCh c x).mac1 = d.mac1 := by
  unfold Dev.setCh; split <;> rfl
@[simp] theorem Dev.setCh_ptp (d : Dev) (c : Nat) (x : Dram) : (d.setCh c x).ptp = d.ptp := by
  unfold Dev.setCh; split <;> rfl
@[simp] theorem Dev.setCh_ref (d : Dev) (c : Nat) (x : Dram) : (d.setCh c x).ref = d.ref := by
  unfold Dev.setCh; split <;> rfl
@[simp] theorem Dev.setCh_sap (d : Dev) (c : Nat) (x : Dram) : (d.setCh c x).sap = d.sap := by
  unfold Dev.setCh; split <;> rfl
@[simp] theorem Dev.setCh_sapTable (d : Dev) (c : Nat) (x : Dram) : (d.setCh c x).sapTable = d.sapTable := by
  unfold Dev.setCh; split <;> rfl
@[simp] theorem Dev.setCh_tim (d : Dev) (c : Nat) (x : Dram) : (d.setCh c x).tim = d.tim := by
  unfold Dev.setCh; split <;> rfl
@[simp] theorem Dev.setCh_boot (d : Dev) (c : Nat) (x : Dram) : (d.setCh c x).boot = d.boot := by
  unfold Dev.setCh; split <;> rfl
@[simp] theorem Dev.setCh_pwr (d : Dev) (c : Nat) (x : Dram) : (d.setCh c x).pwr = d.pwr := by
  unfold Dev.setCh; split <;> rfl
@[simp] theorem Dev.setCh_age (d : Dev) (c : Nat) (x : Dram) : (d.setCh c x).age = d.age := by
  unfold Dev.setCh; split <;> rfl
@[simp] theorem Dev.setCh_hif (d : Dev) (c : Nat) (x : Dram) : (d.setCh c x).hif = d.hif := by
  unfold Dev.setCh; split <;> rfl

/-! ### The state -/

@[simp] theorem State.mk_pending (p : List Instr) (n : NV) (d : Dev) : (State.mk p n d).pending = p := rfl
@[simp] theorem State.mk_nv (p : List Instr) (n : NV) (d : Dev) : (State.mk p n d).nv = n := rfl
@[simp] theorem State.mk_dev (p : List Instr) (n : NV) (d : Dev) : (State.mk p n d).dev = d := rfl

end Sys2Proof.Machine
end

