-- ==== Sys2Proof/Laws/Commands.lean ====
section
/-! SUPPORT. What the forms of the commands can do: the end of a command, the gate of the host commands, the counters and the
entry of events. -/
namespace Sys2Proof.Machine

/-! ### The forms of the meanings -/

theorem onDev_next (f : Dev → Dev) (s : State) : onDev f s = .next { s with dev := (f s.dev).settle } := rfl

/-- What a meaning over the device can do: fuses, flash and queue stay. -/
theorem onDev_keeps (f : Dev → Dev) (s : State) :
    ∃ t, onDev f s = .next t ∧ t.nv = s.nv ∧ t.pending = s.pending ∧ t.dev = (f s.dev).settle := ⟨_, rfl, rfl, rfl, rfl⟩

/-- What a meaning over the device and what survives PORST_N can do: the queue stays. -/
theorem onBoth_keeps (f : NV × Dev → NV × Dev) (s : State) :
    ∃ t, onBoth f s = .next t ∧ t.nv = (f (s.nv, s.dev)).1 ∧ t.pending = s.pending ∧ t.dev = (f (s.nv, s.dev)).2.settle :=
  ⟨_, rfl, rfl, rfl, rfl⟩

@[simp] theorem Dev.settle_word (d : Dev) (a : Nat) : d.settle.word a = d.word a := rfl
@[simp] theorem Dev.settle_rd (d : Dev) (f : Fld) : d.settle.rd f = d.rd f := rfl
@[simp] theorem Dev.post_word (d : Dev) (a b c e : Nat) : (d.post a b c).word e = d.word e := rfl
@[simp] theorem Dev.post_rd (d : Dev) (a b c : Nat) (f : Fld) : (d.post a b c).rd f = d.rd f := rfl

/-! ### Accesses by a host (R487, R488) -/

theorem Dev.powerLeave_eq (d : Dev) (c : Nat) : d.powerLeave c = { d with pwr := (d.powerLeave c).pwr } := by
  unfold Dev.powerLeave
  split <;> rfl

theorem Dev.wake_eq (d : Dev) (c : Nat) : d.wake c = { d with pwr := (d.wake c).pwr } := by
  unfold Dev.wake
  split
  · rfl
  · exact Dev.powerLeave_eq d c

theorem Dev.wake_live (d : Dev) (c : Nat) : (d.wake c).live = d.live := by rw [Dev.wake_eq]

/-- An access changes the power events alone. -/
theorem Dev.touch_eq (d : Dev) (h : Agent) (w : Bool) (b : Nat) :
    d.touch h w b = { d with pwr := (d.touch h w b).pwr } := by
  unfold Dev.touch
  dsimp only
  split
  · rfl
  · split
    · rw [Dev.wake_eq]
    · rw [Dev.powerLeave_eq]

@[simp] theorem Dev.touch_live (d : Dev) (h : Agent) (w : Bool) (b : Nat) : (d.touch h w b).live = d.live := by
  rw [Dev.touch_eq]
@[simp] theorem Dev.touch_rd (d : Dev) (h : Agent) (w : Bool) (b : Nat) (f : Fld) : (d.touch h w b).rd f = d.rd f :=
  Dev.rd_congr _ _ f (Dev.touch_live d h w b)

/-- The gate looks at registers only. -/
theorem Dev.cmdViolation_congr (d d' : Dev) (h : Agent) (f : Fld) (args : Bool) (e : d.live = d'.live) :
    d.cmdViolation h f args = d'.cmdViolation h f args := by
  have r : ∀ g, d.rd g = d'.rd g := fun g => Dev.rd_congr d d' g e
  cases h <;> simp only [Dev.cmdViolation, Dev.owns, Dev.locked, Dev.standLocked, Dev.on, r] <;> rfl

theorem Dev.stopped_congr (d d' : Dev) (b : Nat) (e : d.live = d'.live) : d.stopped b = d'.stopped b := by
  simp only [Dev.stopped, Dev.rd_congr d d' _ e]

/-- A host command without arguments that passes the gate has its effect on the device as accessed. -/
theorem Dev.hostCmd_open (d : Dev) (h : Agent) (f : Fld) (eff : Dev → Dev) (hv : d.cmdViolation h f false = none)
    (hs : d.stopped (blockOf f.addr) = false) : d.hostCmd h f [] eff = eff (d.touch h true (blockOf f.addr)) := by
  have hv' : (d.touch h true (blockOf f.addr)).cmdViolation h f false = none := by
    rw [Dev.cmdViolation_congr _ d _ _ _ (Dev.touch_live d h true _)]
    exact hv
  have hs' : (d.touch h true (blockOf f.addr)).stopped (blockOf f.addr) = false := by
    rw [Dev.stopped_congr _ d _ (Dev.touch_live d h true _)]
    exact hs
  simp [Dev.hostCmd, Dev.hostGate, hv', hs']

/-- A host command that the gate forbids is recorded as a violation and has no other effect (R50). -/
theorem Dev.hostCmd_violated (d : Dev) (h : Agent) (f : Fld) (args : List (Fld × Nat)) (eff : Dev → Dev) (k : Nat)
    (hv : d.cmdViolation h f (!args.isEmpty) = some k) :
    d.hostCmd h f args eff = (d.touch h true (blockOf f.addr)).lockViol h f.addr k := by
  have hv' : (d.touch h true (blockOf f.addr)).cmdViolation h f (!args.isEmpty) = some k := by
    rw [Dev.cmdViolation_congr _ d _ _ _ (Dev.touch_live d h true _)]
    exact hv
  simp [Dev.hostCmd, Dev.hostGate, hv']

/-! ### Counters (R33) -/

/-- A counter takes its next value, cut to its width. -/
theorem Dev.rd_count (d : Dev) (c half : Fld) (n : Nat) (hc : c.ok = true) (hh : half.ok = true) (ha : half.apart c = true) :
    (d.count c half n).rd c = (d.rd c + n) % 2 ^ c.width := by
  unfold Dev.count
  dsimp only
  split
  · rw [Dev.rd_wr _ _ _ hc, Nat.mod_mod]
  · unfold Dev.flag
    rw [Dev.rd_wr_apart _ _ _ _ hh hc ha, Dev.rd_wr _ _ _ hc, Nat.mod_mod]

/-- A count leaves every field that shares no bit with the counter and its half-range bit. -/
theorem Dev.rd_count_apart (d : Dev) (c half g : Fld) (n : Nat) (hc : c.ok = true) (hh : half.ok = true) (hg : g.ok = true)
    (h1 : c.apart g = true) (h2 : half.apart g = true) : (d.count c half n).rd g = d.rd g := by
  unfold Dev.count
  dsimp only
  split
  · exact Dev.rd_wr_apart _ _ _ _ hc hg h1
  · unfold Dev.flag
    rw [Dev.rd_wr_apart _ _ _ _ hh hg h2, Dev.rd_wr_apart _ _ _ _ hc hg h1]

/-! ### The entry of events (R71, R73) -/

/-- Events enter a FIFO with room one behind the other. -/
theorem Evq.enter_all (es : List (Nat × Nat × Nat)) (q : Evq) (tick : Nat) (h : q.q.length + es.length ≤ 512) :
    es.foldl (fun q e => q.enter tick e) q = { q with
      q := q.q ++ es.zipIdx.map fun e =>
        { src := e.1.1, code := e.1.2.1, seq := (q.seq + e.2) % 65536, tick := tick, arg := e.1.2.2 }
      seq := q.seq + es.length } := by
  induction es generalizing q with
  | nil => simp
  | cons e es ih =>
    simp only [List.length_cons] at h
    have hq : q.q.length < 512 := by omega
    rw [List.foldl_cons, Evq.enter, if_pos hq, ih]
    · simp only [List.append_assoc, List.length_cons, List.zipIdx_cons, Nat.zero_add, List.map_cons, Nat.add_zero,
        List.singleton_append, Evq.mk.injEq, List.append_cancel_left_eq, List.cons.injEq, true_and, and_true]
      refine ⟨?_, by omega⟩
      rw [List.zipIdx_succ, List.map_map]
      apply List.map_congr_left
      intro x _
      simp only [Function.comp, Nat.add_right_comm, Nat.add_assoc]
    · simp only [List.length_append, List.length_singleton]
      omega

/-- Nothing enters, and nothing lost is reported, where nothing is posted and nothing has been lost. -/
theorem Evq.settle_nil (q : Evq) (tick : Nat) (hp : q.posts = []) (hl : q.lostPend = 0) : q.settle tick = q := by
  have h0 : Evq.enterLost q tick = q := by simp [Evq.enterLost, hl]
  have : ({ q with posts := [] } : Evq) = q := by rw [← hp]
  have hf : (List.range 32).flatMap (fun _ => ([] : List (Nat × Nat × Nat))) = [] := by simp
  simp [Evq.settle, hp, this, h0, hf]

/-- The events `es` of one block enter a FIFO with room in the order in which they were posted. -/
theorem Evq.settle_block (q : Evq) (tick b : Nat) (es : List (Nat × Nat × Nat)) (hb : b < 32) (he : ∀ e ∈ es, e.1 = b)
    (hl : q.lostPend = 0) (hn : q.q.length + es.length ≤ 512) :
    ({ q with posts := es } : Evq).settle tick = { q with
      posts := []
      q := q.q ++ es.zipIdx.map fun e =>
        { src := e.1.1, code := e.1.2.1, seq := (q.seq + e.2) % 65536, tick := tick, arg := e.1.2.2 }
      seq := q.seq + es.length } := by
  have hps : (List.range 32).flatMap (fun c => es.filter fun e => e.1 == c) = es := by
    have hc : ∀ c, (es.filter fun e => e.1 == c) = if c = b then es else [] := by
      intro c
      split
      · rename_i h
        rw [List.filter_eq_self]
        intro e hm
        simp [he e hm, h]
      · rename_i h
        rw [List.filter_eq_nil_iff]
        intro e hm
        simp only [he e hm, beq_iff_eq]
        exact fun hh => h hh.symm
    simp only [hc]
    clear hc hn he
    interval_cases b <;> simp [List.range_succ]
  simp only [Evq.settle, hps]
  have h0 : ({ q with posts := [] } : Evq).enterLost tick = { q with posts := [] } := by simp [Evq.enterLost, hl]
  rw [h0, Evq.enter_all es { q with posts := [] } tick hn]
  simp [Evq.enterLost, hl]

end Sys2Proof.Machine
end

