-- ==== Sys2Proof/Laws/Engine.lean ====
section
/-! SUPPORT. The laws of the engines' register files and of the issue of an instruction: what `engOp` and `ctlOp` can do. -/
namespace Sys2Proof.Machine

/-! ### Register files -/

@[simp] theorem EngS.getS_setS (g : EngS) (r q : Nat) (x : Word) :
    (g.setS r x).getS q = if r = q then x else g.getS q := by
  simp [EngS.getS, EngS.setS, Sparse.get_put]
@[simp] theorem EngS.getA_setA (g : EngS) (r q : Nat) (x : Word) :
    (g.setA r x).getA q = if r = q then x else g.getA q := by
  simp [EngS.getA, EngS.setA, Sparse.get_put]

theorem EngS.getV_setV (g : EngS) (r i q j : Nat) (x : Word) (hi : i < 8) (hj : j < 8) :
    (g.setV r i x).getV q j = if r = q ∧ i = j then x else g.getV q j := by
  simp only [EngS.getV, EngS.setV, Sparse.get_put]
  split <;> rename_i h <;> split <;> first | rfl | (exfalso; omega)

theorem EngS.getW_setW (g : EngS) (r i q j : Nat) (x : BitVec 72) (hi : i < 8) (hj : j < 8) :
    (g.setW r i x).getW q j = if r = q ∧ i = j then x else g.getW q j := by
  simp only [EngS.getW, EngS.setW, Sparse.get_put]
  split <;> rename_i h <;> split <;> first | rfl | (exfalso; omega)

/-- p0 reads 0xFF whatever is written (R121). -/
@[simp] theorem EngS.getP_zero (g : EngS) : g.getP 0 = 0xFF := rfl

theorem EngS.getP_setP (g : EngS) (r q : Nat) (x : BitVec 8) :
    (g.setP r x).getP q = if r = q ∧ r ≠ 0 then x else g.getP q := by
  simp only [EngS.getP, EngS.setP]
  by_cases hr : r = 0
  · simp [hr]
  · by_cases hq : q = 0
    · have : ¬ r = q := by omega
      simp [hq, hr]
    · simp only [hr, hq, if_false, Sparse.get_put, ne_eq, not_false_eq_true, and_true]

-- What each update of the engine leaves alone.
@[simp] theorem EngS.setS_a (g : EngS) (r : Nat) (x : Word) : (g.setS r x).a = g.a := rfl
@[simp] theorem EngS.setS_v (g : EngS) (r : Nat) (x : Word) : (g.setS r x).v = g.v := rfl
@[simp] theorem EngS.setS_p (g : EngS) (r : Nat) (x : Word) : (g.setS r x).p = g.p := rfl
@[simp] theorem EngS.setS_w (g : EngS) (r : Nat) (x : Word) : (g.setS r x).w = g.w := rfl
@[simp] theorem EngS.setS_flags (g : EngS) (r : Nat) (x : Word) : (g.setS r x).flags = g.flags := rfl
@[simp] theorem EngS.setA_s (g : EngS) (r : Nat) (x : Word) : (g.setA r x).s = g.s := rfl
@[simp] theorem EngS.setA_v (g : EngS) (r : Nat) (x : Word) : (g.setA r x).v = g.v := rfl
@[simp] theorem EngS.setA_p (g : EngS) (r : Nat) (x : Word) : (g.setA r x).p = g.p := rfl
@[simp] theorem EngS.setA_w (g : EngS) (r : Nat) (x : Word) : (g.setA r x).w = g.w := rfl
@[simp] theorem EngS.setA_flags (g : EngS) (r : Nat) (x : Word) : (g.setA r x).flags = g.flags := rfl
@[simp] theorem EngS.setV_s (g : EngS) (r i : Nat) (x : Word) : (g.setV r i x).s = g.s := rfl
@[simp] theorem EngS.setV_a (g : EngS) (r i : Nat) (x : Word) : (g.setV r i x).a = g.a := rfl
@[simp] theorem EngS.setV_p (g : EngS) (r i : Nat) (x : Word) : (g.setV r i x).p = g.p := rfl
@[simp] theorem EngS.setV_w (g : EngS) (r i : Nat) (x : Word) : (g.setV r i x).w = g.w := rfl
@[simp] theorem EngS.setV_flags (g : EngS) (r i : Nat) (x : Word) : (g.setV r i x).flags = g.flags := rfl
@[simp] theorem EngS.setW_s (g : EngS) (r i : Nat) (x : BitVec 72) : (g.setW r i x).s = g.s := rfl
@[simp] theorem EngS.setW_a (g : EngS) (r i : Nat) (x : BitVec 72) : (g.setW r i x).a = g.a := rfl
@[simp] theorem EngS.setW_v (g : EngS) (r i : Nat) (x : BitVec 72) : (g.setW r i x).v = g.v := rfl
@[simp] theorem EngS.setW_p (g : EngS) (r i : Nat) (x : BitVec 72) : (g.setW r i x).p = g.p := rfl
@[simp] theorem EngS.setW_flags (g : EngS) (r i : Nat) (x : BitVec 72) : (g.setW r i x).flags = g.flags := rfl
@[simp] theorem EngS.setP_s (g : EngS) (r : Nat) (x : BitVec 8) : (g.setP r x).s = g.s := by
  unfold EngS.setP; split <;> rfl
@[simp] theorem EngS.setP_a (g : EngS) (r : Nat) (x : BitVec 8) : (g.setP r x).a = g.a := by
  unfold EngS.setP; split <;> rfl
@[simp] theorem EngS.setP_v (g : EngS) (r : Nat) (x : BitVec 8) : (g.setP r x).v = g.v := by
  unfold EngS.setP; split <;> rfl
@[simp] theorem EngS.setP_w (g : EngS) (r : Nat) (x : BitVec 8) : (g.setP r x).w = g.w := by
  unfold EngS.setP; split <;> rfl
@[simp] theorem EngS.setP_flags (g : EngS) (r : Nat) (x : BitVec 8) : (g.setP r x).flags = g.flags := by
  unfold EngS.setP; split <;> rfl

-- The next instruction changes only the loops and the PC.
@[simp] theorem EngS.advance_s (g : EngS) : g.advance.s = g.s := rfl
@[simp] theorem EngS.advance_a (g : EngS) : g.advance.a = g.a := rfl
@[simp] theorem EngS.advance_v (g : EngS) : g.advance.v = g.v := rfl
@[simp] theorem EngS.advance_p (g : EngS) : g.advance.p = g.p := rfl
@[simp] theorem EngS.advance_w (g : EngS) : g.advance.w = g.w := rfl
@[simp] theorem EngS.advance_flags (g : EngS) : g.advance.flags = g.flags := rfl
@[simp] theorem EngS.advance_next (g : EngS) : g.advance.next = g.next := rfl
@[simp] theorem EngS.advance_calls (g : EngS) : g.advance.calls = g.calls := rfl

-- The register reads depend on one file each.
theorem EngS.getS_congr {g h : EngS} (e : g.s = h.s) (r : Nat) : g.getS r = h.getS r := by simp only [EngS.getS, e]
theorem EngS.getA_congr {g h : EngS} (e : g.a = h.a) (r : Nat) : g.getA r = h.getA r := by simp only [EngS.getA, e]
theorem EngS.getV_congr {g h : EngS} (e : g.v = h.v) (r i : Nat) : g.getV r i = h.getV r i := by simp only [EngS.getV, e]
theorem EngS.getP_congr {g h : EngS} (e : g.p = h.p) (r : Nat) : g.getP r = h.getP r := by simp only [EngS.getP, e]
theorem EngS.getW_congr {g h : EngS} (e : g.w = h.w) (r i : Nat) : g.getW r i = h.getW r i := by simp only [EngS.getW, e]

/-! ### The lanes of a vector operation -/

/-- `vmap` over the lanes `ls`. -/
theorem EngS.vfold_getV (g g0 : EngS) (p d : Nat) (f : Nat → Word × Flg) (ls : List Nat) (q j : Nat)
    (hl : ∀ i ∈ ls, i < 8) (hn : ls.Nodup) (hj : j < 8) :
    (ls.foldl (fun g' i => if g.lane p i then (g'.setV d i (f i).1).orFlags (f i).2 else g') g0).getV q j =
      if q = d ∧ j ∈ ls ∧ g.lane p j = true then (f j).1 else g0.getV q j := by
  induction ls generalizing g0 with
  | nil => simp
  | cons i t ih =>
    rw [List.foldl_cons, ih _ (fun k hk => hl k (List.mem_cons_of_mem _ hk)) (List.nodup_cons.mp hn).2]
    have hi : i < 8 := hl i List.mem_cons_self
    have hni : i ∉ t := (List.nodup_cons.mp hn).1
    by_cases hp : g.lane p i = true
    · simp only [hp, if_true]
      have : ((g0.setV d i (f i).1).orFlags (f i).2).getV q j = (g0.setV d i (f i).1).getV q j := rfl
      rw [this, EngS.getV_setV _ _ _ _ _ _ hi hj]
      by_cases hq : d = q
      · by_cases hij : i = j
        · subst hij hq
          simp [hp, hni]
        · have : ¬ j = i := fun h => hij h.symm
          simp [hq, hij, this]
      · have : ¬ q = d := fun h => hq h.symm
        simp [hq, this]
    · by_cases hij : j = i
      · subst hij
        simp [hp, hni]
      · simp [hp, hij]

/-- A vector operation writes the enabled lanes of its destination and no other lane (R124). -/
theorem EngS.getV_vmap (g : EngS) (p d : Nat) (f : Nat → Word × Flg) (q j : Nat) (hj : j < 8) :
    (g.vmap p d f).getV q j = if q = d ∧ g.lane p j = true then (f j).1 else g.getV q j := by
  unfold EngS.vmap
  rw [EngS.vfold_getV g g p d f lanes q j (by decide) (by decide) hj]
  have : j ∈ lanes := by
    have : ∀ k : Fin 8, k.val ∈ lanes := by decide
    exact this ⟨j, hj⟩
  simp [this]

theorem EngS.wfold_getW (g g0 : EngS) (p d : Nat) (f : Nat → BitVec 72 × Flg) (ls : List Nat) (q j : Nat)
    (hl : ∀ i ∈ ls, i < 8) (hn : ls.Nodup) (hj : j < 8) :
    (ls.foldl (fun g' i => if g.lane p i then (g'.setW d i (f i).1).orFlags (f i).2 else g') g0).getW q j =
      if q = d ∧ j ∈ ls ∧ g.lane p j = true then (f j).1 else g0.getW q j := by
  induction ls generalizing g0 with
  | nil => simp
  | cons i t ih =>
    rw [List.foldl_cons, ih _ (fun k hk => hl k (List.mem_cons_of_mem _ hk)) (List.nodup_cons.mp hn).2]
    have hi : i < 8 := hl i List.mem_cons_self
    have hni : i ∉ t := (List.nodup_cons.mp hn).1
    by_cases hp : g.lane p i = true
    · simp only [hp, if_true]
      have : ((g0.setW d i (f i).1).orFlags (f i).2).getW q j = (g0.setW d i (f i).1).getW q j := rfl
      rw [this, EngS.getW_setW _ _ _ _ _ _ hi hj]
      by_cases hq : d = q
      · by_cases hij : i = j
        · subst hij hq
          simp [hp, hni]
        · have : ¬ j = i := fun h => hij h.symm
          simp [hq, hij, this]
      · have : ¬ q = d := fun h => hq h.symm
        simp [hq, this]
    · by_cases hij : j = i
      · subst hij
        simp [hp, hni]
      · simp [hp, hij]

theorem EngS.getW_wmap (g : EngS) (p d : Nat) (f : Nat → BitVec 72 × Flg) (q j : Nat) (hj : j < 8) :
    (g.wmap p d f).getW q j = if q = d ∧ g.lane p j = true then (f j).1 else g.getW q j := by
  unfold EngS.wmap
  rw [EngS.wfold_getW g g p d f lanes q j (by decide) (by decide) hj]
  have : j ∈ lanes := by
    have : ∀ k : Fin 8, k.val ∈ lanes := by decide
    exact this ⟨j, hj⟩
  simp [this]

/-- The sticky flags of the enabled lanes. -/
def EngS.laneFlags (g : EngS) (p : Nat) (f : Nat → Flg) : Flg :=
  lanes.foldl (fun acc i => if g.lane p i then acc ||| f i else acc) g.flags

theorem EngS.vfold_flags (g g0 : EngS) (p d : Nat) (f : Nat → Word × Flg) (ls : List Nat) :
    (ls.foldl (fun g' i => if g.lane p i then (g'.setV d i (f i).1).orFlags (f i).2 else g') g0).flags =
      ls.foldl (fun acc i => if g.lane p i then acc ||| (f i).2 else acc) g0.flags := by
  induction ls generalizing g0 with
  | nil => rfl
  | cons i t ih =>
    rw [List.foldl_cons, List.foldl_cons, ih]
    congr 1
    split <;> rfl

theorem EngS.flags_vmap (g : EngS) (p d : Nat) (f : Nat → Word × Flg) :
    (g.vmap p d f).flags = g.laneFlags p (fun i => (f i).2) :=
  EngS.vfold_flags g g p d f lanes

theorem EngS.wfold_flags (g g0 : EngS) (p d : Nat) (f : Nat → BitVec 72 × Flg) (ls : List Nat) :
    (ls.foldl (fun g' i => if g.lane p i then (g'.setW d i (f i).1).orFlags (f i).2 else g') g0).flags =
      ls.foldl (fun acc i => if g.lane p i then acc ||| (f i).2 else acc) g0.flags := by
  induction ls generalizing g0 with
  | nil => rfl
  | cons i t ih =>
    rw [List.foldl_cons, List.foldl_cons, ih]
    congr 1
    split <;> rfl

theorem EngS.flags_wmap (g : EngS) (p d : Nat) (f : Nat → BitVec 72 × Flg) :
    (g.wmap p d f).flags = g.laneFlags p (fun i => (f i).2) :=
  EngS.wfold_flags g g p d f lanes

/-- A fold over the lanes that keeps a field at each lane keeps it. -/
theorem EngS.fold_keeps {β : Type} (P : EngS → β) (step : EngS → Nat → EngS) (h : ∀ g i, P (step g i) = P g)
    (ls : List Nat) (g : EngS) : P (ls.foldl step g) = P g := by
  induction ls generalizing g with
  | nil => rfl
  | cons i t ih => rw [List.foldl_cons, ih, h]

@[simp] theorem EngS.vmap_s (g : EngS) (p d : Nat) (f : Nat → Word × Flg) : (g.vmap p d f).s = g.s :=
  EngS.fold_keeps EngS.s _ (fun g i => by split <;> rfl) lanes g
@[simp] theorem EngS.vmap_a (g : EngS) (p d : Nat) (f : Nat → Word × Flg) : (g.vmap p d f).a = g.a :=
  EngS.fold_keeps EngS.a _ (fun g i => by split <;> rfl) lanes g
@[simp] theorem EngS.vmap_p (g : EngS) (p d : Nat) (f : Nat → Word × Flg) : (g.vmap p d f).p = g.p :=
  EngS.fold_keeps EngS.p _ (fun g i => by split <;> rfl) lanes g
@[simp] theorem EngS.vmap_w (g : EngS) (p d : Nat) (f : Nat → Word × Flg) : (g.vmap p d f).w = g.w :=
  EngS.fold_keeps EngS.w _ (fun g i => by split <;> rfl) lanes g
@[simp] theorem EngS.wmap_s (g : EngS) (p d : Nat) (f : Nat → BitVec 72 × Flg) : (g.wmap p d f).s = g.s :=
  EngS.fold_keeps EngS.s _ (fun g i => by split <;> rfl) lanes g
@[simp] theorem EngS.wmap_a (g : EngS) (p d : Nat) (f : Nat → BitVec 72 × Flg) : (g.wmap p d f).a = g.a :=
  EngS.fold_keeps EngS.a _ (fun g i => by split <;> rfl) lanes g
@[simp] theorem EngS.wmap_p (g : EngS) (p d : Nat) (f : Nat → BitVec 72 × Flg) : (g.wmap p d f).p = g.p :=
  EngS.fold_keeps EngS.p _ (fun g i => by split <;> rfl) lanes g
@[simp] theorem EngS.wmap_v (g : EngS) (p d : Nat) (f : Nat → BitVec 72 × Flg) : (g.wmap p d f).v = g.v :=
  EngS.fold_keeps EngS.v _ (fun g i => by split <;> rfl) lanes g

/-! ### The device's engines -/

@[simp] theorem Dev.en_setEn (d : Dev) (e q : Nat) (g : EngS) :
    (d.setEn e g).en q = if e = q then g else d.en q := by
  simp [Dev.en, Dev.setEn, Sparse.get_put]

@[simp] theorem Dev.en_modEn (d : Dev) (e q : Nat) (f : EngS → EngS) :
    (d.modEn e f).en q = if e = q then f (d.en e) else d.en q := by
  simp [Dev.modEn]

theorem Dev.en_congr {d d' : Dev} (h : d.eng = d'.eng) (e : Nat) : d.en e = d'.en e := by simp only [Dev.en, h]

@[simp] theorem Dev.setEn_syncA (d : Dev) (e : Nat) (g : EngS) : (d.setEn e g).eng.syncA = d.eng.syncA := rfl
@[simp] theorem Dev.setEn_syncB (d : Dev) (e : Nat) (g : EngS) : (d.setEn e g).eng.syncB = d.eng.syncB := rfl
@[simp] theorem Dev.modEn_syncA (d : Dev) (e : Nat) (f : EngS → EngS) : (d.modEn e f).eng.syncA = d.eng.syncA := rfl
@[simp] theorem Dev.modEn_syncB (d : Dev) (e : Nat) (f : EngS → EngS) : (d.modEn e f).eng.syncB = d.eng.syncB := rfl

/-- A fold of register writes keeps every field that register writes keep. -/
theorem Dev.fold_keeps {α β : Type} (P : Dev → β) (step : Dev → α → Dev) (h : ∀ d x, P (step d x) = P d)
    (ls : List α) (d : Dev) : P (ls.foldl step d) = P d := by
  induction ls generalizing d with
  | nil => rfl
  | cons i t ih => rw [List.foldl_cons, ih, h]

/-- The device without its live registers, its events and its interrupt outputs. -/
def Dev.rest (d : Dev) : Dev := { d with live := [], evq := {}, intr := {} }

@[simp] theorem Dev.wr_rest (d : Dev) (f : Fld) (v : Nat) : (d.wr f v).rest = d.rest := rfl
@[simp] theorem Dev.flag_rest (d : Dev) (f : Fld) : (d.flag f).rest = d.rest := rfl
@[simp] theorem Dev.post_rest (d : Dev) (src code arg : Nat) : (d.post src code arg).rest = d.rest := rfl
@[simp] theorem Dev.settle_rest (d : Dev) : d.settle.rest = d.rest := rfl
@[simp] theorem Dev.count_rest (d : Dev) (c half : Fld) (n : Nat) : (d.count c half n).rest = d.rest := by
  unfold Dev.count; dsimp only; split <;> rfl

theorem Dev.en_of_rest {d d' : Dev} (h : d.rest = d'.rest) (e : Nat) : d.en e = d'.en e :=
  Dev.en_congr (congrArg Dev.eng h) e

theorem Dev.snap_rest (d : Dev) (e : Nat) (g : EngS) (ls : List Nat) :
    (ls.foldl (fun d i => d.wr (Reg.ENG_BSNAP_VAL e i) (g.getS i).toNat) d).rest = d.rest := by
  induction ls generalizing d with
  | nil => rfl
  | cons i t ih => rw [List.foldl_cons, ih, Dev.wr_rest]

@[simp] theorem Dev.breakpoint_rest (d : Dev) (e : Nat) : (d.breakpoint e).rest = d.rest := by
  unfold Dev.breakpoint
  dsimp only
  split
  · rw [Dev.post_rest, Dev.flag_rest, Dev.wr_rest, Dev.wr_rest, Dev.wr_rest, Dev.snap_rest]
  · rfl

/-- With no breakpoint enabled the issue of an instruction writes no register and posts nothing. -/
theorem Dev.breakpoint_off (d : Dev) (e : Nat) (h : d.on (Reg.ENG_BRK_EN e) = false) : d.breakpoint e = d := by
  unfold Dev.breakpoint
  simp [h]

/-- The issue of an instruction leaves the engines' register files. -/
theorem Dev.issue_en (d : Dev) (i : Instr) (e q : Nat) :
    (d.issue i e).en q = if e = q then (d.en e).scoreboard (timing i) ((d.en e).issueCycle (timing i)) else d.en q := by
  unfold Dev.issue
  simp [Dev.en_of_rest (Dev.breakpoint_rest d e)]

/-- The device without its engines as well. -/
def Dev.outer (d : Dev) : Dev := { d.rest with eng := { d.eng with e := [] } }

theorem Dev.outer_of_rest {d d' : Dev} (h : d.rest = d'.rest) : d.outer = d'.outer := by
  have he : d.rest.eng = d'.rest.eng := by rw [h]
  replace he : d.eng = d'.eng := he
  unfold Dev.outer
  rw [h, he]

@[simp] theorem Dev.modEn_outer (d : Dev) (e : Nat) (f : EngS → EngS) : (d.modEn e f).outer = d.outer := rfl
@[simp] theorem Dev.settle_outer (d : Dev) : d.settle.outer = d.outer := rfl

@[simp] theorem Dev.issue_outer (d : Dev) (i : Instr) (e : Nat) : (d.issue i e).outer = d.outer := by
  unfold Dev.issue
  dsimp only
  rw [Dev.modEn_outer]
  exact Dev.outer_of_rest (Dev.breakpoint_rest d e)

/-- Two devices that agree outside differ in the live registers, the events, the interrupt outputs and the engines only. -/
theorem Dev.eq_of_outer {d d' : Dev} (h : d'.outer = d.outer) :
    d' = { d with live := d'.live, evq := d'.evq, intr := d'.intr, eng := { d.eng with e := d'.eng.e } } := by
  have h1 : d' = { d'.outer with
      live := d'.live, evq := d'.evq, intr := d'.intr, eng := { d'.outer.eng with e := d'.eng.e } } := rfl
  rw [h] at h1
  exact h1

/-- The issue of instruction `i` changes the scoreboard and nothing else of the engine. -/
def EngS.atIssue (g : EngS) (i : Instr) : EngS := g.scoreboard (timing i) (g.issueCycle (timing i))

@[simp] theorem EngS.atIssue_s (g : EngS) (i : Instr) : (g.atIssue i).s = g.s := rfl
@[simp] theorem EngS.atIssue_a (g : EngS) (i : Instr) : (g.atIssue i).a = g.a := rfl
@[simp] theorem EngS.atIssue_v (g : EngS) (i : Instr) : (g.atIssue i).v = g.v := rfl
@[simp] theorem EngS.atIssue_p (g : EngS) (i : Instr) : (g.atIssue i).p = g.p := rfl
@[simp] theorem EngS.atIssue_w (g : EngS) (i : Instr) : (g.atIssue i).w = g.w := rfl
@[simp] theorem EngS.atIssue_flags (g : EngS) (i : Instr) : (g.atIssue i).flags = g.flags := rfl
@[simp] theorem EngS.atIssue_loops (g : EngS) (i : Instr) : (g.atIssue i).loops = g.loops := rfl
@[simp] theorem EngS.atIssue_calls (g : EngS) (i : Instr) : (g.atIssue i).calls = g.calls := rfl
@[simp] theorem EngS.atIssue_pc (g : EngS) (i : Instr) : (g.atIssue i).pc = g.pc := rfl
@[simp] theorem EngS.atIssue_getS (g : EngS) (i : Instr) (r : Nat) : (g.atIssue i).getS r = g.getS r := rfl
@[simp] theorem EngS.atIssue_getA (g : EngS) (i : Instr) (r : Nat) : (g.atIssue i).getA r = g.getA r := rfl
@[simp] theorem EngS.atIssue_getV (g : EngS) (i : Instr) (r k : Nat) : (g.atIssue i).getV r k = g.getV r k := rfl
@[simp] theorem EngS.atIssue_getP (g : EngS) (i : Instr) (r : Nat) : (g.atIssue i).getP r = g.getP r := rfl
@[simp] theorem EngS.atIssue_getW (g : EngS) (i : Instr) (r k : Nat) : (g.atIssue i).getW r k = g.getW r k := rfl
@[simp] theorem EngS.atIssue_lane (g : EngS) (i : Instr) (p k : Nat) : (g.atIssue i).lane p k = g.lane p k := rfl

/-- What an effect `f` on the engine of an issued instruction can do: everything but the engine stays, apart from what a
breakpoint captures in registers and posts. -/
theorem onEngine_next (i : Instr) (e : Eng) (f : EngS → EngS) (s : State) :
    ∃ t, onDev (fun d => (d.issue i e).modEn e f) s = .next t ∧
      (t.nv = s.nv ∧ t.pending = s.pending ∧ (∀ q, q ≠ e.val → t.dev.en q = s.dev.en q) ∧
        t.dev = { s.dev with live := t.dev.live, evq := t.dev.evq, intr := t.dev.intr,
                             eng := { s.dev.eng with e := t.dev.eng.e } } ∧
        (s.dev.on (Reg.ENG_BRK_EN e) = false →
          t.dev.live = s.dev.live ∧ t.dev.evq = s.dev.evq.settle s.dev.schTick)) ∧
      t.dev.en e = f ((s.dev.en e).atIssue i) := by
  refine ⟨_, rfl, ⟨rfl, rfl, ?_, ?_, ?_⟩, ?_⟩
  · intro q hq
    have : ¬ e.val = q := fun h => hq h.symm
    rw [Dev.en_of_rest (Dev.settle_rest _), Dev.en_modEn, if_neg this, Dev.issue_en, if_neg this]
  · apply Dev.eq_of_outer
    simp
  · intro h
    simp only [Dev.issue, Dev.breakpoint_off _ _ h]
    exact ⟨rfl, rfl⟩
  · rw [Dev.en_of_rest (Dev.settle_rest _), Dev.en_modEn, if_pos rfl, Dev.issue_en, if_pos rfl]
    rfl

/-- What the form of the register instructions can do. -/
theorem engOp_next (i : Instr) (e : Eng) (f : EngS → EngS) (s : State) :
    ∃ t, engOp i e f s = .next t ∧
      (t.nv = s.nv ∧ t.pending = s.pending ∧ (∀ q, q ≠ e.val → t.dev.en q = s.dev.en q) ∧
        t.dev = { s.dev with live := t.dev.live, evq := t.dev.evq, intr := t.dev.intr,
                             eng := { s.dev.eng with e := t.dev.eng.e } } ∧
        (s.dev.on (Reg.ENG_BRK_EN e) = false →
          t.dev.live = s.dev.live ∧ t.dev.evq = s.dev.evq.settle s.dev.schTick)) ∧
      t.dev.en e = (f ((s.dev.en e).atIssue i)).advance :=
  onEngine_next i e (fun g => (f g).advance) s

/-- What the form of the control instructions can do. -/
theorem ctlOp_next (i : Instr) (e : Eng) (f : EngS → EngS) (s : State) :
    ∃ t, ctlOp i e f s = .next t ∧
      (t.nv = s.nv ∧ t.pending = s.pending ∧ (∀ q, q ≠ e.val → t.dev.en q = s.dev.en q) ∧
        t.dev = { s.dev with live := t.dev.live, evq := t.dev.evq, intr := t.dev.intr,
                             eng := { s.dev.eng with e := t.dev.eng.e } } ∧
        (s.dev.on (Reg.ENG_BRK_EN e) = false →
          t.dev.live = s.dev.live ∧ t.dev.evq = s.dev.evq.settle s.dev.schTick)) ∧
      t.dev.en e = f ((s.dev.en e).atIssue i) :=
  onEngine_next i e f s

end Sys2Proof.Machine
end

