-- ==== Sys2Proof/Laws/Memory.lean ====
section
/-! SUPPORT. What the memory operations read after and that they keep the canonical form. -/
namespace Sys2Proof.Machine

/-- A fold of writes keeps the canonical form. -/
theorem Sparse.wf_foldl_put {α β : Type} [DecidableEq α] (d : α) (k : β → Nat) (v : β → α) (es : List β) (l : Sparse α)
    (h : Sparse.wf (fun _ => d) l = true) :
    Sparse.wf (fun _ => d) (es.foldl (fun m e => Sparse.put d m (k e) (v e)) l) = true := by
  induction es generalizing l with
  | nil => exact h
  | cons e es ih => exact ih _ (Sparse.wf_put (fun _ => d) l (k e) (v e) h)

/-- A fold of writes that never name key `j` leaves it. -/
theorem Sparse.get_foldl_put_ne {α β : Type} [DecidableEq α] (d : α) (k : β → Nat) (v : β → α) (es : List β) (l : Sparse α) (j : Nat)
    (h : ∀ e ∈ es, k e ≠ j) :
    Sparse.get d (es.foldl (fun m e => Sparse.put d m (k e) (v e)) l) j = Sparse.get d l j := by
  induction es generalizing l with
  | nil => rfl
  | cons e es ih =>
    rw [List.foldl_cons, ih _ fun x hx => h x (List.mem_cons_of_mem _ hx)]
    exact Sparse.get_put_ne d d l _ j _ (h e List.mem_cons_self)

/-- A list of values written from key `k` on reads back, and leaves every other key. -/
theorem Sparse.get_putList {α : Type} [DecidableEq α] (d : α) (vs : List α) (l : Sparse α) (k j : Nat) :
    Sparse.get d (Sparse.putList d l k vs) j = if k ≤ j ∧ j < k + vs.length then vs.getD (j - k) d else Sparse.get d l j := by
  induction vs generalizing l k with
  | nil => simp [Sparse.putList]
  | cons v vs ih =>
    rw [Sparse.putList, ih, Sparse.get_put]
    simp only [List.length_cons]
    by_cases h : k = j
    · subst h
      simp
    · rw [if_neg h]
      by_cases hj : k + 1 ≤ j ∧ j < k + 1 + vs.length
      · rw [if_pos hj, if_pos (by omega), show j - k = (j - (k + 1)) + 1 by omega, List.getD_cons_succ]
      · rw [if_neg hj, if_neg (by omega)]

/-! ### Ranges of grate memory and of the channels (R200, R213) -/

theorem clearRange_wf {α : Type} [DecidableEq α] (d : Nat → α) (l : Sparse α) (k n : Nat) (h : Sparse.wf d l = true) :
    Sparse.wf d (clearRange l k n) = true := Sparse.wf_filter d l _ h

/-- A cleared range reads as unlisted, and every other key as before. -/
theorem clearRange_get {α : Type} (d : α) (l : Sparse α) (k n j : Nat) :
    Sparse.get d (clearRange l k n) j = if k ≤ j ∧ j < k + n then d else Sparse.get d l j := by
  unfold clearRange
  induction l with
  | nil => simp [Sparse.get]
  | cons e t ih =>
    obtain ⟨a, w⟩ := e
    simp only [List.filter_cons, Sparse.get]
    by_cases ha : k ≤ a ∧ a < k + n
    · rw [if_neg (by simp [ha]), ih]
      by_cases hj : k ≤ j ∧ j < k + n
      · rw [if_pos hj, if_pos hj]
      · rw [if_neg hj, if_neg hj]
        have : ¬ a = j := by rintro rfl; exact hj ha
        simp [this]
    · rw [if_pos (by simp only [Bool.not_eq_true', Bool.and_eq_false_iff, decide_eq_false_iff_not]; omega)]
      simp only [Sparse.get, ih]
      by_cases hj : k ≤ j ∧ j < k + n
      · have : ¬ a = j := by rintro rfl; exact ha hj
        simp [this, hj]
      · simp only [if_neg hj]

theorem copyRange_wf (src : Sparse Word) (k n : Nat) (dst : Sparse Word) (dest : Nat)
    (h : Sparse.wf (fun _ => (0 : Word)) dst = true) :
    Sparse.wf (fun _ => (0 : Word)) (copyRange src k n dst dest) = true :=
  Sparse.wf_foldl_put 0 (fun e : Nat × Word => e.1 - k + dest) (fun e => e.2) _ _ (clearRange_wf _ dst dest n h)

/-- The copied range of a store whose keys rise reads as its source, and every other key as before. -/
theorem copyRange_get (src : Sparse Word) (k n : Nat) (dst : Sparse Word) (dest j : Nat)
    (h : Sparse.rising 0 src = true) :
    Sparse.get 0 (copyRange src k n dst dest) j =
      if dest ≤ j ∧ j < dest + n then Sparse.get 0 src (j - dest + k) else Sparse.get 0 dst j := by
  unfold copyRange
  suffices H : ∀ (lo : Nat) (l : Sparse Word) (m : Sparse Word), Sparse.rising lo l = true →
      Sparse.get 0 ((l.filter fun e => decide (k ≤ e.1) && decide (e.1 < k + n)).foldl
        (fun m e => Sparse.put 0 m (e.1 - k + dest) e.2) m) j =
      if dest ≤ j ∧ j < dest + n ∧ (∃ e ∈ l, e.1 = j - dest + k) then Sparse.get 0 l (j - dest + k) else Sparse.get 0 m j by
    rw [H 0 src _ h, clearRange_get]
    by_cases hj : dest ≤ j ∧ j < dest + n
    · rw [if_pos hj, if_pos hj]
      by_cases he : ∃ e ∈ src, e.1 = j - dest + k
      · rw [if_pos ⟨hj.1, hj.2, he⟩]
      · rw [if_neg fun hh => he hh.2.2]
        symm
        clear H h
        induction src with
        | nil => rfl
        | cons e t ih =>
          obtain ⟨a, w⟩ := e
          have : ¬ a = j - dest + k := fun ha => he ⟨_, List.mem_cons_self, ha⟩
          simp only [Sparse.get, beq_iff_eq, if_neg this]
          exact ih fun ⟨x, hx, hh⟩ => he ⟨x, List.mem_cons_of_mem _ hx, hh⟩
    · rw [if_neg hj, if_neg hj, if_neg fun hh => hj ⟨hh.1, hh.2.1⟩]
  intro lo l
  induction l generalizing lo with
  | nil => intro m _; simp
  | cons e t ih =>
    intro m hr
    obtain ⟨a, w⟩ := e
    simp only [Sparse.rising, Bool.and_eq_true, decide_eq_true_eq] at hr
    have above : ∀ x ∈ t, a < x.1 := by
      clear ih
      have hr2 := hr.2
      clear hr
      suffices ∀ b, Sparse.rising b t = true → ∀ x ∈ t, b ≤ x.1 from fun x hx => this (a + 1) hr2 x hx
      intro b
      induction t generalizing b with
      | nil => intro _ x hx; cases hx
      | cons y u ihu =>
        intro hb x hx
        obtain ⟨c, z⟩ := y
        simp only [Sparse.rising, Bool.and_eq_true, decide_eq_true_eq] at hb
        rcases List.mem_cons.mp hx with rfl | hx
        · exact hb.1
        · have := ihu (hr2 := Sparse.rising_le u (a + 1) (c + 1) hb.2 (by
            have h1 : Sparse.rising (a + 1) ((c, z) :: u) = true := hr2
            simp only [Sparse.rising, Bool.and_eq_true, decide_eq_true_eq] at h1
            omega)) (c + 1) hb.2 x hx
          omega
    simp only [List.filter_cons]
    by_cases ha : k ≤ a ∧ a < k + n
    · rw [if_pos (by simp [ha]), List.foldl_cons, ih (a + 1) _ hr.2]
      by_cases hj : dest ≤ j ∧ j < dest + n
      · by_cases hk : a = j - dest + k
        · have hn : ¬ ∃ e ∈ t, e.1 = j - dest + k := fun ⟨x, hx, hh⟩ => by have := above x hx; omega
          rw [if_neg fun hh => hn hh.2.2, if_pos ⟨hj.1, hj.2, (a, w), List.mem_cons_self, hk⟩, Sparse.get_put, if_pos (by omega)]
          simp [Sparse.get, hk]
        · have e1 : (∃ e ∈ (a, w) :: t, e.1 = j - dest + k) ↔ ∃ e ∈ t, e.1 = j - dest + k := by
            simp [hk]
          simp only [e1, Sparse.get, beq_iff_eq, if_neg hk]
          split
          · rfl
          · exact Sparse.get_put_ne _ _ _ _ _ _ (by omega)
      · rw [if_neg fun hh => hj ⟨hh.1, hh.2.1⟩, if_neg fun hh => hj ⟨hh.1, hh.2.1⟩]
        exact Sparse.get_put_ne _ _ _ _ _ _ (by omega)
    · rw [if_neg (by simp only [Bool.and_eq_true, decide_eq_true_eq]; exact ha), ih (a + 1) _ hr.2]
      by_cases hj : dest ≤ j ∧ j < dest + n
      · have hk : ¬ a = j - dest + k := by omega
        have e1 : (∃ e ∈ (a, w) :: t, e.1 = j - dest + k) ↔ ∃ e ∈ t, e.1 = j - dest + k := by simp [hk]
        simp only [e1, Sparse.get, beq_iff_eq, if_neg hk]
      · rw [if_neg fun hh => hj ⟨hh.1, hh.2.1⟩, if_neg fun hh => hj ⟨hh.1, hh.2.1⟩]

/-! ### Words and tiles of a hearth -/

theorem HMem.setWord_wf (m : HMem) (k : Nat) (x : Word) (h : Sparse.wf (fun _ => (0 : Word)) m.gw = true) :
    Sparse.wf (fun _ => (0 : Word)) (m.setWord k x).gw = true := Sparse.wf_put (fun _ => 0) m.gw k x h

theorem HMem.setTile_wf (m : HMem) (c par lane : Nat) (x : Word) (h : Sparse.wf (fun _ => (0 : Word)) m.tiles = true) :
    Sparse.wf (fun _ => (0 : Word)) (m.setTile c par lane x).tiles = true := Sparse.wf_put (fun _ => 0) m.tiles _ x h

@[simp] theorem HMem.setWord_tiles (m : HMem) (k : Nat) (x : Word) : (m.setWord k x).tiles = m.tiles := rfl
@[simp] theorem HMem.setTile_gw (m : HMem) (c par lane : Nat) (x : Word) : (m.setTile c par lane x).gw = m.gw := rfl

/-- A word written reads back, and leaves every other word. -/
theorem HMem.word_setWord (m : HMem) (k j : Nat) (x : Word) : (m.setWord k x).word j = if k = j then x else m.word j :=
  Sparse.get_put 0 m.gw k j x

/-- A fill of a frame keeps the canonical form of grate memory (R210, R218). -/
theorem Dev.fillFrom_wf (d : Dev) (c l p key : Nat) (g : Sparse Word) (h : Sparse.wf (fun _ => (0 : Word)) g = true) :
    Sparse.wf (fun _ => (0 : Word)) (d.fillFrom c l p key g) = true := by
  unfold Dev.fillFrom
  split
  · split
    · exact clearRange_wf _ g key 1024 h
    · exact Sparse.wf_putList 0 _ _ _ (clearRange_wf _ g key 1024 h)
  · split
    · exact h
    · exact copyRange_wf _ _ _ g key h

/-- Right after reset every store is in canonical form. -/
theorem State.reset_memories_wf :
    Sparse.wf (fun _ => (0xFF : Byte)) State.reset.nv.flash = true ∧ Sparse.wf (fun _ => (0 : Word)) State.reset.dev.mem.hA.gw = true ∧
      Sparse.wf (fun _ => (0 : Word)) State.reset.dev.mem.hB.gw = true ∧ Sparse.wf (fun _ => (0 : Word)) State.reset.dev.mem.hA.tiles = true ∧
      Sparse.wf (fun _ => (0 : Word)) State.reset.dev.mem.hB.tiles = true ∧ Sparse.wf (fun _ => (0 : Word)) State.reset.dev.mem.ch0.words = true ∧
      Sparse.wf (fun _ => (0 : Word)) State.reset.dev.mem.ch1.words = true := ⟨rfl, rfl, rfl, rfl, rfl, rfl, rfl⟩

end Sys2Proof.Machine
end

