-- ==== Sys2Proof/Tests/Slice0.lean ====
section
/-! SUPPORT. The tests of the model: ill-formed commands, words of engine instructions written out from the spec, one or two
steps per family on small states, and for each statement of the obligations a witness that meets its hypotheses. -/
namespace Sys2Proof.Tests
open Sys2Proof Sys2Proof.Machine Sys2Proof.Claims
set_option Elab.async false

/-! ### Small states -/

/-- The reset state with the device changed by `f`. -/
def on (f : Dev → Dev) : State := { State.reset with dev := f State.reset.dev }

/-- The reset state with engine 0 in state `g`. -/
def engine (g : EngS) : State := on fun d => d.setEn 0 g

/-! ### Well-formedness: an ill-formed command for each check, which the check refuses -/

theorem test_wf_wtov : (Instr.wtov 0 30 0 0).wf = false ∧ (Instr.wtov 0 29 0 0).wf = true := by decide
theorem test_wf_vtow : (Instr.vtow 0 0 30 0).wf = false ∧ (Instr.vtow 0 0 29 0).wf = true := by decide
theorem test_wf_cstep : (Instr.cstep 0 1 0 0 0).wf = false ∧ (Instr.cstep 0 3 0 0 0).wf = false ∧ (Instr.cstep 0 2 0 0 0).wf = true := by decide
theorem test_wf_biq : (Instr.biq 0 28 0 0 false 0).wf = false ∧ (Instr.biq 0 27 0 0 false 0).wf = true := by decide
theorem test_wf_gramp : (Instr.gramp 0 31 0 0 false 0).wf = false ∧ (Instr.gramp 0 30 0 0 false 0).wf = true := by decide
theorem test_wf_grampv : (Instr.grampv 0 30 0 0 false 0).wf = false ∧ (Instr.grampv 0 29 0 0 false 0).wf = true := by decide
theorem test_wf_loopReg : (Instr.loopReg 0 0 0 3).wf = false ∧ (Instr.loopReg 0 0 1 3).wf = true := by decide
theorem test_wf_call : (Instr.call 0 0).wf = false ∧ (Instr.call 0 1).wf = true := by decide
theorem test_wf_wait : (Instr.wait 0 0 0 0).wf = false ∧ (Instr.wait 0 0 0 1).wf = true := by decide
theorem test_wf_gue : (Instr.gue .a 2097152 none).wf = false ∧ (Instr.gue .a 2097151 none).wf = true := by decide
theorem test_wf_isramUe : (Instr.isramUe .a 131072 none).wf = false ∧ (Instr.isramUe .a 131071 none).wf = true := by decide
theorem test_wf_isramRewrite : (Instr.isramRewrite .b 131072).wf = false ∧ (Instr.isramRewrite .b 131071).wf = true := by decide

/-! ### Words of engine instructions, written out from the encodings of spec/05 -/

/-- The example of R169: words that spec/05 spells out. -/
theorem test_words_of_the_spec (e : Eng) : decodeWord e 0x61834000 = some (.ldc e 12 0 0 0 3) ∧
    decodeWord e 0x31CC0005 = some (.vdup e 14 12 0 0) ∧ decodeWord e 0x900D0800 = some (.mixl e 0 13 0 false 0) ∧
    decodeWord e 0x821A2028 = some (.biq e 16 26 40 true 0) ∧ decodeWord e 0x43400003 = some (.wextl e 26 0 0 0) ∧
    decodeWord e 0x86B02050 = some (.gramp e 21 16 80 true 0) ∧ decodeWord e 0xF8000000 = some (.endRun e) ∧
    decodeWord e 0x62300000 = some (.ldt e 17 4 0 0) ∧ decodeWord e 0xFFFFFFFF = none := by
  revert e; decide +kernel

/-! ### Witnesses: engine instructions -/

/-- Engine 0 with some register values and predicate 1 enabling lane 7 only. -/
def g0 : EngS := { s := [(1, 5), (2, 0xFFFFFFFF)], a := [(4, 1)], p := [(1, 0x80)], running := true, job := 3, pc := 9 }

theorem test_witness_scalar : ∃ x, scalarResult (engine g0) (.ssub 0 15 1 2) = some (0, 15, x) ∧ x = 6 := ⟨_, rfl, by decide⟩
theorem test_witness_scalar_ignored : scalarResult State.reset (.nop 0) = none := rfl
theorem test_witness_compares : ∃ f, compareResult (engine g0) (.qclt 0 3 31 0 1) = some (0, 3, 1, f) := ⟨_, rfl⟩
theorem test_witness_wide : (∃ f, wideResult (engine g0) (.macv 0 3 1 2 1) = some (0, 3, 1, f)) ∧
    ((2 : WReg).val = 0 ∨ (2 : WReg).val = 2) ∧ ¬ ((1 : WReg).val = 0 ∨ (1 : WReg).val = 2) := ⟨⟨_, rfl⟩, by decide, by decide⟩
theorem test_witness_wide_moves : (29 : VReg).val ≤ 29 := by decide
theorem test_witness_address_and_predicate : (∃ x, addressResult (engine g0) (.aaddi 0 7 4 (-2)) = some (0, 7, x) ∧ x = 0x3FFFFFFF) ∧
    (∃ b, predicateResult (engine g0) (.pnot 0 0 1) = some (0, 0, b)) := ⟨⟨_, rfl, by decide⟩, _, rfl⟩
theorem test_witness_vector : (∃ f, saturatingResult (engine g0) (.qadd 0 31 1 2 1) = some (0, 31, 1, f)) ∧
    (∃ f, integerResult (engine g0) (.vli 0 0 7 0) = some (0, 0, 0, f)) ∧
    (∃ f, extractResult (engine g0) (.wextt 0 0 3 31 0) = some (0, 0, 0, f)) ∧
    (∃ f, dynamicsResult (engine g0) (.limg 0 0 1 1023 true 0) = some (0, 0, 0, f)) ∧
    (∃ f, floatResult (engine g0) (.fdiv 0 0 1 2 0) = some (0, 0, 0, f)) := ⟨⟨_, rfl⟩, ⟨_, rfl⟩, ⟨_, rfl⟩, ⟨_, rfl⟩, _, rfl⟩

/-- Job 3 in force: a private run of one tile, outputs of handle 0x4000, delay lines 5 and 6. -/
def j3 : Job := { desc := [3, 0, 0, 0, 0, 0, 0, 0, 0, 0x00014000, 0, 0, 0x00002005, 1], run := 4096, runLen := 1 }

/-- Engine 0 runs job 3. -/
def running : State := on fun d => { d.setEn 0 g0 with sch := { d.sch with force := [(3, j3)] } }

theorem test_witness_loads :
    (let D := running.dev.issue (.ldt 0 0 4 0 1) 0
     D.resolve 0 (jobOn D 0) false (effAddr 1 0 0) = .ok (.mem 65544)) ∧
    (let D := running.dev.issue (.ldc 0 0 4 0x3F1 11 1) 0
     ∀ i, i < 8 → (running.dev.en 0).lane 1 i = true →
       D.resolve 0 (jobOn D 0) false (effAddr 1 0x3F1 (2 * i + 11 / 8)) = .ok (.mem 65544)) ∧
    (let D := running.dev.issue (.lds 0 0 5 0 7) 0
     D.resolve 0 (jobOn D 0) false (effAddr 0 0 0) = .ok (.mem 65536)) := by decide +kernel

theorem test_witness_stores :
    (let D := running.dev.issue (.stt 0 0 4 0 1) 0
     D.resolve 0 (jobOn D 0) true (effAddr 1 0 0) = .ok (.mem 65544)) ∧
    (let D := running.dev.issue (.stc 0 0 4 0x3F1 11 1) 0
     ∀ i, i < 8 → (running.dev.en 0).lane 1 i = true →
       D.resolve 0 (jobOn D 0) true (effAddr 1 0x3F1 (2 * i + 11 / 8)) = .ok (.mem 65544)) ∧
    (let D := running.dev.issue (.sts 0 0 4 0 7) 0
     D.resolve 0 (jobOn D 0) true (effAddr 0x40008001 0 0) = .ok (.chan 0x4000 1)) := by decide +kernel

/-- Engines 0, 1 and 2 run job 3. -/
def running3 : State := on fun d =>
  { ((d.setEn 0 g0).setEn 1 g0).setEn 2 g0 with sch := { d.sch with force := [(3, j3)] } }

theorem test_witness_same_cycle :
    let L := running3.dev.issue (.sts 0 0 5 0 7) 0
    let H := running3.dev.issue (.sts 2 1 5 0 7) 2
    let R := running3.dev.issue (.lds 1 0 5 0 7) 1
    (L.en 0).now = (H.en 2).now ∧ (R.en 1).now = (H.en 2).now ∧ (running3.dev.hm 0).cyc ≠ (H.en 2).now ∧
    L.resolve 0 (jobOn L 0) true (effAddr 0 0 0) = .ok (.mem 65536) ∧
    H.resolve 0 (jobOn H 2) true (effAddr 0 0 0) = .ok (.mem 65536) ∧
    R.resolve 0 (jobOn R 1) false (effAddr 0 0 0) = .ok (.mem 65536) := by decide +kernel

/-- Engine 3 has stored the cell in the cycle in which engine 0 stores it. -/
theorem test_witness_overtaken :
    let H := running.dev.issue (.sts 0 0 5 0 7) 0
    let D : Dev := { H with mem := { H.mem with hA := { H.mem.hA with cyc := (H.en 0).now, stores := Sparse.put (16, 0) [] (cellKey (.word 65543)) (3, 0) } } }
    Overtaken D 0 (cellKey (.word 65543)) ∧ ¬ Overtaken D 0 (cellKey (.word 65542)) := by unfold Overtaken; decide +kernel

/-- Delay line 5 of job 3: two pages, head position 1,030 in the pair (0, 1); page 1 is resident in frame 2. -/
def line5 : Line := { npages := 2, prot := false, hearth := 0, slew := 0, tap0 := 0, span := 1, base := 0, fr := 3, head := 1030 }
def lined : State := on fun d =>
  { d.setEn 0 { g0 with s := [(1, 0), (2, 1030)] } with
    sch := { d.sch with force := [(3, j3)] }
    mem := { d.mem with lines := [(5, line5)], hA := { frames := [(2, { st := .resident, line := 5, page := 1 })] } } }

theorem test_witness_delay_line_read :
    let rd := fun a : SReg => (lined.dev.issue (.dlrd 0 0 a 5 1) 0).noteTap 0 5 ((lined.dev.en 0).getS a).toNat
    (lined.dev.en 0).enabled 1 = [7] ∧ (jobOn (lined.dev.issue (.dlrd 0 0 1 5 1) 0) 0).namesLine 5 = true ∧
    (rd 1).absentPage 0 5 0 [7] = none ∧ (rd 1).posOf 5 0 7 false = some (1, 13) ∧ (rd 1).poisonedAt 0 5 (1, 13) = false ∧
    (rd 2).absentPage 0 5 1030 [7] = some 0 := by decide +kernel

theorem test_witness_delay_line_write :
    let D := lined.dev.issue (.dlwr 0 0 1 5 1) 0
    (lined.dev.en 0).enabled 1 = [7] ∧ (jobOn D 0).namesLine 5 = true ∧ D.line 5 = some line5 ∧ line5.prot = false ∧
    D.posOf 5 0 7 true = some (1, 13) ∧ 1 ∈ line5.pair ∧
    (D.hm 0).frameOf 5 1 = some (2, { st := .resident, line := 5, page := 1 }) ∧ Frame.st { st := .resident, line := 5, page := 1 } ≠ .filling ∧
    ¬ Overtaken D 0 (posKey 5 (1, 13)) := by unfold Overtaken; decide +kernel

theorem test_witness_audio : (27 : VReg).val ≤ 27 ∧ (30 : VReg).val ≤ 30 ∧ (29 : VReg).val ≤ 29 := by decide

/-- Engine 0 inside a loop body, called from instruction 2. -/
def looping : State := engine { g0 with loops := [{ start := 7, last := 9, iter := 0, count := 2, depth := 1 }], calls := [2] }

theorem test_witness_control :
    (engine g0).dev.en 0 = g0 ∧ g0.loops = [] ∧ g0.getS 1 ≠ 0 ∧ g0.getS 0 = 0 ∧ g0.getP 1 ≠ 0 ∧ g0.getP 2 = 0 ∧
    (0xFFF : BitVec 12) ≠ 0 ∧ (1 : BitVec 20) ≠ 0 ∧
    (looping.dev.en 0).calls = 2 :: [] ∧ (∀ l ∈ (looping.dev.en 0).loops, l.depth > ([] : List Nat).length) := by decide +kernel

theorem test_witness_loop_body : (looping.dev.en 0).loops = [{ start := 7, last := 9, iter := 0, count := 2, depth := 1 }] ∧
    1 = (looping.dev.en 0).calls.length ∧ 9 = (looping.dev.en 0).pc ∧ 0 + 1 < 2 ∧
    (let s := engine { g0 with loops := [{ start := 7, last := 9, iter := 1, count := 2, depth := 0 }] }
     (s.dev.en 0).loops = [{ start := 7, last := 9, iter := 1, count := 2, depth := 0 }] ∧ (s.dev.en 0).calls.length = 0 ∧
     (s.dev.en 0).pc = 9 ∧ ¬ 1 + 1 < 2) := by decide +kernel

/-- Sync flag 15 of Hearth A is set; engine 8 waits on flag 0 of Hearth B. -/
def waiting : State := on fun d =>
  { d with eng := { d.eng with syncA := 0x8000, e := [(8, { wait := some { d := 4, flag := 0, at_ := 1, t := 2 } })] } }

theorem test_witness_signal_and_wait : (4095 : BitVec 12) ≠ 0 ∧ (waiting.dev.sync 0).getLsbD 15 = true ∧
    (waiting.dev.sync 0).getLsbD 14 = false ∧
    (waiting.dev.en 8).wait = some { d := 4, flag := 0, at_ := 1, t := 2 } := by decide +kernel

/-- A flag set well before the timeout of a WAIT of 4 cycles issued in cycle 10, and one set after it. -/
theorem test_witness_wait_gives : (WaitGives 1 10 4 12 ∧ 12 + 1 < 10 + 4) ∧ (WaitGives 0 10 4 14 ∧ 10 + 4 < 14 + 1) := by
  unfold WaitGives; decide

theorem test_witness_post : State.reset.dev.on (Reg.ENG_BRK_EN 0) = false ∧ Room State.reset ∧
    (State.reset.dev.en 0).posts < 4 ∧ 4 ≤ ((engine { g0 with posts := 4 }).dev.en 0).posts ∧
    (engine { g0 with posts := 4 }).dev.on (Reg.ENG_BRK_EN 0) = false ∧ Room (engine { g0 with posts := 4 }) := by
  unfold Room; decide +kernel

theorem test_witness_end : ((engine g0).dev.en 0).running = true := by decide +kernel

theorem test_witness_undefined_words : (∃ w, encodeWord (.cstep 0 1 0 0 0) = some w) ∧ (Instr.cstep 0 1 0 0 0).wf = false ∧
    (∃ w, encodeWord (.cstep 0 2 0 0 0) = some w) ∧ (Instr.cstep 0 2 0 0 0).wf = true :=
  ⟨⟨_, rfl⟩, rfl, ⟨_, rfl⟩, rfl⟩

theorem test_witness_float_special : (fpOf 0x7FC00001).1 = .nan ∧ (fpOf 0xFF800000).1 = .inf true ∧
    (fpOf 0x80000000).1 = .fin true 0 0 ∧ (fpOf 0x00800000).1 = .fin false 0x800000 (-149) ∧
    ((1 : Word).toNat / 2 ^ 23 % 256 = 0 ∧ (1 : Word).toNat % 2 ^ 23 ≠ 0) := by decide +kernel

theorem test_witness_rounding : (fround false 0x1000001 0 false).2 = 0 ∧ (fround true 1 128 false).2 = 8 ∧
    (fround false 1 (-127) false).2 = 32 := by decide +kernel

theorem test_witness_refused_accesses :
    (running.dev.en 0).lane 1 7 = true ∧
    (let D := running.dev.issue (.ldc 0 0 4 0 0 1) 0
     D.resolve 0 (jobOn D 0) false (effAddr 1 0 14) = .error 2) ∧
    (let D := running.dev.issue (.stc 0 0 4 0 0 1) 0
     D.resolve 0 (jobOn D 0) true (effAddr 0x80000000 0 14) = .error 1) ∧
    (lined.dev.en 0).enabled 1 ≠ [] ∧
    (jobOn (lined.dev.issue (.dlrd 0 0 1 7 1) 0) 0).namesLine 7 = false ∧
    (jobOn (lined.dev.issue (.dlwr 0 0 1 4 1) 0) 0).namesLine 4 = false ∧ 3072 ≤ (3072 : BitVec 12).toNat := by decide +kernel

/-! ### Witnesses: the queue, the invariants and the registers -/

theorem test_witness_step : ({ State.reset with pending := [.nop 0, .br 1 2] } : State).pending = .nop 0 :: [.br 1 2] ∧
    State.reset.pending = [] := ⟨rfl, rfl⟩
theorem test_witness_commands : ∃ t, exec (.safe .sup) State.reset = .next t := ⟨_, rfl⟩

theorem test_witness_invariants : Settled State.reset ∧ (∃ t, step { State.reset with pending := [.nop 3] } = .next t) ∧
    MemoryWf lined ∧ SequenceWf lined := by
  refine ⟨⟨rfl, by decide, ?_⟩, ⟨_, rfl⟩, ⟨by decide, by decide +kernel, ?_⟩, ?_⟩
  · intro v
    constructor
    · intro h; cases h
    · rintro ⟨-, i, hi, -, he, -⟩
      have h0 : State.reset.dev.rd Reg.INT_EN_EN = 0 := by decide +kernel
      rw [h0] at he; simp at he
  · intro c h; cases h
  · intro f; exact (by decide : 0 < 65536)

theorem test_witness_decoding : (Instr.grampv 15 29 31 1023 true 3).wf = true ∧
    (∃ w, encodeWord (.grampv 15 29 31 1023 true 3) = some w) ∧ decodeWord 15 0xF8000000 = some (.endRun 15) :=
  ⟨rfl, ⟨_, rfl⟩, by decide +kernel⟩

/-! ### Witnesses: register accesses and commits -/

theorem test_witness_register_writes :
    PlainWord 0x101C ∧ MayWrite State.reset .pcie 0x2008 0xFFFFFFFF ∧ PlainWord 0x2014 ∧ MayWrite State.reset .pcie 0x2014 0xFFFFFFFF ∧
    (0x3FFFC < 0x40000 ∧ (7 : BitVec 4) ≠ 0xF) ∧
    (0xB014 % 4 = 0 ∧ slowWord 0xB014 = true ∧ rowsAt 0xB014 ≠ [] ∧ MayWrite State.reset .pcie 0xB014 0xFFFFFFFF) ∧
    (∀ x ∈ rowsAt 0xB014, x.ty ≠ .cmd) ∧
    (PlainWord 0x80 ∧ MayWrite State.reset .pcie 0x80 0xFFFFFFFF ∧ BitOf (fun ty => ty == .hrw) 0x80 0) := by
  unfold PlainWord MayWrite BitOf; decide +kernel

/-- One write waits in the slow-domain queue. -/
def slow : State := on fun d => { d with fab := { d.fab with slowQ := [.write .pcie 0xB014 0xFFFFFFFF 1] } }
/-- Sixteen writes wait there. -/
def slow16 : State := on fun d => { d with fab := { d.fab with slowQ := List.replicate 16 (.write .pcie 0xB014 0xFFFFFFFF 1) } }
theorem test_witness_slow_full : State.reset.dev.slowWrites < 16 ∧ slow16.dev.slowWrites = 16 ∧ slowWord 0xB014 = true ∧
    slow16.dev.fab.slowQ = .write .pcie 0xB014 0xFFFFFFFF 1 :: List.replicate 15 (.write .pcie 0xB014 0xFFFFFFFF 1) :=
  ⟨by decide +kernel, by decide +kernel, by decide +kernel, rfl⟩
theorem test_witness_slow_write : slow.dev.fab.slowQ = .write .pcie 0xB014 0xFFFFFFFF 1 :: [] := rfl

theorem test_witness_window_writes :
    State.reset.dev.rd Reg.HIF_CFG_ATOM = 0 ∧ (0x802014 : Nat) = 0x800000 + 0x2014 ∧ (0xC02014 : Nat) = 0xC00000 + 0x2014 ∧
    MayWrite State.reset .pcie 0x2014 3 ∧ MayWrite State.reset .pcie 0x2014 0x30000 ∧
    (let s := on fun d => d.wr Reg.HIF_CFG_ATOM 1
     s.dev.rd Reg.HIF_CFG_ATOM = 1 ∧ (0x84029C : Nat) = 0x800000 + 0x2014 * 32 + 7 * 4 ∧ MayWrite s .pcie 0x2014 (1 <<< 7) ∧
     (0x801000 : Nat) = 0x800000 + 0x80 * 32 + 0 * 4 ∧ PlainWord 0x80 ∧ MayWrite s .pcie 0x80 (1 <<< 0) ∧ BitOf (fun ty => ty == .hrw) 0x80 0) ∧
    (0x800000 ≤ (0x800000 : Addr).val ∧ (0 : BitVec 4) ≠ 0xF) := by
  unfold MayWrite PlainWord BitOf; decide +kernel

theorem test_witness_forbidden_commands :
    hostRow (.fwinfo .spi) = some (.spi, Reg.HIF_MBCMD_GO, true) ∧ State.reset.dev.cmdViolation .spi Reg.HIF_MBCMD_GO true = some 2 ∧
    State.reset.dev.rd Reg.LOCK_STATUS_LOCK_VIOL = 0 ∧
    (let s := on fun d => ((d.wr Reg.LOCK_BLK_LOCK (2 ^ 5)).wr Reg.LOCK_POLICY_LOCK_CMD 1).wr Reg.LOCK_STATUS_LOCK_VIOL 1
     s.dev.cmdViolation .pcie Reg.SCH_JCMD_GO true = some 3 ∧ s.dev.rd Reg.LOCK_STATUS_LOCK_VIOL = 1 ∧ Room s) ∧
    (let s := on fun d => d.wr Reg.LOCK_BLK_LOCK (2 ^ 5)
     s.dev.cmdViolation .pcie Reg.SCH_JCMD_GO true = some 0) := by
  unfold Room; decide +kernel

theorem test_witness_reads :
    (latchOf 0x2008 = none ∧ 0x2008 ∉ [0x7018, 0x305C] ∧ slowWord 0x2008 = false ∧ BitOf (fun ty => ty == .rc) 0x2008 0) ∧
    (latchOf 0x14020 = some (0x14020, 3) ∧ latchOf 0x1402C = some (0x14020, 3) ∧ 0x1402C ∉ [0x3040]) ∧
    (∃ n, latchOf 0x15040 = some (0x15040, n)) ∧
    (let s := on fun d => { d.wr Reg.CMT_CFG_RDVIEW 1 with ns := 1000 }
     latchOf 0x4004 = none ∧ slowWord 0x4004 = true ∧ s.dev.rd Reg.CMT_CFG_RDVIEW = 1 ∧ s.dev.fab.copyAt + 1000 ≤ s.dev.timeNs ∧
     BitOf (fun ty => ty == .rc) 0x4004 8) ∧
    State.reset.dev.evq.posts = [] ∧ State.reset.dev.evq.lostPend = 0 := by
  refine ⟨?_, ?_, ⟨_, rfl⟩, ?_, ?_⟩
  all_goals first | decide +kernel | (unfold BitOf; decide +kernel)

theorem test_witness_strobes : Ready State.reset .pcie Reg.CMT_STROBE_STROBE false ∧ State.reset.dev.owns .pcie = true ∧
    State.reset.dev.locked .pcie 22 = false := by
  unfold Ready; decide +kernel

/-- A staging copy of group 0: DUMP, and one of TSU with ENABLE set and a capture source that does not exist. -/
def stagedDump : State := on fun d => { d with fab := { d.fab with staged := [(0, { blocks := [4], words := [(0x7000, 1)] })] } }
def stagedTsu (live : Nat) : State := on fun d =>
  { d.wr Reg.TSU_CFG_ENABLE live with fab := { d.fab with staged := [(0, { blocks := [15], words := [(0x15000, 1), (0x15400, 62)] })] } }

theorem test_witness_commits :
    stagedDump.dev.nextBatch = [(0, { blocks := [4], words := [(0x7000, 1)] })] ∧
    (stagedTsu 0).dev.nextBatch = [(0, { blocks := [15], words := [(0x15000, 1), (0x15400, 62)] })] ∧
    (let c := (stagedTsu 0).dev.applyStaged [(0x15000, 1), (0x15400, 62)] 15 fun _ => true
     c.rd Reg.TSU_CFG_ENABLE = 1 ∧ lowest c.checkTsu = some 1 ∧ (stagedTsu 0).dev.rd Reg.TSU_CFG_ENABLE = 0) ∧
    (let c := (stagedTsu 1).dev.applyStaged [(0x15000, 1), (0x15400, 62)] 15 fun _ => true
     c.rd Reg.TSU_CFG_ENABLE = 1 ∧ lowest c.checkTsu = some 1 ∧ (stagedTsu 1).dev.rd Reg.TSU_CFG_ENABLE = 1) ∧
    (let c := (stagedTsu 0).dev.applyStaged [(0x15000, 0)] 15 fun _ => true
     c.rd Reg.TSU_CFG_ENABLE = 0) ∧
    ([(0xB014, (1 : Word))].map (·.1)).Nodup ∧ (∀ x ∈ [(0xB014, (1 : Word))], slowWord x.1 = true) := by decide +kernel

theorem test_witness_slow_commit :
    (on fun d => { d with fab := { d.fab with slowCommits := [[(0xB014, 1)]] } }).dev.fab.slowCommits = [(0xB014, 1)] :: [] := rfl

/-- A clean scan that serves a capture, and one that is compared and differs. -/
def scan (x : Scan) (f : Dev → Dev) : State := on fun d => { f d with fab := { d.fab with scan := some x } }

theorem test_witness_scan_starts :
    (State.reset.dev.tick % 8 = 0 ∧ State.reset.dev.fab.scanTick ≠ some State.reset.dev.tick) ∧
    (on fun d => { d with tick := 7 }).dev.tick % 8 ≠ 0 ∧
    (on fun d => { d with fab := { d.fab with scanTick := some 0 } }).dev.fab.scanTick = some 0 := by decide +kernel

theorem test_witness_scans :
    (scan { dirty := true } id).dev.fab.scan = some { dirty := true } ∧
    (let s := scan { capture := true } fun d => d.wr Reg.CMT_CRC_CAPTURE_GO 1
     s.dev.rd Reg.CMT_CRC_CAPTURE_GO = 1 ∧ s.dev.fab.queued = []) ∧
    (scan {} id).dev.rd Reg.CMT_CRC_CFG_ENABLE = 0 ∧
    Ready State.reset .pcie Reg.CMT_CRC_CAPTURE_GO false ∧ Ready State.reset .pcie Reg.MACC_SNAP_SNAP false ∧
    Ready State.reset .pcie Reg.INT_EVQ_CFG_FLUSH false := by
  unfold Ready; decide +kernel

/-- A clean scan that is compared with the reference `r`. -/
def compared (r : Nat) : State := scan {} fun d => (d.wr Reg.CMT_CRC_CFG_ENABLE 1).wr Reg.CMT_CRC_REF_REF r

theorem scanResult_congr (d d' : Dev) (h : ∀ a ∈ coveredWords, d'.word a = d.word a) : d'.scanResult = d.scanResult := by
  unfold Dev.scanResult
  generalize coveredWords = l at h
  congr 1
  induction l with
  | nil => rfl
  | cons a t ih => simp only [List.flatMap_cons, h a (by simp), ih fun b hb => h b (by simp [hb])]

theorem key_of_insert (m : Sparse Unit) (k a : Nat) (h : a ∈ (Sparse.insert m k ()).map (·.1)) : a = k ∨ a ∈ m.map (·.1) := by
  obtain ⟨e, he, rfl⟩ := List.mem_map.1 h
  rcases Sparse.mem_insert m k () e he with rfl | he
  · exact .inl rfl
  · exact .inr (List.mem_map_of_mem he)

theorem key_of_sorted (l : List Nat) (a : Nat) (h : a ∈ (l.foldr (fun a m => Sparse.insert m a ()) []).map (·.1)) : a ∈ l := by
  induction l with
  | nil => exact absurd h (by simp)
  | cons b t ih => rcases key_of_insert _ _ _ h with h | h <;> simp [h, ih]

theorem ref_not_covered : Reg.CMT_CRC_REF_REF.addr ∉ coveredWords := by
  intro h
  obtain ⟨b, hb, h⟩ := List.mem_flatMap.1 h
  have h := (List.mem_filter.1 (key_of_sorted _ _ h)).2
  rw [show unscanned Reg.CMT_CRC_REF_REF.addr = true by decide] at h
  simp at h

theorem compared_words (a : Nat) (h : a ∈ coveredWords) : (compared 1).dev.word a = (compared 0).dev.word a := by
  have ne : Reg.CMT_CRC_REF_REF.addr ≠ a := fun e => ref_not_covered (e ▸ h)
  have one : ∀ r, (compared r).dev.word a = (State.reset.dev.wr Reg.CMT_CRC_CFG_ENABLE 1).word a :=
    fun r => Dev.word_setWord_ne _ _ _ _ ne
  rw [one, one]

theorem test_witness_scan_mismatch : ∃ r, (compared r).dev.rd Reg.CMT_CRC_CFG_ENABLE = 1 ∧ Room (compared r) ∧
    (compared r).dev.scanResult ≠ (compared r).dev.rd Reg.CMT_CRC_REF_REF := by
  have same := scanResult_congr _ _ compared_words
  have r0 : (compared 0).dev.rd Reg.CMT_CRC_REF_REF = 0 := by decide +kernel
  have r1 : (compared 1).dev.rd Reg.CMT_CRC_REF_REF = 1 := by decide +kernel
  have key : ∀ x y : Nat, y = x → x ≠ 0 ∨ y ≠ 1 := by omega
  rcases key _ _ same with h | h
  · exact ⟨0, by decide +kernel, by unfold Room; decide +kernel, fun hh => h (hh.trans r0)⟩
  · exact ⟨1, by decide +kernel, by unfold Room; decide +kernel, fun hh => h (hh.trans r1)⟩

/-! ### Witnesses: Bellows -/

/-- Entry 5 admitted, of class 3, with a private run; entry 6, admitted, has it as predecessor where `dep`. -/
def j5 : Job := { desc := [0xFF003005, 100, 1, 0, 0, 0, 0, 0, 0, 0, 0, 0, 0, 1], run := 4096, runLen := 1, inA := true, inB := true }
def table (dep : Bool) : State := on fun d => { d with sch := { d.sch with
  jobs := [(5, j5), (6, { j5 with desc := [0xFF003006, 100, 1, 0, if dep then 0x8005 else 0, 0, 0, 0, 0, 0, 0, 0, 0, 0] })] } }

theorem test_witness_job_commands :
    Ready State.reset .pcie Reg.SCH_JCMD_GO true ∧ State.reset.dev.sch.win = .compute ∧ (State.reset.dev.job 1023).admitted = false ∧
    (Ready (table false) .pcie Reg.SCH_JCMD_GO true ∧ ((table false).dev.job 5).admitted = true ∧
      ((table false).dev.job 5).desc.length = 14 ∧ ((table false).dev.job 5).standSusp = false ∧
      ((table false).dev.sch.jobs.any fun e => e.2.admitted && e.2.preds.contains 5) = false ∧
      ((table false).dev.job 5).runLen ≠ 0 ∧ ((table false).dev.job 5).inA = true ∧ ((table false).dev.job 5).inB = true) ∧
    (Ready (table true) .pcie Reg.SCH_JCMD_GO true ∧
      ((table true).dev.sch.jobs.any fun e => e.2.admitted && e.2.preds.contains 5) = true) ∧
    (let s := on fun d => { d with sch := { d.sch with win := .plan } }
     Ready s .pcie Reg.SCH_JCMD_GO true ∧ s.dev.sch.win ≠ .compute) := by
  unfold Ready; decide +kernel

/-- An image for job 5 is loaded, one bank exists, and the descriptor `ws` is staged; `old` is the entry it meets. -/
def admitting (ws : List Word) (old : Sparse Job) : State := on fun d =>
  let d := (ws.zipIdx.foldl (fun d x => d.setWord (0x8080 + 4 * x.2) x.1) (d.wr Reg.ALC_LAYOUT_BANKS 1)).wr Reg.ALC_CFG_ENABLE 1
  { d with
    sch := { d.sch with jobs := old }
    eng := { d.eng with images := [(1,
      { code := [0xF8000000], entries := [{ start := 0, bound := 10, dlops := 0, rate48 := true, rate96 := true }],
        baseA := some 0, baseB := some 0 })] } }

theorem test_witness_admission_refused :
    (let s := admitting [0xFF003005] []
     Ready s .pcie Reg.SCH_JCMD_GO true ∧ s.dev.sch.win = .compute ∧ ¬ (s.dev.word 0x8080).toNat % 1024 = 6 ∧
     (s.dev.word 0x8080).toNat % 1024 = 5 ∧ (s.dev.job 5).admitted = false ∧ (s.dev.job 5).present = false ∧
     lowest ((jobFound s .pcie 1 5).test1 [] 5 { desc := (jobFound s .pcie 1 5).staged } 1) = some 1) ∧
    (let s := admitting [0xFF003005] [(5, j5)]
     Ready s .pcie Reg.SCH_JCMD_GO true ∧ (s.dev.word 0x8080).toNat % 1024 = 5 ∧ (s.dev.job 5).present = true) := by
  unfold Ready; decide +kernel

theorem test_witness_admission_passes :
    let s := admitting [0xFF003005, 100, 1, 0, 0, 0, 0, 0, 0, 0, 0, 0, 0, 1] []
    let D := jobFound s .pcie 1 5
    let j : Job := { desc := D.staged, seq := 0, standSusp := s.dev.on Reg.SCH_STATUS_HELD }
    Ready s .pcie Reg.SCH_JCMD_GO true ∧ s.dev.sch.win = .compute ∧ lowest (D.test1 [] 5 j D.banks) = none ∧
    ((D.entryOf j []).map fun e => e.bound).getD 0 ≤ j.wcet ∧ D.findTiles (D.drawsIn j) j.tiles = some D.poolLo ∧
    D.capacityTests 5 j [] = none := by
  unfold Ready; decide +kernel

theorem test_witness_update_passes :
    let s := admitting [0xFF003005, 90, 1, 0, 0, 0, 0, 0, 0, 0, 0, 0, 0, 1] [(5, j5)]
    let D := jobFound s .pcie 2 5
    let j : Job := { j5 with desc := D.staged }
    Ready s .pcie Reg.SCH_JCMD_GO true ∧ (s.dev.word 0x8080).toNat % 1024 = 5 ∧ s.dev.job 5 = j5 ∧ j5.admitted = true ∧
    j5.tiles = j.tiles ∧ D.drawsIn j5 = D.drawsIn j ∧ lowest (D.test1 [(5, j5)] 5 j D.banks) = none ∧
    ((D.entryOf j []).map fun e => e.bound).getD 0 ≤ j.wcet ∧ s.dev.rd Reg.ALC_CFG_ENABLE = 1 ∧ D.capacityTests 5 j [] = none := by
  unfold Ready; decide +kernel

theorem test_witness_plan : ([(5, j5), (6, { j5 with desc := [0xFF003006, 101250] })].map (·.1)).Nodup ∧
    ((planOf 101250 1 false [(5, j5), (6, { j5 with desc := [0xFF003006, 101250] })]).placed.map (·.job)) = [5] ∧
    (planOf 101250 1 false [(5, j5), (6, { j5 with desc := [0xFF003006, 101250] })]).shed.map (·.1) = [6] := by
  decide +kernel

/-- Job 5 is placed on engine 3 of Hearth B, or deferred with a pending run there. -/
def placed : State := on fun d => { d with sch := { d.sch with
  force := [(5, j5)], hB := { plan := [{ job := 5, eng := 3, start := 0, finish := 100 }] } } }
def jd : Job := { j5 with desc := [0xFF013005, 0x01000064, 1, 0, 0, 0, 0, 0, 0, 0, 0, 0, 0, 0], pendTick := some 0 }
def deferred : State := on fun d => { d.wr Reg.SCH_CFG_ENABLE 1 with sch := { d.sch with force := [(5, jd)], jobs := [(5, jd)] } }

theorem test_witness_runs :
    ((placed.dev.en 11).running = false ∧ placed.dev.sch.win = .compute ∧ placed.dev.nextPlaced 1 3 = some { job := 5, eng := 3, start := 0, finish := 100 }) ∧
    ((deferred.dev.en 0).running = false ∧ deferred.dev.sch.win = .compute ∧ deferred.dev.dispatching = true ∧
      (∀ p ∈ (deferred.dev.sh 0).plan, p.eng = 0 → p.ended = true) ∧
      min 100 (windowOf (deferred.dev.sh 0).cap.clk - (deferred.dev.en 0).freeAt) = 100 ∧
      deferred.dev.slackJob 0 100 = some 5 ∧ deferred.dev.slackJob 0 99 = none) ∧
    (on fun d => { d with sch := { d.sch with win := .plan } }).dev.sch.win ≠ .compute ∧
    ((running.dev.en 0).running = true ∧ running.dev.countsOut 0 = true ∧ (running.dev.en 0).miss = none ∧
      (∀ c ∈ handlesOf (running.dev.jobF 3).outs, ∀ w, running.dev.writerOf c = some w → w.2.standing = false)) ∧
    (let s := engine { g0 with miss := some { d := 0, sa := 0, line := 5, p := 1, page := 0 } }
     (s.dev.en 0).running = true ∧ s.dev.countsOut 0 = true ∧ (s.dev.en 0).miss ≠ none) := by decide +kernel

/-- Job 5 in force with outcome `o` decided, dispatching. -/
def closing (o : Nat) (third : Bool) : State := on fun d => { d.wr Reg.SCH_CFG_ENABLE 1 with sch := { d.sch with
  force := [(5, j5)], jobs := [(5, { j5 with third := third, ovrun := 2 })], res := Sparse.put (8, 0) [] 5 (o, 0x55) } }

/-- A pending run of job 5 from tick 0 that may wait one tick, in tick 2. -/
def expiring : State := on fun d => { d.wr Reg.SCH_CFG_ENABLE 1 with tick := 2, sch := { d.sch with force := [(5, jd)], jobs := [(5, jd)], res := Sparse.put (8, 0) [] 5 (4, 0x55) } }

theorem test_witness_windows :
    ((on fun d => { d with sch := { d.sch with win := .plan } }).dev.sch.win = .plan ∧ State.reset.dev.sch.waiting = 0 ∧
      State.reset.dev.sch.win ≠ .plan ∧ (on fun d => { d with sch := { d.sch with win := .plan } }).dev.sch.win ≠ .compute) ∧
    (let s := on fun d => { d with sch := { d.sch with stopTick := none } }
     s.dev.sch.win = .compute ∧ s.dev.dispatching = false ∧ s.dev.sch.stopTick ≠ some s.dev.tick) ∧
    (let s := closing 4 true
     s.dev.sch.win = .compute ∧ s.dev.dispatching = true ∧ s.dev.sch.force = [(5, j5)] ∧ s.dev.noClose 0 = false ∧ s.dev.noClose 1 = false ∧
     (s.dev.sh 0).plan = [] ∧ (s.dev.sh 1).plan = [] ∧ (∀ e, e < 16 → (s.dev.en e).running = false) ∧ s.dev.mode ≠ 1 ∧
     j5.standing = false ∧ j5.retry = false ∧ j5.cls < 6 ∧ s.dev.resOf 5 = (4, 0x55) ∧ (s.dev.job 5).pendTick = none ∧ (s.dev.job 5).desc ≠ [] ∧
     (s.dev.job 5).third = true ∧ (s.dev.job 5).ovSusp = none ∧ Room s) ∧
    ((closing 0 false).dev.resOf 5 = (0, 0x55) ∧ ((closing 0 false).dev.job 5).third = false) ∧
    (expiring.dev.dispatching = true ∧ expiring.dev.noClose 0 = false ∧ expiring.dev.noClose 1 = false ∧ jd.standing = false ∧
      jd.retry = false ∧ jd.cls < 6 ∧ (expiring.dev.resOf 5).1 < 8 ∧ (expiring.dev.resOf 5).1 ≠ 1 ∧ (expiring.dev.job 5).desc ≠ [] ∧
      (expiring.dev.job 5).pendTick = some 0 ∧ jd.releasing = none ∧ expiring.dev.tick - 0 > jd.maxDefer) := by
  unfold Room; decide +kernel

theorem test_witness_storms_and_retries :
    (let s := on fun d => { d with sch := { d.sch with hA := { misses := 1023 } } }
     (s.dev.sh 0).storm = false ∧ s.dev.rd Reg.SCH_STORM_CFG_THRESH ≠ 0 ∧ s.dev.rd Reg.SCH_STORM_CFG_THRESH ≤ (s.dev.sh 0).misses ∧ Room s ∧
     (s.dev.sh 1).storm = false ∧ ¬ s.dev.rd Reg.SCH_STORM_CFG_THRESH ≤ (s.dev.sh 1).misses) ∧
    (let s := on fun d => { d with sch := { d.sch with hA := { storm := true }, hB := { storm := true, quiet := 1023 } } }
     (s.dev.sh 1).storm = true ∧ s.dev.rd Reg.SCH_STORM_CFG_CLEAR ≤ (s.dev.sh 1).quiet ∧ Room s ∧
     (s.dev.sh 0).quiet < s.dev.rd Reg.SCH_STORM_CFG_CLEAR) ∧
    (let s := on fun d => { d with tick := 7999, sch := { d.sch with jobs := [(5, { j5 with desc := [0xFF002005], ovSusp := some 0 })] } }
     (s.dev.job 5).ovSusp = some 0 ∧ s.dev.rd Reg.SCH_CFG_ERETRY = 1 ∧ (s.dev.job 5).cls ≤ 2 ∧ (s.dev.job 5).admitted = true ∧
     (s.dev.job 5).hostSusp = false ∧ (s.dev.job 5).standSusp = false ∧ 0 < s.dev.tick + 1 ∧ (s.dev.tick + 1 - 0) % 8000 = 0) := by
  unfold Room; decide +kernel

theorem test_witness_tick_boundary :
    (let s := on fun d => d.wr Reg.PWR_KSTAT_STEP 8
     8 ≤ s.dev.rd Reg.PWR_KSTAT_STEP ∧ s.dev.ref.anchor = none) ∧ State.reset.dev.rd Reg.PWR_KSTAT_STEP < 8 := by decide +kernel

/-! ### Witnesses: the loader, self-test, faults -/

/-- The program store holds an image of one END instruction with one entry of bound 100, valid in both families (R149, R150). -/
def stored : State := on fun d => { d with eng := { d.eng with store :=
  [(0, 0x51454E47), (1, 0x00400001), (2, 1), (3, 1), (15, 0x9C1E5595), (17, 0x64), (19, 3), (20, 0xF8000000)] } }

/-- Image 5 is loaded, and named by an admitted job where `named`; image 6 is in progress where `busy`. -/
def image5 : Image := { code := [0xF8000000], entries := [{ start := 0, bound := 100, dlops := 0, rate48 := true, rate96 := true }], baseA := some 0, baseB := some 0 }
def loaded (named busy : Bool) : State := on fun d =>
  { (if busy then d.wr Reg.ENG_LDCMD_GO 1 else d) with
    eng := { d.eng with images := [(5, image5)], load := if busy then some { id := 6, image := image5 } else none }
    sch := { d.sch with jobs := if named then [(0, { j5 with desc := [0, 0, 5] })] else [] } }

theorem test_witness_loader :
    (Ready State.reset .pcie Reg.ENG_LDCMD_GO true ∧ State.reset.dev.on Reg.ENG_LDCMD_GO = false ∧ State.reset.dev.eng.load = none ∧
      State.reset.dev.loadTest 0xEFF 3 = .error 0x10 ∧ State.reset.dev.loadTest 0xF00 3 = .error 0x1D ∧
      State.reset.dev.image 0xEFF = none) ∧
    (Ready stored .pcie Reg.ENG_LDCMD_GO true ∧ stored.dev.on Reg.ENG_LDCMD_GO = false ∧
      (match stored.dev.loadTest 5 3 with | .ok im => im.baseA == some 0 && im.code.length == 1 | .error _ => false) = true) ∧
    (Ready (loaded true false) .pcie Reg.ENG_LDCMD_GO true ∧ (loaded true false).dev.image 5 = some image5 ∧
      (loaded true false).dev.sch.jobs.any (fun e => e.2.admitted && e.2.progId == 5) = true ∧
      (loaded false false).dev.sch.jobs.any (fun e => e.2.admitted && e.2.progId == 5) = false) ∧
    (Ready (loaded false true) .pcie Reg.ENG_LDCMD_GO true ∧ (loaded false true).dev.on Reg.ENG_LDCMD_GO = true ∧
      (loaded false true).dev.fab.queued.contains Reg.ENG_LDCMD_GO.key = false ∧
      (loaded false true).dev.eng.load = some { id := 6, image := image5 } ∧ Room (loaded false true)) := by
  unfold Ready Room; decide +kernel

/-- The supervisor runs, in P0, and no dump is captured. -/
def supOn (d : Dev) : Dev := ((d.wr Reg.PWR_KSTAT_STEP 15).wr Reg.PWR_STATUS_STATE 0).wr Reg.DUMP_CFG_MASK 0

theorem test_witness_self_tests :
    (let s := engine { st := 2 }
     Ready s .pcie (Reg.ENG_CMD_RETEST 0) false ∧ (s.dev.en 0).st = 2 ∧ s.dev.rd (Reg.ENG_CMD_RETEST 0) = 0) ∧
    (Ready State.reset .pcie (Reg.ENG_CMD_RETEST 15) false ∧ (State.reset.dev.en 15).st = 0 ∧
      State.reset.dev.rd (Reg.ENG_CMD_RETEST 15) = 0) ∧
    (let s := on fun d => (d.setEn 0 { st := 3, wasFailed := true }).wr (Reg.ENG_CMD_RETEST 0) 1
     (s.dev.en 0).st = 3 ∧ s.dev.rd (Reg.ENG_CMD_RETEST 0) = 1 ∧ s.dev.fab.queued.contains (Reg.ENG_CMD_RETEST 0).key = false ∧ Room s) ∧
    Ready State.reset .pcie (Reg.ENG_CMD_WCLR 0) false ∧
    (State.reset.dev.rd Reg.PWR_KSTAT_STEP < 4 ∧ (on fun d => d.wr Reg.PWR_STATUS_STATE 4).dev.rd Reg.PWR_STATUS_STATE = 4) ∧
    (let s := on fun d => { supOn d with eng := { d.eng with load := some { id := 4095, image := image5 } } }
     4 ≤ s.dev.rd Reg.PWR_KSTAT_STEP ∧ s.dev.rd Reg.PWR_STATUS_STATE ≠ 4 ∧ s.dev.hif.mb = none ∧ NoDump s 1 ∧
     s.dev.eng.load = some { id := 4095, image := image5 }) ∧
    (let s := on supOn
     4 ≤ s.dev.rd Reg.PWR_KSTAT_STEP ∧ s.dev.rd Reg.PWR_STATUS_STATE ≠ 4 ∧ s.dev.hif.mb = none ∧ NoDump s 1 ∧
     s.dev.eng.load = none ∧ s.dev.sup.down = none) := by
  unfold Ready Room NoDump; decide +kernel

/-- Hearth B is ACTIVE and runs job 3 on engine 15. -/
def faulty : State := on fun d => { d.setEn 15 g0 with hrt := { d.hrt with active := 1, b := { st := .active } } }

theorem test_witness_faults :
    ((faulty.dev.hh 1).st = .active ∧ NoDump faulty 6 ∧ Room faulty ∧ (15 : Eng).val / 8 = hIx .b) ∧
    ((running.dev.hh 0).st ≠ .active ∧ (running.dev.en 0).running = true ∧
      (∀ p ∈ (running.dev.sh 0).plan, p.eng = 0 → p.ended = false → p.job = (running.dev.en 0).job)) ∧
    (faulty.dev.hm 1).poison.contains (2097151 / 2) = false ∧
    (let s := on fun d => { d.setEn 0 g0 with mem := { d.mem with hA := { poison := [5] } } }
     (s.dev.hm 0).poison.contains (11 / 2) = true ∧ (s.dev.en 0).running = true) := by
  unfold NoDump Room; decide +kernel

/-! ### Witnesses: delay lines, window, messages, channels -/

/-- The layout is enabled with 300 frames, and the stage holds a line of 188 pages. -/
def staging (f : Dev → Dev) : State := on fun d => f
  (((((d.wr Reg.ALC_CFG_ENABLE 1).wr Reg.ALC_LAYOUT_FRAMES 300).wr Reg.PGU_DLSTAGE0_NPAGES 188).wr Reg.PGU_DLSTAGE2_TAPSPAN 8).wr
    Reg.PGU_REGION_DL_MIB 1)

theorem test_witness_delay_line_commands :
    Ready State.reset .pcie Reg.PGU_DLCMD_GO true ∧ 3072 ≤ (3072 : BitVec 12).toNat ∧ (3071 : BitVec 12).toNat < 3072 ∧
    State.reset.dev.rd Reg.ALC_CFG_ENABLE = 0 ∧ lowest (State.reset.dev.defineFails 3071) = some 1 ∧
    (let s := staging id
     Ready s .pcie Reg.PGU_DLCMD_GO true ∧ s.dev.rd Reg.ALC_CFG_ENABLE = 1 ∧ s.dev.line 3071 = none ∧ s.dev.defineFails 3071 = [] ∧
     s.dev.findDram (s.dev.stagedLine 0) = some 0) ∧
    (let s := staging fun d => { d with mem := { d.mem with lines := [(5, line5)] }, sch := { d.sch with jobs := [(3, j3)] } }
     Ready s .pcie Reg.PGU_DLCMD_GO true ∧ s.dev.rd Reg.ALC_CFG_ENABLE = 1 ∧ s.dev.line 5 = some line5 ∧
     (s.dev.sch.jobs.any fun e => e.2.admitted && e.2.namesLine 5) = true) ∧
    (let s := staging fun d => { d with mem := { d.mem with lines := [(5, line5)] } }
     Ready s .pcie Reg.PGU_DLCMD_GO true ∧ s.dev.rd Reg.ALC_CFG_ENABLE = 1 ∧ s.dev.line 5 = some line5 ∧
     (s.dev.sch.jobs.any fun e => e.2.admitted && e.2.namesLine 5) = false) := by
  unfold Ready; decide +kernel

theorem test_witness_window :
    (let s := on fun d => (d.wr Reg.PGU_WIN_HSEL 3).wr Reg.ALC_LAYOUT_BANKS 1
     s.dev.owns .pcie = true ∧ s.dev.rd Reg.PGU_WIN_HSEL ≠ 0 ∧ s.dev.winWritable (s.dev.winPage (256 * 4096)) = true ∧
     s.dev.winWritable (s.dev.winPage (255 * 4096)) = false ∧ s.dev.owns .spi = false) ∧
    (Ready State.reset .pcie Reg.PGU_CMD_MSG_RELOAD false ∧ State.reset.dev.on Reg.PGU_CMD_MSG_RELOAD = false ∧ Room State.reset ∧
      (State.reset.dev.sch.jobs.any fun e => e.2.admitted && decide (e.2.dlCount > 0) && decide (3072 < e.2.dlFirst + e.2.dlCount)) = false) ∧
    (let s := on fun d => { d with sch := { d.sch with jobs := [(3, { j3 with desc := [3, 0, 0, 0, 0, 0, 0, 0, 0, 0, 0, 0, 0x00001C00, 0] })] } }
     Ready s .pcie Reg.PGU_CMD_MSG_RELOAD false ∧ s.dev.on Reg.PGU_CMD_MSG_RELOAD = false ∧
     (s.dev.sch.jobs.any fun e => e.2.admitted && decide (e.2.dlCount > 0) && decide (3072 < e.2.dlFirst + e.2.dlCount)) = true) := by
  unfold Ready Room; decide +kernel

theorem crcByte_lt (c b : Nat) (hc : c < 2 ^ 32) (hb : b < 2 ^ 32) : crcByte c b < 2 ^ 32 := by
  have step : ∀ (l : List Nat) (c : Nat), c < 2 ^ 32 →
      l.foldl (fun c _ => if c % 2 = 1 then (c / 2) ^^^ 0x82F63B78 else c / 2) c < 2 ^ 32 := by
    intro l
    induction l with
    | nil => intro c h; exact h
    | cons x t ih =>
      intro c h
      refine ih _ ?_
      dsimp only
      split
      · exact Nat.xor_lt_two_pow (by omega) (by decide)
      · omega
  exact step _ _ (Nat.xor_lt_two_pow hc hb)

theorem crc32c_zeros_lt (n : Nat) : crc32c (List.replicate n 0) < 2 ^ 32 := by
  have fold : ∀ (n c : Nat), c < 2 ^ 32 → (List.replicate n 0).foldl crcByte c < 2 ^ 32 := by
    intro n
    induction n with
    | zero => intro c h; exact h
    | succ n ih => intro c h; exact ih _ (crcByte_lt c 0 h (by decide))
  exact Nat.xor_lt_two_pow (fold n _ (by decide)) (by decide)

/-- An image of no message and no page: a header, whose word 15 is `crc`, and `n` zeros (R216, R217). -/
def noMessages (crc n : Nat) : List Byte :=
  ([0x53, 0x4D, 0x45, 0x51, 1, 0, 0, 0] ++ List.replicate 52 0 ++ (leBytes crc).map (BitVec.ofNat 8) ++ List.replicate 4032 0) ++
    List.replicate n 0

theorem noMessages_word (crc n i : Nat) (h : i < 1024) : imageWord (noMessages crc n) i =
    imageWord ([0x53, 0x4D, 0x45, 0x51, 1, 0, 0, 0] ++ List.replicate 52 0 ++ (leBytes crc).map (BitVec.ofNat 8) ++
      List.replicate 4032 0) i := by
  unfold imageWord noMessages
  have len : ([0x53, 0x4D, 0x45, 0x51, 1, 0, 0, 0] ++ List.replicate 52 0 ++ (leBytes crc).map (BitVec.ofNat 8) ++
      List.replicate 4032 (0 : Byte)).length = 4096 := by
    rw [List.length_append]; show 64 + (List.replicate 4032 (0 : Byte)).length = 4096; rw [List.length_replicate]
  have one : ∀ k, k < 4 → ∀ l : List Byte, l.length = 4096 →
      (l ++ List.replicate n 0).getD (4 * i + k) 0 = l.getD (4 * i + k) 0 :=
    fun k hk l hl => List.getD_append _ _ _ _ (by omega)
  simp only [one 0 (by omega) _ len, one 1 (by omega) _ len, one 2 (by omega) _ len, one 3 (by omega) _ len]

theorem noMessages_ok (crc n : Nat) (hn : 16384 ≤ n) (h : crc < 2 ^ 32) (e : crc32c (List.replicate 16384 0) = crc) :
    msgImageOk (noMessages crc n) = true := by
  have w0 : imageWord (noMessages crc n) 0 = 0x51454D53 := by
    rw [noMessages_word _ _ _ (by omega)]
    show (0x53 : Byte).toNat + (0x4D : Byte).toNat * 2 ^ 8 + (0x45 : Byte).toNat * 2 ^ 16 + (0x51 : Byte).toNat * 2 ^ 24 = _
    decide
  have w1 : imageWord (noMessages crc n) 1 = 1 := by
    rw [noMessages_word _ _ _ (by omega)]
    show (1 : Byte).toNat + (0 : Byte).toNat * 2 ^ 8 + (0 : Byte).toNat * 2 ^ 16 + (0 : Byte).toNat * 2 ^ 24 = _
    decide
  have w2 : imageWord (noMessages crc n) 2 = 0 := by
    rw [noMessages_word _ _ _ (by omega)]
    show (0 : Byte).toNat + (0 : Byte).toNat * 2 ^ 8 + (0 : Byte).toNat * 2 ^ 16 + (0 : Byte).toNat * 2 ^ 24 = _
    decide
  have w3 : imageWord (noMessages crc n) 3 = 0 := by
    rw [noMessages_word _ _ _ (by omega)]
    show (0 : Byte).toNat + (0 : Byte).toNat * 2 ^ 8 + (0 : Byte).toNat * 2 ^ 16 + (0 : Byte).toNat * 2 ^ 24 = _
    decide
  have w15 : imageWord (noMessages crc n) 15 = crc := by
    rw [noMessages_word _ _ _ (by omega)]
    show (BitVec.ofNat 8 (crc % 256)).toNat + (BitVec.ofNat 8 (crc / 256 % 256)).toNat * 2 ^ 8
      + (BitVec.ofNat 8 (crc / 65536 % 256)).toNat * 2 ^ 16 + (BitVec.ofNat 8 (crc / 16777216 % 256)).toNat * 2 ^ 24 = crc
    simp only [BitVec.toNat_ofNat]
    omega
  have len4 : ([0x53, 0x4D, 0x45, 0x51, 1, 0, 0, 0] ++ List.replicate 52 0 ++ (leBytes crc).map (BitVec.ofNat 8) ++
      List.replicate 4032 (0 : Byte)).length = 4096 := by
    rw [List.length_append]; show 64 + (List.replicate 4032 (0 : Byte)).length = 4096; rw [List.length_replicate]
  have len : (noMessages crc n).length = 4096 + n := by
    unfold noMessages; rw [List.length_append, len4, List.length_replicate]
  have body : ((noMessages crc n).drop 0x1000).take (imageSize 0 - 0x1000) = List.replicate 16384 0 := by
    unfold noMessages
    rw [List.drop_left' len4, List.take_replicate, show min (imageSize 0 - 0x1000) n = 16384 by unfold imageSize; omega]
  unfold msgImageOk
  simp only [w0, w1, w2, w3, w15, len, show bits 0 16 0 = 0 by decide, show bits 0 10 0 = 0 by decide,
    show bits 1 15 0 = 1 by decide, body, List.map_replicate, show ((0 : Byte).toNat) = 0 by decide, e]
  simp [readDirectory, disjointRuns, imageSize]
  omega

/-- The bytes `b` in the flash from address `k` on. -/
def bytesFrom : List Byte → Nat → Sparse Byte
  | [], _ => []
  | x :: t, k => (k, x) :: bytesFrom t (k + 1)

theorem get_bytesFrom (b : List Byte) : ∀ k i, i < b.length → Sparse.get 0xFF (bytesFrom b k) (k + i) = b.getD i 0 := by
  induction b with
  | nil => intro k i h; simp at h
  | cons x t ih =>
    intro k i h
    cases i with
    | zero => simp [bytesFrom, Sparse.get]
    | succ i =>
      have := ih (k + 1) i (by simpa using h)
      rw [show k + 1 + i = k + (i + 1) by omega] at this
      simp only [bytesFrom, Sparse.get, beq_iff_eq, show ¬ k = k + (i + 1) by omega, if_false, List.getD_cons_succ]
      exact this

/-- A reload is in progress, and the message partition of the boot flash holds `b`. -/
def reloading (b : List Byte) : State :=
  let s := on fun d => { d.wr Reg.PGU_REGION_MSG_MIB 1 with
    mem := { d.mem with reloading := true }, boot := { d.boot with msgBase := 0, msgLen := b.length } }
  { s with nv := { s.nv with flash := bytesFrom b 0 } }

theorem reloading_image (b : List Byte) : messageImage (reloading b).nv (reloading b).dev.boot = b := by
  unfold messageImage reloading on
  refine List.ext_getElem (by simp) fun i h1 h2 => ?_
  have h := get_bytesFrom b 0 i h2
  rw [Nat.zero_add] at h
  simp only [List.getElem_map, List.getElem_range, Nat.zero_add, h, List.getD_eq_getElem?_getD, List.getElem?_eq_getElem h2,
    Option.getD_some]

theorem reloading_ready (b : List Byte) : (reloading b).dev.mem.reloading = true ∧
    (reloading b).dev.fab.queued.contains Reg.PGU_CMD_MSG_RELOAD.key = false ∧ Room (reloading b) ∧
    imageSize 0 ≤ 2 ^ 28 ∧ imageSize 0 ≤ (reloading b).dev.rd Reg.PGU_REGION_MSG_MIB * 2 ^ 20 := by
  refine ⟨rfl, rfl, by unfold Room; exact ⟨(by decide : (0 : Nat) < 500), rfl, rfl⟩, by decide, ?_⟩
  show imageSize 0 ≤ (State.reset.dev.wr Reg.PGU_REGION_MSG_MIB 1).rd Reg.PGU_REGION_MSG_MIB * 2 ^ 20
  decide +kernel

theorem test_witness_message_load :
    State.reset.dev.mem.reloading = false ∧
    (∃ s : State, let b := messageImage s.nv s.dev.boot
      s.dev.mem.reloading = true ∧ s.dev.fab.queued.contains Reg.PGU_CMD_MSG_RELOAD.key = false ∧ Room s ∧
      (msgImageOk b = true ∧ imageSize (bits (imageWord b 3) 16 0) ≤ 2 ^ 28 ∧
        imageSize (bits (imageWord b 3) 16 0) ≤ s.dev.rd Reg.PGU_REGION_MSG_MIB * 2 ^ 20) ∧
      ((readDirectory b (bits (imageWord b 2) 10 0)).filter (·.pin)).length = 0) ∧
    (∃ s : State, s.dev.mem.reloading = true ∧ s.dev.fab.queued.contains Reg.PGU_CMD_MSG_RELOAD.key = false ∧
      msgImageOk (messageImage s.nv s.dev.boot) = false) ∧
    (∀ i, i < 2 → 192 + 0 ≤ (staging id).dev.frameCount - (staging id).dev.lineFrames i) := by
  refine ⟨rfl, ⟨reloading (noMessages (crc32c (List.replicate 16384 0)) 16384), ?_⟩, ⟨reloading [], ?_, ?_, ?_⟩, by decide +kernel⟩
  · obtain ⟨h1, h2, h3, h4, h5⟩ := reloading_ready (noMessages (crc32c (List.replicate 16384 0)) 16384)
    have w3 : bits (imageWord (noMessages (crc32c (List.replicate 16384 0)) 16384) 3) 16 0 = 0 := by
      rw [noMessages_word _ _ _ (by omega)]; rfl
    have w2 : bits (imageWord (noMessages (crc32c (List.replicate 16384 0)) 16384) 2) 10 0 = 0 := by
      rw [noMessages_word _ _ _ (by omega)]; rfl
    dsimp only
    rw [reloading_image, w3, w2]
    exact ⟨h1, h2, h3, ⟨noMessages_ok _ _ (Nat.le_refl _) (crc32c_zeros_lt _) rfl, h4, h5⟩, rfl⟩
  · exact (reloading_ready []).1
  · exact (reloading_ready []).2.1
  · rw [reloading_image]; decide

/-- Line 5 with page 0 in frame 2 of Hearth A in state `st`, its transfer in flight; a write-around waits. -/
def moving (st : FrameSt) (write : Bool) (f : Mem → Mem) : State := on fun d => { d.wr Reg.DUMP_CFG_MASK 0 with mem := f { d.mem with
  lines := [(5, line5)]
  hA := { frames := [(2, { st := st, line := 5, page := 0 })], inflight := [{ line := 5, page := 0, write := write, demand := true }] } } }

theorem moving_wf (st : FrameSt) (write : Bool) (f : Mem → Mem) (h : ∀ m, (f m).hA.tiles = m.hA.tiles ∧ (f m).hA.gw = m.hA.gw ∧
    (f m).hB = m.hB ∧ (f m).ch0.words = m.ch0.words ∧ (f m).ch1.words = m.ch1.words) : MemoryWf (moving st write f) := by
  refine ⟨rfl, fun i hi => ?_, fun c hc => by cases hc⟩
  obtain ⟨h1, h2, h3, h4, h5⟩ := h { State.reset.dev.mem with
    lines := [(5, line5)]
    hA := { frames := [(2, { st := st, line := 5, page := 0 })], inflight := [{ line := 5, page := 0, write := write, demand := true }] } }
  rcases (by omega : i = 0 ∨ i = 1) with rfl | rfl
  · refine ⟨?_, ?_, ?_⟩
    · show Sparse.wf _ (f _).hA.tiles = true
      rw [h1]; rfl
    · show Sparse.wf _ (f _).hA.gw = true
      rw [h2]; rfl
    · show Sparse.wf _ (f _).ch0.words = true
      rw [h4]; rfl
  · refine ⟨?_, ?_, ?_⟩
    · show Sparse.wf _ (f _).hB.tiles = true
      rw [h3]; rfl
    · show Sparse.wf _ (f _).hB.gw = true
      rw [h3]; rfl
    · show Sparse.wf _ (f _).ch1.words = true
      rw [h5]; rfl

theorem test_witness_page_transfers :
    (let s := moving .filling false id
     MemoryWf s ∧ (∃ r, s.dev.completes 0 5 0 false = some r ∧ r.line = 5 ∧ r.page = 0) ∧ s.dev.completes 0 5 0 true = none ∧
     s.dev.line 5 = some line5 ∧ (s.dev.hm 0).frameOf 5 0 = some (2, { st := .filling, line := 5, page := 0 }) ∧
     (s.dev.hm 0).held = [] ∧ (s.dev.hm 0).alt = [] ∧ (∀ e, e < 16 → (s.dev.en e).miss = none) ∧
     (∀ e ∈ s.dev.mem.lines, e.1 = 5) ∧ (s.dev.hm 0).waiting = []) ∧
    (let s := moving .filling false fun m => { m with hA := { m.hA with
      frames := [(2, { st := .filling, line := 5, page := 0 }), (3, { st := .resident, line := 5, page := 1 })] } }
     PagingRests s 0 5 line5) ∧
    (let s := moving .writeback true id
     MemoryWf s ∧ (∃ r, s.dev.completes 0 5 0 true = some r) ∧ s.dev.completes 0 5 0 false = none ∧
     (s.dev.hm 0).frameOf 5 0 = some (2, { st := .writeback, line := 5, page := 0 })) ∧
    (let s := on fun d => { d with mem := { d.mem with lines := [(5, { line5 with prot := true })]
                                                       hA := { frames := [(2, { st := .resident, line := 5, page := 0 })] }
                                                       hB := { around := [{ line := 5, samples := [(7, 1)] }] } } }
     (s.dev.hm 1).around = { line := 5, samples := [(7, 1)] } :: [] ∧ s.dev.line 5 = some { line5 with prot := true } ∧
     (s.dev.ch 1).failed = false ∧ (s.dev.hm 1).behind 5 (7 / 1024) 0 = false ∧ (s.dev.hm 0).resident 5 (7 / 1024) = some 2) ∧
    (let s := moving .filling false fun m => { m with resync := some 1, msgValid := true }
     MemoryWf s ∧ s.dev.mem.resync = some 1 ∧ (s.dev.ch 0).failed = false ∧ (s.dev.ch 1).failed = false) ∧
    State.reset.dev.mem.resync = none := by
  exact ⟨⟨moving_wf _ _ _ fun _ => by simp, ⟨_, rfl, rfl, rfl⟩, by decide +kernel⟩, by unfold PagingRests; decide +kernel,
    ⟨moving_wf _ _ _ fun _ => by simp, ⟨_, rfl⟩, by decide +kernel⟩, by decide +kernel,
    ⟨moving_wf _ _ _ fun _ => by simp, by decide +kernel⟩, rfl⟩

/-- Channel 1 is trained, in the close window of tick 128. -/
def trained : State := on fun d => { d.wr Reg.DUMP_CFG_MASK 0 with
  tick := 128, sch := { d.sch with win := .close }, mem := { d.mem with ch1 := { trained := true } } }

theorem test_witness_channels :
    (State.reset.dev.readingWord 0 0 = [] ∧ (State.reset.dev.ch 0).ues.length + 1 < State.reset.dev.rd Reg.PGU_DFAIL_CFG_UE_LIMIT ∧
      Room State.reset) ∧
    (let s := on fun d => { d.wr Reg.DUMP_CFG_MASK 0 with mem := { d.mem with ch1 := { ues := [0, 0, 0] } } }
     s.dev.rd Reg.PGU_DFAIL_CFG_UE_LIMIT ≤ ((s.dev.ch 1).ues.filter fun t => decide (s.dev.tick < t + 8000)).length + 1 ∧
     (s.dev.ch 1).failed = false ∧ NoDump s 5 ∧ Room s) ∧
    (trained.dev.sch.win = .close ∧ (trained.dev.ch 1).trained = true ∧ (trained.dev.ch 1).failed = false ∧ trained.dev.stopped 6 = false ∧
      (trained.dev.ch 1).dqsAt + 128 ≤ trained.dev.tick ∧ (trained.dev.ch 1).mr4At + 128 ≤ trained.dev.tick ∧ NoDump trained 5 ∧
      Room trained ∧ (6 : BitVec 3).toNat ≠ 7) ∧
    (¬ State.reset.dev.sch.win = .close) ∧
    (Ready State.reset .pcie (retrainFld 1) false ∧ State.reset.dev.on (retrainFld 1) = false ∧ State.reset.dev.canPlan 1 = false) ∧
    (Ready faulty .pcie (retrainFld 1) false ∧ faulty.dev.on (retrainFld 1) = false ∧ faulty.dev.canPlan 1 = true) ∧
    (let s := on fun d => { d with mem := { d.mem with retraining := [1], ch1 := { failed := true } } }
     1 ∈ s.dev.mem.retraining ∧ s.dev.fab.queued.contains (retrainFld 1).key = false ∧ (s.dev.ch 1).failed = true) := by
  unfold Ready NoDump Room; decide +kernel

/-! ### Witnesses: flows -/

/-- A receive flow of one L16 channel at 48 kHz, one tick per packet, on path 0, from 239.1.2.3 port 5004. -/
def rxDesc : List Nat := [0x10003, 0x180000, 0x61, 0, 0]
def rxRec : List Nat := [0x138C0000, 0x030201EF, 0, 0, 0, 0, 0, 0, 0]

/-- Flow 0 is staged as that, with `w0` as its first word; the block is on where `en`. -/
def flows (en : Nat) (w0 : Word) : State := on fun d => { d.wr Reg.FLW_CFG_ENABLE en with flw := { d.flw with
  mem := [(0, w0), (1, 0x180000), (2, 0x61), (16384, 0x138C0000), (16385, 0x030201EF)] } }

theorem test_witness_flow_commands :
    (Ready (flows 0 0x10003) .pcie Reg.FLW_FCMD_GO true ∧ (flows 0 0x10003).dev.rd Reg.FLW_CFG_ENABLE = 0) ∧
    (let s := flows 1 0x10003
     Ready s .pcie Reg.FLW_FCMD_GO true ∧ s.dev.rd Reg.FLW_CFG_ENABLE = 1 ∧ s.dev.stagedDesc false 0 = rxDesc ∧ dEnable rxDesc = true ∧
     s.dev.stagedRec 0 0 = rxRec ∧ s.dev.flowFails false 0 rxDesc [rxRec, s.dev.stagedRec 0 1] = []) ∧
    dEnable ((flows 1 0x10002).dev.stagedDesc false 0) = false ∧
    (let s := flows 1 0x10001
     dEnable (s.dev.stagedDesc false 0) = true ∧
     lowest (s.dev.flowFails false 0 (s.dev.stagedDesc false 0) [s.dev.stagedRec 0 0, s.dev.stagedRec 0 1]) = some 0x10) := by
  unfold Ready; decide +kernel

/-- A frame of that flow: sequence number 100, RTP time 12, samples 1 to 6 in their upper bytes. -/
def rtpFrame : List Byte :=
  [1, 0, 94, 1, 2, 3, 2, 0, 0, 0, 0, 1, 8, 0] ++ [69, 0, 0, 52, 0, 1, 64, 0, 64, 17, 63, 179, 10, 0, 0, 1, 239, 1, 2, 3] ++
  [19, 140, 19, 140, 0, 32, 0, 0] ++ [128, 97, 0, 100, 0, 0, 0, 12, 0, 0, 0, 0] ++ [1, 0, 2, 0, 3, 0, 4, 0, 5, 0, 6, 0] ++ [0, 0, 0, 0]

/-- Port 0 is up and flow 0 is live in state `st`, with HIGHSEQ `high`. -/
def receiving (x : RxFlow) : State := on fun d =>
  { (d.wr (Reg.MAC_CFG_ENABLE 0) 1).wr (Reg.MAC_STATUS_LINK 0) 1 with flw := { d.flw with
      rx := [(0, { x with live := true, desc := rxDesc, recs := [rxRec, []] })], mcf := [(0, 0)] } }

theorem test_witness_copies :
    let b := rtpFrame.map (·.toNat)
    let dd := fun (high : Nat) => sint 16 (be16 b ((rtpOf b).1 + 2) + 65536 - high)
    (∀ st ∈ [1, 2], FlowCopy (receiving { st := st }) 0 b 0) ∧ copyValid rxDesc b false = true ∧
    copyValid [0x10003, 0x180000, 0x60, 0, 0] b false = false ∧
    dd 99 = 1 ∧ dd 64613 = 1023 ∧ dd 100 = 0 ∧ dd 227 = -127 ∧ dd 228 = -128 ∧ dd 1123 = -1023 ∧ dd 64612 = 1024 ∧ dd 1124 = -1024 ∧
    (let s := receiving { st := 2, merged := true, high := 99, win := 1 }
     (s.dev.rxf 0).merged = true ∧ (s.dev.rxf 0).judge 100 = .ahead 1 ∧ (s.dev.at 0).mediaIndex rxDesc 12 = 12 ∧
     ((12 + ((dSamples rxDesc : Int) - 1) + dOffset rxDesc) / (s.dev.nSamples : Int) ≤ s.dev.tick + 240) ∧
     (s.dev.tick : Int) < (12 + 0 + dOffset rxDesc) / (s.dev.nSamples : Int)) := by
  unfold FlowCopy; decide +kernel

theorem test_witness_copies_wf : SequenceWf (receiving { st := 2, high := 65535 }) := by
  intro f
  by_cases h : f = 0
  · subst h; decide
  · have e : (receiving { st := 2, high := 65535 }).dev.rxf f = {} := by
      show Sparse.get ({} : RxFlow) [(0, _)] f = {}
      simp [Sparse.get, Ne.symm h]
    rw [e]; decide

/-! ### Witnesses: paths, ports, frames -/

/-- The reset state with these register fields set, and changed by `f`. -/
def regs (ws : List (Fld × Nat)) (f : Dev → Dev := id) : State := on fun d => f (ws.foldl (fun d w => d.wr w.1 w.2) d)

/-- The supervisor runs. -/
def supWs : List (Fld × Nat) := [(Reg.PWR_KSTAT_STEP, 15), (Reg.PWR_STATUS_STATE, 0)]

/-- A transmit flow that is announced, on path 1 only, 30 s after the last announcement. -/
def announcing : State := regs (supWs ++ [(Reg.MAC_CFG_ENABLE 1, 1), (Reg.MAC_STATUS_LINK 1, 1), (Reg.MAC_QCFG_DEPTH 1 0, 16)]) fun d =>
  { d with tick := 240000, flw := { d.flw with tx := [(7, { live := true, desc := [0x10205] })] } }

theorem test_witness_paths :
    (let s := receiving { st := 2, up0 := true }
     (s.dev.rxf 0).live = true ∧ (s.dev.rxf 0).up0 = true ∧ (s.dev.rxf 0).valid0 = none) ∧
    (let s := on fun d => { d with tick := 65, flw := { d.flw with rx := [(255, { live := true, up0 := true, up1 := true, valid1 := some 0 })] } }
     (s.dev.rxf 255).up1 = true ∧ 0 + s.dev.rd Reg.FLW_PATH_CFG_TIMEOUT < s.dev.tick) ∧
    (State.reset.dev.supRuns = false ∧ announcing.dev.supRuns = true ∧ announcing.dev.flw.sapAt + 240000 ≤ announcing.dev.tick) ∧
    (let s := regs supWs fun d => { d with tick := 240000 }
     s.dev.supRuns = true ∧ s.dev.flw.sapAt + 240000 ≤ s.dev.tick ∧ ∀ e ∈ s.dev.liveTx, dAnnounce (s.dev.txf e.1).desc = false) ∧
    (announcing.dev.liveTx = [(7, { live := true, desc := [0x10205] })] ∧ announcing.dev.txf 7 = { live := true, desc := [0x10205] } ∧
      dAnnounce [0x10205] = true ∧ dPaths [0x10205] = [1] ∧ announcing.dev.rd (Reg.MAC_SUPQ_OTHERQ 1) = 0 ∧
      (announcing.dev.enqueue 1 0 { bytes := [1] }).2 = true) := by decide +kernel

theorem test_witness_port_clocks :
    (let s := regs [(Reg.TDM_PCFG_ROLE 15, 1), (Reg.TDM_PSTAT_STATE 15, 2), (Reg.TDM_CFG_ALIGN_WIN, 1)]
     s.dev.rd (Reg.TDM_PCFG_ROLE 15) = 1 ∧ s.dev.portSrc 15 = false ∧ s.dev.rd (Reg.TDM_PSTAT_STATE 15) = 2 ∧ NoMoves s ∧
     (0xFFFC : BitVec 16).toInt.natAbs ≤ 4 * s.dev.rd Reg.TDM_CFG_ALIGN_WIN ∧
     ¬ (0xFFFB : BitVec 16).toInt.natAbs ≤ 4 * s.dev.rd Reg.TDM_CFG_ALIGN_WIN ∧ (s.dev.port 15).bad = 0 ∧ Room s ∧
     (s.dev.at 50000).timeNs * s.dev.nSamples ≥ (s.dev.port 15).edgeAt * s.dev.nSamples + 250000 ∧
     ¬ (s.dev.at 5).timeNs * s.dev.nSamples ≥ (s.dev.port 15).edgeAt * s.dev.nSamples + 250000) ∧
    (let s := regs [(Reg.TDM_PCFG_ROLE 0, 1), (Reg.TDM_PSTAT_STATE 0, 2)] fun d => { d with tdm := { d.tdm with ports := [(0, { bad := 1 })] } }
     s.dev.rd (Reg.TDM_PCFG_ROLE 0) = 1 ∧ s.dev.portSrc 0 = false ∧ s.dev.rd (Reg.TDM_PSTAT_STATE 0) = 2 ∧ 1 ≤ (s.dev.port 0).bad) ∧
    (let s := regs [(Reg.TDM_PSTAT_STATE 3, 2), (Reg.TDM_PSTAT_ONSYN 3, 1), (Reg.TDM_PCFG_REVERT 3, 1), (Reg.SYNX_STAT_LOCK 0, 1)]
         fun d => { d with tick := 8000 }
     s.dev.rd (Reg.TDM_PSTAT_STATE 3) = 2 ∧ s.dev.rd (Reg.TDM_PSTAT_ONSYN 3) = 1 ∧ s.dev.rd (Reg.TDM_PCFG_REVERT 3) = 1 ∧
     s.dev.tdmLocked (s.dev.rd (Reg.TDM_PCFG_SYN 3)) = true ∧ s.dev.ns = 0 ∧ s.dev.syn.a.lockAt + 1000000000 ≤ s.dev.timeNs ∧ Room s ∧
     s.dev.rd (Reg.TDM_PCFG_SYN 3) = 0) ∧
    (State.reset.dev.timeNs < State.reset.dev.syn.a.lockAt + 1000000000) ∧
    (∀ l, l < 2 → let s := regs [(Reg.TDM_PCFG_SRC 15, 1), (Reg.TDM_SRCSTAT_LOCK 3, l)]
     s.dev.portSrc (12 + 3) = true ∧ s.dev.rd (Reg.TDM_SRCSTAT_LOCK 3) = l) ∧
    (3196800 ≤ (3196800 : BitVec 24).toNat ∧ (9609600 : BitVec 24).toNat ≤ 9609600) := by
  unfold Room NoMoves; decide +kernel

/-- Port 1 up, with one frame in queue 7. -/
def queued (x : TxQueue) (ws : List (Fld × Nat)) : State :=
  regs ([(Reg.MAC_CFG_ENABLE 1, 1), (Reg.MAC_STATUS_LINK 1, 1), (Reg.MAC_QCFG_DEPTH 1 7, 16)] ++ ws) fun d =>
    { d with mac1 := { d.mac1 with queues := [(7, { x with q := [{ bytes := [1, 2] }] })] } }

theorem test_witness_pauses :
    (let s := queued {} [(Reg.MAC_CFG_RX_PAUSE_EN 1, 1), (Reg.MAC_CFG_RX_PFC_EN 1, 1), (Reg.MAC_PAUSE_STAT_BROKEN 1, 0x80)]
     s.dev.portUp 1 = true ∧ 64 ≤ s.dev.rd (Reg.MAC_CFG_MAXLEN 1) ∧ s.dev.rd (Reg.MAC_CFG_RX_PAUSE_EN 1) = 1 ∧
     s.dev.rd (Reg.MAC_CFG_RX_PFC_EN 1) = 1 ∧ (7 < 8 ∧ s.dev.broken 1 7 = true) ∧ (0xFFFF : BitVec 16).toNat ≠ 0) ∧
    (let s := queued {} [(Reg.MAC_CFG_RX_PAUSE_EN 1, 0), (Reg.MAC_CFG_RX_PFC_EN 1, 0)]
     s.dev.rd (Reg.MAC_CFG_RX_PAUSE_EN 1) = 0 ∧ s.dev.rd (Reg.MAC_CFG_RX_PFC_EN 1) = 0 ∧
     (0x80 : BitVec 8).getLsbD 7 = true ∧ (0x80 : BitVec 8).getLsbD 6 = false) ∧
    (let s := queued { left := 100 } []
     ((s.dev.mac 1).queue 7).left ≤ 10 * (s.dev.at 10).timeNs - (s.dev.mac 1).now ∧ ((((s.dev.at 5).macRun 1).mac 1).queue 7).left ≠ 0) ∧
    (let s := queued { left := 10 ^ 9, d := 10 ^ 8 } [(Reg.MAC_QCFG_AUDIO 1 7, 1), (Reg.MAC_QCFG_DAMPER_EN 1 7, 1), (Reg.MAC_FC_CFG_DAMPER_LIMIT 1, 10)]
     s.dev.damped 1 7 = true ∧ ((s.dev.mac 1).queue 7).q ≠ [] ∧ s.dev.broken 1 7 = false ∧ Room s ∧
     s.dev.rd (Reg.MAC_FC_CFG_DAMPER_LIMIT 1) * 10000 ≤ ((((s.dev.at 5).macRun 1).mac 1).queue 7).d) ∧
    (let s := queued { d := 5 } [(Reg.MAC_FC_CFG_DAMPER_LIMIT 1, 10)]
     ((((s.dev.at 0).macRun 1).mac 1).queue 7).d < s.dev.rd (Reg.MAC_FC_CFG_DAMPER_LIMIT 1) * 10000) ∧
    (let s := queued { quiet := 10 ^ 8 } [(Reg.MAC_PAUSE_STAT_BROKEN 1, 0x80), (Reg.MAC_FC_CFG_DAMPER_OPEN 1, 10)]
     s.dev.broken 1 7 = true ∧ Room s ∧
     s.dev.rd (Reg.MAC_FC_CFG_DAMPER_OPEN 1) * 10000000 ≤ ((((s.dev.at 5).macRun 1).mac 1).queue 7).quiet) ∧
    (let s := queued { quiet := 5 } [(Reg.MAC_FC_CFG_DAMPER_OPEN 1, 10)]
     ((((s.dev.at 0).macRun 1).mac 1).queue 7).quiet < s.dev.rd (Reg.MAC_FC_CFG_DAMPER_OPEN 1) * 10000000) ∧
    (∀ q, q < 8 → ((State.reset.dev.at 5).macRun 0).eligibleQ 0 q = false) ∧
    (let s := on fun d => { d with mac0 := { d.mac0 with txEnd := 100 } }
     (((s.dev.at 5).macRun 0).mac 0).now < (((s.dev.at 5).macRun 0).mac 0).txEnd) ∧
    (let s := queued {} []
     (((s.dev.at 5).macRun 1).eligibleQ 1 7 = true) ∧ (∀ p, 7 < p → p < 8 → ((s.dev.at 5).macRun 1).eligibleQ 1 p = false) ∧
     s.dev.portUp 1 = true ∧ (((s.dev.at 5).macRun 1).mac 1).txEnd ≤ (((s.dev.at 5).macRun 1).mac 1).now ∧
     ((s.dev.mac 1).queue 7).q = { bytes := [1, 2] } :: []) := by
  unfold Room
  refine ⟨by decide +kernel, by decide +kernel, by decide +kernel, by decide +kernel, by decide +kernel, by decide +kernel,
    by decide +kernel, by decide +kernel, by decide +kernel, by decide +kernel, ?_, by decide +kernel⟩
  intro p h1 h2; omega

theorem test_witness_links :
    (let s := regs [(Reg.MAC_CFG_ENABLE 0, 1), (Reg.MAC_CFG_AN_EN 0, 1), (Reg.MAC_CFG_SPEED 0, 2)]
     s.dev.rd (Reg.MAC_CFG_ENABLE 0) = 1 ∧ s.dev.rd (Reg.MAC_STATUS_LINK 0) = 0 ∧ s.dev.stopped (11 + 0) = false ∧
     s.dev.rd (Reg.MAC_CFG_AN_EN 0) = 1 ∧ s.dev.rd (Reg.MAC_CFG_SPEED 0) = 2 ∧ (0x80 : BitVec 16).getLsbD 5 = false ∧
     (0xA0 : BitVec 16).getLsbD 5 = true ∧ NoSyncE s 0 ∧ Room s) ∧
    (let s := regs [(Reg.MAC_CFG_ENABLE 1, 1), (Reg.MAC_CFG_AN_EN 1, 0), (Reg.REF_CFG_ENABLE, 1), (Reg.REF_CSTAT_STATE 3, 1), (Reg.REF_CAND_PRIO 3, 1)]
     s.dev.rd (Reg.MAC_CFG_ENABLE 1) = 1 ∧ s.dev.rd (Reg.MAC_STATUS_LINK 1) = 0 ∧ s.dev.rd (Reg.MAC_CFG_AN_EN 1) ≠ 1 ∧
     s.dev.stopped (11 + 1) = false ∧ s.dev.rd Reg.REF_CFG_ENABLE = 1 ∧ s.dev.rd (Reg.REF_CSTAT_STATE (2 + 1)) = 1 ∧
     s.dev.rd (Reg.REF_CAND_PRIO (2 + 1)) ≠ 0) ∧
    ((queued {} []).dev.rd (Reg.MAC_STATUS_LINK 1) = 1 ∧ NoSyncE (queued {} []) 1 ∧ Room (queued {} []) ∧
      (false || true || false || false) = true ∧
      (queued {} [(Reg.REF_CFG_ENABLE, 1), (Reg.REF_CSTAT_STATE 3, 3)]).dev.rd (Reg.REF_CSTAT_STATE (2 + 1)) ≠ 0) ∧
    (Ready State.reset .pcie (Reg.MAC_SFPCMD_GO 1) true) := by
  unfold Ready Room NoSyncE; decide +kernel

/-- Port 1 with a module, the supervisor running, and the module state `m`. -/
def module_ (m : Mac) (ws : List (Fld × Nat)) (ns : Nat) : State :=
  regs (supWs ++ [(Reg.MAC_STATUS_SFP_PRESENT 1, 1)] ++ ws) fun d => { d with tick := 8000, ns := ns, mac1 := m }

theorem test_witness_modules :
    ((State.reset.dev.rd (Reg.MAC_STATUS_SFP_PRESENT 1) = 0 ∧ ∀ a, (State.reset.dev.mac 1).modAt ≠ some a)) ∧
    (let s := module_ { modAt := some 900000000 } [] 0
     s.dev.rd (Reg.MAC_STATUS_SFP_PRESENT 1) = 1 ∧ (s.dev.mac 1).modAt = some 900000000 ∧ 900000000 + 100000000 ≤ (s.dev.at 0).timeNs ∧ Room s) ∧
    (let s := module_ { modAt := some 950000000 } [] 0
     (s.dev.mac 1).modAt = some 950000000 ∧ ¬ 950000000 + 100000000 ≤ (s.dev.at 0).timeNs) ∧
    (let s := module_ { idDue := true } [] 0
     s.dev.supRuns = true ∧ s.dev.rd (Reg.MAC_STATUS_SFP_PRESENT 1) = 1 ∧ (s.dev.mac 1).idDue = true) ∧
    (let s := module_ { diag := some 0 } [] 0
     s.dev.supRuns = true ∧ s.dev.rd (Reg.MAC_STATUS_SFP_PRESENT 1) = 1 ∧ (s.dev.mac 1).idDue = false ∧ (s.dev.mac 1).diag = some 0 ∧
     0 + 8000 ≤ s.dev.tick ∧ (0x8000 : BitVec 16) ≠ 0 ∧ Room s) ∧
    (∀ g ∈ [true, false], let s := module_ { gaveUp := g } [] 0
     s.dev.rd (Reg.MAC_STATUS_SFP_PRESENT 1) = 1 ∧ s.dev.rd (Reg.MAC_STATUS_TXFAULT 1) = 0 ∧ (s.dev.mac 1).gaveUp = g ∧ NoSyncE s 1 ∧ Room s) ∧
    (let s := module_ { faultAt := some 900000000 } [(Reg.MAC_STATUS_TXFAULT 1, 1)] 0
     s.dev.rd (Reg.MAC_STATUS_TXFAULT 1) = 1 ∧ s.dev.supRuns = true ∧ (s.dev.mac 1).faultAt = some 900000000 ∧
     900000000 + 100000000 ≤ s.dev.timeNs ∧ Room s) ∧
    (State.reset.dev.mac 1).faultAt = none := by
  refine ⟨⟨by decide +kernel, fun a h => by cases h⟩, ?_⟩
  unfold Room NoSyncE; decide +kernel

/-! ### Witnesses: network time -/

theorem test_witness_stamps :
    ((State.reset.dev.stampQ 0).q = []) ∧
    (let s := on fun d => { d with ptp := { d.ptp with stamps := [(3, { q := [[1, 2, 3, 4]] })] } }
     (((s.dev.stampQ 3).q).headD []).length = 4) ∧
    (let s := regs [(Reg.TSU_CFG_ENABLE, 1), (Reg.TSU_CAP_CFG_EN 7, 1), (Reg.TSU_CAP_STAT_NEW 7, 1), (Reg.TSU_CAP_CFG_SRC 7, 18), (Reg.TSU_CAP_CFG_EDGE 7, 0)]
     s.dev.rd Reg.TSU_CFG_ENABLE = 1 ∧ s.dev.rd (Reg.TSU_CAP_CFG_EN 7) = 1 ∧ s.dev.rd (Reg.TSU_CAP_STAT_NEW 7) = 1 ∧
     18 ≤ s.dev.rd (Reg.TSU_CAP_CFG_SRC 7) ∧ s.dev.rd (Reg.TSU_CAP_CFG_SRC 7) < 22 ∧ s.dev.rd (Reg.TSU_CAP_CFG_EDGE 7) = 0) ∧
    (let s := regs [(Reg.TSU_CAP_CFG_SRC 7, 2), (Reg.TSU_CAP_CFG_EDGE 7, 2)] fun d => { d with tim := { d.tim with ins := [(2, { cond := true, edgeAt := 5 })] } }
     (s.dev.at 5).pinEdge (s.dev.rd (Reg.TSU_CAP_CFG_SRC 7)) true = true ∧ (s.dev.at 5).pinEdge (s.dev.rd (Reg.TSU_CAP_CFG_SRC 7)) false = false ∧
     s.dev.rd (Reg.TSU_CAP_CFG_EDGE 7) < 3) := by decide +kernel

theorem test_witness_triggers :
    (let s := regs [(Reg.TSU_TRIG_NS_NS 15, 6), (Reg.TSU_TRIG_PER_PER 15, 1000)]
     Ready s .pcie (Reg.TSU_TRIG_CMD_ARM 15) false ∧ Ready s .pcie (Reg.TSU_TRIG_CMD_DISARM 15) false ∧
     s.dev.rd (Reg.TSU_TRIG_NS_NS 15) = 6 ∧ s.dev.rd (Reg.TSU_TRIG_PER_PER 15) = 1000 ∧ (s.dev.at 5).timeNs = 5 ∧
     s.dev.rd (Reg.TSU_TRIG_SEC_SEC 15) = 0 ∧ s.dev.rd (Reg.TSU_TRIG_SECHI_SEC 15) = 0) ∧
    (let s := regs [(Reg.TSU_TRIG_NS_NS 0, 1000000000)]
     Ready s .pcie (Reg.TSU_TRIG_CMD_ARM 0) false ∧ 999999999 < s.dev.rd (Reg.TSU_TRIG_NS_NS 0)) ∧
    (let s := regs [(Reg.TSU_TRIG_PER_PER 0, 999)]
     s.dev.rd (Reg.TSU_TRIG_PER_PER 0) = 999 ∧ s.dev.rd (Reg.TSU_TRIG_NS_NS 0) = 0) ∧
    (let s := regs [(Reg.TSU_CFG_ENABLE, 1), (Reg.TDM_PSTAT_STATE 2, 1), (Reg.TDM_PCFG_TRIG 2, 9), (Reg.OUT_FP_STAT_STATE 3, 1),
         (Reg.OUT_FP_CFG_TRIG 3, 9)] fun d => { d with ptp := { d.ptp with trigs := [(9, some ⟨5, 1000⟩), (10, some ⟨5, 0⟩)] } }
     s.dev.rd Reg.TSU_CFG_ENABLE = 1 ∧ s.dev.trig 9 = some ⟨5, 1000⟩ ∧ s.dev.trig 10 = some ⟨5, 0⟩ ∧
     s.dev.rd (Reg.TDM_PSTAT_STATE 2) = 1 ∧ s.dev.rd (Reg.TDM_PCFG_TRIG 2) = 9 ∧ s.dev.rd (Reg.OUT_FP_STAT_STATE 3) = 1 ∧
     s.dev.rd (Reg.OUT_FP_CFG_TRIG 3) = 9 ∧ (s.dev.at 0).ns = 0 ∧ (s.dev.at 5).ns ≠ 0 ∧ (s.dev.at 4).timeNs < 5 ∧ 5 ≤ (s.dev.at 5).timeNs) := by
  unfold Ready; decide +kernel

theorem test_witness_trigger_alone :
    let s := regs [(Reg.TSU_CFG_ENABLE, 1), (Reg.TSU_TRIG_EV_EV, 512)] fun d => { d with ptp := { d.ptp with trigs := [(9, some ⟨5, 0⟩)] } }
    s.dev.trig 9 = some ⟨5, 0⟩ ∧ (∀ n, ¬ (n < 16 ∧ s.dev.rd (Reg.TDM_PSTAT_STATE n) = 1 ∧ s.dev.rd (Reg.TDM_PCFG_TRIG n) = 9)) ∧ Room s := by
  have none : ∀ n, n < 16 → (regs [(Reg.TSU_CFG_ENABLE, 1), (Reg.TSU_TRIG_EV_EV, 512)] fun d =>
      { d with ptp := { d.ptp with trigs := [(9, some ⟨5, 0⟩)] } }).dev.rd (Reg.TDM_PSTAT_STATE n) ≠ 1 := by decide +kernel
  exact ⟨by decide +kernel, fun n h => none n h.1 h.2.1, by unfold Room; decide +kernel⟩

theorem test_witness_quality :
    let s := regs (supWs ++ [(Reg.PTP_PCFG_ENABLE 1, 1), (Reg.PTP_PSTAT_STATE 1, 3), (Reg.PTP_GMID_LO 1, 7)])
    s.dev.rd (Reg.PTP_PCFG_ENABLE 1) = 1 ∧ s.dev.supRuns = true ∧ (¬ ∃ x : Fin 8, some (3 : Fin 8) = some x ∧ s.dev.rd (Reg.PTP_PSTAT_STATE 1) ≠ x.val) ∧
    ¬ (s.dev.rd (Reg.PTP_GMID_HI 1) = (8 : BitVec 64).toNat / 2 ^ 32 ∧ s.dev.rd (Reg.PTP_GMID_LO 1) = (8 : BitVec 64).toNat % 2 ^ 32) ∧
    (s.dev.rd (Reg.PTP_GMID_HI 1) = (7 : BitVec 64).toNat / 2 ^ 32 ∧ s.dev.rd (Reg.PTP_GMID_LO 1) = (7 : BitVec 64).toNat % 2 ^ 32) ∧
    (s.dev.rd (Reg.PTP_PSTAT_STATE 1) ≠ (5 : Fin 8).val) ∧ Room s := by
  unfold Room; decide +kernel

theorem test_witness_announce_timeouts :
    (let s := regs (supWs ++ [(Reg.PTP_PCFG_ENABLE 1, 1), (Reg.PTP_PSTAT_STATE 1, 3)]) fun d => { d with tick := 10 ^ 7 }
     s.dev.rd (Reg.PTP_PCFG_ENABLE 1) = 1 ∧ s.dev.supRuns = true ∧ s.dev.rd (Reg.PTP_PSTAT_STATE 1) ≠ (2 : Fin 8).val ∧ Room s ∧
     (s.dev.pport 1).annAt + s.dev.rd (Reg.PTP_PRATE_ANN_TMO 1) *
      (8000 * 2 ^ (sint 8 (s.dev.rd (Reg.PTP_PRATE_LOG_ANN 1)) + 8).toNat / 256) ≤ s.dev.tick) ∧
    (State.reset.dev.tick < (State.reset.dev.pport 1).annAt + State.reset.dev.rd (Reg.PTP_PRATE_ANN_TMO 1) *
      (8000 * 2 ^ (sint 8 (State.reset.dev.rd (Reg.PTP_PRATE_LOG_ANN 1)) + 8).toNat / 256)) ∧
    (let s := regs (supWs ++ [(Reg.MAC_STATUS_LINK 1, 1)]) fun d => { d with tick := 40000, ref := { d.ref with cands := [(3, { heard := some 0 })] } }
     s.dev.supRuns = true ∧ s.dev.rd (Reg.MAC_STATUS_LINK 1) = 1 ∧ (s.dev.cand 3).heard = some 0 ∧ 0 + 40000 ≤ s.dev.tick) ∧
    (State.reset.dev.cand 3).heard = none := by
  unfold Room; decide +kernel

/-- A Sync and an Announce message over Ethernet. -/
def ptpFrame (ty : Byte) : List Byte :=
  [1, 0x1B, 0x19, 0, 0, 0, 2, 0, 0, 0, 0, 1, 0x88, 0xF7, ty, 2, 0, 64] ++ List.replicate 60 0

theorem test_witness_ptp_messages :
    (let s := regs (supWs ++ [(Reg.PTP_PCFG_ENABLE 1, 1), (Reg.MAC_CFG_ENABLE 1, 1), (Reg.MAC_STATUS_LINK 1, 1), (Reg.MAC_QCFG_DEPTH 1 0, 16),
         (Reg.MAC_SUPQ_PTPQ 1, 0), (Reg.PTP_PSTAT_STATE 1, 4), (Reg.PTP_PCFG_ONESTEP 1, 1)])
     s.dev.supRuns = true ∧ s.dev.rd (Reg.PTP_PCFG_ENABLE 1) = 1 ∧ s.dev.portUp 1 = true ∧ s.dev.rd (Reg.MAC_SUPQ_PTPQ 1) = 0 ∧
     s.dev.rd (Reg.PTP_PSTAT_STATE 1) = 4 ∧ s.dev.rd (Reg.PTP_PCFG_ONESTEP 1) = 1 ∧
     (∀ ty ∈ [(0 : Byte), 11], let b := (ptpFrame ty).map (·.toNat)
       ({ bytes := b } : TxFrame).len ≤ s.dev.rd (Reg.MAC_CFG_MAXLEN 1) ∧ 0 < ({ bytes := b } : TxFrame).len ∧
       queueLen ((s.dev.mac 1).queue 0).q + ({ bytes := b } : TxFrame).len ≤ s.dev.rd (Reg.MAC_QCFG_DEPTH 1 0) * 1024 ∧
       ptpAt b = some (14, false) ∧ byteAt b 14 % 16 = ty.toNat ∧ 14 + 64 ≤ b.length)) ∧
    (let s := regs (supWs ++ [(Reg.PTP_PCFG_ENABLE 0, 1)])
     s.dev.rd (Reg.PTP_PCFG_ENABLE 0) = 1 ∧ s.dev.supRuns = true ∧ s.dev.portUp 0 = false) := by decide +kernel

theorem test_witness_announced :
    (let s := regs [(Reg.REF_STATUS_STATE, 2), (Reg.REF_STATUS_SEL, 1)]
     (s.dev.rd Reg.REF_STATUS_STATE = 1 ∨ s.dev.rd Reg.REF_STATUS_STATE = 2) ∧ s.dev.rd Reg.REF_STATUS_SEL < 2) ∧
    (let s := regs [(Reg.REF_STATUS_STATE, 3), (Reg.REF_STATUS_HISTVALID, 1), (Reg.REF_STATUS_OCXO_WARM, 1), (Reg.REF_HO_INSPEC, 1)]
         fun d => { d with ref := { d.ref with hoClass := 6 } }
     s.dev.rd Reg.REF_STATUS_STATE = 3 ∧ s.dev.ref.hoClass = 6 ∧ s.dev.rd Reg.REF_STATUS_HISTVALID = 1 ∧
     s.dev.rd Reg.REF_STATUS_OCXO_WARM = 1 ∧ s.dev.rd Reg.REF_HOTIME_SEC < s.dev.rd Reg.REF_HO_INSPEC) ∧
    (let s := regs [(Reg.REF_STATUS_STATE, 3)] fun d => { d with ref := { d.ref with hoClass := 6 } }
     s.dev.rd Reg.REF_STATUS_STATE = 3 ∧ s.dev.ref.hoClass = 6 ∧ s.dev.rd Reg.REF_STATUS_HISTVALID ≠ 1) ∧
    State.reset.dev.rd Reg.REF_STATUS_STATE = 0 := by decide +kernel

/-- Port 0 as `p` and port 1 as `q`, both on, and port 1 in SLAVE; port 0 steers where `st` is 1. -/
def servo (p q : PtpPort) (st : Nat) : State :=
  regs (supWs ++ [(Reg.PTP_CFG_ENABLE, 1), (Reg.PTP_PCFG_ENABLE 0, 1), (Reg.PTP_PCFG_ENABLE 1, 1), (Reg.PTP_PSTAT_STATE 0, 3), (Reg.PTP_PSTAT_STATE 1, 3),
    (Reg.REF_CFG_ENABLE, 1), (Reg.REF_CSTAT_STATE 0, 3), (Reg.PTP_STATUS_STEER, st)]) fun d => { d with ptp := { d.ptp with a := p, b := q } }

theorem test_witness_exchanges :
    State.reset.dev.ptpOn 0 = false ∧ (servo {} {} 1).dev.ptpOn 0 = true ∧ (servo {} {} 1).dev.supRuns = true ∧
    (∃ f ∈ ({ frames := [(false, 0, 7)] } : ExchangeData).frames,
      (f.1, f.2.1.toNat, f.2.2.toNat) ∈ ((servo { lost := [(false, 0, 7)] } {} 1).dev.pport 0).lost) ∧
    (¬ ∃ f ∈ ({} : ExchangeData).frames, (f.1, f.2.1.toNat, f.2.2.toNat) ∈ ((servo {} {} 1).dev.pport 0).lost) ∧
    (3 ≤ (servo {} {} 1).dev.rd (Reg.REF_CSTAT_STATE 0) ∧ (servo {} {} 1).dev.rd (Reg.REF_CAND_PRIO 0) ≠ 0 ∧
      ¬ ∃ y, ({} : ExchangeData).st = some y ∧ (servo {} {} 1).dev.rd (Reg.PTP_PSTAT_STATE 0) ≠ y.val) ∧
    ((servo { lastTick := some 0 } {} 1).dev.tick < 0 + 8000 ∧ (servo {} {} 1).dev.rd Reg.PWR_STATUS_STATE ≠ 4) ∧
    (servo {} {} 1).dev.rd Reg.PTP_STATUS_STEER = 0 + 1 ∧ (servo {} {} 2).dev.rd Reg.PTP_STATUS_STEER ≠ 0 + 1 ∧
    (∀ k ∈ [(1 : Nat), 2], let p := (servo { good := List.replicate 64 (20000, 0), suspects := k } {} 1).dev.pport 0
      p.good.length = 64 ∧ 128 * ((servo {} {} 1).dev.rd Reg.PTP_PSTEP_THRESH : Int) < (64 * 0 - sumOf (p.good.map (·.1)) : Int).natAbs ∧
      p.hold = none ∧ (p.suspects + 1 < 3 ∨ 3 ≤ p.suspects + 1)) ∧
    ((servo {} {} 1).dev.pport 0).good.length ≠ 64 ∧ ((servo {} {} 1).dev.pport 0).hold = none := by
  refine ⟨by decide +kernel, by decide +kernel, by decide +kernel, ⟨(false, 0, 7), by decide +kernel⟩, (by rintro ⟨f, h, -⟩; cases h),
    ⟨by decide +kernel, by decide +kernel, (by rintro ⟨y, h, -⟩; cases h)⟩, ?_⟩
  decide +kernel

/-- The decisions of R333, with thresholds at their edges: lim = 12,800. -/
theorem test_witness_hold_decisions :
    (64 * (servo {} {} 1).dev.rd Reg.PTP_PSTEP_THRESH = 12800) ∧
    (let dn := fun (h : PathHold) => (8 * sumOf ([((0 : Int), (0 : Int))].map (·.1)) - h.base).natAbs
     let od := fun (h : PathHold) => 8 * sumOf (((servo {} {} 1).dev.pport 1).last.map (·.1)) - h.other.getD 0
     (∀ b ∈ [(12800 : Int), -12800], dn { tick := 0, base := b, baseD := 0, other := none, single := true, count := 9 } ≤ 12800) ∧
     12800 < dn { tick := 0, base := 12801, baseD := 0, other := none, single := true, count := 9 } ∧
     (0 + 1 ≠ 8 ∧ 7 + 1 = 8) ∧
     (od { tick := 0, base := 0, baseD := 0, other := some 12800 }).natAbs ≤ 12800 ∧
     2 * 12800 < (od { tick := 0, base := 0, baseD := 0, other := some 25601 }).natAbs ∧
     (12800 < (od { tick := 0, base := 0, baseD := 0, other := some 12801 }).natAbs ∧ ¬ 2 * 12800 < (od { tick := 0, base := 0, baseD := 0, other := some 12801 }).natAbs)) ∧
    (let s := servo { hold := some { tick := 0, base := 25601, baseD := 0, other := some 25601, count := 7 } } { lastTick := some 0 } 1
     s.dev.ptpOn 1 = true ∧ s.dev.rd (Reg.PTP_PSTAT_STATE 1) = 3 ∧ (s.dev.pport 1).lastTick = some 0 ∧ s.dev.tick ≤ 0 + 16000 ∧
     (s.dev.pport 1).hold = none ∧ (s.dev.pport 0).hold = some { tick := 0, base := 25601, baseD := 0, other := some 25601, count := 7 }) := by
  decide +kernel

theorem test_witness_path_step_commands :
    (let s := servo { hold := some { tick := 0, base := 5, baseD := 0, other := none, single := true } } {} 1
     (s.dev.pport 0).hold = some { tick := 0, base := 5, baseD := 0, other := none, single := true } ∧
     ¬ 0 + 8000 * s.dev.rd Reg.PTP_PSTEP_HOLD ≤ s.dev.tick ∧ 0 + 8000 * s.dev.rd Reg.PTP_PSTEP_HOLD ≤ ({ s.dev with tick := 10 ^ 9 } : Dev).tick ∧ Ready s .pcie (rebaseFld 0) false ∧
     Ready s .pcie (acceptFld 0) false) ∧
    Ready State.reset .pcie (rebaseFld 1) false ∧ Ready State.reset .pcie (acceptFld 1) false ∧ Ready State.reset .pcie (clrrebFld 1) false ∧
    (State.reset.dev.pport 1).hold = none := by
  unfold Ready; decide +kernel

/-! ### Witnesses: references -/

theorem test_witness_estimates :
    (let s := regs [(Reg.REF_CFG_ENABLE, 1), (Reg.TIM_CFG_ENABLE, 1), (Reg.REF_STATUS_OSCIN_OK, 1), (Reg.REF_CSTAT_STATE 2, 3)]
     s.dev.rd Reg.REF_CFG_ENABLE = 1 ∧ s.dev.tick % 8 = 0 ∧ s.dev.ref.estAt ≠ some s.dev.tick ∧
     s.dev.rd Reg.TIM_CFG_ENABLE = 1 ∧ s.dev.rd Reg.REF_STATUS_OSCIN_OK = 1 ∧
     ([((5 : Fin 6), (7 : BitVec 32))].find? fun e => e.1.val == 5) = some (Fin.ofNat 6 5, 7) ∧
     2 ≤ 2 ∧ 3 ≤ s.dev.rd (Reg.REF_CSTAT_STATE 2) ∧ s.dev.rd (Reg.REF_CSTAT_STATE 3) < 3) ∧
    (let s := regs [(Reg.REF_CFG_ENABLE, 1), (Reg.REF_STATUS_SEL, 0), (Reg.REF_CSTAT_STATE 0, 3)]
     s.dev.rd Reg.REF_STATUS_OSCIN_OK = 0 ∧ s.dev.rd Reg.REF_STATUS_SEL = 0 ∧ s.dev.rd Reg.PTP_STATUS_ANCHORED = 0 ∧ s.dev.ref.anchor = none) ∧
    (State.reset.dev.rd Reg.REF_CFG_ENABLE ≠ 1) ∧
    100 * State.reset.dev.rd Reg.REF_LIMITS_HARD = 1000000 ∧ 100 * State.reset.dev.rd Reg.REF_LIMITS_SOFT = 400000 ∧
    8000 * State.reset.dev.rd Reg.REF_TIMES_SOFT_TIME = 240000 := by decide +kernel

/-- The selection of R352 and R353: candidates 0 and 1 qualified, with 1 the better by priority and 0 selected and locked. -/
theorem test_witness_selection :
    let s := regs [(Reg.REF_CSTAT_STATE 0, 3), (Reg.REF_CSTAT_QCODE 0, 16), (Reg.REF_CSTAT_STATE 1, 3), (Reg.REF_CSTAT_QCODE 1, 16),
      (Reg.REF_CAND_PRIO 0, 2), (Reg.REF_CAND_PRIO 1, 1), (Reg.REF_STATUS_SEL, 0), (Reg.REF_STATUS_STATE, 2)]
    Eligible s 0 ∧ Eligible s 1 ∧ (∀ k, 2 ≤ k → k < 7 → ¬ Eligible s k) ∧ BetterThan s 1 0 := by
  unfold Eligible BetterThan
  refine ⟨by decide +kernel, by decide +kernel, ?_, by decide +kernel⟩
  intro k h1 h2
  rcases (by omega : k = 2 ∨ k = 3 ∨ k = 4 ∨ k = 5 ∨ k = 6) with rfl | rfl | rfl | rfl | rfl <;> decide +kernel

theorem test_witness_candidates :
    (let s := regs [(Reg.REF_CFG_ENABLE, 1), (Reg.REF_CSTAT_STATE 1, 3)]
     (1 : Fin 7).val ≠ 6 ∧ s.dev.rd Reg.REF_CFG_ENABLE = 1 ∧ s.dev.rd (Reg.REF_CAND_PRIO 1) ≠ 0 ∧ s.dev.rd (Reg.REF_CSTAT_STATE 1) ≠ 0) ∧
    (let s := regs [(Reg.REF_CFG_ENABLE, 1), (Reg.REF_STATUS_OSCIN_OK, 1), (Reg.REF_CSTAT_STATE 6, 3), (Reg.REF_STATUS_OCXO_WARM, 1)]
     s.dev.rd Reg.REF_STATUS_OSCIN_OK = 1 ∧ s.dev.rd Reg.REF_STATUS_OCXO_WARM = 1 ∧ s.dev.rd (Reg.REF_CAND_PRIO 6) ≠ 0 ∧
     s.dev.rd (Reg.REF_CSTAT_STATE 6) ≠ 0 ∧ s.dev.rd Reg.TIM_STATUS_PLLSRC ≠ 1) ∧
    (let s := regs [(Reg.REF_CFG_ENABLE, 1), (Reg.REF_CSTAT_STATE 6, 1)]
     s.dev.rd Reg.REF_STATUS_OSCIN_OK = 0 ∧ s.dev.rd (Reg.REF_CSTAT_STATE 6) = 1) := by decide +kernel

theorem test_witness_switches :
    (let s := regs [(Reg.REF_CFG_ENABLE, 1), (Reg.REF_STATUS_PEND, 2), (Reg.REF_STATUS_STATE, 2), (Reg.REF_TIMES_WTR, 3)] fun d => { d with tick := 24000 }
     (s.dev.rd Reg.REF_CFG_ENABLE = 1 ∧ s.dev.rd Reg.REF_STATUS_PEND ≠ 7 ∧ s.dev.rd Reg.REF_STATUS_STATE ≠ 1) ∧
     8000 * s.dev.rd Reg.REF_TIMES_WTR ≤ s.dev.tick - max s.dev.ref.done s.dev.ref.since ∧ Ready s .pcie Reg.REF_CMD_SWITCHNOW false) ∧
    State.reset.dev.rd Reg.REF_STATUS_PEND = 7 ∧ Ready State.reset .pcie Reg.REF_CMD_SWITCHNOW false ∧
    Ready State.reset .pcie Reg.REF_CMD_REANCHOR false ∧ State.reset.dev.rd (Reg.REF_CSTAT_STATE 0) ≠ 3 ∧
    (let s := regs [(Reg.REF_CSTAT_STATE 1, 3)]
     Ready s .pcie Reg.REF_CMD_REANCHOR false ∧ s.dev.rd (Reg.REF_CSTAT_STATE 1) = 3) ∧
    (∀ k, k < 7 → let s := regs [(Reg.REF_STATUS_STATE, 1), (Reg.REF_CFG_ENABLE, 1), (Reg.REF_STATUS_SEL, k)] fun d => { d with tick := 64 }
     s.dev.rd Reg.REF_STATUS_STATE = 1 ∧ s.dev.ref.begun + 64 ≤ s.dev.tick ∧ s.dev.rd Reg.REF_CFG_ENABLE = 1 ∧ s.dev.rd Reg.REF_STATUS_SEL = k ∧ Room s) ∧
    State.reset.dev.rd Reg.REF_STATUS_STATE ≠ 1 ∧
    (let s := regs [(Reg.REF_STATUS_SEL, 0)] fun d => { d with ptp := { d.ptp with a := { last := [(125002, 0)] } }, ref := { d.ref with other := true } }
     (s.dev.pport 0).last ≠ [] ∧ s.dev.ref.other = true) := by
  unfold Ready Room; decide +kernel

/-! ### Witnesses: synthesizers and outputs -/

/-- Both synthesizers locked on plan 0, with CLKOUT 3 and master port 3 on synthesizer 0. -/
def locked (x y : SynS) : State :=
  regs [(Reg.SYNX_STAT_LOCK 0, 1), (Reg.SYNX_STAT_LOCK 1, 1), (Reg.SYN_CFG_ENABLE, 1), (Reg.SYNX_CFG_EN 0, 1), (Reg.OUT_CFG_ENABLE, 1),
    (Reg.OUT_CLK_CFG_XFAIL 3, 1), (Reg.TDM_PSTAT_STATE 3, 2), (Reg.TDM_PCFG_XFAIL 3, 1)] fun d => { d with syn := { d.syn with a := x, b := y } }

theorem test_witness_ports_and_clocks_follow :
    (let s := locked { gated := false } { gated := false }
     s.dev.rd (Reg.TDM_PSTAT_STATE 3) = 2 ∧ s.dev.rd (Reg.TDM_PCFG_ROLE 3) = 0 ∧ s.dev.tdmLocked (s.dev.portSyn 3) = true ∧
     s.dev.rd (Reg.TDM_PCFG_XFAIL 3) = 1) ∧
    (let s := locked { gated := false } { gated := false }
     let t := locked { gated := true } { gated := false }
     ClockMoves s t 3 ∧ ¬ ClockMoves s t 4) ∧
    (regs [(Reg.TDM_PSTAT_STATE 3, 2)]).dev.tdmLocked 0 = false ∧ (regs [(Reg.TDM_PSTAT_STATE 3, 2)]).dev.rd (Reg.TDM_PCFG_XFAIL 3) = 0 ∧
    (∀ st ∈ [2, 3], (regs [(Reg.OUT_FP_STAT_STATE 1, st)]).dev.rd (Reg.OUT_FP_STAT_STATE 1) = st) := by
  unfold ClockMoves; decide +kernel

theorem test_witness_synthesizers_gate :
    (let s := locked { gated := false } { gated := false }
     s.dev.rd (Reg.SYNX_STAT_LOCK 0) = 1 ∧ s.dev.rd Reg.SYN_CFG_ENABLE = 1 ∧ s.dev.rd (Reg.SYNX_CFG_EN 0) = 1 ∧
     s.dev.rd (Reg.SYNX_CFG_PLAN 0) = 0 ∧ (s.dev.syns 0).refLost = false ∧ s.dev.rd (Reg.SYNX_CFG_EN 1) ≠ 1 ∧
     Ready s .pcie (Reg.SYNX_CMD_RESEARCH 0) false ∧ Ready s .pcie (Reg.SYNX_CMD_RESEARCH 1) false ∧ Room s) ∧
    (∀ p ∈ [0, 4], let s := regs [(Reg.PWR_STATUS_STATE, p)] fun d => { d with syn := { d.syn with a := { refLost := true } } }
     (s.dev.syns 0).refLost = true ∧ s.dev.rd (Reg.SYNX_CFG_PLAN 0) = (0 : Fin 2).val ∧ s.dev.stopped 17 = decide (p = 4)) ∧
    (let s := regs [(Reg.SYN_SLOT_VALID 1, 1), (Reg.SYN_SLOT_TEMP 1, 65), (Reg.AGE_TEMP_CORE, 45)]
     s.dev.rd (Reg.SYN_SLOT_VALID (4 * 0 + 2 * 0 + 1)) = 1 ∧ 45 ≤ sint 8 (s.dev.rd Reg.AGE_TEMP_CORE) ∧
     (sint 8 (s.dev.rd (Reg.SYN_SLOT_TEMP 1)) - sint 8 (s.dev.rd Reg.AGE_TEMP_CORE)).natAbs ≤ 20) ∧
    State.reset.dev.rd (Reg.SYN_SLOT_VALID 0) = 0 := by
  unfold Ready Room; decide +kernel

theorem test_witness_attempts_end :
    (∀ r ∈ [Relock.hop, .failed, .search], ((locked {} { relock := r }).dev.syns 1).relock = r) ∧
    (let d := (locked {} {}).dev.at 500
     d.timeNs = 500 ∧ ((locked {} {}).dev.syns 1).lp = false) ∧
    (∀ w ∈ [20000, 12000, 31000, 391000, 1000000], let s := locked {} {}
     let late := { s.dev with tick := 8 }.at w
     ((0 : Nat) + w ≤ late.timeNs ∧ ¬ 0 + w ≤ (s.dev.at 11999).timeNs)) ∧
    ((locked { relock := .hop, lp := true } {}).dev.syns 0).lp = true ∧ Ready (locked {} {}) .pcie Reg.SYN_CMD_CLRSLOTS false ∧
    (((locked {} { relock := .search, failedOnce := true }).dev.syns 1).failedOnce = true) ∧ Room (locked {} { relock := .hop }) ∧
    Ready State.reset .pcie Reg.SYN_CMD_CLRSLOTS false := by
  unfold Ready Room; decide +kernel

theorem test_witness_clock_outputs :
    (Ready State.reset .pcie (Reg.SYNX_CMD_REALIGN 1) false ∧ State.reset.dev.rd (Reg.SYNX_STAT_UNALIGNED 1) = 0) ∧
    (let s := regs [(Reg.SYNX_STAT_UNALIGNED 1, 1)]
     Ready s .pcie (Reg.SYNX_CMD_REALIGN 1) false ∧ s.dev.rd (Reg.SYNX_STAT_UNALIGNED 1) = 1) ∧
    (let s := locked { realign := true } {}
     s.dev.rd (Reg.SYNX_CFG_PLAN 0) = (0 : Fin 2).val ∧ (s.dev.syns 0).realign = true ∧ (s.dev.syns 1).realign = false ∧ s.dev.ns = 0 ∧ (0 : Fin 2) = 0) ∧
    (let d := { State.reset.dev with tick := 81 }
     d.ns = 0 ∧ ¬ ((1 : Fin 2) = 0 ∨ d.tick % 80 = 0) ∧ { d with tick := 160 }.tick % 80 = 0 ∧ (d.at 5).ns ≠ 0) ∧
    (let s := on fun d => { d with syn := { d.syn with waiting := [7] } }
     7 ∈ s.dev.syn.waiting) ∧
    (State.reset.dev.owns .pcie = true ∧ State.reset.dev.locked .pcie 18 = false) ∧
    (let s := regs [(Reg.OUT_CLK_STAT_ONSYN 7, 1), (Reg.OUT_CLK_CFG_REVERT 7, 1), (Reg.SYNX_STAT_LOCK 0, 1)]
         fun d => { d with tick := 8003, syn := { d.syn with a := { gated := false, lockAt := 375000 } } }
     (s.dev.syns 0).lockAt + 10 ^ 9 ≤ s.dev.timeNs - s.dev.ns ∧ ¬ (s.dev.syns 0).lockAt + 1 + 10 ^ 9 ≤ s.dev.timeNs - s.dev.ns ∧
     s.dev.rd (Reg.OUT_CLK_STAT_ONSYN 7) = 1 ∧ s.dev.rd (Reg.OUT_CLK_CFG_REVERT 7) = 1 ∧ s.dev.rd (Reg.OUT_CLK_CFG_SYN 7) = 0 ∧
     s.dev.rd (Reg.SYNX_STAT_LOCK 0) = 1 ∧ (s.dev.syns 0).gated = false ∧ Room s) := by
  unfold Ready Room; decide +kernel

/-- Pulse output 2 enabled in `mode`, with a window of 10 ns and a WIDTH of 499 counts, running with a period of 1,000; input 0 has risen
now. -/
def pulsing (mode : Nat) (x : PulseS) : State :=
  regs [(Reg.OUT_CFG_ENABLE, 1), (Reg.OUT_FP_CFG_EN 2, 1), (Reg.OUT_FP_CFG_MODE 2, mode), (Reg.OUT_FP_FINE_WIN 2, 10), (Reg.OUT_FP_STAT_STATE 2, 2)]
    fun d => { d with syn := { d.syn with fp := [(2, { x with per := 1000, width := 499, off := 1 })] }, tim := { d.tim with ins := [(0, { cond := true })] } }

theorem test_witness_pulse_outputs :
    (Ready (pulsing 2 {}) .pcie (Reg.OUT_FP_CMD_ALIGN 2) false ∧ (pulsing 2 {}).dev.rd (Reg.OUT_FP_CFG_MODE 2) = 2 ∧
      (pulsing 1 {}).dev.rd (Reg.OUT_FP_CFG_MODE 2) ≠ 2 ∧ Ready (pulsing 1 {}) .pcie (Reg.OUT_FP_CMD_ALIGN 2) false) ∧
    (∀ mode ∈ [0, 1, 2], let s := pulsing mode { anchor := some 0, rejects := 2 }
     s.dev.rd Reg.OUT_CFG_ENABLE = 1 ∧ s.dev.rd (Reg.OUT_FP_CFG_EN 2) = 1 ∧ s.dev.rd (Reg.OUT_FP_CFG_MODE 2) = mode ∧
     (s.dev.at 2).pinEdge (s.dev.rd (Reg.OUT_FP_CFG_INSRC 2)) (s.dev.rd (Reg.OUT_FP_CFG_IEDGE 2) == 0) = true ∧
     (s.dev.at 3).pinEdge (s.dev.rd (Reg.OUT_FP_CFG_INSRC 2)) (s.dev.rd (Reg.OUT_FP_CFG_IEDGE 2) == 0) = false) ∧
    (let s := pulsing 1 { anchor := some 0, rejects := 2 }
     (s.dev.pulse 2).anchor = some 0 ∧ s.dev.rd (Reg.OUT_FP_FINE_WIN 2) = 10 ∧ (s.dev.pulse 2).rejects = 2 ∧ (10 : Int).natAbs ≤ 10 ∧
     ¬ (11 : Int).natAbs ≤ 10 ∧ Room s ∧ 0 < (s.dev.pulse 2).per ∧ 0 < (s.dev.pulse 2).off ∧ (s.dev.pulse 2).off < (s.dev.pulse 2).per) ∧
    (let s := pulsing 2 { align := true, anchor := some 0 }
     s.dev.rd (Reg.OUT_FP_CFG_MODE 2) = 2 ∧ (s.dev.pulse 2).align = true ∧ (s.dev.pulse 2).anchor = some 0) ∧
    (∀ a ∈ [124, 0], let old : Int := (((124 : Int) - (a : Nat)) * 1572864000 - 1 * 10 ^ 9) % (1000 * 10 ^ 9)
     ((pulsing 1 {}).dev.rd (Reg.OUT_FP_STAT_STATE 2) = 2 ∧ old < 499 * 10 ^ 9 ∧ old ≠ (1000 - 1) * 10 ^ 9 ∧ 1 * 10 ^ 9 < 499 * 10 ^ 9 - old + 4 * 10 ^ 9) ↔
       a = 0) ∧
    State.reset.dev.rd Reg.OUT_CFG_ENABLE ≠ 1 := by
  unfold Ready Room; decide +kernel


/-! ### Witnesses: time-interval measurement -/

/-- Unit `u` runs with state `x` and the TIM PLL is locked. -/
def timing (u : Nat) (x : TimU) (ws : List (Fld × Nat) := []) : State :=
  regs ([(Reg.TIM_URES_STATE u, 1), (Reg.TIM_STATUS_PLLLOCK, 1)] ++ ws) fun d => { d with tim := { d.tim with units := [(u, x)] } }

/-- Interval mode: starts of input 2, two stops of input 3, the second counts, TMO 5 and blocks of two samples; frequency mode at 10 MHz with a
gate of 1,000 ms. -/
def cfgI : List Nat := [0x2200, 0x302, 2, 5, 0]
def cfgF : List Nat := [0x2, 0, 2, 1000, 10000000]

theorem test_witness_intervals :
    (∀ h : Bool, let s := on fun d => { d with tim := { d.tim with ins := [(17, { comp := true, hold := h })] } }
     (s.dev.timIn 17).comp ≠ false ∧ (s.dev.timIn 17).hold = h ∧
     (s.dev.timIn 17).edgeAt + 10 * s.dev.rd (Reg.TIM_IN_HOLDOFF 17) ≤ (s.dev.at 10000).timeNs) ∧
    (State.reset.dev.timIn 0).comp ≠ true ∧ (State.reset.dev.timIn 0).comp = false ∧
    (∀ c : Bool, let s := timing 11 { cfg := cfgI }
     let t := { s with dev := { s.dev with tim := { s.dev.tim with ins := [(2, { cond := c })] } } }
     Measuring t 11 false ∧ (t.dev.timU 11).start = none ∧ t.dev.srcEdge ((t.dev.timU 11).field 1 5 0) ((t.dev.timU 11).field 0 4 4 == 1) = c) ∧
    (∀ c : Bool, let s := timing 11 { cfg := cfgI, start := some 100 }
     let t := { s with dev := { s.dev with tim := { s.dev.tim with ins := [(3, { cond := c })] } } }
     Measuring t 11 false ∧ (t.dev.timU 11).start = some 100 ∧ (t.dev.timU 11).stops.length = 0 ∧ (t.dev.timU 11).field 3 23 0 = 5 ∧
     Skew t 3 = 0 ∧ Skew t 2 = 0 ∧ (t.dev.timU 11).field 0 11 8 = 2 ∧ (t.dev.timU 11).field 1 13 8 = 3 ∧ (t.dev.timU 11).field 1 5 0 = 2 ∧
     t.dev.srcEdge 3 ((t.dev.timU 11).field 0 5 5 == 1) = c) ∧
    (let limit := (100 : Int) + 16000 * 5
     ((80100 : BitVec 64).toNat : Int) ≤ limit ∧ limit < ((80101 : BitVec 64).toNat : Int) ∧ limit ≤ ((80100 : BitVec 64).toNat : Int) ∧
     ((99 : BitVec 64).toNat : Int) - 100 < 0 ∧ 0 ≤ ((100 : BitVec 64).toNat : Int) - 100) ∧
    (let s := timing 5 { cfg := [0x1120, 0x202, 1, 5, 0], start := some 100 }
     Measuring s 5 false ∧ (s.dev.timU 5).field 1 13 8 = (s.dev.timU 5).field 1 5 0 ∧ (s.dev.timU 5).field 0 4 4 ≠ (s.dev.timU 5).field 0 5 5 ∧
     (s.dev.timU 5).field 0 11 8 ≤ (s.dev.timU 5).stops.length + 1 ∧ s.dev.srcEdge 2 ((s.dev.timU 5).field 0 5 5 == 1) = true ∧
     (s.dev.timU 5).field 2 15 0 ≤ (s.dev.timU 5).n + 1) ∧
    (let s := timing 5 { cfg := [0x1130, 0x202, 2, 5, 0], start := some 100 }
     (s.dev.timU 5).field 1 13 8 = (s.dev.timU 5).field 1 5 0 ∧ (s.dev.timU 5).field 0 4 4 = (s.dev.timU 5).field 0 5 5 ∧
     (s.dev.timU 5).n + 1 < (s.dev.timU 5).field 2 15 0) := by
  unfold Measuring Skew; decide +kernel

theorem test_witness_gates :
    (let s := timing 11 { cfg := cfgF } [(Reg.TIM_UCFG_OWNER 11, 1)]
     Measuring s 11 true ∧ 5 ≤ 11 ∧ s.dev.rd (Reg.TIM_UCFG_OWNER 11) = 1 ∧ (1 : BitVec 32).toNat < 2 ∧ 2 ≤ (2 : BitVec 32).toNat ∧
     (100 : BitVec 64).toNat * (s.dev.timU 11).field 4 31 0 ≠ 0 ∧ (s.dev.timU 11).n + 1 < (s.dev.timU 11).field 2 15 0 ∧
     (0 : BitVec 64).toNat * (s.dev.timU 11).field 4 31 0 = 0 ∧
     ¬ (s.dev.timU 11).gateAt + 8 * (s.dev.timU 11).field 3 23 0 ≤ s.dev.tick + 1 + 8 * (s.dev.timU 11).field 3 23 0 / 1000 ∧
     (s.dev.timU 11).gateAt + 8 * (s.dev.timU 11).field 3 23 0 ≤ 7991 + 1 + 8 * (s.dev.timU 11).field 3 23 0 / 1000 ∧
     (16000000000 : BitVec 64).toNat ≤ 16000000 * (s.dev.timU 11).field 3 23 0 ∧
     ¬ (16000000001 : BitVec 64).toNat ≤ 16000000 * (s.dev.timU 11).field 3 23 0) ∧
    (let s := timing 6 { cfg := cfgF }
     Measuring s 6 true ∧ s.dev.rd (Reg.TIM_UCFG_OWNER 6) ≠ 1) ∧
    (let s := timing 4 { cfg := cfgF, n := 1, gateAt := 100, begun := 100, warm := true } [(Reg.REF_STATUS_STATE, 2), (Reg.REF_STATUS_SEL, 5)]
     let t := { s with dev := { s.dev with ref := { s.dev.ref with lockedAt := some 0 }, tick := 8100 } }
     Measuring t 4 true ∧ (t.dev.timU 4).gateAt + 8 * 1000 ≤ t.dev.tick + 1 + 8 * 1000 / 1000 ∧ (t.dev.timU 4).field 2 15 0 ≤ (t.dev.timU 4).n + 1 ∧
     ((t.dev.timU 4).bcold || ((t.dev.timU 4).cold && (!(t.dev.timU 4).warm || true))) = false ∧
     t.dev.rd Reg.REF_STATUS_STATE = 2 ∧ t.dev.rd Reg.REF_STATUS_SEL ≤ 5 ∧ t.dev.ref.lockedAt = some 0 ∧ 0 ≤ (t.dev.timU 4).begun) := by
  unfold Measuring; decide +kernel

theorem test_witness_timebase :
    (let s := timing 5 { cfg := cfgI, start := some 3 }
     (4 : Fin 12).val < 5 ∧ 5 ≤ (5 : Fin 12).val ∧ Ready s .pcie (Reg.TIM_UCMD_RESTART 5) false ∧ (s.dev.timU 5).cfg ≠ []) ∧
    (let s := regs [(Reg.TIM_STATUS_PLLLOCK, 1)]
     s.dev.rd Reg.TIM_STATUS_PLLLOCK = 1 ∧ s.dev.rd Reg.TIM_STATUS_CAL ≠ 1 ∧ Room s ∧ s.dev.tim.tableAt + 8 ≤ 7 + 1 ∧
     ¬ s.dev.tim.tableAt + 8 ≤ s.dev.tick + 1) ∧
    State.reset.dev.rd Reg.TIM_STATUS_PLLLOCK = 0 ∧
    (let s := regs [(Reg.TIM_STATUS_PLLSRC, 1)]
     s.dev.rd Reg.TIM_STATUS_PLLSRC = if s.dev.rd Reg.REF_STATUS_OSCIN_OK = 1 then 0 else 1) ∧
    (let s := regs [(Reg.TIM_STATUS_PLLSRC, 1), (Reg.REF_STATUS_OSCIN_OK, 1)]
     s.dev.rd Reg.TIM_STATUS_PLLSRC ≠ if s.dev.rd Reg.REF_STATUS_OSCIN_OK = 1 then 0 else 1) := by
  unfold Ready Room; decide +kernel

/-! ### Witnesses: hearth redundancy -/

/-- The two hearths as `x` and `y`, with A active. -/
def paired (x y : HrtH) (ws : List (Fld × Nat) := []) (f : Hrt → Hrt := id) : State :=
  regs ws fun d => { d with hrt := f { d.hrt with a := x, b := y } }

theorem test_witness_ember_copies :
    (State.reset.dev.hh 0).st = .off ∧
    (let s := paired { st := .active } { st := .syncing }
     let t := { s with dev := { s.dev with sch := { s.dev.sch with win := .close } } }
     t.dev.sch.win = .close ∧ (t.dev.sh 0).completed = false ∧ s.dev.sch.win ≠ .close ∧ (s.dev.hh 0).st = .active ∧ (s.dev.hh 0).trig = none ∧ (s.dev.sh 0).skip = false ∧ TakesCopies (s.dev.hh 1) ∧
     Sparse.wf (fun _ => (0 : Word)) (s.dev.hm 0).gw = true ∧ s.dev.mem.lines = []) ∧
    (let s := paired { st := .run } {}
     (s.dev.hh 0).st = .run ∧ ¬ TakesCopies (s.dev.hh 1)) ∧
    (let c : EmberCopy := { seq := 7, dest := 1, words := [(3, 9)] }
     let s := paired { st := .active } { st := .standby, last := some 6, buf0 := some 6, buf1 := some 5 } [] fun r => { r with copy := some c }
     s.dev.hrt.copy = some c ∧ c.dest < 2 ∧ (∀ q, (s.dev.hh 1).last = some q → q < c.seq) ∧ c.ue = false ∧ TakesCopies (s.dev.hh 1) ∧
     (s.dev.hh 1).buf1 ≠ (s.dev.hh 1).last ∧ Sparse.wf (fun _ => (0 : Word)) (s.dev.hm 1).gw = true ∧ Sparse.wf (fun _ => (0 : Word)) c.words = true ∧
     c.began + s.dev.embPages * 128 + 100 ≤ (s.dev.at (s.dev.embPages * 128 + 100)).timeNs ∧ s.dev.timeNs < c.began + s.dev.embPages * 128 + 100) ∧
    (∀ kept : Bool, let c : EmberCopy := { seq := 8, dest := 1, words := [], ue := true }
     let s := paired { st := .active } { st := .standby, last := some 6, buf0 := some 6, buf1 := some 5, kept := kept } [] fun r => { r with copy := some c }
     s.dev.hrt.copy = some c ∧ c.ue = true ∧ (s.dev.hh 1).buf0 = (s.dev.hh 1).last ∧ (s.dev.hh 1).kept = kept) := by
  unfold TakesCopies
  refine ⟨by decide +kernel, by decide +kernel, by decide +kernel, ⟨by decide +kernel, by decide, ?_, by decide +kernel⟩, by decide +kernel⟩
  intro q h
  have e : q = 6 := by injection h with h; exact h.symm
  subst e; decide

theorem test_witness_swaps :
    (let s := paired { st := .active } { st := .standby } [(Reg.HRT_PROOF_HRS, 1)]
     Ready s .pcie Reg.HRT_CMD_SWAP false ∧ ¬ (s.dev.rd Reg.HRT_CFG_MODE = 1 ∨ (s.dev.hh (1 - s.dev.hrt.active)).st ≠ .standby) ∧
     (s.dev.hh (1 - s.dev.hrt.active)).suspect = false ∧ s.dev.alarmActive = false ∧ s.dev.rd Reg.SCH_STATUS_HELD = 0 ∧
     s.dev.rd Reg.HRT_PROOF_HRS ≠ 0 ∧ s.dev.hrt.swapPend = false ∧ s.dev.hrt.lastSwap + 1 * 28800000 ≤ 28800000 ∧
     ¬ s.dev.hrt.lastSwap + s.dev.rd Reg.HRT_PROOF_HRS * 28800000 ≤ s.dev.tick) ∧
    (let s := paired { st := .active } { st := .standby, suspect := true } [(Reg.HRT_PROOF_HRS, 0)]
     Ready s .pcie Reg.HRT_CMD_SWAP false ∧ (s.dev.hh (1 - s.dev.hrt.active)).suspect = true ∧ s.dev.rd Reg.HRT_CFG_MODE ≠ 1 ∧
     (s.dev.hh (1 - s.dev.hrt.active)).st = .standby ∧ s.dev.rd Reg.HRT_PROOF_HRS = 0) := by
  unfold Ready; decide +kernel

theorem test_witness_restores :
    (∀ s ∈ [paired {} {}, paired { st := .failed } { st := .active }, paired { st := .failed } { st := .failed },
        paired { st := .failed } { st := .run } [(Reg.HRT_CFG_MODE, 1)]], Ready s .pcie Reg.HRT_CMD_RESTORE false) ∧
    ((paired {} {}).dev.hh 0).st ≠ .failed ∧ ((paired {} {}).dev.hh 1).st ≠ .failed ∧
    (let s := paired { st := .failed } { st := .active }
     (s.dev.hh 0).st = .failed ∧ (s.dev.hh 1).st ≠ .failed ∧ (s.dev.ch 0).failed = false ∧ s.dev.mem.resync = none ∧ s.dev.rd Reg.HRT_CFG_MODE ≠ 1) ∧
    (let s := paired { st := .failed } { st := .failed }
     (s.dev.hh 0).st = .failed ∧ (s.dev.hh 1).st = .failed ∧ s.dev.rd Reg.HRT_CFG_MODE ≠ 1) ∧
    (let s := paired {} { st := .standby, suspect := true, recopy := true, last := some 3 }
     Ready s .pcie Reg.HRT_CMD_CLRSUSPECT false ∧ (s.dev.hh 1).suspect = true ∧ (s.dev.hh 1).recopy = true ∧ TakesCopies (s.dev.hh 1) ∧
     Sparse.wf (fun _ => (0 : Word)) (s.dev.hm 0).gw = true ∧ Sparse.wf (fun _ => (0 : Word)) (s.dev.hm 1).gw = true ∧
     (s.dev.hh 0).recopy = false ∧ ∃ q, (s.dev.hh 1).last = some q ∧ s.dev.tick ≤ q + 2) := by
  unfold Ready TakesCopies
  refine ⟨by decide +kernel, by decide +kernel, by decide +kernel, by decide +kernel, by decide +kernel, ?_⟩
  exact ⟨by decide +kernel, by decide +kernel, by decide +kernel, by decide +kernel, by decide +kernel, by decide +kernel, by decide +kernel, 3,
    by decide +kernel⟩

/-! ### Witnesses: alarms -/

theorem test_witness_alarm_inputs :
    (let s := regs [(Reg.ALM_INCFG_EN, 8), (Reg.ALM_INCFG_LATCH, 8), (Reg.ALM_INCFG_POL, 8), (Reg.ALM_INCFG_DEBOUNCE, 5), (Reg.PWR_STATUS_STATE, 3)]
         fun d => { d with tick := 40, alm := { d.alm with pins := [(3, { level := false })] } }
     ((s.dev.alarmPin 3).level != (s.dev.rd Reg.ALM_INCFG_POL / 2 ^ 3 % 2 == 1)) = true ∧
     (s.dev.alarmPin 3).since + 1000000 * s.dev.rd Reg.ALM_INCFG_DEBOUNCE ≤ s.dev.timeNs ∧
     ¬ (s.dev.alarmPin 3).since + 1 + 1000000 * s.dev.rd Reg.ALM_INCFG_DEBOUNCE ≤ s.dev.timeNs ∧ (s.dev.alarmPin 3).level ≠ true ∧
     s.dev.rd Reg.ALM_INCFG_EN / 2 ^ 3 % 2 = 1 ∧ s.dev.rd Reg.ALM_INCFG_LATCH / 2 ^ 3 % 2 = 1 ∧ s.dev.rd Reg.ALM_INSTAT_ACTIVE / 2 ^ 3 % 2 ≠ 1 ∧
     3 ≤ s.dev.rd Reg.PWR_STATUS_STATE ∧ s.dev.pwr.exiting = none ∧ Room s) ∧
    (State.reset.dev.alarmPin 0).level = false ∧
    (let s := regs [(Reg.ALM_INSTAT_ACTIVE, 8), (Reg.ALM_INSTAT_LATCHED, 12)]
     Ready s .pcie Reg.ALM_CMD_ACK false ∧ s.dev.rd Reg.ALM_INSTAT_ACTIVE / 2 ^ 3 % 2 = 1 ∧ s.dev.rd Reg.ALM_INSTAT_ACTIVE / 2 ^ 2 % 2 = 0 ∧
     ¬ s.dev.rd Reg.ALM_INCFG_EN / 2 ^ 0 % 2 = 1) := by
  unfold Ready Room; decide +kernel

theorem test_witness_watchdog :
    (∀ w, w < 4 →
     let s := regs [(Reg.ALM_STATUS_WD, w), (Reg.DUMP_CFG_MASK, 0), (Reg.ALM_WDCFG_TIMEOUT, 10), (Reg.ALM_WDCFG_GRACE, 5)]
         fun (d : Dev) => { d with tick := 120, alm := { d.alm with kindled := true } }
     Ready s .pcie Reg.ALM_WDKICK_KICK false ∧ Ready s .pcie Reg.ALM_CMD_RELEASE false ∧ s.dev.rd Reg.ALM_STATUS_WD = w ∧
     s.dev.alm.kindled = true ∧ s.dev.alm.wdAt + 8 * s.dev.rd Reg.ALM_WDCFG_TIMEOUT ≤ s.dev.tick ∧
     s.dev.alm.wdAt + 8 * (s.dev.rd Reg.ALM_WDCFG_TIMEOUT + s.dev.rd Reg.ALM_WDCFG_GRACE) ≤ s.dev.tick ∧ NoDump s 7 ∧ Room s) ∧
    (State.reset.dev.rd Reg.ALM_STATUS_WD = 0 ∧ State.reset.dev.alm.kindled = false) ∧
    (let s := regs [(Reg.DUMP_CFG_MASK, 128)]
     ¬ NoDump s 7 ∧ s.dev.rd Reg.DUMP_STATUS_BUSY = 0) ∧
    (∀ st, st < 4 → let s := regs [(Reg.ALM_SPSTAT_STATE, st), (Reg.ALM_STATUS_WD, 1)]
     Ready s .pcie Reg.ALM_CMD_START false ∧ Ready s .pcie Reg.ALM_CMD_RELEASE false ∧ s.dev.rd Reg.ALM_SPSTAT_STATE = st ∧
     s.dev.rd Reg.ALM_STATUS_WD = 1) := by
  unfold Ready NoDump Room; decide +kernel

theorem test_witness_zones :
    (let s := regs [(Reg.ALM_ZCFG_EN 127, 1), (Reg.ALM_ZCFG_PILOT_EN 127, 1), (Reg.ALM_SCFG_PILOT_AFTER, 2)] fun d => { d with tick := 16000 }
     s.dev.rd (Reg.ALM_ZCFG_EN 127) = 1 ∧ s.dev.rd (Reg.ALM_ZCFG_PILOT_EN 127) = 1 ∧ s.dev.rd (Reg.ALM_ZSTAT_PILOT 127) ≠ 1 ∧
     (s.dev.zone 127).heard + 8000 * s.dev.rd Reg.ALM_SCFG_PILOT_AFTER ≤ s.dev.tick ∧
     ¬ (s.dev.zone 127).heard + 1 + 8000 * s.dev.rd Reg.ALM_SCFG_PILOT_AFTER ≤ s.dev.tick) ∧
    (∀ b : Bool,
     let s := regs [(Reg.ALM_ZCFG_EN 0, 1), (Reg.ALM_ZSTAT_PILOT 0, 1), (Reg.ALM_ZPLIM_PLO 0, 1)]
         fun (d : Dev) => { d with tick := 8000, alm := { d.alm with zones := [(0, { discard := b })] } }
     s.dev.rd (Reg.ALM_ZCFG_EN 0) = 1 ∧ s.dev.rd (Reg.ALM_ZSTAT_PILOT 0) = 1 ∧ (s.dev.zone 0).discard = b ∧
     (s.dev.zone 0).winAt + 8000 ≤ s.dev.tick ∧ ¬ (s.dev.zone 0).winAt + 1 + 8000 ≤ s.dev.tick ∧ Room s ∧
     s.dev.gainOf (s.dev.zone 0) < s.dev.rd (Reg.ALM_ZPLIM_PLO 0)) ∧
    (∀ st ∈ [1, 3], let s := regs [(Reg.ALM_ZCFG_EN 5, 1), (Reg.ALM_ZSTAT_STATE 5, st), (Reg.ALM_SCFG_VERIFY_MAX, 60)] fun d => { d with tick := 480000 }
     s.dev.rd (Reg.ALM_ZCFG_EN 5) = 1 ∧ s.dev.rd (Reg.ALM_ZSTAT_STATE 5) = st ∧
     (s.dev.zone 5).passAt + 8000 * s.dev.rd Reg.ALM_SCFG_VERIFY_MAX ≤ s.dev.tick ∧
     ¬ (s.dev.zone 5).passAt + 1 + 8000 * s.dev.rd Reg.ALM_SCFG_VERIFY_MAX ≤ s.dev.tick) ∧
    State.reset.dev.rd (Reg.ALM_ZCFG_EN 5) = 0 := by
  unfold Room; decide +kernel

/-! ### Witnesses: start-up, fuses, dumps -/

theorem test_witness_kindling :
    (State.reset.dev.boot.ran = false ∧ State.reset.dev.boot.noFlash = false ∧ State.reset.dev.boot.waiting = none) ∧
    FirmwareAuthentic State.reset { hash := Config.slot0Hash } ∧ ¬ FirmwareAuthentic State.reset { secver := 33 } ∧
    (let f : BootFind := { fwA := { formed := false }, fwB := { hash := Config.slot0Hash }, liveB := false }
     ¬ FirmwareAuthentic State.reset f.fwA ∧ FirmwareAuthentic State.reset f.fwB ∧ f.flash = true ∧ f.table = true ∧ f.prefer.val = 0) ∧
    (let s := on fun d => { d with boot := { d.boot with ran := true, noFlash := true } }
     s.dev.boot.ran = true ∧ s.dev.boot.noFlash = true) ∧
    (∀ fb, fb < 2 → let s := regs [(Reg.PWR_KSTAT_STEP, 3), (Reg.PWR_KSTAT_FALLBACK, fb)] fun d => { d with boot := { d.boot with waiting := some {} } }
     s.dev.boot.waiting = some {} ∧ s.dev.rd Reg.PWR_KSTAT_STEP = 3 ∧ s.dev.rd Reg.PWR_KSTAT_FALLBACK = fb) := by
  refine ⟨by decide +kernel, ⟨rfl, by decide, rfl, rfl, rfl, by decide⟩, fun h => absurd h.2.1 (by decide),
    ⟨fun h => absurd h.1 (by decide), ⟨rfl, by decide, rfl, rfl, rfl, by decide⟩, rfl, rfl, rfl⟩, by decide +kernel, by decide +kernel⟩

theorem test_witness_fuses :
    (∀ e ∈ [((0x600C : Nat), (0 : Nat)), (0x600C, 1), (0x4010, 0), (0x4010, 1), (0x5010, 0)], let w := e.1
      MayWrite State.reset .pcie w (1 <<< e.2) ∧ MayWrite (on fun d => d.wr Reg.HIF_OWN_OWNER 1) .spi w (1 <<< e.2) ∧
      State.reset.dev.slowWrites < 16 ∧
      (let s := on fun d => { d with fab := { d.fab with slowQ := List.replicate 16 (.write .pcie 0x4000 0 15) } }
       MayWrite s .pcie w (1 <<< e.2) ∧ s.dev.slowWrites = 16 ∧ s.dev.fab.slowQ = .write .pcie 0x4000 0 15 :: List.replicate 15 (.write .pcie 0x4000 0 15) ∧
       slowWord 0x4000 = true ∧ ∀ x ∈ rowsAt 0x4000, x.ty ≠ .cmd) ∧
      SlowHead (on fun d => { d with fab := { d.fab with slowQ := [.write .pcie w (1 <<< e.2) (1 <<< e.2)] } }) w e.2 []) ∧
    (let s := regs supWs fun d => { d with tick := 691200000, boot := { d.boot with dumpSectors := 2 } }
     s.dev.boot.dumpSectors ≠ 0 ∧ s.dev.supRuns = true ∧ s.dev.age.recAt + 691200000 ≤ s.dev.tick) ∧
    State.reset.dev.boot.dumpSectors = 0 := by
  refine ⟨?_, by decide +kernel⟩
  intro e he
  simp only [List.mem_cons, List.not_mem_nil, or_false] at he
  rcases he with rfl | rfl | rfl | rfl | rfl <;>
    exact ⟨by unfold MayWrite; decide +kernel, by unfold MayWrite; decide +kernel, by decide +kernel, by unfold MayWrite; decide +kernel, .pcie, rfl⟩

/-- A buffered capture, with records in sectors 1 and 2 and a partition of three. -/
def dumped : State :=
  let s := regs (supWs ++ [(Reg.DUMP_STATUS_BUSY, 1), (Reg.DUMP_CFG_AUTOSAVE, 1), (Reg.DUMP_NREC_CAP, 2)]) fun d => { d with dump := { d.dump with buf := some {} } }
  { s with nv := { s.nv with dump := [(1, { seq := 2 }), (2, { seq := 1 })] } }

theorem test_witness_dump_triggers :
    Ready State.reset .pcie Reg.DUMP_CMD_RELEASE false ∧
    (let s := regs [(Reg.DUMP_CFG_MASK, 0)]
     Ready s .pcie Reg.DUMP_CMD_TRIGGER false ∧ NoDump s 0) ∧
    (∀ b, b < 2 → let s := regs [(Reg.DUMP_CFG_MASK, 1), (Reg.DUMP_STATUS_BUSY, b)]
     Ready s .pcie Reg.DUMP_CMD_TRIGGER false ∧ ¬ NoDump s 0 ∧ s.dev.rd Reg.DUMP_STATUS_BUSY = b ∧ Room s) := by
  unfold Ready NoDump Room; decide +kernel

theorem test_witness_dump_records :
    (dumped.dev.dump.buf = some {} ∧ dumped.dev.supRuns = true ∧ dumped.dev.rd Reg.DUMP_STATUS_BUSY = 1 ∧ dumped.dev.rd Reg.DUMP_CFG_AUTOSAVE = 1 ∧
      0 < dumped.dev.rd Reg.DUMP_NREC_CAP ∧ Sparse.rising 0 dumped.nv.dump = true ∧ Room dumped ∧
      (∃ e ∈ dumped.nv.dump, (∀ x ∈ dumped.nv.dump, x ≠ e → x.2.seq < e.2.seq) ∧ 2 = e.1 % dumped.dev.rd Reg.DUMP_NREC_CAP + 1 ∧ 3 = e.2.seq + 1)) ∧
    (State.reset.nv.dump = [] ∧ State.reset.dev.dump.buf = none) ∧
    (let s := { dumped with dev := dumped.dev.wr Reg.DUMP_STATUS_BUSY 0 |>.wr Reg.DUMP_FETCH_REC 1 }
     Ready s .pcie Reg.DUMP_CMD_FETCH false ∧ s.dev.rd Reg.DUMP_STATUS_BUSY = 0 ∧ (2, ({ seq := 1 } : DumpRec)) ∈ s.nv.dump ∧
     (s.nv.dump.map fun x => x.2.seq).Nodup ∧ (s.nv.dump.filter fun x => decide (1 < x.2.seq)).length = s.dev.rd Reg.DUMP_FETCH_REC) ∧
    (let s := { dumped with dev := dumped.dev.wr Reg.DUMP_STATUS_BUSY 0 |>.wr Reg.DUMP_FETCH_REC 2 }
     Ready s .pcie Reg.DUMP_CMD_FETCH false ∧ s.nv.dump.length ≤ s.dev.rd Reg.DUMP_FETCH_REC) ∧
    (let s := { dumped with dev := { dumped.dev with fab := { dumped.dev.fab with scan := some {} } } }
     s.dev.fab.scan = some {} ∧ s.dev.dump.buf = some {}) ∧
    Ready dumped .pcie Reg.DUMP_CMD_FETCH false := by
  unfold Ready Room; decide +kernel

/-! ### Witnesses: hot plug, power, margin, ageing -/

theorem test_witness_cards :
    (∀ st, st < 4 → (regs [(Reg.HOT_STATUS_STATE, st)]).dev.rd Reg.HOT_STATUS_STATE = st) ∧ Room (regs [(Reg.HOT_STATUS_STATE, 1)]) ∧
    SafeAllowed State.reset ∧
    (let s := regs [(Reg.HOT_STATUS_STATE, 3)] fun d => { d with tick := 80 }
     s.dev.rd Reg.HOT_STATUS_STATE = 3 ∧ s.dev.pwr.unseatedAt + 10000000 ≤ s.dev.timeNs ∧ ¬ s.dev.pwr.unseatedAt + 1 + 10000000 ≤ s.dev.timeNs) ∧
    (∀ e, e < 2 → let s := regs [(Reg.HOT_STATUS_EJECT, e)] fun (d : Dev) => { d with tick := 80 }
     s.dev.pwr.ejectAt + 10000000 ≤ s.dev.timeNs ∧ (s.dev.rd Reg.HOT_STATUS_EJECT = 1 ↔ e = 1)) ∧
    (let s := regs [(Reg.HOT_STATUS_STATE, 1), (Reg.HOT_STATUS_EJECT, 1), (Reg.HOT_CFG_EJECT_DLY, 3000)] fun d => { d with tick := 79920 }
     s.dev.rd Reg.HOT_STATUS_STATE = 1 ∧ s.dev.pwr.ejectingAt + 1000000 * s.dev.rd Reg.HOT_CFG_EJECT_DLY ≤ s.dev.timeNs ∧ EjectorHeld s s.dev.timeNs ∧
     ¬ EjectorHeld s (s.dev.timeNs - 1)) ∧
    (let s := regs [(Reg.ALM_SPSTAT_STATE, 2), (Reg.HOT_CFG_SAFE_IN_ALARM, 0)]
         fun d => { d with fab := { d.fab with slowQ := [.write .pcie 0x600C 1 1] } }
     ¬ SafeAllowed s ∧ ¬ EjectorHeld s s.dev.timeNs ∧ s.dev.fab.slowQ = [.write .pcie 0x600C (1 <<< 0) (1 <<< 0)]) ∧
    (∀ e, e < 2 →
     let s := regs [(Reg.HOT_STATUS_EJECT, e), (Reg.HOT_STATUS_STATE, 2)]
         fun (d : Dev) => { d with fab := { d.fab with slowQ := [.write .pcie 0x600C 2 2] } }
     s.dev.fab.slowQ = [.write .pcie 0x600C (1 <<< 1) (1 <<< 1)] ∧ s.dev.rd Reg.HOT_STATUS_EJECT = e ∧ s.dev.rd Reg.HOT_STATUS_STATE = 2) := by
  unfold SafeAllowed EjectorHeld Room; decide +kernel

/-- State `st` with an exit in progress since the release for cause `c`. -/
def leaving (st c : Nat) (ws : List (Fld × Nat)) : State :=
  regs ((Reg.PWR_STATUS_STATE, st) :: ws) fun d => { d with tick := 16, pwr := { d.pwr with exiting := some (c, 0) } }

theorem test_witness_deep_states :
    State.reset.dev.pwr.exiting = none ∧
    (∀ st ∈ [1, 2, 3], let s := leaving st 8 [(Reg.PWR_CFG_MAXSTATE, 1), (Reg.PWR_LTR_US, 32)]
     s.dev.pwr.exiting = some (8, 0) ∧ s.dev.pwr.held = [] ∧ s.dev.rd Reg.PWR_STATUS_STATE = st ∧ Room s ∧ ¬ 2000001 ≤ (s.dev.at 0).timeNs) ∧
    (∀ st ∈ [1, 2], let s := leaving st 3 []
     0 + 1000 * [0, 32, 40, 2000].getD st 300000 ≤ (s.dev.at 0).timeNs) ∧
    Permitted (leaving 3 3 [(Reg.PWR_CFG_MAXSTATE, 1), (Reg.PWR_LTR_US, 32)]) 1 ∧
    Permitted (leaving 3 3 [(Reg.PWR_CFG_MAXSTATE, 4), (Reg.PWR_LTR_US, 2000), (Reg.HOT_STATUS_STATE, 0)]) 3 ∧
    Permitted (regs [(Reg.PWR_CFG_MAXSTATE, 4), (Reg.PWR_LTR_US, 40), (Reg.ALM_SPSTAT_STATE, 2)]) 2 ∧
    ¬ Permitted (leaving 3 3 [(Reg.PWR_CFG_MAXSTATE, 1), (Reg.PWR_LTR_US, 31)]) 1 ∧
    (regs [(Reg.PWR_CFG_MAXSTATE, 0)]).dev.powerTarget = 0 := by
  unfold Permitted Room; dsimp only
  refine ⟨?_, ?_, ?_, ?_, ?_, ?_, ?_, ?_⟩ <;> decide +kernel

theorem test_witness_rails :
    let s := regs [(Reg.PWR_CFG_AVS_EN, 1), (Reg.PWR_AVS_VREQ 2, 750)]
      fun d => { d with tick := 80, pwr := { d.pwr with rails := [(2, { reqAt := 9000000, readAt := some 0 })] } }
    s.dev.rd Reg.PWR_CFG_AVS_EN = 1 ∧ s.dev.rd (Reg.PWR_AVS_VREQ 2) + 15 < (766 : BitVec 10).toNat ∧
    ¬ s.dev.rd (Reg.PWR_AVS_VREQ 2) + 15 < (765 : BitVec 10).toNat ∧ ¬ (735 : BitVec 10).toNat + 15 < s.dev.rd (Reg.PWR_AVS_VREQ 2) ∧ Room s ∧
    (s.dev.rail 2).reqAt + 1000000 ≤ s.dev.timeNs ∧ ¬ (s.dev.rail 2).reqAt + 1000001 ≤ s.dev.timeNs ∧ (s.dev.rail 2).readAt = some 0 ∧
    ¬ s.dev.timeNs < 0 + 10000000 ∧ s.dev.timeNs < 1 + 10000000 := by
  unfold Room; decide +kernel

/-- Voltage and clock steps enabled, with CRIT, LOW and HIGH at 10, 20 and 60 and a voltage of 750 mV. -/
def margins (x : Domain) (req : Nat) (ws : List (Fld × Nat) := []) : State :=
  regs ([(Reg.AGE_CFG_ENABLE, 1), (Reg.AGE_CFG_MARGIN_EN, 1), (Reg.AGE_CFG_UPSTEP, 1), (Reg.AGE_MCFG_CRIT, 10), (Reg.AGE_MCFG_LOW, 20),
    (Reg.AGE_MCFG_HIGH, 60), (Reg.PWR_CFG_AVS_EN, 1), (Reg.PWR_AVS_VREQ 1, 750), (Reg.PWR_AVSCFG_VMAX, 755), (Reg.PWR_AVSCFG_VMIN, 745)] ++ ws)
    fun d => { d with age := { d.age with a := x }, sch := { d.sch with hA := { d.sch.hA with clkReq := req } } }

theorem test_witness_margins :
    (marginActs (margins {} 0) 0 9).down ∧ (marginActs (margins {} 2) 0 9).raise ∧ (marginActs (margins {} 0) 0 19).raise ∧
    (marginActs (margins { high := 9999 } 0) 0 61).lower ∧ ¬ (marginActs (margins { high := 9998 } 0) 0 61).lower ∧
    (marginActs (margins { high := 59999, block := 1 } 1) 0 61).up ∧
    (marginActs (margins { low := 99 } 0 [(Reg.PWR_AVSCFG_VMAX, 754)]) 0 19).down ∧
    ¬ (marginActs (margins { low := 98 } 0 [(Reg.PWR_AVSCFG_VMAX, 754)]) 0 19).down ∧
    ((margins {} 0).dev.rd Reg.AGE_CFG_ENABLE = 1 ∧ (margins {} 0).dev.age.evalAt + 8 ≤ 8 ∧
      ¬ (margins {} 0).dev.age.evalAt + 8 ≤ (margins {} 0).dev.tick) ∧ (margins {} 0).dev.rd Reg.AGE_CFG_MARGIN_EN = 1 ∧
    (regs [(Reg.AGE_CFG_MARGIN_EN, 0)]).dev.rd Reg.AGE_CFG_MARGIN_EN = 0 := by
  unfold marginActs; dsimp only; refine ⟨?_, ?_, ?_, ?_, ?_, ?_, ?_, ?_, ?_, ?_, ?_⟩ <;> decide +kernel

theorem test_witness_temperature :
    (let s := regs [(Reg.AGE_CFG_ENABLE, 1), (Reg.AGE_CFG_TALERT, 100)] fun d => { d with age := { d.age with alerts := [2], most := some 90 } }
     (0 : Fin 3).val ∉ s.dev.age.alerts ∧ (s.dev.rd Reg.AGE_CFG_TALERT : Int) ≤ (100 : BitVec 8).toInt ∧ s.dev.age.most = some 90 ∧
     (2 : Fin 3).val ∈ s.dev.age.alerts ∧ (95 : BitVec 8).toInt ≤ (s.dev.rd Reg.AGE_CFG_TALERT : Int) - 5 ∧
     ¬ (96 : BitVec 8).toInt ≤ (s.dev.rd Reg.AGE_CFG_TALERT : Int) - 5 ∧ Room s ∧ s.dev.rd Reg.AGE_CFG_ENABLE = 1 ∧
     s.dev.age.degAt + 28800000 ≤ 28800000 ∧ s.dev.age.corrAt + 8000 ≤ 8000 ∧ ¬ s.dev.age.degAt + 28800000 ≤ s.dev.tick ∧ ¬ s.dev.age.corrAt + 8000 ≤ s.dev.tick) ∧
    (let s := regs [(Reg.AGE_CFG_ENABLE, 1), (Reg.AGE_CFG_APPLY, 1), (Reg.AGE_STATUS_VALID, 1), (Reg.REF_STATUS_HISTVALID, 1)]
     s.dev.rd Reg.AGE_CFG_APPLY = 1 ∧ s.dev.rd Reg.AGE_STATUS_VALID = 1 ∧ s.dev.rd Reg.REF_STATUS_HISTVALID = 1) ∧
    State.reset.dev.rd Reg.AGE_STATUS_VALID = 0 ∧ (regs [(Reg.AGE_CFG_ENABLE, 0)]).dev.rd Reg.AGE_CFG_ENABLE = 0 := by
  unfold Room; decide +kernel

theorem test_witness_ageing_rate :
    (let s := regs [(Reg.AGE_CFG_ENABLE, 1), (Reg.AGE_CFG_DAYS, 7)] fun d => { d with age := { d.age with hist := { means := List.replicate 20 1, days := (List.range 6).map fun i => (i, 1), day := 6 } } }
     20 ≤ s.dev.age.hist.means.length ∧
     7 ≤ ((s.dev.age.hist.days ++ [(s.dev.age.hist.day, (1 : Rat))]).drop 0).length ∧ s.dev.rd Reg.AGE_CFG_DAYS = 7 ∧ Room s ∧
     s.dev.rd Reg.AGE_CFG_ENABLE = 1 ∧ s.dev.age.dayAt + 691200000 ≤ 691200000 ∧ ¬ s.dev.age.dayAt + 691200000 ≤ s.dev.tick) ∧
    State.reset.dev.age.hist.days = [] := by
  unfold Room; decide +kernel

/-! ### Witnesses: ownership, quad-SPI, mailbox -/

theorem test_witness_ownership :
    (let s := regs [(Reg.HIF_STATUS_CLAIM, 1), (Reg.HIF_OWNCFG_CLAIM_MS, 5)]
     s.dev.rd Reg.HIF_STATUS_CLAIM = 1 ∧ s.dev.rd Reg.HIF_OWN_OWNER = 0 ∧ s.dev.rd Reg.HIF_OWNCFG_CLAIM_MS ≠ 0 ∧ Room s ∧ s.dev.hif.claimAt + 1000000 * s.dev.rd Reg.HIF_OWNCFG_CLAIM_MS ≤ ({ s.dev with tick := 40 } : Dev).timeNs ∧
     ¬ s.dev.hif.claimAt + 1000000 * s.dev.rd Reg.HIF_OWNCFG_CLAIM_MS ≤ s.dev.timeNs ∧
     s.dev.violation .pcie 0x20 [.hrw] false = none ∧ s.dev.violation .pcie 0x24 [.cmd] false = none ∧ s.dev.owns .spi = false ∧
     ¬ (s.dev.locked .spi 0 = true ∧ s.dev.rd Reg.LOCK_POLICY_LOCK_CMD = 1)) ∧
    (∀ up, up < 2 → let s := regs [(Reg.HIF_STATUS_PCIE_UP, up)]
     s.dev.owns .spi = false ∧ s.dev.rd Reg.HIF_STATUS_CLAIM = 0 ∧ s.dev.rd Reg.HIF_OWN_OWNER = 0 ∧ s.dev.rd Reg.HIF_STATUS_PCIE_UP = up ∧
     s.dev.rd Reg.HIF_STATUS_PCIE_SPEED = (0 : BitVec 2).toNat ∧ s.dev.rd Reg.HIF_STATUS_PCIE_WIDTH ≠ (3 : BitVec 2).toNat ∧
     s.dev.owns .pcie = true) ∧
    (let s := regs [(Reg.HIF_OWN_OWNER, 1)]
     s.dev.owns .pcie = false ∧ s.dev.rd Reg.HIF_OWN_OWNER = 1 ∧ ¬ (s.dev.locked .pcie 0 = true ∧ s.dev.rd Reg.LOCK_POLICY_LOCK_CMD = 1)) := by
  unfold Room; decide +kernel

theorem test_witness_spi :
    (let s := on fun d => { d.wr Reg.HIF_OWN_OWNER 1 with fab := { d.fab with slowQ := List.replicate 32 (.write .spi 0x4000 0 15) } }
     slowWord 0x4000 = true ∧ 32 ≤ (s.dev.fab.slowQ.filter SlowOp.isWrite).length ∧ s.dev.rd Reg.HIF_OWN_OWNER = 1 ∧
     Sparse.wf (fun _ => (0 : Word)) s.dev.eng.store = true) ∧
    (0x1001 : Addr).val % 4 ≠ 0 ∧ slowWord 0x7000 = false ∧ (State.reset.dev.fab.slowQ.filter SlowOp.isWrite).length < 32 ∧
    State.reset.dev.rd Reg.HIF_CFG_DUMMY < 24 ∧ (0x300000 - 4 : Nat) + 4 * 1 ≤ 0x300000 := by decide +kernel

/-- The supervisor runs and no mailbox command is in progress; MBDATA0 is `a` and the fuses and the flash are `v`. -/
def mailing (a : Nat) (v : NV := {}) (ws : List (Fld × Nat) := []) (f : Dev → Dev := id) : State :=
  { regs ([(Reg.PWR_KSTAT_STEP, 11), (Reg.HIF_MBDATA_DATA 0, a)] ++ ws) f with nv := v }

theorem test_witness_keys :
    MailboxOpen (mailing 3) .pcie ∧ (mailing 3).dev.rd (Reg.HIF_MBDATA_DATA 0) = 3 ∧
    (let s := mailing 1 { key1 := { hash := some [] }, key2 := { hash := some [], revoked := true } }
     MailboxOpen s .pcie ∧ s.dev.rd (Reg.HIF_MBDATA_DATA 0) = 1 ∧ s.nv.key1.hash ≠ none ∧ s.nv.key2.revoked = true) ∧
    (let s := mailing 2 { key1 := { hash := some [] } }
     MailboxOpen s .pcie ∧ s.dev.rd (Reg.HIF_MBDATA_DATA 0) = 2 ∧ s.nv.key2.hash = none ∧ s.nv.key1.hash ≠ none ∧ s.nv.key1.revoked = false) := by
  unfold MailboxOpen Ready; decide +kernel

/-- A flash of four sectors, of which the third is the ash dump partition. -/
def flashed (a : Nat) (ws : List (Fld × Nat)) : State := mailing a {} ws fun d =>
  { d with boot := { d.boot with flashBytes := 262144, dumpBase := 131072, dumpSectors := 1 } }

theorem test_witness_flash :
    (∀ s ∈ [flashed 196608 [], flashed 65537 [], flashed 262144 [], flashed 131072 [], flashed 0 [(Reg.ALM_SPSTAT_STATE, 2)]],
      MailboxOpen s .pcie ∧ Sparse.wf (fun _ => (0xFF : Byte)) s.dev.hif.stage = true ∧ s.dev.hif.stage = [] ∧ s.nv.torn = []) ∧
    MemoryWf (flashed 196608 []) ∧
    (let s := flashed 196608 []
     ¬ (196608 % 65536 ≠ 0 ∨ s.dev.boot.flashBytes < 196608 + 65536) ∧ ¬ (s.dev.boot.dumpBase ≤ 196608 ∧ 196608 < s.dev.boot.dumpBase + 65536 * 1) ∧
     s.dev.alarmActive = false ∧ s.dev.rd Reg.ALM_SPSTAT_STATE ≠ 2) ∧
    65537 % 65536 ≠ 0 ∧ (flashed 262144 []).dev.boot.flashBytes < 262144 + 65536 ∧
    ((flashed 131072 []).dev.boot.dumpBase ≤ 131072 ∧ 131072 < (flashed 131072 []).dev.boot.dumpBase + 65536 * (flashed 131072 []).dev.boot.dumpSectors) ∧
    (flashed 0 [(Reg.ALM_SPSTAT_STATE, 2)]).dev.rd Reg.ALM_SPSTAT_STATE = 2 ∧
    (let s := flashed 0 []
     let t := { s with nv := { s.nv with torn := [(0, 7)] } }
     (0 / 65536, 7) ∈ t.nv.torn ∧ ¬ (0 % 65536 ≠ 0 ∨ t.dev.boot.flashBytes < 0 + 65536) ∧
     ¬ (t.dev.boot.dumpBase ≤ 0 ∧ 0 < t.dev.boot.dumpBase + 65536 * t.dev.boot.dumpSectors)) ∧
    (let s := flashed 0 []
     let t := { s with nv := { s.nv with flash := [(5, 0x0F)] }, dev := { s.dev with hif := { s.dev.hif with stage := [(5, 0x1F)] } } }
     (∀ e ∈ t.dev.hif.stage, e.1 < 65536) ∧ (0 ≤ 5 ∧ 5 < 0 + 65536) ∧
     Sparse.get 0xFF t.dev.hif.stage (5 - 0) &&& ~~~(Sparse.get 0xFF t.nv.flash 5) ≠ 0) := by
  refine ⟨by unfold MailboxOpen Ready; decide +kernel, ⟨rfl, ?_, fun c h => by cases h⟩, by decide +kernel, by decide, by decide +kernel,
    by decide +kernel, by decide +kernel, by decide +kernel, by decide +kernel⟩
  intro i hi
  rcases (by omega : i = 0 ∨ i = 1) with rfl | rfl <;> exact ⟨rfl, rfl, rfl⟩

theorem test_witness_mailbox_reports :
    (let s := mailing 0 {} [] fun d => { d with sap := [{ port := 1, v6 := true, src := [], hash := 0, heard := 0, text := [118, 61, 48] }] }
     MailboxOpen s .pcie ∧ ∃ x, s.dev.sap[0]? = some x ∧ x.text.length < 65536 ∧ (∀ b ∈ x.text, b < 256) ∧ x.port < 2) ∧
    (State.reset.dev.hif.mb = none ∧ State.reset.dev.hif.mbWait = false) ∧
    (let s := regs supWs fun d => { d with hif := { d.hif with mbWait := true } }
     s.dev.hif.mb = none ∧ s.dev.hif.mbWait = true ∧ s.dev.supRuns = true ∧ s.dev.fab.queued.contains Reg.HIF_MBCMD_GO.key = false) ∧
    (let m : Mailbox := { op := 3, reason := 0, results := [(0, 4)] }
     let s := on fun d => { d with hif := { d.hif with mb := some m } }
     s.dev.hif.mb = some m ∧ m.reason < 256 ∧ m.op < 256 ∧ (∀ r ∈ m.results, r.1 < 16) ∧ (m.results.map (·.1)).Nodup ∧
     s.dev.fab.queued.contains Reg.HIF_MBCMD_GO.key = false ∧ Room s) := by
  unfold MailboxOpen Ready Room; exact ⟨⟨by decide +kernel, _, rfl, by decide, by decide, by decide⟩, by decide +kernel⟩
end Sys2Proof.Tests
end

section
/-! The register fabric seen from outside: what a host access, a field write and the end of a command leave alone. -/
namespace Sys2Proof.Machine
open Sys2Proof.Claims

/-! ### The body of the device: what no register access touches -/

/-- The device without its registers, its fabric, its events, its interrupt outputs and its power events. -/
def Dev.body (d : Dev) : Dev := { d.rest with fab := {}, pwr := {} }

@[simp] theorem Dev.wr_body (d : Dev) (f : Fld) (v : Nat) : (d.wr f v).body = d.body := rfl
@[simp] theorem Dev.setWord_body (d : Dev) (a : Nat) (w : Word) : (d.setWord a w).body = d.body := rfl
@[simp] theorem Dev.settle_body (d : Dev) : d.settle.body = d.body := rfl

@[simp] theorem Dev.touch_body (d : Dev) (h : Agent) (w : Bool) (b : Nat) : (d.touch h w b).body = d.body := by
  rw [Dev.touch_eq]; rfl

@[simp] theorem Dev.touch_fab (d : Dev) (h : Agent) (w : Bool) (b : Nat) : (d.touch h w b).fab = d.fab := by
  rw [Dev.touch_eq]
@[simp] theorem Dev.touch_evq (d : Dev) (h : Agent) (w : Bool) (b : Nat) : (d.touch h w b).evq = d.evq := by
  rw [Dev.touch_eq]
@[simp] theorem Dev.touch_shadow (d : Dev) (h : Agent) (w : Bool) (b : Nat) : (d.touch h w b).shadow = d.shadow := by
  rw [Dev.touch_eq]
@[simp] theorem Dev.touch_tick (d : Dev) (h : Agent) (w : Bool) (b : Nat) : (d.touch h w b).tick = d.tick := by
  rw [Dev.touch_eq]
@[simp] theorem Dev.touch_word (d : Dev) (h : Agent) (w : Bool) (b a : Nat) : (d.touch h w b).word a = d.word a := by
  rw [Dev.touch_eq]; rfl

@[simp] theorem Dev.touch_owns (d : Dev) (h g : Agent) (w : Bool) (b : Nat) : (d.touch h w b).owns g = d.owns g := by
  cases g <;> simp [Dev.owns]
@[simp] theorem Dev.touch_locked (d : Dev) (h g : Agent) (w : Bool) (b c : Nat) :
    (d.touch h w b).locked g c = d.locked g c := by
  simp [Dev.locked]

/-- Devices with the same body differ in what `Around` lists and in the fabric alone. -/
theorem Dev.eq_around {d d' : Dev} (h : d'.body = d.body) : d' = { Around d d' with fab := d'.fab } := by
  have hd : d' = { d'.body with live := d'.live, evq := d'.evq, intr := d'.intr, pwr := d'.pwr, fab := d'.fab } := rfl
  rw [h] at hd
  exact hd

/-- A fabric that is known completes the frame. -/
theorem Dev.eq_around_fab {d d' : Dev} {x : Fabric} (h : d'.body = d.body) (hx : d'.fab = x) :
    d' = { Around d d' with fab := x } := hx ▸ Dev.eq_around h

theorem Dev.eq_around_same {d d' : Dev} (h : d'.body = d.body) (hx : d'.fab = d.fab) : d' = Around d d' :=
  Dev.eq_around_fab h hx

/-! ### The forms of the commands -/

/-- A meaning over the device completes, and keeps fuses, flash and queue. -/
theorem runs_of_onDev {c : Instr} {s : State} {f : Dev → Dev} (h : exec c s = onDev f s) :
    Runs c s { s with dev := (f s.dev).settle } := ⟨h, rfl, rfl⟩

/-- A change that makes a running scan dirty (R55) touches nothing but the scan. -/
theorem Dev.dirty_eq (d : Dev) : d.dirty = { d with fab := { d.fab with scan := d.dirty.fab.scan } } := by
  unfold Dev.dirty
  split <;> rfl

@[simp] theorem Dev.dirty_body (d : Dev) : d.dirty.body = d.body := by rw [Dev.dirty_eq]; rfl
@[simp] theorem Dev.dirty_word (d : Dev) (a : Nat) : d.dirty.word a = d.word a := by rw [Dev.dirty_eq]; rfl

/-! ### Fields that stay -/

/-- A field that takes the whole word replaces it. -/
theorem Fld.set_whole {f : Fld} (hlo : f.lo = 0) (hhi : f.hi = 31) (w v : Word) : f.set w v.toNat = v := by
  apply BitVec.eq_of_getLsbD_eq
  intro j hj
  rw [Fld.set_getLsbD, Fld.width, hlo, hhi, if_pos (by omega), Nat.sub_zero, BitVec.testBit_toNat]
  simp [hj]

/-- A write of a field leaves every field of 32-bit words that shares no bit with it, one without bits included. -/
theorem Dev.rd_wr_disjoint (d : Dev) (f g : Fld) (v : Nat) (hf : f.ok = true) (hg : g.hi < 32)
    (h : f.addr ≠ g.addr ∨ f.hi < g.lo ∨ g.hi < f.lo) : (d.wr f v).rd g = d.rd g := by
  by_cases hw : g.lo ≤ g.hi
  · refine Dev.rd_wr_apart d f g v hf (by simp [Fld.ok, hw, hg]) ?_
    simpa [Fld.apart, or_assoc] using h
  · have h0 : g.width = 0 := by simp only [Fld.width]; omega
    simp [Dev.rd, Fld.get, h0, Nat.mod_one]

/-- `d'` has the values of `d` in every field that shares no bit with the fields of `fs`. -/
def Dev.SameBut (fs : List Fld) (d d' : Dev) : Prop :=
  ∀ g : Fld, g.hi < 32 → (∀ f ∈ fs, f.addr ≠ g.addr ∨ f.hi < g.lo ∨ g.hi < f.lo) → d'.rd g = d.rd g

/-- What the statements say of two states is this of their devices. -/
theorem onlyFields_iff (fs : List Fld) (s t : State) : OnlyFields fs s t ↔ Dev.SameBut fs s.dev t.dev := Iff.rfl

theorem Dev.SameBut.of_live {fs : List Fld} {d d' : Dev} (h : d'.live = d.live) : Dev.SameBut fs d d' :=
  fun g _ _ => Dev.rd_congr d' d g h

theorem Dev.SameBut.trans {fs : List Fld} {d d' d'' : Dev} (h : Dev.SameBut fs d d') (h' : Dev.SameBut fs d' d'') :
    Dev.SameBut fs d d'' := fun g hg ha => (h' g hg ha).trans (h g hg ha)

theorem Dev.SameBut.wr {fs : List Fld} {d d' : Dev} (h : Dev.SameBut fs d d') (f : Fld) (v : Nat) (hm : f ∈ fs)
    (hf : f.ok = true) : Dev.SameBut fs d (d'.wr f v) :=
  fun g hg ha => (Dev.rd_wr_disjoint d' f g v hf hg (ha f hm)).trans (h g hg ha)

theorem Dev.SameBut.mono {fs gs : List Fld} {d d' : Dev} (h : Dev.SameBut fs d d') (hs : ∀ f ∈ fs, f ∈ gs) :
    Dev.SameBut gs d d' := fun g hg ha => h g hg fun f hf => ha f (hs f hf)

theorem Dev.SameBut.settle {fs : List Fld} {d d' : Dev} (h : Dev.SameBut fs d d') : Dev.SameBut fs d d'.settle := h

end Sys2Proof.Machine
end

section
/-! Commit groups: the strobe and the group map (R36, R37, R41). -/
namespace Sys2Proof.Machine
open Sys2Proof.Claims

/-- The staging copy of group `g` that a strobe takes, first requested by the strobe `first` (R36). -/
def Dev.copyOfGroup (d : Dev) (g first : Nat) : Staged :=
  { blocks := d.blocksOf g, words := d.shadow.filter fun e => (d.blocksOf g).contains (blockOf e.1), batch := first }

/-- What a strobe of the groups of `mask` does to group `g` of the staging copies `l`. -/
def Dev.restage (d : Dev) (mask : Nat) (l : List (Nat × Staged)) (g : Nat) : List (Nat × Staged) :=
  if mask / 2 ^ g % 2 = 0 then l else
  l.filter (fun e => e.1 != g) ++
    [(g, d.copyOfGroup g ((l.find? fun e => e.1 == g).elim d.fab.nextBatch fun e => e.2.batch))]

theorem Dev.strobe_eq (d : Dev) (mask : Nat) : d.strobe mask = { d with fab := { d.fab with
    staged := (List.range 16).foldl (d.restage mask) d.fab.staged, nextBatch := d.fab.nextBatch + 1 } } := rfl

/-- The staging copy of group `g` after the strobe, from the one before. -/
def Dev.restaged (d : Dev) (mask g : Nat) (old : Option (Nat × Staged)) : Option (Nat × Staged) :=
  if mask / 2 ^ g % 2 = 0 then old
  else some (g, d.copyOfGroup g ((old.map fun e => e.2.batch).getD d.fab.nextBatch))

theorem Dev.restage_find_self (d : Dev) (mask : Nat) (l : List (Nat × Staged)) (g : Nat) :
    (d.restage mask l g).find? (fun e => e.1 == g) = d.restaged mask g (l.find? fun e => e.1 == g) := by
  unfold Dev.restage Dev.restaged
  split
  · rfl
  · have hnone : (l.filter fun e => e.1 != g).find? (fun e => e.1 == g) = none := by simp
    rw [List.find?_append, hnone]
    cases l.find? fun e => e.1 == g <;> simp

theorem Dev.restage_find_other (d : Dev) (mask : Nat) (l : List (Nat × Staged)) (g k : Nat) (h : g ≠ k) :
    (d.restage mask l g).find? (fun e => e.1 == k) = l.find? fun e => e.1 == k := by
  unfold Dev.restage
  split
  · rfl
  · have hkeep : (fun e : Nat × Staged => decide ((e.1 != g) = true ∧ (e.1 == k) = true)) = fun e => e.1 == k := by
      funext e
      by_cases he : e.1 = k <;> simp [he, Ne.symm h]
    have hnew : ∀ st : Staged, [(g, st)].find? (fun e => e.1 == k) = none := fun st => by simp [h]
    rw [List.find?_append, List.find?_filter, hnew, Option.or_none, hkeep]

/-- Each group is staged by its own step of the strobe. -/
theorem Dev.foldl_restage_find (d : Dev) (mask k : Nat) (gs : List Nat) (hn : gs.Nodup) (l : List (Nat × Staged)) :
    (gs.foldl (d.restage mask) l).find? (fun e => e.1 == k) =
      if k ∈ gs then d.restaged mask k (l.find? fun e => e.1 == k) else l.find? fun e => e.1 == k := by
  induction gs generalizing l with
  | nil => simp
  | cons g gs ih =>
    obtain ⟨hg, hn⟩ := List.nodup_cons.mp hn
    rw [List.foldl_cons, ih hn]
    by_cases hk : g = k
    · subst hk
      simp [hg, Dev.restage_find_self]
    · simp [Dev.restage_find_other d mask l g k hk, Ne.symm hk]

/-- The strobe stages the groups of its mask and leaves the others (R36, R37). -/
theorem Dev.strobe_find (d : Dev) (mask g : Nat) (hg : g < 16) :
    (d.strobe mask).fab.staged.find? (fun e => e.1 == g) =
      d.restaged mask g (d.fab.staged.find? fun e => e.1 == g) := by
  rw [Dev.strobe_eq]
  dsimp only
  rw [Dev.foldl_restage_find d mask g _ List.nodup_range, if_pos (List.mem_range.mpr hg)]

/-- A store cut down to the keys that satisfy `q` reads at those keys as before. -/
theorem Sparse.get_filter_key {α : Type} (x : α) (l : Sparse α) (q : Nat → Bool) (k : Nat) (hk : q k = true) :
    Sparse.get x (l.filter fun e => q e.1) k = Sparse.get x l k := by
  induction l with
  | nil => rfl
  | cons e t ih =>
    obtain ⟨a, v⟩ := e
    by_cases ha : q a = true
    · simp [ha, Sparse.get, ih]
    · have hne : a ≠ k := fun h => ha (h ▸ hk)
      simp [ha, Sparse.get, ih, hne]

/-- The staging copy holds the shadow words of its blocks (R36). -/
theorem Dev.copyOfGroup_word (d : Dev) (g first a : Nat) (h : blockOf a ∈ (d.copyOfGroup g first).blocks) :
    stagedWord (d.copyOfGroup g first).words a = d.shadowWord a :=
  Sparse.get_filter_key _ d.shadow (fun b => (d.blocksOf g).contains (blockOf b)) a (List.contains_iff_mem.mpr h)

theorem Dev.dropMoved_eq (d : Dev) :
    d.dropMoved = { d with fab := { d.fab with staged := d.dropMoved.fab.staged } } := rfl

@[simp] theorem Dev.dropMoved_word (d : Dev) (a : Nat) : d.dropMoved.word a = d.word a := rfl
@[simp] theorem Dev.dropMoved_body (d : Dev) : d.dropMoved.body = d.body := rfl

/-- After a write of the group map each staging copy holds blocks of its own group alone (R41). -/
theorem Dev.dropMoved_blocks (d : Dev) : ∀ e ∈ d.dropMoved.fab.staged, ∀ b ∈ e.2.blocks, d.groupOf b = e.1 := by
  intro e he b hb
  obtain ⟨e', -, rfl⟩ := List.mem_map.mp he
  simpa using (List.mem_filter.mp hb).2

theorem Dev.blocksOf_congr {d d' : Dev} (h : ∀ a, d'.word a = d.word a) (g : Nat) : d'.blocksOf g = d.blocksOf g := by
  simp only [Dev.blocksOf, Dev.groupOf, h]

theorem Dev.copyOfGroup_congr {d d' : Dev} (hw : ∀ a, d'.word a = d.word a) (hs : d'.shadow = d.shadow) (g first : Nat) :
    d'.copyOfGroup g first = d.copyOfGroup g first := by
  simp only [Dev.copyOfGroup, Dev.blocksOf_congr hw, hs]

/-- What a strobe that takes effect leaves (R36, R37). -/
theorem strobe_stages (s : State) (h : Agent) (groups : BitVec 16) (hr : Ready s h Reg.CMT_STROBE_STROBE false) :
    ∃ t, Runs (.commitStrobe h groups) s t ∧ t.dev.live = s.dev.live ∧ t.dev.shadow = s.dev.shadow ∧
      t.dev = { Around s.dev t.dev with
        fab := { s.dev.fab with staged := t.dev.fab.staged, nextBatch := s.dev.fab.nextBatch + 1 } } ∧
      ∀ g, g < 16 → t.dev.fab.staged.find? (fun e => e.1 == g) =
        s.dev.restaged groups.toNat g (s.dev.fab.staged.find? fun e => e.1 == g) := by
  have hrun := runs_of_onDev (c := .commitStrobe h groups) (s := s)
    (f := fun d => d.hostCmd h Reg.CMT_STROBE_STROBE [] fun d => d.strobe groups.toNat) rfl
  rw [Dev.hostCmd_open _ _ _ _ hr.1 hr.2] at hrun
  refine ⟨_, hrun, Dev.touch_live .., Dev.touch_shadow .., Dev.eq_around_fab (Dev.touch_body ..) ?_, fun g hg => ?_⟩
  · rw [Dev.settle_fab, Dev.strobe_eq, Dev.touch_fab]
  · rw [Dev.settle_fab, Dev.strobe_find _ _ _ hg]
    have hcopy := Dev.copyOfGroup_congr (Dev.touch_word s.dev h true (blockOf Reg.CMT_STROBE_STROBE.addr)) (Dev.touch_shadow ..)
    simp only [Dev.restaged, Dev.touch_fab, hcopy]

/-- What a write of the group map changes, and what it leaves (R41). -/
theorem groupMapWrite_regroups (s : State) (h : Agent) (ix : Fin 3) (data w : Word) (ho : s.dev.owns h = true)
    (hl : s.dev.locked h 22 = false) (hw : w = if ix.val = 2 then data &&& 0xFFFFFF else data) :
    ∃ t, Runs (.groupMapWrite h ix data) s t ∧ SameWords [0x1010 + 4 * ix.val] s t ∧
      t.dev.word (0x1010 + 4 * ix.val) = w ∧
      (s.dev.word (0x1010 + 4 * ix.val) ≠ w → ∀ e ∈ t.dev.fab.staged, ∀ b ∈ e.2.blocks, t.dev.groupOf b = e.1) ∧
      t.dev = { Around s.dev t.dev with fab := { s.dev.fab with staged := t.dev.fab.staged, scan := t.dev.fab.scan } } := by
  refine ⟨_, runs_of_onDev (show execGroupMapWrite h ix data s = onDev _ s from rfl), ?_⟩
  simp only [Dev.touch_owns, Dev.touch_locked, ho, hl, ← hw, Bool.not_true, Bool.false_eq_true, if_false]
  by_cases he : (s.dev.touch h true 22).word (0x1010 + 4 * ix.val) = w
  · rw [if_pos he]
    rw [Dev.touch_word] at he
    refine ⟨fun a _ => Dev.touch_word .., by rw [Dev.settle_word, Dev.touch_word, he], fun hne => absurd he hne,
      Dev.eq_around_fab (Dev.touch_body ..) ?_⟩
    rw [Dev.settle_fab, Dev.touch_fab]
  · rw [if_neg he]
    refine ⟨fun a ha => ?_, ?_, fun _ e hm b hb => ?_, Dev.eq_around_fab ?_ ?_⟩
    · rw [Dev.settle_word, Dev.dropMoved_word, Dev.dirty_word, Dev.word_setWord_ne _ _ _ _ (Ne.symm (by simpa using ha)),
        Dev.touch_word]
    · rw [Dev.settle_word, Dev.dropMoved_word, Dev.dirty_word, Dev.word_setWord_eq]
    · rw [← Dev.dropMoved_blocks _ e hm b hb]
      rfl
    · rw [Dev.settle_body, Dev.dropMoved_body, Dev.dirty_body, Dev.setWord_body, Dev.touch_body]
    · rw [Dev.settle_fab, Dev.dropMoved_eq, Dev.dirty_eq, Dev.setWord_fab, Dev.touch_fab]

/-- Settles O30: each group of the strobe is staged by its own step, and a write of the group map drops the blocks that moved. -/
theorem strobesStageTheirGroups : Obligations.StrobesStageTheirGroups := by
  refine ⟨fun s h groups hr => ?_, fun s h ix data ho hl => groupMapWrite_regroups s h ix data _ ho hl rfl⟩
  obtain ⟨t, hrun, hlive, hshadow, hframe, hfind⟩ := strobe_stages s h groups hr
  have hbit : ∀ g, groups.getLsbD g = decide (groups.toNat / 2 ^ g % 2 = 1) := fun g => by
    rw [BitVec.getLsbD, Nat.testBit_eq_decide_div_mod_eq]
  refine ⟨t, hrun, hlive, hshadow, hframe, fun g hg hon => ?_, fun g hg hoff => ?_⟩
  · have hm : ¬ groups.toNat / 2 ^ g % 2 = 0 := by
      have := hbit g ▸ hon
      simp only [decide_eq_true_eq] at this
      omega
    refine ⟨_, (hfind g hg).trans (if_neg hm), rfl, fun a ha => Dev.copyOfGroup_word _ _ _ _ ha, rfl⟩
  · have hm : groups.toNat / 2 ^ g % 2 = 0 := by
      have := hbit g ▸ hoff
      simp only [decide_eq_false_iff_not] at this
      omega
    exact (hfind g hg).trans (if_pos hm)

end Sys2Proof.Machine
end

section
/-! The configuration CRC, the counter snapshot and the flush of the event FIFO (R53 to R57, R64, R74). -/
namespace Sys2Proof.Machine
open Sys2Proof.Claims

/-! ### The result of a scan is a 32-bit number (R53) -/

theorem crcByte_lt_word (c b : Nat) (hc : c < 2 ^ 32) (hb : b < 2 ^ 32) : crcByte c b < 2 ^ 32 := by
  refine List.foldlRecOn (motive := fun c => c < 2 ^ 32) _ _ (Nat.xor_lt_two_pow hc hb) fun c hc _ _ => ?_
  split
  · exact Nat.xor_lt_two_pow (by omega) (by decide)
  · omega

theorem crc32c_lt_word (bytes : List Nat) (h : ∀ b ∈ bytes, b < 2 ^ 32) : crc32c bytes < 2 ^ 32 :=
  Nat.xor_lt_two_pow (List.foldlRecOn (motive := fun c => c < 2 ^ 32) _ _ (by decide)
    fun c hc b hb => crcByte_lt_word c b hc (h b hb)) (by decide)

theorem Dev.scanResult_lt (d : Dev) : d.scanResult < 2 ^ 32 := by
  refine crc32c_lt_word _ fun b hb => ?_
  obtain ⟨a, -, ha⟩ := List.mem_flatMap.mp hb
  simp only [leBytes, List.mem_cons, List.not_mem_nil, or_false] at ha
  omega

/-! ### The end of a clean scan (R55 to R57) -/

/-- A clean scan that serves a capture, with no further capture queued. -/
theorem Dev.scanClean_captures (d : Dev) (r : Nat) (hg : d.rd Reg.CMT_CRC_CAPTURE_GO = 1) (hq : d.fab.queued = []) :
    d.scanClean r true = ((d.wr Reg.CMT_CRC_LAST_LAST r).wr Reg.CMT_CRC_REF_REF r).wr Reg.CMT_CRC_CAPTURE_GO 0 := by
  have hg' : (d.wr Reg.CMT_CRC_LAST_LAST r).on Reg.CMT_CRC_CAPTURE_GO = true := by
    rw [Dev.on, Dev.rd_wr_apart _ _ _ _ (by decide) (by decide) (by decide), hg]
    rfl
  simp [Dev.scanClean, Dev.cmdNext, hg', hq]

/-- The comparison at the end of a clean scan uses ENABLE and REF as the scan found them. -/
theorem Dev.scanClean_compares (d : Dev) (r : Nat) : d.scanClean r false =
    if d.rd Reg.CMT_CRC_CFG_ENABLE = 1 ∧ r ≠ d.rd Reg.CMT_CRC_REF_REF then
      (((d.wr Reg.CMT_CRC_LAST_LAST r).wr Reg.CMT_CRC_MISS_COUNT ((d.rd Reg.CMT_CRC_MISS_COUNT + 1) % 2 ^ 32)).flag
        Reg.CMT_STATUS_CRC_MISMATCH).post 22 2 r
    else d.wr Reg.CMT_CRC_LAST_LAST r := by
  have hrd : ∀ f : Fld, f.ok = true → Reg.CMT_CRC_LAST_LAST.apart f = true →
      (d.wr Reg.CMT_CRC_LAST_LAST r).rd f = d.rd f := fun f hf ha => Dev.rd_wr_apart _ _ _ _ (by decide) hf ha
  simp [Dev.scanClean, Dev.on, hrd Reg.CMT_CRC_CFG_ENABLE rfl rfl, hrd Reg.CMT_CRC_REF_REF rfl rfl,
    hrd Reg.CMT_CRC_MISS_COUNT rfl rfl]

theorem Dev.SameBut.cmdNext {fs : List Fld} {d d' : Dev} (h : Dev.SameBut fs d d') (f : Fld) (hm : f ∈ fs)
    (hf : f.ok = true) : Dev.SameBut fs d (d'.cmdNext f id) := by
  unfold Dev.cmdNext
  split
  · exact h.trans (.of_live rfl)
  · exact h.wr f 0 hm hf

/-- What the end of a clean scan may change beside CMT_CRC_LAST. -/
theorem Dev.scanClean_same (d : Dev) (r : Nat) (c : Bool) :
    Dev.SameBut [Reg.CMT_CRC_REF_REF, Reg.CMT_CRC_CAPTURE_GO, Reg.CMT_CRC_MISS_COUNT, Reg.CMT_STATUS_CRC_MISMATCH]
      (d.wr Reg.CMT_CRC_LAST_LAST r) (d.scanClean r c) := by
  unfold Dev.scanClean
  dsimp only
  have hrefl := Dev.SameBut.of_live (fs := [Reg.CMT_CRC_REF_REF, Reg.CMT_CRC_CAPTURE_GO, Reg.CMT_CRC_MISS_COUNT,
    Reg.CMT_STATUS_CRC_MISMATCH]) (d := d.wr Reg.CMT_CRC_LAST_LAST r) rfl
  split
  · exact (hrefl.wr _ r (by decide) (by decide)).cmdNext _ (by decide) (by decide)
  · split
    · exact ((hrefl.wr _ _ (by decide) (by decide)).wr _ 1 (by decide) (by decide)).trans (.of_live rfl)
    · exact hrefl

/-- Every clean scan loads its result into CMT_CRC_LAST. -/
theorem Dev.scanClean_last (d : Dev) (r : Nat) (c : Bool) (hr : r < 2 ^ 32) :
    (d.scanClean r c).rd Reg.CMT_CRC_LAST_LAST = r := by
  rw [Dev.scanClean_same d r c _ (by decide) (by decide), Dev.rd_wr _ _ _ (by decide)]
  exact Nat.mod_eq_of_lt hr

/-- The end of the scan `x` in progress. -/
def Dev.scanEnd (d : Dev) (x : Scan) : Dev :=
  let d := { d with fab := { d.fab with scan := none } }
  if x.dirty then d.wr Reg.CMT_CRC_DIRTY_COUNT ((d.rd Reg.CMT_CRC_DIRTY_COUNT + 1) % 2 ^ 32)
  else d.scanClean d.scanResult x.capture

theorem crcScanDone_runs {s : State} {x : Scan} (hx : s.dev.fab.scan = some x) :
    Runs .crcScanDone s { s with dev := (s.dev.scanEnd x).settle } := by
  refine ⟨?_, rfl, rfl⟩
  show execCrcScanDone s = _
  unfold execCrcScanDone
  rw [onDev_next]
  simp only [hx]
  rfl

theorem Dev.scanClean_scan (d : Dev) (r : Nat) (c : Bool) : (d.scanClean r c).fab.scan = d.fab.scan := by
  unfold Dev.scanClean Dev.cmdNext
  dsimp only
  split
  · split <;> rfl
  · split <;> rfl

theorem Dev.scanEnd_scan (d : Dev) (x : Scan) : (d.scanEnd x).fab.scan = none := by
  unfold Dev.scanEnd
  dsimp only
  split
  · rfl
  · rw [Dev.scanClean_scan]

/-- A dirty scan is counted and has no other effect on the registers (R55). -/
theorem Dev.scanEnd_dirty {d : Dev} {x : Scan} (hx : x.dirty = true) :
    Dev.SameBut [Reg.CMT_CRC_DIRTY_COUNT] d (d.scanEnd x) ∧
      (d.scanEnd x).rd Reg.CMT_CRC_DIRTY_COUNT = (d.rd Reg.CMT_CRC_DIRTY_COUNT + 1) % 2 ^ 32 := by
  have he : d.scanEnd x = ({ d with fab := { d.fab with scan := none } } : Dev).wr Reg.CMT_CRC_DIRTY_COUNT
      ((d.rd Reg.CMT_CRC_DIRTY_COUNT + 1) % 2 ^ 32) := if_pos hx
  rw [he]
  refine ⟨(Dev.SameBut.of_live rfl).wr _ _ (by decide) (by decide), ?_⟩
  rw [Dev.rd_wr _ _ _ (by decide)]
  exact Nat.mod_mod _ _

/-- The end of a clean scan, with the result of the words as they are. -/
theorem Dev.scanEnd_clean {d : Dev} {x : Scan} (hx : x.dirty = false) :
    d.scanEnd x = ({ d with fab := { d.fab with scan := none } } : Dev).scanClean d.scanResult x.capture :=
  if_neg (by simp [hx])

/-- Where a clean scan serves a capture, with no further one queued (R57). -/
theorem Dev.scanEnd_captures {d : Dev} {x : Scan} (hx : x.dirty = false) (hc : x.capture = true)
    (hg : d.rd Reg.CMT_CRC_CAPTURE_GO = 1) (hq : d.fab.queued = []) :
    Dev.SameBut [Reg.CMT_CRC_LAST_LAST, Reg.CMT_CRC_REF_REF, Reg.CMT_CRC_CAPTURE_GO] d (d.scanEnd x) ∧
      (d.scanEnd x).rd Reg.CMT_CRC_REF_REF = d.scanResult ∧ (d.scanEnd x).rd Reg.CMT_CRC_CAPTURE_GO = 0 := by
  rw [Dev.scanEnd_clean hx, hc, Dev.scanClean_captures]
  · refine ⟨(((Dev.SameBut.of_live rfl).wr _ _ (by decide) (by decide)).wr _ _ (by decide) (by decide)).wr _ _
      (by decide) (by decide), ?_, ?_⟩
    · rw [Dev.rd_wr_apart _ _ _ _ (by decide) (by decide) (by decide), Dev.rd_wr _ _ _ (by decide)]
      exact Nat.mod_eq_of_lt d.scanResult_lt
    · rw [Dev.rd_wr _ _ _ (by decide)]
      rfl
  · exact hg
  · exact hq

/-- Where a clean scan finds another result than the reference, it counts, flags and posts the mismatch (R56). -/
theorem Dev.scanEnd_mismatches {d : Dev} {x : Scan} (hx : x.dirty = false) (hc : x.capture = false)
    (he : d.rd Reg.CMT_CRC_CFG_ENABLE = 1) (hne : d.scanResult ≠ d.rd Reg.CMT_CRC_REF_REF) :
    Dev.SameBut [Reg.CMT_CRC_LAST_LAST, Reg.CMT_CRC_MISS_COUNT, Reg.CMT_STATUS_CRC_MISMATCH] d (d.scanEnd x) ∧
      (d.scanEnd x).rd Reg.CMT_CRC_MISS_COUNT = (d.rd Reg.CMT_CRC_MISS_COUNT + 1) % 2 ^ 32 ∧
      (d.scanEnd x).rd Reg.CMT_STATUS_CRC_MISMATCH = 1 ∧
      (d.scanEnd x).settle.evq =
        ({ d.evq with posts := d.evq.posts ++ [(22, 2, d.scanResult)] } : Evq).settle d.schTick := by
  rw [Dev.scanEnd_clean hx, hc, Dev.scanClean_compares, if_pos ⟨he, hne⟩]
  refine ⟨((((Dev.SameBut.of_live rfl).wr _ _ (by decide) (by decide)).wr _ _ (by decide) (by decide)).wr _ 1
      (by decide) (by decide)).trans (.of_live rfl), ?_, ?_, rfl⟩
  · rw [Dev.post_rd, Dev.flag, Dev.rd_wr_apart _ _ _ _ (by decide) (by decide) (by decide), Dev.rd_wr _ _ _ (by decide)]
    exact Nat.mod_mod _ _
  · rw [Dev.post_rd, Dev.flag, Dev.rd_wr _ _ _ (by decide)]
    rfl

/-- Where a clean scan is not compared, or agrees, it changes CMT_CRC_LAST alone. -/
theorem Dev.scanEnd_agrees {d : Dev} {x : Scan} (hx : x.dirty = false) (hc : x.capture = false)
    (he : d.rd Reg.CMT_CRC_CFG_ENABLE = 0 ∨ d.scanResult = d.rd Reg.CMT_CRC_REF_REF) :
    Dev.SameBut [Reg.CMT_CRC_LAST_LAST] d (d.scanEnd x) := by
  have hno : ¬ (d.rd Reg.CMT_CRC_CFG_ENABLE = 1 ∧ d.scanResult ≠ d.rd Reg.CMT_CRC_REF_REF) := by
    rcases he with he | he
    · simp [he]
    · simp [he]
  rw [Dev.scanEnd_clean hx, hc, Dev.scanClean_compares]
  exact if_neg hno ▸ (Dev.SameBut.of_live rfl).wr _ _ (by decide) (by decide)

/-! ### The entry of events -/

/-- Events of one block, posted where the FIFO has room, enter it in their order (R71). -/
theorem entersAll_of_room {s t : State} {es : List (Nat × Nat × Nat)} (b : Nat) (hb : b < 32) (he : ∀ e ∈ es, e.1 = b)
    (hn : es.length ≤ 12) (hr : Room s) (ht : t.dev.evq = ({ s.dev.evq with posts := es } : Evq).settle s.dev.schTick) :
    EntersAll s t es := by
  obtain ⟨hlen, -, hlost⟩ := hr
  rw [EntersAll, ht, Evq.settle_block s.dev.evq _ b es hb he hlost (by omega)]
  rfl

/-! ### The start of a scan and the request of a capture (R54, R57) -/

theorem crcScanStart_starts (s : State) : ∃ t, Runs .crcScanStart s t ∧ t.dev.live = s.dev.live ∧
    t.dev = { Around s.dev t.dev with fab := { s.dev.fab with scan := t.dev.fab.scan, scanTick := t.dev.fab.scanTick } } ∧
    (s.dev.tick % 8 = 0 → s.dev.fab.scanTick ≠ some s.dev.tick → t.dev.fab.scanTick = some s.dev.tick ∧
      t.dev.fab.scan = some { dirty := false, capture := s.dev.on Reg.CMT_CRC_CAPTURE_GO }) ∧
    ((s.dev.tick % 8 ≠ 0 ∨ s.dev.fab.scanTick = some s.dev.tick) →
      t.dev.fab.scan = s.dev.fab.scan ∧ t.dev.fab.scanTick = s.dev.fab.scanTick) := by
  have htick : s.dev.schTick % 8 = s.dev.tick % 8 := Nat.mod_mod_of_dvd _ (by decide)
  refine ⟨_, runs_of_onDev (c := .crcScanStart) (show execCrcScanStart s = onDev _ s from rfl), ?_⟩
  unfold Dev.scanStart
  rw [htick]
  split
  case isTrue hgo =>
    exact ⟨rfl, Dev.eq_around_fab rfl rfl, fun _ _ => ⟨rfl, rfl⟩, fun hno => absurd hgo (by tauto)⟩
  case isFalse hno =>
    exact ⟨rfl, Dev.eq_around_fab rfl rfl, fun h1 h2 => absurd ⟨h1, h2⟩ hno, fun _ => ⟨rfl, rfl⟩⟩

/-- A CMD field without an effect of its own reads 1 once written (R32). -/
theorem Dev.cmdGo_rd (d : Dev) (f : Fld) (hf : f.ok = true) : (d.cmdGo f id).rd f = 1 := by
  unfold Dev.cmdGo
  split
  case isTrue hon =>
    have hrd : d.rd f = 1 := by simpa [Dev.on] using hon
    split <;> exact hrd
  case isFalse =>
    have hw : 1 < 2 ^ f.width := Nat.one_lt_two_pow (by simp [Fld.ok, Fld.width] at hf ⊢; omega)
    exact (Dev.rd_wr d f 1 hf).trans (Nat.mod_eq_of_lt hw)

theorem Dev.cmdGo_same (d : Dev) (f : Fld) (hf : f.ok = true) : Dev.SameBut [f] d (d.cmdGo f id) := by
  unfold Dev.cmdGo
  split
  · split <;> exact .of_live rfl
  · exact (Dev.SameBut.of_live rfl).wr f 1 (List.mem_singleton_self f) hf

theorem Dev.cmdGo_body (d : Dev) (f : Fld) : (d.cmdGo f id).body = d.body := by
  unfold Dev.cmdGo
  split
  · split <;> rfl
  · rfl

theorem Dev.cmdGo_fab (d : Dev) (f : Fld) : (d.cmdGo f id).fab = { d.fab with queued := (d.cmdGo f id).fab.queued } := by
  unfold Dev.cmdGo
  split
  · split <;> rfl
  · rfl

/-- A capture asked for leaves GO at 1 until a scan serves it (R57). -/
theorem crcCapture_asks (s : State) (h : Agent) (hr : Ready s h Reg.CMT_CRC_CAPTURE_GO false) :
    ∃ t, Runs (.crcCapture h) s t ∧ t.dev.rd Reg.CMT_CRC_CAPTURE_GO = 1 ∧ OnlyFields [Reg.CMT_CRC_CAPTURE_GO] s t ∧
      t.dev = { Around s.dev t.dev with fab := { s.dev.fab with queued := t.dev.fab.queued } } := by
  have hrun := runs_of_onDev (c := .crcCapture h) (show execCrcCapture h s = onDev _ s from rfl)
  rw [Dev.hostCmd_open _ _ _ _ hr.1 hr.2] at hrun
  refine ⟨_, hrun, ?_, ?_, Dev.eq_around_fab ?_ ?_⟩
  · rw [Dev.settle_rd, Dev.captureGo, Dev.cmdGo_rd _ _ (by decide)]
  · have htouch : Dev.SameBut [Reg.CMT_CRC_CAPTURE_GO] s.dev (s.dev.touch h true (blockOf Reg.CMT_CRC_CAPTURE_GO.addr)) :=
      .of_live (Dev.touch_live ..)
    rw [onlyFields_iff]
    exact (htouch.trans (Dev.cmdGo_same _ _ (by decide))).settle
  · rw [Dev.settle_body, Dev.captureGo, Dev.cmdGo_body, Dev.touch_body]
  · rw [Dev.settle_fab, Dev.captureGo, Dev.cmdGo_fab, Dev.touch_fab]

@[simp] theorem Dev.flushGo_body (d : Dev) : d.flushGo.body = d.body := rfl
@[simp] theorem Dev.flushGo_fab (d : Dev) : d.flushGo.fab = d.fab := rfl
@[simp] theorem Dev.flushGo_live (d : Dev) : d.flushGo.live = d.live := rfl

/-- The flush empties the FIFO and leaves the sequence number (R74). -/
theorem flush_empties (s : State) (h : Agent) (hr : Ready s h Reg.INT_EVQ_CFG_FLUSH false) (hp : s.dev.evq.posts = [])
    (hl : s.dev.evq.lostPend = 0) :
    ∃ t, Runs (.flush h) s t ∧ t.dev.evq = { s.dev.evq with q := [] } ∧ t.dev.live = s.dev.live ∧
      t.dev = Around s.dev t.dev := by
  have hrun := runs_of_onDev (c := .flush h) (show execFlush h s = onDev _ s from rfl)
  rw [Dev.hostCmd_open _ _ _ _ hr.1 hr.2] at hrun
  refine ⟨_, hrun, ?_, ?_, Dev.eq_around_same ?_ ?_⟩
  · show Evq.settle { (s.dev.touch h true _).evq with q := [] } _ = _
    rw [Dev.touch_evq]
    exact Evq.settle_nil _ _ hp hl
  · rw [Dev.settle_live, Dev.flushGo_live, Dev.touch_live]
  · rw [Dev.settle_body, Dev.flushGo_body, Dev.touch_body]
  · rw [Dev.settle_fab, Dev.flushGo_fab, Dev.touch_fab]

/-! ### The counter snapshot (R64) -/

/-- The counter at `e.2` is copied into word `e.1` of the holding bank. -/
def Dev.bankPut (d : Dev) (e : Nat × Nat) : Dev := d.wr (Reg.MACC_BANK e.1) (d.word e.2).toNat

theorem Dev.bankPut_eq (d : Dev) (e : Nat × Nat) : d.bankPut e = d.setWord (0x12400 + 4 * e.1) (d.word e.2) := by
  rw [Dev.bankPut, Dev.wr, Fld.set_whole rfl rfl]
  rfl

/-- Copies of counters that lie below the bank, each into a word of its own: every word of the bank that is named holds its
counter, and no other word changes. -/
theorem Dev.word_foldl_bankPut (es : List (Nat × Nat)) (hn : (es.map (·.1)).Nodup) (hs : ∀ e ∈ es, e.2 < 0x12400) (d : Dev) :
    (∀ e ∈ es, (es.foldl Dev.bankPut d).word (0x12400 + 4 * e.1) = d.word e.2) ∧
      ∀ a, (∀ e ∈ es, a ≠ 0x12400 + 4 * e.1) → (es.foldl Dev.bankPut d).word a = d.word a := by
  induction es generalizing d with
  | nil => exact ⟨fun e he => absurd he (List.not_mem_nil), fun a _ => rfl⟩
  | cons x es ih =>
    obtain ⟨hx, hn⟩ := List.nodup_cons.mp hn
    obtain ⟨hin, hout⟩ := ih hn (fun e he => hs e (List.mem_cons_of_mem _ he)) (d.bankPut x)
    have hput : ∀ a, 0x12400 + 4 * x.1 ≠ a → (d.bankPut x).word a = d.word a := fun a ha => by
      rw [Dev.bankPut_eq, Dev.word_setWord_ne _ _ _ _ ha]
    refine ⟨fun e he => ?_, fun a ha => ?_⟩
    · rcases List.mem_cons.mp he with rfl | he
      · rw [List.foldl_cons, hout, Dev.bankPut_eq, Dev.word_setWord_eq]
        intro e' he' heq
        have hix : e'.1 = e.1 := by omega
        exact hx (List.mem_map.mpr ⟨e', he', hix⟩)
      · rw [List.foldl_cons, hin e he, hput]
        have := hs e (List.mem_cons_of_mem _ he)
        omega
    · rw [List.foldl_cons, hout a fun e he => ha e (List.mem_cons_of_mem _ he), hput]
      exact Ne.symm (ha x List.mem_cons_self)

/-- The words of the holding bank with the counters that the snapshot copies into them (R64). -/
def snapPlan : List (Nat × Nat) :=
  ((List.range 64).flatMap fun i => [(i, 0x10400 + 4 * i), (64 + i, 0x11400 + 4 * i)]) ++
    (List.range 14).map (fun i => (128 + i, 0xC040 + 4 * i)) ++ (List.range 48).map fun i => (256 + i, 0x8400 + 4 * i)

theorem Dev.snap_eq (d : Dev) :
    d.snap = (snapPlan.foldl Dev.bankPut d).wr Reg.MACC_SNAPTICK_TICK (snapPlan.foldl Dev.bankPut d).schTick := by
  simp only [Dev.snap, snapPlan, List.foldl_append, List.foldl_flatMap, List.foldl_map]
  rfl

theorem snapPlan_nodup : (snapPlan.map (·.1)).Nodup := by decide +kernel
theorem snapPlan_sources : ∀ e ∈ snapPlan, e.2 < 0x12400 := by decide +kernel
theorem snapPlan_bank : ∀ e ∈ snapPlan, blockOf (0x12400 + 4 * e.1) = 13 := by decide +kernel

theorem snapPlan_macs {i : Nat} (hi : i < 64) : (i, 0x10400 + 4 * i) ∈ snapPlan ∧ (64 + i, 0x11400 + 4 * i) ∈ snapPlan := by
  have hmac : ∀ e ∈ [(i, 0x10400 + 4 * i), (64 + i, 0x11400 + 4 * i)], e ∈ snapPlan := fun e he =>
    List.mem_append_left _ (List.mem_append_left _ (List.mem_flatMap.mpr ⟨i, List.mem_range.mpr hi, he⟩))
  exact ⟨hmac _ (by simp), hmac _ (by simp)⟩
theorem snapPlan_flw {i : Nat} (hi : i < 14) : (128 + i, 0xC040 + 4 * i) ∈ snapPlan :=
  List.mem_append_left _ (List.mem_append_right _ (List.mem_map.mpr ⟨i, List.mem_range.mpr hi, rfl⟩))
theorem snapPlan_sch {i : Nat} (hi : i < 48) : (256 + i, 0x8400 + 4 * i) ∈ snapPlan :=
  List.mem_append_right _ (List.mem_map.mpr ⟨i, List.mem_range.mpr hi, rfl⟩)

/-- The snapshot touches registers alone. -/
theorem Dev.snap_body (d : Dev) : d.snap.body = d.body := by
  rw [Dev.snap_eq, Dev.wr_body, Dev.fold_keeps Dev.body Dev.bankPut fun _ _ => rfl]
theorem Dev.snap_fab (d : Dev) : d.snap.fab = d.fab := by
  rw [Dev.snap_eq, Dev.wr_fab, Dev.fold_keeps Dev.fab Dev.bankPut fun _ _ => rfl]
theorem Dev.snap_tick (d : Dev) : d.snap.rd Reg.MACC_SNAPTICK_TICK = d.tick % 2 ^ 32 := by
  rw [Dev.snap_eq, Dev.rd_wr _ _ _ (by decide), Dev.schTick, Dev.fold_keeps Dev.tick Dev.bankPut fun _ _ => rfl]
  exact Nat.mod_mod _ _

/-- Each counter of the plan stands in its word of the bank. -/
theorem Dev.snap_bank (d : Dev) {i a : Nat} (he : (i, a) ∈ snapPlan) : d.snap.word (Reg.MACC_BANK i).addr = d.word a := by
  rw [Dev.snap_eq, Dev.wr, Dev.word_setWord_ne]
  · exact (Dev.word_foldl_bankPut snapPlan snapPlan_nodup snapPlan_sources d).1 (i, a) he
  · simp only [Reg.MACC_SNAPTICK_TICK, Reg.MACC_BANK]
    omega

theorem Dev.snap_outside (d : Dev) {a : Nat} (ha : blockOf a ≠ 13) : d.snap.word a = d.word a := by
  rw [Dev.snap_eq, Dev.wr, Dev.word_setWord_ne]
  · refine (Dev.word_foldl_bankPut snapPlan snapPlan_nodup snapPlan_sources d).2 a fun e he heq => ha ?_
    rw [heq, snapPlan_bank e he]
  · exact fun heq => ha (heq ▸ rfl)

/-- The snapshot of a host that may ask for it (R64). -/
theorem maccSnap_copies (s : State) (h : Agent) (hr : Ready s h Reg.MACC_SNAP_SNAP false) :
    ∃ t, Runs (.maccSnap h) s t ∧ t.dev = Around s.dev t.dev ∧ t.dev.rd Reg.MACC_SNAPTICK_TICK = s.dev.tick % 2 ^ 32 ∧
      (∀ i a, (i, a) ∈ snapPlan → t.dev.word (Reg.MACC_BANK i).addr = s.dev.word a) ∧
      ∀ a, blockOf a ≠ 13 → t.dev.word a = s.dev.word a := by
  have hrun := runs_of_onDev (c := .maccSnap h) (show execMaccSnap h s = onDev _ s from rfl)
  rw [Dev.hostCmd_open _ _ _ _ hr.1 hr.2] at hrun
  refine ⟨_, hrun, Dev.eq_around_same ?_ ?_, ?_, fun i a he => ?_, fun a ha => ?_⟩
  · rw [Dev.settle_body, Dev.snap_body, Dev.touch_body]
  · rw [Dev.settle_fab, Dev.snap_fab, Dev.touch_fab]
  · rw [Dev.settle_rd, Dev.snap_tick, Dev.touch_tick]
  · rw [Dev.settle_word, Dev.snap_bank _ he, Dev.touch_word]
  · rw [Dev.settle_word, Dev.snap_outside _ ha, Dev.touch_word]

/-! ### The obligation -/

/-- Settles O32: scans start once a boundary and end by their kind, the snapshot copies its plan, and the flush keeps SEQ. -/
theorem scansSnapshotsAndFlushes : Obligations.ScansSnapshotsAndFlushes := by
  refine ⟨crcScanStart_starts, fun s x hx => ?_, crcCapture_asks, fun s h hr => ?_, flush_empties⟩
  · refine ⟨_, crcScanDone_runs hx, s.dev.scanEnd_scan x, fun hd => Dev.scanEnd_dirty hd, fun hd => ?_⟩
    refine ⟨?_, fun hc hg hq => Dev.scanEnd_captures hd hc hg hq, fun hc he hne => ?_,
      fun hc he => Dev.scanEnd_agrees hd hc he⟩
    · rw [Dev.settle_rd, Dev.scanEnd_clean hd, Dev.scanClean_last _ _ _ s.dev.scanResult_lt]
    · obtain ⟨hsame, hcount, hflag, hevq⟩ := Dev.scanEnd_mismatches hd hc he hne
      refine ⟨hsame, hcount, hflag, fun hroom => entersAll_of_room 22 (by decide) (by simp) (by simp) hroom ?_⟩
      rw [hevq, hroom.2.1, List.nil_append]
  · obtain ⟨t, hrun, hframe, htick, hbank, hrest⟩ := maccSnap_copies s h hr
    refine ⟨t, hrun, hframe, htick, fun i hi => ?_, fun i hi => ?_, fun i hi => ?_, hrest⟩
    · exact ⟨hbank _ _ (snapPlan_macs hi).1, hbank _ _ (snapPlan_macs hi).2⟩
    · exact hbank _ _ (snapPlan_flw hi)
    · exact hbank _ _ (snapPlan_sch hi)

end Sys2Proof.Machine
end

section
/-! Reads by a host: the value returned, the RC bits cleared, the words latched and the head of the event FIFO
(R27, R29, R31, R65, R72). -/
namespace Sys2Proof.Machine
open Sys2Proof.Claims

/-! ### A host access leaves what reads show -/

/-- The device after an access that moved the instant of the last access and the exit from a power state (R487). -/
def Dev.accessed (d : Dev) (at_ : Nat) (exiting : Option (Nat × Nat)) : Dev :=
  { d with pwr := { d.pwr with touchAt := at_, exiting := exiting } }

theorem Dev.powerLeave_accessed (d : Dev) (c : Nat) : ∃ y, d.powerLeave c = d.accessed d.pwr.touchAt y := by
  unfold Dev.powerLeave
  split
  · exact ⟨_, rfl⟩
  · exact ⟨d.pwr.exiting, rfl⟩

theorem Dev.wake_accessed (d : Dev) (c : Nat) : ∃ y, d.wake c = d.accessed d.pwr.touchAt y := by
  unfold Dev.wake
  split
  · exact ⟨_, rfl⟩
  · exact d.powerLeave_accessed c

theorem Dev.touch_accessed (d : Dev) (h : Agent) (w : Bool) (b : Nat) : ∃ x y, d.touch h w b = d.accessed x y := by
  unfold Dev.touch
  dsimp only
  split
  · exact ⟨d.pwr.touchAt, d.pwr.exiting, rfl⟩
  · split
    · obtain ⟨y, hy⟩ := Dev.wake_accessed { d with pwr := { d.pwr with touchAt := d.timeNs } } 0
      exact ⟨_, y, hy⟩
    · obtain ⟨y, hy⟩ := Dev.powerLeave_accessed { d with pwr := { d.pwr with touchAt := d.timeNs } } 8
      exact ⟨_, y, hy⟩

section
variable (d : Dev) (x : Nat) (y : Option (Nat × Nat)) (a : Nat)

theorem Dev.engFields_accessed : (d.accessed x y).engFields a = d.engFields a := by
  have hen : (d.accessed x y).en = d.en := rfl
  unfold Dev.engFields
  rw [hen]

theorem Dev.readWord_accessed : (d.accessed x y).readWord a = d.readWord a := by
  have hword : (d.accessed x y).word a = d.word a := rfl
  have hheld : (d.accessed x y).heldFields a = d.heldFields a := rfl
  have hfab : (d.accessed x y).fabricFields a = d.fabricFields a := rfl
  have hmem : (d.accessed x y).memFields a = d.memFields a := rfl
  have hclk : (d.accessed x y).clkRun = d.clkRun := rfl
  have htim : (d.accessed x y).timCold = d.timCold := rfl
  have hload : (d.accessed x y).loaderFields a = d.loaderFields a := rfl
  unfold Dev.readWord
  rw [hword, hheld, hfab, hmem, hclk, htim, hload, Dev.engFields_accessed]

theorem Dev.ctlWord_accessed : (d.accessed x y).ctlWord a = d.ctlWord a := by
  have hcopy : (d.accessed x y).copyWord a = d.copyWord a := rfl
  have htime : (d.accessed x y).timeFields a = d.timeFields a := rfl
  have hshadow : (d.accessed x y).shadowWord a = d.shadowWord a := rfl
  have hview : (d.accessed x y).on Reg.CMT_CFG_RDVIEW = d.on Reg.CMT_CFG_RDVIEW := rfl
  unfold Dev.ctlWord
  rw [hcopy, htime, hshadow, hview, Dev.readWord_accessed]

theorem Dev.plainWord_accessed : (d.accessed x y).plainWord a = d.plainWord a := by
  have hflow : (d.accessed x y).flowMem = d.flowMem := rfl
  have hstage : (d.accessed x y).stageWord = d.stageWord := rfl
  have heng : (d.accessed x y).eng = d.eng := rfl
  have hsap : (d.accessed x y).sapTable = d.sapTable := rfl
  unfold Dev.plainWord
  rw [hflow, hstage, heng, hsap, Dev.ctlWord_accessed]

end

/-- An access leaves what reads show (R62). -/
@[simp] theorem Dev.touch_plainWord (d : Dev) (h : Agent) (w : Bool) (b a : Nat) :
    (d.touch h w b).plainWord a = d.plainWord a := by
  obtain ⟨x, y, he⟩ := d.touch_accessed h w b
  rw [he, Dev.plainWord_accessed]

/-! ### The bits of a field type -/

theorem maskOf_getLsbD (p : Ty → Bool) (a i : Nat) (hi : i < 32) : (maskOf p a).getLsbD i = true ↔ BitOf p a i := by
  have hfold : ∀ (rs : List Row) (acc : Word),
      (rs.foldl (fun acc r => if p r.ty then acc ||| r.fld.mask else acc) acc).getLsbD i = true ↔
        acc.getLsbD i = true ∨ ∃ r ∈ rs, p r.ty = true ∧ r.fld.lo ≤ i ∧ i ≤ r.fld.hi := by
    intro rs
    induction rs with
    | nil => simp
    | cons r rs ih =>
      intro acc
      have hmask : r.fld.mask.getLsbD i = true ↔ r.fld.lo ≤ i ∧ i ≤ r.fld.hi := by
        simp only [Fld.mask_getLsbD, Bool.and_eq_true, decide_eq_true_eq]
        unfold Fld.width
        omega
      rw [List.foldl_cons, ih]
      by_cases hp : p r.ty = true
      · simp [hp, hmask, BitVec.getLsbD_or, or_assoc]
      · simp [hp]
  rw [maskOf, hfold]
  simp [BitOf]

/-! ### Where the words of the register file lie -/

theorem blockOf_range {w b : Nat} (hb : blockOf w = b) : (1 ≤ b ∧ b ≤ 3 → 0x4000 ≤ w ∧ w < 0x7000) ∧
    (10 ≤ b ∧ b ≤ 12 → 0xD000 ≤ w ∧ w < 0x12000) := by
  unfold blockOf at hb
  repeat
    replace hb := ite_eq_iff.mp hb
    rcases hb with ⟨hw, hb⟩ | ⟨hw, hb⟩
    · omega
  omega

theorem slowWord_range {w : Nat} (h : slowWord w = true) : (0x4000 ≤ w ∧ w < 0x7000) ∨ w = 0xB014 ∨ w = 0xB018 := by
  simp only [slowWord, Bool.or_eq_true, beq_iff_eq, List.contains_iff_mem, or_assoc, List.mem_cons, List.not_mem_nil,
    or_false] at h
  have := (blockOf_range (w := w) rfl).1
  omega

theorem latchOf_range {w first n : Nat} (h : latchOf w = some (first, n)) :
    ((0x3040 ≤ w ∧ w < 0x3050) ∨ (0x14020 ≤ w ∧ w < 0x19900) ∨ (0x108000 ≤ w ∧ w < 0x10C000)) ∧ n ≤ 15 := by
  unfold latchOf at h
  repeat
    replace h := ite_eq_iff.mp h
    rcases h with ⟨hw, h⟩ | ⟨hw, h⟩
    · cases h
      omega
  cases h

/-! ### The read of a word at its own address -/

theorem Dev.portMove_fab (d : Dev) (n : Nat) : (d.portMove n).fab = d.fab := by
  unfold Dev.portMove
  simp only [Dev.post_fab, Dev.count_fab, Dev.flag_fab, Dev.wr_fab]
  rfl

theorem Dev.frameTurn_fab (d : Dev) : d.frameTurn.fab = d.fab := by
  refine Dev.fold_keeps Dev.fab _ (fun d n => ?_) _ d
  split
  · exact d.portMove_fab n
  · rfl

theorem Dev.macRun_fab (d : Dev) (n : Nat) : (d.macRun n).fab = d.fab := by
  unfold Dev.macRun Dev.showPaused Dev.setMac
  dsimp only
  split <;> rfl

theorem seen_eq (s : State) (w : Nat) : Seen s w =
    if blockOf w = 10 then s.dev.frameTurn
    else if blockOf w = 11 then s.dev.macRun 0 else if blockOf w = 12 then s.dev.macRun 1 else s.dev := by
  unfold Seen
  split <;> simp_all

theorem seen_fab (s : State) (w : Nat) : (Seen s w).fab = s.dev.fab := by
  rw [seen_eq]
  split_ifs
  · exact Dev.frameTurn_fab _
  · exact Dev.macRun_fab _ 0
  · exact Dev.macRun_fab _ 1
  · rfl

/-- Outside the ports a read sees the state as it is. -/
theorem seen_self (s : State) {w : Nat} (hw : w < 0xD000 ∨ 0x12000 ≤ w) : Seen s w = s.dev := by
  have hb := (blockOf_range (w := w) rfl).2
  rw [seen_eq, if_neg (by omega), if_neg (by omega), if_neg (by omega)]

/-- A read of a word outside the slow domain, below the windows, is a read at its own address of the state seen there. -/
theorem Dev.busRead_seen (s : State) (h : Agent) {w : Nat} (h4 : w % 4 = 0) (hw : w < 0x300000) (hs : slowWord w = false) :
    s.dev.busRead h w = (Seen s w).ownRead h w := by
  have hal : w / 4 * 4 = w := by omega
  have ht : s.dev.target w = w := if_pos (by omega)
  have h8 : ¬ 0x800000 ≤ w := by omega
  have h4' : ¬ 0x400000 ≤ w := by omega
  have h3 : ¬ (0x300000 ≤ w ∧ w < 0x301008) := by omega
  rw [seen_eq]
  simp only [Dev.busRead, hal, ht, hs, Bool.false_eq_true, if_false, h8, h4', h3]

/-- A read of a slow-domain word first brings the copy up to date (R65). -/
theorem Dev.busRead_slow (d : Dev) (h : Agent) {w : Nat} (h4 : w % 4 = 0) (hs : slowWord w = true) :
    d.busRead h w = d.slowSync.ownRead h w := by
  have hr := slowWord_range hs
  have hb := (blockOf_range (w := w) rfl).2
  have hal : w / 4 * 4 = w := by omega
  have ht : ∀ d : Dev, d.target w = w := fun d => if_pos (by omega)
  have h10 : ¬ blockOf w = 10 := by omega
  have h11 : ¬ blockOf w = 11 := by omega
  have h12 : ¬ blockOf w = 12 := by omega
  have h8 : ¬ 0x800000 ≤ w := by omega
  have h4' : ¬ 0x400000 ≤ w := by omega
  have h3 : ¬ (0x300000 ≤ w ∧ w < 0x301008) := by omega
  simp only [Dev.busRead, hal, ht, hs, if_true, h10, h11, h12, if_false, h8, h4', h3]

/-- A read of a control word that no other word is latched with returns its value and clears its RC bits (R31). -/
theorem Dev.ownRead_plain (d : Dev) (h : Agent) {w : Nat} (hl : latchOf w = none) (hw : w < 0x40000) (hd : w ≠ 0x7018) :
    d.ownRead h w = ((d.touch h false (blockOf w)).readClear w, d.plainWord w) := by
  simp only [Dev.ownRead, hl, hd, hw, if_true, if_false, Dev.touch_plainWord]

/-! ### The RC bits that a read clears (R31) -/

theorem word_and_not_zero (w : Word) : w &&& ~~~(0 : Word) = w := BitVec.and_allOnes

theorem Dev.readClear_fast (d : Dev) {w : Nat} (hs : slowWord w = false) (hw : w ≠ 0x305C) : d.readClear w =
    if maskOf (· == .rc) w = 0 then d else d.setWord w (d.word w &&& ~~~(maskOf (· == .rc) w)) := by
  simp only [Dev.readClear, hs, hw, Bool.false_eq_true, if_false]

/-- Outside the slow domain a read clears the RC bits of its word. -/
theorem Dev.readClear_word (d : Dev) {w : Nat} (hs : slowWord w = false) (hw : w ≠ 0x305C) (a : Nat) :
    (d.readClear w).word a = if a = w then d.word w &&& ~~~(maskOf (· == .rc) w) else d.word a := by
  rw [Dev.readClear_fast d hs hw]
  split
  case isTrue hm =>
    rw [hm, word_and_not_zero]
    split
    · rename_i ha
      rw [ha]
    · rfl
  case isFalse =>
    split
    · rename_i ha
      rw [ha, Dev.word_setWord_eq]
    · rename_i ha
      rw [Dev.word_setWord_ne _ _ _ _ (Ne.symm ha)]

theorem Dev.readClear_body (d : Dev) (w : Nat) : (d.readClear w).body = d.body := by
  unfold Dev.readClear
  dsimp only
  split_ifs <;> rfl

theorem Dev.readClear_fab (d : Dev) {w : Nat} (hs : slowWord w = false) : (d.readClear w).fab = d.fab := by
  unfold Dev.readClear
  dsimp only
  split_ifs <;> simp_all

@[simp] theorem Dev.setRdata_word (d : Dev) (ws : List Word) (a : Nat) : (d.setRdata ws).word a = d.word a := rfl
@[simp] theorem Dev.setRdata_live (d : Dev) (ws : List Word) : (d.setRdata ws).live = d.live := rfl
@[simp] theorem Dev.setRdata_body (d : Dev) (ws : List Word) : (d.setRdata ws).body = d.body := rfl
@[simp] theorem Dev.setRdata_fab (d : Dev) (ws : List Word) : (d.setRdata ws).fab = { d.fab with rdata := ws } := rfl

/-- What an RC read of a word outside the slow domain does (R31). -/
theorem rcRead_clears (s : State) (h : Agent) (w : Addr) (h4 : w.val % 4 = 0) (hw : w.val < 0x40000) (hl : latchOf w = none)
    (hd : w.val ∉ [0x7018, 0x305C]) (hs : slowWord w = false) :
    ∃ t, Runs (.rcRead h w) s t ∧ t.dev.fab.rdata = [(Seen s w).plainWord w] ∧
      (∀ a, t.dev.word a = if a = w.val then (Seen s w).word w &&& ~~~(maskOf (· == .rc) w) else (Seen s w).word a) ∧
      t.dev = { Around (Seen s w) t.dev with fab := { s.dev.fab with rdata := t.dev.fab.rdata } } := by
  simp only [List.mem_cons, List.not_mem_nil, or_false, not_or] at hd
  have hread : s.dev.readCmd h w = (((Seen s w).touch h false (blockOf w)).readClear w).setRdata [(Seen s w).plainWord w] := by
    rw [Dev.readCmd, Dev.busRead_seen s h h4 (by omega) hs, Dev.ownRead_plain _ _ hl hw hd.1]
  have hrun := runs_of_onDev (c := .rcRead h w) (show execRcRead h w s = onDev _ s from rfl)
  rw [hread] at hrun
  refine ⟨_, hrun, rfl, fun a => ?_, Dev.eq_around_fab ?_ ?_⟩
  · rw [Dev.settle_word, Dev.setRdata_word, Dev.readClear_word _ hs hd.2, Dev.touch_word, Dev.touch_word]
  · rw [Dev.settle_body, Dev.setRdata_body, Dev.readClear_body, Dev.touch_body]
  · rw [Dev.settle_fab, Dev.setRdata_fab, Dev.readClear_fab _ hs, Dev.touch_fab, seen_fab]

/-! ### Reads of the slow domain (R65) -/

/-- An edge of the slow clock depends on no free value. -/
theorem Dev.slowEdge_free (d : Dev) (n : Nat) : ({ d with free := n } : Dev).slowEdge = { d.slowEdge with free := n } := rfl

/-- Before a read of the slow domain an edge may have come; after 1 µs it has. -/
theorem Dev.slowSync_cases (d : Dev) : ∃ n, d.slowSync = { d.slowEdge with free := n } ∨
    (¬ d.fab.copyAt + 1000 ≤ d.timeNs ∧ d.slowSync = { d with free := n }) := by
  unfold Dev.slowSync
  split
  · exact ⟨d.free, .inl rfl⟩
  case isFalse h =>
    refine ⟨d.free + 1, ?_⟩
    dsimp only
    split
    · exact .inl (d.slowEdge_free _)
    · exact .inr ⟨h, rfl⟩

theorem Dev.slowEdge_word (d : Dev) (a : Nat) : d.slowEdge.word a = (d.wr Reg.PWR_STATUS_TARGET d.powerTarget).word a := rfl

/-- An edge brings the copy up to the words as they are then. -/
theorem Dev.slowEdge_copyWord (d : Dev) {w : Nat} (hs : slowWord w = true) : d.slowEdge.copyWord w = d.slowEdge.word w :=
  Sparse.get_filter_key _ (d.wr Reg.PWR_STATUS_TARGET d.powerTarget).live slowWord w hs

theorem Dev.slowEdge_same (d : Dev) : Dev.SameBut [Reg.PWR_STATUS_TARGET] d d.slowEdge :=
  ((Dev.SameBut.of_live rfl).wr Reg.PWR_STATUS_TARGET d.powerTarget (by decide) (by decide)).trans (.of_live rfl)

/-- No RC row of the slow domain stands for several registers. -/
theorem slow_rc_rows_single : ∀ r ∈ rowsPwr ++ rowsAge ++ rowsHot ++ rowsAlm, r.ty = .rc → r.n ≤ 1 ∧ r.m ≤ 1 := by
  decide +kernel

/-- The registers of the slow domain stand in four tables. -/
theorem slow_rowsOf {w : Nat} (hs : slowWord w = true) : rowsOf w ∈ [rowsPwr, rowsAge, rowsHot, rowsAlm] := by
  have hr := slowWord_range hs
  unfold rowsOf
  rw [if_neg (by omega), if_neg (by omega), if_neg (by omega), if_neg (by omega)]
  by_cases h1 : w < 0x5000
  · simp [h1]
  by_cases h2 : w < 0x6000
  · simp [h1, h2]
  by_cases h3 : w < 0x7000
  · simp [h1, h2, h3]
  rcases hr with hr | rfl | rfl
  · omega
  · simp
  · simp

/-- An RC row that covers a word of the slow domain has its field in that word. -/
theorem slow_rc_row_addr {w : Nat} (hs : slowWord w = true) {r : Row} (hr : r ∈ rowsAt w) (ht : r.ty = .rc) :
    r.fld.addr = w := by
  obtain ⟨hmem, hcov⟩ := List.mem_filter.mp hr
  have htab : r ∈ rowsPwr ++ rowsAge ++ rowsHot ++ rowsAlm := by
    have := slow_rowsOf hs
    simp only [List.mem_cons, List.not_mem_nil, or_false] at this
    rcases this with h | h | h | h <;> simp [← h, hmem]
  obtain ⟨hn, hm⟩ := slow_rc_rows_single r htab ht
  simp only [Row.covers, hn, hm, if_true] at hcov
  split at hcov
  · cases hcov
  · simp at hcov
    omega

/-- The RC fields of PWR_STATUS share no bit with TARGET. -/
theorem target_apart_rc : ∀ r ∈ rowsAt Reg.PWR_STATUS_TARGET.addr, r.ty = .rc →
    r.fld.hi < Reg.PWR_STATUS_TARGET.lo ∨ Reg.PWR_STATUS_TARGET.hi < r.fld.lo := by
  decide +kernel

/-- A slow-clock edge leaves the RC bits of every word. -/
theorem Dev.slowEdge_rc_bit (d : Dev) {w i : Nat} (hi : i < 32) (hb : BitOf (· == .rc) w i) :
    (d.slowEdge.word w).getLsbD i = (d.word w).getLsbD i := by
  rw [Dev.slowEdge_word, Dev.wr]
  by_cases hw : Reg.PWR_STATUS_TARGET.addr = w
  · obtain ⟨r, hr, ht, hlo, hhi⟩ := hb
    have hap := target_apart_rc r (hw ▸ hr) (by simpa using ht)
    have hout : ¬ (Reg.PWR_STATUS_TARGET.lo ≤ i ∧ i < Reg.PWR_STATUS_TARGET.lo + Reg.PWR_STATUS_TARGET.width) := by
      simp only [Fld.width, Reg.PWR_STATUS_TARGET] at hap ⊢
      omega
    rw [← hw, Dev.word_setWord_eq, Fld.set_getLsbD, if_neg hout]
    simp [hi]
  · rw [Dev.word_setWord_ne _ _ _ _ hw]

/-- A read of the slow domain clears in the copy the RC bits of its word, and in the word those that the copy showed (R65). -/
theorem Dev.readClear_slow (d : Dev) {w : Nat} (hs : slowWord w = true) :
    (∀ a, (d.readClear w).word a = if a = w then d.word w &&& ~~~(maskOf (· == .rc) w &&& d.copyWord w) else d.word a) ∧
      (d.readClear w).copyWord w = d.copyWord w &&& ~~~(maskOf (· == .rc) w) := by
  unfold Dev.readClear
  dsimp only
  by_cases hm : maskOf (· == .rc) w = 0
  · rw [if_pos hm, hm, show 0 &&& d.copyWord w = 0 from BitVec.zero_and, word_and_not_zero, word_and_not_zero]
    refine ⟨fun a => ?_, rfl⟩
    split
    · rename_i ha
      rw [ha]
    · rfl
  · rw [if_neg hm, if_pos hs]
    refine ⟨fun a => ?_, Sparse.get_put_eq ..⟩
    split
    · rename_i ha
      rw [ha]
      exact Dev.word_setWord_eq ..
    · rename_i ha
      exact Dev.word_setWord_ne _ _ _ _ (Ne.symm ha)

@[simp] theorem Dev.touch_copyWord (d : Dev) (h : Agent) (w : Bool) (b a : Nat) :
    (d.touch h w b).copyWord a = d.copyWord a := by
  rw [Dev.copyWord, Dev.touch_fab, Dev.copyWord]

theorem Dev.readClear_slow_same (d : Dev) {w : Nat} (hs : slowWord w = true) :
    Dev.SameBut ((rowsAt w).map (·.fld)) d (d.readClear w) := by
  intro g hg hap
  rw [Dev.rd, Dev.rd, (d.readClear_slow hs).1]
  split
  case isFalse => rfl
  case isTrue ha =>
    apply Nat.eq_of_testBit_eq
    intro i
    rw [Fld.get_testBit, Fld.get_testBit, ha]
    by_cases hi : i < g.width
    · have h32 : g.lo + i < 32 := by
        unfold Fld.width at hi
        omega
      have hno : (maskOf (· == .rc) w).getLsbD (g.lo + i) = false := by
        rw [Bool.eq_false_iff, Ne, maskOf_getLsbD _ _ _ h32]
        rintro ⟨r, hr, ht, hlo, hhi⟩
        have haddr := slow_rc_row_addr hs hr (by simpa using ht)
        have := hap r.fld (List.mem_map_of_mem hr)
        unfold Fld.width at hi
        omega
      rw [BitVec.getLsbD_and, BitVec.getLsbD_not, BitVec.getLsbD_and, hno]
      simp [h32]
    · simp [hi]

/-- What a slow-domain read finds: the copy as it was, or, with certainty after 1 µs, as a new edge leaves it. -/
theorem Dev.slowSync_finds (d : Dev) {w : Nat} (hs : slowWord w = true) :
    (d.slowSync.copyWord w = d.copyWord w ∨ d.slowSync.copyWord w = d.slowEdge.word w) ∧
      (d.fab.copyAt + 1000 ≤ d.timeNs → d.slowSync.copyWord w = d.slowEdge.word w) ∧
      (∀ i, i < 32 → BitOf (· == .rc) w i → (d.slowSync.word w).getLsbD i = (d.word w).getLsbD i) ∧
      Dev.SameBut [Reg.PWR_STATUS_TARGET] d d.slowSync := by
  obtain ⟨n, he | ⟨hearly, he⟩⟩ := d.slowSync_cases
  · have hcopy : d.slowSync.copyWord w = d.slowEdge.word w := by
      rw [he]
      exact d.slowEdge_copyWord hs
    refine ⟨.inr hcopy, fun _ => hcopy, fun i hi hb => ?_, ?_⟩
    · rw [he]
      exact d.slowEdge_rc_bit hi hb
    · rw [he]
      exact d.slowEdge_same.trans (.of_live rfl)
  · rw [he]
    exact ⟨.inl rfl, fun hlate => absurd hlate hearly, fun _ _ _ => rfl, .of_live rfl⟩

theorem Dev.plainWord_slow (d : Dev) {w : Nat} (hs : slowWord w = true) (hv : d.rd Reg.CMT_CFG_RDVIEW = 1) :
    d.plainWord w = d.copyWord w := by
  have hr := slowWord_range hs
  rw [Dev.plainWord, if_pos (by omega), Dev.ctlWord, Dev.on, hv]
  simp [hs]

theorem Dev.SameBut.setRdata {fs : List Fld} {d d' : Dev} (h : Dev.SameBut fs d d') (ws : List Word) :
    Dev.SameBut fs d (d'.setRdata ws) := h
@[simp] theorem Dev.setRdata_copyWord (d : Dev) (ws : List Word) (a : Nat) : (d.setRdata ws).copyWord a = d.copyWord a := rfl
@[simp] theorem Dev.settle_copyWord (d : Dev) (a : Nat) : d.settle.copyWord a = d.copyWord a := rfl

/-- What an RC read of a slow-domain word does (R65). -/
theorem rcRead_slow (s : State) (h : Agent) (w : Addr) (h4 : w.val % 4 = 0) (hl : latchOf w = none) (hs : slowWord w = true)
    (hv : s.dev.rd Reg.CMT_CFG_RDVIEW = 1) :
    ∃ t, Runs (.rcRead h w) s t ∧ t.dev.fab.rdata = [s.dev.slowSync.copyWord w] ∧
      t.dev.copyWord w = s.dev.slowSync.copyWord w &&& ~~~(maskOf (· == .rc) w) ∧
      t.dev.word w = s.dev.slowSync.word w &&& ~~~(maskOf (· == .rc) w &&& s.dev.slowSync.copyWord w) ∧
      Dev.SameBut ((rowsAt w).map (·.fld)) s.dev.slowSync t.dev := by
  have hr := slowWord_range hs
  have hview : s.dev.slowSync.rd Reg.CMT_CFG_RDVIEW = 1 :=
    ((s.dev.slowSync_finds hs).2.2.2 Reg.CMT_CFG_RDVIEW (by decide) (by decide)).trans hv
  have hread : s.dev.readCmd h w =
      ((s.dev.slowSync.touch h false (blockOf w)).readClear w).setRdata [s.dev.slowSync.copyWord w] := by
    rw [Dev.readCmd, Dev.busRead_slow s.dev h h4 hs, Dev.ownRead_plain _ _ hl (by omega) (by omega),
      Dev.plainWord_slow _ hs hview]
  have hrun := runs_of_onDev (c := .rcRead h w) (show execRcRead h w s = onDev _ s from rfl)
  rw [hread] at hrun
  obtain ⟨hword, hcopy⟩ := (s.dev.slowSync.touch h false (blockOf w)).readClear_slow hs
  have hsame := (Dev.SameBut.of_live (Dev.touch_live s.dev.slowSync h false (blockOf w))).trans
    ((s.dev.slowSync.touch h false (blockOf w)).readClear_slow_same hs)
  rw [Dev.touch_copyWord] at hcopy
  refine ⟨_, hrun, ?_, ?_, ?_, (hsame.setRdata _).settle⟩
  · rw [Dev.settle_fab, Dev.setRdata_fab]
  · rw [Dev.settle_copyWord, Dev.setRdata_copyWord, hcopy]
  · rw [Dev.settle_word, Dev.setRdata_word, hword, if_pos rfl, Dev.touch_word, Dev.touch_copyWord]

/-! ### Latched values (R27, R72) -/

/-- Words written 4 keys apart read back. -/
theorem Sparse.get_foldl_range_put (v : Nat → Word) (l : Sparse Word) (k n i : Nat) (hi : i < n) :
    Sparse.get 0 ((List.range n).foldl (fun m j => Sparse.put 0 m (k + 4 * j) (v j)) l) (k + 4 * i) = v i := by
  induction n with
  | zero => omega
  | succ n ih =>
    rw [List.range_succ, List.foldl_append]
    by_cases hn : i = n
    · subst hn
      exact Sparse.get_put_eq ..
    · exact (Sparse.get_put_ne _ _ _ _ _ _ (by omega)).trans (ih (by omega))

theorem Dev.latchWords_eq (d : Dev) (h : Agent) (a n : Nat) (v : Nat → Word) :
    d.latchWords h a ((List.range n).map v) = { d with fab := { d.fab with
      latch := (List.range n).foldl (fun m j => Sparse.put 0 m (latchKey h a + 4 * j) (v j)) d.fab.latch } } := by
  have hzip : ((List.range n).map v).zipIdx = (List.range n).map fun j => (v j, j) :=
    List.ext_getElem (by simp) (by simp)
  simp only [Dev.latchWords, hzip, List.foldl_map, latchKey, Nat.add_assoc]

/-- The words that a read latches are those that the host then reads. -/
theorem Dev.latchWords_get (d : Dev) (h : Agent) (a n : Nat) (v : Nat → Word) {i : Nat} (hi : i < n) :
    Sparse.get 0 (d.latchWords h a ((List.range n).map v)).fab.latch (latchKey h (a + 4 * i)) = v i := by
  rw [Dev.latchWords_eq, show latchKey h (a + 4 * i) = latchKey h a + 4 * i from (Nat.add_assoc _ _ _).symm]
  exact Sparse.get_foldl_range_put v d.fab.latch _ n i hi

/-- Each host has latches of its own. -/
theorem Dev.latchWords_other (d : Dev) {h g : Agent} (hg : g ≠ h) {a b n : Nat} (v : Nat → Word) (ha : a + 4 * n < 2 ^ 28)
    (hb : b < 2 ^ 24) : Sparse.get 0 (d.latchWords h a ((List.range n).map v)).fab.latch (latchKey g b) =
      Sparse.get 0 d.fab.latch (latchKey g b) := by
  rw [Dev.latchWords_eq]
  refine Sparse.get_foldl_put_ne 0 (fun j => latchKey h a + 4 * j) v _ _ _ fun j hj => ?_
  have hj := List.mem_range.mp hj
  have hcode : agentCode g ≠ agentCode h := by
    cases g <;> cases h <;> simp_all [agentCode]
  simp only [latchKey]
  omega

/-- The device once a host's read of the first word at `w` of a value has latched the `n` others. -/
def Dev.latched (d : Dev) (h : Agent) (w n : Nat) : Dev :=
  (d.touch h false (blockOf w)).latchWords h (w + 4) ((List.range n).map fun i => d.plainWord (w + 4 * (i + 1)))

/-- The first word of an entry of a stamp queue (R321). -/
theorem latchOf_stamp {w n : Nat} (hl : latchOf w = some (w, n)) (hw : 0x15040 ≤ w ∧ w < 0x15080) :
    w ∈ [0x15040, 0x15050, 0x15060, 0x15070] := by
  have hfirst : w / 16 * 16 = w := by
    rw [latchOf, if_neg (by omega), if_neg (by omega), if_pos hw] at hl
    simp only [Option.some.injEq, Prod.mk.injEq] at hl
    exact hl.1
  simp only [List.mem_cons, List.not_mem_nil, or_false]
  omega

/-- A read of a later word of a value returns what was latched for the host (R27). -/
theorem Dev.ownRead_later (d : Dev) (h : Agent) {w first n : Nat} (hl : latchOf w = some (first, n)) (hf : w ≠ first) :
    d.ownRead h w = (d.touch h false (blockOf w), Sparse.get 0 d.fab.latch (latchKey h w)) := by
  have hd : w ≠ 0x7018 := by
    have := (latchOf_range hl).1
    omega
  simp only [Dev.ownRead, hl, hd, hf, if_false, Dev.touch_fab]

/-- A read of the first word of a value returns it and latches the others (R27). -/
theorem Dev.ownRead_first (d : Dev) (h : Agent) {w n : Nat} (hl : latchOf w = some (w, n)) : d.ownRead h w =
    (if w = 0x3040 then { d.latched h w n with evq := (d.latched h w n).evq.pop }
      else if 0x15040 ≤ w ∧ w < 0x15080 ∧ h = .sup then
        let q := (w - 0x15040) / 16
        (d.latched h w n).setStampQ q
          { (d.latched h w n).stampQ q with q := ((d.latched h w n).stampQ q).q.tail }
      else d.latched h w n, d.plainWord w) := by
  have hd : w ≠ 0x7018 := by
    have := (latchOf_range hl).1
    omega
  simp only [Dev.ownRead, hl, hd, if_true, if_false, Dev.touch_plainWord, Dev.latched]
  split_ifs <;> rfl

theorem Dev.setStampQ_fab (d : Dev) (q : Nat) (x : StampQ) : (d.setStampQ q x).fab = d.fab := rfl

@[simp] theorem Dev.latched_live (d : Dev) (h : Agent) (w n : Nat) : (d.latched h w n).live = d.live := Dev.touch_live ..
@[simp] theorem Dev.latched_evq (d : Dev) (h : Agent) (w n : Nat) : (d.latched h w n).evq = d.evq := Dev.touch_evq ..

theorem Dev.latched_get (d : Dev) (h : Agent) (w n : Nat) {i : Nat} (hi : i < n) :
    Sparse.get 0 (d.latched h w n).fab.latch (latchKey h (w + 4 * (i + 1))) = d.plainWord (w + 4 * (i + 1)) := by
  have hget := (d.touch h false (blockOf w)).latchWords_get h (w + 4) n (fun i => d.plainWord (w + 4 * (i + 1))) hi
  rwa [show w + 4 + 4 * i = w + 4 * (i + 1) by omega] at hget

theorem Dev.latched_other (d : Dev) {h g : Agent} (hg : g ≠ h) {w n a : Nat} (hw : w + 4 + 4 * n < 2 ^ 28) (ha : a < 2 ^ 24) :
    Sparse.get 0 (d.latched h w n).fab.latch (latchKey g a) = Sparse.get 0 d.fab.latch (latchKey g a) := by
  rw [Dev.latched, Dev.latchWords_other _ hg _ hw ha, Dev.touch_fab]

/-- A read of a word that is latched with others is a read at its own address. -/
theorem readCmd_latched (s : State) (h : Agent) {w first n : Nat} (hl : latchOf w = some (first, n)) (h4 : w % 4 = 0) :
    s.dev.readCmd h w = (s.dev.ownRead h w).1.setRdata [(s.dev.ownRead h w).2] := by
  have hr := (latchOf_range hl).1
  have hs : slowWord w = false := by
    rw [Bool.eq_false_iff]
    intro hs
    have := slowWord_range hs
    omega
  rw [Dev.readCmd, Dev.busRead_seen s h h4 (by omega) hs, seen_self s (by omega)]

/-- The read of the first word of a value other than an event entry (R27, R321). -/
theorem latchedRead_first (s : State) (h : Agent) (w : Addr) (n : Nat) (hl : latchOf w = some (w.val, n)) (h4 : w.val % 4 = 0)
    (hne : w.val ≠ 0x3040) :
    ∃ t, Runs (.latchedRead h w) s t ∧ t.dev.fab.rdata = [s.dev.plainWord w] ∧
      t.dev.fab.latch = (s.dev.latched h w n).fab.latch ∧
      (h ≠ .sup ∨ w.val ∉ [0x15040, 0x15050, 0x15060, 0x15070] → t.dev.live = s.dev.live) := by
  have hrun := runs_of_onDev (c := .latchedRead h w) (show execLatchedRead h w s = onDev _ s from rfl)
  rw [readCmd_latched s h hl h4, Dev.ownRead_first _ h hl, if_neg hne] at hrun
  refine ⟨_, hrun, ?_, ?_, fun hlive => ?_⟩
  · rw [Dev.settle_fab, Dev.setRdata_fab]
  · rw [Dev.settle_fab, Dev.setRdata_fab]
    dsimp only
    split_ifs
    · rw [Dev.setStampQ_fab]
    · rfl
  · have hno : ¬ (0x15040 ≤ w.val ∧ w.val < 0x15080 ∧ h = .sup) := fun ⟨hlo, hhi, hsup⟩ =>
      hlive.elim (fun hh => hh hsup) fun hh => hh (latchOf_stamp hl ⟨hlo, hhi⟩)
    rw [Dev.settle_live, Dev.setRdata_live, if_neg hno, Dev.latched_live]

/-- The read of a later word of a value (R27). -/
theorem latchedRead_later (s : State) (h : Agent) (w : Addr) (first n : Nat) (hl : latchOf w = some (first, n))
    (h4 : w.val % 4 = 0) (hf : w.val ≠ first) :
    ∃ t, Runs (.latchedRead h w) s t ∧ t.dev.fab.rdata = [Sparse.get 0 s.dev.fab.latch (latchKey h w)] ∧
      t.dev.fab.latch = s.dev.fab.latch ∧ t.dev.live = s.dev.live := by
  have hrun := runs_of_onDev (c := .latchedRead h w) (show execLatchedRead h w s = onDev _ s from rfl)
  rw [readCmd_latched s h hl h4, Dev.ownRead_later _ h hl hf] at hrun
  refine ⟨_, hrun, ?_, ?_, ?_⟩
  · rw [Dev.settle_fab, Dev.setRdata_fab]
  · rw [Dev.settle_fab, Dev.setRdata_fab, Dev.touch_fab]
  · rw [Dev.settle_live, Dev.setRdata_live, Dev.touch_live]

/-! ### The head of the event FIFO (R72) -/

/-- What the views lay over the words of INT_EVQ. -/
theorem Dev.evq_view (d : Dev) {i : Nat} (hi : i < 4) : slowWord (0x3040 + 4 * i) = false ∧ rwsMask (0x3040 + 4 * i) = 0 ∧
    d.fabricFields (0x3040 + 4 * i) = [(⟨0x3040 + 4 * i, 31, 0⟩, (d.evqWord i).toNat)] ∧
    d.timeFields (0x3040 + 4 * i) = [] := by
  rcases (by omega : i = 0 ∨ i = 1 ∨ i = 2 ∨ i = 3) with rfl | rfl | rfl | rfl
  all_goals exact ⟨rfl, by decide +kernel, rfl, rfl⟩

/-- The four words of INT_EVQ show the oldest entry, and 0 where there is none. -/
theorem Dev.plainWord_evq (d : Dev) {i : Nat} (hi : i < 4) : d.plainWord (0x3040 + 4 * i) = d.evqWord i := by
  obtain ⟨hslow, hrws, hfab, htime⟩ := d.evq_view hi
  have hread : d.readWord (0x3040 + 4 * i) = d.evqWord i := by
    rw [Dev.readWord, if_pos (by omega), hfab, overlay, List.foldl_append]
    exact Fld.set_whole rfl rfl _ _
  have hview : ∀ v x : Word, (v &&& ~~~(0 : Word)) ||| (x &&& 0) = v := fun v x => by
    rw [word_and_not_zero, show x &&& (0 : Word) = 0 from BitVec.and_zero]
    exact BitVec.or_zero
  rw [Dev.plainWord, if_pos (by omega), Dev.ctlWord, hslow, hrws, htime, hread]
  simp only [Bool.false_eq_true, if_false, overlay, List.foldl_nil, hview, ite_self]

theorem Dev.evqWord_eq (d : Dev) (i : Nat) : d.evqWord i = (d.evq.q.head?.map fun e => e.words.getD i 0).getD 0 := by
  unfold Dev.evqWord
  cases d.evq.q <;> rfl

/-- A read of INT_EVQ0 takes the oldest event and latches its other words (R72). -/
theorem evqPop_pops (s : State) (h : Agent) (hp : s.dev.evq.posts = []) (hlost : s.dev.evq.lostPend = 0) :
    ∃ t, Runs (.evqPop h) s t ∧ t.dev.live = s.dev.live ∧ t.dev.evq.q = s.dev.evq.q.tail ∧
      t.dev.fab.rdata = [s.dev.evqWord 0] ∧
      ∀ i, i < 3 → Sparse.get 0 t.dev.fab.latch (latchKey h (0x3044 + 4 * i)) = s.dev.evqWord (i + 1) := by
  have hl : latchOf 0x3040 = some (0x3040, 3) := rfl
  have hrun := runs_of_onDev (c := .evqPop h) (show execEvqPop h s = onDev _ s from rfl)
  rw [readCmd_latched s h hl (by decide), Dev.ownRead_first _ h hl, if_pos rfl] at hrun
  refine ⟨_, hrun, ?_, ?_, ?_, fun i hi => ?_⟩
  · rw [Dev.settle_live, Dev.setRdata_live, Dev.latched_live]
  · show (Evq.settle (s.dev.latched h 0x3040 3).evq.pop _).q = _
    rw [Dev.latched_evq, Evq.settle_nil s.dev.evq.pop _ hp hlost]
    rfl
  · rw [Dev.settle_fab, Dev.setRdata_fab, s.dev.plainWord_evq (i := 0) (by decide)]
  · rw [Dev.settle_fab, Dev.setRdata_fab]
    have hget := s.dev.latched_get h 0x3040 3 hi
    rw [s.dev.plainWord_evq (by omega)] at hget
    rwa [show 0x3040 + 4 * (i + 1) = 0x3044 + 4 * i by omega] at hget

/-- Settles O29: a read by what its word is: one of the register file, one of the slow domain, one that is latched with others,
and the head of the event FIFO. -/
theorem readsClearLatchAndPop : Obligations.ReadsClearLatchAndPop := by
  refine ⟨fun s h w h4 hw hl hd hs => ?_, fun s h w h4 hw hl hs hv => ?_, fun s h w first n hl h4 hne => ?_,
    fun s h hp hlost => ?_⟩
  · obtain ⟨t, hrun, hdata, hword, hframe⟩ := rcRead_clears s h w h4 hw hl hd hs
    have hbit : ∀ i, i < 32 → (t.dev.word w).getLsbD i =
        (((Seen s w).word w).getLsbD i && !(maskOf (· == .rc) w).getLsbD i) := fun i hi => by
      rw [hword, if_pos rfl, BitVec.getLsbD_and, BitVec.getLsbD_not]
      simp [hi]
    refine ⟨t, hrun, hdata, fun a ha => ?_, fun i hi hb => ?_, fun i hi hb => ?_, hframe⟩
    · rw [hword, if_neg ha]
    · rw [hbit i hi, (maskOf_getLsbD _ _ _ hi).mpr hb]
      simp
    · rw [hbit i hi, Bool.eq_false_iff.mpr fun hm => hb ((maskOf_getLsbD _ _ _ hi).mp hm)]
      simp
  · obtain ⟨t, hrun, hdata, hcopy, hword, hsame⟩ := rcRead_slow s h w h4 hl hs hv
    obtain ⟨hfound, hlate, hrc, hedge⟩ := s.dev.slowSync_finds hs
    refine ⟨t, hrun, _, hdata, hfound, hlate, fun i hi hb => ?_, fun i hi hb => ?_, ?_⟩
    · have hm := (maskOf_getLsbD _ _ _ hi).mpr hb
      rw [hcopy, hword, BitVec.getLsbD_and, BitVec.getLsbD_not, BitVec.getLsbD_and, BitVec.getLsbD_not, BitVec.getLsbD_and,
        hm, hrc i hi hb]
      simp [hi]
    · have hm := Bool.eq_false_iff.mpr fun hm => hb ((maskOf_getLsbD _ _ _ hi).mp hm)
      rw [hcopy, BitVec.getLsbD_and, BitVec.getLsbD_not, hm]
      simp [hi]
    · rw [onlyFields_iff]
      exact (hedge.mono (by simp)).trans (hsame.mono fun f hf => List.mem_cons_of_mem _ hf)
  · have hn := latchOf_range hl
    by_cases hf : w.val = first
    · subst hf
      simp only [List.mem_cons, List.not_mem_nil, or_false] at hne
      obtain ⟨t, hrun, hdata, hlatch, hlive⟩ := latchedRead_first s h w n hl h4 hne
      refine ⟨t, hrun, hlive, fun _ => ⟨hdata, fun i hi => ?_⟩, fun hf => absurd rfl hf, fun g a hg ha => ?_⟩
      · rw [hlatch, Dev.latched_get _ _ _ _ hi]
      · rw [hlatch, Dev.latched_other _ hg (by omega) ha]
    · obtain ⟨t, hrun, hdata, hlatch, hlive⟩ := latchedRead_later s h w first n hl h4 hf
      exact ⟨t, hrun, fun _ => hlive, fun hf' => absurd hf' hf, fun _ => ⟨hdata, hlatch⟩, fun g a _ _ => by rw [hlatch]⟩
  · simp only [← Dev.evqWord_eq]
    exact evqPop_pops s h hp hlost

end Sys2Proof.Machine
end

section
-- Proofs that wait for one another's kernel checks run one at a time, which keeps the threads and their memory few.
set_option Elab.async false
/-! The instructions of the engines that write registers only: results, frames and flags (R171 to R174, R183 to R187, R191). -/
namespace Sys2Proof.Machine
open Sys2Proof.Claims

/-! ### The frame of the forms -/

/-- What the form of the register instructions can do, in the words of the statements. -/
theorem engOp_frame (i : Instr) (e : Eng) (f : EngS → EngS) (s : State) :
    ∃ t, engOp i e f s = .next t ∧ EngineFrame e s t ∧ t.dev.en e = (f ((s.dev.en e).atIssue i)).advance := by
  obtain ⟨t, ht, ⟨hnv, hp, hq, hd, hb⟩, he⟩ := engOp_next i e f s
  exact ⟨t, ht, ⟨⟨hnv, hp, hq, hd⟩, hb⟩, he⟩

/-- What the form of the control instructions can do, in the words of the statements. -/
theorem ctlOp_frame (i : Instr) (e : Eng) (f : EngS → EngS) (s : State) :
    ∃ t, ctlOp i e f s = .next t ∧ EngineFrame e s t ∧ t.dev.en e = f ((s.dev.en e).atIssue i) := by
  obtain ⟨t, ht, ⟨hnv, hp, hq, hd, hb⟩, he⟩ := ctlOp_next i e f s
  exact ⟨t, ht, ⟨⟨hnv, hp, hq, hd⟩, hb⟩, he⟩

@[simp] theorem EngS.advance_getS (g : EngS) (r : Nat) : g.advance.getS r = g.getS r := rfl
@[simp] theorem EngS.advance_getA (g : EngS) (r : Nat) : g.advance.getA r = g.getA r := rfl
@[simp] theorem EngS.advance_getV (g : EngS) (r i : Nat) : g.advance.getV r i = g.getV r i := rfl
@[simp] theorem EngS.advance_getP (g : EngS) (r : Nat) : g.advance.getP r = g.getP r := rfl
@[simp] theorem EngS.advance_getW (g : EngS) (r i : Nat) : g.advance.getW r i = g.getW r i := rfl

/-! ### Words as numbers -/

theorem shiftLeft_eq_ofNat {w : Nat} (x : BitVec w) (n : Nat) : x <<< n = BitVec.ofNat w (x.toNat * 2 ^ n) := by
  apply BitVec.eq_of_toNat_eq
  rw [BitVec.toNat_shiftLeft, BitVec.toNat_ofNat, Nat.shiftLeft_eq]

theorem ushiftRight_eq_ofNat {w : Nat} (x : BitVec w) (n : Nat) : x >>> n = BitVec.ofNat w (x.toNat / 2 ^ n) := by
  apply BitVec.eq_of_toNat_eq
  rw [BitVec.toNat_ushiftRight, Nat.shiftRight_eq_div_pow, BitVec.toNat_ofNat,
    Nat.mod_eq_of_lt (Nat.lt_of_le_of_lt (Nat.div_le_self _ _) x.isLt)]

theorem sshiftRight_eq_ofInt {w : Nat} (x : BitVec w) (n : Nat) :
    x.sshiftRight n = BitVec.ofInt w (x.toInt / 2 ^ n) := by
  rw [← BitVec.ofInt_toInt (x := x.sshiftRight n), BitVec.toInt_sshiftRight, Int.shiftRight_eq_div_pow]
  norm_num

theorem add_eq_ofInt {w : Nat} (x y : BitVec w) : x + y = BitVec.ofInt w (x.toInt + y.toInt) := by
  rw [BitVec.ofInt_add, BitVec.ofInt_toInt, BitVec.ofInt_toInt]

theorem mul_eq_ofInt {w : Nat} (x y : BitVec w) : x * y = BitVec.ofInt w (x.toInt * y.toInt) := by
  rw [BitVec.ofInt_mul, BitVec.ofInt_toInt, BitVec.ofInt_toInt]

theorem sub_eq_ofInt {w : Nat} (x y : BitVec w) : x - y = BitVec.ofInt w (x.toInt - y.toInt) := by
  rw [BitVec.sub_eq_add_neg, Int.sub_eq_add_neg, BitVec.ofInt_add, BitVec.ofInt_neg, BitVec.ofInt_toInt, BitVec.ofInt_toInt]

/-- The signed minimum by comparison. -/
theorem ite_slt_eq_min {w : Nat} (x y : BitVec w) :
    (if x.slt y = true then x else y) = BitVec.ofInt w (min x.toInt y.toInt) := by
  by_cases h : x.toInt < y.toInt
  · rw [if_pos (BitVec.slt_iff_toInt_lt.mpr h), min_eq_left h.le, BitVec.ofInt_toInt]
  · rw [if_neg (fun hs => h (BitVec.slt_iff_toInt_lt.mp hs)), min_eq_right (not_lt.mp h), BitVec.ofInt_toInt]

/-- The signed maximum by comparison. -/
theorem ite_slt_eq_max {w : Nat} (x y : BitVec w) :
    (if x.slt y = true then y else x) = BitVec.ofInt w (max x.toInt y.toInt) := by
  by_cases h : x.toInt < y.toInt
  · rw [if_pos (BitVec.slt_iff_toInt_lt.mpr h), max_eq_right h.le, BitVec.ofInt_toInt]
  · rw [if_neg (fun hs => h (BitVec.slt_iff_toInt_lt.mp hs)), max_eq_left (not_lt.mp h), BitVec.ofInt_toInt]

/-- The unsigned minimum by comparison. -/
theorem ite_ult_eq_min {w : Nat} (x y : BitVec w) :
    (if x.ult y = true then x else y) = BitVec.ofNat w (min x.toNat y.toNat) := by
  by_cases h : x.toNat < y.toNat
  · rw [if_pos (BitVec.ult_iff_lt.mpr h), min_eq_left h.le, BitVec.ofNat_toNat, BitVec.setWidth_eq]
  · rw [if_neg (fun hs => h (BitVec.ult_iff_lt.mp hs)), min_eq_right (not_lt.mp h), BitVec.ofNat_toNat, BitVec.setWidth_eq]

/-- The unsigned maximum by comparison. -/
theorem ite_ult_eq_max {w : Nat} (x y : BitVec w) :
    (if x.ult y = true then y else x) = BitVec.ofNat w (max x.toNat y.toNat) := by
  by_cases h : x.toNat < y.toNat
  · rw [if_pos (BitVec.ult_iff_lt.mpr h), max_eq_right h.le, BitVec.ofNat_toNat, BitVec.setWidth_eq]
  · rw [if_neg (fun hs => h (BitVec.ult_iff_lt.mp hs)), max_eq_left (not_lt.mp h), BitVec.ofNat_toNat, BitVec.setWidth_eq]

/-- The kind bits of an address (R171). -/
theorem toNat_and_kind (a : Word) : (a &&& 0xC0000000).toNat = 2 ^ 30 * (a.toNat / 2 ^ 30) := by
  have ha := a.isLt
  apply Nat.eq_of_testBit_eq
  intro i
  rw [BitVec.toNat_and, Nat.testBit_and, Nat.mul_comm, ← Nat.shiftLeft_eq, ← Nat.shiftRight_eq_div_pow,
    Nat.testBit_shiftLeft, Nat.testBit_shiftRight, show (0xC0000000 : Word).toNat = (2 ^ 2 - 1) <<< 30 from rfl,
    Nat.testBit_shiftLeft, Nat.testBit_two_pow_sub_one]
  by_cases hi : 30 ≤ i
  · by_cases hi2 : i - 30 < 2
    · simp [hi, hi2]
    · have hz : a.toNat.testBit i = false := Nat.testBit_lt_two_pow (lt_of_lt_of_le ha (Nat.pow_le_pow_right (by decide) (by omega)))
      simp [hi, hi2, hz]
  · simp [hi]

/-- An address keeps its kind bits and its position moves modulo 2^30 (R171). -/
theorem movePos_eq (a x : Word) : movePos a x =
    BitVec.ofNat 32 (a.toNat / 2 ^ 30 * 2 ^ 30 + (a.toNat + x.toNat) % 2 ^ 30) := by
  have ha := a.isLt
  have hlow : ((a + x) &&& 0x3FFFFFFF).toNat = (a.toNat + x.toNat) % 2 ^ 30 := by
    rw [BitVec.toNat_and, show (0x3FFFFFFF : Word).toNat = 2 ^ 30 - 1 from rfl, Nat.and_two_pow_sub_one_eq_mod, BitVec.toNat_add,
      Nat.mod_mod_of_dvd _ (by decide)]
  have hlt : (a.toNat + x.toNat) % 2 ^ 30 < 2 ^ 30 := Nat.mod_lt _ (by decide)
  apply BitVec.eq_of_toNat_eq
  rw [movePos, BitVec.toNat_or, toNat_and_kind, hlow, ← Nat.two_pow_add_eq_or_of_lt hlt, BitVec.toNat_ofNat]
  omega

/-- The position moves by a signed immediate (R171). -/
theorem movePos_signExtend (a : Word) (imm : BitVec 12) : movePos a (imm.signExtend 32) =
    BitVec.ofNat 32 (a.toNat / 2 ^ 30 * 2 ^ 30 + (((a.toNat : Int) + imm.toInt) % 2 ^ 30).toNat) := by
  have hx : ((imm.signExtend 32).toNat : Int) = imm.toInt % 2 ^ 32 := by
    have h := BitVec.toInt_signExtend_of_le (x := imm) (v := 32) (by decide)
    have hb := BitVec.toInt_eq_toNat_bmod (imm.signExtend 32)
    have hl := (imm.signExtend 32).isLt
    have he := Int.bmod_emod (x := ((imm.signExtend 32).toNat : Int)) (m := 2 ^ 32)
    rw [← h, hb]
    exact (he.trans (Int.emod_eq_of_lt (by omega) (by exact_mod_cast hl))).symm
  rw [movePos_eq]
  congr 2
  omega

theorem signExtend_eq_ofInt {w v : Nat} (x : BitVec w) (h : w ≤ v) : x.signExtend v = BitVec.ofInt v x.toInt := by
  rw [← BitVec.ofInt_toInt (x := x.signExtend v), BitVec.toInt_signExtend_of_le h]

theorem add_signExtend_eq_ofInt {w v : Nat} (x : BitVec v) (y : BitVec w) (h : w ≤ v) :
    x + y.signExtend v = BitVec.ofInt v (x.toInt + y.toInt) := by
  rw [add_eq_ofInt, BitVec.toInt_signExtend_of_le h]

theorem zeroExtend_shiftLeft_eq_ofNat {w : Nat} (y : BitVec w) (n : Nat) :
    y.zeroExtend 32 <<< n = BitVec.ofNat 32 (y.toNat * 2 ^ n) := by
  apply BitVec.eq_of_toNat_eq
  rw [BitVec.toNat_shiftLeft, BitVec.toNat_setWidth, BitVec.toNat_ofNat, Nat.shiftLeft_eq, Nat.mod_mul_mod]

/-! ### Scalar, address and predicate results (R171, R172, R191) -/

/-- A register instruction that writes `x` into the scalar register `d`. -/
theorem writesScalar {s : State} {i : Instr} {e : Eng} {d : SReg} {x : Word} {v : EngS → Word}
    (h : exec i s = engOp i e (fun g => g.setS d (v g)) s) (hx : v ((s.dev.en e).atIssue i) = x) :
    ∃ t, exec i s = .next t ∧ EngineFrame e s t ∧ OnlyScalar d (s.dev.en e) (t.dev.en e) ∧ (t.dev.en e).getS d = x := by
  obtain ⟨t, ht, hf, he⟩ := engOp_frame i e (fun g => g.setS d (v g)) s
  refine ⟨t, h.trans ht, hf, ?_, ?_⟩
  · rw [he]
    refine ⟨rfl, rfl, rfl, rfl, rfl, fun q hq => ?_⟩
    simp [Ne.symm hq]
  · rw [he]
    simp [hx]

/-- A register instruction that writes `x` into the address register `d`. -/
theorem writesAddress {s : State} {i : Instr} {e : Eng} {d : AReg} {x : Word} {v : EngS → Word}
    (h : exec i s = engOp i e (fun g => g.setA d (v g)) s) (hx : v ((s.dev.en e).atIssue i) = x) :
    ∃ t, exec i s = .next t ∧ EngineFrame e s t ∧ OnlyAddress d (s.dev.en e) (t.dev.en e) ∧ (t.dev.en e).getA d = x := by
  obtain ⟨t, ht, hf, he⟩ := engOp_frame i e (fun g => g.setA d (v g)) s
  refine ⟨t, h.trans ht, hf, ?_, ?_⟩
  · rw [he]
    refine ⟨rfl, rfl, rfl, rfl, rfl, fun q hq => ?_⟩
    simp [Ne.symm hq]
  · rw [he]
    simp [hx]

/-- A register instruction that writes `x` into the predicate register `d`; p0 stays as it is (R121). -/
theorem writesPredicate {s : State} {i : Instr} {e : Eng} {d : PReg} {b : Nat → Bool} {v : EngS → BitVec 8}
    (h : exec i s = engOp i e (fun g => g.setP d (v g)) s)
    (hx : ∀ k, k < 8 → (v ((s.dev.en e).atIssue i)).getLsbD k = b k) :
    ∃ t, exec i s = .next t ∧ EngineFrame e s t ∧ OnlyPredicate d (s.dev.en e) (t.dev.en e) ∧
      ∀ k, k < 8 → ((t.dev.en e).getP d).getLsbD k = if d.val = 0 then true else b k := by
  obtain ⟨t, ht, hf, he⟩ := engOp_frame i e (fun g => g.setP d (v g)) s
  refine ⟨t, h.trans ht, hf, ?_, fun k hk => ?_⟩
  · rw [he]
    refine ⟨by simp, by simp, by simp, by simp, by simp, fun q hq => ?_⟩
    simp [EngS.getP_setP, Ne.symm hq]
  · rw [he]
    by_cases hd : d.val = 0
    · have h0 : ∀ g : EngS, (g.getP d.val).getLsbD k = true := fun g => by
        rw [hd, EngS.getP_zero]
        interval_cases k <;> rfl
      rw [EngS.advance_getP, h0, if_pos hd]
    · simp [EngS.getP_setP, hd, hx k hk]

/-- VINS writes the one lane its immediate names (R172). -/
theorem vins_writes (s : State) (e : Eng) (d : VReg) (a : SReg) (n : Lane) :
    ∃ t, exec (.vins e d a n) s = .next t ∧ EngineFrame e s t ∧
      (t.dev.en e).s = (s.dev.en e).s ∧ (t.dev.en e).a = (s.dev.en e).a ∧ (t.dev.en e).p = (s.dev.en e).p ∧
      (t.dev.en e).w = (s.dev.en e).w ∧ (t.dev.en e).flags = (s.dev.en e).flags ∧
      ∀ q k, k < 8 → (t.dev.en e).getV q k =
        if q = d.val ∧ k = n.val then (s.dev.en e).getS a else (s.dev.en e).getV q k := by
  obtain ⟨t, ht, hf, he⟩ := engOp_frame (.vins e d a n) e (fun g => g.setV d n (g.getS a)) s
  refine ⟨t, ht, hf, ?_⟩
  rw [he]
  refine ⟨rfl, rfl, rfl, rfl, rfl, fun q k hk => ?_⟩
  rw [EngS.advance_getV, EngS.getV_setV _ _ _ _ _ _ n.isLt hk]
  simp [eq_comm]

theorem scalarResult_writes (s : State) (i : Instr) (e : Eng) (d : SReg) (x : Word) (h : scalarResult s i = some (e, d, x)) :
    ∃ t, exec i s = .next t ∧ EngineFrame e s t ∧ OnlyScalar d (s.dev.en e) (t.dev.en e) ∧ (t.dev.en e).getS d = x := by
  unfold scalarResult at h
  split at h <;> simp only [Option.some.injEq, Prod.mk.injEq, reduceCtorEq] at h
  all_goals obtain ⟨rfl, rfl, rfl⟩ := h
  case h_1 => exact writesScalar rfl (add_eq_ofInt _ _)
  case h_2 => exact writesScalar rfl (sub_eq_ofInt _ _)
  case h_3 | h_4 | h_5 => exact writesScalar rfl rfl
  case h_6 => exact writesScalar rfl (shiftLeft_eq_ofNat _ _)
  case h_7 => exact writesScalar rfl (sshiftRight_eq_ofInt _ _)
  case h_8 => exact writesScalar rfl (ushiftRight_eq_ofNat _ _)
  case h_9 => exact writesScalar rfl (mul_eq_ofInt _ _)
  case h_10 => exact writesScalar rfl (ite_slt_eq_min _ _)
  case h_11 => exact writesScalar rfl (ite_slt_eq_max _ _)
  case h_12 => exact writesScalar rfl (ite_ult_eq_min _ _)
  case h_13 => exact writesScalar rfl (ite_ult_eq_max _ _)
  case h_14 => exact writesScalar rfl (add_signExtend_eq_ofInt _ _ (by decide))
  case h_15 => exact writesScalar rfl (by rw [BitVec.ofNat_toNat]; rfl)
  case h_16 => exact writesScalar rfl (by rw [BitVec.ofNat_toNat]; rfl)
  case h_17 _ _ _ right sh =>
    cases right
    · exact writesScalar rfl (shiftLeft_eq_ofNat _ _)
    · exact writesScalar rfl (sshiftRight_eq_ofInt _ _)
  case h_18 imm => exact writesScalar rfl (zeroExtend_shiftLeft_eq_ofNat imm 12)
  case h_19 => exact writesScalar rfl (signExtend_eq_ofInt _ (by decide))
  case h_20 => exact writesScalar rfl rfl
  case h_21 => exact writesScalar rfl (BitVec.ofNat_toNat _ _).symm
  case h_22 => exact writesScalar rfl rfl
  case h_23 => exact writesScalar rfl rfl
  case h_24 => exact writesScalar rfl (BitVec.ofNat_toNat _ _).symm
  case h_25 | h_26 => exact writesScalar rfl rfl

theorem addressResult_writes (s : State) (i : Instr) (e : Eng) (d : AReg) (x : Word) (h : addressResult s i = some (e, d, x)) :
    ∃ t, exec i s = .next t ∧ EngineFrame e s t ∧ OnlyAddress d (s.dev.en e) (t.dev.en e) ∧ (t.dev.en e).getA d = x := by
  unfold addressResult at h
  split at h <;> simp only [Option.some.injEq, Prod.mk.injEq, reduceCtorEq] at h
  all_goals obtain ⟨rfl, rfl, rfl⟩ := h
  case h_1 => exact writesAddress rfl (movePos_eq _ _)
  case h_2 => exact writesAddress rfl (movePos_signExtend _ _)
  case h_3 => exact writesAddress rfl rfl

theorem predicateResult_writes (s : State) (i : Instr) (e : Eng) (d : PReg) (b : Nat → Bool)
    (h : predicateResult s i = some (e, d, b)) :
    ∃ t, exec i s = .next t ∧ EngineFrame e s t ∧ OnlyPredicate d (s.dev.en e) (t.dev.en e) ∧
      ∀ k, k < 8 → ((t.dev.en e).getP d).getLsbD k = if d.val = 0 then true else b k := by
  unfold predicateResult at h
  split at h <;> simp only [Option.some.injEq, Prod.mk.injEq, reduceCtorEq] at h
  all_goals obtain ⟨rfl, rfl, rfl⟩ := h
  case h_1 => exact writesPredicate rfl fun k _ => BitVec.getLsbD_and
  case h_2 => exact writesPredicate rfl fun k _ => BitVec.getLsbD_or
  case h_3 => exact writesPredicate rfl fun k _ => BitVec.getLsbD_xor
  case h_4 => exact writesPredicate rfl fun k hk => by simp [hk]
  case h_5 => exact writesPredicate rfl fun k hk => by simp [hk]
  case h_6 => exact writesPredicate rfl fun k hk => by simp [hk]
  case h_7 => exact writesPredicate rfl fun k _ => rfl

/-- Settles O1: each row is a register instruction that writes one scalar, and VINS writes one lane. -/
theorem scalarAndInsertInstructionsWriteTheirResult : Obligations.ScalarAndInsertInstructionsWriteTheirResult :=
  ⟨scalarResult_writes, vins_writes⟩

/-- Settles O5, by the rows that write an address register and those that write a predicate register. -/
theorem addressAndPredicateInstructionsWriteTheirResult : Obligations.AddressAndPredicateInstructionsWriteTheirResult :=
  ⟨addressResult_writes, predicateResult_writes⟩

end Sys2Proof.Machine
end

section
-- Proofs that wait for one another's kernel checks run one at a time, which keeps the threads and their memory few.
set_option Elab.async false
/-! The lane-wise instructions of the engines: vector, compare, wide and fused audio (R172 to R174, R183 to R187). -/
namespace Sys2Proof.Machine
open Sys2Proof.Claims

/-- The end of a command enters what it has posted (R71). -/
theorem Dev.settle_evq (d : Dev) : d.settle.evq = d.evq.settle d.schTick := rfl

/-! ### Saturation -/

theorem sat31_eq_clamp31 (y : Int) : sat31 y = clamp31 y := by
  unfold sat31 clamp31 flgQSAT
  rcases lt_or_ge y (-(2 ^ 31)) with hlow | hlow
  · rw [if_neg (by omega), if_pos hlow, if_neg (by omega), min_eq_right (by omega), max_eq_left hlow.le]
    rfl
  · rcases lt_or_ge (2 ^ 31 - 1) y with hhigh | hhigh
    · rw [if_pos hhigh, if_neg (by omega), min_eq_left hhigh.le, max_eq_right (by omega)]
      rfl
    · rw [if_neg (by omega), if_neg (by omega), if_pos ⟨hlow, hhigh⟩, min_eq_right hhigh, max_eq_right hlow]

theorem sat72_eq_clamp72 (y : Int) : sat72 y = clamp72 y := by
  unfold sat72 clamp72 flgWSAT
  rcases lt_or_ge y (-(2 ^ 71)) with hlow | hlow
  · rw [if_neg (by omega), if_pos hlow, if_neg (by omega), min_eq_right (by omega), max_eq_left hlow.le]
  · rcases lt_or_ge (2 ^ 71 - 1) y with hhigh | hhigh
    · rw [if_pos hhigh, if_neg (by omega), min_eq_left hhigh.le, max_eq_right (by omega)]
    · rw [if_neg (by omega), if_neg (by omega), if_pos ⟨hlow, hhigh⟩, min_eq_right hhigh, max_eq_right hlow]

/-! ### The sticky flags of the lanes (R128) -/

theorem foldl_or_getLsbD (c : Nat → Bool) (f : Nat → Flg) (k : Nat) (ls : List Nat) (acc : Flg) :
    (ls.foldl (fun acc i => if c i then acc ||| f i else acc) acc).getLsbD k =
      (acc.getLsbD k || ls.any fun i => c i && (f i).getLsbD k) := by
  induction ls generalizing acc with
  | nil => simp
  | cons i t ih =>
    rw [List.foldl_cons, ih, List.any_cons]
    by_cases hc : c i = true <;> simp [hc, Bool.or_assoc]

/-- An engine whose flags are those of the enabled lanes of `g`. -/
theorem flagsFrom_of_laneFlags {p : Nat} {f : Nat → Flg} {g g' : EngS} (h : g'.flags = g.laneFlags p f) :
    FlagsFrom p f g g' := by
  intro k _
  rw [h]
  exact foldl_or_getLsbD (fun i => g.lane p i) f k lanes g.flags

/-- Lanes that set no flag leave the flags. -/
theorem EngS.laneFlags_zero (g : EngS) (p : Nat) : g.laneFlags p (fun _ => 0) = g.flags := by
  apply BitVec.eq_of_getLsbD_eq
  intro k _
  refine (foldl_or_getLsbD (fun i => g.lane p i) (fun _ => 0) k lanes g.flags).trans ?_
  simp

/-! ### Vector instructions -/

theorem EngS.vmap_onlyLanes (g : EngS) (p d : Nat) (f : Nat → Word × Flg) : OnlyLanes p d 1 g (g.vmap p d f) := by
  refine ⟨by simp, by simp, by simp, by simp, fun q i hi h => ?_⟩
  rw [EngS.getV_vmap _ _ _ _ _ _ hi, if_neg]
  rintro ⟨rfl, hl⟩
  rcases h with h | h
  · omega
  · rw [hl] at h
    cases h

/-- The engine after a vector instruction has the lanes and the flags of `vmap`. -/
theorem writesLanes_of_frame {s t : State} {i : Instr} {e : Eng} {d : VReg} {p : PReg} {f : Nat → Word × Flg}
    (ht : exec i s = .next t) (hf : EngineFrame e s t)
    (he : t.dev.en e = (((s.dev.en e).atIssue i).vmap p d f).advance) : WritesLanes s i e d p f := by
  refine ⟨t, ht, hf, ?_, fun k hk hl => ?_, ?_⟩
  · rw [he]
    exact ((s.dev.en e).atIssue i).vmap_onlyLanes p d f
  · rw [he, EngS.advance_getV, EngS.getV_vmap _ _ _ _ _ _ hk]
    exact if_pos ⟨rfl, hl⟩
  · rw [he]
    exact flagsFrom_of_laneFlags (((s.dev.en e).atIssue i).flags_vmap p d f)

/-- A vector instruction over the registers of its engine. -/
theorem writesLanes {s : State} {i : Instr} {e : Eng} {d : VReg} {p : PReg} {f : Nat → Word × Flg} {v : EngS → Nat → Word × Flg}
    (h : exec i s = engOp i e (fun g => g.vmap p d (v g)) s) (hx : ∀ k, v ((s.dev.en e).atIssue i) k = f k) :
    WritesLanes s i e d p f := by
  obtain ⟨t, ht, hf, he⟩ := engOp_frame i e (fun g => g.vmap p d (v g)) s
  rw [funext hx] at he
  exact writesLanes_of_frame (h.trans ht) hf he

/-! ### Instructions that read the coefficients of their job -/

/-- What an effect `f` that touches registers, events and engine `e` can do, between the issue of the instruction and the next
instruction. -/
theorem devOp_only (i : Instr) (e : Eng) (f : Dev → Dev) (s : State) (ho : (f (s.dev.issue i e)).outer = (s.dev.issue i e).outer)
    (hen : ∀ q, q ≠ e.val → (f (s.dev.issue i e)).en q = (s.dev.issue i e).en q) :
    ∃ t, devOp i e f s = .next t ∧ EngineOnly e s t ∧ t.dev.en e = ((f (s.dev.issue i e)).en e).advance ∧
      t.dev.live = (f (s.dev.issue i e)).live ∧ t.dev.evq = (f (s.dev.issue i e)).evq.settle s.dev.schTick := by
  have hout : (f (s.dev.issue i e)).outer = s.dev.outer := ho.trans (Dev.issue_outer _ _ _)
  have htick : (f (s.dev.issue i e)).tick = s.dev.tick := show (Dev.outer _).tick = (Dev.outer _).tick by rw [hout]
  refine ⟨_, rfl, ⟨rfl, rfl, fun q hne => ?_, ?_⟩, ?_, ?_, ?_⟩
  · rw [Dev.en_of_rest (Dev.settle_rest _), Dev.en_modEn, if_neg (Ne.symm hne), hen q hne, Dev.issue_en, if_neg (Ne.symm hne)]
  · apply Dev.eq_of_outer
    rw [Dev.settle_outer, Dev.modEn_outer, hout]
  · rw [Dev.en_of_rest (Dev.settle_rest _), Dev.en_modEn, if_pos rfl]
  · rw [Dev.settle_live, Dev.modEn_live]
  · rw [Dev.settle_evq, Dev.modEn_evq, Dev.schTick, Dev.modEn_tick, htick, Dev.schTick]

/-- What an effect `f` that touches nothing but engine `e` can do. -/
theorem devOp_frame (i : Instr) (e : Eng) (f : Dev → Dev) (s : State) (ho : (f (s.dev.issue i e)).outer = (s.dev.issue i e).outer)
    (hl : (f (s.dev.issue i e)).live = (s.dev.issue i e).live) (hq : (f (s.dev.issue i e)).evq = (s.dev.issue i e).evq)
    (hen : ∀ q, q ≠ e.val → (f (s.dev.issue i e)).en q = (s.dev.issue i e).en q) :
    ∃ t, devOp i e f s = .next t ∧ EngineFrame e s t ∧ t.dev.en e = ((f (s.dev.issue i e)).en e).advance := by
  obtain ⟨t, ht, honly, he, hlive, hevq⟩ := devOp_only i e f s ho hen
  refine ⟨t, ht, ⟨honly, fun h => ?_⟩, he⟩
  rw [hlive, hevq, hl, hq]
  simp only [Dev.issue, Dev.breakpoint_off _ _ h, Dev.modEn_live, Dev.modEn_evq, and_self]

/-- An instruction acts on the device at its issue alone. -/
theorem devOp_congr {i : Instr} {e : Eng} {f f' : Dev → Dev} {s : State} (h : f (s.dev.issue i e) = f' (s.dev.issue i e)) :
    devOp i e f s = devOp i e f' s := by
  rw [devOp, devOp, onDev, onDev, h]

theorem Dev.issue_en_self (d : Dev) (i : Instr) (e : Nat) : (d.issue i e).en e = (d.en e).atIssue i := by
  rw [Dev.issue_en, if_pos rfl]
  rfl

/-- What an effect on the engine that depends on the device at the issue can do. -/
theorem devOp_modEn_frame (i : Instr) (e : Eng) (f : Dev → EngS → EngS) (s : State) :
    ∃ t, devOp i e (fun D => D.modEn e (f D)) s = .next t ∧ EngineFrame e s t ∧
      t.dev.en e = (f (s.dev.issue i e) ((s.dev.en e).atIssue i)).advance := by
  obtain ⟨t, ht, hf, he⟩ := devOp_frame i e (fun D => D.modEn e (f D)) s (Dev.modEn_outer _ _ _) (Dev.modEn_live _ _ _)
    (Dev.modEn_evq _ _ _) fun q hq => by rw [Dev.en_modEn, if_neg (Ne.symm hq)]
  refine ⟨t, ht, hf, ?_⟩
  rw [he, Dev.en_modEn, if_pos rfl, Dev.issue_en_self]

/-- What a fused operation can do. -/
theorem audioOp_frame (i : Instr) (e : Eng) (f : (Nat → Nat → Int) → EngS → EngS) (cix : BitVec 10) (lane : Bool) (s : State) :
    ∃ t, audioOp i e f cix lane s = .next t ∧ EngineFrame e s t ∧
      t.dev.en e = (f (fun c l => ((s.dev.issue i e).coef e cix lane c l).toInt) ((s.dev.en e).atIssue i)).advance :=
  devOp_modEn_frame i e (fun D => f fun c l => (D.coef e cix lane c l).toInt) s

/-- A fused operation that writes one vector register. -/
theorem audioWritesLanes {s : State} {i : Instr} {e : Eng} {d : VReg} {p : PReg} {f : Nat → Word × Flg}
    {v : (Nat → Nat → Int) → EngS → Nat → Word × Flg} {cix : BitVec 10} {lane : Bool}
    (h : exec i s = audioOp i e (fun co g => g.vmap p d (v co g)) cix lane s)
    (hx : ∀ k, v (fun c l => ((s.dev.issue i e).coef e cix lane c l).toInt) ((s.dev.en e).atIssue i) k = f k) :
    WritesLanes s i e d p f := by
  obtain ⟨t, ht, hf, he⟩ := audioOp_frame i e (fun co g => g.vmap p d (v co g)) cix lane s
  rw [funext hx] at he
  exact writesLanes_of_frame (h.trans ht) hf he

/-! ### The results of the vector instructions -/

theorem saturatingResult_writes (s : State) (i : Instr) (e : Eng) (d : VReg) (p : PReg) (f : Nat → Word × Flg)
    (h : saturatingResult s i = some (e, d, p, f)) : WritesLanes s i e d p f := by
  unfold saturatingResult at h
  split at h <;> simp only [Option.some.injEq, Prod.mk.injEq, reduceCtorEq] at h
  all_goals obtain ⟨rfl, rfl, rfl, rfl⟩ := h
  case h_1 | h_2 | h_3 | h_7 => exact writesLanes rfl fun k => sat31_eq_clamp31 _
  case h_9 | h_10 => exact writesLanes rfl fun k => by rw [qmulOp, sat31_eq_clamp31]; rfl
  case h_4 => exact writesLanes rfl fun k => by rw [sat31_eq_clamp31, Int.natCast_natAbs]; rfl
  case h_5 => exact writesLanes rfl fun k => by rw [ite_slt_eq_min]; rfl
  case h_6 => exact writesLanes rfl fun k => by rw [ite_slt_eq_max]; rfl
  case h_8 => exact writesLanes rfl fun k => rfl

theorem integerResult_writes (s : State) (i : Instr) (e : Eng) (d : VReg) (p : PReg) (f : Nat → Word × Flg)
    (h : integerResult s i = some (e, d, p, f)) : WritesLanes s i e d p f := by
  unfold integerResult at h
  split at h <;> simp only [Option.some.injEq, Prod.mk.injEq, reduceCtorEq] at h
  all_goals obtain ⟨rfl, rfl, rfl, rfl⟩ := h
  case h_1 => exact writesLanes rfl fun k => by rw [add_eq_ofInt]; rfl
  case h_2 => exact writesLanes rfl fun k => by rw [sub_eq_ofInt]; rfl
  case h_3 | h_4 | h_5 | h_9 | h_10 | h_11 | h_12 => exact writesLanes rfl fun k => rfl
  case h_6 => exact writesLanes rfl fun k => by rw [shiftLeft_eq_ofNat]; rfl
  case h_7 => exact writesLanes rfl fun k => by rw [sshiftRight_eq_ofInt]; rfl
  case h_8 => exact writesLanes rfl fun k => by rw [ushiftRight_eq_ofNat]; rfl
  case h_13 => exact writesLanes rfl fun k => by rw [signExtend_eq_ofInt _ (by decide)]
  case h_14 imm _ => exact writesLanes rfl fun k => by rw [zeroExtend_shiftLeft_eq_ofNat imm 20]

theorem extractResult_writes (s : State) (i : Instr) (e : Eng) (d : VReg) (p : PReg) (f : Nat → Word × Flg)
    (h : extractResult s i = some (e, d, p, f)) : WritesLanes s i e d p f := by
  unfold extractResult at h
  split at h <;> simp only [Option.some.injEq, Prod.mk.injEq, reduceCtorEq] at h
  all_goals
    obtain ⟨rfl, rfl, rfl, rfl⟩ := h
    exact writesLanes rfl fun k => sat31_eq_clamp31 _

theorem floatResult_writes (s : State) (i : Instr) (e : Eng) (d : VReg) (p : PReg) (f : Nat → Word × Flg)
    (h : floatResult s i = some (e, d, p, f)) : WritesLanes s i e d p f := by
  unfold floatResult at h
  split at h <;> simp only [Option.some.injEq, Prod.mk.injEq, reduceCtorEq] at h
  all_goals
    obtain ⟨rfl, rfl, rfl, rfl⟩ := h
    exact writesLanes rfl fun k => rfl

/-- ENVP, ENVS and LIMG write what R185 and R186 give (the values of `dynamicsResult`). -/
theorem dynamicsResult_writes (s : State) (i : Instr) (e : Eng) (d : VReg) (p : PReg) (f : Nat → Word × Flg)
    (h : dynamicsResult s i = some (e, d, p, f)) : WritesLanes s i e d p f := by
  unfold dynamicsResult at h
  split at h <;> simp only [Option.some.injEq, Prod.mk.injEq, reduceCtorEq] at h
  all_goals obtain ⟨rfl, rfl, rfl, rfl⟩ := h
  case h_1 e d src cix lane p =>
    refine audioWritesLanes (cix := cix) (lane := lane)
      (v := fun co g k => envOp (min ((g.getV src k).toInt.natAbs : Int) (2 ^ 31 - 1)) (g.getV d k).toInt (co 0 k) (co 1 k))
      rfl fun k => ?_
    simp only [envOp, sat31_eq_clamp31, EngS.atIssue_getV, Int.natCast_natAbs]
  case h_2 e d src cix lane p =>
    refine audioWritesLanes (cix := cix) (lane := lane)
      (v := fun co g k => envOp (rneShift ((g.getV src k).toInt * (g.getV src k).toInt) 31) (g.getV d k).toInt (co 0 k) (co 1 k))
      rfl fun k => ?_
    simp only [envOp, sat31_eq_clamp31, EngS.atIssue_getV]
    rfl
  case h_3 e d src cix lane p =>
    refine audioWritesLanes (cix := cix) (lane := lane) (v := fun co g k => (limgOp (g.getV src k).toInt (co 0 k), 0))
      rfl fun k => ?_
    simp only [limgOp, EngS.atIssue_getV]
    rfl

/-- Settles O6: each family of vector instructions writes its result into the enabled lanes. -/
theorem vectorInstructionsWriteEnabledLanes : Obligations.VectorInstructionsWriteEnabledLanes := by
  rintro s i e d p f (h | h | h | h | h)
  · exact saturatingResult_writes s i e d p f h
  · exact integerResult_writes s i e d p f h
  · exact extractResult_writes s i e d p f h
  · exact dynamicsResult_writes s i e d p f h
  · exact floatResult_writes s i e d p f h

/-! ### Compares (R172) -/

/-- The number that a list of bits builds. -/
def bitsBelow (b : Nat → Bool) (n : Nat) : Nat := (List.range n).foldl (fun acc i => if b i then acc + 2 ^ i else acc) 0

theorem bitsBelow_succ (b : Nat → Bool) (n : Nat) :
    bitsBelow b (n + 1) = if b n then bitsBelow b n + 2 ^ n else bitsBelow b n := by
  simp [bitsBelow, List.range_succ]

theorem bitsBelow_lt (b : Nat → Bool) (n : Nat) : bitsBelow b n < 2 ^ n := by
  induction n with
  | zero => simp [bitsBelow]
  | succ n ih =>
    rw [bitsBelow_succ, Nat.pow_succ]
    split <;> omega

theorem bitsBelow_testBit (b : Nat → Bool) (n k : Nat) (hk : k < n) : (bitsBelow b n).testBit k = b k := by
  induction n with
  | zero => omega
  | succ n ih =>
    have hlt := bitsBelow_lt b n
    rw [bitsBelow_succ]
    rcases Nat.lt_succ_iff_lt_or_eq.mp hk with h | rfl
    · split
      · rw [Nat.add_comm, Nat.testBit_two_pow_add_gt h, ih h]
      · exact ih h
    · split
      · rename_i hb
        rw [Nat.add_comm, Nat.testBit_two_pow_add_eq, Nat.testBit_lt_two_pow hlt, hb]
        rfl
      · rename_i hb
        rw [Nat.testBit_lt_two_pow hlt, Bool.eq_false_iff.mpr hb]

/-- The predicate bits that a compare leaves (R172). -/
theorem EngS.getP_pmap (g : EngS) (p d : Nat) (f : Nat → Bool × Flg) (q k : Nat) (hk : k < 8) :
    ((g.pmap p d f).getP q).getLsbD k =
      if d = q ∧ d ≠ 0 then (if g.lane p k then (f k).1 else (g.getP d).getLsbD k) else (g.getP q).getLsbD k := by
  have h : (g.pmap p d f).getP q = (g.setP d (BitVec.ofNat 8
      (bitsBelow (fun i => if g.lane p i then (f i).1 else (g.getP d).getLsbD i) 8))).getP q := rfl
  rw [h, EngS.getP_setP]
  split
  · rw [BitVec.getLsbD_ofNat, bitsBelow_testBit _ _ _ hk]
    simp [hk]
  · rfl

theorem EngS.flags_pmap (g : EngS) (p d : Nat) (f : Nat → Bool × Flg) (k : Nat) :
    (g.pmap p d f).flags.getLsbD k = (g.flags.getLsbD k || (List.range 8).any fun i => g.lane p i && ((f i).2).getLsbD k) := by
  have h : (g.pmap p d f).flags = g.flags ||| lanes.foldl (fun acc i => if g.lane p i then acc ||| (f i).2 else acc) 0 := by
    simp [EngS.pmap, EngS.orFlags]
  rw [h, BitVec.getLsbD_or, foldl_or_getLsbD (fun i => g.lane p i) (fun i => (f i).2) k lanes 0]
  simp [lanes, List.range_succ]

/-- A compare over the registers of its engine. -/
theorem writesCompare {s : State} {i : Instr} {e : Eng} {d p : PReg} {f : Nat → Bool × Flg} {v : EngS → Nat → Bool × Flg}
    (h : exec i s = engOp i e (fun g => g.pmap p d (v g)) s) (hx : ∀ k, v ((s.dev.en e).atIssue i) k = f k) :
    ∃ t, exec i s = .next t ∧ EngineFrame e s t ∧
      (t.dev.en e).s = (s.dev.en e).s ∧ (t.dev.en e).a = (s.dev.en e).a ∧ (t.dev.en e).v = (s.dev.en e).v ∧
      (t.dev.en e).w = (s.dev.en e).w ∧ (∀ q, q ≠ d.val → (t.dev.en e).getP q = (s.dev.en e).getP q) ∧
      (∀ k, k < 8 → ((t.dev.en e).getP d).getLsbD k =
        if d.val ≠ 0 ∧ (s.dev.en e).lane p k = true then (f k).1 else ((s.dev.en e).getP d).getLsbD k) ∧
      FlagsFrom p (fun k => (f k).2) (s.dev.en e) (t.dev.en e) := by
  obtain ⟨t, ht, hf, he⟩ := engOp_frame i e (fun g => g.pmap p d (v g)) s
  rw [funext hx] at he
  refine ⟨t, h.trans ht, hf, ?_⟩
  rw [he]
  refine ⟨by simp [EngS.pmap, EngS.orFlags], by simp [EngS.pmap, EngS.orFlags], by simp [EngS.pmap, EngS.orFlags],
    by simp [EngS.pmap, EngS.orFlags], fun q hq => ?_, fun k hk => ?_, fun k _ => ?_⟩
  · apply BitVec.eq_of_getLsbD_eq
    intro k hk
    rw [EngS.advance_getP, EngS.getP_pmap _ _ _ _ _ _ hk, if_neg fun hh => hq hh.1.symm]
    rfl
  · rw [EngS.advance_getP, EngS.getP_pmap _ _ _ _ _ _ hk]
    by_cases hd : d.val = 0
    · simp [hd]
    · by_cases hl : (s.dev.en e).lane p k = true <;> simp [hd, hl]
  · rw [EngS.advance_flags, EngS.flags_pmap]
    rfl

/-- Settles O2: each compare is a `pmap` of the comparison the rule gives. -/
theorem comparesWriteEnabledPredicateBits : Obligations.ComparesWriteEnabledPredicateBits := by
  intro s i e d p f h
  unfold compareResult at h
  split at h <;> simp only [Option.some.injEq, Prod.mk.injEq, reduceCtorEq] at h
  all_goals obtain ⟨rfl, rfl, rfl, rfl⟩ := h
  case h_1 =>
    refine writesCompare rfl fun k => ?_
    simp [BitVec.toInt_inj, beq_eq_decide]
  case h_2 => exact writesCompare rfl fun k => rfl
  case h_3 => exact writesCompare rfl fun k => rfl
  case h_4 | h_5 | h_6 => exact writesCompare rfl fun k => rfl

/-! ### Wide accumulators (R173, R187) -/

theorem EngS.wmap_onlyWideLanes (g : EngS) (p d : Nat) (f : Nat → BitVec 72 × Flg) : OnlyWideLanes p d 1 g (g.wmap p d f) := by
  refine ⟨by simp, by simp, by simp, by simp, fun q i hi h => ?_⟩
  rw [EngS.getW_wmap _ _ _ _ _ _ hi, if_neg]
  rintro ⟨rfl, hl⟩
  rcases h with h | h
  · omega
  · rw [hl] at h
    cases h

/-- The engine after an instruction that writes one wide register. -/
theorem writesWide_of_frame {s t : State} {i : Instr} {e : Eng} {d : WReg} {p : PReg} {f : Nat → BitVec 72 × Flg}
    (ht : exec i s = .next t) (hf : EngineFrame e s t)
    (he : t.dev.en e = (((s.dev.en e).atIssue i).wmap p d f).advance) :
    ∃ t, exec i s = .next t ∧ EngineFrame e s t ∧ OnlyWideLanes p d 1 (s.dev.en e) (t.dev.en e) ∧
      (∀ k, k < 8 → (s.dev.en e).lane p k = true → (t.dev.en e).getW d k = (f k).1) ∧
      FlagsFrom p (fun k => (f k).2) (s.dev.en e) (t.dev.en e) := by
  refine ⟨t, ht, hf, ?_, fun k hk hl => ?_, ?_⟩
  · rw [he]
    exact ((s.dev.en e).atIssue i).wmap_onlyWideLanes p d f
  · rw [he, EngS.advance_getW, EngS.getW_wmap _ _ _ _ _ _ hk]
    exact if_pos ⟨rfl, hl⟩
  · rw [he]
    exact flagsFrom_of_laneFlags (((s.dev.en e).atIssue i).flags_wmap p d f)

/-- An instruction over the registers of its engine that writes one wide register. -/
theorem writesWide {s : State} {i : Instr} {e : Eng} {d : WReg} {p : PReg} {f : Nat → BitVec 72 × Flg}
    {v : EngS → Nat → BitVec 72 × Flg} (h : exec i s = engOp i e (fun g => g.wmap p d (v g)) s)
    (hx : ∀ k, v ((s.dev.en e).atIssue i) k = f k) :
    ∃ t, exec i s = .next t ∧ EngineFrame e s t ∧ OnlyWideLanes p d 1 (s.dev.en e) (t.dev.en e) ∧
      (∀ k, k < 8 → (s.dev.en e).lane p k = true → (t.dev.en e).getW d k = (f k).1) ∧
      FlagsFrom p (fun k => (f k).2) (s.dev.en e) (t.dev.en e) := by
  obtain ⟨t, ht, hf, he⟩ := engOp_frame i e (fun g => g.wmap p d (v g)) s
  rw [funext hx] at he
  exact writesWide_of_frame (h.trans ht) hf he

/-- A fused operation that writes one wide register. -/
theorem audioWritesWide {s : State} {i : Instr} {e : Eng} {d : WReg} {p : PReg} {f : Nat → BitVec 72 × Flg}
    {cix : BitVec 10} {lane : Bool} (v : (Nat → Nat → Int) → EngS → Nat → BitVec 72 × Flg)
    (h : exec i s = audioOp i e (fun co g => g.wmap p d (v co g)) cix lane s)
    (hx : ∀ k, v (fun c l => ((s.dev.issue i e).coef e cix lane c l).toInt) ((s.dev.en e).atIssue i) k = f k) :
    ∃ t, exec i s = .next t ∧ EngineFrame e s t ∧ OnlyWideLanes p d 1 (s.dev.en e) (t.dev.en e) ∧
      (∀ k, k < 8 → (s.dev.en e).lane p k = true → (t.dev.en e).getW d k = (f k).1) ∧
      FlagsFrom p (fun k => (f k).2) (s.dev.en e) (t.dev.en e) := by
  obtain ⟨t, ht, hf, he⟩ := audioOp_frame i e (fun co g => g.wmap p d (v co g)) cix lane s
  rw [funext hx] at he
  exact writesWide_of_frame (h.trans ht) hf he

theorem wideResult_writes (s : State) (i : Instr) (e : Eng) (d : WReg) (p : PReg) (f : Nat → BitVec 72 × Flg)
    (h : wideResult s i = some (e, d, p, f)) :
    ∃ t, exec i s = .next t ∧ EngineFrame e s t ∧ OnlyWideLanes p d 1 (s.dev.en e) (t.dev.en e) ∧
      (∀ k, k < 8 → (s.dev.en e).lane p k = true → (t.dev.en e).getW d k = (f k).1) ∧
      FlagsFrom p (fun k => (f k).2) (s.dev.en e) (t.dev.en e) := by
  unfold wideResult at h
  split at h <;> simp only [Option.some.injEq, Prod.mk.injEq, reduceCtorEq] at h
  all_goals obtain ⟨rfl, rfl, rfl, rfl⟩ := h
  case h_1 | h_2 => exact writesWide rfl fun k => sat72_eq_clamp72 _
  case h_3 => exact writesWide rfl fun k => rfl
  case h_4 e d src cix lane p =>
    exact audioWritesWide (cix := cix) (lane := lane)
      (fun co g k => sat72 ((g.getW d k).toInt + (g.getV src k).toInt * co 0 k)) rfl fun k => sat72_eq_clamp72 _
  case h_5 e d src cix lane p =>
    exact audioWritesWide (cix := cix) (lane := lane)
      (fun co g k => sat72 ((g.getW d k).toInt - (g.getV src k).toInt * co 0 k)) rfl fun k => sat72_eq_clamp72 _
  case h_6 e d src cix lane p =>
    exact audioWritesWide (cix := cix) (lane := lane)
      (fun co g k => (BitVec.ofInt 72 ((g.getV src k).toInt * co 0 k), 0)) rfl fun k => rfl

end Sys2Proof.Machine
end

section
/-! The instructions that write several registers: CSTEP, the moves of wide registers, the biquad and the gain ramp. -/
namespace Sys2Proof.Machine
open Sys2Proof.Claims

/-! ### Frames one after another -/

theorem orUndefined_true {ok : Bool} (h : ok = true) (r : Host.Outcome State Fault Refusal) : orUndefined ok r = r := by
  rw [orUndefined, if_pos h]

theorem orUndefined_false {ok : Bool} (h : ok = false) (r : Host.Outcome State Fault Refusal) :
    orUndefined ok r = .fault .undefinedWord := by
  rw [orUndefined, h]
  rfl

theorem EngS.lane_congr {g h : EngS} (e : g.p = h.p) (p i : Nat) : g.lane p i = h.lane p i := by
  rw [EngS.lane, EngS.lane, EngS.getP_congr e]

/-- Lanes of neighbouring registers, one group after the other. -/
theorem onlyLanes_append {p r n m : Nat} {g g' g'' : EngS} (h : OnlyLanes p r n g g') (h' : OnlyLanes p (r + n) m g' g'') :
    OnlyLanes p r (n + m) g g'' := by
  obtain ⟨hs, ha, hp, hw, hv⟩ := h
  obtain ⟨hs', ha', hp', hw', hv'⟩ := h'
  refine ⟨hs'.trans hs, ha'.trans ha, hp'.trans hp, hw'.trans hw, fun q i hi hq => ?_⟩
  rw [hv' q i hi (hq.imp (fun hq => by omega) fun hl => by rwa [EngS.lane_congr hp]),
    hv q i hi (hq.imp_left fun hq => by omega)]

/-- The same for wide registers. -/
theorem onlyWideLanes_append {p r n m : Nat} {g g' g'' : EngS} (h : OnlyWideLanes p r n g g')
    (h' : OnlyWideLanes p (r + n) m g' g'') : OnlyWideLanes p r (n + m) g g'' := by
  obtain ⟨hs, ha, hp, hv, hw⟩ := h
  obtain ⟨hs', ha', hp', hv', hw'⟩ := h'
  refine ⟨hs'.trans hs, ha'.trans ha, hp'.trans hp, hv'.trans hv, fun q i hi hq => ?_⟩
  rw [hw' q i hi (hq.imp (fun hq => by omega) fun hl => by rwa [EngS.lane_congr hp]),
    hw q i hi (hq.imp_left fun hq => by omega)]

theorem flagsFrom_append {p : Nat} {f f' : Nat → Flg} {g g' g'' : EngS} (h : FlagsFrom p f g g') (hp : g'.p = g.p)
    (h' : FlagsFrom p f' g' g'') : FlagsFrom p (fun i => f i ||| f' i) g g'' := by
  intro k hk
  rw [h' k hk, h k hk, Bool.or_assoc]
  congr 1
  rw [Bool.eq_iff_iff]
  simp only [EngS.lane_congr hp, BitVec.getLsbD_or, Bool.or_eq_true, List.any_eq_true, Bool.and_eq_true, and_or_left, exists_or]

theorem flagsFrom_congr {p : Nat} {f f' : Nat → Flg} {g g' : EngS} (h : FlagsFrom p f g g') (hf : ∀ k, k < 8 → f k = f' k) :
    FlagsFrom p f' g g' := by
  intro k hk
  rw [h k hk, Bool.eq_iff_iff]
  simp only [Bool.or_eq_true, List.any_eq_true, List.mem_range]
  exact or_congr_right (exists_congr fun i => and_congr_right fun hi => by rw [hf i hi])

theorem EngS.vmap_flagsFrom (g : EngS) (p d : Nat) (f : Nat → Word × Flg) : FlagsFrom p (fun k => (f k).2) g (g.vmap p d f) :=
  flagsFrom_of_laneFlags (g.flags_vmap p d f)

theorem EngS.wmap_flagsFrom (g : EngS) (p d : Nat) (f : Nat → BitVec 72 × Flg) :
    FlagsFrom p (fun k => (f k).2) g (g.wmap p d f) := flagsFrom_of_laneFlags (g.flags_wmap p d f)

theorem EngS.vmap_lane (g : EngS) (p d : Nat) (f : Nat → Word × Flg) (q i : Nat) : (g.vmap p d f).lane q i = g.lane q i :=
  EngS.lane_congr (g.vmap_p p d f) q i

theorem EngS.wmap_lane (g : EngS) (p d : Nat) (f : Nat → BitVec 72 × Flg) (q i : Nat) : (g.wmap p d f).lane q i = g.lane q i :=
  EngS.lane_congr (g.wmap_p p d f) q i

theorem EngS.vmap_flags_zero (g : EngS) (p d : Nat) (f : Nat → Word) : (g.vmap p d fun i => (f i, 0)).flags = g.flags := by
  rw [EngS.flags_vmap, EngS.laneFlags_zero]

theorem EngS.wmap_flags_zero (g : EngS) (p d : Nat) (f : Nat → BitVec 72) : (g.wmap p d fun i => (f i, 0)).flags = g.flags := by
  rw [EngS.flags_wmap, EngS.laneFlags_zero]

/-- An effect between the issue of an instruction and the next instruction. -/
theorem flagsFrom_issued {p : Nat} {f : Nat → Flg} {g g' : EngS} (i : Instr) (h : FlagsFrom p f (g.atIssue i) g') :
    FlagsFrom p f g g'.advance := h
theorem onlyLanes_issued {p r n : Nat} {g g' : EngS} (i : Instr) (h : OnlyLanes p r n (g.atIssue i) g') :
    OnlyLanes p r n g g'.advance := h
theorem onlyWideLanes_issued {p r n : Nat} {g g' : EngS} (i : Instr) (h : OnlyWideLanes p r n (g.atIssue i) g') :
    OnlyWideLanes p r n g g'.advance := h

/-! ### CSTEP (R173) -/

/-- The effect of CSTEP on its engine. -/
def EngS.cstep (g : EngS) (d a b p : Nat) : EngS :=
  let g' := g.wmap p d fun i => sat72 ((g.getW d i).toInt + (g.getV a i).toInt * (g.getV b i).toInt)
  g'.wmap p (d + 1) fun i => sat72 ((g'.getW (d + 1) i).toInt + (g'.getV b i).toInt * (g'.getV b i).toInt)

theorem EngS.cstep_eq (g : EngS) (d a b p : Nat) : g.cstep d a b p =
    (g.wmap p d fun i => clamp72 ((g.getW d i).toInt + (g.getV a i).toInt * (g.getV b i).toInt)).wmap p (d + 1)
      fun i => clamp72 (((g.wmap p d fun i => clamp72 ((g.getW d i).toInt + (g.getV a i).toInt * (g.getV b i).toInt)).getW
        (d + 1) i).toInt + (g.getV b i).toInt ^ 2) := by
  have hv : ∀ f r i, (g.wmap p d f).getV r i = g.getV r i := fun f r i => EngS.getV_congr (g.wmap_v p d f) r i
  simp only [EngS.cstep, sat72_eq_clamp72, hv, pow_two]

theorem EngS.cstep_flagsFrom (g : EngS) (d a b p : Nat) :
    FlagsFrom p (fun k => (clamp72 ((g.getW d k).toInt + (g.getV a k).toInt * (g.getV b k).toInt)).2 |||
      (clamp72 ((g.getW (d + 1) k).toInt + (g.getV b k).toInt ^ 2)).2) g (g.cstep d a b p) := by
  rw [EngS.cstep_eq]
  generalize hf : (fun i => clamp72 ((g.getW d i).toInt + (g.getV a i).toInt * (g.getV b i).toInt)) = f
  refine flagsFrom_congr (flagsFrom_append (g.wmap_flagsFrom p d f) (g.wmap_p p d f) ((g.wmap p d f).wmap_flagsFrom p (d + 1) _))
    fun k hk => ?_
  rw [EngS.getW_wmap _ _ _ _ _ _ hk, if_neg (by omega), ← hf]

theorem cstep_writes (s : State) (e : Eng) (d : WReg) (a b : VReg) (p : PReg) (hd : d.val = 0 ∨ d.val = 2) :
    ∃ t, exec (.cstep e d a b p) s = .next t ∧ EngineFrame e s t ∧
      OnlyWideLanes p d 2 (s.dev.en e) (t.dev.en e) ∧
      (∀ k, k < 8 → (s.dev.en e).lane p k = true →
        (t.dev.en e).getW d k = (clamp72 (((s.dev.en e).getW d k).toInt
          + ((s.dev.en e).getV a k).toInt * ((s.dev.en e).getV b k).toInt)).1 ∧
        (t.dev.en e).getW (d + 1) k = (clamp72 (((s.dev.en e).getW (d + 1) k).toInt
          + ((s.dev.en e).getV b k).toInt ^ 2)).1) ∧
      FlagsFrom p (fun k => (clamp72 (((s.dev.en e).getW d k).toInt
          + ((s.dev.en e).getV a k).toInt * ((s.dev.en e).getV b k).toInt)).2 |||
        (clamp72 (((s.dev.en e).getW (d + 1) k).toInt + ((s.dev.en e).getV b k).toInt ^ 2)).2)
        (s.dev.en e) (t.dev.en e) := by
  obtain ⟨t, ht, hf, he⟩ := engOp_frame (.cstep e d a b p) e (fun g => g.cstep d a b p) s
  have hx : exec (.cstep e d a b p) s = .next t := (orUndefined_true (decide_eq_true hd) _).trans ht
  have hfl := ((s.dev.en e).atIssue (.cstep e d a b p)).cstep_flagsFrom d a b p
  simp only [EngS.atIssue_getW, EngS.atIssue_getV] at hfl
  refine ⟨t, hx, hf, ?_, fun k hk hl => ?_, ?_⟩ <;> rw [he]
  · refine onlyWideLanes_issued (.cstep e d a b p) ?_
    rw [EngS.cstep_eq]
    exact onlyWideLanes_append (EngS.wmap_onlyWideLanes _ p d _) (EngS.wmap_onlyWideLanes _ p (d + 1) _)
  · rw [EngS.cstep_eq]
    simp only [EngS.advance_getW, EngS.getW_wmap _ _ _ _ _ _ hk, EngS.wmap_lane, EngS.atIssue_lane, hl, and_true, if_pos,
      EngS.atIssue_getW, EngS.atIssue_getV]
    rw [if_neg (by omega), if_neg (by omega)]
    exact ⟨rfl, rfl⟩
  · exact flagsFrom_issued (.cstep e d a b p) hfl

theorem cstep_undefined (s : State) (e : Eng) (d : WReg) (a b : VReg) (p : PReg) (hd : ¬ (d.val = 0 ∨ d.val = 2)) :
    exec (.cstep e d a b p) s = .fault .undefinedWord :=
  orUndefined_false (decide_eq_false hd) _

/-- Settles O3, by the rows that write one wide register, and CSTEP. -/
theorem wideInstructionsWriteEnabledLanes : Obligations.WideInstructionsWriteEnabledLanes :=
  ⟨wideResult_writes, fun s e d a b p => ⟨cstep_writes s e d a b p, cstep_undefined s e d a b p⟩⟩

/-! ### WTOV and VTOW (R173) -/

/-- The effect of WTOV on its engine. -/
def EngS.wtov (g : EngS) (d a p : Nat) : EngS :=
  ((g.vmap p d fun i => ((g.getW a i).truncate 32, 0)).vmap p (d + 1) fun i => ((g.getW a i >>> 32).truncate 32, 0)).vmap p (d + 2)
    fun i => (BitVec.ofInt 32 ((g.getW a i).toInt / 2 ^ 64), 0)

theorem EngS.wtov_onlyLanes (g : EngS) (d a p : Nat) : OnlyLanes p d 3 g (g.wtov d a p) :=
  onlyLanes_append (onlyLanes_append (EngS.vmap_onlyLanes g p d _) (EngS.vmap_onlyLanes _ p (d + 1) _))
    (EngS.vmap_onlyLanes _ p (d + 2) _)

theorem EngS.wtov_flags (g : EngS) (d a p : Nat) : (g.wtov d a p).flags = g.flags := by
  rw [EngS.wtov, EngS.vmap_flags_zero, EngS.vmap_flags_zero, EngS.vmap_flags_zero]

theorem EngS.wtov_getV (g : EngS) (d a p k : Nat) (hk : k < 8) (hl : g.lane p k = true) :
    (g.wtov d a p).getV d k = (g.getW a k).truncate 32 ∧ (g.wtov d a p).getV (d + 1) k = (g.getW a k >>> 32).truncate 32 ∧
      (g.wtov d a p).getV (d + 2) k = BitVec.ofInt 32 ((g.getW a k).toInt / 2 ^ 64) := by
  simp only [EngS.wtov, EngS.getV_vmap _ _ _ _ _ _ hk, EngS.vmap_lane, hl, and_true]
  refine ⟨?_, ?_, if_pos trivial⟩
  · rw [if_neg (by omega), if_neg (by omega), if_pos trivial]
  · rw [if_neg (by omega), if_pos trivial]

/-- The upper part of a wide lane fits a lane. -/
theorem toInt_ofInt_upper (x : BitVec 72) : (BitVec.ofInt 32 (x.toInt / 2 ^ 64)).toInt = x.toInt / 2 ^ 64 := by
  have hlo := BitVec.le_toInt x
  have hhi := BitVec.toInt_lt (x := x)
  rw [BitVec.toInt_ofInt, Int.bmod_eq_of_le (by omega) (by omega)]

theorem wtov_moves (s : State) (e : Eng) (v : VReg) (w : WReg) (p : PReg) (hv : v.val ≤ 29) :
    ∃ t, exec (.wtov e v w p) s = .next t ∧ EngineFrame e s t ∧ OnlyLanes p v 3 (s.dev.en e) (t.dev.en e) ∧
      (t.dev.en e).flags = (s.dev.en e).flags ∧
      ∀ k, k < 8 → (s.dev.en e).lane p k = true →
        ((t.dev.en e).getV v k).toNat = ((s.dev.en e).getW w k).toNat % 2 ^ 32 ∧
        ((t.dev.en e).getV (v + 1) k).toNat = ((s.dev.en e).getW w k).toNat / 2 ^ 32 % 2 ^ 32 ∧
        ((t.dev.en e).getV (v + 2) k).toInt = ((s.dev.en e).getW w k).toInt / 2 ^ 64 := by
  have hfiles : ∀ g : EngS, (let g1 := g.vmap p v fun i => ((g.getW w i).truncate 32, 0)
      let g2 := g1.vmap p (v + 1) fun i => ((g1.getW w i >>> 32).truncate 32, 0)
      g2.vmap p (v + 2) fun i => (BitVec.ofInt 32 ((g2.getW w i).toInt / 2 ^ 64), 0)) = g.wtov v w p := fun g => by
    have hw : ∀ (g : EngS) d f i, (g.vmap p d f).getW w i = g.getW w i := fun g d f i => EngS.getW_congr (g.vmap_w p d f) w i
    simp only [EngS.wtov, hw]
  obtain ⟨t, ht, hf, he⟩ := engOp_frame (.wtov e v w p) e (fun g => g.wtov v w p) s
  have hx : exec (.wtov e v w p) s = .next t := (orUndefined_true (decide_eq_true hv) _).trans
      ((congrArg (fun f => engOp (.wtov e v w p) e f s) (funext hfiles)).trans ht)
  refine ⟨t, hx, hf, ?_, ?_, fun k hk hl => ?_⟩ <;> rw [he]
  · exact onlyLanes_issued (.wtov e v w p) (EngS.wtov_onlyLanes _ v w p)
  · rw [EngS.advance_flags, EngS.wtov_flags, EngS.atIssue_flags]
  · obtain ⟨h0, h1, h2⟩ := ((s.dev.en e).atIssue (.wtov e v w p)).wtov_getV v w p k hk hl
    rw [EngS.advance_getV, EngS.advance_getV, EngS.advance_getV, h0, h1, h2, toInt_ofInt_upper]
    refine ⟨?_, ?_, rfl⟩
    · simp
    · simp [BitVec.toNat_ushiftRight, Nat.shiftRight_eq_div_pow]

theorem vtow_moves (s : State) (e : Eng) (v : VReg) (w : WReg) (p : PReg) (hv : v.val ≤ 29) :
    ∃ t, exec (.vtow e w v p) s = .next t ∧ EngineFrame e s t ∧ OnlyWideLanes p w 1 (s.dev.en e) (t.dev.en e) ∧
      (t.dev.en e).flags = (s.dev.en e).flags ∧
      ∀ k, k < 8 → (s.dev.en e).lane p k = true →
        ((t.dev.en e).getW w k).toNat = ((s.dev.en e).getV (v + 2) k).toNat % 2 ^ 8 * 2 ^ 64
          + ((s.dev.en e).getV (v + 1) k).toNat * 2 ^ 32 + ((s.dev.en e).getV v k).toNat := by
  obtain ⟨t, ht, hf, he⟩ := engOp_frame (.vtow e w v p) e (fun g => g.wmap p w fun i =>
    (BitVec.ofNat 72 ((g.getV (v + 2) i).toNat % 256 * 2 ^ 64 + (g.getV (v + 1) i).toNat * 2 ^ 32 + (g.getV v i).toNat), 0)) s
  have hx : exec (.vtow e w v p) s = .next t := (orUndefined_true (decide_eq_true hv) _).trans ht
  refine ⟨t, hx, hf, ?_, ?_, fun k hk hl => ?_⟩ <;> rw [he]
  · exact onlyWideLanes_issued (.vtow e w v p) (EngS.wmap_onlyWideLanes _ p w _)
  · rw [EngS.advance_flags, EngS.wmap_flags_zero, EngS.atIssue_flags]
  · rw [EngS.advance_getW, EngS.getW_wmap _ _ _ _ _ _ hk, if_pos ⟨rfl, hl⟩, BitVec.toNat_ofNat]
    simp only [EngS.atIssue_getV]
    have h0 := ((s.dev.en e).getV v k).isLt
    have h1 := ((s.dev.en e).getV (v + 1) k).isLt
    omega

/-- Settles O4, in the two directions. -/
theorem wideMovesAreExact : Obligations.WideMovesAreExact :=
  fun s e v w p hv => ⟨wtov_moves s e v w p hv, vtow_moves s e v w p hv⟩

/-! ### Effects lane by lane -/

/-- An effect `f` on each enabled lane that touches no other lane, and leaves lane `i` at `x q i` where it finds it as `g` has it. -/
theorem EngS.fold_getV (g g0 : EngS) (p : Nat) (f : EngS → Nat → EngS) (x : Nat → Nat → Word) (ls : List Nat) (q j : Nat)
    (hl : ∀ i ∈ ls, i < 8) (hn : ls.Nodup) (hj : j < 8)
    (hother : ∀ g' i q j, i < 8 → j < 8 → j ≠ i → (f g' i).getV q j = g'.getV q j)
    (hsame : ∀ g' i q, i < 8 → (∀ r, g'.getV r i = g.getV r i) → (f g' i).getV q i = x q i)
    (h0 : ∀ i ∈ ls, ∀ r, g0.getV r i = g.getV r i) :
    (ls.foldl (fun g' i => if g.lane p i then f g' i else g') g0).getV q j =
      if j ∈ ls ∧ g.lane p j = true then x q j else g0.getV q j := by
  induction ls generalizing g0 with
  | nil => simp
  | cons i t ih =>
    have hi : i < 8 := hl i List.mem_cons_self
    obtain ⟨hni, hnt⟩ := List.nodup_cons.mp hn
    have hstep : ∀ k, k < 8 → k ≠ i → ∀ r, (if g.lane p i then f g0 i else g0).getV r k = g0.getV r k := fun k hk hne r => by
      split
      · exact hother g0 i r k hi hk hne
      · rfl
    rw [List.foldl_cons, ih _ (fun k hk => hl k (List.mem_cons_of_mem _ hk)) hnt fun k hk r => by
      rw [hstep k (hl k (List.mem_cons_of_mem _ hk)) (fun h => hni (h ▸ hk)) r]
      exact h0 k (List.mem_cons_of_mem _ hk) r]
    by_cases hij : j = i
    · subst hij
      by_cases hp : g.lane p j = true
      · simp [hni, hp, hsame g0 j q hi (h0 j List.mem_cons_self)]
      · simp [hni, hp]
    · rw [hstep j hj hij q]
      simp [hij]

theorem EngS.getV_eachLane (g : EngS) (p : Nat) (f : EngS → Nat → EngS) (x : Nat → Nat → Word) (q j : Nat) (hj : j < 8)
    (hother : ∀ g' i q j, i < 8 → j < 8 → j ≠ i → (f g' i).getV q j = g'.getV q j)
    (hsame : ∀ g' i q, i < 8 → (∀ r, g'.getV r i = g.getV r i) → (f g' i).getV q i = x q i) :
    (g.eachLane p f).getV q j = if g.lane p j = true then x q j else g.getV q j := by
  have hmem : j ∈ lanes := List.mem_range.mpr hj
  rw [EngS.eachLane, EngS.fold_getV g g p f x lanes q j (by decide) (by decide) hj hother hsame fun _ _ _ => rfl]
  simp [hmem]

theorem EngS.flags_eachLane (g : EngS) (p : Nat) (f : EngS → Nat → EngS) (fl : Nat → Flg)
    (h : ∀ g' i, (f g' i).flags = g'.flags ||| fl i) : (g.eachLane p f).flags = g.laneFlags p fl := by
  unfold EngS.eachLane EngS.laneFlags
  suffices ∀ (ls : List Nat) (g0 : EngS), (ls.foldl (fun g' i => if g.lane p i then f g' i else g') g0).flags =
      ls.foldl (fun acc i => if g.lane p i then acc ||| fl i else acc) g0.flags from this lanes g
  intro ls
  induction ls with
  | nil => exact fun _ => rfl
  | cons i t ih =>
    intro g0
    rw [List.foldl_cons, List.foldl_cons, ih]
    congr 1
    split
    · exact h g0 i
    · rfl

/-- A field that the effect on a lane keeps is kept. -/
theorem EngS.eachLane_keeps {β : Type} (P : EngS → β) (g : EngS) (p : Nat) (f : EngS → Nat → EngS) (h : ∀ g' i, P (f g' i) = P g') :
    P (g.eachLane p f) = P g :=
  EngS.fold_keeps P _ (fun g' i => by split <;> simp [h]) lanes g

/-- The lanes and the flags that an effect lane by lane leaves, in registers `r` to `r + n - 1`. -/
theorem EngS.eachLane_onlyLanes (g : EngS) (p r n : Nat) (f : EngS → Nat → EngS) (x : Nat → Nat → Word)
    (hs : ∀ g' i, (f g' i).s = g'.s) (ha : ∀ g' i, (f g' i).a = g'.a) (hp : ∀ g' i, (f g' i).p = g'.p)
    (hw : ∀ g' i, (f g' i).w = g'.w)
    (hv : ∀ j, j < 8 → ∀ q, (g.eachLane p f).getV q j = if g.lane p j = true then x q j else g.getV q j)
    (hx : ∀ q j, j < 8 → (q < r ∨ r + n ≤ q) → x q j = g.getV q j) : OnlyLanes p r n g (g.eachLane p f) := by
  refine ⟨g.eachLane_keeps EngS.s p f hs, g.eachLane_keeps EngS.a p f ha, g.eachLane_keeps EngS.p p f hp,
    g.eachLane_keeps EngS.w p f hw, fun q i hi h => ?_⟩
  rw [hv i hi]
  rcases h with h | h
  · rw [hx q i hi h, ite_self]
  · rw [h, if_neg Bool.false_ne_true]

/-! ### BIQ (R183) -/

/-- The output of a biquad on lane `k` before it is saturated. -/
def EngS.biqSum (g : EngS) (d src : Nat) (co : Nat → Nat → Int) (k : Nat) : Int :=
  rneShift (co 0 k * (g.getV src k).toInt + co 1 k * (g.getV (d + 1) k).toInt
    + co 2 k * (g.getV (d + 2) k).toInt - co 3 k * (g.getV (d + 3) k).toInt - co 4 k * (g.getV (d + 4) k).toInt) 30

/-- The effect of BIQ on lane `i`. -/
def EngS.biqLane (g : EngS) (d src : Nat) (co : Nat → Nat → Int) (g' : EngS) (i : Nat) : EngS :=
  (((((g'.setV (d + 2) i (g.getV (d + 1) i)).setV (d + 1) i (g.getV src i)).setV (d + 4) i (g.getV (d + 3) i)).setV (d + 3) i
    (sat31 (g.biqSum d src co i)).1).setV d i (sat31 (g.biqSum d src co i)).1).orFlags (sat31 (g.biqSum d src co i)).2

/-- What BIQ leaves in lane `k` of v`q`. -/
def EngS.biqValue (g : EngS) (d src : Nat) (co : Nat → Nat → Int) (q k : Nat) : Word :=
  if q = d ∨ q = d + 3 then (sat31 (g.biqSum d src co k)).1
  else if q = d + 4 then g.getV (d + 3) k else if q = d + 1 then g.getV src k else if q = d + 2 then g.getV (d + 1) k
  else g.getV q k

@[simp] theorem EngS.orFlags_getV (g : EngS) (f : Flg) (r i : Nat) : (g.orFlags f).getV r i = g.getV r i := rfl

theorem EngS.getV_biq (g : EngS) (d src p : Nat) (co : Nat → Nat → Int) (j : Nat) (hj : j < 8) (q : Nat) :
    (g.eachLane p (g.biqLane d src co)).getV q j = if g.lane p j = true then g.biqValue d src co q j else g.getV q j := by
  refine g.getV_eachLane p _ (g.biqValue d src co) q j hj (fun g' i q j hi hj hne => ?_) fun g' i q hi hr => ?_
  · simp only [EngS.biqLane, EngS.orFlags_getV, EngS.getV_setV _ _ _ _ _ _ hi hj, Ne.symm hne, and_false, if_false]
  · simp only [EngS.biqLane, EngS.orFlags_getV, EngS.getV_setV _ _ _ _ _ _ hi hi, and_true, hr, EngS.biqValue]
    grind

theorem biq_advances (s : State) (e : Eng) (d src : VReg) (cix : BitVec 10) (lane : Bool) (p : PReg) (hd : d.val ≤ 27) :
    let g := s.dev.en e
    let co := fun c k => ((s.dev.issue (.biq e d src cix lane p) e).coef e cix lane c k).toInt
    let y := fun k => clamp31 (rneShift (co 0 k * (g.getV src k).toInt + co 1 k * (g.getV (d + 1) k).toInt
      + co 2 k * (g.getV (d + 2) k).toInt - co 3 k * (g.getV (d + 3) k).toInt - co 4 k * (g.getV (d + 4) k).toInt) 30)
    ∃ t, exec (.biq e d src cix lane p) s = .next t ∧ EngineFrame e s t ∧ OnlyLanes p d 5 g (t.dev.en e) ∧
      (∀ k, k < 8 → g.lane p k = true →
        (t.dev.en e).getV d k = (y k).1 ∧ (t.dev.en e).getV (d + 1) k = g.getV src k ∧
        (t.dev.en e).getV (d + 2) k = g.getV (d + 1) k ∧ (t.dev.en e).getV (d + 3) k = (y k).1 ∧
        (t.dev.en e).getV (d + 4) k = g.getV (d + 3) k) ∧
      FlagsFrom p (fun k => (y k).2) g (t.dev.en e) := by
  intro g co y
  obtain ⟨t, ht, hf, he⟩ := audioOp_frame (.biq e d src cix lane p) e (fun co g => g.eachLane p (g.biqLane d src co)) cix lane s
  have hx : exec (.biq e d src cix lane p) s = .next t := (orUndefined_true (decide_eq_true hd) _).trans ht
  change t.dev.en e = ((g.atIssue (.biq e d src cix lane p)).eachLane p ((g.atIssue (.biq e d src cix lane p)).biqLane d src co)).advance at he
  have hy : ∀ k, sat31 ((g.atIssue (.biq e d src cix lane p)).biqSum d src co k) = y k := fun k => sat31_eq_clamp31 _
  have hv := (g.atIssue (.biq e d src cix lane p)).getV_biq d src p co
  refine ⟨t, hx, hf, ?_, fun k hk hl => ?_, ?_⟩ <;> rw [he]
  · refine onlyLanes_issued (.biq e d src cix lane p) (EngS.eachLane_onlyLanes _ p d 5 _ _ (fun _ _ => rfl) (fun _ _ => rfl)
      (fun _ _ => rfl) (fun _ _ => rfl) hv fun q j hj h => ?_)
    unfold EngS.biqValue
    rw [if_neg (by omega), if_neg (by omega), if_neg (by omega), if_neg (by omega)]
  · have hval : ∀ q, (((g.atIssue (.biq e d src cix lane p)).eachLane p
        ((g.atIssue (.biq e d src cix lane p)).biqLane d src co)).advance).getV q k =
        (g.atIssue (.biq e d src cix lane p)).biqValue d src co q k := fun q => by
      rw [EngS.advance_getV, hv k hk, EngS.atIssue_lane, if_pos hl]
    simp only [hval, EngS.biqValue, hy]
    simp
  · refine flagsFrom_issued (.biq e d src cix lane p) (flagsFrom_of_laneFlags ?_)
    rw [← funext fun k => congrArg Prod.snd (hy k)]
    exact EngS.flags_eachLane _ p _ _ fun _ _ => rfl

/-! ### GRAMP and GRAMPV (R184) -/

theorem grampGain_eq_steppedGain (g t st : Int) : grampGain g t st = steppedGain g t st := rfl

/-- The gain stays between the old gain and the target. -/
theorem steppedGain_bounds {g t st lo hi : Int} (hg : lo ≤ g ∧ g ≤ hi) (ht : lo ≤ t ∧ t ≤ hi) :
    lo ≤ steppedGain g t st ∧ steppedGain g t st ≤ hi := by
  unfold steppedGain
  split <;> omega

theorem toInt_steppedGain (g t : Word) (st : Int) :
    (BitVec.ofInt 32 (steppedGain g.toInt t.toInt st)).toInt = steppedGain g.toInt t.toInt st := by
  have hg := And.intro (BitVec.le_toInt g) (Int.le_sub_one_of_lt (BitVec.toInt_lt (x := g)))
  have ht := And.intro (BitVec.le_toInt t) (Int.le_sub_one_of_lt (BitVec.toInt_lt (x := t)))
  obtain ⟨hlo, hhi⟩ := steppedGain_bounds (st := st) hg ht
  rw [BitVec.toInt_ofInt, Int.bmod_eq_of_le (by omega) (by omega)]

/-- The effect of a gain ramp on lane `i`, the new gain being `gn i`. -/
def EngS.grampLane (g : EngS) (d src : Nat) (gn : Nat → Int) (g' : EngS) (i : Nat) : EngS :=
  ((g'.setV (d + 1) i (BitVec.ofInt 32 (gn i))).setV d i (sat31 (rneShift ((g.getV src i).toInt * gn i) 31)).1).orFlags
    (sat31 (rneShift ((g.getV src i).toInt * gn i) 31)).2

theorem EngS.gramp_eq_eachLane (g : EngS) (d src p : Nat) (target step : Nat → Int) : g.gramp d src p target step =
    g.eachLane p (g.grampLane d src fun i => steppedGain (g.getV (d + 1) i).toInt (target i) (step i)) := rfl

/-- What a gain ramp leaves in lane `k` of v`q`. -/
def EngS.grampValue (g : EngS) (d src : Nat) (gn : Nat → Int) (q k : Nat) : Word :=
  if q = d then (sat31 (rneShift ((g.getV src k).toInt * gn k) 31)).1
  else if q = d + 1 then BitVec.ofInt 32 (gn k) else g.getV q k

theorem EngS.getV_grampLanes (g : EngS) (d src p : Nat) (gn : Nat → Int) (j : Nat) (hj : j < 8) (q : Nat) :
    (g.eachLane p (g.grampLane d src gn)).getV q j = if g.lane p j = true then g.grampValue d src gn q j else g.getV q j := by
  refine g.getV_eachLane p _ (g.grampValue d src gn) q j hj (fun g' i q j hi hj hne => ?_) fun g' i q hi hr => ?_
  · simp only [EngS.grampLane, EngS.orFlags_getV, EngS.getV_setV _ _ _ _ _ _ hi hj, Ne.symm hne, and_false, if_false]
  · simp only [EngS.grampLane, EngS.orFlags_getV, EngS.getV_setV _ _ _ _ _ _ hi hi, and_true, hr, EngS.grampValue]
    grind

/-- A gain ramp toward the words `target`: its gain, its output and its flags. -/
theorem gramp_writes {s t : State} {i : Instr} {e : Eng} {d src : VReg} {p : PReg} (target : Nat → Word) (step : Nat → Int)
    (ht : exec i s = .next t) (hf : EngineFrame e s t)
    (he : t.dev.en e = (((s.dev.en e).atIssue i).gramp d src p (fun k => (target k).toInt) step).advance) :
    let gn := fun k => steppedGain ((s.dev.en e).getV (d + 1) k).toInt (target k).toInt (step k)
    ∃ t, exec i s = .next t ∧ EngineFrame e s t ∧ OnlyLanes p d 2 (s.dev.en e) (t.dev.en e) ∧
      FlagsFrom p (fun k => (clamp31 (rneShift (((s.dev.en e).getV src k).toInt * gn k) 31)).2) (s.dev.en e) (t.dev.en e) ∧
      ∀ k, k < 8 → (s.dev.en e).lane p k = true → ((t.dev.en e).getV (d + 1) k).toInt = gn k ∧
        (t.dev.en e).getV d k = (clamp31 (rneShift (((s.dev.en e).getV src k).toInt * gn k) 31)).1 := by
  intro gn
  rw [EngS.gramp_eq_eachLane] at he
  change t.dev.en e = (((s.dev.en e).atIssue i).eachLane p (((s.dev.en e).atIssue i).grampLane d src gn)).advance at he
  have hv := ((s.dev.en e).atIssue i).getV_grampLanes d src p gn
  refine ⟨t, ht, hf, ?_, ?_, fun k hk hl => ?_⟩ <;> rw [he]
  · refine onlyLanes_issued i (EngS.eachLane_onlyLanes _ p d 2 _ _ (fun _ _ => rfl) (fun _ _ => rfl) (fun _ _ => rfl)
      (fun _ _ => rfl) hv fun q j hj h => ?_)
    unfold EngS.grampValue
    rw [if_neg (by omega), if_neg (by omega)]
  · refine flagsFrom_issued i (flagsFrom_of_laneFlags ?_)
    simp only [← sat31_eq_clamp31]
    exact EngS.flags_eachLane _ p _ _ fun _ _ => rfl
  · rw [EngS.advance_getV, EngS.advance_getV, hv k hk, hv k hk, EngS.atIssue_lane, if_pos hl, if_pos hl]
    refine ⟨?_, ?_⟩
    · rw [EngS.grampValue, if_neg (by omega), if_pos rfl]
      exact toInt_steppedGain _ _ _
    · rw [EngS.grampValue, if_pos rfl, sat31_eq_clamp31]
      rfl

/-- Settles O10: BIQ lane by lane, and the gain ramp with its target from the bank or from v(d+2). -/
theorem audioPrimitivesAdvance : Obligations.AudioPrimitivesAdvance := by
  refine ⟨fun s e d src cix lane p hd => biq_advances s e d src cix lane p hd, fun s e d src cix lane p => ⟨fun hd => ?_, fun hd => ?_⟩⟩
  · obtain ⟨t, ht, hf, he⟩ := audioOp_frame (.gramp e d src cix lane p) e
      (fun co g => g.gramp d src p (co 0) (co 1)) cix lane s
    have hx : exec (.gramp e d src cix lane p) s = .next t := (orUndefined_true (decide_eq_true hd) _).trans ht
    exact gramp_writes (fun k => (s.dev.issue (.gramp e d src cix lane p) e).coef e cix lane 0 k) _ hx hf he
  · obtain ⟨t, ht, hf, he⟩ := audioOp_frame (.grampv e d src cix lane p) e
      (fun co g => g.gramp d src p (fun i => (g.getV (d + 2) i).toInt) (co 1)) cix lane s
    have hx : exec (.grampv e d src cix lane p) s = .next t := (orUndefined_true (decide_eq_true hd) _).trans ht
    exact gramp_writes (fun k => (s.dev.en e).getV (d + 2) k) _ hx hf he

end Sys2Proof.Machine
end

section
/-! The control instructions: branches, loops, calls and returns (R188 to R190). -/
namespace Sys2Proof.Machine
open Sys2Proof.Claims

/-! ### Where control goes -/

/-- The effects of control leave register files and flags. -/
theorem sameFiles_branch (g : EngS) (taken : Bool) (off : BitVec 20) : SameFiles g (g.branch taken off) := by
  cases taken <;> exact ⟨rfl, rfl, rfl, rfl, rfl, rfl⟩

theorem sameFiles_loopStart (g : EngS) (count len : Nat) : SameFiles g (g.loopStart count len) := by
  unfold EngS.loopStart
  split <;> exact ⟨rfl, rfl, rfl, rfl, rfl, rfl⟩

theorem sameFiles_doRet (g : EngS) : SameFiles g g.doRet := by
  unfold EngS.doRet
  split <;> exact ⟨rfl, rfl, rfl, rfl, rfl, rfl⟩

theorem sameFiles_atIssue {g g' : EngS} (i : Instr) (h : SameFiles (g.atIssue i) g') : SameFiles g g' := h

/-- With no active loop the next instruction is the one that follows. -/
theorem EngS.advance_pc_of_noLoops (g : EngS) (h : g.loops = []) : g.advance.pc = g.pc + 1 := by
  simp [EngS.advance, h, loopEnd]

theorem EngS.branch_pc_taken (g : EngS) (off : BitVec 20) : (g.branch true off).pc = ((g.pc : Int) + off.toInt).toNat := rfl

theorem EngS.branch_pc_notTaken (g : EngS) (off : BitVec 20) (h : g.loops = []) : (g.branch false off).pc = g.pc + 1 :=
  g.advance_pc_of_noLoops h

/-- A conditional branch, by the condition `c` on the registers. -/
theorem branch_goes {s : State} {i : Instr} {e : Eng} {off : BitVec 20} (c : EngS → Bool)
    (h : exec i s = ctlOp i e (fun g => g.branch (c g) off) s) (hc : c ((s.dev.en e).atIssue i) = c (s.dev.en e)) :
    ∃ t, exec i s = .next t ∧ EngineFrame e s t ∧ SameFiles (s.dev.en e) (t.dev.en e) ∧
      (c (s.dev.en e) = true → (t.dev.en e).pc = (((s.dev.en e).pc : Int) + off.toInt).toNat) ∧
      (c (s.dev.en e) = false → (s.dev.en e).loops = [] → (t.dev.en e).pc = (s.dev.en e).pc + 1) := by
  obtain ⟨t, ht, hf, he⟩ := ctlOp_frame i e (fun g => g.branch (c g) off) s
  refine ⟨t, h.trans ht, hf, ?_, fun hb => ?_, fun hb hl => ?_⟩ <;> rw [he]
  · exact sameFiles_atIssue i (sameFiles_branch _ _ _)
  · rw [hc, hb]
    rfl
  · rw [hc, hb]
    exact EngS.branch_pc_notTaken _ off hl

theorem branchesGoToTheirTarget : BranchesGoToTheirTarget := by
  intro s e off a q g target
  refine ⟨?_, ?_, ?_, ?_⟩
  · obtain ⟨t, ht, hf, he⟩ := ctlOp_frame (.br e off) e (fun g => g.jump ((g.pc : Int) + off.toInt).toNat) s
    refine ⟨t, ht, hf, ?_, ?_⟩ <;> rw [he]
    · exact ⟨rfl, rfl, rfl, rfl, rfl, rfl⟩
    · rfl
  · obtain ⟨t, ht, hf, hs, htk, hnt⟩ := branch_goes (i := .bz e a off) (fun g => g.getS a == 0) rfl rfl
    exact ⟨t, ht, hf, hs, fun h => htk (by simpa using h), fun h => hnt (by simpa using h)⟩
  · obtain ⟨t, ht, hf, hs, htk, hnt⟩ := branch_goes (i := .bnz e a off) (fun g => g.getS a != 0) rfl rfl
    exact ⟨t, ht, hf, hs, fun h => htk (by simpa using h), fun h => hnt (by simpa using h)⟩
  · obtain ⟨t, ht, hf, hs, htk, hnt⟩ := branch_goes (i := .bpz e q off) (fun g => g.getP q == 0) rfl rfl
    exact ⟨t, ht, hf, hs, fun h => htk (by simpa using h), fun h => hnt (by simpa using h)⟩

/-! ### Loops, calls and returns -/

/-- A LOOP in an engine: with a count its body starts, and with none it is passed over. -/
theorem loop_starts {s t : State} {i : Instr} {e : Eng} {count len : Nat} 
    (he : t.dev.en e = ((s.dev.en e).atIssue i).loopStart count len) :
    (count ≠ 0 → (t.dev.en e).pc = (s.dev.en e).pc + 1 ∧ (t.dev.en e).loops =
      LoopFrame.mk ((s.dev.en e).pc + 1) ((s.dev.en e).pc + len) 0 count (s.dev.en e).calls.length :: (s.dev.en e).loops) ∧
    (count = 0 → (s.dev.en e).loops = [] → (t.dev.en e).pc = (s.dev.en e).pc + len + 1 ∧ (t.dev.en e).loops = []) := by
  rw [he]
  refine ⟨fun h => ?_, fun h hl => ?_⟩
  · rw [EngS.loopStart, if_neg h]
    exact ⟨rfl, rfl⟩
  · simp [EngS.loopStart, if_pos h, hl, loopEnd]

/-- RET leaves the loops entered since its CALL, and goes on after the CALL. -/
theorem EngS.doRet_eq (g : EngS) (q : Nat) (cs : List Nat) (hc : g.calls = q :: cs) (hl : ∀ l ∈ g.loops, l.depth > cs.length) :
    g.doRet = { g with calls := cs, loops := [], pc := q + 1 } := by
  have hd : g.loops.dropWhile (fun l => decide (l.depth > cs.length)) = [] :=
    List.dropWhile_eq_nil_iff.mpr fun l h => decide_eq_true (hl l h)
  simp only [EngS.doRet, hc, hd, loopEnd]

theorem loopsAndCallsTransferControl : LoopsAndCallsTransferControl := by
  intro s e count len a ceil off q cs g frame
  refine ⟨?_, fun hce => ?_, fun hoff => ?_, fun hcalls hloops => ?_⟩
  · obtain ⟨t, ht, hf, he⟩ := ctlOp_frame (.loop e count len) e (fun g => g.loopStart count.toNat (len.toNat + 1)) s
    obtain ⟨hrun, hskip⟩ := loop_starts he
    refine ⟨t, ht, hf, ?_, fun h => hrun fun h0 => h (BitVec.eq_of_toNat_eq h0),
      fun h => hskip (by simp [h])⟩
    rw [he]
    exact sameFiles_atIssue (.loop e count len) (sameFiles_loopStart _ _ _)
  · obtain ⟨t, ht, hf, he⟩ := ctlOp_frame (.loopReg e a ceil len) e
      (fun g => g.loopStart (min (g.getS a).toNat ceil.toNat) (len.toNat + 1)) s
    obtain ⟨hrun, hskip⟩ := loop_starts he
    have hpos : ceil.toNat ≠ 0 := fun h => hce (BitVec.eq_of_toNat_eq h)
    refine ⟨t, (orUndefined_true (decide_eq_true hce) _).trans ht, hf, ?_, fun h => hrun ?_, fun h => hskip ?_⟩
    · rw [he]
      exact sameFiles_atIssue (.loopReg e a ceil len) (sameFiles_loopStart _ _ _)
    · have hs : ((s.dev.en e).getS a).toNat ≠ 0 := fun h0 => h (BitVec.eq_of_toNat_eq h0)
      rw [EngS.atIssue_getS]
      omega
    · rw [EngS.atIssue_getS, show (s.dev.en e).getS a = 0 from h]
      exact Nat.zero_min _
  · obtain ⟨t, ht, hf, he⟩ := ctlOp_frame (.call e off) e (fun g => g.callTo off) s
    refine ⟨t, (orUndefined_true (decide_eq_true hoff) _).trans ht, hf, ?_, ?_, ?_⟩ <;> rw [he]
    · exact ⟨rfl, rfl, rfl, rfl, rfl, rfl⟩
    · rfl
    · rfl
  · obtain ⟨t, ht, hf, he⟩ := ctlOp_frame (.ret e) e EngS.doRet s
    rw [((s.dev.en e).atIssue (.ret e)).doRet_eq q cs hcalls hloops] at he
    refine ⟨t, ht, hf, ?_, ?_, ?_, ?_⟩ <;> rw [he]
    exact ⟨rfl, rfl, rfl, rfl, rfl, rfl⟩

/-- Settles O11: branches, and loops, calls and returns. -/
theorem controlInstructionsTransferControl : Obligations.ControlInstructionsTransferControl :=
  ⟨branchesGoToTheirTarget, loopsAndCallsTransferControl⟩

/-- At the last instruction of the one loop of this call level, the next iteration starts or the loop ends (R189). -/
theorem EngS.advance_at_loopEnd (g : EngS) (l : LoopFrame) (hl : g.loops = [l]) (hd : l.depth = g.calls.length)
    (hlast : l.last = g.pc) :
    (l.iter + 1 < l.count → g.advance.pc = l.start ∧ g.advance.loops = [{ l with iter := l.iter + 1 }]) ∧
    (¬ l.iter + 1 < l.count → g.advance.pc = g.pc + 1 ∧ g.advance.loops = []) := by
  refine ⟨fun h => ?_, fun h => ?_⟩ <;> simp [EngS.advance, hl, loopEnd, hd, hlast, h]

/-- NOP moves to the next instruction and does nothing else (R191). -/
theorem nop_advances (s : State) (e : Eng) :
    ∃ t, exec (.nop e) s = .next t ∧ EngineFrame e s t ∧ SameFiles (s.dev.en e) (t.dev.en e) ∧
      t.dev.en e = ((s.dev.en e).atIssue (.nop e)).advance := by
  obtain ⟨t, ht, hf, he⟩ := engOp_frame (.nop e) e (fun g => g) s
  refine ⟨t, ht, hf, ?_, he⟩
  rw [he]
  exact ⟨rfl, rfl, rfl, rfl, rfl, rfl⟩

/-- Settles O12, by the end of a body as `advance` finds it. -/
theorem loopBodyRepeatsUntilItsCount : Obligations.LoopBodyRepeatsUntilItsCount := by
  refine ⟨fun s e hl => ?_, fun s e l hl hd hlast => ?_⟩ <;> obtain ⟨t, ht, hf, hs, he⟩ := nop_advances s e
  · exact ⟨t, ht, hf, hs, by rw [he]; exact EngS.advance_pc_of_noLoops _ hl⟩
  · obtain ⟨hnext, hend⟩ := ((s.dev.en e).atIssue (.nop e)).advance_at_loopEnd l hl hd hlast
    exact ⟨t, ht, hf, hs, by rwa [he], by rwa [he]⟩

end Sys2Proof.Machine
end

section
/-! Refutations about job runs: an END behind the WCET (R97), and a POST that is a surveillance report (R461). -/
namespace Sys2Proof.Machine
open Sys2Proof.Claims

/-! ### END behind the WCET -/

/-- Engine 0 runs job 0, whose descriptor is empty, so that its WCET is 0. -/
def pastWcet : State := { State.reset with dev := State.reset.dev.setEn 0 { running := true } }

/-- A run whose count passes WCET has been cut (R97), and its END leaves that outcome. -/
theorem endRun_pastWcet : ∃ u, exec (.endRun 0) pastWcet = .next u ∧ u.dev.resOf (pastWcet.dev.en 0).job = (ocOV, 0x55) :=
  ⟨_, rfl, by decide +kernel⟩

/-- Refutes O14: an END that issues after the run has counted its WCET finds the run cut with OV BUDGET, as R97 has it, and the
outcome is not SV. -/
theorem not_endClosesTheRun : ¬ Obligations.EndClosesTheRun := by
  intro h
  obtain ⟨t, ht, -, -, -, -, hres, -⟩ := h pastWcet 0 (by decide +kernel)
  obtain ⟨u, hu, hcut⟩ := endRun_pastWcet
  rw [ht, Host.Outcome.next.injEq] at hu
  have heq : (ocOV, 0x55) = (if (pastWcet.dev.en (0 : Eng)).slack then (ocDF, 0x4E) else (ocSV, 0)) := by
    rw [← hres, hu]
    exact hcut.symm
  exact absurd heq (by decide +kernel)

/-! ### A POST of event 0xFF -/

/-- In tick 5 the supervisor runs, zone 0 is under surveillance, and s1 of engine 0 holds a valid report on it. -/
def reporting : State :=
  let d := ((State.reset.dev.wr Reg.PWR_KSTAT_STEP 4).wr Reg.ALM_SCFG_ENABLE 1).wr (Reg.ALM_ZCFG_EN 0) 1
  { State.reset with dev := { d.setEn 0 { s := [(1, 0x00000100)], running := true } with tick := 5 } }

/-- The report is heard (R461). -/
theorem post_reports : ∃ u, exec (.post 0 1 127) reporting = .next u ∧ (u.dev.zone 0).heard = 5 ∧ (reporting.dev.zone 0).heard = 0 :=
  ⟨_, rfl, by decide +kernel, by decide +kernel⟩

/-- Refutes O13: a POST with c = 127 is a surveillance report as well (R461), which the zone takes, so that more than the engine and
the event FIFO changes. -/
theorem not_signalsWaitsAndPosts : ¬ Obligations.SignalsWaitsAndPosts := by
  rintro ⟨-, h⟩
  obtain ⟨h4, -⟩ := h reporting 0 1 127 (by decide +kernel) ⟨by decide +kernel, by decide +kernel, by decide +kernel⟩
  obtain ⟨t, ht, ⟨-, -, -, hdev⟩, -⟩ := h4 (by decide +kernel)
  obtain ⟨u, hu, hheard, hbefore⟩ := post_reports
  rw [ht, Host.Outcome.next.injEq] at hu
  have halm : t.dev.alm = reporting.dev.alm := by rw [hdev]
  have hzone : t.dev.zone 0 = reporting.dev.zone 0 := by simp only [Dev.zone, halm]
  rw [hu] at hzone
  rw [hzone, hbefore] at hheard
  cases hheard

end Sys2Proof.Machine
end

section
/-! The loads, stores and delay-line accesses of the engines (R175 to R181, R196, R210, R211). -/
namespace Sys2Proof.Machine
open Sys2Proof.Claims

/-! ### The lanes of an access -/

theorem EngS.mem_enabled (g : EngS) (p k : Nat) : k ∈ g.enabled p ↔ k < 8 ∧ g.lane p k = true := by
  rw [EngS.enabled, List.mem_filter, show lanes = List.range 8 from rfl, List.mem_range]

theorem EngS.enabled_nodup (g : EngS) (p : Nat) : (g.enabled p).Nodup :=
  List.Nodup.filter _ (show lanes.Nodup by decide)

/-- The lanes `ls` of v`r` written with `x`. -/
def EngS.writeLanes (g : EngS) (r : Nat) (ls : List Nat) (x : Nat → Word) : EngS := ls.foldl (fun g i => g.setV r i (x i)) g

theorem EngS.writeLanes_getV (g : EngS) (r : Nat) (ls : List Nat) (x : Nat → Word) (q j : Nat) (hl : ∀ i ∈ ls, i < 8) (hj : j < 8) :
    (g.writeLanes r ls x).getV q j = if q = r ∧ j ∈ ls then x j else g.getV q j := by
  induction ls generalizing g with
  | nil => simp [EngS.writeLanes]
  | cons i t ih =>
    rw [EngS.writeLanes, List.foldl_cons, ← EngS.writeLanes, ih _ fun k hk => hl k (List.mem_cons_of_mem _ hk),
      EngS.getV_setV _ _ _ _ _ _ (hl i List.mem_cons_self) hj]
    grind

theorem EngS.writeLanes_keeps {β : Type} (P : EngS → β) (h : ∀ g r i x, P (EngS.setV g r i x) = P g) (g : EngS) (r : Nat)
    (ls : List Nat) (x : Nat → Word) : P (g.writeLanes r ls x) = P g :=
  EngS.fold_keeps P _ (fun g i => h g r i (x i)) ls g

theorem EngS.writeLanes_onlyLanes (g : EngS) (p r : Nat) (x : Nat → Word) :
    OnlyLanes p r 1 g (g.writeLanes r (g.enabled p) x) := by
  refine ⟨g.writeLanes_keeps EngS.s (fun _ _ _ _ => rfl) r _ x, g.writeLanes_keeps EngS.a (fun _ _ _ _ => rfl) r _ x,
    g.writeLanes_keeps EngS.p (fun _ _ _ _ => rfl) r _ x, g.writeLanes_keeps EngS.w (fun _ _ _ _ => rfl) r _ x, fun q i hi h => ?_⟩
  rw [EngS.writeLanes_getV _ _ _ _ _ _ (fun k hk => ((g.mem_enabled p k).mp hk).1) hi, if_neg]
  rintro ⟨rfl, hm⟩
  have hl := ((g.mem_enabled p i).mp hm).2
  rcases h with h | h
  · omega
  · rw [hl] at h
    cases h

theorem EngS.writeLanes_flags (g : EngS) (r : Nat) (ls : List Nat) (x : Nat → Word) : (g.writeLanes r ls x).flags = g.flags :=
  g.writeLanes_keeps EngS.flags (fun _ _ _ _ => rfl) r ls x

/-! ### Loads (R175, R176, R196) -/

/-- The grate words of permitted addresses. -/
theorem Dev.resolveAll_ok (d : Dev) (h : Nat) (j : Job) (store : Bool) (ls : List (Nat × Word)) (w : Nat → GWord)
    (hw : ∀ l ∈ ls, d.resolve h j store l.2 = .ok (w l.1)) : d.resolveAll h j store ls = .ok (ls.map fun l => (l.1, w l.1)) := by
  induction ls with
  | nil => rfl
  | cons l t ih =>
    rw [Dev.resolveAll, hw l List.mem_cons_self, ih fun x hx => hw x (List.mem_cons_of_mem _ hx)]
    rfl

/-- A vector load whose addresses are permitted changes its engine's lanes, and nothing else. -/
theorem Dev.vload_ok (d : Dev) (e r p : Nat) (A : Nat → Word) (K : Nat → Nat) (w : Nat → GWord)
    (hw : ∀ i ∈ (d.en e).enabled p, d.resolve (e / 8) (d.jobF (d.en e).job) false (A i) = .ok (w i)) :
    let D := d.vload e r (((d.en e).enabled p).map fun i => (i, A i, K i))
    D.outer = d.outer ∧ D.live = d.live ∧ D.evq = d.evq ∧ (∀ q, q ≠ e → D.en q = d.en q) ∧
      D.en e = (d.en e).writeLanes r ((d.en e).enabled p) fun i => d.loadLane e (w i) (K i) := by
  intro D
  by_cases hempty : (d.en e).enabled p = []
  · have hD : D = d := by simp [D, Dev.vload, hempty]
    rw [hD, hempty]
    exact ⟨rfl, rfl, rfl, fun _ _ => rfl, rfl⟩
  · have hD : D = d.modEn e fun g => g.writeLanes r ((d.en e).enabled p) fun i => d.loadLane e (w i) (K i) := by
      have hres := d.resolveAll_ok (e / 8) (d.jobF (d.en e).job) false (((d.en e).enabled p).map fun i => (i, A i)) w
        (by simpa using hw)
      simp only [D, Dev.vload, List.isEmpty_iff, List.map_eq_nil_iff, hempty, if_false, List.map_map, Function.comp_def,
        hres, List.zip_map', EngS.writeLanes, List.foldl_map]
    rw [hD]
    refine ⟨rfl, rfl, rfl, fun q hq => ?_, ?_⟩
    · rw [Dev.en_modEn, if_neg (Ne.symm hq)]
    · rw [Dev.en_modEn, if_pos rfl]

/-- A load of the lanes `K` of the grate words at `A`, all permitted. -/
theorem vload_returns {s : State} {i : Instr} {e : Eng} {d : VReg} {p : PReg} (A : Nat → Word) (K : Nat → Nat) (w : Nat → GWord)
    (h : exec i s = devOp i e (fun D => D.vload e d (((D.en e).enabled p).map fun k => (k, A k, K k))) s)
    (hw : ∀ k, k < 8 → (s.dev.en e).lane p k = true →
      (s.dev.issue i e).resolve (e / 8) (jobOn (s.dev.issue i e) e) false (A k) = .ok (w k)) :
    ∃ t, exec i s = .next t ∧ EngineFrame e s t ∧ OnlyLanes p d 1 (s.dev.en e) (t.dev.en e) ∧
      (t.dev.en e).flags = (s.dev.en e).flags ∧
      ∀ k, k < 8 → (s.dev.en e).lane p k = true → (t.dev.en e).getV d k = (s.dev.issue i e).loadLane e (w k) (K k) := by
  have hen := s.dev.issue_en_self i e
  obtain ⟨ho, hl, hq, hother, hself⟩ := (s.dev.issue i e).vload_ok e d p A K w fun k hk => by
    obtain ⟨hk8, hkl⟩ := (EngS.mem_enabled _ _ _).mp hk
    rw [hen] at hkl
    exact hw k hk8 hkl
  obtain ⟨t, ht, hf, he⟩ := devOp_frame i e (fun D => D.vload e d (((D.en e).enabled p).map fun k => (k, A k, K k))) s ho hl hq hother
  rw [hself, hen] at he
  refine ⟨t, h.trans ht, hf, ?_, ?_, fun k hk hlane => ?_⟩ <;> rw [he]
  · exact onlyLanes_issued i (EngS.writeLanes_onlyLanes _ p d _)
  · rw [EngS.advance_flags, EngS.writeLanes_flags, EngS.atIssue_flags]
  · rw [EngS.advance_getV, EngS.writeLanes_getV _ _ _ _ _ _ (fun k hk => ((EngS.mem_enabled _ _ _).mp hk).1) hk, if_pos]
    exact ⟨rfl, (EngS.mem_enabled _ _ _).mpr ⟨hk, hlane⟩⟩

/-- A scalar load of a permitted address. -/
theorem lds_returns (s : State) (e : Eng) (a : AReg) (off : BitVec 10) (d : SReg) (k : Lane) (w : GWord)
    (hw : (s.dev.issue (.lds e d a off k) e).resolve (e / 8) (jobOn (s.dev.issue (.lds e d a off k) e) e) false
      (effAddr ((s.dev.en e).getA a) off 0) = .ok w) :
    ∃ t, exec (.lds e d a off k) s = .next t ∧ EngineFrame e s t ∧ OnlyScalar d (s.dev.en e) (t.dev.en e) ∧
      (t.dev.en e).getS d = (s.dev.issue (.lds e d a off k) e).loadLane e w k := by
  let D := s.dev.issue (.lds e d a off k) e
  obtain ⟨t, ht, hf, he⟩ := devOp_modEn_frame (.lds e d a off k) e (fun _ g => g.setS d (D.loadLane e w k)) s
  have hx : exec (.lds e d a off k) s = .next t := by
    show execLds e d a off k s = _
    unfold execLds
    refine (devOp_congr (f' := fun D' => D'.modEn e fun g => g.setS d (D.loadLane e w k)) ?_).trans ht
    have hr : D.resolve (e / 8) (D.jobF (D.en e).job) false (effAddr ((D.en e).getA a) off 0) = .ok w := by
      rw [show D.en e = _ from s.dev.issue_en_self (.lds e d a off k) e]
      rw [jobOn, s.dev.issue_en_self] at hw
      exact hw
    show (match D.resolve (e / 8) (D.jobF (D.en e).job) false (effAddr ((D.en e).getA a) off 0) with
      | .error kd => (D.modEn e fun g => g.setS d 0).accViol e kd (effAddr ((D.en e).getA a) off 0)
      | .ok w => D.modEn e fun g => g.setS d (D.loadLane e w k)) = _
    rw [hr]
  refine ⟨t, hx, hf, ?_, ?_⟩ <;> rw [he]
  · refine ⟨rfl, rfl, rfl, rfl, rfl, fun q hq => ?_⟩
    simp [Ne.symm hq]
  · simp [D]

/-- Settles O7: the tile-shaped, the channel-shaped and the scalar load. -/
theorem loadsReturnTheGrateWords : Obligations.LoadsReturnTheGrateWords := by
  refine fun s e a off => ⟨fun d p w => ?_, fun d k p w => ?_, fun d k w => lds_returns s e a off d k w⟩
  · intro D hw
    refine vload_returns (fun _ => effAddr ((s.dev.en e).getA a) off 0) (fun k => k) (fun _ => w) ?_ fun _ _ _ => hw
    show execLdt e d a off p s = _
    unfold execLdt
    refine devOp_congr ?_
    rw [EngS.tileLanes, s.dev.issue_en_self]
    rfl
  · intro D hw
    refine vload_returns (fun i => effAddr ((s.dev.en e).getA a) off (2 * i + k / 8)) (fun _ => k % 8) w ?_ hw
    show execLdc e d a off k p s = _
    unfold execLdc
    refine devOp_congr ?_
    rw [EngS.chanLanes, s.dev.issue_en_self]
    rfl

/-! ### Stores (R175, R177, R131) -/

/-- Job 3 in force has the output channel of handle 0x4000; engine 0 runs it, with the address of that channel in a4 and 5 in s1. -/
def storing : State :=
  let j : Job := { desc := [3, 0, 0, 0, 0, 0, 0, 0, 0, 0x00014000], run := 4096, runLen := 1 }
  let d := State.reset.dev.setEn 0 { s := [(1, 5)], a := [(4, 0x40008000)], running := true, job := 3 }
  { State.reset with dev := { d with sch := { d.sch with force := [(3, j)] } } }

/-- The store of s1 to lane 0 of the channel's tile: that cell is also the one that `Cell.tile` names by lane 16 of the tile before. -/
theorem sts_writes_aliased_cell : ∃ u, exec (.sts 0 1 4 0 0) storing = .next u ∧ cellAt (u.dev.hm 0) (.tile 0x3FFF 1 16) = 5 ∧
    cellAt ((storing.dev.issue (.sts 0 1 4 0 0) 0).hm 0) (.tile 0x3FFF 1 16) = 0 :=
  ⟨_, rfl, by decide +kernel, by decide +kernel⟩

theorem sts_resolves : (storing.dev.issue (.sts 0 1 4 0 0) 0).resolve (0 / 8) (jobOn (storing.dev.issue (.sts 0 1 4 0 0) 0) 0) true
    (effAddr ((storing.dev.en 0).getA 4) 0 0) = .ok (.chan 0x4000 0) := by decide +kernel

/-- Refutes O8: the statement speaks of every `Cell`, those of lanes that no tile has included, and lane 16 of one tile is kept where
lane 0 of the next one is, so that a store to the one changes a cell it does not name. -/
theorem not_storesWriteTheirLanesAndNothingElse : ¬ Obligations.StoresWriteTheirLanesAndNothingElse := by
  rintro ⟨h, -⟩
  obtain ⟨-, -, hsts⟩ := h storing 0 4 0
  obtain ⟨t, ht, -, hother, -⟩ := hsts 1 0 (.chan 0x4000 0) sts_resolves
  obtain ⟨u, hu, hafter, hbefore⟩ := sts_writes_aliased_cell
  rw [ht, Host.Outcome.next.injEq] at hu
  have hkept := hother (.tile 0x3FFF 1 16) (by decide +kernel)
  have heq : (5 : Word) = 0 := by
    rw [← hafter, ← hbefore, ← hu]
    exact hkept
  exact absurd heq (by decide)

end Sys2Proof.Machine
end

section
/-! Access violations and delay lines (R133, R134, R176, R178 to R181, R210, R211). -/
namespace Sys2Proof.Machine
open Sys2Proof.Claims

/-! ### The memories of the two hearths -/

@[simp] theorem Dev.hm_setHm_self (d : Dev) (h : Nat) (x : HMem) : (d.setHm h x).hm h = x := by
  unfold Dev.hm Dev.setHm
  split <;> rfl

theorem Dev.hm_setHm_other (d : Dev) (h : Nat) (x : HMem) (hh : h < 2) : (d.setHm h x).hm (1 - h) = d.hm (1 - h) := by
  unfold Dev.hm Dev.setHm
  rcases (by omega : h = 0 ∨ h = 1) with rfl | rfl <;> rfl

theorem Dev.hm_congr {d d' : Dev} (h : d.mem = d'.mem) (g : Nat) : d.hm g = d'.hm g := by
  rw [Dev.hm, Dev.hm, h]

theorem Dev.mem_of_outer {d d' : Dev} (h : d.outer = d'.outer) : d.mem = d'.mem :=
  show (Dev.outer _).mem = (Dev.outer _).mem by rw [h]

theorem Dev.sch_of_outer {d d' : Dev} (h : d.outer = d'.outer) : d.sch = d'.sch :=
  show d.outer.sch = d'.outer.sch by rw [h]

/-! ### What the issue of an instruction leaves in the registers -/

/-- The fields that a breakpoint captures on engine `e` (R164). -/
def brkFields (e : Nat) : List Fld :=
  (List.range 16).map (Reg.ENG_BSNAP_VAL e) ++ [Reg.ENG_BPC_PC e, Reg.ENG_BPC_JOB e, Reg.ENG_BTICK_TICK e, Reg.ENG_STATUS_BRKHIT e]

theorem Dev.snap_sameBut (d : Dev) (e : Nat) (g : EngS) (fs : List Fld) (ls : List Nat) (h : ∀ i ∈ ls, Reg.ENG_BSNAP_VAL e i ∈ fs) :
    Dev.SameBut fs d (ls.foldl (fun d i => d.wr (Reg.ENG_BSNAP_VAL e i) (g.getS i).toNat) d) := by
  induction ls generalizing d with
  | nil => exact fun _ _ _ => rfl
  | cons i t ih =>
    exact ((show Dev.SameBut fs d d from fun _ _ _ => rfl).wr _ _ (h i List.mem_cons_self) rfl).trans
      (ih _ fun j hj => h j (List.mem_cons_of_mem _ hj))

theorem Dev.breakpoint_sameBut (d : Dev) (e : Nat) : Dev.SameBut (brkFields e) d (d.breakpoint e) := by
  unfold Dev.breakpoint
  dsimp only
  split
  · refine Dev.SameBut.trans ?_ (Dev.SameBut.of_live (Dev.post_live _ _ _ _))
    rw [Dev.flag]
    have hs := d.snap_sameBut e (d.en e) (brkFields e) (List.range 16) fun i hi =>
      List.mem_append_left _ (List.mem_map_of_mem hi)
    exact (((hs.wr (Reg.ENG_BPC_PC e) _ (by simp [brkFields]) rfl).wr (Reg.ENG_BPC_JOB e) _ (by simp [brkFields]) rfl).wr
      (Reg.ENG_BTICK_TICK e) _ (by simp [brkFields]) rfl).wr (Reg.ENG_STATUS_BRKHIT e) 1 (by simp [brkFields]) rfl
  · exact fun _ _ _ => rfl

theorem Dev.issue_sameBut (d : Dev) (i : Instr) (e : Nat) : Dev.SameBut (brkFields e) d (d.issue i e) :=
  (d.breakpoint_sameBut e).trans (Dev.SameBut.of_live (Dev.modEn_live _ _ _))

theorem Dev.rd_issue_vcnt (d : Dev) (i : Instr) (e : Nat) :
    (d.issue i e).rd (Reg.ENG_VCNT_COUNT e) = d.rd (Reg.ENG_VCNT_COUNT e) := by
  refine d.issue_sameBut i e _ (show 31 < 32 by decide) fun f hf => Or.inl ?_
  simp only [brkFields, List.mem_append, List.mem_map, List.mem_range, List.mem_cons, List.not_mem_nil, or_false] at hf
  rcases hf with ⟨j, hj, rfl⟩ | rfl | rfl | rfl | rfl
  all_goals simp only [Reg.ENG_BSNAP_VAL, Reg.ENG_VCNT_COUNT, Reg.ENG_BPC_PC, Reg.ENG_BPC_JOB, Reg.ENG_BTICK_TICK,
    Reg.ENG_STATUS_BRKHIT]; omega

/-! ### Access violations (R133) -/

/-- The count of a violation and its bit. -/
def Dev.violCount (d : Dev) (e : Nat) : Dev :=
  (d.count (Reg.ENG_VCNT_COUNT e) (Reg.ENG_STATUS_CNT_HALF e)).flag (Reg.ENG_STATUS_ACCVIOL e)

/-- The capture of the first violation. -/
def Dev.violCapture (d : Dev) (e kind job pc : Nat) (ea : Word) : Dev :=
  (((d.wr (Reg.ENG_VADDR_ADDR e) ea.toNat).wr (Reg.ENG_VINFO_JOB e) job).wr (Reg.ENG_VINFO_KIND e) kind).wr (Reg.ENG_VINFO_PC e) pc

/-- A violation is counted; the first one is captured; one a run is posted. -/
theorem Dev.accViol_cases (d : Dev) (e kind : Nat) (ea : Word) :
    ∃ d', (d' = d.violCount e ∨ d' = (d.violCount e).violCapture e kind (d.en e).job (d.en e).pc ea) ∧
      ((d.en e).accPosted = true ∧ d.accViol e kind ea = d' ∨
        ∃ arg, d.accViol e kind ea = (d'.modEn e fun g => { g with accPosted := true }).post (20 + e / 8) 1 arg) := by
  refine ⟨if !d.on (Reg.ENG_STATUS_ACCVIOL e) then (d.violCount e).violCapture e kind (d.en e).job (d.en e).pc ea
    else d.violCount e, ?_, ?_⟩
  · split
    · exact .inr rfl
    · exact .inl rfl
  · by_cases hp : (d.en e).accPosted = true
    · refine .inl ⟨hp, ?_⟩
      rw [Dev.accViol, if_pos hp]
      rfl
    · refine .inr ⟨(d.en e).job % 1024 + kind * 2 ^ 10 + e % 8 * 2 ^ 13 + (d.en e).pc % 2 ^ 17 * 2 ^ 16
        + ea.toNat % 2 ^ 30 * 2 ^ 34, ?_⟩
      rw [Dev.accViol, if_neg hp]
      rfl

theorem Dev.violCount_rest (d : Dev) (e : Nat) : (d.violCount e).rest = d.rest := by
  rw [Dev.violCount, Dev.flag_rest, Dev.count_rest]

theorem Dev.violCapture_rest (d : Dev) (e kind job pc : Nat) (ea : Word) : (d.violCapture e kind job pc ea).rest = d.rest := by
  rw [Dev.violCapture, Dev.wr_rest, Dev.wr_rest, Dev.wr_rest, Dev.wr_rest]

@[simp] theorem Dev.post_outer (d : Dev) (src code arg : Nat) : (d.post src code arg).outer = d.outer :=
  Dev.outer_of_rest (Dev.post_rest d src code arg)

@[simp] theorem Dev.accViol_outer (d : Dev) (e kind : Nat) (ea : Word) : (d.accViol e kind ea).outer = d.outer := by
  obtain ⟨d', hd', hv⟩ := d.accViol_cases e kind ea
  have ho : d'.outer = d.outer := by
    rcases hd' with rfl | rfl <;> apply Dev.outer_of_rest
    · exact d.violCount_rest e
    · rw [Dev.violCapture_rest, Dev.violCount_rest]
  rcases hv with ⟨-, hv⟩ | ⟨arg, hv⟩ <;> rw [hv]
  · exact ho
  · rw [Dev.post_outer, Dev.modEn_outer, ho]

/-- A violation marks its engine as having posted one in this run, and changes no other engine. -/
theorem Dev.accViol_en (d : Dev) (e kind : Nat) (ea : Word) (q : Nat) :
    (d.accViol e kind ea).en q = if e = q then { d.en e with accPosted := true } else d.en q := by
  obtain ⟨d', hd', hv⟩ := d.accViol_cases e kind ea
  have hen : ∀ q, d'.en q = d.en q := fun q => by
    rcases hd' with rfl | rfl <;> apply Dev.en_of_rest
    · exact d.violCount_rest e
    · rw [Dev.violCapture_rest, Dev.violCount_rest]
  rcases hv with ⟨hp, hv⟩ | ⟨arg, hv⟩ <;> rw [hv]
  · rw [hen]
    split
    · subst q
      rw [← hp]
    · rfl
  · rw [Dev.en_of_rest (Dev.post_rest _ _ _ _), Dev.en_modEn, hen, hen]

theorem Dev.violCount_counts (d : Dev) (e : Nat) :
    (d.violCount e).rd (Reg.ENG_VCNT_COUNT e) = (d.rd (Reg.ENG_VCNT_COUNT e) + 1) % 2 ^ 32 ∧
      (d.violCount e).rd (Reg.ENG_STATUS_ACCVIOL e) = 1 := by
  have hne : (Reg.ENG_STATUS_ACCVIOL e).addr ≠ (Reg.ENG_VCNT_COUNT e).addr := by
    simp only [Reg.ENG_STATUS_ACCVIOL, Reg.ENG_VCNT_COUNT]
    omega
  have hhalf : (Reg.ENG_STATUS_CNT_HALF e).apart (Reg.ENG_VCNT_COUNT e) = true := by
    simp only [Fld.apart, Reg.ENG_STATUS_CNT_HALF, Reg.ENG_VCNT_COUNT, Bool.or_eq_true, bne_iff_ne]
    omega
  refine ⟨?_, ?_⟩ <;> rw [Dev.violCount, Dev.flag]
  · rw [Dev.rd_wr_disjoint _ _ _ _ rfl (show 31 < 32 by decide) (.inl hne), Dev.rd_count _ _ _ _ rfl rfl hhalf]
    rfl
  · rw [Dev.rd_wr _ _ _ rfl]
    rfl

theorem Dev.violCapture_sameBut (d : Dev) (e kind job pc : Nat) (ea : Word) :
    Dev.SameBut [Reg.ENG_VADDR_ADDR e, Reg.ENG_VINFO_JOB e, Reg.ENG_VINFO_KIND e, Reg.ENG_VINFO_PC e] d
      (d.violCapture e kind job pc ea) := by
  rw [Dev.violCapture]
  exact ((((show Dev.SameBut _ d d from fun _ _ _ => rfl).wr _ _ (by simp) rfl).wr _ _ (by simp) rfl).wr _ _ (by simp) rfl).wr
    _ _ (by simp) rfl

/-- A violation is counted, and ACCVIOL set (R133). -/
theorem Dev.accViol_counts (d : Dev) (e kind : Nat) (ea : Word) :
    (d.accViol e kind ea).rd (Reg.ENG_VCNT_COUNT e) = (d.rd (Reg.ENG_VCNT_COUNT e) + 1) % 2 ^ 32 ∧
      (d.accViol e kind ea).rd (Reg.ENG_STATUS_ACCVIOL e) = 1 := by
  obtain ⟨d', hd', hv⟩ := d.accViol_cases e kind ea
  have hcount : d'.rd (Reg.ENG_VCNT_COUNT e) = (d.rd (Reg.ENG_VCNT_COUNT e) + 1) % 2 ^ 32 ∧
      d'.rd (Reg.ENG_STATUS_ACCVIOL e) = 1 := by
    rcases hd' with rfl | rfl
    · exact d.violCount_counts e
    · have hc := (d.violCount e).violCapture_sameBut e kind (d.en e).job (d.en e).pc ea
      rw [hc (Reg.ENG_VCNT_COUNT e) (show 31 < 32 by decide), hc (Reg.ENG_STATUS_ACCVIOL e) (show 8 < 32 by decide)]
      · exact d.violCount_counts e
      all_goals
        intro f hf
        left
        simp only [List.mem_cons, List.not_mem_nil, or_false] at hf
        rcases hf with rfl | rfl | rfl | rfl <;> simp only [Reg.ENG_VADDR_ADDR, Reg.ENG_VINFO_JOB, Reg.ENG_VINFO_KIND,
          Reg.ENG_VINFO_PC, Reg.ENG_VCNT_COUNT, Reg.ENG_STATUS_ACCVIOL] <;> omega
  rcases hv with ⟨-, hv⟩ | ⟨arg, hv⟩ <;> rw [hv]
  · exact hcount
  · rw [Dev.post_rd, Dev.post_rd, Dev.rd_congr _ d' _ (Dev.modEn_live _ _ _), Dev.rd_congr _ d' _ (Dev.modEn_live _ _ _)]
    exact hcount

/-- A command that leaves the registers as they are after a violation at the issue of `i` has counted it. -/
theorem violationCounted_of {s t : State} {i : Instr} {e : Eng} {d : Dev} {kind : Nat} {ea : Word}
    (hd : d.live = (s.dev.issue i e).live) (h : t.dev.live = (d.accViol e kind ea).live) : ViolationCounted e s t := by
  obtain ⟨hc, hv⟩ := d.accViol_counts e kind ea
  rw [ViolationCounted, Dev.rd_congr t.dev _ _ h, Dev.rd_congr t.dev _ _ h, hc, hv, Dev.rd_congr d _ _ hd, Dev.rd_issue_vcnt]
  exact ⟨rfl, rfl⟩

theorem sameFiles_violation {g g' : EngS} {b : Bool} (i : Instr) (h : g' = { g.atIssue i with accPosted := b }.advance) :
    SameFiles g g' := by
  rw [h]
  exact ⟨rfl, rfl, rfl, rfl, rfl, rfl⟩

/-- Where one of the addresses breaks the rules, the access as a whole does. -/
theorem Dev.resolveAll_error (d : Dev) (h : Nat) (j : Job) (store : Bool) (ls : List (Nat × Word)) (l : Nat × Word) (hl : l ∈ ls)
    (kd : Nat) (hk : d.resolve h j store l.2 = .error kd) : ∃ x, d.resolveAll h j store ls = .error x := by
  induction ls with
  | nil => cases hl
  | cons a t ih =>
    obtain ⟨n, ea⟩ := a
    rw [Dev.resolveAll]
    split
    · exact ⟨_, rfl⟩
    · rename_i g hg
      rcases List.mem_cons.mp hl with rfl | hl
      · rw [hk] at hg
        cases hg
      · obtain ⟨x, hx⟩ := ih hl
        rw [hx]
        exact ⟨x, rfl⟩

/-- A channel-shaped access of engine `e` with a lane that breaks the rules. -/
theorem Dev.chanLanes_error (d : Dev) (e : Nat) (a : Nat) (off : BitVec 10) (k p i kd : Nat) (store : Bool) (hi : i < 8)
    (hl : (d.en e).lane p i = true)
    (hk : d.resolve (e / 8) (d.jobF (d.en e).job) store (effAddr ((d.en e).getA a) off (2 * i + k / 8)) = .error kd) :
    ((d.en e).chanLanes a off k p).isEmpty = false ∧
      ∃ x, d.resolveAll (e / 8) (d.jobF (d.en e).job) store (((d.en e).chanLanes a off k p).map fun l => (l.1, l.2.1)) = .error x := by
  have hmem : i ∈ (d.en e).enabled p := ((d.en e).mem_enabled p i).mpr ⟨hi, hl⟩
  refine ⟨?_, ?_⟩
  · rw [List.isEmpty_eq_false_iff, EngS.chanLanes]
    exact List.ne_nil_of_mem (List.mem_map_of_mem hmem)
  · refine d.resolveAll_error _ _ _ _ (i, effAddr ((d.en e).getA a) off (2 * i + k / 8)) ?_ kd hk
    simp only [EngS.chanLanes, List.map_map, List.mem_map, Function.comp_apply]
    exact ⟨i, hmem, rfl⟩

/-- A load that breaks the rules clears its enabled lanes, and the violation is recorded (R133, R176). -/
theorem Dev.vload_error (d : Dev) (e r a : Nat) (off : BitVec 10) (k p : Nat) (x : Nat × Word)
    (hne : ((d.en e).chanLanes a off k p).isEmpty = false)
    (hx : d.resolveAll (e / 8) (d.jobF (d.en e).job) false (((d.en e).chanLanes a off k p).map fun l => (l.1, l.2.1)) = .error x) :
    d.vload e r ((d.en e).chanLanes a off k p) =
      (d.modEn e fun g => g.writeLanes r ((d.en e).enabled p) fun _ => 0).accViol e x.1 x.2 := by
  simp only [Dev.vload, hne, hx, Bool.false_eq_true, if_false]
  simp only [EngS.chanLanes, List.foldl_map, EngS.writeLanes]

theorem Dev.vstore_error (d : Dev) (e v a : Nat) (off : BitVec 10) (k p : Nat) (x : Nat × Word)
    (hne : ((d.en e).chanLanes a off k p).isEmpty = false)
    (hx : d.resolveAll (e / 8) (d.jobF (d.en e).job) true (((d.en e).chanLanes a off k p).map fun l => (l.1, l.2.1)) = .error x) :
    d.vstore e v ((d.en e).chanLanes a off k p) = d.accViol e x.1 x.2 := by
  simp only [Dev.vstore, hne, hx, Bool.false_eq_true, if_false]

theorem EngS.writeLanes_getV_enabled (g : EngS) (r p : Nat) (x : Nat → Word) (q : Nat) (hq : q < 8) (hl : g.lane p q = true) :
    (g.writeLanes r (g.enabled p) x).getV r q = x q := by
  rw [EngS.writeLanes_getV _ _ _ _ _ _ (fun k hk => ((g.mem_enabled p k).mp hk).1) hq,
    if_pos ⟨rfl, (g.mem_enabled p q).mpr ⟨hq, hl⟩⟩]

theorem ldc_refused (s : State) (e : Eng) (d : VReg) (a : AReg) (off : BitVec 10) (k : Fin 12) (p : PReg) (i : Nat) (kd : Nat)
    (hi : i < 8) (hl : (s.dev.en e).lane p i = true)
    (hk : (s.dev.issue (.ldc e d a off k p) e).resolve (e / 8) (jobOn (s.dev.issue (.ldc e d a off k p) e) e) false
      (effAddr ((s.dev.en e).getA a) off (2 * i + k / 8)) = .error kd) :
    ∃ t, exec (.ldc e d a off k p) s = .next t ∧ EngineOnly e s t ∧ OnlyLanes p d 1 (s.dev.en e) (t.dev.en e) ∧
      (∀ q, q < 8 → (s.dev.en e).lane p q = true → (t.dev.en e).getV d q = 0) ∧ ViolationCounted e s t := by
  have hen := s.dev.issue_en_self (.ldc e d a off k p) e
  rw [jobOn, hen] at hk
  obtain ⟨hne, x, hx⟩ := (s.dev.issue (.ldc e d a off k p) e).chanLanes_error e a off k p i kd false hi (by rw [hen]; exact hl)
    (by rw [hen]; exact hk)
  have hload := Dev.vload_error _ e d a off k p x hne hx
  obtain ⟨t, ht, honly, he, hlive, -⟩ := devOp_only (.ldc e d a off k p) e
    (fun D => D.vload e d ((D.en e).chanLanes a off k p)) s
    (by rw [hload, Dev.accViol_outer, Dev.modEn_outer])
    (fun q hq => by rw [hload, Dev.accViol_en, if_neg (Ne.symm hq), Dev.en_modEn, if_neg (Ne.symm hq)])
  rw [hload, Dev.accViol_en, if_pos rfl, Dev.en_modEn, if_pos rfl, hen] at he
  refine ⟨t, ht, honly, ?_, fun q hq hlq => ?_, ?_⟩
  · rw [he]
    exact onlyLanes_issued (.ldc e d a off k p) (EngS.writeLanes_onlyLanes _ p d _)
  · rw [he, EngS.advance_getV]
    exact EngS.writeLanes_getV_enabled ((s.dev.en e).atIssue (.ldc e d a off k p)) d p (fun _ => 0) q hq hlq
  · exact violationCounted_of (Dev.modEn_live _ _ _) (hlive.trans (congrArg Dev.live hload))

theorem stc_refused (s : State) (e : Eng) (v : VReg) (a : AReg) (off : BitVec 10) (k : Fin 12) (p : PReg) (i : Nat) (kd : Nat)
    (hi : i < 8) (hl : (s.dev.en e).lane p i = true)
    (hk : (s.dev.issue (.stc e v a off k p) e).resolve (e / 8) (jobOn (s.dev.issue (.stc e v a off k p) e) e) true
      (effAddr ((s.dev.en e).getA a) off (2 * i + k / 8)) = .error kd) :
    ∃ t, exec (.stc e v a off k p) s = .next t ∧ EngineOnly e s t ∧ SameFiles (s.dev.en e) (t.dev.en e) ∧
      t.dev.mem = s.dev.mem ∧ ViolationCounted e s t := by
  have hen := s.dev.issue_en_self (.stc e v a off k p) e
  rw [jobOn, hen] at hk
  obtain ⟨hne, x, hx⟩ := (s.dev.issue (.stc e v a off k p) e).chanLanes_error e a off k p i kd true hi (by rw [hen]; exact hl)
    (by rw [hen]; exact hk)
  have hstore := Dev.vstore_error _ e v a off k p x hne hx
  obtain ⟨t, ht, honly, he, hlive, -⟩ := devOp_only (.stc e v a off k p) e
    (fun D => D.vstore e v ((D.en e).chanLanes a off k p)) s
    (by rw [hstore, Dev.accViol_outer])
    (fun q hq => by rw [hstore, Dev.accViol_en, if_neg (Ne.symm hq)])
  rw [hstore, Dev.accViol_en, if_pos rfl, hen] at he
  refine ⟨t, ht, honly, sameFiles_violation (.stc e v a off k p) he, ?_, ?_⟩
  · rw [honly.2.2.2]
  · exact violationCounted_of rfl (hlive.trans (congrArg Dev.live hstore))

/-! ### Delay lines outside the job's range (R181) -/

@[simp] theorem Dev.fresh_en (d : Dev) (q : Nat) : d.fresh.1.en q = d.en q := rfl
@[simp] theorem Dev.fresh_mem (d : Dev) : d.fresh.1.mem = d.mem := rfl
@[simp] theorem Dev.fresh_live (d : Dev) : d.fresh.1.live = d.live := rfl

@[simp] theorem Dev.accViol_mem (d : Dev) (e kind : Nat) (ea : Word) : (d.accViol e kind ea).mem = d.mem :=
  Dev.mem_of_outer (d.accViol_outer e kind ea)

theorem Dev.issue_mem (d : Dev) (i : Instr) (e : Nat) : (d.issue i e).mem = d.mem := Dev.mem_of_outer (d.issue_outer i e)

theorem EngS.atIssue_enabled (g : EngS) (i : Instr) (p : Nat) : (g.atIssue i).enabled p = g.enabled p := rfl

theorem dlrd_refused (s : State) (e : Eng) (v : VReg) (a : SReg) (line : BitVec 12) (p : PReg)
    (hls : (s.dev.en e).enabled p ≠ [])
    (hn : (jobOn (s.dev.issue (.dlrd e v a line p) e) e).namesLine line.toNat = false) :
    ∃ t, exec (.dlrd e v a line p) s = .next t ∧ OnlyLanes p v 1 (s.dev.en e) (t.dev.en e) ∧
      (∀ k, k < 8 → (s.dev.en e).lane p k = true → (t.dev.en e).getV v k = 0) ∧
      t.dev.mem = s.dev.mem ∧ ViolationCounted e s t := by
  have hen := s.dev.issue_en_self (.dlrd e v a line p) e
  let D := s.dev.issue (.dlrd e v a line p) e
  let D' := ((D.fresh.1.modEn e fun g => g.writeLanes v ((s.dev.en e).enabled p) fun _ => 0).accViol e 4 D.fresh.2).modEn e EngS.advance
  have hx : exec (.dlrd e v a line p) s = .next { s with dev := D'.settle } := by
    show execDlrd e v a line p s = _
    rw [jobOn] at hn
    simp only [execDlrd, onDev, hn]
    rw [hen, EngS.atIssue_enabled]
    simp only [List.isEmpty_iff, hls, Bool.not_false, if_true, if_false]
    rfl
  have hD : D.en e = (s.dev.en e).atIssue (.dlrd e v a line p) := hen
  have hlive : D'.settle.live = (((D.fresh.1.modEn e fun g => g.writeLanes v ((s.dev.en e).enabled p) fun _ => 0)).accViol e 4 D.fresh.2).live := by
    rw [Dev.settle_live, Dev.modEn_live]
  have he : D'.settle.en e = ({ ((s.dev.en e).atIssue (.dlrd e v a line p)).writeLanes v ((s.dev.en e).enabled p) (fun _ => 0) with
      accPosted := true }).advance := by
    rw [Dev.en_of_rest (Dev.settle_rest _), Dev.en_modEn, if_pos rfl, Dev.accViol_en, if_pos rfl, Dev.en_modEn, if_pos rfl, Dev.fresh_en, hD]
  refine ⟨_, hx, ?_, fun k hk hl => ?_, ?_, ?_⟩
  · rw [he]
    exact onlyLanes_issued (.dlrd e v a line p) (EngS.writeLanes_onlyLanes _ p v _)
  · rw [he, EngS.advance_getV]
    exact EngS.writeLanes_getV_enabled ((s.dev.en e).atIssue (.dlrd e v a line p)) v p (fun _ => 0) k hk hl
  · rw [Dev.settle_mem, Dev.modEn_mem, Dev.accViol_mem, Dev.modEn_mem, Dev.fresh_mem]
    exact s.dev.issue_mem _ _
  · exact violationCounted_of (by rw [Dev.modEn_live, Dev.fresh_live]) hlive

theorem dlwr_refused (s : State) (e : Eng) (v : VReg) (a : SReg) (line : BitVec 12) (p : PReg)
    (hls : (s.dev.en e).enabled p ≠ [])
    (hn : (jobOn (s.dev.issue (.dlwr e v a line p) e) e).namesLine line.toNat = false ∨ 3072 ≤ line.toNat) :
    ∃ t, exec (.dlwr e v a line p) s = .next t ∧ SameFiles (s.dev.en e) (t.dev.en e) ∧
      t.dev.mem = s.dev.mem ∧ ViolationCounted e s t := by
  have hen := s.dev.issue_en_self (.dlwr e v a line p) e
  let D := s.dev.issue (.dlwr e v a line p) e
  let D' := (D.fresh.1.accViol e 4 D.fresh.2).modEn e EngS.advance
  have hx : exec (.dlwr e v a line p) s = .next { s with dev := D'.settle } := by
    have hb : (!(jobOn (s.dev.issue (.dlwr e v a line p) e) e).namesLine line.toNat || decide (line.toNat ≥ 3072)) = true := by
      rcases hn with hn | hn
      · rw [hn]; rfl
      · rw [decide_eq_true hn, Bool.or_true]
    show execDlwr e v a line p s = _
    rw [jobOn] at hb
    simp only [execDlwr, devOp, onDev, hb]
    rw [hen, EngS.atIssue_enabled]
    simp only [List.isEmpty_iff, hls, if_true, if_false]
    rfl
  have hD : D.en e = (s.dev.en e).atIssue (.dlwr e v a line p) := hen
  have hlive : D'.settle.live = (D.fresh.1.accViol e 4 D.fresh.2).live := by
    rw [Dev.settle_live, Dev.modEn_live]
  have he : D'.settle.en e = ({ (s.dev.en e).atIssue (.dlwr e v a line p) with accPosted := true }).advance := by
    rw [Dev.en_of_rest (Dev.settle_rest _), Dev.en_modEn, if_pos rfl, Dev.accViol_en, if_pos rfl, Dev.fresh_en, hD]
  refine ⟨_, hx, sameFiles_violation (.dlwr e v a line p) he, ?_, violationCounted_of (Dev.fresh_live D) hlive⟩
  rw [Dev.settle_mem, Dev.modEn_mem, Dev.accViol_mem, Dev.fresh_mem]
  exact s.dev.issue_mem _ _

/-- Settles O18: where a lane of an access breaks the rules, the access is a violation (`Dev.resolveAll_error`), and what the
violation changes is the count, its capture and its event. -/
theorem refusedAccessesMoveNothing : Obligations.RefusedAccessesMoveNothing :=
  ⟨fun s e d a off k p i kd => ldc_refused s e d a off k p i kd, fun s e v a off k p i kd => stc_refused s e v a off k p i kd,
    fun s e v a line p hls => ⟨dlrd_refused s e v a line p hls, dlwr_refused s e v a line p hls⟩⟩

/-! ### Delay-line reads (R178 to R180, R207, R210) -/

@[simp] theorem Dev.setHm_hm_self (d : Dev) (h : Nat) : d.setHm h (d.hm h) = d := by
  unfold Dev.setHm Dev.hm
  split <;> rfl

@[simp] theorem Dev.setHm_setHm (d : Dev) (h : Nat) (x y : HMem) : (d.setHm h x).setHm h y = d.setHm h y := by
  unfold Dev.setHm
  split <;> rfl

@[simp] theorem Dev.setHm_en (d : Dev) (h : Nat) (x : HMem) (q : Nat) : (d.setHm h x).en q = d.en q := by
  unfold Dev.setHm
  split <;> rfl

@[simp] theorem Dev.setHm_sh (d : Dev) (h : Nat) (x : HMem) (q : Nat) : (d.setHm h x).sh q = d.sh q := by
  unfold Dev.setHm
  split <;> rfl

/-- `d'` is `d` but for the memory of hearth `h`. -/
def Dev.OnlyHm (h : Nat) (d d' : Dev) : Prop := ∃ m, d' = d.setHm h m

theorem Dev.OnlyHm.refl (h : Nat) (d : Dev) : Dev.OnlyHm h d d := ⟨d.hm h, (d.setHm_hm_self h).symm⟩

theorem Dev.OnlyHm.setHm {h : Nat} {d d' : Dev} (hd : Dev.OnlyHm h d d') (m : HMem) : Dev.OnlyHm h d (d'.setHm h m) := by
  obtain ⟨n, rfl⟩ := hd
  exact ⟨m, by rw [Dev.setHm_setHm]⟩

theorem Dev.OnlyHm.en {h : Nat} {d d' : Dev} (hd : Dev.OnlyHm h d d') (q : Nat) : d'.en q = d.en q := by
  obtain ⟨n, rfl⟩ := hd
  exact d.setHm_en h n q

theorem Dev.OnlyHm.sh {h : Nat} {d d' : Dev} (hd : Dev.OnlyHm h d d') (q : Nat) : d'.sh q = d.sh q := by
  obtain ⟨n, rfl⟩ := hd
  exact d.setHm_sh h n q

theorem Dev.issueRead_onlyHm (d : Dev) (h l p : Nat) (keep : List Nat) (demand pin : Bool) :
    Dev.OnlyHm h d (d.issueRead h l p keep demand pin) := by
  unfold Dev.issueRead
  split
  · split
    · exact (Dev.OnlyHm.refl h d).setHm _
    · exact .refl h d
  · split
    · exact .refl h d
    · have hd : Dev.OnlyHm h d (if demand = true then d.setHm h (d.hm h).displace else d) := by
        split
        · exact (Dev.OnlyHm.refl h d).setHm _
        · exact .refl h d
      dsimp only
      generalize (if demand = true then d.setHm h (d.hm h).displace else d) = d' at hd ⊢
      split
      · exact hd
      · split
        · exact hd
        · exact hd.setHm _

theorem Dev.askPage_onlyHm (d : Dev) (h l p : Nat) : Dev.OnlyHm h d (d.askPage h l p) := by
  have hd := d.issueRead_onlyHm h l p (d.currentPages h l) true false
  unfold Dev.askPage
  dsimp only
  split
  · exact hd
  · exact hd.setHm _

theorem Dev.noteTap_onlyHm (d : Dev) (h l sa : Nat) : Dev.OnlyHm h d (d.noteTap h l sa) := ⟨_, rfl⟩

/-- A note of a tap leaves the content of memory. -/
theorem Dev.noteTap_hm (d : Dev) (h l sa : Nat) :
    ((d.noteTap h l sa).hm h).gw = (d.hm h).gw ∧ ((d.noteTap h l sa).hm h).tiles = (d.hm h).tiles := by
  rw [Dev.noteTap, Dev.hm_setHm_self]
  split
  · exact ⟨rfl, rfl⟩
  · split
    · exact ⟨rfl, rfl⟩
    · split <;> exact ⟨rfl, rfl⟩

@[simp] theorem HMem.touch_gw (m : HMem) (l p : Nat) : (m.touch l p).gw = m.gw := by
  unfold HMem.touch
  split <;> rfl

@[simp] theorem HMem.touch_tiles (m : HMem) (l p : Nat) : (m.touch l p).tiles = m.tiles := by
  unfold HMem.touch
  split <;> rfl

theorem HMem.touchAll_content (m : HMem) (l : Nat) (ps : List Nat) :
    (ps.foldl (fun m p => m.touch l p) m).gw = m.gw ∧ (ps.foldl (fun m p => m.touch l p) m).tiles = m.tiles := by
  induction ps generalizing m with
  | nil => exact ⟨rfl, rfl⟩
  | cons p t ih => exact ⟨(ih _).1.trans (m.touch_gw l p), (ih _).2.trans (m.touch_tiles l p)⟩

/-- What lane `k` of a read that issues now on engine `e` returns (R178, R196). -/
def Dev.dlWord (d : Dev) (e l sa k : Nat) : Word :=
  match d.posOf l sa k false with
  | some q => (d.hm (e / 8)).seenAt (d.en e).now (posKey l q) (d.lineWord (e / 8) l q)
  | none => 0

theorem Dev.dlSeen_eq (d : Dev) (e l sa : Nat) (ls : List Nat) : d.dlSeen e l sa ls = ls.map fun k => (k, d.dlWord e l sa k) := rfl

/-- A read that finds no poisoned word touches the frames it reads and loads its lanes. -/
theorem Dev.dlLoad_clean (d : Dev) (e r l sa p : Nat)
    (hclean : ∀ k ∈ (d.en e).enabled p, ∀ q, d.posOf l sa k false = some q → d.poisonedAt (e / 8) l q = false) :
    ∃ m, m.gw = (d.hm (e / 8)).gw ∧ m.tiles = (d.hm (e / 8)).tiles ∧
      d.dlLoad e r l sa p (d.dlSeen e l sa ((d.en e).enabled p)) =
        (d.setHm (e / 8) m).modEn e fun g => g.writeLanes r ((d.en e).enabled p) (d.dlWord e l sa) := by
  have hany : (((d.en e).enabled p).filterMap fun i => d.posOf l sa i false).any (d.poisonedAt (e / 8) l) = false := by
    rw [List.any_eq_false]
    intro q hq
    obtain ⟨k, hk, hpos⟩ := List.mem_filterMap.mp hq
    rw [hclean k hk q hpos]
    decide
  obtain ⟨hgw, htiles⟩ := (d.hm (e / 8)).touchAll_content l
    ((((d.en e).enabled p).filterMap fun i => d.posOf l sa i false).map (·.1)).dedup
  refine ⟨_, hgw, htiles, ?_⟩
  rw [Dev.dlLoad]
  simp only [hany, Bool.false_eq_true, if_false, Dev.dlSeen_eq, List.foldl_map, EngS.writeLanes]

/-- DLRD of a line of the job, between the note of its tap and the end. -/
theorem exec_dlrd (s : State) (e : Eng) (d : VReg) (a : SReg) (line : BitVec 12) (p : PReg)
    (hls : (s.dev.en e).enabled p ≠ []) (hn : (jobOn (s.dev.issue (.dlrd e d a line p) e) e).namesLine line.toNat = true) :
    exec (.dlrd e d a line p) s =
      let sa := ((s.dev.en e).getS a).toNat
      let N := (s.dev.issue (.dlrd e d a line p) e).noteTap (e / 8) line.toNat sa
      let vals := N.dlSeen e line.toNat sa ((s.dev.en e).enabled p)
      .next { s with dev := (match N.absentPage (e / 8) line.toNat sa ((s.dev.en e).enabled p) with
        | none => (N.dlLoad e d line.toNat sa p vals).modEn e EngS.advance
        | some pg => (N.startMiss (e / 8) line.toNat pg).modEn e fun g =>
          { g with miss := some { d := d, sa := sa, line := line.toNat, p := p, page := pg, vals := vals } }).settle } := by
  show execDlrd e d a line p s = _
  rw [jobOn] at hn
  simp only [execDlrd, onDev, hn]
  rw [s.dev.issue_en_self, EngS.atIssue_enabled]
  simp only [List.isEmpty_iff, hls, Bool.not_true, Bool.false_eq_true, if_false]
  rfl

theorem Dev.noteTap_en (d : Dev) (h l sa q : Nat) : (d.noteTap h l sa).en q = d.en q := (d.noteTap_onlyHm h l sa).en q

theorem dlrd_returns (s : State) (e : Eng) (d : VReg) (a : SReg) (line : BitVec 12) (p : PReg) (N : Dev)
    (hN : N = (s.dev.issue (.dlrd e d a line p) e).noteTap (e / 8) line.toNat ((s.dev.en e).getS a).toNat)
    (hls : (s.dev.en e).enabled p ≠ []) (hn : (jobOn (s.dev.issue (.dlrd e d a line p) e) e).namesLine line.toNat = true)
    (hpage : N.absentPage (e / 8) line.toNat ((s.dev.en e).getS a).toNat ((s.dev.en e).enabled p) = none)
    (hclean : ∀ k ∈ (s.dev.en e).enabled p, ∀ q, N.posOf line.toNat ((s.dev.en e).getS a).toNat k false = some q →
      N.poisonedAt (e / 8) line.toNat q = false) :
    ∃ t, exec (.dlrd e d a line p) s = .next t ∧ t.nv = s.nv ∧ OnlyLanes p d 1 (s.dev.en e) (t.dev.en e) ∧
      (t.dev.en e).flags = (s.dev.en e).flags ∧ (t.dev.hm (e / 8)).gw = (s.dev.hm (e / 8)).gw ∧
      (t.dev.hm (e / 8)).tiles = (s.dev.hm (e / 8)).tiles ∧ t.dev.hm (1 - e / 8) = s.dev.hm (1 - e / 8) ∧
      ∀ k ∈ (s.dev.en e).enabled p, (t.dev.en e).getV d k = N.dlWord e line.toNat ((s.dev.en e).getS a).toNat k := by
  have hNen : N.en e = (s.dev.en e).atIssue (.dlrd e d a line p) := by rw [hN, Dev.noteTap_en, Dev.issue_en_self]
  have hen : (N.en e).enabled p = (s.dev.en e).enabled p := by rw [hNen, EngS.atIssue_enabled]
  have hh : e.val / 8 < 2 := by omega
  obtain ⟨m, hgw, htiles, hload⟩ := N.dlLoad_clean e d line.toNat ((s.dev.en e).getS a).toNat p (by rw [hen]; exact hclean)
  rw [hen] at hload
  have hx := exec_dlrd s e d a line p hls hn
  simp only [← hN, hpage, hload] at hx
  have hsame : ∀ g, (s.dev.issue (.dlrd e d a line p) e).hm g = s.dev.hm g := Dev.hm_congr (s.dev.issue_mem _ _)
  have he : ∀ D : Dev, (((D.setHm (e / 8) m).modEn e fun g => g.writeLanes d ((s.dev.en e).enabled p)
      (N.dlWord e line.toNat ((s.dev.en e).getS a).toNat)).modEn e EngS.advance).settle.en e =
      ((D.en e).writeLanes d ((s.dev.en e).enabled p) (N.dlWord e line.toNat ((s.dev.en e).getS a).toNat)).advance := fun D => by
    rw [Dev.en_of_rest (Dev.settle_rest _), Dev.en_modEn, if_pos rfl, Dev.en_modEn, if_pos rfl, Dev.setHm_en]
  have hm : ∀ (D : Dev) f g i, (((D.setHm (e / 8) m).modEn e f).modEn e g).settle.hm i = (D.setHm (e / 8) m).hm i :=
    fun D f g i => Dev.hm_congr rfl i
  obtain ⟨hNgw, hNtiles⟩ := (s.dev.issue (.dlrd e d a line p) e).noteTap_hm (e / 8) line.toNat ((s.dev.en e).getS a).toNat
  rw [← hN, hsame] at hNgw hNtiles
  refine ⟨_, hx, rfl, ?_, ?_, ?_, ?_, ?_, fun k hk => ?_⟩
  · rw [he, hNen]
    exact onlyLanes_issued (.dlrd e d a line p) (EngS.writeLanes_onlyLanes _ p d _)
  · rw [he, hNen]
    exact EngS.writeLanes_flags _ _ _ _
  · rw [hm, Dev.hm_setHm_self, hgw, hNgw]
  · rw [hm, Dev.hm_setHm_self, htiles, hNtiles]
  · rw [hm, Dev.hm_setHm_other _ _ _ hh, hN, Dev.noteTap, Dev.hm_setHm_other _ _ _ hh, hsame]
  · obtain ⟨hk8, hlane⟩ := ((s.dev.en e).mem_enabled p k).mp hk
    rw [he, hNen, EngS.advance_getV]
    exact EngS.writeLanes_getV_enabled ((s.dev.en e).atIssue (.dlrd e d a line p)) d p _ k hk8 hlane

@[simp] theorem Dev.setSh_sh_self (d : Dev) (h : Nat) (x : SchH) : (d.setSh h x).sh h = x := by
  unfold Dev.setSh Dev.sh
  split <;> rfl

@[simp] theorem Dev.setSh_en (d : Dev) (h : Nat) (x : SchH) (q : Nat) : (d.setSh h x).en q = d.en q := by
  unfold Dev.setSh
  split <;> rfl

theorem Dev.sh_congr {d d' : Dev} (hd : d.sch = d'.sch) (h : Nat) : d.sh h = d'.sh h := by rw [Dev.sh, Dev.sh, hd]

/-- A miss is counted in a register and in the misses of its hearth's tick; what else it changes is the hearth's memory. -/
theorem Dev.startMiss_eq (d : Dev) (h l p : Nat) :
    ∃ d' : Dev, d'.rest = d.rest ∧
      Dev.OnlyHm h (d'.setSh h { d'.sh h with misses := (d'.sh h).misses + 1 }) (d.startMiss h l p) := by
  by_cases hh : h = 0
  · refine ⟨d.count Reg.PGU_DMISSA_COUNT Reg.PGU_STATUS_CNT_HALF, Dev.count_rest _ _ _ _, ?_⟩
    rw [Dev.startMiss, if_pos hh]
    exact Dev.askPage_onlyHm _ h l p
  · refine ⟨d.count Reg.PGU_DMISSB_COUNT Reg.PGU_STATUS_CNT_HALF, Dev.count_rest _ _ _ _, ?_⟩
    rw [Dev.startMiss, if_neg hh]
    exact Dev.askPage_onlyHm _ h l p

theorem Dev.startMiss_en (d : Dev) (h l p q : Nat) : (d.startMiss h l p).en q = d.en q := by
  obtain ⟨d', hr, ho⟩ := d.startMiss_eq h l p
  rw [ho.en, Dev.setSh_en, Dev.en_of_rest hr]

theorem Dev.startMiss_misses (d : Dev) (h l p : Nat) : ((d.startMiss h l p).sh h).misses = (d.sh h).misses + 1 := by
  obtain ⟨d', hr, ho⟩ := d.startMiss_eq h l p
  have hsch : d'.sch = d.sch := show d'.rest.sch = d.rest.sch by rw [hr]
  rw [ho.sh, Dev.setSh_sh_self, Dev.sh_congr hsch]

theorem dlrd_stalls (s : State) (e : Eng) (d : VReg) (a : SReg) (line : BitVec 12) (p : PReg) (N : Dev)
    (hN : N = (s.dev.issue (.dlrd e d a line p) e).noteTap (e / 8) line.toNat ((s.dev.en e).getS a).toNat)
    (hls : (s.dev.en e).enabled p ≠ []) (hn : (jobOn (s.dev.issue (.dlrd e d a line p) e) e).namesLine line.toNat = true) (pg : Nat)
    (hpage : N.absentPage (e / 8) line.toNat ((s.dev.en e).getS a).toNat ((s.dev.en e).enabled p) = some pg) :
    ∃ t, exec (.dlrd e d a line p) s = .next t ∧ t.nv = s.nv ∧ SameFiles (s.dev.en e) (t.dev.en e) ∧
      (t.dev.en e).pc = (s.dev.en e).pc ∧ (t.dev.en e).miss =
        some { d := d, sa := ((s.dev.en e).getS a).toNat, line := line.toNat, p := p, page := pg,
               vals := N.dlSeen e line.toNat ((s.dev.en e).getS a).toNat ((s.dev.en e).enabled p) } ∧
      (t.dev.sh (e / 8)).misses = (s.dev.sh (e / 8)).misses + 1 := by
  have hNen : N.en e = (s.dev.en e).atIssue (.dlrd e d a line p) := by rw [hN, Dev.noteTap_en, Dev.issue_en_self]
  have hx := exec_dlrd s e d a line p hls hn
  simp only [← hN, hpage] at hx
  have he : ∀ f : EngS → EngS, ((N.startMiss (e / 8) line.toNat pg).modEn e f).settle.en e =
      f ((s.dev.en e).atIssue (.dlrd e d a line p)) := fun f => by
    rw [Dev.en_of_rest (Dev.settle_rest _), Dev.en_modEn, if_pos rfl, Dev.startMiss_en, hNen]
  have hsh : ∀ f : EngS → EngS, ((N.startMiss (e / 8) line.toNat pg).modEn e f).settle.sh (e / 8) =
      (N.startMiss (e / 8) line.toNat pg).sh (e / 8) := fun f => Dev.sh_congr rfl _
  have hsch : (s.dev.issue (.dlrd e d a line p) e).sch = s.dev.sch :=
    Dev.sch_of_outer (Dev.issue_outer s.dev (.dlrd e d a line p) e)
  refine ⟨_, hx, rfl, ?_, ?_, ?_, ?_⟩
  · rw [he]
    exact ⟨rfl, rfl, rfl, rfl, rfl, rfl⟩
  · rw [he]
    rfl
  · rw [he]
  · rw [hsh, Dev.startMiss_misses, hN, Dev.noteTap, Dev.setHm_sh, Dev.sh_congr hsch]

/-! ### A delay-line write (R178, R211) -/

@[simp] theorem Dev.setLine_en (d : Dev) (l : Nat) (x : Line) (q : Nat) : (d.setLine l x).en q = d.en q := rfl

theorem Dev.setLine_hm (d : Dev) (l : Nat) (x : Line) (h : Nat) : (d.setLine l x).hm h = d.hm h := rfl

/-- A store that no higher engine overtakes takes effect; its note leaves the content of memory. -/
theorem HMem.noteStore_wins (m : HMem) (t e key : Nat) (old : Word)
    (hw : ¬ (m.cyc = t ∧ (Sparse.get (16, 0) m.stores key).1 ≠ 16 ∧ e < (Sparse.get (16, 0) m.stores key).1)) :
    ∃ n, m.noteStore t e key old = (n, true) ∧ n.gw = m.gw ∧ n.tiles = m.tiles ∧ n.frames = m.frames := by
  by_cases h16 : (Sparse.get (16, 0) (if m.cyc = t then m.stores else []) key).1 = 16
  · exact ⟨_, if_pos h16, rfl, rfl, rfl⟩
  · have hcyc : m.cyc = t := by
      by_contra hc
      exact h16 (by rw [if_neg hc]; rfl)
    have hle : (Sparse.get (16, 0) (if m.cyc = t then m.stores else []) key).1 ≤ e := by
      rw [if_pos hcyc] at h16 ⊢
      by_contra hle
      exact hw ⟨hcyc, h16, by omega⟩
    exact ⟨_, (if_neg h16).trans (if_pos hle), rfl, rfl, rfl⟩

theorem HMem.frameOf_congr {m n : HMem} (h : n.frames = m.frames) (l p : Nat) : n.frameOf l p = m.frameOf l p := by
  rw [HMem.frameOf, HMem.frameOf, h]

/-- The memory of a hearth after a sample is stored over word `key` in frame `f`, which becomes dirty. -/
def HMem.dirtied (n : HMem) (f : Nat) (fr : Frame) (key : Nat) (v : Word) : HMem :=
  (n.putSample key v).useFrame f { fr with st := .dirty }

theorem HMem.dirtied_content (n : HMem) (f : Nat) (fr : Frame) (key : Nat) (v : Word) :
    (n.dirtied f fr key v).word key = v ∧ (∀ w, w ≠ key → (n.dirtied f fr key v).word w = n.word w) ∧
      (Sparse.get {} (n.dirtied f fr key v).frames f).st = .dirty ∧ (n.dirtied f fr key v).tiles = n.tiles := by
  refine ⟨?_, fun w hw => ?_, ?_, rfl⟩
  · exact Sparse.get_put_eq _ _ _ _
  · exact Sparse.get_put_ne _ _ _ _ _ _ (Ne.symm hw)
  · exact congrArg Frame.st (Sparse.get_put_eq ({} : Frame) n.frames f { fr with st := .dirty, used := n.uses + 1 })

/-- A write of one sample into a held page of the head pair of an unprotected line. -/
theorem Dev.dlWrite_inPair (d : Dev) (e l : Nat) (q : Nat × Nat) (v : Word) (x : Line) (f : Nat) (fr : Frame)
    (hx : d.line l = some x) (hprot : x.prot = false) (hq : q.1 ∈ x.pair)
    (hf : (d.hm (e / 8)).frameOf l q.1 = some (f, fr)) (hfill : fr.st ≠ .filling) (hov : ¬ Overtaken d e (posKey l q)) :
    ∃ (n : HMem) (y : Line), n.gw = (d.hm (e / 8)).gw ∧ n.tiles = (d.hm (e / 8)).tiles ∧
      d.dlWrite (e / 8) e l [(q.1, q.2, v)] = (d.setHm (e / 8) (n.dirtied f fr (d.frameKey f + q.2) v)).setLine l y := by
  have hpair : d.inPair (e / 8) l x q.1 = true := by
    rw [Dev.inPair, hf, List.contains_iff_mem.mpr hq]
    rfl
  obtain ⟨n, hnote, hgw, htiles, hframes⟩ := (d.hm (e / 8)).noteStore_wins (d.en e).now e (posKey l q)
    (d.lineWord (e / 8) l q) hov
  refine ⟨n, { x with written := x.written.filter fun s => !([(q.1 * 1024 + q.2, v)].any fun p => p.1 == s.1) }, hgw, htiles, ?_⟩
  rw [Dev.dlWrite, hx]
  simp only [List.all_cons, List.all_nil, hpair, Bool.and_true, List.isEmpty_cons, Bool.false_eq_true, if_false, Bool.not_true,
    Bool.false_and, List.foldl_cons, List.foldl_nil, hnote, if_true, List.nil_append, HMem.frameOf_congr hframes, hf, if_neg hfill,
    hprot, false_and]
  rfl

theorem dlwr_stores (s : State) (e : Eng) (v : VReg) (a : SReg) (line : BitVec 12) (p : PReg) (k : Nat) (x : Line) (q : Nat × Nat)
    (f : Nat) (fr : Frame) (D : Dev) (hD : D = s.dev.issue (.dlwr e v a line p) e) (hk : (s.dev.en e).enabled p = [k])
    (hn : (jobOn D e).namesLine line.toNat = true) (hline : line.toNat < 3072) (hx : D.line line.toNat = some x)
    (hprot : x.prot = false) (hpos : D.posOf line.toNat ((s.dev.en e).getS a).toNat k true = some q) (hq : q.1 ∈ x.pair)
    (hf : (D.hm (e / 8)).frameOf line.toNat q.1 = some (f, fr)) (hfill : fr.st ≠ .filling)
    (hov : ¬ Overtaken D e (posKey line.toNat q)) :
    ∃ t, exec (.dlwr e v a line p) s = .next t ∧ SameFiles (s.dev.en e) (t.dev.en e) ∧
      (t.dev.hm (e / 8)).word (D.frameKey f + q.2) = (s.dev.en e).getV v k ∧
      (∀ w, w ≠ D.frameKey f + q.2 → (t.dev.hm (e / 8)).word w = (s.dev.hm (e / 8)).word w) ∧
      (Sparse.get {} (t.dev.hm (e / 8)).frames f).st = .dirty ∧ (t.dev.hm (e / 8)).tiles = (s.dev.hm (e / 8)).tiles ∧
      t.dev.hm (1 - e / 8) = s.dev.hm (1 - e / 8) := by
  have hen : D.en e = (s.dev.en e).atIssue (.dlwr e v a line p) := by rw [hD, Dev.issue_en_self]
  obtain ⟨n, y, hgw, htiles, hw⟩ := D.dlWrite_inPair e line.toNat q ((s.dev.en e).getV v k) x f fr hx hprot hq hf hfill hov
  have hrun : exec (.dlwr e v a line p) s =
      .next { s with dev := ((D.dlWrite (e / 8) e line.toNat [(q.1, q.2, (s.dev.en e).getV v k)]).modEn e EngS.advance).settle } := by
    rw [jobOn] at hn
    show execDlwr e v a line p s = _
    have hgetS : ((s.dev.en e).atIssue (.dlwr e v a line p)).getS a = (s.dev.en e).getS a := rfl
    have hgetV : ((s.dev.en e).atIssue (.dlwr e v a line p)).getV v k = (s.dev.en e).getV v k := rfl
    rw [hen] at hn
    simp only [execDlwr, devOp, onDev, ← hD, hen, hn, EngS.atIssue_enabled, hk, hgetS, List.isEmpty_cons, Bool.false_eq_true, if_false,
      Bool.not_true, Bool.false_or, decide_eq_true_eq, if_neg (Nat.not_le.mpr hline), ge_iff_le, List.filterMap_cons,
      List.filterMap_nil, hpos, Option.map_some, hgetV]
  rw [hw] at hrun
  have hm : ∀ i, (((D.setHm (e / 8) (n.dirtied f fr (D.frameKey f + q.2) ((s.dev.en e).getV v k))).setLine line.toNat y).modEn e
      EngS.advance).settle.hm i = (D.setHm (e / 8) (n.dirtied f fr (D.frameKey f + q.2) ((s.dev.en e).getV v k))).hm i :=
    fun i => rfl
  have hsame : ∀ g, D.hm g = s.dev.hm g := fun g => by rw [hD]; exact Dev.hm_congr (s.dev.issue_mem _ _) g
  obtain ⟨hword, hother, hdirty, htile⟩ := n.dirtied_content f fr (D.frameKey f + q.2) ((s.dev.en e).getV v k)
  refine ⟨_, hrun, ?_, ?_, fun w hne => ?_, ?_, ?_, ?_⟩
  · rw [Dev.en_of_rest (Dev.settle_rest _), Dev.en_modEn, if_pos rfl, Dev.setLine_en, Dev.setHm_en, hen]
    exact ⟨rfl, rfl, rfl, rfl, rfl, rfl⟩
  · rw [hm, Dev.hm_setHm_self, hword]
  · rw [hm, Dev.hm_setHm_self, hother w hne, HMem.word, HMem.word, hgw, hsame]
  · rw [hm, Dev.hm_setHm_self, hdirty]
  · rw [hm, Dev.hm_setHm_self, htile, htiles, hsame]
  · rw [hm, Dev.hm_setHm_other _ _ _ (by omega), hsame]

/-- Settles O9: a read that finds its pages loads what `Dev.dlWord` says, one that does not starts a miss; a write into the head pair
stores its sample over the word of the frame. -/
theorem delayLineAccessesMoveSamples : Obligations.DelayLineAccessesMoveSamples := by
  constructor
  · intro s e d a line p D N ls hls hn
    exact ⟨dlrd_returns s e d a line p N rfl hls hn, dlrd_stalls s e d a line p N rfl hls hn⟩
  · intro s e v a line p k x q f fr D hk hn hline hx hprot hpos hq hf hfill hov
    exact dlwr_stores s e v a line p k x q f fr D rfl hk hn hline hx hprot hpos hq hf hfill hov

end Sys2Proof.Machine
end

section
-- Proofs that wait for one another's kernel checks run one at a time, which keeps the threads and their memory few.
set_option Elab.async false
/-! The encodings of the engine instructions (R153, R165 to R167): a format is a partition of the word into fields, and the word of an
instruction is a value for each of them. -/
namespace Sys2Proof.Machine
open Sys2Proof.Claims

/-! ### Formats -/

/-- The value of the field at bit `lo` of a list of fields. -/
def fieldAt : List (Nat × Nat) → Nat → Nat
  | [], _ => 0
  | (l, x) :: rest, lo => (if l = lo then x else 0) + fieldAt rest lo

/-- The fields of a format, each with its low bit and width, from the top down without a gap below bit `top`. -/
def Partition : Nat → List (Nat × Nat) → Bool
  | top, [] => top == 0
  | top, (lo, n) :: rest => lo + n == top && decide (0 < n) && Partition lo rest

/-- The word that has the value `v lo` in each field of the format. -/
def spell (v : Nat → Nat) : List (Nat × Nat) → Nat
  | [] => 0
  | (lo, _) :: rest => v lo * 2 ^ lo + spell v rest

theorem spell_lt (v : Nat → Nat) (F : List (Nat × Nat)) (top : Nat) (hF : Partition top F = true)
    (hv : ∀ f ∈ F, v f.1 < 2 ^ f.2) : spell v F < 2 ^ top := by
  induction F generalizing top with
  | nil => simp [spell]
  | cons f t ih =>
    obtain ⟨lo, n⟩ := f
    simp only [Partition, Bool.and_eq_true, beq_iff_eq, decide_eq_true_eq] at hF
    obtain ⟨⟨rfl, -⟩, ht⟩ := hF
    have hlow := ih lo ht fun f hf => hv f (List.mem_cons_of_mem _ hf)
    have hhigh : v lo + 1 ≤ 2 ^ n := hv (lo, n) List.mem_cons_self
    calc spell v ((lo, n) :: t) = v lo * 2 ^ lo + spell v t := rfl
      _ < (v lo + 1) * 2 ^ lo := by rw [Nat.add_mul]; omega
      _ ≤ 2 ^ n * 2 ^ lo := Nat.mul_le_mul_right _ hhigh
      _ = 2 ^ (lo + n) := by rw [← Nat.pow_add, Nat.add_comm]

theorem Partition_le (F : List (Nat × Nat)) (top : Nat) (hF : Partition top F = true) : ∀ f ∈ F, f.1 + f.2 ≤ top ∧ 0 < f.2 := by
  induction F generalizing top with
  | nil => simp
  | cons g t ih =>
    obtain ⟨lo, n⟩ := g
    simp only [Partition, Bool.and_eq_true, beq_iff_eq, decide_eq_true_eq] at hF
    obtain ⟨⟨rfl, hn⟩, ht⟩ := hF
    intro f hf
    rcases List.mem_cons.mp hf with rfl | hf
    · exact ⟨Nat.le_refl _, hn⟩
    · obtain ⟨h1, h2⟩ := ih lo ht f hf
      exact ⟨by omega, h2⟩

/-- Every field of a spelt word holds its value. -/
theorem bits_spell (v : Nat → Nat) (F : List (Nat × Nat)) (top : Nat) (hF : Partition top F = true)
    (hv : ∀ f ∈ F, v f.1 < 2 ^ f.2) : ∀ f ∈ F, bits (spell v F) (f.1 + f.2 - 1) f.1 = v f.1 := by
  induction F generalizing top with
  | nil => simp
  | cons g t ih =>
    obtain ⟨lo, n⟩ := g
    have hF' := hF
    simp only [Partition, Bool.and_eq_true, beq_iff_eq, decide_eq_true_eq] at hF'
    obtain ⟨⟨rfl, hn⟩, ht⟩ := hF'
    have hlow := spell_lt v t lo ht fun f hf => hv f (List.mem_cons_of_mem _ hf)
    intro f hf
    rcases List.mem_cons.mp hf with rfl | hf
    · rw [bits, show lo + n - 1 + 1 - lo = n by omega, spell, Nat.add_comm, Nat.add_mul_div_right _ _ (Nat.two_pow_pos lo),
        Nat.div_eq_of_lt hlow, Nat.zero_add, Nat.mod_eq_of_lt (hv _ List.mem_cons_self)]
    · obtain ⟨hle, hpos⟩ := Partition_le t lo ht f hf
      rw [← ih lo ht (fun f hf => hv f (List.mem_cons_of_mem _ hf)) f hf, bits, bits, spell,
        show f.1 + f.2 - 1 + 1 - f.1 = f.2 by omega]
      obtain ⟨k, rfl⟩ := Nat.exists_eq_add_of_le hle
      rw [show v (f.1 + f.2 + k) * 2 ^ (f.1 + f.2 + k) = (v (f.1 + f.2 + k) * 2 ^ k * 2 ^ f.2) * 2 ^ f.1 by
        rw [Nat.mul_assoc, Nat.mul_assoc, ← Nat.pow_add, ← Nat.pow_add]; congr 2; omega,
        Nat.add_comm, Nat.add_mul_div_right _ _ (Nat.two_pow_pos f.1), Nat.add_mul_mod_self_right]

theorem spell_add (v v' : Nat → Nat) (F : List (Nat × Nat)) : spell (fun i => v i + v' i) F = spell v F + spell v' F := by
  induction F with
  | nil => rfl
  | cons f t ih =>
    obtain ⟨lo, n⟩ := f
    simp only [spell, ih, Nat.add_mul]
    omega

theorem spell_single (F : List (Nat × Nat)) (lo x : Nat) (top : Nat) (hF : Partition top F = true) :
    spell (fun i => if lo = i then x else 0) F = if lo ∈ F.map (·.1) then x * 2 ^ lo else 0 := by
  induction F generalizing top with
  | nil => rfl
  | cons f t ih =>
    obtain ⟨l, n⟩ := f
    simp only [Partition, Bool.and_eq_true, beq_iff_eq, decide_eq_true_eq] at hF
    obtain ⟨⟨rfl, -⟩, ht⟩ := hF
    rw [spell, ih l ht]
    by_cases h : lo = l
    · subst h
      have hnot : lo ∉ t.map (·.1) := fun hm => by
        obtain ⟨f, hf, rfl⟩ := List.mem_map.mp hm
        have := Partition_le t f.1 ht f hf
        omega
      simp [hnot]
    · rw [if_neg h, Nat.zero_mul, Nat.zero_add, List.map_cons]
      simp only [List.mem_cons, h, false_or]

/-- A list of fields of a format spells the word with those values. -/
theorem pack_eq_spell (F fs : List (Nat × Nat)) (top : Nat) (hF : Partition top F = true) (hfs : ∀ f ∈ fs, f.1 ∈ F.map (·.1)) :
    pack fs = spell (fieldAt fs) F := by
  induction fs with
  | nil =>
    have : ∀ F : List (Nat × Nat), spell (fieldAt []) F = 0 := fun F => by
      induction F with
      | nil => rfl
      | cons f t ih =>
        show 0 * 2 ^ f.1 + spell (fieldAt []) t = 0
        rw [ih, Nat.zero_mul]
    exact (this F).symm
  | cons f t ih =>
    obtain ⟨lo, x⟩ := f
    have hv : fieldAt ((lo, x) :: t) = fun i => (if lo = i then x else 0) + fieldAt t i := rfl
    rw [hv, spell_add, spell_single F lo x top hF, if_pos (hfs _ List.mem_cons_self), pack,
      ih fun f hf => hfs f (List.mem_cons_of_mem _ hf)]

/-- The bits of a word that a list of fields of a format packs. -/
theorem bits_pack (F fs : List (Nat × Nat)) (hF : Partition 32 F = true) (hfs : fs.all (fun f => (F.map (·.1)).contains f.1) = true)
    (hv : ∀ f ∈ F, fieldAt fs f.1 < 2 ^ f.2) :
    pack fs < 2 ^ 32 ∧ ∀ f ∈ F, bits (pack fs) (f.1 + f.2 - 1) f.1 = fieldAt fs f.1 := by
  have hfs' : ∀ f ∈ fs, f.1 ∈ F.map (·.1) := fun f hf => List.contains_iff_mem.mp (List.all_eq_true.mp hfs f hf)
  rw [pack_eq_spell F fs 32 hF hfs']
  exact ⟨spell_lt _ F 32 hF hv, bits_spell _ F 32 hF hv⟩

theorem decodeWord_of_candidate {e : Eng} {i : Instr} {w : Nat} (hwf : i.wf = true) (hw : encodeWord i = some w)
    (h : candidate e w = some i) : decodeWord e w = some i := by
  simp [decodeWord, h, hwf, hw]

theorem decodeWord_some {e : Eng} {i : Instr} {w : Nat} (h : decodeWord e w = some i) : i.wf = true ∧ encodeWord i = some w := by
  unfold decodeWord at h
  split at h
  · split at h
    · cases h
      rename_i hb
      simpa using hb
    · cases h
  · cases h

/-! The formats A to F of spec/05; a 20-bit immediate of format E may be cut further. -/

def formatA : List (Nat × Nat) := [(26, 6), (21, 5), (16, 5), (11, 5), (9, 2), (0, 9)]
def formatB : List (Nat × Nat) := [(26, 6), (21, 5), (16, 5), (14, 2), (12, 2), (0, 12)]
def formatC : List (Nat × Nat) := [(26, 6), (21, 5), (18, 3), (16, 2), (14, 2), (10, 4), (0, 10)]
def formatD : List (Nat × Nat) := [(26, 6), (21, 5), (16, 5), (14, 2), (13, 1), (10, 3), (0, 10)]
def formatE : List (Nat × Nat) := [(26, 6), (22, 4), (20, 2), (0, 20)]
def formatF : List (Nat × Nat) := [(26, 6), (21, 5), (16, 5), (8, 8), (0, 8)]

/-! Immediates that take a part of the field of their format. -/

def formatShift : List (Nat × Nat) := [(26, 6), (21, 5), (16, 5), (14, 2), (12, 2), (6, 6), (5, 1), (0, 5)]
def formatSet : List (Nat × Nat) := [(26, 6), (21, 5), (16, 5), (14, 2), (12, 2), (8, 4), (0, 8)]
def formatLoop : List (Nat × Nat) := [(26, 6), (22, 4), (20, 2), (8, 12), (0, 8)]
def formatWait : List (Nat × Nat) := [(26, 6), (22, 4), (20, 2), (16, 4), (12, 4), (0, 12)]
def formatPost : List (Nat × Nat) := [(26, 6), (22, 4), (20, 2), (7, 13), (0, 7)]

theorem bit_lt (b : Bool) : bit b < 2 := by cases b <;> decide

@[simp] theorem bit_beq_one (b : Bool) : (bit b == 1) = b := by cases b <;> rfl

theorem bits_low_mod (w : Nat) : bits w 11 0 % 32 = bits w 4 0 := by
  simp only [bits]
  omega

theorem decodes_of_pack (e : Eng) (F : List (Nat × Nat)) {fs : List (Nat × Nat)} {i : Instr} (hwf : i.wf = true)
    (h : encodeWord i = some (pack fs)) (hF : Partition 32 F = true)
    (hfs : fs.all (fun f => (F.map (·.1)).contains f.1) = true) (hv : ∀ f ∈ F, fieldAt fs f.1 < 2 ^ f.2)
    (hc : (∀ f ∈ F, bits (pack fs) (f.1 + f.2 - 1) f.1 = fieldAt fs f.1) → candidate e (pack fs) = some i) :
    pack fs < 2 ^ 32 ∧ ∃ e, decodeWord e (pack fs) = some i :=
  have hb := bits_pack F fs hF hfs hv
  ⟨hb.1, e, decodeWord_of_candidate hwf h (hc hb.2)⟩

/-- SSHI: its shift count stands in the low five bits of the immediate, its direction in the next. -/
theorem decodes_sshi (e : Eng) (d a : SReg) (right : Bool) (sh : Fin 32) (w : Nat) (h : encodeWord (.sshi e d a right sh) = some w) :
    w < 2 ^ 32 ∧ ∃ e', decodeWord e' w = some (.sshi e d a right sh) := by
  obtain rfl := Option.some.inj h
  refine decodes_of_pack e formatShift rfl h rfl rfl (by
    simp only [formatShift, fieldAt, List.forall_mem_cons, Nat.reduceEqDiff, reduceIte, Nat.add_zero, Nat.zero_add, Nat.reducePow,
      List.not_mem_nil, false_implies, implies_true, and_true]
    have := bit_lt right
    omega) fun hb => ?_
  simp only [formatShift, fieldAt, List.forall_mem_cons, Nat.reduceEqDiff, reduceIte, Nat.add_zero, Nat.zero_add, Nat.reduceAdd,
    Nat.reduceSub] at hb
  have hsh : Fin.ofNat 32 (bits (pack [(26, 0x1), (12, 3), (21, d.val), (16, a.val), (5, bit right), (0, sh.val)]) 11 0) = sh :=
    Fin.ext ((bits_low_mod _).trans hb.2.2.2.2.2.2.2.1)
  rw [candidate]
  simp only [dec01, hb, hsh, Fin.ofNat_eq_cast, Fin.cast_val_eq_self, bit_beq_one]

/-- Whether an engine instruction has format A: an opcode, FN and registers. -/
def inFormatA : Instr → Option Bool
  | .sadd .. | .ssub .. | .sand .. | .sor .. | .sxor .. | .sshl .. | .sshr .. | .sshrl .. | .smul .. | .smin .. | .smax ..
  | .sminu .. | .smaxu .. | .aadds .. | .pand .. | .por .. | .pxor .. | .pandn .. | .pnot .. | .pfroms .. | .ptos ..
  | .pcnt .. | .qadd .. | .qsub .. | .qneg .. | .qabs .. | .qmin .. | .qmax .. | .qshl .. | .qshr .. | .qmul .. | .qmuls ..
  | .vadd .. | .vsub .. | .vand .. | .vor .. | .vxor .. | .vshl .. | .vshr .. | .vshrl .. | .qceq .. | .qclt .. | .qcle ..
  | .fceq .. | .fclt .. | .fcle .. | .vmov .. | .vbcst .. | .vext .. | .vins .. | .vrot .. | .vdup .. | .macv .. | .msuv ..
  | .wclrInstruction .. | .wextl .. | .wextr .. | .wextt .. | .wtov .. | .vtow .. | .cstep .. | .fadd .. | .fsub ..
  | .fmul .. | .fmin .. | .fmax .. | .fabs .. | .fneg .. | .fdiv .. | .fsqrt .. | .fma .. | .fms .. | .qtof .. | .ftoq ..
  | .itof .. | .ftoi .. => some true
  | .saddi .. | .sandi .. | .sori .. | .aaddi .. | .amov .. | .samov .. | .pseti .. | .vli .. | .vliu .. | .dlrd ..
  | .dlwr .. | .ldt .. | .ldc .. | .lds .. | .stt .. | .stc .. | .sts .. | .biq .. | .gramp .. | .grampv .. | .envp ..
  | .envs .. | .limg .. | .mixa .. | .mixs .. | .mixl .. | .slui .. | .sli .. | .br .. | .bz .. | .bnz .. | .bpz ..
  | .call .. | .ret .. | .signal .. | .endRun .. | .nop .. | .rdflg .. | .rdcyc .. | .lidx .. | .sshi .. | .wait ..
  | .post .. | .loop .. | .loopReg .. => some false
  | _ => none

theorem encodeWord_isSome (i : Instr) : (encodeWord i).isSome = (inFormatA i).isSome := by
  cases i <;> rfl

theorem decodes_registers (i : Instr) (w : Nat) (hi : inFormatA i = some true) (hwf : i.wf = true) (h : encodeWord i = some w) :
    w < 2 ^ 32 ∧ ∃ e, decodeWord e w = some i := by
  cases i
  case sadd e d a b | ssub e d a b | sand e d a b | sor e d a b | sxor e d a b | sshl e d a b | sshr e d a b | sshrl e d a b |
      smul e d a b | smin e d a b | smax e d a b | sminu e d a b | smaxu e d a b | aadds e d a b | pand e d a b | por e d a b |
      pxor e d a b | pandn e d a b | pnot e d a | pfroms e d a | ptos e d a | pcnt e d a | qadd e d a b p | qsub e d a b p |
      qneg e d a p | qabs e d a p | qmin e d a b p | qmax e d a b p | qshl e d a b p | qshr e d a b p | qmul e d a b p |
      qmuls e d a b p | vadd e d a b p | vsub e d a b p | vand e d a b p | vor e d a b p | vxor e d a b p | vshl e d a b p |
      vshr e d a b p | vshrl e d a b p | qceq e d a b p | qclt e d a b p | qcle e d a b p | fceq e d a b p | fclt e d a b p |
      fcle e d a b p | vmov e d a p | vbcst e d a p | vext e d a n | vins e d a n | vrot e d a n p | vdup e d a n p |
      macv e d a b p | msuv e d a b p | wclrInstruction e d p | wextl e d a sh p | wextr e d a sh p | wextt e d a sh p |
      wtov e d a p | vtow e d a p | cstep e d a b p | fadd e d a b p | fsub e d a b p | fmul e d a b p | fmin e d a b p |
      fmax e d a b p | fabs e d a p | fneg e d a p | fdiv e d a b p | fsqrt e d a p | fma e d a b p | fms e d a b p |
      qtof e d a p | ftoq e d a p | itof e d a p | ftoi e d a p =>
    obtain rfl := Option.some.inj h
    refine decodes_of_pack e formatA hwf h rfl rfl (by
      simp only [formatA, fieldAt, List.forall_mem_cons, Nat.reduceEqDiff, reduceIte, Nat.add_zero, Nat.zero_add, Nat.reducePow,
        List.not_mem_nil, false_implies, implies_true, and_true]
      omega) fun hb => ?_
    simp only [formatA, fieldAt, List.forall_mem_cons, Nat.reduceEqDiff, reduceIte, Nat.add_zero, Nat.zero_add, Nat.reduceAdd,
      Nat.reduceSub] at hb
    simp [candidate, dec00, dec04, dec08, dec09, dec0A, dec0B, dec0C, dec10, dec11, dec14, dec15, dec16, hb]
  all_goals cases hi

theorem decodes_immediate (i : Instr) (w : Nat) (hi : inFormatA i = some false) (hwf : i.wf = true) (h : encodeWord i = some w) :
    w < 2 ^ 32 ∧ ∃ e, decodeWord e w = some i := by
  cases i
  case saddi e d a imm | sandi e d a imm | sori e d a imm | aaddi e d a imm | amov e d a | samov e d a | vli e d imm p |
      vliu e d imm p | dlrd e d a line p | dlwr e src a line p =>
    obtain rfl := Option.some.inj h
    refine decodes_of_pack e formatB hwf h rfl rfl (by
      simp only [formatB, fieldAt, List.forall_mem_cons, Nat.reduceEqDiff, reduceIte, Nat.add_zero, Nat.zero_add, Nat.reducePow,
        List.not_mem_nil, false_implies, implies_true, and_true]
      omega) fun hb => ?_
    simp only [formatB, fieldAt, List.forall_mem_cons, Nat.reduceEqDiff, reduceIte, Nat.add_zero, Nat.zero_add, Nat.reduceAdd,
      Nat.reduceSub] at hb
    simp [candidate, dec01, dec03, dec0D, dec1A, dec1B, hb]
  case pseti e d imm =>
    obtain rfl := Option.some.inj h
    refine decodes_of_pack e formatSet hwf h rfl rfl (by
      simp only [formatSet, fieldAt, List.forall_mem_cons, Nat.reduceEqDiff, reduceIte, Nat.add_zero, Nat.zero_add, Nat.reducePow,
        List.not_mem_nil, false_implies, implies_true, and_true]
      omega) fun hb => ?_
    simp only [formatSet, fieldAt, List.forall_mem_cons, Nat.reduceEqDiff, reduceIte, Nat.add_zero, Nat.zero_add, Nat.reduceAdd,
      Nat.reduceSub] at hb
    simp [candidate, dec05, hb]
  case ldt e d a off p | ldc e d a off k p | lds e d a off k | stt e src a off p | stc e src a off k p | sts e src a off k =>
    obtain rfl := Option.some.inj h
    refine decodes_of_pack e formatC hwf h rfl rfl (by
      simp only [formatC, fieldAt, List.forall_mem_cons, Nat.reduceEqDiff, reduceIte, Nat.add_zero, Nat.zero_add, Nat.reducePow,
        List.not_mem_nil, false_implies, implies_true, and_true]
      omega) fun hb => ?_
    simp only [formatC, fieldAt, List.forall_mem_cons, Nat.reduceEqDiff, reduceIte, Nat.add_zero, Nat.zero_add, Nat.reduceAdd,
      Nat.reduceSub] at hb
    simp [candidate, dec18, dec19, hb]
  case biq e d src cix lane p | gramp e d src cix lane p | grampv e d src cix lane p | envp e d src cix lane p |
      envs e d src cix lane p | limg e d src cix lane p | mixa e d src cix lane p | mixs e d src cix lane p |
      mixl e d src cix lane p =>
    obtain rfl := Option.some.inj h
    refine decodes_of_pack e formatD hwf h rfl rfl (by
      simp only [formatD, fieldAt, List.forall_mem_cons, Nat.reduceEqDiff, reduceIte, Nat.add_zero, Nat.zero_add, Nat.reducePow,
        List.not_mem_nil, false_implies, implies_true, and_true]
      have := bit_lt lane
      omega) fun hb => ?_
    simp only [formatD, fieldAt, List.forall_mem_cons, Nat.reduceEqDiff, reduceIte, Nat.add_zero, Nat.zero_add, Nat.reduceAdd,
      Nat.reduceSub] at hb
    simp [candidate, dec20, dec21, dec22, dec23, dec24, hb]
  case slui e d imm | sli e d imm | br e off | bz e a off | bnz e a off | bpz e a off | call e off | ret e | signal e f |
      endRun e =>
    obtain rfl := Option.some.inj h
    refine decodes_of_pack e formatE hwf h rfl rfl (by
      simp only [formatE, fieldAt, List.forall_mem_cons, Nat.reduceEqDiff, reduceIte, Nat.add_zero, Nat.zero_add, Nat.reducePow,
        List.not_mem_nil, false_implies, implies_true, and_true]
      omega) fun hb => ?_
    simp only [formatE, fieldAt, List.forall_mem_cons, Nat.reduceEqDiff, reduceIte, Nat.add_zero, Nat.zero_add, Nat.reduceAdd,
      Nat.reduceSub] at hb
    simp [candidate, dec02, dec30, dec32, dec33, dec3E, hb]
  case nop e | rdflg e d | rdcyc e d | lidx e d =>
    obtain rfl := Option.some.inj h
    refine decodes_of_pack e formatF hwf h rfl rfl (by
      simp only [formatF, fieldAt, List.forall_mem_cons, Nat.reduceEqDiff, reduceIte, Nat.add_zero, Nat.zero_add, Nat.reducePow,
        List.not_mem_nil, false_implies, implies_true, and_true]
      omega) fun hb => ?_
    simp only [formatF, fieldAt, List.forall_mem_cons, Nat.reduceEqDiff, reduceIte, Nat.add_zero, Nat.zero_add, Nat.reduceAdd,
      Nat.reduceSub] at hb
    simp [candidate, dec3F, hb]
  case sshi e d a right sh => exact decodes_sshi e d a right sh w h
  case wait e d f t =>
    obtain rfl := Option.some.inj h
    refine decodes_of_pack e formatWait hwf h rfl rfl (by
      simp only [formatWait, fieldAt, List.forall_mem_cons, Nat.reduceEqDiff, reduceIte, Nat.add_zero, Nat.zero_add, Nat.reducePow,
        List.not_mem_nil, false_implies, implies_true, and_true]
      omega) fun hb => ?_
    simp only [formatWait, fieldAt, List.forall_mem_cons, Nat.reduceEqDiff, reduceIte, Nat.add_zero, Nat.zero_add, Nat.reduceAdd,
      Nat.reduceSub] at hb
    simp [candidate, dec33, hb]
  case post e a c =>
    obtain rfl := Option.some.inj h
    refine decodes_of_pack e formatPost hwf h rfl rfl (by
      simp only [formatPost, fieldAt, List.forall_mem_cons, Nat.reduceEqDiff, reduceIte, Nat.add_zero, Nat.zero_add, Nat.reducePow,
        List.not_mem_nil, false_implies, implies_true, and_true]
      omega) fun hb => ?_
    simp only [formatPost, fieldAt, List.forall_mem_cons, Nat.reduceEqDiff, reduceIte, Nat.add_zero, Nat.zero_add, Nat.reduceAdd,
      Nat.reduceSub] at hb
    simp [candidate, dec33, hb]
  case loop e count len | loopReg e a ceil len =>
    obtain rfl := Option.some.inj h
    refine decodes_of_pack e formatLoop hwf h rfl rfl (by
      simp only [formatLoop, fieldAt, List.forall_mem_cons, Nat.reduceEqDiff, reduceIte, Nat.add_zero, Nat.zero_add, Nat.reducePow,
        List.not_mem_nil, false_implies, implies_true, and_true]
      omega) fun hb => ?_
    simp only [formatLoop, fieldAt, List.forall_mem_cons, Nat.reduceEqDiff, reduceIte, Nat.add_zero, Nat.zero_add, Nat.reduceAdd,
      Nat.reduceSub] at hb
    simp [candidate, dec31, hb]
  all_goals cases hi

theorem decodes_encodeWord (i : Instr) (w : Nat) (hwf : i.wf = true) (h : encodeWord i = some w) :
    w < 2 ^ 32 ∧ ∃ e, decodeWord e w = some i := by
  have hi := encodeWord_isSome i
  rw [h, Option.isSome_some, eq_comm, Option.isSome_iff_exists] at hi
  obtain ⟨_ | _, hi⟩ := hi
  · exact decodes_immediate i w hi hwf h
  · exact decodes_registers i w hi hwf h

/-- Settles O24: each format is a partition of the word, so that its fields give back what was packed (`bits_pack`), and the decoder keeps
a candidate only where its own word is the one decoded. -/
theorem decodingInvertsEncoding : Obligations.DecodingInvertsEncoding :=
  ⟨decodes_encodeWord, fun _ _ _ => decodeWord_some⟩

end Sys2Proof.Machine
end

section
/-! The step, reset, the words of spec/05 and the special cases of binary32 (R127, R165 to R167, R174, R474). -/
namespace Sys2Proof.Machine
open Sys2Proof.Claims

/-- Settles O19. -/
theorem stepTakesTheFrontCommand : Obligations.StepTakesTheFrontCommand :=
  ⟨fun s c rest h => by rw [step, h], fun s h => by rw [step, h]⟩

/-- Settles O25: each word is decoded on every engine. -/
theorem engineWordsDecodeToTheirInstructions : Obligations.EngineWordsDecodeToTheirInstructions := by
  unfold Obligations.EngineWordsDecodeToTheirInstructions
  decide +kernel

/-! ### binary32 (R127, R174) -/

/-- The only flag that an operand itself sets is FDEN. -/
theorem fpOf_flags (a : Word) : (fpOf a).2 = 0 ∨ (fpOf a).2 = flgFDEN := by
  unfold fpOf
  dsimp only
  split
  · exact .inl rfl
  · split
    · split
      · exact .inl rfl
      · exact .inr rfl
    · exact .inl rfl

theorem fpOf_inf_flags (a : Word) (n : Bool) (h : (fpOf a).1 = .inf n) : (fpOf a).2 = 0 := by
  unfold fpOf at h ⊢
  dsimp only at h ⊢
  split
  · rfl
  · rename_i hex
    rw [if_neg hex] at h
    split at h <;> cases h

/-- FINV, FOVF and FDZ come from the operation alone. -/
theorem flags_of_operands (a b : Word) (f : Flg) (k : Nat) (hk : k < 5) :
    ((fpOf a).2 ||| (fpOf b).2 ||| f).getLsbD k = f.getLsbD k := by
  have hden : flgFDEN.getLsbD k = false := by
    interval_cases k <;> rfl
  rcases fpOf_flags a with ha | ha <;> rcases fpOf_flags b with hb | hb <;>
    simp [ha, hb, hden]

theorem faddOp_eq (a b : Word) : faddOp a b = ((faddCore (fpOf a).1 (fpOf b).1).1,
    (fpOf a).2 ||| (fpOf b).2 ||| (faddCore (fpOf a).1 (fpOf b).1).2) := rfl

theorem fsubOp_eq (a b : Word) : fsubOp a b = ((faddCore (fpOf a).1 (fpOf b).1.neg).1,
    (fpOf a).2 ||| (fpOf b).2 ||| (faddCore (fpOf a).1 (fpOf b).1.neg).2) := rfl

/-- The quotient of two values. -/
def fdivCore (x y : FP) : Word × Flg :=
  match x, y with
  | .nan, _ => (qNaN, 0)
  | _, .nan => (qNaN, 0)
  | .inf _, .inf _ => (qNaN, flgFINV)
  | .inf s, .fin t _ _ => (finf (s != t), 0)
  | .fin s _ _, .inf t => (fzero (s != t), 0)
  | .fin s m1 e1, .fin t m2 e2 =>
    if m2 = 0 then (if m1 = 0 then (qNaN, flgFINV) else (finf (s != t), flgFDZ))
    else if m1 = 0 then (fzero (s != t), 0)
    else fround (s != t) (m1 * 2 ^ 30 / m2) (e1 - e2 - 30) (m1 * 2 ^ 30 % m2 != 0)

theorem fdivOp_eq (a b : Word) : fdivOp a b = ((fdivCore (fpOf a).1 (fpOf b).1).1,
    (fpOf a).2 ||| (fpOf b).2 ||| (fdivCore (fpOf a).1 (fpOf b).1).2) := rfl

/-- The rounded product of two values. -/
def fmulCore (x y : FP) : Word × Flg := ((fpack (fmulExact x y).1).1, (fmulExact x y).2 ||| (fpack (fmulExact x y).1).2)

theorem fmulOp_eq (a b : Word) : fmulOp a b = ((fmulCore (fpOf a).1 (fpOf b).1).1,
    (fpOf a).2 ||| (fpOf b).2 ||| (fmulCore (fpOf a).1 (fpOf b).1).2) := by
  rw [fmulCore, ← BitVec.or_assoc]
  rfl

theorem faddCore_nan (x y : FP) (h : x = .nan ∨ y = .nan) : faddCore x y = (qNaN, 0) := by
  rcases h with rfl | rfl
  · rfl
  · cases x <;> rfl

theorem fmulExact_nan (x y : FP) (h : x = .nan ∨ y = .nan) : fmulExact x y = (.nan, 0) := by
  rcases h with rfl | rfl
  · rfl
  · cases x <;> rfl

theorem fmulCore_nan (x y : FP) (h : x = .nan ∨ y = .nan) : fmulCore x y = (qNaN, 0) := by
  rw [fmulCore, fmulExact_nan x y h, fpack, BitVec.or_self]

theorem fdivCore_nan (x y : FP) (h : x = .nan ∨ y = .nan) : fdivCore x y = (qNaN, 0) := by
  rcases h with rfl | rfl
  · rfl
  · cases x <;> rfl

theorem FP.neg_eq_nan (x : FP) : x.neg = .nan ↔ x = .nan := by cases x <;> simp [FP.neg]

/-- A NaN operand gives the quiet NaN, and sets neither FINV nor FOVF nor FDZ. -/
theorem special_nan (a b : Word) (h : (fpOf a).1 = .nan ∨ (fpOf b).1 = .nan) :
    ∀ r ∈ [faddOp a b, fsubOp a b, fmulOp a b, fdivOp a b],
      r.1 = 0x7FC00000 ∧ r.2.getLsbD 2 = false ∧ r.2.getLsbD 3 = false ∧ r.2.getLsbD 4 = false := by
  have hflags : ∀ k, k < 5 → ((fpOf a).2 ||| (fpOf b).2 ||| 0#6).getLsbD k = false := fun k hk => by
    rw [flags_of_operands a b _ k hk]
    exact BitVec.getLsbD_zero
  have hquiet : (0x7FC00000 : Word) = 0x7FC00000 ∧ ((fpOf a).2 ||| (fpOf b).2 ||| 0#6).getLsbD 2 = false ∧
      ((fpOf a).2 ||| (fpOf b).2 ||| 0#6).getLsbD 3 = false ∧ ((fpOf a).2 ||| (fpOf b).2 ||| 0#6).getLsbD 4 = false :=
    ⟨rfl, hflags 2 (by decide), hflags 3 (by decide), hflags 4 (by decide)⟩
  intro r hr
  simp only [List.mem_cons, List.not_mem_nil, or_false] at hr
  rcases hr with rfl | rfl | rfl | rfl
  · rw [faddOp_eq, faddCore_nan _ _ h]
    exact hquiet
  · rw [fsubOp_eq, faddCore_nan _ _ (h.imp_right (FP.neg_eq_nan _).mpr)]
    exact hquiet
  · rw [fmulOp_eq, fmulCore_nan _ _ h]
    exact hquiet
  · rw [fdivOp_eq, fdivCore_nan _ _ h]
    exact hquiet

/-- Settles O16: an operation on words is one on values (`faddOp_eq` and its like), to whose flags an operand adds none but FDEN. -/
theorem floatSpecialCases : Obligations.FloatSpecialCases := by
  refine ⟨special_nan, fun a b n ha hb => ?_, fun a b n m e ha hb => ?_, fun a b n m e k ha hb => ?_,
    fun a b n m e x k ha hx hb => ?_, fun a ⟨hex, hfr⟩ => ?_⟩
  · rw [fsubOp_eq, fdivOp_eq, ha, hb, fpOf_inf_flags a n ha, fpOf_inf_flags b n hb]
    cases n <;> exact ⟨rfl, rfl⟩
  · have hprod : fmulCore (.inf n) (.fin m 0 e) = (qNaN, flgFINV) := by
      rw [fmulCore, fmulExact, if_pos rfl, fpack]
      exact congrArg (Prod.mk qNaN) BitVec.or_zero
    rw [fmulOp_eq, ha, hb, hprod]
    exact ⟨rfl, (flags_of_operands a b flgFINV 2 (by decide)).trans (by decide)⟩
  · rw [fdivOp_eq, ha, hb, fdivCore, if_pos rfl, if_pos rfl]
    exact ⟨rfl, (flags_of_operands a b flgFINV 2 (by decide)).trans (by decide)⟩
  · rw [fdivOp_eq, ha, hb, fdivCore, if_pos rfl, if_neg hx]
    refine ⟨?_, (flags_of_operands a b flgFDZ 4 (by decide)).trans (by decide)⟩
    cases n <;> cases m <;> rfl
  · simp only [fpOf, hex, if_neg hfr]
    exact ⟨rfl, _, rfl⟩

/-! ### Reset -/

/-- After reset no source is enabled, so that no vector's condition is 1. -/
theorem settled_reset : Settled State.reset := by
  have hen : State.reset.dev.rd Reg.INT_EN_EN = 0 := by decide +kernel
  refine ⟨rfl, by decide, fun v => ⟨fun h => (List.not_mem_nil h).elim, fun ⟨_, i, _, _, hone, _⟩ => ?_⟩⟩
  rw [hen, Nat.zero_div] at hone
  cases hone

theorem memoryWf_reset : MemoryWf State.reset := by
  refine ⟨rfl, fun i hi => ?_, fun c hc => by cases hc⟩
  interval_cases i <;> exact ⟨rfl, rfl, rfl⟩

theorem sequenceWf_reset : SequenceWf State.reset := fun f => by
  show 0 < 65536
  decide

/-- Settles O23: a word that nothing has written reads its reset value. -/
theorem resetLeavesTheResetValues : Obligations.ResetLeavesTheResetValues := by
  refine ⟨rfl, fun a => ⟨rfl, rfl⟩, ?_, ?_, ?_, ?_, ?_, ?_, ?_, rfl, rfl, settled_reset, memoryWf_reset, sequenceWf_reset⟩
  all_goals decide +kernel

end Sys2Proof.Machine
end

section
-- Proofs that wait for one another's kernel checks run one at a time, which keeps the threads and their memory few.
set_option Elab.async false
/-! What every command does to the state as a whole. -/
namespace Sys2Proof.Machine
open Sys2Proof.Claims

/-- What a command can end in: the fault of an undefined word, no change at all, or new fuses, flash and device, the events of the device
entered and its interrupt outputs settled. -/
inductive Ends (s : State) : Host.Outcome State Fault Refusal → Prop
  | fault : Ends s (.fault .undefinedWord)
  | same : Ends s (.next s)
  | settled (nv : NV) (d : Dev) : Ends s (.next { s with nv := nv, dev := d.settle })

theorem Ends.onDev (f : Dev → Dev) (s : State) : Ends s (onDev f s) := .settled s.nv (f s.dev)

theorem Ends.orUndefined {s : State} {ok : Bool} {r : Host.Outcome State Fault Refusal} (h : Ends s r) : Ends s (orUndefined ok r) := by
  unfold Machine.orUndefined
  split
  · exact h
  · exact .fault

theorem execSaved_ends (ok : Bool) (s : State) : Ends s (execSaved ok s) := by
  unfold execSaved
  dsimp only
  split
  · exact .settled _ _
  · exact .same

theorem exec_ends (i : Instr) (s : State) : Ends s (exec i s) := by
  cases i
  case saved ok => exact execSaved_ends ok s
  case loopReg | call | wait | biq | gramp | grampv | wtov | vtow | cstep => exact .orUndefined (.settled _ _)
  all_goals exact .settled _ _

/-- Settles O20. -/
theorem commandsKeepTheQueue : Obligations.CommandsKeepTheQueue := by
  intro c s t h
  have he := exec_ends c s
  rw [h] at he
  cases he <;> rfl

/-- A command with an operand that its word may leave undefined (R167). -/
theorem orUndefined_iff {ok : Bool} {i : Instr} {s t : State} (hok : i.wf = ok) (h : exec i s = orUndefined ok (.next t)) :
    (i.wf = false → exec i s = .fault .undefinedWord) ∧ (i.wf = true → ∃ t, exec i s = .next t) := by
  rw [hok, h]
  exact ⟨fun hf => orUndefined_false hf _, fun ht => ⟨t, orUndefined_true ht _⟩⟩

theorem even_wide_iff (d : WReg) : (d.val % 2 == 0) = decide (d.val = 0 ∨ d.val = 2) := by
  revert d
  decide

/-- Settles O15: nine instructions ask their operand; every other one is well formed and completes. -/
theorem undefinedWordsFault : Obligations.UndefinedWordsFault := by
  rintro s i ⟨w, hw⟩
  cases i
  case loopReg | call | wait => exact orUndefined_iff (by simp [Instr.wf, bne, beq_eq_decide]) rfl
  case biq | gramp | grampv | wtov | vtow => exact orUndefined_iff rfl rfl
  case cstep e d a b p => exact orUndefined_iff (even_wide_iff d) rfl
  case saved | gue | isramUe | isramRewrite => cases hw
  all_goals exact ⟨nofun, fun _ => ⟨_, rfl⟩⟩

end Sys2Proof.Machine
end

section
/-! Commands that a lock or the ownership of writes forbids (R49, R50). -/
namespace Sys2Proof.Machine
open Sys2Proof.Claims

/-- The device after a forbidden command of host `h` on the word at `a`. -/
def Dev.denied (d : Dev) (h : Agent) (a k : Nat) : Dev := (d.touch h true (blockOf a)).lockViol h a k

theorem Dev.violation_cmd (d : Dev) (h : Agent) (f : Fld) : d.violation h f.addr [.cmd] false = d.cmdViolation h f false := by
  unfold Dev.violation Dev.cmdViolation
  cases d.owns h <;> cases d.locked h (blockOf f.addr) <;> cases d.on Reg.LOCK_POLICY_LOCK_CMD <;>
    cases d.standLocked h (blockOf f.addr) <;> rfl

theorem Dev.hostBoth_violated (x : NV × Dev) (h : Agent) (f : Fld) (args : List (Fld × Nat)) (eff : NV × Dev → NV × Dev) (k : Nat)
    (hk : x.2.cmdViolation h f (!args.isEmpty) = some k) : hostBoth x h f args eff = (x.1, x.2.denied h f.addr k) := by
  have hk' : (x.2.touch h true (blockOf f.addr)).cmdViolation h f (!args.isEmpty) = some k :=
    (Dev.cmdViolation_congr _ _ _ _ _ (Dev.touch_live _ _ _ _)).trans hk
  simp only [hostBoth, Dev.hostGate, hk', Bool.false_eq_true, if_false]
  rfl

theorem slowCmd_violated (s : State) (h : Agent) (w b k : Nat) (hw : w ≠ 0x24)
    (ht : (touched w (BitVec.ofNat 32 (2 ^ b))).map (·.ty) = [.cmd]) (hk : s.dev.cmdViolation h ⟨w, b, b⟩ false = some k) :
    slowCmd h w b s = .next { s with dev := (s.dev.denied h w k).settle } := by
  obtain ⟨r, hr, hty⟩ := List.map_eq_singleton_iff.mp ht
  have hviol : (s.dev.touch h true (blockOf w)).violation h w [.cmd] false = some k :=
    ((s.dev.touch h true (blockOf w)).violation_cmd h ⟨w, b, b⟩).trans
      ((Dev.cmdViolation_congr _ _ _ _ _ (Dev.touch_live _ _ _ _)).trans hk)
  have hrs : touched w (BitVec.ofNat 32 (2 ^ b)) = [r] := hr
  have hnot : (([r].any fun r => r.ty == .wo1 && (s.dev.touch h true (blockOf w)).fab.wo1.contains (32 * w + r.fld.lo))) = false := by
    rw [List.any_cons, List.any_nil, hty]
    rfl
  simp only [slowCmd, onBoth, ctlWrite, hrs, List.isEmpty_cons, Bool.false_eq_true, if_false, if_neg hw, hnot, List.map_cons,
    List.map_nil, hty, hviol]
  rfl

/-- A command that its row gives to host `h` and the field `f` is only recorded where it is forbidden. -/
theorem hostRow_violated (s : State) (c : Instr) (h : Agent) (f : Fld) (args : Bool) (k : Nat) (hc : hostRow c = some (h, f, args))
    (hk : s.dev.cmdViolation h f args = some k) : exec c s = .next { s with dev := (s.dev.denied h f.addr k).settle } := by
  have hdev : ∀ (args : List (Fld × Nat)) (eff : Dev → Dev), s.dev.cmdViolation h f (!args.isEmpty) = some k →
      onDev (fun d => d.hostCmd h f args eff) s = .next { s with dev := (s.dev.denied h f.addr k).settle } := fun args eff hk => by
    rw [onDev, Dev.hostCmd_violated _ _ _ _ _ _ hk, Dev.denied]
  have hboth : ∀ (args : List (Fld × Nat)) (eff : NV × Dev → NV × Dev), s.dev.cmdViolation h f (!args.isEmpty) = some k →
      onBoth (fun x => hostBoth x h f args eff) s = .next { s with dev := (s.dev.denied h f.addr k).settle } := fun args eff hk => by
    rw [onBoth, Dev.hostBoth_violated (s.nv, s.dev) _ _ _ _ _ hk]
  cases c
  case keyprog | keyrevoke | sapsnap | flashread | flasherase | flashprog | fwinfo =>
    cases hc
    exact hboth _ _ hk
  case safe | hotResume | wake | commitver | clrhist =>
    cases hc
    exact slowCmd_violated s _ _ _ k (by decide) (by decide +kernel) hk
  case ack | kick | start | almRelease | jobRead | admitJob | updateJob | releaseJob | suspendJob | resumeJob | maccSnap | flush |
      commitStrobe | crcCapture | dumpTrigger | dumpRelease | fetch | apply | stop | dlRead | defineLine | freeLine | msgReload | swap |
      clrSuspect | restore | load | unload | query | retest | wclr | switchnow | reanchor | clrslots | align | disarm | rebase | accept |
      clrreb =>
    cases hc
    exact hdev _ _ hk
  all_goals cases hc

theorem hostRow_addr {c : Instr} {h : Agent} {f : Fld} {args : Bool} (hc : hostRow c = some (h, f, args)) : f.addr < 2 ^ 24 := by
  cases c
  case ack | kick | start | almRelease | jobRead | admitJob | updateJob | releaseJob | suspendJob | resumeJob | maccSnap | flush |
      commitStrobe | crcCapture | dumpTrigger | dumpRelease | fetch | apply | stop | dlRead | defineLine | freeLine | msgReload | swap |
      clrSuspect | restore | load | unload | query | switchnow | reanchor | clrslots | keyprog | keyrevoke | sapsnap | flashread |
      flasherase | flashprog | fwinfo | safe | hotResume | wake | commitver | clrhist =>
    cases hc
    decide
  case retest | wclr | align | disarm | rebase | accept | clrreb =>
    cases hc
    simp only [Reg.ENG_CMD_RETEST, Reg.ENG_CMD_WCLR, Reg.OUT_FP_CMD_ALIGN, Reg.TSU_TRIG_CMD_DISARM, rebaseFld, acceptFld, clrrebFld]
    omega
  all_goals cases hc

/-! ### What a recorded violation changes (R50) -/

/-- The fields that record violations. -/
def violFields : List Fld := [Reg.LOCK_VCNT_COUNT, Reg.LOCK_STATUS_LOCK_VIOL, Reg.LOCK_STATUS_OVER, Reg.LOCK_VADDR_ADDR,
  Reg.LOCK_VADDR_HOST, Reg.LOCK_VADDR_KIND]

/-- The device with the violation counted. -/
def Dev.lockCount (d : Dev) : Dev := d.wr Reg.LOCK_VCNT_COUNT ((d.rd Reg.LOCK_VCNT_COUNT + 1) % 2 ^ 32)

/-- The first violation: captured, not yet posted. -/
def Dev.lockCapture (d : Dev) (h : Agent) (a k : Nat) : Dev :=
  ((((d.lockCount).flag Reg.LOCK_STATUS_LOCK_VIOL).wr Reg.LOCK_VADDR_ADDR a).wr Reg.LOCK_VADDR_HOST (agentCode h)).wr Reg.LOCK_VADDR_KIND k

theorem Dev.lockCount_viol (d : Dev) : d.lockCount.rd Reg.LOCK_STATUS_LOCK_VIOL = d.rd Reg.LOCK_STATUS_LOCK_VIOL :=
  d.rd_wr_disjoint _ _ _ rfl (by decide) (.inl (by decide))

theorem Dev.lockViol_first (d : Dev) (h : Agent) (a k : Nat) (hv : d.rd Reg.LOCK_STATUS_LOCK_VIOL = 0) :
    d.lockViol h a k = (d.lockCapture h a k).post 23 1 (a % 2 ^ 24 + agentCode h * 2 ^ 24 + k * 2 ^ 26) := by
  have hon : d.lockCount.on Reg.LOCK_STATUS_LOCK_VIOL = false := by
    rw [Dev.on, d.lockCount_viol, hv]
    rfl
  exact if_neg (ne_true_of_eq_false hon)

theorem Dev.lockViol_further (d : Dev) (h : Agent) (a k : Nat) (hv : d.rd Reg.LOCK_STATUS_LOCK_VIOL = 1) :
    d.lockViol h a k = d.lockCount.flag Reg.LOCK_STATUS_OVER := by
  have hon : d.lockCount.on Reg.LOCK_STATUS_LOCK_VIOL = true := by
    rw [Dev.on, d.lockCount_viol, hv]
    rfl
  exact if_pos hon

theorem Dev.lockCount_same (d : Dev) : Dev.SameBut [Reg.LOCK_VCNT_COUNT] d d.lockCount :=
  (show Dev.SameBut _ d d from fun _ _ _ => rfl).wr _ _ (by simp) rfl

theorem Dev.rd_viol_lt (d : Dev) : d.rd Reg.LOCK_STATUS_LOCK_VIOL = 0 ∨ d.rd Reg.LOCK_STATUS_LOCK_VIOL = 1 := by
  have : d.rd Reg.LOCK_STATUS_LOCK_VIOL < 2 ^ 1 := Nat.mod_lt _ (by decide)
  omega

theorem Dev.rd_lockCount (d : Dev) : d.lockCount.rd Reg.LOCK_VCNT_COUNT = (d.rd Reg.LOCK_VCNT_COUNT + 1) % 2 ^ 32 := by
  rw [Dev.lockCount, Dev.rd_wr _ _ _ rfl]
  exact Nat.mod_mod _ _

theorem Dev.lockCapture_same (d : Dev) (h : Agent) (a k : Nat) :
    Dev.SameBut [Reg.LOCK_STATUS_LOCK_VIOL, Reg.LOCK_VADDR_ADDR, Reg.LOCK_VADDR_HOST, Reg.LOCK_VADDR_KIND] d.lockCount
      (d.lockCapture h a k) :=
  ((((show Dev.SameBut _ d.lockCount d.lockCount from fun _ _ _ => rfl).wr Reg.LOCK_STATUS_LOCK_VIOL 1 (by simp) rfl).wr _ _
    (by simp) rfl).wr _ _ (by simp) rfl).wr _ _ (by simp) rfl

theorem Dev.lockCapture_rd (d : Dev) (h : Agent) (a k : Nat) (ha : a < 2 ^ 24) (hk : k < 4) :
    (d.lockCapture h a k).rd Reg.LOCK_VADDR_ADDR = a ∧ (d.lockCapture h a k).rd Reg.LOCK_VADDR_HOST = agentCode h ∧
      (d.lockCapture h a k).rd Reg.LOCK_VADDR_KIND = k ∧ (d.lockCapture h a k).rd Reg.LOCK_STATUS_LOCK_VIOL = 1 := by
  have hh : agentCode h < 4 := by cases h <;> decide
  unfold Dev.lockCapture
  refine ⟨?_, ?_, ?_, ?_⟩
  · rw [Dev.rd_wr_disjoint _ _ _ _ rfl (by decide) (.inr (.inr (by decide))), Dev.rd_wr_disjoint _ _ _ _ rfl (by decide) (.inr (.inr (by decide))),
      Dev.rd_wr _ _ _ rfl]
    exact Nat.mod_eq_of_lt ha
  · rw [Dev.rd_wr_disjoint _ _ _ _ rfl (by decide) (.inr (.inr (by decide))), Dev.rd_wr _ _ _ rfl]
    exact Nat.mod_eq_of_lt hh
  · rw [Dev.rd_wr _ _ _ rfl]
    exact Nat.mod_eq_of_lt hk
  · rw [Dev.rd_wr_disjoint _ _ _ _ rfl (by decide) (.inl (by decide)), Dev.rd_wr_disjoint _ _ _ _ rfl (by decide) (.inl (by decide)),
      Dev.rd_wr_disjoint _ _ _ _ rfl (by decide) (.inl (by decide)), Dev.flag, Dev.rd_wr _ _ _ rfl]
    rfl

theorem Dev.cmdViolation_lt {d : Dev} {h : Agent} {f : Fld} {args : Bool} {k : Nat} (hk : d.cmdViolation h f args = some k) : k < 4 := by
  unfold Dev.cmdViolation at hk
  split at hk
  · cases hk
    decide
  · split at hk
    · split at hk
      · cases hk
        decide
      · split at hk <;> cases hk
        decide
    · split at hk <;> cases hk
      decide

theorem Dev.lockViol_body (d : Dev) (h : Agent) (a k : Nat) : (d.lockViol h a k).body = d.body := by
  rcases d.rd_viol_lt with hv | hv
  · rw [d.lockViol_first h a k hv]
    rfl
  · rw [d.lockViol_further h a k hv]
    rfl

theorem Dev.lockViol_fab (d : Dev) (h : Agent) (a k : Nat) : (d.lockViol h a k).fab = d.fab := by
  rcases d.rd_viol_lt with hv | hv
  · rw [d.lockViol_first h a k hv]
    rfl
  · rw [d.lockViol_further h a k hv]
    rfl

theorem Dev.lockViol_records_first (d : Dev) (h : Agent) (a k : Nat) (ha : a < 2 ^ 24) (hk : k < 4)
    (hv : d.rd Reg.LOCK_STATUS_LOCK_VIOL = 0) :
    Dev.SameBut violFields d (d.lockViol h a k) ∧
      (d.lockViol h a k).rd Reg.LOCK_VCNT_COUNT = (d.rd Reg.LOCK_VCNT_COUNT + 1) % 2 ^ 32 ∧
      (d.lockViol h a k).rd Reg.LOCK_STATUS_LOCK_VIOL = 1 ∧ (d.lockViol h a k).rd Reg.LOCK_VADDR_ADDR = a ∧
      (d.lockViol h a k).rd Reg.LOCK_VADDR_HOST = agentCode h ∧ (d.lockViol h a k).rd Reg.LOCK_VADDR_KIND = k ∧
      (d.lockViol h a k).rd Reg.LOCK_STATUS_OVER = d.rd Reg.LOCK_STATUS_OVER ∧
      (d.lockViol h a k).evq = { d.evq with posts := d.evq.posts ++ [(23, 1, a + agentCode h * 2 ^ 24 + k * 2 ^ 26)] } := by
  obtain ⟨hvaddr, hvhost, hvkind, hvviol⟩ := d.lockCapture_rd h a k ha hk
  have hsame := d.lockCapture_same h a k
  rw [d.lockViol_first h a k hv, Nat.mod_eq_of_lt ha]
  have hpost : ∀ g, ((d.lockCapture h a k).post 23 1 (a + agentCode h * 2 ^ 24 + k * 2 ^ 26)).rd g = (d.lockCapture h a k).rd g :=
    fun g => Dev.post_rd _ _ _ _ g
  simp only [hpost]
  refine ⟨?_, ?_, hvviol, hvaddr, hvhost, hvkind, ?_, rfl⟩
  · exact ((d.lockCount_same.mono (by simp [violFields])).trans (hsame.mono (by simp [violFields]))).trans
      (.of_live (Dev.post_live _ _ _ _))
  · rw [hsame _ (by decide) (by decide), d.rd_lockCount]
  · rw [hsame _ (by decide) (by decide), d.lockCount_same _ (by decide) (by decide)]

theorem Dev.lockViol_records_further (d : Dev) (h : Agent) (a k : Nat) (hv : d.rd Reg.LOCK_STATUS_LOCK_VIOL = 1) :
    Dev.SameBut violFields d (d.lockViol h a k) ∧
      (d.lockViol h a k).rd Reg.LOCK_VCNT_COUNT = (d.rd Reg.LOCK_VCNT_COUNT + 1) % 2 ^ 32 ∧
      (d.lockViol h a k).rd Reg.LOCK_STATUS_LOCK_VIOL = 1 ∧ (d.lockViol h a k).rd Reg.LOCK_STATUS_OVER = 1 ∧
      (d.lockViol h a k).word Reg.LOCK_VADDR_ADDR.addr = d.word Reg.LOCK_VADDR_ADDR.addr := by
  have hflag : Dev.SameBut [Reg.LOCK_STATUS_OVER] d.lockCount (d.lockCount.flag Reg.LOCK_STATUS_OVER) :=
    (show Dev.SameBut _ d.lockCount d.lockCount from fun _ _ _ => rfl).wr _ 1 (by simp) rfl
  rw [d.lockViol_further h a k hv]
  refine ⟨(d.lockCount_same.mono (by simp [violFields])).trans (hflag.mono (by simp [violFields])), ?_, ?_, ?_, ?_⟩
  · rw [hflag _ (by decide) (by decide), d.rd_lockCount]
  · rw [hflag _ (by decide) (by decide), d.lockCount_viol, hv]
  · rw [Dev.flag, Dev.rd_wr _ _ _ rfl]
    rfl
  · rw [Dev.flag, Dev.wr, Dev.word_setWord_ne _ _ _ _ (by decide), Dev.lockCount, Dev.wr, Dev.word_setWord_ne _ _ _ _ (by decide)]

theorem Dev.tick_of_body {d d' : Dev} (h : d'.body = d.body) : d'.tick = d.tick := show d'.body.tick = d.body.tick by rw [h]

/-- Settles O28: the gate records the violation on the device as accessed and does nothing else (`hostRow_violated`). -/
theorem forbiddenCommandsAreOnlyRecorded : Obligations.ForbiddenCommandsAreOnlyRecorded := by
  intro s c h f args k hc hk
  have ha := hostRow_addr hc
  have hk4 := Dev.cmdViolation_lt hk
  have hbody : (s.dev.denied h f.addr k).body = s.dev.body := by rw [Dev.denied, Dev.lockViol_body, Dev.touch_body]
  have hfab : (s.dev.denied h f.addr k).fab = s.dev.fab := by rw [Dev.denied, Dev.lockViol_fab, Dev.touch_fab]
  refine ⟨_, ⟨hostRow_violated s c h f args k hc hk, rfl, rfl⟩, Dev.eq_around_same (by rw [Dev.settle_body, hbody])
    (by rw [Dev.settle_fab, hfab]), ?_⟩
  have hpre : Dev.SameBut violFields s.dev (s.dev.touch h true (blockOf f.addr)) := .of_live (Dev.touch_live _ _ _ _)
  have hrd : ∀ g, (s.dev.denied h f.addr k).settle.rd g = (s.dev.denied h f.addr k).rd g := fun g => Dev.settle_rd _ g
  have hword : ∀ a, (s.dev.denied h f.addr k).settle.word a = (s.dev.denied h f.addr k).word a := fun a => Dev.settle_word _ a
  simp only [onlyFields_iff, hrd, hword]
  rcases (s.dev.touch h true (blockOf f.addr)).rd_viol_lt with hv | hv
  · obtain ⟨hsame, hcount, hviol, haddr, hhost, hkind, hover, hevq⟩ :=
      (s.dev.touch h true (blockOf f.addr)).lockViol_records_first h f.addr k ha hk4 hv
    rw [Dev.touch_rd] at hv hcount hover
    refine ⟨(hpre.trans hsame).settle, hcount, hviol, fun _ => ⟨haddr, hhost, hkind, hover, fun hroom => ?_⟩, fun h1 => ?_⟩
    · refine entersAll_of_room 23 (by decide) (by simp) (by simp) hroom ?_
      rw [Dev.settle_evq, Dev.schTick, Dev.tick_of_body hbody, Dev.denied, hevq, Dev.touch_evq, hroom.2.1, List.nil_append, Dev.schTick]
    · rw [h1] at hv
      cases hv
  · obtain ⟨hsame, hcount, hviol, hover, hword⟩ :=
      (s.dev.touch h true (blockOf f.addr)).lockViol_records_further h f.addr k hv
    rw [Dev.touch_rd] at hv hcount
    rw [Dev.touch_word] at hword
    refine ⟨(hpre.trans hsame).settle, hcount, hviol, fun h0 => ?_, fun _ => ⟨hover, hword⟩⟩
    rw [h0] at hv
    cases hv

end Sys2Proof.Machine
end

section
/-! Refutations that need a machine whose stores no command would have left so: two entries under one key, or an index out of range. -/
namespace Sys2Proof.Machine
open Sys2Proof.Claims

/-! ### A slack run of a job that the table in force holds twice -/

/-- The compute window of a dispatching Bellows with no plan; the table in force holds job 5 twice, with a WCET of 131,071 and of 1, and
a run of job 5 is pending. -/
def jobTwice : State :=
  let d := State.reset.dev.wr Reg.SCH_CFG_ENABLE 1
  { State.reset with dev := { d with sch := { d.sch with
      win := .compute
      jobs := [(5, { pendTick := some 0 })]
      force := [(5, { desc := [0x01000000, 0x0001FFFF] }), (5, { desc := [0x01000000, 1] })] } } }

/-- Refutes O36: where the table in force holds a job twice, the run that fits in the slack is the second entry's, and the run that
starts is that of the first, whose WCET exceeds what is left. -/
theorem not_runsStartAndAreCut : ¬ Obligations.RunsStartAndAreCut := by
  intro h
  obtain ⟨-, hslack, -⟩ := h jobTwice 0
  obtain ⟨t, -, -, hfits, -⟩ := hslack 118500 5 (by decide +kernel) (by decide +kernel) (by decide +kernel)
    (by decide +kernel) (by decide +kernel)
  exact absurd hfits (by decide +kernel)

/-! ### A close window with an active hearth that is neither 0 nor 1 -/

/-- The compute window of a dispatching Bellows whose active hearth is 5, and a takeover trigger of hearth B: job 7, which missed its
tick, is at home in no hearth that closes. -/
def activeFive : State :=
  let d := State.reset.dev.wr Reg.SCH_CFG_ENABLE 1
  { State.reset with dev := { d with
      hrt := { d.hrt with active := 5, b := { d.hrt.b with trig := some 1 } }
      sch := { d.sch with
        win := .compute
        jobs := [(7, { desc := [0x01000000] })]
        force := [(7, { desc := [0x01000000] })]
        res := [(7, (3, 0x55))] } } }

/-- The job of `activeFive` is not closed. -/
theorem closeWindow_activeFive : ∃ u, exec .closeWindow activeFive = .next u ∧ Sparse.get (0, 0) u.dev.sch.work 7 = (0, 0) :=
  ⟨_, rfl, by decide +kernel⟩

/-- Refutes O37: with an active hearth that is neither 0 nor 1 a takeover trigger of hearth B keeps that hearth from its close window,
although `noClose` holds for neither of the two, and the job of the tick is not finalised. -/
theorem not_windowsStormsAndRetries : ¬ Obligations.WindowsStormsAndRetries := by
  rintro ⟨⟨-, -, -, hclose⟩, -⟩
  obtain ⟨-, hcount⟩ := hclose activeFive 7 { desc := [0x01000000] } 3 0x55 (by decide +kernel) (by decide +kernel) (by decide +kernel)
    (by decide +kernel) (by decide +kernel) (by decide +kernel) (by decide +kernel) (by decide +kernel) (by decide +kernel)
    (by decide +kernel) (by decide +kernel) (by decide +kernel) (by decide +kernel) (by decide +kernel) (by decide +kernel)
    (by decide +kernel)
  obtain ⟨t, ⟨ht, -⟩, -, hwork, -⟩ := hcount (by decide +kernel)
  obtain ⟨u, hu, hnone⟩ := closeWindow_activeFive
  rw [ht, Host.Outcome.next.injEq] at hu
  rw [hu, hnone] at hwork
  exact absurd hwork (by decide)

/-! ### A delay line that the line table holds twice -/

/-- The line table holds line 0 twice, with the heads on page 0 and on page 2. Hearth A holds the head pair of the first in frames 0
and 1, and frame 2 waits for page 5. -/
def lineTwice : State :=
  let x : Line := { npages := 8, prot := false, hearth := 0, slew := 0, tap0 := 0, span := 0, base := 0, fr := 0 }
  let d := State.reset.dev
  { State.reset with dev := { d with mem := { d.mem with
      lines := [(0, x), (0, { x with head := 2048 })]
      hA := { d.mem.hA with
        frames := [(0, { st := .resident, page := 0, pinned := true }), (1, { st := .resident, page := 1, pinned := true }),
          (2, { st := .filling, page := 5 })]
        inflight := [{ line := 0, page := 5, write := false, demand := true }] } } } }

/-- The frame that page 5 has reached is taken for the head pair of the second entry. -/
theorem pageReadDone_lineTwice : ∃ u, exec (.pageReadDone .a 0 5 0 0) lineTwice = .next u ∧
    (Sparse.get {} (u.dev.hm 0).frames 2).st = .filling :=
  ⟨_, rfl, by decide +kernel⟩

/-- Refutes O44: the paging unit catches up with every entry of the line table, so that where the table holds a line twice the frame
that a page read has filled is taken at once for the head pair of the second entry. -/
theorem not_pageTransfersAndChannels : ¬ Obligations.PageTransfersAndChannels := by
  rintro ⟨hread, -⟩
  obtain ⟨t, ⟨ht, -⟩, -, hres, -⟩ := hread lineTwice .a 0 5 0 2 { st := .filling, page := 5 }
    { npages := 8, prot := false, hearth := 0, slew := 0, tap0 := 0, span := 0, base := 0, fr := 0 }
    { line := 0, page := 5, write := false, demand := true }
    (by
      refine ⟨by decide +kernel, by decide +kernel, ?_⟩
      intro c hc
      cases hc)
    (by decide +kernel) rfl rfl (by decide) (by decide +kernel) (by decide +kernel) rfl (by decide +kernel) (by decide +kernel)
    (by decide +kernel)
  have hrests : PagingRests lineTwice (hIx .a) 0
      { npages := 8, prot := false, hearth := 0, slew := 0, tap0 := 0, span := 0, base := 0, fr := 0 } :=
    ⟨by decide +kernel, by decide +kernel, by decide +kernel⟩
  obtain ⟨u, hu, hfilling⟩ := pageReadDone_lineTwice
  rw [ht, Host.Outcome.next.injEq] at hu
  have h := hres hrests
  rw [hu] at h
  exact absurd (h.symm.trans hfilling) (by decide)

/-! ### A selected candidate 7 -/

/-- REF is LOCKED with SEL = 7, which names no candidate, and the word behind REF_CSTAT6 shows the state QUALIFIED and the code 0xFF. -/
def selectedSeven : State :=
  let d := ((((State.reset.dev.wr Reg.REF_CFG_ENABLE 1).wr Reg.REF_STATUS_STATE 2).wr Reg.REF_STATUS_SEL 7).wr
    Reg.REF_STATUS_HISTVALID 1)
  { State.reset with dev := (d.wr (Reg.REF_CSTAT_STATE 7) 3).wr (Reg.REF_CSTAT_QCODE 7) 0xFF }

/-- The estimate update leaves HISTVALID, and SEL, STATE and candidate 7 as they were. -/
theorem estimateUpdate_selectedSeven : ∃ u, exec (.estimateUpdate [] 0) selectedSeven = .next u ∧
    u.dev.rd Reg.REF_STATUS_STATE = 2 ∧ u.dev.rd Reg.REF_STATUS_SEL = 7 ∧ u.dev.rd (Reg.REF_CSTAT_QCODE 7) = 0xFF ∧
    u.dev.ref.lockedAt = none ∧ u.dev.rd Reg.REF_STATUS_HISTVALID = 1 :=
  ⟨_, rfl, by decide +kernel, by decide +kernel, by decide +kernel, by decide +kernel, by decide +kernel⟩

/-- Refutes O51: with SEL = 7 in LOCKED the device takes the quality code of candidate 7 from no word of its own and holds no value, although
the word that shows candidate 7 makes it no eligible candidate. -/
theorem not_candidatesAreJudgedAndSelected : ¬ Obligations.CandidatesAreJudgedAndSelected := by
  rintro ⟨hest, -⟩
  obtain ⟨-, hdue⟩ := hest selectedSeven [] 0
  obtain ⟨t, ⟨ht, -⟩, ⟨-, ⟨-, hinvalid, -⟩, -⟩, -⟩ := hdue ⟨by decide +kernel, by decide +kernel, by decide +kernel⟩
  obtain ⟨u, hu, hstate, hsel, hcode, hlocked, hvalid⟩ := estimateUpdate_selectedSeven
  rw [ht, Host.Outcome.next.injEq] at hu
  rw [← hu] at hstate hsel hcode hlocked hvalid
  have hnot : ¬ Eligible t 7 := fun h => h.2.1 hcode
  have hreq : ∀ c, selectedSeven.dev.ref.req ≠ some ⟨c, true⟩ := by
    intro c
    have : selectedSeven.dev.ref.req = none := by decide +kernel
    simp [this]
  obtain ⟨hzero, -⟩ := hinvalid ⟨hstate, by rw [hsel]; exact hnot, hreq⟩ (by
    rintro ⟨-, ⟨m, hm, -⟩, -⟩
    rw [hlocked] at hm
    cases hm)
  rw [hvalid] at hzero
  exact absurd hzero (by decide)

end Sys2Proof.Machine
end

section
-- Proofs that wait for one another's kernel checks run one at a time, which keeps the threads and their memory few.
set_option Elab.async false
/-! The plan procedure (R91): what one round keeps of the plan so far. -/
namespace Sys2Proof.Machine
open Sys2Proof.Claims

/-! ### The choice of an engine -/

/-- One comparison of the search for the engine that is free first. -/
def freeFirst (free : List Nat) (best : Option Nat) (i : Nat) : Option Nat :=
  match best with
  | none => some i
  | some b => if free.getD i 0 < free.getD b 0 then some i else some b

theorem pickEngine_eq (free : List Nat) (elig : Nat) :
    pickEngine free elig = (lanes.filter fun i => elig / 2 ^ i % 2 == 1).foldl (freeFirst free) none := rfl

theorem foldl_freeFirst_mem (free : List Nat) (l : List Nat) (b : Option Nat) {e : Nat} (h : l.foldl (freeFirst free) b = some e) :
    e ∈ l ∨ b = some e := by
  induction l generalizing b with
  | nil => exact .inr h
  | cons i l ih =>
    obtain hl | hb := ih _ h
    · exact .inl (List.mem_cons_of_mem _ hl)
    · cases b with
      | none =>
        obtain rfl : i = e := Option.some.inj hb
        exact .inl List.mem_cons_self
      | some b =>
        simp only [freeFirst] at hb
        split at hb
        · obtain rfl : i = e := Option.some.inj hb
          exact .inl List.mem_cons_self
        · exact .inr hb

theorem div_pow_mod_two {a i : Nat} : a / 2 ^ i % 2 = 1 ↔ a.testBit i = true := by
  rw [Nat.testBit_eq_decide_div_mod_eq, decide_eq_true_eq]

/-- The chosen engine is one of the eight, available, and in the mask. -/
theorem pickEngine_some {free : List Nat} {m avail e : Nat} (h : pickEngine free (m &&& avail) = some e) :
    e < 8 ∧ m / 2 ^ e % 2 = 1 ∧ avail / 2 ^ e % 2 = 1 := by
  obtain hm | hn := foldl_freeFirst_mem free _ none h
  · obtain ⟨hlane, hbit⟩ := List.mem_filter.mp hm
    rw [beq_iff_eq, div_pow_mod_two, Nat.testBit_and, Bool.and_eq_true] at hbit
    have hlt : e < 8 := by simp [lanes] at hlane; omega
    exact ⟨hlt, div_pow_mod_two.mpr hbit.1, div_pow_mod_two.mpr hbit.2⟩
  · cases hn

/-! ### One round -/

/-- The planned start of job `j` on engine `e`. -/
def PlanAcc.startOn (acc : PlanAcc) (e : Nat) (j : Job) : Nat :=
  max (acc.free.getD e 0) ((acc.placed.filter fun p => j.preds.contains p.job).foldl (fun m p => max m p.finish) 0)

/-- The place of job `x` on engine `e`. -/
def PlanAcc.placeOn (acc : PlanAcc) (e : Nat) (x : Nat × Job) : Place :=
  { job := x.1, eng := e, start := acc.startOn e x.2, finish := acc.startOn e x.2 + x.2.wcet }

/-- What one round can do: place the job on an eligible engine, shed it, or find no engine. -/
theorem planStep_cases (w avail : Nat) (anyMask : Bool) (acc : PlanAcc) (x : Nat × Job) :
    (∃ e, e < 8 ∧ avail / 2 ^ e % 2 = 1 ∧ (anyMask = false → x.2.engMask / 2 ^ e % 2 = 1) ∧
      (x.2.cls ≠ 0 → (acc.placeOn e x).finish ≤ w) ∧ (acc.cut = true → x.2.cls = 0) ∧
      planStep w avail anyMask acc x = { acc with
        placed := acc.placed ++ [acc.placeOn e x], free := acc.free.set e (acc.placeOn e x).finish,
        floor := acc.floor || decide ((acc.placeOn e x).finish > w) }) ∨
    planStep w avail anyMask acc x = { acc with cut := true, shed := acc.shed ++ [x] } ∨
    planStep w avail anyMask acc x = { acc with noEngine := acc.noEngine ++ [x.1] } := by
  unfold planStep
  dsimp only
  split
  case isTrue hcut =>
    rw [Bool.and_eq_true] at hcut
    refine .inr (.inl ?_)
    rw [← hcut.1]
  case isFalse hcut =>
    split
    case h_1 => exact .inr (.inr rfl)
    case h_2 e he =>
      obtain ⟨hlt, hmask, havail⟩ := pickEngine_some he
      split
      case isTrue => exact .inr (.inl rfl)
      case isFalse hfit =>
        refine .inl ⟨e, hlt, havail, fun h => by simpa [h] using hmask, fun hc => ?_, fun hc => ?_, rfl⟩
        · by_contra hover
          exact hfit (by rw [Bool.and_eq_true, decide_eq_true_eq]; exact ⟨not_le.mp hover, by simp [hc]⟩)
        · by_contra hcls
          exact hcut (by simp [hc, hcls])

theorem le_foldl_max (f : Place → Nat) (l : List Place) (m : Nat) : m ≤ l.foldl (fun m p => max m (f p)) m ∧
    ∀ p ∈ l, f p ≤ l.foldl (fun m p => max m (f p)) m := by
  induction l generalizing m with
  | nil => exact ⟨le_refl m, nofun⟩
  | cons a l ih =>
    obtain ⟨hm, hl⟩ := ih (max m (f a))
    refine ⟨le_trans (le_max_left _ _) hm, fun p hp => ?_⟩
    obtain rfl | hp := List.mem_cons.mp hp
    · exact le_trans (le_max_right _ _) hm
    · exact hl p hp

theorem PlanAcc.free_le_startOn (acc : PlanAcc) (e : Nat) (j : Job) : acc.free.getD e 0 ≤ acc.startOn e j := le_max_left _ _

theorem PlanAcc.pred_le_startOn (acc : PlanAcc) (e : Nat) (j : Job) {p : Place} (hp : p ∈ acc.placed) (hj : j.preds.contains p.job = true) :
    p.finish ≤ acc.startOn e j :=
  le_trans ((le_foldl_max (·.finish) _ 0).2 p (List.mem_filter.mpr ⟨hp, hj⟩)) (le_max_right _ _)

/-! ### The plan so far -/

/-- A placed job is one of `jobs`, on an engine that may run it, and below E0 it ends in the window. -/
def PlacedWell (w avail : Nat) (anyMask : Bool) (jobs : List (Nat × Job)) (x : Place) : Prop :=
  ∃ j, (x.job, j) ∈ jobs ∧ x.finish = x.start + j.wcet ∧ x.eng < 8 ∧ avail / 2 ^ x.eng % 2 = 1 ∧
    (anyMask = false → j.engMask / 2 ^ x.eng % 2 = 1) ∧ (j.cls ≠ 0 → x.finish ≤ w)

/-- Job `x` has been placed, shed, or found without an engine. -/
def PlanAcc.decided (acc : PlanAcc) (x : Nat × Job) : Prop := (∃ y ∈ acc.placed, y.job = x.1) ∨ x ∈ acc.shed ∨ x.1 ∈ acc.noEngine

/-- The plan `acc` of the first jobs `pre` of `jobs`. -/
structure PlanAcc.Good (w avail : Nat) (anyMask : Bool) (jobs pre : List (Nat × Job)) (acc : PlanAcc) : Prop where
  engines : acc.free.length = 8
  well : ∀ x ∈ acc.placed, PlacedWell w avail anyMask jobs x
  known : ∀ x ∈ acc.placed, x.job ∈ pre.map (·.1)
  busy : ∀ x ∈ acc.placed, x.finish ≤ acc.free.getD x.eng 0
  apart : acc.placed.Pairwise fun x y => x.eng = y.eng → x.finish ≤ y.start
  after : acc.placed.Pairwise fun x y => ∀ j, (y.job, j) ∈ jobs → j.preds.contains x.job = true → x.finish ≤ y.start
  cutAt : acc.shed ≠ [] → acc.cut = true
  shedIn : ∀ x ∈ acc.shed, x ∈ pre
  all : ∀ x ∈ pre, acc.decided x

theorem PlanAcc.good_nil (w avail : Nat) (anyMask : Bool) (jobs : List (Nat × Job)) : PlanAcc.Good w avail anyMask jobs [] {} where
  engines := rfl
  well := nofun
  known := nofun
  busy := nofun
  apart := .nil
  after := .nil
  cutAt h := absurd rfl h
  shedIn := nofun
  all := nofun

theorem eq_of_mem_of_nodup_keys {jobs : List (Nat × Job)} (hn : (jobs.map (·.1)).Nodup) {k : Nat} {i j : Job} (hi : (k, i) ∈ jobs)
    (hj : (k, j) ∈ jobs) : i = j :=
  congrArg (·.2) (List.inj_on_of_nodup_map hn hi hj rfl)

theorem PlanAcc.Good.step {w avail : Nat} {anyMask : Bool} {jobs pre : List (Nat × Job)} {acc : PlanAcc}
    (hg : acc.Good w avail anyMask jobs pre) (hn : (jobs.map (·.1)).Nodup) {x : Nat × Job} (hx : x ∈ jobs) :
    (planStep w avail anyMask acc x).Good w avail anyMask jobs (pre ++ [x]) := by
  have hpre : ∀ {k}, k ∈ pre.map (·.1) → k ∈ (pre ++ [x]).map (·.1) := fun h => by
    rw [List.map_append]
    exact List.mem_append_left _ h
  obtain ⟨e, hlt, havail, hmask, hfit, -, heq⟩ | heq | heq := planStep_cases w avail anyMask acc x <;> rw [heq]
  case inl =>
    have hlast : ∀ {p : Place → Prop}, (∀ y ∈ acc.placed, p y) → p (acc.placeOn e x) → ∀ y ∈ acc.placed ++ [acc.placeOn e x], p y := by
      intro p hall hnew y hy
      obtain hy | hy := List.mem_append.mp hy
      · exact hall y hy
      · rw [List.mem_singleton.mp hy]
        exact hnew
    have hstart : acc.free.getD e 0 ≤ (acc.placeOn e x).start := acc.free_le_startOn e x.2
    have hset : ∀ i, (acc.free.set e (acc.placeOn e x).finish).getD i 0 = if i = e then (acc.placeOn e x).finish else acc.free.getD i 0 := by
      intro i
      simp only [List.getD_eq_getElem?_getD, List.getElem?_set, hg.engines, hlt, if_true]
      by_cases h : i = e
      · simp [h]
      · simp [h, Ne.symm h]
    constructor
    case engines => simpa using hg.engines
    case well => exact hlast hg.well ⟨x.2, hx, rfl, hlt, havail, hmask, hfit⟩
    case known => exact hlast (fun y hy => hpre (hg.known y hy)) (List.mem_map.mpr ⟨x, by simp, rfl⟩)
    case busy =>
      refine hlast (fun y hy => ?_) (by rw [hset, if_pos (show (acc.placeOn e x).eng = e from rfl)])
      rw [hset]
      split
      · rename_i h
        have := hg.busy y hy
        rw [h] at this
        exact le_trans (le_trans this hstart) (Nat.le_add_right _ _)
      · exact hg.busy y hy
    case apart =>
      refine List.pairwise_append.mpr ⟨hg.apart, List.pairwise_singleton _ _, fun y hy z hz => ?_⟩
      rw [List.mem_singleton.mp hz]
      intro he
      have := hg.busy y hy
      rw [he] at this
      exact le_trans this hstart
    case after =>
      refine List.pairwise_append.mpr ⟨hg.after, List.pairwise_singleton _ _, fun y hy z hz => ?_⟩
      rw [List.mem_singleton.mp hz]
      intro j hj hp
      rw [eq_of_mem_of_nodup_keys hn hj (show (x.1, x.2) ∈ jobs from hx)] at hp
      exact acc.pred_le_startOn e x.2 hy hp
    case cutAt => exact hg.cutAt
    case shedIn => exact fun y hy => List.mem_append_left _ (hg.shedIn y hy)
    case all =>
      intro y hy
      obtain hy | hy := List.mem_append.mp hy
      · obtain ⟨z, hz, hk⟩ | h := hg.all y hy
        · exact .inl ⟨z, List.mem_append_left _ hz, hk⟩
        · exact .inr h
      · rw [List.mem_singleton.mp hy]
        exact .inl ⟨acc.placeOn e x, by simp, rfl⟩
  case inr.inl =>
    refine { hg with known := fun y hy => hpre (hg.known y hy), cutAt := fun _ => rfl, shedIn := fun y hy => ?_, all := fun y hy => ?_ }
    · obtain hy | hy := List.mem_append.mp hy
      · exact List.mem_append_left _ (hg.shedIn y hy)
      · exact List.mem_append_right _ hy
    · obtain hy | hy := List.mem_append.mp hy
      · obtain h | h | h := hg.all y hy
        · exact .inl h
        · exact .inr (.inl (List.mem_append_left _ h))
        · exact .inr (.inr h)
      · exact .inr (.inl (List.mem_append_right _ hy))
  case inr.inr =>
    refine { hg with known := fun y hy => hpre (hg.known y hy), shedIn := fun y hy => List.mem_append_left _ (hg.shedIn y hy),
                     all := fun y hy => ?_ }
    obtain hy | hy := List.mem_append.mp hy
    · obtain h | h | h := hg.all y hy
      · exact .inl h
      · exact .inr (.inl h)
      · exact .inr (.inr (List.mem_append_left _ h))
    · rw [List.mem_singleton.mp hy]
      exact .inr (.inr (by simp))

theorem PlanAcc.Good.foldl {w avail : Nat} {anyMask : Bool} {jobs : List (Nat × Job)} (hn : (jobs.map (·.1)).Nodup)
    (l pre : List (Nat × Job)) (acc : PlanAcc) (hg : acc.Good w avail anyMask jobs pre) (hl : ∀ x ∈ l, x ∈ jobs) :
    (l.foldl (planStep w avail anyMask) acc).Good w avail anyMask jobs (pre ++ l) := by
  induction l generalizing pre acc with
  | nil => simpa using hg
  | cons x l ih =>
    rw [List.append_cons]
    exact ih _ _ (hg.step hn (hl x List.mem_cons_self)) fun y hy => hl y (List.mem_cons_of_mem _ hy)

theorem planOf_good {jobs : List (Nat × Job)} (hn : (jobs.map (·.1)).Nodup) (w avail : Nat) (anyMask : Bool)
    (l : List (Nat × Job)) (hl : ∀ x ∈ l, x ∈ jobs) : (planOf w avail anyMask l).Good w avail anyMask jobs l :=
  PlanAcc.Good.foldl hn l [] {} (PlanAcc.good_nil ..) hl

/-! ### After a job has been shed -/

/-- The rounds add to the shed jobs only jobs of their own. -/
theorem foldl_planStep_shed (w avail : Nat) (anyMask : Bool) (l : List (Nat × Job)) (acc : PlanAcc) {x : Nat × Job}
    (hx : x ∈ (l.foldl (planStep w avail anyMask) acc).shed) : x ∈ acc.shed ∨ x ∈ l := by
  induction l generalizing acc with
  | nil => exact .inl hx
  | cons y l ih =>
    obtain h | h := ih _ hx
    · obtain ⟨e, -, -, -, -, -, heq⟩ | heq | heq := planStep_cases w avail anyMask acc y <;> rw [heq] at h
      · exact .inl h
      · obtain h | h := List.mem_append.mp h
        · exact .inl h
        · exact .inr (by rw [List.mem_singleton.mp h]; exact List.mem_cons_self)
      · exact .inl h
    · exact .inr (List.mem_cons_of_mem _ h)

/-- Behind a cut the rounds place jobs of class E0 alone. -/
theorem foldl_planStep_cut (w avail : Nat) (anyMask : Bool) (l : List (Nat × Job)) (acc : PlanAcc) (hc : acc.cut = true) {y : Place}
    (hy : y ∈ (l.foldl (planStep w avail anyMask) acc).placed) : y ∈ acc.placed ∨ ∃ z ∈ l, z.2.cls = 0 ∧ y.job = z.1 := by
  induction l generalizing acc with
  | nil => exact .inl hy
  | cons x l ih =>
    have hmore : (∃ z ∈ l, z.2.cls = 0 ∧ y.job = z.1) → ∃ z ∈ x :: l, z.2.cls = 0 ∧ y.job = z.1 :=
      fun ⟨z, hz, h⟩ => ⟨z, List.mem_cons_of_mem _ hz, h⟩
    rw [List.foldl_cons] at hy
    obtain ⟨e, -, -, -, -, hcls, heq⟩ | heq | heq := planStep_cases w avail anyMask acc x <;> rw [heq] at hy
    · obtain h | h := ih _ (by exact hc) hy
      · obtain h | h := List.mem_append.mp h
        · exact .inl h
        · rw [List.mem_singleton.mp h]
          exact .inr ⟨x, List.mem_cons_self, hcls hc, rfl⟩
      · exact .inr (hmore h)
    · exact (ih _ rfl hy).imp id hmore
    · exact (ih _ (by exact hc) hy).imp id hmore

/-- Once a job has been shed no later job below E0 is placed. -/
theorem planOf_shed {l1 l2 : List (Nat × Job)} {x : Nat × Job} (hn : ((l1 ++ x :: l2).map (·.1)).Nodup) (w avail : Nat) (anyMask : Bool)
    (hx : x ∈ (planOf w avail anyMask (l1 ++ x :: l2)).shed) {z : Nat × Job} (hz : z ∈ l2) (hcls : z.2.cls ≠ 0) {y : Place}
    (hy : y ∈ (planOf w avail anyMask (l1 ++ x :: l2)).placed) : y.job ≠ z.1 := by
  have hg := planOf_good hn w avail anyMask (l1 ++ [x]) fun a ha => by
    rw [List.append_cons]
    exact List.mem_append_left _ ha
  have hsplit : planOf w avail anyMask (l1 ++ x :: l2) = l2.foldl (planStep w avail anyMask) (planOf w avail anyMask (l1 ++ [x])) := by
    rw [List.append_cons, planOf, List.foldl_append]
    rfl
  rw [hsplit] at hx hy
  rw [List.append_cons, List.map_append] at hn
  have hapart : ∀ k ∈ (l1 ++ [x]).map (·.1), ∀ m ∈ l2.map (·.1), k ≠ m := (List.nodup_append.mp hn).2.2
  have hcut : (planOf w avail anyMask (l1 ++ [x])).cut = true := by
    obtain h | h := foldl_planStep_shed _ _ _ _ _ hx
    · exact hg.cutAt (List.ne_nil_of_mem h)
    · exact absurd rfl (hapart x.1 (by simp) x.1 (List.mem_map_of_mem h))
  obtain h | ⟨z', hz', hcls', hk⟩ := foldl_planStep_cut _ _ _ _ _ hcut hy
  · exact hapart _ (hg.known y h) _ (List.mem_map_of_mem hz)
  · intro hkey
    have : z' = z := List.inj_on_of_nodup_map (List.nodup_append.mp hn).2.1 hz' hz (hk.symm.trans hkey)
    rw [this] at hcls'
    exact hcls hcls'

/-- Settles O35. -/
theorem plansNeverOverlapOrOverrun : Obligations.PlansNeverOverlapOrOverrun := by
  intro w avail anyMask jobs hn p
  have hg : p.Good w avail anyMask jobs jobs := planOf_good hn w avail anyMask jobs fun _ h => h
  refine ⟨hg.well, hg.apart, hg.after, ?_, hg.all⟩
  rintro l1 x l2 rfl hx z hz hcls y hy
  exact planOf_shed hn w avail anyMask hx hz hcls hy

end Sys2Proof.Machine
end

section
/-! Host commands with argument fields, and reads of fields behind writes whose addresses are known. -/
namespace Sys2Proof.Machine
open Sys2Proof.Claims

/-! ### Fields and words behind a write -/

/-- The fields share no bit of 32-bit words, as a check. -/
def Fld.sep (f g : Fld) : Bool := f.ok && decide (g.hi < 32) && (f.addr != g.addr || decide (f.hi < g.lo) || decide (g.hi < f.lo))

theorem Dev.rd_wr_sep (d : Dev) (f g : Fld) (v : Nat) (h : f.sep g = true) : (d.wr f v).rd g = d.rd g := by
  simp only [Fld.sep, Bool.and_eq_true, Bool.or_eq_true, decide_eq_true_eq, bne_iff_ne, or_assoc] at h
  exact d.rd_wr_disjoint f g v h.1.1 h.1.2 h.2

theorem Dev.rd_flag_sep (d : Dev) (f g : Fld) (h : f.sep g = true) : (d.flag f).rd g = d.rd g := d.rd_wr_sep f g 1 h

theorem Dev.rd_flag (d : Dev) (f : Fld) (h : f.ok = true) : (d.flag f).rd f = 1 := by
  have hw : 1 < 2 ^ f.width := Nat.one_lt_two_pow (by simp [Fld.ok, Fld.width] at h ⊢; omega)
  exact (Dev.rd_wr d f 1 h).trans (Nat.mod_eq_of_lt hw)

theorem Dev.rd_wr_lt (d : Dev) (f : Fld) (v : Nat) (h : f.ok = true) (hv : v < 2 ^ f.width) : (d.wr f v).rd f = v :=
  (Dev.rd_wr d f v h).trans (Nat.mod_eq_of_lt hv)

theorem Dev.word_wr_ne (d : Dev) (f : Fld) (v a : Nat) (h : f.addr ≠ a) : (d.wr f v).word a = d.word a := Dev.word_setWord_ne _ _ _ _ h
theorem Dev.word_flag_ne (d : Dev) (f : Fld) (a : Nat) (h : f.addr ≠ a) : (d.flag f).word a = d.word a := Dev.word_setWord_ne _ _ _ _ h

theorem Dev.rd_of_word {d d' : Dev} {f : Fld} (h : d'.word f.addr = d.word f.addr) : d'.rd f = d.rd f := by rw [Dev.rd, h, Dev.rd]

theorem Dev.rd_lt (d : Dev) (f : Fld) : d.rd f < 2 ^ f.width := Nat.mod_lt _ (by positivity)

theorem Dev.count_body (d : Dev) (c half : Fld) (n : Nat) : (d.count c half n).body = d.body := by
  unfold Dev.count
  dsimp only
  split <;> rfl

theorem Dev.countBit_body (d : Dev) (c half : Fld) (b n : Nat) : (d.countBit c half b n).body = d.body := by
  unfold Dev.countBit
  dsimp only
  split <;> rfl

theorem Dev.word_count_ne (d : Dev) (c half : Fld) (n a : Nat) (hc : c.addr ≠ a) (hh : half.addr ≠ a) :
    (d.count c half n).word a = d.word a := by
  unfold Dev.count
  dsimp only
  split
  · exact d.word_wr_ne _ _ _ hc
  · rw [Dev.word_flag_ne _ _ _ hh, d.word_wr_ne _ _ _ hc]

theorem Dev.word_countBit_ne (d : Dev) (c half : Fld) (b n a : Nat) (hc : c.addr ≠ a) (hh : half.addr ≠ a) :
    (d.countBit c half b n).word a = d.word a := by
  unfold Dev.countBit
  dsimp only
  split
  · exact d.word_wr_ne _ _ _ hc
  · rw [Dev.word_wr_ne _ _ _ _ hh, d.word_wr_ne _ _ _ hc]

/-- A counter of `countBit` takes its next value, cut to its width. -/
theorem Dev.rd_countBit (d : Dev) (c half : Fld) (b n : Nat) (hc : c.ok = true) (ha : half.addr ≠ c.addr) :
    (d.countBit c half b n).rd c = (d.rd c + n) % 2 ^ c.width := by
  unfold Dev.countBit
  dsimp only
  split
  · rw [Dev.rd_wr _ _ _ hc, Nat.mod_mod]
  · rw [Dev.rd_of_word (Dev.word_wr_ne _ _ _ _ ha), Dev.rd_wr _ _ _ hc, Nat.mod_mod]

/-! ### A load of argument fields -/

theorem Dev.load_body (d : Dev) (f : Fld) (v : Nat) : (d.load f v).body = d.body := by
  unfold Dev.load
  split
  · rfl
  · rw [Dev.dirty_body, Dev.wr_body]

/-- The fabric with another scan: all that a load of covered bits changes in it. -/
def Fabric.scanOf (x y : Fabric) : Fabric := { x with scan := y.scan }

theorem Dev.dirty_fab (d : Dev) : d.dirty.fab = d.fab.scanOf d.dirty.fab := by
  rw [Dev.dirty_eq]
  rfl

theorem Dev.load_fab (d : Dev) (f : Fld) (v : Nat) : (d.load f v).fab = d.fab.scanOf (d.load f v).fab := by
  unfold Dev.load
  split
  · rfl
  · rw [Dev.dirty_fab]
    rfl

@[simp] theorem Dev.dirty_evq (d : Dev) : d.dirty.evq = d.evq := by rw [Dev.dirty_eq]
@[simp] theorem Dev.dirty_live (d : Dev) : d.dirty.live = d.live := by rw [Dev.dirty_eq]
@[simp] theorem Dev.dirty_rd (d : Dev) (f : Fld) : d.dirty.rd f = d.rd f := Dev.rd_congr _ _ _ d.dirty_live
@[simp] theorem Dev.dirty_pwr (d : Dev) : d.dirty.pwr = d.pwr := by rw [Dev.dirty_eq]

theorem Dev.load_evq (d : Dev) (f : Fld) (v : Nat) : (d.load f v).evq = d.evq := by
  unfold Dev.load
  split <;> simp

theorem Dev.load_word_ne (d : Dev) (f : Fld) (v a : Nat) (h : f.addr ≠ a) : (d.load f v).word a = d.word a := by
  unfold Dev.load
  split
  · rfl
  · rw [Dev.dirty_word, Dev.word_wr_ne _ _ _ _ h]

theorem Dev.load_rd (d : Dev) (f : Fld) (v : Nat) (h : f.ok = true) (hv : v < 2 ^ f.width) : (d.load f v).rd f = v := by
  unfold Dev.load
  split
  · assumption
  · rw [Dev.dirty_rd, Dev.rd_wr_lt _ _ _ h hv]

theorem Dev.load_rd_sep (d : Dev) (f g : Fld) (v : Nat) (h : f.sep g = true) : (d.load f v).rd g = d.rd g := by
  unfold Dev.load
  split
  · rfl
  · rw [Dev.dirty_rd, Dev.rd_wr_sep _ _ _ _ h]

/-! ### A command that passes the gate -/

/-- The device as a command that passes the gate finds it: the access noted and the argument fields loaded. -/
def Dev.opened (d : Dev) (h : Agent) (f : Fld) (args : List (Fld × Nat)) : Dev :=
  args.foldl (fun d a => d.load a.1 a.2) (d.touch h true (blockOf f.addr))

/-- What loads of the fields `args` keep of the device `d`. -/
structure Dev.Loads (args : List (Fld × Nat)) (d d' : Dev) : Prop where
  body : d'.body = d.body
  fab : d'.fab = d.fab.scanOf d'.fab
  evq : d'.evq = d.evq
  word : ∀ a, (∀ x ∈ args, x.1.addr ≠ a) → d'.word a = d.word a

theorem Dev.loads_foldl (args : List (Fld × Nat)) (d : Dev) : Dev.Loads args d (args.foldl (fun d a => d.load a.1 a.2) d) := by
  induction args generalizing d with
  | nil => exact ⟨rfl, rfl, rfl, fun _ _ => rfl⟩
  | cons x args ih =>
    obtain ⟨hb, hf, he, hw⟩ := ih (d.load x.1 x.2)
    refine ⟨hb.trans (d.load_body ..), ?_, he.trans (d.load_evq ..), fun a ha => ?_⟩
    · rw [List.foldl_cons, hf, d.load_fab]
      rfl
    · rw [List.foldl_cons, hw a fun y hy => ha y (List.mem_cons_of_mem _ hy), d.load_word_ne _ _ _ (ha x List.mem_cons_self)]

theorem Dev.opened_loads (d : Dev) (h : Agent) (f : Fld) (args : List (Fld × Nat)) : Dev.Loads args d (d.opened h f args) := by
  obtain ⟨hb, hf, he, hw⟩ := Dev.loads_foldl args (d.touch h true (blockOf f.addr))
  refine ⟨hb.trans (d.touch_body ..), ?_, he.trans (d.touch_evq ..), fun a ha => (hw a ha).trans (d.touch_word ..)⟩
  have : (d.opened h f args).fab = (d.touch h true (blockOf f.addr)).fab.scanOf (d.opened h f args).fab := hf
  rwa [d.touch_fab] at this

theorem Dev.hostGate_open (d : Dev) (h : Agent) (f : Fld) (args : List (Fld × Nat)) (hv : d.cmdViolation h f (!args.isEmpty) = none)
    (hs : d.stopped (blockOf f.addr) = false) (hp : ∀ x ∈ args, x.1.addr ≠ Reg.PWR_STATUS_STATE.addr) :
    d.hostGate h f args = (d.opened h f args, true) := by
  have hv' : (d.touch h true (blockOf f.addr)).cmdViolation h f (!args.isEmpty) = none := by
    rw [Dev.cmdViolation_congr _ d _ _ _ (Dev.touch_live d h true _), hv]
  have hst : (d.opened h f args).stopped (blockOf f.addr) = false := by
    rw [Dev.stopped, Dev.rd_of_word ((d.opened_loads h f args).word _ hp)]
    exact hs
  unfold Dev.hostGate
  dsimp only
  rw [hv']
  exact if_neg (ne_true_of_eq_false hst)

theorem Dev.hostCmd_opened (d : Dev) (h : Agent) (f : Fld) (args : List (Fld × Nat)) (eff : Dev → Dev)
    (hv : d.cmdViolation h f (!args.isEmpty) = none) (hs : d.stopped (blockOf f.addr) = false)
    (hp : ∀ x ∈ args, x.1.addr ≠ Reg.PWR_STATUS_STATE.addr) : d.hostCmd h f args eff = eff (d.opened h f args) := by
  unfold Dev.hostCmd
  dsimp only
  rw [d.hostGate_open h f args hv hs hp]
  rfl

theorem found_eq (s : State) (h : Agent) (f : Fld) (args : List (Fld × Nat)) (hr : Ready s h f (!args.isEmpty))
    (hp : ∀ x ∈ args, x.1.addr ≠ Reg.PWR_STATUS_STATE.addr) : Found s h f args = s.dev.opened h f args := by
  rw [Found, s.dev.hostGate_open h f args hr.1 hr.2 hp]

/-- A component that the body holds is the same in devices with the same body. -/
theorem Dev.sch_of_body {d d' : Dev} (h : d'.body = d.body) : d'.sch = d.sch := show d'.body.sch = _ by rw [h]; rfl
theorem Dev.mem_of_body {d d' : Dev} (h : d'.body = d.body) : d'.mem = d.mem := show d'.body.mem = _ by rw [h]; rfl
theorem Dev.eng_of_body {d d' : Dev} (h : d'.body = d.body) : d'.eng = d.eng := show d'.body.eng = _ by rw [h]; rfl
theorem Dev.hrt_of_body {d d' : Dev} (h : d'.body = d.body) : d'.hrt = d.hrt := show d'.body.hrt = _ by rw [h]; rfl

end Sys2Proof.Machine
end

section
/-! Job commands (R80 to R82) and admission (R81, R94). -/
namespace Sys2Proof.Machine
open Sys2Proof.Claims

/-! ### What a job command finds and leaves -/

/-- The argument fields of the job command `op` on entry `k`. -/
def jobArgs (op : Nat) (k : JobIx) : List (Fld × Nat) := [(Reg.SCH_JCMD_JOB, k), (Reg.SCH_JCMD_OP, op)]

theorem jobArgs_addr (op : Nat) (k : JobIx) {x : Fld × Nat} (hx : x ∈ jobArgs op k) : x.1.addr = 0x8050 := by
  simp only [jobArgs, List.mem_cons, List.not_mem_nil, or_false] at hx
  obtain rfl | rfl := hx <;> rfl

theorem jobFound_eq {s : State} {h : Agent} (hr : Ready s h Reg.SCH_JCMD_GO true) (op : Nat) (k : JobIx) :
    jobFound s h op k = s.dev.opened h Reg.SCH_JCMD_GO (jobArgs op k) :=
  found_eq s h _ _ hr fun x hx => by rw [jobArgs_addr op k hx]; decide

/-- What the device that a job command finds has of the state before. -/
structure JobFinds (s : State) (op : Nat) (k : JobIx) (D : Dev) : Prop where
  body : D.body = s.dev.body
  fab : D.fab = s.dev.fab.scanOf D.fab
  evq : D.evq = s.dev.evq
  word : ∀ a, a ≠ 0x8050 → D.word a = s.dev.word a
  job : D.rd Reg.SCH_JCMD_JOB = k
  op : D.rd Reg.SCH_JCMD_OP = op

theorem jobFound_finds {s : State} {h : Agent} (hr : Ready s h Reg.SCH_JCMD_GO true) {op : Nat} (ho : op < 8) (k : JobIx) :
    JobFinds s op k (jobFound s h op k) := by
  rw [jobFound_eq hr]
  obtain ⟨hb, hf, he, hw⟩ := s.dev.opened_loads h Reg.SCH_JCMD_GO (jobArgs op k)
  refine ⟨hb, hf, he, fun a ha => hw a fun x hx => by rw [jobArgs_addr op k hx]; exact ha.symm, ?_, Dev.load_rd _ _ _ rfl ho⟩
  exact (Dev.load_rd_sep _ _ _ _ (show Fld.sep Reg.SCH_JCMD_OP Reg.SCH_JCMD_JOB = true by decide)).trans (Dev.load_rd _ _ _ rfl k.isLt)

theorem jobRow_eq {s : State} {h : Agent} (hr : Ready s h Reg.SCH_JCMD_GO true) (op : Nat) (k : JobIx) :
    jobRow h op k s = .next { s with dev := (jobFound s h op k).jobGo.settle } := by
  rw [jobFound_eq hr, ← Dev.hostCmd_opened s.dev h Reg.SCH_JCMD_GO (jobArgs op k) Dev.jobGo hr.1 hr.2
    fun x hx => by rw [jobArgs_addr op k hx]; decide]
  rfl

/-- SCH_JRES and JDONE after the command on entry `k` has ended with `code`. -/
def Dev.jobResult (d : Dev) (k code : Nat) : Dev :=
  ((((d.wr Reg.SCH_JRES_REASON code).wr Reg.SCH_JRES_JOB k).wr Reg.SCH_JRES_REFUSED (bit (code != 0))).wr
    Reg.SCH_JRES_VALID 1).flag Reg.SCH_STATUS_JDONE

theorem Dev.jobResult_word (d : Dev) (k code : Nat) {a : Nat} (ha : a ≠ 0x8054) (hs : a ≠ 0x8008) :
    (d.jobResult k code).word a = d.word a := by
  unfold Dev.jobResult
  rw [Dev.word_flag_ne _ _ _ hs.symm, Dev.word_wr_ne _ _ _ _ ha.symm, Dev.word_wr_ne _ _ _ _ ha.symm, Dev.word_wr_ne _ _ _ _ ha.symm,
    Dev.word_wr_ne _ _ _ _ ha.symm]

theorem Dev.jobResult_rd (d : Dev) (k : JobIx) {code : Nat} (hc : code < 256) :
    (d.jobResult k code).rd Reg.SCH_JRES_REASON = code ∧ (d.jobResult k code).rd Reg.SCH_JRES_JOB = k ∧
      (d.jobResult k code).rd Reg.SCH_JRES_REFUSED = (if code = 0 then 0 else 1) ∧ (d.jobResult k code).rd Reg.SCH_JRES_VALID = 1 ∧
      (d.jobResult k code).rd Reg.SCH_STATUS_JDONE = 1 := by
  have hb : bit (code != 0) = (if code = 0 then 0 else 1) := by
    by_cases h : code = 0 <;> simp [bit, h]
  unfold Dev.jobResult
  rw [hb]
  refine ⟨?_, ?_, ?_, ?_, Dev.rd_flag _ _ rfl⟩ <;> rw [Dev.rd_flag_sep _ _ _ (by decide)]
  · rw [Dev.rd_wr_sep _ _ _ _ (by decide), Dev.rd_wr_sep _ _ _ _ (by decide), Dev.rd_wr_sep _ _ _ _ (by decide)]
    exact Dev.rd_wr_lt _ _ _ rfl hc
  · rw [Dev.rd_wr_sep _ _ _ _ (by decide), Dev.rd_wr_sep _ _ _ _ (by decide)]
    exact Dev.rd_wr_lt _ _ _ rfl k.isLt
  · rw [Dev.rd_wr_sep _ _ _ _ (by decide), Dev.rd_wr _ _ _ rfl]
    split <;> rfl
  · exact Dev.rd_wr_lt _ _ _ rfl (by decide)

/-- The device with its job table and its grate memory taken out. -/
def Dev.noJobs (d : Dev) : Dev := { d.body with sch := {}, mem := {} }

theorem Dev.jobResult_body (d : Dev) (k code : Nat) : (d.jobResult k code).body = d.body := rfl
theorem Dev.jobResult_fab (d : Dev) (k code : Nat) : (d.jobResult k code).fab = d.fab := rfl
theorem Dev.jobResult_sch (d : Dev) (k code : Nat) : (d.jobResult k code).sch = d.sch := rfl
theorem Dev.jobResult_mem (d : Dev) (k code : Nat) : (d.jobResult k code).mem = d.mem := rfl

theorem Dev.eq_around_jobs {d d' : Dev} (h : d'.noJobs = d.noJobs) (hf : d'.fab = d.fab.scanOf d'.fab) :
    d' = { Around d d' with sch := d'.sch, mem := d'.mem, fab := { d.fab with scan := d'.fab.scan } } := by
  have hd : d' = { d'.noJobs with live := d'.live, evq := d'.evq, intr := d'.intr, pwr := d'.pwr, fab := d'.fab, sch := d'.sch,
                                  mem := d'.mem } := rfl
  rw [h, hf] at hd
  exact hd

theorem Dev.noJobs_of_body {d d' : Dev} (h : d'.body = d.body) : d'.noJobs = d.noJobs := by rw [Dev.noJobs, h, Dev.noJobs]

/-- The effect `E` of a command that touches the job table, grate memory and the words `more` alone ends with its result. -/
theorem jobDone_of {s : State} {k : JobIx} {code : Nat} (hc : code < 256) {more : List Nat} {E : Dev} (hb : E.noJobs = s.dev.noJobs)
    (hf : E.fab = s.dev.fab.scanOf E.fab) (hw : ∀ a, a ∉ 0x8050 :: 0x8008 :: more → E.word a = s.dev.word a) :
    JobDone s { s with dev := (E.jobResult k code).settle } k code more := by
  obtain ⟨h1, h2, h3, h4, h5⟩ := E.jobResult_rd k hc
  have hrd : ∀ g, (E.jobResult k code).settle.rd g = (E.jobResult k code).rd g := fun g => Dev.settle_rd _ g
  refine ⟨(hrd _).trans h1, (hrd _).trans h2, (hrd _).trans h3, (hrd _).trans h4, (hrd _).trans h5, fun a ha => ?_,
    Dev.eq_around_jobs ?_ ?_⟩
  case refine_2 => rw [Dev.noJobs, Dev.settle_body, Dev.jobResult_body, ← hb, Dev.noJobs]
  case refine_3 => rw [Dev.settle_fab, Dev.jobResult_fab, ← hf]
  simp only [List.mem_append, List.mem_cons, List.not_mem_nil, or_false, not_or] at ha
  rw [Dev.settle_word, Dev.jobResult_word _ _ _ ha.1.2.2 ha.1.1]
  exact hw a (by simp only [List.mem_cons, not_or]; exact ⟨ha.1.2.1, ha.1.1, ha.2⟩)

/-- In the compute window the command executes at once, and RF is counted for a refused ADMIT or UPDATE. -/
theorem Dev.jobGo_compute {s : State} {op : Nat} {k : JobIx} {D : Dev} (hD : JobFinds s op k D) (hw : s.dev.sch.win = .compute)
    {r : Nat × Dev} (hr : D.jobCommand op k = r) :
    D.jobGo = ((if r.1 ≠ 0 ∧ (op = 1 ∨ op = 2) then r.2.countOutcome (bits (s.dev.word 0x8080).toNat 14 12) 4 else r.2).jobResult k r.1) := by
  have hwin : D.sch.win = .compute := by rw [Dev.sch_of_body hD.body, hw]
  rw [Dev.jobGo, if_pos hwin, Dev.runJobCommand]
  simp only [hD.job, hD.op, hr, hD.word 0x8080 (by decide)]
  rfl

/-- READ, RELEASE, SUSPEND and RESUME, and whatever succeeds, end with their result and count nothing. -/
theorem Dev.jobGo_plain {s : State} {op : Nat} {k : JobIx} {D : Dev} (hD : JobFinds s op k D) (hw : s.dev.sch.win = .compute)
    {code : Nat} (ho : code = 0 ∨ op ≠ 1 ∧ op ≠ 2) {E : Dev} (hr : D.jobCommand op k = (code, E)) : D.jobGo = E.jobResult k code := by
  rw [Dev.jobGo_compute hD hw hr, if_neg (by omega)]

/-- Outside the compute window a command waits, and the third merges with the second (R32, R80). -/
theorem job_waits {s : State} {h : Agent} (hr : Ready s h Reg.SCH_JCMD_GO true) (hw : s.dev.sch.win ≠ .compute) {op : Nat} (ho : op < 8)
    {k : JobIx} {c : Instr} (hc : exec c s = jobRow h op k s) :
    ∃ t, Runs c s t ∧ t.dev.sch = { s.dev.sch with waiting := min 2 (s.dev.sch.waiting + 1) } ∧
      SameWords [0x8050] s t ∧ t.dev.mem = s.dev.mem := by
  have hD := jobFound_finds hr ho k
  have hsch := Dev.sch_of_body hD.body
  have hgo : (jobFound s h op k).jobGo = { jobFound s h op k with sch := { s.dev.sch with waiting := min 2 (s.dev.sch.waiting + 1) } } := by
    rw [Dev.jobGo, if_neg (by rw [hsch]; exact hw), hsch]
  refine ⟨_, ⟨hc.trans (jobRow_eq hr op k), rfl, rfl⟩, ?_, ?_, ?_⟩
  · rw [hgo]
    rfl
  · intro a ha
    rw [hgo]
    exact hD.word a (by simpa using ha)
  · rw [hgo]
    exact show (jobFound s h op k).mem = s.dev.mem from Dev.mem_of_body hD.body

/-! ### Tiles given back -/

theorem Dev.setHm_eq_mem (d : Dev) (h : Nat) (m : HMem) : d.setHm h m = { d with mem := (d.setHm h m).mem } := by
  unfold Dev.setHm
  split <;> rfl

theorem Dev.foldl_setHm_eq_mem (f : Dev → Nat → HMem) (hs : List Nat) (d : Dev) :
    hs.foldl (fun d h => d.setHm h (f d h)) d = { d with mem := (hs.foldl (fun d h => d.setHm h (f d h)) d).mem } := by
  induction hs generalizing d with
  | nil => rfl
  | cons h hs ih =>
    rw [List.foldl_cons, ih, Dev.setHm_eq_mem]

theorem Dev.returnTiles_eq_mem (d : Dev) (j : Job) : d.returnTiles j = { d with mem := (d.returnTiles j).mem } := by
  unfold Dev.returnTiles
  split
  · rfl
  · exact Dev.foldl_setHm_eq_mem _ _ d

/-- The run of a released job is being zeroed in the hearths that hold it (R200). -/
theorem Dev.returnTiles_zeroing (d : Dev) (j : Job) (hl : j.runLen ≠ 0) :
    (j.inA = true → (j.run, j.runLen) ∈ ((d.returnTiles j).hm 0).zeroing) ∧
      (j.inB = true → (j.run, j.runLen) ∈ ((d.returnTiles j).hm 1).zeroing) := by
  unfold Dev.returnTiles
  rw [if_neg hl]
  cases j.inA <;> cases j.inB <;> simp [Dev.hm, Dev.setHm]

/-! ### READ -/

theorem Dev.loadWord_eq (d : Dev) (a : Nat) (w : Word) : (d.loadWord a w).body = d.body ∧ (d.loadWord a w).fab = d.fab.scanOf (d.loadWord a w).fab ∧
    ∀ b, (d.loadWord a w).word b = if b = a then w else d.word b := by
  unfold Dev.loadWord
  split
  case isTrue h =>
    refine ⟨rfl, rfl, fun b => ?_⟩
    split
    · rename_i hb
      rw [hb, h]
    · rfl
  case isFalse =>
    refine ⟨by rw [Dev.dirty_body, Dev.setWord_body], Dev.dirty_fab _, fun b => ?_⟩
    rw [Dev.dirty_word]
    split
    · rename_i hb
      rw [hb, Dev.word_setWord_eq]
    · rename_i hb
      exact Dev.word_setWord_ne _ _ _ _ (Ne.symm hb)

/-- The words `v` are loaded from `a` on. -/
def Dev.loadWords (d : Dev) (a : Nat) (v : Nat → Word) (n : Nat) : Dev :=
  (List.range n).foldl (fun d' i => d'.loadWord (a + 4 * i) (v i)) d

theorem Dev.loadWords_eq (d : Dev) (a : Nat) (v : Nat → Word) (n : Nat) :
    (d.loadWords a v n).body = d.body ∧ (d.loadWords a v n).fab = d.fab.scanOf (d.loadWords a v n).fab ∧
      (∀ i, i < n → (d.loadWords a v n).word (a + 4 * i) = v i) ∧
      ∀ b, (∀ i, i < n → b ≠ a + 4 * i) → (d.loadWords a v n).word b = d.word b := by
  induction n with
  | zero => exact ⟨rfl, rfl, nofun, fun _ _ => rfl⟩
  | succ n ih =>
    obtain ⟨hb, hf, hi, ho⟩ := ih
    simp only [Dev.loadWords, List.range_succ, List.foldl_append, List.foldl_cons, List.foldl_nil] at hb hf hi ho ⊢
    obtain ⟨hb', hf', hw'⟩ := ((List.range n).foldl (fun d' i => d'.loadWord (a + 4 * i) (v i)) d).loadWord_eq (a + 4 * n) (v n)
    refine ⟨hb'.trans hb, ?_, fun i hin => ?_, fun b hbn => ?_⟩
    · refine hf'.trans ?_
      rw [hf]
      rfl
    · refine (hw' _).trans ?_
      split
      · rw [show i = n by omega]
      · exact hi i (by omega)
    · refine (hw' b).trans ?_
      rw [if_neg (hbn n (by omega))]
      exact ho b fun i hin => hbn i (by omega)

theorem Dev.jobCommand_read (d : Dev) (k : Nat) : d.jobCommand 0 k = (0, d.loadWords 0x8080 (fun i => (d.readBack k).getD i 0) 16) := rfl

/-- READ loads the words of the entry (R81). -/
theorem jobRead_copies {s : State} {h : Agent} {k : JobIx} (hr : Ready s h Reg.SCH_JCMD_GO true) (hw : s.dev.sch.win = .compute) :
    ∃ t, Runs (.jobRead h k) s t ∧ JobDone s t k 0 ((List.range 16).map fun i => 0x8080 + 4 * i) ∧ t.dev.sch = s.dev.sch ∧
      ∀ i, i < 16 → t.dev.word (0x8080 + 4 * i) = (s.dev.readBack k).getD i 0 := by
  have hD := jobFound_finds hr (op := 0) (by decide) k
  have hrb : (jobFound s h 0 k).readBack k = s.dev.readBack k := by
    simp only [Dev.readBack, Dev.job, Dev.sch_of_body hD.body]
    rfl
  obtain ⟨hb, hf, hi, ho⟩ := (jobFound s h 0 k).loadWords_eq 0x8080 (fun i => (s.dev.readBack k).getD i 0) 16
  have hcmd := (jobFound s h 0 k).jobCommand_read k
  rw [hrb] at hcmd
  generalize (jobFound s h 0 k).loadWords 0x8080 (fun i => (s.dev.readBack k).getD i 0) 16 = E at hb hf hi ho hcmd
  have hgo := Dev.jobGo_plain hD hw (by decide) hcmd
  refine ⟨_, ⟨jobRow_eq hr 0 k, rfl, rfl⟩, ?_, ?_, fun i hin => ?_⟩ <;> rw [hgo]
  · refine jobDone_of (by decide) (Dev.noJobs_of_body (hb.trans hD.body)) ?_ fun a ha => ?_
    · rw [hf, hD.fab]
      rfl
    · simp only [List.mem_cons, List.mem_map, List.mem_range, not_or] at ha
      rw [ho a fun i hin he => ha.2.2 ⟨i, hin, he.symm⟩]
      exact hD.word a ha.1
  · exact show E.sch = s.dev.sch from Dev.sch_of_body (hb.trans hD.body)
  · rw [Dev.settle_word, Dev.jobResult_word _ _ _ (by omega) (by omega)]
    exact hi i hin

theorem Dev.readBack_none {d : Dev} {k i : Nat} (h : (d.job k).admitted = false) (hi : i < 16) : (d.readBack k).getD i 0 = 0 := by
  have heq : d.readBack k = List.replicate 16 0 := if_pos (by simp [h])
  rw [heq]
  interval_cases i <;> rfl

theorem Dev.readBack_desc {d : Dev} {k : Nat} (h : (d.job k).admitted = true) (hl : (d.job k).desc.length = 14) :
    (∀ i, i < 14 → (d.readBack k).getD i 0 = (d.job k).desc.getD i 0) ∧ (d.readBack k).getD 14 0 = BitVec.ofNat 32 (d.job k).seq := by
  have heq : d.readBack k = (d.job k).desc ++ [BitVec.ofNat 32 (d.job k).seq, _] := if_neg (by simp [h])
  rw [heq]
  refine ⟨fun i hi => ?_, ?_⟩
  · rw [List.getD_append _ _ _ _ (by omega)]
  · rw [List.getD_append_right _ _ _ _ (by omega), hl]
    rfl

/-! ### Commands on an entry -/

/-- A job command that leaves the words and the fabric as it finds them ends with its result. -/
theorem job_ends {s : State} {h : Agent} {k : JobIx} (hr : Ready s h Reg.SCH_JCMD_GO true) (hw : s.dev.sch.win = .compute)
    {op code : Nat} (ho : op < 8) (hn : code = 0 ∨ op ≠ 1 ∧ op ≠ 2) {c : Instr} (hc : exec c s = jobRow h op k s) (hcode : code < 256)
    {sch : Sch} {mem : Mem}
    (hE : (jobFound s h op k).jobCommand op k = (code, { jobFound s h op k with sch := sch, mem := mem })) :
    ∃ t, Runs c s t ∧ JobDone s t k code [] ∧ t.dev.sch = sch ∧ t.dev.mem = mem := by
  have hD := jobFound_finds hr ho k
  refine ⟨_, ⟨hc.trans (jobRow_eq hr op k), rfl, rfl⟩, ?_, ?_, ?_⟩ <;> rw [Dev.jobGo_plain hD hw hn hE]
  · refine jobDone_of hcode (E := { jobFound s h op k with sch := sch, mem := mem }) ?_ hD.fab fun a ha => ?_
    · exact show (jobFound s h op k).noJobs = s.dev.noJobs from Dev.noJobs_of_body hD.body
    · exact hD.word a (by simp only [List.mem_cons, not_or] at ha; exact ha.1)
  · rfl
  · rfl

theorem jobFound_job {s : State} {h : Agent} {k : JobIx} (hr : Ready s h Reg.SCH_JCMD_GO true) {op : Nat} (ho : op < 8) (q : Nat) :
    (jobFound s h op k).job q = s.dev.job q := by
  rw [Dev.job, Dev.sch_of_body (jobFound_finds hr ho k).body, Dev.job]

/-- A command that changes nothing but its result. -/
theorem job_refused {s : State} {h : Agent} {k : JobIx} (hr : Ready s h Reg.SCH_JCMD_GO true) (hw : s.dev.sch.win = .compute)
    {op code : Nat} (ho : op < 8) (hn : code = 0 ∨ op ≠ 1 ∧ op ≠ 2) {c : Instr} (hc : exec c s = jobRow h op k s) (hcode : code < 256)
    (hE : (jobFound s h op k).jobCommand op k = (code, jobFound s h op k)) :
    ∃ t, Runs c s t ∧ JobDone s t k code [] ∧ t.dev.sch = s.dev.sch ∧ t.dev.mem = s.dev.mem := by
  have hD := jobFound_finds hr ho k
  obtain ⟨t, hrun, hdone, hsch, hmem⟩ := job_ends hr hw ho hn hc hcode (sch := (jobFound s h op k).sch) (mem := (jobFound s h op k).mem) hE
  exact ⟨t, hrun, hdone, hsch.trans (Dev.sch_of_body hD.body), hmem.trans (Dev.mem_of_body hD.body)⟩

/-- Settles O33. -/
theorem jobCommandsActOnTheirEntry : Obligations.JobCommandsActOnTheirEntry := by
  intro s h k hr J held
  have hjob : ∀ {op : Nat}, op < 8 → (jobFound s h op k).job k = J := fun ho => jobFound_job hr ho k
  have hsch : ∀ {op : Nat}, op < 8 → (jobFound s h op k).sch = s.dev.sch := fun ho => Dev.sch_of_body (jobFound_finds hr ho k).body
  have hmem : ∀ {op : Nat}, op < 8 → (jobFound s h op k).mem = s.dev.mem := fun ho => Dev.mem_of_body (jobFound_finds hr ho k).body
  refine ⟨fun hw => ⟨?_, fun hadm => ⟨?_, ?_, ?_, ?_⟩, fun hadm c hc => ?_⟩, fun hw c hc => ?_⟩
  · obtain ⟨t, hrun, hdone, hs, hword⟩ := jobRead_copies hr hw (k := k)
    refine ⟨t, hrun, hdone, hs, fun hno i hi => ?_, fun hadm hlen => ⟨fun i hi => ?_, ?_⟩⟩
    · rw [hword i hi, Dev.readBack_none hno hi]
    · rw [hword i (by omega), (Dev.readBack_desc hadm hlen).1 i hi]
    · rw [show 0x80B8 = 0x8080 + 4 * 14 from rfl, hword 14 (by decide), (Dev.readBack_desc hadm hlen).2]
  · obtain ⟨t, hrun, hdone, hs, hm⟩ := job_ends hr hw (op := 4) (by decide) (by decide) (c := .suspendJob h k) rfl (code := 0) (by decide)
      (sch := { s.dev.sch with jobs := Sparse.put {} s.dev.sch.jobs k { J with hostSusp := true } }) (mem := s.dev.mem) (by
        simp only [Dev.jobCommand, hjob (show 4 < 8 by decide), hadm, Dev.setJob, hsch (show 4 < 8 by decide)]
        rw [← hmem (op := 4) (by decide)]
        rfl)
    exact ⟨t, hrun, hdone, hm, hs⟩
  · intro hstand
    obtain ⟨t, hrun, hdone, hs, hm⟩ := job_ends hr hw (op := 5) (by decide) (by decide) (c := .resumeJob h k) rfl (code := 0) (by decide)
      (sch := { s.dev.sch with jobs := Sparse.put {} s.dev.sch.jobs k { J with hostSusp := false, ovSusp := none, ovrun := 0 } })
      (mem := s.dev.mem) (by
        simp only [Dev.jobCommand, hjob (show 5 < 8 by decide), hadm, hstand, Dev.setJob, hsch (show 5 < 8 by decide)]
        rw [← hmem (op := 5) (by decide)]
        rfl)
    exact ⟨t, hrun, hdone, hm, hs⟩
  · intro hheld
    have hput : (jobFound s h 3 k).jobCommand 3 k =
        (0, ((jobFound s h 3 k).setJob k { J with releasing := some s.dev.tick }).returnTiles J) := by
      have htick : (jobFound s h 3 k).tick = s.dev.tick := Dev.tick_of_body (jobFound_finds hr (by decide) k).body
      simp only [Dev.jobCommand, hjob (show 3 < 8 by decide), hadm, hsch (show 3 < 8 by decide), htick]
      rw [if_neg (by simp), if_neg (by simpa [held] using hheld)]
    have hzero := ((jobFound s h 3 k).setJob k { J with releasing := some s.dev.tick }).returnTiles_zeroing J
    rw [Dev.returnTiles_eq_mem] at hput
    obtain ⟨t, hrun, hdone, hs, hm⟩ := job_ends hr hw (by decide) (by decide) (c := .releaseJob h k) rfl (by decide) hput
    refine ⟨t, hrun, hdone, ?_, fun hl hin => ?_, fun hl hin => ?_⟩
    · rw [EntryIs, hs]
      simp only [Dev.setJob, hsch (show 3 < 8 by decide)]
    · rw [Dev.hm_congr hm]
      exact (hzero hl).1 hin
    · rw [Dev.hm_congr hm]
      exact (hzero hl).2 hin
  · intro hheld
    refine job_refused hr hw (op := 3) (by decide) (by decide) rfl (by decide) ?_
    simp only [Dev.jobCommand, hjob (show 3 < 8 by decide), hadm, hsch (show 3 < 8 by decide)]
    rw [if_neg (by simp), if_pos (by simpa [held] using hheld)]
  · simp only [List.mem_cons, List.not_mem_nil, or_false] at hc
    obtain rfl | rfl | rfl := hc
    · exact job_refused hr hw (op := 4) (by decide) (by decide) rfl (by decide)
        (by simp only [Dev.jobCommand, hjob (show 4 < 8 by decide), hadm]; rfl)
    · exact job_refused hr hw (op := 5) (by decide) (by decide) rfl (by decide)
        (by simp only [Dev.jobCommand, hjob (show 5 < 8 by decide), hadm]; rfl)
    · exact job_refused hr hw (op := 3) (by decide) (by decide) rfl (by decide)
        (by simp only [Dev.jobCommand, hjob (show 3 < 8 by decide), hadm]; rfl)
  · simp only [List.mem_cons, List.not_mem_nil, or_false] at hc
    obtain rfl | rfl | rfl | rfl | rfl | rfl := hc
    · exact job_waits hr hw (op := 0) (by decide) rfl
    · exact job_waits hr hw (op := 1) (by decide) rfl
    · exact job_waits hr hw (op := 2) (by decide) rfl
    · exact job_waits hr hw (op := 3) (by decide) rfl
    · exact job_waits hr hw (op := 4) (by decide) rfl
    · exact job_waits hr hw (op := 5) (by decide) rfl

end Sys2Proof.Machine
end

section
/-! Admission (R81, R94): what ADMIT and UPDATE store, and what a refusal counts. -/
namespace Sys2Proof.Machine
open Sys2Proof.Claims

/-! ### Reason codes -/

theorem foldl_min_mem (l : List Nat) (c : Nat) : l.foldl min c ∈ c :: l := by
  induction l generalizing c with
  | nil => simp
  | cons x l ih =>
    obtain h | h := List.mem_cons.mp (ih (min c x))
    · rw [List.foldl_cons, h]
      rcases min_choice c x with h' | h' <;> simp [h']
    · exact List.mem_cons_of_mem _ (List.mem_cons_of_mem _ h)

theorem lowest_mem {l : List Nat} {c : Nat} (h : lowest l = some c) : c ∈ l := by
  cases l with
  | nil => cases h
  | cons x l =>
    obtain rfl := Option.some.inj h
    exact foldl_min_mem l x

theorem eq_of_mem_ite {p : Prop} [Decidable p] {c x : Nat} (h : c ∈ (if p then [x] else [])) : c = x := by
  split at h
  · exact List.mem_singleton.mp h
  · cases h

/-- The reasons of test 1 (R94). -/
theorem Dev.test1_codes {d : Dev} {t : Sparse Job} {k : Nat} {j : Job} {banks c : Nat} (h : c ∈ d.test1 t k j banks) :
    c ∈ [0x01, 0x03, 0x10, 0x11, 0x12, 0x14, 0x15, 0x16, 0x17, 0x19, 0x1A, 0x1B] := by
  simp only [Dev.test1, List.mem_append] at h
  simp only [List.mem_cons, List.not_mem_nil, or_false]
  rcases h with (((((((((((h | h) | h) | h) | h) | h) | h) | h) | h) | h) | h) | h) <;> simp [eq_of_mem_ite h]

theorem Dev.test1_code {d : Dev} {t : Sparse Job} {k : Nat} {j : Job} {banks c : Nat} (h : lowest (d.test1 t k j banks) = some c) :
    c ≠ 0 ∧ c < 256 := by
  have := Dev.test1_codes (lowest_mem h)
  simp only [List.mem_cons, List.not_mem_nil, or_false] at this
  omega

/-! ### A refusal -/

theorem refusedWord_eq (cls : Nat) : refusedWord cls = 0x8410 + 0x20 * cls := by
  show 0x8400 + 0x20 * cls + 0x4 * 4 = _
  omega

theorem Dev.countOutcome_body (d : Dev) (cls oc : Nat) : (d.countOutcome cls oc).body = d.body := by
  unfold Dev.countOutcome
  split
  · exact Dev.countBit_body ..
  · rfl

theorem Dev.countOutcome_fab (d : Dev) (cls oc : Nat) : (d.countOutcome cls oc).fab = d.fab := by
  unfold Dev.countOutcome
  split
  · exact Dev.countBit_fab ..
  · rfl

theorem Dev.countOutcome_word (d : Dev) {cls oc a : Nat} (ha : a ≠ (Reg.SCH_CNT_COUNT cls oc).addr) (hs : a ≠ 0x8008) :
    (d.countOutcome cls oc).word a = d.word a := by
  unfold Dev.countOutcome
  split
  · exact d.word_countBit_ne _ _ _ _ _ ha.symm hs.symm
  · rfl

theorem Dev.countOutcome_rd (d : Dev) {cls : Nat} (hc : cls < 6) (oc : Nat) :
    (d.countOutcome cls oc).rd (Reg.SCH_CNT_COUNT cls oc) = (d.rd (Reg.SCH_CNT_COUNT cls oc) + 1) % 2 ^ 32 := by
  unfold Dev.countOutcome
  rw [if_pos hc]
  refine d.rd_countBit _ _ _ _ rfl ?_
  show (0x8008 : Nat) ≠ 0x8400 + 0x20 * cls + 0x4 * oc
  omega

/-- A refused ADMIT or UPDATE counts RF for the staged CLASS and changes nothing else (R116). -/
theorem admission_refused {s : State} {h : Agent} {k : JobIx} (hr : Ready s h Reg.SCH_JCMD_GO true) (hw : s.dev.sch.win = .compute)
    {op code : Nat} (ho : op = 1 ∨ op = 2) {c : Instr} (hc : exec c s = jobRow h op k s) (hcode : code ≠ 0 ∧ code < 256)
    (hE : (jobFound s h op k).jobCommand op k = (code, jobFound s h op k)) :
    let cls := (s.dev.word 0x8080).toNat / 2 ^ 12 % 8
    ∃ t, Runs c s t ∧ JobDone s t k code [refusedWord cls] ∧ t.dev.sch = s.dev.sch ∧ t.dev.mem = s.dev.mem ∧
      (cls < 6 → t.dev.rd (Reg.SCH_CNT_COUNT cls 4) = (s.dev.rd (Reg.SCH_CNT_COUNT cls 4) + 1) % 2 ^ 32) := by
  intro cls
  have hD := jobFound_finds hr (op := op) (by omega) k
  have hgo := Dev.jobGo_compute hD hw hE
  rw [if_pos ⟨hcode.1, ho⟩] at hgo
  change _ = ((jobFound s h op k).countOutcome cls 4).jobResult k code at hgo
  have hb := ((jobFound s h op k).countOutcome_body cls 4).trans hD.body
  have hf := ((jobFound s h op k).countOutcome_fab cls 4)
  have hword := fun a => (jobFound s h op k).countOutcome_word (cls := cls) (oc := 4) (a := a)
  have hcnt := fun hcls => (jobFound s h op k).countOutcome_rd (cls := cls) hcls 4
  generalize (jobFound s h op k).countOutcome cls 4 = E at hgo hb hf hword hcnt
  refine ⟨_, ⟨hc.trans (jobRow_eq hr op k), rfl, rfl⟩, ?_, ?_, ?_, fun hcls => ?_⟩ <;> rw [hgo]
  · refine jobDone_of hcode.2 (Dev.noJobs_of_body hb) ?_ fun a ha => ?_
    · rw [hf]
      exact hD.fab
    · simp only [List.mem_cons, List.not_mem_nil, or_false, not_or] at ha
      rw [hword a ha.2.2 ha.2.1, hD.word a ha.1]
  · exact show E.sch = s.dev.sch from Dev.sch_of_body hb
  · exact show E.mem = s.dev.mem from Dev.mem_of_body hb
  · have haddr : (Reg.SCH_CNT_COUNT cls 4).addr = 0x8410 + 0x20 * cls := refusedWord_eq cls
    rw [Dev.settle_rd, Dev.rd_of_word (Dev.jobResult_word _ _ _ (by rw [haddr]; omega) (by rw [haddr]; omega)), hcnt hcls,
      Dev.rd_of_word (hD.word _ (by rw [haddr]; omega))]

/-! ### The staged descriptor -/

theorem and_descMask_mod (w : Word) : (w &&& BitVec.ofNat 32 0xFF03F3FF).toNat % 1024 = w.toNat % 1024 := by
  rw [BitVec.toNat_and, show (1024 : Nat) = 2 ^ 10 from rfl, Nat.and_mod_two_pow,
    show (BitVec.ofNat 32 0xFF03F3FF).toNat % 2 ^ 10 = 2 ^ 10 - 1 from rfl, Nat.and_two_pow_sub_one_eq_mod, Nat.mod_mod]

/-- The JOB_ID of the staged descriptor. -/
theorem Dev.staged_job (d : Dev) : (d.staged.getD 0 0).toNat % 1024 = (d.word 0x8080).toNat % 1024 := and_descMask_mod _

theorem Dev.jobCommand_admit (d : Dev) (k : Nat) : d.jobCommand 1 k = if (d.staged.getD 0 0).toNat % 1024 != k then (0x02, d)
    else if (d.job k).present then (0x18, d) else d.admission k d.staged none := rfl

theorem Dev.jobCommand_update (d : Dev) (k : Nat) : d.jobCommand 2 k = if (d.staged.getD 0 0).toNat % 1024 != k then (0x02, d)
    else if !(d.job k).admitted then (0x1C, d) else d.admission k d.staged (some (d.job k)) := rfl

/-- ADMIT of a free entry and UPDATE of an admitted one run the tests of R94 on the staged descriptor. -/
theorem jobCommand_admission {s : State} {op : Nat} {k : JobIx} {D : Dev} (hD : JobFinds s op k D)
    (hsame : (s.dev.word 0x8080).toNat % 1024 = k) :
    ((s.dev.job k).present = false → D.jobCommand 1 k = D.admission k D.staged none) ∧
      ((s.dev.job k).admitted = true → D.jobCommand 2 k = D.admission k D.staged (some (s.dev.job k))) := by
  have hjob : D.job k = s.dev.job k := by rw [Dev.job, Dev.sch_of_body hD.body, Dev.job]
  have hpair : ((D.staged.getD 0 0).toNat % 1024 != k.val) = false := by
    rw [D.staged_job, hD.word _ (by decide), hsame]
    exact bne_self_eq_false _
  constructor
  · intro hp
    rw [Dev.jobCommand_admit, hpair, hjob, hp, if_neg Bool.false_ne_true, if_neg Bool.false_ne_true]
  · intro ha
    rw [Dev.jobCommand_update, hpair, hjob, ha, if_neg Bool.false_ne_true, Bool.not_true, if_neg Bool.false_ne_true]

/-! ### Tiles drawn -/

theorem Dev.drawTiles_eq_mem (d : Dev) (hs : List Nat) (run len : Nat) : d.drawTiles hs run len = { d with mem := (d.drawTiles hs run len).mem } := by
  unfold Dev.drawTiles
  split
  · rfl
  · exact Dev.foldl_setHm_eq_mem _ _ d

theorem Dev.findTiles_on {d : Dev} {hs : List Nat} {tiles run : Nat} (h : d.findTiles hs tiles = some run) :
    (decide (tiles > 0) && !d.on Reg.ALC_CFG_ENABLE) = false := by
  by_cases ht : tiles = 0
  · simp [ht]
  · by_cases hon : d.on Reg.ALC_CFG_ENABLE
    · simp [hon]
    · simp [Dev.findTiles, ht, hon] at h

/-! ### What is stored -/

/-- The tests and effects of an admission of job `j` over the entry `old` (R94, R199): the part of `Dev.admission` behind the choice of `j`. -/
def Dev.admitAs (d : Dev) (k : Nat) (j : Job) (old : Option Job) : Nat × Dev :=
  let t := d.sch.jobs.filter fun e => !e.2.standing
  match lowest (d.test1 t k j d.banks) with
  | some c => (c, d)
  | none =>
    let bound := match d.entryOf j [] with
      | some e => e.bound
      | none => 0
    if j.wcet < bound then (0x13, d) else
    let hs := d.drawsIn j
    let keep := old.any fun o => o.tiles == j.tiles && d.drawsIn o == hs
    match (if keep then some j.run else d.findTiles hs j.tiles), decide (j.tiles > 0) && !d.on Reg.ALC_CFG_ENABLE with
    | none, _ => (0x40, d)
    | some _, true => (0x40, d)
    | some run, false =>
      match d.capacityTests k j (t.filter fun e => e.1 != k && e.2.admitted) with
      | some c => (c, d)
      | none =>
        let d := if keep then d else (match old with | some o => d.returnTiles o | none => d).drawTiles hs run j.tiles
        let j := { j with run := run, runLen := j.tiles, inA := hs.contains 0, inB := hs.contains 1 }
        let d := d.setJob k j
        (0, match old with
          | some _ => d
          | none => { d with sch := { d.sch with nextSeq := d.sch.nextSeq + 1 } })

/-- The job that ADMIT of the staged descriptor makes. -/
def Dev.newJob (d : Dev) : Job := { desc := d.staged, seq := d.sch.nextSeq, standSusp := d.on Reg.SCH_STATUS_HELD }

/-- The job that UPDATE with the staged descriptor makes of `J`. -/
def Dev.updated (d : Dev) (J : Job) : Job :=
  { J with desc := d.staged, pendTick := if ({ J with desc := d.staged } : Job).defer then J.pendTick else none }

theorem Dev.newJob_pendTick (d : Dev) : ({ d.newJob with pendTick := if d.newJob.defer then none else none } : Job) = d.newJob := by
  rw [ite_self]
  rfl

theorem Dev.admission_new (d : Dev) (k : Nat) : d.admission k d.staged none = d.admitAs k d.newJob none := by
  rw [← d.newJob_pendTick]
  unfold Dev.admission Dev.admitAs
  dsimp only <;> rfl

theorem Dev.admission_old (d : Dev) (k : Nat) (J : Job) : d.admission k d.staged (some J) = d.admitAs k (d.updated J) (some J) := by
  unfold Dev.admission Dev.admitAs Dev.updated
  dsimp only <;> rfl

theorem Dev.admitAs_refused {d : Dev} {k c : Nat} {j : Job} {old : Option Job}
    (h : lowest (d.test1 (d.sch.jobs.filter fun e => !e.2.standing) k j d.banks) = some c) : d.admitAs k j old = (c, d) := by
  unfold Dev.admitAs
  dsimp only
  rw [h]

/-- The conditions under which test 1 and the bound of R94 pass, and tests 3 to 5. -/
structure Dev.Passes (d : Dev) (k : Nat) (j : Job) : Prop where
  test1 : lowest (d.test1 (d.sch.jobs.filter fun e => !e.2.standing) k j d.banks) = none
  bound : ((d.entryOf j []).map fun e => e.bound).getD 0 ≤ j.wcet
  capacity : d.capacityTests k j ((d.sch.jobs.filter fun e => !e.2.standing).filter fun e => e.1 != k && e.2.admitted) = none

theorem Dev.Passes.not_bound {d : Dev} {k : Nat} {j : Job} (h : d.Passes k j) :
    ¬ j.wcet < (match d.entryOf j [] with | some e => e.bound | none => 0) := by
  have hb := h.bound
  cases he : d.entryOf j [] <;> simp [he] at hb ⊢
  exact hb

/-- ADMIT stores a descriptor that passes every test. -/
theorem Dev.admitAs_admits {d : Dev} {k : Nat} {j : Job} {run : Nat} (hp : d.Passes k j) (hrun : d.findTiles (d.drawsIn j) j.tiles = some run) :
    d.admitAs k j none = (0, { d with
      mem := (d.drawTiles (d.drawsIn j) run j.tiles).mem
      sch := { d.sch with
        nextSeq := d.sch.nextSeq + 1
        jobs := Sparse.put {} d.sch.jobs k { j with
          run := run, runLen := j.tiles, inA := (d.drawsIn j).contains 0, inB := (d.drawsIn j).contains 1 } } }) := by
  unfold Dev.admitAs
  simp only [hp.test1, if_neg hp.not_bound, Option.any_none, Bool.false_eq_true, if_false, hrun, Dev.findTiles_on hrun, hp.capacity]
  rw [Dev.drawTiles_eq_mem]
  rfl

/-- UPDATE stores a descriptor that passes every test and draws the same tiles. -/
theorem Dev.admitAs_updates {d : Dev} {k : Nat} {J j : Job} (hp : d.Passes k j) (ht : J.tiles = j.tiles)
    (hd : d.drawsIn J = d.drawsIn j) (hon : j.tiles = 0 ∨ d.rd Reg.ALC_CFG_ENABLE = 1) :
    d.admitAs k j (some J) = (0, { d with
      sch := { d.sch with jobs := Sparse.put {} d.sch.jobs k { j with
        runLen := j.tiles, inA := (d.drawsIn j).contains 0, inB := (d.drawsIn j).contains 1 } } }) := by
  have hkeep : (J.tiles == j.tiles && d.drawsIn J == d.drawsIn j) = true := by simp [ht, hd]
  have htile : (decide (j.tiles > 0) && !d.on Reg.ALC_CFG_ENABLE) = false := by
    obtain h | h := hon
    · simp [h]
    · simp [Dev.on, h]
  unfold Dev.admitAs
  simp only [hp.test1, if_neg hp.not_bound, Option.any_some, hkeep, if_true, htile, hp.capacity]
  rfl

/-- Settles O34. -/
theorem admissionStoresTheStagedDescriptor : Obligations.AdmissionStoresTheStagedDescriptor := by
  intro s h k hr hw J cls tbl others refused same
  have hD : ∀ {op : Nat}, op < 8 → JobFinds s op k (jobFound s h op k) := fun ho => jobFound_finds hr ho k
  have hjob : ∀ {op : Nat}, op < 8 → (jobFound s h op k).job k = J := fun ho => jobFound_job hr ho k
  have hpair : ∀ {op : Nat}, op < 8 → ¬ same → (((jobFound s h op k).staged.getD 0 0).toNat % 1024 != k.val) = true := by
    intro op ho hne
    rw [Dev.staged_job, (hD ho).word _ (by decide)]
    exact bne_iff_ne.mpr hne
  have hsame : ∀ {op : Nat}, op < 8 → same → (((jobFound s h op k).staged.getD 0 0).toNat % 1024 != k.val) = false := by
    intro op ho he
    rw [Dev.staged_job, (hD ho).word _ (by decide), he]
    exact bne_self_eq_false _
  refine ⟨fun hne => ⟨?_, ?_⟩, fun he hp => ?_, fun he ha => ?_, ?_, ?_⟩
  · refine admission_refused hr hw (op := 1) (.inl rfl) rfl (by decide) ?_
    rw [Dev.jobCommand_admit, hpair (by decide) hne, if_pos rfl]
  · refine admission_refused hr hw (op := 2) (.inr rfl) rfl (by decide) ?_
    rw [Dev.jobCommand_update, hpair (by decide) hne, if_pos rfl]
  · refine admission_refused hr hw (op := 1) (.inl rfl) rfl (by decide) ?_
    rw [Dev.jobCommand_admit, hsame (by decide) he, hjob (by decide), hp, if_neg Bool.false_ne_true, if_pos rfl]
  · refine admission_refused hr hw (op := 2) (.inr rfl) rfl (by decide) ?_
    rw [Dev.jobCommand_update, hsame (by decide) he, hjob (by decide), ha, if_neg Bool.false_ne_true, Bool.not_false, if_pos rfl]
  · intro D j he hp
    have hfind := hD (op := 1) (by decide)
    have hsch : D.sch = s.dev.sch := Dev.sch_of_body hfind.body
    have hj : D.newJob = j := by rw [Dev.newJob, hsch, Dev.on, Dev.rd_of_word (hfind.word _ (by decide)), ← Dev.on]
    have hcmd := ((jobCommand_admission hfind he).1 hp).trans (D.admission_new k)
    rw [hj] at hcmd
    have htbl : tbl = D.sch.jobs.filter fun e => !e.2.standing := by rw [hsch]
    have hothers : others = tbl.filter fun e => e.1 != k.val && e.2.admitted := rfl
    refine ⟨fun c hc => ?_, fun run h1 h2 h3 h4 => ?_⟩
    · refine admission_refused hr hw (op := 1) (.inl rfl) rfl (Dev.test1_code hc) (hcmd.trans ?_)
      rw [htbl] at hc
      exact Dev.admitAs_refused hc
    · rw [hothers] at h4
      rw [htbl] at h1 h4
      obtain ⟨t, hrun, hdone, hs, -⟩ := job_ends hr hw (op := 1) (by decide) (.inl rfl) (c := .admitJob h k) rfl (by decide)
        (hcmd.trans (Dev.admitAs_admits ⟨h1, h2, h4⟩ h3))
      refine ⟨t, hrun, hdone, ?_⟩
      rw [hs, hsch]
  · intro D j he ha ht hd h1 h2 h3 h4
    have hfind := hD (op := 2) (by decide)
    have hsch : D.sch = s.dev.sch := Dev.sch_of_body hfind.body
    have hcmd := ((jobCommand_admission hfind he).2 ha).trans (D.admission_old k J)
    have htbl : tbl = D.sch.jobs.filter fun e => !e.2.standing := by rw [hsch]
    have hothers : others = tbl.filter fun e => e.1 != k.val && e.2.admitted := rfl
    rw [hothers] at h4
    rw [htbl] at h1 h4
    rw [← Dev.rd_of_word (hfind.word _ (by decide))] at h3
    obtain ⟨t, hrun, hdone, hs, hm⟩ := job_ends hr hw (op := 2) (by decide) (.inl rfl) (c := .updateJob h k) rfl (by decide)
      (hcmd.trans (Dev.admitAs_updates ⟨h1, h2, h4⟩ ht hd h3))
    refine ⟨t, hrun, hdone, hm.trans (Dev.mem_of_body hfind.body), ?_⟩
    rw [hsch] at hs
    exact hs

end Sys2Proof.Machine
end

section
/-! Flow commands (R232, R233): APPLY and STOP end with their result and wait for the boundary. -/
namespace Sys2Proof.Machine
open Sys2Proof.Claims

/-- The argument fields of the flow command `op`. -/
def flowArgs (op : Nat) (tx : Bool) (f : Nat) : List (Fld × Nat) := [(Reg.FLW_FCMD_FLOW, f), (Reg.FLW_FCMD_DIR, bit tx), (Reg.FLW_FCMD_OP, op)]

theorem flowArgs_addr {op f : Nat} {tx : Bool} {x : Fld × Nat} (hx : x ∈ flowArgs op tx f) : x.1.addr = 0xC010 := by
  simp only [flowArgs, List.mem_cons, List.not_mem_nil, or_false] at hx
  obtain rfl | rfl | rfl := hx <;> rfl

/-- What the device that a flow command finds has of the state before. -/
structure FlowFinds (s : State) (op : Nat) (tx : Bool) (f : Nat) (D : Dev) : Prop where
  body : D.body = s.dev.body
  fab : D.fab = s.dev.fab.scanOf D.fab
  word : ∀ a, a ≠ 0xC010 → D.word a = s.dev.word a
  flow : D.rd Reg.FLW_FCMD_FLOW = f
  dir : D.on Reg.FLW_FCMD_DIR = tx
  op : D.rd Reg.FLW_FCMD_OP = op

theorem flow_finds {s : State} {h : Agent} {op f : Nat} {tx : Bool} (hop : op < 4) (hf : f < 256) :
    FlowFinds s op tx f (s.dev.opened h Reg.FLW_FCMD_GO (flowArgs op tx f)) := by
  obtain ⟨hb, hfab, -, hw⟩ := s.dev.opened_loads h Reg.FLW_FCMD_GO (flowArgs op tx f)
  have h1 : Fld.sep Reg.FLW_FCMD_DIR Reg.FLW_FCMD_FLOW = true := by decide
  have h2 : Fld.sep Reg.FLW_FCMD_OP Reg.FLW_FCMD_FLOW = true := by decide
  have h3 : Fld.sep Reg.FLW_FCMD_OP Reg.FLW_FCMD_DIR = true := by decide
  refine ⟨hb, hfab, fun a ha => hw a fun x hx => by rw [flowArgs_addr hx]; exact ha.symm, ?_, ?_, Dev.load_rd _ _ _ rfl hop⟩
  · exact (Dev.load_rd_sep _ _ _ _ h2).trans ((Dev.load_rd_sep _ _ _ _ h1).trans (Dev.load_rd _ _ _ rfl hf))
  · have hd : (s.dev.opened h Reg.FLW_FCMD_GO (flowArgs op tx f)).rd Reg.FLW_FCMD_DIR = bit tx :=
      (Dev.load_rd_sep _ _ _ _ h3).trans (Dev.load_rd _ _ _ rfl (bit_lt tx))
    rw [Dev.on, hd]
    cases tx <;> rfl

theorem flowRow_eq {s : State} {h : Agent} (hr : Ready s h Reg.FLW_FCMD_GO true) (op : Nat) (tx : Bool) (flow : BitVec 8) :
    flowRow h op tx flow s = .next { s with dev := (s.dev.opened h Reg.FLW_FCMD_GO (flowArgs op tx flow.toNat)).flowGo.settle } := by
  rw [← Dev.hostCmd_opened s.dev h Reg.FLW_FCMD_GO (flowArgs op tx flow.toNat) Dev.flowGo hr.1 hr.2
    fun x hx => by rw [flowArgs_addr hx]; decide]
  rfl

/-- The result of a flow command in FLW_FRES and FLW_STATUS. -/
def Dev.flowResult (d : Dev) (f : Nat) (tx : Bool) (code : Nat) : Dev :=
  (((((d.wr Reg.FLW_FRES_REASON code).wr Reg.FLW_FRES_FLOW f).wr Reg.FLW_FRES_DIR (bit tx)).wr Reg.FLW_FRES_REFUSED (bit (code != 0))).wr
    Reg.FLW_FRES_VALID 1).wr Reg.FLW_STATUS_FDONE 1

theorem Dev.flowGo_eq {s : State} {op f : Nat} {tx : Bool} {D : Dev} (hD : FlowFinds s op tx f D) {code : Nat} {E : Dev}
    (hr : D.flowRun op f tx = (code, E)) : D.flowGo = E.flowResult f tx code := by
  rw [Dev.flowGo, hD.flow, hD.dir, hD.op, hr]
  rfl

theorem Dev.flowResult_rd (d : Dev) {f code : Nat} (tx : Bool) (hf : f < 256) (hc : code < 256) :
    (d.flowResult f tx code).rd Reg.FLW_FRES_REASON = code ∧ (d.flowResult f tx code).rd Reg.FLW_FRES_FLOW = f ∧
      (d.flowResult f tx code).rd Reg.FLW_FRES_DIR = (if tx then 1 else 0) ∧
      (d.flowResult f tx code).rd Reg.FLW_FRES_REFUSED = (if code = 0 then 0 else 1) ∧
      (d.flowResult f tx code).rd Reg.FLW_FRES_VALID = 1 ∧ (d.flowResult f tx code).rd Reg.FLW_STATUS_FDONE = 1 := by
  have hb : bit (code != 0) = (if code = 0 then 0 else 1) := by
    by_cases h : code = 0 <;> simp [bit, h]
  unfold Dev.flowResult
  refine ⟨?_, ?_, ?_, ?_, ?_, ?_⟩ <;> simp (disch := decide) only [Dev.rd_wr_sep, Dev.rd_wr]
  · exact Nat.mod_eq_of_lt hc
  · exact Nat.mod_eq_of_lt hf
  · cases tx <;> rfl
  · rw [hb]
    split <;> rfl
  · rfl
  · rfl

theorem Dev.flowResult_word (d : Dev) (f : Nat) (tx : Bool) (code : Nat) {a : Nat} (h1 : a ≠ 0xC014) (h2 : a ≠ 0xC008) :
    (d.flowResult f tx code).word a = d.word a := by
  unfold Dev.flowResult
  rw [Dev.word_wr_ne _ _ _ _ h2.symm, Dev.word_wr_ne _ _ _ _ h1.symm, Dev.word_wr_ne _ _ _ _ h1.symm, Dev.word_wr_ne _ _ _ _ h1.symm,
    Dev.word_wr_ne _ _ _ _ h1.symm, Dev.word_wr_ne _ _ _ _ h1.symm]

theorem Dev.flowResult_body (d : Dev) (f : Nat) (tx : Bool) (code : Nat) : (d.flowResult f tx code).body = d.body := rfl
theorem Dev.flowResult_fab (d : Dev) (f : Nat) (tx : Bool) (code : Nat) : (d.flowResult f tx code).fab = d.fab := rfl

/-- A flow command that gives `code` and leaves the flows `F` ends with its result. -/
theorem flow_ends {s : State} {h : Agent} (hr : Ready s h Reg.FLW_FCMD_GO true) {op : Nat} (hop : op < 4) {tx : Bool} {flow : BitVec 8}
    {c : Instr} (hc : exec c s = flowRow h op tx flow s) {code : Nat} (hcode : code < 256) {F : Flw}
    (hE : ∀ D, FlowFinds s op tx flow.toNat D → D.flowRun op flow.toNat tx = (code, { D with flw := F })) :
    ∃ t, Runs c s t ∧ FlowCommandEnds t flow.toNat tx code ∧ t.dev.flw = F ∧ Keeps flowWords s t { Claims.Staged s t with flw := t.dev.flw } := by
  have hD : FlowFinds s op tx flow.toNat (s.dev.opened h Reg.FLW_FCMD_GO (flowArgs op tx flow.toNat)) := flow_finds hop flow.isLt
  have hrow := flowRow_eq hr op tx flow
  generalize s.dev.opened h Reg.FLW_FCMD_GO (flowArgs op tx flow.toNat) = D at hD hrow
  rw [Dev.flowGo_eq hD (hE D hD)] at hrow
  have hbody : ({ D with flw := F } : Dev).body = { s.dev.body with flw := F } := by
    rw [← hD.body]
    rfl
  have hfab : ({ D with flw := F } : Dev).fab = s.dev.fab.scanOf D.fab := hD.fab
  have hflw : ({ D with flw := F } : Dev).flw = F := rfl
  have hword : ∀ a, a ≠ 0xC010 → ({ D with flw := F } : Dev).word a = s.dev.word a := hD.word
  generalize ({ D with flw := F } : Dev) = E at hrow hbody hfab hflw hword
  obtain ⟨h1, h2, h3, h4, h5, h6⟩ := E.flowResult_rd tx flow.isLt hcode
  have hset : ∀ g, (E.flowResult flow.toNat tx code).settle.rd g = (E.flowResult flow.toNat tx code).rd g := fun g => Dev.settle_rd _ g
  refine ⟨_, ⟨hc.trans hrow, rfl, rfl⟩, ⟨(hset _).trans h1, (hset _).trans h2, (hset _).trans h3, (hset _).trans h4, (hset _).trans h5,
    (hset _).trans h6⟩, hflw, fun a ha => ?_, Dev.eq_around_same ?_ ?_⟩
  · simp only [flowWords, List.mem_cons, List.not_mem_nil, or_false, not_or] at ha
    rw [Dev.settle_word, Dev.flowResult_word _ _ _ _ ha.2.1 ha.2.2, hword a ha.1]
  · rw [Dev.settle_body, Dev.flowResult_body, hbody, ← hflw]
    rfl
  · rw [Dev.settle_fab, Dev.flowResult_fab, hfab]
    show _ = s.dev.fab.scanOf E.fab
    rw [hfab]
    rfl

/-! ### The tests -/

theorem mem_if_code {b : Bool} {c x : Nat} (h : c ∈ (if b then [x] else [])) : c = x := by
  cases b
  · cases h
  · exact List.mem_singleton.mp h

/-- The reasons of the flow consistency check. -/
theorem Dev.flowFails_lt {d : Dev} {tx : Bool} {f : Nat} {ds : List Nat} {recs : List (List Nat)} {c : Nat}
    (h : c ∈ d.flowFails tx f ds recs) : c < 256 := by
  unfold Dev.flowFails at h
  cases tx
  · simp only [Bool.false_eq_true, if_false, List.mem_append] at h
    rcases h with (((((((((h | h) | h) | h) | h) | h) | h) | h) | h) | h) <;> simp [mem_if_code h]
  · simp only [if_true, List.mem_append] at h
    rcases h with ((((((((h | h) | h) | h) | h) | h) | h) | h) | h) <;> simp [mem_if_code h]

/-- The check reads the flows and registers other than the command word. -/
theorem Dev.flowFails_congr {d d' : Dev} (hw : ∀ a, a ≠ 0xC010 → d'.word a = d.word a) (hf : d'.flw = d.flw) (tx : Bool) (f : Nat)
    (ds : List Nat) (recs : List (List Nat)) : d'.flowFails tx f ds recs = d.flowFails tx f ds recs := by
  have hfam : d'.fam96 = d.fam96 := by rw [Dev.fam96, Dev.on, Dev.rd_of_word (hw _ (by decide)), Dev.fam96, Dev.on]
  have hrx : d'.liveRx = d.liveRx := by rw [Dev.liveRx, hf, Dev.liveRx]
  have htx : d'.liveTx = d.liveTx := by rw [Dev.liveTx, hf, Dev.liveTx]
  have hload : ∀ p, d'.portLoad p (some f) = d.portLoad p (some f) := fun p => by rw [Dev.portLoad, htx, Dev.portLoad]
  have hpay : d'.rd Reg.FLW_CFG_MAX_PAYLOAD = d.rd Reg.FLW_CFG_MAX_PAYLOAD := Dev.rd_of_word (hw _ (by decide))
  have hlen : ∀ p, d'.rd (Reg.MAC_CFG_MAXLEN p) = d.rd (Reg.MAC_CFG_MAXLEN p) := fun p =>
    Dev.rd_of_word (hw _ (by show 0x10000 + 0x1000 * p ≠ 0xC010; omega))
  have hspeed : ∀ p, d'.speed p = d.speed p := fun p => by
    rw [Dev.speed, Dev.rd_of_word (hw _ (by show 0x10004 + 0x1000 * p ≠ 0xC010; omega)), Dev.speed]
  unfold Dev.flowFails
  simp only [hfam, hrx, htx, hload, hpay, hlen, hspeed]

theorem Dev.flowWord_congr {d d' : Dev} (hf : d'.flw = d.flw) (i : Nat) : d'.flowWord i = d.flowWord i := by
  rw [Dev.flowWord, hf, Dev.flowWord]

/-! ### The flows after a command -/

/-- The flows with the reason of flow `f` in direction `tx` replaced. -/
def Flw.reason (F : Flw) (tx : Bool) (f c : Nat) : Flw :=
  if tx then { F with tx := Sparse.put {} F.tx f { (Sparse.get {} F.tx f) with reason := c } }
  else { F with rx := Sparse.put {} F.rx f { (Sparse.get {} F.rx f) with reason := c } }

theorem Dev.flowReason_eq (d : Dev) (tx : Bool) (f c : Nat) : d.flowReason tx f c = { d with flw := d.flw.reason tx f c } := by
  cases tx <;> rfl

theorem flowsWait_of {s t : State} {tx : Bool} {f c : Nat} {pend : List FlowReq}
    (h : t.dev.flw = Flw.reason { s.dev.flw with pend := pend } tx f c) : FlowsWait s t f tx c pend := by
  have hget : ∀ {α : Type} [DecidableEq α] (x : α) (l : Sparse α) (g : α → α) (k : Nat),
      Sparse.get x (Sparse.put x l f (g (Sparse.get x l f))) k = if k = f then g (Sparse.get x l k) else Sparse.get x l k := by
    intro α _ x l g k
    rw [Sparse.get_put]
    by_cases hk : k = f
    · simp [hk]
    · simp [hk, Ne.symm hk]
  cases tx
  · refine ⟨by rw [h]; rfl, by rw [h]; rfl, by rw [h]; rfl, by rw [h]; rfl, fun g => ?_, fun g => ?_⟩
    · rw [Dev.rxf, h]
      refine (hget {} s.dev.flw.rx (fun y => { y with reason := c }) g).trans ?_
      simp [Dev.rxf]
    · rw [Dev.txf, h]
      simp [Flw.reason, Dev.txf]
  · refine ⟨by rw [h]; rfl, by rw [h]; rfl, by rw [h]; rfl, by rw [h]; rfl, fun g => ?_, fun g => ?_⟩
    · rw [Dev.rxf, h]
      simp [Flw.reason, Dev.rxf]
    · rw [Dev.txf, h]
      refine (hget {} s.dev.flw.tx (fun y => { y with reason := c }) g).trans ?_
      simp [Dev.txf]

/-- What APPLY gives on a device that it finds, by the block's enable, the descriptor's ENABLE and the check. -/
def applyOutcome (d : Dev) (tx : Bool) (f : Nat) : Nat × List FlowReq :=
  let ds := d.stagedDesc tx f
  let recs := if tx then [d.stagedHdr f 0, d.stagedHdr f 1] else [d.stagedRec f 0, d.stagedRec f 1]
  if !d.on Reg.FLW_CFG_ENABLE then (0x03, d.flw.pend)
  else if !dEnable ds then (0, d.flw.pend ++ [{ tx := tx, flow := f }])
  else match lowest (d.flowFails tx f ds recs) with
    | some c => (c, d.flw.pend)
    | none => (0, d.flw.pend ++ [{ tx := tx, flow := f, desc := ds, recs := recs }])

theorem Dev.flowRun_apply (d : Dev) (tx : Bool) (f : Nat) : d.flowRun 0 f tx = ((applyOutcome d tx f).1,
    { d with flw := Flw.reason { d.flw with pend := (applyOutcome d tx f).2 } tx f (applyOutcome d tx f).1 }) := by
  simp only [Dev.flowRun, applyOutcome]
  split
  · rw [Dev.flowReason_eq]
  · split
    · rw [Dev.flowReason_eq]
    · split <;> rename_i hlow <;> simp only [hlow, Dev.flowReason_eq]

theorem applyOutcome_congr {s : State} {op f : Nat} {tx : Bool} {D : Dev} (hD : FlowFinds s op tx f D) :
    applyOutcome D tx f = applyOutcome s.dev tx f := by
  have hflw : D.flw = s.dev.flw := show D.body.flw = _ by rw [hD.body]; rfl
  have hmem : ∀ i, D.flowWord i = s.dev.flowWord i := Dev.flowWord_congr hflw
  have hon : D.on Reg.FLW_CFG_ENABLE = s.dev.on Reg.FLW_CFG_ENABLE := by
    rw [Dev.on, Dev.rd_of_word (hD.word _ (by decide)), Dev.on]
  unfold applyOutcome
  simp only [Dev.stagedDesc, Dev.stagedHdr, Dev.stagedRec, hmem, hon, hflw, Dev.flowFails_congr hD.word hflw]
  rfl

theorem apply_ends {s : State} {h : Agent} (hr : Ready s h Reg.FLW_FCMD_GO true) {tx : Bool} {flow : BitVec 8} {code : Nat}
    {pend : List FlowReq} (hc : code < 256) (ho : applyOutcome s.dev tx flow.toNat = (code, pend)) :
    ∃ t, Runs (.apply h tx flow) s t ∧ FlowCommandEnds t flow.toNat tx code ∧ FlowsWait s t flow.toNat tx code pend ∧
      Keeps flowWords s t { Claims.Staged s t with flw := t.dev.flw } := by
  obtain ⟨t, hrun, hend, hflw, hkeep⟩ := flow_ends hr (op := 0) (by decide) (c := .apply h tx flow) rfl hc
    (F := Flw.reason { s.dev.flw with pend := pend } tx flow.toNat code) (fun D hD => by
      have hflw : D.flw = s.dev.flw := show D.body.flw = _ by rw [hD.body]; rfl
      rw [D.flowRun_apply, applyOutcome_congr hD, ho, hflw])
  exact ⟨t, hrun, hend, flowsWait_of hflw, hkeep⟩

/-- Settles O45. -/
theorem flowCommandsWaitForTheBoundary : Obligations.FlowCommandsWaitForTheBoundary := by
  intro s h tx flow hr f ds recs ends
  refine ⟨?_, fun hoff => ?_, fun hon => ⟨fun hen => ?_, fun hen => ⟨fun c hc => ?_, fun hnone => ?_⟩⟩⟩
  · obtain ⟨t, hrun, hend, hflw, hkeep⟩ := flow_ends hr (op := 1) (by decide) (c := .stop h tx flow) rfl (code := 0) (by decide)
      (F := { s.dev.flw with pend := s.dev.flw.pend ++ [{ tx := tx, flow := f }] }) (fun D hD => by
        have hflw : D.flw = s.dev.flw := show D.body.flw = _ by rw [hD.body]; rfl
        rw [← hflw]
        rfl)
    exact ⟨t, hrun, hend, by rw [← hflw]; exact hkeep⟩
  · refine apply_ends hr (by decide) ?_
    have : s.dev.on Reg.FLW_CFG_ENABLE = false := by rw [Dev.on, hoff]; rfl
    rw [applyOutcome, this]
    rfl
  · refine apply_ends hr (by decide) ?_
    have : s.dev.on Reg.FLW_CFG_ENABLE = true := by rw [Dev.on, hon]; rfl
    rw [applyOutcome, this]
    rw [if_neg (by decide), if_pos (by simpa using hen)]
  · refine apply_ends hr (Dev.flowFails_lt (lowest_mem hc)) ?_
    have : s.dev.on Reg.FLW_CFG_ENABLE = true := by rw [Dev.on, hon]; rfl
    rw [applyOutcome, this]
    rw [if_neg (by decide), if_neg (by simpa using hen), hc]
  · refine apply_ends hr (by decide) ?_
    have : s.dev.on Reg.FLW_CFG_ENABLE = true := by rw [Dev.on, hon]; rfl
    rw [applyOutcome, this]
    rw [if_neg (by decide), if_neg (by simpa using hen), hnone]
    rfl

end Sys2Proof.Machine
end

section
/-! The paging unit: what its frames and transfers leave alone, and which lines they hold (R206, R210, R211). -/
namespace Sys2Proof.Machine
open Sys2Proof.Claims

/-! ### Only the frames and transfers of the paging units change -/

theorem Dev.hm_setHm (d : Dev) (h : Nat) (x : HMem) (i : Nat) : (d.setHm h x).hm i = if (h = 0 ↔ i = 0) then x else d.hm i := by
  unfold Dev.hm Dev.setHm
  by_cases hh : h = 0 <;> by_cases hi : i = 0 <;> simp [hh, hi]

theorem Dev.hm_same (d : Dev) {h i : Nat} (hi : h = 0 ↔ i = 0) : d.hm i = d.hm h := by
  unfold Dev.hm
  by_cases hh : h = 0
  · rw [if_pos hh, if_pos (hi.mp hh)]
  · rw [if_neg hh, if_neg fun h0 => hh (hi.mpr h0)]

/-- The two memories hold the same data. -/
structure HMem.SameData (m m' : HMem) : Prop where
  tiles : m'.tiles = m.tiles
  gw : m'.gw = m.gw

theorem HMem.SameData.refl (m : HMem) : m.SameData m := ⟨rfl, rfl⟩
theorem HMem.SameData.trans {m m' m'' : HMem} (h : m.SameData m') (h' : m'.SameData m'') : m.SameData m'' :=
  ⟨h'.tiles.trans h.tiles, h'.gw.trans h.gw⟩

/-- `d'` is `d` but for the frames and transfers of the paging units; the data of grate memory and of the channels stay. -/
structure Dev.Pages (d d' : Dev) : Prop where
  only : d' = { d with mem := { d.mem with hA := d'.mem.hA, hB := d'.mem.hB } }
  data : ∀ i, (d.hm i).SameData (d'.hm i)

theorem Dev.Pages.refl (d : Dev) : Dev.Pages d d := ⟨rfl, fun i => .refl (d.hm i)⟩

theorem Dev.Pages.trans {d d' d'' : Dev} (h : Dev.Pages d d') (h' : Dev.Pages d' d'') : Dev.Pages d d'' := by
  refine ⟨?_, fun i => (h.data i).trans (h'.data i)⟩
  rw [h'.only, h.only]

theorem Dev.Pages.setHm (d : Dev) (h : Nat) {x : HMem} (hx : (d.hm h).SameData x) : Dev.Pages d (d.setHm h x) := by
  refine ⟨?_, fun i => ?_⟩
  · unfold Dev.setHm
    split <;> rfl
  · rw [Dev.hm_setHm]
    split
    · rename_i hi
      rw [d.hm_same hi]
      exact hx
    · exact .refl _

theorem Dev.Pages.foldl {α : Type} {f : Dev → α → Dev} (hf : ∀ d a, Dev.Pages d (f d a)) (l : List α) (d : Dev) :
    Dev.Pages d (l.foldl f d) := by
  induction l generalizing d with
  | nil => exact .refl d
  | cons a l ih => exact (hf d a).trans (ih _)

theorem Dev.Pages.ite {p : Prop} [Decidable p] {d d' d'' : Dev} (h : Dev.Pages d d') (h' : Dev.Pages d d'') :
    Dev.Pages d (if p then d' else d'') := by
  split
  · exact h
  · exact h'

theorem HMem.request_sameData (m : HMem) (x : Xfer) : m.SameData (m.request x) := by
  unfold HMem.request
  dsimp only
  split
  · exact ⟨rfl, rfl⟩
  · split <;> exact ⟨rfl, rfl⟩

theorem HMem.promote_sameData (m : HMem) (l p : Nat) : m.SameData (m.promote l p) := by
  unfold HMem.promote
  split <;> exact ⟨rfl, rfl⟩

theorem HMem.displace_sameData (m : HMem) : m.SameData m.displace := by
  unfold HMem.displace
  split
  · exact .refl m
  · split
    · exact .refl m
    · dsimp only
      split <;> exact ⟨rfl, rfl⟩

theorem Dev.issueRead_pages (d : Dev) (h l p : Nat) (keep : List Nat) (demand pin : Bool) :
    Dev.Pages d (d.issueRead h l p keep demand pin) := by
  unfold Dev.issueRead
  split
  · exact .ite (.setHm d h (HMem.promote_sameData _ _ _)) (.refl d)
  · split
    · exact .refl d
    · have hd : Dev.Pages d (if demand = true then d.setHm h (d.hm h).displace else d) :=
        .ite (.setHm d h (HMem.displace_sameData _)) (.refl d)
      dsimp only
      generalize (if demand = true then d.setHm h (d.hm h).displace else d) = d' at hd ⊢
      split
      · exact hd
      · split
        · exact hd
        · exact hd.trans (.setHm d' h (HMem.SameData.trans (m' := (d'.hm h).useFrame _ _) ⟨rfl, rfl⟩ (HMem.request_sameData _ _)))

theorem Dev.askPage_pages (d : Dev) (h l p : Nat) : Dev.Pages d (d.askPage h l p) := by
  have hd := d.issueRead_pages h l p (d.currentPages h l) true false
  unfold Dev.askPage
  exact .ite hd (hd.trans (.setHm _ h ⟨rfl, rfl⟩))

theorem Dev.startWriteBack_pages (d : Dev) (h f : Nat) : Dev.Pages d (d.startWriteBack h f) := by
  unfold Dev.startWriteBack
  exact .ite (.setHm d h (HMem.SameData.trans (m' := (d.hm h).setFrame f _) ⟨rfl, rfl⟩ (HMem.request_sameData _ _))) (.refl d)

theorem Dev.ensurePair_pages (d : Dev) (h l : Nat) (x : Line) : Dev.Pages d (d.ensurePair h l x) := by
  unfold Dev.ensurePair
  refine .foldl (fun d p => ?_) _ d
  split
  · exact .ite (.refl d) (.setHm d h ⟨rfl, rfl⟩)
  · exact d.issueRead_pages ..

theorem Dev.pageRetry_pages (d : Dev) (h : Nat) : Dev.Pages d (d.pageRetry h) := by
  unfold Dev.pageRetry
  refine .ite (.refl d) ?_
  have h1 := Dev.Pages.foldl (f := fun d (e : Nat × Frame) => if e.2.st == .dirty && !e.2.pinned then d.startWriteBack h e.1 else d)
    (fun d e => .ite (d.startWriteBack_pages h e.1) (.refl d)) (d.hm h).frames d
  dsimp only
  generalize (d.hm h).frames.foldl _ d = d1 at h1 ⊢
  have h2 := Dev.Pages.foldl (f := fun d (e : Nat × Line) => if (d.lineHearths e.2).contains h then d.ensurePair h e.1 e.2 else d)
    (fun d e => .ite (d.ensurePair_pages h e.1 e.2) (.refl d)) d1.mem.lines d1
  generalize d1.mem.lines.foldl _ d1 = d2 at h2 ⊢
  have h3 : Dev.Pages d2 (d2.setHm h { (d2.hm h) with waiting := [] }) := .setHm d2 h ⟨rfl, rfl⟩
  generalize d2.setHm h { (d2.hm h) with waiting := [] } = d3 at h3 ⊢
  exact ((h1.trans h2).trans h3).trans
    (Dev.Pages.foldl (f := fun d (w : Nat × Nat) => d.askPage h w.1 w.2) (fun d w => d.askPage_pages h w.1 w.2) _ d3)

/-! ### The lines that frames and transfers hold -/

/-- Nothing of line `l` is held, in flight, queued, waiting or on its way around the frames. -/
structure HMem.Without (l : Nat) (m : HMem) : Prop where
  frames : ∀ e ∈ m.frames, e.2.line ≠ l
  xfers : ∀ r ∈ m.inflight ++ m.queue, r.line ≠ l
  around : ∀ a ∈ m.around, a.line ≠ l
  waiting : ∀ w ∈ m.waiting, w.1 ≠ l

theorem Sparse.mem_put {α : Type} [DecidableEq α] {d v : α} {l : Sparse α} {k : Nat} {e : Nat × α} (h : e ∈ Sparse.put d l k v) :
    e ∈ l ∨ e = (k, v) := by
  unfold Sparse.put at h
  split at h
  · exact .inl (Sparse.mem_erase l k e h)
  · exact (Sparse.mem_insert l k v e h).symm

theorem HMem.Without.setFrame {l : Nat} {m : HMem} (hm : m.Without l) (f : Nat) {fr : Frame} (hf : fr.line ≠ l) :
    (m.setFrame f fr).Without l :=
  { hm with frames := fun e he => by
              obtain h | rfl := Sparse.mem_put he
              · exact hm.frames e h
              · exact hf }

theorem HMem.Without.useFrame {l : Nat} {m : HMem} (hm : m.Without l) (f : Nat) {fr : Frame} (hf : fr.line ≠ l) :
    (m.useFrame f fr).Without l :=
  { hm.setFrame f (fr := { fr with used := m.uses + 1 }) hf with }

theorem mem_putDemand {q : List Xfer} {x r : Xfer} (h : r ∈ putDemand q x) : r = x ∨ r ∈ q := by
  unfold putDemand at h
  obtain h | h := List.mem_append.mp h
  · exact .inr ((List.takeWhile_prefix _).subset h)
  · exact (List.mem_cons.mp h).imp id fun h => (List.dropWhile_suffix _).subset h

theorem HMem.Without.request {l : Nat} {m : HMem} (hm : m.Without l) {x : Xfer} (hx : x.line ≠ l) : (m.request x).Without l := by
  have hnew : ∀ r : Xfer, r = { x with seq := m.nextSeq } ∨ r ∈ m.inflight ++ m.queue → r.line ≠ l := by
    rintro r (rfl | h)
    · exact hx
    · exact hm.xfers r h
  unfold HMem.request
  dsimp only
  split
  · refine { hm with xfers := fun r hr => hnew r ?_ }
    simp only [List.mem_append, List.mem_cons, List.not_mem_nil, or_false] at hr ⊢
    tauto
  · split
    · refine { hm with xfers := fun r hr => hnew r ?_ }
      obtain hr | hr := List.mem_append.mp hr
      · exact .inr (List.mem_append_left _ hr)
      · exact (mem_putDemand hr).imp id (List.mem_append_right _)
    · refine { hm with xfers := fun r hr => hnew r ?_ }
      simp only [List.mem_append, List.mem_cons, List.not_mem_nil, or_false] at hr ⊢
      tauto

theorem HMem.Without.promote {l : Nat} {m : HMem} (hm : m.Without l) (k p : Nat) : (m.promote k p).Without l := by
  unfold HMem.promote
  split
  case h_1 x hx =>
    have hxq : x ∈ m.queue := List.mem_of_find?_eq_some hx
    refine { hm with xfers := fun r hr => ?_ }
    obtain hr | hr := List.mem_append.mp hr
    · exact hm.xfers r (List.mem_append_left _ hr)
    · obtain rfl | hr := mem_putDemand hr
      · exact hm.xfers x (List.mem_append_right _ hxq)
      · exact hm.xfers r (List.mem_append_right _ (List.mem_filter.mp hr).1)
  case h_2 => exact hm

theorem HMem.frameOf_mem {m : HMem} {l p f : Nat} {fr : Frame} (h : m.frameOf l p = some (f, fr)) : (f, fr) ∈ m.frames :=
  List.mem_of_find?_eq_some h

theorem HMem.Without.displace {l : Nat} {m : HMem} (hm : m.Without l) : m.displace.Without l := by
  unfold HMem.displace
  split
  · exact hm
  · split
    · exact hm
    · rename_i x _
      have hq : ({ m with queue := m.queue.filter (·.seq != x.seq) } : HMem).Without l := by
        refine { hm with xfers := fun r hr => ?_ }
        obtain hr | hr := List.mem_append.mp hr
        · exact hm.xfers r (List.mem_append_left _ hr)
        · exact hm.xfers r (List.mem_append_right _ (List.mem_filter.mp hr).1)
      dsimp only
      split
      · rename_i f fr hf
        split
        · exact hq.setFrame f (hq.frames _ (HMem.frameOf_mem hf))
        · refine { hq with frames := fun e he => ?_ }
          simp only [HMem.setFrame, Sparse.put, if_true] at he
          exact hq.frames e (Sparse.mem_erase _ _ _ he)
      · exact hq

theorem Dev.setHm_without {l : Nat} {d : Dev} {h : Nat} {x : HMem} (hd : ∀ i, (d.hm i).Without l) (hx : x.Without l) (i : Nat) :
    ((d.setHm h x).hm i).Without l := by
  rw [Dev.hm_setHm]
  split
  · exact hx
  · exact hd i

theorem Dev.issueRead_without {l : Nat} {d : Dev} (hd : ∀ i, (d.hm i).Without l) (h : Nat) {k : Nat} (hk : k ≠ l) (p : Nat)
    (keep : List Nat) (demand pin : Bool) (i : Nat) : ((d.issueRead h k p keep demand pin).hm i).Without l := by
  unfold Dev.issueRead
  split
  · split
    · exact Dev.setHm_without hd ((hd h).promote _ _) i
    · exact hd i
  · split
    · exact hd i
    · have hd' : ∀ i, ((if demand = true then d.setHm h (d.hm h).displace else d).hm i).Without l := by
        split
        · exact Dev.setHm_without hd (hd h).displace
        · exact hd
      dsimp only
      generalize (if demand = true then d.setHm h (d.hm h).displace else d) = d' at hd' ⊢
      split
      · exact hd' i
      · split
        · exact hd' i
        · exact Dev.setHm_without hd' (((hd' h).useFrame _ hk).request hk) i

theorem Dev.askPage_without {l : Nat} {d : Dev} (hd : ∀ i, (d.hm i).Without l) (h : Nat) {k : Nat} (hk : k ≠ l) (p i : Nat) :
    ((d.askPage h k p).hm i).Without l := by
  have hd' := Dev.issueRead_without hd h hk p (d.currentPages h k) true false
  unfold Dev.askPage
  dsimp only
  generalize d.issueRead h k p (d.currentPages h k) true false = d' at hd' ⊢
  split
  · exact hd' i
  · refine Dev.setHm_without hd' (x := { (d'.hm h) with waiting := (d'.hm h).waiting ++ [(k, p)] }) { hd' h with waiting := fun w hw => ?_ } i
    obtain hw | hw := List.mem_append.mp hw
    · exact (hd' h).waiting w hw
    · rw [List.mem_singleton.mp hw]
      exact hk

theorem Sparse.get_mem {α : Type} (x : α) (l : Sparse α) (k : Nat) : Sparse.get x l k = x ∨ (k, Sparse.get x l k) ∈ l := by
  induction l with
  | nil => exact .inl rfl
  | cons e t ih =>
    obtain ⟨a, v⟩ := e
    simp only [Sparse.get]
    split
    · rename_i h
      rw [beq_iff_eq.mp h]
      exact .inr List.mem_cons_self
    · exact ih.imp id (List.mem_cons_of_mem _)

theorem Dev.startWriteBack_without {l : Nat} {d : Dev} (hd : ∀ i, (d.hm i).Without l) (h f i : Nat) :
    ((d.startWriteBack h f).hm i).Without l := by
  unfold Dev.startWriteBack
  dsimp only
  split
  · rename_i hst
    have hline : (Sparse.get {} (d.hm h).frames f).line ≠ l := by
      obtain hdef | hmem := Sparse.get_mem {} (d.hm h).frames f
      · rw [hdef] at hst
        exact absurd hst.1 (by decide)
      · exact (hd h).frames _ hmem
    exact Dev.setHm_without hd (((hd h).setFrame _ (by exact hline)).request (by exact hline)) i
  · exact hd i

theorem Dev.foldl_without {α : Type} {l : Nat} {f : Dev → α → Dev} (as : List α)
    (hf : ∀ a ∈ as, ∀ d : Dev, (∀ i, (d.hm i).Without l) → ∀ i, ((f d a).hm i).Without l) (d : Dev) (hd : ∀ i, (d.hm i).Without l) :
    ∀ i, ((as.foldl f d).hm i).Without l := by
  induction as generalizing d with
  | nil => exact hd
  | cons a as ih =>
    exact ih (fun b hb => hf b (List.mem_cons_of_mem _ hb)) _ (hf a List.mem_cons_self d hd)

theorem Dev.ensurePair_without {l : Nat} {d : Dev} (hd : ∀ i, (d.hm i).Without l) (h : Nat) {k : Nat} (hk : k ≠ l) (x : Line) (i : Nat) :
    ((d.ensurePair h k x).hm i).Without l := by
  unfold Dev.ensurePair
  refine Dev.foldl_without _ (fun p _ d hd i => ?_) d hd i
  split
  · rename_i f fr hf
    split
    · exact hd i
    · exact Dev.setHm_without hd ((hd h).setFrame f (by exact (hd h).frames _ (HMem.frameOf_mem hf))) i
  · exact Dev.issueRead_without hd h hk p _ _ _ i

/-- The paging unit brings no page of a line that the line table does not hold. -/
theorem Dev.pageRetry_without {l : Nat} {d : Dev} (hd : ∀ i, (d.hm i).Without l) (hl : ∀ e ∈ d.mem.lines, e.1 ≠ l) (h i : Nat) :
    ((d.pageRetry h).hm i).Without l := by
  unfold Dev.pageRetry
  split
  · exact hd i
  · have hp := Dev.Pages.foldl (f := fun d (e : Nat × Frame) => if e.2.st == .dirty && !e.2.pinned then d.startWriteBack h e.1 else d)
      (fun d e => .ite (d.startWriteBack_pages h e.1) (.refl d)) (d.hm h).frames d
    have h1 := Dev.foldl_without (l := l) (f := fun d (e : Nat × Frame) =>
        if e.2.st == .dirty && !e.2.pinned then d.startWriteBack h e.1 else d) (d.hm h).frames (fun e _ d hd i => by
      split
      · exact Dev.startWriteBack_without hd h e.1 i
      · exact hd i) d hd
    dsimp only
    generalize (d.hm h).frames.foldl _ d = d1 at h1 hp ⊢
    have hl1 : ∀ e ∈ d1.mem.lines, e.1 ≠ l := by
      rw [hp.only]
      exact hl
    have h2 := Dev.foldl_without (l := l) (f := fun d (e : Nat × Line) =>
        if (d.lineHearths e.2).contains h then d.ensurePair h e.1 e.2 else d) d1.mem.lines (fun e he d hd i => by
      split
      · exact Dev.ensurePair_without hd h (hl1 e he) e.2 i
      · exact hd i) d1 h1
    generalize d1.mem.lines.foldl _ d1 = d2 at h2 ⊢
    refine Dev.foldl_without _ (fun w hw d hd i => ?_) _ (Dev.setHm_without h2 (x := { (d2.hm h) with waiting := [] }) { h2 h with
      waiting := fun w hw => absurd hw List.not_mem_nil }) i
    exact Dev.askPage_without hd h ((h2 h).waiting w (List.mem_filter.mp hw).1) w.2 i

theorem HMem.dropLine_without (m : HMem) (l : Nat) : (m.dropLine l).Without l := by
  unfold HMem.dropLine HMem.pump
  refine ⟨fun e he => ?_, fun r hr => ?_, fun a ha => ?_, fun w hw => ?_⟩
  · exact bne_iff_ne.mp (List.mem_filter.mp he).2
  · have hq : ∀ {q : List Xfer}, r ∈ q.filter (·.line != l) → r.line ≠ l := fun h => bne_iff_ne.mp (List.mem_filter.mp h).2
    simp only [List.append_assoc, List.take_append_drop, List.mem_append] at hr
    exact hr.elim hq hq
  · exact bne_iff_ne.mp (List.mem_filter.mp ha).2
  · exact bne_iff_ne.mp (List.mem_filter.mp hw).2

theorem HMem.dropLine_sameData (m : HMem) (l : Nat) : m.SameData (m.dropLine l) := ⟨rfl, rfl⟩

end Sys2Proof.Machine
end

section
/-! Delay-line commands (R203, R204). -/
namespace Sys2Proof.Machine
open Sys2Proof.Claims

/-! ### What a delay-line command finds and leaves -/

/-- The argument fields of the delay-line command `op` on line `l`. -/
def lineArgs (op l : Nat) : List (Fld × Nat) := [(Reg.PGU_DLCMD_LINE, l), (Reg.PGU_DLCMD_OP, op)]

theorem lineArgs_addr {op l : Nat} {x : Fld × Nat} (hx : x ∈ lineArgs op l) : x.1.addr = 0x9050 := by
  simp only [lineArgs, List.mem_cons, List.not_mem_nil, or_false] at hx
  obtain rfl | rfl := hx <;> rfl

/-- What the device that a delay-line command finds has of the state before. -/
structure LineFinds (s : State) (op l : Nat) (D : Dev) : Prop where
  body : D.body = s.dev.body
  fab : D.fab = s.dev.fab.scanOf D.fab
  word : ∀ a, a ≠ 0x9050 → D.word a = s.dev.word a
  line : D.rd Reg.PGU_DLCMD_LINE = l
  op : D.rd Reg.PGU_DLCMD_OP = op

theorem line_finds {s : State} {h : Agent} {op l : Nat} (hop : op < 4) (hl : l < 4096) :
    LineFinds s op l (s.dev.opened h Reg.PGU_DLCMD_GO (lineArgs op l)) := by
  obtain ⟨hb, hfab, -, hw⟩ := s.dev.opened_loads h Reg.PGU_DLCMD_GO (lineArgs op l)
  have hsep : Fld.sep Reg.PGU_DLCMD_OP Reg.PGU_DLCMD_LINE = true := by decide
  refine ⟨hb, hfab, fun a ha => hw a fun x hx => by rw [lineArgs_addr hx]; exact ha.symm, ?_, Dev.load_rd _ _ _ rfl hop⟩
  exact (Dev.load_rd_sep _ _ _ _ hsep).trans (Dev.load_rd _ _ _ rfl hl)

theorem dlRow_eq {s : State} {h : Agent} (hr : Ready s h Reg.PGU_DLCMD_GO true) (op : Nat) (line : BitVec 12) :
    dlRow h op line s = .next { s with dev := (s.dev.opened h Reg.PGU_DLCMD_GO (lineArgs op line.toNat)).dlGo.settle } := by
  rw [← Dev.hostCmd_opened s.dev h Reg.PGU_DLCMD_GO (lineArgs op line.toNat) Dev.dlGo hr.1 hr.2
    fun x hx => by rw [lineArgs_addr hx]; decide]
  rfl

/-- The result of a delay-line command in PGU_DLRES and PGU_STATUS. -/
def Dev.lineResult (d : Dev) (l code : Nat) : Dev :=
  ((((d.wr Reg.PGU_DLRES_REASON code).wr Reg.PGU_DLRES_LINE l).wr Reg.PGU_DLRES_REFUSED (bit (code != 0))).wr
    Reg.PGU_DLRES_VALID 1).flag Reg.PGU_STATUS_DLDONE

theorem Dev.dlGo_eq {s : State} {op l : Nat} {D : Dev} (hD : LineFinds s op l D) {code : Nat} {E : Dev} (hr : D.dlRun op l = (code, E)) :
    D.dlGo = E.lineResult l code := by
  rw [Dev.dlGo, hD.line, hD.op, hr]
  rfl

theorem Dev.lineResult_rd (d : Dev) {l code : Nat} (hl : l < 4096) (hc : code < 256) :
    (d.lineResult l code).rd Reg.PGU_DLRES_REASON = code ∧ (d.lineResult l code).rd Reg.PGU_DLRES_LINE = l ∧
      (d.lineResult l code).rd Reg.PGU_DLRES_REFUSED = (if code = 0 then 0 else 1) ∧
      (d.lineResult l code).rd Reg.PGU_DLRES_VALID = 1 ∧ (d.lineResult l code).rd Reg.PGU_STATUS_DLDONE = 1 := by
  have hb : bit (code != 0) = (if code = 0 then 0 else 1) := by
    by_cases h : code = 0 <;> simp [bit, h]
  unfold Dev.lineResult
  refine ⟨?_, ?_, ?_, ?_, ?_⟩ <;> simp (disch := decide) only [Dev.rd_flag_sep, Dev.rd_flag, Dev.rd_wr_sep, Dev.rd_wr]
  · exact Nat.mod_eq_of_lt hc
  · exact Nat.mod_eq_of_lt hl
  · rw [hb]
    split <;> rfl
  · rfl

theorem Dev.lineResult_word (d : Dev) (l code : Nat) {a : Nat} (h1 : a ≠ 0x9054) (h2 : a ≠ 0x9040) :
    (d.lineResult l code).word a = d.word a := by
  unfold Dev.lineResult
  rw [Dev.word_flag_ne _ _ _ h2.symm, Dev.word_wr_ne _ _ _ _ h1.symm, Dev.word_wr_ne _ _ _ _ h1.symm, Dev.word_wr_ne _ _ _ _ h1.symm,
    Dev.word_wr_ne _ _ _ _ h1.symm]

theorem Dev.lineResult_body (d : Dev) (l code : Nat) : (d.lineResult l code).body = d.body := rfl
theorem Dev.lineResult_fab (d : Dev) (l code : Nat) : (d.lineResult l code).fab = d.fab := rfl
theorem Dev.lineResult_mem (d : Dev) (l code : Nat) : (d.lineResult l code).mem = d.mem := rfl

/-- A delay-line command that gives `code` and leaves the memory and the registers of `E` ends with its result. -/
theorem line_ends {s : State} {h : Agent} (hr : Ready s h Reg.PGU_DLCMD_GO true) {op : Nat} (hop : op < 4) {line : BitVec 12}
    {c : Instr} (hc : exec c s = dlRow h op line s) {code : Nat} (hcode : code < 256) (more : List Nat) (P : Dev → Prop)
    (hE : ∀ D, LineFinds s op line.toNat D → ∃ E, D.dlRun op line.toNat = (code, E) ∧ E.body = { s.dev.body with mem := E.mem } ∧
      E.fab = s.dev.fab.scanOf E.fab ∧ (∀ a, a ∉ 0x9050 :: more → E.word a = s.dev.word a) ∧ P E) :
    ∃ t E, Runs c s t ∧ LineCommandEnds t line.toNat code ∧ Keeps (lineWords ++ more) s t { Claims.Staged s t with mem := t.dev.mem } ∧
      P E ∧ t.dev.mem = E.mem ∧ ∀ a, a ≠ 0x9054 → a ≠ 0x9040 → t.dev.word a = E.word a := by
  have hD : LineFinds s op line.toNat (s.dev.opened h Reg.PGU_DLCMD_GO (lineArgs op line.toNat)) := line_finds hop line.isLt
  have hrow := dlRow_eq hr op line
  generalize s.dev.opened h Reg.PGU_DLCMD_GO (lineArgs op line.toNat) = D at hD hrow
  obtain ⟨E, hrun, hbody, hfab, hword, hP⟩ := hE D hD
  rw [Dev.dlGo_eq hD hrun] at hrow
  obtain ⟨h1, h2, h3, h4, h5⟩ := E.lineResult_rd line.isLt hcode
  have hset : ∀ g, (E.lineResult line.toNat code).settle.rd g = (E.lineResult line.toNat code).rd g := fun g => Dev.settle_rd _ g
  have hres : ∀ a, a ≠ 0x9054 → a ≠ 0x9040 → (E.lineResult line.toNat code).settle.word a = E.word a := fun a ha hb => by
    rw [Dev.settle_word, Dev.lineResult_word _ _ _ ha hb]
  refine ⟨_, E, ⟨hc.trans hrow, rfl, rfl⟩, ⟨(hset _).trans h1, (hset _).trans h2, (hset _).trans h3, (hset _).trans h4, (hset _).trans h5⟩,
    ⟨fun a ha => ?_, Dev.eq_around_same ?_ ?_⟩, hP, rfl, hres⟩
  · simp only [lineWords, List.mem_append, List.mem_cons, List.not_mem_nil, or_false, not_or] at ha
    rw [hres a ha.1.2.1 ha.1.2.2, hword a (by simp only [List.mem_cons, not_or]; exact ⟨ha.1.1, ha.2⟩)]
  · rw [Dev.settle_body, Dev.lineResult_body, hbody]
    rfl
  · rw [Dev.settle_fab, Dev.lineResult_fab]
    exact hfab

theorem keeps_staged {s t : State} {as : List Nat} (hk : Keeps as s t { Claims.Staged s t with mem := t.dev.mem }) (hm : t.dev.mem = s.dev.mem) :
    Keeps as s t (Claims.Staged s t) := by
  rw [hm] at hk
  exact hk

/-- A command that leaves the device as it finds it is refused. -/
theorem line_refused {s : State} {h : Agent} (hr : Ready s h Reg.PGU_DLCMD_GO true) {op : Nat} (hop : op < 4) {line : BitVec 12}
    {c : Instr} (hc : exec c s = dlRow h op line s) {code : Nat} (hcode : code < 256)
    (hE : ∀ D, LineFinds s op line.toNat D → D.dlRun op line.toNat = (code, D)) : LineRefused c s line.toNat code := by
  obtain ⟨t, E, hrun, hend, hkeep, hmem, ht, -⟩ := line_ends hr hop hc hcode [] (fun E => E.mem = s.dev.mem) fun D hD =>
    ⟨D, hE D hD, by rw [hD.body, Dev.mem_of_body hD.body]; rfl, hD.fab,
      fun a ha => hD.word a (by simpa using ha), Dev.mem_of_body hD.body⟩
  exact ⟨t, hrun, hend, keeps_staged (by simpa using hkeep) (ht.trans hmem)⟩

/-! ### The tests -/

theorem Dev.line_congr {d d' : Dev} (h : d'.mem = d.mem) (l : Nat) : d'.line l = d.line l := by rw [Dev.line, h, Dev.line]

/-- The reasons that refuse a command are those of the state before. -/
theorem dl_fails_congr {s : State} {op l : Nat} {D : Dev} (hD : LineFinds s op l D) (k : Nat) :
    D.dlReadFails k = s.dev.dlReadFails k ∧ D.freeFails k = s.dev.freeFails k ∧ D.defineFails k = s.dev.defineFails k ∧
      D.findDram = s.dev.findDram ∧ D.stagedLine = s.dev.stagedLine ∧ D.lineHearths = s.dev.lineHearths ∧ D.dramKey = s.dev.dramKey := by
  have hmem := Dev.mem_of_body hD.body
  have hsch := Dev.sch_of_body hD.body
  have hon : D.on Reg.ALC_CFG_ENABLE = s.dev.on Reg.ALC_CFG_ENABLE := by rw [Dev.on, Dev.rd_of_word (hD.word _ (by decide)), Dev.on]
  have hline : D.line k = s.dev.line k := Dev.line_congr hmem k
  have hmode : D.mode = s.dev.mode := Dev.rd_of_word (hD.word _ (by decide))
  have hstage : D.stagedLine = s.dev.stagedLine := by
    funext b
    unfold Dev.stagedLine
    simp only [Dev.on, Dev.rd_of_word (hD.word Reg.PGU_DLSTAGE0_SLEW_MAX.addr (by decide)),
      Dev.rd_of_word (hD.word Reg.PGU_DLSTAGE2_TAPSPAN.addr (by decide)), Dev.rd_of_word (hD.word Reg.PGU_DLSTAGE1_TAP0.addr (by decide)),
      Dev.rd_of_word (hD.word Reg.PGU_DLSTAGE0_NPAGES.addr (by decide)), Dev.rd_of_word (hD.word Reg.PGU_DLSTAGE0_PROT.addr (by decide)),
      Dev.rd_of_word (hD.word Reg.PGU_DLSTAGE0_HEARTH.addr (by decide))]
  have hhs : D.lineHearths = s.dev.lineHearths := by
    funext x
    rw [Dev.lineHearths, hmode, Dev.lineHearths]
  have hdram : D.findDram = s.dev.findDram := by
    funext x
    rw [Dev.findDram, hhs, hmem, Dev.rd_of_word (hD.word _ (by decide)), Dev.findDram]
  have hfree : ∀ h, D.framesFree h = s.dev.framesFree h := fun h => by
    rw [Dev.framesFree, Dev.frameCount, Dev.rd_of_word (hD.word _ (by decide)), Dev.lineFrames, hhs, hmem, Dev.framesFree, Dev.frameCount,
      Dev.lineFrames]
  refine ⟨?_, ?_, ?_, hdram, hstage, hhs, ?_⟩
  · rw [Dev.dlReadFails, hon, hline, Dev.dlReadFails]
  · rw [Dev.freeFails, hon, hline, hsch, Dev.freeFails]
  · unfold Dev.defineFails
    simp only [hstage, hon, hline, hmode, hhs, hdram, hfree]
  · funext x p
    rw [Dev.dramKey, Dev.delayBase, Dev.rd_of_word (hD.word _ (by decide)), Dev.dramKey, Dev.delayBase]

theorem mem_else_code {p : Prop} [Decidable p] {c x : Nat} (h : c ∈ (if p then [] else [x])) : c = x := by
  split at h
  · cases h
  · exact List.mem_singleton.mp h

theorem Dev.defineFails_lt {d : Dev} {l c : Nat} (h : c ∈ d.defineFails l) : c < 256 := by
  simp only [Dev.defineFails, List.mem_append] at h
  rcases h with ((((h | h) | h) | h) | h) | h
  · simp [mem_else_code h]
  · simp [mem_else_code h]
  · simp [eq_of_mem_ite h]
  · simp [eq_of_mem_ite h]
  · simp [mem_else_code h]
  · simp [mem_else_code h]

theorem foldl_min_le (l : List Nat) (c : Nat) : l.foldl min c ≤ c ∧ ∀ x ∈ l, l.foldl min c ≤ x := by
  induction l generalizing c with
  | nil => exact ⟨le_refl c, nofun⟩
  | cons y l ih =>
    obtain ⟨h1, h2⟩ := ih (min c y)
    refine ⟨h1.trans (min_le_left _ _), fun x hx => ?_⟩
    obtain rfl | hx := List.mem_cons.mp hx
    · exact h1.trans (min_le_right _ _)
    · exact h2 x hx

theorem lowest_le {l : List Nat} {c x : Nat} (h : lowest l = some c) (hx : x ∈ l) : c ≤ x := by
  cases l with
  | nil => cases h
  | cons y l =>
    obtain rfl := Option.some.inj h
    obtain rfl | hx := List.mem_cons.mp hx
    · exact (foldl_min_le l x).1
    · exact (foldl_min_le l y).2 x hx

/-- The lowest of codes that hold `c` and nothing below it. -/
theorem lowest_eq {l : List Nat} {c : Nat} (hc : c ∈ l) (hl : ∀ x ∈ l, c ≤ x) : lowest l = some c := by
  cases h : lowest l with
  | none =>
    cases l with
    | nil => cases hc
    | cons => cases h
  | some x => rw [le_antisymm (hl x (lowest_mem h)) (lowest_le h hc)]

/-! ### READ -/

theorem Dev.showLine_rd (d : Dev) {l : Nat} {x : Line} (hx : d.line l = some x) :
    (d.showLine l).body = d.body ∧ (d.showLine l).fab = d.fab ∧
      (∀ a, a ∉ [0x9064, 0x9068, 0x906C, 0x9070] → (d.showLine l).word a = d.word a) ∧
      (d.showLine l).rd Reg.PGU_DLREAD0 = (x.npages + (if x.prot then 2 ^ 8 else 0) + x.hearth * 2 ^ 9 + x.slew * 2 ^ 16) % 2 ^ Reg.PGU_DLREAD0.width ∧
      (d.showLine l).rd Reg.PGU_DLREAD1_TAP0 = x.tap0 % 2 ^ Reg.PGU_DLREAD1_TAP0.width ∧
      (d.showLine l).rd Reg.PGU_DLREAD2_TAPSPAN = x.span % 2 ^ Reg.PGU_DLREAD2_TAPSPAN.width ∧
      (d.showLine l).rd Reg.PGU_DLREAD3_BASE = (d.delayBase / 1024 + x.base) % 2 ^ Reg.PGU_DLREAD3_BASE.width ∧
      (d.showLine l).rd Reg.PGU_DLREAD3_FR = (x.fr - 4) % 2 ^ Reg.PGU_DLREAD3_FR.width := by
  have heq : d.showLine l = ((((d.wr Reg.PGU_DLREAD0 (x.npages + bit x.prot * 2 ^ 8 + x.hearth * 2 ^ 9 + x.slew * 2 ^ 16)).wr
      Reg.PGU_DLREAD1_TAP0 x.tap0).wr Reg.PGU_DLREAD2_TAPSPAN x.span).wr Reg.PGU_DLREAD3_BASE (d.delayBase / 1024 + x.base)).wr
      Reg.PGU_DLREAD3_FR (x.fr - 4) := by
    have hbase : (((d.wr Reg.PGU_DLREAD0 (x.npages + bit x.prot * 2 ^ 8 + x.hearth * 2 ^ 9 + x.slew * 2 ^ 16)).wr
      Reg.PGU_DLREAD1_TAP0 x.tap0).wr Reg.PGU_DLREAD2_TAPSPAN x.span).delayBase = d.delayBase := by
      unfold Dev.delayBase
      simp (disch := decide) only [Dev.rd_wr_sep]
    unfold Dev.showLine
    rw [hx]
    dsimp only
    rw [hbase]
  rw [heq]
  refine ⟨rfl, rfl, fun a ha => ?_, ?_, ?_, ?_, ?_, ?_⟩
  · simp only [List.mem_cons, List.not_mem_nil, or_false, not_or] at ha
    rw [Dev.word_wr_ne _ _ _ _ (Ne.symm ha.2.2.2), Dev.word_wr_ne _ _ _ _ (Ne.symm ha.2.2.2), Dev.word_wr_ne _ _ _ _ (Ne.symm ha.2.2.1),
      Dev.word_wr_ne _ _ _ _ (Ne.symm ha.2.1), Dev.word_wr_ne _ _ _ _ (Ne.symm ha.1)]
  all_goals simp (disch := decide) only [Dev.rd_wr_sep, Dev.rd_wr]
  cases x.prot <;> simp [bit]

/-! ### DEFINE -/

theorem Dev.ch_setCh (d : Dev) (c : Nat) (x : Dram) (i : Nat) : (d.setCh c x).ch i = if (c = 0 ↔ i = 0) then x else d.ch i := by
  unfold Dev.ch Dev.setCh
  by_cases hc : c = 0 <;> by_cases hi : i = 0 <;> simp [hc, hi]

theorem Dev.ch_same (d : Dev) {c i : Nat} (hi : c = 0 ↔ i = 0) : d.ch i = d.ch c := by
  unfold Dev.ch
  by_cases hh : c = 0
  · rw [if_pos hh, if_pos (hi.mp hh)]
  · rw [if_neg hh, if_neg fun h0 => hh (hi.mpr h0)]

/-- The pages of line `x` are zeroed in channel `c`, where it works. -/
def Dev.clearLine (d : Dev) (x : Line) (c : Nat) : Dev :=
  if (d.ch c).failed then d else
  d.setCh c { (d.ch c) with
    words := clearRange (d.ch c).words (d.dramKey x 0) (1024 * x.npages),
    bad := (d.ch c).bad.filter fun w => !(decide (d.dramKey x 0 / 2 ≤ w) && decide (w < d.dramKey x 0 / 2 + 512 * x.npages)) }

/-- `d'` is `d` but for the channels. -/
def Dev.OnlyChannels (d d' : Dev) : Prop := d' = { d with mem := { d.mem with ch0 := d'.mem.ch0, ch1 := d'.mem.ch1 } }

theorem Dev.OnlyChannels.trans {d d' d'' : Dev} (h : Dev.OnlyChannels d d') (h' : Dev.OnlyChannels d' d'') : Dev.OnlyChannels d d'' := by
  unfold Dev.OnlyChannels at *
  rw [h', h]

theorem Dev.clearLine_only (d : Dev) (x : Line) (c : Nat) : Dev.OnlyChannels d (d.clearLine x c) := by
  unfold Dev.clearLine Dev.OnlyChannels
  split
  · rfl
  · unfold Dev.setCh
    split <;> rfl

theorem Dev.clearLine_ch (d : Dev) (x : Line) (c i : Nat) : ((d.clearLine x c).ch i).failed = (d.ch i).failed ∧
    ∀ a, Sparse.get 0 ((d.clearLine x c).ch i).words a =
      if (c = 0 ↔ i = 0) ∧ (d.ch i).failed = false ∧ d.dramKey x 0 ≤ a ∧ a < d.dramKey x 0 + 1024 * x.npages then 0
      else Sparse.get 0 (d.ch i).words a := by
  unfold Dev.clearLine
  split
  case isTrue hf =>
    refine ⟨rfl, fun a => ?_⟩
    rw [if_neg]
    rintro ⟨hi, hw, -⟩
    rw [d.ch_same hi, hf] at hw
    cases hw
  case isFalse hf =>
    rw [Dev.ch_setCh]
    split
    case isTrue hi =>
      rw [d.ch_same hi]
      refine ⟨rfl, fun a => ?_⟩
      rw [clearRange_get]
      exact if_congr (by simp [hi, Bool.not_eq_true _ ▸ hf]) rfl rfl
    case isFalse hi =>
      refine ⟨rfl, fun a => ?_⟩
      rw [if_neg fun h => hi h.1]

theorem Dev.dramKey_onlyChannels {d d' : Dev} (h : Dev.OnlyChannels d d') (x : Line) (p : Nat) : d'.dramKey x p = d.dramKey x p := by
  have hl : d'.live = d.live := by rw [h]
  rw [Dev.dramKey, Dev.delayBase, Dev.rd_congr _ _ _ hl, Dev.dramKey, Dev.delayBase]

theorem Dev.foldl_clearLine (x : Line) (hs : List Nat) (d : Dev) : Dev.OnlyChannels d (hs.foldl (fun d c => d.clearLine x c) d) ∧
    ∀ i, ((hs.foldl (fun d c => d.clearLine x c) d).ch i).failed = (d.ch i).failed ∧
      ∀ a, Sparse.get 0 ((hs.foldl (fun d c => d.clearLine x c) d).ch i).words a =
        if (∃ c ∈ hs, (c = 0 ↔ i = 0)) ∧ (d.ch i).failed = false ∧ d.dramKey x 0 ≤ a ∧ a < d.dramKey x 0 + 1024 * x.npages then 0
        else Sparse.get 0 (d.ch i).words a := by
  induction hs generalizing d with
  | nil => exact ⟨rfl, fun i => ⟨rfl, fun a => by rw [if_neg (by simp)]; rfl⟩⟩
  | cons c hs ih =>
    obtain ⟨ho, hi⟩ := ih (d.clearLine x c)
    have hkey := Dev.dramKey_onlyChannels (d.clearLine_only x c) x 0
    refine ⟨(d.clearLine_only x c).trans ho, fun i => ?_⟩
    obtain ⟨hf, hw⟩ := d.clearLine_ch x c i
    refine ⟨((hi i).1).trans hf, fun a => ?_⟩
    rw [List.foldl_cons, (hi i).2 a, hkey, hf, hw a]
    by_cases hc : (c = 0 ↔ i = 0) <;> by_cases hr : (d.ch i).failed = false ∧ d.dramKey x 0 ≤ a ∧ a < d.dramKey x 0 + 1024 * x.npages <;>
      simp [hc, hr]

/-- `d'` is `d` but for the memories of the hearths, whose tiles stay. -/
structure Dev.Hearths (d d' : Dev) : Prop where
  only : d' = { d with mem := { d.mem with hA := d'.mem.hA, hB := d'.mem.hB } }
  tiles : ∀ i, (d'.hm i).tiles = (d.hm i).tiles

theorem Dev.Hearths.refl (d : Dev) : Dev.Hearths d d := ⟨rfl, fun _ => rfl⟩

theorem Dev.Hearths.trans {d d' d'' : Dev} (h : Dev.Hearths d d') (h' : Dev.Hearths d' d'') : Dev.Hearths d d'' :=
  ⟨by rw [h'.only, h.only], fun i => (h'.tiles i).trans (h.tiles i)⟩

theorem Dev.Hearths.setHm (d : Dev) (h : Nat) {x : HMem} (hx : x.tiles = (d.hm h).tiles) : Dev.Hearths d (d.setHm h x) := by
  refine ⟨?_, fun i => ?_⟩
  · unfold Dev.setHm
    split <;> rfl
  · rw [Dev.hm_setHm]
    split
    · rename_i hi
      rw [d.hm_same hi, hx]
    · rfl

theorem Dev.Hearths.foldl {α : Type} {f : Dev → α → Dev} (hf : ∀ d a, Dev.Hearths d (f d a)) (l : List α) (d : Dev) :
    Dev.Hearths d (l.foldl f d) := by
  induction l generalizing d with
  | nil => exact .refl d
  | cons a l ih => exact (hf d a).trans (ih _)

theorem Dev.loadFrame_hearths (d : Dev) (h src f l p : Nat) : Dev.Hearths d (d.loadFrame h src f l p) := .setHm d h rfl

theorem Dev.pinPair_hearths (d : Dev) (l h : Nat) (x : Line) : Dev.Hearths d (d.pinPair l h x) := by
  unfold Dev.pinPair
  split
  · exact .refl d
  · refine .foldl (fun d p => ?_) _ d
    dsimp only
    split
    · rename_i f _
      have h1 : Dev.Hearths d (d.setHm h { (d.hm h) with
          inflight := (d.hm h).inflight.filter fun y => !(y.line == l && y.page == p)
          queue := (d.hm h).queue.filter fun y => !(y.line == l && y.page == p)
          held := (d.hm h).held.filter fun w => !(w.line == l && w.page == p) }) := .setHm d h rfl
      exact (h1.trans (Dev.loadFrame_hearths _ h h f l p)).trans (.setHm _ h rfl)
    · exact .refl d

/-- What DEFINE records of the taps of the line `l` in the hearth `h`. -/
def Dev.setFirstTaps (d : Dev) (l : Nat) (x : Line) (h : Nat) : Dev :=
  let taps : Taps := { smin := x.tap0, smax := x.tap0, omin := x.tap0, omax := x.tap0 }
  d.setHm h { (d.hm h) with taps := Sparse.put {} (d.hm h).taps l taps }

theorem Dev.defineLine_eq (d : Dev) (l base : Nat) :
    let x := d.stagedLine base
    let d1 : Dev := { d with mem := { d.mem with lines := d.mem.lines ++ [(l, x)] } }
    Dev.Hearths ((d1.lineHearths x).foldl (fun d c => d.clearLine x c) d1) (d.defineLine l base) := by
  intro x d1
  have h1 := Dev.Hearths.foldl (f := fun d h => d.setFirstTaps l x h) (fun d h => .setHm d h rfl) (d1.lineHearths x)
    ((d1.lineHearths x).foldl (fun d c => d.clearLine x c) d1)
  exact h1.trans (.foldl (f := fun d h => d.pinPair l h x) (fun d h => d.pinPair_hearths l h x) _ _)

theorem Dev.lineHearths_two (d : Dev) {x : Line} (hx : x.hearth < 2) {c : Nat} (hc : c < 2) :
    c ∈ d.lineHearths x ↔ ∃ h ∈ d.lineHearths x, (h = 0 ↔ c = 0) := by
  refine ⟨fun h => ⟨c, h, Iff.rfl⟩, fun ⟨h, hm, hiff⟩ => ?_⟩
  have hh : h < 2 := by
    unfold Dev.lineHearths at hm
    split at hm
    · simp only [List.mem_cons, List.not_mem_nil, or_false] at hm
      omega
    · rw [List.mem_singleton.mp hm]
      exact hx
  have : h = c := by omega
  rwa [← this]

/-! ### The obligation -/

theorem dlRun_read (d : Dev) (l : Nat) : d.dlRun 0 l = match lowest (d.dlReadFails l) with
    | some c => (c, d)
    | none => (0, d.showLine l) := rfl

theorem dlRun_define (d : Dev) (l : Nat) : d.dlRun 1 l = match lowest (d.defineFails l), d.findDram (d.stagedLine 0) with
    | none, some b => (0, d.defineLine l b)
    | some c, _ => (c, d)
    | none, none => (0x49, d) := rfl

/-- FREE takes effect: the line leaves the table and every frame, and the paging unit catches up (R204). -/
def Dev.freeLine (d : Dev) (l : Nat) : Dev :=
  let d : Dev := { d with mem := { d.mem with lines := d.mem.lines.filter fun e => e.1 != l } }
  (((d.setHm 0 ((d.hm 0).dropLine l)).setHm 1 ((d.hm 1).dropLine l)).pageRetry 0).pageRetry 1

theorem dlRun_free (d : Dev) (l : Nat) : d.dlRun 2 l = match lowest (d.freeFails l) with
    | some c => (c, d)
    | none => (0, d.freeLine l) := rfl

theorem Dev.freeLine_eq (d : Dev) (l : Nat) :
    let d1 : Dev := { d with mem := { d.mem with lines := d.mem.lines.filter fun e => e.1 != l } }
    Dev.Pages d1 (d.freeLine l) ∧ ∀ i, ((d.freeLine l).hm i).Without l := by
  intro d1
  have h1 : Dev.Pages d1 (d1.setHm 0 ((d1.hm 0).dropLine l)) := .setHm d1 0 (HMem.dropLine_sameData _ _)
  have h2 : Dev.Pages (d1.setHm 0 ((d1.hm 0).dropLine l)) ((d1.setHm 0 ((d1.hm 0).dropLine l)).setHm 1 ((d1.hm 1).dropLine l)) :=
    .setHm _ 1 (HMem.dropLine_sameData _ _)
  have h12 := h1.trans h2
  have hw : ∀ i, (((d1.setHm 0 ((d1.hm 0).dropLine l)).setHm 1 ((d1.hm 1).dropLine l)).hm i).Without l := by
    intro i
    rw [Dev.hm_setHm, Dev.hm_setHm]
    by_cases hi : i = 0
    · rw [if_neg (by simp [hi]), if_pos (by simp [hi])]
      exact HMem.dropLine_without _ _
    · rw [if_pos (by simp [hi])]
      exact HMem.dropLine_without _ _
  have heq : d.freeLine l = (((d1.setHm 0 ((d1.hm 0).dropLine l)).setHm 1 ((d1.hm 1).dropLine l)).pageRetry 0).pageRetry 1 := rfl
  rw [heq]
  generalize (d1.setHm 0 ((d1.hm 0).dropLine l)).setHm 1 ((d1.hm 1).dropLine l) = d2 at h12 hw ⊢
  have hl : ∀ d : Dev, Dev.Pages d1 d → ∀ e ∈ d.mem.lines, e.1 ≠ l := fun d hd e he => by
    rw [hd.only] at he
    exact bne_iff_ne.mp (List.mem_filter.mp he).2
  have h3 := h12.trans (d2.pageRetry_pages 0)
  exact ⟨h3.trans (Dev.pageRetry_pages _ 1), fun i => Dev.pageRetry_without (Dev.pageRetry_without hw (hl d2 h12) 0) (hl _ h3) 1 i⟩

/-- Settles O42. -/
theorem delayLineCommandsActOnTheLineTable : Obligations.DelayLineCommandsActOnTheLineTable := by
  intro s h line hr l named
  have hread : ∀ {c}, lowest (s.dev.dlReadFails l) = some c → c < 256 → LineRefused (.dlRead h line) s l c := fun hc hlt =>
    line_refused hr (op := 0) (by decide) rfl hlt fun D hD => by
      rw [dlRun_read, (dl_fails_congr hD l).1, hc]
  have hfree : ∀ {c}, lowest (s.dev.freeFails l) = some c → c < 256 → LineRefused (.freeLine h line) s l c := fun hc hlt =>
    line_refused hr (op := 2) (by decide) rfl hlt fun D hD => by
      rw [dlRun_free, (dl_fails_congr hD l).2.1, hc]
  have hdefine : ∀ {c}, lowest (s.dev.defineFails l) = some c → LineRefused (.defineLine h line) s l c := fun hc =>
    line_refused hr (op := 1) (by decide) rfl (Dev.defineFails_lt (lowest_mem hc)) fun D hD => by
      rw [dlRun_define, (dl_fails_congr hD l).2.2.1, hc]
  have hon : ∀ {b : Bool}, s.dev.rd Reg.ALC_CFG_ENABLE = bit b → s.dev.on Reg.ALC_CFG_ENABLE = b := fun {b} hb => by
    rw [Dev.on, hb]
    cases b <;> rfl
  refine ⟨fun hl c hc => ?_, fun hl hoff => ?_, fun hl hena hline => ?_, fun hl hena hline hnamed => ?_, fun x hl hena hline => ?_,
    fun x hl hena hline hnamed => ?_, fun c hc => hdefine hc, fun b hok hfit => ?_⟩
  · simp only [List.mem_cons, List.not_mem_nil, or_false] at hc
    have hlt : ¬ l < 3072 := by omega
    obtain rfl | rfl | rfl := hc
    · refine hread (lowest_eq ?_ ?_) (by decide)
      · simp [Dev.dlReadFails, hlt]
      · simp [Dev.dlReadFails, hlt]
        grind
    · refine hdefine (lowest_eq ?_ ?_)
      · simp [Dev.defineFails, hlt]
      · simp [Dev.defineFails, hlt]
        grind
    · refine hfree (lowest_eq ?_ ?_) (by decide)
      · simp [Dev.freeFails, hlt]
      · simp [Dev.freeFails, hlt]
        grind
  · have hoff' : s.dev.on Reg.ALC_CFG_ENABLE = false := hon hoff
    refine ⟨hread (lowest_eq ?_ ?_) (by decide), hfree (lowest_eq ?_ ?_) (by decide)⟩
    · simp [Dev.dlReadFails, hl, hoff']
    · simp [Dev.dlReadFails, hl, hoff']
    · simp [Dev.freeFails, hl, hoff']
    · simp [Dev.freeFails, hl, hoff']
      grind
  · have hon' : s.dev.on Reg.ALC_CFG_ENABLE = true := hon hena
    refine ⟨hread (lowest_eq ?_ ?_) (by decide), hfree (lowest_eq ?_ ?_) (by decide)⟩
    · simp [Dev.dlReadFails, hl, hon', hline]
    · simp [Dev.dlReadFails, hl, hon', hline]
    · simp [Dev.freeFails, hl, hon', hline]
    · simp [Dev.freeFails, hl, hon', hline]
      grind
  · have hon' : s.dev.on Reg.ALC_CFG_ENABLE = true := hon hena
    have hn : (s.dev.sch.jobs.any fun e => e.2.admitted && e.2.namesLine l) = true := hnamed
    have hfails : s.dev.freeFails l = [0x15] := by
      rw [Dev.freeFails, if_pos hl, if_pos hon', if_pos hline, if_pos hn]
      rfl
    exact hfree (by rw [hfails]; rfl) (by decide)
  · have hon' : s.dev.on Reg.ALC_CFG_ENABLE = true := hon hena
    have hfails : s.dev.dlReadFails l = [] := by
      rw [Dev.dlReadFails, if_pos hl, if_pos hon', if_pos (by rw [hline]; rfl)]
      rfl
    obtain ⟨t, E, hrun, hend, hkeep, ⟨hmem, h0, h1, h2, h3, h4⟩, htm, htw⟩ := line_ends hr (op := 0) (by decide) (c := .dlRead h line) rfl
      (code := 0) (by decide) [0x9064, 0x9068, 0x906C, 0x9070]
      (fun E => E.mem = s.dev.mem ∧
        E.rd Reg.PGU_DLREAD0 = (x.npages + (if x.prot then 2 ^ 8 else 0) + x.hearth * 2 ^ 9 + x.slew * 2 ^ 16) % 2 ^ Reg.PGU_DLREAD0.width ∧
        E.rd Reg.PGU_DLREAD1_TAP0 = x.tap0 % 2 ^ Reg.PGU_DLREAD1_TAP0.width ∧
        E.rd Reg.PGU_DLREAD2_TAPSPAN = x.span % 2 ^ Reg.PGU_DLREAD2_TAPSPAN.width ∧
        E.rd Reg.PGU_DLREAD3_BASE = (s.dev.delayBase / 1024 + x.base) % 2 ^ Reg.PGU_DLREAD3_BASE.width ∧
        E.rd Reg.PGU_DLREAD3_FR = (x.fr - 4) % 2 ^ Reg.PGU_DLREAD3_FR.width) fun D hD => by
        have hx : D.line l = some x := (Dev.line_congr (Dev.mem_of_body hD.body) l).trans hline
        have hbase : D.delayBase = s.dev.delayBase := by
          rw [Dev.delayBase, Dev.rd_of_word (hD.word _ (by decide)), Dev.delayBase]
        obtain ⟨hb, hf, hw, hrds⟩ := D.showLine_rd hx
        rw [hbase] at hrds
        refine ⟨D.showLine l, ?_, ?_, ?_, fun a ha => ?_, Dev.mem_of_body (hb.trans hD.body), hrds⟩
        · rw [dlRun_read, (dl_fails_congr hD l).1, hfails]
          rfl
        · rw [Dev.mem_of_body (hb.trans hD.body), hb.trans hD.body]
          rfl
        · rw [hf]
          exact hD.fab
        · simp only [List.mem_cons, not_or] at ha
          rw [hw a (by simp only [List.mem_cons, not_or]; exact ha.2), hD.word a ha.1]
    have hrd : ∀ g : Fld, g.addr ≠ 0x9054 → g.addr ≠ 0x9040 → t.dev.rd g = E.rd g := fun g ha hb => Dev.rd_of_word (htw _ ha hb)
    refine ⟨t, hrun, hend, keeps_staged hkeep (htm.trans hmem), ?_, ?_, ?_, ?_, ?_⟩
    · rw [hrd _ (by decide) (by decide), h0]
    · rw [hrd _ (by decide) (by decide), h1]
    · rw [hrd _ (by decide) (by decide), h2]
    · rw [hrd _ (by decide) (by decide), h3]
    · rw [hrd _ (by decide) (by decide), h4]
  · have hon' : s.dev.on Reg.ALC_CFG_ENABLE = true := hon hena
    have hn : ¬ (s.dev.sch.jobs.any fun e => e.2.admitted && e.2.namesLine l) = true := ne_true_of_eq_false hnamed
    have hfails : s.dev.freeFails l = [] := by
      rw [Dev.freeFails, if_pos hl, if_pos hon', if_pos (by rw [hline]; rfl), if_neg hn]
      rfl
    obtain ⟨t, E, hrun, hend, hkeep, ⟨D, hDm, hP, hW⟩, htm, -⟩ := line_ends hr (op := 2) (by decide) (c := .freeLine h line) rfl
      (code := 0) (by decide) [] (fun E => ∃ D : Dev, D.mem = s.dev.mem ∧
        Dev.Pages { D with mem := { D.mem with lines := D.mem.lines.filter fun e => e.1 != l } } E ∧ ∀ i, (E.hm i).Without l) fun D hD => by
        obtain ⟨hP, hW⟩ := D.freeLine_eq l
        refine ⟨D.freeLine l, ?_, ?_, ?_, fun a ha => ?_, D, Dev.mem_of_body hD.body, hP, hW⟩
        · rw [dlRun_free, (dl_fails_congr hD l).2.1, hfails]
          rfl
        · have : (D.freeLine l).body = { D.body with mem := (D.freeLine l).mem } := by
            rw [hP.only]
            rfl
          rw [this, hD.body]
        · have : (D.freeLine l).fab = D.fab := by rw [hP.only]
          rw [this]
          exact hD.fab
        · have : (D.freeLine l).live = D.live := by rw [hP.only]
          rw [Dev.word, this, ← Dev.word]
          exact hD.word a (by simpa using ha)
    have hmem : ∀ i, (t.dev.hm i) = E.hm i := Dev.hm_congr htm
    have hold : ∀ i, ({ D with mem := { D.mem with lines := D.mem.lines.filter fun e => e.1 != l } } : Dev).hm i = s.dev.hm i := fun i => by
      unfold Dev.hm
      rw [← hDm]
    refine ⟨t, hrun, hend, by simpa using hkeep, ?_, ?_, ?_, ?_, fun i _ => ⟨?_, ?_, ?_, ?_, ?_, ?_⟩⟩
    · rw [htm, hP.only, ← hDm]
    · rw [htm, hP.only, ← hDm]
    · rw [htm, hP.only, ← hDm]
    · rw [htm, hP.only, ← hDm]
    · rw [hmem, (hP.data i).tiles, hold]
    · rw [hmem, (hP.data i).gw, hold]
    · rw [hmem]
      exact (hW i).frames
    · rw [hmem]
      exact fun r hr => (hW i).xfers r (List.mem_append_left _ hr)
    · rw [hmem]
      exact fun r hr => (hW i).xfers r (List.mem_append_right _ hr)
    · rw [hmem]
      exact (hW i).around
  · intro x
    have hx2 : x.hearth < 2 := s.dev.rd_lt Reg.PGU_DLSTAGE0_HEARTH
    obtain ⟨t, E, hrun, hend, hkeep, ⟨D, hDm, hkey, hH⟩, htm, -⟩ := line_ends hr (op := 1) (by decide) (c := .defineLine h line) rfl
      (code := 0) (by decide) [] (fun E => ∃ D : Dev, D.mem = s.dev.mem ∧ D.dramKey = s.dev.dramKey ∧
        Dev.Hearths ((s.dev.lineHearths x).foldl (fun d c => d.clearLine x c)
          ({ D with mem := { D.mem with lines := D.mem.lines ++ [(l, x)] } } : Dev)) E) fun D hD => by
        obtain ⟨-, -, hfail, hfind, hstage, hhs, hkey⟩ := dl_fails_congr hD l
        have hxD : D.stagedLine b = x := by rw [hstage]
        have hH := D.defineLine_eq l b
        dsimp only at hH
        have hhs' : ({ D with mem := { D.mem with lines := D.mem.lines ++ [(l, x)] } } : Dev).lineHearths x = s.dev.lineHearths x :=
          congrFun hhs x
        rw [hxD, hhs'] at hH
        have hC := (Dev.foldl_clearLine x (s.dev.lineHearths x) { D with mem := { D.mem with lines := D.mem.lines ++ [(l, x)] } }).1
        have hall : D.defineLine l b = { D with mem := (D.defineLine l b).mem } := by
          rw [hH.only, hC]
        refine ⟨D.defineLine l b, ?_, ?_, ?_, fun a ha => ?_, D, Dev.mem_of_body hD.body, hkey, hH⟩
        · rw [dlRun_define, hfail, hok, hfind, hstage, hfit]
          rfl
        · have : (D.defineLine l b).body = { D.body with mem := (D.defineLine l b).mem } := by
            rw [hall]
            rfl
          rw [this, hD.body]
        · rw [hall]
          exact hD.fab
        · have : (D.defineLine l b).live = D.live := by rw [hall]
          rw [Dev.word, this, ← Dev.word]
          exact hD.word a (by simpa using ha)
    obtain ⟨hC, hch⟩ := Dev.foldl_clearLine x (s.dev.lineHearths x) ({ D with mem := { D.mem with lines := D.mem.lines ++ [(l, x)] } } : Dev)
    have hchan : ∀ c, (t.dev.ch c) = ((s.dev.lineHearths x).foldl (fun d c => d.clearLine x c)
        ({ D with mem := { D.mem with lines := D.mem.lines ++ [(l, x)] } } : Dev)).ch c := fun c => by
      unfold Dev.ch
      rw [htm, hH.only]
    have hold : ∀ c, ({ D with mem := { D.mem with lines := D.mem.lines ++ [(l, x)] } } : Dev).ch c = s.dev.ch c := fun c => by
      unfold Dev.ch
      rw [← hDm]
    have hhold : ∀ i, ({ D with mem := { D.mem with lines := D.mem.lines ++ [(l, x)] } } : Dev).hm i = s.dev.hm i := fun i => by
      unfold Dev.hm
      rw [← hDm]
    have hkey' : ({ D with mem := { D.mem with lines := D.mem.lines ++ [(l, x)] } } : Dev).dramKey x 0 = s.dev.dramKey x 0 :=
      congrFun (congrFun hkey x) 0
    refine ⟨t, hrun, hend, by simpa using hkeep, ?_, ?_, ?_, fun c hc => ⟨?_, ?_, fun hin hfail i hi => ?_, fun a ha => ?_⟩⟩
    · rw [htm, hH.only, hC, ← hDm]
    · rw [htm, hH.only, hC, ← hDm]
    · rw [htm, hH.only, hC, ← hDm]
    · rw [Dev.hm_congr htm, hH.tiles, hC]
      exact congrArg HMem.tiles (hhold c)
    · rw [hchan, (hch c).1, hold]
    · rw [hchan, (hch c).2, hold, hkey', if_pos ⟨(s.dev.lineHearths_two hx2 hc).mp hin, hfail, by omega, by omega⟩]
    · rw [hchan, (hch c).2, hold, hkey', if_neg]
      rintro ⟨h1, h2, h3, h4⟩
      rw [← s.dev.lineHearths_two hx2 hc] at h1
      obtain ha | ha | ha | ha := ha
      · exact ha h1
      · rw [ha] at h2
        cases h2
      · omega
      · omega

end Sys2Proof.Machine
end

section
/-! The grate window, the zeroing of tiles and the message store (R197, R198, R200, R219, R221, R529). -/
namespace Sys2Proof.Machine
open Sys2Proof.Claims

/-! ### Fields that stay behind counters and flags -/

theorem Dev.SameBut.refl (fs : List Fld) (d : Dev) : Dev.SameBut fs d d := fun _ _ _ => rfl

theorem Dev.SameBut.flag {fs : List Fld} {d d' : Dev} (h : Dev.SameBut fs d d') (f : Fld) (hm : f ∈ fs) (hf : f.ok = true) :
    Dev.SameBut fs d (d'.flag f) := h.wr f 1 hm hf

theorem Dev.SameBut.count {fs : List Fld} {d d' : Dev} (h : Dev.SameBut fs d d') (c half : Fld) (n : Nat) (hc : c ∈ fs) (hh : half ∈ fs)
    (oc : c.ok = true) (oh : half.ok = true) : Dev.SameBut fs d (d'.count c half n) := by
  unfold Dev.count
  dsimp only
  split
  · exact h.wr c _ hc oc
  · exact (h.wr c _ hc oc).flag half hh oh

/-- A device with the memories of another: all that a command on grate memory may change beside registers and events. -/
theorem Dev.around_mem {d d' : Dev} {m : Mem} (h : d'.body = { d.body with mem := m }) (hf : d'.fab = d.fab) :
    d' = Around { d with mem := m } d' := by
  have hd : d' = { d'.body with live := d'.live, evq := d'.evq, intr := d'.intr, pwr := d'.pwr, fab := d'.fab } := rfl
  rw [h, hf] at hd
  exact hd

theorem Dev.word_of_live {d d' : Dev} (h : d'.live = d.live) (a : Nat) : d'.word a = d.word a := by rw [Dev.word, h, Dev.word]

/-- What changes the memories of the hearths alone keeps the registers and everything else. -/
theorem Dev.Hearths.keeps {s : State} {D E : Dev} (hH : Dev.Hearths D E) (hb : D.body = s.dev.body) (hf : D.fab = s.dev.fab)
    (hw : ∀ a, D.word a = s.dev.word a) : Keeps [] s { s with dev := E.settle }
      { s.dev with mem := { s.dev.mem with hA := E.mem.hA, hB := E.mem.hB } } := by
  have hl : E.live = D.live := by rw [hH.only]
  have hfab : E.fab = D.fab := by rw [hH.only]
  refine ⟨fun a _ => (Dev.word_of_live hl a).trans (hw a), Dev.around_mem ?_ (hfab.trans hf)⟩
  change E.body = { s.dev.body with mem := { s.dev.mem with hA := E.mem.hA, hB := E.mem.hB } }
  rw [← hb, ← Dev.mem_of_body hb]
  exact congrArg Dev.body hH.only

/-! ### The host window -/

/-- What a window write does in a selected hearth. -/
def Dev.winStore (d : Dev) (key : Nat) (x : Word) (h : Nat) : Dev :=
  d.setHm h { (d.hm h).setWord key x with poison := ((d.hm h).setWord key x).poison.filter (· != key / 2) }

/-- The device with one word written in the hearths that `sel` selects. -/
def Dev.winStores (d : Dev) (sel key : Nat) (x : Word) (hs : List Nat) : Dev :=
  hs.foldl (fun d h => if sel / 2 ^ h % 2 = 1 then d.winStore key x h else d) d

theorem Dev.windowWrite_writable {d : Dev} {off : Nat} (x : Word) (hsel : d.rd Reg.PGU_WIN_HSEL ≠ 0)
    (hw : d.winWritable (d.winPage off) = true) :
    d.windowWrite off x = d.winStores (d.rd Reg.PGU_WIN_HSEL) (d.winPage off * 1024 + off % 4096 / 4) x [0, 1] := by
  unfold Dev.windowWrite
  dsimp only
  rw [if_neg hsel, if_pos hw]
  rfl

theorem Dev.windowWrite_other {d : Dev} {off : Nat} (x : Word) (hsel : d.rd Reg.PGU_WIN_HSEL ≠ 0)
    (hw : d.winWritable (d.winPage off) = false) :
    d.windowWrite off x = (d.count Reg.PGU_WINVCNT_COUNT Reg.PGU_STATUS_CNT_HALF).flag Reg.PGU_STATUS_WINVIOL := by
  unfold Dev.windowWrite
  dsimp only
  rw [if_neg hsel, if_neg (ne_true_of_eq_false hw)]

theorem Dev.winStore_hearths (d : Dev) (key : Nat) (x : Word) (h : Nat) : Dev.Hearths d (d.winStore key x h) := .setHm d h rfl

theorem Dev.winStores_hearths (d : Dev) (sel key : Nat) (x : Word) (hs : List Nat) : Dev.Hearths d (d.winStores sel key x hs) := by
  refine .foldl (fun d h => ?_) hs d
  split
  · exact d.winStore_hearths key x h
  · exact .refl d

/-- The store of one selected hearth shows in that hearth alone, and in one word. -/
theorem Dev.winStore_hm (d : Dev) (key : Nat) (x : Word) (h i : Nat) : ((d.winStore key x h).hm i).frames = (d.hm i).frames ∧
    ∀ k, ((d.winStore key x h).hm i).word k = if (h = 0 ↔ i = 0) ∧ k = key then x else (d.hm i).word k := by
  unfold Dev.winStore
  rw [Dev.hm_setHm]
  split
  case isTrue hi =>
    rw [d.hm_same hi]
    exact ⟨rfl, fun k => (HMem.word_setWord _ key k x).trans (if_congr (by simp [hi, eq_comm]) rfl rfl)⟩
  case isFalse hi => exact ⟨rfl, fun k => (if_neg fun hc => hi hc.1).symm⟩

/-- Each selected hearth holds the word; frames stay. -/
theorem Dev.winStores_hm (d : Dev) (sel key : Nat) (x : Word) (i : Nat) (hi : i < 2) :
    ((d.winStores sel key x [0, 1]).hm i).frames = (d.hm i).frames ∧
      ∀ k, ((d.winStores sel key x [0, 1]).hm i).word k = if sel / 2 ^ i % 2 = 1 ∧ k = key then x else (d.hm i).word k := by
  have hstep : ∀ (d : Dev) (h : Nat), ((if sel / 2 ^ h % 2 = 1 then d.winStore key x h else d).hm i).frames = (d.hm i).frames ∧
      ∀ k, ((if sel / 2 ^ h % 2 = 1 then d.winStore key x h else d).hm i).word k =
        if sel / 2 ^ h % 2 = 1 ∧ (h = 0 ↔ i = 0) ∧ k = key then x else (d.hm i).word k := fun d h => by
    split
    case isTrue hs => simpa [hs] using d.winStore_hm key x h i
    case isFalse hs => exact ⟨rfl, fun k => (if_neg fun hc => hs hc.1).symm⟩
  obtain ⟨hf0, hw0⟩ := hstep d 0
  obtain ⟨hf1, hw1⟩ := hstep (if sel / 2 ^ 0 % 2 = 1 then d.winStore key x 0 else d) 1
  refine ⟨hf1.trans hf0, fun k => (hw1 k).trans ?_⟩
  rw [hw0]
  obtain rfl | rfl : i = 0 ∨ i = 1 := by omega
  · simp
  · simp

theorem memWrite_owned {d : Dev} {h : Agent} (addr : Nat) (eff : Dev → Dev) (ho : d.owns h = true) :
    d.memWrite h addr eff = eff (d.touch h true 6) := by
  unfold Dev.memWrite
  dsimp only
  rw [if_pos (by rw [Dev.touch_owns, ho])]

theorem memWrite_denied {d : Dev} {h : Agent} (addr : Nat) (eff : Dev → Dev) (ho : d.owns h = false) :
    d.memWrite h addr eff = (d.touch h true 6).lockViol h addr 2 := by
  unfold Dev.memWrite
  dsimp only
  rw [if_neg (by rw [Dev.touch_owns, ho]; exact Bool.false_ne_true)]

theorem Dev.lockViol_count (d : Dev) (h : Agent) (a k : Nat) (ha : a < 2 ^ 24) (hk : k < 4) :
    (d.lockViol h a k).rd Reg.LOCK_VCNT_COUNT = (d.rd Reg.LOCK_VCNT_COUNT + 1) % 2 ^ 32 ∧
      (d.lockViol h a k).rd Reg.LOCK_STATUS_LOCK_VIOL = 1 := by
  rcases d.rd_viol_lt with hv | hv
  · obtain ⟨-, hc, hf, -⟩ := d.lockViol_records_first h a k ha hk hv
    exact ⟨hc, hf⟩
  · obtain ⟨-, hc, hf, -⟩ := d.lockViol_records_further h a k hv
    exact ⟨hc, hf⟩

theorem Dev.winPage_of_rd {d d' : Dev} (h : ∀ f, d'.rd f = d.rd f) (off : Nat) : d'.winPage off = d.winPage off := by
  rw [Dev.winPage, Dev.winPage, h]

theorem Dev.winWritable_of_rd {d d' : Dev} (h : ∀ f, d'.rd f = d.rd f) (p : Nat) : d'.winWritable p = d.winWritable p := by
  have hb : d'.bankPage = d.bankPage := by rw [Dev.bankPage, Dev.embPages, h, Dev.bankPage, Dev.embPages]
  have hf : d'.framePage = d.framePage := by rw [Dev.framePage, hb, Dev.banks, h, Dev.framePage, Dev.banks]
  have hp : d'.poolPage = d.poolPage := by rw [Dev.poolPage, hf, Dev.frameCount, h, Dev.poolPage, Dev.frameCount]
  rw [Dev.winWritable, hb, hf, hp, Dev.winWritable]

theorem windowWrite_moves (s : State) (h : Agent) (off : Fin 0x400000) (data : Word) : let p := s.dev.winPage off.val
    let key := p * 1024 + off.val % 4096 / 4
    let sel := s.dev.rd Reg.PGU_WIN_HSEL
    (s.dev.owns h = true → sel ≠ 0 → s.dev.winWritable p = true →
      ∃ t, Runs (.windowWrite h off data) s t ∧
        Keeps [] s t { s.dev with mem := { s.dev.mem with hA := t.dev.mem.hA, hB := t.dev.mem.hB } } ∧
        ∀ i, i < 2 → (t.dev.hm i).tiles = (s.dev.hm i).tiles ∧ (t.dev.hm i).frames = (s.dev.hm i).frames ∧
          ∀ k, (t.dev.hm i).word k = if sel / 2 ^ i % 2 = 1 ∧ k = key then data else (s.dev.hm i).word k) ∧
    (s.dev.owns h = true → sel ≠ 0 → s.dev.winWritable p = false →
      ∃ t, Runs (.windowWrite h off data) s t ∧ t.dev = Around s.dev t.dev ∧
        OnlyFields [Reg.PGU_WINVCNT_COUNT, Reg.PGU_STATUS_WINVIOL, Reg.PGU_STATUS_CNT_HALF] s t ∧
        t.dev.rd Reg.PGU_STATUS_WINVIOL = 1 ∧
        t.dev.rd Reg.PGU_WINVCNT_COUNT = (s.dev.rd Reg.PGU_WINVCNT_COUNT + 1) % 2 ^ Reg.PGU_WINVCNT_COUNT.width) ∧
    (s.dev.owns h = false → ∃ t, Runs (.windowWrite h off data) s t ∧ t.dev = Around s.dev t.dev ∧
      t.dev.rd Reg.LOCK_VCNT_COUNT = (s.dev.rd Reg.LOCK_VCNT_COUNT + 1) % 2 ^ 32 ∧ t.dev.rd Reg.LOCK_STATUS_LOCK_VIOL = 1) := by
  intro p key sel
  have hrun := runs_of_onDev (show exec (.windowWrite h off data) s =
    onDev (fun d => d.memWrite h (0x400000 + off.val) fun d => d.windowWrite off.val data) s from rfl)
  have hbody := s.dev.touch_body h true 6
  have hfab := s.dev.touch_fab h true 6
  have hword := s.dev.touch_word h true 6
  have hrd : ∀ f, (s.dev.touch h true 6).rd f = s.dev.rd f := fun f => Dev.rd_of_word (hword f.addr)
  have hpage := Dev.winPage_of_rd hrd off.val
  have hwr := Dev.winWritable_of_rd hrd p
  refine ⟨fun ho hsel hw => ⟨_, hrun, ?_⟩, fun ho hsel hw => ⟨_, hrun, ?_⟩, fun ho => ⟨_, hrun, ?_⟩⟩
  · dsimp only
    rw [memWrite_owned _ _ ho, Dev.windowWrite_writable data (by rwa [hrd]) (by rw [hpage, hwr, hw]), hpage, hrd]
    generalize s.dev.touch h true 6 = D at hbody hfab hword
    have hH := D.winStores_hearths sel key data [0, 1]
    have hm := D.winStores_hm sel key data
    change Keeps [] s { s with dev := (D.winStores sel key data [0, 1]).settle } _ ∧ ∀ i, i < 2 → ((D.winStores sel key data [0, 1]).hm i).tiles = _ ∧
      ((D.winStores sel key data [0, 1]).hm i).frames = _ ∧ ∀ k, ((D.winStores sel key data [0, 1]).hm i).word k = _
    refine ⟨hH.keeps hbody hfab hword, fun i hi => ?_⟩
    have hdm : D.hm i = s.dev.hm i := Dev.hm_congr (Dev.mem_of_body hbody) i
    rw [← hdm]
    exact ⟨hH.tiles i, hm i hi⟩
  · dsimp only
    rw [memWrite_owned _ _ ho, Dev.windowWrite_other data (by rwa [hrd]) (by rw [hpage, hwr, hw])]
    generalize s.dev.touch h true 6 = D at hbody hfab hrd
    refine ⟨Dev.eq_around_same ?_ ?_, (onlyFields_iff ..).mpr fun g hg ha => ?_, ?_, ?_⟩
    · exact (D.count_body _ _ _).trans hbody
    · exact (D.count_fab _ _ _).trans hfab
    · rw [← hrd g]
      exact ((Dev.SameBut.refl _ D).count _ _ _ (by simp) (by simp) (by decide) (by decide)).flag Reg.PGU_STATUS_WINVIOL (by simp) (by decide) g hg ha
    · exact Dev.rd_flag _ _ (by decide)
    · rw [Dev.settle_rd, Dev.rd_flag_sep _ _ _ (by decide), Dev.rd_count _ _ _ _ (by decide) (by decide) (by decide), hrd]
  · dsimp only
    rw [memWrite_denied _ _ ho]
    have haddr : 0x400000 + off.val < 2 ^ 24 := by omega
    obtain ⟨hc, hf⟩ := (s.dev.touch h true 6).lockViol_count h _ 2 haddr (by decide)
    have hb := (s.dev.touch h true 6).lockViol_body h (0x400000 + off.val) 2
    have hfb := (s.dev.touch h true 6).lockViol_fab h (0x400000 + off.val) 2
    rw [hrd] at hc
    generalize (s.dev.touch h true 6).lockViol h (0x400000 + off.val) 2 = D at hc hf hb hfb
    exact ⟨Dev.eq_around_same (hb.trans hbody) (hfb.trans hfab), hc, hf⟩

/-! ### The zeroing of tiles -/

theorem get_clearRanges (l : Sparse Word) (rs : List (Nat × Nat)) (k : Nat) :
    Sparse.get 0 (rs.foldl (fun g r => clearRange g (r.1 * 16) (r.2 * 16)) l) k =
      if rs.any (fun r => decide (r.1 * 16 ≤ k) && decide (k < r.1 * 16 + r.2 * 16)) then 0 else Sparse.get 0 l k := by
  induction rs generalizing l with
  | nil => rfl
  | cons r rs ih =>
    rw [List.foldl_cons, ih, clearRange_get, List.any_cons]
    by_cases h1 : r.1 * 16 ≤ k ∧ k < r.1 * 16 + r.2 * 16 <;>
      by_cases h2 : rs.any (fun r => decide (r.1 * 16 ≤ k) && decide (k < r.1 * 16 + r.2 * 16)) = true <;> simp [h1, h2]

theorem tilesZeroed_zeroes (s : State) (h : Hearth) : ∃ t, Runs (.tilesZeroed h) s t ∧
    Keeps [] s t { s.dev with mem := { s.dev.mem with hA := t.dev.mem.hA, hB := t.dev.mem.hB } } ∧
    t.dev.hm (1 - hIx h) = s.dev.hm (1 - hIx h) ∧ t.dev.hm (hIx h) = { s.dev.hm (hIx h) with gw := (t.dev.hm (hIx h)).gw, zeroing := [] } ∧
    ∀ k, (t.dev.hm (hIx h)).word k =
      if (s.dev.hm (hIx h)).zeroing.any (fun r => decide (r.1 * 16 ≤ k) && decide (k < r.1 * 16 + r.2 * 16)) then 0
      else (s.dev.hm (hIx h)).word k := by
  refine ⟨_, runs_of_onDev (show exec (.tilesZeroed h) s = onDev (fun d => d.setHm (hIx h) (d.hm (hIx h)).zeroDone) s from rfl), ?_⟩
  have hself : ((s.dev.setHm (hIx h) (s.dev.hm (hIx h)).zeroDone).settle).hm (hIx h) = (s.dev.hm (hIx h)).zeroDone :=
    Dev.hm_setHm_self s.dev (hIx h) _
  refine ⟨(Dev.Hearths.setHm s.dev (hIx h) (x := (s.dev.hm (hIx h)).zeroDone) rfl).keeps rfl rfl fun _ => rfl, ?_, ?_, fun k => ?_⟩
  · cases h <;> rfl
  · dsimp only
    rw [hself]
    rfl
  · dsimp only
    rw [hself]
    exact get_clearRanges _ _ k


/-! ### MSG_RELOAD -/

/-- A field that takes its own value again leaves the word. -/
theorem Fld.set_set_get (f : Fld) (w : Word) (x : Nat) : f.set (f.set w x) (f.get w) = w := by
  apply BitVec.eq_of_getLsbD_eq
  intro j hj
  rw [Fld.set_getLsbD, Fld.set_getLsbD]
  by_cases hf : f.lo ≤ j ∧ j < f.lo + f.width
  · rw [if_pos hf, Fld.get_testBit, show f.lo + (j - f.lo) = j by omega]
    simp [hj, show j - f.lo < f.width by omega]
  · rw [if_neg hf, if_neg hf]
    simp [hj]

theorem Dev.word_wr_back (d : Dev) (f : Fld) (x a : Nat) : ((d.wr f x).wr f (d.rd f)).word a = d.word a := by
  by_cases ha : f.addr = a
  · subst ha
    rw [Dev.wr, Dev.word_setWord_eq, Dev.wr, Dev.word_setWord_eq, Dev.rd, Fld.set_set_get]
  · rw [Dev.word_wr_ne _ _ _ _ ha, Dev.word_wr_ne _ _ _ _ ha]

theorem Dev.rd_of_off {d : Dev} {f : Fld} (h : d.on f = false) (hw : f.width = 1) : d.rd f = 0 := by
  have hlt := d.rd_lt f
  rw [hw] at hlt
  have : d.rd f ≠ 1 := by simpa [Dev.on] using h
  omega

/-- A command that its gate admits and that its CMD field does not hold up runs at once. -/
theorem Dev.cmdGo_off {d : Dev} {f : Fld} (run : Dev → Dev) (h : d.on f = false) : d.cmdGo f run = run (d.wr f 1) := by
  unfold Dev.cmdGo
  rw [if_neg (ne_true_of_eq_false h)]

/-- A message line is named by an admitted job. -/
def Dev.messageNamed (d : Dev) : Bool :=
  d.sch.jobs.any fun e => e.2.admitted && decide (e.2.dlCount > 0) && decide (3072 < e.2.dlFirst + e.2.dlCount)

theorem Dev.reloadStep_refused {d : Dev} (h : d.messageNamed = true) :
    d.reloadStep = (d.wr Reg.PGU_CMD_MSG_RELOAD 0).postMsgLoad 0x17 := if_pos h

theorem Dev.reloadStep_begins {d : Dev} (h : d.messageNamed = false) :
    d.reloadStep = { d with mem := { d.mem with reloading := true } } := if_neg (ne_true_of_eq_false h)

theorem msgReload_answers (s : State) (h : Agent) (hr : Ready s h Reg.PGU_CMD_MSG_RELOAD false) (hoff : s.dev.on Reg.PGU_CMD_MSG_RELOAD = false) :
    (s.dev.messageNamed = true → ∃ t, Runs (.msgReload h) s t ∧ Keeps [] s t s.dev ∧
      (Room s → EntersAll s t [(6, 4, s.dev.mem.msgs.length + 0x17 * 2 ^ 16)])) ∧
    (s.dev.messageNamed = false → ∃ t, Runs (.msgReload h) s t ∧ t.dev.rd Reg.PGU_CMD_MSG_RELOAD = 1 ∧
      OnlyFields [Reg.PGU_CMD_MSG_RELOAD] s t ∧ t.dev = Around { s.dev with mem := { s.dev.mem with reloading := true } } t.dev) := by
  have hrun := runs_of_onDev (show exec (.msgReload h) s =
    onDev (fun d => d.hostCmd h Reg.PGU_CMD_MSG_RELOAD [] Dev.reloadGo) s from rfl)
  have hbody := s.dev.touch_body h true 6
  have hfab := s.dev.touch_fab h true 6
  have hevq := s.dev.touch_evq h true 6
  have hword := s.dev.touch_word h true 6
  have hopen : s.dev.hostCmd h Reg.PGU_CMD_MSG_RELOAD [] Dev.reloadGo = (s.dev.touch h true 6).reloadGo :=
    s.dev.hostCmd_opened h Reg.PGU_CMD_MSG_RELOAD [] _ hr.1 hr.2 (by simp)
  rw [hopen] at hrun
  generalize s.dev.touch h true 6 = D at hrun hbody hfab hevq hword
  have hrd : ∀ f, D.rd f = s.dev.rd f := fun f => Dev.rd_of_word (hword f.addr)
  have hDoff : D.on Reg.PGU_CMD_MSG_RELOAD = false := by rw [Dev.on, hrd]; exact hoff
  have hnamed : (D.wr Reg.PGU_CMD_MSG_RELOAD 1).messageNamed = s.dev.messageNamed := by
    rw [Dev.messageNamed, Dev.messageNamed, ← Dev.sch_of_body hbody]
    rfl
  rw [Dev.reloadGo, Dev.cmdGo_off _ hDoff] at hrun
  refine ⟨fun hn => ?_, fun hn => ?_⟩
  · rw [Dev.reloadStep_refused (hnamed.trans hn)] at hrun
    refine ⟨_, hrun, ⟨fun a _ => ?_, Dev.eq_around_same hbody hfab⟩, fun hroom => entersAll_of_room 6 (by decide) (by simp) (by simp) hroom ?_⟩
    · have h0 := Dev.word_wr_back D Reg.PGU_CMD_MSG_RELOAD 1 a
      rw [Dev.rd_of_off hDoff (by decide), hword a] at h0
      exact h0
    · rw [← Dev.mem_of_body hbody]
      change ({ D.evq with posts := D.evq.posts ++ [_] } : Evq).settle D.schTick = _
      rw [hevq, hroom.2.1, Dev.schTick, Dev.tick_of_body hbody]
      rfl
  · rw [Dev.reloadStep_begins (hnamed.trans hn)] at hrun
    refine ⟨_, hrun, Dev.rd_wr_lt D Reg.PGU_CMD_MSG_RELOAD 1 (by decide) (by decide), (onlyFields_iff ..).mpr fun g hg ha => ?_, ?_⟩
    · rw [← hrd g]
      exact (Dev.SameBut.refl _ D).wr Reg.PGU_CMD_MSG_RELOAD 1 (by simp) (by decide) g hg ha
    · refine Dev.around_mem ?_ hfab
      rw [← hbody, ← Dev.mem_of_body hbody]
      rfl

/-! ### The load from flash -/

/-- `d'` is `d` but for the memory system. -/
def Dev.OnlyMem (d d' : Dev) : Prop := d' = { d with mem := d'.mem }

theorem Dev.OnlyMem.trans {d d' d'' : Dev} (h : Dev.OnlyMem d d') (h' : Dev.OnlyMem d' d'') : Dev.OnlyMem d d'' := by
  unfold Dev.OnlyMem at *
  rw [h', h]

theorem Dev.Hearths.onlyMem {d d' : Dev} (h : Dev.Hearths d d') : Dev.OnlyMem d d' := by
  unfold Dev.OnlyMem
  rw [h.only]

theorem Dev.OnlyChannels.onlyMem {d d' : Dev} (h : Dev.OnlyChannels d d') : Dev.OnlyMem d d' := by
  unfold Dev.OnlyMem Dev.OnlyChannels at *
  rw [h]

theorem Dev.unloadMessages_only (d : Dev) : Dev.OnlyMem d d.unloadMessages := rfl
theorem Dev.unloadMessages_mem (d : Dev) : d.unloadMessages.mem.msgs = [] ∧ d.unloadMessages.mem.msgValid = false ∧
    d.unloadMessages.mem.lines = d.mem.lines ∧ d.unloadMessages.mem.ch0 = d.mem.ch0 ∧ d.unloadMessages.mem.ch1 = d.mem.ch1 :=
  ⟨rfl, rfl, rfl, rfl, rfl⟩

theorem Dev.unloadMessages_framesFree (d : Dev) (i : Nat) : d.unloadMessages.framesFree i = d.frameCount - d.lineFrames i := rfl

/-- The bytes `b` stand in channel `c` as words, where it works. -/
def Dev.copyTo (d : Dev) (b : List Byte) (c : Nat) : Dev :=
  if (d.ch c).failed then d else
  d.setCh c { (d.ch c) with
    words := Sparse.putList 0 (clearRange (d.ch c).words 0 ((b.length + 3) / 4)) 0
      ((List.range ((b.length + 3) / 4)).map fun i => BitVec.ofNat 32 (imageWord b i)),
    bad := (d.ch c).bad.filter fun w => decide ((b.length + 3) / 4 ≤ 2 * w) }

theorem Dev.copyMessages_eq (d : Dev) (b : List Byte) : d.copyMessages b = (d.copyTo b 0).copyTo b 1 := rfl

theorem Dev.copyTo_only (d : Dev) (b : List Byte) (c : Nat) : Dev.OnlyChannels d (d.copyTo b c) := by
  unfold Dev.copyTo Dev.OnlyChannels
  split
  · rfl
  · unfold Dev.setCh
    split <;> rfl

theorem Dev.copyTo_ch (d : Dev) (b : List Byte) (c i : Nat) : ((d.copyTo b c).ch i).failed = (d.ch i).failed ∧
    ∀ a, Sparse.get 0 ((d.copyTo b c).ch i).words a =
      if (c = 0 ↔ i = 0) ∧ (d.ch i).failed = false ∧ a < (b.length + 3) / 4 then BitVec.ofNat 32 (imageWord b a)
      else Sparse.get 0 (d.ch i).words a := by
  unfold Dev.copyTo
  split
  case isTrue hf =>
    refine ⟨rfl, fun a => (if_neg ?_).symm⟩
    rintro ⟨hi, hw, -⟩
    rw [d.ch_same hi, hf] at hw
    cases hw
  case isFalse hf =>
    rw [Dev.ch_setCh]
    split
    case isTrue hi =>
      rw [d.ch_same hi]
      refine ⟨rfl, fun a => ?_⟩
      rw [Sparse.get_putList, clearRange_get]
      by_cases ha : a < (b.length + 3) / 4
      · simp [hi, ha, Bool.not_eq_true _ ▸ hf]
      · simp [ha]
    case isFalse hi => exact ⟨rfl, fun a => (if_neg fun h => hi h.1).symm⟩

theorem Dev.pinMessages_hearths (d : Dev) (h : Nat) : Dev.Hearths d (d.pinMessages h) := by
  unfold Dev.pinMessages
  split
  · exact .refl d
  · refine .foldl (fun d i => ?_) _ d
    split
    · split
      · split
        · exact (Dev.loadFrame_hearths d h h _ _ _).trans (.setHm _ h rfl)
        · exact .refl d
      · exact .refl d
    · exact .refl d

/-- The image passes the tests of its form and fits its region (R219). -/
def ImageFits (b : List Byte) (region : Nat) : Prop :=
  msgImageOk b = true ∧ imageSize (bits (imageWord b 3) 16 0) ≤ 2 ^ 28 ∧ imageSize (bits (imageWord b 3) 16 0) ≤ region

/-- The device with the directory of a loaded store. -/
def Dev.withStore (d : Dev) (ms : List Msg) (pages : Nat) : Dev :=
  { d with mem := { d.mem with msgs := ms, msgPages := pages, msgValid := true } }

/-- The store that an image which passes every test leaves. -/
def Dev.storeLoaded (d : Dev) (b : List Byte) : Dev :=
  (((d.unloadMessages.copyMessages (b.take (imageSize (bits (imageWord b 3) 16 0)))).withStore
    (readDirectory b (bits (imageWord b 2) 10 0)) (bits (imageWord b 3) 16 0)).pinMessages 0).pinMessages 1

theorem Dev.loadMessages_eq (d : Dev) (b : List Byte) (region : Nat) : d.loadMessages b region =
    if !msgImageOk b ∨ imageSize (bits (imageWord b 3) 16 0) > 2 ^ 28 ∨ imageSize (bits (imageWord b 3) 16 0) > region then
      (0x18, d.unloadMessages)
    else if d.unloadMessages.framesFree 0 < 192 + ((readDirectory b (bits (imageWord b 2) 10 0)).filter (·.pin)).length ∨
        d.unloadMessages.framesFree 1 < 192 + ((readDirectory b (bits (imageWord b 2) 10 0)).filter (·.pin)).length then
      (0x48, d.unloadMessages)
    else (0, d.storeLoaded b) := rfl

theorem not_imageFits {b : List Byte} {region : Nat} (h : ¬ ImageFits b region) :
    !msgImageOk b ∨ imageSize (bits (imageWord b 3) 16 0) > 2 ^ 28 ∨ imageSize (bits (imageWord b 3) 16 0) > region := by
  by_cases h1 : msgImageOk b = true
  · by_cases h2 : imageSize (bits (imageWord b 3) 16 0) ≤ 2 ^ 28
    · exact .inr (.inr (not_le.mp fun h3 => h ⟨h1, h2, h3⟩))
    · exact .inr (.inl (not_le.mp h2))
  · exact .inl (by rw [eq_false_of_ne_true h1]; rfl)

theorem ImageFits.not_bad {b : List Byte} {region : Nat} (h : ImageFits b region) :
    ¬ (!msgImageOk b ∨ imageSize (bits (imageWord b 3) 16 0) > 2 ^ 28 ∨ imageSize (bits (imageWord b 3) 16 0) > region) := by
  obtain ⟨h1, h2, h3⟩ := h
  rintro (hb | hb | hb)
  · rw [h1] at hb
    cases hb
  · exact absurd h2 (not_le.mpr hb)
  · exact absurd h3 (not_le.mpr hb)

theorem Dev.loadMessages_refused {d : Dev} {b : List Byte} {region : Nat}
    (h : ¬ ImageFits b region) : d.loadMessages b region = (0x18, d.unloadMessages) :=
  (d.loadMessages_eq b region).trans (if_pos (not_imageFits h))

theorem msgImageOk_size {b : List Byte} (h : msgImageOk b = true) : imageSize (bits (imageWord b 3) 16 0) ≤ b.length := by
  simp only [msgImageOk, Bool.and_eq_true, decide_eq_true_eq] at h
  obtain ⟨⟨⟨⟨-, hsize⟩, -⟩, -⟩, -⟩ := h
  exact hsize

/-- The copies of the bytes `b` in both channels. -/
theorem Dev.copyMessages_ch (d : Dev) (b : List Byte) : Dev.OnlyChannels d (d.copyMessages b) ∧
    ∀ c, c < 2 → (d.ch c).failed = false → ∀ a, Sparse.get 0 ((d.copyMessages b).ch c).words a =
      if a < (b.length + 3) / 4 then BitVec.ofNat 32 (imageWord b a) else Sparse.get 0 (d.ch c).words a := by
  rw [Dev.copyMessages_eq]
  refine ⟨(d.copyTo_only b 0).trans ((d.copyTo b 0).copyTo_only b 1), fun c hc hf a => ?_⟩
  rw [((d.copyTo b 0).copyTo_ch b 1 c).2, (d.copyTo_ch b 0 c).2, (d.copyTo_ch b 0 c).1, hf]
  obtain rfl | rfl : c = 0 ∨ c = 1 := by omega
  · simp
  · simp

/-- What the pinned frames leave of a store that has been copied. -/
theorem Dev.pinned_keeps (d : Dev) (ms : List Msg) (pages : Nat) : let E := ((d.withStore ms pages).pinMessages 0).pinMessages 1
    Dev.OnlyMem d E ∧ E.mem.msgs = ms ∧ E.mem.msgValid = true ∧ E.mem.lines = d.mem.lines ∧ ∀ c, E.ch c = d.ch c := by
  intro E
  have hH : Dev.Hearths (d.withStore ms pages) E := (Dev.pinMessages_hearths _ 0).trans (Dev.pinMessages_hearths _ 1)
  have h0 : Dev.OnlyMem d (d.withStore ms pages) := rfl
  refine ⟨h0.trans hH.onlyMem, ?_, ?_, ?_, fun c => ?_⟩
  · rw [hH.only]
    rfl
  · rw [hH.only]
    rfl
  · rw [hH.only]
    rfl
  · rw [Dev.ch, hH.only]
    rfl

theorem Dev.storeLoaded_holds (d : Dev) {b : List Byte} (hok : msgImageOk b = true) : Dev.OnlyMem d (d.storeLoaded b) ∧
    (d.storeLoaded b).mem.msgs = readDirectory b (bits (imageWord b 2) 10 0) ∧ (d.storeLoaded b).mem.msgValid = true ∧
    (d.storeLoaded b).mem.lines = d.mem.lines ∧
    ∀ c, c < 2 → (d.ch c).failed = false → ∀ a, Sparse.get 0 ((d.storeLoaded b).ch c).words a =
      if a < (imageSize (bits (imageWord b 3) 16 0) + 3) / 4
      then BitVec.ofNat 32 (imageWord (b.take (imageSize (bits (imageWord b 3) 16 0))) a) else Sparse.get 0 (d.ch c).words a := by
  have hlen : (b.take (imageSize (bits (imageWord b 3) 16 0))).length = imageSize (bits (imageWord b 3) 16 0) := by
    rw [List.length_take, Nat.min_eq_left (msgImageOk_size hok)]
  obtain ⟨hC, hw⟩ := d.unloadMessages.copyMessages_ch (b.take (imageSize (bits (imageWord b 3) 16 0)))
  obtain ⟨hm, hmsgs, hvalid, hlines, hch⟩ := (d.unloadMessages.copyMessages (b.take (imageSize (bits (imageWord b 3) 16 0)))).pinned_keeps
    (readDirectory b (bits (imageWord b 2) 10 0)) (bits (imageWord b 3) 16 0)
  obtain ⟨-, -, hl, -, -⟩ := d.unloadMessages_mem
  rw [hlen] at hw
  have hlC := congrArg (fun d : Dev => d.mem.lines) hC
  refine ⟨(d.unloadMessages_only.trans hC.onlyMem).trans hm, hmsgs, hvalid, (hlines.trans hlC).trans hl, fun c hc hf a => ?_⟩
  exact (congrArg (fun x : Dram => Sparse.get 0 x.words a) (hch c)).trans (hw c hc hf a)

theorem Dev.loadMessages_loads {d : Dev} {b : List Byte} {region : Nat} (hfit : ImageFits b region)
    (hroom : ∀ i, i < 2 → 192 + ((readDirectory b (bits (imageWord b 2) 10 0)).filter (·.pin)).length ≤ d.frameCount - d.lineFrames i) :
    d.loadMessages b region = (0, d.storeLoaded b) := by
  have h0 := hroom 0 (by decide)
  have h1 := hroom 1 (by decide)
  rw [← d.unloadMessages_framesFree] at h0 h1
  exact (d.loadMessages_eq b region).trans ((if_neg hfit.not_bad).trans (if_neg (by omega)))

/-- The end of the load: the store and its device are `E`, the reason is `c`. -/
def Dev.reloaded (E : Dev) (c : Nat) : Dev :=
  (({ E with mem := { E.mem with reloading := false } } : Dev).postMsgLoad c).cmdNext Reg.PGU_CMD_MSG_RELOAD Dev.reloadStep

theorem msgLoad_runs {s : State} {E : Dev} {c : Nat} (h : s.dev.mem.reloading = true)
    (hl : s.dev.loadMessages (messageImage s.nv s.dev.boot) (s.dev.rd Reg.PGU_REGION_MSG_MIB * 2 ^ 20) = (c, E)) :
    Runs .msgLoad s { s with dev := (E.reloaded c).settle } := by
  have hdone : reloadDone (s.nv, s.dev) = (s.nv, E.reloaded c) := by
    unfold reloadDone
    extract_lets d
    rw [if_pos (show d.mem.reloading = true from h),
      show d.loadMessages (messageImage (s.nv, s.dev).1 d.boot) (d.rd Reg.PGU_REGION_MSG_MIB * 2 ^ 20) = (c, E) from hl]
    rfl
  refine ⟨?_, rfl, rfl⟩
  change onBoth reloadDone s = _
  unfold onBoth
  rw [hdone]

theorem Dev.reloaded_eq {E : Dev} {c : Nat} (hq : E.fab.queued.contains Reg.PGU_CMD_MSG_RELOAD.key = false) : E.reloaded c =
    (({ E with mem := { E.mem with reloading := false } } : Dev).postMsgLoad c).wr Reg.PGU_CMD_MSG_RELOAD 0 :=
  if_neg (ne_true_of_eq_false hq)

/-- How every load that was asked for ends: the store is what `E` holds, its CMD field reads 0, and MSGLOAD is posted. -/
theorem msgLoad_ends {s : State} {E : Dev} {c : Nat} (h : s.dev.mem.reloading = true)
    (hq : s.dev.fab.queued.contains Reg.PGU_CMD_MSG_RELOAD.key = false) (hE : Dev.OnlyMem s.dev E)
    (hl : s.dev.loadMessages (messageImage s.nv s.dev.boot) (s.dev.rd Reg.PGU_REGION_MSG_MIB * 2 ^ 20) = (c, E)) :
    ∃ t, Runs .msgLoad s t ∧ t.dev.mem = { E.mem with reloading := false } ∧ t.dev.rd Reg.PGU_CMD_MSG_RELOAD = 0 ∧
      OnlyFields [Reg.PGU_CMD_MSG_RELOAD] s t ∧ (Room s → EntersAll s t [(6, 4, E.mem.msgs.length + c * 2 ^ 16)]) := by
  have hrun := msgLoad_runs h hl
  have hfab : E.fab = s.dev.fab := by rw [hE]
  have hlive : E.live = s.dev.live := by rw [hE]
  have hevq : E.evq = s.dev.evq := by rw [hE]
  have htick : E.tick = s.dev.tick := by rw [hE]
  rw [Dev.reloaded_eq (by rw [hfab]; exact hq)] at hrun
  refine ⟨_, hrun, rfl, Dev.rd_wr_lt _ _ 0 (by decide) (by decide), (onlyFields_iff ..).mpr ?_,
    fun hroom => entersAll_of_room 6 (by decide) (by simp) (by simp) hroom ?_⟩
  · exact (Dev.SameBut.of_live (fs := [Reg.PGU_CMD_MSG_RELOAD]) (d := s.dev)
      (d' := ({ E with mem := { E.mem with reloading := false } } : Dev).postMsgLoad c) hlive).wr _ 0 (by simp) (by decide)
  · change ({ E.evq with posts := E.evq.posts ++ [_] } : Evq).settle E.schTick = _
    rw [hevq, hroom.2.1, Dev.schTick, htick]
    rfl

/-- Settles O43: window writes store in the selected hearths alone, and a load of the message store is judged by its image. -/
theorem windowTilesAndMessages : Obligations.WindowTilesAndMessages := by
  unfold Obligations.WindowTilesAndMessages
  refine ⟨windowWrite_moves, tilesZeroed_zeroes, msgReload_answers, fun s hoff => ?_, fun s => ?_⟩
  · refine ⟨{ s with dev := s.dev.settle }, ⟨?_, rfl, rfl⟩, fun a _ => rfl, rfl⟩
    have hdone : reloadDone (s.nv, s.dev) = (s.nv, s.dev) := by
      unfold reloadDone
      extract_lets d
      rw [if_neg (show ¬ d.mem.reloading = true from ne_true_of_eq_false hoff)]
    change onBoth reloadDone s = _
    unfold onBoth
    rw [hdone]
  intro b hre hq n ms fits
  refine ⟨fun hno => ?_, fun hfit hroom => ?_⟩
  · obtain ⟨t, hrun, hm, hcmd, hsame, hev⟩ := msgLoad_ends hre hq s.dev.unloadMessages_only (Dev.loadMessages_refused hno)
    obtain ⟨hmsgs, hvalid, -, hch0, hch1⟩ := s.dev.unloadMessages_mem
    rw [hmsgs] at hev
    exact ⟨t, hrun, by rw [hm]; exact hvalid, by rw [hm]; exact hmsgs, by rw [hm], by rw [hm]; exact hch0, by rw [hm]; exact hch1,
      hcmd, hsame, by simpa using hev⟩
  · obtain ⟨hE, hmsgs, hvalid, hlines, hchan⟩ := s.dev.storeLoaded_holds hfit.1
    have hl := Dev.loadMessages_loads (region := s.dev.rd Reg.PGU_REGION_MSG_MIB * 2 ^ 20) hfit hroom
    obtain ⟨t, hrun, hm, hcmd, hsame, hev⟩ := msgLoad_ends hre hq hE hl
    rw [hmsgs] at hev
    have hch : ∀ c, t.dev.ch c = (s.dev.storeLoaded b).ch c := fun c => by rw [Dev.ch, hm, Dev.ch]
    refine ⟨t, hrun, by rw [hm]; exact hvalid, by rw [hm]; exact hmsgs, by rw [hm], by rw [hm]; exact hlines, hcmd, hsame,
      by simpa using hev, fun c hc hf => ⟨fun i hi => ?_, fun a ha => ?_⟩⟩
    · rw [hch, hchan c hc hf i, if_pos hi]
    · rw [hch, hchan c hc hf a, if_neg (by omega)]

end Sys2Proof.Machine
end

section
/-! Faults of engines, memories and rails (R101, R159, R160, R195, R431, R538). -/
namespace Sys2Proof.Machine
open Sys2Proof.Claims

/-! ### Fields apart from others -/

/-- The field shares no bit with those of `fs`, as a check. -/
def Fld.clear (fs : List Fld) (g : Fld) : Bool :=
  decide (g.hi < 32) && fs.all fun f => f.addr != g.addr || decide (f.hi < g.lo) || decide (g.hi < f.lo)

theorem Dev.SameBut.rd {fs : List Fld} {d d' : Dev} (h : Dev.SameBut fs d d') {g : Fld} (hc : Fld.clear fs g = true) : d'.rd g = d.rd g := by
  simp only [Fld.clear, Bool.and_eq_true, List.all_eq_true, Bool.or_eq_true, decide_eq_true_eq, bne_iff_ne, or_assoc] at hc
  exact h g hc.1 hc.2

/-! ### The end of a run -/

/-- The registers that show the end of a run on engine `e` with `cyc` cycles (R96, R128, R163). -/
def Dev.runRegs (d : Dev) (e cyc : Nat) : Dev :=
  let d1 := d.wr (Reg.ENG_FLAGS_FLAGS e) (d.rd (Reg.ENG_FLAGS_FLAGS e) ||| (d.en e).flags.toNat)
  let d2 := if d1.on (Reg.ENG_WATCH_EN e) && d1.rd (Reg.ENG_WATCH_JOB e) == (d.en e).job then
      ((d1.wr (Reg.ENG_WLAST_CYC e) cyc).wr (Reg.ENG_WMAX_CYC e) (max (d1.rd (Reg.ENG_WMAX_CYC e)) cyc)).wr
        (Reg.ENG_WSTALL_CYC e) ((d.en e).stallAt cyc)
    else d1
  d2.count (Reg.ENG_CYC_COUNT e) (Reg.ENG_STATUS_CNT_HALF e) cyc

theorem Dev.closeRun_eq (d : Dev) (e cyc : Nat) : d.closeRun e cyc =
    (((d.runRegs e cyc).setSh (e / 8) { (d.runRegs e cyc).sh (e / 8) with usedNow := ((d.runRegs e cyc).sh (e / 8)).usedNow + cyc }).markEnded
      (e / 8) (d.en e).job ((d.en e).base + cyc)).modEn e fun g =>
        { g with running := false, miss := none, wait := none, freeAt := g.base + cyc } := rfl

/-- The fields that the end of a run on engine `e` writes. -/
def runFields (e : Nat) : List Fld :=
  [Reg.ENG_FLAGS_FLAGS e, Reg.ENG_WLAST_CYC e, Reg.ENG_WMAX_CYC e, Reg.ENG_WSTALL_CYC e, Reg.ENG_CYC_COUNT e, Reg.ENG_STATUS_CNT_HALF e]

/-- The device with other live registers. -/
def Dev.OnlyLive (d d' : Dev) : Prop := d' = { d with live := d'.live }

theorem Dev.OnlyLive.trans {d d' d'' : Dev} (h : Dev.OnlyLive d d') (h' : Dev.OnlyLive d' d'') : Dev.OnlyLive d d'' := by
  unfold Dev.OnlyLive at *
  rw [h', h]

theorem Dev.wr_onlyLive (d : Dev) (f : Fld) (v : Nat) : Dev.OnlyLive d (d.wr f v) := rfl

theorem Dev.count_onlyLive (d : Dev) (c half : Fld) (n : Nat) : Dev.OnlyLive d (d.count c half n) := by
  unfold Dev.count Dev.OnlyLive
  dsimp only
  split <;> rfl

theorem Dev.rd_flags_lt (d : Dev) (e : Eng) (x : Flg) : d.rd (Reg.ENG_FLAGS_FLAGS e) ||| x.toNat < 2 ^ (Reg.ENG_FLAGS_FLAGS e).width :=
  Nat.or_lt_two_pow (d.rd_lt _) x.isLt

theorem Dev.runRegs_shows (d : Dev) (e : Eng) (cyc : Nat) : Dev.OnlyLive d (d.runRegs e cyc) ∧ Dev.SameBut (runFields e) d (d.runRegs e cyc) ∧
    (d.runRegs e cyc).rd (Reg.ENG_CYC_COUNT e) = (d.rd (Reg.ENG_CYC_COUNT e) + cyc) % 2 ^ 32 ∧
    (d.runRegs e cyc).rd (Reg.ENG_FLAGS_FLAGS e) = d.rd (Reg.ENG_FLAGS_FLAGS e) ||| (d.en e).flags.toNat := by
  have ok : ∀ f ∈ runFields e, f.ok = true := (show ∀ e : Eng, ∀ f ∈ runFields e, f.ok = true by decide) e
  have s1 : (Reg.ENG_FLAGS_FLAGS e).sep (Reg.ENG_CYC_COUNT e) = true := (show ∀ e : Eng, (Reg.ENG_FLAGS_FLAGS e).sep (Reg.ENG_CYC_COUNT e) = true by decide) e
  have s2 : (Reg.ENG_WLAST_CYC e).sep (Reg.ENG_CYC_COUNT e) = true := (show ∀ e : Eng, (Reg.ENG_WLAST_CYC e).sep (Reg.ENG_CYC_COUNT e) = true by decide) e
  have s3 : (Reg.ENG_WMAX_CYC e).sep (Reg.ENG_CYC_COUNT e) = true := (show ∀ e : Eng, (Reg.ENG_WMAX_CYC e).sep (Reg.ENG_CYC_COUNT e) = true by decide) e
  have s4 : (Reg.ENG_WSTALL_CYC e).sep (Reg.ENG_CYC_COUNT e) = true := (show ∀ e : Eng, (Reg.ENG_WSTALL_CYC e).sep (Reg.ENG_CYC_COUNT e) = true by decide) e
  have t2 : (Reg.ENG_WLAST_CYC e).sep (Reg.ENG_FLAGS_FLAGS e) = true := (show ∀ e : Eng, (Reg.ENG_WLAST_CYC e).sep (Reg.ENG_FLAGS_FLAGS e) = true by decide) e
  have t3 : (Reg.ENG_WMAX_CYC e).sep (Reg.ENG_FLAGS_FLAGS e) = true := (show ∀ e : Eng, (Reg.ENG_WMAX_CYC e).sep (Reg.ENG_FLAGS_FLAGS e) = true by decide) e
  have t4 : (Reg.ENG_WSTALL_CYC e).sep (Reg.ENG_FLAGS_FLAGS e) = true := (show ∀ e : Eng, (Reg.ENG_WSTALL_CYC e).sep (Reg.ENG_FLAGS_FLAGS e) = true by decide) e
  have t5 : (Reg.ENG_CYC_COUNT e).addr ≠ (Reg.ENG_FLAGS_FLAGS e).addr := (show ∀ e : Eng, (Reg.ENG_CYC_COUNT e).addr ≠ (Reg.ENG_FLAGS_FLAGS e).addr by decide) e
  have t6 : (Reg.ENG_STATUS_CNT_HALF e).addr ≠ (Reg.ENG_FLAGS_FLAGS e).addr := (show ∀ e : Eng, (Reg.ENG_STATUS_CNT_HALF e).addr ≠ (Reg.ENG_FLAGS_FLAGS e).addr by decide) e
  have a1 : (Reg.ENG_STATUS_CNT_HALF e).apart (Reg.ENG_CYC_COUNT e) = true := (show ∀ e : Eng, (Reg.ENG_STATUS_CNT_HALF e).apart (Reg.ENG_CYC_COUNT e) = true by decide) e
  have w : (Reg.ENG_CYC_COUNT e).width = 32 := (show ∀ e : Eng, (Reg.ENG_CYC_COUNT e).width = 32 by decide) e
  have k1 := ok (Reg.ENG_FLAGS_FLAGS e) (by simp [runFields])
  have k5 := ok (Reg.ENG_CYC_COUNT e) (by simp [runFields])
  have k6 := ok (Reg.ENG_STATUS_CNT_HALF e) (by simp [runFields])
  unfold Dev.runRegs
  dsimp only
  have h1 : Dev.OnlyLive d (d.wr (Reg.ENG_FLAGS_FLAGS e) (d.rd (Reg.ENG_FLAGS_FLAGS e) ||| (d.en e).flags.toNat)) := rfl
  have h2 : Dev.SameBut (runFields e) d (d.wr (Reg.ENG_FLAGS_FLAGS e) (d.rd (Reg.ENG_FLAGS_FLAGS e) ||| (d.en e).flags.toNat)) :=
    (Dev.SameBut.refl _ d).wr _ _ (by simp [runFields]) k1
  have h3 := d.rd_wr_sep _ _ (d.rd (Reg.ENG_FLAGS_FLAGS e) ||| (d.en e).flags.toNat) s1
  have h4 := d.rd_wr_lt _ _ k1 (d.rd_flags_lt e (d.en e).flags)
  generalize d.wr (Reg.ENG_FLAGS_FLAGS e) (d.rd (Reg.ENG_FLAGS_FLAGS e) ||| (d.en e).flags.toNat) = d1 at h1 h2 h3 h4 ⊢
  have hmid : ∀ d2 : Dev, Dev.OnlyLive d d2 → Dev.SameBut (runFields e) d d2 → d2.rd (Reg.ENG_CYC_COUNT e) = d.rd (Reg.ENG_CYC_COUNT e) →
      d2.rd (Reg.ENG_FLAGS_FLAGS e) = d.rd (Reg.ENG_FLAGS_FLAGS e) ||| (d.en e).flags.toNat →
      let D := d2.count (Reg.ENG_CYC_COUNT e) (Reg.ENG_STATUS_CNT_HALF e) cyc
      Dev.OnlyLive d D ∧ Dev.SameBut (runFields e) d D ∧ D.rd (Reg.ENG_CYC_COUNT e) = (d.rd (Reg.ENG_CYC_COUNT e) + cyc) % 2 ^ 32 ∧
        D.rd (Reg.ENG_FLAGS_FLAGS e) = d.rd (Reg.ENG_FLAGS_FLAGS e) ||| (d.en e).flags.toNat := fun d2 g1 g2 g3 g4 => by
    refine ⟨g1.trans (d2.count_onlyLive _ _ _), g2.count _ _ _ (by simp [runFields]) (by simp [runFields]) k5 k6, ?_, ?_⟩
    · rw [Dev.rd_count _ _ _ _ k5 k6 a1, g3, w]
    · rw [Dev.rd_of_word (Dev.word_count_ne _ _ _ _ _ t5 t6), g4]
  split
  · have g2 := h2.wr (Reg.ENG_WLAST_CYC e) cyc (by simp [runFields]) (ok _ (by simp [runFields]))
    have g3 := g2.wr (Reg.ENG_WMAX_CYC e) (max (d1.rd (Reg.ENG_WMAX_CYC e)) cyc) (by simp [runFields]) (ok _ (by simp [runFields]))
    have g4 := g3.wr (Reg.ENG_WSTALL_CYC e) ((d.en e).stallAt cyc) (by simp [runFields]) (ok _ (by simp [runFields]))
    refine hmid _ (h1.trans ((Dev.wr_onlyLive ..).trans ((Dev.wr_onlyLive ..).trans (Dev.wr_onlyLive ..)))) g4 ?_ ?_
    · rw [Dev.rd_wr_sep _ _ _ _ s4, Dev.rd_wr_sep _ _ _ _ s3, Dev.rd_wr_sep _ _ _ _ s2, h3]
    · rw [Dev.rd_wr_sep _ _ _ _ t4, Dev.rd_wr_sep _ _ _ _ t3, Dev.rd_wr_sep _ _ _ _ t2, h4]
  · exact hmid _ h1 h2 h3 h4

/-- What the end of a run on engine `e` with `cyc` cycles leaves of the device `d`. -/
structure Dev.Closed (e : Eng) (cyc : Nat) (d D : Dev) : Prop where
  only : D = { d with live := D.live, sch := D.sch, eng := { d.eng with e := D.eng.e } }
  en : D.en e = { d.en e with running := false, miss := none, wait := none, freeAt := (d.en e).base + cyc }
  other : ∀ q, q ≠ e.val → D.en q = d.en q
  same : Dev.SameBut (runFields e) d D
  cycles : D.rd (Reg.ENG_CYC_COUNT e) = (d.rd (Reg.ENG_CYC_COUNT e) + cyc) % 2 ^ 32
  flags : D.rd (Reg.ENG_FLAGS_FLAGS e) = d.rd (Reg.ENG_FLAGS_FLAGS e) ||| (d.en e).flags.toNat
  plan : (D.sh (e / 8)).plan = (d.sh (e / 8)).plan.map fun p =>
    if p.job == (d.en e).job then { p with started := true, ended := true, endAt := (d.en e).base + cyc } else p

theorem Dev.setSh_only (d : Dev) (h : Nat) (x : SchH) : d.setSh h x = { d with sch := (d.setSh h x).sch } := by
  unfold Dev.setSh
  split <;> rfl

theorem Dev.closeRun_closed (d : Dev) (e : Eng) (cyc : Nat) : Dev.Closed e cyc d (d.closeRun e cyc) := by
  obtain ⟨hl, hs, hc, hf⟩ := d.runRegs_shows e cyc
  have hen : ∀ q, (d.runRegs e cyc).en q = d.en q := fun q => Dev.en_congr (by rw [hl]) q
  have hsh : ∀ h, (d.runRegs e cyc).sh h = d.sh h := fun h => Dev.sh_congr (by rw [hl]) h
  rw [Dev.closeRun_eq]
  generalize d.runRegs e cyc = R at hl hs hc hf hen hsh
  unfold Dev.markEnded
  dsimp only
  generalize hS : R.setSh (e / 8) { R.sh (e / 8) with usedNow := (R.sh (e / 8)).usedNow + cyc } = S
  have hSo : S = { R with sch := S.sch } := by rw [← hS]; exact Dev.setSh_only _ _ _
  have hSh : (S.sh (e / 8)).plan = (d.sh (e / 8)).plan := by
    rw [← hS, Dev.setSh_sh_self]
    show (R.sh (e / 8)).plan = _
    rw [hsh]
  generalize hT : S.setSh (e / 8) { S.sh (e / 8) with plan := (S.sh (e / 8)).plan.map fun p =>
    if p.job == (d.en e).job then { p with started := true, ended := true, endAt := (d.en e).base + cyc } else p } = T
  have hTo : T = { S with sch := T.sch } := by rw [← hT]; exact Dev.setSh_only _ _ _
  have hTp : (T.sh (e / 8)).plan = (d.sh (e / 8)).plan.map fun p =>
      if p.job == (d.en e).job then { p with started := true, ended := true, endAt := (d.en e).base + cyc } else p := by
    rw [← hT, Dev.setSh_sh_self, hSh]
  have hTR : T = { R with sch := T.sch } := by rw [hTo, hSo]
  have hlive : T.live = R.live := by rw [hTR]
  have hTen : ∀ q, T.en q = d.en q := fun q => (Dev.en_congr (by rw [hTR]) q).trans (hen q)
  refine ⟨?_, ?_, fun q hq => ?_, hs.trans (.of_live hlive), (Dev.rd_congr _ _ _ hlive).trans hc, (Dev.rd_congr _ _ _ hlive).trans hf, hTp⟩
  · have : T = { d with live := T.live, sch := T.sch } := by rw [hTR, hl]
    rw [this]
    rfl
  · rw [Dev.en_modEn, if_pos rfl, hTen]
  · rw [Dev.en_modEn, if_neg (Ne.symm hq), hTen]

/-! ### A run that is cut -/

theorem Dev.OnlyMem.refl (d : Dev) : Dev.OnlyMem d d := rfl

theorem Dev.setHm_onlyMem (d : Dev) (h : Nat) (x : HMem) : Dev.OnlyMem d (d.setHm h x) := by
  unfold Dev.OnlyMem Dev.setHm
  split <;> rfl

theorem Dev.OnlyMem.foldl {α : Type} {f : Dev → α → Dev} (hf : ∀ d a, Dev.OnlyMem d (f d a)) (l : List α) (d : Dev) :
    Dev.OnlyMem d (l.foldl f d) := by
  induction l generalizing d with
  | nil => exact .refl d
  | cons a l ih => exact (hf d a).trans (ih _)

theorem Dev.fillOutputs_onlyMem (d : Dev) (h : Nat) (j : Job) (oc : Nat) : Dev.OnlyMem d (d.fillOutputs h j oc) := by
  unfold Dev.fillOutputs
  refine .foldl (fun d c => ?_) _ d
  dsimp only
  split
  · exact d.setHm_onlyMem h _
  · split <;> exact d.setHm_onlyMem h _

theorem Dev.cutRun_running {d : Dev} {e : Nat} (hr : (d.en e).running = true) (oc reason cyc : Nat) : d.cutRun e oc reason cyc =
    if (d.en e).slack then
      ((((d.closeRun e cyc).fillOutputs (e / 8) ((d.closeRun e cyc).jobF (d.en e).job) oc).setRes (d.en e).job oc reason).servePending (d.en e).job)
    else ((d.closeRun e cyc).fillOutputs (e / 8) ((d.closeRun e cyc).jobF (d.en e).job) oc).setRes (d.en e).job oc reason := by
  unfold Dev.cutRun
  dsimp only
  rw [if_neg (by rw [hr]; decide)]

/-- What a cut of the run on engine `e` after `cyc` cycles leaves of the device `d`. -/
structure Dev.Cut (e : Eng) (cyc oc reason : Nat) (d D : Dev) : Prop where
  only : D = { d with live := D.live, sch := D.sch, eng := { d.eng with e := D.eng.e }, mem := D.mem }
  en : D.en e = { d.en e with running := false, miss := none, wait := none, freeAt := (d.en e).base + cyc }
  other : ∀ q, q ≠ e.val → D.en q = d.en q
  same : Dev.SameBut (runFields e) d D
  cycles : D.rd (Reg.ENG_CYC_COUNT e) = (d.rd (Reg.ENG_CYC_COUNT e) + cyc) % 2 ^ 32
  flags : D.rd (Reg.ENG_FLAGS_FLAGS e) = d.rd (Reg.ENG_FLAGS_FLAGS e) ||| (d.en e).flags.toNat
  plan : (D.sh (e / 8)).plan = (d.sh (e / 8)).plan.map fun p =>
    if p.job == (d.en e).job then { p with started := true, ended := true, endAt := (d.en e).base + cyc } else p
  res : D.resOf (d.en e).job = (oc, reason)

theorem Dev.Closed.cut {e : Eng} {cyc oc reason : Nat} {d C F D : Dev} (hC : Dev.Closed e cyc d C) (hF : Dev.OnlyMem C F)
    (hD : D = { F with sch := D.sch }) (hsh : ∀ h, D.sh h = F.sh h) (hres : D.resOf (d.en e).job = (oc, reason)) :
    Dev.Cut e cyc oc reason d D := by
  have hDC : D = { C with sch := D.sch, mem := D.mem } := by rw [hD, hF]
  have hlive : D.live = C.live := by rw [hDC]
  have heng : D.eng = C.eng := by rw [hDC]
  have hFsch : F.sch = C.sch := by rw [hF]
  refine ⟨?_, ?_, fun q hq => ?_, hC.same.trans (.of_live hlive), (Dev.rd_congr _ _ _ hlive).trans hC.cycles,
    (Dev.rd_congr _ _ _ hlive).trans hC.flags, ?_, hres⟩
  · rw [heng, hlive, hDC, hC.only]
  · rw [Dev.en_congr heng, hC.en]
  · rw [Dev.en_congr heng, hC.other q hq]
  · rw [hsh, Dev.sh_congr hFsch, hC.plan]

theorem Dev.resOf_setRes (d : Dev) (k oc reason : Nat) : (d.setRes k oc reason).resOf k = (oc, reason) :=
  (Sparse.get_put _ _ _ _ _).trans (if_pos rfl)

theorem Dev.cutRun_cuts {d : Dev} {e : Eng} (hr : (d.en e).running = true) (oc reason cyc : Nat) :
    Dev.Cut e cyc oc reason d (d.cutRun e oc reason cyc) := by
  have hC := d.closeRun_closed e cyc
  rw [Dev.cutRun_running hr]
  generalize d.closeRun e cyc = C at hC
  have hF := C.fillOutputs_onlyMem (e / 8) (C.jobF (d.en e).job) oc
  generalize C.fillOutputs (e / 8) (C.jobF (d.en e).job) oc = F at hF
  have hres := F.resOf_setRes (d.en e).job oc reason
  split
  · exact hC.cut hF rfl (fun _ => rfl) hres
  · exact hC.cut hF rfl (fun _ => rfl) hres

/-! ### A takeover trigger -/

theorem Dev.hearthFault_active {d : Dev} {h : Nat} (ha : (d.hh h).st = .active) (cause : Nat) : d.hearthFault h cause =
    ({ d with hrt := { d.hrt with swapPend := false, swapAt := none } } : Dev).setHh h { d.hh h with trig := some ((d.hh h).trig.getD cause) } := by
  unfold Dev.hearthFault
  dsimp only
  rw [ha]

/-- A trigger of the ACTIVE hearth `h`, and nothing else: what the fault leaves of the device `d`. -/
structure Dev.Armed (h cause : Nat) (d D : Dev) : Prop where
  only : D = { d with hrt := D.hrt }
  trig : (D.hh h).trig = some ((d.hh h).trig.getD cause)
  active : (D.hh h).st = .active
  other : D.hh (1 - h) = d.hh (1 - h)
  swap : D.hrt.swapPend = false ∧ D.hrt.swapAt = none

theorem Dev.hearthFault_armed {d : Dev} {h : Nat} (hh : h < 2) (ha : (d.hh h).st = .active) (cause : Nat) :
    Dev.Armed h cause d (d.hearthFault h cause) := by
  rw [Dev.hearthFault_active ha]
  obtain rfl | rfl : h = 0 ∨ h = 1 := by omega
  · exact ⟨rfl, rfl, ha, rfl, rfl, rfl⟩
  · exact ⟨rfl, rfl, ha, rfl, rfl, rfl⟩

/-- The statements' trigger, from that of the device and what came before it. -/
theorem Dev.Armed.claims {s t : State} {h cause : Nat} {d D : Dev} (hA : Dev.Armed h cause d D) (hd : d.hrt = s.dev.hrt)
    (ht : t.dev.hrt = D.hrt) : Claims.Armed s t h cause := by
  have hold : ∀ i, d.hh i = s.dev.hh i := fun i => by rw [Dev.hh, hd, Dev.hh]
  have hnew : ∀ i, t.dev.hh i = D.hh i := fun i => by rw [Dev.hh, ht, Dev.hh]
  refine ⟨?_, ?_, ?_, ?_, ?_⟩
  · rw [hnew, hA.trig, hold]
  · rw [hnew, hA.active]
  · rw [hnew, hA.other, hold]
  · rw [ht]; exact hA.swap.1
  · rw [ht]; exact hA.swap.2

/-! ### A fault of an engine -/

/-- The fault noted: the engine is FAILED and ENGFAIL posted. -/
def Dev.faulted (d : Dev) (e reason : Nat) : Dev :=
  ((d.modEn e fun g => { g with st := 2 }).flag (Reg.ENG_STATUS_FAILED e)).post (20 + e / 8) 3 (e + reason * 2 ^ 8)

theorem Dev.capture_masked {d : Dev} {c : Nat} (h : d.rd Reg.DUMP_CFG_MASK / 2 ^ c % 2 = 0) : d.capture c = d := if_pos h

theorem Dev.engineFault_active {d : Dev} {e : Eng} {reason cyc : Nat} (hm : d.rd Reg.DUMP_CFG_MASK / 2 ^ 6 % 2 = 0)
    (ha : (d.hh (e.val / 8)).st = .active) : d.engineFault e reason cyc =
      (if (d.en e).running then (d.faulted e reason).closeRun e (max ((d.en e).next - 1) (min cyc (d.jobF (d.en e).job).wcet))
        else d.faulted e reason).hearthFault (e / 8) 1 := by
  have hsep : (Reg.ENG_STATUS_FAILED e).sep Reg.DUMP_CFG_MASK = true := (show ∀ e : Eng, (Reg.ENG_STATUS_FAILED e).sep Reg.DUMP_CFG_MASK = true by decide) e
  have hcap : (d.faulted e reason).capture 6 = d.faulted e reason := by
    refine Dev.capture_masked ?_
    rw [← hm]
    exact congrArg (fun x => x / 2 ^ 6 % 2) (Dev.rd_flag_sep (d.modEn e fun g => { g with st := 2 }) _ _ hsep)
  unfold Dev.engineFault
  dsimp only
  rw [show (((d.modEn e fun g => { g with st := 2 }).flag (Reg.ENG_STATUS_FAILED e)).post (20 + e.val / 8) 3 (e.val + reason * 2 ^ 8)).capture 6 =
    d.faulted e reason from hcap]
  exact if_pos ha

/-- What noting the fault of engine `e` leaves of the device `d`. -/
structure Dev.Faulted (e : Eng) (d D : Dev) : Prop where
  only : D = { d with live := D.live, evq := D.evq, eng := (d.setEn e { d.en e with st := 2 }).eng }
  en : D.en e = { d.en e with st := 2 }
  other : ∀ q, q ≠ e.val → D.en q = d.en q
  same : Dev.SameBut [Reg.ENG_STATUS_FAILED e] d D
  failed : D.rd (Reg.ENG_STATUS_FAILED e) = 1

theorem Dev.faulted_faulted (d : Dev) (e : Eng) (reason : Nat) : Dev.Faulted e d (d.faulted e reason) := by
  have hok : (Reg.ENG_STATUS_FAILED e).ok = true := (show ∀ e : Eng, (Reg.ENG_STATUS_FAILED e).ok = true by decide) e
  refine ⟨rfl, ?_, fun q hq => ?_, ?_, ?_⟩
  · exact (d.en_modEn e e fun g => { g with st := 2 }).trans (if_pos rfl)
  · exact (d.en_modEn e q fun g => { g with st := 2 }).trans (if_neg (Ne.symm hq))
  · exact (Dev.SameBut.of_live (d' := d.modEn e fun g => { g with st := 2 }) rfl).flag _ (by simp) hok
  · exact Dev.rd_flag _ _ hok

theorem Dev.Closed.failed {e : Eng} {cyc : Nat} {d D : Dev} (h : Dev.Closed e cyc d D) :
    D.rd (Reg.ENG_STATUS_FAILED e) = d.rd (Reg.ENG_STATUS_FAILED e) :=
  h.same.rd ((show ∀ e : Eng, Fld.clear (runFields e) (Reg.ENG_STATUS_FAILED e) = true by decide) e)

/-- The fault of an engine of the ACTIVE hearth, from any device: the engine has FAILED, its run has ended, and the trigger is armed. -/
structure Dev.FaultActive (e : Eng) (n reason : Nat) (d D : Dev) : Prop where
  only : D = { d with live := D.live, evq := D.evq, sch := D.sch, eng := { d.eng with e := D.eng.e }, hrt := D.hrt }
  evq : D.evq = (d.post (20 + e.val / 8) 3 (e + reason * 2 ^ 8)).evq
  st : (D.en e).st = 2
  other : ∀ q, q ≠ e.val → D.en q = d.en q
  failed : D.rd (Reg.ENG_STATUS_FAILED e) = 1
  armed : ∃ E : Dev, E.hrt = d.hrt ∧ Dev.Armed (e.val / 8) 1 E D
  idle : (d.en e).running = false → Dev.SameBut [Reg.ENG_STATUS_FAILED e] d D ∧
    D = { d with live := D.live, evq := D.evq, eng := (d.setEn e { d.en e with st := 2 }).eng, hrt := D.hrt }
  running : (d.en e).running = true → (D.en e).running = false ∧
    D.rd (Reg.ENG_CYC_COUNT e) = (d.rd (Reg.ENG_CYC_COUNT e) + n) % 2 ^ 32 ∧
    D.rd (Reg.ENG_FLAGS_FLAGS e) = d.rd (Reg.ENG_FLAGS_FLAGS e) ||| (d.en e).flags.toNat

theorem Dev.engineFault_faultActive {d : Dev} {e : Eng} {reason cyc : Nat} (hm : d.rd Reg.DUMP_CFG_MASK / 2 ^ 6 % 2 = 0)
    (ha : (d.hh (e.val / 8)).st = .active) :
    Dev.FaultActive e (max ((d.en e).next - 1) (min cyc (d.jobF (d.en e).job).wcet)) reason d (d.engineFault e reason cyc) := by
  have hlt : e.val / 8 < 2 := by omega
  have hF := d.faulted_faulted e reason
  have hev : (d.faulted e reason).evq = (d.post (20 + e.val / 8) 3 (e + reason * 2 ^ 8)).evq := rfl
  rw [Dev.engineFault_active hm ha]
  generalize max ((d.en e).next - 1) (min cyc (d.jobF (d.en e).job).wcet) = n
  generalize d.faulted e reason = F at hF hev
  have hFh : F.hrt = d.hrt := by rw [hF.only]
  split
  case isTrue hrun =>
    have hC := F.closeRun_closed e n
    generalize F.closeRun e n = C at hC
    have hCh : C.hrt = d.hrt := by rw [hC.only]; exact hFh
    have hA := Dev.hearthFault_armed (d := C) hlt (by rw [Dev.hh, hCh]; exact ha) 1
    generalize C.hearthFault (e.val / 8) 1 = D at hA
    have hlive : D.live = C.live := by rw [hA.only]
    have hrd : ∀ f, D.rd f = C.rd f := fun f => Dev.rd_congr _ _ _ hlive
    have hen : ∀ q, D.en q = C.en q := fun q => Dev.en_congr (by rw [hA.only]) q
    have hcyc : F.rd (Reg.ENG_CYC_COUNT e) = d.rd (Reg.ENG_CYC_COUNT e) := hF.same.rd ((show ∀ e : Eng, Fld.clear [Reg.ENG_STATUS_FAILED e] (Reg.ENG_CYC_COUNT e) = true by decide) e)
    have hfl : F.rd (Reg.ENG_FLAGS_FLAGS e) = d.rd (Reg.ENG_FLAGS_FLAGS e) := hF.same.rd ((show ∀ e : Eng, Fld.clear [Reg.ENG_STATUS_FAILED e] (Reg.ENG_FLAGS_FLAGS e) = true by decide) e)
    refine ⟨?_, ?_, ?_, fun q hq => ?_, ?_, ⟨C, hCh, hA⟩, fun h => ?_, fun _ => ⟨?_, ?_, ?_⟩⟩
    · rw [hA.only, hC.only, hF.only]
      rfl
    · rw [hA.only, hC.only]
      exact hev
    · rw [hen, hC.en, hF.en]
    · rw [hen, hC.other q hq, hF.other q hq]
    · rw [hrd, hC.failed, hF.failed]
    · rw [hrun] at h
      cases h
    · rw [hen, hC.en]
    · rw [hrd, hC.cycles, hcyc]
    · rw [hrd, hC.flags, hfl, hF.en]
  case isFalse hrun =>
    have hA := Dev.hearthFault_armed (d := F) hlt (by rw [Dev.hh, hFh]; exact ha) 1
    generalize F.hearthFault (e.val / 8) 1 = D at hA
    have hlive : D.live = F.live := by rw [hA.only]
    have hrd : ∀ f, D.rd f = F.rd f := fun f => Dev.rd_congr _ _ _ hlive
    have hen : ∀ q, D.en q = F.en q := fun q => Dev.en_congr (by rw [hA.only]) q
    have honly : D = { d with live := D.live, evq := D.evq, eng := (d.setEn e { d.en e with st := 2 }).eng, hrt := D.hrt } := by
      rw [hA.only, hF.only]
    refine ⟨?_, ?_, ?_, fun q hq => ?_, ?_, ⟨F, hFh, hA⟩, fun _ => ⟨?_, honly⟩, fun h => absurd h hrun⟩
    · rw [honly]
      rfl
    · rw [hA.only]
      exact hev
    · rw [hen, hF.en]
    · rw [hen, hF.other q hq]
    · rw [hrd, hF.failed]
    · exact hF.same.trans (.of_live hlive)

/-- A device whose components other than registers and events are known is the stated frame. -/
theorem Dev.around_of_eq {x D : Dev} (h : D = { x with live := D.live, evq := D.evq }) : D.settle = Around x D.settle := by
  rw [h]
  rfl

theorem engineFault_active_runs (s : State) (e : Eng) (r : BitVec 8) (c : Nat) (ha : (s.dev.hh (e.val / 8)).st = .active)
    (hn : NoDump s 6) : ∃ t, Runs (.engineFault e r c) s t ∧ (t.dev.en e).st = 2 ∧ t.dev.rd (Reg.ENG_STATUS_FAILED e) = 1 ∧
      Claims.Armed s t (e.val / 8) 1 ∧ (∀ q, q ≠ e.val → t.dev.en q = s.dev.en q) ∧
      ((s.dev.en e).running = false → OnlyFields [Reg.ENG_STATUS_FAILED e] s t ∧
        t.dev = Around { WithEngine s e { s.dev.en e with st := 2 } with hrt := t.dev.hrt } t.dev) ∧
      ((s.dev.en e).running = true → RunClosed s t e (FaultCount s e c)) ∧
      (Room s → EntersAll s t [(20 + e.val / 8, 3, e + r.toNat * 2 ^ 8)]) := by
  have hF := Dev.engineFault_faultActive (d := s.dev) (e := e) (reason := r.toNat) (cyc := c) hn ha
  have hrun := runs_of_onDev (show exec (.engineFault e r c) s = onDev (fun d => d.engineFault e r.toNat c) s from rfl)
  generalize s.dev.engineFault e r.toNat c = D at hF hrun
  have hen : ∀ q, D.settle.en q = D.en q := fun q => Dev.en_of_rest (Dev.settle_rest _) q
  obtain ⟨E, hE, hA⟩ := hF.armed
  refine ⟨_, hrun, ?_, hF.failed, hA.claims hE rfl, fun q hq => (hen q).trans (hF.other q hq), fun hi => ?_, fun hr => ?_, fun hroom => ?_⟩
  · dsimp only
    rw [hen, hF.st]
  · obtain ⟨hs, ho⟩ := hF.idle hi
    exact ⟨(onlyFields_iff ..).mpr hs.settle, Dev.around_of_eq (x := { WithEngine s e { s.dev.en e with st := 2 } with hrt := D.hrt }) ho⟩
  · obtain ⟨h1, h2, h3⟩ := hF.running hr
    exact ⟨(congrArg EngS.running (hen e)).trans h1, h2, h3⟩
  · refine entersAll_of_room (20 + e.val / 8) (by omega) (by simp) (by simp) hroom ?_
    have htick : D.tick = s.dev.tick := by rw [hF.only]
    change D.evq.settle D.schTick = _
    rw [hF.evq, Dev.schTick, htick]
    change ({ s.dev.evq with posts := s.dev.evq.posts ++ [_] } : Evq).settle _ = _
    rw [hroom.2.1]
    rfl

/-! ### A fault elsewhere -/

theorem Dev.endPlaced_running {d : Dev} {e : Nat} (hr : (d.en e).running = true) (cyc : Nat) : d.endPlaced e cyc =
    (((d.cutRun e ocOV 0x88 cyc).sh (e / 8)).plan.filter fun p => p.eng == e % 8 && !p.ended).foldl
      (fun D p => (D.markEnded (e / 8) p.job ((d.en e).base + cyc)).notServed p.job ocOV 0x88) (d.cutRun e ocOV 0x88 cyc) := by
  unfold Dev.endPlaced
  dsimp only
  rw [if_pos hr, if_pos hr]

/-- Every entry of the plan on the engine is that of its run: nothing is left once the run has been cut. -/
theorem Dev.Cut.none_left {e : Eng} {cyc oc reason : Nat} {d D : Dev} (h : Dev.Cut e cyc oc reason d D)
    (hp : ∀ p ∈ (d.sh (e.val / 8)).plan, p.eng = e.val % 8 → p.ended = false → p.job = (d.en e).job) :
    ((D.sh (e.val / 8)).plan.filter fun p => p.eng == e.val % 8 && !p.ended) = [] := by
  rw [h.plan, List.filter_eq_nil_iff]
  intro q hq
  obtain ⟨p, hpm, rfl⟩ := List.mem_map.mp hq
  by_cases hj : (p.job == (d.en e).job) = true
  · rw [if_pos hj]
    simp
  · rw [if_neg hj]
    intro hc
    simp only [Bool.and_eq_true, beq_iff_eq, Bool.not_eq_true'] at hc
    exact hj (beq_iff_eq.mpr (hp p hpm hc.1 hc.2))

/-- The fields that an ash dump trigger writes. -/
def dumpFields : List Fld := [Reg.DUMP_LOSTCNT_COUNT, Reg.DUMP_STATUS_CNT_HALF, Reg.DUMP_STATUS_OVER, Reg.DUMP_STATUS_BUSY,
  Reg.DUMP_STATUS_CAPEV, Reg.DUMP_CNT_COUNT]

/-- A trigger of an ash dump touches its own registers and buffer, the events and the free values. -/
theorem Dev.capture_frame (d : Dev) (c : Nat) : Dev.SameBut dumpFields d (d.capture c) ∧ d.capture c =
    { d with live := (d.capture c).live, evq := (d.capture c).evq, dump := (d.capture c).dump, free := (d.capture c).free } := by
  have hs := Dev.SameBut.refl dumpFields d
  unfold Dev.capture
  split
  · exact ⟨hs, rfl⟩
  · split
    · have hl := d.count_onlyLive Reg.DUMP_LOSTCNT_COUNT Reg.DUMP_STATUS_CNT_HALF 1
      have hc := hs.count Reg.DUMP_LOSTCNT_COUNT Reg.DUMP_STATUS_CNT_HALF 1 (by decide) (by decide) (by decide) (by decide)
      generalize d.count Reg.DUMP_LOSTCNT_COUNT Reg.DUMP_STATUS_CNT_HALF 1 = C at hl hc
      refine ⟨hc.flag Reg.DUMP_STATUS_OVER (by decide) (by decide), ?_⟩
      rw [hl]
      rfl
    · dsimp only
      generalize ({ cause := c, tick := _, secs := _, nanos := _, fw := _, body := _, trace := _, klog := _ } : DumpRec) = r
      have h0 : Dev.SameBut dumpFields d { d with dump := { d.dump with buf := some r }, free := d.free + 4096 } := .of_live rfl
      have h1 := (h0.wr Reg.DUMP_STATUS_BUSY 1 (by decide) (by decide)).flag Reg.DUMP_STATUS_CAPEV (by decide) (by decide)
      have h2 : (({ d with dump := { d.dump with buf := some r }, free := d.free + 4096 } : Dev).wr Reg.DUMP_STATUS_BUSY 1).flag Reg.DUMP_STATUS_CAPEV =
          { d with live := ((({ d with dump := { d.dump with buf := some r }, free := d.free + 4096 } : Dev).wr Reg.DUMP_STATUS_BUSY 1).flag
            Reg.DUMP_STATUS_CAPEV).live, dump := { d.dump with buf := some r }, free := d.free + 4096 } := rfl
      generalize (({ d with dump := { d.dump with buf := some r }, free := d.free + 4096 } : Dev).wr Reg.DUMP_STATUS_BUSY 1).flag Reg.DUMP_STATUS_CAPEV = E at h1 h2
      have hl := E.count_onlyLive Reg.DUMP_CNT_COUNT Reg.DUMP_STATUS_CNT_HALF 1
      have hc := h1.count Reg.DUMP_CNT_COUNT Reg.DUMP_STATUS_CNT_HALF 1 (by decide) (by decide) (by decide) (by decide)
      generalize E.count Reg.DUMP_CNT_COUNT Reg.DUMP_STATUS_CNT_HALF 1 = C at hl hc
      refine ⟨hc, ?_⟩
      rw [hl, h2]
      rfl

/-- The device as the end of the run finds it: the fault noted and a dump captured. -/
theorem Dev.captured_faulted (d : Dev) (e : Eng) (reason : Nat) : let F := (d.faulted e reason).capture 6
    F.rd (Reg.ENG_STATUS_FAILED e) = 1 ∧ F.rd (Reg.ENG_CYC_COUNT e) = d.rd (Reg.ENG_CYC_COUNT e) ∧
    F.rd (Reg.ENG_FLAGS_FLAGS e) = d.rd (Reg.ENG_FLAGS_FLAGS e) ∧ F.en e = { d.en e with st := 2 } ∧ (∀ q, q ≠ e.val → F.en q = d.en q) ∧
    F.hrt = d.hrt ∧ F.sch = d.sch := by
  intro F
  have hN := d.faulted_faulted e reason
  obtain ⟨hs, ho⟩ := (d.faulted e reason).capture_frame 6
  change Dev.SameBut dumpFields _ F at hs
  change F = _ at ho
  generalize F = F at hs ho
  generalize d.faulted e reason = N at hN hs ho
  have hen : ∀ q, F.en q = N.en q := fun q => Dev.en_congr (by rw [ho]) q
  have f1 : F.rd (Reg.ENG_STATUS_FAILED e) = N.rd (Reg.ENG_STATUS_FAILED e) := hs.rd ((show ∀ e : Eng, Fld.clear dumpFields (Reg.ENG_STATUS_FAILED e) = true by decide) e)
  have f2 : F.rd (Reg.ENG_CYC_COUNT e) = N.rd (Reg.ENG_CYC_COUNT e) := hs.rd ((show ∀ e : Eng, Fld.clear dumpFields (Reg.ENG_CYC_COUNT e) = true by decide) e)
  have f3 : F.rd (Reg.ENG_FLAGS_FLAGS e) = N.rd (Reg.ENG_FLAGS_FLAGS e) := hs.rd ((show ∀ e : Eng, Fld.clear dumpFields (Reg.ENG_FLAGS_FLAGS e) = true by decide) e)
  have g2 : N.rd (Reg.ENG_CYC_COUNT e) = d.rd (Reg.ENG_CYC_COUNT e) := hN.same.rd ((show ∀ e : Eng, Fld.clear [Reg.ENG_STATUS_FAILED e] (Reg.ENG_CYC_COUNT e) = true by decide) e)
  have g3 : N.rd (Reg.ENG_FLAGS_FLAGS e) = d.rd (Reg.ENG_FLAGS_FLAGS e) := hN.same.rd ((show ∀ e : Eng, Fld.clear [Reg.ENG_STATUS_FAILED e] (Reg.ENG_FLAGS_FLAGS e) = true by decide) e)
  exact ⟨f1.trans hN.failed, f2.trans g2, f3.trans g3, (hen e).trans hN.en, fun q hq => (hen q).trans (hN.other q hq),
    by rw [ho, hN.only], by rw [ho, hN.only]⟩

theorem Dev.Cut.failed {e : Eng} {cyc oc reason : Nat} {d D : Dev} (h : Dev.Cut e cyc oc reason d D) :
    D.rd (Reg.ENG_STATUS_FAILED e) = d.rd (Reg.ENG_STATUS_FAILED e) :=
  h.same.rd ((show ∀ e : Eng, Fld.clear (runFields e) (Reg.ENG_STATUS_FAILED e) = true by decide) e)

theorem Dev.engineFault_elsewhere {d : Dev} {e : Eng} {reason : Nat} (cyc : Nat) (ha : (d.hh (e.val / 8)).st ≠ .active) :
    d.engineFault e reason cyc = ((d.faulted e reason).capture 6).endPlaced e (max ((d.en e).next - 1) (min cyc (d.jobF (d.en e).job).wcet)) := by
  have hh : (((d.faulted e reason).capture 6).hh (e.val / 8)) = d.hh (e.val / 8) := by
    obtain ⟨-, -, -, -, -, h, -⟩ := d.captured_faulted e reason
    rw [Dev.hh, h, Dev.hh]
  rw [← hh] at ha
  unfold Dev.engineFault
  exact if_neg ha

/-- A fault of a running engine of a hearth that is not ACTIVE ends the run, and nothing else was placed on the engine (R101). -/
theorem engineFault_elsewhere_runs (s : State) (e : Eng) (r : BitVec 8) (c : Nat) (ha : (s.dev.hh (e.val / 8)).st ≠ .active)
    (hr : (s.dev.en e).running = true)
    (hp : ∀ p ∈ (s.dev.sh (e.val / 8)).plan, p.eng = e.val % 8 → p.ended = false → p.job = (s.dev.en e).job) :
    ∃ t, Runs (.engineFault e r c) s t ∧ (t.dev.en e).st = 2 ∧ RunClosed s t e (FaultCount s e c) ∧
      t.dev.rd (Reg.ENG_STATUS_FAILED e) = 1 ∧ t.dev.resOf (s.dev.en e).job = (ocOV, 0x88) ∧
      (∀ q, q ≠ e.val → t.dev.en q = s.dev.en q) := by
  have hrun := runs_of_onDev (show exec (.engineFault e r c) s = onDev (fun d => d.engineFault e r.toNat c) s from rfl)
  rw [Dev.engineFault_elsewhere c ha] at hrun
  obtain ⟨h1, h2, h3, h4, h5, -, h7⟩ := s.dev.captured_faulted e r.toNat
  generalize (s.dev.faulted e r.toNat).capture 6 = F at hrun h1 h2 h3 h4 h5 h7
  have hFr : (F.en e).running = true := by rw [h4]; exact hr
  have hC := Dev.cutRun_cuts hFr ocOV 0x88 (FaultCount s e c)
  have hnone := hC.none_left (by rw [Dev.sh_congr h7, h4]; exact hp)
  rw [Dev.endPlaced_running hFr] at hrun
  change Runs _ s { s with dev := ((((F.cutRun e ocOV 0x88 (FaultCount s e c)).sh (e.val / 8)).plan.filter fun p =>
    p.eng == e.val % 8 && !p.ended).foldl _ (F.cutRun e ocOV 0x88 (FaultCount s e c))).settle } at hrun
  rw [hnone, List.foldl_nil] at hrun
  generalize F.cutRun e ocOV 0x88 (FaultCount s e c) = D at hrun hC
  have hen : ∀ q, D.settle.en q = D.en q := fun q => Dev.en_of_rest (Dev.settle_rest _) q
  refine ⟨_, hrun, ?_, ⟨?_, ?_, ?_⟩, hC.failed.trans h1, ?_, fun q hq => ?_⟩
  · dsimp only
    rw [hen, hC.en, h4]
  · dsimp only
    rw [hen, hC.en]
  · rw [← h2]
    exact hC.cycles
  · dsimp only
    rw [← h3, Dev.settle_rd, hC.flags, h4]
  · have := hC.res
    rw [h4] at this
    exact this
  · exact (hen q).trans ((hC.other q hq).trans (h5 q hq))

/-! ### Errors of the instruction SRAM and dropped rails -/

theorem isramUe_elsewhere (s : State) (h : Hearth) (n : Nat) (ha : (s.dev.hh (hIx h)).st ≠ .active) :
    ∃ t, Runs (.isramUe h n none) s t ∧ Keeps [] s t { s.dev with eng := { s.dev.eng with isBad := (hIx h, n) :: s.dev.eng.isBad } } := by
  have hrun := runs_of_onDev (show exec (.isramUe h n none) s = onDev (fun d =>
    if (({ d with eng := { d.eng with isBad := (hIx h, n) :: d.eng.isBad } } : Dev).hh (hIx h)).st = .active
    then ({ d with eng := { d.eng with isBad := (hIx h, n) :: d.eng.isBad } } : Dev).hearthFault (hIx h) 3
    else { d with eng := { d.eng with isBad := (hIx h, n) :: d.eng.isBad } }) s from rfl)
  dsimp only at hrun
  rw [if_neg (by exact ha)] at hrun
  exact ⟨_, hrun, fun _ _ => rfl, rfl⟩

/-- A trigger armed on a device that differs from the state's by other components. -/
theorem Dev.Armed.keeps {s : State} {h cause : Nat} {d D : Dev} (hA : Dev.Armed h cause d D) (hl : d.live = s.dev.live) (a : Nat) :
    ({ s with dev := D.settle } : State).dev.word a = s.dev.word a :=
  Dev.word_of_live (show D.settle.live = s.dev.live by rw [Dev.settle_live, hA.only]; exact hl) a

theorem isramUe_active (s : State) (h : Hearth) (n : Nat) (ha : (s.dev.hh (hIx h)).st = .active) :
    ∃ t, Runs (.isramUe h n none) s t ∧ Claims.Armed s t (hIx h) 3 ∧ Keeps [] s t { s.dev with
      hrt := t.dev.hrt, eng := { s.dev.eng with isBad := (hIx h, n) :: s.dev.eng.isBad } } := by
  have hlt : hIx h < 2 := by cases h <;> decide
  have hrun := runs_of_onDev (show exec (.isramUe h n none) s = onDev (fun d =>
    if (({ d with eng := { d.eng with isBad := (hIx h, n) :: d.eng.isBad } } : Dev).hh (hIx h)).st = .active
    then ({ d with eng := { d.eng with isBad := (hIx h, n) :: d.eng.isBad } } : Dev).hearthFault (hIx h) 3
    else { d with eng := { d.eng with isBad := (hIx h, n) :: d.eng.isBad } }) s from rfl)
  dsimp only at hrun
  rw [if_pos (by exact ha)] at hrun
  have hA := Dev.hearthFault_armed (d := { s.dev with eng := { s.dev.eng with isBad := (hIx h, n) :: s.dev.eng.isBad } }) hlt ha 3
  generalize Dev.hearthFault _ (hIx h) 3 = D at hrun hA
  exact ⟨_, hrun, hA.claims rfl rfl, fun a _ => hA.keeps rfl a,
    Dev.around_of_eq (x := { s.dev with hrt := D.hrt, eng := { s.dev.eng with isBad := (hIx h, n) :: s.dev.eng.isBad } }) (by rw [hA.only])⟩

theorem isramUe_fetch (s : State) (h : Hearth) (n : Nat) (ha : (s.dev.hh (hIx h)).st = .active) (e : Eng) (he : e.val / 8 = hIx h)
    (hn : NoDump s 6) : ∃ t, Runs (.isramUe h n (some e)) s t ∧ Claims.Armed s t (hIx h) 1 ∧
      (t.dev.en e).st = 2 ∧ t.dev.rd (Reg.ENG_STATUS_FAILED e) = 1 ∧
      ((s.dev.en e).running = true → RunClosed s t e ((s.dev.en e).next - 1)) ∧
      t.dev = Around { s.dev with hrt := t.dev.hrt, free := s.dev.free + 1, eng := t.dev.eng, sch := t.dev.sch } t.dev := by
  have hrun := runs_of_onDev (show exec (.isramUe h n (some e)) s = onDev (fun d =>
    ({ d with eng := { d.eng with isBad := (hIx h, n) :: d.eng.isBad }, free := d.free + 1 } : Dev).engineFault e
      ((Config.freeWord d.free).toNat % 2 ^ 8) 0) s from rfl)
  dsimp only at hrun
  have hF := Dev.engineFault_faultActive (d := { s.dev with eng := { s.dev.eng with isBad := (hIx h, n) :: s.dev.eng.isBad }, free := s.dev.free + 1 })
    (e := e) (reason := (Config.freeWord s.dev.free).toNat % 2 ^ 8) (cyc := 0) hn (by rw [he]; exact ha)
  generalize Dev.engineFault _ e.val _ 0 = D at hrun hF
  have hen : ∀ q, D.settle.en q = D.en q := fun q => Dev.en_of_rest (Dev.settle_rest _) q
  obtain ⟨E, hE, hA⟩ := hF.armed
  rw [he] at hA
  rw [Nat.zero_min, Nat.max_zero] at hF
  refine ⟨_, hrun, hA.claims hE rfl, (congrArg EngS.st (hen e)).trans hF.st, hF.failed, fun hr => ?_,
    Dev.around_of_eq (x := { s.dev with hrt := D.hrt, free := s.dev.free + 1, eng := D.eng, sch := D.sch }) (by rw [hF.only])⟩
  obtain ⟨h1, h2, h3⟩ := hF.running hr
  exact ⟨(congrArg EngS.running (hen e)).trans h1, h2, h3⟩

theorem railDrop_active (s : State) (h : Hearth) (ha : (s.dev.hh (hIx h)).st = .active) :
    ∃ t, Runs (.railDrop h) s t ∧ Claims.Armed s t (hIx h) 5 ∧ Keeps [] s t { s.dev with hrt := t.dev.hrt } := by
  have hlt : hIx h < 2 := by cases h <;> decide
  have hrun := runs_of_onDev (show exec (.railDrop h) s = onDev (fun d => d.hearthFault (hIx h) 5) s from rfl)
  have hA := Dev.hearthFault_armed (d := s.dev) hlt ha 5
  generalize s.dev.hearthFault (hIx h) 5 = D at hrun hA
  exact ⟨_, hrun, hA.claims rfl rfl, fun a _ => hA.keeps rfl a, Dev.around_of_eq (x := { s.dev with hrt := D.hrt }) (by rw [hA.only])⟩

theorem isramRewrite_mends (s : State) (h : Hearth) (n : Nat) : ∃ t, Runs (.isramRewrite h n) s t ∧ Keeps [] s t { s.dev with
      eng := { s.dev.eng with isBad := t.dev.eng.isBad } } ∧ ∀ x, x ∈ t.dev.eng.isBad ↔ x ∈ s.dev.eng.isBad ∧ x ≠ (hIx h, n) := by
  have hrun := runs_of_onDev (show exec (.isramRewrite h n) s = onDev (fun d =>
    { d with eng := { d.eng with isBad := d.eng.isBad.filter (· != (hIx h, n)) } }) s from rfl)
  refine ⟨_, hrun, ⟨fun _ _ => rfl, rfl⟩, fun x => ?_⟩
  change x ∈ s.dev.eng.isBad.filter (· != (hIx h, n)) ↔ _
  rw [List.mem_filter, bne_iff_ne]

/-! ### Errors of grate memory -/

/-- The counter of a hearth's uncorrectable errors of grate memory (R195). -/
def gueCount (i : Nat) : Fld := if i = 0 then Reg.PGU_GUEA_COUNT else Reg.PGU_GUEB_COUNT

/-- An uncorrectable error of grate memory as every one is noted (R195). -/
def Dev.gueNoted (d : Dev) (i page : Nat) : Dev :=
  ((d.count (gueCount i) Reg.PGU_STATUS_CNT_HALF).flag Reg.PGU_STATUS_UE).post 6 6 (i + page * 2)

/-- What noting an error counted in `c` leaves of the device `d`. -/
structure Dev.Noted (c flag : Fld) (d D : Dev) : Prop where
  only : D = { d with live := D.live, evq := D.evq }
  same : Dev.SameBut [c, flag, Reg.PGU_STATUS_CNT_HALF] d D
  counted : D.rd c = (d.rd c + 1) % 2 ^ c.width
  flagged : D.rd flag = 1

theorem Dev.noted_of_count (d : Dev) (c flag : Fld) (hc : c.ok = true) (hf : flag.ok = true) (hs : flag.sep c = true)
    (ha : Reg.PGU_STATUS_CNT_HALF.apart c = true) : Dev.Noted c flag d ((d.count c Reg.PGU_STATUS_CNT_HALF).flag flag) := by
  have hl := d.count_onlyLive c Reg.PGU_STATUS_CNT_HALF 1
  refine ⟨?_, ?_, ?_, Dev.rd_flag _ _ hf⟩
  · generalize d.count c Reg.PGU_STATUS_CNT_HALF 1 = C at hl
    rw [hl]
    rfl
  · exact ((Dev.SameBut.refl _ d).count _ _ 1 (by simp) (by simp) hc (by decide)).flag _ (by simp) hf
  · rw [Dev.rd_flag_sep _ _ _ hs, Dev.rd_count _ _ _ _ hc (by decide) ha]

theorem Dev.gueNoted_noted (d : Dev) (i page : Nat) : Dev.Noted (gueCount i) Reg.PGU_STATUS_UE d (d.gueNoted i page) := by
  have h : Dev.Noted (gueCount i) Reg.PGU_STATUS_UE d ((d.count (gueCount i) Reg.PGU_STATUS_CNT_HALF).flag Reg.PGU_STATUS_UE) := by
    unfold gueCount
    split <;> exact d.noted_of_count _ _ (by decide) (by decide) (by decide) (by decide)
  obtain ⟨ho, hs, hc, hf⟩ := h
  refine ⟨?_, hs, hc, hf⟩
  unfold Dev.gueNoted
  generalize (d.count (gueCount i) Reg.PGU_STATUS_CNT_HALF).flag Reg.PGU_STATUS_UE = C at ho
  rw [ho]
  rfl

/-- The memory fault of the engine that read the word (R102). -/
def Dev.memFault (d : Dev) (i : Nat) : Option Eng → Dev
  | some e => if e.val / 8 = i ∧ (d.en e).running then d.cutRun e ocOV 0x89 ((d.en e).next - 1) else d
  | none => d

theorem gue_runs (s : State) (h : Hearth) (n : Nat) (by_ : Option Eng) {D : Dev}
    (hD : (let d := s.dev.gueNoted (hIx h) (n / 1024 % 2048)
      if (d.hm (hIx h)).poison.contains (n / 2) then d.memFault (hIx h) by_
      else match (d.hh (hIx h)).st with
        | .active => d.hearthFault (hIx h) 2
        | .standby | .syncing => (d.memFault (hIx h) by_).standbyError (hIx h) (n / 1024 % 2048)
        | _ => d.memFault (hIx h) by_) = D) : Runs (.gue h n by_) s { s with dev := D.settle } := by
  rw [← hD]
  have hrun := runs_of_onDev (c := .gue h n by_) (show execGue h n by_ s = onDev _ s from rfl)
  cases h <;> cases by_ <;> exact hrun

theorem gue_active (s : State) (h : Hearth) (n : Nat) (by_ : Option Eng) (ha : (s.dev.hh (hIx h)).st = .active)
    (hp : (s.dev.hm (hIx h)).poison.contains (n / 2) = false) :
    ∃ t, Runs (.gue h n by_) s t ∧ Claims.Armed s t (hIx h) 2 ∧ t.dev.rd Reg.PGU_STATUS_UE = 1 ∧
      (let c := if hIx h = 0 then Reg.PGU_GUEA_COUNT else Reg.PGU_GUEB_COUNT
       t.dev.rd c = (s.dev.rd c + 1) % 2 ^ c.width ∧ OnlyFields [c, Reg.PGU_STATUS_UE, Reg.PGU_STATUS_CNT_HALF] s t) ∧
      t.dev = Around { s.dev with hrt := t.dev.hrt } t.dev ∧
      (Room s → EntersAll s t [(6, 6, hIx h + n / 1024 % 2048 * 2)]) := by
  have hlt : hIx h < 2 := by cases h <;> decide
  have hN := s.dev.gueNoted_noted (hIx h) (n / 1024 % 2048)
  have hev : (s.dev.gueNoted (hIx h) (n / 1024 % 2048)).evq =
      ({ s.dev.evq with posts := s.dev.evq.posts ++ [(6, 6, hIx h + n / 1024 % 2048 * 2)] } : Evq) := by
    unfold Dev.gueNoted
    have hl := s.dev.count_onlyLive (gueCount (hIx h)) Reg.PGU_STATUS_CNT_HALF 1
    generalize s.dev.count (gueCount (hIx h)) Reg.PGU_STATUS_CNT_HALF 1 = C at hl
    rw [hl]
    rfl
  have hrun := gue_runs s h n by_ rfl
  dsimp only at hrun
  generalize s.dev.gueNoted (hIx h) (n / 1024 % 2048) = N at hN hev hrun
  have hhrt : N.hrt = s.dev.hrt := by rw [hN.only]
  have hhh : N.hh (hIx h) = s.dev.hh (hIx h) := by rw [Dev.hh, hhrt, Dev.hh]
  have hhm : N.hm (hIx h) = s.dev.hm (hIx h) := Dev.hm_congr (by rw [hN.only]) _
  rw [hhm, if_neg (ne_true_of_eq_false hp), hhh, ha] at hrun
  have hA := Dev.hearthFault_armed (d := N) hlt (by rw [hhh]; exact ha) 2
  dsimp only at hrun
  generalize N.hearthFault (hIx h) 2 = D at hrun hA
  have hlive : D.live = N.live := by rw [hA.only]
  have hevq : D.evq = N.evq := by rw [hA.only]
  have htick : D.tick = s.dev.tick := by rw [hA.only, hN.only]
  refine ⟨_, hrun, hA.claims hhrt rfl, (Dev.rd_congr D N _ hlive).trans hN.flagged, ⟨(Dev.rd_congr D N _ hlive).trans hN.counted,
    (onlyFields_iff ..).mpr (hN.same.trans (.of_live hlive))⟩,
    Dev.around_of_eq (x := { s.dev with hrt := D.hrt }) (by rw [hA.only, hN.only]), fun hroom => ?_⟩
  refine entersAll_of_room 6 (by decide) (by simp) (by simp) hroom ?_
  change D.evq.settle D.schTick = _
  rw [hevq, hev, Dev.schTick, htick, hroom.2.1]
  rfl

theorem Dev.Cut.keeps_ue {e : Eng} {cyc oc reason : Nat} {d D : Dev} (h : Dev.Cut e cyc oc reason d D) :
    D.rd Reg.PGU_STATUS_UE = d.rd Reg.PGU_STATUS_UE :=
  h.same.rd ((show ∀ e : Eng, Fld.clear (runFields e) Reg.PGU_STATUS_UE = true by decide) e)

theorem gueFields_clear (h : Hearth) (e : Eng) :
    Fld.clear [gueCount (hIx h), Reg.PGU_STATUS_UE, Reg.PGU_STATUS_CNT_HALF] (Reg.ENG_CYC_COUNT e) = true ∧
      Fld.clear [gueCount (hIx h), Reg.PGU_STATUS_UE, Reg.PGU_STATUS_CNT_HALF] (Reg.ENG_FLAGS_FLAGS e) = true := by
  revert e
  cases h
  · decide
  · decide

theorem gue_poisoned (s : State) (h : Hearth) (n : Nat) (hp : (s.dev.hm (hIx h)).poison.contains (n / 2) = true) :
    (∃ t, Runs (.gue h n none) s t ∧ t.dev = Around s.dev t.dev ∧ t.dev.rd Reg.PGU_STATUS_UE = 1 ∧
      OnlyFields [if hIx h = 0 then Reg.PGU_GUEA_COUNT else Reg.PGU_GUEB_COUNT, Reg.PGU_STATUS_UE, Reg.PGU_STATUS_CNT_HALF] s t) ∧
    ∀ e : Eng, e.val / 8 = hIx h → (s.dev.en e).running = true →
      ∃ t, Runs (.gue h n (some e)) s t ∧ t.dev.resOf (s.dev.en e).job = (ocOV, 0x89) ∧
        RunClosed s t e ((s.dev.en e).next - 1) ∧ t.dev.hrt = s.dev.hrt ∧ t.dev.rd Reg.PGU_STATUS_UE = 1 := by
  have hN := s.dev.gueNoted_noted (hIx h) (n / 1024 % 2048)
  have hhm : (s.dev.gueNoted (hIx h) (n / 1024 % 2048)).hm (hIx h) = s.dev.hm (hIx h) := Dev.hm_congr (by rw [hN.only]) _
  have hrun : ∀ by_, Runs (.gue h n by_) s { s with dev := ((s.dev.gueNoted (hIx h) (n / 1024 % 2048)).memFault (hIx h) by_).settle } :=
    fun by_ => gue_runs s h n by_ (by dsimp only; rw [hhm, if_pos hp])
  generalize s.dev.gueNoted (hIx h) (n / 1024 % 2048) = N at hN hrun
  refine ⟨⟨_, hrun none, Dev.around_of_eq (x := s.dev) hN.only, hN.flagged, (onlyFields_iff ..).mpr hN.same⟩, fun e he hr => ?_⟩
  have heng : ∀ q, N.en q = s.dev.en q := fun q => Dev.en_congr (by rw [hN.only]) q
  have hcut : N.memFault (hIx h) (some e) = N.cutRun e ocOV 0x89 ((N.en e).next - 1) := if_pos ⟨he, by rw [heng]; exact hr⟩
  have hgo := hrun (some e)
  have hC := Dev.cutRun_cuts (d := N) (e := e) (by rw [heng]; exact hr) ocOV 0x89 ((N.en e).next - 1)
  rw [hcut] at hgo
  generalize N.cutRun e ocOV 0x89 ((N.en e).next - 1) = D at hgo hC
  rw [heng] at hC
  have hen : ∀ q, D.settle.en q = D.en q := fun q => Dev.en_of_rest (Dev.settle_rest _) q
  have hcyc : N.rd (Reg.ENG_CYC_COUNT e) = s.dev.rd (Reg.ENG_CYC_COUNT e) := hN.same.rd (gueFields_clear h e).1
  have hfl : N.rd (Reg.ENG_FLAGS_FLAGS e) = s.dev.rd (Reg.ENG_FLAGS_FLAGS e) := hN.same.rd (gueFields_clear h e).2
  refine ⟨_, hgo, ?_, ⟨?_, ?_, ?_⟩, ?_, hC.keeps_ue.trans hN.flagged⟩
  · have := hC.res
    rw [heng] at this
    exact this
  · dsimp only
    rw [hen, hC.en]
  · rw [← hcyc]
    exact hC.cycles
  · dsimp only
    rw [← hfl, Dev.settle_rd, hC.flags, heng]
  · change D.hrt = _
    rw [hC.only, hN.only]

theorem scrub_counts (s : State) (h : Hearth) (isram : Bool) (n : Nat) :
    let c := if isram then Reg.ENG_ISRAM_ECC_COUNT else if hIx h = 0 then Reg.PGU_GCEA_COUNT else Reg.PGU_GCEB_COUNT
    ∃ t, Runs (.scrub h isram n) s t ∧ t.dev = Around s.dev t.dev ∧ t.dev.rd c = (s.dev.rd c + 1) % 2 ^ c.width ∧
      (isram = false → t.dev.rd Reg.PGU_STATUS_CE = 1) ∧
      OnlyFields ([c] ++ if isram then [Reg.ENG_STATUS_CNT_HALF 0] else [Reg.PGU_STATUS_CE, Reg.PGU_STATUS_CNT_HALF]) s t := by
  intro c
  cases isram with
  | true =>
    have hrun := runs_of_onDev (show exec (.scrub h true n) s =
      onDev (fun d => d.count Reg.ENG_ISRAM_ECC_COUNT (Reg.ENG_STATUS_CNT_HALF 0)) s from rfl)
    have hl := s.dev.count_onlyLive Reg.ENG_ISRAM_ECC_COUNT (Reg.ENG_STATUS_CNT_HALF 0) 1
    refine ⟨_, hrun, Dev.around_of_eq (x := s.dev) ?_, Dev.rd_count s.dev Reg.ENG_ISRAM_ECC_COUNT (Reg.ENG_STATUS_CNT_HALF 0) 1 (by decide) (by decide) (by decide), by simp,
      (onlyFields_iff ..).mpr ((Dev.SameBut.refl _ s.dev).count Reg.ENG_ISRAM_ECC_COUNT (Reg.ENG_STATUS_CNT_HALF 0) 1 (by simp [c]) (by simp) (by decide) (by decide))⟩
    generalize s.dev.count Reg.ENG_ISRAM_ECC_COUNT (Reg.ENG_STATUS_CNT_HALF 0) 1 = C at hl
    rw [hl]
  | false =>
    have hN : Dev.Noted c Reg.PGU_STATUS_CE s.dev ((s.dev.count c Reg.PGU_STATUS_CNT_HALF).flag Reg.PGU_STATUS_CE) := by
      cases h
      · exact s.dev.noted_of_count Reg.PGU_GCEA_COUNT Reg.PGU_STATUS_CE (by decide) (by decide) (by decide) (by decide)
      · exact s.dev.noted_of_count Reg.PGU_GCEB_COUNT Reg.PGU_STATUS_CE (by decide) (by decide) (by decide) (by decide)
    have hrun : Runs (.scrub h false n) s { s with dev := ((s.dev.count c Reg.PGU_STATUS_CNT_HALF).flag Reg.PGU_STATUS_CE).settle } := by
      have := runs_of_onDev (c := .scrub h false n) (show execScrub h false n s = onDev _ s from rfl)
      cases h <;> exact this
    exact ⟨_, hrun, Dev.around_of_eq (x := s.dev) hN.only, hN.counted, fun _ => hN.flagged, (onlyFields_iff ..).mpr hN.same⟩

/-- Settles O41: a fault of an ACTIVE hearth arms its trigger, one elsewhere ends the run that it meets. -/
theorem faultsReachTheHearth : Obligations.FaultsReachTheHearth := by
  unfold Obligations.FaultsReachTheHearth
  refine ⟨fun s e r c => engineFault_active_runs s e r c, fun s e r c ha hr hp => engineFault_elsewhere_runs s e r c ha hr hp,
    isramUe_elsewhere, fun s h n ha => ⟨isramUe_active s h n ha, fun e he hn => isramUe_fetch s h n ha e he hn, railDrop_active s h ha,
      fun by_ hp => gue_active s h n by_ ha hp⟩, gue_poisoned, isramRewrite_mends, scrub_counts⟩

end Sys2Proof.Machine
end

section
/-! The loader: LOAD, UNLOAD and QUERY end with their result (R140, R153, R154, R158). -/
namespace Sys2Proof.Machine
open Sys2Proof.Claims

/-- The argument fields of the loader command `op`. -/
def loaderArgs (op id hm : Nat) : List (Fld × Nat) := [(Reg.ENG_LDCMD_PROG_ID, id), (Reg.ENG_LDCMD_HMASK, hm), (Reg.ENG_LDCMD_OP, op)]

theorem loaderArgs_addr {op id hm : Nat} {x : Fld × Nat} (hx : x ∈ loaderArgs op id hm) : x.1.addr = 0x21000 := by
  simp only [loaderArgs, List.mem_cons, List.not_mem_nil, or_false] at hx
  obtain rfl | rfl | rfl := hx <;> rfl

/-- What the device that a loader command finds has of the state before. -/
structure LoaderFinds (s : State) (op id hm : Nat) (D : Dev) : Prop where
  body : D.body = s.dev.body
  fab : D.fab = s.dev.fab.scanOf D.fab
  evq : D.evq = s.dev.evq
  word : ∀ a, a ≠ 0x21000 → D.word a = s.dev.word a
  id : D.rd Reg.ENG_LDCMD_PROG_ID = id
  hmask : D.rd Reg.ENG_LDCMD_HMASK = hm
  op : D.rd Reg.ENG_LDCMD_OP = op

theorem loader_finds {s : State} {h : Agent} {op id hm : Nat} (hop : op < 4) (hid : id < 4096) (hhm : hm < 4) :
    LoaderFinds s op id hm (s.dev.opened h Reg.ENG_LDCMD_GO (loaderArgs op id hm)) ∧
      (s.dev.opened h Reg.ENG_LDCMD_GO (loaderArgs op id hm)).rd Reg.ENG_LDCMD_GO = s.dev.rd Reg.ENG_LDCMD_GO := by
  obtain ⟨hb, hfab, hevq, hw⟩ := s.dev.opened_loads h Reg.ENG_LDCMD_GO (loaderArgs op id hm)
  have h1 : Fld.sep Reg.ENG_LDCMD_HMASK Reg.ENG_LDCMD_PROG_ID = true := by decide
  have h2 : Fld.sep Reg.ENG_LDCMD_OP Reg.ENG_LDCMD_PROG_ID = true := by decide
  have h3 : Fld.sep Reg.ENG_LDCMD_OP Reg.ENG_LDCMD_HMASK = true := by decide
  have g1 : Fld.sep Reg.ENG_LDCMD_PROG_ID Reg.ENG_LDCMD_GO = true := by decide
  have g2 : Fld.sep Reg.ENG_LDCMD_HMASK Reg.ENG_LDCMD_GO = true := by decide
  have g3 : Fld.sep Reg.ENG_LDCMD_OP Reg.ENG_LDCMD_GO = true := by decide
  refine ⟨⟨hb, hfab, hevq, fun a ha => hw a fun x hx => by rw [loaderArgs_addr hx]; exact ha.symm, ?_, ?_, Dev.load_rd _ _ _ rfl hop⟩, ?_⟩
  · exact (Dev.load_rd_sep _ _ _ _ h2).trans ((Dev.load_rd_sep _ _ _ _ h1).trans (Dev.load_rd _ _ _ rfl hid))
  · exact (Dev.load_rd_sep _ _ _ _ h3).trans (Dev.load_rd _ _ _ rfl hhm)
  · exact (Dev.load_rd_sep _ _ _ _ g3).trans ((Dev.load_rd_sep _ _ _ _ g2).trans ((Dev.load_rd_sep _ _ _ _ g1).trans
      (Dev.rd_of_word (s.dev.touch_word ..))))

theorem LoaderFinds.go {s : State} {op id hm : Nat} {D : Dev} (h : LoaderFinds s op id hm D) : LoaderFinds s op id hm (D.wr Reg.ENG_LDCMD_GO 1) := by
  refine ⟨h.body, h.fab, h.evq, fun a ha => (D.word_wr_ne _ _ _ (Ne.symm ha)).trans (h.word a ha), ?_, ?_, ?_⟩
  · rw [Dev.rd_wr_sep _ _ _ _ (by decide), h.id]
  · rw [Dev.rd_wr_sep _ _ _ _ (by decide), h.hmask]
  · rw [Dev.rd_wr_sep _ _ _ _ (by decide), h.op]

theorem ldRow_eq {s : State} {h : Agent} (hr : Ready s h Reg.ENG_LDCMD_GO true) (op : Nat) (id : BitVec 12) (hm : BitVec 2) :
    ldRow h op id hm s = .next { s with dev := (s.dev.opened h Reg.ENG_LDCMD_GO (loaderArgs op id.toNat hm.toNat)).ldGo.settle } := by
  rw [← Dev.hostCmd_opened s.dev h Reg.ENG_LDCMD_GO (loaderArgs op id.toNat hm.toNat) Dev.ldGo hr.1 hr.2
    fun x hx => by rw [loaderArgs_addr hx]; decide]
  rfl

/-- A loader command that finds no other in progress runs on what it finds. -/
theorem ldRow_runs {s : State} {h : Agent} (hr : Ready s h Reg.ENG_LDCMD_GO true) (hoff : s.dev.on Reg.ENG_LDCMD_GO = false) {op : Nat}
    (hop : op < 4) (id : BitVec 12) (hm : BitVec 2) : ∃ D, LoaderFinds s op id.toNat hm.toNat D ∧ D.rd Reg.ENG_LDCMD_GO = 1 ∧
      ldRow h op id hm s = .next { s with dev := D.ldStep.settle } := by
  obtain ⟨hD, hgo⟩ := loader_finds (s := s) (h := h) hop id.isLt hm.isLt
  have hrow := ldRow_eq hr op id hm
  generalize s.dev.opened h Reg.ENG_LDCMD_GO (loaderArgs op id.toNat hm.toNat) = D at hD hgo hrow
  rw [Dev.ldGo, Dev.cmdGo_off _ (by rw [Dev.on, hgo]; exact hoff)] at hrow
  exact ⟨_, hD.go, Dev.rd_wr_lt _ _ 1 (by decide) (by decide), hrow⟩

/-! ### The result of a loader command -/

/-- The registers of a result with `reason` for program `id`. -/
def Dev.ldShown (d : Dev) (id reason : Nat) : Dev :=
  ((((d.wr Reg.ENG_LDRES_REASON reason).wr Reg.ENG_LDRES_PROG_ID id).wr Reg.ENG_LDRES_REFUSED (bit (reason != 0))).wr
    Reg.ENG_LDRES_VALID 1).flag (Reg.ENG_STATUS_LDDONE 0)

theorem bit_ne_zero (c : Nat) : bit (c != 0) = if c = 0 then 0 else 1 := by
  by_cases h : c = 0 <;> simp [bit, h]

theorem Dev.ldShown_rd (d : Dev) {id c : Nat} (hid : id < 4096) (hc : c < 256) :
    (d.ldShown id c).rd Reg.ENG_LDRES_REASON = c ∧ (d.ldShown id c).rd Reg.ENG_LDRES_PROG_ID = id ∧
    (d.ldShown id c).rd Reg.ENG_LDRES_REFUSED = (if c = 0 then 0 else 1) ∧ (d.ldShown id c).rd Reg.ENG_LDRES_VALID = 1 ∧
    (d.ldShown id c).rd (Reg.ENG_STATUS_LDDONE 0) = 1 := by
  unfold Dev.ldShown
  refine ⟨?_, ?_, ?_, ?_, ?_⟩ <;> simp (disch := decide) only [Dev.rd_wr_sep, Dev.rd_wr, Dev.rd_flag_sep, Dev.rd_flag]
  · exact Nat.mod_eq_of_lt hc
  · exact Nat.mod_eq_of_lt hid
  · rw [bit_ne_zero]
    split <;> rfl
  · rfl

theorem Dev.ldShown_word (d : Dev) (id c : Nat) {a : Nat} (h1 : a ≠ 0x21008) (h2 : a ≠ 0x20004) : (d.ldShown id c).word a = d.word a := by
  unfold Dev.ldShown
  rw [Dev.word_flag_ne _ _ _ h2.symm, Dev.word_wr_ne _ _ _ _ h1.symm, Dev.word_wr_ne _ _ _ _ h1.symm, Dev.word_wr_ne _ _ _ _ h1.symm,
    Dev.word_wr_ne _ _ _ _ h1.symm]

theorem Dev.ldResult_eq (d : Dev) (c : Nat) : d.ldResult c = if c = 0 then d.ldShown (d.rd Reg.ENG_LDCMD_PROG_ID) c
    else (d.ldShown (d.rd Reg.ENG_LDCMD_PROG_ID) c).post 20 6
      (d.rd Reg.ENG_LDCMD_PROG_ID + c * 2 ^ 16 + (d.ldShown (d.rd Reg.ENG_LDCMD_PROG_ID) c).rd Reg.ENG_LDCMD_OP * 2 ^ 24) := rfl

/-- The device behind the result of a command on program `id` with operation `op`. -/
structure Dev.LdEnded (id op c : Nat) (d D : Dev) : Prop where
  body : D.body = d.body
  fab : D.fab = d.fab
  evq : D.evq = { d.evq with posts := d.evq.posts ++ if c = 0 then [] else [(20, 6, id + c * 2 ^ 16 + op * 2 ^ 24)] }
  word : ∀ a, a ≠ 0x21000 → a ≠ 0x21008 → a ≠ 0x20004 → D.word a = d.word a
  reason : D.rd Reg.ENG_LDRES_REASON = c
  prog : D.rd Reg.ENG_LDRES_PROG_ID = id
  refused : D.rd Reg.ENG_LDRES_REFUSED = (if c = 0 then 0 else 1)
  valid : D.rd Reg.ENG_LDRES_VALID = 1
  done : D.rd (Reg.ENG_STATUS_LDDONE 0) = 1
  go : D.rd Reg.ENG_LDCMD_GO = 0

theorem Dev.ldResult_ended {d : Dev} {id op c : Nat} (hid : d.rd Reg.ENG_LDCMD_PROG_ID = id) (hop : d.rd Reg.ENG_LDCMD_OP = op)
    (hlt : id < 4096) (hc : c < 256) : Dev.LdEnded id op c d ((d.ldResult c).wr Reg.ENG_LDCMD_GO 0) := by
  have hop' : (d.ldShown id c).rd Reg.ENG_LDCMD_OP = op := (Dev.rd_of_word (d.ldShown_word id c (by decide) (by decide))).trans hop
  rw [Dev.ldResult_eq, hid, hop']
  obtain ⟨h1, h2, h3, h4, h5⟩ := d.ldShown_rd hlt hc
  have hw := fun a => d.ldShown_word id c (a := a)
  have hb : (d.ldShown id c).body = d.body := rfl
  have hf : (d.ldShown id c).fab = d.fab := rfl
  have he : (d.ldShown id c).evq = d.evq := rfl
  generalize d.ldShown id c = S at h1 h2 h3 h4 h5 hw hb hf he
  have hpost : ∃ T : Dev, (if c = 0 then S else S.post 20 6 (id + c * 2 ^ 16 + op * 2 ^ 24)) = T ∧ T.body = S.body ∧ T.fab = S.fab ∧ T.live = S.live ∧
      T.evq = { d.evq with posts := d.evq.posts ++ if c = 0 then [] else [(20, 6, id + c * 2 ^ 16 + op * 2 ^ 24)] } := by
    refine ⟨_, rfl, ?_, ?_, ?_, ?_⟩ <;> split
    any_goals rfl
    · rw [List.append_nil]
      exact he
    · rw [← he]
      rfl
  obtain ⟨T, hT, hTb, hTf, hTl, hTe⟩ := hpost
  rw [hT]
  have hrd : ∀ g : Fld, Fld.sep Reg.ENG_LDCMD_GO g = true → (T.wr Reg.ENG_LDCMD_GO 0).rd g = S.rd g := fun g hg =>
    (Dev.rd_wr_sep _ _ _ _ hg).trans (Dev.rd_congr _ _ _ hTl)
  refine ⟨hTb.trans hb, hTf.trans hf, hTe, fun a ha h8 h4 => ?_, (hrd _ (by decide)).trans h1, (hrd _ (by decide)).trans h2,
    (hrd _ (by decide)).trans h3, (hrd _ (by decide)).trans h4, (hrd _ (by decide)).trans h5, Dev.rd_wr_lt _ _ 0 (by decide) (by decide)⟩
  rw [Dev.word_wr_ne _ _ _ _ (Ne.symm ha), Dev.word_of_live hTl, hw a h8 h4]

/-- A loader command that ends at once with `code` and leaves the engines `G`, its other words at the addresses `more`. -/
theorem loader_ends {s : State} {h : Agent} (hr : Ready s h Reg.ENG_LDCMD_GO true) (hoff : s.dev.on Reg.ENG_LDCMD_GO = false)
    {op : Nat} (hop : op < 4) {id : BitVec 12} {hm : BitVec 2} {c : Instr} (hc : exec c s = ldRow h op id hm s) {code : Nat} (hcode : code < 256)
    {G : Engs} (hG : G.load = none) (more : List Nat) (hmore : 0x21000 ∉ more) (P : Dev → Prop)
    (hE : ∀ D, LoaderFinds s op id.toNat hm.toNat D → ∃ E, D.ldRun = E.ldResult code ∧ E.body = { D.body with eng := G } ∧ E.fab = D.fab ∧
      E.evq = D.evq ∧ (∀ a, a ∉ more → E.word a = D.word a) ∧ P E) :
    ∃ t E, Runs c s t ∧ LoaderEnds s t id.toNat op code ∧ Keeps (loaderWords ++ more) s t { Claims.Staged s t with eng := G } ∧
      P E ∧ ∀ a, a ∉ loaderWords → t.dev.word a = E.word a := by
  obtain ⟨D, hD, -, hrow⟩ := ldRow_runs hr hoff hop id hm
  obtain ⟨E, hrun, hb, hf, he, hw, hP⟩ := hE D hD
  have hid : E.rd Reg.ENG_LDCMD_PROG_ID = id.toNat := (Dev.rd_of_word (hw _ hmore)).trans hD.id
  have hope : E.rd Reg.ENG_LDCMD_OP = op := (Dev.rd_of_word (hw _ hmore)).trans hD.op
  have hL := Dev.ldResult_ended hid hope id.isLt hcode
  have hstep : D.ldStep = (E.ldResult code).wr Reg.ENG_LDCMD_GO 0 := by
    unfold Dev.ldStep
    dsimp only
    have hload : (E.ldResult code).eng.load = none := by
      have h1 : ((E.ldResult code).wr Reg.ENG_LDCMD_GO 0).eng = E.eng := Dev.eng_of_body hL.body
      have h2 : E.eng = G := show E.body.eng = G by rw [hb]
      rw [← hG, ← h2, ← h1]
      rfl
    rw [hrun, hload]
    rfl
  rw [hstep] at hrow
  generalize (E.ldResult code).wr Reg.ENG_LDCMD_GO 0 = F at hL hrow
  have hset : ∀ g, F.settle.rd g = F.rd g := fun g => Dev.settle_rd _ g
  have hword : ∀ a, a ∉ loaderWords → F.word a = E.word a := fun a ha => by
    simp only [loaderWords, List.mem_cons, List.not_mem_nil, or_false, not_or] at ha
    exact hL.word a ha.1 ha.2.1 ha.2.2
  refine ⟨_, E, ⟨hc.trans hrow, rfl, rfl⟩, ⟨(hset _).trans hL.reason, (hset _).trans hL.prog, (hset _).trans hL.refused, (hset _).trans hL.valid,
    (hset _).trans hL.done, (hset _).trans hL.go, fun hroom => ?_⟩, ⟨fun a ha => ?_, Dev.eq_around_same ?_ ?_⟩, hP, hword⟩
  · refine entersAll_of_room 20 (by decide) ?_ ?_ hroom ?_
    · split
      · simp
      · simp
    · split <;> simp
    · have htick : F.tick = s.dev.tick := by
        change F.body.tick = s.dev.body.tick
        rw [hL.body, hb, hD.body]
      change F.evq.settle F.schTick = _
      rw [hL.evq, he, hD.evq, hroom.2.1, Dev.schTick, htick]
      rfl
  · rw [List.mem_append, not_or] at ha
    rw [Dev.settle_word, hword a ha.1, hw a ha.2]
    refine hD.word a fun h0 => ha.1 ?_
    rw [h0]
    decide
  · rw [Dev.settle_body, hL.body, hb, hD.body]
    rfl
  · rw [Dev.settle_fab, hL.fab, hf, hD.fab]
    show _ = s.dev.fab.scanOf F.fab
    rw [hL.fab, hf]

/-! ### What a loader command finds of the tables -/

theorem LoaderFinds.eng {s : State} {op id hm : Nat} {D : Dev} (h : LoaderFinds s op id hm D) : D.eng = s.dev.eng := Dev.eng_of_body h.body

theorem LoaderFinds.image {s : State} {op id hm : Nat} {D : Dev} (h : LoaderFinds s op id hm D) (k : Nat) : D.image k = s.dev.image k := by
  rw [Dev.image, h.eng, Dev.image]

theorem LoaderFinds.named {s : State} {op id hm : Nat} {D : Dev} (h : LoaderFinds s op id hm D) (k : Nat) :
    (D.sch.jobs.any fun e => e.2.admitted && e.2.progId == k) = s.dev.sch.jobs.any fun e => e.2.admitted && e.2.progId == k := by
  rw [Dev.sch_of_body h.body]

theorem LoaderFinds.loadTest {s : State} {op id hm : Nat} {D : Dev} (h : LoaderFinds s op id hm D) (k m : Nat) :
    D.loadTest k m = s.dev.loadTest k m := by
  have hmode : D.mode = s.dev.mode := Dev.rd_of_word (h.word _ (by decide))
  have hsrc : D.rd Reg.ENG_LDSRC_OFFSET = s.dev.rd Reg.ENG_LDSRC_OFFSET := Dev.rd_of_word (h.word _ (by decide))
  have hmask : D.loadMask m = s.dev.loadMask m := by rw [Dev.loadMask, hmode, Dev.loadMask]
  have hstore : ∀ i, D.storeWord i = s.dev.storeWord i := fun i => by rw [Dev.storeWord, h.eng, Dev.storeWord]
  have hused : ∀ i, D.isramUsed i = s.dev.isramUsed i := fun i => by rw [Dev.isramUsed, h.eng, Dev.isramUsed]
  have hplace : ∀ im, D.placeImage im (s.dev.loadMask m) = s.dev.placeImage im (s.dev.loadMask m) := fun im => by
    unfold Dev.placeImage
    simp only [hused]
  unfold Dev.loadTest
  simp only [hmode, hsrc, hmask, hstore, hplace, h.image, h.eng]

theorem ldRun_load {D : Dev} (h : D.rd Reg.ENG_LDCMD_OP = 0) : D.ldRun =
    match D.loadTest (D.rd Reg.ENG_LDCMD_PROG_ID) (D.rd Reg.ENG_LDCMD_HMASK) with
    | .error c => D.ldResult c
    | .ok im => { D.writeIsram im with eng := { (D.writeIsram im).eng with load := some { id := D.rd Reg.ENG_LDCMD_PROG_ID, image := im } } } := by
  unfold Dev.ldRun
  rw [h] <;> rfl

theorem ldRun_unload {D : Dev} (h : D.rd Reg.ENG_LDCMD_OP = 1) : D.ldRun =
    if 0xF00 ≤ D.rd Reg.ENG_LDCMD_PROG_ID then D.ldResult 0x1D
    else match D.image (D.rd Reg.ENG_LDCMD_PROG_ID) with
      | none => D.ldResult 0x1C
      | some _ => if D.sch.jobs.any fun e => e.2.admitted && e.2.progId == D.rd Reg.ENG_LDCMD_PROG_ID then D.ldResult 0x1B
        else (D.unloadImage (D.rd Reg.ENG_LDCMD_PROG_ID)).ldResult 0 := by
  unfold Dev.ldRun
  rw [h] <;> rfl

theorem ldRun_query {D : Dev} (h : D.rd Reg.ENG_LDCMD_OP = 2) : D.ldRun =
    if 0xF00 ≤ D.rd Reg.ENG_LDCMD_PROG_ID then D.ldResult 0x1D
    else match D.image (D.rd Reg.ENG_LDCMD_PROG_ID) with
      | none => D.ldResult 0x1C
      | some im => (D.queryImage im).ldResult 0 := by
  unfold Dev.ldRun
  rw [h] <;> rfl

/-- A loader command refused with `code` changes no table. -/
theorem loader_refused {s : State} {h : Agent} (hr : Ready s h Reg.ENG_LDCMD_GO true) (hoff : s.dev.on Reg.ENG_LDCMD_GO = false)
    (hl : s.dev.eng.load = none) {op : Nat} (hop : op < 4) {id : BitVec 12} {hm : BitVec 2} {c : Instr} (hc : exec c s = ldRow h op id hm s)
    {code : Nat} (hcode : code < 256) (hE : ∀ D, LoaderFinds s op id.toNat hm.toNat D → D.ldRun = D.ldResult code) :
    ∃ t, Runs c s t ∧ LoaderEnds s t id.toNat op code ∧ Keeps loaderWords s t (Claims.Staged s t) := by
  obtain ⟨t, E, hrun, hend, hkeep, -, -⟩ := loader_ends hr hoff hop hc hcode hl [] (by simp) (fun _ => True) fun D hD =>
    ⟨D, hE D hD, by rw [hD.body]; rfl, rfl, rfl, fun _ _ => rfl, trivial⟩
  rw [List.append_nil] at hkeep
  exact ⟨t, hrun, hend, hkeep⟩

/-! ### LOAD -/

theorem load_refused {s : State} {h : Agent} (hr : Ready s h Reg.ENG_LDCMD_GO true) (hoff : s.dev.on Reg.ENG_LDCMD_GO = false)
    (hl : s.dev.eng.load = none) {id : BitVec 12} {hm : BitVec 2} {c : Nat} (hc : c < 256) (ht : s.dev.loadTest id.toNat hm.toNat = .error c) :
    ∃ t, Runs (.load h id hm) s t ∧ LoaderEnds s t id.toNat 0 c ∧ Keeps loaderWords s t (Claims.Staged s t) := by
  refine loader_refused hr hoff hl (op := 0) (by decide) rfl hc fun D hD => ?_
  rw [ldRun_load hD.op, hD.id, hD.hmask, hD.loadTest, ht]

/-- One hearth's instruction SRAM with an image written from `b`. -/
def putImage (m : Sparse Nat) (b : Option Nat) (code : List Nat) : Sparse Nat := b.elim m fun b => Sparse.putList 0 m b code

theorem putImage_inside {m : Sparse Nat} {code : List Nat} {b : Nat} {i : Nat} (hi : i < code.length) :
    Sparse.get 0 (putImage m (some b) code) (b + i) = code.getD i 0 := by
  change Sparse.get 0 (Sparse.putList 0 m b code) (b + i) = _
  rw [Sparse.get_putList, if_pos ⟨by omega, by omega⟩, Nat.add_sub_cancel_left]

theorem putImage_outside {m : Sparse Nat} {b : Option Nat} {code : List Nat} {a : Nat} (ha : ∀ x, b = some x → a < x ∨ x + code.length ≤ a) :
    Sparse.get 0 (putImage m b code) a = Sparse.get 0 m a := by
  cases b with
  | none => rfl
  | some b =>
    change Sparse.get 0 (Sparse.putList 0 m b code) a = _
    rw [Sparse.get_putList, if_neg]
    have := ha b rfl
    omega

/-- The engines with the LOAD of `im` in progress. -/
def Engs.loading (G : Engs) (id : Nat) (im : Image) : Engs :=
  { G with load := some { id := id, image := im }, isA := putImage G.isA im.baseA im.code, isB := putImage G.isB im.baseB im.code }

theorem load_begins {s : State} {h : Agent} (hr : Ready s h Reg.ENG_LDCMD_GO true) (hoff : s.dev.on Reg.ENG_LDCMD_GO = false)
    {id : BitVec 12} {hm : BitVec 2} {im : Image} (ht : s.dev.loadTest id.toNat hm.toNat = .ok im) :
    ∃ t, Runs (.load h id hm) s t ∧ t.dev.rd Reg.ENG_LDCMD_GO = 1 ∧ t.dev.eng = s.dev.eng.loading id.toNat im ∧
      Keeps [Reg.ENG_LDCMD_GO.addr] s t { Claims.Staged s t with eng := t.dev.eng } := by
  obtain ⟨D, hD, hgo, hrow⟩ := ldRow_runs hr hoff (op := 0) (by decide) id hm
  have hstep : D.ldStep = { D with eng := s.dev.eng.loading id.toNat im } := by
    unfold Dev.ldStep
    rw [ldRun_load hD.op, hD.id, hD.hmask, hD.loadTest, ht, ← hD.eng]
    rfl
  rw [hstep] at hrow
  refine ⟨_, ⟨hrow, rfl, rfl⟩, hgo, rfl, fun a ha => ?_, Dev.eq_around_same ?_ ?_⟩
  · rw [List.mem_singleton] at ha
    exact hD.word a ha
  · change ({ D with eng := s.dev.eng.loading id.toNat im } : Dev).body = { s.dev.body with eng := s.dev.eng.loading id.toNat im }
    rw [← hD.body]
    rfl
  · exact hD.fab

/-! ### QUERY -/

theorem Dev.queryImage_rd (d : Dev) (im : Image) : (d.queryImage im).rd Reg.ENG_LDINFO0_LOADED = 1 ∧
    (d.queryImage im).rd Reg.ENG_LDINFO0_HMASK = (if im.baseA.isSome then 1 else 0) + (if im.baseB.isSome then 2 else 0) ∧
    (d.queryImage im).rd Reg.ENG_LDINFO0_BASE = ((im.baseA.orElse fun _ => im.baseB).getD 0) % 2 ^ Reg.ENG_LDINFO0_BASE.width ∧
    (d.queryImage im).rd Reg.ENG_LDINFO1_CODE_WORDS = im.code.length % 2 ^ Reg.ENG_LDINFO1_CODE_WORDS.width ∧
    (d.queryImage im).rd Reg.ENG_LDINFO1_N_ENTRY = im.entries.length % 2 ^ Reg.ENG_LDINFO1_N_ENTRY.width ∧
    (d.queryImage im).rd Reg.ENG_LDINFO2_BASEB = (im.baseB.getD 0) % 2 ^ Reg.ENG_LDINFO2_BASEB.width := by
  unfold Dev.queryImage
  dsimp only
  refine ⟨?_, ?_, ?_, ?_, ?_, ?_⟩ <;> simp (disch := decide) only [Dev.rd_wr_sep, Dev.rd_wr]
  · rfl
  · cases im.baseA.isSome <;> cases im.baseB.isSome <;> rfl

theorem Dev.queryImage_word (d : Dev) (im : Image) {a : Nat} (ha : a ∉ [Reg.ENG_LDINFO0_BASE.addr, Reg.ENG_LDINFO1_CODE_WORDS.addr, Reg.ENG_LDINFO2_BASEB.addr]) :
    (d.queryImage im).word a = d.word a := by
  simp only [List.mem_cons, List.not_mem_nil, or_false, not_or] at ha
  obtain ⟨h0, h1, h2⟩ := ha
  unfold Dev.queryImage
  dsimp only
  rw [Dev.word_wr_ne _ Reg.ENG_LDINFO2_BASEB _ _ (Ne.symm h2), Dev.word_wr_ne _ Reg.ENG_LDINFO1_N_ENTRY _ _ (Ne.symm h1),
    Dev.word_wr_ne _ Reg.ENG_LDINFO1_CODE_WORDS _ _ (Ne.symm h1), Dev.word_wr_ne _ Reg.ENG_LDINFO0_LOADED _ _ (Ne.symm h0),
    Dev.word_wr_ne _ Reg.ENG_LDINFO0_HMASK _ _ (Ne.symm h0), Dev.word_wr_ne _ Reg.ENG_LDINFO0_BASE _ _ (Ne.symm h0)]

theorem query_reports {s : State} {h : Agent} (hr : Ready s h Reg.ENG_LDCMD_GO true) (hoff : s.dev.on Reg.ENG_LDCMD_GO = false)
    (hl : s.dev.eng.load = none) {id : BitVec 12} {hm : BitVec 2} {im : Image} (hid : id.toNat < 0xF00) (him : s.dev.image id.toNat = some im) :
    ∃ t, Runs (.query h id hm) s t ∧ LoaderEnds s t id.toNat 2 0 ∧
      Keeps (loaderWords ++ [Reg.ENG_LDINFO0_BASE.addr, Reg.ENG_LDINFO1_CODE_WORDS.addr, Reg.ENG_LDINFO2_BASEB.addr]) s t (Claims.Staged s t) ∧
      t.dev.rd Reg.ENG_LDINFO0_LOADED = 1 ∧
      t.dev.rd Reg.ENG_LDINFO0_HMASK = (if im.baseA.isSome then 1 else 0) + (if im.baseB.isSome then 2 else 0) ∧
      t.dev.rd Reg.ENG_LDINFO0_BASE = ((im.baseA.orElse fun _ => im.baseB).getD 0) % 2 ^ Reg.ENG_LDINFO0_BASE.width ∧
      t.dev.rd Reg.ENG_LDINFO1_CODE_WORDS = im.code.length % 2 ^ Reg.ENG_LDINFO1_CODE_WORDS.width ∧
      t.dev.rd Reg.ENG_LDINFO1_N_ENTRY = im.entries.length % 2 ^ Reg.ENG_LDINFO1_N_ENTRY.width ∧
      t.dev.rd Reg.ENG_LDINFO2_BASEB = (im.baseB.getD 0) % 2 ^ Reg.ENG_LDINFO2_BASEB.width := by
  obtain ⟨t, E, hrun, hend, hkeep, ⟨D, hDE⟩, hw⟩ := loader_ends hr hoff (op := 2) (by decide) (c := .query h id hm) rfl (code := 0) (by decide) hl
    [Reg.ENG_LDINFO0_BASE.addr, Reg.ENG_LDINFO1_CODE_WORDS.addr, Reg.ENG_LDINFO2_BASEB.addr] (by decide) (fun E => ∃ D : Dev, E = D.queryImage im)
    fun D hD => by
      refine ⟨D.queryImage im, ?_, ?_, rfl, rfl, fun a ha => D.queryImage_word im ha, D, rfl⟩
      · rw [ldRun_query hD.op, hD.id, if_neg (by omega), hD.image, him]
      · rw [hD.body]
        exact hD.body
  obtain ⟨h1, h2, h3, h4, h5, h6⟩ := D.queryImage_rd im
  rw [← hDE] at h1 h2 h3 h4 h5 h6
  have hrd : ∀ g : Fld, g.addr ∉ loaderWords → t.dev.rd g = E.rd g := fun g hg => Dev.rd_of_word (hw _ hg)
  exact ⟨t, hrun, hend, hkeep, (hrd _ (by decide)).trans h1, (hrd _ (by decide)).trans h2, (hrd _ (by decide)).trans h3,
    (hrd _ (by decide)).trans h4, (hrd _ (by decide)).trans h5, (hrd _ (by decide)).trans h6⟩

/-! ### LOADED -/

/-- The device with the engines `G` behind the end of a LOAD of program `id` with `c` and the event `k`, `arg`. -/
def Dev.loadClosed (d : Dev) (G : Engs) (id c k arg : Nat) : Dev :=
  ((({ d with eng := G } : Dev).ldShown id c).post 20 k arg).wr Reg.ENG_LDCMD_GO 0

/-- What the end of a LOAD leaves of the state. -/
theorem loadClosed_runs {s : State} {i : Instr} {G : Engs} {id c k arg : Nat} (hid : id < 4096) (hc : c < 256)
    (hrun : Runs i s { s with dev := (s.dev.loadClosed G id c k arg).settle }) :
    ∃ t, Runs i s t ∧ t.dev.rd Reg.ENG_LDCMD_GO = 0 ∧ t.dev.rd Reg.ENG_LDRES_PROG_ID = id ∧ t.dev.rd Reg.ENG_LDRES_REASON = c ∧
      t.dev.rd Reg.ENG_LDRES_REFUSED = (if c = 0 then 0 else 1) ∧ t.dev.rd Reg.ENG_LDRES_VALID = 1 ∧ t.dev.rd (Reg.ENG_STATUS_LDDONE 0) = 1 ∧
      Keeps loaderWords s t { s.dev with eng := G } ∧ (Room s → EntersAll s t [(20, k, arg)]) := by
  obtain ⟨h1, h2, h3, h4, h5⟩ := ({ s.dev with eng := G } : Dev).ldShown_rd hid hc
  have hw := fun a => ({ s.dev with eng := G } : Dev).ldShown_word id c (a := a)
  have ho : Dev.OnlyLive { s.dev with eng := G } (({ s.dev with eng := G } : Dev).ldShown id c) := rfl
  have hdef : s.dev.loadClosed G id c k arg = ((({ s.dev with eng := G } : Dev).ldShown id c).post 20 k arg).wr Reg.ENG_LDCMD_GO 0 := rfl
  rw [hdef] at hrun
  generalize ({ s.dev with eng := G } : Dev).ldShown id c = S at h1 h2 h3 h4 h5 hw ho hrun
  have hrd : ∀ g : Fld, Fld.sep Reg.ENG_LDCMD_GO g = true → ((S.post 20 k arg).wr Reg.ENG_LDCMD_GO 0).rd g = S.rd g := fun g hg =>
    Dev.rd_wr_sep (S.post 20 k arg) _ _ _ hg
  refine ⟨_, hrun, Dev.rd_wr_lt _ _ 0 (by decide) (by decide), (hrd _ (by decide)).trans h2, (hrd _ (by decide)).trans h1,
    (hrd _ (by decide)).trans h3, (hrd _ (by decide)).trans h4, (hrd _ (by decide)).trans h5, ⟨fun a ha => ?_, Dev.around_of_eq (x := { s.dev with eng := G }) ?_⟩,
    fun hroom => entersAll_of_room 20 (by decide) (by simp) (by simp) hroom ?_⟩
  · simp only [loaderWords, List.mem_cons, List.not_mem_nil, or_false, not_or] at ha
    exact (Dev.word_wr_ne (S.post 20 k arg) _ _ _ (Ne.symm ha.1)).trans (hw a ha.2.1 ha.2.2)
  · rw [ho]
    rfl
  · rw [ho]
    change ({ s.dev.evq with posts := s.dev.evq.posts ++ [_] } : Evq).settle s.dev.schTick = _
    rw [hroom.2.1]
    rfl

theorem bits_of_bases (A B : Bool) (id : Nat) : id + (bit A + 2 * bit B) * 2 ^ 12 = id + (if A then 2 ^ 12 else 0) + (if B then 2 ^ 13 else 0) := by
  cases A <;> cases B <;> simp only [bit, if_true, if_false, Bool.false_eq_true] <;> omega

/-- The device with other engines. -/
def Dev.withEng (d : Dev) (G : Engs) : Dev := { d with eng := G }

/-- What LOADED makes of a LOAD that has ended: a verified image is visible (R154). -/
def Dev.stored (d : Dev) (ok : Bool) (r : LoadRec) : Dev :=
  if ok then ({ d with eng := { d.eng with images := Sparse.put {} d.eng.images r.id r.image } }).post 20 5
    (r.id + (bit r.image.baseA.isSome + 2 * bit r.image.baseB.isSome) * 2 ^ 12)
  else d.post 20 6 (r.id + 0x88 * 2 ^ 16)

theorem Dev.stored_true (d : Dev) (r : LoadRec) : d.stored true r =
    (d.withEng { d.eng with images := Sparse.put {} d.eng.images r.id r.image }).post 20 5
      (r.id + (bit r.image.baseA.isSome + 2 * bit r.image.baseB.isSome) * 2 ^ 12) := if_pos rfl

theorem Dev.stored_false (d : Dev) (r : LoadRec) : d.stored false r = d.post 20 6 (r.id + 0x88 * 2 ^ 16) := if_neg Bool.false_ne_true

/-- How the LOAD in progress ends. -/
def Dev.loadedStep (d : Dev) (ok : Bool) (r : LoadRec) : Dev :=
  ((d.loadEnd r (if ok then 0 else 0x88)).stored ok r).cmdNext Reg.ENG_LDCMD_GO Dev.ldStep

theorem execLoaded_eq (ok : Bool) (s : State) : exec (.loaded ok) s =
    onDev (fun d => match d.eng.load with | none => d | some r => d.loadedStep ok r) s := rfl

theorem loaded_runs {s : State} {r : LoadRec} (ok : Bool) (hl : s.dev.eng.load = some r) :
    Runs (.loaded ok) s { s with dev := (s.dev.loadedStep ok r).settle } := by
  refine ⟨?_, rfl, rfl⟩
  rw [execLoaded_eq]
  unfold onDev
  beta_reduce
  rw [hl]

theorem Dev.cmdNext_idle {d : Dev} {f : Fld} (run : Dev → Dev) (h : d.fab.queued.contains f.key = false) : d.cmdNext f run = d.wr f 0 :=
  if_neg (ne_true_of_eq_false h)

theorem Dev.withEng_wr (d : Dev) (G : Engs) (f : Fld) (v : Nat) : (d.withEng G).wr f v = (d.wr f v).withEng G := rfl

theorem Dev.withEng_withEng (d : Dev) (G G' : Engs) : (d.withEng G).withEng G' = d.withEng G' := rfl
theorem Dev.withEng_eng (d : Dev) (G : Engs) : (d.withEng G).eng = G := rfl

theorem Dev.withEng_ldShown (d : Dev) (G : Engs) (id c : Nat) : (d.withEng G).ldShown id c = (d.ldShown id c).withEng G := by
  rw [Dev.ldShown, Dev.flag, Dev.withEng_wr, Dev.withEng_wr, Dev.withEng_wr, Dev.withEng_wr, Dev.withEng_wr, Dev.ldShown, Dev.flag]

theorem Dev.withEng_eq (d : Dev) (G : Engs) : ({ d with eng := G } : Dev) = d.withEng G := rfl

theorem Dev.loadEnd_raw (d : Dev) (r : LoadRec) (c : Nat) : d.loadEnd r c =
    ({ d with eng := { d.eng with load := none } } : Dev).ldShown r.id c := rfl

theorem Dev.loadEnd_eq (d : Dev) (r : LoadRec) (c : Nat) : d.loadEnd r c = (d.withEng { d.eng with load := none }).ldShown r.id c := by
  rw [Dev.loadEnd_raw, Dev.withEng_eq]

theorem Dev.loadedStep_true {d : Dev} (r : LoadRec) (hq : d.fab.queued.contains Reg.ENG_LDCMD_GO.key = false) : d.loadedStep true r =
    d.loadClosed { d.eng with load := none, images := Sparse.put {} d.eng.images r.id r.image }
      r.id 0 5 (r.id + (bit r.image.baseA.isSome + 2 * bit r.image.baseB.isSome) * 2 ^ 12) := by
  have h1 : d.loadedStep true r = (((d.loadEnd r 0).withEng { (d.loadEnd r 0).eng with
      images := Sparse.put {} (d.loadEnd r 0).eng.images r.id r.image }).post 20 5
      (r.id + (bit r.image.baseA.isSome + 2 * bit r.image.baseB.isSome) * 2 ^ 12)).cmdNext Reg.ENG_LDCMD_GO Dev.ldStep := by
    rw [Dev.loadedStep, if_pos rfl, Dev.stored_true]
  have h2 : d.loadEnd r 0 = (d.ldShown r.id 0).withEng { d.eng with load := none } := by rw [Dev.loadEnd_eq, Dev.withEng_ldShown]
  have h3 : d.loadClosed { d.eng with load := none, images := Sparse.put {} d.eng.images r.id r.image } r.id 0 5
      (r.id + (bit r.image.baseA.isSome + 2 * bit r.image.baseB.isSome) * 2 ^ 12) =
      (((d.ldShown r.id 0).withEng { d.eng with load := none, images := Sparse.put {} d.eng.images r.id r.image }).post 20 5
      (r.id + (bit r.image.baseA.isSome + 2 * bit r.image.baseB.isSome) * 2 ^ 12)).wr Reg.ENG_LDCMD_GO 0 := by
    rw [Dev.loadClosed, Dev.withEng_eq, Dev.withEng_ldShown]
  have hS : (d.ldShown r.id 0).fab = d.fab := rfl
  rw [h1, h2, h3, Dev.withEng_withEng, Dev.withEng_eng]
  generalize d.ldShown r.id 0 = S at hS
  exact Dev.cmdNext_idle _ (show S.fab.queued.contains Reg.ENG_LDCMD_GO.key = false by rw [hS]; exact hq)

theorem Dev.loadedStep_false {d : Dev} (r : LoadRec) (hq : d.fab.queued.contains Reg.ENG_LDCMD_GO.key = false) : d.loadedStep false r =
    d.loadClosed { d.eng with load := none } r.id 0x88 6 (r.id + 0x88 * 2 ^ 16) := by
  have h1 : d.loadedStep false r = ((d.loadEnd r 0x88).post 20 6 (r.id + 0x88 * 2 ^ 16)).cmdNext Reg.ENG_LDCMD_GO Dev.ldStep := by
    rw [Dev.loadedStep, if_neg Bool.false_ne_true, Dev.stored_false]
  have h3 : d.loadClosed { d.eng with load := none } r.id 0x88 6 (r.id + 0x88 * 2 ^ 16) =
      ((d.loadEnd r 0x88).post 20 6 (r.id + 0x88 * 2 ^ 16)).wr Reg.ENG_LDCMD_GO 0 := rfl
  have hS : (d.loadEnd r 0x88).fab = d.fab := rfl
  rw [h1, h3]
  generalize d.loadEnd r 0x88 = S at hS
  exact Dev.cmdNext_idle _ (show S.fab.queued.contains Reg.ENG_LDCMD_GO.key = false by rw [hS]; exact hq)

theorem loaded_ends (s : State) (r : LoadRec) (ok : Bool) (hl : s.dev.eng.load = some r)
    (hq : s.dev.fab.queued.contains Reg.ENG_LDCMD_GO.key = false) (hid : r.id < 4096) :
    ∃ t, Runs (.loaded ok) s t ∧ t.dev.rd Reg.ENG_LDCMD_GO = 0 ∧ t.dev.rd Reg.ENG_LDRES_PROG_ID = r.id ∧
      t.dev.rd Reg.ENG_LDRES_REASON = (if ok then 0 else 0x88) ∧ t.dev.rd Reg.ENG_LDRES_REFUSED = (if ok then 0 else 1) ∧
      t.dev.rd Reg.ENG_LDRES_VALID = 1 ∧ t.dev.rd (Reg.ENG_STATUS_LDDONE 0) = 1 ∧
      Keeps loaderWords s t { s.dev with eng := { s.dev.eng with
        load := none, images := if ok then Sparse.put {} s.dev.eng.images r.id r.image else s.dev.eng.images } } ∧
      (Room s → EntersAll s t [if ok then (20, 5, r.id + (if r.image.baseA.isSome then 2 ^ 12 else 0)
        + (if r.image.baseB.isSome then 2 ^ 13 else 0)) else (20, 6, r.id + 0x88 * 2 ^ 16)]) := by
  have hrun := loaded_runs ok hl
  cases ok with
  | true =>
    rw [Dev.loadedStep_true r hq, bits_of_bases] at hrun
    obtain ⟨t, h1, h2, h3, h4, h5, h6, h7, h8, h9⟩ := loadClosed_runs hid (by decide) hrun
    exact ⟨t, h1, h2, h3, h4, h5, h6, h7, h8, h9⟩
  | false =>
    rw [Dev.loadedStep_false r hq] at hrun
    obtain ⟨t, h1, h2, h3, h4, h5, h6, h7, h8, h9⟩ := loadClosed_runs hid (by decide) hrun
    exact ⟨t, h1, h2, h3, h4, h5, h6, h7, h8, h9⟩

/-! ### A command behind a LOAD in progress -/

theorem loader_queues {s : State} {h : Agent} (hr : Ready s h Reg.ENG_LDCMD_GO true) (hon : s.dev.on Reg.ENG_LDCMD_GO = true)
    (hq : s.dev.fab.queued.contains Reg.ENG_LDCMD_GO.key = false) {op : Nat} (hop : op < 4) {id : BitVec 12} {hm : BitVec 2} {c : Instr}
    (hc : exec c s = ldRow h op id hm s) : ∃ t, Runs c s t ∧ Keeps [Reg.ENG_LDCMD_GO.addr] s t { s.dev with
      fab := { s.dev.fab with scan := t.dev.fab.scan, queued := s.dev.fab.queued ++ [Reg.ENG_LDCMD_GO.key] } } := by
  obtain ⟨hD, hgo⟩ := loader_finds (s := s) (h := h) hop id.isLt hm.isLt
  have hrow := ldRow_eq hr op id hm
  generalize s.dev.opened h Reg.ENG_LDCMD_GO (loaderArgs op id.toNat hm.toNat) = D at hD hgo hrow
  have hqD : D.fab.queued = s.dev.fab.queued := by rw [hD.fab]; rfl
  have hstep : D.ldGo = { D with fab := { D.fab with queued := s.dev.fab.queued ++ [Reg.ENG_LDCMD_GO.key] } } := by
    unfold Dev.ldGo Dev.cmdGo
    rw [if_pos (by rw [Dev.on, hgo]; exact hon), hqD, if_neg (ne_true_of_eq_false hq)]
  rw [hstep] at hrow
  refine ⟨_, ⟨hc.trans hrow, rfl, rfl⟩, fun a ha => ?_, Dev.eq_around_same ?_ ?_⟩
  · rw [List.mem_singleton] at ha
    exact hD.word a ha
  · exact hD.body
  · change ({ D.fab with queued := s.dev.fab.queued ++ [Reg.ENG_LDCMD_GO.key] } : Fabric) =
      { s.dev.fab with scan := D.fab.scan, queued := s.dev.fab.queued ++ [Reg.ENG_LDCMD_GO.key] }
    rw [hD.fab]
    rfl

/-! ### The obligation -/

theorem unload_ends {s : State} {h : Agent} (hr : Ready s h Reg.ENG_LDCMD_GO true) (hoff : s.dev.on Reg.ENG_LDCMD_GO = false)
    (hl : s.dev.eng.load = none) {id : BitVec 12} {hm : BitVec 2} {im : Image} (hid : id.toNat < 0xF00) (him : s.dev.image id.toNat = some im)
    (hn : s.dev.sch.jobs.any (fun e => e.2.admitted && e.2.progId == id.toNat) = false) :
    ∃ t, Runs (.unload h id hm) s t ∧ LoaderEnds s t id.toNat 1 0 ∧ Keeps loaderWords s t { Claims.Staged s t with
      eng := { s.dev.eng with images := Sparse.erase s.dev.eng.images id.toNat } } := by
  obtain ⟨t, E, hrun, hend, hkeep, -, -⟩ := loader_ends hr hoff (op := 1) (by decide) (id := id) (hm := hm) (c := .unload h id hm) rfl (code := 0)
    (by decide) (G := { s.dev.eng with images := Sparse.erase s.dev.eng.images id.toNat }) hl [] (by simp) (fun _ => True) fun D hD => by
      refine ⟨D.unloadImage id.toNat, ?_, ?_, rfl, rfl, fun _ _ => rfl, trivial⟩
      · rw [ldRun_unload hD.op, hD.id, if_neg (by omega), hD.image, him]
        dsimp only
        rw [hD.named, if_neg (ne_true_of_eq_false hn)]
      · rw [hD.body, ← hD.eng, ← hD.body]
        rfl
  rw [List.append_nil] at hkeep
  exact ⟨t, hrun, hend, hkeep⟩

/-- Settles O39: a loader command ends at once with its result, or stays in progress until LOADED. -/
theorem loaderCommandsEndWithTheirResult : Obligations.LoaderCommandsEndWithTheirResult := by
  unfold Obligations.LoaderCommandsEndWithTheirResult
  refine ⟨fun s h id hm hr => ⟨fun hoff hl => ⟨fun c _ hc ht => load_refused hr hoff hl hc ht, fun im ht => ?_, fun hid => ⟨?_, ?_⟩,
    fun hid him => ⟨?_, ?_⟩, fun im hid him => ⟨fun hn => ?_, fun hn => unload_ends hr hoff hl hid him hn, query_reports hr hoff hl hid him⟩⟩,
    fun hon hq c hc => ?_⟩, loaded_ends⟩
  · obtain ⟨t, hrun, hgo, heng, hkeep⟩ := load_begins hr hoff ht
    rw [heng] at hkeep
    have hA : t.dev.eng.isA = putImage s.dev.eng.isA im.baseA im.code := by rw [heng]; rfl
    have hB : t.dev.eng.isB = putImage s.dev.eng.isB im.baseB im.code := by rw [heng]; rfl
    refine ⟨t, hrun, hgo, ?_, fun b hb i hi => ?_, fun b hb i hi => ?_, fun a ha => ?_, fun a ha => ?_⟩
    · rw [hA, hB]
      exact hkeep
    · rw [hA, hb, putImage_inside hi]
    · rw [hB, hb, putImage_inside hi]
    · rw [hA, putImage_outside ha]
    · rw [hB, putImage_outside ha]
  · refine loader_refused hr hoff hl (op := 1) (by decide) rfl (by decide) fun D hD => ?_
    rw [ldRun_unload hD.op, hD.id, if_pos hid]
  · refine loader_refused hr hoff hl (op := 2) (by decide) rfl (by decide) fun D hD => ?_
    rw [ldRun_query hD.op, hD.id, if_pos hid]
  · refine loader_refused hr hoff hl (op := 1) (by decide) rfl (by decide) fun D hD => ?_
    rw [ldRun_unload hD.op, hD.id, if_neg (by omega), hD.image, him]
  · refine loader_refused hr hoff hl (op := 2) (by decide) rfl (by decide) fun D hD => ?_
    rw [ldRun_query hD.op, hD.id, if_neg (by omega), hD.image, him]
  · refine loader_refused hr hoff hl (op := 1) (by decide) rfl (by decide) fun D hD => ?_
    rw [ldRun_unload hD.op, hD.id, if_neg (by omega), hD.image, him]
    dsimp only
    rw [hD.named, if_pos hn]
  · simp only [List.mem_cons, List.not_mem_nil, or_false] at hc
    obtain rfl | rfl | rfl := hc
    · exact loader_queues hr hon hq (op := 0) (by decide) rfl
    · exact loader_queues hr hon hq (op := 1) (by decide) rfl
    · exact loader_queues hr hon hq (op := 2) (by decide) rfl

end Sys2Proof.Machine
end

section
/-! Self-tests of engines, run measurements and restarts of the supervisor (R21, R156, R161, R163). -/
namespace Sys2Proof.Machine
open Sys2Proof.Claims

/-! ### Self-tests -/

/-- RETEST of an engine that is not under test (R161). -/
theorem Dev.retestGo_off {d : Dev} {e : Nat} (h : d.rd (Reg.ENG_CMD_RETEST e) = 0) : d.retestGo e =
    if (d.en e).st = 0 then d.wr (Reg.ENG_STATUS_REASON e) 0x20
    else ((d.wr (Reg.ENG_STATUS_REASON e) 0).wr (Reg.ENG_CMD_RETEST e) 1).modEn e fun g => { g with st := 3, wasFailed := g.st == 2 } :=
  if_neg (by rw [Dev.on, h]; decide)

/-- A host access notes itself in the power state alone. -/
theorem Dev.touch_pwr (d : Dev) (h : Agent) (w : Bool) (b : Nat) : ∃ p, d.touch h w b = { d with pwr := p } := ⟨_, d.touch_eq h w b⟩

theorem retest_runs {s : State} {h : Agent} {e : Eng} (hr : Ready s h (Reg.ENG_CMD_RETEST e) false) : ∃ p,
    Runs (.retest h e) s { s with dev := (Dev.retestGo { s.dev with pwr := p } e).settle } := by
  obtain ⟨p, hp⟩ := s.dev.touch_pwr h true (blockOf (Reg.ENG_CMD_RETEST e).addr)
  have hrun := runs_of_onDev (show exec (.retest h e) s = onDev (fun d => d.hostCmd h (Reg.ENG_CMD_RETEST e) [] fun d => d.retestGo e) s from rfl)
  rw [Dev.hostCmd_open _ _ _ _ hr.1 hr.2, hp] at hrun
  exact ⟨p, hrun⟩

theorem retest_begins {s : State} {h : Agent} {e : Eng} (hr : Ready s h (Reg.ENG_CMD_RETEST e) false)
    (hst : (s.dev.en e).st ≠ 0) (hoff : s.dev.rd (Reg.ENG_CMD_RETEST e) = 0) : ∃ t, Runs (.retest h e) s t ∧
      t.dev = Around (WithEngine s e { s.dev.en e with st := 3, wasFailed := (s.dev.en e).st == 2 }) t.dev ∧ t.dev.rd (Reg.ENG_CMD_RETEST e) = 1 ∧
      t.dev.rd (Reg.ENG_STATUS_REASON e) = 0 ∧ OnlyFields [Reg.ENG_CMD_RETEST e, Reg.ENG_STATUS_REASON e] s t := by
  have ok1 : (Reg.ENG_CMD_RETEST e).ok = true := (show ∀ e : Eng, (Reg.ENG_CMD_RETEST e).ok = true by decide) e
  have ok2 : (Reg.ENG_STATUS_REASON e).ok = true := (show ∀ e : Eng, (Reg.ENG_STATUS_REASON e).ok = true by decide) e
  have hsep : (Reg.ENG_CMD_RETEST e).sep (Reg.ENG_STATUS_REASON e) = true :=
    (show ∀ e : Eng, (Reg.ENG_CMD_RETEST e).sep (Reg.ENG_STATUS_REASON e) = true by decide) e
  obtain ⟨p, hrun⟩ := retest_runs hr
  rw [Dev.retestGo_off (d := { s.dev with pwr := p }) hoff, if_neg (show (Dev.en { s.dev with pwr := p } e).st ≠ 0 from hst)] at hrun
  have h1 : (((({ s.dev with pwr := p } : Dev).wr (Reg.ENG_STATUS_REASON e) 0).wr (Reg.ENG_CMD_RETEST e) 1).rd (Reg.ENG_CMD_RETEST e) = 1) :=
    Dev.rd_flag _ _ ok1
  have h2 := (Dev.rd_wr_sep (({ s.dev with pwr := p } : Dev).wr (Reg.ENG_STATUS_REASON e) 0) _ _ 1 hsep).trans (Dev.rd_wr_lt _ _ 0 ok2 (by positivity))
  have h3 := ((Dev.SameBut.of_live (fs := [Reg.ENG_CMD_RETEST e, Reg.ENG_STATUS_REASON e]) (d' := { s.dev with pwr := p }) rfl).wr
    (Reg.ENG_STATUS_REASON e) 0 (by simp) ok2).wr (Reg.ENG_CMD_RETEST e) 1 (by simp) ok1
  have ho := (Dev.wr_onlyLive { s.dev with pwr := p } (Reg.ENG_STATUS_REASON e) 0).trans (Dev.wr_onlyLive _ (Reg.ENG_CMD_RETEST e) 1)
  generalize (({ s.dev with pwr := p } : Dev).wr (Reg.ENG_STATUS_REASON e) 0).wr (Reg.ENG_CMD_RETEST e) 1 = D at h1 h2 h3 ho hrun
  refine ⟨_, hrun, ?_, h1, h2, h3⟩
  rw [ho]
  rfl

theorem retest_refused {s : State} {h : Agent} {e : Eng} (hr : Ready s h (Reg.ENG_CMD_RETEST e) false)
    (hst : (s.dev.en e).st = 0) (hoff : s.dev.rd (Reg.ENG_CMD_RETEST e) = 0) : ∃ t, Runs (.retest h e) s t ∧ t.dev = Around s.dev t.dev ∧
      t.dev.rd (Reg.ENG_STATUS_REASON e) = 0x20 ∧ OnlyFields [Reg.ENG_STATUS_REASON e] s t := by
  have ok2 : (Reg.ENG_STATUS_REASON e).ok = true := (show ∀ e : Eng, (Reg.ENG_STATUS_REASON e).ok = true by decide) e
  obtain ⟨p, hrun⟩ := retest_runs hr
  rw [Dev.retestGo_off (d := { s.dev with pwr := p }) hoff, if_pos (show (Dev.en { s.dev with pwr := p } e).st = 0 from hst)] at hrun
  refine ⟨_, hrun, rfl, Dev.rd_wr_lt _ _ 0x20 ok2 ?_, ?_⟩
  · exact (show ∀ e : Eng, 0x20 < 2 ^ (Reg.ENG_STATUS_REASON e).width by decide) e
  · exact (Dev.SameBut.of_live (d' := { s.dev with pwr := p }) rfl).wr (Reg.ENG_STATUS_REASON e) 0x20 (by simp) ok2

/-- How the self-test of engine `e` ends. -/
def Dev.retestEnds (d : Dev) (e : Eng) (pass : Bool) : Dev :=
  let st := if !pass then 2 else d.rd (Reg.ENG_CFG_OFFLINE e)
  let x := d.modEn e fun g => { g with st := st, wasFailed := false }
  let x := if !pass && (d.en e).st == 3 && !(d.en e).wasFailed then x.flag (Reg.ENG_STATUS_FAILED e) else x
  (x.flag (Reg.ENG_STATUS_RETEST_DONE e)).post (20 + e / 8) 4 (e.val + bit pass * 2 ^ 8)

theorem execRetestDone_eq (e : Eng) (pass : Bool) (s : State) : exec (.retestDone e pass) s = onDev (fun d =>
    if !d.on (Reg.ENG_CMD_RETEST e) then d else
    (d.retestEnds e pass).cmdNext (Reg.ENG_CMD_RETEST e) fun d => (d.wr (Reg.ENG_CMD_RETEST e) 0).retestGo e) s := rfl

theorem retestDone_idle (s : State) (e : Eng) (pass : Bool) (hoff : s.dev.rd (Reg.ENG_CMD_RETEST e) = 0) :
    ∃ t, Runs (.retestDone e pass) s t ∧ Keeps [] s t s.dev := by
  have hrun := runs_of_onDev (execRetestDone_eq e pass s)
  rw [if_pos (by rw [Dev.on, hoff]; rfl)] at hrun
  exact ⟨_, hrun, fun _ _ => rfl, rfl⟩

/-- What the end of a self-test leaves of the device `d`. -/
structure Dev.Retested (e : Eng) (pass : Bool) (d D : Dev) : Prop where
  only : D = { d with live := D.live, evq := D.evq, eng := (d.setEn e { d.en e with
    st := if pass then d.rd (Reg.ENG_CFG_OFFLINE e) else 2, wasFailed := false }).eng }
  evq : D.evq = (d.post (20 + e / 8) 4 (e + (if pass then 2 ^ 8 else 0))).evq
  done : D.rd (Reg.ENG_STATUS_RETEST_DONE e) = 1
  failed : D.rd (Reg.ENG_STATUS_FAILED e) = if pass = false ∧ (d.en e).wasFailed = false then 1 else d.rd (Reg.ENG_STATUS_FAILED e)
  same : Dev.SameBut [Reg.ENG_STATUS_RETEST_DONE e, Reg.ENG_STATUS_FAILED e] d D

/-- The end of a self-test that leaves the engine as `G`, and that is a failure to show where `fail` holds. -/
def Dev.retestShown (d : Dev) (e : Eng) (G : EngS) (fail : Bool) (arg : Nat) : Dev :=
  ((if fail then (d.setEn e G).flag (Reg.ENG_STATUS_FAILED e) else d.setEn e G).flag (Reg.ENG_STATUS_RETEST_DONE e)).post (20 + e / 8) 4 arg

theorem Dev.retestEnds_shown {d : Dev} {e : Eng} (pass : Bool) (h : (d.en e).st = 3) : d.retestEnds e pass = d.retestShown e
    { d.en e with st := if pass then d.rd (Reg.ENG_CFG_OFFLINE e) else 2, wasFailed := false } (!pass && !(d.en e).wasFailed)
    (e + (if pass then 2 ^ 8 else 0)) := by
  unfold Dev.retestEnds
  rw [h]
  cases pass <;> rfl

theorem Dev.retestShown_shows (d : Dev) (e : Eng) (G : EngS) (fail : Bool) (arg : Nat) : let D := d.retestShown e G fail arg
    (D = { d with live := D.live, evq := D.evq, eng := (d.setEn e G).eng }) ∧ D.evq = (d.post (20 + e / 8) 4 arg).evq ∧
    D.rd (Reg.ENG_STATUS_RETEST_DONE e) = 1 ∧ D.rd (Reg.ENG_STATUS_FAILED e) = (if fail then 1 else d.rd (Reg.ENG_STATUS_FAILED e)) ∧
    Dev.SameBut [Reg.ENG_STATUS_RETEST_DONE e, Reg.ENG_STATUS_FAILED e] d D := by
  have ok1 : (Reg.ENG_STATUS_RETEST_DONE e).ok = true := (show ∀ e : Eng, (Reg.ENG_STATUS_RETEST_DONE e).ok = true by decide) e
  have ok2 : (Reg.ENG_STATUS_FAILED e).ok = true := (show ∀ e : Eng, (Reg.ENG_STATUS_FAILED e).ok = true by decide) e
  have hsep : (Reg.ENG_STATUS_RETEST_DONE e).sep (Reg.ENG_STATUS_FAILED e) = true :=
    (show ∀ e : Eng, (Reg.ENG_STATUS_RETEST_DONE e).sep (Reg.ENG_STATUS_FAILED e) = true by decide) e
  have hs : Dev.SameBut [Reg.ENG_STATUS_RETEST_DONE e, Reg.ENG_STATUS_FAILED e] d (d.setEn e G) := .of_live rfl
  unfold Dev.retestShown
  cases fail with
  | true => exact ⟨rfl, rfl, Dev.rd_flag _ _ ok1, (Dev.rd_flag_sep _ _ _ hsep).trans (Dev.rd_flag _ _ ok2), (hs.flag _ (by simp) ok2).flag _ (by simp) ok1⟩
  | false => exact ⟨rfl, rfl, Dev.rd_flag _ _ ok1, Dev.rd_flag_sep _ _ _ hsep, hs.flag _ (by simp) ok1⟩

theorem Dev.retestEnds_retested {d : Dev} {e : Eng} {pass : Bool} (h : (d.en e).st = 3) : Dev.Retested e pass d (d.retestEnds e pass) := by
  obtain ⟨h1, h2, h3, h4, h5⟩ := d.retestShown_shows e { d.en e with st := if pass then d.rd (Reg.ENG_CFG_OFFLINE e) else 2, wasFailed := false }
    (!pass && !(d.en e).wasFailed) (e + (if pass then 2 ^ 8 else 0))
  rw [Dev.retestEnds_shown pass h]
  refine ⟨h1, h2, h3, h4.trans ?_, h5⟩
  simp only [Bool.and_eq_true, Bool.not_eq_true']

theorem retestDone_ends (s : State) (e : Eng) (pass : Bool) (hon : s.dev.rd (Reg.ENG_CMD_RETEST e) = 1) (hst : (s.dev.en e).st = 3)
    (hq : s.dev.fab.queued.contains (Reg.ENG_CMD_RETEST e).key = false) : ∃ t, Runs (.retestDone e pass) s t ∧
      t.dev = Around (WithEngine s e { s.dev.en e with
        st := if pass then s.dev.rd (Reg.ENG_CFG_OFFLINE e) else 2, wasFailed := false }) t.dev ∧
      t.dev.rd (Reg.ENG_STATUS_RETEST_DONE e) = 1 ∧ t.dev.rd (Reg.ENG_CMD_RETEST e) = 0 ∧
      t.dev.rd (Reg.ENG_STATUS_FAILED e) =
        (if pass = false ∧ (s.dev.en e).wasFailed = false then 1 else s.dev.rd (Reg.ENG_STATUS_FAILED e)) ∧
      OnlyFields [Reg.ENG_CMD_RETEST e, Reg.ENG_STATUS_RETEST_DONE e, Reg.ENG_STATUS_FAILED e] s t ∧
      (Room s → EntersAll s t [(20 + e / 8, 4, e + (if pass then 2 ^ 8 else 0))]) := by
  have ok : (Reg.ENG_CMD_RETEST e).ok = true := (show ∀ e : Eng, (Reg.ENG_CMD_RETEST e).ok = true by decide) e
  have s1 : (Reg.ENG_CMD_RETEST e).sep (Reg.ENG_STATUS_RETEST_DONE e) = true :=
    (show ∀ e : Eng, (Reg.ENG_CMD_RETEST e).sep (Reg.ENG_STATUS_RETEST_DONE e) = true by decide) e
  have s2 : (Reg.ENG_CMD_RETEST e).sep (Reg.ENG_STATUS_FAILED e) = true :=
    (show ∀ e : Eng, (Reg.ENG_CMD_RETEST e).sep (Reg.ENG_STATUS_FAILED e) = true by decide) e
  have hrun := runs_of_onDev (execRetestDone_eq e pass s)
  have hR := Dev.retestEnds_retested (d := s.dev) (e := e) (pass := pass) hst
  rw [if_neg (by rw [Dev.on, hon]; decide)] at hrun
  generalize s.dev.retestEnds e pass = D at hR hrun
  have hqD : D.fab.queued.contains (Reg.ENG_CMD_RETEST e).key = false := by rw [hR.only]; exact hq
  rw [Dev.cmdNext_idle _ hqD] at hrun
  have h1 := (D.rd_wr_sep _ _ 0 s1).trans hR.done
  have h2 := Dev.rd_wr_lt D _ 0 ok (by positivity)
  have h3 := (D.rd_wr_sep _ _ 0 s2).trans hR.failed
  have h4 := (hR.same.mono (gs := [Reg.ENG_CMD_RETEST e, Reg.ENG_STATUS_RETEST_DONE e, Reg.ENG_STATUS_FAILED e]) (by simp)).wr
    (Reg.ENG_CMD_RETEST e) 0 (by simp) ok
  have ho := D.wr_onlyLive (Reg.ENG_CMD_RETEST e) 0
  generalize D.wr (Reg.ENG_CMD_RETEST e) 0 = E at h1 h2 h3 h4 ho hrun
  have hset : ∀ g, E.settle.rd g = E.rd g := fun g => Dev.settle_rd _ g
  refine ⟨_, hrun, Dev.around_of_eq ?_, (hset _).trans h1, (hset _).trans h2, (hset _).trans h3, h4.settle, fun hroom => ?_⟩
  · rw [ho, hR.only]
    rfl
  · refine entersAll_of_room (20 + e.val / 8) (by omega) (by simp) (by simp) hroom ?_
    have htick : E.tick = s.dev.tick := by rw [ho, hR.only]
    have hevq : E.evq = D.evq := by rw [ho]
    change E.evq.settle E.schTick = _
    rw [hevq, hR.evq, Dev.schTick, htick]
    change ({ s.dev.evq with posts := s.dev.evq.posts ++ [_] } : Evq).settle _ = _
    rw [hroom.2.1]
    rfl

/-! ### Run measurements -/

theorem wclr_clears {s : State} {h : Agent} {e : Eng} (hr : Ready s h (Reg.ENG_CMD_WCLR e) false) :
    ∃ t, Runs (.wclr h e) s t ∧ t.dev = Around s.dev t.dev ∧ t.dev.rd (Reg.ENG_WMAX_CYC e) = 0 ∧ OnlyFields [Reg.ENG_WMAX_CYC e] s t := by
  have ok : (Reg.ENG_WMAX_CYC e).ok = true := (show ∀ e : Eng, (Reg.ENG_WMAX_CYC e).ok = true by decide) e
  obtain ⟨p, hp⟩ := s.dev.touch_pwr h true (blockOf (Reg.ENG_CMD_WCLR e).addr)
  have hrun := runs_of_onDev (show exec (.wclr h e) s = onDev (fun d => d.hostCmd h (Reg.ENG_CMD_WCLR e) [] fun d => d.wclrGo e) s from rfl)
  rw [Dev.hostCmd_open _ _ _ _ hr.1 hr.2, hp] at hrun
  exact ⟨_, hrun, rfl, Dev.rd_wr_lt { s.dev with pwr := p } _ 0 ok (by positivity),
    (Dev.SameBut.of_live (d' := { s.dev with pwr := p }) rfl).wr (Reg.ENG_WMAX_CYC e) 0 (by simp) ok⟩

/-! ### What the supervisor sends -/

/-- What changes on port `n` alone: its words and its queues. -/
structure Dev.OnlyPort (n : Nat) (d D : Dev) : Prop where
  only : D = { d with live := D.live, mac0 := D.mac0, mac1 := D.mac1 }
  other : ∀ m, (m = 0 ↔ n ≠ 0) → D.mac m = d.mac m
  word : ∀ a, ¬(0x10000 + 0x1000 * n ≤ a ∧ a < 0x11000 + 0x1000 * n) → D.word a = d.word a

theorem Dev.OnlyPort.refl (n : Nat) (d : Dev) : Dev.OnlyPort n d d := ⟨rfl, fun _ _ => rfl, fun _ _ => rfl⟩

theorem Dev.OnlyPort.trans {n : Nat} {d d' d'' : Dev} (h : Dev.OnlyPort n d d') (h' : Dev.OnlyPort n d' d'') : Dev.OnlyPort n d d'' := by
  refine ⟨?_, fun m hm => (h'.other m hm).trans (h.other m hm), fun a ha => (h'.word a ha).trans (h.word a ha)⟩
  rw [h'.only, h.only]

/-- A field of a word of port `n`. -/
def Fld.ofPort (f : Fld) (n : Nat) : Prop := 0x10000 + 0x1000 * n ≤ f.addr ∧ f.addr < 0x11000 + 0x1000 * n

theorem Dev.OnlyPort.wr {n : Nat} {d D : Dev} (h : Dev.OnlyPort n d D) {f : Fld} (v : Nat) (hf : f.ofPort n) : Dev.OnlyPort n d (D.wr f v) := by
  refine h.trans ⟨rfl, fun _ _ => rfl, fun a ha => D.word_wr_ne _ _ _ fun h => ha ?_⟩
  rwa [← h]

theorem Dev.OnlyPort.flag {n : Nat} {d D : Dev} (h : Dev.OnlyPort n d D) {f : Fld} (hf : f.ofPort n) : Dev.OnlyPort n d (D.flag f) := h.wr 1 hf

theorem Dev.OnlyPort.countBit {n : Nat} {d D : Dev} (h : Dev.OnlyPort n d D) {c half : Fld} (b k : Nat) (hc : c.ofPort n) (hh : half.ofPort n) :
    Dev.OnlyPort n d (D.countBit c half b k) := by
  unfold Dev.countBit
  dsimp only
  split
  · exact h.wr _ hc
  · exact (h.wr _ hc).wr _ hh

theorem Dev.OnlyPort.setMac (n : Nat) (d : Dev) (m : Mac) : Dev.OnlyPort n d (d.setMac n m) := by
  unfold Dev.setMac
  split
  case isTrue h =>
    refine ⟨rfl, fun k hk => ?_, fun _ _ => rfl⟩
    have : k ≠ 0 := fun h0 => hk.mp h0 h
    rw [Dev.mac, if_neg this, Dev.mac, if_neg this]
  case isFalse h =>
    refine ⟨rfl, fun k hk => ?_, fun _ _ => rfl⟩
    have : k = 0 := hk.mpr h
    rw [Dev.mac, if_pos this, Dev.mac, if_pos this]

theorem Dev.macCount_onlyPort (d : Dev) {n i : Nat} (k : Nat) (hi : i < 0x300) : Dev.OnlyPort n d (d.macCount n i k) := by
  have hc : (Reg.MAC_CNT n i).ofPort n := by simp only [Fld.ofPort, Reg.MAC_CNT]; omega
  have hh : (if i < 32 then Reg.MAC_CNTHALF0 n else Reg.MAC_CNTHALF1 n).ofPort n := by
    split <;> simp only [Fld.ofPort, Reg.MAC_CNTHALF0, Reg.MAC_CNTHALF1] <;> omega
  have hf : (Reg.MAC_STATUS_CNT_HALF n).ofPort n := by simp only [Fld.ofPort, Reg.MAC_STATUS_CNT_HALF]; omega
  have h := (Dev.OnlyPort.refl n d).countBit (i % 32) k hc hh
  unfold Dev.macCount
  extract_lets half was d'
  split
  · exact h
  · exact h.flag hf

theorem Dev.macRun_onlyPort (d : Dev) (n : Nat) : Dev.OnlyPort n d (d.macRun n) := by
  have h5 : (Reg.MAC_CREDIT5_CREDIT n).ofPort n := by simp only [Fld.ofPort, Reg.MAC_CREDIT5_CREDIT]; omega
  have h6 : (Reg.MAC_CREDIT6_CREDIT n).ofPort n := by simp only [Fld.ofPort, Reg.MAC_CREDIT6_CREDIT]; omega
  have hp : (Reg.MAC_PAUSE_STAT_PAUSED n).ofPort n := by simp only [Fld.ofPort, Reg.MAC_PAUSE_STAT_PAUSED]; omega
  unfold Dev.macRun Dev.showPaused
  exact (((Dev.OnlyPort.setMac n d _).wr _ h5).wr _ h6).wr _ hp

theorem Dev.enqueue_onlyPort (d : Dev) (n : Nat) {q : Nat} (f : TxFrame) (hq : q < 8) : Dev.OnlyPort n d (d.enqueue n q f).1 := by
  unfold Dev.enqueue
  dsimp only
  split
  · exact d.macCount_onlyPort 1 (by omega)
  · split
    · exact ((d.macRun_onlyPort n).trans (.setMac n _ _)).trans (Dev.macCount_onlyPort _ 1 (by omega))
    · exact .refl n d

theorem Dev.supSend_onlyPort (d : Dev) (n : Nat) {q : Nat} (f : TxFrame) (hq : q < 8) : Dev.OnlyPort n d (d.supSend n q f) := by
  have h := d.enqueue_onlyPort n (q := q) { f with bytes := insertSums f.bytes, sup := true } hq
  unfold Dev.supSend
  dsimp only
  split
  · exact h
  · exact h.trans (Dev.macCount_onlyPort _ 1 (by omega))

theorem Dev.supProto_onlyPort (d : Dev) (p : Nat) (b : List Nat) : Dev.OnlyPort p d (d.supProto p b) := by
  unfold Dev.supProto
  split
  · exact d.supSend_onlyPort p _ (d.rd_lt (Reg.MAC_SUPQ_OTHERQ p))
  · exact .refl p d

/-- What changes on the Ethernet ports alone. -/
structure Dev.OnlyPorts (d D : Dev) : Prop where
  only : D = { d with live := D.live, mac0 := D.mac0, mac1 := D.mac1 }
  word : ∀ a, ¬(0x10000 ≤ a ∧ a < 0x12000) → D.word a = d.word a

theorem Dev.OnlyPorts.refl (d : Dev) : Dev.OnlyPorts d d := ⟨rfl, fun _ _ => rfl⟩

theorem Dev.OnlyPorts.trans {d d' d'' : Dev} (h : Dev.OnlyPorts d d') (h' : Dev.OnlyPorts d' d'') : Dev.OnlyPorts d d'' := by
  refine ⟨?_, fun a ha => (h'.word a ha).trans (h.word a ha)⟩
  rw [h'.only, h.only]

theorem Dev.OnlyPort.ports {n : Nat} {d D : Dev} (h : Dev.OnlyPort n d D) (hn : n < 2) : Dev.OnlyPorts d D :=
  ⟨h.only, fun a ha => h.word a (by omega)⟩

theorem Dev.OnlyPorts.foldl {α : Type} {f : Dev → α → Dev} (l : List α) (hf : ∀ d, ∀ x ∈ l, Dev.OnlyPorts d (f d x)) (d : Dev) :
    Dev.OnlyPorts d (l.foldl f d) := by
  induction l generalizing d with
  | nil => exact .refl d
  | cons x l ih => exact (hf d x List.mem_cons_self).trans (ih (fun d y hy => hf d y (List.mem_cons_of_mem _ hy)) (f d x))

theorem Dev.reportGroup_onlyPorts (d : Dev) {p : Nat} (hp : p < 2) (m : Member) (g : List Nat × Option (List Nat)) :
    Dev.OnlyPorts d (d.reportGroup p m g) := (d.supProto_onlyPort p _).ports hp

theorem dPaths_lt {ds : List Nat} {p : Nat} (h : p ∈ dPaths ds) : p < 2 := by
  have := List.mem_of_mem_filter h
  simp at this
  omega

theorem Dev.sapSend_onlyPorts (d : Dev) (f : Nat) (gone : Bool) : Dev.OnlyPorts d (d.sapSend f gone) := by
  unfold Dev.sapSend
  dsimp only
  split
  · exact .foldl _ (fun d p hp => (d.supProto_onlyPort p _).ports (dPaths_lt hp)) d
  · exact .refl d

theorem Dev.announceAll_onlyPorts (d : Dev) : Dev.OnlyPorts { d with flw := { d.flw with sapAt := d.tick } } d.announceAll :=
  .foldl _ (fun d _ _ => d.sapSend_onlyPorts _ false) _

/-- What the supervisor renews is sent on the ports, and the time of the announcements is set anew (R256). -/
theorem Dev.supRenew_frame (d : Dev) : Dev.OnlyPorts { d with flw := { d.flw with sapAt := d.tick } } d.supRenew := by
  have hm : Dev.OnlyPorts d ([0, 1].foldl (fun (d : Dev) p => (d.memberships p).foldl (fun d g => d.reportGroup p .holds g) d) d) :=
    .foldl _ (fun d p hp => .foldl _ (fun d g _ => d.reportGroup_onlyPorts (by simp at hp; omega) _ g) d) d
  unfold Dev.supRenew
  dsimp only
  generalize [0, 1].foldl (fun (d : Dev) p => (d.memberships p).foldl (fun d g => d.reportGroup p .holds g) d) d = M at hm
  have ha := M.announceAll_onlyPorts
  generalize M.announceAll = D at ha
  refine ⟨?_, fun a h => (ha.word a h).trans (hm.word a h)⟩
  rw [ha.only, hm.only]

/-! ### Restarts of the supervisor -/

theorem blockOf_port {a : Nat} (h : 0x10000 ≤ a) (h' : a < 0x12000) : blockOf a = 11 ∨ blockOf a = 12 := by
  obtain hm | hm : a < 0x11000 ∨ ¬a < 0x11000 := by omega
  · left
    unfold blockOf
    repeat rw [if_neg (by omega)]
    rw [if_pos hm]
  · right
    unfold blockOf
    repeat rw [if_neg (by omega)]
    rw [if_pos h']

theorem execSupResume_eq (s : State) : exec .supResume s =
    onDev (fun d => if d.sup.down.isSome then Dev.supRenew { d with sup := { d.sup with down := none } } else d) s := rfl

theorem supResume_resumes (s : State) : ∃ t, Runs .supResume s t ∧ t.dev.sup = { s.dev.sup with down := none } ∧
    (s.dev.sup.down = none → Keeps [] s t s.dev) ∧ (∀ a, blockOf a ≠ 11 → blockOf a ≠ 12 → t.dev.word a = s.dev.word a) ∧
    t.dev = Around { s.dev with sup := t.dev.sup, mac0 := t.dev.mac0, mac1 := t.dev.mac1, flw := { s.dev.flw with sapAt := t.dev.flw.sapAt } } t.dev := by
  have hrun := runs_of_onDev (execSupResume_eq s)
  cases hd : s.dev.sup.down with
  | none =>
    rw [if_neg (by rw [hd]; decide)] at hrun
    refine ⟨_, hrun, ?_, fun _ => ⟨fun _ _ => rfl, rfl⟩, fun _ _ _ => rfl, rfl⟩
    change s.dev.sup = _
    rw [← hd]
  | some x =>
    rw [if_pos (by rw [hd]; rfl)] at hrun
    have hF := Dev.supRenew_frame { s.dev with sup := { s.dev.sup with down := none } }
    generalize Dev.supRenew { s.dev with sup := { s.dev.sup with down := none } } = D at hF hrun
    refine ⟨_, hrun, ?_, fun h => (Option.some_ne_none x h).elim, fun a h1 h2 => hF.word a fun ha => ?_, ?_⟩
    · change D.sup = _
      rw [hF.only]
    · exact (blockOf_port ha.1 ha.2).elim h1 h2
    · exact Dev.around_of_eq (x := { s.dev with sup := D.sup, mac0 := D.mac0, mac1 := D.mac1, flw := { s.dev.flw with sapAt := D.flw.sapAt } })
        (by rw [hF.only])

/-- The supervisor goes down, and its restart is posted with a source, a code and an argument that are free. -/
def Dev.supDown (d : Dev) : Dev :=
  let d := { d with sup := { down := some (d.sup.down.getD d.tick), restarts := d.sup.restarts + 1 } }
  let r := d.fresh
  let q := r.1.fresh
  q.1.post (r.2.toNat % 25) (r.2.toNat / 25 % 256) q.2.toNat

theorem Dev.supDown_eq (d : Dev) : ∃ posts, d.supDown = { d with
    sup := { d.sup with down := some (d.sup.down.getD d.tick), restarts := d.sup.restarts + 1 }, free := d.free + 2, evq := posts } := ⟨_, rfl⟩

theorem exec_onBoth {c : Instr} {s : State} {f : NV × Dev → NV × Dev} (h : exec c s = onBoth f s) :
    exec c s = .next { s with nv := (f (s.nv, s.dev)).1, dev := (f (s.nv, s.dev)).2.settle } := h

theorem execSupRestart_eq (s : State) : exec .supRestart s = onBoth (fun x =>
    if x.2.rd Reg.PWR_KSTAT_STEP < 4 ∨ x.2.rd Reg.PWR_STATUS_STATE = 4 then x else
    ((mbAbort x).1, (mbAbort x).2.supDown.ldAbort.capture 1)) s := rfl

theorem mbAbort_idle {x : NV × Dev} (h : x.2.hif.mb = none) : mbAbort x = x := by
  unfold mbAbort
  rw [h]

theorem supRestart_ignored (s : State) (h : s.dev.rd Reg.PWR_KSTAT_STEP < 4 ∨ s.dev.rd Reg.PWR_STATUS_STATE = 4) :
    ∃ t, Runs .supRestart s t ∧ Keeps [] s t s.dev := by
  have hrun := exec_onBoth (execSupRestart_eq s)
  beta_reduce at hrun
  rw [if_pos h] at hrun
  exact ⟨_, ⟨hrun, rfl, rfl⟩, fun _ _ => rfl, rfl⟩

/-- The LOAD in progress ends with LDABORT and the device as it stands (R156). -/
theorem Dev.ldAbort_some {d : Dev} {r : LoadRec} (h : d.eng.load = some r) : ∃ F, d.ldAbort =
    { d.loadClosed { d.eng with load := none } r.id 0x89 6 (r.id + 0x89 * 2 ^ 16) with fab := F } := by
  unfold Dev.ldAbort
  rw [h]
  exact ⟨_, rfl⟩

theorem Dev.loadClosed_shows (d : Dev) {G : Engs} {id c k arg : Nat} (hid : id < 4096) (hc : c < 256) : let D := d.loadClosed G id c k arg
    (D = { d with live := D.live, evq := D.evq, eng := G }) ∧ D.rd Reg.ENG_LDCMD_GO = 0 ∧ D.rd Reg.ENG_LDRES_REASON = c ∧
    D.rd Reg.ENG_LDRES_PROG_ID = id ∧ D.rd Reg.ENG_LDRES_REFUSED = (if c = 0 then 0 else 1) ∧ D.rd Reg.ENG_LDRES_VALID = 1 ∧
    ∀ a, a ∉ loaderWords → D.word a = d.word a := by
  obtain ⟨h1, h2, h3, h4, -⟩ := ({ d with eng := G } : Dev).ldShown_rd hid hc
  have hw := fun a => ({ d with eng := G } : Dev).ldShown_word id c (a := a)
  have ho : Dev.OnlyLive { d with eng := G } (({ d with eng := G } : Dev).ldShown id c) := rfl
  unfold Dev.loadClosed
  generalize ({ d with eng := G } : Dev).ldShown id c = S at h1 h2 h3 h4 hw ho
  have hrd : ∀ g : Fld, Fld.sep Reg.ENG_LDCMD_GO g = true → ((S.post 20 k arg).wr Reg.ENG_LDCMD_GO 0).rd g = S.rd g := fun g hg =>
    Dev.rd_wr_sep (S.post 20 k arg) _ _ _ hg
  have hgo : ((S.post 20 k arg).wr Reg.ENG_LDCMD_GO 0).rd Reg.ENG_LDCMD_GO = 0 := Dev.rd_wr_lt _ _ 0 (by decide) (by decide)
  have hword : ∀ a, a ≠ 0x21000 → ((S.post 20 k arg).wr Reg.ENG_LDCMD_GO 0).word a = S.word a := fun a ha =>
    Dev.word_wr_ne (S.post 20 k arg) _ _ _ (Ne.symm ha)
  have hol : Dev.OnlyLive (S.post 20 k arg) ((S.post 20 k arg).wr Reg.ENG_LDCMD_GO 0) := rfl
  generalize (S.post 20 k arg).wr Reg.ENG_LDCMD_GO 0 = D at hrd hgo hword hol
  refine ⟨?_, hgo, (hrd _ (by decide)).trans h1, (hrd _ (by decide)).trans h2, (hrd _ (by decide)).trans h3, (hrd _ (by decide)).trans h4, fun a ha => ?_⟩
  · rw [hol, ho]
    rfl
  · simp only [loaderWords, List.mem_cons, List.not_mem_nil, or_false, not_or] at ha
    exact (hword a ha.1).trans (hw a ha.2.1 ha.2.2)

theorem supRestart_runs {s : State} (hk : 4 ≤ s.dev.rd Reg.PWR_KSTAT_STEP) (hp : s.dev.rd Reg.PWR_STATUS_STATE ≠ 4) (hm : s.dev.hif.mb = none) :
    Runs .supRestart s { s with dev := (s.dev.supDown.ldAbort.capture 1).settle } := by
  have hrun := exec_onBoth (execSupRestart_eq s)
  beta_reduce at hrun
  rw [if_neg (by rw [not_or]; exact ⟨Nat.not_lt.mpr hk, hp⟩), mbAbort_idle hm] at hrun
  exact ⟨hrun, rfl, rfl⟩

theorem supRestart_plain {s : State} (hk : 4 ≤ s.dev.rd Reg.PWR_KSTAT_STEP) (hp : s.dev.rd Reg.PWR_STATUS_STATE ≠ 4) (hm : s.dev.hif.mb = none)
    (hn : NoDump s 1) (hl : s.dev.eng.load = none) : ∃ t, Runs .supRestart s t ∧ Keeps [] s t { s.dev with
      sup := { s.dev.sup with down := some (s.dev.sup.down.getD s.dev.tick), restarts := s.dev.sup.restarts + 1 }, free := s.dev.free + 2 } := by
  have hrun := supRestart_runs hk hp hm
  obtain ⟨q, hq⟩ := s.dev.supDown_eq
  have hab : s.dev.supDown.ldAbort = s.dev.supDown := by
    unfold Dev.ldAbort
    rw [hq]
    dsimp only
    rw [hl]
  have hn' : s.dev.supDown.rd Reg.DUMP_CFG_MASK / 2 ^ 1 % 2 = 0 := by
    rw [hq]
    exact hn
  rw [hab, Dev.capture_masked hn', hq] at hrun
  exact ⟨_, hrun, fun _ _ => rfl, rfl⟩

theorem supRestart_aborts {s : State} (hk : 4 ≤ s.dev.rd Reg.PWR_KSTAT_STEP) (hp : s.dev.rd Reg.PWR_STATUS_STATE ≠ 4) (hm : s.dev.hif.mb = none)
    (hn : NoDump s 1) {r : LoadRec} (hl : s.dev.eng.load = some r) (hid : r.id < 4096) : ∃ t, Runs .supRestart s t ∧
      t.dev.sup = { s.dev.sup with down := some (s.dev.sup.down.getD s.dev.tick), restarts := s.dev.sup.restarts + 1 } ∧
      t.dev.eng = { s.dev.eng with load := none } ∧
      t.dev.rd Reg.ENG_LDCMD_GO = 0 ∧ t.dev.rd Reg.ENG_LDRES_REASON = 0x89 ∧ t.dev.rd Reg.ENG_LDRES_PROG_ID = r.id ∧
      t.dev.rd Reg.ENG_LDRES_REFUSED = 1 ∧ t.dev.rd Reg.ENG_LDRES_VALID = 1 ∧ SameWords loaderWords s t := by
  have hrun := supRestart_runs hk hp hm
  obtain ⟨q, hq⟩ := s.dev.supDown_eq
  have hl' : s.dev.supDown.eng.load = some r := by rw [hq]; exact hl
  have hw' : ∀ a, s.dev.supDown.word a = s.dev.word a := fun a => Dev.word_of_live (by rw [hq]) a
  obtain ⟨F, hF⟩ := Dev.ldAbort_some hl'
  obtain ⟨ho, h1, h2, h3, h4, h5, h6⟩ := s.dev.supDown.loadClosed_shows (G := { s.dev.supDown.eng with load := none }) (k := 6)
    (arg := r.id + 0x89 * 2 ^ 16) hid (show 0x89 < 256 by decide)
  rw [hF] at hrun
  generalize s.dev.supDown.loadClosed { s.dev.supDown.eng with load := none } r.id 0x89 6 (r.id + 0x89 * 2 ^ 16) = D at ho h1 h2 h3 h4 h5 h6 hrun
  have hmask : D.rd Reg.DUMP_CFG_MASK = s.dev.rd Reg.DUMP_CFG_MASK := Dev.rd_of_word ((h6 _ (by decide)).trans (hw' _))
  rw [Dev.capture_masked (d := { D with fab := F }) (c := 1) (by
    change D.rd Reg.DUMP_CFG_MASK / 2 ^ 1 % 2 = 0
    rw [hmask]
    exact hn)] at hrun
  refine ⟨_, hrun, ?_, ?_, h1, h2, h3, h4, h5, fun a ha => (h6 a ha).trans (hw' a)⟩
  · change D.sup = _
    rw [ho, hq]
  · change D.eng = _
    rw [ho, hq]

/-- Settles O40: a self-test ends as its verdict says; a restart of the supervisor ends the LOAD in progress, and what it resumes
is sent on the Ethernet ports alone. -/
theorem selfTestsMeasurementsAndRestarts : Obligations.SelfTestsMeasurementsAndRestarts := by
  unfold Obligations.SelfTestsMeasurementsAndRestarts
  refine ⟨fun s h e hr => ⟨fun hst hoff => retest_begins hr (by omega) hoff, retest_refused hr⟩,
    fun s e pass => ⟨retestDone_idle s e pass, retestDone_ends s e pass⟩, fun s h e hr => wclr_clears hr, supRestart_ignored,
    fun s hk hp hm hn => ⟨supRestart_plain hk hp hm hn, fun r => supRestart_aborts hk hp hm hn⟩, supResume_resumes⟩

end Sys2Proof.Machine
end

section
/-! Rules for the candidates of reference selection: what a change of a candidate and an evaluation write (R345, R347 to R353). -/
namespace Sys2Proof.Machine
open Sys2Proof.Claims

/-! ### Fields that stay -/

/-- A word none of whose fields is written stays. -/
theorem Dev.SameBut.word {fs : List Fld} {d D : Dev} (h : Dev.SameBut fs d D) {a : Nat} (ha : ∀ f ∈ fs, f.addr ≠ a) : D.word a = d.word a := by
  have hr := h ⟨a, 31, 0⟩ (show 31 < 32 by decide) fun f hf => Or.inl (ha f hf)
  have hv : ∀ w : Word, Fld.get ⟨a, 31, 0⟩ w = w.toNat := fun w => by
    have hw := w.isLt
    simp only [Fld.get, Fld.width]
    omega
  rw [Dev.rd, Dev.rd, hv, hv] at hr
  exact BitVec.eq_of_toNat_eq hr

/-- Every field that the check clears stays. -/
theorem Dev.SameBut.rds {fs gs : List Fld} {d D : Dev} (h : Dev.SameBut fs d D) (hc : gs.all (Fld.clear fs) = true) :
    ∀ g ∈ gs, D.rd g = d.rd g := fun _ hg => h.rd (List.all_eq_true.mp hc _ hg)

theorem Dev.SameBut.of_only {fs : List Fld} {d d' D : Dev} (h : Dev.SameBut fs d d') (hl : D.live = d'.live) : Dev.SameBut fs d D :=
  h.trans (.of_live hl)

/-! ### What the quality, the eligibility and the loss of a candidate read -/

/-- The fields that the quality code of candidate `k` reads. -/
def qcodeFields (k : Nat) : List Fld :=
  [Reg.REF_STATUS_OCXO_WARM, Reg.REF_CAND_USEFIX k, Reg.REF_CAND_QFIX k, Reg.REF_CFG_SSMOPT, Reg.REF_CSTAT_SSM k]

/-- The fields that the eligibility of candidate `k` reads. -/
def eligFields (k : Nat) : List Fld :=
  [Reg.REF_CSTAT_STATE k, Reg.PWR_STATUS_STATE, Reg.PTP_PSTAT_HOLD k, Reg.REF_STATUS_SEL] ++ qcodeFields k

/-- The fields that the lost condition of candidate `k` reads. -/
def lostFields (k : Nat) : List Fld :=
  [Reg.PTP_PSTAT_STATE k, Reg.PTP_CFG_ENABLE, Reg.PTP_PCFG_ENABLE k, Reg.PWR_STATUS_STATE, Reg.MAC_STATUS_LINK (k - 2), Reg.REF_STATUS_OSCIN_OK]

theorem Dev.on_congr {d D : Dev} {f : Fld} (h : D.rd f = d.rd f) : D.on f = d.on f := by rw [Dev.on, h, Dev.on]

theorem Dev.qcodeOf_congr {d D : Dev} {k : Nat} (hc : D.cand k = d.cand k) (h : ∀ g ∈ qcodeFields k, D.rd g = d.rd g) :
    D.qcodeOf k = d.qcodeOf k := by
  simp only [qcodeFields, List.forall_mem_cons, List.not_mem_nil, false_implies, implies_true, and_true] at h
  obtain ⟨h1, h2, h3, h4, h5⟩ := h
  unfold Dev.qcodeOf
  rw [Dev.on_congr h1, Dev.on_congr h2, h3, Dev.on_congr h4, h5, hc]

theorem Dev.eligible_congr {d D : Dev} {k : Nat} (hc : D.cand k = d.cand k) (h : ∀ g ∈ eligFields k, D.rd g = d.rd g) :
    D.eligible k = d.eligible k := by
  have hq := Dev.qcodeOf_congr hc fun g hg => h g (List.mem_append_right _ hg)
  simp only [eligFields, List.cons_append, List.forall_mem_cons, List.nil_append] at h
  obtain ⟨h1, h2, h3, h4, -⟩ := h
  unfold Dev.eligible Dev.candState Dev.refSel
  rw [h1, h2, Dev.on_congr h3, h4, hq]

theorem Dev.candIsLost_congr {d D : Dev} {k : Nat} (hc : D.cand k = d.cand k) (hp : D.pport k = d.pport k) (ht : D.tick = d.tick)
    (h : ∀ g ∈ lostFields k, D.rd g = d.rd g) : D.candIsLost k = d.candIsLost k := by
  simp only [lostFields, List.forall_mem_cons, List.not_mem_nil, false_implies, implies_true, and_true] at h
  obtain ⟨h1, h2, h3, h4, h5, h6⟩ := h
  unfold Dev.candIsLost Dev.ptpOn
  rw [h1, Dev.on_congr h2, Dev.on_congr h3, h4, Dev.on_congr h5, Dev.on_congr h6, hc, hp, ht]

/-! ### What is shown of the candidates -/

/-- The fields that show the quality and the eligibility of the candidates `l`. -/
def showFields (l : List Nat) : List Fld := l.flatMap fun k => [Reg.REF_CSTAT_QCODE k, Reg.REF_CSTAT_ELIG k]

theorem mem_showFields {l : List Nat} {f : Fld} : f ∈ showFields l ↔ ∃ k ∈ l, f = Reg.REF_CSTAT_QCODE k ∨ f = Reg.REF_CSTAT_ELIG k := by
  simp [showFields]

/-- The quality and the eligibility of candidate `k` are shown. -/
def Dev.showCand (d : Dev) (k : Nat) : Dev := (d.wr (Reg.REF_CSTAT_QCODE k) (d.qcodeOf k)).wr (Reg.REF_CSTAT_ELIG k) (bit (d.eligible k))

theorem Dev.qcodeOf_lt (d : Dev) (k : Nat) : d.qcodeOf k < 256 := by
  have h1 := d.rd_lt (Reg.REF_CAND_QFIX k)
  have h2 := (d.cand k).qcode.isLt
  have h3 : ssmCode (d.on Reg.REF_CFG_SSMOPT) (d.rd (Reg.REF_CSTAT_SSM k)) < 256 := by
    unfold ssmCode
    split <;> split <;> decide
  unfold Dev.qcodeOf
  split
  · split <;> decide
  · split
    · exact h1
    · split
      · exact h2
      · split
        · decide
        · exact h3

theorem Dev.showCand_shows (d : Dev) {k : Nat} (hk : k < 7) : Dev.OnlyLive d (d.showCand k) ∧ Dev.SameBut (showFields [k]) d (d.showCand k) ∧
    (d.showCand k).rd (Reg.REF_CSTAT_QCODE k) = d.qcodeOf k ∧ (d.showCand k).rd (Reg.REF_CSTAT_ELIG k) = bit (d.eligible k) := by
  have ok1 : (Reg.REF_CSTAT_QCODE k).ok = true := rfl
  have ok2 : (Reg.REF_CSTAT_ELIG k).ok = true := rfl
  have hs : (Reg.REF_CSTAT_ELIG k).sep (Reg.REF_CSTAT_QCODE k) = true :=
    (show ∀ k : Fin 7, (Reg.REF_CSTAT_ELIG k).sep (Reg.REF_CSTAT_QCODE k) = true by decide) ⟨k, hk⟩
  have hb : bit (d.eligible k) < 2 := by cases d.eligible k <;> decide
  unfold Dev.showCand
  refine ⟨rfl, ?_, ?_, Dev.rd_wr_lt _ _ _ ok2 hb⟩
  · exact ((Dev.SameBut.refl _ d).wr _ _ (by simp [showFields]) ok1).wr _ _ (by simp [showFields]) ok2
  · rw [Dev.rd_wr_sep _ _ _ _ hs, Dev.rd_wr_lt _ _ _ ok1 (d.qcodeOf_lt k)]

/-- Fields of different candidates stand in different words. -/
theorem cstat_addr_ne {j k : Nat} (h : j ≠ k) : 0x16060 + 0x4 * j ≠ 0x16060 + 0x4 * k := by omega

theorem Dev.SameBut.cand {l : List Nat} {d D : Dev} (h : Dev.SameBut (showFields l) d D) {k : Nat} (hk : k ∉ l) (f : Fld)
    (hf : f.addr = 0x16060 + 0x4 * k) (hh : f.hi < 32) : D.rd f = d.rd f := by
  refine h f hh fun g hg => Or.inl ?_
  obtain ⟨j, hj, rfl | rfl⟩ := mem_showFields.mp hg
  all_goals
    rw [hf]
    exact cstat_addr_ne fun hjk => hk (hjk ▸ hj)

theorem Dev.SameBut.shown {l : List Nat} {d D : Dev} (h : Dev.SameBut (showFields l) d D) (hl : ∀ k ∈ l, k < 7) :
    Dev.SameBut (showFields (List.range 7)) d D := h.mono fun f hf => by
  obtain ⟨k, hk, hfk⟩ := mem_showFields.mp hf
  exact mem_showFields.mpr ⟨k, List.mem_range.mpr (hl k hk), hfk⟩

theorem Dev.shown_qcode {d D : Dev} (h : Dev.SameBut (showFields (List.range 7)) d D) (hc : D.ref.cands = d.ref.cands) {k : Nat} (hk : k < 7) :
    D.qcodeOf k = d.qcodeOf k :=
  Dev.qcodeOf_congr (by rw [Dev.cand, hc, Dev.cand])
    (h.rds ((show ∀ k : Fin 7, (qcodeFields k).all (Fld.clear (showFields (List.range 7))) = true by decide) ⟨k, hk⟩))

theorem Dev.shown_eligible {d D : Dev} (h : Dev.SameBut (showFields (List.range 7)) d D) (hc : D.ref.cands = d.ref.cands) {k : Nat} (hk : k < 7) :
    D.eligible k = d.eligible k :=
  Dev.eligible_congr (by rw [Dev.cand, hc, Dev.cand])
    (h.rds ((show ∀ k : Fin 7, (eligFields k).all (Fld.clear (showFields (List.range 7))) = true by decide) ⟨k, hk⟩))

theorem Dev.showCand_foldl (l : List Nat) (hl : ∀ k ∈ l, k < 7) (hn : l.Nodup) (d : Dev) : let D := l.foldl Dev.showCand d
    Dev.OnlyLive d D ∧ Dev.SameBut (showFields l) d D ∧
    ∀ k ∈ l, D.rd (Reg.REF_CSTAT_QCODE k) = d.qcodeOf k ∧ D.rd (Reg.REF_CSTAT_ELIG k) = bit (d.eligible k) := by
  induction l generalizing d with
  | nil => exact ⟨rfl, .refl _ d, by simp⟩
  | cons x l ih =>
    obtain ⟨hx, hn⟩ := List.nodup_cons.mp hn
    obtain ⟨ho1, hs1, hq1, he1⟩ := d.showCand_shows (hl x List.mem_cons_self)
    obtain ⟨ho2, hs2, hv2⟩ := ih (fun k hk => hl k (List.mem_cons_of_mem _ hk)) hn (d.showCand x)
    have hs7 := hs1.shown (by simpa using hl x List.mem_cons_self)
    have hcd : (d.showCand x).ref.cands = d.ref.cands := by rw [ho1]
    refine ⟨ho1.trans ho2, ?_, fun k hk => ?_⟩
    · refine (hs1.mono fun f hf => ?_).trans (hs2.mono fun f hf => ?_)
      · obtain ⟨k, hk, hfk⟩ := mem_showFields.mp hf
        exact mem_showFields.mpr ⟨k, by simp at hk; simp [hk], hfk⟩
      · obtain ⟨k, hk, hfk⟩ := mem_showFields.mp hf
        exact mem_showFields.mpr ⟨k, List.mem_cons_of_mem _ hk, hfk⟩
    · obtain rfl | hk := List.mem_cons.mp hk
      · exact ⟨(hs2.cand hx _ rfl (show 7 < 32 by decide)).trans hq1, (hs2.cand hx _ rfl (show 11 < 32 by decide)).trans he1⟩
      · obtain ⟨h1, h2⟩ := hv2 k hk
        have hk7 := hl k (List.mem_cons_of_mem _ hk)
        exact ⟨h1.trans (Dev.shown_qcode hs7 hcd hk7), h2.trans (congrArg bit (Dev.shown_eligible hs7 hcd hk7))⟩

/-- What showing the candidates leaves of the device `d`. -/
structure Dev.Shown (d D : Dev) : Prop where
  only : Dev.OnlyLive d D
  same : Dev.SameBut (showFields (List.range 7)) d D
  qcode : ∀ k, k < 7 → D.rd (Reg.REF_CSTAT_QCODE k) = d.qcodeOf k
  elig : ∀ k, k < 7 → D.rd (Reg.REF_CSTAT_ELIG k) = bit (d.eligible k)

theorem Dev.showCands_shown (d : Dev) : Dev.Shown d d.showCands := by
  obtain ⟨h1, h2, h3⟩ := Dev.showCand_foldl (List.range 7) (by simp) List.nodup_range d
  exact ⟨h1, h2, fun k hk => (h3 k (List.mem_range.mpr hk)).1, fun k hk => (h3 k (List.mem_range.mpr hk)).2⟩

/-! ### A candidate's state, and the evaluation of the selection -/

/-- The fields that a change of the state of candidate `k` writes. -/
def stateFields (k : Nat) : List Fld := [Reg.REF_CSTAT_STATE k, Reg.REF_STATUS_QUALEV, Reg.REF_DISQ_COUNT k, Reg.REF_STATUS_CNT_HALF]

/-- The fields that an evaluation of the selection writes. -/
def evalFields : List Fld := showFields (List.range 7) ++ [Reg.REF_STATUS_HISTVALID, Reg.REF_HOFREQ_FREQ, Reg.REF_STATUS_PEND]

/-- What concerns REF alone: its registers among `fs`, its state and its events. -/
structure Dev.RefOnly (fs : List Fld) (d D : Dev) : Prop where
  only : D = { d with live := D.live, evq := D.evq, ref := D.ref }
  same : Dev.SameBut fs d D
  events : ∃ more, D.evq = { d.evq with posts := d.evq.posts ++ more } ∧ ∀ e ∈ more, e.1 = 16

theorem Dev.RefOnly.refl (fs : List Fld) (d : Dev) : Dev.RefOnly fs d d := ⟨rfl, .refl fs d, [], by simp, by simp⟩

theorem Dev.RefOnly.trans {fs : List Fld} {d d' d'' : Dev} (h : Dev.RefOnly fs d d') (h' : Dev.RefOnly fs d' d'') : Dev.RefOnly fs d d'' := by
  obtain ⟨m, hm, hm16⟩ := h.events
  obtain ⟨m', hm', hm16'⟩ := h'.events
  refine ⟨?_, h.same.trans h'.same, m ++ m', ?_, fun e he => ?_⟩
  · rw [h'.only, h.only]
  · rw [hm', hm, List.append_assoc]
  · exact (List.mem_append.mp he).elim (hm16 e) (hm16' e)

theorem Dev.RefOnly.mono {fs gs : List Fld} {d D : Dev} (h : Dev.RefOnly fs d D) (hs : ∀ f ∈ fs, f ∈ gs) : Dev.RefOnly gs d D :=
  ⟨h.only, h.same.mono hs, h.events⟩

theorem Dev.RefOnly.of_live {fs : List Fld} {d D : Dev} (h : Dev.OnlyLive d D) (hs : Dev.SameBut fs d D) : Dev.RefOnly fs d D := by
  refine ⟨?_, hs, [], ?_, by simp⟩
  · rw [h]
  · rw [h, List.append_nil]

theorem Dev.RefOnly.tick {fs : List Fld} {d D : Dev} (h : Dev.RefOnly fs d D) : D.tick = d.tick := by rw [h.only]
theorem Dev.RefOnly.ptp {fs : List Fld} {d D : Dev} (h : Dev.RefOnly fs d D) : D.ptp = d.ptp := by rw [h.only]
theorem Dev.RefOnly.pport {fs : List Fld} {d D : Dev} (h : Dev.RefOnly fs d D) (n : Nat) : D.pport n = d.pport n := by
  rw [Dev.pport, h.ptp, Dev.pport]

theorem Dev.cand_setCand (d : Dev) (k j : Nat) (c : Cand) : (d.setCand k c).cand j = if k = j then c else d.cand j := by
  rw [Dev.cand, Dev.setCand]
  exact Sparse.get_put ..

/-- What a state `st` that candidate `k` takes leaves of the device `d`. -/
structure Dev.Took (k st : Nat) (d D : Dev) : Prop where
  ref : Dev.RefOnly (stateFields k) d D
  frame : D.ref = { d.ref with cands := D.ref.cands }
  state : D.candState k = st
  other : ∀ j, j ≠ k → D.cand j = d.cand j
  lost : (D.cand k).lost = (d.cand k).lost
  qcode : (D.cand k).qcode = (d.cand k).qcode
  heard : (D.cand k).heard = (d.cand k).heard

theorem stateFields_ok {k : Nat} (hk : k < 7) : ∀ f ∈ stateFields k, f.ok = true :=
  (show ∀ k : Fin 7, ∀ f ∈ stateFields k, f.ok = true by decide) ⟨k, hk⟩

theorem Dev.toCand_took (d : Dev) {k st : Nat} (hk : k < 7) (hst : st < 8) : Dev.Took k st d (d.toCand k st) := by
  unfold Dev.toCand
  split
  case isTrue h => exact ⟨.refl _ d, rfl, h, fun _ _ => rfl, rfl, rfl, rfl⟩
  case isFalse h =>
    have ok := stateFields_ok hk
    have s1 : Reg.REF_STATUS_QUALEV.sep (Reg.REF_CSTAT_STATE k) = true :=
      (show ∀ k : Fin 7, Reg.REF_STATUS_QUALEV.sep (Reg.REF_CSTAT_STATE k) = true by decide) ⟨k, hk⟩
    have a1 : (Reg.REF_DISQ_COUNT k).addr ≠ (Reg.REF_CSTAT_STATE k).addr :=
      (show ∀ k : Fin 7, (Reg.REF_DISQ_COUNT k).addr ≠ (Reg.REF_CSTAT_STATE k).addr by decide) ⟨k, hk⟩
    have a2 : Reg.REF_STATUS_CNT_HALF.addr ≠ (Reg.REF_CSTAT_STATE k).addr :=
      (show ∀ k : Fin 7, Reg.REF_STATUS_CNT_HALF.addr ≠ (Reg.REF_CSTAT_STATE k).addr by decide) ⟨k, hk⟩
    extract_lets c0 X W M
    have hX : ∀ j, X.cand j = if k = j then { d.cand k with good := none, soft := none } else d.cand j := fun j => d.cand_setCand k j _
    have hW : Dev.OnlyLive X W := rfl
    have hWs : Dev.SameBut (stateFields k) d W :=
      ((Dev.SameBut.of_live (d' := X) rfl).wr _ _ (by simp [stateFields]) (ok _ (by simp [stateFields]))).flag _ (by simp [stateFields])
        (ok _ (by simp [stateFields]))
    have hWst : W.candState k = st := (Dev.rd_flag_sep _ _ _ s1).trans (Dev.rd_wr_lt _ _ _ (ok _ (by simp [stateFields])) hst)
    have hM : Dev.OnlyLive X M ∧ Dev.SameBut (stateFields k) d M ∧ M.candState k = st := by
      unfold M
      split
      · exact ⟨hW.trans (W.count_onlyLive ..), hWs.count _ _ _ (by simp [stateFields]) (by simp [stateFields]) (ok _ (by simp [stateFields]))
          (ok _ (by simp [stateFields])), (Dev.rd_of_word (W.word_count_ne _ _ _ _ a1 a2)).trans hWst⟩
      · exact ⟨hW, hWs, hWst⟩
    clear_value M W
    obtain ⟨hMo, hMs, hMst⟩ := hM
    have hMc : ∀ j, M.cand j = X.cand j := fun j => by rw [Dev.cand, hMo, Dev.cand]
    have hP : ∀ arg j, (M.post 16 3 arg).cand j = X.cand j := fun _ j => hMc j
    refine ⟨⟨?_, hMs, [(16, 3, k + st * 2 ^ 8 + M.qcodeOf k * 2 ^ 16)], ?_, ?_⟩, ?_, hMst, fun j hj => ?_, ?_, ?_, ?_⟩
    · rw [hMo]
      rfl
    · change ({ M.evq with posts := M.evq.posts ++ [_] } : Evq) = _
      rw [hMo]
      rfl
    · simp
    · change M.ref = { d.ref with cands := M.ref.cands }
      rw [hMo]
      rfl
    · rw [hP, hX, if_neg (Ne.symm hj)]
    all_goals rw [hP, hX, if_pos rfl]

/-! ### The evaluation in its steps -/

/-- The best candidate `b` is noted, with the tick since which it is best. -/
def Dev.evalBest (d : Dev) (b : Nat) : Dev := if b = d.ref.best then d else { d with ref := { d.ref with best := b, since := d.tick } }

/-- The hold value is computed where a forced switch that leaves a LOCKED candidate is decided. -/
def Dev.evalHold (d : Dev) : Dev := if d.refState = 2 ∧ !d.eligible d.refSel ∧ !(d.ref.req.any (·.forced)) then d.holdValue else d

/-- The switch that the evaluation leaves, and the candidate that waits. -/
def Dev.evalRequest (d : Dev) (b : Nat) : Dev :=
  { d with ref := { d.ref with req := d.refRequest b } }.wr Reg.REF_STATUS_PEND (d.refPending b)

theorem Dev.refEval_off {d : Dev} (h : d.on Reg.REF_CFG_ENABLE = false) : d.refEval = d := if_pos (by rw [h]; rfl)

theorem Dev.refEval_on {d : Dev} (h : d.on Reg.REF_CFG_ENABLE = true) : d.refEval =
    ((d.showCands.evalBest d.showCands.bestCand).evalHold).evalRequest d.showCands.bestCand := by
  unfold Dev.refEval
  rw [if_neg (by rw [h]; decide)]
  rfl

theorem Dev.evalBest_only (d : Dev) (b : Nat) : Dev.RefOnly evalFields d (d.evalBest b) ∧
    (d.evalBest b).ref = { d.ref with best := b, since := (d.evalBest b).ref.since } ∧ (d.evalBest b).live = d.live := by
  unfold Dev.evalBest
  split
  case isTrue h => exact ⟨.refl _ d, by rw [h], rfl⟩
  case isFalse h => exact ⟨⟨rfl, .of_live rfl, [], by simp, by simp⟩, rfl, rfl⟩

/-- A hold value `v` that is valid or not, and the middle of its history. -/
def Dev.heldAs (d : Dev) (mid : Nat) (ok : Bool) (v : Int) : Dev :=
  (({ d with ref := { d.ref with mid := mid } } : Dev).wr Reg.REF_STATUS_HISTVALID (bit ok)).wr Reg.REF_HOFREQ_FREQ (sat32 v)

theorem Dev.holdValue_held (d : Dev) : ∃ mid ok v, d.holdValue = d.heldAs mid ok v := by
  rw [Dev.holdValue]
  exact ⟨_, _, _, rfl⟩

theorem Dev.heldAs_only (d : Dev) (mid : Nat) (ok : Bool) (v : Int) : Dev.RefOnly evalFields d (d.heldAs mid ok v) ∧
    (d.heldAs mid ok v).ref = { d.ref with mid := mid } := by
  have k1 : Reg.REF_STATUS_HISTVALID ∈ evalFields := by simp [evalFields]
  have k2 : Reg.REF_HOFREQ_FREQ ∈ evalFields := by simp [evalFields]
  unfold Dev.heldAs
  have hX : Dev.RefOnly evalFields d { d with ref := { d.ref with mid := mid } } := ⟨rfl, .of_live rfl, [], by simp, by simp⟩
  generalize hXe : ({ d with ref := { d.ref with mid := mid } } : Dev) = X at hX
  have ho := (X.wr_onlyLive Reg.REF_STATUS_HISTVALID (bit ok)).trans (Dev.wr_onlyLive _ Reg.REF_HOFREQ_FREQ (sat32 v))
  have hs := ((Dev.SameBut.refl evalFields X).wr _ (bit ok) k1 (by decide)).wr _ (sat32 v) k2 (by decide)
  generalize (X.wr Reg.REF_STATUS_HISTVALID (bit ok)).wr Reg.REF_HOFREQ_FREQ (sat32 v) = D at ho hs
  refine ⟨hX.trans (.of_live ho hs), ?_⟩
  rw [ho, ← hXe]

theorem Dev.holdValue_only (d : Dev) : Dev.RefOnly evalFields d d.holdValue ∧ d.holdValue.ref = { d.ref with mid := d.holdValue.ref.mid } := by
  obtain ⟨mid, ok, v, h⟩ := d.holdValue_held
  obtain ⟨h1, h2⟩ := d.heldAs_only mid ok v
  rw [h]
  exact ⟨h1, by rw [h2]⟩

theorem Dev.evalHold_only (d : Dev) : Dev.RefOnly evalFields d d.evalHold ∧ d.evalHold.ref = { d.ref with mid := d.evalHold.ref.mid } := by
  unfold Dev.evalHold
  split
  · exact d.holdValue_only
  · exact ⟨.refl _ d, rfl⟩

theorem Dev.evalRequest_only (d : Dev) (b : Nat) : Dev.RefOnly evalFields d (d.evalRequest b) ∧
    (d.evalRequest b).ref = { d.ref with req := d.refRequest b } := by
  have hX : Dev.SameBut evalFields d { d with ref := { d.ref with req := d.refRequest b } } := .of_live rfl
  refine ⟨⟨rfl, hX.wr _ _ (by simp [evalFields]) (by decide), [], ?_, by simp⟩, rfl⟩
  rw [List.append_nil]
  rfl

/-- An evaluation writes its fields, and no state of a candidate. -/
theorem Dev.refEval_only (d : Dev) : Dev.RefOnly evalFields d d.refEval ∧
    d.refEval.ref = { d.ref with best := d.refEval.ref.best, since := d.refEval.ref.since, mid := d.refEval.ref.mid, req := d.refEval.ref.req } := by
  cases h : d.on Reg.REF_CFG_ENABLE with
  | false =>
    rw [Dev.refEval_off h]
    exact ⟨.refl _ d, rfl⟩
  | true =>
    rw [Dev.refEval_on h]
    have hS := d.showCands_shown
    have h1 : Dev.RefOnly evalFields d d.showCands := (Dev.RefOnly.of_live hS.only hS.same).mono (by simp [evalFields]; tauto)
    have r1 : d.showCands.ref = d.ref := by rw [hS.only]
    generalize d.showCands.bestCand = b
    obtain ⟨h2, r2, -⟩ := d.showCands.evalBest_only b
    obtain ⟨h3, r3⟩ := (d.showCands.evalBest b).evalHold_only
    obtain ⟨h4, r4⟩ := (d.showCands.evalBest b).evalHold.evalRequest_only b
    refine ⟨h1.trans (h2.trans (h3.trans h4)), ?_⟩
    rw [r4, r3, r2, r1]

/-- The state that a check of the lost condition of candidate `k` leaves it in (R345, R347). -/
def Dev.checkedState (d : Dev) (k : Nat) : Nat :=
  if d.on Reg.REF_CFG_ENABLE = false ∨ d.candState k = 0 then d.candState k
  else if d.candIsLost k then 1 else if d.candState k = 1 then d.candFresh k else d.candState k

/-- What a check of the lost condition of candidate `k` leaves of the device `d`. -/
structure Dev.Checked (k : Nat) (d D : Dev) : Prop where
  ref : Dev.RefOnly (stateFields k ++ evalFields) d D
  state : D.candState k = d.checkedState k
  other : ∀ j, j ≠ k → D.cand j = d.cand j
  lost : (D.cand k).lost = (d.cand k).lost
  qcode : (D.cand k).qcode = (d.cand k).qcode
  heard : (D.cand k).heard = (d.cand k).heard

theorem Dev.candFresh_lt (d : Dev) (k : Nat) : d.candFresh k < 8 := by
  unfold Dev.candFresh
  split
  · decide
  · split
    · decide
    · split <;> decide

theorem Dev.candCheck_checked (d : Dev) {k : Nat} (hk : k < 7) : Dev.Checked k d (d.candCheck k) := by
  have hclear : Fld.clear evalFields (Reg.REF_CSTAT_STATE k) = true :=
    (show ∀ k : Fin 7, Fld.clear evalFields (Reg.REF_CSTAT_STATE k) = true by decide) ⟨k, hk⟩
  have hshow : Fld.clear (showFields (List.range 7)) (Reg.REF_CSTAT_STATE k) = true :=
    (show ∀ k : Fin 7, Fld.clear (showFields (List.range 7)) (Reg.REF_CSTAT_STATE k) = true by decide) ⟨k, hk⟩
  unfold Dev.candCheck
  dsimp only
  by_cases h0 : d.on Reg.REF_CFG_ENABLE = false ∨ d.candState k = 0
  · rw [if_pos (by simpa using h0)]
    exact ⟨.refl _ d, (if_pos h0).symm, fun _ _ => rfl, rfl, rfl, rfl⟩
  rw [if_neg (by simpa using h0)]
  split
  case isTrue hl =>
    split
    case isTrue h1 => exact ⟨.refl _ d, by rw [Dev.checkedState, if_neg h0, if_pos hl, h1], fun _ _ => rfl, rfl, rfl, rfl⟩
    case isFalse h1 =>
      have hT := d.toCand_took hk (show 1 < 8 by decide)
      obtain ⟨hE, hr⟩ := (d.toCand k 1).refEval_only
      have hc : ∀ j, (d.toCand k 1).refEval.cand j = (d.toCand k 1).cand j := fun j => by rw [Dev.cand, hr, Dev.cand]
      refine ⟨(hT.ref.mono (by simp; tauto)).trans (hE.mono (by simp; tauto)), ?_, fun j hj => (hc j).trans (hT.other j hj),
        (congrArg Cand.lost (hc k)).trans hT.lost, (congrArg Cand.qcode (hc k)).trans hT.qcode, (congrArg Cand.heard (hc k)).trans hT.heard⟩
      rw [Dev.checkedState, if_neg h0, if_pos hl]
      exact (hE.same.rd hclear).trans hT.state
  case isFalse hl =>
    split
    case isTrue h1 =>
      have hT := d.toCand_took hk (d.candFresh_lt k)
      have hS := (d.toCand k (d.candFresh k)).showCands_shown
      have hE : Dev.RefOnly evalFields (d.toCand k (d.candFresh k)) (d.toCand k (d.candFresh k)).showCands :=
        (Dev.RefOnly.of_live hS.only hS.same).mono (by simp [evalFields]; tauto)
      have hc : ∀ j, (d.toCand k (d.candFresh k)).showCands.cand j = (d.toCand k (d.candFresh k)).cand j := fun j => by
        rw [Dev.cand, hS.only, Dev.cand]
      refine ⟨(hT.ref.mono (by simp; tauto)).trans (hE.mono (by simp; tauto)), ?_, fun j hj => (hc j).trans (hT.other j hj),
        (congrArg Cand.lost (hc k)).trans hT.lost, (congrArg Cand.qcode (hc k)).trans hT.qcode, (congrArg Cand.heard (hc k)).trans hT.heard⟩
      rw [Dev.checkedState, if_neg h0, if_neg hl, if_pos h1]
      exact (hS.same.rd hshow).trans hT.state
    case isFalse h1 => exact ⟨.refl _ d, by rw [Dev.checkedState, if_neg h0, if_neg hl, if_neg h1], fun _ _ => rfl, rfl, rfl, rfl⟩

/-- The lost condition of a port's candidate in the words of the statement. -/
theorem candIsLost_iff {s : State} {k : Nat} (hk : k < 2) : s.dev.candIsLost k = true ↔ PortLost s k := by
  have hon : ∀ f : Fld, f.width = 1 → (s.dev.on f = false ↔ s.dev.rd f = 0) := fun f hf => by
    have := s.dev.rd_lt f
    rw [hf] at this
    simp only [Dev.on, beq_eq_false_iff_ne]
    omega
  have h1 := hon Reg.PTP_CFG_ENABLE rfl
  have h2 := hon (Reg.PTP_PCFG_ENABLE k) (by simp [Fld.width, Reg.PTP_PCFG_ENABLE])
  unfold Dev.candIsLost PortLost
  rw [if_pos hk]
  simp only [Bool.or_eq_true, bne_iff_ne, Bool.not_eq_true', beq_iff_eq, Option.all_eq_true, decide_eq_true_eq, Dev.ptpOn, Bool.and_eq_false_iff,
    h1, h2, or_assoc]

end Sys2Proof.Machine
end

section
/-! Rules for the servo and the path step detector of a PTP port (R327 to R335). -/
namespace Sys2Proof.Machine
open Sys2Proof.Claims

/-! ### Frames -/

/-- What concerns PTP port `n` alone: registers among `fs`, events, and the state of the servo and of the port. -/
structure Dev.PtpOnly (n : Nat) (fs : List Fld) (d D : Dev) : Prop where
  only : D = { d with live := D.live, evq := D.evq, ptp := D.ptp }
  stamps : D.ptp.stamps = d.ptp.stamps
  trigs : D.ptp.trigs = d.ptp.trigs
  other : D.pport (1 - n) = d.pport (1 - n)
  same : Dev.SameBut fs d D

theorem Dev.PtpOnly.refl (n : Nat) (fs : List Fld) (d : Dev) : Dev.PtpOnly n fs d d := ⟨rfl, rfl, rfl, rfl, .refl fs d⟩

theorem Dev.PtpOnly.trans {n : Nat} {fs : List Fld} {d d' d'' : Dev} (h : Dev.PtpOnly n fs d d') (h' : Dev.PtpOnly n fs d' d'') :
    Dev.PtpOnly n fs d d'' := by
  refine ⟨?_, h'.stamps.trans h.stamps, h'.trigs.trans h.trigs, h'.other.trans h.other, h.same.trans h'.same⟩
  rw [h'.only, h.only]

theorem Dev.PtpOnly.mono {n : Nat} {fs gs : List Fld} {d D : Dev} (h : Dev.PtpOnly n fs d D) (hs : ∀ f ∈ fs, f ∈ gs) : Dev.PtpOnly n gs d D :=
  ⟨h.only, h.stamps, h.trigs, h.other, h.same.mono hs⟩

theorem Dev.PtpOnly.of_live {n : Nat} {fs : List Fld} {d D : Dev} (h : Dev.OnlyLive d D) (hs : Dev.SameBut fs d D) : Dev.PtpOnly n fs d D := by
  have hp : D.ptp = d.ptp := by rw [h]
  refine ⟨?_, by rw [hp], by rw [hp], by rw [Dev.pport, hp, Dev.pport], hs⟩
  rw [h]

theorem Dev.PtpOnly.ref {n : Nat} {fs : List Fld} {d D : Dev} (h : Dev.PtpOnly n fs d D) : D.ref = d.ref := by rw [h.only]
theorem Dev.PtpOnly.tick {n : Nat} {fs : List Fld} {d D : Dev} (h : Dev.PtpOnly n fs d D) : D.tick = d.tick := by rw [h.only]

theorem Dev.wr_ptpOnly (d : Dev) (n : Nat) (f : Fld) (v : Nat) (hf : f.ok = true) : Dev.PtpOnly n [f] d (d.wr f v) :=
  .of_live rfl ((Dev.SameBut.refl _ d).wr f v (by simp) hf)

theorem Dev.flag_ptpOnly (d : Dev) (n : Nat) (f : Fld) (hf : f.ok = true) : Dev.PtpOnly n [f] d (d.flag f) := d.wr_ptpOnly n f 1 hf

theorem Dev.post_ptpOnly (d : Dev) (n : Nat) (fs : List Fld) (a b c : Nat) : Dev.PtpOnly n fs d (d.post a b c) :=
  ⟨rfl, rfl, rfl, rfl, .of_live rfl⟩

theorem Dev.count_ptpOnly (d : Dev) (n : Nat) (c half : Fld) (k : Nat) (hc : c.ok = true) (hh : half.ok = true) :
    Dev.PtpOnly n [c, half] d (d.count c half k) :=
  .of_live (d.count_onlyLive c half k) ((Dev.SameBut.refl _ d).count c half k (by simp) (by simp) hc hh)

theorem Dev.pport_setPport (d : Dev) (n : Nat) (x : PtpPort) : (d.setPport n x).pport n = x := by
  unfold Dev.pport Dev.setPport
  split <;> rfl

theorem Dev.pport_setPport_other (d : Dev) (n : Fin 2) (x : PtpPort) : (d.setPport n x).pport (1 - n.val) = d.pport (1 - n.val) := by
  obtain ⟨n, hn⟩ := n
  obtain rfl | rfl : n = 0 ∨ n = 1 := by omega
  · rfl
  · rfl

theorem Dev.setPport_only (d : Dev) (n : Nat) (x : PtpPort) : d.setPport n x = { d with ptp := (d.setPport n x).ptp } ∧
    (d.setPport n x).ptp = { d.ptp with a := (d.setPport n x).ptp.a, b := (d.setPport n x).ptp.b } := by
  unfold Dev.setPport
  split <;> exact ⟨rfl, rfl⟩

theorem Dev.setPport_ptpOnly (d : Dev) (n : Fin 2) (fs : List Fld) (x : PtpPort) : Dev.PtpOnly n fs d (d.setPport n x) := by
  obtain ⟨ho, hp⟩ := d.setPport_only n x
  refine ⟨?_, by rw [hp], by rw [hp], d.pport_setPport_other n x, .of_live (by rw [ho])⟩
  rw [ho]

theorem Dev.pport_congr {d D : Dev} (h : D.ptp = d.ptp) (n : Nat) : D.pport n = d.pport n := by rw [Dev.pport, h, Dev.pport]

/-- The servo's part of the state: the integrator, the phase term and the rate. -/
def Dev.servoState (d : Dev) : Int × Int × Int := (d.ptp.integ, d.ptp.phase, d.ptp.rate)

theorem Dev.servoState_setPport (d : Dev) (n : Nat) (x : PtpPort) : (d.setPport n x).servoState = d.servoState := by
  unfold Dev.servoState
  rw [(d.setPport_only n x).2]

theorem Dev.servoState_congr {d D : Dev} (h : D.ptp = d.ptp) : D.servoState = d.servoState := by rw [Dev.servoState, h, Dev.servoState]

/-! ### Quotients -/

/-- A quotient that need not be exact is less than one away (R328). -/
theorem quot_near (w : Nat) (x : Int) {k : Nat} (hk : 0 < k) : ((k : Int) * quot w x k - x).natAbs < k := by
  have h1 := Int.emod_nonneg x (show (k : Int) ≠ 0 by omega)
  have h2 := Int.emod_lt_of_pos x (show (0 : Int) < k by omega)
  have h3 := Int.emod_add_mul_ediv x k
  unfold quot
  split
  · omega
  · split
    · rw [mul_add]
      omega
    · omega

theorem sat32_lt (x : Int) : sat32 x < 2 ^ 32 := by
  unfold sat32 uint
  omega

/-! ### The offset, the lock and the rate -/

def offFields (n : Nat) : List Fld := [Reg.PTP_OFF_THETA n, Reg.PTP_MPD_D n]
def lockFields (n : Nat) : List Fld := [Reg.PTP_PSTAT_LOCK n, Reg.PTP_STATUS_SERVOEV]

theorem Dev.showOffset_shows (d : Dev) (n : Fin 2) (hl : 0 < (d.pport n).last.length) : Dev.PtpOnly n (offFields n) d (d.showOffset n) ∧
    (d.showOffset n).ptp = d.ptp ∧ ∃ m, (d.showOffset n).rd (Reg.PTP_OFF_THETA n) = sat32 m ∧
      (2 * ((d.pport n).last.length : Int) * m - sumOf ((d.pport n).last.map (·.1))).natAbs < 2 * (d.pport n).last.length := by
  have ok1 : (Reg.PTP_OFF_THETA n).ok = true := rfl
  have ok2 : (Reg.PTP_MPD_D n).ok = true := rfl
  have hs : (Reg.PTP_MPD_D n).sep (Reg.PTP_OFF_THETA n) = true := (show ∀ n : Fin 2, (Reg.PTP_MPD_D n).sep (Reg.PTP_OFF_THETA n) = true by decide) n
  have hk : max 1 (d.pport n).last.length = (d.pport n).last.length := by omega
  unfold Dev.showOffset
  dsimp only
  rw [hk]
  generalize hq : quot 5 (sumOf ((d.pport n).last.map (·.1))) (2 * (d.pport n).last.length) = m
  refine ⟨((d.wr_ptpOnly n _ _ ok1).mono (by simp [offFields])).trans ((Dev.wr_ptpOnly _ n _ _ ok2).mono (by simp [offFields])), rfl, m, ?_, ?_⟩
  · exact (Dev.rd_wr_sep _ _ _ _ hs).trans (Dev.rd_wr_lt _ _ _ ok1 (sat32_lt m))
  · rw [← hq]
    have h := quot_near 5 (sumOf ((d.pport n).last.map (·.1))) (k := 2 * (d.pport n).last.length) (by omega)
    rwa [Nat.cast_mul] at h

theorem Dev.rd_of_on {d : Dev} {f : Fld} {b : Bool} (h : d.on f = b) (hf : f.width = 1) : d.rd f = bit b := by
  have := d.rd_lt f
  rw [hf] at this
  cases b with
  | true => simpa [Dev.on, bit] using h
  | false =>
    simp only [Dev.on, beq_eq_false_iff_ne] at h
    simp only [bit, Bool.false_eq_true, if_false]
    omega

theorem Dev.setLock_locks (d : Dev) (n : Fin 2) (b : Bool) : Dev.PtpOnly n (lockFields n) d (d.setLock n b) ∧ (d.setLock n b).ptp = d.ptp ∧
    (d.setLock n b).rd (Reg.PTP_PSTAT_LOCK n) = bit b := by
  have hs : Reg.PTP_STATUS_SERVOEV.sep (Reg.PTP_PSTAT_LOCK n) = true :=
    (show ∀ n : Fin 2, Reg.PTP_STATUS_SERVOEV.sep (Reg.PTP_PSTAT_LOCK n) = true by decide) n
  unfold Dev.setLock
  split
  case isTrue h => exact ⟨.refl _ _ d, rfl, Dev.rd_of_on h rfl⟩
  case isFalse h =>
    have hb : bit b < 2 ^ (Reg.PTP_PSTAT_LOCK n).width := show bit b < 2 ^ 1 by cases b <;> decide
    have h1 := d.wr_ptpOnly n (Reg.PTP_PSTAT_LOCK n) (bit b) rfl
    have h2 := d.rd_wr_lt (Reg.PTP_PSTAT_LOCK n) _ rfl hb
    have h3 : (d.wr (Reg.PTP_PSTAT_LOCK n) (bit b)).ptp = d.ptp := rfl
    generalize d.wr (Reg.PTP_PSTAT_LOCK n) (bit b) = X at h1 h2 h3
    have h4 := X.flag_ptpOnly n Reg.PTP_STATUS_SERVOEV rfl
    have h5 := (X.rd_flag_sep _ _ hs).trans h2
    have h6 : (X.flag Reg.PTP_STATUS_SERVOEV).ptp = X.ptp := rfl
    generalize X.flag Reg.PTP_STATUS_SERVOEV = Y at h4 h5 h6
    exact ⟨((h1.mono (by simp [lockFields])).trans (h4.mono (by simp [lockFields]))).trans (Y.post_ptpOnly n _ _ _ _), h6.trans h3,
      (Dev.post_rd ..).trans h5⟩

/-- The exchanges in a row within the limit, after one with offset `th` (R330). -/
def Dev.withinNext (d : Dev) (n : Nat) (th : Int) : Nat :=
  if (th.natAbs : Int) ≤ 2 * d.rd Reg.PTP_SERVO_LOCK_NS then (d.pport n).within + 1 else 0

/-- The lock follows `w` exchanges in a row within the limit; `far`: the last one is beyond twice the limit. -/
def Dev.lockWith (d : Dev) (n w : Nat) (far : Prop) [Decidable far] : Dev :=
  if 16 ≤ w then (d.setPport n { d.pport n with within := w }).setLock n true
  else if far then (d.setPport n { d.pport n with within := w }).setLock n false
  else d.setPport n { d.pport n with within := w }

theorem Dev.lockStep_eq (d : Dev) (n : Nat) (th : Int) : d.lockStep n th =
    d.lockWith n (d.withinNext n th) (2 * (2 * (d.rd Reg.PTP_SERVO_LOCK_NS : Int)) < th.natAbs) := rfl

theorem Dev.lockStep_locks (d : Dev) (n : Fin 2) (th : Int) : Dev.PtpOnly n (lockFields n) d (d.lockStep n th) ∧
    (d.lockStep n th).servoState = d.servoState ∧ (d.lockStep n th).pport n = { d.pport n with within := d.withinNext n th } ∧
    (d.lockStep n th).rd (Reg.PTP_PSTAT_LOCK n) = if 16 ≤ d.withinNext n th then 1
      else if 2 * (2 * (d.rd Reg.PTP_SERVO_LOCK_NS : Int)) < th.natAbs then 0 else d.rd (Reg.PTP_PSTAT_LOCK n) := by
  rw [Dev.lockStep_eq, Dev.lockWith]
  generalize d.withinNext n th = w
  have hX := d.setPport_ptpOnly n (lockFields n) { d.pport n with within := w }
  have hP := d.pport_setPport n { d.pport n with within := w }
  have hV := d.servoState_setPport n { d.pport n with within := w }
  have hL : (d.setPport n { d.pport n with within := w }).rd (Reg.PTP_PSTAT_LOCK n) = d.rd (Reg.PTP_PSTAT_LOCK n) :=
    Dev.rd_congr _ _ _ (by rw [(d.setPport_only n _).1])
  generalize d.setPport n { d.pport n with within := w } = X at hX hP hV hL
  have hlock : ∀ b, Dev.PtpOnly n (lockFields n) d (X.setLock n b) ∧ (X.setLock n b).servoState = d.servoState ∧
      (X.setLock n b).pport n = { d.pport n with within := w } ∧ (X.setLock n b).rd (Reg.PTP_PSTAT_LOCK n) = bit b := fun b => by
    obtain ⟨h1, h2, h3⟩ := X.setLock_locks n b
    exact ⟨hX.trans h1, (Dev.servoState_congr h2).trans hV, (Dev.pport_congr h2 n).trans hP, h3⟩
  split
  · exact hlock true
  · split
    · exact hlock false
    · exact ⟨hX, hV, hP, hL⟩

/-- The register of the rate is shown; the rate is `x`. -/
theorem Dev.showRate_shows (d : Dev) (n : Nat) (x : Int) : Dev.PtpOnly n [Reg.PTP_FREQ_FREQ] d (d.showRate x) ∧
    (d.showRate x).ptp = { d.ptp with rate := x } := by
  unfold Dev.showRate
  generalize sat32 _ = v
  have hX : Dev.PtpOnly n [Reg.PTP_FREQ_FREQ] d { d with ptp := { d.ptp with rate := x } } := ⟨rfl, rfl, rfl, rfl, .of_live rfl⟩
  exact ⟨hX.trans (Dev.wr_ptpOnly _ n _ v (by decide)), rfl⟩

theorem Dev.servoHold_holds (d : Dev) (n : Nat) : Dev.PtpOnly n [Reg.PTP_FREQ_FREQ] d d.servoHold ∧
    d.servoHold.ptp = { d.ptp with phase := 0, rate := d.ptp.integ } := by
  have hX : Dev.PtpOnly n [Reg.PTP_FREQ_FREQ] d { d with ptp := { d.ptp with phase := 0 } } := ⟨rfl, rfl, rfl, rfl, .of_live rfl⟩
  obtain ⟨h1, h2⟩ := Dev.showRate_shows { d with ptp := { d.ptp with phase := 0 } } n d.ptp.integ
  exact ⟨hX.trans h1, h2⟩

/-- The integrator and the phase term after an exchange with offset `th` (R329). -/
def Dev.integNext (d : Dev) (n : Nat) (th : Int) : Int :=
  d.ptp.integ - kiOf (d.rd Reg.PTP_SERVO_BW) * th * 2 ^ (sint 8 (d.rd (Reg.PTP_PRATE_LOG_SYNC n)) + 8).toNat
def Dev.phaseNext (d : Dev) (th : Int) : Int :=
  max (-((d.rd Reg.REF_SLEW_PHASE : Int) * ppb)) (min (-(kpOf (d.rd Reg.PTP_SERVO_BW) * th * 2 ^ 8)) ((d.rd Reg.REF_SLEW_PHASE : Int) * ppb))

theorem Dev.servo_eq (d : Dev) (n : Nat) (th : Int) : d.servo n th =
    ({ d with ptp := { d.ptp with integ := d.integNext n th, phase := d.phaseNext th } } : Dev).showRate (d.integNext n th + d.phaseNext th) := rfl

theorem Dev.servo_steers (d : Dev) (n : Nat) (th : Int) : Dev.PtpOnly n [Reg.PTP_FREQ_FREQ] d (d.servo n th) ∧
    (d.servo n th).ptp = { d.ptp with integ := d.integNext n th, phase := d.phaseNext th, rate := d.integNext n th + d.phaseNext th } := by
  rw [Dev.servo_eq]
  generalize d.integNext n th = i
  generalize d.phaseNext th = p
  have hX : Dev.PtpOnly n [Reg.PTP_FREQ_FREQ] d { d with ptp := { d.ptp with integ := i, phase := p } } := ⟨rfl, rfl, rfl, rfl, .of_live rfl⟩
  obtain ⟨h1, h2⟩ := Dev.showRate_shows { d with ptp := { d.ptp with integ := i, phase := p } } n (i + p)
  exact ⟨hX.trans h1, h2⟩

/-! ### The path step detector -/

/-- The fields that the detector of port `n` writes. -/
def detFields (n : Nat) : List Fld :=
  [Reg.PTP_PSTAT_HOLD n, Reg.REF_CSTAT_HOLD n, Reg.PTP_PSTEPCNT_COUNT n, Reg.PTP_STATUS_CNT_HALF, Reg.PTP_STATUS_PSTEPEV,
   Reg.PTP_REBASE_REBASE n, Reg.REF_BOUT_NS, Reg.PTP_PSTEPLOG_STEP n]

/-- The detector of port `n` has left its state as `x`. -/
structure Dev.DetPort (n : Nat) (x : PtpPort) (d D : Dev) : Prop where
  ptp : Dev.PtpOnly n (detFields n) d D
  servo : D.servoState = d.servoState
  port : D.pport n = x

/-- HOLD of port `n` and of its candidate show `v`. -/
def Dev.HoldShown (n v : Nat) (d : Dev) : Prop := d.rd (Reg.PTP_PSTAT_HOLD n) = v ∧ d.rd (Reg.REF_CSTAT_HOLD n) = v

theorem Dev.DetPort.trans {n : Nat} {x y : PtpPort} {d d' d'' : Dev} (h : Dev.DetPort n x d d') (h' : Dev.DetPort n y d' d'') :
    Dev.DetPort n y d d'' := ⟨h.ptp.trans h'.ptp, h'.servo.trans h.servo, h'.port⟩

theorem Dev.DetPort.refl (n : Nat) (d : Dev) : Dev.DetPort n (d.pport n) d d := ⟨.refl n _ d, rfl, rfl⟩

theorem Dev.DetPort.of_live {n : Nat} {d D : Dev} (h : Dev.OnlyLive d D) (hs : Dev.SameBut (detFields n) d D) : Dev.DetPort n (d.pport n) d D := by
  have hp : D.ptp = d.ptp := by rw [h]
  exact ⟨.of_live h hs, Dev.servoState_congr hp, Dev.pport_congr hp n⟩

theorem Dev.DetPort.setPport (d : Dev) (n : Fin 2) (x : PtpPort) : Dev.DetPort n x d (d.setPport n x) :=
  ⟨d.setPport_ptpOnly n _ x, d.servoState_setPport n x, d.pport_setPport n x⟩

theorem Dev.rd_setPport (d : Dev) (n : Nat) (x : PtpPort) (f : Fld) : (d.setPport n x).rd f = d.rd f :=
  Dev.rd_congr _ _ _ (by rw [(d.setPport_only n x).1])

theorem Dev.wr_detPort (d : Dev) (n : Nat) {f : Fld} (v : Nat) (hf : f ∈ detFields n) (ok : f.ok = true) : Dev.DetPort n (d.pport n) d (d.wr f v) :=
  .of_live rfl ((Dev.SameBut.refl _ d).wr f v hf ok)

theorem Dev.setHold_holds (d : Dev) (n : Fin 2) (h : Option PathHold) : Dev.DetPort n { d.pport n with hold := h } d (d.setHold n h) ∧
    Dev.HoldShown n (bit h.isSome) (d.setHold n h) := by
  have hs : (Reg.REF_CSTAT_HOLD n).sep (Reg.PTP_PSTAT_HOLD n) = true :=
    (show ∀ n : Fin 2, (Reg.REF_CSTAT_HOLD n).sep (Reg.PTP_PSTAT_HOLD n) = true by decide) n
  have hb1 : bit h.isSome < 2 ^ (Reg.PTP_PSTAT_HOLD n).width := bit_lt h.isSome
  have hb2 : bit h.isSome < 2 ^ (Reg.REF_CSTAT_HOLD n).width := bit_lt h.isSome
  unfold Dev.setHold
  have hX := Dev.DetPort.setPport d n { d.pport n with hold := h }
  generalize d.setPport n { d.pport n with hold := h } = X at hX
  have h1 := X.wr_detPort n (bit h.isSome) (f := Reg.PTP_PSTAT_HOLD n) (by simp [detFields]) rfl
  have h2 := X.rd_wr_lt _ _ rfl hb1
  generalize X.wr (Reg.PTP_PSTAT_HOLD n) (bit h.isSome) = Y at h1 h2
  have h3 := Y.wr_detPort n (bit h.isSome) (f := Reg.REF_CSTAT_HOLD n) (by simp [detFields]) rfl
  rw [h1.port, hX.port] at h3
  exact ⟨hX.trans (h1.trans h3), (Y.rd_wr_sep _ _ _ hs).trans h2, Y.rd_wr_lt _ _ rfl hb2⟩

theorem Dev.holdEnd_ends (d : Dev) (n : Fin 2) : Dev.DetPort n { d.pport n with suspects := 0, hold := none } d (d.holdEnd n) ∧
    Dev.HoldShown n 0 (d.holdEnd n) := by
  have h1 := Dev.DetPort.setPport d n { d.pport n with suspects := 0 }
  obtain ⟨h2, h3⟩ := (d.setPport n { d.pport n with suspects := 0 }).setHold_holds n none
  rw [h1.port] at h2
  exact ⟨h1.trans h2, h3⟩

theorem Dev.pstepEvent_posts (d : Dev) (n : Fin 2) (a b : Nat) : Dev.DetPort n (d.pport n) d (d.pstepEvent a b) ∧
    (d.pstepEvent a b).rd Reg.PTP_STATUS_PSTEPEV = 1 ∧ ∀ f, Reg.PTP_STATUS_PSTEPEV.sep f = true → (d.pstepEvent a b).rd f = d.rd f := by
  unfold Dev.pstepEvent
  have h1 := d.wr_detPort n 1 (f := Reg.PTP_STATUS_PSTEPEV) (by simp [detFields]) rfl
  have h2 := d.rd_flag Reg.PTP_STATUS_PSTEPEV rfl
  have h3 := fun f => d.rd_flag_sep Reg.PTP_STATUS_PSTEPEV f
  change Dev.DetPort n _ d (d.flag _) at h1
  generalize d.flag Reg.PTP_STATUS_PSTEPEV = X at h1 h2 h3
  refine ⟨⟨h1.ptp.trans (X.post_ptpOnly n _ _ _ _), h1.servo, h1.port⟩, h2, h3⟩

theorem pstepev_sep (n : Fin 2) : ∀ f ∈ [Reg.PTP_PSTAT_HOLD n, Reg.REF_CSTAT_HOLD n, Reg.PTP_PSTEPCNT_COUNT n, Reg.PTP_REBASE_REBASE n,
    Reg.PTP_PSTEPLOG_STEP n], Reg.PTP_STATUS_PSTEPEV.sep f = true :=
  (show ∀ n : Fin 2, ∀ f ∈ [Reg.PTP_PSTAT_HOLD n, Reg.REF_CSTAT_HOLD n, Reg.PTP_PSTEPCNT_COUNT n, Reg.PTP_REBASE_REBASE n,
    Reg.PTP_PSTEPLOG_STEP n], Reg.PTP_STATUS_PSTEPEV.sep f = true by decide) n

theorem Dev.HoldShown.event {n : Fin 2} {v : Nat} {d : Dev} (h : Dev.HoldShown n v d) (a b : Nat) : Dev.HoldShown n v (d.pstepEvent a b) := by
  obtain ⟨-, -, h3⟩ := d.pstepEvent_posts n a b
  exact ⟨(h3 _ (pstepev_sep n _ (by simp))).trans h.1, (h3 _ (pstepev_sep n _ (by simp))).trans h.2⟩

theorem Dev.pstepRevert_ends (d : Dev) (n : Fin 2) : Dev.DetPort n { d.pport n with suspects := 0, hold := none } d (d.pstepRevert n) ∧
    Dev.HoldShown n 0 (d.pstepRevert n) := by
  obtain ⟨h1, h2⟩ := d.holdEnd_ends n
  obtain ⟨h3, -, -⟩ := (d.holdEnd n).pstepEvent_posts n 5 n
  rw [h1.port] at h3
  exact ⟨h1.trans h3, h2.event _ _⟩

/-! ### The offset that is taken or corrected -/

theorem IsDelta.of_deltaNs {l : List (Int × Int)} {h : PathHold} : IsDelta l h (deltaNs (8 * sumOf (l.map (·.1)) - h.base)) :=
  quot_near 3 _ (k := 128) (by decide)

theorem PtpPort.delta64_eq (x : PtpPort) (base : Int) : x.delta64 base = 8 * sumOf (x.last.map (·.1)) - base := rfl

theorem Dev.pstepTake_takes (d : Dev) (n : Fin 2) (h : PathHold) (both : Bool) :
    Dev.DetPort n { d.pport n with suspects := 0, hold := none, good := [] } d (d.pstepTake n h both) ∧
    Dev.HoldShown n 0 (d.pstepTake n h both) ∧
    (d.pstepTake n h both).rd (Reg.PTP_PSTEPLOG_STEP n) = sat32 (deltaNs ((d.pport n).delta64 h.base)) := by
  unfold Dev.pstepTake
  dsimp only
  generalize deltaNs ((d.pport n).delta64 h.base) = x
  generalize n.val + bit both * 2 ^ 8 + sat32 x * 2 ^ 32 = arg
  have h1 := d.wr_detPort n (sat32 x) (f := Reg.PTP_PSTEPLOG_STEP n) (by simp [detFields]) rfl
  have g1 := d.rd_wr_lt (Reg.PTP_PSTEPLOG_STEP n) (sat32 x) rfl (sat32_lt x)
  generalize d.wr (Reg.PTP_PSTEPLOG_STEP n) (sat32 x) = X at h1 g1
  obtain ⟨h2, g2⟩ := X.holdEnd_ends n
  have g3 : (X.holdEnd n).rd (Reg.PTP_PSTEPLOG_STEP n) = X.rd (Reg.PTP_PSTEPLOG_STEP n) := by
    have s1 : (Reg.REF_CSTAT_HOLD n).sep (Reg.PTP_PSTEPLOG_STEP n) = true :=
      (show ∀ n : Fin 2, (Reg.REF_CSTAT_HOLD n).sep (Reg.PTP_PSTEPLOG_STEP n) = true by decide) n
    have s2 : (Reg.PTP_PSTAT_HOLD n).sep (Reg.PTP_PSTEPLOG_STEP n) = true :=
      (show ∀ n : Fin 2, (Reg.PTP_PSTAT_HOLD n).sep (Reg.PTP_PSTEPLOG_STEP n) = true by decide) n
    unfold Dev.holdEnd Dev.setHold
    rw [Dev.rd_wr_sep _ _ _ _ s1, Dev.rd_wr_sep _ _ _ _ s2, Dev.rd_setPport, Dev.rd_setPport]
  rw [h1.port] at h2
  generalize X.holdEnd n = Y at h2 g2 g3
  have h4 := Dev.DetPort.setPport Y n { Y.pport n with good := [] }
  have g4 := fun f => Y.rd_setPport n { Y.pport n with good := [] } f
  rw [h2.port] at h4
  obtain ⟨h5, -, g5⟩ := (Y.setPport n { Y.pport n with good := [] }).pstepEvent_posts n 4 arg
  have g6 : Dev.HoldShown n 0 (Y.setPport n { Y.pport n with good := [] }) := ⟨(g4 _).trans g2.1, (g4 _).trans g2.2⟩
  rw [h2.port] at h5 g4 g5 g6 ⊢
  rw [h4.port] at h5
  refine ⟨h1.trans (h2.trans (h4.trans h5)), g6.event _ _, ?_⟩
  rw [g5 _ (pstepev_sep n _ (by simp)), g4, g3, g1]

/-- What PTP_REBASEn shows of the two corrections of port `n` (R357). -/
def PtpPort.shownRebase (x : PtpPort) : Nat := sat32 (x.reb + quot 7 x.bout 8000)

theorem Dev.showRebase_shows (d : Dev) (n : Fin 2) : Dev.DetPort n (d.pport n) d (d.showRebase n) ∧
    (d.showRebase n).rd (Reg.PTP_REBASE_REBASE n) = (d.pport n).shownRebase := by
  have hs : Reg.REF_BOUT_NS.sep (Reg.PTP_REBASE_REBASE n) = true := (show ∀ n : Fin 2, Reg.REF_BOUT_NS.sep (Reg.PTP_REBASE_REBASE n) = true by decide) n
  unfold Dev.showRebase PtpPort.shownRebase
  dsimp only
  generalize quot 7 (d.pport n).bout 8000 = b
  have h1 := d.wr_detPort n (sat32 ((d.pport n).reb + b)) (f := Reg.PTP_REBASE_REBASE n) (by simp [detFields]) rfl
  have g1 := d.rd_wr_lt (Reg.PTP_REBASE_REBASE n) _ rfl (sat32_lt ((d.pport n).reb + b))
  generalize d.wr (Reg.PTP_REBASE_REBASE n) (sat32 ((d.pport n).reb + b)) = X at h1 g1
  split
  · have h2 := X.wr_detPort n (sat32 b) (f := Reg.REF_BOUT_NS) (by simp [detFields]) rfl
    rw [h1.port] at h2
    exact ⟨h1.trans h2, (X.rd_wr_sep _ _ _ hs).trans g1⟩
  · exact ⟨h1, g1⟩

/-- The port behind a re-baselining by `dn`, with the D of its history moved by `dd`. -/
def PtpPort.rebased (x : PtpPort) (dn dd : Int) : PtpPort := { x with good := x.good.map fun e => (e.1, e.2 + dd), reb := x.reb + dn }

theorem Dev.pstepRebase_eq (d : Dev) (n : Nat) (h : PathHold) : d.pstepRebase n h =
    (((d.setPport n ((d.pport n).rebased (deltaNs ((d.pport n).delta64 h.base)) (quot 4 (8 * sumOf ((d.pport n).last.map (·.2)) - h.baseD) 64))).showRebase
      n).holdEnd n).pstepEvent 3 (n + sat32 (deltaNs ((d.pport n).delta64 h.base)) * 2 ^ 32) := rfl

theorem Dev.pstepRebase_rebases (d : Dev) (n : Fin 2) (h : PathHold) :
    let y := (d.pport n).rebased (deltaNs ((d.pport n).delta64 h.base)) (quot 4 (8 * sumOf ((d.pport n).last.map (·.2)) - h.baseD) 64)
    Dev.DetPort n { y with suspects := 0, hold := none } d (d.pstepRebase n h) ∧ Dev.HoldShown n 0 (d.pstepRebase n h) ∧
    (d.pstepRebase n h).rd (Reg.PTP_REBASE_REBASE n) = y.shownRebase := by
  intro y
  rw [Dev.pstepRebase_eq]
  generalize n.val + sat32 (deltaNs ((d.pport n).delta64 h.base)) * 2 ^ 32 = arg
  change Dev.DetPort n { y with suspects := 0, hold := none } d ((((d.setPport n y).showRebase n).holdEnd n).pstepEvent 3 arg) ∧
    Dev.HoldShown n 0 ((((d.setPport n y).showRebase n).holdEnd n).pstepEvent 3 arg) ∧
    ((((d.setPport n y).showRebase n).holdEnd n).pstepEvent 3 arg).rd (Reg.PTP_REBASE_REBASE n) = y.shownRebase
  clear_value y
  have h1 := Dev.DetPort.setPport d n y
  generalize d.setPport n y = X at h1
  obtain ⟨h2, g2⟩ := X.showRebase_shows n
  rw [h1.port] at h2 g2
  generalize X.showRebase n = Y at h2 g2
  obtain ⟨h3, g3⟩ := Y.holdEnd_ends n
  have s1 : (Reg.REF_CSTAT_HOLD n).sep (Reg.PTP_REBASE_REBASE n) = true :=
    (show ∀ n : Fin 2, (Reg.REF_CSTAT_HOLD n).sep (Reg.PTP_REBASE_REBASE n) = true by decide) n
  have s2 : (Reg.PTP_PSTAT_HOLD n).sep (Reg.PTP_REBASE_REBASE n) = true :=
    (show ∀ n : Fin 2, (Reg.PTP_PSTAT_HOLD n).sep (Reg.PTP_REBASE_REBASE n) = true by decide) n
  have g4 : (Y.holdEnd n).rd (Reg.PTP_REBASE_REBASE n) = Y.rd (Reg.PTP_REBASE_REBASE n) := by
    unfold Dev.holdEnd Dev.setHold
    rw [Dev.rd_wr_sep _ _ _ _ s1, Dev.rd_wr_sep _ _ _ _ s2, Dev.rd_setPport, Dev.rd_setPport]
  rw [h2.port] at h3
  generalize Y.holdEnd n = Z at h3 g3 g4
  obtain ⟨h5, -, g5⟩ := Z.pstepEvent_posts n 3 arg
  rw [h3.port] at h5
  refine ⟨h1.trans (h2.trans (h3.trans h5)), g3.event _ _, ?_⟩
  rw [g5 _ (pstepev_sep n _ (by simp)), g4, g2]

/-! ### The decision of a path hold -/

/-- Port `n` stays in path hold. -/
def Dev.Stays (n : Nat) (h : PathHold) (single : Bool) (d D : Dev) : Prop :=
  Dev.DetPort n { d.pport n with hold := some { h with count := h.count + 1, single := single } } d D ∧ Dev.HoldShown n 1 D

/-- The path hold of port `n` ends and nothing else changes. -/
def Dev.Reverts (n : Nat) (d D : Dev) : Prop := Dev.DetPort n { d.pport n with suspects := 0, hold := none } d D ∧ Dev.HoldShown n 0 D

/-- Port `n` is re-baselined. -/
def Dev.Rebases (n : Nat) (h : PathHold) (d D : Dev) : Prop :=
  let y := (d.pport n).rebased (deltaNs ((d.pport n).delta64 h.base)) (quot 4 (8 * sumOf ((d.pport n).last.map (·.2)) - h.baseD) 64)
  Dev.DetPort n { y with suspects := 0, hold := none } d D ∧ Dev.HoldShown n 0 D ∧ D.rd (Reg.PTP_REBASE_REBASE n) = y.shownRebase

/-- The new offset of port `n` is taken. -/
def Dev.Takes (n : Nat) (h : PathHold) (d D : Dev) : Prop :=
  Dev.DetPort n { d.pport n with suspects := 0, hold := none, good := [] } d D ∧ Dev.HoldShown n 0 D ∧
  D.rd (Reg.PTP_PSTEPLOG_STEP n) = sat32 (deltaNs ((d.pport n).delta64 h.base))

theorem Dev.setHold_stays (d : Dev) (n : Fin 2) (h : PathHold) (single : Bool) :
    Dev.Stays n h single d (d.setHold n (some { h with count := h.count + 1, single := single })) := d.setHold_holds n _

/-- The other port is usable in the words of R333. -/
def Dev.Usable (d : Dev) (n : Nat) (h : PathHold) : Prop :=
  d.ptpOn (1 - n) = true ∧ d.rd (Reg.PTP_PSTAT_STATE (1 - n)) = 3 ∧
  (∃ m, (d.pport (1 - n)).lastTick = some m ∧ d.tick ≤ m + 16000) ∧ (d.pport (1 - n)).hold = none ∧ h.other ≠ none

theorem Dev.otherUsable_iff (d : Dev) (n : Nat) (h : PathHold) : d.otherUsable n h = true ↔ d.Usable n h := by
  unfold Dev.otherUsable Dev.Usable
  cases hl : (d.pport (1 - n)).lastTick <;>
    simp [hl, Option.isSome_iff_ne_none, and_assoc]

theorem Dev.holdStep_eq (d : Dev) (n : Nat) (h : PathHold) : d.holdStep n h =
    let X := d.setHold n (some { h with count := h.count + 1 })
    if h.single then if (((X.pport n).delta64 h.base).natAbs : Int) ≤ 64 * (X.rd Reg.PTP_PSTEP_THRESH : Int) then X.pstepRevert n else X
    else if h.count + 1 = 8 then X.pstepDecide n { h with count := h.count + 1 } else X := rfl

theorem Dev.pstepDecide_eq (d : Dev) (n : Nat) (h : PathHold) : d.pstepDecide n h =
    let lim : Int := 64 * d.rd Reg.PTP_PSTEP_THRESH
    let dn := (d.pport n).delta64 h.base
    let od := (d.pport (1 - n)).delta64 (h.other.getD 0)
    if (dn.natAbs : Int) ≤ lim then d.pstepRevert n
    else if !d.otherUsable n h then d.setHold n (some { h with single := true })
    else if (od.natAbs : Int) ≤ lim then d.pstepRebase n h
    else if 2 * lim < od.natAbs ∧ ((dn - od).natAbs : Int) ≤ lim then d.pstepTake n h true
    else d.setHold n (some { h with single := true }) := by
  have h2 : (2 : Int) * (64 * (d.rd Reg.PTP_PSTEP_THRESH : Int)) = 128 * d.rd Reg.PTP_PSTEP_THRESH := by omega
  dsimp only
  rw [h2]
  rfl

/-- The decision of the detector at an exchange of a port in path hold (R333, R334). -/
theorem Dev.holdStep_decides (d : Dev) (n : Fin 2) (h : PathHold) :
    let lim : Int := 64 * d.rd Reg.PTP_PSTEP_THRESH
    let dn := (d.pport n).delta64 h.base
    let od := (d.pport (1 - n.val)).delta64 (h.other.getD 0)
    let D := d.holdStep n h
    (h.single = true → ((dn.natAbs : Int) ≤ lim → Dev.Reverts n d D) ∧ (lim < dn.natAbs → Dev.Stays n h true d D)) ∧
    (h.single = false → h.count + 1 ≠ 8 → Dev.Stays n h false d D) ∧
    (h.single = false → h.count + 1 = 8 →
      ((dn.natAbs : Int) ≤ lim → Dev.Reverts n d D) ∧
      (lim < dn.natAbs → ¬ d.Usable n h → Dev.Stays n h true d D) ∧
      (lim < dn.natAbs → d.Usable n h → (od.natAbs : Int) ≤ lim → Dev.Rebases n h d D) ∧
      (lim < dn.natAbs → d.Usable n h → 2 * lim < od.natAbs → ((dn - od).natAbs : Int) ≤ lim → Dev.Takes n h d D) ∧
      (lim < dn.natAbs → d.Usable n h → lim < od.natAbs → ¬ (2 * lim < od.natAbs ∧ ((dn - od).natAbs : Int) ≤ lim) →
        Dev.Stays n h true d D)) := by
  intro lim dn od D
  have hD : D = _ := d.holdStep_eq n h
  obtain ⟨hX, hXs⟩ := d.setHold_holds n (some { h with count := h.count + 1 })
  generalize hXe : d.setHold n (some { h with count := h.count + 1 }) = X at hX hXs hD
  dsimp only at hD
  have hc1 : Fld.clear (detFields n) Reg.PTP_PSTEP_THRESH = true := (show ∀ n : Fin 2, Fld.clear (detFields n) Reg.PTP_PSTEP_THRESH = true by decide) n
  have hc2 : Fld.clear (detFields n) Reg.PTP_CFG_ENABLE = true := (show ∀ n : Fin 2, Fld.clear (detFields n) Reg.PTP_CFG_ENABLE = true by decide) n
  have hc3 : Fld.clear (detFields n) (Reg.PTP_PCFG_ENABLE (1 - n.val)) = true :=
    (show ∀ n : Fin 2, Fld.clear (detFields n) (Reg.PTP_PCFG_ENABLE (1 - n.val)) = true by decide) n
  have hc4 : Fld.clear (detFields n) (Reg.PTP_PSTAT_STATE (1 - n.val)) = true :=
    (show ∀ n : Fin 2, Fld.clear (detFields n) (Reg.PTP_PSTAT_STATE (1 - n.val)) = true by decide) n
  have hlim : (64 * X.rd Reg.PTP_PSTEP_THRESH : Int) = lim := by rw [hX.ptp.same.rd hc1]
  have hdn : (X.pport n).delta64 h.base = dn := by rw [hX.port]; rfl
  have hod : (X.pport (1 - n.val)).delta64 (h.other.getD 0) = od := by rw [hX.ptp.other]
  have huse : X.Usable n { h with count := h.count + 1 } ↔ d.Usable n h := by
    unfold Dev.Usable Dev.ptpOn
    rw [Dev.on_congr (hX.ptp.same.rd hc2), Dev.on_congr (hX.ptp.same.rd hc3), hX.ptp.same.rd hc4, hX.ptp.other, hX.ptp.tick]
  have hstay : ∀ single, h.single = single → X = D → Dev.Stays n h single d D := fun single hs he => by
    refine ⟨?_, ?_⟩
    · rw [← he, ← hs]
      exact hX
    · rw [← he]
      exact hXs
  have hrev : D = X.pstepRevert n → Dev.Reverts n d D := fun he => by
    obtain ⟨h1, h2⟩ := X.pstepRevert_ends n
    rw [hX.port] at h1
    rw [he]
    exact ⟨hX.trans h1, h2⟩
  refine ⟨fun hs => ?_, fun hs hc => ?_, fun hs hc => ?_⟩
  · rw [if_pos hs, hlim, hdn] at hD
    exact ⟨fun h1 => hrev (by rw [hD, if_pos h1]), fun h1 => hstay true hs (by rw [hD, if_neg (by omega)])⟩
  · rw [if_neg (by rw [hs]; decide), if_neg hc] at hD
    exact hstay false hs hD.symm
  · rw [if_neg (by rw [hs]; decide), if_pos hc, Dev.pstepDecide_eq] at hD
    dsimp only at hD
    rw [hlim, hdn, hod] at hD
    have hsing : D = X.setHold n (some { h with count := h.count + 1, single := true }) → Dev.Stays n h true d D := fun he => by
      obtain ⟨h1, h2⟩ := X.setHold_holds n (some { h with count := h.count + 1, single := true })
      rw [hX.port] at h1
      rw [he]
      exact ⟨hX.trans h1, h2⟩
    refine ⟨fun h1 => ?_, fun h1 h2 => ?_, fun h1 h2 h3 => ?_, fun h1 h2 h3 h4 => ?_, fun h1 h2 h3 h4 => ?_⟩
    · exact hrev (by rw [hD, if_pos h1])
    · refine hsing ?_
      rw [hD, if_neg (by omega), if_pos]
      rw [Bool.not_eq_true', Bool.eq_false_iff]
      exact fun hu => h2 (huse.mp ((X.otherUsable_iff ..).mp hu))
    all_goals
      have hu := (X.otherUsable_iff n _).mpr (huse.mpr h2)
      rw [if_neg (show ¬((dn.natAbs : Int) ≤ lim) by omega), hu, if_neg (by decide)] at hD
    · rw [if_pos h3] at hD
      obtain ⟨g1, g2, g3⟩ := X.pstepRebase_rebases n { h with count := h.count + 1 }
      rw [hX.port] at g1 g3
      rw [hD]
      exact ⟨hX.trans g1, g2, g3⟩
    · rw [if_neg (by omega), if_pos ⟨h3, h4⟩] at hD
      obtain ⟨g1, g2, g3⟩ := X.pstepTake_takes n { h with count := h.count + 1 } true
      rw [hX.port] at g1 g3
      rw [hD]
      exact ⟨hX.trans g1, g2, g3⟩
    · rw [if_neg (by omega), if_neg h4] at hD
      exact hsing hD

/-! ### The firing of the detector -/

/-- The path hold that a firing opens on port `n`, with the baseline `other` of the other port (R332). -/
def Dev.firedHold (d : Dev) (n : Nat) (other : Option Int) : PathHold where
  tick := d.tick
  base := sumOf ((d.pport n).good.map (·.1))
  baseD := sumOf ((d.pport n).good.map (·.2))
  other := other

theorem Dev.pstepFire_fires (d : Dev) (n : Fin 2) (th : Int) : let D := d.pstepFire n th
    ∃ other, (other ≠ none ↔ (d.pport (1 - n.val)).good.length = 64) ∧
      Dev.DetPort n { d.pport n with hold := some (d.firedHold n other) } d D ∧ Dev.HoldShown n 1 D ∧
      D.rd (Reg.PTP_PSTEPCNT_COUNT n) = (d.rd (Reg.PTP_PSTEPCNT_COUNT n) + 1) % 2 ^ 32 ∧ D.rd Reg.PTP_STATUS_PSTEPEV = 1 := by
  intro D
  have hD : D = d.pstepFire n th := rfl
  unfold Dev.pstepFire at hD
  dsimp only at hD
  generalize n.val + sat32 _ * 2 ^ 32 = arg at hD
  generalize hoe : (if (d.pport (1 - n.val)).good.length = 64 then some (sumOf ((d.pport (1 - n.val)).good.map (·.1))) else none) = other at hD
  have ho : other ≠ none ↔ (d.pport (1 - n.val)).good.length = 64 := by
    rw [← hoe]
    split
    case isTrue h => exact ⟨fun _ => h, fun _ => Option.some_ne_none _⟩
    case isFalse h => exact ⟨fun hx => absurd rfl hx, fun hx => absurd hx h⟩
  clear_value D
  change D = ((d.setHold n (some (d.firedHold n other))).count (Reg.PTP_PSTEPCNT_COUNT n) Reg.PTP_STATUS_CNT_HALF).pstepEvent 2 arg at hD
  refine ⟨other, ho, ?_⟩
  generalize d.firedHold n other = h at hD ⊢
  obtain ⟨h1, g1⟩ := d.setHold_holds n (some h)
  have f1 : (d.setHold n (some h)).rd (Reg.PTP_PSTEPCNT_COUNT n) = d.rd (Reg.PTP_PSTEPCNT_COUNT n) := by
    have s1 : (Reg.REF_CSTAT_HOLD n).sep (Reg.PTP_PSTEPCNT_COUNT n) = true :=
      (show ∀ n : Fin 2, (Reg.REF_CSTAT_HOLD n).sep (Reg.PTP_PSTEPCNT_COUNT n) = true by decide) n
    have s2 : (Reg.PTP_PSTAT_HOLD n).sep (Reg.PTP_PSTEPCNT_COUNT n) = true :=
      (show ∀ n : Fin 2, (Reg.PTP_PSTAT_HOLD n).sep (Reg.PTP_PSTEPCNT_COUNT n) = true by decide) n
    unfold Dev.setHold
    rw [Dev.rd_wr_sep _ _ _ _ s1, Dev.rd_wr_sep _ _ _ _ s2, Dev.rd_setPport]
  generalize d.setHold n (some h) = X at h1 g1 f1 hD
  have h2 : Dev.DetPort n (X.pport n) X (X.count (Reg.PTP_PSTEPCNT_COUNT n) Reg.PTP_STATUS_CNT_HALF) :=
    .of_live (X.count_onlyLive ..) ((Dev.SameBut.refl _ X).count _ _ _ (by simp [detFields]) (by simp [detFields]) rfl rfl)
  have hap : Reg.PTP_STATUS_CNT_HALF.apart (Reg.PTP_PSTEPCNT_COUNT n) = true :=
    (show ∀ n : Fin 2, Reg.PTP_STATUS_CNT_HALF.apart (Reg.PTP_PSTEPCNT_COUNT n) = true by decide) n
  have f2 := X.rd_count (Reg.PTP_PSTEPCNT_COUNT n) Reg.PTP_STATUS_CNT_HALF 1 rfl rfl hap
  have g2 : Dev.HoldShown n 1 (X.count (Reg.PTP_PSTEPCNT_COUNT n) Reg.PTP_STATUS_CNT_HALF) := by
    have w1 : (Reg.PTP_PSTEPCNT_COUNT n).addr ≠ (Reg.PTP_PSTAT_HOLD n).addr ∧ Reg.PTP_STATUS_CNT_HALF.addr ≠ (Reg.PTP_PSTAT_HOLD n).addr ∧
        (Reg.PTP_PSTEPCNT_COUNT n).addr ≠ (Reg.REF_CSTAT_HOLD n).addr ∧ Reg.PTP_STATUS_CNT_HALF.addr ≠ (Reg.REF_CSTAT_HOLD n).addr :=
      (show ∀ n : Fin 2, (Reg.PTP_PSTEPCNT_COUNT n).addr ≠ (Reg.PTP_PSTAT_HOLD n).addr ∧ Reg.PTP_STATUS_CNT_HALF.addr ≠ (Reg.PTP_PSTAT_HOLD n).addr ∧
        (Reg.PTP_PSTEPCNT_COUNT n).addr ≠ (Reg.REF_CSTAT_HOLD n).addr ∧ Reg.PTP_STATUS_CNT_HALF.addr ≠ (Reg.REF_CSTAT_HOLD n).addr by decide) n
    exact ⟨(Dev.rd_of_word (X.word_count_ne _ _ _ _ w1.1 w1.2.1)).trans g1.1, (Dev.rd_of_word (X.word_count_ne _ _ _ _ w1.2.2.1 w1.2.2.2)).trans g1.2⟩
  rw [h1.port] at h2
  generalize X.count (Reg.PTP_PSTEPCNT_COUNT n) Reg.PTP_STATUS_CNT_HALF = Y at h2 f2 g2 hD
  obtain ⟨h3, e3, f3⟩ := Y.pstepEvent_posts n 2 arg
  rw [h2.port] at h3
  rw [hD]
  refine ⟨ h1.trans (h2.trans h3), g2.event _ _, ?_, e3⟩
  rw [f3 _ (pstepev_sep n _ (by simp)), f2, f1]
  rfl

end Sys2Proof.Machine
end

section
/-! PTP exchanges steer the servo and detect path steps (R323, R327 to R335, R345). -/
namespace Sys2Proof.Machine
open Sys2Proof.Claims

/-! ### An exchange in its steps -/

/-- The port behind an exchange with offset `th` and delay `D`, before the servo and the detector act. -/
def PtpPort.exchanged (x : PtpPort) (tick : Nat) (th D : Int) (bad : Bool) : PtpPort :=
  { x with
    last := ((th, D) :: x.last).take 8, lastTick := some tick,
    good := if bad then x.good else ((th, D) :: x.good).take 64, suspects := if bad then x.suspects + 1 else 0 }

def Dev.suspectCounted (d : Dev) (n : Nat) (bad : Bool) : Dev := if bad then d.count (Reg.PTP_SUSPECT_COUNT n) Reg.PTP_STATUS_CNT_HALF else d
def Dev.exchLock (d : Dev) (n : Nat) (th : Int) (bad : Bool) : Dev := if d.steers n && !bad then d.lockStep n th else d
def Dev.exchServo (d : Dev) (n : Nat) (th : Int) (holds : Bool) : Dev :=
  if d.steers n then (if holds then d.servoHold else d.servo n th) else d
def Dev.exchDetect (d : Dev) (n : Nat) (th : Int) (held : Option PathHold) (fired : Bool) : Dev :=
  match held with
  | some h => d.holdStep n h
  | none => if fired then d.pstepFire n th else d

/-- The detector fires at this exchange. -/
def PtpPort.fires (x : PtpPort) (bad : Bool) : Bool := bad && x.suspects + 1 ≥ 3 && x.hold.isNone

theorem Dev.exchange_eq (d : Dev) (n : Nat) (th D : Int) : d.exchange n th D =
    let c := d.count (Reg.PTP_EXCH_COUNT n) Reg.PTP_STATUS_CNT_HALF
    let x := c.pport n
    let bad := c.suspect n th D
    (((((c.setPport n (x.exchanged c.tick th D bad)).showOffset n).suspectCounted n bad).exchLock n th bad).exchServo n th
      (bad || x.hold.isSome)).exchDetect n th x.hold (x.fires bad) := rfl

/-- The fields that an exchange of port `n` writes before the detector acts. -/
def preFields (n : Nat) : List Fld :=
  [Reg.PTP_EXCH_COUNT n, Reg.PTP_STATUS_CNT_HALF, Reg.PTP_SUSPECT_COUNT n] ++ offFields n ++ lockFields n ++ [Reg.PTP_FREQ_FREQ]

/-- LOCK of port `n` after an exchange with offset `th` that the lock follows (R330). -/
def Dev.lockNext (d : Dev) (n : Nat) (th : Int) : Nat :=
  if 16 ≤ d.withinNext n th then 1
  else if 2 * (2 * (d.rd Reg.PTP_SERVO_LOCK_NS : Int)) < th.natAbs then 0 else d.rd (Reg.PTP_PSTAT_LOCK n)

/-- The servo after an exchange with offset `th` (R329, R331). -/
def Dev.servoNext (d : Dev) (n : Nat) (th : Int) (holds : Bool) : Int × Int × Int :=
  if holds then (d.ptp.integ, 0, d.ptp.integ) else (d.integNext n th, d.phaseNext th, d.integNext n th + d.phaseNext th)

/-- What an exchange leaves before the detector acts. -/
structure Dev.BeforeDetect (n : Nat) (th D : Int) (d F : Dev) : Prop where
  ptp : Dev.PtpOnly n (preFields n) d F
  exch : F.rd (Reg.PTP_EXCH_COUNT n) = (d.rd (Reg.PTP_EXCH_COUNT n) + 1) % 2 ^ 32
  suspects : F.rd (Reg.PTP_SUSPECT_COUNT n) =
    if d.suspect n th D then (d.rd (Reg.PTP_SUSPECT_COUNT n) + 1) % 2 ^ 32 else d.rd (Reg.PTP_SUSPECT_COUNT n)
  port : F.pport n = { (d.pport n).exchanged d.tick th D (d.suspect n th D) with
    within := if d.steers n && !d.suspect n th D then d.withinNext n th else (d.pport n).within }
  offset : ∃ m, F.rd (Reg.PTP_OFF_THETA n) = sat32 m ∧
    (2 * ((((th, D) :: (d.pport n).last).take 8).length : Int) * m - sumOf ((((th, D) :: (d.pport n).last).take 8).map (·.1))).natAbs <
      2 * (((th, D) :: (d.pport n).last).take 8).length
  lock : F.rd (Reg.PTP_PSTAT_LOCK n) = if d.steers n && !d.suspect n th D then d.lockNext n th else d.rd (Reg.PTP_PSTAT_LOCK n)
  servo : F.servoState = if d.steers n then d.servoNext n th (d.suspect n th D || (d.pport n).hold.isSome) else d.servoState

theorem Dev.suspect_congr {d D : Dev} {n : Nat} (hp : D.pport n = d.pport n) (hr : D.rd Reg.PTP_PSTEP_THRESH = d.rd Reg.PTP_PSTEP_THRESH)
    (th De : Int) : D.suspect n th De = d.suspect n th De := by
  unfold Dev.suspect
  rw [hp, hr]

theorem Dev.steers_congr {d D : Dev} {n : Nat} (h1 : D.rd Reg.PTP_STATUS_STEER = d.rd Reg.PTP_STATUS_STEER)
    (h2 : D.rd (Reg.REF_CSTAT_STATE n) = d.rd (Reg.REF_CSTAT_STATE n)) : D.steers n = d.steers n := by
  unfold Dev.steers Dev.candState
  rw [h1, h2]

theorem preFields_clear (n : Fin 2) : [Reg.PTP_PSTEP_THRESH, Reg.PTP_STATUS_STEER, Reg.REF_CSTAT_STATE n, Reg.PTP_SERVO_LOCK_NS, Reg.PTP_SERVO_BW,
    Reg.PTP_PRATE_LOG_SYNC n, Reg.REF_SLEW_PHASE, Reg.PTP_CFG_ENABLE, Reg.PTP_PCFG_ENABLE (1 - n.val), Reg.PTP_PSTAT_STATE (1 - n.val)].all
    (Fld.clear (preFields n)) = true :=
  (show ∀ n : Fin 2, [Reg.PTP_PSTEP_THRESH, Reg.PTP_STATUS_STEER, Reg.REF_CSTAT_STATE n, Reg.PTP_SERVO_LOCK_NS, Reg.PTP_SERVO_BW,
    Reg.PTP_PRATE_LOG_SYNC n, Reg.REF_SLEW_PHASE, Reg.PTP_CFG_ENABLE, Reg.PTP_PCFG_ENABLE (1 - n.val), Reg.PTP_PSTAT_STATE (1 - n.val)].all
    (Fld.clear (preFields n)) = true by decide) n

/-- A field of another group of the exchange's own fields. -/
theorem exchGroups_clear (n : Fin 2) :
    Fld.clear ([Reg.PTP_SUSPECT_COUNT n, Reg.PTP_STATUS_CNT_HALF] ++ offFields n ++ lockFields n ++ [Reg.PTP_FREQ_FREQ]) (Reg.PTP_EXCH_COUNT n) = true ∧
    Fld.clear ([Reg.PTP_EXCH_COUNT n, Reg.PTP_STATUS_CNT_HALF] ++ offFields n ++ lockFields n ++ [Reg.PTP_FREQ_FREQ]) (Reg.PTP_SUSPECT_COUNT n) = true ∧
    Fld.clear ([Reg.PTP_SUSPECT_COUNT n, Reg.PTP_STATUS_CNT_HALF] ++ lockFields n ++ [Reg.PTP_FREQ_FREQ]) (Reg.PTP_OFF_THETA n) = true ∧
    Fld.clear ([Reg.PTP_EXCH_COUNT n, Reg.PTP_SUSPECT_COUNT n, Reg.PTP_STATUS_CNT_HALF, Reg.PTP_FREQ_FREQ] ++ offFields n) (Reg.PTP_PSTAT_LOCK n) = true :=
  (show ∀ n : Fin 2,
    Fld.clear ([Reg.PTP_SUSPECT_COUNT n, Reg.PTP_STATUS_CNT_HALF] ++ offFields n ++ lockFields n ++ [Reg.PTP_FREQ_FREQ]) (Reg.PTP_EXCH_COUNT n) = true ∧
    Fld.clear ([Reg.PTP_EXCH_COUNT n, Reg.PTP_STATUS_CNT_HALF] ++ offFields n ++ lockFields n ++ [Reg.PTP_FREQ_FREQ]) (Reg.PTP_SUSPECT_COUNT n) = true ∧
    Fld.clear ([Reg.PTP_SUSPECT_COUNT n, Reg.PTP_STATUS_CNT_HALF] ++ lockFields n ++ [Reg.PTP_FREQ_FREQ]) (Reg.PTP_OFF_THETA n) = true ∧
    Fld.clear ([Reg.PTP_EXCH_COUNT n, Reg.PTP_SUSPECT_COUNT n, Reg.PTP_STATUS_CNT_HALF, Reg.PTP_FREQ_FREQ] ++ offFields n) (Reg.PTP_PSTAT_LOCK n) = true
    by decide) n

theorem Dev.suspectCounted_counts (d : Dev) (n : Fin 2) (bad : Bool) :
    Dev.PtpOnly n [Reg.PTP_SUSPECT_COUNT n, Reg.PTP_STATUS_CNT_HALF] d (d.suspectCounted n bad) ∧ (d.suspectCounted n bad).ptp = d.ptp ∧
    (d.suspectCounted n bad).rd (Reg.PTP_SUSPECT_COUNT n) =
      if bad then (d.rd (Reg.PTP_SUSPECT_COUNT n) + 1) % 2 ^ 32 else d.rd (Reg.PTP_SUSPECT_COUNT n) := by
  have hap : Reg.PTP_STATUS_CNT_HALF.apart (Reg.PTP_SUSPECT_COUNT n) = true :=
    (show ∀ n : Fin 2, Reg.PTP_STATUS_CNT_HALF.apart (Reg.PTP_SUSPECT_COUNT n) = true by decide) n
  unfold Dev.suspectCounted
  cases bad with
  | false => exact ⟨.refl _ _ d, rfl, rfl⟩
  | true =>
    rw [if_pos rfl, if_pos rfl]
    exact ⟨d.count_ptpOnly n _ _ 1 rfl rfl, Dev.count_ptp .., d.rd_count _ _ 1 rfl rfl hap⟩

theorem Dev.exchLock_locks (d : Dev) (n : Fin 2) (th : Int) (bad : Bool) : let D := d.exchLock n th bad
    Dev.PtpOnly n (lockFields n) d D ∧ D.servoState = d.servoState ∧
    (D.pport n = { d.pport n with within := if d.steers n && !bad then d.withinNext n th else (d.pport n).within }) ∧
    D.rd (Reg.PTP_PSTAT_LOCK n) = if d.steers n && !bad then d.lockNext n th else d.rd (Reg.PTP_PSTAT_LOCK n) := by
  unfold Dev.exchLock
  cases d.steers n && !bad with
  | false => exact ⟨.refl _ _ d, rfl, rfl, rfl⟩
  | true => exact d.lockStep_locks n th

theorem Dev.exchServo_steers (d : Dev) (n : Fin 2) (th : Int) (holds : Bool) : let D := d.exchServo n th holds
    Dev.PtpOnly n [Reg.PTP_FREQ_FREQ] d D ∧ D.pport n = d.pport n ∧ D.servoState = if d.steers n then d.servoNext n th holds else d.servoState := by
  unfold Dev.exchServo Dev.servoNext
  cases d.steers n with
  | false => exact ⟨.refl _ _ d, rfl, rfl⟩
  | true =>
    cases holds with
    | true =>
      obtain ⟨h1, h2⟩ := d.servoHold_holds n
      refine ⟨h1, ?_, ?_⟩
      · show d.servoHold.pport n = _
        rw [Dev.pport, h2, Dev.pport]
      · show d.servoHold.servoState = (d.ptp.integ, 0, d.ptp.integ)
        rw [Dev.servoState, h2]
    | false =>
      obtain ⟨h1, h2⟩ := d.servo_steers n th
      refine ⟨h1, ?_, ?_⟩
      · show (d.servo n th).pport n = _
        rw [Dev.pport, h2, Dev.pport]
      · show (d.servo n th).servoState = (d.integNext n th, d.phaseNext th, d.integNext n th + d.phaseNext th)
        rw [Dev.servoState, h2]

theorem Dev.exchange_before (d : Dev) (n : Fin 2) (th D : Int) : ∃ F, Dev.BeforeDetect n th D d F ∧
    d.exchange n th D = F.exchDetect n th (d.pport n).hold ((d.pport n).fires (d.suspect n th D)) := by
  have hpre := preFields_clear n
  obtain ⟨c1, c2, c3, c4⟩ := exchGroups_clear n
  have hap : Reg.PTP_STATUS_CNT_HALF.apart (Reg.PTP_EXCH_COUNT n) = true :=
    (show ∀ n : Fin 2, Reg.PTP_STATUS_CNT_HALF.apart (Reg.PTP_EXCH_COUNT n) = true by decide) n
  rw [Dev.exchange_eq]
  dsimp only
  have hC := d.count_ptpOnly n (Reg.PTP_EXCH_COUNT n) Reg.PTP_STATUS_CNT_HALF 1 rfl rfl
  have hCp : (d.count (Reg.PTP_EXCH_COUNT n) Reg.PTP_STATUS_CNT_HALF).ptp = d.ptp := Dev.count_ptp ..
  have hCe := d.rd_count (Reg.PTP_EXCH_COUNT n) Reg.PTP_STATUS_CNT_HALF 1 rfl rfl hap
  generalize d.count (Reg.PTP_EXCH_COUNT n) Reg.PTP_STATUS_CNT_HALF = C at hC hCp hCe
  have hC' := hC.mono (gs := preFields n) (by simp [preFields])
  have hCx := Dev.pport_congr hCp n
  have hbad : C.suspect n th D = d.suspect n th D := Dev.suspect_congr hCx (hC'.same.rds hpre _ (by simp)) th D
  rw [hbad, hCx, hC.tick]
  generalize hb : d.suspect n th D = bad
  generalize hx : (d.pport n).exchanged d.tick th D bad = x
  have hX := C.setPport_ptpOnly n (preFields n) x
  have hXp := C.pport_setPport n x
  have hXv := C.servoState_setPport n x
  have hXr := C.rd_setPport n x
  generalize C.setPport n x = X at hX hXp hXv hXr
  have hlast : (X.pport n).last = ((th, D) :: (d.pport n).last).take 8 := by rw [hXp, ← hx]; rfl
  obtain ⟨hO, hOp, hOo⟩ := X.showOffset_shows n (by rw [hlast]; simp)
  generalize X.showOffset n = O at hO hOp hOo
  obtain ⟨hS, hSp, hSc⟩ := O.suspectCounted_counts n bad
  generalize O.suspectCounted n bad = S at hS hSp hSc
  have h4 : Dev.PtpOnly n (preFields n) d S := hC'.trans (hX.trans ((hO.mono (by simp [preFields]; tauto)).trans (hS.mono (by simp [preFields]))))
  have h4r := h4.same.rds hpre
  have hSx : S.pport n = x := (Dev.pport_congr hSp n).trans ((Dev.pport_congr hOp n).trans hXp)
  have hSv : S.servoState = d.servoState :=
    (Dev.servoState_congr hSp).trans ((Dev.servoState_congr hOp).trans (hXv.trans (Dev.servoState_congr hCp)))
  have hst : S.steers n = d.steers n := Dev.steers_congr (h4r _ (by simp)) (h4r _ (by simp))
  have hSl : S.rd (Reg.PTP_PSTAT_LOCK n) = d.rd (Reg.PTP_PSTAT_LOCK n) := by
    rw [(hS.same.mono (by simp)).rd c4, (hO.same.mono (by simp; tauto)).rd c4, hXr, (hC.same.mono (by simp)).rd c4]
  have hw : S.withinNext n th = d.withinNext n th := by
    rw [Dev.withinNext, h4r _ (by simp), hSx, ← hx, Dev.withinNext]
    rfl
  have hln : S.lockNext n th = d.lockNext n th := by rw [Dev.lockNext, hw, h4r _ (by simp), hSl, Dev.lockNext]
  obtain ⟨hL, hLv, hLp, hLl⟩ := S.exchLock_locks n th bad
  generalize S.exchLock n th bad = L at hL hLv hLp hLl
  have h5 : Dev.PtpOnly n (preFields n) d L := h4.trans (hL.mono (by simp [preFields]; tauto))
  have h5r := h5.same.rds hpre
  have hst5 : L.steers n = d.steers n := Dev.steers_congr (h5r _ (by simp)) (h5r _ (by simp))
  have hLs : L.servoState = d.servoState := hLv.trans hSv
  generalize hho : (bad || (d.pport n).hold.isSome) = holds
  have hnext : L.servoNext n th holds = d.servoNext n th holds := by
    have hi : L.ptp.integ = d.ptp.integ := congrArg Prod.fst hLs
    unfold Dev.servoNext Dev.integNext Dev.phaseNext
    rw [hi, h5r Reg.PTP_SERVO_BW (by simp), h5r (Reg.PTP_PRATE_LOG_SYNC n) (by simp), h5r Reg.REF_SLEW_PHASE (by simp)]
  obtain ⟨hF, hFp, hFv⟩ := L.exchServo_steers n th holds
  generalize L.exchServo n th holds = F at hF hFp hFv
  refine ⟨F, ⟨h5.trans (hF.mono (by simp [preFields])), ?_, ?_, ?_, ?_, ?_, ?_⟩, rfl⟩
  · rw [(hF.same.mono (by simp)).rd c1, (hL.same.mono (by simp; tauto)).rd c1, (hS.same.mono (by simp)).rd c1, (hO.same.mono (by simp; tauto)).rd c1,
      hXr, hCe]
    rfl
  · rw [(hF.same.mono (by simp)).rd c2, (hL.same.mono (by simp; tauto)).rd c2, hSc, (hO.same.mono (by simp; tauto)).rd c2, hXr,
      (hC.same.mono (by simp)).rd c2, hb]
  · rw [hFp, hLp, hSx, hst, hw, hb, ← hx]
    rfl
  · obtain ⟨m, hm, hmn⟩ := hOo
    rw [hlast] at hmn
    refine ⟨m, ?_, hmn⟩
    rw [(hF.same.mono (by simp)).rd c3, (hL.same.mono (by simp; tauto)).rd c3, (hS.same.mono (by simp)).rd c3, hm]
  · rw [(hF.same.mono (by simp)).rd c4, hLl, hst, hln, hSl, hb]
  · rw [hFv, hst5, hnext, hLs, hb, hho]

/-! ### The state of a port, and its candidate -/

/-- What concerns PTP port `n` and its candidate: registers among `fs`, events, the servo, the port and REF. -/
structure Dev.PtpRef (n : Nat) (fs : List Fld) (d D : Dev) : Prop where
  only : D = { d with live := D.live, evq := D.evq, ref := D.ref, ptp := D.ptp }
  stamps : D.ptp.stamps = d.ptp.stamps
  trigs : D.ptp.trigs = d.ptp.trigs
  other : D.pport (1 - n) = d.pport (1 - n)
  same : Dev.SameBut fs d D

theorem Dev.PtpRef.trans {n : Nat} {fs : List Fld} {d d' d'' : Dev} (h : Dev.PtpRef n fs d d') (h' : Dev.PtpRef n fs d' d'') :
    Dev.PtpRef n fs d d'' := by
  refine ⟨?_, h'.stamps.trans h.stamps, h'.trigs.trans h.trigs, h'.other.trans h.other, h.same.trans h'.same⟩
  rw [h'.only, h.only]

theorem Dev.PtpRef.mono {n : Nat} {fs gs : List Fld} {d D : Dev} (h : Dev.PtpRef n fs d D) (hs : ∀ f ∈ fs, f ∈ gs) : Dev.PtpRef n gs d D :=
  ⟨h.only, h.stamps, h.trigs, h.other, h.same.mono hs⟩

theorem Dev.PtpOnly.ptpRef {n : Nat} {fs : List Fld} {d D : Dev} (h : Dev.PtpOnly n fs d D) : Dev.PtpRef n fs d D := by
  refine ⟨?_, h.stamps, h.trigs, h.other, h.same⟩
  rw [h.only]

theorem Dev.RefOnly.ptpRef {n : Nat} {fs : List Fld} {d D : Dev} (h : Dev.RefOnly fs d D) : Dev.PtpRef n fs d D := by
  refine ⟨?_, by rw [h.ptp], by rw [h.ptp], h.pport _, h.same⟩
  rw [h.only]

theorem Dev.PtpRef.tick {n : Nat} {fs : List Fld} {d D : Dev} (h : Dev.PtpRef n fs d D) : D.tick = d.tick := by rw [h.only]

/-- The frame of a command on port `n` in the words of the statements. -/
theorem Dev.PtpRef.keeps {s : State} {n : Nat} {fs : List Fld} {D : Dev} (h : Dev.PtpRef n fs s.dev D) {as : List Nat}
    (ha : (fs.all fun f => as.contains f.addr) = true) : Keeps as s { s with dev := D.settle } (ServoPart s { s with dev := D.settle }) := by
  refine ⟨fun a hna => ?_, Dev.around_of_eq (x := { s.dev with ptp := { D.ptp with stamps := s.dev.ptp.stamps, trigs := s.dev.ptp.trigs }, ref := D.ref }) ?_⟩
  · refine (D.settle_word a).trans (h.same.word fun f hf hfa => hna ?_)
    have := List.all_eq_true.mp ha f hf
    rw [← hfa]
    exact List.contains_iff_mem.mp this
  · rw [← h.stamps, ← h.trigs, h.only]

/-- The port's own part of the lost condition of its candidate (R345). -/
def Dev.PortIsLost (d : Dev) (k : Nat) : Prop :=
  d.rd (Reg.PTP_PSTAT_STATE k) ≠ 3 ∨ d.rd Reg.PTP_CFG_ENABLE = 0 ∨ d.rd (Reg.PTP_PCFG_ENABLE k) = 0 ∨
  d.rd Reg.PWR_STATUS_STATE = 4 ∨ ∀ m, (d.pport k).lastTick = some m → m + 8000 ≤ d.tick

theorem Dev.candIsLost_port (d : Dev) (n : Fin 2) : d.candIsLost n = true ↔ d.PortIsLost n := candIsLost_iff (s := { dev := d }) n.isLt

theorem portLost_settle (s : State) (D : Dev) (k : Nat) : PortLost { s with dev := D.settle } k ↔ D.PortIsLost k := by
  unfold PortLost Dev.PortIsLost
  simp only [Dev.settle_rd]
  rfl

/-- The fields of the lost condition beside the state of the port. -/
theorem Dev.PortIsLost.congr {d D : Dev} {k : Nat} (h1 : D.rd (Reg.PTP_PSTAT_STATE k) = d.rd (Reg.PTP_PSTAT_STATE k))
    (h : ∀ f ∈ [Reg.PTP_CFG_ENABLE, Reg.PTP_PCFG_ENABLE k, Reg.PWR_STATUS_STATE], D.rd f = d.rd f)
    (hl : (D.pport k).lastTick = (d.pport k).lastTick) (ht : D.tick = d.tick) : D.PortIsLost k ↔ d.PortIsLost k := by
  unfold Dev.PortIsLost
  rw [h1, h Reg.PTP_CFG_ENABLE (by simp), h (Reg.PTP_PCFG_ENABLE k) (by simp), h Reg.PWR_STATUS_STATE (by simp), hl, ht]

/-- The port takes a new state, before its candidate follows. -/
def Dev.portMoved (d : Dev) (n st : Nat) : Dev := ((d.wr (Reg.PTP_PSTAT_STATE n) st).flag Reg.PTP_STATUS_STATEEV).post 14 6 (n + st * 2 ^ 8)

theorem Dev.portSt_same {d : Dev} {n st : Nat} (h : d.rd (Reg.PTP_PSTAT_STATE n) = st) : d.portSt n st = d := if_pos h

theorem Dev.portSt_moves {d : Dev} {n st : Nat} (h : d.rd (Reg.PTP_PSTAT_STATE n) ≠ st) : d.portSt n st = (d.portMoved n st).candCheck n := by
  unfold Dev.portSt
  rw [if_neg h]
  rfl

/-- What a new state of the port leaves of the device `d`. -/
structure Dev.PortMoved (n : Fin 2) (st : Nat) (d D : Dev) : Prop where
  ptp : Dev.PtpOnly n [Reg.PTP_PSTAT_STATE n, Reg.PTP_STATUS_STATEEV] d D
  same : D.ptp = d.ptp
  state : D.rd (Reg.PTP_PSTAT_STATE n) = st
  flag : D.rd Reg.PTP_STATUS_STATEEV = 1
  evq : D.evq = { d.evq with posts := d.evq.posts ++ [(14, 6, n.val + st * 2 ^ 8)] }

theorem Dev.portMoved_moved (d : Dev) (n : Fin 2) {st : Nat} (hst : st < 8) : Dev.PortMoved n st d (d.portMoved n st) := by
  have hs : Reg.PTP_STATUS_STATEEV.sep (Reg.PTP_PSTAT_STATE n) = true :=
    (show ∀ n : Fin 2, Reg.PTP_STATUS_STATEEV.sep (Reg.PTP_PSTAT_STATE n) = true by decide) n
  unfold Dev.portMoved
  have h1 := d.wr_ptpOnly n (Reg.PTP_PSTAT_STATE n) st rfl
  have h2 := d.rd_wr_lt (Reg.PTP_PSTAT_STATE n) st rfl (show st < 2 ^ 3 by omega)
  have h3 : Dev.OnlyLive d (d.wr (Reg.PTP_PSTAT_STATE n) st) := d.wr_onlyLive _ _
  generalize d.wr (Reg.PTP_PSTAT_STATE n) st = X at h1 h2 h3
  have g1 := X.flag_ptpOnly n Reg.PTP_STATUS_STATEEV rfl
  have g2 := (X.rd_flag_sep Reg.PTP_STATUS_STATEEV _ hs).trans h2
  have g3 : Dev.OnlyLive X (X.flag Reg.PTP_STATUS_STATEEV) := X.wr_onlyLive _ _
  have g4 := X.rd_flag Reg.PTP_STATUS_STATEEV rfl
  generalize X.flag Reg.PTP_STATUS_STATEEV = Y at g1 g2 g3 g4
  have ho := h3.trans g3
  refine ⟨((h1.mono (by simp)).trans (g1.mono (by simp))).trans (Y.post_ptpOnly n _ _ _ _), ?_, (Dev.post_rd ..).trans g2, (Dev.post_rd ..).trans g4, ?_⟩
  · rw [Dev.post_ptp, ho]
  · change ({ Y.evq with posts := Y.evq.posts ++ [_] } : Evq) = _
    have he : Y.evq = d.evq := by rw [ho]
    rw [he]

/-- A candidate follows its lost condition, between two devices (R345, R347). -/
def Dev.Follows (lost : Prop) (d D : Dev) (k : Nat) : Prop :=
  (d.rd Reg.REF_CFG_ENABLE = 0 ∨ d.candState k = 0 → D.candState k = d.candState k) ∧
  (d.rd Reg.REF_CFG_ENABLE = 1 → d.candState k ≠ 0 →
    (lost → D.candState k = 1) ∧ (¬ lost → 2 ≤ d.candState k → D.candState k = d.candState k) ∧
    (¬ lost → d.candState k = 1 → D.candState k = if d.rd (Reg.REF_CAND_PRIO k) = 0 then 0 else if k = 6 then 3 else 2))

theorem followsLost_iff {lost : Prop} {s t : State} {k : Nat} : FollowsLost lost s t k ↔ Dev.Follows lost s.dev t.dev k := Iff.rfl

theorem Dev.Follows.congr {lost lost' : Prop} {d d' D D' : Dev} {k : Nat} (h : Dev.Follows lost d D k) (hl : lost ↔ lost')
    (h1 : d'.rd Reg.REF_CFG_ENABLE = d.rd Reg.REF_CFG_ENABLE) (h2 : d'.rd (Reg.REF_CSTAT_STATE k) = d.rd (Reg.REF_CSTAT_STATE k))
    (h3 : d'.rd (Reg.REF_CAND_PRIO k) = d.rd (Reg.REF_CAND_PRIO k)) (h4 : D'.rd (Reg.REF_CSTAT_STATE k) = D.rd (Reg.REF_CSTAT_STATE k)) :
    Dev.Follows lost' d' D' k := by
  unfold Dev.Follows Dev.candState at *
  rw [h1, h2, h3, h4, ← hl]
  exact h

theorem Dev.Checked.follows {d D : Dev} {k : Nat} (h : Dev.Checked k d D) : Dev.Follows (d.candIsLost k = true) d D k := by
  unfold Dev.Follows
  rw [h.state]
  unfold Dev.checkedState
  have hon : d.on Reg.REF_CFG_ENABLE = false ↔ ¬d.rd Reg.REF_CFG_ENABLE = 1 := by simp [Dev.on]
  refine ⟨fun h0 => if_pos ?_, fun h1 h2 => ?_⟩
  · rw [hon]
    omega
  · have h0 : ¬(d.on Reg.REF_CFG_ENABLE = false ∨ d.candState k = 0) := by
      rw [hon]
      omega
    rw [if_neg h0]
    refine ⟨fun hl => if_pos hl, fun hl h3 => ?_, fun hl h3 => ?_⟩
    · rw [if_neg hl, if_neg (by omega)]
    · rw [if_neg hl, if_pos h3, Dev.candFresh, if_neg hl]

/-- The state that an exchange brings with it. -/
def Dev.portStep (d : Dev) (n : Nat) (st : Option (Fin 8)) : Dev := match st with
  | some st => d.portSt n st
  | none => d

/-- The fields that a new state of port `n` writes. -/
def portFields (n : Nat) : List Fld := [Reg.PTP_PSTAT_STATE n, Reg.PTP_STATUS_STATEEV] ++ stateFields n ++ evalFields

/-- The state `st`, where one is given, is another than that of port `n`. -/
def Dev.Moves (d : Dev) (n : Nat) (st : Option (Fin 8)) : Prop := ∃ y, st = some y ∧ d.rd (Reg.PTP_PSTAT_STATE n) ≠ y.val

/-- What a state that comes with a message leaves of the device `d`. -/
structure Dev.PortStepped (n : Fin 2) (st : Option (Fin 8)) (d P : Dev) : Prop where
  frame : Dev.PtpRef n (portFields n) d P
  ptp : P.ptp = d.ptp
  stays : ¬d.Moves n st → P = d
  moved : ∀ y, st = some y → d.rd (Reg.PTP_PSTAT_STATE n) ≠ y.val → ∃ M, Dev.PortMoved n y d M ∧ Dev.Checked n M P
  state : ∀ y, st = some y → P.rd (Reg.PTP_PSTAT_STATE n) = y.val

theorem Dev.portStep_stepped (d : Dev) (n : Fin 2) (st : Option (Fin 8)) : Dev.PortStepped n st d (d.portStep n st) := by
  have hst : Fld.clear (stateFields n ++ evalFields) (Reg.PTP_PSTAT_STATE n) = true :=
    (show ∀ n : Fin 2, Fld.clear (stateFields n ++ evalFields) (Reg.PTP_PSTAT_STATE n) = true by decide) n
  unfold Dev.portStep
  cases st with
  | none => exact ⟨(Dev.PtpOnly.refl n _ d).ptpRef, rfl, fun _ => rfl, fun y hy => (by cases hy), fun y hy => (by cases hy)⟩
  | some st =>
    dsimp only
    by_cases h : d.rd (Reg.PTP_PSTAT_STATE n) = st.val
    · rw [Dev.portSt_same h]
      refine ⟨(Dev.PtpOnly.refl n _ d).ptpRef, rfl, fun _ => rfl, fun y hy hn => absurd (Option.some.inj hy ▸ h) hn, fun y hy => Option.some.inj hy ▸ h⟩
    · have hM := d.portMoved_moved n st.isLt
      have hC := (d.portMoved n st).candCheck_checked (show n.val < 7 by omega)
      rw [Dev.portSt_moves h]
      generalize d.portMoved n st = M at hM hC
      generalize M.candCheck n = P at hC
      refine ⟨(hM.ptp.ptpRef.mono (by simp [portFields])).trans ((hC.ref.mono (by simp [portFields]; tauto)).ptpRef), hC.ref.ptp.trans hM.same,
        fun hn => absurd ⟨st, rfl, h⟩ hn, fun y hy _ => ?_, fun y hy => ?_⟩
      · obtain rfl := Option.some.inj hy
        exact ⟨M, hM, hC⟩
      · obtain rfl := Option.some.inj hy
        exact (hC.ref.same.rd hst).trans hM.state

/-- After a new state the candidate of the port has followed. -/
theorem Dev.PortStepped.follows {n : Fin 2} {st : Option (Fin 8)} {d P : Dev} (h : Dev.PortStepped n st d P) (hm : d.Moves n st) :
    Dev.Follows (P.PortIsLost n) d P n := by
  have c1 : [Reg.REF_CFG_ENABLE, Reg.REF_CSTAT_STATE n, Reg.REF_CAND_PRIO n].all (Fld.clear [Reg.PTP_PSTAT_STATE n, Reg.PTP_STATUS_STATEEV]) = true :=
    (show ∀ n : Fin 2, [Reg.REF_CFG_ENABLE, Reg.REF_CSTAT_STATE n, Reg.REF_CAND_PRIO n].all (Fld.clear [Reg.PTP_PSTAT_STATE n, Reg.PTP_STATUS_STATEEV]) = true
      by decide) n
  have c2 : [Reg.PTP_PSTAT_STATE n, Reg.PTP_CFG_ENABLE, Reg.PTP_PCFG_ENABLE n, Reg.PWR_STATUS_STATE].all (Fld.clear (stateFields n ++ evalFields)) = true :=
    (show ∀ n : Fin 2, [Reg.PTP_PSTAT_STATE n, Reg.PTP_CFG_ENABLE, Reg.PTP_PCFG_ENABLE n, Reg.PWR_STATUS_STATE].all
      (Fld.clear (stateFields n ++ evalFields)) = true by decide) n
  obtain ⟨y, hy, hne⟩ := hm
  obtain ⟨M, hM, hC⟩ := h.moved y hy hne
  have hr := hM.ptp.same.rds c1
  have hq := hC.ref.same.rds c2
  refine hC.follows.congr ?_ (hr _ (by simp)).symm (hr _ (by simp)).symm (hr _ (by simp)).symm rfl
  rw [Dev.candIsLost_port]
  exact (Dev.PortIsLost.congr (hq _ (by simp)) (fun f hf => hq f (by simp at hf ⊢; tauto)) (by rw [hC.ref.pport]) hC.ref.tick).symm

/-! ### The detector's part of an exchange -/

/-- What the detector leaves alone. -/
structure Dev.Detected (n : Nat) (d D : Dev) : Prop where
  ptp : Dev.PtpOnly n (detFields n) d D
  servo : D.servoState = d.servoState
  last : (D.pport n).last = (d.pport n).last
  lastTick : (D.pport n).lastTick = (d.pport n).lastTick
  within : (D.pport n).within = (d.pport n).within

theorem Dev.DetPort.detected {n : Nat} {x : PtpPort} {d D : Dev} (h : Dev.DetPort n x d D) (h1 : x.last = (d.pport n).last)
    (h2 : x.lastTick = (d.pport n).lastTick) (h3 : x.within = (d.pport n).within) : Dev.Detected n d D :=
  ⟨h.ptp, h.servo, by rw [h.port, h1], by rw [h.port, h2], by rw [h.port, h3]⟩

theorem Dev.holdStep_detected (d : Dev) (n : Fin 2) (h : PathHold) : Dev.Detected n d (d.holdStep n h) := by
  have hrev : Dev.Reverts n d (d.holdStep n h) → Dev.Detected n d (d.holdStep n h) := fun hr => hr.1.detected rfl rfl rfl
  have hstay : ∀ b, Dev.Stays n h b d (d.holdStep n h) → Dev.Detected n d (d.holdStep n h) := fun _ hr => hr.1.detected rfl rfl rfl
  obtain ⟨h1, h2, h3⟩ := d.holdStep_decides n h
  cases hs : h.single with
  | true =>
    obtain ⟨g1, g2⟩ := h1 hs
    by_cases a1 : (((d.pport n).delta64 h.base).natAbs : Int) ≤ 64 * d.rd Reg.PTP_PSTEP_THRESH
    · exact hrev (g1 a1)
    · exact hstay true (g2 (by omega))
  | false =>
    by_cases hc : h.count + 1 = 8
    · obtain ⟨g1, g2, g3, g4, g5⟩ := h3 hs hc
      generalize (d.pport n).delta64 h.base = dn at *
      generalize (d.pport (1 - n.val)).delta64 (h.other.getD 0) = od at *
      generalize (64 * d.rd Reg.PTP_PSTEP_THRESH : Int) = lim at *
      by_cases a1 : (dn.natAbs : Int) ≤ lim
      · exact hrev (g1 a1)
      by_cases a2 : d.Usable n h
      case neg => exact hstay true (g2 (by omega) a2)
      by_cases a3 : (od.natAbs : Int) ≤ lim
      · exact (g3 (by omega) a2 a3).1.detected rfl rfl rfl
      by_cases a4 : 2 * lim < od.natAbs ∧ ((dn - od).natAbs : Int) ≤ lim
      · exact (g4 (by omega) a2 a4.1 a4.2).1.detected rfl rfl rfl
      · exact hstay true (g5 (by omega) a2 (by omega) a4)
    · exact hstay false (h2 hs hc)

theorem Dev.exchDetect_detected (d : Dev) (n : Fin 2) (th : Int) (held : Option PathHold) (fired : Bool) :
    Dev.Detected n d (d.exchDetect n th held fired) := by
  unfold Dev.exchDetect
  cases held with
  | some h => exact d.holdStep_detected n h
  | none =>
    cases fired with
    | true =>
      obtain ⟨other, -, h, -⟩ := d.pstepFire_fires n th
      exact h.detected rfl rfl rfl
    | false => exact ⟨.refl _ _ d, rfl, rfl, rfl, rfl⟩

/-! ### The command -/

/-- The frames of an exchange by their descriptors. -/
def framesOf (x : ExchangeData) : List (Bool × Nat × Nat) := x.frames.map fun f => (f.1, f.2.1.toNat, f.2.2.toNat)

/-- An exchange that is skipped (R323, R331). -/
def Dev.exchSkip (d : Dev) (n : Nat) : Dev :=
  let d := d.count (Reg.PTP_SKIP_COUNT n) Reg.PTP_STATUS_CNT_HALF
  if d.rd Reg.PTP_STATUS_STEER = n + 1 then d.servoHold else d

/-- The delay and the offset of an exchange in half ns (R327). -/
def Dev.delayOf (d : Dev) (n : Nat) (x : ExchangeData) : Int :=
  if d.on (Reg.PTP_PCFG_DELAY n) then 2 * x.link else x.t2 - x.t1 - x.cS + (x.t4 - x.t3 - x.cD)
def Dev.thetaOf (d : Dev) (n : Nat) (x : ExchangeData) : Int :=
  2 * (x.t2 - x.t1 - x.cS) - d.delayOf n x - 2 * sint 32 (d.rd (Reg.PTP_ASYM_ASYM n)) - 2 * sint 32 (d.rd (Reg.PTP_REBASE_REBASE n))

/-- The losses of earlier messages are forgotten. -/
def Dev.forgotten (d : Dev) (n : Nat) (x : ExchangeData) : Dev := d.setPport n ((d.pport n).forget (framesOf x))

def Dev.exchStep (d : Dev) (n : Nat) (x : ExchangeData) : Dev :=
  let p := d.portStep n x.st
  let f := p.forgotten n x
  if (p.pport n).lacks (framesOf x) then f.exchSkip n else (f.exchange n (f.thetaOf n x) (f.delayOf n x)).candCheck n

theorem execExchange_eq (n : Fin 2) (x : ExchangeData) (s : State) : exec (.exchange n x) s =
    onDev (fun d => if !d.ptpOn n || !d.supRuns then d else d.exchStep n x) s := rfl

theorem exchange_idle {s : State} {n : Fin 2} (x : ExchangeData) (h : ¬(s.dev.ptpOn n = true ∧ s.dev.supRuns = true)) :
    ∃ t, Runs (.exchange n x) s t ∧ Keeps [] s t s.dev := by
  have hrun := runs_of_onDev (execExchange_eq n x s)
  rw [if_pos (by
    rw [Bool.or_eq_true, Bool.not_eq_true', Bool.not_eq_true', ← Bool.not_eq_true, ← Bool.not_eq_true]
    exact Decidable.not_and_iff_not_or_not.mp h)] at hrun
  exact ⟨_, hrun, fun _ _ => rfl, rfl⟩

theorem exchange_runs {s : State} {n : Fin 2} (x : ExchangeData) (h : s.dev.ptpOn n = true ∧ s.dev.supRuns = true) :
    Runs (.exchange n x) s { s with dev := (s.dev.exchStep n x).settle } := by
  have hrun := runs_of_onDev (execExchange_eq n x s)
  rwa [if_neg (by simp [h])] at hrun

theorem lacks_iff (p : PtpPort) (x : ExchangeData) :
    p.lacks (framesOf x) = true ↔ ∃ f ∈ x.frames, (f.1, f.2.1.toNat, f.2.2.toNat) ∈ p.lost := by
  simp [PtpPort.lacks, framesOf]

/-- The device behind a new state and the losses forgotten. -/
structure Dev.Forgotten (n : Fin 2) (x : ExchangeData) (d f : Dev) : Prop where
  frame : Dev.PtpRef n (portFields n) d f
  servo : f.servoState = d.servoState
  port : f.pport n = (d.pport n).forget (framesOf x)
  stays : ¬d.Moves n x.st → f.candState n = d.candState n
  follows : d.Moves n x.st → Dev.Follows (f.PortIsLost n) d f n
  state : ∀ y, x.st = some y → f.rd (Reg.PTP_PSTAT_STATE n) = y.val

theorem Dev.portStep_forgotten (d : Dev) (n : Fin 2) (x : ExchangeData) : Dev.Forgotten n x d ((d.portStep n x.st).forgotten n x) ∧
    (d.portStep n x.st).pport n = d.pport n := by
  have hP := d.portStep_stepped n x.st
  generalize d.portStep n x.st = P at hP
  have hPp := Dev.pport_congr hP.ptp n
  have hf := P.setPport_ptpOnly n (portFields n) ((P.pport n).forget (framesOf x))
  have hr := P.rd_setPport n ((P.pport n).forget (framesOf x))
  have hp := P.pport_setPport n ((P.pport n).forget (framesOf x))
  have hv := P.servoState_setPport n ((P.pport n).forget (framesOf x))
  unfold Dev.forgotten
  rw [hPp] at hf hr hp hv ⊢
  generalize P.setPport n ((d.pport n).forget (framesOf x)) = f at hf hr hp hv
  refine ⟨⟨hP.frame.trans hf.ptpRef, hv.trans (Dev.servoState_congr hP.ptp), hp, fun hm => ?_, fun hm => ?_, fun y hy => (hr _).trans (hP.state y hy)⟩, rfl⟩
  · rw [Dev.candState, hr, hP.stays hm, Dev.candState]
  · refine (hP.follows hm).congr ?_ rfl rfl rfl (hr _)
    refine (Dev.PortIsLost.congr (hr _) (fun f _ => hr f) ?_ hf.tick).symm
    rw [hp, hPp]
    rfl

/-- A skipped exchange (R323, R331). -/
theorem exchange_skips {s : State} {n : Fin 2} {x : ExchangeData} (h : s.dev.ptpOn n = true ∧ s.dev.supRuns = true)
    (hl : ∃ f ∈ x.frames, (f.1, f.2.1.toNat, f.2.2.toNat) ∈ (s.dev.pport n).lost) :
    ∃ t, Runs (.exchange n x) s t ∧ t.dev.rd (Reg.PTP_SKIP_COUNT n) = (s.dev.rd (Reg.PTP_SKIP_COUNT n) + 1) % 2 ^ 32 ∧
      t.dev.pport n = { s.dev.pport n with lost := (t.dev.pport n).lost } ∧ t.dev.pport (1 - n.val) = s.dev.pport (1 - n.val) ∧
      t.dev.ptp.integ = s.dev.ptp.integ ∧
      (if s.dev.rd Reg.PTP_STATUS_STEER = n.val + 1 then t.dev.ptp.phase = 0 ∧ t.dev.ptp.rate = s.dev.ptp.integ
        else t.dev.ptp.phase = s.dev.ptp.phase ∧ t.dev.ptp.rate = s.dev.ptp.rate) ∧
      (s.dev.Moves n x.st → FollowsLost (PortLost t n) s t n) ∧
      Keeps ([(Reg.PTP_SKIP_COUNT n).addr, (Reg.PTP_PSTAT_STATE n).addr, Reg.PTP_STATUS_CNT_HALF.addr, Reg.PTP_FREQ_FREQ.addr] ++ refWords)
        s t (ServoPart s t) := by
  have hrun := exchange_runs x h
  obtain ⟨hf, hPp⟩ := s.dev.portStep_forgotten n x
  unfold Dev.exchStep at hrun
  dsimp only at hrun
  rw [hPp, if_pos ((lacks_iff ..).mpr hl)] at hrun
  generalize (s.dev.portStep n x.st).forgotten n x = f at hf hrun
  have c1 : [Reg.PTP_SKIP_COUNT n, Reg.PTP_STATUS_STEER].all (Fld.clear (portFields n)) = true :=
    (show ∀ n : Fin 2, [Reg.PTP_SKIP_COUNT n, Reg.PTP_STATUS_STEER].all (Fld.clear (portFields n)) = true by decide) n
  have c2 : [Reg.PTP_STATUS_STEER, Reg.REF_CSTAT_STATE n, Reg.PTP_PSTAT_STATE n, Reg.PTP_CFG_ENABLE, Reg.PTP_PCFG_ENABLE n, Reg.PWR_STATUS_STATE].all
      (Fld.clear [Reg.PTP_SKIP_COUNT n, Reg.PTP_STATUS_CNT_HALF, Reg.PTP_FREQ_FREQ]) = true :=
    (show ∀ n : Fin 2, [Reg.PTP_STATUS_STEER, Reg.REF_CSTAT_STATE n, Reg.PTP_PSTAT_STATE n, Reg.PTP_CFG_ENABLE, Reg.PTP_PCFG_ENABLE n, Reg.PWR_STATUS_STATE].all
      (Fld.clear [Reg.PTP_SKIP_COUNT n, Reg.PTP_STATUS_CNT_HALF, Reg.PTP_FREQ_FREQ]) = true by decide) n
  have c3 : Fld.clear [Reg.PTP_FREQ_FREQ] (Reg.PTP_SKIP_COUNT n) = true := (show ∀ n : Fin 2, Fld.clear [Reg.PTP_FREQ_FREQ] (Reg.PTP_SKIP_COUNT n) = true by decide) n
  have c4 : ((portFields n ++ [Reg.PTP_SKIP_COUNT n, Reg.PTP_STATUS_CNT_HALF, Reg.PTP_FREQ_FREQ]).all fun f =>
      ([(Reg.PTP_SKIP_COUNT n).addr, (Reg.PTP_PSTAT_STATE n).addr, Reg.PTP_STATUS_CNT_HALF.addr, Reg.PTP_FREQ_FREQ.addr] ++ refWords).contains f.addr) = true :=
    (show ∀ n : Fin 2, ((portFields n ++ [Reg.PTP_SKIP_COUNT n, Reg.PTP_STATUS_CNT_HALF, Reg.PTP_FREQ_FREQ]).all fun f =>
      ([(Reg.PTP_SKIP_COUNT n).addr, (Reg.PTP_PSTAT_STATE n).addr, Reg.PTP_STATUS_CNT_HALF.addr, Reg.PTP_FREQ_FREQ.addr] ++ refWords).contains f.addr) = true
      by decide) n
  have hap : Reg.PTP_STATUS_CNT_HALF.apart (Reg.PTP_SKIP_COUNT n) = true :=
    (show ∀ n : Fin 2, Reg.PTP_STATUS_CNT_HALF.apart (Reg.PTP_SKIP_COUNT n) = true by decide) n
  have hS : ∃ D, f.exchSkip n = D ∧ Dev.PtpOnly n [Reg.PTP_SKIP_COUNT n, Reg.PTP_STATUS_CNT_HALF, Reg.PTP_FREQ_FREQ] f D ∧
      D.rd (Reg.PTP_SKIP_COUNT n) = (f.rd (Reg.PTP_SKIP_COUNT n) + 1) % 2 ^ 32 ∧ D.pport n = f.pport n ∧
      D.servoState = if f.rd Reg.PTP_STATUS_STEER = n.val + 1 then (f.ptp.integ, 0, f.ptp.integ) else f.servoState := by
    refine ⟨_, rfl, ?_⟩
    unfold Dev.exchSkip
    have h1 := f.count_ptpOnly n (Reg.PTP_SKIP_COUNT n) Reg.PTP_STATUS_CNT_HALF 1 rfl rfl
    have h2 : (f.count (Reg.PTP_SKIP_COUNT n) Reg.PTP_STATUS_CNT_HALF).ptp = f.ptp := Dev.count_ptp ..
    have h3 := f.rd_count (Reg.PTP_SKIP_COUNT n) Reg.PTP_STATUS_CNT_HALF 1 rfl rfl hap
    generalize f.count (Reg.PTP_SKIP_COUNT n) Reg.PTP_STATUS_CNT_HALF = C at h1 h2 h3
    have h4 : C.rd Reg.PTP_STATUS_STEER = f.rd Reg.PTP_STATUS_STEER := (h1.mono (by simp)).same.rds c2 _ (by simp)
    dsimp only
    rw [h4]
    split
    · obtain ⟨g1, g2⟩ := C.servoHold_holds n
      refine ⟨(h1.mono (by simp)).trans (g1.mono (by simp)), (g1.same.rd c3).trans h3, ?_, ?_⟩
      · rw [Dev.pport, g2, h2, Dev.pport]
      · rw [Dev.servoState, g2, h2]
    · exact ⟨h1.mono (by simp), h3, Dev.pport_congr h2 n, Dev.servoState_congr h2⟩
  obtain ⟨D, hDe, hD, hsk, hpp, hsv⟩ := hS
  rw [hDe] at hrun
  have hfr := hf.frame.same.rds c1
  have hDr := hD.same.rds c2
  have hset : ∀ g, D.settle.rd g = D.rd g := fun g => Dev.settle_rd D g
  have hpset : ∀ k, D.settle.pport k = D.pport k := fun k => Dev.pport_congr (Dev.settle_ptp D) k
  have hpt : D.settle.ptp = D.ptp := Dev.settle_ptp D
  rw [hfr _ (by simp)] at hsv
  have hint : f.ptp.integ = s.dev.ptp.integ := congrArg Prod.fst hf.servo
  refine ⟨_, hrun, ?_, ?_, ?_, ?_, ?_, fun hm => ?_, ?_⟩
  · rw [hset, hsk, hfr _ (by simp)]
  · change D.settle.pport n = { s.dev.pport n with lost := (D.settle.pport n).lost }
    rw [hpset, hpp, hf.port]
    rfl
  · exact (hpset _).trans (hD.other.trans hf.frame.other)
  · change D.settle.ptp.integ = _
    rw [hpt]
    have := congrArg Prod.fst hsv
    split at this
    · exact this.trans hint
    · exact this.trans hint
  · change if _ then D.settle.ptp.phase = 0 ∧ D.settle.ptp.rate = _ else D.settle.ptp.phase = _ ∧ D.settle.ptp.rate = _
    rw [hpt]
    have h1 := congrArg (fun v => v.2.1) hsv
    have h2 := congrArg (fun v => v.2.2) hsv
    split
    case isTrue hst =>
      rw [if_pos hst] at h1 h2
      exact ⟨h1, h2.trans hint⟩
    case isFalse hst =>
      rw [if_neg hst] at h1 h2
      exact ⟨h1.trans (congrArg (fun v => v.2.1) hf.servo), h2.trans (congrArg (fun v => v.2.2) hf.servo)⟩
  · refine followsLost_iff.mpr ((hf.follows hm).congr ?_ rfl rfl rfl ((hset _).trans (hDr _ (by simp))))
    rw [portLost_settle]
    exact (Dev.PortIsLost.congr (hDr _ (by simp)) (fun g hg => hDr g (by simp at hg ⊢; tauto)) (by rw [hpp]) hD.tick).symm
  · exact ((hf.frame.mono (by simp; tauto)).trans ((hD.ptpRef).mono (by simp))).keeps c4

/-- The fields that an exchange writes, in all. -/
def exchFields (n : Nat) : List Fld := portFields n ++ preFields n ++ detFields n

/-- What an exchange leaves behind the state `f` it finds: the steps before the detector, the detector's, and the candidate's. -/
structure Dev.ExchRan (n : Fin 2) (th De : Int) (f D : Dev) : Prop where
  ex : ∃ F E, Dev.BeforeDetect n th De f F ∧ E = F.exchDetect n th (f.pport n).hold ((f.pport n).fires (f.suspect n th De)) ∧
    Dev.Detected n F E ∧ Dev.Checked n E D

theorem Dev.exchange_ran (f : Dev) (n : Fin 2) (th De : Int) : Dev.ExchRan n th De f ((f.exchange n th De).candCheck n) := by
  obtain ⟨F, hF, hE⟩ := f.exchange_before n th De
  have hC := (f.exchange n th De).candCheck_checked (show n.val < 7 by omega)
  have hD := F.exchDetect_detected n th (f.pport n).hold ((f.pport n).fires (f.suspect n th De))
  rw [hE] at hC ⊢
  exact ⟨F, _, hF, rfl, hD, hC⟩

theorem exchange_frame {n : Fin 2} {x : ExchangeData} {th De : Int} {d f F E D : Dev} (hf : Dev.Forgotten n x d f) (hF : Dev.BeforeDetect n th De f F)
    (hE : Dev.Detected n F E) (hC : Dev.Checked n E D) : Dev.PtpRef n (exchFields n) d D := by
  refine (hf.frame.mono (by simp [exchFields]; tauto)).trans (((hF.ptp.ptpRef).mono (by simp [exchFields]; tauto)).trans
    (((hE.ptp.ptpRef).mono (by simp [exchFields]; tauto)).trans ((hC.ref.mono (by simp [exchFields, portFields]; tauto)).ptpRef)))

theorem exchFields_words (n : Fin 2) : ((exchFields n).all fun f => (servoWords n ++ refWords).contains f.addr) = true :=
  (show ∀ n : Fin 2, ((exchFields n).all fun f => (servoWords n ++ refWords).contains f.addr) = true by decide) n

theorem Dev.suspect_iff (d : Dev) (n : Nat) (th De : Int) : d.suspect n th De = true ↔ (d.pport n).good.length = 64 ∧
    ((128 * d.rd Reg.PTP_PSTEP_THRESH : Int) < (64 * th - sumOf ((d.pport n).good.map (·.1))).natAbs ∨
      (128 * d.rd Reg.PTP_PSTEP_THRESH : Int) < (64 * De - sumOf ((d.pport n).good.map (·.2))).natAbs) := by
  unfold Dev.suspect
  dsimp only
  rw [Bool.and_eq_true, beq_iff_eq, Bool.or_eq_true, decide_eq_true_eq, decide_eq_true_eq]

/-- The candidate of the port after its new state is still qualified. -/
theorem forgotten_steers {n : Fin 2} {x : ExchangeData} {d f : Dev} (hf : Dev.Forgotten n x d f) (hon : d.ptpOn n = true) (gone : Prop)
    (hg : gone ↔ d.Moves n x.st ∧ d.rd Reg.REF_CFG_ENABLE = 1 ∧ (x.st ≠ some 3 ∨ d.rd Reg.PWR_STATUS_STATE = 4 ∨
      ∀ m, (d.pport n).lastTick = some m → m + 8000 ≤ d.tick)) :
    (3 ≤ f.candState n ↔ 3 ≤ d.candState n ∧ ¬gone) ∧
    (d.rd Reg.REF_CFG_ENABLE = 1 → d.candState n ≠ 0 → d.rd (Reg.REF_CAND_PRIO n) ≠ 0 → f.candState n ≠ 0 ∧
      (d.candState n = 1 → f.candState n = 1 ∨ f.candState n = 2) ∧ (2 ≤ d.candState n → ¬gone → f.candState n = d.candState n)) := by
  by_cases hm : d.Moves n x.st
  case neg =>
    have hng : ¬gone := fun h => hm (hg.mp h).1
    rw [hf.stays hm]
    exact ⟨by tauto, fun h1 h2 h3 => ⟨h2, Or.inl, fun _ _ => rfl⟩⟩
  case pos =>
    have c1 : [Reg.PTP_CFG_ENABLE, Reg.PTP_PCFG_ENABLE n, Reg.PWR_STATUS_STATE].all (Fld.clear (portFields n)) = true :=
      (show ∀ n : Fin 2, [Reg.PTP_CFG_ENABLE, Reg.PTP_PCFG_ENABLE n, Reg.PWR_STATUS_STATE].all (Fld.clear (portFields n)) = true by decide) n
    have hr := hf.frame.same.rds c1
    obtain ⟨h1, h2⟩ := hf.follows hm
    have he := d.rd_lt Reg.REF_CFG_ENABLE
    have hw : Reg.REF_CFG_ENABLE.width = 1 := rfl
    rw [hw] at he
    have hlost : d.rd Reg.REF_CFG_ENABLE = 1 → (f.PortIsLost n ↔ gone) := fun hen => by
      obtain ⟨y, hy, hne⟩ := hm
      have h3 : x.st ≠ some 3 ↔ f.rd (Reg.PTP_PSTAT_STATE n) ≠ 3 := by
        rw [hf.state y hy, hy, ne_eq, Option.some.injEq, Fin.ext_iff]
        rfl
      unfold Dev.ptpOn Dev.on at hon
      rw [Bool.and_eq_true, beq_iff_eq, beq_iff_eq] at hon
      rw [hg]
      unfold Dev.PortIsLost
      rw [hr Reg.PTP_CFG_ENABLE (by simp), hr (Reg.PTP_PCFG_ENABLE n) (by simp), hr Reg.PWR_STATUS_STATE (by simp), hf.port, hf.frame.tick, hon.1, hon.2, ← h3]
      have hmm : d.Moves n x.st := ⟨y, hy, hne⟩
      have hl : ((d.pport n).forget (framesOf x)).lastTick = (d.pport n).lastTick := rfl
      rw [hl]
      simp [hmm, hen]
    obtain hen | hen : d.rd Reg.REF_CFG_ENABLE = 0 ∨ d.rd Reg.REF_CFG_ENABLE = 1 := by omega
    · have hng : ¬gone := fun h => by
        have := (hg.mp h).2.1
        omega
      rw [h1 (Or.inl hen)]
      exact ⟨by tauto, fun h => by omega⟩
    · by_cases h0 : d.candState n = 0
      · rw [h1 (Or.inr h0), h0]
        exact ⟨by omega, fun _ h => absurd rfl h⟩
      · obtain ⟨g1, g2, g3⟩ := h2 hen h0
        rw [hlost hen] at g1 g2 g3
        by_cases hgo : gone
        · rw [g1 hgo]
          exact ⟨by simp [hgo], fun _ _ _ => ⟨by decide, fun _ => Or.inl rfl, fun _ h => absurd hgo h⟩⟩
        · have hn6 : n.val ≠ 6 := by omega
          rw [if_neg hn6] at g3
          obtain hc | hc : d.candState n = 1 ∨ 2 ≤ d.candState n := by omega
          · rw [g3 hgo hc]
            split
            case isTrue hp => exact ⟨by omega, fun _ _ h => absurd hp h⟩
            case isFalse hp => exact ⟨by omega, fun _ _ _ => ⟨by decide, fun _ => Or.inr rfl, fun h => by omega⟩⟩
          · rw [g2 hgo hc]
            exact ⟨by simp [hgo], fun _ _ _ => ⟨h0, fun h => Or.inl h, fun _ _ => rfl⟩⟩

/-! ### The decision of a path hold in the words of the statement -/

/-- The registers of the detector, and the state of the port, as they stand behind the check of the candidate. -/
structure Dev.DetKept (n : Nat) (E D : Dev) : Prop where
  port : D.pport n = E.pport n
  hold : D.rd (Reg.PTP_PSTAT_HOLD n) = E.rd (Reg.PTP_PSTAT_HOLD n)
  cand : D.rd (Reg.REF_CSTAT_HOLD n) = E.rd (Reg.REF_CSTAT_HOLD n)
  rebase : D.rd (Reg.PTP_REBASE_REBASE n) = E.rd (Reg.PTP_REBASE_REBASE n)
  log : D.rd (Reg.PTP_PSTEPLOG_STEP n) = E.rd (Reg.PTP_PSTEPLOG_STEP n)

theorem Dev.DetKept.refl (n : Nat) (D : Dev) : Dev.DetKept n D D := ⟨rfl, rfl, rfl, rfl, rfl⟩

theorem Dev.DetKept.settle {n : Nat} {E D : Dev} (h : Dev.DetKept n E D) : Dev.DetKept n E D.settle :=
  ⟨(Dev.pport_congr (Dev.settle_ptp D) n).trans h.port, (D.settle_rd _).trans h.hold, (D.settle_rd _).trans h.cand, (D.settle_rd _).trans h.rebase,
    (D.settle_rd _).trans h.log⟩

theorem holdEnds_of {t : State} {n : Nat} {x : PtpPort} {d E : Dev} (hk : Dev.DetKept n E t.dev) (h : Dev.DetPort n x d E) (hs : Dev.HoldShown n 0 E)
    (h1 : x.hold = none) (h2 : x.suspects = 0) : HoldEnds t n := by
  refine ⟨?_, ?_, hk.hold.trans hs.1, hk.cand.trans hs.2⟩
  · rw [hk.port, h.port, h1]
  · rw [hk.port, h.port, h2]

theorem takesOffset_of {s t : State} {n : Nat} {h : PathHold} {F E : Dev} (hk : Dev.DetKept n E t.dev) (ht : Dev.Takes n h F E)
    (hr : (F.pport n).reb = (s.dev.pport n).reb) : TakesOffset s t n (F.pport n).last h := by
  obtain ⟨h1, h2, h3⟩ := ht
  refine ⟨holdEnds_of hk h1 h2 rfl rfl, ?_, ?_, _, IsDelta.of_deltaNs, hk.log.trans h3⟩
  · rw [hk.port, h1.port]
  · rw [hk.port, h1.port, ← hr]

theorem isRebased_of {s t : State} {n : Nat} {h : PathHold} {F E : Dev} (hk : Dev.DetKept n E t.dev) (ht : Dev.Rebases n h F E)
    (hr : (F.pport n).reb = (s.dev.pport n).reb) (hb : (F.pport n).bout = (s.dev.pport n).bout) :
    IsRebased s t n (F.pport n).last h (F.pport n).good := by
  obtain ⟨h1, h2, h3⟩ := ht
  refine ⟨holdEnds_of hk h1 h2 rfl rfl, ⟨_, quot_near 4 _ (k := 64) (by decide), ?_⟩, _, IsDelta.of_deltaNs, ?_, fun h0 => ?_⟩
  · rw [hk.port, h1.port]
    rfl
  · rw [hk.port, h1.port, ← hr]
    rfl
  · rw [hk.rebase, h3, ← hr, PtpPort.shownRebase]
    have hb0 : ((F.pport n).rebased (deltaNs ((F.pport n).delta64 h.base)) (quot 4 (8 * sumOf ((F.pport n).last.map (·.2)) - h.baseD) 64)).bout = 0 :=
      hb.trans h0
    rw [hb0]
    show sat32 ((F.pport n).reb + deltaNs ((F.pport n).delta64 h.base) + quot 7 0 8000) = _
    rw [show quot 7 0 8000 = 0 by decide, Int.add_zero]
    rfl

/-- What the detector of port `n` finds in `F` of the state before the exchange. -/
structure DetFinds (s : State) (n : Nat) (F : Dev) : Prop where
  thresh : F.rd Reg.PTP_PSTEP_THRESH = s.dev.rd Reg.PTP_PSTEP_THRESH
  other : F.pport (1 - n) = s.dev.pport (1 - n)
  on : F.ptpOn (1 - n) = s.dev.ptpOn (1 - n)
  state : F.rd (Reg.PTP_PSTAT_STATE (1 - n)) = s.dev.rd (Reg.PTP_PSTAT_STATE (1 - n))
  tick : F.tick = s.dev.tick
  reb : (F.pport n).reb = (s.dev.pport n).reb
  bout : (F.pport n).bout = (s.dev.pport n).bout

theorem holdDecides_of {s t : State} {n : Fin 2} {h : PathHold} {F : Dev} (hF : DetFinds s n F) (hk : Dev.DetKept n (F.holdStep n h) t.dev) :
    HoldDecides s t n h (F.pport n).last (F.pport n).good (F.pport n).suspects := by
  have hdec := F.holdStep_decides n h
  have huse : F.Usable n h ↔ s.dev.ptpOn (1 - n.val) = true ∧ s.dev.rd (Reg.PTP_PSTAT_STATE (1 - n.val)) = 3 ∧
      (∃ m, (s.dev.pport (1 - n.val)).lastTick = some m ∧ s.dev.tick ≤ m + 16000) ∧ (s.dev.pport (1 - n.val)).hold = none ∧ h.other ≠ none := by
    rw [Dev.Usable, hF.on, hF.state, hF.other, hF.tick]
  rw [huse, hF.thresh, hF.other] at hdec
  generalize F.holdStep n h = E at hdec hk
  have hrev : Dev.Reverts n F E → HoldEnds t n ∧ (t.dev.pport n).good = (F.pport n).good ∧ (t.dev.pport n).reb = (s.dev.pport n).reb := fun ⟨h1, h2⟩ => by
    refine ⟨holdEnds_of hk h1 h2 rfl rfl, ?_, ?_⟩
    · rw [hk.port, h1.port]
    · rw [hk.port, h1.port, ← hF.reb]
  have hstay : ∀ b, Dev.Stays n h b F E → (t.dev.pport n).hold = some { h with count := h.count + 1, single := b } ∧
      (t.dev.pport n).good = (F.pport n).good ∧ (t.dev.pport n).suspects = (F.pport n).suspects ∧ t.dev.rd (Reg.PTP_PSTAT_HOLD n) = 1 := fun b ⟨h1, h2⟩ => by
    refine ⟨?_, ?_, ?_, hk.hold.trans h2.1⟩ <;> rw [hk.port, h1.port]
  obtain ⟨g1, g2, g3⟩ := hdec
  refine ⟨fun hs => ?_, fun hs hc => hstay false (g2 hs hc), fun hs hc => ?_⟩
  · obtain ⟨k1, k2⟩ := g1 hs
    split
    case isTrue hd => exact hrev (k1 hd)
    case isFalse hd => exact hstay true (k2 (Int.not_le.mp hd))
  · obtain ⟨k1, k2, k3, k4, k5⟩ := g3 hs hc
    exact ⟨fun a => hrev (k1 a), fun a b => hstay true (k2 a b), fun a b c => isRebased_of hk (k3 a b c) hF.reb hF.bout,
      fun a b c e => takesOffset_of hk (k4 a b c e) hF.reb, fun a b c e => hstay true (k5 a b c e)⟩

/-- The check of the candidate leaves the port and the detector alone. -/
theorem Dev.Checked.detKept {n : Fin 2} {E D : Dev} (h : Dev.Checked n E D) : Dev.DetKept n E D := by
  have c : [Reg.PTP_PSTAT_HOLD n, Reg.REF_CSTAT_HOLD n, Reg.PTP_REBASE_REBASE n, Reg.PTP_PSTEPLOG_STEP n].all
      (Fld.clear (stateFields n ++ evalFields)) = true :=
    (show ∀ n : Fin 2, [Reg.PTP_PSTAT_HOLD n, Reg.REF_CSTAT_HOLD n, Reg.PTP_REBASE_REBASE n, Reg.PTP_PSTEPLOG_STEP n].all
      (Fld.clear (stateFields n ++ evalFields)) = true by decide) n
  have hr := h.ref.same.rds c
  exact ⟨h.ref.pport n, hr _ (by simp), hr _ (by simp), hr _ (by simp), hr _ (by simp)⟩

/-- The fields that show what an exchange has done before the detector acted. -/
def shownFields (n : Nat) : List Fld :=
  [Reg.PTP_EXCH_COUNT n, Reg.PTP_SUSPECT_COUNT n, Reg.PTP_OFF_THETA n, Reg.PTP_PSTAT_LOCK n]

theorem shownFields_clear (n : Fin 2) : (shownFields n).all (Fld.clear (detFields n ++ stateFields n ++ evalFields)) = true :=
  (show ∀ n : Fin 2, (shownFields n).all (Fld.clear (detFields n ++ stateFields n ++ evalFields)) = true by decide) n

/-- The fields of the settings of port `n` and of REF that an exchange reads. -/
def readFields (n : Nat) : List Fld :=
  [Reg.PTP_EXCH_COUNT n, Reg.PTP_SUSPECT_COUNT n, Reg.PTP_OFF_THETA n, Reg.PTP_PSTAT_LOCK n, Reg.PTP_PSTEP_THRESH, Reg.PTP_STATUS_STEER,
   Reg.PTP_SERVO_LOCK_NS, Reg.PTP_SERVO_BW, Reg.PTP_PRATE_LOG_SYNC n, Reg.REF_SLEW_PHASE, Reg.PTP_PCFG_DELAY n, Reg.PTP_ASYM_ASYM n,
   Reg.PTP_REBASE_REBASE n, Reg.PTP_CFG_ENABLE, Reg.PTP_PCFG_ENABLE (1 - n), Reg.PTP_PSTAT_STATE (1 - n), Reg.PTP_PSTEPCNT_COUNT n,
   Reg.REF_CFG_ENABLE, Reg.REF_CAND_PRIO n]

theorem readFields_clear (n : Fin 2) : (readFields n).all (Fld.clear (portFields n)) = true :=
  (show ∀ n : Fin 2, (readFields n).all (Fld.clear (portFields n)) = true by decide) n

theorem Dev.delayOf_eq {d f : Dev} {n : Nat} (x : ExchangeData) (hr : f.rd (Reg.PTP_PCFG_DELAY n) = d.rd (Reg.PTP_PCFG_DELAY n)) :
    f.delayOf n x = if d.rd (Reg.PTP_PCFG_DELAY n) = 1 then 2 * x.link else x.t2 - x.t1 - x.cS + (x.t4 - x.t3 - x.cD) := by
  unfold Dev.delayOf Dev.on
  rw [hr]
  simp only [beq_iff_eq]

theorem kiOf_eq {bw : Nat} (h : bw < 4) : kiOf bw = ([986960000, 39478000, 3553100, 394780] : List Int).getD bw 0 := by
  obtain rfl | rfl | rfl | rfl : bw = 0 ∨ bw = 1 ∨ bw = 2 ∨ bw = 3 := by omega
  all_goals rfl

theorem kpOf_eq {bw : Nat} (h : bw < 4) : kpOf bw = ([628320000, 125660000, 37699000, 12566000] : List Int).getD bw 0 := by
  obtain rfl | rfl | rfl | rfl : bw = 0 ∨ bw = 1 ∨ bw = 2 ∨ bw = 3 := by omega
  all_goals rfl

/-- R327 to R334, R345: what an exchange with offset `th` and delay `De` does to its port, in the state `f` that it finds. -/
structure Dev.ExchDone (n : Fin 2) (th De : Int) (f D : Dev) : Prop where
  detected : ∃ F E, Dev.BeforeDetect n th De f F ∧ E = F.exchDetect n th (f.pport n).hold ((f.pport n).fires (f.suspect n th De)) ∧
    Dev.DetKept n E D ∧ D.rd Reg.PTP_STATUS_PSTEPEV = E.rd Reg.PTP_STATUS_PSTEPEV ∧
    D.rd (Reg.PTP_PSTEPCNT_COUNT n) = E.rd (Reg.PTP_PSTEPCNT_COUNT n)
  servo : D.servoState = if f.steers n then f.servoNext n th (f.suspect n th De || (f.pport n).hold.isSome) else f.servoState
  last : (D.pport n).last = ((th, De) :: (f.pport n).last).take 8
  lastTick : (D.pport n).lastTick = some f.tick
  within : (D.pport n).within = if f.steers n && !f.suspect n th De then f.withinNext n th else (f.pport n).within
  exch : D.rd (Reg.PTP_EXCH_COUNT n) = (f.rd (Reg.PTP_EXCH_COUNT n) + 1) % 2 ^ 32
  suspects : D.rd (Reg.PTP_SUSPECT_COUNT n) =
    if f.suspect n th De then (f.rd (Reg.PTP_SUSPECT_COUNT n) + 1) % 2 ^ 32 else f.rd (Reg.PTP_SUSPECT_COUNT n)
  offset : ∃ m, D.rd (Reg.PTP_OFF_THETA n) = sat32 m ∧
    (2 * ((((th, De) :: (f.pport n).last).take 8).length : Int) * m - sumOf ((((th, De) :: (f.pport n).last).take 8).map (·.1))).natAbs <
      2 * (((th, De) :: (f.pport n).last).take 8).length
  lock : D.rd (Reg.PTP_PSTAT_LOCK n) = if f.steers n && !f.suspect n th De then f.lockNext n th else f.rd (Reg.PTP_PSTAT_LOCK n)
  frame : Dev.PtpRef n (exchFields n) f D
  follows : ∃ E : Dev, (E.PortIsLost n ↔ D.PortIsLost n) ∧ Dev.Follows (E.PortIsLost n) E D n ∧
    [Reg.REF_CFG_ENABLE, Reg.REF_CSTAT_STATE n, Reg.REF_CAND_PRIO n].all (fun g => E.rd g == f.rd g) = true

theorem Dev.exchange_done (f : Dev) (n : Fin 2) (th De : Int) : Dev.ExchDone n th De f ((f.exchange n th De).candCheck n) := by
  obtain ⟨F, hF, hE⟩ := f.exchange_before n th De
  have hC := (f.exchange n th De).candCheck_checked (show n.val < 7 by omega)
  have hD := F.exchDetect_detected n th (f.pport n).hold ((f.pport n).fires (f.suspect n th De))
  rw [← hE] at hD
  have hK := hC.detKept
  generalize f.exchange n th De = E at hC hD hK hE
  generalize E.candCheck n = D at hC hK
  have hd : ∀ g ∈ shownFields n, D.rd g = F.rd g := fun g hg =>
    (((hC.ref.same.mono (by simp; tauto)).rds (shownFields_clear n)) g hg).trans (((hD.ptp.same.mono (by simp; tauto)).rds (shownFields_clear n)) g hg)
  have c1 : [Reg.PTP_STATUS_PSTEPEV, Reg.PTP_PSTEPCNT_COUNT n, Reg.PTP_PSTAT_STATE n, Reg.PTP_CFG_ENABLE, Reg.PTP_PCFG_ENABLE n,
      Reg.PWR_STATUS_STATE].all (Fld.clear (stateFields n ++ evalFields)) = true :=
    (show ∀ n : Fin 2, [Reg.PTP_STATUS_PSTEPEV, Reg.PTP_PSTEPCNT_COUNT n, Reg.PTP_PSTAT_STATE n, Reg.PTP_CFG_ENABLE, Reg.PTP_PCFG_ENABLE n,
      Reg.PWR_STATUS_STATE].all (Fld.clear (stateFields n ++ evalFields)) = true by decide) n
  have c2 : [Reg.REF_CFG_ENABLE, Reg.REF_CSTAT_STATE n, Reg.REF_CAND_PRIO n].all (Fld.clear (preFields n ++ detFields n)) = true :=
    (show ∀ n : Fin 2, [Reg.REF_CFG_ENABLE, Reg.REF_CSTAT_STATE n, Reg.REF_CAND_PRIO n].all (Fld.clear (preFields n ++ detFields n)) = true by decide) n
  have hr1 := hC.ref.same.rds c1
  have hr2 : ∀ g ∈ [Reg.REF_CFG_ENABLE, Reg.REF_CSTAT_STATE n, Reg.REF_CAND_PRIO n], E.rd g = f.rd g := fun g hg =>
    (((hD.ptp.same.mono (by simp; tauto)).rds c2) g hg).trans (((hF.ptp.same.mono (by simp; tauto)).rds c2) g hg)
  refine ⟨⟨F, E, hF, hE, hK, hr1 _ (by simp), hr1 _ (by simp)⟩, ?_, ?_, ?_, ?_, ?_, ?_, ?_, ?_, ?_, E, ?_, ?_, ?_⟩
  · rw [Dev.servoState_congr hC.ref.ptp, hD.servo, hF.servo]
  · rw [hK.port, hD.last, hF.port]
    rfl
  · rw [hK.port, hD.lastTick, hF.port]
    rfl
  · rw [hK.port, hD.within, hF.port]
  · rw [hd _ (by simp [shownFields]), hF.exch]
  · rw [hd _ (by simp [shownFields]), hF.suspects]
  · obtain ⟨m, h1, h2⟩ := hF.offset
    exact ⟨m, (hd _ (by simp [shownFields])).trans h1, h2⟩
  · rw [hd _ (by simp [shownFields]), hF.lock]
  · exact (hF.ptp.ptpRef.mono (by simp [exchFields]; tauto)).trans ((hD.ptp.ptpRef.mono (by simp [exchFields]; tauto)).trans
      ((hC.ref.mono (by simp [exchFields, portFields]; tauto)).ptpRef))
  · exact (Dev.PortIsLost.congr (hr1 _ (by simp)) (fun g hg => hr1 g (by simp at hg ⊢; tauto)) (by rw [hK.port]) hC.ref.tick).symm
  · exact hC.follows.congr (Dev.candIsLost_port E n) rfl rfl rfl rfl
  · simp only [List.all_eq_true, beq_iff_eq]
    exact hr2

end Sys2Proof.Machine
end

section
/-! The servo and the path step detector: the obligation (R323, R327 to R335, R345). -/
namespace Sys2Proof.Machine
open Sys2Proof.Claims

/-- The servo's state by its parts. -/
theorem Dev.servoState_parts {d : Dev} {i p r : Int} (h : d.servoState = (i, p, r)) : d.ptp.integ = i ∧ d.ptp.phase = p ∧ d.ptp.rate = r := by
  simpa [Dev.servoState, Prod.ext_iff] using h

/-- The candidate of the port follows twice: with the state that the exchange brings, and behind the exchange (R345). -/
theorem exchange_candidate {n : Fin 2} {x : ExchangeData} {th De : Int} {d f D : Dev} (hf : Dev.Forgotten n x d f) (hX : Dev.ExchDone n th De f D)
    (hon : d.ptpOn n = true) (gone : Prop) (hg : gone ↔ d.Moves n x.st ∧ d.rd Reg.REF_CFG_ENABLE = 1 ∧ (x.st ≠ some 3 ∨ d.rd Reg.PWR_STATUS_STATE = 4 ∨
      ∀ m, (d.pport n).lastTick = some m → m + 8000 ≤ d.tick))
    (hen : d.rd Reg.REF_CFG_ENABLE = 1) (hc0 : d.candState n ≠ 0) (hprio : d.rd (Reg.REF_CAND_PRIO n) ≠ 0) :
    (D.PortIsLost n → D.candState n = 1) ∧ (¬D.PortIsLost n → d.candState n = 1 → D.candState n = 2) ∧
    (¬D.PortIsLost n → 2 ≤ d.candState n → ¬gone → D.candState n = d.candState n) := by
  have hr := hf.frame.same.rds (readFields_clear n)
  obtain ⟨g1, g2, g3⟩ := (forgotten_steers hf hon gone hg).2 hen hc0 hprio
  obtain ⟨X, hXl, ⟨-, k2⟩, hXr⟩ := hX.follows
  simp only [List.all_cons, List.all_nil, Bool.and_true, Bool.and_eq_true, beq_iff_eq] at hXr
  obtain ⟨e1, e2, e3⟩ := hXr
  have hx2 : X.candState n = f.candState n := e2
  rw [hx2, e1, e3, hr _ (by simp [readFields]), hr _ (by simp [readFields])] at k2
  obtain ⟨k3, k4, k5⟩ := k2 hen g1
  rw [← hXl]
  refine ⟨k3, fun hl hc => ?_, fun hl hc hg => ?_⟩
  · have hn6 : n.val ≠ 6 := by omega
    rw [if_neg hprio, if_neg hn6] at k5
    obtain h1 | h1 := g2 hc
    · exact k5 hl h1
    · exact (k4 hl (by omega)).trans h1
  · rw [k4 hl (by rw [g3 hc hg]; exact hc), g3 hc hg]

/-- What the detector does at an exchange (R332, R333), in the words of the statement. -/
theorem exchange_detects {s : State} {n : Fin 2} {x : ExchangeData} {th De : Int} {f D : Dev} (hf : Dev.Forgotten n x s.dev f)
    (hX : Dev.ExchDone n th De f D) (B : Bool) (hB : f.suspect n th De = B) : let t : State := { s with dev := D.settle }
    let p := s.dev.pport n
    let l := ((th, De) :: p.last).take 8
    let good := if B then p.good else ((th, De) :: p.good).take 64
    let k := if B then p.suspects + 1 else 0
    (p.hold = none → B = false ∨ p.suspects + 1 < 3 → (t.dev.pport n).hold = none ∧ (t.dev.pport n).good = good ∧ (t.dev.pport n).suspects = k) ∧
    (p.hold = none → B = true → 3 ≤ p.suspects + 1 → (t.dev.pport n).good = good ∧ t.dev.rd (Reg.PTP_PSTAT_HOLD n) = 1 ∧
      t.dev.rd (Reg.PTP_PSTEPCNT_COUNT n) = (s.dev.rd (Reg.PTP_PSTEPCNT_COUNT n) + 1) % 2 ^ 32 ∧
      t.dev.rd Reg.PTP_STATUS_PSTEPEV = 1 ∧ ∃ other, (t.dev.pport n).hold = some (PathHold.mk s.dev.tick 0 (sumOf (p.good.map (·.1)))
        (sumOf (p.good.map (·.2))) other false) ∧ (other ≠ none ↔ (s.dev.pport (1 - n.val)).good.length = 64)) ∧
    (∀ h, p.hold = some h → HoldDecides s t n h l good k) := by
  intro t p l good k
  have hr := hf.frame.same.rds (readFields_clear n)
  have hfp := hf.port
  have hhold : (f.pport n).hold = p.hold := by rw [hfp]; rfl
  obtain ⟨F, E, hF, hE, hK, hev, hcnt⟩ := hX.detected
  have hKs : Dev.DetKept n E t.dev := hK.settle
  have hset : ∀ g, t.dev.rd g = D.rd g := fun g => Dev.settle_rd D g
  have hFp := hF.port
  rw [hhold, hB] at hE
  rw [hB] at hFp
  have hFgood : (F.pport n).good = good := by rw [hFp, hfp]; rfl
  have hFsus : (F.pport n).suspects = k := by rw [hFp, hfp]; rfl
  have hFlast : (F.pport n).last = l := by rw [hFp, hfp]; rfl
  have hfsus : (f.pport n).suspects = p.suspects := by rw [hfp]; rfl
  refine ⟨fun hh hb => ?_, fun hh hb h3 => ?_, fun h hh => ?_⟩
  · have hnf : (f.pport n).fires B = false := by
      rw [PtpPort.fires, Bool.and_eq_false_iff, Bool.and_eq_false_iff, hfsus]
      exact Or.inl (hb.imp_right fun h => decide_eq_false (Nat.not_le.mpr h))
    rw [hnf, hh] at hE
    have hEF : E = F := hE
    rw [hKs.port, hEF]
    exact ⟨by rw [hFp]; exact hhold.trans hh, hFgood, hFsus⟩
  · have hfi : (f.pport n).fires B = true := by
      rw [PtpPort.fires, Bool.and_eq_true, Bool.and_eq_true, hhold, hh, hfsus]
      exact ⟨⟨hb, decide_eq_true h3⟩, rfl⟩
    rw [hfi, hh] at hE
    have hEF : E = F.pstepFire n th := hE
    obtain ⟨other, ho, hP, hH, hC, hP1⟩ := F.pstepFire_fires n th
    rw [← hEF] at hP hH hC hP1
    have hg : good = p.good := if_pos hb
    have hcl : Fld.clear (preFields n) (Reg.PTP_PSTEPCNT_COUNT n) = true :=
      (show ∀ n : Fin 2, Fld.clear (preFields n) (Reg.PTP_PSTEPCNT_COUNT n) = true by decide) n
    refine ⟨by rw [hKs.port, hP.port, ← hFgood], hKs.hold.trans hH.1, ?_, (hset _).trans (hev.trans hP1), other, ?_, ?_⟩
    · rw [hset, hcnt, hC, hF.ptp.same.rd hcl, hr _ (by simp [readFields])]
    · rw [hKs.port, hP.port, ← hg, ← hFgood, ← hf.frame.tick, ← hF.ptp.tick]
      rfl
    · rw [ho, hF.ptp.other, hf.frame.other]
  · rw [hh] at hE
    have hEF : E = F.holdStep n h := hE
    have hFr := hF.ptp.same.rds (preFields_clear n)
    rw [← hFlast, ← hFgood, ← hFsus]
    refine holdDecides_of (F := F) ⟨?_, hF.ptp.other.trans hf.frame.other, ?_, ?_, hF.ptp.tick.trans hf.frame.tick, ?_, ?_⟩ (hEF ▸ hKs)
    · rw [hFr _ (by simp), hr _ (by simp [readFields])]
    · unfold Dev.ptpOn
      rw [Dev.on_congr ((hFr Reg.PTP_CFG_ENABLE (by simp)).trans (hr _ (by simp [readFields]))),
        Dev.on_congr ((hFr (Reg.PTP_PCFG_ENABLE (1 - n.val)) (by simp)).trans (hr _ (by simp [readFields])))]
    · rw [hFr _ (by simp), hr _ (by simp [readFields])]
    · rw [hFp, hfp]
      rfl
    · rw [hFp, hfp]
      rfl

theorem portFields_exch (n : Nat) : ∀ f ∈ portFields n, f ∈ exchFields n := fun f hf => by
  rw [exchFields, List.append_assoc]
  exact List.mem_append_left _ hf

theorem exchange_keeps {s : State} {n : Fin 2} {x : ExchangeData} {th De : Int} {f D : Dev} (hf : Dev.Forgotten n x s.dev f)
    (hX : Dev.ExchDone n th De f D) : Keeps (servoWords n ++ refWords) s { s with dev := D.settle } (ServoPart s { s with dev := D.settle }) :=
  ((hf.frame.mono (portFields_exch n)).trans hX.frame).keeps (exchFields_words n)

theorem exchange_steersAndDetects : ExchangesSteerAndDetect := by
  intro s n x lacks runs p moves cst
  refine ⟨fun h => exchange_idle x h, fun h hl => exchange_skips h hl, fun h hl => ?_⟩
  intro fwd De th lim far bad gone steers lock within bw ki kp period slew l
  have hrun := exchange_runs x h
  obtain ⟨hf, hPp⟩ := s.dev.portStep_forgotten n x
  unfold Dev.exchStep at hrun
  dsimp only at hrun
  rw [hPp, if_neg (fun hc => hl ((lacks_iff ..).mp hc))] at hrun
  generalize (s.dev.portStep n x.st).forgotten n x = f at hf hrun
  have hr := hf.frame.same.rds (readFields_clear n)
  have hDe : f.delayOf n x = De := Dev.delayOf_eq x (hr _ (by simp [readFields]))
  have hth : f.thetaOf n x = th := by
    rw [Dev.thetaOf, hDe, hr (Reg.PTP_ASYM_ASYM n) (by simp [readFields]), hr (Reg.PTP_REBASE_REBASE n) (by simp [readFields])]
    show 2 * fwd - De - 2 * _ - 2 * _ = 2 * (fwd - _ - _) - De
    omega
  rw [hDe, hth] at hrun
  have hX := f.exchange_done n th De
  generalize (f.exchange n th De).candCheck n = D at hX hrun
  have hset : ∀ g, D.settle.rd g = D.rd g := fun g => Dev.settle_rd D g
  have hpp : ∀ k, D.settle.pport k = D.pport k := fun k => Dev.pport_congr (Dev.settle_ptp D) k
  have hsv : D.settle.servoState = D.servoState := Dev.servoState_congr (Dev.settle_ptp D)
  have hfp := hf.port
  obtain ⟨hcand3, hcand⟩ := forgotten_steers hf h.1 gone Iff.rfl
  have hgood : (f.pport n).good = p.good := by rw [hfp]; rfl
  have hbad : f.suspect n th De = true ↔ bad := by
    rw [Dev.suspect_iff, hgood, hr _ (by simp [readFields])]
  have hsteers : f.steers n = true ↔ steers := by
    unfold Dev.steers
    rw [Bool.and_eq_true, beq_iff_eq, decide_eq_true_eq, hcand3, hr _ (by simp [readFields])]
    rfl
  have hwithin : f.withinNext n th = within := by
    rw [Dev.withinNext, hr _ (by simp [readFields]), hfp]
    rfl
  have hlock : f.lockNext n th = if 16 ≤ within then 1 else if 2 * lock < th.natAbs then 0 else s.dev.rd (Reg.PTP_PSTAT_LOCK n) := by
    rw [Dev.lockNext, hwithin, hr Reg.PTP_SERVO_LOCK_NS (by simp [readFields]), hr (Reg.PTP_PSTAT_LOCK n) (by simp [readFields])]
  have hfs := hf.servo
  have hsn : s.dev.servoState = (s.dev.ptp.integ, s.dev.ptp.phase, s.dev.ptp.rate) := rfl
  have hfi : f.ptp.integ = s.dev.ptp.integ := congrArg Prod.fst hfs
  have hinteg : f.integNext n th = s.dev.ptp.integ - ki * th * period := by
    rw [Dev.integNext, hfi, hr Reg.PTP_SERVO_BW (by simp [readFields]), hr (Reg.PTP_PRATE_LOG_SYNC n) (by simp [readFields]),
      kiOf_eq (s.dev.rd_lt Reg.PTP_SERVO_BW)]
  have hphase : f.phaseNext th = max (-slew) (min (-(kp * th * 256)) slew) := by
    rw [Dev.phaseNext, hr Reg.PTP_SERVO_BW (by simp [readFields]), hr Reg.REF_SLEW_PHASE (by simp [readFields]),
      kpOf_eq (s.dev.rd_lt Reg.PTP_SERVO_BW), show (2 : Int) ^ 8 = 256 by norm_num]
    rfl
  have hhold : (f.pport n).hold = p.hold := by rw [hfp]; rfl
  obtain ⟨hquiet, hfire, hdec⟩ := exchange_detects hf hX _ rfl
  refine ⟨{ s with dev := D.settle }, _, _, hrun, fun hb => ⟨if_pos (hbad.mpr hb), if_pos (hbad.mpr hb)⟩,
    fun hb => ⟨if_neg fun hc => hb (hbad.mp hc), if_neg fun hc => hb (hbad.mp hc)⟩, ?_, fun hb => ?_, fun hb => ?_, ?_, ?_, ?_, ?_,
    fun hs => ?_, fun hs => ?_, fun hs hb => ?_, fun hs => ?_, ?_, fun hs hb => ?_, fun hs hb hh => ?_,
    fun hh hb => hquiet hh (hb.imp_left fun hb => Bool.eq_false_iff.mpr fun hc => hb (hbad.mp hc)), fun hh hb h3 => hfire hh (hbad.mpr hb) h3, hdec,
    exchange_keeps hf hX⟩
  · exact (hset _).trans (hX.exch.trans (by rw [hr _ (by simp [readFields])]))
  · exact (hset _).trans (hX.suspects.trans (by rw [if_pos (hbad.mpr hb), hr _ (by simp [readFields])]))
  · exact (hset _).trans (hX.suspects.trans (by rw [if_neg fun hc => hb (hbad.mp hc), hr _ (by simp [readFields])]))
  · change (D.settle.pport n).last = l
    rw [hpp, hX.last, hfp]
    rfl
  · change (D.settle.pport n).lastTick = _
    rw [hpp, hX.lastTick, hf.frame.tick]
  · exact (hpp _).trans (hX.frame.other.trans hf.frame.other)
  · have ho := hX.offset
    rw [hfp] at ho
    obtain ⟨m, h1, h2⟩ := ho
    exact ⟨m, (hset _).trans h1, h2⟩
  · have h1 : D.settle.servoState = s.dev.servoState := by
      rw [hsv, hX.servo, if_neg fun hc => hs (hsteers.mp hc), hfs]
    exact Dev.servoState_parts (h1.trans hsn)
  · have h1 : D.settle.servoState = _ := hsv.trans (hX.servo.trans (if_pos (hsteers.mpr hs)))
    unfold Dev.servoNext at h1
    split at h1
    · obtain ⟨a, b, c⟩ := Dev.servoState_parts h1
      rw [c, a, b, Int.add_zero]
    · obtain ⟨a, b, c⟩ := Dev.servoState_parts h1
      rw [c, a, b]
  · have hB : (f.steers n && !f.suspect n th De) = true := by
      rw [hsteers.mpr hs, Bool.eq_false_iff.mpr fun hc => hb (hbad.mp hc)]
      rfl
    constructor
    · change (D.settle.pport n).within = _
      rw [hpp, hX.within, if_pos hB, hwithin]
    · exact (hset _).trans (hX.lock.trans ((if_pos hB).trans hlock))
  · have hB : ¬(f.steers n && !f.suspect n th De) = true := by
      rw [Bool.and_eq_true, hsteers, Bool.not_eq_true', ← Bool.not_eq_true, hbad]
      exact fun ⟨h1, h2⟩ => hs.elim (fun h => h h1) h2
    constructor
    · change (D.settle.pport n).within = _
      rw [hpp, hX.within, if_neg hB, hfp]
      rfl
    · exact (hset _).trans (hX.lock.trans ((if_neg hB).trans (hr _ (by simp [readFields]))))
  · intro hen hc0 hprio now
    have hnow : now = D.candState n := hset _
    rw [portLost_settle, hnow]
    exact exchange_candidate hf hX h.1 gone Iff.rfl hen hc0 hprio
  · have h1 : D.settle.servoState = _ := hsv.trans (hX.servo.trans (if_pos (hsteers.mpr hs)))
    have hB : (f.suspect n th De || (f.pport n).hold.isSome) = true := by
      rw [Bool.or_eq_true, hbad, hhold, Option.isSome_iff_ne_none]
      exact hb
    rw [hB] at h1
    obtain ⟨a, b, c⟩ := Dev.servoState_parts h1
    exact ⟨a.trans hfi, b⟩
  · have h1 : D.settle.servoState = _ := hsv.trans (hX.servo.trans (if_pos (hsteers.mpr hs)))
    have hB : (f.suspect n th De || (f.pport n).hold.isSome) = false := by
      rw [hhold, hh, Bool.eq_false_iff.mpr fun hc => hb (hbad.mp hc)]
      rfl
    rw [hB] at h1
    obtain ⟨a, b, c⟩ := Dev.servoState_parts h1
    exact ⟨a.trans hinteg, b.trans hphase⟩

/-! ### The commands of the detector -/

theorem detFields_words (n : Fin 2) : ((detFields n).all fun f => (servoWords n).contains f.addr) = true :=
  (show ∀ n : Fin 2, ((detFields n).all fun f => (servoWords n).contains f.addr) = true by decide) n

/-- The frame of a command of the detector: what it finds is the state but for the power events of the access. -/
theorem Dev.PtpOnly.decides {s : State} {n : Nat} {p : Pwr} {fs : List Fld} {D : Dev} (h : Dev.PtpOnly n fs { s.dev with pwr := p } D)
    (hw : (fs.all fun f => (servoWords n).contains f.addr) = true) : let t : State := { s with dev := D.settle }
    t.dev.pport (1 - n) = s.dev.pport (1 - n) ∧
    Keeps (servoWords n) s t { s.dev with ptp := { t.dev.ptp with stamps := s.dev.ptp.stamps, trigs := s.dev.ptp.trigs } } := by
  refine ⟨(Dev.pport_congr (Dev.settle_ptp D) _).trans h.other, fun a hna => ?_, ?_⟩
  · refine (D.settle_word a).trans ((h.same.word fun f hf hfa => hna ?_).trans rfl)
    rw [← hfa]
    exact List.contains_iff_mem.mp (List.all_eq_true.mp hw f hf)
  · have h1 : D.ptp = { D.ptp with stamps := s.dev.ptp.stamps, trigs := s.dev.ptp.trigs } := by
      have a := h.stamps
      have b := h.trigs
      dsimp only at a b
      rw [← a, ← b]
    have hD : D = { s.dev with live := D.live, evq := D.evq, pwr := p, ptp := { D.ptp with stamps := s.dev.ptp.stamps, trigs := s.dev.ptp.trigs } } := by
      rw [← h1]
      exact h.only
    change D.settle = Around { s.dev with ptp := { D.settle.ptp with stamps := s.dev.ptp.stamps, trigs := s.dev.ptp.trigs } } D.settle
    rw [Dev.settle_ptp]
    generalize ({ D.ptp with stamps := s.dev.ptp.stamps, trigs := s.dev.ptp.trigs } : Ptp) = q at hD
    rw [hD]
    rfl

/-- A command of the detector finds the state but for the power events of the access. -/
theorem detCmd_runs {s : State} {h : Agent} {f : Fld} {c : Instr} {eff : Dev → Dev} (hc : exec c s = onDev (fun d => d.hostCmd h f [] eff) s)
    (hr : Ready s h f false) : ∃ p, Runs c s { s with dev := (eff { s.dev with pwr := p }).settle } := by
  obtain ⟨p, hp⟩ := s.dev.touch_pwr h true (blockOf f.addr)
  have hrun := runs_of_onDev hc
  rw [Dev.hostCmd_open _ _ _ _ hr.1 hr.2, hp] at hrun
  exact ⟨p, hrun⟩

/-- What the commands of port `n` may change. -/
def CmdKept (s t : State) (n : Nat) : Prop :=
  t.dev.pport (1 - n) = s.dev.pport (1 - n) ∧
  Keeps (servoWords n) s t { s.dev with ptp := { t.dev.ptp with stamps := s.dev.ptp.stamps, trigs := s.dev.ptp.trigs } }

theorem take_ends {s : State} {n : Fin 2} {p : Pwr} {x : PathHold} (both : Bool) {c : Instr}
    (hrun : Runs c s { s with dev := (Dev.pstepTake { s.dev with pwr := p } n x both).settle }) :
    ∃ t, Runs c s t ∧ TakesOffset s t n (s.dev.pport n).last x ∧ CmdKept s t n := by
  have hT := Dev.pstepTake_takes { s.dev with pwr := p } n x both
  generalize Dev.pstepTake { s.dev with pwr := p } n x both = D at hT hrun
  exact ⟨_, hrun, takesOffset_of (F := { s.dev with pwr := p }) (Dev.DetKept.refl n D).settle hT rfl, hT.1.ptp.decides (detFields_words n)⟩

theorem rebase_ends {s : State} {n : Fin 2} {p : Pwr} {x : PathHold} {c : Instr}
    (hrun : Runs c s { s with dev := (Dev.pstepRebase { s.dev with pwr := p } n x).settle }) :
    ∃ t, Runs c s t ∧ IsRebased s t n (s.dev.pport n).last x (s.dev.pport n).good ∧ CmdKept s t n := by
  have hT := Dev.pstepRebase_rebases { s.dev with pwr := p } n x
  generalize Dev.pstepRebase { s.dev with pwr := p } n x = D at hT hrun
  exact ⟨_, hrun, isRebased_of (F := { s.dev with pwr := p }) (Dev.DetKept.refl n D).settle hT rfl rfl, hT.1.ptp.decides (detFields_words n)⟩

theorem Dev.rebaseGo_some {d : Dev} {n : Nat} {x : PathHold} (h : (d.pport n).hold = some x) : d.rebaseGo n = d.pstepRebase n x := by
  rw [Dev.rebaseGo, h]
theorem Dev.rebaseGo_none {d : Dev} {n : Nat} (h : (d.pport n).hold = none) : d.rebaseGo n = d := by
  rw [Dev.rebaseGo, h]
theorem Dev.acceptGo_some {d : Dev} {n : Nat} {x : PathHold} (h : (d.pport n).hold = some x) : d.acceptGo n = d.pstepTake n x false := by
  rw [Dev.acceptGo, h]
theorem Dev.acceptGo_none {d : Dev} {n : Nat} (h : (d.pport n).hold = none) : d.acceptGo n = d := by
  rw [Dev.acceptGo, h]

/-- A command that is ignored leaves only the power events of the access. -/
theorem keeps_pwr {s : State} (p : Pwr) : Keeps [] s { s with dev := Dev.settle { s.dev with pwr := p } } s.dev := ⟨fun _ _ => rfl, rfl⟩

theorem execPstepAccept_eq (n : Fin 2) (s : State) : exec (.pstepAccept n) s = onDev (fun d => match (d.pport n).hold with
    | some h => if h.single && decide (h.tick + 8000 * d.rd Reg.PTP_PSTEP_HOLD ≤ d.tick) then d.pstepTake n h false else d
    | none => d) s := rfl

theorem pstepAccept_decides {s : State} {n : Fin 2} {x : PathHold} (hx : (s.dev.pport n).hold = some x) :
    (x.single = true ∧ x.tick + 8000 * s.dev.rd Reg.PTP_PSTEP_HOLD ≤ s.dev.tick →
      ∃ t, Runs (.pstepAccept n) s t ∧ TakesOffset s t n (s.dev.pport n).last x ∧ CmdKept s t n) ∧
    (¬(x.single = true ∧ x.tick + 8000 * s.dev.rd Reg.PTP_PSTEP_HOLD ≤ s.dev.tick) → ∃ t, Runs (.pstepAccept n) s t ∧ Keeps [] s t s.dev) := by
  have hrun := runs_of_onDev (execPstepAccept_eq n s)
  rw [hx] at hrun
  dsimp only at hrun
  have hcond : (x.single && decide (x.tick + 8000 * s.dev.rd Reg.PTP_PSTEP_HOLD ≤ s.dev.tick)) = true ↔
      x.single = true ∧ x.tick + 8000 * s.dev.rd Reg.PTP_PSTEP_HOLD ≤ s.dev.tick := by
    rw [Bool.and_eq_true, decide_eq_true_eq]
  refine ⟨fun hd => ?_, fun hd => ?_⟩
  · rw [if_pos (hcond.mpr hd)] at hrun
    exact take_ends (p := s.dev.pwr) false hrun
  · rw [if_neg fun hc => hd (hcond.mp hc)] at hrun
    exact ⟨_, hrun, keeps_pwr s.dev.pwr⟩

/-- The port behind a CLRREB. -/
def PtpPort.cleared (x : PtpPort) : PtpPort := { x with good := [], suspects := 0, reb := 0, bout := 0 }

theorem clrreb_clears {s : State} {h : Agent} {n : Fin 2} (hr : Ready s h (clrrebFld n) false) :
    ∃ t, Runs (.clrreb h n) s t ∧ t.dev.rd (Reg.PTP_REBASE_REBASE n) = 0 ∧ (t.dev.pport n).reb = 0 ∧ (t.dev.pport n).bout = 0 ∧
      (t.dev.pport n).good = [] ∧ (t.dev.pport n).suspects = 0 ∧ (t.dev.pport n).hold = (s.dev.pport n).hold ∧ CmdKept s t n := by
  obtain ⟨p, hrun⟩ := detCmd_runs (c := .clrreb h n) (eff := fun d => d.clrrebGo n) rfl hr
  generalize hd : ({ s.dev with pwr := p } : Dev) = d at hrun
  have h1 := Dev.DetPort.setPport d n (d.pport n).cleared
  have hg : d.clrrebGo n = (d.setPport n (d.pport n).cleared).showRebase n := rfl
  rw [hg] at hrun
  generalize d.setPport n (d.pport n).cleared = X at h1 hrun
  obtain ⟨h2, h3⟩ := X.showRebase_shows n
  rw [h1.port] at h2 h3
  generalize X.showRebase n = D at h2 h3 hrun
  have hp : D.settle.pport n = (d.pport n).cleared := (Dev.pport_congr (Dev.settle_ptp D) n).trans h2.port
  have hz : (d.pport n).cleared.shownRebase = 0 := rfl
  have hhold : (d.pport n).cleared.hold = (s.dev.pport n).hold := by
    rw [← hd]
    rfl
  exact ⟨_, hrun, (D.settle_rd _).trans (h3.trans hz), congrArg PtpPort.reb hp, congrArg PtpPort.bout hp, congrArg PtpPort.good hp,
    congrArg PtpPort.suspects hp, (congrArg PtpPort.hold hp).trans hhold,
    Dev.PtpOnly.decides (p := p) (hd ▸ (h1.trans h2).ptp) (detFields_words n)⟩

/-- REBASE on a port in path hold, and on one that is in none. -/
theorem rebase_decides {s : State} {h : Agent} {n : Fin 2} (hr : Ready s h (rebaseFld n) false) :
    (∀ x, (s.dev.pport n).hold = some x →
      ∃ t, Runs (.rebase h n) s t ∧ IsRebased s t n (s.dev.pport n).last x (s.dev.pport n).good ∧ CmdKept s t n) ∧
    ((s.dev.pport n).hold = none → ∃ t, Runs (.rebase h n) s t ∧ Keeps [] s t s.dev) := by
  obtain ⟨p, hrun⟩ := detCmd_runs (c := .rebase h n) (eff := fun d => d.rebaseGo n) rfl hr
  refine ⟨fun x hx => ?_, fun hx => ?_⟩
  · exact rebase_ends ((Dev.rebaseGo_some (d := { s.dev with pwr := p }) hx) ▸ hrun)
  · exact ⟨_, (Dev.rebaseGo_none (d := { s.dev with pwr := p }) hx) ▸ hrun, keeps_pwr p⟩

/-- ACCEPT on a port in path hold, and on one that is in none. -/
theorem accept_decides {s : State} {h : Agent} {n : Fin 2} (hr : Ready s h (acceptFld n) false) :
    (∀ x, (s.dev.pport n).hold = some x → ∃ t, Runs (.accept h n) s t ∧ TakesOffset s t n (s.dev.pport n).last x ∧ CmdKept s t n) ∧
    ((s.dev.pport n).hold = none → ∃ t, Runs (.accept h n) s t ∧ Keeps [] s t s.dev) := by
  obtain ⟨p, hrun⟩ := detCmd_runs (c := .accept h n) (eff := fun d => d.acceptGo n) rfl hr
  refine ⟨fun x hx => ?_, fun hx => ?_⟩
  · exact take_ends false ((Dev.acceptGo_some (d := { s.dev with pwr := p }) hx) ▸ hrun)
  · exact ⟨_, (Dev.acceptGo_none (d := { s.dev with pwr := p }) hx) ▸ hrun, keeps_pwr p⟩

theorem pathStepCommandsDecide : PathStepCommandsDecide := fun _ _ _ =>
  ⟨fun _ hx => pstepAccept_decides hx, rebase_decides, accept_decides, clrreb_clears⟩

/-- Settles O50: the exchange by the order of its stages (skip, judge, steer, detect), the commands by the rules of the detector. -/
theorem exchangesSteerAndDetectPathSteps : Obligations.ExchangesSteerAndDetectPathSteps :=
  ⟨exchange_steersAndDetects, pathStepCommandsDecide⟩

end Sys2Proof.Machine
end

section
/-! A trigger that starts a pulse output. -/
namespace Sys2Proof.Machine
open Sys2Proof.Claims

/-- Tick 1 with internal time running: trigger 0 has reached its target, and pulse output 0 waits for it; no TDM port does. -/
def pulseWaits : State :=
  let d := ((State.reset.dev.wr Reg.TSU_CFG_ENABLE 1).wr (Reg.OUT_FP_STAT_STATE 0) 1)
  { State.reset with dev := { d with tick := 1, syn := { d.syn with a := { d.syn.a with gated := false } }, ptp := { d.ptp with trigs := [(0, some ⟨0, 0⟩)] } } }

/-- The trigger starts the output: its first edge is scheduled a millisecond of internal time or later from now. -/
theorem trigger_pulseWaits : ∃ u, exec (.trigger 0 0) pulseWaits = .next u ∧ (u.dev.pulse 0).since = 125000 :=
  ⟨_, rfl, by decide +kernel⟩

/-- Refutes O49: a trigger that starts a pulse output schedules its first edge, which the frame of the statement leaves out. -/
theorem not_stampsTriggersAndQuality : ¬ Obligations.StampsTriggersAndQuality := by
  rintro ⟨-, ⟨-, -, hfire⟩, -⟩
  obtain ⟨-, hdue⟩ := hfire pulseWaits 0 0 ⟨0, 0⟩ (by decide +kernel) (by decide +kernel)
  obtain ⟨t, ⟨ht, -⟩, -, -, -, -, -, -, -, -, -, -, -, hkeeps⟩ := hdue (Nat.zero_le _)
  obtain ⟨⟨-, hdev⟩, -⟩ := hkeeps (by
    rintro n ⟨hn, hst, -⟩
    exact absurd hst ((show ∀ n : Fin 16, pulseWaits.dev.rd (Reg.TDM_PSTAT_STATE n) ≠ 1 by decide +kernel) ⟨n, hn⟩))
  obtain ⟨u, hu, hsince⟩ := trigger_pulseWaits
  rw [ht, Host.Outcome.next.injEq] at hu
  have hpulse : (t.dev.pulse 0).since = (pulseWaits.dev.pulse 0).since :=
    (congrArg (fun y : Dev => (y.pulse 0).since) hdev).trans rfl
  rw [hu, hsince] at hpulse
  exact absurd hpulse (by decide +kernel)

end Sys2Proof.Machine
end

section
/-! What an operation writes and posts: the registers that may change and the events it adds, over a device that is otherwise given. -/
namespace Sys2Proof.Machine
open Sys2Proof.Claims

/-- `D` is `B` but for registers among `fs` and for the posted events `es`. -/
structure Dev.Acts (fs : List Fld) (es : List (Nat × Nat × Nat)) (B D : Dev) : Prop where
  only : D = { B with live := D.live, evq := { B.evq with posts := B.evq.posts ++ es } }
  same : Dev.SameBut fs B D

theorem Dev.Acts.refl (fs : List Fld) (d : Dev) : Dev.Acts fs [] d d := ⟨by rw [List.append_nil], .refl fs d⟩

theorem Dev.Acts.trans {fs : List Fld} {es es' : List (Nat × Nat × Nat)} {d d' d'' : Dev} (h : Dev.Acts fs es d d') (h' : Dev.Acts fs es' d' d'') :
    Dev.Acts fs (es ++ es') d d'' := by
  refine ⟨?_, h.same.trans h'.same⟩
  rw [h'.only, h.only, List.append_assoc]

theorem Dev.Acts.then {fs : List Fld} {es : List (Nat × Nat × Nat)} {d d' d'' : Dev} (h : Dev.Acts fs es d d') (h' : Dev.Acts fs [] d' d'') :
    Dev.Acts fs es d d'' := by
  have := h.trans h'
  rwa [List.append_nil] at this

theorem Dev.Acts.mono {fs gs : List Fld} {es : List (Nat × Nat × Nat)} {d D : Dev} (h : Dev.Acts fs es d D) (hs : ∀ f ∈ fs, f ∈ gs) :
    Dev.Acts gs es d D := ⟨h.only, h.same.mono hs⟩

theorem Dev.Acts.of_live {fs : List Fld} {d D : Dev} (h : Dev.OnlyLive d D) (hs : Dev.SameBut fs d D) : Dev.Acts fs [] d D := by
  refine ⟨?_, hs⟩
  rw [List.append_nil]
  exact h

theorem Dev.wr_acts (d : Dev) (f : Fld) (v : Nat) (hf : f.ok = true) : Dev.Acts [f] [] d (d.wr f v) :=
  .of_live rfl ((Dev.SameBut.refl _ d).wr f v (by simp) hf)

theorem Dev.flag_acts (d : Dev) (f : Fld) (hf : f.ok = true) : Dev.Acts [f] [] d (d.flag f) := d.wr_acts f 1 hf

theorem Dev.post_acts (d : Dev) (a b c : Nat) : Dev.Acts [] [(a, b, c)] d (d.post a b c) := ⟨rfl, .of_live rfl⟩

theorem Dev.count_acts (d : Dev) (c half : Fld) (k : Nat) (hc : c.ok = true) (hh : half.ok = true) : Dev.Acts [c, half] [] d (d.count c half k) :=
  .of_live (d.count_onlyLive c half k) ((Dev.SameBut.refl _ d).count c half k (by simp) (by simp) hc hh)

section
variable {fs : List Fld} {es : List (Nat × Nat × Nat)} {d D : Dev}

theorem Dev.Acts.wr (h : Dev.Acts fs es d D) {f : Fld} (v : Nat) (hm : f ∈ fs) (hf : f.ok = true) : Dev.Acts fs es d (D.wr f v) :=
  h.then ((D.wr_acts f v hf).mono (by simpa using hm))

theorem Dev.Acts.flag (h : Dev.Acts fs es d D) {f : Fld} (hm : f ∈ fs) (hf : f.ok = true) : Dev.Acts fs es d (D.flag f) := h.wr 1 hm hf

theorem Dev.Acts.post (h : Dev.Acts fs es d D) (a b c : Nat) : Dev.Acts fs (es ++ [(a, b, c)]) d (D.post a b c) :=
  h.trans ((D.post_acts a b c).mono (by simp))

theorem Dev.Acts.count (h : Dev.Acts fs es d D) {c half : Fld} (k : Nat) (hc : c ∈ fs) (hh : half ∈ fs) (oc : c.ok = true) (oh : half.ok = true) :
    Dev.Acts fs es d (D.count c half k) := h.then ((D.count_acts c half k oc oh).mono (by simp [hc, hh]))

theorem Dev.Acts.rd (h : Dev.Acts fs es d D) {g : Fld} (hc : Fld.clear fs g = true) : D.rd g = d.rd g := h.same.rd hc

theorem Dev.Acts.word (h : Dev.Acts fs es d D) {a : Nat} (ha : ∀ f ∈ fs, f.addr ≠ a) : D.word a = d.word a := h.same.word ha

theorem Dev.Acts.onlyLive (h : Dev.Acts fs [] d D) : Dev.OnlyLive d D := by
  have := h.only
  rwa [List.append_nil] at this

theorem Dev.Acts.around (h : Dev.Acts fs es d D) : D.settle = Around d D.settle :=
  Dev.around_of_eq (by rw [h.only])

/-- The events of one block enter in the order in which they were posted. -/
theorem Dev.Acts.enters {s : State} (h : Dev.Acts fs es d D) (hq : d.evq = s.dev.evq) (ht : d.tick = s.dev.tick) (b : Nat) (hb : b < 32)
    (he : ∀ e ∈ es, e.1 = b) (hn : es.length ≤ 12) (hr : Room s) {t : State} (hD : t.dev = D.settle) : EntersAll s t es := by
  refine entersAll_of_room b hb he hn hr ?_
  have hevq : D.evq = { s.dev.evq with posts := es } := by
    have h1 := congrArg Dev.evq h.only
    rw [hq, hr.2.1] at h1
    exact h1
  have htick : D.schTick = s.dev.schTick := by
    have h1 : D.tick = d.tick := by rw [h.only]
    rw [Dev.schTick, h1, ht, Dev.schTick]
  rw [hD, ← htick, ← hevq]
  rfl

end

end Sys2Proof.Machine
end

section
/-! The bits of `setBit`. -/
namespace Sys2Proof.Machine

/-- A number without bit `i`, with the bit added. -/
theorem testBit_sub_two_pow {w i : Nat} (h : w.testBit i = true) (j : Nat) : (w - 2 ^ i).testBit j = (decide (j ≠ i) && w.testBit j) := by
  obtain ⟨y, rfl⟩ : ∃ y, w = 2 ^ i + y := ⟨w - 2 ^ i, (Nat.add_sub_cancel' (Nat.ge_two_pow_of_testBit h)).symm⟩
  rw [Nat.add_sub_cancel_left]
  have hy : y.testBit i = false := by
    rw [Nat.testBit_two_pow_add_eq] at h
    simpa using h
  obtain hj | rfl | hj := Nat.lt_trichotomy j i
  · simp [Nat.testBit_two_pow_add_gt hj, hj.ne]
  · simp [hy]
  · have he : (2 ^ i + y) / 2 ^ (i + 1) = y / 2 ^ (i + 1) := by
      rw [pow_succ, ← Nat.div_div_eq_div_mul, ← Nat.div_div_eq_div_mul, Nat.add_div_left _ (by positivity)]
      have : ¬ y / 2 ^ i % 2 = 1 := by
        rw [Nat.testBit_eq_decide_div_mod_eq] at hy
        simpa using hy
      omega
    have hb : ∀ x : Nat, x.testBit j = (x / 2 ^ (i + 1)).testBit (j - (i + 1)) := fun x => by
      rw [Nat.testBit_div_two_pow, Nat.sub_add_cancel hj]
    rw [hb (2 ^ i + y), he, ← hb y]
    simp [hj.ne']

theorem testBit_setBit (w i : Nat) (b : Bool) (j : Nat) : (setBit w i b).testBit j = if j = i then b else w.testBit j := by
  unfold setBit
  cases b with
  | true =>
    rw [if_pos rfl, Nat.testBit_or, Nat.testBit_two_pow]
    split
    · simp_all
    · simp [show i ≠ j by omega]
  | false =>
    rw [if_neg (by decide), Nat.and_two_pow]
    cases h : w.testBit i with
    | true =>
      simp only [Bool.toNat_true, one_mul, testBit_sub_two_pow h]
      split <;> simp_all
    | false =>
      simp only [Bool.toNat_false, zero_mul, Nat.sub_zero]
      split <;> simp_all

theorem setBit_lt {w i k : Nat} (b : Bool) (hw : w < 2 ^ k) (hi : i < k) : setBit w i b < 2 ^ k := by
  unfold setBit
  split
  · exact Nat.or_lt_two_pow hw (Nat.pow_lt_pow_right (by decide) hi)
  · omega

/-- Bit `j` of a number as the statements write it. -/
theorem div_pow_mod_setBit (w i : Nat) (b : Bool) (j : Nat) : setBit w i b / 2 ^ j % 2 = if j = i then bit b else w / 2 ^ j % 2 := by
  have h := testBit_setBit w i b j
  rw [Nat.testBit_eq_decide_div_mod_eq, Nat.testBit_eq_decide_div_mod_eq] at h
  split
  case isTrue hj =>
    rw [if_pos hj] at h
    cases b with
    | true => simpa [bit] using h
    | false =>
      have : ¬ setBit w i false / 2 ^ j % 2 = 1 := by simpa using h
      rw [show bit false = 0 from rfl]
      omega
  case isFalse hj =>
    rw [if_neg hj] at h
    have : setBit w i b / 2 ^ j % 2 = 1 ↔ w / 2 ^ j % 2 = 1 := by simpa using h
    omega

end Sys2Proof.Machine
end

section
/-! Paths, announcements, port clocks and converters (R243, R256, R267, R269, R273). -/
namespace Sys2Proof.Machine
open Sys2Proof.Claims

/-! ### Silent paths (R243) -/

theorem Dev.rxf_setRxf (d : Dev) (f : Nat) (x : RxFlow) (g : Nat) : (d.setRxf f x).rxf g = if g = f then x else d.rxf g := by
  simp only [Dev.rxf, Dev.setRxf, Sparse.get_put, eq_comm]

/-- The flow with path `n` down. -/
def RxFlow.pathDown (x : RxFlow) (n : Fin 2) : RxFlow := if n = 0 then { x with up0 := false } else { x with up1 := false }

theorem Dev.rxf_congr {d D : Dev} (h : D.flw = d.flw) (f : Nat) : D.rxf f = d.rxf f := by rw [Dev.rxf, h, Dev.rxf]

/-- The state of a flow that loses path `n`, and whether the other one is up. -/
def RxFlow.other (x : RxFlow) (n : Fin 2) : Bool := if n = 0 then x.up1 else x.up0

/-- Path `n` of flow `f` goes DOWN, with FLOWLOSS when it was the last (R243). -/
def Dev.pathLost (d : Dev) (f : Nat) (n : Fin 2) : Dev :=
  let x := (d.rxf f).pathDown n
  let D := ((d.setRxf f x).flag Reg.FLW_STATUS_PATHEV).post 9 1 (f + n * 2 ^ 8)
  if !x.up0 && !x.up1 then ((D.setRxf f { x with loss := true }).flag Reg.FLW_STATUS_FLOWEV).post 9 3 f else D

theorem Dev.setRxf_acts {fs : List Fld} {es : List (Nat × Nat × Nat)} {d D : Dev} (h : Dev.Acts fs es d D) (f : Nat) (x : RxFlow) :
    Dev.Acts fs es (d.setRxf f x) (D.setRxf f x) := by
  refine ⟨?_, h.same⟩
  rw [h.only]
  rfl

theorem Dev.pathLost_acts (d : Dev) (f : Nat) (n : Fin 2) : ∃ F : Flw, Dev.Acts [Reg.FLW_STATUS_PATHEV, Reg.FLW_STATUS_FLOWEV]
    ([(9, 1, f + n.val * 2 ^ 8)] ++ if (d.rxf f).other n then [] else [(9, 3, f)]) { d with flw := F } (d.pathLost f n) ∧
    (d.pathLost f n).rd Reg.FLW_STATUS_PATHEV = 1 ∧
    ∀ g, (d.pathLost f n).rxf g = if g = f then { (d.rxf f).pathDown n with loss := (d.rxf f).loss || !(d.rxf f).other n } else d.rxf g := by
  unfold Dev.pathLost
  extract_lets x D
  have hD : Dev.Acts [Reg.FLW_STATUS_PATHEV, Reg.FLW_STATUS_FLOWEV] [(9, 1, f + n.val * 2 ^ 8)] (d.setRxf f x) D :=
    ((Dev.Acts.refl _ _).flag (by simp) rfl).post 9 1 _
  have hx : (!x.up0 && !x.up1) = !(d.rxf f).other n ∧ x.loss = (d.rxf f).loss := by
    simp only [x, RxFlow.pathDown, RxFlow.other]
    split <;> simp
  have hev : D.rd Reg.FLW_STATUS_PATHEV = 1 := Dev.rd_flag (d.setRxf f x) _ rfl
  have hg : ∀ g, D.rxf g = if g = f then x else d.rxf g := fun g => d.rxf_setRxf f x g
  rw [hx.1]
  clear_value D
  cases ho : (d.rxf f).other n with
  | true =>
    refine ⟨(d.setRxf f x).flw, by rwa [if_pos rfl, List.append_nil], hev, fun g => ?_⟩
    simp only [Bool.not_true, Bool.false_eq_true, if_false, Bool.or_false, ← hx.2]
    exact hg g
  | false =>
    have h2 := ((Dev.setRxf_acts hD f { x with loss := true }).flag (f := Reg.FLW_STATUS_FLOWEV) (by simp) rfl).post 9 3 f
    simp only [Bool.not_false, if_true, Bool.false_eq_true, if_false, Bool.or_true]
    refine ⟨_, h2, ?_, fun g => ?_⟩
    · exact (Dev.rd_flag_sep (D.setRxf f { x with loss := true }) _ _ (by decide)).trans hev
    · refine (D.rxf_setRxf f _ g).trans ?_
      split <;> simp_all

theorem execPathdown_eq (flow : BitVec 8) (n : Fin 2) (s : State) : exec (.pathdown flow n) s = onDev (fun d =>
    let x := d.rxf flow.toNat
    if x.live && (if n = 0 then x.up0 else x.up1) &&
      ((if n = 0 then x.valid0 else x.valid1).all fun t => decide (t + d.rd Reg.FLW_PATH_CFG_TIMEOUT < d.tick)) then d.pathLost flow.toNat n
    else d) s := rfl

theorem pathdown_takesDown (s : State) (flow : BitVec 8) (n : Fin 2) : let f := flow.toNat
    let x := s.dev.rxf f
    let other := if n = 0 then x.up1 else x.up0
    x.live = true → (if n = 0 then x.up0 else x.up1) = true →
    (∀ c, (if n = 0 then x.valid0 else x.valid1) = some c → c + s.dev.rd Reg.FLW_PATH_CFG_TIMEOUT < s.dev.tick) →
    ∃ t, Runs (.pathdown flow n) s t ∧ t.dev.rd Reg.FLW_STATUS_PATHEV = 1 ∧ (∀ g, g ≠ f → t.dev.rxf g = s.dev.rxf g) ∧
      t.dev.rxf f = (if n = 0 then { x with up0 := false, loss := x.loss || !other } else { x with up1 := false, loss := x.loss || !other }) ∧
      SameWords [Reg.FLW_STATUS_PATHEV.addr] s t ∧
      (Room s → EntersAll s t ([(9, 1, f + n.val * 2 ^ 8)] ++ if other then [] else [(9, 3, f)])) := by
  intro f x other hlive hup hquiet
  have hrun := runs_of_onDev (execPathdown_eq flow n s)
  have hq : ((if n = 0 then x.valid0 else x.valid1).all fun t => decide (t + s.dev.rd Reg.FLW_PATH_CFG_TIMEOUT < s.dev.tick)) = true := by
    simpa [Option.all_eq_true] using hquiet
  dsimp only at hrun
  rw [hlive, hup, hq] at hrun
  obtain ⟨F, hA, hev, hg⟩ := s.dev.pathLost_acts f n
  replace hrun : Runs (.pathdown flow n) s { s with dev := (s.dev.pathLost f n).settle } := hrun
  generalize s.dev.pathLost f n = D at hA hev hg hrun
  refine ⟨_, hrun, hev, fun g hne => (hg g).trans (if_neg hne), ?_, fun a ha => ?_, fun hr => ?_⟩
  · refine (hg f).trans ((if_pos rfl).trans ?_)
    simp only [RxFlow.pathDown, RxFlow.other, x, other]
    split <;> rfl
  · refine hA.word (a := a) ?_
    simp only [List.mem_singleton] at ha
    simp only [List.mem_cons, List.not_mem_nil, or_false, forall_eq_or_imp, forall_eq]
    exact ⟨fun h => ha h.symm, fun h => ha h.symm⟩
  · have he : ∀ e ∈ [(9, 1, f + n.val * 2 ^ 8)] ++ (if (s.dev.rxf f).other n then [] else [(9, 3, f)]), e.1 = 9 := by
      split <;> simp
    have hlen : ([(9, 1, f + n.val * 2 ^ 8)] ++ (if (s.dev.rxf f).other n then [] else [(9, 3, f)])).length ≤ 12 := by
      split <;> simp
    exact hA.enters rfl rfl 9 (by decide) he hlen hr rfl

/-! ### TDM ports (R267 to R270) -/

theorem Dev.port_setPort (d : Dev) (n m : Nat) (x : PortS) : (d.setPort n x).port m = if m = n then x else d.port m := by
  simp only [Dev.port, Dev.setPort, Sparse.get_put, eq_comm]

theorem Dev.port_congr {d D : Dev} (h : D.tdm = d.tdm) (m : Nat) : D.port m = d.port m := by rw [Dev.port, h, Dev.port]

theorem Dev.setPort_acts {fs : List Fld} {es : List (Nat × Nat × Nat)} {d D : Dev} (h : Dev.Acts fs es d D) (n : Nat) (x : PortS) :
    Dev.Acts fs es (d.setPort n x) (D.setPort n x) := by
  refine ⟨?_, h.same⟩
  rw [h.only]
  rfl

theorem Dev.setPort_rd (d : Dev) (n : Nat) (x : PortS) (g : Fld) : (d.setPort n x).rd g = d.rd g := rfl

/-- The registers that show the state of port `n`. -/
def tdmFields (n : Nat) : List Fld := [Reg.TDM_PSTAT_STATE n, Reg.TDM_ARMED_PORTS, Reg.TDM_RUN_PORTS]

theorem tdmFields_ok : ∀ n : Fin 16, ∀ f ∈ tdmFields n, f.ok = true := by decide

theorem Dev.portState_acts (d : Dev) (n : Fin 16) (st : Nat) : Dev.Acts (tdmFields n) [] d (d.portState n st) := by
  have ok := tdmFields_ok n
  unfold Dev.portState
  exact (((Dev.Acts.refl _ d).wr st (by simp [tdmFields]) (ok _ (by simp [tdmFields]))).wr _ (by simp [tdmFields]) rfl).wr _ (by simp [tdmFields]) rfl

theorem Dev.portState_shows (d : Dev) (n : Fin 16) {st : Nat} (hst : st < 4) : (d.portState n st).rd (Reg.TDM_PSTAT_STATE n) = st ∧
    (d.portState n st).rd Reg.TDM_ARMED_PORTS = setBit (d.rd Reg.TDM_ARMED_PORTS) n (st == 1) ∧
    (d.portState n st).rd Reg.TDM_RUN_PORTS = setBit (d.rd Reg.TDM_RUN_PORTS) n (st == 2) := by
  have ok : (Reg.TDM_PSTAT_STATE n).ok = true := tdmFields_ok n _ (by simp [tdmFields])
  obtain ⟨s1, s2, s3, s4⟩ := (show ∀ n : Fin 16, Reg.TDM_RUN_PORTS.sep (Reg.TDM_PSTAT_STATE n) = true ∧ Reg.TDM_ARMED_PORTS.sep (Reg.TDM_PSTAT_STATE n) = true ∧
    (Reg.TDM_PSTAT_STATE n).sep Reg.TDM_ARMED_PORTS = true ∧ (Reg.TDM_PSTAT_STATE n).sep Reg.TDM_RUN_PORTS = true by decide) n
  have hset : ∀ f b, d.rd f < 2 ^ 16 → setBit (d.rd f) n b < 2 ^ 16 := fun f b h => setBit_lt b h n.isLt
  unfold Dev.portState
  refine ⟨?_, ?_, ?_⟩
  · rw [Dev.rd_wr_sep _ _ _ _ s1, Dev.rd_wr_sep _ _ _ _ s2, Dev.rd_wr_lt _ _ _ ok hst]
  · rw [Dev.rd_wr_sep _ _ _ _ (by decide), Dev.rd_wr_lt _ _ _ rfl]
    · rw [Dev.rd_wr_sep _ _ _ _ s3]
    · rw [Dev.rd_wr_sep _ _ _ _ s3]
      exact hset _ _ (d.rd_lt Reg.TDM_ARMED_PORTS)
  · rw [Dev.rd_wr_lt _ _ _ rfl]
    · rw [Dev.rd_wr_sep _ _ _ _ s4]
    · rw [Dev.rd_wr_sep _ _ _ _ s4]
      exact hset _ _ (d.rd_lt Reg.TDM_RUN_PORTS)

def faultFields (n : Nat) : List Fld := tdmFields n ++ [Reg.TDM_FAULTCNT_COUNT n, Reg.TDM_STATUS_CNT_HALF, Reg.TDM_STATUS_FAULT]

/-- The port's own state as it enters FAULT from frame `j`. -/
def PortS.faulted (p : PortS) (j : Nat) : PortS := { p with bad := 0, good := 0, muteFrom := some (min j (p.muteFrom.getD j)) }

/-- A port enters FAULT: it is shown, counted and posted, and no other port changes. -/
theorem Dev.portFault_faults (d : Dev) (n : Fin 16) (cause j : Nat) :
    Dev.Acts (faultFields n) [(10, 2, n.val + cause * 2 ^ 8)] (d.setPort n ((d.port n).faulted j)) (d.portFault n cause j) ∧
    (d.portFault n cause j).rd (Reg.TDM_PSTAT_STATE n) = 3 ∧ (d.portFault n cause j).rd Reg.TDM_STATUS_FAULT = 1 ∧
    (d.portFault n cause j).rd (Reg.TDM_FAULTCNT_COUNT n) = (d.rd (Reg.TDM_FAULTCNT_COUNT n) + 1) % 2 ^ 32 ∧
    (d.portFault n cause j).rd Reg.TDM_RUN_PORTS = setBit (d.rd Reg.TDM_RUN_PORTS) n false ∧
    (d.portFault n cause j).rd Reg.TDM_ARMED_PORTS = setBit (d.rd Reg.TDM_ARMED_PORTS) n false := by
  have okc : (Reg.TDM_FAULTCNT_COUNT n).ok = true := rfl
  obtain ⟨c1, c2, c3, c4, c5⟩ := (show ∀ n : Fin 16, let fs := [Reg.TDM_FAULTCNT_COUNT n, Reg.TDM_STATUS_CNT_HALF, Reg.TDM_STATUS_FAULT]
    Fld.clear fs (Reg.TDM_PSTAT_STATE n) = true ∧ Fld.clear fs Reg.TDM_RUN_PORTS = true ∧ Fld.clear fs Reg.TDM_ARMED_PORTS = true ∧
    Fld.clear (tdmFields n) (Reg.TDM_FAULTCNT_COUNT n) = true ∧ Fld.sep Reg.TDM_STATUS_FAULT (Reg.TDM_FAULTCNT_COUNT n) = true by decide) n
  have ha : Reg.TDM_STATUS_CNT_HALF.apart (Reg.TDM_FAULTCNT_COUNT n) = true := (show ∀ n : Fin 16, Reg.TDM_STATUS_CNT_HALF.apart (Reg.TDM_FAULTCNT_COUNT n) = true by decide) n
  have h1 := (d.setPort n ((d.port n).faulted j)).portState_acts n 3
  obtain ⟨v1, v2, v3⟩ := (d.setPort n ((d.port n).faulted j)).portState_shows n (st := 3) (by decide)
  have hdef : d.portFault n cause j = ((((d.setPort n ((d.port n).faulted j)).portState n 3).count (Reg.TDM_FAULTCNT_COUNT n)
    Reg.TDM_STATUS_CNT_HALF).flag Reg.TDM_STATUS_FAULT).post 10 2 (n + cause * 2 ^ 8) := rfl
  rw [hdef]
  generalize (d.setPort n ((d.port n).faulted j)).portState n 3 = P at h1 v1 v2 v3
  have h2 := P.count_acts (Reg.TDM_FAULTCNT_COUNT n) Reg.TDM_STATUS_CNT_HALF 1 okc rfl
  have hc := P.rd_count (Reg.TDM_FAULTCNT_COUNT n) Reg.TDM_STATUS_CNT_HALF 1 okc rfl ha
  generalize P.count (Reg.TDM_FAULTCNT_COUNT n) Reg.TDM_STATUS_CNT_HALF = Q at h2 hc
  have h3 := Q.flag_acts Reg.TDM_STATUS_FAULT rfl
  have hf := Q.rd_flag Reg.TDM_STATUS_FAULT rfl
  have hfc := Q.rd_flag_sep Reg.TDM_STATUS_FAULT (Reg.TDM_FAULTCNT_COUNT n) c5
  generalize Q.flag Reg.TDM_STATUS_FAULT = R at h3 hf hfc
  have h23 : Dev.Acts [Reg.TDM_FAULTCNT_COUNT n, Reg.TDM_STATUS_CNT_HALF, Reg.TDM_STATUS_FAULT] [] P R :=
    (h2.mono (by simp)).then (h3.mono (by simp))
  refine ⟨((h1.mono (by simp +contextual [faultFields])).then (h23.mono (by simp +contextual [faultFields]))).post 10 2 _, ?_, hf, ?_, ?_, ?_⟩
  · exact (h23.rd c1).trans v1
  · exact hfc.trans (hc.trans (by rw [h1.rd c4]; rfl))
  · exact (h23.rd c2).trans v3
  · exact (h23.rd c3).trans v2

/-- A fold over steps that change nothing. -/
theorem foldl_still {α β : Type} {f : α → β → α} {a : α} (l : List β) (h : ∀ b ∈ l, f a b = a) : l.foldl f a = a := by
  induction l with
  | nil => rfl
  | cons b l ih => rw [List.foldl_cons, h b List.mem_cons_self, ih fun c hc => h c (List.mem_cons_of_mem b hc)]

/-- No port waits to move, so that the frames begin without a change. -/
theorem Dev.frameTurn_still {d : Dev} (h : ∀ m, m < 16 → (d.port m).moving = none) : d.frameTurn = d := by
  unfold Dev.frameTurn Dev.portMoves
  refine foldl_still _ fun n hn => ?_
  rw [h n (List.mem_range.mp hn)]
  rfl

/-- The port shows the offset of an edge and notes its instant (R267). -/
def Dev.edgeShown (d : Dev) (n : Fin 16) (off : BitVec 16) (ok : Bool) : Dev :=
  ((d.wr (Reg.TDM_PALIGN_OFFSET n) off.toNat).wr (Reg.TDM_PSTAT_ALIGNED n) (bit ok)).setPort n { d.port n with edgeAt := d.timeNs }

theorem bit_lt_two (b : Bool) : bit b < 2 := by cases b <;> decide

def alignFields (n : Nat) : List Fld := [Reg.TDM_PALIGN_OFFSET n, Reg.TDM_PSTAT_ALIGNED n]

theorem Dev.edgeShown_shows (d : Dev) (n : Fin 16) (off : BitVec 16) (ok : Bool) :
    Dev.Acts (alignFields n) [] (d.setPort n { d.port n with edgeAt := d.timeNs }) (d.edgeShown n off ok) ∧
    (d.edgeShown n off ok).rd (Reg.TDM_PALIGN_OFFSET n) = off.toNat ∧ (d.edgeShown n off ok).rd (Reg.TDM_PSTAT_ALIGNED n) = bit ok := by
  obtain ⟨o1, o2, s1⟩ := (show ∀ n : Fin 16, (Reg.TDM_PALIGN_OFFSET n).ok = true ∧ (Reg.TDM_PSTAT_ALIGNED n).ok = true ∧
    (Reg.TDM_PSTAT_ALIGNED n).sep (Reg.TDM_PALIGN_OFFSET n) = true by decide) n
  unfold Dev.edgeShown
  have h1 := d.wr_acts (Reg.TDM_PALIGN_OFFSET n) off.toNat o1
  have v1 := Dev.rd_wr_lt d (Reg.TDM_PALIGN_OFFSET n) off.toNat o1 off.isLt
  generalize d.wr (Reg.TDM_PALIGN_OFFSET n) off.toNat = P at h1 v1
  have h2 := P.wr_acts (Reg.TDM_PSTAT_ALIGNED n) (bit ok) o2
  have v2 := Dev.rd_wr_lt P (Reg.TDM_PSTAT_ALIGNED n) (bit ok) o2 (bit_lt_two ok)
  have v3 := P.rd_wr_sep (Reg.TDM_PSTAT_ALIGNED n) (Reg.TDM_PALIGN_OFFSET n) (bit ok) s1
  generalize P.wr (Reg.TDM_PSTAT_ALIGNED n) (bit ok) = Q at h2 v2 v3
  refine ⟨Dev.setPort_acts ((h1.mono (by simp [alignFields])).then (h2.mono (by simp [alignFields]))) n _, ?_, ?_⟩
  · rw [Dev.setPort_rd]
    exact v3.trans v1
  · rw [Dev.setPort_rd]
    exact v2

theorem Dev.wr_port (d : Dev) (f : Fld) (v m : Nat) : (d.wr f v).port m = d.port m := rfl
theorem Dev.wr_timeNs (d : Dev) (f : Fld) (v : Nat) : (d.wr f v).timeNs = d.timeNs := rfl

/-- What an FSYNC edge does at a port that follows it, its offset being shown: `st` is the state of the port, `p` its own state. -/
def Dev.edgeActs (d : Dev) (n : Fin 16) (off : BitVec 16) (st : Nat) (ok : Bool) (p : PortS) : Dev :=
  if ok then d.setPort n { p with bad := 0, good := if st = 3 then p.good + 1 else 0 }
  else if st = 2 ∧ p.bad ≥ 1 then d.portFault n 0 ((((d.ns : Int) - off.toInt).toNat * 2 * d.nSamples + 125000) / 250000)
  else d.setPort n { p with bad := if st = 2 then p.bad + 1 else 0, good := 0 }

def Dev.edgeStep (d : Dev) (n : Fin 16) (off : BitVec 16) : Dev :=
  let st := d.rd (Reg.TDM_PSTAT_STATE n)
  let ok := decide (off.toInt.natAbs ≤ 4 * d.rd Reg.TDM_CFG_ALIGN_WIN)
  let d := (d.wr (Reg.TDM_PALIGN_OFFSET n) off.toNat).wr (Reg.TDM_PSTAT_ALIGNED n) (bit ok)
  let p := { d.port n with edgeAt := d.timeNs }
  (d.setPort n p).edgeActs n off st ok p

theorem Dev.edgeStep_eq (d : Dev) (n : Fin 16) (off : BitVec 16) : let ok := decide (off.toInt.natAbs ≤ 4 * d.rd Reg.TDM_CFG_ALIGN_WIN)
    d.edgeStep n off = (d.edgeShown n off ok).edgeActs n off (d.rd (Reg.TDM_PSTAT_STATE n)) ok { d.port n with edgeAt := d.timeNs } := by
  simp only [Dev.edgeStep, Dev.edgeShown, Dev.wr_port, Dev.wr_timeNs]

theorem execFsyncEdge_eq (n : Fin 16) (off : BitVec 16) (ns : Nat) (s : State) : exec (.fsyncEdge n off ns) s = onDev (fun d =>
    if !((d.at ns).frameTurn.follows n) then (d.at ns).frameTurn else (d.at ns).frameTurn.edgeStep n off) s := rfl

theorem execFsyncTimeout_eq (n : Fin 16) (ns : Nat) (s : State) : exec (.fsyncTimeout n ns) s = onDev (fun d =>
    let d := (d.at ns).frameTurn
    if !d.follows n || decide (d.timeNs * d.nSamples < (d.port n).edgeAt * d.nSamples + 250000) then d
    else if d.rd (Reg.TDM_PSTAT_STATE n) = 2 then d.portFault n 1 d.frameNow
    else if d.rd (Reg.TDM_PSTAT_STATE n) = 3 then d.setPort n { (d.port n) with good := 0 }
    else d) s := rfl

/-- The device at the instant of the command, where no port waits to move. -/
theorem Dev.at_frameTurn {s : State} (h : NoMoves s) (ns : Nat) : (s.dev.at ns).frameTurn = s.dev.at ns :=
  Dev.frameTurn_still h

theorem Dev.at_follows {s : State} {n : Fin 16} (hr : s.dev.rd (Reg.TDM_PCFG_ROLE n) = 1) (hs : s.dev.portSrc n = false) (ns : Nat) :
    (s.dev.at ns).follows n = true := by
  have h1 : (s.dev.at ns).on (Reg.TDM_PCFG_ROLE n) = true := by
    change (s.dev.rd (Reg.TDM_PCFG_ROLE n) == 1) = true
    rw [hr]
    rfl
  have h2 : (s.dev.at ns).portSrc n = false := hs
  rw [Dev.follows, h1, h2]
  rfl

theorem fsyncEdge_runs {s : State} {n : Fin 16} (off : BitVec 16) (ns : Nat) (hr : s.dev.rd (Reg.TDM_PCFG_ROLE n) = 1) (hs : s.dev.portSrc n = false)
    (hm : NoMoves s) : Runs (.fsyncEdge n off ns) s { s with dev := ((s.dev.at ns).edgeStep n off).settle } := by
  have hrun := runs_of_onDev (execFsyncEdge_eq n off ns s)
  rwa [Dev.at_frameTurn hm, Dev.at_follows hr hs, if_neg (by decide)] at hrun

/-- An edge that leaves the port out of FAULT: misaligned edges are counted while it runs. -/
theorem Dev.edgeActs_stays (d : Dev) (n : Fin 16) (off : BitVec 16) (st : Nat) (ok : Prop) [Decidable ok] (p : PortS) (h : ok ∨ p.bad = 0 ∨ st ≠ 2) :
    ∃ q : PortS, d.edgeActs n off st (decide ok) p = d.setPort n q ∧ (ok → q.bad = 0) ∧ (¬ ok → q.bad = if st = 2 then 1 else 0) ∧ q.edgeAt = p.edgeAt := by
  unfold Dev.edgeActs
  by_cases ha : ok
  · exact ⟨_, if_pos (decide_eq_true ha), fun _ => rfl, fun h => absurd ha h, rfl⟩
  · have hb : ¬(st = 2 ∧ p.bad ≥ 1) := fun ⟨h2, h1⟩ => by
      obtain h | h | h := h
      · exact ha h
      · omega
      · exact h h2
    refine ⟨_, (if_neg fun h => ha (of_decide_eq_true h)).trans (if_neg hb), fun h => absurd h ha, fun _ => ?_, rfl⟩
    dsimp only
    split
    · omega
    · rfl

/-- An edge that leaves the port out of FAULT: the offset and the alignment are shown, and misaligned edges are counted while it runs. -/
theorem fsyncEdge_shown {s : State} {n : Fin 16} (off : BitVec 16) (ns : Nat) (hr : s.dev.rd (Reg.TDM_PCFG_ROLE n) = 1) (hs : s.dev.portSrc n = false)
    (hm : NoMoves s) : let aligned := off.toInt.natAbs ≤ 4 * s.dev.rd Reg.TDM_CFG_ALIGN_WIN
    let st := s.dev.rd (Reg.TDM_PSTAT_STATE n)
    let ws := [(Reg.TDM_PALIGN_OFFSET n).addr, (Reg.TDM_PSTAT_STATE n).addr]
    aligned ∨ (s.dev.port n).bad = 0 ∨ st ≠ 2 → ∃ t, Runs (.fsyncEdge n off ns) s t ∧
      t.dev.rd (Reg.TDM_PALIGN_OFFSET n) = off.toNat ∧
      (aligned → t.dev.rd (Reg.TDM_PSTAT_ALIGNED n) = 1) ∧ (¬ aligned → t.dev.rd (Reg.TDM_PSTAT_ALIGNED n) = 0) ∧
      t.dev.rd (Reg.TDM_PSTAT_STATE n) = st ∧ SameWords ws s t ∧ (aligned → (t.dev.port n).bad = 0) ∧
      (¬ aligned → (t.dev.port n).bad = if st = 2 then 1 else 0) ∧ (t.dev.port n).edgeAt = (s.dev.at ns).timeNs ∧
      ∀ m, m ≠ n.val → t.dev.port m = s.dev.port m := by
  intro aligned st ws hst
  have hrun := fsyncEdge_runs off ns hr hs hm
  rw [Dev.edgeStep_eq] at hrun
  dsimp only at hrun
  have hok : decide (off.toInt.natAbs ≤ 4 * (s.dev.at ns).rd Reg.TDM_CFG_ALIGN_WIN) = decide aligned := rfl
  rw [hok] at hrun
  obtain ⟨hA, hoff, hal⟩ := (s.dev.at ns).edgeShown_shows n off (decide aligned)
  have hc : Fld.clear (alignFields n) (Reg.TDM_PSTAT_STATE n) = true :=
    (show ∀ n : Fin 16, Fld.clear (alignFields n) (Reg.TDM_PSTAT_STATE n) = true by decide) n
  have hws : ∀ a, a ∉ ws → ∀ f ∈ alignFields n, f.addr ≠ a := fun a ha f hf h => ha (by
    simp only [alignFields, List.mem_cons, List.not_mem_nil, or_false] at hf
    obtain rfl | rfl := hf <;> simp [ws, ← h, Reg.TDM_PSTAT_ALIGNED, Reg.TDM_PSTAT_STATE])
  have hport : ∀ m, ((s.dev.at ns).edgeShown n off (decide aligned)).port m =
      ((s.dev.at ns).setPort n { (s.dev.at ns).port n with edgeAt := (s.dev.at ns).timeNs }).port m :=
    fun m => Dev.port_congr (by rw [hA.only]) m
  generalize (s.dev.at ns).edgeShown n off (decide aligned) = D at hA hoff hal hport hrun
  obtain ⟨p, hdone, hbad, hnbad, hedge⟩ := D.edgeActs_stays n off st aligned { s.dev.port n with edgeAt := (s.dev.at ns).timeNs } hst
  have hdone' : D.edgeActs n off ((s.dev.at ns).rd (Reg.TDM_PSTAT_STATE n)) (decide aligned)
    { (s.dev.at ns).port n with edgeAt := (s.dev.at ns).timeNs } = D.setPort n p := hdone
  rw [hdone'] at hrun
  have hset : ∀ g, (D.setPort n p).settle.rd g = D.rd g := fun g => (Dev.settle_rd _ g).trans (D.setPort_rd n p g)
  have hps : ∀ m, (D.setPort n p).settle.port m = if m = n.val then p else s.dev.port m := fun m => by
    rw [Dev.port_congr (Dev.settle_tdm (D.setPort n p)) m, Dev.port_setPort, hport, Dev.port_setPort]
    split
    · rfl
    · rfl
  have hpn := (hps n).trans (if_pos rfl)
  refine ⟨_, hrun, (hset _).trans hoff, fun ha => (hset _).trans (hal.trans ?_), fun ha => (hset _).trans (hal.trans ?_), (hset _).trans (hA.rd hc),
    fun a ha => hA.word (hws a ha), fun ha => ?_, fun ha => ?_, ?_, fun m hm => (hps m).trans (if_neg hm)⟩
  · exact congrArg bit (decide_eq_true ha)
  · exact congrArg bit (decide_eq_false ha)
  · rw [hpn]; exact hbad ha
  · rw [hpn]; exact hnbad ha
  · rw [hpn]; exact hedge

/-- Port `n` has entered FAULT for `cause`, as the statement of R267 says it. -/
def Faults (s t : State) (n : Fin 16) (cause : Nat) : Prop :=
  t.dev.rd (Reg.TDM_PSTAT_STATE n) = 3 ∧ t.dev.rd Reg.TDM_STATUS_FAULT = 1 ∧
  t.dev.rd (Reg.TDM_FAULTCNT_COUNT n) = (s.dev.rd (Reg.TDM_FAULTCNT_COUNT n) + 1) % 2 ^ 32 ∧
  t.dev.rd Reg.TDM_RUN_PORTS / 2 ^ n.val % 2 = 0 ∧ (∀ m, m ≠ n.val → t.dev.port m = s.dev.port m) ∧
  t.dev.mem = s.dev.mem ∧ (Room s → EntersAll s t [(10, 2, n + cause * 2 ^ 8)])

theorem portFault_faults {s : State} {B d : Dev} {n : Fin 16} (hA : Dev.Acts (alignFields n) [] B d) (hl : B.live = s.dev.live) (hq : B.evq = s.dev.evq)
    (hk : B.tick = s.dev.tick) (hm : B.mem = s.dev.mem) (hp : ∀ m, m ≠ n.val → B.port m = s.dev.port m) (cause j : Nat) {t : State}
    (ht : t.dev = (d.portFault n cause j).settle) : Faults s t n cause := by
  obtain ⟨hF, hst, hf, hcnt, hrun, -⟩ := d.portFault_faults n cause j
  have hc : Fld.clear (alignFields n) (Reg.TDM_FAULTCNT_COUNT n) = true :=
    (show ∀ n : Fin 16, Fld.clear (alignFields n) (Reg.TDM_FAULTCNT_COUNT n) = true by decide) n
  have hdt : d.tdm = B.tdm := by rw [hA.only]
  have hd : d.evq = s.dev.evq ∧ d.tick = s.dev.tick ∧ d.mem = s.dev.mem := by
    rw [hA.onlyLive]
    exact ⟨hq, hk, hm⟩
  have hpr : ∀ m, m ≠ n.val → (d.setPort n ((d.port n).faulted j)).port m = s.dev.port m := fun m h => by
    rw [Dev.port_setPort, if_neg h, Dev.port_congr hdt, hp m h]
  have hS : ∀ m, m ≠ n.val → (d.portFault n cause j).port m = (d.setPort n ((d.port n).faulted j)).port m := fun m _ =>
    Dev.port_congr (by rw [hF.only]) m
  have hmem : (d.portFault n cause j).mem = d.mem := by rw [hF.only]; rfl
  have hent := fun hr => hF.enters (s := s) hd.1 hd.2.1 10 (by decide) (by simp) (by simp) hr ht
  generalize d.portFault n cause j = D at *
  have hset : ∀ g, t.dev.rd g = D.rd g := fun g => by rw [ht, Dev.settle_rd]
  refine ⟨(hset _).trans hst, (hset _).trans hf, (hset _).trans ?_, ?_, fun m h => ?_, ?_, hent⟩
  · rw [hcnt, hA.rd hc, Dev.rd_congr B s.dev _ hl]
  · rw [hset, hrun, div_pow_mod_setBit, if_pos rfl]
    rfl
  · rw [ht, Dev.port_congr (Dev.settle_tdm D) m, hS m h, hpr m h]
  · rw [ht, Dev.settle_mem, hmem, hd.2.2]

theorem fsyncEdge_faults {s : State} {n : Fin 16} (off : BitVec 16) (ns : Nat) (hr : s.dev.rd (Reg.TDM_PCFG_ROLE n) = 1) (hs : s.dev.portSrc n = false)
    (hm : NoMoves s) (hst : s.dev.rd (Reg.TDM_PSTAT_STATE n) = 2) (ha : ¬ off.toInt.natAbs ≤ 4 * s.dev.rd Reg.TDM_CFG_ALIGN_WIN)
    (hb : 1 ≤ (s.dev.port n).bad) : ∃ t, Runs (.fsyncEdge n off ns) s t ∧ Faults s t n 0 := by
  have hrun := fsyncEdge_runs off ns hr hs hm
  rw [Dev.edgeStep_eq] at hrun
  dsimp only at hrun
  obtain ⟨hA, -, -⟩ := (s.dev.at ns).edgeShown_shows n off (decide (off.toInt.natAbs ≤ 4 * s.dev.rd Reg.TDM_CFG_ALIGN_WIN))
  have hok : decide (off.toInt.natAbs ≤ 4 * (s.dev.at ns).rd Reg.TDM_CFG_ALIGN_WIN) = decide (off.toInt.natAbs ≤ 4 * s.dev.rd Reg.TDM_CFG_ALIGN_WIN) := rfl
  rw [hok] at hrun
  generalize (s.dev.at ns).edgeShown n off (decide (off.toInt.natAbs ≤ 4 * s.dev.rd Reg.TDM_CFG_ALIGN_WIN)) = D at hA hrun
  unfold Dev.edgeActs at hrun
  rw [if_neg (by simpa using ha), if_pos ⟨hst, hb⟩] at hrun
  refine ⟨_, hrun, portFault_faults hA rfl rfl rfl rfl (fun m h => ?_) _ _ rfl⟩
  exact ((s.dev.at ns).port_setPort n m _).trans (if_neg h)

/-- Whether two sample periods have passed since the last edge of port `n` (R267). -/
def EdgeLate (s : State) (n : Fin 16) (ns : Nat) : Prop :=
  (s.dev.at ns).timeNs * s.dev.nSamples ≥ (s.dev.port n).edgeAt * s.dev.nSamples + 250000

theorem fsyncTimeout_faults {s : State} {n : Fin 16} (ns : Nat) (hr : s.dev.rd (Reg.TDM_PCFG_ROLE n) = 1) (hs : s.dev.portSrc n = false)
    (hm : NoMoves s) (hst : s.dev.rd (Reg.TDM_PSTAT_STATE n) = 2) (hl : EdgeLate s n ns) :
    ∃ t, Runs (.fsyncTimeout n ns) s t ∧ Faults s t n 1 := by
  have hrun := runs_of_onDev (execFsyncTimeout_eq n ns s)
  dsimp only at hrun
  have hlate : decide ((s.dev.at ns).timeNs * (s.dev.at ns).nSamples < ((s.dev.at ns).port n).edgeAt * (s.dev.at ns).nSamples + 250000) = false :=
    decide_eq_false (Nat.not_lt.mpr hl)
  rw [Dev.at_frameTurn hm, Dev.at_follows hr hs, hlate, if_neg (by decide), if_pos (show (s.dev.at ns).rd (Reg.TDM_PSTAT_STATE n) = 2 from hst)] at hrun
  exact ⟨_, hrun, portFault_faults (.refl _ (s.dev.at ns)) rfl rfl rfl rfl (fun _ _ => rfl) _ _ rfl⟩

theorem fsyncTimeout_early {s : State} {n : Fin 16} (ns : Nat) (hm : NoMoves s) (hl : ¬ EdgeLate s n ns) :
    ∃ t, Runs (.fsyncTimeout n ns) s t ∧ t.dev.live = s.dev.live ∧ t.dev.tdm = s.dev.tdm := by
  have hrun := runs_of_onDev (execFsyncTimeout_eq n ns s)
  dsimp only at hrun
  have hlate : decide ((s.dev.at ns).timeNs * (s.dev.at ns).nSamples < ((s.dev.at ns).port n).edgeAt * (s.dev.at ns).nSamples + 250000) = true :=
    decide_eq_true (Nat.not_le.mp hl)
  rw [Dev.at_frameTurn hm, hlate, Bool.or_true, if_pos rfl] at hrun
  exact ⟨_, hrun, rfl, rfl⟩

/-! ### The way back to the selected synthesizer (R269) -/

/-- When synthesizer `x` last locked. -/
def Dev.lockedAt (d : Dev) (x : Nat) : Nat := if x = 0 then d.syn.a.lockAt else d.syn.b.lockAt

theorem execXrevert_eq (n : Fin 16) (s : State) : exec (.xrevert n) s = onDev (fun d =>
    if d.rd (Reg.TDM_PSTAT_STATE n) == 2 && d.on (Reg.TDM_PSTAT_ONSYN n) && d.on (Reg.TDM_PCFG_REVERT n) && d.tdmLocked (d.rd (Reg.TDM_PCFG_SYN n))
        && d.ns == 0 && decide (d.lockedAt (d.rd (Reg.TDM_PCFG_SYN n)) + 1000000000 ≤ d.timeNs) then
      ((d.wr (Reg.TDM_PSTAT_ONSYN n) 0).flag Reg.TDM_STATUS_XF).post 10 5 n
    else d) s := rfl

theorem xrevert_reverts {s : State} {n : Fin 16} (h2 : s.dev.rd (Reg.TDM_PSTAT_STATE n) = 2) (ho : s.dev.rd (Reg.TDM_PSTAT_ONSYN n) = 1)
    (hr : s.dev.rd (Reg.TDM_PCFG_REVERT n) = 1) (hk : s.dev.tdmLocked (s.dev.rd (Reg.TDM_PCFG_SYN n)) = true) :
    (s.dev.ns = 0 → s.dev.lockedAt (s.dev.rd (Reg.TDM_PCFG_SYN n)) + 1000000000 ≤ s.dev.timeNs →
      ∃ t, Runs (.xrevert n) s t ∧ t.dev.rd (Reg.TDM_PSTAT_ONSYN n) = 0 ∧ t.dev.rd Reg.TDM_STATUS_XF = 1 ∧
        OnlyFields [Reg.TDM_PSTAT_ONSYN n, Reg.TDM_STATUS_XF] s t ∧ t.dev = Around s.dev t.dev ∧
        (Room s → EntersAll s t [(10, 5, n.val)])) ∧
    (s.dev.ns ≠ 0 ∨ s.dev.timeNs < s.dev.lockedAt (s.dev.rd (Reg.TDM_PCFG_SYN n)) + 1000000000 → ∃ t, Runs (.xrevert n) s t ∧ Keeps [] s t s.dev) := by
  obtain ⟨o1, s1⟩ := (show ∀ n : Fin 16, (Reg.TDM_PSTAT_ONSYN n).ok = true ∧ Reg.TDM_STATUS_XF.sep (Reg.TDM_PSTAT_ONSYN n) = true by decide) n
  have hrun := runs_of_onDev (execXrevert_eq n s)
  have hcond : (s.dev.rd (Reg.TDM_PSTAT_STATE n) == 2 && s.dev.on (Reg.TDM_PSTAT_ONSYN n) && s.dev.on (Reg.TDM_PCFG_REVERT n) &&
      s.dev.tdmLocked (s.dev.rd (Reg.TDM_PCFG_SYN n)) && s.dev.ns == 0 &&
      decide (s.dev.lockedAt (s.dev.rd (Reg.TDM_PCFG_SYN n)) + 1000000000 ≤ s.dev.timeNs)) = true ↔
      s.dev.ns = 0 ∧ s.dev.lockedAt (s.dev.rd (Reg.TDM_PCFG_SYN n)) + 1000000000 ≤ s.dev.timeNs := by
    simp [Dev.on, h2, ho, hr, hk]
  refine ⟨fun h0 hl => ?_, fun h => ?_⟩
  · rw [if_pos (hcond.mpr ⟨h0, hl⟩)] at hrun
    have h1 := s.dev.wr_acts (Reg.TDM_PSTAT_ONSYN n) 0 o1
    have v1 := Dev.rd_wr_lt s.dev (Reg.TDM_PSTAT_ONSYN n) 0 o1 (by positivity)
    generalize s.dev.wr (Reg.TDM_PSTAT_ONSYN n) 0 = P at h1 v1 hrun
    have h2 := P.flag_acts Reg.TDM_STATUS_XF rfl
    have v2 := P.rd_flag_sep Reg.TDM_STATUS_XF (Reg.TDM_PSTAT_ONSYN n) s1
    have v3 := P.rd_flag Reg.TDM_STATUS_XF rfl
    generalize P.flag Reg.TDM_STATUS_XF = Q at h2 v2 v3 hrun
    have hA := ((h1.mono (gs := [Reg.TDM_PSTAT_ONSYN n, Reg.TDM_STATUS_XF]) (by simp)).then (h2.mono (by simp))).post 10 5 n
    have hset : ∀ g, (Q.post 10 5 n).settle.rd g = Q.rd g := fun g => (Dev.settle_rd _ g).trans (Q.post_rd 10 5 n g)
    exact ⟨_, hrun, (hset _).trans (v2.trans v1), (hset _).trans v3, hA.same.settle, hA.around,
      fun hroom => hA.enters rfl rfl 10 (by decide) (by simp) (by simp) hroom rfl⟩
  · rw [if_neg (fun hc => by have := hcond.mp hc; omega)] at hrun
    exact ⟨_, hrun, fun _ _ => rfl, rfl⟩

/-! ### Converters (R273) -/

theorem execSrclock_eq (m : Fin 4) (locked : Bool) (rate : BitVec 24) (phase : BitVec 16) (s : State) : exec (.srclock m locked rate phase) s = onDev (fun d =>
    if !d.portSrc (12 + m.val) || d.on (Reg.TDM_SRCSTAT_LOCK m) == locked || (locked && !(decide (3196800 ≤ rate.toNat) && decide (rate.toNat ≤ 9609600))) then d else
    let d := ((d.wr (Reg.TDM_SRCSTAT_LOCK m) (bit locked)).wr (Reg.TDM_SRCSTAT_RATE m) rate.toNat).wr (Reg.TDM_SRCPHASE_PHASE m) phase.toNat
    let d := d.setPort (12 + m.val) { (d.port (12 + m.val)) with ramp := if locked then 2 else 0 }
    let d := if locked then d else d.count (Reg.TDM_SRCUNLOCK_COUNT m) Reg.TDM_STATUS_CNT_HALF
    (d.flag Reg.TDM_STATUS_SRCEV).post 10 6 (12 + m.val + bit locked * 2 ^ 8 + rate.toNat / 100 * 2 ^ 32)) s := rfl

/-- The registers of converter `m`. -/
def convFields (m : Nat) : List Fld :=
  [Reg.TDM_SRCSTAT_LOCK m, Reg.TDM_SRCSTAT_RATE m, Reg.TDM_SRCPHASE_PHASE m, Reg.TDM_SRCUNLOCK_COUNT m, Reg.TDM_STATUS_CNT_HALF, Reg.TDM_STATUS_SRCEV]

/-- The lock, the rate and the phase of converter `m` as it reports them. -/
def Dev.convShown (d : Dev) (m : Fin 4) (locked : Bool) (rate : BitVec 24) (phase : BitVec 16) : Dev :=
  ((d.wr (Reg.TDM_SRCSTAT_LOCK m) (bit locked)).wr (Reg.TDM_SRCSTAT_RATE m) rate.toNat).wr (Reg.TDM_SRCPHASE_PHASE m) phase.toNat

theorem Dev.convShown_shows (d : Dev) (m : Fin 4) (locked : Bool) (rate : BitVec 24) (phase : BitVec 16) :
    Dev.Acts [Reg.TDM_SRCSTAT_LOCK m, Reg.TDM_SRCSTAT_RATE m, Reg.TDM_SRCPHASE_PHASE m] [] d (d.convShown m locked rate phase) ∧
    (d.convShown m locked rate phase).rd (Reg.TDM_SRCSTAT_LOCK m) = bit locked ∧
    (d.convShown m locked rate phase).rd (Reg.TDM_SRCSTAT_RATE m) = rate.toNat ∧
    (d.convShown m locked rate phase).rd (Reg.TDM_SRCPHASE_PHASE m) = phase.toNat := by
  obtain ⟨o1, o2, o3, s1, s2, s3⟩ := (show ∀ m : Fin 4, (Reg.TDM_SRCSTAT_LOCK m).ok = true ∧ (Reg.TDM_SRCSTAT_RATE m).ok = true ∧
    (Reg.TDM_SRCPHASE_PHASE m).ok = true ∧ (Reg.TDM_SRCSTAT_RATE m).sep (Reg.TDM_SRCSTAT_LOCK m) = true ∧
    (Reg.TDM_SRCPHASE_PHASE m).sep (Reg.TDM_SRCSTAT_LOCK m) = true ∧ (Reg.TDM_SRCPHASE_PHASE m).sep (Reg.TDM_SRCSTAT_RATE m) = true by decide) m
  unfold Dev.convShown
  refine ⟨(((Dev.Acts.refl _ d).wr _ (by simp) o1).wr _ (by simp) o2).wr _ (by simp) o3, ?_, ?_, ?_⟩
  · rw [Dev.rd_wr_sep _ _ _ _ s2, Dev.rd_wr_sep _ _ _ _ s1, Dev.rd_wr_lt _ _ _ o1 (bit_lt_two locked)]
  · rw [Dev.rd_wr_sep _ _ _ _ s3, Dev.rd_wr_lt _ _ _ o2 rate.isLt]
  · rw [Dev.rd_wr_lt _ _ _ o3 phase.isLt]

/-- A loss of the lock of converter `m` is counted (R273). -/
def Dev.convLost (d : Dev) (m : Fin 4) (locked : Bool) : Dev :=
  if locked then d else d.count (Reg.TDM_SRCUNLOCK_COUNT m) Reg.TDM_STATUS_CNT_HALF

theorem Dev.convLost_counts (d : Dev) (m : Fin 4) (locked : Bool) :
    Dev.Acts [Reg.TDM_SRCUNLOCK_COUNT m, Reg.TDM_STATUS_CNT_HALF] [] d (d.convLost m locked) ∧
    (d.convLost m locked).rd (Reg.TDM_SRCUNLOCK_COUNT m) = (d.rd (Reg.TDM_SRCUNLOCK_COUNT m) + if locked then 0 else 1) % 2 ^ 32 := by
  unfold Dev.convLost
  cases locked with
  | true => exact ⟨.refl _ d, (Nat.mod_eq_of_lt (d.rd_lt (Reg.TDM_SRCUNLOCK_COUNT m))).symm⟩
  | false => exact ⟨d.count_acts _ _ 1 rfl rfl, d.rd_count _ _ 1 rfl rfl
      ((show ∀ m : Fin 4, Reg.TDM_STATUS_CNT_HALF.apart (Reg.TDM_SRCUNLOCK_COUNT m) = true by decide) m)⟩

theorem srclock_reports (s : State) (m : Fin 4) (locked : Bool) (rate : BitVec 24) (phase : BitVec 16) (hs : s.dev.portSrc (12 + m.val) = true)
    (hk : s.dev.rd (Reg.TDM_SRCSTAT_LOCK m) = (if locked then 0 else 1))
    (hrate : locked = true → 3196800 ≤ rate.toNat ∧ rate.toNat ≤ 9609600) :
    ∃ t, Runs (.srclock m locked rate phase) s t ∧ t.dev.rd (Reg.TDM_SRCSTAT_LOCK m) = (if locked then 1 else 0) ∧
      t.dev.rd (Reg.TDM_SRCSTAT_RATE m) = rate.toNat ∧ t.dev.rd (Reg.TDM_SRCPHASE_PHASE m) = phase.toNat ∧
      t.dev.rd Reg.TDM_STATUS_SRCEV = 1 ∧
      t.dev.rd (Reg.TDM_SRCUNLOCK_COUNT m) = (s.dev.rd (Reg.TDM_SRCUNLOCK_COUNT m) + (if locked then 0 else 1)) % 2 ^ 32 ∧
      (∀ p, p ≠ 12 + m.val → t.dev.port p = s.dev.port p) ∧ t.dev.mem = s.dev.mem ∧
      (Room s → EntersAll s t [(10, 6, 12 + m.val + (if locked then 2 ^ 8 else 0) + rate.toNat / 100 * 2 ^ 32)]) := by
  have hrun := runs_of_onDev (execSrclock_eq m locked rate phase s)
  have hcond : (!s.dev.portSrc (12 + m.val) || s.dev.on (Reg.TDM_SRCSTAT_LOCK m) == locked ||
      (locked && !(decide (3196800 ≤ rate.toNat) && decide (rate.toNat ≤ 9609600)))) = false := by
    rw [hs, Dev.on, hk]
    cases locked with
    | true => simp [hrate rfl]
    | false => rfl
  rw [hcond, if_neg (by decide)] at hrun
  obtain ⟨c1, c2, c3, c4, c5⟩ := (show ∀ m : Fin 4, let fs := [Reg.TDM_SRCUNLOCK_COUNT m, Reg.TDM_STATUS_CNT_HALF, Reg.TDM_STATUS_SRCEV]
    Fld.clear fs (Reg.TDM_SRCSTAT_LOCK m) = true ∧ Fld.clear fs (Reg.TDM_SRCSTAT_RATE m) = true ∧ Fld.clear fs (Reg.TDM_SRCPHASE_PHASE m) = true ∧
    Fld.clear [Reg.TDM_SRCSTAT_LOCK m, Reg.TDM_SRCSTAT_RATE m, Reg.TDM_SRCPHASE_PHASE m] (Reg.TDM_SRCUNLOCK_COUNT m) = true ∧
    Reg.TDM_STATUS_SRCEV.sep (Reg.TDM_SRCUNLOCK_COUNT m) = true by decide) m
  obtain ⟨h1, v1, v2, v3⟩ := s.dev.convShown_shows m locked rate phase
  change Runs _ s { s with dev := ((((((s.dev.convShown m locked rate phase).setPort (12 + m.val) { ((s.dev.convShown m locked rate phase).port (12 + m.val)) with
    ramp := if locked then 2 else 0 }).convLost m locked).flag Reg.TDM_STATUS_SRCEV).post 10 6 _)).settle } at hrun
  generalize s.dev.convShown m locked rate phase = P at h1 v1 v2 v3 hrun
  have hP : ∀ x, Dev.Acts [Reg.TDM_SRCSTAT_LOCK m, Reg.TDM_SRCSTAT_RATE m, Reg.TDM_SRCPHASE_PHASE m] [] (s.dev.setPort (12 + m.val) x)
    (P.setPort (12 + m.val) x) := fun x => Dev.setPort_acts h1 _ _
  generalize ({ (P.port (12 + m.val)) with ramp := if locked then 2 else 0 } : PortS) = x at hrun
  replace hP := hP x
  have hrd : ∀ g, (P.setPort (12 + m.val) x).rd g = P.rd g := fun g => P.setPort_rd _ x g
  generalize P.setPort (12 + m.val) x = Q at hP hrd hrun
  obtain ⟨h2, v4⟩ := Q.convLost_counts m locked
  generalize Q.convLost m locked = R at h2 v4 hrun
  have h3 := R.flag_acts Reg.TDM_STATUS_SRCEV rfl
  have v5 := R.rd_flag Reg.TDM_STATUS_SRCEV rfl
  have v6 := R.rd_flag_sep Reg.TDM_STATUS_SRCEV (Reg.TDM_SRCUNLOCK_COUNT m) c5
  generalize R.flag Reg.TDM_STATUS_SRCEV = T at h3 v5 v6 hrun
  have h23 : Dev.Acts [Reg.TDM_SRCUNLOCK_COUNT m, Reg.TDM_STATUS_CNT_HALF, Reg.TDM_STATUS_SRCEV] [] Q T := (h2.mono (by simp)).then (h3.mono (by simp))
  have hA := ((hP.mono (gs := convFields m) (by simp [convFields])).then (h23.mono (by simp [convFields]))).post 10 6
    (12 + m.val + bit locked * 2 ^ 8 + rate.toNat / 100 * 2 ^ 32)
  have hset : ∀ g, (T.post 10 6 (12 + m.val + bit locked * 2 ^ 8 + rate.toNat / 100 * 2 ^ 32)).settle.rd g = T.rd g := fun g =>
    (Dev.settle_rd _ g).trans (Dev.post_rd T _ _ _ g)
  have hbit : bit locked = if locked then 1 else 0 := rfl
  have hargs : (if locked then 2 ^ 8 else 0) = bit locked * 2 ^ 8 := by cases locked <;> rfl
  refine ⟨_, hrun, (hset _).trans ((h23.rd c1).trans ((hrd _).trans v1)), (hset _).trans ((h23.rd c2).trans ((hrd _).trans v2)),
    (hset _).trans ((h23.rd c3).trans ((hrd _).trans v3)), (hset _).trans v5, (hset _).trans (v6.trans (v4.trans ?_)), fun p hp => ?_, ?_, fun hr => ?_⟩
  · rw [hrd, h1.rd c4]
  · have ht : (T.post 10 6 (12 + m.val + bit locked * 2 ^ 8 + rate.toNat / 100 * 2 ^ 32)).settle.tdm = (s.dev.setPort (12 + m.val) x).tdm := by
      rw [Dev.settle_tdm, hA.only]
    exact (Dev.port_congr ht p).trans ((s.dev.port_setPort _ p x).trans (if_neg hp))
  · rw [Dev.settle_mem, hA.only]
    rfl
  · rw [hargs]
    exact hA.enters rfl rfl 10 (by decide) (by simp) (by simp) hr rfl

/-! ### Announcements (R256) -/

theorem Dev.mac_setMac (d : Dev) (n : Nat) (m : Mac) : (d.setMac n m).mac n = m := by
  unfold Dev.mac Dev.setMac
  split <;> rfl

theorem Dev.countBit_onlyLive (d : Dev) (c half : Fld) (b k : Nat) : Dev.OnlyLive d (d.countBit c half b k) := by
  unfold Dev.countBit Dev.OnlyLive
  dsimp only
  split <;> rfl

theorem Dev.macCount_onlyLive (d : Dev) (n i k : Nat) : Dev.OnlyLive d (d.macCount n i k) := by
  have h := d.countBit_onlyLive (Reg.MAC_CNT n i) (if i < 32 then Reg.MAC_CNTHALF0 n else Reg.MAC_CNTHALF1 n) (i % 32) k
  unfold Dev.macCount
  extract_lets half was d'
  split
  · exact h
  · exact h.trans (d'.wr_onlyLive _ 1)

theorem Dev.macCount_mac (d : Dev) (n i k m : Nat) : (d.macCount n i k).mac m = d.mac m := by
  rw [d.macCount_onlyLive n i k]
  rfl

theorem Mac.queue_setQueue (m : Mac) (q : Nat) (x : TxQueue) (r : Nat) : (m.setQueue q x).queue r = if r = q then x else m.queue r := by
  simp only [Mac.queue, Mac.setQueue, Sparse.get_put, eq_comm]

/-- A change of every entry that keeps the frames of a queue keeps the frames of every queue. -/
theorem get_map_frames (l : Sparse TxQueue) (g : Nat → TxQueue → TxQueue) (hg : ∀ k x, (g k x).q = x.q) (r : Nat) :
    (Sparse.get {} (l.map fun x => (x.1, g x.1 x.2)) r).q = (Sparse.get {} l r).q := by
  induction l with
  | nil => rfl
  | cons e l ih =>
    simp only [List.map_cons, Sparse.get]
    split
    · exact hg _ _
    · exact ih

theorem Dev.queueAfter_frames (d : Dev) (n q e : Nat) (x : TxQueue) : (d.queueAfter n q e x).q = x.q := by
  unfold Dev.queueAfter
  dsimp only
  split <;> rfl

/-- What port `n` holds after the time up to the present instant. -/
def Dev.macLater (d : Dev) (n : Nat) : Mac :=
  let m := d.mac n
  let e := 10 * d.timeNs - m.now
  let m' := [5, 6].foldl (fun m q => if d.shaped n q then m.setCredit q (d.creditAfter n q e) else m) m
  { m' with queues := m.queues.map fun x => (x.1, d.queueAfter n x.1 e x.2), now := m.now + e }

theorem Dev.macRun_mac (d : Dev) (n : Nat) : (d.macRun n).mac n = d.macLater n := by
  refine Eq.trans ?_ (d.mac_setMac n (d.macLater n))
  rfl

theorem Dev.macRun_frames (d : Dev) (n r : Nat) : (((d.macRun n).mac n).queue r).q = ((d.mac n).queue r).q := by
  rw [Dev.macRun_mac]
  exact get_map_frames _ (fun k x => d.queueAfter n k _ x) (fun k x => d.queueAfter_frames n k _ x) r

/-- A frame that the port takes is the last of its queue, and the other queues hold what they held (R291). -/
theorem Dev.enqueue_frames (d : Dev) (n q : Nat) (f : TxFrame) (r : Nat) : (((d.enqueue n q f).1.mac n).queue r).q =
    ((d.mac n).queue r).q ++ if r = q ∧ (d.enqueue n q f).2 = true then [f] else [] := by
  have hrun := d.macRun_frames n
  unfold Dev.enqueue
  extract_lets x depth D y
  split
  · simp [Dev.macCount_mac]
  · split
    · dsimp only
      rw [Dev.macCount_mac, Dev.setQueue, Dev.mac_setMac, Mac.queue_setQueue]
      split
      case isTrue h => simpa [h] using hrun q
      case isFalse h => simpa [h] using hrun r
    · simp

theorem Dev.supSend_frames (d : Dev) (n q : Nat) (f : TxFrame) (r : Nat) : let F : TxFrame := { f with bytes := insertSums f.bytes, sup := true }
    (((d.supSend n q f).mac n).queue r).q = ((d.mac n).queue r).q ++ if r = q ∧ (d.enqueue n q F).2 = true then [F] else [] := by
  intro F
  rw [← Dev.enqueue_frames]
  unfold Dev.supSend
  dsimp only
  split
  · rfl
  · rw [Dev.macCount_mac]

/-- Port `n` takes a frame in queue `q`: it is short enough, the port is up, and the queue has room (R291). -/
theorem Dev.enqueue_taken (d : Dev) (n q : Nat) (f : TxFrame) : (d.enqueue n q f).2 = (!decide (f.len > d.rd (Reg.MAC_CFG_MAXLEN n)) &&
    (d.portUp n && decide (queueLen ((d.mac n).queue q).q + f.len ≤ d.rd (Reg.MAC_QCFG_DEPTH n q) * 1024) &&
      d.rd (Reg.MAC_QCFG_DEPTH n q) * 1024 != 0)) := by
  unfold Dev.enqueue
  extract_lets x depth D y
  split
  case isTrue h => simp [h]
  case isFalse h =>
    rw [decide_eq_false h]
    split
    case isTrue h => exact h.symm
    case isFalse h => exact (Bool.eq_false_iff.mpr h).symm

theorem Dev.enqueue_flw (d : Dev) (F : Flw) (n q : Nat) (f : TxFrame) : (({ d with flw := F } : Dev).enqueue n q f).2 = (d.enqueue n q f).2 := by
  rw [Dev.enqueue_taken, Dev.enqueue_taken]
  rfl

/-- The device as the announcements begin. -/
def Dev.announcing (d : Dev) : Dev := { d with flw := { d.flw with sapAt := d.tick } }

theorem Dev.announceAll_none {d : Dev} (h : ∀ e ∈ d.liveTx, dAnnounce (d.txf e.1).desc = false) : d.announceAll = d.announcing := by
  unfold Dev.announceAll
  dsimp only
  refine foldl_still _ fun e he => ?_
  have hn : dAnnounce (d.announcing.txf e.1).desc = false := h e he
  have hs : d.announcing.sapSend e.1 false = d.announcing := by
    unfold Dev.sapSend
    dsimp only
    rw [hn, Bool.and_false, if_neg (by decide)]
  exact hs

theorem Dev.announceAll_one {d : Dev} {f p : Nat} {x : TxFlow} (hl : d.liveTx = [(f, x)]) (hx : d.txf f = x) (ha : dAnnounce x.desc = true)
    (hp : dPaths x.desc = [p]) :
    d.announceAll = d.announcing.supProto p (sapFrame x.desc (x.hdrs.getD p []) f p (d.announcing.macAddr p) (d.announcing.gmBytes p) false) := by
  have hlive : x.live = true := by
    have hm : (f, x) ∈ d.liveTx := by rw [hl]; exact List.mem_singleton_self _
    exact (List.mem_filter.mp hm).2
  have h1 : d.announcing.liveTx = [(f, x)] := hl
  have h2 : d.announcing.txf f = x := hx
  change d.announcing.liveTx.foldl (fun d e => d.sapSend e.1 false) d.announcing = _
  rw [h1, List.foldl_cons, List.foldl_nil]
  unfold Dev.sapSend
  dsimp only
  rw [h2, hlive, ha, hp, Bool.and_true, if_pos rfl, List.foldl_cons, List.foldl_nil]

theorem execSapAnnounce_eq (s : State) : exec .sapAnnounce s =
    onDev (fun d => if d.supRuns && decide (d.flw.sapAt + 240000 ≤ d.tick) then d.announceAll else d) s := rfl

theorem sapAnnounce_waits {s : State} (h : s.dev.supRuns = false ∨ s.dev.tick < s.dev.flw.sapAt + 240000) :
    ∃ t, Runs .sapAnnounce s t ∧ Keeps [] s t s.dev := by
  have hrun := runs_of_onDev (execSapAnnounce_eq s)
  rw [if_neg (by simpa [imp_iff_not_or] using h)] at hrun
  exact ⟨_, hrun, fun _ _ => rfl, rfl⟩

theorem sapAnnounce_announces {s : State} (hs : s.dev.supRuns = true) (ht : s.dev.flw.sapAt + 240000 ≤ s.dev.tick) :
    ((∀ e ∈ s.dev.liveTx, dAnnounce (s.dev.txf e.1).desc = false) → ∃ t, Runs .sapAnnounce s t ∧
      Keeps [] s t { s.dev with flw := { s.dev.flw with sapAt := s.dev.tick } }) ∧
    (∀ f x p, s.dev.liveTx = [(f, x)] → s.dev.txf f = x → dAnnounce x.desc = true → dPaths x.desc = [p] →
      let q := s.dev.rd (Reg.MAC_SUPQ_OTHERQ p)
      let fr : TxFrame := {
        bytes := insertSums (sapFrame x.desc (x.hdrs.getD p []) f p (s.dev.macAddr p) (s.dev.gmBytes p) false), sup := true }
      ∃ t, Runs .sapAnnounce s t ∧
        ((t.dev.mac p).queue q).q = ((s.dev.mac p).queue q).q ++ (if (s.dev.enqueue p q fr).2 then [fr] else []) ∧
        (∀ r, r ≠ q → ((t.dev.mac p).queue r).q = ((s.dev.mac p).queue r).q) ∧ t.dev.mac (1 - p) = s.dev.mac (1 - p) ∧
        t.dev.flw = { s.dev.flw with sapAt := s.dev.tick }) := by
  have hrun := runs_of_onDev (execSapAnnounce_eq s)
  rw [if_pos (by simp [hs, ht])] at hrun
  refine ⟨fun hn => ?_, fun f x p hl hx ha hp => ?_⟩
  · rw [Dev.announceAll_none hn] at hrun
    exact ⟨_, hrun, fun _ _ => rfl, rfl⟩
  · intro q fr
    have hp2 : p < 2 := dPaths_lt (ds := x.desc) (by rw [hp]; exact List.mem_singleton_self _)
    rw [Dev.announceAll_one hl hx ha hp] at hrun
    have hsup : s.dev.announcing.supRuns = true := hs
    let b := sapFrame x.desc (x.hdrs.getD p []) f p (s.dev.macAddr p) (s.dev.gmBytes p) false
    have hfr := fun r => s.dev.announcing.supSend_frames p q { bytes := b } r
    have hO := s.dev.announcing.supSend_onlyPort p (q := q) { bytes := b }
      (s.dev.rd_lt (Reg.MAC_SUPQ_OTHERQ p))
    unfold Dev.supProto at hrun
    rw [hsup, if_pos rfl] at hrun
    change Runs .sapAnnounce s { s with dev := (s.dev.announcing.supSend p q { bytes := b }).settle } at hrun
    generalize s.dev.announcing.supSend p q { bytes := b } = D at hfr hO hrun
    have hmac : ∀ m, D.settle.mac m = D.mac m := fun m => by rw [Dev.mac, Dev.settle_mac0, Dev.settle_mac1, Dev.mac]
    have henq : (s.dev.announcing.enqueue p q fr).2 = (s.dev.enqueue p q fr).2 := s.dev.enqueue_flw _ p q fr
    refine ⟨_, hrun, ?_, fun r hr => ?_, ?_, ?_⟩
    · refine (congrArg (fun m => (Mac.queue m q).q) (hmac p)).trans ((hfr q).trans ?_)
      rw [henq]
      simp only [true_and]
      rfl
    · refine (congrArg (fun m => (Mac.queue m r).q) (hmac p)).trans ((hfr r).trans ?_)
      simp only [hr, false_and, if_false, List.append_nil]
      rfl
    · exact (hmac _).trans (hO.other (1 - p) (by omega))
    · rw [Dev.settle_flw, hO.only]
      rfl

/-- Settles O47, event by event: each command's effect on its port or flow, with the frame of what it leaves. -/
theorem pathsAnnouncementsAndPortClocks : Obligations.PathsAnnouncementsAndPortClocks := by
  refine ⟨pathdown_takesDown, fun s => ⟨sapAnnounce_waits, sapAnnounce_announces⟩, fun s n off ns hr hs hm => ?_,
    fun s n h2 ho hr hk => xrevert_reverts h2 ho hr hk, fun s m locked rate phase hs hk hrate => srclock_reports s m locked rate phase hs hk hrate⟩
  exact ⟨fsyncEdge_shown off ns hr hs hm,
    fun hst => ⟨fun ha hb => fsyncEdge_faults off ns hr hs hm hst ha hb, fun hl => fsyncTimeout_faults ns hr hs hm hst hl⟩,
    fun hl => fsyncTimeout_early ns hm hl⟩

end Sys2Proof.Machine
end

section
/-! Received copies of a flow (R238 to R241, R245, R247). -/
namespace Sys2Proof.Machine
open Sys2Proof.Claims

/-! ### What an operation does to one receive flow -/

/-- A field of the flow engine's block. -/
abbrev Fld.ofFlw (c : Fld) : Prop := 0xC000 ≤ c.addr ∧ c.addr < 0xD000

/-- Of the flows only `f` changes, and becomes `X`; word `i` of its record counts `cs i`; besides, only the block's registers and the posted
events change. -/
structure Dev.RxDoes (f : Nat) (X : RxFlow) (cs : Nat → Nat) (d D : Dev) : Prop where
  only : D = { d with live := D.live, evq := D.evq, flw := { d.flw with stats := D.flw.stats, rx := D.flw.rx } }
  word : ∀ a, ¬(0xC000 ≤ a ∧ a < 0xD000) → D.word a = d.word a
  others : ∀ g, g ≠ f → D.rxf g = d.rxf g
  flow : D.rxf f = X
  record : ∀ i, i < 16 → (Sparse.get 0 D.flw.stats (16 * f + i)).toNat = ((Sparse.get 0 d.flw.stats (16 * f + i)).toNat + cs i) % 2 ^ 32

section
variable {f : Nat} {X X' : RxFlow} {cs cs' : Nat → Nat} {d d' D : Dev}

theorem Dev.RxDoes.refl (f : Nat) (d : Dev) : Dev.RxDoes f (d.rxf f) (fun _ => 0) d d :=
  ⟨rfl, fun _ _ => rfl, fun _ _ => rfl, rfl, fun _ _ => (Nat.mod_eq_of_lt (BitVec.isLt _)).symm⟩

theorem Dev.RxDoes.trans (h : Dev.RxDoes f X cs d d') (h' : Dev.RxDoes f X' cs' d' D) : Dev.RxDoes f X' (fun i => cs i + cs' i) d D := by
  refine ⟨?_, fun a ha => (h'.word a ha).trans (h.word a ha), fun g hg => (h'.others g hg).trans (h.others g hg), h'.flow, fun i hi => ?_⟩
  · rw [h'.only, h.only]
  · rw [h'.record i hi, h.record i hi, Nat.mod_add_mod, Nat.add_assoc]

/-- What leaves the flows leaves the flow and its record. -/
theorem Dev.RxDoes.aside (h : Dev.RxDoes f X cs d d') (ho : D = { d' with live := D.live, evq := D.evq })
    (hw : ∀ a, ¬(0xC000 ≤ a ∧ a < 0xD000) → D.word a = d'.word a) : Dev.RxDoes f X cs d D := by
  have hf : D.flw = d'.flw := by rw [ho]
  refine ⟨?_, fun a ha => (hw a ha).trans (h.word a ha), fun g hg => (Dev.rxf_congr hf g).trans (h.others g hg), (Dev.rxf_congr hf f).trans h.flow,
    fun i hi => ?_⟩
  · rw [ho, h.only]
  · rw [hf, h.record i hi]

theorem Dev.RxDoes.wr (h : Dev.RxDoes f X cs d D) {c : Fld} (v : Nat) (hc : c.ofFlw) : Dev.RxDoes f X cs d (D.wr c v) :=
  h.aside rfl fun a ha => D.word_wr_ne c v a fun he => ha (he ▸ hc)

theorem Dev.RxDoes.flag (h : Dev.RxDoes f X cs d D) {c : Fld} (hc : c.ofFlw) : Dev.RxDoes f X cs d (D.flag c) := h.wr 1 hc

theorem Dev.RxDoes.post (h : Dev.RxDoes f X cs d D) (a b c : Nat) : Dev.RxDoes f X cs d (D.post a b c) := h.aside rfl fun _ _ => rfl

theorem Dev.RxDoes.count (h : Dev.RxDoes f X cs d D) {c half : Fld} (k : Nat) (hc : c.ofFlw) (hh : half.ofFlw) :
    Dev.RxDoes f X cs d (D.count c half k) := by
  unfold Dev.count
  dsimp only
  split
  · exact h.wr _ hc
  · exact (h.wr _ hc).flag hh

theorem Dev.RxDoes.setRxf (h : Dev.RxDoes f X cs d D) (x : RxFlow) : Dev.RxDoes f x cs d (D.setRxf f x) := by
  refine ⟨?_, h.word, fun g hg => ?_, (D.rxf_setRxf f x f).trans (if_pos rfl), h.record⟩
  · rw [h.only]
    rfl
  · rw [D.rxf_setRxf f x g, if_neg hg]
    exact h.others g hg

theorem Dev.RxDoes.flowStat (h : Dev.RxDoes f X cs d D) (i k : Nat) :
    Dev.RxDoes f X (fun j => cs j + if j = i then k else 0) d (D.flowStat f i k) := by
  let v := (Sparse.get 0 D.flw.stats (16 * f + i)).toNat
  let E : Dev := { D with flw := { D.flw with stats := Sparse.put 0 D.flw.stats (16 * f + i) (BitVec.ofNat 32 ((v + k) % 2 ^ 32)) } }
  have hE : Dev.RxDoes f X (fun j => cs j + if j = i then k else 0) d E := by
    refine ⟨?_, h.word, h.others, h.flow, fun j hj => ?_⟩
    · simp only [E]
      rw [h.only]
    · have hg : Sparse.get 0 E.flw.stats (16 * f + j) = if 16 * f + i = 16 * f + j then BitVec.ofNat 32 ((v + k) % 2 ^ 32)
          else Sparse.get 0 D.flw.stats (16 * f + j) := Sparse.get_put ..
      rw [hg]
      split
      case isTrue he =>
        obtain rfl : i = j := by omega
        have hv := h.record i hj
        rw [if_pos rfl, BitVec.toNat_ofNat, Nat.mod_mod]
        change ((Sparse.get 0 D.flw.stats (16 * f + i)).toNat + k) % 2 ^ 32 = _
        rw [hv, Nat.mod_add_mod, Nat.add_assoc]
      case isFalse he =>
        rw [if_neg (fun h => he (by rw [h])), Nat.add_zero]
        exact h.record j hj
  unfold Dev.flowStat
  dsimp only
  split
  · exact hE
  · unfold Dev.fcntHalf
    split
    · exact hE
    · exact ((hE.wr _ (by decide)).wr _ (by decide)).flag (by decide)

theorem Dev.RxDoes.flowCount (h : Dev.RxDoes f X cs d D) (i : Nat) {c : Fld} (k : Nat) (hc : c.ofFlw) :
    Dev.RxDoes f X (fun j => cs j + if j = i then k else 0) d (D.flowCount f i c k) := (h.flowStat i k).count k hc (by decide)

end

/-! ### The deposit (R241) -/

/-- Rows written one by one at their keys, from index `i` on, where they are not skipped. -/
def putRows (skip : Nat → Bool) (key : Nat → Nat) (b : Sparse (List Word)) (rows : List (List Word)) (i : Nat) : Sparse (List Word) :=
  (rows.zipIdx i).foldl (fun b r => if skip r.2 then b else Sparse.put [] b (key r.2) r.1) b

theorem putRows_cons (skip : Nat → Bool) (key : Nat → Nat) (b : Sparse (List Word)) (r : List Word) (rows : List (List Word)) (i : Nat) :
    putRows skip key b (r :: rows) i = putRows skip key (if skip i then b else Sparse.put [] b (key i) r) rows (i + 1) := rfl

theorem putRows_other {skip : Nat → Bool} {key : Nat → Nat} {q : Nat} (rows : List (List Word)) (b : Sparse (List Word)) (i : Nat)
    (hq : ∀ j, i ≤ j → skip j = false → key j ≠ q) : Sparse.get [] (putRows skip key b rows i) q = Sparse.get [] b q := by
  induction rows generalizing b i with
  | nil => rfl
  | cons r rows ih =>
    rw [putRows_cons, ih _ _ fun j hj => hq j (Nat.le_of_succ_le hj)]
    cases hs : skip i with
    | true => rw [if_pos rfl]
    | false => rw [if_neg (by decide), Sparse.get_put_ne _ _ _ _ _ _ (hq i le_rfl hs)]

theorem putRows_get {skip : Nat → Bool} {key : Nat → Nat} (hinj : ∀ a c, skip a = false → skip c = false → key a = key c → a = c) {j : Nat}
    (hj : skip j = false) (rows : List (List Word)) (b : Sparse (List Word)) (i : Nat) (h1 : i ≤ j) (h2 : j < i + rows.length) :
    Sparse.get [] (putRows skip key b rows i) (key j) = rows.getD (j - i) [] := by
  induction rows generalizing b i with
  | nil => exact absurd h2 (by simpa using h1)
  | cons r rows ih =>
    rw [putRows_cons]
    obtain rfl | hlt := Nat.eq_or_lt_of_le h1
    · rw [hj, if_neg (by decide), putRows_other rows _ _ fun c hc hs he => by have := hinj c i hs hj he; omega, Sparse.get_put_eq,
        Nat.sub_self]
      rfl
    · rw [ih _ (i + 1) hlt (by simp only [List.length_cons] at h2; omega), show j - i = (j - (i + 1)) + 1 by omega, List.getD_cons_succ]

/-- A sample at media index `m` of a flow of offset `o` is late at tick `t` (R240, R241). -/
def lateAt (n : Nat) (t : Nat) (o : Nat) (m : Int) : Bool := decide ((m + o) / (n : Int) ≤ t)

/-- Samples that are not late have keys of their own. -/
theorem jbKey_inj {n t o : Nat} (hn : 0 < n) (ho : o < 2048) {a c : Int} (ha : lateAt n t o a = false) (hc : lateAt n t o c = false)
    (h : jbKey a = jbKey c) : a = c := by
  have hpos : ∀ m : Int, lateAt n t o m = false → -2048 < m := fun m hm => by
    have h1 : (t : Int) < (m + o) / (n : Int) := by simpa [lateAt] using hm
    have h2 : (1 : Int) ≤ (m + o) / (n : Int) := by omega
    have h3 := (Int.le_ediv_iff_mul_le (by omega : (0 : Int) < n)).mp h2
    omega
  have := hpos a ha
  have := hpos c hc
  simp only [jbKey] at h
  omega

theorem Dev.nSamples_pos (d : Dev) : 0 < d.nSamples := by
  unfold Dev.nSamples
  split <;> decide

theorem dOffset_lt (ds : List Nat) : dOffset ds < 2048 := Nat.mod_lt _ (by decide)

theorem packetRows_length (ds b : List Nat) : (packetRows ds b).length = dSamples ds := by
  rw [packetRows, List.length_map, List.length_range]

theorem Dev.deposit_does (d : Dev) (f : Nat) (k : Int) (rows : List (List Word)) : ∃ B m,
    Dev.RxDoes f { d.rxf f with buf := B } (fun i => if i = 6 then m else 0) d (d.deposit f k rows) ∧
    ∀ j, j < rows.length → (d.tick : Int) < (k + j + dOffset (d.rxf f).desc) / (d.nSamples : Int) →
      Sparse.get [] B (jbKey (k + j)) = rows.getD j [] := by
  let B := putRows (fun j => lateAt d.nSamples d.tick (dOffset (d.rxf f).desc) (k + j)) (fun j => jbKey (k + j)) (d.rxf f).buf rows 0
  have hB : ∀ j, j < rows.length → (d.tick : Int) < (k + j + dOffset (d.rxf f).desc) / (d.nSamples : Int) →
      Sparse.get [] B (jbKey (k + j)) = rows.getD j [] := fun j hj hl => by
    refine putRows_get (key := fun j : Nat => jbKey (k + j)) (fun a c ha hc h => ?_) (by simpa [lateAt] using hl) rows _ 0 (Nat.zero_le j) (by omega)
    have := jbKey_inj d.nSamples_pos (dOffset_lt (d.rxf f).desc) ha hc h
    omega
  have h0 : Dev.RxDoes f { d.rxf f with buf := B } (fun _ => 0) d (d.setRxf f { d.rxf f with buf := B }) := (Dev.RxDoes.refl f d).setRxf _
  have hdef : d.deposit f k rows = if lateAt d.nSamples d.tick (dOffset (d.rxf f).desc) k then
      ((d.setRxf f { d.rxf f with buf := B }).flowCount f 6 Reg.FLW_LATE_COUNT).flag Reg.FLW_STATUS_LATE
    else d.setRxf f { d.rxf f with buf := B } := by
    simp only [Dev.deposit, B, putRows, lateAt, decide_eq_true_eq]
  rw [hdef]
  split
  · refine ⟨B, 1, ?_, hB⟩
    have h1 := (h0.flowCount 6 (c := Reg.FLW_LATE_COUNT) 1 (by decide)).flag (c := Reg.FLW_STATUS_LATE) (by decide)
    simpa only [Nat.zero_add] using h1
  · refine ⟨B, 0, ?_, hB⟩
    simpa only [ite_self] using h0

/-! ### The merge (R239) -/

/-- `X` is `x` but for the margins and arrivals of its copies (R235). -/
def RxFlow.Noted (x X : RxFlow) : Prop := X = { x with marg0 := X.marg0, marg1 := X.marg1, arr := X.arr, skews := X.skews }

theorem Dev.noteCopy_does (d : Dev) (f path s : Nat) (margin : Int) : ∃ X, (d.rxf f).Noted X ∧
    Dev.RxDoes f X (fun _ => 0) d (d.noteCopy f path s margin) := by
  unfold Dev.noteCopy
  extract_lets x y other diff
  have hy : (d.rxf f).Noted y := by
    simp only [y, x]
    split <;> rfl
  refine ⟨_, ?_, (Dev.RxDoes.refl f d).setRxf _⟩
  unfold RxFlow.Noted at hy ⊢
  clear_value other y
  cases other with
  | none => rw [hy]
  | some a => rw [hy]

/-- A number is a 16-bit sequence number's distance from itself. -/
theorem above_high {x : RxFlow} {s : Nat} (hx : x.high < 65536) (hs : s < 65536) : ∃ q : Int, (s : Int) = x.high + x.above s + 65536 * q := by
  unfold RxFlow.above sint
  dsimp only
  split
  · exact ⟨if x.high ≤ s then 0 else -1, by split <;> omega⟩
  · exact ⟨if x.high ≤ s then 1 else 0, by split <;> omega⟩

/-- What an accepted copy leaves of its flow: all but the merge's own fields. -/
theorem RxFlow.take_keeps (x : RxFlow) (j : Judged) (s : Nat) (early : Bool) :
    let X := (x.take j s early).1
    X = { x with merged := X.merged, high := X.high, win := X.win, exp := X.exp } := by
  cases j <;> rfl

/-- HIGHSEQ after an accepted copy (R239). -/
theorem RxFlow.take_high {x : RxFlow} {s : Nat} (hx : x.high < 65536) (hs : s < 65536) (early : Bool) :
    (∀ dd, x.judge s = .ahead dd → ((x.take (x.judge s) s early).1).high = s) ∧
    (∀ i, x.judge s = .fill i → ((x.take (x.judge s) s early).1).high = x.high) ∧
    (x.judge s = .first ∨ x.judge s = .resync → ((x.take (x.judge s) s early).1).high = s ∧ ((x.take (x.judge s) s early).1).merged = true) := by
  refine ⟨fun dd h => ?_, fun i h => by rw [h]; rfl, fun h => ?_⟩
  · rw [h]
    have hdd : (dd : Int) = x.above s := by
      unfold RxFlow.judge at h
      dsimp only at h
      split at h
      · cases h
      · split at h
        case isTrue hr =>
          cases h
          omega
        · split at h
          · split at h <;> cases h
          · split at h <;> cases h
    obtain ⟨q, hq⟩ := above_high hx hs
    change (x.high + dd) % 65536 = s
    omega
  · obtain h | h := h
    · rw [h]
      exact ⟨rfl, rfl⟩
    · rw [h]
      exact ⟨rfl, rfl⟩

/-- The verdicts of R239 by the distance. -/
theorem RxFlow.judge_merged {x : RxFlow} (hm : x.merged = true) (s : Nat) : let dd := sint 16 (s + 65536 - x.high)
    (1 ≤ dd → dd ≤ 1023 → x.judge s = .ahead dd.toNat) ∧
    (-127 ≤ dd → dd ≤ 0 → x.win / 2 ^ (-dd).toNat % 2 = 0 → x.judge s = .fill (-dd).toNat) ∧
    (-127 ≤ dd → dd ≤ 0 → x.win / 2 ^ (-dd).toNat % 2 = 1 → x.judge s = .dup) ∧
    (-1023 ≤ dd → dd ≤ -128 → x.judge s = .stale) ∧
    (1024 ≤ dd ∨ dd ≤ -1024 → x.judge s = .resync) := by
  intro dd
  have hj : x.judge s = if 1 ≤ dd ∧ dd ≤ 1023 then .ahead dd.toNat
      else if -127 ≤ dd ∧ dd ≤ 0 then (if x.win / 2 ^ (-dd).toNat % 2 = 1 then .dup else .fill (-dd).toNat)
      else if -1023 ≤ dd ∧ dd ≤ -128 then .stale else .resync := by
    unfold RxFlow.judge
    rw [hm]
    rfl
  rw [hj]
  clear_value dd
  refine ⟨fun h1 h2 => if_pos ⟨h1, h2⟩, fun h1 h2 h3 => ?_, fun h1 h2 h3 => ?_, fun h1 h2 => ?_, fun h => ?_⟩
  · rw [if_neg (by omega), if_pos ⟨h1, h2⟩, if_neg (by omega)]
  · rw [if_neg (by omega), if_pos ⟨h1, h2⟩, if_pos h3]
  · rw [if_neg (by omega), if_neg (by omega), if_pos ⟨h1, h2⟩]
  · rw [if_neg (by omega), if_neg (by omega), if_neg (by omega)]

theorem RxFlow.judge_first {x : RxFlow} (hm : x.merged = false) (s : Nat) : x.judge s = .first := by
  unfold RxFlow.judge
  rw [hm]
  rfl

theorem RxFlow.judge_noted {x X : RxFlow} (h : x.Noted X) (s : Nat) : X.judge s = x.judge s := by
  have h1 : X.merged = x.merged := by rw [h]
  have h2 : X.high = x.high := by rw [h]
  have h3 : X.win = x.win := by rw [h]
  rw [RxFlow.judge, RxFlow.judge, RxFlow.above, RxFlow.above, h1, h2, h3]

/-- The tick in which sample `j` of a packet whose first sample has media index `k` is gathered (R240). -/
def Dev.sampleTick (d : Dev) (ds : List Nat) (k : Int) (j : Nat) : Int := (k + j + dOffset ds) / (d.nSamples : Int)

theorem Dev.sampleTick_congr {d D : Dev} (h : D.nSamples = d.nSamples) : D.sampleTick = d.sampleTick := by
  funext ds k j
  rw [Dev.sampleTick, h, Dev.sampleTick]

/-- The flow with jitter buffer `B`. -/
def RxFlow.withBuf (x : RxFlow) (B : Sparse (List Word)) : RxFlow := { x with buf := B }

/-- The counts and the deposit of an accepted copy of sequence number `s` judged `j` (R239, R241); `r`: the flow after the merge and the numbers
that it gives up. -/
def Dev.acceptCopy (d : Dev) (f path s : Nat) (j : Judged) (r : RxFlow × Nat) (early : Bool) (k : Int) (rows : List (List Word)) : Dev :=
  let d := (d.setRxf f r.1).flowCount f 2 Reg.FLW_ACCEPT_COUNT
  let d := if r.2 = 0 then d else d.flowCount f 9 Reg.FLW_SEQGAP_COUNT r.2
  let d := if path = 1 then d.flowStat f 13 else d
  let d := if j = .resync then (d.flowCount f 12 Reg.FLW_RESYNC_COUNT).post 9 5 (f + s * 2 ^ 16) else d
  if early then d.flowCount f 7 Reg.FLW_EARLY_COUNT else d.deposit f k rows

theorem Dev.nSamples_congr {d D : Dev} (h : D.word Reg.SYN_STATUS_RATE96_NOW.addr = d.word Reg.SYN_STATUS_RATE96_NOW.addr) :
    D.nSamples = d.nSamples := by
  have hr : D.rd Reg.SYN_STATUS_RATE96_NOW = d.rd Reg.SYN_STATUS_RATE96_NOW := Dev.rd_of_word h
  rw [Dev.nSamples, Dev.fam96, Dev.on, hr, Dev.nSamples, Dev.fam96, Dev.on]

theorem Dev.RxDoes.nSamples {f : Nat} {X : RxFlow} {cs : Nat → Nat} {d D : Dev} (h : Dev.RxDoes f X cs d D) : D.nSamples = d.nSamples :=
  Dev.nSamples_congr (h.word _ (by decide))

theorem Dev.RxDoes.tick {f : Nat} {X : RxFlow} {cs : Nat → Nat} {d D : Dev} (h : Dev.RxDoes f X cs d D) : D.tick = d.tick := by rw [h.only]

theorem Dev.RxDoes.timeNs {f : Nat} {X : RxFlow} {cs : Nat → Nat} {d D : Dev} (h : Dev.RxDoes f X cs d D) : D.timeNs = d.timeNs := by
  rw [h.only]
  rfl

/-- A step that may also count some numbers in the record at one index. -/
theorem Dev.RxDoes.maybe {f : Nat} {X : RxFlow} {cs : Nat → Nat} {d D E : Dev} (h : Dev.RxDoes f X cs d D) (p : Prop) [Decidable p] (i k : Nat)
    (hE : Dev.RxDoes f X (fun j => cs j + if j = i then k else 0) d E) :
    Dev.RxDoes f X (fun j => cs j + if j = i then (if p then k else 0) else 0) d (if p then E else D) := by
  by_cases hp : p
  · simp only [if_pos hp]
    exact hE
  · simp only [if_neg hp, ite_self, Nat.add_zero]
    exact h

theorem Dev.RxDoes.unless {f : Nat} {X : RxFlow} {cs : Nat → Nat} {d D E : Dev} (h : Dev.RxDoes f X cs d D) (p : Prop) [Decidable p] (i k : Nat)
    (hE : Dev.RxDoes f X (fun j => cs j + if j = i then k else 0) d E) :
    Dev.RxDoes f X (fun j => cs j + if j = i then (if p then 0 else k) else 0) d (if p then D else E) := by
  by_cases hp : p
  · simp only [if_pos hp, ite_self, Nat.add_zero]
    exact h
  · simp only [if_neg hp]
    exact hE

theorem Dev.acceptCopy_does (d : Dev) (f path s : Nat) (j : Judged) (r : RxFlow × Nat) (early : Bool) (k : Int) (rows : List (List Word)) : ∃ B cs,
    Dev.RxDoes f (r.1.withBuf B) cs d (d.acceptCopy f path s j r early k rows) ∧ cs 0 = 0 ∧ cs 1 = 0 ∧ cs 2 = 1 ∧ (j = .resync → cs 12 = 1) ∧
    (early = true → cs 7 = 1 ∧ B = r.1.buf) ∧
    (early = false → ∀ i, i < rows.length → (d.tick : Int) < d.sampleTick r.1.desc k i → Sparse.get [] B (jbKey (k + i)) = rows.getD i []) := by
  have h1 := (((Dev.RxDoes.refl f d).setRxf r.1).flowCount 2 (c := Reg.FLW_ACCEPT_COUNT) 1 (by decide))
  have h2 := h1.unless (r.2 = 0) 9 r.2 (h1.flowCount 9 (c := Reg.FLW_SEQGAP_COUNT) r.2 (by decide))
  have h3 := h2.maybe (path = 1) 13 1 (h2.flowStat 13 1)
  have h4 := h3.maybe (j = .resync) 12 1 ((h3.flowCount 12 (c := Reg.FLW_RESYNC_COUNT) 1 (by decide)).post 9 5 (f + s * 2 ^ 16))
  unfold Dev.acceptCopy
  extract_lets d1 d2 d3 d4
  change Dev.RxDoes f r.1 _ d d4 at h4
  clear_value d4
  cases early with
  | true =>
    refine ⟨r.1.buf, _, h4.flowCount 7 (c := Reg.FLW_EARLY_COUNT) 1 (by decide), by simp, by simp, by simp, fun h => by simp [h],
      fun _ => ⟨by simp, rfl⟩, fun h => absurd h (by decide)⟩
  | false =>
    obtain ⟨B, m, hD, hB⟩ := d4.deposit_does f k rows
    rw [h4.flow, h4.tick, h4.nSamples] at hB
    rw [h4.flow] at hD
    exact ⟨B, _, h4.trans hD, by simp, by simp, by simp, fun h => by simp [h], fun h => absurd h (by decide), fun _ => hB⟩

/-- A valid copy of a RUNNING flow that is a duplicate or stale is counted, and the merge does not change (R239). -/
theorem Dev.mergeCopy_ignores (d : Dev) (f path : Nat) (b : List Nat) : let s := be16 b ((rtpOf b).1 + 2)
    ∃ X, (d.rxf f).Noted X ∧
      ((d.rxf f).judge s = .dup → Dev.RxDoes f X (fun i => if i = 3 then 1 else 0) d (d.mergeCopy f path b)) ∧
      ((d.rxf f).judge s = .stale → Dev.RxDoes f X (fun i => if i = 8 then 1 else 0) d (d.mergeCopy f path b)) := by
  intro s
  unfold Dev.mergeCopy
  extract_lets x o s' k tickOf d1 x1
  obtain ⟨X, hX, h1⟩ := d.noteCopy_does f path s (tickOf 0 * 125000 - d.timeNs)
  have hx1 : x1 = X := h1.flow
  have hj : x1.judge s' = (d.rxf f).judge s := by rw [hx1]; exact RxFlow.judge_noted hX s
  refine ⟨X, hX, fun h => ?_, fun h => ?_⟩
  · rw [hj, h]
    simpa only [Nat.zero_add] using h1.flowCount 3 (c := Reg.FLW_DUP_COUNT) 1 (by decide)
  · rw [hj, h]
    simpa only [Nat.zero_add] using h1.flowCount 8 (c := Reg.FLW_STALE_COUNT) 1 (by decide)

/-- A valid copy of a RUNNING flow that is accepted (R239 to R241). -/
theorem Dev.mergeCopy_accepts (d : Dev) (f path : Nat) (b : List Nat) : let s := be16 b ((rtpOf b).1 + 2)
    let x := d.rxf f
    let k := d.mediaIndex x.desc (be32 b ((rtpOf b).1 + 4))
    let early := decide (d.sampleTick x.desc k (dSamples x.desc - 1) > d.tick + 240)
    x.judge s ≠ .dup → x.judge s ≠ .stale → ∃ X B cs, x.Noted X ∧
      Dev.RxDoes f ((X.take (X.judge s) s early).1.withBuf B) cs d (d.mergeCopy f path b) ∧ cs 0 = 0 ∧ cs 1 = 0 ∧ cs 2 = 1 ∧
      (x.judge s = .resync → cs 12 = 1) ∧ (early = true → cs 7 = 1 ∧ B = x.buf) ∧
      (early = false → ∀ i, i < dSamples x.desc → (d.tick : Int) < d.sampleTick x.desc k i →
        Sparse.get [] B (jbKey (k + i)) = (packetRows x.desc b).getD i []) := by
  intro s x k early hdup hstale
  obtain ⟨X, hX, h1⟩ := d.noteCopy_does f path s (d.sampleTick x.desc k 0 * 125000 - d.timeNs)
  have hjX : X.judge s = x.judge s := RxFlow.judge_noted hX s
  have hdef : d.mergeCopy f path b = (d.noteCopy f path s (d.sampleTick x.desc k 0 * 125000 - d.timeNs)).acceptCopy f path s (X.judge s)
      (X.take (X.judge s) s early) early k (packetRows x.desc b) := by
    rw [← hjX] at hdup hstale
    rw [← h1.flow] at hdup hstale ⊢
    unfold Dev.mergeCopy
    extract_lets o s' k' tickOf d1 x1 early'
    change x1.judge s' ≠ _ at hdup
    change x1.judge s' ≠ _ at hstale
    have hd : x1.desc = x.desc := (congrArg RxFlow.desc h1.flow).trans (by rw [hX])
    have he : early' = early := by
      simp only [early', hd]
      rfl
    split
    case h_1 h => exact absurd h hdup
    case h_2 h => exact absurd h hstale
    case h_3 =>
      rw [he, hd]
      rfl
  rw [hdef]
  have hdesc : X.desc = x.desc ∧ X.buf = x.buf := by rw [hX]; exact ⟨rfl, rfl⟩
  obtain ⟨hkd, hkb⟩ : (X.take (X.judge s) s early).1.desc = X.desc ∧ (X.take (X.judge s) s early).1.buf = X.buf := by
    have := X.take_keeps (X.judge s) s early
    dsimp only at this
    rw [this]
    exact ⟨rfl, rfl⟩
  obtain ⟨B, cs, hD, c0, c1, c2, c12, hearly, hlate⟩ := Dev.acceptCopy_does (d.noteCopy f path s (d.sampleTick x.desc k 0 * 125000 - d.timeNs)) f path s
    (X.judge s) (X.take (X.judge s) s early) early k (packetRows x.desc b)
  rw [h1.tick, Dev.sampleTick_congr h1.nSamples, packetRows_length, hkd, hdesc.1] at hlate
  rw [hkb, hdesc.2] at hearly
  refine ⟨X, B, _, hX, h1.trans hD, ?_, ?_, ?_, fun h => ?_, fun h => ?_, hlate⟩
  · simpa using c0
  · simpa using c1
  · simpa using c2
  · simpa using c12 (hjX.trans h)
  · exact ⟨by simpa using (hearly h).1, (hearly h).2⟩

/-! ### A copy reaches its flow (R238, R243, R245) -/

/-- `P` is `x` but for the state of its paths. -/
def RxFlow.Upped (x P : RxFlow) : Prop := P = { x with up0 := P.up0, up1 := P.up1, valid0 := P.valid0, valid1 := P.valid1, loss := P.loss }

theorem Dev.pathUp_does (d : Dev) (f path : Nat) : ∃ P, (d.rxf f).Upped P ∧ (if path = 0 then P.up0 else P.up1) = true ∧
    Dev.RxDoes f P (fun _ => 0) d (d.pathUp f path) := by
  unfold Dev.pathUp
  extract_lets x up y d1 d2
  have hy : (d.rxf f).Upped { y with loss := false } ∧ (if path = 0 then y.up0 else y.up1) = true := by
    simp only [y, x]
    split
    · exact ⟨rfl, rfl⟩
    · exact ⟨rfl, rfl⟩
  have h1 : Dev.RxDoes f { y with loss := false } (fun _ => 0) d d1 := (Dev.RxDoes.refl f d).setRxf _
  have h2 : Dev.RxDoes f { y with loss := false } (fun _ => 0) d d2 := by
    simp only [d2]
    split
    · exact h1
    · exact (h1.flag (by decide)).post ..
  refine ⟨_, hy.1, hy.2, ?_⟩
  split
  · exact (h2.flag (by decide)).post ..
  · exact h2

theorem Dev.mediaIndex_congr {d D : Dev} (ht : D.timeNs = d.timeNs) (hn : D.nSamples = d.nSamples) : D.mediaIndex = d.mediaIndex := by
  funext ds ts
  rw [Dev.mediaIndex, ht, hn, Dev.mediaIndex]

theorem Dev.rxCopy_invalid (d : Dev) {f path : Nat} {b : List Nat} (h : copyValid (d.rxf f).desc b false = false) :
    Dev.RxDoes f (d.rxf f) (fun i => (if i = path then 1 else 0) + if i = 4 + path then 1 else 0) d (d.rxCopy f path b false) := by
  have h1 := ((Dev.RxDoes.refl f d).flowCount path (c := Reg.FLW_RXPKT_COUNT) 1 (by decide)).flowCount (4 + path) (c := Reg.FLW_INVALID_COUNT) 1 (by decide)
  unfold Dev.rxCopy
  dsimp only
  rw [h, if_neg (by decide)]
  simpa only [Nat.zero_add] using h1

/-- A valid copy counts and keeps its path UP, and the merge follows while the flow is RUNNING. -/
theorem Dev.rxCopy_valid (d : Dev) {f path : Nat} {b : List Nat} (h : copyValid (d.rxf f).desc b false = true) : ∃ P d2, (d.rxf f).Upped P ∧
    (if path = 0 then P.up0 else P.up1) = true ∧ Dev.RxDoes f P (fun i => if i = path then 1 else 0) d d2 ∧
    d.rxCopy f path b false = if (d.rxf f).st = 2 then d2.mergeCopy f path b else d2 := by
  have h1 := (Dev.RxDoes.refl f d).flowCount path (c := Reg.FLW_RXPKT_COUNT) 1 (by decide)
  obtain ⟨P, hP, hup, h2⟩ := (d.flowCount f path Reg.FLW_RXPKT_COUNT).pathUp_does f path
  rw [h1.flow] at hP
  refine ⟨P, (d.flowCount f path Reg.FLW_RXPKT_COUNT).pathUp f path, hP, hup, ?_, ?_⟩
  · simpa only [Nat.zero_add, Nat.add_zero] using h1.trans h2
  · unfold Dev.rxCopy
    dsimp only
    rw [h, if_pos rfl]

/-- Of the record one word has counted one more. -/
theorem Dev.RxDoes.counts {f i : Nat} {X : RxFlow} {cs : Nat → Nat} {s t : State} {d D : Dev} (h : Dev.RxDoes f X cs d D) (hd : d.flw = s.dev.flw)
    (ht : t.dev.flw = D.flw) (hi : i < 16) (hc : cs i = 1) : RecordCounts s t f i := by
  have := h.record i hi
  rw [hc, hd] at this
  rw [RecordCounts, ht]
  exact this

/-! ### A frame reaches the flow engine (R284, R287) -/

theorem Dev.flowOf_congr {d D : Dev} (h : D.flw = d.flw) (p : Nat) (b : List Nat) : D.flowOf p b = d.flowOf p b := by
  unfold Dev.flowOf Dev.liveRx
  rw [h]

theorem Dev.toFlows_congr {d D : Dev} (h : D.flw = d.flw) (p : Nat) (b : List Nat) : D.toFlows p b = d.toFlows p b := by
  unfold Dev.toFlows Dev.flowFilter Dev.rxf
  rw [h]
  simp only [Dev.flowOf_congr h]

/-- The device as a frame of port `n` arrives: the instant, and what the supervisor has taken. -/
def Dev.taking (d : Dev) (n ns taken : Nat) : Dev :=
  let d := d.at ns
  if d.supRuns then d.setMac n { d.mac n with rxFill := (d.mac n).rxFill - taken } else d

theorem Dev.taking_onlyPort (d : Dev) (n ns taken : Nat) : Dev.OnlyPort n (d.at ns) (d.taking n ns taken) := by
  unfold Dev.taking
  dsimp only
  split
  · exact .setMac n _ _
  · exact .refl n _

theorem Dev.setMac_live (d : Dev) (n : Nat) (m : Mac) : (d.setMac n m).live = d.live := by
  unfold Dev.setMac
  split <;> rfl

theorem Dev.taking_live (d : Dev) (n ns taken : Nat) : (d.taking n ns taken).live = d.live := by
  unfold Dev.taking
  dsimp only
  split
  · exact Dev.setMac_live ..
  · rfl

/-- The counts of a frame that the MAC accepts (R308). -/
def Dev.frameCounts (d : Dev) (n : Nat) (b : List Nat) : Dev :=
  (((d.macCount n 0).macCount n 1 b.length).macCount n (2 + castOf b)).macCount n (7 + sizeBin b.length)

theorem castOf_lt (b : List Nat) : castOf b < 3 := by
  unfold castOf
  split
  · decide
  · split <;> decide

theorem sizeBin_lt (k : Nat) : sizeBin k < 7 := by
  unfold sizeBin
  repeat' split
  all_goals decide

theorem Dev.frameCounts_onlyPort (d : Dev) (n : Nat) (b : List Nat) : Dev.OnlyPort n d (d.frameCounts n b) := by
  have := castOf_lt b
  have := sizeBin_lt b.length
  exact (((d.macCount_onlyPort 1 (by omega)).trans (Dev.macCount_onlyPort _ _ (by omega))).trans (Dev.macCount_onlyPort _ 1 (by omega))).trans
    (Dev.macCount_onlyPort _ 1 (by omega))

theorem execRxFrame_eq (n : Fin 2) (fr : RxFrame) (age ns taken : Nat) (s : State) : exec (.rxFrame n fr age ns taken) s =
    onDev (fun d => (d.taking n ns taken).rxFrame n fr age) s := rfl

theorem Dev.judgeFrame_flows {d : Dev} {n : Nat} {b : List Nat} {f : Nat} (h64 : 64 ≤ b.length) (hlong : b.length ≤ 16384)
    (hmax : b.length ≤ d.rd (Reg.MAC_CFG_MAXLEN n)) (hetype : be16 b 12 ≠ 0x8808) (hto : d.toFlows n b = true) (hof : d.flowOf n b = some f) :
    d.judgeFrame n b true false = ((d.frameCounts n b).rxCopy f n b false, true) := by
  have hflw : (d.frameCounts n b).flw = d.flw := by rw [(d.frameCounts_onlyPort n b).only]
  have hb : b.take 16384 = b := List.take_of_length_le hlong
  unfold Dev.judgeFrame
  dsimp only
  rw [hb, if_neg (by decide), if_neg (by omega), if_neg (by simp)]
  have hover : (decide (b.length > 16384) || decide (b.length > d.rd (Reg.MAC_CFG_MAXLEN n))) = false := by simp [hlong, hmax]
  rw [hover]
  simp only [Bool.false_eq_true, if_false]
  rw [if_neg hetype]
  change (d.frameCounts n b).deliver n b false = _
  unfold Dev.deliver
  rw [Dev.toFlows_congr hflw, hto, if_pos rfl]
  unfold Dev.flowRx
  rw [Dev.flowOf_congr hflw, hof]

/-- A copy of a flow reaches the flow engine, the MAC having counted it. -/
theorem rxFrame_runs {s : State} {n : Fin 2} {fr : RxFrame} (age ns taken : Nat) {f : Nat} (hfcs : fr.fcsOk = true) (hpcs : fr.pcsError = false)
    (hc : FlowCopy s n (fr.bytes.map (·.toNat)) f) : ∃ d, Runs (.rxFrame n fr age ns taken) s
      { s with dev := (d.rxCopy f n (fr.bytes.map (·.toNat)) false).settle } ∧ Dev.OnlyPort n (s.dev.at ns) d := by
  obtain ⟨hup, h64, hlong, hmax, hetype, hto, hof, hptp⟩ := hc
  have hrun := runs_of_onDev (execRxFrame_eq n fr age ns taken s)
  have hT := s.dev.taking_onlyPort n ns taken
  have hl := s.dev.taking_live n ns taken
  generalize s.dev.taking n ns taken = T at hrun hT hl
  have hflw : T.flw = s.dev.flw := by rw [hT.only]; rfl
  have hrd : ∀ g, T.rd g = s.dev.rd g := fun g => Dev.rd_congr T s.dev g hl
  have hupT : T.portUp n = true := by
    rw [Dev.portUp, Dev.on, Dev.on, hrd, hrd]
    exact hup
  have hj := Dev.judgeFrame_flows (d := T) h64 hlong (by rwa [hrd]) hetype (by rwa [Dev.toFlows_congr hflw]) (by rwa [Dev.flowOf_congr hflw])
  unfold Dev.rxFrame at hrun
  dsimp only at hrun
  rw [hupT, if_pos rfl, hfcs, hpcs, hj] at hrun
  unfold Dev.stampRx at hrun
  rw [hptp] at hrun
  exact ⟨_, hrun, hT.trans (T.frameCounts_onlyPort n _)⟩

/-! ### Settlement -/

theorem byteAt_lt (l : List Byte) (i : Nat) : byteAt (l.map (·.toNat)) i < 256 := by
  unfold byteAt
  rw [List.getD_eq_getElem?_getD, List.getElem?_map]
  cases l[i]? with
  | none => exact Nat.zero_lt_succ _
  | some x => exact x.isLt

theorem be16_lt (l : List Byte) (i : Nat) : be16 (l.map (·.toNat)) i < 65536 := by
  have := byteAt_lt l i
  have := byteAt_lt l (i + 1)
  unfold be16
  omega

/-- What holds of every copy, whatever becomes of it. -/
theorem Dev.RxDoes.frame {s t : State} {n : Fin 2} {ns f : Nat} {X : RxFlow} {cs : Nat → Nat} {d D : Dev} (h : Dev.RxDoes f X cs d D)
    (hd : Dev.OnlyPort n (s.dev.at ns) d) (ht : t.dev = D.settle) : t.dev.mem = s.dev.mem ∧ t.dev.tdm = s.dev.tdm ∧ t.dev.flw.tx = s.dev.flw.tx ∧
    (∀ g, g ≠ f → t.dev.rxf g = s.dev.rxf g) ∧ t.dev.rxf f = X ∧ t.dev.flw = D.flw ∧ d.flw = s.dev.flw := by
  have hflw : d.flw = s.dev.flw := by rw [hd.only]; rfl
  have hf : t.dev.flw = D.flw := by rw [ht, Dev.settle_flw]
  refine ⟨?_, ?_, ?_, fun g hg => ?_, ?_, hf, hflw⟩
  · rw [ht, Dev.settle_mem, h.only, hd.only]
    rfl
  · rw [ht, Dev.settle_tdm, h.only, hd.only]
    rfl
  · rw [hf, h.only, ← hflw]
  · rw [Dev.rxf_congr hf, h.others g hg, Dev.rxf_congr hflw]
  · rw [Dev.rxf_congr hf, h.flow]

/-- A flow keeps its description and its state, and path `n` is UP. -/
def RxFlow.Stands (x y : RxFlow) (n : Nat) : Prop := (if n = 0 then y.up0 else y.up1) = true ∧ y.desc = x.desc ∧ y.live = x.live ∧ y.st = x.st

theorem RxFlow.Noted.stands {x y z : RxFlow} {n : Nat} (h : x.Stands y n) (hz : y.Noted z) : x.Stands z n := by
  rw [hz]
  exact h

/-- The effect of a valid copy on a RUNNING flow, by the verdict on its sequence number (R239 to R241). -/
structure Merges (s t : State) (f n : Nat) (b : List Nat) (x : RxFlow) (seq : Nat) (k : Int) : Prop where
  stands : x.Stands (t.dev.rxf f) n
  counted : RecordCounts s t f n
  dup : x.judge seq = .dup → RecordCounts s t f 3 ∧ (t.dev.rxf f).buf = x.buf ∧ (t.dev.rxf f).high = x.high ∧ (t.dev.rxf f).win = x.win
  stale : x.judge seq = .stale → RecordCounts s t f 8 ∧ (t.dev.rxf f).buf = x.buf ∧ (t.dev.rxf f).high = x.high ∧ (t.dev.rxf f).win = x.win
  accepted : x.judge seq ≠ .dup → x.judge seq ≠ .stale → RecordCounts s t f 2
  ahead : ∀ dd, x.judge seq = .ahead dd → (t.dev.rxf f).high = seq
  fill : ∀ i, x.judge seq = .fill i → (t.dev.rxf f).high = x.high
  begins : x.judge seq = .first ∨ x.judge seq = .resync → (t.dev.rxf f).high = seq ∧ (t.dev.rxf f).merged = true
  resync : x.judge seq = .resync → RecordCounts s t f 12
  early : x.judge seq ≠ .dup → x.judge seq ≠ .stale → s.dev.sampleTick x.desc k (dSamples x.desc - 1) > s.dev.tick + 240 →
    RecordCounts s t f 7 ∧ (t.dev.rxf f).buf = x.buf
  placed : x.judge seq ≠ .dup → x.judge seq ≠ .stale → s.dev.sampleTick x.desc k (dSamples x.desc - 1) ≤ s.dev.tick + 240 →
    ∀ j, j < dSamples x.desc → (s.dev.tick : Int) < s.dev.sampleTick x.desc k j →
      Sparse.get [] (t.dev.rxf f).buf (jbKey (k + j)) = (packetRows x.desc b).getD j []

/-- A flow whose path has come UP merges as before. -/
theorem RxFlow.judge_upped {x P : RxFlow} (h : x.Upped P) (s : Nat) : P.judge s = x.judge s := by
  have h1 : P.merged = x.merged := by rw [h]
  have h2 : P.high = x.high := by rw [h]
  have h3 : P.win = x.win := by rw [h]
  rw [RxFlow.judge, RxFlow.judge, RxFlow.above, RxFlow.above, h1, h2, h3]

theorem mergeCopy_merges {s : State} {d d2 : Dev} {f n : Nat} {x P : RxFlow} {b : List Nat} (hn : n < 2) (hP : x.Upped P)
    (hup : (if n = 0 then P.up0 else P.up1) = true) (h2 : Dev.RxDoes f P (fun i => if i = n then 1 else 0) d d2) (hflw : d.flw = s.dev.flw)
    (htick : d.tick = s.dev.tick) (hns : d.nSamples = s.dev.nSamples) (hhigh : x.high < 65536) (hseq : be16 b ((rtpOf b).1 + 2) < 65536) :
    Merges s { s with dev := (d2.mergeCopy f n b).settle } f n b x (be16 b ((rtpOf b).1 + 2)) (d.mediaIndex x.desc (be32 b ((rtpOf b).1 + 4))) := by
  obtain ⟨hPd, hPl, hPs, hPb, hPh, hPw, hPm⟩ : P.desc = x.desc ∧ P.live = x.live ∧ P.st = x.st ∧ P.buf = x.buf ∧ P.high = x.high ∧ P.win = x.win ∧
      P.merged = x.merged := by
    rw [hP]
    exact ⟨rfl, rfl, rfl, rfl, rfl, rfl, rfl⟩
  have hst : x.Stands P n := ⟨hup, hPd, hPl, hPs⟩
  have hfl : ({ s with dev := (d2.mergeCopy f n b).settle } : State).dev.flw = (d2.mergeCopy f n b).flw := Dev.settle_flw _
  have hrx : ({ s with dev := (d2.mergeCopy f n b).settle } : State).dev.rxf f = (d2.mergeCopy f n b).rxf f := Dev.rxf_congr hfl f
  have hj : ∀ q, P.judge q = x.judge q := fun q => RxFlow.judge_upped hP q
  have htk : d2.sampleTick = s.dev.sampleTick := Dev.sampleTick_congr (h2.nSamples.trans hns)
  have hmi : d2.mediaIndex = d.mediaIndex := Dev.mediaIndex_congr h2.timeNs h2.nSamples
  obtain ⟨X, hX, hdup, hstale⟩ := d2.mergeCopy_ignores f n b
  have hacc := d2.mergeCopy_accepts f n b
  dsimp only at hacc
  rw [h2.flow, hj] at hdup hstale hacc
  rw [h2.flow] at hX
  rw [hPd, htk, hmi, h2.tick.trans htick, hPb] at hacc
  generalize be16 b ((rtpOf b).1 + 2) = seq at *
  generalize d.mediaIndex x.desc (be32 b ((rtpOf b).1 + 4)) = k at *
  generalize d2.mergeCopy f n b = D at *
  by_cases h3 : x.judge seq = .dup
  · have h := h2.trans (hdup h3)
    have hy := hrx.trans h.flow
    have hyf : X.buf = P.buf ∧ X.high = P.high ∧ X.win = P.win := by rw [hX]; exact ⟨rfl, rfl, rfl⟩
    have hnot : ∀ j, j ≠ .dup → x.judge seq ≠ j := fun j hne he => hne (he.symm.trans h3)
    refine ⟨?_, h.counts hflw hfl (by omega) ?_, fun _ => ⟨h.counts hflw hfl (by omega) ?_, ?_⟩, fun h' => absurd h' (hnot _ (by decide)),
      fun h' => absurd h3 h', fun _ h' => absurd h' (hnot _ (by simp)), fun _ h' => absurd h' (hnot _ (by simp)),
      fun h' => (h'.elim (fun h' => absurd h' (hnot _ (by decide))) fun h' => absurd h' (hnot _ (by decide))), fun h' => absurd h' (hnot _ (by decide)),
      fun h' => absurd h3 h', fun h' => absurd h3 h'⟩
    · rw [hy]
      exact RxFlow.Noted.stands hst hX
    · rw [if_pos rfl, if_neg (by omega)]
    · rw [if_neg (by omega), if_pos rfl]
    · rw [hy, hyf.1, hyf.2.1, hyf.2.2]
      exact ⟨hPb, hPh, hPw⟩
  · by_cases h8 : x.judge seq = .stale
    · have h := h2.trans (hstale h8)
      have hy := hrx.trans h.flow
      have hyf : X.buf = P.buf ∧ X.high = P.high ∧ X.win = P.win := by rw [hX]; exact ⟨rfl, rfl, rfl⟩
      have hnot : ∀ j, j ≠ .stale → x.judge seq ≠ j := fun j hne he => hne (he.symm.trans h8)
      refine ⟨?_, h.counts hflw hfl (by omega) ?_, fun h' => absurd h' h3, fun _ => ⟨h.counts hflw hfl (by omega) ?_, ?_⟩,
        fun _ h' => absurd h8 h', fun _ h' => absurd h' (hnot _ (by simp)), fun _ h' => absurd h' (hnot _ (by simp)),
        fun h' => (h'.elim (fun h' => absurd h' (hnot _ (by decide))) fun h' => absurd h' (hnot _ (by decide))), fun h' => absurd h' (hnot _ (by decide)),
        fun _ h' => absurd h8 h', fun _ h' => absurd h8 h'⟩
      · rw [hy]
        exact RxFlow.Noted.stands hst hX
      · rw [if_pos rfl, if_neg (by omega)]
      · rw [if_neg (by omega), if_pos rfl]
      · rw [hy, hyf.1, hyf.2.1, hyf.2.2]
        exact ⟨hPb, hPh, hPw⟩
    · obtain ⟨Y, B, cs, hY, hD, c0, c1, c2, c12, hearly, hplaced⟩ := hacc h3 h8
      have h := h2.trans hD
      have hy := hrx.trans h.flow
      have hYj : Y.judge seq = x.judge seq := (RxFlow.judge_noted hY seq).trans (hj seq)
      have hYh : Y.high = x.high := Eq.trans (by rw [hY]) hPh
      obtain ⟨ha, hf, hb⟩ := RxFlow.take_high (x := Y) (s := seq) (by rwa [hYh]) hseq
        (decide (s.dev.sampleTick x.desc k (dSamples x.desc - 1) > s.dev.tick + 240))
      have hcn : cs n = 0 := by
        obtain rfl | rfl : n = 0 ∨ n = 1 := by omega
        · exact c0
        · exact c1
      have hkeep := Y.take_keeps (Y.judge seq) seq (decide (s.dev.sampleTick x.desc k (dSamples x.desc - 1) > s.dev.tick + 240))
      generalize (Y.take (Y.judge seq) seq (decide (s.dev.sampleTick x.desc k (dSamples x.desc - 1) > s.dev.tick + 240))).1 = T at *
      dsimp only at hkeep
      have hyh : (T.withBuf B).high = T.high := rfl
      have hym : (T.withBuf B).merged = T.merged := rfl
      have hyb : (T.withBuf B).buf = B := rfl
      have hstT : x.Stands (T.withBuf B) n := by
        have := RxFlow.Noted.stands hst hY
        rw [hkeep]
        exact this
      refine ⟨hy ▸ hstT, h.counts hflw hfl (by omega) ?_, fun h' => absurd h' h3, fun h' => absurd h' h8, fun _ _ => h.counts hflw hfl (by omega) ?_,
        fun dd h' => ?_, fun i h' => ?_, fun h' => ?_, fun h' => h.counts hflw hfl (by omega) ?_, fun _ _ he => ⟨h.counts hflw hfl (by omega) ?_, ?_⟩,
        fun _ _ he => ?_⟩
      · rw [if_pos rfl, hcn]
      · rw [if_neg (by omega), c2]
      · rw [hy, hyh]
        exact ha dd (hYj.trans h')
      · rw [hy, hyh, hf i (hYj.trans h'), hYh]
      · rw [hy, hyh, hym]
        exact hb (by rwa [hYj])
      · rw [if_neg (by omega), c12 h']
      · rw [if_neg (by omega), (hearly (decide_eq_true he)).1]
      · rw [hy, hyb]
        exact (hearly (decide_eq_true he)).2
      · rw [hy, hyb]
        exact hplaced (decide_eq_false (by omega))

/-- Whatever its verdict, the merge concerns its flow alone. -/
theorem Dev.mergeCopy_does (d : Dev) (f n : Nat) (b : List Nat) : ∃ X cs, Dev.RxDoes f X cs d (d.mergeCopy f n b) := by
  obtain ⟨X, -, hdup, hstale⟩ := d.mergeCopy_ignores f n b
  by_cases h3 : (d.rxf f).judge (be16 b ((rtpOf b).1 + 2)) = .dup
  · exact ⟨_, _, hdup h3⟩
  · by_cases h8 : (d.rxf f).judge (be16 b ((rtpOf b).1 + 2)) = .stale
    · exact ⟨_, _, hstale h8⟩
    · obtain ⟨Y, B, cs, -, hD, -⟩ := d.mergeCopy_accepts f n b h3 h8
      exact ⟨_, _, hD⟩

/-- Settles O46: a received copy is followed from the MAC through its path to the merge and the deposit. -/
theorem copiesMergeBySequenceNumber : Obligations.CopiesMergeBySequenceNumber := by
  intro s n fr age ns f taken hwf b x o seq dd k tickOf hfcs hpcs hc
  obtain ⟨d, hrun, hd⟩ := rxFrame_runs age ns taken hfcs hpcs hc
  have hflw : d.flw = s.dev.flw := by rw [hd.only]; rfl
  have hx : d.rxf f = x := Dev.rxf_congr hflw f
  have htick : d.tick = s.dev.tick := by rw [hd.only]; rfl
  have htime : d.timeNs = (s.dev.at ns).timeNs := by rw [hd.only]; rfl
  have hns : d.nSamples = s.dev.nSamples := (Dev.nSamples_congr (hd.word _ fun h => by
    simp only [Reg.SYN_STATUS_RATE96_NOW] at h
    omega)).trans rfl
  have hn : n.val < 16 ∧ 4 + n.val < 16 ∧ n.val < 2 := by omega
  refine ⟨_, hrun, ?_⟩
  cases hv : copyValid x.desc b false with
  | false =>
    have h := d.rxCopy_invalid (f := f) (path := n) (b := b) (by rwa [hx])
    obtain ⟨hmem, htdm, htx, hoth, hfl, hF, -⟩ := h.frame hd (t := { s with dev := (d.rxCopy f n b false).settle }) rfl
    refine ⟨hmem, htdm, htx, hoth, h.counts hflw hF hn.1 ?_, fun _ => ⟨h.counts hflw hF hn.2.1 ?_, hfl.trans hx⟩, fun h => absurd h (by decide)⟩
    · rw [if_pos rfl, if_neg (by omega)]
    · rw [if_neg (by omega), if_pos rfl]
  | true =>
    obtain ⟨P, d2, hP, hup, h2, hdef⟩ := d.rxCopy_valid (f := f) (path := n) (b := b) (by rwa [hx])
    rw [hx] at hP hdef
    have hnz : ∀ y : RxFlow, (if n.val = 0 then y.up0 else y.up1) = true → (if n = 0 then y.up0 else y.up1) = true := fun y h => by
      obtain rfl | rfl : n = 0 ∨ n = 1 := by omega
      · exact h
      · exact h
    by_cases hst : x.st = 2
    · rw [if_pos hst] at hdef
      rw [hdef]
      have hM := mergeCopy_merges hn.2.2 hP hup h2 hflw htick hns (hwf f) (be16_lt fr.bytes _)
      obtain ⟨X, cs, hX⟩ := d2.mergeCopy_does f n b
      obtain ⟨hmem, htdm, htx, hoth, -⟩ := (h2.trans hX).frame hd (t := { s with dev := (d2.mergeCopy f n b).settle }) rfl
      have hk : d.mediaIndex x.desc (be32 b ((rtpOf b).1 + 4)) = k := congrFun (congrFun (Dev.mediaIndex_congr htime hns) _) _
      rw [hk] at hM
      change Merges s _ f n b x seq k at hM
      refine ⟨hmem, htdm, htx, hoth, hM.counted, fun h => absurd h (by decide), fun _ => ⟨hnz _ hM.stands.1, hM.stands.2.1, hM.stands.2.2.1, hM.stands.2.2.2,
        fun h => absurd hst h, fun _ hm => ?_, fun _ hm => ?_, fun _ hdup hstale => ⟨hM.early hdup hstale, hM.placed hdup hstale⟩⟩⟩
      · obtain ⟨jA, jF, jD, jS, jR⟩ := RxFlow.judge_merged hm seq
        refine ⟨fun h1 h2 => ?_, fun h1 h2 h3 => ?_, fun h1 h2 h3 => hM.dup (jD h1 h2 h3), fun h1 h2 => hM.stale (jS h1 h2), fun h => ?_⟩
        · have hj := jA h1 h2
          exact ⟨hM.accepted (by simp [hj]) (by simp [hj]), hM.ahead _ hj⟩
        · have hj := jF h1 h2 h3
          exact ⟨hM.accepted (by simp [hj]) (by simp [hj]), hM.fill _ hj⟩
        · have hj := jR h
          exact ⟨hM.accepted (by simp [hj]) (by simp [hj]), hM.resync hj, (hM.begins (.inr hj)).1⟩
      · have hj := RxFlow.judge_first hm seq
        exact ⟨hM.accepted (by simp [hj]) (by simp [hj]), (hM.begins (.inl hj)).2, (hM.begins (.inl hj)).1⟩
    · rw [if_neg hst] at hdef
      rw [hdef]
      obtain ⟨hmem, htdm, htx, hoth, hfl, hF, -⟩ := h2.frame hd (t := { s with dev := d2.settle }) rfl
      refine ⟨hmem, htdm, htx, hoth, h2.counts hflw hF hn.1 (if_pos rfl), fun h => absurd h (by decide), fun _ => ?_⟩
      rw [hfl]
      refine ⟨hnz P hup, ?_, ?_, ?_, fun _ => ?_, fun h => absurd h hst, fun h => absurd h hst, fun h => absurd h hst⟩
      · rw [hP]
      · rw [hP]
      · rw [hP]
      · rw [hP]
        exact ⟨rfl, rfl, rfl, rfl⟩

end Sys2Proof.Machine
end

section
/-! TDM ports, clock outputs and pulse outputs as their synthesizers are gated and resume (R268, R270, R390, R395). -/
namespace Sys2Proof.Machine
open Sys2Proof.Claims

/-! ### Folds whose steps act each on a part of their own -/

theorem foldl_keeps {α β γ : Type} {f : α → β → α} (g : α → γ) (l : List β) (h : ∀ d, ∀ i ∈ l, g (f d i) = g d) (d : α) : g (l.foldl f d) = g d := by
  induction l generalizing d with
  | nil => rfl
  | cons i l ih => rw [List.foldl_cons, ih (fun d j hj => h d j (List.mem_cons_of_mem i hj)), h d i List.mem_cons_self]

/-- Where step `i` keeps `glob` and every part but its own, part `j` after the fold is what step `j` makes of it. -/
theorem foldl_range_own {α γ δ : Type} {f : α → Nat → α} (glob : α → δ) (part : Nat → α → γ) (n : Nat) (hglob : ∀ d i, i < n → glob (f d i) = glob d)
    (hpart : ∀ d i j, i < n → j < n → j ≠ i → part j (f d i) = part j d) (d : α) {j : Nat} (hj : j < n) :
    ∃ e, glob e = glob d ∧ part j e = part j d ∧ part j ((List.range n).foldl f d) = part j (f e j) ∧
      ∃ l : List Nat, (List.range n).foldl f d = l.foldl f (f e j) := by
  induction n with
  | zero => exact absurd hj (Nat.not_lt_zero j)
  | succ n ih =>
    rw [List.range_succ, List.foldl_append, List.foldl_cons, List.foldl_nil]
    obtain hlt | rfl := Nat.lt_succ_iff_lt_or_eq.mp hj
    · obtain ⟨e, h1, h2, h3, l, h4⟩ := ih (fun d i hi => hglob d i (Nat.lt_succ_of_lt hi))
        (fun d i k hi hk => hpart d i k (Nat.lt_succ_of_lt hi) (Nat.lt_succ_of_lt hk)) hlt
      refine ⟨e, h1, h2, (hpart _ n j (Nat.lt_succ_self n) hj (Nat.ne_of_lt hlt)).trans h3, l ++ [n], ?_⟩
      rw [h4, List.foldl_append, List.foldl_cons, List.foldl_nil]
    · refine ⟨_, foldl_keeps glob _ (fun d i hi => hglob d i (Nat.lt_succ_of_lt (List.mem_range.mp hi))) d,
        foldl_keeps (part j) _ (fun d i hi => ?_) d, rfl, [], rfl⟩
      exact hpart d i j (Nat.lt_succ_of_lt (List.mem_range.mp hi)) hj (Nat.ne_of_gt (List.mem_range.mp hi))

theorem foldl_preserves {α β : Type} {f : α → β → α} {P : α → Prop} (l : List β) (h : ∀ d i, P d → P (f d i)) {d : α} (hd : P d) : P (l.foldl f d) := by
  induction l generalizing d with
  | nil => exact hd
  | cons i l ih => exact ih (h d i hd)

/-! ### What an output changes -/

/-- `D` is `d` but for the words at `ws`, the posted events and the outputs' own state. -/
structure Dev.Outs (ws : List Nat) (d D : Dev) : Prop where
  only : D = { d with live := D.live, evq := D.evq, syn := D.syn, tdm := D.tdm }
  word : ∀ a, a ∉ ws → D.word a = d.word a

section
variable {ws vs : List Nat} {d d' D : Dev}

theorem Dev.Outs.refl (ws : List Nat) (d : Dev) : Dev.Outs ws d d := ⟨rfl, fun _ _ => rfl⟩

theorem Dev.Outs.trans (h : Dev.Outs ws d d') (h' : Dev.Outs ws d' D) : Dev.Outs ws d D := by
  refine ⟨?_, fun a ha => (h'.word a ha).trans (h.word a ha)⟩
  rw [h'.only, h.only]

theorem Dev.Outs.mono (h : Dev.Outs ws d D) (hs : ∀ a ∈ ws, a ∈ vs) : Dev.Outs vs d D := ⟨h.only, fun a ha => h.word a fun hw => ha (hs a hw)⟩

theorem Dev.Outs.foldl {β : Type} {f : Dev → β → Dev} (l : List β) (hf : ∀ d, ∀ i ∈ l, Dev.Outs ws d (f d i)) (d : Dev) : Dev.Outs ws d (l.foldl f d) := by
  induction l generalizing d with
  | nil => exact .refl ws d
  | cons i l ih => exact (hf d i List.mem_cons_self).trans (ih (fun d j hj => hf d j (List.mem_cons_of_mem i hj)) (f d i))

theorem Dev.Outs.wr (h : Dev.Outs ws d D) {f : Fld} (v : Nat) (hf : f.addr ∈ ws) : Dev.Outs ws d (D.wr f v) :=
  h.trans ⟨rfl, fun _ ha => Dev.word_wr_ne D f v _ fun he => ha (he ▸ hf)⟩

theorem Dev.Outs.flag (h : Dev.Outs ws d D) {f : Fld} (hf : f.addr ∈ ws) : Dev.Outs ws d (D.flag f) := h.wr 1 hf

theorem Dev.Outs.post (h : Dev.Outs ws d D) (a b c : Nat) : Dev.Outs ws d (D.post a b c) := h.trans ⟨rfl, fun _ _ => rfl⟩

theorem Dev.Outs.count (h : Dev.Outs ws d D) {c half : Fld} (k : Nat) (hc : c.addr ∈ ws) (hh : half.addr ∈ ws) : Dev.Outs ws d (D.count c half k) := by
  unfold Dev.count
  dsimp only
  split
  · exact h.wr _ hc
  · exact (h.wr _ hc).flag hh

theorem Dev.Outs.setPort (h : Dev.Outs ws d D) (n : Nat) (x : PortS) : Dev.Outs ws d (D.setPort n x) := h.trans ⟨rfl, fun _ _ => rfl⟩

theorem Dev.Outs.setPulse (h : Dev.Outs ws d D) (n : Nat) (x : PulseS) : Dev.Outs ws d (D.setPulse n x) := h.trans ⟨rfl, fun _ _ => rfl⟩

theorem Dev.Outs.rd (h : Dev.Outs ws d D) {g : Fld} (hg : g.addr ∉ ws) : D.rd g = d.rd g := Dev.rd_of_word (h.word _ hg)

theorem Dev.Outs.timeNs (h : Dev.Outs ws d D) : D.timeNs = d.timeNs := by
  rw [h.only]
  rfl

theorem Dev.Outs.ns (h : Dev.Outs ws d D) : D.ns = d.ns := by rw [h.only]

end

/-! ### TDM ports -/

/-- The words that port `n` writes as its synthesizer comes and goes. -/
def portWords (n : Nat) : List Nat :=
  [(Reg.TDM_PSTAT_STATE n).addr, Reg.TDM_ARMED_PORTS.addr, Reg.TDM_RUN_PORTS.addr, (Reg.TDM_FAULTCNT_COUNT n).addr, Reg.TDM_STATUS_XF.addr,
    (Reg.TDM_XFCNT_COUNT n).addr]

theorem portWords_tdm {n : Nat} (hn : n < 16) : ∀ a ∈ portWords n, a ∈ tdmWords :=
  (show ∀ n : Fin 16, ∀ a ∈ portWords n, a ∈ tdmWords by decide) ⟨n, hn⟩

theorem portFault_syn (d : Dev) (n cause j : Nat) : (d.portFault n cause j).syn = d.syn := by
  unfold Dev.portFault
  dsimp only
  exact Dev.count_syn ..

theorem Dev.portFault_outs (d : Dev) (n cause j : Nat) : Dev.Outs (portWords n) d (d.portFault n cause j) := by
  unfold Dev.portFault Dev.portState
  exact (((((((Dev.Outs.refl _ d).setPort n _).wr _ (by simp [portWords])).wr _ (by simp [portWords])).wr _ (by simp [portWords])).count 1
    (by simp [portWords]) (by simp [portWords, Reg.TDM_STATUS_XF, Reg.TDM_STATUS_CNT_HALF])).flag
    (by simp [portWords, Reg.TDM_STATUS_XF, Reg.TDM_STATUS_FAULT])).post ..

theorem Dev.portMove_outs (d : Dev) (n : Nat) : Dev.Outs (portWords n) d (d.portMove n) := by
  unfold Dev.portMove
  exact (((((Dev.Outs.refl _ d).setPort n _).wr _ (by simp [portWords, Reg.TDM_PSTAT_STATE, Reg.TDM_PSTAT_ONSYN])).flag (by simp [portWords])).count 1
    (by simp [portWords]) (by simp [portWords, Reg.TDM_STATUS_XF, Reg.TDM_STATUS_CNT_HALF])).post ..

/-- Only port `n` changes, with the words that are its own or shared. -/
structure Dev.OnPort (n : Nat) (d D : Dev) : Prop where
  outs : Dev.Outs (portWords n) d D
  ports : ∀ m, m ≠ n → D.port m = d.port m
  syn : D.syn = d.syn

theorem Dev.OnPort.refl (n : Nat) (d : Dev) : Dev.OnPort n d d := ⟨.refl _ d, fun _ _ => rfl, rfl⟩

theorem Dev.OnPort.trans {n : Nat} {d d' D : Dev} (h : Dev.OnPort n d d') (h' : Dev.OnPort n d' D) : Dev.OnPort n d D :=
  ⟨h.outs.trans h'.outs, fun m hm => (h'.ports m hm).trans (h.ports m hm), h'.syn.trans h.syn⟩

theorem Dev.setPort_onPort (d : Dev) (n : Nat) (x : PortS) : Dev.OnPort n d (d.setPort n x) :=
  ⟨(Dev.Outs.refl _ d).setPort n x, fun m hm => (d.port_setPort n m x).trans (if_neg hm), rfl⟩

theorem Dev.portState_tdm (d : Dev) (n st : Nat) : (d.portState n st).tdm = d.tdm := rfl

theorem Dev.portFault_port (d : Dev) (n cause j m : Nat) : (d.portFault n cause j).port m = if m = n then (d.port n).faulted j else d.port m := by
  refine Eq.trans (Dev.port_congr ?_ m) (d.port_setPort n m _)
  exact Dev.count_tdm ..

theorem Dev.portFault_onPort (d : Dev) (n cause j : Nat) : Dev.OnPort n d (d.portFault n cause j) :=
  ⟨d.portFault_outs n cause j, fun m hm => (d.portFault_port n cause j m).trans (if_neg hm), portFault_syn d n cause j⟩

theorem Dev.portMove_onPort (d : Dev) (n : Nat) : Dev.OnPort n d (d.portMove n) := by
  refine ⟨d.portMove_outs n, fun m hm => Eq.trans (Dev.port_congr ?_ m) ((d.port_setPort n m { d.port n with moving := none }).trans (if_neg hm)), ?_⟩
  · exact Dev.count_tdm ..
  · exact Dev.count_syn ..

theorem Dev.portMove_port (d : Dev) (n : Nat) : (d.portMove n).port n = { d.port n with moving := none } := by
  refine Eq.trans (Dev.port_congr ?_ n) ((d.port_setPort n n { d.port n with moving := none }).trans (if_pos rfl))
  exact Dev.count_tdm ..

/-- What a port's reaction depends on beside its own part: the instant, the synthesizers and the words of the other blocks. -/
def Dev.tdmGlob (d : Dev) : Nat × Syn × (Nat → Word) := (d.ns, d.syn, fun a => if a ∈ tdmWords then 0 else d.word a)

/-- A port's own part. -/
def Dev.portPart (n : Nat) (d : Dev) : PortS × Word := (d.port n, d.word (Reg.TDM_PSTAT_STATE n).addr)

theorem Dev.OnPort.glob {n : Nat} {d D : Dev} (h : Dev.OnPort n d D) (hn : n < 16) : D.tdmGlob = d.tdmGlob := by
  unfold Dev.tdmGlob
  rw [h.syn, h.outs.ns]
  refine congrArg (fun w => (d.ns, d.syn, w)) (funext fun a => ?_)
  split
  case isTrue => rfl
  case isFalse ht => exact h.outs.word a fun ha => ht (portWords_tdm hn a ha)

theorem Dev.OnPort.part {n : Nat} {d D : Dev} (h : Dev.OnPort n d D) {m : Nat} (hm : m ≠ n) : D.portPart m = d.portPart m := by
  unfold Dev.portPart
  rw [h.ports m hm, h.outs.word]
  simp only [portWords, List.mem_cons, List.not_mem_nil, or_false, not_or, Reg.TDM_PSTAT_STATE, Reg.TDM_ARMED_PORTS, Reg.TDM_RUN_PORTS,
    Reg.TDM_FAULTCNT_COUNT, Reg.TDM_STATUS_XF, Reg.TDM_XFCNT_COUNT]
  omega

theorem Dev.tdmGlob_word {d D : Dev} (h : D.tdmGlob = d.tdmGlob) {a : Nat} (ha : a ∉ tdmWords) : D.word a = d.word a := by
  have := congrFun (congrArg (·.2.2) h) a
  simpa only [Dev.tdmGlob, if_neg ha] using this

theorem Dev.tdmGlob_rd {d D : Dev} (h : D.tdmGlob = d.tdmGlob) {g : Fld} (hg : g.addr ∉ tdmWords) : D.rd g = d.rd g :=
  Dev.rd_of_word (Dev.tdmGlob_word h hg)

theorem lt_two {x : Nat} (h : x < 2) : x = 0 ∨ x = 1 := by omega

theorem Dev.tdmLocked_congr {d D : Dev} (h : D.tdmGlob = d.tdmGlob) {x : Nat} (hx : x < 2) : D.tdmLocked x = d.tdmLocked x := by
  have h1 : D.rd (Reg.SYNX_STAT_LOCK x) = d.rd (Reg.SYNX_STAT_LOCK x) :=
    Dev.tdmGlob_rd h ((show ∀ x : Fin 2, (Reg.SYNX_STAT_LOCK x).addr ∉ tdmWords by decide) ⟨x, hx⟩)
  have h2 : D.rd (Reg.SYNX_CFG_PLAN x) = d.rd (Reg.SYNX_CFG_PLAN x) :=
    Dev.tdmGlob_rd h ((show ∀ x : Fin 2, (Reg.SYNX_CFG_PLAN x).addr ∉ tdmWords by decide) ⟨x, hx⟩)
  rw [Dev.tdmLocked, Dev.on, h1, h2, Dev.tdmLocked, Dev.on]

theorem Dev.frameNow_congr {d D : Dev} (h : D.tdmGlob = d.tdmGlob) : D.frameNow = d.frameNow := by
  have h1 : D.ns = d.ns := congrArg (·.1) h
  have h2 : D.nSamples = d.nSamples := Dev.nSamples_congr (Dev.tdmGlob_word h (by decide))
  rw [Dev.frameNow, h1, h2, Dev.frameNow]

theorem pcfg_notin {n : Nat} (hn : n < 16) : (Reg.TDM_PCFG_SYN n).addr ∉ tdmWords :=
  (show ∀ n : Fin 16, (Reg.TDM_PCFG_SYN n).addr ∉ tdmWords by decide) ⟨n, hn⟩

/-- A port's own fields, from its part. -/
theorem Dev.portPart_rd {d D : Dev} {n : Nat} (h : D.portPart n = d.portPart n) {g : Fld} (hg : g.addr = (Reg.TDM_PSTAT_STATE n).addr) :
    D.rd g = d.rd g := Dev.rd_of_word (by rw [hg]; exact congrArg Prod.snd h)

theorem Dev.portSyn_congr {d D : Dev} (h : D.tdmGlob = d.tdmGlob) {n : Nat} (hn : n < 16) (hp : D.portPart n = d.portPart n) :
    D.portSyn n = d.portSyn n := by
  rw [Dev.portSyn, Dev.portPart_rd hp (g := Reg.TDM_PSTAT_ONSYN n) rfl, Dev.tdmGlob_rd h (pcfg_notin hn), Dev.portSyn]

theorem Dev.portSyn_lt (d : Dev) (n : Nat) : d.portSyn n < 2 := Nat.mod_lt _ (by decide)

/-- Port `n` runs as a master on a synthesizer that is not locked: it cannot stay on it (R268). -/
def Dev.portLoses (d : Dev) (n : Nat) : Prop :=
  d.rd (Reg.TDM_PSTAT_STATE n) = 2 ∧ d.rd (Reg.TDM_PCFG_ROLE n) = 0 ∧ d.tdmLocked (d.portSyn n) = false

/-- Port `n` may move to the other synthesizer (R268). -/
def Dev.portMoves? (d : Dev) (n : Nat) : Prop := d.rd (Reg.TDM_PCFG_XFAIL n) = 1 ∧ d.tdmLocked (1 - d.portSyn n) = true

/-- The port with frame `j` cut at instant `ns`. -/
def PortS.cutAt (p : PortS) (j ns : Nat) : PortS := if p.cuts.all (·.1 != j) then { p with cuts := (j, ns) :: p.cuts } else p

theorem PortS.cutAt_any (p : PortS) (j ns : Nat) : (p.cutAt j ns).cuts.any (·.1 == j) = true := by
  unfold PortS.cutAt
  split
  case isTrue => simp
  case isFalse h => simpa using h

theorem Dev.on_false_iff (d : Dev) {f : Fld} (hw : f.width = 1) : d.on f = false ↔ d.rd f = 0 := by
  refine ⟨fun h => d.rd_of_off h hw, fun h => ?_⟩
  rw [Dev.on, h]
  rfl

theorem Dev.on_true_iff (d : Dev) (f : Fld) : d.on f = true ↔ d.rd f = 1 := by simp [Dev.on]

/-- The reaction of port `n`, its synthesizer being gated at frame `j` (R268, R270). -/
theorem Dev.portLost_cases (d : Dev) (n j : Nat) : (¬ d.portLoses n → d.portLost n j true = d) ∧
    (d.portLoses n → ∃ D, (D = d ∨ D = d.setPort n ((d.port n).cutAt j d.ns)) ∧ D.port n = (d.port n).cutAt j d.ns ∧
      (d.portMoves? n → d.portLost n j true = D.setPort n { D.port n with moving := some j }) ∧
      (¬ d.portMoves? n → d.portLost n j true = (D.setPort n { D.port n with moving := none }).portFault n 2 j)) := by
  have hrole : d.on (Reg.TDM_PCFG_ROLE n) = false ↔ d.rd (Reg.TDM_PCFG_ROLE n) = 0 := d.on_false_iff rfl
  have hdef : d.portLost n j true = if d.rd (Reg.TDM_PSTAT_STATE n) ≠ 2 ∨ d.on (Reg.TDM_PCFG_ROLE n) ∨ d.tdmLocked (d.portSyn n) then d
      else
        let D := if (d.port n).cuts.all (·.1 != j) then d.setPort n { (d.port n) with cuts := (j, d.ns) :: (d.port n).cuts } else d
        if D.on (Reg.TDM_PCFG_XFAIL n) && D.tdmLocked (1 - d.portSyn n) then D.setPort n { D.port n with moving := some j }
        else (D.setPort n { D.port n with moving := none }).portFault n 2 j := rfl
  refine ⟨fun h => ?_, fun h => ?_⟩
  · rw [hdef, if_pos]
    unfold Dev.portLoses at h
    rw [← hrole] at h
    by_contra hc
    simp only [not_or, not_not, Bool.not_eq_true] at hc
    exact h hc
  · obtain ⟨h1, h2, h3⟩ := h
    rw [hdef, if_neg (by rw [h1, hrole.mpr h2, h3]; decide)]
    dsimp only
    set D := if (d.port n).cuts.all (·.1 != j) then d.setPort n { (d.port n) with cuts := (j, d.ns) :: (d.port n).cuts } else d with hD
    have hDc : (D = d ∨ D = d.setPort n ((d.port n).cutAt j d.ns)) ∧ D.port n = (d.port n).cutAt j d.ns := by
      unfold PortS.cutAt
      rw [hD]
      split
      · exact ⟨.inr rfl, (d.port_setPort n n _).trans (if_pos rfl)⟩
      · exact ⟨.inl rfl, rfl⟩
    have hcond : (D.on (Reg.TDM_PCFG_XFAIL n) && D.tdmLocked (1 - d.portSyn n)) = true ↔ d.portMoves? n := by
      have hlive : ∀ g, D.rd g = d.rd g := fun g => by
        obtain h | h := hDc.1
        · rw [h]
        · rw [h, Dev.setPort_rd]
      rw [Bool.and_eq_true, Dev.on_true_iff, Dev.tdmLocked, Dev.on, hlive, hlive, hlive]
      exact Iff.rfl
    exact ⟨D, hDc.1, hDc.2, fun hm => if_pos (hcond.mpr hm), fun hm => if_neg fun hc => hm (hcond.mp hc)⟩

/-! ### The frames that turn, and the ports told of a change of the synthesizers -/

/-- `D` is as `d` to a port: the ports' own state, the instant, and the words that satisfy `P`. -/
structure Dev.Alike (P : Nat → Prop) (d D : Dev) : Prop where
  port : ∀ n, D.port n = d.port n
  ns : D.ns = d.ns
  word : ∀ a, P a → D.word a = d.word a

section
variable {P : Nat → Prop} {d D : Dev}

theorem Dev.word_wr (d : Dev) (f : Fld) (v a : Nat) : (d.wr f v).word a = if f.addr = a then f.set (d.word f.addr) v else d.word a := by
  split
  case isTrue h => rw [← h, Dev.wr, Dev.word_setWord_eq]
  case isFalse h => exact d.word_wr_ne f v a h

theorem Dev.Alike.rd (h : Dev.Alike P d D) {g : Fld} (hg : P g.addr) : D.rd g = d.rd g := Dev.rd_of_word (h.word _ hg)

theorem Dev.Alike.wr (h : Dev.Alike P d D) (f : Fld) (v : Nat) : Dev.Alike P (d.wr f v) (D.wr f v) := by
  refine ⟨h.port, h.ns, fun a ha => ?_⟩
  rw [Dev.word_wr, Dev.word_wr]
  split
  case isTrue he => rw [h.word _ (he.symm ▸ ha)]
  case isFalse => exact h.word a ha

theorem Dev.Alike.count (h : Dev.Alike P d D) {c : Fld} (half : Fld) (k : Nat) (hc : P c.addr) : Dev.Alike P (d.count c half k) (D.count c half k) := by
  unfold Dev.count
  dsimp only
  rw [h.rd hc]
  split
  · exact h.wr c _
  · exact (h.wr c _).wr half 1

theorem Dev.Alike.post (h : Dev.Alike P d D) (a b c c' : Nat) : Dev.Alike P (d.post a b c) (D.post a b c') := ⟨h.port, h.ns, h.word⟩

theorem Dev.Alike.setPort (h : Dev.Alike P d D) (n : Nat) (x : PortS) : Dev.Alike P (d.setPort n x) (D.setPort n x) :=
  ⟨fun m => by rw [Dev.port_setPort, Dev.port_setPort, h.port], h.ns, h.word⟩

theorem Dev.Alike.portMove (h : Dev.Alike P d D) {n : Nat} (hs : P (Reg.TDM_PSTAT_ONSYN n).addr) (hx : P (Reg.TDM_XFCNT_COUNT n).addr) :
    Dev.Alike P (d.portMove n) (D.portMove n) := by
  have h1 := h.setPort n { d.port n with moving := none }
  have hdef : ∀ d : Dev, d.portMove n = ((((d.setPort n { d.port n with moving := none }).wr (Reg.TDM_PSTAT_ONSYN n) (1 - d.rd (Reg.TDM_PSTAT_ONSYN n))).flag
      Reg.TDM_STATUS_XF).count (Reg.TDM_XFCNT_COUNT n) Reg.TDM_STATUS_CNT_HALF).post 10 4 (n + (1 - d.portSyn n) * 2 ^ 4) := fun _ => rfl
  rw [hdef, hdef D, h.rd hs, h.port]
  exact (((h1.wr _ _).wr Reg.TDM_STATUS_XF 1).count _ 1 hx).post ..

end

/-- The words of the TDM ports. -/
def tdmSide (a : Nat) : Prop := 0xD000 ≤ a ∧ a < 0xE000

theorem tdmWords_side : ∀ a ∈ tdmWords, tdmSide a := fun a ha => (show ∀ a ∈ tdmWords, 0xD000 ≤ a ∧ a < 0xE000 by decide) a ha

theorem Dev.Alike.frameNow {d D : Dev} (h : Dev.Alike tdmSide d D) (hr : D.nSamples = d.nSamples) : D.frameNow = d.frameNow := by
  rw [Dev.frameNow, h.ns, hr, Dev.frameNow]

theorem Dev.Alike.portMoves {d D : Dev} (h : Dev.Alike tdmSide d D) (j : Nat) : Dev.Alike tdmSide (d.portMoves j) (D.portMoves j) := by
  have hw : ∀ n, n < 16 → tdmSide (Reg.TDM_PSTAT_ONSYN n).addr ∧ tdmSide (Reg.TDM_XFCNT_COUNT n).addr := fun n hn => by
    obtain ⟨h1, h2⟩ := (show ∀ n : Fin 16, (Reg.TDM_PSTAT_ONSYN n).addr ∈ tdmWords ∧ (Reg.TDM_XFCNT_COUNT n).addr ∈ tdmWords by decide) ⟨n, hn⟩
    exact ⟨tdmWords_side _ h1, tdmWords_side _ h2⟩
  unfold Dev.portMoves
  have hl : ∀ n ∈ List.range 16, n < 16 := fun n hn => List.mem_range.mp hn
  generalize List.range 16 = l at hl
  induction l generalizing d D with
  | nil => exact h
  | cons n l ih =>
    refine ih ?_ fun m hm => hl m (List.mem_cons_of_mem n hm)
    dsimp only
    rw [h.port]
    split
    · obtain ⟨h1, h2⟩ := hw n (hl n List.mem_cons_self)
      exact h.portMove h1 h2
    · exact h

theorem Dev.Alike.frameTurn {d D : Dev} (h : Dev.Alike tdmSide d D) (hr : D.nSamples = d.nSamples) : Dev.Alike tdmSide d.frameTurn D.frameTurn := by
  rw [Dev.frameTurn, Dev.frameTurn, h.frameNow hr]
  exact h.portMoves _

/-! What `portsLost` does. -/

/-- Only the ports change, with their words. -/
structure Dev.OnTdm (d D : Dev) : Prop where
  outs : Dev.Outs tdmWords d D
  syn : D.syn = d.syn

theorem Dev.OnTdm.refl (d : Dev) : Dev.OnTdm d d := ⟨.refl _ d, rfl⟩

theorem Dev.OnTdm.trans {d d' D : Dev} (h : Dev.OnTdm d d') (h' : Dev.OnTdm d' D) : Dev.OnTdm d D := ⟨h.outs.trans h'.outs, h'.syn.trans h.syn⟩

theorem Dev.OnTdm.foldl {β : Type} {f : Dev → β → Dev} (l : List β) (hf : ∀ d, ∀ i ∈ l, Dev.OnTdm d (f d i)) (d : Dev) : Dev.OnTdm d (l.foldl f d) := by
  induction l generalizing d with
  | nil => exact .refl d
  | cons i l ih => exact (hf d i List.mem_cons_self).trans (ih (fun d j hj => hf d j (List.mem_cons_of_mem i hj)) (f d i))

theorem Dev.OnPort.onTdm {n : Nat} {d D : Dev} (h : Dev.OnPort n d D) (hn : n < 16) : Dev.OnTdm d D := ⟨h.outs.mono (portWords_tdm hn), h.syn⟩

theorem Dev.OnTdm.glob {d D : Dev} (h : Dev.OnTdm d D) : D.tdmGlob = d.tdmGlob := by
  unfold Dev.tdmGlob
  rw [h.syn, h.outs.ns]
  refine congrArg (fun w => (d.ns, d.syn, w)) (funext fun a => ?_)
  split
  case isTrue => rfl
  case isFalse ht => exact h.outs.word a ht

theorem Dev.portLost_onPort (d : Dev) (n j : Nat) : Dev.OnPort n d (d.portLost n j true) := by
  obtain ⟨h1, h2⟩ := d.portLost_cases n j
  by_cases hl : d.portLoses n
  · obtain ⟨D, hD, -, hm, hf⟩ := h2 hl
    have hDp : Dev.OnPort n d D := by
      obtain rfl | rfl := hD
      · exact .refl n _
      · exact d.setPort_onPort n _
    by_cases hv : d.portMoves? n
    · rw [hm hv]
      exact hDp.trans (D.setPort_onPort n _)
    · rw [hf hv]
      exact (hDp.trans (D.setPort_onPort n _)).trans (Dev.portFault_onPort _ n 2 j)
  · rw [h1 hl]
    exact .refl n d

theorem Dev.frameTurn_onTdm (d : Dev) : Dev.OnTdm d d.frameTurn := by
  refine .foldl _ (fun e n hn => ?_) d
  split
  · exact (e.portMove_onPort n).onTdm (List.mem_range.mp hn)
  · exact .refl e

theorem Dev.portsLost_onTdm (d : Dev) : Dev.OnTdm d d.portsLost :=
  d.frameTurn_onTdm.trans (.foldl _ (fun d n hn => (d.portLost_onPort n d.frameNow).onTdm (List.mem_range.mp hn)) _)

/-- No port of the frames begun waits to move. -/
theorem Dev.frameTurn_moved (d : Dev) {n : Nat} (hn : n < 16) : (d.frameTurn.port n).moving.any (decide <| · < d.frameNow) = false := by
  have hstep : ∀ (d : Dev) (j n : Nat), Dev.OnPort n d (if (d.port n).moving.any (decide <| · < j) then d.portMove n else d) := fun d j n => by
    split
    · exact d.portMove_onPort n
    · exact .refl n d
  obtain ⟨e, -, -, h3, -⟩ := foldl_range_own (f := fun (e : Dev) n => if (e.port n).moving.any (decide <| · < d.frameNow) then e.portMove n else e) Dev.tdmGlob Dev.portPart 16 (fun e i hi => (hstep e d.frameNow i).glob hi)
    (fun e i j hi hj hne => (hstep e d.frameNow i).part hne) d hn
  have hp := (Prod.mk.inj h3).1
  rw [Dev.frameTurn, Dev.portMoves, hp]
  split
  case isTrue => rw [e.portMove_port n]; rfl
  case isFalse h => simpa using h

/-- Port `n` after the ports have been told of a change of the synthesizers in frame `j` (R268, R270). -/
structure Dev.PortTold (F D : Dev) (n j : Nat) : Prop where
  keeps : ¬ F.portLoses n → D.portPart n = F.portPart n
  cuts : F.portLoses n → (D.port n).cuts.any (·.1 == j) = true
  moves : F.portLoses n → F.portMoves? n → (D.port n).moving = some j ∧ D.word (Reg.TDM_PSTAT_STATE n).addr = F.word (Reg.TDM_PSTAT_STATE n).addr
  faults : F.portLoses n → ¬ F.portMoves? n → (D.port n).moving = none ∧ D.rd (Reg.TDM_PSTAT_STATE n) = 3

theorem Dev.portLost_told (d : Dev) {n : Nat} (hn : n < 16) (j : Nat) : Dev.PortTold d (d.portLost n j true) n j := by
  obtain ⟨h1, h2⟩ := d.portLost_cases n j
  refine ⟨fun hl => by rw [h1 hl], fun hl => ?_, fun hl hv => ?_, fun hl hv => ?_⟩ <;> obtain ⟨D, hD, hp, hm, hf⟩ := h2 hl
  · by_cases hv : d.portMoves? n
    · rw [hm hv, D.port_setPort, if_pos rfl, hp]
      exact (d.port n).cutAt_any j d.ns
    · rw [hf hv, Dev.portFault_port, if_pos rfl, D.port_setPort, if_pos rfl, hp]
      exact (d.port n).cutAt_any j d.ns
  · rw [hm hv, D.port_setPort, if_pos rfl]
    refine ⟨rfl, ?_⟩
    obtain rfl | rfl := hD <;> rfl
  · rw [hf hv]
    refine ⟨by rw [Dev.portFault_port, if_pos rfl, D.port_setPort, if_pos rfl]; rfl, ((D.setPort n { D.port n with moving := none }).portFault_faults ⟨n, hn⟩ 2 j).2.1⟩

theorem Dev.portLoses_congr {d D : Dev} (h : D.tdmGlob = d.tdmGlob) {n : Nat} (hn : n < 16) (hp : D.portPart n = d.portPart n) :
    (D.portLoses n ↔ d.portLoses n) ∧ (D.portMoves? n ↔ d.portMoves? n) := by
  have h1 : D.rd (Reg.TDM_PCFG_ROLE n) = d.rd (Reg.TDM_PCFG_ROLE n) := Dev.tdmGlob_rd h (pcfg_notin hn)
  have h2 : D.rd (Reg.TDM_PCFG_XFAIL n) = d.rd (Reg.TDM_PCFG_XFAIL n) := Dev.tdmGlob_rd h (pcfg_notin hn)
  have hlt := d.portSyn_lt n
  unfold Dev.portLoses Dev.portMoves?
  rw [Dev.portPart_rd hp (g := Reg.TDM_PSTAT_STATE n) rfl, h1, h2, Dev.portSyn_congr h hn hp, Dev.tdmLocked_congr h hlt,
    Dev.tdmLocked_congr h (by omega : 1 - d.portSyn n < 2)]
  exact ⟨Iff.rfl, Iff.rfl⟩

/-- Each port reacts as it stands once the frames up to now have begun. -/
theorem Dev.portsLost_told (d : Dev) {n : Nat} (hn : n < 16) : Dev.PortTold d.frameTurn d.portsLost n d.frameNow := by
  obtain ⟨e, hg, hp, h3, -⟩ := foldl_range_own (f := fun (d : Dev) n => d.portLost n d.frameNow true) Dev.tdmGlob Dev.portPart 16
    (fun e i hi => (e.portLost_onPort i e.frameNow).glob hi) (fun e i j hi hj hne => (e.portLost_onPort i e.frameNow).part hne) d.frameTurn hn
  have hj : e.frameNow = d.frameNow := (Dev.frameNow_congr hg).trans (Dev.frameNow_congr d.frameTurn_onTdm.glob)
  obtain ⟨k1, k2, k3, k4⟩ := e.portLost_told hn e.frameNow
  obtain ⟨hl, hv⟩ := Dev.portLoses_congr hg hn hp
  rw [hl, hj] at k1 k2 k3 k4
  rw [hv] at k3 k4
  have hpart : d.portsLost.portPart n = (e.portLost n d.frameNow true).portPart n := by rw [← hj]; exact h3
  obtain ⟨hport, hword⟩ := Prod.mk.inj hpart
  refine ⟨fun h => hpart.trans ((k1 h).trans hp), fun h => hport ▸ k2 h, fun h h' => ?_, fun h h' => ?_⟩
  · obtain ⟨m1, m2⟩ := k3 h h'
    exact ⟨(congrArg PortS.moving hport).trans m1, hword.trans (m2.trans (Prod.mk.inj hp).2)⟩
  · obtain ⟨m1, m2⟩ := k4 h h'
    exact ⟨(congrArg PortS.moving hport).trans m1, (Dev.rd_of_word (f := Reg.TDM_PSTAT_STATE n) hword).trans m2⟩

theorem pcfg_side {n : Nat} (hn : n < 16) : tdmSide (Reg.TDM_PCFG_SYN n).addr ∧ tdmSide (Reg.TDM_PSTAT_STATE n).addr := by
  obtain ⟨h1, h2⟩ := (show ∀ n : Fin 16, (0xD000 ≤ (Reg.TDM_PCFG_SYN n).addr ∧ (Reg.TDM_PCFG_SYN n).addr < 0xE000) ∧
    (0xD000 ≤ (Reg.TDM_PSTAT_STATE n).addr ∧ (Reg.TDM_PSTAT_STATE n).addr < 0xE000) by decide) ⟨n, hn⟩
  exact ⟨h1, h2⟩

theorem Dev.Alike.portSyn {d D : Dev} (h : Dev.Alike tdmSide d D) {n : Nat} (hn : n < 16) : D.portSyn n = d.portSyn n := by
  obtain ⟨h1, h2⟩ := pcfg_side hn
  rw [Dev.portSyn, h.rd h1, h.rd (g := Reg.TDM_PSTAT_ONSYN n) h2, Dev.portSyn]

theorem Dev.tdmLocked_of_syn {d D : Dev} (h : Dev.OnTdm d D) {x : Nat} (hx : x < 2) : D.tdmLocked x = d.tdmLocked x := Dev.tdmLocked_congr h.glob hx

/-- The ports of `t` stand as they do once they have been told of what befell the synthesizers of `E`, which is to the ports as `d` was. -/
theorem portsFollow_of {d E : Dev} {t : State} (h : Dev.Alike tdmSide d E) (hr : E.nSamples = d.nSamples) (hport : ∀ n, n < 16 → t.dev.port n = E.portsLost.port n)
    (hword : ∀ n, n < 16 → t.dev.word (Reg.TDM_PSTAT_STATE n).addr = E.portsLost.word (Reg.TDM_PSTAT_STATE n).addr)
    (hlock : ∀ x, x < 2 → t.dev.tdmLocked x = E.tdmLocked x) : PortsFollow d.frameTurn t := by
  intro n hn hst hrole x
  have hF := h.frameTurn hr
  obtain ⟨sc, ss⟩ := pcfg_side hn
  have hj : d.frameTurn.frameNow = E.frameNow := (Dev.frameNow_congr d.frameTurn_onTdm.glob).trans (h.frameNow hr).symm
  have hx : x < 2 := d.frameTurn.portSyn_lt n
  have hsyn : E.frameTurn.portSyn n = x := hF.portSyn hn
  have hlk : ∀ y, y < 2 → E.frameTurn.tdmLocked y = t.dev.tdmLocked y := fun y hy => (Dev.tdmLocked_of_syn E.frameTurn_onTdm hy).trans (hlock y hy).symm
  have hloses : E.frameTurn.portLoses n ↔ t.dev.tdmLocked x = false := by
    have h1 : E.frameTurn.rd (Reg.TDM_PSTAT_STATE n) = 2 := (hF.rd (g := Reg.TDM_PSTAT_STATE n) ss).trans hst
    have h2 : E.frameTurn.rd (Reg.TDM_PCFG_ROLE n) = 0 := (hF.rd (g := Reg.TDM_PCFG_ROLE n) sc).trans hrole
    rw [Dev.portLoses, h1, h2, hsyn, hlk x hx]
    simp
  have hmoves : E.frameTurn.portMoves? n ↔ d.frameTurn.rd (Reg.TDM_PCFG_XFAIL n) = 1 ∧ t.dev.tdmLocked (1 - x) = true := by
    have h2 : E.frameTurn.rd (Reg.TDM_PCFG_XFAIL n) = d.frameTurn.rd (Reg.TDM_PCFG_XFAIL n) := hF.rd sc
    rw [Dev.portMoves?, h2, hsyn, hlk (1 - x) (by omega)]
  have hstays : t.dev.word (Reg.TDM_PSTAT_STATE n).addr = E.frameTurn.word (Reg.TDM_PSTAT_STATE n).addr →
      t.dev.rd (Reg.TDM_PSTAT_STATE n) = 2 ∧ t.dev.rd (Reg.TDM_PSTAT_ONSYN n) = d.frameTurn.rd (Reg.TDM_PSTAT_ONSYN n) := fun he => by
    have hw := he.trans (hF.word _ ss)
    exact ⟨(Dev.rd_of_word (f := Reg.TDM_PSTAT_STATE n) hw).trans hst, Dev.rd_of_word (f := Reg.TDM_PSTAT_ONSYN n) hw⟩
  obtain ⟨k1, k2, k3, k4⟩ := E.portsLost_told hn
  rw [hloses] at k1 k2 k3 k4
  rw [hmoves] at k3 k4
  refine ⟨fun hl => ?_, fun hl => ⟨?_, fun hxf hl' => ?_, fun hc => ?_⟩⟩
  · obtain ⟨hp, hw⟩ := Prod.mk.inj (k1 (by rw [hl]; decide))
    exact ⟨hstays ((hword n hn).trans hw), (hport n hn).trans (hp.trans (hF.port n))⟩
  · rw [hport n hn, hj]
    exact k2 hl
  · obtain ⟨m1, m2⟩ := k3 hl ⟨hxf, hl'⟩
    exact ⟨hstays ((hword n hn).trans m2), by rw [hport n hn, hj]; exact m1⟩
  · obtain ⟨m1, m2⟩ := k4 hl (by rintro ⟨h1, h2⟩; obtain h | h := hc <;> simp_all)
    exact ⟨(Dev.rd_of_word (f := Reg.TDM_PSTAT_STATE n) (hword n hn)).trans m2, by rw [hport n hn]; exact m1⟩

/-- Port `n` needs no further word of the loss: it moves with the frame in progress, or does not lose its synthesizer. -/
def Dev.portSettled (d : Dev) (n : Nat) : Prop :=
  (d.port n).moving.any (decide <| · < d.frameNow) = false ∧
  (d.portLoses n → d.portMoves? n ∧ (d.port n).cuts.any (·.1 == d.frameNow) = true ∧ (d.port n).moving = some d.frameNow)

theorem Dev.portsLost_settled (d : Dev) {n : Nat} (hn : n < 16) : d.portsLost.portSettled n := by
  obtain ⟨k1, k2, k3, k4⟩ := d.portsLost_told hn
  have hg : d.portsLost.tdmGlob = d.frameTurn.tdmGlob := d.portsLost_onTdm.glob.trans d.frameTurn_onTdm.glob.symm
  have hj : d.portsLost.frameNow = d.frameNow := Dev.frameNow_congr d.portsLost_onTdm.glob
  by_cases hl : d.frameTurn.portLoses n
  · by_cases hv : d.frameTurn.portMoves? n
    · obtain ⟨m1, m2⟩ := k3 hl hv
      rw [Dev.portSettled, hj, m1]
      refine ⟨by simp, fun _ => ⟨?_, k2 hl, rfl⟩⟩
      have h1 : d.portsLost.portSyn n = d.frameTurn.portSyn n := by
        have a : d.portsLost.rd (Reg.TDM_PSTAT_ONSYN n) = d.frameTurn.rd (Reg.TDM_PSTAT_ONSYN n) := Dev.rd_of_word (f := Reg.TDM_PSTAT_ONSYN n) m2
        have b : d.portsLost.rd (Reg.TDM_PCFG_SYN n) = d.frameTurn.rd (Reg.TDM_PCFG_SYN n) := Dev.tdmGlob_rd hg (pcfg_notin hn)
        rw [Dev.portSyn, a, b, Dev.portSyn]
      have h2 : d.portsLost.rd (Reg.TDM_PCFG_XFAIL n) = d.frameTurn.rd (Reg.TDM_PCFG_XFAIL n) := Dev.tdmGlob_rd hg (pcfg_notin hn)
      rw [Dev.portMoves?, h1, h2, Dev.tdmLocked_congr hg (by omega)]
      exact hv
    · obtain ⟨m1, m2⟩ := k4 hl hv
      refine ⟨by rw [m1]; rfl, fun hc => ?_⟩
      have := hc.1
      omega
  · have hp := k1 hl
    obtain ⟨c1, -⟩ := Dev.portLoses_congr hg hn hp
    refine ⟨?_, fun hc => absurd (c1.mp hc) hl⟩
    rw [(Prod.mk.inj hp).1, hj]
    exact d.frameTurn_moved hn

theorem Dev.portSettled_congr {d D : Dev} (h : Dev.Alike tdmSide d D) (hr : D.nSamples = d.nSamples) (hl : ∀ x, x < 2 → D.tdmLocked x = d.tdmLocked x) {n : Nat} (hn : n < 16)
    (hd : d.portSettled n) : D.portSettled n := by
  obtain ⟨sc, ss⟩ := pcfg_side hn
  have h1 : D.rd (Reg.TDM_PSTAT_STATE n) = d.rd (Reg.TDM_PSTAT_STATE n) := h.rd ss
  have h2 : D.rd (Reg.TDM_PCFG_ROLE n) = d.rd (Reg.TDM_PCFG_ROLE n) := h.rd sc
  have h3 : D.rd (Reg.TDM_PCFG_XFAIL n) = d.rd (Reg.TDM_PCFG_XFAIL n) := h.rd sc
  have hx := d.portSyn_lt n
  unfold Dev.portSettled Dev.portLoses Dev.portMoves? at hd ⊢
  rw [h.port, h.frameNow hr, h1, h2, h3, h.portSyn hn, hl _ hx, hl _ (by omega)]
  exact hd

/-- `D` is `d`, but for the place of the ports' own values. -/
def Dev.PortsSame (d D : Dev) : Prop := (∃ T, D = { d with tdm := T }) ∧ ∀ m, D.port m = d.port m

theorem Dev.PortsSame.refl (d : Dev) : Dev.PortsSame d d := ⟨⟨d.tdm, rfl⟩, fun _ => rfl⟩

theorem Dev.PortsSame.trans {d d' D : Dev} (h : Dev.PortsSame d d') (h' : Dev.PortsSame d' D) : Dev.PortsSame d D := by
  obtain ⟨⟨T, rfl⟩, hp⟩ := h
  obtain ⟨⟨T', rfl⟩, hp'⟩ := h'
  exact ⟨⟨T', rfl⟩, fun m => (hp' m).trans (hp m)⟩

theorem Dev.setPort_same {d : Dev} {n : Nat} {x : PortS} (hx : x = d.port n) : Dev.PortsSame d (d.setPort n x) := by
  refine ⟨⟨_, rfl⟩, fun m => (d.port_setPort n m x).trans ?_⟩
  split
  case isTrue he => rw [hx, he]
  case isFalse => rfl

theorem Dev.PortsSame.settled {d D : Dev} (h : Dev.PortsSame d D) {n : Nat} (hd : d.portSettled n) : D.portSettled n := by
  obtain ⟨⟨T, hT⟩, hp⟩ := h
  have hw : ∀ g, D.rd g = d.rd g := fun g => by rw [hT]; rfl
  have hj : D.frameNow = d.frameNow := by rw [hT]; rfl
  unfold Dev.portSettled Dev.portLoses Dev.portMoves? Dev.portSyn Dev.tdmLocked Dev.on at hd ⊢
  simp only [hw, hp, hj]
  exact hd

theorem Dev.portLost_same {d : Dev} {n : Nat} (hs : d.portSettled n) : Dev.PortsSame d (d.portLost n d.frameNow true) := by
  obtain ⟨h1, h2⟩ := d.portLost_cases n d.frameNow
  by_cases hl : d.portLoses n
  · obtain ⟨hv, hc, hm⟩ := hs.2 hl
    obtain ⟨D, hD, hDp, hmv, -⟩ := h2 hl
    have hcut : (d.port n).cutAt d.frameNow d.ns = d.port n := by
      unfold PortS.cutAt
      rw [if_neg]
      simpa using hc
    rw [hcut] at hD hDp
    rw [hmv hv]
    have hDd : Dev.PortsSame d D := by
      obtain rfl | rfl := hD
      · exact .refl _
      · exact Dev.setPort_same rfl
    refine hDd.trans (Dev.setPort_same ?_)
    rw [hDp, ← hm]
  · rw [h1 hl]
    exact .refl d

/-- Ports that need no further word keep all they hold. -/
theorem Dev.portsLost_still {d : Dev} (h : ∀ n, n < 16 → d.portSettled n) : Dev.PortsSame d d.portsLost := by
  have hturn : d.frameTurn = d := by
    unfold Dev.frameTurn Dev.portMoves
    refine foldl_still _ fun n hn => ?_
    rw [(h n (List.mem_range.mp hn)).1]
    rfl
  have hstep : ∀ l : List Nat, (∀ n ∈ l, n < 16) → ∀ e, Dev.PortsSame d e → Dev.PortsSame d (l.foldl (fun d n => d.portLost n d.frameNow true) e) := by
    intro l hl
    induction l with
    | nil => exact fun e he => he
    | cons n l ih =>
      intro e he
      exact ih (fun m hm => hl m (List.mem_cons_of_mem n hm)) _ (he.trans (Dev.portLost_same (he.settled (h n (hl n List.mem_cons_self)))))
  unfold Dev.portsLost
  rw [hturn]
  exact hstep _ (fun n hn => List.mem_range.mp hn) d (.refl d)

/-! ### Clock outputs -/

theorem Dev.synGated_eq (d : Dev) (x : Nat) : d.synGated x = (d.syns x).gated := by
  unfold Dev.synGated Dev.syns
  split <;> rfl

theorem Dev.clkSyn_lt (d : Dev) (y : Nat) : d.clkSyn y < 2 := Nat.mod_lt _ (by decide)

/-- CLKOUT `y` leaves its synthesizer for the other (R390). -/
def Dev.clkMoves (d : Dev) (y : Nat) : Prop :=
  let c := d.clkSyn y
  d.rd Reg.OUT_CFG_ENABLE = 1 ∧ d.rd (Reg.OUT_CLK_CFG_XFAIL y) = 1 ∧ d.synGated c = true ∧ d.synGated (1 - c) = false ∧
  d.rd (Reg.SYNX_STAT_LOCK (1 - c)) = 1 ∧ d.rd (Reg.SYNX_STAT_UNALIGNED (1 - c)) = 0 ∧ d.rd (Reg.SYNX_CFG_PLAN c) = d.rd (Reg.SYNX_CFG_PLAN (1 - c))

/-- CLKOUT `y` once it has moved. -/
def Dev.clkMoved (d : Dev) (y : Nat) : Dev :=
  (((d.wr (Reg.OUT_CLK_STAT_ONSYN y) (1 - d.rd (Reg.OUT_CLK_STAT_ONSYN y))).flag Reg.OUT_STATUS_XFEV).count (Reg.OUT_CLK_XFCNT_COUNT y)
    Reg.OUT_STATUS_CNT_HALF).post 18 1 (y + (1 - d.clkSyn y) * 2 ^ 8)

theorem Dev.clkLost_cases (d : Dev) (y : Nat) : (d.clkMoves y → d.clkLost y = d.clkMoved y) ∧ (¬ d.clkMoves y → d.clkLost y = d) := by
  have hdef : d.clkLost y = if d.on Reg.OUT_CFG_ENABLE && d.synGated (d.clkSyn y) && d.on (Reg.OUT_CLK_CFG_XFAIL y) && !d.synGated (1 - d.clkSyn y)
      && d.on (Reg.SYNX_STAT_LOCK (1 - d.clkSyn y)) && d.rd (Reg.SYNX_CFG_PLAN (1 - d.clkSyn y)) == d.rd (Reg.SYNX_CFG_PLAN (d.clkSyn y))
      && !d.on (Reg.SYNX_STAT_UNALIGNED (1 - d.clkSyn y)) then d.clkMoved y else d := rfl
  have hc : (d.on Reg.OUT_CFG_ENABLE && d.synGated (d.clkSyn y) && d.on (Reg.OUT_CLK_CFG_XFAIL y) && !d.synGated (1 - d.clkSyn y)
      && d.on (Reg.SYNX_STAT_LOCK (1 - d.clkSyn y)) && d.rd (Reg.SYNX_CFG_PLAN (1 - d.clkSyn y)) == d.rd (Reg.SYNX_CFG_PLAN (d.clkSyn y))
      && !d.on (Reg.SYNX_STAT_UNALIGNED (1 - d.clkSyn y))) = true ↔ d.clkMoves y := by
    unfold Dev.clkMoves
    simp only [Bool.and_eq_true, Dev.on_true_iff, Bool.not_eq_true', d.on_false_iff (f := Reg.SYNX_STAT_UNALIGNED (1 - d.clkSyn y)) rfl, beq_iff_eq]
    constructor
    · rintro ⟨⟨⟨⟨⟨⟨h1, h2⟩, h3⟩, h4⟩, h5⟩, h6⟩, h7⟩
      exact ⟨h1, h3, h2, h4, h5, h7, h6.symm⟩
    · rintro ⟨h1, h3, h2, h4, h5, h7, h6⟩
      exact ⟨⟨⟨⟨⟨⟨h1, h2⟩, h3⟩, h4⟩, h5⟩, h6.symm⟩, h7⟩
  exact ⟨fun h => hdef.trans (if_pos (hc.mpr h)), fun h => hdef.trans (if_neg fun hx => h (hc.mp hx))⟩

def clkWords : List Nat :=
  Reg.OUT_STATUS_XFEV.addr :: (List.range 8).flatMap fun y => [(Reg.OUT_CLK_STAT_ONSYN y).addr, (Reg.OUT_CLK_XFCNT_COUNT y).addr]

/-- Only the words at `ws` and the posted events change. -/
structure Dev.Shows (ws : List Nat) (d D : Dev) : Prop where
  only : D = { d with live := D.live, evq := D.evq }
  word : ∀ a, a ∉ ws → D.word a = d.word a

section
variable {ws vs : List Nat} {d d' D : Dev}

theorem Dev.Shows.refl (ws : List Nat) (d : Dev) : Dev.Shows ws d d := ⟨rfl, fun _ _ => rfl⟩

theorem Dev.Shows.trans (h : Dev.Shows ws d d') (h' : Dev.Shows ws d' D) : Dev.Shows ws d D := by
  refine ⟨?_, fun a ha => (h'.word a ha).trans (h.word a ha)⟩
  rw [h'.only, h.only]

theorem Dev.Shows.mono (h : Dev.Shows ws d D) (hs : ∀ a ∈ ws, a ∈ vs) : Dev.Shows vs d D := ⟨h.only, fun a ha => h.word a fun hw => ha (hs a hw)⟩

theorem Dev.Shows.wr (h : Dev.Shows ws d D) {f : Fld} (v : Nat) (hf : f.addr ∈ ws) : Dev.Shows ws d (D.wr f v) :=
  h.trans ⟨rfl, fun _ ha => Dev.word_wr_ne D f v _ fun he => ha (he ▸ hf)⟩

theorem Dev.Shows.post (h : Dev.Shows ws d D) (a b c : Nat) : Dev.Shows ws d (D.post a b c) := h.trans ⟨rfl, fun _ _ => rfl⟩

theorem Dev.Shows.count (h : Dev.Shows ws d D) {c half : Fld} (k : Nat) (hc : c.addr ∈ ws) (hh : half.addr ∈ ws) : Dev.Shows ws d (D.count c half k) := by
  unfold Dev.count
  dsimp only
  split
  · exact h.wr _ hc
  · exact (h.wr _ hc).wr 1 hh

theorem Dev.Shows.rd (h : Dev.Shows ws d D) {g : Fld} (hg : g.addr ∉ ws) : D.rd g = d.rd g := Dev.rd_of_word (h.word _ hg)

theorem Dev.Shows.syn (h : Dev.Shows ws d D) : D.syn = d.syn := by rw [h.only]
theorem Dev.Shows.tdm (h : Dev.Shows ws d D) : D.tdm = d.tdm := by rw [h.only]
theorem Dev.Shows.ns (h : Dev.Shows ws d D) : D.ns = d.ns := by rw [h.only]
theorem Dev.Shows.tick (h : Dev.Shows ws d D) : D.tick = d.tick := by rw [h.only]

theorem Dev.Shows.outs (h : Dev.Shows ws d D) : Dev.Outs ws d D := by
  refine ⟨?_, h.word⟩
  rw [h.only]

theorem Dev.Shows.foldl {β : Type} {f : Dev → β → Dev} (l : List β) (hf : ∀ d, ∀ i ∈ l, Dev.Shows ws d (f d i)) (d : Dev) : Dev.Shows ws d (l.foldl f d) := by
  induction l generalizing d with
  | nil => exact .refl ws d
  | cons i l ih => exact (hf d i List.mem_cons_self).trans (ih (fun d j hj => hf d j (List.mem_cons_of_mem i hj)) (f d i))

end

/-- The words of CLKOUT `y`, with the block's status. -/
def clkOwn (y : Nat) : List Nat := [(Reg.OUT_CLK_STAT_ONSYN y).addr, (Reg.OUT_CLK_XFCNT_COUNT y).addr, Reg.OUT_STATUS_XFEV.addr]

theorem clkOwn_sub {y : Nat} (hy : y < 8) : ∀ a ∈ clkOwn y, a ∈ clkWords := (show ∀ y : Fin 8, ∀ a ∈ clkOwn y, a ∈ clkWords by decide) ⟨y, hy⟩

theorem Dev.clkLost_shows (d : Dev) (y : Nat) : Dev.Shows (clkOwn y) d (d.clkLost y) := by
  obtain ⟨h1, h2⟩ := d.clkLost_cases y
  by_cases h : d.clkMoves y
  · rw [h1 h]
    exact ((((Dev.Shows.refl _ d).wr _ (by simp [clkOwn])).wr 1 (by simp [clkOwn])).count 1 (by simp [clkOwn])
      (by simp [clkOwn, Reg.OUT_STATUS_XFEV, Reg.OUT_STATUS_CNT_HALF])).post ..
  · rw [h2 h]
    exact .refl _ d

theorem Dev.clksLost_shows (d : Dev) : Dev.Shows clkWords d d.clksLost :=
  .foldl _ (fun d y hy => (d.clkLost_shows y).mono (clkOwn_sub (List.mem_range.mp hy))) d

/-- What a CLKOUT's move depends on beside its own words. -/
def Dev.clkGlob (d : Dev) : Syn × (Nat → Word) := (d.syn, fun a => if a ∈ clkWords then 0 else d.word a)
def Dev.clkPart (y : Nat) (d : Dev) : Word × Word := (d.word (Reg.OUT_CLK_STAT_ONSYN y).addr, d.word (Reg.OUT_CLK_XFCNT_COUNT y).addr)

theorem Dev.Shows.clkGlob {d D : Dev} {ws : List Nat} (h : Dev.Shows ws d D) (hs : ∀ a ∈ ws, a ∈ clkWords) : D.clkGlob = d.clkGlob := by
  unfold Dev.clkGlob
  rw [h.syn]
  refine congrArg (fun w => (d.syn, w)) (funext fun a => ?_)
  split
  case isTrue => rfl
  case isFalse ht => exact h.word a fun ha => ht (hs a ha)

theorem Dev.Shows.clkPart {d D : Dev} {y z : Nat} (h : Dev.Shows (clkOwn y) d D) (hz : z ≠ y) : D.clkPart z = d.clkPart z := by
  unfold Dev.clkPart
  rw [h.word, h.word] <;>
  simp only [clkOwn, List.mem_cons, List.not_mem_nil, or_false, not_or, Reg.OUT_CLK_STAT_ONSYN, Reg.OUT_CLK_XFCNT_COUNT, Reg.OUT_STATUS_XFEV] <;>
  omega

theorem Dev.clkGlob_rd {d D : Dev} (h : D.clkGlob = d.clkGlob) {g : Fld} (hg : g.addr ∉ clkWords) : D.rd g = d.rd g := by
  refine Dev.rd_of_word ?_
  have := congrFun (Prod.mk.inj h).2 g.addr
  simpa only [if_neg hg] using this

theorem Dev.clkMoves_congr {d D : Dev} (h : D.clkGlob = d.clkGlob) {y : Nat} (hy : y < 8) (hp : D.clkPart y = d.clkPart y) :
    D.clkSyn y = d.clkSyn y ∧ (D.clkMoves y ↔ d.clkMoves y) := by
  obtain ⟨c1, c2⟩ := (show ∀ y : Fin 8, (Reg.OUT_CLK_CFG_SYN y).addr ∉ clkWords ∧ (Reg.OUT_CLK_CFG_XFAIL y).addr ∉ clkWords by decide) ⟨y, hy⟩
  have hsyn : D.clkSyn y = d.clkSyn y := by
    rw [Dev.clkSyn, Dev.clkGlob_rd h c1, Dev.rd_of_word (f := Reg.OUT_CLK_STAT_ONSYN y) (Prod.mk.inj hp).1, Dev.clkSyn]
  have hst : ∀ x, x < 2 → (Reg.SYNX_STAT_LOCK x).addr ∉ clkWords ∧ (Reg.SYNX_STAT_UNALIGNED x).addr ∉ clkWords ∧ (Reg.SYNX_CFG_PLAN x).addr ∉ clkWords :=
    fun x hx => (show ∀ x : Fin 2, (Reg.SYNX_STAT_LOCK x).addr ∉ clkWords ∧ (Reg.SYNX_STAT_UNALIGNED x).addr ∉ clkWords ∧
      (Reg.SYNX_CFG_PLAN x).addr ∉ clkWords by decide) ⟨x, hx⟩
  have hg : ∀ x, D.synGated x = d.synGated x := fun x => by rw [Dev.synGated, (Prod.mk.inj h).1, Dev.synGated]
  have hc := d.clkSyn_lt y
  obtain ⟨s1, s2, s3⟩ := hst (1 - d.clkSyn y) (by omega)
  obtain ⟨-, -, s4⟩ := hst _ hc
  refine ⟨hsyn, ?_⟩
  unfold Dev.clkMoves
  dsimp only
  rw [hsyn, hg, hg, Dev.clkGlob_rd h c2, Dev.clkGlob_rd h s1, Dev.clkGlob_rd h s2, Dev.clkGlob_rd h s3, Dev.clkGlob_rd h s4,
    Dev.clkGlob_rd h (g := Reg.OUT_CFG_ENABLE) (by decide)]

theorem Dev.clkMoved_shows (d : Dev) {y : Nat} (hy : y < 8) : (d.clkMoved y).clkSyn y = 1 - d.clkSyn y ∧
    (d.clkMoved y).rd (Reg.OUT_CLK_XFCNT_COUNT y) = (d.rd (Reg.OUT_CLK_XFCNT_COUNT y) + 1) % 2 ^ 32 := by
  obtain ⟨o1, o2, s1, s2, s4, s5⟩ := (show ∀ y : Fin 8, (Reg.OUT_CLK_STAT_ONSYN y).ok = true ∧ (Reg.OUT_CLK_XFCNT_COUNT y).ok = true ∧
    Fld.clear [Reg.OUT_STATUS_XFEV, Reg.OUT_CLK_XFCNT_COUNT y, Reg.OUT_STATUS_CNT_HALF] (Reg.OUT_CLK_STAT_ONSYN y) = true ∧
    Fld.clear [Reg.OUT_CLK_STAT_ONSYN y, Reg.OUT_STATUS_XFEV, Reg.OUT_CLK_XFCNT_COUNT y, Reg.OUT_STATUS_CNT_HALF] (Reg.OUT_CLK_CFG_SYN y) = true ∧
    Fld.clear [Reg.OUT_CLK_STAT_ONSYN y, Reg.OUT_STATUS_XFEV] (Reg.OUT_CLK_XFCNT_COUNT y) = true ∧
    Reg.OUT_STATUS_CNT_HALF.apart (Reg.OUT_CLK_XFCNT_COUNT y) = true by decide) ⟨y, hy⟩
  simp only at o1 o2 s1 s2 s4 s5
  have h1 : d.rd (Reg.OUT_CLK_STAT_ONSYN y) < 2 := d.rd_lt (Reg.OUT_CLK_STAT_ONSYN y)
  have h2 : d.rd (Reg.OUT_CLK_CFG_SYN y) < 2 := d.rd_lt (Reg.OUT_CLK_CFG_SYN y)
  set A := d.wr (Reg.OUT_CLK_STAT_ONSYN y) (1 - d.rd (Reg.OUT_CLK_STAT_ONSYN y)) with hA
  have aA := d.wr_acts (Reg.OUT_CLK_STAT_ONSYN y) (1 - d.rd (Reg.OUT_CLK_STAT_ONSYN y)) o1
  have vA : A.rd (Reg.OUT_CLK_STAT_ONSYN y) = 1 - d.rd (Reg.OUT_CLK_STAT_ONSYN y) :=
    d.rd_wr_lt _ _ o1 (show 1 - d.rd (Reg.OUT_CLK_STAT_ONSYN y) < 2 by omega)
  have aB := A.flag_acts Reg.OUT_STATUS_XFEV rfl
  set B := A.flag Reg.OUT_STATUS_XFEV with hB
  have aC := B.count_acts (Reg.OUT_CLK_XFCNT_COUNT y) Reg.OUT_STATUS_CNT_HALF 1 o2 rfl
  have vC := B.rd_count (Reg.OUT_CLK_XFCNT_COUNT y) Reg.OUT_STATUS_CNT_HALF 1 o2 rfl s5
  have hdef : d.clkMoved y = (B.count (Reg.OUT_CLK_XFCNT_COUNT y) Reg.OUT_STATUS_CNT_HALF).post 18 1 (y + (1 - d.clkSyn y) * 2 ^ 8) := rfl
  rw [hdef]
  generalize B.count (Reg.OUT_CLK_XFCNT_COUNT y) Reg.OUT_STATUS_CNT_HALF = C at aC vC
  have aBC : Dev.Acts [Reg.OUT_STATUS_XFEV, Reg.OUT_CLK_XFCNT_COUNT y, Reg.OUT_STATUS_CNT_HALF] [] A C := (aB.mono (by simp)).then (aC.mono (by simp))
  have aAC : Dev.Acts [Reg.OUT_CLK_STAT_ONSYN y, Reg.OUT_STATUS_XFEV, Reg.OUT_CLK_XFCNT_COUNT y, Reg.OUT_STATUS_CNT_HALF] [] d C :=
    (aA.mono (by simp)).then (aBC.mono (by simp +contextual))
  have aAB : Dev.Acts [Reg.OUT_CLK_STAT_ONSYN y, Reg.OUT_STATUS_XFEV] [] d B := (aA.mono (by simp)).then (aB.mono (by simp))
  have k1 : C.rd (Reg.OUT_CLK_STAT_ONSYN y) = 1 - d.rd (Reg.OUT_CLK_STAT_ONSYN y) := (aBC.rd s1).trans vA
  have k2 : C.rd (Reg.OUT_CLK_CFG_SYN y) = d.rd (Reg.OUT_CLK_CFG_SYN y) := aAC.rd s2
  refine ⟨?_, ?_⟩
  · change C.clkSyn y = _
    rw [Dev.clkSyn, k1, k2, Dev.clkSyn]
    omega
  · exact vC.trans (by rw [aAB.rd s4]; rfl)

theorem Dev.clkMoved_xfev (d : Dev) (y : Nat) : (d.clkMoved y).rd Reg.OUT_STATUS_XFEV = 1 := by
  have hc : Fld.clear [Reg.OUT_CLK_XFCNT_COUNT y, Reg.OUT_STATUS_CNT_HALF] Reg.OUT_STATUS_XFEV = true := by
    simp only [Fld.clear, List.all_cons, List.all_nil, Reg.OUT_CLK_XFCNT_COUNT, Reg.OUT_STATUS_CNT_HALF, Reg.OUT_STATUS_XFEV]
    simp
    omega
  exact ((Dev.count_acts _ (Reg.OUT_CLK_XFCNT_COUNT y) Reg.OUT_STATUS_CNT_HALF 1 rfl rfl).rd hc).trans (Dev.rd_flag _ Reg.OUT_STATUS_XFEV rfl)

/-- CLKOUT `y` after the outputs have been told of a gated synthesizer (R390). -/
theorem Dev.clksLost_told (d : Dev) {y : Nat} (hy : y < 8) :
    (d.clkMoves y → d.clksLost.clkSyn y = 1 - d.clkSyn y ∧ d.clksLost.rd Reg.OUT_STATUS_XFEV = 1 ∧
      d.clksLost.rd (Reg.OUT_CLK_XFCNT_COUNT y) = (d.rd (Reg.OUT_CLK_XFCNT_COUNT y) + 1) % 2 ^ 32) ∧
    (¬ d.clkMoves y → d.clksLost.clkPart y = d.clkPart y) := by
  obtain ⟨e, hg, hp, h3, l, hl⟩ := foldl_range_own (f := Dev.clkLost) Dev.clkGlob Dev.clkPart 8
    (fun e i hi => (e.clkLost_shows i).clkGlob (clkOwn_sub hi)) (fun e i j hi hj hne => (e.clkLost_shows i).clkPart hne) d hy
  obtain ⟨h1, h2⟩ := e.clkLost_cases y
  obtain ⟨hsyn, hm⟩ := Dev.clkMoves_congr hg hy hp
  rw [hm] at h1 h2
  refine ⟨fun h => ?_, fun h => h3.trans (by rw [h2 h]; exact hp)⟩
  rw [h1 h] at h3 hl
  obtain ⟨v1, v3⟩ := e.clkMoved_shows hy
  have hgD : d.clksLost.clkGlob = (e.clkMoved y).clkGlob := by
    rw [← h1 h]
    exact (d.clksLost_shows.clkGlob fun _ => id).trans (hg.symm.trans ((e.clkLost_shows y).clkGlob (clkOwn_sub hy)).symm)
  refine ⟨((Dev.clkMoves_congr hgD hy h3).1).trans (v1.trans (by rw [hsyn])), ?_, ?_⟩
  · unfold Dev.clksLost
    rw [hl]
    refine foldl_preserves (P := fun D : Dev => D.rd Reg.OUT_STATUS_XFEV = 1) l (fun D z hD => ?_) (e.clkMoved_xfev y)
    obtain ⟨c1, c2⟩ := D.clkLost_cases z
    by_cases hz : D.clkMoves z
    · rw [c1 hz]
      exact D.clkMoved_xfev z
    · rw [c2 hz]
      exact hD
  · refine (Dev.rd_of_word (f := Reg.OUT_CLK_XFCNT_COUNT y) (Prod.mk.inj h3).2).trans (v3.trans ?_)
    rw [Dev.rd_of_word (f := Reg.OUT_CLK_XFCNT_COUNT y) (Prod.mk.inj hp).2]

/-- No CLKOUT moves where both synthesizers are gated. -/
theorem Dev.clksLost_still {d : Dev} (h : ∀ x, x < 2 → d.synGated x = true) : d.clksLost = d := by
  refine foldl_still _ fun y _ => (d.clkLost_cases y).2 fun hm => ?_
  obtain ⟨-, -, -, h4, -⟩ := hm
  have hc := d.clkSyn_lt y
  rw [h _ (by omega)] at h4
  cases h4

/-- The CLKOUTs of `t` stand as they do once they have been told of what befell the synthesizers of `E`. -/
theorem clocksFollow_of {s t : State} {E : Dev} (hg : ∀ x, x < 2 → (t.dev.syns x).gated = E.synGated x)
    (hl : ∀ x, x < 2 → t.dev.rd (Reg.SYNX_STAT_LOCK x) = E.rd (Reg.SYNX_STAT_LOCK x) ∧ t.dev.rd (Reg.SYNX_STAT_UNALIGNED x) = E.rd (Reg.SYNX_STAT_UNALIGNED x) ∧
      E.rd (Reg.SYNX_CFG_PLAN x) = s.dev.rd (Reg.SYNX_CFG_PLAN x))
    (hs : ∀ a, 0x18000 ≤ a → a < 0x18200 → E.word a = s.dev.word a)
    (ht : ∀ a, 0x18000 ≤ a → a < 0x18200 → t.dev.word a = E.clksLost.word a) : ClocksFollow s t ∧ ∀ y, y < 8 → (ClockMoves s t y ↔ E.clkMoves y) := by
  refine forall₂_and.mp fun y hy => ?_
  have hout := (show ∀ y : Fin 8, ∀ f ∈ [Reg.OUT_CLK_CFG_SYN y, Reg.OUT_CLK_STAT_ONSYN y, Reg.OUT_CLK_XFCNT_COUNT y, Reg.OUT_CLK_CFG_XFAIL y, Reg.OUT_CFG_ENABLE,
    Reg.OUT_STATUS_XFEV], 0x18000 ≤ f.addr ∧ f.addr < 0x18200 by decide) ⟨y, hy⟩
  simp only [List.mem_cons, List.not_mem_nil, or_false, forall_eq_or_imp, forall_eq] at hout
  obtain ⟨⟨a1, b1⟩, ⟨a2, b2⟩, ⟨a3, b3⟩, ⟨a4, b4⟩, ⟨a5, b5⟩, ⟨a6, b6⟩⟩ := hout
  have hsyn : E.clkSyn y = s.dev.clkSyn y := by
    rw [Dev.clkSyn, Dev.rd_of_word (hs _ a1 b1), Dev.rd_of_word (hs _ a2 b2), Dev.clkSyn]
  have hsynt : t.dev.clkSyn y = E.clksLost.clkSyn y := by
    rw [Dev.clkSyn, Dev.rd_of_word (ht _ a1 b1), Dev.rd_of_word (ht _ a2 b2), Dev.clkSyn]
  have hc := s.dev.clkSyn_lt y
  have hmoves : ClockMoves s t y ↔ E.clkMoves y := by
    obtain ⟨l1, l2, l3⟩ := hl (1 - s.dev.clkSyn y) (by omega)
    obtain ⟨-, -, l4⟩ := hl _ hc
    unfold ClockMoves Dev.clkMoves
    dsimp only
    rw [hsyn, hg _ hc, hg _ (by omega), l1, l2, l3, l4, Dev.rd_of_word (hs _ a4 b4), Dev.rd_of_word (hs _ a5 b5)]
  have hx : t.dev.rd (Reg.OUT_CLK_XFCNT_COUNT y) = E.clksLost.rd (Reg.OUT_CLK_XFCNT_COUNT y) := Dev.rd_of_word (ht _ a3 b3)
  have hx0 : E.rd (Reg.OUT_CLK_XFCNT_COUNT y) = s.dev.rd (Reg.OUT_CLK_XFCNT_COUNT y) := Dev.rd_of_word (hs _ a3 b3)
  obtain ⟨k1, k2⟩ := E.clksLost_told hy
  refine ⟨?_, hmoves⟩
  rw [hmoves]
  refine ⟨fun h => ?_, fun h => ?_⟩
  · obtain ⟨v1, v2, v3⟩ := k1 h
    exact ⟨by rw [hsynt, v1, hsyn], (Dev.rd_of_word (f := Reg.OUT_STATUS_XFEV) (ht _ a6 b6)).trans v2, by rw [hx, v3, hx0]⟩
  · obtain ⟨v1, v2⟩ := Prod.mk.inj (k2 h)
    exact ⟨Dev.rd_of_word (f := Reg.OUT_CLK_STAT_ONSYN y) ((ht _ a2 b2).trans (v1.trans (hs _ a2 b2))),
      hx.trans ((Dev.rd_of_word (f := Reg.OUT_CLK_XFCNT_COUNT y) v2).trans hx0)⟩

/-! ### Pulse outputs -/

theorem Dev.pulse_setPulse (d : Dev) (p q : Nat) (v : PulseS) : (d.setPulse p v).pulse q = if q = p then v else d.pulse q := by
  simp only [Dev.pulse, Dev.setPulse, Sparse.get_put, eq_comm]

def pulseWords : List Nat := (List.range 4).map fun p => (Reg.OUT_FP_STAT_STATE p).addr

/-- Only the pulse outputs in `ps` change. -/
structure Dev.OnPulses (ps : List Nat) (d D : Dev) : Prop where
  only : D = { d with live := D.live, syn := { d.syn with fp := D.syn.fp } }
  word : ∀ a, a ∉ ps.map (fun p => (Reg.OUT_FP_STAT_STATE p).addr) → D.word a = d.word a
  pulse : ∀ q, q ∉ ps → D.pulse q = d.pulse q

section
variable {ps : List Nat} {d d' D : Dev}

theorem Dev.OnPulses.refl (ps : List Nat) (d : Dev) : Dev.OnPulses ps d d := ⟨rfl, fun _ _ => rfl, fun _ _ => rfl⟩

theorem Dev.OnPulses.trans (h : Dev.OnPulses ps d d') (h' : Dev.OnPulses ps d' D) : Dev.OnPulses ps d D := by
  refine ⟨?_, fun a ha => (h'.word a ha).trans (h.word a ha), fun q hq => (h'.pulse q hq).trans (h.pulse q hq)⟩
  rw [h'.only, h.only]

theorem Dev.OnPulses.mono {qs : List Nat} (h : Dev.OnPulses ps d D) (hs : ∀ p ∈ ps, p ∈ qs) : Dev.OnPulses qs d D :=
  ⟨h.only, fun a ha => h.word a fun hm => ha (List.map_subset _ hs hm), fun q hq => h.pulse q fun hm => hq (hs q hm)⟩

theorem Dev.OnPulses.foldl {f : Dev → Nat → Dev} (hf : ∀ d i, i ∈ ps → Dev.OnPulses ps d (f d i)) {l : List Nat} (hl : ∀ i ∈ l, i ∈ ps) (d : Dev) :
    Dev.OnPulses ps d (l.foldl f d) := by
  induction l generalizing d with
  | nil => exact .refl ps d
  | cons i l ih => exact (hf d i (hl i List.mem_cons_self)).trans (ih (fun j hj => hl j (List.mem_cons_of_mem i hj)) (f d i))

theorem Dev.OnPulses.rd (h : Dev.OnPulses ps d D) {g : Fld} (hg : g.addr ∉ ps.map (fun p => (Reg.OUT_FP_STAT_STATE p).addr)) : D.rd g = d.rd g :=
  Dev.rd_of_word (h.word _ hg)

theorem Dev.OnPulses.syns (h : Dev.OnPulses ps d D) (x : Nat) : D.syns x = d.syns x := by
  rw [h.only]
  rfl

theorem Dev.OnPulses.synGated (h : Dev.OnPulses ps d D) (x : Nat) : D.synGated x = d.synGated x := by
  rw [h.only]
  rfl

theorem Dev.OnPulses.timeNs (h : Dev.OnPulses ps d D) : D.timeNs = d.timeNs := by
  rw [h.only]
  rfl

end

theorem Dev.wr_onPulses (d : Dev) (p v : Nat) : Dev.OnPulses [p] d (d.wr (Reg.OUT_FP_STAT_STATE p) v) :=
  ⟨rfl, fun a ha => d.word_wr_ne _ v a fun he => ha (by simp [he]), fun _ _ => rfl⟩

theorem Dev.setPulse_onPulses (d : Dev) (p : Nat) (v : PulseS) : Dev.OnPulses [p] d (d.setPulse p v) :=
  ⟨rfl, fun _ _ => rfl, fun q hq => (d.pulse_setPulse p q v).trans (if_neg (by simpa using hq))⟩

/-- Pulse output `p` as its synthesizer `x` is gated or resumes. -/
def Dev.pulseGate (d : Dev) (x : Nat) (gated : Bool) (p : Nat) : Dev :=
  let st := d.rd (Reg.OUT_FP_STAT_STATE p)
  if d.rd (Reg.OUT_FP_CFG_SYN p) = x then
    if gated ∧ st = 2 then d.wr (Reg.OUT_FP_STAT_STATE p) 3
    else if !gated ∧ st = 3 then d.pulseBegin p
    else d
  else d

theorem Dev.pulsesGate_eq (d : Dev) (x : Nat) (gated : Bool) : d.pulsesGate x gated = (List.range 4).foldl (fun d p => d.pulseGate x gated p) d := rfl

theorem Dev.pulseGate_onPulses (d : Dev) (x : Nat) (gated : Bool) (p : Nat) : Dev.OnPulses [p] d (d.pulseGate x gated p) := by
  unfold Dev.pulseGate Dev.pulseBegin
  dsimp only
  split_ifs
  · exact d.wr_onPulses p 3
  · exact d.wr_onPulses p 3
  · exact (d.setPulse_onPulses p _).trans (Dev.wr_onPulses _ p 2)
  · exact .refl _ d
  · exact .refl _ d

theorem Dev.pulsesGate_onPulses (d : Dev) (x : Nat) (gated : Bool) : Dev.OnPulses (List.range 4) d (d.pulsesGate x gated) := by
  rw [Dev.pulsesGate_eq]
  exact .foldl (fun e p hp => (e.pulseGate_onPulses x gated p).mono (by simpa using hp)) (fun _ hi => hi) d

/-- The state of a pulse output of synthesizer `x` once that is gated or has resumed. -/
def pulseNow (gated : Bool) (old : Nat) : Nat := if gated = true ∧ old = 2 then 3 else if gated = false ∧ old = 3 then 2 else old

/-- Pulse output `p` of `D`, which was in `d` as its synthesizer is gated or has resumed (R395). -/
structure Dev.PulseTold (d D : Dev) (p now : Nat) : Prop where
  state : D.rd (Reg.OUT_FP_STAT_STATE p) = now
  pulse : D.pulse p = if now = 2 ∧ d.rd (Reg.OUT_FP_STAT_STATE p) = 3 then { d.pulse p with since := d.timeNs } else d.pulse p
  anchored : D.rd (Reg.OUT_FP_STAT_ANCHORED p) = d.rd (Reg.OUT_FP_STAT_ANCHORED p)

theorem Dev.PulseTold.refl (d : Dev) (p : Nat) : Dev.PulseTold d d p (d.rd (Reg.OUT_FP_STAT_STATE p)) :=
  ⟨rfl, by rw [if_neg]; omega, rfl⟩

theorem Dev.pulseGate_told (d : Dev) {x : Nat} {gated : Bool} (hx : d.synGated x = gated) (p : Nat) :
    Dev.PulseTold d (d.pulseGate x gated p) p
      (if d.rd (Reg.OUT_FP_CFG_SYN p) = x then pulseNow gated (d.rd (Reg.OUT_FP_STAT_STATE p)) else d.rd (Reg.OUT_FP_STAT_STATE p)) := by
  have hsep : (Reg.OUT_FP_STAT_STATE p).sep (Reg.OUT_FP_STAT_ANCHORED p) = true := by simp [Fld.sep, Fld.ok, Reg.OUT_FP_STAT_STATE, Reg.OUT_FP_STAT_ANCHORED]
  have hwr : ∀ (e : Dev) (v : Nat), v < 4 → (e.wr (Reg.OUT_FP_STAT_STATE p) v).rd (Reg.OUT_FP_STAT_STATE p) = v := fun e v hv => e.rd_wr_lt _ v rfl hv
  have hw3 : d.rd (Reg.OUT_FP_STAT_STATE p) = 2 → Dev.PulseTold d (d.wr (Reg.OUT_FP_STAT_STATE p) 3) p 3 := fun h =>
    ⟨hwr d 3 (by decide), by rw [if_neg (by omega)]; rfl, d.rd_wr_sep _ _ _ hsep⟩
  unfold Dev.pulseGate pulseNow
  dsimp only
  by_cases hs : d.rd (Reg.OUT_FP_CFG_SYN p) = x
  · rw [if_pos hs, if_pos hs]
    cases gated with
    | true =>
      by_cases h2 : d.rd (Reg.OUT_FP_STAT_STATE p) = 2
      · simp only [h2, and_self, if_true]
        exact hw3 h2
      · simp only [h2, and_false, if_false, Bool.not_true, Bool.false_eq_true, Bool.true_eq_false, false_and]
        exact .refl d p
    | false =>
      by_cases h3 : d.rd (Reg.OUT_FP_STAT_STATE p) = 3
      · simp only [h3, and_self, if_true, Bool.not_false, Bool.false_eq_true, false_and, if_false]
        rw [Dev.pulseBegin, hs, hx, if_neg (by decide)]
        refine ⟨hwr _ 2 (by decide), ?_, (Dev.rd_wr_sep _ _ _ _ hsep).trans rfl⟩
        rw [if_pos ⟨rfl, h3⟩]
        exact (d.pulse_setPulse p p _).trans (if_pos rfl)
      · simp only [h3, and_false, if_false, Bool.false_eq_true, false_and]
        exact .refl d p
  · rw [if_neg hs, if_neg hs]
    exact .refl d p

/-- What a pulse output's reaction depends on beside its own part. -/
def Dev.pulseGlob (d : Dev) : Syn × Nat × (Nat → Word) := ({ d.syn with fp := [] }, d.timeNs, fun a => if a ∈ pulseWords then 0 else d.word a)
def Dev.pulsePart (p : Nat) (d : Dev) : PulseS × Word := (d.pulse p, d.word (Reg.OUT_FP_STAT_STATE p).addr)

theorem Dev.OnPulses.glob {d D : Dev} {p : Nat} (h : Dev.OnPulses [p] d D) (hp : p < 4) : D.pulseGlob = d.pulseGlob := by
  have hs : ({ D.syn with fp := [] } : Syn) = { d.syn with fp := [] } := by rw [h.only]
  unfold Dev.pulseGlob
  rw [hs, h.timeNs]
  refine congrArg (fun w => (_, d.timeNs, w)) (funext fun a => ?_)
  split
  case isTrue => rfl
  case isFalse ht =>
    refine h.word a fun ha => ht ?_
    rw [List.map_singleton, List.mem_singleton] at ha
    rw [ha]
    exact List.mem_map_of_mem (List.mem_range.mpr hp)

theorem Dev.OnPulses.part {d D : Dev} {p q : Nat} (h : Dev.OnPulses [p] d D) (hq : q ≠ p) : D.pulsePart q = d.pulsePart q := by
  unfold Dev.pulsePart
  rw [h.pulse q (by simpa using hq), h.word]
  simp only [List.map_singleton, List.mem_singleton, Reg.OUT_FP_STAT_STATE]
  omega

/-- Each pulse output as `pulsesGate` leaves it. -/
theorem Dev.pulsesGate_told (d : Dev) {x : Nat} {gated : Bool} (hx : d.synGated x = gated) {p : Nat} (hp : p < 4) :
    Dev.PulseTold d (d.pulsesGate x gated) p
      (if d.rd (Reg.OUT_FP_CFG_SYN p) = x then pulseNow gated (d.rd (Reg.OUT_FP_STAT_STATE p)) else d.rd (Reg.OUT_FP_STAT_STATE p)) := by
  obtain ⟨e, hg, hpt, h3, -⟩ := foldl_range_own (f := fun (d : Dev) p => d.pulseGate x gated p) Dev.pulseGlob Dev.pulsePart 4
    (fun e i hi => (e.pulseGate_onPulses x gated i).glob hi) (fun e i j hi hj hne => (e.pulseGate_onPulses x gated i).part hne) d hp
  obtain ⟨g1, g2, g3⟩ := (Prod.mk.inj hg).imp id Prod.mk.inj
  obtain ⟨p1, p2⟩ := Prod.mk.inj hpt
  have hcfg : e.rd (Reg.OUT_FP_CFG_SYN p) = d.rd (Reg.OUT_FP_CFG_SYN p) := by
    refine Dev.rd_of_word ?_
    have := congrFun g3 (Reg.OUT_FP_CFG_SYN p).addr
    have hn : (Reg.OUT_FP_CFG_SYN p).addr ∉ pulseWords := (show ∀ p : Fin 4, (Reg.OUT_FP_CFG_SYN p).addr ∉ pulseWords by decide) ⟨p, hp⟩
    simpa only [if_neg hn] using this
  have hst : e.rd (Reg.OUT_FP_STAT_STATE p) = d.rd (Reg.OUT_FP_STAT_STATE p) := Dev.rd_of_word p2
  have hga : e.synGated x = gated := by
    have ga := congrArg Syn.a g1
    have gb := congrArg Syn.b g1
    have ha : e.syn.a = d.syn.a := ga
    have hb : e.syn.b = d.syn.b := gb
    rw [← hx, Dev.synGated, Dev.synGated, ha, hb]
  obtain ⟨k1, k2, k3⟩ := e.pulseGate_told hga p
  rw [hcfg, hst] at k1 k2
  obtain ⟨r1, r2⟩ := Prod.mk.inj h3
  rw [← d.pulsesGate_eq x gated] at r1 r2
  refine ⟨(Dev.rd_of_word (f := Reg.OUT_FP_STAT_STATE p) r2).trans k1, ?_, ?_⟩
  · rw [r1, k2, p1, g2]
  · exact (Dev.rd_of_word (f := Reg.OUT_FP_STAT_ANCHORED p) r2).trans (k3.trans (Dev.rd_of_word (f := Reg.OUT_FP_STAT_ANCHORED p) p2))

end Sys2Proof.Machine
end

section
/-! Gating, relocks and the attempts of a synthesizer (R373, R378 to R385), and what follows it (R268, R390, R395). -/
namespace Sys2Proof.Machine
open Sys2Proof.Claims

/-! ### The outputs told of a gated synthesizer -/

/-- The outputs of `D` have followed the synthesizers of `d`; the pulse outputs of those in `hit` are held, or run again. -/
structure Dev.Reacted (hit : Nat → Prop) (gated : Bool) (d D : Dev) : Prop where
  outs : Dev.Outs (outputWords ++ tdmWords) d D
  syn : D.syn = { d.syn with fp := D.syn.fp }
  port : ∀ m, D.port m = d.portsLost.port m
  tdm : ∀ a, tdmSide a → D.word a = d.portsLost.word a
  clk : ∀ a, 0x18000 ≤ a → a < 0x18200 → D.word a = d.portsLost.clksLost.word a
  pulse : ∀ p, p < 4 → (hit (d.rd (Reg.OUT_FP_CFG_SYN p)) → Dev.PulseTold d D p (pulseNow gated (d.rd (Reg.OUT_FP_STAT_STATE p)))) ∧
    (¬ hit (d.rd (Reg.OUT_FP_CFG_SYN p)) → Dev.PulseTold d D p (d.rd (Reg.OUT_FP_STAT_STATE p)))

theorem Dev.pulse_congr {d D : Dev} (h : D.syn.fp = d.syn.fp) (p : Nat) : D.pulse p = d.pulse p := by rw [Dev.pulse, h, Dev.pulse]

theorem Dev.PulseTold.of_base {d e D : Dev} {p now : Nat} (h : Dev.PulseTold e D p now) (hs : e.word (Reg.OUT_FP_STAT_STATE p).addr = d.word (Reg.OUT_FP_STAT_STATE p).addr)
    (hp : e.pulse p = d.pulse p) (ht : e.timeNs = d.timeNs) : Dev.PulseTold d D p now := by
  refine ⟨h.state, ?_, h.anchored.trans (Dev.rd_of_word (f := Reg.OUT_FP_STAT_ANCHORED p) hs)⟩
  rw [h.pulse, hp, ht, Dev.rd_of_word (f := Reg.OUT_FP_STAT_STATE p) hs]

theorem Dev.PulseTold.then_still {d D D' : Dev} {p now : Nat} (h : Dev.PulseTold d D p now) (h' : Dev.PulseTold D D' p (D.rd (Reg.OUT_FP_STAT_STATE p))) :
    Dev.PulseTold d D' p now := by
  refine ⟨h'.state.trans h.state, ?_, h'.anchored.trans h.anchored⟩
  rw [h'.pulse, if_neg (by omega), h.pulse]

theorem Dev.PulseTold.still_then {d D D' : Dev} {p now : Nat} (h : Dev.PulseTold d D p (d.rd (Reg.OUT_FP_STAT_STATE p))) (h' : Dev.PulseTold D D' p now)
    (ht : D.timeNs = d.timeNs) : Dev.PulseTold d D' p now := by
  have hp := h.pulse
  rw [if_neg (by omega)] at hp
  refine ⟨h'.state, ?_, h'.anchored.trans h.anchored⟩
  rw [h'.pulse, h.state, hp, ht]

/-- The words of the pulse outputs lie apart from those of the CLKOUTs and the ports. -/
theorem fp_apart {p : Nat} (hp : p < 4) : ∀ a ∈ [(Reg.OUT_FP_STAT_STATE p).addr, (Reg.OUT_FP_CFG_SYN p).addr], a ∉ clkWords ∧ a ∉ tdmWords :=
  (show ∀ p : Fin 4, ∀ a ∈ [(Reg.OUT_FP_STAT_STATE p).addr, (Reg.OUT_FP_CFG_SYN p).addr], a ∉ clkWords ∧ a ∉ tdmWords by decide) ⟨p, hp⟩

theorem clkWords_out : ∀ a ∈ clkWords, a ∈ outputWords ∧ 0x18000 ≤ a ∧ a < 0x18200 := by decide
theorem pulseWords_out : ∀ a ∈ pulseWords, a ∈ outputWords ∧ 0x18200 ≤ a ∧ a < 0x19000 := by decide
theorem tdmWords_range : ∀ a ∈ tdmWords, 0xD000 ≤ a ∧ a < 0xE000 := by decide

theorem tdmSide_out {a : Nat} (h : tdmSide a) : a ∉ clkWords ∧ a ∉ pulseWords := by
  refine ⟨fun hc => ?_, fun hc => ?_⟩
  · have := clkWords_out a hc
    unfold tdmSide at h
    omega
  · have := pulseWords_out a hc
    unfold tdmSide at h
    omega

theorem Dev.gateReact_reacted (d : Dev) {x : Nat} (hx : d.synGated x = true) : Dev.Reacted (· = x) true d (d.gateReact x) := by
  have h1 := d.portsLost_onTdm
  have hC := d.portsLost.clksLost_shows
  have hD := d.portsLost.clksLost.pulsesGate_onPulses x true
  have hsynC : d.portsLost.clksLost.syn = d.syn := hC.syn.trans h1.syn
  have hgC : d.portsLost.clksLost.synGated x = true := by rw [Dev.synGated, hsynC]; exact hx
  have htime : d.portsLost.clksLost.timeNs = d.timeNs := hC.outs.timeNs.trans h1.outs.timeNs
  have hgo : d.gateReact x = d.portsLost.clksLost.pulsesGate x true := rfl
  have htold := fun p hp => d.portsLost.clksLost.pulsesGate_told hgC (p := p) hp
  rw [hgo]
  generalize d.portsLost.clksLost.pulsesGate x true = D at hD htold
  have hPD : Dev.Outs (outputWords ++ tdmWords) d.portsLost.clksLost D := by
    refine ⟨?_, fun a ha => hD.word a fun hm => ha (List.mem_append_left _ (pulseWords_out a hm).1)⟩
    rw [hD.only]
  refine ⟨((h1.outs.mono (by simp +contextual)).trans (hC.outs.mono fun a ha => List.mem_append_left _ (clkWords_out a ha).1)).trans hPD, ?_, fun m => ?_,
    fun a ha => ?_, fun a ha hb => ?_, fun p hp => ?_⟩
  · have hs : D.syn = { d.portsLost.clksLost.syn with fp := D.syn.fp } := congrArg Dev.syn hD.only
    rw [hsynC] at hs
    exact hs
  · refine Dev.port_congr ?_ m
    have ht : D.tdm = d.portsLost.clksLost.tdm := by rw [hD.only]
    exact ht.trans hC.tdm
  · obtain ⟨o1, o2⟩ := tdmSide_out ha
    exact (hD.word a o2).trans (hC.word a o1)
  · exact hD.word a fun hm => by
      have := pulseWords_out a hm
      omega
  · have hap := fp_apart hp
    simp only [List.mem_cons, List.not_mem_nil, or_false, forall_eq_or_imp, forall_eq] at hap
    obtain ⟨⟨a1, a2⟩, ⟨a3, a4⟩⟩ := hap
    have hst : d.portsLost.clksLost.word (Reg.OUT_FP_STAT_STATE p).addr = d.word (Reg.OUT_FP_STAT_STATE p).addr := (hC.word _ a1).trans (h1.outs.word _ a2)
    have hcfg : d.portsLost.clksLost.rd (Reg.OUT_FP_CFG_SYN p) = d.rd (Reg.OUT_FP_CFG_SYN p) := Dev.rd_of_word ((hC.word _ a3).trans (h1.outs.word _ a4))
    have hpu : d.portsLost.clksLost.pulse p = d.pulse p := Dev.pulse_congr (congrArg Syn.fp hsynC) p
    have := htold p hp
    rw [hcfg, Dev.rd_of_word (f := Reg.OUT_FP_STAT_STATE p) hst] at this
    refine ⟨fun h => ?_, fun h => ?_⟩
    · rw [if_pos h] at this
      exact this.of_base hst hpu htime
    · rw [if_neg h] at this
      exact this.of_base hst hpu htime

/-- Once both synthesizers are gated, the outputs of the second one only hold its pulses. -/
theorem Dev.Reacted.again {hit : Nat → Prop} {d D : Dev} (h : Dev.Reacted hit true d D) (hg : ∀ y, y < 2 → d.synGated y = true) {x : Nat} (hx : x < 2)
    (hn : ¬ hit x) : Dev.Reacted (fun y => hit y ∨ y = x) true d (D.gateReact x) := by
  have hgD : ∀ y, D.synGated y = d.synGated y := fun y => by rw [Dev.synGated, h.syn, Dev.synGated]
  have hlk : ∀ y, y < 2 → D.tdmLocked y = d.portsLost.tdmLocked y := fun y hy => by
    obtain ⟨s1, s2, s3⟩ := (show ∀ y : Fin 2, (Reg.SYNX_STAT_LOCK y).addr ∉ outputWords ++ tdmWords ∧ (Reg.SYNX_CFG_PLAN y).addr ∉ outputWords ++ tdmWords ∧
      (Reg.SYNX_STAT_LOCK y).addr ∉ tdmWords by decide) ⟨y, hy⟩
    have hl : D.tdmLocked y = d.tdmLocked y := by rw [Dev.tdmLocked, Dev.on, h.outs.rd s1, h.outs.rd s2, Dev.tdmLocked, Dev.on]
    exact hl.trans (Dev.tdmLocked_of_syn d.portsLost_onTdm hy).symm
  have hal : Dev.Alike tdmSide d.portsLost D := ⟨h.port, h.outs.ns.trans d.portsLost_onTdm.outs.ns.symm, h.tdm⟩
  have hrate : D.nSamples = d.portsLost.nSamples :=
    Dev.nSamples_congr ((h.outs.word _ (by decide)).trans (d.portsLost_onTdm.outs.word _ (by decide)).symm)
  obtain ⟨⟨T, hT⟩, hp⟩ := Dev.portsLost_still (d := D) fun n hn => Dev.portSettled_congr hal hrate hlk hn (d.portsLost_settled hn)
  have hR := D.gateReact_reacted (x := x) ((hgD x).trans (hg x hx))
  have hck : D.portsLost.clksLost = D.portsLost := Dev.clksLost_still fun y hy => by
    rw [hT]
    exact (hgD y).trans (hg y hy)
  have hw : ∀ a, D.portsLost.word a = D.word a := fun a => by rw [hT]; rfl
  have htime := h.outs.timeNs
  refine ⟨h.outs.trans hR.outs, ?_, fun m => (hR.port m).trans ((hp m).trans (h.port m)), fun a ha => (hR.tdm a ha).trans ((hw a).trans (h.tdm a ha)),
    fun a ha hb => (hR.clk a ha hb).trans (by rw [hck, hw, h.clk a ha hb]), fun p hp => ?_⟩
  · have hs := hR.syn
    rw [h.syn] at hs
    exact hs
  · obtain ⟨h1, h2⟩ := h.pulse p hp
    obtain ⟨r1, r2⟩ := hR.pulse p hp
    have hcfg : D.rd (Reg.OUT_FP_CFG_SYN p) = d.rd (Reg.OUT_FP_CFG_SYN p) :=
      h.outs.rd ((show ∀ p : Fin 4, (Reg.OUT_FP_CFG_SYN p).addr ∉ outputWords ++ tdmWords by decide) ⟨p, hp⟩)
    rw [hcfg] at r1 r2
    refine ⟨fun ho => ?_, fun hno => ?_⟩
    · by_cases hh : hit (d.rd (Reg.OUT_FP_CFG_SYN p))
      · exact (h1 hh).then_still (r2 fun he => hn (he ▸ hh))
      · have := (h2 hh).still_then (r1 (ho.resolve_left hh)) htime
        rwa [(h2 hh).state] at this
    · obtain ⟨n1, n2⟩ := not_or.mp hno
      exact (h2 n1).then_still (r2 n2)

/-- The pulse outputs of `t` stand as those of `D`, which have followed the synthesizers in `hit` (R395). -/
theorem pulsesFollow_of {hit : Nat → Prop} {gated : Bool} {E D : Dev} {s t : State}
    (h : ∀ p, p < 4 → (hit (E.rd (Reg.OUT_FP_CFG_SYN p)) → Dev.PulseTold E D p (pulseNow gated (E.rd (Reg.OUT_FP_STAT_STATE p)))) ∧
      (¬ hit (E.rd (Reg.OUT_FP_CFG_SYN p)) → Dev.PulseTold E D p (E.rd (Reg.OUT_FP_STAT_STATE p))))
    (hs : ∀ a, 0x18000 ≤ a → a < 0x19000 → E.word a = s.dev.word a) (hfp : E.syn.fp = s.dev.syn.fp)
    (ht : ∀ a, 0x18200 ≤ a → a < 0x19000 → t.dev.word a = D.word a) (htfp : t.dev.syn.fp = D.syn.fp)
    (htime : t.dev.timeNs = E.timeNs) : PulsesFollow s t hit gated := by
  intro p hp
  obtain ⟨h1, h2⟩ := h p hp
  obtain ⟨⟨c1, b1⟩, ⟨a2, b2⟩⟩ := (show ∀ p : Fin 4, (0x18200 ≤ (Reg.OUT_FP_STAT_STATE p).addr ∧ (Reg.OUT_FP_STAT_STATE p).addr < 0x19000) ∧
    (0x18000 ≤ (Reg.OUT_FP_CFG_SYN p).addr ∧ (Reg.OUT_FP_CFG_SYN p).addr < 0x19000) by decide) ⟨p, hp⟩
  have a1 : 0x18000 ≤ (Reg.OUT_FP_STAT_STATE p).addr := Nat.le_trans (by decide) c1
  have hst : E.rd (Reg.OUT_FP_STAT_STATE p) = s.dev.rd (Reg.OUT_FP_STAT_STATE p) := Dev.rd_of_word (hs _ a1 b1)
  have han : E.rd (Reg.OUT_FP_STAT_ANCHORED p) = s.dev.rd (Reg.OUT_FP_STAT_ANCHORED p) := Dev.rd_of_word (hs _ a1 b1)
  have hcfg : E.rd (Reg.OUT_FP_CFG_SYN p) = s.dev.rd (Reg.OUT_FP_CFG_SYN p) := Dev.rd_of_word (hs _ a2 b2)
  have hts : t.dev.rd (Reg.OUT_FP_STAT_STATE p) = D.rd (Reg.OUT_FP_STAT_STATE p) := Dev.rd_of_word (ht _ c1 b1)
  have hta : t.dev.rd (Reg.OUT_FP_STAT_ANCHORED p) = D.rd (Reg.OUT_FP_STAT_ANCHORED p) := Dev.rd_of_word (ht _ c1 b1)
  rw [hst, hcfg] at h1 h2
  have hany : ∀ now, Dev.PulseTold E D p now → t.dev.rd (Reg.OUT_FP_STAT_STATE p) = now ∧
      t.dev.pulse p = (if t.dev.rd (Reg.OUT_FP_STAT_STATE p) = 2 ∧ s.dev.rd (Reg.OUT_FP_STAT_STATE p) = 3 then { s.dev.pulse p with since := t.dev.timeNs } else s.dev.pulse p) ∧
      t.dev.rd (Reg.OUT_FP_STAT_ANCHORED p) = s.dev.rd (Reg.OUT_FP_STAT_ANCHORED p) := fun now k => by
    refine ⟨hts.trans k.state, ?_, hta.trans (k.anchored.trans han)⟩
    rw [Dev.pulse_congr htfp, k.pulse, hts, k.state, hst, htime, Dev.pulse_congr hfp]
  by_cases hh : hit (s.dev.rd (Reg.OUT_FP_CFG_SYN p))
  · obtain ⟨v1, v2, v3⟩ := hany _ (h1 hh)
    exact ⟨fun _ => v1, fun hn => absurd hh hn, v2, v3⟩
  · obtain ⟨v1, v2, v3⟩ := hany _ (h2 hh)
    exact ⟨fun hc => absurd hc hh, fun _ => v1, v2, v3⟩

/-- Ports, clock and pulse outputs in `t`, where those of `D` have followed the synthesizers of `E`, which had come from `d` as the ports see it. -/
theorem Dev.Reacted.follow {hit : Nat → Prop} {gated : Bool} {d E D : Dev} {s t : State} (h : Dev.Reacted hit gated E D) (hal : Dev.Alike tdmSide d E)
    (hr : E.nSamples = d.nSamples)
    (hs : ∀ a, 0x18000 ≤ a → a < 0x19000 → E.word a = s.dev.word a) (hfp : E.syn.fp = s.dev.syn.fp)
    (hplan : ∀ x, x < 2 → E.rd (Reg.SYNX_CFG_PLAN x) = s.dev.rd (Reg.SYNX_CFG_PLAN x))
    (ht : ∀ a, 0x18000 ≤ a ∧ a < 0x19000 ∨ tdmSide a → t.dev.word a = D.word a) (htfp : t.dev.syn.fp = D.syn.fp) (htdm : t.dev.tdm = D.tdm)
    (htime : t.dev.timeNs = E.timeNs) (hgt : ∀ x, x < 2 → (t.dev.syns x).gated = E.synGated x)
    (hlk : ∀ x, x < 2 → t.dev.rd (Reg.SYNX_STAT_LOCK x) = E.rd (Reg.SYNX_STAT_LOCK x) ∧ t.dev.rd (Reg.SYNX_STAT_UNALIGNED x) = E.rd (Reg.SYNX_STAT_UNALIGNED x) ∧
      t.dev.rd (Reg.SYNX_CFG_PLAN x) = E.rd (Reg.SYNX_CFG_PLAN x)) :
    PortsFollow d.frameTurn t ∧ (ClocksFollow s t ∧ ∀ y, y < 8 → (ClockMoves s t y ↔ E.portsLost.clkMoves y)) ∧ PulsesFollow s t hit gated := by
  refine ⟨portsFollow_of hal hr (fun n hn => (Dev.port_congr htdm n).trans (h.port n)) (fun n hn => ?_) (fun x hx => ?_), ?_,
    pulsesFollow_of h.pulse hs hfp (fun a ha hb => ht a (.inl ⟨by omega, hb⟩)) htfp htime⟩
  · have := (pcfg_side hn).2
    exact (ht _ (.inr this)).trans (h.tdm _ this)
  · obtain ⟨l1, -, l3⟩ := hlk x hx
    rw [Dev.tdmLocked, Dev.on, l1, l3, Dev.tdmLocked, Dev.on]
  · have hP := E.portsLost_onTdm
    have hnt : ∀ x, x < 2 → (Reg.SYNX_STAT_LOCK x).addr ∉ tdmWords ∧ (Reg.SYNX_CFG_PLAN x).addr ∉ tdmWords := fun x hx =>
      (show ∀ x : Fin 2, (Reg.SYNX_STAT_LOCK x).addr ∉ tdmWords ∧ (Reg.SYNX_CFG_PLAN x).addr ∉ tdmWords by decide) ⟨x, hx⟩
    refine clocksFollow_of (E := E.portsLost) (fun x hx => ?_) (fun x hx => ?_) (fun a ha hb => ?_) fun a ha hb => ?_
    · rw [hgt x hx, Dev.synGated, ← hP.syn, Dev.synGated]
    · obtain ⟨l1, l2, l3⟩ := hlk x hx
      obtain ⟨n1, n2⟩ := hnt x hx
      have n1' : (Reg.SYNX_STAT_UNALIGNED x).addr ∉ tdmWords := n1
      exact ⟨l1.trans (hP.outs.rd n1).symm, l2.trans (hP.outs.rd n1').symm, (hP.outs.rd n2).trans (hplan x hx)⟩
    · refine (hP.outs.word a fun hm => ?_).trans (hs a ha (by omega))
      have := tdmWords_range a hm
      omega
    · exact (ht a (.inl ⟨ha, by omega⟩)).trans (h.clk a ha hb)

end Sys2Proof.Machine
end

section
/-! The steps of a synthesizer: gating, attempts, relocks (R378 to R385). -/
namespace Sys2Proof.Machine
open Sys2Proof.Claims

/-! ### The two synthesizers' own state -/

def Syn.get (S : Syn) (x : Nat) : SynS := if x = 0 then S.a else S.b
def Syn.put (S : Syn) (x : Nat) (v : SynS) : Syn := if x = 0 then { S with a := v } else { S with b := v }

theorem Dev.setSyns_eq (d : Dev) (x : Nat) (v : SynS) : d.setSyns x v = { d with syn := d.syn.put x v } := by
  unfold Dev.setSyns Syn.put
  split <;> rfl

theorem Syn.get_put (S : Syn) {x y : Nat} (v : SynS) (hx : x < 2) (hy : y < 2) : (S.put x v).get y = if y = x then v else S.get y := by
  unfold Syn.get Syn.put
  obtain rfl | rfl := lt_two hx <;> obtain rfl | rfl := lt_two hy <;> rfl

theorem Syn.put_get (S : Syn) (x : Nat) : S.put x (S.get x) = S := by
  unfold Syn.get Syn.put
  split <;> rfl

theorem Syn.put_put (S : Syn) (x : Nat) (v w : SynS) : (S.put x v).put x w = S.put x w := by
  unfold Syn.put
  split <;> rfl

/-- Beside the synthesizers' own state. -/
structure Syn.SameRest (S T : Syn) : Prop where
  seed : T.seed = S.seed
  seedNext : T.seedNext = S.seedNext
  waiting : T.waiting = S.waiting
  fp : T.fp = S.fp
  clkStart : T.clkStart = S.clkStart

theorem Syn.put_rest (S : Syn) (x : Nat) (v : SynS) : S.SameRest (S.put x v) := by
  unfold Syn.put
  split <;> exact ⟨rfl, rfl, rfl, rfl, rfl⟩

/-- A synthesizer's own state, gated at the latest now. -/
def SynS.off (v : SynS) (now : Nat) : SynS := { v with gated := true, gateAt := if v.gated then v.gateAt else now }

/-- A synthesizer's own state as an attempt begins. -/
def SynS.tries (v : SynS) (hop : Bool) (now : Nat) : SynS := { v with relock := if hop then .hop else .search, tryAt := now, lp := false }

/-! ### Gating and attempts -/

theorem statX_ok : ∀ x : Fin 2, ∀ f ∈ [Reg.SYNX_STAT_STATE x, Reg.SYNX_STAT_LOCK x, Reg.SYNX_STAT_ILOCK x, Reg.SYNX_STAT_CMP x, Reg.SYNX_STAT_LPFAULT x], f.ok = true := by decide

theorem Dev.gateOff_acts (d : Dev) (x : Fin 2) : Dev.Acts [Reg.SYNX_STAT_LOCK x, Reg.SYNX_STAT_ILOCK x, Reg.SYNX_STAT_CMP x] []
    { d with syn := d.syn.put x ((d.syns x).off d.timeNs) } (d.gateOff x) := by
  have hbase : (if (d.syns x).gated then d else d.setSyns x { d.syns x with gated := true, gateAt := d.timeNs }) = { d with syn := d.syn.put x ((d.syns x).off d.timeNs) } := by
    unfold SynS.off
    by_cases hg : (d.syns x).gated = true
    · rw [if_pos hg, if_pos hg]
      have hv : ({ d.syns x with gated := true, gateAt := (d.syns x).gateAt } : SynS) = d.syn.get x := by
        rw [← hg]
        rfl
      rw [hv, Syn.put_get]
    · rw [if_neg hg, if_neg hg, Dev.setSyns_eq]
  have hdef : d.gateOff x = (((if (d.syns x).gated then d else d.setSyns x { d.syns x with gated := true, gateAt := d.timeNs }).wr (Reg.SYNX_STAT_LOCK x) 0).wr
    (Reg.SYNX_STAT_ILOCK x) 0).wr (Reg.SYNX_STAT_CMP x) 0 := rfl
  have ok := statX_ok x
  rw [hdef, hbase]
  exact (((Dev.Acts.refl _ _).wr 0 (by simp) (ok _ (by simp))).wr 0 (by simp) (ok _ (by simp))).wr 0 (by simp) (ok _ (by simp))

theorem Dev.gateOff_shows (d : Dev) (x : Fin 2) : (d.gateOff x).rd (Reg.SYNX_STAT_LOCK x) = 0 ∧ (d.gateOff x).rd (Reg.SYNX_STAT_ILOCK x) = 0 ∧
    (d.gateOff x).rd (Reg.SYNX_STAT_CMP x) = 0 := by
  have ok := statX_ok x
  obtain ⟨s1, s2, s3⟩ := (show ∀ x : Fin 2, (Reg.SYNX_STAT_ILOCK x).sep (Reg.SYNX_STAT_LOCK x) = true ∧ (Reg.SYNX_STAT_CMP x).sep (Reg.SYNX_STAT_LOCK x) = true ∧
    (Reg.SYNX_STAT_CMP x).sep (Reg.SYNX_STAT_ILOCK x) = true by decide) x
  unfold Dev.gateOff
  dsimp only
  generalize (if (d.syns x).gated = true then d else _) = D
  refine ⟨?_, ?_, ?_⟩
  · rw [Dev.rd_wr_sep _ _ _ _ s2, Dev.rd_wr_sep _ _ _ _ s1, Dev.rd_wr_lt _ _ _ (ok _ (by simp)) (by positivity)]
  · rw [Dev.rd_wr_sep _ _ _ _ s3, Dev.rd_wr_lt _ _ _ (ok _ (by simp)) (by positivity)]
  · rw [Dev.rd_wr_lt _ _ _ (ok _ (by simp)) (by positivity)]

theorem Dev.synState_acts (d : Dev) (x : Fin 2) (st : Nat) : Dev.Acts [Reg.SYNX_STAT_STATE x] [] d (d.synState x st) := by
  unfold Dev.synState
  split
  · exact .refl _ d
  · exact d.wr_acts _ st (statX_ok x _ (by simp))

theorem Dev.synState_shows (d : Dev) (x : Fin 2) {st : Nat} (hs : st < 8) :
    (d.synState x st).rd (Reg.SYNX_STAT_STATE x) = if d.rd (Reg.SYNX_STAT_STATE x) = 5 then 5 else st := by
  unfold Dev.synState
  split
  case isTrue h => exact h
  case isFalse => exact d.rd_wr_lt _ st (statX_ok x _ (by simp)) hs

/-- The attempt is a hop. -/
def Dev.hops (d : Dev) (x : Nat) (full : Bool) : Bool := !full && d.hopReady x

theorem Dev.attempt_acts (d : Dev) (x : Fin 2) (full : Bool) : Dev.Acts [Reg.SYNX_STAT_STATE x] []
    { d with syn := d.syn.put x ((d.syns x).tries (d.hops x full) d.timeNs) } (d.attempt x full) := by
  have hdef : d.attempt x full = (d.setSyns x ((d.syns x).tries (d.hops x full) d.timeNs)).synState x (if d.hops x full then 2 else 1) := rfl
  rw [hdef, Dev.setSyns_eq]
  exact Dev.synState_acts _ x _

theorem Dev.attempt_shows (d : Dev) (x : Fin 2) (full : Bool) :
    (d.attempt x full).rd (Reg.SYNX_STAT_STATE x) = if d.rd (Reg.SYNX_STAT_STATE x) = 5 then 5 else if d.hops x full then 2 else 1 := by
  have hdef : d.attempt x full = (d.setSyns x ((d.syns x).tries (d.hops x full) d.timeNs)).synState x (if d.hops x full then 2 else 1) := rfl
  rw [hdef, Dev.setSyns_eq, Dev.synState_shows _ x (by split <;> decide)]
  rfl

/-- The words that tell an attempt what it is. -/
def hopWords (x : Nat) : List Nat :=
  [Reg.AGE_TEMP_CORE.addr, (Reg.SYNX_CFG_PLAN x).addr] ++ (List.range 8).map fun i => (Reg.SYN_SLOT_VALID i).addr

theorem Dev.slotOf_lt (d : Dev) (x : Fin 2) : d.slotOf x < 8 := by
  have h1 : d.rd (Reg.SYNX_CFG_PLAN x) < 2 := d.rd_lt (Reg.SYNX_CFG_PLAN x)
  have h2 := bit_lt_two (decide (d.dieTemp ≥ 45))
  have h3 := x.isLt
  unfold Dev.slotOf
  omega

theorem Dev.slotOf_congr {d D : Dev} (x : Fin 2) (h : ∀ a ∈ hopWords x, D.word a = d.word a) : D.dieTemp = d.dieTemp ∧ D.slotOf x = d.slotOf x := by
  have h1 : D.dieTemp = d.dieTemp := by
    rw [Dev.dieTemp, Dev.rd_of_word (f := Reg.AGE_TEMP_CORE) (h _ (by simp [hopWords])), Dev.dieTemp]
  refine ⟨h1, ?_⟩
  rw [Dev.slotOf, h1, Dev.rd_of_word (f := Reg.SYNX_CFG_PLAN x) (h _ (by simp [hopWords])), Dev.slotOf]

theorem Dev.hops_congr {d D : Dev} (x : Fin 2) (h : ∀ a ∈ hopWords x, D.word a = d.word a) (full : Bool) : D.hops x full = d.hops x full := by
  obtain ⟨h1, h2⟩ := Dev.slotOf_congr x h
  have hw : D.word (Reg.SYN_SLOT_VALID (d.slotOf x)).addr = d.word (Reg.SYN_SLOT_VALID (d.slotOf x)).addr := by
    refine h _ (List.mem_append_right _ (List.mem_map.mpr ⟨d.slotOf x, List.mem_range.mpr (d.slotOf_lt x), rfl⟩))
  have hv : D.rd (Reg.SYN_SLOT_VALID (d.slotOf x)) = d.rd (Reg.SYN_SLOT_VALID (d.slotOf x)) := Dev.rd_of_word hw
  have ht : D.rd (Reg.SYN_SLOT_TEMP (d.slotOf x)) = d.rd (Reg.SYN_SLOT_TEMP (d.slotOf x)) := Dev.rd_of_word (f := Reg.SYN_SLOT_TEMP (d.slotOf x)) hw
  rw [Dev.hops, Dev.hopReady, Dev.hops, Dev.hopReady]
  rw [h2, Dev.on, hv, ht, h1, Dev.on]

/-- The statement's attempt, from what the model decides on a device whose words are those of `s`. -/
theorem attempts_of {s t : State} {d : Dev} (x : Fin 2) (full : Bool) (h : ∀ a ∈ hopWords x, d.word a = s.dev.word a)
    (hf : d.rd (Reg.SYNX_STAT_STATE x) = s.dev.rd (Reg.SYNX_STAT_STATE x)) {v : SynS} (hv : t.dev.syns x = v.tries (d.hops x full) t.dev.timeNs)
    (hst : t.dev.rd (Reg.SYNX_STAT_STATE x) = if d.rd (Reg.SYNX_STAT_STATE x) = 5 then 5 else if d.hops x full then 2 else 1) :
    Attempts s t x full := by
  unfold Attempts
  intro temp slot hop fault
  have hhop : d.hops x full = true ↔ hop := by
    rw [Dev.hops_congr x h full]
    have hslot : s.dev.slotOf x = slot := by
      unfold Dev.slotOf bit Dev.dieTemp
      simp only [slot, temp, ge_iff_le, decide_eq_true_eq]
    rw [Dev.hops, Dev.hopReady, hslot, Bool.and_eq_true, Bool.not_eq_true', Bool.and_eq_true, Dev.on_true_iff, decide_eq_true_eq]
    exact Iff.rfl
  rw [hv, hst, hf]
  refine ⟨rfl, rfl, fun hh => ?_, fun hh => ?_⟩
  · rw [hhop.mpr hh]
    exact ⟨rfl, rfl⟩
  · rw [(Bool.not_eq_true _).mp fun hc => hh (hhop.mp hc)]
    exact ⟨rfl, rfl⟩

/-- The words that the gating of synthesizer `x`, and what follows it, may change. -/
def relockWords (x : Nat) : List Nat := (Reg.SYNX_STAT_STATE x).addr :: (outputWords ++ tdmWords)

/-- Synthesizer `x` of `D` has begun to relock in `d` (R385). -/
structure Dev.Relocked (x : Nat) (full : Bool) (d D : Dev) : Prop where
  outs : Dev.Outs (relockWords x) d D
  mine : D.syns x = ((d.syns x).off d.timeNs).tries (d.hops x full) d.timeNs
  other : D.syns (1 - x) = d.syns (1 - x)
  rest : D.syn.waiting = d.syn.waiting ∧ D.syn.clkStart = d.syn.clkStart
  lock : D.rd (Reg.SYNX_STAT_LOCK x) = 0 ∧ D.rd (Reg.SYNX_STAT_ILOCK x) = 0 ∧ D.rd (Reg.SYNX_STAT_CMP x) = 0
  state : D.rd (Reg.SYNX_STAT_STATE x) = if d.rd (Reg.SYNX_STAT_STATE x) = 5 then 5 else if d.hops x full then 2 else 1
  aligned : D.rd (Reg.SYNX_STAT_UNALIGNED x) = d.rd (Reg.SYNX_STAT_UNALIGNED x)
  reacted : ∃ R, Dev.Reacted (· = x) true (d.gateOff x) R ∧ D.tdm = R.tdm ∧ D.syn.fp = R.syn.fp ∧ ∀ a, a ≠ (Reg.SYNX_STAT_STATE x).addr → D.word a = R.word a

theorem Dev.Acts.outs {fs : List Fld} {es : List (Nat × Nat × Nat)} {d D : Dev} {S : Syn} (h : Dev.Acts fs es { d with syn := S } D) {ws : List Nat}
    (hs : ∀ f ∈ fs, f.addr ∈ ws) : Dev.Outs ws d D := by
  refine ⟨?_, fun a ha => h.word fun f hf he => ha (he ▸ hs f hf)⟩
  rw [h.only]

theorem Dev.gateOff_outs (d : Dev) (x : Fin 2) : Dev.Outs [(Reg.SYNX_STAT_STATE x).addr] d (d.gateOff x) :=
  (d.gateOff_acts x).outs (by simp [Reg.SYNX_STAT_LOCK, Reg.SYNX_STAT_ILOCK, Reg.SYNX_STAT_CMP, Reg.SYNX_STAT_STATE])

theorem Dev.gateOff_syn (d : Dev) (x : Fin 2) : (d.gateOff x).syn = d.syn.put x ((d.syns x).off d.timeNs) := by rw [(d.gateOff_acts x).only]

theorem Dev.gateOff_gated (d : Dev) (x : Fin 2) : (d.gateOff x).synGated x = true := by
  rw [Dev.synGated_eq]
  change ((d.gateOff x).syn.get x).gated = true
  rw [d.gateOff_syn, Syn.get_put _ _ x.isLt x.isLt, if_pos rfl]
  rfl

theorem hopWords_clear : ∀ x : Fin 2, ∀ y : Fin 2, ∀ a ∈ hopWords x, a ∉ relockWords y := by decide

theorem Dev.relock_relocked (d : Dev) (x : Fin 2) (full : Bool) : Dev.Relocked x full d (d.relock x full) := by
  have hE := d.gateOff_outs x
  have aE := d.gateOff_acts x
  have synE := d.gateOff_syn x
  obtain ⟨l1, l2, l3⟩ := d.gateOff_shows x
  have hR := (d.gateOff x).gateReact_reacted (d.gateOff_gated x)
  have hdef : d.relock x full = ((d.gateOff x).gateReact x).attempt x full := rfl
  rw [hdef]
  generalize (d.gateOff x).gateReact x = R at hR
  have aD := R.attempt_acts x full
  have sD := R.attempt_shows x full
  have hD : Dev.Outs (relockWords x) R (R.attempt x full) := aD.outs (by simp [relockWords])
  have synD : (R.attempt x full).syn = R.syn.put x ((R.syns x).tries (R.hops x full) R.timeNs) := by rw [aD.only]
  have tdmD : (R.attempt x full).tdm = R.tdm := by rw [aD.only]
  generalize R.attempt x full = D at aD sD hD synD tdmD
  have hER : Dev.Outs (relockWords x) d R := (hE.mono (by simp [relockWords])).trans (hR.outs.mono fun a ha => List.mem_cons_of_mem _ ha)
  have hhops : R.hops x full = d.hops x full := Dev.hops_congr x (fun a ha => hER.word a (hopWords_clear x x a ha)) full
  have hget : ∀ y, R.syns y = (d.gateOff x).syns y := fun y => by
    change R.syn.get y = (d.gateOff x).syn.get y
    rw [hR.syn]
    rfl
  have hx2 : (1 : Nat) - x.val < 2 := by omega
  have hne : 1 - x.val ≠ x.val := by omega
  have hmine : R.syns x = (d.syns x).off d.timeNs := by
    rw [hget]
    change (d.gateOff x).syn.get x = _
    rw [synE, Syn.get_put _ _ x.isLt x.isLt, if_pos rfl]
  obtain ⟨k1, k2, k3, k4⟩ := (show ∀ x : Fin 2, (Reg.SYNX_STAT_LOCK x).addr ∉ outputWords ++ tdmWords ∧
    Fld.clear [Reg.SYNX_STAT_STATE x] (Reg.SYNX_STAT_LOCK x) = true ∧ Fld.clear [Reg.SYNX_STAT_STATE x] (Reg.SYNX_STAT_ILOCK x) = true ∧
    Fld.clear [Reg.SYNX_STAT_STATE x] (Reg.SYNX_STAT_CMP x) = true by decide) x
  obtain ⟨k5, k6, k7⟩ := (show ∀ x : Fin 2, Fld.clear [Reg.SYNX_STAT_STATE x] (Reg.SYNX_STAT_UNALIGNED x) = true ∧
    Fld.clear [Reg.SYNX_STAT_LOCK x, Reg.SYNX_STAT_ILOCK x, Reg.SYNX_STAT_CMP x] (Reg.SYNX_STAT_UNALIGNED x) = true ∧
    Fld.clear [Reg.SYNX_STAT_LOCK x, Reg.SYNX_STAT_ILOCK x, Reg.SYNX_STAT_CMP x] (Reg.SYNX_STAT_STATE x) = true by decide) x
  refine ⟨hER.trans hD, ?_, ?_, ?_, ⟨?_, ?_, ?_⟩, ?_, ?_, R, hR, tdmD, ?_, fun a ha => aD.word fun f hf => ?_⟩
  · change D.syn.get x = _
    rw [synD, Syn.get_put _ _ x.isLt x.isLt, if_pos rfl, hmine, hhops, hER.timeNs]
  · change D.syn.get (1 - x) = _
    rw [synD, Syn.get_put _ _ x.isLt hx2, if_neg hne]
    refine (hget _).trans ?_
    change (d.gateOff x).syn.get (1 - x) = _
    rw [synE, Syn.get_put _ _ x.isLt hx2, if_neg hne]
    rfl
  · have h1 := R.syn.put_rest x ((R.syns x).tries (R.hops x full) R.timeNs)
    have h2 := d.syn.put_rest x ((d.syns x).off d.timeNs)
    rw [← synD] at h1
    rw [← synE] at h2
    have h3 : R.syn.waiting = (d.gateOff x).syn.waiting := by rw [hR.syn]
    have h4 : R.syn.clkStart = (d.gateOff x).syn.clkStart := by rw [hR.syn]
    exact ⟨h1.waiting.trans (h3.trans h2.waiting), h1.clkStart.trans (h4.trans h2.clkStart)⟩
  · exact (aD.rd k2).trans ((hR.outs.rd k1).trans l1)
  · exact (aD.rd k3).trans ((hR.outs.rd (g := Reg.SYNX_STAT_ILOCK x) k1).trans l2)
  · exact (aD.rd k4).trans ((hR.outs.rd (g := Reg.SYNX_STAT_CMP x) k1).trans l3)
  · rw [sD, hhops, hR.outs.rd (g := Reg.SYNX_STAT_STATE x) k1, aE.rd k7]
    rfl
  · exact (aD.rd k5).trans ((hR.outs.rd (g := Reg.SYNX_STAT_UNALIGNED x) k1).trans (aE.rd k6))
  · rw [synD]
    exact (R.syn.put_rest x _).fp
  · rw [List.mem_singleton.mp hf]
    exact fun he => ha he.symm

end Sys2Proof.Machine
end

section
/-! Synthesizers gate on a loss and relock (R373, R380, R384, R385, R390). -/
namespace Sys2Proof.Machine
open Sys2Proof.Claims

/-- The device of `s` at the instant `ns`, as a command of a host finds it. -/
def Dev.seen (d : Dev) (ns : Nat) (p : Pwr) : Dev := { d.at ns with pwr := p }

theorem Dev.Outs.keeps {s t : State} {ns : Nat} {p : Pwr} {ws : List Nat} {D : Dev} (h : Dev.Outs ws (s.dev.seen ns p) D) (ht : t.dev = D.settle) :
    Keeps ws s t { s.dev.at ns with syn := t.dev.syn, tdm := t.dev.tdm } := by
  refine ⟨fun a ha => ?_, ?_⟩
  · rw [ht]
    exact h.word a ha
  · rw [ht, h.only]
    rfl

theorem relockWords_sub (x : Nat) : ∀ a ∈ relockWords x, a ∈ synWords x ++ outputWords ++ tdmWords := by
  intro a ha
  simp only [relockWords, List.mem_cons, List.mem_append] at ha ⊢
  obtain rfl | h | h := ha
  · exact .inl (.inl (by simp [synWords]))
  · exact .inl (.inr h)
  · exact .inr h

/-- The words that a loss of lock counts and flags. -/
def lossWords (x : Nat) : List Nat := [(Reg.SYNX_LOSCNT_COUNT x).addr, Reg.SYN_STATUS_LOCKEV.addr]

theorem lossWords_clear : ∀ x : Fin 2, (∀ a ∈ lossWords x, ¬ (0x18000 ≤ a ∧ a < 0x19000) ∧ ¬ (0xD000 ≤ a ∧ a < 0xE000) ∧
    a ≠ (Reg.SYNX_CFG_PLAN 0).addr ∧ a ≠ (Reg.SYNX_CFG_PLAN 1).addr ∧ a ∉ hopWords x) ∧
    (Reg.SYNX_STAT_STATE x).addr ∉ lossWords x := by decide

/-- The device of `s`, but for the count and the mark of a loss, as outputs and attempts see it. -/
theorem Dev.Shows.lossFacts {s : State} {ns : Nat} {p : Pwr} {d : Dev} {x : Fin 2} (hd : Dev.Shows (lossWords x) (s.dev.seen ns p) d)
    (hr : d.rd Reg.SYN_STATUS_RATE96_NOW = s.dev.rd Reg.SYN_STATUS_RATE96_NOW) :
    (∀ a, 0x18000 ≤ a → a < 0x19000 → d.word a = s.dev.word a) ∧ (∀ y, y < 2 → d.word (Reg.SYNX_CFG_PLAN y).addr = s.dev.word (Reg.SYNX_CFG_PLAN y).addr) ∧
    (∀ a ∈ hopWords x, d.word a = s.dev.word a) ∧ d.word (Reg.SYNX_STAT_STATE x).addr = s.dev.word (Reg.SYNX_STAT_STATE x).addr ∧
    Dev.Alike tdmSide (s.dev.at ns) d ∧ d.nSamples = (s.dev.at ns).nSamples ∧ d.timeNs = (s.dev.at ns).timeNs := by
  obtain ⟨hc, hst⟩ := lossWords_clear x
  refine ⟨fun a ha hb => hd.word a fun hm => (hc a hm).1 ⟨ha, hb⟩, fun y hy => hd.word _ fun hm => ?_, fun a ha => hd.word a fun hm => (hc a hm).2.2.2.2 ha,
    hd.word _ hst, ⟨fun n => Dev.port_congr hd.tdm n, hd.ns, fun a ha => hd.word a fun hm => (hc a hm).2.1 ha⟩, ?_, hd.outs.timeNs⟩
  · obtain ⟨-, -, c0, c1, -⟩ := hc _ hm
    obtain rfl | rfl := lt_two hy
    · exact c0 rfl
    · exact c1 rfl
  · have h : d.rd Reg.SYN_STATUS_RATE96_NOW = (s.dev.at ns).rd Reg.SYN_STATUS_RATE96_NOW := hr
    rw [Dev.nSamples, Dev.fam96, Dev.on, h, Dev.nSamples, Dev.fam96, Dev.on]

theorem relock_follows {s t : State} {ns : Nat} {p : Pwr} {d : Dev} (x : Fin 2) (full : Bool) (hd : Dev.Shows (lossWords x) (s.dev.seen ns p) d)
    (hrate : d.rd Reg.SYN_STATUS_RATE96_NOW = s.dev.rd Reg.SYN_STATUS_RATE96_NOW) (ht : t.dev = (d.relock x full).settle) :
    GatedNow s t x ∧ Attempts s t x full ∧ PortsFollow (s.dev.at ns).frameTurn t ∧ ClocksFollow s t ∧ PulsesFollow s t (· = x.val) true ∧
    SynFrame s t ns x [] ∧ ∀ y, y < 8 → (ClockMoves s t y ↔ (d.gateOff x).portsLost.clkMoves y) := by
  have hL := d.relock_relocked x full
  generalize d.relock x full = D at hL ht
  obtain ⟨f1, f2, f3, f4, f5, f6, f7⟩ := hd.lossFacts hrate
  obtain ⟨R, hR, rtdm, rfp, rword⟩ := hL.reacted
  have hw : ∀ a, t.dev.word a = D.word a := fun a => by rw [ht]; rfl
  have hrd : ∀ g, t.dev.rd g = D.rd g := fun g => Dev.rd_of_word (hw g.addr)
  have hsyns : ∀ y, t.dev.syns y = D.syns y := fun y => by rw [ht]; rfl
  have htime : t.dev.timeNs = d.timeNs := by
    rw [ht]
    exact hL.outs.timeNs
  have hdsyns : ∀ y, d.syns y = s.dev.syns y := fun y => by
    change d.syn.get y = _
    rw [hd.syn]
    rfl
  have hE := d.gateOff_outs x
  have hx2 : (1 : Nat) - x.val < 2 := by omega
  have hmine := (hsyns x).trans hL.mine
  have hgates : ∀ y, y < 2 → (t.dev.syns y).gated = (d.gateOff x).synGated y := fun y hy => by
    rw [Dev.synGated_eq]
    change _ = ((d.gateOff x).syn.get y).gated
    rw [d.gateOff_syn, Syn.get_put _ _ x.isLt hy]
    split
    case isTrue he =>
      rw [he, hmine]
      rfl
    case isFalse hne =>
      have : y = 1 - x.val := by omega
      rw [this, hsyns, hL.other]
      rfl
  obtain ⟨l1, l2, l3⟩ := hL.lock
  refine ⟨⟨?_, ?_, (hrd _).trans l1, (hrd _).trans l2, (hrd _).trans l3⟩, ?_, ?_⟩
  · rw [hmine]
    rfl
  · rw [hmine, htime, hdsyns]
    rfl
  · have hstate : d.rd (Reg.SYNX_STAT_STATE x) = s.dev.rd (Reg.SYNX_STAT_STATE x) := Dev.rd_of_word f4
    exact attempts_of x full f3 hstate (v := (d.syns x).off d.timeNs) (by rw [hmine, htime]) ((hrd _).trans hL.state)
  · have hEw : ∀ a, a ≠ (Reg.SYNX_STAT_STATE x).addr → (d.gateOff x).word a = d.word a := fun a ha => hE.word a (by simpa using ha)
    obtain ⟨r1, r2⟩ := (show ∀ x : Fin 2, (¬ (0x18000 ≤ (Reg.SYNX_STAT_STATE x).addr) ∧ ¬ ((Reg.SYNX_STAT_STATE x).addr ≤ 0xE000)) ∧
      ∀ y : Fin 2, (Reg.SYNX_CFG_PLAN y).addr ≠ (Reg.SYNX_STAT_STATE x).addr ∧ (Reg.SYNX_CFG_PLAN y).addr ∉ relockWords x by decide) x
    have hfol := hR.follow (d := s.dev.at ns) (s := s) (t := t)
      ⟨fun n => (Dev.port_congr (by rw [(d.gateOff_acts x).only]) n).trans (f5.port n), hE.ns.trans f5.ns, fun a ha =>
        (hEw a fun he => r1.2 (by unfold tdmSide at ha; omega)).trans (f5.word a ha)⟩
      ((Dev.nSamples_congr (hEw _ ((show ∀ x : Fin 2, Reg.SYN_STATUS_RATE96_NOW.addr ≠ (Reg.SYNX_STAT_STATE x).addr by decide) x))).trans f6)
      (fun a ha hb => (hEw a fun he => r1.1 (by omega)).trans (f1 a ha hb))
      (by rw [d.gateOff_syn, (d.syn.put_rest x _).fp, hd.syn]; rfl)
      (fun y hy => Dev.rd_of_word ((hEw _ (r2 ⟨y, hy⟩).1).trans (f2 y hy)))
      (fun a ha => (hw a).trans (rword a fun he => by
        obtain h | h := ha
        · exact r1.1 (by omega)
        · exact r1.2 (by unfold tdmSide at h; omega)))
      (by rw [ht]; exact rfp) (by rw [ht]; exact rtdm) (htime.trans hE.timeNs.symm) hgates ?_
    · obtain ⟨g1, g2, g3⟩ := hfol
      refine ⟨g1, g2.1, g3, ⟨?_, ?_, ?_, ?_⟩, g2.2⟩
      · have hO : Dev.Outs (synWords x ++ outputWords ++ tdmWords) (s.dev.seen ns p) D :=
          (hd.outs.mono (by simp [lossWords, synWords])).trans (hL.outs.mono (relockWords_sub x))
        rw [List.append_nil]
        exact hO.keeps ht
      · rw [hsyns, hL.other, hdsyns]
      · have := hL.rest.2
        rw [ht]
        exact this.trans (by rw [hd.syn]; rfl)
      · have := hL.rest.1
        rw [ht]
        exact this.trans (by rw [hd.syn]; rfl)
    · intro y hy
      have hplan : t.dev.rd (Reg.SYNX_CFG_PLAN y) = (d.gateOff x).rd (Reg.SYNX_CFG_PLAN y) := by
        obtain ⟨n1, n2⟩ := r2 ⟨y, hy⟩
        exact Dev.rd_of_word ((hw _).trans ((hL.outs.word _ n2).trans (hEw _ n1).symm))
      by_cases hyx : y = x.val
      · subst hyx
        have a1 : (d.gateOff x).rd (Reg.SYNX_STAT_UNALIGNED x) = d.rd (Reg.SYNX_STAT_UNALIGNED x) :=
          (d.gateOff_acts x).rd ((show ∀ x : Fin 2, Fld.clear [Reg.SYNX_STAT_LOCK x, Reg.SYNX_STAT_ILOCK x, Reg.SYNX_STAT_CMP x]
            (Reg.SYNX_STAT_UNALIGNED x) = true by decide) x)
        exact ⟨(hrd _).trans (l1.trans (d.gateOff_shows x).1.symm), (hrd _).trans (hL.aligned.trans a1.symm), hplan⟩
      · have hsame : t.dev.word (Reg.SYNX_STAT_STATE y).addr = (d.gateOff x).word (Reg.SYNX_STAT_STATE y).addr := by
          obtain ⟨n1, n2⟩ := (show ∀ x y : Fin 2, y ≠ x → (Reg.SYNX_STAT_STATE y).addr ≠ (Reg.SYNX_STAT_STATE x).addr ∧
            (Reg.SYNX_STAT_STATE y).addr ∉ relockWords x by decide) x ⟨y, hy⟩ (fun h => hyx (congrArg Fin.val h))
          exact (hw _).trans ((hL.outs.word _ n2).trans (hEw _ n1).symm)
        exact ⟨Dev.rd_of_word (f := Reg.SYNX_STAT_LOCK y) hsame, Dev.rd_of_word (f := Reg.SYNX_STAT_UNALIGNED y) hsame, hplan⟩

/-! ### Loss of lock -/

/-- A loss of lock of synthesizer `x`, counted, marked and posted. -/
def Dev.lossNoted (d : Dev) (x : Nat) : Dev := ((d.count (Reg.SYNX_LOSCNT_COUNT x) Reg.SYN_STATUS_CNT_HALF).flag Reg.SYN_STATUS_LOCKEV).post 17 1 x

theorem execLossOfLock_eq (s : State) (x : Fin 2) (ns : Nat) : exec (.lossOfLock x ns) s = onDev (fun d =>
    let d := d.at ns
    if d.on (Reg.SYNX_STAT_LOCK x) then (d.lossNoted x).relock x false else d) s := rfl

/-- The fields that a loss of lock changes. -/
def lossFields (x : Nat) : List Fld := [Reg.SYNX_LOSCNT_COUNT x, Reg.SYN_STATUS_CNT_HALF, Reg.SYN_STATUS_LOCKEV]

theorem Dev.lossNoted_acts (d : Dev) (x : Fin 2) : Dev.Acts (lossFields x) [(17, 1, x.val)] d (d.lossNoted x) := by
  have ok : (Reg.SYNX_LOSCNT_COUNT x).ok = true := rfl
  exact (((Dev.Acts.refl _ d).count 1 (by simp [lossFields]) (by simp [lossFields]) ok rfl).flag (by simp [lossFields]) rfl).post ..

theorem Dev.lossNoted_shows (d : Dev) (x : Fin 2) : (d.lossNoted x).rd Reg.SYN_STATUS_LOCKEV = 1 ∧
    (d.lossNoted x).rd (Reg.SYNX_LOSCNT_COUNT x) = (d.rd (Reg.SYNX_LOSCNT_COUNT x) + 1) % 2 ^ 32 := by
  have ok : (Reg.SYNX_LOSCNT_COUNT x).ok = true := rfl
  obtain ⟨s1, s2⟩ := (show ∀ x : Fin 2, Reg.SYN_STATUS_LOCKEV.sep (Reg.SYNX_LOSCNT_COUNT x) = true ∧
    Reg.SYN_STATUS_CNT_HALF.apart (Reg.SYNX_LOSCNT_COUNT x) = true by decide) x
  exact ⟨Dev.rd_flag _ _ rfl, (Dev.rd_flag_sep _ _ _ s1).trans (d.rd_count _ _ 1 ok rfl s2)⟩

theorem Dev.Acts.shows {fs : List Fld} {es : List (Nat × Nat × Nat)} {d D : Dev} (h : Dev.Acts fs es d D) {ws : List Nat} (hs : ∀ f ∈ fs, f.addr ∈ ws) :
    Dev.Shows ws d D := by
  refine ⟨?_, fun a ha => h.word fun f hf he => ha (he ▸ hs f hf)⟩
  rw [h.only]

theorem Dev.attempt_evq (d : Dev) (x : Fin 2) (full : Bool) : (d.attempt x full).evq = d.evq := by
  have h := congrArg Dev.evq (d.attempt_acts x full).only
  rw [List.append_nil] at h
  exact h

/-- Where no port and no CLKOUT has to leave it, the relock of a synthesizer posts nothing. -/
theorem Dev.relock_evq {d : Dev} {x : Fin 2} (full : Bool) (hp : ∀ n, n < 16 → d.rd (Reg.TDM_PSTAT_STATE n) ≠ 2 ∧ (d.port n).moving = none)
    (hc : ∀ y, y < 8 → ¬ (d.gateOff x).portsLost.clkMoves y) : (d.relock x full).evq = d.evq := by
  have hE : (d.gateOff x).evq = d.evq := by
    have h := congrArg Dev.evq (d.gateOff_acts x).only
    rw [List.append_nil] at h
    exact h
  have hports : ∀ n, ((d.gateOff x).port n) = d.port n := fun n => Dev.port_congr (by rw [(d.gateOff_acts x).only]) n
  have hst : ∀ n, n < 16 → (d.gateOff x).rd (Reg.TDM_PSTAT_STATE n) = d.rd (Reg.TDM_PSTAT_STATE n) := fun n hn =>
    (d.gateOff_outs x).rd ((show ∀ x : Fin 2, ∀ n : Fin 16, (Reg.TDM_PSTAT_STATE n).addr ∉ [(Reg.SYNX_STAT_STATE x).addr] by decide) x ⟨n, hn⟩)
  have hlost : (d.gateOff x).portsLost = d.gateOff x := by
    unfold Dev.portsLost
    rw [Dev.frameTurn_still fun m hm => (congrArg PortS.moving (hports m)).trans (hp m hm).2]
    refine foldl_still _ fun n hn => ((d.gateOff x).portLost_cases n _).1 fun hl => ?_
    have hn' := List.mem_range.mp hn
    exact (hp n hn').1 ((hst n hn').symm.trans hl.1)
  have hck : (d.gateOff x).clksLost = d.gateOff x := by
    rw [hlost] at hc
    exact foldl_still _ fun y hy => ((d.gateOff x).clkLost_cases y).2 (hc y (List.mem_range.mp hy))
  have hg : (d.gateOff x).gateReact x = (d.gateOff x).pulsesGate x true := by
    unfold Dev.gateReact
    rw [hlost, hck]
  have hdef : d.relock x full = ((d.gateOff x).gateReact x).attempt x full := rfl
  rw [hdef, Dev.attempt_evq, hg, ((d.gateOff x).pulsesGate_onPulses x true).only]
  exact hE

theorem lossOfLock_gates (s : State) (x : Fin 2) (ns : Nat) (hl : s.dev.rd (Reg.SYNX_STAT_LOCK x) = 1) :
    ∃ t, Runs (.lossOfLock x ns) s t ∧ GatedNow s t x ∧ Attempts s t x false ∧ PortsFollow (s.dev.at ns).frameTurn t ∧ ClocksFollow s t ∧
      PulsesFollow s t (· = x.val) true ∧ SynFrame s t ns x [] ∧ t.dev.rd Reg.SYN_STATUS_LOCKEV = 1 ∧
      t.dev.rd (Reg.SYNX_LOSCNT_COUNT x) = (s.dev.rd (Reg.SYNX_LOSCNT_COUNT x) + 1) % 2 ^ 32 ∧
      (Room s → (∀ y, y < 8 → ¬ ClockMoves s t y) → (∀ n, n < 16 → s.dev.rd (Reg.TDM_PSTAT_STATE n) ≠ 2 ∧ (s.dev.port n).moving = none) →
        EntersAll s t [(17, 1, x.val)]) := by
  have hrun := runs_of_onDev (execLossOfLock_eq s x ns)
  have hon : (s.dev.at ns).on (Reg.SYNX_STAT_LOCK x) = true := ((s.dev.at ns).on_true_iff _).mpr hl
  dsimp only at hrun
  rw [if_pos hon] at hrun
  have aD := (s.dev.at ns).lossNoted_acts x
  obtain ⟨v1, v2⟩ := (s.dev.at ns).lossNoted_shows x
  generalize (s.dev.at ns).lossNoted x = d at aD v1 v2 hrun
  obtain ⟨r1, r2, r3, r4⟩ := (show ∀ x : Fin 2, Fld.clear (lossFields x) Reg.SYN_STATUS_RATE96_NOW = true ∧ (∀ f ∈ lossFields x, f.addr ∈ lossWords x) ∧
    (∀ a ∈ lossWords x, a ∉ relockWords x) ∧ ∀ n : Fin 16, Fld.clear (lossFields x) (Reg.TDM_PSTAT_STATE n) = true by decide) x
  have hfol := relock_follows (s := s) (t := { s with dev := (d.relock x false).settle }) (ns := ns) (p := s.dev.pwr) x false
    (aD.shows r2) (aD.rd r1) rfl
  obtain ⟨g1, g2, g3, g4, g5, g6, g7⟩ := hfol
  have hO := (d.relock_relocked x false).outs
  refine ⟨_, hrun, g1, g2, g3, g4, g5, g6, ?_, ?_, fun hroom hck hports => ?_⟩
  · exact (hO.rd (r3 _ (by simp [lossWords]))).trans v1
  · exact (hO.rd (r3 _ (by simp [lossWords]))).trans v2
  · have hevq : (d.relock x false).evq = d.evq := by
      refine Dev.relock_evq false (fun n hn => ?_) fun y hy => ?_
      · obtain ⟨h1, h2⟩ := hports n hn
        exact ⟨fun h => h1 ((aD.rd (r4 ⟨n, hn⟩)).symm.trans h), (congrArg PortS.moving (Dev.port_congr (by rw [aD.only]; rfl) n)).trans h2⟩
      · exact fun hm => hck y hy ((g7 y hy).mpr hm)
    refine entersAll_of_room 17 (by decide) (by simp) (by simp) hroom ?_
    have he : (d.relock x false).evq = { s.dev.evq with posts := [(17, 1, x.val)] } := by
      rw [hevq, aD.only]
      change ({ s.dev.evq with posts := s.dev.evq.posts ++ _ } : Evq) = _
      rw [hroom.2.1]
      rfl
    have htick : (d.relock x false).schTick = s.dev.schTick := by
      rw [Dev.schTick, hO.only, aD.only, Dev.schTick]
      rfl
    rw [← htick, ← he]
    rfl

/-! ### RESEARCH -/

theorem research_runs {s : State} {h : Agent} {x : Fin 2} (ns : Nat) (hr : Ready s h (Reg.SYNX_CMD_RESEARCH x) false) :
    ∃ p, Runs (.research h x ns) s { s with dev := ((s.dev.seen ns p).researchGo x).settle } := by
  obtain ⟨p, hp⟩ := (s.dev.at ns).touch_pwr h true (blockOf (Reg.SYNX_CMD_RESEARCH x).addr)
  have hrun := runs_of_onDev (show exec (.research h x ns) s =
    onDev (fun d => (d.at ns).hostCmd h (Reg.SYNX_CMD_RESEARCH x) [] fun d => d.researchGo x) s from rfl)
  rw [Dev.hostCmd_open (s.dev.at ns) _ _ _ hr.1 hr.2, hp] at hrun
  exact ⟨p, hrun⟩

theorem Dev.researchGo_cases (d : Dev) (x : Nat) :
    (d.rd Reg.SYN_CFG_ENABLE = 1 ∧ d.rd (Reg.SYNX_CFG_EN x) = 1 ∧ (d.syns x).refLost = false → d.researchGo x = d.relock x true) ∧
    (¬ (d.rd Reg.SYN_CFG_ENABLE = 1 ∧ d.rd (Reg.SYNX_CFG_EN x) = 1 ∧ (d.syns x).refLost = false) → d.researchGo x = d) := by
  have hc : (d.synOn x && !(d.syns x).refLost) = true ↔ d.rd Reg.SYN_CFG_ENABLE = 1 ∧ d.rd (Reg.SYNX_CFG_EN x) = 1 ∧ (d.syns x).refLost = false := by
    rw [Dev.synOn, Bool.and_eq_true, Bool.and_eq_true, Dev.on_true_iff, Dev.on_true_iff, Bool.not_eq_true', and_assoc]
  exact ⟨fun h => if_pos (hc.mpr h), fun h => if_neg fun hx => h (hc.mp hx)⟩

/-- A command of a host that finds nothing to do. -/
theorem keeps_seen {s t : State} {ns : Nat} {p : Pwr} (ht : t.dev = (s.dev.seen ns p).settle) : Keeps [] s t (s.dev.at ns) := by
  refine ⟨fun a _ => ?_, ?_⟩
  · rw [ht]
    rfl
  · rw [ht]
    rfl

theorem research_relocks (s : State) (h : Agent) (x : Fin 2) (ns : Nat) (hr : Ready s h (Reg.SYNX_CMD_RESEARCH x) false) :
    let runs := s.dev.rd Reg.SYN_CFG_ENABLE = 1 ∧ s.dev.rd (Reg.SYNX_CFG_EN x) = 1 ∧ (s.dev.syns x).refLost = false
    ∃ t, Runs (.research h x ns) s t ∧ (¬ runs → Keeps [] s t (s.dev.at ns)) ∧
      (runs → GatedNow s t x ∧ Attempts s t x true ∧ PortsFollow (s.dev.at ns).frameTurn t ∧ ClocksFollow s t ∧ PulsesFollow s t (· = x.val) true ∧
        SynFrame s t ns x []) := by
  intro runs
  obtain ⟨p, hrun⟩ := research_runs ns hr
  obtain ⟨h1, h2⟩ := (s.dev.seen ns p).researchGo_cases x
  refine ⟨_, hrun, fun hn => ?_, fun hy => ?_⟩
  · rw [h2 hn]
    exact keeps_seen rfl
  · rw [h1 hy]
    obtain ⟨g1, g2, g3, g4, g5, g6, -⟩ := relock_follows (s := s) (t := { s with dev := ((s.dev.seen ns p).relock x true).settle }) x true
      (Dev.Shows.refl _ (s.dev.seen ns p)) rfl rfl
    exact ⟨g1, g2, g3, g4, g5, g6⟩

/-! ### Loss of the reference, and its return -/

/-- Synthesizer `x` has its reference back on channel `ch`. -/
def Dev.restore (d : Dev) (ch : Nat) (x : Nat) : Dev :=
  let v := d.syns x
  if v.refLost && d.rd (Reg.SYNX_CFG_PLAN x) == ch then
    let d := d.setSyns x { v with refLost := false }
    if d.stopped 17 then d else d.relock x false
  else d

theorem execReferenceRestored_eq (s : State) (ch : Fin 2) (ns : Nat) : exec (.referenceRestored ch ns) s =
    onDev (fun d => ((d.at ns).restore ch.val 0).restore ch.val 1) s := rfl

/-- The device once synthesizer `x` has its reference back, before it relocks. -/
def Dev.refBack (d : Dev) (x : Nat) : Dev := { d with syn := d.syn.put x { d.syns x with refLost := false } }

theorem Dev.refBack_outs (d : Dev) (x : Nat) : Dev.Outs [] d (d.refBack x) := ⟨rfl, fun _ _ => rfl⟩

theorem Dev.refBack_syns (d : Dev) {x y : Nat} (hx : x < 2) (hy : y < 2) : (d.refBack x).syns y = if y = x then { d.syns x with refLost := false } else d.syns y :=
  d.syn.get_put _ hx hy

theorem Dev.restore_cases (d : Dev) (ch : Nat) (x : Nat) :
    ((d.syns x).refLost = true → d.rd (Reg.SYNX_CFG_PLAN x) = ch → d.restore ch x = if d.stopped 17 then d.refBack x else (d.refBack x).relock x false) ∧
    (¬ ((d.syns x).refLost = true ∧ d.rd (Reg.SYNX_CFG_PLAN x) = ch) → d.restore ch x = d) := by
  have hdef : d.restore ch x = if (d.syns x).refLost && d.rd (Reg.SYNX_CFG_PLAN x) == ch then
      if (d.setSyns x { d.syns x with refLost := false }).stopped 17 then d.setSyns x { d.syns x with refLost := false }
      else (d.setSyns x { d.syns x with refLost := false }).relock x false else d := rfl
  rw [hdef, Dev.setSyns_eq]
  refine ⟨fun h1 h2 => ?_, fun h => ?_⟩
  · rw [h1, h2, if_pos (by simp)]
    rfl
  · exact if_neg (by simpa using h)

/-- What the return of a reference keeps beside synthesizer `x`. -/
theorem Dev.restore_keeps (d : Dev) (ch : Nat) (x : Fin 2) : Dev.Outs (relockWords x) d (d.restore ch x) ∧
    (d.restore ch x).syns (1 - x) = d.syns (1 - x) := by
  have hx2 : (1 : Nat) - x.val < 2 := by omega
  have hne : 1 - x.val ≠ x.val := by omega
  have hb : (d.refBack x).syns (1 - x) = d.syns (1 - x) := (d.refBack_syns x.isLt hx2).trans (if_neg hne)
  obtain ⟨h1, h2⟩ := d.restore_cases ch x
  by_cases hc : (d.syns x).refLost = true ∧ d.rd (Reg.SYNX_CFG_PLAN x) = ch
  · rw [h1 hc.1 hc.2]
    split
    · exact ⟨(d.refBack_outs x).mono (by simp), hb⟩
    · have hL := (d.refBack x).relock_relocked x false
      exact ⟨((d.refBack_outs x).mono (by simp)).trans hL.outs, hL.other.trans hb⟩
  · rw [h2 hc]
    exact ⟨.refl _ d, rfl⟩

/-- Synthesizer `x` of `t`, which got its reference back on a device `e` that is to it as `s` was. -/
theorem restore_mine {s t : State} {e : Dev} {ch x : Fin 2} (hl : (s.dev.syns x).refLost = true) (hp : s.dev.rd (Reg.SYNX_CFG_PLAN x) = ch.val)
    (hs : e.syns x = s.dev.syns x) (hw : ∀ a ∈ (Reg.SYNX_STAT_STATE x).addr :: Reg.PWR_STATUS_STATE.addr :: hopWords x, e.word a = s.dev.word a)
    (hts : t.dev.syns x = (e.restore ch x).syns x) (htw : t.dev.word (Reg.SYNX_STAT_STATE x).addr = (e.restore ch x).word (Reg.SYNX_STAT_STATE x).addr)
    (htime : t.dev.timeNs = e.timeNs) :
    (t.dev.syns x).refLost = false ∧
      (s.dev.stopped 17 = false → (t.dev.syns x).gated = true ∧ t.dev.rd (Reg.SYNX_STAT_LOCK x) = 0 ∧ Attempts s t x false) ∧
      (s.dev.stopped 17 = true → t.dev.syns x = { s.dev.syns x with refLost := false }) := by
  have hplan : e.rd (Reg.SYNX_CFG_PLAN x) = s.dev.rd (Reg.SYNX_CFG_PLAN x) := Dev.rd_of_word (hw _ (by simp [hopWords]))
  have hstop : e.stopped 17 = s.dev.stopped 17 := by
    rw [Dev.stopped, Dev.rd_of_word (f := Reg.PWR_STATUS_STATE) (hw _ (by simp)), Dev.stopped]
  have hcase := (e.restore_cases ch x).1 (by rw [hs]; exact hl) (hplan.trans hp)
  rw [hstop] at hcase
  have hbs : (e.refBack x).syns x = { s.dev.syns x with refLost := false } := by
    rw [e.refBack_syns x.isLt x.isLt, if_pos rfl, hs]
  cases hst : s.dev.stopped 17 with
  | true =>
    rw [hst, if_pos rfl] at hcase
    rw [hcase, hbs] at hts
    exact ⟨by rw [hts], by simp, fun _ => hts⟩
  | false =>
    rw [hst, if_neg (by decide)] at hcase
    have hL := (e.refBack x).relock_relocked x false
    rw [hcase] at hts htw
    rw [hL.mine, hbs] at hts
    have hrd : ∀ g : Fld, g.addr = (Reg.SYNX_STAT_STATE x).addr → t.dev.rd g = ((e.refBack x).relock x false).rd g := fun g hg =>
      Dev.rd_of_word (by rw [hg]; exact htw)
    refine ⟨by rw [hts]; rfl, fun _ => ⟨by rw [hts]; rfl, (hrd (Reg.SYNX_STAT_LOCK x) rfl).trans hL.lock.1, ?_⟩, by simp⟩
    refine attempts_of (d := e.refBack x) x false (fun a ha => hw a (by simp [ha])) (Dev.rd_of_word (f := Reg.SYNX_STAT_STATE x) (hw _ (by simp)))
      (v := SynS.off { s.dev.syns x with refLost := false } (e.refBack x).timeNs) ?_ ((hrd _ rfl).trans hL.state)
    rw [hts, htime]
    rfl

theorem referenceRestored_relocks (s : State) (ch x : Fin 2) (ns : Nat) (hl : (s.dev.syns x).refLost = true) (hp : s.dev.rd (Reg.SYNX_CFG_PLAN x) = ch.val) :
    ∃ t, Runs (.referenceRestored ch ns) s t ∧ (t.dev.syns x).refLost = false ∧
      (s.dev.stopped 17 = false → (t.dev.syns x).gated = true ∧ t.dev.rd (Reg.SYNX_STAT_LOCK x) = 0 ∧ Attempts s t x false) ∧
      (s.dev.stopped 17 = true → t.dev.syns x = { s.dev.syns x with refLost := false }) ∧
      Keeps (synWords 0 ++ synWords 1 ++ outputWords ++ tdmWords) s t { s.dev.at ns with syn := t.dev.syn, tdm := t.dev.tdm } := by
  have hrun := runs_of_onDev (execReferenceRestored_eq s ch ns)
  obtain ⟨o0, k0⟩ := (s.dev.at ns).restore_keeps ch.val 0
  obtain ⟨o1, k1⟩ := ((s.dev.at ns).restore ch.val 0).restore_keeps ch.val 1
  have hsub : (∀ a ∈ relockWords 0, a ∈ synWords 0 ++ synWords 1 ++ outputWords ++ tdmWords) ∧
      ∀ a ∈ relockWords 1, a ∈ synWords 0 ++ synWords 1 ++ outputWords ++ tdmWords := by decide
  have hO : Dev.Outs (synWords 0 ++ synWords 1 ++ outputWords ++ tdmWords) (s.dev.seen ns s.dev.pwr) (((s.dev.at ns).restore ch.val 0).restore ch.val 1) :=
    (o0.mono hsub.1).trans (o1.mono hsub.2)
  have hapart : ∀ x y : Fin 2, y ≠ x → ∀ a ∈ (Reg.SYNX_STAT_STATE x).addr :: Reg.PWR_STATUS_STATE.addr :: hopWords x, a ∉ relockWords y := by decide
  suffices h : ∀ t : State, t.dev = (((s.dev.at ns).restore ch.val 0).restore ch.val 1).settle → (t.dev.syns x).refLost = false ∧
      (s.dev.stopped 17 = false → (t.dev.syns x).gated = true ∧ t.dev.rd (Reg.SYNX_STAT_LOCK x) = 0 ∧ Attempts s t x false) ∧
      (s.dev.stopped 17 = true → t.dev.syns x = { s.dev.syns x with refLost := false }) by
    obtain ⟨g1, g2, g3⟩ := h { s with dev := (((s.dev.at ns).restore ch.val 0).restore ch.val 1).settle } rfl
    exact ⟨_, hrun, g1, g2, g3, hO.keeps rfl⟩
  intro t ht
  have htime : t.dev.timeNs = (s.dev.at ns).timeNs := by
    rw [ht]
    exact hO.timeNs
  obtain hx | hx : x = 0 ∨ x = 1 := by omega
  · subst hx
    exact restore_mine (e := s.dev.at ns) hl hp rfl (fun _ _ => rfl) (by rw [ht]; exact k1)
      (by rw [ht]; exact o1.word _ (hapart 0 1 (by decide) _ (by simp))) htime
  · subst hx
    exact restore_mine (e := (s.dev.at ns).restore ch.val 0) hl hp k0 (fun a ha => o0.word a (hapart 1 0 (by decide) a ha)) (by rw [ht]; rfl)
      (by rw [ht]; rfl) (htime.trans o0.timeNs.symm)

end Sys2Proof.Machine
end

section
/-! Loss of a reference (R373, R385). -/
namespace Sys2Proof.Machine
open Sys2Proof.Claims

/-- A synthesizer's own state as it loses its reference. -/
def SynS.lost (v : SynS) (now : Nat) : SynS := { v.off now with refLost := true, relock := .reference }

/-- The loss counted, and marked where the synthesizer was locked. -/
def Dev.refLossNoted (d : Dev) (x : Nat) : Dev :=
  let D := d.count (Reg.SYNX_LOSCNT_COUNT x) Reg.SYN_STATUS_CNT_HALF
  if d.on (Reg.SYNX_STAT_LOCK x) then (D.flag Reg.SYN_STATUS_LOCKEV).post 17 1 (x + 2 ^ 9) else D

theorem Dev.refLossNoted_told (d : Dev) (x : Fin 2) : (∃ es, Dev.Acts (lossFields x) es d (d.refLossNoted x)) ∧
    (d.refLossNoted x).rd (Reg.SYNX_LOSCNT_COUNT x) = (d.rd (Reg.SYNX_LOSCNT_COUNT x) + 1) % 2 ^ 32 := by
  have ok : (Reg.SYNX_LOSCNT_COUNT x).ok = true := rfl
  obtain ⟨s1, s2⟩ := (show ∀ x : Fin 2, Reg.SYN_STATUS_LOCKEV.sep (Reg.SYNX_LOSCNT_COUNT x) = true ∧
    Reg.SYN_STATUS_CNT_HALF.apart (Reg.SYNX_LOSCNT_COUNT x) = true by decide) x
  have hA : Dev.Acts (lossFields x) [] d (d.count (Reg.SYNX_LOSCNT_COUNT x) Reg.SYN_STATUS_CNT_HALF) :=
    (Dev.Acts.refl _ d).count 1 (by simp [lossFields]) (by simp [lossFields]) ok rfl
  have hv := d.rd_count (Reg.SYNX_LOSCNT_COUNT x) Reg.SYN_STATUS_CNT_HALF 1 ok rfl s2
  unfold Dev.refLossNoted
  dsimp only
  generalize d.count (Reg.SYNX_LOSCNT_COUNT x) Reg.SYN_STATUS_CNT_HALF = D at hA hv
  split
  · exact ⟨⟨_, (hA.flag (by simp [lossFields]) rfl).post ..⟩, (Dev.rd_flag_sep D _ _ s1).trans hv⟩
  · exact ⟨⟨_, hA⟩, hv⟩

/-- Synthesizer `x` has lost its reference. -/
structure Dev.LostRef (x : Nat) (d D : Dev) : Prop where
  shows : Dev.Outs ((Reg.SYNX_STAT_STATE x).addr :: lossWords x) d D
  syn : D.syn = d.syn.put x ((d.syns x).lost d.timeNs)
  tdm : D.tdm = d.tdm
  rate : D.rd Reg.SYN_STATUS_RATE96_NOW = d.rd Reg.SYN_STATUS_RATE96_NOW
  lock : D.rd (Reg.SYNX_STAT_LOCK x) = 0 ∧ D.rd (Reg.SYNX_STAT_ILOCK x) = 0 ∧ D.rd (Reg.SYNX_STAT_CMP x) = 0
  state : D.rd (Reg.SYNX_STAT_STATE x) = if d.rd (Reg.SYNX_STAT_STATE x) = 5 then 5 else 4
  count : D.rd (Reg.SYNX_LOSCNT_COUNT x) = (d.rd (Reg.SYNX_LOSCNT_COUNT x) + 1) % 2 ^ 32

/-- A device whose synthesis block is replaced. -/
theorem Dev.withSyn (d : Dev) (S : Syn) : ∃ D, { d with syn := S } = D ∧ Dev.Outs [] d D ∧ D.syn = S ∧ D.tdm = d.tdm :=
  ⟨_, rfl, ⟨rfl, fun _ _ => rfl⟩, rfl, rfl⟩

theorem Dev.losesReference_eq (d : Dev) (x : Nat) : d.losesReference x =
    (((d.refLossNoted x).gateOff x).setSyns x { ((d.refLossNoted x).gateOff x).syns x with refLost := true, relock := .reference }).synState x 4 := rfl

theorem Dev.losesReference_lostRef (d : Dev) (x : Fin 2) : Dev.LostRef x d (d.losesReference x) := by
  rw [Dev.losesReference_eq, Dev.setSyns_eq]
  obtain ⟨⟨es, hN⟩, hv⟩ := d.refLossNoted_told x
  generalize d.refLossNoted x = N at hN hv
  have hG := N.gateOff_acts x
  obtain ⟨l1, l2, l3⟩ := N.gateOff_shows x
  have synG := N.gateOff_syn x
  have hGO := N.gateOff_outs x
  generalize N.gateOff x = G at hG l1 l2 l3 synG hGO
  obtain ⟨B, hB, hBO, hBsyn, hBtdm⟩ := G.withSyn (G.syn.put x { G.syns x with refLost := true, relock := .reference })
  rw [hB]
  have hBrd : ∀ g, B.rd g = G.rd g := fun g => hBO.rd (by simp)
  have hS := B.synState_acts x 4
  have vS := B.synState_shows x (st := 4) (by decide)
  generalize B.synState x 4 = D at hS vS
  have hNsyn : N.syn = d.syn := by rw [hN.only]
  have hNtime : N.timeNs = d.timeNs := by
    rw [hN.only]
    rfl
  have hGx : G.syns x = (d.syns x).off d.timeNs := by
    change G.syn.get x = _
    rw [synG, Syn.get_put _ _ x.isLt x.isLt, if_pos rfl, hNtime, Dev.syns, hNsyn]
    rfl
  obtain ⟨c1, c2, c3, c4, c5⟩ := (show ∀ x : Fin 2, Fld.clear [Reg.SYNX_STAT_STATE x] (Reg.SYNX_STAT_LOCK x) = true ∧
    Fld.clear [Reg.SYNX_STAT_STATE x] (Reg.SYNX_STAT_ILOCK x) = true ∧ Fld.clear [Reg.SYNX_STAT_STATE x] (Reg.SYNX_STAT_CMP x) = true ∧
    Fld.clear [Reg.SYNX_STAT_STATE x] (Reg.SYNX_LOSCNT_COUNT x) = true ∧ Fld.clear [Reg.SYNX_STAT_STATE x] Reg.SYN_STATUS_RATE96_NOW = true by decide) x
  obtain ⟨c6, c7, c8⟩ := (show ∀ x : Fin 2, let fs := [Reg.SYNX_STAT_LOCK x, Reg.SYNX_STAT_ILOCK x, Reg.SYNX_STAT_CMP x]
    Fld.clear fs (Reg.SYNX_STAT_STATE x) = true ∧ Fld.clear fs (Reg.SYNX_LOSCNT_COUNT x) = true ∧ Fld.clear fs Reg.SYN_STATUS_RATE96_NOW = true by decide) x
  obtain ⟨c9, c10⟩ := (show ∀ x : Fin 2, Fld.clear (lossFields x) (Reg.SYNX_STAT_STATE x) = true ∧ Fld.clear (lossFields x) Reg.SYN_STATUS_RATE96_NOW = true by decide) x
  have hsub : (∀ f ∈ lossFields x, f.addr ∈ (Reg.SYNX_STAT_STATE x).addr :: lossWords x) := by
    simp [lossFields, lossWords, Reg.SYN_STATUS_CNT_HALF, Reg.SYN_STATUS_LOCKEV]
  refine ⟨((hN.shows hsub).outs.trans (hGO.mono (by simp))).trans
    ((hBO.mono (by simp)).trans (hS.shows (by simp)).outs), ?_, ?_, ?_, ⟨?_, ?_, ?_⟩, ?_, ?_⟩
  · rw [(hS.shows (ws := [(Reg.SYNX_STAT_STATE x).addr]) (by simp)).syn, hBsyn, hGx, synG, Syn.put_put, hNsyn]
    rfl
  · rw [(hS.shows (ws := [(Reg.SYNX_STAT_STATE x).addr]) (by simp)).tdm, hBtdm, hG.only, hN.only]
  · exact (hS.rd c5).trans ((hBrd _).trans ((hG.rd c8).trans (hN.rd c10)))
  · exact (hS.rd c1).trans ((hBrd _).trans l1)
  · exact (hS.rd c2).trans ((hBrd _).trans l2)
  · exact (hS.rd c3).trans ((hBrd _).trans l3)
  · have h5 : G.rd (Reg.SYNX_STAT_STATE x) = d.rd (Reg.SYNX_STAT_STATE x) := (hG.rd c6).trans (hN.rd c9)
    rw [vS, hBrd, h5]
  · exact (hS.rd c4).trans ((hBrd _).trans ((hG.rd c7).trans hv))

/-- Synthesizer `x` uses channel `ch`, and has not lost it yet. -/
def Dev.usesRef (d : Dev) (ch x : Nat) : Prop :=
  d.rd Reg.SYN_CFG_ENABLE = 1 ∧ d.rd (Reg.SYNX_CFG_EN x) = 1 ∧ d.rd (Reg.SYNX_CFG_PLAN x) = ch ∧ (d.syns x).refLost = false

/-- The test of the model for it. -/
def Dev.refHit (d : Dev) (ch x : Nat) : Bool := d.synOn x && d.rd (Reg.SYNX_CFG_PLAN x) == ch && !(d.syns x).refLost

theorem Dev.refHit_iff (d : Dev) (ch x : Nat) : d.refHit ch x = true ↔ d.usesRef ch x := by
  rw [Dev.refHit, Dev.synOn, Bool.and_eq_true, Bool.and_eq_true, Bool.and_eq_true, Dev.on_true_iff, Dev.on_true_iff, beq_iff_eq, Bool.not_eq_true',
    and_assoc, and_assoc]
  exact Iff.rfl

theorem execLossOfReference_eq (s : State) (ch : Fin 2) (ns : Nat) : exec (.lossOfReference ch ns) s = onDev (fun d =>
    let d := d.at ns
    let hit := [0, 1].filter fun x => d.refHit ch x
    if d.stopped 17 then hit.foldl (fun d x => d.setSyns x { d.syns x with refLost := true }) d
    else hit.foldl Dev.gateReact (hit.foldl Dev.losesReference d)) s := rfl

/-- Synthesizer `x` loses its reference if `b`. -/
def Dev.loseIf (b : Bool) (d : Dev) (x : Nat) : Dev := if b then d.losesReference x else d

/-- What a loss of the reference, or none, leaves of a synthesizer and of the device. -/
structure Dev.MayLose (b : Bool) (x : Nat) (d D : Dev) : Prop where
  outs : Dev.Outs ((Reg.SYNX_STAT_STATE x).addr :: lossWords x) d D
  mine : D.syns x = if b then (d.syns x).lost d.timeNs else d.syns x
  other : D.syns (1 - x) = d.syns (1 - x)
  rest : d.syn.SameRest D.syn
  tdm : D.tdm = d.tdm
  rate : D.rd Reg.SYN_STATUS_RATE96_NOW = d.rd Reg.SYN_STATUS_RATE96_NOW
  lost : b = true → D.rd (Reg.SYNX_STAT_LOCK x) = 0 ∧ D.rd (Reg.SYNX_STAT_ILOCK x) = 0 ∧ D.rd (Reg.SYNX_STAT_CMP x) = 0 ∧
    D.rd (Reg.SYNX_STAT_STATE x) = (if d.rd (Reg.SYNX_STAT_STATE x) = 5 then 5 else 4) ∧
    D.rd (Reg.SYNX_LOSCNT_COUNT x) = (d.rd (Reg.SYNX_LOSCNT_COUNT x) + 1) % 2 ^ 32
  kept : b = false → D.word (Reg.SYNX_STAT_STATE x).addr = d.word (Reg.SYNX_STAT_STATE x).addr

theorem Dev.loseIf_mayLose (b : Bool) (d : Dev) (x : Fin 2) : Dev.MayLose b x d (Dev.loseIf b d x) := by
  cases b with
  | false => exact ⟨.refl _ d, rfl, rfl, ⟨rfl, rfl, rfl, rfl, rfl⟩, rfl, rfl, by simp, fun _ => rfl⟩
  | true =>
    have h := d.losesReference_lostRef x
    have hdef : Dev.loseIf true d x = d.losesReference x := rfl
    rw [hdef]
    generalize d.losesReference x = D at h
    obtain ⟨l1, l2, l3⟩ := h.lock
    refine ⟨h.shows, ?_, ?_, h.syn ▸ d.syn.put_rest x _, h.tdm, h.rate, fun _ => ⟨l1, l2, l3, h.state, h.count⟩, by simp⟩
    · change D.syn.get x = _
      rw [h.syn, Syn.get_put _ _ x.isLt x.isLt, if_pos rfl]
      rfl
    · change D.syn.get (1 - x) = _
      rw [h.syn, Syn.get_put _ _ x.isLt (by omega), if_neg (by omega)]
      rfl

/-- The device once every synthesizer that uses channel `ch` has lost it. -/
def Dev.refGone (d : Dev) (ch : Nat) : Dev := Dev.loseIf (d.refHit ch 1) (Dev.loseIf (d.refHit ch 0) d 0) 1

theorem Dev.refGone_eq (d : Dev) (ch : Nat) : ([0, 1].filter fun x => d.refHit ch x).foldl Dev.losesReference d = d.refGone ch := by
  unfold Dev.refGone
  cases h0 : d.refHit ch 0 <;> cases h1 : d.refHit ch 1 <;> simp [List.filter, h0, h1, Dev.loseIf]

/-- Synthesizer `x` once every synthesizer that uses channel `ch` has lost it. -/
structure Dev.RefGone (ch x : Nat) (d E : Dev) : Prop where
  mine : E.syns x = if d.refHit ch x then (d.syns x).lost d.timeNs else d.syns x
  lost : d.refHit ch x = true → E.rd (Reg.SYNX_STAT_LOCK x) = 0 ∧ E.rd (Reg.SYNX_STAT_ILOCK x) = 0 ∧ E.rd (Reg.SYNX_STAT_CMP x) = 0 ∧
    E.rd (Reg.SYNX_STAT_STATE x) = (if d.rd (Reg.SYNX_STAT_STATE x) = 5 then 5 else 4) ∧
    E.rd (Reg.SYNX_LOSCNT_COUNT x) = (d.rd (Reg.SYNX_LOSCNT_COUNT x) + 1) % 2 ^ 32
  kept : d.refHit ch x = false → E.word (Reg.SYNX_STAT_STATE x).addr = d.word (Reg.SYNX_STAT_STATE x).addr

/-- The words that losses of the reference change. -/
def refWords : List Nat := (Reg.SYNX_STAT_STATE 0).addr :: lossWords 0 ++ (Reg.SYNX_STAT_STATE 1).addr :: lossWords 1

theorem Dev.refGone_told (d : Dev) (ch : Nat) : (∀ x, x < 2 → Dev.RefGone ch x d (d.refGone ch)) ∧ Dev.Outs refWords d (d.refGone ch) ∧
    d.syn.SameRest (d.refGone ch).syn ∧ (d.refGone ch).tdm = d.tdm ∧ (d.refGone ch).rd Reg.SYN_STATUS_RATE96_NOW = d.rd Reg.SYN_STATUS_RATE96_NOW := by
  have h0 := Dev.loseIf_mayLose (d.refHit ch 0) d 0
  have h1 := Dev.loseIf_mayLose (d.refHit ch 1) (Dev.loseIf (d.refHit ch 0) d 0) 1
  unfold Dev.refGone
  rw [show ((0 : Fin 2) : Nat) = 0 from rfl] at h0
  rw [show ((1 : Fin 2) : Nat) = 1 from rfl] at h1
  generalize Dev.loseIf (d.refHit ch 0) d 0 = M at h0 h1
  generalize Dev.loseIf (d.refHit ch 1) M 1 = E at h1
  have o0 : Dev.Outs refWords d M := h0.outs.mono (by decide)
  have o1 : Dev.Outs refWords M E := h1.outs.mono (by decide)
  have hrest : d.syn.SameRest E.syn := ⟨h1.rest.seed.trans h0.rest.seed, h1.rest.seedNext.trans h0.rest.seedNext, h1.rest.waiting.trans h0.rest.waiting,
    h1.rest.fp.trans h0.rest.fp, h1.rest.clkStart.trans h0.rest.clkStart⟩
  refine ⟨fun x hx => ?_, o0.trans o1, hrest, h1.tdm.trans h0.tdm, h1.rate.trans h0.rate⟩
  obtain rfl | rfl := lt_two hx
  · have hst : E.word (Reg.SYNX_STAT_STATE 0).addr = M.word (Reg.SYNX_STAT_STATE 0).addr := h1.outs.word _ (by decide)
    have hc : E.rd (Reg.SYNX_LOSCNT_COUNT 0) = M.rd (Reg.SYNX_LOSCNT_COUNT 0) := h1.outs.rd (by decide)
    refine ⟨h1.other.trans h0.mine, fun hb => ?_, fun hb => hst.trans (h0.kept hb)⟩
    obtain ⟨k1, k2, k3, k4, k5⟩ := h0.lost hb
    exact ⟨(Dev.rd_of_word (f := Reg.SYNX_STAT_LOCK 0) hst).trans k1, (Dev.rd_of_word (f := Reg.SYNX_STAT_ILOCK 0) hst).trans k2,
      (Dev.rd_of_word (f := Reg.SYNX_STAT_CMP 0) hst).trans k3, (Dev.rd_of_word (f := Reg.SYNX_STAT_STATE 0) hst).trans k4, hc.trans k5⟩
  · have hst : M.word (Reg.SYNX_STAT_STATE 1).addr = d.word (Reg.SYNX_STAT_STATE 1).addr := h0.outs.word _ (by decide)
    have hc : M.rd (Reg.SYNX_LOSCNT_COUNT 1) = d.rd (Reg.SYNX_LOSCNT_COUNT 1) := h0.outs.rd (by decide)
    have hs : M.rd (Reg.SYNX_STAT_STATE 1) = d.rd (Reg.SYNX_STAT_STATE 1) := Dev.rd_of_word hst
    have ho : M.syns 1 = d.syns 1 := h0.other
    refine ⟨?_, fun hb => ?_, fun hb => (h1.kept hb).trans hst⟩
    · rw [h1.mine, ho, h0.outs.timeNs]
    · obtain ⟨k1, k2, k3, k4, k5⟩ := h1.lost hb
      rw [hs] at k4
      rw [hc] at k5
      exact ⟨k1, k2, k3, k4, k5⟩

theorem Dev.Reacted.congr {hit hit' : Nat → Prop} {gated : Bool} {d D : Dev} (h : Dev.Reacted hit gated d D) (hh : ∀ x, x < 2 → (hit' x ↔ hit x)) :
    Dev.Reacted hit' gated d D := by
  refine ⟨h.outs, h.syn, h.port, h.tdm, h.clk, fun p hp => ?_⟩
  have hx : d.rd (Reg.OUT_FP_CFG_SYN p) < 2 := d.rd_lt (Reg.OUT_FP_CFG_SYN p)
  rw [hh _ hx]
  exact h.pulse p hp

/-- The outputs told of every synthesizer that lost the reference. -/
theorem Dev.refReact_reacted {d E : Dev} {ch : Nat} (hE : ∀ x, x < 2 → Dev.RefGone ch x d E) :
    (∀ x, x < 2 → d.refHit ch x = false) ∧ ([0, 1].filter fun x => d.refHit ch x).foldl Dev.gateReact E = E ∨
    (∃ x, x < 2 ∧ d.refHit ch x = true) ∧
      Dev.Reacted (fun x => x < 2 ∧ d.refHit ch x = true) true E (([0, 1].filter fun x => d.refHit ch x).foldl Dev.gateReact E) := by
  have hg : ∀ x, x < 2 → d.refHit ch x = true → E.synGated x = true := fun x hx hb => by
    rw [Dev.synGated_eq, (hE x hx).mine, if_pos hb]
    rfl
  cases h0 : d.refHit ch 0 <;> cases h1 : d.refHit ch 1
  · refine .inl ⟨fun x hx => ?_, by simp [List.filter, h0, h1]⟩
    obtain rfl | rfl := lt_two hx
    · exact h0
    · exact h1
  · refine .inr ⟨⟨1, by decide, h1⟩, ?_⟩
    have : ([0, 1].filter fun x => d.refHit ch x).foldl Dev.gateReact E = E.gateReact 1 := by simp [List.filter, h0, h1]
    rw [this]
    refine (E.gateReact_reacted (hg 1 (by decide) h1)).congr fun x hx => ?_
    obtain rfl | rfl := lt_two hx <;> simp [h0, h1]
  · refine .inr ⟨⟨0, by decide, h0⟩, ?_⟩
    have : ([0, 1].filter fun x => d.refHit ch x).foldl Dev.gateReact E = E.gateReact 0 := by simp [List.filter, h0, h1]
    rw [this]
    refine (E.gateReact_reacted (hg 0 (by decide) h0)).congr fun x hx => ?_
    obtain rfl | rfl := lt_two hx <;> simp [h0, h1]
  · refine .inr ⟨⟨0, by decide, h0⟩, ?_⟩
    have : ([0, 1].filter fun x => d.refHit ch x).foldl Dev.gateReact E = (E.gateReact 0).gateReact 1 := by simp [List.filter, h0, h1]
    rw [this]
    have hall : ∀ y, y < 2 → E.synGated y = true := fun y hy => hg y hy (by obtain rfl | rfl := lt_two hy <;> assumption)
    refine ((E.gateReact_reacted (hg 0 (by decide) h0)).again hall (x := 1) (by decide) (by decide)).congr fun x hx => ?_
    obtain rfl | rfl := lt_two hx <;> simp [h0, h1]

/-- Where the power state stops SYN, only the loss is noted. -/
theorem Dev.refNoted_told (d : Dev) (ch : Nat) : ∃ S, ([0, 1].filter fun x => d.refHit ch x).foldl (fun d x => d.setSyns x { d.syns x with refLost := true }) d =
    { d with syn := S } ∧ ∀ x, x < 2 → S.get x = if d.refHit ch x then { d.syns x with refLost := true } else d.syns x := by
  have hget : ∀ x, d.syn.get x = d.syns x := fun _ => rfl
  cases h0 : d.refHit ch 0 <;> cases h1 : d.refHit ch 1 <;> simp only [List.filter, h0, h1, List.foldl_cons, List.foldl_nil, Dev.setSyns_eq]
  · refine ⟨d.syn, rfl, fun x hx => ?_⟩
    obtain rfl | rfl := lt_two hx <;> simp [h0, h1, hget]
  · refine ⟨_, rfl, fun x hx => ?_⟩
    rw [Syn.get_put _ _ (by decide) hx]
    obtain rfl | rfl := lt_two hx <;> simp [h0, h1, hget]
  · refine ⟨_, rfl, fun x hx => ?_⟩
    rw [Syn.get_put _ _ (by decide) hx]
    obtain rfl | rfl := lt_two hx <;> simp [h0, h1, hget]
  · refine ⟨_, rfl, fun x hx => ?_⟩
    rw [Syn.get_put _ _ (by decide) hx, Syn.get_put _ _ (by decide) hx]
    obtain rfl | rfl := lt_two hx
    · simp [h0]
    · simp only [h1, if_true]
      change ({ (d.syn.put 0 _).get 1 with refLost := true } : SynS) = _
      rw [Syn.get_put _ _ (by decide) (by decide), if_neg (by decide), hget]

theorem refWords_clear : (∀ a ∈ refWords, ¬ (0x18000 ≤ a ∧ a < 0x19000) ∧ ¬ (0xD000 ≤ a ∧ a < 0xE000) ∧ a ∉ outputWords ++ tdmWords ∧
    a ≠ (Reg.SYNX_CFG_PLAN 0).addr ∧ a ≠ (Reg.SYNX_CFG_PLAN 1).addr) ∧
    (∀ a ∈ refWords, a ∈ synWords 0 ++ synWords 1 ++ outputWords ++ tdmWords) := by
  decide

theorem synX_notin : ∀ x : Fin 2, (Reg.SYNX_STAT_STATE x).addr ∉ outputWords ++ tdmWords ∧ (Reg.SYNX_CFG_PLAN x).addr ∉ outputWords ++ tdmWords ∧
    (Reg.SYNX_LOSCNT_COUNT x).addr ∉ outputWords ++ tdmWords := by decide

theorem lossOfReference_noted (s : State) (ch : Fin 2) (ns : Nat) (hst : s.dev.stopped 17 = true) :
    ∃ t, Runs (.lossOfReference ch ns) s t ∧ Keeps [] s t { s.dev.at ns with syn := t.dev.syn } ∧
      ∀ x, x < 2 → t.dev.syns x = if (s.dev.at ns).refHit ch x then { s.dev.syns x with refLost := true } else s.dev.syns x := by
  have hrun := runs_of_onDev (execLossOfReference_eq s ch ns)
  dsimp only at hrun
  have hst' : (s.dev.at ns).stopped 17 = true := hst
  obtain ⟨S, hS, hx⟩ := (s.dev.at ns).refNoted_told ch
  rw [if_pos hst', hS] at hrun
  exact ⟨_, hrun, ⟨fun _ _ => rfl, rfl⟩, hx⟩

theorem lossOfReference_gates (s : State) (ch : Fin 2) (ns : Nat) (hst : s.dev.stopped 17 = false) (hit : Nat → Prop)
    (hhit : ∀ x, (s.dev.at ns).refHit ch x = true ↔ hit x) :
    ∃ t, Runs (.lossOfReference ch ns) s t ∧
      (∀ x, x < 2 → hit x → GatedNow s t x ∧ (t.dev.syns x).refLost = true ∧ (t.dev.syns x).relock = .reference ∧
        t.dev.rd (Reg.SYNX_STAT_STATE x) = (if s.dev.rd (Reg.SYNX_STAT_STATE x) = 5 then 5 else 4) ∧
        t.dev.rd (Reg.SYNX_LOSCNT_COUNT x) = (s.dev.rd (Reg.SYNX_LOSCNT_COUNT x) + 1) % 2 ^ 32) ∧
      (∀ x, x < 2 → ¬ hit x → t.dev.syns x = s.dev.syns x ∧ t.dev.word (Reg.SYNX_STAT_STATE x).addr = s.dev.word (Reg.SYNX_STAT_STATE x).addr) ∧
      ((∃ x, x < 2 ∧ hit x) → PortsFollow (s.dev.at ns).frameTurn t ∧ ClocksFollow s t ∧ PulsesFollow s t (fun x => x < 2 ∧ hit x) true) ∧
      Keeps (synWords 0 ++ synWords 1 ++ outputWords ++ tdmWords) s t { s.dev.at ns with syn := t.dev.syn, tdm := t.dev.tdm } := by
  have hrun := runs_of_onDev (execLossOfReference_eq s ch ns)
  dsimp only at hrun
  have hst' : ¬ (s.dev.at ns).stopped 17 = true := by
    intro h
    rw [show (s.dev.at ns).stopped 17 = s.dev.stopped 17 from rfl, hst] at h
    cases h
  rw [if_neg hst', Dev.refGone_eq] at hrun
  obtain ⟨hE, oE, rE, tE, raE⟩ := (s.dev.at ns).refGone_told ch
  have hR := Dev.refReact_reacted hE
  generalize (s.dev.at ns).refGone ch = E at hE oE rE tE raE hR hrun
  generalize ([0, 1].filter fun x => (s.dev.at ns).refHit ch x).foldl Dev.gateReact E = D at hR hrun
  obtain ⟨hclr, hsub⟩ := refWords_clear
  have oD : Dev.Outs (outputWords ++ tdmWords) E D ∧ D.syn = { E.syn with fp := D.syn.fp } := by
    obtain ⟨-, h⟩ | ⟨-, h⟩ := hR
    · rw [h]
      exact ⟨.refl _ E, rfl⟩
    · exact ⟨h.outs, h.syn⟩
  have hsyns : ∀ y, D.syns y = E.syns y := fun y => by
    change D.syn.get y = E.syn.get y
    rw [oD.2]
    rfl
  have hO : Dev.Outs (synWords 0 ++ synWords 1 ++ outputWords ++ tdmWords) (s.dev.seen ns s.dev.pwr) D :=
    (oE.mono hsub).trans (oD.1.mono fun a ha => by
      simp only [List.mem_append] at ha ⊢
      obtain h | h := ha
      · exact .inl (.inr h)
      · exact .inr h)
  have htime : D.timeNs = (s.dev.at ns).timeNs := hO.timeNs
  refine ⟨_, hrun, fun x hx hh => ?_, fun x hx hn => ?_, fun hany => ?_, hO.keeps rfl⟩
  · have hb := (hhit x).mpr hh
    obtain ⟨n1, -, n3⟩ := synX_notin ⟨x, hx⟩
    obtain ⟨k1, k2, k3, k4, k5⟩ := (hE x hx).lost hb
    have hmine : D.syns x = (s.dev.syns x).lost (s.dev.at ns).timeNs := (hsyns x).trans ((hE x hx).mine.trans (if_pos hb))
    refine ⟨⟨?_, ?_, ?_, ?_, ?_⟩, ?_, ?_, (oD.1.rd (g := Reg.SYNX_STAT_STATE x) n1).trans k4, (oD.1.rd n3).trans k5⟩
    · exact (congrArg SynS.gated hmine).trans rfl
    · refine (congrArg SynS.gateAt hmine).trans ?_
      change _ = if (s.dev.syns x).gated then (s.dev.syns x).gateAt else D.timeNs
      rw [htime]
      rfl
    · exact (oD.1.rd (g := Reg.SYNX_STAT_LOCK x) n1).trans k1
    · exact (oD.1.rd (g := Reg.SYNX_STAT_ILOCK x) n1).trans k2
    · exact (oD.1.rd (g := Reg.SYNX_STAT_CMP x) n1).trans k3
    · exact (congrArg SynS.refLost hmine).trans rfl
    · exact (congrArg SynS.relock hmine).trans rfl
  · have hb : (s.dev.at ns).refHit ch x = false := by
      rw [← Bool.not_eq_true, hhit]
      exact hn
    obtain ⟨n1, -, -⟩ := synX_notin ⟨x, hx⟩
    exact ⟨(hsyns x).trans ((hE x hx).mine.trans (by rw [hb]; rfl)), (oD.1.word _ n1).trans ((hE x hx).kept hb)⟩
  · obtain ⟨hno, -⟩ | ⟨-, hre⟩ := hR
    · obtain ⟨x, hx, hh⟩ := hany
      rw [← hhit, hno x hx] at hh
      cases hh
    · have hhits : (fun x => x < 2 ∧ (s.dev.at ns).refHit ch x = true) = fun x => x < 2 ∧ hit x := funext fun x => by rw [hhit]
      rw [hhits] at hre
      have hfol := hre.follow (d := s.dev.at ns) (s := s) (t := { s with dev := D.settle })
        ⟨fun n => Dev.port_congr tE n, oE.ns, fun a ha => oE.word a fun hm => (hclr a hm).2.1 ha⟩
        (by rw [Dev.nSamples, Dev.fam96, Dev.on, raE, Dev.nSamples, Dev.fam96, Dev.on])
        (fun a ha hb => oE.word a fun hm => (hclr a hm).1 ⟨ha, hb⟩) rE.fp
        (fun x hx => oE.rd fun hm => by
          obtain ⟨-, -, -, p0, p1⟩ := hclr _ hm
          obtain rfl | rfl := lt_two hx
          · exact p0 rfl
          · exact p1 rfl)
        (fun _ _ => rfl) rfl rfl oD.1.timeNs (fun x hx => by rw [Dev.synGated_eq]; exact congrArg SynS.gated (hsyns x))
        (fun x hx => by
          obtain ⟨n1, n2, -⟩ := synX_notin ⟨x, hx⟩
          exact ⟨oD.1.rd (g := Reg.SYNX_STAT_LOCK x) n1, oD.1.rd (g := Reg.SYNX_STAT_UNALIGNED x) n1, oD.1.rd n2⟩)
      exact ⟨hfol.1, hfol.2.1.1, hfol.2.2⟩

theorem synthesizersAreGated : SynthesizersAreGated := by
  refine ⟨lossOfLock_gates, fun s ch ns => ?_, fun s ch x ns => referenceRestored_relocks s ch x ns, research_relocks⟩
  intro hit
  have hhit : ∀ x, (s.dev.at ns).refHit ch x = true ↔ hit x := (s.dev.at ns).refHit_iff ch
  refine ⟨fun hst => ?_, fun hst => lossOfReference_gates s ch ns hst hit hhit⟩
  obtain ⟨t, hrun, hk, hx⟩ := lossOfReference_noted s ch ns hst
  refine ⟨t, hrun, hk, fun x hx2 => (hx x hx2).trans ?_⟩
  by_cases h : hit x
  · rw [if_pos h, if_pos ((hhit x).mpr h)]
  · rw [if_neg h, if_neg fun hc => h ((hhit x).mp hc)]

end Sys2Proof.Machine
end

section
/-! Attempts of a synthesizer end: hops abandoned, faulty lock paths, failures, retries, and the declaration of lock (R378 to R385). -/
namespace Sys2Proof.Machine
open Sys2Proof.Claims

/-- Only synthesizer `x`'s own state, and the words at `ws`, have changed. -/
theorem alone_of {s t : State} {ns : Nat} {ws : List Nat} {fs : List Fld} {es : List (Nat × Nat × Nat)} {x : Fin 2} {v : SynS} {B D : Dev}
    (hB : { s.dev.at ns with syn := s.dev.syn.put x v } = B) (h : Dev.Acts fs es B D) (hs : ∀ f ∈ fs, f.addr ∈ ws) (ht : t.dev = D.settle) :
    (Keeps ws s t { s.dev.at ns with syn := t.dev.syn } ∧ t.dev.syns (1 - x) = s.dev.syns (1 - x) ∧ t.dev.syn.fp = s.dev.syn.fp) ∧
      t.dev.syns x = v ∧ t.dev.timeNs = (s.dev.at ns).timeNs ∧ ∀ g, Fld.clear fs g = true → t.dev.rd g = s.dev.rd g := by
  subst hB
  have hsyn : t.dev.syn = s.dev.syn.put x v := by
    rw [ht, h.only]
    rfl
  refine ⟨⟨⟨fun a ha => ?_, ?_⟩, ?_, by rw [hsyn, (s.dev.syn.put_rest x v).fp]⟩, ?_, ?_, fun g hg => ?_⟩
  · rw [ht]
    exact (h.shows hs).word a ha
  · rw [ht, h.only]
    rfl
  · change t.dev.syn.get (1 - x) = _
    rw [hsyn, Syn.get_put _ _ x.isLt (by omega), if_neg (by omega)]
    rfl
  · change t.dev.syn.get x = _
    rw [hsyn, Syn.get_put _ _ x.isLt x.isLt, if_pos rfl]
  · rw [ht, h.only]
    rfl
  · rw [ht, Dev.settle_rd, h.rd hg]
    rfl

/-- An attempt that begins at `ns` on the device of `s`. -/
theorem attempt_alone {s t : State} {ns : Nat} (x : Fin 2) (full : Bool) (ht : t.dev = ((s.dev.at ns).attempt x full).settle) :
    Attempts s t x full ∧ Keeps [(Reg.SYNX_STAT_STATE x).addr] s t { s.dev.at ns with syn := t.dev.syn } ∧
      t.dev.syns (1 - x) = s.dev.syns (1 - x) ∧ t.dev.syn.fp = s.dev.syn.fp := by
  have hA := (s.dev.at ns).attempt_acts x full
  have hS := (s.dev.at ns).attempt_shows x full
  generalize (s.dev.at ns).attempt x full = D at hA hS ht
  obtain ⟨h1, h2, h3, -⟩ := alone_of (ws := [(Reg.SYNX_STAT_STATE x).addr]) rfl hA (by simp) ht
  refine ⟨attempts_of (d := s.dev.at ns) x full (fun _ _ => rfl) rfl (v := s.dev.syns x) (by rw [h2, h3]; rfl) ?_, h1⟩
  rw [ht, Dev.settle_rd, hS]

/-- An event of a synthesizer that finds nothing to do. -/
theorem waits_of {s : State} {c : Instr} {ns : Nat} (h : Runs c s { s with dev := (s.dev.at ns).settle }) : ∃ t, Runs c s t ∧ Keeps [] s t (s.dev.at ns) :=
  ⟨_, h, fun _ _ => rfl, rfl⟩

theorem hopAbandon_searches (s : State) (x : Fin 2) (ns : Nat) : let v := s.dev.syns x
    (v.relock = .hop → v.tryAt + 12000 ≤ (s.dev.at ns).timeNs → ∃ t, Runs (.hopAbandon x ns) s t ∧ Attempts s t x true ∧
      Keeps [(Reg.SYNX_STAT_STATE x).addr] s t { s.dev.at ns with syn := t.dev.syn } ∧ t.dev.syns (1 - x) = s.dev.syns (1 - x) ∧ t.dev.syn.fp = s.dev.syn.fp) ∧
    (v.relock ≠ .hop ∨ (s.dev.at ns).timeNs < v.tryAt + 12000 → ∃ t, Runs (.hopAbandon x ns) s t ∧ Keeps [] s t (s.dev.at ns)) := by
  intro v
  have hrun := runs_of_onDev (show exec (.hopAbandon x ns) s = onDev (fun d =>
    let d := d.at ns
    if (d.syns x).relock = .hop ∧ (d.syns x).tryAt + 12000 ≤ d.timeNs then d.attempt x true else d) s from rfl)
  dsimp only at hrun
  have hv : (s.dev.at ns).syns x = v := rfl
  rw [hv] at hrun
  refine ⟨fun h1 h2 => ?_, fun h => ?_⟩
  · rw [if_pos ⟨h1, h2⟩] at hrun
    exact ⟨_, hrun, attempt_alone x true rfl⟩
  · rw [if_neg (by rintro ⟨k1, k2⟩; obtain h | h := h; exacts [h k1, by omega])] at hrun
    exact waits_of hrun

theorem relockRetry_tries (s : State) (x : Fin 2) (ns : Nat) : let v := s.dev.syns x
    (v.relock = .failed → v.tryAt + 1000000 ≤ (s.dev.at ns).timeNs → ∃ t, Runs (.relockRetry x ns) s t ∧ Attempts s t x false ∧
      Keeps [(Reg.SYNX_STAT_STATE x).addr] s t { s.dev.at ns with syn := t.dev.syn } ∧ t.dev.syns (1 - x) = s.dev.syns (1 - x) ∧ t.dev.syn.fp = s.dev.syn.fp) ∧
    (v.relock ≠ .failed ∨ (s.dev.at ns).timeNs < v.tryAt + 1000000 → ∃ t, Runs (.relockRetry x ns) s t ∧ Keeps [] s t (s.dev.at ns)) := by
  intro v
  have hrun := runs_of_onDev (show exec (.relockRetry x ns) s = onDev (fun d =>
    let d := d.at ns
    if (d.syns x).relock = .failed ∧ (d.syns x).tryAt + 10 ^ 6 ≤ d.timeNs then d.attempt x false else d) s from rfl)
  dsimp only at hrun
  have hv : (s.dev.at ns).syns x = v := rfl
  have hms : (10 : Nat) ^ 6 = 1000000 := by norm_num
  rw [hv] at hrun
  rw [← hms]
  refine ⟨fun h1 h2 => ?_, fun h => ?_⟩
  · rw [if_pos ⟨h1, h2⟩] at hrun
    exact ⟨_, hrun, attempt_alone x false rfl⟩
  · rw [if_neg (by rintro ⟨k1, k2⟩; obtain h | h := h; exacts [h k1, by omega])] at hrun
    exact waits_of hrun

/-- A lock path found faulty (R383). -/
def Dev.lpNoted (d : Dev) (x : Nat) (low : Bool) : Dev :=
  ((((d.wr (Reg.SYNX_STAT_CMP x) (bit (!low))).wr (Reg.SYNX_STAT_ILOCK x) (bit low)).wr (Reg.SYNX_STAT_LPFAULT x) 1).flag Reg.SYN_STATUS_FAULTEV).post 17 2
    (x + bit low * 2 ^ 8)

def lpFields (x : Nat) : List Fld := [Reg.SYNX_STAT_CMP x, Reg.SYNX_STAT_ILOCK x, Reg.SYNX_STAT_LPFAULT x, Reg.SYN_STATUS_FAULTEV]

theorem Dev.lpNoted_told (d : Dev) (x : Fin 2) (low : Bool) : Dev.Acts (lpFields x) [(17, 2, x.val + bit low * 2 ^ 8)] d (d.lpNoted x low) ∧
    (d.lpNoted x low).rd (Reg.SYNX_STAT_LPFAULT x) = 1 ∧ (d.lpNoted x low).rd (Reg.SYNX_STAT_CMP x) = bit (!low) ∧
    (d.lpNoted x low).rd (Reg.SYNX_STAT_ILOCK x) = bit low ∧ (d.lpNoted x low).rd Reg.SYN_STATUS_FAULTEV = 1 := by
  have ok := statX_ok x
  obtain ⟨s1, s2, s3, s4, s5, s6⟩ := (show ∀ x : Fin 2, Reg.SYN_STATUS_FAULTEV.sep (Reg.SYNX_STAT_LPFAULT x) = true ∧
    Reg.SYN_STATUS_FAULTEV.sep (Reg.SYNX_STAT_CMP x) = true ∧ Reg.SYN_STATUS_FAULTEV.sep (Reg.SYNX_STAT_ILOCK x) = true ∧
    (Reg.SYNX_STAT_LPFAULT x).sep (Reg.SYNX_STAT_CMP x) = true ∧ (Reg.SYNX_STAT_LPFAULT x).sep (Reg.SYNX_STAT_ILOCK x) = true ∧
    (Reg.SYNX_STAT_ILOCK x).sep (Reg.SYNX_STAT_CMP x) = true by decide) x
  have hlt : ∀ b : Bool, bit b < 2 ^ 1 := fun b => bit_lt_two b
  unfold Dev.lpNoted
  refine ⟨(((((Dev.Acts.refl _ d).wr _ (by simp [lpFields]) (ok _ (by simp))).wr _ (by simp [lpFields]) (ok _ (by simp))).wr _ (by simp [lpFields])
    (ok _ (by simp))).flag (by simp [lpFields]) rfl).post .., ?_, ?_, ?_, ?_⟩ <;> rw [Dev.post_rd]
  · rw [Dev.rd_flag_sep _ _ _ s1, Dev.rd_wr_lt _ (Reg.SYNX_STAT_LPFAULT x) 1 (ok _ (by simp)) (show 1 < 2 ^ 1 by decide)]
  · rw [Dev.rd_flag_sep _ _ _ s2, Dev.rd_wr_sep _ _ _ _ s4, Dev.rd_wr_sep _ _ _ _ s6, Dev.rd_wr_lt _ _ _ (ok _ (by simp)) (hlt _)]
  · rw [Dev.rd_flag_sep _ _ _ s3, Dev.rd_wr_sep _ _ _ _ s5, Dev.rd_wr_lt _ _ _ (ok _ (by simp)) (hlt _)]
  · rw [Dev.rd_flag _ _ rfl]

theorem execLpfault_eq (s : State) (x : Fin 2) (low : Bool) (ns : Nat) : exec (.lpfault x low ns) s = onDev (fun d =>
    let d := d.at ns
    let v := d.syns x
    if (v.relock ≠ .search ∧ v.relock ≠ .hop) ∨ d.timeNs < (if low then v.tryAt else v.gateAt) + 20000 then d
    else (d.setSyns x { v with lp := true }).lpNoted x low) s := rfl

theorem lpfault_reports (s : State) (x : Fin 2) (ns : Nat) (low : Bool) : let v := s.dev.syns x
    let now := (s.dev.at ns).timeNs
    let tries := v.relock = .search ∨ v.relock = .hop
    let due := (if low then v.tryAt else v.gateAt) + 20000
    (tries → due ≤ now → ∃ t, Runs (.lpfault x low ns) s t ∧ t.dev.rd (Reg.SYNX_STAT_LPFAULT x) = 1 ∧
        t.dev.rd (Reg.SYNX_STAT_LOCK x) = s.dev.rd (Reg.SYNX_STAT_LOCK x) ∧ t.dev.rd (Reg.SYNX_STAT_CMP x) = (if low then 0 else 1) ∧
        t.dev.rd (Reg.SYNX_STAT_ILOCK x) = (if low then 1 else 0) ∧ t.dev.rd Reg.SYN_STATUS_FAULTEV = 1 ∧
        t.dev.syns x = { v with lp := true } ∧ (Keeps [(Reg.SYNX_STAT_STATE x).addr, Reg.SYN_STATUS_FAULTEV.addr] s t { s.dev.at ns with syn := t.dev.syn } ∧
          t.dev.syns (1 - x) = s.dev.syns (1 - x) ∧ t.dev.syn.fp = s.dev.syn.fp) ∧
        (Room s → EntersAll s t [(17, 2, x.val + if low then 2 ^ 8 else 0)])) ∧
      (¬ tries ∨ now < due → ∃ t, Runs (.lpfault x low ns) s t ∧ Keeps [] s t (s.dev.at ns)) := by
  intro v now tries due
  have hrun := runs_of_onDev (execLpfault_eq s x low ns)
  dsimp only at hrun
  have hv : (s.dev.at ns).syns x = v := rfl
  rw [hv, Dev.setSyns_eq] at hrun
  refine ⟨fun h1 h2 => ?_, fun h => ?_⟩
  · rw [if_neg (by
      rintro (⟨k1, k2⟩ | k)
      · exact h1.elim k1 k2
      · exact absurd k (Nat.not_lt.mpr h2))] at hrun
    obtain ⟨B, hB, -, -⟩ := (s.dev.at ns).withSyn (s.dev.syn.put x { v with lp := true })
    rw [show (s.dev.at ns).syn = s.dev.syn from rfl, hB] at hrun
    obtain ⟨hA, v1, v2, v3, v4⟩ := B.lpNoted_told x low
    generalize B.lpNoted x low = D at hA v1 v2 v3 v4 hrun
    have hsub : ∀ f ∈ lpFields x, f.addr ∈ [(Reg.SYNX_STAT_STATE x).addr, Reg.SYN_STATUS_FAULTEV.addr] :=
      (show ∀ x : Fin 2, ∀ f ∈ lpFields x, f.addr ∈ [(Reg.SYNX_STAT_STATE x).addr, Reg.SYN_STATUS_FAULTEV.addr] by decide) x
    obtain ⟨g1, g2, -, g4⟩ := alone_of (t := { s with dev := D.settle }) hB hA hsub rfl
    have hset : ∀ g, D.settle.rd g = D.rd g := fun g => Dev.settle_rd D g
    have hb : bit (!low) = (if low then 0 else 1) ∧ bit low = (if low then 1 else 0) := by cases low <;> simp [bit]
    refine ⟨_, hrun, (hset _).trans v1, ?_, (hset _).trans (v2.trans hb.1), (hset _).trans (v3.trans hb.2), (hset _).trans v4, g2, g1, fun hr => ?_⟩
    · exact g4 _ ((show ∀ x : Fin 2, Fld.clear (lpFields x) (Reg.SYNX_STAT_LOCK x) = true by decide) x)
    · have he : x.val + bit low * 2 ^ 8 = x.val + if low then 2 ^ 8 else 0 := by cases low <;> simp [bit]
      rw [← he]
      exact hA.enters (by rw [← hB]; rfl) (by rw [← hB]; rfl) 17 (by decide) (by simp) (by simp) hr rfl
  · rw [if_pos (by
      obtain h | h := h
      · exact .inl (not_or.mp h)
      · exact .inr h)] at hrun
    exact waits_of hrun

/-! ### Failed attempts -/

def almFields : List Fld := [Reg.ALM_FAULTLAT_FAULT, Reg.ALM_FAULT_FAULT, Reg.ALM_STATUS_FAULTEV]

/-- The device faults shown anew change the words of the faults alone (R470). -/
theorem Dev.refreshFaults_acts (d : Dev) : ∃ es, Dev.Acts almFields es d d.refreshFaults := by
  have hdef : d.refreshFaults = if bitsOf d.faultBits = (d.wr Reg.ALM_FAULTLAT_FAULT (d.rd Reg.ALM_FAULTLAT_FAULT ||| bitsOf d.faultBits)).rd Reg.ALM_FAULT_FAULT
      then d.wr Reg.ALM_FAULTLAT_FAULT (d.rd Reg.ALM_FAULTLAT_FAULT ||| bitsOf d.faultBits)
      else (((d.wr Reg.ALM_FAULTLAT_FAULT (d.rd Reg.ALM_FAULTLAT_FAULT ||| bitsOf d.faultBits)).wr Reg.ALM_FAULT_FAULT (bitsOf d.faultBits)).flag
        Reg.ALM_STATUS_FAULTEV).post 8 6 (bitsOf d.faultBits) := rfl
  have h1 := (Dev.Acts.refl almFields d).wr (f := Reg.ALM_FAULTLAT_FAULT) (d.rd Reg.ALM_FAULTLAT_FAULT ||| bitsOf d.faultBits) (by simp [almFields]) rfl
  rw [hdef]
  generalize d.wr Reg.ALM_FAULTLAT_FAULT (d.rd Reg.ALM_FAULTLAT_FAULT ||| bitsOf d.faultBits) = D at h1
  split
  · exact ⟨_, h1⟩
  · exact ⟨_, ((h1.wr (f := Reg.ALM_FAULT_FAULT) _ (by simp [almFields]) rfl).flag (f := Reg.ALM_STATUS_FAULTEV) (by simp [almFields]) rfl).post ..⟩

/-- A failed attempt, counted. -/
def Dev.failCounted (d : Dev) (x : Nat) : Dev := d.count (Reg.SYNX_FAILCNT_COUNT x) Reg.SYN_STATUS_CNT_HALF

/-- The first failure since the last declared lock. -/
def Dev.failShown (d : Dev) (x : Nat) : Dev := (((d.wr (Reg.SYNX_STAT_STATE x) 5).flag Reg.SYN_STATUS_FAULTEV).post 17 3 x).refreshFaults

def failFields (x : Nat) : List Fld := [Reg.SYNX_FAILCNT_COUNT x, Reg.SYN_STATUS_CNT_HALF, Reg.SYNX_STAT_STATE x, Reg.SYN_STATUS_FAULTEV] ++ almFields

theorem Dev.failCounted_told (d : Dev) (x : Fin 2) : Dev.Acts [Reg.SYNX_FAILCNT_COUNT x, Reg.SYN_STATUS_CNT_HALF] [] d (d.failCounted x) ∧
    (d.failCounted x).rd (Reg.SYNX_FAILCNT_COUNT x) = (d.rd (Reg.SYNX_FAILCNT_COUNT x) + 1) % 2 ^ 32 :=
  ⟨d.count_acts _ _ 1 rfl rfl, d.rd_count _ _ 1 rfl rfl ((show ∀ x : Fin 2, Reg.SYN_STATUS_CNT_HALF.apart (Reg.SYNX_FAILCNT_COUNT x) = true by decide) x)⟩

theorem Dev.failShown_told (d : Dev) (x : Fin 2) : (∃ es, Dev.Acts ([Reg.SYNX_STAT_STATE x, Reg.SYN_STATUS_FAULTEV] ++ almFields) es d (d.failShown x)) ∧
    (d.failShown x).rd (Reg.SYNX_STAT_STATE x) = 5 ∧ (d.failShown x).rd Reg.SYN_STATUS_FAULTEV = 1 := by
  have ok := statX_ok x (Reg.SYNX_STAT_STATE x) (by simp)
  obtain ⟨c1, c2, c3⟩ := (show ∀ x : Fin 2, Reg.SYN_STATUS_FAULTEV.sep (Reg.SYNX_STAT_STATE x) = true ∧ Fld.clear almFields (Reg.SYNX_STAT_STATE x) = true ∧
    Fld.clear almFields Reg.SYN_STATUS_FAULTEV = true by decide) x
  have h1 : Dev.Acts [Reg.SYNX_STAT_STATE x, Reg.SYN_STATUS_FAULTEV] [(17, 3, x.val)] d (((d.wr (Reg.SYNX_STAT_STATE x) 5).flag Reg.SYN_STATUS_FAULTEV).post 17 3 x) :=
    (((Dev.Acts.refl _ d).wr 5 (by simp) ok).flag (by simp) rfl).post ..
  have v1 : (((d.wr (Reg.SYNX_STAT_STATE x) 5).flag Reg.SYN_STATUS_FAULTEV).post 17 3 x).rd (Reg.SYNX_STAT_STATE x) = 5 := by
    rw [Dev.post_rd, Dev.rd_flag_sep _ _ _ c1, Dev.rd_wr_lt _ (Reg.SYNX_STAT_STATE x) 5 ok (show 5 < 2 ^ 3 by decide)]
  have v2 : (((d.wr (Reg.SYNX_STAT_STATE x) 5).flag Reg.SYN_STATUS_FAULTEV).post 17 3 x).rd Reg.SYN_STATUS_FAULTEV = 1 := by
    rw [Dev.post_rd, Dev.rd_flag _ _ rfl]
  unfold Dev.failShown
  generalize ((d.wr (Reg.SYNX_STAT_STATE x) 5).flag Reg.SYN_STATUS_FAULTEV).post 17 3 x = D at h1 v1 v2
  obtain ⟨es, h2⟩ := D.refreshFaults_acts
  exact ⟨⟨_, (h1.mono (by simp +contextual)).trans (h2.mono (by simp +contextual))⟩, (h2.rd c2).trans v1, (h2.rd c3).trans v2⟩

theorem execSynfail_eq (s : State) (x : Fin 2) (ns : Nat) : exec (.synfail x ns) s = onDev (fun d =>
    let d := d.at ns
    let v := d.syns x
    if (v.relock ≠ .search ∧ v.relock ≠ .hop) ∨ (!v.lp ∧ d.timeNs < v.tryAt + v.bound) then d
    else
      let D := (d.setSyns x { v with relock := .failed, failedOnce := true, tryAt := d.timeNs }).failCounted x
      if v.failedOnce then D else D.failShown x) s := rfl

theorem synfail_counts (s : State) (x : Fin 2) (ns : Nat) : let v := s.dev.syns x
    let now := (s.dev.at ns).timeNs
    let tries := v.relock = .search ∨ v.relock = .hop
    let due := v.lp = true ∨ v.tryAt + (if v.relock = .hop then 31000 else 391000) ≤ now
    (tries → due → ∃ t, Runs (.synfail x ns) s t ∧
        t.dev.syns x = { v with relock := .failed, failedOnce := true, tryAt := now } ∧
        t.dev.rd (Reg.SYNX_FAILCNT_COUNT x) = (s.dev.rd (Reg.SYNX_FAILCNT_COUNT x) + 1) % 2 ^ 32 ∧
        (v.failedOnce = false → t.dev.rd (Reg.SYNX_STAT_STATE x) = 5 ∧ t.dev.rd Reg.SYN_STATUS_FAULTEV = 1) ∧
        (v.failedOnce = true → t.dev.rd (Reg.SYNX_STAT_STATE x) = s.dev.rd (Reg.SYNX_STAT_STATE x)) ∧
        (Keeps (synWords x ++ [Reg.ALM_FAULT_FAULT.addr, Reg.ALM_FAULTLAT_FAULT.addr, Reg.ALM_STATUS_FAULTEV.addr]) s t
          { s.dev.at ns with syn := t.dev.syn } ∧ t.dev.syns (1 - x) = s.dev.syns (1 - x) ∧ t.dev.syn.fp = s.dev.syn.fp)) ∧
      (¬ tries ∨ ¬ due → ∃ t, Runs (.synfail x ns) s t ∧ Keeps [] s t (s.dev.at ns)) := by
  intro v now tries due
  have hrun := runs_of_onDev (execSynfail_eq s x ns)
  dsimp only at hrun
  have hv : (s.dev.at ns).syns x = v := rfl
  have hcond : ((v.relock ≠ .search ∧ v.relock ≠ .hop) ∨ ((!v.lp) = true ∧ now < v.tryAt + v.bound)) ↔ ¬ (tries ∧ due) := by
    rw [Bool.not_eq_true', ← Bool.not_eq_true, SynS.bound]
    simp only [tries, due]
    rw [← not_or, ← Nat.not_le, ← not_or, ← not_and_or]
  rw [hv, Dev.setSyns_eq] at hrun
  obtain ⟨B, hB, hBO, -⟩ := (s.dev.at ns).withSyn (s.dev.syn.put x { v with relock := .failed, failedOnce := true, tryAt := now })
  replace hrun : Runs (.synfail x ns) s { s with dev := (if (v.relock ≠ .search ∧ v.relock ≠ .hop) ∨ ((!v.lp) = true ∧ now < v.tryAt + v.bound) then s.dev.at ns
    else if v.failedOnce then B.failCounted x else (B.failCounted x).failShown x).settle } := by
    rw [← hB]
    exact hrun
  refine ⟨fun h1 h2 => ?_, fun h => ?_⟩
  · rw [if_neg (fun hc => hcond.mp hc ⟨h1, h2⟩)] at hrun
    obtain ⟨hA, c1⟩ := B.failCounted_told x
    generalize B.failCounted x = C at hA c1 hrun
    have hBrd : ∀ g, B.rd g = s.dev.rd g := fun g => hBO.rd (by simp)
    have hset : ∀ (D : Dev) g, D.settle.rd g = D.rd g := fun D g => Dev.settle_rd D g
    obtain ⟨k1, k2⟩ := (show ∀ x : Fin 2, (∀ f ∈ failFields x, f.addr ∈ synWords x ++ [Reg.ALM_FAULT_FAULT.addr, Reg.ALM_FAULTLAT_FAULT.addr,
      Reg.ALM_STATUS_FAULTEV.addr]) ∧ Fld.clear ([Reg.SYNX_STAT_STATE x, Reg.SYN_STATUS_FAULTEV] ++ almFields) (Reg.SYNX_FAILCNT_COUNT x) = true by decide) x
    cases hf : v.failedOnce with
    | true =>
      rw [if_pos hf] at hrun
      obtain ⟨g1, g2, -, g4⟩ := alone_of (t := { s with dev := C.settle }) hB (hA.mono (gs := failFields x) (by simp +contextual [failFields])) k1 rfl
      refine ⟨_, hrun, g2, (hset C _).trans (c1.trans (by rw [hBrd])), by simp, fun _ => ?_, g1⟩
      rw [hset, hA.rd ((show ∀ x : Fin 2, Fld.clear [Reg.SYNX_FAILCNT_COUNT x, Reg.SYN_STATUS_CNT_HALF] (Reg.SYNX_STAT_STATE x) = true by decide) x), hBrd]
    | false =>
      rw [if_neg (by rw [hf]; decide)] at hrun
      obtain ⟨⟨es, hS⟩, v1, v2⟩ := C.failShown_told x
      generalize C.failShown x = D at hS v1 v2 hrun
      have hAD : Dev.Acts (failFields x) ([] ++ es) B D :=
        (hA.mono (by simp +contextual [failFields])).trans (hS.mono fun f hm => by
          simp only [failFields, List.mem_append, List.mem_cons, List.not_mem_nil, or_false] at hm ⊢
          tauto)
      obtain ⟨g1, g2, -, -⟩ := alone_of (t := { s with dev := D.settle }) hB hAD k1 rfl
      refine ⟨_, hrun, g2, ?_, fun _ => ⟨(hset D _).trans v1, (hset D _).trans v2⟩, by simp, g1⟩
      rw [hset, hS.rd k2, c1, hBrd]
  · rw [if_pos (hcond.mpr (not_and_or.mpr h))] at hrun
    exact waits_of hrun

/-! ### Lists of writes -/

def Dev.wrs (d : Dev) (l : List (Fld × Nat)) : Dev := l.foldl (fun d e => d.wr e.1 e.2) d

theorem Dev.wrs_acts (d : Dev) (l : List (Fld × Nat)) (hk : ∀ f ∈ l.map (·.1), f.ok = true) : Dev.Acts (l.map (·.1)) [] d (d.wrs l) := by
  have h : ∀ m : List (Fld × Nat), (∀ e ∈ m, e ∈ l) → ∀ D, Dev.Acts (l.map (·.1)) [] d D → Dev.Acts (l.map (·.1)) [] d (D.wrs m) := by
    intro m hm
    induction m with
    | nil => exact fun _ h => h
    | cons e m ih =>
      intro D hD
      have he : e.1 ∈ l.map (·.1) := List.mem_map_of_mem (hm e List.mem_cons_self)
      exact ih (fun x hx => hm x (List.mem_cons_of_mem e hx)) _ (hD.wr e.2 he (hk _ he))
  exact h l (fun _ h => h) d (.refl _ d)

theorem Dev.wrs_sep (d : Dev) (l : List (Fld × Nat)) (g : Fld) (h : ∀ f ∈ l.map (·.1), f.sep g = true) : (d.wrs l).rd g = d.rd g := by
  induction l generalizing d with
  | nil => rfl
  | cons e l ih =>
    refine (ih (d.wr e.1 e.2) fun f hf => h f (List.mem_cons_of_mem _ hf)).trans (d.rd_wr_sep _ _ _ (h _ List.mem_cons_self))

/-- Each field of a list of writes to separate fields holds what was written to it. -/
theorem Dev.wrs_rd (d : Dev) (l : List (Fld × Nat)) (hs : (l.map (·.1)).Pairwise fun f g => g.sep f = true) (hk : ∀ f ∈ l.map (·.1), f.ok = true)
    (hv : ∀ e ∈ l, e.2 < 2 ^ e.1.width) : ∀ e ∈ l, (d.wrs l).rd e.1 = e.2 := by
  induction l generalizing d with
  | nil => simp
  | cons a l ih =>
    rw [List.map_cons, List.pairwise_cons] at hs
    intro e he
    obtain rfl | he := List.mem_cons.mp he
    · refine ((d.wr e.1 e.2).wrs_sep l e.1 hs.1).trans (d.rd_wr_lt _ _ (hk _ ?_) (hv e List.mem_cons_self))
      simp
    · exact ih (d.wr a.1 a.2) hs.2 (fun f hf => hk f (List.mem_cons_of_mem _ hf)) (fun e he => hv e (List.mem_cons_of_mem _ he)) e he

/-! ### The declaration of lock -/

def slotFields (i : Nat) : List Fld := [Reg.SYN_SLOT_BAND i, Reg.SYN_SLOT_TRIM i, Reg.SYN_SLOT_TEMP i, Reg.SYN_SLOT_VALID i]

/-- What a search writes to its slot (R379). -/
def slotWrites (i band trim temp : Nat) : List (Fld × Nat) :=
  [(Reg.SYN_SLOT_BAND i, band), (Reg.SYN_SLOT_TRIM i, trim), (Reg.SYN_SLOT_TEMP i, temp), (Reg.SYN_SLOT_VALID i, 1)]

/-- What a declaration of lock shows of synthesizer `x` (R382). -/
def lockWrites (x band trim us : Nat) : List (Fld × Nat) :=
  [(Reg.SYNX_STAT_STATE x, 3), (Reg.SYNX_STAT_LOCK x, 1), (Reg.SYNX_STAT_ILOCK x, 1), (Reg.SYNX_STAT_CMP x, 1), (Reg.SYNX_STAT_LPFAULT x, 0),
    (Reg.SYNX_STAT_UNALIGNED x, 0), (Reg.SYNX_STAT_BAND x, band), (Reg.SYNX_STAT_TRIM x, trim), (Reg.SYNX_GATETIME_US x, us)]

def lockWriteFields (x : Nat) : List Fld :=
  [Reg.SYNX_STAT_STATE x, Reg.SYNX_STAT_LOCK x, Reg.SYNX_STAT_ILOCK x, Reg.SYNX_STAT_CMP x, Reg.SYNX_STAT_LPFAULT x,
    Reg.SYNX_STAT_UNALIGNED x, Reg.SYNX_STAT_BAND x, Reg.SYNX_STAT_TRIM x, Reg.SYNX_GATETIME_US x]

def lockNoteFields (x : Nat) : List Fld := [Reg.SYNX_LOCKCNT_COUNT x, Reg.SYN_STATUS_CNT_HALF, Reg.SYN_STATUS_LOCKEV]

def Dev.slotWritten (d : Dev) (x band trim : Nat) : Dev := d.wrs (slotWrites (d.slotOf x) band trim (d.rd Reg.AGE_TEMP_CORE))

def Dev.lockNoted (d : Dev) (x us : Nat) : Dev :=
  ((d.count (Reg.SYNX_LOCKCNT_COUNT x) Reg.SYN_STATUS_CNT_HALF).flag Reg.SYN_STATUS_LOCKEV).post 17 1 (x + 2 ^ 8 + us * 2 ^ 16)

def Dev.lockDeclared (d : Dev) (x band trim us : Nat) : Dev := (d.wrs (lockWrites x band trim us)).lockNoted x us

theorem execLock_eq (s : State) (x : Fin 2) (band : BitVec 4) (trim : BitVec 7) (ns : Nat) : exec (.lock x band trim ns) s = onDev (fun d =>
    let d := d.at ns
    let v := d.syns x
    if (v.relock ≠ .search ∧ v.relock ≠ .hop) ∨ v.lp then d
    else
      let us := min 65535 ((d.timeNs - v.gateAt + 999) / 1000)
      let D := if v.relock = .search then d.slotWritten x band.toNat trim.toNat else d
      let D := (D.setSyns x { v with relock := .none, gated := false, failedOnce := false, lockAt := D.timeNs, lag := 0 }).lockDeclared x band.toNat trim.toNat us
      (D.clksLost).pulsesGate x false) s := rfl

theorem slotFields_facts : ∀ i : Fin 8, (slotFields i).Pairwise (fun f g => g.sep f = true) ∧ ∀ f ∈ slotFields i, f.ok = true := by decide

theorem lockWriteFields_facts : ∀ x : Fin 2, (lockWriteFields x).Pairwise (fun f g => g.sep f = true) ∧ ∀ f ∈ lockWriteFields x, f.ok = true := by decide

theorem Dev.slotWritten_told (d : Dev) (x : Fin 2) (band : BitVec 4) (trim : BitVec 7) :
    Dev.Acts (slotFields (d.slotOf x)) [] d (d.slotWritten x band.toNat trim.toNat) ∧
    ∀ e ∈ slotWrites (d.slotOf x) band.toNat trim.toNat (d.rd Reg.AGE_TEMP_CORE), (d.slotWritten x band.toNat trim.toNat).rd e.1 = e.2 := by
  obtain ⟨hp, hk⟩ := slotFields_facts ⟨d.slotOf x, d.slotOf_lt x⟩
  refine ⟨d.wrs_acts (slotWrites (d.slotOf x) band.toNat trim.toNat (d.rd Reg.AGE_TEMP_CORE)) hk, d.wrs_rd _ hp hk fun e he => ?_⟩
  simp only [slotWrites, List.mem_cons, List.not_mem_nil, or_false] at he
  obtain rfl | rfl | rfl | rfl := he
  · exact band.isLt
  · exact trim.isLt
  · exact d.rd_lt Reg.AGE_TEMP_CORE
  · exact (show 1 < 2 ^ 1 by decide)

theorem Dev.lockNoted_told (d : Dev) (x : Fin 2) (us : Nat) : Dev.Acts (lockNoteFields x) [(17, 1, x.val + 2 ^ 8 + us * 2 ^ 16)] d (d.lockNoted x us) ∧
    (d.lockNoted x us).rd Reg.SYN_STATUS_LOCKEV = 1 ∧
    (d.lockNoted x us).rd (Reg.SYNX_LOCKCNT_COUNT x) = (d.rd (Reg.SYNX_LOCKCNT_COUNT x) + 1) % 2 ^ 32 := by
  obtain ⟨s1, s2⟩ := (show ∀ x : Fin 2, Reg.SYN_STATUS_LOCKEV.sep (Reg.SYNX_LOCKCNT_COUNT x) = true ∧
    Reg.SYN_STATUS_CNT_HALF.apart (Reg.SYNX_LOCKCNT_COUNT x) = true by decide) x
  have h1 := (Dev.Acts.refl (lockNoteFields x) d).count (c := Reg.SYNX_LOCKCNT_COUNT x) (half := Reg.SYN_STATUS_CNT_HALF) 1 (by simp [lockNoteFields])
    (by simp [lockNoteFields]) rfl rfl
  have v1 := d.rd_count (Reg.SYNX_LOCKCNT_COUNT x) Reg.SYN_STATUS_CNT_HALF 1 rfl rfl s2
  unfold Dev.lockNoted
  generalize d.count (Reg.SYNX_LOCKCNT_COUNT x) Reg.SYN_STATUS_CNT_HALF = C at h1 v1
  refine ⟨(h1.flag (f := Reg.SYN_STATUS_LOCKEV) (by simp [lockNoteFields]) rfl).post .., ?_, ?_⟩ <;> rw [Dev.post_rd]
  · rw [Dev.rd_flag _ _ rfl]
  · rw [Dev.rd_flag_sep _ _ _ s1, v1]
    rfl

/-- What a declaration of lock shows. -/
structure Dev.LockShown (x band trim us : Nat) (d D : Dev) : Prop where
  acts : Dev.Acts (lockWriteFields x ++ lockNoteFields x) [(17, 1, x + 2 ^ 8 + us * 2 ^ 16)] d D
  shown : ∀ e ∈ lockWrites x band trim us, D.rd e.1 = e.2
  event : D.rd Reg.SYN_STATUS_LOCKEV = 1
  count : D.rd (Reg.SYNX_LOCKCNT_COUNT x) = (d.rd (Reg.SYNX_LOCKCNT_COUNT x) + 1) % 2 ^ 32

theorem Dev.lockDeclared_shown (d : Dev) (x : Fin 2) (band : BitVec 4) (trim : BitVec 7) {us : Nat} (hu : us < 2 ^ 16) :
    Dev.LockShown x band.toNat trim.toNat us d (d.lockDeclared x band.toNat trim.toNat us) := by
  obtain ⟨hp, hk⟩ := lockWriteFields_facts x
  have hv := d.wrs_rd (lockWrites x band.toNat trim.toNat us) hp hk (by
    intro e he
    simp only [lockWrites, List.mem_cons, List.not_mem_nil, or_false] at he
    obtain rfl | rfl | rfl | rfl | rfl | rfl | rfl | rfl | rfl := he
    · exact (show 3 < 2 ^ 3 by decide)
    · exact (show 1 < 2 ^ 1 by decide)
    · exact (show 1 < 2 ^ 1 by decide)
    · exact (show 1 < 2 ^ 1 by decide)
    · exact (show 0 < 2 ^ 1 by decide)
    · exact (show 0 < 2 ^ 1 by decide)
    · exact band.isLt
    · exact trim.isLt
    · exact hu)
  have hA := d.wrs_acts (lockWrites x band.toNat trim.toNat us) hk
  have hdef : d.lockDeclared x band.toNat trim.toNat us = (d.wrs (lockWrites x band.toNat trim.toNat us)).lockNoted x us := rfl
  rw [hdef]
  have hl : (lockWrites x band.toNat trim.toNat us).map (·.1) = lockWriteFields x := rfl
  rw [hl] at hA
  generalize d.wrs (lockWrites x band.toNat trim.toNat us) = W at hA hv
  obtain ⟨n1, n2, n3⟩ := W.lockNoted_told x us
  obtain ⟨c1, c2⟩ := (show ∀ x : Fin 2, (∀ f ∈ lockWriteFields x, Fld.clear (lockNoteFields x) f = true) ∧
    Fld.clear (lockWriteFields x) (Reg.SYNX_LOCKCNT_COUNT x) = true by decide) x
  refine ⟨(hA.mono (by simp +contextual)).trans (n1.mono (by simp +contextual)), fun e he => ?_, n2, n3.trans (by rw [hA.rd c2])⟩
  exact (n1.rd (c1 _ (hl ▸ List.mem_map_of_mem he))).trans (hv e he)

theorem Dev.slotOf_stated (d : Dev) (x : Nat) : d.slotOf x = 4 * x + 2 * d.rd (Reg.SYNX_CFG_PLAN x) + if 45 ≤ sint 8 (d.rd Reg.AGE_TEMP_CORE) then 1 else 0 := by
  unfold Dev.slotOf bit Dev.dieTemp
  simp only [ge_iff_le, decide_eq_true_eq]

theorem lock_waits (s : State) (x : Fin 2) (band : BitVec 4) (trim : BitVec 7) (ns : Nat) : let tries := (s.dev.syns x).relock = .search ∨ (s.dev.syns x).relock = .hop
    ¬ tries ∨ (s.dev.syns x).lp = true → ∃ t, Runs (.lock x band trim ns) s t ∧ Keeps [] s t (s.dev.at ns) := by
  intro tries h
  have hrun := runs_of_onDev (execLock_eq s x band trim ns)
  dsimp only at hrun
  have hv : (s.dev.at ns).syns x = s.dev.syns x := rfl
  rw [hv, if_pos (by
    obtain h | h := h
    · exact .inl (not_or.mp h)
    · exact .inr h)] at hrun
  exact waits_of hrun

/-- The own state of a synthesizer that declares lock at `now`. -/
def SynS.locked (v : SynS) (now : Nat) : SynS := { v with relock := .none, gated := false, failedOnce := false, lockAt := now, lag := 0 }

/-- The device as synthesizer `x` has declared lock, before the outputs resume. -/
structure LockMade (s : State) (x : Fin 2) (band : BitVec 4) (trim : BitVec 7) (ns us : Nat) (D : Dev) : Prop where
  outs : Dev.Outs (synWords x ++ if (s.dev.syns x).relock = .search then [(Reg.SYN_SLOT_VALID (s.dev.slotOf x)).addr] else []) (s.dev.seen ns s.dev.pwr) D
  tdm : D.tdm = s.dev.tdm
  syn : D.syn = s.dev.syn.put x ((s.dev.syns x).locked (s.dev.at ns).timeNs)
  evq : D.evq = { s.dev.evq with posts := s.dev.evq.posts ++ [(17, 1, x.val + 2 ^ 8 + us * 2 ^ 16)] }
  shown : ∀ e ∈ lockWrites x band.toNat trim.toNat us, D.rd e.1 = e.2
  event : D.rd Reg.SYN_STATUS_LOCKEV = 1
  count : D.rd (Reg.SYNX_LOCKCNT_COUNT x) = (s.dev.rd (Reg.SYNX_LOCKCNT_COUNT x) + 1) % 2 ^ 32
  slot : (s.dev.syns x).relock = .search → ∀ e ∈ slotWrites (s.dev.slotOf x) band.toNat trim.toNat (s.dev.rd Reg.AGE_TEMP_CORE), D.rd e.1 = e.2

theorem synWords_low : ∀ x : Fin 2, (∀ a ∈ synWords x, a < 0x18000) ∧ ∀ i : Fin 8, (Reg.SYN_SLOT_VALID i).addr < 0x18000 ∧
    ∀ y : Fin 2, (Reg.SYNX_CFG_PLAN y).addr ∉ synWords x ∧ (Reg.SYNX_CFG_PLAN y).addr ≠ (Reg.SYN_SLOT_VALID i).addr := by decide

theorem lockFields_apart : ∀ x : Fin 2, (∀ f ∈ lockWriteFields x ++ lockNoteFields x, f.addr ∈ synWords x) ∧
    ∀ i : Fin 8, (∀ f ∈ slotFields i, f.addr = (Reg.SYN_SLOT_VALID i).addr ∧ Fld.clear (lockWriteFields x ++ lockNoteFields x) f = true) ∧
      Fld.clear (slotFields i) (Reg.SYNX_LOCKCNT_COUNT x) = true := by decide

theorem lock_runs (s : State) (x : Fin 2) (band : BitVec 4) (trim : BitVec 7) (ns : Nat) (htries : (s.dev.syns x).relock = .search ∨ (s.dev.syns x).relock = .hop)
    (hlp : (s.dev.syns x).lp = false) : let us := min 65535 (((s.dev.at ns).timeNs - (s.dev.syns x).gateAt + 999) / 1000)
    ∃ D, Runs (.lock x band trim ns) s { s with dev := (D.clksLost.pulsesGate x false).settle } ∧ LockMade s x band trim ns us D := by
  intro us
  have hrun := runs_of_onDev (execLock_eq s x band trim ns)
  dsimp only at hrun
  have hv : (s.dev.at ns).syns x = s.dev.syns x := rfl
  rw [hv, if_neg (by
    rintro (⟨k1, k2⟩ | k)
    · exact htries.elim k1 k2
    · rw [hlp] at k
      cases k)] at hrun
  obtain ⟨ha, hslots⟩ := lockFields_apart x
  obtain ⟨hslot, hcnt⟩ := hslots ⟨s.dev.slotOf x, s.dev.slotOf_lt x⟩
  obtain ⟨fs, P, hPdef, hP, hfs, hPslot⟩ : ∃ fs P, (if (s.dev.syns x).relock = .search then (s.dev.at ns).slotWritten x band.toNat trim.toNat else s.dev.at ns) = P ∧
      Dev.Acts fs [] (s.dev.at ns) P ∧ (fs = if (s.dev.syns x).relock = .search then slotFields (s.dev.slotOf x) else []) ∧
      ((s.dev.syns x).relock = .search → ∀ e ∈ slotWrites (s.dev.slotOf x) band.toNat trim.toNat (s.dev.rd Reg.AGE_TEMP_CORE), P.rd e.1 = e.2) := by
    obtain ⟨g1, g2⟩ := (s.dev.at ns).slotWritten_told x band trim
    by_cases h : (s.dev.syns x).relock = .search
    · rw [if_pos h, if_pos h]
      exact ⟨_, _, rfl, g1, rfl, fun _ => g2⟩
    · rw [if_neg h, if_neg h]
      exact ⟨_, _, rfl, .refl _ _, rfl, fun hc => absurd hc h⟩
  have hfsub : ∀ f ∈ fs, f.addr ∈ (if (s.dev.syns x).relock = .search then [(Reg.SYN_SLOT_VALID (s.dev.slotOf x)).addr] else []) ∧
      Fld.clear [f] (Reg.SYNX_LOCKCNT_COUNT x) = true := by
    intro f hf
    rw [hfs] at hf
    split at hf
    case isTrue h =>
      rw [if_pos h]
      refine ⟨by simp [(hslot f hf).1], ?_⟩
      simp only [Fld.clear, Bool.and_eq_true, List.all_eq_true, List.mem_singleton, forall_eq] at hcnt ⊢
      exact ⟨hcnt.1, hcnt.2 f hf⟩
    case isFalse => cases hf
  have hPO := hP.shows (ws := if (s.dev.syns x).relock = .search then [(Reg.SYN_SLOT_VALID (s.dev.slotOf x)).addr] else []) fun f hf => (hfsub f hf).1
  have hPtime : P.timeNs = (s.dev.at ns).timeNs := hPO.outs.timeNs
  rw [hPdef, Dev.setSyns_eq, hPO.syn, hPtime] at hrun
  obtain ⟨B, hB, hBO, hBsyn, hBtdm⟩ := P.withSyn (s.dev.syn.put x ((s.dev.syns x).locked (s.dev.at ns).timeNs))
  have hBevq : B.evq = s.dev.evq := by
    rw [← hB, hP.only, List.append_nil]
    rfl
  have hD := B.lockDeclared_shown x band trim (us := us) (by simp only [us]; omega)
  replace hrun : Runs (.lock x band trim ns) s { s with dev := ((B.lockDeclared x band.toNat trim.toNat us).clksLost.pulsesGate x false).settle } := by
    rw [← hB]
    exact hrun
  generalize B.lockDeclared x band.toNat trim.toNat us = D at hD hrun
  have hDO := hD.acts.shows (ws := synWords x) ha
  refine ⟨D, hrun, ?_, hDO.tdm.trans (hBtdm.trans hPO.tdm), hDO.syn.trans hBsyn, ?_, hD.shown, hD.event, ?_, fun h e he => ?_⟩
  · exact ((hPO.outs.trans (hBO.mono (by simp))).mono fun a h => List.mem_append_right _ h).trans (hDO.outs.mono fun a h => List.mem_append_left _ h)
  · have := congrArg Dev.evq hD.acts.only
    rw [hBevq] at this
    exact this
  · rw [hD.count, hBO.rd (by simp), hP.rd]
    · rfl
    · simp only [Fld.clear, Bool.and_eq_true, List.all_eq_true, List.mem_singleton, forall_eq] at hfsub ⊢
      exact ⟨rfl, fun f hf => (hfsub f hf).2.2⟩
  · have hmem : e.1 ∈ slotFields (s.dev.slotOf x) := by
      have : (slotWrites (s.dev.slotOf x) band.toNat trim.toNat (s.dev.rd Reg.AGE_TEMP_CORE)).map (·.1) = slotFields (s.dev.slotOf x) := rfl
      exact this ▸ List.mem_map_of_mem he
    rw [hD.acts.rd (hslot _ hmem).2, hBO.rd (by simp)]
    exact hPslot h e he

theorem outs_low : (∀ a ∈ clkWords, 0x18000 ≤ a ∧ a ∈ outputWords) ∧ ∀ a ∈ pulseWords, 0x18000 ≤ a ∧ a ∈ outputWords := by decide

theorem Dev.OnPulses.waiting {ps : List Nat} {d D : Dev} (h : Dev.OnPulses ps d D) : D.syn.waiting = d.syn.waiting := by
  have hw := congrArg (fun e : Dev => e.syn.waiting) h.only
  exact hw

theorem Dev.OnPulses.clkStart {ps : List Nat} {d D : Dev} (h : Dev.OnPulses ps d D) : D.syn.clkStart = d.syn.clkStart := by
  have hw := congrArg (fun e : Dev => e.syn.clkStart) h.only
  exact hw

/-- The CLKOUTs and pulse outputs of `t`, which have followed the synthesizers of `E`. -/
structure OutsTold (s t : State) (E : Dev) (ws : List Nat) (ns : Nat) (x : Nat) (gated : Bool) : Prop where
  clocks : ClocksFollow s t
  moves : ∀ y, y < 8 → (ClockMoves s t y ↔ E.clkMoves y)
  pulses : PulsesFollow s t (· = x) gated
  rd : ∀ g : Fld, g.addr < 0x18000 → t.dev.rd g = E.rd g
  syns : ∀ y, t.dev.syns y = E.syns y
  rest : t.dev.syn.waiting = E.syn.waiting ∧ t.dev.syn.clkStart = E.syn.clkStart
  time : t.dev.timeNs = (s.dev.at ns).timeNs
  keeps : Keeps (ws ++ outputWords) s t { s.dev.at ns with syn := t.dev.syn, tdm := t.dev.tdm }
  evq : (∀ y, y < 8 → ¬ ClockMoves s t y) → (E.clksLost.pulsesGate x gated).evq = E.evq

theorem outsTold {s t : State} {E : Dev} {ws : List Nat} {ns : Nat} {p : Pwr} {x : Nat} {gated : Bool} (hE : Dev.Outs ws (s.dev.seen ns p) E)
    (hlow : ∀ a ∈ ws, a < 0x18000) (hplan : ∀ y, y < 2 → (Reg.SYNX_CFG_PLAN y).addr ∉ ws) (hg : E.synGated x = gated) (hfp : E.syn.fp = s.dev.syn.fp)
    (ht : t.dev = (E.clksLost.pulsesGate x gated).settle) : OutsTold s t E ws ns x gated := by
  obtain ⟨hckl, hpll⟩ := outs_low
  have hC := E.clksLost_shows
  have hCg : E.clksLost.synGated x = gated := by rw [Dev.synGated, hC.syn]; exact hg
  have hR := E.clksLost.pulsesGate_onPulses x gated
  have htold := fun p hp => E.clksLost.pulsesGate_told hCg (p := p) hp
  generalize hRdef : E.clksLost.pulsesGate x gated = R at hR htold ht
  have hsyn : t.dev.syn = R.syn := by rw [ht, Dev.settle_syn]
  have hw : ∀ a, t.dev.word a = R.word a := fun a => by rw [ht, Dev.settle_word]
  have hsyns : ∀ y, t.dev.syns y = E.syns y := fun y => by
    refine Eq.trans ?_ ((hR.syns y).trans ?_)
    · change t.dev.syn.get y = R.syn.get y
      rw [hsyn]
    · change E.clksLost.syn.get y = E.syn.get y
      rw [hC.syn]
  have htime : t.dev.timeNs = (s.dev.at ns).timeNs := by
    have h1 : t.dev.timeNs = R.timeNs := by rw [Dev.timeNs, ht, Dev.settle_tick, Dev.settle_ns, Dev.timeNs]
    exact h1.trans <| hR.timeNs.trans (hC.outs.timeNs.trans hE.timeNs)
  have hRw : ∀ a, a ∉ pulseWords → t.dev.word a = E.clksLost.word a := fun a ha => (hw a).trans (hR.word a ha)
  have hrd : ∀ g : Fld, g.addr < 0x18000 → t.dev.rd g = E.rd g := fun g hg => by
    refine Dev.rd_of_word ((hRw _ fun hm => ?_).trans (hC.word _ fun hm => ?_))
    · exact absurd (hpll _ hm).1 (by omega)
    · exact absurd (hckl _ hm).1 (by omega)
  have hwhi : ∀ a, 0x18000 ≤ a → E.word a = s.dev.word a := fun a ha => hE.word a fun hm => by
    have := hlow a hm
    omega
  obtain ⟨hCF, hmv⟩ := clocksFollow_of (s := s) (t := t) (E := E) (fun y hy => by rw [hsyns, Dev.synGated_eq])
    (fun y hy => by
      have hy' : (Reg.SYNX_STAT_LOCK y).addr < 0x18000 := (show ∀ y : Fin 2, (Reg.SYNX_STAT_LOCK y).addr < 0x18000 by decide) ⟨y, hy⟩
      exact ⟨hrd _ hy', hrd (Reg.SYNX_STAT_UNALIGNED y) hy', hE.rd (hplan y hy)⟩)
    (fun a ha _ => hwhi a ha)
    (fun a ha hb => hRw a fun hm => by
      have := pulseWords_out a hm
      omega)
  refine ⟨hCF, hmv, ?_, hrd, hsyns, ⟨?_, ?_⟩, htime, ?_, fun hno => ?_⟩
  · refine pulsesFollow_of (E := E) (D := R) (fun p hp => ?_) (fun a ha _ => hwhi a ha) hfp (fun a _ _ => hw a) (by rw [hsyn]) (htime.trans hE.timeNs.symm)
    have hap := fp_apart hp
    simp only [List.mem_cons, List.not_mem_nil, or_false, forall_eq_or_imp, forall_eq] at hap
    obtain ⟨⟨a1, -⟩, ⟨a3, -⟩⟩ := hap
    have hk := htold p hp
    rw [hC.rd a1, hC.rd a3] at hk
    have hpu : E.clksLost.pulse p = E.pulse p := Dev.pulse_congr (by rw [hC.syn]) p
    refine ⟨fun h => ?_, fun h => ?_⟩
    · rw [if_pos h] at hk
      exact hk.of_base (hC.word _ a1) hpu hC.outs.timeNs
    · rw [if_neg h] at hk
      exact hk.of_base (hC.word _ a1) hpu hC.outs.timeNs
  · rw [hsyn, hR.waiting, hC.syn]
  · rw [hsyn, hR.clkStart, hC.syn]
  · have hO : Dev.Outs (ws ++ outputWords) (s.dev.seen ns p) R := by
      refine ((hE.mono fun a ha => List.mem_append_left _ ha).trans (hC.outs.mono fun a ha => List.mem_append_right _ (hckl a ha).2)).trans
        ⟨?_, fun a ha => hR.word a fun hm => ha (List.mem_append_right _ (hpll a hm).2)⟩
      rw [hR.only]
    exact hO.keeps ht
  · have hck : E.clksLost = E := foldl_still _ fun y hy => (E.clkLost_cases y).2 fun hm => hno y (List.mem_range.mp hy) ((hmv y (List.mem_range.mp hy)).mpr hm)
    have he : R.evq = E.clksLost.evq := by rw [hR.only]
    rw [hRdef, he, hck]

theorem lock_resumes {s t : State} {x : Fin 2} {band : BitVec 4} {trim : BitVec 7} {ns us : Nat} {D : Dev} (hD : LockMade s x band trim ns us D)
    (ht : t.dev = (D.clksLost.pulsesGate x false).settle) : let slot := s.dev.slotOf x
    t.dev.rd (Reg.SYNX_STAT_STATE x) = 3 ∧ t.dev.rd (Reg.SYNX_STAT_LOCK x) = 1 ∧
      t.dev.rd (Reg.SYNX_STAT_ILOCK x) = 1 ∧ t.dev.rd (Reg.SYNX_STAT_CMP x) = 1 ∧ t.dev.rd (Reg.SYNX_STAT_LPFAULT x) = 0 ∧
      t.dev.rd (Reg.SYNX_STAT_BAND x) = band.toNat ∧ t.dev.rd (Reg.SYNX_STAT_TRIM x) = trim.toNat ∧
      t.dev.rd (Reg.SYNX_GATETIME_US x) = us ∧
      t.dev.rd (Reg.SYNX_LOCKCNT_COUNT x) = (s.dev.rd (Reg.SYNX_LOCKCNT_COUNT x) + 1) % 2 ^ 32 ∧ t.dev.rd Reg.SYN_STATUS_LOCKEV = 1 ∧
      t.dev.syns x = { s.dev.syns x with relock := .none, gated := false, failedOnce := false, lockAt := t.dev.timeNs, lag := 0 } ∧
      t.dev.rd (Reg.SYNX_STAT_UNALIGNED x) = 0 ∧
      ((s.dev.syns x).relock = .search → t.dev.rd (Reg.SYN_SLOT_BAND slot) = band.toNat ∧ t.dev.rd (Reg.SYN_SLOT_TRIM slot) = trim.toNat ∧
        t.dev.rd (Reg.SYN_SLOT_TEMP slot) = s.dev.rd Reg.AGE_TEMP_CORE ∧ t.dev.rd (Reg.SYN_SLOT_VALID slot) = 1) ∧
      ClocksFollow s t ∧ PulsesFollow s t (· = x.val) false ∧
      SynFrame s t ns x (if (s.dev.syns x).relock = .search then [(Reg.SYN_SLOT_VALID slot).addr] else []) ∧
      (Room s → (∀ y, y < 8 → ¬ ClockMoves s t y) → EntersAll s t [(17, 1, x.val + 2 ^ 8 + us * 2 ^ 16)]) := by
  intro slot
  obtain ⟨hlow, hslots⟩ := synWords_low x
  obtain ⟨hslow, hplan⟩ := hslots ⟨slot, s.dev.slotOf_lt x⟩
  have hDs : ∀ y, y < 2 → D.syns y = if y = x then (s.dev.syns x).locked (s.dev.at ns).timeNs else s.dev.syns y := fun y hy => by
    change D.syn.get y = _
    rw [hD.syn, Syn.get_put _ _ x.isLt hy]
    rfl
  have hT : OutsTold s t D _ ns x false := outsTold hD.outs
    (fun a ha => by
      obtain h | h := List.mem_append.mp ha
      · exact hlow a h
      · split at h
        · exact (List.mem_singleton.mp h) ▸ hslow
        · cases h)
    (fun y hy hm => by
      obtain ⟨n1, n2⟩ := hplan ⟨y, hy⟩
      obtain h | h := List.mem_append.mp hm
      · exact n1 h
      · split at h
        · exact n2 (List.mem_singleton.mp h)
        · cases h)
    (by
      rw [Dev.synGated_eq, hDs x x.isLt, if_pos rfl]
      rfl)
    (by rw [hD.syn, (s.dev.syn.put_rest x _).fp]) ht
  have hshown : ∀ e ∈ lockWrites x band.toNat trim.toNat us, t.dev.rd e.1 = e.2 := fun e he =>
    (hT.rd _ (hlow _ ((lockFields_apart x).1 _ (List.mem_append_left _ (List.mem_map_of_mem (f := (·.1)) he))))).trans (hD.shown e he)
  refine ⟨hshown (Reg.SYNX_STAT_STATE x, 3) (by simp only [lockWrites, List.mem_cons, true_or]),
    hshown (Reg.SYNX_STAT_LOCK x, 1) (by simp only [lockWrites, List.mem_cons, true_or, or_true]),
    hshown (Reg.SYNX_STAT_ILOCK x, 1) (by simp only [lockWrites, List.mem_cons, true_or, or_true]),
    hshown (Reg.SYNX_STAT_CMP x, 1) (by simp only [lockWrites, List.mem_cons, true_or, or_true]),
    hshown (Reg.SYNX_STAT_LPFAULT x, 0) (by simp only [lockWrites, List.mem_cons, true_or, or_true]),
    hshown (Reg.SYNX_STAT_BAND x, band.toNat) (by simp only [lockWrites, List.mem_cons, true_or, or_true]),
    hshown (Reg.SYNX_STAT_TRIM x, trim.toNat) (by simp only [lockWrites, List.mem_cons, true_or, or_true]),
    hshown (Reg.SYNX_GATETIME_US x, us) (by simp only [lockWrites, List.mem_cons, true_or, or_true]),
    (hT.rd _ (hlow _ (by simp [synWords]))).trans hD.count, (hT.rd _ (hlow _ (by simp [synWords]))).trans hD.event, ?_,
    hshown (Reg.SYNX_STAT_UNALIGNED x, 0) (by simp only [lockWrites, List.mem_cons, true_or, or_true]), fun hs => ?_, hT.clocks, hT.pulses,
    ⟨?_, ?_, ?_, ?_⟩, fun hroom hno => ?_⟩
  · rw [hT.syns, hDs x x.isLt, if_pos rfl, hT.time]
    rfl
  · have hsl := hD.slot hs
    refine ⟨(hT.rd (Reg.SYN_SLOT_BAND slot) hslow).trans (hsl (Reg.SYN_SLOT_BAND slot, band.toNat) ?_),
      (hT.rd (Reg.SYN_SLOT_TRIM slot) hslow).trans (hsl (Reg.SYN_SLOT_TRIM slot, trim.toNat) ?_),
      (hT.rd (Reg.SYN_SLOT_TEMP slot) hslow).trans (hsl (Reg.SYN_SLOT_TEMP slot, s.dev.rd Reg.AGE_TEMP_CORE) ?_),
      (hT.rd (Reg.SYN_SLOT_VALID slot) hslow).trans (hsl (Reg.SYN_SLOT_VALID slot, 1) ?_)⟩ <;>
    simp only [slotWrites, slot, List.mem_cons, true_or, or_true]
  · refine ⟨fun a ha => hT.keeps.1 a fun hm => ha ?_, hT.keeps.2⟩
    simp only [List.mem_append, slot] at hm ⊢
    tauto
  · rw [hT.syns, hDs _ (by omega), if_neg (by omega)]
  · rw [hT.rest.2, hD.syn, (s.dev.syn.put_rest x _).clkStart]
  · rw [hT.rest.1, hD.syn, (s.dev.syn.put_rest x _).waiting]
  · have he : (D.clksLost.pulsesGate x false).evq = { s.dev.evq with posts := [(17, 1, x.val + 2 ^ 8 + us * 2 ^ 16)] } := by
      rw [hT.evq hno, hD.evq, hroom.2.1]
      rfl
    have htick : (D.clksLost.pulsesGate x false).schTick = s.dev.schTick := by
      have h1 := D.clksLost_shows.tick
      have h2 := congrArg Dev.tick (D.clksLost.pulsesGate_onPulses x false).only
      have h3 := congrArg Dev.tick hD.outs.only
      have h4 : (D.clksLost.pulsesGate x false).tick = s.dev.tick := h2.trans (h1.trans h3)
      rw [Dev.schTick, h4, Dev.schTick]
    refine entersAll_of_room 17 (by decide) (by simp) (by simp) hroom ?_
    rw [ht, ← htick, ← he]
    rfl

/-! ### CLRSLOTS -/

/-- What CLRSLOTS writes. -/
def clrWrites : List (Fld × Nat) := (List.range 8).map fun i => (Reg.SYN_SLOT_VALID i, 0)

theorem Dev.clrSlots_eq (d : Dev) : d.clrSlots = d.wrs clrWrites := rfl

theorem clrWrites_facts : (clrWrites.map (·.1)).Pairwise (fun f g => g.sep f = true) ∧ (∀ f ∈ clrWrites.map (·.1), f.ok = true) ∧
    ∀ e ∈ clrWrites, e.2 < 2 ^ e.1.width := by decide

theorem clrslots_clears (s : State) (h : Agent) (hr : Ready s h Reg.SYN_CMD_CLRSLOTS false) :
    ∃ t, Runs (.clrslots h) s t ∧ (∀ i, i < 8 → t.dev.rd (Reg.SYN_SLOT_VALID i) = 0) ∧ t.dev = Around s.dev t.dev ∧
      OnlyFields ((List.range 8).map fun i => Reg.SYN_SLOT_VALID i) s t := by
  obtain ⟨p, hp⟩ := s.dev.touch_pwr h true (blockOf Reg.SYN_CMD_CLRSLOTS.addr)
  have hrun := runs_of_onDev (show exec (.clrslots h) s = onDev (fun d => d.hostCmd h Reg.SYN_CMD_CLRSLOTS [] Dev.clrSlots) s from rfl)
  rw [Dev.hostCmd_open _ _ _ _ hr.1 hr.2, hp, Dev.clrSlots_eq] at hrun
  obtain ⟨h1, h2, h3⟩ := clrWrites_facts
  have hA := Dev.wrs_acts { s.dev with pwr := p } clrWrites h2
  have hv := Dev.wrs_rd { s.dev with pwr := p } clrWrites h1 h2 h3
  generalize Dev.wrs { s.dev with pwr := p } clrWrites = D at hA hv hrun
  refine ⟨_, hrun, fun i hi => ?_, ?_, (onlyFields_iff ..).mpr fun g hg hs => ?_⟩
  · exact (Dev.settle_rd D _).trans (hv (Reg.SYN_SLOT_VALID i, 0) (List.mem_map.mpr ⟨i, List.mem_range.mpr hi, rfl⟩))
  · have ha := hA.around
    exact ha
  · exact (Dev.settle_rd D g).trans (hA.same g hg hs)

theorem attemptsEnd : AttemptsEnd := by
  refine ⟨fun s x ns => ?_, fun s x band trim ns => ?_, clrslots_clears⟩
  · intro st v now tries alone waits
    obtain ⟨a1, a2⟩ := hopAbandon_searches s x ns
    obtain ⟨b1, b2⟩ := relockRetry_tries s x ns
    exact ⟨a1, a2, b1, b2, fun low => lpfault_reports s x ns low, synfail_counts s x ns⟩
  · intro tries
    refine ⟨lock_waits s x band trim ns, fun ht hl => ?_⟩
    intro temp slot us
    obtain ⟨D, hrun, hD⟩ := lock_runs s x band trim ns ht hl
    have hslot : s.dev.slotOf x = slot := s.dev.slotOf_stated x
    have h := lock_resumes (t := { s with dev := (D.clksLost.pulsesGate x false).settle }) hD rfl
    rw [hslot] at h
    exact ⟨_, hrun, h⟩

/-- Settles O53: the outputs react each to the part of the device that is its own, and a relock's gating, reaction and attempt follow one another. -/
theorem synthesizersGateAndRelock : Obligations.SynthesizersGateAndRelock := ⟨synthesizersAreGated, attemptsEnd⟩

end Sys2Proof.Machine
end

section
/-! Clock outputs realign, are enabled and return; pulse outputs load their settings (R386 to R390). -/
namespace Sys2Proof.Machine
open Sys2Proof.Claims

/-! ### REALIGN -/

/-- Synthesizer `x`, gated until its alignment boundary. -/
def Dev.realigning (d : Dev) (x : Nat) : Dev :=
  (d.wr (Reg.SYNX_STAT_UNALIGNED x) 0).setSyns x { d.syns x with realign := true, gated := true, gateAt := d.timeNs }

theorem Dev.realignGo_eq (d : Dev) (x : Nat) : d.realignGo x =
    if d.on (Reg.SYNX_STAT_UNALIGNED x) then ((d.realigning x).clksLost).pulsesGate x true else d := rfl

theorem realign_runs {s : State} {h : Agent} {x : Fin 2} (ns : Nat) (hr : Ready s h (Reg.SYNX_CMD_REALIGN x) false) :
    ∃ p, Runs (.realign h x ns) s { s with dev := ((s.dev.seen ns p).realignGo x).settle } := by
  obtain ⟨p, hp⟩ := (s.dev.at ns).touch_pwr h true (blockOf (Reg.SYNX_CMD_REALIGN x).addr)
  have hrun := runs_of_onDev (show exec (.realign h x ns) s =
    onDev (fun d => (d.at ns).hostCmd h (Reg.SYNX_CMD_REALIGN x) [] fun d => d.realignGo x) s from rfl)
  rw [Dev.hostCmd_open (s.dev.at ns) _ _ _ hr.1 hr.2, hp] at hrun
  exact ⟨p, hrun⟩

theorem realign_gates (s : State) (h : Agent) (x : Fin 2) (ns : Nat) (hr : Ready s h (Reg.SYNX_CMD_REALIGN x) false) :
    ∃ t, Runs (.realign h x ns) s t ∧
      (s.dev.rd (Reg.SYNX_STAT_UNALIGNED x) = 0 → Keeps [] s t (s.dev.at ns)) ∧
      (s.dev.rd (Reg.SYNX_STAT_UNALIGNED x) = 1 → t.dev.rd (Reg.SYNX_STAT_UNALIGNED x) = 0 ∧
        t.dev.syns x = { s.dev.syns x with realign := true, gated := true, gateAt := t.dev.timeNs } ∧ ClocksFollow s t ∧
        PulsesFollow s t (· = x.val) true ∧ SynFrame s t ns x []) := by
  obtain ⟨p, hrun⟩ := realign_runs ns hr
  have hon : (s.dev.seen ns p).on (Reg.SYNX_STAT_UNALIGNED x) = s.dev.on (Reg.SYNX_STAT_UNALIGNED x) := rfl
  rw [Dev.realignGo_eq, hon] at hrun
  refine ⟨_, hrun, fun h0 => ?_, fun h1 => ?_⟩
  · rw [if_neg (by rw [Dev.on, h0]; decide)]
    exact keeps_seen rfl
  · rw [if_pos (by rw [Dev.on, h1]; decide)]
    have hok : (Reg.SYNX_STAT_UNALIGNED x).ok = true := rfl
    have hA := (s.dev.seen ns p).wr_acts (Reg.SYNX_STAT_UNALIGNED x) 0 hok
    have hv := (s.dev.seen ns p).rd_wr_lt (Reg.SYNX_STAT_UNALIGNED x) 0 hok (by positivity)
    have hdef : (s.dev.seen ns p).realigning x =
      ((s.dev.seen ns p).wr (Reg.SYNX_STAT_UNALIGNED x) 0).setSyns x { s.dev.syns x with realign := true, gated := true, gateAt := (s.dev.at ns).timeNs } := rfl
    rw [hdef, Dev.setSyns_eq]
    generalize (s.dev.seen ns p).wr (Reg.SYNX_STAT_UNALIGNED x) 0 = W at hA hv
    have hWO := hA.shows (ws := synWords x) (by simp [synWords, Reg.SYNX_STAT_UNALIGNED, Reg.SYNX_STAT_STATE])
    rw [show W.syn = s.dev.syn from hWO.syn]
    obtain ⟨E, hE, hEO, hEsyn, -⟩ := W.withSyn (s.dev.syn.put x { s.dev.syns x with realign := true, gated := true, gateAt := (s.dev.at ns).timeNs })
    rw [hE]
    have hEs : ∀ y, y < 2 → E.syns y = if y = x then { s.dev.syns x with realign := true, gated := true, gateAt := (s.dev.at ns).timeNs } else s.dev.syns y := fun y hy => by
      change E.syn.get y = _
      rw [hEsyn, Syn.get_put _ _ x.isLt hy]
      rfl
    obtain ⟨hlow, hslots⟩ := synWords_low x
    have hT : OutsTold s { s with dev := (E.clksLost.pulsesGate x true).settle } E (synWords x) ns x true :=
      outsTold (hWO.outs.trans (hEO.mono (by simp))) hlow (fun y hy => ((hslots 0).2 ⟨y, hy⟩).1)
        (by rw [Dev.synGated_eq, hEs x x.isLt, if_pos rfl]) (by rw [hEsyn, (s.dev.syn.put_rest x _).fp]) rfl
    refine ⟨(hT.rd _ (hlow _ (by simp [synWords, Reg.SYNX_STAT_UNALIGNED, Reg.SYNX_STAT_STATE]))).trans ((hEO.rd (by simp)).trans hv), ?_, hT.clocks, hT.pulses,
      ⟨fun a ha => hT.keeps.1 a fun hm => ha ?_, hT.keeps.2⟩, ?_, ?_, ?_⟩
    · rw [hT.syns, hEs x x.isLt, if_pos rfl, hT.time]
    · simp only [List.mem_append] at hm ⊢
      tauto
    · rw [hT.syns, hEs _ (by omega), if_neg (by omega)]
    · rw [hT.rest.2, hEsyn, (s.dev.syn.put_rest x _).clkStart]
    · rw [hT.rest.1, hEsyn, (s.dev.syn.put_rest x _).waiting]

/-! ### OUT_CLKEN -/

theorem execOutClken_eq (s : State) (h : Agent) (mask : BitVec 8) : exec (.outClken h mask) s = onDev (fun d =>
    if !(d.touch h true 18).owns h then (d.touch h true 18).lockViol h 0x1800C 2
    else if (d.touch h true 18).locked h 18 then (d.touch h true 18).lockViol h 0x1800C 0
    else (d.touch h true 18).load Reg.OUT_CLKEN_EN mask.toNat) s := rfl

theorem outClken_enables (s : State) (h : Agent) (mask : BitVec 8) (ho : s.dev.owns h = true) (hl : s.dev.locked h 18 = false) :
    ∃ t, Runs (.outClken h mask) s t ∧ t.dev.rd Reg.OUT_CLKEN_EN = mask.toNat ∧ OnlyFields [Reg.OUT_CLKEN_EN] s t ∧
      t.dev = Around (Claims.Staged s t) t.dev := by
  have hrun := runs_of_onDev (execOutClken_eq s h mask)
  obtain ⟨p, hp⟩ := s.dev.touch_pwr h true 18
  rw [hp] at hrun
  have ho' : (!Dev.owns { s.dev with pwr := p } h) = false := by
    rw [show Dev.owns { s.dev with pwr := p } h = s.dev.owns h from rfl, ho]
    rfl
  have hl' : Dev.locked { s.dev with pwr := p } h 18 = false := hl
  rw [ho', if_neg (by decide), hl', if_neg (by decide)] at hrun
  have hb := Dev.load_body { s.dev with pwr := p } Reg.OUT_CLKEN_EN mask.toNat
  have hf := Dev.load_fab { s.dev with pwr := p } Reg.OUT_CLKEN_EN mask.toNat
  have hv := Dev.load_rd { s.dev with pwr := p } Reg.OUT_CLKEN_EN mask.toNat rfl mask.isLt
  have hs := fun g => Dev.load_rd_sep { s.dev with pwr := p } Reg.OUT_CLKEN_EN g mask.toNat
  generalize Dev.load { s.dev with pwr := p } Reg.OUT_CLKEN_EN mask.toNat = D at hb hf hv hs hrun
  refine ⟨_, hrun, (Dev.settle_rd D _).trans hv, fun g hg hd => ?_, ?_⟩
  · have hsep : Reg.OUT_CLKEN_EN.sep g = true := by
      have := hd Reg.OUT_CLKEN_EN (by simp)
      simp only [Fld.sep, Bool.and_eq_true, Bool.or_eq_true, decide_eq_true_eq, bne_iff_ne]
      exact ⟨⟨rfl, hg⟩, or_assoc.mpr this⟩
    exact (Dev.settle_rd D g).trans (hs g hsep)
  · have hbody : D.settle.body = s.dev.body := (D.settle_body).trans hb
    have hfab : D.settle.fab = { s.dev.fab with scan := D.settle.fab.scan } := (D.settle_fab).trans hf
    exact Dev.eq_around_fab hbody hfab

/-! ### CLK_XREVERT -/

theorem Dev.lockHeld_iff (d : Dev) (x : Nat) : d.lockHeld x = true ↔ d.rd (Reg.SYNX_STAT_LOCK x) = 1 ∧ (d.syns x).gated = false ∧
    (d.syns x).lockAt + 10 ^ 9 ≤ d.timeNs - d.ns := by
  rw [Dev.lockHeld, Bool.and_eq_true, Bool.and_eq_true, Dev.on_true_iff, Bool.not_eq_true', Dev.synGated_eq, decide_eq_true_eq,
    show 8000 * 125000 = 10 ^ 9 by norm_num, and_assoc]

/-- A moved CLKOUT back on its synthesizer. -/
def Dev.clkBack (d : Dev) (y : Nat) : Dev := ((d.wr (Reg.OUT_CLK_STAT_ONSYN y) 0).flag Reg.OUT_STATUS_XFEV).post 18 2 y

theorem clkXrevert_returns (s : State) (y : Fin 8) : let sel := s.dev.rd (Reg.OUT_CLK_CFG_SYN y)
    let back := s.dev.rd (Reg.OUT_CLK_STAT_ONSYN y) = 1 ∧ s.dev.rd (Reg.OUT_CLK_CFG_REVERT y) = 1 ∧
      s.dev.rd (Reg.SYNX_STAT_LOCK sel) = 1 ∧ (s.dev.syns sel).gated = false ∧ (s.dev.syns sel).lockAt + 10 ^ 9 ≤ s.dev.timeNs - s.dev.ns
    ∃ t, Runs (.clkXrevert y) s t ∧ (¬ back → Keeps [] s t s.dev) ∧
      (back → t.dev.rd (Reg.OUT_CLK_STAT_ONSYN y) = 0 ∧ t.dev.rd Reg.OUT_STATUS_XFEV = 1 ∧
        Keeps [(Reg.OUT_CLK_STAT_ONSYN y).addr, Reg.OUT_STATUS_XFEV.addr] s t s.dev ∧
        (Room s → EntersAll s t [(18, 2, y.val)])) := by
  intro sel back
  have hrun := runs_of_onDev (show exec (.clkXrevert y) s = onDev (fun d =>
    if d.on (Reg.OUT_CLK_STAT_ONSYN y) && d.on (Reg.OUT_CLK_CFG_REVERT y) && d.lockHeld (d.rd (Reg.OUT_CLK_CFG_SYN y)) then d.clkBack y else d) s from rfl)
  have hc : (s.dev.on (Reg.OUT_CLK_STAT_ONSYN y) && s.dev.on (Reg.OUT_CLK_CFG_REVERT y) && s.dev.lockHeld (s.dev.rd (Reg.OUT_CLK_CFG_SYN y))) = true ↔ back := by
    rw [Bool.and_eq_true, Bool.and_eq_true, Dev.on_true_iff, Dev.on_true_iff, Dev.lockHeld_iff, and_assoc]
  by_cases hb : back
  · rw [if_pos (hc.mpr hb)] at hrun
    have hok : (Reg.OUT_CLK_STAT_ONSYN y).ok = true := rfl
    obtain ⟨s1, s2⟩ := (show ∀ y : Fin 8, Reg.OUT_STATUS_XFEV.sep (Reg.OUT_CLK_STAT_ONSYN y) = true ∧ True by decide) y
    have hA : Dev.Acts [Reg.OUT_CLK_STAT_ONSYN y, Reg.OUT_STATUS_XFEV] [(18, 2, y.val)] s.dev (s.dev.clkBack y) :=
      (((Dev.Acts.refl _ s.dev).wr 0 (by simp) hok).flag (by simp) rfl).post ..
    have h1 : (s.dev.clkBack y).rd (Reg.OUT_CLK_STAT_ONSYN y) = 0 := by
      rw [Dev.clkBack, Dev.post_rd, Dev.rd_flag_sep _ _ _ s1, Dev.rd_wr_lt _ _ 0 hok (by positivity)]
    have h2 : (s.dev.clkBack y).rd Reg.OUT_STATUS_XFEV = 1 := by rw [Dev.clkBack, Dev.post_rd, Dev.rd_flag _ _ rfl]
    generalize s.dev.clkBack y = D at hA h1 h2 hrun
    refine ⟨_, hrun, fun h => absurd hb h, fun _ => ⟨(Dev.settle_rd D _).trans h1, (Dev.settle_rd D _).trans h2, ⟨fun a ha => ?_, hA.around⟩, fun hr => ?_⟩⟩
    · exact (Dev.settle_word D a).trans ((hA.shows (ws := [(Reg.OUT_CLK_STAT_ONSYN y).addr, Reg.OUT_STATUS_XFEV.addr]) (by simp)).word a ha)
    · exact hA.enters rfl rfl 18 (by decide) (by simp) (by simp) hr rfl
  · rw [if_neg fun h => hb (hc.mp h)] at hrun
    exact ⟨_, hrun, fun _ => ⟨fun _ _ => rfl, rfl⟩, fun h => absurd h hb⟩

/-! ### ALIGN -/

theorem align_arms (s : State) (h : Agent) (p : Fin 4) (hr : Ready s h (Reg.OUT_FP_CMD_ALIGN p) false) :
    ∃ t, Runs (.align h p) s t ∧ t.dev.live = s.dev.live ∧ (∀ q, q ≠ p.val → t.dev.pulse q = s.dev.pulse q) ∧
      t.dev.pulse p = (if s.dev.rd (Reg.OUT_FP_CFG_MODE p) = 2 then { s.dev.pulse p with align := true } else s.dev.pulse p) ∧
      t.dev = Around { s.dev with syn := { s.dev.syn with fp := t.dev.syn.fp } } t.dev := by
  obtain ⟨w, hw⟩ := s.dev.touch_pwr h true (blockOf (Reg.OUT_FP_CMD_ALIGN p).addr)
  have hrun := runs_of_onDev (show exec (.align h p) s = onDev (fun d => d.hostCmd h (Reg.OUT_FP_CMD_ALIGN p) [] fun d => d.alignGo p) s from rfl)
  rw [Dev.hostCmd_open _ _ _ _ hr.1 hr.2, hw] at hrun
  have hdef : Dev.alignGo { s.dev with pwr := w } p = if s.dev.rd (Reg.OUT_FP_CFG_MODE p) = 2 then
    Dev.setPulse { s.dev with pwr := w } p { s.dev.pulse p with align := true } else { s.dev with pwr := w } := rfl
  rw [hdef] at hrun
  refine ⟨_, hrun, ?_⟩
  split
  · refine ⟨rfl, fun q hq => ?_, ?_, rfl⟩
    · exact (Dev.pulse_setPulse { s.dev with pwr := w } p q _).trans (if_neg hq)
    · exact (Dev.pulse_setPulse { s.dev with pwr := w } p p _).trans (if_pos rfl)
  · exact ⟨rfl, fun _ _ => rfl, rfl, rfl⟩

/-! ### ALIGNMENT_BOUNDARY -/

/-- The own state of a realigned synthesizer that resumes. -/
def SynS.resumed (v : SynS) (gated : Bool) : SynS := { v with realign := false, gated := gated, lag := 0 }

/-- Synthesizer `x` resumes at its alignment boundary if it waits for it. -/
def Dev.resumeAt (plan : Nat) (d : Dev) (x : Nat) : Dev :=
  if d.rd (Reg.SYNX_CFG_PLAN x) == plan && (d.syns x).realign then
    (d.setSyns x ((d.syns x).resumed (!d.on (Reg.SYNX_STAT_LOCK x)))).pulsesGate x (!d.on (Reg.SYNX_STAT_LOCK x))
  else d

/-- CLKOUTs that start together at an alignment boundary. -/
def Dev.clksStarting (plan : Nat) (d : Dev) : List Nat :=
  d.syn.waiting.filter fun x => d.rd (Reg.SYNX_CFG_PLAN (d.clkSyn x)) == plan && !d.synGated (d.clkSyn x)

def Dev.clksStart (plan : Nat) (d : Dev) : Dev :=
  let go := d.clksStarting plan
  { d with syn := { d.syn with
    waiting := d.syn.waiting.filter fun x => !go.contains x,
    clkStart := go.foldl (fun m x => Sparse.put 0 m x d.tick) d.syn.clkStart } }

/-- Pulse output `p` takes changed settings at an alignment boundary. -/
def Dev.pulseTake (plan : Nat) (d : Dev) (p : Nat) : Dev :=
  let x := d.rd (Reg.OUT_FP_CFG_SYN p)
  if (d.pulse p).changed && d.rd (Reg.SYNX_CFG_PLAN x) == plan && !d.synGated x then d.pulseLoad p else d

theorem execAlignmentBoundary_eq (s : State) (plan : Fin 2) : exec (.alignmentBoundary plan) s = onDev (fun d =>
    if !d.aligned plan then d
    else (List.range 4).foldl (Dev.pulseTake plan.val) (((d.resumeAt plan.val 0).resumeAt plan.val 1).clksStart plan.val)) s := rfl

/-- What the resumption of synthesizer `x`, if it waits, does. -/
structure Dev.Resumed (plan x : Nat) (d D : Dev) : Prop where
  only : D = { d with live := D.live, syn := D.syn }
  word : ∀ a, a ∉ pulseWords → D.word a = d.word a
  mine : D.syns x = if d.rd (Reg.SYNX_CFG_PLAN x) = plan ∧ (d.syns x).realign = true then (d.syns x).resumed (!d.on (Reg.SYNX_STAT_LOCK x)) else d.syns x
  other : D.syns (1 - x) = d.syns (1 - x)
  rest : D.syn.waiting = d.syn.waiting ∧ D.syn.clkStart = d.syn.clkStart
  pulse : ∀ p, p < 4 → Dev.PulseTold d D p (if d.rd (Reg.OUT_FP_CFG_SYN p) = x ∧ d.rd (Reg.SYNX_CFG_PLAN x) = plan ∧ (d.syns x).realign = true then
    pulseNow (!d.on (Reg.SYNX_STAT_LOCK x)) (d.rd (Reg.OUT_FP_STAT_STATE p)) else d.rd (Reg.OUT_FP_STAT_STATE p))

theorem pulseWords_eq : (List.range 4).map (fun p => (Reg.OUT_FP_STAT_STATE p).addr) = pulseWords := rfl

theorem Dev.resumeAt_resumed (plan : Nat) (d : Dev) (x : Fin 2) : Dev.Resumed plan x d (d.resumeAt plan x) := by
  have hc : (d.rd (Reg.SYNX_CFG_PLAN x) == plan && (d.syns x).realign) = true ↔ d.rd (Reg.SYNX_CFG_PLAN x) = plan ∧ (d.syns x).realign = true := by
    rw [Bool.and_eq_true, beq_iff_eq]
  unfold Dev.resumeAt
  by_cases h : d.rd (Reg.SYNX_CFG_PLAN x) = plan ∧ (d.syns x).realign = true
  · rw [if_pos (hc.mpr h), Dev.setSyns_eq]
    generalize hl : (!d.on (Reg.SYNX_STAT_LOCK x)) = g
    obtain ⟨B, hB, hBO, hBsyn, -⟩ := d.withSyn (d.syn.put x ((d.syns x).resumed g))
    have hBs : ∀ y, y < 2 → B.syns y = if y = x then (d.syns x).resumed g else d.syns y := fun y hy => by
      change B.syn.get y = _
      rw [hBsyn, Syn.get_put _ _ x.isLt hy]
      rfl
    have hBonly : B = { d with live := B.live, syn := B.syn } := by rw [← hB]
    rw [hB]
    have hg : B.synGated x = g := by
      rw [Dev.synGated_eq, hBs x x.isLt, if_pos rfl]
      rfl
    have hR := B.pulsesGate_onPulses x g
    have htold := fun p hp => B.pulsesGate_told hg (p := p) hp
    generalize B.pulsesGate x g = R at hR htold
    have hBrd : ∀ f, B.rd f = d.rd f := fun f => hBO.rd (by simp)
    have hput := d.syn.put_rest x ((d.syns x).resumed g)
    refine ⟨?_, fun a ha => (hR.word a ha).trans (hBO.word a (by simp)), ?_, ?_, ⟨?_, ?_⟩, fun p hp => ?_⟩
    · rw [hR.only, hBonly]
    · rw [if_pos h, hR.syns, hBs x x.isLt, if_pos rfl, hl]
    · rw [hR.syns, hBs _ (by omega), if_neg (by omega)]
    · rw [hR.waiting, hBsyn, hput.waiting]
    · rw [hR.clkStart, hBsyn, hput.clkStart]
    · have hk := htold p hp
      rw [hBrd, hBrd] at hk
      rw [hl]
      have := hk.of_base (d := d) (hBO.word _ (by simp)) (Dev.pulse_congr (by rw [hBsyn, hput.fp]) p) hBO.timeNs
      by_cases hx : d.rd (Reg.OUT_FP_CFG_SYN p) = x
      · rw [if_pos hx] at this
        rwa [if_pos ⟨hx, h⟩]
      · rw [if_neg hx] at this
        rwa [if_neg fun hc => hx hc.1]
  · rw [if_neg fun hx => h (hc.mp hx)]
    refine ⟨rfl, fun _ _ => rfl, (if_neg h).symm, rfl, ⟨rfl, rfl⟩, fun p _ => ?_⟩
    rw [if_neg fun hx => h hx.2]
    exact .refl d p

/-- Pulse output `p` as its synthesizer, waiting for the alignment boundary of `plan`, resumes or stays gated. -/
def Dev.pulseAligned (plan : Nat) (d : Dev) (p : Nat) : Nat :=
  let y := d.rd (Reg.OUT_FP_CFG_SYN p)
  if d.rd (Reg.SYNX_CFG_PLAN y) = plan ∧ (d.syns y).realign = true then pulseNow (!d.on (Reg.SYNX_STAT_LOCK y)) (d.rd (Reg.OUT_FP_STAT_STATE p))
  else d.rd (Reg.OUT_FP_STAT_STATE p)

/-- Both synthesizers at the alignment boundary of `plan`. -/
structure Dev.BothResumed (plan : Nat) (d D : Dev) : Prop where
  only : D = { d with live := D.live, syn := D.syn }
  word : ∀ a, a ∉ pulseWords → D.word a = d.word a
  syns : ∀ x, x < 2 → D.syns x = if d.rd (Reg.SYNX_CFG_PLAN x) = plan ∧ (d.syns x).realign = true then (d.syns x).resumed (!d.on (Reg.SYNX_STAT_LOCK x)) else d.syns x
  rest : D.syn.waiting = d.syn.waiting ∧ D.syn.clkStart = d.syn.clkStart
  pulse : ∀ p, p < 4 → Dev.PulseTold d D p (d.pulseAligned plan p)

theorem synX_notPulse : ∀ x : Fin 2, (Reg.SYNX_CFG_PLAN x).addr ∉ pulseWords ∧ (Reg.SYNX_STAT_LOCK x).addr ∉ pulseWords := by decide

theorem fpCfg_notPulse : ∀ p : Fin 4, (Reg.OUT_FP_CFG_SYN p).addr ∉ pulseWords ∧ (Reg.OUT_FP_PER_PER p).addr ∉ pulseWords ∧
    (Reg.OUT_FP_WIDTH_WIDTH p).addr ∉ pulseWords ∧ (Reg.OUT_FP_OFF_OFFSET p).addr ∉ pulseWords ∧ (Reg.OUT_FP_FINE_FINE p).addr ∉ pulseWords := by decide

theorem Dev.bothResumed (plan : Nat) (d : Dev) : Dev.BothResumed plan d ((d.resumeAt plan 0).resumeAt plan 1) := by
  have h0 := d.resumeAt_resumed plan 0
  have h1 := (d.resumeAt plan 0).resumeAt_resumed plan 1
  rw [show ((0 : Fin 2) : Nat) = 0 from rfl] at h0
  rw [show ((1 : Fin 2) : Nat) = 1 from rfl] at h1
  generalize d.resumeAt plan 0 = M at h0 h1
  generalize M.resumeAt plan 1 = D at h1
  have hplan : ∀ x, x < 2 → M.rd (Reg.SYNX_CFG_PLAN x) = d.rd (Reg.SYNX_CFG_PLAN x) := fun x hx => Dev.rd_of_word (h0.word _ (synX_notPulse ⟨x, hx⟩).1)
  have hlock : M.on (Reg.SYNX_STAT_LOCK 1) = d.on (Reg.SYNX_STAT_LOCK 1) := by
    rw [Dev.on, Dev.rd_of_word (h0.word (Reg.SYNX_STAT_LOCK 1).addr (by decide)), Dev.on]
  have ho : M.syns 1 = d.syns 1 := h0.other
  have ho' : D.syns 0 = M.syns 0 := h1.other
  have htime : M.timeNs = d.timeNs := by
    rw [h0.only]
    rfl
  have m1 := h1.mine
  rw [hplan 1 (by decide), ho, hlock] at m1
  refine ⟨?_, fun a ha => (h1.word a ha).trans (h0.word a ha), fun x hx => ?_, ⟨h1.rest.1.trans h0.rest.1, h1.rest.2.trans h0.rest.2⟩, fun p hp => ?_⟩
  · rw [h1.only, h0.only]
  · obtain rfl | rfl := lt_two hx
    · exact ho'.trans h0.mine
    · exact m1
  · have k0 := h0.pulse p hp
    have k1 := h1.pulse p hp
    have hcfg : M.rd (Reg.OUT_FP_CFG_SYN p) = d.rd (Reg.OUT_FP_CFG_SYN p) := Dev.rd_of_word (h0.word _ (fpCfg_notPulse ⟨p, hp⟩).1)
    rw [hcfg, hplan 1 (by decide), ho, hlock] at k1
    have hlt : d.rd (Reg.OUT_FP_CFG_SYN p) < 2 := d.rd_lt (Reg.OUT_FP_CFG_SYN p)
    unfold Dev.pulseAligned
    dsimp only
    obtain hy | hy := lt_two hlt
    · rw [hy] at k0 k1 ⊢
      rw [if_neg (by simp)] at k1
      simp only [true_and] at k0
      exact k0.then_still k1
    · rw [hy] at k0 k1 ⊢
      rw [if_neg (by simp)] at k0
      simp only [true_and] at k1
      rw [k0.state] at k1
      exact k0.still_then k1 htime

/-! The CLKOUTs that start together, and the pulse outputs that take their settings. -/

theorem get_foldl_put {α : Type} [DecidableEq α] (dflt v : α) (l : List Nat) (m : Sparse α) (y : Nat) :
    Sparse.get dflt (l.foldl (fun m x => Sparse.put dflt m x v) m) y = if y ∈ l then v else Sparse.get dflt m y := by
  induction l generalizing m with
  | nil => simp
  | cons x l ih =>
    rw [List.foldl_cons, ih, Sparse.get_put]
    by_cases h : y ∈ l
    · simp [h]
    · by_cases hx : x = y
      · simp [hx]
      · have : ¬ y = x := fun e => hx e.symm
        simp [h, hx, this]

/-- What pulse output `p` is once it has taken its settings. -/
def Dev.pulseTaken (plan : Nat) (d : Dev) (p : Nat) : PulseS :=
  let y := d.rd (Reg.OUT_FP_CFG_SYN p)
  if (d.pulse p).changed = true ∧ d.rd (Reg.SYNX_CFG_PLAN y) = plan ∧ (d.syns y).gated = false then
    { d.pulse p with changed := false, per := d.rd (Reg.OUT_FP_PER_PER p), width := d.rd (Reg.OUT_FP_WIDTH_WIDTH p),
                     off := d.rd (Reg.OUT_FP_OFF_OFFSET p), fine := d.rd (Reg.OUT_FP_FINE_FINE p) }
  else d.pulse p

theorem Dev.pulseTake_eq (plan : Nat) (d : Dev) (p : Nat) : (d.pulseTake plan p = d ∨ d.pulseTake plan p = d.setPulse p (d.pulseTaken plan p)) ∧
    (d.pulseTake plan p).pulse p = d.pulseTaken plan p := by
  have hc : ((d.pulse p).changed && d.rd (Reg.SYNX_CFG_PLAN (d.rd (Reg.OUT_FP_CFG_SYN p))) == plan && !d.synGated (d.rd (Reg.OUT_FP_CFG_SYN p))) = true ↔
      (d.pulse p).changed = true ∧ d.rd (Reg.SYNX_CFG_PLAN (d.rd (Reg.OUT_FP_CFG_SYN p))) = plan ∧ (d.syns (d.rd (Reg.OUT_FP_CFG_SYN p))).gated = false := by
    rw [Bool.and_eq_true, Bool.and_eq_true, beq_iff_eq, Bool.not_eq_true', Dev.synGated_eq, and_assoc]
  unfold Dev.pulseTake Dev.pulseTaken
  dsimp only
  by_cases h : (d.pulse p).changed = true ∧ d.rd (Reg.SYNX_CFG_PLAN (d.rd (Reg.OUT_FP_CFG_SYN p))) = plan ∧ (d.syns (d.rd (Reg.OUT_FP_CFG_SYN p))).gated = false
  · rw [if_pos (hc.mpr h), if_pos h]
    exact ⟨.inr rfl, (d.pulse_setPulse p p _).trans (if_pos rfl)⟩
  · rw [if_neg fun hx => h (hc.mp hx), if_neg h]
    exact ⟨.inl rfl, rfl⟩

/-- What a pulse output's settings depend on beside its own state. -/
def Dev.takeGlob (d : Dev) : Syn × List (Nat × Word) := ({ d.syn with fp := [] }, d.live)

theorem Dev.pulseTake_keeps (plan : Nat) (d : Dev) (p : Nat) : d.pulseTake plan p = { d with syn := { d.syn with fp := (d.pulseTake plan p).syn.fp } } ∧
    ∀ q, q ≠ p → (d.pulseTake plan p).pulse q = d.pulse q := by
  obtain ⟨h, -⟩ := d.pulseTake_eq plan p
  obtain h | h := h
  · rw [h]
    exact ⟨rfl, fun _ _ => rfl⟩
  · rw [h]
    exact ⟨rfl, fun q hq => (d.pulse_setPulse p q _).trans (if_neg hq)⟩

theorem Dev.pulsesTake_told (plan : Nat) (d : Dev) : (∃ F, (List.range 4).foldl (Dev.pulseTake plan) d = { d with syn := { d.syn with fp := F } }) ∧
    ∀ p, p < 4 → ((List.range 4).foldl (Dev.pulseTake plan) d).pulse p = d.pulseTaken plan p := by
  refine ⟨?_, fun p hp => ?_⟩
  · generalize List.range 4 = l
    induction l generalizing d with
    | nil => exact ⟨d.syn.fp, rfl⟩
    | cons i l ih =>
      obtain ⟨F, hF⟩ := ih (d.pulseTake plan i)
      refine ⟨F, ?_⟩
      rw [List.foldl_cons, hF, (d.pulseTake_keeps plan i).1]
  · have hglob : ∀ (e : Dev) (i : Nat), i < 4 → (e.pulseTake plan i).takeGlob = e.takeGlob := fun e i _ => by
      rw [(e.pulseTake_keeps plan i).1]
      rfl
    obtain ⟨e, hg, hpt, h3, -⟩ := foldl_range_own (f := Dev.pulseTake plan) Dev.takeGlob (fun p d => d.pulse p) 4 hglob
      (fun e i j _ _ hne => (e.pulseTake_keeps plan i).2 j hne) d hp
    obtain ⟨g1, g2⟩ := Prod.mk.inj hg
    have hrd : ∀ f, e.rd f = d.rd f := fun f => by rw [Dev.rd, Dev.word, g2, Dev.rd, Dev.word]
    have hs : ∀ y, e.syns y = d.syns y := fun y => by
      have ga := congrArg Syn.a g1
      have gb := congrArg Syn.b g1
      have ha : e.syn.a = d.syn.a := ga
      have hb : e.syn.b = d.syn.b := gb
      rw [Dev.syns, ha, hb, Dev.syns]
    have hpe : e.pulse p = d.pulse p := hpt
    refine Eq.trans h3 ((e.pulseTake_eq plan p).2.trans ?_)
    unfold Dev.pulseTaken
    simp only [hrd, hs, hpe]

theorem Dev.aligned_iff (d : Dev) (plan : Fin 2) : d.aligned plan = true ↔ d.ns = 0 ∧ (plan = 0 ∨ d.tick % 80 = 0) := by
  have h : plan.val = 0 ↔ plan = 0 := by omega
  rw [Dev.aligned, Bool.and_eq_true, Bool.or_eq_true, beq_iff_eq, beq_iff_eq, beq_iff_eq, h]

theorem on_ne_one (d : Dev) (f : Fld) : (!d.on f) = decide (d.rd f ≠ 1) := by
  rw [Dev.on]
  by_cases h : d.rd f = 1 <;> simp [h]

theorem alignmentBoundary_waits (s : State) (plan : Fin 2) (h : ¬ (s.dev.ns = 0 ∧ (plan = 0 ∨ s.dev.tick % 80 = 0))) :
    ∃ t, Runs (.alignmentBoundary plan) s t ∧ Keeps [] s t s.dev := by
  have hrun := runs_of_onDev (execAlignmentBoundary_eq s plan)
  rw [(Bool.not_eq_true _).mp fun hc => h ((s.dev.aligned_iff plan).mp hc), Bool.not_false, if_pos rfl] at hrun
  exact ⟨_, hrun, fun _ _ => rfl, rfl⟩

theorem alignmentBoundary_resumes (s : State) (plan : Fin 2) : let mine := fun (x : Nat) => s.dev.rd (Reg.SYNX_CFG_PLAN x) = plan.val
    s.dev.ns = 0 ∧ (plan = 0 ∨ s.dev.tick % 80 = 0) → ∃ t, Runs (.alignmentBoundary plan) s t ∧
      (∀ x, x < 2 → mine x → (s.dev.syns x).realign = true →
        t.dev.syns x = { s.dev.syns x with realign := false, gated := decide (s.dev.rd (Reg.SYNX_STAT_LOCK x) ≠ 1), lag := 0 }) ∧
      (∀ x, x < 2 → ¬ (mine x ∧ (s.dev.syns x).realign = true) → t.dev.syns x = s.dev.syns x) ∧
      (∀ y, y < 8 → (y ∈ t.dev.syn.waiting ↔
        y ∈ s.dev.syn.waiting ∧ ¬ (mine (s.dev.clkSyn y) ∧ (t.dev.syns (s.dev.clkSyn y)).gated = false))) ∧
      (∀ y, y ∈ s.dev.syn.waiting → y ∉ t.dev.syn.waiting → Sparse.get 0 t.dev.syn.clkStart y = s.dev.tick) ∧
      (∀ p, p < 4 → let y := s.dev.rd (Reg.OUT_FP_CFG_SYN p)
        let old := s.dev.rd (Reg.OUT_FP_STAT_STATE p)
        let now := t.dev.rd (Reg.OUT_FP_STAT_STATE p)
        let lock := s.dev.rd (Reg.SYNX_STAT_LOCK y)
        let x := if now = 2 ∧ old = 3 then { s.dev.pulse p with since := s.dev.timeNs } else s.dev.pulse p
        (mine y ∧ (s.dev.syns y).realign = true → now = if lock = 1 ∧ old = 3 then 2 else if lock = 0 ∧ old = 2 then 3 else old) ∧
        (¬ (mine y ∧ (s.dev.syns y).realign = true) → now = old) ∧
        t.dev.pulse p = if x.changed = true ∧ mine y ∧ (t.dev.syns y).gated = false then
          { x with changed := false, per := s.dev.rd (Reg.OUT_FP_PER_PER p), width := s.dev.rd (Reg.OUT_FP_WIDTH_WIDTH p),
                   off := s.dev.rd (Reg.OUT_FP_OFF_OFFSET p), fine := s.dev.rd (Reg.OUT_FP_FINE_FINE p) } else x) ∧
      Keeps ((List.range 4).map fun p => (Reg.OUT_FP_STAT_STATE p).addr) s t { s.dev with syn := t.dev.syn } := by
  intro mine hdue
  have hrun := runs_of_onDev (execAlignmentBoundary_eq s plan)
  rw [(s.dev.aligned_iff plan).mpr hdue, Bool.not_true, if_neg (by decide)] at hrun
  have hB := s.dev.bothResumed plan
  generalize (s.dev.resumeAt plan.val 0).resumeAt plan.val 1 = B at hB hrun
  obtain ⟨⟨F, hF⟩, hTp⟩ := Dev.pulsesTake_told plan.val (B.clksStart plan)
  generalize (List.range 4).foldl (Dev.pulseTake plan.val) (B.clksStart plan) = T at hF hTp hrun
  have hTlive : T.live = B.live := by
    rw [hF]
    rfl
  have hTw : ∀ a, T.settle.word a = B.word a := fun a => by rw [Dev.settle_word, Dev.word, hTlive, Dev.word]
  have hTrd : ∀ g, T.settle.rd g = B.rd g := fun g => Dev.rd_of_word (hTw g.addr)
  have hTs : ∀ x, T.settle.syns x = B.syns x := fun x => by
    rw [Dev.syns, Dev.settle_syn, hF]
    rfl
  have hTw' : T.settle.syn.waiting = B.syn.waiting.filter fun x => !(B.clksStarting plan).contains x := by
    rw [Dev.settle_syn, hF]
    rfl
  have hTc : T.settle.syn.clkStart = (B.clksStarting plan).foldl (fun m x => Sparse.put 0 m x B.tick) B.syn.clkStart := by
    rw [Dev.settle_syn, hF]
    rfl
  have hplan : ∀ x, x < 2 → B.rd (Reg.SYNX_CFG_PLAN x) = s.dev.rd (Reg.SYNX_CFG_PLAN x) := fun x hx => Dev.rd_of_word (hB.word _ (synX_notPulse ⟨x, hx⟩).1)
  have hck : ∀ y, y < 8 → B.clkSyn y = s.dev.clkSyn y := fun y hy => by
    obtain ⟨n1, n2⟩ := (show ∀ y : Fin 8, (Reg.OUT_CLK_CFG_SYN y).addr ∉ pulseWords ∧ (Reg.OUT_CLK_STAT_ONSYN y).addr ∉ pulseWords by decide) ⟨y, hy⟩
    rw [Dev.clkSyn, Dev.rd_of_word (hB.word _ n1), Dev.rd_of_word (hB.word _ n2), Dev.clkSyn]
  have hgo : ∀ y, y < 8 → (y ∈ B.clksStarting plan ↔ y ∈ s.dev.syn.waiting ∧ mine (s.dev.clkSyn y) ∧ (T.settle.syns (s.dev.clkSyn y)).gated = false) := fun y hy => by
    rw [Dev.clksStarting, List.mem_filter, hB.rest.1, hck y hy, Bool.and_eq_true, beq_iff_eq, Bool.not_eq_true', Dev.synGated_eq, hplan _ (s.dev.clkSyn_lt y), hTs]
  have hwait : ∀ y, y ∈ T.settle.syn.waiting ↔ y ∈ s.dev.syn.waiting ∧ y ∉ B.clksStarting plan := fun y => by
    rw [hTw', List.mem_filter, hB.rest.1, Bool.not_eq_true', List.contains_eq_mem, decide_eq_false_iff_not]
  refine ⟨_, hrun, fun x hx hm hr => ?_, fun x hx hn => ?_, fun y hy => ?_, fun y hy hn => ?_, fun p hp => ?_, fun a ha => ?_, ?_⟩
  · refine (hTs x).trans ((hB.syns x hx).trans ?_)
    rw [if_pos ⟨hm, hr⟩, on_ne_one]
    rfl
  · exact (hTs x).trans ((hB.syns x hx).trans (if_neg hn))
  · refine (hwait y).trans ?_
    rw [hgo y hy]
    tauto
  · have hin : y ∈ B.clksStarting plan := by
      by_contra hc
      exact hn ((hwait y).mpr ⟨hy, hc⟩)
    refine (congrArg (fun m => Sparse.get 0 m y) hTc).trans ?_
    rw [get_foldl_put, if_pos hin, hB.only]
  · obtain ⟨c1, c2, c3, c4, c5⟩ := fpCfg_notPulse ⟨p, hp⟩
    have hk := hB.pulse p hp
    have hnow : T.settle.rd (Reg.OUT_FP_STAT_STATE p) = s.dev.pulseAligned plan p := (hTrd _).trans hk.state
    have hy : s.dev.rd (Reg.OUT_FP_CFG_SYN p) < 2 := s.dev.rd_lt (Reg.OUT_FP_CFG_SYN p)
    have hlk : s.dev.rd (Reg.SYNX_STAT_LOCK (s.dev.rd (Reg.OUT_FP_CFG_SYN p))) < 2 := s.dev.rd_lt (Reg.SYNX_STAT_LOCK (s.dev.rd (Reg.OUT_FP_CFG_SYN p)))
    refine ⟨fun h => ?_, fun h => ?_, ?_⟩
    · rw [hnow, Dev.pulseAligned, if_pos h, pulseNow, on_ne_one]
      obtain h0 | h1 := lt_two hlk
      · simp [h0]
      · simp [h1]
    · rw [hnow, Dev.pulseAligned, if_neg h]
    · rw [hnow]
      have hpu : T.settle.pulse p = (B.clksStart plan).pulseTaken plan p := hTp p hp
      have hBp : B.pulse p = if s.dev.pulseAligned plan p = 2 ∧ s.dev.rd (Reg.OUT_FP_STAT_STATE p) = 3 then { s.dev.pulse p with since := s.dev.timeNs } else s.dev.pulse p := hk.pulse
      have hS : (B.clksStart plan).pulseTaken plan p = B.pulseTaken plan p := rfl
      rw [hpu, hS, Dev.pulseTaken, hBp, Dev.rd_of_word (hB.word _ c1), Dev.rd_of_word (hB.word _ c2), Dev.rd_of_word (hB.word _ c3), Dev.rd_of_word (hB.word _ c4),
        Dev.rd_of_word (hB.word _ c5), hplan _ hy, hTs]
  · exact (hTw a).trans (hB.word a ha)
  · change T.settle = Around { s.dev with syn := T.settle.syn } T.settle
    rw [Dev.settle_syn, hF, hB.only]
    rfl

theorem clockOutputsRealign : ClockOutputsRealign :=
  ⟨realign_gates, fun s plan => ⟨alignmentBoundary_waits s plan, alignmentBoundary_resumes s plan⟩, outClken_enables, clkXrevert_returns⟩

/-! ### FP_INPUT_EDGE -/

/-- Beside the fields in `fs`, the events `es` and the free words, only pulse output `p` changes. -/
structure Dev.OnPulse (fs : List Fld) (es : List (Nat × Nat × Nat)) (p : Nat) (d D : Dev) : Prop where
  only : D = { d with live := D.live, syn := { d.syn with fp := D.syn.fp }, free := D.free, evq := { d.evq with posts := d.evq.posts ++ es } }
  same : Dev.SameBut fs d D
  other : ∀ q, q ≠ p → D.pulse q = d.pulse q

theorem Dev.OnPulse.trans {fs : List Fld} {es es' : List (Nat × Nat × Nat)} {p : Nat} {d d' d'' : Dev} (h : Dev.OnPulse fs es p d d')
    (h' : Dev.OnPulse fs es' p d' d'') : Dev.OnPulse fs (es ++ es') p d d'' := by
  refine ⟨?_, h.same.trans h'.same, fun q hq => (h'.other q hq).trans (h.other q hq)⟩
  rw [h'.only, h.only, List.append_assoc]

theorem Dev.Acts.onPulse {fs : List Fld} {es : List (Nat × Nat × Nat)} {d D : Dev} (h : Dev.Acts fs es d D) (p : Nat) : Dev.OnPulse fs es p d D := by
  have hs : D.syn = d.syn := by rw [h.only]
  refine ⟨?_, h.same, fun q _ => by rw [Dev.pulse, hs, Dev.pulse]⟩
  rw [h.only]

theorem Dev.Acts.pulse {fs : List Fld} {es : List (Nat × Nat × Nat)} {d D : Dev} (h : Dev.Acts fs es d D) (q : Nat) : D.pulse q = d.pulse q := by
  rw [Dev.pulse, h.only, Dev.pulse]

theorem Dev.setPulse_onPulse (fs : List Fld) (d : Dev) (p : Nat) (v : PulseS) : Dev.OnPulse fs [] p d (d.setPulse p v) := by
  refine ⟨?_, Dev.SameBut.of_live rfl, fun q hq => (d.pulse_setPulse p q v).trans (if_neg hq)⟩
  rw [List.append_nil]
  rfl

theorem Dev.fresh_onPulse (fs : List Fld) (d : Dev) (p : Nat) : Dev.OnPulse fs [] p d d.fresh.1 := by
  refine ⟨?_, Dev.SameBut.of_live rfl, fun _ _ => rfl⟩
  rw [List.append_nil]
  rfl

/-- The fields that an input edge of pulse output `p` writes when it sets the anchor. -/
def anchorFields (p : Nat) : List Fld :=
  [Reg.OUT_FP_STAT_ANCHORED p, Reg.OUT_FP_SKIP_COUNT p, Reg.OUT_STATUS_CNT_HALF, Reg.OUT_STATUS_SKIPEV]

/-- Whether moving the phase of pulse output `p` from `old` to `new` omits the next pulse. -/
def Dev.Omits (d : Dev) (p : Nat) (old new : Int) : Prop :=
  d.rd (Reg.OUT_FP_STAT_STATE p) = 2 ∧ old < ((d.pulse p).width : Int) * 10 ^ 9 ∧ old ≠ new ∧
    (((d.pulse p).per : Int) * 10 ^ 9 - new) % (((d.pulse p).per : Int) * 10 ^ 9) < ((d.pulse p).width : Int) * 10 ^ 9 - old + 4 * 10 ^ 9

/-- What an omitted pulse leaves. -/
def Dev.SkipTold (d D : Dev) (p : Nat) (omits : Prop) : Prop :=
  (omits → D.rd (Reg.OUT_FP_SKIP_COUNT p) = (d.rd (Reg.OUT_FP_SKIP_COUNT p) + 1) % 2 ^ 32 ∧ D.rd Reg.OUT_STATUS_SKIPEV = 1) ∧
  (¬ omits → D.rd (Reg.OUT_FP_SKIP_COUNT p) = d.rd (Reg.OUT_FP_SKIP_COUNT p))

theorem fpFields_ok : ∀ p : Fin 4, (Reg.OUT_FP_STAT_ANCHORED p).ok = true ∧ (Reg.OUT_FP_SKIP_COUNT p).ok = true ∧ (Reg.OUT_FP_ERR_NS p).ok = true ∧
    (Reg.OUT_FP_REJ_COUNT p).ok = true ∧ Reg.OUT_STATUS_CNT_HALF.apart (Reg.OUT_FP_SKIP_COUNT p) = true ∧
    Reg.OUT_STATUS_SKIPEV.sep (Reg.OUT_FP_SKIP_COUNT p) = true ∧ (Reg.OUT_FP_STAT_ANCHORED p).sep (Reg.OUT_FP_SKIP_COUNT p) = true ∧
    (Reg.OUT_FP_STAT_ANCHORED p).sep (Reg.OUT_FP_STAT_STATE p) = true := by decide

theorem Dev.pulseMoved_told (d : Dev) (p : Fin 4) (old new : Int) :
    (∃ es, Dev.Acts [Reg.OUT_FP_SKIP_COUNT p, Reg.OUT_STATUS_CNT_HALF, Reg.OUT_STATUS_SKIPEV] es d (d.pulseMoved p old new)) ∧
      Dev.SkipTold d (d.pulseMoved p old new) p (d.Omits p old new) := by
  obtain ⟨-, o1, -, -, a1, a2, -, -⟩ := fpFields_ok p
  unfold Dev.pulseMoved
  dsimp only
  split
  case isTrue h =>
    refine ⟨⟨_, (((Dev.Acts.refl _ d).count 1 (by simp) (by simp) o1 (by decide)).flag (by simp) (by decide)).post ..⟩, fun _ => ?_, fun hn => absurd h hn⟩
    rw [Dev.post_rd, Dev.post_rd, Dev.rd_flag _ _ (by decide), Dev.rd_flag_sep _ _ _ a2, Dev.rd_count _ _ _ _ o1 (by decide) a1]
    exact ⟨rfl, rfl⟩
  case isFalse h => exact ⟨⟨_, .refl _ d⟩, fun hn => absurd hn h, fun _ => rfl⟩

/-- The own state of a pulse output anchored at `t`. -/
def PulseS.anchored (x : PulseS) (t : Nat) : PulseS := { x with anchor := some t, rejects := 0, align := false }

theorem Dev.setAnchor_told (d : Dev) (p : Fin 4) : (∃ es, Dev.OnPulse (anchorFields p) es p d (d.setAnchor p)) ∧
    (d.setAnchor p).pulse p = (d.pulse p).anchored d.timeNs ∧ (d.setAnchor p).rd (Reg.OUT_FP_STAT_ANCHORED p) = 1 ∧
    Dev.SkipTold d (d.setAnchor p) p (d.Omits p (d.pulsePhase p d.timeNs (d.pulse p).anchor) (d.pulsePhase p d.timeNs (some d.timeNs))) := by
  obtain ⟨o0, o1, -, -, -, -, a3, a4⟩ := fpFields_ok p
  have hdef : d.setAnchor p = ((d.setPulse p ((d.pulse p).anchored d.timeNs)).wr (Reg.OUT_FP_STAT_ANCHORED p) 1).pulseMoved p
    (d.pulsePhase p d.timeNs (d.pulse p).anchor)
    (((d.setPulse p ((d.pulse p).anchored d.timeNs)).wr (Reg.OUT_FP_STAT_ANCHORED p) 1).pulsePhase p d.timeNs (some d.timeNs)) := rfl
  rw [hdef]
  have hP := d.setPulse_onPulse (anchorFields p) p ((d.pulse p).anchored d.timeNs)
  have hPp : (d.setPulse p ((d.pulse p).anchored d.timeNs)).pulse p = (d.pulse p).anchored d.timeNs := (d.pulse_setPulse p p _).trans (if_pos rfl)
  have hPrd : ∀ f, (d.setPulse p ((d.pulse p).anchored d.timeNs)).rd f = d.rd f := fun _ => rfl
  generalize d.setPulse p ((d.pulse p).anchored d.timeNs) = P at hP hPp hPrd
  have hW := P.wr_acts (Reg.OUT_FP_STAT_ANCHORED p) 1 o0
  have hWa := P.rd_wr_lt (Reg.OUT_FP_STAT_ANCHORED p) 1 o0 (show 1 < 2 ^ 1 by decide)
  have hWs : ∀ g, (Reg.OUT_FP_STAT_ANCHORED p).sep g = true → (P.wr (Reg.OUT_FP_STAT_ANCHORED p) 1).rd g = d.rd g := fun g hg =>
    (Dev.rd_wr_sep _ _ _ _ hg).trans (hPrd g)
  generalize P.wr (Reg.OUT_FP_STAT_ANCHORED p) 1 = W at hW hWa hWs
  have hWp : W.pulse p = (d.pulse p).anchored d.timeNs := (hW.pulse p).trans hPp
  obtain ⟨c1, c2⟩ := (show ∀ p : Fin 4, ∀ x : Fin 2, (Reg.OUT_FP_STAT_ANCHORED p).sep (Reg.OUT_FP_CFG_SYN p) = true ∧
    (Reg.OUT_FP_STAT_ANCHORED p).sep (Reg.SYNX_CFG_PLAN x) = true by decide) p ⟨d.rd (Reg.OUT_FP_CFG_SYN p), d.rd_lt (Reg.OUT_FP_CFG_SYN p)⟩
  have hphase : W.pulsePhase p d.timeNs (some d.timeNs) = d.pulsePhase p d.timeNs (some d.timeNs) := by
    unfold Dev.pulsePhase
    simp only [hWs _ c1, hWs _ c2, hWp]
    rfl
  rw [hphase]
  obtain ⟨⟨es, hM⟩, hS⟩ := W.pulseMoved_told p (d.pulsePhase p d.timeNs (d.pulse p).anchor) (d.pulsePhase p d.timeNs (some d.timeNs))
  have hO : W.Omits p (d.pulsePhase p d.timeNs (d.pulse p).anchor) (d.pulsePhase p d.timeNs (some d.timeNs)) =
      d.Omits p (d.pulsePhase p d.timeNs (d.pulse p).anchor) (d.pulsePhase p d.timeNs (some d.timeNs)) := by
    unfold Dev.Omits
    rw [hWs _ a4, hWp]
    rfl
  rw [hO, Dev.SkipTold, hWs _ a3] at hS
  generalize W.pulseMoved p (d.pulsePhase p d.timeNs (d.pulse p).anchor) (d.pulsePhase p d.timeNs (some d.timeNs)) = D at hM hS
  refine ⟨⟨_, (hP.trans ((hW.mono (by simp [anchorFields])).onPulse p)).trans ((hM.mono (by simp [anchorFields])).onPulse p)⟩, (hM.pulse p).trans hWp, ?_, hS⟩
  exact (hM.rd ((show ∀ p : Fin 4, Fld.clear [Reg.OUT_FP_SKIP_COUNT p, Reg.OUT_STATUS_CNT_HALF, Reg.OUT_STATUS_SKIPEV] (Reg.OUT_FP_STAT_ANCHORED p) = true by decide) p)).trans hWa

/-- The events that a command adds to an empty queue of posts enter in order. -/
theorem enters_of_evq {s t : State} {D : Dev} {es : List (Nat × Nat × Nat)} (hevq : D.evq = { s.dev.evq with posts := s.dev.evq.posts ++ es })
    (htick : D.tick = s.dev.tick) (b : Nat) (hb : b < 32) (he : ∀ e ∈ es, e.1 = b) (hn : es.length ≤ 12) (hr : Room s) (ht : t.dev = D.settle) :
    EntersAll s t es := by
  rw [hr.2.1, List.nil_append] at hevq
  refine entersAll_of_room b hb he hn hr ?_
  have hsch : D.schTick = s.dev.schTick := by rw [Dev.schTick, htick, Dev.schTick]
  rw [ht, ← hsch, ← hevq]
  rfl

/-- The fields that an input edge of pulse output `p` writes. -/
def edgeFields (p : Nat) : List Fld :=
  anchorFields p ++ [Reg.OUT_FP_ERR_NS p, Reg.OUT_FP_REJ_COUNT p, Reg.OUT_STATUS_REJEV, Reg.OUT_STATUS_ANCHOREV]

/-- An edge within the window of pulse output `p`: the first one, the one after three rejections, or one whose error is within WIN. -/
def Dev.Within (d : Dev) (p : Nat) (err : Int) : Prop :=
  (d.pulse p).anchor = none ∨ d.rd (Reg.OUT_FP_FINE_WIN p) = 0 ∨ 3 ≤ (d.pulse p).rejects ∨ err.natAbs ≤ d.rd (Reg.OUT_FP_FINE_WIN p)

/-- What setting the anchor of pulse output `p` at an edge leaves. -/
structure Dev.AnchorTold (d D : Dev) (p : Nat) : Prop where
  own : D.pulse p = (d.pulse p).anchored d.timeNs
  shown : D.rd (Reg.OUT_FP_STAT_ANCHORED p) = 1
  skip : Dev.SkipTold d D p (d.Omits p (d.pulsePhase p d.timeNs (d.pulse p).anchor) (d.pulsePhase p d.timeNs (some d.timeNs)))

def Dev.edgeRejected (d : Dev) (p : Nat) (x : PulseS) (err : Int) : Dev :=
  let d := (d.setPulse p { x with rejects := x.rejects + 1 }).count (Reg.OUT_FP_REJ_COUNT p) Reg.OUT_STATUS_CNT_HALF
  if x.rejects + 1 = 3 then (d.flag Reg.OUT_STATUS_REJEV).post 18 4 (p + uint 32 err * 2 ^ 32) else d

/-- A native edge of pulse output `p`, whose own state was `x`, with the error `err`. -/
def Dev.edgeJudged (d : Dev) (p : Nat) (x : PulseS) (err : Int) : Dev :=
  let d := d.wr (Reg.OUT_FP_ERR_NS p) (uint 32 err)
  let win := d.rd (Reg.OUT_FP_FINE_WIN p)
  if x.anchor.isNone ∨ win = 0 ∨ x.rejects ≥ 3 ∨ err.natAbs ≤ win then d.setAnchor p else d.edgeRejected p x err

/-- A native edge of pulse output `p`. -/
def Dev.fpNative (d : Dev) (p : Nat) : Dev :=
  let x := d.pulse p
  let (d, err) := d.pulseError p
  d.edgeJudged p x err

theorem Dev.fpNative_eq (d : Dev) (p : Nat) : d.fpNative p = (d.pulseError p).1.edgeJudged p (d.pulse p) (d.pulseError p).2 := by
  unfold Dev.fpNative
  cases d.pulseError p
  rfl

/-- A legacy edge of pulse output `p`. -/
def Dev.fpLegacy (d : Dev) (p : Nat) : Dev :=
  if (d.pulse p).align then ((d.setAnchor p).flag Reg.OUT_STATUS_ANCHOREV).post 18 5 (p + d.timeNs % 2 ^ 32 * 2 ^ 32) else d

/-- Whether pulse output `p` takes an edge. -/
def Dev.takesEdge (d : Dev) (p : Nat) : Bool :=
  d.on Reg.OUT_CFG_ENABLE && d.on (Reg.OUT_FP_CFG_EN p) && d.pinEdge (d.rd (Reg.OUT_FP_CFG_INSRC p)) (!d.on (Reg.OUT_FP_CFG_IEDGE p))

theorem execFpInputEdge_eq (s : State) (p : Fin 4) (ns : Nat) : exec (.fpInputEdge p ns) s = onDev (fun d =>
    if !(d.at ns).on Reg.OUT_CFG_ENABLE || !(d.at ns).on (Reg.OUT_FP_CFG_EN p)
        || !(d.at ns).pinEdge ((d.at ns).rd (Reg.OUT_FP_CFG_INSRC p)) (!(d.at ns).on (Reg.OUT_FP_CFG_IEDGE p)) then d.at ns
    else match (d.at ns).rd (Reg.OUT_FP_CFG_MODE p) with
      | 1 => (d.at ns).fpNative p
      | 2 => (d.at ns).fpLegacy p
      | _ => d.at ns) s := rfl

theorem Dev.pulseError_anchored (d : Dev) (p : Nat) {a : Nat} (h : (d.pulse p).anchor = some a) : (d.pulseError p).2 =
    quot 15 (if 2 * (((d.timeNs : Int) - a) * vcoHz (d.rd (Reg.SYNX_CFG_PLAN (d.rd (Reg.OUT_FP_CFG_SYN p)))) % (((d.pulse p).per : Int) * 10 ^ 9)) >
        ((d.pulse p).per : Int) * 10 ^ 9 then
      ((d.timeNs : Int) - a) * vcoHz (d.rd (Reg.SYNX_CFG_PLAN (d.rd (Reg.OUT_FP_CFG_SYN p)))) % (((d.pulse p).per : Int) * 10 ^ 9) - ((d.pulse p).per : Int) * 10 ^ 9
      else ((d.timeNs : Int) - a) * vcoHz (d.rd (Reg.SYNX_CFG_PLAN (d.rd (Reg.OUT_FP_CFG_SYN p)))) % (((d.pulse p).per : Int) * 10 ^ 9))
      (vcoHz (d.rd (Reg.SYNX_CFG_PLAN (d.rd (Reg.OUT_FP_CFG_SYN p))))) := by
  rw [Dev.pulseError, h]

theorem vcoHz_pos (plan : Nat) : 0 < vcoHz plan := by
  unfold vcoHz
  split <;> decide

/-- The error of an anchored output's edge is its distance from the nearest a + m × PER to within a nanosecond (R393). -/
theorem Dev.pulseError_near (d : Dev) (p : Nat) {a : Nat} (h : (d.pulse p).anchor = some a) :
    let vco : Int := if d.rd (Reg.SYNX_CFG_PLAN (d.rd (Reg.OUT_FP_CFG_SYN p))) = 0 then 1572864000 else 1445068800
    let per : Int := (d.pulse p).per
    let z := (((d.timeNs : Int) - a) * vco) % (per * 10 ^ 9)
    ((d.pulseError p).2 * vco - if 2 * z ≤ per * 10 ^ 9 then z else z - per * 10 ^ 9).natAbs < vco := by
  intro vco per z
  have hv : (vcoHz (d.rd (Reg.SYNX_CFG_PLAN (d.rd (Reg.OUT_FP_CFG_SYN p)))) : Int) = vco := by
    unfold vcoHz
    split <;> simp_all [vco]
  have hif : ∀ z P : Int, (if 2 * z ≤ P then z else z - P) = if 2 * z > P then z - P else z := fun z P => by
    split_ifs <;> omega
  have hq : (((vcoHz (d.rd (Reg.SYNX_CFG_PLAN (d.rd (Reg.OUT_FP_CFG_SYN p)))) : Int) * quot 15 (if 2 * z > per * 10 ^ 9 then z - per * 10 ^ 9 else z)
      (vcoHz (d.rd (Reg.SYNX_CFG_PLAN (d.rd (Reg.OUT_FP_CFG_SYN p))))) - if 2 * z > per * 10 ^ 9 then z - per * 10 ^ 9 else z).natAbs : Int) <
      (vcoHz (d.rd (Reg.SYNX_CFG_PLAN (d.rd (Reg.OUT_FP_CFG_SYN p)))) : Int) :=
    Int.ofNat_lt.mpr (quot_near 15 _ (vcoHz_pos _))
  have he := d.pulseError_anchored p h
  rw [hv] at he hq
  rw [he, hif, mul_comm]
  exact hq

theorem Dev.pulseError_onPulse (fs : List Fld) (d : Dev) (p : Nat) : Dev.OnPulse fs [] p d (d.pulseError p).1 ∧ (d.pulseError p).1.live = d.live ∧
    (d.pulseError p).1.syn = d.syn ∧ (d.pulseError p).1.timeNs = d.timeNs := by
  unfold Dev.pulseError
  split
  · exact ⟨d.fresh_onPulse fs p, rfl, rfl, rfl⟩
  · exact ⟨(Dev.Acts.refl fs d).onPulse p, rfl, rfl, rfl⟩

theorem Dev.AnchorTold.of_base {d W D : Dev} {p : Fin 4} (h : Dev.AnchorTold W D p) (hs : W.syn = d.syn) (ht : W.timeNs = d.timeNs)
    (hr : ∀ g, (Reg.OUT_FP_ERR_NS p).sep g = true → W.rd g = d.rd g) : Dev.AnchorTold d D p := by
  obtain ⟨own, shown, skip⟩ := h
  have hp : W.pulse p = d.pulse p := by rw [Dev.pulse, hs, Dev.pulse]
  have hsy : ∀ x, W.syns x = d.syns x := fun x => by rw [Dev.syns, hs, Dev.syns]
  obtain ⟨c1, c2, c3, c4⟩ := (show ∀ p : Fin 4, ∀ x : Fin 2, (Reg.OUT_FP_ERR_NS p).sep (Reg.OUT_FP_CFG_SYN p) = true ∧
    (Reg.OUT_FP_ERR_NS p).sep (Reg.SYNX_CFG_PLAN x) = true ∧ (Reg.OUT_FP_ERR_NS p).sep (Reg.OUT_FP_STAT_STATE p) = true ∧
    (Reg.OUT_FP_ERR_NS p).sep (Reg.OUT_FP_SKIP_COUNT p) = true by decide) p ⟨d.rd (Reg.OUT_FP_CFG_SYN p), d.rd_lt (Reg.OUT_FP_CFG_SYN p)⟩
  have hphase : ∀ t a, W.pulsePhase p t a = d.pulsePhase p t a := fun t a => by
    unfold Dev.pulsePhase Dev.vcoCount
    simp only [hr _ c1, hr _ c2, hp, hsy]
  rw [hp, ht] at own
  rw [hp, ht, hphase, hphase, Dev.SkipTold, hr _ c4] at skip
  have hO : ∀ a b, W.Omits p a b = d.Omits p a b := fun a b => by
    unfold Dev.Omits
    rw [hr _ c3, hp]
  rw [hO] at skip
  exact ⟨own, shown, skip⟩

/-- A native edge of pulse output `p`, whose error is shown. -/
structure Dev.ErrShown (d W : Dev) (p : Nat) (err : Int) : Prop where
  acts : Dev.OnPulse (edgeFields p) [] p d W
  syn : W.syn = d.syn
  time : W.timeNs = d.timeNs
  rest : ∀ g, (Reg.OUT_FP_ERR_NS p).sep g = true → W.rd g = d.rd g
  shown : W.rd (Reg.OUT_FP_ERR_NS p) = uint 32 err

theorem uint_lt (n : Nat) (x : Int) : uint n x < 2 ^ n := by
  have h1 := Int.emod_lt_of_pos x (show (0 : Int) < 2 ^ n by positivity)
  have h2 := Int.emod_nonneg x (show (2 : Int) ^ n ≠ 0 by positivity)
  unfold uint
  zify
  rw [Int.toNat_of_nonneg h2]
  exact h1

theorem Dev.errShown (d : Dev) (p : Fin 4) :
    Dev.ErrShown d ((d.pulseError p).1.wr (Reg.OUT_FP_ERR_NS p) (uint 32 (d.pulseError p).2)) p (d.pulseError p).2 := by
  obtain ⟨-, -, o2, -⟩ := fpFields_ok p
  obtain ⟨h1, h2, h3, h4⟩ := d.pulseError_onPulse (edgeFields p) p
  generalize d.pulseError p = q at h1 h2 h3 h4
  have hW := q.1.wr_acts (Reg.OUT_FP_ERR_NS p) (uint 32 q.2) o2
  have hv := q.1.rd_wr_lt (Reg.OUT_FP_ERR_NS p) (uint 32 q.2) o2 (uint_lt 32 q.2)
  have hsep : ∀ g, (Reg.OUT_FP_ERR_NS p).sep g = true → (q.1.wr (Reg.OUT_FP_ERR_NS p) (uint 32 q.2)).rd g = d.rd g := fun g hg =>
    (Dev.rd_wr_sep _ _ _ _ hg).trans (by rw [Dev.rd, Dev.word, h2, Dev.rd, Dev.word])
  generalize q.1.wr (Reg.OUT_FP_ERR_NS p) (uint 32 q.2) = W at hW hv hsep
  have hsy : W.syn = q.1.syn := by rw [hW.only]
  have ht : W.timeNs = q.1.timeNs := by
    rw [hW.only]
    rfl
  exact ⟨h1.trans ((hW.mono (by simp [edgeFields])).onPulse p), hsy.trans h3, ht.trans h4, hsep, hv⟩

/-- What a native edge of pulse output `p` with the error `err` does. -/
structure Dev.NativeTold (d D : Dev) (p : Nat) (err : Int) : Prop where
  acts : ∃ es, Dev.OnPulse (edgeFields p) es p d D
  shown : D.rd (Reg.OUT_FP_ERR_NS p) = uint 32 err
  anchor : d.Within p err → Dev.AnchorTold d D p
  reject : ¬ d.Within p err → D.pulse p = { d.pulse p with rejects := (d.pulse p).rejects + 1 } ∧
    D.rd (Reg.OUT_FP_REJ_COUNT p) = (d.rd (Reg.OUT_FP_REJ_COUNT p) + 1) % 2 ^ 32 ∧
    ((d.pulse p).rejects = 2 → D.rd Reg.OUT_STATUS_REJEV = 1 ∧ Dev.OnPulse (edgeFields p) [(18, 4, p + uint 32 err * 2 ^ 32)] p d D)

theorem edgeFields_clear : ∀ p : Fin 4, Fld.clear (anchorFields p) (Reg.OUT_FP_ERR_NS p) = true ∧
    (Reg.OUT_FP_ERR_NS p).sep (Reg.OUT_FP_FINE_WIN p) = true ∧ (Reg.OUT_FP_ERR_NS p).sep (Reg.OUT_FP_REJ_COUNT p) = true ∧
    Reg.OUT_STATUS_CNT_HALF.apart (Reg.OUT_FP_REJ_COUNT p) = true ∧ Reg.OUT_STATUS_REJEV.sep (Reg.OUT_FP_REJ_COUNT p) = true ∧
    Fld.clear [Reg.OUT_FP_REJ_COUNT p, Reg.OUT_STATUS_CNT_HALF, Reg.OUT_STATUS_REJEV] (Reg.OUT_FP_ERR_NS p) = true := by decide

/-- What the rejection of an edge does. -/
theorem Dev.edgeRejected_told (d : Dev) (p : Fin 4) (x : PulseS) (err : Int) :
    ∃ es, Dev.OnPulse [Reg.OUT_FP_REJ_COUNT p, Reg.OUT_STATUS_CNT_HALF, Reg.OUT_STATUS_REJEV] es p d (d.edgeRejected p x err) ∧
      (d.edgeRejected p x err).pulse p = { x with rejects := x.rejects + 1 } ∧
      (d.edgeRejected p x err).rd (Reg.OUT_FP_REJ_COUNT p) = (d.rd (Reg.OUT_FP_REJ_COUNT p) + 1) % 2 ^ 32 ∧
      (x.rejects = 2 → (d.edgeRejected p x err).rd Reg.OUT_STATUS_REJEV = 1 ∧ es = [(18, 4, p.val + uint 32 err * 2 ^ 32)]) := by
  obtain ⟨-, -, -, o3, -⟩ := fpFields_ok p
  obtain ⟨-, -, -, a1, a2, -⟩ := edgeFields_clear p
  unfold Dev.edgeRejected
  dsimp only
  have hP := d.setPulse_onPulse [Reg.OUT_FP_REJ_COUNT p, Reg.OUT_STATUS_CNT_HALF, Reg.OUT_STATUS_REJEV] p { x with rejects := x.rejects + 1 }
  have hPp : (d.setPulse p { x with rejects := x.rejects + 1 }).pulse p = { x with rejects := x.rejects + 1 } := (d.pulse_setPulse p p _).trans (if_pos rfl)
  have hPr : (d.setPulse p { x with rejects := x.rejects + 1 }).rd (Reg.OUT_FP_REJ_COUNT p) = d.rd (Reg.OUT_FP_REJ_COUNT p) := rfl
  generalize d.setPulse p { x with rejects := x.rejects + 1 } = P at hP hPp hPr
  have hC := P.count_acts (Reg.OUT_FP_REJ_COUNT p) Reg.OUT_STATUS_CNT_HALF 1 o3 (by decide)
  have hCr : (P.count (Reg.OUT_FP_REJ_COUNT p) Reg.OUT_STATUS_CNT_HALF).rd (Reg.OUT_FP_REJ_COUNT p) = (d.rd (Reg.OUT_FP_REJ_COUNT p) + 1) % 2 ^ 32 := by
    rw [Dev.rd_count _ _ _ _ o3 (by decide) a1, hPr]
    rfl
  generalize P.count (Reg.OUT_FP_REJ_COUNT p) Reg.OUT_STATUS_CNT_HALF = C at hC hCr
  have hC' : Dev.OnPulse [Reg.OUT_FP_REJ_COUNT p, Reg.OUT_STATUS_CNT_HALF, Reg.OUT_STATUS_REJEV] [] p d C :=
    hP.trans ((hC.mono (by simp)).onPulse p)
  have hCp : C.pulse p = { x with rejects := x.rejects + 1 } := (hC.pulse p).trans hPp
  split
  case isTrue h =>
    have hF := ((Dev.Acts.refl [Reg.OUT_FP_REJ_COUNT p, Reg.OUT_STATUS_CNT_HALF, Reg.OUT_STATUS_REJEV] C).flag (f := Reg.OUT_STATUS_REJEV) (by simp) rfl).post 18 4
      (p.val + uint 32 err * 2 ^ 32)
    refine ⟨_, hC'.trans (hF.onPulse p), (hF.pulse p).trans hCp, ?_, fun _ => ⟨?_, rfl⟩⟩
    · rw [Dev.post_rd, Dev.rd_flag_sep _ _ _ a2, hCr]
    · rw [Dev.post_rd, Dev.rd_flag _ _ rfl]
  case isFalse h => exact ⟨_, hC', hCp, hCr, fun h2 => absurd (by omega) h⟩

theorem Dev.fpNative_told (d : Dev) (p : Fin 4) : Dev.NativeTold d (d.fpNative p) p (d.pulseError p).2 := by
  obtain ⟨e1, e2, e3, -, -, e6⟩ := edgeFields_clear p
  have hW := d.errShown p
  rw [Dev.fpNative_eq, Dev.edgeJudged]
  generalize (d.pulseError p).2 = err at hW
  generalize (d.pulseError p).1 = B at hW
  generalize B.wr (Reg.OUT_FP_ERR_NS p) (uint 32 err) = W at hW
  have hc : ((d.pulse p).anchor.isNone = true ∨ W.rd (Reg.OUT_FP_FINE_WIN p) = 0 ∨ (d.pulse p).rejects ≥ 3 ∨ err.natAbs ≤ W.rd (Reg.OUT_FP_FINE_WIN p)) ↔ d.Within p err := by
    rw [hW.rest _ e2, Option.isNone_iff_eq_none]
    rfl
  by_cases h : d.Within p err
  · rw [if_pos (hc.mpr h)]
    obtain ⟨⟨es, hA⟩, h1, h2, h3⟩ := W.setAnchor_told p
    refine ⟨⟨_, hW.acts.trans ⟨hA.only, hA.same.mono fun f hf => List.mem_append_left _ hf, hA.other⟩⟩, (hA.same.rd e1).trans hW.shown, fun _ => ?_, fun hn => absurd h hn⟩
    exact Dev.AnchorTold.of_base ⟨h1, h2, h3⟩ hW.syn hW.time hW.rest
  · rw [if_neg fun hx => h (hc.mp hx)]
    obtain ⟨es, hA, h1, h2, h3⟩ := W.edgeRejected_told p (d.pulse p) err
    rw [hW.rest _ e3] at h2
    have hD := hW.acts.trans ⟨hA.only, hA.same.mono (by simp [edgeFields, anchorFields]), hA.other⟩
    refine ⟨⟨_, hD⟩, (hA.same.rd e6).trans hW.shown, fun hn => absurd hn h, fun _ => ⟨h1, h2, fun h2 => ?_⟩⟩
    obtain ⟨r1, rfl⟩ := h3 h2
    exact ⟨r1, hD⟩

theorem Dev.takes_iff (d : Dev) (p : Nat) : (!d.on Reg.OUT_CFG_ENABLE || !d.on (Reg.OUT_FP_CFG_EN p) ||
    !d.pinEdge (d.rd (Reg.OUT_FP_CFG_INSRC p)) (!d.on (Reg.OUT_FP_CFG_IEDGE p))) = true ↔
    ¬ (d.rd Reg.OUT_CFG_ENABLE = 1 ∧ d.rd (Reg.OUT_FP_CFG_EN p) = 1 ∧
      d.pinEdge (d.rd (Reg.OUT_FP_CFG_INSRC p)) (d.rd (Reg.OUT_FP_CFG_IEDGE p) == 0) = true) := by
  have hi : (!d.on (Reg.OUT_FP_CFG_IEDGE p)) = (d.rd (Reg.OUT_FP_CFG_IEDGE p) == 0) := by
    rw [Dev.on]
    obtain h | h := lt_two (d.rd_lt (Reg.OUT_FP_CFG_IEDGE p)) <;> rw [h] <;> rfl
  rw [hi, ← Dev.on_true_iff, ← Dev.on_true_iff (f := Reg.OUT_FP_CFG_EN p)]
  cases d.on Reg.OUT_CFG_ENABLE <;> cases d.on (Reg.OUT_FP_CFG_EN p) <;> simp

/-- The omission of a pulse, where the anchored output has a phase offset. -/
theorem Dev.omits_iff (d : Dev) (p a : Nat) : let vco : Int := if d.rd (Reg.SYNX_CFG_PLAN (d.rd (Reg.OUT_FP_CFG_SYN p))) = 0 then 1572864000 else 1445068800
    let per : Int := (d.pulse p).per
    let off : Int := (d.pulse p).off
    let width : Int := (d.pulse p).width
    let old := (((d.timeNs : Int) - a) * vco - off * 10 ^ 9) % (per * 10 ^ 9)
    0 < off → off < per → (d.Omits p (d.pulsePhase p d.timeNs (some a)) (d.pulsePhase p d.timeNs (some d.timeNs)) ↔
      d.rd (Reg.OUT_FP_STAT_STATE p) = 2 ∧ old < width * 10 ^ 9 ∧ old ≠ (per - off) * 10 ^ 9 ∧ off * 10 ^ 9 < width * 10 ^ 9 - old + 4 * 10 ^ 9) := by
  intro vco per off width old h0 h1
  have hv : (vcoHz (d.rd (Reg.SYNX_CFG_PLAN (d.rd (Reg.OUT_FP_CFG_SYN p)))) : Int) = vco := by
    unfold vcoHz
    split <;> simp_all [vco]
  have hold : d.pulsePhase p d.timeNs (some a) = old := by
    unfold Dev.pulsePhase
    dsimp only
    rw [hv]
  have hnew : d.pulsePhase p d.timeNs (some d.timeNs) = (per - off) * 10 ^ 9 := by
    unfold Dev.pulsePhase
    dsimp only
    rw [sub_self, zero_mul, zero_sub, ← Int.add_mul_emod_self_left _ _ 1, mul_one]
    change (-(off * 10 ^ 9) + per * 10 ^ 9) % (per * 10 ^ 9) = _
    rw [Int.emod_eq_of_lt (by omega) (by omega)]
    ring
  have hoff : (per * 10 ^ 9 - (per - off) * 10 ^ 9) % (per * 10 ^ 9) = off * 10 ^ 9 := by
    rw [show per * 10 ^ 9 - (per - off) * 10 ^ 9 = off * 10 ^ 9 by ring]
    exact Int.emod_eq_of_lt (by omega) (by omega)
  rw [hold, hnew, Dev.Omits]
  change _ ∧ _ ∧ _ ∧ (per * 10 ^ 9 - (per - off) * 10 ^ 9) % (per * 10 ^ 9) < _ ↔ _
  rw [hoff]

/-- What a legacy edge of pulse output `p` that follows ALIGN does. -/
theorem Dev.fpLegacy_told (d : Dev) (p : Fin 4) (h : (d.pulse p).align = true) : (∃ es, Dev.OnPulse (edgeFields p) es p d (d.fpLegacy p)) ∧
    Dev.AnchorTold d (d.fpLegacy p) p ∧ (d.fpLegacy p).rd Reg.OUT_STATUS_ANCHOREV = 1 := by
  obtain ⟨⟨es, hA⟩, h1, h2, h3⟩ := d.setAnchor_told p
  rw [Dev.fpLegacy, if_pos h]
  generalize d.setAnchor p = A at hA h1 h2 h3
  have hF := ((Dev.Acts.refl [Reg.OUT_STATUS_ANCHOREV] A).flag (f := Reg.OUT_STATUS_ANCHOREV) (by simp) rfl).post 18 5 (p.val + d.timeNs % 2 ^ 32 * 2 ^ 32)
  have hv : ((A.flag Reg.OUT_STATUS_ANCHOREV).post 18 5 (p.val + d.timeNs % 2 ^ 32 * 2 ^ 32)).rd Reg.OUT_STATUS_ANCHOREV = 1 := by
    rw [Dev.post_rd, Dev.rd_flag _ _ rfl]
  generalize (A.flag Reg.OUT_STATUS_ANCHOREV).post 18 5 (p.val + d.timeNs % 2 ^ 32 * 2 ^ 32) = D at hF hv
  obtain ⟨c1, c2, c3⟩ := (show ∀ p : Fin 4, Fld.clear [Reg.OUT_STATUS_ANCHOREV] (Reg.OUT_FP_STAT_ANCHORED p) = true ∧
    Fld.clear [Reg.OUT_STATUS_ANCHOREV] (Reg.OUT_FP_SKIP_COUNT p) = true ∧ Fld.clear [Reg.OUT_STATUS_ANCHOREV] Reg.OUT_STATUS_SKIPEV = true by decide) p
  have hA' : Dev.OnPulse (edgeFields p) es p d A := ⟨hA.only, hA.same.mono fun f hf => List.mem_append_left _ hf, hA.other⟩
  refine ⟨⟨_, hA'.trans ((hF.mono (by simp [edgeFields])).onPulse p)⟩, ⟨(hF.pulse p).trans h1, (hF.rd c1).trans h2, ?_⟩, hv⟩
  rw [Dev.SkipTold, hF.rd c2, hF.rd c3]
  exact h3

theorem Dev.OnPulse.keeps {s t : State} {ns : Nat} {p : Fin 4} {es : List (Nat × Nat × Nat)} {D : Dev} (h : Dev.OnPulse (edgeFields p) es p (s.dev.at ns) D)
    (ht : t.dev = D.settle) : Keeps [(Reg.OUT_FP_ERR_NS p).addr, (Reg.OUT_FP_STAT_ANCHORED p).addr, (Reg.OUT_FP_REJ_COUNT p).addr,
        (Reg.OUT_FP_SKIP_COUNT p).addr, Reg.OUT_STATUS_REJEV.addr] s t
        { s.dev.at ns with syn := { s.dev.syn with fp := t.dev.syn.fp }, free := t.dev.free } := by
  refine ⟨fun a ha => ?_, ?_⟩
  · rw [ht, Dev.settle_word]
    refine h.same.word fun f hf e => ha ?_
    have hall : ∀ p : Fin 4, (edgeFields p).all (fun f => [(Reg.OUT_FP_ERR_NS p).addr, (Reg.OUT_FP_STAT_ANCHORED p).addr, (Reg.OUT_FP_REJ_COUNT p).addr,
      (Reg.OUT_FP_SKIP_COUNT p).addr, Reg.OUT_STATUS_REJEV.addr].contains f.addr) = true := by decide
    rw [← e]
    exact List.contains_iff_mem.mp (List.all_eq_true.mp (hall p) f hf)
  · rw [ht]
    refine Dev.around_of_eq ?_
    rw [Dev.settle_syn, h.only]
    rfl

theorem fpInputEdge_follows (s : State) (p : Fin 4) (ns : Nat) :
    let x := s.dev.pulse p
    let on := s.dev.rd Reg.OUT_CFG_ENABLE = 1 ∧ s.dev.rd (Reg.OUT_FP_CFG_EN p) = 1 ∧
      (s.dev.at ns).pinEdge (s.dev.rd (Reg.OUT_FP_CFG_INSRC p)) (s.dev.rd (Reg.OUT_FP_CFG_IEDGE p) == 0) = true
    let mode := s.dev.rd (Reg.OUT_FP_CFG_MODE p)
    let win := s.dev.rd (Reg.OUT_FP_FINE_WIN p)
    let now := (s.dev.at ns).timeNs
    let vco : Int := if s.dev.rd (Reg.SYNX_CFG_PLAN (s.dev.rd (Reg.OUT_FP_CFG_SYN p))) = 0 then 1572864000 else 1445068800
    let per : Int := x.per
    let off : Int := x.off
    let width : Int := x.width
    on → ∃ (t : State) (err : Int),
      let within := x.anchor = none ∨ win = 0 ∨ 3 ≤ x.rejects ∨ err.natAbs ≤ win
      let anchors := (mode = 1 ∧ within) ∨ (mode = 2 ∧ x.align = true)
      Runs (.fpInputEdge p ns) s t ∧ (∀ q, q ≠ p.val → t.dev.pulse q = s.dev.pulse q) ∧
      (mode = 1 → ∀ a : Nat, x.anchor = some a → 0 < per → let z := (((now : Int) - a) * vco) % (per * 10 ^ 9)
        (err * vco - if 2 * z ≤ per * 10 ^ 9 then z else z - per * 10 ^ 9).natAbs < vco) ∧
      (mode = 1 → t.dev.rd (Reg.OUT_FP_ERR_NS p) = uint 32 err) ∧
      (anchors → t.dev.pulse p = { x with anchor := some now, rejects := 0, align := false } ∧
        t.dev.rd (Reg.OUT_FP_STAT_ANCHORED p) = 1) ∧
      (mode = 1 → ¬ within → t.dev.pulse p = { x with rejects := x.rejects + 1 } ∧
        t.dev.rd (Reg.OUT_FP_REJ_COUNT p) = (s.dev.rd (Reg.OUT_FP_REJ_COUNT p) + 1) % 2 ^ 32 ∧
        (x.rejects = 2 → t.dev.rd Reg.OUT_STATUS_REJEV = 1 ∧ (Room s → EntersAll s t [(18, 4, p.val + uint 32 err * 2 ^ 32)]))) ∧
      (mode = 2 → x.align = true → t.dev.rd Reg.OUT_STATUS_ANCHOREV = 1) ∧
      (mode ≠ 1 → ¬ anchors → Keeps [] s t (s.dev.at ns)) ∧
      (∀ a : Nat, x.anchor = some a → anchors → 0 < off → off < per →
        let old := (((now : Int) - a) * vco - off * 10 ^ 9) % (per * 10 ^ 9)
        let omits := s.dev.rd (Reg.OUT_FP_STAT_STATE p) = 2 ∧ old < width * 10 ^ 9 ∧ old ≠ (per - off) * 10 ^ 9 ∧
          off * 10 ^ 9 < width * 10 ^ 9 - old + 4 * 10 ^ 9
        (omits → t.dev.rd (Reg.OUT_FP_SKIP_COUNT p) = (s.dev.rd (Reg.OUT_FP_SKIP_COUNT p) + 1) % 2 ^ 32 ∧
          t.dev.rd Reg.OUT_STATUS_SKIPEV = 1) ∧
        (¬ omits → t.dev.rd (Reg.OUT_FP_SKIP_COUNT p) = s.dev.rd (Reg.OUT_FP_SKIP_COUNT p))) ∧
      Keeps [(Reg.OUT_FP_ERR_NS p).addr, (Reg.OUT_FP_STAT_ANCHORED p).addr, (Reg.OUT_FP_REJ_COUNT p).addr,
        (Reg.OUT_FP_SKIP_COUNT p).addr, Reg.OUT_STATUS_REJEV.addr] s t
        { s.dev.at ns with syn := { s.dev.syn with fp := t.dev.syn.fp }, free := t.dev.free } := by
  intro x on mode win now vco per off width hon
  have hrun := runs_of_onDev (execFpInputEdge_eq s p ns)
  rw [if_neg fun h => ((s.dev.at ns).takes_iff p).mp h hon] at hrun
  have hmode : (s.dev.at ns).rd (Reg.OUT_FP_CFG_MODE p) = mode := rfl
  have hskip : ∀ (D : Dev) (a : Nat), Dev.AnchorTold (s.dev.at ns) D p → x.anchor = some a → 0 < off → off < per →
      Dev.SkipTold s.dev D p (s.dev.rd (Reg.OUT_FP_STAT_STATE p) = 2 ∧ (((now : Int) - a) * vco - off * 10 ^ 9) % (per * 10 ^ 9) < width * 10 ^ 9 ∧
        (((now : Int) - a) * vco - off * 10 ^ 9) % (per * 10 ^ 9) ≠ (per - off) * 10 ^ 9 ∧
        off * 10 ^ 9 < width * 10 ^ 9 - (((now : Int) - a) * vco - off * 10 ^ 9) % (per * 10 ^ 9) + 4 * 10 ^ 9) := fun D a hD ha h0 h1 => by
    have hx : ((s.dev.at ns).pulse p).anchor = some a := ha
    have := hD.skip
    rw [hx, propext ((s.dev.at ns).omits_iff p a h0 h1)] at this
    exact this
  rw [hmode] at hrun
  by_cases hm : mode = 1
  · rw [hm] at hrun
    have hN := (s.dev.at ns).fpNative_told p
    have hnear := fun a => (s.dev.at ns).pulseError_near p (a := a)
    generalize ((s.dev.at ns).pulseError p).2 = err at hN hnear
    generalize (s.dev.at ns).fpNative p = D at hN hrun
    obtain ⟨⟨es, hA⟩, hs, ha, hrej⟩ := hN
    have hw : ((mode = 1 ∧ (x.anchor = none ∨ win = 0 ∨ 3 ≤ x.rejects ∨ err.natAbs ≤ win)) ∨ (mode = 2 ∧ x.align = true)) →
        (s.dev.at ns).Within p err := fun h => by
      obtain ⟨-, h⟩ | ⟨h, -⟩ := h
      · exact h
      · omega
    refine ⟨_, err, hrun, hA.other, fun _ a hxa _ => hnear a hxa, fun _ => (Dev.settle_rd D _).trans hs, fun h => ⟨(ha (hw h)).own, (Dev.settle_rd D _).trans (ha (hw h)).shown⟩,
      fun _ hn => ?_, fun h => by omega, fun h => absurd hm h, fun a hxa h h0 h1 => ?_, hA.keeps rfl⟩
    · obtain ⟨r1, r2, r3⟩ := hrej hn
      refine ⟨r1, (Dev.settle_rd D _).trans r2, fun h2 => ⟨(Dev.settle_rd D _).trans (r3 h2).1, fun hr => ?_⟩⟩
      have hO := (r3 h2).2.only
      exact enters_of_evq (D := D) (by rw [hO]; rfl) (by rw [hO]; rfl) 18 (by decide) (by simp) (by simp) hr rfl
    · exact hskip D a (ha (hw h)) hxa h0 h1
  · by_cases hl : mode = 2 ∧ x.align = true
    · rw [hl.1] at hrun
      obtain ⟨⟨es, hA⟩, hT, hv⟩ := (s.dev.at ns).fpLegacy_told p hl.2
      generalize (s.dev.at ns).fpLegacy p = D at hA hT hv hrun
      refine ⟨_, 0, hrun, hA.other, fun h => absurd h hm, fun h => absurd h hm, fun _ => ⟨hT.own, (Dev.settle_rd D _).trans hT.shown⟩,
        fun h => absurd h hm, fun _ _ => (Dev.settle_rd D _).trans hv, fun _ hn => absurd (.inr hl) hn, fun a hxa _ h0 h1 => hskip D a hT hxa h0 h1, hA.keeps rfl⟩
    · have hstay : Runs (.fpInputEdge p ns) s { s with dev := (s.dev.at ns).settle } := by
        by_cases h2 : mode = 2
        · have hal : ((s.dev.at ns).pulse p).align ≠ true := fun h => hl ⟨h2, h⟩
          rw [h2] at hrun
          have hk : (s.dev.at ns).fpLegacy p = s.dev.at ns := by rw [Dev.fpLegacy, if_neg hal]
          change Runs _ s { s with dev := ((s.dev.at ns).fpLegacy p).settle } at hrun
          rwa [hk] at hrun
        · match mode, hm, h2, hrun with
          | 0, _, _, hrun => exact hrun
          | 1, hm, _, _ => exact absurd rfl hm
          | 2, _, h2, _ => exact absurd rfl h2
          | _ + 3, _, _, hrun => exact hrun
      refine ⟨_, 0, hstay, fun _ _ => rfl, fun h => absurd h hm, fun h => absurd h hm, fun h => ?_, fun h => absurd h hm, fun h1 h2 => absurd ⟨h1, h2⟩ hl,
        fun _ _ => ⟨fun _ _ => rfl, rfl⟩, fun a _ h => ?_, ⟨fun _ _ => rfl, rfl⟩⟩
      · exact absurd h (by tauto)
      · exact absurd h (by tauto)

theorem pulseOutputsFollowTheirInput : PulseOutputsFollowTheirInput := by
  refine ⟨align_arms, fun s p ns => ⟨fun hoff => ?_, fpInputEdge_follows s p ns⟩⟩
  have hrun := runs_of_onDev (execFpInputEdge_eq s p ns)
  rw [if_pos (((s.dev.at ns).takes_iff p).mpr hoff)] at hrun
  exact ⟨_, hrun, fun _ _ => rfl, rfl⟩

/-- Settles O54. -/
theorem clockAndPulseOutputsFollowTheirSchedule : Obligations.ClockAndPulseOutputsFollowTheirSchedule :=
  ⟨clockOutputsRealign, pulseOutputsFollowTheirInput⟩

end Sys2Proof.Machine
end

section
/-! Device faults, alarm inputs, the watchdog, the standing program's commands and line surveillance (spec/15). -/
namespace Sys2Proof.Machine
open Sys2Proof.Claims

/-! ### Device faults (R469, R470) -/

theorem bitsOf_lt (l : List Bool) : bitsOf l < 2 ^ l.length := by
  induction l with
  | nil => decide
  | cons b l ih =>
    have hb : bit b ≤ 1 := by cases b <;> decide
    rw [bitsOf, List.length_cons, pow_succ]
    omega

theorem bitsOf_bit (l : List Bool) (b : Nat) : bitsOf l / 2 ^ b % 2 = 1 ↔ l.getD b false = true := by
  induction l generalizing b with
  | nil => simp [bitsOf]
  | cons x l ih =>
    cases b with
    | zero => cases x <;> simp [bitsOf, bit, Nat.add_mul_mod_self_left]
    | succ b =>
      have h : bitsOf (x :: l) / 2 ^ (b + 1) = bitsOf l / 2 ^ b := by
        have hb : bit x < 2 := by cases x <;> decide
        rw [pow_succ', ← Nat.div_div_eq_div_mul, bitsOf, show (bit x + 2 * bitsOf l) / 2 = bitsOf l by omega]
      rw [h, ih]
      rfl

/-- The events of the device faults shown anew. -/
def Dev.faultEvents (d : Dev) : List (Nat × Nat × Nat) := if bitsOf d.faultBits = d.rd Reg.ALM_FAULT_FAULT then [] else [(8, 6, bitsOf d.faultBits)]

theorem Dev.faultBits_lt (d : Dev) : bitsOf d.faultBits < 2 ^ 11 := bitsOf_lt d.faultBits

/-- What showing the device faults anew does. -/
theorem Dev.refreshFaults_told (d : Dev) : Dev.Acts almFields d.faultEvents d d.refreshFaults ∧
    d.refreshFaults.rd Reg.ALM_FAULT_FAULT = bitsOf d.faultBits ∧
    d.refreshFaults.rd Reg.ALM_FAULTLAT_FAULT = d.rd Reg.ALM_FAULTLAT_FAULT ||| bitsOf d.faultBits ∧
    (bitsOf d.faultBits ≠ d.rd Reg.ALM_FAULT_FAULT → d.refreshFaults.rd Reg.ALM_STATUS_FAULTEV = 1) := by
  have hlt := d.faultBits_lt
  unfold Dev.refreshFaults Dev.faultEvents
  dsimp only
  generalize bitsOf d.faultBits = f at hlt
  have hor : d.rd Reg.ALM_FAULTLAT_FAULT ||| f < 2 ^ 11 := Nat.or_lt_two_pow (d.rd_lt Reg.ALM_FAULTLAT_FAULT) hlt
  have hA := (Dev.Acts.refl almFields d).wr (f := Reg.ALM_FAULTLAT_FAULT) (d.rd Reg.ALM_FAULTLAT_FAULT ||| f) (by simp [almFields]) rfl
  have hv := d.rd_wr_lt Reg.ALM_FAULTLAT_FAULT _ rfl hor
  have hs : (d.wr Reg.ALM_FAULTLAT_FAULT (d.rd Reg.ALM_FAULTLAT_FAULT ||| f)).rd Reg.ALM_FAULT_FAULT = d.rd Reg.ALM_FAULT_FAULT := Dev.rd_wr_sep _ _ _ _ (by decide)
  generalize d.wr Reg.ALM_FAULTLAT_FAULT (d.rd Reg.ALM_FAULTLAT_FAULT ||| f) = D at hA hv hs
  rw [hs]
  by_cases h : f = d.rd Reg.ALM_FAULT_FAULT
  · rw [if_pos h, if_pos h]
    exact ⟨hA, hs.trans h.symm, hv, fun hn => absurd h hn⟩
  · rw [if_neg h, if_neg h]
    refine ⟨((hA.wr (f := Reg.ALM_FAULT_FAULT) f (by simp [almFields]) rfl).flag (f := Reg.ALM_STATUS_FAULTEV) (by simp [almFields]) rfl).post 8 6 f, ?_, ?_, fun _ => ?_⟩
    · rw [Dev.post_rd, Dev.rd_flag_sep _ _ _ (by decide), Dev.rd_wr_lt _ _ _ rfl hlt]
    · rw [Dev.post_rd, Dev.rd_flag_sep _ _ _ (by decide), Dev.rd_wr_sep _ _ _ _ (by decide), hv]
    · rw [Dev.post_rd, Dev.rd_flag _ _ rfl]

/-- The conditions of the device faults are over fields that showing them leaves. -/
theorem Dev.refreshFaults_rd (d : Dev) {g : Fld} (h : Fld.clear almFields g = true) : d.refreshFaults.rd g = d.rd g := d.refreshFaults_told.1.rd h

theorem zoneState_clear : ∀ z : Fin 128, Fld.clear almFields (Reg.ALM_ZSTAT_STATE z) = true := by decide

theorem faultsShown_of {s t : State} {D : Dev} (ht : t.dev = D.refreshFaults.settle) (h1 : D.rd Reg.ALM_FAULT_FAULT = s.dev.rd Reg.ALM_FAULT_FAULT)
    (h2 : D.rd Reg.ALM_FAULTLAT_FAULT = s.dev.rd Reg.ALM_FAULTLAT_FAULT) : FaultsShown s t ∧ faultEvent s t = D.faultEvents := by
  obtain ⟨hA, v1, v2, v3⟩ := D.refreshFaults_told
  have hlt := D.faultBits_lt
  generalize D.refreshFaults = R at hA v1 v2 v3 ht
  have hrd : ∀ g, t.dev.rd g = R.rd g := fun g => by rw [ht, Dev.settle_rd]
  have hcl : ∀ g, Fld.clear almFields g = true → t.dev.rd g = D.rd g := fun g hg => (hrd g).trans (hA.rd hg)
  have hhrt : t.dev.hrt = D.hrt := by rw [ht, Dev.settle_hrt, hA.only]
  have htick : t.dev.tick = D.tick := by
    rw [ht, hA.only]
    rfl
  have halm : t.dev.alm = D.alm := by
    rw [ht, hA.only]
    rfl
  have hsup : t.dev.sup = D.sup := by
    rw [ht, hA.only]
    rfl
  have hmem : t.dev.mem = D.mem := by rw [ht, Dev.settle_mem, hA.only]
  have hf := (hrd Reg.ALM_FAULT_FAULT).trans v1
  have hb : ∀ b c, (D.faultBits.getD b false = true ↔ c) → (t.dev.rd Reg.ALM_FAULT_FAULT / 2 ^ b % 2 = 1 ↔ c) := fun b c h => by rw [hf, bitsOf_bit, h]
  have hz : (∃ z, z < 128 ∧ t.dev.rd (Reg.ALM_ZSTAT_STATE z) = 3) ↔ ((List.range 128).any fun z => D.rd (Reg.ALM_ZSTAT_STATE z) == 3) = true := by
    simp only [List.any_eq_true, List.mem_range, beq_iff_eq]
    exact exists_congr fun z => and_congr_right fun h => by rw [hcl _ (zoneState_clear ⟨z, h⟩)]
  have hamp : (∃ u, u < 7 ∧ t.dev.rd (Reg.ALM_AMP_FAULT u) = 1) ↔ ((List.range 7).any fun u => D.on (Reg.ALM_AMP_FAULT u)) = true := by
    simp only [List.any_eq_true, List.mem_range, Dev.on_true_iff]
    exact exists_congr fun u => and_congr_right fun h => by
      rw [hcl _ ((show ∀ u : Fin 7, Fld.clear almFields (Reg.ALM_AMP_FAULT u) = true by decide) ⟨u, h⟩)]
  have hsyn : (∃ x, x < 2 ∧ t.dev.rd (Reg.SYNX_STAT_STATE x) = 5) ↔ ((List.range 2).any fun x => D.rd (Reg.SYNX_STAT_STATE x) == 5) = true := by
    simp only [List.any_eq_true, List.mem_range, beq_iff_eq]
    exact exists_congr fun x => and_congr_right fun h => by
      rw [hcl _ ((show ∀ x : Fin 2, Fld.clear almFields (Reg.SYNX_STAT_STATE x) = true by decide) ⟨x, h⟩)]
  refine ⟨⟨?_, ?_, ?_, ?_, ?_, ?_, ?_, ?_, ?_, ?_, ?_, ?_, ?_, ?_⟩, ?_⟩
  · rwa [hf]
  · refine hb 0 _ ?_
    rw [hz]
    rfl
  · refine hb 1 _ ?_
    rw [hamp]
    rfl
  · refine hb 2 _ ?_
    rw [hhrt, htick]
    change D.unprotected = true ↔ _
    simp [Dev.unprotected, or_assoc]
  · refine hb 3 _ ?_
    rw [hhrt]
    change (D.hrt.a.down.isSome || D.hrt.b.down.isSome) = true ↔ _
    simp [Option.isSome_iff_ne_none]
  · refine hb 4 _ ?_
    rw [halm, hcl _ (by decide)]
    change (D.alm.kindled && (D.rd Reg.ALM_SPSTAT_STATE == 0 || D.rd Reg.ALM_SPSTAT_STATE == 3)) = true ↔ _
    simp
  · refine hb 5 _ ?_
    rw [hcl _ (by decide)]
    change (D.rd Reg.ALM_STATUS_WD == 3) = true ↔ _
    simp
  · refine hb 6 _ ?_
    rw [hcl _ (by decide), hcl _ (by decide)]
    change (D.on Reg.LOCK_STATUS_LOCK_VIOL && D.rd Reg.LOCK_POLICY_ESC == 1) = true ↔ _
    rw [Bool.and_eq_true, Dev.on_true_iff, beq_iff_eq]
  · refine hb 7 _ ?_
    rw [hcl _ (by decide), hcl _ (by decide)]
    change (D.on Reg.CMT_STATUS_CRC_MISMATCH && D.on Reg.CMT_CRC_CFG_ESC) = true ↔ _
    rw [Bool.and_eq_true, Dev.on_true_iff, Dev.on_true_iff]
  · refine hb 8 _ ?_
    rw [hsup, htick]
    change (D.sup.down.elim false fun t => decide (D.tick > t + 8000)) = true ↔ _
    cases D.sup.down <;> simp
  · refine hb 9 _ ?_
    rw [hmem]
    change (D.mem.ch0.failed || D.mem.ch1.failed) = true ↔ _
    rw [Bool.or_eq_true]
  · refine hb 10 _ ?_
    rw [hsyn]
    rfl
  · rw [hf, hrd, v2, h2]
  · rw [hf, hrd, ← h1]
    exact v3
  · unfold faultEvent Dev.faultEvents
    dsimp only
    rw [hf, h1]

/-! ### Wake events (R487, R488) -/

/-- The fields on which the target state depends. -/
def targetFields : List Fld :=
  [Reg.PWR_CFG_MAXSTATE, Reg.PWR_LTR_US, Reg.ALM_INCFG_EN, Reg.ALM_INSTAT_ACTIVE, Reg.ALM_INSTAT_LATCHED, Reg.ALM_SPSTAT_STATE, Reg.ALM_STATUS_WD,
    Reg.FLW_RUN_RX, Reg.FLW_RUN_TX, Reg.TDM_RUN_PORTS, Reg.HOT_STATUS_STATE]

theorem Dev.powerTarget_congr {d D : Dev} (h : ∀ f ∈ targetFields, D.rd f = d.rd f) (ht : D.pwr.touchAt = d.pwr.touchAt) (hn : D.timeNs = d.timeNs)
    (hj : D.sch.jobs = d.sch.jobs) : D.powerTarget = d.powerTarget := by
  have hp : D.protectNow = d.protectNow := by
    unfold Dev.protectNow Dev.alarmActive
    rw [h Reg.ALM_INCFG_EN (by decide), h Reg.ALM_INSTAT_ACTIVE (by decide), h Reg.ALM_INSTAT_LATCHED (by decide), h Reg.ALM_SPSTAT_STATE (by decide),
      h Reg.ALM_STATUS_WD (by decide)]
  have he : ∀ k, D.entryOk k = d.entryOk k := fun k => by
    unfold Dev.entryOk Dev.anyJob
    rw [hp, ht, hn, hj, h Reg.FLW_RUN_RX (by decide), h Reg.FLW_RUN_TX (by decide), h Reg.TDM_RUN_PORTS (by decide), h Reg.HOT_STATUS_STATE (by decide)]
  unfold Dev.powerTarget
  rw [h Reg.PWR_CFG_MAXSTATE (by decide), h Reg.PWR_LTR_US (by decide)]
  simp only [he]

/-- What a wake event leaves of the exit. -/
def Dev.wokenBy (d : Dev) (c : Nat) : Option (Nat × Nat) :=
  if d.pwr.exiting = none ∧ (3 ≤ d.rd Reg.PWR_STATUS_STATE ∨ d.powerTarget < d.rd Reg.PWR_STATUS_STATE) then some (c, d.timeNs) else d.pwr.exiting

theorem Dev.wake_wokenBy (d : Dev) (c : Nat) : d.wake c = { d with pwr := { d.pwr with exiting := d.wokenBy c } } := by
  unfold Dev.wake Dev.powerLeave Dev.wokenBy
  by_cases h0 : d.pwr.exiting = none
  · by_cases h1 : 3 ≤ d.rd Reg.PWR_STATUS_STATE
    · rw [if_pos ⟨h1, Option.isNone_iff_eq_none.mpr h0⟩, if_pos ⟨h0, .inl h1⟩]
    · rw [if_neg fun h => h1 h.1]
      by_cases h2 : d.powerTarget < d.rd Reg.PWR_STATUS_STATE
      · rw [if_pos ⟨h2, Option.isNone_iff_eq_none.mpr h0⟩, if_pos ⟨h0, .inr h2⟩]
      · rw [if_neg fun h => h2 h.1, if_neg (by tauto)]
  · rw [if_neg fun h => h0 (Option.isNone_iff_eq_none.mp h.2), if_neg fun h => h0 (Option.isNone_iff_eq_none.mp h.2), if_neg fun h => h0 h.1]

/-- A wake event at `D`, whose power state and exit are those of `s`, where what follows leaves the target. -/
theorem exits_of {s t : State} {D : Dev} {c : Nat} (hp : D.pwr = s.dev.pwr) (hst : D.rd Reg.PWR_STATUS_STATE = s.dev.rd Reg.PWR_STATUS_STATE)
    (ht : t.dev.pwr = (D.wake c).pwr) (hn : t.dev.timeNs = D.timeNs) (htarget : t.dev.powerTarget = D.powerTarget) :
    Exits s t true c ∧ t.dev.pwr = { s.dev.pwr with exiting := t.dev.pwr.exiting } := by
  have h := ht.trans (congrArg Dev.pwr (D.wake_wokenBy c))
  dsimp only at h
  rw [hp] at h
  constructor
  · unfold Exits
    have h1 : t.dev.pwr.exiting = D.wokenBy c := congrArg Pwr.exiting h
    rw [h1, Dev.wokenBy, hp, hst, htarget, hn]
    simp
  · rw [h]

/-! ### Alarm inputs (R446, R447) -/

/-- Bit `j` of a field of the alarm inputs. -/
def Dev.bitAt (d : Dev) (f : Fld) (j : Nat) : Nat := d.rd f / 2 ^ j % 2

/-- The change of input `i` shown in ACTIVE and posted. -/
def Dev.alarmShown (d : Dev) (i : Nat) (active : Bool) : Dev :=
  ((d.wr Reg.ALM_INSTAT_ACTIVE (setBit (d.rd Reg.ALM_INSTAT_ACTIVE) i active)).flag Reg.ALM_STATUS_ALMEV).post 8 1 (i + bit active * 2 ^ 8)

/-- An activation of input `i`, latched where it is to be and counted. -/
def Dev.alarmCounted (d : Dev) (i : Nat) : Dev :=
  (if d.rd Reg.ALM_INCFG_LATCH / 2 ^ i % 2 = 1 then d.wr Reg.ALM_INSTAT_LATCHED (setBit (d.rd Reg.ALM_INSTAT_LATCHED) i true) else d).count
    Reg.ALM_ALARMCNT_COUNT Reg.ALM_STATUS_CNT_HALF

theorem Dev.alarmInput_eq (d : Dev) (i : Nat) (active : Bool) : d.alarmInput i active =
    if d.rd Reg.ALM_INCFG_EN / 2 ^ i % 2 = 1 ∧ (d.rd Reg.ALM_INSTAT_ACTIVE / 2 ^ i % 2 == 1) ≠ active then
      if active then (d.alarmShown i active).alarmCounted i else d.alarmShown i active
    else d := by
  unfold Dev.alarmInput Dev.alarmShown Dev.alarmCounted
  rfl

/-- The fields that a change of an alarm input writes. -/
def inputFields : List Fld :=
  [Reg.ALM_INSTAT_ACTIVE, Reg.ALM_INSTAT_LATCHED, Reg.ALM_STATUS_ALMEV, Reg.ALM_ALARMCNT_COUNT, Reg.ALM_STATUS_CNT_HALF]

theorem Dev.alarmShown_told (d : Dev) (i : Fin 4) (active : Bool) :
    Dev.Acts [Reg.ALM_INSTAT_ACTIVE, Reg.ALM_STATUS_ALMEV] [(8, 1, i.val + bit active * 2 ^ 8)] d (d.alarmShown i active) ∧
      (∀ j, (d.alarmShown i active).bitAt Reg.ALM_INSTAT_ACTIVE j = if j = i.val then bit active else d.bitAt Reg.ALM_INSTAT_ACTIVE j) ∧
      (d.alarmShown i active).rd Reg.ALM_STATUS_ALMEV = 1 := by
  have hlt : setBit (d.rd Reg.ALM_INSTAT_ACTIVE) i active < 2 ^ 4 := setBit_lt _ (d.rd_lt Reg.ALM_INSTAT_ACTIVE) i.isLt
  refine ⟨(((Dev.Acts.refl _ d).wr (f := Reg.ALM_INSTAT_ACTIVE) _ (by simp) rfl).flag (f := Reg.ALM_STATUS_ALMEV) (by simp) rfl).post .., fun j => ?_, ?_⟩
  · unfold Dev.bitAt Dev.alarmShown
    rw [Dev.post_rd, Dev.rd_flag_sep _ _ _ (by decide), Dev.rd_wr_lt _ _ _ rfl hlt, div_pow_mod_setBit]
  · unfold Dev.alarmShown
    rw [Dev.post_rd, Dev.rd_flag _ _ rfl]

theorem Dev.alarmCounted_told (d : Dev) (i : Fin 4) :
    Dev.Acts [Reg.ALM_INSTAT_LATCHED, Reg.ALM_ALARMCNT_COUNT, Reg.ALM_STATUS_CNT_HALF] [] d (d.alarmCounted i) ∧
      (∀ j, (d.alarmCounted i).bitAt Reg.ALM_INSTAT_LATCHED j =
        if j = i.val ∧ d.bitAt Reg.ALM_INCFG_LATCH i = 1 then 1 else d.bitAt Reg.ALM_INSTAT_LATCHED j) ∧
      (d.alarmCounted i).rd Reg.ALM_ALARMCNT_COUNT = (d.rd Reg.ALM_ALARMCNT_COUNT + 1) % 2 ^ 32 := by
  have hlt : setBit (d.rd Reg.ALM_INSTAT_LATCHED) i true < 2 ^ 4 := setBit_lt _ (d.rd_lt Reg.ALM_INSTAT_LATCHED) i.isLt
  have hA := Dev.Acts.refl [Reg.ALM_INSTAT_LATCHED, Reg.ALM_ALARMCNT_COUNT, Reg.ALM_STATUS_CNT_HALF] d
  have hcount : ∀ L : Dev, (L.count Reg.ALM_ALARMCNT_COUNT Reg.ALM_STATUS_CNT_HALF).bitAt Reg.ALM_INSTAT_LATCHED = L.bitAt Reg.ALM_INSTAT_LATCHED := fun L => by
    funext j
    unfold Dev.bitAt
    rw [Dev.rd_count_apart _ _ _ _ _ rfl rfl rfl (by decide) (by decide)]
  unfold Dev.alarmCounted
  split
  case isTrue h =>
    refine ⟨(hA.wr (f := Reg.ALM_INSTAT_LATCHED) _ (by simp) rfl).count 1 (by simp) (by simp) rfl rfl, fun j => ?_, ?_⟩
    · rw [hcount, Dev.bitAt, Dev.rd_wr_lt _ _ _ rfl hlt, div_pow_mod_setBit]
      by_cases hj : j = i.val
      · rw [if_pos hj, if_pos ⟨hj, h⟩]
        rfl
      · rw [if_neg hj, if_neg fun hx => hj hx.1]
        rfl
    · rw [Dev.rd_count _ _ _ _ rfl rfl (by decide), Dev.rd_wr_sep _ _ _ _ (by decide)]
      rfl
  case isFalse h =>
    refine ⟨hA.count 1 (by simp) (by simp) rfl rfl, fun j => ?_, Dev.rd_count _ _ _ _ rfl rfl (by decide)⟩
    rw [hcount, if_neg fun hx => h hx.2]

/-- A debounced change of an enabled input. -/
structure Dev.InputTold (d D : Dev) (i : Nat) (active : Bool) : Prop where
  acts : Dev.Acts inputFields [(8, 1, i + bit active * 2 ^ 8)] d D
  shown : ∀ j, D.bitAt Reg.ALM_INSTAT_ACTIVE j = if j = i then bit active else d.bitAt Reg.ALM_INSTAT_ACTIVE j
  latched : ∀ j, D.bitAt Reg.ALM_INSTAT_LATCHED j =
    if j = i ∧ active = true ∧ d.bitAt Reg.ALM_INCFG_LATCH i = 1 then 1 else d.bitAt Reg.ALM_INSTAT_LATCHED j
  flag : D.rd Reg.ALM_STATUS_ALMEV = 1
  count : D.rd Reg.ALM_ALARMCNT_COUNT = (d.rd Reg.ALM_ALARMCNT_COUNT + bit active) % 2 ^ 32

theorem Dev.alarmInput_told (d : Dev) (i : Fin 4) (active : Bool) (he : d.rd Reg.ALM_INCFG_EN / 2 ^ i.val % 2 = 1)
    (hw : (d.rd Reg.ALM_INSTAT_ACTIVE / 2 ^ i.val % 2 == 1) ≠ active) : Dev.InputTold d (d.alarmInput i active) i active := by
  rw [Dev.alarmInput_eq, if_pos ⟨he, hw⟩]
  obtain ⟨hA, h1, h2⟩ := d.alarmShown_told i active
  generalize d.alarmShown i active = S at hA h1 h2
  have hl : ∀ j, S.bitAt Reg.ALM_INSTAT_LATCHED j = d.bitAt Reg.ALM_INSTAT_LATCHED j := fun j => by rw [Dev.bitAt, hA.rd (by decide), Dev.bitAt]
  have hc : S.rd Reg.ALM_ALARMCNT_COUNT = d.rd Reg.ALM_ALARMCNT_COUNT := hA.rd (by decide)
  have hcfg : S.bitAt Reg.ALM_INCFG_LATCH i = d.bitAt Reg.ALM_INCFG_LATCH i := by rw [Dev.bitAt, hA.rd (by decide), Dev.bitAt]
  cases active with
  | false =>
    rw [if_neg (by decide)]
    refine ⟨hA.mono (by simp [inputFields]), h1, fun j => ?_, h2, ?_⟩
    · rw [hl, if_neg (by simp)]
    · rw [hc]
      exact (Nat.mod_eq_of_lt (d.rd_lt Reg.ALM_ALARMCNT_COUNT)).symm
  | true =>
    rw [if_pos rfl]
    obtain ⟨hC, c1, c2⟩ := S.alarmCounted_told i
    generalize S.alarmCounted i = C at hC c1 c2
    refine ⟨(hA.mono (by simp [inputFields])).then (hC.mono (by simp [inputFields])), fun j => ?_, fun j => ?_, (hC.rd (by decide)).trans h2, ?_⟩
    · rw [Dev.bitAt, hC.rd (by decide)]
      exact h1 j
    · rw [c1, hl, hcfg]
      simp
    · rw [c2, hc]
      rfl

theorem execAlarm_eq (s : State) (i : Fin 4) (active : Bool) (ns : Nat) : exec (.alarm i active ns) s = onDev (fun d =>
    if (d.at ns).pinActive i = active ∧ ((d.at ns).alarmPin i).since + 10 ^ 6 * (d.at ns).rd Reg.ALM_INCFG_DEBOUNCE ≤ (d.at ns).timeNs then
      (d.at ns).alarmInput i.val active
    else d.at ns) s := rfl

theorem alarm_keeps (s : State) (i : Fin 4) (active : Bool) (ns : Nat) : let v := if active then 1 else 0
    let is := fun (t : State) (f : Fld) (j : Nat) => t.dev.rd f / 2 ^ j % 2
    let en := is s Reg.ALM_INCFG_EN i = 1
    let was := is s Reg.ALM_INSTAT_ACTIVE i
    let x := s.dev.alarmPin i
    let now := (s.dev.at ns).timeNs
    let held := (x.level != (is s Reg.ALM_INCFG_POL i == 1)) = active ∧ x.since + 1000000 * s.dev.rd Reg.ALM_INCFG_DEBOUNCE ≤ now
    ¬ held ∨ ¬ en ∨ was = v → ∃ t, Runs (.alarm i active ns) s t ∧ Keeps [] s t (s.dev.at ns) := by
  intro v is en was x now held h
  have hrun := runs_of_onDev (execAlarm_eq s i active ns)
  have hstay : (if (s.dev.at ns).pinActive i = active ∧ ((s.dev.at ns).alarmPin i).since + 10 ^ 6 * (s.dev.at ns).rd Reg.ALM_INCFG_DEBOUNCE ≤ (s.dev.at ns).timeNs
      then (s.dev.at ns).alarmInput i.val active else s.dev.at ns) = s.dev.at ns := by
    by_cases hh : held
    · refine (if_pos hh).trans ?_
      rw [Dev.alarmInput_eq]
      refine if_neg ?_
      rintro ⟨he, hw⟩
      refine (h.resolve_left (not_not.mpr hh)).elim (fun hn => hn he) fun hwas => hw ?_
      change (was == 1) = active
      rw [hwas]
      cases active <;> rfl
    · exact if_neg hh
  rw [hstay] at hrun
  exact ⟨_, hrun, fun _ _ => rfl, rfl⟩

theorem alarm_changes (s : State) (i : Fin 4) (active : Bool) (ns : Nat) : let v := if active then 1 else 0
    let is := fun (t : State) (f : Fld) (j : Nat) => t.dev.rd f / 2 ^ j % 2
    let en := is s Reg.ALM_INCFG_EN i = 1
    let was := is s Reg.ALM_INSTAT_ACTIVE i
    let x := s.dev.alarmPin i
    let now := (s.dev.at ns).timeNs
    let held := (x.level != (is s Reg.ALM_INCFG_POL i == 1)) = active ∧ x.since + 1000000 * s.dev.rd Reg.ALM_INCFG_DEBOUNCE ≤ now
    held → en → was ≠ v → ∃ t, Runs (.alarm i active ns) s t ∧ t.dev = Around (s.dev.at ns) t.dev ∧
      OnlyFields [Reg.ALM_INSTAT_ACTIVE, Reg.ALM_INSTAT_LATCHED, Reg.ALM_STATUS_ALMEV, Reg.ALM_ALARMCNT_COUNT, Reg.ALM_STATUS_CNT_HALF] s t ∧
      (∀ j, j < 4 → is t Reg.ALM_INSTAT_ACTIVE j = if j = i.val then v else is s Reg.ALM_INSTAT_ACTIVE j) ∧
      (∀ j, j < 4 → is t Reg.ALM_INSTAT_LATCHED j =
        if j = i.val ∧ active = true ∧ is s Reg.ALM_INCFG_LATCH i = 1 then 1 else is s Reg.ALM_INSTAT_LATCHED j) ∧
      t.dev.rd Reg.ALM_STATUS_ALMEV = 1 ∧ t.dev.rd Reg.ALM_ALARMCNT_COUNT = (s.dev.rd Reg.ALM_ALARMCNT_COUNT + v) % 2 ^ 32 ∧
      (Room s → EntersAll s t [(8, 1, i + v * 2 ^ 8)]) := by
  intro v is en was x now held hh he hw
  have hrun := runs_of_onDev (execAlarm_eq s i active ns)
  have hgo : (if (s.dev.at ns).pinActive i = active ∧ ((s.dev.at ns).alarmPin i).since + 10 ^ 6 * (s.dev.at ns).rd Reg.ALM_INCFG_DEBOUNCE ≤ (s.dev.at ns).timeNs
      then (s.dev.at ns).alarmInput i.val active else s.dev.at ns) = (s.dev.at ns).alarmInput i.val active := if_pos hh
  have hv : bit active = v := by cases active <;> rfl
  have hne : ((s.dev.at ns).rd Reg.ALM_INSTAT_ACTIVE / 2 ^ i.val % 2 == 1) ≠ active := fun h => hw (by
    have hwas : (was == 1) = active := h
    have h2 : was < 2 := Nat.mod_lt _ (by decide)
    rw [← hv, ← hwas]
    obtain h0 | h1 := lt_two h2
    · rw [h0]
      rfl
    · rw [h1]
      rfl)
  have hT := (s.dev.at ns).alarmInput_told i active he hne
  rw [hgo] at hrun
  generalize (s.dev.at ns).alarmInput i.val active = D at hT hrun
  rw [← hv]
  have hset : ∀ f j, D.settle.rd f / 2 ^ j % 2 = D.bitAt f j := fun f j => by rw [Dev.settle_rd, Dev.bitAt]
  refine ⟨_, hrun, hT.acts.around, hT.acts.same.settle, fun j _ => (hset _ j).trans (hT.shown j), fun j _ => (hset _ j).trans (hT.latched j),
    (Dev.settle_rd D _).trans hT.flag, (Dev.settle_rd D _).trans hT.count, fun hr => ?_⟩
  exact hT.acts.enters rfl rfl 8 (by decide) (by simp) (by simp) hr rfl

/-! The level of a pin. -/

/-- The pin of input `i` at `level`, shown. -/
def Dev.pinMoved (d : Dev) (i : Nat) (level : Bool) : Dev := (d.setAlarmPin i { level := level, since := d.timeNs }).showPins

theorem execAlarmInputLevel_eq (s : State) (i : Fin 4) (level : Bool) (ns : Nat) : exec (.alarmInputLevel i level ns) s = onDev (fun d =>
    if ((d.at ns).alarmPin i).level = level then d.at ns
    else if ((d.at ns).pinMoved i level).pinActive i && ((d.at ns).pinMoved i level).rd Reg.ALM_INCFG_EN / 2 ^ i.val % 2 == 1 then ((d.at ns).pinMoved i level).wake 1
    else (d.at ns).pinMoved i level) s := rfl

/-- What moving the pin of input `i` does. -/
structure Dev.PinTold (d D : Dev) (i : Nat) (level : Bool) : Prop where
  only : D = { d with live := D.live, alm := { d.alm with pins := D.alm.pins } }
  same : Dev.SameBut [Reg.ALM_INSTAT_PIN] d D
  pin : ∀ j, D.alarmPin j = if j = i then { level := level, since := d.timeNs } else d.alarmPin j
  shown : ∀ j, j < 4 → D.bitAt Reg.ALM_INSTAT_PIN j = if D.pinActive j then 1 else 0

theorem Dev.alarmPin_setAlarmPin (d : Dev) (i j : Nat) (x : AlarmPin) : (d.setAlarmPin i x).alarmPin j = if j = i then x else d.alarmPin j := by
  simp only [Dev.alarmPin, Dev.setAlarmPin, Sparse.get_put, eq_comm]

theorem Dev.showPins_told (d : Dev) : Dev.Acts [Reg.ALM_INSTAT_PIN] [] d d.showPins ∧ ∀ j, j < 4 → (d.showPins.bitAt Reg.ALM_INSTAT_PIN j = if d.pinActive j then 1 else 0) := by
  have hlt := bitsOf_lt ((List.range 4).map d.pinActive)
  refine ⟨d.wr_acts _ _ rfl, fun j hj => ?_⟩
  have hv : d.showPins.rd Reg.ALM_INSTAT_PIN = bitsOf ((List.range 4).map d.pinActive) := d.rd_wr_lt _ _ rfl hlt
  have hbit := bitsOf_bit ((List.range 4).map d.pinActive) j
  have hget : ((List.range 4).map d.pinActive).getD j false = d.pinActive j := by simp [hj]
  have h2 : bitsOf ((List.range 4).map d.pinActive) / 2 ^ j % 2 < 2 := Nat.mod_lt _ (by decide)
  rw [hget] at hbit
  rw [Dev.bitAt, hv]
  split
  case isTrue h => exact hbit.mpr h
  case isFalse h =>
    have := mt hbit.mp h
    omega

theorem Dev.pinMoved_told (d : Dev) (i : Nat) (level : Bool) : Dev.PinTold d (d.pinMoved i level) i level := by
  have hP := d.alarmPin_setAlarmPin i (x := { level := level, since := d.timeNs })
  have hPo : d.setAlarmPin i { level := level, since := d.timeNs } =
    { d with alm := { d.alm with pins := (d.setAlarmPin i { level := level, since := d.timeNs }).alm.pins } } := rfl
  unfold Dev.pinMoved
  generalize d.setAlarmPin i { level := level, since := d.timeNs } = P at hP hPo
  obtain ⟨hA, hb⟩ := P.showPins_told
  generalize P.showPins = D at hA hb
  have ho := hA.onlyLive
  have halm : D.alm = P.alm := by rw [hA.only]
  have hpin : ∀ j, D.alarmPin j = P.alarmPin j := fun j => by rw [Dev.alarmPin, halm, Dev.alarmPin]
  refine ⟨?_, ?_, fun j => (hpin j).trans (hP j), fun j hj => ?_⟩
  · rw [ho, hPo]
  · have h0 : Dev.SameBut [Reg.ALM_INSTAT_PIN] d P := .of_live (by rw [hPo])
    exact h0.trans hA.same
  · rw [hb j hj, Dev.pinActive, Dev.pinActive, hpin, hA.rd (by decide)]

theorem Dev.wake_keeps (d : Dev) (c : Nat) : (d.wake c).live = d.live ∧ (d.wake c).evq = d.evq ∧ (d.wake c).pwr.touchAt = d.pwr.touchAt ∧
    (d.wake c).timeNs = d.timeNs ∧ d.wake c = { d with pwr := (d.wake c).pwr } := by
  rw [d.wake_wokenBy c]
  exact ⟨rfl, rfl, rfl, rfl, rfl⟩

theorem Dev.wake_rd (d : Dev) (c : Nat) (f : Fld) : (d.wake c).rd f = d.rd f := by rw [Dev.rd, Dev.word, (d.wake_keeps c).1, Dev.rd, Dev.word]

theorem Dev.wake_target (d : Dev) (c : Nat) : (d.wake c).settle.powerTarget = d.powerTarget := by
  obtain ⟨-, -, h3, h4, h5⟩ := d.wake_keeps c
  refine Dev.powerTarget_congr (fun f _ => (Dev.settle_rd _ f).trans (d.wake_rd c f)) h3 h4 ?_
  rw [h5]
  rfl

theorem alarmInputLevel_moves (s : State) (i : Fin 4) (active : Bool) (ns : Nat) :
    let is := fun (t : State) (f : Fld) (j : Nat) => t.dev.rd f / 2 ^ j % 2
    let en := is s Reg.ALM_INCFG_EN i = 1
    let x := s.dev.alarmPin i
    let now := (s.dev.at ns).timeNs
    x.level ≠ active → ∃ t, Runs (.alarmInputLevel i active ns) s t ∧ OnlyFields [Reg.ALM_INSTAT_PIN] s t ∧
      t.dev = Around { s.dev.at ns with alm := { s.dev.alm with pins := t.dev.alm.pins } } t.dev ∧
      t.dev.alarmPin i = { level := active, since := now } ∧ (∀ j, j ≠ i.val → t.dev.alarmPin j = s.dev.alarmPin j) ∧
      (∀ j, j < 4 → is t Reg.ALM_INSTAT_PIN j = if (t.dev.alarmPin j).level != (is s Reg.ALM_INCFG_POL j == 1) then 1 else 0) ∧
      t.dev.pwr = { s.dev.pwr with exiting := t.dev.pwr.exiting } ∧
      (is t Reg.ALM_INSTAT_PIN i = 1 ∧ en → Exits s t true 1) ∧
      (¬ (is t Reg.ALM_INSTAT_PIN i = 1 ∧ en) → t.dev.pwr = s.dev.pwr) := by
  intro is en x now hx
  have hrun := runs_of_onDev (execAlarmInputLevel_eq s i active ns)
  rw [if_neg (show ¬ ((s.dev.at ns).alarmPin i).level = active from hx)] at hrun
  have hP := (s.dev.at ns).pinMoved_told i active
  generalize (s.dev.at ns).pinMoved i active = D at hP hrun
  obtain ⟨ho, hs, hp, hb⟩ := hP
  have hrd : ∀ g, Fld.clear [Reg.ALM_INSTAT_PIN] g = true → D.rd g = s.dev.rd g := fun g hg => hs.rd hg
  have hc : (D.pinActive i && D.rd Reg.ALM_INCFG_EN / 2 ^ i.val % 2 == 1) = true ↔ D.bitAt Reg.ALM_INSTAT_PIN i = 1 ∧ en := by
    rw [Bool.and_eq_true, beq_iff_eq, hb i i.isLt, hrd _ (by decide)]
    refine and_congr_left fun _ => ?_
    cases D.pinActive i <;> simp
  have hpol : ∀ j, D.pinActive j = ((D.alarmPin j).level != (is s Reg.ALM_INCFG_POL j == 1)) := fun j => by
    rw [Dev.pinActive, hrd _ (by decide)]
  have hDp : D.pwr = s.dev.pwr := by rw [ho]; rfl
  obtain ⟨k1, k2, k3, k4, k5⟩ := D.wake_keeps 1
  have hpin : ∀ (E : Dev) (w : Pwr), E = { D with pwr := w } → E.settle.alarmPin = D.alarmPin ∧ (∀ f, E.settle.rd f = D.rd f) ∧
      E.settle = Around { s.dev.at ns with alm := { s.dev.alm with pins := E.settle.alm.pins } } E.settle := fun E w hE => by
    subst hE
    obtain ⟨L, P, rfl⟩ : ∃ L P, D = { s.dev.at ns with live := L, alm := { s.dev.alm with pins := P } } := ⟨_, _, ho⟩
    exact ⟨rfl, fun f => Dev.settle_rd _ f, rfl⟩
  by_cases hw : D.bitAt Reg.ALM_INSTAT_PIN i = 1 ∧ en
  · rw [if_pos (hc.mpr hw)] at hrun
    obtain ⟨p1, p2, p3⟩ := hpin _ _ k5
    obtain ⟨e1, e2⟩ := exits_of (s := s) (t := { s with dev := (D.wake 1).settle }) (D := D) (c := 1) hDp (hrd _ (by decide)) rfl k4 (D.wake_target 1)
    have hbit : ∀ j, (D.wake 1).settle.rd Reg.ALM_INSTAT_PIN / 2 ^ j % 2 = D.bitAt Reg.ALM_INSTAT_PIN j := fun j => by rw [p2, Dev.bitAt]
    refine ⟨_, hrun, fun g hg ha => (p2 g).trans (hs g hg ha), p3, ?_, fun j hj => ?_, fun j hj => ?_, e2, fun _ => e1, fun hn => absurd hw fun h => hn ⟨(hbit i).trans h.1, h.2⟩⟩
    · exact (congrFun p1 i).trans ((hp i).trans (if_pos rfl))
    · exact (congrFun p1 j).trans ((hp j).trans (if_neg hj))
    · refine (hbit j).trans ((hb j hj).trans ?_)
      rw [hpol]
      change _ = if ((D.wake 1).settle.alarmPin j).level != _ then 1 else 0
      rw [congrFun p1 j]
  · rw [if_neg fun h => hw (hc.mp h)] at hrun
    obtain ⟨p1, p2, p3⟩ := hpin D D.pwr rfl
    have hbit : ∀ j, D.settle.rd Reg.ALM_INSTAT_PIN / 2 ^ j % 2 = D.bitAt Reg.ALM_INSTAT_PIN j := fun j => by rw [p2, Dev.bitAt]
    refine ⟨_, hrun, fun g hg ha => (p2 g).trans (hs g hg ha), p3, ?_, fun j hj => ?_, fun j hj => ?_, ?_, fun h => absurd ⟨(hbit i).symm.trans h.1, h.2⟩ hw, fun _ => hDp⟩
    · exact (congrFun p1 i).trans ((hp i).trans (if_pos rfl))
    · exact (congrFun p1 j).trans ((hp j).trans (if_neg hj))
    · refine (hbit j).trans ((hb j hj).trans ?_)
      rw [hpol]
      change _ = if (D.settle.alarmPin j).level != _ then 1 else 0
      rw [congrFun p1 j]
    · change D.pwr = { s.dev.pwr with exiting := D.pwr.exiting }
      rw [hDp]

theorem alarmInputLevel_keeps (s : State) (i : Fin 4) (active : Bool) (ns : Nat) (h : (s.dev.alarmPin i).level = active) :
    ∃ t, Runs (.alarmInputLevel i active ns) s t ∧ Keeps [] s t (s.dev.at ns) := by
  have hrun := runs_of_onDev (execAlarmInputLevel_eq s i active ns)
  rw [if_pos (show ((s.dev.at ns).alarmPin i).level = active from h)] at hrun
  exact ⟨_, hrun, fun _ _ => rfl, rfl⟩

/-! ### Commands of ALM -/

theorem Dev.almResult_told (d : Dev) (c : Nat) (hc : c < 2 ^ 8) : Dev.Acts [Reg.ALM_CMDRES_REASON, Reg.ALM_CMDRES_VALID] [] d (d.almResult c) ∧
    (d.almResult c).rd Reg.ALM_CMDRES_REASON = c ∧ (d.almResult c).rd Reg.ALM_CMDRES_VALID = 1 := by
  refine ⟨((Dev.Acts.refl _ d).wr (f := Reg.ALM_CMDRES_REASON) c (by simp) rfl).wr (f := Reg.ALM_CMDRES_VALID) 1 (by simp) rfl, ?_, ?_⟩
  · unfold Dev.almResult
    rw [Dev.rd_wr_sep _ _ _ _ (by decide), Dev.rd_wr_lt _ _ _ rfl hc]
  · unfold Dev.almResult
    rw [Dev.rd_wr_lt _ Reg.ALM_CMDRES_VALID 1 rfl (show 1 < 2 ^ 1 by decide)]

/-- A host command of ALM that may act now runs on the device with the power state of the access. -/
theorem hostCmd_runs {s : State} {h : Agent} {f : Fld} {i : Instr} {eff : Dev → Dev} (he : exec i s = onDev (fun d => d.hostCmd h f [] eff) s) (hr : Ready s h f false) :
    ∃ p, Runs i s { s with dev := (eff { s.dev with pwr := p }).settle } := by
  obtain ⟨p, hp⟩ := s.dev.touch_pwr h true (blockOf f.addr)
  have hrun := runs_of_onDev he
  rw [Dev.hostCmd_open _ _ _ _ hr.1 hr.2, hp] at hrun
  exact ⟨p, hrun⟩

theorem ack_refused (s : State) (h : Agent) (i : Fin 4) (hr : Ready s h Reg.ALM_CMD_ACK false)
    (ha : s.dev.rd Reg.ALM_INSTAT_ACTIVE / 2 ^ i.val % 2 = 1) : ∃ t, Runs (.ack h i) s t ∧ AlmEnds t 0x17 ∧
      OnlyFields [Reg.ALM_CMDRES_REASON, Reg.ALM_CMDRES_VALID] s t ∧ t.dev = Around s.dev t.dev := by
  obtain ⟨p, hrun⟩ := hostCmd_runs (show exec (.ack h i) s = onDev (fun d => d.hostCmd h Reg.ALM_CMD_ACK [] fun d => d.ackGo i.val) s from rfl) hr
  rw [show Dev.ackGo { s.dev with pwr := p } i.val = Dev.almResult { s.dev with pwr := p } 0x17 from if_pos ha] at hrun
  obtain ⟨hA, v1, v2⟩ := Dev.almResult_told { s.dev with pwr := p } 0x17 (by decide)
  generalize Dev.almResult { s.dev with pwr := p } 0x17 = D at hA v1 v2 hrun
  exact ⟨_, hrun, ⟨(Dev.settle_rd D _).trans v1, (Dev.settle_rd D _).trans v2⟩, hA.same.settle, hA.around⟩

theorem ack_clears (s : State) (h : Agent) (i : Fin 4) (hr : Ready s h Reg.ALM_CMD_ACK false)
    (ha : s.dev.rd Reg.ALM_INSTAT_ACTIVE / 2 ^ i.val % 2 = 0) : ∃ t, Runs (.ack h i) s t ∧ AlmEnds t 0 ∧
      OnlyFields (Reg.ALM_INSTAT_LATCHED :: [Reg.ALM_CMDRES_REASON, Reg.ALM_CMDRES_VALID]) s t ∧ t.dev = Around s.dev t.dev ∧
      ∀ j, j < 4 → t.dev.rd Reg.ALM_INSTAT_LATCHED / 2 ^ j % 2 = if j = i.val then 0 else s.dev.rd Reg.ALM_INSTAT_LATCHED / 2 ^ j % 2 := by
  obtain ⟨p, hrun⟩ := hostCmd_runs (show exec (.ack h i) s = onDev (fun d => d.hostCmd h Reg.ALM_CMD_ACK [] fun d => d.ackGo i.val) s from rfl) hr
  have hne : ¬ Dev.rd { s.dev with pwr := p } Reg.ALM_INSTAT_ACTIVE / 2 ^ i.val % 2 = 1 := by
    rw [show Dev.rd { s.dev with pwr := p } Reg.ALM_INSTAT_ACTIVE / 2 ^ i.val % 2 = 0 from ha]
    decide
  rw [show Dev.ackGo { s.dev with pwr := p } i.val = (Dev.wr { s.dev with pwr := p } Reg.ALM_INSTAT_LATCHED
    (setBit (Dev.rd { s.dev with pwr := p } Reg.ALM_INSTAT_LATCHED) i false)).almResult 0 from if_neg hne] at hrun
  have hlt : setBit (Dev.rd { s.dev with pwr := p } Reg.ALM_INSTAT_LATCHED) i false < 2 ^ 4 := setBit_lt _ (Dev.rd_lt _ Reg.ALM_INSTAT_LATCHED) i.isLt
  have hW := Dev.wr_acts { s.dev with pwr := p } Reg.ALM_INSTAT_LATCHED (setBit (Dev.rd { s.dev with pwr := p } Reg.ALM_INSTAT_LATCHED) i false) rfl
  have hv := Dev.rd_wr_lt { s.dev with pwr := p } Reg.ALM_INSTAT_LATCHED _ rfl hlt
  generalize Dev.wr { s.dev with pwr := p } Reg.ALM_INSTAT_LATCHED (setBit (Dev.rd { s.dev with pwr := p } Reg.ALM_INSTAT_LATCHED) i false) = W at hW hv hrun
  obtain ⟨hA, v1, v2⟩ := W.almResult_told 0 (by decide)
  generalize W.almResult 0 = D at hA v1 v2 hrun
  have hT := (hW.mono (gs := Reg.ALM_INSTAT_LATCHED :: [Reg.ALM_CMDRES_REASON, Reg.ALM_CMDRES_VALID]) (by simp)).then (hA.mono (by simp))
  refine ⟨_, hrun, ⟨(Dev.settle_rd D _).trans v1, (Dev.settle_rd D _).trans v2⟩, hT.same.settle, hT.around, fun j _ => ?_⟩
  change D.settle.rd Reg.ALM_INSTAT_LATCHED / 2 ^ j % 2 = _
  rw [Dev.settle_rd, hA.rd (by decide), hv, div_pow_mod_setBit]
  rfl

theorem alarmInputsFollowTheirPins : AlarmInputsFollowTheirPins :=
  ⟨fun s i active ns => ⟨alarm_keeps s i active ns, alarm_changes s i active ns, alarmInputLevel_keeps s i active ns, alarmInputLevel_moves s i active ns⟩,
    fun s h i hr => ⟨ack_refused s h i hr, ack_clears s h i hr⟩⟩

/-! ### The watchdog (R449, R450) -/

theorem Dev.setWatch_same {d : Dev} {w : Nat} (h : d.rd Reg.ALM_STATUS_WD = w) : d.setWatch w = d := if_pos h

/-- The watchdog's state shown and posted. -/
def Dev.watchShown (d : Dev) (w : Nat) : Dev := ((d.wr Reg.ALM_STATUS_WD w).flag Reg.ALM_STATUS_WDEV).post 8 2 w

theorem Dev.setWatch_eq {d : Dev} {w : Nat} (h : d.rd Reg.ALM_STATUS_WD ≠ w) : d.setWatch w =
    if w = 2 then (d.watchShown w).count Reg.ALM_WDLATECNT_COUNT Reg.ALM_STATUS_CNT_HALF else d.watchShown w := if_neg h

theorem Dev.watchShown_told (d : Dev) (w : Nat) (hw : w < 4) : Dev.Acts [Reg.ALM_STATUS_WD, Reg.ALM_STATUS_WDEV] [(8, 2, w)] d (d.watchShown w) ∧
    (d.watchShown w).rd Reg.ALM_STATUS_WD = w ∧ (d.watchShown w).rd Reg.ALM_STATUS_WDEV = 1 := by
  refine ⟨(((Dev.Acts.refl _ d).wr (f := Reg.ALM_STATUS_WD) w (by simp) rfl).flag (f := Reg.ALM_STATUS_WDEV) (by simp) rfl).post .., ?_, ?_⟩
  · unfold Dev.watchShown
    rw [Dev.post_rd, Dev.rd_flag_sep _ _ _ (by decide), Dev.rd_wr_lt _ Reg.ALM_STATUS_WD w rfl hw]
  · unfold Dev.watchShown
    rw [Dev.post_rd, Dev.rd_flag _ _ rfl]

/-- The watchdog's state changes, not to LATE. -/
theorem Dev.setWatch_told {d : Dev} {w : Nat} (h : d.rd Reg.ALM_STATUS_WD ≠ w) (hw : w < 4) (h2 : w ≠ 2) :
    Dev.Acts [Reg.ALM_STATUS_WD, Reg.ALM_STATUS_WDEV] [(8, 2, w)] d (d.setWatch w) ∧
      (d.setWatch w).rd Reg.ALM_STATUS_WD = w ∧ (d.setWatch w).rd Reg.ALM_STATUS_WDEV = 1 := by
  rw [Dev.setWatch_eq h, if_neg h2]
  exact d.watchShown_told w hw

/-- The fields of a watchdog that has become LATE. -/
def lateFields : List Fld := [Reg.ALM_STATUS_WD, Reg.ALM_STATUS_WDEV, Reg.ALM_WDLATECNT_COUNT, Reg.ALM_STATUS_CNT_HALF]

theorem Dev.setWatch_late {d : Dev} (h : d.rd Reg.ALM_STATUS_WD ≠ 2) : Dev.Acts lateFields [(8, 2, 2)] d (d.setWatch 2) ∧
    (d.setWatch 2).rd Reg.ALM_STATUS_WD = 2 ∧ (d.setWatch 2).rd Reg.ALM_STATUS_WDEV = 1 ∧
    (d.setWatch 2).rd Reg.ALM_WDLATECNT_COUNT = (d.rd Reg.ALM_WDLATECNT_COUNT + 1) % 2 ^ 32 := by
  rw [Dev.setWatch_eq h, if_pos rfl]
  obtain ⟨hA, v1, v2⟩ := d.watchShown_told 2 (by decide)
  generalize d.watchShown 2 = W at hA v1 v2
  refine ⟨(hA.mono (by simp [lateFields])).count 1 (by simp [lateFields]) (by simp [lateFields]) rfl rfl, ?_, ?_, ?_⟩
  · rw [Dev.rd_count_apart _ _ _ _ _ rfl rfl rfl (by decide) (by decide), v1]
  · rw [Dev.rd_count_apart _ _ _ _ _ rfl rfl rfl (by decide) (by decide), v2]
  · rw [Dev.rd_count _ _ _ _ rfl rfl (by decide), hA.rd (by decide)]
    rfl

/-- What ends by showing the device faults anew, where only fields apart from them have changed. -/
theorem shown_of {s t : State} {B D : Dev} {fs : List Fld} {es : List (Nat × Nat × Nat)} (hB : B.live = s.dev.live ∧ B.evq = s.dev.evq ∧ B.tick = s.dev.tick)
    (hA : Dev.Acts fs es B D) (hc : ∀ f ∈ Claims.faultFields, Fld.clear fs f = true) (ht : t.dev = D.refreshFaults.settle) :
    FaultsShown s t ∧ OnlyFields (fs ++ Claims.faultFields) s t ∧ t.dev = Around B t.dev ∧
      (∀ g, Fld.clear almFields g = true → t.dev.rd g = D.rd g) ∧
      ((∀ e ∈ es, e.1 = 8) → es.length ≤ 11 → Room s → EntersAll s t (es ++ faultEvent s t)) := by
  have hrd : ∀ g, B.rd g = s.dev.rd g := fun g => by rw [Dev.rd, Dev.word, hB.1, Dev.rd, Dev.word]
  obtain ⟨h1, h2⟩ := faultsShown_of ht ((hA.rd (hc _ (by decide))).trans (hrd _)) ((hA.rd (hc _ (by decide))).trans (hrd _))
  rw [h2]
  obtain ⟨hR, -⟩ := D.refreshFaults_told
  have hT : Dev.Acts (fs ++ Claims.faultFields) (es ++ D.faultEvents) B D.refreshFaults :=
    (hA.mono fun f hf => List.mem_append_left _ hf).trans (hR.mono (by simp +contextual [almFields, Claims.faultFields]))
  have hev : (∀ e ∈ D.faultEvents, e.1 = 8) ∧ D.faultEvents.length ≤ 1 := by
    unfold Dev.faultEvents
    split <;> simp
  generalize D.refreshFaults = R at hR hT ht
  refine ⟨h1, fun g hg ha => ?_, ht ▸ hT.around, fun g hg => ?_, fun he hn hr => ?_⟩
  · rw [ht]
    exact (Dev.settle_rd R g).trans ((hT.same g hg ha).trans (hrd g))
  · rw [ht]
    exact (Dev.settle_rd R g).trans (hR.rd hg)
  · refine hT.enters hB.2.1 hB.2.2 8 (by decide) (fun e hm => (List.mem_append.mp hm).elim (he e) (hev.1 e)) ?_ hr ht
    rw [List.length_append]
    omega

/-- The last kick noted. -/
def Dev.kicked (d : Dev) : Dev := ({ d with alm := { d.alm with wdAt := d.tick } } : Dev).wr Reg.ALM_WDLAST_TICK d.schTick

theorem Dev.kickGo_eq (d : Dev) : d.kickGo = (d.kicked.setWatch 1).refreshFaults := by
  unfold Dev.kickGo Dev.kicked
  rfl

theorem kick_runs {s : State} {h : Agent} (hr : Ready s h Reg.ALM_WDKICK_KICK false) :
    ∃ p, Runs (.kick h) s { s with dev := ((Dev.kicked { s.dev with pwr := p }).setWatch 1).refreshFaults.settle } := by
  obtain ⟨p, hrun⟩ := hostCmd_runs (show exec (.kick h) s = onDev (fun d => d.hostCmd h Reg.ALM_WDKICK_KICK [] Dev.kickGo) s from rfl) hr
  rw [Dev.kickGo_eq] at hrun
  exact ⟨p, hrun⟩

theorem kick_works (s : State) (h : Agent) (hr : Ready s h Reg.ALM_WDKICK_KICK false) : let was := s.dev.rd Reg.ALM_STATUS_WD
    ∃ t, Runs (.kick h) s t ∧ t.dev.rd Reg.ALM_STATUS_WD = 1 ∧ t.dev.rd Reg.ALM_WDLAST_TICK = s.dev.tick % 2 ^ 32 ∧ FaultsShown s t ∧
      OnlyFields ([Reg.ALM_STATUS_WD, Reg.ALM_WDLAST_TICK, Reg.ALM_STATUS_WDEV] ++ Claims.faultFields) s t ∧
      t.dev = Around { s.dev with alm := { s.dev.alm with wdAt := s.dev.tick } } t.dev ∧
      (was ≠ 1 → t.dev.rd Reg.ALM_STATUS_WDEV = 1) ∧
      (Room s → EntersAll s t ((if was = 1 then [] else [(8, 2, 1)]) ++ faultEvent s t)) := by
  intro was
  obtain ⟨p, hrun⟩ := kick_runs hr
  obtain ⟨B, hB, hB1, hB2⟩ : ∃ B : Dev, B = { s.dev with pwr := p, alm := { s.dev.alm with wdAt := s.dev.tick } } ∧ B.rd = s.dev.rd ∧
    Dev.kicked { s.dev with pwr := p } = B.wr Reg.ALM_WDLAST_TICK (s.dev.tick % 2 ^ 32) := ⟨_, rfl, rfl, rfl⟩
  have hlt : s.dev.tick % 2 ^ 32 < 2 ^ 32 := Nat.mod_lt _ (by decide)
  have hW := B.wr_acts Reg.ALM_WDLAST_TICK (s.dev.tick % 2 ^ 32) rfl
  have hv := B.rd_wr_lt Reg.ALM_WDLAST_TICK (s.dev.tick % 2 ^ 32) rfl hlt
  rw [hB2] at hrun
  generalize B.wr Reg.ALM_WDLAST_TICK (s.dev.tick % 2 ^ 32) = W at hW hv hrun
  have hwd : W.rd Reg.ALM_STATUS_WD = was := (hW.rd (by decide)).trans (congrFun hB1 _)
  have hD : Dev.Acts [Reg.ALM_STATUS_WD, Reg.ALM_WDLAST_TICK, Reg.ALM_STATUS_WDEV] (if was = 1 then [] else [(8, 2, 1)]) B (W.setWatch 1) ∧
      (W.setWatch 1).rd Reg.ALM_STATUS_WD = 1 ∧ (was ≠ 1 → (W.setWatch 1).rd Reg.ALM_STATUS_WDEV = 1) ∧ (W.setWatch 1).rd Reg.ALM_WDLAST_TICK = s.dev.tick % 2 ^ 32 := by
    by_cases h1 : was = 1
    · rw [Dev.setWatch_same (hwd.trans h1), if_pos h1]
      exact ⟨hW.mono (by simp), hwd.trans h1, fun hn => absurd h1 hn, hv⟩
    · obtain ⟨hA, v1, v2⟩ := Dev.setWatch_told (d := W) (w := 1) (by rwa [hwd]) (by decide) (by decide)
      rw [if_neg h1]
      exact ⟨(hW.mono (by simp)).trans (hA.mono (by simp)), v1, fun _ => v2, (hA.rd (by decide)).trans hv⟩
  obtain ⟨hA, v1, v2, v3⟩ := hD
  generalize W.setWatch 1 = D at hA v1 v2 v3 hrun
  obtain ⟨f1, f2, f3, f4, f5⟩ := shown_of (s := s) (t := { s with dev := D.refreshFaults.settle }) (B := B) (by rw [hB]; exact ⟨rfl, rfl, rfl⟩) hA (by decide) rfl
  refine ⟨_, hrun, (f4 _ (by decide)).trans v1, (f4 _ (by decide)).trans v3, f1, f2, ?_, fun hn => (f4 _ (by decide)).trans (v2 hn), fun hr => f5 ?_ ?_ hr⟩
  · refine f3.trans ?_
    rw [hB]
    rfl
  · split <;> simp
  · split <;> simp

/-! The watchdog's time. -/

theorem execWdog_eq (s : State) : exec .wdog s = onDev (fun d =>
    if d.rd Reg.ALM_STATUS_WD = 2 ∧ d.wdIdle (d.rd Reg.ALM_WDCFG_TIMEOUT + d.rd Reg.ALM_WDCFG_GRACE) then (((d.setWatch 3).capture 7).wake 2).refreshFaults
    else if (d.rd Reg.ALM_STATUS_WD = 1 ∨ (d.rd Reg.ALM_STATUS_WD = 0 ∧ d.alm.kindled)) ∧ d.wdIdle (d.rd Reg.ALM_WDCFG_TIMEOUT) then (d.setWatch 2).refreshFaults
    else d) s := rfl

theorem Dev.wdIdle_iff (d : Dev) (ms : Nat) : d.wdIdle ms = true ↔ d.alm.wdAt + 8 * ms ≤ d.tick := decide_eq_true_iff

theorem wdog_late (s : State) : let was := s.dev.rd Reg.ALM_STATUS_WD
    let since := fun (ms : Nat) => s.dev.alm.wdAt + 8 * ms ≤ s.dev.tick
    let late := (was = 1 ∨ (was = 0 ∧ s.dev.alm.kindled = true)) ∧ since (s.dev.rd Reg.ALM_WDCFG_TIMEOUT)
    late → ∃ t, Runs .wdog s t ∧ t.dev.rd Reg.ALM_STATUS_WD = 2 ∧
      t.dev.rd Reg.ALM_STATUS_WDEV = 1 ∧ t.dev.rd Reg.ALM_WDLATECNT_COUNT = (s.dev.rd Reg.ALM_WDLATECNT_COUNT + 1) % 2 ^ 32 ∧ FaultsShown s t ∧
      OnlyFields ([Reg.ALM_STATUS_WD, Reg.ALM_STATUS_WDEV, Reg.ALM_WDLATECNT_COUNT, Reg.ALM_STATUS_CNT_HALF] ++ Claims.faultFields) s t ∧
      t.dev = Around s.dev t.dev ∧ (Room s → EntersAll s t ((8, 2, 2) :: faultEvent s t)) := by
  intro was since late hl
  have hrun := runs_of_onDev (execWdog_eq s)
  have hne : was ≠ 2 := by omega
  rw [if_neg fun h => hne h.1, if_pos ⟨hl.1, (s.dev.wdIdle_iff _).mpr hl.2⟩] at hrun
  obtain ⟨hA, v1, v2, v3⟩ := Dev.setWatch_late hne
  generalize s.dev.setWatch 2 = D at hA v1 v2 v3 hrun
  obtain ⟨f1, f2, f3, f4, f5⟩ := shown_of (s := s) (t := { s with dev := D.refreshFaults.settle }) ⟨rfl, rfl, rfl⟩ hA (by decide) rfl
  exact ⟨_, hrun, (f4 _ (by decide)).trans v1, (f4 _ (by decide)).trans v2, (f4 _ (by decide)).trans v3, f1, f2, f3, f5 (by simp) (by simp)⟩

/-- The ash dump of cause `c` begins where its trigger is enabled and the buffer is free. -/
theorem Dev.capture_begins {d : Dev} {c : Nat} (hm : ¬ d.rd Reg.DUMP_CFG_MASK / 2 ^ c % 2 = 0) (hb : d.rd Reg.DUMP_STATUS_BUSY = 0) :
    (d.capture c).rd Reg.DUMP_STATUS_BUSY = 1 ∧ ∃ r, (d.capture c).dump.buf = some r ∧ r.cause = c := by
  have hoff : ¬ d.on Reg.DUMP_STATUS_BUSY = true := by
    rw [Dev.on_true_iff, hb]
    decide
  unfold Dev.capture
  rw [if_neg hm, if_neg hoff]
  dsimp only
  obtain ⟨r, hr, hc⟩ : ∃ r : DumpRec, r = { cause := c, tick := d.schTick, secs := d.seconds, nanos := d.nanos, fw := d.rd Reg.PWR_KSTAT_IMAGE + d.rd Reg.PWR_SECVER_VER * 2 ^ 8 + (d.word 0x4014).toNat % 2 ^ 16 * 2 ^ 16, body := d.dumpBody, trace := d.free, klog := d.dump.klog } ∧ r.cause = c := ⟨_, rfl, rfl⟩
  rw [← hr]
  obtain ⟨E, hE, hEb⟩ : ∃ E : Dev, E = { d with dump := { d.dump with buf := some r }, free := d.free + 4096 } ∧ E.dump.buf = some r := ⟨_, rfl, rfl⟩
  rw [← hE]
  have hv : ((((E.wr Reg.DUMP_STATUS_BUSY 1).flag Reg.DUMP_STATUS_CAPEV).count Reg.DUMP_CNT_COUNT Reg.DUMP_STATUS_CNT_HALF).post 4 1 c).rd Reg.DUMP_STATUS_BUSY = 1 := by
    rw [Dev.post_rd, Dev.rd_count_apart _ _ _ _ _ rfl rfl rfl (by decide) (by decide), Dev.rd_flag_sep _ _ _ (by decide),
      Dev.rd_wr_lt _ Reg.DUMP_STATUS_BUSY 1 rfl (show 1 < 2 ^ 1 by decide)]
  have hF : Dev.Acts [Reg.DUMP_STATUS_BUSY, Reg.DUMP_STATUS_CAPEV, Reg.DUMP_CNT_COUNT, Reg.DUMP_STATUS_CNT_HALF] [(4, 1, c)] E
      ((((E.wr Reg.DUMP_STATUS_BUSY 1).flag Reg.DUMP_STATUS_CAPEV).count Reg.DUMP_CNT_COUNT Reg.DUMP_STATUS_CNT_HALF).post 4 1 c) :=
    ((((Dev.Acts.refl _ E).wr (f := Reg.DUMP_STATUS_BUSY) 1 (by simp) rfl).flag (f := Reg.DUMP_STATUS_CAPEV) (by simp) rfl).count 1 (by simp) (by simp) rfl rfl).post ..
  generalize (((E.wr Reg.DUMP_STATUS_BUSY 1).flag Reg.DUMP_STATUS_CAPEV).count Reg.DUMP_CNT_COUNT Reg.DUMP_STATUS_CNT_HALF).post 4 1 c = D at hv hF
  refine ⟨hv, r, ?_, hc⟩
  rw [hF.only]
  exact hEb

/-- The device with a wake event taken. -/
theorem Dev.Acts.wake {fs : List Fld} {es : List (Nat × Nat × Nat)} {d D : Dev} (h : Dev.Acts fs es d D) (c : Nat) :
    Dev.Acts fs es { d with pwr := (D.wake c).pwr } (D.wake c) := by
  obtain ⟨k1, -, -, -, k5⟩ := D.wake_keeps c
  refine ⟨?_, fun g hg ha => ?_⟩
  · generalize D.wake c = W at k5
    rw [k5, h.only]
  · exact (D.wake_rd c g).trans (h.same g hg ha)

/-- What the registers and the events written leave of a device. -/
theorem Dev.Acts.rest {fs : List Fld} {es : List (Nat × Nat × Nat)} {d D : Dev} (h : Dev.Acts fs es d D) :
    D.timeNs = d.timeNs ∧ D.pwr = d.pwr ∧ D.sch = d.sch ∧ D.dump = d.dump ∧ D.alm = d.alm := by
  have h := h.only
  refine ⟨?_, ?_, ?_, ?_, ?_⟩ <;> rw [h]
  rfl

theorem wdog_dead (s : State) : let was := s.dev.rd Reg.ALM_STATUS_WD
    let since := fun (ms : Nat) => s.dev.alm.wdAt + 8 * ms ≤ s.dev.tick
    let dead := was = 2 ∧ since (s.dev.rd Reg.ALM_WDCFG_TIMEOUT + s.dev.rd Reg.ALM_WDCFG_GRACE)
    dead → ∃ t, Runs .wdog s t ∧ t.dev.rd Reg.ALM_STATUS_WD = 3 ∧ t.dev.rd Reg.ALM_STATUS_WDEV = 1 ∧ FaultsShown s t ∧
      Exits s t true 2 ∧ t.dev.pwr = { s.dev.pwr with exiting := t.dev.pwr.exiting } ∧
      (NoDump s 7 → t.dev = Around s.dev t.dev ∧ OnlyFields ([Reg.ALM_STATUS_WD, Reg.ALM_STATUS_WDEV] ++ Claims.faultFields) s t ∧
        (Room s → EntersAll s t ((8, 2, 3) :: faultEvent s t))) ∧
      (¬ NoDump s 7 → s.dev.rd Reg.DUMP_STATUS_BUSY = 0 → t.dev.rd Reg.DUMP_STATUS_BUSY = 1 ∧ ∃ r, t.dev.dump.buf = some r ∧ r.cause = 7) := by
  intro was since dead hd
  have hrun := runs_of_onDev (execWdog_eq s)
  rw [if_pos ⟨hd.1, (s.dev.wdIdle_iff _).mpr hd.2⟩] at hrun
  have hne : s.dev.rd Reg.ALM_STATUS_WD ≠ 3 := by
    rw [show s.dev.rd Reg.ALM_STATUS_WD = 2 from hd.1]
    decide
  obtain ⟨hA, v1, v2⟩ := Dev.setWatch_told hne (by decide) (by decide)
  generalize s.dev.setWatch 3 = W at hA v1 v2 hrun
  have hmask : W.rd Reg.DUMP_CFG_MASK = s.dev.rd Reg.DUMP_CFG_MASK := hA.rd (by decide)
  obtain ⟨c1, c2⟩ := W.capture_frame 7
  have hno : NoDump s 7 → W.capture 7 = W := fun hn => Dev.capture_masked (by rw [hmask]; exact hn)
  have hyes : ¬ NoDump s 7 → s.dev.rd Reg.DUMP_STATUS_BUSY = 0 → (W.capture 7).rd Reg.DUMP_STATUS_BUSY = 1 ∧ ∃ r, (W.capture 7).dump.buf = some r ∧ r.cause = 7 :=
    fun hn hb => Dev.capture_begins (by rw [hmask]; exact hn) ((hA.rd (by decide)).trans hb)
  generalize W.capture 7 = C at c1 c2 hno hyes hrun
  have hCp : C.pwr = s.dev.pwr := by rw [c2, hA.only]
  obtain ⟨-, -, k3, k4, k5⟩ := C.wake_keeps 2
  have krd := C.wake_rd 2
  have kact := fun hn : NoDump s 7 => hno hn ▸ hA.wake 2
  obtain ⟨K, hK⟩ : ∃ K, C.wake 2 = K := ⟨_, rfl⟩
  have hf := faultsShown_of (s := s) (t := { s with dev := K.refreshFaults.settle }) (D := K) rfl
    (((hK ▸ krd _ : K.rd _ = _).trans (c1.rd (by decide))).trans (hA.rd (by decide))) (((hK ▸ krd _ : K.rd _ = _).trans (c1.rd (by decide))).trans (hA.rd (by decide)))
  rw [hK] at hrun kact k3 k4 k5 krd
  have hshown := fun hn : NoDump s 7 => shown_of (s := s) (t := { s with dev := K.refreshFaults.settle }) (B := { s.dev with pwr := K.pwr })
    (fs := [Reg.ALM_STATUS_WD, Reg.ALM_STATUS_WDEV]) ⟨rfl, rfl, rfl⟩ (kact hn) (by decide) rfl
  have hS := K.refreshFaults_told.1
  generalize K.refreshFaults = R at hS hf hshown hrun
  obtain ⟨r1, r2, r3, r4, -⟩ := hS.rest
  have hrd : ∀ g, Fld.clear almFields g = true → R.settle.rd g = C.rd g := fun g hg => (Dev.settle_rd R g).trans ((hS.rd hg).trans (krd g))
  have htarget : R.settle.powerTarget = C.powerTarget := by
    refine Dev.powerTarget_congr (fun f hm => hrd f ?_) ?_ ?_ ?_
    · exact (show ∀ f ∈ targetFields, Fld.clear almFields f = true by decide) f hm
    · exact (congrArg Pwr.touchAt r2).trans k3
    · exact r1.trans k4
    · exact congrArg Sch.jobs (r3.trans (by rw [k5]))
  obtain ⟨e1, e2⟩ := exits_of (s := s) (t := { s with dev := R.settle }) (D := C) (c := 2) hCp
    ((c1.rd (by decide)).trans (hA.rd (by decide))) (hK.symm ▸ r2) (r1.trans k4) htarget
  refine ⟨_, hrun, (hrd _ (by decide)).trans ((c1.rd (by decide)).trans v1), (hrd _ (by decide)).trans ((c1.rd (by decide)).trans v2), hf.1, e1, e2,
    fun hn => ?_, fun hn hb => ?_⟩
  · obtain ⟨-, f2, f3, -, f5⟩ := hshown hn
    exact ⟨f3, f2, f5 (by simp) (by simp)⟩
  · obtain ⟨b1, r, b2, b3⟩ := hyes hn hb
    exact ⟨(hrd _ (by decide)).trans b1, r, (congrArg Dump.buf (r4.trans (by rw [k5]))).trans b2, b3⟩

theorem wdog_waits (s : State) : let was := s.dev.rd Reg.ALM_STATUS_WD
    let since := fun (ms : Nat) => s.dev.alm.wdAt + 8 * ms ≤ s.dev.tick
    let late := (was = 1 ∨ (was = 0 ∧ s.dev.alm.kindled = true)) ∧ since (s.dev.rd Reg.ALM_WDCFG_TIMEOUT)
    let dead := was = 2 ∧ since (s.dev.rd Reg.ALM_WDCFG_TIMEOUT + s.dev.rd Reg.ALM_WDCFG_GRACE)
    ¬ late → ¬ dead → ∃ t, Runs .wdog s t ∧ Keeps [] s t s.dev := by
  intro was since late dead hl hd
  have hrun := runs_of_onDev (execWdog_eq s)
  rw [if_neg fun h => hd ⟨h.1, (s.dev.wdIdle_iff _).mp h.2⟩, if_neg fun h => hl ⟨h.1, (s.dev.wdIdle_iff _).mp h.2⟩] at hrun
  exact ⟨_, hrun, fun _ _ => rfl, rfl⟩

/-! ### START and RELEASE (R452, R458) -/

/-- A command of ALM with the reason `c` on a device that differs from the one before at most beside its registers. -/
theorem almEnds_of {s : State} {B : Dev} {c : Nat} (hB : B.live = s.dev.live) (hc : c < 2 ^ 8) :
    AlmEnds { s with dev := (B.almResult c).settle } c ∧
      OnlyFields [Reg.ALM_CMDRES_REASON, Reg.ALM_CMDRES_VALID] s { s with dev := (B.almResult c).settle } ∧
      (B.almResult c).settle = Around B (B.almResult c).settle := by
  obtain ⟨hA, v1, v2⟩ := B.almResult_told c hc
  generalize B.almResult c = D at hA v1 v2
  refine ⟨⟨(Dev.settle_rd D _).trans v1, (Dev.settle_rd D _).trans v2⟩, fun g hg ha => ?_, hA.around⟩
  refine (Dev.settle_rd D g).trans ((hA.same g hg ha).trans ?_)
  rw [Dev.rd, Dev.word, hB, Dev.rd, Dev.word]

theorem start_works (s : State) (h : Agent) (hr : Ready s h Reg.ALM_CMD_START false) : let fields := [Reg.ALM_CMDRES_REASON, Reg.ALM_CMDRES_VALID]
    ∃ t, Runs (.start h) s t ∧ OnlyFields fields s t ∧
      (s.dev.rd Reg.ALM_SPSTAT_STATE ≠ 1 → AlmEnds t 0x12 ∧ t.dev = Around s.dev t.dev) ∧
      (s.dev.rd Reg.ALM_SPSTAT_STATE = 1 → AlmEnds t 0 ∧ t.dev = Around { s.dev with alm := { s.dev.alm with startReq := true } } t.dev) := by
  intro fields
  obtain ⟨p, hrun⟩ := hostCmd_runs (show exec (.start h) s = onDev (fun d => d.hostCmd h Reg.ALM_CMD_START [] Dev.startGo) s from rfl) hr
  have hst : Dev.rd { s.dev with pwr := p } Reg.ALM_SPSTAT_STATE = s.dev.rd Reg.ALM_SPSTAT_STATE := rfl
  rw [Dev.startGo, hst] at hrun
  by_cases h1 : s.dev.rd Reg.ALM_SPSTAT_STATE = 1
  · rw [if_neg (not_not.mpr h1)] at hrun
    obtain ⟨e1, e2, e3⟩ := almEnds_of (s := s) (B := { s.dev with pwr := p, alm := { s.dev.alm with startReq := true } }) (c := 0) rfl (by decide)
    exact ⟨_, hrun, e2, fun hn => absurd h1 hn, fun _ => ⟨e1, e3⟩⟩
  · rw [if_pos h1] at hrun
    obtain ⟨e1, e2, e3⟩ := almEnds_of (s := s) (B := { s.dev with pwr := p }) (c := 0x12) rfl (by decide)
    exact ⟨_, hrun, e2, fun _ => ⟨e1, e3⟩, fun hn => absurd hn h1⟩

theorem Dev.releaseGo_eq (d : Dev) : d.releaseGo = if d.rd Reg.ALM_STATUS_WD ≠ 1 then d.almResult 0x10 else if d.rd Reg.ALM_SPSTAT_STATE ≠ 2 then d.almResult 0x13
    else Dev.almResult { d with alm := { d.alm with relReq := true } } 0 := by
  unfold Dev.releaseGo
  by_cases h1 : d.rd Reg.ALM_STATUS_WD ≠ 1 <;> by_cases h2 : d.rd Reg.ALM_SPSTAT_STATE ≠ 2
  · rw [if_pos h1, if_pos h1, if_pos h2]
    rfl
  · rw [if_pos h1, if_pos h1, if_neg h2]
    rfl
  · rw [if_neg h1, if_neg h1, if_pos h2, if_pos h2]
    rfl
  · rw [if_neg h1, if_neg h1, if_neg h2, if_neg h2]
    rfl

theorem almRelease_works (s : State) (h : Agent) (hr : Ready s h Reg.ALM_CMD_RELEASE false) : let fields := [Reg.ALM_CMDRES_REASON, Reg.ALM_CMDRES_VALID]
    ∃ t, Runs (.almRelease h) s t ∧ OnlyFields fields s t ∧
      (s.dev.rd Reg.ALM_STATUS_WD ≠ 1 → AlmEnds t 0x10 ∧ t.dev = Around s.dev t.dev) ∧
      (s.dev.rd Reg.ALM_STATUS_WD = 1 → s.dev.rd Reg.ALM_SPSTAT_STATE ≠ 2 → AlmEnds t 0x13 ∧ t.dev = Around s.dev t.dev) ∧
      (s.dev.rd Reg.ALM_STATUS_WD = 1 → s.dev.rd Reg.ALM_SPSTAT_STATE = 2 →
        AlmEnds t 0 ∧ t.dev = Around { s.dev with alm := { s.dev.alm with relReq := true } } t.dev) := by
  intro fields
  obtain ⟨p, hrun⟩ := hostCmd_runs (show exec (.almRelease h) s = onDev (fun d => d.hostCmd h Reg.ALM_CMD_RELEASE [] Dev.releaseGo) s from rfl) hr
  have hst : Dev.rd { s.dev with pwr := p } Reg.ALM_SPSTAT_STATE = s.dev.rd Reg.ALM_SPSTAT_STATE := rfl
  have hwd : Dev.rd { s.dev with pwr := p } Reg.ALM_STATUS_WD = s.dev.rd Reg.ALM_STATUS_WD := rfl
  rw [Dev.releaseGo_eq, hst, hwd] at hrun
  by_cases h1 : s.dev.rd Reg.ALM_STATUS_WD = 1
  · rw [if_neg (not_not.mpr h1)] at hrun
    by_cases h2 : s.dev.rd Reg.ALM_SPSTAT_STATE = 2
    · rw [if_neg (not_not.mpr h2)] at hrun
      obtain ⟨e1, e2, e3⟩ := almEnds_of (s := s) (B := { s.dev with pwr := p, alm := { s.dev.alm with relReq := true } }) (c := 0) rfl (by decide)
      exact ⟨_, hrun, e2, fun hn => absurd h1 hn, fun _ hn => absurd h2 hn, fun _ _ => ⟨e1, e3⟩⟩
    · rw [if_pos h2] at hrun
      obtain ⟨e1, e2, e3⟩ := almEnds_of (s := s) (B := { s.dev with pwr := p }) (c := 0x13) rfl (by decide)
      exact ⟨_, hrun, e2, fun hn => absurd h1 hn, fun _ _ => ⟨e1, e3⟩, fun _ hn => absurd hn h2⟩
  · rw [if_pos h1] at hrun
    obtain ⟨e1, e2, e3⟩ := almEnds_of (s := s) (B := { s.dev with pwr := p }) (c := 0x10) rfl (by decide)
    exact ⟨_, hrun, e2, fun _ => ⟨e1, e3⟩, fun hn => absurd hn h1, fun hn => absurd hn h1⟩

theorem watchdogAndStandingProgram : WatchdogAndStandingProgram :=
  ⟨kick_works, fun s => ⟨wdog_waits s, wdog_late s, wdog_dead s⟩, start_works, almRelease_works⟩

end Sys2Proof.Machine
end

section
/-! Line surveillance: the pilot, its windows and the verdicts of a zone (R463 to R465). -/
namespace Sys2Proof.Machine
open Sys2Proof.Claims

theorem Dev.zone_setZone (d : Dev) (z y : Nat) (x : Zone) : (d.setZone z x).zone y = if y = z then x else d.zone y := by
  simp only [Dev.zone, Dev.setZone, Sparse.get_put, eq_comm]

/-- What the fields of zone `z` share with one another and with the counts. -/
theorem zone_seps : ∀ z : Fin 128, (Reg.ALM_ZSTAT_STATE z).ok = true ∧ (Reg.ALM_ZSTAT_KIND z).ok = true ∧ (Reg.ALM_ZSTAT_RUN z).ok = true ∧
    (Reg.ALM_ZSTAT_GAIN z).ok = true ∧ (Reg.ALM_ZSTAT_PILOT z).ok = true ∧
    Fld.clear [Reg.ALM_STATUS_SURVEV, Reg.ALM_LINEFAULTCNT_COUNT, Reg.ALM_STATUS_CNT_HALF] (Reg.ALM_ZSTAT_STATE z) = true ∧
    Fld.clear [Reg.ALM_STATUS_SURVEV, Reg.ALM_LINEFAULTCNT_COUNT, Reg.ALM_STATUS_CNT_HALF] (Reg.ALM_ZSTAT_KIND z) = true ∧
    (Reg.ALM_ZSTAT_KIND z).sep (Reg.ALM_ZSTAT_STATE z) = true ∧
    Fld.clear [Reg.ALM_ZSTAT_STATE z, Reg.ALM_ZSTAT_KIND z] (Reg.ALM_ZSTAT_GAIN z) = true ∧
    Fld.clear [Reg.ALM_ZSTAT_STATE z, Reg.ALM_ZSTAT_KIND z] Reg.ALM_LINEFAULTCNT_COUNT = true := by decide

/-- The fields of LINEFAULT. -/
def lineFields : List Fld := [Reg.ALM_STATUS_SURVEV, Reg.ALM_LINEFAULTCNT_COUNT, Reg.ALM_STATUS_CNT_HALF]

/-- LINEFAULT of zone `z`. -/
theorem Dev.postLine_told (d : Dev) (z : Nat) (fault : Bool) (kind : Nat) :
    Dev.Acts lineFields [(8, 4, z + bit fault * 2 ^ 8 + kind * 2 ^ 9 + d.rd (Reg.ALM_ZSTAT_GAIN z) * 2 ^ 16)] d (d.postLine z fault kind) ∧
      (d.postLine z fault kind).rd Reg.ALM_LINEFAULTCNT_COUNT = (d.rd Reg.ALM_LINEFAULTCNT_COUNT + bit fault) % 2 ^ 32 := by
  have hA := ((Dev.Acts.refl lineFields d).flag (f := Reg.ALM_STATUS_SURVEV) (by simp [lineFields]) rfl).post 8 4
    (z + bit fault * 2 ^ 8 + kind * 2 ^ 9 + d.rd (Reg.ALM_ZSTAT_GAIN z) * 2 ^ 16)
  have hv : ((d.flag Reg.ALM_STATUS_SURVEV).post 8 4 (z + bit fault * 2 ^ 8 + kind * 2 ^ 9 + d.rd (Reg.ALM_ZSTAT_GAIN z) * 2 ^ 16)).rd Reg.ALM_LINEFAULTCNT_COUNT =
      d.rd Reg.ALM_LINEFAULTCNT_COUNT := by rw [Dev.post_rd, Dev.rd_flag_sep _ _ _ (by decide)]
  unfold Dev.postLine
  dsimp only
  generalize (d.flag Reg.ALM_STATUS_SURVEV).post 8 4 (z + bit fault * 2 ^ 8 + kind * 2 ^ 9 + d.rd (Reg.ALM_ZSTAT_GAIN z) * 2 ^ 16) = D at hA hv
  cases fault with
  | false =>
    refine ⟨hA, hv.trans ?_⟩
    exact (Nat.mod_eq_of_lt (d.rd_lt Reg.ALM_LINEFAULTCNT_COUNT)).symm
  | true =>
    refine ⟨hA.count 1 (by simp [lineFields]) (by simp [lineFields]) rfl rfl, ?_⟩
    rw [if_pos rfl, Dev.rd_count _ _ _ _ rfl rfl (by decide), hv]
    rfl

/-- The fields of a zone's state, and those of LINEFAULT. -/
def stateKindFields (z : Nat) : List Fld := [Reg.ALM_ZSTAT_STATE z, Reg.ALM_ZSTAT_KIND z] ++ lineFields

/-- Zone `z` shown in state `st` with the kind `k`. -/
theorem Dev.zoneShown_told (d : Dev) (z : Fin 128) (st k : Nat) (hst : st < 4) (hk : k < 8) :
    Dev.Acts (stateKindFields z) [] d ((d.wr (Reg.ALM_ZSTAT_STATE z) st).wr (Reg.ALM_ZSTAT_KIND z) k) ∧
      ((d.wr (Reg.ALM_ZSTAT_STATE z) st).wr (Reg.ALM_ZSTAT_KIND z) k).rd (Reg.ALM_ZSTAT_STATE z) = st ∧
      ((d.wr (Reg.ALM_ZSTAT_STATE z) st).wr (Reg.ALM_ZSTAT_KIND z) k).rd (Reg.ALM_ZSTAT_KIND z) = k ∧
      ((d.wr (Reg.ALM_ZSTAT_STATE z) st).wr (Reg.ALM_ZSTAT_KIND z) k).rd (Reg.ALM_ZSTAT_GAIN z) = d.rd (Reg.ALM_ZSTAT_GAIN z) ∧
      ((d.wr (Reg.ALM_ZSTAT_STATE z) st).wr (Reg.ALM_ZSTAT_KIND z) k).rd Reg.ALM_LINEFAULTCNT_COUNT = d.rd Reg.ALM_LINEFAULTCNT_COUNT := by
  obtain ⟨o1, o2, -, -, -, -, -, s1, c1, c2⟩ := zone_seps z
  have hA : Dev.Acts [Reg.ALM_ZSTAT_STATE z, Reg.ALM_ZSTAT_KIND z] [] d ((d.wr (Reg.ALM_ZSTAT_STATE z) st).wr (Reg.ALM_ZSTAT_KIND z) k) :=
    ((Dev.Acts.refl _ d).wr st (by simp) o1).wr k (by simp) o2
  refine ⟨hA.mono (by simp [stateKindFields]), ?_, ?_, hA.rd c1, hA.rd c2⟩
  · rw [Dev.rd_wr_sep _ _ _ _ s1, Dev.rd_wr_lt _ (Reg.ALM_ZSTAT_STATE z) st o1 hst]
  · rw [Dev.rd_wr_lt _ (Reg.ALM_ZSTAT_KIND z) k o2 hk]

/-- The events of a zone that becomes FAULT of kind `k`: only an entry is posted. -/
def Dev.faultPosts (d : Dev) (z k : Nat) : List (Nat × Nat × Nat) :=
  if d.rd (Reg.ALM_ZSTAT_STATE z) = 3 then [] else [(8, 4, z + 2 ^ 8 + k * 2 ^ 9 + d.rd (Reg.ALM_ZSTAT_GAIN z) * 2 ^ 16)]

theorem Dev.zoneFault_told (d : Dev) (z : Fin 128) (k : Nat) (hk : k < 8) : Dev.Acts (stateKindFields z) (d.faultPosts z k) d (d.zoneFault z k) ∧
    (d.zoneFault z k).rd (Reg.ALM_ZSTAT_STATE z) = 3 ∧ (d.zoneFault z k).rd (Reg.ALM_ZSTAT_KIND z) = k ∧
    (d.zoneFault z k).rd Reg.ALM_LINEFAULTCNT_COUNT =
      if d.rd (Reg.ALM_ZSTAT_STATE z) = 3 then d.rd Reg.ALM_LINEFAULTCNT_COUNT else (d.rd Reg.ALM_LINEFAULTCNT_COUNT + 1) % 2 ^ 32 := by
  obtain ⟨-, -, -, -, -, l1, l2, -⟩ := zone_seps z
  obtain ⟨hA, v1, v2, v3, v4⟩ := d.zoneShown_told z 3 k (by decide) hk
  unfold Dev.zoneFault Dev.faultPosts
  dsimp only
  generalize (d.wr (Reg.ALM_ZSTAT_STATE z) 3).wr (Reg.ALM_ZSTAT_KIND z) k = W at hA v1 v2 v3 v4
  by_cases h : d.rd (Reg.ALM_ZSTAT_STATE z) = 3
  · rw [show (d.rd (Reg.ALM_ZSTAT_STATE z) != 3) = false by simp [h], if_neg Bool.false_ne_true, if_pos h, if_pos h]
    exact ⟨hA, v1, v2, v4⟩
  · rw [show (d.rd (Reg.ALM_ZSTAT_STATE z) != 3) = true by simp [h], if_pos (rfl : true = true), if_neg h, if_neg h]
    obtain ⟨hP, p1⟩ := W.postLine_told z true k
    rw [v3] at hP
    have hb : bit true * 2 ^ 8 = 2 ^ 8 := rfl
    rw [hb] at hP
    refine ⟨hA.trans (hP.mono fun f hf => List.mem_append_right _ hf), (hP.rd l1).trans v1, (hP.rd l2).trans v2, ?_⟩
    rw [p1, v4]
    rfl

/-! ### Verdicts -/

/-- The run of like verdicts of zone `z`, whose last verdict was a PASS or not. -/
def Dev.runOf (d : Dev) (z : Nat) (passed : Bool) (k : Nat) : Nat :=
  if 0 < d.rd (Reg.ALM_ZSTAT_RUN z) ∧ (passed = true ↔ k = 0) then min 15 (d.rd (Reg.ALM_ZSTAT_RUN z) + 1) else 1

/-- Zone `x` after a verdict. -/
def Zone.judged (x : Zone) (k tick : Nat) : Zone :=
  if k = 0 then { x with pass := true, heard := tick, passAt := tick } else { x with pass := false }

/-- A verdict written to RUN and GAIN. -/
def Dev.verdictNoted (d : Dev) (z : Nat) (x : Zone) (run gain : Nat) : Dev := ((d.setZone z x).wr (Reg.ALM_ZSTAT_RUN z) run).wr (Reg.ALM_ZSTAT_GAIN z) gain

/-- What a verdict means for the state of zone `z`. -/
def Dev.verdictActs (d : Dev) (z k run : Nat) : Dev :=
  if k = 0 then
    if d.rd (Reg.ALM_ZSTAT_STATE z) = 1 then d.wr (Reg.ALM_ZSTAT_STATE z) 2
    else if d.rd (Reg.ALM_ZSTAT_STATE z) = 3 ∧ run ≥ d.rd Reg.ALM_SCFG_CLEARN then
      ((d.wr (Reg.ALM_ZSTAT_STATE z) 2).wr (Reg.ALM_ZSTAT_KIND z) 0).postLine z false 0
    else d
  else if run ≥ d.rd Reg.ALM_SCFG_FAILN then d.zoneFault z k
  else if d.rd (Reg.ALM_ZSTAT_STATE z) = 1 then d.wr (Reg.ALM_ZSTAT_STATE z) 2
  else d

theorem Dev.verdict_eq (d : Dev) (z k gain : Nat) : d.verdict z k gain =
    (d.verdictNoted z ((d.zone z).judged k d.tick) (d.runOf z (d.zone z).pass k) gain).verdictActs z k (d.runOf z (d.zone z).pass k) := by
  have hrun : (if d.rd (Reg.ALM_ZSTAT_RUN z) > 0 && (d.zone z).pass == (k == 0) then min 15 (d.rd (Reg.ALM_ZSTAT_RUN z) + 1) else 1) = d.runOf z (d.zone z).pass k := by
    unfold Dev.runOf
    have h : (decide (d.rd (Reg.ALM_ZSTAT_RUN z) > 0) && (d.zone z).pass == (k == 0)) = true ↔ 0 < d.rd (Reg.ALM_ZSTAT_RUN z) ∧ ((d.zone z).pass = true ↔ k = 0) := by
      rw [Bool.and_eq_true, decide_eq_true_eq]
      refine and_congr_right fun _ => ?_
      by_cases hk : k = 0
      · simp [hk]
      · simp [hk, beq_eq_false_iff_ne.mpr hk]
    rw [show (if d.rd (Reg.ALM_ZSTAT_RUN z) > 0 && (d.zone z).pass == (k == 0) then min 15 (d.rd (Reg.ALM_ZSTAT_RUN z) + 1) else 1) =
      if (decide (d.rd (Reg.ALM_ZSTAT_RUN z) > 0) && (d.zone z).pass == (k == 0)) = true then min 15 (d.rd (Reg.ALM_ZSTAT_RUN z) + 1) else 1 from rfl, if_congr h rfl rfl]
  rw [← hrun]
  unfold Dev.verdict
  by_cases hk : k = 0
  · subst hk
    rfl
  · have hb : (k == 0) = false := beq_eq_false_iff_ne.mpr hk
    rw [hb, Zone.judged, if_neg hk, Dev.verdictActs, if_neg hk]
    rfl

/-- A verdict acted upon: what it means for the state, the kind and the count of line faults. -/
structure Dev.VerdictTold (W D : Dev) (z k run : Nat) (es : List (Nat × Nat × Nat)) : Prop where
  acts : Dev.Acts (stateKindFields z) es W D
  events : es = let st := W.rd (Reg.ALM_ZSTAT_STATE z)
    if (k ≠ 0 ∧ W.rd Reg.ALM_SCFG_FAILN ≤ run) ∧ st ≠ 3 then [(8, 4, z + 2 ^ 8 + k * 2 ^ 9 + W.rd (Reg.ALM_ZSTAT_GAIN z) * 2 ^ 16)]
    else if k = 0 ∧ st = 3 ∧ W.rd Reg.ALM_SCFG_CLEARN ≤ run then [(8, 4, z + W.rd (Reg.ALM_ZSTAT_GAIN z) * 2 ^ 16)] else []
  state : D.rd (Reg.ALM_ZSTAT_STATE z) = let st := W.rd (Reg.ALM_ZSTAT_STATE z)
    if k ≠ 0 ∧ W.rd Reg.ALM_SCFG_FAILN ≤ run then 3 else if (k = 0 ∧ st = 3 ∧ W.rd Reg.ALM_SCFG_CLEARN ≤ run) ∨ st = 1 then 2 else st
  kind : D.rd (Reg.ALM_ZSTAT_KIND z) = let st := W.rd (Reg.ALM_ZSTAT_STATE z)
    if k ≠ 0 ∧ W.rd Reg.ALM_SCFG_FAILN ≤ run then k else if k = 0 ∧ st = 3 ∧ W.rd Reg.ALM_SCFG_CLEARN ≤ run then 0 else W.rd (Reg.ALM_ZSTAT_KIND z)
  count : D.rd Reg.ALM_LINEFAULTCNT_COUNT = let st := W.rd (Reg.ALM_ZSTAT_STATE z)
    if (k ≠ 0 ∧ W.rd Reg.ALM_SCFG_FAILN ≤ run) ∧ st ≠ 3 then (W.rd Reg.ALM_LINEFAULTCNT_COUNT + 1) % 2 ^ 32 else W.rd Reg.ALM_LINEFAULTCNT_COUNT

/-- A pending zone that its first verdict leaves in order. -/
theorem Dev.verified_told (W : Dev) (z : Fin 128) : Dev.Acts (stateKindFields z) [] W (W.wr (Reg.ALM_ZSTAT_STATE z) 2) ∧
    (W.wr (Reg.ALM_ZSTAT_STATE z) 2).rd (Reg.ALM_ZSTAT_STATE z) = 2 ∧
    (W.wr (Reg.ALM_ZSTAT_STATE z) 2).rd (Reg.ALM_ZSTAT_KIND z) = W.rd (Reg.ALM_ZSTAT_KIND z) ∧
    (W.wr (Reg.ALM_ZSTAT_STATE z) 2).rd Reg.ALM_LINEFAULTCNT_COUNT = W.rd Reg.ALM_LINEFAULTCNT_COUNT := by
  obtain ⟨o1, -⟩ := zone_seps z
  obtain ⟨s1, s2⟩ := (show ∀ z : Fin 128, (Reg.ALM_ZSTAT_STATE z).sep (Reg.ALM_ZSTAT_KIND z) = true ∧ (Reg.ALM_ZSTAT_STATE z).sep Reg.ALM_LINEFAULTCNT_COUNT = true by
    decide) z
  exact ⟨(Dev.Acts.refl _ W).wr 2 (by simp [stateKindFields]) o1, W.rd_wr_lt (Reg.ALM_ZSTAT_STATE z) 2 o1 (show 2 < 2 ^ 2 by decide), W.rd_wr_sep _ _ _ s1, W.rd_wr_sep _ _ _ s2⟩

theorem Dev.verdictActs_told (W : Dev) (z : Fin 128) (k run : Nat) (hk : k < 8) : ∃ es, Dev.VerdictTold W (W.verdictActs z k run) z k run es := by
  obtain ⟨-, -, -, -, -, l1, l2, -⟩ := zone_seps z
  obtain ⟨a1, a2, a3, a4⟩ := W.verified_told z
  unfold Dev.verdictActs
  by_cases h0 : k = 0
  · rw [if_pos h0]
    have hnf : ¬ (k ≠ 0 ∧ W.rd Reg.ALM_SCFG_FAILN ≤ run) := fun h => h.1 h0
    by_cases h1 : W.rd (Reg.ALM_ZSTAT_STATE z) = 1
    · rw [if_pos h1]
      refine ⟨[], a1, ?_, ?_, ?_, ?_⟩
      · simp [h0, h1]
      · rw [a2]
        simp [h0, h1]
      · rw [a3]
        simp [h0, h1]
      · rw [a4]
        simp [h0]
    · rw [if_neg h1]
      by_cases h3 : W.rd (Reg.ALM_ZSTAT_STATE z) = 3 ∧ W.rd Reg.ALM_SCFG_CLEARN ≤ run
      · rw [if_pos h3]
        obtain ⟨hA, v1, v2, v3, v4⟩ := W.zoneShown_told z 2 0 (by decide) (by decide)
        generalize (W.wr (Reg.ALM_ZSTAT_STATE z) 2).wr (Reg.ALM_ZSTAT_KIND z) 0 = S at hA v1 v2 v3 v4
        obtain ⟨hP, p1⟩ := S.postLine_told z false 0
        refine ⟨_, hA.trans (hP.mono fun f hf => List.mem_append_right _ hf), ?_, ?_, ?_, ?_⟩
        · rw [v3]
          simp [h0, h3, bit]
        · rw [hP.rd l1, v1]
          simp [h0, h3]
        · rw [hP.rd l2, v2]
          simp [h0, h3]
        · rw [p1, v4, bit]
          have := W.rd_lt Reg.ALM_LINEFAULTCNT_COUNT
          simp only [h0, ne_eq, not_true_eq_false, false_and, if_false]
          exact Nat.mod_eq_of_lt this
      · rw [if_neg h3]
        refine ⟨[], .refl _ W, ?_, ?_, ?_, ?_⟩
        · simp only [h0, ne_eq, not_true_eq_false, false_and, if_false, true_and, if_neg h3]
        · simp only [h0, ne_eq, not_true_eq_false, false_and, if_false, true_and, if_neg (not_or.mpr ⟨h3, h1⟩)]
        · simp only [h0, ne_eq, not_true_eq_false, false_and, if_false, true_and, if_neg h3]
        · simp [h0]
  · rw [if_neg h0]
    by_cases hf : W.rd Reg.ALM_SCFG_FAILN ≤ run
    · rw [if_pos hf]
      obtain ⟨hA, v1, v2, v3⟩ := W.zoneFault_told z k hk
      refine ⟨_, hA, ?_, ?_, ?_, ?_⟩
      · unfold Dev.faultPosts
        by_cases h3 : W.rd (Reg.ALM_ZSTAT_STATE z) = 3 <;> simp [h0, hf, h3]
      · rw [v1]
        simp [h0, hf]
      · rw [v2]
        simp [h0, hf]
      · rw [v3]
        by_cases h3 : W.rd (Reg.ALM_ZSTAT_STATE z) = 3 <;> simp [h0, hf, h3]
    · rw [if_neg hf]
      by_cases h1 : W.rd (Reg.ALM_ZSTAT_STATE z) = 1
      · rw [if_pos h1]
        refine ⟨[], a1, ?_, ?_, ?_, ?_⟩
        · simp [h0, hf]
        · rw [a2]
          simp [hf, h1]
        · rw [a3]
          simp [h0, hf]
        · rw [a4]
          simp [hf]
      · rw [if_neg h1]
        refine ⟨[], .refl _ W, ?_, ?_, ?_, ?_⟩
        · simp [h0, hf]
        · simp [h0, hf, h1]
        · simp [h0, hf]
        · simp [hf]

theorem verdict_seps : ∀ z : Fin 128, (Reg.ALM_ZSTAT_GAIN z).sep (Reg.ALM_ZSTAT_RUN z) = true ∧
    Fld.clear [Reg.ALM_ZSTAT_RUN z, Reg.ALM_ZSTAT_GAIN z] (Reg.ALM_ZSTAT_STATE z) = true ∧
    Fld.clear [Reg.ALM_ZSTAT_RUN z, Reg.ALM_ZSTAT_GAIN z] (Reg.ALM_ZSTAT_KIND z) = true ∧
    Fld.clear [Reg.ALM_ZSTAT_RUN z, Reg.ALM_ZSTAT_GAIN z] Reg.ALM_LINEFAULTCNT_COUNT = true ∧
    Fld.clear [Reg.ALM_ZSTAT_RUN z, Reg.ALM_ZSTAT_GAIN z] Reg.ALM_SCFG_FAILN = true ∧
    Fld.clear [Reg.ALM_ZSTAT_RUN z, Reg.ALM_ZSTAT_GAIN z] Reg.ALM_SCFG_CLEARN = true ∧
    Fld.clear (stateKindFields z) (Reg.ALM_ZSTAT_RUN z) = true ∧ Fld.clear (stateKindFields z) (Reg.ALM_ZSTAT_GAIN z) = true := by decide

theorem Dev.runOf_lt (d : Dev) (z : Nat) (passed : Bool) (k : Nat) : d.runOf z passed k < 2 ^ 4 := by
  unfold Dev.runOf
  split <;> omega

/-- The device with its zones as `m`. -/
theorem Dev.setZone_eq (d : Dev) (z : Nat) (x : Zone) : ∃ B : Dev, d.setZone z x = B ∧ B = { d with alm := { d.alm with zones := B.alm.zones } } ∧
    ∀ y, B.zone y = if y = z then x else d.zone y := ⟨_, rfl, rfl, fun y => d.zone_setZone z y x⟩

/-- What a verdict on zone `z` does to a device that differs from `s.dev` in its zones alone. -/
theorem verdict_taken {s : State} {d : Dev} {z : Fin 128} {k g : Nat} (hk : k < 8) (hg : g < 2 ^ 16) (hd : d = { s.dev with alm := { s.dev.alm with zones := d.alm.zones } })
    (ho : ∀ y, y ≠ z.val → d.zone y = s.dev.zone y) : let t : State := { s with dev := (d.verdict z k g).settle }
    VerdictTaken s t (d.zone z) z k g ∧ (∀ y, y ≠ z.val → t.dev.zone y = s.dev.zone y) ∧ OnlyFields (zoneFields z) s t ∧
      t.dev = Around { s.dev with alm := { s.dev.alm with zones := t.dev.alm.zones } } t.dev := by
  obtain ⟨-, -, o3, o4, -⟩ := zone_seps z
  obtain ⟨s1, c1, c2, c3, c4, c5, c6, c7⟩ := verdict_seps z
  have hdrd : ∀ f, d.rd f = s.dev.rd f := fun f => by
    rw [hd]
    rfl
  have hdt : d.tick = s.dev.tick := by rw [hd]
  rw [Dev.verdict_eq]
  have hrun : d.runOf z (d.zone z).pass k = if 0 < s.dev.rd (Reg.ALM_ZSTAT_RUN z) ∧ ((d.zone z).pass = true ↔ k = 0) then min 15 (s.dev.rd (Reg.ALM_ZSTAT_RUN z) + 1) else 1 := by
    rw [Dev.runOf, hdrd]
  have hlt := d.runOf_lt z (d.zone z).pass k
  rw [hdt]
  obtain ⟨B, hB, hBo, hBz⟩ := d.setZone_eq z ((d.zone z).judged k s.dev.tick)
  have hbase : B = { s.dev with alm := { s.dev.alm with zones := B.alm.zones } } := by rw [hBo, hd]
  generalize d.runOf z (d.zone z).pass k = run at hrun hlt
  unfold Dev.verdictNoted
  rw [hB]
  have hBrd : ∀ f, B.rd f = s.dev.rd f := fun f => by
    rw [hbase]
    rfl
  have hW : Dev.Acts [Reg.ALM_ZSTAT_RUN z, Reg.ALM_ZSTAT_GAIN z] [] B ((B.wr (Reg.ALM_ZSTAT_RUN z) run).wr (Reg.ALM_ZSTAT_GAIN z) g) :=
    ((Dev.Acts.refl _ B).wr run (by simp) o3).wr g (by simp) o4
  have w1 : ((B.wr (Reg.ALM_ZSTAT_RUN z) run).wr (Reg.ALM_ZSTAT_GAIN z) g).rd (Reg.ALM_ZSTAT_RUN z) = run := by
    rw [Dev.rd_wr_sep _ _ _ _ s1, Dev.rd_wr_lt _ (Reg.ALM_ZSTAT_RUN z) run o3 hlt]
  have w2 : ((B.wr (Reg.ALM_ZSTAT_RUN z) run).wr (Reg.ALM_ZSTAT_GAIN z) g).rd (Reg.ALM_ZSTAT_GAIN z) = g := by
    rw [Dev.rd_wr_lt _ (Reg.ALM_ZSTAT_GAIN z) g o4 hg]
  generalize (B.wr (Reg.ALM_ZSTAT_RUN z) run).wr (Reg.ALM_ZSTAT_GAIN z) g = W at hW w1 w2
  obtain ⟨es, hV⟩ := W.verdictActs_told z k run hk
  generalize W.verdictActs z k run = D at hV
  have hf : ∀ f, Fld.clear [Reg.ALM_ZSTAT_RUN z, Reg.ALM_ZSTAT_GAIN z] f = true → W.rd f = s.dev.rd f := fun f h => (hW.rd h).trans (hBrd f)
  have hT : Dev.Acts (zoneFields z) es B D := by
    have h1 : Dev.Acts (zoneFields z) [] B W := hW.mono (by simp [zoneFields])
    exact h1.trans (hV.acts.mono (by simp [zoneFields, stateKindFields, lineFields]))
  have hzone : ∀ y, D.settle.zone y = if y = z.val then (d.zone z).judged k s.dev.tick else d.zone y := fun y => by
    refine Eq.trans ?_ (hBz y)
    rw [Dev.zone, Dev.settle_alm, hT.rest.2.2.2.2, Dev.zone]
  have hev := hV.events
  have hst := hV.state
  have hkd := hV.kind
  have hct := hV.count
  rw [hf _ c1, hf _ c4, hf _ c5, w2] at hev
  rw [hf _ c1, hf _ c4, hf _ c5] at hst
  rw [hf _ c1, hf _ c2, hf _ c4, hf _ c5] at hkd
  rw [hf _ c1, hf _ c3, hf _ c4] at hct
  have hset : ∀ f, D.settle.rd f = D.rd f := fun f => Dev.settle_rd D f
  intro t
  refine ⟨⟨?_, ?_, ?_, ?_, ?_, ?_, fun hr => ?_⟩, fun y hy => ?_, fun f hf hh => ?_, ?_⟩
  · exact (hset _).trans ((hV.acts.rd c6).trans (w1.trans hrun))
  · exact (hset _).trans ((hV.acts.rd c7).trans w2)
  · exact (hzone z).trans (if_pos rfl)
  · rw [← hrun]
    exact (hset _).trans hst
  · rw [← hrun]
    exact (hset _).trans hkd
  · rw [← hrun]
    exact (hset _).trans hct
  · rw [← hrun]
    have hE := hT.enters (s := s) (by rw [hbase]) (by rw [hbase]) 8 (by decide) (by rw [hev]; dsimp only; split_ifs <;> simp) (by rw [hev]; dsimp only; split_ifs <;> simp) hr
      (show t.dev = D.settle from rfl)
    rw [hev] at hE
    exact hE
  · exact (hzone y).trans ((if_neg hy).trans (ho y hy))
  · exact (hset f).trans ((hT.same f hf hh).trans (hBrd f))
  · have hz : t.dev.alm.zones = B.alm.zones := congrArg Alm.zones hT.rest.2.2.2.2
    rw [hz, ← hbase]
    exact hT.around

/-! ### PILOT_ON, PILOT_WINDOW and UNVERIFIED -/

theorem execPilotOn_eq (s : State) (z : Fin 128) : exec (.pilotOn z) s = onDev (fun d =>
    if d.on (Reg.ALM_ZCFG_EN z) && d.on (Reg.ALM_ZCFG_PILOT_EN z) && !d.on (Reg.ALM_ZSTAT_PILOT z)
        && decide ((d.zone z).heard + 8000 * d.rd Reg.ALM_SCFG_PILOT_AFTER ≤ d.tick) then
      (d.wr (Reg.ALM_ZSTAT_PILOT z) 1).setZone z
        { d.zone z with discard := true, ramp := false, winAt := d.tick, accS := 0, accC := 0 }
    else d) s := rfl

theorem Dev.quiet_iff (d : Dev) (z : Nat) : (d.on (Reg.ALM_ZCFG_EN z) && d.on (Reg.ALM_ZCFG_PILOT_EN z) && !d.on (Reg.ALM_ZSTAT_PILOT z)
        && decide ((d.zone z).heard + 8000 * d.rd Reg.ALM_SCFG_PILOT_AFTER ≤ d.tick)) = true ↔
    d.rd (Reg.ALM_ZCFG_EN z) = 1 ∧ d.rd (Reg.ALM_ZCFG_PILOT_EN z) = 1 ∧ ¬ d.rd (Reg.ALM_ZSTAT_PILOT z) = 1 ∧
      (d.zone z).heard + 8000 * d.rd Reg.ALM_SCFG_PILOT_AFTER ≤ d.tick := by
  rw [Bool.and_eq_true, Bool.and_eq_true, Bool.and_eq_true, Dev.on_true_iff, Dev.on_true_iff, Bool.not_eq_true', ← Bool.not_eq_true, Dev.on_true_iff,
    decide_eq_true_eq, and_assoc, and_assoc]

theorem pilotOn_waits {s : State} {z : Fin 128} (h : ¬ (s.dev.rd (Reg.ALM_ZCFG_EN z) = 1 ∧ s.dev.rd (Reg.ALM_ZCFG_PILOT_EN z) = 1 ∧
    ¬ s.dev.rd (Reg.ALM_ZSTAT_PILOT z) = 1 ∧ (s.dev.zone z).heard + 8000 * s.dev.rd Reg.ALM_SCFG_PILOT_AFTER ≤ s.dev.tick)) :
    ∃ t, Runs (.pilotOn z) s t ∧ Keeps [] s t s.dev := by
  have hrun := runs_of_onDev (execPilotOn_eq s z)
  rw [if_neg fun hc => h ((s.dev.quiet_iff z).mp hc)] at hrun
  exact ⟨_, hrun, fun _ _ => rfl, rfl⟩

theorem pilotOn_starts {s : State} {z : Fin 128} (h : s.dev.rd (Reg.ALM_ZCFG_EN z) = 1 ∧ s.dev.rd (Reg.ALM_ZCFG_PILOT_EN z) = 1 ∧
    ¬ s.dev.rd (Reg.ALM_ZSTAT_PILOT z) = 1 ∧ (s.dev.zone z).heard + 8000 * s.dev.rd Reg.ALM_SCFG_PILOT_AFTER ≤ s.dev.tick) :
    ∃ t, Runs (.pilotOn z) s t ∧ t.dev.rd (Reg.ALM_ZSTAT_PILOT z) = 1 ∧
      t.dev.zone z = { s.dev.zone z with winAt := s.dev.tick, accS := 0, accC := 0, discard := true, ramp := false } ∧
      (∀ y, y ≠ z.val → t.dev.zone y = s.dev.zone y) ∧ OnlyFields [Reg.ALM_ZSTAT_PILOT z] s t ∧
      t.dev = Around { s.dev with alm := { s.dev.alm with zones := t.dev.alm.zones } } t.dev := by
  obtain ⟨-, -, -, -, o5, -⟩ := zone_seps z
  have hrun := runs_of_onDev (execPilotOn_eq s z)
  rw [if_pos ((s.dev.quiet_iff z).mpr h)] at hrun
  have hA := s.dev.wr_acts (Reg.ALM_ZSTAT_PILOT z) 1 o5
  have hv := s.dev.rd_wr_lt (Reg.ALM_ZSTAT_PILOT z) 1 o5 (show 1 < 2 ^ 1 by decide)
  generalize s.dev.wr (Reg.ALM_ZSTAT_PILOT z) 1 = W at hA hv hrun
  have hWz : ∀ y, W.zone y = s.dev.zone y := fun y => by rw [Dev.zone, hA.rest.2.2.2.2, Dev.zone]
  obtain ⟨B, hB, hBo, hBz⟩ := W.setZone_eq z { s.dev.zone z with winAt := s.dev.tick, accS := 0, accC := 0, discard := true, ramp := false }
  rw [hB] at hrun
  have hBrd : ∀ f, B.settle.rd f = W.rd f := fun f => by
    rw [hBo]
    rfl
  refine ⟨_, hrun, (hBrd _).trans hv, (hBz z).trans (if_pos rfl), fun y hy => (hBz y).trans ((if_neg hy).trans (hWz y)), fun f hf hh => (hBrd f).trans (hA.same f hf hh), ?_⟩
  have ho := hA.onlyLive
  change B.settle = Around { s.dev with alm := { s.dev.alm with zones := B.alm.zones } } B.settle
  refine Dev.around_of_eq ?_
  generalize B.alm.zones = Z at hBo
  rw [hBo, ho]

theorem execPilotWindow_eq (s : State) (z : Fin 128) : exec (.pilotWindow z) s = onDev (fun d =>
    if !d.on (Reg.ALM_ZCFG_EN z) || !d.on (Reg.ALM_ZSTAT_PILOT z) || decide (d.tick < (d.zone z).winAt + 8000) then d
    else if (d.zone z).discard then d.setZone z { d.zone z with discard := false, winAt := d.tick, accS := 0, accC := 0 }
    else (d.setZone z { d.zone z with discard := false, winAt := d.tick, accS := 0, accC := 0 }).verdict z
      (if d.gainOf (d.zone z) < (d.setZone z { d.zone z with discard := false, winAt := d.tick, accS := 0, accC := 0 }).rd (Reg.ALM_ZPLIM_PLO z) then 1
       else if d.gainOf (d.zone z) > (d.setZone z { d.zone z with discard := false, winAt := d.tick, accS := 0, accC := 0 }).rd (Reg.ALM_ZPLIM_PHI z) then 2 else 0)
      (d.gainOf (d.zone z))) s := rfl

theorem Dev.windowOpen_iff (d : Dev) (z : Nat) : (!d.on (Reg.ALM_ZCFG_EN z) || !d.on (Reg.ALM_ZSTAT_PILOT z) || decide (d.tick < (d.zone z).winAt + 8000)) = true ↔
    ¬ (d.rd (Reg.ALM_ZCFG_EN z) = 1 ∧ d.rd (Reg.ALM_ZSTAT_PILOT z) = 1 ∧ (d.zone z).winAt + 8000 ≤ d.tick) := by
  rw [← Dev.on_true_iff, ← Dev.on_true_iff (f := Reg.ALM_ZSTAT_PILOT z), Bool.or_eq_true, Bool.or_eq_true, decide_eq_true_eq, Bool.not_eq_true', Bool.not_eq_true',
    ← Bool.not_eq_true, ← Bool.not_eq_true, ← Nat.not_le]
  tauto

theorem satTo_lt (n x : Nat) : satTo n x < 2 ^ n := by
  have := Nat.pos_of_ne_zero (show (2 : Nat) ^ n ≠ 0 by positivity)
  unfold satTo
  omega

theorem Dev.gainOf_lt (d : Dev) (x : Zone) : d.gainOf x < 2 ^ 16 := satTo_lt 16 _

theorem pilotWindow_waits {s : State} {z : Fin 128}
    (h : ¬ (s.dev.rd (Reg.ALM_ZCFG_EN z) = 1 ∧ s.dev.rd (Reg.ALM_ZSTAT_PILOT z) = 1 ∧ (s.dev.zone z).winAt + 8000 ≤ s.dev.tick)) :
    ∃ t, Runs (.pilotWindow z) s t ∧ Keeps [] s t s.dev := by
  have hrun := runs_of_onDev (execPilotWindow_eq s z)
  rw [if_pos ((s.dev.windowOpen_iff z).mpr h)] at hrun
  exact ⟨_, hrun, fun _ _ => rfl, rfl⟩

theorem pilotWindow_discards {s : State} {z : Fin 128}
    (h : s.dev.rd (Reg.ALM_ZCFG_EN z) = 1 ∧ s.dev.rd (Reg.ALM_ZSTAT_PILOT z) = 1 ∧ (s.dev.zone z).winAt + 8000 ≤ s.dev.tick)
    (hd : (s.dev.zone z).discard = true) : ∃ t, Runs (.pilotWindow z) s t ∧
      t.dev.zone z = { s.dev.zone z with winAt := s.dev.tick, accS := 0, accC := 0, discard := false } ∧ (∀ y, y ≠ z.val → t.dev.zone y = s.dev.zone y) ∧
      Keeps [] s t { s.dev with alm := { s.dev.alm with zones := t.dev.alm.zones } } := by
  have hrun := runs_of_onDev (execPilotWindow_eq s z)
  rw [if_neg fun hc => (s.dev.windowOpen_iff z).mp hc h, if_pos hd] at hrun
  refine ⟨_, hrun, (s.dev.zone_setZone z z _).trans (if_pos rfl), fun y hy => (s.dev.zone_setZone z y _).trans (if_neg hy), fun _ _ => rfl, rfl⟩

theorem pilotWindow_judges {s : State} {z : Fin 128}
    (h : s.dev.rd (Reg.ALM_ZCFG_EN z) = 1 ∧ s.dev.rd (Reg.ALM_ZSTAT_PILOT z) = 1 ∧ (s.dev.zone z).winAt + 8000 ≤ s.dev.tick)
    (hd : (s.dev.zone z).discard = false) : let x := s.dev.zone z
      let g := s.dev.gainOf x
      ∃ t, Runs (.pilotWindow z) s t ∧
        VerdictTaken s t { x with winAt := s.dev.tick, accS := 0, accC := 0 } z
          (if g < s.dev.rd (Reg.ALM_ZPLIM_PLO z) then 1 else if s.dev.rd (Reg.ALM_ZPLIM_PHI z) < g then 2 else 0) g ∧
        (∀ y, y ≠ z.val → t.dev.zone y = s.dev.zone y) ∧ OnlyFields (zoneFields z) s t ∧
        t.dev = Around { s.dev with alm := { s.dev.alm with zones := t.dev.alm.zones } } t.dev := by
  intro x g
  have hrun := runs_of_onDev (execPilotWindow_eq s z)
  rw [if_neg fun hc => (s.dev.windowOpen_iff z).mp hc h, if_neg (by rw [hd]; decide)] at hrun
  have hx : ({ x with discard := false, winAt := s.dev.tick, accS := 0, accC := 0 } : Zone) = { x with winAt := s.dev.tick, accS := 0, accC := 0 } := by rw [← hd]
  have hz : ∀ y, (s.dev.setZone z { x with discard := false, winAt := s.dev.tick, accS := 0, accC := 0 }).zone y =
      if y = z.val then { x with winAt := s.dev.tick, accS := 0, accC := 0 } else s.dev.zone y := fun y => by rw [Dev.zone_setZone, hx]
  have hk : (if g < s.dev.rd (Reg.ALM_ZPLIM_PLO z) then 1 else if s.dev.rd (Reg.ALM_ZPLIM_PHI z) < g then 2 else 0) < 8 := by split_ifs <;> decide
  have hT := verdict_taken (s := s) (d := s.dev.setZone z { x with discard := false, winAt := s.dev.tick, accS := 0, accC := 0 }) (z := z)
    hk (s.dev.gainOf_lt x) rfl fun y hy => (hz y).trans (if_neg hy)
  rw [hz z, if_pos rfl] at hT
  exact ⟨_, hrun, hT⟩

theorem execUnverified_eq (s : State) (z : Fin 128) : exec (.unverified z) s = onDev (fun d =>
    if d.on (Reg.ALM_ZCFG_EN z) && decide ((d.zone z).passAt + 8000 * d.rd Reg.ALM_SCFG_VERIFY_MAX ≤ d.tick) then (d.zoneFault z 4).refreshFaults else d) s := rfl

theorem Dev.unproved_iff (d : Dev) (z : Nat) : (d.on (Reg.ALM_ZCFG_EN z) && decide ((d.zone z).passAt + 8000 * d.rd Reg.ALM_SCFG_VERIFY_MAX ≤ d.tick)) = true ↔
    d.rd (Reg.ALM_ZCFG_EN z) = 1 ∧ (d.zone z).passAt + 8000 * d.rd Reg.ALM_SCFG_VERIFY_MAX ≤ d.tick := by
  rw [Bool.and_eq_true, Dev.on_true_iff, decide_eq_true_eq]

theorem unverified_waits {s : State} {z : Fin 128}
    (h : ¬ (s.dev.rd (Reg.ALM_ZCFG_EN z) = 1 ∧ (s.dev.zone z).passAt + 8000 * s.dev.rd Reg.ALM_SCFG_VERIFY_MAX ≤ s.dev.tick)) :
    ∃ t, Runs (.unverified z) s t ∧ Keeps [] s t s.dev := by
  have hrun := runs_of_onDev (execUnverified_eq s z)
  rw [if_neg fun hc => h ((s.dev.unproved_iff z).mp hc)] at hrun
  exact ⟨_, hrun, fun _ _ => rfl, rfl⟩

theorem unverified_faults {s : State} {z : Fin 128}
    (h : s.dev.rd (Reg.ALM_ZCFG_EN z) = 1 ∧ (s.dev.zone z).passAt + 8000 * s.dev.rd Reg.ALM_SCFG_VERIFY_MAX ≤ s.dev.tick) :
    let st := s.dev.rd (Reg.ALM_ZSTAT_STATE z)
      ∃ t, Runs (.unverified z) s t ∧ t.dev.rd (Reg.ALM_ZSTAT_STATE z) = 3 ∧ t.dev.rd (Reg.ALM_ZSTAT_KIND z) = 4 ∧ FaultsShown s t ∧
        t.dev.rd Reg.ALM_LINEFAULTCNT_COUNT =
          (if st = 3 then s.dev.rd Reg.ALM_LINEFAULTCNT_COUNT else (s.dev.rd Reg.ALM_LINEFAULTCNT_COUNT + 1) % 2 ^ 32) ∧
        OnlyFields ([Reg.ALM_ZSTAT_STATE z, Reg.ALM_ZSTAT_KIND z, Reg.ALM_STATUS_SURVEV, Reg.ALM_LINEFAULTCNT_COUNT, Reg.ALM_STATUS_CNT_HALF] ++
          Claims.faultFields) s t ∧ t.dev = Around s.dev t.dev ∧
        (Room s → EntersAll s t ((if st = 3 then [] else
          [(8, 4, z + 2 ^ 8 + 4 * 2 ^ 9 + s.dev.rd (Reg.ALM_ZSTAT_GAIN z) * 2 ^ 16)]) ++ faultEvent s t)) := by
  intro st
  have hrun := runs_of_onDev (execUnverified_eq s z)
  rw [if_pos ((s.dev.unproved_iff z).mpr h)] at hrun
  obtain ⟨hA, v1, v2, v3⟩ := s.dev.zoneFault_told z 4 (by decide)
  generalize s.dev.zoneFault z 4 = D at hA v1 v2 v3 hrun
  obtain ⟨c1, c2, c3⟩ := (show ∀ z : Fin 128, (∀ f ∈ Claims.faultFields, Fld.clear (stateKindFields z) f = true) ∧ Fld.clear almFields (Reg.ALM_ZSTAT_STATE z) = true ∧
    Fld.clear almFields (Reg.ALM_ZSTAT_KIND z) = true by decide) z
  obtain ⟨f1, f2, f3, f4, f5⟩ := shown_of (s := s) (t := { s with dev := D.refreshFaults.settle }) ⟨rfl, rfl, rfl⟩ hA c1 rfl
  refine ⟨_, hrun, (f4 _ c2).trans v1, (f4 _ c3).trans v2, f1, (f4 _ (by decide)).trans v3, f2, f3, f5 ?_ ?_⟩
  · unfold Dev.faultPosts
    split <;> simp
  · unfold Dev.faultPosts
    split <;> simp

theorem zonesFollowTheirVerdicts : ZonesFollowTheirVerdicts := fun _ _ =>
  ⟨pilotOn_waits, pilotOn_starts, pilotWindow_waits, pilotWindow_discards, pilotWindow_judges, unverified_waits, unverified_faults⟩

/-- Settles O57. -/
theorem alarmsWatchdogAndZones : Obligations.AlarmsWatchdogAndZones := ⟨alarmInputsFollowTheirPins, watchdogAndStandingProgram, zonesFollowTheirVerdicts⟩

end Sys2Proof.Machine
end

section
/-! The states of the hearths and the commands of HRT (R424, R430, R439, R441, R442). -/
namespace Sys2Proof.Machine
open Sys2Proof.Claims

theorem Dev.hh_setHh (d : Dev) (h : Nat) (x : HrtH) (i : Nat) : (d.setHh h x).hh i = if (h = 0 ↔ i = 0) then x else d.hh i := by
  unfold Dev.hh Dev.setHh
  by_cases hh : h = 0 <;> by_cases hi : i = 0 <;> simp [hh, hi]

theorem Dev.hh_setHh_self (d : Dev) (h : Nat) (x : HrtH) : (d.setHh h x).hh h = x := by rw [Dev.hh_setHh, if_pos Iff.rfl]

theorem Dev.hh_setHh_other (d : Dev) {h : Nat} (x : HrtH) (hh : h < 2) : (d.setHh h x).hh (1 - h) = d.hh (1 - h) := by
  rw [Dev.hh_setHh, if_neg (by omega)]

theorem Dev.hh_congr {d D : Dev} (h : D.hrt = d.hrt) (i : Nat) : D.hh i = d.hh i := by rw [Dev.hh, h, Dev.hh]

/-- Beside the fields `fs` and the events `es`, only the hearths' own states change. -/
structure Dev.OnHrt (fs : List Fld) (es : List (Nat × Nat × Nat)) (d D : Dev) : Prop where
  only : D = { d with live := D.live, evq := { d.evq with posts := d.evq.posts ++ es }, hrt := D.hrt }
  same : Dev.SameBut fs d D

theorem Dev.OnHrt.trans {fs : List Fld} {es es' : List (Nat × Nat × Nat)} {d d' d'' : Dev} (h : Dev.OnHrt fs es d d') (h' : Dev.OnHrt fs es' d' d'') :
    Dev.OnHrt fs (es ++ es') d d'' := by
  refine ⟨?_, h.same.trans h'.same⟩
  rw [h'.only, h.only, List.append_assoc]

theorem Dev.OnHrt.of_hrt (fs : List Fld) (d : Dev) (x : Hrt) : Dev.OnHrt fs [] d { d with hrt := x } := by
  refine ⟨?_, .of_live rfl⟩
  rw [List.append_nil]

theorem Dev.OnHrt.refl (fs : List Fld) (d : Dev) : Dev.OnHrt fs [] d d := .of_hrt fs d d.hrt

theorem Dev.OnHrt.setHh (fs : List Fld) (d : Dev) (h : Nat) (x : HrtH) : Dev.OnHrt fs [] d (d.setHh h x) := by
  unfold Dev.setHh
  split
  · exact .of_hrt fs d _
  · exact .of_hrt fs d _

theorem Dev.Acts.onHrt {fs : List Fld} {es : List (Nat × Nat × Nat)} {d D : Dev} (h : Dev.Acts fs es d D) : Dev.OnHrt fs es d D := by
  refine ⟨?_, h.same⟩
  rw [h.only]

theorem Dev.Acts.hrt {fs : List Fld} {es : List (Nat × Nat × Nat)} {d D : Dev} (h : Dev.Acts fs es d D) : D.hrt = d.hrt := by rw [h.only]

/-- HSTATE. -/
theorem Dev.postState_told (d : Dev) (h : Nat) :
    Dev.Acts [Reg.HRT_STATUS_HSTEV] [(7, 2, h + (d.hh h).st.code * 2 + bit (d.hh h).suspect * 2 ^ 4)] d (d.postState h) ∧
      (d.postState h).rd Reg.HRT_STATUS_HSTEV = 1 := by
  have hdef : d.postState h = (d.flag Reg.HRT_STATUS_HSTEV).post 7 2 (h + (d.hh h).st.code * 2 + bit (d.hh h).suspect * 2 ^ 4) := rfl
  rw [hdef]
  refine ⟨((Dev.Acts.refl _ d).flag (f := Reg.HRT_STATUS_HSTEV) (by simp) rfl).post .., ?_⟩
  rw [Dev.post_rd, Dev.rd_flag _ _ rfl]

theorem Dev.setHh_hrt (d : Dev) (h : Nat) (x : HrtH) : (d.setHh h x).hrt = { d.hrt with a := (d.setHh h x).hrt.a, b := (d.setHh h x).hrt.b } := by
  unfold Dev.setHh
  split <;> rfl

/-- What a change of the state of hearth `h` to `st` does. -/
structure Dev.StateSet (d D : Dev) (h : Nat) (st : HState) : Prop where
  on : ∃ es, Dev.OnHrt [Reg.HRT_STATUS_HSTEV] es d D
  hrt : D.hrt = { d.hrt with a := D.hrt.a, b := D.hrt.b }
  other : D.hh (1 - h) = d.hh (1 - h)
  own : ∃ k, D.hh h = { d.hh h with st := st, syncSince := k }
  shown : (d.hh h).st ≠ st → D.rd Reg.HRT_STATUS_HSTEV = 1

theorem Dev.setState_told (d : Dev) {h : Nat} (hh : h < 2) (st : HState) : Dev.StateSet d (d.setState h st) h st := by
  unfold Dev.setState
  dsimp only
  split
  case isTrue he => exact ⟨⟨_, .refl _ d⟩, rfl, rfl, ⟨(d.hh h).syncSince, by rw [← he]⟩, fun hn => absurd he hn⟩
  case isFalse he =>
    generalize hx : ({ d.hh h with st := st, syncSince := if st = .syncing then d.tick else (d.hh h).syncSince } : HrtH) = x
    have hS := Dev.OnHrt.setHh [Reg.HRT_STATUS_HSTEV] d h x
    have h1 := d.hh_setHh_self h x
    have h2 := d.hh_setHh_other x hh
    have h3 := d.setHh_hrt h x
    generalize d.setHh h x = S at hS h1 h2 h3
    obtain ⟨hP, v⟩ := S.postState_told h
    generalize S.postState h = P at hP v
    refine ⟨⟨_, hS.trans hP.onHrt⟩, ?_, (Dev.hh_congr hP.hrt _).trans h2, ⟨_, (Dev.hh_congr hP.hrt _).trans (h1.trans hx.symm)⟩, fun _ => v⟩
    rw [hP.hrt]
    exact h3

/-- What showing the state of hearth `h` in the current tick does (R430). -/
structure Dev.Refreshed (d D : Dev) (h : Nat) : Prop where
  on : ∃ es, Dev.OnHrt [Reg.HRT_STATUS_HSTEV] es d D
  copy : D.hrt.copy = d.hrt.copy
  other : D.hh (1 - h) = d.hh (1 - h)
  own : ∃ st k, D.hh h = { d.hh h with st := st, syncSince := k }
  state : TakesCopies (d.hh h) → (D.hh h).st =
    if (d.hh h).recopy = false ∧ ∃ q, (d.hh h).last = some q ∧ d.tick ≤ q + 2 then .standby else .syncing

theorem Dev.recent_iff (d : Dev) (x : HrtH) : (!x.recopy && x.last.any fun q => decide (d.tick ≤ q + 2)) = true ↔
    x.recopy = false ∧ ∃ q, x.last = some q ∧ d.tick ≤ q + 2 := by
  rw [Bool.and_eq_true, Bool.not_eq_true']
  refine and_congr_right fun _ => ?_
  cases x.last <;> simp

theorem Dev.refresh_told (d : Dev) {h : Nat} (hh : h < 2) : Dev.Refreshed d (d.refresh h) h := by
  unfold Dev.refresh
  dsimp only
  split
  case isFalse hn => exact ⟨⟨_, .refl _ d⟩, rfl, rfl, ⟨(d.hh h).st, (d.hh h).syncSince, rfl⟩, fun ht => absurd ht hn⟩
  case isTrue ht =>
    have hst : (if (!(d.hh h).recopy && (d.hh h).last.any fun q => decide (d.tick ≤ q + 2)) then HState.standby else HState.syncing) =
        if (d.hh h).recopy = false ∧ ∃ q, (d.hh h).last = some q ∧ d.tick ≤ q + 2 then .standby else .syncing := if_congr (d.recent_iff _) rfl rfl
    generalize hg : (!(d.hh h).recopy && (d.hh h).last.any fun q => decide (d.tick ≤ q + 2)) = recent at hst
    have hS := d.setState_told hh (if recent then HState.standby else HState.syncing)
    generalize d.setState h (if recent then HState.standby else HState.syncing) = S at hS
    obtain ⟨⟨es, on⟩, hrt, other, ⟨k, own⟩, -⟩ := hS
    have hcopy : S.hrt.copy = d.hrt.copy := by rw [hrt]
    split
    · refine ⟨⟨_, on.trans (.of_hrt _ S _)⟩, hcopy, other, ⟨_, k, own⟩, fun _ => ?_⟩
      exact (congrArg HrtH.st own).trans hst
    · exact ⟨⟨_, on⟩, hcopy, other, ⟨_, k, own⟩, fun _ => (congrArg HrtH.st own).trans hst⟩

/-! ### Results of HRT -/

theorem Dev.hrtResult_told (d : Dev) (c : Nat) (hc : c < 2 ^ 8) : Dev.Acts [Reg.HRT_CMDRES_REASON, Reg.HRT_CMDRES_VALID] [] d (d.hrtResult c) ∧
    (d.hrtResult c).rd Reg.HRT_CMDRES_REASON = c ∧ (d.hrtResult c).rd Reg.HRT_CMDRES_VALID = 1 := by
  refine ⟨((Dev.Acts.refl _ d).wr (f := Reg.HRT_CMDRES_REASON) c (by simp) rfl).wr (f := Reg.HRT_CMDRES_VALID) 1 (by simp) rfl, ?_, ?_⟩
  · unfold Dev.hrtResult
    rw [Dev.rd_wr_sep _ _ _ _ (by decide), Dev.rd_wr_lt _ _ _ rfl hc]
  · unfold Dev.hrtResult
    rw [Dev.rd_wr_lt _ Reg.HRT_CMDRES_VALID 1 rfl (show 1 < 2 ^ 1 by decide)]

/-- A command of HRT with the result `c` on the device `B`, whose registers are those of `s`. -/
theorem hrtResult_of {s : State} {B : Dev} {c : Nat} (hB : B.live = s.dev.live) (hc : c < 2 ^ 8) :
    HrtResult { s with dev := (B.hrtResult c).settle } c ∧
      OnlyFields [Reg.HRT_CMDRES_REASON, Reg.HRT_CMDRES_VALID] s { s with dev := (B.hrtResult c).settle } ∧
      (B.hrtResult c).settle = Around B (B.hrtResult c).settle := by
  obtain ⟨hA, v1, v2⟩ := B.hrtResult_told c hc
  generalize B.hrtResult c = D at hA v1 v2
  refine ⟨⟨(Dev.settle_rd D _).trans v1, (Dev.settle_rd D _).trans v2⟩, fun g hg ha => ?_, hA.around⟩
  refine (Dev.settle_rd D g).trans ((hA.same g hg ha).trans ?_)
  rw [Dev.rd, Dev.word, hB, Dev.rd, Dev.word]

/-! ### SWAP and the device's own request (R439, R442) -/

/-- The conditions under which a swap is refused, each with its code, in the order in which they are tested. -/
def swapFails (d : Dev) : List (Prop × Nat) :=
  [(d.rd Reg.HRT_CFG_MODE = 1 ∨ (d.hh (1 - d.hrt.active)).st ≠ .standby, 0x11), ((d.hh (1 - d.hrt.active)).suspect = true, 0x12),
    (d.alarmActive = true ∨ d.rd Reg.SCH_STATUS_HELD = 1, 0x13)]

theorem Dev.swapRefusal_eq (d : Dev) : d.swapRefusal =
    if d.rd Reg.HRT_CFG_MODE = 1 ∨ (d.hh (1 - d.hrt.active)).st ≠ .standby then some 0x11
    else if (d.hh (1 - d.hrt.active)).suspect then some 0x12
    else if d.alarmActive || d.on Reg.SCH_STATUS_HELD then some 0x13
    else none := rfl

theorem Dev.heldActive_iff (d : Dev) : (d.alarmActive || d.on Reg.SCH_STATUS_HELD) = true ↔ d.alarmActive = true ∨ d.rd Reg.SCH_STATUS_HELD = 1 := by
  rw [Bool.or_eq_true, Dev.on_true_iff]

/-- The first condition that holds names the refusal. -/
theorem Dev.swapRefusal_first (d : Dev) {p q : List (Prop × Nat)} {c : Prop} {code : Nat} (h : swapFails d = p ++ (c, code) :: q) (hc : c) (hp : ∀ e ∈ p, ¬ e.1) :
    d.swapRefusal = some code ∧ code < 2 ^ 8 := by
  rw [Dev.swapRefusal_eq]
  unfold swapFails at h
  match p, h, hp with
  | [], h, _ =>
    obtain ⟨h, -⟩ := List.cons.inj h
    obtain ⟨rfl, rfl⟩ := Prod.mk.inj h
    exact ⟨if_pos hc, by decide⟩
  | [a], h, hp =>
    obtain ⟨h1, h⟩ := List.cons.inj h
    obtain ⟨h, -⟩ := List.cons.inj h
    obtain ⟨rfl, rfl⟩ := Prod.mk.inj h
    subst h1
    exact ⟨(if_neg (hp _ (List.mem_cons_self ..))).trans (if_pos hc), by decide⟩
  | [a, b], h, hp =>
    obtain ⟨h1, h⟩ := List.cons.inj h
    obtain ⟨h2, h⟩ := List.cons.inj h
    obtain ⟨h, -⟩ := List.cons.inj h
    obtain ⟨rfl, rfl⟩ := Prod.mk.inj h
    subst h1
    subst h2
    exact ⟨(if_neg (hp _ (List.mem_cons_self ..))).trans ((if_neg (hp _ (List.mem_cons_of_mem _ (List.mem_cons_self ..)))).trans (if_pos (d.heldActive_iff.mpr hc))), by decide⟩
  | a :: b :: e :: r, h, _ => simp at h

theorem Dev.swapRefusal_none (d : Dev) (h : ∀ e ∈ swapFails d, ¬ e.1) : d.swapRefusal = none := by
  unfold swapFails at h
  have h1 := h _ (List.mem_cons_self ..)
  have h2 := h _ (List.mem_cons_of_mem _ (List.mem_cons_self ..))
  have h3 := h _ (List.mem_cons_of_mem _ (List.mem_cons_of_mem _ (List.mem_cons_self ..)))
  rw [Dev.swapRefusal_eq, if_neg h1, if_neg h2, if_neg fun hc => h3 (d.heldActive_iff.mp hc)]

theorem Dev.swapRefusal_some (d : Dev) (h : ∃ e ∈ swapFails d, e.1) : d.swapRefusal.isSome = true := by
  rw [Dev.swapRefusal_eq]
  split
  · rfl
  · split
    · rfl
    · split
      · rfl
      · obtain ⟨e, hm, he⟩ := h
        simp only [swapFails, List.mem_cons, List.not_mem_nil, or_false] at hm
        obtain rfl | rfl | rfl := hm
        · contradiction
        · contradiction
        · exact absurd (d.heldActive_iff.mpr he) (by assumption)

theorem Dev.requestSwap_refused {d : Dev} {c : Nat} (h : d.swapRefusal = some c) : d.requestSwap = d.hrtResult c := by
  rw [Dev.requestSwap, h]

/-- A swap asked for. -/
def Dev.swapAsked (d : Dev) : Dev := { d with hrt := { d.hrt with swapPend := true } }

theorem Dev.requestSwap_granted {d : Dev} (h : d.swapRefusal = none) : d.requestSwap = d.swapAsked.hrtResult 0 := by
  rw [Dev.requestSwap, h]
  rfl

theorem swap_works (s : State) (h : Agent) (hr : Ready s h Reg.HRT_CMD_SWAP false) :
    let res := [Reg.HRT_CMDRES_REASON, Reg.HRT_CMDRES_VALID]
    (∀ (p q : List (Prop × Nat)) (c : Prop) (code : Nat), swapFails s.dev = p ++ (c, code) :: q → c → (∀ e ∈ p, ¬ e.1) →
        ∃ t, Runs (.swap h) s t ∧ HrtResult t code ∧ OnlyFields res s t ∧ t.dev = Around s.dev t.dev) ∧
      ((∀ e ∈ swapFails s.dev, ¬ e.1) → ∃ t, Runs (.swap h) s t ∧ HrtResult t 0 ∧ OnlyFields res s t ∧ t.dev = Around s.dev.swapAsked t.dev) := by
  intro res
  obtain ⟨p, hrun⟩ := hostCmd_runs (show exec (.swap h) s = onDev (fun d => d.hostCmd h Reg.HRT_CMD_SWAP [] Dev.requestSwap) s from rfl) hr
  have hsame : Dev.swapRefusal { s.dev with pwr := p } = s.dev.swapRefusal := rfl
  refine ⟨fun a b c code hf hc ha => ?_, fun hn => ?_⟩
  · obtain ⟨h1, h2⟩ := s.dev.swapRefusal_first hf hc ha
    rw [Dev.requestSwap_refused (hsame.trans h1)] at hrun
    obtain ⟨e1, e2, e3⟩ := hrtResult_of (s := s) (B := { s.dev with pwr := p }) rfl h2
    exact ⟨_, hrun, e1, e2, e3⟩
  · rw [Dev.requestSwap_granted (hsame.trans (s.dev.swapRefusal_none hn))] at hrun
    obtain ⟨e1, e2, e3⟩ := hrtResult_of (s := s) (B := Dev.swapAsked { s.dev with pwr := p }) (c := 0) rfl (by decide)
    exact ⟨_, hrun, e1, e2, e3⟩

theorem execProofSwapRequest_eq (s : State) : exec .proofSwapRequest s = onDev (fun d =>
    if d.rd Reg.HRT_PROOF_HRS = 0 ∨ d.tick < d.hrt.lastSwap + d.rd Reg.HRT_PROOF_HRS * 3600 * 8000 ∨ d.hrt.swapPend ∨ d.swapRefusal.isSome then d
    else d.requestSwap) s := rfl

theorem proofSwapRequest_works (s : State) :
    let res := [Reg.HRT_CMDRES_REASON, Reg.HRT_CMDRES_VALID]
    let due := s.dev.rd Reg.HRT_PROOF_HRS ≠ 0 ∧ s.dev.hrt.lastSwap + s.dev.rd Reg.HRT_PROOF_HRS * 28800000 ≤ s.dev.tick ∧
      s.dev.hrt.swapPend = false
    (¬ due ∨ (∃ e ∈ swapFails s.dev, e.1) → ∃ t, Runs .proofSwapRequest s t ∧ Keeps [] s t s.dev) ∧
    (due → (∀ e ∈ swapFails s.dev, ¬ e.1) →
      ∃ t, Runs .proofSwapRequest s t ∧ HrtResult t 0 ∧ OnlyFields res s t ∧ t.dev = Around s.dev.swapAsked t.dev) := by
  intro res due
  have hrun := runs_of_onDev (execProofSwapRequest_eq s)
  refine ⟨fun h => ?_, fun hd hn => ?_⟩
  · rw [if_pos ?_] at hrun
    · exact ⟨_, hrun, fun _ _ => rfl, rfl⟩
    · obtain h | h := h
      · by_contra hc
        simp only [not_or, not_lt, Bool.not_eq_true] at hc
        exact h ⟨hc.1, by omega, hc.2.2.1⟩
      · exact .inr (.inr (.inr (s.dev.swapRefusal_some h)))
  · have hnone := s.dev.swapRefusal_none hn
    obtain ⟨h1, h2, h3⟩ := hd
    rw [if_neg (by
      rw [hnone, h3]
      rintro (h | h | h | h)
      · exact h1 h
      · omega
      · exact Bool.false_ne_true h
      · exact Bool.false_ne_true h), Dev.requestSwap_granted hnone] at hrun
    obtain ⟨e1, e2, e3⟩ := hrtResult_of (s := s) (B := s.dev.swapAsked) (c := 0) rfl (by decide)
    exact ⟨_, hrun, e1, e2, e3⟩

theorem proofSwapsAreRequested : ProofSwapsAreRequested := fun s h => ⟨swap_works s h, proofSwapRequest_works s⟩

/-! ### CLRSUSPECT (R441) -/

/-- Hearth `i`, no longer suspect. -/
def Dev.clearOne (d : Dev) (i : Nat) : Dev := if (d.hh i).suspect then (d.setHh i { (d.hh i) with suspect := false }).postState i else d

/-- What clearing the flag of hearth `i` does. -/
structure Dev.Cleared (d D : Dev) (i : Nat) : Prop where
  on : Dev.OnHrt [Reg.HRT_STATUS_HSTEV] (if (d.hh i).suspect then [(7, 2, i + (d.hh i).st.code * 2)] else []) d D
  hrt : D.hrt = { d.hrt with a := D.hrt.a, b := D.hrt.b }
  other : D.hh (1 - i) = d.hh (1 - i)
  own : D.hh i = { d.hh i with suspect := false }
  shown : (d.hh i).suspect = true ∨ d.rd Reg.HRT_STATUS_HSTEV = 1 → D.rd Reg.HRT_STATUS_HSTEV = 1

theorem Dev.clearOne_cleared (d : Dev) {i : Nat} (hi : i < 2) : Dev.Cleared d (d.clearOne i) i := by
  unfold Dev.clearOne
  cases hs : (d.hh i).suspect with
  | false =>
    rw [if_neg Bool.false_ne_true]
    refine ⟨?_, rfl, rfl, by rw [← hs], fun h => h.resolve_left fun h => by rw [hs] at h; cases h⟩
    rw [hs]
    exact .refl _ d
  | true =>
    rw [if_pos rfl]
    generalize hx : ({ d.hh i with suspect := false } : HrtH) = x
    have hS := Dev.OnHrt.setHh [Reg.HRT_STATUS_HSTEV] d i x
    have h1 := d.hh_setHh_self i x
    have h2 := d.hh_setHh_other x hi
    have h3 := d.setHh_hrt i x
    generalize d.setHh i x = S at hS h1 h2 h3
    obtain ⟨hP, v⟩ := S.postState_told i
    generalize S.postState i = P at hP v
    rw [h1, ← hx] at hP
    refine ⟨?_, ?_, (Dev.hh_congr hP.hrt _).trans h2, (Dev.hh_congr hP.hrt _).trans (h1.trans hx.symm), fun _ => v⟩
    · rw [hs]
      exact hS.trans hP.onHrt
    · rw [hP.hrt]
      exact h3

theorem Dev.clrSuspectGo_eq (d : Dev) : d.clrSuspectGo = ((d.clearOne 0).clearOne 1).hrtResult 0 := rfl

theorem Dev.OnHrt.around {fs : List Fld} {es : List (Nat × Nat × Nat)} {d D : Dev} (h : Dev.OnHrt fs es d D) : D.settle = Around { d with hrt := D.hrt } D.settle :=
  Dev.around_of_eq (by rw [h.only])

theorem clrSuspect_clears (s : State) (h : Agent) (hr : Ready s h Reg.HRT_CMD_CLRSUSPECT false) : ∃ t, Runs (.clrSuspect h) s t ∧ HrtResult t 0 ∧
      (∀ i, i < 2 → t.dev.hh i = { s.dev.hh i with suspect := false }) ∧
      (∀ i, i < 2 → (s.dev.hh i).suspect = true → t.dev.rd Reg.HRT_STATUS_HSTEV = 1) ∧
      OnlyFields [Reg.HRT_CMDRES_REASON, Reg.HRT_CMDRES_VALID, Reg.HRT_STATUS_HSTEV] s t ∧
      t.dev = Around { s.dev with hrt := { s.dev.hrt with a := t.dev.hrt.a, b := t.dev.hrt.b } } t.dev ∧
      (Room s → EntersAll s t ([0, 1].flatMap fun i =>
        if (s.dev.hh i).suspect then [(7, 2, i + (s.dev.hh i).st.code * 2)] else [])) := by
  obtain ⟨p, hrun⟩ := hostCmd_runs (show exec (.clrSuspect h) s = onDev (fun d => d.hostCmd h Reg.HRT_CMD_CLRSUSPECT [] Dev.clrSuspectGo) s from rfl) hr
  rw [Dev.clrSuspectGo_eq] at hrun
  obtain ⟨B, hB, hBh⟩ : ∃ B : Dev, B = { s.dev with pwr := p } ∧ ∀ i, B.hh i = s.dev.hh i := ⟨_, rfl, fun _ => rfl⟩
  rw [← hB] at hrun
  have h0 := B.clearOne_cleared (i := 0) (by decide)
  generalize B.clearOne 0 = C at h0 hrun
  have h1 := C.clearOne_cleared (i := 1) (by decide)
  generalize C.clearOne 1 = E at h1 hrun
  obtain ⟨hA, v1, v2⟩ := E.hrtResult_told 0 (by decide)
  generalize E.hrtResult 0 = D at hA v1 v2 hrun
  have o1 : C.hh 1 = s.dev.hh 1 := h0.other.trans (hBh 1)
  have o0 : E.hh 0 = C.hh 0 := h1.other
  have on1 := h1.on
  rw [o1] at on1
  have on0 := h0.on
  rw [hBh] at on0
  have hT : Dev.OnHrt [Reg.HRT_CMDRES_REASON, Reg.HRT_CMDRES_VALID, Reg.HRT_STATUS_HSTEV] _ B D :=
    ((⟨on0.only, on0.same.mono (by simp)⟩ : Dev.OnHrt [Reg.HRT_CMDRES_REASON, Reg.HRT_CMDRES_VALID, Reg.HRT_STATUS_HSTEV] _ B C).trans
      ⟨on1.only, on1.same.mono (by simp)⟩).trans ⟨hA.onHrt.only, hA.same.mono (by simp)⟩
  rw [List.append_nil] at hT
  have hh : ∀ i, i < 2 → D.hh i = { s.dev.hh i with suspect := false } := fun i hi => by
    rw [Dev.hh_congr hA.hrt]
    obtain rfl | rfl := lt_two hi
    · rw [o0, h0.own, hBh]
    · rw [h1.own, o1]
  have hhrt : D.hrt = { s.dev.hrt with a := D.hrt.a, b := D.hrt.b } := by
    rw [hA.hrt, h1.hrt, h0.hrt, hB]
  have hset : ∀ f, D.settle.rd f = D.rd f := fun f => Dev.settle_rd D f
  refine ⟨_, hrun, ⟨(hset _).trans v1, (hset _).trans v2⟩, hh, fun i hi hs => ?_, fun g hg ha => ?_, ?_, fun hr => ?_⟩
  · refine (hset _).trans ((hA.rd (by decide)).trans (h1.shown ?_))
    obtain rfl | rfl := lt_two hi
    · exact .inr (h0.shown (.inl (by rw [hBh]; exact hs)))
    · exact .inl (by rw [o1]; exact hs)
  · refine (hset g).trans ((hT.same g hg ha).trans ?_)
    rw [hB]
    rfl
  · change D.settle = Around { s.dev with hrt := { s.dev.hrt with a := D.hrt.a, b := D.hrt.b } } D.settle
    rw [← hhrt]
    refine hT.around.trans ?_
    rw [hB]
    rfl
  · refine enters_of_evq (D := D) (es := [0, 1].flatMap fun i => if (s.dev.hh i).suspect then [(7, 2, i + (s.dev.hh i).st.code * 2)] else []) ?_ ?_ 7 (by decide) ?_ ?_ hr rfl
    · rw [hT.only, hB]
      simp
    · rw [hT.only, hB]
    · intro e he
      simp only [List.mem_flatMap] at he
      obtain ⟨i, -, he⟩ := he
      split at he
      · rw [List.mem_singleton.mp he]
      · cases he
    · rw [List.flatMap_cons, List.flatMap_cons, List.flatMap_nil, List.length_append, List.length_append]
      split_ifs <;> simp

/-! ### Coefficient banks copied anew (R538) -/

theorem hIx_lt (h : Hearth) : hIx h < 2 := by cases h <;> decide

theorem Dev.copyBanks_told (d : Dev) {h : Nat} (hh : h < 2) (page n : Nat) : Dev.OnlyMem d (d.copyBanks h page n) ∧
    (d.copyBanks h page n).hm (1 - h) = d.hm (1 - h) ∧
    (Sparse.wf (fun _ => (0 : Word)) (d.hm (1 - h)).gw = true → ∀ a, Sparse.get 0 ((d.copyBanks h page n).hm h).gw a =
      Sparse.get 0 (d.hm (if page * 1024 ≤ a ∧ a < (page + n) * 1024 then 1 - h else h)).gw a) := by
  unfold Dev.copyBanks
  refine ⟨d.setHm_onlyMem _ _, d.hm_setHm_other _ _ hh, fun hw a => ?_⟩
  rw [Dev.hm_setHm_self]
  dsimp only
  rw [copyRange_get _ _ _ _ _ _ (Sparse.wf_rising hw), ← Nat.add_mul]
  split
  case isTrue hr => rw [Nat.sub_add_cancel hr.1]
  case isFalse => rfl

/-- The banks of hearth `i` copied anew from the other hearth. -/
def Dev.recopied (d : Dev) (i : Nat) : Dev := (d.copyBanks i d.bankPage d.banks).copyBanks i 1984 d.alm.plan.sb

theorem Dev.recopied_told (d : Dev) {i : Nat} (hi : i < 2) : Dev.OnlyMem d (d.recopied i) ∧ (d.recopied i).hm (1 - i) = d.hm (1 - i) ∧
    (Sparse.wf (fun _ => (0 : Word)) (d.hm (1 - i)).gw = true → ∀ a, Sparse.get 0 ((d.recopied i).hm i).gw a =
      Sparse.get 0 (d.hm (if (d.bankPage * 1024 ≤ a ∧ a < (d.bankPage + d.banks) * 1024) ∨
        (1984 * 1024 ≤ a ∧ a < (1984 + d.alm.plan.sb) * 1024) then 1 - i else i)).gw a) := by
  unfold Dev.recopied
  obtain ⟨a1, a2, a3⟩ := d.copyBanks_told hi d.bankPage d.banks
  generalize d.copyBanks i d.bankPage d.banks = C at a1 a2 a3
  obtain ⟨b1, b2, b3⟩ := C.copyBanks_told hi 1984 d.alm.plan.sb
  refine ⟨a1.trans b1, b2.trans a2, fun hw a => ?_⟩
  rw [b3 (by rw [a2]; exact hw)]
  by_cases h2 : 1984 * 1024 ≤ a ∧ a < (1984 + d.alm.plan.sb) * 1024
  · rw [if_pos h2, if_pos (.inr h2), a2]
  · rw [if_neg h2, a3 hw]
    refine congrArg (fun k => Sparse.get 0 (d.hm k).gw a) (if_congr ?_ rfl rfl)
    exact ⟨.inl, fun h => h.resolve_right h2⟩

theorem execBankRecopyDone_eq (s : State) (h : Hearth) : exec (.bankRecopyDone h) s = onDev (fun d =>
    if (d.hh (hIx h)).recopy then ((d.recopied (hIx h)).setHh (hIx h) { ((d.recopied (hIx h)).hh (hIx h)) with recopy := false }).refresh (hIx h) else d) s := rfl

theorem bankRecopyDone_waits (s : State) (h : Hearth) (hx : (s.dev.hh (hIx h)).recopy = false) : ∃ t, Runs (.bankRecopyDone h) s t ∧ Keeps [] s t s.dev := by
  have hrun := runs_of_onDev (execBankRecopyDone_eq s h)
  rw [hx, if_neg Bool.false_ne_true] at hrun
  exact ⟨_, hrun, fun _ _ => rfl, rfl⟩

theorem bankRecopyDone_restores (s : State) (h : Hearth) : let i := hIx h
    let x := s.dev.hh i
    let bank := fun (a : Nat) => (s.dev.bankPage * 1024 ≤ a ∧ a < (s.dev.bankPage + s.dev.banks) * 1024) ∨
      (1984 * 1024 ≤ a ∧ a < (1984 + s.dev.alm.plan.sb) * 1024)
    x.recopy = true → ∃ t, Runs (.bankRecopyDone h) s t ∧ (t.dev.hh i).recopy = false ∧ t.dev.hm (1 - i) = s.dev.hm (1 - i) ∧
      (TakesCopies x → (t.dev.hh i).st = if ∃ q, x.last = some q ∧ s.dev.tick ≤ q + 2 then .standby else .syncing) ∧
      Keeps [Reg.HRT_STATUS_HSTEV.addr] s t { s.dev with mem := t.dev.mem, hrt := t.dev.hrt } ∧
      (Sparse.wf (fun _ => (0 : Word)) (s.dev.hm i).gw = true → Sparse.wf (fun _ => (0 : Word)) (s.dev.hm (1 - i)).gw = true →
        ∀ a, Sparse.get 0 (t.dev.hm i).gw a = Sparse.get 0 (s.dev.hm (if bank a then 1 - i else i)).gw a) := by
  intro i x bank hx
  have hrun := runs_of_onDev (execBankRecopyDone_eq s h)
  rw [hx, if_pos (rfl : true = true)] at hrun
  obtain ⟨c1, c2, c3⟩ := s.dev.recopied_told (hIx_lt h)
  have hCh : (s.dev.recopied (hIx h)).hh (hIx h) = x := Dev.hh_congr (by rw [c1]) _
  rw [hCh] at hrun
  generalize s.dev.recopied (hIx h) = C at c1 c2 c3 hrun
  have hS := Dev.OnHrt.setHh [Reg.HRT_STATUS_HSTEV] C (hIx h) { x with recopy := false }
  have h1 := C.hh_setHh_self (hIx h) { x with recopy := false }
  generalize C.setHh (hIx h) { x with recopy := false } = S at hS h1 hrun
  obtain ⟨⟨es, on⟩, -, -, ⟨st, k, own⟩, state⟩ := S.refresh_told (hIx_lt h)
  generalize S.refresh (hIx h) = D at on own state hrun
  rw [h1] at own state
  have hT := hS.trans on
  have htick : S.tick = s.dev.tick := by rw [hS.only, c1]
  have hmem : D.mem = C.mem := by rw [hT.only]
  have hhm : ∀ j, D.hm j = C.hm j := fun j => by rw [Dev.hm, hmem, Dev.hm]
  refine ⟨_, hrun, congrArg HrtH.recopy own, (hhm _).trans c2, fun ht => ?_, ⟨fun a ha => ?_, ?_⟩, fun _ hw a => ?_⟩
  · refine (state ht).trans ?_
    rw [htick]
    exact if_congr (and_iff_right rfl) rfl rfl
  · refine (Dev.settle_word D a).trans ((hT.same.word ?_).trans ?_)
    · simpa [eq_comm] using ha
    · rw [c1]
      rfl
  · change D.settle = Around { s.dev with mem := D.mem, hrt := D.hrt } D.settle
    refine Dev.around_of_eq ?_
    rw [hmem, hT.only, c1]
  · have := c3 hw a
    rw [← hhm] at this
    exact this

/-! ### RESTORE (R438) -/

theorem Dev.setCh_onlyMem (d : Dev) (c : Nat) (x : Dram) : Dev.OnlyMem d (d.setCh c x) := by
  unfold Dev.OnlyMem Dev.setCh
  split <;> rfl

theorem Dev.dramPut_onlyMem (d : Dev) (h : Nat) (x : Line) (ss : List (Nat × Word)) : Dev.OnlyMem d (d.dramPut h x ss) := by
  unfold Dev.dramPut
  refine .foldl (fun d c => ?_) _ d
  split
  · exact .refl d
  · exact d.setCh_onlyMem _ _

theorem Dev.pinPair_onlyMem (d : Dev) (l h : Nat) (x : Line) : Dev.OnlyMem d (d.pinPair l h x) := by
  unfold Dev.pinPair
  split
  · exact .refl d
  · refine .foldl (fun d p => ?_) _ d
    dsimp only
    split
    · exact ((d.setHm_onlyMem _ _).trans (Dev.setHm_onlyMem _ _ _)).trans (Dev.setHm_onlyMem _ _ _)
    · exact .refl d

theorem Dev.fillSkipped_onlyMem (d : Dev) (h skip : Nat) (x : Line) : Dev.OnlyMem d (d.fillSkipped h skip x) := by
  unfold Dev.fillSkipped
  dsimp only
  split
  · exact .refl d
  · exact d.dramPut_onlyMem _ _ _

theorem Dev.reloadPairs_onlyMem (d : Dev) (h skip : Nat) : Dev.OnlyMem d (d.reloadPairs h skip) := by
  unfold Dev.reloadPairs
  refine (d.setHm_onlyMem _ _).trans (.foldl (fun d e => ?_) _ _)
  split
  · exact .refl d
  · rename_i x _
    have h1 := d.fillSkipped_onlyMem h skip x
    dsimp only
    generalize d.fillSkipped h skip x = F at h1
    have h2 : Dev.OnlyMem d (if skip > 0 then F.setLine e.1 { x with written := [] } else F) := by
      split
      · exact h1.trans rfl
      · exact h1
    generalize (if skip > 0 then F.setLine e.1 { x with written := [] } else F) = G at h2
    split
    · exact h2.trans (G.pinPair_onlyMem _ _ _)
    · exact h2

/-- The failed hearths. -/
def Dev.failedOnes (d : Dev) : List Nat := [0, 1].filter fun h => (d.hh h).st == .failed

/-- Hearth `i` asked to run from the next boundary. -/
def Dev.restoreOne (d : Dev) (i : Nat) : Dev :=
  let d := d.setHh i { (d.hh i) with down := none, trig := none }
  if i = 0 then { d with hrt := { d.hrt with restoreA := true } } else { d with hrt := { d.hrt with restoreB := true } }

/-- Hearth `h` restored beside an active one. -/
def Dev.restorePair (d : Dev) (h : Nat) : Dev :=
  let d := d.copyBanks h d.bankPage d.banks
  let d := d.setHh h { (d.hh h) with last := none, kept := false, buf0 := none, buf1 := none, down := none, trig := none }
  ((d.setState h .syncing).reloadPairs h 0).pinMessages h

theorem Dev.restoreCmd_eq (d : Dev) (ra rb : Bool) : d.restoreCmd ra rb =
    match d.failedOnes with
    | [] => d.hrtResult 0x14
    | h :: t =>
      if d.mode = 1 then
        ((d.failedOnes.filter fun i => d.restoreReady i (if i = 0 then ra else rb)).foldl Dev.restoreOne d).hrtResult
          (if (d.failedOnes.filter fun i => d.restoreReady i (if i = 0 then ra else rb)).length = d.failedOnes.length then 0 else 0x15)
      else if !t.isEmpty then d.hrtResult 0x16
      else if !d.restoreReady h (if h = 0 then ra else rb) then d.hrtResult 0x15
      else (d.restorePair h).hrtResult 0 := by
  unfold Dev.restoreCmd
  rfl

theorem Dev.failedOnes_none {d : Dev} (h0 : ¬ (d.hh 0).st = .failed) (h1 : ¬ (d.hh 1).st = .failed) : d.failedOnes = [] := by
  simp [Dev.failedOnes, h0, h1]

theorem Dev.failedOnes_both {d : Dev} (h0 : (d.hh 0).st = .failed) (h1 : (d.hh 1).st = .failed) : d.failedOnes = [0, 1] := by
  simp [Dev.failedOnes, h0, h1]

theorem Dev.failedOnes_one {d : Dev} {i : Nat} (hi : i < 2) (h0 : (d.hh i).st = .failed) (h1 : ¬ (d.hh (1 - i)).st = .failed) : d.failedOnes = [i] := by
  obtain rfl | rfl := lt_two hi
  · have h1' : ¬ (d.hh 1).st = .failed := h1
    simp [Dev.failedOnes, h0, h1']
  · have h1' : ¬ (d.hh 0).st = .failed := h1
    simp [Dev.failedOnes, h0, h1']

theorem Dev.restoreReady_iff (d : Dev) (i : Nat) (rail : Bool) : d.restoreReady i rail = true ↔ rail = true ∧ (d.ch i).failed = false ∧ d.mem.resync = none := by
  rw [Dev.restoreReady, Bool.and_eq_true, Bool.and_eq_true, Bool.not_eq_true', Option.isNone_iff_eq_none, and_assoc]

/-- What asking hearth `i` to run does. -/
theorem Dev.restoreOne_told (d : Dev) {i : Nat} (hi : i < 2) : d.restoreOne i = { d with hrt := (d.restoreOne i).hrt } ∧
    (d.restoreOne i).hh i = { d.hh i with down := none, trig := none } ∧ (d.restoreOne i).hh (1 - i) = d.hh (1 - i) ∧
    (if i = 0 then (d.restoreOne i).hrt.restoreA = true ∧ (d.restoreOne i).hrt.restoreB = d.hrt.restoreB
     else (d.restoreOne i).hrt.restoreB = true ∧ (d.restoreOne i).hrt.restoreA = d.hrt.restoreA) := by
  obtain rfl | rfl := lt_two hi
  · exact ⟨rfl, rfl, rfl, rfl, rfl⟩
  · exact ⟨rfl, rfl, rfl, rfl, rfl⟩

theorem restore_runs {s : State} {h : Agent} (ra rb : Bool) (hr : Ready s h Reg.HRT_CMD_RESTORE false) :
    ∃ p, Runs (.restore h ra rb) s { s with dev := (Dev.restoreCmd { s.dev with pwr := p } ra rb).settle } :=
  hostCmd_runs (show exec (.restore h ra rb) s = onDev (fun d => d.hostCmd h Reg.HRT_CMD_RESTORE [] fun d => d.restoreCmd ra rb) s from rfl) hr

/-- RESTORE with a code and nothing else. -/
theorem restore_ends {s : State} {h : Agent} {ra rb : Bool} {c : Nat} (hr : Ready s h Reg.HRT_CMD_RESTORE false) (hc : c < 2 ^ 8)
    (he : ∀ p, Dev.restoreCmd { s.dev with pwr := p } ra rb = Dev.hrtResult { s.dev with pwr := p } c) :
    ∃ t, Runs (.restore h ra rb) s t ∧ HrtResult t c ∧ t.dev = Around s.dev t.dev ∧ OnlyFields [Reg.HRT_CMDRES_REASON, Reg.HRT_CMDRES_VALID] s t := by
  obtain ⟨p, hrun⟩ := restore_runs ra rb hr
  rw [he p] at hrun
  obtain ⟨e1, e2, e3⟩ := hrtResult_of (s := s) (B := { s.dev with pwr := p }) rfl hc
  exact ⟨_, hrun, e1, e3, e2⟩

theorem Dev.restorePair_told (d : Dev) {h : Nat} (hh : h < 2) (hf : (d.hh h).st = .failed) : (d.restorePair h).hh (1 - h) = d.hh (1 - h) ∧
    ((d.restorePair h).hh h).trig = none ∧ ((d.restorePair h).hh h).down = none ∧ ((d.restorePair h).hh h).st = .syncing ∧
    ((d.restorePair h).hh h).last = none ∧ (d.restorePair h).rd Reg.HRT_STATUS_HSTEV = 1 := by
  unfold Dev.restorePair
  dsimp only
  have h1 := (d.copyBanks_told hh d.bankPage d.banks).1
  generalize d.copyBanks h d.bankPage d.banks = C at h1
  have hCh : ∀ j, C.hh j = d.hh j := fun j => Dev.hh_congr (by rw [h1]) j
  rw [hCh]
  generalize hx : ({ d.hh h with last := none, kept := false, buf0 := none, buf1 := none, down := none, trig := none } : HrtH) = x
  have s1 := C.hh_setHh_self h x
  have s2 := C.hh_setHh_other x hh
  generalize C.setHh h x = S at s1 s2
  obtain ⟨-, -, other, ⟨k, own⟩, shown⟩ := S.setState_told hh .syncing
  have hne : (S.hh h).st ≠ .syncing := by
    rw [s1, ← hx, show ({ d.hh h with last := none, kept := false, buf0 := none, buf1 := none, down := none, trig := none } : HrtH).st = (d.hh h).st from rfl, hf]
    decide
  have v := shown hne
  generalize S.setState h .syncing = T at other own v
  have hm := (T.reloadPairs_onlyMem h 0).trans (Dev.pinMessages_hearths _ h).onlyMem
  generalize (T.reloadPairs h 0).pinMessages h = R at hm
  have hR : ∀ j, R.hh j = T.hh j := fun j => Dev.hh_congr (by rw [hm]) j
  have hRrd : R.rd Reg.HRT_STATUS_HSTEV = T.rd Reg.HRT_STATUS_HSTEV := by
    rw [hm]
    rfl
  rw [s1, ← hx] at own
  refine ⟨(hR _).trans (other.trans (s2.trans (hCh _))), ?_, ?_, ?_, ?_, hRrd.trans v⟩
  · rw [hR, own]
  · rw [hR, own]
  · rw [hR, own]
  · rw [hR, own]

/-- Hearth `i` is ready to be restored, its rail as the command finds it. -/
def Dev.readyFor (d : Dev) (ra rb : Bool) (i : Nat) : Bool := d.restoreReady i (if i = 0 then ra else rb)

theorem Dev.restoreCmd_pair {d : Dev} {ra rb : Bool} {i : Nat} (hs : ¬ d.rd Reg.HRT_CFG_MODE = 1) (h : d.failedOnes = [i]) :
    d.restoreCmd ra rb = if d.readyFor ra rb i then (d.restorePair i).hrtResult 0 else d.hrtResult 0x15 := by
  rw [Dev.restoreCmd_eq, h]
  dsimp only
  have hm : ¬ d.mode = 1 := hs
  rw [if_neg hm, if_neg (by simp)]
  unfold Dev.readyFor
  cases d.restoreReady i (if i = 0 then ra else rb)
  · rfl
  · rfl

theorem Dev.restoreCmd_split {d : Dev} {ra rb : Bool} {i : Nat} {t : List Nat} (hs : d.rd Reg.HRT_CFG_MODE = 1) (h : d.failedOnes = i :: t) :
    d.restoreCmd ra rb = (((i :: t).filter (d.readyFor ra rb)).foldl Dev.restoreOne d).hrtResult
      (if ((i :: t).filter (d.readyFor ra rb)).length = (i :: t).length then 0 else 0x15) := by
  rw [Dev.restoreCmd_eq, h]
  dsimp only
  have hm : d.mode = 1 := hs
  rw [if_pos hm]
  rfl

theorem restore_both_split {s : State} {h : Agent} {ra rb : Bool} (hr : Ready s h Reg.HRT_CMD_RESTORE false) (hs : s.dev.rd Reg.HRT_CFG_MODE = 1)
    (h0 : (s.dev.hh 0).st = .failed) (h1 : (s.dev.hh 1).st = .failed) : let ready := fun i => s.dev.readyFor ra rb i = true
    ∃ t, Runs (.restore h ra rb) s t ∧ HrtResult t (if ready 0 ∧ ready 1 then 0 else 0x15) ∧
      (ready 0 → t.dev.hrt.restoreA = true) ∧ (ready 1 → t.dev.hrt.restoreB = true) ∧
      ∀ i, i < 2 → t.dev.hh i = if ready i then { s.dev.hh i with down := none, trig := none } else s.dev.hh i := by
  intro ready
  obtain ⟨p, hrun⟩ := restore_runs ra rb hr
  obtain ⟨B, hB, hBh, hBf, hBr⟩ : ∃ B : Dev, B = { s.dev with pwr := p } ∧ (∀ i, B.hh i = s.dev.hh i) ∧ B.rd Reg.HRT_CFG_MODE = s.dev.rd Reg.HRT_CFG_MODE ∧
    B.readyFor ra rb = s.dev.readyFor ra rb := ⟨_, rfl, fun _ => rfl, rfl, rfl⟩
  rw [← hB, Dev.restoreCmd_split (hBf.trans hs) (Dev.failedOnes_both (by rw [hBh]; exact h0) (by rw [hBh]; exact h1)), hBr] at hrun
  have hlist : ∃ R : Dev, ([0, 1].filter (s.dev.readyFor ra rb)).foldl Dev.restoreOne B = R ∧ (ready 0 → R.hrt.restoreA = true) ∧ (ready 1 → R.hrt.restoreB = true) ∧
      (∀ i, i < 2 → R.hh i = if ready i then { s.dev.hh i with down := none, trig := none } else s.dev.hh i) ∧
      (if ([0, 1].filter (s.dev.readyFor ra rb)).length = [0, 1].length then 0 else 0x15) = if ready 0 ∧ ready 1 then 0 else 0x15 := by
    obtain ⟨-, a2, a3, a4, a5⟩ := B.restoreOne_told (i := 0) (by decide)
    obtain ⟨-, b2, b3, b4, b5⟩ := B.restoreOne_told (i := 1) (by decide)
    obtain ⟨-, c2, c3, c4, c5⟩ := (B.restoreOne 0).restoreOne_told (i := 1) (by decide)
    have a3' : (B.restoreOne 0).hh 1 = B.hh 1 := a3
    have b3' : (B.restoreOne 1).hh 0 = B.hh 0 := b3
    have c3' : ((B.restoreOne 0).restoreOne 1).hh 0 = (B.restoreOne 0).hh 0 := c3
    by_cases r0 : s.dev.readyFor ra rb 0 = true <;> by_cases r1 : s.dev.readyFor ra rb 1 = true
    · refine ⟨(B.restoreOne 0).restoreOne 1, by simp [r0, r1], fun _ => c5.trans a4, fun _ => c4, fun i hi => ?_, by simp [ready, r0, r1]⟩
      obtain rfl | rfl := lt_two hi
      · rw [if_pos r0, c3', a2, hBh]
      · rw [if_pos r1, c2, a3', hBh]
    · refine ⟨B.restoreOne 0, by simp [r0, r1], fun _ => a4, fun h => absurd h r1, fun i hi => ?_, by simp [ready, r0, r1]⟩
      obtain rfl | rfl := lt_two hi
      · rw [if_pos r0, a2, hBh]
      · rw [if_neg r1, a3', hBh]
    · refine ⟨B.restoreOne 1, by simp [r0, r1], fun h => absurd h r0, fun _ => b4, fun i hi => ?_, by simp [ready, r0, r1]⟩
      obtain rfl | rfl := lt_two hi
      · rw [if_neg r0, b3', hBh]
      · rw [if_pos r1, b2, hBh]
    · refine ⟨B, by simp [r0, r1], fun h => absurd h r0, fun h => absurd h r1, fun i hi => ?_, by simp [ready, r0, r1]⟩
      obtain rfl | rfl := lt_two hi
      · rw [if_neg r0, hBh]
      · rw [if_neg r1, hBh]
  obtain ⟨R, hR, w1, w2, w3, w4⟩ := hlist
  rw [hR, w4] at hrun
  obtain ⟨hA, v1, v2⟩ := R.hrtResult_told (if ready 0 ∧ ready 1 then 0 else 0x15) (by split <;> decide)
  generalize R.hrtResult (if ready 0 ∧ ready 1 then 0 else 0x15) = D at hA v1 v2 hrun
  refine ⟨_, hrun, ⟨(Dev.settle_rd D _).trans v1, (Dev.settle_rd D _).trans v2⟩, fun h => ?_, fun h => ?_, fun i hi => (Dev.hh_congr hA.hrt i).trans (w3 i hi)⟩
  · change D.hrt.restoreA = true
    rw [hA.hrt]
    exact w1 h
  · change D.hrt.restoreB = true
    rw [hA.hrt]
    exact w2 h

theorem restore_one {s : State} {h : Agent} {ra rb : Bool} {i : Nat} (hr : Ready s h Reg.HRT_CMD_RESTORE false) (hi : i < 2)
    (hf : (s.dev.hh i).st = .failed) (ho : ¬ (s.dev.hh (1 - i)).st = .failed) (hready : s.dev.readyFor ra rb i = true) :
    let split := s.dev.rd Reg.HRT_CFG_MODE = 1
    ∃ t, Runs (.restore h ra rb) s t ∧ HrtResult t 0 ∧ t.dev.hh (1 - i) = s.dev.hh (1 - i) ∧ (t.dev.hh i).trig = none ∧
        (t.dev.hh i).down = none ∧
        (split → (t.dev.hh i).st = .failed ∧ (if i = 0 then t.dev.hrt.restoreA else t.dev.hrt.restoreB) = true ∧ t.dev.mem = s.dev.mem) ∧
        (¬ split → (t.dev.hh i).st = .syncing ∧ (t.dev.hh i).last = none ∧ t.dev.rd Reg.HRT_STATUS_HSTEV = 1) := by
  intro split
  obtain ⟨p, hrun⟩ := restore_runs ra rb hr
  obtain ⟨B, hB, hBh, hBf, hBr⟩ : ∃ B : Dev, B = { s.dev with pwr := p } ∧ (∀ i, B.hh i = s.dev.hh i) ∧ B.rd Reg.HRT_CFG_MODE = s.dev.rd Reg.HRT_CFG_MODE ∧
    B.readyFor ra rb = s.dev.readyFor ra rb := ⟨_, rfl, fun _ => rfl, rfl, rfl⟩
  have hfail : B.failedOnes = [i] := Dev.failedOnes_one hi (by rw [hBh]; exact hf) (by rw [hBh]; exact ho)
  by_cases hs : split
  · have hfilter : [i].filter (B.readyFor ra rb) = [i] := by simp [hBr, hready]
    rw [← hB, Dev.restoreCmd_split (hBf.trans hs) hfail, hfilter, if_pos rfl] at hrun
    obtain ⟨r1, r2, r3, r4⟩ := B.restoreOne_told hi
    have hone : [i].foldl Dev.restoreOne B = B.restoreOne i := rfl
    rw [hone] at hrun
    generalize B.restoreOne i = R at r1 r2 r3 r4 hrun
    obtain ⟨hA, v1, v2⟩ := R.hrtResult_told 0 (by decide)
    generalize R.hrtResult 0 = D at hA v1 v2 hrun
    have hh : ∀ j, D.settle.hh j = R.hh j := fun j => Dev.hh_congr hA.hrt j
    refine ⟨_, hrun, ⟨(Dev.settle_rd D _).trans v1, (Dev.settle_rd D _).trans v2⟩, (hh _).trans (r3.trans (hBh _)), ?_, ?_, fun _ => ⟨?_, ?_, ?_⟩, fun hn => absurd hs hn⟩
    · exact congrArg HrtH.trig ((hh i).trans r2)
    · exact congrArg HrtH.down ((hh i).trans r2)
    · exact (congrArg HrtH.st ((hh i).trans r2)).trans (by rw [hBh]; exact hf)
    · change (if i = 0 then D.hrt.restoreA else D.hrt.restoreB) = true
      rw [hA.hrt]
      split_ifs at r4 ⊢
      · exact r4.1
      · exact r4.1
    · change D.mem = s.dev.mem
      rw [hA.only, r1, hB]
  · rw [← hB, Dev.restoreCmd_pair (by rw [hBf]; exact hs) hfail, hBr, hready, if_pos (rfl : true = true)] at hrun
    obtain ⟨r1, r2, r3, r4, r5, r6⟩ := B.restorePair_told hi (by rw [hBh]; exact hf)
    generalize B.restorePair i = R at r1 r2 r3 r4 r5 r6 hrun
    obtain ⟨hA, v1, v2⟩ := R.hrtResult_told 0 (by decide)
    have v3 := hA.rd (g := Reg.HRT_STATUS_HSTEV) (by decide)
    generalize R.hrtResult 0 = D at hA v1 v2 v3 hrun
    have hh : ∀ j, D.settle.hh j = R.hh j := fun j => Dev.hh_congr hA.hrt j
    refine ⟨_, hrun, ⟨(Dev.settle_rd D _).trans v1, (Dev.settle_rd D _).trans v2⟩, (hh _).trans (r1.trans (hBh _)), ?_, ?_, fun h => absurd h hs, fun _ => ⟨?_, ?_, ?_⟩⟩
    · exact (congrArg HrtH.trig (hh i)).trans r2
    · exact (congrArg HrtH.down (hh i)).trans r3
    · exact (congrArg HrtH.st (hh i)).trans r4
    · exact (congrArg HrtH.last (hh i)).trans r5
    · exact (Dev.settle_rd D _).trans (v3.trans r6)

theorem hearthsAreRestored : HearthsAreRestored := by
  refine ⟨fun s h ra rb hr => ?_, clrSuspect_clears, fun s h => ⟨bankRecopyDone_waits s h, bankRecopyDone_restores s h⟩⟩
  intro failed rail ready split ends
  have hready : ∀ i, s.dev.readyFor ra rb i = true ↔ ready i := fun i => s.dev.restoreReady_iff i _
  refine ⟨fun h0 h1 => ?_, fun hs h0 h1 => ?_, fun hs h0 h1 => ?_, fun i hi hf ho hn => ?_, fun i hi hf ho hy => ?_⟩
  · refine restore_ends hr (by decide) fun p => ?_
    rw [Dev.restoreCmd_eq, Dev.failedOnes_none (d := { s.dev with pwr := p }) h0 h1]
  · refine restore_ends hr (by decide) fun p => ?_
    rw [Dev.restoreCmd_eq, Dev.failedOnes_both (d := { s.dev with pwr := p }) h0 h1]
    have hm : ¬ Dev.mode { s.dev with pwr := p } = 1 := hs
    exact (if_neg hm).trans (if_pos rfl)
  · obtain ⟨t, h1, h2, h3, h4, h5⟩ := restore_both_split (ra := ra) (rb := rb) hr hs h0 h1
    simp only [hready] at h2 h3 h4 h5
    exact ⟨t, h1, h2, h3, h4, h5⟩
  · refine restore_ends hr (by decide) fun p => ?_
    have hfail : Dev.failedOnes { s.dev with pwr := p } = [i] := Dev.failedOnes_one hi hf ho
    have hnr : Dev.readyFor { s.dev with pwr := p } ra rb i = false := (Bool.not_eq_true _).mp fun h => hn ((hready i).mp h)
    by_cases hs : split
    · rw [Dev.restoreCmd_split (d := { s.dev with pwr := p }) hs hfail, show [i].filter (Dev.readyFor { s.dev with pwr := p } ra rb) = [] by simp [hnr]]
      rfl
    · rw [Dev.restoreCmd_pair (d := { s.dev with pwr := p }) hs hfail, hnr, if_neg Bool.false_ne_true]
  · exact restore_one hr hi hf ho ((hready i).mpr hy)

end Sys2Proof.Machine
end

section
/-! Ember copies: the completion of a tick and the end of the copy (R77, R427, R428). -/
namespace Sys2Proof.Machine
open Sys2Proof.Claims

/-! ### What prefetching leaves -/

/-- The fields that a late prefetch counts in. -/
def pfFields : List Fld := [Reg.PGU_PFLATEA_COUNT, Reg.PGU_PFLATEB_COUNT, Reg.PGU_STATUS_CNT_HALF]

/-- Paging in hearth `h`: the other hearth's memory and the data of grate memory stay. -/
structure Dev.Paged (h : Nat) (d D : Dev) : Prop where
  only : D = { d with live := D.live, mem := D.mem }
  same : Dev.SameBut pfFields d D
  other : D.hm (1 - h) = d.hm (1 - h)
  gw : (D.hm h).gw = (d.hm h).gw

theorem Dev.Paged.refl (h : Nat) (d : Dev) : Dev.Paged h d d := ⟨rfl, .refl _ d, rfl, rfl⟩

theorem Dev.Paged.trans {h : Nat} {d d' d'' : Dev} (a : Dev.Paged h d d') (b : Dev.Paged h d' d'') : Dev.Paged h d d'' :=
  ⟨by rw [b.only, a.only], a.same.trans b.same, b.other.trans a.other, b.gw.trans a.gw⟩

theorem Dev.Paged.foldl {α : Type} {h : Nat} {f : Dev → α → Dev} (hf : ∀ d a, Dev.Paged h d (f d a)) (l : List α) (d : Dev) : Dev.Paged h d (l.foldl f d) := by
  induction l generalizing d with
  | nil => exact .refl h d
  | cons a l ih => exact (hf d a).trans (ih _)

theorem Dev.Paged.setHm {h : Nat} (d : Dev) (hh : h < 2) {m : HMem} (hm : m.gw = (d.hm h).gw) : Dev.Paged h d (d.setHm h m) := by
  refine ⟨?_, .of_live ?_, d.hm_setHm_other h m hh, by rw [Dev.hm_setHm_self, hm]⟩
  · unfold Dev.setHm
    split <;> rfl
  · unfold Dev.setHm
    split <;> rfl

theorem Dev.Paged.of_onlyHm {h : Nat} {d D : Dev} (hh : h < 2) (ho : Dev.OnlyHm h d D) (hp : Dev.Pages d D) : Dev.Paged h d D := by
  obtain ⟨m, rfl⟩ := ho
  have hg := (hp.data h).gw
  rw [Dev.hm_setHm_self] at hg
  exact .setHm d hh hg

theorem Dev.late_paged (d : Dev) (h n : Nat) : Dev.Paged h d (d.late h n) := by
  have key : ∀ c : Fld, c ∈ pfFields → c.ok = true → Dev.Paged h d (d.count c Reg.PGU_STATUS_CNT_HALF n) := fun c hm ho => by
    have hl := d.count_onlyLive c Reg.PGU_STATUS_CNT_HALF n
    have hs := (Dev.SameBut.refl pfFields d).count c Reg.PGU_STATUS_CNT_HALF n hm (by decide) ho rfl
    generalize d.count c Reg.PGU_STATUS_CNT_HALF n = D at hl hs
    refine ⟨?_, hs, ?_, ?_⟩
    · rw [hl]
    · rw [hl]
      rfl
    · rw [hl]
      rfl
  unfold Dev.late
  split
  · exact .refl h d
  · split
    · exact key _ (by decide) rfl
    · exact key _ (by decide) rfl

theorem Dev.prefetchPage_paged (d : Dev) {h : Nat} (hh : h < 2) (l : Nat) (keep : List Nat) (p : Nat) : Dev.Paged h d (d.prefetchPage h l keep p) := by
  unfold Dev.prefetchPage
  dsimp only
  split
  · exact .refl h d
  · have h1 : Dev.Paged h d (if (d.hm h).pfIssued < 160 then d.issueRead h l p keep false false else d) := by
      split
      · exact .of_onlyHm hh (d.issueRead_onlyHm ..) (d.issueRead_pages ..)
      · exact .refl h d
    generalize (if (d.hm h).pfIssued < 160 then d.issueRead h l p keep false false else d) = E at h1
    split
    · exact h1.trans (.setHm E hh rfl)
    · exact h1.trans (E.late_paged h 1)

theorem Dev.prefetchHearth_paged (d : Dev) {h : Nat} (hh : h < 2) : Dev.Paged h d (d.prefetchHearth h) := by
  unfold Dev.prefetchHearth
  split
  · exact .refl h d
  · exact .foldl (fun d l => .foldl (fun d p => d.prefetchPage_paged hh l _ p) _ d) _ d

theorem Dev.takeTaps_paged (d : Dev) {h : Nat} (hh : h < 2) (taps : Sparse Taps) (voices : List Nat) (late : Bool) :
    Dev.Paged h d (d.takeTaps h taps voices late) ∧ (late = false → (d.takeTaps h taps voices late).live = d.live) := by
  unfold Dev.takeTaps
  dsimp only
  generalize hm : ({ d.hm h with taps := _, voices := _ } : HMem) = m
  have h1 : Dev.Paged h d (d.setHm h m) := .setHm d hh (by rw [← hm])
  have h2 : (d.setHm h m).live = d.live := by
    unfold Dev.setHm
    split <;> rfl
  generalize d.setHm h m = E at h1 h2
  cases late with
  | false => exact ⟨h1, fun _ => h2⟩
  | true => exact ⟨h1.trans (E.prefetchHearth_paged hh), fun h => by cases h⟩

/-! ### TICK_COMPLETION -/

theorem Dev.framePut_onlyMem (d : Dev) (h l : Nat) (ss : List (Nat × Word)) : Dev.OnlyMem d (d.framePut h l ss) := by
  unfold Dev.framePut
  refine .foldl (fun d s => ?_) _ d
  split
  · exact d.setHm_onlyMem _ _
  · exact .refl d

/-- The write-through of line `l`. -/
def Dev.throughLine (d : Dev) (l : Nat) : Dev :=
  match d.line l with
  | none => d
  | some x =>
    if x.prot && !x.written.isEmpty then
      let d := d.dramPut 0 x x.written
      let d := [0, 1].foldl (fun d h => (d.setHm h ((d.hm h).supersede l x.written)).framePut h l x.written) d
      d.setLine l { x with written := [] }
    else d

theorem Dev.writeThrough_eq (d : Dev) : d.writeThrough = d.mem.lines.foldl (fun d e => d.throughLine e.1) d := rfl

theorem Dev.throughLine_onlyMem (d : Dev) (l : Nat) : Dev.OnlyMem d (d.throughLine l) := by
  unfold Dev.throughLine
  split
  · exact .refl d
  · split
    · rename_i x _ _
      have h1 := d.dramPut_onlyMem 0 x x.written
      dsimp only
      generalize d.dramPut 0 x x.written = E at h1
      have h2 := Dev.OnlyMem.foldl (f := fun (d : Dev) h => (d.setHm h ((d.hm h).supersede l x.written)).framePut h l x.written)
        (fun d h => (d.setHm_onlyMem h _).trans (Dev.framePut_onlyMem _ h l _)) [0, 1] E
      exact (h1.trans h2).trans rfl
    · exact .refl d

theorem Dev.writeThrough_onlyMem (d : Dev) : Dev.OnlyMem d d.writeThrough := by
  rw [Dev.writeThrough_eq]
  exact .foldl (fun d (e : Nat × Line) => d.throughLine_onlyMem e.1) _ d

/-- Where no protected line holds a write, nothing is written through. -/
theorem Dev.writeThrough_same {d : Dev} (h : ∀ e ∈ d.mem.lines, ∀ y, d.line e.1 = some y → y.prot = false ∨ y.written = []) : d.writeThrough = d := by
  rw [Dev.writeThrough_eq]
  generalize d.mem.lines = l at h
  induction l with
  | nil => rfl
  | cons e l ih =>
    have hstay : d.throughLine e.1 = d := by
      unfold Dev.throughLine
      split
      · rfl
      · rename_i x hx
        refine if_neg ?_
        obtain h | h := h e (List.mem_cons_self ..) x hx
        · simp [h]
        · simp [h]
    rw [List.foldl_cons, hstay]
    exact ih fun e he => h e (List.mem_cons_of_mem _ he)

/-- The tick of hearth `i`, completed. -/
def Dev.tickDone (d : Dev) (i : Nat) : Dev := d.setSh i { (d.sh i) with completed := true }

/-- A copy to the other hearth begins. -/
def Dev.copyBegun (d : Dev) (i work : Nat) : Dev :=
  let ws := copyRange (d.hm i).gw (d.emberBase work) d.emberWords [] 0
  let t := d.copiedTaps i
  { d with hrt := { d.hrt with copy := some { seq := d.tick, dest := 1 - i, words := ws, began := d.timeNs, taps := t.1, voices := t.2 } } }

theorem execTickCompletion_eq (s : State) (h : Hearth) (ns : Nat) : exec (.tickCompletion h ns) s = onDev (fun d =>
    if (((d.at ns).hh (hIx h)).st ≠ .active ∧ ((d.at ns).hh (hIx h)).st ≠ .run) ∨ (d.at ns).sch.win ≠ .close ∨ ((d.at ns).sh (hIx h)).completed then d.at ns
    else if ((d.at ns).hh (hIx h)).st = .active && ((d.at ns).hh (hIx h)).trig.isNone && !((((d.at ns).tickDone (hIx h)).writeThrough).sh (hIx h)).skip
        && (((((d.at ns).tickDone (hIx h)).writeThrough).hh (1 - hIx h)).st == .standby || ((((d.at ns).tickDone (hIx h)).writeThrough).hh (1 - hIx h)).st == .syncing) then
      (((d.at ns).tickDone (hIx h)).writeThrough).copyBegun (hIx h) ((d.at ns).hh (hIx h)).work
    else ((d.at ns).tickDone (hIx h)).writeThrough) s := rfl

theorem Dev.copyBegun_told (d : Dev) (i work : Nat) (hw : Sparse.wf (fun _ => (0 : Word)) (d.hm i).gw = true) :
    ∃ c, (d.copyBegun i work) = { d with hrt := { d.hrt with copy := some c } } ∧ c.seq = d.tick ∧ c.dest = 1 - i ∧ c.ue = false ∧ c.began = d.timeNs ∧
      ∀ k, Sparse.get 0 c.words k = if k < d.embPages * 1024 then Sparse.get 0 (d.hm i).gw ((256 + work * d.embPages) * 1024 + k) else 0 := by
  refine ⟨_, rfl, rfl, rfl, rfl, rfl, fun k => ?_⟩
  refine (copyRange_get _ _ _ _ _ _ (Sparse.wf_rising hw)).trans ?_
  rw [Nat.zero_add, Nat.sub_zero, Nat.add_comm]
  refine if_congr ?_ rfl rfl
  exact and_iff_right (Nat.zero_le k)

theorem Dev.sh_setSh_other (d : Dev) {h : Nat} (x : SchH) (hh : h < 2) : (d.setSh h x).sh (1 - h) = d.sh (1 - h) := by
  obtain rfl | rfl := lt_two hh
  · rfl
  · rfl

/-- A completed tick, written through. -/
structure Dev.Through (i : Nat) (d D : Dev) : Prop where
  only : D = { d with sch := D.sch, mem := D.mem }
  own : D.sh i = { d.sh i with completed := true }
  other : D.sh (1 - i) = d.sh (1 - i)
  same : (∀ e ∈ d.mem.lines, ∀ y, d.line e.1 = some y → y.prot = false ∨ y.written = []) → D.mem = d.mem

theorem Dev.tickDone_through (d : Dev) {i : Nat} (hi : i < 2) : Dev.Through i d (d.tickDone i).writeThrough := by
  have h1 : d.tickDone i = { d with sch := (d.tickDone i).sch } := d.setSh_only i _
  have h2 : (d.tickDone i).sh i = { d.sh i with completed := true } := d.setSh_sh_self i _
  have h3 : (d.tickDone i).sh (1 - i) = d.sh (1 - i) := d.sh_setSh_other _ hi
  generalize d.tickDone i = E at h1 h2 h3
  have hm := E.writeThrough_onlyMem
  have hw := E.writeThrough_same
  generalize E.writeThrough = D at hm hw
  have hsh : ∀ k, D.sh k = E.sh k := fun k => by
    rw [hm]
    rfl
  have hmem : E.mem = d.mem := by rw [h1]
  refine ⟨?_, (hsh i).trans h2, (hsh _).trans h3, fun h => ?_⟩
  · have hs : D.sch = E.sch := by rw [hm]
    rw [hs, hm, h1]
  · rw [hw fun e he y hy => h e (hmem ▸ he) y (by rw [← hy, Dev.line, Dev.line, hmem]), hmem]

theorem tickCompletion_waits (s : State) (h : Hearth) (ns : Nat)
    (hd : ¬ (((s.dev.hh (hIx h)).st = .active ∨ (s.dev.hh (hIx h)).st = .run) ∧ s.dev.sch.win = .close ∧ (s.dev.sh (hIx h)).completed = false)) :
    ∃ t, Runs (.tickCompletion h ns) s t ∧ Keeps [] s t (s.dev.at ns) := by
  have hrun := runs_of_onDev (execTickCompletion_eq s h ns)
  have hc : (((s.dev.at ns).hh (hIx h)).st ≠ .active ∧ ((s.dev.at ns).hh (hIx h)).st ≠ .run) ∨ (s.dev.at ns).sch.win ≠ .close ∨
      ((s.dev.at ns).sh (hIx h)).completed = true := by
    by_contra hn
    simp only [not_or, not_and_or, not_not, Bool.not_eq_true] at hn
    exact hd hn
  rw [if_pos hc] at hrun
  exact ⟨_, hrun, fun _ _ => rfl, rfl⟩

theorem tickCompletion_completes (s : State) (h : Hearth) (ns : Nat) : let i := hIx h
    let x := s.dev.hh i
    let o := s.dev.hh (1 - i)
    let base := (256 + x.work * s.dev.embPages) * 1024
    (x.st = .active ∨ x.st = .run) ∧ s.dev.sch.win = .close ∧ (s.dev.sh i).completed = false →
    ∃ t, Runs (.tickCompletion h ns) s t ∧ (t.dev.sh i).completed = true ∧
      t.dev.sh (1 - i) = s.dev.sh (1 - i) ∧ t.dev.live = s.dev.live ∧
      t.dev.hrt = { s.dev.hrt with copy := t.dev.hrt.copy } ∧
      (x.st = .active → x.trig = none → (s.dev.sh i).skip = false → TakesCopies o →
        Sparse.wf (fun _ => (0 : Word)) (s.dev.hm i).gw = true → (∀ e ∈ s.dev.mem.lines, ∀ y, s.dev.line e.1 = some y → y.prot = false ∨ y.written = []) →
        ∃ c, t.dev.hrt.copy = some c ∧ c.seq = s.dev.tick ∧ c.dest = 1 - i ∧ c.ue = false ∧ c.began = (s.dev.at ns).timeNs ∧
          ∀ k, Sparse.get 0 c.words k = if k < s.dev.embPages * 1024 then Sparse.get 0 (s.dev.hm i).gw (base + k) else 0) ∧
      (x.st = .run ∨ x.trig ≠ none ∨ (s.dev.sh i).skip = true ∨ ¬ TakesCopies o → t.dev.hrt.copy = s.dev.hrt.copy) := by
  intro i x o base hd
  obtain ⟨h1, h2, h3⟩ := hd
  have hrun := runs_of_onDev (execTickCompletion_eq s h ns)
  have hc : ¬ ((((s.dev.at ns).hh (hIx h)).st ≠ .active ∧ ((s.dev.at ns).hh (hIx h)).st ≠ .run) ∨ (s.dev.at ns).sch.win ≠ .close ∨
      ((s.dev.at ns).sh (hIx h)).completed = true) := by
    rintro (⟨a, b⟩ | a | a)
    · exact h1.elim a b
    · exact a h2
    · exact Bool.false_ne_true (h3.symm.trans a)
  rw [if_neg hc] at hrun
  obtain ⟨only, own, other, same⟩ := (s.dev.at ns).tickDone_through (hIx_lt h)
  generalize ((s.dev.at ns).tickDone (hIx h)).writeThrough = D at only own other same hrun
  have hskip : (D.sh (hIx h)).skip = (s.dev.sh i).skip := by
    rw [own]
    rfl
  have hDh : D.hh (1 - hIx h) = o := Dev.hh_congr (by rw [only]; rfl) _
  have hrd : ∀ f, D.rd f = s.dev.rd f := fun f => by
    rw [only]
    rfl
  have htake : (o.st == .standby || o.st == .syncing) = true ↔ TakesCopies o := by
    rw [Bool.or_eq_true, beq_iff_eq, beq_iff_eq]
    rfl
  have hx : (s.dev.at ns).hh (hIx h) = x := rfl
  rw [hskip, hDh, hx] at hrun
  have hgo : (decide (x.st = .active) && x.trig.isNone && !(s.dev.sh i).skip && (o.st == .standby || o.st == .syncing)) = true ↔
      x.st = .active ∧ x.trig = none ∧ (s.dev.sh i).skip = false ∧ TakesCopies o := by
    rw [Bool.and_eq_true, Bool.and_eq_true, Bool.and_eq_true, decide_eq_true_eq, Option.isNone_iff_eq_none, Bool.not_eq_true', htake, and_assoc, and_assoc]
  have hlive : D.live = s.dev.live := by
    rw [only]
    rfl
  have hhrt : D.hrt = s.dev.hrt := by
    rw [only]
    rfl
  by_cases hb : x.st = .active ∧ x.trig = none ∧ (s.dev.sh i).skip = false ∧ TakesCopies o
  · rw [if_pos (hgo.mpr hb)] at hrun
    have hcopy : D.copyBegun (hIx h) x.work = { D with hrt := { D.hrt with copy := (D.copyBegun (hIx h) x.work).hrt.copy } } := rfl
    refine ⟨_, hrun, ?_, ?_, ?_, ?_, fun _ _ _ _ hw hl => ?_, fun hn => ?_⟩
    · change (D.sh (hIx h)).completed = true
      rw [own]
    · exact other
    · exact hlive
    · change ({ D.hrt with copy := (D.copyBegun (hIx h) x.work).hrt.copy } : Hrt) = { s.dev.hrt with copy := (D.copyBegun (hIx h) x.work).hrt.copy }
      rw [hhrt]
    · have hmem : D.mem = s.dev.mem := same hl
      have hhm : D.hm (hIx h) = s.dev.hm i := by rw [Dev.hm, hmem, Dev.hm]
      obtain ⟨c, c1, c2, c3, c4, c5, c6⟩ := D.copyBegun_told (hIx h) x.work (by rw [hhm]; exact hw)
      refine ⟨c, ?_, ?_, c3, c4, ?_, fun k => ?_⟩
      · change (D.copyBegun (hIx h) x.work).hrt.copy = some c
        rw [c1]
      · rw [c2, only]
        rfl
      · rw [c5, only]
        rfl
      · have he : D.embPages = s.dev.embPages := hrd _
        rw [c6 k, he, hhm]
    · obtain ⟨b1, b2, b3, b4⟩ := hb
      obtain hn | hn | hn | hn := hn
      · rw [b1] at hn
        cases hn
      · exact absurd b2 hn
      · rw [b3] at hn
        cases hn
      · exact absurd b4 hn
  · rw [if_neg fun hy => hb (hgo.mp hy)] at hrun
    refine ⟨_, hrun, (by change (D.sh (hIx h)).completed = true; rw [own]), other, hlive, ?_, fun a1 a2 a3 a4 => absurd ⟨a1, a2, a3, a4⟩ hb, fun _ => ?_⟩
    · change D.hrt = { s.dev.hrt with copy := D.hrt.copy }
      rw [hhrt]
    · exact congrArg Hrt.copy hhrt

/-! ### EMBER_COPY_DONE -/

/-- The buffer that a copy of sequence number `seq` goes to, and the other one. -/
def HrtH.bufOf (x : HrtH) (seq : Nat) : Option Nat := if seq % 2 = 0 then x.buf0 else x.buf1
def HrtH.otherBuf (x : HrtH) (seq : Nat) : Option Nat := if seq % 2 = 0 then x.buf1 else x.buf0

theorem HrtH.spoil_kept {x : HrtH} {seq : Nat} (h : x.bufOf seq = x.last) (hk : x.kept = true) : x.spoil seq = x := if_pos ⟨hk, h⟩

theorem HrtH.spoil_last_of_ne {x : HrtH} {seq : Nat} (h : x.bufOf seq ≠ x.last) : (x.spoil seq).last = x.last := by
  have hn : ¬ (if seq % 2 = 0 then x.buf0 else x.buf1) = x.last := h
  unfold HrtH.spoil
  dsimp only
  rw [if_neg fun hc => hn hc.2]
  by_cases hp : seq % 2 = 0
  · rw [if_pos hp] at hn
    simp only [if_pos hp, if_neg hn]
  · rw [if_neg hp] at hn
    simp only [if_neg hp, if_neg hn]

theorem HrtH.spoil_last {x : HrtH} {seq : Nat} (h : x.bufOf seq = x.last) (hk : x.kept = false) : (x.spoil seq).last = x.otherBuf seq := by
  have hn : (if seq % 2 = 0 then x.buf0 else x.buf1) = x.last := h
  unfold HrtH.spoil HrtH.otherBuf
  dsimp only
  rw [if_neg fun hc => by rw [hk] at hc; exact Bool.false_ne_true hc.1]
  by_cases hp : seq % 2 = 0
  · rw [if_pos hp] at hn
    simp only [if_pos hp, hn, if_true]
  · rw [if_neg hp] at hn
    simp only [if_neg hp, hn, if_true]

/-- The device with the copy in flight ended and timed. -/
def Dev.copyEnded (d : Dev) : Dev :=
  ({ d with hrt := { d.hrt with copy := none } } : Dev).wr Reg.HRT_ETIME_NS ({ d with hrt := { d.hrt with copy := none } } : Dev).copyNs

/-- A copy that is not complete. -/
def Dev.copySpoilt (d : Dev) (c : EmberCopy) (x : HrtH) : Dev :=
  (((d.setHh c.dest (x.spoil c.seq)).count Reg.HRT_ECRCERR_COUNT Reg.HRT_STATUS_CNT_HALF).flag Reg.HRT_STATUS_EMBEV).post 7 5 (c.seq % 2 ^ 32 * 2 ^ 32)

/-- The words of a complete copy in its buffer. -/
def Dev.copyStored (d : Dev) (c : EmberCopy) : Dev :=
  d.setHm c.dest { d.hm c.dest with gw := copyRange c.words 0 d.emberWords (d.hm c.dest).gw (d.emberBase (c.seq % 2)) }

/-- A hearth that has received the complete copy of `seq`. -/
def HrtH.received (x : HrtH) (seq : Nat) : HrtH :=
  { (if seq % 2 = 0 then { x with buf0 := some seq } else { x with buf1 := some seq } : HrtH) with last := some seq, kept := false }

/-- A complete copy. -/
def Dev.copyTaken (d : Dev) (c : EmberCopy) (x : HrtH) : Dev :=
  let d := (d.copyStored c).setHh c.dest (x.received c.seq)
  let d := (d.wr Reg.HRT_ESEQ_SEQ (c.seq % 2 ^ 32)).count Reg.HRT_ECOPIES_COUNT Reg.HRT_STATUS_CNT_HALF
  let d := d.takeTaps c.dest c.taps c.voices (decide (c.seq < d.tick))
  d.refresh c.dest

theorem execEmberCopyDone_eq (s : State) (ok : Bool) (ns : Nat) : exec (.emberCopyDone ok ns) s = onDev (fun d =>
    match (d.at ns).hrt.copy with
    | none => d.at ns
    | some c =>
      if (d.at ns).timeNs < c.began + (d.at ns).copyNs then d.at ns
      else if !ok || !(((d.at ns).hh c.dest).last.all fun q => decide (c.seq > q)) then (d.at ns).copyEnded.copySpoilt c ((d.at ns).hh c.dest)
      else if c.ue then (d.at ns).copyEnded.setHh c.dest (((d.at ns).hh c.dest).spoil c.seq)
      else (d.at ns).copyEnded.copyTaken c ((d.at ns).hh c.dest)) s := rfl

/-- The fields of the end of a copy. -/
def copyFields : List Fld := [Reg.HRT_ECRCERR_COUNT, Reg.HRT_ESEQ_SEQ, Reg.HRT_ECOPIES_COUNT, Reg.HRT_STATUS_CNT_HALF, Reg.HRT_STATUS_EMBEV, Reg.HRT_STATUS_HSTEV]

/-- The end of a copy to hearth `h`: beside the fields `fs` and the events `es`, memory and the hearths' states change. -/
structure Dev.OnCopy (fs : List Fld) (es : List (Nat × Nat × Nat)) (h : Nat) (d D : Dev) : Prop where
  only : D = { d with live := D.live, evq := { d.evq with posts := d.evq.posts ++ es }, mem := D.mem, hrt := D.hrt }
  same : Dev.SameBut fs d D
  hrt : D.hrt.copy = d.hrt.copy
  hh : D.hh (1 - h) = d.hh (1 - h)
  hm : D.hm (1 - h) = d.hm (1 - h)

theorem Dev.OnCopy.trans {fs : List Fld} {es es' : List (Nat × Nat × Nat)} {h : Nat} {d d' d'' : Dev} (a : Dev.OnCopy fs es h d d') (b : Dev.OnCopy fs es' h d' d'') :
    Dev.OnCopy fs (es ++ es') h d d'' :=
  ⟨by rw [b.only, a.only, List.append_assoc], a.same.trans b.same, b.hrt.trans a.hrt, b.hh.trans a.hh, b.hm.trans a.hm⟩

theorem Dev.OnCopy.mono {fs gs : List Fld} {es : List (Nat × Nat × Nat)} {h : Nat} {d D : Dev} (a : Dev.OnCopy fs es h d D) (hs : ∀ f ∈ fs, f ∈ gs) : Dev.OnCopy gs es h d D :=
  { a with same := a.same.mono hs }

theorem Dev.Acts.onCopy {fs : List Fld} {es : List (Nat × Nat × Nat)} {d D : Dev} (a : Dev.Acts fs es d D) (h : Nat) : Dev.OnCopy fs es h d D := by
  have hm : D.mem = d.mem := by rw [a.only]
  refine ⟨by rw [a.only], a.same, by rw [a.hrt], Dev.hh_congr a.hrt _, by rw [Dev.hm, hm, Dev.hm]⟩

theorem Dev.setHh_onCopy (fs : List Fld) (d : Dev) {h : Nat} (hh : h < 2) (x : HrtH) : Dev.OnCopy fs [] h d (d.setHh h x) := by
  have a := Dev.OnHrt.setHh fs d h x
  have b := d.setHh_hrt h x
  have hm : (d.setHh h x).mem = d.mem := by rw [a.only]
  exact ⟨by rw [a.only], a.same, by rw [b], d.hh_setHh_other x hh, by rw [Dev.hm, hm, Dev.hm]⟩

theorem Dev.Paged.onCopy {h : Nat} {d D : Dev} (a : Dev.Paged h d D) : Dev.OnCopy pfFields [] h d D := by
  have hh : D.hrt = d.hrt := by rw [a.only]
  refine ⟨?_, a.same, by rw [hh], Dev.hh_congr hh _, a.other⟩
  rw [a.only, List.append_nil]

theorem Dev.Refreshed.onCopy {h : Nat} {d D : Dev} (a : Dev.Refreshed d D h) : ∃ es, Dev.OnCopy [Reg.HRT_STATUS_HSTEV] es h d D := by
  obtain ⟨es, on⟩ := a.on
  have hm : D.mem = d.mem := by rw [on.only]
  exact ⟨es, by rw [on.only], on.same, a.copy, a.other, by rw [Dev.hm, hm, Dev.hm]⟩

/-- The words of `Claims.EmberCopiesPreserveTheState` hold all fields of the end of a copy. -/
theorem Dev.OnCopy.keeps {s t : State} {es : List (Nat × Nat × Nat)} {h ns : Nat} {B D : Dev} (a : Dev.OnCopy (copyFields ++ pfFields) es h B D)
    (hB : B = { s.dev.at ns with live := B.live, hrt := B.hrt }) (hw : Dev.SameBut [Reg.HRT_ETIME_NS] s.dev B) (ht : t.dev = D.settle) :
    Keeps [Reg.HRT_ETIME_NS.addr, Reg.HRT_ECRCERR_COUNT.addr, Reg.HRT_ESEQ_SEQ.addr, Reg.HRT_ECOPIES_COUNT.addr,
      Reg.HRT_STATUS_EMBEV.addr, Reg.PGU_PFLATEA_COUNT.addr, Reg.PGU_PFLATEB_COUNT.addr, Reg.PGU_STATUS_CNT_HALF.addr] s t
      { s.dev.at ns with mem := t.dev.mem, hrt := t.dev.hrt } := by
  have hs := (hw.mono (gs := Reg.HRT_ETIME_NS :: (copyFields ++ pfFields)) (by simp)).trans (a.same.mono fun f hf => List.mem_cons_of_mem _ hf)
  refine ⟨fun w hn => ?_, ?_⟩
  · rw [ht, Dev.settle_word]
    refine hs.word fun f hf he => hn ?_
    rw [← he]
    exact (show ∀ f ∈ Reg.HRT_ETIME_NS :: (copyFields ++ pfFields), f.addr ∈ _ by decide) f hf
  · rw [ht]
    change D.settle = Around { s.dev.at ns with mem := D.mem, hrt := D.hrt } D.settle
    refine Dev.around_of_eq ?_
    rw [a.only, hB]

theorem Dev.copyEnded_told (d : Dev) :
    d.copyEnded = { d with live := d.copyEnded.live, hrt := { d.hrt with copy := none } } ∧ Dev.SameBut [Reg.HRT_ETIME_NS] d d.copyEnded ∧
      d.copyEnded.rd Reg.HRT_ETIME_NS = (d.embPages * 128 + 100) % 2 ^ 16 :=
  ⟨rfl, (Dev.SameBut.of_live rfl).wr Reg.HRT_ETIME_NS _ (by decide) rfl, Dev.rd_wr _ _ _ rfl⟩

theorem Dev.copySpoilt_told (d : Dev) (c : EmberCopy) (x : HrtH) (hd : c.dest < 2) :
    Dev.OnCopy copyFields [(7, 5, c.seq % 2 ^ 32 * 2 ^ 32)] c.dest d (d.copySpoilt c x) ∧ (d.copySpoilt c x).mem = d.mem ∧ (d.copySpoilt c x).hh c.dest = x.spoil c.seq ∧
      (d.copySpoilt c x).rd Reg.HRT_ECRCERR_COUNT = (d.rd Reg.HRT_ECRCERR_COUNT + 1) % 2 ^ 32 ∧ (d.copySpoilt c x).rd Reg.HRT_STATUS_EMBEV = 1 ∧
      Dev.SameBut copyFields d (d.copySpoilt c x) := by
  unfold Dev.copySpoilt
  have a := d.setHh_onCopy copyFields hd (x.spoil c.seq)
  have b := d.hh_setHh_self c.dest (x.spoil c.seq)
  have m : (d.setHh c.dest (x.spoil c.seq)).mem = d.mem := by rw [(Dev.OnHrt.setHh [] d c.dest (x.spoil c.seq)).only]
  have v := (Dev.OnHrt.setHh [] d c.dest (x.spoil c.seq)).same.rd (g := Reg.HRT_ECRCERR_COUNT) rfl
  generalize d.setHh c.dest (x.spoil c.seq) = S at a b m v
  have h := ((((Dev.Acts.refl copyFields S).count (c := Reg.HRT_ECRCERR_COUNT) (half := Reg.HRT_STATUS_CNT_HALF) 1 (by decide) (by decide) rfl rfl).flag
    (f := Reg.HRT_STATUS_EMBEV) (by decide) rfl).post 7 5 (c.seq % 2 ^ 32 * 2 ^ 32))
  have r1 : (((S.count Reg.HRT_ECRCERR_COUNT Reg.HRT_STATUS_CNT_HALF).flag Reg.HRT_STATUS_EMBEV).post 7 5 (c.seq % 2 ^ 32 * 2 ^ 32)).rd Reg.HRT_ECRCERR_COUNT
      = (d.rd Reg.HRT_ECRCERR_COUNT + 1) % 2 ^ 32 := by
    rw [Dev.post_rd, Dev.rd_flag_sep _ _ _ rfl, Dev.rd_count _ _ _ _ rfl rfl rfl, v]
    rfl
  have r2 : (((S.count Reg.HRT_ECRCERR_COUNT Reg.HRT_STATUS_CNT_HALF).flag Reg.HRT_STATUS_EMBEV).post 7 5 (c.seq % 2 ^ 32 * 2 ^ 32)).rd Reg.HRT_STATUS_EMBEV = 1 := by
    rw [Dev.post_rd, Dev.rd_flag _ _ rfl]
  generalize (((S.count Reg.HRT_ECRCERR_COUNT Reg.HRT_STATUS_CNT_HALF).flag Reg.HRT_STATUS_EMBEV).post 7 5 (c.seq % 2 ^ 32 * 2 ^ 32)) = D at h r1 r2
  exact ⟨a.trans (h.onCopy c.dest), (by rw [h.only]; exact m), (Dev.hh_congr h.hrt _).trans b, r1, r2, a.same.trans h.same⟩

theorem HrtH.received_told (x : HrtH) (seq : Nat) : (x.received seq).last = some seq ∧ (x.received seq).bufOf seq = some seq ∧ (x.received seq).st = x.st ∧
    (x.received seq).recopy = x.recopy := by
  unfold HrtH.received HrtH.bufOf
  by_cases h : seq % 2 = 0 <;> simp [h]

/-- What a complete copy does (R427, R430). -/
structure Dev.Taken (c : EmberCopy) (x : HrtH) (d D : Dev) : Prop where
  on : ∃ es, Dev.OnCopy (copyFields ++ pfFields) es c.dest d D
  early : d.tick ≤ c.seq → Dev.SameBut copyFields d D
  seq : D.rd Reg.HRT_ESEQ_SEQ = c.seq % 2 ^ 32
  copies : D.rd Reg.HRT_ECOPIES_COUNT = (d.rd Reg.HRT_ECOPIES_COUNT + 1) % 2 ^ 32
  last : (D.hh c.dest).last = some c.seq
  buf : (D.hh c.dest).bufOf c.seq = some c.seq
  st : TakesCopies x → (D.hh c.dest).st = if x.recopy = false ∧ d.tick ≤ c.seq + 2 then .standby else .syncing
  gw : (D.hm c.dest).gw = ((d.copyStored c).hm c.dest).gw

theorem Dev.copyStored_onCopy (fs : List Fld) (d : Dev) (c : EmberCopy) (hd : c.dest < 2) : Dev.OnCopy fs [] c.dest d (d.copyStored c) := by
  have a : Dev.OnlyMem d (d.copyStored c) := d.setHm_onlyMem c.dest _
  have o : (d.copyStored c).hm (1 - c.dest) = d.hm (1 - c.dest) := d.hm_setHm_other c.dest _ hd
  generalize d.copyStored c = S at a o
  have hh : S.hrt = d.hrt := by rw [a]
  refine ⟨?_, .of_live (by rw [a]), by rw [hh], Dev.hh_congr hh _, o⟩
  rw [a, List.append_nil]

theorem Dev.copyTaken_told (d : Dev) (c : EmberCopy) (x : HrtH) (hd : c.dest < 2) : Dev.Taken c x d (d.copyTaken c x) := by
  unfold Dev.copyTaken
  have a1 := Dev.copyStored_onCopy [] d c hd
  generalize hS : d.copyStored c = S at a1
  obtain ⟨e1, e2, e3, e4⟩ := x.received_told c.seq
  have a2 := S.setHh_onCopy [] hd (x.received c.seq)
  have b2 := S.hh_setHh_self c.dest (x.received c.seq)
  have m2 : (S.setHh c.dest (x.received c.seq)).mem = S.mem := by rw [(Dev.OnHrt.setHh [] S c.dest (x.received c.seq)).only]
  dsimp only
  generalize S.setHh c.dest (x.received c.seq) = T at a2 b2 m2
  have a12 := a1.trans a2
  have h3 := ((Dev.Acts.refl copyFields T).wr (f := Reg.HRT_ESEQ_SEQ) (c.seq % 2 ^ 32) (by decide) rfl).count (c := Reg.HRT_ECOPIES_COUNT) (half := Reg.HRT_STATUS_CNT_HALF)
    1 (by decide) (by decide) rfl rfl
  have r1 : ((T.wr Reg.HRT_ESEQ_SEQ (c.seq % 2 ^ 32)).count Reg.HRT_ECOPIES_COUNT Reg.HRT_STATUS_CNT_HALF).rd Reg.HRT_ESEQ_SEQ = c.seq % 2 ^ 32 := by
    rw [Dev.rd_count_apart _ _ _ _ _ rfl rfl rfl rfl rfl]
    exact Dev.rd_wr_lt T Reg.HRT_ESEQ_SEQ _ rfl (Nat.mod_lt _ (by decide))
  have r2 : ((T.wr Reg.HRT_ESEQ_SEQ (c.seq % 2 ^ 32)).count Reg.HRT_ECOPIES_COUNT Reg.HRT_STATUS_CNT_HALF).rd Reg.HRT_ECOPIES_COUNT
      = (d.rd Reg.HRT_ECOPIES_COUNT + 1) % 2 ^ 32 := by
    rw [Dev.rd_count _ _ _ _ rfl rfl rfl, Dev.rd_wr_sep _ _ _ _ rfl, a12.same.rd (g := Reg.HRT_ECOPIES_COUNT) rfl]
    rfl
  generalize (T.wr Reg.HRT_ESEQ_SEQ (c.seq % 2 ^ 32)).count Reg.HRT_ECOPIES_COUNT Reg.HRT_STATUS_CNT_HALF = U at h3 r1 r2
  have hUt : U.tick = d.tick := by rw [h3.only, a2.only, a1.only]
  have hUh : U.hh c.dest = x.received c.seq := (Dev.hh_congr h3.hrt _).trans b2
  have hUm : U.mem = S.mem := by rw [h3.only]; exact m2
  have a123 := (a12.mono (gs := copyFields) (by simp)).trans (h3.onCopy c.dest)
  obtain ⟨p1, p2⟩ := U.takeTaps_paged hd c.taps c.voices (decide (c.seq < U.tick))
  generalize U.takeTaps c.dest c.taps c.voices (decide (c.seq < U.tick)) = V at p1 p2
  have hVt : V.tick = d.tick := by rw [p1.only]; exact hUt
  have hVh : V.hh c.dest = x.received c.seq := (Dev.hh_congr (by rw [p1.only]) _).trans hUh
  have r := V.refresh_told hd
  generalize V.refresh c.dest = D at r
  obtain ⟨es, on⟩ := r.onCopy
  obtain ⟨st, k, own⟩ := r.own
  have state := r.state
  rw [hVh] at own state
  have g : ∀ f : Fld, Fld.clear (Reg.HRT_STATUS_HSTEV :: pfFields) f = true → D.rd f = U.rd f := fun f hf =>
    ((p1.same.mono fun g hg => List.mem_cons_of_mem _ hg).trans (on.same.mono (by simp))).rd hf
  refine ⟨⟨_, ((a123.mono fun f hf => List.mem_append_left _ hf).trans (p1.onCopy.mono fun f hf => List.mem_append_right _ hf)).trans
      (on.mono (by decide))⟩, fun he => ?_, (g _ rfl).trans r1, (g _ rfl).trans r2, ?_, ?_, fun ht => ?_, ?_⟩
  · refine (a123.same.trans (.of_live (p2 ?_))).trans (on.same.mono (by decide))
    rw [hUt]
    exact decide_eq_false (by omega)
  · rw [own]
    exact e1
  · rw [own]
    exact e2
  · rw [e1, e4, hVt] at state
    have ht' : TakesCopies (x.received c.seq) := by
      rw [TakesCopies, e3]
      exact ht
    refine (state ht').trans (if_congr (and_congr_right fun _ => ?_) rfl rfl)
    simp
  · obtain ⟨_, honly⟩ := r.on
    have hDV : D.mem = V.mem := by rw [honly.only]
    rw [Dev.hm, hDV]
    refine p1.gw.trans ?_
    rw [Dev.hm, hUm, hS, Dev.hm]

theorem emberCopyDone_idle (s : State) (ok : Bool) (ns : Nat) (hn : s.dev.hrt.copy = none) :
    ∃ t, Runs (.emberCopyDone ok ns) s t ∧ Keeps [] s t (s.dev.at ns) := by
  have hrun := runs_of_onDev (execEmberCopyDone_eq s ok ns)
  have hc : (s.dev.at ns).hrt.copy = none := hn
  rw [hc] at hrun
  exact ⟨_, hrun, fun _ _ => rfl, rfl⟩

theorem emberCopyDone_waits (s : State) (ok : Bool) (ns : Nat) (c : EmberCopy) (hs : s.dev.hrt.copy = some c)
    (ht : (s.dev.at ns).timeNs < c.began + s.dev.embPages * 128 + 100) : ∃ t, Runs (.emberCopyDone ok ns) s t ∧ Keeps [] s t (s.dev.at ns) := by
  have hrun := runs_of_onDev (execEmberCopyDone_eq s ok ns)
  have hc : (s.dev.at ns).hrt.copy = some c := hs
  have hn : (s.dev.at ns).timeNs < c.began + (s.dev.at ns).copyNs := by
    rw [Nat.add_assoc] at ht
    exact ht
  rw [hc] at hrun
  dsimp only at hrun
  rw [if_pos hn] at hrun
  exact ⟨_, hrun, fun _ _ => rfl, rfl⟩

theorem HrtH.spoil_hearth {x y : HrtH} {seq : Nat} (hy : y = x.spoil seq) :
    ((if seq % 2 = 0 then x.buf0 else x.buf1) ≠ x.last → y.last = x.last) ∧
    ((if seq % 2 = 0 then x.buf0 else x.buf1) = x.last → x.kept = false → y.last = if seq % 2 = 0 then x.buf1 else x.buf0) ∧
    ((if seq % 2 = 0 then x.buf0 else x.buf1) = x.last → x.kept = true → y = x) := by
  subst hy
  exact ⟨fun h => HrtH.spoil_last_of_ne h, fun h hk => HrtH.spoil_last h hk, fun h hk => HrtH.spoil_kept h hk⟩

theorem Dev.copyStored_gw (d : Dev) (c : EmberCopy) (hw : Sparse.wf (fun _ => (0 : Word)) c.words = true) (a : Nat) :
    Sparse.get 0 ((d.copyStored c).hm c.dest).gw a =
      if (256 + c.seq % 2 * d.embPages) * 1024 ≤ a ∧ a < (256 + c.seq % 2 * d.embPages) * 1024 + d.embPages * 1024
        then Sparse.get 0 c.words (a - (256 + c.seq % 2 * d.embPages) * 1024) else Sparse.get 0 (d.hm c.dest).gw a := by
  unfold Dev.copyStored
  rw [Dev.hm_setHm_self]
  exact copyRange_get _ _ _ _ _ _ (Sparse.wf_rising hw)

theorem emberCopyDone_ends (s : State) (ok : Bool) (ns : Nat) (c : EmberCopy) (hs : s.dev.hrt.copy = some c) (hd : c.dest < 2)
    (ht : c.began + s.dev.embPages * 128 + 100 ≤ (s.dev.at ns).timeNs) :
    let x := s.dev.hh c.dest
    let pages := s.dev.embPages
    let old := if c.seq % 2 = 0 then x.buf0 else x.buf1
    let held := if c.seq % 2 = 0 then x.buf1 else x.buf0
    let good := ok = true ∧ ∀ q, x.last = some q → q < c.seq
    let base := (256 + c.seq % 2 * pages) * 1024
    ∃ t, Runs (.emberCopyDone ok ns) s t ∧ t.dev.hrt.copy = none ∧ t.dev.rd Reg.HRT_ETIME_NS = (pages * 128 + 100) % 2 ^ 16 ∧
      t.dev.hh (1 - c.dest) = s.dev.hh (1 - c.dest) ∧ t.dev.hm (1 - c.dest) = s.dev.hm (1 - c.dest) ∧
      Keeps [Reg.HRT_ETIME_NS.addr, Reg.HRT_ECRCERR_COUNT.addr, Reg.HRT_ESEQ_SEQ.addr, Reg.HRT_ECOPIES_COUNT.addr,
        Reg.HRT_STATUS_EMBEV.addr, Reg.PGU_PFLATEA_COUNT.addr, Reg.PGU_PFLATEB_COUNT.addr, Reg.PGU_STATUS_CNT_HALF.addr] s t
        { s.dev.at ns with mem := t.dev.mem, hrt := t.dev.hrt } ∧
      (¬ good ∨ c.ue = true ∨ s.dev.tick ≤ c.seq → ∀ f ∈ [Reg.PGU_PFLATEA_COUNT, Reg.PGU_PFLATEB_COUNT, Reg.PGU_STATUS_CNT_HALF],
        t.dev.word f.addr = s.dev.word f.addr) ∧
      (¬ good → t.dev.rd Reg.HRT_ECRCERR_COUNT = (s.dev.rd Reg.HRT_ECRCERR_COUNT + 1) % 2 ^ 32 ∧ t.dev.rd Reg.HRT_STATUS_EMBEV = 1 ∧
        t.dev.mem = s.dev.mem ∧ (old ≠ x.last → (t.dev.hh c.dest).last = x.last) ∧
        (Room s → EntersAll s t [(7, 5, c.seq % 2 ^ 32 * 2 ^ 32)])) ∧
      (good → c.ue = true → t.dev.mem = s.dev.mem ∧ (old ≠ x.last → (t.dev.hh c.dest).last = x.last)) ∧
      (¬ good ∨ c.ue = true → old = x.last → x.kept = false → (t.dev.hh c.dest).last = held) ∧
      (¬ good ∨ c.ue = true → old = x.last → x.kept = true → t.dev.hh c.dest = x) ∧
      (good → c.ue = false → t.dev.rd Reg.HRT_ESEQ_SEQ = c.seq % 2 ^ 32 ∧
        t.dev.rd Reg.HRT_ECOPIES_COUNT = (s.dev.rd Reg.HRT_ECOPIES_COUNT + 1) % 2 ^ 32 ∧ (t.dev.hh c.dest).last = some c.seq ∧
        (if c.seq % 2 = 0 then (t.dev.hh c.dest).buf0 else (t.dev.hh c.dest).buf1) = some c.seq ∧
        (TakesCopies x → (t.dev.hh c.dest).st = if x.recopy = false ∧ s.dev.tick ≤ c.seq + 2 then .standby else .syncing) ∧
        (Sparse.wf (fun _ => (0 : Word)) (s.dev.hm c.dest).gw = true → Sparse.wf (fun _ => (0 : Word)) c.words = true →
          ∀ a, Sparse.get 0 (t.dev.hm c.dest).gw a =
            if base ≤ a ∧ a < base + pages * 1024 then Sparse.get 0 c.words (a - base) else Sparse.get 0 (s.dev.hm c.dest).gw a)) := by
  intro x pages old held good base
  have hrun := runs_of_onDev (execEmberCopyDone_eq s ok ns)
  have hc : (s.dev.at ns).hrt.copy = some c := hs
  have hn : ¬ (s.dev.at ns).timeNs < c.began + (s.dev.at ns).copyNs := by
    rw [Nat.add_assoc] at ht
    exact Nat.not_lt.mpr ht
  rw [hc] at hrun
  dsimp only at hrun
  rw [if_neg hn] at hrun
  have hx : (s.dev.at ns).hh c.dest = x := rfl
  rw [hx] at hrun
  have hgood : (!ok || !(x.last.all fun q => decide (c.seq > q))) = true ↔ ¬ good := by
    rw [Bool.or_eq_true, Bool.not_eq_true', Bool.not_eq_true', not_and_or]
    refine or_congr (by simp) ?_
    cases x.last <;> simp
  obtain ⟨b1, b2, b3⟩ := (s.dev.at ns).copyEnded_told
  have b2 : Dev.SameBut [Reg.HRT_ETIME_NS] s.dev (s.dev.at ns).copyEnded := b2
  have b4 : (s.dev.at ns).copyEnded.embPages = pages := b2.rd (g := Reg.ALC_LAYOUT_EMB_PAGES) rfl
  have b5 : (s.dev.at ns).copyEnded.rd Reg.HRT_ECRCERR_COUNT = s.dev.rd Reg.HRT_ECRCERR_COUNT := Dev.rd_wr_sep _ _ _ _ rfl
  have b6 : (s.dev.at ns).copyEnded.rd Reg.HRT_ECOPIES_COUNT = s.dev.rd Reg.HRT_ECOPIES_COUNT := Dev.rd_wr_sep _ _ _ _ rfl
  generalize (s.dev.at ns).copyEnded = B at b1 b2 b3 b4 b5 b6 hrun
  have hB : B = { s.dev.at ns with live := B.live, hrt := B.hrt } := by rw [b1]
  have hBc : B.hrt.copy = none := by rw [b1]
  have hBhh : ∀ i, B.hh i = s.dev.hh i := fun i => by rw [b1]; rfl
  have hBmem : B.mem = s.dev.mem := by rw [b1]; rfl
  have hBhm : ∀ i, B.hm i = s.dev.hm i := fun i => by rw [Dev.hm, hBmem, Dev.hm]
  have hBt : B.tick = s.dev.tick := by rw [b1]; rfl
  have hpf : ∀ {D : Dev}, Dev.SameBut copyFields B D → ∀ f ∈ [Reg.PGU_PFLATEA_COUNT, Reg.PGU_PFLATEB_COUNT, Reg.PGU_STATUS_CNT_HALF],
      D.settle.word f.addr = s.dev.word f.addr := fun {D} hD f hf => by
    rw [Dev.settle_word]
    refine ((b2.mono (gs := Reg.HRT_ETIME_NS :: copyFields) (by simp)).trans (hD.mono fun g hg => List.mem_cons_of_mem _ hg)).word fun g hg => ?_
    exact (show ∀ f ∈ [Reg.PGU_PFLATEA_COUNT, Reg.PGU_PFLATEB_COUNT, Reg.PGU_STATUS_CNT_HALF], ∀ g ∈ Reg.HRT_ETIME_NS :: copyFields, g.addr ≠ f.addr by decide) f hf g hg
  by_cases hg : good
  · rw [if_neg fun h => hgood.mp h hg] at hrun
    cases hue : c.ue with
    | true =>
      rw [hue, if_pos (rfl : true = true)] at hrun
      have a := B.setHh_onCopy (copyFields ++ pfFields) hd (x.spoil c.seq)
      have b := B.hh_setHh_self c.dest (x.spoil c.seq)
      have m := (Dev.OnHrt.setHh copyFields B c.dest (x.spoil c.seq))
      generalize B.setHh c.dest (x.spoil c.seq) = D at a b m hrun
      have hm : D.mem = s.dev.mem := by rw [m.only]; exact hBmem
      obtain ⟨s1, s2, s3⟩ := HrtH.spoil_hearth b
      exact ⟨_, hrun, a.hrt.trans hBc, (a.same.rd rfl).trans b3, a.hh.trans (hBhh _), a.hm.trans (hBhm _), a.keeps hB b2 rfl, fun _ => hpf m.same,
        fun h => absurd hg h, fun _ _ => ⟨hm, s1⟩, fun _ => s2, fun _ => s3, fun _ h => by cases h⟩
    | false =>
      rw [hue, if_neg Bool.false_ne_true] at hrun
      have r := B.copyTaken_told c x hd
      have w := B.copyStored_gw c
      generalize B.copyTaken c x = D at r hrun
      obtain ⟨es, a⟩ := r.on
      refine ⟨_, hrun, a.hrt.trans hBc, (a.same.rd rfl).trans b3, a.hh.trans (hBhh _), a.hm.trans (hBhm _), a.keeps hB b2 rfl, fun h => ?_, fun h => absurd hg h,
        fun _ h => absurd h Bool.false_ne_true, fun h => ?_, fun h => ?_, fun _ _ => ⟨r.seq, r.copies.trans (by rw [b6]), r.last, r.buf, fun ht => ?_, fun _ hw k => ?_⟩⟩
      · obtain h | h | h := h
        · exact absurd hg h
        · cases h
        · exact hpf (r.early (hBt ▸ h))
      · obtain h | h := h
        · exact absurd hg h
        · cases h
      · obtain h | h := h
        · exact absurd hg h
        · cases h
      · refine (r.st ht).trans ?_
        rw [hBt]
      · have := w hw k
        rw [← r.gw, b4, hBhm] at this
        exact this
  · rw [if_pos (hgood.mpr hg)] at hrun
    obtain ⟨a, m, b, v1, v2, ss⟩ := B.copySpoilt_told c x hd
    generalize B.copySpoilt c x = D at a m b v1 v2 ss hrun
    obtain ⟨s1, s2, s3⟩ := HrtH.spoil_hearth b
    refine ⟨_, hrun, a.hrt.trans hBc, (a.same.rd rfl).trans b3, a.hh.trans (hBhh _), a.hm.trans (hBhm _),
      (a.mono fun f hf => List.mem_append_left _ hf).keeps hB b2 rfl, fun _ => hpf ss,
      fun _ => ⟨v1.trans (by rw [b5]), v2, m.trans hBmem, s1, fun hr => ?_⟩, fun h => absurd h hg, fun _ => s2, fun _ => s3, fun h => absurd h hg⟩
    have hevq : D.evq = { s.dev.evq with posts := s.dev.evq.posts ++ [(7, 5, c.seq % 2 ^ 32 * 2 ^ 32)] } := by
      rw [a.only, hB]
      rfl
    have htick : D.tick = s.dev.tick := by
      rw [a.only]
      exact hBt
    exact enters_of_evq hevq htick 7 (by decide) (by simp) (by simp) hr rfl

theorem emberCopiesPreserveTheState : EmberCopiesPreserveTheState :=
  ⟨fun s h ns => ⟨tickCompletion_waits s h ns, tickCompletion_completes s h ns⟩,
    fun s ok ns => ⟨emberCopyDone_idle s ok ns, emberCopyDone_waits s ok ns, emberCopyDone_ends s ok ns⟩⟩

/-- Settles O56: each of the three claims, by the lemmas of its commands. -/
theorem hearthsCopySwapAndRestore : Obligations.HearthsCopySwapAndRestore :=
  ⟨emberCopiesPreserveTheState, proofSwapsAreRequested, hearthsAreRestored⟩

end Sys2Proof.Machine
end

section
/-! Register writes, at once and in the slow domain, and the alias window (R24, R26, R29, R34, R59 to R63, R66). -/
namespace Sys2Proof.Machine
open Sys2Proof.Claims

/-! ### The bits that a write loads -/

/-- The bits of the word at `w` that a write of `m` loads into the rows `rs` whose type satisfies `p`. -/
def writeMask (p : Ty → Bool) (w : Nat) (m : Word) : List Row → Word
  | [] => 0
  | r :: rs => (if p r.ty then r.fld.mask &&& m &&& writable w else 0) ||| writeMask p w m rs

/-- RWS fields have a shadow copy that writes load, and RWL, WO1, HRW and CNT fields are loaded in the live copy (R29). -/
def isStaged : Ty → Bool := fun ty => ty == .rws
def isLoaded : Ty → Bool := fun ty => ty == .rwl || ty == .wo1 || ty == .hrw || ty == .cnt

theorem merge_getLsbD (x data m : Word) {i : Nat} (hi : i < 32) :
    (merge x data m).getLsbD i = if m.getLsbD i = true then data.getLsbD i else x.getLsbD i := by
  unfold merge
  rw [BitVec.getLsbD_or, BitVec.getLsbD_and, BitVec.getLsbD_and, BitVec.getLsbD_not]
  cases m.getLsbD i <;> simp [hi]

theorem merge_zero (x data : Word) : merge x data 0 = x := by
  refine BitVec.eq_of_getLsbD_eq fun i hi => ?_
  rw [merge_getLsbD _ _ _ hi, if_neg (by simp)]

theorem merge_merge (x data m m' : Word) : merge (merge x data m) data m' = merge x data (m ||| m') := by
  refine BitVec.eq_of_getLsbD_eq fun i hi => ?_
  rw [merge_getLsbD _ _ _ hi, merge_getLsbD _ _ _ hi, merge_getLsbD _ _ _ hi, BitVec.getLsbD_or]
  cases m.getLsbD i <;> cases m'.getLsbD i <;> simp

theorem writeMask_getLsbD (p : Ty → Bool) (w : Nat) (m : Word) (rs : List Row) (i : Nat) :
    (writeMask p w m rs).getLsbD i = true ↔ ∃ r ∈ rs, p r.ty = true ∧ (r.fld.mask &&& m &&& writable w).getLsbD i = true := by
  induction rs with
  | nil => simp [writeMask]
  | cons r rs ih =>
    rw [writeMask, BitVec.getLsbD_or, Bool.or_eq_true, ih, List.exists_mem_cons_iff]
    refine or_congr_left ?_
    cases p r.ty <;> simp

theorem writable_getLsbD (w : Nat) {i : Nat} (hi : i < 32) : (writable w).getLsbD i = true ↔ ¬ (w = 0x2000 ∧ i = 23) := by
  unfold writable
  by_cases hw : w = 0x2000
  · rw [if_pos hw]
    have := (show ∀ i : Fin 32, (~~~(0x800000 : Word)).getLsbD i = true ↔ ¬ i.val = 23 by decide) ⟨i, hi⟩
    simpa [hw] using this
  · rw [if_neg hw, BitVec.getLsbD_not]
    simp [hw, hi]

theorem mask_bits (f : Fld) {i : Nat} (hi : i < 32) : f.mask.getLsbD i = true ↔ f.lo ≤ i ∧ i < f.lo + f.width := by
  rw [Fld.mask_getLsbD]
  simp [hi]

/-- The loaded bits are those of the fields of the word that the write names. -/
theorem writeMask_touched (p : Ty → Bool) (w : Nat) (m : Word) {i : Nat} (hi : i < 32) (hok : ∀ r ∈ rowsAt w, r.fld.ok = true) :
    (writeMask p w m (touched w m)).getLsbD i = true ↔ BitOf p w i ∧ m.getLsbD i = true ∧ ¬ (w = 0x2000 ∧ i = 23) := by
  rw [writeMask_getLsbD]
  constructor
  · rintro ⟨r, hr, hp, hb⟩
    obtain ⟨hr, -⟩ := List.mem_filter.mp hr
    rw [BitVec.getLsbD_and, BitVec.getLsbD_and, Bool.and_eq_true, Bool.and_eq_true, mask_bits _ hi, writable_getLsbD w hi] at hb
    have ho := hok r hr
    simp only [Fld.ok, Bool.and_eq_true, decide_eq_true_eq] at ho
    refine ⟨⟨r, hr, hp, hb.1.1.1, ?_⟩, hb.1.2, hb.2⟩
    have := hb.1.1.2
    simp only [Fld.width] at this
    omega
  · rintro ⟨⟨r, hr, hp, hlo, hhi⟩, hm, hw⟩
    have ho := hok r hr
    simp only [Fld.ok, Bool.and_eq_true, decide_eq_true_eq] at ho
    have hb : r.fld.mask.getLsbD i = true := by
      rw [mask_bits _ hi, Fld.width]
      omega
    refine ⟨r, List.mem_filter.mpr ⟨hr, ?_⟩, hp, ?_⟩
    · refine bne_iff_ne.mpr fun h0 => ?_
      have := congrArg (fun x : Word => x.getLsbD i) h0
      simp [hb, hm] at this
    · rw [BitVec.getLsbD_and, BitVec.getLsbD_and, hb, hm, (writable_getLsbD w hi).mpr hw]
      rfl

/-! ### The register table -/

/-- The tables of the control blocks (R521). -/
def rowTables : List (List Row) :=
  [rowsIdHif, rowsCmt, rowsLock, rowsInt, rowsPwr, rowsAge, rowsHot, rowsDump, rowsSch, rowsPguAndAlc, rowsHrt, rowsAlm, rowsFlw, rowsTdmAndSrc, [],
    rowsMac0AndMac1, rowsMacc, rowsPtp, rowsTsu, rowsRef, rowsSyn, rowsOut, rowsTim, rowsEngineControl]

theorem ite_mem {α : Type} {c : Prop} [Decidable c] {x y : α} {l : List α} (hx : x ∈ l) (hy : y ∈ l) : (if c then x else y) ∈ l := by
  split
  · exact hx
  · exact hy

theorem rowsOf_mem (a : Nat) : rowsOf a ∈ rowTables := by
  unfold rowsOf
  repeat
    refine ite_mem (by simp [rowTables]) ?_
  simp [rowTables]

theorem rowTables_ok : rowTables.all (fun l => l.all fun r => r.fld.ok) = true := by decide +kernel

theorem rowsAt_ok (a : Nat) : ∀ r ∈ rowsAt a, r.fld.ok = true := fun r hr =>
  List.all_eq_true.mp (List.all_eq_true.mp rowTables_ok _ (rowsOf_mem a)) r (List.mem_filter.mp hr).1

/-- Outside HIF_OWN the HRW fields are the words of the mailbox data. -/
theorem rowTables_hrw : rowTables.all (fun l => l.all fun r => r.ty != .hrw || r == { fld := Reg.HIF_OWN_OWNER, ty := .hrw } ||
    r == { fld := Reg.HIF_MBDATA_DATA 0, ty := .hrw, n := 16, stride := 0x4 }) = true := by decide +kernel

theorem hrw_rows {w : Nat} (hw : w ∉ [0x20, 0x24, 0x3058]) {r : Row} (hr : r ∈ rowsAt w) (ht : r.ty = .hrw) : ∃ k : Fin 16, w = 0x80 + 4 * k.val := by
  obtain ⟨hr, hc⟩ := List.mem_filter.mp hr
  have h := List.all_eq_true.mp (List.all_eq_true.mp rowTables_hrw _ (rowsOf_mem w)) r hr
  rw [ht, Bool.or_eq_true, Bool.or_eq_true, beq_iff_eq, beq_iff_eq] at h
  obtain (h | rfl) | rfl := h
  · simp at h
  · simp [Row.covers, Reg.HIF_OWN_OWNER] at hc hw
    omega
  · simp [Row.covers, Reg.HIF_MBDATA_DATA] at hc
    exact ⟨⟨(w - 0x80) / 4, by omega⟩, by simp; omega⟩

/-- A word of the mailbox data is one HRW field. -/
theorem mbData_rows (k : Fin 16) : rowsAt (0x80 + 4 * k.val) = [{ fld := Reg.HIF_MBDATA_DATA 0, ty := .hrw, n := 16, stride := 0x4 }] ∧
    blockOf (0x80 + 4 * k.val) = 0 := (show ∀ k : Fin 16, rowsAt (0x80 + 4 * k.val) = [{ fld := Reg.HIF_MBDATA_DATA 0, ty := .hrw, n := 16, stride := 0x4 }] ∧
    blockOf (0x80 + 4 * k.val) = 0 by decide +kernel) k

/-! ### The fields of a written word -/

/-- What loading bits of the word at `w` leaves: `M` is loaded in the live copy, `S` in the shadow copy. -/
structure Dev.WordLoads (w : Nat) (data M S : Word) (d D : Dev) : Prop where
  only : D = { d with live := D.live, shadow := D.shadow, fab := { d.fab with wo1 := D.fab.wo1, scan := D.fab.scan } }
  word : ∀ a, D.word a = if a = w then merge (d.word w) data M else d.word a
  shadow : ∀ a, D.shadowWord a = if a = w then merge (d.shadowWord w) data S else d.shadowWord a

theorem Dev.WordLoads.refl (w : Nat) (data : Word) (d : Dev) : Dev.WordLoads w data 0 0 d d := by
  refine ⟨rfl, fun a => ?_, fun a => ?_⟩ <;> rw [merge_zero] <;> split
  all_goals simp_all

theorem Dev.WordLoads.trans {w : Nat} {data M S M' S' : Word} {d d' d'' : Dev} (h : Dev.WordLoads w data M S d d') (h' : Dev.WordLoads w data M' S' d' d'') :
    Dev.WordLoads w data (M ||| M') (S ||| S') d d'' := by
  refine ⟨by rw [h'.only, h.only], fun a => ?_, fun a => ?_⟩
  · rw [h'.word, h.word, h.word, if_pos rfl, merge_merge]
    split <;> rfl
  · rw [h'.shadow, h.shadow, h.shadow, if_pos rfl, merge_merge]
    split <;> rfl

theorem Dev.WordLoads.setWord (w : Nat) (data M : Word) (d : Dev) : Dev.WordLoads w data M 0 d (d.setWord w (merge (d.word w) data M)) := by
  refine ⟨rfl, fun a => ?_, fun a => ?_⟩
  · split
    · rename_i h
      rw [h, Dev.word_setWord_eq]
    · rename_i h
      exact Dev.word_setWord_ne _ _ _ _ (Ne.symm h)
  · rw [merge_zero]
    split
    · rename_i h
      rw [h]
      rfl
    · rfl

theorem Dev.WordLoads.setShadow (w : Nat) (data S : Word) (d : Dev) : Dev.WordLoads w data 0 S d (d.setShadow w (merge (d.shadowWord w) data S)) := by
  refine ⟨rfl, fun a => ?_, fun a => ?_⟩
  · rw [merge_zero]
    split
    · rename_i h
      rw [h]
      rfl
    · rfl
  · split
    · rename_i h
      subst h
      exact Sparse.get_put_eq ..
    · rename_i h
      exact Sparse.get_put_ne _ _ _ _ _ _ (Ne.symm h)

theorem Dev.WordLoads.fab {w : Nat} {data M S : Word} {d D : Dev} (h : Dev.WordLoads w data M S d D) (x : Fabric) (hx : x = { D.fab with wo1 := x.wo1, scan := x.scan }) :
    Dev.WordLoads w data M S d { D with fab := x } := by
  refine ⟨?_, h.word, h.shadow⟩
  rw [hx, h.only]

theorem Dev.loadBits_loads (d : Dev) (w : Nat) (data M : Word) : Dev.WordLoads w data M 0 d (d.loadBits w data M) := by
  have h := Dev.WordLoads.setWord w data M d
  unfold Dev.loadBits
  dsimp only
  split
  · rename_i hv
    have hr := Dev.WordLoads.refl w data d
    refine ⟨rfl, fun a => ?_, hr.shadow⟩
    rw [hv]
    split
    · rename_i h
      rw [h]
    · rfl
  · split
    · exact h
    · generalize d.setWord w (merge (d.word w) data M) = D at h
      rw [Dev.dirty_eq]
      exact h.fab _ rfl

theorem Dev.fieldWrite_loads (d : Dev) (h : Agent) {w : Nat} (r : Row) (data m : Word) (hw : w ≠ 0x20) (hc : w ≠ 0x3058) :
    Dev.WordLoads w data (writeMask isLoaded w m [r]) (writeMask isStaged w m [r]) d (d.fieldWrite h w r data m false) := by
  unfold Dev.fieldWrite writeMask writeMask
  dsimp only
  cases ht : r.ty with
  | rws => simpa [isLoaded, isStaged] using Dev.WordLoads.setShadow w data (r.fld.mask &&& m &&& writable w) d
  | rwl => simpa [isLoaded, isStaged] using d.loadBits_loads w data (r.fld.mask &&& m &&& writable w)
  | wo1 =>
    have := (d.loadBits_loads w data (r.fld.mask &&& m &&& writable w)).fab (x := { (d.loadBits w data (r.fld.mask &&& m &&& writable w)).fab with
      wo1 := (d.loadBits w data (r.fld.mask &&& m &&& writable w)).fab.wo1 ++ [32 * w + r.fld.lo] }) rfl
    simpa [isLoaded, isStaged] using this
  | hrw => simpa [isLoaded, isStaged, hw] using Dev.WordLoads.setWord w data (r.fld.mask &&& m &&& writable w) d
  | cnt => simpa [isLoaded, isStaged, hc] using Dev.WordLoads.setWord w data (r.fld.mask &&& m &&& writable w) d
  | ro => simpa [isLoaded, isStaged] using Dev.WordLoads.refl w data d
  | rc => simpa [isLoaded, isStaged] using Dev.WordLoads.refl w data d
  | cmd => simpa [isLoaded, isStaged] using Dev.WordLoads.refl w data d

theorem Dev.fieldWrites_loads (h : Agent) {w : Nat} (data m : Word) (hw : w ≠ 0x20) (hc : w ≠ 0x3058) (rs : List Row) (d : Dev) :
    Dev.WordLoads w data (writeMask isLoaded w m rs) (writeMask isStaged w m rs) d (rs.foldl (fun d r => d.fieldWrite h w r data m false) d) := by
  induction rs generalizing d with
  | nil => exact .refl w data d
  | cons r rs ih =>
    have := (d.fieldWrite_loads h r data m hw hc).trans (ih (d.fieldWrite h w r data m false))
    simpa [writeMask] using this

theorem lockBlk_not_staged : ∀ r ∈ rowsAt 0x2000, isStaged r.ty = false := by decide +kernel

/-- The bits have landed where the word and its shadow copy hold them and nothing else has changed. -/
theorem landed_of {w : Nat} {data m : Word} {s t : State}
    (hl : ∀ a, t.dev.word a = if a = w then merge (s.dev.word w) data (writeMask isLoaded w m (touched w m)) else s.dev.word a)
    (hs : ∀ a, t.dev.shadowWord a = if a = w then merge (s.dev.shadowWord w) data (writeMask isStaged w m (touched w m)) else s.dev.shadowWord a)
    (hf : t.dev = { Around s.dev t.dev with
      shadow := t.dev.shadow
      fab := { s.dev.fab with wo1 := t.dev.fab.wo1, scan := t.dev.fab.scan, staged := t.dev.fab.staged } }) : Landed w data m s t := by
  have hM := fun (p : Ty → Bool) i (hi : i < 32) => writeMask_touched p w m hi (rowsAt_ok w)
  have hlw := hl w
  have hsw := hs w
  rw [if_pos rfl] at hlw hsw
  have hb : ∀ i, BitOf isStaged w i → ¬ (w = 0x2000 ∧ i = 23) := fun i ⟨r, hr, hp, _⟩ ⟨h0, _⟩ => by
    rw [h0] at hr
    exact Bool.false_ne_true ((lockBlk_not_staged r hr).symm.trans hp)
  refine ⟨fun i hi h hm => ?_, fun i hi h => ?_, fun i hi h hm hn => ?_, fun i hi h => ?_, fun a ha => ?_, fun a ha => ?_, hf⟩
  · rw [hsw, merge_getLsbD _ _ _ hi, if_pos ((hM isStaged i hi).mpr ⟨h, hm, hb i h⟩)]
  · rw [hsw, merge_getLsbD _ _ _ hi, if_neg]
    rintro hc
    obtain ⟨h1, h2, -⟩ := (hM isStaged i hi).mp hc
    exact h.elim (fun h => h h1) fun h => Bool.false_ne_true (h.symm.trans h2)
  · rw [hlw, merge_getLsbD _ _ _ hi, if_pos ((hM isLoaded i hi).mpr ⟨h, hm, hn⟩)]
  · rw [hlw, merge_getLsbD _ _ _ hi, if_neg]
    rintro hc
    obtain ⟨h1, h2, h3⟩ := (hM isLoaded i hi).mp hc
    exact h.elim (fun h => h h1) fun h => h.elim (fun h => Bool.false_ne_true (h.symm.trans h2)) h3
  · rw [hl, if_neg (by simpa using ha)]
  · rw [hs, if_neg ha]

/-! ### A write without commands takes effect -/

/-- What a write of the bits `m` of the word at `w`, which holds no CMD field, leaves. -/
structure Dev.WordWritten (w : Nat) (data m : Word) (d D : Dev) : Prop where
  only : D = { d with live := D.live, shadow := D.shadow, fab := { d.fab with wo1 := D.fab.wo1, scan := D.fab.scan, staged := D.fab.staged } }
  word : ∀ a, D.word a = if a = w then merge (d.word w) data (writeMask isLoaded w m (touched w m)) else d.word a
  shadow : ∀ a, D.shadowWord a = if a = w then merge (d.shadowWord w) data (writeMask isStaged w m (touched w m)) else d.shadowWord a

theorem touched_no_cmd {w : Nat} (m : Word) (h : ∀ r ∈ rowsAt w, r.ty ≠ .cmd) : (touched w m).filter (fun r => r.ty == .cmd) = [] :=
  List.filter_eq_nil_iff.mpr fun r hr => by
    have := h r (List.mem_filter.mp hr).1
    simpa using this

theorem landWrite_written (x : NV × Dev) (h : Agent) {w : Nat} (data m : Word) (hw : w ≠ 0x20) (hc : w ≠ 0x3058) (hn : ∀ r ∈ rowsAt w, r.ty ≠ .cmd) :
    (landWrite x h w data m false).1 = x.1 ∧ Dev.WordWritten w data m x.2 (landWrite x h w data m false).2 := by
  have hL := Dev.fieldWrites_loads h data m hw hc (touched w m) x.2
  unfold landWrite
  dsimp only
  rw [touched_no_cmd m hn, List.foldl_nil]
  generalize (touched w m).foldl (fun d r => d.fieldWrite h w r data m false) x.2 = D at hL
  refine ⟨rfl, ?_⟩
  dsimp only
  split
  · rw [Dev.dropMoved_eq]
    refine ⟨?_, hL.word, hL.shadow⟩
    rw [hL.only]
  · refine ⟨?_, hL.word, hL.shadow⟩
    rw [hL.only]

/-! ### Writes that act at once -/

theorem Dev.violation_congr {d d' : Dev} (e : d.live = d'.live) (h : Agent) (a : Nat) (tys : List Ty) (b : Bool) : d.violation h a tys b = d'.violation h a tys b := by
  have r : ∀ g, d.rd g = d'.rd g := fun g => Dev.rd_congr d d' g e
  cases h <;> simp only [Dev.violation, Dev.owns, Dev.locked, Dev.standLocked, Dev.on, r] <;> rfl

/-- A permitted write of a word, outside HIF_OWNREQ, that touches a field. -/
theorem ctlWrite_open (s : State) (h : Agent) {w : Nat} (data m : Word) (coll : Bool) (hw : w ≠ 0x24) (hm : MayWrite s h w m) (ht : touched w m ≠ []) :
    ctlWrite (s.nv, s.dev) h w data m coll = if slowWord w then slowPut (s.nv, s.dev.touch h true (blockOf w)) h w data m
      else landWrite (s.nv, s.dev.touch h true (blockOf w)) h w data m coll := by
  unfold ctlWrite
  dsimp only
  rw [if_neg (by simpa using ht), if_neg hw]
  have hv := Dev.violation_congr (s.dev.touch_live h true (blockOf w)) h w ((touched w m).map (·.ty))
    ((touched w m).any fun r => r.ty == .wo1 && s.dev.fab.wo1.contains (32 * w + r.fld.lo))
  rw [Dev.touch_fab, hv, hm]

theorem exec_ctlWrite {c : Instr} {s : State} {h : Agent} {w : Nat} {data m : Word} {coll : Bool} {x : NV × Dev}
    (hc : exec c s = onBoth (fun x => ctlWrite x h w data m coll) s) (hx : ctlWrite (s.nv, s.dev) h w data m coll = x) (hn : x.1 = s.nv) :
    Runs c s { s with dev := x.2.settle } := by
  have := exec_onBoth hc
  rw [hx, hn] at this
  exact ⟨this, rfl, rfl⟩

theorem touched_nil {w : Nat} {m : Word} (h : touched w m = []) (p : Ty → Bool) : writeMask p w m (touched w m) = 0 := by
  rw [h]
  rfl

/-- A permitted write to a plain word lands at once. -/
theorem plainWrite_lands {c : Instr} {s : State} {h : Agent} {w : Nat} {data m : Word} (hc : exec c s = onBoth (fun x => ctlWrite x h w data m false) s)
    (hp : PlainWord w) (hm : MayWrite s h w m) : ∃ t, Runs c s t ∧ Landed w data m s t := by
  obtain ⟨-, -, hw, hslow, hcmd⟩ := hp
  simp only [List.mem_cons, List.not_mem_nil, or_false, not_or] at hw
  obtain ⟨hw1, hw2, hw3⟩ := hw
  by_cases ht : touched w m = []
  · have hx : ctlWrite (s.nv, s.dev) h w data m false = (s.nv, s.dev) := by
      unfold ctlWrite
      dsimp only
      rw [ht]
      rfl
    refine ⟨_, exec_ctlWrite hc hx rfl, landed_of (fun a => ?_) (fun a => ?_) rfl⟩
    · rw [touched_nil ht, merge_zero]
      split
      · rename_i ha
        rw [ha]
        rfl
      · rfl
    · rw [touched_nil ht, merge_zero]
      split
      · rename_i ha
        rw [ha]
        rfl
      · rfl
  · have hx := ctlWrite_open s h data m false hw2 hm ht
    rw [hslow, if_neg Bool.false_ne_true] at hx
    obtain ⟨p, htouch⟩ := s.dev.touch_pwr h true (blockOf w)
    rw [htouch] at hx
    obtain ⟨h1, hW⟩ := landWrite_written (s.nv, { s.dev with pwr := p }) h data m hw1 hw3 hcmd
    generalize landWrite (s.nv, { s.dev with pwr := p }) h w data m false = x at hx h1 hW
    refine ⟨_, exec_ctlWrite hc hx h1, landed_of (fun a => (Dev.settle_word ..).trans (hW.word a)) (fun a => hW.shadow a) ?_⟩
    generalize x.2 = D at hW
    change D.settle = { Around s.dev D.settle with shadow := D.shadow, fab := { s.dev.fab with wo1 := D.fab.wo1, scan := D.fab.scan, staged := D.fab.staged } }
    have := hW.only
    rw [this]
    rfl

/-! ### Register writes and the alias window -/

theorem beMask_all : beMask 0xF = 0xFFFFFFFF := by decide

theorem execRegisterWrite_control (s : State) (h : Agent) (w : Addr) (data : Word) (coll : Bool) (h4 : w.val % 4 = 0) (hw : w.val < 0x40000) :
    exec (.registerWrite h w data 0xF coll) s = onBoth (fun x => ctlWrite x h w data 0xFFFFFFFF coll) s := by
  have hx : (fun x => busWrite x h w data 0xF coll) = fun x => ctlWrite x h w data 0xFFFFFFFF coll := by
    funext x
    unfold busWrite
    dsimp only
    have ha : w.val / 4 * 4 = w.val := by omega
    rw [ha, if_neg (by omega), if_neg (by omega), if_neg (by omega), if_pos (by omega), if_neg (by simp), if_pos hw, beMask_all]
  exact congrArg (fun f => onBoth f s) hx

theorem aliasWrite_low (x : NV × Dev) (h : Agent) {a w : Nat} (data : Word) (coll : Bool) (hatom : x.2.rd Reg.HIF_CFG_ATOM = 0) (h4 : w % 4 = 0) (hw : w < 0x40000)
    (ha : a = 0x800000 + w) : aliasWrite x h a data 0xF coll = ctlWrite x h w (data &&& 0xFFFF) (data >>> 16) coll := by
  unfold aliasWrite aliasPut
  have ho : x.2.on Reg.HIF_CFG_ATOM = false := by simp [Dev.on, hatom]
  have hk : (a - 0x800000) / 4 * 4 = w := by omega
  rw [if_neg (by simp), ho, if_neg Bool.false_ne_true, if_pos (by omega), hk, if_pos hw]

theorem aliasWrite_high (x : NV × Dev) (h : Agent) {a w : Nat} (data : Word) (coll : Bool) (hatom : x.2.rd Reg.HIF_CFG_ATOM = 0) (h4 : w % 4 = 0) (hw : w < 0x40000)
    (ha : a = 0xC00000 + w) : aliasWrite x h a data 0xF coll = ctlWrite x h w (data <<< 16) (data &&& 0xFFFF0000) coll := by
  unfold aliasWrite aliasPut
  have ho : x.2.on Reg.HIF_CFG_ATOM = false := by simp [Dev.on, hatom]
  have hk : (a - 0xC00000) / 4 * 4 = w := by omega
  rw [if_neg (by simp), ho, if_neg Bool.false_ne_true, if_neg (by omega), hk, if_pos hw]

theorem aliasWrite_bit (x : NV × Dev) (h : Agent) {a w b : Nat} (data : Word) (coll : Bool) (hatom : x.2.rd Reg.HIF_CFG_ATOM = 1) (h4 : w % 4 = 0) (hw : w < 0x40000)
    (hb : b < 32) (ha : a = 0x800000 + w * 32 + b * 4) :
    aliasWrite x h a data 0xF coll = ctlWrite x h w (if data.getLsbD 0 then 1 <<< b else 0) (1 <<< b) coll := by
  unfold aliasWrite aliasPut
  have ho : x.2.on Reg.HIF_CFG_ATOM = true := by simp [Dev.on, hatom]
  have hk : (a - 0x800000) / 4 / 32 * 4 = w := by omega
  have hb' : (a - 0x800000) / 4 % 32 = b := by omega
  rw [if_neg (by simp), ho, if_pos rfl]
  dsimp only
  rw [hk, hb', if_pos hw]
  rfl

/-- What a command of the alias window does at an address of the window. -/
theorem aliasRow_window (h : Agent) (a : Addr) (data : Word) (be : BitVec 4) (coll : Bool) (s : State) (h4 : a.val % 4 = 0) (ha : 0x800000 ≤ a.val) :
    aliasRow h a data be coll s = onBoth (fun x => aliasWrite x h a data be coll) s := by
  refine congrArg (fun f => onBoth f s) (funext fun x => ?_)
  have hk : a.val / 4 * 4 = a.val := by omega
  rw [if_pos ha, hk]

theorem onBoth_congr {f g : NV × Dev → NV × Dev} {s : State} (h : f (s.nv, s.dev) = g (s.nv, s.dev)) : onBoth f s = onBoth g s := by
  unfold onBoth
  rw [h]

theorem partialWrite_told {c : Instr} {s : State} (hc : exec c s = onBoth partialWrite s) : ∃ t, Runs c s t ∧ OnlyFields [Reg.CMT_STATUS_PARTIAL] s t ∧
    t.dev.rd Reg.CMT_STATUS_PARTIAL = 1 ∧ t.dev = Around s.dev t.dev := by
  refine ⟨_, ⟨exec_onBoth hc, rfl, rfl⟩, ?_, ?_, rfl⟩
  · exact (onlyFields_iff ..).mpr (((Dev.SameBut.refl _ s.dev).flag Reg.CMT_STATUS_PARTIAL (by simp) rfl).settle)
  · exact (Dev.settle_rd ..).trans (Dev.rd_flag _ _ rfl)

theorem window_partial (s : State) (h : Agent) (a : Addr) (data : Word) (be : BitVec 4) (ha : 0x800000 ≤ a.val) (hbe : be ≠ 0xF) :
    ∀ c ∈ [Instr.maskedWrite h a data be false, Instr.bitAliasWrite h a data be false, Instr.registerWrite h a data be false],
    ∃ t, Runs c s t ∧ OnlyFields [Reg.CMT_STATUS_PARTIAL] s t ∧ t.dev.rd Reg.CMT_STATUS_PARTIAL = 1 ∧ t.dev = Around s.dev t.dev := by
  have hk : 0x800000 ≤ a.val / 4 * 4 := by omega
  have h1 : aliasRow h a data be false s = onBoth partialWrite s := onBoth_congr (by rw [if_pos ha, aliasWrite, if_pos hbe])
  have h2 : onBoth (fun x => busWrite x h a data be false) s = onBoth partialWrite s := onBoth_congr (by
    unfold busWrite
    dsimp only
    rw [if_pos hk, aliasWrite, if_pos hbe])
  intro c hc
  simp only [List.mem_cons, List.not_mem_nil, or_false] at hc
  obtain rfl | rfl | rfl := hc
  · exact partialWrite_told h1
  · exact partialWrite_told h1
  · exact partialWrite_told h2

theorem register_partial (s : State) (h : Agent) (w : Addr) (data : Word) (be : BitVec 4) (hw : w.val < 0x40000) (hbe : be ≠ 0xF) :
    ∃ t, Runs (.registerWrite h w data be false) s t ∧ OnlyFields [Reg.CMT_STATUS_PARTIAL] s t ∧ t.dev.rd Reg.CMT_STATUS_PARTIAL = 1 ∧ t.dev = Around s.dev t.dev := by
  refine partialWrite_told (show onBoth (fun x => busWrite x h w data be false) s = _ from onBoth_congr ?_)
  unfold busWrite
  dsimp only
  rw [if_neg (by omega), if_neg (by omega), if_neg (by omega), if_pos (by omega), if_pos hbe]

/-- A write of an HRW field that collides with the hardware's loses (R34). -/
theorem collision_lost {c : Instr} {s : State} {h : Agent} {w b : Nat} {data m : Word} (hc : exec c s = onBoth (fun x => ctlWrite x h w data m true) s)
    (hp : PlainWord w) (hm : MayWrite s h w m) (hb : BitOf (fun ty => ty == .hrw) w b) (hn : m ≠ 0) :
    ∃ t, Runs c s t ∧ t.dev.rd Reg.HIF_STATUS_WRLOST = 1 ∧ t.dev.word w = s.dev.word w := by
  obtain ⟨-, -, hw, hslow, hcmd⟩ := hp
  obtain ⟨r, hr, hty, -⟩ := hb
  obtain ⟨k, rfl⟩ := hrw_rows hw hr (beq_iff_eq.mp hty)
  obtain ⟨hrows, hblk⟩ := mbData_rows k
  have ht : touched (0x80 + 4 * k.val) m = [{ fld := Reg.HIF_MBDATA_DATA 0, ty := .hrw, n := 16, stride := 0x4 }] := by
    unfold touched
    rw [hrows]
    have hall : (Reg.HIF_MBDATA_DATA 0).mask &&& m = m := by
      rw [show (Reg.HIF_MBDATA_DATA 0).mask = BitVec.allOnes 32 by decide, BitVec.allOnes_and]
    rw [List.filter_cons, hall, if_pos (bne_iff_ne.mpr hn), List.filter_nil]
  have hx := ctlWrite_open s h data m true (by omega) hm (by rw [ht]; simp)
  rw [hslow, if_neg Bool.false_ne_true] at hx
  have hland : landWrite (s.nv, s.dev.touch h true (blockOf (0x80 + 4 * k.val))) h (0x80 + 4 * k.val) data m true =
      (s.nv, (s.dev.touch h true (blockOf (0x80 + 4 * k.val))).flag Reg.HIF_STATUS_WRLOST) := by
    unfold landWrite
    dsimp only
    rw [touched_no_cmd m hcmd, ht, if_neg (by omega)]
    rfl
  rw [hland] at hx
  refine ⟨_, exec_ctlWrite hc hx rfl, ?_, ?_⟩
  · exact (Dev.settle_rd ..).trans (Dev.rd_flag _ _ rfl)
  · have hne : Reg.HIF_STATUS_WRLOST.addr ≠ 0x80 + 4 * k.val := by
      have : Reg.HIF_STATUS_WRLOST.addr < 0x80 := by decide
      omega
    exact (Dev.settle_word ..).trans ((Dev.word_flag_ne _ _ _ hne).trans (Dev.touch_word ..))

/-- Settles O27: each view names its bits of the target word, and the write is a write of those bits (`plainWrite_lands`, `collision_lost`). -/
theorem windowWritesChangeTheBitsTheyName : Obligations.WindowWritesChangeTheBitsTheyName := by
  refine ⟨fun s h a w data hatom hp => ⟨fun ha hm => ?_, fun ha hm => ?_⟩, fun s h a w b data hatom hp hb ha hm => ⟨?_, fun hbit => ?_⟩, window_partial⟩
  · have hc := aliasRow_window h a data 0xF false s (by have := hp.1; omega) (by omega)
    exact plainWrite_lands (hc.trans (onBoth_congr (aliasWrite_low _ h data false hatom hp.1 hp.2.1 ha))) hp hm
  · have hc := aliasRow_window h a data 0xF false s (by have := hp.1; omega) (by omega)
    exact plainWrite_lands (hc.trans (onBoth_congr (aliasWrite_high _ h data false hatom hp.1 hp.2.1 ha))) hp hm
  · have hc := aliasRow_window h a data 0xF false s (by omega) (by omega)
    exact plainWrite_lands (hc.trans (onBoth_congr (aliasWrite_bit _ h data false hatom hp.1 hp.2.1 hb ha))) hp hm
  · have hc := aliasRow_window h a data 0xF true s (by omega) (by omega)
    refine collision_lost (hc.trans (onBoth_congr (aliasWrite_bit _ h data true hatom hp.1 hp.2.1 hb ha))) hp hm hbit fun h0 => ?_
    have := congrArg (fun x : Word => x.getLsbD b) h0
    rw [BitVec.natCast_eq_ofNat, BitVec.getLsbD_ofNat, Nat.one_shiftLeft, Nat.testBit_two_pow_self] at this
    simp [hb] at this

/-! ### The edge that a landing brings (R65, R66, R487) -/

/-- What a slow-clock edge and the exit that it starts leave of `D`. -/
structure Dev.Edged (D E : Dev) : Prop where
  only : E = { D with
    live := (D.wr Reg.PWR_STATUS_TARGET D.powerTarget).live
    fab := { D.fab with copy := E.fab.copy, copyAt := D.timeNs }
    pwr := { D.pwr with exiting := E.pwr.exiting } }
  exiting : E.pwr.exiting = if D.pwr.exiting = none ∧ D.powerTarget < D.rd Reg.PWR_STATUS_STATE then some (8, D.timeNs) else D.pwr.exiting
  copy : ∀ a, slowWord a = true → E.copyWord a = E.word a
  target : E.rd Reg.PWR_STATUS_TARGET = D.powerTarget
  chosen : E.powerTarget = D.powerTarget

theorem Dev.powerTarget_lt (d : Dev) : d.powerTarget < 2 ^ 3 := by
  unfold Dev.powerTarget
  refine List.foldlRecOn (motive := fun t => t < 2 ^ 3) _ _ (by decide) fun t ht s hs => ?_
  have := List.mem_range.mp hs
  split
  · omega
  · exact ht

theorem Dev.slowEdge_powerTarget (d : Dev) : d.slowEdge.powerTarget = d.powerTarget :=
  Dev.powerTarget_congr (fun f hf => d.slowEdge_same.rd ((show ∀ f ∈ targetFields, Fld.clear [Reg.PWR_STATUS_TARGET] f = true by decide) f hf)) rfl rfl rfl

theorem Dev.powerLeave_told (d : Dev) (c : Nat) : d.powerLeave c =
    { d with pwr := { d.pwr with exiting := if d.pwr.exiting = none ∧ d.powerTarget < d.rd Reg.PWR_STATUS_STATE then some (c, d.timeNs) else d.pwr.exiting } } := by
  unfold Dev.powerLeave
  by_cases h0 : d.pwr.exiting = none
  · by_cases h2 : d.powerTarget < d.rd Reg.PWR_STATUS_STATE
    · rw [if_pos ⟨h2, Option.isNone_iff_eq_none.mpr h0⟩, if_pos ⟨h0, h2⟩]
    · rw [if_neg fun h => h2 h.1, if_neg fun h => h2 h.2]
  · rw [if_neg fun h => h0 (Option.isNone_iff_eq_none.mp h.2), if_neg fun h => h0 h.1]

theorem Dev.edged (D : Dev) : Dev.Edged D (D.slowEdge.powerLeave 8) := by
  have h := D.slowEdge.powerLeave_told 8
  have h1 := D.slowEdge_powerTarget
  have h2 : D.slowEdge.rd Reg.PWR_STATUS_STATE = D.rd Reg.PWR_STATUS_STATE := D.slowEdge_same.rd rfl
  have h3 : D.slowEdge.rd Reg.PWR_STATUS_TARGET = D.powerTarget := Dev.rd_wr_lt D Reg.PWR_STATUS_TARGET _ rfl D.powerTarget_lt
  have h4 := fun a (ha : slowWord a = true) => D.slowEdge_copyWord ha
  have hS : D.slowEdge = { D with live := (D.wr Reg.PWR_STATUS_TARGET D.powerTarget).live, fab := { D.fab with copy := D.slowEdge.fab.copy, copyAt := D.timeNs } } := rfl
  generalize D.slowEdge = S at h h1 h2 h3 h4 hS
  rw [h1, h2] at h
  have hp : S.pwr = D.pwr := by rw [hS]
  have ht : S.timeNs = D.timeNs := by
    rw [hS]
    rfl
  rw [hp, ht] at h
  generalize S.powerLeave 8 = E at h
  refine ⟨?_, ?_, fun a ha => ?_, ?_, ?_⟩
  · rw [h]
    dsimp only
    rw [hS]
  · rw [h]
  · rw [h]
    exact h4 a ha
  · rw [h]
    exact h3
  · rw [h, ← h1]
    exact Dev.powerTarget_congr (fun f _ => rfl) (by rw [hp]) rfl rfl

theorem Dev.Edged.word {D E : Dev} (h : Dev.Edged D E) (a : Nat) : E.word a = (D.wr Reg.PWR_STATUS_TARGET D.powerTarget).word a := by
  rw [h.only]
  rfl

theorem landSlow_write {x : NV × Dev} {h : Agent} {w : Nat} {m data : Word} {r : List SlowOp} (hq : x.2.fab.slowQ = .write h w m data :: r) :
    landSlow x = ((landWrite (x.1, { x.2 with fab := { x.2.fab with slowQ := r } }) h w data m false).1,
      (landWrite (x.1, { x.2 with fab := { x.2.fab with slowQ := r } }) h w data m false).2.slowEdge.powerLeave 8) := by
  unfold landSlow
  rw [hq]

/-- PWR_STATUS holds no field that a write loads. -/
theorem pwrStatus_kept (m : Word) : writeMask isLoaded Reg.PWR_STATUS_TARGET.addr m (touched Reg.PWR_STATUS_TARGET.addr m) = 0 := by
  refine BitVec.eq_of_getLsbD_eq fun i _ => ?_
  rw [show (0 : Word).getLsbD i = false from BitVec.getLsbD_zero, Bool.eq_false_iff]
  intro hc
  obtain ⟨r, hr, hp, -⟩ := (writeMask_getLsbD ..).mp hc
  have := (show ∀ r ∈ rowsAt Reg.PWR_STATUS_TARGET.addr, isLoaded r.ty = false by decide +kernel) r (List.mem_filter.mp hr).1
  exact Bool.false_ne_true (this.symm.trans hp)

/-- A word written, an edge, and `q` as the queue: the write has landed in the slow domain. -/
theorem landedSlow_of {s t : State} {w : Nat} {data m : Word} {p : Pwr} {r q : List SlowOp} {D E : Dev}
    (hW : Dev.WordWritten w data m { s.dev with pwr := p, fab := { s.dev.fab with slowQ := r } } D) (hE : Dev.Edged D E)
    (ht : t.dev = ({ E with fab := { E.fab with slowQ := q } } : Dev).settle) : LandedSlow w data m q s t := by
  have hrd : ∀ f, t.dev.rd f = E.rd f := fun f => by
    rw [ht, Dev.settle_rd]
    rfl
  have hw : ∀ a, t.dev.word a = E.word a := fun a => by
    rw [ht, Dev.settle_word]
    rfl
  have htgt : t.dev.rd Reg.PWR_STATUS_TARGET = D.powerTarget := (hrd _).trans hE.target
  have hcopyAt : E.fab.copyAt = s.dev.timeNs := by
    rw [hE.only, hW.only]
    rfl
  refine ⟨landed_of (fun a => ?_) (fun a => ?_) ?_, ?_, ?_, ?_, fun a ha => ?_⟩
  · have hu : ∀ a, (AfterEdge s t q).dev.word a = (s.dev.wr Reg.PWR_STATUS_TARGET D.powerTarget).word a := fun a => by
      rw [AfterEdge, htgt]
      rfl
    have hsw : ∀ a, ({ s.dev with pwr := p, fab := { s.dev.fab with slowQ := r } } : Dev).word a = s.dev.word a := fun _ => rfl
    rw [hw, hE.word, hu, hu]
    by_cases ha : Reg.PWR_STATUS_TARGET.addr = a
    · have hkeep : D.word a = s.dev.word a := by
        rw [hW.word, hsw, hsw]
        split
        · rename_i hwa
          rw [← hwa, ← ha, pwrStatus_kept, merge_zero]
        · rfl
      have hsame : (D.wr Reg.PWR_STATUS_TARGET D.powerTarget).word a = (s.dev.wr Reg.PWR_STATUS_TARGET D.powerTarget).word a := by
        rw [← ha] at hkeep ⊢
        rw [Dev.wr, Dev.wr, Dev.word_setWord_eq, Dev.word_setWord_eq, hkeep]
      rw [hsame]
      split
      · rename_i hwa
        rw [← hwa, ← ha, pwrStatus_kept, merge_zero]
      · rfl
    · rw [Dev.word_wr_ne _ _ _ _ ha, Dev.word_wr_ne _ _ _ _ ha, hW.word, hsw, hsw]
      split
      · rename_i hwa
        rw [← hwa, Dev.word_wr_ne _ _ _ _ ha]
      · rfl
  · have h1 : t.dev.shadowWord a = D.shadowWord a := by
      rw [ht, hE.only]
      rfl
    rw [h1]
    exact hW.shadow a
  · rw [AfterEdge, ht]
    have := hW.only
    rw [hE.only]
    dsimp only
    rw [this]
    rfl
  · rw [htgt, ← hE.chosen]
    refine (Dev.powerTarget_congr (fun f _ => hrd f) ?_ ?_ ?_).symm
    · rw [ht]
      rfl
    · rw [ht]
      rfl
    · rw [ht]
      rfl
  · rw [ht]
    rfl
  · rw [ht]
    exact hcopyAt
  · rw [hw, ← hE.copy a ha, ht]
    rfl

/-! ### The queue of the slow domain (R66) -/

/-- The write of a slow-domain word by `h` that waits. -/
def Dev.queue (d : Dev) (o : SlowOp) : Dev := { d with fab := { d.fab with slowQ := d.fab.slowQ ++ [o] } }

theorem slowPut_room {x : NV × Dev} {h : Agent} {w : Nat} {data m : Word} (hr : h = .spi ∨ x.2.slowWrites < 16) :
    slowPut x h w data m = (x.1, x.2.queue (.write h w m data)) := by
  have hx : (if h = .spi then x else landUntil x.2.fab.slowQ.length x) = x := by
    split
    · rfl
    · rename_i hn
      have hr := hr.resolve_left hn
      cases x.2.fab.slowQ.length with
      | zero => rfl
      | succ n => exact if_pos hr
  unfold slowPut
  rw [hx]
  rfl

/-- Where 16 writes wait, the oldest lands first. -/
theorem slowPut_full {x : NV × Dev} {h g : Agent} {w v : Nat} {data m old mo : Word} {r : List SlowOp} (hn : h ≠ .spi) (hf : x.2.slowWrites = 16)
    (hq : x.2.fab.slowQ = .write g v mo old :: r) (hl : (landSlow x).2.fab.slowQ = r) :
    slowPut x h w data m = ((landSlow x).1, (landSlow x).2.queue (.write h w m data)) := by
  have hx : landUntil x.2.fab.slowQ.length x = landSlow x := by
    have hlen : x.2.fab.slowQ.length = r.length + 1 := by
      rw [hq]
      rfl
    have h15 : (landSlow x).2.slowWrites < 16 := by
      have : (r.filter SlowOp.isWrite).length + 1 = 16 := by
        rw [← hf, Dev.slowWrites, hq]
        rfl
      rw [Dev.slowWrites, hl]
      omega
    rw [hlen, landUntil, if_neg (by omega)]
    cases r.length with
    | zero => rfl
    | succ n => exact if_pos h15
  unfold slowPut
  rw [if_neg hn, hx]
  rfl

theorem slow_not_plain {w : Nat} (h : slowWord w = true) : w ≠ 0x20 ∧ w ≠ 0x24 ∧ w ≠ 0x3058 := by
  have := slowWord_range h
  omega

/-- A permitted write of a slow-domain word joins the queue. -/
theorem slowWrite_waits {c : Instr} {s : State} {h : Agent} {w : Nat} {data m : Word} (hc : exec c s = onBoth (fun x => ctlWrite x h w data m false) s)
    (hs : slowWord w = true) (hm : MayWrite s h w m) (ht : touched w m ≠ []) (hr : h = .spi ∨ s.dev.slowWrites < 16) :
    ∃ t, Runs c s t ∧ t.dev.live = s.dev.live ∧
      t.dev = { Around s.dev t.dev with fab := { s.dev.fab with slowQ := s.dev.fab.slowQ ++ [.write h w m data] } } := by
  have hx := ctlWrite_open s h data m false (slow_not_plain hs).2.1 hm ht
  obtain ⟨p, htouch⟩ := s.dev.touch_pwr h true (blockOf w)
  rw [hs, if_pos rfl, htouch, slowPut_room (x := (s.nv, { s.dev with pwr := p })) hr] at hx
  exact ⟨_, exec_ctlWrite hc hx rfl, rfl, rfl⟩

/-- Where 16 writes wait, a permitted write of a slow-domain word joins the queue after the oldest has landed. -/
theorem slowWrite_pushes {c : Instr} {s : State} {h g : Agent} {w v : Nat} {data m old mo : Word} {r : List SlowOp}
    (hc : exec c s = onBoth (fun x => ctlWrite x h w data m false) s) (hs : slowWord w = true) (hm : MayWrite s h w m) (ht : touched w m ≠ [])
    (hn : h ≠ .spi) (hf : s.dev.slowWrites = 16) (hq : s.dev.fab.slowQ = .write g v mo old :: r) (hv : slowWord v = true) (hcmd : ∀ x ∈ rowsAt v, x.ty ≠ .cmd) :
    ∃ t, Runs c s t ∧ LandedSlow v old mo (r ++ [.write h w m data]) s t := by
  have hx := ctlWrite_open s h data m false (slow_not_plain hs).2.1 hm ht
  obtain ⟨p, htouch⟩ := s.dev.touch_pwr h true (blockOf w)
  rw [hs, if_pos rfl, htouch] at hx
  have hland := landSlow_write (x := (s.nv, { s.dev with pwr := p })) hq
  obtain ⟨hw1, -, hw2⟩ := slow_not_plain hv
  obtain ⟨h1, hW⟩ := landWrite_written (s.nv, { s.dev with pwr := p, fab := { s.dev.fab with slowQ := r } }) g old mo hw1 hw2 hcmd
  generalize landWrite (s.nv, { s.dev with pwr := p, fab := { s.dev.fab with slowQ := r } }) g v old mo false = y at hland h1 hW
  have hE := y.2.edged
  have hslow : (landSlow (s.nv, { s.dev with pwr := p })).2.fab.slowQ = r := by
    rw [hland]
    dsimp only
    rw [hE.only]
    dsimp only
    rw [hW.only]
  rw [slowPut_full (x := (s.nv, { s.dev with pwr := p })) hn hf hq hslow] at hx
  have hnv : (landSlow (s.nv, { s.dev with pwr := p })).1 = s.nv := by
    rw [hland]
    exact h1
  refine ⟨_, exec_ctlWrite hc hx hnv, landedSlow_of hW hE ?_⟩
  dsimp only [Dev.queue]
  rw [hslow, hland]

/-- Every field of a slow-domain word has bits, so that a whole-word write touches it. -/
theorem touched_whole {w : Nat} (hr : rowsAt w ≠ []) : touched w 0xFFFFFFFF ≠ [] := by
  obtain ⟨r, hr⟩ := List.exists_mem_of_ne_nil _ hr
  have ho := rowsAt_ok w r hr
  simp only [Fld.ok, Bool.and_eq_true, decide_eq_true_eq] at ho
  have hb : r.fld.mask.getLsbD r.fld.lo = true := by
    rw [mask_bits _ (by omega), Fld.width]
    omega
  refine List.ne_nil_of_mem (List.mem_filter.mpr ⟨hr, bne_iff_ne.mpr fun h0 => ?_⟩)
  rw [show (0xFFFFFFFF : Word) = BitVec.allOnes 32 by decide, BitVec.and_allOnes] at h0
  rw [h0] at hb
  simp at hb

theorem slowWriteLand_lands (s : State) (h : Agent) (w : Nat) (m data : Word) (r : List SlowOp) (hq : s.dev.fab.slowQ = .write h w m data :: r)
    (hs : slowWord w = true) (hcmd : ∀ x ∈ rowsAt w, x.ty ≠ .cmd) : ∃ t, Runs .slowWriteLand s t ∧ LandedSlow w data m r s t := by
  have hland := landSlow_write (x := (s.nv, s.dev)) hq
  obtain ⟨hw1, -, hw2⟩ := slow_not_plain hs
  obtain ⟨h1, hW⟩ := landWrite_written (s.nv, { s.dev with fab := { s.dev.fab with slowQ := r } }) h data m hw1 hw2 hcmd
  generalize landWrite (s.nv, { s.dev with fab := { s.dev.fab with slowQ := r } }) h w data m false = y at hland h1 hW
  have hrun := exec_onBoth (show exec .slowWriteLand s = onBoth landSlow s from rfl)
  rw [hland] at hrun
  dsimp only at hrun
  rw [h1] at hrun
  have hE := y.2.edged
  have hslow : (y.2.slowEdge.powerLeave 8).fab.slowQ = r := by
    rw [hE.only]
    dsimp only
    rw [hW.only]
  refine ⟨_, ⟨hrun, rfl, rfl⟩, landedSlow_of (p := s.dev.pwr) hW hE ?_⟩
  rw [← hslow]

/-- Settles O26: a write that acts at once (`plainWrite_lands`, `collision_lost`), a partial one, and one of the slow domain (`slowWrite_waits`,
`slowWrite_pushes`, `slowWriteLand_lands`). -/
theorem registerWritesLoadTheirBits : Obligations.RegisterWritesLoadTheirBits := by
  refine ⟨fun s h w data hp hm => ?_, fun s h w data be hw hbe => register_partial s h w data be hw hbe, fun s h w data hp hm hb => ?_,
    fun s h w data h4 hw hs hr hm => ⟨fun hroom => ?_, fun g v m old r hn hf hq hv hcmd => ?_⟩, slowWriteLand_lands⟩
  · exact plainWrite_lands (execRegisterWrite_control s h w data false hp.1 hp.2.1) hp hm
  · obtain ⟨t, hrun, h1, h2⟩ := collision_lost (execRegisterWrite_control s h w data true hp.1 hp.2.1) hp hm hb (by decide)
    exact ⟨t, hrun, h1, fun i _ _ => by rw [h2]⟩
  · exact slowWrite_waits (execRegisterWrite_control s h w data false h4 hw) hs hm (touched_whole hr) hroom
  · exact slowWrite_pushes (execRegisterWrite_control s h w data false h4 hw) hs hm (touched_whole hr) hn hf hq hv hcmd

end Sys2Proof.Machine
end

section
-- What runs beside a check is held in memory with it: the declarations of this section are elaborated in turn.
set_option Elab.async false
/-! Commands of the slow domain: how they wait, and what their landing leaves (R29, R66, R478, R485, R488, R494). -/
namespace Sys2Proof.Machine
open Sys2Proof.Claims

/-! ### Commands join the queue -/

theorem slowCommandsWaitInTheQueue : SlowCommandsWaitInTheQueue := by
  intro s h e he w one hm
  have key : ∀ (c : Instr) (w b : Nat), exec c s = slowCmd h w b s → BitVec.ofNat 32 (2 ^ b) = (1 <<< b : Word) → slowWord w = true →
      touched w (1 <<< b) ≠ [] → MayWrite s h w (1 <<< b) →
      (h = .spi ∨ s.dev.slowWrites < 16 → ∃ t, Runs c s t ∧ t.dev.live = s.dev.live ∧
        t.dev = { Around s.dev t.dev with fab := { s.dev.fab with slowQ := s.dev.fab.slowQ ++ [.write h w (1 <<< b) (1 <<< b)] } }) ∧
      ∀ (g : Agent) (v : Nat) (m old : Word) (r : List SlowOp), h ≠ .spi → s.dev.slowWrites = 16 → s.dev.fab.slowQ = .write g v m old :: r →
        slowWord v = true → (∀ x ∈ rowsAt v, x.ty ≠ .cmd) → ∃ t, Runs c s t ∧ LandedSlow v old m (r ++ [.write h w (1 <<< b) (1 <<< b)]) s t := by
    intro c w b hc h1 hs ht hm
    unfold slowCmd at hc
    rw [h1] at hc
    exact ⟨slowWrite_waits hc hs hm ht, fun g v m old r hn hf hq hv hcmd => slowWrite_pushes hc hs hm ht hn hf hq hv hcmd⟩
  simp only [List.mem_cons, List.not_mem_nil, or_false] at he
  obtain rfl | rfl | rfl | rfl | rfl := he
  · exact key _ 0x600C 0 rfl rfl (by decide) (by decide +kernel) hm
  · exact key _ 0x600C 1 rfl rfl (by decide) (by decide +kernel) hm
  · exact key _ 0x4010 0 rfl rfl (by decide) (by decide +kernel) hm
  · exact key _ 0x4010 1 rfl rfl (by decide) (by decide +kernel) hm
  · exact key _ 0x5010 0 rfl rfl (by decide) (by decide +kernel) hm

/-! ### A command lands -/

/-- The device whose queue is `r`. -/
def Dev.slowTail (d : Dev) (r : List SlowOp) : Dev := { d with fab := { d.fab with slowQ := r } }

/-- The landing of the command at bit `b` of the word at `w`. -/
theorem slowWriteLand_cmd {s : State} {w b : Nat} {r : List SlowOp} {row : Row} {y : NV × Dev} (hq : SlowHead s w b r) (ht : touched w (1 <<< b) = [row])
    (hty : row.ty = .cmd) (hlo : row.fld.lo = b) (hv : row.fld.get ((1 <<< b : Word) &&& (1 <<< b : Word)) = 1) (hb : blockOf w ∈ [1, 2, 3])
    (hw : ¬ (0x1010 ≤ w ∧ w < 0x101C)) (hy : runCmd (s.nv, s.dev.slowTail r) w b 1 = y) :
    exec .slowWriteLand s = .next { s with nv := y.1, dev := (y.2.slowEdge.powerLeave 8).settle } := by
  obtain ⟨h, hq⟩ := hq
  have hland : landSlow (s.nv, s.dev) = ((landWrite (s.nv, s.dev.slowTail r) h w (1 <<< b) (1 <<< b) false).1,
      (landWrite (s.nv, s.dev.slowTail r) h w (1 <<< b) (1 <<< b) false).2.slowEdge.powerLeave 8) := landSlow_write (x := (s.nv, s.dev)) hq
  have hstop : (s.dev.slowTail r).stopped (blockOf w) = false := by
    simp only [List.mem_cons, List.not_mem_nil, or_false] at hb
    obtain hb | hb | hb := hb <;> rw [hb] <;> simp [Dev.stopped]
  have hwr : landWrite (s.nv, s.dev.slowTail r) h w (1 <<< b) (1 <<< b) false = y := by
    unfold landWrite
    dsimp only
    rw [ht, if_neg hw, List.foldl_cons, List.foldl_nil]
    have hf : (s.dev.slowTail r).fieldWrite h w row (1 <<< b) (1 <<< b) false = s.dev.slowTail r := by
      unfold Dev.fieldWrite
      dsimp only
      rw [hty]
    rw [hf, List.filter_cons, hty, if_pos (show (Ty.cmd == Ty.cmd) = true from rfl), List.filter_nil, List.foldl_cons, List.foldl_nil, hv, if_neg (by decide)]
    unfold issueCmd
    dsimp only
    rw [hstop, if_neg Bool.false_ne_true, hlo, hy]
  have hrun := exec_onBoth (show exec .slowWriteLand s = onBoth landSlow s from rfl)
  rw [hland, hwr] at hrun
  exact hrun

/-- What the landing of a command leaves: `D` is the device after the command. -/
structure Dev.CmdLanded (fs : List Fld) (s : State) (r : List SlowOp) (D : Dev) : Prop where
  only : D = { s.dev.slowTail r with live := D.live, pwr := D.pwr, age := D.age }
  same : Dev.SameBut fs s.dev D

theorem edgeCame_of {fs : List Fld} {s t : State} {r : List SlowOp} {D E : Dev} (h : Dev.CmdLanded fs s r D) (hE : Dev.Edged D E) (ht : t.dev = E.settle) :
    EdgeCame s t r := by
  have hrd : ∀ f, t.dev.rd f = E.rd f := fun f => by rw [ht, Dev.settle_rd]
  refine ⟨?_, ?_, fun a ha => ?_, ?_⟩
  · rw [ht, hE.only, h.only]
    rfl
  · rw [ht, hE.only, h.only]
    rfl
  · rw [ht, Dev.settle_word, Dev.settle_copyWord, hE.copy a ha]
  · rw [hrd, hE.target, ← hE.chosen]
    refine (Dev.powerTarget_congr (fun f _ => hrd f) ?_ ?_ ?_).symm
    · rw [ht]
      rfl
    · rw [ht]
      rfl
    · rw [ht]
      rfl

/-- The fields that a landing leaves beside those of the command and the target. -/
theorem onlyFields_edge {fs : List Fld} {s t : State} {r : List SlowOp} {D E : Dev} (h : Dev.CmdLanded fs s r D) (hE : Dev.Edged D E) (ht : t.dev = E.settle)
    (hfs : ∀ f ∈ fs, f.addr ≠ Reg.PWR_STATUS_TARGET.addr) : OnlyFields fs (AfterEdge s t r) t := by
  intro g hg ha
  have hrd : ∀ f, t.dev.rd f = E.rd f := fun f => by rw [ht, Dev.settle_rd]
  have htgt : t.dev.rd Reg.PWR_STATUS_TARGET = D.powerTarget := (hrd _).trans hE.target
  have hE' : E.rd g = (D.wr Reg.PWR_STATUS_TARGET D.powerTarget).rd g := by rw [Dev.rd, hE.word, Dev.rd]
  have hu : (AfterEdge s t r).dev.rd g = (s.dev.wr Reg.PWR_STATUS_TARGET D.powerTarget).rd g := by
    rw [AfterEdge, htgt]
    rfl
  rw [hrd, hE', hu]
  by_cases hga : Reg.PWR_STATUS_TARGET.addr = g.addr
  · have hw : D.word Reg.PWR_STATUS_TARGET.addr = s.dev.word Reg.PWR_STATUS_TARGET.addr := h.same.word hfs
    rw [Dev.rd, Dev.rd, ← hga, Dev.wr, Dev.wr, Dev.word_setWord_eq, Dev.word_setWord_eq, hw]
  · rw [Dev.rd, Dev.rd, Dev.word_wr_ne _ _ _ _ hga, Dev.word_wr_ne _ _ _ _ hga]
    exact h.same g hg ha

/-- What the landing leaves of the rest of the device. -/
theorem around_edge {fs : List Fld} {s t : State} {r : List SlowOp} {D E : Dev} (h : Dev.CmdLanded fs s r D) (hE : Dev.Edged D E) (ht : t.dev = E.settle) :
    t.dev = Around { (AfterEdge s t r).dev with age := D.age } t.dev := by
  rw [AfterEdge, ht]
  have := h.only
  rw [hE.only]
  dsimp only
  rw [this]
  rfl

theorem exits_edge {fs : List Fld} {s t : State} {r : List SlowOp} {D E : Dev} (h : Dev.CmdLanded fs s r D) (hE : Dev.Edged D E) (ht : t.dev = E.settle)
    (hst : ∀ f ∈ fs, Fld.clear [f] Reg.PWR_STATUS_STATE = true) : t.dev.pwr = { D.pwr with exiting := t.dev.pwr.exiting } ∧
      t.dev.pwr.exiting = if D.pwr.exiting = none ∧ t.dev.powerTarget < s.dev.rd Reg.PWR_STATUS_STATE then some (8, t.dev.timeNs) else D.pwr.exiting := by
  have h1 : t.dev.pwr = { D.pwr with exiting := E.pwr.exiting } := by
    rw [ht]
    change E.pwr = _
    have := hE.only
    generalize E.pwr.exiting = x at this ⊢
    rw [this]
  refine ⟨by rw [h1], ?_⟩
  have htt : t.dev.powerTarget = D.powerTarget := by
    have hrd : ∀ f, t.dev.rd f = E.rd f := fun f => by rw [ht, Dev.settle_rd]
    have := (edgeCame_of h hE ht).2.2.2
    rw [← this, hrd, hE.target]
  have hstate : D.rd Reg.PWR_STATUS_STATE = s.dev.rd Reg.PWR_STATUS_STATE := h.same _ (by decide) fun f hf => by
    have := hst f hf
    simp only [Fld.clear, Bool.and_eq_true, List.all_cons, List.all_nil, Bool.or_eq_true, decide_eq_true_eq, bne_iff_ne, or_assoc, and_true] at this
    exact this.2
  have hns : t.dev.timeNs = D.timeNs := by
    rw [ht, hE.only]
    rfl
  rw [htt, ← hstate, hns, h1]
  exact hE.exiting

/-! ### Fuses and records -/

theorem exits_false {fs : List Fld} {s t : State} {r : List SlowOp} {D E : Dev} (h : Dev.CmdLanded fs s r D) (hE : Dev.Edged D E) (ht : t.dev = E.settle)
    (hst : ∀ f ∈ fs, Fld.clear [f] Reg.PWR_STATUS_STATE = true) (hp : D.pwr.exiting = s.dev.pwr.exiting) : Exits s t false 8 := by
  have := (exits_edge h hE ht hst).2
  unfold Exits
  rw [this, hp]
  simp

theorem commitVer_lands (s : State) (r : List SlowOp) (hq : SlowHead s 0x4010 1 r) : let v := max s.nv.version (s.dev.rd Reg.PWR_SECVER_VER)
    let u := AfterEdge s
    ∃ t, exec .slowWriteLand s = .next t ∧ t.pending = s.pending ∧ t.nv = { s.nv with version := v } ∧ EdgeCame s t r ∧ Exits s t false 8 ∧
      t.dev.rd Reg.PWR_SECMIN_VER = v % 2 ^ 6 ∧ OnlyFields [Reg.PWR_SECMIN_VER] (u t r) t ∧ t.dev = Around (u t r).dev t.dev := by
  intro v u
  have hy : runCmd (s.nv, s.dev.slowTail r) 0x4010 1 1 = ({ s.nv with version := v }, (s.dev.slowTail r).wr Reg.PWR_SECMIN_VER v) := rfl
  have hrun := slowWriteLand_cmd (row := { fld := Reg.PWR_CMD_COMMITVER, ty := .cmd }) hq (by decide +kernel) rfl rfl (by decide) (by decide) (by decide) hy
  have hD : Dev.CmdLanded [Reg.PWR_SECMIN_VER] s r ((s.dev.slowTail r).wr Reg.PWR_SECMIN_VER v) :=
    ⟨rfl, ((Dev.SameBut.refl _ s.dev).trans (.of_live (d' := s.dev.slowTail r) rfl)).wr Reg.PWR_SECMIN_VER v (by simp) rfl⟩
  have hv : ((s.dev.slowTail r).wr Reg.PWR_SECMIN_VER v).rd Reg.PWR_SECMIN_VER = v % 2 ^ 6 := Dev.rd_wr _ _ _ rfl
  have hp : ((s.dev.slowTail r).wr Reg.PWR_SECMIN_VER v).pwr = s.dev.pwr := rfl
  have hage : ((s.dev.slowTail r).wr Reg.PWR_SECMIN_VER v).age = s.dev.age := rfl
  generalize (s.dev.slowTail r).wr Reg.PWR_SECMIN_VER v = D at hD hv hp hage hrun
  have hE := D.edged
  generalize D.slowEdge.powerLeave 8 = E at hE hrun
  refine ⟨_, hrun, rfl, rfl, edgeCame_of hD hE rfl, exits_false hD hE rfl (by decide) (by rw [hp]), ?_, onlyFields_edge hD hE rfl (by decide), ?_⟩
  · rw [Dev.settle_rd, Dev.rd, hE.word, ← Dev.rd, Dev.rd_wr_sep _ _ _ _ rfl, hv]
  · refine (around_edge hD hE rfl).trans ?_
    rw [hage]
    rfl

theorem execAgeingRecordWrite_eq (s : State) : exec .ageingRecordWrite s = onBoth (fun x =>
    if x.2.boot.dumpSectors = 0 ∨ !x.2.supRuns ∨ x.2.tick < x.2.age.recAt + 691200000 then x
    else ({ x.1 with age := some x.2.age.hist }, { x.2 with age := { x.2.age with recAt := x.2.tick } })) s := rfl

theorem ageingRecordWrite_writes (s : State) : let writes := s.dev.boot.dumpSectors ≠ 0 ∧ s.dev.supRuns = true ∧ s.dev.age.recAt + 691200000 ≤ s.dev.tick
    (¬ writes → ∃ t, Runs .ageingRecordWrite s t ∧ Keeps [] s t s.dev) ∧
    (writes → ∃ t, exec .ageingRecordWrite s = .next t ∧ t.pending = s.pending ∧ t.nv = { s.nv with age := some s.dev.age.hist } ∧
      Keeps [] s t { s.dev with age := { s.dev.age with recAt := s.dev.tick } }) := by
  intro writes
  have hrun := exec_onBoth (execAgeingRecordWrite_eq s)
  have hc : (s.dev.boot.dumpSectors = 0 ∨ (!s.dev.supRuns) = true ∨ s.dev.tick < s.dev.age.recAt + 691200000) ↔ ¬ writes := by
    rw [not_and_or, not_and_or, not_not, Bool.not_eq_true', Bool.not_eq_true, not_le]
  refine ⟨fun hw => ?_, fun hw => ?_⟩
  · rw [if_pos (hc.mpr hw)] at hrun
    exact ⟨_, ⟨hrun, rfl, rfl⟩, fun _ _ => rfl, rfl⟩
  · rw [if_neg fun h => hc.mp h hw] at hrun
    exact ⟨_, hrun, rfl, rfl, fun _ _ => rfl, rfl⟩

theorem fusesAndRecordsAreWritten : FusesAndRecordsAreWritten := ⟨commitVer_lands, ageingRecordWrite_writes⟩

end Sys2Proof.Machine
end

section
-- What runs beside a check is held in memory with it: the declarations of this section are elaborated in turn.
set_option Elab.async false
/-! Ash dumps: captured, saved, fetched and read (R496 to R500). -/
namespace Sys2Proof.Machine
open Sys2Proof.Claims

/-! ### A trigger -/

theorem Dev.capture_lost {d : Dev} {c : Nat} (hm : ¬ d.rd Reg.DUMP_CFG_MASK / 2 ^ c % 2 = 0) (hb : d.rd Reg.DUMP_STATUS_BUSY = 1) :
    Dev.Acts [Reg.DUMP_LOSTCNT_COUNT, Reg.DUMP_STATUS_OVER, Reg.DUMP_STATUS_CNT_HALF] [(4, 1, c + 2 ^ 8)] d (d.capture c) ∧
      (d.capture c).rd Reg.DUMP_LOSTCNT_COUNT = (d.rd Reg.DUMP_LOSTCNT_COUNT + 1) % 2 ^ 32 ∧ (d.capture c).rd Reg.DUMP_STATUS_OVER = 1 := by
  have hon : d.on Reg.DUMP_STATUS_BUSY = true := (Dev.on_true_iff ..).mpr hb
  unfold Dev.capture
  rw [if_neg hm, if_pos hon]
  refine ⟨(((Dev.Acts.refl _ d).count (c := Reg.DUMP_LOSTCNT_COUNT) (half := Reg.DUMP_STATUS_CNT_HALF) 1 (by simp) (by simp) rfl rfl).flag
    (f := Reg.DUMP_STATUS_OVER) (by simp) rfl).post .., ?_, ?_⟩
  · rw [Dev.post_rd, Dev.rd_flag_sep _ _ _ rfl, Dev.rd_count _ _ _ _ rfl rfl rfl]
    rfl
  · rw [Dev.post_rd, Dev.rd_flag _ _ rfl]

/-- What a trigger that is captured leaves; `r` is the record. -/
structure Dev.Captured (c : Nat) (r : DumpRec) (d D : Dev) : Prop where
  acts : Dev.Acts [Reg.DUMP_CNT_COUNT, Reg.DUMP_STATUS_BUSY, Reg.DUMP_STATUS_CAPEV, Reg.DUMP_STATUS_CNT_HALF] [(4, 1, c)]
    { d with dump := { d.dump with buf := some r }, free := d.free + 4096 } D
  busy : D.rd Reg.DUMP_STATUS_BUSY = 1
  capev : D.rd Reg.DUMP_STATUS_CAPEV = 1
  counted : D.rd Reg.DUMP_CNT_COUNT = (d.rd Reg.DUMP_CNT_COUNT + 1) % 2 ^ 32
  cause : r.cause = c
  tick : r.tick = d.schTick
  seq : r.seq = 0
  nanos : r.nanos = d.nanos

theorem Dev.capture_taken {d : Dev} {c : Nat} (hm : ¬ d.rd Reg.DUMP_CFG_MASK / 2 ^ c % 2 = 0) (hb : d.rd Reg.DUMP_STATUS_BUSY = 0) :
    ∃ r, Dev.Captured c r d (d.capture c) := by
  have hoff : ¬ d.on Reg.DUMP_STATUS_BUSY = true := by
    rw [Dev.on_true_iff, hb]
    decide
  unfold Dev.capture
  rw [if_neg hm, if_neg hoff]
  dsimp only
  obtain ⟨r, hr, h1, h2, h3, h4⟩ : ∃ r : DumpRec, r = { cause := c, tick := d.schTick, secs := d.seconds, nanos := d.nanos, fw := d.rd Reg.PWR_KSTAT_IMAGE + d.rd Reg.PWR_SECVER_VER * 2 ^ 8 + (d.word 0x4014).toNat % 2 ^ 16 * 2 ^ 16, body := d.dumpBody, trace := d.free, klog := d.dump.klog } ∧ r.cause = c ∧ r.tick = d.schTick ∧ r.seq = 0 ∧ r.nanos = d.nanos :=
    ⟨_, rfl, rfl, rfl, rfl, rfl⟩
  rw [← hr]
  refine ⟨r, ?_⟩
  have key : ∀ E : Dev, E.rd Reg.DUMP_CNT_COUNT = d.rd Reg.DUMP_CNT_COUNT →
      Dev.Acts [Reg.DUMP_CNT_COUNT, Reg.DUMP_STATUS_BUSY, Reg.DUMP_STATUS_CAPEV, Reg.DUMP_STATUS_CNT_HALF] [(4, 1, c)] E
        ((((E.wr Reg.DUMP_STATUS_BUSY 1).flag Reg.DUMP_STATUS_CAPEV).count Reg.DUMP_CNT_COUNT Reg.DUMP_STATUS_CNT_HALF).post 4 1 c) ∧
      ((((E.wr Reg.DUMP_STATUS_BUSY 1).flag Reg.DUMP_STATUS_CAPEV).count Reg.DUMP_CNT_COUNT Reg.DUMP_STATUS_CNT_HALF).post 4 1 c).rd Reg.DUMP_STATUS_BUSY = 1 ∧
      ((((E.wr Reg.DUMP_STATUS_BUSY 1).flag Reg.DUMP_STATUS_CAPEV).count Reg.DUMP_CNT_COUNT Reg.DUMP_STATUS_CNT_HALF).post 4 1 c).rd Reg.DUMP_STATUS_CAPEV = 1 ∧
      ((((E.wr Reg.DUMP_STATUS_BUSY 1).flag Reg.DUMP_STATUS_CAPEV).count Reg.DUMP_CNT_COUNT Reg.DUMP_STATUS_CNT_HALF).post 4 1 c).rd Reg.DUMP_CNT_COUNT =
        (d.rd Reg.DUMP_CNT_COUNT + 1) % 2 ^ 32 := fun E hE => by
    refine ⟨((((Dev.Acts.refl _ E).wr (f := Reg.DUMP_STATUS_BUSY) 1 (by simp) rfl).flag (f := Reg.DUMP_STATUS_CAPEV) (by simp) rfl).count 1 (by simp) (by simp) rfl rfl).post ..,
      ?_, ?_, ?_⟩
    · rw [Dev.post_rd, Dev.rd_count_apart _ _ _ _ _ rfl rfl rfl rfl rfl, Dev.rd_flag_sep _ _ _ rfl, Dev.rd_wr_lt _ Reg.DUMP_STATUS_BUSY 1 rfl (show 1 < 2 ^ 1 by decide)]
    · rw [Dev.post_rd, Dev.rd_count_apart _ _ _ _ _ rfl rfl rfl rfl rfl, Dev.rd_flag _ _ rfl]
    · rw [Dev.post_rd, Dev.rd_count _ _ _ _ rfl rfl rfl, Dev.rd_flag_sep _ _ _ rfl, Dev.rd_wr_sep _ _ _ _ rfl, hE]
      rfl
  obtain ⟨k1, k2, k3, k4⟩ := key { d with dump := { d.dump with buf := some r }, free := d.free + 4096 } rfl
  exact ⟨k1, k2, k3, k4, h1, h2, h3, h4⟩

/-- The head of a record (R499). -/
theorem DumpRec.words_head (r : DumpRec) : r.words.getD 0 0 = 0x51454153 ∧ r.words.getD 1 0 = 0x00400001 ∧ r.words.getD 3 0 = BitVec.ofNat 32 (r.cause % 256) ∧
    r.words.getD 4 0 = BitVec.ofNat 32 r.tick ∧ r.words.getD 6 0 = BitVec.ofNat 32 r.nanos := by
  unfold DumpRec.words
  generalize crc32c ((r.wordsWith 0).flatMap fun w => leBytes w.toNat) = crc
  exact ⟨rfl, rfl, rfl, rfl, rfl⟩

theorem dumpTrigger_triggers (s : State) (h : Agent) (hr : Ready s h Reg.DUMP_CMD_TRIGGER false) :
    let counts := fun (t : State) (f : Fld) => t.dev.rd f = (s.dev.rd f + 1) % 2 ^ 32
    (NoDump s 0 → ∃ t, Runs (.dumpTrigger h) s t ∧ Keeps [] s t s.dev) ∧
    (¬ NoDump s 0 → s.dev.rd Reg.DUMP_STATUS_BUSY = 1 → ∃ t, Runs (.dumpTrigger h) s t ∧ counts t Reg.DUMP_LOSTCNT_COUNT ∧
      t.dev.rd Reg.DUMP_STATUS_OVER = 1 ∧ t.dev = Around s.dev t.dev ∧
      OnlyFields [Reg.DUMP_LOSTCNT_COUNT, Reg.DUMP_STATUS_OVER, Reg.DUMP_STATUS_CNT_HALF] s t ∧ (Room s → EntersAll s t [(4, 1, 2 ^ 8)])) ∧
    (¬ NoDump s 0 → s.dev.rd Reg.DUMP_STATUS_BUSY = 0 → ∃ t, Runs (.dumpTrigger h) s t ∧ counts t Reg.DUMP_CNT_COUNT ∧
      t.dev.rd Reg.DUMP_STATUS_BUSY = 1 ∧ t.dev.rd Reg.DUMP_STATUS_CAPEV = 1 ∧
      OnlyFields [Reg.DUMP_CNT_COUNT, Reg.DUMP_STATUS_BUSY, Reg.DUMP_STATUS_CAPEV, Reg.DUMP_STATUS_CNT_HALF] s t ∧
      (∃ r, t.dev.dump.buf = some r ∧ r.cause = 0 ∧ r.words.getD 0 0 = 0x51454153 ∧ r.words.getD 1 0 = 0x00400001 ∧ r.words.getD 3 0 = 0 ∧
        r.words.getD 4 0 = BitVec.ofNat 32 s.dev.tick ∧ r.words.getD 6 0 = BitVec.ofNat 32 s.dev.nanos) ∧
      t.dev = Around { s.dev with dump := { s.dev.dump with buf := t.dev.dump.buf }, free := t.dev.free } t.dev ∧
      (Room s → EntersAll s t [(4, 1, 0)])) := by
  intro counts
  obtain ⟨p, hrun⟩ := hostCmd_runs (show exec (.dumpTrigger h) s = onDev (fun d => d.hostCmd h Reg.DUMP_CMD_TRIGGER [] fun d => d.capture 0) s from rfl) hr
  refine ⟨fun hm => ?_, fun hm hb => ?_, fun hm hb => ?_⟩
  · rw [Dev.capture_masked (d := { s.dev with pwr := p }) hm] at hrun
    exact ⟨_, hrun, fun _ _ => rfl, rfl⟩
  · obtain ⟨hA, v1, v2⟩ := Dev.capture_lost (d := { s.dev with pwr := p }) (c := 0) hm hb
    generalize Dev.capture { s.dev with pwr := p } 0 = D at hA v1 v2 hrun
    refine ⟨_, hrun, (Dev.settle_rd ..).trans v1, (Dev.settle_rd ..).trans v2, ?_, ?_, fun hroom => ?_⟩
    · exact hA.around
    · exact (onlyFields_iff ..).mpr (((Dev.SameBut.of_live rfl).trans hA.same).settle)
    · exact hA.enters rfl rfl 4 (by decide) (by simp) (by simp) hroom rfl
  · obtain ⟨r, hC⟩ := Dev.capture_taken (d := { s.dev with pwr := p }) (c := 0) hm hb
    generalize Dev.capture { s.dev with pwr := p } 0 = D at hC hrun
    obtain ⟨hA, v1, v2, v3, c1, c2, -, c4⟩ := hC
    obtain ⟨w0, w1, w3, w4, w6⟩ := r.words_head
    have hdump : D.dump = { s.dev.dump with buf := some r } := by rw [hA.only]
    have hfree : D.free = s.dev.free + 4096 := by rw [hA.only]
    refine ⟨_, hrun, (Dev.settle_rd ..).trans v3, (Dev.settle_rd ..).trans v1, (Dev.settle_rd ..).trans v2, ?_, ⟨r, ?_, c1, w0, w1, ?_, ?_, ?_⟩, ?_, fun hroom => ?_⟩
    · exact (onlyFields_iff ..).mpr (((Dev.SameBut.of_live rfl).trans hA.same).settle)
    · change D.dump.buf = some r
      rw [hdump]
    · rw [w3, c1]
      rfl
    · rw [w4, c2]
      refine BitVec.eq_of_toNat_eq ?_
      rw [BitVec.toNat_ofNat, BitVec.toNat_ofNat]
      exact Nat.mod_mod _ _
    · rw [w6, c4]
      rfl
    · change D.settle = Around { s.dev with dump := { s.dev.dump with buf := D.dump.buf }, free := D.free } D.settle
      rw [hdump, hfree, hA.around]
      rfl
    · exact hA.enters rfl rfl 4 (by decide) (by simp) (by simp) hroom rfl

theorem dumpRelease_frees (s : State) (h : Agent) (hr : Ready s h Reg.DUMP_CMD_RELEASE false) :
    ∃ t, Runs (.dumpRelease h) s t ∧ t.dev.rd Reg.DUMP_STATUS_BUSY = 0 ∧ OnlyFields [Reg.DUMP_STATUS_BUSY] s t ∧ t.dev = Around s.dev t.dev := by
  obtain ⟨p, hrun⟩ := hostCmd_runs (show exec (.dumpRelease h) s = onDev (fun d => d.hostCmd h Reg.DUMP_CMD_RELEASE [] fun d => d.wr Reg.DUMP_STATUS_BUSY 0) s from rfl) hr
  have hA := Dev.wr_acts { s.dev with pwr := p } Reg.DUMP_STATUS_BUSY 0 rfl
  have hv := Dev.rd_wr_lt { s.dev with pwr := p } Reg.DUMP_STATUS_BUSY 0 rfl (by decide)
  generalize Dev.wr { s.dev with pwr := p } Reg.DUMP_STATUS_BUSY 0 = D at hA hv hrun
  exact ⟨_, hrun, (Dev.settle_rd ..).trans hv, (onlyFields_iff ..).mpr (((Dev.SameBut.of_live rfl).trans hA.same).settle), hA.around⟩

/-! ### Saves (R498) -/

theorem Sparse.mem_erase_iff {α : Type} (l : Sparse α) (k : Nat) (e : Nat × α) : e ∈ Sparse.erase l k ↔ e ∈ l ∧ e.1 ≠ k := by
  induction l with
  | nil => simp [Sparse.erase]
  | cons a t ih =>
    obtain ⟨i, w⟩ := a
    unfold Sparse.erase
    split
    · rename_i h
      rw [ih, List.mem_cons]
      refine ⟨fun ⟨h1, h2⟩ => ⟨.inr h1, h2⟩, fun ⟨h1, h2⟩ => ⟨h1.resolve_left fun he => h2 ?_, h2⟩⟩
      rw [he]
      exact h
    · rename_i h
      rw [List.mem_cons, List.mem_cons, ih]
      refine ⟨fun h1 => h1.elim (fun he => ⟨.inl he, ?_⟩) fun ⟨h1, h2⟩ => ⟨.inr h1, h2⟩, fun ⟨h1, h2⟩ => h1.imp_right fun h1 => ⟨h1, h2⟩⟩
      rw [he]
      exact h

/-- The keys of a rising store lie above its bound. -/
theorem Sparse.rising_mem {α : Type} {l : Sparse α} {lo : Nat} (h : Sparse.rising lo l = true) {e : Nat × α} (he : e ∈ l) : lo ≤ e.1 := by
  induction l generalizing lo with
  | nil => cases he
  | cons a t ih =>
    obtain ⟨i, w⟩ := a
    rw [Sparse.rising, Bool.and_eq_true, decide_eq_true_eq] at h
    obtain rfl | he := List.mem_cons.mp he
    · exact h.1
    · have := ih h.2 he
      omega

theorem Sparse.mem_insert_iff {α : Type} {l : Sparse α} {lo : Nat} (h : Sparse.rising lo l = true) (k : Nat) (v : α) (e : Nat × α) :
    e ∈ Sparse.insert l k v ↔ e = (k, v) ∨ (e ∈ l ∧ e.1 ≠ k) := by
  induction l generalizing lo with
  | nil => simp [Sparse.insert]
  | cons a t ih =>
    obtain ⟨i, w⟩ := a
    rw [Sparse.rising, Bool.and_eq_true, decide_eq_true_eq] at h
    have habove : ∀ x ∈ t, i < x.1 := fun x hx => Sparse.rising_mem h.2 hx
    unfold Sparse.insert
    split
    · rename_i hk
      rw [List.mem_cons, List.mem_cons, ih h.2]
      constructor
      · rintro (rfl | rfl | ⟨h1, h2⟩)
        · exact .inr ⟨.inl rfl, by omega⟩
        · exact .inl rfl
        · exact .inr ⟨.inr h1, h2⟩
      · rintro (rfl | ⟨rfl | h1, h2⟩)
        · exact .inr (.inl rfl)
        · exact .inl rfl
        · exact .inr (.inr ⟨h1, h2⟩)
    · split
      · rename_i hk hik
        rw [List.mem_cons, List.mem_cons]
        constructor
        · rintro (rfl | h1)
          · exact .inl rfl
          · exact .inr ⟨.inr h1, by have := habove e h1; omega⟩
        · rintro (rfl | ⟨rfl | h1, h2⟩)
          · exact .inl rfl
          · exact absurd hik h2
          · exact .inr h1
      · rename_i hk hik
        rw [List.mem_cons]
        constructor
        · rintro (rfl | h1)
          · exact .inl rfl
          · refine .inr ⟨h1, ?_⟩
            obtain rfl | h1 := List.mem_cons.mp h1
            · exact hik
            · have := habove e h1
              omega
        · rintro (rfl | ⟨h1, -⟩)
          · exact .inl rfl
          · exact .inr h1

/-- The record with the highest SEQ is the newest. -/
theorem newestDump_of {l : Sparse DumpRec} {e : Nat × DumpRec} (he : e ∈ l) (hmax : ∀ x ∈ l, x ≠ e → x.2.seq < e.2.seq) : newestDump l = some e := by
  have key : ∀ (l : Sparse DumpRec) (b : Option (Nat × DumpRec)), (∀ x ∈ l, x ≠ e → x.2.seq < e.2.seq) → (∀ x, b = some x → x ≠ e → x.2.seq < e.2.seq) →
      (e ∈ l ∨ b = some e) → l.foldl (fun b e => match b with
        | none => some e
        | some x => if e.2.seq > x.2.seq then some e else some x) b = some e := by
    intro l
    induction l with
    | nil => exact fun b _ _ h => h.resolve_left (by simp)
    | cons a t ih =>
      intro b hl hb h
      rw [List.foldl_cons]
      have ha : a ≠ e → a.2.seq < e.2.seq := hl a (List.mem_cons_self ..)
      refine ih _ (fun x hx => hl x (List.mem_cons_of_mem _ hx)) (fun x hx => ?_) ?_
      · cases b with
        | none =>
          cases hx
          exact ha
        | some y =>
          dsimp only at hx
          split at hx
          · cases hx
            exact ha
          · cases hx
            exact hb _ rfl
      · by_cases hae : a = e
        · subst hae
          refine .inr ?_
          cases b with
          | none => rfl
          | some y =>
            dsimp only
            by_cases hy : y = a
            · rw [hy, if_neg (lt_irrefl _)]
            · rw [if_pos (hb y rfl hy)]
        · obtain h | rfl := h
          · exact .inl ((List.mem_cons.mp h).resolve_left (Ne.symm hae))
          · refine .inr ?_
            dsimp only
            rw [if_neg (by have := ha hae; omega)]
  exact key l none hmax (fun x hx => by cases hx) (.inl he)

/-- The device after a save: `l` the records that are now in the flash. -/
def Dev.savedDump (d : Dev) (ok : Bool) (seq : Nat) (l : Sparse DumpRec) : Dev :=
  (((d.wr Reg.DUMP_STATUS_BUSY 0).flag Reg.DUMP_STATUS_SAVEEV).post 4 2 (bit (!ok) * 2 ^ 8 + seq % 2 ^ 32 * 2 ^ 32)).showDumps l

/-- The records that a save leaves. -/
def savedRecords (l : Sparse DumpRec) (ok : Bool) (sector seq : Nat) (r : DumpRec) : Sparse DumpRec :=
  if ok then Sparse.insert l sector { r with seq := seq } else Sparse.erase l sector

theorem execSaved_saves {s : State} {ok : Bool} {r : DumpRec} {sector seq : Nat} (hb : s.dev.dump.buf = some r)
    (ho : (s.dev.supRuns && s.dev.on Reg.DUMP_STATUS_BUSY && s.dev.on Reg.DUMP_CFG_AUTOSAVE && decide (s.dev.rd Reg.DUMP_NREC_CAP > 0)) = true)
    (hn : (newestDump s.nv.dump = none ∧ sector = 1 ∧ seq = 0) ∨
      ∃ e, newestDump s.nv.dump = some e ∧ sector = e.1 % s.dev.rd Reg.DUMP_NREC_CAP + 1 ∧ seq = e.2.seq + 1) :
    exec (.saved ok) s = .next { s with
      nv := { s.nv with dump := savedRecords s.nv.dump ok sector seq r, age := some s.dev.age.hist }
      dev := (s.dev.savedDump ok seq (savedRecords s.nv.dump ok sector seq r)).settle } := by
  change execSaved ok s = _
  unfold execSaved
  dsimp only
  rw [hb, ho]
  obtain ⟨h1, rfl, rfl⟩ | ⟨e, h1, rfl, rfl⟩ := hn
  · rw [h1]
    cases ok <;> rfl
  · rw [h1]
    cases ok <;> rfl

theorem execSaved_idle {s : State} {ok : Bool} (h : s.dev.dump.buf = none ∨ (s.dev.supRuns && s.dev.on Reg.DUMP_STATUS_BUSY && s.dev.on Reg.DUMP_CFG_AUTOSAVE &&
    decide (s.dev.rd Reg.DUMP_NREC_CAP > 0)) = false) : exec (.saved ok) s = .next s := by
  change execSaved ok s = _
  unfold execSaved
  dsimp only
  obtain h | h := h
  · rw [h]
  · rw [h]
    cases s.dev.dump.buf <;> rfl

theorem Dev.showDumps_eq (d : Dev) (l : Sparse DumpRec) : ∃ v, d.showDumps l = (d.wr Reg.DUMP_LAST_SEQ v).wr Reg.DUMP_NREC_COUNT l.length ∧
    ∀ e, newestDump l = some e → v = e.2.seq := ⟨_, rfl, fun e he => by rw [he]⟩

theorem Dev.savedDump_told (d : Dev) (ok : Bool) (seq : Nat) (l : Sparse DumpRec) :
    Dev.Acts [Reg.DUMP_STATUS_BUSY, Reg.DUMP_STATUS_SAVEEV, Reg.DUMP_NREC_COUNT, Reg.DUMP_LAST_SEQ] [(4, 2, (if ok then 0 else 2 ^ 8) + seq % 2 ^ 32 * 2 ^ 32)]
      d (d.savedDump ok seq l) ∧
    (d.savedDump ok seq l).rd Reg.DUMP_STATUS_BUSY = 0 ∧ (d.savedDump ok seq l).rd Reg.DUMP_STATUS_SAVEEV = 1 ∧
    (d.savedDump ok seq l).rd Reg.DUMP_NREC_COUNT = l.length % 2 ^ 16 ∧
    ∀ e, newestDump l = some e → (d.savedDump ok seq l).rd Reg.DUMP_LAST_SEQ = e.2.seq % 2 ^ 32 := by
  have harg : bit (!ok) * 2 ^ 8 + seq % 2 ^ 32 * 2 ^ 32 = (if ok then 0 else 2 ^ 8) + seq % 2 ^ 32 * 2 ^ 32 := by cases ok <;> rfl
  unfold Dev.savedDump
  obtain ⟨v, hshow, hv⟩ := Dev.showDumps_eq (((d.wr Reg.DUMP_STATUS_BUSY 0).flag Reg.DUMP_STATUS_SAVEEV).post 4 2 (bit (!ok) * 2 ^ 8 + seq % 2 ^ 32 * 2 ^ 32)) l
  rw [hshow, harg]
  have h := ((((Dev.Acts.refl [Reg.DUMP_STATUS_BUSY, Reg.DUMP_STATUS_SAVEEV, Reg.DUMP_NREC_COUNT, Reg.DUMP_LAST_SEQ] d).wr (f := Reg.DUMP_STATUS_BUSY) 0 (by simp) rfl).flag
    (f := Reg.DUMP_STATUS_SAVEEV) (by simp) rfl).post 4 2 ((if ok then 0 else 2 ^ 8) + seq % 2 ^ 32 * 2 ^ 32))
  refine ⟨(h.wr (f := Reg.DUMP_LAST_SEQ) v (by simp) rfl).wr (f := Reg.DUMP_NREC_COUNT) l.length (by simp) rfl, ?_, ?_, ?_, fun e he => ?_⟩
  · rw [Dev.rd_wr_sep _ _ _ _ rfl, Dev.rd_wr_sep _ _ _ _ rfl, Dev.post_rd, Dev.rd_flag_sep _ _ _ rfl]
    exact Dev.rd_wr_lt _ Reg.DUMP_STATUS_BUSY 0 rfl (by decide)
  · rw [Dev.rd_wr_sep _ _ _ _ rfl, Dev.rd_wr_sep _ _ _ _ rfl, Dev.post_rd, Dev.rd_flag _ _ rfl]
  · exact Dev.rd_wr _ _ _ rfl
  · rw [Dev.rd_wr_sep _ _ _ _ rfl, Dev.rd_wr _ _ _ rfl, hv e he]
    rfl

theorem saved_saves (s : State) (ok : Bool) : let cap := s.dev.rd Reg.DUMP_NREC_CAP
    let owed := s.dev.supRuns = true ∧ s.dev.rd Reg.DUMP_STATUS_BUSY = 1 ∧ s.dev.rd Reg.DUMP_CFG_AUTOSAVE = 1 ∧ 0 < cap
    (s.dev.dump.buf = none ∨ ¬ owed → exec (.saved ok) s = .next s) ∧
    ∀ r sector seq, s.dev.dump.buf = some r → owed → Sparse.rising 0 s.nv.dump = true →
      ((s.nv.dump = [] ∧ sector = 1 ∧ seq = 0) ∨
        ∃ e ∈ s.nv.dump, (∀ x ∈ s.nv.dump, x ≠ e → x.2.seq < e.2.seq) ∧ sector = e.1 % cap + 1 ∧ seq = e.2.seq + 1) →
      ∃ t, exec (.saved ok) s = .next t ∧ t.pending = s.pending ∧
        t.nv = { s.nv with dump := t.nv.dump, age := some s.dev.age.hist } ∧
        (∀ x, (sector, x) ∈ t.nv.dump ↔ ok = true ∧ x = { r with seq := seq }) ∧
        (∀ k x, k ≠ sector → ((k, x) ∈ t.nv.dump ↔ (k, x) ∈ s.nv.dump)) ∧
        t.dev.rd Reg.DUMP_STATUS_BUSY = 0 ∧ t.dev.rd Reg.DUMP_STATUS_SAVEEV = 1 ∧ t.dev.rd Reg.DUMP_NREC_COUNT = t.nv.dump.length % 2 ^ 16 ∧
        (ok = true → t.dev.rd Reg.DUMP_LAST_SEQ = seq % 2 ^ 32) ∧ t.dev = Around s.dev t.dev ∧
        OnlyFields [Reg.DUMP_STATUS_BUSY, Reg.DUMP_STATUS_SAVEEV, Reg.DUMP_NREC_COUNT, Reg.DUMP_LAST_SEQ] s t ∧
        (Room s → EntersAll s t [(4, 2, (if ok then 0 else 2 ^ 8) + seq % 2 ^ 32 * 2 ^ 32)]) := by
  intro cap owed
  have howed : (s.dev.supRuns && s.dev.on Reg.DUMP_STATUS_BUSY && s.dev.on Reg.DUMP_CFG_AUTOSAVE && decide (s.dev.rd Reg.DUMP_NREC_CAP > 0)) = true ↔ owed := by
    rw [Bool.and_eq_true, Bool.and_eq_true, Bool.and_eq_true, Dev.on_true_iff, Dev.on_true_iff, decide_eq_true_eq, and_assoc, and_assoc]
  refine ⟨fun h => execSaved_idle (h.imp_right fun h => Bool.eq_false_iff.mpr fun hc => h (howed.mp hc)), fun r sector seq hb ho hrise hpos => ?_⟩
  have hn : (newestDump s.nv.dump = none ∧ sector = 1 ∧ seq = 0) ∨
      ∃ e, newestDump s.nv.dump = some e ∧ sector = e.1 % s.dev.rd Reg.DUMP_NREC_CAP + 1 ∧ seq = e.2.seq + 1 := by
    obtain ⟨h1, rfl, rfl⟩ | ⟨e, he, hmax, rfl, rfl⟩ := hpos
    · rw [h1]
      exact .inl ⟨rfl, rfl, rfl⟩
    · exact .inr ⟨e, newestDump_of he hmax, rfl, rfl⟩
  have hbelow : ∀ x ∈ s.nv.dump, x.2.seq < seq := fun x hx => by
    obtain ⟨h1, -, -⟩ | ⟨e, -, hmax, -, rfl⟩ := hpos
    · rw [h1] at hx
      cases hx
    · by_cases hxe : x = e
      · rw [hxe]
        omega
      · have := hmax x hx hxe
        omega
  have hrun := execSaved_saves (ok := ok) hb (howed.mpr ho) hn
  have hmem : ∀ e, e ∈ savedRecords s.nv.dump ok sector seq r ↔ (ok = true ∧ e = (sector, { r with seq := seq })) ∨ (e ∈ s.nv.dump ∧ e.1 ≠ sector) := fun e => by
    unfold savedRecords
    cases ok with
    | true =>
      rw [if_pos rfl, Sparse.mem_insert_iff hrise]
      simp
    | false =>
      rw [if_neg Bool.false_ne_true, Sparse.mem_erase_iff]
      simp
  have hlast : ok = true → newestDump (savedRecords s.nv.dump ok sector seq r) = some (sector, { r with seq := seq }) := fun hok =>
    newestDump_of ((hmem _).mpr (.inl ⟨hok, rfl⟩)) fun x hx hne => by
      obtain ⟨-, h⟩ | ⟨h, -⟩ := (hmem x).mp hx
      · exact absurd h hne
      · exact hbelow x h
  generalize savedRecords s.nv.dump ok sector seq r = l at hrun hmem hlast
  obtain ⟨hA, v1, v2, v3, v4⟩ := s.dev.savedDump_told ok seq l
  generalize s.dev.savedDump ok seq l = D at hrun hA v1 v2 v3 v4
  refine ⟨_, hrun, rfl, rfl, fun x => ?_, fun k x hk => ?_, (Dev.settle_rd ..).trans v1, (Dev.settle_rd ..).trans v2, (Dev.settle_rd ..).trans v3,
    fun hok => (Dev.settle_rd ..).trans (v4 _ (hlast hok)), hA.around, (onlyFields_iff ..).mpr hA.same.settle, fun hroom => ?_⟩
  · rw [hmem]
    simp
  · rw [hmem]
    simp [hk]
  · exact hA.enters rfl rfl 4 (by decide) (by simp) (by simp) hroom rfl

/-! ### FETCH and the read of the buffer (R500) -/

theorem dumpInsert_perm (r : DumpRec) (l : List DumpRec) : (dumpInsert r l).Perm (r :: l) := by
  induction l with
  | nil => exact .refl _
  | cons x t ih =>
    unfold dumpInsert
    split
    · exact .refl _
    · exact (ih.cons x).trans (.swap r x t)

/-- The saved records, newest first, are the saved records. -/
theorem dumpSorted_perm (l : List DumpRec) : (l.foldr dumpInsert []).Perm l := by
  induction l with
  | nil => exact .refl _
  | cons x t ih => exact (dumpInsert_perm x _).trans (ih.cons x)

theorem dumpInsert_sorted (r : DumpRec) {l : List DumpRec} (h : l.Pairwise fun x y => y.seq ≤ x.seq) : (dumpInsert r l).Pairwise fun x y => y.seq ≤ x.seq := by
  induction l with
  | nil => simp [dumpInsert]
  | cons x t ih =>
    obtain ⟨h1, h2⟩ := List.pairwise_cons.mp h
    unfold dumpInsert
    split
    · rename_i hge
      refine List.pairwise_cons.mpr ⟨fun y hy => ?_, h⟩
      obtain rfl | hy := List.mem_cons.mp hy
      · exact hge
      · exact (h1 y hy).trans hge
    · rename_i hlt
      refine List.pairwise_cons.mpr ⟨fun y hy => ?_, ih h2⟩
      obtain rfl | hy := List.mem_cons.mp ((dumpInsert_perm r t).mem_iff.mp hy)
      · omega
      · exact h1 y hy

theorem dumpSorted_sorted (l : List DumpRec) : (l.foldr dumpInsert []).Pairwise fun x y => y.seq ≤ x.seq := by
  induction l with
  | nil => exact .nil
  | cons x t ih => exact dumpInsert_sorted x ih

/-- In a list that falls strictly, a record stands behind those with a higher SEQ. -/
theorem falling_getElem {l : List DumpRec} {e : DumpRec} (he : e ∈ l) (h : l.Pairwise fun x y => y.seq < x.seq) :
    l[(l.filter fun x => decide (e.seq < x.seq)).length]? = some e := by
  induction l with
  | nil => cases he
  | cons x t ih =>
    obtain ⟨h1, h2⟩ := List.pairwise_cons.mp h
    obtain rfl | he := List.mem_cons.mp he
    · have hnil : (e :: t).filter (fun x => decide (e.seq < x.seq)) = [] := by
        refine List.filter_eq_nil_iff.mpr fun y hy => ?_
        obtain rfl | hy := List.mem_cons.mp hy
        · simp
        · have := h1 y hy
          simp
          omega
      rw [hnil]
      rfl
    · rw [List.filter_cons, if_pos (decide_eq_true (h1 e he)), List.length_cons, List.getElem?_cons_succ]
      exact ih he h2

theorem dumpSorted_getElem {l : Sparse DumpRec} {e : Nat × DumpRec} (he : e ∈ l) (hn : (l.map fun x => x.2.seq).Nodup) :
    ((l.map (·.2)).foldr dumpInsert [])[(l.filter fun x => decide (e.2.seq < x.2.seq)).length]? = some e.2 := by
  have hp := dumpSorted_perm (l.map (·.2))
  have hs := dumpSorted_sorted (l.map (·.2))
  generalize (l.map (·.2)).foldr dumpInsert [] = L at hp hs
  have hnd : (L.map (·.seq)).Nodup := by
    refine (hp.map (·.seq)).nodup_iff.mpr ?_
    rw [List.map_map]
    exact hn
  have hstrict : L.Pairwise fun x y => y.seq < x.seq := by
    have hne : L.Pairwise fun x y => x.seq ≠ y.seq := List.pairwise_map.mp hnd
    exact (hs.and hne).imp fun ⟨h1, h2⟩ => by omega
  have hlen : (L.filter fun x => decide (e.2.seq < x.seq)).length = (l.filter fun x => decide (e.2.seq < x.2.seq)).length := by
    rw [(hp.filter _).length_eq, List.filter_map, List.length_map]
    rfl
  rw [← hlen]
  exact falling_getElem (hp.mem_iff.mpr (List.mem_map_of_mem (f := (·.2)) he)) hstrict

theorem Dev.fetchGo_busy {d : Dev} (l : Sparse DumpRec) (h : d.rd Reg.DUMP_STATUS_BUSY = 1) : d.fetchGo l = d.wr Reg.DUMP_STATUS_REASON 0x10 :=
  if_pos ((Dev.on_true_iff ..).mpr h)

theorem Dev.fetchGo_none {d : Dev} {l : Sparse DumpRec} (h : d.rd Reg.DUMP_STATUS_BUSY = 0) (hn : ((l.map (·.2)).foldr dumpInsert [])[d.rd Reg.DUMP_FETCH_REC]? = none) :
    d.fetchGo l = d.wr Reg.DUMP_STATUS_REASON 0x11 := by
  unfold Dev.fetchGo
  rw [if_neg (by rw [Dev.on_true_iff, h]; decide), hn]

theorem Dev.fetchGo_some {d : Dev} {l : Sparse DumpRec} {r : DumpRec} (h : d.rd Reg.DUMP_STATUS_BUSY = 0)
    (hn : ((l.map (·.2)).foldr dumpInsert [])[d.rd Reg.DUMP_FETCH_REC]? = some r) :
    d.fetchGo l = { d with dump := { d.dump with buf := some r } }.wr Reg.DUMP_STATUS_REASON 0 := by
  unfold Dev.fetchGo
  rw [if_neg (by rw [Dev.on_true_iff, h]; decide), hn]
  rfl

theorem fetch_fetches (s : State) (h : Agent) (hr : Ready s h Reg.DUMP_CMD_FETCH false) :
    let n := s.dev.rd Reg.DUMP_FETCH_REC
    let ends := fun (code : Nat) => ∃ t, Runs (.fetch h) s t ∧ t.dev.rd Reg.DUMP_STATUS_REASON = code ∧ OnlyFields [Reg.DUMP_STATUS_REASON] s t ∧
      t.dev = Around s.dev t.dev
    (s.dev.rd Reg.DUMP_STATUS_BUSY = 1 → ends 0x10) ∧
    (s.dev.rd Reg.DUMP_STATUS_BUSY = 0 → s.nv.dump.length ≤ n → ends 0x11) ∧
    (∀ e ∈ s.nv.dump, s.dev.rd Reg.DUMP_STATUS_BUSY = 0 → (s.nv.dump.map fun x => x.2.seq).Nodup →
      (s.nv.dump.filter fun x => decide (e.2.seq < x.2.seq)).length = n →
      ∃ t, Runs (.fetch h) s t ∧ t.dev.rd Reg.DUMP_STATUS_REASON = 0 ∧ OnlyFields [Reg.DUMP_STATUS_REASON] s t ∧
        t.dev = Around { s.dev with dump := { s.dev.dump with buf := some e.2 } } t.dev) := by
  intro n ends
  obtain ⟨p, hrun⟩ := hostCmd_runs (show exec (.fetch h) s = onDev (fun d => d.hostCmd h Reg.DUMP_CMD_FETCH [] fun d => d.fetchGo s.nv.dump) s from rfl) hr
  have told : ∀ (B : Dev) (code : Nat), code < 2 ^ 8 → B.live = s.dev.live → Dev.fetchGo { s.dev with pwr := p } s.nv.dump = B.wr Reg.DUMP_STATUS_REASON code →
      ∃ t, Runs (.fetch h) s t ∧ t.dev.rd Reg.DUMP_STATUS_REASON = code ∧ OnlyFields [Reg.DUMP_STATUS_REASON] s t ∧ t.dev = Around B t.dev := by
    intro B code hcode hB hgo
    rw [hgo] at hrun
    have hA := B.wr_acts Reg.DUMP_STATUS_REASON code rfl
    have hv := Dev.rd_wr_lt B Reg.DUMP_STATUS_REASON code rfl hcode
    generalize B.wr Reg.DUMP_STATUS_REASON code = D at hA hv hrun
    exact ⟨_, hrun, (Dev.settle_rd ..).trans hv, (onlyFields_iff ..).mpr (((Dev.SameBut.of_live hB).trans hA.same).settle), hA.around⟩
  refine ⟨fun hb => told { s.dev with pwr := p } 0x10 (by decide) rfl (Dev.fetchGo_busy _ hb), fun hb hn => ?_, fun e he hb hnd hlen => ?_⟩
  · refine told { s.dev with pwr := p } 0x11 (by decide) rfl (Dev.fetchGo_none hb (List.getElem?_eq_none ?_))
    rw [(dumpSorted_perm _).length_eq, List.length_map]
    exact hn
  · refine told { s.dev with pwr := p, dump := { s.dev.dump with buf := some e.2 } } 0 (by decide) rfl (Dev.fetchGo_some (r := e.2) hb ?_)
    have := dumpSorted_getElem he hnd
    rw [hlen] at this
    exact this

theorem rddataRead_reads (s : State) (h : Agent) : let a := s.dev.rd Reg.DUMP_RDADDR_ADDR
    ∃ t, Runs (.rddataRead h) s t ∧ t.dev.rd Reg.DUMP_RDADDR_ADDR = (a + 1) % 2 ^ 14 ∧ OnlyFields [Reg.DUMP_RDADDR_ADDR] s t ∧
      (∀ r, s.dev.dump.buf = some r → t.dev.fab.rdata = [r.words.getD a 0]) ∧
      (∀ x, s.dev.fab.scan = some x → t.dev.fab.scan = some { x with dirty := true }) ∧ (s.dev.fab.scan = none → t.dev.fab.scan = none) ∧
      t.dev = Around { s.dev with fab := { s.dev.fab with rdata := t.dev.fab.rdata, scan := t.dev.fab.scan } } t.dev := by
  intro a
  have hrun := runs_of_onDev (show exec (.rddataRead h) s = onDev (fun d =>
    { (d.touch h false 4).rdDataRead.1 with fab := { (d.touch h false 4).rdDataRead.1.fab with rdata := [(d.touch h false 4).rdDataRead.2] } }) s from rfl)
  obtain ⟨p, hp⟩ := s.dev.touch_pwr h false 4
  rw [hp] at hrun
  have hlt : a < 2 ^ 14 := s.dev.rd_lt Reg.DUMP_RDADDR_ADDR
  have hne : ¬ Dev.rd { s.dev with pwr := p } Reg.DUMP_RDADDR_ADDR = (a + 1) % 2 ^ 14 := by
    change ¬ a = (a + 1) % 2 ^ 14
    omega
  have hload : (Dev.rdDataRead { s.dev with pwr := p }).1 = (Dev.wr { s.dev with pwr := p } Reg.DUMP_RDADDR_ADDR ((a + 1) % 2 ^ 14)).dirty := if_neg hne
  have hdata : ∀ r, s.dev.dump.buf = some r → (Dev.rdDataRead { s.dev with pwr := p }).2 = r.words.getD a 0 := fun r hr => by
    change Dev.rdData { s.dev with pwr := p } = _
    unfold Dev.rdData
    rw [hr]
    rfl
  rw [hload] at hrun
  generalize (Dev.rdDataRead { s.dev with pwr := p }).2 = v at hdata hrun
  have hW := Dev.wr_acts { s.dev with pwr := p } Reg.DUMP_RDADDR_ADDR ((a + 1) % 2 ^ 14) rfl
  have hv := Dev.rd_wr_lt { s.dev with pwr := p } Reg.DUMP_RDADDR_ADDR ((a + 1) % 2 ^ 14) rfl (Nat.mod_lt _ (by decide))
  generalize Dev.wr { s.dev with pwr := p } Reg.DUMP_RDADDR_ADDR ((a + 1) % 2 ^ 14) = W at hW hv hrun
  have hfab : W.fab = s.dev.fab := by rw [hW.only]
  have hscan : ∀ x, s.dev.fab.scan = some x → W.dirty.fab.scan = some { x with dirty := true } := fun x hx => by
    unfold Dev.dirty
    rw [hfab, hx]
  have hnone : s.dev.fab.scan = none → W.dirty.fab.scan = none := fun hx => by
    unfold Dev.dirty
    rw [hfab, hx]
    dsimp only
    rw [hfab, hx]
  have hD := W.dirty_eq
  have hDr : ∀ f, W.dirty.rd f = W.rd f := W.dirty_rd
  generalize W.dirty = D at hD hDr hscan hnone hrun
  refine ⟨_, hrun, ?_, ?_, fun r hr => ?_, hscan, hnone, ?_⟩
  · exact (Dev.settle_rd ..).trans ((hDr _).trans hv)
  · refine (onlyFields_iff ..).mpr ?_
    exact ((Dev.SameBut.of_live rfl).trans hW.same).trans (.of_live (by rw [hD]; rfl))
  · rw [← hdata r hr]
    rfl
  · change Dev.settle { D with fab := { D.fab with rdata := [v] } } = _
    rw [hD, hW.only]
    rfl

theorem ashDumpsAreCapturedSavedAndRead : AshDumpsAreCapturedSavedAndRead :=
  ⟨dumpTrigger_triggers, dumpRelease_frees, saved_saves, fetch_fetches, rddataRead_reads⟩

end Sys2Proof.Machine
end

section
-- What runs beside a check is held in memory with it: the declarations of this section are elaborated in turn.
set_option Elab.async false
/-! PORST_N, kindling, liveness and the flash retry (R474, R478 to R482). -/
namespace Sys2Proof.Machine
open Sys2Proof.Claims

/-! ### Failures and the end of kindling -/

theorem Dev.kFail_told (d : Dev) {c : Nat} (hc : c < 2 ^ 8) : Dev.SameBut [Reg.PWR_KSTAT_REASON] d (d.kFail c) ∧
    (d.kFail c).rd Reg.PWR_KSTAT_REASON = (if d.rd Reg.PWR_KSTAT_REASON = 0 then c else d.rd Reg.PWR_KSTAT_REASON) ∧
    (d.kFail c).boot = { d.boot with fault := true } := by
  unfold Dev.kFail
  dsimp only
  change _ ∧ _ = (if Dev.rd { d with boot := { d.boot with fault := true } } Reg.PWR_KSTAT_REASON = 0 then c else _) ∧ _
  by_cases h : Dev.rd { d with boot := { d.boot with fault := true } } Reg.PWR_KSTAT_REASON = 0
  · rw [if_pos h, if_pos h]
    exact ⟨(Dev.SameBut.of_live rfl).wr Reg.PWR_KSTAT_REASON c (by simp) rfl, Dev.rd_wr_lt _ _ _ rfl hc, rfl⟩
  · rw [if_neg h, if_neg h]
    exact ⟨.of_live rfl, rfl, rfl⟩

/-- The fields that the end of kindling writes. -/
def endFields : List Fld := [Reg.PWR_KSTAT_DONE, Reg.PWR_KTIME_MS, Reg.PWR_STATUS_KEV] ++ dumpFields

/-- What the end of kindling leaves, the faults apart. -/
structure Dev.KEnds (ms : Nat) (d K : Dev) : Prop where
  same : Dev.SameBut endFields d K
  done : K.rd Reg.PWR_KSTAT_DONE = 1
  ktime : K.rd Reg.PWR_KTIME_MS = ms % 2 ^ 16
  kev : K.rd Reg.PWR_STATUS_KEV = 1
  kindled : K.alm.kindled = true
  waiting : K.boot.waiting = d.boot.waiting
  noFlash : K.boot.noFlash = d.boot.noFlash

/-- The device at the end of kindling, before the dump of a failure. -/
def Dev.kDone (d : Dev) (ms : Nat) : Dev :=
  let d := { d.cycle with alm := { d.alm with kindled := true, wdAt := d.tick } }.kLog
  let t := ms % 2 ^ 16
  let d := ((d.wr Reg.PWR_KSTAT_DONE 1).wr Reg.PWR_KTIME_MS t).flag Reg.PWR_STATUS_KEV
  d.post 1 3 (d.rd Reg.PWR_KSTAT_STEP + d.rd Reg.PWR_KSTAT_REASON * 2 ^ 16 + t * 2 ^ 32)

theorem Dev.kDone_ends (d : Dev) (ms : Nat) : Dev.KEnds ms d (d.kDone ms) := by
  unfold Dev.kDone
  dsimp only
  obtain ⟨B, hB, h1, h2, h3⟩ : ∃ B : Dev, B = Dev.kLog { d.cycle with alm := { d.alm with kindled := true, wdAt := d.tick } } ∧ B.live = d.live ∧
      B.alm.kindled = true ∧ B.boot = d.boot := ⟨_, rfl, rfl, rfl, rfl⟩
  rw [← hB]
  have hA := (((Dev.Acts.refl endFields B).wr (f := Reg.PWR_KSTAT_DONE) 1 (by decide) rfl).wr (f := Reg.PWR_KTIME_MS) (ms % 2 ^ 16) (by decide) rfl).flag
    (f := Reg.PWR_STATUS_KEV) (by decide) rfl
  have v1 : (((B.wr Reg.PWR_KSTAT_DONE 1).wr Reg.PWR_KTIME_MS (ms % 2 ^ 16)).flag Reg.PWR_STATUS_KEV).rd Reg.PWR_KSTAT_DONE = 1 := by
    rw [Dev.rd_flag_sep _ _ _ rfl, Dev.rd_wr_sep _ _ _ _ rfl, Dev.rd_wr_lt _ Reg.PWR_KSTAT_DONE 1 rfl (show 1 < 2 ^ 1 by decide)]
  have v2 : (((B.wr Reg.PWR_KSTAT_DONE 1).wr Reg.PWR_KTIME_MS (ms % 2 ^ 16)).flag Reg.PWR_STATUS_KEV).rd Reg.PWR_KTIME_MS = ms % 2 ^ 16 := by
    rw [Dev.rd_flag_sep _ _ _ rfl]
    exact Dev.rd_wr_lt _ Reg.PWR_KTIME_MS _ rfl (Nat.mod_lt _ (by decide))
  have v3 : (((B.wr Reg.PWR_KSTAT_DONE 1).wr Reg.PWR_KTIME_MS (ms % 2 ^ 16)).flag Reg.PWR_STATUS_KEV).rd Reg.PWR_STATUS_KEV = 1 := Dev.rd_flag _ _ rfl
  generalize ((B.wr Reg.PWR_KSTAT_DONE 1).wr Reg.PWR_KTIME_MS (ms % 2 ^ 16)).flag Reg.PWR_STATUS_KEV = F at hA v1 v2 v3
  refine ⟨(Dev.SameBut.of_live h1).trans (hA.same.trans (.of_live rfl)), ?_, ?_, ?_, ?_, ?_, ?_⟩
  · rw [Dev.post_rd, v1]
  · rw [Dev.post_rd, v2]
  · rw [Dev.post_rd, v3]
  · change F.alm.kindled = true
    rw [hA.only]
    exact h2
  · change F.boot.waiting = _
    rw [hA.only, ← h3]
  · change F.boot.noFlash = _
    rw [hA.only, ← h3]

theorem Dev.kEnd_eq (d : Dev) (ms : Nat) : d.kEnd ms = (if (d.kDone ms).boot.fault then
    ({ d.kDone ms with boot := { (d.kDone ms).boot with fault := false } } : Dev).capture 4 else d.kDone ms).refreshFaults := rfl

theorem Dev.kEnd_told (d : Dev) (ms : Nat) : ∃ K, d.kEnd ms = K.refreshFaults ∧ Dev.KEnds ms d K := by
  rw [Dev.kEnd_eq]
  refine ⟨_, rfl, ?_⟩
  obtain ⟨same, done, ktime, kev, kindled, waiting, noFlash⟩ := d.kDone_ends ms
  generalize d.kDone ms = F at same done ktime kev kindled waiting noFlash
  split
  · obtain ⟨hs, ho⟩ := Dev.capture_frame { F with boot := { F.boot with fault := false } } 4
    generalize Dev.capture { F with boot := { F.boot with fault := false } } 4 = C at hs ho
    have hs' : Dev.SameBut dumpFields F C := (Dev.SameBut.of_live rfl).trans hs
    refine ⟨same.trans (hs'.mono fun f hf => List.mem_append_right _ hf), (hs'.rd rfl).trans done, (hs'.rd rfl).trans ktime, (hs'.rd rfl).trans kev, ?_, ?_, ?_⟩
    · rw [ho]
      exact kindled
    · rw [ho]
      exact waiting
    · rw [ho]
      exact noFlash
  · exact ⟨same, done, ktime, kev, kindled, waiting, noFlash⟩

/-- A state whose device is the end of kindling at `d`. -/
theorem kindlingEnded_of {t : State} {d : Dev} {ms step : Nat} (ht : t.dev = (d.kEnd ms).settle) (hstep : d.rd Reg.PWR_KSTAT_STEP = step) :
    KindlingEnded t ms step ∧ t.dev.rd Reg.PWR_KSTAT_REASON = d.rd Reg.PWR_KSTAT_REASON ∧ t.dev.rd Reg.ALM_SPSTAT_STATE = d.rd Reg.ALM_SPSTAT_STATE ∧
      t.dev.boot.waiting = d.boot.waiting ∧ t.dev.boot.noFlash = d.boot.noFlash := by
  obtain ⟨K, hK, same, done, ktime, kev, kindled, waiting, noFlash⟩ := d.kEnd_told ms
  obtain ⟨hA, -⟩ := K.refreshFaults_told
  rw [hK] at ht
  generalize K.refreshFaults = R at hA ht
  have hrd : ∀ g, Fld.clear almFields g = true → t.dev.rd g = K.rd g := fun g hg => by
    rw [ht, Dev.settle_rd]
    exact hA.rd hg
  have hboot : t.dev.boot = K.boot := by
    rw [ht, Dev.settle_boot, hA.only]
  refine ⟨⟨(hrd _ rfl).trans ((same.rd rfl).trans hstep), (hrd _ rfl).trans done, (hrd _ rfl).trans ktime, (hrd _ rfl).trans kev, ?_⟩,
    (hrd _ rfl).trans (same.rd rfl), (hrd _ rfl).trans (same.rd rfl), by rw [hboot, waiting], by rw [hboot, noFlash]⟩
  rw [ht, Dev.settle_alm, hA.only]
  exact kindled

/-- The fields of the faults. -/
def shownFaults : List Fld := [Reg.ALM_FAULT_FAULT, Reg.ALM_FAULTLAT_FAULT]

theorem kEnd_shows {s t : State} {d : Dev} {ms : Nat} (ht : t.dev = (d.kEnd ms).settle) (h : ∀ f ∈ shownFaults, d.rd f = s.dev.rd f) : FaultsShown s t := by
  obtain ⟨K, hK, hE⟩ := d.kEnd_told ms
  rw [hK] at ht
  exact (faultsShown_of ht ((hE.same.rd rfl).trans (h _ (by simp [shownFaults]))) ((hE.same.rd rfl).trans (h _ (by simp [shownFaults])))).1

/-! ### A firmware image is started (R478, R480) -/

theorem authentic_iff (s : State) (b : SigBlock) : s.nv.authentic b true = true ↔ FirmwareAuthentic s b := by
  simp only [NV.authentic, NV.keyOk, FirmwareAuthentic, if_true, Bool.and_eq_true, decide_eq_true_eq, beq_iff_eq, and_assoc]

/-- Step 11 and the standing program that runs. -/
def Dev.kLast (d : Dev) : Dev :=
  let d := d.kStep 11
  if d.rd Reg.ALM_SPSTAT_STATE = 0 then d.wr Reg.ALM_SPSTAT_STATE 1 else d

theorem kindleRest_ends (x : NV × Dev) (f : BootFind) (img : Nat) : ∃ (v : NV) (d : Dev), kindleRest x f img = (v, d.kLast.kEnd f.ms) := by
  generalize hy : kindleRest x f img = y
  unfold kindleRest at hy
  extract_lets at hy
  exact ⟨_, _, hy.symm⟩

theorem Dev.kLast_told (d : Dev) : d.kLast.rd Reg.PWR_KSTAT_STEP = 11 ∧ d.kLast.rd Reg.ALM_SPSTAT_STATE ≠ 0 := by
  have h11 : (d.kStep 11).rd Reg.PWR_KSTAT_STEP = 11 := Dev.rd_wr_lt d Reg.PWR_KSTAT_STEP 11 rfl (by decide)
  unfold Dev.kLast
  generalize d.kStep 11 = D at h11
  dsimp only
  split
  · refine ⟨(Dev.rd_wr_sep _ _ _ _ rfl).trans h11, ?_⟩
    rw [Dev.rd_wr_lt D Reg.ALM_SPSTAT_STATE 1 rfl (by decide)]
    decide
  · rename_i h
    exact ⟨h11, h⟩

/-- What a device that is about to start a firmware image has kept of `s`: step 3 is complete. -/
structure Dev.AtFirmware (s : State) (first : Nat) (D : Dev) : Prop where
  step : D.rd Reg.PWR_KSTAT_STEP = 3
  done : D.rd Reg.PWR_KSTAT_DONE = s.dev.rd Reg.PWR_KSTAT_DONE
  sp : D.rd Reg.ALM_SPSTAT_STATE = s.dev.rd Reg.ALM_SPSTAT_STATE
  faults : ∀ f ∈ shownFaults, D.rd f = s.dev.rd f
  reason : (if D.rd Reg.PWR_KSTAT_REASON = 0 then 0x11 else D.rd Reg.PWR_KSTAT_REASON) =
    if s.dev.rd Reg.PWR_KSTAT_REASON = 0 then first else s.dev.rd Reg.PWR_KSTAT_REASON

/-- The command `c` of `s` leaves what `y` says. -/
def Yields (c : Instr) (s : State) (y : NV × Dev) : Prop := exec c s = .next { s with nv := y.1, dev := y.2.settle }

/-- Image `i` is started: what happens then (`Claims.FirmwareStarts`). -/
theorem kindleImage_starts {c : Instr} {s : State} {first i : Nat} {D : Dev} {f : BootFind} (hc : Yields c s (kindleImage (s.nv, D) f i)) (h : D.AtFirmware s first) (hi : i < 2)
    (hfb : i ≠ f.prefer.val → D.rd Reg.PWR_KSTAT_FALLBACK = 1) :
    ((if i = 0 then f.liveA else f.liveB) = true → ∃ t, exec c s = .next t ∧ t.pending = s.pending ∧ KindlingEnded t f.ms 11 ∧ t.dev.rd Reg.ALM_SPSTAT_STATE ≠ 0) ∧
    ((if i = 0 then f.liveA else f.liveB) = false → ∃ t, Runs c s t ∧ t.dev.boot.waiting = some f ∧ t.dev.rd Reg.PWR_KSTAT_IMAGE = i ∧
      t.dev.rd Reg.PWR_KSTAT_STEP = 3 ∧ t.dev.rd Reg.PWR_KSTAT_DONE = s.dev.rd Reg.PWR_KSTAT_DONE ∧
      (i ≠ f.prefer.val → t.dev.rd Reg.PWR_KSTAT_FALLBACK = 1) ∧ t.dev.rd Reg.ALM_SPSTAT_STATE = s.dev.rd Reg.ALM_SPSTAT_STATE) := by
  unfold Yields kindleImage at hc
  refine ⟨fun hl => ?_, fun hl => ?_⟩
  · rw [hl, if_pos rfl] at hc
    obtain ⟨v, d, hd⟩ := kindleRest_ends (s.nv, D) f i
    rw [hd] at hc
    dsimp only at hc
    obtain ⟨h1, h2⟩ := d.kLast_told
    generalize d.kLast = L at h1 h2 hc
    obtain ⟨k1, -, k3, -⟩ := kindlingEnded_of (t := { s with nv := v, dev := (L.kEnd f.ms).settle }) rfl h1
    exact ⟨_, hc, rfl, k1, fun h0 => h2 (k3.symm.trans h0)⟩
  · rw [hl, if_neg Bool.false_ne_true] at hc
    have hA := Dev.wr_acts { D with boot := { D.boot with waiting := some f } } Reg.PWR_KSTAT_IMAGE i rfl
    have hv := Dev.rd_wr_lt { D with boot := { D.boot with waiting := some f } } Reg.PWR_KSTAT_IMAGE i rfl hi
    dsimp only at hc
    generalize Dev.wr { D with boot := { D.boot with waiting := some f } } Reg.PWR_KSTAT_IMAGE i = E at hA hv hc
    have hrd : ∀ g, Fld.clear [Reg.PWR_KSTAT_IMAGE] g = true → E.settle.rd g = D.rd g := fun g hg => by
      rw [Dev.settle_rd]
      exact hA.rd hg
    refine ⟨_, ⟨hc, rfl, rfl⟩, ?_, (Dev.settle_rd ..).trans hv, (hrd _ rfl).trans h.step, (hrd _ rfl).trans h.done, fun hn => (hrd _ rfl).trans (hfb hn),
      (hrd _ rfl).trans h.sp⟩
    change E.settle.boot.waiting = _
    rw [Dev.settle_boot, hA.only]

/-- No image is left to start. -/
theorem kindleOther_stops {c : Instr} {s : State} {first : Nat} {D : Dev} {f : BootFind}
    (hc : Yields c s (s.nv, (Dev.kFail { D with boot := { D.boot with waiting := none } } 0x11).kEnd f.ms)) (h : D.AtFirmware s first) :
    ∃ t, Runs c s t ∧ KindlingEnded t f.ms 3 ∧ FaultsShown s t ∧
      t.dev.rd Reg.PWR_KSTAT_REASON = (if s.dev.rd Reg.PWR_KSTAT_REASON = 0 then first else s.dev.rd Reg.PWR_KSTAT_REASON) ∧
      t.dev.rd Reg.ALM_SPSTAT_STATE = s.dev.rd Reg.ALM_SPSTAT_STATE ∧ t.dev.boot.waiting = none := by
  obtain ⟨hs, hreason, hboot⟩ := Dev.kFail_told { D with boot := { D.boot with waiting := none } } (show 0x11 < 2 ^ 8 by decide)
  unfold Yields at hc
  dsimp only at hc
  have hr : ∀ g, Dev.rd { D with boot := { D.boot with waiting := none } } g = D.rd g := fun _ => rfl
  generalize Dev.kFail { D with boot := { D.boot with waiting := none } } 0x11 = F at hs hreason hboot hc
  have hrd : ∀ g, Fld.clear [Reg.PWR_KSTAT_REASON] g = true → F.rd g = D.rd g := fun g hg => hs.rd hg
  obtain ⟨k1, k2, k3, k4, -⟩ := kindlingEnded_of (t := { s with dev := (F.kEnd f.ms).settle }) rfl ((hrd _ rfl).trans h.step)
  refine ⟨_, ⟨hc, rfl, rfl⟩, k1, kEnd_shows rfl fun g hg => ?_, ?_, k3.trans ((hrd _ rfl).trans h.sp), ?_⟩
  · refine (hrd _ ?_).trans (h.faults g hg)
    exact (show ∀ g ∈ shownFaults, Fld.clear [Reg.PWR_KSTAT_REASON] g = true by decide) g hg
  · rw [k2, hreason, hr]
    exact h.reason
  · rw [k4, hboot]

theorem AtFirmware_fallback {s : State} {first : Nat} {D : Dev} (h : D.AtFirmware s first) : (D.wr Reg.PWR_KSTAT_FALLBACK 1).AtFirmware s first := by
  have hrd : ∀ g, Fld.sep Reg.PWR_KSTAT_FALLBACK g = true → (D.wr Reg.PWR_KSTAT_FALLBACK 1).rd g = D.rd g := fun g hg => Dev.rd_wr_sep _ _ _ _ hg
  refine ⟨(hrd _ rfl).trans h.step, (hrd _ rfl).trans h.done, (hrd _ rfl).trans h.sp, fun g hg => (hrd _ ?_).trans (h.faults g hg), ?_⟩
  · exact (show ∀ g ∈ shownFaults, Fld.sep Reg.PWR_KSTAT_FALLBACK g = true by decide) g hg
  · rw [hrd _ rfl]
    exact h.reason

theorem fin2_other (p : Fin 2) : 1 - p.val < 2 ∧ 1 - p.val ≠ p.val := by omega

/-- The image other than PREFER is started, or kindling stops. -/
theorem kindleOther_starts {c : Instr} {s : State} {first : Nat} {D : Dev} {f : BootFind} (hc : Yields c s (kindleOther (s.nv, D) f)) (h : D.AtFirmware s first) :
    let fw := fun (i : Nat) => if i = 0 then f.fwA else f.fwB
    let live := fun (i : Nat) => if i = 0 then f.liveA else f.liveB
    let p := f.prefer.val
    let starts := fun (i : Nat) => (live i = true → ∃ t, exec c s = .next t ∧ t.pending = s.pending ∧ KindlingEnded t f.ms 11 ∧
        t.dev.rd Reg.ALM_SPSTAT_STATE ≠ 0) ∧
      (live i = false → ∃ t, Runs c s t ∧ t.dev.boot.waiting = some f ∧ t.dev.rd Reg.PWR_KSTAT_IMAGE = i ∧
        t.dev.rd Reg.PWR_KSTAT_STEP = 3 ∧ t.dev.rd Reg.PWR_KSTAT_DONE = s.dev.rd Reg.PWR_KSTAT_DONE ∧
        (i ≠ p → t.dev.rd Reg.PWR_KSTAT_FALLBACK = 1) ∧ t.dev.rd Reg.ALM_SPSTAT_STATE = s.dev.rd Reg.ALM_SPSTAT_STATE)
    (FirmwareAuthentic s (fw (1 - p)) → starts (1 - p)) ∧
    (¬ FirmwareAuthentic s (fw (1 - p)) → ∃ t, Runs c s t ∧ KindlingEnded t f.ms 3 ∧ FaultsShown s t ∧
      t.dev.rd Reg.PWR_KSTAT_REASON = (if s.dev.rd Reg.PWR_KSTAT_REASON = 0 then first else s.dev.rd Reg.PWR_KSTAT_REASON) ∧
      t.dev.rd Reg.ALM_SPSTAT_STATE = s.dev.rd Reg.ALM_SPSTAT_STATE) := by
  intro fw live p starts
  obtain ⟨hlt, hne⟩ := fin2_other f.prefer
  have hother : kindleOther (s.nv, D) f = if s.nv.authentic (fw (1 - p)) true = true then kindleImage (s.nv, D.wr Reg.PWR_KSTAT_FALLBACK 1) f (1 - p)
      else (s.nv, (Dev.kFail { D with boot := { D.boot with waiting := none } } 0x11).kEnd f.ms) := rfl
  refine ⟨fun ha => ?_, fun ha => ?_⟩
  · rw [hother, if_pos ((authentic_iff s _).mpr ha)] at hc
    exact kindleImage_starts hc (AtFirmware_fallback h) hlt fun _ => Dev.rd_wr_lt D Reg.PWR_KSTAT_FALLBACK 1 rfl (by decide)
  · rw [hother, if_neg fun hn => ha ((authentic_iff s _).mp hn)] at hc
    obtain ⟨t, h1, h2, h3, h4, h5, -⟩ := kindleOther_stops hc h
    exact ⟨t, h1, h2, h3, h4, h5⟩

/-! ### Steps 1 to 4 (R475, R476, R479, R482) -/

/-- The fields that the steps before the firmware write. -/
def earlyFields : List Fld :=
  [Reg.HOT_STATUS_PRSNT, Reg.HOT_STATUS_STATE, Reg.HOT_STATUS_HOTEV, Reg.PWR_KSTAT_STEP, Reg.PWR_KSTAT_DEVKEY, Reg.PWR_KSTAT_TBLBAK, Reg.DUMP_NREC_CAP,
    Reg.DUMP_LAST_SEQ, Reg.DUMP_NREC_COUNT]

/-- Kindling stops with reason `code` after step `step`. -/
theorem kindling_stops {c : Instr} {s : State} {D : Dev} {f : BootFind} {step code : Nat} (hc : Yields c s (s.nv, (D.kFail code).kEnd f.ms))
    (hs : Dev.SameBut earlyFields s.dev D) (hstep : D.rd Reg.PWR_KSTAT_STEP = step) (hcode : code < 2 ^ 8) (hn : D.boot.noFlash = decide (code = 0x88)) :
    ∃ t, Runs c s t ∧ KindlingEnded t f.ms step ∧ FaultsShown s t ∧
      t.dev.rd Reg.PWR_KSTAT_REASON = (if s.dev.rd Reg.PWR_KSTAT_REASON = 0 then code else s.dev.rd Reg.PWR_KSTAT_REASON) ∧
      t.dev.rd Reg.ALM_SPSTAT_STATE = s.dev.rd Reg.ALM_SPSTAT_STATE ∧ t.dev.boot.noFlash = decide (code = 0x88) := by
  obtain ⟨hF, hreason, hboot⟩ := D.kFail_told hcode
  unfold Yields at hc
  dsimp only at hc
  generalize D.kFail code = F at hF hreason hboot hc
  have hrd : ∀ g, Fld.clear (Reg.PWR_KSTAT_REASON :: earlyFields) g = true → F.rd g = s.dev.rd g := fun g hg =>
    ((hs.mono fun f hf => List.mem_cons_of_mem _ hf).trans (hF.mono (by simp))).rd hg
  have hre : D.rd Reg.PWR_KSTAT_REASON = s.dev.rd Reg.PWR_KSTAT_REASON := hs.rd rfl
  obtain ⟨k1, k2, k3, -, k5⟩ := kindlingEnded_of (t := { s with dev := (F.kEnd f.ms).settle }) rfl ((hF.rd rfl).trans hstep)
  refine ⟨_, ⟨hc, rfl, rfl⟩, k1, kEnd_shows rfl fun g hg => ?_, ?_, k3.trans (hrd _ rfl), ?_⟩
  · refine hrd _ ?_
    exact (show ∀ g ∈ shownFaults, Fld.clear (Reg.PWR_KSTAT_REASON :: earlyFields) g = true by decide) g hg
  · rw [k2, hreason, hre]
  · rw [k5, hboot]
    exact hn

theorem Dev.kStep_told (d : Dev) {n : Nat} (hn : n < 2 ^ 4) : Dev.SameBut earlyFields d (d.kStep n) ∧ (d.kStep n).rd Reg.PWR_KSTAT_STEP = n ∧ (d.kStep n).boot = d.boot :=
  ⟨((Dev.SameBut.refl _ d).wr Reg.PWR_KSTAT_STEP n (by decide) rfl).trans (.of_live rfl), Dev.rd_wr_lt d Reg.PWR_KSTAT_STEP n rfl hn, rfl⟩

/-- The flash has been found, its table is good, and its records are shown: steps 2 and 3 are complete. -/
def Dev.tableRead (d : Dev) (v : NV) (f : BootFind) : Dev :=
  let d := { d with boot := { d.boot with noFlash := false, flashBytes := f.flashBytes } }.kStep 2
  let d := { d with boot := { d.boot with dumpBase := f.dumpBase, dumpSectors := f.dumpSectors, msgBase := f.msgBase, msgLen := f.msgLen } }
  (((d.wr Reg.PWR_KSTAT_TBLBAK (bit f.backup)).wr Reg.DUMP_NREC_CAP (f.dumpSectors - 1)).showDumps v.dump).kStep 3

theorem kindleFlash_noFlash (x : NV × Dev) {f : BootFind} (h : f.flash = false) :
    kindleFlash x f = (x.1, (Dev.kFail { x.2 with boot := { x.2.boot with noFlash := true } } 0x88).kEnd f.ms) := by
  unfold kindleFlash
  rw [h]
  rfl

theorem kindleFlash_noTable (x : NV × Dev) {f : BootFind} (h : f.flash = true) (ht : f.table = false) :
    kindleFlash x f = (x.1, ((Dev.kStep { x.2 with boot := { x.2.boot with noFlash := false, flashBytes := f.flashBytes } } 2).kFail 0x10).kEnd f.ms) := by
  unfold kindleFlash
  rw [h, ht]
  rfl

theorem kindleFlash_table (x : NV × Dev) {f : BootFind} (h : f.flash = true) (ht : f.table = true) :
    kindleFlash x f = if x.1.authentic (if f.prefer = 0 then f.fwA else f.fwB) true = true then kindleImage (x.1, x.2.tableRead x.1 f) f f.prefer.val
      else kindleOther (x.1, x.2.tableRead x.1 f) f := by
  unfold kindleFlash
  rw [h, ht]
  rfl

theorem Dev.tableRead_told (d : Dev) (v : NV) (f : BootFind) : Dev.SameBut earlyFields d (d.tableRead v f) ∧ (d.tableRead v f).rd Reg.PWR_KSTAT_STEP = 3 := by
  unfold Dev.tableRead
  dsimp only
  obtain ⟨h2, -, -⟩ := Dev.kStep_told { d with boot := { d.boot with noFlash := false, flashBytes := f.flashBytes } } (show 2 < 2 ^ 4 by decide)
  generalize Dev.kStep { d with boot := { d.boot with noFlash := false, flashBytes := f.flashBytes } } 2 = E at h2
  have hE : Dev.SameBut earlyFields d { E with boot := { E.boot with dumpBase := f.dumpBase, dumpSectors := f.dumpSectors, msgBase := f.msgBase, msgLen := f.msgLen } } :=
    ((Dev.SameBut.of_live rfl).trans h2).trans (.of_live rfl)
  generalize ({ E with boot := { E.boot with dumpBase := f.dumpBase, dumpSectors := f.dumpSectors, msgBase := f.msgBase, msgLen := f.msgLen } } : Dev) = G at hE
  obtain ⟨n, hshow, -⟩ := Dev.showDumps_eq ((G.wr Reg.PWR_KSTAT_TBLBAK (bit f.backup)).wr Reg.DUMP_NREC_CAP (f.dumpSectors - 1)) v.dump
  rw [hshow]
  have hG := (((hE.wr Reg.PWR_KSTAT_TBLBAK (bit f.backup) (by decide) rfl).wr Reg.DUMP_NREC_CAP (f.dumpSectors - 1) (by decide) rfl).wr
    Reg.DUMP_LAST_SEQ n (by decide) rfl).wr Reg.DUMP_NREC_COUNT v.dump.length (by decide) rfl
  generalize (((G.wr Reg.PWR_KSTAT_TBLBAK (bit f.backup)).wr Reg.DUMP_NREC_CAP (f.dumpSectors - 1)).wr Reg.DUMP_LAST_SEQ n).wr
    Reg.DUMP_NREC_COUNT v.dump.length = H at hG
  obtain ⟨h3, v3, -⟩ := H.kStep_told (show 3 < 2 ^ 4 by decide)
  exact ⟨hG.trans h3, v3⟩

theorem flashIsRead_of {c : Instr} {s : State} {D : Dev} {f : BootFind} (hc : Yields c s (kindleFlash (s.nv, D) f)) (hs : Dev.SameBut earlyFields s.dev D)
    (h1 : f.flash = true ∨ D.rd Reg.PWR_KSTAT_STEP = 1) : FlashIsRead c s f := by
  refine ⟨fun hf => ?_, fun hf ht => ?_, fun hf ht => ?_⟩
  · have hstep := h1.resolve_left (by rw [hf]; exact Bool.false_ne_true)
    rw [kindleFlash_noFlash _ hf] at hc
    exact kindling_stops (D := { D with boot := { D.boot with noFlash := true } }) hc (hs.trans (.of_live rfl)) hstep (by decide) rfl
  · rw [kindleFlash_noTable _ hf ht] at hc
    obtain ⟨k1, k2, k3⟩ := Dev.kStep_told { D with boot := { D.boot with noFlash := false, flashBytes := f.flashBytes } } (show 2 < 2 ^ 4 by decide)
    exact kindling_stops hc ((hs.trans (.of_live rfl)).trans k1) k2 (by decide) (by rw [k3]; rfl)
  · rw [kindleFlash_table _ hf ht] at hc
    obtain ⟨hT, hstep⟩ := D.tableRead_told s.nv f
    dsimp only at hc
    have hrd : ∀ g, Fld.clear earlyFields g = true → (D.tableRead s.nv f).rd g = s.dev.rd g := fun g hg => (hs.trans hT).rd hg
    generalize D.tableRead s.nv f = T at hc hstep hrd
    have hAt : T.AtFirmware s 0x11 := ⟨hstep, hrd _ rfl, hrd _ rfl, fun g hg => hrd _ ((show ∀ g ∈ shownFaults, Fld.clear earlyFields g = true by decide) g hg),
      by rw [hrd _ rfl]⟩
    have hfw : (if f.prefer = 0 then f.fwA else f.fwB) = if f.prefer.val = 0 then f.fwA else f.fwB := if_congr Fin.ext_iff rfl rfl
    rw [hfw] at hc
    refine ⟨fun _ ha => ?_, fun ha => ?_, fun ha => ?_⟩
    · rw [if_pos ((authentic_iff s _).mpr ha)] at hc
      exact kindleImage_starts hc hAt f.prefer.isLt fun hne => absurd rfl hne
    · rw [if_neg fun hn => ha.elim (by simp) fun ha => ha ((authentic_iff s _).mp hn)] at hc
      exact (kindleOther_starts hc hAt).1
    · rw [if_neg fun hn => ha.elim (by simp) fun ha => ha ((authentic_iff s _).mp hn)] at hc
      exact (kindleOther_starts hc hAt).2

/-- The pins and step 1. -/
def Dev.firstStep (d : Dev) (v : NV) (f : BootFind) : Dev :=
  let d := { d with boot := { d.boot with ran := true } }
  ((if f.seated then d.wr Reg.HOT_STATUS_PRSNT 1 else d.hotState 3 false).kStep 1).wr Reg.PWR_KSTAT_DEVKEY (bit (v.key1.hash.isNone && v.key2.hash.isNone))

theorem kindle_first {x : NV × Dev} {f : BootFind} (h : x.2.boot.ran = false) : kindle x f = kindleFlash (x.1, x.2.firstStep x.1 f) f := by
  unfold kindle
  rw [h]
  rfl

theorem Dev.firstStep_told (d : Dev) (v : NV) (f : BootFind) : Dev.SameBut earlyFields d (d.firstStep v f) ∧ (d.firstStep v f).rd Reg.PWR_KSTAT_STEP = 1 := by
  unfold Dev.firstStep
  dsimp only
  have h0 : Dev.SameBut earlyFields d { d with boot := { d.boot with ran := true } } := .of_live rfl
  generalize ({ d with boot := { d.boot with ran := true } } : Dev) = E at h0
  have h1 : Dev.SameBut earlyFields d (if f.seated then E.wr Reg.HOT_STATUS_PRSNT 1 else E.hotState 3 false) := by
    split
    · exact h0.wr Reg.HOT_STATUS_PRSNT 1 (by decide) rfl
    · exact ((h0.wr Reg.HOT_STATUS_STATE 3 (by decide) rfl).flag Reg.HOT_STATUS_HOTEV (by decide) rfl).trans (.of_live rfl)
  generalize (if f.seated then E.wr Reg.HOT_STATUS_PRSNT 1 else E.hotState 3 false) = G at h1
  obtain ⟨h2, v2, -⟩ := G.kStep_told (show 1 < 2 ^ 4 by decide)
  exact ⟨(h1.trans h2).wr Reg.PWR_KSTAT_DEVKEY _ (by decide) rfl, (Dev.rd_wr_sep _ _ _ _ rfl).trans v2⟩

theorem kindling_kindles (s : State) (f : BootFind) :
    (s.dev.boot.ran = true → ∃ t, Runs (.kindling f) s t ∧ Keeps [] s t s.dev) ∧
    (s.dev.boot.ran = false → FlashIsRead (.kindling f) s f) ∧
    (s.dev.boot.noFlash = false ∨ f.flash = false → ∃ t, Runs (.flashRetry f) s t ∧ Keeps [] s t s.dev) ∧
    (s.dev.boot.noFlash = true → f.flash = true → FlashIsRead (.flashRetry f) s f) := by
  have hrun := exec_onBoth (show exec (.kindling f) s = onBoth (fun x => kindle x f) s from rfl)
  have hretry := exec_onBoth (show exec (.flashRetry f) s = onBoth (fun x => if x.2.boot.noFlash && f.flash then kindleFlash x f else x) s from rfl)
  refine ⟨fun hr => ?_, fun hr => ?_, fun hn => ?_, fun hn hf => ?_⟩
  · have hk : kindle (s.nv, s.dev) f = (s.nv, s.dev) := if_pos hr
    rw [hk] at hrun
    exact ⟨_, ⟨hrun, rfl, rfl⟩, fun _ _ => rfl, rfl⟩
  · rw [kindle_first hr] at hrun
    obtain ⟨h1, h2⟩ := s.dev.firstStep_told s.nv f
    exact flashIsRead_of hrun h1 (.inr h2)
  · have hb : (s.dev.boot.noFlash && f.flash) = false := by
      obtain h | h := hn
      · rw [h, Bool.false_and]
      · rw [h, Bool.and_false]
    dsimp only at hretry
    rw [hb, if_neg Bool.false_ne_true] at hretry
    exact ⟨_, ⟨hretry, rfl, rfl⟩, fun _ _ => rfl, rfl⟩
  · dsimp only at hretry
    rw [hn, hf, if_pos (show (true && true) = true from rfl)] at hretry
    exact flashIsRead_of hretry (.refl _ _) (.inl hf)

/-! ### LIVENESS (R480) -/

theorem liveness_gives_way (s : State) : (s.dev.boot.waiting = none → ∃ t, Runs .liveness s t ∧ Keeps [] s t s.dev) ∧
    ∀ f, s.dev.boot.waiting = some f → s.dev.rd Reg.PWR_KSTAT_STEP = 3 →
      (s.dev.rd Reg.PWR_KSTAT_FALLBACK = 0 → FirmwareStarts .liveness s f false 0x15) ∧
      (s.dev.rd Reg.PWR_KSTAT_FALLBACK = 1 → ∃ t, Runs .liveness s t ∧ KindlingEnded t f.ms 3 ∧ FaultsShown s t ∧ t.dev.boot.waiting = none ∧
        t.dev.rd Reg.PWR_KSTAT_REASON = (if s.dev.rd Reg.PWR_KSTAT_REASON = 0 then 0x15 else s.dev.rd Reg.PWR_KSTAT_REASON)) := by
  have hrun := exec_onBoth (show exec .liveness s = onBoth livenessFails s from rfl)
  refine ⟨fun hw => ?_, fun f hw hstep => ?_⟩
  · have hl : livenessFails (s.nv, s.dev) = (s.nv, s.dev) := by
      unfold livenessFails
      rw [hw]
    rw [hl] at hrun
    exact ⟨_, ⟨hrun, rfl, rfl⟩, fun _ _ => rfl, rfl⟩
  · have hl : livenessFails (s.nv, s.dev) = if (s.dev.kFail 0x15).on Reg.PWR_KSTAT_FALLBACK = true then
        (s.nv, (Dev.kFail { s.dev.kFail 0x15 with boot := { (s.dev.kFail 0x15).boot with waiting := none } } 0x11).kEnd f.ms)
        else kindleOther (s.nv, s.dev.kFail 0x15) f := by
      unfold livenessFails
      rw [hw]
    rw [hl] at hrun
    obtain ⟨hF, hreason, -⟩ := s.dev.kFail_told (show 0x15 < 2 ^ 8 by decide)
    generalize s.dev.kFail 0x15 = F at hrun hF hreason
    have hrd : ∀ g, Fld.clear [Reg.PWR_KSTAT_REASON] g = true → F.rd g = s.dev.rd g := fun g hg => hF.rd hg
    have hAt : F.AtFirmware s 0x15 := by
      refine ⟨(hrd _ rfl).trans hstep, hrd _ rfl, hrd _ rfl, fun g hg => hrd _ ((show ∀ g ∈ shownFaults, Fld.clear [Reg.PWR_KSTAT_REASON] g = true by decide) g hg), ?_⟩
      rw [hreason, if_neg]
      split
      · decide
      · assumption
    refine ⟨fun hfb => ?_, fun hfb => ?_⟩
    · rw [if_neg (by rw [Dev.on_true_iff, hrd _ rfl, hfb]; decide)] at hrun
      obtain ⟨h1, h2⟩ := kindleOther_starts hrun hAt
      exact ⟨fun h => absurd h Bool.false_ne_true, fun _ => h1, fun _ => h2⟩
    · rw [if_pos (by rw [Dev.on_true_iff, hrd _ rfl, hfb])] at hrun
      obtain ⟨t, k1, k2, k3, k4, -, k6⟩ := kindleOther_stops hrun hAt
      exact ⟨t, k1, k2, k3, k6, k4⟩

/-! ### PORST_N (R474) -/

theorem Dev.released_eq (v : NV) (sel : Bool) : Dev.released v sel =
    ((((({} : Dev).wr Reg.HIF_OWN_OWNER (bit sel)).wr Reg.HIF_STATUS_OWNER (bit sel)).wr Reg.HIF_STATUS_HOST_SEL (bit sel)).wr Reg.PWR_SECMIN_VER v.version) := rfl

theorem porst_resets (s : State) (sel : Bool) : let v := if sel then 1 else 0
    ∃ t, Runs (.porst sel) s t ∧ t.dev = Around {} t.dev ∧ t.dev.evq = {} ∧ t.dev.pwr = {} ∧
      (∀ a, a ∉ [Reg.HIF_OWN_OWNER.addr, Reg.HIF_STATUS_OWNER.addr, Reg.PWR_SECMIN_VER.addr] → t.dev.word a = resetWord a) ∧
      (∀ a, t.dev.shadowWord a = resetWord a &&& rwsMask a) ∧ t.dev.rd Reg.HIF_OWN_OWNER = v ∧ t.dev.rd Reg.HIF_STATUS_OWNER = v ∧
      t.dev.rd Reg.HIF_STATUS_HOST_SEL = v ∧ t.dev.rd Reg.PWR_SECMIN_VER = s.nv.version % 2 ^ 6 := by
  intro v
  have hrun := exec_onBoth (show exec (.porst sel) s = onBoth (fun x => (x.1, Dev.released x.1 sel)) s from rfl)
  have hbit : bit sel = v := by cases sel <;> rfl
  have hlt : v < 2 ^ 1 := by
    rw [← hbit]
    cases sel <;> decide
  dsimp only at hrun
  rw [Dev.released_eq, hbit] at hrun
  have h0 : ∀ a, ({} : Dev).word a = resetWord a := fun _ => rfl
  have hA := (((Dev.Acts.refl [Reg.HIF_OWN_OWNER, Reg.HIF_STATUS_OWNER, Reg.HIF_STATUS_HOST_SEL, Reg.PWR_SECMIN_VER] ({} : Dev)).wr (f := Reg.HIF_OWN_OWNER) v (by simp) rfl).wr
    (f := Reg.HIF_STATUS_OWNER) v (by simp) rfl).wr (f := Reg.HIF_STATUS_HOST_SEL) v (by simp) rfl
  have hA := hA.wr (f := Reg.PWR_SECMIN_VER) s.nv.version (by simp) rfl
  have v1 : (((((({} : Dev).wr Reg.HIF_OWN_OWNER v).wr Reg.HIF_STATUS_OWNER v).wr Reg.HIF_STATUS_HOST_SEL v).wr Reg.PWR_SECMIN_VER s.nv.version)).rd Reg.HIF_OWN_OWNER = v := by
    rw [Dev.rd_wr_sep _ _ _ _ rfl, Dev.rd_wr_sep _ _ _ _ rfl, Dev.rd_wr_sep _ _ _ _ rfl, Dev.rd_wr_lt _ Reg.HIF_OWN_OWNER v rfl hlt]
  have v2 : (((((({} : Dev).wr Reg.HIF_OWN_OWNER v).wr Reg.HIF_STATUS_OWNER v).wr Reg.HIF_STATUS_HOST_SEL v).wr Reg.PWR_SECMIN_VER s.nv.version)).rd Reg.HIF_STATUS_OWNER = v := by
    rw [Dev.rd_wr_sep _ _ _ _ rfl, Dev.rd_wr_sep _ _ _ _ rfl, Dev.rd_wr_lt _ Reg.HIF_STATUS_OWNER v rfl hlt]
  have v3 : (((((({} : Dev).wr Reg.HIF_OWN_OWNER v).wr Reg.HIF_STATUS_OWNER v).wr Reg.HIF_STATUS_HOST_SEL v).wr Reg.PWR_SECMIN_VER s.nv.version)).rd Reg.HIF_STATUS_HOST_SEL = v := by
    rw [Dev.rd_wr_sep _ _ _ _ rfl, Dev.rd_wr_lt _ Reg.HIF_STATUS_HOST_SEL v rfl hlt]
  have v4 : (((((({} : Dev).wr Reg.HIF_OWN_OWNER v).wr Reg.HIF_STATUS_OWNER v).wr Reg.HIF_STATUS_HOST_SEL v).wr Reg.PWR_SECMIN_VER s.nv.version)).rd Reg.PWR_SECMIN_VER
      = s.nv.version % 2 ^ 6 := Dev.rd_wr _ _ _ rfl
  generalize ((((({} : Dev).wr Reg.HIF_OWN_OWNER v).wr Reg.HIF_STATUS_OWNER v).wr Reg.HIF_STATUS_HOST_SEL v).wr Reg.PWR_SECMIN_VER s.nv.version) = D
    at hrun hA v1 v2 v3 v4
  have hD : D = { ({} : Dev) with live := D.live } := hA.onlyLive
  refine ⟨_, ⟨hrun, rfl, rfl⟩, hA.around, ?_, ?_, fun a ha => ?_, fun a => ?_, (Dev.settle_rd ..).trans v1, (Dev.settle_rd ..).trans v2, (Dev.settle_rd ..).trans v3,
    (Dev.settle_rd ..).trans v4⟩
  · change D.settle.evq = _
    rw [hD]
    rfl
  · change D.settle.pwr = _
    rw [hD]
    rfl
  · refine (Dev.settle_word ..).trans ((hA.word fun f hf he => ha ?_).trans (h0 a))
    rw [← he]
    exact (show ∀ f ∈ [Reg.HIF_OWN_OWNER, Reg.HIF_STATUS_OWNER, Reg.HIF_STATUS_HOST_SEL, Reg.PWR_SECMIN_VER],
      f.addr ∈ [Reg.HIF_OWN_OWNER.addr, Reg.HIF_STATUS_OWNER.addr, Reg.PWR_SECMIN_VER.addr] by decide) f hf
  · change D.settle.shadowWord a = _
    rw [hD]
    rfl

theorem kindlingFollowsItsSteps : KindlingFollowsItsSteps := ⟨porst_resets, kindling_kindles, liveness_gives_way⟩

/-- Settles O58: kindling stops or goes on as its findings say, the commands of the slow domain wait and land, and a dump is captured, saved, fetched
and read. -/
theorem kindlingFusesAndAshDumps : Obligations.KindlingFusesAndAshDumps :=
  ⟨kindlingFollowsItsSteps, slowCommandsWaitInTheQueue, fusesAndRecordsAreWritten, ashDumpsAreCapturedSavedAndRead⟩

end Sys2Proof.Machine
end

section
-- What runs beside a check is held in memory with it: the declarations of this section are elaborated in turn.
set_option Elab.async false
/-! Hot insertion and removal (R484, R485). -/
namespace Sys2Proof.Machine
open Sys2Proof.Claims

/-! ### Leaving a state -/

theorem Dev.powerLeave_exits {s t : State} {D : Dev} {c : Nat} (hex : D.pwr.exiting = s.dev.pwr.exiting)
    (hst : D.rd Reg.PWR_STATUS_STATE = s.dev.rd Reg.PWR_STATUS_STATE) (ht : t.dev = (D.powerLeave c).settle) :
    Exits s t false c ∧ t.dev.pwr = { D.pwr with exiting := t.dev.pwr.exiting } := by
  have htt : t.dev.powerTarget = D.powerTarget := by
    rw [ht, D.powerLeave_told c]
    exact Dev.powerTarget_congr (fun f _ => Dev.settle_rd _ f) rfl rfl rfl
  have hn : t.dev.timeNs = D.timeNs := by rw [ht, D.powerLeave_told c]; rfl
  have hp : t.dev.pwr = { D.pwr with exiting := if D.pwr.exiting = none ∧ D.powerTarget < D.rd Reg.PWR_STATUS_STATE then some (c, D.timeNs) else D.pwr.exiting } := by
    rw [ht, D.powerLeave_told c]
    rfl
  refine ⟨?_, by rw [hp]⟩
  unfold Exits
  rw [htt, hn, hp, ← hex, ← hst]
  simp

theorem Dev.wake_exits {s t : State} {D : Dev} {c : Nat} (hex : D.pwr.exiting = s.dev.pwr.exiting)
    (hst : D.rd Reg.PWR_STATUS_STATE = s.dev.rd Reg.PWR_STATUS_STATE) (ht : t.dev = (D.wake c).settle) :
    Exits s t true c ∧ t.dev.pwr = { D.pwr with exiting := t.dev.pwr.exiting } := by
  have hn : t.dev.timeNs = D.timeNs := by rw [ht]; exact (D.wake_keeps c).2.2.2.1
  have hp : t.dev.pwr = { D.pwr with exiting := D.wokenBy c } := by rw [ht, D.wake_wokenBy c]; rfl
  refine ⟨?_, by rw [hp]⟩
  unfold Exits
  rw [show t.dev.powerTarget = D.powerTarget by rw [ht]; exact D.wake_target c, hn, hp, ← hex, ← hst, Dev.wokenBy]
  simp

/-- The device `D` with other power events, after the end of the command. -/
theorem Dev.around_pwr {B D : Dev} {fs : List Fld} {es : List (Nat × Nat × Nat)} (h : Dev.Acts fs es B D) (p : Pwr) :
    ({ D with pwr := p } : Dev).settle = Around B ({ D with pwr := p } : Dev).settle := by
  rw [h.only]
  rfl

/-! ### The states of a card -/

/-- The registers of the hot-plug state. -/
def hotFields : List Fld := [Reg.HOT_STATUS_STATE, Reg.HOT_STATUS_HOTEV]

theorem Dev.hotState_acts (d : Dev) (st : Nat) (forced : Bool) : Dev.Acts hotFields [(3, 1, st + bit forced * 2 ^ 8)] d (d.hotState st forced) :=
  ((((Dev.Acts.refl _ d).wr st (by simp [hotFields]) rfl).flag (by simp [hotFields]) rfl)).post 3 1 _

theorem Dev.hotState_shows (d : Dev) {st : Nat} (hst : st < 4) (forced : Bool) :
    (d.hotState st forced).rd Reg.HOT_STATUS_STATE = st ∧ (d.hotState st forced).rd Reg.HOT_STATUS_HOTEV = 1 := by
  unfold Dev.hotState
  rw [Dev.post_rd, Dev.post_rd, Dev.rd_flag_sep _ _ _ rfl, Dev.rd_wr_lt _ _ _ rfl hst, Dev.rd_flag _ _ rfl]
  exact ⟨rfl, rfl⟩

/-! ### Every port stops -/

/-- The registers that a port's stop writes. -/
def stopFields (n : Nat) : List Fld := [Reg.TDM_PSTAT_STATE n, Reg.TDM_PSTAT_ONSYN n, Reg.TDM_ARMED_PORTS, Reg.TDM_RUN_PORTS]

/-- What the halt of the first `k` ports leaves. -/
structure Dev.Halted (k : Nat) (d D : Dev) : Prop where
  only : D = { d with live := D.live, tdm := D.tdm }
  same : Dev.SameBut ((List.range 16).flatMap stopFields) d D
  done : ∀ n, n < k → D.rd (Reg.TDM_PSTAT_STATE n) = 0 ∧ D.port n = if d.rd (Reg.TDM_PSTAT_STATE n) = 0 then d.port n else {}
  rest : ∀ n, k ≤ n → n < 16 → D.port n = d.port n ∧ D.rd (Reg.TDM_PSTAT_STATE n) = d.rd (Reg.TDM_PSTAT_STATE n)

theorem mem_stopFields {n : Nat} (hn : n < 16) : ∀ f ∈ stopFields n, f ∈ (List.range 16).flatMap stopFields := fun _ hf =>
  List.mem_flatMap.mpr ⟨n, List.mem_range.mpr hn, hf⟩

theorem Dev.portStop_stops (d : Dev) (n : Fin 16) : Dev.SameBut (stopFields n) d (d.portStop n) ∧ d.portStop n = { d with live := (d.portStop n).live, tdm := (d.portStop n).tdm } ∧
    (d.portStop n).rd (Reg.TDM_PSTAT_STATE n) = 0 ∧ ∀ m, (d.portStop n).port m = if m = n.val then {} else d.port m := by
  obtain ⟨ok, hsep⟩ := (show ∀ n : Fin 16, (Reg.TDM_PSTAT_ONSYN n).ok = true ∧ (Reg.TDM_PSTAT_ONSYN n).sep (Reg.TDM_PSTAT_STATE n) = true by decide) n
  have h1 : Dev.Acts (stopFields n) [] (d.setPort n {}) (d.portStop n) :=
    (((d.setPort n {}).portState_acts n 0).mono (by simp [tdmFields, stopFields])).wr (f := Reg.TDM_PSTAT_ONSYN n) 0 (by simp [stopFields]) ok
  have h2 : (d.portStop n).rd (Reg.TDM_PSTAT_STATE n) = 0 := (Dev.rd_wr_sep _ _ _ _ hsep).trans ((d.setPort n {}).portState_shows n (by decide)).1
  generalize d.portStop n = D at h1 h2 ⊢
  have hs : Dev.SameBut (stopFields n) d (d.setPort n {}) := .of_live rfl
  refine ⟨hs.trans h1.same, ?_, h2, fun m => ?_⟩
  · rw [h1.onlyLive]
    rfl
  · rw [Dev.port_congr (show D.tdm = (d.setPort n {}).tdm by rw [h1.onlyLive]), Dev.port_setPort]

theorem Dev.portsHalt_halts (d : Dev) : Dev.Halted 16 d d.portsHalt := by
  have key : ∀ k, k ≤ 16 → Dev.Halted k d ((List.range k).foldl (fun d n => if d.rd (Reg.TDM_PSTAT_STATE n) = 0 then d else d.portStop n) d) := by
    intro k
    induction k with
    | zero => exact fun _ => ⟨rfl, .refl _ d, fun n hn => absurd hn (Nat.not_lt_zero n), fun _ _ _ => ⟨rfl, rfl⟩⟩
    | succ k ih =>
      intro hk
      rw [List.range_succ, List.foldl_append, List.foldl_cons, List.foldl_nil]
      have h := ih (by omega)
      generalize (List.range k).foldl (fun d n => if d.rd (Reg.TDM_PSTAT_STATE n) = 0 then d else d.portStop n) d = D at h ⊢
      obtain ⟨ho, hs, hd, hr⟩ := h
      obtain ⟨rp, rs⟩ := hr k (le_refl k) (by omega)
      by_cases h0 : D.rd (Reg.TDM_PSTAT_STATE k) = 0
      · rw [if_pos h0]
        refine ⟨ho, hs, fun n hn => ?_, fun n hn hn' => hr n (by omega) hn'⟩
        rcases Nat.lt_succ_iff_lt_or_eq.mp hn with hn | rfl
        · exact hd n hn
        · exact ⟨h0, by rw [if_pos (rs ▸ h0), rp]⟩
      · rw [if_neg h0]
        obtain ⟨p1, p2, p3, p4⟩ := D.portStop_stops ⟨k, by omega⟩
        have hst : ∀ n : Fin 16, n.val ≠ k → (D.portStop k).rd (Reg.TDM_PSTAT_STATE n) = D.rd (Reg.TDM_PSTAT_STATE n) := fun n hn => p1.rd
          ((show ∀ k n : Fin 16, n.val ≠ k.val → Fld.clear (stopFields k) (Reg.TDM_PSTAT_STATE n) = true by decide) ⟨k, by omega⟩ n hn)
        refine ⟨?_, hs.trans (p1.mono (mem_stopFields (by omega))), fun n hn => ?_, fun n hn hn' => ?_⟩
        · rw [p2, ho]
        · rcases Nat.lt_succ_iff_lt_or_eq.mp hn with hn | rfl
          · obtain ⟨d1, d2⟩ := hd n hn
            exact ⟨(hst ⟨n, by omega⟩ (by simp; omega)).trans d1, ((p4 n).trans (if_neg (by simp; omega))).trans d2⟩
          · exact ⟨p3, by rw [p4, if_pos rfl, if_neg (rs ▸ h0)]⟩
        · obtain ⟨r1, r2⟩ := hr n (by omega) hn'
          exact ⟨((p4 n).trans (if_neg (by simp; omega))).trans r1, (hst ⟨n, hn'⟩ (by simp; omega)).trans r2⟩
  exact key 16 (le_refl 16)

/-! ### Insertion and removal -/

theorem execUnseated_eq (s : State) (ns : Nat) : exec (.unseated ns) s = onDev (fun d =>
    if ((d.at ns).wr Reg.HOT_STATUS_PRSNT 0).rd Reg.HOT_STATUS_STATE = 3 then (d.at ns).wr Reg.HOT_STATUS_PRSNT 0
    else ((({ (d.at ns).wr Reg.HOT_STATUS_PRSNT 0 with
      pwr := { d.pwr with safe := none, resume := false, unseatedAt := (d.at ns).timeNs } } : Dev).portsHalt).hotState 3 false).powerLeave 8) s := rfl

/-- The registers that an unseated card writes. -/
def unseatedFields : List Fld := [Reg.HOT_STATUS_PRSNT, Reg.HOT_STATUS_STATE, Reg.HOT_STATUS_HOTEV, Reg.TDM_ARMED_PORTS, Reg.TDM_RUN_PORTS] ++
  (List.range 16).flatMap fun n => [Reg.TDM_PSTAT_STATE n, Reg.TDM_PSTAT_ONSYN n]

theorem unseated_moves (s : State) (ns : Nat) : let st := s.dev.rd Reg.HOT_STATUS_STATE
    let now := (s.dev.at ns).timeNs
    ∃ t, Runs (.unseated ns) s t ∧ t.dev.rd Reg.HOT_STATUS_PRSNT = 0 ∧ t.dev.rd Reg.HOT_STATUS_STATE = 3 ∧
      (st = 3 → OnlyFields [Reg.HOT_STATUS_PRSNT] s t ∧ t.dev = Around (s.dev.at ns) t.dev ∧ t.dev.pwr = s.dev.pwr) ∧
      (st ≠ 3 → t.dev.rd Reg.HOT_STATUS_HOTEV = 1 ∧ Exits s t false 8 ∧
        t.dev.pwr = { s.dev.pwr with safe := none, resume := false, unseatedAt := now, exiting := t.dev.pwr.exiting } ∧
        (∀ n, n < 16 → t.dev.rd (Reg.TDM_PSTAT_STATE n) = 0 ∧
          t.dev.port n = if s.dev.rd (Reg.TDM_PSTAT_STATE n) = 0 then s.dev.port n else {}) ∧
        t.dev = Around { s.dev.at ns with tdm := t.dev.tdm } t.dev ∧
        OnlyFields unseatedFields s t ∧ (Room s → EntersAll s t [(3, 1, 3)])) := by
  intro st now
  have hrun := runs_of_onDev (execUnseated_eq s ns)
  have hP := (s.dev.at ns).wr_acts Reg.HOT_STATUS_PRSNT 0 rfl
  have hp0 : ((s.dev.at ns).wr Reg.HOT_STATUS_PRSNT 0).rd Reg.HOT_STATUS_PRSNT = 0 := Dev.rd_wr_lt _ _ _ rfl (by decide)
  generalize (s.dev.at ns).wr Reg.HOT_STATUS_PRSNT 0 = P at hP hp0 hrun
  have hst : P.rd Reg.HOT_STATUS_STATE = st := hP.rd rfl
  rw [hst] at hrun
  by_cases h3 : st = 3
  · rw [if_pos h3] at hrun
    refine ⟨_, hrun, hp0, hst.trans h3, fun _ => ⟨hP.same, hP.around, ?_⟩, fun h => absurd h3 h⟩
    change P.pwr = _
    rw [hP.onlyLive]
    rfl
  · rw [if_neg h3] at hrun
    have hH := Dev.portsHalt_halts { P with pwr := { s.dev.pwr with safe := none, resume := false, unseatedAt := now } }
    generalize hp : ({ s.dev.pwr with safe := none, resume := false, unseatedAt := now } : Pwr) = p at hH
    rw [show ({ s.dev.pwr with safe := none, resume := false, unseatedAt := (s.dev.at ns).timeNs } : Pwr) = p from hp] at hrun
    generalize Dev.portsHalt { P with pwr := p } = H at hH hrun
    have hS := H.hotState_acts 3 false
    obtain ⟨v1, v2⟩ := H.hotState_shows (show 3 < 4 by decide) false
    generalize H.hotState 3 false = S at hS v1 v2 hrun
    have hHs : Dev.SameBut ((List.range 16).flatMap stopFields) P H := hH.same
    have hB : Dev.Acts unseatedFields [(3, 1, 3)] { s.dev.at ns with pwr := p, tdm := H.tdm } S := by
      refine ⟨?_, ((hP.same.mono (by decide)).trans (hHs.mono (by decide))).trans (hS.same.mono (by decide))⟩
      rw [hS.only, hH.only, hP.onlyLive]
      rfl
    have hpw : S.pwr = p := by rw [hB.only]
    have hSt : S.tdm = H.tdm := by rw [hB.only]
    obtain ⟨x1, x2⟩ := Dev.powerLeave_exits (s := s) (t := { s with dev := (S.powerLeave 8).settle }) (D := S) (c := 8) (by rw [hpw, ← hp]) (hB.rd (by decide)) rfl
    have hE := S.powerLeave_told 8
    generalize S.powerLeave 8 = E at hE x1 x2 hrun
    generalize (if S.pwr.exiting = none ∧ S.powerTarget < S.rd Reg.PWR_STATUS_STATE then some (8, S.timeNs) else S.pwr.exiting) = x at hE
    have hrd : ∀ f, E.settle.rd f = S.rd f := fun f => by rw [Dev.settle_rd, hE]; rfl
    refine ⟨_, hrun, (hrd _).trans ?_, (hrd _).trans v1, fun h => absurd h h3, fun _ => ⟨(hrd _).trans v2, x1, ?_, fun n hn => ⟨(hrd _).trans ?_, ?_⟩, ?_,
      fun g hg ha => (hrd g).trans (hB.same g hg ha), fun hr => ?_⟩⟩
    · rw [hS.rd (by decide), hHs.rd (by decide)]
      exact hp0
    · rw [x2, hpw, ← hp]
    · rw [hS.rd ((show ∀ n : Fin 16, Fld.clear hotFields (Reg.TDM_PSTAT_STATE n) = true by decide) ⟨n, hn⟩)]
      exact (hH.done n hn).1
    · have hpt : ∀ k, E.settle.port k = H.port k := fun k => Dev.port_congr (by rw [Dev.settle_tdm, hE]; exact hSt) k
      have hPp : ∀ k, ({ P with pwr := p } : Dev).port k = s.dev.port k := fun k => Dev.port_congr (by rw [hP.onlyLive]; rfl) k
      have hPr : ({ P with pwr := p } : Dev).rd (Reg.TDM_PSTAT_STATE n) = s.dev.rd (Reg.TDM_PSTAT_STATE n) :=
        hP.same.rd ((show ∀ n : Fin 16, Fld.clear [Reg.HOT_STATUS_PRSNT] (Reg.TDM_PSTAT_STATE n) = true by decide) ⟨n, hn⟩)
      change E.settle.port n = _
      rw [hpt, (hH.done n hn).2, hPp, hPr]
    · have htd : E.settle.tdm = H.tdm := by rw [Dev.settle_tdm, hE]; exact hSt
      change E.settle = Around { s.dev.at ns with tdm := E.settle.tdm } E.settle
      rw [htd, hE]
      exact Dev.around_pwr hB _
    · exact Dev.Acts.enters (d := { s.dev.at ns with pwr := E.pwr, tdm := H.tdm }) (D := E) (fs := unseatedFields)
        ⟨by rw [hE, hB.only], fun g hg ha => (hrd g).trans (hB.same g hg ha)⟩ rfl rfl 3 (by decide) (by simp) (by simp) hr rfl

theorem execSeated_eq (s : State) (ns : Nat) : exec (.seated ns) s = onDev (fun d =>
    if (d.at ns).rd Reg.HOT_STATUS_STATE = 3 ∧ (d.at ns).pwr.unseatedAt + 10000000 ≤ (d.at ns).timeNs then
      Dev.hotState { ((d.at ns).wr Reg.HOT_STATUS_PRSNT 1) with pwr := { d.pwr with resume := true } } 0 false
    else d.at ns) s := rfl

theorem seated_moves (s : State) (ns : Nat) : let st := s.dev.rd Reg.HOT_STATUS_STATE
    let now := (s.dev.at ns).timeNs
    let comes := st = 3 ∧ s.dev.pwr.unseatedAt + 10000000 ≤ now
    (¬ comes → ∃ t, Runs (.seated ns) s t ∧ Keeps [] s t (s.dev.at ns) ∧ t.dev.pwr = s.dev.pwr) ∧
    (comes → ∃ t, Runs (.seated ns) s t ∧ t.dev.rd Reg.HOT_STATUS_PRSNT = 1 ∧ t.dev = Around (s.dev.at ns) t.dev ∧
      OnlyFields [Reg.HOT_STATUS_PRSNT, Reg.HOT_STATUS_STATE, Reg.HOT_STATUS_HOTEV] s t ∧ t.dev.rd Reg.HOT_STATUS_STATE = 0 ∧
      t.dev.rd Reg.HOT_STATUS_HOTEV = 1 ∧ t.dev.pwr = { s.dev.pwr with resume := true } ∧ (Room s → EntersAll s t [(3, 1, 0)])) := by
  intro st now comes
  have hrun := runs_of_onDev (execSeated_eq s ns)
  have hcond : ((s.dev.at ns).rd Reg.HOT_STATUS_STATE = 3 ∧ (s.dev.at ns).pwr.unseatedAt + 10000000 ≤ (s.dev.at ns).timeNs) ↔ comes := Iff.rfl
  refine ⟨fun hn => ?_, fun hc => ?_⟩
  · rw [if_neg fun h => hn (hcond.mp h)] at hrun
    exact ⟨_, hrun, ⟨fun _ _ => rfl, rfl⟩, rfl⟩
  · rw [if_pos (hcond.mpr hc)] at hrun
    have hP := (s.dev.at ns).wr_acts Reg.HOT_STATUS_PRSNT 1 rfl
    have hp1 : ((s.dev.at ns).wr Reg.HOT_STATUS_PRSNT 1).rd Reg.HOT_STATUS_PRSNT = 1 := Dev.rd_wr_lt _ _ _ rfl (by decide)
    generalize (s.dev.at ns).wr Reg.HOT_STATUS_PRSNT 1 = P at hP hp1 hrun
    have hS := Dev.hotState_acts { P with pwr := { s.dev.pwr with resume := true } } 0 false
    obtain ⟨v1, v2⟩ := Dev.hotState_shows { P with pwr := { s.dev.pwr with resume := true } } (show 0 < 4 by decide) false
    generalize Dev.hotState { P with pwr := { s.dev.pwr with resume := true } } 0 false = S at hS v1 v2 hrun
    have hB : Dev.Acts [Reg.HOT_STATUS_PRSNT, Reg.HOT_STATUS_STATE, Reg.HOT_STATUS_HOTEV] [(3, 1, 0)]
        { s.dev.at ns with pwr := { s.dev.pwr with resume := true } } S := by
      refine ⟨?_, (hP.same.mono (by decide)).trans (hS.same.mono (by decide))⟩
      rw [hS.only, hP.onlyLive]
      rfl
    refine ⟨_, hrun, (hS.rd (by decide)).trans hp1, hB.around, hB.same, v1, v2, hB.rest.2.1, fun hr => ?_⟩
    exact hB.enters rfl rfl 3 (by decide) (by simp) (by simp) hr rfl

/-- A card that is seated and whose ejector closes is EJECTING. -/
def Dev.ejected (d : Dev) : Dev :=
  if d.rd Reg.HOT_STATUS_STATE = 0 then Dev.hotState { d with pwr := { d.pwr with ejectingAt := d.timeNs } } 1 false else d

theorem execEjecting_eq (s : State) (low : Bool) (ns : Nat) : exec (.ejecting low ns) s = onDev (fun d =>
    if (d.at ns).on Reg.HOT_STATUS_EJECT = low ∨ (d.at ns).timeNs < (d.at ns).pwr.ejectAt + 10000000 then d.at ns
    else if low then (Dev.ejected { ((d.at ns).wr Reg.HOT_STATUS_EJECT (bit low)) with pwr := { d.pwr with ejectAt := (d.at ns).timeNs } }).wake 4
      else { ((d.at ns).wr Reg.HOT_STATUS_EJECT (bit low)) with pwr := { d.pwr with ejectAt := (d.at ns).timeNs } }) s := rfl

theorem ejecting_moves (s : State) (low : Bool) (ns : Nat) : let st := s.dev.rd Reg.HOT_STATUS_STATE
    let now := (s.dev.at ns).timeNs
    let changes := (s.dev.rd Reg.HOT_STATUS_EJECT = 1 ↔ low = false) ∧ s.dev.pwr.ejectAt + 10000000 ≤ now
    (¬ changes → ∃ t, Runs (.ejecting low ns) s t ∧ Keeps [] s t (s.dev.at ns) ∧ t.dev.pwr = s.dev.pwr) ∧
    (changes → ∃ t, Runs (.ejecting low ns) s t ∧ t.dev.rd Reg.HOT_STATUS_EJECT = (if low then 1 else 0) ∧ t.dev = Around (s.dev.at ns) t.dev ∧
      (low = false → OnlyFields [Reg.HOT_STATUS_EJECT] s t ∧ t.dev.pwr = { s.dev.pwr with ejectAt := now }) ∧
      (low = true → Exits s t true 4) ∧
      (low = true → st ≠ 0 → OnlyFields [Reg.HOT_STATUS_EJECT] s t ∧
        t.dev.pwr = { s.dev.pwr with ejectAt := now, exiting := t.dev.pwr.exiting }) ∧
      (low = true → st = 0 → t.dev.rd Reg.HOT_STATUS_STATE = 1 ∧ t.dev.rd Reg.HOT_STATUS_HOTEV = 1 ∧
        t.dev.pwr = { s.dev.pwr with ejectAt := now, ejectingAt := now, exiting := t.dev.pwr.exiting } ∧
        OnlyFields [Reg.HOT_STATUS_EJECT, Reg.HOT_STATUS_STATE, Reg.HOT_STATUS_HOTEV] s t ∧ (Room s → EntersAll s t [(3, 1, 1)]))) := by
  intro st now changes
  have hrun := runs_of_onDev (execEjecting_eq s low ns)
  have hc : ((s.dev.at ns).on Reg.HOT_STATUS_EJECT = low ∨ (s.dev.at ns).timeNs < (s.dev.at ns).pwr.ejectAt + 10000000) ↔ ¬ changes := by
    have h1 : (s.dev.at ns).on Reg.HOT_STATUS_EJECT = low ↔ ¬ (s.dev.rd Reg.HOT_STATUS_EJECT = 1 ↔ low = false) := by
      rw [← s.dev.on_true_iff Reg.HOT_STATUS_EJECT]
      change s.dev.on Reg.HOT_STATUS_EJECT = low ↔ _
      cases s.dev.on Reg.HOT_STATUS_EJECT <;> cases low <;> decide
    rw [h1, not_and_or, not_le]
    rfl
  refine ⟨fun hn => ?_, fun hch => ?_⟩
  · rw [if_pos (hc.mpr hn)] at hrun
    exact ⟨_, hrun, ⟨fun _ _ => rfl, rfl⟩, rfl⟩
  · rw [if_neg fun h => hc.mp h hch] at hrun
    have hP := (s.dev.at ns).wr_acts Reg.HOT_STATUS_EJECT (bit low) rfl
    have hp1 : ((s.dev.at ns).wr Reg.HOT_STATUS_EJECT (bit low)).rd Reg.HOT_STATUS_EJECT = if low then 1 else 0 := by
      rw [Dev.rd_wr_lt _ _ _ rfl (by cases low <;> decide)]
      rfl
    generalize (s.dev.at ns).wr Reg.HOT_STATUS_EJECT (bit low) = P at hP hp1 hrun
    have hQ : Dev.Acts [Reg.HOT_STATUS_EJECT] [] { s.dev.at ns with pwr := { s.dev.pwr with ejectAt := now } }
        { P with pwr := { s.dev.pwr with ejectAt := now } } := ⟨by rw [hP.only], hP.same⟩
    have hq1 : ({ P with pwr := { s.dev.pwr with ejectAt := now } } : Dev).rd Reg.HOT_STATUS_EJECT = if low then 1 else 0 := hp1
    rw [show ({ P with pwr := { s.dev.pwr with ejectAt := (s.dev.at ns).timeNs } } : Dev) = { P with pwr := { s.dev.pwr with ejectAt := now } } from rfl] at hrun
    generalize ({ P with pwr := { s.dev.pwr with ejectAt := now } } : Dev) = Q at hQ hq1 hrun
    cases low with
    | false =>
      rw [if_neg Bool.false_ne_true] at hrun
      exact ⟨_, hrun, hq1, hQ.around, fun _ => ⟨hQ.same, hQ.rest.2.1⟩, fun h => absurd h Bool.false_ne_true, fun h => absurd h Bool.false_ne_true,
        fun h => absurd h Bool.false_ne_true⟩
    | true =>
      rw [if_pos rfl] at hrun
      have hst : Q.rd Reg.HOT_STATUS_STATE = st := hQ.rd rfl
      have hn : Q.timeNs = now := hQ.rest.1
      -- what the wake leaves of a device `D` that differs from `s.dev` in the fields `fs` and posts `es`
      have hW : ∀ {fs : List Fld} {es : List (Nat × Nat × Nat)} {p : Pwr} {D : Dev}, Dev.Acts fs es { s.dev.at ns with pwr := p } D →
          p.exiting = s.dev.pwr.exiting → Fld.clear fs Reg.PWR_STATUS_STATE = true → (∀ e ∈ es, e.1 = 3) → es.length ≤ 12 →
          let t : State := { s with dev := (D.wake 4).settle }
          Exits s t true 4 ∧ t.dev.pwr = { p with exiting := t.dev.pwr.exiting } ∧ t.dev = Around (s.dev.at ns) t.dev ∧ OnlyFields fs s t ∧
            (∀ f, t.dev.rd f = D.rd f) ∧ (Room s → EntersAll s t es) := by
        intro fs es p D hD hex hcl he hl t
        obtain ⟨x1, x2⟩ := Dev.wake_exits (s := s) (t := t) (D := D) (c := 4) (by rw [hD.rest.2.1, hex]) (hD.rd hcl) rfl
        rw [hD.rest.2.1] at x2
        have hA := hD.wake 4
        have hrd : ∀ f, t.dev.rd f = D.rd f := fun f => (Dev.settle_rd _ f).trans (D.wake_rd 4 f)
        exact ⟨x1, x2, hA.around, fun g hg ha => (hrd g).trans (hD.same g hg ha), hrd, fun hr => hA.enters rfl rfl 3 (by decide) he hl hr rfl⟩
      by_cases h0 : st = 0
      · rw [Dev.ejected, if_pos (hst.trans h0)] at hrun
        have hS := Dev.hotState_acts { Q with pwr := { Q.pwr with ejectingAt := Q.timeNs } } 1 false
        obtain ⟨v1, v2⟩ := Dev.hotState_shows { Q with pwr := { Q.pwr with ejectingAt := Q.timeNs } } (show 1 < 4 by decide) false
        generalize Dev.hotState { Q with pwr := { Q.pwr with ejectingAt := Q.timeNs } } 1 false = S at hS v1 v2 hrun
        have hB : Dev.Acts [Reg.HOT_STATUS_EJECT, Reg.HOT_STATUS_STATE, Reg.HOT_STATUS_HOTEV] [(3, 1, 1)]
            { s.dev.at ns with pwr := { s.dev.pwr with ejectAt := now, ejectingAt := now } } S := by
          refine ⟨?_, (hQ.same.mono (by decide)).trans (hS.same.mono (by decide))⟩
          rw [hS.only, hn, hQ.rest.2.1, hQ.onlyLive]
          rfl
        obtain ⟨w1, w2, w3, w4, w5, w6⟩ := hW hB rfl (by decide) (by simp) (by simp)
        have he : S.rd Reg.HOT_STATUS_EJECT = 1 := (hS.rd (by decide)).trans hq1
        exact ⟨_, hrun, (w5 _).trans he, w3, fun h => absurd h.symm Bool.false_ne_true, fun _ => w1, fun _ h => absurd h0 h, fun _ _ =>
          ⟨(w5 _).trans v1, (w5 _).trans v2, w2, w4, w6⟩⟩
      · rw [Dev.ejected, if_neg fun h => h0 (hst.symm.trans h)] at hrun
        obtain ⟨w1, w2, w3, w4, w5, -⟩ := hW hQ rfl (by decide) (by simp) (by simp)
        exact ⟨_, hrun, (w5 _).trans hq1, w3, fun h => absurd h.symm Bool.false_ne_true, fun _ => w1, fun _ _ => ⟨w4, w2⟩, fun _ h => absurd h h0⟩

/-! ### SAFE and RESUME -/

theorem Dev.mayBeSafe_iff (s : State) : s.dev.mayBeSafe = true ↔ SafeAllowed s := by
  unfold Dev.mayBeSafe SafeAllowed
  rw [Bool.or_eq_true, Bool.and_eq_true, Bool.not_eq_true', bne_iff_ne, Dev.on_true_iff]

theorem Dev.ejectLong_iff (d : Dev) : d.ejectLong = true ↔ d.rd Reg.HOT_STATUS_EJECT = 1 ∧ d.pwr.ejectAt + 9990000000 ≤ d.timeNs := by
  rw [Dev.ejectLong, Bool.and_eq_true, Dev.on_true_iff, decide_eq_true_eq]

/-- What `askSafe` makes of the power events. -/
theorem Dev.askSafe_eq (d : Dev) (forced : Bool) : d.askSafe forced =
    { d with pwr := { d.pwr with safe := if d.rd Reg.HOT_STATUS_STATE < 2 then some forced else d.pwr.safe } } := by
  unfold Dev.askSafe
  split <;> rfl

theorem forced_iff (s : State) : (!s.dev.mayBeSafe) = true ↔ ¬ SafeAllowed s := by
  rw [← Dev.mayBeSafe_iff s, Bool.not_eq_true', Bool.not_eq_true]

theorem execEjectDlyExpiry_eq (s : State) (ns : Nat) : exec (.ejectDlyExpiry ns) s = onDev (fun d =>
    if (d.at ns).rd Reg.HOT_STATUS_STATE = 1 ∧ (d.at ns).pwr.ejectingAt + 1000000 * (d.at ns).rd Reg.HOT_CFG_EJECT_DLY ≤ (d.at ns).timeNs then
      (d.at ns).askSafe false else d.at ns) s := rfl

theorem execForcedSafe_eq (s : State) (ns : Nat) : exec (.forcedSafe ns) s = onDev (fun d =>
    if (d.at ns).ejectLong && (d.at ns).rd Reg.HOT_STATUS_STATE == 1 then (d.at ns).askSafe (!(d.at ns).mayBeSafe) else d.at ns) s := rfl

theorem safe_delays (s : State) (ns : Nat) : let st := s.dev.rd Reg.HOT_STATUS_STATE
    let now := (s.dev.at ns).timeNs
    let due := st = 1 ∧ s.dev.pwr.ejectingAt + 1000000 * s.dev.rd Reg.HOT_CFG_EJECT_DLY ≤ now
    let forces := st = 1 ∧ EjectorHeld s now
    (∃ t, Runs (.ejectDlyExpiry ns) s t ∧ Keeps [] s t (s.dev.at ns) ∧
      (due → t.dev.pwr = { s.dev.pwr with safe := some false }) ∧ (¬ due → t.dev.pwr = s.dev.pwr)) ∧
    (∃ t, Runs (.forcedSafe ns) s t ∧ Keeps [] s t (s.dev.at ns) ∧ t.dev.pwr = { s.dev.pwr with safe := t.dev.pwr.safe } ∧
      (forces → ∃ forced, t.dev.pwr.safe = some forced ∧ (forced = true ↔ ¬ SafeAllowed s)) ∧ (¬ forces → t.dev.pwr.safe = s.dev.pwr.safe)) := by
  intro st now due forces
  constructor
  · have hrun := runs_of_onDev (execEjectDlyExpiry_eq s ns)
    have hcond : ((s.dev.at ns).rd Reg.HOT_STATUS_STATE = 1 ∧ (s.dev.at ns).pwr.ejectingAt + 1000000 * (s.dev.at ns).rd Reg.HOT_CFG_EJECT_DLY ≤ (s.dev.at ns).timeNs) ↔ due :=
      Iff.rfl
    by_cases hd : due
    · rw [if_pos (hcond.mpr hd), Dev.askSafe_eq, if_pos (show (s.dev.at ns).rd Reg.HOT_STATUS_STATE < 2 from lt_of_eq_of_lt hd.1 (by decide))] at hrun
      exact ⟨_, hrun, ⟨fun _ _ => rfl, rfl⟩, fun _ => rfl, fun h => absurd hd h⟩
    · rw [if_neg fun h => hd (hcond.mp h)] at hrun
      exact ⟨_, hrun, ⟨fun _ _ => rfl, rfl⟩, fun h => absurd h hd, fun _ => rfl⟩
  · have hrun := runs_of_onDev (execForcedSafe_eq s ns)
    have hcond : ((s.dev.at ns).ejectLong && (s.dev.at ns).rd Reg.HOT_STATUS_STATE == 1) = true ↔ forces := by
      rw [Bool.and_eq_true, Dev.ejectLong_iff, beq_iff_eq, and_comm]
      rfl
    by_cases hf : forces
    · rw [if_pos (hcond.mpr hf), Dev.askSafe_eq, if_pos (show (s.dev.at ns).rd Reg.HOT_STATUS_STATE < 2 from lt_of_eq_of_lt hf.1 (by decide))] at hrun
      exact ⟨_, hrun, ⟨fun _ _ => rfl, rfl⟩, rfl, fun _ => ⟨_, rfl, forced_iff s⟩, fun h => absurd hf h⟩
    · rw [if_neg fun h => hf (hcond.mp h)] at hrun
      exact ⟨_, hrun, ⟨fun _ _ => rfl, rfl⟩, rfl, fun h => absurd h hf, fun _ => rfl⟩

/-- What the landing of a command that leaves the record of ageing leaves, beside the registers `fs` and the power events. -/
theorem cmdLanded_leaves {fs : List Fld} {s : State} {r : List SlowOp} {D : Dev} (h : Dev.CmdLanded fs s r D) (hage : D.age = s.dev.age)
    (hf : ∀ f ∈ fs, f.addr ≠ Reg.PWR_STATUS_TARGET.addr) : let t : State := { s with dev := (D.slowEdge.powerLeave 8).settle }
    EdgeCame s t r ∧ OnlyFields fs (AfterEdge s t r) t ∧ t.dev = Around (AfterEdge s t r).dev t.dev ∧
      t.dev.pwr = { D.pwr with exiting := t.dev.pwr.exiting } ∧ (D.pwr.exiting = s.dev.pwr.exiting → Exits s t false 8) ∧
      ∀ f, f.addr ≠ Reg.PWR_STATUS_TARGET.addr → t.dev.rd f = D.rd f := by
  intro t
  have hE := D.edged
  have ht : t.dev = (D.slowEdge.powerLeave 8).settle := rfl
  generalize D.slowEdge.powerLeave 8 = E at hE ht
  have hcl : ∀ f ∈ fs, Fld.clear [f] Reg.PWR_STATUS_STATE = true := fun f hm => by
    have : f.addr ≠ Reg.PWR_STATUS_STATE.addr := hf f hm
    simp [Fld.clear, this]
    decide
  refine ⟨edgeCame_of h hE ht, onlyFields_edge h hE ht hf, ?_, (exits_edge h hE ht hcl).1, exits_false h hE ht hcl, fun f hfa => ?_⟩
  · refine (around_edge h hE ht).trans ?_
    rw [hage]
    rfl
  · rw [ht, Dev.settle_rd, Dev.rd, hE.word, Dev.word_wr_ne _ _ _ _ (Ne.symm hfa), Dev.rd]

/-- What the landing of SAFE or RESUME leaves that puts `v` into REASON and `p` into the power events. -/
theorem hotCmd_lands {s : State} {r : List SlowOp} {D : Dev} (v : Nat) (p : Pwr) (hv : v < 2 ^ 8) (hp : p.exiting = s.dev.pwr.exiting)
    (hD : D = { (s.dev.slowTail r).wr Reg.HOT_STATUS_REASON v with pwr := p })
    (hrun : exec .slowWriteLand s = .next { s with dev := (D.slowEdge.powerLeave 8).settle }) : let u := AfterEdge s
    ∃ t, Runs .slowWriteLand s t ∧ EdgeCame s t r ∧ Exits s t false 8 ∧
      OnlyFields [Reg.HOT_STATUS_REASON] (u t r) t ∧ t.dev = Around (u t r).dev t.dev ∧
      t.dev.pwr = { p with exiting := t.dev.pwr.exiting } ∧ t.dev.rd Reg.HOT_STATUS_REASON = v := by
  intro u
  have hc : Dev.CmdLanded [Reg.HOT_STATUS_REASON] s r D := by
    rw [hD]
    exact ⟨rfl, ((Dev.SameBut.refl _ s.dev).trans (.of_live (d' := s.dev.slowTail r) rfl)).wr _ v (by simp) rfl⟩
  have hrd : D.rd Reg.HOT_STATUS_REASON = v := by
    rw [hD]
    exact Dev.rd_wr_lt _ _ _ rfl hv
  have hage : D.age = s.dev.age := by rw [hD]; rfl
  have hpw : D.pwr = p := by rw [hD]
  obtain ⟨e1, e2, e3, e4, e5, e6⟩ := cmdLanded_leaves hc hage (by decide)
  refine ⟨_, ⟨hrun, rfl, rfl⟩, e1, e5 (by rw [hpw, hp]), e2, e3, ?_, (e6 _ (by decide)).trans hrd⟩
  rw [hpw] at e4
  exact e4

theorem safe_lands (s : State) (r : List SlowOp) (hq : SlowHead s 0x600C 0 r) : let st := s.dev.rd Reg.HOT_STATUS_STATE
    let u := AfterEdge s
    ∃ t, Runs .slowWriteLand s t ∧ EdgeCame s t r ∧ Exits s t false 8 ∧
      OnlyFields [Reg.HOT_STATUS_REASON] (u t r) t ∧ t.dev = Around (u t r).dev t.dev ∧
      t.dev.pwr = { s.dev.pwr with safe := t.dev.pwr.safe, exiting := t.dev.pwr.exiting } ∧
      (¬ SafeAllowed s → ¬ EjectorHeld s s.dev.timeNs → t.dev.rd Reg.HOT_STATUS_REASON = 0x10 ∧ t.dev.pwr.safe = s.dev.pwr.safe) ∧
      (SafeAllowed s ∨ EjectorHeld s s.dev.timeNs → t.dev.rd Reg.HOT_STATUS_REASON = 0 ∧
        (st < 2 → ∃ forced, t.dev.pwr.safe = some forced ∧ (forced = true ↔ ¬ SafeAllowed s)) ∧
        (2 ≤ st → t.dev.pwr.safe = s.dev.pwr.safe)) := by
  intro st u
  have hy : runCmd (s.nv, s.dev.slowTail r) 0x600C 0 1 = (s.nv, (s.dev.slowTail r).safeGo) := rfl
  have hrun := slowWriteLand_cmd (row := { fld := Reg.HOT_CMD_SAFE, ty := .cmd }) hq (by decide +kernel) rfl rfl (by decide) (by decide) (by decide) hy
  have hcond : ((s.dev.slowTail r).mayBeSafe || (s.dev.slowTail r).ejectLong) = true ↔ SafeAllowed s ∨ EjectorHeld s s.dev.timeNs := by
    rw [Bool.or_eq_true, Dev.ejectLong_iff]
    exact or_congr (Dev.mayBeSafe_iff s) Iff.rfl
  by_cases hc : SafeAllowed s ∨ EjectorHeld s s.dev.timeNs
  · have hst : ((s.dev.slowTail r).wr Reg.HOT_STATUS_REASON 0).rd Reg.HOT_STATUS_STATE = st := Dev.rd_wr_sep _ _ _ _ rfl
    have hgo : (s.dev.slowTail r).safeGo = { (s.dev.slowTail r).wr Reg.HOT_STATUS_REASON 0 with
        pwr := { s.dev.pwr with safe := if st < 2 then some (!s.dev.mayBeSafe) else s.dev.pwr.safe } } := by
      unfold Dev.safeGo
      rw [if_pos (hcond.mpr hc), Dev.askSafe_eq, hst]
      rfl
    obtain ⟨t, t1, t2, t3, t4, t5, t6, t7⟩ := hotCmd_lands 0 { s.dev.pwr with safe := if st < 2 then some (!s.dev.mayBeSafe) else s.dev.pwr.safe } (by decide) rfl hgo hrun
    have hs := congrArg Pwr.safe t6
    refine ⟨t, t1, t2, t3, t4, t5, ?_, fun h h' => absurd hc (not_or.mpr ⟨h, h'⟩), fun _ => ⟨t7, fun h2 => ?_, fun h2 => ?_⟩⟩
    · rw [hs]
      exact t6
    · exact ⟨_, hs.trans (if_pos h2), forced_iff s⟩
    · exact hs.trans (if_neg (by omega))
  · have hgo : (s.dev.slowTail r).safeGo = { (s.dev.slowTail r).wr Reg.HOT_STATUS_REASON 0x10 with pwr := s.dev.pwr } := if_neg fun h => hc (hcond.mp h)
    obtain ⟨t, t1, t2, t3, t4, t5, t6, t7⟩ := hotCmd_lands 0x10 s.dev.pwr (by decide) rfl hgo hrun
    have hs := congrArg Pwr.safe t6
    refine ⟨t, t1, t2, t3, t4, t5, ?_, fun _ _ => ⟨t7, hs⟩, fun h => absurd h hc⟩
    rw [hs]
    exact t6

theorem resume_lands (s : State) (r : List SlowOp) (hq : SlowHead s 0x600C 1 r) : let st := s.dev.rd Reg.HOT_STATUS_STATE
    let u := AfterEdge s
    ∃ t, Runs .slowWriteLand s t ∧ EdgeCame s t r ∧ Exits s t false 8 ∧
      OnlyFields [Reg.HOT_STATUS_REASON] (u t r) t ∧ t.dev = Around (u t r).dev t.dev ∧
      t.dev.pwr = { s.dev.pwr with resume := t.dev.pwr.resume, exiting := t.dev.pwr.exiting } ∧
      (s.dev.rd Reg.HOT_STATUS_EJECT = 1 → t.dev.rd Reg.HOT_STATUS_REASON = 0x11 ∧ t.dev.pwr.resume = s.dev.pwr.resume) ∧
      (s.dev.rd Reg.HOT_STATUS_EJECT = 0 → t.dev.rd Reg.HOT_STATUS_REASON = 0 ∧
        t.dev.pwr.resume = if st = 2 then true else s.dev.pwr.resume) := by
  intro st u
  have hy : runCmd (s.nv, s.dev.slowTail r) 0x600C 1 1 = (s.nv, (s.dev.slowTail r).hotResumeGo) := rfl
  have hrun := slowWriteLand_cmd (row := { fld := Reg.HOT_CMD_RESUME, ty := .cmd }) hq (by decide +kernel) rfl rfl (by decide) (by decide) (by decide) hy
  by_cases he : s.dev.rd Reg.HOT_STATUS_EJECT = 1
  · have hgo : (s.dev.slowTail r).hotResumeGo = { (s.dev.slowTail r).wr Reg.HOT_STATUS_REASON 0x11 with pwr := s.dev.pwr } :=
      if_pos ((Dev.on_true_iff ..).mpr he)
    obtain ⟨t, t1, t2, t3, t4, t5, t6, t7⟩ := hotCmd_lands 0x11 s.dev.pwr (by decide) rfl hgo hrun
    have hb := congrArg Pwr.resume t6
    refine ⟨t, t1, t2, t3, t4, t5, ?_, fun _ => ⟨t7, hb⟩, fun h => absurd (he.symm.trans h) (by decide)⟩
    rw [hb]
    exact t6
  · have hgo : (s.dev.slowTail r).hotResumeGo = { (s.dev.slowTail r).wr Reg.HOT_STATUS_REASON 0 with
        pwr := { s.dev.pwr with resume := if st = 2 then true else s.dev.pwr.resume } } := by
      unfold Dev.hotResumeGo
      rw [if_neg fun h => he (((s.dev.slowTail r).on_true_iff _).mp h)]
      dsimp only
      rw [show ((s.dev.slowTail r).wr Reg.HOT_STATUS_REASON 0).rd Reg.HOT_STATUS_STATE = st from Dev.rd_wr_sep _ _ _ _ rfl]
      split <;> rfl
    obtain ⟨t, t1, t2, t3, t4, t5, t6, t7⟩ := hotCmd_lands 0 { s.dev.pwr with resume := if st = 2 then true else s.dev.pwr.resume } (by decide) rfl hgo hrun
    have hb := congrArg Pwr.resume t6
    refine ⟨t, t1, t2, t3, t4, t5, ?_, fun h => absurd h he, fun _ => ⟨t7, hb⟩⟩
    rw [hb]
    exact t6

theorem cardsComeAndGo : CardsComeAndGo :=
  ⟨fun s ns => ⟨unseated_moves s ns, seated_moves s ns⟩, ejecting_moves, safe_delays, safe_lands, resume_lands⟩

end Sys2Proof.Machine
end

section
-- What runs beside a check is held in memory with it: the declarations of this section are elaborated in turn.
set_option Elab.async false
/-! The power states and their exits, and the rails that are read back (R486 to R489). -/
namespace Sys2Proof.Machine
open Sys2Proof.Claims

/-! ### The deepest state that is permitted -/

/-- The last number below `n` that meets `p`, or 0. -/
theorem foldl_last_spec (p : Nat → Bool) (n : Nat) : let r := (List.range n).foldl (fun t k => if p k then k else t) 0
    (r = 0 ∨ p r = true) ∧ ∀ k, k < n → p k = true → k ≤ r := by
  induction n with
  | zero => exact ⟨.inl rfl, fun k hk => absurd hk (Nat.not_lt_zero k)⟩
  | succ n ih =>
    rw [List.range_succ, List.foldl_append, List.foldl_cons, List.foldl_nil]
    obtain ⟨i1, i2⟩ := ih
    by_cases hn : p n = true
    · rw [if_pos hn]
      exact ⟨.inr hn, fun k hk _ => Nat.lt_succ_iff.mp hk⟩
    · rw [if_neg hn]
      refine ⟨i1, fun k hk hp => i2 k (lt_of_le_of_ne (Nat.lt_succ_iff.mp hk) fun h => hn (h ▸ hp)) hp⟩

theorem Dev.protectNow_iff (d : Dev) : d.protectNow = true ↔ d.alarmActive = true ∨ d.rd Reg.ALM_SPSTAT_STATE = 2 ∨ d.rd Reg.ALM_STATUS_WD = 3 := by
  simp only [Dev.protectNow, Bool.or_eq_true, beq_iff_eq, or_assoc]

theorem Dev.anyJob_false_iff (d : Dev) : (!d.anyJob) = true ↔ ∀ e ∈ d.sch.jobs, e.2.standing = true ∨ e.2.desc = [] := by
  rw [Bool.not_eq_true', Dev.anyJob, List.any_eq_false]
  refine forall_congr' fun e => imp_congr_right fun _ => ?_
  cases e.2.standing <;> cases e.2.desc <;> simp

/-- The state `k` may be chosen as the target. -/
def Dev.mayEnter (d : Dev) (k : Nat) : Bool :=
  decide (k ≤ d.rd Reg.PWR_CFG_MAXSTATE) && decide (exitLat k ≤ d.rd Reg.PWR_LTR_US) && (k == 0 || d.entryOk k)

theorem mayEnter_iff (s : State) {k : Nat} (h1 : 1 ≤ k) (h4 : k ≤ 4) : s.dev.mayEnter k = true ↔ Permitted s k := by
  have hlat : exitLat k = [0, 32, 40, 2000, 300000].getD k 0 := by interval_cases k <;> rfl
  have h0 : (k == 0) = false := by simp; omega
  unfold Permitted Dev.mayEnter
  rw [← s.dev.protectNow_iff, ← hlat, h0, Bool.false_or, Bool.and_eq_true, Bool.and_eq_true, decide_eq_true_eq, decide_eq_true_eq, Dev.entryOk]
  by_cases hp : s.dev.protectNow = true
  · rw [if_pos hp, decide_eq_true_eq]
    simp only [hp, h1, h4, true_and, true_implies, not_true_eq_false, false_implies, and_true]
    exact and_assoc
  · rw [if_neg hp]
    by_cases h2 : k ≤ 2
    · rw [if_pos h2, decide_eq_true_eq]
      simp only [hp, h1, h4, h2, true_and, true_implies, not_false_eq_true, false_implies, and_true, Bool.false_eq_true, Nat.not_lt.mpr h2]
      exact and_assoc
    · rw [if_neg h2, Bool.and_eq_true, Bool.and_eq_true, Bool.and_eq_true, Bool.and_eq_true, Dev.anyJob_false_iff]
      simp only [hp, h1, h4, h2, true_and, true_implies, not_false_eq_true, false_implies, Bool.false_eq_true, Nat.not_le.mp h2, beq_iff_eq, and_assoc]

theorem powerTarget_permitted (s : State) : (s.dev.powerTarget = 0 ∨ Permitted s s.dev.powerTarget) ∧ ∀ k, Permitted s k → k ≤ s.dev.powerTarget := by
  obtain ⟨h1, h2⟩ := foldl_last_spec s.dev.mayEnter 5
  have hd : (List.range 5).foldl (fun t k => if s.dev.mayEnter k then k else t) 0 = s.dev.powerTarget := rfl
  rw [hd] at h1 h2
  refine ⟨?_, fun k hk => h2 k (by have := hk.2.1; omega) ((mayEnter_iff s hk.1 hk.2.1).mpr hk)⟩
  rcases Nat.eq_zero_or_pos s.dev.powerTarget with h0 | h0
  · exact .inl h0
  · have h4 : s.dev.powerTarget ≤ 4 := by
      rw [← hd]
      exact List.foldlRecOn (motive := fun t => t ≤ 4) _ _ (by decide) fun t ht k hk => by
        have := List.mem_range.mp hk
        split
        · omega
        · exact ht
    exact .inr ((mayEnter_iff s h0 h4).mp (h1.resolve_left (Nat.pos_iff_ne_zero.mp h0)))

/-! ### WAKE -/

theorem wake_lands (s : State) (r : List SlowOp) (hq : SlowHead s 0x4010 0 r) : let u := AfterEdge s
    ∃ t, Runs .slowWriteLand s t ∧ EdgeCame s t r ∧ Exits s t true 3 ∧ OnlyFields [] (u t r) t ∧ t.dev = Around (u t r).dev t.dev ∧
      t.dev.pwr = { s.dev.pwr with exiting := t.dev.pwr.exiting } := by
  intro u
  have hy : runCmd (s.nv, s.dev.slowTail r) 0x4010 0 1 = (s.nv, (s.dev.slowTail r).wake 3) := rfl
  have hrun := slowWriteLand_cmd (row := { fld := Reg.PWR_CMD_WAKE, ty := .cmd }) hq (by decide +kernel) rfl rfl (by decide) (by decide) (by decide) hy
  have hx : (s.dev.slowTail r).wokenBy 3 =
      if s.dev.pwr.exiting = none ∧ (3 ≤ s.dev.rd Reg.PWR_STATUS_STATE ∨ s.dev.powerTarget < s.dev.rd Reg.PWR_STATUS_STATE) then some (3, s.dev.timeNs) else s.dev.pwr.exiting := rfl
  have hD := (s.dev.slowTail r).wake_wokenBy 3
  rw [hx] at hD
  generalize hx' : (if s.dev.pwr.exiting = none ∧ (3 ≤ s.dev.rd Reg.PWR_STATUS_STATE ∨ s.dev.powerTarget < s.dev.rd Reg.PWR_STATUS_STATE) then
    some (3, s.dev.timeNs) else s.dev.pwr.exiting) = x at hD
  generalize (s.dev.slowTail r).wake 3 = D at hD hrun
  have hc : Dev.CmdLanded [] s r D := by
    rw [hD]
    exact ⟨rfl, fun _ _ _ => rfl⟩
  have hage : D.age = s.dev.age := by rw [hD]; rfl
  have hpw : D.pwr = { s.dev.pwr with exiting := x } := by rw [hD]; rfl
  have htg : D.powerTarget = s.dev.powerTarget := by
    rw [hD]
    exact Dev.powerTarget_congr (fun _ _ => rfl) rfl rfl rfl
  have hn : D.timeNs = s.dev.timeNs := by rw [hD]; rfl
  have hE := D.edged
  obtain ⟨e1, e2, e3, e4, -, -⟩ := cmdLanded_leaves hc hage (by simp)
  obtain ⟨-, x2⟩ := exits_edge (t := { s with dev := (D.slowEdge.powerLeave 8).settle }) hc hE rfl (by simp)
  refine ⟨_, ⟨hrun, rfl, rfl⟩, e1, ?_, e2, e3, ?_⟩
  · have ht : (D.slowEdge.powerLeave 8).settle.powerTarget = s.dev.powerTarget := by
      have := e1.2.2.2
      rw [← htg, ← hE.target, ← Dev.settle_rd]
      exact this.symm
    have htn : (D.slowEdge.powerLeave 8).settle.timeNs = s.dev.timeNs := by
      rw [← hn]
      change (D.slowEdge.powerLeave 8).timeNs = _
      rw [hE.only]
      rfl
    unfold Exits
    dsimp only at x2 ⊢
    rw [x2, ht, htn, show D.pwr.exiting = x by rw [hpw]]
    by_cases hw : s.dev.pwr.exiting = none ∧ (3 ≤ s.dev.rd Reg.PWR_STATUS_STATE ∨ s.dev.powerTarget < s.dev.rd Reg.PWR_STATUS_STATE)
    · rw [hx'.symm.trans (if_pos hw), if_neg (by simp), if_pos (by simpa using hw)]
    · rw [hx'.symm.trans (if_neg hw), if_neg fun h => hw ⟨h.1, .inr h.2⟩, if_neg (by simpa using hw)]
  · rw [hpw] at e4
    exact e4

/-! ### The end of the exit -/

theorem Dev.leaveBanked_pwr (d : Dev) : d.leaveBanked.pwr = d.pwr := by
  have hm : ∀ {a b : Dev}, Dev.OnlyMem a b → b.pwr = a.pwr := fun h => by rw [h]
  have hload : d.loadReserve.pwr = d.pwr := by
    refine foldl_keeps Dev.pwr _ (fun e b _ => ?_) d
    split
    · exact foldl_keeps Dev.pwr _ (fun e h _ => hm (e.setHm_onlyMem h _)) e
    · rfl
  have hpairs : ∀ e : Dev, ([0, 1].foldl (fun (d : Dev) (h : Nat) => (d.reloadPairs h 0).pinMessages h) e).pwr = e.pwr := fun e =>
    foldl_keeps Dev.pwr _ (fun e h _ => hm ((e.reloadPairs_onlyMem h 0).trans (Dev.pinMessages_hearths _ h).onlyMem)) e
  have hsyns : ∀ e : Dev, ([0, 1].foldl (fun (d : Dev) (x : Nat) => if !d.synEnabled x then d
      else if (d.syns x).refLost then (d.setSyns x { (d.syns x) with relock := .reference }).synState x 4
      else d.relock x false) e).pwr = e.pwr := fun e => by
    refine foldl_keeps Dev.pwr _ (fun e x hx => ?_) e
    have hx2 : x < 2 := by simp at hx; omega
    split
    · rfl
    · split
      · refine ((Dev.synState_acts _ ⟨x, hx2⟩ 4).rest.2.1).trans ?_
        rw [Dev.setSyns_eq]
      · have ho := (e.relock_relocked ⟨x, hx2⟩ false).outs.only
        dsimp only at ho
        rw [ho]
  unfold Dev.leaveBanked
  dsimp only
  rw [hsyns, hpairs, hload]

/-- The end of the exit from state `st` of a device without waiting commands. -/
def Dev.exited (d : Dev) (c : Nat) : Dev :=
  ({ d with pwr := { d.pwr with exiting := none, held := [] } } : Dev).powerState
    (min (if 3 ≤ d.rd Reg.PWR_STATUS_STATE then 1 else d.rd Reg.PWR_STATUS_STATE - 1) ({ d with pwr := { d.pwr with exiting := none, held := [] } } : Dev).powerTarget)
    (if c < 8 then some c else none)

/-- The registers of the power state. -/
def powerFields : List Fld := [Reg.PWR_STATUS_STATE, Reg.PWR_STATUS_PSTEV]

theorem Dev.powerState_told (d : Dev) {st : Nat} (hst : st < 8) (c : Nat) : let D := d.powerState st (if c < 8 then some c else none)
    ∃ cause, cause < 8 ∧ (c < 8 → cause = c) ∧ Dev.Acts powerFields [(1, 1, st + cause * 2 ^ 8)] { d with free := D.free } D ∧
      D.rd Reg.PWR_STATUS_STATE = st ∧ D.rd Reg.PWR_STATUS_PSTEV = 1 := by
  have key : ∀ (F : Dev) (k : Nat), Dev.Acts powerFields [(1, 1, st + k * 2 ^ 8)] F (((F.wr Reg.PWR_STATUS_STATE st).flag Reg.PWR_STATUS_PSTEV).post 1 1 (st + k * 2 ^ 8)) ∧
      (((F.wr Reg.PWR_STATUS_STATE st).flag Reg.PWR_STATUS_PSTEV).post 1 1 (st + k * 2 ^ 8)).rd Reg.PWR_STATUS_STATE = st ∧
      (((F.wr Reg.PWR_STATUS_STATE st).flag Reg.PWR_STATUS_PSTEV).post 1 1 (st + k * 2 ^ 8)).rd Reg.PWR_STATUS_PSTEV = 1 := fun F k => by
    refine ⟨((((Dev.Acts.refl _ F).wr st (by simp [powerFields]) rfl).flag (by simp [powerFields]) rfl)).post 1 1 _, ?_, ?_⟩
    · rw [Dev.post_rd, Dev.rd_flag_sep _ _ _ rfl, Dev.rd_wr_lt _ _ _ rfl hst]
    · rw [Dev.post_rd, Dev.rd_flag _ _ rfl]
  by_cases hc : c < 8
  · rw [if_pos hc]
    obtain ⟨k1, k2, k3⟩ := key d c
    exact ⟨c, hc, fun _ => rfl, k1, k2, k3⟩
  · rw [if_neg hc]
    obtain ⟨k1, k2, k3⟩ := key d.fresh.1 (d.fresh.2.toNat % 8)
    exact ⟨d.fresh.2.toNat % 8, Nat.mod_lt _ (by decide), fun h => absurd h hc, k1, k2, k3⟩

theorem Evq.settle_settle {s : State} {q : Evq} {es : List (Nat × Nat × Nat)} {b : Nat} (hq : q = { s.dev.evq with posts := es }) (hb : b < 32) (he : ∀ e ∈ es, e.1 = b)
    (hn : es.length ≤ 12) (hr : Room s) (n : Nat) : (q.settle n).settle n = q.settle n := by
  obtain ⟨hlen, -, hl⟩ := hr
  rw [hq, Evq.settle_block s.dev.evq n b es hb he hl (by omega)]
  exact Evq.settle_nil _ _ rfl hl

/-- The exit is over, and what waited for its end runs. -/
theorem exitDone_ends {x : NV × Dev} {c began : Nat} (he : x.2.pwr.exiting = some (c, began)) :
    (x.2.timeNs < began + 1000 * exitLat (x.2.rd Reg.PWR_STATUS_STATE) → exitDone x = x) ∧
    (¬ x.2.timeNs < began + 1000 * exitLat (x.2.rd Reg.PWR_STATUS_STATE) → x.2.pwr.held = [] → ∀ d st, st = x.2.rd Reg.PWR_STATUS_STATE →
      d = (if st = 4 then x.2.leaveBanked else x.2) →
      exitDone x = (x.1, (Dev.powerState { d with pwr := { d.pwr with exiting := none, held := [] } }
        (min (if 3 ≤ st then 1 else st - 1) (Dev.powerTarget { d with pwr := { d.pwr with exiting := none, held := [] } })) (if c < 8 then some c else none)).cycle)) := by
  constructor
  · intro h
    unfold exitDone
    rw [he]
    dsimp only
    rw [if_pos h]
  · intro h hh d st hst hd
    have hheld : d.pwr.held = [] := by
      rw [hd]
      split
      · rw [Dev.leaveBanked_pwr, hh]
      · exact hh
    unfold exitDone
    rw [he]
    dsimp only
    rw [if_neg h, ← hst, ← hd, hheld, List.foldl_nil]

theorem exitLat_eq {st : Nat} (h : st < 8) : exitLat st = [0, 32, 40, 2000].getD st 300000 := by interval_cases st <;> rfl

theorem pExitDone_ends (s : State) (ns : Nat) : let st := s.dev.rd Reg.PWR_STATUS_STATE
    (s.dev.pwr.exiting = none → ∃ t, Runs (.pExitDone ns) s t ∧ Keeps [] s t (s.dev.at ns) ∧ t.dev.pwr = s.dev.pwr) ∧
    ∀ c began, s.dev.pwr.exiting = some (c, began) →
      let ends := began + 1000 * [0, 32, 40, 2000].getD st 300000 ≤ (s.dev.at ns).timeNs
      (¬ ends → ∃ t, Runs (.pExitDone ns) s t ∧ Keeps [] s t (s.dev.at ns) ∧ t.dev.pwr = s.dev.pwr) ∧
      (ends → s.dev.pwr.held = [] → ∃ t, Runs (.pExitDone ns) s t ∧ t.dev.rd Reg.PWR_STATUS_PSTEV = 1 ∧
        t.dev.pwr = { s.dev.pwr with exiting := none } ∧
        t.dev.rd Reg.PWR_STATUS_STATE = min (if 3 ≤ st then 1 else st - 1) t.dev.powerTarget ∧
        (st ≠ 4 → OnlyFields [Reg.PWR_STATUS_STATE, Reg.PWR_STATUS_PSTEV] s t ∧
          t.dev = Around { s.dev.at ns with free := t.dev.free } t.dev ∧
          (Room s → ∃ cause, cause < 8 ∧ (c < 8 → cause = c) ∧ EntersAll s t [(1, 1, t.dev.rd Reg.PWR_STATUS_STATE + cause * 2 ^ 8)]))) := by
  intro st
  have hrun := exec_onBoth (show exec (.pExitDone ns) s = onBoth (fun x => exitDone (x.1, x.2.at ns)) s from rfl)
  dsimp only at hrun
  have hstay : exitDone (s.nv, s.dev.at ns) = (s.nv, s.dev.at ns) →
      ∃ t, Runs (.pExitDone ns) s t ∧ Keeps [] s t (s.dev.at ns) ∧ t.dev.pwr = s.dev.pwr := fun h => by
    rw [h] at hrun
    exact ⟨_, ⟨hrun, rfl, rfl⟩, ⟨fun _ _ => rfl, rfl⟩, rfl⟩
  refine ⟨fun hn => hstay ?_, fun c began he => ?_⟩
  · have hn' : (s.dev.at ns).pwr.exiting = none := hn
    unfold exitDone
    dsimp only
    rw [hn']
  intro ends
  have he' : (s.nv, s.dev.at ns).2.pwr.exiting = some (c, began) := he
  obtain ⟨h1, h2⟩ := exitDone_ends he'
  have hlat : exitLat st = [0, 32, 40, 2000].getD st 300000 := exitLat_eq (s.dev.rd_lt Reg.PWR_STATUS_STATE)
  have hcond : (s.dev.at ns).timeNs < began + 1000 * exitLat ((s.dev.at ns).rd Reg.PWR_STATUS_STATE) ↔ ¬ ends := by
    change _ < began + 1000 * exitLat st ↔ _
    rw [hlat]
    exact Nat.not_le.symm
  refine ⟨fun hn => hstay (h1 (hcond.mpr hn)), fun hends hheld => ?_⟩
  have heq := h2 (fun h => hcond.mp h hends) hheld _ st rfl rfl
  generalize hd : (if st = 4 then (s.nv, s.dev.at ns).2.leaveBanked else (s.nv, s.dev.at ns).2) = d at heq
  have hpw : d.pwr = s.dev.pwr := by
    rw [← hd]
    split
    · exact Dev.leaveBanked_pwr _
    · rfl
  have hp : ({ d.pwr with exiting := none, held := [] } : Pwr) = { s.dev.pwr with exiting := none } := by rw [hpw, ← hheld]
  rw [hp] at heq
  have hlt : min (if 3 ≤ st then 1 else st - 1) (Dev.powerTarget { d with pwr := { s.dev.pwr with exiting := none } }) < 8 :=
    lt_of_le_of_lt (Nat.min_le_right ..) (Dev.powerTarget_lt _)
  generalize hm : min (if 3 ≤ st then 1 else st - 1) (Dev.powerTarget { d with pwr := { s.dev.pwr with exiting := none } }) = m at heq hlt
  obtain ⟨cause, k1, k2, k3, k4, k5⟩ := Dev.powerState_told { d with pwr := { s.dev.pwr with exiting := none } } hlt c
  rw [heq] at hrun
  dsimp only at hrun
  generalize Dev.powerState { d with pwr := { s.dev.pwr with exiting := none } } m (if c < 8 then some c else none) = D at hrun k3 k4 k5
  have hrd : ∀ f, D.cycle.settle.rd f = D.rd f := fun f => Dev.settle_rd _ f
  have htg : D.cycle.settle.powerTarget = Dev.powerTarget { d with pwr := { s.dev.pwr with exiting := none } } :=
    Dev.powerTarget_congr (fun f hf => (hrd f).trans (k3.rd ((show ∀ f ∈ targetFields, Fld.clear powerFields f = true by decide) f hf)))
      (by change D.pwr.touchAt = _; rw [k3.rest.2.1]) (by change D.timeNs = _; rw [k3.rest.1]; rfl) (by change D.sch.jobs = _; rw [k3.rest.2.2.1])
  refine ⟨_, ⟨hrun, rfl, rfl⟩, (hrd _).trans k5, k3.rest.2.1, ?_, fun hn4 => ?_⟩
  · change D.cycle.settle.rd _ = min _ D.cycle.settle.powerTarget
    rw [hrd, htg, k4, hm]
  rw [if_neg hn4] at hd
  rw [← hd] at k3
  refine ⟨fun g hg ha => (hrd g).trans (k3.same g hg ha), ?_, fun hr => ⟨cause, k1, k2, ?_⟩⟩
  · dsimp only
    rw [k3.only]
    rfl
  · have hevq : D.evq = { s.dev.evq with posts := [(1, 1, D.rd Reg.PWR_STATUS_STATE + cause * 2 ^ 8)] } := by
      have h1 := congrArg Dev.evq k3.only
      dsimp only at h1
      rw [show (s.dev.at ns).evq = s.dev.evq from rfl, hr.2.1, List.nil_append, ← k4] at h1
      exact h1
    have hss := Evq.settle_settle hevq (b := 1) (by decide) (by simp) (by simp) hr D.schTick
    have hent := k3.enters (s := s) (t := { s with dev := D.settle }) rfl rfl 1 (by decide) (by simp) (by simp) hr rfl
    rw [← k4] at hent
    unfold EntersAll at hent ⊢
    dsimp only at hent ⊢
    rw [hrd, ← hent]
    exact congrArg Evq.q hss

theorem deepStatesAreLeft : DeepStatesAreLeft := ⟨powerTarget_permitted, wake_lands, pExitDone_ends⟩

/-! ### Rails -/

theorem Dev.rail_setRail (d : Dev) (n m : Nat) (x : Rail) : (d.setRail n x).rail m = if m = n then x else d.rail m := by
  simp only [Dev.rail, Dev.setRail, Sparse.get_put, eq_comm]

theorem Dev.rail_congr {d D : Dev} (h : D.pwr = d.pwr) (m : Nat) : D.rail m = d.rail m := by rw [Dev.rail, h, Dev.rail]

/-- The device behind the read-back `r` of rail `n`. -/
def Dev.railRead (d : Dev) (n r : Nat) : Dev := (d.wr (Reg.PWR_AVS_VREAD n) r).setRail n { d.rail n with readAt := some d.timeNs }

/-- The registers of a rail in error. -/
def railFields (n : Nat) : List Fld := [Reg.PWR_AVS_ERR n, Reg.PWR_AVSERR_COUNT, Reg.PWR_STATUS_AVSEV, Reg.PWR_STATUS_CNT_HALF]

/-- Rail `n`, read back as `r`, is in error. -/
def Dev.railErred (d : Dev) (n r : Nat) : Dev :=
  (((d.wr (Reg.PWR_AVS_ERR n) 1).count Reg.PWR_AVSERR_COUNT Reg.PWR_STATUS_CNT_HALF).flag Reg.PWR_STATUS_AVSEV).post 1 2 (n + 2 ^ 8 + r * 2 ^ 16)

theorem Dev.railErred_told (d : Dev) (n : Fin 3) (r : Nat) : Dev.Acts (railFields n) [(1, 2, n.val + 2 ^ 8 + r * 2 ^ 16)] d (d.railErred n r) ∧
    (d.railErred n r).rd (Reg.PWR_AVS_ERR n) = 1 ∧ (d.railErred n r).rd Reg.PWR_AVSERR_COUNT = (d.rd Reg.PWR_AVSERR_COUNT + 1) % 2 ^ 32 ∧
    (d.railErred n r).rd Reg.PWR_STATUS_AVSEV = 1 := by
  obtain ⟨ok, c1, c2, c3⟩ := (show ∀ n : Fin 3, (Reg.PWR_AVS_ERR n).ok = true ∧ Fld.clear [Reg.PWR_AVSERR_COUNT, Reg.PWR_STATUS_CNT_HALF] (Reg.PWR_AVS_ERR n) = true ∧
    Reg.PWR_STATUS_AVSEV.sep (Reg.PWR_AVS_ERR n) = true ∧ (Reg.PWR_AVS_ERR n).sep Reg.PWR_AVSERR_COUNT = true by decide) n
  unfold Dev.railErred
  have h1 := d.wr_acts (Reg.PWR_AVS_ERR n) 1 ok
  have v1 : (d.wr (Reg.PWR_AVS_ERR n) 1).rd (Reg.PWR_AVS_ERR n) = 1 := Dev.rd_flag _ _ ok
  have v2 := Dev.rd_wr_sep d _ _ 1 c3
  generalize d.wr (Reg.PWR_AVS_ERR n) 1 = A at h1 v1 v2
  have h2 := A.count_acts Reg.PWR_AVSERR_COUNT Reg.PWR_STATUS_CNT_HALF 1 rfl rfl
  have v3 : (A.count Reg.PWR_AVSERR_COUNT Reg.PWR_STATUS_CNT_HALF).rd Reg.PWR_AVSERR_COUNT = (A.rd Reg.PWR_AVSERR_COUNT + 1) % 2 ^ 32 := Dev.rd_count _ _ _ _ rfl rfl rfl
  generalize A.count Reg.PWR_AVSERR_COUNT Reg.PWR_STATUS_CNT_HALF = C at h2 v3
  have h12 : Dev.Acts (railFields n) [] d C := (h1.mono (by simp [railFields])).then (h2.mono (by simp [railFields]))
  refine ⟨(h12.flag (by simp [railFields]) rfl).post 1 2 _, ?_, ?_, ?_⟩
  · rw [Dev.post_rd, Dev.rd_flag_sep _ _ _ c2, h2.rd c1, v1]
  · rw [Dev.post_rd, Dev.rd_flag_sep _ _ _ rfl, v3, v2]
  · rw [Dev.post_rd, Dev.rd_flag _ _ rfl]

theorem Dev.railRead_told (d : Dev) (n : Fin 3) {r : Nat} (hr : r < 2 ^ 10) :
    Dev.Acts [Reg.PWR_AVS_VREAD n] [] { d with pwr := (d.railRead n r).pwr } (d.railRead n r) ∧ (d.railRead n r).rd (Reg.PWR_AVS_VREAD n) = r ∧
    (d.railRead n r).pwr = { d.pwr with rails := (d.railRead n r).pwr.rails } ∧
    ∀ m, (d.railRead n r).rail m = if m = n.val then { d.rail n with readAt := some d.timeNs } else d.rail m := by
  have ok : (Reg.PWR_AVS_VREAD n).ok = true := (show ∀ n : Fin 3, (Reg.PWR_AVS_VREAD n).ok = true by decide) n
  have hW := d.wr_acts (Reg.PWR_AVS_VREAD n) r ok
  have hv : (d.wr (Reg.PWR_AVS_VREAD n) r).rd (Reg.PWR_AVS_VREAD n) = r := Dev.rd_wr_lt _ _ _ ok hr
  unfold Dev.railRead
  generalize hx : ({ d.rail n with readAt := some d.timeNs } : Rail) = x
  generalize d.wr (Reg.PWR_AVS_VREAD n) r = W at hW hv ⊢
  refine ⟨⟨?_, hW.same⟩, hv, ?_, fun m => (W.rail_setRail n m x).trans ?_⟩
  · rw [Dev.setRail, hW.only]
  · rw [Dev.setRail, hW.only]
  · rw [Dev.rail_congr hW.rest.2.1]

theorem execAvs_eq (s : State) (n : Fin 3) (read : BitVec 10) (acked : Bool) (ns : Nat) : exec (.avs n read acked ns) s = onDev (fun d =>
    if ((d.at ns).rail n).readAt.elim false fun t => decide ((d.at ns).timeNs < t + 10000000) then d.at ns
    else if ((d.at ns).railRead n read.toNat).on Reg.PWR_CFG_AVS_EN && (!acked || (decide (((d.at ns).rail n).reqAt + 1000000 ≤ ((d.at ns).railRead n read.toNat).timeNs) &&
        (decide (read.toNat > (d.at ns).rd (Reg.PWR_AVS_VREQ n) + 15) || decide ((d.at ns).rd (Reg.PWR_AVS_VREQ n) > read.toNat + 15)))) then
      ((d.at ns).railRead n read.toNat).railErred n read.toNat
    else (d.at ns).railRead n read.toNat) s := rfl

theorem elim_iff {p : Nat → Prop} [DecidablePred p] (x : Option Nat) : (x.elim false fun t => decide (p t)) = true ↔ ∃ was, x = some was ∧ p was := by
  cases x with
  | none => simp
  | some was => simp

theorem railsAreReadBack : RailsAreReadBack := by
  intro s n read acked ns r now x v soon bad
  have hrun := runs_of_onDev (execAvs_eq s n read acked ns)
  have hsoon : (((s.dev.at ns).rail n).readAt.elim false fun t => decide ((s.dev.at ns).timeNs < t + 10000000)) = true ↔ soon := by
    rw [Dev.rail_congr (show (s.dev.at ns).pwr = s.dev.pwr from rfl) n]
    exact elim_iff (p := fun t => (s.dev.at ns).timeNs < t + 10000000) _
  refine ⟨fun h => ?_, fun h => ?_⟩
  · rw [if_pos (hsoon.mpr h)] at hrun
    exact ⟨_, hrun, ⟨fun _ _ => rfl, rfl⟩, rfl⟩
  rw [if_neg fun h' => h (hsoon.mp h')] at hrun
  have hsep : Fld.clear [Reg.PWR_AVS_VREAD n] Reg.PWR_CFG_AVS_EN = true := (show ∀ n : Fin 3, Fld.clear [Reg.PWR_AVS_VREAD n] Reg.PWR_CFG_AVS_EN = true by decide) n
  obtain ⟨hB, hr', hPr, hrail⟩ := (s.dev.at ns).railRead_told n read.isLt
  generalize (s.dev.at ns).railRead n read.toNat = B at hB hr' hPr hrail hrun
  have hbad : (B.on Reg.PWR_CFG_AVS_EN && (!acked || (decide (((s.dev.at ns).rail n).reqAt + 1000000 ≤ B.timeNs) &&
      (decide (r > (s.dev.at ns).rd (Reg.PWR_AVS_VREQ n) + 15) || decide ((s.dev.at ns).rd (Reg.PWR_AVS_VREQ n) > r + 15))))) = true ↔ bad := by
    rw [Bool.and_eq_true, Dev.on_true_iff, hB.rd hsep, hB.rest.1, Bool.or_eq_true, Bool.and_eq_true, Bool.or_eq_true, decide_eq_true_eq, decide_eq_true_eq,
      decide_eq_true_eq, Bool.not_eq_true']
    exact Iff.rfl
  -- what every read-back leaves
  have key : ∀ {fs : List Fld} {es : List (Nat × Nat × Nat)} {D : Dev}, Dev.Acts fs es B D → D.settle = Around (s.dev.at ns) D.settle ∧
      D.settle.pwr = { s.dev.pwr with rails := D.settle.pwr.rails } ∧ D.settle.rail n = { x with readAt := some now } ∧
      ∀ j, j ≠ n.val → D.settle.rail j = s.dev.rail j := by
    intro fs es D hD
    have hp : D.settle.pwr = B.pwr := hD.rest.2.1
    refine ⟨?_, by rw [hp]; exact hPr, ?_, fun j hj => ?_⟩
    · exact ((hB.mono (gs := _ ++ _) fun f hf => List.mem_append_left _ hf).trans (hD.mono fun f hf => List.mem_append_right _ hf)).around
    · exact (Dev.rail_congr hp n).trans ((hrail n).trans (if_pos rfl))
    · exact (Dev.rail_congr hp j).trans ((hrail j).trans (if_neg hj))
  by_cases hb : bad
  · rw [if_pos (hbad.mpr hb)] at hrun
    obtain ⟨e1, e2, e3, e4⟩ := B.railErred_told n r
    obtain ⟨c1, c2⟩ := (show ∀ n : Fin 3, Fld.clear (railFields n) (Reg.PWR_AVS_VREAD n) = true ∧ Fld.clear [Reg.PWR_AVS_VREAD n] Reg.PWR_AVSERR_COUNT = true by decide) n
    obtain ⟨k1, k2, k3, k4⟩ := key e1
    have hA : Dev.Acts ([Reg.PWR_AVS_VREAD n] ++ railFields n) ([] ++ [(1, 2, n.val + 2 ^ 8 + r * 2 ^ 16)]) { s.dev.at ns with pwr := B.pwr } (B.railErred n r) :=
      (hB.mono fun f hf => List.mem_append_left _ hf).trans (e1.mono fun f hf => List.mem_append_right _ hf)
    refine ⟨_, hrun, (e1.rd c1).trans hr', k1, k2, k3, k4, fun h' => absurd hb h', fun _ => ⟨e2, e3.trans ?_, e4, fun hroom => ?_, hA.same⟩⟩
    · rw [show B.rd Reg.PWR_AVSERR_COUNT = s.dev.rd Reg.PWR_AVSERR_COUNT from hB.rd c2]
    · exact hA.enters rfl rfl 1 (by decide) (by simp) (by simp) hroom rfl
  · rw [if_neg fun h' => hb (hbad.mp h')] at hrun
    obtain ⟨k1, k2, k3, k4⟩ := key (Dev.Acts.refl [] B)
    exact ⟨_, hrun, hr', k1, k2, k3, k4, fun _ => hB.same, fun h' => absurd h' hb⟩

end Sys2Proof.Machine
end

section
-- What runs beside a check is held in memory with it: the declarations of this section are elaborated in turn.
set_option Elab.async false
/-! Voltage and clock steps by the timing margins (R490, R491). -/
namespace Sys2Proof.Machine
open Sys2Proof.Claims

/-! ### What belongs to one domain -/

/-- The registers that the evaluation of domain `k` writes. -/
def marginFields (k : Nat) : List Fld :=
  [Reg.PWR_AVS_VREQ (railOf k), Reg.AGE_VSTEPCNT_COUNT, Reg.AGE_CSTEPCNT_COUNT, Reg.AGE_STATUS_CNT_HALF, Reg.AGE_STATUS_MRGEV]

/-- What a change in domain `k` that posts the events `es` leaves of the rest. -/
structure Dev.OnMargin (k : Nat) (es : List (Nat × Nat × Nat)) (d D : Dev) : Prop where
  only : D = { d with
    live := D.live
    evq := { d.evq with posts := d.evq.posts ++ es }
    pwr := { d.pwr with rails := D.pwr.rails }
    age := { d.age with a := D.age.a, b := D.age.b, core := D.age.core }
    sch := { d.sch with hA := { d.sch.hA with clkReq := D.sch.hA.clkReq }, hB := { d.sch.hB with clkReq := D.sch.hB.clkReq } } }
  same : Dev.SameBut (marginFields k) d D
  rails : ∀ j, j ≠ railOf k → D.rail j = d.rail j
  domains : ∀ j, j < 3 → j ≠ k → D.domain j = d.domain j
  clks : ∀ h, h < 2 → h ≠ k → (D.sh h).clkReq = (d.sh h).clkReq
  flag : d.rd Reg.AGE_STATUS_MRGEV = 1 → D.rd Reg.AGE_STATUS_MRGEV = 1

/-- What belongs to domain `k`: the request and the state of its rail, its counters, and the clock setting. -/
def Dev.marginOwn (k : Nat) (d : Dev) : Nat × Rail × Domain × Nat :=
  (d.rd (Reg.PWR_AVS_VREQ (railOf k)), d.rail (railOf k), d.domain k, if k = 2 then 2 else (d.sh k).clkReq)

theorem Dev.OnMargin.refl (k : Nat) (d : Dev) : Dev.OnMargin k [] d d :=
  ⟨by rw [List.append_nil], .refl _ d, fun _ _ => rfl, fun _ _ _ => rfl, fun _ _ _ => rfl, id⟩

section
variable {k : Nat} {es es' : List (Nat × Nat × Nat)} {d d' D : Dev}

theorem Dev.OnMargin.trans (h : Dev.OnMargin k es d d') (h' : Dev.OnMargin k es' d' D) : Dev.OnMargin k (es ++ es') d D := by
  refine ⟨?_, h.same.trans h'.same, fun j hj => (h'.rails j hj).trans (h.rails j hj), fun j hj hk => (h'.domains j hj hk).trans (h.domains j hj hk),
    fun i hi hk => (h'.clks i hi hk).trans (h.clks i hi hk), fun hf => h'.flag (h.flag hf)⟩
  rw [h'.only, h.only, List.append_assoc]

theorem Dev.OnMargin.then (h : Dev.OnMargin k es d d') (h' : Dev.OnMargin k [] d' D) : Dev.OnMargin k es d D := by
  have := h.trans h'
  rwa [List.append_nil] at this

theorem Dev.Acts.onMargin {fs : List Fld} (h : Dev.Acts fs es d D) (hs : ∀ f ∈ fs, f ∈ marginFields k) (hf : d.rd Reg.AGE_STATUS_MRGEV = 1 → D.rd Reg.AGE_STATUS_MRGEV = 1) :
    Dev.OnMargin k es d D := by
  have ha : D.age = d.age := by rw [h.only]
  refine ⟨by rw [h.only], h.same.mono hs, fun j _ => Dev.rail_congr h.rest.2.1 j, fun j _ _ => ?_, fun i _ _ => ?_, hf⟩
  · rw [Dev.domain, ha, Dev.domain]
  · rw [Dev.sh_congr h.rest.2.2.1]

end

/-! ### The steps -/

theorem Dev.domain_setDomain (d : Dev) {k j : Nat} (hk : k < 3) (hj : j < 3) (x : Domain) : (d.setDomain k x).domain j = if j = k then x else d.domain j := by
  interval_cases k <;> interval_cases j <;> rfl

theorem Dev.setDomain_onMargin (d : Dev) {k : Nat} (hk : k < 3) (x : Domain) : Dev.OnMargin k [] d (d.setDomain k x) ∧
    (d.setDomain k x).marginOwn k = (d.rd (Reg.PWR_AVS_VREQ (railOf k)), d.rail (railOf k), x, if k = 2 then 2 else (d.sh k).clkReq) := by
  have hd : ∃ a b c, d.setDomain k x = { d with age := { d.age with a := a, b := b, core := c } } := by
    interval_cases k
    · exact ⟨_, _, _, rfl⟩
    · exact ⟨_, _, _, rfl⟩
    · exact ⟨_, _, _, rfl⟩
  have hdom := fun {j : Nat} (hj : j < 3) => d.domain_setDomain hk hj x
  obtain ⟨a, b, c, hd⟩ := hd
  generalize d.setDomain k x = D at hd hdom
  have hr : ∀ f, D.rd f = d.rd f := fun f => by rw [hd]; rfl
  have hrail : ∀ j, D.rail j = d.rail j := fun j => Dev.rail_congr (by rw [hd]) j
  have hsh : ∀ j, D.sh j = d.sh j := fun j => Dev.sh_congr (by rw [hd]) j
  refine ⟨⟨?_, fun g _ _ => hr g, fun j _ => hrail j, fun j hj hn => (hdom hj).trans (if_neg hn), fun i _ _ => by rw [hsh], fun h => (hr _).trans h⟩, ?_⟩
  · rw [hd, List.append_nil]
  · rw [Dev.marginOwn, hr, hrail, hsh, hdom hk, if_pos rfl]

theorem marginFields_ok : ∀ k : Fin 3, ∀ f ∈ marginFields k, f.ok = true := by decide

theorem Dev.setVolt_onMargin (d : Dev) (k : Fin 3) {v : Nat} (hv : v < 2 ^ 10) : Dev.OnMargin k [] d (d.setVolt (railOf k) v) ∧
    (d.setVolt (railOf k) v).marginOwn k =
      (v, { d.rail (railOf k) with reqAt := d.timeNs }, d.domain k, if k.val = 2 then 2 else (d.sh k).clkReq) := by
  obtain ⟨ok, c1, c2⟩ := (show ∀ k : Fin 3, (Reg.PWR_AVS_VREQ (railOf k)).ok = true ∧ Fld.clear [Reg.PWR_AVS_VREQ (railOf k)] Reg.AGE_STATUS_MRGEV = true ∧
    Fld.clear [Reg.AGE_VSTEPCNT_COUNT, Reg.AGE_STATUS_CNT_HALF] (Reg.PWR_AVS_VREQ (railOf k)) = true by decide) k
  unfold Dev.setVolt
  have h1 := d.wr_acts (Reg.PWR_AVS_VREQ (railOf k)) v ok
  have v1 : (d.wr (Reg.PWR_AVS_VREQ (railOf k)) v).rd (Reg.PWR_AVS_VREQ (railOf k)) = v := Dev.rd_wr_lt _ _ _ ok hv
  have r1 : (d.wr (Reg.PWR_AVS_VREQ (railOf k)) v).rail (railOf k) = d.rail (railOf k) := rfl
  have n1 : (d.wr (Reg.PWR_AVS_VREQ (railOf k)) v).timeNs = d.timeNs := rfl
  generalize d.wr (Reg.PWR_AVS_VREQ (railOf k)) v = A at h1 v1 r1 n1
  have hA := h1.onMargin (k := k) (by simp [marginFields]) fun h => (h1.rd c1).trans h
  generalize ({ (d.rail (railOf k)) with reqAt := d.timeNs } : Rail) = x
  have hB : Dev.OnMargin k [] A (A.setRail (railOf k) x) :=
    ⟨by rw [List.append_nil]; rfl, fun _ _ _ => rfl, fun j hj => (A.rail_setRail _ j x).trans (if_neg hj), fun _ _ _ => rfl, fun _ _ _ => rfl, id⟩
  have rB := (A.rail_setRail (railOf k) (railOf k) x).trans (if_pos rfl)
  have vB : (A.setRail (railOf k) x).rd (Reg.PWR_AVS_VREQ (railOf k)) = v := v1
  have dB : (A.setRail (railOf k) x).age = d.age := by
    rw [show (A.setRail (railOf k) x).age = A.age from rfl, h1.only]
  have sB : (A.setRail (railOf k) x).sch = d.sch := h1.rest.2.2.1
  generalize A.setRail (railOf k) x = B at hB rB vB dB sB
  have h2 := B.count_acts Reg.AGE_VSTEPCNT_COUNT Reg.AGE_STATUS_CNT_HALF 1 rfl rfl
  have hC := h2.onMargin (k := k) (by simp [marginFields]) fun h => (h2.rd rfl).trans h
  generalize B.count Reg.AGE_VSTEPCNT_COUNT Reg.AGE_STATUS_CNT_HALF = C at h2 hC
  refine ⟨(hA.then hB).then hC, ?_⟩
  have ha : C.age = d.age := by rw [h2.only]; exact dB
  rw [Dev.marginOwn, h2.rd c2, vB, Dev.rail_congr h2.rest.2.1, rB, Dev.domain, ha, Dev.sh_congr (h2.rest.2.2.1.trans sB)]
  rfl

theorem Dev.clockStep_onMargin (d : Dev) (k : Fin 3) (hk : k.val < 2) (c : Nat) :
    Dev.OnMargin k [(2, 1, k.val + c * 2 + bit (decide ((d.sh k).clkReq < c)) * 2 ^ 8)] d (d.clockStep k c) ∧
    (d.clockStep k c).marginOwn k = (d.rd (Reg.PWR_AVS_VREQ (railOf k)), d.rail (railOf k), d.domain k, c) ∧ (d.clockStep k c).rd Reg.AGE_STATUS_MRGEV = 1 := by
  have c2 := (show ∀ k : Fin 3, Fld.clear [Reg.AGE_CSTEPCNT_COUNT, Reg.AGE_STATUS_CNT_HALF, Reg.AGE_STATUS_MRGEV] (Reg.PWR_AVS_VREQ (railOf k)) = true by decide) k
  unfold Dev.clockStep
  dsimp only
  generalize k.val + c * 2 + bit (decide ((d.sh k).clkReq < c)) * 2 ^ 8 = a
  obtain ⟨A, hA, cA, aA, pA, lA⟩ : ∃ A, A = d.setSh k { (d.sh k) with clkReq := c } ∧ (A.sh k).clkReq = c ∧ A.age = d.age ∧ A.pwr = d.pwr ∧ A.live = d.live := by
    refine ⟨_, rfl, by rw [Dev.setSh_sh_self], ?_, ?_, ?_⟩ <;> rw [Dev.setSh_only]
  have hB : Dev.OnMargin k [] d A := by
    refine ⟨?_, .of_live lA, fun j _ => Dev.rail_congr pA j, fun j _ _ => by rw [Dev.domain, aA, Dev.domain], fun i hi hn => ?_, fun h => ?_⟩
    · rw [List.append_nil, hA]
      obtain h0 | h1 := lt_two hk
      · rw [h0]
        rfl
      · rw [h1]
        rfl
    · have := d.sh_setSh_other { (d.sh k) with clkReq := c } hk
      rw [show i = 1 - k.val by omega, hA, this]
    · rw [Dev.rd_congr _ _ _ lA, h]
  rw [← hA]
  have h1 := A.count_acts Reg.AGE_CSTEPCNT_COUNT Reg.AGE_STATUS_CNT_HALF 1 rfl rfl
  generalize A.count Reg.AGE_CSTEPCNT_COUNT Reg.AGE_STATUS_CNT_HALF = C at h1
  have h2 : Dev.Acts [Reg.AGE_CSTEPCNT_COUNT, Reg.AGE_STATUS_CNT_HALF, Reg.AGE_STATUS_MRGEV] [(2, 1, a)] A ((C.flag Reg.AGE_STATUS_MRGEV).post 2 1 a) :=
    ((h1.mono (by simp)).flag (by simp) rfl).post _ _ _
  have hflag : ((C.flag Reg.AGE_STATUS_MRGEV).post 2 1 a).rd Reg.AGE_STATUS_MRGEV = 1 := (Dev.post_rd ..).trans (Dev.rd_flag _ _ rfl)
  generalize (C.flag Reg.AGE_STATUS_MRGEV).post 2 1 a = D at h2 hflag
  refine ⟨hB.trans (h2.onMargin (by simp [marginFields]) fun _ => hflag), ?_, hflag⟩
  have ha : D.age = d.age := by rw [h2.only]; exact aA
  rw [Dev.marginOwn, h2.rd c2, Dev.rd_congr _ _ _ lA, Dev.rail_congr (h2.rest.2.1.trans pA), Dev.domain, ha, Dev.sh_congr h2.rest.2.2.1, cA, if_neg (show ¬ k.val = 2 by omega)]
  rfl

/-! ### One evaluation -/

/-- The counters of domain `k` after a margin of `m` ps. -/
def Dev.counted (d : Dev) (k m : Nat) : Domain := {
  low := if m < d.rd Reg.AGE_MCFG_LOW then min 100000 ((d.domain k).low + 1) else 0
  high := if d.rd Reg.AGE_MCFG_HIGH < m then min 100000 ((d.domain k).high + 1) else 0
  up := (d.domain k).up.map fun n => min 100000 (n + 1)
  block := (d.domain k).block - 1 }

/-- What the evaluation of domain `k` with a margin of `m` ps leaves (R490). -/
structure MarginDone (s : State) (k m : Nat) (D : Dev) : Prop where
  raise : (marginActs s k m).raise → D.rd (Reg.PWR_AVS_VREQ (railOf k)) = s.dev.rd (Reg.PWR_AVS_VREQ (railOf k)) + 5
  lower : (marginActs s k m).lower → D.rd (Reg.PWR_AVS_VREQ (railOf k)) = s.dev.rd (Reg.PWR_AVS_VREQ (railOf k)) - 5
  moved : (marginActs s k m).raise ∨ (marginActs s k m).lower → D.rail (railOf k) = { s.dev.rail (railOf k) with reqAt := s.dev.timeNs }
  kept : ¬ (marginActs s k m).raise → ¬ (marginActs s k m).lower →
    D.rd (Reg.PWR_AVS_VREQ (railOf k)) = s.dev.rd (Reg.PWR_AVS_VREQ (railOf k)) ∧ D.rail (railOf k) = s.dev.rail (railOf k)
  down : (marginActs s k m).down → (D.sh k).clkReq = (s.dev.sh k).clkReq + 1 ∧
    D.domain k = { (marginActs s k m).x with block := if ∃ u, (marginActs s k m).x.up = some u ∧ u ≤ 10000 then 3600000 else (marginActs s k m).x.block }
  up : (marginActs s k m).up → (D.sh k).clkReq = (s.dev.sh k).clkReq - 1 ∧ D.domain k = { (marginActs s k m).x with up := some 0 }
  still : ¬ (marginActs s k m).down → ¬ (marginActs s k m).up →
    D.domain k = (marginActs s k m).x ∧ (k < 2 → (D.sh k).clkReq = (s.dev.sh k).clkReq)
  flag : (marginActs s k m).down ∨ (marginActs s k m).up ∨ (marginActs s k m).crit → D.rd Reg.AGE_STATUS_MRGEV = 1

section
variable {s : State} {k m : Nat} {D : Dev}

theorem marginDone_of {v : Nat} {r : Rail} {x : Domain} {c : Nat} (hown : D.marginOwn k = (v, r, x, c))
    (hv : ((marginActs s k m).raise ∧ ¬ (marginActs s k m).lower ∧ v = s.dev.rd (Reg.PWR_AVS_VREQ (railOf k)) + 5 ∧
        r = { s.dev.rail (railOf k) with reqAt := s.dev.timeNs }) ∨
      ((marginActs s k m).lower ∧ ¬ (marginActs s k m).raise ∧ v = s.dev.rd (Reg.PWR_AVS_VREQ (railOf k)) - 5 ∧
        r = { s.dev.rail (railOf k) with reqAt := s.dev.timeNs }) ∨
      (¬ (marginActs s k m).raise ∧ ¬ (marginActs s k m).lower ∧ v = s.dev.rd (Reg.PWR_AVS_VREQ (railOf k)) ∧ r = s.dev.rail (railOf k)))
    (hx : ((marginActs s k m).down ∧ ¬ (marginActs s k m).up ∧ k < 2 ∧ c = (s.dev.sh k).clkReq + 1 ∧
        x = { (marginActs s k m).x with block := if ∃ u, (marginActs s k m).x.up = some u ∧ u ≤ 10000 then 3600000 else (marginActs s k m).x.block }) ∨
      ((marginActs s k m).up ∧ ¬ (marginActs s k m).down ∧ k < 2 ∧ c = (s.dev.sh k).clkReq - 1 ∧ x = { (marginActs s k m).x with up := some 0 }) ∨
      (¬ (marginActs s k m).down ∧ ¬ (marginActs s k m).up ∧ c = (if k = 2 then 2 else (s.dev.sh k).clkReq) ∧ x = (marginActs s k m).x))
    (hf : (marginActs s k m).down ∨ (marginActs s k m).up ∨ (marginActs s k m).crit → D.rd Reg.AGE_STATUS_MRGEV = 1) : MarginDone s k m D := by
  have h1 : D.rd (Reg.PWR_AVS_VREQ (railOf k)) = v := congrArg Prod.fst hown
  have h2 : D.rail (railOf k) = r := congrArg (fun p => p.2.1) hown
  have h3 : D.domain k = x := congrArg (fun p => p.2.2.1) hown
  have h4 : k < 2 → (D.sh k).clkReq = c := fun hk => by
    have := congrArg (fun p => p.2.2.2) hown
    rwa [Dev.marginOwn, if_neg (show ¬ k = 2 by omega)] at this
  obtain ⟨v1, v2, v3, v4⟩ : ((marginActs s k m).raise → v = s.dev.rd (Reg.PWR_AVS_VREQ (railOf k)) + 5) ∧
      ((marginActs s k m).lower → v = s.dev.rd (Reg.PWR_AVS_VREQ (railOf k)) - 5) ∧
      ((marginActs s k m).raise ∨ (marginActs s k m).lower → r = { s.dev.rail (railOf k) with reqAt := s.dev.timeNs }) ∧
      (¬ (marginActs s k m).raise → ¬ (marginActs s k m).lower → v = s.dev.rd (Reg.PWR_AVS_VREQ (railOf k)) ∧ r = s.dev.rail (railOf k)) := by
    rcases hv with ⟨a, b, e, f⟩ | ⟨a, b, e, f⟩ | ⟨a, b, e, f⟩
    · exact ⟨fun _ => e, fun h => absurd h b, fun _ => f, fun h => absurd a h⟩
    · exact ⟨fun h => absurd h b, fun _ => e, fun _ => f, fun _ h => absurd a h⟩
    · exact ⟨fun h => absurd h a, fun h => absurd h b, fun h => absurd h (not_or.mpr ⟨a, b⟩), fun _ _ => ⟨e, f⟩⟩
  refine ⟨fun h => h1.trans (v1 h), fun h => h1.trans (v2 h), fun h => h2.trans (v3 h), fun h h' => ⟨h1.trans (v4 h h').1, h2.trans (v4 h h').2⟩, fun h => ?_, fun h => ?_, fun h h' => ?_, hf⟩
  · rcases hx with ⟨-, -, hk, e, f⟩ | ⟨-, b, -⟩ | ⟨a, -⟩
    · exact ⟨(h4 hk).trans e, h3.trans f⟩
    · exact absurd h b
    · exact absurd h a
  · rcases hx with ⟨-, b, -⟩ | ⟨-, -, hk, e, f⟩ | ⟨-, b, -⟩
    · exact absurd h b
    · exact ⟨(h4 hk).trans e, h3.trans f⟩
    · exact absurd h b
  · rcases hx with ⟨a, -⟩ | ⟨a, -⟩ | ⟨-, -, e, f⟩
    · exact absurd a h
    · exact absurd a h'
    · exact ⟨h3.trans f, fun hk => (h4 hk).trans (e.trans (if_neg (by omega)))⟩

theorem marginPosts_none (h1 : ¬ (marginActs s k m).down) (h2 : ¬ (marginActs s k m).up) (h3 : ¬ (marginActs s k m).crit) : MarginPosts s k m [] :=
  ⟨fun h => absurd h h1, fun h => absurd h h2, fun h => absurd h h3, fun _ _ _ => rfl⟩

theorem marginPosts_down (h1 : (marginActs s k m).down) (h2 : ¬ (marginActs s k m).up) (h3 : ¬ (marginActs s k m).crit) :
    MarginPosts s k m [(2, 1, k + ((s.dev.sh k).clkReq + 1) * 2 + 2 ^ 8)] :=
  ⟨fun _ => rfl, fun h => absurd h h2, fun h => absurd h h3, fun h => absurd h1 h⟩

theorem marginPosts_up (h1 : ¬ (marginActs s k m).down) (h2 : (marginActs s k m).up) (h3 : ¬ (marginActs s k m).crit) :
    MarginPosts s k m [(2, 1, k + ((s.dev.sh k).clkReq - 1) * 2)] :=
  ⟨fun h => absurd h h1, fun _ => rfl, fun h => absurd h h3, fun _ h => absurd h2 h⟩

theorem marginPosts_crit (h1 : ¬ (marginActs s k m).down) (h2 : ¬ (marginActs s k m).up) (h3 : (marginActs s k m).crit) :
    MarginPosts s k m [(2, 2, 2 + m * 2 ^ 8)] :=
  ⟨fun h => absurd h h1, fun h => absurd h h2, fun _ => rfl, fun _ _ h => absurd h3 h⟩

end

/-- The request of rail `n` may move to `v`. -/
theorem Dev.railFree_iff (d : Dev) (n : Fin 3) : d.railFree n = true ↔ d.rd Reg.PWR_CFG_AVS_EN = 1 ∧ d.rd (Reg.PWR_AVS_ERR n) = 0 := by
  rw [Dev.railFree, Bool.and_eq_true, Dev.on_true_iff, Bool.not_eq_true', Dev.on_false_iff _ rfl]

theorem Dev.stepDown_onMargin (d : Dev) (k : Fin 3) (hk : k.val < 2) :
    Dev.OnMargin k [(2, 1, k.val + ((d.sh k).clkReq + 1) * 2 + 2 ^ 8)] d (d.stepDown k) ∧
    (d.stepDown k).marginOwn k = (d.rd (Reg.PWR_AVS_VREQ (railOf k)), d.rail (railOf k),
      { d.domain k with block := if ∃ u, (d.domain k).up = some u ∧ u ≤ 10000 then 3600000 else (d.domain k).block }, (d.sh k).clkReq + 1) ∧
    (d.stepDown k).rd Reg.AGE_STATUS_MRGEV = 1 := by
  have hx : (if (d.domain k).up.elim false fun n => decide (n ≤ 10000) then 3600000 else (d.domain k).block) =
      if ∃ u, (d.domain k).up = some u ∧ u ≤ 10000 then 3600000 else (d.domain k).block :=
    if_congr (elim_iff (p := fun n => n ≤ 10000) _) rfl rfl
  unfold Dev.stepDown
  dsimp only
  rw [hx]
  generalize ({ d.domain k with block := if ∃ u, (d.domain k).up = some u ∧ u ≤ 10000 then 3600000 else (d.domain k).block } : Domain) = x
  obtain ⟨h1, o1⟩ := d.setDomain_onMargin k.isLt x
  have hsh : (d.setDomain k x).sh k = d.sh k := Dev.sh_congr (by unfold Dev.setDomain; split <;> [rfl; (split <;> rfl)]) k
  have v1 : (d.setDomain k x).rd (Reg.PWR_AVS_VREQ (railOf k)) = d.rd (Reg.PWR_AVS_VREQ (railOf k)) := congrArg Prod.fst o1
  have v2 : (d.setDomain k x).rail (railOf k) = d.rail (railOf k) := congrArg (fun p => p.2.1) o1
  have v3 : (d.setDomain k x).domain k = x := congrArg (fun p => p.2.2.1) o1
  generalize d.setDomain k x = A at h1 hsh v1 v2 v3
  obtain ⟨h2, o2, f2⟩ := A.clockStep_onMargin k hk ((d.sh k).clkReq + 1)
  rw [hsh, decide_eq_true (Nat.lt_succ_self _)] at h2
  rw [hsh]
  refine ⟨?_, ?_, f2⟩
  · have := h1.trans h2
    exact this
  · rw [o2, v1, v2, v3]

/-- The voltage part of an evaluation with a margin above HIGH. -/
def Dev.eased (A : Dev) (k : Nat) (x : Domain) : Dev :=
  if x.high ≥ 10000 ∧ A.rd Reg.PWR_AVSCFG_VMIN + 5 ≤ A.rd (Reg.PWR_AVS_VREQ (railOf k)) ∧ A.railFree (railOf k) then
    A.setVolt (railOf k) (A.rd (Reg.PWR_AVS_VREQ (railOf k)) - 5) else A

theorem Dev.evalMargin_eq (d A : Dev) (k m : Nat) (hA : A = d.setDomain k (d.counted k m)) : d.evalMargin k m =
    if m < A.rd Reg.AGE_MCFG_CRIT ∧ (if k = 2 then 2 else (A.sh k).clkReq) < 2 then A.stepDown k
    else if m < d.rd Reg.AGE_MCFG_LOW then
      if A.rd (Reg.PWR_AVS_VREQ (railOf k)) + 5 ≤ A.rd Reg.PWR_AVSCFG_VMAX ∧ A.railFree (railOf k) then
        A.setVolt (railOf k) (A.rd (Reg.PWR_AVS_VREQ (railOf k)) + 5)
      else if (d.counted k m).low ≥ 100 ∧ (if k = 2 then 2 else (A.sh k).clkReq) < 2 then A.stepDown k
      else if k = 2 ∧ m < A.rd Reg.AGE_MCFG_CRIT ∧ A.rd (Reg.PWR_AVS_VREQ (railOf k)) + 5 > A.rd Reg.PWR_AVSCFG_VMAX then
        (A.flag Reg.AGE_STATUS_MRGEV).post 2 2 (2 + m * 2 ^ 8)
      else A
    else if m > d.rd Reg.AGE_MCFG_HIGH then
      if (A.eased k (d.counted k m)).on Reg.AGE_CFG_UPSTEP ∧ k < 2 ∧ 0 < (if k = 2 then 2 else (A.sh k).clkReq) ∧
          (d.counted k m).high ≥ 60000 ∧ (d.counted k m).block = 0 then
        ((A.eased k (d.counted k m)).setDomain k { d.counted k m with up := some 0 }).clockStep k ((if k = 2 then 2 else (A.sh k).clkReq) - 1)
      else A.eased k (d.counted k m)
    else A := by
  rw [hA]
  rfl

/-- The registers that decide an evaluation. -/
def marginInputs : List Fld := [Reg.AGE_MCFG_CRIT, Reg.AGE_MCFG_LOW, Reg.AGE_MCFG_HIGH, Reg.PWR_AVSCFG_VMIN, Reg.PWR_AVSCFG_VMAX, Reg.PWR_CFG_AVS_EN,
  Reg.PWR_AVS_ERR 0, Reg.PWR_AVS_ERR 1, Reg.PWR_AVS_ERR 2, Reg.AGE_CFG_UPSTEP]

theorem marginInputs_clear : ∀ k : Fin 3, marginInputs.all (Fld.clear (marginFields k)) = true := by decide

theorem Dev.OnMargin.inputs {k : Fin 3} {es : List (Nat × Nat × Nat)} {d D : Dev} (h : Dev.OnMargin k es d D) : ∀ f ∈ marginInputs, D.rd f = d.rd f :=
  h.same.rds (marginInputs_clear k)

theorem railErr_input : ∀ n : Fin 3, Reg.PWR_AVS_ERR n ∈ marginInputs := by decide

theorem railOf_lt : ∀ k : Fin 3, railOf k < 3 := by decide

theorem Dev.OnMargin.railFree {k : Fin 3} {es : List (Nat × Nat × Nat)} {d D : Dev} (h : Dev.OnMargin k es d D) (n : Fin 3) :
    D.railFree n = true ↔ d.rd Reg.PWR_CFG_AVS_EN = 1 ∧ d.rd (Reg.PWR_AVS_ERR n) = 0 := by
  rw [D.railFree_iff n, h.inputs _ (by decide), h.inputs _ (railErr_input n)]

theorem Dev.Acts.marginOwn {fs : List Fld} {es : List (Nat × Nat × Nat)} {d D : Dev} (h : Dev.Acts fs es d D) {k : Nat}
    (hc : Fld.clear fs (Reg.PWR_AVS_VREQ (railOf k)) = true) : D.marginOwn k = d.marginOwn k := by
  have ha : D.age = d.age := by rw [h.only]
  rw [Dev.marginOwn, h.rd hc, Dev.rail_congr h.rest.2.1, Dev.domain, ha, Dev.sh_congr h.rest.2.2.1]
  rfl

theorem Dev.evalMargin_done (s : State) (k : Fin 3) (m : Nat) : ∃ es, Dev.OnMargin k es s.dev (s.dev.evalMargin k m) ∧
    MarginDone s k m (s.dev.evalMargin k m) ∧ MarginPosts s k m es := by
  have heq := s.dev.evalMargin_eq _ k m rfl
  obtain ⟨h1, o1⟩ := s.dev.setDomain_onMargin k.isLt (s.dev.counted k m)
  have hsh : (s.dev.setDomain k (s.dev.counted k m)).sh k = s.dev.sh k := Dev.sh_congr (by unfold Dev.setDomain; split <;> [rfl; (split <;> rfl)]) k
  have hns : (s.dev.setDomain k (s.dev.counted k m)).timeNs = s.dev.timeNs := by unfold Dev.setDomain; split <;> [rfl; (split <;> rfl)]
  generalize s.dev.setDomain k (s.dev.counted k m) = A at h1 o1 heq hsh hns
  have v1 : A.rd (Reg.PWR_AVS_VREQ (railOf k)) = s.dev.rd (Reg.PWR_AVS_VREQ (railOf k)) := congrArg Prod.fst o1
  have v2 : A.rail (railOf k) = s.dev.rail (railOf k) := congrArg (fun p => p.2.1) o1
  have v3 : A.domain k = s.dev.counted k m := congrArg (fun p => p.2.2.1) o1
  have hin := h1.inputs
  have hfree := h1.railFree ⟨railOf k, railOf_lt k⟩
  rw [hsh, v1, hin _ (by decide), hin _ (by decide)] at heq
  have hvm : s.dev.rd Reg.PWR_AVSCFG_VMAX < 2 ^ 10 := s.dev.rd_lt Reg.PWR_AVSCFG_VMAX
  have hv : s.dev.rd (Reg.PWR_AVS_VREQ (railOf k)) < 2 ^ 10 := s.dev.rd_lt (Reg.PWR_AVS_VREQ (railOf k))
  -- the decision of R490
  have hslow : ((if k.val = 2 then 2 else (s.dev.sh k).clkReq) < 2) ↔ k.val < 2 ∧ (s.dev.sh k).clkReq < 2 := by
    have := k.isLt
    split <;> omega
  have hR : (marginActs s k m).raise ↔ ¬ (m < s.dev.rd Reg.AGE_MCFG_CRIT ∧ k.val < 2 ∧ (s.dev.sh k).clkReq < 2) ∧ m < s.dev.rd Reg.AGE_MCFG_LOW ∧
      s.dev.rd (Reg.PWR_AVS_VREQ (railOf k)) + 5 ≤ s.dev.rd Reg.PWR_AVSCFG_VMAX ∧ s.dev.rd Reg.PWR_CFG_AVS_EN = 1 ∧ s.dev.rd (Reg.PWR_AVS_ERR (railOf k)) = 0 := Iff.rfl
  have hL : (marginActs s k m).lower ↔ ¬ (m < s.dev.rd Reg.AGE_MCFG_CRIT ∧ k.val < 2 ∧ (s.dev.sh k).clkReq < 2) ∧ s.dev.rd Reg.AGE_MCFG_LOW ≤ m ∧
      s.dev.rd Reg.AGE_MCFG_HIGH < m ∧ 10000 ≤ (s.dev.counted k m).high ∧ s.dev.rd Reg.PWR_AVSCFG_VMIN + 5 ≤ s.dev.rd (Reg.PWR_AVS_VREQ (railOf k)) ∧
      s.dev.rd Reg.PWR_CFG_AVS_EN = 1 ∧ s.dev.rd (Reg.PWR_AVS_ERR (railOf k)) = 0 := Iff.rfl
  have hD : (marginActs s k m).down ↔ (m < s.dev.rd Reg.AGE_MCFG_CRIT ∧ k.val < 2 ∧ (s.dev.sh k).clkReq < 2) ∨ (m < s.dev.rd Reg.AGE_MCFG_LOW ∧
      ¬ (s.dev.rd (Reg.PWR_AVS_VREQ (railOf k)) + 5 ≤ s.dev.rd Reg.PWR_AVSCFG_VMAX ∧ s.dev.rd Reg.PWR_CFG_AVS_EN = 1 ∧ s.dev.rd (Reg.PWR_AVS_ERR (railOf k)) = 0) ∧
      100 ≤ (s.dev.counted k m).low ∧ k.val < 2 ∧ (s.dev.sh k).clkReq < 2) := Iff.rfl
  have hU : (marginActs s k m).up ↔ ¬ (m < s.dev.rd Reg.AGE_MCFG_CRIT ∧ k.val < 2 ∧ (s.dev.sh k).clkReq < 2) ∧ s.dev.rd Reg.AGE_MCFG_LOW ≤ m ∧
      s.dev.rd Reg.AGE_MCFG_HIGH < m ∧ s.dev.rd Reg.AGE_CFG_UPSTEP = 1 ∧ k.val < 2 ∧ 0 < (s.dev.sh k).clkReq ∧ 60000 ≤ (s.dev.counted k m).high ∧
      (s.dev.counted k m).block = 0 := Iff.rfl
  have hC : (marginActs s k m).crit ↔ k.val = 2 ∧ m < s.dev.rd Reg.AGE_MCFG_LOW ∧ m < s.dev.rd Reg.AGE_MCFG_CRIT ∧
      s.dev.rd Reg.PWR_AVSCFG_VMAX < s.dev.rd (Reg.PWR_AVS_VREQ (railOf k)) + 5 := Iff.rfl
  have hX : (marginActs s k m).x = s.dev.counted k m := rfl
  have step : k.val < 2 → (marginActs s k m).down → ¬ (marginActs s k m).up → ¬ (marginActs s k m).raise → ¬ (marginActs s k m).lower → ¬ (marginActs s k m).crit →
      s.dev.evalMargin k m = A.stepDown k → ∃ es, Dev.OnMargin k es s.dev (s.dev.evalMargin k m) ∧ MarginDone s k m (s.dev.evalMargin k m) ∧ MarginPosts s k m es := by
    intro hk hd hu hr hl hc he
    obtain ⟨d1, d2, d3⟩ := A.stepDown_onMargin k hk
    rw [hsh] at d1 d2
    rw [v1, v2, v3] at d2
    rw [he]
    exact ⟨_, h1.trans d1, marginDone_of d2 (.inr (.inr ⟨hr, hl, rfl, rfl⟩)) (.inl ⟨hd, hu, hk, rfl, rfl⟩) fun _ => d3, marginPosts_down hd hu hc⟩
  generalize hcr : s.dev.rd Reg.AGE_MCFG_CRIT = crit at heq hR hL hD hU hC
  generalize hlo : s.dev.rd Reg.AGE_MCFG_LOW = low at heq hR hL hD hU hC
  generalize hhi : s.dev.rd Reg.AGE_MCFG_HIGH = high at heq hR hL hD hU hC
  generalize s.dev.evalMargin k m = E at heq step ⊢
  by_cases hurg : m < crit ∧ k.val < 2 ∧ (s.dev.sh k).clkReq < 2
  · rw [if_pos ⟨hurg.1, hslow.mpr hurg.2⟩] at heq
    exact step hurg.2.1 (hD.mpr (.inl hurg)) (fun h => (hU.mp h).1 hurg) (fun h => (hR.mp h).1 hurg) (fun h => (hL.mp h).1 hurg)
      (fun h => by have := (hC.mp h).1; omega) heq
  rw [if_neg fun h => hurg ⟨h.1, hslow.mp h.2⟩] at heq
  by_cases hm : m < low
  · have hl : ¬ (marginActs s k m).lower := fun h => Nat.not_le.mpr hm (hL.mp h).2.1
    have hu : ¬ (marginActs s k m).up := fun h => Nat.not_le.mpr hm (hU.mp h).2.1
    rw [if_pos hm] at heq
    by_cases hroom : s.dev.rd (Reg.PWR_AVS_VREQ (railOf k)) + 5 ≤ s.dev.rd Reg.PWR_AVSCFG_VMAX ∧ s.dev.rd Reg.PWR_CFG_AVS_EN = 1 ∧ s.dev.rd (Reg.PWR_AVS_ERR (railOf k)) = 0
    · rw [if_pos ⟨hroom.1, hfree.mpr hroom.2⟩] at heq
      have hd : ¬ (marginActs s k m).down := fun h => (hD.mp h).elim hurg fun h => h.2.1 hroom
      have hc : ¬ (marginActs s k m).crit := fun h => by have := (hC.mp h).2.2.2; omega
      obtain ⟨d1, d2⟩ := A.setVolt_onMargin k (show s.dev.rd (Reg.PWR_AVS_VREQ (railOf k)) + 5 < 2 ^ 10 by omega)
      rw [v2, v3, hsh, hns] at d2
      rw [heq]
      exact ⟨[], h1.then d1, marginDone_of d2 (.inl ⟨hR.mpr ⟨hurg, hm, hroom⟩, hl, rfl, rfl⟩) (.inr (.inr ⟨hd, hu, rfl, hX.symm⟩))
        fun h => absurd h (not_or.mpr ⟨hd, not_or.mpr ⟨hu, hc⟩⟩), marginPosts_none hd hu hc⟩
    · have hr : ¬ (marginActs s k m).raise := fun h => hroom (hR.mp h).2.2
      rw [if_neg fun h => hroom ⟨h.1, hfree.mp h.2⟩] at heq
      by_cases hlong : 100 ≤ (s.dev.counted k m).low ∧ k.val < 2 ∧ (s.dev.sh k).clkReq < 2
      · rw [if_pos ⟨hlong.1, hslow.mpr hlong.2⟩] at heq
        exact step hlong.2.1 (hD.mpr (.inr ⟨hm, hroom, hlong⟩)) hu hr hl (fun h => by have := (hC.mp h).1; omega) heq
      · rw [if_neg fun h => hlong ⟨h.1, hslow.mp h.2⟩] at heq
        have hd : ¬ (marginActs s k m).down := fun h => (hD.mp h).elim hurg fun h => hlong h.2.2
        have hcr2 : (marginActs s k m).crit ↔ k.val = 2 ∧ m < crit ∧ s.dev.rd (Reg.PWR_AVS_VREQ (railOf k)) + 5 > s.dev.rd Reg.PWR_AVSCFG_VMAX :=
          hC.trans ⟨fun h => ⟨h.1, h.2.2⟩, fun h => ⟨h.1, hm, h.2⟩⟩
        by_cases hc : (marginActs s k m).crit
        · rw [if_pos (hcr2.mp hc)] at heq
          have d1 : Dev.Acts [Reg.AGE_STATUS_MRGEV] [(2, 2, 2 + m * 2 ^ 8)] A E := by
            rw [heq]
            exact ((Dev.Acts.refl _ A).flag (by simp) rfl).post 2 2 _
          have f1 : E.rd Reg.AGE_STATUS_MRGEV = 1 := by
            rw [heq]
            exact (Dev.post_rd ..).trans (Dev.rd_flag _ _ rfl)
          have d2 := (d1.marginOwn (k := k) ((show ∀ k : Fin 3, Fld.clear [Reg.AGE_STATUS_MRGEV] (Reg.PWR_AVS_VREQ (railOf k)) = true by decide) k)).trans o1
          exact ⟨_, h1.trans (d1.onMargin (by simp [marginFields]) fun _ => f1), marginDone_of d2 (.inr (.inr ⟨hr, hl, rfl, rfl⟩)) (.inr (.inr ⟨hd, hu, rfl, hX.symm⟩))
            fun _ => f1, marginPosts_crit hd hu hc⟩
        · rw [if_neg fun h => hc (hcr2.mpr h)] at heq
          rw [heq]
          exact ⟨[], h1, marginDone_of o1 (.inr (.inr ⟨hr, hl, rfl, rfl⟩)) (.inr (.inr ⟨hd, hu, rfl, hX.symm⟩))
            fun h => absurd h (not_or.mpr ⟨hd, not_or.mpr ⟨hu, hc⟩⟩), marginPosts_none hd hu hc⟩
  · have hr : ¬ (marginActs s k m).raise := fun h => hm (hR.mp h).2.1
    have hd : ¬ (marginActs s k m).down := fun h => (hD.mp h).elim hurg fun h => hm h.1
    have hc : ¬ (marginActs s k m).crit := fun h => hm (hC.mp h).2.1
    rw [if_neg hm] at heq
    by_cases hh : high < m
    · rw [if_pos hh] at heq
      -- the voltage part
      have hlow : (marginActs s k m).lower ↔ (s.dev.counted k m).high ≥ 10000 ∧ A.rd Reg.PWR_AVSCFG_VMIN + 5 ≤ A.rd (Reg.PWR_AVS_VREQ (railOf k)) ∧
          A.railFree (railOf k) = true := by
        rw [hfree, hin Reg.PWR_AVSCFG_VMIN (by decide), v1]
        exact hL.trans ⟨fun h => h.2.2.2, fun h => ⟨hurg, Nat.le_of_not_lt hm, hh, h⟩⟩
      obtain ⟨v, r, e1, e2, e3⟩ : ∃ v r, Dev.OnMargin k [] A (A.eased k (s.dev.counted k m)) ∧
          (A.eased k (s.dev.counted k m)).marginOwn k = (v, r, s.dev.counted k m, if k.val = 2 then 2 else (s.dev.sh k).clkReq) ∧
          (((marginActs s k m).lower ∧ ¬ (marginActs s k m).raise ∧ v = s.dev.rd (Reg.PWR_AVS_VREQ (railOf k)) - 5 ∧ r = { s.dev.rail (railOf k) with reqAt := s.dev.timeNs }) ∨
          (¬ (marginActs s k m).raise ∧ ¬ (marginActs s k m).lower ∧ v = s.dev.rd (Reg.PWR_AVS_VREQ (railOf k)) ∧ r = s.dev.rail (railOf k))) := by
        unfold Dev.eased
        by_cases hl : (marginActs s k m).lower
        · rw [if_pos (hlow.mp hl), v1]
          obtain ⟨d1, d2⟩ := A.setVolt_onMargin k (show s.dev.rd (Reg.PWR_AVS_VREQ (railOf k)) - 5 < 2 ^ 10 by omega)
          rw [v2, v3, hsh, hns] at d2
          exact ⟨_, _, d1, d2, .inl ⟨hl, hr, rfl, rfl⟩⟩
        · rw [if_neg fun h => hl (hlow.mpr h)]
          exact ⟨_, _, .refl _ A, o1, .inr ⟨hr, hl, rfl, rfl⟩⟩
      generalize A.eased k (s.dev.counted k m) = B at heq e1 e2
      have hBs : B.on Reg.AGE_CFG_UPSTEP = true ↔ s.dev.rd Reg.AGE_CFG_UPSTEP = 1 := by
        rw [Dev.on_true_iff, e1.inputs _ (by decide), hin _ (by decide)]
      -- the clock part
      have hup : (marginActs s k m).up ↔ B.on Reg.AGE_CFG_UPSTEP = true ∧ k.val < 2 ∧ 0 < (if k.val = 2 then 2 else (s.dev.sh k).clkReq) ∧
          (s.dev.counted k m).high ≥ 60000 ∧ (s.dev.counted k m).block = 0 := by
        rw [hBs]
        refine hU.trans ⟨fun h => ⟨h.2.2.2.1, h.2.2.2.2.1, ?_, h.2.2.2.2.2.2⟩, fun h => ⟨hurg, Nat.le_of_not_lt hm, hh, h.1, h.2.1, ?_, h.2.2.2⟩⟩
        · rw [if_neg (show ¬ k.val = 2 from fun he => by have := h.2.2.2.2.1; omega)]
          exact h.2.2.2.2.2.1
        · have := h.2.2.1
          rwa [if_neg (show ¬ k.val = 2 from fun he => by have := h.2.1; omega)] at this
      by_cases hu : (marginActs s k m).up
      · have hk : k.val < 2 := (hup.mp hu).2.1
        rw [if_pos (hup.mp hu), if_neg (show ¬ k.val = 2 by omega)] at heq
        obtain ⟨g1, g2⟩ := B.setDomain_onMargin k.isLt { s.dev.counted k m with up := some 0 }
        have hshB : ((B.setDomain k { s.dev.counted k m with up := some 0 }).sh k).clkReq = (s.dev.sh k).clkReq := by
          have h3 := congrArg (fun p => p.2.2.2) g2
          have h4 := congrArg (fun p => p.2.2.2) e2
          dsimp only [Dev.marginOwn] at h3 h4
          rw [if_neg (show ¬ k.val = 2 by omega), if_neg (show ¬ k.val = 2 by omega)] at h3 h4
          exact h3.trans h4
        have b1 : (B.setDomain k { s.dev.counted k m with up := some 0 }).rd (Reg.PWR_AVS_VREQ (railOf k)) = v :=
          (congrArg Prod.fst g2).trans (congrArg Prod.fst e2)
        have b2 : (B.setDomain k { s.dev.counted k m with up := some 0 }).rail (railOf k) = r :=
          (congrArg (fun p => p.2.1) g2).trans (congrArg (fun p => p.2.1) e2)
        have b3 := congrArg (fun p => p.2.2.1) g2
        generalize B.setDomain k { s.dev.counted k m with up := some 0 } = G at g1 heq hshB b1 b2 b3
        obtain ⟨k1, k2, k3⟩ := G.clockStep_onMargin k hk ((s.dev.sh k).clkReq - 1)
        rw [hshB, decide_eq_false (by omega)] at k1
        rw [b1, b2, show G.domain k = _ from b3] at k2
        rw [heq]
        refine ⟨_, ((h1.then e1).then g1).trans k1, marginDone_of k2 (.inr e3) (.inr (.inl ⟨hu, hd, hk, rfl, rfl⟩)) fun _ => k3, ?_⟩
        rw [List.nil_append, show bit false * 2 ^ 8 = 0 from rfl, Nat.add_zero]
        exact marginPosts_up hd hu hc
      · rw [if_neg fun h => hu (hup.mpr h)] at heq
        rw [heq]
        exact ⟨[], h1.then e1, marginDone_of e2 (.inr e3) (.inr (.inr ⟨hd, hu, rfl, hX.symm⟩))
          fun h => absurd h (not_or.mpr ⟨hd, not_or.mpr ⟨hu, hc⟩⟩), marginPosts_none hd hu hc⟩
    · rw [if_neg hh] at heq
      have hl : ¬ (marginActs s k m).lower := fun h => hh (hL.mp h).2.2.1
      have hu : ¬ (marginActs s k m).up := fun h => hh (hU.mp h).2.2.1
      rw [heq]
      exact ⟨[], h1, marginDone_of o1 (.inr (.inr ⟨hr, hl, rfl, rfl⟩)) (.inr (.inr ⟨hd, hu, rfl, hX.symm⟩))
        fun h => absurd h (not_or.mpr ⟨hd, not_or.mpr ⟨hu, hc⟩⟩), marginPosts_none hd hu hc⟩

/-! ### The three domains -/

theorem marginActs_congr {s s' : State} {k : Fin 3} {m : Nat} (hin : ∀ f ∈ marginInputs, s'.dev.rd f = s.dev.rd f)
    (hown : s'.dev.marginOwn k = s.dev.marginOwn k) : marginActs s' k m = marginActs s k m := by
  have h1 : s'.dev.rd (Reg.PWR_AVS_VREQ (railOf k)) = s.dev.rd (Reg.PWR_AVS_VREQ (railOf k)) := congrArg Prod.fst hown
  have h3 : s'.dev.domain k = s.dev.domain k := congrArg (fun p => p.2.2.1) hown
  have h4 := congrArg (fun p => p.2.2.2) hown
  have hr : (if k.val = 2 then 0 else k.val + 1) = railOf k := rfl
  unfold marginActs
  dsimp only
  rw [hr, h1, h3, hin Reg.AGE_MCFG_CRIT (by decide), hin Reg.AGE_MCFG_LOW (by decide), hin Reg.AGE_MCFG_HIGH (by decide), hin Reg.PWR_CFG_AVS_EN (by decide),
    hin _ (railErr_input ⟨railOf k, railOf_lt k⟩), hin Reg.PWR_AVSCFG_VMAX (by decide), hin Reg.PWR_AVSCFG_VMIN (by decide), hin Reg.AGE_CFG_UPSTEP (by decide)]
  by_cases hk : k.val < 2
  · dsimp only [Dev.marginOwn] at h4
    rw [if_neg (show ¬ k.val = 2 by omega), if_neg (show ¬ k.val = 2 by omega)] at h4
    rw [h4]
  · simp only [hk, false_and, and_false, or_false]

theorem marginActs_steps {s : State} {k m : Nat} (h : (marginActs s k m).down ∨ (marginActs s k m).up) : k < 2 := by
  rcases h with (h | h) | h
  · exact h.2.1
  · exact h.2.2.2.1
  · exact h.2.2.2.2.1

theorem Dev.marginOwn_clk {d D : Dev} {k : Nat} (h : D.marginOwn k = d.marginOwn k) (hk : k < 2) : (D.sh k).clkReq = (d.sh k).clkReq := by
  have h4 := congrArg (fun p => p.2.2.2) h
  dsimp only [Dev.marginOwn] at h4
  rwa [if_neg (show ¬ k = 2 by omega), if_neg (show ¬ k = 2 by omega)] at h4

theorem MarginDone.transfer {s s' : State} {k : Fin 3} {m : Nat} {D D' : Dev} (h : MarginDone s' k m D') (hin : ∀ f ∈ marginInputs, s'.dev.rd f = s.dev.rd f)
    (hown : s'.dev.marginOwn k = s.dev.marginOwn k) (hns : s'.dev.timeNs = s.dev.timeNs) (hD : D.marginOwn k = D'.marginOwn k)
    (hf : D'.rd Reg.AGE_STATUS_MRGEV = 1 → D.rd Reg.AGE_STATUS_MRGEV = 1) : MarginDone s k m D := by
  have ha : marginActs s' k m = marginActs s k m := marginActs_congr hin hown
  have h1 : s'.dev.rd (Reg.PWR_AVS_VREQ (railOf k)) = s.dev.rd (Reg.PWR_AVS_VREQ (railOf k)) := congrArg Prod.fst hown
  have h2 : s'.dev.rail (railOf k) = s.dev.rail (railOf k) := congrArg (fun p => p.2.1) hown
  have d1 : D.rd (Reg.PWR_AVS_VREQ (railOf k)) = D'.rd (Reg.PWR_AVS_VREQ (railOf k)) := congrArg Prod.fst hD
  have d2 : D.rail (railOf k) = D'.rail (railOf k) := congrArg (fun p => p.2.1) hD
  have d3 : D.domain k = D'.domain k := congrArg (fun p => p.2.2.1) hD
  have hc := Dev.marginOwn_clk hown
  have dc := Dev.marginOwn_clk hD
  obtain ⟨q1, q2, q3, q4, q5, q6, q7, q8⟩ := h
  rw [ha] at q1 q2 q3 q4 q5 q6 q7 q8
  rw [h1] at q1 q2 q4
  rw [h2, hns] at q3
  rw [h2] at q4
  refine ⟨fun h => d1.trans (q1 h), fun h => d1.trans (q2 h), fun h => d2.trans (q3 h), fun h h' => ⟨d1.trans (q4 h h').1, d2.trans (q4 h h').2⟩, fun h => ?_, fun h => ?_,
    fun h h' => ⟨d3.trans (q7 h h').1, fun hk => (dc hk).trans (((q7 h h').2 hk).trans (hc hk))⟩, fun h => hf (q8 h)⟩
  · have hk := marginActs_steps (.inl h)
    exact ⟨(dc hk).trans ((q5 h).1.trans (by rw [hc hk])), d3.trans (q5 h).2⟩
  · have hk := marginActs_steps (.inr h)
    exact ⟨(dc hk).trans ((q6 h).1.trans (by rw [hc hk])), d3.trans (q6 h).2⟩

theorem marginPosts_transfer {s s' : State} {k : Fin 3} {m : Nat} {es : List (Nat × Nat × Nat)} (h : MarginPosts s' k m es)
    (hin : ∀ f ∈ marginInputs, s'.dev.rd f = s.dev.rd f) (hown : s'.dev.marginOwn k = s.dev.marginOwn k) : MarginPosts s k m es := by
  have ha : marginActs s' k m = marginActs s k m := marginActs_congr hin hown
  have hc := Dev.marginOwn_clk hown
  obtain ⟨q1, q2, q3, q4⟩ := h
  rw [ha] at q1 q2 q3 q4
  refine ⟨fun h => (q1 h).trans ?_, fun h => (q2 h).trans ?_, q3, q4⟩
  · rw [hc (marginActs_steps (.inl h))]
  · rw [hc (marginActs_steps (.inr h))]

/-- A change in domain `k` leaves what belongs to another. -/
theorem Dev.OnMargin.own {k j : Fin 3} {es : List (Nat × Nat × Nat)} {d D : Dev} (h : Dev.OnMargin k es d D) (hj : j ≠ k) : D.marginOwn j = d.marginOwn j := by
  have hr := (show ∀ k j : Fin 3, j ≠ k → railOf j ≠ railOf k ∧ Fld.clear (marginFields k) (Reg.PWR_AVS_VREQ (railOf j)) = true by decide) k j hj
  have hne : j.val ≠ k.val := fun he => hj (Fin.ext he)
  have hclk : (if j.val = 2 then 2 else (D.sh j).clkReq) = if j.val = 2 then 2 else (d.sh j).clkReq := by
    split
    · rfl
    · exact h.clks j (by omega) hne
  rw [Dev.marginOwn, h.same.rd hr.2, h.rails _ hr.1, h.domains j j.isLt hne, hclk]
  rfl

theorem Dev.OnMargin.timeNs {k : Nat} {es : List (Nat × Nat × Nat)} {d D : Dev} (h : Dev.OnMargin k es d D) : D.timeNs = d.timeNs := by
  rw [h.only]
  rfl

/-- The three domains evaluated one after another. -/
theorem Dev.evalMargins_done (s : State) (m : Nat → Nat) : ∃ e0 e1 e2, ∃ A B, Dev.OnMargin 0 e0 s.dev A ∧ Dev.OnMargin 1 e1 A B ∧
    Dev.OnMargin 2 e2 B (((s.dev.evalMargin 0 (m 0)).evalMargin 1 (m 1)).evalMargin 2 (m 2)) ∧
    MarginPosts s 0 (m 0) e0 ∧ MarginPosts s 1 (m 1) e1 ∧ MarginPosts s 2 (m 2) e2 ∧
    ∀ k : Fin 3, MarginDone s k (m k) (((s.dev.evalMargin 0 (m 0)).evalMargin 1 (m 1)).evalMargin 2 (m 2)) := by
  obtain ⟨e0, o0, d0, p0⟩ := Dev.evalMargin_done s 0 (m 0)
  have o0 : Dev.OnMargin (0 : Fin 3) e0 s.dev (s.dev.evalMargin 0 (m 0)) := o0
  have d0 : MarginDone s (0 : Fin 3) (m 0) (s.dev.evalMargin 0 (m 0)) := d0
  generalize s.dev.evalMargin 0 (m 0) = A at o0 d0 ⊢
  obtain ⟨e1, o1, d1, p1⟩ := Dev.evalMargin_done { s with dev := A } 1 (m 1)
  have o1 : Dev.OnMargin (1 : Fin 3) e1 A (A.evalMargin 1 (m 1)) := o1
  have d1 : MarginDone { s with dev := A } (1 : Fin 3) (m 1) (A.evalMargin 1 (m 1)) := d1
  generalize A.evalMargin 1 (m 1) = B at o1 d1 ⊢
  obtain ⟨e2, o2, d2, p2⟩ := Dev.evalMargin_done { s with dev := B } 2 (m 2)
  have o2 : Dev.OnMargin (2 : Fin 3) e2 B (B.evalMargin 2 (m 2)) := o2
  have d2 : MarginDone { s with dev := B } (2 : Fin 3) (m 2) (B.evalMargin 2 (m 2)) := d2
  generalize B.evalMargin 2 (m 2) = C at o2 d2 ⊢
  have i1 : ∀ f ∈ marginInputs, A.rd f = s.dev.rd f := o0.inputs
  have i2 : ∀ f ∈ marginInputs, B.rd f = s.dev.rd f := fun f hf => (o1.inputs f hf).trans (i1 f hf)
  have w1 : A.marginOwn (1 : Fin 3) = s.dev.marginOwn (1 : Fin 3) := o0.own (by decide)
  have w2 : B.marginOwn (2 : Fin 3) = s.dev.marginOwn (2 : Fin 3) := (o1.own (by decide)).trans (o0.own (by decide))
  refine ⟨e0, e1, e2, A, B, o0, o1, o2, p0, marginPosts_transfer (s' := { s with dev := A }) p1 i1 w1, marginPosts_transfer (s' := { s with dev := B }) p2 i2 w2, fun k => ?_⟩
  have hk : k = 0 ∨ k = 1 ∨ k = 2 := (show ∀ k : Fin 3, k = 0 ∨ k = 1 ∨ k = 2 by decide) k
  rcases hk with rfl | rfl | rfl
  · exact d0.transfer (fun _ _ => rfl) rfl rfl ((o2.own (by decide)).trans (o1.own (by decide))) fun h => o2.flag (o1.flag h)
  · exact d1.transfer i1 w1 o0.timeNs (o2.own (by decide)) o2.flag
  · exact d2.transfer i2 w2 (o1.timeNs.trans o0.timeNs) rfl id

/-! ### The evaluation -/

/-- The registers that show the margins. -/
def shownMargins : List Fld := (List.range 3).map Reg.AGE_MARGIN

/-- The device that shows the margins `m` of this tick. -/
def Dev.marginsShown (d : Dev) (m : Nat → Nat) : Dev :=
  ((({ d with age := { d.age with evalAt := d.tick } } : Dev).wr (Reg.AGE_MARGIN 0) (m 0)).wr (Reg.AGE_MARGIN 1) (m 1)).wr (Reg.AGE_MARGIN 2) (m 2)

theorem Dev.marginsShown_told (d : Dev) {m : Nat → Nat} (hm : ∀ k, m k < 2 ^ 8) :
    Dev.Acts shownMargins [] { d with age := { d.age with evalAt := d.tick } } (d.marginsShown m) ∧ ∀ k, k < 3 → (d.marginsShown m).rd (Reg.AGE_MARGIN k) = m k := by
  unfold Dev.marginsShown
  generalize ({ d with age := { d.age with evalAt := d.tick } } : Dev) = B
  refine ⟨(((Dev.Acts.refl _ B).wr _ (by decide) rfl).wr _ (by decide) rfl).wr _ (by decide) rfl, fun k hk => ?_⟩
  interval_cases k
  · rw [Dev.rd_wr_sep _ _ _ _ rfl, Dev.rd_wr_sep _ _ _ _ rfl, Dev.rd_wr_lt _ _ _ rfl (hm 0)]
  · rw [Dev.rd_wr_sep _ _ _ _ rfl, Dev.rd_wr_lt _ _ _ rfl (hm 1)]
  · rw [Dev.rd_wr_lt _ _ _ rfl (hm 2)]

theorem execMarginEval_eq (s : State) (a b c : BitVec 8) : let m := fun (k : Nat) => if k = 0 then a.toNat else if k = 1 then b.toNat else c.toNat
    exec (.marginEval a b c) s = onDev (fun d => if !d.ageDue d.age.evalAt 8 then d
      else if (d.marginsShown m).on Reg.AGE_CFG_MARGIN_EN then (((d.marginsShown m).evalMargin 0 (m 0)).evalMargin 1 (m 1)).evalMargin 2 (m 2)
      else d.marginsShown m) s := rfl

theorem marginPosts_block {s : State} {k m : Nat} {es : List (Nat × Nat × Nat)} (h : MarginPosts s k m es) : (∀ e ∈ es, e.1 = 2) ∧ es.length ≤ 1 := by
  obtain ⟨h1, h2, h3, h4⟩ := h
  by_cases hd : (marginActs s k m).down
  · rw [h1 hd]
    simp
  by_cases hu : (marginActs s k m).up
  · rw [h2 hu]
    simp
  by_cases hc : (marginActs s k m).crit
  · rw [h3 hc]
    simp
  · rw [h4 hd hu hc]
    simp

theorem Dev.ageDue_iff (d : Dev) (t len : Nat) : d.ageDue t len = true ↔ d.rd Reg.AGE_CFG_ENABLE = 1 ∧ t + len ≤ d.tick := by
  rw [Dev.ageDue, Bool.and_eq_true, Dev.on_true_iff, decide_eq_true_eq]

/-- The registers that an evaluation writes. -/
def evaluatedFields : List Fld := shownMargins ++ [Reg.PWR_AVS_VREQ 0, Reg.PWR_AVS_VREQ 1, Reg.PWR_AVS_VREQ 2, Reg.AGE_VSTEPCNT_COUNT, Reg.AGE_CSTEPCNT_COUNT,
  Reg.AGE_STATUS_CNT_HALF, Reg.AGE_STATUS_MRGEV]

theorem shownMargins_clear : marginInputs.all (Fld.clear shownMargins) = true ∧ ∀ k : Fin 3, Fld.clear shownMargins (Reg.PWR_AVS_VREQ (railOf k)) = true := by decide

theorem marginsAct : MarginsAct := by
  intro s a b c m shown due
  have hrun := runs_of_onDev (execMarginEval_eq s a b c)
  have hdue : (!s.dev.ageDue s.dev.age.evalAt 8) = true ↔ ¬ due := by
    rw [Bool.not_eq_true', ← Bool.not_eq_true, Dev.ageDue_iff]
  have hm : ∀ k, m k < 2 ^ 8 := fun k => by
    change (if k = 0 then a.toNat else if k = 1 then b.toNat else c.toNat) < 2 ^ 8
    split
    · exact a.isLt
    · split
      · exact b.isLt
      · exact c.isLt
  change Runs _ s { s with dev := (if (!s.dev.ageDue s.dev.age.evalAt 8) = true then s.dev else
    if (s.dev.marginsShown m).on Reg.AGE_CFG_MARGIN_EN then (((s.dev.marginsShown m).evalMargin 0 (m 0)).evalMargin 1 (m 1)).evalMargin 2 (m 2) else s.dev.marginsShown m).settle } at hrun
  refine ⟨fun h => ?_, fun h => ?_⟩
  · rw [if_pos (hdue.mpr h)] at hrun
    exact ⟨_, hrun, ⟨fun _ _ => rfl, rfl⟩, rfl⟩
  rw [if_neg fun h' => hdue.mp h' h] at hrun
  obtain ⟨hS, hv⟩ := s.dev.marginsShown_told hm
  generalize s.dev.marginsShown m = S at hS hv hrun
  have hen : S.on Reg.AGE_CFG_MARGIN_EN = true ↔ s.dev.rd Reg.AGE_CFG_MARGIN_EN = 1 := by
    rw [Dev.on_true_iff, hS.rd (by decide)]
    rfl
  by_cases he : s.dev.rd Reg.AGE_CFG_MARGIN_EN = 1
  · rw [if_pos (hen.mpr he)] at hrun
    obtain ⟨e0, e1, e2, A, B, o0, o1, o2, p0, p1, p2, hdone⟩ := Dev.evalMargins_done { s with dev := S } m
    dsimp only at o0 hdone hrun
    generalize ((S.evalMargin 0 (m 0)).evalMargin 1 (m 1)).evalMargin 2 (m 2) = D at o2 hdone hrun
    have hin : ∀ f ∈ marginInputs, S.rd f = s.dev.rd f := hS.same.rds shownMargins_clear.1
    have hown : ∀ k : Fin 3, S.marginOwn k = s.dev.marginOwn k := fun k => by
      have h1 := hS.marginOwn (shownMargins_clear.2 k)
      exact h1
    have hns : S.timeNs = s.dev.timeNs := hS.rest.1
    have hA : Dev.Acts evaluatedFields (e0 ++ e1 ++ e2) { s.dev with pwr := D.pwr, age := D.age, sch := D.sch } D := by
      refine ⟨?_, ((hS.same.mono (by decide)).trans ?_)⟩
      · rw [o2.only, o1.only, o0.only, hS.only]
        simp only [List.append_nil, List.append_assoc]
      · exact ((o0.same.mono (by decide)).trans (o1.same.mono (by decide))).trans (o2.same.mono (by decide))
    obtain ⟨D1, D2⟩ : D.pwr = { s.dev.pwr with rails := D.pwr.rails } ∧ D = { s.dev with
        live := D.live
        evq := D.evq
        pwr := D.pwr
        age := { s.dev.age with a := D.age.a, b := D.age.b, core := D.age.core, evalAt := s.dev.tick }
        sch := { s.dev.sch with hA := { s.dev.sch.hA with clkReq := D.sch.hA.clkReq }, hB := { s.dev.sch.hB with clkReq := D.sch.hB.clkReq } } } := by
      rw [o2.only, o1.only, o0.only, hS.only]
      exact ⟨rfl, rfl⟩
    have hq := fun k => (hdone k).transfer (s := s) (D := D) hin (hown k) hns rfl id
    have hrd : ∀ f, D.settle.rd f = D.rd f := fun f => Dev.settle_rd D f
    refine ⟨_, hrun, fun k hk => ?_, fun h0 => absurd (h0.symm.trans he) (by decide), fun _ => ⟨hA.same, D1, fun k hk => ?_, fun hr => ?_, ?_⟩⟩
    · refine (hrd _).trans (Eq.trans ?_ (hv k hk))
      have hc := (show ∀ j k : Fin 3, Fld.clear (marginFields j) (Reg.AGE_MARGIN k) = true by decide)
      rw [o2.same.rd (hc 2 ⟨k, hk⟩), o1.same.rd (hc 1 ⟨k, hk⟩), o0.same.rd (hc 0 ⟨k, hk⟩)]
    · obtain ⟨q1, q2, q3, q4, q5, q6, q7, q8⟩ := hq ⟨k, hk⟩
      exact ⟨q1, q2, q3, q4, q5, q6, q7, q8⟩
    · have t0 := marginPosts_transfer (k := 0) p0 hin (hown 0)
      have t1 := marginPosts_transfer (k := 1) p1 hin (hown 1)
      have t2 := marginPosts_transfer (k := 2) p2 hin (hown 2)
      obtain ⟨b0, l0⟩ := marginPosts_block p0
      obtain ⟨b1, l1⟩ := marginPosts_block p1
      obtain ⟨b2, l2⟩ := marginPosts_block p2
      refine ⟨e0, e1, e2, t0, t1, t2, hA.enters rfl rfl 2 (by decide) (fun e he => ?_) (by simp; omega) hr rfl⟩
      rcases List.mem_append.mp he with he | he
      · exact (List.mem_append.mp he).elim (b0 e) (b1 e)
      · exact b2 e he
    · change D.settle = _
      rw [D2]
      rfl
  · rw [if_neg fun h' => he (hen.mp h')] at hrun
    refine ⟨_, hrun, hv, fun _ => ⟨hS.same, hS.rest.2.1, hS.around⟩, fun h' => absurd h' he⟩

end Sys2Proof.Machine
end

section
-- What runs beside a check is held in memory with it: the declarations of this section are elaborated in turn.
set_option Elab.async false
/-! Temperature and ageing (R492 to R495). -/
namespace Sys2Proof.Machine
open Sys2Proof.Claims

/-! ### Temperature -/

theorem uint_toInt (x : BitVec 8) : uint 8 x.toInt = x.toNat := by
  have := x.isLt
  rw [uint, BitVec.toInt_eq_toNat_cond]
  split <;> omega

/-- The highest temperature after a sensor has read `x`. -/
def Dev.mostAfter (d : Dev) (x : Int) : Int := match d.age.most with | some m => max m x | none => x

/-- A sensor of the device has read `x`. -/
def Dev.ageAfter (d : Dev) (x : Int) : Age := { d.age with most := some (d.mostAfter x), hot := d.age.hot || decide (95 ≤ x) }

/-- Sensor `k` shows `v`, the highest temperature is `w`, and the record is `a`. -/
def Dev.tempShown (d : Dev) (k v w : Nat) (a : Age) : Dev := { ((d.wr (tempFld k) v).wr Reg.AGE_TEMP_MAX w) with age := a }

/-- Sensor `k` has read `tj`. -/
def Dev.tempRead (d : Dev) (k : Nat) (tj : BitVec 8) : Dev := d.tempShown k tj.toNat (uint 8 (d.mostAfter tj.toInt)) (d.ageAfter tj.toInt)

/-- The alert of sensor `k` begins or ends; `l` are the sensors in alert then. -/
def Dev.tempPost (d : Dev) (k : Nat) (tj : BitVec 8) (on : Bool) (l : List Nat) : Dev :=
  (({ d with age := { d.age with alerts := l } } : Dev).flag Reg.AGE_STATUS_TEMPEV).post 2 3 (k + tj.toNat * 2 ^ 8 + bit on * 2 ^ 16)

theorem execTemp_eq (s : State) (k : Fin 3) (tj : BitVec 8) : exec (.temp k tj) s = onDev (fun d =>
    if !d.on Reg.AGE_CFG_ENABLE then d
    else if (d.tempRead k tj).age.alerts.contains k.val then
      if tj.toInt ≤ (d.rd Reg.AGE_CFG_TALERT : Int) - 5 then (d.tempRead k tj).tempPost k tj false ((d.tempRead k tj).age.alerts.filter (· != k.val)) else d.tempRead k tj
    else if (d.rd Reg.AGE_CFG_TALERT : Int) ≤ tj.toInt then (d.tempRead k tj).tempPost k tj true ((d.tempRead k tj).age.alerts ++ [k.val])
    else d.tempRead k tj) s := by
  change execTemp k tj s = _
  unfold execTemp onDev Dev.tempPost Dev.tempRead Dev.tempShown Dev.ageAfter Dev.mostAfter
  dsimp only
  cases s.dev.age.most with
  | none => rfl
  | some y => rfl

theorem tempFld_clear : ∀ k : Fin 3, (tempFld k).ok = true ∧ (tempFld k).width = 8 ∧ Reg.AGE_TEMP_MAX.sep (tempFld k) = true ∧
    Fld.clear [Reg.AGE_STATUS_TEMPEV] (tempFld k) = true := by decide

theorem Dev.tempShown_told (d : Dev) (k : Fin 3) {v w : Nat} (a : Age) (hv : v < 2 ^ 8) (hw : w < 2 ^ 8) :
    Dev.Acts [tempFld k, Reg.AGE_TEMP_MAX] [] { d with age := a } (d.tempShown k v w a) ∧
    (d.tempShown k v w a).rd (tempFld k) = v ∧ (d.tempShown k v w a).rd Reg.AGE_TEMP_MAX = w := by
  obtain ⟨ok, hwd, hs, -⟩ := tempFld_clear k
  have key : ∀ B : Dev, Dev.Acts [tempFld k, Reg.AGE_TEMP_MAX] [] d B → B.rd (tempFld k) = v → B.rd Reg.AGE_TEMP_MAX = w →
      Dev.Acts [tempFld k, Reg.AGE_TEMP_MAX] [] { d with age := a } { B with age := a } ∧
      ({ B with age := a } : Dev).rd (tempFld k) = v ∧ ({ B with age := a } : Dev).rd Reg.AGE_TEMP_MAX = w :=
    fun B h v3 v2 => ⟨⟨by rw [h.only], h.same⟩, v3, v2⟩
  exact key _ (((Dev.Acts.refl _ d).wr v (by simp) ok).wr w (by simp) rfl)
    ((Dev.rd_wr_sep _ _ _ _ hs).trans (Dev.rd_wr_lt _ _ _ ok (by rw [hwd]; exact hv))) (Dev.rd_wr_lt _ _ _ rfl hw)

/-- What the reading `tj` of sensor `k` leaves of `d`, before an alert. -/
structure Dev.TempTold (d : Dev) (k : Fin 3) (tj : BitVec 8) (T : Dev) : Prop where
  only : T = { d with live := T.live, age := T.age }
  same : Dev.SameBut [tempFld k, Reg.AGE_TEMP_MAX] d T
  age : T.age = { d.age with most := T.age.most, hot := T.age.hot }
  shown : T.rd (tempFld k) = tj.toNat
  most : ∀ y, d.age.most = some y → T.rd Reg.AGE_TEMP_MAX = uint 8 (max y tj.toInt)
  first : d.age.most = none → T.rd Reg.AGE_TEMP_MAX = tj.toNat
  hot : T.age.hot = true ↔ d.age.hot = true ∨ 95 ≤ tj.toInt

theorem Dev.tempRead_told (d : Dev) (k : Fin 3) (tj : BitVec 8) : Dev.TempTold d k tj (d.tempRead k tj) := by
  obtain ⟨hT, v1, v2⟩ := d.tempShown_told k (d.ageAfter tj.toInt) tj.isLt (uint_lt 8 (d.mostAfter tj.toInt))
  have ha : (d.tempRead k tj).age = d.ageAfter tj.toInt := congrArg Dev.age hT.only
  refine ⟨hT.onlyLive, hT.same, rfl, v1, fun y hy => v2.trans ?_, fun hn => v2.trans ?_, ?_⟩
  · rw [Dev.mostAfter, hy]
  · rw [Dev.mostAfter, hn]
    exact uint_toInt tj
  · rw [ha, Dev.ageAfter, Bool.or_eq_true, decide_eq_true_eq]

/-- What the reading leaves when the events `es` are posted and the sensors `l` are in alert then. -/
theorem temp_leaves {s : State} {k : Fin 3} {tj : BitVec 8} {T D : Dev} (hT : Dev.TempTold s.dev k tj T) {es : List (Nat × Nat × Nat)} {l : List Nat}
    (hD : Dev.Acts [Reg.AGE_STATUS_TEMPEV] es { T with age := { T.age with alerts := l } } D) (he : ∀ e ∈ es, e.1 = 2) (hl : es.length ≤ 12) :
    let t : State := { s with dev := D.settle }
    t.dev.rd (tempFld k) = tj.toNat ∧ (∀ y, s.dev.age.most = some y → t.dev.rd Reg.AGE_TEMP_MAX = uint 8 (max y tj.toInt)) ∧
      (s.dev.age.most = none → t.dev.rd Reg.AGE_TEMP_MAX = tj.toNat) ∧ (t.dev.age.hot = true ↔ s.dev.age.hot = true ∨ 95 ≤ tj.toInt) ∧
      t.dev.age.alerts = l ∧ OnlyFields [tempFld k, Reg.AGE_TEMP_MAX, Reg.AGE_STATUS_TEMPEV] s t ∧ (Room s → EntersAll s t es) ∧
      t.dev = Around { s.dev with age := { s.dev.age with alerts := t.dev.age.alerts, most := t.dev.age.most, hot := t.dev.age.hot } } t.dev := by
  intro t
  have hDa : D.age = { T.age with alerts := l } := congrArg Dev.age hD.only
  have hrd : ∀ g, Fld.clear [Reg.AGE_STATUS_TEMPEV] g = true → t.dev.rd g = T.rd g := fun g hg => (Dev.settle_rd D g).trans (hD.rd hg)
  have hA : Dev.Acts [tempFld k, Reg.AGE_TEMP_MAX, Reg.AGE_STATUS_TEMPEV] es { s.dev with age := D.age } D := by
    refine ⟨?_, (hT.same.mono (by simp)).trans (hD.same.mono (by simp))⟩
    have h1 := hD.only
    dsimp only at h1
    rw [h1, hT.only]
  refine ⟨(hrd _ (tempFld_clear k).2.2.2).trans hT.shown, fun y hy => (hrd _ (by decide)).trans (hT.most y hy), fun hn => (hrd _ (by decide)).trans (hT.first hn), ?_,
    congrArg Age.alerts hDa, hA.same, fun hr => hA.enters rfl rfl 2 (by decide) he hl hr rfl, ?_⟩
  · rw [← hT.hot, show t.dev.age = D.age from rfl, hDa]
  · have hage : D.age = { s.dev.age with alerts := D.age.alerts, most := D.age.most, hot := D.age.hot } := by
      rw [hDa, hT.age]
    refine hA.around.trans ?_
    change Around { s.dev with age := D.age } D.settle = Around { s.dev with age := { s.dev.age with alerts := D.age.alerts, most := D.age.most, hot := D.age.hot } } D.settle
    rw [← hage]

theorem Dev.tempPost_told (d : Dev) (k : Nat) (tj : BitVec 8) (on : Bool) (l : List Nat) :
    Dev.Acts [Reg.AGE_STATUS_TEMPEV] [(2, 3, k + tj.toNat * 2 ^ 8 + bit on * 2 ^ 16)] { d with age := { d.age with alerts := l } } (d.tempPost k tj on l) ∧
    (d.tempPost k tj on l).rd Reg.AGE_STATUS_TEMPEV = 1 :=
  ⟨((Dev.Acts.refl _ _).flag (by simp) rfl).post 2 3 _, (Dev.post_rd ..).trans (Dev.rd_flag _ _ rfl)⟩

theorem Dev.alerts_self {d : Dev} {l : List Nat} (h : d.age.alerts = l) : d = { d with age := { d.age with alerts := l } } := by
  subst h
  rfl

theorem temp_shows (s : State) (k : Fin 3) (tj : BitVec 8) : let x := tj.toInt
    let f := if k = 0 then Reg.AGE_TEMP_A else if k = 1 then Reg.AGE_TEMP_B else Reg.AGE_TEMP_CORE
    let limit : Int := s.dev.rd Reg.AGE_CFG_TALERT
    let was := k.val ∈ s.dev.age.alerts
    let rises := ¬ was ∧ limit ≤ x
    let falls := was ∧ x ≤ limit - 5
    (s.dev.rd Reg.AGE_CFG_ENABLE = 0 → ∃ t, Runs (.temp k tj) s t ∧ Keeps [] s t s.dev) ∧
    (s.dev.rd Reg.AGE_CFG_ENABLE = 1 → ∃ t, Runs (.temp k tj) s t ∧ t.dev.rd f = tj.toNat ∧
      (∀ y, s.dev.age.most = some y → t.dev.rd Reg.AGE_TEMP_MAX = uint 8 (max y x)) ∧
      (s.dev.age.most = none → t.dev.rd Reg.AGE_TEMP_MAX = tj.toNat) ∧
      (t.dev.age.hot = true ↔ s.dev.age.hot = true ∨ 95 ≤ x) ∧
      (∀ j, j ∈ t.dev.age.alerts ↔ (j = k.val ∧ (rises ∨ (was ∧ ¬ falls))) ∨ (j ≠ k.val ∧ j ∈ s.dev.age.alerts)) ∧
      (rises ∨ falls → t.dev.rd Reg.AGE_STATUS_TEMPEV = 1) ∧ OnlyFields [f, Reg.AGE_TEMP_MAX, Reg.AGE_STATUS_TEMPEV] s t ∧
      (Room s → EntersAll s t (if rises then [(2, 3, k + tj.toNat * 2 ^ 8 + 2 ^ 16)] else if falls then [(2, 3, k + tj.toNat * 2 ^ 8)] else [])) ∧
      t.dev = Around { s.dev with age := { s.dev.age with alerts := t.dev.age.alerts, most := t.dev.age.most, hot := t.dev.age.hot } } t.dev) := by
  intro x f limit was rises falls
  have hf : f = tempFld k := (show ∀ k : Fin 3, (if k = 0 then Reg.AGE_TEMP_A else if k = 1 then Reg.AGE_TEMP_B else Reg.AGE_TEMP_CORE) = tempFld k by decide) k
  clear_value f
  subst hf
  have hrun := runs_of_onDev (execTemp_eq s k tj)
  refine ⟨fun he => ?_, fun he => ?_⟩
  · rw [if_pos (by rw [Bool.not_eq_true', Dev.on_false_iff _ rfl, he])] at hrun
    exact ⟨_, hrun, fun _ _ => rfl, rfl⟩
  rw [if_neg (by rw [Bool.not_eq_true', Bool.not_eq_false, Dev.on_true_iff, he])] at hrun
  have hT := s.dev.tempRead_told k tj
  have ha : (s.dev.tempRead k tj).age.alerts = s.dev.age.alerts := by rw [hT.age]
  have hself := Dev.alerts_self ha
  rw [ha] at hrun
  have hwas : s.dev.age.alerts.contains k.val = true ↔ was := List.contains_iff_mem
  by_cases hw : was
  · have hr : ¬ rises := fun h => h.1 hw
    rw [if_pos (hwas.mpr hw)] at hrun
    by_cases hx : x ≤ limit - 5
    · have hfa : falls := ⟨hw, hx⟩
      rw [if_pos (show tj.toInt ≤ (s.dev.rd Reg.AGE_CFG_TALERT : Int) - 5 from hx)] at hrun
      obtain ⟨p1, p2⟩ := (s.dev.tempRead k tj).tempPost_told k tj false (s.dev.age.alerts.filter (· != k.val))
      obtain ⟨q1, q2, q3, q4, q5, q6, q7, q8⟩ := temp_leaves hT p1 (by simp) (by simp)
      refine ⟨_, hrun, q1, q2, q3, q4, fun j => ?_, fun _ => p2, q6, fun hroom => ?_, q8⟩
      · rw [q5, List.mem_filter, bne_iff_ne]
        simp only [hr, hfa, not_true_eq_false, and_false, or_self, false_or]
        exact and_comm
      · rw [if_neg hr, if_pos hfa]
        exact q7 hroom
    · have hfa : ¬ falls := fun h => hx h.2
      rw [if_neg (show ¬ tj.toInt ≤ (s.dev.rd Reg.AGE_CFG_TALERT : Int) - 5 from hx), hself] at hrun
      obtain ⟨q1, q2, q3, q4, q5, q6, q7, q8⟩ := temp_leaves hT (.refl _ _) (by simp) (by simp)
      refine ⟨_, hrun, q1, q2, q3, q4, fun j => ?_, fun h => absurd h (not_or.mpr ⟨hr, hfa⟩), q6, fun hroom => ?_, q8⟩
      · rw [q5]
        simp only [hr, hfa, not_false_eq_true, and_true, false_or]
        refine ⟨fun h => ?_, fun h => h.elim (fun h => h.1 ▸ h.2) And.right⟩
        by_cases hj : j = k.val
        · exact .inl ⟨hj, hw⟩
        · exact .inr ⟨hj, h⟩
      · rw [if_neg hr, if_neg hfa]
        exact q7 hroom
  · have hfa : ¬ falls := fun h => hw h.1
    rw [if_neg fun h => hw (hwas.mp h)] at hrun
    by_cases hx : limit ≤ x
    · have hr : rises := ⟨hw, hx⟩
      rw [if_pos (show (s.dev.rd Reg.AGE_CFG_TALERT : Int) ≤ tj.toInt from hx)] at hrun
      obtain ⟨p1, p2⟩ := (s.dev.tempRead k tj).tempPost_told k tj true (s.dev.age.alerts ++ [k.val])
      obtain ⟨q1, q2, q3, q4, q5, q6, q7, q8⟩ := temp_leaves hT p1 (by simp) (by simp)
      refine ⟨_, hrun, q1, q2, q3, q4, fun j => ?_, fun _ => p2, q6, fun hroom => ?_, q8⟩
      · rw [q5, List.mem_append, List.mem_singleton]
        simp only [hr, true_or, and_true]
        refine ⟨fun h => ?_, fun h => h.elim .inr fun h => .inl h.2⟩
        by_cases hj : j = k.val
        · exact .inl hj
        · exact .inr ⟨hj, h.resolve_right hj⟩
      · rw [if_pos hr]
        exact q7 hroom
    · have hr : ¬ rises := fun h => hx h.2
      rw [if_neg (show ¬ (s.dev.rd Reg.AGE_CFG_TALERT : Int) ≤ tj.toInt from hx), hself] at hrun
      obtain ⟨q1, q2, q3, q4, q5, q6, q7, q8⟩ := temp_leaves hT (.refl _ _) (by simp) (by simp)
      refine ⟨_, hrun, q1, q2, q3, q4, fun j => ?_, fun h => absurd h (not_or.mpr ⟨hr, hfa⟩), q6, fun hroom => ?_, q8⟩
      · rw [q5]
        simp only [hr, show ¬ (was ∧ ¬ falls) from fun h => hw h.1, or_self, and_false, false_or]
        exact ⟨fun h => ⟨fun hj => hw (show k.val ∈ s.dev.age.alerts from hj ▸ h), h⟩, And.right⟩
      · rw [if_neg hr, if_neg hfa]
        exact q7 hroom

/-! ### The hourly measurement -/

/-- The registers that hold the ageing record. -/
def ageFields : List Fld := [Reg.AGE_DEG 0, Reg.AGE_DEG 1, Reg.AGE_DEG 2, Reg.AGE_HOURS_COUNT, Reg.AGE_HOTHOURS_COUNT]

theorem Dev.showAge_eq (d : Dev) : d.showAge =
    ((((d.wr (Reg.AGE_DEG 0) (d.age.hist.deg.getD 0 0)).wr (Reg.AGE_DEG 1) (d.age.hist.deg.getD 1 0)).wr (Reg.AGE_DEG 2) (d.age.hist.deg.getD 2 0)).wr
      Reg.AGE_HOURS_COUNT (d.age.hist.hours % 2 ^ 32)).wr Reg.AGE_HOTHOURS_COUNT (d.age.hist.hotHours % 2 ^ 32) := rfl

theorem Dev.showAge_told (d : Dev) (h0 : d.age.hist.deg.getD 0 0 < 2 ^ 16) (h1 : d.age.hist.deg.getD 1 0 < 2 ^ 16) (h2 : d.age.hist.deg.getD 2 0 < 2 ^ 16) :
    Dev.Acts ageFields [] d d.showAge ∧ d.showAge.rd (Reg.AGE_DEG 0) = d.age.hist.deg.getD 0 0 ∧ d.showAge.rd (Reg.AGE_DEG 1) = d.age.hist.deg.getD 1 0 ∧
    d.showAge.rd (Reg.AGE_DEG 2) = d.age.hist.deg.getD 2 0 ∧ d.showAge.rd Reg.AGE_HOURS_COUNT = d.age.hist.hours % 2 ^ 32 ∧
    d.showAge.rd Reg.AGE_HOTHOURS_COUNT = d.age.hist.hotHours % 2 ^ 32 := by
  rw [d.showAge_eq]
  refine ⟨(((((Dev.Acts.refl _ d).wr _ (by decide) rfl).wr _ (by decide) rfl).wr _ (by decide) rfl).wr _ (by decide) rfl).wr _ (by decide) rfl, ?_, ?_, ?_, ?_, ?_⟩
  · rw [Dev.rd_wr_sep _ _ _ _ rfl, Dev.rd_wr_sep _ _ _ _ rfl, Dev.rd_wr_sep _ _ _ _ rfl, Dev.rd_wr_sep _ _ _ _ rfl, Dev.rd_wr_lt _ _ _ rfl h0]
  · rw [Dev.rd_wr_sep _ _ _ _ rfl, Dev.rd_wr_sep _ _ _ _ rfl, Dev.rd_wr_sep _ _ _ _ rfl, Dev.rd_wr_lt _ _ _ rfl h1]
  · rw [Dev.rd_wr_sep _ _ _ _ rfl, Dev.rd_wr_sep _ _ _ _ rfl, Dev.rd_wr_lt _ _ _ rfl h2]
  · rw [Dev.rd_wr_sep _ _ _ _ rfl]
    exact Dev.rd_wr_lt _ Reg.AGE_HOURS_COUNT _ rfl (Nat.mod_lt _ (Nat.two_pow_pos 32))
  · exact Dev.rd_wr_lt _ Reg.AGE_HOTHOURS_COUNT _ rfl (Nat.mod_lt _ (Nat.two_pow_pos 32))

/-- The record after an hour with the slowdowns `deg`. -/
def Dev.hourOver (d : Dev) (deg : List Nat) : Age :=
  { d.age with hist := { d.age.hist with deg := deg, hours := d.age.hist.hours + 1, hotHours := d.age.hist.hotHours + bit d.age.hot }, hot := d.isHot, degAt := d.tick }

theorem execDegMeasure_eq (s : State) (a b c : BitVec 16) : exec (.degMeasure a b c) s = onDev (fun d =>
    if !d.ageDue d.age.degAt 28800000 then d else ({ d with age := d.hourOver [a.toNat, b.toNat, c.toNat] } : Dev).showAge) s := rfl

theorem Dev.isHot_iff (d : Dev) : d.isHot = true ↔ ∃ f ∈ [Reg.AGE_TEMP_A, Reg.AGE_TEMP_B, Reg.AGE_TEMP_CORE], 95 ≤ sint 8 (d.rd f) := by
  simp [Dev.isHot, tempFld]

theorem degMeasure_shows (s : State) (a b c : BitVec 16) : let r := s.dev.age.hist
    let hot := if s.dev.age.hot then 1 else 0
    let due := s.dev.rd Reg.AGE_CFG_ENABLE = 1 ∧ s.dev.age.degAt + 28800000 ≤ s.dev.tick
    (¬ due → ∃ t, Runs (.degMeasure a b c) s t ∧ Keeps [] s t s.dev) ∧
    (due → ∃ t, Runs (.degMeasure a b c) s t ∧ t.dev.rd (Reg.AGE_DEG 0) = a.toNat ∧ t.dev.rd (Reg.AGE_DEG 1) = b.toNat ∧ t.dev.rd (Reg.AGE_DEG 2) = c.toNat ∧
      t.dev.rd Reg.AGE_HOURS_COUNT = (r.hours + 1) % 2 ^ 32 ∧ t.dev.rd Reg.AGE_HOTHOURS_COUNT = (r.hotHours + hot) % 2 ^ 32 ∧
      (t.dev.age.hot = true ↔ ∃ f ∈ [Reg.AGE_TEMP_A, Reg.AGE_TEMP_B, Reg.AGE_TEMP_CORE], 95 ≤ sint 8 (s.dev.rd f)) ∧
      OnlyFields [Reg.AGE_DEG 0, Reg.AGE_DEG 1, Reg.AGE_DEG 2, Reg.AGE_HOURS_COUNT, Reg.AGE_HOTHOURS_COUNT] s t ∧
      t.dev = Around { s.dev with age := { s.dev.age with
        hot := t.dev.age.hot
        degAt := s.dev.tick
        hist := { r with deg := [a.toNat, b.toNat, c.toNat], hours := r.hours + 1, hotHours := r.hotHours + hot } } } t.dev) := by
  intro r hot due
  have hrun := runs_of_onDev (execDegMeasure_eq s a b c)
  have hdue : (!s.dev.ageDue s.dev.age.degAt 28800000) = true ↔ ¬ due := by
    rw [Bool.not_eq_true', ← Bool.not_eq_true, Dev.ageDue_iff]
  refine ⟨fun h => ?_, fun h => ?_⟩
  · rw [if_pos (hdue.mpr h)] at hrun
    exact ⟨_, hrun, fun _ _ => rfl, rfl⟩
  rw [if_neg fun h' => hdue.mp h' h] at hrun
  obtain ⟨A, hA⟩ : ∃ A, A = s.dev.hourOver [a.toNat, b.toNat, c.toNat] := ⟨_, rfl⟩
  have hdeg : A.hist.deg = [a.toNat, b.toNat, c.toNat] := by rw [hA]; rfl
  have hhours : A.hist.hours = r.hours + 1 := by rw [hA]; rfl
  have hhh : A.hist.hotHours = r.hotHours + hot := by rw [hA]; rfl
  have hhot : A.hot = s.dev.isHot := by rw [hA]; rfl
  have hage : A = { s.dev.age with hot := A.hot, degAt := s.dev.tick, hist := { r with deg := [a.toNat, b.toNat, c.toNat], hours := r.hours + 1, hotHours := r.hotHours + hot } } := by
    rw [hA]
    rfl
  rw [← hA] at hrun
  obtain ⟨q1, q2, q3, q4, q5, q6⟩ := Dev.showAge_told { s.dev with age := A } (by rw [hdeg]; exact a.isLt) (by rw [hdeg]; exact b.isLt) (by rw [hdeg]; exact c.isLt)
  rw [hdeg] at q2 q3 q4
  rw [hhours] at q5
  rw [hhh] at q6
  have q7 : (Dev.showAge { s.dev with age := A }).age = A := congrArg Dev.age q1.only
  refine ⟨_, hrun, q2, q3, q4, q5, q6, ?_, q1.same, ?_⟩
  · rw [← s.dev.isHot_iff, ← hhot]
    change (Dev.showAge { s.dev with age := A }).age.hot = true ↔ _
    rw [q7]
  · have h2 := q1.around
    change (Dev.showAge { s.dev with age := A }).settle = Around { s.dev with age := { s.dev.age with
        hot := (Dev.showAge { s.dev with age := A }).age.hot
        degAt := s.dev.tick
        hist := { r with deg := [a.toNat, b.toNat, c.toNat], hours := r.hours + 1, hotHours := r.hotHours + hot } } } _
    rw [q7, ← hage]
    exact h2

/-! ### The ageing correction -/

/-- The ageing correction that the rate asks for. -/
def Dev.corrAsked (d : Dev) : Int :=
  if d.on Reg.AGE_CFG_APPLY && d.on Reg.AGE_STATUS_VALID && d.on Reg.REF_STATUS_HISTVALID then
    max (-10000) (min (quot 13 (-(sint 32 (d.rd Reg.AGE_OCXORATE_RATE) * ((d.tick : Int) - d.ref.mid))) (8000 * 86400 * 10)) 10000)
  else 0

theorem execAgeCorrUpdate_eq (s : State) : exec .ageCorrUpdate s = onDev (fun d =>
    if !d.ageDue d.age.corrAt 8000 then d
    else ({ d with age := { d.age with corrAt := d.tick } } : Dev).wr Reg.AGE_CORR_CORR
      (uint 32 (max (sint 32 (d.rd Reg.AGE_CORR_CORR) - 100 * d.rd Reg.REF_SLEW_FSLOPE)
        (min d.corrAsked (sint 32 (d.rd Reg.AGE_CORR_CORR) + 100 * d.rd Reg.REF_SLEW_FSLOPE))))) s := rfl

theorem ageCorrUpdate_moves (s : State) : let due := s.dev.rd Reg.AGE_CFG_ENABLE = 1 ∧ s.dev.age.corrAt + 8000 ≤ s.dev.tick
    let applies := s.dev.rd Reg.AGE_CFG_APPLY = 1 ∧ s.dev.rd Reg.AGE_STATUS_VALID = 1 ∧ s.dev.rd Reg.REF_STATUS_HISTVALID = 1
    let now := sint 32 (s.dev.rd Reg.AGE_CORR_CORR)
    let lim : Int := 100 * s.dev.rd Reg.REF_SLEW_FSLOPE
    let num : Int := -(sint 32 (s.dev.rd Reg.AGE_OCXORATE_RATE) * ((s.dev.tick : Int) - s.dev.ref.mid))
    (¬ due → ∃ t, Runs .ageCorrUpdate s t ∧ Keeps [] s t s.dev) ∧
    (due → ∃ (t : State) (c : Int), Runs .ageCorrUpdate s t ∧ (¬ applies → c = 0) ∧
      (applies → ∃ q : Int, (q * 6912000000 - num).natAbs < 6912000000 ∧ c = max (-10000) (min q 10000)) ∧
      t.dev.rd Reg.AGE_CORR_CORR = uint 32 (max (now - lim) (min c (now + lim))) ∧ OnlyFields [Reg.AGE_CORR_CORR] s t ∧
      t.dev = Around { s.dev with age := { s.dev.age with corrAt := s.dev.tick } } t.dev) := by
  intro due applies now lim num
  have hrun := runs_of_onDev (execAgeCorrUpdate_eq s)
  have hdue : (!s.dev.ageDue s.dev.age.corrAt 8000) = true ↔ ¬ due := by
    rw [Bool.not_eq_true', ← Bool.not_eq_true, Dev.ageDue_iff]
  refine ⟨fun h => ?_, fun h => ?_⟩
  · rw [if_pos (hdue.mpr h)] at hrun
    exact ⟨_, hrun, fun _ _ => rfl, rfl⟩
  rw [if_neg fun h' => hdue.mp h' h] at hrun
  have happ : (s.dev.on Reg.AGE_CFG_APPLY && s.dev.on Reg.AGE_STATUS_VALID && s.dev.on Reg.REF_STATUS_HISTVALID) = true ↔ applies := by
    rw [Bool.and_eq_true, Bool.and_eq_true, Dev.on_true_iff, Dev.on_true_iff, Dev.on_true_iff, and_assoc]
  have hW := Dev.wr_acts { s.dev with age := { s.dev.age with corrAt := s.dev.tick } } Reg.AGE_CORR_CORR
    (uint 32 (max (now - lim) (min s.dev.corrAsked (now + lim)))) rfl
  refine ⟨_, s.dev.corrAsked, hrun, fun hn => ?_, fun ha => ⟨quot 13 num 6912000000, ?_, ?_⟩, Dev.rd_wr_lt _ Reg.AGE_CORR_CORR _ rfl (uint_lt 32 _), hW.same, hW.around⟩
  · rw [Dev.corrAsked, if_neg fun h => hn (happ.mp h)]
  · have := quot_near 13 num (show 0 < 6912000000 by norm_num)
    rwa [mul_comm] at this
  · rw [Dev.corrAsked, if_pos (happ.mpr ha), show 8000 * 86400 * 10 = 6912000000 from by norm_num]

/-! ### CLRHIST -/

theorem clrHist_lands (s : State) (r : List SlowOp) (hq : SlowHead s 0x5010 0 r) : let u := AfterEdge s
    ∃ t, Runs .slowWriteLand s t ∧ EdgeCame s t r ∧ Exits s t false 8 ∧ t.dev.rd Reg.AGE_NDAYS_COUNT = 0 ∧
    t.dev.rd Reg.AGE_STATUS_VALID = 0 ∧ OnlyFields [Reg.AGE_NDAYS_COUNT, Reg.AGE_STATUS_VALID] (u t r) t ∧
    t.dev = Around { (u t r).dev with age := { s.dev.age with hist := { s.dev.age.hist with means := [], days := [] } } } t.dev := by
  intro u
  have hy : runCmd (s.nv, s.dev.slowTail r) 0x5010 0 1 = (s.nv, (s.dev.slowTail r).clrHistGo) := rfl
  have hrun := slowWriteLand_cmd (row := { fld := Reg.AGE_CMD_CLRHIST, ty := .cmd }) hq (by decide +kernel) rfl rfl (by decide) (by decide) (by decide) hy
  have hA : Dev.Acts [Reg.AGE_NDAYS_COUNT, Reg.AGE_STATUS_VALID] [] { s.dev.slowTail r with age := { s.dev.age with hist := { s.dev.age.hist with means := [], days := [] } } }
      (s.dev.slowTail r).clrHistGo := ((Dev.Acts.refl _ _).wr (f := Reg.AGE_NDAYS_COUNT) 0 (by simp) rfl).wr (f := Reg.AGE_STATUS_VALID) 0 (by simp) rfl
  have v1 : (s.dev.slowTail r).clrHistGo.rd Reg.AGE_NDAYS_COUNT = 0 := (Dev.rd_wr_sep _ _ _ _ rfl).trans (Dev.rd_wr_lt _ _ _ rfl (by decide))
  have v2 : (s.dev.slowTail r).clrHistGo.rd Reg.AGE_STATUS_VALID = 0 := Dev.rd_wr_lt _ _ _ rfl (by decide)
  have hage : (s.dev.slowTail r).clrHistGo.age = { s.dev.age with hist := { s.dev.age.hist with means := [], days := [] } } := rfl
  have hpw : (s.dev.slowTail r).clrHistGo.pwr = s.dev.pwr := rfl
  have hD : Dev.CmdLanded [Reg.AGE_NDAYS_COUNT, Reg.AGE_STATUS_VALID] s r (s.dev.slowTail r).clrHistGo := ⟨rfl, fun g hg ha => hA.same g hg ha⟩
  generalize (s.dev.slowTail r).clrHistGo = D at hD v1 v2 hage hpw hrun
  have hE := D.edged
  have hrd : ∀ f, f.addr ≠ Reg.PWR_STATUS_TARGET.addr → (D.slowEdge.powerLeave 8).settle.rd f = D.rd f := fun f hf => by
    rw [Dev.settle_rd, Dev.rd, hE.word, Dev.word_wr_ne _ _ _ _ (Ne.symm hf), Dev.rd]
  generalize D.slowEdge.powerLeave 8 = E at hE hrun hrd
  refine ⟨_, ⟨hrun, rfl, rfl⟩, edgeCame_of hD hE rfl, exits_false hD hE rfl (by decide) (by rw [hpw]), (hrd _ (by decide)).trans v1, (hrd _ (by decide)).trans v2,
    onlyFields_edge hD hE rfl (by decide), ?_⟩
  have h2 := around_edge (t := { s with dev := E.settle }) hD hE rfl
  rw [hage] at h2
  exact h2

theorem temperatureAndAgeing : TemperatureAndAgeing := ⟨temp_shows, degMeasure_shows, ageCorrUpdate_moves, clrHist_lands⟩

end Sys2Proof.Machine
end

section
-- What runs beside a check is held in memory with it: the declarations of this section are elaborated in turn.
set_option Elab.async false
/-! The ageing rate: the line of least squares through the valid days (R494). -/
namespace Sys2Proof.Machine
open Sys2Proof.Claims

/-! ### Least squares -/

theorem foldl_add_eq_sum (l : List Rat) : l.foldl (· + ·) 0 = l.sum := List.sum_eq_foldl.symm

/-- The sum of the squares of `v - k u + c`, by the moments of `u` and `v`. -/
theorem sum_squares {α : Type} (l : List α) (u v : α → Rat) (k c : Rat) :
    (l.map fun e => (v e - k * u e + c) * (v e - k * u e + c)).sum =
      (l.map fun e => v e * v e).sum - 2 * k * (l.map fun e => u e * v e).sum + k * k * (l.map fun e => u e * u e).sum +
        2 * c * (l.map v).sum - 2 * c * k * (l.map u).sum + l.length * (c * c) := by
  induction l with
  | nil => simp
  | cons e l ih =>
    simp only [List.map_cons, List.sum_cons, List.length_cons, ih]
    push_cast
    ring

theorem sum_sub_const {α : Type} (l : List α) (x : α → Rat) (m : Rat) : (l.map fun e => x e - m).sum = (l.map x).sum - l.length * m := by
  induction l with
  | nil => simp
  | cons e l ih =>
    simp only [List.map_cons, List.sum_cons, List.length_cons, ih]
    push_cast
    ring

theorem sum_sub_mean {α : Type} {l : List α} (hl : l ≠ []) (x : α → Rat) : (l.map fun e => x e - (l.map x).sum / l.length).sum = 0 := by
  have hn : (l.length : Rat) ≠ 0 := by simpa using hl
  rw [sum_sub_const]
  field_simp
  ring

theorem sum_mul_self_nonneg {α : Type} (l : List α) (u : α → Rat) : 0 ≤ (l.map fun e => u e * u e).sum :=
  List.sum_nonneg fun x hx => by
    obtain ⟨e, -, rfl⟩ := List.mem_map.mp hx
    exact mul_self_nonneg _

/-- Where all `u` vanish in the sum of squares, every product with them vanishes. -/
theorem sum_mul_eq_zero {α : Type} {l : List α} {u v : α → Rat} (h : (l.map fun e => u e * u e).sum = 0) : (l.map fun e => u e * v e).sum = 0 := by
  induction l with
  | nil => rfl
  | cons e l ih =>
    rw [List.map_cons, List.sum_cons] at h ⊢
    have h1 := mul_self_nonneg (u e)
    have h2 := sum_mul_self_nonneg l u
    have h3 : u e = 0 := mul_self_eq_zero.mp (by linarith)
    rw [h3, zero_mul, zero_add, ih (by linarith)]

section
variable (l : List (Nat × Rat))

/-- The means of the days and of their values, and the slope of least squares. -/
def dayMean : Rat := (l.map fun e => (e.1 : Rat)).sum / l.length
def valueMean : Rat := (l.map fun e => e.2).sum / l.length
def daySpread : Rat := (l.map fun e => ((e.1 : Rat) - dayMean l) * ((e.1 : Rat) - dayMean l)).sum
def dayProduct : Rat := (l.map fun e => ((e.1 : Rat) - dayMean l) * (e.2 - valueMean l)).sum
def slope : Rat := dayProduct l / daySpread l

theorem dayProduct_eq : dayProduct l = slope l * daySpread l := by
  by_cases h : daySpread l = 0
  · rw [h, mul_zero]
    exact sum_mul_eq_zero h
  · rw [slope, div_mul_cancel₀ _ h]

theorem residuals_eq {l : List (Nat × Rat)} (hl : l ≠ []) (k b : Rat) : residuals l k b =
    (l.map fun e => (e.2 - valueMean l) * (e.2 - valueMean l)).sum - 2 * k * (slope l * daySpread l) + k * k * daySpread l +
      l.length * ((valueMean l - k * dayMean l - b) * (valueMean l - k * dayMean l - b)) := by
  have h := sum_squares l (fun e => (e.1 : Rat) - dayMean l) (fun e => e.2 - valueMean l) k (valueMean l - k * dayMean l - b)
  have hu : (l.map fun e => (e.1 : Rat) - dayMean l).sum = 0 := sum_sub_mean hl _
  have hv : (l.map fun e => e.2 - valueMean l).sum = 0 := sum_sub_mean hl _
  have hr : residuals l k b = (l.map fun e => (e.2 - valueMean l - k * ((e.1 : Rat) - dayMean l) + (valueMean l - k * dayMean l - b)) *
      (e.2 - valueMean l - k * ((e.1 : Rat) - dayMean l) + (valueMean l - k * dayMean l - b))).sum := by
    unfold residuals
    congr 1
    refine List.map_congr_left fun e _ => ?_
    ring
  rw [hr, h, hu, hv, ← dayProduct_eq, dayProduct, daySpread]
  ring

/-- The line of least squares. -/
theorem residuals_least {l : List (Nat × Rat)} (hl : l ≠ []) (k b : Rat) :
    residuals l (slope l) (valueMean l - slope l * dayMean l) ≤ residuals l k b := by
  rw [residuals_eq hl, residuals_eq hl]
  have h1 : 0 ≤ daySpread l := sum_mul_self_nonneg l fun e => (e.1 : Rat) - dayMean l
  have h2 : 0 ≤ (l.length : Rat) := Nat.cast_nonneg _
  have h3 : 0 ≤ (k - slope l) * (k - slope l) * daySpread l := mul_nonneg (mul_self_nonneg _) h1
  have h4 : 0 ≤ (l.length : Rat) * ((valueMean l - k * dayMean l - b) * (valueMean l - k * dayMean l - b)) := mul_nonneg h2 (mul_self_nonneg _)
  have h5 : valueMean l - slope l * dayMean l - (valueMean l - slope l * dayMean l) = 0 := by ring
  rw [h5]
  nlinarith only [h3, h4]

/-- The fit of the model is the line of least squares. -/
theorem fitLine_eq (l : List (Nat × Rat)) : fitLine (l.map fun e => ((e.1 : Rat), e.2)) = (slope l, residuals l (slope l) (valueMean l - slope l * dayMean l)) := by
  have hx : meanOf ((l.map fun e => ((e.1 : Rat), e.2)).map (·.1)) = dayMean l := by
    rw [meanOf, foldl_add_eq_sum, List.map_map, List.length_map]
    rfl
  have hy : meanOf ((l.map fun e => ((e.1 : Rat), e.2)).map (·.2)) = valueMean l := by
    rw [meanOf, foldl_add_eq_sum, List.map_map, List.length_map]
    rfl
  unfold fitLine
  rw [hx, hy]
  dsimp only
  rw [foldl_add_eq_sum, foldl_add_eq_sum, foldl_add_eq_sum, List.map_map, List.map_map, List.map_map]
  have hk : (l.map ((fun p : Rat × Rat => (p.1 - dayMean l) * (p.2 - valueMean l)) ∘ fun e => ((e.1 : Rat), e.2))).sum /
      (l.map ((fun p : Rat × Rat => (p.1 - dayMean l) * (p.1 - dayMean l)) ∘ fun e => ((e.1 : Rat), e.2))).sum = slope l := rfl
  rw [hk]
  congr 1
  unfold residuals
  congr 1
  refine List.map_congr_left fun e _ => ?_
  dsimp only [Function.comp]
  ring

end

/-! ### The rate that is shown -/

/-- The valid days that the fit takes. -/
def Dev.fitDays (d : Dev) : List (Nat × Rat) := d.age.hist.days.drop (d.age.hist.days.length - d.rd Reg.AGE_CFG_DAYS)

/-- The rate and its validity are shown. -/
def Dev.fitShown (d : Dev) (rate : Nat) (ok : Bool) : Dev :=
  (((d.wr Reg.AGE_OCXORATE_RATE rate).wr Reg.AGE_STATUS_VALID (bit ok)).flag Reg.AGE_STATUS_AGEEV).post 2 4 (bit ok * 2 ^ 8 + rate * 2 ^ 32)

theorem Dev.ageFit_few {d : Dev} (h : d.fitDays.length < 2) :
    d.ageFit = (d.wr Reg.AGE_NDAYS_COUNT (d.fitDays.length % 256)).fresh.1.fitShown (d.wr Reg.AGE_NDAYS_COUNT (d.fitDays.length % 256)).fresh.2.toNat false := by
  unfold Dev.ageFit
  dsimp only
  rw [if_pos (show (d.age.hist.days.drop (d.age.hist.days.length - d.rd Reg.AGE_CFG_DAYS)).length < 2 from h)]
  rfl

theorem Dev.ageFit_line {d : Dev} (h : ¬ d.fitDays.length < 2) : d.ageFit = (d.wr Reg.AGE_NDAYS_COUNT (d.fitDays.length % 256)).fitShown
    (sat32 (quot 14 ((fitLine (d.fitDays.map fun e : Nat × Rat => ((e.1 : Rat), e.2))).1 * 1000 / 2 ^ 20).num ((fitLine (d.fitDays.map fun e : Nat × Rat => ((e.1 : Rat), e.2))).1 * 1000 / 2 ^ 20).den))
    (decide (7 ≤ d.fitDays.length) && decide ((fitLine (d.fitDays.map fun e : Nat × Rat => ((e.1 : Rat), e.2))).2 ≤ (d.fitDays.length : Rat) * 2 ^ 38)) := by
  unfold Dev.ageFit
  dsimp only
  rw [if_neg (show ¬ (d.age.hist.days.drop (d.age.hist.days.length - d.rd Reg.AGE_CFG_DAYS)).length < 2 from h)]
  rfl

/-- The registers that show the fit. -/
def fitFields : List Fld := [Reg.AGE_NDAYS_COUNT, Reg.AGE_OCXORATE_RATE, Reg.AGE_STATUS_VALID, Reg.AGE_STATUS_AGEEV]

theorem Dev.fitShown_told (d : Dev) {rate : Nat} (hr : rate < 2 ^ 32) (ok : Bool) :
    Dev.Acts fitFields [(2, 4, bit ok * 2 ^ 8 + rate * 2 ^ 32)] d (d.fitShown rate ok) ∧ (d.fitShown rate ok).rd Reg.AGE_OCXORATE_RATE = rate ∧
    (d.fitShown rate ok).rd Reg.AGE_STATUS_VALID = bit ok ∧ (d.fitShown rate ok).rd Reg.AGE_STATUS_AGEEV = 1 ∧
    (d.fitShown rate ok).rd Reg.AGE_NDAYS_COUNT = d.rd Reg.AGE_NDAYS_COUNT := by
  unfold Dev.fitShown
  generalize bit ok * 2 ^ 8 + rate * 2 ^ 32 = a
  have hb : bit ok < 2 ^ 1 := by cases ok <;> decide
  refine ⟨((((Dev.Acts.refl _ d).wr rate (by decide) rfl).wr (bit ok) (by decide) rfl).flag (by decide) rfl).post 2 4 a, ?_, ?_, ?_, ?_⟩
  · rw [Dev.post_rd, Dev.rd_flag_sep _ _ _ rfl, Dev.rd_wr_sep _ _ _ _ rfl]
    exact Dev.rd_wr_lt _ _ _ rfl hr
  · rw [Dev.post_rd, Dev.rd_flag_sep _ _ _ rfl]
    exact Dev.rd_wr_lt _ Reg.AGE_STATUS_VALID _ rfl hb
  · rw [Dev.post_rd, Dev.rd_flag _ _ rfl]
  · rw [Dev.post_rd, Dev.rd_flag_sep _ _ _ rfl, Dev.rd_wr_sep _ _ _ _ rfl, Dev.rd_wr_sep _ _ _ _ rfl]

/-- A rounded quotient lies within one of the value. -/
theorem quot_rat_near (w : Nat) (x : Rat) : (quot w x.num x.den : Rat) - x < 1 ∧ x - (quot w x.num x.den : Rat) < 1 := by
  have h := quot_near w x.num x.den_pos
  have hd : (0 : Rat) < x.den := by exact_mod_cast x.den_pos
  have hx : x = x.num / x.den := (Rat.num_div_den x).symm
  have h1 : |(x.den : Int) * quot w x.num x.den - x.num| < x.den := by
    rw [Int.abs_eq_natAbs]
    exact_mod_cast h
  have h2 : |(x.den : Rat) * quot w x.num x.den - x.num| < x.den := by exact_mod_cast h1
  obtain ⟨h3, h4⟩ := abs_lt.mp h2
  have hm : (x.den : Rat) * x = x.num := by
    rw [mul_comm]
    exact Rat.mul_den_eq_num x
  refine ⟨?_, ?_⟩
  · refine (mul_lt_mul_iff_right₀ hd).mp ?_
    linarith
  · refine (mul_lt_mul_iff_right₀ hd).mp ?_
    linarith

/-- What a fit of the days of `d` leaves. -/
theorem Dev.ageFit_told (d : Dev) : let D := d.ageFit
    ∃ arg, Dev.Acts fitFields [(2, 4, arg)] { d with free := D.free } D ∧ arg = D.rd Reg.AGE_STATUS_VALID * 2 ^ 8 + D.rd Reg.AGE_OCXORATE_RATE * 2 ^ 32 ∧
    D.rd Reg.AGE_NDAYS_COUNT = d.fitDays.length % 2 ^ 8 ∧ D.rd Reg.AGE_STATUS_AGEEV = 1 ∧ (d.fitDays.length < 7 → D.rd Reg.AGE_STATUS_VALID = 0) ∧
    (2 ≤ d.fitDays.length → ∃ (k b : Rat) (q : Int), (∀ k' b', residuals d.fitDays k b ≤ residuals d.fitDays k' b') ∧
      (q : Rat) - k * 1000 / 2 ^ 20 < 1 ∧ k * 1000 / 2 ^ 20 - (q : Rat) < 1 ∧
      D.rd Reg.AGE_OCXORATE_RATE = uint 32 (max (-(2 ^ 31)) (min q (2 ^ 31 - 1))) ∧
      (D.rd Reg.AGE_STATUS_VALID = 1 ↔ 7 ≤ d.fitDays.length ∧ residuals d.fitDays k b / (d.fitDays.length : Rat) ≤ (2 ^ 19) * (2 ^ 19))) := by
  intro D
  have hN : Dev.Acts fitFields [] d (d.wr Reg.AGE_NDAYS_COUNT (d.fitDays.length % 256)) := (Dev.Acts.refl _ d).wr _ (by decide) rfl
  have vN : (d.wr Reg.AGE_NDAYS_COUNT (d.fitDays.length % 256)).rd Reg.AGE_NDAYS_COUNT = d.fitDays.length % 2 ^ 8 :=
    Dev.rd_wr_lt _ _ _ rfl (Nat.mod_lt _ (by decide))
  -- what a rate and its validity leave, shown on `N`
  have key : ∀ (N : Dev) (rate : Nat) (ok : Bool), rate < 2 ^ 32 → Dev.Acts fitFields [] { d with free := N.free } N →
      N.rd Reg.AGE_NDAYS_COUNT = d.fitDays.length % 2 ^ 8 → D = N.fitShown rate ok →
      ∃ arg, Dev.Acts fitFields [(2, 4, arg)] { d with free := D.free } D ∧ arg = D.rd Reg.AGE_STATUS_VALID * 2 ^ 8 + D.rd Reg.AGE_OCXORATE_RATE * 2 ^ 32 ∧
        D.rd Reg.AGE_NDAYS_COUNT = d.fitDays.length % 2 ^ 8 ∧ D.rd Reg.AGE_STATUS_AGEEV = 1 ∧ D.rd Reg.AGE_STATUS_VALID = bit ok ∧
        D.rd Reg.AGE_OCXORATE_RATE = rate := by
    intro N rate ok hr hA hv hD
    obtain ⟨a1, a2, a3, a4, a5⟩ := N.fitShown_told hr ok
    rw [← hD] at a1 a2 a3 a4 a5
    have hf : D.free = N.free := by rw [a1.only]
    refine ⟨_, ?_, by rw [a3, a2], a5.trans hv, a4, a3, a2⟩
    rw [hf]
    exact hA.trans a1
  by_cases h2 : d.fitDays.length < 2
  · obtain ⟨arg, k1, k2, k3, k4, k5, -⟩ := key (d.wr Reg.AGE_NDAYS_COUNT (d.fitDays.length % 256)).fresh.1 _ false (d.wr Reg.AGE_NDAYS_COUNT (d.fitDays.length % 256)).fresh.2.isLt
      ⟨by rw [List.append_nil]; rfl, fun g hg ha => hN.same g hg ha⟩ vN (Dev.ageFit_few h2)
    exact ⟨arg, k1, k2, k3, k4, fun _ => k5, fun h => absurd h2 (Nat.not_lt.mpr h)⟩
  · have hD := Dev.ageFit_line h2
    rw [fitLine_eq d.fitDays] at hD
    obtain ⟨arg, k1, k2, k3, k4, k5, k6⟩ := key _ _ _ (sat32_lt _) ⟨by rw [List.append_nil]; rfl, fun g hg ha => hN.same g hg ha⟩ vN hD
    have hne : d.fitDays ≠ [] := fun h => h2 (by rw [h]; decide)
    have hpos : (0 : Rat) < d.fitDays.length := by exact_mod_cast List.length_pos_iff.mpr hne
    obtain ⟨q1, q2⟩ := quot_rat_near 14 (slope d.fitDays * 1000 / 2 ^ 20)
    have hok : (decide (7 ≤ d.fitDays.length) && decide (residuals d.fitDays (slope d.fitDays) (valueMean d.fitDays - slope d.fitDays * dayMean d.fitDays) ≤
        (d.fitDays.length : Rat) * 2 ^ 38)) = true ↔ 7 ≤ d.fitDays.length ∧ residuals d.fitDays (slope d.fitDays) (valueMean d.fitDays - slope d.fitDays * dayMean d.fitDays) /
        (d.fitDays.length : Rat) ≤ (2 ^ 19) * (2 ^ 19) := by
      rw [Bool.and_eq_true, decide_eq_true_eq, decide_eq_true_eq, div_le_iff₀ hpos, show (2 : Rat) ^ 19 * 2 ^ 19 * (d.fitDays.length : Rat) = d.fitDays.length * 2 ^ 38 by ring]
    refine ⟨arg, k1, k2, k3, k4, fun h7 => ?_, fun _ => ⟨_, _, _, residuals_least hne, q1, q2, k6, ?_⟩⟩
    · rw [k5, decide_eq_false (by omega), Bool.false_and]
      rfl
    · rw [k5, ← hok]
      generalize (decide (7 ≤ d.fitDays.length) && _) = ok
      cases ok <;> decide

theorem meanOf_map (l : List Int) : meanOf (l.map fun (m : Int) => (m : Rat)) = (l.map fun (m : Int) => (m : Rat)).sum / (l.length : Rat) := by
  rw [meanOf, foldl_add_eq_sum, List.length_map]

/-- The record at the end of a day. -/
def Dev.dayOver (d : Dev) : Age :=
  let r := d.age.hist
  let days := if 20 ≤ r.means.length then r.days ++ [(r.day, meanOf (r.means.map fun (m : Int) => (m : Rat)))] else r.days
  { d.age with hist := { r with means := [], day := r.day + 1, days := days.drop (days.length - 60) }, dayAt := d.age.dayAt + 691200000 }

theorem execOcxoest_eq (s : State) : exec .ocxoest s = onDev (fun d =>
    if !d.ageDue d.age.dayAt 691200000 then d else ({ d with age := d.dayOver } : Dev).ageFit) s := rfl

theorem daysGiveTheAgeingRate : DaysGiveTheAgeingRate := by
  intro s r n mean all days fit due
  have hrun := runs_of_onDev (execOcxoest_eq s)
  have hdue : (!s.dev.ageDue s.dev.age.dayAt 691200000) = true ↔ ¬ due := by
    rw [Bool.not_eq_true', ← Bool.not_eq_true, Dev.ageDue_iff]
  refine ⟨fun h => ?_, fun h => ?_⟩
  · rw [if_pos (hdue.mpr h)] at hrun
    exact ⟨_, hrun, fun _ _ => rfl, rfl⟩
  rw [if_neg fun h' => hdue.mp h' h] at hrun
  have hmean : meanOf (r.means.map fun (m : Int) => (m : Rat)) = mean := meanOf_map _
  have hage : s.dev.dayOver = { s.dev.age with hist := { r with means := [], day := r.day + 1, days := days }, dayAt := s.dev.age.dayAt + 691200000 } := by
    unfold Dev.dayOver
    dsimp only
    rw [hmean]
  obtain ⟨arg, k1, k2, k3, k4, k5, k6⟩ := Dev.ageFit_told { s.dev with age := s.dev.dayOver }
  have hfit : Dev.fitDays { s.dev with age := s.dev.dayOver } = fit := by
    unfold Dev.fitDays
    dsimp only
    rw [hage]
    rfl
  rw [hfit] at k3 k5 k6
  clear_value fit days
  have ka : (Dev.ageFit { s.dev with age := s.dev.dayOver }).age = s.dev.dayOver := congrArg Dev.age k1.only
  have hA : Dev.Acts fitFields [(2, 4, arg)]
      { s.dev with age := (Dev.ageFit { s.dev with age := s.dev.dayOver }).age, free := (Dev.ageFit { s.dev with age := s.dev.dayOver }).free } (Dev.ageFit { s.dev with age := s.dev.dayOver }) := by
    rw [ka]
    exact k1
  have hA2 := ka.trans hage
  clear k1 ka hfit
  generalize Dev.ageFit { s.dev with age := s.dev.dayOver } = D at hrun k2 k3 k4 k5 k6 hA hA2
  refine ⟨{ s with dev := D.settle }, hrun, hA2, k3, k4, k5, k6, hA.same, fun hroom => ?_, hA.around⟩
  have := hA.enters (s := s) (t := { s with dev := D.settle }) rfl rfl 2 (by decide) (by simp) (by simp) hroom rfl
  rw [k2] at this
  exact this

/-- Settles O59: the landings of SAFE, RESUME, WAKE and CLRHIST by the rule of a command that lands, and the rest part by part. -/
theorem hotPlugPowerAndAgeing : Obligations.HotPlugPowerAndAgeing :=
  ⟨cardsComeAndGo, deepStatesAreLeft, railsAreReadBack, marginsAct, temperatureAndAgeing, daysGiveTheAgeingRate⟩

end Sys2Proof.Machine
end
